-- ==== Sys2Proof/Machine/Maps.lean ====
section
/-!
DEFINITION. Sparse maps in one canonical form: a list of key and value pairs with strictly rising keys in which no
value equals what an unlisted key reads as. Every repeated piece of state (register instances, per-port and
per-context state, memory) is held in one of these.
-/

namespace Sys2Proof.Machine

/-- A key: the indices of one instance. -/
abbrev Key := List Nat

/-- The order of keys: lexicographic. -/
def keyLt : Key → Key → Bool
  | [], [] => false
  | [], _ :: _ => true
  | _ :: _, [] => false
  | a :: as, b :: bs => if a < b then true else if a = b then keyLt as bs else false

/-- A sparse map from keys to values. -/
structure SMap (V : Type) where
  entries : List (Key × V) := []
  deriving DecidableEq, Repr, Inhabited

/-- The value listed for a key. -/
def entriesFind {V : Type} (k : Key) : List (Key × V) → Option V
  | [] => none
  | (k', v) :: t => if k' = k then some v else entriesFind k t

/-- The pairs without those of a key. -/
def entriesErase {V : Type} (k : Key) (l : List (Key × V)) : List (Key × V) :=
  l.filter (fun e => decide (e.1 ≠ k))

/-- The pairs with one more, put before the first larger key. -/
def entriesInsert {V : Type} (k : Key) (v : V) : List (Key × V) → List (Key × V)
  | [] => [(k, v)]
  | (k', v') :: t => if keyLt k k' then (k, v) :: (k', v') :: t else (k', v') :: entriesInsert k v t

/-- Reading: an unlisted key reads as `d`. -/
def SMap.getD {V : Type} (m : SMap V) (k : Key) (d : V) : V := (entriesFind k m.entries).getD d

/-- Writing: the pair of `k` is replaced, and no pair is kept whose value is `d`, what the key reads as unlisted. -/
def SMap.putD {V : Type} [DecidableEq V] (m : SMap V) (k : Key) (v d : V) : SMap V :=
  if v = d then { entries := entriesErase k m.entries }
  else { entries := entriesInsert k v (entriesErase k m.entries) }

/-- Reading where an unlisted key reads as the type's first value. -/
def SMap.get {V : Type} [Inhabited V] (m : SMap V) (k : Key) : V := m.getD k default

/-- Writing where an unlisted key reads as the type's first value. -/
def SMap.set {V : Type} [Inhabited V] [DecidableEq V] (m : SMap V) (k : Key) (v : V) : SMap V :=
  m.putD k v default

/-- Changing the value of one key. -/
def SMap.upd {V : Type} [Inhabited V] [DecidableEq V] (m : SMap V) (k : Key) (f : V → V) : SMap V :=
  m.set k (f (m.get k))

/-- The canonical form: keys strictly rising, and no value that an unlisted key would read as. -/
def entriesSorted {V : Type} : List (Key × V) → Bool
  | [] => true
  | e :: t => t.all (fun e' => keyLt e.1 e'.1) && entriesSorted t

/-- The canonical form of a map whose unlisted keys read as `d`. -/
def SMap.wfD {V : Type} [DecidableEq V] (m : SMap V) (d : Key → V) : Bool :=
  entriesSorted m.entries && m.entries.all (fun e => decide (e.2 ≠ d e.1))

/-- The canonical form of a map whose unlisted keys read as the type's first value. -/
def SMap.wf {V : Type} [Inhabited V] [DecidableEq V] (m : SMap V) : Bool := m.wfD (fun _ => default)

end Sys2Proof.Machine
end

