-- ==== Sys2Proof/Machine/Regs.lean ====
section
/-!
DEFINITION. The registers of BAR0 and their fields, transcribed from the register tables of spec/
(R42, R97, R136, R138, R175, R199, R214, R222, R257, R258, R277, R292, R338, R376, R405, R406, R433, R434,
R476, R477, R478) and the index of spec/15_register_index.md (R479 to R482).
-/

namespace Sys2Proof.Machine

/-- The registers of BAR0, by the manual's names (R8). An instance is a `Reg` with up to two indices (R9). -/
inductive Reg where
  | GLB_DEV_ID
  | GLB_ROLE
  | GLB_DUM_GEN
  | GLB_DUM_SUMMARY
  | GLB_DUM_DIGEST
  | GLB_RING_STAT
  | GLB_RING_LINK
  | GLB_ACCESS_ERR
  | GLB_ACCESS_ADDR
  | PWR_INPUT
  | PWR_INPUT_EXT
  | PWR_RAIL
  | PWR_CLK_STAT
  | PWR_THERM_CFG
  | PWR_THERM_HOT
  | PWR_HOST_OFF
  | PWR_MGT_OFF
  | PWR_DOM_STAT
  | PWR_TEMP
  | BOOT_STAT
  | BOOT_TIMES
  | BOOT_VERSION
  | BOOT_NVM
  | BOOT_FW_DIGEST
  | BOOT_CFG_DIGEST
  | SEC_STAT
  | SEC_DEBUG_LOCK
  | SEC_IDENT
  | SEC_AUTH_LAST
  | SEC_MGT_CFG
  | SEC_MGT_PEER
  | SEC_MGT_STAT
  | FLT_SRC_STAT
  | FLT_SRC_COUNT
  | FLT_SRC_INFO
  | FLT_SRC_CFG
  | FLT_SUMMARY
  | FLT_TOP
  | FLT_PIN
  | FLT_GCFG
  | FLT_MGT
  | FLT_SELF
  | FLT_INJECT
  | FLT_RESET_CAUSE
  | EVR_CFG
  | EVR_NEXT
  | EVR_STAT
  | EVR_TRIGGER
  | EVR_RING
  | EVR_RING_OLDEST
  | EVR_RING_SEL
  | EVR_RING_STAT
  | EVR_ECC
  | EVR_OPSEC
  | EVR_SET
  | PRT_LINK_CFG
  | PRT_LINK_STAT
  | PRT_DISC
  | PRT_RX_ERR
  | PRT_FC_STAT
  | PRT_FEC_CW
  | PRT_FEC_ERR
  | PRT_FEC_HIST
  | PRT_FEC_TREND
  | PRT_TEST
  | PRT_TEST_STAT
  | PRT_PRBS_ERR
  | PRT_FC_CFG
  | PRT_CREDIT
  | PRT_TIME_PORT
  | PRT_FRAMES
  | PRT_IDENT_RX
  | PRT_LSM_STAT
  | PRT_LSM_POWER
  | PRT_LSM_BIAS
  | PRT_LSM_CTL
  | PRT_LSM_THR
  | PRT_TIME_CFG
  | PRT_TIME_NOW
  | PRT_TIME_STAT
  | PRT_TIME_OFFSET
  | PRT_DISC_SUM
  | PRT_DISC_CFG
  | PRT_DISC_GEN
  | PRT_ACC_FW
  | LST_CFG
  | LST_STATE
  | LST_TIMEOUT
  | LST_SEG
  | LST_OPS
  | LST_MEMBER
  | LST_PLAN_STAT
  | LST_PLAN_CHECKS
  | LST_PLAN_CFG
  | LST_PLAN_DIGEST
  | LST_RUN_SRC
  | LST_RUN_DST
  | OPC_DECL
  | OPC_LIMIT
  | OPC_RUNS
  | OPC_STATE
  | OPC_EXPECT
  | OPC_RECV
  | OPC_BYTES
  | OPC_DROPS
  | OPC_OPS
  | OPC_FAIL
  | OPC_TAG
  | OPC_UNDECL
  | OPC_UNDECL_LAST
  | OPC_REFUSED
  | OPC_ABORT
  | OPC_XCH_CFG
  | OPC_XCH_PLACED
  | OPC_XCH_DROPPED
  | OPC_XCH_PEAK
  | OPC_XCH_BAD
  | CL_STATE
  | CL_PARITY_ERR
  | CL_OCCUPANCY
  | CL_REPLAYS
  | CL_TEST
  | CL_WELT_ECC
  | CL_NODES
  | CL_LAST_ERR
  | CL_CHUNKS
  | CL_SUMMARY
  | CL_WAIT_CYCLES
  | CL_SPARES
  | CL_BUSY_CYCLES
  | CL_OWN_GEN
  | CL_RESIDUE_ERR
  | CL_LOG2PHYS
  | CL_OWNER
  | WLT_CTX
  | WLT_QUOTA
  | WLT_SPILL_LIMIT
  | WLT_GRANT_CFG
  | WLT_STATE
  | WLT_ADMITS
  | WLT_HOLDS
  | WLT_SPILL_USED
  | WLT_WELT_USED
  | WLT_WAITS
  | WLT_SPILL_CFG
  | WLT_SHARED
  | WLT_REGION
  | WLT_GRANT_FRAMES
  | INS_ECC
  | INS_ECC_LAST
  | INS_GROUP_SCHED
  | INS_GROUP_OPP
  | BPM_POOL_CFG
  | BPM_POOL_FREE
  | BPM_POOL_LOW
  | BPM_POOL_BASE
  | BPM_ACCT
  | BPM_HELD
  | BPM_GCFG
  | BPM_ERR
  | BPM_ERR_COUNT
  | BPM_ERR_LAST
  | BPM_TAG_ECC
  | BPM_DROPS
  | INS_FENCE
  | INS_MC_STORES
  | INS_MC_ENQUEUES
  | INS_FENCE_GEN
  | INS_MC_FENCED_DROP
  | SCH_WIN
  | SCH_PORT_CFG
  | SCH_WIN_BASE
  | SCH_GATE_HOLD
  | SCH_WIN_IDLE
  | SCH_LAND
  | SCH_SENT
  | SCH_PERIOD
  | SCH_GCFG
  | SCH_EPOCH
  | SCH_ROUND
  | SCH_EXACT_LOSS
  | SCH_CHG
  | SCH_CHG_CFG
  | SCH_CHG_STAT
  | SCH_CHG_PORTS
  | SCH_DEG_STAT
  | SCH_MATCH_STAT
  | SCH_SLIPS
  | SCH_RESEQ_STAT
  | SHP_SHAPE_CFG
  | SHP_SHAPE_STATE
  | SHP_SHAPE_STAT
  | SHP_POL_CFG
  | SHP_POL_STATE
  | SHP_POL_STAT
  | SHP_MIR_CFG
  | SHP_MIR_STAT
  | SHP_MIR_DROP
  | SHP_MIR_PEND
  | NUM_CFG
  | NUM_WARM
  | NUM_SEED
  | NUM_STATE_BASE
  | NUM_OPSEQ
  | NUM_SAT
  | NUM_NONFIN_IN
  | NUM_NONFIN_GEN
  | NUM_UNDERFLOW
  | NUM_ZR
  | NUM_SHADOW
  | NUM_SHADOW_MAX
  | NUM_GCFG
  | NUM_ZR_LIMIT
  | NUM_WARM_CFG
  | NUM_ZR_LAST
  | NUM_SHADOW_LAST
  | NUM_MON_STAT
  | NUM_STATE_LOST
  | CKP_LAST_CFG
  | CKP_LAST_STAT
  | CKP_EPOCH
  | CKP_FULL
  | CKP_GROUP
  | CKP_GROUP_SHARD
  | CKP_GROUP_STAT
  | CKP_CFG
  | CKP_REGION
  | CKP_TIER
  | CKP_CAD
  | CKP_CAD_PRIOR
  | CKP_CAD_OBS
  | CKP_CAD_STAT
  | CKP_LICHEN_W
  | CKP_LICHEN_THR
  | CKP_LICHEN
  | CKP_DRAIN
  | CKP_IMAGE
  | CKP_EVENTS
  | MEM_CH_STAT
  | MEM_CH_ECC
  | MEM_CH_ECC_LAST
  | MEM_CH_BYTES
  | MEM_GDDR_SIZE
  | MEM_GMAP_FW
  | MEM_GMAP_NUM
  | MEM_CXL_STAT
  | MEM_CXL_CAP
  | MEM_CXL_ERR
  | HST_MBX_ARG
  | HST_MBX_CMD
  | HST_MBX_RESP
  | HST_OP
  | HST_OP_DETAIL
  | HST_LINK_STAT
  | HST_ERR
  | HST_ERR_ADDR
  | MSIX_ADDR
  | MSIX_DATA
  | MSIX_CTRL
  | MSIX_PBA
  deriving DecidableEq, Repr

/-- The access codes of R18, and the four columns whose code depends on the instance (R482). -/
inductive Acc where
  | rw | ro | w1c | rc | wo | rwl
  /-- SCH_WIN: RWL for banks 0 and 1, RW for banks 2 and 3 (R253). -/
  | rwlWin
  /-- BPM_ACCT: RWL for accounts 0 to 15, RW for 16 to 19 (R272). -/
  | rwlAcct
  /-- FLT_SRC_CFG: RW, but RO for source 0 (R383). -/
  | rwSrc
  /-- FLT_SRC_CFG.BLOCK_RESET: RW, RO 0 for a source without a reset unit (R384). -/
  | rwResetUnit
  deriving DecidableEq, Repr

/-- The Reset column (R14). -/
inductive Rst where
  | const (n : Nat)
  /-- Loaded from the configuration image at boot. -/
  | nvm
  /-- The port's own index (SCH_PORT_CFG.GROUP_BASE). -/
  | portIndex
  /-- 0x700_0000 + p × 0x4000 (SCH_WIN_BASE.ADDR). -/
  | winAddr
  /-- The defaults of R358. -/
  | lichenHi | lichenLo
  deriving DecidableEq, Repr

/-- A named field: bits [hi:lo] of a register, its access code and its reset value. -/
structure Fld where
  reg : Reg
  hi  : Nat
  lo  : Nat
  acc : Acc
  rst : Rst
  deriving DecidableEq, Repr

/-- Number of bits of a field. -/
def Fld.width (f : Fld) : Nat := f.hi + 1 - f.lo

/-- Where a register lies: base address of instance (0, 0), the strides and counts of its two indices (R9), and its
width in bits (R10). -/
structure RegAt where
  base    : Nat
  stride1 : Nat
  count1  : Nat
  stride2 : Nat
  count2  : Nat
  bits    : Nat
  deriving DecidableEq, Repr

/-- The four port classes of R473. -/
inductive PortClass where
  | host | mgmt | fabric | nvm
  deriving DecidableEq, Repr

/-- GLB_ACCESS_ADDR.CLASS (R473). -/
def PortClass.code : PortClass → Nat
  | .host => 0 | .mgmt => 1 | .fabric => 2 | .nvm => 3

/-- R479: base, strides, counts and width of each register. For SCH_WIN(p, b, e) the second index is 512b + e; for
PRT_FEC_HIST(p, k) it is k - 1. -/
def Reg.at : Reg → RegAt
  | .GLB_DEV_ID => ⟨0x0, 0x0, 1, 0x0, 1, 64⟩
  | .GLB_ROLE => ⟨0x8, 0x0, 1, 0x0, 1, 32⟩
  | .GLB_DUM_GEN => ⟨0xc, 0x0, 1, 0x0, 1, 32⟩
  | .GLB_DUM_SUMMARY => ⟨0x10, 0x0, 1, 0x0, 1, 64⟩
  | .GLB_DUM_DIGEST => ⟨0x20, 0x8, 4, 0x0, 1, 64⟩
  | .GLB_RING_STAT => ⟨0x40, 0x0, 1, 0x0, 1, 64⟩
  | .GLB_RING_LINK => ⟨0x48, 0x0, 1, 0x0, 1, 64⟩
  | .GLB_ACCESS_ERR => ⟨0x50, 0x0, 1, 0x0, 1, 32⟩
  | .GLB_ACCESS_ADDR => ⟨0x58, 0x0, 1, 0x0, 1, 64⟩
  | .PWR_INPUT => ⟨0x100000, 0x0, 1, 0x0, 1, 64⟩
  | .PWR_INPUT_EXT => ⟨0x100008, 0x0, 1, 0x0, 1, 64⟩
  | .PWR_RAIL => ⟨0x100010, 0x0, 1, 0x0, 1, 64⟩
  | .PWR_CLK_STAT => ⟨0x100018, 0x0, 1, 0x0, 1, 64⟩
  | .PWR_THERM_CFG => ⟨0x100020, 0x0, 1, 0x0, 1, 32⟩
  | .PWR_THERM_HOT => ⟨0x100024, 0x0, 1, 0x0, 1, 32⟩
  | .PWR_HOST_OFF => ⟨0x100100, 0x8, 7, 0x0, 1, 64⟩
  | .PWR_MGT_OFF => ⟨0x100140, 0x8, 7, 0x0, 1, 64⟩
  | .PWR_DOM_STAT => ⟨0x100180, 0x8, 7, 0x0, 1, 64⟩
  | .PWR_TEMP => ⟨0x100200, 0x4, 40, 0x0, 1, 32⟩
  | .BOOT_STAT => ⟨0x200000, 0x0, 1, 0x0, 1, 64⟩
  | .BOOT_TIMES => ⟨0x200008, 0x0, 1, 0x0, 1, 64⟩
  | .BOOT_VERSION => ⟨0x200010, 0x0, 1, 0x0, 1, 64⟩
  | .BOOT_NVM => ⟨0x200018, 0x0, 1, 0x0, 1, 64⟩
  | .BOOT_FW_DIGEST => ⟨0x200020, 0x8, 4, 0x0, 1, 64⟩
  | .BOOT_CFG_DIGEST => ⟨0x200040, 0x8, 4, 0x0, 1, 64⟩
  | .SEC_STAT => ⟨0x300000, 0x0, 1, 0x0, 1, 64⟩
  | .SEC_DEBUG_LOCK => ⟨0x300008, 0x0, 1, 0x0, 1, 32⟩
  | .SEC_IDENT => ⟨0x300010, 0x8, 4, 0x0, 1, 64⟩
  | .SEC_AUTH_LAST => ⟨0x300030, 0x0, 1, 0x0, 1, 64⟩
  | .SEC_MGT_CFG => ⟨0x300038, 0x0, 1, 0x0, 1, 64⟩
  | .SEC_MGT_PEER => ⟨0x300040, 0x8, 8, 0x0, 1, 64⟩
  | .SEC_MGT_STAT => ⟨0x300080, 0x0, 1, 0x0, 1, 64⟩
  | .FLT_SRC_STAT => ⟨0x400000, 0x10, 128, 0x0, 1, 32⟩
  | .FLT_SRC_COUNT => ⟨0x400004, 0x10, 128, 0x0, 1, 32⟩
  | .FLT_SRC_INFO => ⟨0x400008, 0x10, 128, 0x0, 1, 64⟩
  | .FLT_SRC_CFG => ⟨0x400800, 0x4, 128, 0x0, 1, 32⟩
  | .FLT_SUMMARY => ⟨0x401000, 0x8, 2, 0x0, 1, 64⟩
  | .FLT_TOP => ⟨0x401010, 0x0, 1, 0x0, 1, 32⟩
  | .FLT_PIN => ⟨0x401014, 0x0, 1, 0x0, 1, 32⟩
  | .FLT_GCFG => ⟨0x401018, 0x0, 1, 0x0, 1, 32⟩
  | .FLT_MGT => ⟨0x40101c, 0x0, 1, 0x0, 1, 32⟩
  | .FLT_SELF => ⟨0x401020, 0x0, 1, 0x0, 1, 64⟩
  | .FLT_INJECT => ⟨0x401028, 0x0, 1, 0x0, 1, 32⟩
  | .FLT_RESET_CAUSE => ⟨0x40102c, 0x0, 1, 0x0, 1, 32⟩
  | .EVR_CFG => ⟨0x500000, 0x0, 1, 0x0, 1, 32⟩
  | .EVR_NEXT => ⟨0x500008, 0x0, 1, 0x0, 1, 64⟩
  | .EVR_STAT => ⟨0x500010, 0x0, 1, 0x0, 1, 64⟩
  | .EVR_TRIGGER => ⟨0x500018, 0x0, 1, 0x0, 1, 64⟩
  | .EVR_RING => ⟨0x500020, 0x0, 1, 0x0, 1, 64⟩
  | .EVR_RING_OLDEST => ⟨0x500028, 0x0, 1, 0x0, 1, 64⟩
  | .EVR_RING_SEL => ⟨0x500030, 0x0, 1, 0x0, 1, 64⟩
  | .EVR_RING_STAT => ⟨0x500038, 0x0, 1, 0x0, 1, 32⟩
  | .EVR_ECC => ⟨0x50003c, 0x0, 1, 0x0, 1, 32⟩
  | .EVR_OPSEC => ⟨0x500040, 0x0, 1, 0x0, 1, 64⟩
  | .EVR_SET => ⟨0x501000, 0x80, 4, 0x4, 32, 32⟩
  | .PRT_LINK_CFG => ⟨0x1000000, 0x1000, 256, 0x0, 1, 32⟩
  | .PRT_LINK_STAT => ⟨0x1000004, 0x1000, 256, 0x0, 1, 32⟩
  | .PRT_DISC => ⟨0x1000008, 0x1000, 256, 0x0, 1, 64⟩
  | .PRT_RX_ERR => ⟨0x1000010, 0x1000, 256, 0x0, 1, 64⟩
  | .PRT_FC_STAT => ⟨0x1000018, 0x1000, 256, 0x0, 1, 64⟩
  | .PRT_FEC_CW => ⟨0x1000020, 0x1000, 256, 0x8, 4, 64⟩
  | .PRT_FEC_ERR => ⟨0x1000040, 0x1000, 256, 0x8, 4, 64⟩
  | .PRT_FEC_HIST => ⟨0x1000060, 0x1000, 256, 0x4, 15, 32⟩
  | .PRT_FEC_TREND => ⟨0x10000a0, 0x1000, 256, 0x0, 1, 64⟩
  | .PRT_TEST => ⟨0x10000a8, 0x1000, 256, 0x0, 1, 32⟩
  | .PRT_TEST_STAT => ⟨0x10000ac, 0x1000, 256, 0x0, 1, 32⟩
  | .PRT_PRBS_ERR => ⟨0x10000b0, 0x1000, 256, 0x8, 4, 64⟩
  | .PRT_FC_CFG => ⟨0x10000d0, 0x1000, 256, 0x4, 8, 32⟩
  | .PRT_CREDIT => ⟨0x10000f0, 0x1000, 256, 0x4, 8, 32⟩
  | .PRT_TIME_PORT => ⟨0x1000110, 0x1000, 256, 0x0, 1, 64⟩
  | .PRT_FRAMES => ⟨0x1000118, 0x1000, 256, 0x0, 1, 64⟩
  | .PRT_IDENT_RX => ⟨0x1000200, 0x1000, 256, 0x8, 14, 64⟩
  | .PRT_LSM_STAT => ⟨0x1100000, 0x20, 16, 0x0, 1, 64⟩
  | .PRT_LSM_POWER => ⟨0x1100008, 0x20, 16, 0x0, 1, 64⟩
  | .PRT_LSM_BIAS => ⟨0x1100010, 0x20, 16, 0x0, 1, 64⟩
  | .PRT_LSM_CTL => ⟨0x1100018, 0x20, 16, 0x0, 1, 32⟩
  | .PRT_LSM_THR => ⟨0x1100200, 0x0, 1, 0x0, 1, 64⟩
  | .PRT_TIME_CFG => ⟨0x1100300, 0x0, 1, 0x0, 1, 32⟩
  | .PRT_TIME_NOW => ⟨0x1100308, 0x0, 1, 0x0, 1, 64⟩
  | .PRT_TIME_STAT => ⟨0x1100310, 0x0, 1, 0x0, 1, 64⟩
  | .PRT_TIME_OFFSET => ⟨0x1100318, 0x0, 1, 0x0, 1, 64⟩
  | .PRT_DISC_SUM => ⟨0x1100400, 0x0, 1, 0x0, 1, 64⟩
  | .PRT_DISC_CFG => ⟨0x1100408, 0x0, 1, 0x0, 1, 32⟩
  | .PRT_DISC_GEN => ⟨0x110040c, 0x0, 1, 0x0, 1, 32⟩
  | .PRT_ACC_FW => ⟨0x1100410, 0x8, 4, 0x0, 1, 64⟩
  | .LST_CFG => ⟨0x2000000, 0x10000, 16, 0x0, 1, 64⟩
  | .LST_STATE => ⟨0x2000008, 0x10000, 16, 0x0, 1, 32⟩
  | .LST_TIMEOUT => ⟨0x200000c, 0x10000, 16, 0x0, 1, 32⟩
  | .LST_SEG => ⟨0x2000010, 0x10000, 16, 0x0, 1, 64⟩
  | .LST_OPS => ⟨0x2000018, 0x10000, 16, 0x0, 1, 64⟩
  | .LST_MEMBER => ⟨0x2000800, 0x10000, 16, 0x8, 256, 64⟩
  | .LST_PLAN_STAT => ⟨0x2100000, 0x0, 1, 0x0, 1, 64⟩
  | .LST_PLAN_CHECKS => ⟨0x2100008, 0x0, 1, 0x0, 1, 32⟩
  | .LST_PLAN_CFG => ⟨0x210000c, 0x0, 1, 0x0, 1, 32⟩
  | .LST_PLAN_DIGEST => ⟨0x2100010, 0x8, 4, 0x0, 1, 64⟩
  | .LST_RUN_SRC => ⟨0x2200000, 0x10, 16384, 0x0, 1, 64⟩
  | .LST_RUN_DST => ⟨0x2200008, 0x10, 16384, 0x0, 1, 64⟩
  | .OPC_DECL => ⟨0x3000000, 0x40, 65536, 0x0, 1, 32⟩
  | .OPC_LIMIT => ⟨0x3000004, 0x40, 65536, 0x0, 1, 32⟩
  | .OPC_RUNS => ⟨0x3000008, 0x40, 65536, 0x0, 1, 32⟩
  | .OPC_STATE => ⟨0x300000c, 0x40, 65536, 0x0, 1, 32⟩
  | .OPC_EXPECT => ⟨0x3000010, 0x40, 65536, 0x0, 1, 64⟩
  | .OPC_RECV => ⟨0x3000018, 0x40, 65536, 0x0, 1, 64⟩
  | .OPC_BYTES => ⟨0x3000020, 0x40, 65536, 0x0, 1, 64⟩
  | .OPC_DROPS => ⟨0x3000028, 0x40, 65536, 0x0, 1, 64⟩
  | .OPC_OPS => ⟨0x3000030, 0x40, 65536, 0x0, 1, 32⟩
  | .OPC_FAIL => ⟨0x3000034, 0x40, 65536, 0x0, 1, 32⟩
  | .OPC_TAG => ⟨0x3000038, 0x40, 65536, 0x0, 1, 64⟩
  | .OPC_UNDECL => ⟨0x3400000, 0x0, 1, 0x0, 1, 64⟩
  | .OPC_UNDECL_LAST => ⟨0x3400008, 0x0, 1, 0x0, 1, 64⟩
  | .OPC_REFUSED => ⟨0x3400010, 0x0, 1, 0x0, 1, 64⟩
  | .OPC_ABORT => ⟨0x3400018, 0x0, 1, 0x0, 1, 32⟩
  | .OPC_XCH_CFG => ⟨0x3500000, 0x20, 65536, 0x0, 1, 64⟩
  | .OPC_XCH_PLACED => ⟨0x3500008, 0x20, 65536, 0x0, 1, 64⟩
  | .OPC_XCH_DROPPED => ⟨0x3500010, 0x20, 65536, 0x0, 1, 64⟩
  | .OPC_XCH_PEAK => ⟨0x3500018, 0x20, 65536, 0x0, 1, 64⟩
  | .OPC_XCH_BAD => ⟨0x3700000, 0x0, 1, 0x0, 1, 64⟩
  | .CL_STATE => ⟨0x4000000, 0x400, 416, 0x0, 1, 32⟩
  | .CL_PARITY_ERR => ⟨0x4000034, 0x400, 416, 0x0, 1, 32⟩
  | .CL_OCCUPANCY => ⟨0x4000004, 0x400, 416, 0x0, 1, 32⟩
  | .CL_REPLAYS => ⟨0x4000038, 0x400, 416, 0x0, 1, 32⟩
  | .CL_TEST => ⟨0x4000008, 0x400, 416, 0x0, 1, 32⟩
  | .CL_WELT_ECC => ⟨0x400003c, 0x400, 416, 0x0, 1, 32⟩
  | .CL_NODES => ⟨0x4000010, 0x400, 416, 0x0, 1, 64⟩
  | .CL_LAST_ERR => ⟨0x4000040, 0x400, 416, 0x0, 1, 64⟩
  | .CL_CHUNKS => ⟨0x4000018, 0x400, 416, 0x0, 1, 64⟩
  | .CL_SUMMARY => ⟨0x4070000, 0x0, 1, 0x0, 1, 64⟩
  | .CL_WAIT_CYCLES => ⟨0x4000020, 0x400, 416, 0x0, 1, 64⟩
  | .CL_SPARES => ⟨0x4070008, 0x0, 1, 0x0, 1, 32⟩
  | .CL_BUSY_CYCLES => ⟨0x4000028, 0x400, 416, 0x0, 1, 64⟩
  | .CL_OWN_GEN => ⟨0x407000c, 0x0, 1, 0x0, 1, 32⟩
  | .CL_RESIDUE_ERR => ⟨0x4000030, 0x400, 416, 0x0, 1, 32⟩
  | .CL_LOG2PHYS => ⟨0x4071000, 0x4, 400, 0x0, 1, 32⟩
  | .CL_OWNER => ⟨0x4072000, 0x4, 16384, 0x0, 1, 32⟩
  | .WLT_CTX => ⟨0x5000000, 0x8, 65536, 0x0, 1, 64⟩
  | .WLT_QUOTA => ⟨0x5080000, 0x40, 16, 0x0, 1, 32⟩
  | .WLT_SPILL_LIMIT => ⟨0x5080004, 0x40, 16, 0x0, 1, 32⟩
  | .WLT_GRANT_CFG => ⟨0x5080008, 0x40, 16, 0x0, 1, 32⟩
  | .WLT_STATE => ⟨0x508000c, 0x40, 16, 0x0, 1, 32⟩
  | .WLT_ADMITS => ⟨0x5080010, 0x40, 16, 0x0, 1, 64⟩
  | .WLT_HOLDS => ⟨0x5080018, 0x40, 16, 0x0, 1, 64⟩
  | .WLT_SPILL_USED => ⟨0x5080020, 0x40, 16, 0x4, 4, 32⟩
  | .WLT_WELT_USED => ⟨0x5080030, 0x40, 16, 0x0, 1, 32⟩
  | .WLT_WAITS => ⟨0x5080034, 0x40, 16, 0x0, 1, 32⟩
  | .WLT_SPILL_CFG => ⟨0x5090000, 0x0, 1, 0x0, 1, 32⟩
  | .WLT_SHARED => ⟨0x5090004, 0x0, 1, 0x0, 1, 32⟩
  | .WLT_REGION => ⟨0x5090008, 0x8, 4, 0x0, 1, 64⟩
  | .WLT_GRANT_FRAMES => ⟨0x5090028, 0x0, 1, 0x0, 1, 64⟩
  | .INS_ECC => ⟨0x6000000, 0x0, 1, 0x0, 1, 64⟩
  | .INS_ECC_LAST => ⟨0x6000008, 0x0, 1, 0x0, 1, 64⟩
  | .INS_GROUP_SCHED => ⟨0x6000040, 0x8, 16, 0x0, 1, 64⟩
  | .INS_GROUP_OPP => ⟨0x60000c0, 0x8, 16, 0x0, 1, 64⟩
  | .BPM_POOL_CFG => ⟨0x6100000, 0x20, 4, 0x0, 1, 64⟩
  | .BPM_POOL_FREE => ⟨0x6100008, 0x20, 4, 0x0, 1, 64⟩
  | .BPM_POOL_LOW => ⟨0x6100010, 0x20, 4, 0x0, 1, 64⟩
  | .BPM_POOL_BASE => ⟨0x6100018, 0x20, 4, 0x0, 1, 32⟩
  | .BPM_ACCT => ⟨0x6101000, 0x40, 20, 0x10, 4, 64⟩
  | .BPM_HELD => ⟨0x6101008, 0x40, 20, 0x10, 4, 32⟩
  | .BPM_GCFG => ⟨0x6102000, 0x0, 1, 0x0, 1, 32⟩
  | .BPM_ERR => ⟨0x6102004, 0x0, 1, 0x0, 1, 32⟩
  | .BPM_ERR_COUNT => ⟨0x6102008, 0x0, 1, 0x0, 1, 64⟩
  | .BPM_ERR_LAST => ⟨0x6102010, 0x0, 1, 0x0, 1, 64⟩
  | .BPM_TAG_ECC => ⟨0x6102018, 0x0, 1, 0x0, 1, 32⟩
  | .BPM_DROPS => ⟨0x6102100, 0x4, 20, 0x0, 1, 32⟩
  | .INS_FENCE => ⟨0x6800000, 0x8, 4, 0x0, 1, 64⟩
  | .INS_MC_STORES => ⟨0x6800020, 0x0, 1, 0x0, 1, 64⟩
  | .INS_MC_ENQUEUES => ⟨0x6800028, 0x0, 1, 0x0, 1, 64⟩
  | .INS_FENCE_GEN => ⟨0x6800030, 0x0, 1, 0x0, 1, 32⟩
  | .INS_MC_FENCED_DROP => ⟨0x6801000, 0x8, 256, 0x0, 1, 64⟩
  | .SCH_WIN => ⟨0x7000000, 0x4000, 256, 0x8, 2048, 64⟩
  | .SCH_PORT_CFG => ⟨0x7400000, 0x40, 256, 0x0, 1, 32⟩
  | .SCH_WIN_BASE => ⟨0x7400004, 0x40, 256, 0x0, 1, 32⟩
  | .SCH_GATE_HOLD => ⟨0x7400008, 0x40, 256, 0x0, 1, 64⟩
  | .SCH_WIN_IDLE => ⟨0x7400010, 0x40, 256, 0x0, 1, 64⟩
  | .SCH_LAND => ⟨0x7400018, 0x40, 256, 0x0, 1, 64⟩
  | .SCH_SENT => ⟨0x7400020, 0x40, 256, 0x0, 1, 64⟩
  | .SCH_PERIOD => ⟨0x7500000, 0x0, 1, 0x0, 1, 32⟩
  | .SCH_GCFG => ⟨0x7500004, 0x0, 1, 0x0, 1, 32⟩
  | .SCH_EPOCH => ⟨0x7500008, 0x0, 1, 0x0, 1, 64⟩
  | .SCH_ROUND => ⟨0x7500010, 0x0, 1, 0x0, 1, 64⟩
  | .SCH_EXACT_LOSS => ⟨0x7500018, 0x0, 1, 0x0, 1, 64⟩
  | .SCH_CHG => ⟨0x7500020, 0x0, 1, 0x0, 1, 32⟩
  | .SCH_CHG_CFG => ⟨0x7500024, 0x0, 1, 0x0, 1, 32⟩
  | .SCH_CHG_STAT => ⟨0x7500028, 0x0, 1, 0x0, 1, 64⟩
  | .SCH_CHG_PORTS => ⟨0x7500030, 0x8, 4, 0x0, 1, 64⟩
  | .SCH_DEG_STAT => ⟨0x7500050, 0x0, 1, 0x0, 1, 32⟩
  | .SCH_MATCH_STAT => ⟨0x7500058, 0x0, 1, 0x0, 1, 64⟩
  | .SCH_SLIPS => ⟨0x7500060, 0x0, 1, 0x0, 1, 32⟩
  | .SCH_RESEQ_STAT => ⟨0x7500080, 0x8, 8, 0x0, 1, 64⟩
  | .SHP_SHAPE_CFG => ⟨0x8000000, 0x200, 256, 0x20, 8, 64⟩
  | .SHP_SHAPE_STATE => ⟨0x8000008, 0x200, 256, 0x20, 8, 64⟩
  | .SHP_SHAPE_STAT => ⟨0x8000010, 0x200, 256, 0x20, 8, 64⟩
  | .SHP_POL_CFG => ⟨0x8000100, 0x200, 256, 0x20, 8, 64⟩
  | .SHP_POL_STATE => ⟨0x8000108, 0x200, 256, 0x20, 8, 64⟩
  | .SHP_POL_STAT => ⟨0x8000110, 0x200, 256, 0x20, 8, 64⟩
  | .SHP_MIR_CFG => ⟨0x8020000, 0x20, 8, 0x0, 1, 64⟩
  | .SHP_MIR_STAT => ⟨0x8020008, 0x20, 8, 0x0, 1, 64⟩
  | .SHP_MIR_DROP => ⟨0x8020010, 0x20, 8, 0x0, 1, 64⟩
  | .SHP_MIR_PEND => ⟨0x8020018, 0x20, 8, 0x0, 1, 32⟩
  | .NUM_CFG => ⟨0x9000000, 0x40, 65536, 0x0, 1, 32⟩
  | .NUM_WARM => ⟨0x9000004, 0x40, 65536, 0x0, 1, 32⟩
  | .NUM_SEED => ⟨0x9000008, 0x40, 65536, 0x0, 1, 64⟩
  | .NUM_STATE_BASE => ⟨0x9000010, 0x40, 65536, 0x0, 1, 64⟩
  | .NUM_OPSEQ => ⟨0x9000018, 0x40, 65536, 0x0, 1, 32⟩
  | .NUM_SAT => ⟨0x900001c, 0x40, 65536, 0x0, 1, 32⟩
  | .NUM_NONFIN_IN => ⟨0x9000020, 0x40, 65536, 0x0, 1, 32⟩
  | .NUM_NONFIN_GEN => ⟨0x9000024, 0x40, 65536, 0x0, 1, 32⟩
  | .NUM_UNDERFLOW => ⟨0x9000028, 0x40, 65536, 0x0, 1, 32⟩
  | .NUM_ZR => ⟨0x900002c, 0x40, 65536, 0x0, 1, 32⟩
  | .NUM_SHADOW => ⟨0x9000030, 0x40, 65536, 0x0, 1, 64⟩
  | .NUM_SHADOW_MAX => ⟨0x9000038, 0x40, 65536, 0x0, 1, 32⟩
  | .NUM_GCFG => ⟨0x9400000, 0x0, 1, 0x0, 1, 32⟩
  | .NUM_ZR_LIMIT => ⟨0x9400004, 0x0, 1, 0x0, 1, 32⟩
  | .NUM_WARM_CFG => ⟨0x9400008, 0x0, 1, 0x0, 1, 32⟩
  | .NUM_ZR_LAST => ⟨0x9400010, 0x0, 1, 0x0, 1, 64⟩
  | .NUM_SHADOW_LAST => ⟨0x9400018, 0x0, 1, 0x0, 1, 64⟩
  | .NUM_MON_STAT => ⟨0x9400020, 0x8, 4, 0x0, 1, 64⟩
  | .NUM_STATE_LOST => ⟨0x9400040, 0x0, 1, 0x0, 1, 32⟩
  | .CKP_LAST_CFG => ⟨0xa000000, 0x1000, 16, 0x0, 1, 32⟩
  | .CKP_LAST_STAT => ⟨0xa000004, 0x1000, 16, 0x0, 1, 32⟩
  | .CKP_EPOCH => ⟨0xa000008, 0x1000, 16, 0x0, 1, 64⟩
  | .CKP_FULL => ⟨0xa000010, 0x1000, 16, 0x0, 1, 32⟩
  | .CKP_GROUP => ⟨0xa000100, 0x1000, 16, 0x20, 32, 64⟩
  | .CKP_GROUP_SHARD => ⟨0xa000108, 0x1000, 16, 0x20, 32, 64⟩
  | .CKP_GROUP_STAT => ⟨0xa000110, 0x1000, 16, 0x20, 32, 64⟩
  | .CKP_CFG => ⟨0xa010000, 0x0, 1, 0x0, 1, 64⟩
  | .CKP_REGION => ⟨0xa010008, 0x0, 1, 0x0, 1, 64⟩
  | .CKP_TIER => ⟨0xa010010, 0x8, 2, 0x0, 1, 64⟩
  | .CKP_CAD => ⟨0xa010020, 0x0, 1, 0x0, 1, 64⟩
  | .CKP_CAD_PRIOR => ⟨0xa010028, 0x0, 1, 0x0, 1, 32⟩
  | .CKP_CAD_OBS => ⟨0xa010030, 0x0, 1, 0x0, 1, 64⟩
  | .CKP_CAD_STAT => ⟨0xa010038, 0x0, 1, 0x0, 1, 64⟩
  | .CKP_LICHEN_W => ⟨0xa010040, 0x0, 1, 0x0, 1, 64⟩
  | .CKP_LICHEN_THR => ⟨0xa010048, 0x4, 5, 0x0, 1, 32⟩
  | .CKP_LICHEN => ⟨0xa010060, 0x0, 1, 0x0, 1, 64⟩
  | .CKP_DRAIN => ⟨0xa010068, 0x0, 1, 0x0, 1, 64⟩
  | .CKP_IMAGE => ⟨0xa010070, 0x0, 1, 0x0, 1, 64⟩
  | .CKP_EVENTS => ⟨0xa010078, 0x0, 1, 0x0, 1, 64⟩
  | .MEM_CH_STAT => ⟨0xb000000, 0x40, 16, 0x0, 1, 32⟩
  | .MEM_CH_ECC => ⟨0xb000008, 0x40, 16, 0x0, 1, 64⟩
  | .MEM_CH_ECC_LAST => ⟨0xb000010, 0x40, 16, 0x0, 1, 64⟩
  | .MEM_CH_BYTES => ⟨0xb000018, 0x40, 16, 0x0, 1, 64⟩
  | .MEM_GDDR_SIZE => ⟨0xb001000, 0x0, 1, 0x0, 1, 64⟩
  | .MEM_GMAP_FW => ⟨0xb001008, 0x0, 1, 0x0, 1, 64⟩
  | .MEM_GMAP_NUM => ⟨0xb001010, 0x0, 1, 0x0, 1, 64⟩
  | .MEM_CXL_STAT => ⟨0xb001040, 0x40, 2, 0x0, 1, 64⟩
  | .MEM_CXL_CAP => ⟨0xb001048, 0x40, 2, 0x0, 1, 64⟩
  | .MEM_CXL_ERR => ⟨0xb001050, 0x40, 2, 0x0, 1, 64⟩
  | .HST_MBX_ARG => ⟨0xc000000, 0x8, 8, 0x0, 1, 64⟩
  | .HST_MBX_CMD => ⟨0xc000040, 0x0, 1, 0x0, 1, 64⟩
  | .HST_MBX_RESP => ⟨0xc000048, 0x0, 1, 0x0, 1, 64⟩
  | .HST_OP => ⟨0xc000100, 0x8, 8, 0x0, 1, 64⟩
  | .HST_OP_DETAIL => ⟨0xc000140, 0x8, 8, 0x0, 1, 64⟩
  | .HST_LINK_STAT => ⟨0xc000200, 0x0, 1, 0x0, 1, 64⟩
  | .HST_ERR => ⟨0xc000208, 0x0, 1, 0x0, 1, 32⟩
  | .HST_ERR_ADDR => ⟨0xc000210, 0x0, 1, 0x0, 1, 64⟩
  | .MSIX_ADDR => ⟨0xc010000, 0x10, 5, 0x0, 1, 64⟩
  | .MSIX_DATA => ⟨0xc010008, 0x10, 5, 0x0, 1, 32⟩
  | .MSIX_CTRL => ⟨0xc01000c, 0x10, 5, 0x0, 1, 32⟩
  | .MSIX_PBA => ⟨0xc011000, 0x0, 1, 0x0, 1, 64⟩

/-- R481: the owning port class. -/
def Reg.owner : Reg → PortClass
  | .PWR_INPUT => .mgmt
  | .PWR_INPUT_EXT => .mgmt
  | .PWR_RAIL => .mgmt
  | .PWR_CLK_STAT => .mgmt
  | .PWR_THERM_CFG => .mgmt
  | .PWR_THERM_HOT => .mgmt
  | .PWR_MGT_OFF => .mgmt
  | .PWR_DOM_STAT => .mgmt
  | .PWR_TEMP => .mgmt
  | .SEC_MGT_CFG => .mgmt
  | .SEC_MGT_PEER => .mgmt
  | .SEC_MGT_STAT => .mgmt
  | .FLT_MGT => .mgmt
  | .EVR_CFG => .mgmt
  | .EVR_NEXT => .mgmt
  | .EVR_STAT => .mgmt
  | .EVR_TRIGGER => .mgmt
  | .EVR_RING => .mgmt
  | .EVR_RING_OLDEST => .mgmt
  | .EVR_RING_SEL => .mgmt
  | .EVR_RING_STAT => .mgmt
  | .EVR_ECC => .mgmt
  | .EVR_OPSEC => .mgmt
  | .EVR_SET => .mgmt
  | .PRT_LSM_CTL => .mgmt
  | .PRT_LSM_THR => .mgmt
  | _ => .host

end Sys2Proof.Machine

namespace Sys2Proof.Machine.F

/-- GLB_DEV_ID.FAMILY -/
abbrev GLB_DEV_ID_FAMILY : Fld := ⟨.GLB_DEV_ID, 63, 48, .ro, .const 1⟩
/-- GLB_DEV_ID.DEVICE -/
abbrev GLB_DEV_ID_DEVICE : Fld := ⟨.GLB_DEV_ID, 47, 32, .ro, .const 598⟩
/-- GLB_DEV_ID.STEPPING -/
abbrev GLB_DEV_ID_STEPPING : Fld := ⟨.GLB_DEV_ID, 31, 16, .ro, .const 1⟩
/-- GLB_ROLE.ROLE -/
abbrev GLB_ROLE_ROLE : Fld := ⟨.GLB_ROLE, 1, 0, .rwl, .nvm⟩
/-- GLB_DUM_GEN.GEN -/
abbrev GLB_DUM_GEN_GEN : Fld := ⟨.GLB_DUM_GEN, 31, 0, .ro, .const 0⟩
/-- GLB_DUM_SUMMARY.SPARES_LEFT -/
abbrev GLB_DUM_SUMMARY_SPARES_LEFT : Fld := ⟨.GLB_DUM_SUMMARY, 46, 42, .ro, .nvm⟩
/-- GLB_DUM_SUMMARY.DISABLED_CXL -/
abbrev GLB_DUM_SUMMARY_DISABLED_CXL : Fld := ⟨.GLB_DUM_SUMMARY, 41, 40, .ro, .nvm⟩
/-- GLB_DUM_SUMMARY.DISABLED_GDDR_CH -/
abbrev GLB_DUM_SUMMARY_DISABLED_GDDR_CH : Fld := ⟨.GLB_DUM_SUMMARY, 39, 35, .ro, .nvm⟩
/-- GLB_DUM_SUMMARY.DISABLED_BANK_GROUPS -/
abbrev GLB_DUM_SUMMARY_DISABLED_BANK_GROUPS : Fld := ⟨.GLB_DUM_SUMMARY, 34, 30, .ro, .nvm⟩
/-- GLB_DUM_SUMMARY.DISABLED_OE -/
abbrev GLB_DUM_SUMMARY_DISABLED_OE : Fld := ⟨.GLB_DUM_SUMMARY, 29, 25, .ro, .nvm⟩
/-- GLB_DUM_SUMMARY.DISABLED_PORTS -/
abbrev GLB_DUM_SUMMARY_DISABLED_PORTS : Fld := ⟨.GLB_DUM_SUMMARY, 24, 16, .ro, .nvm⟩
/-- GLB_DUM_SUMMARY.ACTIVE_CLUSTERS -/
abbrev GLB_DUM_SUMMARY_ACTIVE_CLUSTERS : Fld := ⟨.GLB_DUM_SUMMARY, 15, 0, .ro, .nvm⟩
/-- GLB_DUM_DIGEST.DIGEST -/
abbrev GLB_DUM_DIGEST_DIGEST : Fld := ⟨.GLB_DUM_DIGEST, 63, 0, .ro, .nvm⟩
/-- GLB_RING_STAT.LAPS -/
abbrev GLB_RING_STAT_LAPS : Fld := ⟨.GLB_RING_STAT, 63, 32, .rc, .const 0⟩
/-- GLB_RING_LINK.CCW_DOWN -/
abbrev GLB_RING_LINK_CCW_DOWN : Fld := ⟨.GLB_RING_LINK, 47, 24, .ro, .const 0⟩
/-- GLB_RING_LINK.CW_DOWN -/
abbrev GLB_RING_LINK_CW_DOWN : Fld := ⟨.GLB_RING_LINK, 23, 0, .ro, .const 0⟩
/-- GLB_ACCESS_ERR.LOCKED_WR -/
abbrev GLB_ACCESS_ERR_LOCKED_WR : Fld := ⟨.GLB_ACCESS_ERR, 2, 2, .w1c, .const 0⟩
/-- GLB_ACCESS_ERR.AUTHORITY -/
abbrev GLB_ACCESS_ERR_AUTHORITY : Fld := ⟨.GLB_ACCESS_ERR, 1, 1, .w1c, .const 0⟩
/-- GLB_ACCESS_ERR.UNMAPPED -/
abbrev GLB_ACCESS_ERR_UNMAPPED : Fld := ⟨.GLB_ACCESS_ERR, 0, 0, .w1c, .const 0⟩
/-- GLB_ACCESS_ADDR.CLASS -/
abbrev GLB_ACCESS_ADDR_CLASS : Fld := ⟨.GLB_ACCESS_ADDR, 63, 62, .ro, .const 0⟩
/-- GLB_ACCESS_ADDR.OFFSET -/
abbrev GLB_ACCESS_ADDR_OFFSET : Fld := ⟨.GLB_ACCESS_ADDR, 27, 0, .ro, .const 0⟩
/-- PWR_INPUT.WATTS -/
abbrev PWR_INPUT_WATTS : Fld := ⟨.PWR_INPUT, 63, 48, .ro, .const 0⟩
/-- PWR_INPUT.AMPS -/
abbrev PWR_INPUT_AMPS : Fld := ⟨.PWR_INPUT, 47, 32, .ro, .const 0⟩
/-- PWR_INPUT.VOLTS -/
abbrev PWR_INPUT_VOLTS : Fld := ⟨.PWR_INPUT, 15, 0, .ro, .const 0⟩
/-- PWR_INPUT_EXT.MAX -/
abbrev PWR_INPUT_EXT_MAX : Fld := ⟨.PWR_INPUT_EXT, 31, 16, .rc, .const 0⟩
/-- PWR_INPUT_EXT.MIN -/
abbrev PWR_INPUT_EXT_MIN : Fld := ⟨.PWR_INPUT_EXT, 15, 0, .rc, .const 0⟩
/-- PWR_RAIL.EVENTS -/
abbrev PWR_RAIL_EVENTS : Fld := ⟨.PWR_RAIL, 63, 32, .rc, .const 0⟩
/-- PWR_RAIL.STOP -/
abbrev PWR_RAIL_STOP : Fld := ⟨.PWR_RAIL, 28, 24, .ro, .const 0⟩
/-- PWR_RAIL.RAIL -/
abbrev PWR_RAIL_RAIL : Fld := ⟨.PWR_RAIL, 23, 16, .ro, .const 0⟩
/-- PWR_RAIL.VALID -/
abbrev PWR_RAIL_VALID : Fld := ⟨.PWR_RAIL, 0, 0, .ro, .const 0⟩
/-- PWR_CLK_STAT.UNLOCKS -/
abbrev PWR_CLK_STAT_UNLOCKS : Fld := ⟨.PWR_CLK_STAT, 63, 48, .rc, .const 0⟩
/-- PWR_CLK_STAT.LOCK -/
abbrev PWR_CLK_STAT_LOCK : Fld := ⟨.PWR_CLK_STAT, 40, 40, .ro, .const 0⟩
/-- PWR_CLK_STAT.STEER_PPB -/
abbrev PWR_CLK_STAT_STEER_PPB : Fld := ⟨.PWR_CLK_STAT, 31, 0, .ro, .const 0⟩
/-- PWR_THERM_CFG.TRIP -/
abbrev PWR_THERM_CFG_TRIP : Fld := ⟨.PWR_THERM_CFG, 23, 16, .rw, .const 110⟩
/-- PWR_THERM_CFG.WARN -/
abbrev PWR_THERM_CFG_WARN : Fld := ⟨.PWR_THERM_CFG, 7, 0, .rw, .const 95⟩
/-- PWR_THERM_HOT.SENSOR -/
abbrev PWR_THERM_HOT_SENSOR : Fld := ⟨.PWR_THERM_HOT, 21, 16, .ro, .const 0⟩
/-- PWR_THERM_HOT.TEMP -/
abbrev PWR_THERM_HOT_TEMP : Fld := ⟨.PWR_THERM_HOT, 15, 0, .ro, .const 0⟩
/-- PWR_HOST_OFF.OFF -/
abbrev PWR_HOST_OFF_OFF : Fld := ⟨.PWR_HOST_OFF, 63, 0, .rw, .const 0⟩
/-- PWR_MGT_OFF.OFF -/
abbrev PWR_MGT_OFF_OFF : Fld := ⟨.PWR_MGT_OFF, 63, 0, .rw, .nvm⟩
/-- PWR_DOM_STAT.ON -/
abbrev PWR_DOM_STAT_ON : Fld := ⟨.PWR_DOM_STAT, 63, 0, .ro, .const 0⟩
/-- PWR_TEMP.TEMP -/
abbrev PWR_TEMP_TEMP : Fld := ⟨.PWR_TEMP, 15, 0, .ro, .const 0⟩
/-- BOOT_STAT.FAIL_CODE -/
abbrev BOOT_STAT_FAIL_CODE : Fld := ⟨.BOOT_STAT, 39, 32, .ro, .const 0⟩
/-- BOOT_STAT.CFG_SLOT -/
abbrev BOOT_STAT_CFG_SLOT : Fld := ⟨.BOOT_STAT, 9, 9, .ro, .const 0⟩
/-- BOOT_STAT.FW_SLOT -/
abbrev BOOT_STAT_FW_SLOT : Fld := ⟨.BOOT_STAT, 8, 8, .ro, .const 0⟩
/-- BOOT_STAT.FALLBACK -/
abbrev BOOT_STAT_FALLBACK : Fld := ⟨.BOOT_STAT, 4, 4, .ro, .const 0⟩
/-- BOOT_STAT.STAGE -/
abbrev BOOT_STAT_STAGE : Fld := ⟨.BOOT_STAT, 3, 0, .ro, .const 0⟩
/-- BOOT_TIMES.DONE_MS -/
abbrev BOOT_TIMES_DONE_MS : Fld := ⟨.BOOT_TIMES, 63, 48, .ro, .const 0⟩
/-- BOOT_TIMES.MEMORY_MS -/
abbrev BOOT_TIMES_MEMORY_MS : Fld := ⟨.BOOT_TIMES, 47, 32, .ro, .const 0⟩
/-- BOOT_TIMES.CONFIG_MS -/
abbrev BOOT_TIMES_CONFIG_MS : Fld := ⟨.BOOT_TIMES, 31, 16, .ro, .const 0⟩
/-- BOOT_TIMES.VERIFY_MS -/
abbrev BOOT_TIMES_VERIFY_MS : Fld := ⟨.BOOT_TIMES, 15, 0, .ro, .const 0⟩
/-- BOOT_VERSION.FW_SVN -/
abbrev BOOT_VERSION_FW_SVN : Fld := ⟨.BOOT_VERSION, 63, 48, .ro, .const 0⟩
/-- BOOT_VERSION.FW_VERSION -/
abbrev BOOT_VERSION_FW_VERSION : Fld := ⟨.BOOT_VERSION, 47, 32, .ro, .const 0⟩
/-- BOOT_VERSION.CFG_VERSION -/
abbrev BOOT_VERSION_CFG_VERSION : Fld := ⟨.BOOT_VERSION, 31, 16, .ro, .const 0⟩
/-- BOOT_VERSION.MIN_SVN -/
abbrev BOOT_VERSION_MIN_SVN : Fld := ⟨.BOOT_VERSION, 15, 0, .ro, .const 0⟩
/-- BOOT_NVM.JEDEC_ID -/
abbrev BOOT_NVM_JEDEC_ID : Fld := ⟨.BOOT_NVM, 63, 40, .ro, .const 0⟩
/-- BOOT_NVM.SIZE_MIB -/
abbrev BOOT_NVM_SIZE_MIB : Fld := ⟨.BOOT_NVM, 31, 16, .ro, .const 0⟩
/-- BOOT_NVM.RETRIES -/
abbrev BOOT_NVM_RETRIES : Fld := ⟨.BOOT_NVM, 15, 0, .ro, .const 0⟩
/-- BOOT_FW_DIGEST.DIGEST -/
abbrev BOOT_FW_DIGEST_DIGEST : Fld := ⟨.BOOT_FW_DIGEST, 63, 0, .ro, .const 0⟩
/-- BOOT_CFG_DIGEST.DIGEST -/
abbrev BOOT_CFG_DIGEST_DIGEST : Fld := ⟨.BOOT_CFG_DIGEST, 63, 0, .ro, .const 0⟩
/-- SEC_STAT.EPOCHS_LEFT -/
abbrev SEC_STAT_EPOCHS_LEFT : Fld := ⟨.SEC_STAT, 63, 56, .ro, .nvm⟩
/-- SEC_STAT.KEY_EPOCH -/
abbrev SEC_STAT_KEY_EPOCH : Fld := ⟨.SEC_STAT, 55, 48, .ro, .nvm⟩
/-- SEC_STAT.LAST_REFUSAL -/
abbrev SEC_STAT_LAST_REFUSAL : Fld := ⟨.SEC_STAT, 7, 4, .ro, .const 0⟩
/-- SEC_STAT.TOKEN -/
abbrev SEC_STAT_TOKEN : Fld := ⟨.SEC_STAT, 3, 3, .ro, .nvm⟩
/-- SEC_STAT.IDENT_STALE -/
abbrev SEC_STAT_IDENT_STALE : Fld := ⟨.SEC_STAT, 2, 2, .ro, .const 0⟩
/-- SEC_STAT.DEBUG_OPEN -/
abbrev SEC_STAT_DEBUG_OPEN : Fld := ⟨.SEC_STAT, 0, 0, .ro, .const 0⟩
/-- SEC_DEBUG_LOCK.LOCK -/
abbrev SEC_DEBUG_LOCK_LOCK : Fld := ⟨.SEC_DEBUG_LOCK, 0, 0, .rw, .nvm⟩
/-- SEC_IDENT.IDENT -/
abbrev SEC_IDENT_IDENT : Fld := ⟨.SEC_IDENT, 63, 0, .ro, .nvm⟩
/-- SEC_AUTH_LAST.THING -/
abbrev SEC_AUTH_LAST_THING : Fld := ⟨.SEC_AUTH_LAST, 63, 56, .ro, .const 0⟩
/-- SEC_AUTH_LAST.INDEX -/
abbrev SEC_AUTH_LAST_INDEX : Fld := ⟨.SEC_AUTH_LAST, 55, 40, .ro, .const 0⟩
/-- SEC_AUTH_LAST.HOST -/
abbrev SEC_AUTH_LAST_HOST : Fld := ⟨.SEC_AUTH_LAST, 31, 24, .ro, .const 0⟩
/-- SEC_AUTH_LAST.MGT -/
abbrev SEC_AUTH_LAST_MGT : Fld := ⟨.SEC_AUTH_LAST, 23, 16, .ro, .const 0⟩
/-- SEC_AUTH_LAST.COUNT -/
abbrev SEC_AUTH_LAST_COUNT : Fld := ⟨.SEC_AUTH_LAST, 15, 0, .rc, .const 0⟩
/-- SEC_MGT_CFG.MAC -/
abbrev SEC_MGT_CFG_MAC : Fld := ⟨.SEC_MGT_CFG, 63, 16, .ro, .nvm⟩
/-- SEC_MGT_CFG.NODE_COUNT -/
abbrev SEC_MGT_CFG_NODE_COUNT : Fld := ⟨.SEC_MGT_CFG, 15, 8, .ro, .nvm⟩
/-- SEC_MGT_CFG.NODE_ID -/
abbrev SEC_MGT_CFG_NODE_ID : Fld := ⟨.SEC_MGT_CFG, 7, 0, .ro, .nvm⟩
/-- SEC_MGT_PEER.VALID -/
abbrev SEC_MGT_PEER_VALID : Fld := ⟨.SEC_MGT_PEER, 63, 63, .ro, .nvm⟩
/-- SEC_MGT_PEER.STATION -/
abbrev SEC_MGT_PEER_STATION : Fld := ⟨.SEC_MGT_PEER, 62, 62, .ro, .nvm⟩
/-- SEC_MGT_PEER.MAC -/
abbrev SEC_MGT_PEER_MAC : Fld := ⟨.SEC_MGT_PEER, 47, 0, .ro, .nvm⟩
/-- SEC_MGT_STAT.RX -/
abbrev SEC_MGT_STAT_RX : Fld := ⟨.SEC_MGT_STAT, 63, 48, .rc, .const 0⟩
/-- SEC_MGT_STAT.STRANGERS -/
abbrev SEC_MGT_STAT_STRANGERS : Fld := ⟨.SEC_MGT_STAT, 47, 32, .rc, .const 0⟩
/-- SEC_MGT_STAT.DUPLICATES -/
abbrev SEC_MGT_STAT_DUPLICATES : Fld := ⟨.SEC_MGT_STAT, 31, 16, .rc, .const 0⟩
/-- SEC_MGT_STAT.BAD -/
abbrev SEC_MGT_STAT_BAD : Fld := ⟨.SEC_MGT_STAT, 15, 0, .rc, .const 0⟩
/-- FLT_SRC_STAT.PENDING -/
abbrev FLT_SRC_STAT_PENDING : Fld := ⟨.FLT_SRC_STAT, 31, 31, .w1c, .const 0⟩
/-- FLT_SRC_STAT.ACTIVE -/
abbrev FLT_SRC_STAT_ACTIVE : Fld := ⟨.FLT_SRC_STAT, 30, 30, .ro, .const 0⟩
/-- FLT_SRC_COUNT.COUNT -/
abbrev FLT_SRC_COUNT_COUNT : Fld := ⟨.FLT_SRC_COUNT, 31, 0, .rc, .const 0⟩
/-- FLT_SRC_INFO.OP_SECONDS -/
abbrev FLT_SRC_INFO_OP_SECONDS : Fld := ⟨.FLT_SRC_INFO, 63, 32, .ro, .const 0⟩
/-- FLT_SRC_INFO.DETAIL -/
abbrev FLT_SRC_INFO_DETAIL : Fld := ⟨.FLT_SRC_INFO, 31, 0, .ro, .const 0⟩
/-- FLT_SRC_CFG.RECORD -/
abbrev FLT_SRC_CFG_RECORD : Fld := ⟨.FLT_SRC_CFG, 31, 30, .rwSrc, .nvm⟩
/-- FLT_SRC_CFG.SET -/
abbrev FLT_SRC_CFG_SET : Fld := ⟨.FLT_SRC_CFG, 29, 28, .rwSrc, .nvm⟩
/-- FLT_SRC_CFG.SEVERITY -/
abbrev FLT_SRC_CFG_SEVERITY : Fld := ⟨.FLT_SRC_CFG, 9, 8, .rwSrc, .nvm⟩
/-- FLT_SRC_CFG.PIN -/
abbrev FLT_SRC_CFG_PIN : Fld := ⟨.FLT_SRC_CFG, 4, 4, .rwSrc, .nvm⟩
/-- FLT_SRC_CFG.CHIP_RESET -/
abbrev FLT_SRC_CFG_CHIP_RESET : Fld := ⟨.FLT_SRC_CFG, 3, 3, .rwSrc, .nvm⟩
/-- FLT_SRC_CFG.BLOCK_RESET -/
abbrev FLT_SRC_CFG_BLOCK_RESET : Fld := ⟨.FLT_SRC_CFG, 2, 2, .rwResetUnit, .nvm⟩
/-- FLT_SRC_CFG.NMI -/
abbrev FLT_SRC_CFG_NMI : Fld := ⟨.FLT_SRC_CFG, 1, 1, .rwSrc, .nvm⟩
/-- FLT_SRC_CFG.INT -/
abbrev FLT_SRC_CFG_INT : Fld := ⟨.FLT_SRC_CFG, 0, 0, .rwSrc, .nvm⟩
/-- FLT_SUMMARY.PENDING -/
abbrev FLT_SUMMARY_PENDING : Fld := ⟨.FLT_SUMMARY, 63, 0, .ro, .const 0⟩
/-- FLT_TOP.VALID -/
abbrev FLT_TOP_VALID : Fld := ⟨.FLT_TOP, 31, 31, .ro, .const 0⟩
/-- FLT_TOP.SEVERITY -/
abbrev FLT_TOP_SEVERITY : Fld := ⟨.FLT_TOP, 9, 8, .ro, .const 0⟩
/-- FLT_TOP.SOURCE -/
abbrev FLT_TOP_SOURCE : Fld := ⟨.FLT_TOP, 6, 0, .ro, .const 0⟩
/-- FLT_PIN.FAULT -/
abbrev FLT_PIN_FAULT : Fld := ⟨.FLT_PIN, 31, 31, .ro, .const 1⟩
/-- FLT_PIN.SAFE -/
abbrev FLT_PIN_SAFE : Fld := ⟨.FLT_PIN, 30, 30, .ro, .const 0⟩
/-- FLT_PIN.BOOTING -/
abbrev FLT_PIN_BOOTING : Fld := ⟨.FLT_PIN, 29, 29, .ro, .const 1⟩
/-- FLT_PIN.FORCED -/
abbrev FLT_PIN_FORCED : Fld := ⟨.FLT_PIN, 28, 28, .ro, .const 0⟩
/-- FLT_PIN.SOURCE -/
abbrev FLT_PIN_SOURCE : Fld := ⟨.FLT_PIN, 27, 27, .ro, .const 0⟩
/-- FLT_PIN.ASSERTIONS -/
abbrev FLT_PIN_ASSERTIONS : Fld := ⟨.FLT_PIN, 15, 0, .rc, .const 0⟩
/-- FLT_GCFG.INT_HOLDOFF_US -/
abbrev FLT_GCFG_INT_HOLDOFF_US : Fld := ⟨.FLT_GCFG, 15, 0, .rw, .const 100⟩
/-- FLT_MGT.FORCE -/
abbrev FLT_MGT_FORCE : Fld := ⟨.FLT_MGT, 31, 31, .rw, .const 0⟩
/-- FLT_MGT.CLEAR -/
abbrev FLT_MGT_CLEAR : Fld := ⟨.FLT_MGT, 30, 30, .wo, .const 0⟩
/-- FLT_MGT.SOURCE -/
abbrev FLT_MGT_SOURCE : Fld := ⟨.FLT_MGT, 6, 0, .wo, .const 0⟩
/-- FLT_SELF.CORR -/
abbrev FLT_SELF_CORR : Fld := ⟨.FLT_SELF, 63, 48, .rc, .const 0⟩
/-- FLT_SELF.WORD -/
abbrev FLT_SELF_WORD : Fld := ⟨.FLT_SELF, 39, 16, .ro, .const 0⟩
/-- FLT_SELF.SAFE -/
abbrev FLT_SELF_SAFE : Fld := ⟨.FLT_SELF, 3, 3, .ro, .const 0⟩
/-- FLT_SELF.CAUSE -/
abbrev FLT_SELF_CAUSE : Fld := ⟨.FLT_SELF, 2, 0, .ro, .const 0⟩
/-- FLT_INJECT.GO -/
abbrev FLT_INJECT_GO : Fld := ⟨.FLT_INJECT, 31, 31, .wo, .const 0⟩
/-- FLT_INJECT.SELF_TEST -/
abbrev FLT_INJECT_SELF_TEST : Fld := ⟨.FLT_INJECT, 30, 30, .wo, .const 0⟩
/-- FLT_INJECT.SOURCE -/
abbrev FLT_INJECT_SOURCE : Fld := ⟨.FLT_INJECT, 6, 0, .wo, .const 0⟩
/-- FLT_RESET_CAUSE.VALID -/
abbrev FLT_RESET_CAUSE_VALID : Fld := ⟨.FLT_RESET_CAUSE, 31, 31, .ro, .const 0⟩
/-- FLT_RESET_CAUSE.KIND -/
abbrev FLT_RESET_CAUSE_KIND : Fld := ⟨.FLT_RESET_CAUSE, 18, 16, .ro, .const 0⟩
/-- FLT_RESET_CAUSE.FROM_SAFE -/
abbrev FLT_RESET_CAUSE_FROM_SAFE : Fld := ⟨.FLT_RESET_CAUSE, 15, 15, .ro, .const 0⟩
/-- FLT_RESET_CAUSE.SOURCE -/
abbrev FLT_RESET_CAUSE_SOURCE : Fld := ⟨.FLT_RESET_CAUSE, 6, 0, .ro, .const 0⟩
/-- EVR_CFG.ENABLE -/
abbrev EVR_CFG_ENABLE : Fld := ⟨.EVR_CFG, 31, 31, .rw, .const 1⟩
/-- EVR_CFG.SET_DUM -/
abbrev EVR_CFG_SET_DUM : Fld := ⟨.EVR_CFG, 30, 29, .rw, .const 0⟩
/-- EVR_CFG.SET_DISC -/
abbrev EVR_CFG_SET_DISC : Fld := ⟨.EVR_CFG, 28, 27, .rw, .const 0⟩
/-- EVR_CFG.SET_PLAN -/
abbrev EVR_CFG_SET_PLAN : Fld := ⟨.EVR_CFG, 26, 25, .rw, .const 0⟩
/-- EVR_CFG.SET_OTHER -/
abbrev EVR_CFG_SET_OTHER : Fld := ⟨.EVR_CFG, 24, 23, .rw, .const 0⟩
/-- EVR_CFG.PERIOD_S -/
abbrev EVR_CFG_PERIOD_S : Fld := ⟨.EVR_CFG, 15, 0, .rw, .const 0⟩
/-- EVR_NEXT.SEQ -/
abbrev EVR_NEXT_SEQ : Fld := ⟨.EVR_NEXT, 63, 0, .ro, .const 0⟩
/-- EVR_STAT.DROPPED -/
abbrev EVR_STAT_DROPPED : Fld := ⟨.EVR_STAT, 63, 48, .rc, .const 0⟩
/-- EVR_STAT.LOST -/
abbrev EVR_STAT_LOST : Fld := ⟨.EVR_STAT, 47, 32, .rc, .const 0⟩
/-- EVR_STAT.PARTIAL -/
abbrev EVR_STAT_PARTIAL : Fld := ⟨.EVR_STAT, 31, 16, .rc, .const 0⟩
/-- EVR_STAT.QUEUE -/
abbrev EVR_STAT_QUEUE : Fld := ⟨.EVR_STAT, 6, 0, .ro, .const 0⟩
/-- EVR_TRIGGER.GO -/
abbrev EVR_TRIGGER_GO : Fld := ⟨.EVR_TRIGGER, 63, 63, .wo, .const 0⟩
/-- EVR_TRIGGER.ARG -/
abbrev EVR_TRIGGER_ARG : Fld := ⟨.EVR_TRIGGER, 31, 0, .wo, .const 0⟩
/-- EVR_RING.RECORDS -/
abbrev EVR_RING_RECORDS : Fld := ⟨.EVR_RING, 63, 40, .ro, .nvm⟩
/-- EVR_RING.BASE -/
abbrev EVR_RING_BASE : Fld := ⟨.EVR_RING, 35, 0, .ro, .nvm⟩
/-- EVR_RING_OLDEST.SEQ -/
abbrev EVR_RING_OLDEST_SEQ : Fld := ⟨.EVR_RING_OLDEST, 63, 0, .ro, .const 0⟩
/-- EVR_RING_SEL.SEQ -/
abbrev EVR_RING_SEL_SEQ : Fld := ⟨.EVR_RING_SEL, 63, 0, .rw, .const 0⟩
/-- EVR_RING_STAT.MISSING -/
abbrev EVR_RING_STAT_MISSING : Fld := ⟨.EVR_RING_STAT, 1, 1, .ro, .const 0⟩
/-- EVR_RING_STAT.READY -/
abbrev EVR_RING_STAT_READY : Fld := ⟨.EVR_RING_STAT, 0, 0, .ro, .const 0⟩
/-- EVR_ECC.UNCORR -/
abbrev EVR_ECC_UNCORR : Fld := ⟨.EVR_ECC, 31, 16, .rc, .const 0⟩
/-- EVR_ECC.CORR -/
abbrev EVR_ECC_CORR : Fld := ⟨.EVR_ECC, 15, 0, .rc, .const 0⟩
/-- EVR_OPSEC.POWER_CYCLES -/
abbrev EVR_OPSEC_POWER_CYCLES : Fld := ⟨.EVR_OPSEC, 63, 32, .ro, .nvm⟩
/-- EVR_OPSEC.OP_SECONDS -/
abbrev EVR_OPSEC_OP_SECONDS : Fld := ⟨.EVR_OPSEC, 31, 0, .ro, .nvm⟩
/-- EVR_SET.VALID -/
abbrev EVR_SET_VALID : Fld := ⟨.EVR_SET, 31, 31, .rw, .nvm⟩
/-- EVR_SET.WIDE -/
abbrev EVR_SET_WIDE : Fld := ⟨.EVR_SET, 30, 30, .rw, .nvm⟩
/-- EVR_SET.OFFSET -/
abbrev EVR_SET_OFFSET : Fld := ⟨.EVR_SET, 27, 0, .rw, .nvm⟩
/-- PRT_LINK_CFG.ENABLE -/
abbrev PRT_LINK_CFG_ENABLE : Fld := ⟨.PRT_LINK_CFG, 31, 31, .rw, .nvm⟩
/-- PRT_LINK_CFG.RATE -/
abbrev PRT_LINK_CFG_RATE : Fld := ⟨.PRT_LINK_CFG, 30, 29, .rwl, .nvm⟩
/-- PRT_LINK_CFG.BENLAS -/
abbrev PRT_LINK_CFG_BENLAS : Fld := ⟨.PRT_LINK_CFG, 28, 28, .rwl, .nvm⟩
/-- PRT_LINK_CFG.TOTAL_AT -/
abbrev PRT_LINK_CFG_TOTAL_AT : Fld := ⟨.PRT_LINK_CFG, 27, 20, .rw, .const 30⟩
/-- PRT_LINK_CFG.CREDIT -/
abbrev PRT_LINK_CFG_CREDIT : Fld := ⟨.PRT_LINK_CFG, 16, 16, .rwl, .nvm⟩
/-- PRT_LINK_CFG.PAUSE_MS -/
abbrev PRT_LINK_CFG_PAUSE_MS : Fld := ⟨.PRT_LINK_CFG, 15, 8, .rw, .const 10⟩
/-- PRT_LINK_CFG.UNCORR_LIMIT -/
abbrev PRT_LINK_CFG_UNCORR_LIMIT : Fld := ⟨.PRT_LINK_CFG, 7, 0, .rw, .const 1⟩
/-- PRT_LINK_STAT.DOWNS -/
abbrev PRT_LINK_STAT_DOWNS : Fld := ⟨.PRT_LINK_STAT, 31, 24, .rc, .const 0⟩
/-- PRT_LINK_STAT.LANE_MAP -/
abbrev PRT_LINK_STAT_LANE_MAP : Fld := ⟨.PRT_LINK_STAT, 23, 16, .ro, .const 0⟩
/-- PRT_LINK_STAT.LOCK -/
abbrev PRT_LINK_STAT_LOCK : Fld := ⟨.PRT_LINK_STAT, 15, 12, .ro, .const 0⟩
/-- PRT_LINK_STAT.RATE -/
abbrev PRT_LINK_STAT_RATE : Fld := ⟨.PRT_LINK_STAT, 7, 6, .ro, .const 0⟩
/-- PRT_LINK_STAT.CREDIT -/
abbrev PRT_LINK_STAT_CREDIT : Fld := ⟨.PRT_LINK_STAT, 5, 5, .ro, .const 0⟩
/-- PRT_LINK_STAT.STATE -/
abbrev PRT_LINK_STAT_STATE : Fld := ⟨.PRT_LINK_STAT, 2, 0, .ro, .const 0⟩
/-- PRT_DISC.PEER_IDENT -/
abbrev PRT_DISC_PEER_IDENT : Fld := ⟨.PRT_DISC, 63, 32, .ro, .const 0⟩
/-- PRT_DISC.PEER_PORT -/
abbrev PRT_DISC_PEER_PORT : Fld := ⟨.PRT_DISC, 31, 24, .ro, .const 0⟩
/-- PRT_DISC.PEER_KIND -/
abbrev PRT_DISC_PEER_KIND : Fld := ⟨.PRT_DISC, 23, 20, .ro, .const 0⟩
/-- PRT_DISC.AGREED -/
abbrev PRT_DISC_AGREED : Fld := ⟨.PRT_DISC, 19, 16, .ro, .const 0⟩
/-- PRT_DISC.OUTCOME -/
abbrev PRT_DISC_OUTCOME : Fld := ⟨.PRT_DISC, 11, 8, .ro, .const 0⟩
/-- PRT_DISC.OPP -/
abbrev PRT_DISC_OPP : Fld := ⟨.PRT_DISC, 4, 4, .ro, .const 0⟩
/-- PRT_DISC.QUAR -/
abbrev PRT_DISC_QUAR : Fld := ⟨.PRT_DISC, 3, 3, .ro, .const 0⟩
/-- PRT_DISC.STATE -/
abbrev PRT_DISC_STATE : Fld := ⟨.PRT_DISC, 2, 0, .ro, .const 0⟩
/-- PRT_RX_ERR.CRC -/
abbrev PRT_RX_ERR_CRC : Fld := ⟨.PRT_RX_ERR, 63, 48, .rc, .const 0⟩
/-- PRT_RX_ERR.CBLOCK -/
abbrev PRT_RX_ERR_CBLOCK : Fld := ⟨.PRT_RX_ERR, 47, 32, .rc, .const 0⟩
/-- PRT_RX_ERR.FRAMING -/
abbrev PRT_RX_ERR_FRAMING : Fld := ⟨.PRT_RX_ERR, 31, 16, .rc, .const 0⟩
/-- PRT_RX_ERR.GAP -/
abbrev PRT_RX_ERR_GAP : Fld := ⟨.PRT_RX_ERR, 15, 0, .rc, .const 0⟩
/-- PRT_FC_STAT.RX_XOFF -/
abbrev PRT_FC_STAT_RX_XOFF : Fld := ⟨.PRT_FC_STAT, 63, 56, .ro, .const 0⟩
/-- PRT_FC_STAT.TX_XOFF -/
abbrev PRT_FC_STAT_TX_XOFF : Fld := ⟨.PRT_FC_STAT, 55, 48, .ro, .const 0⟩
/-- PRT_FC_STAT.STALLS -/
abbrev PRT_FC_STAT_STALLS : Fld := ⟨.PRT_FC_STAT, 47, 32, .rc, .const 0⟩
/-- PRT_FC_STAT.FIFO -/
abbrev PRT_FC_STAT_FIFO : Fld := ⟨.PRT_FC_STAT, 17, 0, .ro, .const 0⟩
/-- PRT_FEC_CW.CODEWORDS -/
abbrev PRT_FEC_CW_CODEWORDS : Fld := ⟨.PRT_FEC_CW, 63, 0, .rc, .const 0⟩
/-- PRT_FEC_ERR.SYMBOLS -/
abbrev PRT_FEC_ERR_SYMBOLS : Fld := ⟨.PRT_FEC_ERR, 63, 24, .rc, .const 0⟩
/-- PRT_FEC_ERR.UNCORR -/
abbrev PRT_FEC_ERR_UNCORR : Fld := ⟨.PRT_FEC_ERR, 23, 0, .rc, .const 0⟩
/-- PRT_FEC_HIST.COUNT -/
abbrev PRT_FEC_HIST_COUNT : Fld := ⟨.PRT_FEC_HIST, 31, 0, .rc, .const 0⟩
/-- PRT_FEC_TREND.LONG -/
abbrev PRT_FEC_TREND_LONG : Fld := ⟨.PRT_FEC_TREND, 63, 32, .ro, .const 0⟩
/-- PRT_FEC_TREND.SHORT -/
abbrev PRT_FEC_TREND_SHORT : Fld := ⟨.PRT_FEC_TREND, 31, 0, .ro, .const 0⟩
/-- PRT_TEST.LOOP -/
abbrev PRT_TEST_LOOP : Fld := ⟨.PRT_TEST, 27, 26, .rw, .const 0⟩
/-- PRT_TEST.GEN -/
abbrev PRT_TEST_GEN : Fld := ⟨.PRT_TEST, 25, 24, .rw, .const 0⟩
/-- PRT_TEST.CHK -/
abbrev PRT_TEST_CHK : Fld := ⟨.PRT_TEST, 23, 22, .rw, .const 0⟩
/-- PRT_TEST_STAT.REFUSED -/
abbrev PRT_TEST_STAT_REFUSED : Fld := ⟨.PRT_TEST_STAT, 31, 16, .rc, .const 0⟩
/-- PRT_PRBS_ERR.LOCK -/
abbrev PRT_PRBS_ERR_LOCK : Fld := ⟨.PRT_PRBS_ERR, 63, 63, .ro, .const 0⟩
/-- PRT_PRBS_ERR.ERRORS -/
abbrev PRT_PRBS_ERR_ERRORS : Fld := ⟨.PRT_PRBS_ERR, 47, 0, .rc, .const 0⟩
/-- PRT_FC_CFG.XOFF_AT -/
abbrev PRT_FC_CFG_XOFF_AT : Fld := ⟨.PRT_FC_CFG, 23, 12, .rw, .const 256⟩
/-- PRT_FC_CFG.XON_AT -/
abbrev PRT_FC_CFG_XON_AT : Fld := ⟨.PRT_FC_CFG, 11, 0, .rw, .const 128⟩
/-- PRT_CREDIT.TX_AVAIL -/
abbrev PRT_CREDIT_TX_AVAIL : Fld := ⟨.PRT_CREDIT, 31, 16, .ro, .const 0⟩
/-- PRT_CREDIT.RX_OUT -/
abbrev PRT_CREDIT_RX_OUT : Fld := ⟨.PRT_CREDIT, 15, 0, .ro, .const 0⟩
/-- PRT_TIME_PORT.ROLE -/
abbrev PRT_TIME_PORT_ROLE : Fld := ⟨.PRT_TIME_PORT, 63, 62, .rw, .nvm⟩
/-- PRT_TIME_PORT.PRIORITY -/
abbrev PRT_TIME_PORT_PRIORITY : Fld := ⟨.PRT_TIME_PORT, 61, 58, .rw, .nvm⟩
/-- PRT_TIME_PORT.ASYM -/
abbrev PRT_TIME_PORT_ASYM : Fld := ⟨.PRT_TIME_PORT, 47, 32, .rw, .nvm⟩
/-- PRT_TIME_PORT.DELAY -/
abbrev PRT_TIME_PORT_DELAY : Fld := ⟨.PRT_TIME_PORT, 31, 0, .ro, .const 0⟩
/-- PRT_FRAMES.RX -/
abbrev PRT_FRAMES_RX : Fld := ⟨.PRT_FRAMES, 63, 32, .rc, .const 0⟩
/-- PRT_FRAMES.QUAR -/
abbrev PRT_FRAMES_QUAR : Fld := ⟨.PRT_FRAMES, 31, 0, .rc, .const 0⟩
/-- PRT_IDENT_RX.BYTES -/
abbrev PRT_IDENT_RX_BYTES : Fld := ⟨.PRT_IDENT_RX, 63, 0, .ro, .const 0⟩
/-- PRT_LSM_STAT.TEMP -/
abbrev PRT_LSM_STAT_TEMP : Fld := ⟨.PRT_LSM_STAT, 47, 32, .ro, .const 0⟩
/-- PRT_LSM_STAT.LOW -/
abbrev PRT_LSM_STAT_LOW : Fld := ⟨.PRT_LSM_STAT, 3, 3, .ro, .const 0⟩
/-- PRT_LSM_STAT.ENABLED -/
abbrev PRT_LSM_STAT_ENABLED : Fld := ⟨.PRT_LSM_STAT, 2, 2, .ro, .const 0⟩
/-- PRT_LSM_STAT.FAULT -/
abbrev PRT_LSM_STAT_FAULT : Fld := ⟨.PRT_LSM_STAT, 1, 1, .ro, .const 0⟩
/-- PRT_LSM_STAT.PRESENT -/
abbrev PRT_LSM_STAT_PRESENT : Fld := ⟨.PRT_LSM_STAT, 0, 0, .ro, .const 0⟩
/-- PRT_LSM_POWER.OUT3 -/
abbrev PRT_LSM_POWER_OUT3 : Fld := ⟨.PRT_LSM_POWER, 63, 48, .ro, .const 0⟩
/-- PRT_LSM_POWER.OUT2 -/
abbrev PRT_LSM_POWER_OUT2 : Fld := ⟨.PRT_LSM_POWER, 47, 32, .ro, .const 0⟩
/-- PRT_LSM_POWER.OUT1 -/
abbrev PRT_LSM_POWER_OUT1 : Fld := ⟨.PRT_LSM_POWER, 31, 16, .ro, .const 0⟩
/-- PRT_LSM_POWER.OUT0 -/
abbrev PRT_LSM_POWER_OUT0 : Fld := ⟨.PRT_LSM_POWER, 15, 0, .ro, .const 0⟩
/-- PRT_LSM_BIAS.OUT3 -/
abbrev PRT_LSM_BIAS_OUT3 : Fld := ⟨.PRT_LSM_BIAS, 63, 48, .ro, .const 0⟩
/-- PRT_LSM_BIAS.OUT2 -/
abbrev PRT_LSM_BIAS_OUT2 : Fld := ⟨.PRT_LSM_BIAS, 47, 32, .ro, .const 0⟩
/-- PRT_LSM_BIAS.OUT1 -/
abbrev PRT_LSM_BIAS_OUT1 : Fld := ⟨.PRT_LSM_BIAS, 31, 16, .ro, .const 0⟩
/-- PRT_LSM_BIAS.OUT0 -/
abbrev PRT_LSM_BIAS_OUT0 : Fld := ⟨.PRT_LSM_BIAS, 15, 0, .ro, .const 0⟩
/-- PRT_LSM_CTL.ENABLE -/
abbrev PRT_LSM_CTL_ENABLE : Fld := ⟨.PRT_LSM_CTL, 0, 0, .rw, .const 0⟩
/-- PRT_LSM_THR.WARN -/
abbrev PRT_LSM_THR_WARN : Fld := ⟨.PRT_LSM_THR, 31, 16, .rw, .const 1500⟩
/-- PRT_LSM_THR.ALARM -/
abbrev PRT_LSM_THR_ALARM : Fld := ⟨.PRT_LSM_THR, 15, 0, .rw, .const 1400⟩
/-- PRT_TIME_CFG.GM -/
abbrev PRT_TIME_CFG_GM : Fld := ⟨.PRT_TIME_CFG, 31, 31, .rw, .nvm⟩
/-- PRT_TIME_CFG.SYNC_INTERVAL -/
abbrev PRT_TIME_CFG_SYNC_INTERVAL : Fld := ⟨.PRT_TIME_CFG, 15, 8, .rw, .const 8⟩
/-- PRT_TIME_CFG.LOCK_NS -/
abbrev PRT_TIME_CFG_LOCK_NS : Fld := ⟨.PRT_TIME_CFG, 7, 0, .rw, .const 5⟩
/-- PRT_TIME_NOW.NS -/
abbrev PRT_TIME_NOW_NS : Fld := ⟨.PRT_TIME_NOW, 63, 0, .rw, .const 0⟩
/-- PRT_TIME_STAT.SLAVE_PORT -/
abbrev PRT_TIME_STAT_SLAVE_PORT : Fld := ⟨.PRT_TIME_STAT, 55, 48, .ro, .const 0⟩
/-- PRT_TIME_STAT.HOLDOVERS -/
abbrev PRT_TIME_STAT_HOLDOVERS : Fld := ⟨.PRT_TIME_STAT, 31, 16, .rc, .const 0⟩
/-- PRT_TIME_STAT.STATE -/
abbrev PRT_TIME_STAT_STATE : Fld := ⟨.PRT_TIME_STAT, 2, 0, .ro, .const 0⟩
/-- PRT_TIME_OFFSET.OFFSET -/
abbrev PRT_TIME_OFFSET_OFFSET : Fld := ⟨.PRT_TIME_OFFSET, 63, 0, .ro, .const 0⟩
/-- PRT_DISC_SUM.QUARANTINED -/
abbrev PRT_DISC_SUM_QUARANTINED : Fld := ⟨.PRT_DISC_SUM, 53, 45, .ro, .const 0⟩
/-- PRT_DISC_SUM.FW_DIFF -/
abbrev PRT_DISC_SUM_FW_DIFF : Fld := ⟨.PRT_DISC_SUM, 44, 36, .ro, .const 0⟩
/-- PRT_DISC_SUM.EXTRA -/
abbrev PRT_DISC_SUM_EXTRA : Fld := ⟨.PRT_DISC_SUM, 35, 27, .ro, .const 0⟩
/-- PRT_DISC_SUM.MISMATCH -/
abbrev PRT_DISC_SUM_MISMATCH : Fld := ⟨.PRT_DISC_SUM, 26, 18, .ro, .const 0⟩
/-- PRT_DISC_SUM.MISSING -/
abbrev PRT_DISC_SUM_MISSING : Fld := ⟨.PRT_DISC_SUM, 17, 9, .ro, .const 0⟩
/-- PRT_DISC_SUM.MATCHED -/
abbrev PRT_DISC_SUM_MATCHED : Fld := ⟨.PRT_DISC_SUM, 8, 0, .ro, .const 0⟩
/-- PRT_DISC_CFG.LEAVES -/
abbrev PRT_DISC_CFG_LEAVES : Fld := ⟨.PRT_DISC_CFG, 24, 16, .rwl, .nvm⟩
/-- PRT_DISC_CFG.PLANE -/
abbrev PRT_DISC_CFG_PLANE : Fld := ⟨.PRT_DISC_CFG, 15, 8, .rwl, .nvm⟩
/-- PRT_DISC_CFG.SWITCH_INDEX -/
abbrev PRT_DISC_CFG_SWITCH_INDEX : Fld := ⟨.PRT_DISC_CFG, 7, 0, .rwl, .nvm⟩
/-- PRT_DISC_GEN.GEN -/
abbrev PRT_DISC_GEN_GEN : Fld := ⟨.PRT_DISC_GEN, 31, 0, .ro, .const 0⟩
/-- PRT_ACC_FW.DIGEST -/
abbrev PRT_ACC_FW_DIGEST : Fld := ⟨.PRT_ACC_FW, 63, 0, .rwl, .const 0⟩
/-- LST_CFG.VALID -/
abbrev LST_CFG_VALID : Fld := ⟨.LST_CFG, 63, 63, .rwl, .const 0⟩
/-- LST_CFG.LEVEL -/
abbrev LST_CFG_LEVEL : Fld := ⟨.LST_CFG, 62, 61, .rwl, .const 0⟩
/-- LST_CFG.SHAPE -/
abbrev LST_CFG_SHAPE : Fld := ⟨.LST_CFG, 60, 60, .rwl, .const 0⟩
/-- LST_CFG.PORT_AGNOSTIC -/
abbrev LST_CFG_PORT_AGNOSTIC : Fld := ⟨.LST_CFG, 59, 59, .rwl, .const 0⟩
/-- LST_CFG.OPERANDS -/
abbrev LST_CFG_OPERANDS : Fld := ⟨.LST_CFG, 58, 50, .rwl, .const 0⟩
/-- LST_CFG.RANKS -/
abbrev LST_CFG_RANKS : Fld := ⟨.LST_CFG, 49, 34, .rwl, .const 0⟩
/-- LST_CFG.SEGMENTS -/
abbrev LST_CFG_SEGMENTS : Fld := ⟨.LST_CFG, 33, 25, .rwl, .const 0⟩
/-- LST_STATE.FENCED -/
abbrev LST_STATE_FENCED : Fld := ⟨.LST_STATE, 24, 16, .ro, .const 0⟩
/-- LST_STATE.EXPOSED -/
abbrev LST_STATE_EXPOSED : Fld := ⟨.LST_STATE, 3, 3, .ro, .const 0⟩
/-- LST_STATE.STATE -/
abbrev LST_STATE_STATE : Fld := ⟨.LST_STATE, 2, 0, .ro, .const 0⟩
/-- LST_TIMEOUT.PROGRESS_US -/
abbrev LST_TIMEOUT_PROGRESS_US : Fld := ⟨.LST_TIMEOUT, 31, 0, .rwl, .const 10000⟩
/-- LST_SEG.INDEX -/
abbrev LST_SEG_INDEX : Fld := ⟨.LST_SEG, 40, 32, .rwl, .const 0⟩
/-- LST_SEG.BASE -/
abbrev LST_SEG_BASE : Fld := ⟨.LST_SEG, 31, 16, .rwl, .const 0⟩
/-- LST_SEG.SIZE -/
abbrev LST_SEG_SIZE : Fld := ⟨.LST_SEG, 8, 0, .rwl, .const 0⟩
/-- LST_OPS.DONE -/
abbrev LST_OPS_DONE : Fld := ⟨.LST_OPS, 63, 32, .rc, .const 0⟩
/-- LST_OPS.INCOMPLETE -/
abbrev LST_OPS_INCOMPLETE : Fld := ⟨.LST_OPS, 31, 16, .rc, .const 0⟩
/-- LST_OPS.ABORTED -/
abbrev LST_OPS_ABORTED : Fld := ⟨.LST_OPS, 15, 0, .rc, .const 0⟩
/-- LST_MEMBER.VALID -/
abbrev LST_MEMBER_VALID : Fld := ⟨.LST_MEMBER, 63, 63, .rwl, .const 0⟩
/-- LST_MEMBER.FENCED -/
abbrev LST_MEMBER_FENCED : Fld := ⟨.LST_MEMBER, 62, 62, .ro, .const 0⟩
/-- LST_MEMBER.PRESENT -/
abbrev LST_MEMBER_PRESENT : Fld := ⟨.LST_MEMBER, 61, 61, .ro, .const 0⟩
/-- LST_MEMBER.PORT -/
abbrev LST_MEMBER_PORT : Fld := ⟨.LST_MEMBER, 55, 48, .rwl, .const 0⟩
/-- LST_MEMBER.FEED -/
abbrev LST_MEMBER_FEED : Fld := ⟨.LST_MEMBER, 47, 40, .rwl, .const 0⟩
/-- LST_MEMBER.IDENT -/
abbrev LST_MEMBER_IDENT : Fld := ⟨.LST_MEMBER, 31, 0, .rwl, .const 0⟩
/-- LST_PLAN_STAT.CONTEXTS -/
abbrev LST_PLAN_STAT_CONTEXTS : Fld := ⟨.LST_PLAN_STAT, 40, 24, .ro, .const 0⟩
/-- LST_PLAN_STAT.STATUS -/
abbrev LST_PLAN_STAT_STATUS : Fld := ⟨.LST_PLAN_STAT, 23, 16, .ro, .const 0⟩
/-- LST_PLAN_STAT.LASTS -/
abbrev LST_PLAN_STAT_LASTS : Fld := ⟨.LST_PLAN_STAT, 12, 8, .ro, .const 0⟩
/-- LST_PLAN_STAT.STATE -/
abbrev LST_PLAN_STAT_STATE : Fld := ⟨.LST_PLAN_STAT, 2, 0, .ro, .const 0⟩
/-- LST_PLAN_CHECKS.FAILED -/
abbrev LST_PLAN_CHECKS_FAILED : Fld := ⟨.LST_PLAN_CHECKS, 11, 1, .ro, .const 0⟩
/-- LST_PLAN_CFG.SPINES -/
abbrev LST_PLAN_CFG_SPINES : Fld := ⟨.LST_PLAN_CFG, 22, 16, .rwl, .const 0⟩
/-- LST_PLAN_CFG.SPINE_INDEX -/
abbrev LST_PLAN_CFG_SPINE_INDEX : Fld := ⟨.LST_PLAN_CFG, 13, 8, .rwl, .const 0⟩
/-- LST_PLAN_CFG.FEED_OVERRIDE -/
abbrev LST_PLAN_CFG_FEED_OVERRIDE : Fld := ⟨.LST_PLAN_CFG, 1, 1, .rwl, .const 0⟩
/-- LST_PLAN_CFG.DUM_TOLERANT -/
abbrev LST_PLAN_CFG_DUM_TOLERANT : Fld := ⟨.LST_PLAN_CFG, 0, 0, .rwl, .const 0⟩
/-- LST_PLAN_DIGEST.DIGEST -/
abbrev LST_PLAN_DIGEST_DIGEST : Fld := ⟨.LST_PLAN_DIGEST, 63, 0, .ro, .const 0⟩
/-- LST_RUN_SRC.SRC_CHUNK -/
abbrev LST_RUN_SRC_SRC_CHUNK : Fld := ⟨.LST_RUN_SRC, 63, 32, .rwl, .const 0⟩
/-- LST_RUN_SRC.SRC_RANK -/
abbrev LST_RUN_SRC_SRC_RANK : Fld := ⟨.LST_RUN_SRC, 31, 16, .rwl, .const 0⟩
/-- LST_RUN_SRC.COUNT -/
abbrev LST_RUN_SRC_COUNT : Fld := ⟨.LST_RUN_SRC, 15, 0, .rwl, .const 0⟩
/-- LST_RUN_DST.DST_CHUNK -/
abbrev LST_RUN_DST_DST_CHUNK : Fld := ⟨.LST_RUN_DST, 63, 32, .rwl, .const 0⟩
/-- LST_RUN_DST.DST_RANK -/
abbrev LST_RUN_DST_DST_RANK : Fld := ⟨.LST_RUN_DST, 31, 16, .rwl, .const 0⟩
/-- LST_RUN_DST.NOSELF -/
abbrev LST_RUN_DST_NOSELF : Fld := ⟨.LST_RUN_DST, 4, 4, .rwl, .const 0⟩
/-- LST_RUN_DST.COPIES_M1 -/
abbrev LST_RUN_DST_COPIES_M1 : Fld := ⟨.LST_RUN_DST, 3, 0, .rwl, .const 0⟩
/-- OPC_DECL.VALID -/
abbrev OPC_DECL_VALID : Fld := ⟨.OPC_DECL, 31, 31, .rwl, .const 0⟩
/-- OPC_DECL.LAST -/
abbrev OPC_DECL_LAST : Fld := ⟨.OPC_DECL, 30, 27, .rwl, .const 0⟩
/-- OPC_DECL.TARGET -/
abbrev OPC_DECL_TARGET : Fld := ⟨.OPC_DECL, 26, 23, .rwl, .const 0⟩
/-- OPC_DECL.KIND -/
abbrev OPC_DECL_KIND : Fld := ⟨.OPC_DECL, 22, 20, .rwl, .const 0⟩
/-- OPC_DECL.OPERATOR -/
abbrev OPC_DECL_OPERATOR : Fld := ⟨.OPC_DECL, 19, 17, .rwl, .const 0⟩
/-- OPC_DECL.IN_FMT -/
abbrev OPC_DECL_IN_FMT : Fld := ⟨.OPC_DECL, 16, 13, .rwl, .const 0⟩
/-- OPC_DECL.OUT_FMT -/
abbrev OPC_DECL_OUT_FMT : Fld := ⟨.OPC_DECL, 12, 9, .rwl, .const 0⟩
/-- OPC_DECL.SELF -/
abbrev OPC_DECL_SELF : Fld := ⟨.OPC_DECL, 8, 8, .rwl, .const 0⟩
/-- OPC_LIMIT.MAX_CHUNKS -/
abbrev OPC_LIMIT_MAX_CHUNKS : Fld := ⟨.OPC_LIMIT, 31, 0, .rwl, .const 0⟩
/-- OPC_RUNS.COUNT -/
abbrev OPC_RUNS_COUNT : Fld := ⟨.OPC_RUNS, 30, 16, .rwl, .const 0⟩
/-- OPC_RUNS.BASE -/
abbrev OPC_RUNS_BASE : Fld := ⟨.OPC_RUNS, 13, 0, .rwl, .const 0⟩
/-- OPC_STATE.DESCS -/
abbrev OPC_STATE_DESCS : Fld := ⟨.OPC_STATE, 24, 16, .ro, .const 0⟩
/-- OPC_STATE.EARLY -/
abbrev OPC_STATE_EARLY : Fld := ⟨.OPC_STATE, 9, 9, .ro, .const 0⟩
/-- OPC_STATE.NONFIN -/
abbrev OPC_STATE_NONFIN : Fld := ⟨.OPC_STATE, 8, 8, .ro, .const 0⟩
/-- OPC_STATE.SAT -/
abbrev OPC_STATE_SAT : Fld := ⟨.OPC_STATE, 7, 7, .ro, .const 0⟩
/-- OPC_STATE.WARM -/
abbrev OPC_STATE_WARM : Fld := ⟨.OPC_STATE, 6, 6, .ro, .const 0⟩
/-- OPC_STATE.STATUS -/
abbrev OPC_STATE_STATUS : Fld := ⟨.OPC_STATE, 5, 3, .ro, .const 0⟩
/-- OPC_STATE.STATE -/
abbrev OPC_STATE_STATE : Fld := ⟨.OPC_STATE, 2, 0, .ro, .const 0⟩
/-- OPC_EXPECT.SWATCHES -/
abbrev OPC_EXPECT_SWATCHES : Fld := ⟨.OPC_EXPECT, 63, 0, .ro, .const 0⟩
/-- OPC_RECV.SWATCHES -/
abbrev OPC_RECV_SWATCHES : Fld := ⟨.OPC_RECV, 63, 0, .ro, .const 0⟩
/-- OPC_BYTES.BYTES -/
abbrev OPC_BYTES_BYTES : Fld := ⟨.OPC_BYTES, 63, 0, .ro, .const 0⟩
/-- OPC_DROPS.STALE -/
abbrev OPC_DROPS_STALE : Fld := ⟨.OPC_DROPS, 63, 48, .rc, .const 0⟩
/-- OPC_DROPS.DUP -/
abbrev OPC_DROPS_DUP : Fld := ⟨.OPC_DROPS, 47, 32, .rc, .const 0⟩
/-- OPC_DROPS.RANGE -/
abbrev OPC_DROPS_RANGE : Fld := ⟨.OPC_DROPS, 31, 16, .rc, .const 0⟩
/-- OPC_DROPS.FOREIGN -/
abbrev OPC_DROPS_FOREIGN : Fld := ⟨.OPC_DROPS, 15, 0, .rc, .const 0⟩
/-- OPC_OPS.DONE -/
abbrev OPC_OPS_DONE : Fld := ⟨.OPC_OPS, 31, 0, .rc, .const 0⟩
/-- OPC_FAIL.INCOMPLETE -/
abbrev OPC_FAIL_INCOMPLETE : Fld := ⟨.OPC_FAIL, 31, 16, .rc, .const 0⟩
/-- OPC_FAIL.ABORTED -/
abbrev OPC_FAIL_ABORTED : Fld := ⟨.OPC_FAIL, 15, 0, .rc, .const 0⟩
/-- OPC_TAG.TAG -/
abbrev OPC_TAG_TAG : Fld := ⟨.OPC_TAG, 63, 0, .ro, .const 0⟩
/-- OPC_UNDECL.COUNT -/
abbrev OPC_UNDECL_COUNT : Fld := ⟨.OPC_UNDECL, 63, 0, .rc, .const 0⟩
/-- OPC_UNDECL_LAST.VALID -/
abbrev OPC_UNDECL_LAST_VALID : Fld := ⟨.OPC_UNDECL_LAST, 63, 63, .ro, .const 0⟩
/-- OPC_UNDECL_LAST.PORT -/
abbrev OPC_UNDECL_LAST_PORT : Fld := ⟨.OPC_UNDECL_LAST, 39, 32, .ro, .const 0⟩
/-- OPC_UNDECL_LAST.CONTEXT -/
abbrev OPC_UNDECL_LAST_CONTEXT : Fld := ⟨.OPC_UNDECL_LAST, 15, 0, .ro, .const 0⟩
/-- OPC_REFUSED.CONTEXT -/
abbrev OPC_REFUSED_CONTEXT : Fld := ⟨.OPC_REFUSED, 63, 48, .ro, .const 0⟩
/-- OPC_REFUSED.PORT -/
abbrev OPC_REFUSED_PORT : Fld := ⟨.OPC_REFUSED, 47, 40, .ro, .const 0⟩
/-- OPC_REFUSED.CODE -/
abbrev OPC_REFUSED_CODE : Fld := ⟨.OPC_REFUSED, 35, 32, .ro, .const 0⟩
/-- OPC_REFUSED.COUNT -/
abbrev OPC_REFUSED_COUNT : Fld := ⟨.OPC_REFUSED, 31, 0, .rc, .const 0⟩
/-- OPC_ABORT.GO -/
abbrev OPC_ABORT_GO : Fld := ⟨.OPC_ABORT, 31, 31, .wo, .const 0⟩
/-- OPC_ABORT.CONTEXT -/
abbrev OPC_ABORT_CONTEXT : Fld := ⟨.OPC_ABORT, 15, 0, .wo, .const 0⟩
/-- OPC_XCH_CFG.PAD_SKIP -/
abbrev OPC_XCH_CFG_PAD_SKIP : Fld := ⟨.OPC_XCH_CFG, 49, 49, .rwl, .const 0⟩
/-- OPC_XCH_CFG.POLICY -/
abbrev OPC_XCH_CFG_POLICY : Fld := ⟨.OPC_XCH_CFG, 48, 48, .rwl, .const 0⟩
/-- OPC_XCH_CFG.CAP -/
abbrev OPC_XCH_CFG_CAP : Fld := ⟨.OPC_XCH_CFG, 47, 32, .rwl, .const 0⟩
/-- OPC_XCH_CFG.ROW_BYTES -/
abbrev OPC_XCH_CFG_ROW_BYTES : Fld := ⟨.OPC_XCH_CFG, 16, 0, .rwl, .const 0⟩
/-- OPC_XCH_PLACED.ROWS -/
abbrev OPC_XCH_PLACED_ROWS : Fld := ⟨.OPC_XCH_PLACED, 63, 0, .rc, .const 0⟩
/-- OPC_XCH_DROPPED.CAPACITY -/
abbrev OPC_XCH_DROPPED_CAPACITY : Fld := ⟨.OPC_XCH_DROPPED, 63, 32, .rc, .const 0⟩
/-- OPC_XCH_DROPPED.FENCED -/
abbrev OPC_XCH_DROPPED_FENCED : Fld := ⟨.OPC_XCH_DROPPED, 31, 0, .rc, .const 0⟩
/-- OPC_XCH_PEAK.DEST -/
abbrev OPC_XCH_PEAK_DEST : Fld := ⟨.OPC_XCH_PEAK, 39, 32, .ro, .const 0⟩
/-- OPC_XCH_PEAK.DEMAND -/
abbrev OPC_XCH_PEAK_DEMAND : Fld := ⟨.OPC_XCH_PEAK, 31, 0, .ro, .const 0⟩
/-- OPC_XCH_BAD.CONTEXT -/
abbrev OPC_XCH_BAD_CONTEXT : Fld := ⟨.OPC_XCH_BAD, 63, 48, .ro, .const 0⟩
/-- OPC_XCH_BAD.PORT -/
abbrev OPC_XCH_BAD_PORT : Fld := ⟨.OPC_XCH_BAD, 47, 40, .ro, .const 0⟩
/-- OPC_XCH_BAD.CODE -/
abbrev OPC_XCH_BAD_CODE : Fld := ⟨.OPC_XCH_BAD, 33, 32, .ro, .const 0⟩
/-- OPC_XCH_BAD.COUNT -/
abbrev OPC_XCH_BAD_COUNT : Fld := ⟨.OPC_XCH_BAD, 31, 0, .rc, .const 0⟩
/-- CL_STATE.LOGICAL -/
abbrev CL_STATE_LOGICAL : Fld := ⟨.CL_STATE, 24, 16, .ro, .nvm⟩
/-- CL_STATE.CAUSE -/
abbrev CL_STATE_CAUSE : Fld := ⟨.CL_STATE, 7, 4, .ro, .nvm⟩
/-- CL_STATE.STATE -/
abbrev CL_STATE_STATE : Fld := ⟨.CL_STATE, 2, 0, .ro, .nvm⟩
/-- CL_PARITY_ERR.SELECT -/
abbrev CL_PARITY_ERR_SELECT : Fld := ⟨.CL_PARITY_ERR, 31, 16, .rc, .const 0⟩
/-- CL_PARITY_ERR.PARITY -/
abbrev CL_PARITY_ERR_PARITY : Fld := ⟨.CL_PARITY_ERR, 15, 0, .rc, .const 0⟩
/-- CL_OCCUPANCY.CHUNKS -/
abbrev CL_OCCUPANCY_CHUNKS : Fld := ⟨.CL_OCCUPANCY, 22, 16, .ro, .const 0⟩
/-- CL_OCCUPANCY.GRANULES -/
abbrev CL_OCCUPANCY_GRANULES : Fld := ⟨.CL_OCCUPANCY, 6, 0, .ro, .const 0⟩
/-- CL_REPLAYS.COUNT -/
abbrev CL_REPLAYS_COUNT : Fld := ⟨.CL_REPLAYS, 31, 0, .rc, .const 0⟩
/-- CL_TEST.FAIL -/
abbrev CL_TEST_FAIL : Fld := ⟨.CL_TEST, 1, 1, .ro, .const 0⟩
/-- CL_TEST.DONE -/
abbrev CL_TEST_DONE : Fld := ⟨.CL_TEST, 0, 0, .ro, .const 0⟩
/-- CL_WELT_ECC.UNCORR -/
abbrev CL_WELT_ECC_UNCORR : Fld := ⟨.CL_WELT_ECC, 31, 16, .rc, .const 0⟩
/-- CL_WELT_ECC.CORR -/
abbrev CL_WELT_ECC_CORR : Fld := ⟨.CL_WELT_ECC, 15, 0, .rc, .const 0⟩
/-- CL_NODES.COUNT -/
abbrev CL_NODES_COUNT : Fld := ⟨.CL_NODES, 63, 0, .rc, .const 0⟩
/-- CL_LAST_ERR.CONTEXT -/
abbrev CL_LAST_ERR_CONTEXT : Fld := ⟨.CL_LAST_ERR, 63, 48, .ro, .const 0⟩
/-- CL_LAST_ERR.CHUNK -/
abbrev CL_LAST_ERR_CHUNK : Fld := ⟨.CL_LAST_ERR, 47, 16, .ro, .const 0⟩
/-- CL_LAST_ERR.NODE -/
abbrev CL_LAST_ERR_NODE : Fld := ⟨.CL_LAST_ERR, 15, 8, .ro, .const 0⟩
/-- CL_LAST_ERR.PATH -/
abbrev CL_LAST_ERR_PATH : Fld := ⟨.CL_LAST_ERR, 4, 2, .ro, .const 0⟩
/-- CL_LAST_ERR.VALID -/
abbrev CL_LAST_ERR_VALID : Fld := ⟨.CL_LAST_ERR, 0, 0, .ro, .const 0⟩
/-- CL_CHUNKS.COUNT -/
abbrev CL_CHUNKS_COUNT : Fld := ⟨.CL_CHUNKS, 63, 0, .rc, .const 0⟩
/-- CL_SUMMARY.UNMAPPED -/
abbrev CL_SUMMARY_UNMAPPED : Fld := ⟨.CL_SUMMARY, 40, 32, .ro, .nvm⟩
/-- CL_SUMMARY.SUBSTITUTIONS -/
abbrev CL_SUMMARY_SUBSTITUTIONS : Fld := ⟨.CL_SUMMARY, 31, 27, .ro, .const 0⟩
/-- CL_SUMMARY.RETIRED -/
abbrev CL_SUMMARY_RETIRED : Fld := ⟨.CL_SUMMARY, 26, 18, .ro, .nvm⟩
/-- CL_SUMMARY.RETIRE_PENDING -/
abbrev CL_SUMMARY_RETIRE_PENDING : Fld := ⟨.CL_SUMMARY, 17, 9, .ro, .const 0⟩
/-- CL_SUMMARY.ACTIVE -/
abbrev CL_SUMMARY_ACTIVE : Fld := ⟨.CL_SUMMARY, 8, 0, .ro, .nvm⟩
/-- CL_WAIT_CYCLES.COUNT -/
abbrev CL_WAIT_CYCLES_COUNT : Fld := ⟨.CL_WAIT_CYCLES, 63, 0, .rc, .const 0⟩
/-- CL_SPARES.DIE3 -/
abbrev CL_SPARES_DIE3 : Fld := ⟨.CL_SPARES, 15, 12, .ro, .nvm⟩
/-- CL_SPARES.DIE2 -/
abbrev CL_SPARES_DIE2 : Fld := ⟨.CL_SPARES, 11, 8, .ro, .nvm⟩
/-- CL_SPARES.DIE1 -/
abbrev CL_SPARES_DIE1 : Fld := ⟨.CL_SPARES, 7, 4, .ro, .nvm⟩
/-- CL_SPARES.DIE0 -/
abbrev CL_SPARES_DIE0 : Fld := ⟨.CL_SPARES, 3, 0, .ro, .nvm⟩
/-- CL_BUSY_CYCLES.COUNT -/
abbrev CL_BUSY_CYCLES_COUNT : Fld := ⟨.CL_BUSY_CYCLES, 63, 0, .rc, .const 0⟩
/-- CL_OWN_GEN.GEN -/
abbrev CL_OWN_GEN_GEN : Fld := ⟨.CL_OWN_GEN, 31, 0, .ro, .const 0⟩
/-- CL_RESIDUE_ERR.EXP -/
abbrev CL_RESIDUE_ERR_EXP : Fld := ⟨.CL_RESIDUE_ERR, 31, 16, .rc, .const 0⟩
/-- CL_RESIDUE_ERR.SIG -/
abbrev CL_RESIDUE_ERR_SIG : Fld := ⟨.CL_RESIDUE_ERR, 15, 0, .rc, .const 0⟩
/-- CL_LOG2PHYS.MAPPED -/
abbrev CL_LOG2PHYS_MAPPED : Fld := ⟨.CL_LOG2PHYS, 31, 31, .ro, .nvm⟩
/-- CL_LOG2PHYS.PHYS -/
abbrev CL_LOG2PHYS_PHYS : Fld := ⟨.CL_LOG2PHYS, 8, 0, .ro, .nvm⟩
/-- CL_OWNER.LOGICAL -/
abbrev CL_OWNER_LOGICAL : Fld := ⟨.CL_OWNER, 8, 0, .ro, .nvm⟩
/-- WLT_CTX.LIMIT -/
abbrev WLT_CTX_LIMIT : Fld := ⟨.WLT_CTX, 63, 32, .ro, .const 4294967295⟩
/-- WLT_CTX.LISTED -/
abbrev WLT_CTX_LISTED : Fld := ⟨.WLT_CTX, 31, 31, .ro, .const 0⟩
/-- WLT_CTX.NEED -/
abbrev WLT_CTX_NEED : Fld := ⟨.WLT_CTX, 22, 16, .ro, .const 0⟩
/-- WLT_CTX.WAITING -/
abbrev WLT_CTX_WAITING : Fld := ⟨.WLT_CTX, 15, 0, .ro, .const 0⟩
/-- WLT_QUOTA.BORROW -/
abbrev WLT_QUOTA_BORROW : Fld := ⟨.WLT_QUOTA, 22, 16, .rwl, .const 0⟩
/-- WLT_QUOTA.GRANULES -/
abbrev WLT_QUOTA_GRANULES : Fld := ⟨.WLT_QUOTA, 6, 0, .rwl, .const 0⟩
/-- WLT_SPILL_LIMIT.GRANULES -/
abbrev WLT_SPILL_LIMIT_GRANULES : Fld := ⟨.WLT_SPILL_LIMIT, 23, 0, .rwl, .const 0⟩
/-- WLT_GRANT_CFG.HOLD_AT -/
abbrev WLT_GRANT_CFG_HOLD_AT : Fld := ⟨.WLT_GRANT_CFG, 4, 0, .rwl, .const 12⟩
/-- WLT_STATE.TRIGGER_DIE -/
abbrev WLT_STATE_TRIGGER_DIE : Fld := ⟨.WLT_STATE, 17, 16, .ro, .const 0⟩
/-- WLT_STATE.CAUSE -/
abbrev WLT_STATE_CAUSE : Fld := ⟨.WLT_STATE, 9, 8, .ro, .const 0⟩
/-- WLT_STATE.STATE -/
abbrev WLT_STATE_STATE : Fld := ⟨.WLT_STATE, 1, 0, .ro, .const 0⟩
/-- WLT_ADMITS.SPILL -/
abbrev WLT_ADMITS_SPILL : Fld := ⟨.WLT_ADMITS, 63, 32, .rc, .const 0⟩
/-- WLT_ADMITS.WELT -/
abbrev WLT_ADMITS_WELT : Fld := ⟨.WLT_ADMITS, 31, 0, .rc, .const 0⟩
/-- WLT_HOLDS.COUNT -/
abbrev WLT_HOLDS_COUNT : Fld := ⟨.WLT_HOLDS, 63, 32, .ro, .const 0⟩
/-- WLT_HOLDS.TIME_US -/
abbrev WLT_HOLDS_TIME_US : Fld := ⟨.WLT_HOLDS, 31, 0, .rc, .const 0⟩
/-- WLT_SPILL_USED.GRANULES -/
abbrev WLT_SPILL_USED_GRANULES : Fld := ⟨.WLT_SPILL_USED, 23, 0, .ro, .const 0⟩
/-- WLT_WELT_USED.BORROWED -/
abbrev WLT_WELT_USED_BORROWED : Fld := ⟨.WLT_WELT_USED, 31, 16, .ro, .const 0⟩
/-- WLT_WELT_USED.GRANULES -/
abbrev WLT_WELT_USED_GRANULES : Fld := ⟨.WLT_WELT_USED, 15, 0, .ro, .const 0⟩
/-- WLT_WAITS.COUNT -/
abbrev WLT_WAITS_COUNT : Fld := ⟨.WLT_WAITS, 31, 0, .rc, .const 0⟩
/-- WLT_SPILL_CFG.SHARE -/
abbrev WLT_SPILL_CFG_SHARE : Fld := ⟨.WLT_SPILL_CFG, 3, 0, .rw, .const 7⟩
/-- WLT_SHARED.GRANULES -/
abbrev WLT_SHARED_GRANULES : Fld := ⟨.WLT_SHARED, 6, 0, .ro, .const 64⟩
/-- WLT_REGION.GRANULES -/
abbrev WLT_REGION_GRANULES : Fld := ⟨.WLT_REGION, 63, 40, .ro, .nvm⟩
/-- WLT_REGION.BASE -/
abbrev WLT_REGION_BASE : Fld := ⟨.WLT_REGION, 35, 0, .ro, .nvm⟩
/-- WLT_GRANT_FRAMES.OPEN -/
abbrev WLT_GRANT_FRAMES_OPEN : Fld := ⟨.WLT_GRANT_FRAMES, 63, 32, .rc, .const 0⟩
/-- WLT_GRANT_FRAMES.HOLD -/
abbrev WLT_GRANT_FRAMES_HOLD : Fld := ⟨.WLT_GRANT_FRAMES, 31, 0, .rc, .const 0⟩
/-- INS_ECC.UNCORR -/
abbrev INS_ECC_UNCORR : Fld := ⟨.INS_ECC, 63, 32, .rc, .const 0⟩
/-- INS_ECC.CORR -/
abbrev INS_ECC_CORR : Fld := ⟨.INS_ECC, 31, 0, .rc, .const 0⟩
/-- INS_ECC_LAST.VALID -/
abbrev INS_ECC_LAST_VALID : Fld := ⟨.INS_ECC_LAST, 63, 63, .ro, .const 0⟩
/-- INS_ECC_LAST.CELL -/
abbrev INS_ECC_LAST_CELL : Fld := ⟨.INS_ECC_LAST, 21, 0, .ro, .const 0⟩
/-- INS_GROUP_SCHED.ACCESSES -/
abbrev INS_GROUP_SCHED_ACCESSES : Fld := ⟨.INS_GROUP_SCHED, 63, 0, .rc, .const 0⟩
/-- INS_GROUP_OPP.ACCESSES -/
abbrev INS_GROUP_OPP_ACCESSES : Fld := ⟨.INS_GROUP_OPP, 63, 0, .rc, .const 0⟩
/-- BPM_POOL_CFG.SCHED -/
abbrev BPM_POOL_CFG_SCHED : Fld := ⟨.BPM_POOL_CFG, 54, 32, .ro, .nvm⟩
/-- BPM_POOL_CFG.COUNT -/
abbrev BPM_POOL_CFG_COUNT : Fld := ⟨.BPM_POOL_CFG, 22, 0, .ro, .nvm⟩
/-- BPM_POOL_FREE.OPP -/
abbrev BPM_POOL_FREE_OPP : Fld := ⟨.BPM_POOL_FREE, 54, 32, .ro, .const 0⟩
/-- BPM_POOL_FREE.SCHED -/
abbrev BPM_POOL_FREE_SCHED : Fld := ⟨.BPM_POOL_FREE, 22, 0, .ro, .const 0⟩
/-- BPM_POOL_LOW.OPP -/
abbrev BPM_POOL_LOW_OPP : Fld := ⟨.BPM_POOL_LOW, 54, 32, .rc, .const 0⟩
/-- BPM_POOL_LOW.SCHED -/
abbrev BPM_POOL_LOW_SCHED : Fld := ⟨.BPM_POOL_LOW, 22, 0, .rc, .const 0⟩
/-- BPM_POOL_BASE.CELL -/
abbrev BPM_POOL_BASE_CELL : Fld := ⟨.BPM_POOL_BASE, 21, 0, .ro, .nvm⟩
/-- BPM_ACCT.LIMIT -/
abbrev BPM_ACCT_LIMIT : Fld := ⟨.BPM_ACCT, 54, 32, .rwlAcct, .nvm⟩
/-- BPM_ACCT.RESERVE -/
abbrev BPM_ACCT_RESERVE : Fld := ⟨.BPM_ACCT, 22, 0, .rwlAcct, .nvm⟩
/-- BPM_HELD.BUFFERS -/
abbrev BPM_HELD_BUFFERS : Fld := ⟨.BPM_HELD, 22, 0, .ro, .const 0⟩
/-- BPM_GCFG.ALLOC_WAIT -/
abbrev BPM_GCFG_ALLOC_WAIT : Fld := ⟨.BPM_GCFG, 7, 0, .rw, .const 64⟩
/-- BPM_ERR.TAG_ECC -/
abbrev BPM_ERR_TAG_ECC : Fld := ⟨.BPM_ERR, 4, 4, .w1c, .const 0⟩
/-- BPM_ERR.EXHAUSTED -/
abbrev BPM_ERR_EXHAUSTED : Fld := ⟨.BPM_ERR, 3, 3, .w1c, .const 0⟩
/-- BPM_ERR.BAD_POINTER -/
abbrev BPM_ERR_BAD_POINTER : Fld := ⟨.BPM_ERR, 2, 2, .w1c, .const 0⟩
/-- BPM_ERR.FOREIGN_FREE -/
abbrev BPM_ERR_FOREIGN_FREE : Fld := ⟨.BPM_ERR, 1, 1, .w1c, .const 0⟩
/-- BPM_ERR.DOUBLE_FREE -/
abbrev BPM_ERR_DOUBLE_FREE : Fld := ⟨.BPM_ERR, 0, 0, .w1c, .const 0⟩
/-- BPM_ERR_COUNT.DOUBLE -/
abbrev BPM_ERR_COUNT_DOUBLE : Fld := ⟨.BPM_ERR_COUNT, 63, 48, .rc, .const 0⟩
/-- BPM_ERR_COUNT.FOREIGN -/
abbrev BPM_ERR_COUNT_FOREIGN : Fld := ⟨.BPM_ERR_COUNT, 47, 32, .rc, .const 0⟩
/-- BPM_ERR_COUNT.BAD -/
abbrev BPM_ERR_COUNT_BAD : Fld := ⟨.BPM_ERR_COUNT, 31, 16, .rc, .const 0⟩
/-- BPM_ERR_COUNT.EXHAUSTED -/
abbrev BPM_ERR_COUNT_EXHAUSTED : Fld := ⟨.BPM_ERR_COUNT, 15, 0, .rc, .const 0⟩
/-- BPM_ERR_LAST.VALID -/
abbrev BPM_ERR_LAST_VALID : Fld := ⟨.BPM_ERR_LAST, 63, 63, .ro, .const 0⟩
/-- BPM_ERR_LAST.KIND -/
abbrev BPM_ERR_LAST_KIND : Fld := ⟨.BPM_ERR_LAST, 58, 56, .ro, .const 0⟩
/-- BPM_ERR_LAST.ACCOUNT -/
abbrev BPM_ERR_LAST_ACCOUNT : Fld := ⟨.BPM_ERR_LAST, 55, 51, .ro, .const 0⟩
/-- BPM_ERR_LAST.REQUESTER -/
abbrev BPM_ERR_LAST_REQUESTER : Fld := ⟨.BPM_ERR_LAST, 47, 40, .ro, .const 0⟩
/-- BPM_ERR_LAST.POINTER -/
abbrev BPM_ERR_LAST_POINTER : Fld := ⟨.BPM_ERR_LAST, 31, 0, .ro, .const 0⟩
/-- BPM_TAG_ECC.UNCORR -/
abbrev BPM_TAG_ECC_UNCORR : Fld := ⟨.BPM_TAG_ECC, 31, 16, .rc, .const 0⟩
/-- BPM_TAG_ECC.CORR -/
abbrev BPM_TAG_ECC_CORR : Fld := ⟨.BPM_TAG_ECC, 15, 0, .rc, .const 0⟩
/-- BPM_DROPS.COUNT -/
abbrev BPM_DROPS_COUNT : Fld := ⟨.BPM_DROPS, 31, 0, .rc, .const 0⟩
/-- INS_FENCE.PORTS -/
abbrev INS_FENCE_PORTS : Fld := ⟨.INS_FENCE, 63, 0, .rw, .nvm⟩
/-- INS_MC_STORES.COUNT -/
abbrev INS_MC_STORES_COUNT : Fld := ⟨.INS_MC_STORES, 63, 0, .rc, .const 0⟩
/-- INS_MC_ENQUEUES.COUNT -/
abbrev INS_MC_ENQUEUES_COUNT : Fld := ⟨.INS_MC_ENQUEUES, 63, 0, .rc, .const 0⟩
/-- INS_FENCE_GEN.GEN -/
abbrev INS_FENCE_GEN_GEN : Fld := ⟨.INS_FENCE_GEN, 31, 0, .ro, .const 0⟩
/-- INS_MC_FENCED_DROP.COUNT -/
abbrev INS_MC_FENCED_DROP_COUNT : Fld := ⟨.INS_MC_FENCED_DROP, 63, 0, .rc, .const 0⟩
/-- SCH_WIN.VALID -/
abbrev SCH_WIN_VALID : Fld := ⟨.SCH_WIN, 63, 63, .rwlWin, .const 0⟩
/-- SCH_WIN.DIR -/
abbrev SCH_WIN_DIR : Fld := ⟨.SCH_WIN, 62, 62, .rwlWin, .const 0⟩
/-- SCH_WIN.QSEL -/
abbrev SCH_WIN_QSEL : Fld := ⟨.SCH_WIN, 59, 56, .rwlWin, .const 0⟩
/-- SCH_WIN.START -/
abbrev SCH_WIN_START : Fld := ⟨.SCH_WIN, 47, 24, .rwlWin, .const 0⟩
/-- SCH_WIN.LENGTH -/
abbrev SCH_WIN_LENGTH : Fld := ⟨.SCH_WIN, 23, 0, .rwlWin, .const 0⟩
/-- SCH_PORT_CFG.DEG_GROUP -/
abbrev SCH_PORT_CFG_DEG_GROUP : Fld := ⟨.SCH_PORT_CFG, 31, 28, .rwl, .const 0⟩
/-- SCH_PORT_CFG.GROUP_BASE -/
abbrev SCH_PORT_CFG_GROUP_BASE : Fld := ⟨.SCH_PORT_CFG, 23, 16, .ro, .portIndex⟩
/-- SCH_PORT_CFG.LAND -/
abbrev SCH_PORT_CFG_LAND : Fld := ⟨.SCH_PORT_CFG, 15, 8, .rwl, .const 128⟩
/-- SCH_PORT_CFG.OPP_ONLY -/
abbrev SCH_PORT_CFG_OPP_ONLY : Fld := ⟨.SCH_PORT_CFG, 7, 7, .ro, .const 0⟩
/-- SCH_PORT_CFG.GUARD -/
abbrev SCH_PORT_CFG_GUARD : Fld := ⟨.SCH_PORT_CFG, 6, 0, .ro, .const 59⟩
/-- SCH_WIN_BASE.BANK -/
abbrev SCH_WIN_BASE_BANK : Fld := ⟨.SCH_WIN_BASE, 31, 30, .ro, .const 0⟩
/-- SCH_WIN_BASE.ADDR -/
abbrev SCH_WIN_BASE_ADDR : Fld := ⟨.SCH_WIN_BASE, 27, 0, .ro, .winAddr⟩
/-- SCH_GATE_HOLD.SCHED -/
abbrev SCH_GATE_HOLD_SCHED : Fld := ⟨.SCH_GATE_HOLD, 63, 32, .rc, .const 0⟩
/-- SCH_GATE_HOLD.OPP -/
abbrev SCH_GATE_HOLD_OPP : Fld := ⟨.SCH_GATE_HOLD, 31, 0, .rc, .const 0⟩
/-- SCH_WIN_IDLE.CYCLES -/
abbrev SCH_WIN_IDLE_CYCLES : Fld := ⟨.SCH_WIN_IDLE, 63, 0, .rc, .const 0⟩
/-- SCH_LAND.LATE -/
abbrev SCH_LAND_LATE : Fld := ⟨.SCH_LAND, 63, 32, .rc, .const 0⟩
/-- SCH_LAND.OFFWINDOW -/
abbrev SCH_LAND_OFFWINDOW : Fld := ⟨.SCH_LAND, 31, 0, .rc, .const 0⟩
/-- SCH_SENT.FRAMES -/
abbrev SCH_SENT_FRAMES : Fld := ⟨.SCH_SENT, 63, 0, .rc, .const 0⟩
/-- SCH_PERIOD.CYCLES -/
abbrev SCH_PERIOD_CYCLES : Fld := ⟨.SCH_PERIOD, 23, 0, .rwl, .const 0⟩
/-- SCH_GCFG.BUDGET -/
abbrev SCH_GCFG_BUDGET : Fld := ⟨.SCH_GCFG, 19, 16, .rwl, .const 14⟩
/-- SCH_GCFG.READ_LEAD -/
abbrev SCH_GCFG_READ_LEAD : Fld := ⟨.SCH_GCFG, 5, 0, .ro, .const 32⟩
/-- SCH_EPOCH.TIME -/
abbrev SCH_EPOCH_TIME : Fld := ⟨.SCH_EPOCH, 63, 0, .rwl, .const 0⟩
/-- SCH_ROUND.NUMBER -/
abbrev SCH_ROUND_NUMBER : Fld := ⟨.SCH_ROUND, 63, 0, .ro, .const 0⟩
/-- SCH_EXACT_LOSS.ROUND -/
abbrev SCH_EXACT_LOSS_ROUND : Fld := ⟨.SCH_EXACT_LOSS, 63, 32, .ro, .const 0⟩
/-- SCH_EXACT_LOSS.OPPSCHED -/
abbrev SCH_EXACT_LOSS_OPPSCHED : Fld := ⟨.SCH_EXACT_LOSS, 9, 9, .w1c, .const 0⟩
/-- SCH_EXACT_LOSS.RESEQ -/
abbrev SCH_EXACT_LOSS_RESEQ : Fld := ⟨.SCH_EXACT_LOSS, 8, 8, .w1c, .const 0⟩
/-- SCH_EXACT_LOSS.ECC -/
abbrev SCH_EXACT_LOSS_ECC : Fld := ⟨.SCH_EXACT_LOSS, 7, 7, .w1c, .const 0⟩
/-- SCH_EXACT_LOSS.EARLY -/
abbrev SCH_EXACT_LOSS_EARLY : Fld := ⟨.SCH_EXACT_LOSS, 6, 6, .w1c, .const 0⟩
/-- SCH_EXACT_LOSS.TABLE -/
abbrev SCH_EXACT_LOSS_TABLE : Fld := ⟨.SCH_EXACT_LOSS, 5, 5, .w1c, .const 0⟩
/-- SCH_EXACT_LOSS.FENCE -/
abbrev SCH_EXACT_LOSS_FENCE : Fld := ⟨.SCH_EXACT_LOSS, 4, 4, .w1c, .const 0⟩
/-- SCH_EXACT_LOSS.SPILL -/
abbrev SCH_EXACT_LOSS_SPILL : Fld := ⟨.SCH_EXACT_LOSS, 3, 3, .w1c, .const 0⟩
/-- SCH_EXACT_LOSS.CLUSTER -/
abbrev SCH_EXACT_LOSS_CLUSTER : Fld := ⟨.SCH_EXACT_LOSS, 2, 2, .w1c, .const 0⟩
/-- SCH_EXACT_LOSS.REPLAY -/
abbrev SCH_EXACT_LOSS_REPLAY : Fld := ⟨.SCH_EXACT_LOSS, 1, 1, .w1c, .const 0⟩
/-- SCH_EXACT_LOSS.LAND -/
abbrev SCH_EXACT_LOSS_LAND : Fld := ⟨.SCH_EXACT_LOSS, 0, 0, .w1c, .const 0⟩
/-- SCH_CHG.GO -/
abbrev SCH_CHG_GO : Fld := ⟨.SCH_CHG, 31, 31, .wo, .const 0⟩
/-- SCH_CHG.BANK -/
abbrev SCH_CHG_BANK : Fld := ⟨.SCH_CHG, 25, 24, .wo, .const 0⟩
/-- SCH_CHG.LASTS -/
abbrev SCH_CHG_LASTS : Fld := ⟨.SCH_CHG, 15, 0, .wo, .const 0⟩
/-- SCH_CHG_CFG.DRAIN_US -/
abbrev SCH_CHG_CFG_DRAIN_US : Fld := ⟨.SCH_CHG_CFG, 31, 0, .rw, .const 100000⟩
/-- SCH_CHG_STAT.HELD -/
abbrev SCH_CHG_STAT_HELD : Fld := ⟨.SCH_CHG_STAT, 63, 44, .ro, .const 0⟩
/-- SCH_CHG_STAT.REFUSED -/
abbrev SCH_CHG_STAT_REFUSED : Fld := ⟨.SCH_CHG_STAT, 31, 16, .rc, .const 0⟩
/-- SCH_CHG_STAT.BANK -/
abbrev SCH_CHG_STAT_BANK : Fld := ⟨.SCH_CHG_STAT, 5, 4, .ro, .const 0⟩
/-- SCH_CHG_STAT.STATE -/
abbrev SCH_CHG_STAT_STATE : Fld := ⟨.SCH_CHG_STAT, 2, 0, .ro, .const 0⟩
/-- SCH_CHG_PORTS.PORTS -/
abbrev SCH_CHG_PORTS_PORTS : Fld := ⟨.SCH_CHG_PORTS, 63, 0, .rw, .const 0⟩
/-- SCH_DEG_STAT.SWITCHES -/
abbrev SCH_DEG_STAT_SWITCHES : Fld := ⟨.SCH_DEG_STAT, 31, 16, .rc, .const 0⟩
/-- SCH_DEG_STAT.GROUP -/
abbrev SCH_DEG_STAT_GROUP : Fld := ⟨.SCH_DEG_STAT, 3, 0, .ro, .const 0⟩
/-- SCH_MATCH_STAT.MATCHES -/
abbrev SCH_MATCH_STAT_MATCHES : Fld := ⟨.SCH_MATCH_STAT, 63, 32, .rc, .const 0⟩
/-- SCH_MATCH_STAT.UNMATCHED -/
abbrev SCH_MATCH_STAT_UNMATCHED : Fld := ⟨.SCH_MATCH_STAT, 31, 0, .rc, .const 0⟩
/-- SCH_SLIPS.LONG -/
abbrev SCH_SLIPS_LONG : Fld := ⟨.SCH_SLIPS, 31, 16, .rc, .const 0⟩
/-- SCH_SLIPS.SHORT -/
abbrev SCH_SLIPS_SHORT : Fld := ⟨.SCH_SLIPS, 15, 0, .rc, .const 0⟩
/-- SCH_RESEQ_STAT.FAR -/
abbrev SCH_RESEQ_STAT_FAR : Fld := ⟨.SCH_RESEQ_STAT, 63, 48, .rc, .const 0⟩
/-- SCH_RESEQ_STAT.BYPASS -/
abbrev SCH_RESEQ_STAT_BYPASS : Fld := ⟨.SCH_RESEQ_STAT, 47, 32, .rc, .const 0⟩
/-- SCH_RESEQ_STAT.STREAMS -/
abbrev SCH_RESEQ_STAT_STREAMS : Fld := ⟨.SCH_RESEQ_STAT, 31, 20, .ro, .const 0⟩
/-- SCH_RESEQ_STAT.HELD -/
abbrev SCH_RESEQ_STAT_HELD : Fld := ⟨.SCH_RESEQ_STAT, 19, 0, .ro, .const 0⟩
/-- SHP_SHAPE_CFG.BURST -/
abbrev SHP_SHAPE_CFG_BURST : Fld := ⟨.SHP_SHAPE_CFG, 63, 40, .rw, .const 16384⟩
/-- SHP_SHAPE_CFG.CHG -/
abbrev SHP_SHAPE_CFG_CHG : Fld := ⟨.SHP_SHAPE_CFG, 39, 38, .rw, .const 0⟩
/-- SHP_SHAPE_CFG.ENABLE -/
abbrev SHP_SHAPE_CFG_ENABLE : Fld := ⟨.SHP_SHAPE_CFG, 37, 37, .rw, .const 0⟩
/-- SHP_SHAPE_CFG.OVERHEAD -/
abbrev SHP_SHAPE_CFG_OVERHEAD : Fld := ⟨.SHP_SHAPE_CFG, 31, 24, .rw, .const 0⟩
/-- SHP_SHAPE_CFG.RATE -/
abbrev SHP_SHAPE_CFG_RATE : Fld := ⟨.SHP_SHAPE_CFG, 23, 0, .rw, .const 2560000⟩
/-- SHP_SHAPE_STATE.PENDING -/
abbrev SHP_SHAPE_STATE_PENDING : Fld := ⟨.SHP_SHAPE_STATE, 40, 40, .ro, .const 0⟩
/-- SHP_SHAPE_STATE.TOKENS -/
abbrev SHP_SHAPE_STATE_TOKENS : Fld := ⟨.SHP_SHAPE_STATE, 39, 0, .ro, .const 4194304⟩
/-- SHP_SHAPE_STAT.RELEASED -/
abbrev SHP_SHAPE_STAT_RELEASED : Fld := ⟨.SHP_SHAPE_STAT, 63, 32, .rc, .const 0⟩
/-- SHP_SHAPE_STAT.HELD -/
abbrev SHP_SHAPE_STAT_HELD : Fld := ⟨.SHP_SHAPE_STAT, 31, 0, .rc, .const 0⟩
/-- SHP_POL_CFG.BURST -/
abbrev SHP_POL_CFG_BURST : Fld := ⟨.SHP_POL_CFG, 63, 40, .rw, .const 16384⟩
/-- SHP_POL_CFG.CHG -/
abbrev SHP_POL_CFG_CHG : Fld := ⟨.SHP_POL_CFG, 39, 38, .rw, .const 0⟩
/-- SHP_POL_CFG.ACTION -/
abbrev SHP_POL_CFG_ACTION : Fld := ⟨.SHP_POL_CFG, 37, 36, .rw, .const 0⟩
/-- SHP_POL_CFG.OVERHEAD -/
abbrev SHP_POL_CFG_OVERHEAD : Fld := ⟨.SHP_POL_CFG, 31, 24, .rw, .const 0⟩
/-- SHP_POL_CFG.RATE -/
abbrev SHP_POL_CFG_RATE : Fld := ⟨.SHP_POL_CFG, 23, 0, .rw, .const 2560000⟩
/-- SHP_POL_STATE.PENDING -/
abbrev SHP_POL_STATE_PENDING : Fld := ⟨.SHP_POL_STATE, 40, 40, .ro, .const 0⟩
/-- SHP_POL_STATE.TOKENS -/
abbrev SHP_POL_STATE_TOKENS : Fld := ⟨.SHP_POL_STATE, 39, 0, .ro, .const 4194304⟩
/-- SHP_POL_STAT.CONFORM -/
abbrev SHP_POL_STAT_CONFORM : Fld := ⟨.SHP_POL_STAT, 63, 32, .rc, .const 0⟩
/-- SHP_POL_STAT.EXCEED -/
abbrev SHP_POL_STAT_EXCEED : Fld := ⟨.SHP_POL_STAT, 31, 0, .rc, .const 0⟩
/-- SHP_MIR_CFG.ENABLE -/
abbrev SHP_MIR_CFG_ENABLE : Fld := ⟨.SHP_MIR_CFG, 63, 63, .rw, .const 0⟩
/-- SHP_MIR_CFG.SRC -/
abbrev SHP_MIR_CFG_SRC : Fld := ⟨.SHP_MIR_CFG, 62, 61, .rw, .const 0⟩
/-- SHP_MIR_CFG.DIR -/
abbrev SHP_MIR_CFG_DIR : Fld := ⟨.SHP_MIR_CFG, 60, 59, .rw, .const 0⟩
/-- SHP_MIR_CFG.TRUNC -/
abbrev SHP_MIR_CFG_TRUNC : Fld := ⟨.SHP_MIR_CFG, 58, 58, .rw, .const 0⟩
/-- SHP_MIR_CFG.VC -/
abbrev SHP_MIR_CFG_VC : Fld := ⟨.SHP_MIR_CFG, 57, 55, .rw, .const 6⟩
/-- SHP_MIR_CFG.MAX_PENDING -/
abbrev SHP_MIR_CFG_MAX_PENDING : Fld := ⟨.SHP_MIR_CFG, 54, 44, .rw, .const 256⟩
/-- SHP_MIR_CFG.ANALYSIS -/
abbrev SHP_MIR_CFG_ANALYSIS : Fld := ⟨.SHP_MIR_CFG, 43, 36, .rw, .const 0⟩
/-- SHP_MIR_CFG.SELECT -/
abbrev SHP_MIR_CFG_SELECT : Fld := ⟨.SHP_MIR_CFG, 15, 0, .rw, .const 0⟩
/-- SHP_MIR_STAT.TAKEN -/
abbrev SHP_MIR_STAT_TAKEN : Fld := ⟨.SHP_MIR_STAT, 63, 32, .rc, .const 0⟩
/-- SHP_MIR_STAT.SENT -/
abbrev SHP_MIR_STAT_SENT : Fld := ⟨.SHP_MIR_STAT, 31, 0, .rc, .const 0⟩
/-- SHP_MIR_DROP.FULL -/
abbrev SHP_MIR_DROP_FULL : Fld := ⟨.SHP_MIR_DROP, 63, 48, .rc, .const 0⟩
/-- SHP_MIR_DROP.BUF -/
abbrev SHP_MIR_DROP_BUF : Fld := ⟨.SHP_MIR_DROP, 47, 32, .rc, .const 0⟩
/-- SHP_MIR_DROP.FENCED -/
abbrev SHP_MIR_DROP_FENCED : Fld := ⟨.SHP_MIR_DROP, 31, 16, .rc, .const 0⟩
/-- SHP_MIR_DROP.REFS -/
abbrev SHP_MIR_DROP_REFS : Fld := ⟨.SHP_MIR_DROP, 15, 0, .rc, .const 0⟩
/-- SHP_MIR_PEND.PENDING -/
abbrev SHP_MIR_PEND_PENDING : Fld := ⟨.SHP_MIR_PEND, 10, 0, .ro, .const 0⟩
/-- NUM_CFG.SHADOW_OFF -/
abbrev NUM_CFG_SHADOW_OFF : Fld := ⟨.NUM_CFG, 16, 16, .rwl, .const 0⟩
/-- NUM_CFG.DECAY -/
abbrev NUM_CFG_DECAY : Fld := ⟨.NUM_CFG, 11, 10, .rwl, .const 0⟩
/-- NUM_CFG.ROUND -/
abbrev NUM_CFG_ROUND : Fld := ⟨.NUM_CFG, 0, 0, .rwl, .const 0⟩
/-- NUM_WARM.CHUNKS -/
abbrev NUM_WARM_CHUNKS : Fld := ⟨.NUM_WARM, 31, 0, .ro, .const 0⟩
/-- NUM_SEED.SEED -/
abbrev NUM_SEED_SEED : Fld := ⟨.NUM_SEED, 63, 0, .rwl, .const 0⟩
/-- NUM_STATE_BASE.LARGE -/
abbrev NUM_STATE_BASE_LARGE : Fld := ⟨.NUM_STATE_BASE, 63, 63, .ro, .const 0⟩
/-- NUM_STATE_BASE.ADDR -/
abbrev NUM_STATE_BASE_ADDR : Fld := ⟨.NUM_STATE_BASE, 35, 0, .ro, .const 0⟩
/-- NUM_OPSEQ.OPNUM -/
abbrev NUM_OPSEQ_OPNUM : Fld := ⟨.NUM_OPSEQ, 31, 0, .ro, .const 0⟩
/-- NUM_SAT.COUNT -/
abbrev NUM_SAT_COUNT : Fld := ⟨.NUM_SAT, 31, 0, .rc, .const 0⟩
/-- NUM_NONFIN_IN.COUNT -/
abbrev NUM_NONFIN_IN_COUNT : Fld := ⟨.NUM_NONFIN_IN, 31, 0, .rc, .const 0⟩
/-- NUM_NONFIN_GEN.COUNT -/
abbrev NUM_NONFIN_GEN_COUNT : Fld := ⟨.NUM_NONFIN_GEN, 31, 0, .rc, .const 0⟩
/-- NUM_UNDERFLOW.COUNT -/
abbrev NUM_UNDERFLOW_COUNT : Fld := ⟨.NUM_UNDERFLOW, 31, 0, .rc, .const 0⟩
/-- NUM_ZR.COUNT -/
abbrev NUM_ZR_COUNT : Fld := ⟨.NUM_ZR, 31, 0, .rc, .const 0⟩
/-- NUM_SHADOW.SAMPLES -/
abbrev NUM_SHADOW_SAMPLES : Fld := ⟨.NUM_SHADOW, 63, 48, .rc, .const 0⟩
/-- NUM_SHADOW.AGREE -/
abbrev NUM_SHADOW_AGREE : Fld := ⟨.NUM_SHADOW, 47, 32, .rc, .const 0⟩
/-- NUM_SHADOW.WITHIN -/
abbrev NUM_SHADOW_WITHIN : Fld := ⟨.NUM_SHADOW, 31, 16, .rc, .const 0⟩
/-- NUM_SHADOW.BEYOND -/
abbrev NUM_SHADOW_BEYOND : Fld := ⟨.NUM_SHADOW, 15, 0, .rc, .const 0⟩
/-- NUM_SHADOW_MAX.MAX -/
abbrev NUM_SHADOW_MAX_MAX : Fld := ⟨.NUM_SHADOW_MAX, 31, 0, .rc, .const 0⟩
/-- NUM_GCFG.SHADOW_LIMIT -/
abbrev NUM_GCFG_SHADOW_LIMIT : Fld := ⟨.NUM_GCFG, 31, 16, .rw, .const 0⟩
/-- NUM_GCFG.SHADOW_TOL -/
abbrev NUM_GCFG_SHADOW_TOL : Fld := ⟨.NUM_GCFG, 15, 8, .rw, .const 2⟩
/-- NUM_GCFG.SHADOW_LOG2 -/
abbrev NUM_GCFG_SHADOW_LOG2 : Fld := ⟨.NUM_GCFG, 4, 0, .rw, .const 12⟩
/-- NUM_ZR_LIMIT.LIMIT -/
abbrev NUM_ZR_LIMIT_LIMIT : Fld := ⟨.NUM_ZR_LIMIT, 15, 0, .rw, .const 256⟩
/-- NUM_WARM_CFG.W_WARM -/
abbrev NUM_WARM_CFG_W_WARM : Fld := ⟨.NUM_WARM_CFG, 7, 0, .rw, .const 16⟩
/-- NUM_ZR_LAST.CONTEXT -/
abbrev NUM_ZR_LAST_CONTEXT : Fld := ⟨.NUM_ZR_LAST, 63, 48, .ro, .const 0⟩
/-- NUM_ZR_LAST.CHUNK -/
abbrev NUM_ZR_LAST_CHUNK : Fld := ⟨.NUM_ZR_LAST, 47, 16, .ro, .const 0⟩
/-- NUM_ZR_LAST.VALID -/
abbrev NUM_ZR_LAST_VALID : Fld := ⟨.NUM_ZR_LAST, 0, 0, .ro, .const 0⟩
/-- NUM_SHADOW_LAST.CONTEXT -/
abbrev NUM_SHADOW_LAST_CONTEXT : Fld := ⟨.NUM_SHADOW_LAST, 63, 48, .ro, .const 0⟩
/-- NUM_SHADOW_LAST.CHUNK -/
abbrev NUM_SHADOW_LAST_CHUNK : Fld := ⟨.NUM_SHADOW_LAST, 47, 16, .ro, .const 0⟩
/-- NUM_SHADOW_LAST.ELEMENTS -/
abbrev NUM_SHADOW_LAST_ELEMENTS : Fld := ⟨.NUM_SHADOW_LAST, 15, 0, .ro, .const 0⟩
/-- NUM_MON_STAT.DONE -/
abbrev NUM_MON_STAT_DONE : Fld := ⟨.NUM_MON_STAT, 63, 32, .rc, .const 0⟩
/-- NUM_MON_STAT.SKIPPED -/
abbrev NUM_MON_STAT_SKIPPED : Fld := ⟨.NUM_MON_STAT, 31, 0, .rc, .const 0⟩
/-- NUM_STATE_LOST.COUNT -/
abbrev NUM_STATE_LOST_COUNT : Fld := ⟨.NUM_STATE_LOST, 31, 0, .rc, .const 0⟩
/-- CKP_LAST_CFG.FULL_NEXT -/
abbrev CKP_LAST_CFG_FULL_NEXT : Fld := ⟨.CKP_LAST_CFG, 0, 0, .rw, .const 0⟩
/-- CKP_LAST_STAT.HELD -/
abbrev CKP_LAST_STAT_HELD : Fld := ⟨.CKP_LAST_STAT, 31, 16, .ro, .const 0⟩
/-- CKP_LAST_STAT.STATE -/
abbrev CKP_LAST_STAT_STATE : Fld := ⟨.CKP_LAST_STAT, 2, 0, .ro, .const 0⟩
/-- CKP_EPOCH.SECURED -/
abbrev CKP_EPOCH_SECURED : Fld := ⟨.CKP_EPOCH, 63, 32, .ro, .const 4294967295⟩
/-- CKP_EPOCH.DONE -/
abbrev CKP_EPOCH_DONE : Fld := ⟨.CKP_EPOCH, 31, 0, .ro, .const 4294967295⟩
/-- CKP_FULL.EPOCH -/
abbrev CKP_FULL_EPOCH : Fld := ⟨.CKP_FULL, 31, 0, .ro, .const 4294967295⟩
/-- CKP_GROUP.VALID -/
abbrev CKP_GROUP_VALID : Fld := ⟨.CKP_GROUP, 63, 63, .rwl, .const 0⟩
/-- CKP_GROUP.M -/
abbrev CKP_GROUP_M : Fld := ⟨.CKP_GROUP, 62, 60, .rwl, .const 2⟩
/-- CKP_GROUP.BASE -/
abbrev CKP_GROUP_BASE : Fld := ⟨.CKP_GROUP, 55, 48, .rwl, .const 0⟩
/-- CKP_GROUP.SIZE -/
abbrev CKP_GROUP_SIZE : Fld := ⟨.CKP_GROUP, 47, 40, .rwl, .const 0⟩
/-- CKP_GROUP.EPOCH_CTX -/
abbrev CKP_GROUP_EPOCH_CTX : Fld := ⟨.CKP_GROUP, 31, 16, .rwl, .const 0⟩
/-- CKP_GROUP.REGROW_CTX -/
abbrev CKP_GROUP_REGROW_CTX : Fld := ⟨.CKP_GROUP, 15, 0, .rwl, .const 0⟩
/-- CKP_GROUP_SHARD.PARITY_OFF -/
abbrev CKP_GROUP_SHARD_PARITY_OFF : Fld := ⟨.CKP_GROUP_SHARD, 63, 32, .rwl, .const 0⟩
/-- CKP_GROUP_SHARD.CHUNKS -/
abbrev CKP_GROUP_SHARD_CHUNKS : Fld := ⟨.CKP_GROUP_SHARD, 31, 0, .rwl, .const 0⟩
/-- CKP_GROUP_STAT.LOST_POS -/
abbrev CKP_GROUP_STAT_LOST_POS : Fld := ⟨.CKP_GROUP_STAT, 63, 32, .ro, .const 0⟩
/-- CKP_GROUP_STAT.LOST -/
abbrev CKP_GROUP_STAT_LOST : Fld := ⟨.CKP_GROUP_STAT, 23, 16, .ro, .const 0⟩
/-- CKP_GROUP_STAT.EXPOSED -/
abbrev CKP_GROUP_STAT_EXPOSED : Fld := ⟨.CKP_GROUP_STAT, 3, 3, .ro, .const 0⟩
/-- CKP_GROUP_STAT.STATE -/
abbrev CKP_GROUP_STAT_STATE : Fld := ⟨.CKP_GROUP_STAT, 2, 0, .ro, .const 0⟩
/-- CKP_CFG.HOLDER_FEED -/
abbrev CKP_CFG_HOLDER_FEED : Fld := ⟨.CKP_CFG, 63, 56, .rwl, .nvm⟩
/-- CKP_CFG.HOLDER_EN -/
abbrev CKP_CFG_HOLDER_EN : Fld := ⟨.CKP_CFG, 55, 55, .rwl, .nvm⟩
/-- CKP_CFG.DRAIN_SHARE -/
abbrev CKP_CFG_DRAIN_SHARE : Fld := ⟨.CKP_CFG, 51, 48, .rw, .const 12⟩
/-- CKP_CFG.GRACE_MS -/
abbrev CKP_CFG_GRACE_MS : Fld := ⟨.CKP_CFG, 47, 32, .rw, .const 2000⟩
/-- CKP_CFG.CUT_MS -/
abbrev CKP_CFG_CUT_MS : Fld := ⟨.CKP_CFG, 31, 16, .rw, .const 500⟩
/-- CKP_REGION.GRANULES -/
abbrev CKP_REGION_GRANULES : Fld := ⟨.CKP_REGION, 63, 40, .ro, .nvm⟩
/-- CKP_REGION.IMAGE_GRANULES -/
abbrev CKP_REGION_IMAGE_GRANULES : Fld := ⟨.CKP_REGION, 35, 16, .ro, .nvm⟩
/-- CKP_REGION.BASE -/
abbrev CKP_REGION_BASE : Fld := ⟨.CKP_REGION, 15, 0, .ro, .nvm⟩
/-- CKP_TIER.GIB -/
abbrev CKP_TIER_GIB : Fld := ⟨.CKP_TIER, 63, 52, .ro, .nvm⟩
/-- CKP_TIER.BASE -/
abbrev CKP_TIER_BASE : Fld := ⟨.CKP_TIER, 40, 0, .ro, .nvm⟩
/-- CKP_CAD.COST_MS -/
abbrev CKP_CAD_COST_MS : Fld := ⟨.CKP_CAD, 63, 48, .rw, .const 2000⟩
/-- CKP_CAD.T_MIN_S -/
abbrev CKP_CAD_T_MIN_S : Fld := ⟨.CKP_CAD, 47, 32, .rw, .const 60⟩
/-- CKP_CAD.T_MAX_S -/
abbrev CKP_CAD_T_MAX_S : Fld := ⟨.CKP_CAD, 31, 8, .rw, .const 86400⟩
/-- CKP_CAD.FULL_EVERY -/
abbrev CKP_CAD_FULL_EVERY : Fld := ⟨.CKP_CAD, 7, 0, .rw, .const 8⟩
/-- CKP_CAD_PRIOR.PRIOR_MH -/
abbrev CKP_CAD_PRIOR_PRIOR_MH : Fld := ⟨.CKP_CAD_PRIOR, 31, 0, .rw, .const 50000⟩
/-- CKP_CAD_OBS.FAILURES -/
abbrev CKP_CAD_OBS_FAILURES : Fld := ⟨.CKP_CAD_OBS, 63, 48, .rw, .const 0⟩
/-- CKP_CAD_OBS.MEMBER_S -/
abbrev CKP_CAD_OBS_MEMBER_S : Fld := ⟨.CKP_CAD_OBS, 47, 0, .rw, .const 0⟩
/-- CKP_CAD_STAT.BASE_S -/
abbrev CKP_CAD_STAT_BASE_S : Fld := ⟨.CKP_CAD_STAT, 63, 32, .ro, .const 0⟩
/-- CKP_CAD_STAT.INTERVAL_S -/
abbrev CKP_CAD_STAT_INTERVAL_S : Fld := ⟨.CKP_CAD_STAT, 31, 0, .ro, .const 86400⟩
/-- CKP_LICHEN_W.ALERT -/
abbrev CKP_LICHEN_W_ALERT : Fld := ⟨.CKP_LICHEN_W, 63, 56, .rw, .const 32⟩
/-- CKP_LICHEN_W.W_RESIDUE -/
abbrev CKP_LICHEN_W_W_RESIDUE : Fld := ⟨.CKP_LICHEN_W, 39, 32, .rw, .const 16⟩
/-- CKP_LICHEN_W.W_ECC -/
abbrev CKP_LICHEN_W_W_ECC : Fld := ⟨.CKP_LICHEN_W, 31, 24, .rw, .const 8⟩
/-- CKP_LICHEN_W.W_TEMP -/
abbrev CKP_LICHEN_W_W_TEMP : Fld := ⟨.CKP_LICHEN_W, 23, 16, .rw, .const 8⟩
/-- CKP_LICHEN_W.W_BIAS -/
abbrev CKP_LICHEN_W_W_BIAS : Fld := ⟨.CKP_LICHEN_W, 15, 8, .rw, .const 8⟩
/-- CKP_LICHEN_W.W_FEC -/
abbrev CKP_LICHEN_W_W_FEC : Fld := ⟨.CKP_LICHEN_W, 7, 0, .rw, .const 16⟩
/-- CKP_LICHEN_THR.HI -/
abbrev CKP_LICHEN_THR_HI : Fld := ⟨.CKP_LICHEN_THR, 31, 16, .rw, .lichenHi⟩
/-- CKP_LICHEN_THR.LO -/
abbrev CKP_LICHEN_THR_LO : Fld := ⟨.CKP_LICHEN_THR, 15, 0, .rw, .lichenLo⟩
/-- CKP_LICHEN.RISK -/
abbrev CKP_LICHEN_RISK : Fld := ⟨.CKP_LICHEN, 63, 48, .ro, .const 0⟩
/-- CKP_LICHEN.S_RESIDUE -/
abbrev CKP_LICHEN_S_RESIDUE : Fld := ⟨.CKP_LICHEN, 47, 40, .ro, .const 0⟩
/-- CKP_LICHEN.S_ECC -/
abbrev CKP_LICHEN_S_ECC : Fld := ⟨.CKP_LICHEN, 39, 32, .ro, .const 0⟩
/-- CKP_LICHEN.S_TEMP -/
abbrev CKP_LICHEN_S_TEMP : Fld := ⟨.CKP_LICHEN, 31, 24, .ro, .const 0⟩
/-- CKP_LICHEN.S_BIAS -/
abbrev CKP_LICHEN_S_BIAS : Fld := ⟨.CKP_LICHEN, 23, 16, .ro, .const 0⟩
/-- CKP_LICHEN.S_FEC -/
abbrev CKP_LICHEN_S_FEC : Fld := ⟨.CKP_LICHEN, 15, 8, .ro, .const 0⟩
/-- CKP_DRAIN.ERRORS -/
abbrev CKP_DRAIN_ERRORS : Fld := ⟨.CKP_DRAIN, 63, 48, .rc, .const 0⟩
/-- CKP_DRAIN.BYTES_LEFT -/
abbrev CKP_DRAIN_BYTES_LEFT : Fld := ⟨.CKP_DRAIN, 47, 0, .ro, .const 0⟩
/-- CKP_IMAGE.EPOCH -/
abbrev CKP_IMAGE_EPOCH : Fld := ⟨.CKP_IMAGE, 63, 32, .ro, .const 4294967295⟩
/-- CKP_IMAGE.STATUS -/
abbrev CKP_IMAGE_STATUS : Fld := ⟨.CKP_IMAGE, 3, 0, .ro, .const 0⟩
/-- CKP_EVENTS.EPOCHS -/
abbrev CKP_EVENTS_EPOCHS : Fld := ⟨.CKP_EVENTS, 63, 48, .rc, .const 0⟩
/-- CKP_EVENTS.ABORTED -/
abbrev CKP_EVENTS_ABORTED : Fld := ⟨.CKP_EVENTS, 47, 32, .rc, .const 0⟩
/-- CKP_EVENTS.REGROWTHS -/
abbrev CKP_EVENTS_REGROWTHS : Fld := ⟨.CKP_EVENTS, 31, 16, .rc, .const 0⟩
/-- CKP_EVENTS.FALLBACKS -/
abbrev CKP_EVENTS_FALLBACKS : Fld := ⟨.CKP_EVENTS, 15, 0, .rc, .const 0⟩
/-- MEM_CH_STAT.RETRIES -/
abbrev MEM_CH_STAT_RETRIES : Fld := ⟨.MEM_CH_STAT, 31, 16, .rc, .const 0⟩
/-- MEM_CH_STAT.STATE -/
abbrev MEM_CH_STAT_STATE : Fld := ⟨.MEM_CH_STAT, 2, 0, .ro, .const 0⟩
/-- MEM_CH_ECC.UNCORR -/
abbrev MEM_CH_ECC_UNCORR : Fld := ⟨.MEM_CH_ECC, 63, 32, .rc, .const 0⟩
/-- MEM_CH_ECC.CORR -/
abbrev MEM_CH_ECC_CORR : Fld := ⟨.MEM_CH_ECC, 31, 0, .rc, .const 0⟩
/-- MEM_CH_ECC_LAST.VALID -/
abbrev MEM_CH_ECC_LAST_VALID : Fld := ⟨.MEM_CH_ECC_LAST, 63, 63, .ro, .const 0⟩
/-- MEM_CH_ECC_LAST.ADDR -/
abbrev MEM_CH_ECC_LAST_ADDR : Fld := ⟨.MEM_CH_ECC_LAST, 35, 0, .ro, .const 0⟩
/-- MEM_CH_BYTES.BYTES -/
abbrev MEM_CH_BYTES_BYTES : Fld := ⟨.MEM_CH_BYTES, 63, 0, .rc, .const 0⟩
/-- MEM_GDDR_SIZE.N_MIN -/
abbrev MEM_GDDR_SIZE_N_MIN : Fld := ⟨.MEM_GDDR_SIZE, 39, 36, .ro, .nvm⟩
/-- MEM_GDDR_SIZE.BYTES -/
abbrev MEM_GDDR_SIZE_BYTES : Fld := ⟨.MEM_GDDR_SIZE, 35, 0, .ro, .nvm⟩
/-- MEM_GMAP_FW.GRANULES -/
abbrev MEM_GMAP_FW_GRANULES : Fld := ⟨.MEM_GMAP_FW, 63, 40, .ro, .nvm⟩
/-- MEM_GMAP_FW.BASE -/
abbrev MEM_GMAP_FW_BASE : Fld := ⟨.MEM_GMAP_FW, 35, 0, .ro, .nvm⟩
/-- MEM_GMAP_NUM.GRANULES -/
abbrev MEM_GMAP_NUM_GRANULES : Fld := ⟨.MEM_GMAP_NUM, 63, 40, .ro, .nvm⟩
/-- MEM_GMAP_NUM.BASE -/
abbrev MEM_GMAP_NUM_BASE : Fld := ⟨.MEM_GMAP_NUM, 35, 0, .ro, .nvm⟩
/-- MEM_CXL_STAT.DOWNS -/
abbrev MEM_CXL_STAT_DOWNS : Fld := ⟨.MEM_CXL_STAT, 63, 48, .rc, .const 0⟩
/-- MEM_CXL_STAT.UP -/
abbrev MEM_CXL_STAT_UP : Fld := ⟨.MEM_CXL_STAT, 8, 8, .ro, .const 0⟩
/-- MEM_CXL_STAT.SPEED -/
abbrev MEM_CXL_STAT_SPEED : Fld := ⟨.MEM_CXL_STAT, 7, 4, .ro, .const 0⟩
/-- MEM_CXL_STAT.WIDTH -/
abbrev MEM_CXL_STAT_WIDTH : Fld := ⟨.MEM_CXL_STAT, 3, 0, .ro, .const 0⟩
/-- MEM_CXL_CAP.GIB -/
abbrev MEM_CXL_CAP_GIB : Fld := ⟨.MEM_CXL_CAP, 11, 0, .ro, .const 0⟩
/-- MEM_CXL_ERR.POISON -/
abbrev MEM_CXL_ERR_POISON : Fld := ⟨.MEM_CXL_ERR, 63, 32, .rc, .const 0⟩
/-- MEM_CXL_ERR.WRITE_FAIL -/
abbrev MEM_CXL_ERR_WRITE_FAIL : Fld := ⟨.MEM_CXL_ERR, 31, 0, .rc, .const 0⟩
/-- HST_MBX_ARG.ARG -/
abbrev HST_MBX_ARG_ARG : Fld := ⟨.HST_MBX_ARG, 63, 0, .rw, .const 0⟩
/-- HST_MBX_CMD.GO -/
abbrev HST_MBX_CMD_GO : Fld := ⟨.HST_MBX_CMD, 63, 63, .wo, .const 0⟩
/-- HST_MBX_CMD.IRQ -/
abbrev HST_MBX_CMD_IRQ : Fld := ⟨.HST_MBX_CMD, 62, 62, .wo, .const 0⟩
/-- HST_MBX_CMD.SLOT -/
abbrev HST_MBX_CMD_SLOT : Fld := ⟨.HST_MBX_CMD, 50, 48, .wo, .const 0⟩
/-- HST_MBX_CMD.TAG -/
abbrev HST_MBX_CMD_TAG : Fld := ⟨.HST_MBX_CMD, 47, 40, .wo, .const 0⟩
/-- HST_MBX_CMD.OPCODE -/
abbrev HST_MBX_CMD_OPCODE : Fld := ⟨.HST_MBX_CMD, 39, 32, .wo, .const 0⟩
/-- HST_MBX_CMD.FLAGS -/
abbrev HST_MBX_CMD_FLAGS : Fld := ⟨.HST_MBX_CMD, 31, 0, .wo, .const 0⟩
/-- HST_MBX_RESP.BUSY -/
abbrev HST_MBX_RESP_BUSY : Fld := ⟨.HST_MBX_RESP, 62, 62, .ro, .const 0⟩
/-- HST_MBX_RESP.TAG -/
abbrev HST_MBX_RESP_TAG : Fld := ⟨.HST_MBX_RESP, 47, 40, .ro, .const 0⟩
/-- HST_MBX_RESP.OPCODE -/
abbrev HST_MBX_RESP_OPCODE : Fld := ⟨.HST_MBX_RESP, 39, 32, .ro, .const 0⟩
/-- HST_MBX_RESP.CODE -/
abbrev HST_MBX_RESP_CODE : Fld := ⟨.HST_MBX_RESP, 7, 0, .ro, .const 0⟩
/-- HST_OP.WORD -/
abbrev HST_OP_WORD : Fld := ⟨.HST_OP, 63, 0, .ro, .const 0⟩
/-- HST_OP_DETAIL.DETAIL -/
abbrev HST_OP_DETAIL_DETAIL : Fld := ⟨.HST_OP_DETAIL, 63, 0, .ro, .const 0⟩
/-- HST_LINK_STAT.DOWNS -/
abbrev HST_LINK_STAT_DOWNS : Fld := ⟨.HST_LINK_STAT, 63, 48, .rc, .const 0⟩
/-- HST_LINK_STAT.UP -/
abbrev HST_LINK_STAT_UP : Fld := ⟨.HST_LINK_STAT, 8, 8, .ro, .const 0⟩
/-- HST_LINK_STAT.SPEED -/
abbrev HST_LINK_STAT_SPEED : Fld := ⟨.HST_LINK_STAT, 7, 4, .ro, .const 0⟩
/-- HST_LINK_STAT.WIDTH -/
abbrev HST_LINK_STAT_WIDTH : Fld := ⟨.HST_LINK_STAT, 3, 0, .ro, .const 0⟩
/-- HST_ERR.DMA_ERR -/
abbrev HST_ERR_DMA_ERR : Fld := ⟨.HST_ERR, 2, 2, .w1c, .const 0⟩
/-- HST_ERR.CMD_DISCARD -/
abbrev HST_ERR_CMD_DISCARD : Fld := ⟨.HST_ERR, 1, 1, .w1c, .const 0⟩
/-- HST_ERR.RING_TIMEOUT -/
abbrev HST_ERR_RING_TIMEOUT : Fld := ⟨.HST_ERR, 0, 0, .w1c, .const 0⟩
/-- HST_ERR_ADDR.WRITE -/
abbrev HST_ERR_ADDR_WRITE : Fld := ⟨.HST_ERR_ADDR, 63, 63, .ro, .const 0⟩
/-- HST_ERR_ADDR.OFFSET -/
abbrev HST_ERR_ADDR_OFFSET : Fld := ⟨.HST_ERR_ADDR, 27, 0, .ro, .const 0⟩
/-- MSIX_ADDR.ADDR -/
abbrev MSIX_ADDR_ADDR : Fld := ⟨.MSIX_ADDR, 63, 0, .rw, .const 0⟩
/-- MSIX_DATA.DATA -/
abbrev MSIX_DATA_DATA : Fld := ⟨.MSIX_DATA, 31, 0, .rw, .const 0⟩
/-- MSIX_CTRL.MASK -/
abbrev MSIX_CTRL_MASK : Fld := ⟨.MSIX_CTRL, 0, 0, .rw, .const 1⟩
/-- MSIX_PBA.PENDING -/
abbrev MSIX_PBA_PENDING : Fld := ⟨.MSIX_PBA, 4, 0, .ro, .const 0⟩

end Sys2Proof.Machine.F

namespace Sys2Proof.Machine

/-- R13: the named fields of each register, most significant first; bits in no field are reserved (R15). -/
def Reg.fields : Reg → List Fld
  | .GLB_DEV_ID => [F.GLB_DEV_ID_FAMILY, F.GLB_DEV_ID_DEVICE, F.GLB_DEV_ID_STEPPING]
  | .GLB_ROLE => [F.GLB_ROLE_ROLE]
  | .GLB_DUM_GEN => [F.GLB_DUM_GEN_GEN]
  | .GLB_DUM_SUMMARY => [F.GLB_DUM_SUMMARY_SPARES_LEFT, F.GLB_DUM_SUMMARY_DISABLED_CXL, F.GLB_DUM_SUMMARY_DISABLED_GDDR_CH, F.GLB_DUM_SUMMARY_DISABLED_BANK_GROUPS, F.GLB_DUM_SUMMARY_DISABLED_OE, F.GLB_DUM_SUMMARY_DISABLED_PORTS, F.GLB_DUM_SUMMARY_ACTIVE_CLUSTERS]
  | .GLB_DUM_DIGEST => [F.GLB_DUM_DIGEST_DIGEST]
  | .GLB_RING_STAT => [F.GLB_RING_STAT_LAPS]
  | .GLB_RING_LINK => [F.GLB_RING_LINK_CCW_DOWN, F.GLB_RING_LINK_CW_DOWN]
  | .GLB_ACCESS_ERR => [F.GLB_ACCESS_ERR_LOCKED_WR, F.GLB_ACCESS_ERR_AUTHORITY, F.GLB_ACCESS_ERR_UNMAPPED]
  | .GLB_ACCESS_ADDR => [F.GLB_ACCESS_ADDR_CLASS, F.GLB_ACCESS_ADDR_OFFSET]
  | .PWR_INPUT => [F.PWR_INPUT_WATTS, F.PWR_INPUT_AMPS, F.PWR_INPUT_VOLTS]
  | .PWR_INPUT_EXT => [F.PWR_INPUT_EXT_MAX, F.PWR_INPUT_EXT_MIN]
  | .PWR_RAIL => [F.PWR_RAIL_EVENTS, F.PWR_RAIL_STOP, F.PWR_RAIL_RAIL, F.PWR_RAIL_VALID]
  | .PWR_CLK_STAT => [F.PWR_CLK_STAT_UNLOCKS, F.PWR_CLK_STAT_LOCK, F.PWR_CLK_STAT_STEER_PPB]
  | .PWR_THERM_CFG => [F.PWR_THERM_CFG_TRIP, F.PWR_THERM_CFG_WARN]
  | .PWR_THERM_HOT => [F.PWR_THERM_HOT_SENSOR, F.PWR_THERM_HOT_TEMP]
  | .PWR_HOST_OFF => [F.PWR_HOST_OFF_OFF]
  | .PWR_MGT_OFF => [F.PWR_MGT_OFF_OFF]
  | .PWR_DOM_STAT => [F.PWR_DOM_STAT_ON]
  | .PWR_TEMP => [F.PWR_TEMP_TEMP]
  | .BOOT_STAT => [F.BOOT_STAT_FAIL_CODE, F.BOOT_STAT_CFG_SLOT, F.BOOT_STAT_FW_SLOT, F.BOOT_STAT_FALLBACK, F.BOOT_STAT_STAGE]
  | .BOOT_TIMES => [F.BOOT_TIMES_DONE_MS, F.BOOT_TIMES_MEMORY_MS, F.BOOT_TIMES_CONFIG_MS, F.BOOT_TIMES_VERIFY_MS]
  | .BOOT_VERSION => [F.BOOT_VERSION_FW_SVN, F.BOOT_VERSION_FW_VERSION, F.BOOT_VERSION_CFG_VERSION, F.BOOT_VERSION_MIN_SVN]
  | .BOOT_NVM => [F.BOOT_NVM_JEDEC_ID, F.BOOT_NVM_SIZE_MIB, F.BOOT_NVM_RETRIES]
  | .BOOT_FW_DIGEST => [F.BOOT_FW_DIGEST_DIGEST]
  | .BOOT_CFG_DIGEST => [F.BOOT_CFG_DIGEST_DIGEST]
  | .SEC_STAT => [F.SEC_STAT_EPOCHS_LEFT, F.SEC_STAT_KEY_EPOCH, F.SEC_STAT_LAST_REFUSAL, F.SEC_STAT_TOKEN, F.SEC_STAT_IDENT_STALE, F.SEC_STAT_DEBUG_OPEN]
  | .SEC_DEBUG_LOCK => [F.SEC_DEBUG_LOCK_LOCK]
  | .SEC_IDENT => [F.SEC_IDENT_IDENT]
  | .SEC_AUTH_LAST => [F.SEC_AUTH_LAST_THING, F.SEC_AUTH_LAST_INDEX, F.SEC_AUTH_LAST_HOST, F.SEC_AUTH_LAST_MGT, F.SEC_AUTH_LAST_COUNT]
  | .SEC_MGT_CFG => [F.SEC_MGT_CFG_MAC, F.SEC_MGT_CFG_NODE_COUNT, F.SEC_MGT_CFG_NODE_ID]
  | .SEC_MGT_PEER => [F.SEC_MGT_PEER_VALID, F.SEC_MGT_PEER_STATION, F.SEC_MGT_PEER_MAC]
  | .SEC_MGT_STAT => [F.SEC_MGT_STAT_RX, F.SEC_MGT_STAT_STRANGERS, F.SEC_MGT_STAT_DUPLICATES, F.SEC_MGT_STAT_BAD]
  | .FLT_SRC_STAT => [F.FLT_SRC_STAT_PENDING, F.FLT_SRC_STAT_ACTIVE]
  | .FLT_SRC_COUNT => [F.FLT_SRC_COUNT_COUNT]
  | .FLT_SRC_INFO => [F.FLT_SRC_INFO_OP_SECONDS, F.FLT_SRC_INFO_DETAIL]
  | .FLT_SRC_CFG => [F.FLT_SRC_CFG_RECORD, F.FLT_SRC_CFG_SET, F.FLT_SRC_CFG_SEVERITY, F.FLT_SRC_CFG_PIN, F.FLT_SRC_CFG_CHIP_RESET, F.FLT_SRC_CFG_BLOCK_RESET, F.FLT_SRC_CFG_NMI, F.FLT_SRC_CFG_INT]
  | .FLT_SUMMARY => [F.FLT_SUMMARY_PENDING]
  | .FLT_TOP => [F.FLT_TOP_VALID, F.FLT_TOP_SEVERITY, F.FLT_TOP_SOURCE]
  | .FLT_PIN => [F.FLT_PIN_FAULT, F.FLT_PIN_SAFE, F.FLT_PIN_BOOTING, F.FLT_PIN_FORCED, F.FLT_PIN_SOURCE, F.FLT_PIN_ASSERTIONS]
  | .FLT_GCFG => [F.FLT_GCFG_INT_HOLDOFF_US]
  | .FLT_MGT => [F.FLT_MGT_FORCE, F.FLT_MGT_CLEAR, F.FLT_MGT_SOURCE]
  | .FLT_SELF => [F.FLT_SELF_CORR, F.FLT_SELF_WORD, F.FLT_SELF_SAFE, F.FLT_SELF_CAUSE]
  | .FLT_INJECT => [F.FLT_INJECT_GO, F.FLT_INJECT_SELF_TEST, F.FLT_INJECT_SOURCE]
  | .FLT_RESET_CAUSE => [F.FLT_RESET_CAUSE_VALID, F.FLT_RESET_CAUSE_KIND, F.FLT_RESET_CAUSE_FROM_SAFE, F.FLT_RESET_CAUSE_SOURCE]
  | .EVR_CFG => [F.EVR_CFG_ENABLE, F.EVR_CFG_SET_DUM, F.EVR_CFG_SET_DISC, F.EVR_CFG_SET_PLAN, F.EVR_CFG_SET_OTHER, F.EVR_CFG_PERIOD_S]
  | .EVR_NEXT => [F.EVR_NEXT_SEQ]
  | .EVR_STAT => [F.EVR_STAT_DROPPED, F.EVR_STAT_LOST, F.EVR_STAT_PARTIAL, F.EVR_STAT_QUEUE]
  | .EVR_TRIGGER => [F.EVR_TRIGGER_GO, F.EVR_TRIGGER_ARG]
  | .EVR_RING => [F.EVR_RING_RECORDS, F.EVR_RING_BASE]
  | .EVR_RING_OLDEST => [F.EVR_RING_OLDEST_SEQ]
  | .EVR_RING_SEL => [F.EVR_RING_SEL_SEQ]
  | .EVR_RING_STAT => [F.EVR_RING_STAT_MISSING, F.EVR_RING_STAT_READY]
  | .EVR_ECC => [F.EVR_ECC_UNCORR, F.EVR_ECC_CORR]
  | .EVR_OPSEC => [F.EVR_OPSEC_POWER_CYCLES, F.EVR_OPSEC_OP_SECONDS]
  | .EVR_SET => [F.EVR_SET_VALID, F.EVR_SET_WIDE, F.EVR_SET_OFFSET]
  | .PRT_LINK_CFG => [F.PRT_LINK_CFG_ENABLE, F.PRT_LINK_CFG_RATE, F.PRT_LINK_CFG_BENLAS, F.PRT_LINK_CFG_TOTAL_AT, F.PRT_LINK_CFG_CREDIT, F.PRT_LINK_CFG_PAUSE_MS, F.PRT_LINK_CFG_UNCORR_LIMIT]
  | .PRT_LINK_STAT => [F.PRT_LINK_STAT_DOWNS, F.PRT_LINK_STAT_LANE_MAP, F.PRT_LINK_STAT_LOCK, F.PRT_LINK_STAT_RATE, F.PRT_LINK_STAT_CREDIT, F.PRT_LINK_STAT_STATE]
  | .PRT_DISC => [F.PRT_DISC_PEER_IDENT, F.PRT_DISC_PEER_PORT, F.PRT_DISC_PEER_KIND, F.PRT_DISC_AGREED, F.PRT_DISC_OUTCOME, F.PRT_DISC_OPP, F.PRT_DISC_QUAR, F.PRT_DISC_STATE]
  | .PRT_RX_ERR => [F.PRT_RX_ERR_CRC, F.PRT_RX_ERR_CBLOCK, F.PRT_RX_ERR_FRAMING, F.PRT_RX_ERR_GAP]
  | .PRT_FC_STAT => [F.PRT_FC_STAT_RX_XOFF, F.PRT_FC_STAT_TX_XOFF, F.PRT_FC_STAT_STALLS, F.PRT_FC_STAT_FIFO]
  | .PRT_FEC_CW => [F.PRT_FEC_CW_CODEWORDS]
  | .PRT_FEC_ERR => [F.PRT_FEC_ERR_SYMBOLS, F.PRT_FEC_ERR_UNCORR]
  | .PRT_FEC_HIST => [F.PRT_FEC_HIST_COUNT]
  | .PRT_FEC_TREND => [F.PRT_FEC_TREND_LONG, F.PRT_FEC_TREND_SHORT]
  | .PRT_TEST => [F.PRT_TEST_LOOP, F.PRT_TEST_GEN, F.PRT_TEST_CHK]
  | .PRT_TEST_STAT => [F.PRT_TEST_STAT_REFUSED]
  | .PRT_PRBS_ERR => [F.PRT_PRBS_ERR_LOCK, F.PRT_PRBS_ERR_ERRORS]
  | .PRT_FC_CFG => [F.PRT_FC_CFG_XOFF_AT, F.PRT_FC_CFG_XON_AT]
  | .PRT_CREDIT => [F.PRT_CREDIT_TX_AVAIL, F.PRT_CREDIT_RX_OUT]
  | .PRT_TIME_PORT => [F.PRT_TIME_PORT_ROLE, F.PRT_TIME_PORT_PRIORITY, F.PRT_TIME_PORT_ASYM, F.PRT_TIME_PORT_DELAY]
  | .PRT_FRAMES => [F.PRT_FRAMES_RX, F.PRT_FRAMES_QUAR]
  | .PRT_IDENT_RX => [F.PRT_IDENT_RX_BYTES]
  | .PRT_LSM_STAT => [F.PRT_LSM_STAT_TEMP, F.PRT_LSM_STAT_LOW, F.PRT_LSM_STAT_ENABLED, F.PRT_LSM_STAT_FAULT, F.PRT_LSM_STAT_PRESENT]
  | .PRT_LSM_POWER => [F.PRT_LSM_POWER_OUT3, F.PRT_LSM_POWER_OUT2, F.PRT_LSM_POWER_OUT1, F.PRT_LSM_POWER_OUT0]
  | .PRT_LSM_BIAS => [F.PRT_LSM_BIAS_OUT3, F.PRT_LSM_BIAS_OUT2, F.PRT_LSM_BIAS_OUT1, F.PRT_LSM_BIAS_OUT0]
  | .PRT_LSM_CTL => [F.PRT_LSM_CTL_ENABLE]
  | .PRT_LSM_THR => [F.PRT_LSM_THR_WARN, F.PRT_LSM_THR_ALARM]
  | .PRT_TIME_CFG => [F.PRT_TIME_CFG_GM, F.PRT_TIME_CFG_SYNC_INTERVAL, F.PRT_TIME_CFG_LOCK_NS]
  | .PRT_TIME_NOW => [F.PRT_TIME_NOW_NS]
  | .PRT_TIME_STAT => [F.PRT_TIME_STAT_SLAVE_PORT, F.PRT_TIME_STAT_HOLDOVERS, F.PRT_TIME_STAT_STATE]
  | .PRT_TIME_OFFSET => [F.PRT_TIME_OFFSET_OFFSET]
  | .PRT_DISC_SUM => [F.PRT_DISC_SUM_QUARANTINED, F.PRT_DISC_SUM_FW_DIFF, F.PRT_DISC_SUM_EXTRA, F.PRT_DISC_SUM_MISMATCH, F.PRT_DISC_SUM_MISSING, F.PRT_DISC_SUM_MATCHED]
  | .PRT_DISC_CFG => [F.PRT_DISC_CFG_LEAVES, F.PRT_DISC_CFG_PLANE, F.PRT_DISC_CFG_SWITCH_INDEX]
  | .PRT_DISC_GEN => [F.PRT_DISC_GEN_GEN]
  | .PRT_ACC_FW => [F.PRT_ACC_FW_DIGEST]
  | .LST_CFG => [F.LST_CFG_VALID, F.LST_CFG_LEVEL, F.LST_CFG_SHAPE, F.LST_CFG_PORT_AGNOSTIC, F.LST_CFG_OPERANDS, F.LST_CFG_RANKS, F.LST_CFG_SEGMENTS]
  | .LST_STATE => [F.LST_STATE_FENCED, F.LST_STATE_EXPOSED, F.LST_STATE_STATE]
  | .LST_TIMEOUT => [F.LST_TIMEOUT_PROGRESS_US]
  | .LST_SEG => [F.LST_SEG_INDEX, F.LST_SEG_BASE, F.LST_SEG_SIZE]
  | .LST_OPS => [F.LST_OPS_DONE, F.LST_OPS_INCOMPLETE, F.LST_OPS_ABORTED]
  | .LST_MEMBER => [F.LST_MEMBER_VALID, F.LST_MEMBER_FENCED, F.LST_MEMBER_PRESENT, F.LST_MEMBER_PORT, F.LST_MEMBER_FEED, F.LST_MEMBER_IDENT]
  | .LST_PLAN_STAT => [F.LST_PLAN_STAT_CONTEXTS, F.LST_PLAN_STAT_STATUS, F.LST_PLAN_STAT_LASTS, F.LST_PLAN_STAT_STATE]
  | .LST_PLAN_CHECKS => [F.LST_PLAN_CHECKS_FAILED]
  | .LST_PLAN_CFG => [F.LST_PLAN_CFG_SPINES, F.LST_PLAN_CFG_SPINE_INDEX, F.LST_PLAN_CFG_FEED_OVERRIDE, F.LST_PLAN_CFG_DUM_TOLERANT]
  | .LST_PLAN_DIGEST => [F.LST_PLAN_DIGEST_DIGEST]
  | .LST_RUN_SRC => [F.LST_RUN_SRC_SRC_CHUNK, F.LST_RUN_SRC_SRC_RANK, F.LST_RUN_SRC_COUNT]
  | .LST_RUN_DST => [F.LST_RUN_DST_DST_CHUNK, F.LST_RUN_DST_DST_RANK, F.LST_RUN_DST_NOSELF, F.LST_RUN_DST_COPIES_M1]
  | .OPC_DECL => [F.OPC_DECL_VALID, F.OPC_DECL_LAST, F.OPC_DECL_TARGET, F.OPC_DECL_KIND, F.OPC_DECL_OPERATOR, F.OPC_DECL_IN_FMT, F.OPC_DECL_OUT_FMT, F.OPC_DECL_SELF]
  | .OPC_LIMIT => [F.OPC_LIMIT_MAX_CHUNKS]
  | .OPC_RUNS => [F.OPC_RUNS_COUNT, F.OPC_RUNS_BASE]
  | .OPC_STATE => [F.OPC_STATE_DESCS, F.OPC_STATE_EARLY, F.OPC_STATE_NONFIN, F.OPC_STATE_SAT, F.OPC_STATE_WARM, F.OPC_STATE_STATUS, F.OPC_STATE_STATE]
  | .OPC_EXPECT => [F.OPC_EXPECT_SWATCHES]
  | .OPC_RECV => [F.OPC_RECV_SWATCHES]
  | .OPC_BYTES => [F.OPC_BYTES_BYTES]
  | .OPC_DROPS => [F.OPC_DROPS_STALE, F.OPC_DROPS_DUP, F.OPC_DROPS_RANGE, F.OPC_DROPS_FOREIGN]
  | .OPC_OPS => [F.OPC_OPS_DONE]
  | .OPC_FAIL => [F.OPC_FAIL_INCOMPLETE, F.OPC_FAIL_ABORTED]
  | .OPC_TAG => [F.OPC_TAG_TAG]
  | .OPC_UNDECL => [F.OPC_UNDECL_COUNT]
  | .OPC_UNDECL_LAST => [F.OPC_UNDECL_LAST_VALID, F.OPC_UNDECL_LAST_PORT, F.OPC_UNDECL_LAST_CONTEXT]
  | .OPC_REFUSED => [F.OPC_REFUSED_CONTEXT, F.OPC_REFUSED_PORT, F.OPC_REFUSED_CODE, F.OPC_REFUSED_COUNT]
  | .OPC_ABORT => [F.OPC_ABORT_GO, F.OPC_ABORT_CONTEXT]
  | .OPC_XCH_CFG => [F.OPC_XCH_CFG_PAD_SKIP, F.OPC_XCH_CFG_POLICY, F.OPC_XCH_CFG_CAP, F.OPC_XCH_CFG_ROW_BYTES]
  | .OPC_XCH_PLACED => [F.OPC_XCH_PLACED_ROWS]
  | .OPC_XCH_DROPPED => [F.OPC_XCH_DROPPED_CAPACITY, F.OPC_XCH_DROPPED_FENCED]
  | .OPC_XCH_PEAK => [F.OPC_XCH_PEAK_DEST, F.OPC_XCH_PEAK_DEMAND]
  | .OPC_XCH_BAD => [F.OPC_XCH_BAD_CONTEXT, F.OPC_XCH_BAD_PORT, F.OPC_XCH_BAD_CODE, F.OPC_XCH_BAD_COUNT]
  | .CL_STATE => [F.CL_STATE_LOGICAL, F.CL_STATE_CAUSE, F.CL_STATE_STATE]
  | .CL_PARITY_ERR => [F.CL_PARITY_ERR_SELECT, F.CL_PARITY_ERR_PARITY]
  | .CL_OCCUPANCY => [F.CL_OCCUPANCY_CHUNKS, F.CL_OCCUPANCY_GRANULES]
  | .CL_REPLAYS => [F.CL_REPLAYS_COUNT]
  | .CL_TEST => [F.CL_TEST_FAIL, F.CL_TEST_DONE]
  | .CL_WELT_ECC => [F.CL_WELT_ECC_UNCORR, F.CL_WELT_ECC_CORR]
  | .CL_NODES => [F.CL_NODES_COUNT]
  | .CL_LAST_ERR => [F.CL_LAST_ERR_CONTEXT, F.CL_LAST_ERR_CHUNK, F.CL_LAST_ERR_NODE, F.CL_LAST_ERR_PATH, F.CL_LAST_ERR_VALID]
  | .CL_CHUNKS => [F.CL_CHUNKS_COUNT]
  | .CL_SUMMARY => [F.CL_SUMMARY_UNMAPPED, F.CL_SUMMARY_SUBSTITUTIONS, F.CL_SUMMARY_RETIRED, F.CL_SUMMARY_RETIRE_PENDING, F.CL_SUMMARY_ACTIVE]
  | .CL_WAIT_CYCLES => [F.CL_WAIT_CYCLES_COUNT]
  | .CL_SPARES => [F.CL_SPARES_DIE3, F.CL_SPARES_DIE2, F.CL_SPARES_DIE1, F.CL_SPARES_DIE0]
  | .CL_BUSY_CYCLES => [F.CL_BUSY_CYCLES_COUNT]
  | .CL_OWN_GEN => [F.CL_OWN_GEN_GEN]
  | .CL_RESIDUE_ERR => [F.CL_RESIDUE_ERR_EXP, F.CL_RESIDUE_ERR_SIG]
  | .CL_LOG2PHYS => [F.CL_LOG2PHYS_MAPPED, F.CL_LOG2PHYS_PHYS]
  | .CL_OWNER => [F.CL_OWNER_LOGICAL]
  | .WLT_CTX => [F.WLT_CTX_LIMIT, F.WLT_CTX_LISTED, F.WLT_CTX_NEED, F.WLT_CTX_WAITING]
  | .WLT_QUOTA => [F.WLT_QUOTA_BORROW, F.WLT_QUOTA_GRANULES]
  | .WLT_SPILL_LIMIT => [F.WLT_SPILL_LIMIT_GRANULES]
  | .WLT_GRANT_CFG => [F.WLT_GRANT_CFG_HOLD_AT]
  | .WLT_STATE => [F.WLT_STATE_TRIGGER_DIE, F.WLT_STATE_CAUSE, F.WLT_STATE_STATE]
  | .WLT_ADMITS => [F.WLT_ADMITS_SPILL, F.WLT_ADMITS_WELT]
  | .WLT_HOLDS => [F.WLT_HOLDS_COUNT, F.WLT_HOLDS_TIME_US]
  | .WLT_SPILL_USED => [F.WLT_SPILL_USED_GRANULES]
  | .WLT_WELT_USED => [F.WLT_WELT_USED_BORROWED, F.WLT_WELT_USED_GRANULES]
  | .WLT_WAITS => [F.WLT_WAITS_COUNT]
  | .WLT_SPILL_CFG => [F.WLT_SPILL_CFG_SHARE]
  | .WLT_SHARED => [F.WLT_SHARED_GRANULES]
  | .WLT_REGION => [F.WLT_REGION_GRANULES, F.WLT_REGION_BASE]
  | .WLT_GRANT_FRAMES => [F.WLT_GRANT_FRAMES_OPEN, F.WLT_GRANT_FRAMES_HOLD]
  | .INS_ECC => [F.INS_ECC_UNCORR, F.INS_ECC_CORR]
  | .INS_ECC_LAST => [F.INS_ECC_LAST_VALID, F.INS_ECC_LAST_CELL]
  | .INS_GROUP_SCHED => [F.INS_GROUP_SCHED_ACCESSES]
  | .INS_GROUP_OPP => [F.INS_GROUP_OPP_ACCESSES]
  | .BPM_POOL_CFG => [F.BPM_POOL_CFG_SCHED, F.BPM_POOL_CFG_COUNT]
  | .BPM_POOL_FREE => [F.BPM_POOL_FREE_OPP, F.BPM_POOL_FREE_SCHED]
  | .BPM_POOL_LOW => [F.BPM_POOL_LOW_OPP, F.BPM_POOL_LOW_SCHED]
  | .BPM_POOL_BASE => [F.BPM_POOL_BASE_CELL]
  | .BPM_ACCT => [F.BPM_ACCT_LIMIT, F.BPM_ACCT_RESERVE]
  | .BPM_HELD => [F.BPM_HELD_BUFFERS]
  | .BPM_GCFG => [F.BPM_GCFG_ALLOC_WAIT]
  | .BPM_ERR => [F.BPM_ERR_TAG_ECC, F.BPM_ERR_EXHAUSTED, F.BPM_ERR_BAD_POINTER, F.BPM_ERR_FOREIGN_FREE, F.BPM_ERR_DOUBLE_FREE]
  | .BPM_ERR_COUNT => [F.BPM_ERR_COUNT_DOUBLE, F.BPM_ERR_COUNT_FOREIGN, F.BPM_ERR_COUNT_BAD, F.BPM_ERR_COUNT_EXHAUSTED]
  | .BPM_ERR_LAST => [F.BPM_ERR_LAST_VALID, F.BPM_ERR_LAST_KIND, F.BPM_ERR_LAST_ACCOUNT, F.BPM_ERR_LAST_REQUESTER, F.BPM_ERR_LAST_POINTER]
  | .BPM_TAG_ECC => [F.BPM_TAG_ECC_UNCORR, F.BPM_TAG_ECC_CORR]
  | .BPM_DROPS => [F.BPM_DROPS_COUNT]
  | .INS_FENCE => [F.INS_FENCE_PORTS]
  | .INS_MC_STORES => [F.INS_MC_STORES_COUNT]
  | .INS_MC_ENQUEUES => [F.INS_MC_ENQUEUES_COUNT]
  | .INS_FENCE_GEN => [F.INS_FENCE_GEN_GEN]
  | .INS_MC_FENCED_DROP => [F.INS_MC_FENCED_DROP_COUNT]
  | .SCH_WIN => [F.SCH_WIN_VALID, F.SCH_WIN_DIR, F.SCH_WIN_QSEL, F.SCH_WIN_START, F.SCH_WIN_LENGTH]
  | .SCH_PORT_CFG => [F.SCH_PORT_CFG_DEG_GROUP, F.SCH_PORT_CFG_GROUP_BASE, F.SCH_PORT_CFG_LAND, F.SCH_PORT_CFG_OPP_ONLY, F.SCH_PORT_CFG_GUARD]
  | .SCH_WIN_BASE => [F.SCH_WIN_BASE_BANK, F.SCH_WIN_BASE_ADDR]
  | .SCH_GATE_HOLD => [F.SCH_GATE_HOLD_SCHED, F.SCH_GATE_HOLD_OPP]
  | .SCH_WIN_IDLE => [F.SCH_WIN_IDLE_CYCLES]
  | .SCH_LAND => [F.SCH_LAND_LATE, F.SCH_LAND_OFFWINDOW]
  | .SCH_SENT => [F.SCH_SENT_FRAMES]
  | .SCH_PERIOD => [F.SCH_PERIOD_CYCLES]
  | .SCH_GCFG => [F.SCH_GCFG_BUDGET, F.SCH_GCFG_READ_LEAD]
  | .SCH_EPOCH => [F.SCH_EPOCH_TIME]
  | .SCH_ROUND => [F.SCH_ROUND_NUMBER]
  | .SCH_EXACT_LOSS => [F.SCH_EXACT_LOSS_ROUND, F.SCH_EXACT_LOSS_OPPSCHED, F.SCH_EXACT_LOSS_RESEQ, F.SCH_EXACT_LOSS_ECC, F.SCH_EXACT_LOSS_EARLY, F.SCH_EXACT_LOSS_TABLE, F.SCH_EXACT_LOSS_FENCE, F.SCH_EXACT_LOSS_SPILL, F.SCH_EXACT_LOSS_CLUSTER, F.SCH_EXACT_LOSS_REPLAY, F.SCH_EXACT_LOSS_LAND]
  | .SCH_CHG => [F.SCH_CHG_GO, F.SCH_CHG_BANK, F.SCH_CHG_LASTS]
  | .SCH_CHG_CFG => [F.SCH_CHG_CFG_DRAIN_US]
  | .SCH_CHG_STAT => [F.SCH_CHG_STAT_HELD, F.SCH_CHG_STAT_REFUSED, F.SCH_CHG_STAT_BANK, F.SCH_CHG_STAT_STATE]
  | .SCH_CHG_PORTS => [F.SCH_CHG_PORTS_PORTS]
  | .SCH_DEG_STAT => [F.SCH_DEG_STAT_SWITCHES, F.SCH_DEG_STAT_GROUP]
  | .SCH_MATCH_STAT => [F.SCH_MATCH_STAT_MATCHES, F.SCH_MATCH_STAT_UNMATCHED]
  | .SCH_SLIPS => [F.SCH_SLIPS_LONG, F.SCH_SLIPS_SHORT]
  | .SCH_RESEQ_STAT => [F.SCH_RESEQ_STAT_FAR, F.SCH_RESEQ_STAT_BYPASS, F.SCH_RESEQ_STAT_STREAMS, F.SCH_RESEQ_STAT_HELD]
  | .SHP_SHAPE_CFG => [F.SHP_SHAPE_CFG_BURST, F.SHP_SHAPE_CFG_CHG, F.SHP_SHAPE_CFG_ENABLE, F.SHP_SHAPE_CFG_OVERHEAD, F.SHP_SHAPE_CFG_RATE]
  | .SHP_SHAPE_STATE => [F.SHP_SHAPE_STATE_PENDING, F.SHP_SHAPE_STATE_TOKENS]
  | .SHP_SHAPE_STAT => [F.SHP_SHAPE_STAT_RELEASED, F.SHP_SHAPE_STAT_HELD]
  | .SHP_POL_CFG => [F.SHP_POL_CFG_BURST, F.SHP_POL_CFG_CHG, F.SHP_POL_CFG_ACTION, F.SHP_POL_CFG_OVERHEAD, F.SHP_POL_CFG_RATE]
  | .SHP_POL_STATE => [F.SHP_POL_STATE_PENDING, F.SHP_POL_STATE_TOKENS]
  | .SHP_POL_STAT => [F.SHP_POL_STAT_CONFORM, F.SHP_POL_STAT_EXCEED]
  | .SHP_MIR_CFG => [F.SHP_MIR_CFG_ENABLE, F.SHP_MIR_CFG_SRC, F.SHP_MIR_CFG_DIR, F.SHP_MIR_CFG_TRUNC, F.SHP_MIR_CFG_VC, F.SHP_MIR_CFG_MAX_PENDING, F.SHP_MIR_CFG_ANALYSIS, F.SHP_MIR_CFG_SELECT]
  | .SHP_MIR_STAT => [F.SHP_MIR_STAT_TAKEN, F.SHP_MIR_STAT_SENT]
  | .SHP_MIR_DROP => [F.SHP_MIR_DROP_FULL, F.SHP_MIR_DROP_BUF, F.SHP_MIR_DROP_FENCED, F.SHP_MIR_DROP_REFS]
  | .SHP_MIR_PEND => [F.SHP_MIR_PEND_PENDING]
  | .NUM_CFG => [F.NUM_CFG_SHADOW_OFF, F.NUM_CFG_DECAY, F.NUM_CFG_ROUND]
  | .NUM_WARM => [F.NUM_WARM_CHUNKS]
  | .NUM_SEED => [F.NUM_SEED_SEED]
  | .NUM_STATE_BASE => [F.NUM_STATE_BASE_LARGE, F.NUM_STATE_BASE_ADDR]
  | .NUM_OPSEQ => [F.NUM_OPSEQ_OPNUM]
  | .NUM_SAT => [F.NUM_SAT_COUNT]
  | .NUM_NONFIN_IN => [F.NUM_NONFIN_IN_COUNT]
  | .NUM_NONFIN_GEN => [F.NUM_NONFIN_GEN_COUNT]
  | .NUM_UNDERFLOW => [F.NUM_UNDERFLOW_COUNT]
  | .NUM_ZR => [F.NUM_ZR_COUNT]
  | .NUM_SHADOW => [F.NUM_SHADOW_SAMPLES, F.NUM_SHADOW_AGREE, F.NUM_SHADOW_WITHIN, F.NUM_SHADOW_BEYOND]
  | .NUM_SHADOW_MAX => [F.NUM_SHADOW_MAX_MAX]
  | .NUM_GCFG => [F.NUM_GCFG_SHADOW_LIMIT, F.NUM_GCFG_SHADOW_TOL, F.NUM_GCFG_SHADOW_LOG2]
  | .NUM_ZR_LIMIT => [F.NUM_ZR_LIMIT_LIMIT]
  | .NUM_WARM_CFG => [F.NUM_WARM_CFG_W_WARM]
  | .NUM_ZR_LAST => [F.NUM_ZR_LAST_CONTEXT, F.NUM_ZR_LAST_CHUNK, F.NUM_ZR_LAST_VALID]
  | .NUM_SHADOW_LAST => [F.NUM_SHADOW_LAST_CONTEXT, F.NUM_SHADOW_LAST_CHUNK, F.NUM_SHADOW_LAST_ELEMENTS]
  | .NUM_MON_STAT => [F.NUM_MON_STAT_DONE, F.NUM_MON_STAT_SKIPPED]
  | .NUM_STATE_LOST => [F.NUM_STATE_LOST_COUNT]
  | .CKP_LAST_CFG => [F.CKP_LAST_CFG_FULL_NEXT]
  | .CKP_LAST_STAT => [F.CKP_LAST_STAT_HELD, F.CKP_LAST_STAT_STATE]
  | .CKP_EPOCH => [F.CKP_EPOCH_SECURED, F.CKP_EPOCH_DONE]
  | .CKP_FULL => [F.CKP_FULL_EPOCH]
  | .CKP_GROUP => [F.CKP_GROUP_VALID, F.CKP_GROUP_M, F.CKP_GROUP_BASE, F.CKP_GROUP_SIZE, F.CKP_GROUP_EPOCH_CTX, F.CKP_GROUP_REGROW_CTX]
  | .CKP_GROUP_SHARD => [F.CKP_GROUP_SHARD_PARITY_OFF, F.CKP_GROUP_SHARD_CHUNKS]
  | .CKP_GROUP_STAT => [F.CKP_GROUP_STAT_LOST_POS, F.CKP_GROUP_STAT_LOST, F.CKP_GROUP_STAT_EXPOSED, F.CKP_GROUP_STAT_STATE]
  | .CKP_CFG => [F.CKP_CFG_HOLDER_FEED, F.CKP_CFG_HOLDER_EN, F.CKP_CFG_DRAIN_SHARE, F.CKP_CFG_GRACE_MS, F.CKP_CFG_CUT_MS]
  | .CKP_REGION => [F.CKP_REGION_GRANULES, F.CKP_REGION_IMAGE_GRANULES, F.CKP_REGION_BASE]
  | .CKP_TIER => [F.CKP_TIER_GIB, F.CKP_TIER_BASE]
  | .CKP_CAD => [F.CKP_CAD_COST_MS, F.CKP_CAD_T_MIN_S, F.CKP_CAD_T_MAX_S, F.CKP_CAD_FULL_EVERY]
  | .CKP_CAD_PRIOR => [F.CKP_CAD_PRIOR_PRIOR_MH]
  | .CKP_CAD_OBS => [F.CKP_CAD_OBS_FAILURES, F.CKP_CAD_OBS_MEMBER_S]
  | .CKP_CAD_STAT => [F.CKP_CAD_STAT_BASE_S, F.CKP_CAD_STAT_INTERVAL_S]
  | .CKP_LICHEN_W => [F.CKP_LICHEN_W_ALERT, F.CKP_LICHEN_W_W_RESIDUE, F.CKP_LICHEN_W_W_ECC, F.CKP_LICHEN_W_W_TEMP, F.CKP_LICHEN_W_W_BIAS, F.CKP_LICHEN_W_W_FEC]
  | .CKP_LICHEN_THR => [F.CKP_LICHEN_THR_HI, F.CKP_LICHEN_THR_LO]
  | .CKP_LICHEN => [F.CKP_LICHEN_RISK, F.CKP_LICHEN_S_RESIDUE, F.CKP_LICHEN_S_ECC, F.CKP_LICHEN_S_TEMP, F.CKP_LICHEN_S_BIAS, F.CKP_LICHEN_S_FEC]
  | .CKP_DRAIN => [F.CKP_DRAIN_ERRORS, F.CKP_DRAIN_BYTES_LEFT]
  | .CKP_IMAGE => [F.CKP_IMAGE_EPOCH, F.CKP_IMAGE_STATUS]
  | .CKP_EVENTS => [F.CKP_EVENTS_EPOCHS, F.CKP_EVENTS_ABORTED, F.CKP_EVENTS_REGROWTHS, F.CKP_EVENTS_FALLBACKS]
  | .MEM_CH_STAT => [F.MEM_CH_STAT_RETRIES, F.MEM_CH_STAT_STATE]
  | .MEM_CH_ECC => [F.MEM_CH_ECC_UNCORR, F.MEM_CH_ECC_CORR]
  | .MEM_CH_ECC_LAST => [F.MEM_CH_ECC_LAST_VALID, F.MEM_CH_ECC_LAST_ADDR]
  | .MEM_CH_BYTES => [F.MEM_CH_BYTES_BYTES]
  | .MEM_GDDR_SIZE => [F.MEM_GDDR_SIZE_N_MIN, F.MEM_GDDR_SIZE_BYTES]
  | .MEM_GMAP_FW => [F.MEM_GMAP_FW_GRANULES, F.MEM_GMAP_FW_BASE]
  | .MEM_GMAP_NUM => [F.MEM_GMAP_NUM_GRANULES, F.MEM_GMAP_NUM_BASE]
  | .MEM_CXL_STAT => [F.MEM_CXL_STAT_DOWNS, F.MEM_CXL_STAT_UP, F.MEM_CXL_STAT_SPEED, F.MEM_CXL_STAT_WIDTH]
  | .MEM_CXL_CAP => [F.MEM_CXL_CAP_GIB]
  | .MEM_CXL_ERR => [F.MEM_CXL_ERR_POISON, F.MEM_CXL_ERR_WRITE_FAIL]
  | .HST_MBX_ARG => [F.HST_MBX_ARG_ARG]
  | .HST_MBX_CMD => [F.HST_MBX_CMD_GO, F.HST_MBX_CMD_IRQ, F.HST_MBX_CMD_SLOT, F.HST_MBX_CMD_TAG, F.HST_MBX_CMD_OPCODE, F.HST_MBX_CMD_FLAGS]
  | .HST_MBX_RESP => [F.HST_MBX_RESP_BUSY, F.HST_MBX_RESP_TAG, F.HST_MBX_RESP_OPCODE, F.HST_MBX_RESP_CODE]
  | .HST_OP => [F.HST_OP_WORD]
  | .HST_OP_DETAIL => [F.HST_OP_DETAIL_DETAIL]
  | .HST_LINK_STAT => [F.HST_LINK_STAT_DOWNS, F.HST_LINK_STAT_UP, F.HST_LINK_STAT_SPEED, F.HST_LINK_STAT_WIDTH]
  | .HST_ERR => [F.HST_ERR_DMA_ERR, F.HST_ERR_CMD_DISCARD, F.HST_ERR_RING_TIMEOUT]
  | .HST_ERR_ADDR => [F.HST_ERR_ADDR_WRITE, F.HST_ERR_ADDR_OFFSET]
  | .MSIX_ADDR => [F.MSIX_ADDR_ADDR]
  | .MSIX_DATA => [F.MSIX_DATA_DATA]
  | .MSIX_CTRL => [F.MSIX_CTRL_MASK]
  | .MSIX_PBA => [F.MSIX_PBA_PENDING]

/-- Registers, part 0 of the list. -/
def Reg.part0 : List Reg :=
  [Reg.GLB_DEV_ID, Reg.GLB_ROLE, Reg.GLB_DUM_GEN, Reg.GLB_DUM_SUMMARY, Reg.GLB_DUM_DIGEST, Reg.GLB_RING_STAT,
   Reg.GLB_RING_LINK, Reg.GLB_ACCESS_ERR, Reg.GLB_ACCESS_ADDR, Reg.PWR_INPUT, Reg.PWR_INPUT_EXT, Reg.PWR_RAIL,
   Reg.PWR_CLK_STAT, Reg.PWR_THERM_CFG, Reg.PWR_THERM_HOT, Reg.PWR_HOST_OFF, Reg.PWR_MGT_OFF, Reg.PWR_DOM_STAT,
   Reg.PWR_TEMP, Reg.BOOT_STAT, Reg.BOOT_TIMES, Reg.BOOT_VERSION, Reg.BOOT_NVM, Reg.BOOT_FW_DIGEST,
   Reg.BOOT_CFG_DIGEST, Reg.SEC_STAT, Reg.SEC_DEBUG_LOCK, Reg.SEC_IDENT, Reg.SEC_AUTH_LAST, Reg.SEC_MGT_CFG,
   Reg.SEC_MGT_PEER, Reg.SEC_MGT_STAT, Reg.FLT_SRC_STAT, Reg.FLT_SRC_COUNT, Reg.FLT_SRC_INFO, Reg.FLT_SRC_CFG,
   Reg.FLT_SUMMARY, Reg.FLT_TOP, Reg.FLT_PIN, Reg.FLT_GCFG, Reg.FLT_MGT, Reg.FLT_SELF,
   Reg.FLT_INJECT, Reg.FLT_RESET_CAUSE, Reg.EVR_CFG, Reg.EVR_NEXT, Reg.EVR_STAT, Reg.EVR_TRIGGER,
   Reg.EVR_RING, Reg.EVR_RING_OLDEST, Reg.EVR_RING_SEL, Reg.EVR_RING_STAT]

/-- Registers, part 1 of the list. -/
def Reg.part1 : List Reg :=
  [Reg.EVR_ECC, Reg.EVR_OPSEC, Reg.EVR_SET, Reg.PRT_LINK_CFG, Reg.PRT_LINK_STAT, Reg.PRT_DISC,
   Reg.PRT_RX_ERR, Reg.PRT_FC_STAT, Reg.PRT_FEC_CW, Reg.PRT_FEC_ERR, Reg.PRT_FEC_HIST, Reg.PRT_FEC_TREND,
   Reg.PRT_TEST, Reg.PRT_TEST_STAT, Reg.PRT_PRBS_ERR, Reg.PRT_FC_CFG, Reg.PRT_CREDIT, Reg.PRT_TIME_PORT,
   Reg.PRT_FRAMES, Reg.PRT_IDENT_RX, Reg.PRT_LSM_STAT, Reg.PRT_LSM_POWER, Reg.PRT_LSM_BIAS, Reg.PRT_LSM_CTL,
   Reg.PRT_LSM_THR, Reg.PRT_TIME_CFG, Reg.PRT_TIME_NOW, Reg.PRT_TIME_STAT, Reg.PRT_TIME_OFFSET, Reg.PRT_DISC_SUM,
   Reg.PRT_DISC_CFG, Reg.PRT_DISC_GEN, Reg.PRT_ACC_FW, Reg.LST_CFG, Reg.LST_STATE, Reg.LST_TIMEOUT,
   Reg.LST_SEG, Reg.LST_OPS, Reg.LST_MEMBER, Reg.LST_PLAN_STAT, Reg.LST_PLAN_CHECKS, Reg.LST_PLAN_CFG,
   Reg.LST_PLAN_DIGEST, Reg.LST_RUN_SRC, Reg.LST_RUN_DST, Reg.OPC_DECL, Reg.OPC_LIMIT, Reg.OPC_RUNS,
   Reg.OPC_STATE, Reg.OPC_EXPECT, Reg.OPC_RECV, Reg.OPC_BYTES]

/-- Registers, part 2 of the list. -/
def Reg.part2 : List Reg :=
  [Reg.OPC_DROPS, Reg.OPC_OPS, Reg.OPC_FAIL, Reg.OPC_TAG, Reg.OPC_UNDECL, Reg.OPC_UNDECL_LAST,
   Reg.OPC_REFUSED, Reg.OPC_ABORT, Reg.OPC_XCH_CFG, Reg.OPC_XCH_PLACED, Reg.OPC_XCH_DROPPED, Reg.OPC_XCH_PEAK,
   Reg.OPC_XCH_BAD, Reg.CL_STATE, Reg.CL_PARITY_ERR, Reg.CL_OCCUPANCY, Reg.CL_REPLAYS, Reg.CL_TEST,
   Reg.CL_WELT_ECC, Reg.CL_NODES, Reg.CL_LAST_ERR, Reg.CL_CHUNKS, Reg.CL_SUMMARY, Reg.CL_WAIT_CYCLES,
   Reg.CL_SPARES, Reg.CL_BUSY_CYCLES, Reg.CL_OWN_GEN, Reg.CL_RESIDUE_ERR, Reg.CL_LOG2PHYS, Reg.CL_OWNER,
   Reg.WLT_CTX, Reg.WLT_QUOTA, Reg.WLT_SPILL_LIMIT, Reg.WLT_GRANT_CFG, Reg.WLT_STATE, Reg.WLT_ADMITS,
   Reg.WLT_HOLDS, Reg.WLT_SPILL_USED, Reg.WLT_WELT_USED, Reg.WLT_WAITS, Reg.WLT_SPILL_CFG, Reg.WLT_SHARED,
   Reg.WLT_REGION, Reg.WLT_GRANT_FRAMES, Reg.INS_ECC, Reg.INS_ECC_LAST, Reg.INS_GROUP_SCHED, Reg.INS_GROUP_OPP,
   Reg.BPM_POOL_CFG, Reg.BPM_POOL_FREE, Reg.BPM_POOL_LOW, Reg.BPM_POOL_BASE]

/-- Registers, part 3 of the list. -/
def Reg.part3 : List Reg :=
  [Reg.BPM_ACCT, Reg.BPM_HELD, Reg.BPM_GCFG, Reg.BPM_ERR, Reg.BPM_ERR_COUNT, Reg.BPM_ERR_LAST,
   Reg.BPM_TAG_ECC, Reg.BPM_DROPS, Reg.INS_FENCE, Reg.INS_MC_STORES, Reg.INS_MC_ENQUEUES, Reg.INS_FENCE_GEN,
   Reg.INS_MC_FENCED_DROP, Reg.SCH_WIN, Reg.SCH_PORT_CFG, Reg.SCH_WIN_BASE, Reg.SCH_GATE_HOLD, Reg.SCH_WIN_IDLE,
   Reg.SCH_LAND, Reg.SCH_SENT, Reg.SCH_PERIOD, Reg.SCH_GCFG, Reg.SCH_EPOCH, Reg.SCH_ROUND,
   Reg.SCH_EXACT_LOSS, Reg.SCH_CHG, Reg.SCH_CHG_CFG, Reg.SCH_CHG_STAT, Reg.SCH_CHG_PORTS, Reg.SCH_DEG_STAT,
   Reg.SCH_MATCH_STAT, Reg.SCH_SLIPS, Reg.SCH_RESEQ_STAT, Reg.SHP_SHAPE_CFG, Reg.SHP_SHAPE_STATE, Reg.SHP_SHAPE_STAT,
   Reg.SHP_POL_CFG, Reg.SHP_POL_STATE, Reg.SHP_POL_STAT, Reg.SHP_MIR_CFG, Reg.SHP_MIR_STAT, Reg.SHP_MIR_DROP,
   Reg.SHP_MIR_PEND, Reg.NUM_CFG, Reg.NUM_WARM, Reg.NUM_SEED, Reg.NUM_STATE_BASE, Reg.NUM_OPSEQ,
   Reg.NUM_SAT, Reg.NUM_NONFIN_IN, Reg.NUM_NONFIN_GEN, Reg.NUM_UNDERFLOW]

/-- Registers, part 4 of the list. -/
def Reg.part4 : List Reg :=
  [Reg.NUM_ZR, Reg.NUM_SHADOW, Reg.NUM_SHADOW_MAX, Reg.NUM_GCFG, Reg.NUM_ZR_LIMIT, Reg.NUM_WARM_CFG,
   Reg.NUM_ZR_LAST, Reg.NUM_SHADOW_LAST, Reg.NUM_MON_STAT, Reg.NUM_STATE_LOST, Reg.CKP_LAST_CFG, Reg.CKP_LAST_STAT,
   Reg.CKP_EPOCH, Reg.CKP_FULL, Reg.CKP_GROUP, Reg.CKP_GROUP_SHARD, Reg.CKP_GROUP_STAT, Reg.CKP_CFG,
   Reg.CKP_REGION, Reg.CKP_TIER, Reg.CKP_CAD, Reg.CKP_CAD_PRIOR, Reg.CKP_CAD_OBS, Reg.CKP_CAD_STAT,
   Reg.CKP_LICHEN_W, Reg.CKP_LICHEN_THR, Reg.CKP_LICHEN, Reg.CKP_DRAIN, Reg.CKP_IMAGE, Reg.CKP_EVENTS,
   Reg.MEM_CH_STAT, Reg.MEM_CH_ECC, Reg.MEM_CH_ECC_LAST, Reg.MEM_CH_BYTES, Reg.MEM_GDDR_SIZE, Reg.MEM_GMAP_FW,
   Reg.MEM_GMAP_NUM, Reg.MEM_CXL_STAT, Reg.MEM_CXL_CAP, Reg.MEM_CXL_ERR, Reg.HST_MBX_ARG, Reg.HST_MBX_CMD,
   Reg.HST_MBX_RESP, Reg.HST_OP, Reg.HST_OP_DETAIL, Reg.HST_LINK_STAT, Reg.HST_ERR, Reg.HST_ERR_ADDR,
   Reg.MSIX_ADDR, Reg.MSIX_DATA, Reg.MSIX_CTRL, Reg.MSIX_PBA]

/-- All registers. -/
def Reg.all : List Reg :=
  Reg.part0 ++ Reg.part1 ++ Reg.part2 ++ Reg.part3 ++ Reg.part4

end Sys2Proof.Machine
end

