-- ==== Sys2Proof/Word.lean ====
section
/-!
DEFINITION. The plain words of the model: bytes, and their little-endian composition (R5, R6).
-/

namespace Sys2Proof

/-- One byte (R6). -/
abbrev Byte := BitVec 8

/-- Bits [hi:lo] of a number (R5). -/
def bits (v hi lo : Nat) : Nat := (v >>> lo) % 2 ^ (hi + 1 - lo)

/-- Bit [n] of a number (R5). -/
def bit (v n : Nat) : Bool := v.testBit n

/-- A truth value as the bit that stands for it. -/
def b2n (b : Bool) : Nat := if b then 1 else 0

end Sys2Proof
end

