-- ==== Sys2Proof/Machine/TypesBus.lean ====
section
/-!
DEFINITION. The data of the buses, the lacing ring, the fault collector and the event recorder
(01_package_and_hierarchy.md, 12_faults_and_recorder.md).
-/

namespace Sys2Proof.Machine

/-- The four kinds of lacing-ring traffic (R54 orders fault messages before the others); of register accesses, the read
requests and the 64-bit read responses apart, whose lengths R50 gives. -/
inductive RingKind where
  | access | readRequest | readResponse | fault | snapshot | descriptor
  deriving DecidableEq, Repr, Inhabited

/-- The two counter-rotating rings (R49). -/
inductive Ring where
  | cw | ccw
  deriving DecidableEq, Repr, Inhabited

/-- The number of a ring in a key. -/
def Ring.code : Ring → Nat
  | .cw => 0 | .ccw => 1

/-- A lacing-ring packet of `flits` flits in all: the header flit and 0 to 8 payload flits (R50). `tag` tells packets of
one source apart. -/
structure RingPacket where
  src   : Nat
  dst   : Nat
  kind  : RingKind
  flits : Nat
  tag   : Nat
  deriving DecidableEq, Repr, Inhabited

/-- A fault message (R378): the die's stop, the source, the raises it stands for, the latest DETAIL, the level of a level
source's condition, and the sequence number. -/
structure FaultMsg where
  die    : Nat
  source : Nat
  n      : Nat
  detail : Nat
  level  : Bool
  seq    : Nat
  deriving DecidableEq, Repr, Inhabited

/-- R50, R378: the lengths of packets, by kind. -/
def RingPacket.sized (p : RingPacket) : Bool :=
  match p.kind with
  | .readRequest => p.flits == 1
  | .readResponse => p.flits == 2
  | .descriptor => p.flits == 5
  | .fault => p.flits == 1
  | _ => decide (1 ≤ p.flits ∧ p.flits ≤ 9)

/-- The lacing ring: the packets in each stop's input buffers (R52), keyed [ring, stop], oldest first, those of them that
have entered the ring there and not moved yet, and the root cycle in which a stop's OFF began. -/
structure RingState where
  buffers : SMap (List RingPacket) := {}
  entered : SMap (List RingPacket) := {}
  offAt   : SMap (Option Nat) := {}
  deriving DecidableEq, Repr, Inhabited

/-- One port class's latched high word (R11). -/
structure Latch where
  addr : Nat
  high : Nat
  deriving DecidableEq, Repr, Inhabited

/-- One port class's held low word (R12). -/
structure HeldWord where
  addr : Nat
  low  : Nat
  deriving DecidableEq, Repr, Inhabited

/-- What a bus holds per port class, keyed [class]. -/
structure BusState where
  latch : SMap (Option Latch) := {}
  held  : SMap (Option HeldWord) := {}
  deriving DecidableEq, Repr, Inhabited

/-- The holdoff of one interrupt vector (R384): when its last message went, and whether transitions wait. -/
structure IntHold where
  last   : Option Nat := none
  merged : Bool := false
  deriving DecidableEq, Repr, Inhabited

/-- A chip reset by reaction that has been decided and has not begun (R386). -/
structure ResetReaction where
  source : Nat
  since  : Nat
  /-- SEQ of the record of this raise, if it made one. -/
  record : Option Nat
  deriving DecidableEq, Repr, Inhabited

/-- The fault collector and the dies' fault messages (R378 to R387). -/
structure FaultState where
  /-- Messages held at their die while both paths are cut, keyed [die, source] (R51, R378). -/
  waiting : SMap (Option FaultMsg) := {}
  /-- Next sequence number, keyed [die]. -/
  seqs    : SMap Nat := {}
  /-- Copies that wait at their die for room at the entry of their ring (R52). -/
  entry   : List (Ring × FaultMsg) := []
  /-- Copies on the rings. -/
  flight  : List (Ring × FaultMsg) := []
  /-- Messages of which one copy has arrived and the other may. -/
  seen    : List (Nat × Nat) := []
  /-- Raises that have reached the collector and are not decided. -/
  inbox   : List (Nat × FaultMsg) := []
  /-- The condition of each level source of each unit as its die last saw it, keyed [source, die, unit]. -/
  cond    : SMap Bool := {}
  /-- The level of each die that the collector last decided, keyed [source, die]. -/
  levels  : SMap Bool := {}
  hold    : SMap IntHold := {}
  reaction : Option ResetReaction := none
  /-- SEQ of the record that each source's latest raise triggered, keyed [source] (R387). -/
  recSeq : SMap (Option Nat) := {}
  /-- Since when some source with INT has been pending, or when the last repeat went (R387). -/
  noticeSince : Option Nat := none
  deriving DecidableEq, Repr, Inhabited

/-- A recorder trigger (R396). -/
structure Trigger where
  code     : Nat
  source   : Nat
  severity : Nat
  set      : Nat
  arg      : Nat
  opSec    : Nat
  time     : Nat
  deriving DecidableEq, Repr, Inhabited

/-- A record (R399). -/
structure Record where
  gen         : Nat
  seq         : Nat
  trigger     : Nat
  source      : Nat
  flags       : Nat
  entries     : Nat
  powerCycles : Nat
  resets      : Nat
  opSec       : Nat
  time        : Nat
  captureNs   : Nat
  dumGen      : Nat
  arg         : Nat
  validMask   : Nat
  dropped     : Nat
  values      : List Nat
  deriving DecidableEq, Repr, Inhabited

/-- A snapshot in progress (R398): the trigger it serves, the VALID entries of the set it started with, and the indices
of reads that were not answered in time. -/
structure Snapshot where
  trig    : Trigger
  since   : Nat
  slot    : Nat
  dumGen  : Nat
  reads   : List (Nat × Nat × Bool)
  missing : List Nat
  deriving DecidableEq, Repr, Inhabited

/-- The event recorder (R396 to R404). -/
structure RecorderState where
  queue    : List Trigger := []
  snapshot : Option Snapshot := none
  /-- Triggers discarded since the previous record. -/
  dropped  : Nat := 0
  /-- The 4,096 SRAM slots, keyed [slot]. -/
  sram     : SMap Record := {}
  /-- Uncorrectable SRAM words, keyed [slot, byte offset of the 64-bit word]. -/
  badWords : SMap Bool := {}
  /-- SEQ of the next record to copy to the ring, and of the first one that the ring has held since it was lost. -/
  copied   : Nat := 0
  ringFrom : Nat := 0
  /-- Chip resets since PWR_GOOD rose. -/
  resets   : Nat := 0
  /-- The ring window's bytes (R404). -/
  window   : List (BitVec 8) := []
  /-- A ring record has been selected and not yet copied or found missing. -/
  selecting : Bool := false
  /-- Operating second of the last PERIODIC trigger. -/
  periodSec : Nat := 0
  /-- Seconds since the last persistence write. -/
  sincePersist : Nat := 0
  deriving DecidableEq, Repr, Inhabited

end Sys2Proof.Machine
end

