-- ==== Sys2Proof/Machine/Numeric.lean ====
section
/-!
DEFINITION. Numbers as the lanes work with them: element formats, decoding, exact arithmetic, rounding and encoding
(R99 to R107, R112, R114, R116 to R120).
-/

namespace Sys2Proof.Machine

/-- A number: NaN, an infinity, or the exact value (-1)^neg * m * 2^e; a zero keeps its sign. Integers and bytes have
exponent 0. -/
inductive Val where
  | nan
  | inf (neg : Bool)
  | fin (neg : Bool) (m : Nat) (e : Int)
  deriving DecidableEq, Repr, Inhabited

/-- R99, R100: which encodings of a floating-point format are not finite numbers. -/
inductive Special where
  /-- Exponent of all ones: infinity or NaN. -/
  | ieee
  /-- Only S.1111.111 is NaN. -/
  | e4m3
  /-- Every encoding is finite. -/
  | none
  deriving DecidableEq, Repr

/-- R99: a floating-point format. `emax` is R122's, for block elements. -/
structure FloatFmt where
  width   : Nat
  ebits   : Nat
  fbits   : Nat
  bias    : Int
  special : Special
  /-- Largest finite value: maxM * 2^maxE. -/
  maxM    : Nat
  maxE    : Int
  /-- R101: the quiet NaN. -/
  qnan    : Nat
  deriving DecidableEq, Repr

def fp64 : FloatFmt := ⟨64, 11, 52, 1023, .ieee, 2 ^ 53 - 1, 971, 0x7FF8000000000000⟩
def fp32 : FloatFmt := ⟨32, 8, 23, 127, .ieee, 2 ^ 24 - 1, 104, 0x7FC00000⟩
def fp16 : FloatFmt := ⟨16, 5, 10, 15, .ieee, 2047, 5, 0x7E00⟩
def bf16 : FloatFmt := ⟨16, 8, 7, 127, .ieee, 255, 120, 0x7FC0⟩
def e4m3 : FloatFmt := ⟨8, 4, 3, 7, .e4m3, 14, 5, 0x7F⟩
def e5m2 : FloatFmt := ⟨8, 5, 2, 15, .ieee, 7, 13, 0x7E⟩
def e2m1 : FloatFmt := ⟨4, 2, 1, 1, .none, 3, 1, 0⟩

/-- The exponent of the smallest step of a format: subnormals are multiples of 2^qmin. -/
def FloatFmt.qmin (f : FloatFmt) : Int := 1 - f.bias - f.fbits

/-- R100: the number an encoding stands for. -/
def FloatFmt.decode (f : FloatFmt) (w : Nat) : Val :=
  let neg := w.testBit (f.width - 1)
  let e := w / 2 ^ f.fbits % 2 ^ f.ebits
  let fr := w % 2 ^ f.fbits
  let top := 2 ^ f.ebits - 1
  if f.special = .ieee ∧ e = top then (if fr = 0 then .inf neg else .nan)
  else if f.special = .e4m3 ∧ e = top ∧ fr = 7 then .nan
  else if e = 0 then .fin neg fr f.qmin
  else .fin neg (2 ^ f.fbits + fr) ((e : Int) - f.bias - f.fbits)

/-- R121: an encoding of a non-zero subnormal number. -/
def FloatFmt.subnormal (f : FloatFmt) (w : Nat) : Bool :=
  w / 2 ^ f.fbits % 2 ^ f.ebits == 0 && w % 2 ^ f.fbits != 0

/-- m * 2^(e-q) as a natural number; exact when e ≥ q, else rounded down. -/
def scaleNat (m : Nat) (e q : Int) : Nat :=
  if q ≤ e then m * 2 ^ (e - q).toNat else m / 2 ^ (q - e).toNat

/-- Comparison of two magnitudes. -/
def magLt (m : Nat) (e : Int) (m' : Nat) (e' : Int) : Bool :=
  let q := min e e'
  decide (scaleNat m e q < scaleNat m' e' q)

/-- ⌊log₂⌋ of a non-zero magnitude. -/
def magLog2 (m : Nat) (e : Int) : Int := (Nat.log2 m : Int) + e

/-- R62, R114: how a number is rounded: to nearest even, or stochastically with u = h[15:0] (R117). -/
inductive RoundMode where
  | nearest
  | stochastic (u : Nat)
  deriving DecidableEq, Repr

/-- R114, R117, R118: a finite magnitude rounded to the format's grid with an unbounded exponent range, then held to
the largest finite value; `true` where that saturates. -/
def FloatFmt.roundMag (f : FloatFmt) (mode : RoundMode) (m : Nat) (e : Int) : Nat × Int × Bool :=
  if m = 0 then (0, f.qmin, false)
  else
    let q := max (magLog2 m e - f.fbits) f.qmin
    let k :=
      if q ≤ e then scaleNat m e q
      else
        let d := (q - e).toNat
        let k := m / 2 ^ d
        let r := m % 2 ^ d
        let up := match mode with
          | .nearest => decide (2 ^ d < 2 * r) || (decide (2 * r = 2 ^ d) && k % 2 == 1)
          | .stochastic u => r != 0 && decide (u < 65536 * r / 2 ^ d)
        if up then k + 1 else k
    if magLt f.maxM f.maxE k q then (f.maxM, f.maxE, true) else (k, q, false)

/-- A number rounded to a format; the second part says whether it saturated. -/
def FloatFmt.round (f : FloatFmt) (mode : RoundMode) : Val → Val × Bool
  | .fin neg m e => let (m, e, sat) := f.roundMag mode m e; (.fin neg m e, sat)
  | v => (v, false)

/-- The encoding of a representable number; an infinity that the format lacks becomes its NaN (R118). -/
def FloatFmt.encode (f : FloatFmt) : Val → Nat
  | .nan => f.qnan
  | .inf neg => if f.special = .ieee then 2 ^ (f.width - 1) * b2n neg + (2 ^ f.ebits - 1) * 2 ^ f.fbits else f.qnan
  | .fin neg m e =>
    let s := 2 ^ (f.width - 1) * b2n neg
    if m = 0 then s
    else
      let l := magLog2 m e
      if l < 1 - f.bias then s + scaleNat m e f.qmin
      else s + (l + f.bias).toNat * 2 ^ f.fbits + (scaleNat m e (l - f.fbits) - 2 ^ f.fbits)

/-- The exact signed sum of two finite numbers on their common grid. -/
def addExact (n1 : Bool) (m1 : Nat) (e1 : Int) (n2 : Bool) (m2 : Nat) (e2 : Int) : Val :=
  let q := min e1 e2
  let a : Int := if n1 then -(scaleNat m1 e1 q : Int) else scaleNat m1 e1 q
  let b : Int := if n2 then -(scaleNat m2 e2 q : Int) else scaleNat m2 e2 q
  let s := a + b
  -- R120: an exact zero sum is +0, except that of two -0 operands
  if s = 0 then .fin (n1 && n2 && m1 == 0 && m2 == 0) 0 q else .fin (decide (s < 0)) s.natAbs q

/-- What an arithmetic step counts (R118). -/
structure Ev where
  sat : Nat := 0
  gen : Nat := 0
  deriving DecidableEq, Repr, Inhabited

def Ev.add (a b : Ev) : Ev := ⟨a.sat + b.sat, a.gen + b.gen⟩

/-- R62, R112, R118: a node adds two operands in its accumulator format. -/
def FloatFmt.add (f : FloatFmt) : Val → Val → Val × Ev
  | .nan, _ => (.nan, {})
  | _, .nan => (.nan, {})
  | .inf a, .inf b => if a = b then (.inf a, {}) else (.nan, { gen := 1 })
  | .inf a, .fin .. => (.inf a, {})
  | .fin .., .inf b => (.inf b, {})
  | .fin n1 m1 e1, .fin n2 m2 e2 =>
    let (v, sat) := f.round .nearest (addExact n1 m1 e1 n2 m2 e2)
    (v, { sat := b2n sat })

/-- R119: a < b among numbers that are not NaN, with -0 below +0. -/
def valLt : Val → Val → Bool
  | .nan, _ => false
  | _, .nan => false
  | .inf a, .inf b => a && !b
  | .inf a, .fin .. => a
  | .fin .., .inf b => !b
  | .fin n1 m1 e1, .fin n2 m2 e2 =>
    match n1, n2 with
    | true, false => true
    | false, true => false
    | false, false => magLt m1 e1 m2 e2
    | true, true => magLt m2 e2 m1 e1

/-- R119: the larger, or the smaller, of two numbers; NaN where either is. -/
def valMax (a b : Val) : Val := if a = .nan ∨ b = .nan then .nan else if valLt a b then b else a
def valMin (a b : Val) : Val := if a = .nan ∨ b = .nan then .nan else if valLt b a then b else a

/-- An integer as a number, and back. -/
def Val.ofInt (i : Int) : Val := .fin (decide (i < 0)) i.natAbs 0
def Val.toInt : Val → Int
  | .fin neg m e => if neg then -(scaleNat m e 0 : Int) else scaleNat m e 0
  | _ => 0

/-- R61, R118: an INT32 node saturates. -/
def addInt32 (a b : Val) : Val × Ev :=
  let s := a.toInt + b.toInt
  if 2147483647 < s then (.ofInt 2147483647, { sat := 1 })
  else if s < -2147483648 then (.ofInt (-2147483648), { sat := 1 })
  else (.ofInt s, {})

/-- A number times a power of two. -/
def Val.scale (k : Int) : Val → Val
  | .fin neg m e => .fin neg m (e + k)
  | v => v

/-- R107: an element times its block scale, held to FP32's range. -/
def scaleElement (sByte : Nat) (v : Val) : Val × Bool :=
  if sByte = 255 then (.nan, false)
  else match v.scale ((sByte : Int) - 127) with
    | .fin neg m e => if magLt fp32.maxM fp32.maxE m e then (.fin neg fp32.maxM fp32.maxE, true) else (.fin neg m e, false)
    | w => (w, false)

/-- R116: the mixing function of the stochastic generator, modulo 2^64. -/
def mixM1 : Nat := 0x9C4F27A15D3BE8C5
def mixM2 : Nat := 0xE7D319B64A8F2C61
def mix (z : Nat) : Nat :=
  let z := Nat.xor z (z >>> 32) * mixM1 % 2 ^ 64
  let z := Nat.xor z (z >>> 29) * mixM2 % 2 ^ 64
  Nat.xor z (z >>> 32)

/-- R116: h for element e of chunk c in operation n. -/
def stochasticWord (seed n c e : Nat) : Nat :=
  mix (Nat.xor (mix (Nat.xor seed (mix (Nat.lor (n * 2 ^ 32) c % 2 ^ 64)))) e)

/-- Whether a number is finite, zero, or neither. -/
def Val.isFin : Val → Bool
  | .fin .. => true
  | _ => false
def Val.isZero : Val → Bool
  | .fin _ m _ => m == 0
  | _ => false

end Sys2Proof.Machine
end

