-- ==== Sys2Proof/Machine/Tree.lean ====
section
/-!
DEFINITION. The reference tree (R68, R109 to R111), and the arithmetic of GF(2⁸) (R63, R340).
-/

namespace Sys2Proof.Machine

/-- ⌈log₂ n⌉. -/
def clog2 (n : Nat) : Nat := if n ≤ 1 then 0 else Nat.log2 (n - 1) + 1

/-- R110: the left part of a range of n operands; `halves` is SHAPE. -/
def split (halves : Bool) (n : Nat) : Nat := if halves then (n + 1) / 2 else 2 ^ (clog2 n - 1)

/-- R111: the height of the tree over n operands. -/
def height (n : Nat) : Nat := clog2 n

/-- The reference tree of one part: operands at its leaves. -/
inductive Tree where
  | leaf (r : Nat)
  | node (l r : Tree)
  deriving DecidableEq, Repr, Inhabited

/-- R110: the tree over n operands from `lo`. -/
def Tree.build (halves : Bool) : Nat → Nat → Nat → Tree
  | 0, lo, _ => .leaf lo
  | fuel + 1, lo, n =>
    if n ≤ 1 then .leaf lo
    else
      let a := split halves n
      .node (build halves fuel lo a) (build halves fuel (lo + a) (n - a))

/-- R111: the tree that the switch evaluates over n operands. -/
def refTree (halves : Bool) (n : Nat) : Tree := Tree.build halves n 0 n

/-- Where a node's operand comes from: an operand of the part, or the result of an earlier node. -/
inductive Src where
  | operand (r : Nat)
  | partial_ (node : Nat)
  deriving DecidableEq, Repr, Inhabited

/-- The number of internal nodes. -/
def Tree.size : Tree → Nat
  | .leaf _ => 0
  | .node l r => l.size + r.size + 1

/-- Where the result of a subtree whose nodes are numbered from `base` comes from. -/
def Tree.src (base : Nat) : Tree → Src
  | .leaf r => .operand r
  | .node l r => .partial_ (base + l.size + r.size)

/-- R68: the operands of every node in post-order, numbered from `base`. -/
def Tree.nodes (base : Nat) : Tree → List (Src × Src)
  | .leaf _ => []
  | .node l r => l.nodes base ++ r.nodes (base + l.size) ++ [(l.src base, r.src (base + l.size))]

/-- R68, R111: the nodes a cluster issues for a part of n operands: for n = 1 one pass with the operand alone. -/
def nodeList (halves : Bool) (n : Nat) : List (Src × Option Src) :=
  if n ≤ 1 then [(.operand 0, none)] else ((refTree halves n).nodes 0).map (fun p => (p.1, some p.2))

/-- R63: multiplication by x in GF(2⁸). -/
def gfTwice (a : Nat) : Nat := if 128 ≤ a then Nat.xor (2 * a - 256) 0x1D else 2 * a

/-- R63: multiplication in GF(2⁸). -/
def gfMulAux : Nat → Nat → Nat → Nat → Nat
  | 0, _, _, acc => acc
  | k + 1, a, b, acc => gfMulAux k (gfTwice a) (b / 2) (if b % 2 = 1 then Nat.xor acc a else acc)
def gfMul (a b : Nat) : Nat := gfMulAux 8 a b 0

/-- a^254, the inverse of a non-zero a. -/
def gfInv (a : Nat) : Nat :=
  let a2 := gfMul a a
  let a4 := gfMul a2 a2
  let a8 := gfMul a4 a4
  let a16 := gfMul a8 a8
  let a32 := gfMul a16 a16
  let a64 := gfMul a32 a32
  let a128 := gfMul a64 a64
  gfMul a2 (gfMul a4 (gfMul a8 (gfMul a16 (gfMul a32 (gfMul a64 a128)))))

/-- R340: the coefficient of position i in parity j. -/
def cauchy (i j : Nat) : Nat := gfInv (Nat.xor i (255 - j))

/-- A row times a factor, and the sum of two rows. -/
def gfScaleRow (k : Nat) (r : List Nat) : List Nat := r.map (gfMul k)
def gfAddRow (a b : List Nat) : List Nat := List.zipWith Nat.xor a b

/-- One step of Gauss-Jordan elimination: column `c` becomes a unit column, with the first row from `c` on that is
non-zero there as its pivot. -/
def gfEliminate (rows : List (List Nat)) (c : Nat) : List (List Nat) :=
  match (rows.drop c).find? (fun r => r.getD c 0 != 0) with
  | none => rows
  | some p =>
    let rest := rows.take c ++ (rows.drop c).erase p
    let p := gfScaleRow (gfInv (p.getD c 0)) p
    let cleared := rest.map (fun r => gfAddRow r (gfScaleRow (r.getD c 0) p))
    cleared.take c ++ [p] ++ cleared.drop c

/-- R365: the decode rows of the lost positions, each over the surviving positions in ascending order and then parities
0 to L - 1. With the parities p = A s + B x over survivors s and lost x, x = B⁻¹ (p + A s). -/
def decodeRows (size : Nat) (lost : List Nat) : List (List Nat) :=
  let l := lost.length
  let survivors := (List.range size).filter (fun i => !lost.contains i)
  let rows := (List.range l).map (fun j =>
    lost.map (fun i => cauchy i j) ++ survivors.map (fun i => cauchy i j) ++
      (List.range l).map (fun k => if k = j then 1 else 0))
  let solved := (List.range l).foldl gfEliminate rows
  solved.map (fun r => r.drop l)

end Sys2Proof.Machine
end

