-- ==== Sys2Proof/Machine/Formats.lean ====
section
/-!
DEFINITION. Format codes, the elements of swatch payloads, what a node combines, and the conversion at the root
(R61 to R63, R67, R99 to R108, R114, R117 to R124, R132, R142, R150).
-/

namespace Sys2Proof.Machine

/-- R142: format codes. -/
def fFP64 : Nat := 0
def fFP32 : Nat := 1
def fBF16 : Nat := 2
def fFP16 : Nat := 3
def fE4M3 : Nat := 4
def fE5M2 : Nat := 5
def fBSF8a : Nat := 6
def fBSF8b : Nat := 7
def fBSF4 : Nat := 8
def fINT32 : Nat := 9
def fBYTES : Nat := 10

/-- R142: OPERATOR values. -/
def oSum : Nat := 0
def oMax : Nat := 1
def oMin : Nat := 2
def oOr : Nat := 3
def oGf : Nat := 4

/-- R103, R104: a block format: elements and bytes of a block, element format, and R122's emax. -/
structure BlockFmt where
  elems : Nat
  bytes : Nat
  fmt   : FloatFmt
  emax  : Int

def blockFmt (code : Nat) : Option BlockFmt :=
  match code with
  | 6 => some ⟨32, 33, e4m3, 8⟩
  | 7 => some ⟨32, 33, e5m2, 15⟩
  | 8 => some ⟨16, 9, e2m1, 2⟩
  | _ => none

/-- The floating-point format of a code, or of its blocks' elements. -/
def floatFmt (code : Nat) : Option FloatFmt :=
  match code with
  | 0 => some fp64
  | 1 => some fp32
  | 2 => some bf16
  | 3 => some fp16
  | 4 => some e4m3
  | 5 => some e5m2
  | _ => (blockFmt code).map (·.fmt)

/-- R142: bytes of an element or block, and the swatch capacity. -/
def fmtUnit (code : Nat) : Nat := [8, 4, 2, 2, 1, 1, 33, 33, 9, 4, 1].getD code 1
def fmtCap (code : Nat) : Nat := [4096, 4096, 4096, 4096, 4096, 4096, 4092, 4092, 4095, 4096, 4096].getD code 4096

/-- R67, R106: elements of a payload. -/
def elemCount (code len : Nat) : Nat :=
  match blockFmt code with
  | some b => len / b.bytes * b.elems
  | none => len / fmtUnit code

/-- R108: the accumulator's format code for an input format and operator: FP32 for narrow inputs. -/
def accCode (inFmt op : Nat) : Nat :=
  if op = oOr ∨ op = oGf then fBYTES
  else if inFmt = fFP64 then fFP64 else if inFmt = fINT32 then fINT32 else if inFmt = fBYTES then fBYTES else fFP32

/-- R67: the slot size of an input format, in bytes. -/
def slotBytes (inFmt m : Nat) : Nat :=
  if m ≠ 0 then 4096 * m
  else [4096, 4096, 8192, 8192, 16384, 16384, 16384, 16384, 32768, 4096, 4096].getD inFmt 4096

/-- R65, R67: arithmetic cycles of a node over `n` elements (bytes under OR and GF) in m passes. -/
def nodeCycles (inFmt op m n : Nat) : Nat :=
  if op = oGf then m * ceilDiv n 512
  else if op = oOr then ceilDiv n 1024
  else if inFmt = fFP64 then ceilDiv n 128 else ceilDiv n 256

/-- An element on its way: its number, and whether a saturation has touched it. -/
structure Elem where
  v   : Val
  sat : Bool
  deriving DecidableEq, Repr, Inhabited

/-- What a chunk instance counts (R118, R121). -/
structure ChunkEv where
  sat       : Nat := 0
  nonfinIn  : Nat := 0
  nonfinGen : Nat := 0
  underflow : Nat := 0
  deriving DecidableEq, Repr, Inhabited

def ChunkEv.add (a b : ChunkEv) : ChunkEv :=
  ⟨a.sat + b.sat, a.nonfinIn + b.nonfinIn, a.nonfinGen + b.nonfinGen, a.underflow + b.underflow⟩

/-- Counts of one element's input. -/
def inputEv (v : Val) (sat sub : Bool) : ChunkEv := ⟨b2n sat, b2n (!v.isFin), 0, b2n sub⟩

/-- A list cut into pieces of n bytes; the last may be short. -/
def piecesAux : Nat → Nat → List Byte → List (List Byte)
  | 0, _, _ => []
  | _ + 1, _, [] => []
  | fuel + 1, n, l => l.take n :: piecesAux fuel n (l.drop n)
def pieces (n : Nat) (l : List Byte) : List (List Byte) := piecesAux l.length n l

/-- R103 to R105: the element encodings of a block, after its scale byte. -/
def blockWords (b : BlockFmt) (l : List Byte) : List Nat :=
  if b.elems = 16 then (l.drop 1).flatMap (fun x => [x.toNat % 16, x.toNat / 16]) else (l.drop 1).map BitVec.toNat

/-- R62, R100, R105 to R107, R118, R121: the elements of a payload as they enter a node, with what they count. -/
def readElems (code : Nat) (data : List Byte) : List (Elem × ChunkEv) :=
  match blockFmt code with
  | some b =>
    (pieces b.bytes data).flatMap (fun blk =>
      let s := field blk 0 1
      (blockWords b blk).map (fun w =>
        let (v, sat) := scaleElement s (b.fmt.decode w)
        ({ v, sat }, inputEv v sat (s != 255 && b.fmt.subnormal w))))
  | none =>
    let u := fmtUnit code
    (pieces u data).map (fun p =>
      let w := ofLE p
      match floatFmt code with
      | some f => let v := f.decode w; ({ v, sat := false }, inputEv v false (f.subnormal w))
      | none =>
        let i : Int := if code = fINT32 then toSigned 32 w else w
        ({ v := .ofInt i, sat := false }, {}))

/-- R61, R118, R119: what a node does with one element of its two operands. -/
def combine (inFmt op : Nat) (a b : Val) : Val × Ev :=
  if op = oMax then (valMax a b, {})
  else if op = oMin then (valMin a b, {})
  else if op = oOr then (.ofInt (Nat.lor a.toInt.toNat b.toInt.toNat), {})
  else if op = oGf then (.ofInt (Nat.xor a.toInt.toNat b.toInt.toNat), {})
  else if inFmt = fINT32 then addInt32 a b
  else if inFmt = fFP64 then fp64.add a b else fp32.add a b

/-- A node over all elements of its operands. -/
def combineAll (inFmt op : Nat) (l r : List Elem) : List Elem × ChunkEv :=
  let out := List.zipWith (fun a b =>
    let (v, ev) := combine inFmt op a.v b.v
    (({ v, sat := a.sat || b.sat || ev.sat != 0 } : Elem), ev)) l r
  (out.map Prod.fst, out.foldl (fun t e => t.add ⟨e.2.sat, 0, e.2.gen, 0⟩) {})

/-- R63: the operand of a GF node: its bytes times the coefficient of each parity, one parity after the other. -/
def gfOperand (coefs : List Nat) (data : List Byte) : List Elem :=
  coefs.flatMap (fun c => data.map (fun b => ({ v := .ofInt (gfMul c b.toNat), sat := false } : Elem)))

/-- What conversion at the root gives (R118, R121). `vals`: the numbers the output stands for. -/
structure RootOut where
  bytes : List Byte := []
  vals  : List Elem := []
  ev    : ChunkEv := {}
  /-- R124: the blocks' histories after this instance. -/
  hist  : List (Option Int) := []
  /-- R123: the blocks' scale exponents. -/
  kOut  : List Int := []

/-- R118: one element in a floating-point output format. -/
def convertElem (f : FloatFmt) (mode : RoundMode) (e : Elem) : Nat × Elem × ChunkEv :=
  match e.v with
  | .nan => (f.qnan, e, {})
  | .inf n =>
    if f.special = .ieee then (f.encode (.inf n), e, {}) else (f.qnan, { e with v := .nan }, { nonfinGen := 1 })
  | .fin n m x =>
    let (v, sat) := f.round mode (.fin n m x)
    (f.encode v, { v, sat := e.sat || sat }, { sat := b2n sat, underflow := b2n (m != 0 && v.isZero) })

/-- R122: k_cur of a block. -/
def kCur (emax : Int) (l : List Val) : Option Int :=
  (l.filterMap (fun v => match v with
    | .fin _ m e => if m = 0 then none else some (magLog2 m e + 1 - emax)
    | _ => none)).max?

/-- The larger of two terms; an empty term is left out. -/
def optMax (a b : Option Int) : Option Int :=
  match a, b with
  | some x, some y => some (max x y)
  | some x, none => some x
  | none, y => y

/-- R124: a block's history after an instance. -/
def histAfter (decay : Nat) (cur hist : Option Int) : Option Int :=
  (optMax cur (hist.map (· - decay))).map (fun k => max k (-127))

/-- R106, R108, R118, R123: one block of output. -/
def convertBlock (b : BlockFmt) (mode : Nat → RoundMode) (k : Int) (at_ : Nat) (l : List Elem) :
    List Byte × List Elem × ChunkEv :=
  if b.fmt.special = .none ∧ l.any (fun e => !e.v.isFin) = true then
    let infs := (l.filter (fun e => match e.v with
      | .inf _ => true
      | _ => false)).length
    ((255#8 : Byte) :: List.replicate (b.bytes - 1) 0, l.map (fun e => { e with v := .nan }), { nonfinGen := infs })
  else
    let out := (l.zipIdx at_).map (fun p =>
      let (w, e, ev) := convertElem b.fmt (mode p.2) { p.1 with v := p.1.v.scale (-k) }
      (w, { e with v := e.v.scale k }, ev))
    let words := out.map (·.1)
    let body : List Byte :=
      if b.elems = 16 then (List.range 8).map (fun i => BitVec.ofNat 8 (words.getD (2 * i) 0 + 16 * words.getD (2 * i + 1) 0))
      else words.map (BitVec.ofNat 8)
    (BitVec.ofNat 8 (k + 127).toNat :: body, out.map (fun o => o.2.1), out.foldl (fun t o => t.add o.2.2) {})

/-- A list of elements cut into blocks of n, the last padded with +0 (R108). -/
def elemBlocks (n : Nat) (l : List Elem) : List (List Elem) :=
  (List.range (ceilDiv l.length n)).map (fun i =>
    let p := (l.drop (n * i)).take n
    p ++ List.replicate (n - p.length) { v := .fin false 0 0, sat := false })

/-- R114 to R124, R128: conversion of a chunk's accumulators to output format `out`. `mode` by element position; `hist`
the blocks' histories; `first`: with warm-up, the leftmost operand's elements, which stand in for the history. -/
def convertRoot (out : Nat) (mode : Nat → RoundMode) (decay : Nat) (hist : List (Option Int))
    (first : Option (List Elem)) (l : List Elem) : RootOut :=
  match blockFmt out with
  | some b =>
    let blks := elemBlocks b.elems l
    let firsts := (first.map (fun f => (elemBlocks b.elems f).map (fun k => kCur b.emax (k.map (·.v))))).getD hist
    let curs := blks.map (fun k => kCur b.emax (k.map (·.v)))
    let ks := (List.range blks.length).map (fun i =>
      let k := (optMax (curs.getD i none) (firsts.getD i none)).getD (-127)
      max (-127) (min 127 k))
    let outs := blks.zipIdx.map (fun p => convertBlock b mode (ks.getD p.2 (-127)) (b.elems * p.2) p.1)
    { bytes := outs.flatMap (·.1)
      vals := (outs.flatMap (fun o => o.2.1)).take l.length
      ev := outs.foldl (fun t o => t.add o.2.2) {}
      hist := (List.range blks.length).map (fun i => histAfter decay (curs.getD i none) (hist.getD i none))
      kOut := ks }
  | none =>
    match floatFmt out with
    | some f =>
      let outs := l.zipIdx.map (fun p => convertElem f (mode p.2) p.1)
      { bytes := outs.flatMap (fun o => bytesLE (fmtUnit out) o.1)
        vals := outs.map (fun o => o.2.1)
        ev := outs.foldl (fun t o => t.add o.2.2) {} }
    | none =>
      { bytes := l.flatMap (fun e => bytesLE (fmtUnit out) (ofSigned (8 * fmtUnit out) e.v.toInt)), vals := l }

/-- R112, R171: a hall leaf's partial: the accumulators themselves. -/
def partialBytes (acc : Nat) (l : List Elem) : List Byte :=
  match floatFmt acc with
  | some f => l.flatMap (fun e => bytesLE (fmtUnit acc) (f.encode e.v))
  | none => l.flatMap (fun e => bytesLE (fmtUnit acc) (ofSigned (8 * fmtUnit acc) e.v.toInt))

/-- R150: bytes of a chunk's output in format `out` for n elements, and P_out. -/
def outBytes (out n : Nat) : Nat :=
  match blockFmt out with
  | some b => ceilDiv n b.elems * b.bytes
  | none => n * fmtUnit out
def pOut (out n : Nat) : Nat := ceilDiv (outBytes out n) (fmtCap out)

/-- R150: part k of an output. -/
def partBytes (out k : Nat) (l : List Byte) : List Byte :=
  (l.drop (fmtCap out * k)).take (fmtCap out)

/-- R132: the error of one element in ulps: the distance as a fraction of one ulp of the output format at the
reference: numerator and power-of-two exponent of the distance, and the ulp's exponent. -/
structure UlpErr where
  m : Nat
  e : Int
  q : Int
  deriving DecidableEq, Repr, Inhabited

/-- R132: an element that is compared, with its error. `k`: the block's scale exponent, 0 without blocks. -/
def ulpErr (f : FloatFmt) (k : Int) (res : Elem) (ref : Val) : Option UlpErr :=
  match res.v, ref with
  | .fin n1 m1 e1, .fin n2 m2 e2 =>
    if res.sat then none
    else match addExact n1 m1 e1 (!n2) m2 e2 with
      | .fin _ m e =>
        let q := if m2 = 0 then f.qmin + k else max (magLog2 m2 e2 - f.fbits) (f.qmin + k)
        some { m, e, q }
      | _ => none
  | _, _ => none

/-- The error in sixteenths of an ulp, rounded up. -/
def UlpErr.sixteenths (u : UlpErr) : Nat :=
  if u.q ≤ u.e + 4 then scaleNat u.m (u.e + 4) u.q else ceilDiv u.m (2 ^ (u.q - u.e - 4).toNat)

/-- The error is at most a/2 ulp. -/
def UlpErr.within (u : UlpErr) (halves : Nat) : Bool := !magLt halves (u.q - 1) u.m u.e

end Sys2Proof.Machine
end

