-- ==== Sys2Proof/Machine/TypesData.lean ====
section
/-!
DEFINITION. The data of frames, stored objects, buffers, egress queues, scheduling and matching
(04_lasts_and_collectives.md, 06 to 09).
-/

namespace Sys2Proof.Machine

/-- The swatch header (R147). -/
structure SwHeader where
  skind    : Nat := 0
  lastHint : Bool := false
  partsM1  : Nat := 0
  part     : Nat := 0
  context  : Nat := 0
  opnum    : Nat := 0
  chunk    : Nat := 0
  seq      : Nat := 0
  rank     : Nat := 0
  length   : Nat := 0
  weight   : Nat := 0
  deriving DecidableEq, Repr, Inhabited

/-- The operation descriptor (R141). -/
structure Descriptor where
  kind       : Nat := 0
  segment    : Bool := false
  abort      : Bool := false
  context    : Nat := 0
  opnum      : Nat := 0
  outFmt     : Nat := 0
  inFmt      : Nat := 0
  operator   : Nat := 0
  rank       : Nat := 0
  root       : Nat := 0
  target     : Nat := 0
  source     : Nat := 0
  totalBytes : Nat := 0
  chunks     : Nat := 0
  chunkBase  : Nat := 0
  tag        : Nat := 0
  deriving DecidableEq, Repr, Inhabited

/-- The mirror header (R290), with the original of a full copy (pointer and account) or the bytes of a truncated one
(R288). -/
structure MirrorRec where
  session : Nat := 0
  sched   : Bool := false
  cut     : Bool := false
  trunc   : Bool := false
  egress  : Bool := false
  port    : Nat := 0
  vc      : Nat := 0
  copied  : Nat := 0
  origLen : Nat := 0
  time    : Nat := 0
  seq     : Nat := 0
  dropped : Nat := 0
  orig    : Option (Nat × Nat) := none
  bytes   : List Byte := []
  deriving DecidableEq, Repr, Inhabited

/-- What a frame carries between its link header and trailer (R307), and what is stored of it (R263). -/
inductive Item where
  | control (ckind : Nat) (data : List Byte)
  | swatch (h : SwHeader) (data : List Byte)
  | descriptor (d : Descriptor)
  | mirror (m : MirrorRec)
  | host (data : List Byte)
  /-- An internal object: a staging, spill, transfer or load block (R263). -/
  | block (bytes : Nat)
  deriving DecidableEq, Repr, Inhabited

/-- A frame (R307). -/
structure Frame where
  sched : Bool
  vc    : Nat
  fseq  : Nat
  item  : Item
  deriving DecidableEq, Repr, Inhabited

/-- A buffer's tag (R268). `bad`: its SECDED word is uncorrectable; `stuck`: rewriting does not cure it;
`withdrawn`: it is not to be allocated (R273). -/
structure Tag where
  held      : Bool := false
  gen       : Nat := 0
  account   : Nat := 0
  refcnt    : Nat := 0
  next      : Nat := 0
  bad       : Bool := false
  stuck     : Bool := false
  withdrawn : Bool := false
  deriving DecidableEq, Repr, Inhabited

/-- A free list (R265): the buffers never allocated since the list was built, `fresh` to `stop - 1` in ascending
order, then the cells freed since, oldest first, each with the store cycle from which it can be allocated (R266). In a
colour list of pool 1 the first two count pairs. -/
structure FreeList where
  fresh : Nat := 0
  stop  : Nat := 0
  ret   : List (Nat × Nat) := []
  deriving DecidableEq, Repr, Inhabited

/-- A copy for one target: the group and last of its queue, and the header it carries but for SEQ. -/
structure Target where
  group  : Nat
  last   : Nat
  header : SwHeader
  deriving DecidableEq, Repr, Inhabited

/-- Where an arrival that waits for a buffer goes once it has one. -/
inductive Purpose where
  /-- Into the switch as a swatch or descriptor that arrived on `port`; `vc` while it stands in the ingress FIFO, none for
  a scheduled frame; `off`: outside every window of its last (R236). -/
  | arrival (port : Nat) (vc : Option Nat) (off : Bool)
  /-- To an egress port as an opportunistic frame. -/
  | forward (port dst vc : Nat)
  /-- To the Herith itself or the host port, as an opportunistic frame that stands in the ingress FIFO (R196, R433). -/
  | own (port vc : Nat)
  /-- The Herith's own output, to these targets. -/
  | output (targets : List Target)
  deriving DecidableEq, Repr, Inhabited

/-- An allocation request (R266, R267): its requester (0 to 7 port dies, 8 to 11 core dies, 12 to 15 memory dies, 16
the management die), account, object, the store cycle in which it was made, that of its first refusal, and that in which
it was last decided. -/
structure AllocReq where
  requester : Nat
  account   : Nat
  item      : Item
  purpose   : Purpose
  since     : Nat
  refused   : Option Nat := none
  tried     : Option Nat := none
  deriving DecidableEq, Repr, Inhabited

/-- A free beyond the 16 that its list serves in a store cycle (R266): the object's pointer, the account it carries, who
makes it, and the store cycle in which it was made. -/
structure FreeReq where
  ptr       : Nat
  account   : Nat
  requester : Nat
  since     : Nat
  deriving DecidableEq, Repr, Inhabited

/-- The buffer pools (08_buffer_pools.md): tags keyed [cell], free lists keyed [pool, 0 scheduled or 1 opportunistic,
colour], stored objects keyed [first cell], requests waiting in arrival order, and frees waiting in the order they are
served. -/
structure BpmState where
  tags     : SMap Tag := {}
  lists    : SMap FreeList := {}
  objects  : SMap (Option Item) := {}
  requests : List AllocReq := []
  frees    : List FreeReq := []
  deriving DecidableEq, Repr, Inhabited

/-- A pointer on a scheduled egress queue: the object, its account, the header this copy carries, and the store cycle
from which it is visible (R228, R231). -/
structure QEntry where
  ptr     : Nat
  account : Nat
  header  : SwHeader
  visible : Nat
  deriving DecidableEq, Repr, Inhabited

/-- A pointer that found its target fenced in the present store cycle: for the queue of a last towards a group (R219). -/
structure Refused where
  group     : Nat
  last      : Nat
  entry     : QEntry
  requester : Nat
  deriving DecidableEq, Repr, Inhabited

/-- What the mirror sessions may take a copy of at the end of the present store cycle: a pointer enqueued for port `dst` (R287).
-/
structure LateCopy where
  dst     : Nat
  sched   : Bool
  vc      : Nat
  context : Option Nat
  ptr     : Nat
  account : Nat
  deriving DecidableEq, Repr, Inhabited

/-- A frame of an opportunistic queue: its pointer and account, virtual channel, length on the link, and its session where
it is a mirror copy. A scheduled buffer that an opportunistic-only port sends has its header with it (R229). -/
structure OppEntry where
  ptr     : Nat
  account : Nat
  vc      : Nat
  length  : Nat
  session : Option Nat
  /-- Cells still to be read into the egress FIFO (R242). -/
  pendingCells : Nat
  sched   : Option SwHeader := none
  /-- The store cycle in which it was enqueued (R221). -/
  since   : Nat := 0
  /-- It has been counted as held by the shaper (R281), and for which guard band as held by the gate: the store cycle
  after the one in which its window starts (R233). -/
  held    : Bool := false
  guard   : Nat := 0
  deriving DecidableEq, Repr, Inhabited

/-- Where a frame that is being sent was taken from: its place in the scheduled queue of a group and last, and how many
starts of the group came before it in its store cycle; or the opportunistic FIFO; with what its start changed there (R234).
-/
inductive Origin where
  | queue (group last place order : Nat) (e : QEntry)
  | fifo (e : OppEntry) (vcPtr charge credits : Nat) (lost : Bool)
  deriving DecidableEq, Repr, Inhabited

/-- A frame on its way out of a port: until its last byte has left. -/
structure Sending where
  ptr     : Nat
  account : Nat
  sched   : Bool
  header  : SwHeader
  frame   : Frame
  /-- Store cycle from which the port is free. -/
  until_  : Nat
  session : Option Nat
  /-- The link went down while it left (R217). -/
  broken  : Bool
  /-- A cell was uncorrectable: it carries a bad link check (R240). -/
  bad     : Bool := false
  /-- The store cycle in which it started. -/
  since   : Nat := 0
  origin  : Origin
  deriving DecidableEq, Repr, Inhabited

/-- A frame received and waiting for its landing (R235): its last, and the store cycle in which it was complete. -/
structure Landing where
  last     : Nat
  done     : Nat
  frame    : Frame
  deriving DecidableEq, Repr, Inhabited

/-- A swatch on its way through the resequencer: arrival port, class, virtual channel, header, pointer and account. -/
structure Arrived where
  port    : Nat
  sched   : Bool := true
  vc      : Nat := 7
  header  : SwHeader
  ptr     : Nat
  account : Nat
  deriving DecidableEq, Repr, Inhabited

/-- A descriptor that is stored: arrival port, class, virtual channel, pointer and account. -/
structure ArrivedDesc where
  port    : Nat
  sched   : Bool := false
  vc      : Nat := 0
  desc    : Descriptor
  ptr     : Nat
  account : Nat
  deriving DecidableEq, Repr, Inhabited

/-- An item held for later: an early arrival (R167), or held by a drain (R254) or a cut (R348). -/
inductive HeldItem where
  | swatch (a : Arrived)
  | desc (a : ArrivedDesc)
  deriving DecidableEq, Repr, Inhabited

/-- A pointer on its way to another port die (R246): ready in this store cycle. -/
structure Handoff where
  ready : Nat
  item  : Arrived
  deriving DecidableEq, Repr, Inhabited

/-- A resequencer stream (R246 to R248). -/
structure Stream where
  context : Nat
  opnum   : Nat
  rank    : Nat
  group   : Nat
  next    : Nat
  held    : List Arrived
  deriving DecidableEq, Repr, Inhabited

/-- The numbering of landed frames in one ingress window (R235). -/
structure WinLanding where
  round   : Nat
  entry   : Nat
  landing : Nat
  deriving DecidableEq, Repr, Inhabited

/-- Scheduled switching (07_scheduled_switching.md). -/
structure SchedState where
  /-- Scheduled queues, keyed [lowest port of the spray group, last]. -/
  queues    : SMap (List QEntry) := {}
  /-- SEQ numbering of the Herith's own output (R149), keyed [context, opnum, group]. -/
  txSeq     : SMap Nat := {}
  /-- Frames received and not yet landed, keyed [port]. -/
  landing   : SMap (List Landing) := {}
  /-- Last ingress window landed in, keyed [port, last]. -/
  winLand   : SMap (Option WinLanding) := {}
  handoffs  : List Handoff := []
  /-- Swatches at each port die's resequencer input with the store cycle in which they reached it, keyed [die]. -/
  reseqIn   : SMap (List Handoff) := {}
  /-- Streams, keyed [die]. -/
  streams   : SMap (List Stream) := {}
  /-- Swatches released and not yet checked by R166, oldest first. -/
  released  : List Arrived := []
  /-- Descriptors stored and not yet decided. -/
  descs     : List ArrivedDesc := []
  /-- Control frames addressed to the Herith itself: arrival port, payload and pointer (R196). -/
  grantsIn  : List (Nat × List Byte × Nat) := []
  /-- Frames being sent, keyed [port]. -/
  sending   : SMap (Option Sending) := {}
  /-- Store cycle from which each port is free, keyed [port]. -/
  freeAt    : SMap Nat := {}
  /-- The window entry and round for which a scheduled hold was last counted, keyed [port]. -/
  heldWin   : SMap (Option (Nat × Nat)) := {}
  /-- Store cycle in which the current round started, its length, and that of the round before (R224). -/
  roundStart : Nat := 0
  roundLen   : Nat := 0
  prevLen    : Nat := 0
  /-- The ports whose bank the present round's start has switched, with the bank they had before (R235). -/
  prevBanks  : List (Nat × Nat) := []
  running    : Bool := false
  /-- Degraded groups to switch at the next round start (R256). -/
  degPending : List Nat := []
  /-- Live change: since when, and the lasts of it. -/
  chgSince  : Nat := 0
  chgLasts  : Nat := 0
  chgBank   : Nat := 0
  /-- Items held while the change drains, with their contexts, oldest first (R254). -/
  chgHeld   : List (Nat × HeldItem) := []
  /-- Store cycle in which SWITCHING began. -/
  chgSwitch : Nat := 0
  /-- Since when each port has been fenced (R362), keyed [port]. -/
  fenceSince : SMap (Option Nat) := {}
  /-- Ports whose queues are being purged (R220). -/
  purging   : List Nat := []
  /-- Pointers that found their targets fenced in the present store cycle, those of opportunistic frames with their ingress die
  and port (R219); what may be copied of it (R287). -/
  refused    : List Refused := []
  refusedOpp : List (Nat × Nat × OppEntry) := []
  copies     : List LateCopy := []
  /-- Virtual output queues, keyed [ingress die, egress port, virtual channel]. -/
  voq       : SMap (List OppEntry) := {}
  /-- Opportunistic egress FIFOs, keyed [port]. -/
  oppFifo   : SMap (List OppEntry) := {}
  grantPtr  : SMap Nat := {}
  acceptPtr : SMap Nat := {}
  /-- Round robin of virtual channels at each port's opportunistic start, keyed [port]. -/
  vcPtr     : SMap Nat := {}
  deriving DecidableEq, Repr, Inhabited

/-- Shapers, policers and mirrors (09_shaping_and_mirroring.md). -/
structure ShapeState where
  /-- Configurations written and not yet in effect, with the store cycle in which they landed, keyed [0 shaper or 1
  policer, port, virtual channel] (R283). -/
  waiting : SMap (Option (Nat × Nat)) := {}
  /-- Copies taken since each session was enabled, and not taken since its previous copy, keyed [session] (R290). -/
  mirSeq  : SMap Nat := {}
  mirLost : SMap Nat := {}
  deriving DecidableEq, Repr, Inhabited

end Sys2Proof.Machine
end

