-- ==== Sys2Proof/Machine/TypesCompute.lean ====
section
/-!
DEFINITION. The data of clusters, welt memory, holds and numeric monitors (02_reduction_lanes.md, 03_numerics.md,
05_welt_memory.md).
-/

namespace Sys2Proof.Machine

/-- Where an admitted chunk has its slots (R182). -/
inductive Place where
  | welt | borrowed | spill
  deriving DecidableEq, Repr, Inhabited

/-- A numeric state record (R125). `hist`: k_hist of each output block. -/
structure NumRec where
  zrun   : Nat := 0
  warm   : Nat := 0
  raised : Bool := false
  hist   : List (Option Int) := []
  deriving DecidableEq, Repr, Inhabited

/-- A chunk that waits for admission or is admitted (R69, R187). Cycles are arithmetic cycles. -/
structure Chunk where
  last      : Nat
  /-- The cycle in which its first input was accepted (R181). -/
  since     : Nat
  /-- Admitted again after immediate retirement: ahead of every waiting chunk (R184). -/
  ahead     : Bool := false
  /-- R182 has returned WAIT for want of space for it. -/
  waited    : Bool := false
  place     : Option Place := none
  cluster   : Nat := 0
  /-- Its granules, in the order of its slots: of its cluster's welt memory, or of its die's spill region (R69, R186).
  -/
  grans     : List Nat := []
  /-- The first arithmetic cycle in which it may be decided (R95). -/
  earliest  : Nat := 0
  /-- Admission cycle, and its number among admissions (R74). -/
  admitAt   : Nat := 0
  admitSeq  : Nat := 0
  replays   : Nat := 0
  /-- The number of the present attempt: it rises with every replay and admission. -/
  attempt   : Nat := 0
  /-- Nodes issued: the post-order cursor. -/
  issued    : Nat := 0
  /-- First and last issue cycle of the latest node. -/
  firstAt   : Nat := 0
  lastAt    : Nat := 0
  /-- Bytes of the operand buffer that the latest node gives back when its last word has issued (R72). -/
  issuing   : Nat := 0
  /-- Operands requested, with the cycle, and operands in the operand buffer (R72). -/
  requested : List (Nat × Nat) := []
  buffered  : List Nat := []
  /-- The slots in use, the highest first: node and partial result (R71). -/
  slots     : List (Nat × List Elem) := []
  /-- The root's result, in the output buffer. -/
  root      : Option (List Elem) := none
  ev        : ChunkEv := {}
  /-- The numeric state record, once it has arrived (R126). -/
  record    : Option NumRec := none
  /-- Its uncorrectable record has started warm-up and is counted in NUM_WARM, until it is written back (R128). -/
  rewarmed  : Bool := false
  /-- Spilled results: leaving the operand buffer, in GDDR7 (from this cycle on), requested back (with the cycle), and
  back (R188). -/
  leaving   : List Nat := []
  away      : List (Nat × Nat) := []
  fetching  : List (Nat × Nat) := []
  back      : List Nat := []
  /-- Nodes without a partial operand that have their s bytes of space for the result (R188). -/
  room      : List Nat := []
  /-- Parity chunks read for a regrowth, by operand (R367). -/
  parity    : List (Nat × List Byte) := []
  deriving DecidableEq, Repr, Inhabited

/-- R182: granules that the chunk holds. -/
def Chunk.granules (ch : Chunk) : Nat := ch.grans.length

/-- What a chunk has returned in a cycle: granules that no admission of that cycle can use (R183), and operand-buffer
space. -/
structure Freed where
  cluster  : Nat
  last     : Nat
  place    : Place
  grans    : List Nat
  cycle    : Nat
  /-- Its admission cycle (R74), and the bytes of the operand buffer that it gives back (R78). -/
  admitAt  : Nat := 0
  bytes    : Nat := 0
  deriving DecidableEq, Repr, Inhabited

/-- R188: a request to a spill engine: a write-back of the result of this node of a chunk, or its fetch, and the
arithmetic cycle from which it can be served. -/
structure SpillJob where
  context : Nat
  chunk   : Nat
  attempt : Nat
  node    : Nat
  write   : Bool
  since   : Nat
  deriving DecidableEq, Repr, Inhabited

/-- The hold of one last (R190 to R196): the core dies that have stopped, what they reported (context, one more than
the highest index), the spines that hold the leaf, and the contexts that have opened during the hold (R195). -/
structure Hold where
  stopped : List Nat := []
  highs   : List (Nat × Nat) := []
  spines  : List Nat := []
  late    : List Nat := []
  deriving DecidableEq, Repr, Inhabited

/-- A spine's hold as a leaf knows it (R193, R196). -/
structure SpineHold where
  epoch  : Nat := 0
  held   : Bool := false
  limits : List (Nat × Nat) := []
  deriving DecidableEq, Repr, Inhabited

/-- A committed partial that waits: for a lower chunk of its context to be sent, or for a spine that holds it back
(R196, R197). -/
structure HeldPartial where
  last      : Nat
  spine     : Nat
  ptr       : Nat
  account   : Nat
  requester : Nat
  target    : Target
  /-- Taken back from the egress queue when the hold arrived: it is numbered and visible from this store cycle on. -/
  queued    : Option Nat := none
  deriving DecidableEq, Repr, Inhabited

/-- A sample of the shadow check (R131, R132): the inputs it holds, what it has to read and add, and the errors of the
elements compared. -/
structure Sample where
  context : Nat
  chunk   : Nat
  inputs  : List Arrived
  inCells : Nat
  outCells : Nat
  adds    : Nat
  errs    : List UlpErr
  deriving DecidableEq, Repr, Inhabited

/-- A core die's numeric monitor: a sample in progress, since when, whether its inputs are read, and one waiting. -/
structure Monitor where
  current : Option Sample := none
  since   : Nat := 0
  read    : Bool := false
  waiting : Option Sample := none
  deriving DecidableEq, Repr, Inhabited

/-- A re-pointing of the bucket table: its arithmetic cycle, the table before it and the logical clusters that the cycle
has unmapped (R94). -/
structure Repointing where
  cycle  : Nat
  before : List Nat
  lost   : List Nat
  deriving DecidableEq, Repr, Inhabited

/-- The clusters. -/
structure ComputeState where
  /-- CL_OWNER: the logical cluster that owns each of the 16,384 buckets; empty before stage CONFIG (R94). -/
  owners   : List Nat := []
  repointed : Option Repointing := none
  /-- Chunks, keyed [context, chunk]. -/
  chunks   : SMap (Option Chunk) := {}
  freed    : List Freed := []
  /-- The cycle from which a cluster may issue its next node, keyed [physical cluster]. -/
  freeAt   : SMap Nat := {}
  /-- The latest check failure of a cluster, in root cycles, keyed [physical cluster] (R85). -/
  lastFail : SMap (Option Nat) := {}
  /-- When each check failure of the last hour became known, in root cycles (R358). -/
  failures : List Nat := []
  admitSeq : Nat := 0
  holds    : SMap Hold := {}
  /-- Keyed [last, spine]. -/
  spines   : SMap SpineHold := {}
  parts    : List HeldPartial := []
  /-- The spill engines' requests, oldest first, and the cycle from which each is free, keyed [memory die] (R188). -/
  spills    : SMap (List SpillJob) := {}
  spillFree : SMap Nat := {}
  /-- The spare under test and since when, and the spare tested last (R89). -/
  testing  : Option (Nat × Nat) := none
  tested   : Option Nat := none
  /-- Keyed [core die]. -/
  monitors : SMap Monitor := {}
  deriving DecidableEq, Repr, Inhabited

/-- R82, R83: the path on which a word fails its check. -/
inductive CheckPath where
  | significand | exponent | parity | selection | welt
  deriving DecidableEq, Repr

end Sys2Proof.Machine
end

