-- ==== Sys2Proof/Machine/Memory.lean ====
section
/-!
DEFINITION. Byte memories: lists of address and byte pairs in one canonical form. An address that is not listed reads
0 (DESIGN CHOICE, log 4).
-/

namespace Sys2Proof.Machine

/-- A memory: addresses strictly rising, and no listed byte is 0. -/
structure Memory where
  cells : List Host.Cell := []
  deriving DecidableEq, Repr, Inhabited

/-- What an address that is not listed reads as. -/
def Memory.blank : Byte := 0

def cellsFind (a : Nat) : List Host.Cell → Byte
  | [] => Memory.blank
  | (k, b) :: t => if k = a then b else if a < k then Memory.blank else cellsFind a t

def cellsErase (a : Nat) : List Host.Cell → List Host.Cell
  | [] => []
  | (k, b) :: t => if k = a then t else if a < k then (k, b) :: t else (k, b) :: cellsErase a t

def cellsInsert (a : Nat) (v : Byte) : List Host.Cell → List Host.Cell
  | [] => [(a, v)]
  | (k, b) :: t => if k = a then (a, v) :: t else if a < k then (a, v) :: (k, b) :: t else (k, b) :: cellsInsert a v t

/-- One byte read, and written. -/
def Memory.read (m : Memory) (a : Nat) : Byte := cellsFind a m.cells
def Memory.write (m : Memory) (a : Nat) (v : Byte) : Memory :=
  { cells := if v = Memory.blank then cellsErase a m.cells else cellsInsert a v m.cells }

/-- n bytes from `a`. -/
def Memory.readN (m : Memory) (a n : Nat) : List Byte := (List.range n).map (fun k => m.read (a + k))

/-- Bytes written from `a` on. -/
def Memory.writeN (m : Memory) (a : Nat) : List Byte → Memory
  | [] => m
  | b :: t => (m.write a b).writeN (a + 1) t

/-- The n bytes from `a` on take the value that unlisted bytes have. -/
def Memory.erase (m : Memory) (a n : Nat) : Memory :=
  { cells := m.cells.filter (fun c => decide (c.1 < a ∨ a + n ≤ c.1)) }

/-- Addresses strictly rising from `lo` on, and no byte that an unlisted address would read as. -/
def cellsWf (lo : Nat) : List Host.Cell → Bool
  | [] => true
  | (k, b) :: t => decide (lo ≤ k) && decide (b ≠ Memory.blank) && cellsWf (k + 1) t

/-- The canonical form. -/
def Memory.wf (m : Memory) : Bool := cellsWf 0 m.cells

end Sys2Proof.Machine
end

