-- ==== Sys2Proof/Machine/TypesHost.lean ====
section
/-!
DEFINITION. The data of the host mailbox, of power, boot, security and of the management port
(13_memory_tiers_and_host.md, 14_power_boot_security.md).
-/

namespace Sys2Proof.Machine

/-- A long operation that is RUNNING in a slot (R422, R431). -/
structure LongOp where
  opcode : Nat
  tag    : Nat
  irq    : Bool
  flags  : Nat
  args   : List Nat
  since  : Nat
  /-- The command's own row has begun it: a plan load has written its records (R426), a member replace has rewritten its
  entry and waits (R429). -/
  loading : Bool := false
  progress : Nat := 0
  part   : Bool := false
  deriving DecidableEq, Repr, Inhabited

/-- The host port and mailbox. -/
structure HostState where
  /-- Keyed [slot]; none: not RUNNING. -/
  ops  : SMap (Option LongOp) := {}
  /-- The image of the accepted or checked plan: its header's digests and role, its own digest, and what is to be
  restored (R425 to R428). -/
  planFw   : Nat := 0
  planDum  : Nat := 0
  planRole : Nat := 0
  planDigest : Nat := 0
  restoreLasts : Nat := 0
  slotSel  : Nat := 0
  restore  : Bool := false
  shards   : Bool := false
  /-- A mailbox command that has landed and waits for its decision: the value written to HST_MBX_CMD, and the root cycle of the
  decision (R422). -/
  deciding : Option (Nat × Nat) := none
  deriving DecidableEq, Repr, Inhabited

/-- The disabled-unit map apart from the clusters (R39): disabled units, one bit each. -/
structure UnitMap where
  ports    : Nat := 0
  engines  : Nat := 0
  groups   : Nat := 0
  channels : Nat := 0
  cxl      : Nat := 0
  deriving DecidableEq, Repr, Inhabited

/-- Power and reset. -/
structure PowerState where
  /-- PWR_GOOD is high, and the package has power: not dark (R447 to R449). -/
  good    : Bool := true
  dark    : Bool := false
  /-- PWR_GOOD has risen and the power stages wait for 39.0 V (R436). -/
  waiting : Bool := false
  /-- RESET_N is held low (R450). -/
  inReset : Bool := false
  /-- Domains of units that the configuration image marks disabled, one bit each (R440). -/
  marked  : Nat := 0
  /-- The disabled-unit map's units. -/
  units   : UnitMap := {}
  /-- Cluster quads that have gone off, one bit each: off until the next boot (R440). -/
  quadsOff : Nat := 0
  /-- Domains switched on and not yet powered, with the root cycle of the switch, keyed [domain] (R442). -/
  powering : SMap (Option Nat) := {}
  lastOn  : Option Nat := none
  /-- THERM_TRIP holds every domain except 408 and 411 off (R444). -/
  tripped : Bool := false
  /-- Sensors whose latest reading was at or above TRIP, one bit each. -/
  hot     : Nat := 0
  /-- A chip reset came while the hottest sensor read above WARN: boot waits (R444). -/
  holdRom : Bool := false
  /-- The board value of IDCODE, sampled at reset release (R465). -/
  boardId : Nat := 0
  deriving DecidableEq, Repr, Inhabited

/-- Boot: the images read into SRAM (R457), the checks passed, and ports' waits. `loaded`: the RWL fields as the
configuration image set them, keyed as in the register file: their reset values in a plan load (R14, R426). -/
structure BootState where
  fw      : List Byte := []
  cfg     : List Byte := []
  fwSlot  : Nat := 0
  cfgSlot : Nat := 0
  linksAt : Nat := 0
  /-- The header copy with the higher SEQ, and its SEQ (R453). -/
  copy    : Nat := 0
  seq     : Nat := 0
  /-- Next persistence entry and its SEQ (R456). -/
  entry   : Nat := 0
  entrySeq : Nat := 0
  loaded  : SMap (Option Nat) := {}
  /-- This boot follows PWR_GOOD rising, not a chip reset (R400), and when it began. -/
  cold    : Bool := true
  since   : Nat := 0
  deriving DecidableEq, Repr, Inhabited

/-- Fuses (R460). An unfused OWNER_DIGEST is none. Only the derivation of the identity key reads the device secret. -/
structure Fuses where
  rootDigest  : Nat := 0
  ownerDigest : Option Nat := none
  minSvn      : Nat := 0
  keyEpoch    : Nat := 0
  deviceSecret : Nat := 0
  deriving DecidableEq, Repr, Inhabited

/-- The last request of a management peer and the stored response (R472). -/
structure PeerLast where
  seq    : Nat
  type   : Nat
  status : Nat
  count  : Nat
  data   : List Nat
  deriving DecidableEq, Repr, Inhabited

/-- An order of one port class, kept for the management cycle in which it came (R475). -/
structure Order where
  thing : Nat
  index : Nat
  host  : Bool
  code  : Nat
  cycle : Nat
  deriving DecidableEq, Repr, Inhabited

/-- Security, the NVM and the management port. `secret`: the volatile copies of the device keys are present (R467). -/
structure SecState where
  nvm     : Memory := {}
  fuses   : Fuses := {}
  secret  : Bool := false
  /-- The identity area: the identity public key with its key epoch (R461), the wrapped spore-set key with its key epoch
  (R462), and the debug token's digest (R463). -/
  stored  : Option Nat := none
  storedKey : Nat := 0
  wrapped : Option Nat := none
  wrappedKey : Nat := 0
  tokenDigest : Option Nat := none
  tapOpen : Bool := false
  peers   : SMap (Option PeerLast) := {}
  orders  : List Order := []
  /-- The MAC addresses of the peers of the last configuration that loaded (R459). -/
  lastPeers : List Nat := []
  deriving DecidableEq, Repr, Inhabited

/-- How the next unit of a memory command fails. -/
inductive MemFail where
  /-- A read of the space is uncorrectable: for GDDR7 the word at this address; a write to an expander completes with an
  error. -/
  | uncorr (addr : Nat)
  /-- A host memory access completed in error or timed out. -/
  | dma
  deriving DecidableEq, Repr

/-- What a plan load reads from host memory. -/
inductive PlanFetch where
  /-- The image. -/
  | image (bytes : List Byte)
  /-- A host memory access completed in error or timed out after so many 4 KiB units. -/
  | failed (units : Nat)
  deriving DecidableEq, Repr

/-- R467: where the erasure of an accepted request stops, if it does. -/
inductive EraseFail where
  /-- Step 2: the fuse does not read back blown. -/
  | fuse
  /-- Step 3: a sector does not read back blank. -/
  | sector
  deriving DecidableEq, Repr

/-- R470: why a frame is not executed. -/
inductive MgtIgnored where
  /-- Its source is no configured peer, its destination is another address, or its EtherType differs. -/
  | stranger | otherAddress | otherType
  /-- A bad FCS or a malformed payload. -/
  | bad
  /-- A request of a peer (by MAC address and SEQ) with a TYPE that is not listed: answered BAD_TYPE (R471). -/
  | unlisted (src seq type : Nat)
  deriving DecidableEq, Repr

end Sys2Proof.Machine
end

