-- ==== Sys2Proof/Machine/TypesLink.lean ====
section
/-!
DEFINITION. The data of the fabric links: lanes, blocks, flow control, time transfer and discovery
(10_fabric_links.md).
-/

namespace Sys2Proof.Machine

/-- The states of a receive lane (R301). -/
inductive LaneSt where
  | hunt | verify | locked
  deriving DecidableEq, Repr, Inhabited

/-- A PRBS generator or checker (R313): the latest bits of its pattern, newest first; of a checker, the symbols that have
matched in a row while it has no lock, and with lock the symbols seen and which of the last 1,024 mismatched. -/
structure Prbs where
  bits     : List Bool := []
  run      : Nat := 0
  symbols  : Nat := 0
  mismatch : List Nat := []
  deriving DecidableEq, Repr, Inhabited

/-- A received block (R305): its header, its 64 bytes, and whether it lay in an uncorrectable codeword. -/
structure RxBlock where
  header : Nat
  data   : List Byte
  uncorr : Bool
  deriving DecidableEq, Repr, Inhabited

/-- A receive lane (R300 to R302). -/
structure Lane where
  state     : LaneSt := .hunt
  signal    : Bool := false
  count     : Nat := 0
  misses    : Nat := 0
  uncorrRun : Nat := 0
  lane      : Nat := 0
  pcount    : Nat := 0
  /-- When its latest comma block arrived, in root cycles. -/
  arrived   : Nat := 0
  checker   : Prbs := {}
  generator : Prbs := {}
  /-- The last 58 payload bits as received, for the descrambler (R298), and the blocks not yet taken (R305). -/
  scrambled : Nat := 0
  blocks    : List RxBlock := []
  deriving DecidableEq, Repr, Inhabited

/-- A comma block's fields (R300). -/
structure Comma where
  port   : Nat
  pcount : Nat
  mode   : Nat
  lane   : Nat
  deriving DecidableEq, Repr, Inhabited

/-- One part of an identity block (R329). -/
structure IdentPart where
  part : Nat
  iseq : Nat
  body : List Byte
  deriving DecidableEq, Repr, Inhabited

/-- A control block that passed its check (R309). -/
structure CtlBlock where
  ctype  : Nat
  cflags : Nat
  iseq   : Nat
  body   : List Byte
  deriving DecidableEq, Repr, Inhabited

/-- A time message (R324): messageType (0 Sync, 2 Pdelay_Req, 3 Pdelay_Resp), domainNumber, flagField, correctionField
in 1/65,536 ns, sourcePortIdentity, sequenceId, the body's timestamp in ns, and of a Pdelay_Resp the
requestingPortIdentity. -/
structure TimeMsg where
  kind   : Nat
  domain : Nat
  flags  : Nat := 0
  corr   : Int := 0
  source : Nat
  seq    : Nat
  ns     : Nat := 0
  target : Nat := 0
  deriving DecidableEq, Repr, Inhabited

/-- A codeword as the FEC decoder gives it (R298, R310): the symbols corrected, `none` uncorrectable, and its 5,140 payload
bits as they came, bit 0 first. -/
structure Codeword where
  corrected : Option Nat
  payload   : Nat
  deriving DecidableEq, Repr, Inhabited

/-- One port's link (R302 to R335). -/
structure Port where
  deskewFails : Nat := 0
  upSince     : Option Nat := none
  /-- FSEQ of the next frame sent, and expected (R307, R308). -/
  txSeq       : Nat := 0
  rxSeq       : Nat := 0
  /-- Received bytes that are not yet framed; a marked byte lay in an uncorrectable codeword (R306, R308). -/
  rx          : List (Byte × Bool) := []
  /-- The bytes up to the next idle byte or START go with a frame already discarded (R308). -/
  rxSkip      : Bool := false
  /-- The number of the next block slot received (R305). -/
  slot        : Nat := 0
  /-- PRT_LINK_CFG.CREDIT when the port last went UP (R321). -/
  ownCredit   : Nat := 0
  /-- Ingress FIFO occupancy by virtual channel, in bytes (R315). -/
  fifo        : List Nat := []
  /-- Virtual channels over their own threshold, and the total's state (R316). -/
  xoffOwn     : List Bool := []
  xoffTotal   : Bool := false
  /-- The XOFF state last sent (R317). -/
  xoffSent    : Nat := 0
  flowSince   : Nat := 0
  /-- Since when the neighbour has held each virtual channel in XOFF, and whether a stall was counted (R318). -/
  rxXoffSince : List (Option Nat) := []
  stalled     : List Bool := []
  /-- Credits returned to the neighbour since UP, and its totals to us, by virtual channel (R322). -/
  returned    : List Nat := []
  peerTotals  : List Nat := []
  /-- Identity blocks sent since UP (R309), the part held, and the accepted identity (R329, R331). -/
  iseq        : Nat := 0
  identHeld   : Option IdentPart := none
  /-- Control blocks received and not yet processed. -/
  ctl         : List CtlBlock := []
  identity    : List Byte := []
  agreedSent  : Nat := 0
  concluded   : Bool := false
  /-- Symbols and uncorrectable codewords of the current second, and symbols of the last 60 complete ones (R311). -/
  secSyms     : Nat := 0
  secUncorr   : Nat := 0
  seconds     : List Nat := []
  /-- A block reset holds the port OFF until then (R385). -/
  offUntil    : Option Nat := none
  /-- Last delay measurements, newest first, and when the Pdelay_Req not yet answered was sent, in fourteenths of a ns of
  local time (R325). -/
  delays      : List Nat := []
  reqSent     : Option Nat := none
  /-- sequenceId of the next Sync and Pdelay_Req sent (R324). -/
  syncSeq     : Nat := 0
  reqSeq      : Nat := 0
  lastSync    : Option Nat := none
  syncSent    : Nat := 0
  deriving DecidableEq, Repr, Inhabited

/-- A laser source module (R293 to R296). -/
structure Laser where
  lowSamples : Nat := 0
  /-- Consecutive readings below ALARM of each output. -/
  lowRuns    : List Nat := []
  enabledAt  : Option Nat := none
  /-- Bias references, latched 60 s after ENABLE was set (R358). -/
  reference  : List Nat := []
  /-- A block reset drives LSEN low until then (R385). -/
  resetUntil : Option Nat := none
  deriving DecidableEq, Repr, Inhabited

/-- The fabric links. Lanes are keyed [port, physical lane], ports [port], laser modules [module]. -/
structure LinkState where
  lanes  : SMap Lane := {}
  ports  : SMap Port := {}
  lasers : SMap Laser := {}
  /-- Consecutive Syncs within LOCK_NS (R326). -/
  goodSyncs : Nat := 0
  /-- When the root PLL was last steered, in root cycles (R446). -/
  steeredAt : Nat := 0
  slave     : Option Nat := none
  /-- Fourteenths of a ns of local time past PRT_TIME_NOW. -/
  timeFrac  : Nat := 0
  /-- Ports that go down in the next cycle: they have been remapped in this one (R337). -/
  downNext  : List Nat := []
  deriving DecidableEq, Repr, Inhabited

end Sys2Proof.Machine
end

