-- ==== Sys2Proof/Syntax.lean ====
section
/-!
DEFINITION. The commands of the block: one constructor per row of the opcode table, in the table's order, each with the
operands that the event or the access brings from outside.
-/

namespace Sys2Proof

open Sys2Proof.Machine

/-- The commands. -/
inductive Instr where
  /-- REGISTER_WRITE: R10 to R23, R43, R481: a write of 32 or 64 bits, from a port class. -/
  | registerWrite (cls : PortClass) (addr : Nat) (width : Nat) (value : Nat)
  /-- RC_REGISTER_READ: R10, R16, R18, R20, R21: a read of 32 or 64 bits; RC fields are returned and cleared. -/
  | rcRegisterRead (cls : PortClass) (addr : Nat) (width : Nat)
  /-- LOW_WORD_READ: R11: a 32-bit read of a low word latches the high word for the class. -/
  | lowWordRead (cls : PortClass) (addr : Nat)
  /-- HIGH_WORD_READ: R11: a 32-bit read of a high word returns the latch, or the present word. -/
  | highWordRead (cls : PortClass) (addr : Nat)
  /-- LOW_WORD_WRITE: R12, R17: a 32-bit write of a low word is held for the class. -/
  | lowWordWrite (cls : PortClass) (addr : Nat) (value : Nat)
  /-- HIGH_WORD_WRITE: R12: a 32-bit write of a high word applies both words, or the high word alone. -/
  | highWordWrite (cls : PortClass) (addr : Nat) (value : Nat)
  /-- SPLIT_64_BIT_ACCESS: R484: a 64-bit access; without a value it is a read. Where its address is not the base of
  one 64-bit register it acts as two. -/
  | split64BitAccess (cls : PortClass) (addr : Nat) (value : Option Nat)
  /-- RING_PACKET_ARRIVE: R50 to R53: a packet reaches a stop; `full`: the ejection queue there is full. -/
  | ringPacketArrive (ring : Ring) (stop : Nat) (packet : RingPacket) (full : Bool)
  /-- RING_LINK_FAIL: R55: the link leaving a stop fails, with the fault messages (die, sequence number) and packets
  committed to it. -/
  | ringLinkFail (ring : Ring) (stop : Nat) (msgs : List (Nat × Nat)) (packets : List RingPacket)
  /-- RING_ACCESS_TIMEOUT: R55, R421: a host access is lost. -/
  | ringAccessTimeout (addr : Nat) (write : Bool)
  /-- HOST_ABORT: R155: a write of OPC_ABORT. -/
  | hostAbort (value : Nat)
  /-- FENCE_WRITE: R218: a host write of INS_FENCE(i). -/
  | fenceWrite (i : Nat) (value : Nat)
  /-- QUEUE_PURGE: R220: one pointer of a fenced port is purged. -/
  | queuePurge (p : Nat)
  /-- LIVE_CHANGE_GO: R254: a write of SCH_CHG. -/
  | liveChangeGo (value : Nat)
  /-- LIVE_CHANGE_DRAINED: R254: DRAINING to SWITCHING. -/
  | liveChangeDrained
  /-- LIVE_CHANGE_TIMEOUT: R254: DRAINING to FAILED. -/
  | liveChangeTimeout
  /-- SHAPER_CFG_WRITE: R283: a write of SHP_SHAPE_CFG(p, v). -/
  | shaperCfgWrite (p : Nat) (v : Nat) (value : Nat)
  /-- POLICER_CFG_WRITE: R283: a write of SHP_POL_CFG(p, v). -/
  | policerCfgWrite (p : Nat) (v : Nat) (value : Nat)
  /-- MIRROR_CFG_WRITE: R291: a write of SHP_MIR_CFG(m). -/
  | mirrorCfgWrite (m : Nat) (value : Nat)
  /-- PRBS_GENERATOR_SELECT: R312: a write of PRT_TEST(p) that selects a generator. -/
  | prbsGeneratorSelect (p : Nat) (value : Nat)
  /-- PRBS_CHECKER_SELECT: R312, R313: a write of PRT_TEST(p) that selects a checker. -/
  | prbsCheckerSelect (p : Nat) (value : Nat)
  /-- LOOPBACK_SELECT: R312, R314: a write of PRT_TEST(p) that selects a loopback. -/
  | loopbackSelect (p : Nat) (value : Nat)
  /-- TEST_END: R312: a write of PRT_TEST(p) = 0. -/
  | testEnd (p : Nat)
  /-- PORT_ENABLE_WRITE: R303: a write of PRT_LINK_CFG(p) that sets or clears ENABLE. -/
  | portEnableWrite (p : Nat) (value : Nat)
  /-- RATE_CHANGE: R299: a write of PRT_LINK_CFG(p) that changes RATE. -/
  | rateChange (p : Nat) (value : Nat)
  /-- LASER_ENABLE_WRITE: R295: a write of PRT_LSM_CTL(e). -/
  | laserEnableWrite (e : Nat) (value : Nat)
  /-- TIME_NOW_WRITE: R327: a write of PRT_TIME_NOW. -/
  | timeNowWrite (ns : Nat)
  /-- FAULT_CLEAR: R19, R394, R395: the host writes 1 to FLT_SRC_STAT(s).PENDING; `raised`: a raise of s is decided in
  the same cycle. -/
  | faultClear (src : Nat) (raised : Bool)
  /-- MGT_FAULT_CLEAR: R394, R395: a write of FLT_MGT with CLEAR = 1, SOURCE and the FORCE bit. -/
  | mgtFaultClear (src : Nat) (force : Bool) (raised : Bool)
  /-- FAULT_PIN_FORCE: R393: a write of FLT_MGT.FORCE. -/
  | faultPinForce (force : Bool)
  /-- FAULT_INJECT: R379: a write of FLT_INJECT with GO = 1. -/
  | faultInject (src : Nat)
  /-- SAFE_STATE_SELF_TEST: R388: a write of FLT_INJECT with SELF_TEST = 1. -/
  | safeStateSelfTest
  /-- FAULT_CFG_WRITE: R383: a write of FLT_SRC_CFG(s). -/
  | faultCfgWrite (src : Nat) (value : Nat)
  /-- SOFTWARE_TRIGGER: R396: a write of EVR_TRIGGER with GO = 1. -/
  | softwareTrigger (arg : Nat)
  /-- RING_RECORD_SELECT: R404: a write of EVR_RING_SEL. -/
  | ringRecordSelect (seq : Nat)
  /-- RING_RECORD_READY: R404: the ring record has been copied into the window, or is missing. -/
  | ringRecordReady
  /-- DOMAIN_OFF_WRITE: R440, R475: a write of PWR_HOST_OFF(i) or PWR_MGT_OFF(i). -/
  | domainOffWrite (host : Bool) (i : Nat) (value : Nat)
  /-- DOMAIN_POWER_OFF: R441, R442: domain d goes off. -/
  | domainPowerOff (d : Nat)
  /-- DOMAIN_POWER_ON: R442: the next domain is switched on. -/
  | domainPowerOn
  /-- MBX_COMMAND_ISSUE: R422, R424: a write of HST_MBX_CMD; `delay`: the root cycles, of at most 2 µs, until the command is
  decided. -/
  | mbxCommandIssue (value : Nat) (delay : Nat)
  /-- PLAN_LOAD: R426: the plan load of a slot reads its image and writes its records. -/
  | planLoad (slot : Nat) (image : PlanFetch)
  /-- PLAN_CHECK: R152, R153: the loaded plan is checked. -/
  | planCheck
  /-- PLAN_ACCEPT_DEGRADED: R151, R256: the command of a slot accepts a DEGRADED plan. -/
  | planAcceptDegraded (slot : Nat)
  /-- PLAN_RETIRE: R154: the retire command of a slot. -/
  | planRetire (slot : Nat)
  /-- PLAN_RETIRED: R151: every context of a RETIRING plan is IDLE. -/
  | planRetired
  /-- REMAP: R336: the remap command of a slot. -/
  | remap (slot : Nat)
  /-- MEMBER_REPLACE: R364: the member-replace command of a slot. -/
  | memberReplace (slot : Nat)
  /-- MEMBER_REPLACE_TIMEOUT: R429: TIMEOUT_MS has elapsed. -/
  | memberReplaceTimeout (slot : Nat)
  /-- MEM_READ: R432: units of a MEM_READ are copied, and the next one may fail. -/
  | memRead (slot : Nat) (units : Nat) (fail : Option MemFail)
  /-- MEM_WRITE: R432: units of a MEM_WRITE are copied, and the next one may fail. -/
  | memWrite (slot : Nat) (data : List (List Byte)) (fail : Option MemFail)
  /-- ATTEST: R464: the attestation report is written; `dma`: a host memory access failed. -/
  | attest (slot : Nat) (dma : Bool)
  /-- IDENT_READ: R463: IDENT_READ. -/
  | identRead (slot : Nat) (dma : Bool)
  /-- IMAGE_WRITE: R463: IMAGE_WRITE; `data`: the bytes that the host gives, fewer than the length where an access fails; `signed`:
  the signature read back verifies. -/
  | imageWrite (slot : Nat) (data : List Byte) (signed : Bool)
  /-- SVN_COMMIT: R463: SVN_COMMIT. -/
  | svnCommit (slot : Nat)
  /-- DEBUG_TOKEN_SET: R463: DEBUG_TOKEN_SET. -/
  | debugTokenSet (slot : Nat)
  /-- MBX_ABORT: R430: the ABORT command, of the operation in a slot. -/
  | mbxAbort (slot : Nat) (tag : Nat)
  /-- LONG_OPERATION_END: R431: an operation that no other command ends; `failure`: its status code and HST_OP_DETAIL.
  -/
  | longOperationEnd (slot : Nat) (failure : Option (Nat × Nat))
  /-- HOST_LINK_DOWN: R420: the host link leaves its up state, or the function is reset. -/
  | hostLinkDown (flr : Bool)
  /-- MGT_READ: R471: a READ request of a station. -/
  | mgtRead (src : Nat) (seq : Nat) (addr : Nat) (count : Nat) (timeout : Bool)
  /-- MGT_WRITE: R471: a WRITE request of a station. -/
  | mgtWrite (src : Nat) (seq : Nat) (addr : Nat) (count : Nat) (value : Nat) (timeout : Bool)
  /-- MGT_RESET: R450, R471, R475: a RESET request of a station. -/
  | mgtReset (src : Nat) (seq : Nat)
  /-- DEBUG_OPEN: R466, R467: a DEBUG_OPEN request of a station; `locking`: LOCK = 1 is written in the same cycle. -/
  | debugOpen (src : Nat) (seq : Nat) (token : List Byte) (locking : Bool) (fail : Option EraseFail)
  /-- MGT_FRAME_IGNORED: R470: a management frame that is not executed. -/
  | mgtFrameIgnored (cause : MgtIgnored)
  /-- MGT_DUPLICATE: R472: a request with the SEQ of the peer's previous one. -/
  | mgtDuplicate (src : Nat) (seq : Nat)
  /-- FAULT_MESSAGE: R54, R378: the oldest fault message on a ring reaches the collector. -/
  | faultMessage (ring : Ring)
  /-- FAULT_RAISE: R379: the collector decides the oldest raise. -/
  | faultRaise
  /-- LEVEL_CONDITION_CHANGE: R382: the condition of a level source's unit changes. -/
  | levelConditionChange (src : Nat) (unit : Nat) (holds : Bool)
  /-- INT_HOLDOFF_END: R384: the holdoff of a vector has ended. -/
  | intHoldoffEnd (v : Nat)
  /-- CHIP_RESET_REACTION: R386: a chip reset by reaction begins. -/
  | chipResetReaction
  /-- FAULT_NOTICE_REPEAT: R387: the notice is repeated. -/
  | faultNoticeRepeat
  /-- MGT_WATCHDOG_EXPIRY: R382: the watchdog has not been serviced for 1 s. -/
  | mgtWatchdogExpiry
  /-- COLLECTOR_SWEEP: R388: words corrected in a sweep, and the first that fails, as cause and word. -/
  | collectorSweep (corrected : Nat) (bad : Option (Nat × Nat))
  /-- SAFE_STATE: R389, R485: a check of the collector fails. -/
  | safeState (cause : Nat) (word : Nat)
  /-- SNAPSHOT_START: R398: the next queued record is started. -/
  | snapshotStart
  /-- SNAPSHOT_READ_TIMEOUT: R398: the read of entry i is not answered. -/
  | snapshotReadTimeout (i : Nat)
  /-- SNAPSHOT_COMPLETE: R398, R399: the record is complete. -/
  | snapshotComplete
  /-- PERIODIC_TRIGGER: R396: the PERIODIC trigger. -/
  | periodicTrigger
  /-- RING_COPY_BATCH: R401, R402: 64 records are copied to the ring; SRAM words corrected, and uncorrectable ones as
  slot and word. -/
  | ringCopyBatch (corrected : Nat) (bad : List (Nat × Nat))
  /-- OPERATING_SECOND: R400: an operating second elapses. -/
  | operatingSecond
  /-- PERSISTENCE_WRITE: R456: a persistence entry is written. -/
  | persistenceWrite
  /-- PWR_GOOD_RISE: R436, R448: PWR_GOOD rises, with the input in 10 mV. -/
  | pwrGoodRise (volts : Nat)
  /-- PWR_GOOD_FALL: R449: PWR_GOOD falls. -/
  | pwrGoodFall
  /-- INPUT_SHUTDOWN: R436: the input has been out of range for 20 µs. -/
  | inputShutdown
  /-- INPUT_SAMPLE: R437: the input is measured. -/
  | inputSample (volts : Nat) (amps : Nat)
  /-- RAIL_FAULT: R448: a rail has been out of range for 10 µs. -/
  | railFault (stop : Nat) (rail : Nat)
  /-- RESET_N: R450: RESET_N has been low for 1 µs. -/
  | resetN
  /-- THERMAL_SAMPLE: R443, R444: the 40 sensors are read. -/
  | thermalSample (temps : List Nat)
  /-- PLL_LOCK_CHANGE: R446: the root PLL gains or loses lock. -/
  | pllLockChange (locked : Bool)
  /-- BOOT_ROM: R444, R453, R457: stage ROM. -/
  | bootRom
  /-- BOOT_NVM_READ: R457: stage NVM_READ. -/
  | bootNvmRead (jedec : Nat) (size : Nat) (retries : Nat)
  /-- BOOT_VERIFY: R453, R454, R457: stage VERIFY; which slots' signatures verify. -/
  | bootVerify (fwA : Bool) (fwB : Bool) (cfgA : Bool) (cfgB : Bool)
  /-- BOOT_CONFIG: R455, R457: stage CONFIG; the domains of units and the clusters that the image marks disabled. -/
  | bootConfig (marked : Nat) (clusters : List Nat)
  /-- BOOT_MEMORY: R409, R457: stage MEMORY; the channels that fail training, one bit each. -/
  | bootMemory (failed : Nat)
  /-- BOOT_LINKS: R458: stage LINKS ends. -/
  | bootLinks
  /-- BOOT_FAIL: R459: boot stops on a check of the NVM, a rail or the root PLL. -/
  | bootFail (code : Nat)
  /-- LASER_SAMPLE: R295: presence and fault of a laser module are sampled. -/
  | laserSample (e : Nat) (presLow : Bool) (fltLow : Bool)
  /-- LASER_MONITOR_READ: R296: temperature, bias and output power of a module are read. -/
  | laserMonitorRead (e : Nat) (temp : Nat) (bias : List Nat) (power : List Nat)
  /-- LANE_COMMA_BLOCK: R300, R301: what stands at a lane's expected position. -/
  | laneCommaBlock (p : Nat) (k : Nat) (found : Option Nat)
  /-- LOSS_OF_SIGNAL: R301: a lane loses signal. -/
  | lossOfSignal (p : Nat) (k : Nat)
  /-- CODEWORD_DECODE: R298, R305, R310: a codeword is decoded. -/
  | codewordDecode (p : Nat) (k : Nat) (word : Codeword)
  /-- LANE_DESKEW: R302, R322: deskew at a comma set, and the credits the neighbour grants. -/
  | laneDeskew (p : Nat) (granted : List Nat)
  /-- PORT_DOWN: R304: a port leaves UP. -/
  | portDown (p : Nat)
  /-- DATA_BLOCK: R305, R306: the next block slot holds this data block, or this invalid one; `uncorr`: it lies in an
  uncorrectable codeword. -/
  | dataBlock (p : Nat) (header : Nat) (data : List Byte) (uncorr : Bool)
  /-- FRAME_RECEIVE: R307, R308: a whole frame has been received; where an opportunistic one goes. -/
  | frameReceive (p : Nat) (dst : Option Nat)
  /-- CONTROL_BLOCK: R305, R309: the next block slot holds this control block. -/
  | controlBlock (p : Nat) (data : List Byte) (uncorr : Bool)
  /-- FLOW_BLOCK: R317, R322: a FLOW block takes effect. -/
  | flowBlock (p : Nat)
  /-- XOFF_STATE_CHANGE: R316: the XOFF state follows the ingress FIFO. -/
  | xoffStateChange (p : Nat)
  /-- FLOW_SEND: R317: a FLOW block is sent. -/
  | flowSend (p : Nat)
  /-- FC_STALL: R318: a channel has been held in XOFF for PAUSE_MS. -/
  | fcStall (p : Nat) (v : Nat)
  /-- FEC_TREND_SECOND: R311: a whole second of plane time. -/
  | fecTrendSecond
  /-- TIME_BLOCK: R324 to R327: a TIME block is processed. -/
  | timeBlock (p : Nat) (rx : Nat)
  /-- SYNC_SEND: R325: a master port sends Sync. -/
  | syncSend (p : Nat)
  /-- PDELAY_REQ_SEND: R325: a port sends Pdelay_Req. -/
  | pdelayReqSend (p : Nat)
  /-- SYNC_LOSS_TIMEOUT: R326: Sync intervals have passed without a Sync. -/
  | syncLossTimeout
  /-- IDENT_SEND: R329: a port sends its identity block. -/
  | identSend (p : Nat)
  /-- IDENT_BLOCK: R329 to R333: an IDENT block is processed. -/
  | identBlock (p : Nat)
  /-- NEGOTIATION_TIMEOUT: R333: 10 ms have passed without negotiation. -/
  | negotiationTimeout (p : Nat)
  /-- ROUND_START: R223, R224, R254, R256: a round starts; in the safe state rounds go on alone (R485). -/
  | roundStart
  /-- SCHED_FRAME_START: R231, R240: a scheduled frame starts; `bad`: an uncorrectable cell of it. -/
  | schedFrameStart (p : Nat) (bad : Option Nat)
  /-- OPP_FRAME_START: R282: an opportunistic frame starts. -/
  | oppFrameStart (p : Nat)
  /-- TOKEN_REFILL: R280, R283: a port die refills its buckets. -/
  | tokenRefill (die : Nat)
  /-- FRAME_DEPARTURE: R217, R289: the frame being sent has left. -/
  | frameDeparture (p : Nat)
  /-- INGRESS_LANDING: R235, R236: a received frame lands. -/
  | ingressLanding (p : Nat)
  /-- SWATCH_POINTER_HANDOFF: R246: a pointer reaches the resequencer's port die. -/
  | swatchPointerHandoff
  /-- RESEQUENCE: R247, R248: the swatch at a resequencer. -/
  | resequence (die : Nat)
  /-- HELD_SWATCH_RELEASE: R247: a held swatch follows NEXT. -/
  | heldSwatchRelease (die : Nat)
  /-- MATCH_ROUND: R241, R242, R245: one cell time is matched. -/
  | matchRound
  /-- OPP_CELLS_READ: R240, R242: the last cell of a matched frame is read; `bad`: an uncorrectable cell. -/
  | oppCellsRead (p : Nat) (bad : Option Nat)
  /-- INSOLE_SCRUB: R238, R240: a scrub access. -/
  | insoleScrub (corrected : Nat) (bad : Option Nat)
  /-- BUFFER_ALLOC: R266, R271, R273: the k-th allocation request is decided. `corrected`: tags corrected as they are
  read; `lost`: a cell whose tag reads with an uncorrectable error, `stuck`: it still does after a rewrite. -/
  | bufferAlloc (k : Nat) (corrected : Nat) (lost : Option Nat) (stuck : Bool)
  /-- ALLOC_WAIT_EXPIRY: R267: the k-th request has waited ALLOC_WAIT cycles. -/
  | allocWaitExpiry (k : Nat)
  /-- BUFFER_FREE: R273: a free is checked. `corrected`, `lost`, `stuck`: as in BUFFER_ALLOC. -/
  | bufferFree (ptr : Nat) (account : Nat) (requester : Nat) (corrected : Nat) (lost : Option Nat) (stuck : Bool)
  /-- MIRROR_FENCE_DISCARD: R291: a copy waiting for a fenced analysis port is discarded. -/
  | mirrorFenceDiscard (p : Nat)
  /-- DESCRIPTOR_ARRIVAL: R145, R154, R166: the descriptor at the head is decided. -/
  | descriptorArrival
  /-- SWATCH_ACCEPT: R166, R167: the released swatch at the head is decided. -/
  | swatchAccept
  /-- PROGRESS_TIMEOUT: R157: the progress timer has reached its limit. -/
  | progressTimeout (x : Nat)
  /-- ABORT_SWATCH: R174: the released ABORT swatch at the head. -/
  | abortSwatch
  /-- ADMISSION_DECIDE: R182: cluster k decides a waiting chunk of last t. -/
  | admissionDecide (k : Nat) (t : Nat)
  /-- FREEZE_DIE_STOP: R191: a core die stops admission for a last. -/
  | freezeDieStop (t : Nat) (die : Nat)
  /-- HOLD_ENTER: R191: a last enters HELD. -/
  | holdEnter (t : Nat)
  /-- SPINE_HOLD_RECEIVE: R196: a HOLD or OPEN of a spine. -/
  | spineHoldReceive
  /-- OPERAND_FETCH_REQUEST: R72: operands of the next nodes of chunk n are requested. -/
  | operandFetchRequest (x : Nat) (n : Nat)
  /-- OPERAND_ARRIVE: R72, R240: operand r reaches the operand buffer; `bad`: an uncorrectable cell or address. -/
  | operandArrive (x : Nat) (n : Nat) (r : Nat) (bad : Option Nat)
  /-- NODE_ISSUE: R74: cluster k issues its next node. -/
  | nodeIssue (k : Nat)
  /-- CHECK_VERDICT: R82 to R86, R487: the verdict on a word of chunk n; `fail`: the path that failed; `corrected`:
  welt words corrected as it was read. -/
  | checkVerdict (k : Nat) (x : Nat) (opnum : Nat) (n : Nat) (node : Nat) (fail : Option CheckPath) (attempt : Nat) (corrected : Nat)
  /-- CHUNK_COMMIT: R79: a chunk commits. -/
  | chunkCommit (x : Nat) (n : Nat)
  /-- NUM_RECORD_ARRIVE: R126, R127: a numeric state record arrives. -/
  | numRecordArrive (x : Nat) (n : Nat) (bad : Bool)
  /-- SPARE_SELF_TEST_START: R89: the next spare enters its test. -/
  | spareSelfTestStart
  /-- SPARE_SELF_TEST_END: R89: the test ends. -/
  | spareSelfTestEnd (pass : Bool)
  /-- CORE_DIE_LOSS: R96: a core die is lost. -/
  | coreDieLoss (die : Nat)
  /-- MONITOR_INPUTS_READ: R131: the monitor has read its inputs. -/
  | monitorInputsRead (die : Nat)
  /-- SHADOW_CHECK_COMPLETE: R132, R133: a shadow evaluation ends. -/
  | shadowCheckComplete (die : Nat)
  /-- SPILL_FETCH_COMPLETE: R188, R410: a spilled partial reaches the operand buffer. -/
  | spillFetchComplete (x : Nat) (n : Nat) (q : Nat) (bad : Option Nat)
  /-- SPILL_WRITEBACK_COMPLETE: R188: a spilled result is written. -/
  | spillWritebackComplete (x : Nat) (n : Nat) (q : Nat)
  /-- EXCHANGE_PLACEMENT: R205, R211: rows are placed and drop reports sent. -/
  | exchangePlacement (x : Nat)
  /-- EXCHANGE_SWATCH_ASSEMBLE: R210: an output swatch is assembled. -/
  | exchangeSwatchAssemble (x : Nat) (d : Nat) (k : Nat)
  /-- EPOCH_CUT_END: R349: the cut ends. -/
  | epochCutEnd (t : Nat)
  /-- EPOCH_CUT_TIMEOUT: R350: CUT_MS has elapsed. -/
  | epochCutTimeout (t : Nat)
  /-- EPOCH_SECURED: R354, R410: the drain is complete; `bad`: a word uncorrectable twice. -/
  | epochSecured (t : Nat) (bad : Option Nat)
  /-- EPOCH_CLOSE: R355: a committed epoch closes. -/
  | epochClose (t : Nat)
  /-- TIER_WRITE_FAIL: R372: a tier write fails. -/
  | tierWriteFail (t : Nat) (i : Nat) (acked : Nat)
  /-- LICHEN_UPDATE: R358, R359: the lichen scores. -/
  | lichenUpdate
  /-- CADENCE_UPDATE: R360: the checkpoint interval. -/
  | cadenceUpdate
  /-- MEMBER_FAILED: R362, R363: the member of a port is declared failed. -/
  | memberFailed (p : Nat)
  /-- REGROWTH_START: R365: a group's regrowth opens. -/
  | regrowthStart (t : Nat) (g : Nat)
  /-- ROLLBACK: R368: a last is rolled back and resumes; `gddrBad`: the address of a word of the image in GDDR7 whose read
  stays uncorrectable (R407). -/
  | rollback (t : Nat) (gddrBad : Option Nat)
  /-- RESTORE_START: R369: a restore opens, or groups become LOST. -/
  | restoreStart (t : Nat)
  /-- GDDR_CRC_RETRY: R407: a transfer is retried; `corrected`: errors the device reported corrected; `lost`: the
  address of a read whose fourth retry failed. -/
  | gddrCrcRetry (ch : Nat) (retries : Nat) (corrected : Nat) (lost : Option Nat)
  /-- GDDR_CHANNEL_FAIL: R409: a channel fails while running. -/
  | gddrChannelFail (ch : Nat)
  /-- CXL_LINK_DOWN: R416: a CXL memory link leaves its up state. -/
  | cxlLinkDown (i : Nat)
  /-- CXL_LINK_UP: R414, R416: a CXL memory link comes up, with its expander's capacity in GiB. -/
  | cxlLinkUp (i : Nat) (speed : Nat) (width : Nat) (capacity : Nat)
  /-- HOST_LINK_UP: R420: the host link comes up. -/
  | hostLinkUp (speed : Nat) (width : Nat)
  /-- INPUT_START_THRESHOLD: R436: the waiting input reaches 39.0 V. -/
  | inputStartThreshold
  /-- RESET_N_RELEASE: R450, R465: RESET_N rises, with the board value of IDCODE. -/
  | resetNRelease (board : Nat)
  /-- PRBS_CHECKER_LOCK: R313: symbols at a checker, with the bit errors of each. -/
  | prbsCheckerLock (p : Nat) (k : Nat) (levels : List Nat)
  /-- RING_LINK_RESTORE: R51, R378: a link comes back. -/
  | ringLinkRestore (ring : Ring) (stop : Nat)
  /-- DOMAIN_POWERED: R442: a domain is powered 200 µs after its switch. -/
  | domainPowered (d : Nat)
  /-- SHARD_READ_COMPLETE: R369, R416: a member's shard has been read; `poison`: the port that returned poison. -/
  | shardReadComplete (t : Nat) (g : Nat) (i : Nat) (poison : Option Nat)
  deriving DecidableEq, Repr

end Sys2Proof
end

