-- ==== Sys2Proof/Config.lean ====
section
/-!
DEFINITION. What an implementation or a standard outside spec/ fixes, and the free values: constants without a body, so
that a statement proved about the model holds whatever they are.
-/

namespace Sys2Proof.Config

/-- SHAKE256 with 256 bits of output over bytes (R39, R454, R464). The function is defined by a standard that spec/ does
not restate. -/
opaque shake256 : List Byte → Nat

/-- A fresh value that spec/ does not fix, by the number of its use (State.freeCtr). -/
opaque freeValue : Nat → Nat

/-- The SHAKE256 digest of the disabled-unit map, by its entries (R39): spec/ does not give the bytes it is taken
over. -/
opaque dumDigest : List Nat → Nat

/-- The public key of the SLH-DSA-SHAKE-256s pair whose seeds are derived from the device secret and the key epoch
(R461): spec/ gives neither the label nor the derivation. -/
opaque identityKey (secret epoch : Nat) : Nat

/-- AES-256-XTS over a 4 KiB granule, by key and tweak (R462): a permutation of granules, defined by a standard that
spec/ does not restate. -/
opaque xts (key tweak : Nat) : Equiv.Perm (Vector Byte 4096)

/-- The bits from which a generator of the PRBS31 (pattern 1) or PRBS13 (pattern 2) sequence starts, by the bits so far
(R313): spec/ gives no phase. -/
opaque prbsStart (pattern : Nat) : List Bool → Bool

/-- clockIdentity of this clock's messages (R324): spec/ does not give it. -/
opaque clockIdentity : Nat

end Sys2Proof.Config
end

