-- ==== Sys2Proof/Machine/Addr.lean ====
section
/-!
DEFINITION. The address map of BAR0: which register, and which half of it, an address reaches (R9, R10, R16, R479).
-/

namespace Sys2Proof.Machine

/-- What an address reaches: a register instance, and whether it is the upper half of a 64-bit register. -/
structure Hit where
  reg  : Reg
  i    : Nat
  j    : Nat
  high : Bool
  deriving DecidableEq, Repr

/-- R9: the address of an instance. -/
def Reg.addr (r : Reg) (i j : Nat) : Nat := r.at.base + i * r.at.stride1 + j * r.at.stride2

/-- The instance of `r` that holds the four bytes at `a`, if any. -/
def Reg.hit (r : Reg) (a : Nat) : Option Hit :=
  let t := r.at
  if a < t.base then none
  else
    let off := a - t.base
    let i := if t.count1 ≤ 1 then 0 else off / t.stride1
    let rest := off - i * t.stride1
    let j := if t.count2 ≤ 1 then 0 else rest / t.stride2
    let inner := rest - j * t.stride2
    if i < t.count1 ∧ j < t.count2 then
      if inner = 0 then some ⟨r, i, j, false⟩
      else if inner = 4 ∧ t.bits = 64 then some ⟨r, i, j, true⟩
      else none
    else none

/-- The register that holds the four bytes at `a`; none where `a` is unmapped (R16, R480). -/
def hitAt (a : Nat) : Option Hit := Reg.all.findSome? (fun r => r.hit a)

/-- R401, R406: the window of the 4,096 SRAM records. -/
def inRecordWindow (a : Nat) : Bool := 0x00600000 ≤ a && a ≤ 0x0073FFFF

/-- R404, R406: the window of the selected ring record. -/
def inRingWindow (a : Nat) : Bool := 0x00740000 ≤ a && a ≤ 0x0074013F

/-- The field's key in the register file. -/
def Fld.key (f : Fld) (i j : Nat) : List Nat := [f.reg.ctorIdx, f.lo, i, j]

/-- R14: what a field holds after reset, before configuration is loaded. A field whose Reset column says NVM reads 0
until stage CONFIG loads it (DESIGN CHOICE, log 1); FLT_SRC_CFG(0) is fixed (R383, R405). -/
def Fld.resetVal (f : Fld) (i : Nat) : Nat :=
  match f.rst with
  | .const n => n
  | .nvm => if f.reg = .FLT_SRC_CFG ∧ i = 0 then bits 0x40000310 f.hi f.lo else 0
  | .portIndex => i
  | .winAddr => 0x7000000 + i * 0x4000
  | .lichenHi => [80, 150, 105, 1000, 4].getD i 0
  | .lichenLo => [16, 50, 85, 0, 0].getD i 0

end Sys2Proof.Machine
end

