-- ==== Sys2Proof/Machine/Codes.lean ====
section
/-!
DEFINITION. The check codes of R483: CRC-32C, CRC-16, and the comma block's use of the latter.
-/

namespace Sys2Proof.Machine

/-- One bit of CRC-32C: polynomial 0x1EDC_6F41 with reflected input and output, so the register shifts right against
the reversed polynomial. -/
def crc32cBit (c : BitVec 32) : BitVec 32 :=
  if c.getLsbD 0 then (c >>> 1) ^^^ 0x82F63B78#32 else c >>> 1

/-- One byte of CRC-32C. -/
def crc32cByte (c : BitVec 32) (b : Byte) : BitVec 32 :=
  crc32cBit (crc32cBit (crc32cBit (crc32cBit (crc32cBit (crc32cBit (crc32cBit (crc32cBit (c ^^^ b.setWidth 32))))))))

/-- R483: CRC-32C over bytes in ascending offset, with initial value and final exclusive-or 0xFFFF_FFFF. -/
def crc32c (l : List Byte) : BitVec 32 := l.foldl crc32cByte 0xFFFFFFFF#32 ^^^ 0xFFFFFFFF#32

/-- One bit of CRC-16: polynomial 0x1021, not reflected. -/
def crc16Bit (c : BitVec 16) : BitVec 16 :=
  if c.getLsbD 15 then (c <<< 1) ^^^ 0x1021#16 else c <<< 1

/-- One byte of CRC-16, most significant bit first. -/
def crc16Byte (c : BitVec 16) (b : Byte) : BitVec 16 :=
  crc16Bit (crc16Bit (crc16Bit (crc16Bit (crc16Bit (crc16Bit (crc16Bit (crc16Bit (c ^^^ (b.setWidth 16 <<< 8)))))))))

/-- R483: CRC-16 with initial value 0xFFFF and no final exclusive-or. -/
def crc16 (l : List Byte) : BitVec 16 := l.foldl crc16Byte 0xFFFF#16

/-- R483: the CRC-16 of bits [103:0] of a comma block, taken as 13 bytes in ascending k; its bits [15:0] stand in
bits [119:104] of the block. -/
def commaCrc (block : Nat) : Nat := (crc16 (bytesLE 13 block)).toNat

end Sys2Proof.Machine
end

