-- ==== Sys2Proof/Machine/Factory.lean ====
section
/-!
DEFINITION. The NVM as it is delivered: the header, and in slots A a firmware image and a configuration image with the
contents that spec/ gives the factory image (R259, R272, R381, R412, R452 to R455). What spec/ leaves open in them is a design
choice (log 5).
-/

namespace Sys2Proof.Machine

/-- R381: source, severity, reactions (INT 1, NMI 2, BLOCK_RESET 4, CHIP_RESET 8, PIN 16) and recording mode. -/
def factoryLow : List (Nat × Nat × Nat × Nat) :=
  [(1, 0, 1, 1), (2, 2, 3, 1), (3, 3, 24, 1), (4, 3, 16, 1), (5, 2, 1, 1), (6, 1, 1, 1), (7, 1, 1, 1), (8, 3, 19, 1),
   (9, 3, 24, 1), (10, 2, 3, 1), (11, 3, 16, 1), (12, 3, 24, 1), (13, 1, 1, 1), (14, 1, 1, 1), (16, 0, 0, 2), (17, 1, 1, 1),
   (18, 1, 1, 1), (19, 2, 3, 1), (20, 1, 1, 1), (21, 1, 1, 1), (22, 2, 1, 1), (24, 2, 1, 1), (25, 2, 1, 1), (26, 2, 1, 1)]
def factoryHigh : List (Nat × Nat × Nat × Nat) :=
  [(27, 2, 1, 1), (28, 1, 1, 1), (29, 2, 1, 1), (30, 1, 1, 1), (31, 1, 1, 1), (32, 0, 0, 0), (33, 2, 3, 1), (34, 1, 1, 1),
   (35, 1, 1, 1), (36, 1, 1, 1), (37, 2, 1, 1), (38, 2, 3, 1), (39, 2, 3, 1), (40, 1, 1, 1), (41, 2, 1, 1), (48, 1, 1, 1),
   (49, 2, 3, 1), (50, 2, 3, 1), (51, 2, 2, 1), (56, 2, 1, 1), (57, 1, 1, 1), (58, 2, 1, 1), (59, 1, 1, 1), (60, 3, 17, 1)]

/-- R381: FLT_SRC_CFG of a source. -/
def factorySource (src : Nat) : Nat :=
  match (factoryLow ++ factoryHigh).find? (fun e => e.1 == src) with
  | none => 0
  | some (_, severity, reactions, record) => record * 2 ^ 30 + severity * 256 + reactions

/-- R259: COUNT and SCHED of the pools. -/
def factoryPools : List (Nat × Nat) := [(131072, 65536), (499712, 450560), (512, 0), (64, 0)]

/-- R272: accounts 16 to 19 may fill the opportunistic list of each pool, and reserve nothing. -/
def factoryAccounts : List (Nat × Nat × Nat) :=
  [16, 17, 18, 19].flatMap (fun a => factoryPools.zipIdx.map (fun (p, q) => (a, q, p.1 - p.2)))

/-- R412: BASE and length of a region in GDDR7, as its register holds them. -/
def regionWord (base size : Nat) : Nat := size * 2 ^ 40 + base

/-- R455: a record of an image: offset, length and payload, padded to a multiple of 8 B. -/
def imageRecord (offset : Nat) (payload : List Byte) : List Byte :=
  bytesLE 4 offset ++ bytesLE 4 payload.length ++ payload ++ List.replicate ((8 - payload.length % 8) % 8) 0

/-- The body of the factory configuration image. -/
def factoryBody : List Byte :=
  imageRecord (Reg.addr .FLT_SRC_CFG 1 0) ((List.range 60).flatMap (fun k => bytesLE 4 (factorySource (k + 1)))) ++
  (factoryPools.zipIdx.flatMap (fun (p, q) => imageRecord (Reg.addr .BPM_POOL_CFG q 0) (bytesLE 8 (p.2 * 2 ^ 32 + p.1)))) ++
  (factoryAccounts.flatMap (fun (a, q, n) => imageRecord (Reg.addr .BPM_ACCT a q) (bytesLE 8 (n * 2 ^ 32)))) ++
  imageRecord (Reg.addr .MEM_GMAP_FW 0 0) (bytesLE 8 (regionWord 0 65536)) ++
  imageRecord (Reg.addr .EVR_RING 0 0) (bytesLE 8 (regionWord 0x10000000 1048576)) ++
  imageRecord (Reg.addr .MEM_GMAP_NUM 0 0) (bytesLE 8 (regionWord 0x24000000 524288)) ++
  ((List.range 4).flatMap (fun c => imageRecord (Reg.addr .WLT_REGION c 0) (bytesLE 8 (regionWord (0xA4000000 + c * 0x1000) 262144)))) ++
  imageRecord (Reg.addr .CKP_REGION 0 0) (bytesLE 8 (regionWord (524288 * 2 ^ 16 + 0x1A40) 10862592))

/-- R454: the part of an image up to its signature: the header, with a signing key of zeros, and the body. -/
def imageHead (kind : Nat) (body : List Byte) : List Byte :=
  bytesLE 4 0x4D495647 ++ bytesLE 1 kind ++ bytesLE 1 1 ++ bytesLE 2 0x0256 ++ bytesLE 4 (128 + body.length + 29792) ++
    bytesLE 4 0 ++ List.replicate 112 0 ++ body

/-- The bytes of a list from address `a` on that differ from what an unlisted address reads as. -/
def cellsFrom (a : Nat) (l : List Byte) : List Host.Cell :=
  (l.zipIdx a).filterMap (fun (b, k) => if b = Memory.blank then none else some (k, b))

/-- R453: header copy 0, with SEQ 1 and slots A active. -/
def factoryHeader : List Byte :=
  let h := bytesLE 4 0x4E564C47 ++ bytesLE 4 1 ++ bytesLE 4 0
  h ++ bytesLE 4 (crc32c h).toNat

/-- R452: the NVM as delivered. The signatures are bytes of zero. -/
def factoryNvm : Memory :=
  { cells := cellsFrom 0 factoryHeader ++ cellsFrom 0x00100000 (imageHead 2 factoryBody) ++ cellsFrom 0x01000000 (imageHead 1 []) }

/-- R460: the fused digest of the signing key. -/
def factoryDigest : Nat := Config.shake256 (List.replicate 64 0)

end Sys2Proof.Machine
end

