-- ==== Sys2Proof/Machine/TypesMark.lean ====
section
/-!
DEFINITION. What the commands of one clock cycle leave for the later ones of the same cycle: the rules that say what
happens "in the same cycle" are decided by these marks, whatever the order of the commands (R19, R20, R39, R54, R94, R181,
R218, R266, R283).
-/

namespace Sys2Proof.Machine

/-- A mark. It counts for the clock cycle in which it was made. -/
inductive Mark where
  /-- A bit has been set that a clear in the same cycle leaves set: a W1C bit by hardware (R19), FULL_NEXT by software
  (R376). -/
  | bit (key : Key)
  /-- An RC counter has counted `n` and grown by `d` (R20). -/
  | count (key : Key) (n d : Nat)
  /-- The disabled-unit map has changed (R39). -/
  | map
  /-- Buckets have been re-pointed (R94). -/
  | owners
  /-- A die has sent a fault message (R54). -/
  | message (die : Nat)
  /-- A cluster has taken a spare (R92). -/
  | spare (cluster taken : Nat)
  /-- A cluster has decided a request of a last (R181). -/
  | request (cluster last : Nat)
  /-- An ending of operation n of a context is asked for, with this status (R158). -/
  | ending (context opnum status : Nat)
  /-- A context has entered FLUSH; its operation has closed DONE (R158). -/
  | flush (context : Nat)
  | done (context : Nat)
  /-- A scheduled item has been held as an early arrival of a context's next operation, or (none) by a cut or a drain (R158,
  R250). -/
  | early (context : Option Nat)
  /-- An item from a port has been accepted for a context; its operation has opened with it (R158). -/
  | accepted (context port : Nat)
  | opened (context : Nat)
  /-- A last has met a trigger: its cause, the core die (4: none), and the logical cluster that owned the chunk (400: none)
  (R190, R195). It has left GRANTED for FREEZING. -/
  | trigger (last cause die logical : Nat)
  | froze (last : Nat)
  /-- A chunk has been admitted by the owner of a logical cluster, perhaps to spill: what `ahead` and the highest admission
  of its die were before (R95); the owner has found no space for it, perhaps for the first time. -/
  | admitted (context chunk logical : Nat) (spill ahead : Bool) (high : Nat)
  | refused (context chunk logical : Nat) (first : Bool)
  /-- The cycle counts as one in which fence bits change; hardware has set the fence of a port; software has cleared one, since
  when it had been set and whether its queues were being purged (R218). -/
  | fence
  | fenceSet (port : Nat)
  | unfenced (port : Nat) (since : Option Nat) (purging : Bool)
  /-- A pointer of a fenced port's queues has been removed (R220). -/
  | purged (port : Nat)
  /-- A context's last manifest has been accepted; its rows have been placed (R205). -/
  | manifest (context : Nat)
  | placed (context : Nat)
  /-- The live change left this state, with this bank and count, for a GO (R255). -/
  | go (state bank held : Nat)
  /-- A plan retirement has been accepted (R255). -/
  | retire
  /-- What an account held of a pool, and what a list had free, when the store cycle began (R266). -/
  | heldWas (account pool n : Nat)
  | freeWas (pool list colour n : Nat)
  /-- What a field held when the store cycle began (R291). -/
  | was (key : Key) (v : Nat)
  /-- A bucket's reset has taken effect (R284). -/
  | bucket (key : Key)
  /-- Token units charged to a bucket by a start, or given back; the head frame of a channel has been counted as held by its
  shaper (R284). -/
  | charged (key : Key) (n : Int)
  | held (port vc : Nat)
  /-- Buffers taken from a list, and given back to it (R266); an object freed, with its account and who freed it (R275). -/
  | took (pool list n : Nat)
  | gave (pool list n : Nat)
  | freedNow (ptr account requester : Nat)
  /-- PENDING of a source has been cleared; the fault pin pair has returned to normal (R395). -/
  | cleared (source : Nat)
  | pairFell
  /-- The collector has decided a raise of a source; a trigger has entered the recorder's queue (R395, R397). -/
  | decided (source : Nat)
  | queued
  /-- A plan check has taken the ports' outcomes; a port has been remapped (R337). -/
  | snapshot
  | remapped (port : Nat)
  /-- The chip has been reset (R430). -/
  | reset
  /-- The first access error of a cycle: the bits of GLB_ACCESS_ERR before it that are not cleared since, its class and
  address (R43). -/
  | access (was cls addr : Nat)
  /-- BPM_ERR_LAST has captured an error of this requester (R275). -/
  | captured (requester : Nat)
  deriving DecidableEq, Repr

/-- What marks of a counter sum up to: what it has counted, and what it has grown by. -/
def countedBy (l : List Mark) (k : Key) : Nat × Nat :=
  l.foldl (fun a m => match m with
    | .count k' n d => if k' = k then (a.1 + n, a.2 + d) else a
    | _ => a) (0, 0)

end Sys2Proof.Machine
end

