-- ==== Sys2Proof/Machine/TypesOp.lean ====
section
/-!
DEFINITION. The data of operation contexts (04_lasts_and_collectives.md) and exchanges (06_exchange_and_multicast.md).
-/

namespace Sys2Proof.Machine

/-- An input swatch accepted for the current operation. `live`: its buffer is still held as a retained input. -/
structure Accepted where
  item : Arrived
  live : Bool
  deriving DecidableEq, Repr, Inhabited

/-- One destination's placement in an exchange (R206): fenced, accepted counts, and output swatches assembled. -/
structure Placement where
  fenced : Bool
  counts : List Nat
  done   : List Nat
  deriving DecidableEq, Repr, Inhabited

/-- The current operation of a context. -/
structure OpCtx where
  /-- The arithmetic cycle in which the last operation closed, while the context is CLOSING (R155). -/
  closedAt : Nat := 0
  /-- Accepted descriptors with their arrival ports, in order. -/
  descs    : List (Nat × Descriptor) := []
  inputs   : List Accepted := []
  /-- Early arrivals of the next operation, oldest first (R167); while the context is CLOSING, also of the one that is to
  open. -/
  early    : List HeldItem := []
  /-- Output swatches made, and those that have departed or been dropped as fenced (R155). -/
  made     : Nat := 0
  departed : Nat := 0
  /-- One more than the highest chunk index admitted, keyed [core die] (R191). -/
  admitHigh : SMap Nat := {}
  /-- Output swatches sent, keyed [port] (R156). -/
  sent     : SMap Nat := {}
  /-- When the progress timer last restarted, and how long it had run when it was frozen (R157). -/
  timerAt  : Nat := 0
  frozen   : Nat := 0
  /-- The state PAUSED came from (R155). -/
  pausedFrom : Nat := 0
  /-- Chunks that have committed, and at a hall leaf how many, from the lowest on, have had their partials sent
  (R197). -/
  committed : List Nat := []
  partNext  : Nat := 0
  /-- Each sender's manifest (R202), by rank. -/
  manifests : List (Nat × List Nat) := []
  /-- Placement by destination (R205); empty before. -/
  placed   : List Placement := []
  /-- Drop reports sent, and a hall leaf's descriptor sent (R170). -/
  segSent  : Bool := false
  /-- Tokens received and their weight (R164, R172). -/
  tokens   : Nat := 0
  deriving DecidableEq, Repr, Inhabited

end Sys2Proof.Machine
end

