-- ==== Sys2Proof/Machine/TypesOut.lean ====
section
/-!
DEFINITION. What leaves the block: answers to accesses, interrupts, notices, frames and control blocks.
-/

namespace Sys2Proof.Machine

/-- One thing the Herith sends or answers, in the order it does so. -/
inductive Output where
  /-- A read's answer on a port class. -/
  | readData (cls : PortClass) (addr bits value : Nat)
  /-- A read that got no answer on the ring (R421). -/
  | completerAbort (cls : PortClass) (addr : Nat)
  /-- An MSI-X message (R384, R418). -/
  | msix (vector addr data : Nat)
  /-- A FAULT_NOTICE for stations, by their MAC addresses: its 24 bytes (R387, R470). -/
  | notice (stations : List Nat) (body : List Byte)
  /-- A non-maskable trap to the management cores (R384). -/
  | nmi (source : Nat)
  /-- The management firmware's ordinary interrupt (R379). -/
  | irq (source : Nat)
  /-- A frame that leaves a fabric port. -/
  | frame (port : Nat) (f : Frame)
  /-- A frame that leaves with a bad link check (R240). -/
  | badFrame (port : Nat) (f : Frame)
  /-- A control block that leaves a fabric port: its 64 bytes (R309). -/
  | block (port : Nat) (data : List Byte)
  /-- PAM4 symbols that a physical lane of a port under test sends (R313, R314). -/
  | symbols (port lane : Nat) (levels : List Nat)
  /-- Opportunistic data from a port to the host (R307, TYPE 4). -/
  | hostData (port : Nat) (data : List Byte)
  /-- A packet ejected from the lacing ring (R53). -/
  | ejected (stop : Nat) (p : RingPacket)
  /-- A response of the management port to a station, by its MAC address: its payload (R471). -/
  | mgtResponse (station : Nat) (payload : List Byte)
  /-- Bytes written into host memory (R423, R432). -/
  | hostWrite (addr : Nat) (data : List Byte)
  deriving DecidableEq, Repr, Inhabited

end Sys2Proof.Machine
end

