-- ==== Sys2Proof/Machine/TypesSpore.lean ====
section
/-!
DEFINITION. The data of spore sets, epochs and recovery, and of the memories (11_spore_sets_and_recovery.md,
13_memory_tiers_and_host.md).
-/

namespace Sys2Proof.Machine

/-- A drain of a committed epoch to the tier (R354): when it began (root cycles), the buffer, granules acknowledged, and for
a full epoch its data slot. -/
structure Drain where
  epoch : Nat
  since : Nat
  buffer : Nat
  acked : Nat := 0
  /-- 4 KiB granules in all. -/
  total : Nat
  full  : Option Nat := none
  deriving DecidableEq, Repr, Inhabited

/-- The epoch a last is taking (R348 to R355). -/
structure Epoch where
  number    : Nat
  since     : Nat
  /-- The cut has not ended. -/
  cut       : Bool
  /-- The lasts the cut covers, and the ports of members whose descriptors are accepted. -/
  covered   : List Nat
  ports     : List Nat
  buffer    : Nat
  /-- For a full epoch, its data slot (R353). -/
  full      : Option Nat
  committed : Bool := false
  deriving DecidableEq, Repr, Inhabited

/-- What a last recovers to (R363 to R369, R428): from a full epoch's shards (its number and data slot) or, none, from the
latest DONE epoch; and the lasts paused for it. `loaded`: the image was restored with the plan (R428). -/
structure Recovery where
  full    : Option (Nat × Nat) := none
  paused  : List Nat := []
  loaded  : Bool := false
  deriving DecidableEq, Repr, Inhabited

/-- One last's epochs and recovery. -/
structure SporeLast where
  epoch     : Option Epoch := none
  /-- Items held by the cut, with their contexts, oldest first (R348). -/
  held      : List (Nat × HeldItem) := []
  drains    : List Drain := []
  /-- An epoch has closed since plan acceptance or restore (R355). -/
  anyClosed : Bool := false
  /-- When an epoch of the last closed (root cycles). -/
  lastClose : Option Nat := none
  /-- The buffer of the latest DONE epoch (R352), the tier slot of the latest secured one. -/
  doneBuf   : Option Nat := none
  securedSlot : Option Nat := none
  /-- The data slot of the latest secured full epoch (R353), and the parity slot of its image. -/
  fullSlot  : Option Nat := none
  fullImage : Option Nat := none
  recovery  : Option Recovery := none
  deriving DecidableEq, Repr, Inhabited

/-- A group's recovery: the positions lost since its last DONE regrowth or restore, ascending (R370), decode rows loaded into
the core dies (R365), the shards sent in a restore, by position, and whether its regrowth or restore operation has been
opened, and has closed DONE. -/
structure GroupRec where
  lost : List Nat := []
  rows : List (List Nat) := []
  sent : List Nat := []
  opened : Bool := false
  finished : Bool := false
  deriving DecidableEq, Repr, Inhabited

/-- Spore sets: keyed [last], and [last, group]. -/
structure SporeState where
  lasts  : SMap SporeLast := {}
  groups : SMap GroupRec := {}
  /-- Corrected errors of R358's input ECC so far, and what their sum was at each of the last 60 seconds, newest
  first. -/
  eccSum : Nat := 0
  eccRecent : List Nat := []
  /-- Risk at or above the alert level at the last update (R359). -/
  alert  : Bool := false
  deriving DecidableEq, Repr, Inhabited

/-- The memories. -/
structure MemState where
  gddr  : Memory := {}
  /-- Keyed [CXL memory port]: what is stored in its expander. -/
  cxl   : SMap Memory := {}
  /-- Keyed [CXL memory port, 4 KiB unit]: the unit has returned poison and has not been written since (R416). -/
  poison : SMap Bool := {}
  /-- The channels of the address map, one bit each, fixed at boot (R408, R409). -/
  inUse : Nat := 0
  /-- The spore-set key in the memory dies, and that they hold one (R462, R467). -/
  key   : Nat := 0
  keyed : Bool := false
  deriving DecidableEq, Repr, Inhabited

end Sys2Proof.Machine
end

