-- ==== Sys2Proof/Machine/State.lean ====
section
/-!
DEFINITION. The state of the block: plain data, everything the spec gives the machine, and the queue of commands.
-/

namespace Sys2Proof.Machine

/-- Reasons to stop with a fault: none. The spec gives every access and event of the block an effect, so no command
ends in a fault. -/
inductive Fault where
  deriving DecidableEq, Repr

/-- Reasons to stop with a refusal. -/
inductive Refusal where
  /-- The command has no meaning in the model. Raised by an arm of `exec`; safe. -/
  | notModelled (mnemonic : String)
  deriving DecidableEq, Repr

/-- The state. -/
structure State where
  /-- Root cycles since the model began (R26). -/
  now     : Nat := 0
  /-- Commands that wait, first in, first out. -/
  pending : List Instr := []
  /-- What has left the block, oldest first. -/
  out     : List Output := []
  /-- Free values used so far (the model's own field). -/
  freeCtr : Nat := 0
  /-- What this cycle's commands leave for its later ones, with their root cycles (the model's own field). -/
  marks   : List (Nat × Mark) := []
  /-- Register fields that differ from their reset values, keyed by `Fld.key`. -/
  regs    : SMap (Option Nat) := {}
  bus     : BusState := {}
  ring    : RingState := {}
  flt     : FaultState := {}
  evr     : RecorderState := {}
  link    : LinkState := {}
  bpm     : BpmState := {}
  sched   : SchedState := {}
  shape   : ShapeState := {}
  /-- Current operations, keyed [context]. -/
  ctx     : SMap OpCtx := {}
  comp    : ComputeState := {}
  spore   : SporeState := {}
  mem     : MemState := {}
  host    : HostState := {}
  pwr     : PowerState := {}
  boot    : BootState := {}
  sec     : SecState := {}
  deriving DecidableEq, Repr, Inhabited

/-- The block right after PWR_GOOD rises, as delivered. Until boot is DONE the mailbox reads BUSY (R458). -/
def State.reset : State :=
  { regs := { entries := [(F.HST_MBX_RESP_BUSY.key 0 0, some 1)] }
    sec := { nvm := factoryNvm, fuses := { rootDigest := factoryDigest } } }

end Sys2Proof.Machine
end

