-- ==== Sys2Proof/Machine/Ops.lean ====
section
/-!
DEFINITION. The named operations over registers, time, outputs and bits that every meaning is written with.
-/

namespace Sys2Proof.Machine

/-- A field's present value. -/
def State.rd (s : State) (f : Fld) (i : Nat := 0) (j : Nat := 0) : Nat :=
  (s.regs.get (f.key i j)).getD (f.resetVal i)

/-- A field set by hardware, cut to its width. -/
def State.wr (s : State) (f : Fld) (v : Nat) (i : Nat := 0) (j : Nat := 0) : State :=
  let w := v % 2 ^ f.width
  { s with regs := s.regs.set (f.key i j) (if w = f.resetVal i then none else some w) }

/-- The marks of the last management cycle, with one more. -/
def State.withMark (s : State) (m : Mark) : List (Nat × Mark) :=
  (s.now, m) :: s.marks.filter (fun e => decide (s.now < e.1 + 16))

/-- A mark is made. -/
def State.mark (s : State) (m : Mark) : State := { s with marks := s.withMark m }

/-- A mark has been made in the present cycle of a clock, of `n` root cycles. -/
def State.marked (s : State) (m : Mark) (n : Nat := 1) : Bool := s.marks.any (fun e => e.2 == m && e.1 / n == s.now / n)

/-- R19, R20, R26: root cycles in one cycle of a register's clock: the store clock for the switch and its operations, the
arithmetic clock for clusters and numerics, the management clock for faults and the recorder. Where the spec names no
clock for a register, the root's (DESIGN CHOICE, log 121). -/
def Reg.cycle : Reg → Nat
  | .OPC_STATE | .OPC_TAG | .OPC_EXPECT | .OPC_RECV | .OPC_BYTES | .OPC_DROPS | .OPC_OPS | .OPC_FAIL | .OPC_UNDECL | .OPC_REFUSED
  | .OPC_XCH_PLACED | .OPC_XCH_DROPPED | .OPC_XCH_PEAK | .OPC_XCH_BAD => 2
  | .INS_ECC | .INS_ECC_LAST | .INS_GROUP_SCHED | .INS_GROUP_OPP | .INS_FENCE | .INS_MC_STORES | .INS_MC_ENQUEUES
  | .INS_FENCE_GEN | .INS_MC_FENCED_DROP => 2
  | .BPM_POOL_LOW | .BPM_ERR | .BPM_ERR_COUNT | .BPM_ERR_LAST | .BPM_TAG_ECC | .BPM_DROPS => 2
  | .SCH_GATE_HOLD | .SCH_WIN_IDLE | .SCH_LAND | .SCH_SENT | .SCH_EXACT_LOSS | .SCH_CHG_STAT | .SCH_MATCH_STAT | .SCH_SLIPS
  | .SCH_RESEQ_STAT => 2
  | .SHP_SHAPE_STAT | .SHP_POL_STAT | .SHP_MIR_STAT | .SHP_MIR_DROP => 2
  | .CL_PARITY_ERR | .CL_REPLAYS | .CL_TEST | .CL_WELT_ECC | .CL_NODES | .CL_CHUNKS | .CL_WAIT_CYCLES | .CL_BUSY_CYCLES
  | .CL_RESIDUE_ERR => 4
  | .WLT_STATE | .WLT_ADMITS | .WLT_HOLDS | .WLT_WAITS | .WLT_GRANT_FRAMES => 4
  | .NUM_SAT | .NUM_NONFIN_IN | .NUM_NONFIN_GEN | .NUM_UNDERFLOW | .NUM_ZR | .NUM_SHADOW | .NUM_STATE_LOST => 4
  | .FLT_SRC_STAT | .FLT_SRC_COUNT | .FLT_SRC_INFO | .FLT_PIN | .FLT_SELF | .EVR_STAT | .EVR_ECC => 16
  | _ => 1

/-- R20: what an RC counter has counted in this cycle of its clock, and grown by. -/
def State.countedNow (s : State) (f : Fld) (i j : Nat) : Nat × Nat :=
  countedBy ((s.marks.filter (fun e => e.1 / f.reg.cycle == s.now / f.reg.cycle)).map Prod.snd) (f.key i j)

/-- R20, R21: a counter adds `n` and stays at its all-ones value; of one that a read clears it is noted. -/
def State.inc (s : State) (f : Fld) (n : Nat := 1) (i : Nat := 0) (j : Nat := 0) : State :=
  let v := min (s.rd f i j + n) (2 ^ f.width - 1)
  { s.wr f v i j with marks := if f.acc = .rc then s.withMark (.count (f.key i j) n (v - s.rd f i j)) else s.marks }

/-- What the newest mark of a kind says that was made in the present cycle of a clock, of `n` root cycles. -/
def State.noted {α : Type} (s : State) (f : Mark → Option α) (n : Nat := 2) : Option α :=
  (s.marks.filter (fun e => e.1 / n == s.now / n)).findSome? (fun e => f e.2)

/-- What a field held at the start of the cycle, of a clock of `n` root cycles (default the store clock), where a write of
it takes effect only in the next one (R291, R383). -/
def State.rdStart (s : State) (f : Fld) (i : Nat := 0) (j : Nat := 0) (n : Nat := 2) : Nat :=
  (s.noted (fun m => match m with
    | .was k v => if k = f.key i j then some v else none
    | _ => none) n).getD (s.rd f i j)

/-- A write of a field that takes effect in the next cycle of such a clock. -/
def State.wrNext (s : State) (f : Fld) (v : Nat) (i : Nat := 0) (j : Nat := 0) (n : Nat := 2) : State :=
  (s.mark (.was (f.key i j) (s.rdStart f i j n))).wr f v i j

/-- What a field held at the start of its clock's cycle is noted, once. -/
def State.noteWas (s : State) (f : Fld) (i : Nat := 0) (j : Nat := 0) : State :=
  s.mark (.was (f.key i j) (s.rdStart f i j f.reg.cycle))

/-- A field takes again what was noted of it. -/
def State.restoreWas (s : State) (f : Fld) (i : Nat := 0) (j : Nat := 0) : State :=
  s.wr f (s.rdStart f i j f.reg.cycle) i j

/-- A count of `n` made in this cycle of the register's clock is undone. -/
def State.uncount (s : State) (f : Fld) (n : Nat := 1) (i : Nat := 0) (j : Nat := 0) : State :=
  match s.noted (fun m => match m with
    | .count k n' d => if k = f.key i j ∧ n' = n then some d else none
    | _ => none) f.reg.cycle with
  | none => s
  | some d =>
    match s.marks.find? (fun e => e.2 == .count (f.key i j) n d) with
    | none => s
    | some e => { s.wr f (s.rd f i j - d) i j with marks := s.marks.erase e }

/-- R19: hardware sets a W1C bit. -/
def State.latch (s : State) (f : Fld) (i : Nat := 0) (j : Nat := 0) : State := (s.wr f 1 i j).mark (.bit (f.key i j))

/-- R358: n corrected errors count in a register, and in the lichen monitor's input. -/
def State.incCorr (s : State) (f : Fld) (n : Nat) (i : Nat := 0) : State :=
  { s.inc f n i with spore := { s.spore with eccSum := s.spore.eccSum + n } }

/-- A counter that wraps where a field's meaning says so. -/
def State.incWrap (s : State) (f : Fld) (n : Nat := 1) (i : Nat := 0) (j : Nat := 0) : State :=
  s.wr f (s.rd f i j + n) i j

/-- A one-bit field as a truth value. -/
def State.flag (s : State) (f : Fld) (i : Nat := 0) (j : Nat := 0) : Bool := s.rd f i j != 0

/-- Something leaves the block. -/
def State.emit (s : State) (o : Output) : State := { s with out := s.out ++ [o] }

/-- A fresh value that the spec does not fix, and the state in which the next one is another. -/
def State.fresh (s : State) : Nat × State := (Config.freeValue s.freeCtr, { s with freeCtr := s.freeCtr + 1 })

/-- A step over a list of items, in order. -/
def State.each {α : Type} (s : State) (l : List α) (f : State → α → State) : State := l.foldl f s

/-- R389: the safe state holds. -/
def State.isSafe (s : State) : Bool := s.flag F.FLT_SELF_SAFE

/-- The package is powered and not held in reset (R449, R450). -/
def State.powered (s : State) : Bool := !s.pwr.dark && !s.pwr.inReset

/-- The datapath and the state of jobs move: powered, and not in the safe state (R389, R485). -/
def State.active (s : State) : Bool := s.powered && !s.isSafe

/-- A change made only while the package is powered. -/
def whenPowered (s : State) (f : State → State) : State := if s.powered then f s else s

/-- A change made only while the datapath moves. -/
def whenActive (s : State) (f : State → State) : State := if s.active then f s else s

/-- R26, R56: the clocks, as cycles counted from the root's. Store cycles are counted from 2²⁴, the longest round, so that
the round in force may have begun before the model did (R223). -/
def State.store (s : State) : Nat := s.now / 2 + 2 ^ 24
def State.mgmtCycle (s : State) : Nat := s.now / 16

/-- Root cycles in µs, ms and s (2.8 GHz). -/
def us (n : Nat) : Nat := n * 2800
def ms (n : Nat) : Nat := n * 2800000
def secs (n : Nat) : Nat := n * 2800000000

/-- The bit of a number, set or cleared. -/
def setBit (v n : Nat) (b : Bool) : Nat :=
  if v.testBit n = b then v else if b then v + 2 ^ n else v - 2 ^ n

/-- The set bits of a number, ascending, among the first `n`. -/
def bitsOf (v n : Nat) : List Nat := (List.range n).filter (fun k => v.testBit k)

/-- The number of set bits among the first `n`. -/
def popCount (v n : Nat) : Nat := (bitsOf v n).length

/-- The first n entries of a list, padded. -/
def listSet {α : Type} (d : α) : List α → Nat → α → List α
  | [], 0, v => [v]
  | [], n + 1, v => d :: listSet d [] n v
  | _ :: t, 0, v => v :: t
  | h :: t, n + 1, v => h :: listSet d t n v

/-- Plane time in ns (R327). -/
def State.planeTime (s : State) : Nat := s.rd F.PRT_TIME_NOW_NS

/-- Operating seconds (R400). -/
def State.opSec (s : State) : Nat := s.rd F.EVR_OPSEC_OP_SECONDS

/-- LST_PLAN_STAT.STATE (R151). -/
def planEmpty : Nat := 0
def planChecking : Nat := 1
def planDegraded : Nat := 2
def planAccepted : Nat := 3
def planRetiring : Nat := 4
def State.planState (s : State) : Nat := s.rd F.LST_PLAN_STAT_STATE
def State.accepted (s : State) : Bool := s.planState == planAccepted
/-- RWL fields are locked from acceptance to retirement (R22, R151). -/
def State.locked (s : State) : Bool := s.planState == planAccepted || s.planState == planRetiring

end Sys2Proof.Machine
end

