-- ==== Sys2Proof/Machine/Raise.lean ====
section
/-!
DEFINITION. Raising a fault, triggering the recorder, and what follows from the pending sources: the summaries and the
fault pin pair (R378, R382, R392, R396, R397, R405).
-/

namespace Sys2Proof.Machine

/-- R381: the fault sources. -/
def faultSources : List Nat :=
  [0, 1, 2, 3, 4, 5, 6, 7, 8, 9, 10, 11, 12, 13, 14, 16, 17, 18, 19, 20, 21, 22, 24, 25, 26, 27, 28, 29, 30, 31, 32, 33,
   34, 35, 36, 37, 38, 39, 40, 41, 48, 49, 50, 51, 56, 57, 58, 59, 60]

/-- R381, kind L: the level sources. -/
def levelSources : List Nat := [2, 4, 8, 10, 12, 41, 50]

/-- R381, Reset unit: 1 port, 2 laser module, 3 CXL memory port, 4 host port, 0 none. -/
def resetUnit (src : Nat) : Nat :=
  if 33 ≤ src ∧ src ≤ 37 then 1 else if 38 ≤ src ∧ src ≤ 41 then 2 else if src = 50 then 3 else if src = 51 then 4 else 0

/-- R49: ring stops of the dies: MGT, port die d, insole die i, core die c, memory die m, CLK. -/
def stopMgt : Nat := 0
def stopClk : Nat := 1
def stopPort (d : Nat) : Nat := 3 + 5 * (d / 2) + d % 2
def stopIns (i : Nat) : Nat := 5 + 5 * i
def stopCore (c : Nat) : Nat := 6 + 5 * c
def stopMem (m : Nat) : Nat := 7 + 5 * m

/-- R31: the port die of a port, the optical engine of a port. -/
def dieOfPort (p : Nat) : Nat := p / 32
def engineOfPort (p : Nat) : Nat := p / 16

/-- R49: hops from a stop to another, clockwise and counter-clockwise. -/
def hops (r : Ring) (a b : Nat) : Nat :=
  match r with
  | .cw => (b + 24 - a) % 24
  | .ccw => (a + 24 - b) % 24

/-- The stops whose outgoing links a path from `a` to `b` uses. -/
def pathStops (r : Ring) (a b : Nat) : List Nat :=
  (List.range (hops r a b)).map (fun k => match r with
    | .cw => (a + k) % 24
    | .ccw => (a + 24 - k) % 24)

/-- GLB_RING_LINK: a link leaving stop `k` is marked down. -/
def State.linkDown (s : State) (r : Ring) (k : Nat) : Bool :=
  match r with
  | .cw => (s.rd F.GLB_RING_LINK_CW_DOWN).testBit k
  | .ccw => (s.rd F.GLB_RING_LINK_CCW_DOWN).testBit k

/-- R51: a link of the path is marked down. -/
def State.pathCut (s : State) (r : Ring) (a b : Nat) : Bool := (pathStops r a b).any (s.linkDown r)

/-- R51: the ring a sender chooses for any packet that is not a fault message: the one with fewer hops, CW at 12 each,
the other when a link of that path is marked down, and the first again when both are. -/
def State.chooseRing (s : State) (a b : Nat) : Ring :=
  let first : Ring := if hops .cw a b ≤ hops .ccw a b then .cw else .ccw
  let other : Ring := if hops .cw a b ≤ hops .ccw a b then .ccw else .cw
  if s.pathCut first a b && !s.pathCut other a b then other else first

/-! The buffers of the lacing ring (R52). -/

/-- R52: packets that one stop's input of a ring buffers. -/
def ringBuffers : Nat := 4

/-- R52: free packet buffers of a stop's input. -/
def State.ringFree (s : State) (r : Ring) (stop : Nat) : Nat := ringBuffers - (s.ring.buffers.get [r.code, stop]).length

/-- R52: the stop signals ON upstream: two buffers or more are unclaimed; the last one takes a head flit sent during the
one cycle that the OFF signal is on its way (ring cycles of 8 root cycles). -/
def State.ringTakes (s : State) (r : Ring) (stop : Nat) : Bool :=
  decide (2 ≤ s.ringFree r stop) || (s.ringFree r stop == 1 && (match s.ring.offAt.get [r.code, stop] with
    | none => false
    | some t => decide (s.now / 8 ≤ t / 8 + 1)))

/-- A packet claims a buffer of a stop's input; with one or none left the stop signals OFF. -/
def State.ringClaim (s : State) (r : Ring) (stop : Nat) (p : RingPacket) : State :=
  let k := [r.code, stop]
  let s := { s with ring := { s.ring with buffers := s.ring.buffers.upd k (· ++ [p]) } }
  if s.ringFree r stop ≤ 1 then
    { s with ring := { s.ring with offAt := s.ring.offAt.set k (some ((s.ring.offAt.get k).getD s.now)) } }
  else s

/-- A packet enters a ring at a stop. -/
def State.ringEnter (s : State) (r : Ring) (stop : Nat) (p : RingPacket) : State :=
  let t := s.ringClaim r stop p
  { t with ring := { t.ring with entered := t.ring.entered.upd [r.code, stop] (· ++ [p]) } }

/-- R50, R378: a fault message as a packet: one flit. -/
def FaultMsg.packet (m : FaultMsg) : RingPacket := { src := m.die, dst := stopMgt, kind := .fault, flits := 1, tag := m.seq }

/-- R52: a copy of a fault message enters its ring at its die, or waits for two free buffers there. -/
def State.launch (s : State) (r : Ring) (m : FaultMsg) : State :=
  if s.ringFree r m.die < 2 ∨ s.flt.entry.any (fun e => e.1 == r && e.2.die == m.die) = true then
    { s with flt := { s.flt with entry := s.flt.entry ++ [(r, m)] } }
  else { s with flt := { s.flt with flight := s.flt.flight ++ [(r, m)] } }.ringEnter r m.die m.packet

/-- R52, R54: the copies that wait at a stop enter while there is room, ahead of other traffic. -/
def State.enterFaults (s : State) (r : Ring) (stop : Nat) : State :=
  let wait := s.flt.entry.filter (fun e => e.1 == r && e.2.die == stop)
  let rest := s.flt.entry.filter (fun e => !(e.1 == r && e.2.die == stop))
  { s with flt := { s.flt with entry := rest } }.each wait (fun s e => s.launch e.1 e.2)

/-- A packet leaves a stop's input. -/
def State.ringLeave (s : State) (r : Ring) (stop : Nat) (p : RingPacket) : State :=
  let k := [r.code, stop]
  let s := { s with ring := { s.ring with
    buffers := s.ring.buffers.upd k (·.erase p), entered := s.ring.entered.upd k (·.erase p) } }
  let s := if 2 ≤ s.ringFree r stop then { s with ring := { s.ring with offAt := s.ring.offAt.set k none } } else s
  s.enterFaults r stop

/-- A packet leaves a ring, wherever it stands. -/
def State.takeOff (s : State) (r : Ring) (p : RingPacket) : State :=
  s.each ((List.range 24).filter (fun k => (s.ring.buffers.get [r.code, k]).contains p)) (fun s k => s.ringLeave r k p)

/-- R378: the message that waits at a die with a later one merged into it. -/
def mergeMsg (w : Option FaultMsg) (m : FaultMsg) : FaultMsg :=
  match w with
  | none => m
  | some w => { m with n := w.n + m.n, detail := if m.n = 0 then w.detail else m.detail }

/-- R51, R52, R54, R378: a die sends a fault message on both rings with one sequence number, or holds it while links are
marked down on both paths; a copy whose path has a link marked down is lost. -/
def State.sendFault (s : State) (m : FaultMsg) : State :=
  let k := [m.die, m.source]
  let m := mergeMsg (s.flt.waiting.get k) m
  let cw := s.pathCut .cw m.die stopMgt
  let ccw := s.pathCut .ccw m.die stopMgt
  if cw && ccw then { s with flt := { s.flt with waiting := s.flt.waiting.set k (some m) } }
  else
    let m := { m with seq := s.flt.seqs.get [m.die] }
    let s := { s with flt := { s.flt with
        waiting := s.flt.waiting.set k none, seqs := s.flt.seqs.set [m.die] ((m.seq + 1) % 65536) } }.mark (.message m.die)
    let s := if cw then s else s.launch .cw m
    if ccw then s else s.launch .ccw m

/-- R378, R379: a message reaches the collector. Those of one management cycle are decided in ascending source. -/
def State.deliver (s : State) (m : FaultMsg) : State :=
  let later (e : Nat × FaultMsg) : Bool := e.1 / 16 == s.now / 16 && decide (m.source < e.2.source)
  let l := s.flt.inbox
  { s with flt := { s.flt with inbox := l.filter (fun e => !later e) ++ [(s.now, m)] ++ l.filter later } }

/-- R378: a source is raised `n` times: directly at the collector on the management die, by a message elsewhere. -/
def State.raiseN (s : State) (die src n detail : Nat) : State :=
  let m : FaultMsg := { die, source := src, n, detail, level := false, seq := 0 }
  if die = stopMgt then s.deliver m else s.sendFault m

/-- R378: a source is raised once. -/
def State.raise (s : State) (die src : Nat) (detail : Nat := 0) : State := s.raiseN die src 1 detail

/-- R382: ACTIVE of a level source: some unit's condition holds, as the collector last saw it. -/
def State.syncActive (s : State) (src : Nat) : State :=
  s.wr F.FLT_SRC_STAT_ACTIVE
    (b2n (levelSources.contains src && s.flt.levels.entries.any (fun e => e.1.head? == some src))) src

/-- R382: the condition of a level source at one die: any of its units there. -/
def State.dieLevel (s : State) (src die : Nat) : Bool :=
  s.flt.cond.entries.any (fun e => (e.1.take 2 == [src, die]) && e.2)

/-- R382: the condition of a unit of a level source changes. On the management die ACTIVE follows at once and a rise
raises; on another die a message carries the level, and is a raise when the condition became true. -/
def State.setLevel (s : State) (die src unit detail : Nat) (c : Bool) : State :=
  if s.flt.cond.get [src, die, unit] = c then s
  else
    let s := { s with flt := { s.flt with cond := s.flt.cond.set [src, die, unit] c } }
    let level := s.dieLevel src die
    if die = stopMgt then
      let s := { s with flt := { s.flt with levels := s.flt.levels.set [src, die] level } }
      let s := s.syncActive src
      if c then s.raise die src detail else s
    else s.sendFault { die, source := src, n := b2n c, detail, level, seq := 0 }

/-- The sources that are PENDING, ascending. -/
def State.pendingSources (s : State) : List Nat := faultSources.filter (fun i => s.flag F.FLT_SRC_STAT_PENDING i)

/-- The best of a list of sources: highest severity, then lowest index (R387, R405). -/
def State.topSource (s : State) (l : List Nat) : Option Nat :=
  l.foldl (fun best i => match best with
    | none => some i
    | some b => if s.rd F.FLT_SRC_CFG_SEVERITY b < s.rd F.FLT_SRC_CFG_SEVERITY i then some i else some b) none

/-- R386, R392: the conditions under which the pair shows fault. -/
def State.pinFault (s : State) : Bool :=
  s.flt.reaction.isSome || s.flag F.FLT_PIN_SOURCE || s.flag F.FLT_PIN_SAFE || s.flag F.FLT_PIN_BOOTING || s.flag F.FLT_PIN_FORCED

/-- R391: the levels of FLT_P and FLT_N, both low while the Herith is unpowered. -/
def State.fltP (s : State) : Bool := !s.pwr.dark && !s.pinFault
def State.fltN (s : State) : Bool := !s.pwr.dark && s.pinFault

/-- R383, R392, R393, R395, R405: FLT_PIN follows its conditions, a written PIN from the next management cycle on; a transition from normal to fault counts in ASSERTIONS. -/
def State.syncPin (s : State) : State :=
  let s := s.wr F.FLT_PIN_SOURCE (b2n (s.pendingSources.any (fun i => s.rdStart F.FLT_SRC_CFG_PIN i 0 16 != 0)))
  let s := s.wr F.FLT_PIN_SAFE (b2n s.isSafe)
  let s := s.wr F.FLT_PIN_FORCED (s.rd F.FLT_MGT_FORCE)
  let s := if s.flt.reaction.isSome then s.wr F.FLT_PIN_BOOTING 1 else s
  let want := s.pinFault
  let had := s.flag F.FLT_PIN_FAULT
  let s := if want && !had && !s.marked .pairFell 16 then s.inc F.FLT_PIN_ASSERTIONS else s
  let s := if had && !want then s.mark .pairFell else s
  s.wr F.FLT_PIN_FAULT (b2n want)

/-- R387, R405: FLT_SUMMARY, FLT_TOP, the pair, and the time from which notices repeat. -/
def State.syncFaults (s : State) : State :=
  let l := s.pendingSources
  let s := s.wr F.FLT_SUMMARY_PENDING ((l.filter (· < 64)).foldl (fun a i => a + 2 ^ i) 0) 0
  let s := s.wr F.FLT_SUMMARY_PENDING ((l.filter (fun i => decide (64 ≤ i))).foldl (fun a i => a + 2 ^ (i - 64)) 0) 1
  let top := s.topSource l
  let s := s.wr F.FLT_TOP_VALID (b2n top.isSome)
  let s := s.wr F.FLT_TOP_SEVERITY ((top.map (fun i => s.rd F.FLT_SRC_CFG_SEVERITY i)).getD 0)
  let s := s.wr F.FLT_TOP_SOURCE (top.getD 0)
  let since := if l.any (fun i => s.flag F.FLT_SRC_CFG_INT i) then some (s.flt.noticeSince.getD s.now) else none
  let s := { s with flt := { s.flt with noticeSince := since } }
  s.syncPin

/-- R397: how many queued triggers stand before one of this code and source that comes now: those of earlier management
cycles, and of this one those of a lower code, or of the same one and no higher source. -/
def State.triggerPlace (s : State) (code source : Nat) : Nat :=
  let k := (s.marks.filter (fun e => e.2 == Mark.queued && e.1 / 16 == s.now / 16)).length
  let old := s.evr.queue.length - k
  old + ((s.evr.queue.drop old).takeWhile (fun u => decide (u.code < code) || (u.code == code && decide (u.source ≤ source)))).length

/-- R396, R397: a trigger enters the queue of 64 at its place; what the queue does not hold then is discarded and counted;
nothing is recorded while ENABLE is 0. -/
def State.trigger (s : State) (code source severity set arg : Nat) : State :=
  if !s.flag F.EVR_CFG_ENABLE then s
  else
    let t : Trigger := { code, source, severity, set, arg, opSec := s.opSec, time := s.planeTime }
    let k := s.triggerPlace code source
    let q := s.evr.queue.take k ++ t :: s.evr.queue.drop k
    let s := { s with evr := { s.evr with queue := q.take 64 } }.mark .queued
    let s := s.wr F.EVR_STAT_QUEUE s.evr.queue.length
    if q.length ≤ 64 then s
    else
      let s := s.inc F.EVR_STAT_DROPPED
      { s with evr := { s.evr with dropped := min (s.evr.dropped + 1) (2 ^ 32 - 1) } }

/-- R396: a trigger of EVR_CFG.SET_OTHER. -/
def State.triggerOther (s : State) (code arg : Nat) : State := s.trigger code 0xFF 0 (s.rd F.EVR_CFG_SET_OTHER) arg

/-- R397: SEQ of the record that a FAULT trigger of a source will make, if it enters the queue. -/
def State.nextTriggerSeq (s : State) (source : Nat) : Option Nat :=
  let k := s.triggerPlace 1 source
  if s.flag F.EVR_CFG_ENABLE && decide (k < 64) then some (s.rd F.EVR_NEXT_SEQ + b2n s.evr.snapshot.isSome + k) else none

/-- The bits of SCH_EXACT_LOSS (R250). -/
def exactBits : List Fld :=
  [F.SCH_EXACT_LOSS_LAND, F.SCH_EXACT_LOSS_REPLAY, F.SCH_EXACT_LOSS_CLUSTER, F.SCH_EXACT_LOSS_SPILL,
   F.SCH_EXACT_LOSS_FENCE, F.SCH_EXACT_LOSS_TABLE, F.SCH_EXACT_LOSS_EARLY, F.SCH_EXACT_LOSS_ECC,
   F.SCH_EXACT_LOSS_RESEQ, F.SCH_EXACT_LOSS_OPPSCHED]

/-- R250, R252: an event that ends cycle-exactness sets its bit; ROUND captures while all bits were clear. -/
def State.exactLoss (s : State) (f : Fld) : State :=
  let s := if exactBits.all (fun g => !s.flag g) then s.wr F.SCH_EXACT_LOSS_ROUND (s.rd F.SCH_ROUND_NUMBER) else s
  s.latch f

/-- An event of this store cycle that would have ended cycle-exactness has not happened: its bit is as it was. -/
def State.exactUndo (s : State) (f : Fld) : State :=
  let s := if s.rdStart f = 0 then s.wr f 0 else s
  if exactBits.all (fun g => !s.flag g) then s.restoreWas F.SCH_EXACT_LOSS_ROUND else s

/-- R250: an event that ends cycle-exactness, which the rest of the store cycle may undo. -/
def State.exactLossNoted (s : State) (f : Fld) : State :=
  ((s.noteWas f).noteWas F.SCH_EXACT_LOSS_ROUND).exactLoss f

end Sys2Proof.Machine
end

