-- ==== Sys2Proof/Machine/Bpm.lean ====
section
/-!
DEFINITION. The buffer pools: layout, allocation, quotas and pointer checks (08_buffer_pools.md).
-/

namespace Sys2Proof.Machine

/-- R259: bytes and cells of a buffer. -/
def poolSize (q : Nat) : Nat := [256, 2048, 16384, 131072].getD q 0
def poolCells (q : Nat) : Nat := [1, 8, 64, 512].getD q 1

/-- R262: the colour of a pool-1 buffer. -/
def cellColour (n : Nat) : Nat := b2n (n.testBit 3 != n.testBit 11)

/-- R237: bank group, bank of the group, row, and insole die of a cell. -/
def cellGroup (n : Nat) : Nat := Nat.xor (n % 16) (n / 256 % 16)
def cellBank (n : Nat) : Nat := 16 * cellGroup n + Nat.xor (n / 16 % 16) (n / 4096 % 16)
def cellRow (n : Nat) : Nat := n / 256 % 16384
def cellDie (n : Nat) : Nat := cellGroup n / 4

/-- R269: the buffer pointer. -/
def mkPtr (pool gen cell : Nat) : Nat := pool * 2 ^ 30 + gen % 256 * 2 ^ 22 + cell % 2 ^ 22
def ptrPool (p : Nat) : Nat := p / 2 ^ 30 % 4
def ptrGen (p : Nat) : Nat := p / 2 ^ 22 % 256
def ptrCell (p : Nat) : Nat := p % 2 ^ 22

/-- R263: stored bytes of an object. -/
def Item.stored : Item → Nat
  | .control _ data => 4 + data.length
  | .swatch _ data => data.length
  | .descriptor _ => 64
  | .mirror m => if m.trunc then m.bytes.length else 4
  | .host data => data.length
  | .block n => n

/-- R263: bytes of an object's header, held in the tag. -/
def Item.headerBytes : Item → Nat
  | .swatch .. => 32
  | .mirror _ => 32
  | _ => 0

/-- R307, R290: the length on the link of the frame that carries an object. -/
def Item.linkLength : Item → Nat
  | .mirror m => 32 + 32 + m.copied
  | i => 32 + i.headerBytes + i.stored

/-- R263: the pool and the number of buffers of an object of B stored bytes. -/
def poolFor (b : Nat) : Nat × Nat :=
  let q := if b ≤ 512 then 0 else if b ≤ 4096 then 1 else if b ≤ 32768 then 2 else 3
  (q, if b ≤ poolSize q then 1 else 2)

/-- R270: the list an account draws on: 0 scheduled, 1 opportunistic. -/
def acctList (a : Nat) : Nat := if a ≤ 15 then 0 else 1
def acctsOf (l : Nat) : List Nat := if l = 0 then List.range 16 else [16, 17, 18, 19]

/-- Number of buffers left in a free list. -/
def FreeList.count (l : FreeList) : Nat := (l.stop - l.fresh) + l.ret.length

/-- R271: free(L): buffers in a list, over both colours. -/
def State.freeCount (s : State) (q l : Nat) : Nat :=
  (s.bpm.lists.get [q, l, 0]).count + (s.bpm.lists.get [q, l, 1]).count

/-- R266: held(a, q) at the start of the store cycle. -/
def State.heldStart (s : State) (a q : Nat) : Nat :=
  (s.noted (fun m => match m with
    | .heldWas a' q' n => if a' = a ∧ q' = q then some n else none
    | _ => none)).getD (s.rd F.BPM_HELD_BUFFERS a q)

/-- R266: what a list, of one colour, had free at the start of the store cycle. -/
def State.listStart (s : State) (q l colour : Nat) : Nat :=
  (s.noted (fun m => match m with
    | .freeWas q' l' c n => if q' = q ∧ l' = l ∧ c = colour then some n else none
    | _ => none)).getD (s.bpm.lists.get [q, l, colour]).count
def State.freeStart (s : State) (q l : Nat) : Nat := s.listStart q l 0 + s.listStart q l 1

/-- R266: the counts of the start of the store cycle are noted before one of them changes. -/
def State.noteCounts (s : State) (q l colour a : Nat) : State :=
  (s.mark (.heldWas a q (s.heldStart a q))).mark (.freeWas q l colour (s.listStart q l colour))

/-- R266: buffers that a list has given in the present store cycle. -/
def State.tookNow (s : State) (q l : Nat) : Nat :=
  (s.marks.filter (fun e => e.1 / 2 == s.now / 2)).foldl (fun n e => match e.2 with
    | .took q' l' k => if q' = q ∧ l' = l then n + k else n
    | _ => n) 0

/-- R266: buffers given back to a list in the present store cycle. -/
def State.gaveNow (s : State) (q l : Nat) : Nat :=
  (s.marks.filter (fun e => e.1 / 2 == s.now / 2)).foldl (fun n e => match e.2 with
    | .gave q' l' k => if q' = q ∧ l' = l then n + k else n
    | _ => n) 0

/-- R271: owed: what other accounts' unfilled reservations need. -/
def State.owed (s : State) (q a : Nat) : Nat :=
  ((acctsOf (acctList a)).filter (· != a)).foldl
    (fun t u => t + (s.rd F.BPM_ACCT_RESERVE u q - s.heldStart u q)) 0

/-- R266, R271: an allocation of k buffers from pool q for account a is granted, by the counts at the start of the store
cycle. -/
def State.allocOk (s : State) (k q a : Nat) : Bool :=
  let l := acctList a
  let held := s.heldStart a q
  let free := s.freeStart q l
  let colours := k = 1 ∨ q ≠ 1 ∨ (1 ≤ s.listStart q l 0 ∧ 1 ≤ s.listStart q l 1)
  let two := k = 1 ∨ k ≤ free
  decide (colours ∧ two) &&
    (decide (held + k ≤ s.rd F.BPM_ACCT_RESERVE a q ∧ k ≤ free) ||
     decide (held + k ≤ s.rd F.BPM_ACCT_LIMIT a q ∧ s.owed q a + k ≤ free))

/-- R260: the cell of the i-th entry of a list that was never allocated; a colour list of pool 1 counts pairs (R262). -/
def State.freshCell (s : State) (q colour i : Nat) : Nat :=
  let base := s.rd F.BPM_POOL_BASE_CELL q
  if q = 1 then
    let n := base + 16 * i
    if cellColour n = colour then n else n + 8
  else base + i * poolCells q

/-- BPM_POOL_FREE and BPM_POOL_LOW of pool q follow the lists. -/
def State.syncFree (s : State) (q : Nat) : State :=
  let fs := s.freeCount q 0
  let fo := s.freeCount q 1
  let s := s.wr F.BPM_POOL_FREE_SCHED fs q
  let s := s.wr F.BPM_POOL_FREE_OPP fo q
  let s := s.wr F.BPM_POOL_LOW_SCHED (min (s.rd F.BPM_POOL_LOW_SCHED q) fs) q
  s.wr F.BPM_POOL_LOW_OPP (min (s.rd F.BPM_POOL_LOW_OPP q) fo) q

/-- A free list changed. -/
def State.setList (s : State) (q l colour : Nat) (f : FreeList) : State :=
  { s with bpm := { s.bpm with lists := s.bpm.lists.set [q, l, colour] f } }

/-- The stored object under a cell changed. -/
def State.setStored (s : State) (cell : Nat) (i : Option Item) : State :=
  { s with bpm := { s.bpm with objects := s.bpm.objects.set [cell] i } }

/-- R266: the head of a list, and the list without it; a buffer freed in this store cycle is not yet there. -/
def State.popList (s : State) (q l colour : Nat) : Option (Nat × State) :=
  let fl := s.bpm.lists.get [q, l, colour]
  let put (f : FreeList) : State := s.setList q l colour f
  if fl.fresh < fl.stop then some (s.freshCell q colour fl.fresh, put { fl with fresh := fl.fresh + 1 })
  else match fl.ret with
    | [] => none
    | c :: t => if c.2 ≤ s.store then some (c.1, put { fl with ret := t }) else none

/-- R276: BPM_ERR_LAST captures while the four bits are clear, and of two errors in one cycle the one first in the order
of R266 (R275); then the bit is set and counted, and the source raised by the insole die of the first cell the free names,
`named` (R273). `kind`: 0 DOUBLE_FREE, 1 FOREIGN_FREE, 2 BAD_POINTER, 3 TAG_ECC. -/
def State.bpmError (s : State) (kind account requester ptr named : Nat) : State :=
  let clear := !s.flag F.BPM_ERR_DOUBLE_FREE && !s.flag F.BPM_ERR_FOREIGN_FREE && !s.flag F.BPM_ERR_BAD_POINTER &&
    !s.flag F.BPM_ERR_TAG_ECC
  let first := match s.noted (fun m => match m with
      | .captured r => some r
      | _ => none) with
    | none => false
    | some r => decide (requester < r)
  let s := if clear || first then
      let s := s.mark (.captured requester)
      let s := s.wr F.BPM_ERR_LAST_VALID 1
      let s := s.wr F.BPM_ERR_LAST_KIND kind
      let s := s.wr F.BPM_ERR_LAST_ACCOUNT account
      let s := s.wr F.BPM_ERR_LAST_REQUESTER requester
      s.wr F.BPM_ERR_LAST_POINTER ptr
    else s
  let die := stopIns (cellDie (ptrCell named))
  match kind with
  | 0 => ((s.latch F.BPM_ERR_DOUBLE_FREE).inc F.BPM_ERR_COUNT_DOUBLE).raise die 26 ptr
  | 1 => ((s.latch F.BPM_ERR_FOREIGN_FREE).inc F.BPM_ERR_COUNT_FOREIGN).raise die 27 ptr
  | 2 => ((s.latch F.BPM_ERR_BAD_POINTER).inc F.BPM_ERR_COUNT_BAD).raise die 25 ptr
  | _ => ((s.latch F.BPM_ERR_TAG_ECC).inc F.BPM_TAG_ECC_UNCORR).raise die 28 ptr

/-- A tag changed. -/
def State.setTag (s : State) (cell : Nat) (t : Tag) : State :=
  { s with bpm := { s.bpm with tags := s.bpm.tags.set [cell] t } }

def State.tag (s : State) (cell : Nat) : Tag := s.bpm.tags.get [cell]

/-- R273: a buffer with an uncorrectable tag is withdrawn. -/
def State.withdraw (s : State) (cell : Nat) : State := s.setTag cell { s.tag cell with withdrawn := true }

/-- R273: what the tags read at an allocation or a free show: `corrected` of them corrected and counted; the tag of cell
`lost` with an uncorrectable error, which a rewrite does not clear where it is `stuck` (R265). -/
def State.tagErrors (s : State) (corrected : Nat) (lost : Option Nat) (stuck : Bool) : State :=
  let s := s.incCorr F.BPM_TAG_ECC_CORR corrected
  match lost with
  | none => s
  | some c => s.setTag c { s.tag c with bad := true, stuck }

/-- The head of a list, passing over buffers whose tag is uncorrectable: each is withdrawn and reported (R273). -/
def takeHead : Nat → State → Nat → Nat → Nat → Nat → Nat → Option Nat × State
  | 0, s, _, _, _, _, _ => (none, s)
  | fuel + 1, s, q, l, colour, account, requester =>
    match s.popList q l colour with
    | none => (none, s)
    | some (cell, s) =>
      if (s.tag cell).bad then
        takeHead fuel ((s.withdraw cell).bpmError 3 account requester (mkPtr q 0 cell) cell) q l colour account requester
      else (some cell, s)

/-- R268: a buffer becomes held, its GEN one further. -/
def State.holdBuffer (s : State) (q cell account next : Nat) : State :=
  let t := s.tag cell
  let s := s.mark (.took q (acctList account) 1)
  let s := s.setTag cell { t with held := true, gen := (t.gen + 1) % 256, account, refcnt := 0, next }
  s.inc F.BPM_HELD_BUFFERS 1 account q

/-- R266: buffers of a list that an allocation of the present store cycle can take: not those freed in it. -/
def State.takable (s : State) (q l colour : Nat) : Nat :=
  let fl := s.bpm.lists.get [q, l, colour]
  (fl.stop - fl.fresh) + (fl.ret.filter (fun c => decide (c.2 ≤ s.store))).length

/-- R265: the colour list a single pool-1 buffer comes from. -/
def State.singleColour (s : State) (q l : Nat) : Nat :=
  if q = 1 ∧ s.takable q l 0 < s.takable q l 1 then 1 else 0

/-- R263, R265, R271: an allocation that is decided: granted with the object's pointer, or refused. A list whose
buffers are all withdrawn on the way refuses. -/
def State.alloc (s : State) (item : Item) (account requester : Nat) : Option Nat × State :=
  let (q, k) := poolFor item.stored
  let l := acctList account
  if !s.allocOk k q account then (none, s)
  else
    let s := (s.noteCounts q l 0 account).noteCounts q l 1 account
    let fuel := s.freeCount q l + 1
    let c1 := if q = 1 ∧ k = 2 then 0 else s.singleColour q l
    match takeHead fuel s q l c1 account requester with
    | (none, s) => (none, s.syncFree q)
    | (some cell, s) =>
      if k = 1 then
        let s := s.holdBuffer q cell account 0
        let ptr := mkPtr q (s.tag cell).gen cell
        let s := s.setStored cell (some item)
        (some ptr, s.syncFree q)
      else
        match takeHead fuel s q l (if q = 1 then 1 else 0) account requester with
        | (none, s) =>
          -- the second buffer of the pair was withdrawn and none remains: the first stays at the head of its list
          let fl := s.bpm.lists.get [q, l, c1]
          let back : FreeList := if fl.fresh < fl.stop then { fl with fresh := fl.fresh - 1 }
            else { fl with ret := (cell, s.store) :: fl.ret }
          (none, (s.setList q l c1 back).syncFree q)
        | (some cell2, s) =>
          let s := s.holdBuffer q cell2 account 0
          let s := s.holdBuffer q cell account (mkPtr q (s.tag cell2).gen cell2)
          let ptr := mkPtr q (s.tag cell).gen cell
          let s := s.setStored cell (some item)
          (some ptr, s.syncFree q)

/-- R273, check 1 for one pointer: the cell lies in its pool and starts a buffer. -/
def State.ptrShape (s : State) (p : Nat) : Bool :=
  let q := ptrPool p
  let c := ptrCell p
  let base := s.rd F.BPM_POOL_BASE_CELL q
  decide (base ≤ c ∧ c < base + s.rd F.BPM_POOL_CFG_COUNT q * poolCells q ∧ (c - base) % poolCells q = 0)

/-- R273, R274: the first check that one pointer of a free fails: the error's kind. -/
def State.ptrFails (s : State) (p account : Nat) (other : Option Nat) : Option Nat :=
  let t := s.tag (ptrCell p)
  if !s.ptrShape p then some 2
  else if (match other with
    | none => false
    | some o => decide (ptrPool p = 1 ∧ cellColour (ptrCell p) = cellColour (ptrCell o))) then some 2
  else if t.bad then some 3
  else if !t.held || t.gen != ptrGen p then some 0
  else if t.account != account then some 1
  else none

/-- A buffer goes back to the tail of its list (R265), STATE free. It can be allocated from the next store cycle (R266). -/
def State.returnBuffer (s : State) (p : Nat) : State :=
  let q := ptrPool p
  let c := ptrCell p
  let t := s.tag c
  let l := acctList t.account
  let colour := if q = 1 then cellColour c else 0
  let fl := s.bpm.lists.get [q, l, colour]
  let s := (s.noteCounts q l colour t.account).setTag c { t with held := false, refcnt := 0, next := 0, account := 0 }
  let s := (s.setList q l colour { fl with ret := fl.ret ++ [(c, s.store + 1)] }).mark (.gave q l 1)
  let s := s.wr F.BPM_HELD_BUFFERS (s.rd F.BPM_HELD_BUFFERS t.account q - 1) t.account q
  s.syncFree q

/-- R266: a free waits for the next store cycle, behind those of earlier cycles and of earlier requesters. -/
def State.waitFree (s : State) (p account requester : Nat) : State :=
  let r : FreeReq := { ptr := p, account, requester, since := s.store }
  let before (e : FreeReq) : Bool := e.since < r.since || (e.since == r.since && e.requester ≤ r.requester)
  { s with bpm := { s.bpm with frees := s.bpm.frees.takeWhile before ++ r :: s.bpm.frees.dropWhile before } }

/-- R273, R275: the first pointer of a free fails check `kind`. An object that a later requester has freed in this store
cycle counts as freed by this one, and the other free as the one that fails. -/
def State.freeFails (s : State) (kind p account requester : Nat) : State :=
  let s := if kind = 3 then s.withdraw (ptrCell p) else s
  let was := s.noted (fun m => match m with
    | .freedNow p' a r => if kind = 0 ∧ p' = p ∧ requester < r then some (a, r) else none
    | _ => none)
  match was with
  | none => s.bpmError kind account requester p p
  | some (a, r) =>
    if a = account then (s.bpmError 0 account r p p).mark (.freedNow p account requester)
    else s.bpmError 1 account requester p p

/-- R273: a free names an object by its pointer. It returns every buffer of the object, or is ignored with its error
reported; it waits when its list has served 16 frees in this store cycle, or one waits ahead of it (R266). -/
def State.freeObj (s : State) (p account requester : Nat) : State :=
  match s.ptrFails p account none with
  | some k => s.freeFails k p account requester
  | none =>
    let next := (s.tag (ptrCell p)).next
    let list := (ptrPool p, acctList account)
    let late (k : Nat) : Bool := decide (16 < s.gaveNow list.1 list.2 + k) ||
      s.bpm.frees.any (fun r => (ptrPool r.ptr, acctList r.account) == list)
    if next = 0 then
      if late 1 then s.waitFree p account requester
      else ((s.setStored (ptrCell p) none).returnBuffer p).mark (.freedNow p account requester)
    else match s.ptrFails next account (some p) with
      | some k =>
        let s := if k = 3 then s.withdraw (ptrCell next) else s
        s.bpmError k account requester next p
      | none =>
        if late 2 then s.waitFree p account requester
        else
          let s := s.setStored (ptrCell p) none
          ((s.returnBuffer p).returnBuffer next).mark (.freedNow p account requester)

/-- R266: at the start of a store cycle, the frees that wait are served; those beyond 16 of a list wait on. -/
def State.serveFrees (s : State) : State :=
  let l := s.bpm.frees
  ({ s with bpm := { s.bpm with frees := [] } }).each l (fun s e =>
    let after := s.freeObj e.ptr e.account e.requester
    if after.bpm.frees.length = s.bpm.frees.length then after
    else { s with bpm := { s.bpm with frees := s.bpm.frees ++ [e] } })

/-- R274, R291: the holder of an object gives it up: it is freed, unless mirror copies still refer to it, of which the last
to go frees it. -/
def State.dropObj (s : State) (p account requester : Nat) : State :=
  if s.ptrFails p account none = none ∧ (s.tag (ptrCell p)).refcnt ≠ 0 then s else s.freeObj p account requester

/-- R217, R274: a decrement of a reference count. At zero the object is freed; a count already zero is checked as a free
that fails check 3. -/
def State.decRef (s : State) (p account requester : Nat) : State :=
  match s.ptrFails p account none with
  | some k =>
    let s := if k = 3 then s.withdraw (ptrCell p) else s
    s.bpmError (if k = 1 ∧ (s.tag (ptrCell p)).refcnt = 0 then 0 else k) account requester p p
  | none =>
    let t := s.tag (ptrCell p)
    if t.refcnt = 0 then s.bpmError 0 account requester p p
    else if t.refcnt = 1 then (s.setTag (ptrCell p) { t with refcnt := 0 }).freeObj p account requester
    else s.setTag (ptrCell p) { t with refcnt := t.refcnt - 1 }

/-- R215: references added to an object. -/
def State.addRefs (s : State) (p n : Nat) : State :=
  let t := s.tag (ptrCell p)
  s.setTag (ptrCell p) { t with refcnt := t.refcnt + n }

/-- The object a pointer names. -/
def State.object (s : State) (p : Nat) : Item := (s.bpm.objects.get [ptrCell p]).getD (.block 0)

/-- The object stored under a pointer is replaced (its bytes stay where they are). -/
def State.setObject (s : State) (p : Nat) (i : Item) : State :=
  s.setStored (ptrCell p) (some i)

/-- R260, R265: the lists of pool q built in ascending order. -/
def State.buildLists (s : State) (q : Nat) (schedOnly : Bool) : State :=
  let n := s.rd F.BPM_POOL_CFG_COUNT q
  let sc := s.rd F.BPM_POOL_CFG_SCHED q
  let put (s : State) (l colour : Nat) (f : FreeList) : State := s.setList q l colour f
  let s := if q = 1 then
      let s := (put s 0 0 { fresh := 0, stop := sc / 2 })
      let s := (put s 0 1 { fresh := 0, stop := sc / 2 })
      if schedOnly then s
      else put (put s 1 0 { fresh := sc / 2, stop := n / 2 }) 1 1 { fresh := sc / 2, stop := n / 2 }
    else
      let s := put s 0 0 { fresh := 0, stop := sc }
      if schedOnly then s else put s 1 0 { fresh := sc, stop := n }
  s.syncFree q

/-- A cell lies in a scheduled buffer of its pool. -/
def State.schedCell (s : State) (c : Nat) : Bool :=
  (List.range 2).any (fun q =>
    let b := s.rd F.BPM_POOL_BASE_CELL q
    decide (b ≤ c ∧ c < b + s.rd F.BPM_POOL_CFG_SCHED q * poolCells q))

/-- R265: a free list without the buffers that stay withdrawn: they are taken out of the ascending order. -/
def State.dropWithdrawn (s : State) (cells : List Nat) : State :=
  s.each cells (fun s c =>
    let q := if s.rd F.BPM_POOL_BASE_CELL 0 ≤ c then 0 else 1
    let colour := if q = 1 then cellColour c else 0
    let fl := s.bpm.lists.get [q, 0, colour]
    let all := (List.range (fl.stop - fl.fresh)).map (fun i => (s.freshCell q colour (fl.fresh + i), s.store)) ++ fl.ret
    let f : FreeList := { fresh := 0, stop := 0, ret := all.filter (fun e => e.1 != c) }
    (s.setList q 0 colour f).syncFree q)

/-- R239, R265: at plan acceptance the scheduled lists are rebuilt: tags rewritten free with their GEN kept (0 where it
could not be read), held counts of accounts 0 to 15 zero, buffers whose tag still fails stay withdrawn. -/
def State.rebuildScheduled (s : State) : State :=
  let mine := s.bpm.tags.entries.filter (fun e => s.schedCell (e.1.headD 0))
  let s := s.each mine (fun s e =>
    let c := e.1.headD 0
    let t := e.2
    let s := s.setStored c none
    if t.bad && t.stuck then
      (s.setTag c { t with held := false, account := 0, refcnt := 0, next := 0, withdrawn := true }).inc F.BPM_TAG_ECC_UNCORR
    else s.setTag c { held := false, gen := if t.bad then 0 else t.gen })
  let s := s.each (List.range 16) (fun s a => s.each (List.range 4) (fun s q => s.wr F.BPM_HELD_BUFFERS 0 a q))
  let s := (s.buildLists 0 true).buildLists 1 true
  let s := { s with bpm := { s.bpm with frees := s.bpm.frees.filter (fun r => decide (15 < r.account)) } }
  s.dropWithdrawn ((mine.filter (fun e => e.2.bad && e.2.stuck)).map (fun e => e.1.headD 0))

/-- R266: an allocation is asked for. -/
def State.request (s : State) (requester account : Nat) (item : Item) (purpose : Purpose) : State :=
  let r : AllocReq := { requester, account, item, purpose, since := s.store }
  { s with bpm := { s.bpm with requests := s.bpm.requests ++ [r] } }

/-- The list a request draws on: its pool, 0 scheduled or 1 opportunistic, and its buffers. -/
def AllocReq.list (r : AllocReq) : Nat × Nat := ((poolFor r.item.stored).1, acctList r.account)

/-- R266: a request precedes another: it was made in an earlier store cycle, or in the same one by a lower requester. -/
def reqBefore (a b : AllocReq) : Bool := a.since < b.since || (a.since == b.since && a.requester ≤ b.requester)

/-- R266: the requests in the order they are served: those of earlier store cycles first, then by requester, then by
arrival. -/
def State.requestOrder (s : State) : List AllocReq :=
  s.bpm.requests.foldl (fun l r => l.takeWhile (reqBefore · r) ++ r :: l.dropWhile (reqBefore · r)) []

/-- R266: the next allocation on a list may be decided in this store cycle: no request in `ahead` still waits for its
decision in it, and the list has not given its 16 buffers. -/
def State.listServes (s : State) (ahead : List AllocReq) (q l k : Nat) : Bool :=
  ahead.all (fun r => r.list != (q, l) || r.tried == some s.store) && decide (s.tookNow q l + k ≤ 16)

/-- R266: an allocation decided in the cycle it is asked for, when nothing waits ahead of it. -/
def State.allocNow (s : State) (item : Item) (account requester : Nat) : Option Nat × State :=
  let (q, k) := poolFor item.stored
  if s.listServes s.bpm.requests q (acctList account) k then s.alloc item account requester else (none, s)

/-- R267: what follows when an arrival or a mirror copy of account `a` is not stored. -/
def State.bpmDrop (s : State) (a : Nat) : State := s.inc F.BPM_DROPS_COUNT 1 a

/-- The requester number of a port die, a core die, a memory die, the management die (R266). -/
def reqPort (d : Nat) : Nat := d
def reqCore (c : Nat) : Nat := 8 + c
def reqMem (m : Nat) : Nat := 12 + m
def reqMgt : Nat := 16

end Sys2Proof.Machine
end

