-- ==== Sys2Proof/Machine/Egress.lean ====
section
/-!
DEFINITION. Fences, spray groups, egress queues, opportunistic queues and mirror copies
(06_exchange_and_multicast.md, 07_scheduled_switching.md, 09_shaping_and_mirroring.md).
-/

namespace Sys2Proof.Machine

/-- R218: port p is fenced. -/
def State.fenced (s : State) (p : Nat) : Bool := (s.rd F.INS_FENCE_PORTS (p / 64)).testBit (p % 64)

/-- R442: domain d is powered. -/
def State.domainOn (s : State) (d : Nat) : Bool := (s.rd F.PWR_DOM_STAT_ON (d / 64)).testBit (d % 64)

/-- R441: the domain of port p and of its optical engine. -/
def engineDomain (e : Nat) : Nat := 392 + e
def State.portOn (s : State) (p : Nat) : Bool := s.domainOn p && s.domainOn (engineDomain (engineOfPort p))

/-- PRT_LINK_STAT.STATE values (R303). -/
def linkOff : Nat := 0
def linkNoSignal : Nat := 1
def linkAligning : Nat := 2
def linkDeskew : Nat := 3
def linkUp : Nat := 4
def linkTest : Nat := 5
def State.portUp (s : State) (p : Nat) : Bool := s.rd F.PRT_LINK_STAT_STATE p == linkUp

/-- R218, R312, R334, R441: hardware holds the fence of p set. -/
def State.fenceHeld (s : State) (p : Nat) : Bool :=
  s.flag F.PRT_DISC_QUAR p || s.rd F.PRT_LINK_STAT_STATE p == linkTest || !s.portOn p

/-- The lasts that the plan defines. -/
def State.lasts (s : State) : List Nat := (List.range 16).filter (fun t => s.flag F.LST_CFG_VALID t)

/-- The operands of last t. -/
def State.operands (s : State) (t : Nat) : List Nat := List.range (s.rd F.LST_CFG_OPERANDS t)

/-- R218: LST_MEMBER.FENCED and LST_STATE.FENCED follow the fence bits. -/
def State.syncFenced (s : State) : State :=
  s.each s.lasts (fun s t =>
    let s := s.each (s.operands t) (fun s r => s.wr F.LST_MEMBER_FENCED (b2n (s.fenced (s.rd F.LST_MEMBER_PORT t r))) t r)
    s.wr F.LST_STATE_FENCED ((s.operands t).filter (fun r => s.flag F.LST_MEMBER_FENCED t r)).length t)

/-- The ports of degraded group g (R256). -/
def State.degPorts (s : State) (g : Nat) : List Nat := (List.range 256).filter (fun p => s.rd F.SCH_PORT_CFG_DEG_GROUP p == g)

/-- R256: a fence of port p asks for its degraded group's switch, when a plan is accepted and some port of the group has
active bank 0. -/
def State.askDegraded (s : State) (p : Nat) : State :=
  let g := s.rd F.SCH_PORT_CFG_DEG_GROUP p
  if g != 0 && s.accepted && !s.sched.degPending.contains g &&
      (s.degPorts g).any (fun q => s.rd F.SCH_WIN_BASE_BANK q == 0) then
    { s with sched := { s.sched with degPending := s.sched.degPending ++ [g] } }
  else s

/-- R362: the time since a port was fenced runs until its member is both PRESENT and unfenced. -/
def State.syncFailing (s : State) : State :=
  let members (p : Nat) : List Bool := s.lasts.flatMap (fun t =>
    ((s.operands t).filter (fun r => s.rd F.LST_MEMBER_PORT t r == p)).map (fun r => s.flag F.LST_MEMBER_PRESENT t r))
  s.each s.sched.fenceSince.entries (fun s e => match e.1 with
    | [p] => if !s.fenced p && (members p).all id then { s with sched := { s.sched with fenceSince := s.sched.fenceSince.set [p] none } } else s
    | _ => s)

/-- R243: the lowest port of p's spray group, and the group's ports. -/
def State.groupOf (s : State) (p : Nat) : Nat := s.rd F.SCH_PORT_CFG_GROUP_BASE p
def State.groupPorts (s : State) (b : Nat) : List Nat := (List.range 256).filter (fun p => s.groupOf p == b)

/-- R219, R244: a target takes no enqueue: every port of its group is fenced. -/
def State.targetFenced (s : State) (b : Nat) : Bool := (s.groupPorts b).all s.fenced

/-- R149: the next SEQ of an operation's output towards a group. -/
def State.nextSeq (s : State) (ctx opnum group : Nat) : Nat × State :=
  let k := [ctx, opnum, group]
  let n := s.sched.txSeq.get k
  (n, { s with sched := { s.sched with txSeq := s.sched.txSeq.set k ((n + 1) % 2 ^ 32) } })

/-- R155, R156, R221: an output of the current operation of its context has departed (`sent`) or has been dropped as
fenced. -/
def State.noteOutput (s : State) (h : SwHeader) (port : Nat) (sent : Bool) : State :=
  if s.rd F.NUM_OPSEQ_OPNUM h.context != h.opnum then s
  else { s with ctx := s.ctx.upd [h.context] (fun c => { c with
    departed := c.departed + 1
    sent := if sent then c.sent.set [port] (c.sent.get [port] + 1) else c.sent }) }

/-- The context a stored item carries. -/
def Item.context : Item → Option Nat
  | .swatch h _ => some h.context
  | .descriptor d => some d.context
  | _ => none

/-- R287, R291: a frame that a session selects at one of its two points, by the configuration at the start of the store
cycle. -/
def State.mirrorMatches (s : State) (m port : Nat) (egress : Bool) (context : Option Nat) : Bool :=
  let select := s.rdStart F.SHP_MIR_CFG_SELECT m
  s.rdStart F.SHP_MIR_CFG_ENABLE m != 0 &&
    (match s.rdStart F.SHP_MIR_CFG_SRC m with
    | 0 => port == select && (s.rdStart F.SHP_MIR_CFG_DIR m).testBit (b2n egress)
    | 1 => context == some select
    | 2 => (match context with
      | none => false
      | some x => s.rd F.OPC_DECL_LAST x == select)
    | _ => false)

/-- The 32 bytes of a swatch header (R147). -/
def SwHeader.bytes (h : SwHeader) : List Byte :=
  bytesLE 1 (h.skind + 16 * b2n h.lastHint) ++ bytesLE 1 (16 * h.partsM1 + h.part) ++ bytesLE 2 h.context ++
  bytesLE 4 h.opnum ++ bytesLE 4 h.chunk ++ bytesLE 4 h.seq ++ bytesLE 2 h.rank ++ bytesLE 2 h.length ++
  bytesLE 2 h.weight ++ bytesLE 10 0

/-- The 64 bytes of an operation descriptor (R141). -/
def Descriptor.bytes (d : Descriptor) : List Byte :=
  bytesLE 1 d.kind ++ bytesLE 1 (b2n d.abort + 2 * b2n d.segment) ++ bytesLE 2 d.context ++ bytesLE 4 d.opnum ++
  bytesLE 1 (16 * d.outFmt + d.inFmt) ++ bytesLE 1 d.operator ++ bytesLE 2 d.rank ++ bytesLE 2 d.root ++
  bytesLE 1 (16 * d.target + d.source) ++ bytesLE 1 0 ++ bytesLE 8 d.totalBytes ++ bytesLE 4 d.chunks ++
  bytesLE 4 d.chunkBase ++ bytesLE 8 d.tag ++ bytesLE 24 0

/-- R290: the 32 bytes of a mirror header. -/
def MirrorRec.header (m : MirrorRec) : List Byte :=
  bytesLE 1 m.session ++ bytesLE 1 (b2n m.egress + 2 * b2n m.trunc + 4 * b2n m.cut + 8 * b2n m.sched) ++
  bytesLE 1 m.port ++ bytesLE 1 m.vc ++ bytesLE 2 m.copied ++ bytesLE 2 m.origLen ++ bytesLE 8 m.time ++
  bytesLE 4 m.seq ++ bytesLE 4 m.dropped ++ bytesLE 8 0

/-- R288, R307: the bytes of a frame between its link header and trailer: its header, then its stored bytes. -/
def Item.body : Item → List Byte
  | .swatch h data => h.bytes ++ data
  | .descriptor d => d.bytes
  | .control k data => bytesLE 1 k ++ bytesLE 3 0 ++ data
  | .mirror m => m.header ++ m.bytes
  | .host data => data
  | .block n => List.replicate n 0

/-- R155: an object of an operation's output that travels opportunistically (regrowth and restore, R352) has departed or
has been dropped as fenced. -/
def State.noteObject (s : State) (ptr account port : Nat) (sent : Bool) : State :=
  match s.object ptr with
  | .swatch h _ => if account = 19 then s.noteOutput h port sent else s
  | _ => s

/-- R155, R221: a frame of an opportunistic queue has departed (`sent`) or has been dropped as fenced. -/
def State.noteEntry (s : State) (e : OppEntry) (port : Nat) (sent : Bool) : State :=
  match e.sched with
  | some h => s.noteOutput h port sent
  | none => s.noteObject e.ptr e.account port sent

/-- Cells of an object of B stored bytes. -/
def cellsOf (b : Nat) : Nat := max 1 (ceilDiv b 256)

/-- R237: the cells an object occupies. -/
def State.objectCells (s : State) (ptr : Nat) : List Nat :=
  let b := (s.object ptr).stored
  let size := poolSize (ptrPool ptr)
  let first := (List.range (cellsOf (min b size))).map (ptrCell ptr + ·)
  let next := (s.tag (ptrCell ptr)).next
  if next = 0 then first else first ++ (List.range (cellsOf (b - size))).map (ptrCell next + ·)

/-- R238: accesses of an object's cells count in their bank groups. -/
def State.countAccess (s : State) (f : Fld) (ptr : Nat) : State :=
  s.each (s.objectCells ptr) (fun s c => s.inc f 1 (cellGroup c))

/-- R238: the write of an object the Herith makes, in the tier of its list. -/
def State.countWrite (s : State) (ptr account : Nat) : State :=
  s.countAccess (if acctList account = 0 then F.INS_GROUP_SCHED_ACCESSES else F.INS_GROUP_OPP_ACCESSES) ptr

/-- R238, R263: bytes pass through a staging or transfer block, which is written and read with accesses of the opportunistic
tier. -/
def State.countBlock (s : State) (ptr : Nat) : State :=
  (s.countAccess F.INS_GROUP_OPP_ACCESSES ptr).countAccess F.INS_GROUP_OPP_ACCESSES ptr

/-- R219: an enqueue of an opportunistic queue, or one of its pointers, becomes a decrement. -/
def State.dropEntry (s : State) (e : OppEntry) (port requester : Nat) : State :=
  ((s.noteEntry e port false).inc F.INS_MC_FENCED_DROP_COUNT 1 port).decRef e.ptr e.account requester

/-- R222, R241, R289: a pointer goes on the virtual output queue of its ingress die. -/
def State.putVoq (s : State) (die dst : Nat) (e : OppEntry) : State :=
  let s := s.inc F.INS_MC_ENQUEUES_COUNT
  let k := [die, dst, e.vc]
  { s with sched := { s.sched with voq := s.sched.voq.set k (s.sched.voq.get k ++ [{ e with since := s.store }]) } }

/-- R288: a copy that is not taken counts for the session. -/
def State.mirrorLost (s : State) (m : Nat) (f : Fld) : State :=
  let s := s.inc f 1 m
  { s with shape := { s.shape with mirLost := s.shape.mirLost.upd [m] (fun n => min (n + 1) (2 ^ 32 - 1)) } }

/-- R288 to R290: session m takes a copy of the object `ptr` on `port`. `extra` is the number of the original's targets
not yet enqueued. -/
def State.mirrorTake (s : State) (m port : Nat) (egress sched : Bool) (vc ptr account extra : Nat) : State :=
  let analysis := s.rdStart F.SHP_MIR_CFG_ANALYSIS m
  let trunc := s.rdStart F.SHP_MIR_CFG_TRUNC m != 0
  if s.rdStart F.SHP_MIR_CFG_MAX_PENDING m ≤ s.rd F.SHP_MIR_PEND_PENDING m then s.mirrorLost m F.SHP_MIR_DROP_FULL
  else if s.fenced analysis then s.mirrorLost m F.SHP_MIR_DROP_FENCED
  else if !trunc && decide (511 < (s.tag (ptrCell ptr)).refcnt + extra + 1) then s.mirrorLost m F.SHP_MIR_DROP_REFS
  else
    let orig := (s.object ptr).body
    let n := min orig.length (if trunc then 256 else 4096)
    let rec_ : MirrorRec := {
      session := m, sched, cut := decide (4096 < orig.length), trunc, egress, port, vc
      copied := n, origLen := orig.length, time := s.planeTime
      seq := s.shape.mirSeq.get [m], dropped := s.shape.mirLost.get [m]
      orig := if trunc then none else some (ptr, account)
      bytes := if trunc then orig.take n else [] }
    match s.alloc (.mirror rec_) 19 (reqPort (dieOfPort port)) with
    | (none, s) => (s.bpmDrop 19).mirrorLost m F.SHP_MIR_DROP_BUF
    | (some p, s) =>
      -- a snapshot is read from the original's first cell, its header from the tag
      let s := if trunc then (if (s.object ptr).stored = 0 then s else s.inc F.INS_GROUP_OPP_ACCESSES 1 (cellGroup (ptrCell ptr)))
        else s.addRefs ptr 1
      let s := (s.countWrite p 19).addRefs p 1
      let s := { s with shape := { s.shape with
        mirSeq := s.shape.mirSeq.upd [m] (fun n => (n + 1) % 2 ^ 32)
        mirLost := s.shape.mirLost.set [m] 0 } }
      let s := s.inc F.SHP_MIR_STAT_TAKEN 1 m
      let s := s.wr F.SHP_MIR_PEND_PENDING (s.rd F.SHP_MIR_PEND_PENDING m + 1) m
      s.putVoq (dieOfPort port) analysis
        { ptr := p, account := 19, vc := s.rdStart F.SHP_MIR_CFG_VC m, length := 64 + n, session := some m, pendingCells := cellsOf n }

/-- R287: every session that selects the frame takes its copy. -/
def State.mirrorAll (s : State) (port : Nat) (egress sched : Bool) (vc : Nat) (context : Option Nat)
    (ptr account extra : Nat) : State :=
  s.each (List.range 8) (fun s m =>
    if s.mirrorMatches m port egress context then s.mirrorTake m port egress sched vc ptr account extra else s)

/-- R287: what an enqueue for `dst` gives the mirror sessions to copy, if it stands at the end of the store cycle. -/
def State.copyLater (s : State) (c : LateCopy) : State := { s with sched := { s.sched with copies := s.sched.copies ++ [c] } }

/-- R287: an opportunistic frame is enqueued for port `dst` from its ingress die. -/
def State.pushNow (s : State) (die dst : Nat) (e : OppEntry) : State :=
  (s.putVoq die dst e).copyLater
    { dst, sched := e.sched.isSome, vc := e.vc, context := (s.object e.ptr).context, ptr := e.ptr, account := e.account }

/-- R219: an opportunistic frame for port `dst` from its ingress die: towards a target whose ports are all fenced it waits for
the end of the store cycle. -/
def State.pushVoq (s : State) (die dst : Nat) (e : OppEntry) : State :=
  if s.targetFenced (s.groupOf dst) then
    { s with sched := { s.sched with refusedOpp := s.sched.refusedOpp ++ [(die, dst, e)] } }
  else s.pushNow die dst e

/-- R48: every port of a group carries opportunistic traffic only. -/
def State.groupOpp (s : State) (b : Nat) : Bool :=
  !(s.groupPorts b).isEmpty && (s.groupPorts b).all (fun p => s.flag F.SCH_PORT_CFG_OPP_ONLY p)

/-- R228: what stands before what in a queue: by the cycle of the enqueue, within one by context, chunk and part. -/
def entryBefore (a b : QEntry) : Bool :=
  let key (e : QEntry) : Nat := (e.header.context * 2 ^ 32 + e.header.chunk) * 16 + e.header.part
  a.visible < b.visible || (a.visible == b.visible && key a ≤ key b)

/-- R229: a scheduled buffer as an opportunistic-only port sends it, on virtual channel 7. -/
def State.oppEntry (s : State) (e : QEntry) : OppEntry :=
  let i := s.object e.ptr
  { ptr := e.ptr, account := e.account, vc := 7, length := i.linkLength, session := none, pendingCells := cellsOf i.stored
    sched := some e.header }

/-- R228, R229, R287: one pointer is enqueued on the queue of last t towards group b. -/
def State.enqueueNow (s : State) (b t : Nat) (e : QEntry) (requester : Nat) : State :=
  if s.groupOpp b then s.pushNow (min requester 7) b (s.oppEntry e)
  else
    let s := s.inc F.INS_MC_ENQUEUES_COUNT
    let q := s.sched.queues.get [b, t]
    let s := { s with sched := { s.sched with
      queues := s.sched.queues.set [b, t] (q.takeWhile (entryBefore · e) ++ e :: q.dropWhile (entryBefore · e)) } }
    s.copyLater { dst := b, sched := true, vc := 7, context := some e.header.context, ptr := e.ptr, account := e.account }

/-- R219: one pointer is enqueued towards group b, or waits for the end of the store cycle when the target is fenced. -/
def State.enqueue (s : State) (b t : Nat) (e : QEntry) (requester : Nat) : State :=
  if s.targetFenced b then
    { s with sched := { s.sched with refused := s.sched.refused ++ [{ group := b, last := t, entry := e, requester }] } }
  else s.enqueueNow b t e requester

/-- R219, R221: at the end of a store cycle, with the fence bits as its writes leave them, a pointer whose target is fenced
becomes a decrement; one whose target is fenced no more is enqueued. -/
def State.refuseLate (s : State) : State :=
  let q := s.sched.refused
  let o := s.sched.refusedOpp
  let s := { s with sched := { s.sched with refused := [], refusedOpp := [] } }
  let s := s.each q (fun s r =>
    if s.targetFenced r.group then
      let s := s.inc F.INS_MC_FENCED_DROP_COUNT 1 r.group
      (s.decRef r.entry.ptr r.entry.account r.requester).noteOutput r.entry.header r.group false
    else s.enqueueNow r.group r.last r.entry r.requester)
  s.each o (fun s (die, dst, e) =>
    if s.targetFenced (s.groupOf dst) then s.dropEntry e dst (reqPort die) else s.pushNow die dst e)

/-- R287: at the end of a store cycle the mirror sessions copy what was enqueued in it; an enqueue that R219 has turned into a
decrement is not copied. -/
def State.copyLate (s : State) : State :=
  let l := s.sched.copies
  let s := { s with sched := { s.sched with copies := [] } }
  s.each l (fun s c =>
    if s.targetFenced (s.groupOf c.dst) then s else s.mirrorAll c.dst true c.sched c.vc c.context c.ptr c.account 0)

/-- R215: an object becomes visible: its reference count is set to its targets (and what mirror copies hold), and its
pointer is enqueued once for each. An object without targets is freed. -/
def State.multicast (s : State) (ptr account requester : Nat) (targets : List Target) : State :=
  let s := if 2 ≤ targets.length then s.inc F.INS_MC_STORES_COUNT else s
  let s := s.addRefs ptr targets.length
  if targets.isEmpty && (s.tag (ptrCell ptr)).refcnt == 0 then s.freeObj ptr account requester
  else s.each targets (fun s t => s.enqueue t.group t.last { ptr, account, header := t.header, visible := s.store } requester)

/-- R270, R279: an object of the Herith's own that travels in the opportunistic class, on virtual channel 0, charged to an
account; without a buffer it waits in the allocation requests (R267). -/
def State.sendItem (s : State) (die port : Nat) (item : Item) (account : Nat := 19) : State :=
  match s.allocNow item account die with
  | (some p, s) =>
    ((s.countWrite p account).addRefs p 1).pushVoq (min die 7) port
      { ptr := p, account, vc := 0, length := item.linkLength, session := none, pendingCells := cellsOf item.stored }
  | (none, s) => s.request die account item (.forward port port 0)

/-- R279: a control frame of the Herith's own. -/
def State.sendControl (s : State) (die port : Nat) (ckind : Nat) (data : List Byte) : State :=
  s.sendItem die port (.control ckind data)

/-- R241: the virtual output queues towards port p. -/
def voqKeys (p : Nat) : List Key := (List.range 64).map (fun n => [n / 8, p, n % 8])

/-- R220: one pointer is purged from the queues of a fenced port: the head of the first non-empty queue in ascending
last, then of the opportunistic queues. -/
def State.purgeOne (s : State) (p : Nat) : State :=
  let b := s.groupOf p
  let qs := if s.targetFenced b then (List.range 16).filter (fun t => !(s.sched.queues.get [b, t]).isEmpty) else []
  match qs with
  | t :: _ =>
    (match s.sched.queues.get [b, t] with
    | [] => s
    | e :: rest =>
      let s := { s with sched := { s.sched with queues := s.sched.queues.set [b, t] rest } }
      let s := s.inc F.INS_MC_FENCED_DROP_COUNT 1 p
      (s.decRef e.ptr e.account (reqPort (dieOfPort p))).noteOutput e.header p false)
  | [] =>
    -- mirror copies are left to R291
    let mine (l : List OppEntry) : Option OppEntry := l.find? (fun e => e.session.isNone)
    let drop (s : State) (e : OppEntry) : State := s.dropEntry e p (reqPort (dieOfPort p))
    match mine (s.sched.oppFifo.get [p]) with
    | some e => drop { s with sched := { s.sched with oppFifo := s.sched.oppFifo.set [p] ((s.sched.oppFifo.get [p]).erase e) } } e
    | none =>
      let ks := if s.targetFenced b then (s.groupPorts b).flatMap voqKeys else []
      match ks.find? (fun k => (mine (s.sched.voq.get k)).isSome) with
      | none => { s with sched := { s.sched with purging := s.sched.purging.filter (· != p) } }
      | some k =>
        match mine (s.sched.voq.get k) with
        | none => s
        | some e => drop { s with sched := { s.sched with voq := s.sched.voq.set k ((s.sched.voq.get k).erase e) } } e

/-- R291: one mirror copy waiting for a fenced analysis port is discarded, its record freed and its reference
dropped. -/
def State.mirrorDiscard (s : State) (e : OppEntry) (die : Nat) : State :=
  let m := e.session.getD 0
  let orig := match s.object e.ptr with
    | .mirror r => r.orig
    | _ => none
  let s := s.decRef e.ptr e.account die
  let s := match orig with
    | some (p, a) => s.decRef p a die
    | none => s
  let s := s.inc F.SHP_MIR_DROP_FENCED 1 m
  s.wr F.SHP_MIR_PEND_PENDING (s.rd F.SHP_MIR_PEND_PENDING m - 1) m

end Sys2Proof.Machine
end

