-- ==== Sys2Proof/Machine/Codec.lean ====
section
/-!
DEFINITION. The bytes of frames and control blocks on a fabric link (R141, R147, R290, R307, R309).
-/

namespace Sys2Proof.Machine

/-- R147: a swatch header read from its bytes. -/
def readSwHeader (l : List Byte) : SwHeader :=
  { skind := field l 0 1 % 16, lastHint := (field l 0 1).testBit 4, partsM1 := field l 1 1 / 16, part := field l 1 1 % 16
    context := field l 2 2, opnum := field l 4 4, chunk := field l 8 4, seq := field l 12 4, rank := field l 16 2
    length := field l 18 2, weight := field l 20 2 }

/-- R141: a descriptor read from its bytes. -/
def readDescriptor (l : List Byte) : Descriptor :=
  { kind := field l 0 1, abort := (field l 1 1).testBit 0, segment := (field l 1 1).testBit 1, context := field l 2 2
    opnum := field l 4 4, outFmt := field l 8 1 / 16, inFmt := field l 8 1 % 16, operator := field l 9 1 % 8
    rank := field l 10 2, root := field l 12 2, target := field l 14 1 / 16, source := field l 14 1 % 16
    totalBytes := field l 16 8, chunks := field l 24 4, chunkBase := field l 28 4, tag := field l 32 8 }

/-- A mirror header read from its bytes. -/
def readMirror (l : List Byte) : MirrorRec :=
  { session := field l 0 1 % 8, egress := (field l 1 1).testBit 0, trunc := (field l 1 1).testBit 1
    cut := (field l 1 1).testBit 2, sched := (field l 1 1).testBit 3, port := field l 2 1, vc := field l 3 1 % 8
    copied := field l 4 2, origLen := field l 6 2, time := field l 8 8, seq := field l 16 4, dropped := field l 20 4
    bytes := l.drop 32 }

/-- R307: TYPE of a frame. -/
def Item.ftype : Item → Nat
  | .swatch .. => 0 | .descriptor _ => 1 | .control .. => 2 | .mirror _ => 3 | .host _ => 4 | .block _ => 4

/-- R307: the bytes CHECK covers. -/
def Frame.covered (f : Frame) : List Byte :=
  bytesLE 1 0xFB ++ bytesLE 1 (128 * b2n f.sched + 16 * f.vc + f.item.ftype) ++ bytesLE 2 (32 + f.item.body.length) ++
  bytesLE 4 f.fseq ++ bytesLE 8 0 ++ f.item.body

/-- R307: the bytes of a frame on the link. -/
def Frame.bytes (f : Frame) : List Byte :=
  f.covered ++ bytesLE 4 (crc32c f.covered).toNat ++ bytesLE 1 0xFD ++ bytesLE 11 0

/-- R307: what a body of TYPE `t` is. A reserved TYPE is carried opaquely. -/
def readItem (t : Nat) (l : List Byte) : Item :=
  match t with
  | 0 => .swatch (readSwHeader l) (l.drop 32)
  | 1 => .descriptor (readDescriptor l)
  | 2 => .control (field l 0 1) (l.drop 4)
  | 3 => .mirror (readMirror l)
  | _ => .host l

/-- R308: why a received frame is discarded: a framing error, or a failed check. -/
inductive FrameErr where
  | framing | crc
  deriving DecidableEq, Repr

/-- What stands at the head of the received bytes. -/
inductive Scan where
  /-- Not all of it has arrived. -/
  | more
  /-- Discarded, with the bytes that go with it; `skip`: all up to the next idle byte or START go with it. -/
  | bad (e : FrameErr) (rest : List (Byte × Bool)) (skip : Bool)
  | frame (f : Frame) (rest : List (Byte × Bool))
  deriving DecidableEq, Repr

/-- R306: the idle bytes between frames are passed over. -/
def skipIdle : List (Byte × Bool) → List (Byte × Bool)
  | [] => []
  | (b, x) :: t => if b = 0x07#8 && !x then skipIdle t else (b, x) :: t

/-- R308: the bytes that go with a discarded frame are passed over, up to the next idle byte or START. -/
def resync : List (Byte × Bool) → List (Byte × Bool)
  | [] => []
  | (b, x) :: t => if !x && (b == 0x07#8 || b == 0xFB#8) then (b, x) :: t else resync t

/-- R315: the frames whose bytes have begun to arrive: their class, virtual channel and bytes so far. -/
def rxFrames : Nat → List (Byte × Bool) → List (Bool × Nat × Nat)
  | 0, _ => []
  | fuel + 1, l =>
    let l := skipIdle l
    let raw := (l.take 4).map Prod.fst
    let len := field raw 2 2
    let ft := field raw 1 1
    if l.length < 4 ∨ raw.head? ≠ some 0xFB#8 ∨ len < 32 then []
    else (ft.testBit 7, ft / 16 % 8, min len l.length) :: rxFrames fuel (l.drop len)

/-- R307, R308: the frame at the head of the received bytes, or why it is discarded. -/
def scanFrame (l : List (Byte × Bool)) : Scan :=
  match skipIdle l with
  | [] => .more
  | (b, x) :: t =>
    if x then .bad .crc t true
    else if b ≠ 0xFB#8 then .bad .framing t true
    else if t.length < 3 then .more
    else
      let l := (b, x) :: t
      let raw := l.map Prod.fst
      let len := field raw 2 2
      if (t.take 3).any Prod.snd then .bad .crc (t.drop 3) true
      else if len < 32 ∨ 4160 < len then .bad .framing (t.drop 3) true
      else if l.length < len then .more
      else
        let mine := l.take len
        let rest := l.drop len
        let raw := mine.map Prod.fst
        if mine.any Prod.snd then .bad .crc rest false
        else if field raw (len - 12) 1 ≠ 0xFD then .bad .framing rest false
        else if field raw (len - 16) 4 ≠ (crc32c (raw.take (len - 16))).toNat then .bad .crc rest false
        else
          let ft := field raw 1 1
          .frame { sched := ft.testBit 7, vc := ft / 16 % 8, fseq := field raw 4 4
                   item := readItem (ft % 16) ((raw.drop 16).take (len - 32)) } rest

/-- R309: a control block's CHECK is right. -/
def ctlOk (l : List Byte) : Bool := field l 60 4 == (crc32c (l.take 60)).toNat

/-- R309: the 64 bytes of a control block. -/
def ctlBytes (ctype cflags iseq : Nat) (body : List Byte) : List Byte :=
  let l := bytesLE 1 ctype ++ bytesLE 1 cflags ++ bytesLE 2 iseq ++ body
  l ++ bytesLE 4 (crc32c l).toNat

/-- R309: a control block read from its 64 bytes. -/
def readCtl (l : List Byte) : CtlBlock :=
  { ctype := field l 0 1, cflags := field l 1 1, iseq := field l 2 2, body := (l.drop 4).take 56 }

/-! TIME blocks (R324). PRESUMED (log 137): the layout of the common header and the bodies is that of IEEE 1588-2019, which
the rule names and does not restate. -/

def bytesBE (n v : Nat) : List Byte := (bytesLE n v).reverse
def fieldBE (l : List Byte) (o n : Nat) : Nat := ofLE ((l.drop o).take n).reverse

/-- The BODY of a TIME block: the message with its common header, and zeros after it. -/
def timeBody (m : TimeMsg) : List Byte :=
  let len := if m.kind = 0 then 44 else 54
  let l := bytesBE 1 m.kind ++ bytesBE 1 0x12 ++ bytesBE 2 len ++ bytesBE 1 m.domain ++ bytesBE 1 0 ++ bytesBE 2 m.flags ++
    bytesBE 8 (ofSigned 64 m.corr) ++ bytesBE 4 0 ++ bytesBE 10 m.source ++ bytesBE 2 m.seq ++
    bytesBE 1 (if m.kind = 0 then 0 else 5) ++ bytesBE 1 0x7F ++
    bytesBE 6 (m.ns / 1000000000) ++ bytesBE 4 (m.ns % 1000000000) ++ (if m.kind = 0 then [] else bytesBE 10 m.target)
  l ++ List.replicate (56 - l.length) 0

/-- The message in the BODY of a TIME block. -/
def readTime (l : List Byte) : TimeMsg :=
  { kind := fieldBE l 0 1 % 16, domain := fieldBE l 4 1, flags := fieldBE l 6 2, corr := toSigned 64 (fieldBE l 8 8)
    source := fieldBE l 20 10, seq := fieldBE l 30 2, ns := fieldBE l 34 6 * 1000000000 + fieldBE l 40 4
    target := if fieldBE l 0 1 % 16 = 0 then 0 else fieldBE l 44 10 }

end Sys2Proof.Machine
end

