-- ==== Sys2Proof/Machine/Shaping.lean ====
section
/-!
DEFINITION. Token buckets: shapers and policers (09_shaping_and_mirroring.md).
-/

namespace Sys2Proof.Machine

/-- R278: the two buckets of a port and virtual channel. -/
inductive Bucket where
  | shaper | policer
  deriving DecidableEq, Repr

def Bucket.code : Bucket → Nat
  | .shaper => 0 | .policer => 1
def Bucket.burst : Bucket → Fld
  | .shaper => F.SHP_SHAPE_CFG_BURST | .policer => F.SHP_POL_CFG_BURST
def Bucket.chg : Bucket → Fld
  | .shaper => F.SHP_SHAPE_CFG_CHG | .policer => F.SHP_POL_CFG_CHG
def Bucket.mode : Bucket → Fld
  | .shaper => F.SHP_SHAPE_CFG_ENABLE | .policer => F.SHP_POL_CFG_ACTION
def Bucket.overhead : Bucket → Fld
  | .shaper => F.SHP_SHAPE_CFG_OVERHEAD | .policer => F.SHP_POL_CFG_OVERHEAD
def Bucket.rate : Bucket → Fld
  | .shaper => F.SHP_SHAPE_CFG_RATE | .policer => F.SHP_POL_CFG_RATE
def Bucket.pending : Bucket → Fld
  | .shaper => F.SHP_SHAPE_STATE_PENDING | .policer => F.SHP_POL_STATE_PENDING
def Bucket.tokens : Bucket → Fld
  | .shaper => F.SHP_SHAPE_STATE_TOKENS | .policer => F.SHP_POL_STATE_TOKENS

/-- R280: TOKENS, a signed count of token units. -/
def State.tokens (s : State) (k : Bucket) (p v : Nat) : Int := toSigned 40 (s.rd k.tokens p v)
def State.setTokens (s : State) (k : Bucket) (p v : Nat) (t : Int) : State := s.wr k.tokens (ofSigned 40 t) p v

/-- R279: a frame's charge in token units. -/
def State.charge (s : State) (k : Bucket) (p v len : Nat) : Nat :=
  if v = 0 then 256 else 256 * (len + s.rd k.overhead p v)

/-- Every field takes its written value. -/
def State.applyBucket (s : State) (k : Bucket) (p v value : Nat) : State :=
  let s := s.wr k.burst (bits value k.burst.hi k.burst.lo) p v
  let s := s.wr k.chg (bits value k.chg.hi k.chg.lo) p v
  let s := s.wr k.mode (bits value k.mode.hi k.mode.lo) p v
  let s := s.wr k.overhead (bits value k.overhead.hi k.overhead.lo) p v
  s.wr k.rate (bits value k.rate.hi k.rate.lo) p v

/-- R283: the mode of a written configuration. -/
def chgMode (value : Nat) : Nat := bits value 39 38

/-- R283: what waits for a bucket; PENDING shows a change that waits for a refill. -/
def State.setWaiting (s : State) (k : Bucket) (p v : Nat) (w : Option (Nat × Nat)) : State :=
  let s := { s with shape := { s.shape with waiting := s.shape.waiting.set [k.code, p, v] w } }
  s.wr k.pending (b2n (w.any (fun c => chgMode c.1 == 0))) p v

/-- R283, R284: a write of a shaper's or policer's configuration waits for the moment its own CHG field gives, in place of
what waited before. CHG 3, and ACTION 3 of a policer (R285), are ignored. -/
def State.writeBucket (s : State) (k : Bucket) (p v value : Nat) : State :=
  if chgMode value = 3 ∨ (k = .policer ∧ bits value 37 36 = 3) then s
  else s.setWaiting k p v (some (value, s.store))

/-- R283: a reset takes effect: every field takes its new value, and TOKENS is full or zero. -/
def State.resetBucket (s : State) (k : Bucket) (p v value : Nat) : State :=
  let s := ((s.setWaiting k p v none).applyBucket k p v value).mark (.bucket [k.code, p, v])
  s.setTokens k p v (if chgMode value = 1 then 256 * (s.rd k.burst p v : Int) else 0)

/-- R283: the resets that landed in the store cycle before take effect. -/
def State.bucketResets (s : State) : State :=
  s.each s.shape.waiting.entries (fun s e => match e.1, e.2 with
    | [c, p, v], some (value, at_) =>
      if chgMode value = 0 ∨ s.store ≤ at_ ∨ 1 < c then s else s.resetBucket (if c = 0 then .shaper else .policer) p v value
    | _, _ => s)

/-- R284: token units that frames started or conforming in this store cycle have taken from a bucket. -/
def State.spent (s : State) (k : Bucket) (p v : Nat) : Int :=
  (s.marks.filter (fun e => e.1 / 2 == s.now / 2)).foldl (fun n e => match e.2 with
    | .charged key c => if key = [k.code, p, v] then n + c else n
    | _ => n) 0

/-- R284: the frame at the head of a channel that was counted as held in this store cycle, before the refill, was not. -/
def State.unhold (s : State) (p v : Nat) : State :=
  if !s.marked (.held p v) 2 then s
  else
    let clear (e : OppEntry) : OppEntry := { e with held := false }
    let fifo := s.sched.oppFifo.get [p]
    match fifo.find? (fun e => e.vc == v && e.held) with
    | none => s
    | some e =>
      ({ s with sched := { s.sched with oppFifo := s.sched.oppFifo.set [p] (fifo.map (fun x => if x = e then clear x else x)) } }).uncount
        F.SHP_SHAPE_STAT_HELD 1 p v

/-- R280, R283, R284: one bucket's refill: a change that landed in an earlier cycle takes effect first, and that refill uses
the new values; a bucket that is reset in this cycle is not refilled. The refill comes before the charges of its store
cycle. -/
def State.refillBucket (s : State) (k : Bucket) (p v : Nat) : State :=
  let s := match s.shape.waiting.get [k.code, p, v] with
    | none => s
    | some (w, at_) => if chgMode w = 0 ∧ at_ < s.store then (s.setWaiting k p v none).applyBucket k p v w else s
  if s.marked (.bucket [k.code, p, v]) 2 then s
  else
    let spent := s.spent k p v
    let full := min (256 * (s.rd k.burst p v : Int)) (s.tokens k p v + spent + s.rd k.rate p v)
    let s := s.setTokens k p v (full - spent)
    if k = .shaper ∧ 0 ≤ full then s.unhold p v else s

/-- R280: a port die refills all its buckets together. -/
def State.refillDie (s : State) (die : Nat) : State :=
  s.each (List.range 32) (fun s n =>
    s.each (List.range 8) (fun s v => (s.refillBucket .shaper (32 * die + n) v).refillBucket .policer (32 * die + n) v))

/-- R285: a policer judges an arriving opportunistic frame: whether it passes, with its charge and count. -/
def State.police (s : State) (p v len : Nat) : Bool × State :=
  let c := s.charge .policer p v len
  let conform := decide ((c : Int) ≤ s.tokens .policer p v)
  match s.rd F.SHP_POL_CFG_ACTION p v with
  | 0 => (true, s)
  | a =>
    if conform then
      let s := s.mark (.charged [Bucket.policer.code, p, v] c)
      (true, (s.setTokens .policer p v (s.tokens .policer p v - c)).inc F.SHP_POL_STAT_CONFORM 1 p v)
    else (a == 1, s.inc F.SHP_POL_STAT_EXCEED 1 p v)

/-- R281: the shaper permits the head frame of v. -/
def State.shaperPermits (s : State) (p v : Nat) : Bool :=
  !s.flag F.SHP_SHAPE_CFG_ENABLE p v || decide (0 ≤ s.tokens .shaper p v)

/-- R281: a frame that starts is charged while ENABLE is 1. -/
def State.shaperCharge (s : State) (p v len : Nat) : State :=
  if s.flag F.SHP_SHAPE_CFG_ENABLE p v then
    let s := s.mark (.charged [Bucket.shaper.code, p, v] (s.charge .shaper p v len))
    (s.setTokens .shaper p v (s.tokens .shaper p v - s.charge .shaper p v len)).inc F.SHP_SHAPE_STAT_RELEASED 1 p v
  else s

/-- R290, R291: a write of SHP_MIR_CFG(m) applies to copies taken from the next store cycle on; SEQ counts from when the
session is enabled. A SRC of 3 and a MAX_PENDING of 0 are ignored. -/
def State.writeMirror (s : State) (m value : Nat) : State :=
  let was := s.flag F.SHP_MIR_CFG_ENABLE m
  let put (s : State) (f : Fld) : State := s.wrNext f (bits value f.hi f.lo) m
  let s := put s F.SHP_MIR_CFG_ENABLE
  let s := if bits value 62 61 = 3 then s else put s F.SHP_MIR_CFG_SRC
  let s := put s F.SHP_MIR_CFG_DIR
  let s := put s F.SHP_MIR_CFG_TRUNC
  let s := put s F.SHP_MIR_CFG_VC
  let s := if bits value 54 44 = 0 then s else put s F.SHP_MIR_CFG_MAX_PENDING
  let s := put s F.SHP_MIR_CFG_ANALYSIS
  let s := put s F.SHP_MIR_CFG_SELECT
  if !was && s.flag F.SHP_MIR_CFG_ENABLE m then
    { s with shape := { s.shape with mirSeq := s.shape.mirSeq.set [m] 0 } }
  else s

end Sys2Proof.Machine
end

