-- ==== Sys2Proof/Machine/Sched.lean ====
section
/-!
DEFINITION. Scheduled switching: rounds, window tables, time gates, landing, matching and the resequencer
(07_scheduled_switching.md).
-/

namespace Sys2Proof.Machine

/-- R225: store cycles a frame of B bytes occupies port p. -/
def State.slot (s : State) (p b : Nat) : Nat :=
  if s.rd F.PRT_LINK_CFG_RATE p = 2 then ceilDiv (7 * b) 250 else ceilDiv (7 * b) 500

/-- R226, R257: field of entry e of bank b of port p. -/
def State.win (s : State) (f : Fld) (p b e : Nat) : Nat := s.rd f p (512 * b + e)

/-- R226: the VALID entries of a bank, ascending: those of the register file's entries, since VALID resets to 0. -/
def State.validEntries (s : State) (p b : Nat) : List Nat :=
  s.regs.entries.filterMap (fun e => match e.1, e.2 with
    | [r, lo, i, j], some 1 =>
      if r = F.SCH_WIN_VALID.reg.ctorIdx ∧ lo = F.SCH_WIN_VALID.lo ∧ i = p ∧ j / 512 = b then some (j % 512) else none
    | _, _ => none)

/-- R227: the VALID entries of a bank in one direction: (entry, QSEL, START, LENGTH). -/
def State.windows (s : State) (p b dir : Nat) : List (Nat × Nat × Nat × Nat) :=
  ((s.validEntries p b).filter (fun e => s.win F.SCH_WIN_DIR p b e == dir)).map
    (fun e => (e, s.win F.SCH_WIN_QSEL p b e, s.win F.SCH_WIN_START p b e, s.win F.SCH_WIN_LENGTH p b e))

/-- R226: the active bank of p. -/
def State.bank (s : State) (p : Nat) : Nat := s.rd F.SCH_WIN_BASE_BANK p

/-- R226: port p takes bank b as its active bank. -/
def State.setBank (s : State) (p b : Nat) : State :=
  (s.wr F.SCH_WIN_BASE_BANK b p).wr F.SCH_WIN_BASE_ADDR (0x7000000 + p * 0x4000 + b * 0x1000) p

/-- R229: the egress windows in effect on p: none on an opportunistic-only port. -/
def State.egressWindows (s : State) (p : Nat) : List (Nat × Nat × Nat × Nat) :=
  if s.flag F.SCH_PORT_CFG_OPP_ONLY p || !s.sched.running then [] else s.windows p (s.bank p) 0

/-- Store cycles since the start of the round. -/
def State.offset (s : State) : Nat := s.store - s.sched.roundStart

/-- R227: the egress window of p that the present store cycle lies in. -/
def State.openWindow (s : State) (p : Nat) : Option (Nat × Nat × Nat × Nat) :=
  (s.egressWindows p).find? (fun w => decide (w.2.2.1 ≤ s.offset ∧ s.offset < w.2.2.1 + w.2.2.2))

/-- The ports of SCH_CHG_PORTS. -/
def State.changePorts (s : State) : List Nat :=
  (List.range 256).filter (fun p => (s.rd F.SCH_CHG_PORTS_PORTS (p / 64)).testBit (p % 64))

/-- SCH_CHG_STAT.STATE (R254). -/
def chgIdle : Nat := 0
def chgDraining : Nat := 1
def chgSwitching : Nat := 2
def chgDone : Nat := 3
def chgFailed : Nat := 4
def State.chgState (s : State) : Nat := s.rd F.SCH_CHG_STAT_STATE

/-- R254 to R256: the bank that p has in the next round: that of a live change whose drain is complete, bank 1 where a
degraded switch of its group waits, else its present one. -/
def State.nextBank (s : State) (p : Nat) : Nat :=
  let g := s.rd F.SCH_PORT_CFG_DEG_GROUP p
  if s.chgState = chgSwitching ∧ s.changePorts.contains p = true then s.sched.chgBank
  else if s.sched.degPending.contains g && (s.degPorts g).any (fun q => s.bank q == 0) then 1
  else s.bank p

/-- R233: the store cycle in which the next egress window of p starts, counted across round boundaries: in the next round
the windows of the bank that p has then. -/
def State.nextWindow (s : State) (p : Nat) : Option Nat :=
  if s.flag F.SCH_PORT_CFG_OPP_ONLY p || !s.sched.running then none
  else
    let start := s.sched.roundStart
    let here := ((s.windows p (s.bank p) 0).filter (fun w => decide (s.offset ≤ w.2.2.1))).map (fun w => start + w.2.2.1)
    let then_ := (s.windows p (s.nextBank p) 0).map (fun w => start + s.sched.roundLen + w.2.2.1)
    (here ++ then_).min?

/-- R232: a store cycle inside an egress window in which the port sends nothing. -/
def State.windowIdle (s : State) (p : Nat) : Bool :=
  (s.openWindow p).isSome && decide (s.sched.freeAt.get [p] ≤ s.store)

/-- R223, R224: the start of a round while a plan is in force: numbering, and the slip of one cycle when the start lies
more than one store cycle from the plane time it should have. Round 0 starts at or after SCH_EPOCH.TIME: when that time
has passed, the round in force is the one that follows from it. Times are compared in fourteenths of a ns; a store cycle
is ten of them. -/
def State.roundStartOp (s : State) : State :=
  let cycles := s.rd F.SCH_PERIOD_CYCLES
  -- when the present store cycle began
  let actual : Int := 14 * (s.planeTime : Int) + s.link.timeFrac - 5 * (s.now % 2 : Nat)
  let epoch : Int := 14 * (s.rd F.SCH_EPOCH_TIME : Int)
  if cycles = 0 ∨ s.locked = false then s
  else if !s.sched.running then
    if actual < epoch then s
    else
      let past := ((actual - epoch) / 10).toNat
      let s := s.wr F.SCH_ROUND_NUMBER (past / cycles)
      let start := s.store - past % cycles
      { s with sched := { s.sched with
        running := true, roundStart := start, roundLen := cycles, prevLen := cycles, prevBanks := [] } }
  else if s.store < s.sched.roundStart + s.sched.roundLen then s
  else
    let s := s.incWrap F.SCH_ROUND_NUMBER
    let want : Int := epoch + 10 * (s.rd F.SCH_ROUND_NUMBER : Int) * cycles
    let (len, s) := if actual - want > 10 then (cycles - 1, s.inc F.SCH_SLIPS_SHORT)
      else if want - actual > 10 then (cycles + 1, s.inc F.SCH_SLIPS_LONG)
      else (cycles, s)
    { s with sched := { s.sched with roundStart := s.sched.roundStart + s.sched.roundLen, roundLen := len, prevLen := s.sched.roundLen } }

/-- R256: at the round start, the ports of the degraded groups that had a port in bank 0 take bank 1 (but ports of a live
change that switches in the same cycle take its bank, R255). Recorded, counted and marked once for the switch. -/
def State.degradeSwitch (s : State) (changing : List Nat) : State :=
  let groups := s.sched.degPending.filter (fun g => (s.degPorts g).any (fun q => s.bank q == 0))
  let s := { s with sched := { s.sched with degPending := [] } }
  s.each groups (fun s g =>
      let s := s.each ((s.degPorts g).filter (fun q => !changing.contains q)) (fun s q => s.setBank q 1)
      let s := s.wr F.SCH_DEG_STAT_GROUP g
      let s := s.inc F.SCH_DEG_STAT_SWITCHES
      (s.triggerOther 4 g).exactLoss F.SCH_EXACT_LOSS_TABLE)

/-- The header of a swatch of the Herith's own as it is sent on p, numbered for its operation and receiving port (R149,
R486). -/
def State.numbered (s : State) (p : Nat) (h : SwHeader) : SwHeader × State :=
  let (q, s) := s.nextSeq h.context h.opnum (s.groupOf p)
  ({ h with seq := q }, s)

/-- What a queue entry sends: a swatch leaves with the header of its copy, numbered; its header is `own` in a scheduled
queue, and else the stored one. -/
def State.sent (s : State) (p ptr : Nat) (own : Option SwHeader) : Item × SwHeader × State :=
  match s.object ptr with
  | .swatch h data =>
    let (h, s) := s.numbered p (own.getD h)
    (.swatch h data, h, s)
  | i => (i, own.getD {}, s)

/-- A frame starts on a port: the port is busy for its slot, and the frame's FSEQ is the next (R225, R307). -/
def State.startFrame (s : State) (p : Nat) (sched : Bool) (vc : Nat) (item : Item) (header : SwHeader) (ptr account : Nat)
    (session : Option Nat) (origin : Origin) : State :=
  let len := item.linkLength
  let pt := s.link.ports.get [p]
  let f : Frame := { sched, vc, fseq := pt.txSeq, item }
  let snd : Sending := { ptr, account, sched, header, frame := f, until_ := s.store + s.slot p len, session, broken := false
                         since := s.store, origin }
  { s with
    link := { s.link with ports := s.link.ports.set [p] { pt with txSeq := (pt.txSeq + 1) % 2 ^ 32 } }
    sched := { s.sched with
      sending := s.sched.sending.set [p] (some snd)
      freeAt := s.sched.freeAt.set [p] (s.store + s.slot p len) } }

/-- R231: port p may take what stands at place `k` of its open window's queue, in the present store cycle: none where it
is not there, or is not yet visible in time; whether it fits before the end of the window. -/
def State.windowFrame (s : State) (p k : Nat) : Option (QEntry × Bool) :=
  match s.openWindow p with
  | none => none
  | some (entry, q, start, len) =>
    if !s.portUp p || s.fenced p || decide (s.store < s.sched.freeAt.get [p]) ||
        s.sched.heldWin.get [p] == some (s.rd F.SCH_ROUND_NUMBER, entry) then none
    else match (s.sched.queues.get [s.groupOf p, q])[k]? with
      | none => none
      | some e =>
        if s.store < e.visible + s.rd F.SCH_GCFG_READ_LEAD then none
        else some (e, decide (s.offset + s.slot p (s.object e.ptr).linkLength ≤ start + len))

/-- R244: how many buffers of the queue that port p sends the lower ports of its group take in this store cycle. -/
def State.takenBelow (s : State) (p : Nat) : Nat :=
  let q (p : Nat) : Option Nat := (s.openWindow p).map (fun w => w.2.1)
  ((s.groupPorts (s.groupOf p)).filter (fun o => decide (o < p) && q o == q p)).foldl
    (fun k o => if (s.windowFrame o k).any Prod.snd then k + 1 else k) 0

/-- A frame that was taken from an opportunistic FIFO. -/
def Sending.isFifo (x : Sending) : Bool :=
  match x.origin with
  | .fifo .. => true
  | .queue .. => false

/-- How many starts of its group came before it. -/
def Sending.startOrder (x : Sending) : Nat :=
  match x.origin with
  | .queue _ _ _ order _ => order
  | .fifo .. => 0

/-- The ports of a group that have started a frame from its scheduled queues in this store cycle, the last first. -/
def State.groupStarts (s : State) (b : Nat) : List (Nat × Sending) :=
  let l := (s.groupPorts b).filterMap (fun o => (s.sched.sending.get [o]).bind (fun x =>
    if x.since == s.store && !x.isFifo then some (o, x) else none))
  (List.range l.length).reverse.flatMap (fun k => l.filter (fun e => e.2.startOrder == k))

/-- R231, R232, R244: in an egress window of queue q, port p starts the first frame of q that the lower ports of its group
leave, when it has been visible for READ_LEAD cycles and fits; a frame visible in time that does not fit is held, counted
once for the window, of which the rest passes idle. -/
def State.schedStart (s : State) (p : Nat) : State :=
  match s.openWindow p with
  | none => s
  | some (entry, q, _, _) =>
    let b := s.groupOf p
    match s.windowFrame p (s.takenBelow p) with
    | none => s
    | some (e, true) =>
      let place := s.takenBelow p
      let order := (s.groupStarts b).length
      let s := { s with sched := { s.sched with queues := s.sched.queues.set [b, q] ((s.sched.queues.get [b, q]).eraseIdx place) } }
      let s := (s.inc F.SCH_SENT_FRAMES 1 p).countAccess F.INS_GROUP_SCHED_ACCESSES e.ptr
      let (item, h, s) := s.sent p e.ptr (some e.header)
      s.startFrame p true 7 item h e.ptr e.account none (.queue b q place order e)
    | some (_, false) =>
      let s := { s with sched := { s.sched with heldWin := s.sched.heldWin.set [p] (some (s.rd F.SCH_ROUND_NUMBER, entry)) } }
      s.inc F.SCH_GATE_HOLD_SCHED 1 p

/-- R322: the port's link runs in credit mode. -/
def State.creditMode (s : State) (p : Nat) : Bool := s.flag F.PRT_LINK_STAT_CREDIT p

/-- R241, R282, R322: the neighbour takes a frame of length L on v: XON, or credits that cover it. -/
def State.flowOk (s : State) (p v len : Nat) : Bool :=
  if s.creditMode p then decide (ceilDiv len 64 ≤ s.rd F.PRT_CREDIT_TX_AVAIL p v)
  else !(s.rd F.PRT_FC_STAT_RX_XOFF p).testBit v

/-- The head frame of a virtual channel in the opportunistic egress FIFO. -/
def State.oppFirst (s : State) (p v : Nat) : Option OppEntry := (s.sched.oppFifo.get [p]).find? (fun e => e.vc == v)

/-- R242: the head frame, when all its cells are there. -/
def State.oppHead (s : State) (p v : Nat) : Option OppEntry :=
  (s.oppFirst p v).filter (fun e => e.pendingCells == 0)

/-- R233: a frame of length L ends before the next egress window. -/
def State.oppFits (s : State) (p len : Nat) : Bool :=
  match s.nextWindow p with
  | none => true
  | some n => decide (s.store + s.slot p len ≤ n)

/-- R282: the head frame of v is eligible. -/
def State.oppEligible (s : State) (p v : Nat) : Bool :=
  match s.oppHead p v with
  | none => false
  | some e => s.flowOk p v e.length && s.shaperPermits p v && s.oppFits p e.length

/-- An entry of p's egress FIFO changes. -/
def State.setEntry (s : State) (p : Nat) (e e' : OppEntry) : State :=
  { s with sched := { s.sched with oppFifo := s.sched.oppFifo.set [p] ((s.sched.oppFifo.get [p]).map (fun x => if x = e then e' else x)) } }

/-- R233, R281: the counts of head frames that do not start: held by the gate once per guard band, held by the
shaper once per frame. `first`: no channel before it in the order starts a frame. -/
def State.oppHolds (s : State) (p v : Nat) (first : Bool) : State :=
  match s.oppHead p v with
  | none => s
  | some e =>
    if !s.flowOk p v e.length then s
    else if !s.oppFits p e.length then
      (match s.nextWindow p with
      | none => s
      | some n =>
        if !s.shaperPermits p v || e.guard == n + 1 then s
        else (s.setEntry p e { e with guard := n + 1 }).inc F.SCH_GATE_HOLD_OPP 1 p)
    else if !s.shaperPermits p v && first && !e.held then
      ((s.setEntry p e { e with held := true }).mark (.held p v)).inc F.SHP_SHAPE_STAT_HELD 1 p v
    else s

/-- What a full mirror copy sends (R290): the copied bytes are read from the original. -/
def State.mirrorItem (s : State) (m : MirrorRec) : Item :=
  match m.orig with
  | none => .mirror m
  | some (p, _) => .mirror { m with bytes := (s.object p).body.take m.copied }

/-- R229, R281, R282, R322: the head frame of v starts: it is charged, takes its credits, and a scheduled buffer counts as
such. -/
def State.oppStartVc (s : State) (p v : Nat) : State :=
  match s.oppHead p v with
  | none => s
  | some e =>
    let charge := if s.flag F.SHP_SHAPE_CFG_ENABLE p v then s.charge .shaper p v e.length else 0
    let credits := if s.creditMode p then ceilDiv e.length 64 else 0
    let origin : Origin := .fifo e (s.sched.vcPtr.get [p]) charge credits (s.flag F.SCH_EXACT_LOSS_OPPSCHED)
    let s := s.shaperCharge p v e.length
    let s := if s.creditMode p then s.wr F.PRT_CREDIT_TX_AVAIL (s.rd F.PRT_CREDIT_TX_AVAIL p v - credits) p v else s
    let s := { s with sched := { s.sched with
      vcPtr := if v = 0 then s.sched.vcPtr else s.sched.vcPtr.set [p] v
      oppFifo := s.sched.oppFifo.set [p] ((s.sched.oppFifo.get [p]).erase e) } }
    let s := if e.sched.isSome then (s.exactLoss F.SCH_EXACT_LOSS_OPPSCHED).inc F.SCH_SENT_FRAMES 1 p else s
    let (item, h, s) := s.sent p e.ptr e.sched
    let item := match item with
      | .mirror m => s.mirrorItem m
      | i => i
    s.startFrame p e.sched.isSome v item h e.ptr e.account e.session origin

/-- R282: in opportunistic time a free port starts the eligible head frame of virtual channel 0, else the first eligible
one in round-robin order among 1 to 7. -/
def State.oppStart (s : State) (p : Nat) : State :=
  if !s.portUp p || s.fenced p || decide (s.store < s.sched.freeAt.get [p]) || (s.openWindow p).isSome then s
  else
    let last := s.sched.vcPtr.get [p]
    let order := 0 :: (List.range 7).map (fun k => (last + k) % 7 + 1)
    let pick := order.find? (fun v => s.oppEligible p v)
    let before := order.takeWhile (fun v => pick != some v)
    let s := s.each (List.range 8) (fun s v => if pick == some v then s else s.oppHolds p v (before.contains v))
    match pick with
    | none => s
    | some v => s.oppStartVc p v

/-- The swatch with this SEQ. -/
def Sending.renumber (x : Sending) (q : Nat) : Sending :=
  { x with
    header := { x.header with seq := q }
    frame := { x.frame with item := match x.frame.item with
      | .swatch h data => .swatch { h with seq := q } data
      | i => i } }

/-- The SEQ that a swatch has been given in its start. -/
def Sending.seqOf (x : Sending) (c n : Nat) : Option Nat :=
  match x.frame.item with
  | .swatch h _ => if h.context = c ∧ h.opnum = n then some h.seq else none
  | _ => none

/-- R149: the SEQ of a start that is taken back: those that the group's ports have given after it in this store cycle move
down by one. -/
def State.unnumber (s : State) (p : Nat) (x : Sending) : State :=
  match x.frame.item with
  | .swatch h _ =>
    let s := { s with sched := { s.sched with txSeq := s.sched.txSeq.upd [h.context, h.opnum, s.groupOf p] (· - 1) } }
    s.each (s.groupPorts (s.groupOf p)) (fun s o =>
      match s.sched.sending.get [o] with
      | none => s
      | some y =>
        if y.since = s.store ∧ (y.seqOf h.context h.opnum).any (fun q => decide (h.seq < q)) = true then
          { s with sched := { s.sched with sending := s.sched.sending.set [o] (some (y.renumber (y.header.seq - 1))) } }
        else s)
  | _ => s

/-- The start of x on port p is taken back, but for its place in the queue or FIFO. -/
def State.unstart (s : State) (p : Nat) (x : Sending) : State :=
  let s := s.unnumber p x
  let s := if x.sched then s.uncount F.SCH_SENT_FRAMES 1 p else s
  { s with
    link := { s.link with ports := s.link.ports.upd [p] (fun q => { q with txSeq := (q.txSeq + (2 ^ 32 - 1)) % 2 ^ 32 }) }
    sched := { s.sched with sending := s.sched.sending.set [p] none, freeAt := s.sched.freeAt.set [p] s.store } }

/-- The start of x on port p from a scheduled queue is taken back: its entry stands at its place again. -/
def State.unqueue (s : State) (p : Nat) (x : Sending) : State :=
  match x.origin with
  | .queue b q place _ e =>
    let s := s.unstart p x
    let s := s.each (s.objectCells e.ptr) (fun s c => s.uncount F.INS_GROUP_SCHED_ACCESSES 1 (cellGroup c))
    let l := s.sched.queues.get [b, q]
    { s with sched := { s.sched with queues := s.sched.queues.set [b, q] (l.take place ++ e :: l.drop place) } }
  | .fifo .. => s

/-- R234, R244: a port that becomes fenced in a store cycle starts nothing in it: what its start took goes back, and the
other ports of its group that started from its queue take what is theirs without it. -/
def State.cancelStart (s : State) (p : Nat) : State :=
  match s.sched.sending.get [p] with
  | none => s
  | some x =>
    if x.since != s.store then s
    else
      match x.origin with
      | .queue b .. =>
        let l := s.groupStarts b
        let s := s.each l (fun s (o, x) => s.unqueue o x)
        s.each ((l.map Prod.fst).filter (· != p)).reverse State.schedStart
      | .fifo e vcPtr charge credits lost =>
        let s := s.unstart p x
        let v := e.vc
        let s := if charge = 0 then s
          else
            let s := s.mark (.charged [Bucket.shaper.code, p, v] (-charge))
            (s.setTokens .shaper p v (s.tokens .shaper p v + charge)).uncount F.SHP_SHAPE_STAT_RELEASED 1 p v
        let s := s.wr F.PRT_CREDIT_TX_AVAIL (s.rd F.PRT_CREDIT_TX_AVAIL p v + credits) p v
        let others := s.sched.sending.entries.any (fun y => y.2.any (fun y => y.since == s.store && y.sched && y.isFifo))
        let s := if e.sched.isSome && !lost && !others then s.wr F.SCH_EXACT_LOSS_OPPSCHED 0 else s
        { s with sched := { s.sched with
          vcPtr := s.sched.vcPtr.set [p] vcPtr
          oppFifo := s.sched.oppFifo.set [p] (e :: s.sched.oppFifo.get [p]) } }

/-- R337: a channel that becomes XOFF in a store cycle starts nothing in it. -/
def State.cancelXoff (s : State) (p mask : Nat) : State :=
  match s.sched.sending.get [p] with
  | none => s
  | some x =>
    match x.origin with
    | .fifo e _ _ _ _ => if mask.testBit e.vc then s.cancelStart p else s
    | .queue .. => s

/-- R217, R289: the last byte of the frame being sent leaves the port, or the frame is cut short. -/
def State.departOp (s : State) (p : Nat) : State :=
  match s.sched.sending.get [p] with
  | none => s
  | some x =>
    let die := reqPort (dieOfPort p)
    let s := { s with sched := { s.sched with sending := s.sched.sending.set [p] none } }
    let s := if x.broken then s else s.emit (if x.bad then .badFrame p x.frame else .frame p x.frame)
    let orig := match x.frame.item with
      | .mirror m => m.orig
      | _ => none
    let s := if x.sched then s else s.noteObject x.ptr x.account p true
    let s := s.decRef x.ptr x.account die
    let s := match orig with
      | some (q, a) => s.decRef q a die
      | none => s
    let s := match x.session with
      | none => s
      | some m => (s.inc F.SHP_MIR_STAT_SENT 1 m).wr F.SHP_MIR_PEND_PENDING (s.rd F.SHP_MIR_PEND_PENDING m - 1) m
    if x.sched then s.noteOutput x.header p true else s

/-- R238, R240: the count and capture of an uncorrectable insole cell, and its fault. -/
def State.insUncorr (s : State) (cell : Nat) : State :=
  let s := s.inc F.INS_ECC_UNCORR
  let s := (s.wr F.INS_ECC_LAST_VALID 1).wr F.INS_ECC_LAST_CELL cell
  (s.exactLoss F.SCH_EXACT_LOSS_ECC).raise (stopIns (cellDie cell)) 24 cell

/-- R240: an opportunistic frame with an uncorrectable cell is dropped; a mirror copy's reference to its original goes with
it. -/
def State.loseEntry (s : State) (e : OppEntry) (p : Nat) : State :=
  let die := reqPort (dieOfPort p)
  let orig := match s.object e.ptr with
    | .mirror m => m.orig
    | _ => none
  let s := (s.noteEntry e p false).decRef e.ptr e.account die
  let s := match orig with
    | some (q, a) => s.decRef q a die
    | none => s
  match e.session with
  | none => s
  | some m => s.wr F.SHP_MIR_PEND_PENDING (s.rd F.SHP_MIR_PEND_PENDING m - 1) m

/-- R241, R242, R245: one cell time's matching. -/
structure MatchWork where
  state   : State
  matched : List Nat
  taken   : List (Nat × Nat)
  cells   : List Nat
  /-- The egress ports that have granted a request. -/
  granted : List Nat

/-- R241: the cell time of the present store cycle lies wholly inside one of p's egress windows. -/
def State.cellInWindow (s : State) (p : Nat) : Bool :=
  let o := s.offset - s.offset % 4
  (s.egressWindows p).any (fun w => decide (w.2.2.1 ≤ o ∧ o + 4 ≤ w.2.2.1 + w.2.2.2))

/-- Bytes waiting in a port's opportunistic egress FIFO. -/
def State.oppBytes (s : State) (p : Nat) : Nat := (s.sched.oppFifo.get [p]).foldl (fun n e => n + e.length) 0

/-- R245: the port a frame for `dst` goes to at its match: in a group, the one with the fewest waiting bytes for a
frame that carries SEQ, the lowest whose link is up otherwise; none where no port of the group takes it. -/
def State.matchPort (s : State) (dst : Nat) (e : OppEntry) : Option Nat :=
  let up := (s.groupPorts (s.groupOf dst)).filter (fun p => s.portUp p && !s.fenced p)
  match s.object e.ptr with
  | .swatch .. => up.foldl (fun (b : Option Nat) p => match b with
      | none => some p
      | some q => if s.oppBytes p < s.oppBytes q then some p else some q) none
  | _ => up.head?

/-- A request of a matching round: the egress port addressed, the pair's number 8d + v, the head frame, and the port it
goes to. -/
structure MatchReq where
  e : Nat
  n : Nat
  head : OppEntry
  port : Nat
  deriving DecidableEq, Repr

/-- R241 step 1: the request of pair `n` for egress port e: its head frame, which goes to a port that is not yet matched and
whose neighbour takes the virtual channel. -/
def State.matchReq (s : State) (matched : List Nat) (e n : Nat) : Option MatchReq :=
  match (s.sched.voq.get [n / 8, e, n % 8]).head? with
  | none => none
  | some h =>
    match s.matchPort e h with
    | none => none
    | some p => if s.flowOk p (n % 8) h.length && !matched.contains p then some { e, n, head := h, port := p } else none

/-- R241 step 1: the requests for egress port e. -/
def State.requests (s : State) (matched : List Nat) (e : Nat) : List MatchReq :=
  (List.range 64).filterMap (fun n => s.matchReq matched e n)

/-- R241, R289: the cells that a frame carries: those of its object, and of the original of a full mirror copy. -/
def State.entryObjects (s : State) (e : OppEntry) : List Nat :=
  match s.object e.ptr with
  | .mirror m => e.ptr :: (m.orig.map Prod.fst).toList
  | _ => [e.ptr]
def State.entryCells (s : State) (e : OppEntry) : List Nat := (s.entryObjects e).flatMap s.objectCells

/-- R241 step 2: a port grants a request: its FIFO has room, the cell time does not lie inside one of its windows, and no
bank group of the frame has its 16 cells granted. -/
def State.grants (s : State) (cells : List Nat) (r : MatchReq) : Bool :=
  !s.cellInWindow r.port && decide (s.oppBytes r.port + r.head.length ≤ 8192) &&
    (s.entryCells r.head).all (fun c => decide (cells.getD (cellGroup c) 0 < 16))

/-- R241 step 2: the grant of egress port e, from its grant pointer, when its port has granted nothing in this cell
time. -/
def grantFor (w : MatchWork) (e : Nat) : Option MatchReq :=
  let s := w.state
  let reqs := s.requests (w.matched ++ w.granted) e
  let start := s.sched.grantPtr.get [e]
  ((List.range 64).map (fun k => (start + k) % 64)).findSome? (fun n =>
    reqs.find? (fun r => r.n == n && s.grants w.cells r))

/-- R242: a match moves the head frame to the egress FIFO. -/
def applyMatch (w : MatchWork) (first : Bool) (r : MatchReq) : MatchWork :=
  let s := w.state
  let k := [r.n / 8, r.e, r.n % 8]
  let s := { s with sched := { s.sched with
    voq := s.sched.voq.set k ((s.sched.voq.get k).drop 1)
    oppFifo := s.sched.oppFifo.set [r.port] (s.sched.oppFifo.get [r.port] ++ [r.head])
    grantPtr := if first then s.sched.grantPtr.set [r.e] ((r.n + 1) % 64) else s.sched.grantPtr
    acceptPtr := if first then s.sched.acceptPtr.set [r.n / 8] ((r.e + 1) % 256) else s.sched.acceptPtr } }
  { w with state := s.inc F.SCH_MATCH_STAT_MATCHES, matched := r.port :: w.matched, taken := (r.n / 8, r.e) :: w.taken }

/-- R241: one iteration of request, grant and accept. -/
def matchIteration (w : MatchWork) (first : Bool) : MatchWork :=
  let (w, grants) := (List.range 256).foldl (fun (acc : MatchWork × List MatchReq) e =>
    match grantFor acc.1 e with
    | none => acc
    | some r =>
      let cells := (acc.1.state.entryCells r.head).foldl
        (fun l c => listSet 0 l (cellGroup c) (l.getD (cellGroup c) 0 + 1)) acc.1.cells
      ({ acc.1 with cells, granted := r.port :: acc.1.granted }, acc.2 ++ [r])) (w, [])
  (List.range 8).foldl (fun w d =>
    let start := w.state.sched.acceptPtr.get [d]
    let mine := ((List.range 256).map (fun k => (start + k) % 256)).filterMap (fun e =>
      grants.find? (fun r => r.e == e && r.n / 8 == d))
    let room := 16 - (w.taken.filter (fun t => t.1 == d)).length
    (mine.take room).foldl (fun w r => applyMatch w first r) w) w

/-- R241, R242: the three iterations of one cell time, and the requests still unmatched. -/
def State.matchRound (s : State) : State :=
  let w := matchIteration (matchIteration (matchIteration ⟨s, [], [], [], []⟩ true) false) false
  let left := (List.range 256).foldl (fun n e => n + (w.state.requests w.matched e).length) 0
  w.state.inc F.SCH_MATCH_STAT_UNMATCHED left

/-- R242: the last cell of a matched frame reaches the egress FIFO of p and the frame becomes eligible; with an
uncorrectable cell the frame is dropped (R240). -/
def State.oppRead (s : State) (p : Nat) (bad : Option Nat) : State :=
  match (s.sched.oppFifo.get [p]).find? (fun e => decide (0 < e.pendingCells)) with
  | none => s
  | some e =>
    let s := s.each (s.entryObjects e) (fun s p => s.countAccess F.INS_GROUP_OPP_ACCESSES p)
    match bad with
    | some c =>
      let s := { s.insUncorr c with sched := { s.sched with oppFifo := s.sched.oppFifo.set [p] ((s.sched.oppFifo.get [p]).erase e) } }
      s.loseEntry e p
    | none => s.setEntry p e { e with pendingCells := 0 }

end Sys2Proof.Machine
end

