-- ==== Sys2Proof/Machine/Fences.lean ====
section
/-!
DEFINITION. Changes of the fence bits, and what follows from them in the same store cycle (R218 to R221, R234, R250,
R256, R362).
-/

namespace Sys2Proof.Machine

/-- R219, R221: an enqueue onto a target that becomes fenced in the same store cycle is none: it becomes a decrement. -/
def State.undoEnqueues (s : State) (b : Nat) : State :=
  if !s.targetFenced b then s
  else
    let s := s.each (List.range 16) (fun s t =>
      let late := (s.sched.queues.get [b, t]).filter (fun e => e.visible == s.store)
      let s := { s with sched := { s.sched with
        queues := s.sched.queues.set [b, t] ((s.sched.queues.get [b, t]).filter (fun e => e.visible != s.store)) } }
      s.each late (fun s e =>
        let s := (s.uncount F.INS_MC_ENQUEUES_COUNT).inc F.INS_MC_FENCED_DROP_COUNT 1 b
        (s.decRef e.ptr e.account (reqPort (dieOfPort b))).noteOutput e.header b false))
    s.each ((s.groupPorts b).flatMap voqKeys) (fun s k =>
      let gone (e : OppEntry) : Bool := e.since == s.store && e.session.isNone
      let late := (s.sched.voq.get k).filter gone
      let s := { s with sched := { s.sched with voq := s.sched.voq.set k ((s.sched.voq.get k).filter (fun e => !gone e)) } }
      s.each late (fun s e => (s.uncount F.INS_MC_ENQUEUES_COUNT).dropEntry e (k.getD 1 0) (reqPort (k.headD 0))))

/-- R220, R221, R234, R256, R362: port p has become fenced; where software cleared the bit in this very cycle it has stayed
so. -/
def State.fenceUp (s : State) (p : Nat) : State :=
  let s := (s.cancelStart p).undoEnqueues (s.groupOf p)
  let was := s.noted (fun m => match m with
    | .unfenced q t u => if q = p then some (t, u) else none
    | _ => none)
  let since := match was with
    | some (t, _) => t
    | none => some ((s.sched.fenceSince.get [p]).getD s.now)
  let purges := match was with
    | some (_, u) => u
    | none => true
  let s := { s with sched := { s.sched with
    fenceSince := s.sched.fenceSince.set [p] since
    purging := if !purges || s.sched.purging.contains p then s.sched.purging else s.sched.purging ++ [p] } }
  s.askDegraded p

/-- R220: port p is fenced no more: its purge ends. -/
def State.fenceDown (s : State) (p : Nat) : State :=
  let s := s.mark (.unfenced p (s.sched.fenceSince.get [p]) (s.sched.purging.contains p))
  { s with sched := { s.sched with purging := s.sched.purging.filter (· != p) } }

/-- R218, R250: INS_FENCE_GEN and SCH_EXACT_LOSS count a store cycle in which a bit stands otherwise than at its start, once.
-/
def State.fenceCount (s : State) : State :=
  let changed := [0, 1, 2, 3].any (fun i => s.rdStart F.INS_FENCE_PORTS i != s.rd F.INS_FENCE_PORTS i)
  let counted := s.marked .fence 2
  if changed && !counted then
    (((s.noteWas F.INS_FENCE_GEN_GEN).inc F.INS_FENCE_GEN_GEN).mark .fence).exactLossNoted F.SCH_EXACT_LOSS_FENCE
  else if counted && !changed then
    let s := { s with marks := s.marks.filter (fun e => e.2 != Mark.fence) }
    (s.restoreWas F.INS_FENCE_GEN_GEN).exactUndo F.SCH_EXACT_LOSS_FENCE
  else s

/-- R218, R250: the fence bits take new values, `f p` for port p; INS_FENCE_GEN counts the store cycle once; and everything
that follows a change. -/
def State.setFences (s : State) (f : Nat → Bool) : State :=
  let up := (List.range 256).filter (fun p => f p && !s.fenced p)
  let down := (List.range 256).filter (fun p => !f p && s.fenced p)
  if up.isEmpty && down.isEmpty then s
  else
    let word (i : Nat) : Nat := (List.range 64).foldl (fun a k => if f (64 * i + k) then a + 2 ^ k else a) 0
    let s := s.each [0, 1, 2, 3] (fun s i => s.noteWas F.INS_FENCE_PORTS i)
    let s := s.each [0, 1, 2, 3] (fun s i => s.wr F.INS_FENCE_PORTS (word i) i)
    let s := s.fenceCount.syncFenced
    ((s.each down State.fenceDown).each up State.fenceUp).syncFailing

/-- R220: port p was fenced before this store cycle and still is, and has lost no pointer in it. -/
def State.purges (s : State) (p : Nat) : Bool :=
  s.fenced p && (s.rdStart F.INS_FENCE_PORTS (p / 64)).testBit (p % 64) && !s.marked (.purged p) 2

/-- R218, R221: a fence bit that software cannot clear now: hardware holds it, or has set it in this store cycle. -/
def State.keepsFence (s : State) (p : Nat) : Bool := s.fenceHeld p || s.marked (.fenceSet p) 2

/-- R218: hardware sets the fence of p. -/
def State.hwFence (s : State) (p : Nat) : State := (s.mark (.fenceSet p)).setFences (fun q => q == p || s.fenced q)

/-- R218: software writes word i of INS_FENCE. -/
def State.swFence (s : State) (i v : Nat) : State :=
  s.setFences (fun q => if q / 64 = i then v.testBit (q % 64) || (s.fenced q && s.keepsFence q) else s.fenced q)

/-- R218: the management firmware clears the fences of some ports. -/
def State.unfence (s : State) (ps : List Nat) : State :=
  s.setFences (fun q => s.fenced q && (!ps.contains q || s.keepsFence q))

end Sys2Proof.Machine
end

