-- ==== Sys2Proof/Machine/Arrival.lean ====
section
/-!
DEFINITION. From a received frame to a released swatch: ingress flow control, landing, allocation of arrivals, and the
resequencer (R235, R236, R246 to R248, R266, R267, R315, R316, R322).
-/

namespace Sys2Proof.Machine

/-- OPC_STATE.STATE (R155). -/
def ctxUndeclared : Nat := 0
def ctxIdle : Nat := 1
def ctxOpen : Nat := 2
def ctxFlush : Nat := 3
def ctxClosing : Nat := 4
def ctxPaused : Nat := 5
def State.ctxState (s : State) (x : Nat) : Nat := s.rd F.OPC_STATE_STATE x

/-- KIND values (R142). -/
def kAllReduce : Nat := 0
def kReduceScatter : Nat := 1
def kAllGather : Nat := 2
def kBroadcast : Nat := 3
def kBarrier : Nat := 4
def kRedistribute : Nat := 5
def kExchange : Nat := 6
def kParity : Nat := 7
def State.kind (s : State) (x : Nat) : Nat := s.rd F.OPC_DECL_KIND x
def State.lastOf (s : State) (x : Nat) : Nat := s.rd F.OPC_DECL_LAST x

/-- R154, R166: an item for context x is dropped as undeclared. -/
def State.undeclared (s : State) (x : Nat) : Bool := !s.accepted || s.ctxState x == ctxUndeclared

/-- R264, R270: the account an arriving swatch or descriptor of context x is charged to. -/
def State.arrivalAccount (s : State) (x : Nat) : Nat :=
  if s.undeclared x || s.kind x == kParity then 16 else s.lastOf x

/-- R166: a drop for an undeclared context is counted and captured. -/
def State.dropUndecl (s : State) (port x : Nat) : State :=
  let s := s.inc F.OPC_UNDECL_COUNT
  ((s.wr F.OPC_UNDECL_LAST_VALID 1).wr F.OPC_UNDECL_LAST_PORT port).wr F.OPC_UNDECL_LAST_CONTEXT x

/-- R166: OPNUM is the current operation's, or the next one's. -/
def State.opnumOk (s : State) (x opnum : Nat) : Bool :=
  let n := s.rd F.NUM_OPSEQ_OPNUM x
  opnum == n || opnum == (n + 1) % 2 ^ 32

/-- A port's link data changed. -/
def State.setPort (s : State) (p : Nat) (f : Port → Port) : State :=
  { s with link := { s.link with ports := s.link.ports.upd [p] f } }
def State.port (s : State) (p : Nat) : Port := s.link.ports.get [p]

/-- R315: bytes of virtual channel v in the ingress FIFO: of whole frames, and of those whose bytes are arriving. -/
def State.fifoOf (s : State) (p v : Nat) : Nat :=
  let arriving := if s.flag F.PRT_DISC_QUAR p then [] else rxFrames (s.port p).rx.length (s.port p).rx
  arriving.foldl (fun n f => if !f.1 && f.2.1 == v then n + f.2.2 else n) ((s.port p).fifo.getD v 0)

/-- R315: total occupancy of the ingress FIFO. -/
def State.fifoTotal (s : State) (p : Nat) : Nat := ((List.range 8).map (s.fifoOf p)).foldl (· + ·) 0

/-- PRT_FC_STAT.FIFO shows the total occupancy. -/
def State.syncFifo (s : State) (p : Nat) : State := s.wr F.PRT_FC_STAT_FIFO (s.fifoTotal p) p

/-- R316: the XOFF state of each virtual channel follows the occupancies, with hysteresis. -/
def State.syncXoff (s : State) (p : Nat) : State :=
  let total := s.fifoTotal p
  let pt := s.port p
  let at_ := 1024 * s.rd F.PRT_LINK_CFG_TOTAL_AT p
  let tot := if at_ ≤ total then true else if total ≤ at_ / 2 then false else pt.xoffTotal
  let own := (List.range 8).map (fun v =>
    let o := s.fifoOf p v
    if 64 * s.rd F.PRT_FC_CFG_XOFF_AT p v ≤ o then true
    else if o ≤ 64 * s.rd F.PRT_FC_CFG_XON_AT p v then false
    else pt.xoffOwn.getD v false)
  let mask := (List.range 8).foldl (fun a v => if tot || own.getD v false then a + 2 ^ v else a) 0
  let s := s.setPort p (fun pt => { pt with xoffOwn := own, xoffTotal := tot })
  s.wr F.PRT_FC_STAT_TX_XOFF (if s.creditMode p then 0 else mask) p

/-- R315: a frame enters the FIFO; R322: or its bytes leave, and its credits go back. -/
def State.fifoAdd (s : State) (p v len : Nat) : State :=
  (s.setPort p (fun pt => { pt with fifo := listSet 0 pt.fifo v (pt.fifo.getD v 0 + len) })).syncFifo p
/-- R322: the credits of a frame of length `len` go back to the neighbour. -/
def State.returnCredits (s : State) (p v len : Nat) : State :=
  if s.creditMode p then
    let c := ceilDiv len 64
    let s := s.setPort p (fun pt => { pt with returned := listSet 0 pt.returned v ((pt.returned.getD v 0 + c) % 65536) })
    s.wr F.PRT_CREDIT_RX_OUT (s.rd F.PRT_CREDIT_RX_OUT p v - c) p v
  else s
def State.fifoRemove (s : State) (p v len : Nat) : State :=
  ((s.setPort p (fun pt => { pt with fifo := listSet 0 pt.fifo v (pt.fifo.getD v 0 - len) })).returnCredits p v len).syncFifo p

/-- R235, R236: release of a frame into the switch: it asks for its buffers. -/
def State.release (s : State) (p : Nat) (item : Item) (vc : Option Nat := none) (off : Bool := false) : State :=
  let a := (item.context.map s.arrivalAccount).getD 16
  s.request (reqPort (dieOfPort p)) a item (.arrival p vc off)

/-- R235: the ingress window of last t that a frame complete in store cycle `done` belongs to: entry, round and the
store cycle of the window's START; of the present round or the one before, with the bank that p had in it. DESIGN CHOICE
(log 132): of two such windows the first, the present round's before the other's. -/
def State.ingressWindow (s : State) (p t done : Nat) : Option (Nat × Nat × Nat) :=
  let land := s.rd F.SCH_PORT_CFG_LAND p
  let n := s.rd F.SCH_ROUND_NUMBER
  let before := ((s.sched.prevBanks.find? (fun b => b.1 == p)).map Prod.snd).getD (s.bank p)
  let tryRound (bank base round : Nat) : Option (Nat × Nat × Nat) :=
    (((s.windows p bank 1).filter (fun w => w.2.1 == t)).find? (fun w => decide (base + w.2.2.1 ≤ done ∧ done < base + w.2.2.1 + w.2.2.2 + land))).map
      (fun w => (w.1, round, base + w.2.2.1))
  if !s.sched.running then none
  else match tryRound (s.bank p) s.sched.roundStart n with
    | some r => some r
    | none => if n = 0 then none else tryRound before (s.sched.roundStart - s.sched.prevLen) (n - 1)

/-- The number that stands for "no last" at landing (R236). -/
def noLast : Nat := 16

/-- How a frame that waits for its landing is released in the present store cycle, if it is (R235, R236). -/
inductive LandAs where
  /-- Without a landing: it has no last. -/
  | plain
  /-- Outside every window of its last. -/
  | off
  /-- In a window, entry and round: in its landing cycle, or late; the release cycle counts for the next frame. -/
  | inWindow (round entry released : Nat) (late : Bool)
  deriving DecidableEq, Repr

/-- R235, R236: what port p does with a frame in the present store cycle; none: it still waits. -/
def State.landAs (s : State) (p : Nat) (l : Landing) : Option LandAs :=
  let done := decide (l.done < s.store)
  if l.last = noLast then (if done then some .plain else none)
  else match s.ingressWindow p l.last l.done with
    | none => if done then some .off else none
    | some (entry, round, start) =>
      let due := match s.sched.winLand.get [p, l.last, entry] with
        | some w => if w.round = round ∧ w.entry = entry then w.landing else start + s.rd F.SCH_PORT_CFG_LAND p
        | none => start + s.rd F.SCH_PORT_CFG_LAND p
      if due < l.done then (if done then some (.inWindow round entry (l.done + 1) true) else none)
      else if due ≤ s.store then some (.inWindow round entry due false)
      else none

/-- R235, R236: the first frame waiting on p that is to be released is: in its landing cycle, or late, or outside every
window of its last; a frame without a last takes no landing. The frames of one window keep the order of their completion. -/
def State.landOp (s : State) (p : Nat) : State :=
  let ls := s.sched.landing.get [p]
  let window (l : Landing) : Option (Nat × Nat × Nat) := if l.last = noLast then none else s.ingressWindow p l.last l.done
  let first (l : Landing) : Bool := (window l).isNone ||
    ls.find? (fun k => k.last == l.last && window k == window l) == some l
  match ls.findSome? (fun l => if first l then (s.landAs p l).map (fun a => (l, a)) else none) with
  | none => s
  | some (l, a) =>
    let s := { s with sched := { s.sched with landing := s.sched.landing.set [p] (ls.erase l) } }
    match a with
    | .plain => s.release p l.frame.item
    | .off => ((s.inc F.SCH_LAND_OFFWINDOW 1 p).exactLoss F.SCH_EXACT_LOSS_LAND).release p l.frame.item none true
    | .inWindow round entry released late =>
      let w : WinLanding := { round, entry, landing := released + s.slot p l.frame.item.linkLength }
      let s := { s with sched := { s.sched with winLand := s.sched.winLand.set [p, l.last, entry] (some w) } }
      let s := if late then (s.inc F.SCH_LAND_LATE 1 p).exactLoss F.SCH_EXACT_LOSS_LAND else s
      s.release p l.frame.item

/-- R248: a swatch reaches the input of a resequencer: those of one store cycle stand there in ascending port order. -/
def State.reseqPut (s : State) (d : Nat) (a : Arrived) : State :=
  let before (h : Handoff) : Bool := decide (h.ready < s.store ∨ h.item.port ≤ a.port)
  let put (l : List Handoff) : List Handoff := l.takeWhile before ++ { ready := s.store, item := a } :: l.dropWhile before
  { s with sched := { s.sched with reseqIn := s.sched.reseqIn.upd [d] put } }

/-- R246: an arrival that is stored goes to the resequencer of its group's lowest port, in 8 store cycles when it is on
another port's die; a descriptor goes to its decision. `tier`: the write is of the scheduled tier (R236, R238). -/
def State.arrived (s : State) (port ptr account : Nat) (vc : Option Nat) (tier : Bool) (item : Item) : State :=
  let s := s.countAccess (if tier then F.INS_GROUP_SCHED_ACCESSES else F.INS_GROUP_OPP_ACCESSES) ptr
  match item with
  | .swatch h _ =>
    let a : Arrived := { port, sched := vc.isNone, vc := vc.getD 7, header := h, ptr, account }
    let b := s.groupOf port
    if b = port then s.reseqPut (dieOfPort b) a
    else { s with sched := { s.sched with handoffs := s.sched.handoffs ++ [{ ready := s.store + 8, item := a }] } }
  | .descriptor d =>
    let a : ArrivedDesc := { port, sched := vc.isNone, vc := vc.getD 7, desc := d, ptr, account }
    { s with sched := { s.sched with descs := s.sched.descs ++ [a] } }
  | _ => s.freeObj ptr account (reqPort (dieOfPort port))

/-- R266, R267, R271: the k-th request is decided, when its list has decided those before it in this store cycle and has
buffers of the cycle left: granted, and the object goes where it was bound; or refused, and it waits to be tried again. -/
def State.allocServe (s : State) (k : Nat) : State :=
  match s.requestOrder[k]? with
  | none => s
  | some r =>
    let (q, l) := r.list
    if r.tried == some s.store || !s.listServes (s.requestOrder.take k) q l (poolFor r.item.stored).2 then s
    else match s.alloc r.item r.account r.requester with
    | (none, s) =>
      { s with bpm := { s.bpm with requests := s.bpm.requests.map (fun q =>
        if q = r then { q with refused := some (q.refused.getD s.store), tried := some s.store } else q) } }
    | (some p, s) =>
      let s := { s with bpm := { s.bpm with requests := s.bpm.requests.erase r } }
      match r.purpose with
      | .arrival port vc off =>
        let s := match vc with
          | none => s
          | some v => s.fifoRemove port v r.item.linkLength
        s.arrived port p r.account vc (vc.isNone && !off) r.item
      | .own port vc =>
        let s := (s.fifoRemove port vc r.item.linkLength).countWrite p r.account
        let s := s.mirrorAll port false false vc none p r.account 0
        (match r.item with
        | .control _ data => { s with sched := { s.sched with grantsIn := s.sched.grantsIn ++ [(port, data, p)] } }
        | .host data => (s.emit (.hostData port data)).dropObj p r.account r.requester
        | _ => s.dropObj p r.account r.requester)
      | .forward port dst vc =>
        let s := s.addRefs p 1
        let s := s.countWrite p r.account
        let s := if r.account = 16 then
            (s.fifoRemove port vc r.item.linkLength).mirrorAll port false false vc none p 16 0
          else s
        s.pushVoq (dieOfPort port) dst
          { ptr := p, account := r.account, vc, length := r.item.linkLength, session := none, pendingCells := cellsOf r.item.stored }
      | .output targets => (s.countWrite p r.account).multicast p r.account r.requester targets

/-- R267: an arrival of accounts 0 to 15 that has been retried for ALLOC_WAIT store cycles since its first refusal is
dropped. -/
def State.allocExpire (s : State) (k : Nat) : State :=
  match s.requestOrder[k]? with
  | none => s
  | some r =>
    match r.purpose with
    | .arrival port vc _ =>
      if r.account ≤ 15 ∧ r.refused.any (fun n => decide (n + s.rd F.BPM_GCFG_ALLOC_WAIT ≤ s.store)) = true then
        let s := { s with bpm := { s.bpm with requests := s.bpm.requests.erase r } }
        let s := match vc with
          | none => s
          | some v => s.fifoRemove port v r.item.linkLength
        let s := (s.bpmDrop r.account).latch F.BPM_ERR_EXHAUSTED
        (s.inc F.BPM_ERR_COUNT_EXHAUSTED).raise (stopPort (dieOfPort port)) 29 port
      else s
    | _ => s

/-- R246: a pointer that has been 8 store cycles on its way reaches the resequencer's port die. -/
def State.handoff (s : State) : State :=
  match s.sched.handoffs.find? (fun h => decide (h.ready ≤ s.store)) with
  | none => s
  | some h =>
    ({ s with sched := { s.sched with handoffs := s.sched.handoffs.erase h } }).reseqPut (dieOfPort (s.groupOf h.item.port)) h.item

/-- SCH_RESEQ_STAT(d) shows the streams in use and the swatches held. -/
def State.syncReseq (s : State) (d : Nat) : State :=
  let l := s.sched.streams.get [d]
  (s.wr F.SCH_RESEQ_STAT_STREAMS l.length d).wr F.SCH_RESEQ_STAT_HELD (l.foldl (fun n t => n + t.held.length) 0) d

/-- A swatch is released by its resequencer. -/
def State.releaseSwatch (s : State) (a : Arrived) : State :=
  { s with sched := { s.sched with released := s.sched.released ++ [a] } }

/-- R166: a drop frees the swatch's buffer at once. -/
def State.dropArrived (s : State) (a : Arrived) : State := s.dropObj a.ptr a.account (reqPort (dieOfPort a.port))

/-- The buffer of a stored descriptor is given up. -/
def State.dropDesc (s : State) (b : ArrivedDesc) : State := s.dropObj b.ptr b.account (reqPort (dieOfPort b.port))

def State.setStreams (s : State) (d : Nat) (l : List Stream) : State :=
  ({ s with sched := { s.sched with streams := s.sched.streams.set [d] l } }).syncReseq d

/-- R248: a stream that starts takes one of the last entries of port die d: as many ports as the chip has could start
more streams in this store cycle than entries are left. -/
def State.fewEntries (s : State) (d : Nat) : Bool := decide (2048 < (s.sched.streams.get [d]).length + 256)

/-- R247, R248: the swatch at the input of port die d's resequencer. One that came in this store cycle and could start a
stream with one of the last entries waits for its end, when every one that starts in it stands in port order. -/
def State.resequence (s : State) (d : Nat) : State :=
  match s.sched.reseqIn.get [d] with
  | [] => s
  | i :: rest =>
    if s.fewEntries d && i.ready == s.store then s
    else
    let s := { s with sched := { s.sched with reseqIn := s.sched.reseqIn.set [d] rest } }
    let a := i.item
    let h := a.header
    if s.undeclared h.context then (s.dropArrived a).dropUndecl a.port h.context
    else if !s.opnumOk h.context h.opnum then (s.dropArrived a).inc F.OPC_DROPS_STALE 1 h.context
    else
      let g := s.groupOf a.port
      let l := s.sched.streams.get [d]
      let mine (t : Stream) : Bool := t.context == h.context && t.opnum == h.opnum && t.rank == h.rank && t.group == g
      if !(l.any mine) && decide (2048 ≤ l.length) then
        ((s.inc F.SCH_RESEQ_STAT_BYPASS 1 d).exactLoss F.SCH_EXACT_LOSS_RESEQ).releaseSwatch a
      else
        let t : Stream := (l.find? mine).getD { context := h.context, opnum := h.opnum, rank := h.rank, group := g, next := 0, held := [] }
        let others := l.filter (fun t => !mine t)
        let put (s : State) (t : Stream) : State := s.setStreams d (others ++ [t])
        if h.seq = t.next then (put s { t with next := t.next + 1 }).releaseSwatch a
        else if h.seq < t.next then (put s t).releaseSwatch a
        else if t.next + 256 ≤ h.seq then
          let s := ((put s t).dropArrived a).inc F.SCH_RESEQ_STAT_FAR 1 d
          (s.exactLoss F.SCH_EXACT_LOSS_RESEQ).raise (stopPort d) 30
        else if t.held.any (fun b => b.header.seq == h.seq) then ((put s t).dropArrived a).inc F.OPC_DROPS_DUP 1 h.context
        else put s { t with held := t.held ++ [a] }

/-- R247: a held swatch that now follows NEXT is released. -/
def State.releaseHeld (s : State) (d : Nat) : State :=
  let l := s.sched.streams.get [d]
  match l.find? (fun t => t.held.any (fun a => a.header.seq == t.next)) with
  | none => s
  | some t =>
    match t.held.find? (fun a => a.header.seq == t.next) with
    | none => s
    | some a =>
      (s.setStreams d (l.map (fun u => if u = t then { t with next := t.next + 1, held := t.held.erase a } else u))).releaseSwatch a

/-- R248: the streams of an operation that closes are freed, with the swatches still held. -/
def State.freeStreams (s : State) (x opnum : Nat) : State :=
  s.each (List.range 8) (fun s d =>
    let l := s.sched.streams.get [d]
    let mine := l.filter (fun t => t.context == x && t.opnum == opnum)
    if mine.isEmpty then s
    else
      let s := s.each mine (fun s t => s.each t.held State.dropArrived)
      s.setStreams d (l.filter (fun t => !(t.context == x && t.opnum == opnum))))

/-- R248: at plan retirement every stream is freed. -/
def State.freeAllStreams (s : State) : State :=
  s.each (List.range 8) (fun s d =>
    (s.each (s.sched.streams.get [d]) (fun s t => s.each t.held State.dropArrived)).setStreams d [])

end Sys2Proof.Machine
end

