-- ==== Sys2Proof/Machine/MemOps.lean ====
section
/-!
DEFINITION. GDDR7 and the CXL memory tier: the address maps, reads and writes, and uncorrectable reads
(R407 to R410, R415, R416, R462).
-/

namespace Sys2Proof.Machine

def gib : Nat := 2 ^ 30

/-- R399: a record of the event recorder is 320 B long. -/
def eventSize : Nat := 320

/-- R408: the in-use channels of a memory die, ascending. -/
def State.dieChannels (s : State) (m : Nat) : List Nat :=
  ((List.range 4).map (4 * m + ·)).filter (fun c => s.mem.inUse.testBit c)

/-- R408: the memory die of an address, and its channel. -/
def gddrDie (a : Nat) : Nat := a / 4096 % 4
def State.gddrChannel (s : State) (a : Nat) : Nat :=
  let l := s.dieChannels (gddrDie a)
  let d := a / 16384 * 4096 + a % 4096
  l.getD (d / 256 % l.length) (4 * gddrDie a)

/-- R408: the device address of an address within its channel. -/
def State.deviceAddr (s : State) (a : Nat) : Nat :=
  let d := a / 16384 * 4096 + a % 4096
  d / 256 / (s.dieChannels (gddrDie a)).length * 256 + d % 256

def State.gddrBytes (s : State) : Nat := s.rd F.MEM_GDDR_SIZE_BYTES

/-- The pieces of n bytes from `a` that lie in one 256 B block each: address and length. -/
def blockPieces (a n : Nat) : List (Nat × Nat) :=
  if n = 0 then []
  else (List.range ((a + n - 1) / 256 + 1 - a / 256)).map (fun k =>
    let lo := max a (256 * (a / 256 + k))
    let hi := min (a + n) (256 * (a / 256 + k + 1))
    (lo, hi - lo))

/-- MEM_CH_BYTES counts the bytes of an access on its channels. -/
def State.countChannel (s : State) (a n : Nat) : State :=
  s.each (blockPieces a n) (fun s p => s.inc F.MEM_CH_BYTES_BYTES p.2 (s.gddrChannel p.1))

/-- R409: the first address of an access that lies on a FAILED channel. -/
def State.gddrFailed (s : State) (a n : Nat) : Option Nat :=
  ((blockPieces a n).find? (fun p => s.rd F.MEM_CH_STAT_STATE (s.gddrChannel p.1) == 3)).map Prod.fst

/-- R407: an uncorrectable read is counted, captured and raised with the channel as DETAIL. -/
def State.gddrUncorr (s : State) (a : Nat) : State :=
  let c := s.gddrChannel a
  let s := s.inc F.MEM_CH_ECC_UNCORR 1 c
  let s := (s.wr F.MEM_CH_ECC_LAST_VALID 1 c).wr F.MEM_CH_ECC_LAST_ADDR a c
  s.raise (stopMem (c / 4)) 48 c

/-- A read of n bytes of GDDR7. `bad`: the address of a word that the device cannot correct, if any; an access to a
FAILED channel is uncorrectable (R409). -/
def State.gddrRead (s : State) (a n : Nat) (bad : Option Nat := none) : Option (List Byte) × State :=
  let s := s.countChannel a n
  match (s.gddrFailed a n).or bad with
  | some x => (none, s.gddrUncorr x)
  | none => (some (s.mem.gddr.readN a n), s)

/-- Bytes are stored in GDDR7. -/
def State.setGddr (s : State) (a : Nat) (l : List Byte) : State :=
  { s with mem := { s.mem with gddr := s.mem.gddr.writeN a l } }

/-- A write to GDDR7; the accesses to a FAILED channel do not succeed (R409, R410). -/
def State.gddrWrite (s : State) (a : Nat) (l : List Byte) : Bool × State :=
  let s := s.countChannel a l.length
  match s.gddrFailed a l.length with
  | some _ => (false, s.each (blockPieces a l.length) (fun s p =>
      if (s.gddrFailed p.1 p.2).isSome then s else s.setGddr p.1 ((l.drop (p.1 - a)).take p.2)))
  | none => (true, s.setGddr a l)

/-- R415: the spore space's size, and the port and expander address of its granule k. -/
def State.sporeBytes (s : State) : Nat :=
  let a := s.rd F.CKP_TIER_GIB 0
  let b := s.rd F.CKP_TIER_GIB 1
  if a = 0 then b * gib else if b = 0 then a * gib else 2 * min a b * gib
def State.sporeAt (s : State) (k : Nat) : Nat × Nat :=
  if s.rd F.CKP_TIER_GIB 0 = 0 then (1, s.rd F.CKP_TIER_BASE 1 + 4096 * k)
  else if s.rd F.CKP_TIER_GIB 1 = 0 then (0, s.rd F.CKP_TIER_BASE 0 + 4096 * k)
  else (k % 2, s.rd F.CKP_TIER_BASE (k % 2) + 4096 * (k / 2))

/-- A granule as the vector that R462 encrypts. -/
def granule (l : List Byte) : Vector Byte 4096 := Vector.ofFn (fun i => l.getD i.val 0)

/-- Bytes stored in an expander, raw. -/
def State.cxlRead (s : State) (port a n : Nat) : List Byte := (s.mem.cxl.get [port]).readN a n
def State.cxlWrite (s : State) (port a : Nat) (l : List Byte) : State :=
  { s with mem := { s.mem with
      cxl := s.mem.cxl.upd [port] (·.writeN a l)
      poison := (List.range (ceilDiv (a % 4096 + l.length) 4096)).foldl (fun m k => m.set [port, a / 4096 + k] false) s.mem.poison } }

/-- R416: a read of an expander has returned poison; the 4 KiB unit it lies in stays poisoned until it is written (PRESUMED: what a
CXL.mem device does, log 143). -/
def State.poisoned (s : State) (port a : Nat) : Bool := s.mem.poison.get [port, a / 4096]
def State.readPoison (s : State) (port a : Nat) : State :=
  { s with mem := { s.mem with poison := s.mem.poison.set [port, a / 4096] true } }.inc F.MEM_CXL_ERR_POISON 1 port

/-- R462: granule k of the spore space, in plaintext. -/
def State.sporeRead (s : State) (k : Nat) : List Byte :=
  let (p, a) := s.sporeAt k
  ((Config.xts s.mem.key k).symm (granule (s.cxlRead p a 4096))).toList
def State.sporeWrite (s : State) (k : Nat) (l : List Byte) : State :=
  let (p, a) := s.sporeAt k
  s.cxlWrite p a (Config.xts s.mem.key k (granule l)).toList

/-- R416: granule k of the spore space, unless its read returns poison. -/
def State.readGranule (s : State) (k : Nat) : Option (List Byte) × State :=
  let (p, a) := s.sporeAt k
  if s.poisoned p a then (none, s.readPoison p a) else (some (s.sporeRead k), s)

/-- The CXL memory port's link is up. -/
def State.cxlUp (s : State) (i : Nat) : Bool := s.flag F.MEM_CXL_STAT_UP i

end Sys2Proof.Machine
end

