-- ==== Sys2Proof/Machine/Units.lean ====
section
/-!
DEFINITION. Contexts, lasts and clusters as tables: what a declaration and a last say, which cluster owns a chunk, and
the disabled-unit map (R39, R41, R66, R87 to R96, R125, R137 to R142, R177).
-/

namespace Sys2Proof.Machine

/-- LST_CFG.LEVEL. -/
def levelWhole : Nat := 0
def levelSegment : Nat := 1
def levelUpper : Nat := 2
def State.level (s : State) (t : Nat) : Nat := s.rd F.LST_CFG_LEVEL t

/-- The declaration of a context. -/
def State.operator (s : State) (x : Nat) : Nat := s.rd F.OPC_DECL_OPERATOR x
def State.inFmt (s : State) (x : Nat) : Nat := s.rd F.OPC_DECL_IN_FMT x
def State.outFmt (s : State) (x : Nat) : Nat := s.rd F.OPC_DECL_OUT_FMT x
def State.opnum (s : State) (x : Nat) : Nat := s.rd F.NUM_OPSEQ_OPNUM x
def State.op (s : State) (x : Nat) : OpCtx := s.ctx.get [x]
def State.setOp (s : State) (x : Nat) (f : OpCtx → OpCtx) : State := { s with ctx := s.ctx.upd [x] f }

/-- The contexts with OPC_DECL.VALID set, ascending: those of the register file's entries, since VALID resets to 0. -/
def State.contexts (s : State) : List Nat :=
  s.regs.entries.filterMap (fun e => match e.1, e.2 with
    | [r, lo, x, _], some 1 => if r = Reg.OPC_DECL.ctorIdx ∧ lo = 31 then some x else none
    | _, _ => none)

/-- The indices at which a field of an array stands off its reset value; the field at its reset value 0 everywhere. -/
def State.indicesOf (s : State) (f : Fld) : List Nat :=
  s.regs.entries.filterMap (fun e => match e.1 with
    | [r, lo, x, _] => if r = f.reg.ctorIdx ∧ lo = f.lo then some x else none
    | _ => none)
def State.zeroAll (s : State) (f : Fld) : State := s.each (s.indicesOf f) (fun s x => s.wr f 0 x)

/-- R341: the group that names a PARITY context, and whether as its epoch context. -/
def State.sporeGroup (s : State) (x : Nat) : Option (Nat × Bool) :=
  let t := s.lastOf x
  match (List.range 32).find? (fun g => s.flag F.CKP_GROUP_VALID t g &&
      (s.rd F.CKP_GROUP_EPOCH_CTX t g == x || s.rd F.CKP_GROUP_REGROW_CTX t g == x)) with
  | none => none
  | some g => some (g, s.rd F.CKP_GROUP_EPOCH_CTX t g == x)

/-- R370: the positions of a group lost since its last DONE regrowth or restore, ascending. -/
def State.lostPositions (s : State) (t g : Nat) : List Nat := (s.spore.groups.get [t, g]).lost

/-- R376: they change; CKP_GROUP_STAT shows their number and the first four. -/
def State.setLost (s : State) (t g : Nat) (l : List Nat) : State :=
  let s := { s with spore := { s.spore with groups := s.spore.groups.upd [t, g] (fun r => { r with lost := l }) } }
  let s := s.wr F.CKP_GROUP_STAT_LOST (min 255 l.length) t g
  s.wr F.CKP_GROUP_STAT_LOST_POS ((l.take 4).zipIdx.foldl (fun a p => a + p.1 * 256 ^ p.2) 0) t g

/-- CKP_GROUP_STAT.STATE. -/
def grpProtected : Nat := 0
def grpWaiting : Nat := 1
def grpRegrowing : Nat := 2
def grpRestoring : Nat := 3
def grpUnrecoverable : Nat := 4
def grpLost : Nat := 5
def State.groupState (s : State) (t g : Nat) : Nat := s.rd F.CKP_GROUP_STAT_STATE t g

/-- The groups of a last. -/
def State.groups (s : State) (t : Nat) : List Nat := (List.range 32).filter (fun g => s.flag F.CKP_GROUP_VALID t g)

/-- R339: the operands of a group, by position. -/
def State.groupOperands (s : State) (t g : Nat) : List Nat :=
  (List.range (s.rd F.CKP_GROUP_SIZE t g)).map (s.rd F.CKP_GROUP_BASE t g + ·)

/-- R139: the rank of operand r of last t at this switch, and the operand of a rank. -/
def State.rankOf (s : State) (t r : Nat) : Nat :=
  if s.level t = levelSegment then s.rd F.LST_SEG_BASE t + r else r
def State.operandOf (s : State) (t rank : Nat) : Option Nat :=
  let base := if s.level t = levelSegment then s.rd F.LST_SEG_BASE t else 0
  if base ≤ rank ∧ rank - base < s.rd F.LST_CFG_OPERANDS t then some (rank - base) else none

/-- The port of operand r. -/
def State.memberPort (s : State) (t r : Nat) : Nat := s.rd F.LST_MEMBER_PORT t r

/-- R177: kinds that draw welt memory. -/
def State.draws (s : State) (x : Nat) : Bool :=
  s.kind x == kAllReduce || s.kind x == kReduceScatter || s.kind x == kParity

/-- R63, R67: the parities a context computes; 0 outside PARITY. -/
def State.passes (s : State) (x : Nat) : Nat :=
  if s.kind x != kParity then 0
  else match s.sporeGroup x with
    | none => 0
    | some (g, epoch) => if epoch then s.rd F.CKP_GROUP_M (s.lastOf x) g else (s.lostPositions (s.lastOf x) g).length

/-- R177: need(x). -/
def State.need (s : State) (x : Nat) : Nat :=
  if !s.draws x then 0
  else
    let m := match s.sporeGroup x with
      | some (g, _) => if s.kind x = kParity then s.rd F.CKP_GROUP_M (s.lastOf x) g else 0
      | none => 0
    max 1 (height (s.rd F.LST_CFG_OPERANDS (s.lastOf x))) * (slotBytes (s.inFmt x) m / 4096)

/-- R125: this switch rounds the context's output. -/
def State.roundsOutput (s : State) (x : Nat) : Bool :=
  (s.kind x == kAllReduce || s.kind x == kReduceScatter) && decide (s.operator x ≤ oMin) &&
    s.inFmt x != fINT32 && s.inFmt x != fBYTES && s.level (s.lastOf x) != levelSegment

/-- R125: a chunk of the context has a numeric state record; and the record's address and size. -/
def State.hasRecord (s : State) (x c : Nat) : Bool := s.roundsOutput x && decide (c < s.rd F.OPC_LIMIT_MAX_CHUNKS x)
def recordSize (out : Nat) : Nat := if (blockFmt out).isSome then 512 else 8
def State.recordAddr (s : State) (x c : Nat) : Nat := s.rd F.NUM_STATE_BASE_ADDR x + c * recordSize (s.outFmt x)

/-- R125: a record's bytes, and a record read from them. -/
def NumRec.bytes (r : NumRec) (size : Nat) : List Byte :=
  let head := bytesLE 2 r.zrun ++ bytesLE 1 r.warm ++ bytesLE 1 (b2n r.raised) ++
    r.hist.flatMap (fun k => bytesLE 1 ((k.map (fun k => (k + 128).toNat)).getD 0))
  (head ++ List.replicate size 0).take size
def readNumRec (l : List Byte) : NumRec :=
  { zrun := field l 0 2, warm := field l 2 1, raised := (field l 3 1).testBit 0
    hist := (l.drop 4).map (fun b => if b = 0 then none else some ((b.toNat : Int) - 128)) }

/-- CL_STATE(k).STATE (R87). -/
def clActive : Nat := 0
def clSpare : Nat := 1
def clPending : Nat := 2
def clRetired : Nat := 3
def clDisabled : Nat := 4
def clTest : Nat := 5
def State.clState (s : State) (k : Nat) : Nat := s.rd F.CL_STATE_STATE k

/-- R66: the core die of a physical cluster; clusters of a die. -/
def clDie (k : Nat) : Nat := k / 104
def dieClusters (c : Nat) : List Nat := (List.range 104).map (104 * c + ·)
def noCluster : Nat := 0x1FF

/-- R94: a chunk's bucket. -/
def bucket (x c : Nat) : Nat := (c + 2731 * x) % 16384

/-- R90, R94: the physical cluster that a chunk asks for admission: its bucket's owner's. -/
def State.ownerCluster (s : State) (x c : Nat) : Option Nat :=
  let l := s.comp.owners.getD (bucket x c) 0
  if l < 400 ∧ s.flag F.CL_LOG2PHYS_MAPPED l then some (s.rd F.CL_LOG2PHYS_PHYS l) else none

/-- R41: active clusters by the formula. -/
def State.activeByMap (s : State) : Nat :=
  (List.range 4).foldl (fun n c =>
    let f := ((dieClusters c).filter (fun k => s.clState k == clRetired || s.clState k == clDisabled)).length
    n + min 100 (104 - f)) 0

/-- R97: the block-wide counts of clusters. -/
def State.syncClusters (s : State) : State :=
  let n (st : Nat) : Nat := ((List.range 416).filter (fun k => s.clState k == st)).length
  let s := s.wr F.CL_SUMMARY_ACTIVE (n clActive)
  let s := s.wr F.CL_SUMMARY_RETIRE_PENDING (n clPending)
  let s := s.wr F.CL_SUMMARY_RETIRED (n clRetired)
  let s := s.wr F.CL_SUMMARY_UNMAPPED ((List.range 400).filter (fun l => !s.flag F.CL_LOG2PHYS_MAPPED l)).length
  let spares (c : Nat) : Nat := ((dieClusters c).filter (fun k => s.clState k == clSpare || s.clState k == clTest)).length
  let s := s.wr F.CL_SPARES_DIE0 (spares 0)
  let s := s.wr F.CL_SPARES_DIE1 (spares 1)
  let s := s.wr F.CL_SPARES_DIE2 (spares 2)
  s.wr F.CL_SPARES_DIE3 (spares 3)

/-- R39: the entries of the disabled-unit map: 0 in use, 1 disabled, 2 spare. -/
def State.mapEntries (s : State) : List Nat :=
  let units (v n : Nat) : List Nat := (List.range n).map (fun i => b2n (v.testBit i))
  (List.range 416).map (fun k =>
    let st := s.clState k
    if st = clSpare ∨ st = clTest then 2 else if st = clRetired ∨ st = clDisabled then 1 else 0) ++
  units s.pwr.units.ports 256 ++ units s.pwr.units.engines 16 ++ units s.pwr.units.groups 16 ++
  units s.pwr.units.channels 16 ++ units s.pwr.units.cxl 3

/-- R42, R44: GLB_DUM_SUMMARY and GLB_DUM_DIGEST follow the map. -/
def State.syncMap (s : State) : State :=
  let u := s.pwr.units
  let ports := ((List.range 256).filter (fun p => u.ports.testBit p || u.engines.testBit (engineOfPort p))).length
  let s := s.wr F.GLB_DUM_SUMMARY_SPARES_LEFT
    ((List.range 416).filter (fun k => s.clState k == clSpare || s.clState k == clTest)).length
  let s := s.wr F.GLB_DUM_SUMMARY_DISABLED_CXL (popCount u.cxl 3)
  let s := s.wr F.GLB_DUM_SUMMARY_DISABLED_GDDR_CH (popCount u.channels 16)
  let s := s.wr F.GLB_DUM_SUMMARY_DISABLED_BANK_GROUPS (popCount u.groups 16)
  let s := s.wr F.GLB_DUM_SUMMARY_DISABLED_OE (popCount u.engines 16)
  let s := s.wr F.GLB_DUM_SUMMARY_DISABLED_PORTS ports
  let s := s.wr F.GLB_DUM_SUMMARY_ACTIVE_CLUSTERS s.activeByMap
  let d := Config.dumDigest s.mapEntries
  s.each [0, 1, 2, 3] (fun s i => s.wr F.GLB_DUM_DIGEST_DIGEST (bits d (64 * i + 63) (64 * i)) i)

/-- R39: the disabled-unit map has changed: its digest is recomputed, and the first change of a cycle is counted and
recorded. -/
def State.mapChange (s : State) : State :=
  let s := s.syncMap
  if s.marked .map then s
  else
    let s := (s.mark .map).inc F.GLB_DUM_GEN_GEN
    s.trigger 2 0xFF 0 (s.rd F.EVR_CFG_SET_DUM) (s.rd F.GLB_DUM_GEN_GEN)

/-- R94: the mapped logical clusters. -/
def State.mapped (s : State) : List Nat := (List.range 400).filter (fun l => s.flag F.CL_LOG2PHYS_MAPPED l)

/-- R94: the bucket table takes other owners. -/
def State.setOwners (s : State) (l : List Nat) : State := { s with comp := { s.comp with owners := l } }

/-- R94: the boot table: bucket b is owned by the (b mod A)-th mapped logical cluster. -/
def State.bootOwners (s : State) : State :=
  let m := s.mapped
  s.setOwners ((List.range 16384).map (fun b => if m.isEmpty then noCluster else m.getD (b % m.length) 0))

/-- The mapped cluster that owns the fewest buckets, the lower on a tie. -/
def leastOwner (m : List Nat) (counts : List Nat) : Nat :=
  (m.foldl (fun (b : Option Nat) l => match b with
    | none => some l
    | some k => if counts.getD l 0 < counts.getD k 0 then some l else some k) none).getD noCluster

/-- R94: the buckets of one lost cluster, in ascending order, go each to the mapped cluster that owns the fewest; the
owners from bucket to bucket, with each cluster's count. -/
def repointOne (m : List Nat) (owners counts : List Nat) (lost : Nat) : List Nat × List Nat :=
  let (l, c) := owners.foldl (fun (acc : List Nat × List Nat) o =>
    if o = lost then
      let dest := leastOwner m acc.2
      (dest :: acc.1, listSet 0 acc.2 dest (acc.2.getD dest 0 + 1))
    else (o :: acc.1, acc.2)) ([], counts)
  (l.reverse, c)

/-- R94: the present cycle's re-pointing with further logical clusters unmapped. -/
def State.repointing (s : State) (lost : List Nat) : Repointing :=
  let r := match s.comp.repointed with
    | some r => if r.cycle = s.now / 4 then r else { cycle := s.now / 4, before := s.comp.owners, lost := [] }
    | none => { cycle := s.now / 4, before := s.comp.owners, lost := [] }
  { r with lost := (List.range 400).filter (fun l => r.lost.contains l || lost.contains l) }

/-- R94 to R96: logical clusters have become unmapped: the buckets of all that this cycle unmaps are re-pointed, in ascending
order of logical cluster and then of b; their waiting chunks' new owners decide them from the next cycle on. -/
def State.repoint (s : State) (new : List Nat) : State :=
  if new.isEmpty then s
  else
    let m := s.mapped
    let r := s.repointing new
    let lost := r.lost
    let gone (x c : Nat) (k : Chunk) : Bool := k.place.isNone && lost.contains (r.before.getD (bucket x c) 0)
    let s := { s with comp := { s.comp with repointed := some r } }
    let s := { s with comp := { s.comp with chunks := { entries := s.comp.chunks.entries.map (fun e => match e with
      | ([x, c], some k) => if gone x c k then ([x, c], some { k with earliest := s.now / 4 + 1 }) else e
      | _ => e) } } }
    let s :=
      if m.isEmpty then s.setOwners (List.replicate 16384 noCluster)
      else
        let counts := (List.range 400).map (fun l => r.before.count l)
        s.setOwners (lost.foldl (fun acc l => repointOne m acc.1 acc.2 l) (r.before, counts)).1
    let s := if s.marked .owners 4 then s else (s.mark .owners).incWrap F.CL_OWN_GEN_GEN
    s.exactLoss F.SCH_EXACT_LOSS_CLUSTER

/-- R92: the highest cluster of k's die above k that has taken a spare in this cycle, with the spare. -/
def State.laterTaker (s : State) (k : Nat) : Option (Nat × Nat) :=
  ((s.marks.filter (fun e => e.1 / 4 == s.now / 4)).filterMap (fun e => match e.2 with
    | .spare h c => if k < h ∧ clDie h = clDie k ∧ s.clState c = clActive then some (h, c) else none
    | _ => none)).foldl (fun b p => match b with
    | some q => if q.1 < p.1 then some p else some q
    | none => some p) none

/-- R90: a logical cluster becomes unmapped. -/
def State.unmapLogical (s : State) (l : Nat) : State :=
  (s.wr F.CL_LOG2PHYS_MAPPED 0 l).wr F.CL_LOG2PHYS_PHYS noCluster l

/-- R90 to R92: the logical cluster that k serves gets the lowest-numbered spare of the die, or the last one that a higher
cluster has taken in this cycle, or it becomes unmapped; the logical cluster that does. -/
def State.substitute (s : State) (k : Nat) : State × Option Nat :=
  let l := s.rd F.CL_STATE_LOGICAL k
  if 400 ≤ l then (s, none)
  else match (dieClusters (clDie k)).find? (fun c => s.clState c == clSpare || s.clState c == clTest) with
    | some c =>
      let s := if (s.comp.testing.map Prod.fst) = some c then { s with comp := { s.comp with testing := none } } else s
      let s := ((s.wr F.CL_STATE_STATE clActive c).wr F.CL_STATE_LOGICAL l c).wr F.CL_STATE_CAUSE 0 c
      let s := s.wr F.CL_LOG2PHYS_PHYS c l
      (((s.mark (.spare k c)).inc F.CL_SUMMARY_SUBSTITUTIONS).exactLoss F.SCH_EXACT_LOSS_CLUSTER, none)
    | none =>
      match s.laterTaker k with
      | some (h, c) =>
        let m := s.rd F.CL_STATE_LOGICAL c
        let s := { s with marks := s.marks.filter (fun e => e.2 != Mark.spare h c) }
        let s := (s.wr F.CL_STATE_LOGICAL l c).wr F.CL_LOG2PHYS_PHYS c l
        (((s.unmapLogical m).mark (.spare k c)).raise (stopCore (clDie k)) 19 h, some m)
      | none => ((s.unmapLogical l).raise (stopCore (clDie k)) 19 k, some l)

end Sys2Proof.Machine
end

