-- ==== Sys2Proof/Machine/Clusters.lean ====
section
/-!
DEFINITION. Chunks in clusters: operands, admission, holds, node issue, replay, retirement and discard
(R68 to R96, R181 to R196, R487).
-/

namespace Sys2Proof.Machine

/-- Arithmetic cycles (R56). -/
def State.arith (s : State) : Nat := s.now / 4

def State.chunk (s : State) (x c : Nat) : Option Chunk := s.comp.chunks.get [x, c]
def State.setChunk (s : State) (x c : Nat) (k : Option Chunk) : State :=
  { s with comp := { s.comp with chunks := s.comp.chunks.set [x, c] k } }

/-- Every chunk that waits or is admitted: context, chunk, entry. -/
def State.allChunks (s : State) : List (Nat × Nat × Chunk) :=
  s.comp.chunks.entries.filterMap (fun e => match e.1, e.2 with
    | [x, c], some k => some (x, c, k)
    | _, _ => none)

/-- The operands of the part of the tree that the switch evaluates for a context (R68, R351, R367). -/
def State.treeOperands (s : State) (x : Nat) : Nat :=
  if s.kind x = kParity then
    match s.sporeGroup x with
    | some (g, _) => s.rd F.CKP_GROUP_SIZE (s.lastOf x) g
    | none => 0
  else s.rd F.LST_CFG_OPERANDS (s.lastOf x)

def State.halves (s : State) (t : Nat) : Bool := s.flag F.LST_CFG_SHAPE t

/-- The nodes of a chunk of x in post-order. -/
def State.nodesOf (s : State) (x : Nat) : List (Src × Option Src) := nodeList (s.halves (s.lastOf x)) (s.treeOperands x)

/-- The format its operands are read in: bytes under OR and GF, the accumulator format at a spine. -/
def State.inputCode (s : State) (x : Nat) : Nat :=
  if s.operator x = oOr ∨ s.operator x = oGf then fBYTES
  else if s.level (s.lastOf x) = levelUpper then accCode (s.inFmt x) (s.operator x) else s.inFmt x

/-- R367: the positions whose shards a regrowth reads, ascending. -/
def State.survivors (s : State) (t g : Nat) : List Nat :=
  (List.range (s.rd F.CKP_GROUP_SIZE t g)).filter (fun i => !(s.lostPositions t g).contains i)

/-- The sender of operand r: a rank, or at a spine a segment; none: a parity chunk of a regrowth. -/
def State.operandSender (s : State) (x r : Nat) : Option Nat :=
  let t := s.lastOf x
  if s.kind x = kParity then
    match s.sporeGroup x with
    | none => none
    | some (g, epoch) =>
      let pos := if epoch then some r else (s.survivors t g)[r]?
      pos.map (fun p => s.rankOf t (s.rd F.CKP_GROUP_BASE t g + p))
  else some (s.rankOf t r)

/-- The accepted swatches that carry operand r of chunk c, in order of part. -/
def State.operandParts (s : State) (x c r : Nat) : List Arrived :=
  match s.operandSender x r with
  | none => []
  | some rank =>
    let l := ((s.op x).inputs.filter (fun i => i.live && i.item.header.chunk == c && i.item.header.rank == rank)).map (·.item)
    (List.range 16).filterMap (fun k => l.find? (fun a => a.header.part == k))

/-- The payload of a stored swatch. -/
def State.payload (s : State) (a : Arrived) : List Byte :=
  match s.object a.ptr with
  | .swatch _ data => data
  | _ => []

/-- R106: the payload of an operand's swatch: whole elements or blocks within LENGTH and the format's capacity; bytes after
them are ignored. -/
def State.body (s : State) (x : Nat) (a : Arrived) : List Byte :=
  let code := s.inputCode x
  let n := min (min a.header.length (s.payload a).length) (fmtCap code)
  (s.payload a).take (n / fmtUnit code * fmtUnit code)

/-- R69: operand r of chunk c is present in the insole: its data. -/
def State.operandData (s : State) (x c r : Nat) : Option (List Byte) :=
  match s.operandParts x c r with
  | [] => none
  | a :: rest => if (a :: rest).length = a.header.partsM1 + 1 then some ((a :: rest).flatMap (s.body x)) else none

/-- R342: bytes of one spore buffer, its base, and a parity chunk's granule within a buffer. -/
def State.sporeHalf (s : State) : Nat := s.rd F.CKP_REGION_GRANULES / 2 * 4096
def State.sporeBase (s : State) : Nat := s.rd F.CKP_REGION_BASE * 2 ^ 20
def State.parityGranule (s : State) (t g c j : Nat) : Nat :=
  s.rd F.CKP_GROUP_SHARD_PARITY_OFF t g + c * s.rd F.CKP_GROUP_M t g + j
def State.parityAddr (s : State) (t g c j buf : Nat) : Nat :=
  s.sporeBase + buf * s.sporeHalf + 4096 * s.parityGranule t g c j

/-- The operand indices of a node. -/
def srcOperands (n : Src × Option Src) : List Nat :=
  ([some n.1, n.2].filterMap id).filterMap (fun o => match o with
    | .operand r => some r
    | .partial_ _ => none)
def srcPartials (n : Src × Option Src) : List Nat :=
  ([some n.1, n.2].filterMap id).filterMap (fun o => match o with
    | .operand _ => none
    | .partial_ k => some k)

/-- Bytes of operand-buffer space that operand r takes. -/
def State.operandBytes (s : State) (x c r : Nat) : Nat :=
  match s.operandSender x r with
  | none => 4096
  | some _ => ((s.operandData x c r).map List.length).getD 0

/-- R67, R177, R188: bytes of a slot, and of a spilled result in the operand buffer. -/
def State.slotSize (s : State) (x : Nat) : Nat :=
  slotBytes (s.inFmt x) (if s.kind x = kParity then match s.sporeGroup x with
    | some (g, _) => s.rd F.CKP_GROUP_M (s.lastOf x) g
    | none => 0
  else 0)

/-- R64, R72, R188: bytes of the operand buffer that a chunk takes. -/
def State.chunkUse (s : State) (x c : Nat) (ch : Chunk) : Nat :=
  let ops := (ch.requested.map Prod.fst ++ ch.buffered).foldl (fun n r => n + s.operandBytes x c r) 0
  let spilled := if ch.place = some .spill then
      ((ch.slots.map Prod.fst).filter (fun q => !ch.away.any (fun a => a.1 == q))).length + ch.back.length + ch.fetching.length +
        ch.room.length
    else 0
  ops + spilled * s.slotSize x + (if s.arith ≤ ch.lastAt then ch.issuing else 0)

/-- R64, R72, R78: bytes in use in cluster k's operand buffer, those that this cycle frees included. -/
def State.bufferUse (s : State) (k : Nat) : Nat :=
  s.allChunks.foldl (fun n (x, c, ch) => if ch.place.isNone ∨ ch.cluster ≠ k then n else n + s.chunkUse x c ch) 0 +
  s.comp.freed.foldl (fun n f => if f.cluster = k ∧ f.cycle = s.arith then n + f.bytes else n) 0

/-- R67, R150: the most bytes that an operand of a chunk of x takes: a swatch, or at a spine a partial. -/
def State.operandMax (s : State) (x : Nat) : Nat :=
  if s.level (s.lastOf x) = levelUpper ∧ s.operator x ≠ oOr then
    elemCount (s.inFmt x) (fmtCap (s.inFmt x)) * fmtUnit (accCode (s.inFmt x) (s.operator x))
  else 4096

/-- What a node still lacks in the operand buffer: insole operands that are present in the insole, whether others are not,
spilled partials, and space for its result (R72, R188). -/
structure NodeLack where
  operands : List Nat
  absent   : Bool
  partials : List Nat
  room     : Bool
  deriving DecidableEq, Repr

/-- Nothing is lacking. -/
def NodeLack.none (l : NodeLack) : Bool := l.operands.isEmpty && !l.absent && l.partials.isEmpty && !l.room

/-- R72, R188: what node q of the chunk lacks. -/
def State.nodeLack (s : State) (x c q : Nat) (ch : Chunk) (n : Src × Option Src) : NodeLack :=
  let ops := (srcOperands n).filter (fun r => !ch.buffered.contains r && !ch.requested.any (fun p => p.1 == r))
  let spill := ch.place == some .spill
  let here (r : Nat) : Bool := (s.operandSender x r).isNone || (s.operandData x c r).isSome
  { operands := ops.filter here
    absent := !ops.all here
    partials := if spill then (srcPartials n).filter (fun p =>
      p + 1 != q && !ch.back.contains p && !ch.fetching.any (fun f => f.1 == p)) else []
    room := spill && q + 1 != (s.nodesOf x).length && (srcPartials n).isEmpty && !ch.room.contains q }

/-- The result of node q stays in the operand buffer for the next node (R188). -/
def State.resultStays (s : State) (x q : Nat) : Bool :=
  match (s.nodesOf x)[q + 1]? with
  | none => false
  | some m => (srcPartials m).contains q

/-- Bytes that a spilled chunk holds in the operand buffer until its next node takes them up; 0: none. -/
def State.keptBytes (s : State) (x : Nat) (ch : Chunk) : Nat :=
  let kept := ch.room.any (s.resultStays x) ||
    (decide (0 < ch.issued) && (ch.slots.any (fun p => p.1 + 1 == ch.issued)) && s.resultStays x (ch.issued - 1))
  if ch.place = some .spill ∧ kept = true then s.slotSize x else 0

/-- R76: a spilled chunk takes space for a result that stays only where every chunk of the cluster that keeps one can
still fetch what its next node needs. -/
def State.roomSafe (s : State) (x c q k : Nat) : Bool :=
  let others := (s.allChunks.filter (fun (y, d, ch) => ch.place.isSome && ch.cluster == k && (y, d) != (x, c))).map
    (fun (y, _, ch) => s.keptBytes y ch)
  let mine := s.slotSize x
  let next := if s.operandMax x = 4096 then 8192 else s.operandMax x
  !s.resultStays x q || decide (others.foldl (· + ·) 0 + mine + max (max mine next) (others.foldl max 0) ≤ 65536)

/-- R76: what requests of single operands leave free in cluster k's operand buffer: enough for the next node of any chunk
there, two swatches or at a spine two partials. -/
def State.reserve (s : State) (k : Nat) : Nat :=
  s.allChunks.foldl (fun n (x, _, ch) =>
    if ch.place.isNone ∨ ch.cluster ≠ k then n
    else if ch.place = some .spill then max n (s.slotSize x + max (s.slotSize x) (2 * s.operandMax x))
    else max n (2 * s.operandMax x)) 8192

/-- R188: a request joins a spill engine's queue. -/
def State.askSpill (s : State) (d : Nat) (j : SpillJob) : State :=
  { s with comp := { s.comp with spills := s.comp.spills.upd [d] (· ++ [j]) } }

/-- R72, R188: operands, partials and space of node q of a chunk are requested. -/
def State.requestAll (s : State) (x c q : Nat) (ch : Chunk) (l : NodeLack) : State :=
  let s := s.setChunk x c (some { ch with
    requested := ch.requested ++ l.operands.map (fun r => (r, s.arith))
    fetching := ch.fetching ++ l.partials.map (fun p => (p, s.arith))
    room := ch.room ++ (if l.room then [q] else []) })
  s.each l.partials (fun s p => s.askSpill (clDie ch.cluster)
    { context := x, chunk := c, attempt := ch.attempt, node := p, write := false, since := s.arith })

/-- R72: one operand is requested where the operand buffer keeps its reserve. -/
def State.requestOne (s : State) (x c r : Nat) : State :=
  match s.chunk x c with
  | none => s
  | some ch =>
    if 65536 < s.bufferUse ch.cluster + s.operandBytes x c r + s.reserve ch.cluster then s
    else s.setChunk x c (some { ch with requested := ch.requested ++ [(r, s.arith)] })

/-- R72, R83: the operands of a node, one of the chunk's next two, are requested as soon as they are present and the operand
buffer has room. Where all that the node lacks can be had, and the node before it lacks nothing, it is requested together,
with the partials of a spilled chunk and the space for its result; so no chunk holds space that another waits for (R76). -/
def State.requestNode (s : State) (x c : Nat) (second : Bool) : State :=
  match s.chunk x c with
  | none => s
  | some ch =>
    let q := ch.issued + b2n second
    match (s.nodesOf x)[q]? with
    | none => s
    | some n =>
      let before := !second || (((s.nodesOf x)[ch.issued]?).map (fun m => (s.nodeLack x c ch.issued ch m).none)).getD false
      let l := s.nodeLack x c q ch n
      let bytes := l.operands.foldl (fun b r => b + s.operandBytes x c r) 0 +
        s.slotSize x * (l.partials.length + b2n l.room)
      if before && !l.absent && decide (s.bufferUse ch.cluster + bytes ≤ 65536) && (!l.room || s.roomSafe x c q ch.cluster) then
        if l.none then s else s.requestAll x c q ch l
      else s.each l.operands (fun s r => s.requestOne x c r)

/-- R72: the operands of the chunk's next two nodes are requested. -/
def State.fetchRequest (s : State) (x c : Nat) : State :=
  match s.chunk x c with
  | none => s
  | some ch => if ch.place.isNone then s else (s.requestNode x c false).requestNode x c true

/-- CL_OCCUPANCY(k): chunks in the cluster's entries and granules of its welt memory. -/
def State.syncOccupancy (s : State) (k : Nat) : State :=
  let mine := s.allChunks.filter (fun (_, _, ch) =>
    (ch.place == some .welt || ch.place == some .borrowed) && ch.cluster == k)
  (s.wr F.CL_OCCUPANCY_CHUNKS mine.length k).wr F.CL_OCCUPANCY_GRANULES
    (mine.foldl (fun n (_, _, ch) => n + ch.granules) 0) k

/-- WLT_WELT_USED(t) and WLT_SPILL_USED(t, c). -/
def State.syncUsed (s : State) (t : Nat) : State :=
  let sum (p : Chunk → Bool) : Nat := s.allChunks.foldl (fun n (_, _, ch) => if ch.last = t ∧ p ch = true then n + ch.granules else n) 0
  let s := s.wr F.WLT_WELT_USED_BORROWED (sum (fun ch => ch.place == some .borrowed)) t
  let s := s.wr F.WLT_WELT_USED_GRANULES (sum (fun ch => ch.place == some .welt || ch.place == some .borrowed)) t
  s.each [0, 1, 2, 3] (fun s d => s.wr F.WLT_SPILL_USED_GRANULES (sum (fun ch => ch.place == some .spill && clDie ch.cluster == d)) t d)

/-- WLT_CTX(x).WAITING. -/
def State.syncWaiting (s : State) (x : Nat) : State :=
  s.wr F.WLT_CTX_WAITING (min 65535 (s.allChunks.filter (fun (y, _, ch) => y == x && ch.place.isNone)).length) x

/-- What follows when a chunk of x in last t enters or leaves cluster k. -/
def State.syncChunk (s : State) (x t k : Nat) : State := ((s.syncOccupancy k).syncUsed t).syncWaiting x

/-- R88, R93: a RETIRE_PENDING cluster without an admitted chunk becomes RETIRED, in the cycle after its last chunk has gone
or after it became RETIRE_PENDING. -/
def State.finishRetire (s : State) (k : Nat) : State :=
  if s.clState k != clPending || s.allChunks.any (fun (_, _, ch) => ch.place.isSome && ch.cluster == k) then s
  else
    let s := ((s.wr F.CL_STATE_STATE clRetired k).wr F.CL_STATE_CAUSE 1 k).wr F.CL_STATE_LOGICAL noCluster k
    ((s.syncClusters.mapChange).exactLoss F.SCH_EXACT_LOSS_CLUSTER).raise (stopCore (clDie k)) 17 k

/-- R78, R183: a chunk's granules go back to where they came from, for admissions from the next cycle on, and its
operand-buffer space is free from then on. -/
def State.releaseGranules (s : State) (x c : Nat) (ch : Chunk) : State :=
  match ch.place with
  | none => s
  | some p =>
    let f : Freed := { cluster := ch.cluster, last := ch.last, place := p, grans := ch.grans, cycle := s.arith
                       admitAt := ch.admitAt, bytes := s.chunkUse x c ch }
    { s with comp := { s.comp with freed := s.comp.freed.filter (fun g => g.cycle == s.arith) ++ [f] } }

/-- NUM_WARM no longer counts a record whose warm-up has not been written back (R128). -/
def State.dropWarm (s : State) (x : Nat) (ch : Chunk) : State :=
  if ch.rewarmed then s.wr F.NUM_WARM_CHUNKS (s.rd F.NUM_WARM_CHUNKS x - 1) x else s

/-- R78, R79: a chunk leaves: its slots, entry and operand-buffer space are freed. -/
def State.dropChunk (s : State) (x c : Nat) : State :=
  match s.chunk x c with
  | none => s
  | some ch => (((s.releaseGranules x c ch).dropWarm x ch).setChunk x c none).syncChunk x ch.last ch.cluster

/-- R181: a chunk asks for admission when its first input is accepted. -/
def State.askAdmission (s : State) (x c : Nat) : State :=
  if !s.draws x || (s.chunk x c).isSome || (s.op x).committed.contains c then s
  else (s.setChunk x c (some { last := s.lastOf x, since := s.arith })).syncWaiting x

/-! Holds (R190 to R196). -/

/-- WLT_STATE(t).STATE. -/
def wltGranted : Nat := 0
def wltFreezing : Nat := 1
def wltHeld : Nat := 2
def State.wltState (s : State) (t : Nat) : Nat := s.rd F.WLT_STATE_STATE t
def State.hold (s : State) (t : Nat) : Hold := s.comp.holds.get [t]
def State.setHold (s : State) (t : Nat) (h : Hold) : State :=
  { s with comp := { s.comp with holds := s.comp.holds.set [t] h } }

/-- LST_STATE(t).STATE. -/
def lstEmpty : Nat := 0
def lstActive : Nat := 1
def lstDegraded : Nat := 2
def lstPaused : Nat := 3
def State.lastState (s : State) (t : Nat) : Nat := s.rd F.LST_STATE_STATE t

/-- The member ports of a last that are not fenced, each once. -/
def State.openPorts (s : State) (t : Nat) : List Nat :=
  (((s.operands t).map (s.memberPort t)).eraseDups).filter (fun p => !s.fenced p)

/-- R192: the payload of a WINDOW_GRANT frame. -/
def grantPayload (mode t epoch frame frames : Nat) (entries : List (Nat × Nat)) : List Byte :=
  bytesLE 1 mode ++ bytesLE 1 t ++ bytesLE 2 entries.length ++ bytesLE 4 epoch ++ bytesLE 2 frame ++ bytesLE 2 frames ++
  bytesLE 4 0 ++ entries.flatMap (fun e => bytesLE 2 e.1 ++ bytesLE 2 0 ++ bytesLE 4 e.2)

/-- R192: WINDOW_GRANT frames to every member port of t that is not fenced, at most 126 entries in each. -/
def State.sendGrants (s : State) (t mode : Nat) (entries : List (Nat × Nat)) : State :=
  let frames := max 1 (ceilDiv entries.length 126)
  s.each (s.openPorts t) (fun s p => s.each (List.range frames) (fun s i =>
    let data := grantPayload mode t (s.rd F.WLT_HOLDS_COUNT t) i frames ((entries.drop (126 * i)).take 126)
    (s.sendControl reqMgt p 2 data).inc (if mode = 1 then F.WLT_GRANT_FRAMES_HOLD else F.WLT_GRANT_FRAMES_OPEN)))

/-- R191 step 2: what core die d reports for last t: for every OPEN context that draws welt memory and has an admitted
chunk, one more than the highest index it has admitted. -/
def State.dieReport (s : State) (t d : Nat) : List (Nat × Nat) :=
  (s.ctx.entries.filterMap (fun e => match e.1 with
    | [x] =>
      if s.lastOf x = t ∧ s.ctxState x = ctxOpen ∧ s.draws x = true ∧ e.2.admitHigh.get [d] ≠ 0 ∧ (s.hold t).late.contains x = false then
        some (x, e.2.admitHigh.get [d]) else none
    | _ => none))

/-- The larger of two reports for each context. -/
def mergeHighs (a b : List (Nat × Nat)) : List (Nat × Nat) :=
  b.foldl (fun l e => match l.find? (fun f => f.1 == e.1) with
    | none => l ++ [e]
    | some f => l.map (fun g => if g.1 = e.1 then (g.1, max f.2 e.2) else g)) a

/-- R191 step 1 and 2: core die d stops admitting chunks of t and reports. Not for a PAUSED last (R363). -/
def State.stopDie (s : State) (t d : Nat) : State :=
  let h := s.hold t
  if s.wltState t != wltFreezing || s.lastState t == lstPaused || h.stopped.contains d then s
  else s.setHold t { h with stopped := h.stopped ++ [d], highs := mergeHighs h.highs (s.dieReport t d) }

/-- R190: the triggers that a last has met in this cycle: cause, core die (4: none) and logical cluster. -/
def State.triggers (s : State) (t : Nat) : List (Nat × Nat × Nat) :=
  (s.marks.filter (fun e => e.1 / 4 == s.arith)).filterMap (fun e => match e.2 with
    | .trigger u c d l => if u = t then some (c, d, l) else none
    | _ => none)

/-- R190, R196: a last that left GRANTED in this cycle shows the cycle's triggers: a spine's cause before SPILL before WAIT,
and the lowest core die; the dies that met one have stopped. -/
def State.syncTrigger (s : State) (t : Nat) : State :=
  let l := s.triggers t
  let causes := l.map Prod.fst
  let dies := [0, 1, 2, 3].filter (fun d => l.any (fun e => e.2.1 == d))
  let s := s.wr F.WLT_STATE_CAUSE (if causes.contains 3 then 3 else if causes.contains 1 then 1 else 2) t
  let s := match dies.head? with
    | none => s
    | some d => s.wr F.WLT_STATE_TRIGGER_DIE d t
  s.each dies (fun s d => s.stopDie t d)

/-- R190, R196: a trigger takes a GRANTED last to FREEZING. `die`: the triggering core die, none for a spine's hold; `logical`:
the logical cluster that owned the chunk. Further triggers of that cycle count with it; a trigger in another state changes
nothing. It does not act for a PAUSED last (R363). -/
def State.freeze (s : State) (t cause : Nat) (die : Option Nat) (logical : Nat) : State :=
  if s.lastState t == lstPaused then s
  else
    let s := s.mark (.trigger t cause (die.getD 4) logical)
    if s.wltState t == wltGranted then
      let s := (((s.noteWas F.WLT_STATE_CAUSE t).noteWas F.WLT_STATE_TRIGGER_DIE t).noteWas F.WLT_HOLDS_COUNT t).mark (.froze t)
      let s := s.wr F.WLT_STATE_STATE wltFreezing t
      let s := (s.incWrap F.WLT_HOLDS_COUNT 1 t).exactLoss F.SCH_EXACT_LOSS_SPILL
      (s.setHold t { s.hold t with stopped := [], highs := [], late := [] }).syncTrigger t
    else if s.wltState t == wltFreezing && s.marked (.froze t) 4 then s.syncTrigger t
    else s

/-- R95: triggers of a last that an unmapped cluster has raised in this cycle are taken back. -/
def State.unfreeze (s : State) (t : Nat) (lost : List Nat) : State :=
  let mine (e : Nat × Mark) : Bool := e.1 / 4 == s.arith && (match e.2 with
    | .trigger u _ _ l => u == t && lost.contains l
    | _ => false)
  if !s.marks.any mine then s
  else
    let s := { s with marks := s.marks.filter (fun e => !mine e) }
    if s.wltState t != wltFreezing || !s.marked (.froze t) 4 then s
    else if (s.triggers t).isEmpty then
      let s := { s with marks := s.marks.filter (fun e => e.2 != Mark.froze t) }
      let s := (s.wr F.WLT_STATE_STATE wltGranted t).restoreWas F.WLT_HOLDS_COUNT t
      ((s.restoreWas F.WLT_STATE_CAUSE t).restoreWas F.WLT_STATE_TRIGGER_DIE t).setHold t {}
    else ((s.restoreWas F.WLT_STATE_TRIGGER_DIE t).setHold t { s.hold t with stopped := [], highs := [] }).syncTrigger t

/-- R191 steps 3 and 4: with every core die stopped, the hub sets the limits and the last enters HELD; HOLD frames go
out (R192). Not for a PAUSED last (R363). -/
def State.enterHold (s : State) (t : Nat) : State :=
  let h := s.hold t
  if s.wltState t != wltFreezing || s.lastState t == lstPaused || !([0, 1, 2, 3].all h.stopped.contains) then s
  else
    let s := s.each h.highs (fun s e => (s.wr F.WLT_CTX_LIMIT e.2 e.1).wr F.WLT_CTX_LISTED 1 e.1)
    (s.wr F.WLT_STATE_STATE wltHeld t).sendGrants t 1 h.highs

/-- R191: a chunk is granted: its context is listed and its index lies below the limit. -/
def State.granted (s : State) (x c : Nat) : Bool := s.flag F.WLT_CTX_LISTED x && decide (c < s.rd F.WLT_CTX_LIMIT x)

/-- The contexts whose source last is t, among those with state. -/
def State.contextsOf (s : State) (t : Nat) : List Nat :=
  s.ctx.entries.filterMap (fun e => match e.1 with
    | [x] => if s.lastOf x = t then some x else none
    | _ => none)

/-- R194 to R196: at the end of arithmetic cycle a, a HELD last with no admitted chunk and no granted chunk waiting, which
no spine holds and which has met no trigger in that cycle, returns to GRANTED. Not for a PAUSED last (R363). -/
def State.releaseHold (s : State) (a t : Nat) : State :=
  let busy := s.allChunks.any (fun (x, c, ch) => ch.last == t && (ch.place.isSome || s.granted x c))
  let met := s.marks.any (fun e => e.1 / 4 == a && (match e.2 with
    | .trigger u _ _ _ => u == t
    | _ => false))
  if s.wltState t != wltHeld || s.lastState t == lstPaused || busy || met || !(s.hold t).spines.isEmpty then s
  else
    let s := s.each (s.contextsOf t) (fun s x => (s.wr F.WLT_CTX_LISTED 0 x).wr F.WLT_CTX_LIMIT (2 ^ 32 - 1) x)
    ((s.wr F.WLT_STATE_STATE wltGranted t).setHold t {}).sendGrants t 2 []

/-- R195: a context opens while its last is FREEZING or HELD: its chunks are held back until the last returns. -/
def State.openLate (s : State) (x : Nat) : State :=
  let t := s.lastOf x
  let h := s.hold t
  if s.wltState t == wltGranted || h.late.contains x then s else s.setHold t { h with late := h.late ++ [x] }

/-- R195: the operation of a context closes: it is not listed. -/
def State.unlist (s : State) (x : Nat) : State :=
  let t := s.lastOf x
  let h := s.hold t
  let s := if h.highs.isEmpty then s else s.setHold t { h with highs := h.highs.filter (fun e => e.1 != x) }
  if s.flag F.WLT_CTX_LISTED x then (s.wr F.WLT_CTX_LISTED 0 x).wr F.WLT_CTX_LIMIT (2 ^ 32 - 1) x else s

/-! Admission (R181 to R187). -/

/-- R179, R183: granules of last t in a place of cluster k that an admission of this cycle cannot use. -/
def State.heldIn (s : State) (k : Nat) (t : Option Nat) (p : Place) : Nat :=
  let mine (u : Nat) : Bool := match t with
    | none => true
    | some t => u == t
  s.allChunks.foldl (fun n (_, _, ch) => if ch.place = some p ∧ ch.cluster = k ∧ mine ch.last = true then n + ch.granules else n) 0 +
  s.comp.freed.foldl (fun n f => if f.place = p ∧ f.cluster = k ∧ f.cycle = s.arith ∧ mine f.last = true then n + f.grans.length else n) 0

/-- WLT_SPILL_USED(t, d) as an admission sees it. -/
def State.spillHeld (s : State) (t d : Nat) : Nat :=
  s.rd F.WLT_SPILL_USED_GRANULES t d +
  s.comp.freed.foldl (fun n f => if f.place = .spill ∧ clDie f.cluster = d ∧ f.last = t ∧ f.cycle = s.arith then n + f.grans.length else n) 0

/-- R187: free tracker entries of a spill engine. -/
def State.trackerFree (s : State) (d : Nat) : Nat :=
  4096 - (s.allChunks.filter (fun (_, _, ch) => ch.place == some .spill && clDie ch.cluster == d)).length

/-- R409: some channel of memory die d is FAILED. -/
def State.dieChannelFailed (s : State) (d : Nat) : Bool :=
  (List.range 4).any (fun i => s.rd F.MEM_CH_STAT_STATE (4 * d + i) == 3)

/-- The outcome of R182. -/
inductive Admit where
  | enter (p : Place)
  | heldBack
  | noSpace
  deriving DecidableEq, Repr

/-- R182, R184: the decision for chunk c of context x at cluster k. -/
def State.admitDecision (s : State) (x c k : Nat) (ch : Chunk) : Admit :=
  let t := ch.last
  let d := clDie k
  let g := s.rd F.WLT_CTX_NEED x
  let quota := s.rd F.WLT_QUOTA_GRANULES t
  let acts := !ch.ahead && s.lastState t != lstPaused
  if acts && s.wltState t == wltFreezing && ((s.hold t).stopped.contains d || (s.hold t).late.contains x) then .heldBack
  else if acts && s.wltState t == wltHeld && !s.granted x c then .heldBack
  else if s.heldIn k (some t) .welt + g ≤ quota then .enter .welt
  else if s.heldIn k (some t) .borrowed + g ≤ s.rd F.WLT_QUOTA_BORROW t ∧
      s.heldIn k none .borrowed + g ≤ s.rd F.WLT_SHARED_GRANULES then .enter .borrowed
  else if s.spillHeld t d + g ≤ s.rd F.WLT_SPILL_LIMIT_GRANULES t ∧ 0 < s.trackerFree d ∧
      s.dieChannelFailed d = false then .enter .spill
  else .noSpace

/-- R181: an order of chunks: readmitted ones in their admission order, then by the first input's cycle, context and
chunk. -/
def chunkBefore (a b : Nat × Nat × Chunk) : Bool :=
  let key (e : Nat × Nat × Chunk) : Key :=
    if e.2.2.ahead then [0, e.2.2.admitSeq, 0, 0] else [1, e.2.2.since, e.1, e.2.1]
  keyLt (key a) (key b)

/-- The first of a list under an order. -/
def firstBy {α : Type} (before : α → α → Bool) : List α → Option α
  | [] => none
  | a :: t => match firstBy before t with
    | none => some a
    | some b => if before b a then some b else some a

/-- The lowest `g` granules that are not in use. -/
def lowestFree (used : List Nat) (g : Nat) : List Nat :=
  ((List.range (used.length + g)).filter (fun n => !used.contains n)).take g

/-- R176, R183, R186: granules in use in cluster k's welt memory, or in its die's spill region. -/
def State.gransUsed (s : State) (k : Nat) (p : Place) : List Nat :=
  let same (k' : Nat) (q : Option Place) : Bool :=
    if p = .spill then q == some .spill && clDie k' == clDie k
    else k' == k && (q == some .welt || q == some .borrowed)
  (s.allChunks.filter (fun (_, _, ch) => same ch.cluster ch.place)).flatMap (fun (_, _, ch) => ch.grans) ++
  (s.comp.freed.filter (fun f => f.cycle == s.arith && same f.cluster (some f.place))).flatMap Freed.grans

/-- R182, R186: chunk c of context x is admitted to cluster k, in this place. -/
def State.enterChunk (s : State) (x c k : Nat) (ch : Chunk) (p : Place) : State :=
  let n := s.comp.admitSeq
  let grans := lowestFree (s.gransUsed k p) (s.rd F.WLT_CTX_NEED x)
  let s := { s with comp := { s.comp with admitSeq := n + 1 } }
  let s := s.setChunk x c (some { ch with
    place := some p, cluster := k, grans, admitAt := s.arith, admitSeq := n, attempt := ch.attempt + 1, ahead := false })
  let s := s.setOp x (fun o => { o with admitHigh := o.admitHigh.set [clDie k] (max (c + 1) (o.admitHigh.get [clDie k])) })
  (s.inc (if p = .spill then F.WLT_ADMITS_SPILL else F.WLT_ADMITS_WELT) 1 ch.last).syncChunk x ch.last k

/-- R181, R182, R190: once in an arithmetic cycle, cluster k decides the oldest chunk of last t in its queue that is not
held back. -/
def State.admissionDecide (s : State) (k t : Nat) : State :=
  let queue := s.allChunks.filter (fun (x, c, ch) =>
    ch.last == t && ch.place.isNone && s.ownerCluster x c == some k && decide (ch.earliest ≤ s.arith))
  let open_ := queue.filter (fun (x, c, ch) => s.admitDecision x c k ch != .heldBack)
  match firstBy chunkBefore open_ with
  | none => s
  | some (x, c, ch) =>
    if s.marked (.request k t) 4 then s else
    let decision := s.admitDecision x c k ch
    let l := s.comp.owners.getD (bucket x c) 0
    let s := s.mark (.request k t)
    match decision with
    | .heldBack => s
    | .noSpace =>
      let s := (s.mark (.refused x c l (!ch.waited))).noteWas F.SCH_EXACT_LOSS_SPILL
      let s := if ch.waited then s else (s.setChunk x c (some { ch with waited := true })).inc F.WLT_WAITS_COUNT 1 t
      (s.exactLoss F.SCH_EXACT_LOSS_SPILL).freeze t 2 (some (clDie k)) l
    | .enter p =>
      let d := clDie k
      let s := (s.mark (.admitted x c l (p == .spill) ch.ahead ((s.op x).admitHigh.get [d]))).enterChunk x c k ch p
      if p = .spill then
        let s := (s.noteWas F.SCH_EXACT_LOSS_SPILL).exactLoss F.SCH_EXACT_LOSS_SPILL
        if s.rd F.WLT_GRANT_CFG_HOLD_AT t * s.rd F.WLT_SPILL_LIMIT_GRANULES t ≤ 16 * s.rd F.WLT_SPILL_USED_GRANULES t d then
          s.freeze t 1 (some d) l
        else s
      else s

/-! Node issue (R71 to R76). -/

/-- R73, R126, R188: the chunk's next node is ready. -/
def State.nodeReady (s : State) (x c : Nat) (ch : Chunk) : Bool :=
  match (s.nodesOf x)[ch.issued]? with
  | none => false
  | some n =>
    let root := ch.issued + 1 == (s.nodesOf x).length
    let parts := srcPartials n
    let spill := ch.place == some .spill
    (srcOperands n).all ch.buffered.contains &&
      parts.all (fun q =>
        if q + 1 = ch.issued then decide (ch.firstAt + 6 ≤ s.arith)
        else !spill || ch.back.contains q) &&
      (!root || !s.hasRecord x c || ch.record.isSome) &&
      (!spill || root || !parts.isEmpty || ch.room.contains ch.issued)

/-- R63, R340, R367: the coefficients of operand r, one for each pass. -/
def State.coefficients (s : State) (x r : Nat) : List Nat :=
  let t := s.lastOf x
  match s.sporeGroup x with
  | none => []
  | some (_, true) => (List.range (s.passes x)).map (fun j => cauchy r j)
  | some (g, false) => ((s.spore.groups.get [t, g]).rows).map (fun row => row.getD r 0)

/-- What an operand brings to its node: its elements and what they count. -/
def State.operandElems (s : State) (x c r : Nat) (ch : Chunk) : List Elem × ChunkEv :=
  let data := match ch.parity.find? (fun p => p.1 == r) with
    | some p => p.2
    | none => (s.operandData x c r).getD []
  if s.operator x = oGf then (gfOperand (s.coefficients x r) data, {})
  else
    let l := readElems (s.inputCode x) data
    (l.map Prod.fst, l.foldl (fun t e => t.add e.2) {})

/-- R65, R67: the arithmetic cycles of a node of the chunk. -/
def State.cyclesOf (s : State) (x n : Nat) : Nat :=
  let m := s.passes x
  nodeCycles (s.inFmt x) (s.operator x) m (if s.operator x = oGf then n / max 1 m else n)

/-- The result of a chunk's next node: its elements, and what it counts. -/
def State.nodeResult (s : State) (x c : Nat) (ch : Chunk) (n : Src × Option Src) : List Elem × ChunkEv :=
  let get (o : Src) : List Elem × ChunkEv := match o with
    | .operand r => s.operandElems x c r ch
    | .partial_ q => (((ch.slots.find? (fun p => p.1 == q)).map Prod.snd).getD [], {})
  match n.2 with
  | none => get n.1
  | some o =>
    let a := get n.1
    let b := get o
    let r := combineAll (s.inFmt x) (s.operator x) a.1 b.1
    (r.1, (a.2.add b.2).add r.2)

/-- R74: issue order: the chunk admitted earliest, then the lower last. -/
def issueBefore (a b : Nat × Nat × Chunk) : Bool :=
  let key (e : Nat × Nat × Chunk) : Key := [e.2.2.admitAt, e.2.2.last, e.2.2.admitSeq]
  keyLt (key a) (key b)

/-- R71, R74, R188: cluster k issues the ready node of its earliest-admitted chunk. -/
def State.nodeIssue (s : State) (k : Nat) : State :=
  let ready := s.allChunks.filter (fun (x, c, ch) => ch.place.isSome && ch.cluster == k && s.nodeReady x c ch)
  match firstBy issueBefore ready with
  | none => s
  | some (x, c, ch) =>
    if s.arith < s.comp.freeAt.get [k] then s
    else match (s.nodesOf x)[ch.issued]? with
    | none => s
    | some n =>
      let (res, ev) := s.nodeResult x c ch n
      let cyc := s.cyclesOf x res.length
      let root := ch.issued + 1 == (s.nodesOf x).length
      let spill := ch.place == some .spill
      let leaves := spill && !root && !s.resultStays x ch.issued
      let ops := srcOperands n
      let parts := srcPartials n
      let given := (if spill then parts.length - b2n (!root) else 0) * s.slotSize x
      let ch' : Chunk := { ch with
        issued := ch.issued + 1, firstAt := s.arith, lastAt := s.arith + cyc - 1
        issuing := ops.foldl (fun b r => b + s.operandBytes x c r) given
        buffered := ch.buffered.filter (fun r => !ops.contains r)
        slots := (if root then [] else [(ch.issued, res)]) ++ ch.slots.filter (fun p => !parts.contains p.1)
        root := if root then some res else none
        ev := ch.ev.add ev
        leaving := if leaves then ch.leaving ++ [ch.issued] else ch.leaving
        away := ch.away.filter (fun a => !parts.contains a.1)
        back := ch.back.filter (fun q => !parts.contains q)
        room := ch.room.filter (· != ch.issued) }
      let s := { s with comp := { s.comp with freeAt := s.comp.freeAt.set [k] (s.arith + cyc) } }
      let s := s.setChunk x c (some ch')
      -- a write-back can begin when the last result word is in the operand buffer (R60)
      if leaves then s.askSpill (clDie k)
        { context := x, chunk := c, attempt := ch.attempt, node := ch.issued, write := true, since := s.arith + cyc + 5 }
      else s

/-! Check failures, replay and retirement (R81 to R96). -/

def CheckPath.code : CheckPath → Nat
  | .significand => 0 | .exponent => 1 | .parity => 2 | .selection => 3 | .welt => 4
def CheckPath.counter : CheckPath → Fld
  | .significand => F.CL_RESIDUE_ERR_SIG | .exponent => F.CL_RESIDUE_ERR_EXP
  | .parity => F.CL_PARITY_ERR_PARITY | .selection => F.CL_PARITY_ERR_SELECT
  | .welt => F.CL_WELT_ECC_UNCORR

/-- R83: a chunk starts again at node 0 from its retained inputs. -/
def Chunk.restart (ch : Chunk) : Chunk :=
  { ch with
    attempt := ch.attempt + 1, issued := 0, requested := [], buffered := [], slots := [], root := none, ev := {}
    leaving := [], away := [], fetching := [], back := [], room := [], parity := [] }

/-- R83: a replay. -/
def State.replay (s : State) (x c : Nat) (ch : Chunk) : State :=
  let s := s.setChunk x c (some { ch.restart with replays := ch.replays + 1 })
  ((s.inc F.CL_REPLAYS_COUNT 1 ch.cluster).exactLoss F.SCH_EXACT_LOSS_REPLAY).fetchRequest x c

/-- R84, R93: a chunk loses its cluster and waits to be admitted again, ahead of the others (R184). -/
def State.readmit (s : State) (x c : Nat) (ch : Chunk) : State :=
  let s := ((s.releaseGranules x c ch).dropWarm x ch).setChunk x c (some { ch.restart with
    place := none, grans := [], issuing := 0, ahead := true, replays := 0, record := none, rewarmed := false })
  s.syncChunk x ch.last ch.cluster

/-- Every chunk of cluster k is to be admitted again; no further word of it issues. -/
def State.readmitAll (s : State) (k : Nat) : State :=
  let s := { s with comp := { s.comp with freeAt := s.comp.freeAt.set [k] (min s.arith (s.comp.freeAt.get [k])) } }
  s.each (s.allChunks.filter (fun (_, _, ch) => ch.place.isSome && ch.cluster == k)) (fun s (x, c, ch) => s.readmit x c ch)

/-- R95: an admission of this cycle by a cluster that the cycle unmaps is taken back: the chunk waits for its new owner. -/
def State.unadmit (s : State) (x c : Nat) (spill ahead : Bool) (high : Nat) : State :=
  match s.chunk x c with
  | none => s
  | some ch =>
    let s := s.setChunk x c (some { ch.restart with
      place := none, grans := [], issuing := 0, ahead, earliest := s.arith + 1, record := none, rewarmed := false })
    let s := s.setOp x (fun o => { o with admitHigh := o.admitHigh.set [clDie ch.cluster] high })
    (s.uncount (if spill then F.WLT_ADMITS_SPILL else F.WLT_ADMITS_WELT) 1 ch.last).syncChunk x ch.last ch.cluster

/-- R95: a WAIT that an unmapped cluster has returned in this cycle is taken back. -/
def State.unrefuse (s : State) (x c : Nat) (first : Bool) : State :=
  match s.chunk x c with
  | none => s
  | some ch => if first then (s.setChunk x c (some { ch with waited := false })).uncount F.WLT_WAITS_COUNT 1 ch.last else s

/-- R95: what the clusters that a cycle unmaps have decided in that cycle is taken back. -/
def State.undecide (s : State) (lost : List Nat) : State :=
  let mine (e : Nat × Mark) : Bool := e.1 / 4 == s.arith && (match e.2 with
    | .admitted _ _ l _ _ _ => lost.contains l
    | .refused _ _ l _ => lost.contains l
    | _ => false)
  let spilled (e : Nat × Mark) : Bool := e.1 / 4 == s.arith && (match e.2 with
    | .refused .. => true
    | .admitted _ _ _ spill _ _ => spill
    | _ => false)
  let done := s.marks.filter mine
  if done.isEmpty then s
  else
    let s := { s with marks := s.marks.filter (fun e => !mine e) }
    let left := s.marks.any spilled
    let s := s.each done (fun s e => match e.2 with
      | .admitted x c _ spill ahead high => s.unadmit x c spill ahead high
      | .refused x c _ first => s.unrefuse x c first
      | _ => s)
    let s := s.each (List.range 16) (fun s t => s.unfreeze t lost)
    if left then s else s.restoreWas F.SCH_EXACT_LOSS_SPILL

/-- R94, R95: buckets of unmapped clusters are re-pointed, and what those clusters have decided in this cycle is taken
back. -/
def State.takeBackAll (s : State) (lost : List Nat) : State :=
  if lost.isEmpty then s else (s.undecide lost).repoint lost

/-- R84: immediate retirement of cluster k, with substitution when it serves a logical cluster. -/
def State.retireNow (s : State) (k cause : Nat) : State :=
  let s := s.readmitAll k
  let (s, lost) := if s.clState k = clActive then s.substitute k else (s, none)
  let s := ((s.wr F.CL_STATE_STATE clRetired k).wr F.CL_STATE_CAUSE cause k).wr F.CL_STATE_LOGICAL noCluster k
  let s := s.takeBackAll lost.toList
  let s := (s.exactLoss F.SCH_EXACT_LOSS_REPLAY).exactLoss F.SCH_EXACT_LOSS_CLUSTER
  s.syncClusters.mapChange.raise (stopCore (clDie k)) 17 k

/-- R85, R90: cluster k becomes RETIRE_PENDING and a spare takes its logical cluster, or none is left. -/
def State.retirePending (s : State) (k : Nat) : State :=
  if s.clState k != clActive then s
  else
    let s := s.wr F.CL_STATE_STATE clPending k
    let (s, lost) := s.substitute k
    let s := s.takeBackAll lost.toList
    if lost.isNone then s.syncClusters.mapChange else s.syncClusters

/-- R83 to R86, R487: a check failure in cluster k becomes known: of chunk c of context x in operation n, at this node,
on this path, in this attempt. -/
def State.checkFailure (s : State) (k x n c node : Nat) (path : CheckPath) (attempt : Nat) : State :=
  let s := s.inc path.counter 1 k
  let s := ((s.wr F.CL_LAST_ERR_CONTEXT x k).wr F.CL_LAST_ERR_CHUNK c k).wr F.CL_LAST_ERR_NODE node k
  let s := (s.wr F.CL_LAST_ERR_PATH path.code k).wr F.CL_LAST_ERR_VALID 1 k
  let s := s.raise (stopCore (clDie k)) 16 k
  let s := if path = .welt then s.exactLoss F.SCH_EXACT_LOSS_ECC else s
  let soon := match s.comp.lastFail.get [k] with
    | none => false
    | some t => decide (s.mgmtCycle ≤ t / 16 + 175000000)
  let s := { s with comp := { s.comp with
    lastFail := s.comp.lastFail.set [k] (some s.now)
    failures := s.comp.failures.filter (fun t => decide (s.now < t + secs 3600)) ++ [s.now] } }
  let cause (s : State) : State := if soon then s.retirePending k else s
  match s.chunk x c with
  | some ch =>
    if ch.place.isSome && ch.cluster == k && ch.attempt == attempt && s.opnum x == n then
      if 2 ≤ ch.replays then s.retireNow k 2 else cause (s.replay x c ch)
    else cause s
  | none => cause s

/-- R82 to R86: the verdict on a word of chunk c: corrected welt words are counted and cause nothing further. -/
def State.checkVerdict (s : State) (k x n c node : Nat) (fail : Option CheckPath) (attempt corrected : Nat) : State :=
  let s := s.incCorr F.CL_WELT_ECC_CORR corrected k
  match fail with
  | none => s
  | some path => s.checkFailure k x n c node path attempt

/-- R90, R96: a core die is lost. -/
def State.coreDieLoss (s : State) (d : Nat) : State :=
  let mine := (dieClusters d).filter (fun k =>
    s.clState k == clActive || s.clState k == clPending || s.clState k == clSpare || s.clState k == clTest)
  let lost := ((List.range 100).map (100 * d + ·)).filter (fun l => s.flag F.CL_LOG2PHYS_MAPPED l)
  let served := lost.map (s.rd F.CL_LOG2PHYS_PHYS)
  let off (s : State) : State := s.each ((List.range 26).map (26 * d + ·)) (fun s q =>
    let dom := 256 + q
    let s := s.wr F.PWR_DOM_STAT_ON (setBit (s.rd F.PWR_DOM_STAT_ON (dom / 64)) (dom % 64) false) (dom / 64)
    { s with pwr := { s.pwr with quadsOff := setBit s.pwr.quadsOff q true } })
  if mine.isEmpty && lost.isEmpty then off s
  else
    let s := s.each mine State.readmitAll
    let s := s.each mine (fun s k =>
      ((s.wr F.CL_STATE_STATE clRetired k).wr F.CL_STATE_CAUSE 6 k).wr F.CL_STATE_LOGICAL noCluster k)
    let s := { s with comp := { s.comp with
      testing := if (s.comp.testing.map (fun (p : Nat × Nat) => clDie p.1)) = some d then none else s.comp.testing } }
    let s := s.each lost State.unmapLogical
    let s := off ((s.takeBackAll lost).exactLoss F.SCH_EXACT_LOSS_CLUSTER)
    let s := s.syncClusters.mapChange
    let s := s.each mine (fun s k => s.raise (stopCore d) 17 k)
    s.each served (fun s k => s.raise (stopCore d) 19 k)

/-- R89: the next spare, in ascending physical index after the one tested last. -/
def State.nextSpare (s : State) : Option Nat :=
  let l := (List.range 416).filter (fun k => s.clState k == clSpare)
  match s.comp.tested with
  | none => l.head?
  | some t => (l.find? (fun k => decide (t < k))).or l.head?

/-- R89: a spare enters SPARE_TEST. -/
def State.spareTestStart (s : State) : State :=
  if s.comp.testing.isSome then s
  else match s.nextSpare with
    | none => s
    | some k =>
      ({ s with comp := { s.comp with testing := some (k, s.now), tested := some k } }).wr F.CL_STATE_STATE clTest k

/-- R89: the 40 µs self-test ends. -/
def State.spareTestEnd (s : State) (pass : Bool) : State :=
  match s.comp.testing with
  | none => s
  | some (k, t) =>
    if s.now < t + us 40 then s
    else
      let s := { s with comp := { s.comp with testing := none } }
      let s := (s.wr F.CL_TEST_DONE 1 k).wr F.CL_TEST_FAIL (b2n (!pass)) k
      if pass then s.wr F.CL_STATE_STATE clSpare k
      else
        let s := (s.wr F.CL_STATE_STATE clRetired k).wr F.CL_STATE_CAUSE 3 k
        (s.syncClusters.mapChange.exactLoss F.SCH_EXACT_LOSS_CLUSTER).raise (stopCore (clDie k)) 18 k

/-- R74: cluster k held an admitted chunk at the start of arithmetic cycle a. -/
def State.admittedAtStart (s : State) (k a : Nat) : Bool :=
  s.allChunks.any (fun (_, _, ch) => ch.place.isSome && ch.cluster == k && decide (ch.admitAt < a)) ||
  s.comp.freed.any (fun f => f.cluster == k && f.cycle == a && decide (f.admitAt < a))

/-- R74: arithmetic cycle a ends for cluster k: a node word issued in it, the last one of its node perhaps, or the cluster
waited with a chunk admitted. -/
def State.clusterCycle (s : State) (a k : Nat) : State :=
  let free := s.comp.freeAt.get [k]
  if a < free then
    let s := s.inc F.CL_BUSY_CYCLES_COUNT 1 k
    if a + 1 = free then s.inc F.CL_NODES_COUNT 1 k else s
  else if s.admittedAtStart k a then s.inc F.CL_WAIT_CYCLES_COUNT 1 k
  else s

/-- R74, R93, R194: the arithmetic cycle before the present one ends in every cluster and for every last. -/
def State.arithCycle (s : State) : State :=
  let a := s.arith - 1
  let ks := s.allChunks.map (fun (_, _, ch) => ch.cluster) ++ s.comp.freed.map Freed.cluster ++
    s.comp.freeAt.entries.map (fun e => e.1.headD 0)
  let s := s.each ks.eraseDups (fun s k => s.clusterCycle a k)
  let s := s.each ((List.range 416).filter (fun k => s.clState k == clPending)) State.finishRetire
  s.each (List.range 16) (fun s t => s.releaseHold a t)

end Sys2Proof.Machine
end

