-- ==== Sys2Proof/Machine/Collective.lean ====
section
/-!
DEFINITION. Collective operations as counts, checks and targets: who sends what in a context, what a switch expects,
which swatches and descriptors it takes, and where an output goes (R141 to R150, R159 to R174, R200 to R204, R216,
R339, R351, R366, R486).
-/

namespace Sys2Proof.Machine

/-- R169: the spine of chunk c of context x, and whether this switch handles it. -/
def State.spineCount (s : State) : Nat := s.rd F.LST_PLAN_CFG_SPINES
def State.spineOf (s : State) (x c : Nat) : Nat := (c + x) % s.spineCount
def State.handled (s : State) (x c : Nat) : Bool :=
  s.level (s.lastOf x) != levelUpper || s.spineOf x c == s.rd F.LST_PLAN_CFG_SPINE_INDEX

/-- R35, R36, R243: at a leaf, port p joins spine j; the group of ports that join spine j, and the port that control
frames to it take (R245). -/
def State.joinsSpine (s : State) (p j : Nat) : Bool := p % 4 == 3 && p / 4 % s.spineCount == j
def State.spineGroup (s : State) (j : Nat) : Nat := s.groupOf (4 * j + 3)
def State.groupPort (s : State) (b : Nat) : Nat := ((s.groupPorts b).find? s.portUp).getD b

/-- Two ports that count as one receiver or sender (R243). -/
def State.samePort (s : State) (p q : Nat) : Bool := s.groupOf p == s.groupOf q

/-- The operand whose member an arrival on p comes from: at a spine, the segment of the leaf. -/
def State.operandAt (s : State) (t p : Nat) : Option Nat :=
  (s.operands t).find? (fun r => s.samePort p (s.memberPort t r))

/-- R162: the runs of a context. -/
def State.runs (s : State) (x : Nat) : List Nat :=
  (List.range (s.rd F.OPC_RUNS_COUNT x)).map (s.rd F.OPC_RUNS_BASE x + ·)
/-- R162: a rank's runs as chunk ranges: first chunk and count, with the run's entry. -/
def State.runsOf (s : State) (x rank : Nat) : List (Nat × Nat × Nat) :=
  ((s.runs x).filter (fun j => s.rd F.LST_RUN_SRC_SRC_RANK j == rank)).map (fun j =>
    (s.rd F.LST_RUN_SRC_SRC_CHUNK j, s.rd F.LST_RUN_SRC_COUNT j, j))
def State.runChunks (s : State) (x rank : Nat) : Nat := (s.runsOf x rank).foldl (fun n r => n + r.2.1) 0

/-- R159, R351, R366: the ranks whose descriptors an operation of x needs. -/
def State.descSenders (s : State) (x : Nat) : List Nat :=
  let t := s.lastOf x
  if s.kind x = kParity then
    match s.sporeGroup x with
    | none => []
    | some (g, epoch) =>
      let ps := if epoch then List.range (s.rd F.CKP_GROUP_SIZE t g) else s.survivors t g
      ps.map (fun p => s.rankOf t (s.rd F.CKP_GROUP_BASE t g + p))
  else (s.operands t).map (s.rankOf t)

/-- The descriptor accepted first (R146). -/
def OpCtx.first (o : OpCtx) : Option Descriptor := o.descs.head?.map Prod.snd
def OpCtx.descOf (o : OpCtx) (rank : Nat) : Option Descriptor := (o.descs.find? (fun d => d.2.rank == rank)).map Prod.snd

/-- R142, R203: the swatch capacity of a context's input. -/
def State.inCap (s : State) (x : Nat) : Nat := fmtCap (s.inFmt x)

/-- R144: payload bytes of the i-th of a sender's chunks. -/
def chunkBytes (total chunks cap i : Nat) : Nat := if i + 1 = chunks then total - (chunks - 1) * cap else cap

/-- Elements of the i-th chunk of a reduction. -/
def State.chunkElems (s : State) (x : Nat) (d : Descriptor) (i : Nat) : Nat :=
  elemCount (s.inFmt x) (chunkBytes d.totalBytes d.chunks (s.inCap x) i)

/-- Numbers c from lo to lo + n - 1 with (c + x) mod S = i. -/
def countResidue (lo n x m i : Nat) : Nat :=
  let upTo (k : Nat) : Nat := (k + m - 1 - i) / m
  if m = 0 then n else upTo (lo + n + x) - upTo (lo + x)

/-- R172: how many of the n chunks from lo this switch handles. -/
def State.handledCount (s : State) (x lo n : Nat) : Nat :=
  if s.level (s.lastOf x) = levelUpper then countResidue lo n x s.spineCount (s.rd F.LST_PLAN_CFG_SPINE_INDEX) else n

/-- R162, R164: the input swatches that a context's runs give, of the chunks that this switch handles. -/
def State.runSwatches (s : State) (x : Nat) : Nat :=
  (s.runs x).foldl (fun n j => n + s.handledCount x (s.rd F.LST_RUN_SRC_SRC_CHUNK j) (s.rd F.LST_RUN_SRC_COUNT j)) 0

/-- The sum over a reduction's chunks, from index lo to hi - 1, that this switch handles of f(elements): every chunk but
the operation's last is full. -/
def State.sumChunks (s : State) (x : Nat) (d : Descriptor) (lo hi : Nat) (f : Nat → Nat) : Nat :=
  let full := s.handledCount x (d.chunkBase + lo) (min hi (d.chunks - 1) - lo)
  let tail := if lo < d.chunks ∧ d.chunks ≤ hi ∧ s.handled x (d.chunkBase + d.chunks - 1) = true then
      f (s.chunkElems x d (d.chunks - 1))
    else 0
  full * f (s.chunkElems x { d with chunks := d.chunks + 1 } 0) + tail

/-- R160: the owner of the i-th chunk; the first index whose owner is at least `rank`. -/
def ownerRank (n chunks i : Nat) : Nat := i * n / chunks
def firstOwned (n chunks rank : Nat) : Nat := min chunks (ceilDiv (rank * chunks) n)

/-- R150: bytes of a partial of n elements: its accumulators, or under OR the elements' bytes. -/
def State.partialSize (s : State) (x n : Nat) : Nat :=
  n * fmtUnit (if s.operator x = oOr then s.inFmt x else accCode (s.inFmt x) (s.operator x))

/-- R164, R172, R203, R351, R366: the input swatches that an operation needs, from its first descriptor. -/
def State.expectCount (s : State) (x : Nat) (d : Descriptor) : Nat :=
  let t := s.lastOf x
  let ops := s.rd F.LST_CFG_OPERANDS t
  let n := s.rd F.LST_CFG_RANKS t
  let lvl := s.level t
  let k := s.kind x
  if k = kParity then (s.descSenders x).length * (match s.sporeGroup x with
    | some (g, _) => s.rd F.CKP_GROUP_SHARD_CHUNKS t g
    | none => 0)
  else if k = kExchange then ops * d.chunks
  else if k = kBarrier then (if lvl = levelWhole then 0 else if lvl = levelSegment then s.spineCount else ops)
  else if k = kAllGather then
    (if lvl = levelUpper then s.handledCount x d.chunkBase (n * d.chunks) else n * d.chunks)
  else if k = kBroadcast then s.handledCount x d.chunkBase d.chunks
  else if k = kRedistribute then s.runSwatches x
  else if lvl = levelUpper then ops * s.sumChunks x d 0 d.chunks (fun n => ceilDiv (s.partialSize x n) 4096)
  else if lvl = levelWhole then ops * d.chunks
  else
    let lo := if k = kAllReduce then 0 else firstOwned n d.chunks (s.rd F.LST_SEG_BASE t)
    let hi := if k = kAllReduce then d.chunks else firstOwned n d.chunks (s.rd F.LST_SEG_BASE t + s.rd F.LST_SEG_SIZE t)
    ops * d.chunks + s.sumChunks x d lo hi (pOut (s.outFmt x))

/-! Checks of arrivals (R145, R166). -/

def skContrib : Nat := 0
def skPartial : Nat := 1
def skResult : Nat := 2
def skData : Nat := 3
def skToken : Nat := 4
def skAbort : Nat := 5
def skExchange : Nat := 6
def skParity : Nat := 7

def State.reducing (s : State) (x : Nat) : Bool := s.kind x == kAllReduce || s.kind x == kReduceScatter
def State.dataKind (s : State) (x : Nat) : Bool :=
  s.kind x == kAllGather || s.kind x == kBroadcast || s.kind x == kRedistribute

/-- A swatch of a leaf's own member, or of a leaf at a spine: its sender is operand `rank` and it came on that port. -/
def State.fromMember (s : State) (x rank port : Nat) : Bool :=
  let t := s.lastOf x
  match s.operandOf t rank with
  | none => false
  | some r => s.flag F.LST_CFG_PORT_AGNOSTIC t || s.samePort port (s.memberPort t r)

/-- At a leaf: a swatch that spine j sent, which came on a port that joins it. -/
def State.fromSpine (s : State) (x j port : Nat) : Bool :=
  s.flag F.LST_CFG_PORT_AGNOSTIC (s.lastOf x) || s.joinsSpine port j

/-- R166: the sender of a DATA swatch is a sender of the kind (R159, R162). A BROADCAST root is not known before a
descriptor; such a swatch is taken and judged when the descriptor comes (R488). -/
def State.dataSender (s : State) (x rank : Nat) (seg : Option Nat) : Bool :=
  if s.kind x = kBroadcast then
    match (s.op x).first with
    | some d => rank == d.root
    | none => true
  else if s.kind x = kRedistribute then
    !(s.runsOf x (seg.getD rank)).isEmpty
  else true

/-- R166: RANK is a sender of this SKIND in the context, and the swatch came on its port. -/
def State.senderOk (s : State) (a : Arrived) : Bool :=
  let h := a.header
  let x := h.context
  let t := s.lastOf x
  let lvl := s.level t
  if h.skind = skContrib then s.reducing x && lvl != levelUpper && s.fromMember x h.rank a.port
  else if h.skind = skPartial then s.reducing x && lvl == levelUpper && s.fromMember x h.rank a.port
  else if h.skind = skResult then
    s.reducing x && lvl == levelSegment && h.rank == s.rd F.LST_SEG_INDEX t && s.fromSpine x (s.spineOf x h.chunk) a.port
  else if h.skind = skData then
    s.dataKind x &&
      (if lvl = levelUpper then
        match s.operandAt t a.port with
        | none => false
        | some g => decide (h.rank < s.rd F.LST_CFG_RANKS t) && s.dataSender x h.rank (some g)
      else if (s.operandOf t h.rank).isSome then s.fromMember x h.rank a.port && s.dataSender x h.rank none
      else lvl == levelSegment && decide (h.rank < s.rd F.LST_CFG_RANKS t) &&
        s.fromSpine x (s.spineOf x h.chunk) a.port && s.dataSender x h.rank none)
  else if h.skind = skToken then
    s.kind x == kBarrier &&
      (if lvl = levelUpper then s.fromMember x h.rank a.port
      else lvl == levelSegment && h.rank == s.rd F.LST_SEG_INDEX t && a.port % 4 == 3)
  else if h.skind = skAbort then
    (lvl == levelSegment && a.port % 4 == 3) || (lvl == levelUpper && s.fromMember x h.rank a.port)
  else if h.skind = skExchange then s.kind x == kExchange && s.fromMember x h.rank a.port
  else if h.skind = skParity then
    s.kind x == kParity && (s.descSenders x).contains h.rank && s.fromMember x h.rank a.port
  else false

/-- The spine that sent a swatch to this leaf, none for a swatch of the leaf's own member: RANK does not tell spines apart
(R171, R173), and each numbers its own output (R149). -/
def State.senderSpine (s : State) (a : Arrived) : Option Nat :=
  let h := a.header
  let t := s.lastOf h.context
  if s.level t != levelSegment then none
  else if h.skind = skResult ∨ (h.skind = skData ∧ (s.operandOf t h.rank).isNone = true) then some (s.spineOf h.context h.chunk)
  else if h.skind = skToken ∨ h.skind = skAbort then some (a.port / 4 % s.spineCount)
  else none

/-- R166: two swatches are one: of one sender, with one RANK, SEQ and part. -/
def State.sameSwatch (s : State) (a b : Arrived) : Bool :=
  a.header.rank == b.header.rank && a.header.seq == b.header.seq && a.header.part == b.header.part &&
    s.senderSpine a == s.senderSpine b

/-- The index among a sender's chunks of chunk c, when it is one of them: of rank `rank`, with the sender's descriptor
d. -/
def State.chunkIndex (s : State) (x rank c : Nat) (d : Descriptor) : Option Nat :=
  let k := s.kind x
  let from_ (base n : Nat) : Option Nat := if base ≤ c ∧ c < base + n then some (c - base) else none
  if k = kAllGather then from_ (d.chunkBase + rank * d.chunks) d.chunks
  else if k = kBroadcast then (if rank = d.root then from_ d.chunkBase d.chunks else none)
  else if k = kBarrier then none
  else if k = kRedistribute then
    let rs := s.runsOf x rank
    if rs.any (fun r => decide (r.1 ≤ c ∧ c < r.1 + r.2.1)) then
      some (rs.foldl (fun n r => n + min r.2.1 (c - r.1)) 0)
    else none
  else from_ d.chunkBase d.chunks

/-- The descriptor against which a swatch is checked, when it is among these: its sender's, or the first one for what comes
from another level. -/
def State.checkDesc (s : State) (descs : List Descriptor) (a : Arrived) : Option Descriptor :=
  let x := a.header.context
  let t := s.lastOf x
  if a.header.skind = skResult then descs.head?
  else if a.header.skind = skData ∧ (s.level t = levelUpper ∨ s.operandOf t a.header.rank = none) then
    if s.kind x = kRedistribute then none else descs.head?
  else descs.find? (fun d => d.rank == a.header.rank)

/-- Bytes of part k of an output of n bytes cut at `cap`. -/
def partLength (n cap k : Nat) : Option Nat := if cap * k < n ∨ (n = 0 ∧ k = 0) then some (min cap (n - cap * k)) else none

/-- R144, R150: the LENGTH of a swatch, none where its chunk or part is not one of its sender's. -/
def State.lengthOf (s : State) (a : Arrived) (d : Descriptor) : Option Nat :=
  let h := a.header
  let x := h.context
  if h.skind = skToken then (if h.chunk = 0 then some 0 else none)
  else if !s.handled x h.chunk then none
  else match s.chunkIndex x h.rank h.chunk d with
    | none => none
    | some i =>
      let n := s.chunkElems x d i
      if h.skind = skPartial then partLength (s.partialSize x n) 4096 h.part
      else if h.skind = skResult then
        (let t := s.lastOf x
        let owner := ownerRank (s.rd F.LST_CFG_RANKS t) d.chunks i
        if s.kind x = kReduceScatter ∧ s.operandOf t owner = none then none
        else partLength (outBytes (s.outFmt x) n) (fmtCap (s.outFmt x)) h.part)
      else if h.part = 0 then some (chunkBytes d.totalBytes d.chunks (s.inCap x) i) else none

/-- R166, R488: a swatch's chunk and LENGTH fit its sender's descriptor. -/
def State.rangeOk (s : State) (a : Arrived) (d : Descriptor) : Bool := s.lengthOf a d == some a.header.length

/-- R145: the first code that applies to a descriptor, 0 for none. An ABORT descriptor is checked for codes 3 and 5. -/
def State.refusal (s : State) (port : Nat) (d : Descriptor) : Nat :=
  let x := d.context
  let t := s.lastOf x
  let k := s.kind x
  let cap := s.inCap x
  let mismatch := d.kind != k || d.operator != s.operator x || d.inFmt != s.inFmt x || d.outFmt != s.outFmt x ||
    d.source != t || d.target != s.rd F.OPC_DECL_TARGET x
  let shape := if k = kBarrier then d.totalBytes == 0 && d.chunks == 0 && d.chunkBase == 0
    else d.totalBytes % fmtUnit (s.inFmt x) == 0 && d.chunks == ceilDiv d.totalBytes cap
  let runs := k != kRedistribute || s.level t == levelUpper ||
    (d.chunks == s.runChunks x d.rank &&
      d.chunkBase == (((s.runsOf x d.rank).map (fun r => r.1)).min?).getD 0)
  let size := !shape || decide (s.rd F.OPC_LIMIT_MAX_CHUNKS x < d.chunks) || !runs
  if !d.abort && mismatch then 1
  else if !d.abort && size then 2
  else if !(s.descSenders x).contains d.rank then 3
  else if !d.abort && k == kBroadcast && decide (s.rd F.LST_CFG_RANKS t ≤ d.root) then 4
  else if !s.fromMember x d.rank port then 5
  else 0

/-- R146: a descriptor agrees with the first of its operation. -/
def State.agrees (s : State) (x : Nat) (f d : Descriptor) : Bool :=
  f.root == d.root && (s.kind x == kRedistribute ||
    (f.totalBytes == d.totalBytes && f.chunks == d.chunks && f.chunkBase == d.chunkBase))

/-! Targets (R149, R161, R173, R216, R486). -/

/-- A target that is the member of operand r of last t. -/
def State.memberTarget (s : State) (t r : Nat) (h : SwHeader) : Target :=
  { group := s.groupOf (s.memberPort t r), last := t, header := h }
def State.spineTarget (s : State) (t j : Nat) (h : SwHeader) : Target := { group := s.spineGroup j, last := t, header := h }

/-- The spines of the plane, for a leaf. -/
def State.allSpines (s : State) : List Nat := List.range s.spineCount

/-- R161: the copies of source chunk c of rank `src` that this switch makes for its own members: target rank and
chunk. -/
def State.copies (s : State) (x src c : Nat) : List (Nat × Nat × Bool) :=
  (s.runsOf x src).flatMap (fun r =>
    if r.1 ≤ c ∧ c < r.1 + r.2.1 then
      (List.range (s.rd F.LST_RUN_DST_COPIES_M1 r.2.2 + 1)).map (fun k =>
        (s.rd F.LST_RUN_DST_DST_RANK r.2.2 + k, s.rd F.LST_RUN_DST_DST_CHUNK r.2.2 + (c - r.1), s.flag F.LST_RUN_DST_NOSELF r.2.2))
    else [])

/-- R159, R161, R173, R216: the targets of an accepted DATA swatch. -/
def State.dataTargets (s : State) (a : Arrived) : List Target :=
  let h := { a.header with weight := 0, lastHint := false }
  let x := h.context
  let t := s.lastOf x
  let k := s.kind x
  let lvl := s.level t
  let up (elsewhere : Bool) : List Target :=
    if lvl = levelSegment ∧ (s.operandOf t h.rank).isSome = true ∧ elsewhere = true then
      [s.spineTarget t (s.spineOf x h.chunk) h]
    else []
  let more := decide (s.rd F.LST_CFG_OPERANDS t < s.rd F.LST_CFG_RANKS t)
  if lvl = levelUpper then
    let seg := s.operandAt t a.port
    if k = kRedistribute then
      let u := s.rd F.OPC_DECL_TARGET x
      ((s.copies x (seg.getD 0) h.chunk).filter (fun c => decide (c.1 < s.rd F.LST_CFG_OPERANDS u) &&
        !s.samePort a.port (s.memberPort u c.1))).map (fun c => s.memberTarget u c.1 h)
    else ((s.operands t).filter (fun r => some r != seg)).map (fun r => s.memberTarget t r h)
  else if k = kAllGather then
    ((s.operands t).filter (fun r => s.rankOf t r != h.rank || s.flag F.OPC_DECL_SELF x)).map
      (fun r => s.memberTarget t r h) ++ up more
  else if k = kBroadcast then
    ((s.operands t).filter (fun r => s.rankOf t r != h.rank)).map (fun r => s.memberTarget t r h) ++ up more
  else
    let u := s.rd F.OPC_DECL_TARGET x
    let cs := s.copies x h.rank h.chunk
    let far := cs.any (fun c => (s.operandOf u c.1).isNone)
    let here := cs.filterMap (fun c => match s.operandOf u c.1 with
      | none => none
      | some r => if c.2.2 = true ∧ s.samePort a.port (s.memberPort u r) = true then none
        else some (s.memberTarget u r { h with chunk := c.2.1 }))
    here ++ up far

/-- R171, R216: the targets of a RESULT that a spine has sent to this leaf. -/
def State.resultTargets (s : State) (x i : Nat) (chunks : Nat) (h : SwHeader) : List Target :=
  let t := s.lastOf x
  let own := ownerRank (s.rd F.LST_CFG_RANKS t) chunks i
  ((s.operands t).filter (fun r => s.kind x != kReduceScatter || s.rankOf t r == own)).map
    (fun r => s.memberTarget t r { h with rank := s.rankOf t r, weight := 0, lastHint := false })

/-- R171: at a spine, the leaf that holds a rank: the segments' sizes are the WEIGHTs of their partials of chunk c. -/
def State.leafOfRank (s : State) (x c rank : Nat) : Nat :=
  let w (r : Nat) : Nat := ((s.operandParts x c r).head?.map (fun a => a.header.weight)).getD 0
  let n := s.rd F.LST_CFG_OPERANDS (s.lastOf x)
  ((List.range n).find? (fun r => decide (rank < (List.range (r + 1)).foldl (fun a k => a + w k) 0))).getD 0

/-- R156, R216: the ports that belong to the operation: of the source last, and of the target last for REDISTRIBUTE, one
for each receiver. -/
def State.recipients (s : State) (x : Nat) : List Nat :=
  let of (t : Nat) : List Nat := (s.operands t).map (s.memberPort t)
  (of (s.lastOf x) ++ (if s.kind x = kRedistribute then of (s.rd F.OPC_DECL_TARGET x) else [])).eraseDups

end Sys2Proof.Machine
end

