-- ==== Sys2Proof/Machine/Exchange.lean ====
section
/-!
DEFINITION. The capacity-bounded exchange: manifests, placement, and the destinations' streams (R200 to R213).
-/

namespace Sys2Proof.Machine

def State.rowBytes (s : State) (x : Nat) : Nat := s.rd F.OPC_XCH_CFG_ROW_BYTES x
def State.capRows (s : State) (x : Nat) : Nat := s.rd F.OPC_XCH_CFG_CAP x

/-- R202: R_tot of a stream, and the counts of a manifest. -/
def State.totalRows (s : State) (x total : Nat) : Nat := (total - 512) / s.rowBytes x
def manifestOf (data : List Byte) : List Nat := (List.range 256).map (fun d => field data (2 * d) 2)

/-- R204: the first check that a manifest fails, 0 for none. -/
def State.manifestCode (s : State) (x total : Nat) (m : List Nat) : Nat :=
  let ops := s.rd F.LST_CFG_OPERANDS (s.lastOf x)
  if total < 512 ∨ (total - 512) % s.rowBytes x ≠ 0 then 1
  else if (m.drop ops).any (· != 0) ∨ m.contains 0xFFFF = true then 2
  else if s.totalRows x total < m.foldl (· + ·) 0 then 3
  else 0

/-- R206: the accepted counts under RANK. -/
def placeRank : Nat → List Nat → List Nat
  | _, [] => []
  | room, c :: cs => min c room :: placeRank (room - min c room) cs

/-- R206: the level under SHARE: the largest L not above max c(s) with the sum of min(c(s), L) at most CAP. -/
def shareLevel (cap : Nat) (c : List Nat) : Nat → Nat
  | 0 => 0
  | n + 1 => if (c.map (min · (n + 1))).foldl (· + ·) 0 ≤ cap then n + 1 else shareLevel cap c n

/-- R206: the slots left over go one each to senders above the level. -/
def shareExtra (l : Nat) : Nat → List Nat → List Nat
  | _, [] => []
  | extra, c :: cs => if l < c ∧ 0 < extra then (l + 1) :: shareExtra l (extra - 1) cs else min c l :: shareExtra l extra cs

/-- R206: place(d). -/
def placeRows (share : Bool) (cap : Nat) (c : List Nat) : List Nat :=
  if share then
    let l := shareLevel cap c (c.foldl max 0)
    shareExtra l (cap - (c.map (min · l)).foldl (· + ·) 0) c
  else placeRank cap c

/-- R206: off(s). -/
def rowOffset (a : List Nat) (k : Nat) : Nat := (a.take k).foldl (· + ·) 0

/-- The manifest of operand r's sender. -/
def State.manifest (s : State) (x r : Nat) : List Nat :=
  (((s.op x).manifests.find? (fun m => m.1 == s.rankOf (s.lastOf x) r)).map Prod.snd).getD []

/-- R202: the first row of sender r's block for destination d. -/
def State.blockStart (s : State) (x r d : Nat) : Nat := rowOffset (s.manifest x r) d

/-- R208: bytes of destination d's stream, and R209: its swatches. -/
def State.outStream (s : State) (x : Nat) (p : Placement) : Nat :=
  512 + (if s.flag F.OPC_XCH_CFG_PAD_SKIP x then p.counts.foldl (· + ·) 0 else s.capRows x) * s.rowBytes x
def State.outSwatches (s : State) (x : Nat) (p : Placement) : Nat := ceilDiv (s.outStream x p) 4096

/-- R212: every output swatch of the exchange has been assembled. -/
def State.exchangeDone (s : State) (x : Nat) : Bool :=
  !(s.op x).placed.isEmpty && (s.op x).placed.all (fun p => p.fenced || p.done.length == s.outSwatches x p)

/-- The accepted input swatch that carries chunk c of sender r, while its buffer is held. -/
def State.streamInput (s : State) (x r c : Nat) : Option Arrived :=
  ((s.op x).inputs.find? (fun i => i.live && i.item.header.rank == s.rankOf (s.lastOf x) r && i.item.header.chunk == c)).map (·.item)

/-- Bytes lo to lo + n - 1 of sender r's stream, when every chunk they lie in is held. -/
def State.streamBytes (s : State) (x r lo n : Nat) : Option (List Byte) :=
  let first := lo / 4096
  let chunks := (List.range ((lo + n + 4095) / 4096 - first)).map (first + ·)
  if chunks.all (fun c => (s.streamInput x r c).isSome) then
    let data := chunks.flatMap (fun c => ((s.streamInput x r c).map s.payload).getD [])
    some ((data.drop (lo - 4096 * first)).take n)
  else none

/-- R207: the sender and the row of its block that stand in slot k of a destination. -/
def slotRow (a : List Nat) (k : Nat) : Option (Nat × Nat) :=
  ((List.range a.length).find? (fun r => decide (rowOffset a r ≤ k ∧ k < rowOffset a (r + 1)))).map
    (fun r => (r, k - rowOffset a r))

/-- R208: bytes lo to hi - 1 of destination d's stream, none while one of them is not present. -/
def State.destBytes (s : State) (x d : Nat) (p : Placement) (lo hi : Nat) : Option (List Byte) :=
  let rb := s.rowBytes x
  let man := (List.range 256).flatMap (fun r => bytesLE 2 (p.counts.getD r 0))
  let head := (man.take (min hi 512)).drop lo
  let from_ := max lo 512 - 512
  let end_ := hi - 512
  let slots := (List.range (if end_ ≤ from_ then 0 else (end_ - 1) / rb + 1 - from_ / rb)).map (from_ / rb + ·)
  let parts := slots.map (fun k =>
    let b := max from_ (k * rb) - k * rb
    let e := min end_ ((k + 1) * rb) - k * rb
    match slotRow p.counts k with
    | none => some (List.replicate (e - b) (0 : Byte))
    | some (r, j) => s.streamBytes x r (512 + (s.blockStart x r d + j) * rb + b) (e - b))
  if parts.all Option.isSome then some (head ++ (parts.filterMap id).flatten) else none

/-- R210: the output swatches (destination and index) that take bytes of chunk c of sender r. -/
def State.chunkUses (s : State) (x r c : Nat) : List (Nat × Nat) :=
  let rb := s.rowBytes x
  (s.op x).placed.zipIdx.flatMap (fun (pd : Placement × Nat) =>
    let a := pd.1.counts
    if pd.1.fenced then []
    else
      (List.range (a.getD r 0)).flatMap (fun j =>
        let lo := max (4096 * c) (512 + (s.blockStart x r pd.2 + j) * rb)
        let hi := min (4096 * c + 4096) (512 + (s.blockStart x r pd.2 + j + 1) * rb)
        if hi ≤ lo then []
        else
          let slot := rowOffset a r + j
          let off := lo - (512 + (s.blockStart x r pd.2 + j) * rb)
          let first := (512 + slot * rb + off) / 4096
          let last := (512 + slot * rb + off + (hi - lo) - 1) / 4096
          (List.range (last + 1 - first)).map (fun k => (pd.2, first + k))))

/-- R210: an input swatch is freed when every byte it carries has been copied, dropped or discarded. -/
def State.freeSettled (s : State) (x : Nat) : State :=
  let o := s.op x
  if o.placed.isEmpty then s
  else
    let settled (i : Accepted) : Bool :=
      match s.operandOf (s.lastOf x) i.item.header.rank with
      | none => false
      | some r => (s.chunkUses x r i.item.header.chunk).all (fun u =>
          ((o.placed[u.1]?).map (fun p => p.done.contains u.2)).getD true)
    let gone := o.inputs.filter (fun i => i.live && settled i)
    let s := s.each gone (fun s i => s.dropArrived i.item)
    s.setOp x (fun o => { o with inputs := o.inputs.map (fun i => if gone.contains i then { i with live := false } else i) })

end Sys2Proof.Machine
end

