-- ==== Sys2Proof/Machine/Accept.lean ====
section
/-!
DEFINITION. Operations from the first item to the completion record: acceptance, early and held items, outputs,
counting to FLUSH, and closing with what follows from it (R144 to R146, R153 to R158, R164 to R174, R254, R348, R351,
R357, R366, R488).
-/

namespace Sys2Proof.Machine

/-- Statuses of a closed operation (R156). -/
def stDone : Nat := 1
def stIncomplete : Nat := 2
def stAborted : Nat := 3
def stDisagree : Nat := 4

/-- What is still to be done for operations, in order. -/
inductive Work where
  | item (x : Nat) (it : HeldItem)
  /-- An item that was held before any cut that holds items of its sender now began (R348). -/
  | early (x : Nat) (it : HeldItem)
  | settle (x : Nat)
  /-- An ending that the rest of the cycle may still change (R158). -/
  | ask (x status : Nat)
  | close (x status : Nat)
  deriving DecidableEq, Repr, Inhabited

/-! Epochs, as acceptance sees them (R347 to R357). -/

def State.sporeLast (s : State) (t : Nat) : SporeLast := s.spore.lasts.get [t]
def State.setSpore (s : State) (t : Nat) (f : SporeLast → SporeLast) : State :=
  { s with spore := { s.spore with lasts := s.spore.lasts.upd [t] f } }

/-- CKP_LAST_STAT(t).STATE values. -/
def ckpIdle : Nat := 0
def ckpCut : Nat := 1
def ckpStream : Nat := 2
def ckpLinger : Nat := 3
def ckpPaused : Nat := 4
def ckpRegrowing : Nat := 5
def ckpRestoring : Nat := 6
def ckpLost : Nat := 7

/-- R348: the ports of the members of t's groups, and the lasts that a cut of t covers. -/
def State.groupPorts' (s : State) (t : Nat) : List Nat :=
  (s.groups t).flatMap (fun g => (s.groupOperands t g).map (s.memberPort t))
def State.coveredBy (s : State) (t : Nat) : List Nat :=
  s.lasts.filter (fun u => u == t || ((s.operands u).map (s.memberPort u)).all (s.groupPorts' t).contains)

/-- R348, R353: the cut of epoch e of t begins, with the first descriptor on this port. -/
def State.beginCut (s : State) (t e port : Nat) : State :=
  let l := s.sporeLast t
  let every := s.rd F.CKP_CAD_FULL_EVERY
  let full := s.flag F.CKP_LAST_CFG_FULL_NEXT t || (every != 0 && e % every == 0)
  let other (b : Option Nat) : Nat := match b with
    | some 0 => 1
    | _ => 0
  let s := s.setSpore t (fun l => { l with epoch := some {
    number := e, since := s.now, cut := true, covered := s.coveredBy t, ports := [port], buffer := other l.doneBuf
    full := if full then some (other l.fullSlot) else none } })
  let s := if s.marked (.bit (F.CKP_LAST_CFG_FULL_NEXT.key t 0)) then s else s.wr F.CKP_LAST_CFG_FULL_NEXT 0 t
  if l.recovery.isSome then s else s.wr F.CKP_LAST_STAT_STATE ckpCut t

/-- The last whose cut holds an item of context x that arrived on this port, if one does (R348). -/
def State.cutHolds (s : State) (x port : Nat) : Option Nat :=
  s.lasts.find? (fun t => match (s.sporeLast t).epoch with
    | none => false
    | some e => e.cut && e.ports.contains port && e.covered.contains (s.lastOf x) &&
        !(s.kind x == kParity && s.lastOf x == t))

/-- CKP_LAST_STAT(t).HELD. -/
def State.syncHeld (s : State) (t : Nat) : State :=
  s.wr F.CKP_LAST_STAT_HELD (min 65535 (s.sporeLast t).held.length) t

/-- R250: a scheduled item is held as an early arrival of context x, or (none) by a cut or a drain. -/
def State.earlyLoss (s : State) (x : Option Nat) : State :=
  (s.mark (.early x)).exactLossNoted F.SCH_EXACT_LOSS_EARLY

/-- R158, R250: items of context x held in the store cycle in which its operation closes were never early. -/
def State.notEarly (s : State) (x : Nat) : State :=
  let now (e : Nat × Mark) : Bool := e.1 / 2 == s.now / 2
  if !s.marked (.early (some x)) 2 then s
  else
    let s := { s with marks := s.marks.filter (fun e => !(now e && e.2 == Mark.early (some x))) }
    let other := s.marks.any (fun e => now e && (match e.2 with
      | .early _ => true
      | _ => false))
    if other then s else s.exactUndo F.SCH_EXACT_LOSS_EARLY

/-- R348: an item is held by the cut of t. -/
def State.holdInCut (s : State) (t x : Nat) (it : HeldItem) : State :=
  ((s.setSpore t (fun l => { l with held := l.held ++ [(x, it)] })).syncHeld t).earlyLoss none

/-- The items that the cut of t held, which it holds no more. -/
def State.takeHeld (s : State) (t : Nat) : List (Nat × HeldItem) × State :=
  ((s.sporeLast t).held, (s.setSpore t (fun l => { l with held := [] })).syncHeld t)

/-- CKP_DRAIN.BYTES_LEFT. -/
def State.syncDrain (s : State) : State :=
  s.wr F.CKP_DRAIN_BYTES_LEFT (s.spore.lasts.entries.foldl (fun n e =>
    e.2.drains.foldl (fun n d => n + (d.total - d.acked) * 4096) n) 0)

/-- R350, R357: the epoch of t ends without being DONE; a drain of it that has begun is abandoned. -/
def State.dropEpoch (s : State) (t : Nat) : State :=
  let st := s.rd F.CKP_LAST_STAT_STATE t
  let s := s.setSpore t (fun l =>
    { l with epoch := none, drains := l.drains.filter (fun d => l.epoch.all (fun e => e.number != d.epoch)) })
  let s := s.syncDrain.inc F.CKP_EVENTS_ABORTED
  if st = ckpCut ∨ st = ckpStream ∨ st = ckpLinger then s.wr F.CKP_LAST_STAT_STATE ckpIdle t else s

/-- The EPOCH_CTX contexts of t's groups whose operation is open. -/
def State.epochContexts (s : State) (t : Nat) : List Nat :=
  ((s.groups t).map (fun g => s.rd F.CKP_GROUP_EPOCH_CTX t g)).filter (fun x => s.ctxState x != ctxIdle && s.ctxState x != ctxUndeclared)

/-! Outputs. -/

/-- R215: an object of the Herith's own is stored and made visible to its targets; without a buffer it waits (R267). -/
def State.publish (s : State) (account requester : Nat) (item : Item) (targets : List Target) : State :=
  match s.allocNow item account requester with
  | (some p, s) => (s.countWrite p account).multicast p account requester targets
  | (none, s) => s.request requester account item (.output targets)

/-- R155: an output of the current operation of x. -/
def State.output (s : State) (x account requester : Nat) (item : Item) (targets : List Target) : State :=
  if targets.isEmpty then s
  else (s.setOp x (fun o => { o with made := o.made + targets.length })).publish account requester item targets

/-- R486: the header of a TOKEN or ABORT of operation n of x. -/
def signalHeader (skind x n rank weight : Nat) : SwHeader := { skind, context := x, opnum := n, rank, weight }

/-- R172, R174: where this switch sends a TOKEN or an ABORT: a leaf to every spine, a spine to every leaf. -/
def State.levelTargets (s : State) (x n skind : Nat) : List Target :=
  let t := s.lastOf x
  if s.level t = levelSegment then
    s.allSpines.map (fun j => s.spineTarget t j
      (signalHeader skind x n (s.rd F.LST_SEG_INDEX t) (if skind = skToken then s.rd F.LST_SEG_SIZE t else 0)))
  else if s.level t = levelUpper then
    (s.operands t).map (fun r => s.memberTarget t r (signalHeader skind x n r 0))
  else []

/-- R170, R264: a leaf sends its segment's descriptor to every spine. -/
def State.sendSegment (s : State) (x : Nat) : State :=
  let o := s.op x
  match o.first with
  | none => s
  | some d =>
    let d := { d with segment := true, rank := s.rd F.LST_SEG_INDEX (s.lastOf x) }
    let s := s.setOp x (fun o => { o with segSent := true })
    let s := s.each s.allSpines (fun s j => s.sendItem reqMgt (s.groupPort (s.spineGroup j)) (.descriptor d) (s.lastOf x))
    if s.kind x = kBarrier then
      s.output x (s.lastOf x) reqMgt (.swatch (signalHeader skToken x (s.opnum x) d.rank (s.rd F.LST_SEG_SIZE (s.lastOf x))) [])
        (s.levelTargets x (s.opnum x) skToken)
    else s

/-- R156: the 32 bytes of a completion record. -/
def completion (x status marks opnum tag sent : Nat) : List Byte :=
  bytesLE 2 x ++ bytesLE 1 status ++ bytesLE 1 marks ++ bytesLE 4 opnum ++ bytesLE 8 tag ++ bytesLE 8 sent ++ bytesLE 8 0

/-! Partials on their way to a spine (R196, R197). -/

/-- R196: spine j holds back a partial of chunk c of x. -/
def State.partialHeld (s : State) (t j x c : Nat) : Bool :=
  let h := s.comp.spines.get [t, j]
  h.held && !(h.limits.any (fun e => e.1 == x && decide (c < e.2)))

/-- R196, R197: the partials of one chunk of context x, the lowest not yet sent, go to its spine, unless that holds it
back. -/
def State.sendPartial (s : State) (x : Nat) : State :=
  match (s.op x).first with
  | none => s
  | some d =>
    let c := d.chunkBase + (s.op x).partNext
    let mine (h : HeldPartial) : Bool :=
      h.queued.isNone && h.target.header.context == x && h.target.header.opnum == s.opnum x && h.target.header.chunk == c
    let l := s.comp.parts.filter mine
    if l.isEmpty || s.partialHeld (s.lastOf x) (s.spineOf x c) x c then s
    else
      let s := { s with comp := { s.comp with parts := s.comp.parts.filter (fun h => !mine h) } }
      let s := s.setOp x (fun o => { o with partNext := o.partNext + 1 })
      s.each l (fun s h => s.multicast h.ptr h.account h.requester [h.target])

/-- R197: the partials of context x that can go, in ascending chunk index. -/
def State.sendPartials (s : State) (x : Nat) : State := s.each s.comp.parts (fun s _ => s.sendPartial x)

/-! Acceptance. -/

/-- R157: the progress timer restarts. -/
def State.restartTimer (s : State) (x : Nat) : State := s.setOp x (fun o => { o with timerAt := s.now, frozen := 0 })

/-- The registers that tell of the latest operation of a context. -/
def openFields : List Fld :=
  [F.OPC_STATE_NONFIN, F.OPC_STATE_SAT, F.OPC_STATE_WARM, F.OPC_RECV_SWATCHES, F.OPC_BYTES_BYTES, F.OPC_EXPECT_SWATCHES,
   F.OPC_TAG_TAG]

/-- R155, R195: the operation NUM_OPSEQ(x) opens. -/
def State.openOp (s : State) (x : Nat) : State :=
  let s := (s.each openFields (fun s f => s.noteWas f x)).mark (.opened x)
  let s := ((s.wr F.OPC_STATE_STATE ctxOpen x).wr F.OPC_RECV_SWATCHES 0 x).wr F.OPC_BYTES_BYTES 0 x
  ((((s.wr F.OPC_STATE_NONFIN 0 x).wr F.OPC_STATE_SAT 0 x).wr F.OPC_STATE_WARM 0 x).restartTimer x).openLate x

/-- R164: every descriptor and input swatch is counted in. -/
def State.countsMet (s : State) (x : Nat) : Bool :=
  let o := s.op x
  let t := s.lastOf x
  let k := s.kind x
  let upper := s.level t == levelUpper
  let main := if s.reducing x then skContrib else if k = kExchange then skExchange else if k = kParity then skParity else skData
  let bytesOf (rank : Nat) : Nat :=
    (o.inputs.filter (fun i => i.item.header.skind == main && i.item.header.rank == rank)).foldl (fun n i => n + i.item.header.length) 0
  let senders := if k = kBarrier then []
    else if k = kBroadcast then (o.first.map Descriptor.root).toList
    else s.descSenders x
  let total (rank : Nat) : Nat :=
    (((o.descOf rank).or (if k = kBroadcast then o.first else none)).map Descriptor.totalBytes).getD 0
  let chunkWeight (c : Nat) : Nat :=
    (o.inputs.filter (fun i => i.item.header.chunk == c && i.item.header.part == 0)).foldl (fun n i => n + i.item.header.weight) 0
  (s.descSenders x).all (fun r => (o.descOf r).isSome) &&
    s.rd F.OPC_RECV_SWATCHES x == s.rd F.OPC_EXPECT_SWATCHES x &&
    (upper || senders.all (fun r => bytesOf r == total r)) &&
    (!upper || !(s.reducing x || k == kBarrier) ||
      (let cs := (o.inputs.map (fun i => i.item.header.chunk)).eraseDups
      cs.all (fun c => chunkWeight c == s.rd F.LST_CFG_RANKS t)))

/-- The descriptors known for an operation of x: of the current one, or of the next one held early. -/
def State.knownDescs (s : State) (x opnum : Nat) : List Descriptor :=
  (if opnum = s.opnum x then (s.op x).descs.map Prod.snd else []) ++ (s.op x).early.filterMap (fun i => match i with
    | .desc b => if b.desc.opnum = opnum then some b.desc else none
    | _ => none)

/-- R166: an equal swatch was already accepted for its operation. -/
def State.swatchDup (s : State) (a : Arrived) : Bool :=
  let x := a.header.context
  a.header.opnum == s.opnum x && (s.op x).inputs.any (fun i => s.sameSwatch i.item a) ||
  (s.op x).early.any (fun i => match i with
    | .swatch b => b.header.opnum == a.header.opnum && s.sameSwatch b a
    | _ => false)

/-- R159, R173: the accepted swatch is sent on, when it is one that travels on, and its place in the operation is
known. -/
def State.forward (s : State) (x : Nat) (a : Arrived) : State :=
  let o := s.op x
  let t := s.lastOf x
  let remote := s.level t == levelUpper || (s.operandOf t a.header.rank).isNone
  let known := (s.checkDesc (o.descs.map Prod.snd) a).isSome || (s.kind x == kRedistribute && remote)
  if !o.inputs.contains ⟨a, true⟩ || !known then s
  else
    let go (targets : List Target) : State :=
      let s := s.setOp x (fun o => { o with
        made := o.made + targets.length
        inputs := o.inputs.map (fun i => if i = ⟨a, true⟩ then ⟨a, false⟩ else i) })
      s.multicast a.ptr a.account (reqPort (dieOfPort a.port)) targets
    if a.header.skind = skData then go (s.dataTargets a)
    else if a.header.skind = skResult then
      match o.first with
      | none => s
      | some d => go (s.resultTargets x (a.header.chunk - d.chunkBase) d.chunks a.header)
    else s

/-- R204: the manifest of a sender whose chunk 0 and descriptor are both accepted is checked; a failure's closing. -/
def State.checkManifest (s : State) (x rank : Nat) : State × List Work :=
  let o := s.op x
  if s.kind x != kExchange || o.manifests.any (fun m => m.1 == rank) then (s, [])
  else match o.descOf rank, o.inputs.find? (fun i => i.live && i.item.header.rank == rank && i.item.header.chunk == 0) with
    | some d, some i =>
      let m := manifestOf (s.payload i.item)
      let code := s.manifestCode x d.totalBytes m
      if code = 0 then ((s.setOp x (fun o => { o with manifests := o.manifests ++ [(rank, m)] })).mark (.manifest x), [])
      else
        let s := ((s.inc F.OPC_XCH_BAD_COUNT).wr F.OPC_XCH_BAD_CONTEXT x).wr F.OPC_XCH_BAD_PORT i.item.port
        (s.wr F.OPC_XCH_BAD_CODE code, [.close x stAborted])
    | _, _ => (s, [])

/-- R254: an IDLE context of a last that drains does not open. -/
def State.drainHolds (s : State) (x : Nat) : Bool :=
  s.ctxState x == ctxIdle && s.rd F.SCH_CHG_STAT_STATE == chgDraining && s.sched.chgLasts.testBit (s.lastOf x)

/-- An item that came as a scheduled frame. -/
def HeldItem.sched : HeldItem → Bool
  | .swatch a => a.sched
  | .desc b => b.sched

def State.holdInDrain (s : State) (x : Nat) (it : HeldItem) : State :=
  let s := if it.sched then s.earlyLoss none else s
  let s := { s with sched := { s.sched with chgHeld := s.sched.chgHeld ++ [(x, it)] } }
  s.wr F.SCH_CHG_STAT_HELD (min (2 ^ 20 - 1) s.sched.chgHeld.length)

/-- R155, R167: an item of the next operation is held; one of the operation that is to open when the context has left CLOSING
is none too early. -/
def State.holdEarly (s : State) (x opnum : Nat) (it : HeldItem) : State :=
  let s := (s.setOp x (fun o => { o with early := o.early ++ [it] })).wr F.OPC_STATE_EARLY 1 x
  if it.sched && opnum != s.opnum x then s.earlyLoss (some x) else s

/-- Where an item that passes every check goes, when it is not accepted at once. `past`: it has waited since before the cut.
-/
def State.holdItem (s : State) (x opnum port : Nat) (it : HeldItem) (past : Bool) : Option State :=
  match if past then none else s.cutHolds x port with
  | some t => some (s.holdInCut t x it)
  | none =>
    if opnum ≠ s.opnum x ∨ s.ctxState x = ctxClosing then some (s.holdEarly x opnum it)
    else if s.drainHolds x then some (s.holdInDrain x it)
    else none

/-- R166, R287: a swatch is accepted for the current operation of x. -/
def State.takeSwatch (s : State) (x : Nat) (a : Arrived) : State × List Work :=
  let s := (s.mirrorAll a.port false a.sched a.vc (some x) a.ptr a.account 0).mark (.accepted x a.port)
  let s := if s.ctxState x = ctxIdle then s.openOp x else s
  let s := s.setOp x (fun o => { o with
    inputs := o.inputs ++ [⟨a, true⟩]
    tokens := o.tokens + b2n (a.header.skind == skToken) })
  let s := ((s.inc F.OPC_RECV_SWATCHES 1 x).inc F.OPC_BYTES_BYTES a.header.length x).restartTimer x
  let s := if a.header.skind = skResult then s else s.askAdmission x a.header.chunk
  let s := s.forward x a
  let s := if s.marked (.placed x) 2 then s else s.freeSettled x
  let (s, w) := s.checkManifest x a.header.rank
  (s, w ++ [.settle x])

/-- R166: a swatch of context x, in the order of the table. -/
def State.offerSwatch (s : State) (a : Arrived) (past : Bool) : State × List Work :=
  let h := a.header
  let x := h.context
  let drop (f : Fld) : State × List Work := ((s.dropArrived a).inc f 1 x, [])
  if s.undeclared x then ((s.dropArrived a).dropUndecl a.port x, [])
  else if !s.opnumOk x h.opnum then drop F.OPC_DROPS_STALE
  else if !s.senderOk a then drop F.OPC_DROPS_FOREIGN
  else if s.swatchDup a then drop F.OPC_DROPS_DUP
  else if h.partsM1 < h.part then drop F.OPC_DROPS_RANGE
  else if ((s.checkDesc (s.knownDescs x h.opnum) a).map (s.rangeOk a)) = some false then drop F.OPC_DROPS_RANGE
  else match s.holdItem x h.opnum a.port (.swatch a) past with
    | some s => (s, [])
    | none => s.takeSwatch x a

/-- R488: an accepted swatch that its sender's descriptor shows to be out of range is taken as never accepted; the
operation's closing when its chunk has committed. -/
def State.takeBack (s : State) (x : Nat) (a : Arrived) : State × List Work :=
  let o := s.op x
  let c := a.header.chunk
  let s := if o.inputs.contains ⟨a, true⟩ then s.dropArrived a else s
  let s := s.setOp x (fun o => { o with inputs := o.inputs.filter (fun i => i.item != a) })
  let s := s.inc F.OPC_DROPS_RANGE 1 x
  let s := s.wr F.OPC_RECV_SWATCHES (s.rd F.OPC_RECV_SWATCHES x - 1) x
  let s := s.wr F.OPC_BYTES_BYTES (s.rd F.OPC_BYTES_BYTES x - a.header.length) x
  if o.committed.contains c then (s, [.ask x stDisagree]) else (s.dropChunk x c, [])

/-- R351: the epoch that a descriptor of an EPOCH_CTX belongs to: the cut it begins or joins, or the closing of the
operation when its TAG differs from the epoch of the current cut. -/
def State.joinEpoch (s : State) (x port : Nat) (d : Descriptor) : State × List Work :=
  let t := s.lastOf x
  match s.kind x == kParity, s.sporeGroup x with
  | true, some (_, true) =>
    let e := d.tag % 2 ^ 32
    (match (s.sporeLast t).epoch with
    | none => (s.beginCut t e port, [])
    | some ep =>
      if ep.number = e then (s.setSpore t (fun l => { l with epoch := some { ep with ports := ep.ports ++ [port] } }), [])
      else (s, [.ask x stDisagree]))
  | true, some (_, false) =>
    if s.rd F.OPC_TAG_TAG x = d.tag then (s, []) else (s, [.ask x stDisagree])
  | _, _ => (s, [])

/-- The operation of a REGROW_CTX, whose kept TAG is the Herith's (R365, R366). -/
def State.isRegrow (s : State) (x : Nat) : Bool :=
  s.kind x == kParity && ((s.sporeGroup x).map (fun g => !g.2)).getD false

/-- R287: the ingress copies of an accepted descriptor. -/
def State.mirrorDesc (s : State) (b : ArrivedDesc) : State :=
  s.mirrorAll b.port false b.sched b.vc (some b.desc.context) b.ptr b.account 0

/-- R145, R146, R287: a descriptor is accepted for the current operation of x. -/
def State.takeDesc (s : State) (x : Nat) (b : ArrivedDesc) : State × List Work :=
  let port := b.port
  let d := b.desc
  let s := ((s.mirrorDesc b).dropDesc b).mark (.accepted x port)
  let s := if s.ctxState x = ctxIdle then s.openOp x else s
  let first := (s.op x).first
  let s := s.setOp x (fun o => { o with descs := o.descs ++ [(port, d)] })
  let s := (s.wr F.OPC_STATE_DESCS (s.op x).descs.length x).restartTimer x
  let s := if first.isSome then s
    else
      let s := s.wr F.OPC_EXPECT_SWATCHES (s.expectCount x d) x
      if s.isRegrow x then s else s.wr F.OPC_TAG_TAG d.tag x
  let disagree : List Work := if (first.map (fun f => s.agrees x f d)) = some false then [.ask x stDisagree] else []
  let (s, epoch) := s.joinEpoch x port d
  let mine := ((s.op x).inputs.map (·.item)).filter (fun a =>
    (s.checkDesc ((s.op x).descs.map Prod.snd) a) == some d && !s.rangeOk a d)
  let (s, back) := mine.foldl (fun (acc : State × List Work) a =>
    let r := acc.1.takeBack x a
    (r.1, acc.2 ++ r.2)) (s, [])
  let s := (s.each ((s.op x).inputs.map (·.item)) (fun s a => s.forward x a)).sendPartials x
  let (s, man) := s.checkManifest x d.rank
  let closing := disagree ++ epoch ++ back ++ man
  let hall := s.level (s.lastOf x) == levelSegment && s.kind x != kExchange && s.kind x != kParity
  let s := if hall && closing.isEmpty && !s.marked (.ending x (s.opnum x) 4) 2 && !(s.op x).segSent &&
      (s.descSenders x).all (fun r => ((s.op x).descOf r).isSome) then s.sendSegment x else s
  (s, closing ++ [.settle x])

/-- R155: whether an abort of operation n of context x acts. -/
def State.abortable (s : State) (x n : Nat) : Bool :=
  n == s.opnum x && (s.ctxState x == ctxOpen || s.ctxState x == ctxFlush || s.ctxState x == ctxPaused)

/-- R145, R166: a descriptor, in the order of the table. -/
def State.offerDesc (s : State) (b : ArrivedDesc) (past : Bool) : State × List Work :=
  let port := b.port
  let d := b.desc
  let x := d.context
  let free (s : State) : State := s.dropDesc b
  let code := s.refusal port d
  let early := s.knownDescs x d.opnum
  if s.undeclared x then ((free s).dropUndecl port x, [])
  else if !s.opnumOk x d.opnum then ((free s).inc F.OPC_DROPS_STALE 1 x, [])
  else if code ≠ 0 then
    let s := (((free s).inc F.OPC_REFUSED_COUNT).wr F.OPC_REFUSED_CONTEXT x).wr F.OPC_REFUSED_PORT port
    let s := s.wr F.OPC_REFUSED_CODE code
    (s.sendControl reqMgt (s.groupPort (s.groupOf port)) 1 (completion x (0x10 + code) 0 d.opnum d.tag 0), [])
  else if d.abort then match if past then none else s.cutHolds x port with
    | some t => (s.holdInCut t x (.desc b), [])
    | none => if s.abortable x d.opnum then (free (s.mirrorDesc b), [.ask x stAborted]) else ((free s).inc F.OPC_DROPS_STALE 1 x, [])
  else if early.any (fun e => e.rank == d.rank) then ((free s).inc F.OPC_DROPS_DUP 1 x, [])
  else match s.holdItem x d.opnum port (.desc b) past with
    | some s => (s, [])
    | none => s.takeDesc x b

/-- R166: an item is decided. -/
def State.offer (s : State) (it : HeldItem) (past : Bool) : State × List Work :=
  match it with
  | .swatch a => s.offerSwatch a past
  | .desc b => s.offerDesc b past

/-! FLUSH and closing. -/

/-- R365, R369: the operation of a REGROW_CTX is a restore. -/
def State.restoring (s : State) (x : Nat) : Bool :=
  match s.sporeGroup x with
  | some (g, false) => s.groupState (s.lastOf x) g == grpRestoring
  | _ => false

/-- R155, R212, R352, R369: every output of the operation has been made. -/
def State.produced (s : State) (x : Nat) : Bool :=
  let o := s.op x
  let t := s.lastOf x
  if s.kind x = kParity then
    match s.sporeGroup x with
    | some (g, false) =>
      if s.restoring x then (List.range (s.rd F.CKP_GROUP_SIZE t g)).all ((s.spore.groups.get [t, g]).sent).contains
      else o.committed.length == s.rd F.CKP_GROUP_SHARD_CHUNKS t g
    | _ => false
  else if s.kind x = kExchange then s.exchangeDone x
  else if s.reducing x then
    (match o.first with
    | none => false
    | some d => o.committed.length == s.handledCount x d.chunkBase d.chunks)
  else true

/-- R155, R158, R164: an operation whose counts are met goes to FLUSH; from the next cycle on, when its outputs have departed,
it closes. -/
def State.settleCore (s : State) (x : Nat) : State × List Work :=
  let s :=
    if s.ctxState x = ctxOpen ∧ s.restoring x = false ∧ s.countsMet x = true then
      let s := (s.wr F.OPC_STATE_STATE ctxFlush x).mark (.flush x)
      if s.kind x = kBarrier ∧ s.level (s.lastOf x) = levelUpper then
        s.output x (s.lastOf x) reqMgt (.swatch (signalHeader skToken x (s.opnum x) 0 0) []) (s.levelTargets x (s.opnum x) skToken)
      else s
    else s
  let o := s.op x
  if s.ctxState x = ctxFlush ∧ s.produced x = true ∧ o.departed = o.made ∧ s.marked (.flush x) 2 = false then
    (s.mark (.done x), [.close x stDone])
  else (s, [])

/-- R156: completion records to every recipient port that is not fenced. -/
def State.sendRecords (s : State) (x status : Nat) : State :=
  let o := s.op x
  let marks := s.rd F.OPC_STATE_WARM x + 2 * s.rd F.OPC_STATE_SAT x + 4 * s.rd F.OPC_STATE_NONFIN x
  s.each ((s.recipients x).filter (fun p => !s.fenced p)) (fun s p =>
    let sent := (s.groupPorts (s.groupOf p)).foldl (fun n q => n + o.sent.get [q]) 0
    s.sendControl reqMgt (s.groupPort (s.groupOf p)) 1
      (completion x status marks (s.opnum x) (s.rd F.OPC_TAG_TAG x) sent))

/-- Requests for outputs of operation n of x, which are waiting for a buffer. -/
def isOutputOf (x n : Nat) (r : AllocReq) : Bool :=
  match r.purpose, r.item with
  | .output ts, _ => ts.any (fun t => t.header.context == x && t.header.opnum == n)
  | .forward .., .swatch h _ => r.account == 19 && h.context == x && h.opnum == n
  | _, _ => false

/-- R365, R370, R371: the operation of a REGROW_CTX closes: the group's regrowth or restore is done, and it has lost nothing
since; or it waits again. -/
def State.closeRecovery (s : State) (x status : Nat) : State :=
  match s.kind x == kParity, s.sporeGroup x with
  | true, some (g, false) =>
    let t := s.lastOf x
    let put (s : State) (f : GroupRec → GroupRec) : State :=
      { s with spore := { s.spore with groups := s.spore.groups.upd [t, g] f } }
    if status = stDone then
      let s := if s.groupState t g = grpRegrowing then s.inc F.CKP_EVENTS_REGROWTHS else s
      let s := s.setLost t g []
      put s (fun r => { r with finished := true })
    else
      let s := put s (fun r => { r with opened := false, finished := false, sent := [] })
      if s.groupState t g = grpRegrowing then s.wr F.CKP_GROUP_STAT_STATE grpWaiting t g else s
  | _, _ => s

/-- Operation `n` of context `x`, declared `o`, is gone: its chunks, its retained inputs, its outputs not yet visible,
the items of it that are held, and its streams; it is listed in no hold. -/
def State.closeRelease (s : State) (x n : Nat) (o : OpCtx) : State :=
  let s := s.each (s.allChunks.filter (fun (y, _, _) => y == x)) (fun s (_, c, _) => s.dropChunk x c)
  let s := s.each (o.inputs.filter (·.live)) (fun s i => s.dropArrived i.item)
  let s := { s with bpm := { s.bpm with requests := s.bpm.requests.filter (fun r => !isOutputOf x n r) } }
  let mine (h : HeldPartial) : Bool := h.target.header.context == x && h.target.header.opnum == n
  let s := s.each (s.comp.parts.filter mine) (fun s h =>
    if h.queued.isSome then s.decRef h.ptr h.account h.requester else s.freeObj h.ptr h.account h.requester)
  let s := { s with comp := { s.comp with parts := s.comp.parts.filter (fun h => !mine h) } }
  let stale (e : Nat × HeldItem) : Bool := e.1 == x && (match e.2 with
    | .swatch a => a.header.opnum == n
    | .desc b => b.desc.opnum == n)
  let freeHeld (s : State) (e : Nat × HeldItem) : State := match e.2 with
    | .swatch a => s.dropArrived a
    | .desc b => s.dropDesc b
  let s := s.each s.lasts (fun s u =>
    let l := (s.sporeLast u).held
    if l.any stale then
      let s := s.each (l.filter stale) freeHeld
      (s.setSpore u (fun l => { l with held := l.held.filter (fun e => !stale e) })).syncHeld u
    else s)
  (s.freeStreams x n).unlist x

/-- Something of operation n of x stands in an egress queue. -/
def State.waitsToSend (s : State) (x n : Nat) : Bool :=
  let mine (h : SwHeader) : Bool := h.context == x && h.opnum == n
  let own (e : OppEntry) : Bool := match e.sched, s.object e.ptr with
    | some h, _ => mine h
    | none, .swatch h _ => mine h
    | none, _ => false
  s.bpm.requests.any (isOutputOf x n) || s.sched.refused.any (fun r => mine r.entry.header) || s.sched.queues.entries.any (fun e => e.2.any (fun q => mine q.header)) ||
    s.sched.voq.entries.any (fun e => e.2.any own) || s.sched.oppFifo.entries.any (fun e => e.2.any own)

/-- The status, the counters and the records of a closing; the context is idle again, or CLOSING (R155). -/
def State.closeCount (s : State) (x n t status : Nat) : State :=
  let s := s.wr F.OPC_STATE_STATUS status x
  let s := s.sendRecords x status
  let s :=
    if status = stDone then (s.inc F.OPC_OPS_DONE 1 x).inc F.LST_OPS_DONE 1 t
    else if status = stIncomplete then (s.inc F.OPC_FAIL_INCOMPLETE 1 x).inc F.LST_OPS_INCOMPLETE 1 t
    else (s.inc F.OPC_FAIL_ABORTED 1 x).inc F.LST_OPS_ABORTED 1 t
  let s := (s.closeRecovery x status).incWrap F.NUM_OPSEQ_OPNUM 1 x
  let s := s.wr F.OPC_STATE_STATE (if status = stDone then ctxIdle else ctxClosing) x
  let s := ((s.wr F.OPC_STATE_DESCS 0 x).wr F.OPC_STATE_EARLY 0 x).setOp x (fun _ => {})
  -- what waits to be sent, and the operation's own ABORT, is still numbered
  { s with sched := { s.sched with txSeq := { entries := s.sched.txSeq.entries.filter (fun e =>
      e.1.headD 0 != x || e.1.take 2 == [x, n] || s.waitsToSend x (e.1.getD 1 0)) } } }

/-- The ABORT of an operation that closed without being done, towards the next level (R174). -/
def State.closeAbort (s : State) (x n t status : Nat) : State :=
  let up := s.levelTargets x n skAbort
  if status = stDone ∨ s.kind x = kExchange ∨ s.kind x = kParity ∨ up.isEmpty = true then s
  else s.publish t reqMgt (.swatch (signalHeader skAbort x n 0 0) []) up

/-- A parity group's operation that fails ends the epoch, and with it its other operations (R350, R357). -/
def State.closeEpoch (s : State) (x t status : Nat) : State × List Work :=
  let epoch := s.kind x == kParity && ((s.sporeGroup x).map Prod.snd).getD false
  if epoch && status != stDone && (s.sporeLast t).epoch.isSome then
    let others := (s.epochContexts t).map (fun y => Work.close y stAborted)
    let (held, s) := (s.dropEpoch t).takeHeld t
    (s, others ++ held.map (fun e => Work.item e.1 e.2))
  else (s, [])

/-- R155: the context is CLOSING: the items that wait for its next operation enter it when it is IDLE. -/
def State.keepEarly (s : State) (x : Nat) (l : List HeldItem) : State :=
  (s.setOp x (fun o => { o with closedAt := s.arith, early := l })).wr F.OPC_STATE_EARLY (b2n !l.isEmpty) x

/-- R78, R154 to R156, R174, R357: the current operation of x closes with a status; what is to be done next. -/
def State.closeCore (s : State) (x status : Nat) : State × List Work :=
  if s.ctxState x = ctxIdle ∨ s.ctxState x = ctxUndeclared ∨ s.ctxState x = ctxClosing then (s, [])
  else
    let t := s.lastOf x
    let n := s.opnum x
    let o := s.op x
    let s := ((s.closeRelease x n o).notEarly x).closeCount x n t status
    let (s, more) := (s.closeAbort x n t status).closeEpoch x t status
    if s.ctxState x = ctxClosing ∧ s.planState ≠ planRetiring then (s.keepEarly x o.early, more)
    else if s.ctxState x = ctxClosing then (s.keepEarly x [], o.early.map (Work.early x) ++ more)
    else (s, o.early.map (Work.early x) ++ more)

/-- Everything that is to be done for operations, in order; what follows from one thing is done before the next. -/
def runWork : Nat → State → List Work → State
  | 0, s, _ => s
  | _, s, [] => s
  | fuel + 1, s, w :: rest =>
    let (s, more) := match w with
      | .item _ it => s.offer it false
      | .early _ it => s.offer it true
      | .settle x => s.settleCore x
      | .ask x st => (s.mark (.ending x (s.opnum x) st), [])
      | .close x st => s.closeCore x st
    runWork fuel s (more ++ rest)

/-- Enough steps for every item that is held anywhere to be offered, settled and closed. -/
def State.workFuel (s : State) : Nat :=
  let early := s.ctx.entries.foldl (fun n e => n + e.2.early.length + 1) 0
  let held := s.spore.lasts.entries.foldl (fun n e => n + e.2.held.length) 0
  1000 + 100 * (early + held + s.sched.chgHeld.length)

def State.work (s : State) (l : List Work) : State := runWork (s.workFuel + 100 * l.length) s l

/-- Every operation that something may have completed is looked at; in the safe state nothing is decided (R389). -/
def State.settleAll (s : State) : State :=
  whenActive s (fun s => s.work (s.ctx.entries.filterMap (fun e => match e.1 with
    | [x] => some (Work.settle x)
    | _ => none)))

/-- R78, R155: the discard of a context that is CLOSING is complete, in the arithmetic cycle in which its space is free:
it is IDLE with the next, and what has waited enters its next operation. -/
def State.endClosing (s : State) : State :=
  let ready := s.ctx.entries.filterMap (fun e => match e.1 with
    | [x] => if s.ctxState x = ctxClosing ∧ e.2.closedAt + 2 ≤ s.arith then some x else none
    | _ => none)
  s.each ready (fun s x =>
    let l := (s.op x).early
    let s := ((s.setOp x (fun _ => {})).wr F.OPC_STATE_STATE ctxIdle x).wr F.OPC_STATE_EARLY 0 x
    s.work (l.map (Work.early x)))

/-- R155: the contexts of the plan whose source last, or for REDISTRIBUTE either last, is t. -/
def State.contextsTouching (s : State) (t : Nat) : List Nat :=
  (s.ctx.entries.filterMap (fun e => match e.1 with
    | [x] => some x
    | _ => none)).filter (fun x => s.lastOf x == t || (s.kind x == kRedistribute && s.rd F.OPC_DECL_TARGET x == t))

/-- R155, R157, R158: an OPEN or FLUSH context is paused. -/
def State.pauseCtx (s : State) (x : Nat) : State :=
  let st := s.ctxState x
  if st = ctxOpen ∨ st = ctxFlush then
    let limit := s.rd F.LST_TIMEOUT_PROGRESS_US (s.lastOf x)
    let ran := s.now - (s.op x).timerAt
    let s := s.setOp x (fun o => { o with pausedFrom := st, frozen := if limit ≠ 0 ∧ us limit ≤ ran then 0 else ran })
    s.wr F.OPC_STATE_STATE ctxPaused x
  else s

/-- R155: a PAUSED context returns to the state it left when none of its lasts is PAUSED. -/
def State.resumeCtx (s : State) (x : Nat) : State :=
  if s.ctxState x = ctxPaused ∧ s.lastState (s.lastOf x) ≠ lstPaused ∧
      (s.kind x ≠ kRedistribute ∨ s.lastState (s.rd F.OPC_DECL_TARGET x) ≠ lstPaused) then
    let s := s.setOp x (fun o => { o with timerAt := s.now - o.frozen })
    s.wr F.OPC_STATE_STATE (s.op x).pausedFrom x
  else s

/-- R154, R166: the descriptor at the head of those that wait is decided. -/
def State.descriptorArrival (s : State) : State :=
  match s.sched.descs with
  | [] => s
  | b :: rest =>
    let s := { s with sched := { s.sched with descs := rest } }
    s.work [.item b.desc.context (.desc b)]

/-- R166: the released swatch at the head is decided; an ABORT swatch has a command of its own. -/
def State.swatchAccept (s : State) : State :=
  match s.sched.released with
  | [] => s
  | a :: rest =>
    if a.header.skind = skAbort then s
    else
      let s := { s with sched := { s.sched with released := rest } }
      s.work [.item a.header.context (.swatch a)]

/-- R155, R166, R174: the released swatch at the head, when it is an ABORT, closes its operation. -/
def State.abortSwatch (s : State) : State :=
  match s.sched.released with
  | [] => s
  | a :: rest =>
    if a.header.skind ≠ skAbort then s
    else
      let x := a.header.context
      let s := { s with sched := { s.sched with released := rest } }
      let drop (f : Fld) : State := (s.dropArrived a).inc f 1 x
      if s.undeclared x then (s.dropArrived a).dropUndecl a.port x
      else if !s.opnumOk x a.header.opnum then drop F.OPC_DROPS_STALE
      else if !s.senderOk a then drop F.OPC_DROPS_FOREIGN
      else if s.swatchDup a then drop F.OPC_DROPS_DUP
      else if a.header.partsM1 < a.header.part then drop F.OPC_DROPS_RANGE
      else if s.abortable x a.header.opnum then
        ((s.mirrorAll a.port false a.sched a.vc (some x) a.ptr a.account 0).dropArrived a).work [.ask x stAborted]
      else drop F.OPC_DROPS_STALE

/-- R155: a host write of OPC_ABORT with GO = 1. -/
def State.hostAbort (s : State) (x : Nat) : State :=
  if s.ctxState x = ctxUndeclared then s.inc F.OPC_UNDECL_COUNT
  else if s.abortable x (s.opnum x) ∧ s.marked (.done x) 2 = false then s.work [.ask x stAborted]
  else s.inc F.OPC_DROPS_STALE 1 x

/-- R158: the endings that were asked for in this store cycle, decided at its end: of an operation that has closed DONE an
abort is stale; else an abort comes before a disagreement, and a progress timeout acts only on an operation still OPEN whose
counts are not met. -/
def State.endAsked (s : State) : State :=
  let mine := ((s.marks.filter (fun e => e.1 / 2 == s.now / 2)).map Prod.snd).reverse
  let asked := (mine.filterMap (fun m => match m with
    | .ending x n _ => some (x, n)
    | _ => none)).eraseDups
  let s := s.each asked (fun s (x, n) =>
    let has (st : Nat) : Bool := mine.contains (.ending x n st)
    if !s.abortable x n then (if has stAborted then s.inc F.OPC_DROPS_STALE 1 x else s)
    else if has stAborted then s.work [.close x stAborted]
    else if has stDisagree then s.work [.close x stDisagree]
    else if s.ctxState x = ctxOpen ∧ s.countsMet x = false then s.work [.close x stIncomplete]
    else s)
  let flushed := mine.filterMap (fun m => match m with
    | .flush x => some x
    | _ => none)
  let s := { s with marks := s.marks.filter (fun e => match e.2 with
    | .flush _ => false
    | _ => true) }
  s.work (flushed.map Work.settle)

/-- R157, R158: the progress timer of context x has reached its limit. -/
def State.progressTimeout (s : State) (x : Nat) : State :=
  let limit := s.rd F.LST_TIMEOUT_PROGRESS_US (s.lastOf x)
  if s.ctxState x = ctxOpen ∧ limit ≠ 0 ∧ (s.op x).timerAt + us limit ≤ s.now ∧ s.countsMet x = false then
    s.work [.ask x stIncomplete]
  else s

end Sys2Proof.Machine
end

