-- ==== Sys2Proof/Machine/Commit.lean ====
section
/-!
DEFINITION. Operands and records on their way to a chunk, its commit, the numeric monitor, and partials that a spine
holds back (R72, R79, R80, R124 to R135, R150, R188, R196, R240, R352 to R354, R367, R410).
-/

namespace Sys2Proof.Machine

/-! Operands (R72, R188, R240, R367). -/

/-- A parity chunk read back from granule `k` of the spore space (R415); `bad` is 2 or more where it cannot be read. -/
def State.readSpore (s : State) (k bad : Nat) : Option (List Byte) × State :=
  let (port, a) := s.sporeAt k
  if !s.cxlUp port then (none, s)
  else if 2 ≤ bad then (none, s.readPoison port a)
  else s.readGranule k

/-- What was read from GDDR7, or where that failed granule `k` of the spore space. -/
def readOrSpore (r : Option (List Byte) × State) (k bad : Nat) : Option (List Byte) × State :=
  if r.1.isSome then r else r.2.readSpore k bad

/-- The buffer, and the tier slot, of the last parity image of last `t` that is done. -/
def State.parityBuf (s : State) (t : Nat) : Nat := ((s.sporeLast t).doneBuf).getD 0

/-- Chunk `c` of index `j` of the parity of group `g` of last `t`, from GDDR7 or else from the spore space, once the
epoch is secured there. -/
def State.readParityOf (s : State) (t g c j bad : Nat) : Option (List Byte) × State :=
  let near := s.gddrRead (s.parityAddr t g c j (s.parityBuf t)) 4096
    (if bad = 0 then none else some (s.parityAddr t g c j (s.parityBuf t)))
  if s.rd F.CKP_EPOCH_SECURED t = s.rd F.CKP_EPOCH_DONE t then
    readOrSpore near (s.parityBuf t * (s.sporeHalf / 4096) + s.parityGranule t g c j) bad
  else near

/-- R367: a parity chunk of a regrowth: from the buffer of E_c, or where that read is uncorrectable from the tier's slot of
the same number; `bad` 1: GDDR7 is uncorrectable, 2: the tier's word is poisoned too. -/
def State.readParity (s : State) (x c j bad : Nat) : Option (List Byte) × State :=
  match s.sporeGroup x with
  | none => (none, s)
  | some g => s.readParityOf (s.lastOf x) g.1 c j bad

/-- R367, R369: a parity chunk cannot be read: the group is UNRECOVERABLE for regrowth. -/
def State.unrecoverable (s : State) (x : Nat) : State :=
  match s.sporeGroup x with
  | none => s
  | some (g, _) => (s.wr F.CKP_GROUP_STAT_STATE grpUnrecoverable (s.lastOf x) g).work [.close x stAborted]

/-- R240: an insole cell is found uncorrectable. The operations of the contexts whose retained inputs it is part of, or
whose scheduled buffer is being sent, are to end ABORTED; such a frame leaves with a bad link check; the opportunistic
frames that wait with it are dropped. -/
def State.cellUncorr (s : State) (cell : Nat) : State :=
  let s := s.insUncorr cell
  let hit (p : Nat) : Bool := (s.objectCells p).contains cell
  let inputs := s.contexts.filter (fun x => (s.op x).inputs.any (fun i => i.live && hit i.item.ptr))
  let frames := s.sched.sending.entries.filter (fun e => e.2.any (fun x => x.sched && hit x.ptr))
  let sent := frames.filterMap (fun e => e.2.bind (fun x =>
    if s.abortable x.header.context x.header.opnum then some x.header.context else none))
  let s := s.each frames (fun s e => { s with sched := { s.sched with
    sending := s.sched.sending.set e.1 (e.2.map (fun x => { x with bad := true })) } })
  let s := s.each s.sched.voq.entries (fun s e =>
    let lost := e.2.filter (fun o => hit o.ptr)
    let s := { s with sched := { s.sched with voq := s.sched.voq.set e.1 (e.2.filter (fun o => !hit o.ptr)) } }
    s.each lost (fun s o => s.loseEntry o (e.1.getD 1 0)))
  let s := s.each s.sched.oppFifo.entries (fun s e =>
    let lost := e.2.filter (fun o => o.pendingCells != 0 && hit o.ptr)
    let s := { s with sched := { s.sched with oppFifo := s.sched.oppFifo.set e.1 (e.2.filter (fun o => !lost.contains o)) } }
    s.each lost (fun s o => s.loseEntry o (e.1.headD 0)))
  s.work ((inputs ++ sent).eraseDups.map (fun x => Work.ask x stAborted))

/-- R72: a requested operand reaches the operand buffer. `bad`, for a contribution: the number of the uncorrectable cell
among its cells (R240); for a parity chunk: as in `readParity`. -/
def State.operandArrive (s : State) (x c r : Nat) (bad : Option Nat) : State :=
  match s.chunk x c with
  | none => s
  | some ch =>
    match ch.requested.find? (fun q => q.1 == r) with
    | none => s
    | some q =>
      if s.arith < q.2 + 24 then s
      else
        let arrived (ch : Chunk) : Chunk :=
          { ch with requested := ch.requested.filter (fun q => q.1 != r), buffered := ch.buffered ++ [r] }
        match s.operandSender x r with
        | none =>
          let j := r - (s.survivors (s.lastOf x) (((s.sporeGroup x).map Prod.fst).getD 0)).length
          (match s.readParity x c j (bad.getD 0) with
          | (none, s) => s.unrecoverable x
          | (some l, s) => s.setChunk x c (some { arrived ch with parity := ch.parity ++ [(r, l)] }))
        | some _ =>
          let parts := s.operandParts x c r
          let f := if s.kind x = kParity then F.INS_GROUP_OPP_ACCESSES else F.INS_GROUP_SCHED_ACCESSES
          let s := s.each parts (fun s a => s.countAccess f a.ptr)
          match bad with
          | some k => s.cellUncorr ((parts.flatMap (fun a => s.objectCells a.ptr)).getD k 0)
          | none => s.setChunk x c (some (arrived ch))

/-! Spill (R186 to R189, R410). -/

/-- The format that a slot's partial results are kept in. -/
def State.slotCode (s : State) (x : Nat) : Nat :=
  if s.operator x = oOr ∨ s.operator x = oGf then fBYTES else accCode (s.inFmt x) (s.operator x)

/-- R186: the slot that holds the result of node q. -/
def Chunk.slotOf (ch : Chunk) (q : Nat) : Nat := (ch.slots.reverse.map Prod.fst).idxOf q

/-- R186: the GDDR7 addresses of the granules of slot d of a spilled chunk of x. -/
def State.slotAddrs (s : State) (x : Nat) (ch : Chunk) (d : Nat) : List Nat :=
  let n := s.slotSize x / 4096
  ((ch.grans.drop (d * n)).take n).map (fun g => s.rd F.WLT_REGION_BASE (clDie ch.cluster) + 16384 * g)

/-- R189: arithmetic cycles that a spill engine needs for n bytes, at (SHARE + 1) / 16 of 512 GB/s. -/
def State.spillCycles (s : State) (n : Nat) : Nat := ceilDiv (7 * n) (320 * (s.rd F.WLT_SPILL_CFG_SHARE + 1))

/-- A request to a spill engine still stands: its chunk has not been restarted or discarded since. -/
def State.jobStands (s : State) (j : SpillJob) : Bool :=
  match s.chunk j.context j.chunk with
  | none => false
  | some ch => ch.attempt == j.attempt &&
      (if j.write then ch.leaving.contains j.node else ch.fetching.any (fun f => f.1 == j.node))

/-- R188: the oldest request of spill engine d is served next: it, when it is this one. -/
def State.spillTurn (s : State) (d x c q : Nat) (write : Bool) : Option SpillJob :=
  match (s.comp.spills.get [d]).find? s.jobStands with
  | none => none
  | some j => if j.context = x ∧ j.chunk = c ∧ j.node = q ∧ j.write = write then some j else none

/-- R188, R189: the arithmetic cycle from which spill engine d can have served request j: a write-back at the spill
bandwidth; a fetch also not before its partial is in GDDR7, and 140 cycles after its request. -/
def State.spillReady (s : State) (d : Nat) (j : SpillJob) : Nat :=
  let n := s.slotSize j.context
  let free := max j.since (s.comp.spillFree.get [d])
  if j.write then free + s.spillCycles n
  else
    let there := match s.chunk j.context j.chunk with
      | none => 0
      | some ch => ((ch.away.find? (fun a => a.1 == j.node)).map Prod.snd).getD 0
    max (j.since + 140 + s.spillCycles (n - 256)) (max free there + s.spillCycles n)

/-! The order of service at the GDDR7 channels (R411). A request that could have completed goes ahead of the completion of
a request of a later place that competes for a channel with it. -/

/-- R408: the channels that an access of n bytes at address a takes. -/
def State.accessChannels (s : State) (a n : Nat) : List Nat :=
  ((List.range (ceilDiv (a % 256 + n) 256)).map (fun k => s.gddrChannel (a + 256 * k))).eraseDups

/-- R249, R411: a numeric state record that a chunk must have by now still waits at one of these channels. -/
def State.numericDue (s : State) (chans : List Nat) : Bool :=
  s.allChunks.any (fun e => e.2.2.place.isSome && e.2.2.record.isNone && s.hasRecord e.1 e.2.1 &&
    decide (e.2.2.admitAt + 40 ≤ s.arith) &&
    (s.accessChannels (s.recordAddr e.1 e.2.1) (recordSize (s.outFmt e.1))).any chans.contains)

/-- R188, R411: the oldest request of a spill engine of the die of one of these channels can be served by now. -/
def State.spillDue (s : State) (chans : List Nat) : Bool :=
  (chans.map (· / 4)).eraseDups.any (fun d =>
    match (s.comp.spills.get [d]).find? s.jobStands with
    | none => false
    | some j => decide (s.spillReady d j ≤ s.arith))

/-- R411: requests of an earlier place than the spill engines' (place 3) or than these later ones wait. -/
def State.aheadOfSpill (s : State) (addrs : List Nat) (n : Nat) : Bool :=
  s.numericDue ((addrs.flatMap (s.accessChannels · n)).eraseDups)
def State.aheadOfOthers (s : State) (addrs : List Nat) (n : Nat) : Bool :=
  let chans := (addrs.flatMap (s.accessChannels · n)).eraseDups
  s.numericDue chans || s.spillDue chans

/-- R188: spill engine d has served its oldest request. -/
def State.spillServed (s : State) (d : Nat) : State :=
  { s with comp := { s.comp with
      spills := s.comp.spills.upd [d] (fun l => (l.dropWhile (fun j => !s.jobStands j)).drop 1)
      spillFree := s.comp.spillFree.set [d] s.arith } }

/-- R188, R410: a fetch of a spilled partial reaches the operand buffer, 140 cycles after its request at the earliest, when
its writing is finished and at the spill bandwidth; or its GDDR7 read is uncorrectable, at this address. -/
def State.spillFetched (s : State) (x c q : Nat) (bad : Option Nat) : State :=
  match s.chunk x c with
  | none => s
  | some ch =>
    let d := clDie ch.cluster
    match s.spillTurn d x c q false, ch.away.find? (fun a => a.1 == q), ch.slots.find? (fun p => p.1 == q) with
    | some j, some _, some p =>
      let addrs := s.slotAddrs x ch (ch.slotOf q)
      if s.arith < s.spillReady d j || s.aheadOfSpill addrs 4096 then s
      else
        let s := s.spillServed d
        let s := s.each addrs (fun s a => s.countChannel a 4096)
        (match bad.or ((addrs.filterMap (fun a => s.gddrFailed a 4096)).head?) with
        | some a => ((s.gddrUncorr a).exactLoss F.SCH_EXACT_LOSS_ECC).work [.close x stAborted]
        | none =>
          let data := addrs.flatMap (fun a => s.mem.gddr.readN a 4096)
          let got := ((readElems (s.slotCode x) data).map Prod.fst).take p.2.length
          let res := List.zipWith (fun (old new : Elem) => { old with v := new.v }) p.2 got
          s.setChunk x c (some { ch with
            slots := ch.slots.map (fun r => if r.1 = q then (q, res) else r)
            fetching := ch.fetching.filter (fun g => g.1 != q), back := ch.back ++ [q] }))
    | _, _, _ => s

/-- R186, R188, R189: the last byte of the result of node q has left the operand buffer; it is in its slot in GDDR7 140
cycles later. -/
def State.spillWritten (s : State) (x c q : Nat) : State :=
  match s.chunk x c with
  | none => s
  | some ch =>
    let d := clDie ch.cluster
    match s.spillTurn d x c q true, ch.slots.find? (fun p => p.1 == q) with
    | some j, some p =>
      let addrs := s.slotAddrs x ch (ch.slotOf q)
      if s.arith < s.spillReady d j || s.aheadOfSpill addrs 4096 then s
      else
        let data := partialBytes (s.slotCode x) p.2
        let s := s.spillServed d
        let s := s.each addrs.zipIdx (fun s a =>
          let part := (data.drop (4096 * a.2)).take 4096
          (s.gddrWrite a.1 (part ++ List.replicate (4096 - part.length) 0)).2)
        s.setChunk x c (some { ch with leaving := ch.leaving.filter (· != q), away := ch.away ++ [(q, s.arith + 140)] })
    | _, _ => s

/-! Numeric state records (R125 to R128). -/

/-- R127, R128: a record at the start of warm-up: it counts as warm also where its channel has FAILED, for a read of it then
starts warm-up too. -/
def State.keepRecord (s : State) (a : Nat) (l : List Byte) : State :=
  (s.countChannel a l.length).setGddr a l

/-- R127: a record that starts warm-up. Outputs that are not block-scaled keep WARM = 0 (R128). -/
def State.warmRecord (s : State) (x : Nat) : NumRec :=
  { zrun := 0, raised := false, warm := if (blockFmt (s.outFmt x)).isSome then s.rd F.NUM_WARM_CFG_W_WARM else 0, hist := [] }

/-- NUM_WARM(x) follows a change of one chunk's WARM. -/
def State.syncWarm (s : State) (x before after : Nat) : State :=
  if before = 0 ∧ after ≠ 0 then s.inc F.NUM_WARM_CHUNKS 1 x
  else if before ≠ 0 ∧ after = 0 then s.wr F.NUM_WARM_CHUNKS (s.rd F.NUM_WARM_CHUNKS x - 1) x
  else s

/-- R126, R127: the record fetched at admission arrives, 40 arithmetic cycles after it (R249); an uncorrectable read starts
warm-up and ends cycle-exactness (R250). -/
def State.recordArrive (s : State) (x c : Nat) (bad : Bool) : State :=
  match s.chunk x c with
  | none => s
  | some ch =>
    if ch.place.isNone || !s.hasRecord x c || ch.record.isSome || decide (s.arith < ch.admitAt + 40) then s
    else
      let a := s.recordAddr x c
      match s.gddrRead a (recordSize (s.outFmt x)) (if bad then some a else none) with
      | (some l, s) => s.setChunk x c (some { ch with record := some (readNumRec l) })
      | (none, s) =>
        let old := readNumRec (s.mem.gddr.readN a (recordSize (s.outFmt x)))
        let r := s.warmRecord x
        let s := ((s.inc F.NUM_STATE_LOST_COUNT).raise (stopMem (gddrDie a)) 20 x).exactLoss F.SCH_EXACT_LOSS_ECC
        let rewarmed := old.warm == 0 && r.warm != 0
        (if rewarmed then s.inc F.NUM_WARM_CHUNKS 1 x else s).setChunk x c (some { ch with record := some r, rewarmed })

/-! Spine holds (R193, R196). -/

/-- R196: partials that spine j holds back no longer are sent: first those that were in the egress queue already. -/
def State.releasePartials (s : State) (t j : Nat) : State :=
  let go (h : HeldPartial) : Bool := h.queued.isSome && h.last == t && h.spine == j &&
    !s.partialHeld t j h.target.header.context h.target.header.chunk
  let l := s.comp.parts.filter go
  let s := { s with comp := { s.comp with parts := s.comp.parts.filter (fun h => !go h) } }
  let s := s.each l (fun s h =>
    let e : QEntry := { ptr := h.ptr, account := h.account, header := h.target.header, visible := h.queued.getD 0 }
    if s.groupOpp h.target.group then
      let o := { s.oppEntry e with since := e.visible }
      { s with sched := { s.sched with voq := s.sched.voq.upd [min h.requester 7, h.target.group, o.vc] (· ++ [o]) } }
    else { s with sched := { s.sched with queues := s.sched.queues.upd [h.target.group, h.target.last] (· ++ [e]) } })
  s.each ((s.comp.parts.map (fun h => h.target.header.context)).eraseDups) State.sendPartials

/-- R196, R229: the same for partials that an opportunistic uplink has on its virtual output queues, or in an egress FIFO. -/
def State.withdrawOpp (s : State) (t j : Nat) : State :=
  let b := s.spineGroup j
  let held (e : OppEntry) : Bool := e.session.isNone && e.sched.any (fun h =>
    h.skind == skPartial && s.lastOf h.context == t && s.partialHeld t j h.context h.chunk)
  let back (die : Nat) (e : OppEntry) : HeldPartial :=
    { last := t, spine := j, ptr := e.ptr, account := e.account, requester := die
      target := { group := b, last := t, header := e.sched.getD default }, queued := some e.since }
  let keep (s : State) (l : List HeldPartial) : State := { s with comp := { s.comp with parts := s.comp.parts ++ l } }
  let s := s.each ((s.groupPorts b).flatMap voqKeys) (fun s k =>
    let l := s.sched.voq.get k
    keep { s with sched := { s.sched with voq := s.sched.voq.set k (l.filter (fun e => !held e)) } }
      ((l.filter held).map (back (k.headD 0))))
  s.each (s.groupPorts b) (fun s p =>
    let l := s.sched.oppFifo.get [p]
    keep { s with sched := { s.sched with oppFifo := s.sched.oppFifo.set [p] (l.filter (fun e => !held e)) } }
      ((l.filter held).map (back 7)))

/-- R196: partials of last t beyond the limits of spine j that wait for the uplink are taken back. -/
def State.withdrawPartials (s : State) (t j : Nat) : State :=
  let k := [s.spineGroup j, t]
  let held (e : QEntry) : Bool := e.header.skind == skPartial && s.lastOf e.header.context == t &&
    s.partialHeld t j e.header.context e.header.chunk
  let q := s.sched.queues.get k
  let l := (q.filter held).map (fun e => ({
    last := t, spine := j, ptr := e.ptr, account := e.account, requester := reqMgt
    target := { group := s.spineGroup j, last := t, header := e.header }, queued := some e.visible } : HeldPartial))
  let s := { s with sched := { s.sched with queues := s.sched.queues.set k (q.filter (fun e => !held e)) } }
  { s with comp := { s.comp with parts := s.comp.parts ++ l } }

/-- The entries of a WINDOW_GRANT payload. -/
def grantEntries (l : List Byte) : List (Nat × Nat) :=
  (List.range (field l 2 2)).map (fun i => (field l (16 + 8 * i) 2, field l (20 + 8 * i) 4))

/-- R193, R196: a leaf receives a HOLD or OPEN frame from a spine. -/
def State.spineHold (s : State) : State :=
  match s.sched.grantsIn with
  | [] => s
  | (port, l, ptr) :: rest =>
    let s := ({ s with sched := { s.sched with grantsIn := rest } }).dropObj ptr 16 (reqPort (dieOfPort port))
    let t := field l 1 1 % 16
    let epoch := field l 4 4
    let j := port / 4 % max 1 s.spineCount
    let h := s.comp.spines.get [t, j]
    let put (s : State) (h : SpineHold) : State := { s with comp := { s.comp with spines := s.comp.spines.set [t, j] h } }
    if !s.accepted || !s.flag F.LST_CFG_VALID t || s.level t != levelSegment || port % 4 != 3 || decide (epoch < h.epoch) then s
    else if field l 0 1 = 1 then
      let limits := if h.held ∧ h.epoch = epoch then h.limits ++ grantEntries l else grantEntries l
      let s := put s { epoch, held := true, limits }
      let s := s.freeze t 3 none 400
      let s := s.setHold t { s.hold t with spines := if (s.hold t).spines.contains j then (s.hold t).spines else (s.hold t).spines ++ [j] }
      ((s.withdrawPartials t j).withdrawOpp t j).releasePartials t j
    else if field l 0 1 = 2 then
      let s := put s { epoch, held := false, limits := [] }
      let s := s.setHold t { s.hold t with spines := (s.hold t).spines.filter (· != j) }
      s.releasePartials t j
    else s

/-! Commit (R79). -/

/-- Parts of a result, with their bytes. -/
def resultParts (cap : Nat) (l : List Byte) : List (List Byte) :=
  (List.range (max 1 (ceilDiv l.length cap))).map (fun k => (l.drop (cap * k)).take cap)

/-- Every object gets its buffers, or none of them is stored: their pointers. -/
def State.allocAll (s : State) (account requester : Nat) : List Item → Option (List Nat × State)
  | [] => some ([], s)
  | i :: rest =>
    match s.allocNow i account requester with
    | (none, _) => none
    | (some p, s) => (s.allocAll account requester rest).map (fun r => (p :: r.1, r.2))

/-- R113 to R124, R128: the conversion of a chunk at the root, with its record. -/
def State.rootOut (s : State) (x c : Nat) (ch : Chunk) (res : List Elem) : RootOut :=
  let mode (e : Nat) : RoundMode :=
    if s.flag F.NUM_CFG_ROUND x then .stochastic (stochasticWord (s.rd F.NUM_SEED_SEED x) (s.opnum x) c e % 65536) else .nearest
  let hist := (ch.record.map NumRec.hist).getD []
  let warm := match ch.record with
    | none => true
    | some r => r.warm != 0
  let first := if warm && s.roundsOutput x then some (s.operandElems x c 0 ch).1 else none
  -- an OR works on bytes, whatever the format is called (R61)
  convertRoot (if s.operator x = oOr then fBYTES else s.outFmt x) mode (s.rd F.NUM_CFG_DECAY x) hist first res

/-- R124, R128, R134, R135: the record after a commit, written back, and the watch. -/
def State.updateRecord (s : State) (x c : Nat) (r : NumRec) (out : RootOut) (ev : ChunkEv) (die : Nat) : State :=
  let zero := out.vals.all (fun e => e.v.isZero)
  let zrun := if zero then (if ev.underflow = 0 then r.zrun else min 65535 (r.zrun + 1)) else 0
  let raised := if zero then r.raised else false
  let limit := s.rd F.NUM_ZR_LIMIT_LIMIT
  let fires := zero && ev.underflow != 0 && limit != 0 && decide (limit ≤ zrun) && !raised
  let new : NumRec := { zrun, warm := r.warm - 1, raised := raised || fires, hist := out.hist }
  let size := recordSize (s.outFmt x)
  let old := readNumRec (s.mem.gddr.readN (s.recordAddr x c) size)
  let (ok, s) := s.gddrWrite (s.recordAddr x c) (new.bytes size)
  let s := if ok then s.syncWarm x old.warm new.warm else s
  if fires then
    let s := s.inc F.NUM_ZR_COUNT 1 x
    let s := ((s.wr F.NUM_ZR_LAST_CONTEXT x).wr F.NUM_ZR_LAST_CHUNK c).wr F.NUM_ZR_LAST_VALID 1
    s.raise (stopCore die) 22 x
  else s

/-- R80, R118, R121: what the chunk counted becomes visible. -/
def State.countEvents (s : State) (x : Nat) (ev : ChunkEv) : State :=
  let s := ((s.inc F.NUM_SAT_COUNT ev.sat x).inc F.NUM_NONFIN_IN_COUNT ev.nonfinIn x).inc F.NUM_NONFIN_GEN_COUNT ev.nonfinGen x
  let s := s.inc F.NUM_UNDERFLOW_COUNT ev.underflow x
  let s := if ev.sat = 0 then s else s.wr F.OPC_STATE_SAT 1 x
  if ev.nonfinIn + ev.nonfinGen = 0 then s else s.wr F.OPC_STATE_NONFIN 1 x

/-- R130: chunk c is sampled by the shadow check. -/
def State.sampled (s : State) (x c : Nat) : Bool :=
  let k := s.rd F.NUM_GCFG_SHADOW_LOG2
  s.reducing x && s.operator x == oSum && accCode (s.inFmt x) (s.operator x) == fFP32 && !s.flag F.NUM_CFG_SHADOW_OFF x &&
    k != 31 && mix (Nat.xor (mix (Nat.lor (s.opnum x * 2 ^ 32) c % 2 ^ 64)) x) % 2 ^ k == 0

/-- R131: the FP64 evaluation of the chunk's tree: the root's elements. -/
def State.shadowRef (s : State) (x c : Nat) (ch : Chunk) : List Val :=
  let nodes := s.nodesOf x
  let results := nodes.foldl (fun (acc : List (List Val)) n =>
    let get (o : Src) : List Val := match o with
      | .operand r => (s.operandElems x c r ch).1.map (·.v)
      | .partial_ q => acc.getD q []
    acc ++ [match n.2 with
      | none => get n.1
      | some o => List.zipWith (fun a b => (fp64.add a b).1) (get n.1) (get o)]) []
  (results.getLast?).getD []

/-- R132: the errors of the elements that are compared. -/
def State.shadowErrs (s : State) (x c : Nat) (ch : Chunk) (res : List Elem) (out : Option RootOut) : List UlpErr :=
  let ref := s.shadowRef x c ch
  let code := if out.isSome then s.outFmt x else accCode (s.inFmt x) (s.operator x)
  match floatFmt code with
  | none => []
  | some f =>
    let vals := match out with
      | some o => o.vals
      | none => res
    let scale (i : Nat) : Int := match blockFmt code, out with
      | some b, some o => o.kOut.getD (i / b.elems) 0
      | _, _ => 0
    ((vals.zip ref).zipIdx).filterMap (fun p => ulpErr f (scale p.2) p.1.1 p.1.2)

/-- The inputs that a commit of chunk c releases. -/
def State.chunkInputs (s : State) (x c : Nat) : List Arrived :=
  ((s.op x).inputs.filter (fun i => i.live && i.item.header.chunk == c && i.item.header.skind != skResult)).map (·.item)

/-- R79, R131: the retained inputs of chunk c leave the operation: to the insole, or to the core die's monitor. -/
def State.releaseInputs (s : State) (x c : Nat) (ch : Chunk) (errs : Option (List UlpErr)) (outCells : Nat) : State :=
  let l := s.chunkInputs x c
  let gone (s : State) : State := s.setOp x (fun o => { o with
    inputs := o.inputs.map (fun i => if i.live ∧ l.contains i.item = true then { i with live := false } else i) })
  let d := clDie ch.cluster
  match errs with
  | none => gone (s.each l State.dropArrived)
  | some errs =>
    let m := s.comp.monitors.get [d]
    let elems := (((s.operandElems x c 0 ch).1).length)
    let smp : Sample := {
      context := x, chunk := c, inputs := l
      inCells := l.foldl (fun n a => n + cellsOf (s.payload a).length) 0
      outCells, adds := ((s.nodesOf x).filter (fun n => n.2.isSome)).length * elems, errs }
    let put (s : State) (m : Monitor) : State := { s with comp := { s.comp with monitors := s.comp.monitors.set [d] m } }
    if m.current.isNone then gone (put s { m with current := some smp, since := s.arith, read := false })
    else if m.waiting.isNone then gone (put s { m with waiting := some smp })
    else gone ((s.each l State.dropArrived).inc F.NUM_MON_STAT_SKIPPED 1 d)

/-- The lasts that have groups, and the part of a buffer's image granules that holds last t's image: its first granule
within the buffer, and how many. -/
def State.sporeLasts (s : State) : List Nat := s.lasts.filter (fun t => !(s.groups t).isEmpty)
def State.imagePart (s : State) (t : Nat) : Nat × Nat :=
  let n := s.rd F.CKP_REGION_IMAGE_GRANULES
  let l := s.sporeLasts
  let size := n / max 1 l.length
  (s.sporeHalf / 4096 - n + l.idxOf t * size, size)

/-- R354: the last epoch's every chunk has its parity written: it is committed, and its drain begins. -/
def State.epochCommitted (s : State) (t : Nat) : State :=
  match (s.sporeLast t).epoch with
  | none => s
  | some e =>
    let done := (s.groups t).all (fun g =>
      (s.op (s.rd F.CKP_GROUP_EPOCH_CTX t g)).committed.length == s.rd F.CKP_GROUP_SHARD_CHUNKS t g)
    if e.cut || e.committed || !done then s
    else
      let parity := (s.groups t).foldl (fun n g => n + s.rd F.CKP_GROUP_SHARD_CHUNKS t g * s.rd F.CKP_GROUP_M t g) 0
      let total := parity + (s.imagePart t).2
      let s := s.setSpore t (fun l => { l with
        epoch := some { e with committed := true }
        drains := l.drains ++ [{ epoch := e.number, since := s.now, buffer := e.buffer, total, full := e.full }] })
      let s := s.wr F.CKP_DRAIN_BYTES_LEFT (s.rd F.CKP_DRAIN_BYTES_LEFT + total * 4096)
      if (s.sporeLast t).recovery.isSome then s else s.wr F.CKP_LAST_STAT_STATE ckpLinger t

/-- R415: granules of the plan's shards, D, and the first granule of the data slot that holds chunk c of position i. -/
def State.shardGranules (s : State) : Nat :=
  s.lasts.foldl (fun n t => (s.groups t).foldl (fun n g =>
    n + s.rd F.CKP_GROUP_SIZE t g * s.rd F.CKP_GROUP_SHARD_CHUNKS t g) n) 0
def State.shardGranule (s : State) (t g i c slot : Nat) : Nat :=
  let before := s.lasts.foldl (fun n u => (s.groups u).foldl (fun n h =>
    if u < t ∨ (u = t ∧ h < g) then n + s.rd F.CKP_GROUP_SIZE u h * s.rd F.CKP_GROUP_SHARD_CHUNKS u h else n) n) 0
  2 * (s.sporeHalf / 4096) + slot * s.shardGranules + before + i * s.rd F.CKP_GROUP_SHARD_CHUNKS t g + c

/-- The bytes of a list of elements that are byte values. -/
def elemBytes (l : List Elem) : List Byte := l.map (fun e => BitVec.ofNat 8 e.v.toInt.toNat)

/-- R79: a chunk is committed: its context notes it and its cluster counts it. -/
def State.markCommitted (s : State) (x c : Nat) (ch : Chunk) : State :=
  (s.setOp x (fun o => { o with committed := o.committed ++ [c] })).inc F.CL_CHUNKS_COUNT 1 ch.cluster

/-- R263, R270: the block of account 19 through which spore-set bytes are staged. -/
def stagingBlock (bytes : Nat) : Item := .block (min 262144 (max 4097 bytes))

/-- R343, R415, R467: the tier's links that the spore area uses are up, and the memory dies hold its key. -/
def State.tierUp (s : State) : Bool :=
  s.mem.keyed && [0, 1].all (fun i => s.rd F.CKP_TIER_GIB i == 0 || s.cxlUp i) && (s.rd F.CKP_TIER_GIB 0 != 0 || s.rd F.CKP_TIER_GIB 1 != 0)

/-- R352, R353: commit of an epoch's chunk: its parity goes to the epoch's buffer, and in a full epoch its inputs to the
data slot, through a staging block of the chunk's memory die; without one the commit waits (R267), and so while the tier's
links are down for a full epoch, or requests of an earlier place wait at its channels (R411). -/
def State.commitEpoch (s : State) (x c : Nat) (ch : Chunk) (res : List Elem) (g : Nat) : State :=
  let t := ch.last
  let m := s.rd F.CKP_GROUP_M t g
  match (s.sporeLast t).epoch with
  | none => s
  | some e =>
    let inputs := if e.full.isSome then s.rd F.CKP_GROUP_SIZE t g else 0
    if e.full.isSome && !s.tierUp || s.aheadOfOthers ((List.range m).map (fun j => s.parityAddr t g c j e.buffer)) 4096 then s
    else match s.allocNow (stagingBlock (4096 * (m + inputs))) 19 (reqMem (c % 4)) with
    | (none, s) => s
    | (some p, s) =>
    let s := (s.countBlock p).freeObj p 19 (reqMem (c % 4))
    let n := res.length / max 1 m
    let writes := (List.range m).map (fun j => (s.parityAddr t g c j e.buffer, elemBytes ((res.drop (n * j)).take n)))
    let (ok, s) := writes.foldl (fun (acc : Bool × State) w =>
      let r := acc.2.gddrWrite w.1 w.2
      (acc.1 && r.1, r.2)) (true, s)
    let s := match e.full with
      | none => s
      | some slot => s.each (List.range (s.rd F.CKP_GROUP_SIZE t g)) (fun s i =>
          s.sporeWrite (s.shardGranule t g i c slot) ((s.operandData x c i).getD []))
    let s := (s.markCommitted x c ch).setOp x (fun o => { o with made := o.made + m, departed := o.departed + m })
    let s := (s.releaseInputs x c ch none 0).dropChunk x c
    if ok then (s.epochCommitted t).work [.settle x]
    else s.work [.close x stAborted]

/-- R270, R352, R367: a RESULT swatch of regrowth or restore goes to the port of a rank in the opportunistic class. -/
def State.pushShard (s : State) (x rank ptr die : Nat) (data : List Byte) : State :=
  let t := s.lastOf x
  let port := s.memberPort t ((s.operandOf t rank).getD 0)
  let (v, s) := s.fresh
  let s := s.setOp x (fun o => { o with made := o.made + 1 })
  ((s.countWrite ptr 19).addRefs ptr 1).pushVoq die port
    { ptr, account := 19, vc := 1 + v % 7, length := 64 + data.length, session := none, pendingCells := cellsOf data.length }

/-- R367: commit of a regrowth's chunk: one RESULT swatch for each lost position. -/
def State.commitRegrow (s : State) (x c : Nat) (ch : Chunk) (res : List Elem) (g : Nat) : State :=
  let t := ch.last
  let lost := s.lostPositions t g
  let n := res.length / max 1 lost.length
  let items := lost.zipIdx.map (fun p =>
    let data := elemBytes ((res.drop (n * p.2)).take n)
    let rank := s.rankOf t (s.rd F.CKP_GROUP_BASE t g + p.1)
    let h : SwHeader := { skind := skResult, context := x, opnum := s.opnum x, chunk := c, rank, length := data.length }
    (rank, h, data))
  match s.allocAll 19 (reqCore (clDie ch.cluster)) (items.map (fun i => .swatch i.2.1 i.2.2)) with
  | none => s
  | some (ptrs, s) =>
    let s := s.each (items.zip ptrs) (fun s p => s.pushShard x p.1.1 p.2 (min 7 (2 * clDie ch.cluster)) p.1.2.2)
    let s := s.markCommitted x c ch
    ((s.releaseInputs x c ch none 0).dropChunk x c).work [.settle x]

/-- R112, R150, R171, R196, R197, R486: commit of a chunk at a hall leaf: PARTIAL swatches for its spine. -/
def State.commitPartial (s : State) (x c : Nat) (ch : Chunk) (res : List Elem) : State :=
  let t := ch.last
  let req := reqCore (clDie ch.cluster)
  let parts := resultParts 4096 (partialBytes (accCode (s.inFmt x) (s.operator x)) res)
  let header (k : Nat) (l : List Byte) : SwHeader :=
    { skind := skPartial, partsM1 := parts.length - 1, part := k, context := x, opnum := s.opnum x, chunk := c
      rank := s.rd F.LST_SEG_INDEX t, length := l.length, weight := s.rd F.LST_SEG_SIZE t }
  let items := parts.zipIdx.map (fun p => (header p.2 p.1, p.1))
  match s.allocAll t req (items.map (fun i => .swatch i.1 i.2)) with
  | none => s
  | some (ptrs, s) =>
    let j := s.spineOf x c
    let errs := if s.sampled x c then some (s.shadowErrs x c ch res none) else none
    let s := s.each (items.zip ptrs) (fun s p =>
      let s := s.countAccess F.INS_GROUP_SCHED_ACCESSES p.2
      let s := s.setOp x (fun o => { o with made := o.made + 1 })
      let h : HeldPartial := { last := t, spine := j, ptr := p.2, account := t, requester := req, target := s.spineTarget t j p.1.1 }
      { s with comp := { s.comp with parts := s.comp.parts ++ [h] } })
    let s := s.sendPartials x
    let s := (s.countEvents x ch.ev).markCommitted x c ch
    let s := s.releaseInputs x c ch errs (parts.foldl (fun n l => n + cellsOf l.length) 0)
    (s.dropChunk x c).work [.settle x]

/-- R171, R216, R486: the targets of a RESULT made here. -/
def State.rootTargets (s : State) (x c : Nat) (h : SwHeader) : List Target :=
  let t := s.lastOf x
  let (i, n) := match (s.op x).first with
    | none => (0, 1)
    | some d => (c - d.chunkBase, d.chunks)
  let owner := ownerRank (s.rd F.LST_CFG_RANKS t) n i
  let upper := s.level t == levelUpper
  let rs := if s.kind x != kReduceScatter then s.operands t
    else if upper then [s.leafOfRank x c owner]
    else (s.operands t).filter (fun r => s.rankOf t r == owner)
  rs.map (fun r => s.memberTarget t r { h with rank := if upper then r else s.rankOf t r })

/-- R79, R114 to R135, R150, R215: commit of a chunk whose output this switch makes. -/
def State.commitResult (s : State) (x c : Nat) (ch : Chunk) (res : List Elem) : State :=
  let t := ch.last
  let die := clDie ch.cluster
  let req := reqCore die
  let out := s.rootOut x c ch res
  let parts := resultParts (fmtCap (s.outFmt x)) out.bytes
  let header (k : Nat) (l : List Byte) : SwHeader :=
    { skind := skResult, partsM1 := parts.length - 1, part := k, context := x, opnum := s.opnum x, chunk := c, length := l.length }
  let items := parts.zipIdx.map (fun p => (header p.2 p.1, p.1))
  match s.allocAll t req (items.map (fun i => .swatch i.1 i.2)) with
  | none => s
  | some (ptrs, s) =>
    let errs := if s.sampled x c then some (s.shadowErrs x c ch res (some out)) else none
    let ev := ch.ev.add out.ev
    let s := s.each (items.zip ptrs) (fun s p =>
      let ts := s.rootTargets x c p.1.1
      let s := s.countAccess F.INS_GROUP_SCHED_ACCESSES p.2
      (s.setOp x (fun o => { o with made := o.made + ts.length })).multicast p.2 t req ts)
    let s := s.countEvents x ev
    let block := (blockFmt (s.outFmt x)).isSome
    let warm := s.roundsOutput x && block && (match ch.record with
      | none => true
      | some r => r.warm != 0)
    let s := if warm then s.wr F.OPC_STATE_WARM 1 x else s
    let s := match ch.record with
      | none => s
      | some r => ((s.dropWarm x ch).setChunk x c (some { ch with rewarmed := false })).updateRecord x c r out ev die
    let s := s.markCommitted x c ch
    let s := s.releaseInputs x c ch errs (parts.foldl (fun n l => n + cellsOf l.length) 0)
    (s.dropChunk x c).work [.settle x]

/-- R79: chunk c of context x commits, when its root has issued, its last result word has been written and every verdict
is clean, and its result has its buffers. -/
def State.chunkCommit (s : State) (x c : Nat) : State :=
  match s.chunk x c with
  | none => s
  | some ch =>
    match ch.root with
    | none => s
    | some res =>
      if s.arith < ch.lastAt + 7 ∨ (s.hasRecord x c = true ∧ ch.record = none) then s
      else if s.kind x = kParity then
        (match s.sporeGroup x with
        | some (g, true) => s.commitEpoch x c ch res g
        | some (g, false) => s.commitRegrow x c ch res g
        | none => s)
      else if s.level ch.last = levelSegment then s.commitPartial x c ch res
      else s.commitResult x c ch res

/-! The numeric monitor (R131 to R133). -/

def State.setMonitor (s : State) (d : Nat) (m : Monitor) : State :=
  { s with comp := { s.comp with monitors := s.comp.monitors.set [d] m } }

/-- R131: the monitor of core die d has read the last input cell of its sample. -/
def State.monitorRead (s : State) (d : Nat) : State :=
  let m := s.comp.monitors.get [d]
  match m.current with
  | none => s
  | some smp =>
    if m.read ∨ s.arith < m.since + smp.inCells then s
    else
      let s := s.each smp.inputs (fun s a => (s.countAccess F.INS_GROUP_SCHED_ACCESSES a.ptr).dropArrived a)
      s.setMonitor d { m with current := some { smp with inputs := [] }, read := true }

/-- R132, R133: the FP64 evaluation of a sample ends, and the chunk is counted. -/
def State.shadowComplete (s : State) (d : Nat) : State :=
  let m := s.comp.monitors.get [d]
  match m.current with
  | none => s
  | some smp =>
    if !m.read ∨ s.arith < m.since + smp.inCells + smp.outCells + ceilDiv smp.adds 8 then s
    else
      let x := smp.context
      let tol := 2 * s.rd F.NUM_GCFG_SHADOW_TOL
      let s := s.setMonitor d { current := m.waiting, since := s.arith, read := false, waiting := none }
      let s := (s.inc F.NUM_MON_STAT_DONE 1 d).inc F.NUM_SHADOW_SAMPLES 1 x
      let s :=
        if smp.errs.all (·.within 1) then s.inc F.NUM_SHADOW_AGREE 1 x
        else if smp.errs.all (·.within tol) then s.inc F.NUM_SHADOW_WITHIN 1 x
        else s.inc F.NUM_SHADOW_BEYOND 1 x
      let worst := (smp.errs.map UlpErr.sixteenths).foldl max 0
      let s := s.wr F.NUM_SHADOW_MAX_MAX (max (s.rd F.NUM_SHADOW_MAX_MAX x) (min worst (2 ^ 32 - 1))) x
      let far := (smp.errs.filter (fun e => !e.within tol)).length
      if s.rd F.NUM_GCFG_SHADOW_LIMIT < far then
        let s := ((s.wr F.NUM_SHADOW_LAST_CONTEXT x).wr F.NUM_SHADOW_LAST_CHUNK smp.chunk).wr F.NUM_SHADOW_LAST_ELEMENTS (min far 65535)
        s.raise (stopCore d) 21 x
      else s

end Sys2Proof.Machine
end

