-- ==== Sys2Proof/Machine/Line.lean ====
section
/-!
DEFINITION. The line below the blocks: PAM4 levels, the scrambler, comma blocks, the blocks of a codeword, and the test
patterns (R298, R300, R305, R313).
-/

namespace Sys2Proof.Machine

/-! ### PAM4 and test patterns -/

/-- R298: the bit pair of a PAM4 level, the earlier bit first: a Gray code. -/
def levelBits (level : Nat) : Bool × Bool := (decide (2 ≤ level), level == 1 || level == 2)

/-- R298: the PAM4 level of a bit pair. -/
def bitsLevel (first second : Bool) : Nat := if first then (if second then 2 else 3) else (if second then 1 else 0)

/-- R313: bits of the two patterns' generators, by the setting of PRT_TEST: 1 PRBS31Q, 2 PRBS13Q. -/
def prbsDegree (pattern : Nat) : Nat := if pattern = 1 then 31 else 13

/-- The bits of a level join a pattern's latest bits, newest first. -/
def levelPush (level : Nat) (bits : List Bool) : List Bool :=
  let (a, b) := levelBits level
  (b :: a :: bits).take 31

/-- R313: the next bit of a pattern after its latest bits, newest first. PRESUMED (log 136): the polynomials of IEEE 802.3,
1 + x²⁸ + x³¹ with its output inverted, and 1 + x + x² + x¹² + x¹³. -/
def prbsNext (pattern : Nat) (bits : List Bool) : Bool :=
  let at_ (n : Nat) : Bool := bits.getD (n - 1) false
  if bits.length < prbsDegree pattern then Config.prbsStart pattern bits
  else if pattern = 1 then !(at_ 28 != at_ 31)
  else ((at_ 1 != at_ 2) != at_ 12) != at_ 13

/-- R313: the next level of a pattern, and its latest bits after it. -/
def prbsLevel (pattern : Nat) (bits : List Bool) : Nat × List Bool :=
  let a := prbsNext pattern bits
  let b := prbsNext pattern (a :: bits)
  (bitsLevel a b, (b :: a :: bits).take 31)

/-- R313: bit errors of a received level, after Gray decoding. -/
def levelErrors (want got : Nat) : Nat :=
  let (a, b) := levelBits want
  let (c, d) := levelBits got
  (if a = c then 0 else 1) + (if b = d then 0 else 1)

/-! ### Scrambler -/

/-- R298: the self-synchronising descrambler 1 + x³⁹ + x⁵⁸ over `n` bits, bit 0 first: each bit is the received one
exclusive-or those 39 and 58 before it. `hist`: the 58 bits received before, the latest in bit 57. -/
def descramble (n hist v : Nat) : Nat × Nat :=
  let all := hist + v * 2 ^ 58
  (Nat.xor (Nat.xor v (all / 2 ^ 19)) all % 2 ^ n, all / 2 ^ n)

/-- R298: the scrambler 1 + x³⁹ + x⁵⁸ over `n` bits, bit 0 first: each bit exclusive-or those sent 39 and 58 before it.
`hist`: the 58 bits sent before, the latest in bit 57. -/
def scramble : Nat → Nat → Nat → Nat
  | 0, _, _ => 0
  | n + 1, hist, v =>
    let b := b2n (v.testBit 0 != (hist.testBit 19 != hist.testBit 0))
    b + 2 * scramble n (hist / 2 + b * 2 ^ 57) (v / 2)

/-! ### Comma blocks -/

/-- R300: PATTERN. -/
def commaPattern : Nat := 0x8E3C1F5A6B29D4C7

/-- R300: the 120 bits of a comma block. -/
def Comma.bits (c : Comma) : Nat :=
  let low := commaPattern + c.lane * 2 ^ 64 + c.mode * 2 ^ 66 + c.pcount * 2 ^ 68 + c.port * 2 ^ 84
  low + commaCrc low * 2 ^ 104

/-- R300, R301: a comma block whose PATTERN matches and whose CHECK is correct. -/
def readComma (v : Nat) : Option Comma :=
  if v % 2 ^ 64 = commaPattern ∧ v / 2 ^ 104 = commaCrc (v % 2 ^ 104) then
    some { lane := v / 2 ^ 64 % 4, mode := v / 2 ^ 66 % 4, pcount := v / 2 ^ 68 % 65536, port := v / 2 ^ 84 % 256 }
  else none

/-! ### Blocks -/

/-- R305: the ten blocks of 514 bits of a codeword's payload: a 2-bit header, then 64 bytes. -/
def readBlocks (payload : Nat) : List RxBlock :=
  (List.range 10).map (fun i =>
    let b := payload / 2 ^ (514 * i) % 2 ^ 514
    { header := b % 4, data := bytesLE 64 (b / 4), uncorr := false })

end Sys2Proof.Machine
end

