-- ==== Sys2Proof/Machine/Link.lean ====
section
/-!
DEFINITION. Fabric links: lanes, link states, blocks and frames, FEC counts, tests, flow control and laser modules
(R293 to R322).
-/

namespace Sys2Proof.Machine

def State.lane (s : State) (p k : Nat) : Lane := s.link.lanes.get [p, k]
def State.setLane (s : State) (p k : Nat) (l : Lane) : State :=
  { s with link := { s.link with lanes := s.link.lanes.set [p, k] l } }
def lanes4 : List Nat := [0, 1, 2, 3]

/-- PRT_LINK_STAT.LOCK shows the lanes that are LOCKED. -/
def State.syncLock (s : State) (p : Nat) : State :=
  s.wr F.PRT_LINK_STAT_LOCK (lanes4.foldl (fun a k => if (s.lane p k).state = .locked then a + 2 ^ k else a) 0) p

/-- A lane returns to HUNT (R301). -/
def Lane.toHunt (l : Lane) : Lane := { l with state := .hunt, count := 0, misses := 0, uncorrRun := 0, blocks := [] }

/-- R301: every lane of a port returns to HUNT. -/
def State.huntAll (s : State) (p : Nat) : State :=
  (s.each lanes4 (fun s k => s.setLane p k (s.lane p k).toHunt)).syncLock p

/-- R293, R303: OFF when ENABLE is 0, the port, its engine or its laser module is unpowered, or a block reset holds it
(R385). A module that is removed, has failed or is not enabled gives no light to its 16 ports. -/
def State.portOff (s : State) (p : Nat) : Bool :=
  !s.flag F.PRT_LINK_CFG_ENABLE p || !s.portOn p || !s.flag F.PRT_LSM_STAT_ENABLED (engineOfPort p) ||
    (s.port p).offUntil.isSome

/-- R312: a generator, a checker or a loopback of port p is selected. -/
def State.testOn (s : State) (p : Nat) : Bool :=
  s.flag F.PRT_TEST_LOOP p || s.flag F.PRT_TEST_GEN p || s.flag F.PRT_TEST_CHK p

/-- R303, R312: the link state of a port that is not UP follows its test, and else its lanes. -/
def State.syncLink (s : State) (p : Nat) : State :=
  let st := s.rd F.PRT_LINK_STAT_STATE p
  if s.testOn p then (s.wr F.PRT_LINK_STAT_STATE linkTest p).huntAll p
  else if s.portOff p then (s.wr F.PRT_LINK_STAT_STATE linkOff p).huntAll p
  else if st = linkUp then s
  else
    let ls := lanes4.map (s.lane p)
    if ls.all (fun l => !l.signal) then s.wr F.PRT_LINK_STAT_STATE linkNoSignal p
    else if ls.any (fun l => l.state != .locked) then s.wr F.PRT_LINK_STAT_STATE linkAligning p
    else s.wr F.PRT_LINK_STAT_STATE linkDeskew p

/-- PRT_DISC_SUM counts the ports in each outcome (R333). -/
def State.syncDiscSum (s : State) : State :=
  let n (o : Nat) : Nat := ((List.range 256).filter (fun p => s.rd F.PRT_DISC_OUTCOME p == o)).length
  let s := s.wr F.PRT_DISC_SUM_QUARANTINED ((List.range 256).filter (fun p => s.flag F.PRT_DISC_QUAR p)).length
  let s := s.wr F.PRT_DISC_SUM_FW_DIFF (n 6)
  let s := s.wr F.PRT_DISC_SUM_EXTRA (n 3)
  let s := s.wr F.PRT_DISC_SUM_MISMATCH (n 5)
  let s := s.wr F.PRT_DISC_SUM_MISSING (n 4)
  s.wr F.PRT_DISC_SUM_MATCHED (n 1 + n 8)

/-- R334: LST_MEMBER.PRESENT is 1 exactly while the member's port has outcome MATCHED, FW_DIFF or REMAPPED. -/
def State.syncPresent (s : State) : State :=
  (s.each s.lasts (fun s t => s.each (s.operands t) (fun s r =>
    let o := s.rd F.PRT_DISC_OUTCOME (s.rd F.LST_MEMBER_PORT t r)
    s.wr F.LST_MEMBER_PRESENT (b2n (o == 1 || o == 6 || o == 8)) t r))).syncFailing

/-- R429: while MEMBER_REPLACE (opcode 5) waits for its port, HST_OP_DETAIL[3:0] holds the port's outcome. -/
def State.syncReplace (s : State) : State :=
  s.each (List.range 8) (fun s i => match s.host.ops.get [i] with
    | none => s
    | some op => if op.opcode = 5 ∧ op.loading = true then
        s.wr F.HST_OP_DETAIL_DETAIL (s.rd F.PRT_DISC_OUTCOME (bits (op.args.getD 0 0) 31 24)) i else s)

/-- R333: a port's outcome changes: counted, recorded. -/
def State.setOutcome (s : State) (p o : Nat) : State :=
  if s.rd F.PRT_DISC_OUTCOME p = o then s
  else
    let s := (s.wr F.PRT_DISC_OUTCOME o p).syncReplace
    let s := s.inc F.PRT_DISC_GEN_GEN
    (s.trigger 3 0xFF 0 (s.rd F.EVR_CFG_SET_DISC) (256 * p + o)).syncDiscSum.syncPresent

/-- What discovery expects of a port (R332). -/
inductive Expected where
  | notCompared
  | nobody
  /-- Two LST_MEMBER entries that name the port disagree. -/
  | conflict
  | benlas
  | accel (ident : Nat)
  | switch (kind plane index port : Nat)
  deriving DecidableEq, Repr

/-- R332: S is a power of two from 1 to 64. -/
def goodSpines (n : Nat) : Bool := [1, 2, 4, 8, 16, 32, 64].contains n

/-- R332: the plan is loaded: its state is not EMPTY. -/
def State.planLoaded (s : State) : Bool := s.planState != planEmpty

/-- R332: the expected neighbour of port p. -/
def State.expected (s : State) (p : Nat) : Expected :=
  let idents := (s.lasts.filter (fun t => s.rd F.LST_CFG_LEVEL t ≤ 1)).flatMap (fun t =>
    ((s.operands t).filter (fun r => s.flag F.LST_MEMBER_VALID t r && s.rd F.LST_MEMBER_PORT t r == p)).map
      (fun r => s.rd F.LST_MEMBER_IDENT t r))
  let n := s.rd F.LST_PLAN_CFG_SPINES
  let plane := s.rd F.PRT_DISC_CFG_PLANE
  if !s.planLoaded then .notCompared
  else if s.flag F.PRT_LINK_CFG_BENLAS p then .benlas
  else match idents with
    | i :: rest => if rest.all (· == i) then .accel i else .conflict
    | [] =>
      if s.rd F.GLB_ROLE_ROLE = 1 ∧ p % 4 = 3 ∧ goodSpines n = true then
        .switch 2 plane (p / 4 % n) (s.rd F.PRT_DISC_CFG_SWITCH_INDEX * (64 / n) + p / 4 / n)
      else if s.rd F.GLB_ROLE_ROLE = 2 ∧ goodSpines n = true ∧ p / (64 / n) < s.rd F.PRT_DISC_CFG_LEAVES then
        .switch 1 plane (p / (64 / n)) (4 * (p % (64 / n) * n + s.rd F.LST_PLAN_CFG_SPINE_INDEX) + 3)
      else .nobody

/-- R333: the outcome of a port that is not UP or has not concluded: MISSING where a neighbour is expected, else none.
-/
def State.waitingOutcome (s : State) (p : Nat) : Nat :=
  match s.expected p with
  | .notCompared | .nobody => 0
  | _ => 4

/-- R304, R333, R334, R337: a port leaves UP: fence, fault, count, the frame in reception discarded, the frame being sent
cut short, quarantine and XOFF state ended, discovery back to DOWN. -/
def State.portDown (s : State) (p : Nat) : State :=
  if !s.portUp p then s
  else
    let s := s.hwFence p
    let s := s.raise (stopPort (dieOfPort p)) 33 p
    let s := s.inc F.PRT_LINK_STAT_DOWNS 1 p
    let s := s.setPort p (fun pt => { pt with
      rx := [], rxSkip := false, upSince := none, ctl := [], identHeld := none, concluded := false, rxXoffSince := [], stalled := [] })
    let s := s.wr F.PRT_FC_STAT_RX_XOFF 0 p
    let s := match s.sched.sending.get [p] with
      | none => s
      | some x => { s with sched := { s.sched with sending := s.sched.sending.set [p] (some { x with broken := true }) } }
    let s := s.wr F.PRT_LINK_STAT_STATE linkAligning p
    let s := (s.wr F.PRT_DISC_STATE 0 p).wr F.PRT_DISC_QUAR 0 p
    let s := s.setOutcome p (s.waitingOutcome p)
    s.syncDiscSum.syncLink p

/-- R304, R337: a port one of whose lanes is not LOCKED leaves UP; one that has been remapped in this cycle in the next. -/
def State.leaveUp (s : State) (p : Nat) : State :=
  if !s.portUp p || lanes4.all (fun k => (s.lane p k).state == .locked) then s
  else if s.marked (.remapped p) then { s with link := { s.link with downNext := s.link.downNext ++ [p] } }
  else s.portDown p
def State.leaveUps (s : State) : State :=
  ({ s with link := { s.link with downNext := [] } }).each s.link.downNext State.leaveUp

/-- R301: a lane's expected position, or a good comma block at any position in HUNT; a receiver that looks for comma
blocks has signal. `found`: the 120 bits found there. -/
def State.commaBlock (s : State) (p k : Nat) (found : Option Nat) : State :=
  let l := s.lane p k
  let good := (found.bind readComma).filter (fun c => c.mode == s.rd F.PRT_LINK_CFG_RATE p)
  if s.portOff p || s.rd F.PRT_LINK_STAT_STATE p == linkTest then s
  else
    let l' : Lane := match l.state, good with
      | .hunt, none => { l with signal := true }
      | .hunt, some c => { l with state := .verify, count := 1, signal := true, lane := c.lane, pcount := c.pcount, arrived := s.now }
      | .verify, none => l.toHunt
      | .verify, some c =>
        if 3 ≤ l.count + 1 then
          { l with state := .locked, count := 3, misses := 0, uncorrRun := 0, lane := c.lane, pcount := c.pcount, arrived := s.now }
        else { l with count := l.count + 1, lane := c.lane, pcount := c.pcount, arrived := s.now }
      | .locked, none => if 4 ≤ l.misses + 1 then l.toHunt else { l with misses := l.misses + 1 }
      | .locked, some c => { l with misses := 0, lane := c.lane, pcount := c.pcount, arrived := s.now }
    ((s.setLane p k l').syncLock p).syncLink p

/-- R301: loss of signal. -/
def State.lossOfSignal (s : State) (p k : Nat) : State :=
  ((s.setLane p k { (s.lane p k).toHunt with signal := false }).syncLock p).syncLink p

/-- The physical lane that carries logical lane l (R302). -/
def State.physical (s : State) (p l : Nat) : Nat := (lanes4.find? (fun k => (s.lane p k).lane == l)).getD l

/-- R298, R305: the payload of a codeword passes the descrambler, and while the port is UP its ten blocks wait for their
slots. -/
def State.takePayload (s : State) (p k payload : Nat) (uncorr : Bool) : State :=
  let l := s.lane p k
  let (clear, hist) := descramble 5140 l.scrambled payload
  let blocks := if s.portUp p then l.blocks ++ (readBlocks clear).map (fun b => { b with uncorr }) else l.blocks
  s.setLane p k { l with scrambled := hist, blocks }

/-- R310, R301: logical lane l decodes a codeword: `some n` with n symbols corrected, `none` uncorrectable. -/
def State.codeword (s : State) (p l : Nat) (corrected : Option Nat) (payload : Nat) : State :=
  let k := s.physical p l
  let s := s.takePayload p k payload corrected.isNone
  let s := s.inc F.PRT_FEC_CW_CODEWORDS 1 p l
  match corrected with
  | some n =>
    let s := s.inc F.PRT_FEC_ERR_SYMBOLS n p l
    let s := if 1 ≤ n ∧ n ≤ 15 then s.inc F.PRT_FEC_HIST_COUNT 1 p (n - 1) else s
    let s := s.setPort p (fun pt => { pt with secSyms := pt.secSyms + n })
    s.setLane p k { s.lane p k with uncorrRun := 0 }
  | none =>
    let s := s.inc F.PRT_FEC_ERR_UNCORR 1 p l
    let s := s.setPort p (fun pt => { pt with secUncorr := pt.secUncorr + 1 })
    let ln := s.lane p k
    if ln.state = .locked ∧ 32 ≤ ln.uncorrRun + 1 then ((s.setLane p k ln.toHunt).syncLock p).syncLink p
    else s.setLane p k { ln with uncorrRun := ln.uncorrRun + 1 }

/-- R311: at a whole second of plane time the trends update, the long one once 60 seconds are complete, and a port whose
uncorrectable codewords of the second reach UNCORR_LIMIT raises its fault. -/
def State.fecSecond (s : State) : State :=
  s.each (List.range 256) (fun s p =>
    let pt := s.port p
    let s := s.wr F.PRT_FEC_TREND_SHORT (min pt.secSyms (2 ^ 32 - 1)) p
    let seconds := (pt.secSyms :: pt.seconds).take 60
    let s := if seconds.length = 60 then s.wr F.PRT_FEC_TREND_LONG (min (seconds.foldl (· + ·) 0) (2 ^ 32 - 1)) p else s
    let lim := s.rd F.PRT_LINK_CFG_UNCORR_LIMIT p
    let s := if lim ≠ 0 ∧ lim ≤ pt.secUncorr then s.raise (stopPort (dieOfPort p)) 34 p else s
    s.setPort p (fun pt => { pt with secSyms := 0, secUncorr := 0, seconds }))

/-- R322: the credits granted on each virtual channel at UP, in ascending v, up to 2,048 in all. -/
def State.grantCredits (s : State) (p : Nat) : State :=
  ((List.range 8).foldl (fun (acc : Nat × State) v =>
    let g := min (acc.2.rd F.PRT_FC_CFG_XOFF_AT p v) acc.1
    (acc.1 - g, acc.2.wr F.PRT_CREDIT_RX_OUT g p v)) (2048, s)).2

/-- R302: a port in DESKEW at a comma set: its lanes are aligned and reordered and it goes UP, or it retries, and after
8 failed sets every lane returns to HUNT. `granted`: the credits the neighbour grants at UP (R322). -/
def State.deskew (s : State) (p : Nat) (granted : List Nat) : State :=
  if s.rd F.PRT_LINK_STAT_STATE p ≠ linkDeskew then s
  else
    let ls := lanes4.map (s.lane p)
    let ids := ls.map (·.lane)
    let times := ls.map (·.arrived)
    let ok := decide ids.Nodup && ls.all (fun l => l.state == .locked && l.pcount == (s.lane p 0).pcount) &&
      decide ((times.foldl max 0) - (times.foldl min (s.lane p 0).arrived) ≤ 504)
    if ok then
      let s := s.wr F.PRT_LINK_STAT_STATE linkUp p
      let s := s.wr F.PRT_LINK_STAT_LANE_MAP (lanes4.foldl (fun a k => a + (s.lane p k).lane * 4 ^ k) 0) p
      let s := s.wr F.PRT_LINK_STAT_RATE (s.rd F.PRT_LINK_CFG_RATE p) p
      let s := s.wr F.PRT_LINK_STAT_CREDIT (s.rd F.PRT_LINK_CFG_CREDIT p) p
      let s := s.wr F.PRT_FC_STAT_RX_XOFF 0 p
      let s := s.setPort p (fun pt => { pt with
        deskewFails := 0, upSince := some s.now, txSeq := 0, rxSeq := 0, rx := [], rxSkip := false, slot := 0
        ownCredit := s.rd F.PRT_LINK_CFG_CREDIT p, iseq := 0, identHeld := none
        identity := [], agreedSent := 0, concluded := false, returned := [], peerTotals := [], rxXoffSince := [], stalled := [] })
      let s := s.each lanes4 (fun s k => s.setLane p k { s.lane p k with blocks := [] })
      let s := s.each (List.range 8) (fun s v => s.wr F.PRT_CREDIT_TX_AVAIL (granted.getD v 0) p v)
      let s := s.grantCredits p
      let s := s.wr F.PRT_DISC_STATE 1 p
      s.setOutcome p (s.waitingOutcome p)
    else
      let n := (s.port p).deskewFails + 1
      if 8 ≤ n then
        let s := (s.setPort p (fun pt => { pt with deskewFails := 0 })).huntAll p
        (s.inc F.PRT_RX_ERR_FRAMING 1 p).syncLink p
      else s.setPort p (fun pt => { pt with deskewFails := n })

/-- R299, R303, R312: the port goes to ALIGNING afresh; while a test is selected it stays in TEST. -/
def State.realign (s : State) (p : Nat) : State := ((s.portDown p).huntAll p).syncLink p

/-- R303, R218: ENABLE 0 takes the port OFF and sets its fence; 1 brings it back. -/
def State.setEnable (s : State) (p : Nat) (en : Bool) : State :=
  if s.flag F.PRT_LINK_CFG_ENABLE p = en then s
  else if en then (s.wr F.PRT_LINK_CFG_ENABLE 1 p).realign p
  else
    let s := s.portDown p
    ((s.wr F.PRT_LINK_CFG_ENABLE 0 p).hwFence p).syncLink p

/-- R225, R299: a change of RATE, 0b01 or 0b10; GUARD follows the mode, and the link comes up again. -/
def State.setRate (s : State) (p rate : Nat) : State :=
  if (rate ≠ 1 ∧ rate ≠ 2) ∨ s.rd F.PRT_LINK_CFG_RATE p = rate then s
  else
    let s := s.wr F.PRT_LINK_CFG_RATE rate p
    (s.wr F.SCH_PORT_CFG_GUARD (if rate = 2 then 117 else 59) p).realign p

/-- R305: the block in the next slot of an UP port, slot n on logical lane n mod 4, and the state without it. -/
def State.nextBlock (s : State) (p : Nat) : Option (RxBlock × State) :=
  let n := (s.port p).slot
  let k := s.physical p (n % 4)
  if !s.portUp p then none
  else match (s.lane p k).blocks with
    | [] => none
    | b :: rest =>
      some (b, (s.setLane p k { s.lane p k with blocks := rest }).setPort p (fun pt => { pt with slot := (n + 1) % 163840 }))

/-- R305, R306: the next slot holds block b, with a data header or an invalid one. -/
def State.dataBlock (s : State) (p : Nat) (b : RxBlock) : State :=
  match s.nextBlock p with
  | none => s
  | some (c, t) =>
    if b.header = 2 || c != b then s
    else if b.header = 1 then if s.isSafe then t else
      (t.setPort p (fun pt => { pt with rx := pt.rx ++ b.data.map (fun c => (c, b.uncorr)) })).syncFifo p
    else t.inc F.PRT_RX_ERR_FRAMING 1 p

/-- R309: control block b of the next slot is checked; one that passes waits to be processed. IDLE and reserved types do
nothing. -/
def State.controlBlock (s : State) (p : Nat) (b : RxBlock) : State :=
  match s.nextBlock p with
  | none => s
  | some (c, t) =>
    if b.header != 2 || c != b then s
    else if b.uncorr || !ctlOk b.data then t.inc F.PRT_RX_ERR_CBLOCK 1 p
    else
      let c := readCtl b.data
      if 1 ≤ c.ctype ∧ c.ctype ≤ 3 ∧ s.isSafe = false then t.setPort p (fun pt => { pt with ctl := pt.ctl ++ [c] }) else t

/-- The oldest control block of a type that waits on p, and the state without it. -/
def State.takeCtl (s : State) (p t : Nat) : Option (CtlBlock × State) :=
  match (s.port p).ctl.find? (fun c => c.ctype == t) with
  | none => none
  | some c => some (c, s.setPort p (fun pt => { pt with ctl := pt.ctl.erase c }))

/-- The last a scheduled frame lands for (R235, R236). -/
def State.landingLast (s : State) (i : Item) : Nat :=
  match i.context with
  | none => noLast
  | some x => if s.undeclared x then noLast else s.lastOf x

/-- R285, R307, R315, R334: a whole opportunistic frame is dropped or goes on: into the switch, to the egress port `dst`, or
to the Herith itself or the host where there is none. What is dropped takes no place in the FIFO (R322). -/
def State.oppReceive (s : State) (p : Nat) (f : Frame) (dst : Option Nat) : State :=
  let len := f.item.linkLength
  let (pass, s) := s.police p f.vc len
  if !pass then s.returnCredits p f.vc len
  else if 131072 < s.fifoTotal p + len then (s.bpmDrop 16).returnCredits p f.vc len
  else
    let s := s.fifoAdd p f.vc len
    match f.item, dst with
    | .swatch .., _ => s.release p f.item (some f.vc)
    | .descriptor _, _ => s.release p f.item (some f.vc)
    | i, some d => s.request (reqPort (dieOfPort p)) 16 i (.forward p d f.vc)
    | i, none => s.request (reqPort (dieOfPort p)) 16 i (.own p f.vc)

/-- R307, R308, R334: a whole frame at the head of the received bytes is checked, and kept or discarded. `dst`: the egress
port of an opportunistic frame that is not a swatch or descriptor; none: the Herith or the host. -/
def State.frameReceive (s : State) (p : Nat) (dst : Option Nat) : State :=
  let pt := s.port p
  let rx := if pt.rxSkip then resync pt.rx else pt.rx
  if !s.portUp p then s
  else match scanFrame rx with
    | .more => (s.setPort p (fun pt => { pt with rx, rxSkip := pt.rxSkip && rx.isEmpty })).syncFifo p
    | .bad e rest skip =>
      let rest' := if skip then resync rest else rest
      let s := (s.setPort p (fun pt => { pt with rx := rest', rxSkip := skip && rest'.isEmpty })).syncFifo p
      -- R322: a whole frame that is discarded leaves the FIFO
      let s := s.each (if skip then [] else rxFrames 1 rx) (fun s f => if f.1 then s else s.returnCredits p f.2.1 f.2.2)
      (match e with
      | .framing => s.inc F.PRT_RX_ERR_FRAMING 1 p
      | .crc => s.inc F.PRT_RX_ERR_CRC 1 p)
    | .frame f rest =>
      let s := if f.fseq = pt.rxSeq then s else s.inc F.PRT_RX_ERR_GAP 1 p
      let s := s.setPort p (fun pt => { pt with rx := rest, rxSkip := false, rxSeq := (f.fseq + 1) % 2 ^ 32 })
      let s := (s.inc F.PRT_FRAMES_RX 1 p).syncFifo p
      if s.flag F.PRT_DISC_QUAR p then
        let s := s.inc F.PRT_FRAMES_QUAR 1 p
        if f.sched then s else s.returnCredits p f.vc f.item.linkLength
      else if f.sched then
        let l : Landing := { last := s.landingLast f.item, done := s.store, frame := f }
        { s with sched := { s.sched with landing := s.sched.landing.upd [p] (· ++ [l]) } }
      else s.oppReceive p f dst

/-- R317, R321, R322, R337: a FLOW block applies the neighbour's XOFF state, or in credit mode its credit totals. -/
def State.flowBlock (s : State) (p : Nat) : State :=
  match s.takeCtl p 1 with
  | none => s
  | some (c, s) =>
    if !s.portUp p then s
    else if field c.body 0 1 = 0 && !s.creditMode p then
      let mask := field c.body 1 1
      let s := s.wr F.PRT_FC_STAT_RX_XOFF mask p
      (s.cancelXoff p mask).setPort p (fun pt => { pt with
        rxXoffSince := (List.range 8).map (fun v =>
          if mask.testBit v then some ((pt.rxXoffSince.getD v none).getD s.now) else none)
        stalled := (List.range 8).map (fun v => mask.testBit v && pt.stalled.getD v false) })
    else if field c.body 0 1 = 1 then
      let totals := (List.range 8).map (fun v => field c.body (8 + 2 * v) 2)
      let s := s.each (List.range 8) (fun s v =>
        s.inc F.PRT_CREDIT_TX_AVAIL ((totals.getD v 0 + 65536 - (s.port p).peerTotals.getD v 0) % 65536) p v)
      s.setPort p (fun pt => { pt with peerTotals := totals })
    else s

/-- R317, R322: a FLOW block is sent: the whole XOFF state, or the credits returned since UP. -/
def State.flowSend (s : State) (p : Nat) : State :=
  if !s.portUp p then s
  else
    let mask := s.rd F.PRT_FC_STAT_TX_XOFF p
    let body := if s.creditMode p then
        bytesLE 1 1 ++ bytesLE 7 0 ++ (List.range 8).flatMap (fun v => bytesLE 2 ((s.port p).returned.getD v 0)) ++ bytesLE 32 0
      else bytesLE 1 0 ++ bytesLE 1 mask ++ bytesLE 54 0
    (s.setPort p (fun pt => { pt with xoffSent := mask, flowSince := s.now })).emit (.block p (ctlBytes 1 0 0 body))

/-- R318: the neighbour has held a channel in XOFF for PAUSE_MS. -/
def State.fcStall (s : State) (p v : Nat) : State :=
  let lim := s.rd F.PRT_LINK_CFG_PAUSE_MS p
  match (s.port p).rxXoffSince.getD v none with
  | none => s
  | some t =>
    if lim = 0 ∨ s.creditMode p = true ∨ (s.port p).stalled.getD v false = true ∨ s.now < t + ms lim then s
    else
      let s := s.setPort p (fun pt => { pt with stalled := listSet false pt.stalled v true })
      (s.inc F.PRT_FC_STAT_STALLS 1 p).raise (stopPort (dieOfPort p)) 35 p

/-- R312: a write of PRT_TEST that selects anything is refused unless no plan is accepted or the port is fenced. GEN and
CHK of 3 are ignored. Zero ends the test and takes the port to ALIGNING. -/
def State.writeTest (s : State) (p loop gen chk : Nat) : State :=
  let gen := if gen = 3 then s.rd F.PRT_TEST_GEN p else gen
  let chk := if chk = 3 then s.rd F.PRT_TEST_CHK p else chk
  let put (s : State) : State := ((s.wr F.PRT_TEST_LOOP loop p).wr F.PRT_TEST_GEN gen p).wr F.PRT_TEST_CHK chk p
  if loop = 0 ∧ gen = 0 ∧ chk = 0 then
    let s := put s
    if s.rd F.PRT_LINK_STAT_STATE p = linkTest then (s.wr F.PRT_LINK_STAT_STATE linkAligning p).realign p else s
  else if s.locked && !s.fenced p then s.inc F.PRT_TEST_STAT_REFUSED 1 p
  else
    let s := s.portDown p
    let s := s.each lanes4 (fun s k =>
      let s := if chk ≠ s.rd F.PRT_TEST_CHK p then s.wr F.PRT_PRBS_ERR_LOCK 0 p k else s
      s.setLane p k { s.lane p k with
        checker := if chk ≠ s.rd F.PRT_TEST_CHK p then {} else (s.lane p k).checker
        generator := if gen ≠ s.rd F.PRT_TEST_GEN p then {} else (s.lane p k).generator })
    let s := (put s).huntAll p
    (s.wr F.PRT_LINK_STAT_STATE linkTest p).hwFence p

/-- R313: the next `n` symbols of a generator, and the generator after them. -/
def prbsLevels (pattern : Nat) : Nat → Prbs → List Nat × Prbs
  | 0, g => ([], g)
  | n + 1, g =>
    let (l, bits) := prbsLevel pattern g.bits
    let (rest, g) := prbsLevels pattern n { g with bits }
    (l :: rest, g)

/-- R313: one symbol at a checker. Without lock it seeds itself from the symbols received, and has lock after 128 in a row
that match its prediction; with lock it counts bit errors, and loses it when more than 32 of the last 1,024 mismatch. -/
def State.prbsSymbol (s : State) (p l level : Nat) : State :=
  let pattern := s.rd F.PRT_TEST_CHK p
  let c := (s.lane p l).checker
  let put (s : State) (c : Prbs) : State := s.setLane p l { s.lane p l with checker := c }
  let (want, next) := prbsLevel pattern c.bits
  let errs := levelErrors want level
  if !s.flag F.PRT_PRBS_ERR_LOCK p l then
    let seeded := decide (prbsDegree pattern ≤ c.bits.length)
    let bits := levelPush level c.bits
    if seeded && errs == 0 then
      if 128 ≤ c.run + 1 then (put s { bits }).wr F.PRT_PRBS_ERR_LOCK 1 p l else put s { c with bits, run := c.run + 1 }
    else put s { c with bits, run := 0 }
  else
    let s := s.inc F.PRT_PRBS_ERR_ERRORS errs p l
    let mism := (if errs = 0 then c.mismatch else c.symbols :: c.mismatch).filter (fun n => decide (c.symbols < n + 1024))
    if 32 < mism.length then (put s {}).wr F.PRT_PRBS_ERR_LOCK 0 p l
    else put s { c with bits := next, symbols := c.symbols + 1, mismatch := mism }

/-- R313, R314: symbol times of physical lane l of a port under test, with the levels that its line receives. The lane sends
its generator's symbols, or with LOOP 3 what it receives; the checker sees what the lane sends with LOOP 1 and 2, and else
what it receives. -/
def State.testSymbols (s : State) (p l : Nat) (levels : List Nat) : State :=
  if s.rd F.PRT_LINK_STAT_STATE p ≠ linkTest then s
  else
    let loop := s.rd F.PRT_TEST_LOOP p
    let gen := s.rd F.PRT_TEST_GEN p
    let ln := s.lane p l
    let (own, g) := if gen = 0 then ([], ln.generator) else prbsLevels gen levels.length ln.generator
    let s := s.setLane p l { ln with generator := g }
    let sent := if loop = 3 then levels else own
    let s := if sent.isEmpty then s else s.emit (.symbols p l sent)
    let seen := if loop = 1 ∨ loop = 2 then own else levels
    if s.rd F.PRT_TEST_CHK p = 0 then s else s.each seen (fun s v => s.prbsSymbol p l v)

def State.laser (s : State) (e : Nat) : Laser := s.link.lasers.get [e]
def State.setLaser (s : State) (e : Nat) (f : Laser → Laser) : State :=
  { s with link := { s.link with lasers := s.link.lasers.upd [e] f } }

/-- R293, R303: the 16 ports of a module whose light comes or goes: they go OFF, or align. -/
def State.syncLight (s : State) (e : Nat) : State :=
  s.each ((List.range 16).map (fun n => 16 * e + n)) (fun s p =>
    if s.portOff p then (s.portDown p).syncLink p
    else if s.rd F.PRT_LINK_STAT_STATE p = linkOff then s.realign p else s)

/-- R293, R295, R385: LSEN(e) driven, as ENABLE says, while the engine's domain is on; low in a block reset. -/
def State.setLaserEnable (s : State) (e : Nat) (en : Bool) : State :=
  let en := en && s.domainOn (engineDomain e) && (s.laser e).resetUntil.isNone
  let s := (s.wr F.PRT_LSM_CTL_ENABLE (b2n en) e).wr F.PRT_LSM_STAT_ENABLED (b2n en) e
  let s := if en then s.wr F.PRT_LSM_STAT_FAULT 0 e else s
  let s := s.setLaser e (fun l => { l with enabledAt := if en then some (l.enabledAt.getD s.now) else none
                                           reference := if en then l.reference else [] })
  s.syncLight e

/-- R295: a write of PRT_LSM_CTL(e).ENABLE; 1 is ignored while PRESENT is 0. -/
def State.writeLaserEnable (s : State) (e : Nat) (en : Bool) : State :=
  if en && !s.flag F.PRT_LSM_STAT_PRESENT e then s else s.setLaserEnable e en

/-- R295, R457: boot has reached stage LINKS: the management firmware enables the modules that are PRESENT. -/
def State.lasersBooted (s : State) : Bool := decide (5 ≤ s.rd F.BOOT_STAT_STAGE ∧ s.rd F.BOOT_STAT_STAGE ≤ 6)

/-- R294, R295: the 1 ms samples of LSPRES_N and LSFLT_N. A module that becomes PRESENT from stage LINKS on is enabled. -/
def State.laserSample (s : State) (e : Nat) (presLow fltLow : Bool) : State :=
  let die := stopPort (e / 2)
  let s := if presLow then
      let n := (s.laser e).lowSamples + 1
      let s := s.setLaser e (fun l => { l with lowSamples := n })
      if 500 ≤ n ∧ s.flag F.PRT_LSM_STAT_PRESENT e = false then
        let s := s.wr F.PRT_LSM_STAT_PRESENT 1 e
        if s.lasersBooted then s.setLaserEnable e true else s
      else s
    else
      let was := s.flag F.PRT_LSM_CTL_ENABLE e
      let had := s.flag F.PRT_LSM_STAT_PRESENT e
      let s := (s.setLaser e (fun l => { l with lowSamples := 0 })).wr F.PRT_LSM_STAT_PRESENT 0 e
      if had && was then (s.setLaserEnable e false).raise die 38 e else s
  if fltLow then ((s.setLaserEnable e false).wr F.PRT_LSM_STAT_FAULT 1 e).raise die 39 e else s

/-- R294, R296: the 10 ms reading of temperature, bias and output power. -/
def State.laserRead (s : State) (e temp : Nat) (bias power : List Nat) : State :=
  let die := stopPort (e / 2)
  let biasF : List Fld := [F.PRT_LSM_BIAS_OUT0, F.PRT_LSM_BIAS_OUT1, F.PRT_LSM_BIAS_OUT2, F.PRT_LSM_BIAS_OUT3]
  let powF : List Fld := [F.PRT_LSM_POWER_OUT0, F.PRT_LSM_POWER_OUT1, F.PRT_LSM_POWER_OUT2, F.PRT_LSM_POWER_OUT3]
  let s := s.wr F.PRT_LSM_STAT_TEMP temp e
  let s := s.each lanes4 (fun s k => (s.wr (biasF.getD k F.PRT_LSM_BIAS_OUT0) (bias.getD k 0) e).wr (powF.getD k F.PRT_LSM_POWER_OUT0) (power.getD k 0) e)
  let warn := toSigned 16 (s.rd F.PRT_LSM_THR_WARN)
  let alarm := toSigned 16 (s.rd F.PRT_LSM_THR_ALARM)
  let pw (k : Nat) : Int := toSigned 16 (power.getD k 0)
  let s := s.each lanes4 (fun s k => if pw k < warn then s.raise die 40 e else s)
  let runs := lanes4.map (fun k => if pw k < alarm then (s.laser e).lowRuns.getD k 0 + 1 else 0)
  let s := s.setLaser e (fun l => { l with lowRuns := runs })
  let s := match (s.laser e).enabledAt with
    | some t => if (s.laser e).reference.isEmpty && decide (t + secs 60 ≤ s.now) then
        s.setLaser e (fun l => { l with reference := bias }) else s
    | none => s
  let low := runs.any (fun n => decide (3 ≤ n))
  (s.wr F.PRT_LSM_STAT_LOW (b2n low) e).setLevel die 41 e e low

end Sys2Proof.Machine
end

