-- ==== Sys2Proof/Machine/Discovery.lean ====
section
/-!
DEFINITION. Time transfer, identity exchange, discovery and remap (R323 to R337).
-/

namespace Sys2Proof.Machine

/-! ### Time transfer -/

/-- PRT_TIME_STAT.STATE (R326). -/
def timeFree : Nat := 0
def timeAcquiring : Nat := 1
def timeLocked : Nat := 2
def timeHoldover : Nat := 3

/-- R325: root cycles of a Sync interval. -/
def State.syncInterval (s : State) : Nat := us (125 * s.rd F.PRT_TIME_CFG_SYNC_INTERVAL)

/-- R321, R323: the neighbour of port p is a Benlas, by configuration or by its identity. -/
def State.benlas (s : State) (p : Nat) : Bool :=
  s.flag F.PRT_LINK_CFG_BENLAS p || (!(s.port p).identity.isEmpty && field (s.port p).identity 3 1 == 4)

/-- R326: a qualified port: SLAVE, UP, not quarantined, not a Benlas, and receiving Sync, which is that its latest Sync
came less than 3 Sync intervals ago. -/
def State.qualified (s : State) (p : Nat) : Bool :=
  s.rd F.PRT_TIME_PORT_ROLE p == 2 && s.portUp p && !s.flag F.PRT_DISC_QUAR p && !s.benlas p &&
    (match (s.port p).lastSync with
    | none => false
    | some t => decide (s.now < t + 3 * s.syncInterval))

/-- R326: the qualified port with the lowest PRIORITY, the lower port on a tie. -/
def State.bestSlave (s : State) : Option Nat :=
  ((List.range 256).filter s.qualified).foldl (fun best p => match best with
    | none => some p
    | some b => if s.rd F.PRT_TIME_PORT_PRIORITY p < s.rd F.PRT_TIME_PORT_PRIORITY b then some p else some b) none

/-- The time engine takes a slave port. -/
def State.setSlave (s : State) (p : Option Nat) : State :=
  ({ s with link := { s.link with slave := p, goodSyncs := 0 } }).wr F.PRT_TIME_STAT_SLAVE_PORT (p.getD 0)

/-- R326: a grandmaster is FREE; a FREE or HOLDOVER engine acquires a port that qualifies. -/
def State.syncTime (s : State) : State :=
  if s.flag F.PRT_TIME_CFG_GM then
    if s.rd F.PRT_TIME_STAT_STATE = timeFree then s else (s.setSlave none).wr F.PRT_TIME_STAT_STATE timeFree
  else if s.rd F.PRT_TIME_STAT_STATE = timeFree ∨ s.rd F.PRT_TIME_STAT_STATE = timeHoldover then
    match s.bestSlave with
    | none => s
    | some p => (s.setSlave (some p)).wr F.PRT_TIME_STAT_STATE timeAcquiring
  else s

/-- R327: plane time is set, in ps. -/
def State.setTimePs (s : State) (t : Int) : State :=
  let ps := t.toNat
  let s := s.wr F.PRT_TIME_NOW_NS (ps / 1000)
  { s with link := { s.link with timeFrac := ps % 1000 * 14 / 1000 } }

/-- Local time in ps. -/
def State.timePs (s : State) : Int := 1000 * (s.planeTime : Int) + s.link.timeFrac * 1000 / 14

/-- R446: the root PLL's fraction is steered towards a value that the spec's unstated control law gives: within 100 ppm of
nominal, and with a plan accepted by at most 1 ppm for each second since it was last steered. -/
def State.steer (s : State) : State :=
  let (v, s) := s.fresh
  let target : Int := (v % 200001 : Nat) - 100000
  let old := toSigned 32 (s.rd F.PWR_CLK_STAT_STEER_PPB)
  let most : Int := (1000 * (s.now - s.link.steeredAt) / secs 1 : Nat)
  let new := if s.locked then min (old + most) (max (old - most) target) else target
  let at_ := if s.locked && most == 0 then s.link.steeredAt else s.now
  { s with link := { s.link with steeredAt := at_ } }.wr F.PWR_CLK_STAT_STEER_PPB (ofSigned 32 new)

/-- R326, R327: a Sync at the slave port: the offset, the lock, and the step or the fault of a large offset; the root PLL
is steered. -/
def State.takeSync (s : State) (p : Nat) (t1 t2 : Int) : State :=
  let off : Int := t2 - (t1 + s.rd F.PRT_TIME_PORT_DELAY p)
  let s := s.wr F.PRT_TIME_OFFSET_OFFSET (ofSigned 64 off)
  let good := decide (off.natAbs ≤ 1000 * s.rd F.PRT_TIME_CFG_LOCK_NS)
  let n := if good then s.link.goodSyncs + 1 else 0
  let s := { s with link := { s.link with goodSyncs := n } }
  let s := if s.rd F.PRT_TIME_STAT_STATE = timeAcquiring ∧ 16 ≤ n then s.wr F.PRT_TIME_STAT_STATE timeLocked else s
  let s := s.steer
  if 1000000 < off.natAbs then
    if s.locked then s.raise stopClk 14 else s.setTimePs (s.timePs - off)
  else s

/-- Local time in fourteenths of a ns, of which a root cycle is five (R325). -/
def State.timeUnits (s : State) : Nat := 14 * s.planeTime + s.link.timeFrac

/-- Fourteenths of a ns, and a correctionField's 1/65,536 ns, in ps; fourteenths of a ns as a correctionField. -/
def unitsPs (u : Int) : Int := u * 1000 / 14
def corrPs (c : Int) : Int := c * 1000 / 65536
def unitsCorr (u : Int) : Int := u * 65536 / 14

/-- The identity of port p of this clock; ports count from 1. -/
def portIdentity (p : Nat) : Nat := Config.clockIdentity % 2 ^ 64 * 65536 + (p + 1)

/-- R309, R324: a time message leaves p in a TIME block. -/
def State.sendTime (s : State) (p : Nat) (m : TimeMsg) : State := s.emit (.block p (ctlBytes 2 0 0 (timeBody m)))

/-- R325: the answer to a Pdelay_Req whose block came at `rx`: one-step, with the time from `rx` to its own sending added to
the request's correction. -/
def State.pdelayAnswer (s : State) (p rx : Nat) (m : TimeMsg) : TimeMsg :=
  { kind := 3, domain := s.rd F.PRT_DISC_CFG_PLANE, corr := m.corr + unitsCorr ((s.timeUnits : Int) - rx)
    source := portIdentity p, seq := m.seq, target := m.source }

/-- R325: a measured delay: half of what passed from the request's sending to the answer's arrival without the neighbour's
own time, and the fibre's asymmetry. The register holds the mean of the last 8. -/
def State.takeDelay (s : State) (p rx sent : Nat) (m : TimeMsg) : State :=
  let d := (unitsPs rx - unitsPs sent - corrPs m.corr) / 2 + toSigned 16 (s.rd F.PRT_TIME_PORT_ASYM p)
  let l := (d.toNat :: (s.port p).delays).take 8
  let s := s.setPort p (fun pt => { pt with delays := l, reqSent := none })
  s.wr F.PRT_TIME_PORT_DELAY (l.foldl (· + ·) 0 / l.length) p

/-- R324 to R327, R334: a TIME block that has passed its check is processed: the message it carries is accepted in the
plane's own domain, and not from a quarantined or Benlas port. `rx`: when the first bit of its slot came, in fourteenths of
a ns of local time. Two-step and other messages are not supported. -/
def State.timeBlock (s : State) (p rx : Nat) : State :=
  match s.takeCtl p 2 with
  | none => s
  | some (c, s) =>
    let m := readTime c.body
    if !s.portUp p || s.benlas p || s.flag F.PRT_DISC_QUAR p || m.domain != s.rd F.PRT_DISC_CFG_PLANE || m.flags.testBit 9 then s
    else match m.kind with
      | 0 =>
        if s.rd F.PRT_TIME_PORT_ROLE p != 2 then s
        else
          let s := (s.setPort p (fun pt => { pt with lastSync := some s.now })).syncTime
          if s.link.slave = some p then s.takeSync p (1000 * (m.ns : Int) + corrPs m.corr) (unitsPs rx) else s
      | 2 => s.sendTime p (s.pdelayAnswer p rx m)
      | 3 =>
        (match (s.port p).reqSent with
        | none => s
        | some sent =>
          if m.target = portIdentity p ∧ (m.seq + 1) % 65536 = (s.port p).reqSeq then s.takeDelay p rx sent m else s)
      | _ => s

/-- R324, R325: the Sync that a master sends now: the whole ns of local time, and the fraction as its correction. -/
def State.syncMsg (s : State) (p : Nat) : TimeMsg :=
  { kind := 0, domain := s.rd F.PRT_DISC_CFG_PLANE, corr := unitsCorr s.link.timeFrac, source := portIdentity p
    seq := (s.port p).syncSeq, ns := s.planeTime }

/-- R325: a master sends Sync. -/
def State.syncSend (s : State) (p : Nat) : State :=
  if s.rd F.PRT_TIME_PORT_ROLE p = 1 ∧ s.portUp p = true then
    (s.setPort p (fun pt => { pt with syncSent := s.now, syncSeq := (pt.syncSeq + 1) % 65536 })).sendTime p (s.syncMsg p)
  else s

/-- R325: a port with a neighbour sends Pdelay_Req. -/
def State.pdelaySend (s : State) (p : Nat) : State :=
  if s.portUp p && !(s.port p).identity.isEmpty then
    let m : TimeMsg :=
      { kind := 2, domain := s.rd F.PRT_DISC_CFG_PLANE, source := portIdentity p, seq := (s.port p).reqSeq }
    (s.setPort p (fun pt => { pt with reqSent := some s.timeUnits, reqSeq := (pt.reqSeq + 1) % 65536 })).sendTime p m
  else s

/-- R326: Sync intervals have passed without a Sync at the slave port: after 3 another qualified port is taken; after 8
without one a LOCKED engine enters HOLDOVER. -/
def State.syncLoss (s : State) : State :=
  match s.link.slave with
  | none => s
  | some p =>
    let last := ((s.port p).lastSync).getD 0
    if s.now < last + 3 * s.syncInterval then s
    else match s.bestSlave with
      | some q => s.setSlave (some q)
      | none =>
        if s.rd F.PRT_TIME_STAT_STATE = timeLocked ∧ last + 8 * s.syncInterval ≤ s.now then
          (((s.setSlave none).wr F.PRT_TIME_STAT_STATE timeHoldover).inc F.PRT_TIME_STAT_HOLDOVERS).raise stopClk 13
        else s

/-- R327: a write of PRT_TIME_NOW. -/
def State.writeTime (s : State) (ns : Nat) : State :=
  if s.flag F.PRT_TIME_CFG_GM && !s.locked then
    ({ s with link := { s.link with timeFrac := 0 } }).wr F.PRT_TIME_NOW_NS ns
  else s

/-! ### Identity -/

/-- Four 64-bit words as 32 bytes. -/
def State.words32 (s : State) (f : Fld) : List Byte := [0, 1, 2, 3].flatMap (fun i => bytesLE 8 (s.rd f i))

/-- Bits [31:0] of the IDENT of an identity block. -/
def identLow (id : List Byte) : Nat := field id 16 4

/-- R330: AGREED as this end computes it from the neighbour's versions; the Herith's own are 1 and 2. -/
def agreedVersion (id : List Byte) : Nat :=
  let hi := min 2 (field id 1 1)
  if max 1 (field id 0 1) ≤ hi then hi else 0

/-- R329, R330: the identity block this end sends on p. -/
def State.ownIdentity (s : State) (p : Nat) : List Byte :=
  let peer := (s.port p).identity
  bytesLE 1 1 ++ bytesLE 1 2 ++ bytesLE 1 (if peer.isEmpty then 0 else agreedVersion peer) ++
  bytesLE 1 (s.rd F.GLB_ROLE_ROLE) ++ bytesLE 1 p ++ bytesLE 1 (s.rd F.PRT_DISC_CFG_PLANE) ++
  bytesLE 2 (s.rd F.PRT_DISC_CFG_SWITCH_INDEX) ++ bytesLE 4 (8 + 4 * (s.port p).ownCredit + 3) ++
  bytesLE 4 (if peer.isEmpty then 0 else identLow peer) ++ s.words32 F.SEC_IDENT_IDENT ++
  s.words32 F.BOOT_FW_DIGEST_DIGEST ++ bytesLE 32 0

/-- R309, R329: an UP port sends its identity block as two IDENT control blocks of one ISEQ. -/
def State.identSend (s : State) (p : Nat) : State :=
  if !s.portUp p then s
  else
    let id := s.ownIdentity p
    let q := (s.port p).iseq
    ((s.setPort p (fun pt => { pt with iseq := (q + 1) % 65536, agreedSent := field id 2 1 })).emit
      (.block p (ctlBytes 3 0 q (id.take 56)))).emit (.block p (ctlBytes 3 1 q (id.drop 56)))

/-- R331: the bytes of an identity that do not change while a neighbour stays: all but AGREED and PEER_SEEN. -/
def identStable (id : List Byte) : List Byte := id.take 2 ++ (id.drop 3).take 9 ++ id.drop 16

/-- R332: an identity is the expected one. -/
def Expected.matchesId (e : Expected) (id : List Byte) : Bool :=
  match e with
  | .notCompared | .nobody | .conflict => false
  | .benlas => field id 3 1 == 4
  | .accel i => field id 3 1 == 3 && identLow id == i
  | .switch k pl ix po => field id 3 1 == k && field id 5 1 == pl && field id 6 2 == ix && field id 4 1 == po

/-- R333: the neighbour's firmware digest differs from the one it is compared with. -/
def State.fwDiffers (s : State) (id : List Byte) : Bool :=
  let d := (id.drop 48).take 32
  let kind := field id 3 1
  let acc := s.words32 F.PRT_ACC_FW_DIGEST
  if kind ≤ 2 then d != s.words32 F.BOOT_FW_DIGEST_DIGEST
  else kind == 3 && acc.any (· != 0) && d != acc

/-- R333: the outcome of a port whose negotiation succeeded. -/
def State.outcomeOf (s : State) (p : Nat) : Nat :=
  let id := (s.port p).identity
  match s.expected p with
  | .notCompared => 2
  | .nobody => 3
  | e => if !e.matchesId id then 5 else if s.fwDiffers id then 6 else 1

/-- R48, R226: the plan schedules port p: some entry of its banks 0 and 1, which a plan image writes, is VALID. -/
def State.scheduled (s : State) (p : Nat) : Bool :=
  s.regs.entries.any (fun e => match e.1, e.2 with
    | [r, lo, i, j], some v => r == Reg.SCH_WIN.ctorIdx && lo == 63 && i == p && v == 1 && decide (j < 1024)
    | _, _ => false)

/-- R229: what stands in the scheduled queues of a group whose ports carry opportunistic traffic only is sent under the
opportunistic rules. -/
def State.moveToOpp (s : State) (b : Nat) : State :=
  if !s.groupOpp b then s
  else s.each (List.range 16) (fun s t =>
    let q := s.sched.queues.get [b, t]
    let s := { s with sched := { s.sched with queues := s.sched.queues.set [b, t] [] } }
    s.each q (fun s e =>
      let k := [dieOfPort b, b, 7]
      { s with sched := { s.sched with voq := s.sched.voq.set k (s.sched.voq.get k ++ [s.oppEntry e]) } }))

/-- R48, R229, R323, R333: PRT_DISC.OPP is discovery's verdict; OPP_ONLY holds for that, and for a port that the accepted
plan does not schedule. -/
def State.syncOpp (s : State) (p : Nat) : State :=
  let o := s.rd F.PRT_DISC_OUTCOME p
  let was := s.flag F.SCH_PORT_CFG_OPP_ONLY p
  let opp := o == 6 || ((o == 1 || o == 2 || o == 8) && s.benlas p)
  let s := (s.wr F.PRT_DISC_OPP (b2n opp) p).wr F.SCH_PORT_CFG_OPP_ONLY (b2n (opp || (s.locked && !s.scheduled p))) p
  if !was && s.flag F.SCH_PORT_CFG_OPP_ONLY p then s.moveToOpp (s.groupOf p) else s

/-- R333, R334: a port's outcome is concluded, with its effects. -/
def State.conclude (s : State) (p o : Nat) : State :=
  let s := s.wr F.PRT_DISC_STATE 2 p
  let s := s.setPort p (fun pt => { pt with concluded := true })
  let s := (s.setOutcome p o).syncOpp p
  let s := if o = 9 ∨ o = 7 ∨ o = 3 ∨ o = 5 then ((s.wr F.PRT_DISC_QUAR 1 p).hwFence p).syncDiscSum else s
  if o = 3 then s.raise (stopPort (dieOfPort p)) 36 p
  else if o = 5 then s.raise (stopPort (dieOfPort p)) 37 p
  else s

/-- R321, R330, R333: negotiation succeeds when an identity has come with this end's IDENT and the same non-zero AGREED
within 10 ms of UP; it fails at once when the version ranges do not overlap (DEDUCED, log 21). -/
def State.negotiate (s : State) (p : Nat) : State :=
  let pt := s.port p
  let id := pt.identity
  let own := bits (s.rd F.SEC_IDENT_IDENT 0) 31 0
  let a := agreedVersion id
  let soon := match pt.upSince with
    | none => false
    | some t => decide (s.now ≤ t + ms 10)
  if !pt.concluded && soon && a == 0 then s.conclude p 7
  else if pt.concluded || !soon || field id 2 1 != a || field id 12 4 != own then s
  else
    let s := s.wr F.PRT_DISC_AGREED a p
    let s := if a = 1 then s.wr F.PRT_LINK_STAT_CREDIT 1 p else s
    s.conclude p (s.outcomeOf p)

/-- R329, R331: an identity is complete. A change of neighbour takes the port down; it comes up again. -/
def State.takeIdentity (s : State) (p : Nat) (id : List Byte) : State :=
  let old := (s.port p).identity
  if !old.isEmpty && identStable old != identStable id then s.realign p
  else
    let s := s.setPort p (fun pt => { pt with identity := id })
    let s := s.each (List.range 14) (fun s i => s.wr F.PRT_IDENT_RX_BYTES (field id (8 * i) 8) p i)
    let s := s.wr F.PRT_DISC_PEER_IDENT (identLow id) p
    let s := s.wr F.PRT_DISC_PEER_PORT (field id 4 1) p
    let s := s.wr F.PRT_DISC_PEER_KIND (field id 3 1) p
    -- R321: the neighbour's CAPS[2]
    let s := if (field id 8 4).testBit 2 then s.wr F.PRT_LINK_STAT_CREDIT 1 p else s
    s.negotiate p

/-- R329: an IDENT control block that has passed its check is processed. In the cycle in which a plan check has taken its
snapshot no port concludes: the block waits for a later one (R337). -/
def State.identBlock (s : State) (p : Nat) : State :=
  if s.marked .snapshot then s
  else match s.takeCtl p 3 with
  | none => s
  | some (c, s) =>
    if !s.portUp p || decide (1 < c.cflags) then s
    else match (s.port p).identHeld with
      | none => s.setPort p (fun pt => { pt with identHeld := some { part := c.cflags, iseq := c.iseq, body := c.body } })
      | some h =>
        if h.iseq = c.iseq ∧ h.part ≠ c.cflags then
          let id := if h.part = 0 then h.body ++ c.body else c.body ++ h.body
          (s.setPort p (fun pt => { pt with identHeld := none })).takeIdentity p id
        else s.setPort p (fun pt => { pt with identHeld := some { part := c.cflags, iseq := c.iseq, body := c.body } })

/-- R333: 10 ms after UP without negotiation the port is NO_VERSION, where the version ranges do not overlap, else
SILENT. -/
def State.negotiationTimeout (s : State) (p : Nat) : State :=
  let pt := s.port p
  match pt.upSince with
  | none => s
  | some t =>
    if !s.portUp p || pt.concluded || decide (s.now < t + ms 10) || s.marked .snapshot then s
    else s.conclude p (if !pt.identity.isEmpty && agreedVersion pt.identity == 0 then 7 else 9)

/-- R335: the outcomes of every port are taken against the loaded plan. A port whose negotiation failed keeps its
outcome. -/
def State.takeOutcomes (s : State) : State :=
  (s.mark .snapshot).each (List.range 256) (fun s p =>
    if s.portUp p && (s.port p).concluded then
      if s.rd F.PRT_DISC_OUTCOME p = 9 ∨ s.rd F.PRT_DISC_OUTCOME p = 7 then s
      else if s.rd F.PRT_DISC_OUTCOME p = s.outcomeOf p then s
      else s.conclude p (s.outcomeOf p)
    else s.setOutcome p (s.waitingOutcome p))

/-- R333: with no plan loaded a port that is not UP, or has not concluded, reads OUTCOME 0. -/
def State.forgetExpected (s : State) : State :=
  s.each (List.range 256) (fun s p =>
    if s.portUp p && (s.port p).concluded then s else s.setOutcome p (s.waitingOutcome p))

/-- R336: the lasts that name port p, and the members. -/
def State.membersAt (s : State) (ps : List Nat) : List (Nat × Nat) :=
  s.lasts.flatMap (fun t => ((s.operands t).filter (fun r =>
    s.flag F.LST_MEMBER_VALID t r && ps.contains (s.rd F.LST_MEMBER_PORT t r))).map (fun r => (t, r)))

/-- R336: the ports of P on which the identity expected on q was received. -/
def State.foundOn (s : State) (ps : List Nat) (q : Nat) : List Nat :=
  ps.filter (fun p => (s.expected q).matchesId (s.port p).identity)

/-- R336, R337: the remap of P may succeed; not when a port of P loses a lane and goes down. -/
def State.remapOk (s : State) (ps : List Nat) : Bool :=
  s.planState == planDegraded &&
  ps.all (fun p => s.rd F.PRT_DISC_OUTCOME p == 5 && s.portUp p && lanes4.all (fun k => (s.lane p k).state == .locked)) &&
  ps.all (fun p => (ps.filter (· != p)).any (fun q => (s.foundOn ps q).contains p)) &&
  ps.all (fun q => (s.foundOn ps q).length == 1) &&
  (s.membersAt ps).all (fun m => s.flag F.LST_CFG_PORT_AGNOSTIC m.1) &&
  ps.all (fun p => s.rd F.PRT_LINK_STAT_RATE p == s.rd F.PRT_LINK_STAT_RATE (ps.headD 0))

/-- The windows of banks 0 and 1 that the register file lists for ports of a set. -/
def State.winsOf (s : State) (mine : Nat → Bool) : List (Key × Option Nat) :=
  s.regs.entries.filter (fun e => match e.1 with
    | [r, _, i, j] => r == Reg.SCH_WIN.ctorIdx && mine i && decide (j < 1024)
    | _ => false)

/-- They are no longer listed. -/
def State.dropWins (s : State) (wins : List (Key × Option Nat)) : State :=
  s.each wins (fun s e => { s with regs := s.regs.set e.1 none })

/-- They move to other ports. -/
def State.moveWins (s : State) (wins : List (Key × Option Nat)) (target : Nat → Nat) : State :=
  (s.dropWins wins).each wins (fun s e => match e.1 with
    | [r, lo, i, j] => { s with regs := s.regs.set [r, lo, target i, j] e.2 }
    | _ => s)

/-- R336: the remap's effect, in one cycle. -/
def State.remapDo (s : State) (ps : List Nat) : State :=
  let to_ (q : Nat) : Nat := (s.foundOn ps q).headD q
  let members := (s.membersAt ps).map (fun m => (m.1, m.2, to_ (s.rd F.LST_MEMBER_PORT m.1 m.2)))
  let degs := ps.map (fun q => (to_ q, s.rd F.SCH_PORT_CFG_DEG_GROUP q))
  let s := (s.each ps (fun s p => s.mark (.remapped p))).moveWins (s.winsOf ps.contains) to_
  let s := s.each degs (fun s d => s.wr F.SCH_PORT_CFG_DEG_GROUP d.2 d.1)
  let s := s.each members (fun s m => s.wr F.LST_MEMBER_PORT m.2.2 m.1 m.2.1)
  let s := s.each ps (fun s p => s.wr F.PRT_DISC_QUAR 0 p)
  let s := s.unfence ps
  let s := s.each ps (fun s p => (s.setOutcome p 8).syncOpp p)
  s.syncDiscSum.syncFenced

end Sys2Proof.Machine
end

