-- ==== Sys2Proof/Machine/Spore.lean ====
section
/-!
DEFINITION. Epochs after their cut begins, state images, the lichen monitor, the checkpoint cadence, and recovery
(R347 to R375, R410, R415, R427, R428).
-/

namespace Sys2Proof.Machine

/-! State images (R373, R374). -/

/-- A digest held in four 64-bit registers. -/
def State.digest (s : State) (f : Fld) : Nat := (List.range 4).foldl (fun a i => a + s.rd f i * 2 ^ (64 * i)) 0
def State.setDigest (s : State) (f : Fld) (d : Nat) : State :=
  s.each [0, 1, 2, 3] (fun s i => s.wr f (bits d (64 * i + 63) (64 * i)) i)

/-- R373: the records of a context that an image of t holds: of every covered context whose output this switch rounds.
-/
def State.imageContexts (s : State) (covered : List Nat) : List Nat :=
  s.contexts.filter (fun x => covered.contains (s.lastOf x) && s.roundsOutput x)
def State.recordBytes (s : State) (x : Nat) : Nat := s.rd F.OPC_LIMIT_MAX_CHUNKS x * recordSize (s.outFmt x)

/-- R373: the image of epoch e of last t. -/
def State.imageBytes (s : State) (t : Nat) (e : Epoch) : List Byte :=
  let xs := s.contexts
  let withRecs := s.imageContexts e.covered
  let start := 128 + 16 * xs.length
  let offset (x : Nat) : Nat := start + (withRecs.filter (· < x)).foldl (fun n y => n + s.recordBytes y) 0
  let entries := xs.flatMap (fun x =>
    bytesLE 2 x ++ bytesLE 2 0 ++ bytesLE 4 (s.opnum x) ++ bytesLE 8 (if withRecs.contains x then offset x else 0))
  let recs := withRecs.flatMap (fun x => s.mem.gddr.readN (s.recordAddr x 0) (s.recordBytes x))
  let flags := b2n e.full.isSome + 2 + 4 * (e.full.getD 0)
  let head := bytesLE 4 0x53504F52 ++ bytesLE 2 1 ++ bytesLE 1 t ++ bytesLE 1 flags ++ bytesLE 4 e.number ++
    bytesLE 4 xs.length ++ bytesLE 8 recs.length ++ bytesLE 8 s.planeTime ++
    bytesLE 32 (s.digest F.LST_PLAN_DIGEST_DIGEST) ++ bytesLE 32 (s.digest F.BOOT_FW_DIGEST_DIGEST)
  head ++ bytesLE 32 (Config.shake256 (head ++ entries ++ recs)) ++ entries ++ recs

/-- The length of an image, from its first 128 bytes. -/
def imageLength (l : List Byte) : Nat := 128 + 16 * field l 12 4 + field l 16 8

/-- R373: MAGIC and LAST. -/
def isImage (t : Nat) (l : List Byte) : Bool := field l 0 4 == 0x53504F52 && field l 6 1 == t

/-- R374: CHECK is correct. -/
def imageOk (l : List Byte) : Bool := field l 96 32 == Config.shake256 (l.take 96 ++ l.drop 128)

/-- Bytes of the spore space from the start of granule k. -/
def State.sporeSpan (s : State) (k n : Nat) : List Byte :=
  ((List.range (ceilDiv n 4096)).flatMap (fun i => s.sporeRead (k + i))).take n

/-- A read of GDDR7 of which the word at `bad`, if it lies there, cannot be corrected (R407). -/
def State.gddrSpan (s : State) (a n : Nat) (bad : Option Nat) : Option (List Byte) × State :=
  s.gddrRead a n (bad.filter (fun w => decide (a ≤ w ∧ w < a + n)))

/-- R342, R343: where the image of t in buffer b of GDDR7 lies; a read of its header; the image. -/
def State.bufferAt (s : State) (t b : Nat) : Nat := s.sporeBase + b * s.sporeHalf + 4096 * (s.imagePart t).1
def State.headRead (s : State) (t b : Nat) (bad : Option Nat) : State :=
  let a := s.bufferAt t b
  (s.countChannel a 128).each
    ((s.gddrFailed a 128).or (bad.filter (fun w => decide (a ≤ w ∧ w < a + 128)))).toList State.gddrUncorr
def State.bufferImage (s : State) (t b : Nat) (bad : Option Nat) : Option (List Byte) × State :=
  let head := s.mem.gddr.readN (s.bufferAt t b) 128
  if isImage t head then s.gddrSpan (s.bufferAt t b) (imageLength head) bad
  else (none, s.headRead t b bad)

/-- A state image that has been found: in GDDR7 or in the tier, every granule of it readable or not (R416). -/
structure SporeImage where
  bytes : List Byte
  near  : Bool
  whole : Bool
  deriving DecidableEq, Repr

/-- The first of the granules from k on that holds an image of t; a granule that cannot be read holds none. -/
def State.findImage (s : State) (t : Nat) : Nat → Nat → Option Nat × State
  | _, 0 => (none, s)
  | k, n + 1 =>
    let (g, s) := s.readGranule k
    if (g.map (isImage t)).getD false then (some k, s) else s.findImage t (k + 1) n

/-- R342, R416: the image of t in the tier's parity slot b: the first granule that holds one, and what follows it. -/
def State.slotImage (s : State) (t b : Nat) : Option SporeImage × State :=
  let n := s.rd F.CKP_REGION_IMAGE_GRANULES
  match s.findImage t ((b + 1) * (s.sporeHalf / 4096) - n) n with
  | (none, s) => (none, s)
  | (some k, s) =>
    let len := imageLength (s.sporeRead k)
    let bad := ((List.range (ceilDiv len 4096)).map (k + ·)).filter (fun g => s.poisoned (s.sporeAt g).1 (s.sporeAt g).2)
    (some ⟨s.sporeSpan k len, false, bad.isEmpty⟩, s.each bad (fun s g => (s.readGranule g).2))

/-- R127: the records of a context start warm-up. -/
def State.warmUp (s : State) (x : Nat) : State :=
  let r := s.warmRecord x
  let n := s.rd F.OPC_LIMIT_MAX_CHUNKS x
  let size := recordSize (s.outFmt x)
  let s := s.each (List.range n) (fun s c => s.keepRecord (s.recordAddr x c) (r.bytes size))
  s.wr F.NUM_WARM_CHUNKS (if r.warm = 0 then 0 else n) x

/-- NUM_WARM(x) counted again from the records. -/
def State.recountWarm (s : State) (x : Nat) : State :=
  let size := recordSize (s.outFmt x)
  s.wr F.NUM_WARM_CHUNKS (((List.range (s.rd F.OPC_LIMIT_MAX_CHUNKS x)).filter (fun c =>
    (readNumRec (s.mem.gddr.readN (s.recordAddr x c) size)).warm != 0)).length) x

/-- R127, R373, R410: the records of a context are read for an image; one that lies on a FAILED channel warms up. -/
def State.captureRecords (s : State) (x : Nat) : State :=
  let size := recordSize (s.outFmt x)
  let lost (s : State) (c : Nat) : Option Nat := s.gddrFailed (s.recordAddr x c) size
  let cs := List.range (s.rd F.OPC_LIMIT_MAX_CHUNKS x)
  let s := s.countChannel (s.recordAddr x 0) (s.recordBytes x)
  let s := s.each cs (fun s c => match lost s c with
    | none => s
    | some a =>
      let s := ((s.gddrUncorr a).inc F.NUM_STATE_LOST_COUNT).raise (stopMem (gddrDie a)) 20 x
      (s.exactLoss F.SCH_EXACT_LOSS_ECC).keepRecord (s.recordAddr x c) ((s.warmRecord x).bytes size))
  if cs.any (fun c => (lost s c).isSome) then s.recountWarm x else s

/-- R153, R368, R374: the operation numbers of `xs` and their records are taken from an image. -/
def State.applyImage (s : State) (l : List Byte) (xs : List Nat) : State :=
  let hist := (field l 7 1).testBit 1
  s.each (List.range (field l 12 4)) (fun s i =>
    let x := field l (128 + 16 * i) 2
    let off := field l (128 + 16 * i + 8) 8
    if !xs.contains x then s
    else
      let s := s.wr F.NUM_OPSEQ_OPNUM (field l (128 + 16 * i + 4) 4) x
      if off = 0 ∨ s.roundsOutput x = false then s
      else if hist then
        let size := recordSize (s.outFmt x)
        let s := s.each (List.range (s.rd F.OPC_LIMIT_MAX_CHUNKS x)) (fun s c =>
          let a := s.recordAddr x c
          s.keepRecord a (if (s.gddrFailed a size).isSome then (s.warmRecord x).bytes size else (l.drop (off + c * size)).take size))
        s.recountWarm x
      else s.warmUp x)

/-- CKP_IMAGE.STATUS (R374, R427). -/
def imgRestored : Nat := 1
def imgNoHist : Nat := 2
def imgPlanDiff : Nat := 3
def imgFwDiff : Nat := 4
def imgCheckFail : Nat := 5
def imgNotFound : Nat := 6

/-- R374: the checks of a restore, against a plan's digest: the status they give. -/
def State.imageStatus (s : State) (l : List Byte) (plan : Nat) : Nat :=
  if !imageOk l then imgCheckFail
  else if field l 32 32 ≠ plan then imgPlanDiff
  else if field l 64 32 ≠ s.digest F.BOOT_FW_DIGEST_DIGEST then imgFwDiff
  else if (field l 7 1).testBit 1 then imgRestored else imgNoHist

/-! Epochs (R349, R350, R354, R355, R372). -/

/-- CKP_LAST_STAT(t).STATE of a last that is in no recovery. -/
def State.setCkp (s : State) (t st : Nat) : State :=
  if (s.sporeLast t).recovery.isSome then s else s.wr F.CKP_LAST_STAT_STATE st t

/-- R349: the first condition: every member that is PRESENT and not fenced has its epoch's descriptor accepted. -/
def State.allDescribed (s : State) (t : Nat) : Bool :=
  (s.groups t).all (fun g => (s.groupOperands t g).all (fun r =>
    !s.flag F.LST_MEMBER_PRESENT t r || s.fenced (s.memberPort t r) ||
      ((s.op (s.rd F.CKP_GROUP_EPOCH_CTX t g)).descOf (s.rankOf t r)).isSome))

/-- R349: the second condition: every covered context but t's PARITY contexts rests. -/
def State.allRest (s : State) (t : Nat) (covered : List Nat) : Bool :=
  (s.ctx.entries.all (fun e => match e.1 with
    | [x] => !covered.contains (s.lastOf x) || (s.kind x == kParity && s.lastOf x == t) ||
        s.ctxState x == ctxIdle || s.ctxState x == ctxUndeclared
    | _ => true))

/-- R350, R357: the epoch of t is aborted: its PARITY operations close with ABORTED and the held items are released. -/
def State.abortEpoch (s : State) (t : Nat) : State :=
  let xs := s.epochContexts t
  let (held, s) := (s.dropEpoch t).takeHeld t
  s.work (xs.map (fun x => Work.close x stAborted) ++ held.map (fun e => Work.item e.1 e.2))

/-- R349: the cut of t ends. -/
def State.cutEnd (s : State) (t : Nat) : State :=
  match (s.sporeLast t).epoch with
  | none => s
  | some e =>
    if !e.cut || !s.allDescribed t || !s.allRest t e.covered then s
    else
      let part := s.imagePart t
      let s := s.each (s.imageContexts e.covered) State.captureRecords
      let img := (s.imageBytes t e).take (4096 * part.2)
      let (ok, s) := s.gddrWrite (s.sporeBase + e.buffer * s.sporeHalf + 4096 * part.1) img
      if !ok then s.abortEpoch t
      else
        let s := (s.setSpore t (fun l => { l with epoch := some { e with cut := false } })).setCkp t ckpStream
        let (held, s) := s.takeHeld t
        (s.work (held.map (fun h => Work.item h.1 h.2))).epochCommitted t

/-- R350: CUT_MS passes before the cut has ended. -/
def State.cutTimeout (s : State) (t : Nat) : State :=
  match (s.sporeLast t).epoch with
  | none => s
  | some e =>
    if !e.cut || decide (s.now < e.since + ms (s.rd F.CKP_CFG_CUT_MS)) then s
    else (s.abortEpoch t).raise stopMgt 57 t

/-- R354: the granules of t's groups and image within a buffer. -/
def State.drainGranules (s : State) (t : Nat) : List Nat :=
  (s.groups t).flatMap (fun g =>
    (List.range (s.rd F.CKP_GROUP_SHARD_CHUNKS t g * s.rd F.CKP_GROUP_M t g)).map (s.rd F.CKP_GROUP_SHARD_PARITY_OFF t g + ·)) ++
  (List.range (s.imagePart t).2).map ((s.imagePart t).1 + ·)

/-- R354: root cycles that a drain takes at least: each CXL memory port writes at DRAIN_SHARE / 16 of 64 GB/s. -/
def State.drainCycles (s : State) (t : Nat) (d : Drain) : Nat :=
  let ks := (s.drainGranules t).map (fun k => (s.sporeAt (d.buffer * (s.sporeHalf / 4096) + k)).1)
  ceilDiv (7 * 4096 * max (ks.count 0) (ks.count 1)) (10 * s.rd F.CKP_CFG_DRAIN_SHARE)

/-- R353, R354, R410: the drain of t's oldest undrained epoch completes, its granules passing through a staging block (R263,
for which it waits); or a word of its buffer, at this address, is uncorrectable in both its reads and the epoch is
aborted. -/
def State.epochSecured (s : State) (t : Nat) (bad : Option Nat) : State :=
  match (s.sporeLast t).drains with
  | [] => s
  | d :: rest =>
    let ks := s.drainGranules t
    let addr (k : Nat) : Nat := s.sporeBase + d.buffer * s.sporeHalf + 4096 * k
    let failed := bad.or ((ks.find? (fun k => (s.gddrFailed (addr k) 4096).isSome)).map addr)
    match failed with
    | some a =>
      let s := ((s.gddrUncorr a).gddrUncorr a).setSpore t (fun l => { l with drains := rest })
      let current := match (s.sporeLast t).epoch with
        | some e => e.number == d.epoch
        | none => false
      (if current then s.abortEpoch t else s).syncDrain
    | none =>
      -- R411: numeric and spill requests at the dies of the drain's granules go ahead.
      let dies := (ks.map (fun k => gddrDie (addr k))).eraseDups
      if !s.tierUp || decide (s.now < d.since + s.drainCycles t d) || s.aheadOfOthers (dies.map (4096 * ·)) 4096 then s
      else
        match s.allocNow (stagingBlock (4096 * ks.length)) 19 (reqMem 0) with
        | (none, s) => s
        | (some p, s) =>
        let s := (s.each (List.range (ceilDiv ks.length 64)) (fun s _ => s.countBlock p)).freeObj p 19 (reqMem 0)
        let s := s.each ks (fun s k =>
          (s.countChannel (addr k) 4096).sporeWrite (d.buffer * (s.sporeHalf / 4096) + k) (s.mem.gddr.readN (addr k) 4096))
        let s := s.setSpore t (fun l => { l with drains := rest, securedSlot := some d.buffer })
        let s := s.wr F.CKP_EPOCH_SECURED d.epoch t
        let s := match d.full with
          | none => s
          | some slot =>
            (s.setSpore t (fun l => { l with fullSlot := some slot, fullImage := some d.buffer })).wr F.CKP_FULL_EPOCH d.epoch t
        s.syncDrain

/-! The order of service at the GDDR7 channels, continued (R411). -/

/-- R354, R411: the last reads of a drain, whose time has come, wait at one of these channels' dies. -/
def State.drainDue (s : State) (chans : List Nat) : Bool :=
  s.lasts.any (fun t => match (s.sporeLast t).drains.head? with
    | none => false
    | some d => s.tierUp && decide (d.since + s.drainCycles t d ≤ s.now) &&
        (s.drainGranules t).any (fun k => (chans.map (· / 4)).contains (gddrDie (s.sporeBase + d.buffer * s.sporeHalf + 4096 * k))))

/-- R401, R411: 64 records that wait to be copied to the ring take one of these channels. -/
def State.copyDue (s : State) (chans : List Nat) : Bool :=
  let n := s.rd F.EVR_RING_RECORDS
  n != 0 && decide (s.evr.copied + 64 ≤ s.rd F.EVR_NEXT_SEQ ∧ 4 < s.rd F.BOOT_STAT_STAGE ∧ s.rd F.BOOT_STAT_STAGE < 7) &&
    (List.range 64).any (fun k => (s.accessChannels (s.rd F.EVR_RING_BASE + (s.evr.copied + k) % n * eventSize) eventSize).any
      chans.contains)

/-- R411: requests of an earlier place than the recorder's (place 5), and than the host's (place 6), wait. -/
def State.aheadOfCopies (s : State) (addrs : List Nat) (n : Nat) : Bool :=
  s.aheadOfOthers addrs n || s.drainDue ((addrs.flatMap (s.accessChannels · n)).eraseDups)
def State.aheadOfHost (s : State) (addrs : List Nat) (n : Nat) : Bool :=
  s.aheadOfCopies addrs n || s.copyDue ((addrs.flatMap (s.accessChannels · n)).eraseDups)

/-- R355: the first two conditions of closing an epoch. -/
def State.epochReady (s : State) (t : Nat) (e : Epoch) : Bool :=
  e.committed && (!(s.sporeLast t).anyClosed || s.rd F.CKP_EPOCH_SECURED t == (e.number + 2 ^ 32 - 1) % 2 ^ 32)

/-- R355: the PARITY operations of the epoch close with DONE together. -/
def State.epochDone (s : State) (t : Nat) (e : Epoch) : State :=
  let xs := s.epochContexts t
  let s := s.setSpore t (fun l => { l with epoch := none, anyClosed := true, lastClose := some s.now, doneBuf := some e.buffer })
  let s := ((s.wr F.CKP_EPOCH_DONE e.number t).inc F.CKP_EVENTS_EPOCHS).setCkp t ckpIdle
  s.work (xs.map (fun x => Work.close x stDone))

/-- R355: a committed epoch whose predecessor is secured and whose interval has passed closes. -/
def State.epochClose (s : State) (t : Nat) : State :=
  match (s.sporeLast t).epoch with
  | none => s
  | some e =>
    let waited := match (s.sporeLast t).lastClose with
      | none => true
      | some c => decide (c + secs (s.rd F.CKP_CAD_STAT_INTERVAL_S) ≤ s.now)
    if s.epochReady t e && waited && (s.epochContexts t).all (fun x => s.ctxState x == ctxFlush) then s.epochDone t e else s

/-- R372, R416: a tier write on CXL memory port i fails during t's drain, of which `acked` granules are acknowledged. -/
def State.tierWriteFail (s : State) (t i acked : Nat) : State :=
  match (s.sporeLast t).drains with
  | [] => s
  | d :: rest =>
    let s := s.setSpore t (fun l => { l with drains := { d with acked := max d.acked (min acked d.total) } :: rest })
    let s := (s.inc F.MEM_CXL_ERR_WRITE_FAIL 1 i).inc F.CKP_DRAIN_ERRORS
    s.syncDrain.raise stopMgt 58 t

/-! The lichen monitor and the cadence (R358 to R360). -/

/-- R358: a score: ⌊128 × clamp((x − LO) ÷ (HI − LO), 0, 1)⌋ of x = n ÷ d. -/
def score (n d lo hi : Nat) : Nat :=
  if n ≤ lo * d then 0 else if hi * d ≤ n then 128 else 128 * (n - lo * d) / ((hi - lo) * d)

/-- R358: the ports that carry a member of a group or an uplink. -/
def State.watchedPorts (s : State) : List Nat :=
  let members := s.lasts.flatMap s.groupPorts'
  (List.range 256).filter (fun p => members.contains p || (s.rd F.GLB_ROLE_ROLE == 1 && p % 4 == 3))

/-- R358: the optical engines whose module carries one of those ports, and of those ports' laser outputs the bias. -/
def State.biasScore (s : State) (lo hi : Nat) : Nat :=
  (List.range 16).foldl (fun w e => [F.PRT_LSM_BIAS_OUT0, F.PRT_LSM_BIAS_OUT1, F.PRT_LSM_BIAS_OUT2, F.PRT_LSM_BIAS_OUT3].zipIdx.foldl
    (fun w f =>
      let ref := (s.link.lasers.get [e]).reference.getD f.2 0
      let b := s.rd f.1 e
      if ref = 0 then w else max w (score (1000 * (max b ref - min b ref)) ref lo hi)) w) 0

/-- R358, R443: temperatures in 1/8 °C, signed; below zero reads as zero. -/
def tempNat (v : Nat) : Nat := if 32768 ≤ v then 0 else v

/-- R359: the monitor's update of one second. -/
def State.lichenUpdate (s : State) : State :=
  let lo (i : Nat) : Nat := s.rd F.CKP_LICHEN_THR_LO i
  let hi (i : Nat) : Nat := s.rd F.CKP_LICHEN_THR_HI i
  let fec := s.watchedPorts.foldl (fun w p =>
    max w (score (16 * 60 * s.rd F.PRT_FEC_TREND_SHORT p) (max (s.rd F.PRT_FEC_TREND_LONG p) 60) (lo 0) (hi 0))) 0
  let temps := (List.range 40).map (fun i => tempNat (s.rd F.PWR_TEMP_TEMP i)) ++
    (List.range 16).map (fun e => tempNat (s.rd F.PRT_LSM_STAT_TEMP e))
  let corrected := s.spore.eccSum
  let before := s.spore.eccRecent
  let minute := corrected - before.getD 59 0
  let fails := (s.comp.failures.filter (fun t => decide (s.now < t + secs 3600))).length
  let sc := [fec, s.biasScore (lo 1) (hi 1), score (temps.foldl max 0) 8 (lo 2) (hi 2), score minute 1 (lo 3) (hi 3), score fails 1 (lo 4) (hi 4)]
  let w := [s.rd F.CKP_LICHEN_W_W_FEC, s.rd F.CKP_LICHEN_W_W_BIAS, s.rd F.CKP_LICHEN_W_W_TEMP, s.rd F.CKP_LICHEN_W_W_ECC,
    s.rd F.CKP_LICHEN_W_W_RESIDUE]
  let risk := min 65535 ((List.zipWith (· * ·) w sc).foldl (· + ·) 0 / 8)
  let s := (((((s.wr F.CKP_LICHEN_RISK risk).wr F.CKP_LICHEN_S_FEC (sc.getD 0 0)).wr F.CKP_LICHEN_S_BIAS (sc.getD 1 0)).wr
    F.CKP_LICHEN_S_TEMP (sc.getD 2 0)).wr F.CKP_LICHEN_S_ECC (sc.getD 3 0)).wr F.CKP_LICHEN_S_RESIDUE (sc.getD 4 0)
  let alert := decide (16 * s.rd F.CKP_LICHEN_W_ALERT ≤ risk)
  let rises := alert && !s.spore.alert
  let s := { s with spore := { s.spore with alert, eccRecent := (corrected :: before).take 60 } }
  if rises then s.raise stopMgt 59 else s

/-- R360: group members PRESENT on the switch. -/
def State.presentMembers (s : State) : Nat :=
  s.lasts.foldl (fun n t => (s.groups t).foldl (fun n g =>
    n + ((s.groupOperands t g).filter (fun r => s.flag F.LST_MEMBER_PRESENT t r)).length) n) 0

/-- R360: the checkpoint interval is computed again. -/
def State.cadenceUpdate (s : State) : State :=
  let n := s.presentMembers
  let s := s.inc F.CKP_CAD_OBS_MEMBER_S n
  let tmax := s.rd F.CKP_CAD_T_MAX_S
  if n = 0 then s.wr F.CKP_CAD_STAT_INTERVAL_S tmax
  else
    let base := min (2 ^ 32 - 1) (Nat.sqrt (2 * s.rd F.CKP_CAD_COST_MS *
      (s.rd F.CKP_CAD_OBS_MEMBER_S + 3600 * s.rd F.CKP_CAD_PRIOR_PRIOR_MH) / (1000 * (s.rd F.CKP_CAD_OBS_FAILURES + 1) * n)))
    let v := base * 256 / (256 + s.rd F.CKP_LICHEN_RISK)
    (s.wr F.CKP_CAD_STAT_BASE_S base).wr F.CKP_CAD_STAT_INTERVAL_S (min tmax (max (s.rd F.CKP_CAD_T_MIN_S) v))

/-! Failures and recovery (R362 to R371). -/

/-- The lasts that have a member on port p. -/
def State.lastsOn (s : State) (p : Nat) : List Nat :=
  s.lasts.filter (fun t => (s.operands t).any (fun r => s.memberPort t r == p))

/-- R363: last t becomes PAUSED, its contexts pause, and its members are told to send nothing. -/
def State.pauseLast (s : State) (t : Nat) : State :=
  if s.lastState t = lstEmpty then s
  else if s.lastState t = lstPaused then s.sendGrants t 1 []
  else
    let s := s.wr F.LST_STATE_STATE lstPaused t
    let s := s.each (s.contextsTouching t) State.pauseCtx
    s.sendGrants t 1 []

/-- R363, R370, R371, R372: position i of group g of t is lost. In a restore only its own shard is still to be sent, in a
restore operation of its own where the group's has closed. -/
def State.losePosition (s : State) (t g i : Nat) : State :=
  let old := s.lostPositions t g
  let s := if old.contains i then s else s.setLost t g (old.filter (· < i) ++ [i] ++ old.filter (i < ·))
  let st := s.groupState t g
  let group (f : GroupRec → GroupRec) : State := { s with spore := { s.spore with groups := s.spore.groups.upd [t, g] f } }
  if st = grpRestoring then
    group (fun r => { r with sent := r.sent.filter (· != i), opened := r.opened && !r.finished, finished := false })
  else if st = grpUnrecoverable ∨ st = grpLost then s
  else
    let s := s.wr F.CKP_GROUP_STAT_STATE grpWaiting t g
    let x := s.rd F.CKP_GROUP_REGROW_CTX t g
    if s.ctxState x = ctxOpen ∨ s.ctxState x = ctxFlush ∨ s.ctxState x = ctxPaused then s.work [.close x stAborted] else s

/-- R218, R362, R363: the member on port p has been fenced, and not both PRESENT and unfenced, for GRACE_MS: its port is
fenced, and the steps of R363 follow. -/
def State.memberFailed (s : State) (p : Nat) : State :=
  match s.sched.fenceSince.get [p] with
  | none => s
  | some since =>
    let ts := s.lastsOn p
    if !s.accepted || ts.isEmpty || decide (s.now < since + ms (s.rd F.CKP_CFG_GRACE_MS)) then s
    else
      let s := s.setFences (fun q => q == p || s.fenced q)
      let s := { s with sched := { s.sched with fenceSince := s.sched.fenceSince.set [p] none } }
      let spored := ts.filter (fun t => !(s.groups t).isEmpty)
      -- steps 1 and 2
      let s := s.each spored (fun s t => match (s.sporeLast t).epoch with
        | none => s
        | some e => if s.epochReady t e then s.epochDone t e else s)
      let aborted := spored.filter (fun t => (s.sporeLast t).epoch.isSome)
      let (s, held) := aborted.foldl (fun (acc : State × List (Nat × HeldItem)) t =>
        let xs := acc.1.epochContexts t
        let (h, s) := (acc.1.dropEpoch t).takeHeld t
        (s.work (xs.map (fun x => Work.close x stAborted)), acc.2 ++ h)) (s, [])
      -- steps 3 to 5
      let paused := ts.filter (fun t => s.lastState t != lstPaused)
      let s := s.each ts State.pauseLast
      let s := s.each spored (fun s t =>
        let s := s.setSpore t (fun l =>
          let r := l.recovery.getD {}
          { l with recovery := some { r with paused := (r.paused ++ paused).eraseDups } })
        s.each (s.groups t) (fun s g => s.each (List.range (s.rd F.CKP_GROUP_SIZE t g)) (fun s i =>
          if s.memberPort t (s.rd F.CKP_GROUP_BASE t g + i) = p then s.losePosition t g i else s)))
      let s := s.each ts (fun s t =>
        let st := s.rd F.CKP_LAST_STAT_STATE t
        if st = ckpRestoring ∨ st = ckpLost then s else s.wr F.CKP_LAST_STAT_STATE ckpPaused t)
      let s := s.each ts (fun s t => s.raise stopMgt 56 t)
      let s := s.inc F.CKP_CAD_OBS_FAILURES
      s.work (held.map (fun h => Work.item h.1 h.2))

/-- R364, R369: every lost position of a group is PRESENT again. -/
def State.lostPresent (s : State) (t g : Nat) : Bool :=
  (s.lostPositions t g).all (fun i => s.flag F.LST_MEMBER_PRESENT t (s.rd F.CKP_GROUP_BASE t g + i))

/-- R364: the management firmware clears the fences of the lost positions that are PRESENT again. -/
def State.unfenceLost (s : State) (t g : Nat) : State :=
  let ps := ((s.lostPositions t g).filter (fun i => s.flag F.LST_MEMBER_PRESENT t (s.rd F.CKP_GROUP_BASE t g + i))).map
    (fun i => s.memberPort t (s.rd F.CKP_GROUP_BASE t g + i))
  s.unfence ps

def noEpoch : Nat := 2 ^ 32 - 1

/-- R369, R370: a group is beyond regrowth. -/
def State.beyond (s : State) (t g : Nat) : Bool :=
  s.groupState t g == grpUnrecoverable ||
    (s.groupState t g == grpWaiting &&
      (decide (s.rd F.CKP_GROUP_M t g < s.rd F.CKP_GROUP_STAT_LOST t g) || s.rd F.CKP_EPOCH_DONE t == noEpoch))

def State.setGroup (s : State) (t g : Nat) (f : GroupRec → GroupRec) : State :=
  { s with spore := { s.spore with groups := s.spore.groups.upd [t, g] f } }

/-- R365: the regrowth of a WAITING group begins. -/
def State.regrowthStart (s : State) (t g : Nat) : State :=
  let x := s.rd F.CKP_GROUP_REGROW_CTX t g
  if !s.flag F.CKP_GROUP_VALID t g || s.groupState t g != grpWaiting || s.beyond t g || !s.lostPresent t g ||
      s.ctxState x != ctxIdle then s
  else
    let s := s.unfenceLost t g
    let s := s.wr F.CKP_GROUP_STAT_STATE grpRegrowing t g
    let s := s.setGroup t g (fun r =>
      { lost := r.lost, rows := decodeRows (s.rd F.CKP_GROUP_SIZE t g) r.lost, opened := true })
    let s := (s.openOp x).wr F.OPC_TAG_TAG (s.rd F.CKP_EPOCH_DONE t) x
    -- no member of the group is left to send: its chunks are combined from parity alone
    let s := if (s.survivors t g).isEmpty then
        (s.wr F.OPC_EXPECT_SWATCHES 0 x).each (List.range (s.rd F.CKP_GROUP_SHARD_CHUNKS t g)) (fun s c => s.askAdmission x c)
      else s
    let s := s.wr F.CKP_LAST_STAT_STATE ckpRegrowing t
    s.sendGrants t 1 [(x, s.rd F.CKP_GROUP_SHARD_CHUNKS t g)]

/-- R369, R428: the restore operations of t's groups open, once their members are there, and a HOLD lists them. -/
def State.openRestores (s : State) (t epoch : Nat) (ready : Nat → Bool) : State :=
  let gs := (s.groups t).filter (fun g => s.groupState t g == grpRestoring && !(s.spore.groups.get [t, g]).opened && ready g &&
    s.ctxState (s.rd F.CKP_GROUP_REGROW_CTX t g) == ctxIdle)
  if gs.isEmpty then s
  else
    let s := s.each gs (fun s g =>
      let x := s.rd F.CKP_GROUP_REGROW_CTX t g
      let s := s.unfenceLost t g
      let s := (s.openOp x).wr F.OPC_TAG_TAG epoch x
      let s := s.wr F.OPC_STATE_STATE ctxFlush x
      s.setGroup t g (fun r => { lost := r.lost, sent := r.sent, opened := true }))
    s.sendGrants t 1 (gs.map (fun g => (s.rd F.CKP_GROUP_REGROW_CTX t g, 0)))

/-- R369, R428: a last whose group is beyond regrowth falls back to its latest full epoch, or its groups become LOST;
the restore of a plan's image goes on once members are PRESENT. -/
def State.restoreStart (s : State) (t : Nat) : State :=
  let ef := s.rd F.CKP_FULL_EPOCH t
  match (s.sporeLast t).recovery with
  | none => s
  | some r =>
    match r.full with
    | some (e, _) =>
      s.openRestores t e (fun g => !r.loaded || (s.groupOperands t g).all (fun k => s.flag F.LST_MEMBER_PRESENT t k))
    | none =>
      if !(s.groups t).any (s.beyond t) then s
      else if ef = noEpoch then
        let s := s.each (s.groups t) (fun s g => s.wr F.CKP_GROUP_STAT_STATE grpLost t g)
        (s.wr F.CKP_LAST_STAT_STATE ckpLost t).raise stopMgt 60 t
      else if !(s.groups t).all (s.lostPresent t) then s
      else
        let open_ := ((s.groups t).map (fun g => s.rd F.CKP_GROUP_REGROW_CTX t g)).filter (fun x =>
          s.ctxState x != ctxIdle && s.ctxState x != ctxUndeclared)
        let s := s.work (open_.map (fun x => Work.close x stAborted))
        let s := s.each (s.groups t) (fun s g =>
          (s.wr F.CKP_GROUP_STAT_STATE grpRestoring t g).setGroup t g (fun r => { lost := r.lost }))
        let s := s.setSpore t (fun l => { l with recovery := some { r with full := some (ef, l.fullSlot.getD 0) } })
        let s := s.wr F.CKP_LAST_STAT_STATE ckpRestoring t
        s.openRestores t ef (fun _ => true)

/-- R369: the shard of position i of group g has been read from the data slot and goes to its member's port. `poison`: a
word of it could not be read. -/
def State.shardRead (s : State) (t g i : Nat) (poison : Option Nat) : State :=
  let x := s.rd F.CKP_GROUP_REGROW_CTX t g
  let rec_ := s.spore.groups.get [t, g]
  match (s.sporeLast t).recovery.bind Recovery.full with
  | none => s
  | some (_, slot) =>
    let r := s.rd F.CKP_GROUP_BASE t g + i
    if s.groupState t g != grpRestoring || !rec_.opened || rec_.sent.contains i || decide (s.rd F.CKP_GROUP_SIZE t g ≤ i) ||
        !s.flag F.LST_MEMBER_PRESENT t r || !s.tierUp || s.ctxState x != ctxFlush then s
    else match poison.or (((List.range (s.rd F.CKP_GROUP_SHARD_CHUNKS t g)).map (fun c =>
        s.sporeAt (s.shardGranule t g i c slot))).find? (fun a => s.poisoned a.1 a.2) |>.map Prod.fst) with
      | some port => s.inc F.MEM_CXL_ERR_POISON 1 port
      | none =>
        let s := s.unfenceLost t g
        let rank := s.rankOf t r
        let port := s.memberPort t r
        let s := s.each (List.range (s.rd F.CKP_GROUP_SHARD_CHUNKS t g)) (fun s c =>
          let data := s.sporeRead (s.shardGranule t g i c slot)
          let h : SwHeader := { skind := skResult, context := x, opnum := s.opnum x, chunk := c, rank, length := data.length }
          match s.allocNow (.swatch h data) 19 (reqMem (c % 4)) with
          | (some p, s) => s.pushShard x rank p (dieOfPort port) data
          | (none, s) =>
            let (v, s) := s.fresh
            let s := s.setOp x (fun o => { o with made := o.made + 1 })
            s.request (reqMem (c % 4)) 19 (.swatch h data) (.forward port port (1 + v % 7)))
        let s := s.setGroup t g (fun k => { k with sent := k.sent ++ [i] })
        s.work [.settle x]

/-- R368: the image of epoch e of t, whose buffer is b, from there or, where GDDR7 is uncorrectable or holds another epoch, from
the tier's slot of the same number. -/
def State.epochImage (s : State) (t e b : Nat) (bad : Option Nat) : Option SporeImage × State :=
  let good (l : List Byte) : Bool := imageOk l && field l 8 4 == e
  let near := s.bufferImage t b bad
  match near.1.filter good with
  | some l => (some ⟨l, true, true⟩, near.2)
  | none =>
    if near.2.tierUp then ((near.2.slotImage t b).1.filter (fun i => i.whole && good i.bytes), (near.2.slotImage t b).2)
    else (none, near.2)

/-- The granules of t in the tier's parity slot b are read into buffer b of GDDR7 (R374), those that can be read. -/
def State.reloadParity (s : State) (t b : Nat) : State :=
  let base := b * (s.sporeHalf / 4096)
  s.each (s.drainGranules t) (fun s k => match s.readGranule (base + k) with
    | (none, s) => s
    | (some l, s) => (s.gddrWrite (s.sporeBase + 4096 * (base + k)) l).2)

/-- R356, R369: after a restore the latest DONE epoch is the full one: its parity is in its buffer, or is read back from the
tier, or is nowhere; what later epochs still had to drain is abandoned. -/
def State.afterFallback (s : State) (t : Nat) (found : Option SporeImage) : State :=
  let b := (s.sporeLast t).fullImage
  let s := if found.any (fun i => !i.near) then s.reloadParity t (b.getD 0) else s
  ((s.inc F.CKP_EVENTS_FALLBACKS).setSpore t (fun l =>
    { l with doneBuf := if found.isSome then l.fullImage else none, drains := [] })).syncDrain

/-- R368, steps 1 and 2: the operations of the contexts `xs` close, and their numbers and records are those of epoch e; of a full
epoch after a restore (R369). -/
def State.rollImage (s : State) (t e : Nat) (full : Bool) (xs : List Nat) (bad : Option Nat) : State :=
  let s := s.work ((xs.filter (fun x => s.ctxState x != ctxIdle && s.ctxState x != ctxUndeclared)).map
    (fun x => Work.close x stAborted))
  let (found, s) := s.epochImage t e ((if full then (s.sporeLast t).fullImage else (s.sporeLast t).doneBuf).getD 0) bad
  let s := match found with
    | some i => s.applyImage i.bytes xs
    | none => s.each (xs.filter s.roundsOutput) State.warmUp
  if full then s.afterFallback t found else s

/-- R368, step 4: t, and the lasts that paused with it and wait for no other, are ACTIVE again. -/
def State.resumeLasts (s : State) (us : List Nat) : State :=
  let waits (s : State) (u : Nat) : Bool := s.lasts.any (fun v => match (s.sporeLast v).recovery with
    | none => false
    | some q => v == u || q.paused.contains u)
  let s := s.each (us.filter (fun u => s.lastState u == lstPaused && !waits s u)) (fun s u =>
    let s := (s.wr F.LST_STATE_STATE lstActive u).sendGrants u 2 []
    if s.rd F.CKP_LAST_STAT_STATE u = ckpPaused then s.wr F.CKP_LAST_STAT_STATE ckpIdle u else s)
  s.each (s.ctx.entries.filterMap (fun e => match e.1 with
    | [x] => some x
    | _ => none)) State.resumeCtx

/-- R368, R428: every regrowth or restore of t is DONE and no group waits: the last is rolled back and resumes. -/
def State.rollback (s : State) (t : Nat) (bad : Option Nat) : State :=
  match (s.sporeLast t).recovery with
  | none => s
  | some r =>
    let gs := s.groups t
    let active := gs.filter (fun g => s.groupState t g == grpRegrowing || s.groupState t g == grpRestoring)
    if active.isEmpty || !(gs.all (fun g => s.groupState t g == grpProtected ||
        (active.contains g && (s.spore.groups.get [t, g]).finished))) then s
    else
      let e := (r.full.map Prod.fst).getD (s.rd F.CKP_EPOCH_DONE t)
      let covered := s.coveredBy t
      let xs := s.contexts.filter (fun x => covered.contains (s.lastOf x))
      -- not after a plan load, which has restored the image itself (R428)
      let s := if r.loaded then s else s.rollImage t e r.full.isSome xs bad
      let s := s.wr F.CKP_EPOCH_DONE e t
      let s := if r.loaded then s.wr F.CKP_FULL_EPOCH e t else s
      let s := s.each gs (fun s g =>
        ((s.wr F.CKP_GROUP_STAT_STATE grpProtected t g).setLost t g []).setGroup t g (fun _ => {}))
      -- R355: a restore makes the next epoch the first, a regrowth does not
      let s := s.setSpore t (fun l => { l with recovery := none, anyClosed := l.anyClosed && r.full.isNone })
      let s := s.wr F.CKP_LAST_STAT_STATE ckpIdle t
      (s.resumeLasts (t :: r.paused).eraseDups).settleAll

end Sys2Proof.Machine
end

