-- ==== Sys2Proof/Machine/XchOps.lean ====
section
/-!
DEFINITION. The two commands of an exchange: placement and the assembly of output swatches (R205 to R213).
-/

namespace Sys2Proof.Machine

/-- R205: every sender's manifest was accepted before this store cycle, and placement has not happened. -/
def State.placeReady (s : State) (x : Nat) : Bool :=
  s.kind x == kExchange && (s.ctxState x == ctxOpen || s.ctxState x == ctxFlush) && (s.op x).placed.isEmpty &&
    !s.marked (.manifest x) 2 &&
    (s.operands (s.lastOf x)).all (fun r => (s.op x).manifests.any (fun m => m.1 == s.rankOf (s.lastOf x) r))

/-- R206, R207: the placement of every destination, by the fences as they stand. -/
def State.placements (s : State) (x : Nat) : List Placement :=
  let t := s.lastOf x
  let ms := (s.operands t).map (s.manifest x)
  (s.operands t).map (fun d =>
    let c := ms.map (fun m => m.getD d 0)
    if s.fenced (s.memberPort t d) then { fenced := true, counts := c.map (fun _ => 0), done := [] }
    else { fenced := false, counts := placeRows (s.flag F.OPC_XCH_CFG_POLICY x) (s.capRows x) c, done := [] })

/-- R209, R211: the header of an output swatch or drop report for operand r of context x; RANK is the operand's
number. -/
def State.xchHeader (s : State) (x r chunk length : Nat) : SwHeader :=
  { skind := skExchange, context := x, opnum := s.opnum x, chunk, rank := r, length }

/-- R211: the drop report of sender r. -/
def State.dropReport (s : State) (x r : Nat) : List Byte :=
  let placed := (s.op x).placed
  (List.range 256).flatMap (fun d => bytesLE 2 (match placed[d]? with
    | none => 0
    | some p => if p.fenced then 0xFFFF else p.counts.getD r 0))

/-- R213: what a placement counts: the rows wanted by destination d, the rows placed, dropped as fenced, and for capacity. -/
def State.rowsFor (s : State) (x d : Nat) : Nat :=
  ((s.operands (s.lastOf x)).map (fun r => (s.manifest x r).getD d 0)).foldl (· + ·) 0
def rowsPlaced (ps : List Placement) : Nat := (ps.map (fun p => p.counts.foldl (· + ·) 0)).foldl (· + ·) 0
def State.rowsFenced (s : State) (x : Nat) (ps : List Placement) : Nat :=
  (ps.zipIdx.map (fun pd : Placement × Nat => if pd.1.fenced then s.rowsFor x pd.2 else 0)).foldl (· + ·) 0
def State.rowsOver (s : State) (x : Nat) (ps : List Placement) : Nat :=
  (ps.zipIdx.map (fun pd : Placement × Nat =>
    if pd.1.fenced then 0 else s.rowsFor x pd.2 - pd.1.counts.foldl (· + ·) 0)).foldl (· + ·) 0

/-- R206, R213: rows are placed as `ps` says, and counted; XCH_OVERFLOW is raised at the management die (DESIGN CHOICE, log
130). -/
def State.putPlacement (s : State) (x : Nat) (ps : List Placement) : State :=
  let lost := s.rowsOver x ps
  let s := s.setOp x (fun o => { o with placed := ps })
  let s := (s.inc F.OPC_XCH_PLACED_ROWS (rowsPlaced ps) x).inc F.OPC_XCH_DROPPED_CAPACITY lost x
  let s := s.inc F.OPC_XCH_DROPPED_FENCED (s.rowsFenced x ps) x
  if lost = 0 then s else s.raise stopMgt 32 x

/-- R211: the drop report of each of these senders goes out. -/
def State.sendReports (s : State) (x : Nat) (rs : List Nat) : State :=
  s.each rs (fun s r =>
    let t := s.lastOf x
    let h := s.xchHeader x r 0xFFFFFFFF 512
    s.output x t reqMgt (.swatch h (s.dropReport x r)) [s.memberTarget t r h])

/-- R205, R206, R211, R213: rows are placed, reports are sent, and the counters change. The rest of the store cycle may still
change a fence. -/
def State.exchangePlacement (s : State) (x : Nat) : State :=
  if !s.placeReady x then s
  else
    let t := s.lastOf x
    let s := (s.putPlacement x (s.placements x)).mark (.placed x)
    let peak := (List.range (s.op x).placed.length).foldl (fun b d => if s.rowsFor x b < s.rowsFor x d then d else b) 0
    let s := (s.wr F.OPC_XCH_PEAK_DEST peak x).wr F.OPC_XCH_PEAK_DEMAND (s.rowsFor x peak) x
    (s.sendReports x ((s.operands t).filter (fun r => !s.fenced (s.memberPort t r)))).work [.settle x]

/-- R205, R221: the placement of this store cycle by the fences as its writes leave them, where they differ from those it was
made by: the counts, the reports' contents and the reports of those that are fenced no more. -/
def State.replace (s : State) (x : Nat) : State :=
  let t := s.lastOf x
  let old := (s.op x).placed
  let new := s.placements x
  if old.map Placement.fenced = new.map Placement.fenced then s
  else
    let lost := s.rowsOver x old
    let s := ((s.uncount F.OPC_XCH_PLACED_ROWS (rowsPlaced old) x).uncount F.OPC_XCH_DROPPED_CAPACITY lost x).uncount
      F.OPC_XCH_DROPPED_FENCED (s.rowsFenced x old) x
    let raised := s.flt.inbox.find? (fun e => e.2.source == 32 && e.2.detail == x && e.1 / 2 == s.now / 2)
    let s := match lost, raised with
      | _ + 1, some m => { s with flt := { s.flt with inbox := s.flt.inbox.erase m } }
      | _, _ => s
    let s := s.putPlacement x new
    let n := s.opnum x
    let s := { s with bpm := { s.bpm with objects := { entries := s.bpm.objects.entries.map (fun (e : Key × Option Item) => match e.2 with
      | some (.swatch h _) =>
        if h.skind = skExchange ∧ h.context = x ∧ h.opnum = n ∧ h.chunk = 0xFFFFFFFF then (e.1, some (.swatch h (s.dropReport x h.rank)))
        else e
      | _ => e) } } }
    s.sendReports x ((s.operands t).filter (fun r => (old[r]?).any Placement.fenced && !s.fenced (s.memberPort t r)))

/-- R205, R210: the placements of this store cycle stand: inputs whose rows are all dropped are freed. -/
def State.endPlacements (s : State) : State :=
  let xs := (s.marks.filter (fun e => e.1 / 2 == s.now / 2)).filterMap (fun e => match e.2 with
    | .placed x => if (s.op x).placed.isEmpty then none else some x
    | _ => none)
  s.each xs.eraseDups (fun s x => ((s.replace x).freeSettled x).work [.settle x])

/-- R208 to R210: output swatch k of destination d is assembled when every byte of it is present. -/
def State.exchangeAssemble (s : State) (x d k : Nat) : State :=
  let t := s.lastOf x
  match (s.op x).placed[d]? with
  | none => s
  | some p =>
    if s.kind x ≠ kExchange ∨ s.marked (.placed x) 2 = true ∨ p.fenced = true ∨ s.outSwatches x p ≤ k ∨ p.done.contains k = true ∨
        (s.ctxState x ≠ ctxOpen ∧ s.ctxState x ≠ ctxFlush) then s
    else
      let lo := 4096 * k
      let hi := min (lo + 4096) (s.outStream x p)
      match s.destBytes x d p lo hi with
      | none => s
      | some data =>
        let h := s.xchHeader x d k data.length
        let s := s.output x t (reqPort (dieOfPort (s.memberPort t d))) (.swatch h data) [s.memberTarget t d h]
        let s := s.setOp x (fun o => { o with placed := o.placed.zipIdx.map (fun q : Placement × Nat =>
          if q.2 = d then { q.1 with done := q.1.done ++ [k] } else q.1) })
        (s.freeSettled x).work [.settle x]

end Sys2Proof.Machine
end

