-- ==== Sys2Proof/Machine/Access.lean ====
section
/-!
DEFINITION. Registers as words: what a word reads as, which values a field takes, the RWL fields, and MSI-X messages
(R14, R15, R18, R22, R383, R405, R418, R422, R425, R426).
-/

namespace Sys2Proof.Machine

/-- R253, R272, R383, R384, R405: the access code of a field's instance. -/
def Fld.code (f : Fld) (i j : Nat) : Acc :=
  match f.acc with
  | .rwlWin => if j < 1024 then .rwl else .rw
  | .rwlAcct => if i < 16 then .rwl else .rw
  | .rwSrc => if i ≠ 0 ∧ faultSources.contains i = true then .rw else .ro
  | .rwResetUnit => if resetUnit i ≠ 0 ∧ faultSources.contains i = true then .rw else .ro
  | a => a

/-- The values that the meaning of a single field says are ignored. -/
def Fld.ignores (f : Fld) (v : Nat) : Bool :=
  match f.reg, f.lo with
  | .GLB_ROLE, 0 => v == 3
  | .PRT_LINK_CFG, 29 => v != 1 && v != 2
  | .PRT_TIME_PORT, 62 => v == 3
  | .PRT_TIME_CFG, 8 => v == 0
  | .WLT_GRANT_CFG, 0 => v == 0 || decide (16 < v)
  | .SCH_PORT_CFG, 8 => decide (v < 16)
  | .SCH_GCFG, 16 => decide (v < 8)
  | .NUM_GCFG, 0 => decide (21 ≤ v ∧ v ≤ 30)
  | .NUM_WARM_CFG, 0 => v == 0
  | .BPM_GCFG, 0 => v == 0
  | .CKP_CFG, 48 => v == 0
  | .CKP_CFG, 16 => v == 0
  | .CKP_CAD_PRIOR, 0 => v == 0
  | .FLT_SRC_CFG, 30 => v == 3
  | _, _ => false

/-- R14, R15: a register's bits; reserved ones read zero. The bucket table stands apart (R94). -/
def State.regBits (s : State) (r : Reg) (i j : Nat) : Nat :=
  if r = .CL_OWNER then s.comp.owners.getD i 0
  else (r.fields).foldl (fun n f => n + s.rd f i j * 2 ^ f.lo) 0

/-- A word with one 32-bit half replaced. -/
def withHalf (w : Nat) (high : Bool) (v : Nat) : Nat :=
  if high then w % 2 ^ 32 + (v % 2 ^ 32) * 2 ^ 32 else w / 2 ^ 32 * 2 ^ 32 + v % 2 ^ 32

/-- Writes of the RWL fields of a register, by the rules of each field. -/
def State.writeRwl (s : State) (r : Reg) (i j word : Nat) : State :=
  s.each (r.fields.filter (fun f => f.code i j == .rwl)) (fun s f =>
    let v := bits word f.hi f.lo
    if f.ignores v then s
    else if r = .PRT_LINK_CFG ∧ f.lo = 29 then s.setRate i v
    else s.wr f v i j)

/-- R426: the RWL fields that a plan load resets, by the first two parts of their keys. -/
def planFields : List Fld := (Reg.all.filter (· != .GLB_ROLE)).flatMap (fun r =>
  r.fields.filter (fun f => f.acc == .rwl || f.acc == .rwlWin || f.acc == .rwlAcct))

/-- The field that a key of the register file names, among the RWL fields. -/
def isPlanKey (k : List Nat) : Bool :=
  match k with
  | [r, lo, i, j] => planFields.any (fun f => f.reg.ctorIdx == r && f.lo == lo && f.code i j == .rwl)
  | _ => false

/-- R426, R430: every RWL field other than GLB_ROLE returns to its reset value: for an NVM field, what the configuration
image gave it. A port whose RATE changes comes up again (R299). -/
def State.resetPlanFields (s : State) : State :=
  let rates := (List.range 256).map (fun p => s.rd F.PRT_LINK_CFG_RATE p)
  let kept := s.regs.entries.filter (fun e => !isPlanKey e.1)
  let s := { s with regs := { entries := kept } }
  let s := s.each s.boot.loaded.entries (fun s e => { s with regs := s.regs.set e.1 e.2 })
  s.each (List.range 256) (fun s p =>
    let was := rates.getD p 0
    let now := s.rd F.PRT_LINK_CFG_RATE p
    if was = now then s else ((s.wr F.PRT_LINK_CFG_RATE was p).setRate p now).wr F.PRT_LINK_CFG_RATE now p)

/-- R418: an MSI-X message, or the pending bit of a masked vector. -/
def State.msix (s : State) (v : Nat) : State :=
  if s.flag F.MSIX_CTRL_MASK v then s.wr F.MSIX_PBA_PENDING (setBit (s.rd F.MSIX_PBA_PENDING) v true)
  else s.emit (.msix v (s.rd F.MSIX_ADDR_ADDR v) (s.rd F.MSIX_DATA_DATA v))

/-- R418: a vector's mask changes; unmasking sends what is pending. -/
def State.setMask (s : State) (v : Nat) (m : Bool) : State :=
  let s := s.wr F.MSIX_CTRL_MASK (b2n m) v
  if !m && (s.rd F.MSIX_PBA_PENDING).testBit v then
    (s.wr F.MSIX_PBA_PENDING (setBit (s.rd F.MSIX_PBA_PENDING) v false)).msix v
  else s

end Sys2Proof.Machine
end

