-- ==== Sys2Proof/Machine/HostOps.lean ====
section
/-!
DEFINITION. Long operations of the mailbox: their status words, their start and their end (R422, R431).
-/

namespace Sys2Proof.Machine

/-- R431: the states of a slot. -/
def opIdle : Nat := 0
def opRunning : Nat := 1
def opDone : Nat := 2
def opFailed : Nat := 3
def opAborted : Nat := 4

/-- R424, R431: status codes of an ended operation that R152 does not give. -/
def cDmaErr : Nat := 0x44
def cMemUncorr : Nat := 0x45
def cTimeout : Nat := 0x47
def cAborted : Nat := 0x48
def cRemapRefused : Nat := 0x49
def cRingTimeout : Nat := 0x4A
def cBadImage : Nat := 0x4B
def cLinkDown : Nat := 0x4C

/-- The mailbox opcodes (R423, R463). -/
def oPlanLoad : Nat := 0x01
def oAcceptDegraded : Nat := 0x02
def oPlanRetire : Nat := 0x03
def oRemap : Nat := 0x04
def oMemberReplace : Nat := 0x05
def oMemRead : Nat := 0x10
def oMemWrite : Nat := 0x11
def oAttest : Nat := 0x20
def oIdentRead : Nat := 0x21
def oImageWrite : Nat := 0x22
def oSvnCommit : Nat := 0x23
def oTokenSet : Nat := 0x24
def oAbort : Nat := 0x30

/-- R431: the layout of a status word. -/
def opWord (state status : Nat) (op : LongOp) : Nat :=
  state * 2 ^ 60 + status * 2 ^ 52 + op.tag * 2 ^ 40 + op.opcode * 2 ^ 32 + b2n op.part * 2 ^ 31 + op.progress % 2 ^ 31

/-- The operation that runs in slot i. -/
def State.hostOp (s : State) (i : Nat) : Option LongOp := s.host.ops.get [i]

/-- An operation starts, or goes on, in slot i. -/
def State.putOp (s : State) (i : Nat) (op : LongOp) : State :=
  { s with host := { s.host with ops := s.host.ops.set [i] (some op) } }.wr F.HST_OP_WORD (opWord opRunning 0 op) i

/-- R431: the operation of slot i ends: its word changes in one cycle, and vector 4 is sent when its command asked. -/
def State.endOp (s : State) (i state status : Nat) : State :=
  match s.hostOp i with
  | none => s
  | some op =>
    let s := { s with host := { s.host with ops := s.host.ops.set [i] none } }.wr F.HST_OP_WORD (opWord state status op) i
    if op.irq then s.msix 4 else s

/-- The slot in which an operation with this opcode runs, lowest first. -/
def State.slotOf (s : State) (opcode : Nat) : Option Nat :=
  (List.range 8).find? (fun i => match s.hostOp i with
    | none => false
    | some op => op.opcode == opcode)

/-- The operation of slot i, when it runs this opcode. -/
def State.opIn (s : State) (i opcode : Nat) : Option LongOp :=
  (s.hostOp i).bind (fun op => if op.opcode = opcode then some op else none)

/-- R426: a plan load has begun and its plan has not been accepted or returned to EMPTY. -/
def State.loadingPlan (s : State) : Bool :=
  (match s.slotOf oPlanLoad with
    | none => false
    | some _ => true) || s.planState == planChecking || s.planState == planDegraded

/-- R22, R426: RWL fields are not written by any port class. -/
def State.rwlLocked (s : State) : Bool := s.locked || s.loadingPlan

/-- The plan commands share one slot at a time, and the DMA commands move data over the host link (R420, R424). -/
def isPlanOp (opcode : Nat) : Bool := decide (1 ≤ opcode ∧ opcode ≤ 5)
def isDmaOp (opcode : Nat) : Bool :=
  opcode == oMemRead || opcode == oMemWrite || opcode == oAttest || opcode == oIdentRead || opcode == oImageWrite
def isSecOp (opcode : Nat) : Bool := decide (0x20 ≤ opcode ∧ opcode ≤ 0x24)

end Sys2Proof.Machine
end

