-- ==== Sys2Proof/Machine/PlanCheck.lean ====
section
/-!
DEFINITION. The checks of a loaded plan (R37, R140, R143, R152, R163, R180, R200, R230, R272, R341, R344 to R346, R413).
-/

namespace Sys2Proof.Machine

/-! 0x05: lasts (R140). -/

def State.lastBad (s : State) (t : Nat) : Bool :=
  let n := s.rd F.LST_CFG_OPERANDS t
  let ports := (List.range n).map (s.memberPort t)
  let seg (f : Fld) : Nat := s.rd f t
  let role := s.rd F.GLB_ROLE_ROLE
  let ranks := s.rd F.LST_CFG_RANKS t
  let segs := s.rd F.LST_CFG_SEGMENTS t
  let spines := goodSpines s.spineCount
  !(1 ≤ n ∧ n ≤ 256) ||
    (List.range 256).any (fun r => s.flag F.LST_MEMBER_VALID t r != decide (r < n)) ||
    ports.eraseDups.length != ports.length ||
    (if s.level t = levelWhole then
      !(role == 0 && segs == 1 && ranks == n && seg F.LST_SEG_BASE == 0 && seg F.LST_SEG_INDEX == 0 && seg F.LST_SEG_SIZE == n)
    else if s.level t = levelSegment then
      !(role == 1 && seg F.LST_SEG_SIZE == n && decide (seg F.LST_SEG_BASE + seg F.LST_SEG_SIZE ≤ ranks) &&
        decide (seg F.LST_SEG_INDEX < segs) && ports.all (fun p => p % 4 != 3) && spines)
    else if s.level t = levelUpper then !(role == 2 && n == segs && spines)
    else true)

/-! 0x06: contexts (R143, R152, R200, R341). -/

/-- R108: the outputs permitted for an input under SUM. -/
def permittedOut (inFmt : Nat) : List Nat :=
  if inFmt = fFP64 then [fFP64]
  else if inFmt = fFP32 then [fFP32, fFP64]
  else if inFmt = fBF16 then [fBF16, fFP32, fFP64]
  else if inFmt = fFP16 then [fFP16, fFP32, fFP64]
  else if inFmt = fE4M3 then [fE4M3, fBSF8a, fBF16, fFP16, fFP32, fFP64]
  else if inFmt = fE5M2 then [fE5M2, fBSF8b, fBF16, fFP16, fFP32, fFP64]
  else if inFmt = fBSF8a then [fBSF8a, fBF16, fFP16, fFP32, fFP64]
  else if inFmt = fBSF8b then [fBSF8b, fBF16, fFP16, fFP32, fFP64]
  else if inFmt = fBSF4 then [fBSF4, fBSF8a, fBSF8b, fBF16, fFP16, fFP32, fFP64]
  else if inFmt = fINT32 then [fINT32]
  else []

/-- R143, R200: the kind, operator and formats of a declaration are permitted. -/
def State.declOk (s : State) (x : Nat) : Bool :=
  let k := s.kind x
  let o := s.operator x
  let i := s.inFmt x
  let u := s.outFmt x
  let t := s.lastOf x
  if k = kAllReduce ∨ k = kReduceScatter then
    (if o = oSum then (permittedOut i).contains u
    else if o = oMax ∨ o = oMin then decide (i < fBYTES) && u == i
    else if o = oOr then i == u && (i == fINT32 || i == fBYTES)
    else false)
  else if k = kAllGather ∨ k = kBroadcast ∨ k = kRedistribute then o == oSum && i == u && decide (i ≤ fBYTES)
  else if k = kBarrier then o == oSum && i == fBYTES && u == fBYTES
  else if k = kExchange then
    o == oSum && i == fBYTES && u == fBYTES && decide (s.level t ≤ levelSegment) &&
      decide (1 ≤ s.rowBytes x ∧ s.rowBytes x ≤ 65536) && decide (1 ≤ s.capRows x)
  else o == oGf && i == fBYTES && u == fBYTES

/-- Every group of the plan: last and group. -/
def State.allGroups (s : State) : List (Nat × Nat) := s.lasts.flatMap (fun t => (s.groups t).map (fun g => (t, g)))

/-- R341: every VALID group, of whichever last. -/
def State.everyGroup (s : State) : List (Nat × Nat) := (List.range 16).flatMap (fun t => (s.groups t).map (fun g => (t, g)))

/-- R341: the groups that name a context. -/
def State.naming (s : State) (x : Nat) : List (Nat × Nat) :=
  s.everyGroup.filter (fun g => s.rd F.CKP_GROUP_EPOCH_CTX g.1 g.2 == x || s.rd F.CKP_GROUP_REGROW_CTX g.1 g.2 == x)

/-- R152, check 0x06, for one declared context. -/
def State.contextBad (s : State) (x : Nat) : Bool :=
  let redist := s.kind x == kRedistribute
  let target := s.rd F.OPC_DECL_TARGET x
  !s.flag F.LST_CFG_VALID (s.lastOf x) || !s.declOk x ||
    (if redist then !s.flag F.LST_CFG_VALID target || target == s.lastOf x else target != 0) ||
    (s.kind x != kBarrier && s.rd F.OPC_LIMIT_MAX_CHUNKS x == 0) ||
    (!redist && s.rd F.OPC_RUNS_COUNT x != 0) ||
    (s.kind x == kParity && (s.naming x).length != 1)

/-- R339, R341: one group. -/
def State.groupBad (s : State) (t g : Nat) : Bool :=
  let declared (x : Nat) : Bool := s.flag F.OPC_DECL_VALID x && s.kind x == kParity && s.declOk x && s.lastOf x == t
  let size := s.rd F.CKP_GROUP_SIZE t g
  let base := s.rd F.CKP_GROUP_BASE t g
  !declared (s.rd F.CKP_GROUP_EPOCH_CTX t g) || !declared (s.rd F.CKP_GROUP_REGROW_CTX t g) ||
    !(2 ≤ size ∧ size ≤ 252) || !(1 ≤ s.rd F.CKP_GROUP_M t g ∧ s.rd F.CKP_GROUP_M t g ≤ 4) || s.level t == levelUpper ||
    (s.groups t).any (fun h => h != g && decide (base < s.rd F.CKP_GROUP_BASE t h + s.rd F.CKP_GROUP_SIZE t h ∧
      s.rd F.CKP_GROUP_BASE t h < base + size))

/-! 0x07: runs (R163). -/

/-- Two ranges that share a value. -/
def overlap (a n b m : Nat) : Bool := decide (a < b + m ∧ b < a + n ∧ 0 < n ∧ 0 < m)

/-- Some two members of a list, at different places, are related. -/
def anyPair {α : Type} (r : α → α → Bool) : List α → Bool
  | [] => false
  | a :: l => l.any (r a) || anyPair r l

def State.runsBad (s : State) (x : Nat) : Bool :=
  let src (f : Fld) (j : Nat) : Nat := s.rd f j
  let target := s.rd F.OPC_DECL_TARGET x
  decide (16384 < s.rd F.OPC_RUNS_BASE x + s.rd F.OPC_RUNS_COUNT x) ||
    (s.runs x).any (fun j => decide (s.rd F.LST_CFG_RANKS (s.lastOf x) ≤ src F.LST_RUN_SRC_SRC_RANK j) ||
      decide (s.rd F.LST_CFG_RANKS target ≤ src F.LST_RUN_DST_DST_RANK j + src F.LST_RUN_DST_COPIES_M1 j)) ||
    anyPair (fun a b =>
      (src F.LST_RUN_SRC_SRC_RANK a == src F.LST_RUN_SRC_SRC_RANK b &&
        overlap (src F.LST_RUN_SRC_SRC_CHUNK a) (src F.LST_RUN_SRC_COUNT a) (src F.LST_RUN_SRC_SRC_CHUNK b) (src F.LST_RUN_SRC_COUNT b)) ||
      (overlap (src F.LST_RUN_DST_DST_RANK a) (src F.LST_RUN_DST_COPIES_M1 a + 1) (src F.LST_RUN_DST_DST_RANK b)
          (src F.LST_RUN_DST_COPIES_M1 b + 1) &&
        overlap (src F.LST_RUN_DST_DST_CHUNK a) (src F.LST_RUN_SRC_COUNT a) (src F.LST_RUN_DST_DST_CHUNK b) (src F.LST_RUN_SRC_COUNT b)))
      (s.runs x)

/-! 0x08: quotas (R180, R272, R344, R413). -/

def sumOver {α : Type} (l : List α) (f : α → Nat) : Nat := l.foldl (fun n a => n + f a) 0

/-- R180. -/
def State.weltBad (s : State) : Bool :=
  decide (64 < sumOver s.lasts (fun t => s.rd F.WLT_QUOTA_GRANULES t)) ||
    (List.range 16).any (fun t => decide (64 < s.rd F.WLT_QUOTA_BORROW t)) ||
    s.contexts.any (fun x => s.draws x && decide (s.rd F.WLT_QUOTA_GRANULES (s.lastOf x) < s.need x)) ||
    (List.range 4).any (fun c => decide (s.rd F.WLT_REGION_GRANULES c < sumOver s.lasts (fun t => s.rd F.WLT_SPILL_LIMIT_GRANULES t)))

/-- R272. -/
def State.poolsBad (s : State) : Bool :=
  let sched (q : Nat) : Nat := s.rd F.BPM_POOL_CFG_SCHED q
  let opp (q : Nat) : Nat := s.rd F.BPM_POOL_CFG_COUNT q - sched q
  let res (a q : Nat) : Nat := s.rd F.BPM_ACCT_RESERVE a q
  let lim (a q : Nat) : Nat := s.rd F.BPM_ACCT_LIMIT a q
  [0, 1].any (fun q => decide (sched q < sumOver s.lasts (fun t => res t q))) ||
    (List.range 4).any (fun q => decide (opp q < sumOver [16, 17, 18, 19] (fun a => res a q))) ||
    (List.range 20).any (fun a => (List.range 4).any (fun q =>
      decide (lim a q < res a q) || decide ((if a ≤ 15 then sched q else opp q) < lim a q) ||
        (decide (a ≤ 15 ∧ 2 ≤ q) && (res a q != 0 || lim a q != 0))))

/-- R344: parity areas and the tier's slots. -/
def State.sporeBad (s : State) : Bool :=
  let area (g : Nat × Nat) : Nat := s.rd F.CKP_GROUP_SHARD_CHUNKS g.1 g.2 * s.rd F.CKP_GROUP_M g.1 g.2
  let off (g : Nat × Nat) : Nat := s.rd F.CKP_GROUP_SHARD_PARITY_OFF g.1 g.2
  let room := s.rd F.CKP_REGION_GRANULES / 2 - s.rd F.CKP_REGION_IMAGE_GRANULES
  let gs := s.allGroups
  anyPair (fun a b => overlap (off a) (area a) (off b) (area b)) gs || gs.any (fun g => decide (room < off g + area g)) ||
    (!gs.isEmpty && decide (s.sporeBytes < 2 * s.sporeHalf + 2 * s.shardGranules * 4096))

/-- R413: where the records of each context whose output this switch rounds start, ascending, and the end of the last.
-/
def State.recordPlan (s : State) : List (Nat × Nat) × Nat :=
  (s.contexts.filter s.roundsOutput).foldl (fun acc x =>
    let at_ := (acc.2 + 63) / 64 * 64
    (acc.1 ++ [(x, at_)], at_ + s.rd F.OPC_LIMIT_MAX_CHUNKS x * recordSize (s.outFmt x))) ([], s.rd F.MEM_GMAP_NUM_BASE)
def State.recordsBad (s : State) : Bool :=
  decide (s.rd F.MEM_GMAP_NUM_BASE + s.rd F.MEM_GMAP_NUM_GRANULES * 4096 < s.recordPlan.2)

/-! 0x09: window tables (R223, R230). -/

/-- A VALID window: START, LENGTH, QSEL. -/
structure Window where
  start  : Nat
  length : Nat
  last   : Nat
  deriving DecidableEq, Repr

/-- The ports and entries (512b + e) of the VALID windows of banks 0 and 1. -/
def State.validWindows (s : State) : List (Nat × Nat) :=
  s.regs.entries.filterMap (fun e => match e.1, e.2 with
    | [r, lo, p, j], some 1 => if r = Reg.SCH_WIN.ctorIdx ∧ lo = 63 ∧ j < 1024 then some (p, j) else none
    | _, _ => none)

/-- The windows of a bank of a port in one direction. -/
def State.windowsOf (s : State) (l : List (Nat × Nat)) (p b dir : Nat) : List Window :=
  (l.filter (fun e => e.1 == p && e.2 / 512 == b && s.rd F.SCH_WIN_DIR e.1 e.2 == dir)).map (fun e =>
    { start := s.rd F.SCH_WIN_START e.1 e.2, length := s.rd F.SCH_WIN_LENGTH e.1 e.2, last := s.rd F.SCH_WIN_QSEL e.1 e.2 })

/-- R230, R243: port p serves last t: as a member's port, a port of a member's spray group, or for a SEGMENT an
uplink. -/
def State.serves (s : State) (p t : Nat) : Bool :=
  s.flag F.LST_CFG_VALID t &&
    (if s.level t = levelSegment ∧ p % 4 = 3 then true
    else if s.level t = levelUpper ∧ goodSpines s.spineCount = true then
      (s.operands t).any (fun r => s.memberPort t r / (64 / s.spineCount) == p / (64 / s.spineCount))
    else (s.operands t).any (fun r => s.memberPort t r == p))

/-- R230: the longest opportunistic run of an egress table is at least GUARD, and the one that ends a round longer. -/
def freeRuns (cycles guard : Nat) (l : List Window) : Bool :=
  let inside (c : Nat) : Bool := l.any (fun w => decide (w.start ≤ c ∧ c < w.start + w.length))
  let next (c : Nat) : Nat := ((l.map Window.start).filter (c ≤ ·)).foldl min cycles
  let starts := (0 :: l.map (fun w => w.start + w.length)).filter (fun c => !inside c)
  let lastEnd := l.foldl (fun m w => max m (w.start + w.length)) 0
  starts.any (fun c => decide (c + guard ≤ next c)) && decide (lastEnd + guard + 1 ≤ cycles)

/-- R230: one bank of one port. -/
def State.bankBad (s : State) (l : List (Nat × Nat)) (p b : Nat) : Bool :=
  let cycles := s.rd F.SCH_PERIOD_CYCLES
  let guard := s.rd F.SCH_PORT_CFG_GUARD p
  let egress := s.windowsOf l p b 0
  let ingress := s.windowsOf l p b 1
  (egress ++ ingress).any (fun w => decide (w.length < guard ∨ cycles < w.start + w.length) || !s.serves p w.last) ||
    [egress, ingress].any (anyPair (fun v w => overlap v.start v.length w.start w.length)) || !freeRuns cycles guard egress

/-- R230: the store load of every cell time is within the budget, with bank b(p) active on port p. Loads are counted in
224ths of a cell. -/
def State.loadOk (s : State) (l : List (Nat × Nat)) (bank : Nat → Nat) : Bool :=
  let ports := (List.range 256).filter (fun p => l.any (fun e => e.1 == p))
  let table := ports.map (fun p => (if s.rd F.PRT_LINK_CFG_RATE p = 2 then 125 else 250,
    s.windowsOf l p (bank p) 0, s.windowsOf l p (bank p) 1))
  let touches (c : Nat) (w : Window) : Bool := decide (w.start / 4 ≤ c ∧ c ≤ (w.start + w.length - 1) / 4)
  let load (c : Nat) : Nat := sumOver table (fun (r, e, i) => r * (b2n (e.any (touches c)) + 2 * b2n (i.any (touches c))))
  (table.flatMap (fun (_, e, i) => (e ++ i).map (fun w => w.start / 4))).all (fun c =>
    decide (load c ≤ 64 * s.rd F.SCH_GCFG_BUDGET * 224))

def State.windowsBad (s : State) : Bool :=
  let cycles := s.rd F.SCH_PERIOD_CYCLES
  let l := s.validWindows
  let deg (p : Nat) : Nat := s.rd F.SCH_PORT_CFG_DEG_GROUP p
  let groups := ((List.range 256).map deg).eraseDups.filter (· != 0)
  !(cycles % 4 = 0 ∧ 1024 ≤ cycles ∧ cycles ≤ 16777212) ||
    (List.range 256).any (fun p => s.bankBad l p 0 || s.bankBad l p 1) ||
    !s.loadOk l (fun _ => 0) || groups.any (fun g => !s.loadOk l (fun p => b2n (deg p == g)))

/-! 0x0A: feed domains (R345). -/

def State.groupConflicts (s : State) (t g : Nat) : Bool :=
  let feeds := (s.groupOperands t g).map (fun r => s.rd F.LST_MEMBER_FEED t r)
  feeds.any (fun f => decide (s.rd F.CKP_GROUP_M t g < feeds.count f)) ||
    (s.flag F.CKP_CFG_HOLDER_EN && feeds.contains (s.rd F.CKP_CFG_HOLDER_FEED))

/-! The table of R152. -/

/-- R152: every check: its code, whether its condition failed, and whether it passes despite failure. -/
def State.planChecks (s : State) : List (Nat × Bool × Bool) :=
  let outcomes := (List.range 256).map (fun p => s.rd F.PRT_DISC_OUTCOME p)
  [ (0x02, s.host.planFw != s.digest F.BOOT_FW_DIGEST_DIGEST, false),
    (0x03, s.host.planDum != s.digest F.GLB_DUM_DIGEST_DIGEST, s.flag F.LST_PLAN_CFG_DUM_TOLERANT),
    (0x04, s.host.planRole != s.rd F.GLB_ROLE_ROLE, false),
    (0x05, s.lasts.any s.lastBad, false),
    (0x06, s.contexts.any s.contextBad || s.everyGroup.any (fun g => s.groupBad g.1 g.2), false),
    (0x07, s.contexts.any s.runsBad, false),
    (0x08, s.weltBad || s.poolsBad || s.sporeBad || s.recordsBad, false),
    (0x09, s.windowsBad, false),
    (0x0A, s.allGroups.any (fun g => s.groupConflicts g.1 g.2), s.flag F.LST_PLAN_CFG_FEED_OVERRIDE),
    (0x0B, outcomes.contains 4 || outcomes.contains 5, true) ]

end Sys2Proof.Machine
end

