-- ==== Sys2Proof/Machine/Plan.lean ====
section
/-!
DEFINITION. Loading, accepting and retiring a plan, remap and member replacement (R151 to R154, R195, R226, R243, R248,
R256, R335, R336, R364, R374, R413, R425 to R429).
-/

namespace Sys2Proof.Machine

/-- R151, R396: LST_PLAN_STAT.STATE changes, and a PLAN record is made; bit 63 of its ARG when the map digest
differed. -/
def State.planRecord (s : State) : State :=
  s.trigger 5 0xFF 0 (s.rd F.EVR_CFG_SET_PLAN)
    (s.planState * 256 + s.rd F.LST_PLAN_STAT_STATUS + b2n ((s.rd F.LST_PLAN_CHECKS_FAILED).testBit 2) * 2 ^ 63)
def State.setPlan (s : State) (state status : Nat) : State :=
  ((s.wr F.LST_PLAN_STAT_STATE state).wr F.LST_PLAN_STAT_STATUS status).planRecord

/-! The image (R425). -/

/-- R425: an image may write this word. -/
def imageTarget (h : Hit) : Bool := h.reg != .GLB_ROLE && h.reg.fields.any (fun f => f.code h.i h.j == .rwl)

/-- R425, R455: n records, and nothing after them: each one's offset and data. -/
def readRecords : Nat → List Byte → Option (List (Nat × List Byte))
  | 0, l => if l.isEmpty then some [] else none
  | n + 1, l =>
    let off := field l 0 4
    let len := field l 4 4
    let span := 8 + (len + 7) / 8 * 8
    if off % 4 ≠ 0 ∨ len % 4 ≠ 0 ∨ l.length < span then none
    else (readRecords n (l.drop span)).map (fun r => (off, (l.drop 8).take len) :: r)

/-- The words of records: address and value. -/
def recordWords (l : List (Nat × List Byte)) : List (Nat × Nat) :=
  l.flatMap (fun r => (List.range (r.2.length / 4)).map (fun k => (r.1 + 4 * k, field r.2 (4 * k) 4)))

/-- R426, step 3: of the writes of one word only the last takes effect; what it ignores then leaves the value of step 1. -/
def lastWrites : List (Hit × Nat) → List (Hit × Nat)
  | [] => []
  | w :: l => if l.any (fun v => v.1 == w.1) then lastWrites l else w :: lastWrites l

/-- R425: the words that an image writes; none when it is a BAD_IMAGE. -/
def planWords (image : List Byte) : Option (List (Hit × Nat)) :=
  if image.length < 96 ∨ field image 0 4 ≠ 0x4E414C50 ∨ field image 4 2 ≠ 1 ∨ field image 12 4 ≠ image.length ∨
      field image 80 1 % 4 = 3 then none
  else (readRecords (field image 8 4) (image.drop 96)).bind (fun recs =>
    ((recordWords recs).mapM (fun w => (hitAt w.1).bind (fun h => if imageTarget h = true then some (h, w.2) else none))).map
      lastWrites)

/-- R425: one word of an image. -/
def State.imageWord (s : State) (h : Hit) (v : Nat) : State :=
  s.writeRwl h.reg h.i h.j (withHalf (s.regBits h.reg h.i h.j) h.high v)

/-- The members' read-only bits, as the plan's fields stand (R218, R334). -/
def State.syncMembers (s : State) : State :=
  let kept := s.regs.entries.filter (fun e => match e.1 with
    | [r, lo, _, _] => !(r == Reg.LST_MEMBER.ctorIdx && (lo == 61 || lo == 62)) && !(r == Reg.LST_STATE.ctorIdx && lo == 16)
    | _ => true)
  { s with regs := { entries := kept } }.syncFenced.syncPresent

/-- R175: LST_PLAN_STAT.LASTS counts the lasts that the plan defines. -/
def State.syncLasts (s : State) : State := s.wr F.LST_PLAN_STAT_LASTS s.lasts.length

/-- Every field that a load wrote returns to its reset value (R151, R430). -/
def State.undoPlan (s : State) : State := s.resetPlanFields.syncMembers.syncLasts

/-- R125, R128: no context has numeric state records. -/
def State.clearRecords (s : State) : State :=
  ((s.zeroAll F.NUM_STATE_BASE_ADDR).zeroAll F.NUM_STATE_BASE_LARGE).zeroAll F.NUM_WARM_CHUNKS

/-- R426, R431: a plan load ends FAILED; HST_OP_DETAIL holds LST_PLAN_CHECKS. -/
def State.failLoad (s : State) (slot code : Nat) : State :=
  (s.wr F.HST_OP_DETAIL_DETAIL (2 * s.rd F.LST_PLAN_CHECKS_FAILED) slot).endOp slot opFailed code

/-- R263, R426: the image goes through a pool-3 buffer of account 17, `n` blocks of 128 KiB, one after the other; `none`
while that buffer is refused. -/
def State.stageImage (s : State) (n : Nat) : Option State :=
  match s.allocNow (.block 131072) 17 reqMgt with
  | (none, _) => none
  | (some p, s) => some ((s.each (List.range n) (fun s _ => s.countBlock p)).freeObj p 17 reqMgt)

/-- R151, R426: the plan is CHECKING. -/
def State.underCheck (s : State) : State :=
  (s.wr F.LST_PLAN_CHECKS_FAILED 0).setPlan planChecking (s.rd F.LST_PLAN_STAT_STATUS)

/-- R426, steps 1 to 4: the RWL fields return to their reset values, the image is read, its records are written, and the plan
is CHECKING. The load waits while its staging buffer is refused. -/
def State.planLoad (s : State) (slot : Nat) (image : PlanFetch) : State :=
  match s.opIn slot oPlanLoad with
  | none => s
  | some op =>
    if op.loading then s
    else
      let s := s.undoPlan
      let len := op.args.getD 1 0
      let fetched (n : Nat) (s : State) : State := s.putOp slot { op with progress := n }
      match image with
      | .failed units => ((fetched (min units (ceilDiv len 4096 - 1)) s).latch F.HST_ERR_DMA_ERR).failLoad slot cDmaErr
      | .image l =>
        match s.stageImage (ceilDiv len 131072) with
        | none => s
        | some s =>
          let image := (l ++ List.replicate len 0).take len
          match planWords image with
          | none => (fetched (ceilDiv len 4096) s).failLoad slot cBadImage
          | some ws =>
            let s := (s.each ws (fun s w => s.imageWord w.1 w.2)).syncMembers.syncLasts
            let s := s.putOp slot { op with loading := true, progress := ceilDiv len 4096 }
            { s.underCheck with host := { s.host with
                planFw := field image 16 32, planDum := field image 48 32, planRole := field image 80 1 % 4
                planDigest := Config.shake256 image % 2 ^ 256
                restore := op.flags.testBit 0, shards := op.flags.testBit 1
                restoreLasts := bits (op.args.getD 2 0) 15 0, slotSel := bits (op.args.getD 2 0) 31 16 } }

/-! Acceptance (R153). -/

/-- R243: the lowest port of p's spray group. -/
def State.sprayBase (s : State) (p : Nat) : Nat :=
  let n := s.spineCount
  let role := s.rd F.GLB_ROLE_ROLE
  if role = 1 ∧ p % 4 = 3 ∧ goodSpines n = true then 4 * (p / 4 % n) + 3
  else if role = 2 ∧ goodSpines n = true then p / (64 / n) * (64 / n)
  else p

/-- The spore sets start anew: no epoch, no recovery, every group PROTECTED (R347, R355). -/
def State.clearSpore (s : State) : State :=
  let s := { s with spore := { s.spore with lasts := {}, groups := {} } }
  let s := s.each (List.range 16) (fun s t =>
    let s := (s.wr F.CKP_LAST_STAT_STATE ckpIdle t).wr F.CKP_LAST_STAT_HELD 0 t
    s.each (List.range 32) (fun s g =>
      (((s.wr F.CKP_GROUP_STAT_STATE grpProtected t g).wr F.CKP_GROUP_STAT_LOST 0 t g).wr F.CKP_GROUP_STAT_LOST_POS 0 t g).wr
        F.CKP_GROUP_STAT_EXPOSED 0 t g))
  s.syncDrain

/-- R374, R427: last t is restored from its image in the tier's parity slot; its parity and image are back in GDDR7. -/
def State.restoreLast (s : State) (t : Nat) : State :=
  let b := b2n (s.host.slotSel.testBit t)
  let (found, s) := if s.tierUp then s.slotImage t b else (none, s)
  let s := match found with
    | none => s.wr F.CKP_IMAGE_STATUS imgNotFound
    | some ⟨l, _, whole⟩ =>
      let st := if whole then s.imageStatus l s.host.planDigest else imgCheckFail
      let s := s.wr F.CKP_IMAGE_STATUS st
      if st ≠ imgRestored ∧ st ≠ imgNoHist then s
      else
        let e := field l 8 4
        let s := (s.applyImage l s.contexts).wr F.CKP_IMAGE_EPOCH e
        let s := (s.wr F.CKP_EPOCH_DONE e t).wr F.CKP_EPOCH_SECURED e t
        let s := s.reloadParity t b
        let s := s.setSpore t (fun q => { q with doneBuf := some b, securedSlot := some b })
        -- R428
        if s.host.shards = false ∨ (field l 7 1).testBit 0 = false then s
        else
          let covered := s.coveredBy t
          let s := s.setSpore t (fun q => { q with
            fullImage := some b, fullSlot := some (b2n ((field l 7 1).testBit 2))
            recovery := some { full := some (e, b2n ((field l 7 1).testBit 2)), paused := covered, loaded := true } })
          let s := s.each (s.groups t) (fun s g => s.wr F.CKP_GROUP_STAT_STATE grpRestoring t g)
          let s := s.each covered (fun s u => (s.wr F.LST_STATE_STATE lstPaused u).wr F.CKP_LAST_STAT_STATE ckpPaused u)
          s.wr F.CKP_LAST_STAT_STATE ckpRestoring t
  s.planRecord

/-- R153, R164, R177, R179, R226, R239, R243, R256, R346, R413, R427: what plan acceptance does in its cycle. -/
def State.acceptPlan (s : State) (degraded : Bool) : State :=
  let s := s.setPlan planAccepted (s.rd F.LST_PLAN_STAT_STATUS)
  let xs := s.contexts
  let s := (s.wr F.LST_PLAN_STAT_CONTEXTS xs.length).syncLasts
  let s := s.setDigest F.LST_PLAN_DIGEST_DIGEST s.host.planDigest
  -- ports: spray groups, banks, classes
  let s := s.each (List.range 256) (fun s p => (s.wr F.SCH_PORT_CFG_GROUP_BASE (s.sprayBase p) p).setBank p 0)
  let missing := (List.range 256).filter (fun p => s.rd F.PRT_DISC_OUTCOME p == 4 || s.rd F.PRT_DISC_OUTCOME p == 5)
  let groups := if degraded then ((missing.map (fun p => s.rd F.SCH_PORT_CFG_DEG_GROUP p)).eraseDups).filter (· != 0) else []
  let s := s.each groups (fun s g => s.each (s.degPorts g) (fun s p => s.setBank p 1))
  let s := s.each (List.range 256) State.syncOpp
  let s := { s with sched := { s.sched with running := false, degPending := [], txSeq := {}, winLand := {} } }
  -- lasts, buffers, welt memory
  let s := (s.rebuildScheduled).syncMembers
  let s := s.each s.lasts (fun s t =>
    let found := (s.operands t).all (fun r => s.flag F.LST_MEMBER_PRESENT t r)
    s.wr F.LST_STATE_STATE (if found then lstActive else lstDegraded) t)
  let s := s.wr F.WLT_SHARED_GRANULES (64 - sumOver s.lasts (fun t => s.rd F.WLT_QUOTA_GRANULES t))
  -- contexts and records (R115, R125)
  let s := ({ s with ctx := {} }.zeroAll F.NUM_OPSEQ_OPNUM).clearRecords
  let s := s.each xs (fun s x =>
    let s := (s.wr F.OPC_STATE_STATE ctxIdle x).wr F.WLT_CTX_NEED (s.need x) x
    if s.kind x = kRedistribute then s.wr F.OPC_EXPECT_SWATCHES (s.runSwatches x) x else s)
  let s := s.each s.recordPlan.1 (fun s r =>
    ((s.wr F.NUM_STATE_BASE_ADDR r.2 r.1).wr F.NUM_STATE_BASE_LARGE (b2n (recordSize (s.outFmt r.1) == 512)) r.1).warmUp r.1)
  -- spore sets
  let s := s.clearSpore
  let s := s.each s.lasts (fun s t =>
    ((s.wr F.CKP_EPOCH_DONE noEpoch t).wr F.CKP_EPOCH_SECURED noEpoch t).wr F.CKP_FULL_EPOCH noEpoch t)
  let exposed := s.allGroups.filter (fun g => s.groupConflicts g.1 g.2)
  let s := s.each s.lasts (fun s t => s.wr F.LST_STATE_EXPOSED (b2n (exposed.any (fun g => g.1 == t))) t)
  let s := s.each exposed (fun s g => s.wr F.CKP_GROUP_STAT_EXPOSED 1 g.1 g.2)
  let s := (s.wr F.CKP_IMAGE_STATUS 0).wr F.CKP_IMAGE_EPOCH noEpoch
  if s.host.restore then s.each ((List.range 16).filter s.host.restoreLasts.testBit) State.restoreLast else s

/-- R151, R152, R335: the plan that is CHECKING is checked, with the outcomes of the ports taken against it, and goes to EMPTY,
DEGRADED or ACCEPTED. -/
def State.planCheck (s : State) : State :=
  match s.slotOf oPlanLoad with
  | none => s
  | some slot =>
    if (s.opIn slot oPlanLoad).map LongOp.loading ≠ some true ∨ s.planState ≠ planChecking then s
    else
      let s := s.takeOutcomes
      let checks := s.planChecks
      let failed := checks.filter (fun c => c.2.1)
      let s := s.wr F.LST_PLAN_CHECKS_FAILED (sumOver failed (fun c => 2 ^ (c.1 - 1)))
      match failed.find? (fun c => !c.2.2) with
      | some c =>
        let s := s.undoPlan.setPlan planEmpty c.1
        s.forgetExpected.failLoad slot c.1
      | none =>
        if failed.any (fun c => c.1 == 0x0B) then (s.setPlan planDegraded 0x0B).endOp slot opDone 0x0B
        else ((s.wr F.LST_PLAN_STAT_STATUS 0).acceptPlan false).endOp slot opDone 0

/-- R151, R152, R256: the host accepts the degraded pattern. -/
def State.planAcceptDegraded (s : State) (slot : Nat) : State :=
  match s.opIn slot oAcceptDegraded with
  | none => s
  | some _ => if s.planState = planDegraded then ((s.wr F.LST_PLAN_STAT_STATUS 0).acceptPlan true).endOp slot opDone 0 else s

/-! Retirement (R154). -/

/-- Every declared context is IDLE. -/
def State.allIdle (s : State) : Bool := s.contexts.all (fun x => s.ctxState x == ctxIdle || s.ctxState x == ctxUndeclared)

/-- What is left of a plan when it becomes EMPTY (R151, R153, R195, R248, R333). -/
def State.emptyPlan (s : State) : State :=
  let s := s.each s.contexts (fun s x =>
    let s := ((s.wr F.OPC_STATE_STATE ctxUndeclared x).wr F.OPC_STATE_EARLY 0 x).wr F.OPC_STATE_DESCS 0 x
    ((s.wr F.WLT_CTX_LISTED 0 x).wr F.WLT_CTX_LIMIT (2 ^ 32 - 1) x).wr F.WLT_CTX_NEED 0 x |>.wr F.WLT_CTX_WAITING 0 x)
  let held := s.sched.chgHeld ++ (List.range 16).flatMap (fun t => (s.sporeLast t).held)
  let s := { s with
    ctx := {}
    comp := { s.comp with holds := {}, spines := {} }
    sched := { s.sched with running := false, degPending := [], chgHeld := [] } }
  let s := s.each (List.range 16) (fun s t =>
    ((s.wr F.WLT_STATE_STATE wltGranted t).wr F.LST_STATE_STATE lstEmpty t).wr F.LST_STATE_EXPOSED 0 t)
  let s := s.clearSpore.freeAllStreams.clearRecords
  let s := s.wr F.LST_PLAN_STAT_CONTEXTS 0
  let s := s.setPlan planEmpty (s.rd F.LST_PLAN_STAT_STATUS)
  let s := s.forgetExpected
  let s := s.each (List.range 256) State.syncOpp
  s.work (held.map (fun h => Work.item h.1 h.2))

/-- R255: a GO written in the store cycle in which a retire command is accepted is refused. -/
def State.refuseGo (s : State) : State :=
  match s.noted (fun m => match m with
    | .go st bank held => some (st, bank, held)
    | _ => none) with
  | none => s
  | some (st, bank, held) =>
    (((s.wr F.SCH_CHG_STAT_STATE st).wr F.SCH_CHG_STAT_BANK bank).wr F.SCH_CHG_STAT_HELD held).inc F.SCH_CHG_STAT_REFUSED

/-- R158: an operation that opened in this store cycle has not: its context is IDLE. -/
def State.unopen (s : State) (x : Nat) : State :=
  let o := s.op x
  let s := s.closeRelease x (s.opnum x) o
  let s := s.each openFields (fun s f => s.restoreWas f x)
  let s := ((s.wr F.OPC_STATE_STATE ctxIdle x).wr F.OPC_STATE_DESCS 0 x).wr F.OPC_STATE_EARLY 0 x
  (s.setOp x (fun _ => {})).work (o.early.map (Work.early x))

/-- R154, R158: the items accepted in the store cycle in which a plan's retirement is forced are dropped: counted in
OPC_UNDECL, and what has opened with them is not open. -/
def State.takeBackItems (s : State) : State :=
  let now := (s.marks.filter (fun e => e.1 / 2 == s.now / 2)).map Prod.snd
  let s := s.each (now.reverse.filterMap (fun m => match m with
    | .accepted x p => some (x, p)
    | _ => none)) (fun s (x, p) => s.dropUndecl p x)
  s.each ((now.filterMap (fun m => match m with
    | .opened x => some x
    | _ => none)).eraseDups.filter (fun x => s.ctxState x == ctxOpen || s.ctxState x == ctxFlush)) State.unopen

/-- R154: an accepted retire command: RETIRING, with every context that is not IDLE aborted when FORCE is set; a DEGRADED
plan becomes EMPTY. -/
def State.planRetire (s : State) (slot : Nat) : State :=
  match s.opIn slot oPlanRetire with
  | none => s
  | some op =>
    if s.planState = planDegraded then s.emptyPlan.endOp slot opDone 0
    else if s.planState = planAccepted ∨ s.planState = planRetiring then
      let s := if s.planState = planAccepted then s.setPlan planRetiring (s.rd F.LST_PLAN_STAT_STATUS) else s
      if op.flags.testBit 0 then
        let s := s.takeBackItems
        s.work ((s.contexts.filter (fun x => s.ctxState x != ctxIdle && s.ctxState x != ctxClosing)).map
          (fun x => Work.ask x stAborted))
      else s
    else s

/-- R151: every context of a RETIRING plan is IDLE. -/
def State.planRetired (s : State) : State :=
  if s.planState = planRetiring ∧ s.allIdle = true then
    let slot := s.slotOf oPlanRetire
    let s := s.emptyPlan
    match slot with
    | none => s
    | some i => s.endOp i opDone 0
  else s

/-! Members (R336, R364, R429). -/

/-- The ports that a REMAP command names. -/
def namedPorts (args : List Nat) : List Nat := (List.range 4).flatMap (fun i => (bitsOf (args.getD i 0) 64).map (64 * i + ·))

/-- R336: the remap succeeds with its effects, or changes nothing. -/
def State.remap (s : State) (slot : Nat) : State :=
  match s.opIn slot oRemap with
  | none => s
  | some op =>
    let ps := namedPorts op.args
    if s.remapOk ps then (s.remapDo ps).endOp slot opDone 0 else s.endOp slot opFailed cRemapRefused

/-- The fields of MEMBER_REPLACE: last, rank, port, IDENT (R423). -/
def replaceArgs (args : List Nat) : Nat × Nat × Nat × Nat :=
  let a := args.getD 0 0
  (bits a 3 0, bits a 23 8, bits a 31 24, bits a 63 32)

/-- R336, R364: banks 0 and 1 and DEG_GROUP of a port move to another. -/
def State.movePort (s : State) (p q : Nat) : State :=
  let s := (s.dropWins (s.winsOf (· == q))).moveWins (s.winsOf (· == p)) (fun _ => q)
  (s.wr F.SCH_PORT_CFG_DEG_GROUP (s.rd F.SCH_PORT_CFG_DEG_GROUP p) q).wr F.SCH_PORT_CFG_DEG_GROUP 0 p

/-- R334, R364: discovery of a port starts again: an UP port negotiates anew. A quarantine goes on. -/
def State.rediscover (s : State) (p : Nat) : State :=
  if !s.portUp p then s.setOutcome p (s.waitingOutcome p)
  else
    let s := s.setPort p (fun pt => { pt with concluded := false, identity := [], identHeld := none, upSince := some s.now })
    let s := s.wr F.PRT_DISC_STATE 1 p
    s.setOutcome p (s.waitingOutcome p)

/-- R364, R429: the member's entry is rewritten, and discovery of its port starts again; the command waits. -/
def State.memberReplace (s : State) (slot : Nat) : State :=
  match s.opIn slot oMemberReplace with
  | none => s
  | some op =>
    if op.loading then s
    else
      let (t, rank, port, ident) := replaceArgs op.args
      match s.operandOf t rank with
      | none => s
      | some r =>
        let old := s.memberPort t r
        let s := s.wr F.LST_MEMBER_IDENT ident t r
        let s := if s.flag F.LST_CFG_PORT_AGNOSTIC t && old != port then (s.movePort old port).wr F.LST_MEMBER_PORT port t r else s
        let s := s.putOp slot { op with loading := true, since := s.now }
        ((s.rediscover port).syncMembers.syncOpp port).syncReplace

/-- R423, R429: the member is PRESENT, and its fence is clear: the management firmware clears it (R364). -/
def State.replaceDone (s : State) (slot : Nat) : State :=
  match s.opIn slot oMemberReplace with
  | none => s
  | some op =>
    let (t, rank, port, _) := replaceArgs op.args
    match s.operandOf t rank with
    | none => s
    | some r =>
      if op.loading = false ∨ s.flag F.LST_MEMBER_PRESENT t r = false then s
      else
        let s := s.unfence [port]
        if s.fenced port then s else s.endOp slot opDone 0

/-- R429: TIMEOUT_MS has elapsed first. -/
def State.replaceTimeout (s : State) (slot : Nat) : State :=
  match s.opIn slot oMemberReplace with
  | none => s
  | some op =>
    let limit := bits (op.args.getD 1 0) 31 0
    if op.loading = true ∧ limit ≠ 0 ∧ op.since + ms limit ≤ s.now then s.endOp slot opFailed cTimeout else s

end Sys2Proof.Machine
end

