-- ==== Sys2Proof/Machine/Mailbox.lean ====
section
/-!
DEFINITION. The mailbox: contradictory orders, the decision of a command, its abort, and the memory commands
(R410, R416, R420 to R432, R462, R474, R475).
-/

namespace Sys2Proof.Machine

/-! Contradictory orders (R475). -/

/-- R475: the things that two classes may order, as SEC_AUTH_LAST names them. -/
def thDomain : Nat := 1
def thDebug : Nat := 2
def thChip : Nat := 3

/-- R475: an order is noted; an opposite one of the other class in the same management cycle makes a conflict, which is
raised, captured, counted and recorded. -/
def State.noteOrder (s : State) (thing index : Nat) (host : Bool) (code : Nat) : State :=
  let now := s.mgmtCycle
  let others := s.sec.orders.filter (fun o => o.cycle == now && o.thing == thing && o.index == index && o.host != host &&
    (thing != thDomain || o.code != code))
  let mine : Order := { thing, index, host, code, cycle := now }
  let s := { s with sec := { s.sec with orders := s.sec.orders.filter (fun o => o.cycle == now) ++ [mine] } }
  match others.getLast? with
  | none => s
  | some o =>
    let h := if host then code else o.code
    let m := if host then o.code else code
    let s := (s.wr F.SEC_AUTH_LAST_THING thing).wr F.SEC_AUTH_LAST_INDEX (if thing = thDomain then index else 0)
    let s := ((s.wr F.SEC_AUTH_LAST_HOST h).wr F.SEC_AUTH_LAST_MGT m).inc F.SEC_AUTH_LAST_COUNT
    let s := s.raise stopMgt 6
    s.triggerOther 6 (s.regBits .SEC_AUTH_LAST 0 0 / 2 ^ 16 * 2 ^ 16)

/-! Decisions (R422, R424, R430, R463). -/

/-- A mailbox command as sampled at its decision. -/
structure MbxCmd where
  irq    : Bool
  slot   : Nat
  tag    : Nat
  opcode : Nat
  flags  : Nat
  args   : List Nat
  deriving DecidableEq, Repr

/-- The fields of HST_MBX_CMD with the arguments of HST_MBX_ARG. -/
def State.mbxCmd (s : State) (value : Nat) : MbxCmd :=
  { irq := value.testBit 62, slot := bits value 50 48, tag := bits value 47 40, opcode := bits value 39 32
    flags := bits value 31 0, args := (List.range 8).map (fun i => s.rd F.HST_MBX_ARG_ARG i) }

def MbxCmd.arg (c : MbxCmd) (i : Nat) : Nat := c.args.getD i 0

/-- R423: SPACE and ADDR of a memory command. -/
def memSpace (args : List Nat) : Nat := bits (args.getD 0 0) 63 62
def memAddr (args : List Nat) : Nat := bits (args.getD 0 0) 40 0

/-- R423, R463: the opcodes listed. -/
def knownOpcodes : List Nat :=
  [oPlanLoad, oAcceptDegraded, oPlanRetire, oRemap, oMemberReplace, oMemRead, oMemWrite, oAttest, oIdentRead, oImageWrite,
   oSvnCommit, oTokenSet, oAbort]

/-- R452: bytes of a firmware or configuration slot. -/
def nvmSlotSize (config : Bool) : Nat := if config then 0x200000 else 0x1000000

/-- R424: BAD_ARG. -/
def State.badArg (s : State) (c : MbxCmd) : Bool :=
  if c.opcode = oPlanLoad then
    decide (c.arg 1 < 96 ∨ 4294967295 < c.arg 1) || c.arg 1 % 8 != 0
  else if c.opcode = oMemberReplace then
    let (t, rank, port, _) := replaceArgs c.args
    match s.operandOf t rank with
    | none => true
    | some r => s.memberPort t r != port && !s.flag F.LST_CFG_PORT_AGNOSTIC t
  else if c.opcode = oMemRead ∨ c.opcode = oMemWrite then
    memAddr c.args % 4096 != 0 || c.arg 1 % 4096 != 0 || c.arg 2 % 4096 != 0
  else if c.opcode = oImageWrite then decide (nvmSlotSize (c.flags.testBit 0) < c.arg 1)
  else false

/-- Some slot runs an operation with such an opcode. -/
def State.anyOp (s : State) (p : Nat → Bool) : Bool :=
  (List.range 8).any (fun i => match s.hostOp i with
    | none => false
    | some op => p op.opcode)

/-- R424, R463: BUSY. -/
def State.slotBusy (s : State) (c : MbxCmd) : Bool :=
  c.opcode != oAbort &&
    ((s.hostOp c.slot).isSome || (isPlanOp c.opcode && s.anyOp isPlanOp) ||
      (c.opcode == oPlanLoad && s.anyOp (· == oMemWrite)) || (isSecOp c.opcode && s.anyOp isSecOp))

/-- R430: the operation of slot i may be aborted. -/
def State.abortable' (s : State) (i : Nat) : Bool :=
  match s.hostOp i with
  | none => false
  | some op => op.opcode != oPlanRetire && (op.opcode != oPlanLoad || s.planState == planEmpty)

/-- R424, R463: WRONG_STATE. -/
def State.wrongState (s : State) (c : MbxCmd) : Bool :=
  if c.opcode = oAcceptDegraded ∨ c.opcode = oRemap then s.planState != planDegraded
  else if c.opcode = oPlanRetire then
    s.planState == planEmpty || s.planState == planChecking || (!c.flags.testBit 0 && !s.allIdle)
  else if c.opcode = oMemberReplace then
    let (t, rank, _, _) := replaceArgs c.args
    let lost := match s.operandOf t rank with
      | none => false
      | some r => (s.groups t).any (fun g => (s.lostPositions t g).any (fun i => s.rd F.CKP_GROUP_BASE t g + i == r))
    s.planState != planAccepted || s.lastState t != lstPaused || !lost
  else if c.opcode = oMemWrite then (memSpace c.args == 0 || memSpace c.args == 3) && s.planState != planEmpty
  else if c.opcode = oAbort then !s.abortable' (c.flags % 8)
  else if c.opcode = oAttest then s.flag F.SEC_STAT_IDENT_STALE
  else if c.opcode = oTokenSet then s.flag F.SEC_STAT_DEBUG_OPEN
  else false

/-- R424: bytes of a space; RANGE. -/
def State.spaceBytes (s : State) (space : Nat) : Nat :=
  if space = 0 then s.gddrBytes
  else if space = 3 then s.sporeBytes
  else s.rd F.MEM_CXL_CAP_GIB (space - 1) * gib
def State.outOfSpace (s : State) (c : MbxCmd) : Bool :=
  (c.opcode == oMemRead || c.opcode == oMemWrite) &&
    (decide (s.spaceBytes (memSpace c.args) < memAddr c.args + c.arg 2) ||
      (decide (1 ≤ memSpace c.args ∧ memSpace c.args ≤ 2) && s.rd F.MEM_CXL_CAP_GIB (memSpace c.args - 1) == 0))

/-- R424: the decision of a command: the first code that applies. -/
def State.mbxCode (s : State) (c : MbxCmd) : Nat :=
  if !knownOpcodes.contains c.opcode then 0x40
  else if s.badArg c then 0x41
  else if s.slotBusy c then 0x42
  else if c.opcode = oPlanLoad ∧ s.planState ≠ planEmpty then 0x01
  else if s.wrongState c then 0x43
  else if s.outOfSpace c then 0x46
  else 0

/-- R430: an abort of slot i ends its operation. -/
def State.abortOp (s : State) (i : Nat) : State :=
  match s.hostOp i with
  | none => s
  | some op =>
    let s := if op.opcode = oPlanLoad then
        let s := s.undoPlan
        s.wr F.HST_OP_DETAIL_DETAIL (2 * s.rd F.LST_PLAN_CHECKS_FAILED) i
      else s
    s.endOp i opAborted cAborted

/-- R422, R424, R429, R430: a command is decided, with the arguments as they stand now. -/
def State.decideMbx (s : State) (value : Nat) : State :=
  let c := s.mbxCmd value
  let code := s.mbxCode c
  let s := { s with host := { s.host with deciding := none } }.wr F.HST_MBX_RESP_BUSY 0
  let s := ((s.wr F.HST_MBX_RESP_TAG c.tag).wr F.HST_MBX_RESP_OPCODE c.opcode).wr F.HST_MBX_RESP_CODE code
  if code ≠ 0 then s
  else if c.opcode = oAbort then s.abortOp (c.flags % 8)
  else
    let op : LongOp := { opcode := c.opcode, tag := c.tag, irq := c.irq, flags := c.flags, args := c.args, since := s.now }
    let s := if c.opcode = oPlanRetire then s.refuseGo.mark .retire else s
    let s := (s.putOp c.slot op).wr F.HST_OP_DETAIL_DETAIL 0 c.slot
    if c.opcode = oMemberReplace then s.memberReplace c.slot else s

/-- R422, R430, R458, R474: a write of HST_MBX_CMD. In the cycle of a chip reset it is lost. While BUSY it is discarded;
else the command is decided now, or BUSY stands until it is decided, within 2 µs (DESIGN CHOICE, log 139: the operand `delay`
says when). -/
def State.mailbox (s : State) (value delay : Nat) : State :=
  if !value.testBit 63 || s.marked .reset 16 then s
  else if s.flag F.HST_MBX_RESP_BUSY then s.latch F.HST_ERR_CMD_DISCARD
  else
    let s := s.noteOrder thChip 0 true 1
    if delay = 0 then s.decideMbx value
    else { s with host := { s.host with deciding := some (value, s.now + min delay (us 2)) } }.wr F.HST_MBX_RESP_BUSY 1

/-- R422: the command that waits is decided in its cycle. -/
def State.mailboxTick (s : State) : State :=
  match s.host.deciding with
  | none => s
  | some (value, at_) => if at_ ≤ s.now then s.decideMbx value else s

/-- R429: a MEMBER_REPLACE that waits for its decision in this slot is decided; what it rewrites, it rewrites then. -/
def State.replaceDecided (s : State) (slot : Nat) : State :=
  match s.host.deciding with
  | none => s.memberReplace slot
  | some (value, _) =>
    if (s.mbxCmd value).opcode = oMemberReplace ∧ (s.mbxCmd value).slot = slot then s.decideMbx value else s.memberReplace slot

/-! Memory commands (R423, R432). -/

/-- The expander port of an address of a space, for spaces 1 to 3. -/
def State.spacePort (s : State) (space addr : Nat) : Nat := if space = 3 then (s.sporeAt (addr / 4096)).1 else space - 1

/-- The links that a space needs are up. -/
def State.spaceUp (s : State) (space addr : Nat) : Bool := space == 0 || s.cxlUp (s.spacePort space addr)

/-- One 4 KiB unit of a space (R462). -/
def State.readUnit (s : State) (space addr : Nat) : Option (List Byte) × State :=
  if space = 0 then s.gddrRead addr 4096
  else if space = 3 then s.readGranule (addr / 4096)
  else if s.poisoned (space - 1) addr then (none, s.readPoison (space - 1) addr)
  else (some (s.cxlRead (space - 1) addr 4096), s)
def State.writeUnit (s : State) (space addr : Nat) (l : List Byte) : Bool × State :=
  if space = 0 then s.gddrWrite addr l
  else (true, if space = 3 then s.sporeWrite (addr / 4096) l else s.cxlWrite (space - 1) addr l)

/-- R416: where an address of a space lies in its expander. -/
def State.spaceAddr (s : State) (space addr : Nat) : Nat := if space = 3 then (s.sporeAt (addr / 4096)).2 else addr

/-- R432: a memory command fails: HST_OP_DETAIL gives the address, in the form of ARG0 or as a host address. -/
def State.failMem (s : State) (slot code detail : Nat) : State :=
  (s.wr F.HST_OP_DETAIL_DETAIL detail slot).endOp slot opFailed code

/-- The next unit of the memory command of a slot: read and sent, or written; the command goes on when units remain. -/
def State.memUnit (s : State) (slot opcode : Nat) (fail : Option MemFail) (data : List Byte) : State :=
  match s.opIn slot opcode with
  | none => s
  | some op =>
    let units := op.args.getD 2 0 / 4096
    let space := memSpace op.args
    let addr := memAddr op.args + 4096 * op.progress
    let host := op.args.getD 1 0 + 4096 * op.progress
    let device := space * 2 ^ 62 + addr
    let finish (s : State) : State :=
      let op := { op with progress := op.progress + 1, part := true }
      let s := s.putOp slot op
      if op.progress = units then s.endOp slot opDone 0 else s
    if op.progress = units then s.endOp slot opDone 0
    else if !s.spaceUp space addr then s.failMem slot cLinkDown device
    else if space = 3 ∧ s.mem.keyed = false then s
    else if space = 0 ∧ s.aheadOfHost [addr] 4096 = true then s
    else match fail with
      | some .dma => (s.latch F.HST_ERR_DMA_ERR).failMem slot cDmaErr host
      | some (.uncorr a) =>
        if opcode = oMemWrite then
          -- R416: a write that completes with an error is counted, and made again
          if space = 0 then s else s.inc F.MEM_CXL_ERR_WRITE_FAIL 1 (s.spacePort space addr)
        else
          let s := if space = 0 then s.gddrUncorr a else s.readPoison (s.spacePort space addr) (s.spaceAddr space addr)
          s.failMem slot cMemUncorr device
      | none =>
        if opcode = oMemWrite then
          -- R409: a unit on a FAILED channel is not written (DEDUCED, log 138)
          match s.writeUnit space addr ((data ++ List.replicate 4096 0).take 4096) with
          | (true, s) => finish s
          | (false, s) => s.failMem slot cMemUncorr device
        else match s.readUnit space addr with
          | (none, s) => s.failMem slot cMemUncorr device
          | (some l, s) => finish (s.emit (.hostWrite host l))

/-- R263, R264: units of a memory command go through a transfer block of account 17, of at most 256 KiB. The answer says
whether the block was granted. -/
def State.memBlock (s : State) (slot opcode : Nat) (data : List (List Byte)) : Bool × State :=
  match s.allocNow (.block (4096 * data.length)) 17 reqMgt with
  | (none, s) => (false, s)
  | (some p, s) => (true, ((s.each data (fun s l => s.memUnit slot opcode none l)).countBlock p).freeObj p 17 reqMgt)

/-- R432: the units of a memory command, one 4 KiB unit after the other; then its failure at the next one, if any. The
command waits while its transfer block is refused. -/
def State.memUnits (s : State) (slot opcode : Nat) (data : List (List Byte)) (fail : Option MemFail) : State :=
  if (s.opIn slot opcode).isNone then s
  else
    let (ok, s) := (List.range (ceilDiv data.length 64)).foldl (fun (r : Bool × State) k =>
      if r.1 then r.2.memBlock slot opcode ((data.drop (64 * k)).take 64) else r) (true, s)
    if ok && fail.isSome then s.memUnit slot opcode fail [] else s
def State.memRead (s : State) (slot units : Nat) (fail : Option MemFail) : State :=
  s.memUnits slot oMemRead (List.replicate units []) fail
def State.memWrite (s : State) (slot : Nat) (data : List (List Byte)) (fail : Option MemFail) : State :=
  s.memUnits slot oMemWrite data fail

/-! The host link (R420). -/

/-- R420, R458: the HST registers but HST_LINK_STAT return to their reset values; BUSY reads 1 until stage DONE. -/
def State.resetHst (s : State) : State :=
  let hst (r : Reg) : Bool := (r == .HST_MBX_ARG || r == .HST_MBX_CMD || r == .HST_MBX_RESP || r == .HST_OP ||
    r == .HST_OP_DETAIL || r == .HST_ERR || r == .HST_ERR_ADDR)
  let keys := ((Reg.all.filter hst).map (fun r => r.ctorIdx))
  let s := { s with
    regs := { entries := s.regs.entries.filter (fun e => !keys.contains (e.1.headD 0)) }
    host := { s.host with deciding := none } }
  s.wr F.HST_MBX_RESP_BUSY (b2n (s.rd F.BOOT_STAT_STAGE != 6))

/-- R420: what a Function Level Reset, or the loss of the host link, does. -/
def State.hostReset (s : State) : State :=
  (s.each (List.range 8) (fun s i => match s.hostOp i with
    | none => s
    | some op =>
      if op.opcode = oPlanLoad ∧ s.planState = planEmpty then s.undoPlan.failLoad i cDmaErr
      else if isDmaOp op.opcode then s.endOp i opFailed cDmaErr
      else s)).resetHst

/-- The link of CXL memory port i carries a space. -/
def State.spaceUses (s : State) (space i : Nat) : Bool :=
  if space = 0 then false
  else if space = 3 then decide (0 < s.rd F.CKP_TIER_GIB i) || (i == 1 && s.rd F.CKP_TIER_GIB 0 == 0)
  else i == space - 1

/-- R430: the MEM commands whose space a CXL memory link carries end FAILED when it goes down, at the unit they have reached. -/
def State.failSpaces (s : State) (i : Nat) : State :=
  s.each (List.range 8) (fun s k => match s.hostOp k with
    | none => s
    | some op =>
      if (op.opcode == oMemRead || op.opcode == oMemWrite) && s.spaceUses (memSpace op.args) i then
        s.failMem k cLinkDown (memSpace op.args * 2 ^ 62 + (memAddr op.args + 4096 * op.progress))
      else s)

/-- R420: the host link leaves its up state, or (`flr`) the host resets the function. -/
def State.hostLinkDown (s : State) (flr : Bool) : State :=
  if flr then (if s.flag F.HST_LINK_STAT_UP then s.hostReset else s)
  else if !s.flag F.HST_LINK_STAT_UP then s
  else
    let s := ((s.wr F.HST_LINK_STAT_UP 0).wr F.HST_LINK_STAT_SPEED 0).wr F.HST_LINK_STAT_WIDTH 0
    let s := (s.inc F.HST_LINK_STAT_DOWNS).raise stopMgt 51
    s.hostReset

end Sys2Proof.Machine
end

