-- ==== Sys2Proof/Machine/Collector.lean ====
section
/-!
DEFINITION. The fault collector: messages, decisions, reactions, clearing, notices and the safe state (R378 to R395,
R485).
-/

namespace Sys2Proof.Machine

/-! Messages on the lacing ring (R54, R378). -/

/-- R378: the oldest fault message on a ring reaches the collector; the second copy of one is discarded. -/
def State.faultMessage (s : State) (ring : Ring) : State :=
  match s.flt.flight.find? (fun m => m.1 == ring) with
  | none => s
  | some m =>
    let s := s.takeOff ring m.2.packet
    let rest := s.flt.flight.erase m
    let id := (m.2.die, m.2.seq)
    if s.flt.seen.contains id then
      { s with flt := { s.flt with flight := rest, seen := s.flt.seen.filter (· != id) } }
    else
      let other := (rest ++ s.flt.entry).any (fun k => k.1 != ring && k.2.die == m.2.die && k.2.seq == m.2.seq)
      { s with flt := { s.flt with
          flight := rest, seen := if other then s.flt.seen ++ [id] else s.flt.seen } }.deliver m.2

/-! Reactions (R384 to R387). -/

/-- R384: an interrupt on a vector: at once, or merged into one message at the end of the vector's holdoff. -/
def State.sendInt (s : State) (v : Nat) : State :=
  let h := s.flt.hold.get [v]
  let free := match h.last with
    | none => true
    | some t => decide (t + us (s.rd F.FLT_GCFG_INT_HOLDOFF_US) ≤ s.now)
  let put (s : State) (h : IntHold) : State := { s with flt := { s.flt with hold := s.flt.hold.set [v] h } }
  if free && !h.merged then (put s { last := some s.now, merged := false }).msix v else put s { h with merged := true }

/-- R384: the holdoff of a vector has ended. -/
def State.holdoffEnd (s : State) (v : Nat) : State :=
  let h := s.flt.hold.get [v]
  let due := match h.last with
    | none => true
    | some t => decide (t + us (s.rd F.FLT_GCFG_INT_HOLDOFF_US) ≤ s.now)
  if h.merged && due then
    { s with flt := { s.flt with hold := s.flt.hold.set [v] { last := some s.now, merged := false } } }.msix v
  else s

/-- R387: a notice of a source goes to the management station, with its 24 bytes. -/
def State.sendNotice (s : State) (src : Nat) : State :=
  let ks := (List.range 8).filter (fun k => s.flag F.SEC_MGT_PEER_VALID k && s.flag F.SEC_MGT_PEER_STATION k)
  if !ks.isEmpty then
    s.emit (.notice (ks.map (fun k => s.rd F.SEC_MGT_PEER_MAC k)) (bytesLE 1 src ++ bytesLE 1 (s.rdStart F.FLT_SRC_CFG_SEVERITY src 0 16) ++ bytesLE 2 0 ++
      bytesLE 4 (s.rd F.FLT_SRC_INFO_DETAIL src) ++ bytesLE 4 (s.rd F.FLT_SRC_COUNT_COUNT src) ++
      bytesLE 4 (s.rd F.FLT_SRC_INFO_OP_SECONDS src) ++ bytesLE 8 ((s.flt.recSeq.get [src]).getD (2 ^ 64 - 1))))
  else s

/-- R385: the reset of the unit that a source's DETAIL names; a DETAIL beyond the units names none. -/
def State.blockReset (s : State) (src detail : Nat) : State :=
  if resetUnit src = 1 then
    if 256 ≤ detail then s
    else
      let s := s.portDown detail
      let s := s.setPort detail (fun p => { p with offUntil := some (s.now + ms 1) })
      (s.hwFence detail).syncLink detail
  else if resetUnit src = 2 then
    if 16 ≤ detail then s
    else (s.setLaserEnable detail false).setLaser detail (fun l => { l with resetUntil := some (s.now + ms 100) })
  else if resetUnit src = 3 then
    if 2 ≤ detail ∨ s.cxlUp detail = false then s
    else
      let s := ((s.wr F.MEM_CXL_STAT_UP 0 detail).wr F.MEM_CXL_STAT_SPEED 0 detail).wr F.MEM_CXL_STAT_WIDTH 0 detail
      let s := s.inc F.MEM_CXL_STAT_DOWNS 1 detail
      s.setLevel stopMgt 50 detail detail true
  else if resetUnit src = 4 then s.hostLinkDown false
  else s

/-- R379, R384, R386, R396: the reactions to a raise of a source; `rose`: PENDING went from 0 to 1. -/
def State.react (s : State) (src detail : Nat) (rose : Bool) : State :=
  -- R383: a write of this management cycle counts from the next one
  let cfg (f : Fld) : Bool := s.rdStart f src 0 16 != 0
  let severity := s.rdStart F.FLT_SRC_CFG_SEVERITY src 0 16
  let mode := s.rdStart F.FLT_SRC_CFG_RECORD src 0 16
  let record := mode == 2 || (mode == 1 && rose)
  let seq := if record then s.nextTriggerSeq src else none
  let s := { s with flt := { s.flt with recSeq := s.flt.recSeq.set [src] seq } }
  let s := if record then
      s.trigger 1 src severity (s.rdStart F.FLT_SRC_CFG_SET src 0 16) detail
    else s
  let s := s.emit (.irq src)
  let s := if cfg F.FLT_SRC_CFG_INT && rose then (s.sendInt severity).sendNotice src else s
  let s := if cfg F.FLT_SRC_CFG_NMI then s.emit (.nmi src) else s
  let s := if cfg F.FLT_SRC_CFG_BLOCK_RESET then s.blockReset src detail else s
  if cfg F.FLT_SRC_CFG_CHIP_RESET && rose && s.flt.reaction.isNone then
    let s := { s with flt := { s.flt with reaction := some { source := src, since := s.now, record := seq } } }
    ((s.wr F.FLT_RESET_CAUSE_VALID 1).wr F.FLT_RESET_CAUSE_KIND 2).wr F.FLT_RESET_CAUSE_SOURCE src |>.wr F.FLT_RESET_CAUSE_FROM_SAFE 0
  else s

/-- What a decided raise changes in its source's registers. -/
def decidedFields : List Fld :=
  [F.FLT_SRC_STAT_PENDING, F.FLT_SRC_COUNT_COUNT, F.FLT_SRC_INFO_DETAIL, F.FLT_SRC_INFO_OP_SECONDS]

/-- R379, R382: the collector decides the oldest raise that has reached it. -/
def State.faultRaise (s : State) : State :=
  match s.flt.inbox with
  | [] => s
  | (_, m) :: rest =>
    let src := m.source
    let s := { s with flt := { s.flt with inbox := rest } }
    let s := if m.die ≠ stopMgt ∧ levelSources.contains src = true then
        { s with flt := { s.flt with levels := s.flt.levels.set [src, m.die] m.level } }.syncActive src
      else s
    if m.n = 0 ∨ faultSources.contains src = false then s
    else
      let s := (s.each decidedFields (fun s f => s.noteWas f src)).mark (.decided src)
      let rose := !s.flag F.FLT_SRC_STAT_PENDING src && !s.marked (.cleared src) 16
      let s := (s.latch F.FLT_SRC_STAT_PENDING src).inc F.FLT_SRC_COUNT_COUNT m.n src
      let s := (s.wr F.FLT_SRC_INFO_DETAIL m.detail src).wr F.FLT_SRC_INFO_OP_SECONDS s.opSec src
      (s.react src m.detail rose).syncFaults

/-! Clearing and configuration (R383, R393 to R395). -/

/-- R394, R395: PENDING of a source is cleared, unless its level holds or (`raised`) a raise is decided in the same cycle.
The raise then finds PENDING as it was. -/
def State.clearPending (s : State) (src : Nat) (raised : Bool) : State :=
  if raised || s.marked (.bit (F.FLT_SRC_STAT_PENDING.key src 0)) 16 || s.flag F.FLT_SRC_STAT_ACTIVE src then s
  else
    let s := if s.flag F.FLT_SRC_STAT_PENDING src then s.mark (.cleared src) else s
    (s.wr F.FLT_SRC_STAT_PENDING 0 src).syncFaults

/-- R383, R384: a write of FLT_SRC_CFG. -/
def State.writeSrcCfg (s : State) (src value : Nat) : State :=
  let s := s.each (Reg.fields .FLT_SRC_CFG) (fun s f =>
    let v := bits value f.hi f.lo
    if f.code src 0 = .rw ∧ f.ignores v = false then s.wrNext f v src 0 16 else s)
  s.syncFaults

/-! The safe state (R388, R389). -/

/-- FLT_SELF.CAUSE. -/
def selfParity : Nat := 1
def selfEcc : Nat := 2
def selfLockstep : Nat := 3
def selfInject : Nat := 4

/-- R389: the safe state is entered: the cause recorded, every port fenced, source 0 raised, one record made. -/
def State.enterSafe (s : State) (cause word : Nat) : State :=
  if s.isSafe then s
  else
    let s := s.setFences (fun _ => true)
    let s := ((s.wr F.FLT_SELF_SAFE 1).wr F.FLT_SELF_CAUSE cause).wr F.FLT_SELF_WORD (if cause = selfParity ∨ cause = selfEcc then word else 0)
    let s := ((s.latch F.FLT_SRC_STAT_PENDING 0).inc F.FLT_SRC_COUNT_COUNT 1 0).wr F.FLT_SRC_INFO_DETAIL 0 0
    let s := s.wr F.FLT_SRC_INFO_OP_SECONDS s.opSec 0
    let s := s.trigger 10 0xFF 0 0 (s.regBits .FLT_SELF 0 0)
    s.syncFaults

/-- R395: a word of the collector fails its check: the raises decided in this management cycle are not: their registers, their
record triggers and a chip reset they asked for. -/
def State.undecideFaults (s : State) : State :=
  let now (t : Nat) : Bool := t / 16 == s.now / 16
  let l := ((s.marks.filter (fun e => now e.1)).filterMap (fun e => match e.2 with
    | .decided i => some i
    | _ => none)).eraseDups
  if l.isEmpty then s
  else
    let s := s.each l (fun s i => s.each decidedFields (fun s f => s.restoreWas f i))
    let old := s.evr.queue.length - (s.marks.filter (fun e => e.2 == Mark.queued && now e.1)).length
    let s := { s with
      evr := { s.evr with queue := s.evr.queue.take old ++
        (s.evr.queue.drop old).filter (fun (t : Trigger) => !(t.code == 1 && l.contains t.source)) }
      flt := { s.flt with reaction := s.flt.reaction.filter (fun r => !now r.since) } }
    s.wr F.EVR_STAT_QUEUE s.evr.queue.length

/-- R388: the checker's sweep: words corrected, and the first one that fails, with its cause. -/
def State.sweep (s : State) (corrected : Nat) (bad : Option (Nat × Nat)) : State :=
  let s := s.inc F.FLT_SELF_CORR corrected
  match bad with
  | none => s
  | some (cause, word) => if cause = selfParity ∨ cause = selfEcc then s.undecideFaults.enterSafe cause word else s

/-- R388, R389: a check of the collector fails. -/
def State.collectorFail (s : State) (cause word : Nat) : State :=
  if cause = selfParity ∨ cause = selfEcc ∨ cause = selfLockstep then s.undecideFaults.enterSafe cause word else s

/-- R379, R388: a write of FLT_INJECT. -/
def State.writeInject (s : State) (value : Nat) : State :=
  if s.planState ≠ planEmpty then s
  else
    let src := bits value 6 0
    let go := value.testBit 31
    if go && (src == 0 || !faultSources.contains src) then s
    else
      let s := if go then s.raise stopMgt src 0xFFFFFFFF else s
      if value.testBit 30 then s.enterSafe selfInject 0 else s

/-! Time (R382, R387). -/

/-- R387: a second after the last one, the notice of the highest pending source with INT goes again. -/
def State.noticeRepeat (s : State) : State :=
  match s.flt.noticeSince, s.topSource (s.pendingSources.filter (fun i => s.flag F.FLT_SRC_CFG_INT i)) with
  | some t, some src =>
    if t + secs 1 ≤ s.now then
      { s with flt := { s.flt with noticeSince := some s.now } }.sendNotice src
    else s
  | _, _ => s

/-- R382: the management firmware has not serviced its watchdog for 1 s. -/
def State.watchdog (s : State) : State := s.raise stopMgt 3

/-- R382: the stop of the die on which a level source's condition arises, by its unit. -/
def levelStop (src unit : Nat) : Nat :=
  if src = 12 then stopClk else if src = 41 then stopPort (unit / 2) else stopMgt

/-- R382: the condition of a unit of a level source becomes true or false. -/
def State.levelChange (s : State) (src unit : Nat) (c : Bool) : State :=
  if levelSources.contains src then
    let detail := if src = 41 ∨ src = 50 then unit else 0
    (s.setLevel (levelStop src unit) src unit detail c).syncFaults
  else s

end Sys2Proof.Machine
end

