-- ==== Sys2Proof/Machine/Recorder.lean ====
section
/-!
DEFINITION. The event recorder: snapshots, the ring in GDDR7, the window on it, operating seconds and the persistence
area (R396 to R404, R456), and reads of BAR0 without side effects.
-/

namespace Sys2Proof.Machine

/-- R399: the bytes of a record. -/
def eventBytes (r : Record) : List Byte :=
  bytesLE 8 r.gen ++ bytesLE 8 r.seq ++ bytesLE 1 r.trigger ++ bytesLE 1 r.source ++ bytesLE 1 r.flags ++
  bytesLE 1 r.entries ++ bytesLE 4 r.powerCycles ++ bytesLE 4 r.resets ++ bytesLE 4 r.opSec ++ bytesLE 8 r.time ++
  bytesLE 4 r.captureNs ++ bytesLE 4 r.dumGen ++ bytesLE 8 r.arg ++ bytesLE 4 r.validMask ++ bytesLE 4 r.dropped ++
  (List.range 32).flatMap (fun i => bytesLE 8 (r.values.getD i 0))

/-- FLAGS.PARTIAL (R399). -/
def flagPartial : Nat := 4

/-- The 32-bit word of the record windows at an address (R401, R404). -/
def State.windowWord (s : State) (a : Nat) : Nat :=
  if inRingWindow a then ofLE ((s.evr.window.drop (a - 0x00740000)).take 4)
  else
    let off := a - 0x00600000
    ofLE (((eventBytes (s.evr.sram.get [off / eventSize])).drop (off % eventSize)).take 4)

/-- What the 32 bits at an address hold, read without side effects; an unmapped address reads zero (R16, R398). -/
def State.peekWord (s : State) (a : Nat) : Nat :=
  if inRecordWindow a || inRingWindow a then s.windowWord a
  else match hitAt a with
    | none => 0
    | some h =>
      let v := s.regBits h.reg h.i h.j
      if h.high then v / 2 ^ 32 else v % 2 ^ 32

/-- R398: the value of an entry: 64 bits, or 32 in the low half. -/
def State.peek (s : State) (a : Nat) (wide : Bool) : Nat :=
  if wide then s.peekWord a + s.peekWord (a + 4) * 2 ^ 32 else s.peekWord a

/-! Snapshots (R397 to R400). -/

/-- R401, R403: SEQ of the oldest record that the SRAM holds; the slot of a record that is being written, or that a chip reset
left unfinished, holds no older one. -/
def State.oldestInSram (s : State) : Nat :=
  let next := s.rd F.EVR_NEXT_SEQ
  let n := next + b2n ((s.evr.sram.get [next % 4096]).gen % 2 == 1)
  n - min n 4096

/-- R401: SEQ of the oldest record that the ring holds, if it holds one. -/
def State.oldestInRing (s : State) : Option Nat :=
  let o := max s.evr.ringFrom (s.evr.copied - s.rd F.EVR_RING_RECORDS)
  if o < s.evr.copied then some o else none

/-- R401: EVR_RING_OLDEST. -/
def State.syncOldest (s : State) : State :=
  let a := s.oldestInSram
  s.wr F.EVR_RING_OLDEST_SEQ (match s.oldestInRing with
    | none => a
    | some b => min a b)

/-- R398: GEN increments so that it is odd, also in a slot whose record a chip reset left unfinished. -/
def nextOdd (g : Nat) : Nat := if g % 2 = 0 then g + 1 else g + 2

/-- R396, R398, steps 1 and 2: the trigger at the head of the queue is served, while ENABLE is 1. A record that its slot loses before it was
copied to the ring counts as lost (R401). -/
def State.snapshotStart (s : State) : State :=
  match s.evr.snapshot, if s.flag F.EVR_CFG_ENABLE then s.evr.queue else [] with
  | none, t :: rest =>
    let n := s.rd F.EVR_NEXT_SEQ
    let slot := n % 4096
    let gone := decide (4096 ≤ n ∧ s.evr.copied ≤ n - 4096)
    let s := if gone then
        { s with evr := { s.evr with
            copied := n - 4095, ringFrom := if s.oldestInRing.isNone then n - 4095 else s.evr.ringFrom } }.inc F.EVR_STAT_LOST (n - 4095 - s.evr.copied)
      else s
    let old := s.evr.sram.get [slot]
    let reads := (List.range 32).filter (fun i => s.flag F.EVR_SET_VALID t.set i)
    let snap : Snapshot :=
      { trig := t, since := s.now, slot, dumGen := s.rd F.GLB_DUM_GEN_GEN
        reads := reads.map (fun i => (i, s.rd F.EVR_SET_OFFSET t.set i, s.flag F.EVR_SET_WIDE t.set i)), missing := [] }
    let bad := s.evr.badWords.entries.filter (fun e => e.1.head? != some slot)
    let s := { s with evr := { s.evr with
      queue := rest, snapshot := some snap, badWords := { entries := bad }
      sram := s.evr.sram.set [slot] { old with gen := nextOdd old.gen, seq := n } } }
    (s.wr F.EVR_STAT_QUEUE rest.length).syncOldest
  | _, _ => s

/-- R398, step 3: the read of entry i has not been answered within 10 µs. -/
def State.snapshotReadTimeout (s : State) (i : Nat) : State :=
  match s.evr.snapshot with
  | none => s
  | some p =>
    if p.reads.any (fun r => r.1 == i) ∧ i ∉ p.missing ∧ p.since + us 10 ≤ s.now then
      { s with evr := { s.evr with snapshot := some { p with missing := p.missing ++ [i] } } }
    else s

/-- R396, R398, steps 4 and 5, R399: the last read has returned; the record becomes stable, while ENABLE is 1. -/
def State.snapshotComplete (s : State) : State :=
  match s.evr.snapshot.filter (fun _ => s.flag F.EVR_CFG_ENABLE) with
  | none => s
  | some p =>
    let value (i : Nat) : Nat := match p.reads.find? (fun r => r.1 == i) with
      | some (_, a, wide) => if p.missing.contains i then 0 else s.peek a wide
      | none => 0
    let short := !p.missing.isEmpty
    let severity := if p.trig.code = 1 then p.trig.severity else 0
    let r : Record :=
      { gen := (s.evr.sram.get [p.slot]).gen + 1, seq := s.rd F.EVR_NEXT_SEQ, trigger := p.trig.code
        source := if p.trig.code = 1 then p.trig.source else 0xFF
        flags := severity + p.trig.set * 4 + b2n short * 2 ^ flagPartial
        entries := p.reads.length, powerCycles := s.rd F.EVR_OPSEC_POWER_CYCLES, resets := s.evr.resets
        opSec := p.trig.opSec, time := p.trig.time, captureNs := (s.now - p.since) * 5 / 14, dumGen := p.dumGen
        arg := p.trig.arg
        validMask := (p.reads.filter (fun r => !p.missing.contains r.1)).foldl (fun m r => m + 2 ^ r.1) 0
        dropped := s.evr.dropped, values := (List.range 32).map value }
    let s := if short then s.inc F.EVR_STAT_PARTIAL else s
    let s := { s with evr := { s.evr with
      snapshot := none, dropped := 0, sram := s.evr.sram.set [p.slot] r } }
    (s.wr F.EVR_NEXT_SEQ (s.rd F.EVR_NEXT_SEQ + 1)).syncOldest

/-- R396: PERIOD_S operating seconds have elapsed since the last PERIODIC trigger. -/
def State.periodicTrigger (s : State) : State :=
  let n := s.rd F.EVR_CFG_PERIOD_S
  if n = 0 ∨ s.opSec < s.evr.periodSec + n then s
  else { s with evr := { s.evr with periodSec := s.opSec } }.triggerOther 8 0

/-- R396: a write of EVR_TRIGGER. -/
def State.softwareTrigger (s : State) (value : Nat) : State :=
  if value.testBit 63 then s.triggerOther 7 (bits value 31 0) else s

/-! The ring (R401, R402, R404). -/

/-- R402: an uncorrectable SRAM word is counted and raised with its slot. -/
def State.evrUncorr (s : State) (slot : Nat) : State := (s.inc F.EVR_ECC_UNCORR).raise stopMgt 7 slot

/-- The bytes of slot `slot` for the ring: an uncorrectable word is zero, and FLAGS.PARTIAL is set (R402). -/
def State.ringBytes (s : State) (slot : Nat) : List Byte :=
  let bad := (List.range 40).filter (fun w => s.evr.badWords.get [slot, 8 * w])
  let r := s.evr.sram.get [slot]
  if bad.isEmpty then eventBytes r
  else
    let l := (List.range 40).flatMap (fun w =>
      if bad.contains w then List.replicate 8 0 else ((eventBytes r).drop (8 * w)).take 8)
    l.set 18 (BitVec.ofNat 8 (setBit (l.getD 18 0).toNat flagPartial true))

/-- Boot stages (R457). -/
def stageMemory : Nat := 4
def State.stage (s : State) : Nat := s.rd F.BOOT_STAT_STAGE

/-- R401: 64 stable records are copied to the ring through a pool-2 pair of account 19. `corrected`: SRAM words that
SECDED corrected; `bad`: the uncorrectable words met, as slot and word. Not while GDDR7 is untrained; a copy that cannot
be staged or written, or ahead of which other requests are served at a channel (R411), is not made. -/
def State.ringCopyBatch (s : State) (corrected : Nat) (bad : List (Nat × Nat)) : State :=
  let n := s.rd F.EVR_RING_RECORDS
  if n = 0 ∨ s.rd F.EVR_NEXT_SEQ < s.evr.copied + 64 ∨ s.stage ≤ stageMemory ∨ 7 ≤ s.stage then s
  else if s.aheadOfCopies ((List.range 64).map (fun k => s.rd F.EVR_RING_BASE + (s.evr.copied + k) % n * eventSize)) eventSize then s
  else match s.allocNow (.block (64 * eventSize)) 19 reqMgt with
    | (none, s) => s
    | (some p, s) =>
      let l := (List.range 64).map (s.evr.copied + ·)
      let slots := l.map (· % 4096)
      let s := s.inc F.EVR_ECC_CORR corrected
      let s := s.each (bad.filter (fun b => slots.contains b.1 && decide (b.2 < 40))) (fun s b =>
        { s with evr := { s.evr with badWords := s.evr.badWords.set [b.1, 8 * b.2] true } })
      let s := s.each slots (fun s k =>
        s.each ((List.range 40).filter (fun w => s.evr.badWords.get [k, 8 * w])) (fun s _ => s.evrUncorr k))
      let (ok, s) := l.foldl (fun (r : Bool × State) k =>
        let (w, s) := r.2.gddrWrite (s.rd F.EVR_RING_BASE + k % n * eventSize) (r.2.ringBytes (k % 4096))
        (r.1 && w, s)) (true, s)
      let s := (s.countBlock p).freeObj p 19 reqMgt
      if ok then { s with evr := { s.evr with copied := s.evr.copied + 64 } }.syncOldest else s

/-- R404: a write of EVR_RING_SEL. -/
def State.ringSelect (s : State) (n : Nat) : State :=
  let s := (s.wr F.EVR_RING_SEL_SEQ n).wr F.EVR_RING_STAT_READY 0 |>.wr F.EVR_RING_STAT_MISSING 0
  { s with evr := { s.evr with selecting := true } }

/-- R404: the selected record's ring entry has been copied into the window, or the record is in neither place. -/
def State.ringReady (s : State) : State :=
  if s.evr.selecting then
    let s := { s with evr := { s.evr with selecting := false } }
    let n := s.rd F.EVR_RING_SEL_SEQ
    let r := s.rd F.EVR_RING_RECORDS
    if n < s.rd F.EVR_RING_OLDEST_SEQ ∨ s.rd F.EVR_NEXT_SEQ ≤ n ∨ r = 0 then s.wr F.EVR_RING_STAT_MISSING 1
    else if s.aheadOfCopies [s.rd F.EVR_RING_BASE + n % r * eventSize] eventSize then { s with evr := { s.evr with selecting := true } }
    else match s.gddrRead (s.rd F.EVR_RING_BASE + n % r * eventSize) eventSize with
      | (some l, s) => { s with evr := { s.evr with window := l } }.wr F.EVR_RING_STAT_READY 1
      | (none, s) => s.wr F.EVR_RING_STAT_MISSING 1
  else s

/-! Operating seconds and the persistence area (R400, R456). -/

/-- R400: an operating second elapses while PWR_GOOD is high. -/
def State.operatingSecond (s : State) : State :=
  if s.pwr.good && !s.pwr.dark then
    { s with evr := { s.evr with sincePersist := s.evr.sincePersist + 1 } }.inc F.EVR_OPSEC_OP_SECONDS
  else s

/-- R452, R456: the persistence area. -/
def persistBase : Nat := 0x03000000
def persistEntries : Nat := 131072

/-- R456: an entry: MAGIC, SEQ, POWER_CYCLES, OP_SECONDS and a CRC-32C over what stands before it. -/
def persistBytes (seq cycles opSec : Nat) : List Byte :=
  let l := bytesLE 4 0x5053 ++ bytesLE 4 seq ++ bytesLE 4 cycles ++ bytesLE 4 opSec ++ List.replicate 12 0
  l ++ bytesLE 4 (crc32c l).toNat

/-- `n` bytes of the NVM from `a` on are erased, and then `l` is written there. -/
def State.program (s : State) (a n : Nat) (l : List Byte) : State :=
  { s with sec := { s.sec with nvm := (s.sec.nvm.erase a n).writeN a l } }

/-- R456: the next entry is written; a sector is erased just before its first entry. -/
def State.writePersistence (s : State) : State :=
  let t := s.program (persistBase + s.boot.entry * 32) (if s.boot.entry % 128 = 0 then 4096 else 0)
    (persistBytes s.boot.entrySeq (s.rd F.EVR_OPSEC_POWER_CYCLES) s.opSec)
  { t with
    boot := { t.boot with entry := (s.boot.entry + 1) % persistEntries, entrySeq := (s.boot.entrySeq + 1) % 2 ^ 32 }
    evr := { t.evr with sincePersist := 0 } }

/-- R456: at boot the valid entry with the highest SEQ gives the counters, and writes go on after it. -/
def State.readPersistence (s : State) : State :=
  let cells := s.sec.nvm.cells.filter (fun c => decide (persistBase ≤ c.1 ∧ c.1 < persistBase + 32 * persistEntries))
  let places := (cells.map (fun c => (c.1 - persistBase) / 32)).eraseDups
  let entry (k : Nat) : List Byte := s.sec.nvm.readN (persistBase + 32 * k) 32
  let good := places.filter (fun k =>
    let l := entry k
    field l 0 4 == 0x5053 && field l 28 4 == (crc32c (l.take 28)).toNat)
  let best := good.foldl (fun (b : Option Nat) k => match b with
    | none => some k
    | some j => if field (entry j) 4 4 < field (entry k) 4 4 then some k else some j) none
  match best with
  | none => { s with boot := { s.boot with entry := 0, entrySeq := 0 } }.wr F.EVR_OPSEC_POWER_CYCLES 0
      |>.wr F.EVR_OPSEC_OP_SECONDS 0
  | some k =>
    let l := entry k
    ({ s with boot := { s.boot with
        entry := (k + 1) % persistEntries, entrySeq := (field l 4 4 + 1) % 2 ^ 32 } }.wr F.EVR_OPSEC_POWER_CYCLES
      (field l 8 4)).wr F.EVR_OPSEC_OP_SECONDS (field l 12 4)

/-- R456: 600 operating seconds have passed since the last write. -/
def State.persistenceWrite (s : State) : State := if 600 ≤ s.evr.sincePersist then s.writePersistence else s

end Sys2Proof.Machine
end

