-- ==== Sys2Proof/Machine/Power.lean ====
section
/-!
DEFINITION. Power domains, the input, temperature, the root PLL, power-up, power-down and the chip reset
(R386, R390, R403, R435 to R450).
-/

namespace Sys2Proof.Machine

/-! Domains (R439 to R442). -/

/-- R439: the kinds of domains. -/
def isPortDomain (d : Nat) : Bool := decide (d < 256)
def isQuadDomain (d : Nat) : Bool := decide (256 ≤ d ∧ d < 360)
def isEngineDomain (d : Nat) : Bool := decide (392 ≤ d ∧ d < 408)
def isCxlDomain (d : Nat) : Bool := decide (408 ≤ d ∧ d < 411)

/-- R439: a domain with runtime control. -/
def hasControl (d : Nat) : Bool := isPortDomain d || isQuadDomain d || isEngineDomain d || isCxlDomain d

/-- R440: the bits of PWR_HOST_OFF and PWR_MGT_OFF that can be set. -/
def offBit (host : Bool) (d : Nat) : Bool := hasControl d && !(host && d == 408)

/-- R440: an OFF bit of a class. -/
def State.offAsked (s : State) (d : Nat) : Bool :=
  (s.rd F.PWR_HOST_OFF_OFF (d / 64)).testBit (d % 64) || (s.rd F.PWR_MGT_OFF_OFF (d / 64)).testBit (d % 64)

/-- R440: a domain's own bits, its mark and, for a quad, its having gone off allow it to be on. -/
def State.domainAllowed (s : State) (d : Nat) : Bool :=
  !s.pwr.marked.testBit d && !(hasControl d && s.offAsked d) && !(isQuadDomain d && s.pwr.quadsOff.testBit (d - 256))

/-- R440, R441, R444: the domain is to be on: a port's only while its engine's is; and only 408 and 411 after a trip. -/
def State.domainWanted (s : State) (d : Nat) : Bool :=
  s.domainAllowed d && (!isPortDomain d || s.domainAllowed (engineDomain (engineOfPort d))) &&
    (!s.pwr.tripped || d == 408 || d == 411)

/-- R448: the configuration is loaded, and boot has not stopped. -/
def State.configured (s : State) : Bool := decide (stageMemory ≤ s.stage ∧ s.stage < 7)

/-- PWR_DOM_STAT of a domain. -/
def State.setDomain (s : State) (d : Nat) (on : Bool) : State :=
  s.wr F.PWR_DOM_STAT_ON (setBit (s.rd F.PWR_DOM_STAT_ON (d / 64)) (d % 64) on) (d / 64)

/-- R439: the disabled-unit map's unit of a domain, marked disabled or in use; clusters stand in CL_STATE. -/
def UnitMap.mark (u : UnitMap) (d : Nat) (off : Bool) : UnitMap :=
  if isPortDomain d then { u with ports := setBit u.ports d off }
  else if isQuadDomain d then u
  else if d < 376 then { u with groups := setBit u.groups (d - 360) off }
  else if d < 392 then { u with channels := setBit u.channels (d - 376) off }
  else if isEngineDomain d then { u with engines := setBit u.engines (d - 392) off }
  else if isCxlDomain d then { u with cxl := setBit u.cxl (d - 408) off }
  else u
def State.markUnit (s : State) (d : Nat) (off : Bool) : State :=
  { s with pwr := { s.pwr with units := s.pwr.units.mark d off } }

/-- A domain's switch opens. -/
def State.cutDomain (s : State) (d : Nat) : State :=
  { s.setDomain d false with pwr := { s.pwr with powering := s.pwr.powering.set [d] none } }

/-- R441: a port's domain goes off. -/
def State.portDomainOff (s : State) (p : Nat) : State :=
  (((s.cutDomain p).markUnit p true).portDown p).hwFence p |>.syncLink p

/-- R88, R90, R441: a cluster quad goes off: its clusters that serve nothing first, then the clusters in service, each with substitution. -/
def State.quadOff (s : State) (q : Nat) : State :=
  let ks := (List.range 4).map (4 * q + ·)
  let idle := ks.filter (fun k => s.clState k == clSpare || s.clState k == clTest || s.clState k == clDisabled)
  let busy := ks.filter (fun k => s.clState k == clActive || s.clState k == clPending)
  let off (s : State) (k : Nat) : State :=
    ((s.wr F.CL_STATE_STATE clDisabled k).wr F.CL_STATE_CAUSE 5 k).wr F.CL_STATE_LOGICAL noCluster k
  let s := { s with
    pwr := { s.pwr with quadsOff := setBit s.pwr.quadsOff q true }
    comp := { s.comp with
      testing := if (s.comp.testing.map (fun (p : Nat × Nat) => p.1 / 4)) = some q then none else s.comp.testing } }
  let s := s.each idle off
  let (s, lost) := busy.foldl (fun (acc : State × List Nat) k =>
    let s := acc.1.readmitAll k
    let (s, l) := if s.clState k = clActive then s.substitute k else (s, none)
    (off s k, acc.2 ++ l.toList)) (s, [])
  let s := s.takeBackAll lost
  let s := if busy.isEmpty then s else (s.exactLoss F.SCH_EXACT_LOSS_REPLAY).exactLoss F.SCH_EXACT_LOSS_CLUSTER
  s.syncClusters

/-- R416: a CXL memory port's link leaves its up state. -/
def State.cxlDown (s : State) (i : Nat) : State :=
  if s.cxlUp i then
    let s := ((s.wr F.MEM_CXL_STAT_UP 0 i).wr F.MEM_CXL_STAT_SPEED 0 i).wr F.MEM_CXL_STAT_WIDTH 0 i
    let s := (s.inc F.MEM_CXL_STAT_DOWNS 1 i).failSpaces i
    s.setLevel stopMgt 50 i i true
  else s

/-- R441, R442: a domain that is on, or being powered, and is not to be on goes off. -/
def State.domainOff (s : State) (d : Nat) : State :=
  if 412 ≤ d ∨ s.domainWanted d = true ∨ (s.configured || s.pwr.tripped) = false ∨
      (s.domainOn d || (s.pwr.powering.get [d]).isSome) = false then s
  else
    let s := if isPortDomain d then s.portDomainOff d
      else
        let s := (s.cutDomain d).markUnit d true
        if isQuadDomain d then s.quadOff (d - 256)
        else if isEngineDomain d then
          let e := d - 392
          let s := s.each ((List.range 16).map (16 * e + ·)) (fun s p =>
            if s.domainOn p || (s.pwr.powering.get [p]).isSome then s.portDomainOff p else s)
          s.setLaserEnable e false
        else if d = 408 then s.hostLinkDown false
        else if d = 409 ∨ d = 410 then (s.cxlDown (d - 409)).setLevel stopMgt 50 (d - 409) (d - 409) true
        else s
    s.mapChange.syncFaults

/-- R442: the power stages switch on the next domain, the lowest that is to be on and is off, 2 µs after the last. -/
def State.domainOnNext (s : State) : State :=
  let ready := match s.pwr.lastOn with
    | none => true
    | some t => decide (t + us 2 ≤ s.now)
  if !ready || !s.configured then s
  else match (List.range 412).find? (fun d =>
      s.domainWanted d && !s.domainOn d && (s.pwr.powering.get [d]).isNone) with
    | none => s
    | some d =>
      let was := s.pwr.units
      let s := { s with pwr := { s.pwr with lastOn := some s.now } }.markUnit d false
      let s := if isPortDomain d || isEngineDomain d then
          { s with pwr := { s.pwr with powering := s.pwr.powering.set [d] (some s.now) } }
        else s.setDomain d true
      if s.pwr.units = was then s else s.mapChange

/-- R441, R442: 200 µs after its switch a port's or an engine's domain is powered, and its ports come up again. -/
def State.domainPowered (s : State) (d : Nat) : State :=
  match s.pwr.powering.get [d] with
  | none => s
  | some t =>
    if s.now < t + us 200 then s
    else
      let s := { s.setDomain d true with pwr := { s.pwr with powering := s.pwr.powering.set [d] none } }
      if isEngineDomain d then s.each ((List.range 16).map (16 * (d - 392) + ·)) State.realign
      else s.realign d

/-- R440, R475: a write of PWR_HOST_OFF or PWR_MGT_OFF; each bit that changes is an order. -/
def State.writeDomainOff (s : State) (host : Bool) (i value : Nat) : State :=
  let f := if host then F.PWR_HOST_OFF_OFF else F.PWR_MGT_OFF_OFF
  let old := s.rd f i
  let new := ((List.range 64).filter (fun j => value.testBit j && offBit host (64 * i + j))).foldl (fun n j => n + 2 ^ j) 0
  let s := s.wr f new i
  s.each ((List.range 64).filter (fun j => old.testBit j != new.testBit j)) (fun s j =>
    s.noteOrder thDomain (64 * i + j) host (if new.testBit j then 2 else 1))

/-! Measurements (R436, R437, R443 to R448). -/

/-- R437: the input's voltage in 10 mV and current in 10 mA. -/
def State.inputSample (s : State) (volts amps : Nat) : State :=
  let v := volts % 2 ^ 16
  let a := amps % 2 ^ 16
  -- the first sample since reset is the lowest so far
  let low := if s.rd F.PWR_INPUT_VOLTS = 0 then v else min (s.rd F.PWR_INPUT_EXT_MIN) v
  let s := ((s.wr F.PWR_INPUT_VOLTS v).wr F.PWR_INPUT_AMPS a).wr F.PWR_INPUT_WATTS (min (v * a / 10000) 65535)
  let s := s.wr F.PWR_INPUT_EXT_MAX (max (s.rd F.PWR_INPUT_EXT_MAX) v)
  let s := s.wr F.PWR_INPUT_EXT_MIN low
  (s.setLevel stopMgt 8 0 0 (decide (v < 4000 ∨ 6000 < v))).syncFaults

/-- R448: a rail has been out of range for 10 µs. -/
def State.railFault (s : State) (stop rail : Nat) : State :=
  let s := ((s.wr F.PWR_RAIL_VALID 1).wr F.PWR_RAIL_STOP stop).wr F.PWR_RAIL_RAIL rail
  (s.inc F.PWR_RAIL_EVENTS).raise stopMgt 9

/-- R382, R443, R444: THERM_WARN follows the hottest sensor and PWR_THERM_CFG.WARN; boot held at stage ROM goes on once
the sensor is at WARN or below. -/
def State.thermWarn (s : State) : State :=
  let warn := decide (toSigned 16 (s.rd F.PWR_THERM_HOT_TEMP) > (s.rd F.PWR_THERM_CFG_WARN : Int) * 8)
  let s := s.setLevel stopMgt 10 0 0 warn
  { s with pwr := { s.pwr with holdRom := s.pwr.holdRom && warn } }

/-- R443, R444: the 40 sensors' readings, in 1/8 °C. -/
def State.thermalSample (s : State) (temps : List Nat) : State :=
  let sensors := List.range 40
  let s := s.each sensors (fun s k => s.wr F.PWR_TEMP_TEMP (temps.getD k 0) k)
  let t (k : Nat) : Int := toSigned 16 (temps.getD k 0)
  let hottest := sensors.foldl (fun b k => if t b < t k then k else b) 0
  let s := (s.wr F.PWR_THERM_HOT_SENSOR hottest).wr F.PWR_THERM_HOT_TEMP (temps.getD hottest 0)
  let trip : Int := (s.rd F.PWR_THERM_CFG_TRIP : Int) * 8
  let s := s.thermWarn
  let above := sensors.filter (fun k => decide (trip ≤ t k))
  let twice := above.any (fun k => s.pwr.hot.testBit k)
  let s := { s with pwr := { s.pwr with hot := above.foldl (fun n k => n + 2 ^ k) 0 } }
  let s := if twice && !s.pwr.tripped then { s with pwr := { s.pwr with tripped := true } }.raise stopMgt 11 else s
  s.syncFaults

/-- R446: the root PLL gains or loses lock. -/
def State.pllLock (s : State) (locked : Bool) : State :=
  let s := if !locked && s.flag F.PWR_CLK_STAT_LOCK then s.inc F.PWR_CLK_STAT_UNLOCKS else s
  (s.wr F.PWR_CLK_STAT_LOCK (b2n locked)).setLevel stopClk 12 0 0 (!locked)

/-- R465: IDCODE of the debug port. -/
def State.idcode (s : State) : Nat := bits (s.rd F.GLB_DEV_ID_STEPPING) 3 0 * 2 ^ 28 + 0x0256 * 2 ^ 12 + s.pwr.boardId % 2048 * 2 + 1

/-! Reset and power (R386, R390, R403, R436, R448 to R450, R477). -/

/-- FLT_RESET_CAUSE.KIND (R405). -/
def resetPin : Nat := 1
def resetReaction : Nat := 2
def resetCommand : Nat := 3

/-- The register fields that a chip reset keeps: R403's, the domains' and the PLL's state, the debug state (R450,
R468). -/
def keptFields : List Fld :=
  [F.EVR_NEXT_SEQ, F.PWR_DOM_STAT_ON, F.PWR_CLK_STAT_LOCK, F.PWR_CLK_STAT_STEER_PPB, F.SEC_STAT_DEBUG_OPEN,
   F.SEC_STAT_IDENT_STALE]

/-- R450: a chip reset of a kind: every block is reset but what the rule keeps, and boot starts at stage ROM. -/
def State.chipReset (s : State) (kind source : Nat) : State :=
  let safe := s.isSafe
  let old := s.regs.entries
  let oldest := s.oldestInSram
  let r := State.reset
  let kept := old.filter (fun e => keptFields.any (fun f => e.1.take 2 == [f.reg.ctorIdx, f.lo]))
  -- R382: the input and the root PLL are as they were
  let kept8 : SMap Bool := { entries := s.flt.cond.entries.filter (fun e => e.1.head? == some 8 || e.1.head? == some 12) }
  let hot := decide ((s.rd F.PWR_THERM_CFG_WARN : Int) * 8 < toSigned 16 (s.rd F.PWR_THERM_HOT_TEMP))
  let t : State := { r with
    now := s.now, pending := s.pending, out := s.out, freeCtr := s.freeCtr
    mem := { r.mem with cxl := s.mem.cxl }
    pwr := { r.pwr with
      inReset := s.pwr.inReset, powering := s.pwr.powering, lastOn := s.pwr.lastOn, boardId := s.pwr.boardId, holdRom := hot }
    boot := { r.boot with cold := false, since := s.now }
    flt := { r.flt with cond := kept8, levels := { entries := kept8.entries.map (fun e => (e.1.take 2, e.2)) } }
    sec := { r.sec with
      nvm := s.sec.nvm, fuses := s.sec.fuses, stored := s.sec.stored, storedKey := s.sec.storedKey, wrapped := s.sec.wrapped
      wrappedKey := s.sec.wrappedKey
      tokenDigest := s.sec.tokenDigest, tapOpen := s.sec.tapOpen, lastPeers := s.sec.lastPeers }
    evr := { r.evr with
      sram := s.evr.sram, badWords := s.evr.badWords, resets := min (s.evr.resets + 1) (2 ^ 32 - 1)
      copied := oldest, ringFrom := oldest } }
  let t := { t with regs := kept.foldl (fun (m : SMap (Option Nat)) (e : Key × Option Nat) => m.set e.1 e.2) t.regs }
  let t := ((t.wr F.FLT_RESET_CAUSE_VALID 1).wr F.FLT_RESET_CAUSE_KIND kind).wr F.FLT_RESET_CAUSE_FROM_SAFE (b2n safe)
  (((t.wr F.FLT_RESET_CAUSE_SOURCE source).syncActive 8).syncActive 12).syncOldest.mark .reset

/-- R386: the record of the raise is complete, or 50 µs have passed since the decision. -/
def State.resetReactionDue (s : State) : State :=
  match s.flt.reaction with
  | none => s
  | some r =>
    let recorded := match r.record with
      | none => false
      | some n => decide (n < s.rd F.EVR_NEXT_SEQ)
    if (recorded || decide (r.since + us 50 ≤ s.now)) && !s.isSafe then s.chipReset resetReaction r.source else s

/-- R436, R449: the package goes dark: every domain and rail is off, and what is not in the NVM, the fuses or the
expanders is lost. `good`: PWR_GOOD is still high. -/
def State.goDark (s : State) (good : Bool) : State :=
  let r := State.reset
  { r with
    now := s.now, pending := s.pending, out := s.out, freeCtr := s.freeCtr
    regs := {}
    mem := { r.mem with cxl := s.mem.cxl }
    pwr := { r.pwr with good, dark := true, inReset := s.pwr.inReset, boardId := s.pwr.boardId }
    sec := { r.sec with
      nvm := s.sec.nvm, fuses := s.sec.fuses, stored := s.sec.stored, storedKey := s.sec.storedKey, wrapped := s.sec.wrapped
      wrappedKey := s.sec.wrappedKey
      tokenDigest := s.sec.tokenDigest } }

/-- R448: the package powers up, and the management die leaves reset: boot starts at stage ROM. -/
def State.powerUp (s : State) : State :=
  let s := s.goDark true
  { s with regs := State.reset.regs, pwr := { s.pwr with dark := false }, boot := { s.boot with since := s.now } }

/-- R436, R448: PWR_GOOD rises with the input at `volts`, in 10 mV: below 39.0 V the power stages wait. -/
def State.powerGoodRise (s : State) (volts : Nat) : State :=
  if s.pwr.good then s
  else if volts < 3900 then { s with pwr := { s.pwr with good := true, waiting := true } }
  else s.powerUp
def State.startThreshold (s : State) : State := if s.pwr.good && s.pwr.waiting then s.powerUp else s

/-- R449: PWR_GOOD falls. -/
def State.powerGoodFall (s : State) : State := if s.pwr.good then s.goDark false else s

/-- R436: the input has been out of range for 20 µs. -/
def State.inputShutdown (s : State) : State := if s.pwr.good && !s.pwr.dark then s.goDark true else s

/-- R450: RESET_N has been low for 1 µs; and rises. -/
def State.resetLow (s : State) : State :=
  if s.pwr.dark then { s with pwr := { s.pwr with inReset := true } }
  else if s.pwr.inReset then s
  else
    let s := s.chipReset resetPin 0
    { s with pwr := { s.pwr with inReset := true } }
def State.resetRelease (s : State) (board : Nat) : State :=
  if s.pwr.inReset then
    { s with pwr := { s.pwr with inReset := false, boardId := board % 2048 } }
  else s

end Sys2Proof.Machine
end

