-- ==== Sys2Proof/Machine/Boot.lean ====
section
/-!
DEFINITION. Boot: the stages, the NVM's header and images, the configuration check, and a boot that stops
(R38, R66, R88, R94, R218, R260, R261, R392, R400, R409, R412, R451 to R462).
-/

namespace Sys2Proof.Machine

/-- R457: the stages but MEMORY (4), which the recorder names. -/
def stageRom : Nat := 0
def stageNvmRead : Nat := 1
def stageVerify : Nat := 2
def stageConfig : Nat := 3
def stageLinks : Nat := 5
def stageDone : Nat := 6
def stageFailed : Nat := 7

/-- R459: FAIL_CODE. -/
def failNvm : Nat := 1
def failHeader : Nat := 2
def failFirmware : Nat := 3
def failSvn : Nat := 4
def failConfigImage : Nat := 5
def failConfigCheck : Nat := 6
def failGddr : Nat := 7
def failRail : Nat := 8
def failPll : Nat := 9

/-- R459: boot stops; the pair stays in fault, as BOOTING does. -/
def State.bootStop (s : State) (code : Nat) : State :=
  let s := (s.wr F.BOOT_STAT_STAGE stageFailed).wr F.BOOT_STAT_FAIL_CODE code
  (s.setLevel stopMgt 4 0 0 true).syncFaults

/-- Boot has neither ended nor stopped. -/
def State.booting (s : State) : Bool := decide (s.stage < stageDone)

/-- R459: boot stops on a check that no other command makes: the NVM, a rail, the root PLL. -/
def State.bootFail (s : State) (code : Nat) : State :=
  if s.booting && (code == failNvm || code == failRail || code == failPll) then s.bootStop code else s

/-- R477: ms from PWR_GOOD or the chip reset. -/
def State.bootMs (s : State) : Nat := min ((s.now - s.boot.since) / ms 1) 65535

/-! The NVM (R452 to R454). -/

/-- R452: where a slot lies; `b`: slot B. -/
def nvmSlot (config b : Bool) : Nat :=
  if config then (if b then 0x00300000 else 0x00100000) else (if b then 0x02000000 else 0x01000000)

/-- R453: header copy k, when it is valid. -/
def State.headerCopy (s : State) (k : Nat) : Option (List Byte) :=
  let l := s.sec.nvm.readN (4096 * k) 16
  if field l 0 4 = 0x4E564C47 ∧ field l 12 4 = (crc32c (l.take 12)).toNat then some l else none

/-- R453: the valid copy with the higher SEQ: its number and bytes. -/
def State.header (s : State) : Option (Nat × List Byte) :=
  match s.headerCopy 0, s.headerCopy 1 with
  | none, none => none
  | some a, none => some (0, a)
  | none, some b => some (1, b)
  | some a, some b => if field a 4 4 < field b 4 4 then some (1, b) else some (0, a)

/-- R453: ACTIVE: the slot of a kind that the header names, true for B. -/
def activeSlot (header : List Byte) (config : Bool) : Bool := (field header 8 1).testBit (b2n config)

/-- R454: an image as its header's LENGTH gives it, or its header alone where that does not fit the slot. -/
def State.slotBytes' (s : State) (config b : Bool) : List Byte :=
  let a := nvmSlot config b
  let n := field (s.sec.nvm.readN a 128) 8 4
  s.sec.nvm.readN a (if 128 ≤ n ∧ n ≤ nvmSlotSize config then n else 128)

/-- R454: bytes of the signature. -/
def signatureSize : Nat := 29792

/-- R454: what an image must satisfy apart from its signature and SVN. -/
def State.imageForm (s : State) (config : Bool) (l : List Byte) : Bool :=
  field l 0 4 == 0x4D495647 && field l 4 1 == (if config then 2 else 1) && field l 5 1 == 1 && field l 6 2 == 0x0256 &&
    field l 8 4 == l.length && decide (128 + signatureSize ≤ l.length ∧ l.length ≤ nvmSlotSize config) &&
    Config.shake256 ((l.drop 16).take 64) ==
      (if config then s.sec.fuses.ownerDigest.getD s.sec.fuses.rootDigest else s.sec.fuses.rootDigest)

/-- R454: an image passes; `signed`: its signature verifies. -/
def State.imagePasses (s : State) (config : Bool) (l : List Byte) (signed : Bool) : Bool :=
  s.imageForm config l && signed && (config || decide (s.sec.fuses.minSvn ≤ field l 14 2))

/-! Stages ROM to VERIFY (R457). -/

/-- R444, R457: stage ROM: the fuses and the header copies are read, unless the package is hot. -/
def State.bootRom (s : State) : State :=
  if s.stage ≠ stageRom ∨ s.pwr.holdRom = true then s
  else
    let s := s.wr F.BOOT_VERSION_MIN_SVN s.sec.fuses.minSvn
    match s.header with
    | none => s.bootStop failHeader
    | some (k, h) => { s with boot := { s.boot with copy := k, seq := field h 4 4 } }.wr F.BOOT_STAT_STAGE stageNvmRead

/-- The header in use. -/
def State.bootHeader (s : State) : List Byte := s.sec.nvm.readN (4096 * s.boot.copy) 16

/-- R457: stage NVM_READ: both active images have been read; the NVM's identity, size and read retries. -/
def State.bootNvmRead (s : State) (jedec size retries : Nat) : State :=
  if s.stage ≠ stageNvmRead then s
  else
    let h := s.bootHeader
    let s := ((s.wr F.BOOT_NVM_JEDEC_ID jedec).wr F.BOOT_NVM_SIZE_MIB size).wr F.BOOT_NVM_RETRIES retries
    { s with boot := { s.boot with fw := s.slotBytes' false (activeSlot h false), cfg := s.slotBytes' true (activeSlot h true) } }.wr
      F.BOOT_STAT_STAGE stageVerify

/-- R453, R457: stage VERIFY ends; which signatures verify, of firmware slots A and B and configuration slots A and B.
-/
def State.bootVerify (s : State) (fwA fwB cfgA cfgB : Bool) : State :=
  if s.stage ≠ stageVerify then s
  else
    let h := s.bootHeader
    let pick (config : Bool) (active : List Byte) (a b : Bool) : Option (Bool × List Byte) :=
      let slot := activeSlot h config
      let other := s.slotBytes' config (!slot)
      if s.imagePasses config active (if slot then b else a) then some (slot, active)
      else if s.imagePasses config other (if slot then a else b) then some (!slot, other)
      else none
    let low (l : List Byte) (ok : Bool) : Bool := s.imageForm false l && ok && decide (field l 14 2 < s.sec.fuses.minSvn)
    let bLow := low (s.slotBytes' false true) fwB
    let aLow := low (s.slotBytes' false false) fwA
    match pick false s.boot.fw fwA fwB, pick true s.boot.cfg cfgA cfgB with
    | none, _ => s.bootStop (if aLow && bLow then failSvn else failFirmware)
    | some _, none => s.bootStop failConfigImage
    | some (fs, fw), some (cs, cfg) =>
      let s := { s with boot := { s.boot with fw, cfg, fwSlot := b2n fs, cfgSlot := b2n cs } }
      let s := (s.wr F.BOOT_STAT_FW_SLOT (b2n fs)).wr F.BOOT_STAT_CFG_SLOT (b2n cs)
      let s := s.wr F.BOOT_STAT_FALLBACK (b2n (fs != activeSlot h false || cs != activeSlot h true))
      let s := (s.wr F.BOOT_VERSION_FW_SVN (field fw 14 2)).wr F.BOOT_VERSION_FW_VERSION (field fw 12 2)
      let s := s.wr F.BOOT_VERSION_CFG_VERSION (field cfg 12 2)
      let s := (s.setDigest F.BOOT_FW_DIGEST_DIGEST (Config.shake256 fw)).setDigest F.BOOT_CFG_DIGEST_DIGEST (Config.shake256 cfg)
      (s.wr F.BOOT_TIMES_VERIFY_MS s.bootMs).wr F.BOOT_STAT_STAGE stageConfig

/-- R455: the fields of a register that the configuration image gives. -/
def nvmFields (r : Reg) (i : Nat) : List Fld :=
  r.fields.filter (fun f => f.rst == .nvm && !(r == .FLT_SRC_CFG && (i == 0 || !faultSources.contains i)) &&
    !(r == .BPM_ACCT && decide (i < 16)))

/-! Stages MEMORY to DONE (R409, R457, R458). -/

/-- R409, R457: stage MEMORY: the channels in use are trained, but those of `failed`. -/
def State.bootMemory (s : State) (failed : Nat) : State :=
  if s.stage ≠ stageMemory then s
  else
    let use := bitsOf s.mem.inUse 16
    let bad := use.filter (fun c => failed.testBit c)
    let s := s.each use (fun s c => s.wr F.MEM_CH_STAT_STATE (if bad.contains c then 3 else 2) c)
    let s := s.each bad (fun s c => s.raise (stopMem (c / 4)) 49 c)
    if bad.isEmpty then
      let s := (s.wr F.BOOT_TIMES_MEMORY_MS s.bootMs).wr F.BOOT_STAT_STAGE stageLinks
      let s := { s with boot := { s.boot with linksAt := s.now } }
      s.each ((List.range 16).filter (fun e => s.flag F.PRT_LSM_STAT_PRESENT e)) (fun s e => s.setLaserEnable e true)
    else s.bootStop failGddr

/-- R458: a port has completed discovery, or has waited 100 ms since its module was enabled. -/
def State.bootPortReady (s : State) (p : Nat) : Bool :=
  (s.port p).concluded || (match (s.laser (engineOfPort p)).enabledAt with
    | none => false
    | some t => decide (t + ms 100 ≤ s.now))

/-- R396, R457, R458: boot is DONE. -/
def State.bootLinks (s : State) : State :=
  if s.stage ≠ stageLinks ∨ (List.range 256).any (fun p => s.flag F.PRT_LINK_CFG_ENABLE p && !s.bootPortReady p) then s
  else
    let s := (s.wr F.BOOT_TIMES_DONE_MS s.bootMs).wr F.BOOT_STAT_STAGE stageDone
    let s := s.wr F.HST_MBX_RESP_BUSY 0
    s.triggerOther 9 (s.regBits .FLT_RESET_CAUSE 0 0)

/-! Memory and CXL links (R407, R409, R416, R420). -/

/-- R407: a transfer of a channel is retried; `lost`: the address of a read whose fourth retry failed. -/
def State.crcRetry (s : State) (ch retries : Nat) (lost : Option Nat) : State :=
  if s.rd F.MEM_CH_STAT_STATE ch ≠ 2 ∨ 16 ≤ ch then s
  else match lost with
    | none => s.inc F.MEM_CH_STAT_RETRIES (min retries 4) ch
    | some a => if s.gddrChannel a = ch then (s.inc F.MEM_CH_STAT_RETRIES 4 ch).gddrUncorr a else s

/-- R409: a channel fails while running. -/
def State.channelFail (s : State) (ch : Nat) : State :=
  if s.rd F.MEM_CH_STAT_STATE ch ≠ 2 ∨ 16 ≤ ch then s
  else ((s.wr F.MEM_CH_STAT_STATE 3 ch).markUnit (376 + ch) true).mapChange

/-- R414, R416: a CXL memory port's link comes up, at a speed and width, with an expander of `capacity` GiB. -/
def State.cxlUpNow (s : State) (i speed width capacity : Nat) : State :=
  if 2 ≤ i ∨ s.cxlUp i = true ∨ s.domainOn (409 + i) = false ∨ s.stage < stageMemory ∨ s.stage = stageFailed then s
  else
    let s := ((s.wr F.MEM_CXL_STAT_UP 1 i).wr F.MEM_CXL_STAT_SPEED speed i).wr F.MEM_CXL_STAT_WIDTH width i
    (s.wr F.MEM_CXL_CAP_GIB (min capacity 2048) i).setLevel stopMgt 50 i i false

/-- R420, R459: the host link comes up. -/
def State.hostUp (s : State) (speed width : Nat) : State :=
  if s.flag F.HST_LINK_STAT_UP ∨ s.domainOn 408 = false ∨ s.stage < stageMemory ∨ s.stage = stageFailed then s
  else ((s.wr F.HST_LINK_STAT_UP 1).wr F.HST_LINK_STAT_SPEED speed).wr F.HST_LINK_STAT_WIDTH width

end Sys2Proof.Machine
end

