-- ==== Sys2Proof/Machine/Security.lean ====
section
/-!
DEFINITION. Security: the mailbox's security commands, the debug opening, and the ends of long operations
(R364, R420, R421, R424, R429, R431, R452 to R468).
-/

namespace Sys2Proof.Machine

/-! Ends of long operations (R424, R431). -/

/-- R424: an operation of a slot ends on a failed access to host memory at an address. -/
def State.failDma (s : State) (slot addr : Nat) : State := (s.latch F.HST_ERR_DMA_ERR).failMem slot cDmaErr addr

/-- R424, R431: the end of a long operation that no other command ends: a member replacement whose member is there
(R364), or a failure by a host memory access or a lost internal access, with HST_OP_DETAIL. -/
def State.longEnd (s : State) (slot : Nat) (failure : Option (Nat × Nat)) : State :=
  match s.hostOp slot with
  | none => s
  | some op =>
    match failure with
    | none => if op.opcode = oMemberReplace then s.replaceDone slot else s
    | some (code, detail) =>
      if code = cDmaErr ∧ (isDmaOp op.opcode = true ∨ (op.opcode = oPlanLoad ∧ s.planState = planEmpty)) then
        let s := s.latch F.HST_ERR_DMA_ERR
        if op.opcode = oPlanLoad then s.undoPlan.failLoad slot cDmaErr else s.failMem slot cDmaErr detail
      else if code = cRingTimeout then
        if op.opcode = oPlanLoad then s.undoPlan.failLoad slot cRingTimeout else s.failMem slot cRingTimeout detail
      else s

/-! Security commands (R463, R464). -/

/-- A digest of four 64-bit arguments, from argument i on, first the least significant (R463). -/
def argDigest (args : List Nat) (i : Nat) : Nat :=
  (List.range 4).foldl (fun n k => n + (args.getD (i + k) 0) * 2 ^ (64 * k)) 0

/-- R464: bytes 0 to 255 of the report. -/
def State.attestBody (s : State) (args : List Nat) : List Byte :=
  bytesLE 4 0x54535441 ++ bytesLE 2 1 ++ bytesLE 1 s.sec.fuses.keyEpoch ++ bytesLE 1 (b2n s.accepted) ++
  bytesLE 32 (argDigest args 1) ++ bytesLE 32 (s.digest F.SEC_IDENT_IDENT) ++ bytesLE 32 (s.digest F.BOOT_FW_DIGEST_DIGEST) ++
  bytesLE 32 (s.digest F.BOOT_CFG_DIGEST_DIGEST) ++ bytesLE 32 (s.digest F.GLB_DUM_DIGEST_DIGEST) ++
  bytesLE 32 (if s.accepted then s.digest F.LST_PLAN_DIGEST_DIGEST else 0) ++ bytesLE 4 s.opSec ++
  bytesLE 4 (s.rd F.EVR_OPSEC_POWER_CYCLES) ++ bytesLE 8 (s.regBits .GLB_DEV_ID 0 0) ++ List.replicate 40 0

/-- R464, R467: the report is signed, once the device holds its keys, and written to the host; `dma`: a host memory access failed, as it does where the buffer
crosses the end of host memory. The signature is a value that a standard outside the spec defines: free. -/
def State.attest (s : State) (slot : Nat) (dma : Bool) : State :=
  match s.opIn slot oAttest with
  | none => s
  | some op =>
    let addr := op.args.getD 0 0
    if dma || decide (2 ^ 64 < addr + 30048) then s.failDma slot addr
    else if !s.sec.secret then s
    else
      let (v, s) := s.fresh
      (s.emit (.hostWrite addr (s.attestBody op.args ++ bytesLE signatureSize v))).endOp slot opDone 0

/-- R452: the certificates' place in the identity area. -/
def certBase : Nat := 0x03410000
def certSize : Nat := 65472

/-- R463: IDENT_READ. -/
def State.identRead (s : State) (slot : Nat) (dma : Bool) : State :=
  match s.opIn slot oIdentRead with
  | none => s
  | some op =>
    let addr := op.args.getD 0 0
    if dma then s.failDma slot addr
    else (s.emit (.hostWrite addr (bytesLE 64 s.sec.storedKey ++ s.sec.nvm.readN certBase certSize))).endOp slot opDone 0

/-- R453: a header copy's bytes. -/
def headerBytes (seq active : Nat) : List Byte :=
  let l := bytesLE 4 0x4E564C47 ++ bytesLE 4 seq ++ bytesLE 1 active ++ List.replicate 3 0
  l ++ bytesLE 4 (crc32c l).toNat

/-- R453: the older header copy takes header `h` with slot `b` of the image kind active, under the next SEQ. -/
def State.switchSlot (s : State) (h : List Byte) (config b : Bool) : State :=
  let older := 1 - s.boot.copy
  let seq := (s.boot.seq + 1) % 2 ^ 32
  let t := s.program (4096 * older) 4096 (headerBytes seq (setBit (field h 8 1) (b2n config) b))
  { t with boot := { t.boot with copy := older, seq } }

/-- R431, R463: IMAGE_WRITE: the inactive slot takes the bytes that the host gave; where they are fewer than the length, the
access after them failed, and the 4 KiB units before it stand programmed. `signed`: the signature that is read back
verifies. -/
def State.imageWrite (s : State) (slot : Nat) (data : List Byte) (signed : Bool) : State :=
  match s.opIn slot oImageWrite with
  | none => s
  | some op =>
    let config := op.flags.testBit 0
    let n := op.args.getD 1 0
    let h := s.bootHeader
    let b := !activeSlot h config
    let a := nvmSlot config b
    if data.length < n then
      let k := data.length / 4096
      ((s.program a (4096 * k) (data.take (4096 * k))).putOp slot { op with progress := k }).failDma slot
        (op.args.getD 0 0 + 4096 * k)
    else
      let s := s.program a (ceilDiv n 4096 * 4096) (data.take n)
      let s := s.putOp slot { op with progress := ceilDiv n 4096 }
      if s.imagePasses config (s.slotBytes' config b) signed then
        (s.switchSlot h config b).endOp slot opDone 0
      else s.endOp slot opFailed cBadImage

/-- R463: SVN_COMMIT. -/
def State.svnCommit (s : State) (slot : Nat) : State :=
  match s.opIn slot oSvnCommit with
  | none => s
  | some _ =>
    let v := max s.sec.fuses.minSvn (s.rd F.BOOT_VERSION_FW_SVN)
    let s := { s with sec := { s.sec with fuses := { s.sec.fuses with minSvn := v } } }
    (s.wr F.BOOT_VERSION_MIN_SVN v).endOp slot opDone 0

/-- R463: DEBUG_TOKEN_SET. -/
def State.tokenSet (s : State) (slot : Nat) : State :=
  match s.opIn slot oTokenSet with
  | none => s
  | some op =>
    let s := { s with sec := { s.sec with tokenDigest := some (argDigest op.args 0) } }
    (s.wr F.SEC_STAT_TOKEN 1).endOp slot opDone 0

/-! The debug opening (R466 to R468, R475). -/

/-- R466: the refusal codes. -/
def dbgLocked : Nat := 1
def dbgNoToken : Nat := 2
def dbgMismatch : Nat := 3
def dbgNoEpochs : Nat := 4
def dbgErase : Nat := 5

/-- R466: the first refusal that applies to a token, before anything is erased. -/
def State.debugRefusal (s : State) (token : List Byte) : Nat :=
  if s.flag F.SEC_DEBUG_LOCK_LOCK then dbgLocked
  else if !s.flag F.SEC_STAT_TOKEN then dbgNoToken
  else if some (Config.shake256 token) ≠ s.sec.tokenDigest then dbgMismatch
  else if s.rd F.SEC_STAT_EPOCHS_LEFT = 0 then dbgNoEpochs
  else 0

/-- The state after a KEY_EPOCH fuse is blown (R467, step 2). -/
def State.blowEpoch (s : State) : State :=
  let e := s.sec.fuses.keyEpoch + 1
  let s := { s with sec := { s.sec with fuses := { s.sec.fuses with keyEpoch := e } } }
  (s.wr F.SEC_STAT_KEY_EPOCH e).wr F.SEC_STAT_EPOCHS_LEFT (32 - e)

/-- R466, R467, R475: a DEBUG_OPEN request with a 32 B token. `locking`: LOCK = 1 is written in the same management cycle.
The answer is the refusal code, 0 when the port opens. -/
def State.debugOpen (s : State) (token : List Byte) (locking : Bool) (fail : Option EraseFail) : Nat × State :=
  let s := s.noteOrder thDebug 0 false 1
  let code := if locking then dbgLocked else s.debugRefusal token
  if code ≠ 0 then (code, s.wr F.SEC_STAT_LAST_REFUSAL code)
  else
    -- step 1
    let s := { s with sec := { s.sec with secret := false }, mem := { s.mem with key := 0, keyed := false } }
    match fail with
    | some .fuse => (dbgErase, s.wr F.SEC_STAT_LAST_REFUSAL dbgErase)
    | some .sector => (dbgErase, s.blowEpoch.wr F.SEC_STAT_LAST_REFUSAL dbgErase)
    | none =>
      let s := s.blowEpoch
      let s := { s with sec := { s.sec with tokenDigest := none, wrapped := none } }.wr F.SEC_STAT_TOKEN 0
      let (k, s) := s.fresh
      let key := k % 2 ^ 256
      let s := { s with
        sec := { s.sec with wrapped := some s.sec.fuses.keyEpoch, wrappedKey := key }
        mem := { s.mem with key, keyed := true } }
      let s := s.each (List.range 16) (fun s t => (s.wr F.CKP_EPOCH_SECURED noEpoch t).wr F.CKP_FULL_EPOCH noEpoch t)
      let s := (s.wr F.SEC_STAT_DEBUG_OPEN 1).wr F.SEC_STAT_IDENT_STALE 1
      let s := (s.raise stopMgt 5).triggerOther 11 0
      (0, { s with sec := { s.sec with tapOpen := true } })

end Sys2Proof.Machine
end

