-- ==== Sys2Proof/Machine/LiveChange.lean ====
section
/-!
DEFINITION. Live table changes, and what happens at the start of a round (R223, R224, R253 to R256).
-/

namespace Sys2Proof.Machine

/-- R253: a software write of SCH_WIN(p, b, e) is discarded for a reason other than the RWL rule. -/
def State.winProtected (s : State) (p b : Nat) : Bool :=
  s.bank p == b || ((s.chgState == chgDraining || s.chgState == chgSwitching) && s.sched.chgBank == b &&
    s.changePorts.contains p)

/-- R254, R255: a write of SCH_CHG with GO = 1 starts a change, or is refused. -/
def State.changeGo (s : State) (value : Nat) : State :=
  if !value.testBit 31 then s
  else
    let bank := bits value 25 24
    if s.accepted && decide (2 ≤ bank) && s.chgState != chgDraining && s.chgState != chgSwitching && !s.marked .retire 2 then
      let s := s.mark (.go s.chgState (s.rd F.SCH_CHG_STAT_BANK) (s.rd F.SCH_CHG_STAT_HELD))
      let s := { s with sched := { s.sched with chgSince := s.now, chgLasts := bits value 15 0, chgBank := bank } }
      ((s.wr F.SCH_CHG_STAT_STATE chgDraining).wr F.SCH_CHG_STAT_BANK bank).wr F.SCH_CHG_STAT_HELD 0
    else s.inc F.SCH_CHG_STAT_REFUSED

/-- R254: every context of the listed lasts is IDLE, and their queues on the changing ports are empty. -/
def State.changeDrained (s : State) : Bool :=
  let lasts := bitsOf s.sched.chgLasts 16
  s.contexts.all (fun x => !lasts.contains (s.lastOf x) || s.ctxState x == ctxIdle || s.ctxState x == ctxUndeclared) &&
    s.changePorts.all (fun p => lasts.all (fun t => (s.sched.queues.get [s.groupOf p, t]).isEmpty))

/-- R254: the drain is complete. -/
def State.changeSwitching (s : State) : State :=
  if s.chgState = chgDraining ∧ s.changeDrained = true then
    { s with sched := { s.sched with chgSwitch := s.store } }.wr F.SCH_CHG_STAT_STATE chgSwitching
  else s

/-- R254: a change ends: the items it held enter their contexts in the order they were accepted. -/
def State.changeEnd (s : State) (st : Nat) : State :=
  let held := s.sched.chgHeld
  let s := { s with sched := { s.sched with chgHeld := [] } }
  let s := s.wr F.SCH_CHG_STAT_STATE st
  s.work (held.map (fun h => Work.early h.1 h.2))

/-- R254: DRAIN_US has elapsed first. -/
def State.changeTimeout (s : State) : State :=
  if s.chgState = chgDraining ∧ s.sched.chgSince + us (s.rd F.SCH_CHG_CFG_DRAIN_US) ≤ s.now then
    ((s.changeEnd chgFailed).raise stopMgt 31).exactLoss F.SCH_EXACT_LOSS_TABLE
  else s

/-- R223, R254 to R256: a round starts: a change whose drain completed in an earlier cycle switches its ports, and
degraded groups switch theirs. -/
def State.roundStartAll (s : State) : State :=
  let t := s.roundStartOp
  if t.sched.running && (!s.sched.running || t.sched.roundStart != s.sched.roundStart) then
    let switching := t.chgState == chgSwitching && decide (t.sched.chgSwitch < t.sched.roundStart)
    let ports := if switching then t.changePorts else []
    let banks := (List.range 256).map (fun p => (p, t.bank p))
    let t := t.degradeSwitch ports
    let t := t.each ports (fun t p => t.setBank p t.sched.chgBank)
    let t := { t with sched := { t.sched with prevBanks := banks.filter (fun b => t.bank b.1 != b.2) } }
    if switching then t.changeEnd chgDone else t
  else t

end Sys2Proof.Machine
end

