-- ==== Sys2Proof/Machine/RingOps.lean ====
section
/-!
DEFINITION. The lacing ring: packets, failing and restored links (R49 to R55).
-/

namespace Sys2Proof.Machine

/-- R49: the stop before one on a ring. -/
def prevStop (r : Ring) (k : Nat) : Nat :=
  match r with
  | .cw => (k + 23) % 24
  | .ccw => (k + 1) % 24

/-- R51, R52, R54: a packet enters a ring at its source: the ring is the one its sender chooses, two buffers are free there,
and its die sends no fault message in the same ring cycle. Fault messages have their own entry (R378). -/
def State.packetEnter (s : State) (r : Ring) (p : RingPacket) : State :=
  if p.kind = .fault ∨ p.src = p.dst ∨ r ≠ s.chooseRing p.src p.dst ∨ s.ringFree r p.src < 2 ∨
      s.marked (.message p.src) 8 = true ∨ s.flt.entry.any (fun e => e.1 == r && e.2.die == p.src) = true then s
  else s.ringEnter r p.src p

/-- R51, R52: a packet of this stop's buffers may take the link that leaves it: none of its source and destination is
before it, and where it entered the ring here no passing packet contends. -/
def State.ringTurn (s : State) (r : Ring) (stop : Nat) (p : RingPacket) : Bool :=
  let l := s.ring.buffers.get [r.code, stop]
  (l.takeWhile (· != p)).all (fun q => q.src != p.src || q.dst != p.dst) &&
    let own := s.ring.entered.get [r.code, stop]
    (!own.contains p || l.all (fun q => own.contains q))

/-- R54: the copy of a fault message that a lost packet was. -/
def State.loseCopy (s : State) (r : Ring) (p : RingPacket) : State :=
  if p.kind = .fault then
    { s with flt := { s.flt with
        flight := s.flt.flight.filter (fun m => !(m.1 == r && m.2.packet == p))
        seen := s.flt.seen.filter (· != (p.src, p.tag)) } }
  else s

/-- R50 to R53: a packet reaches a stop on a ring: it enters there, at its source, or comes from the stop before.
`full`: the ejection queue there is full. It advances when that stop signals ON, also where it is ejected. A packet whose
link is down is lost. -/
def State.packetArrive (s : State) (r : Ring) (stop : Nat) (p : RingPacket) (full : Bool) : State :=
  let was := prevStop r stop
  if 24 ≤ stop ∨ 24 ≤ p.src ∨ 24 ≤ p.dst ∨ p.sized = false then s
  else if (s.ring.buffers.get [r.code, was]).contains p = false then
    if stop = p.src then s.packetEnter r p else s
  else if s.ringTurn r was p = false then s
  else if s.linkDown r was then (s.loseCopy r p).ringLeave r was p
  else if s.ringTakes r stop = false then s
  else if p.dst = stop ∧ full = false then (s.ringLeave r was p).emit (.ejected stop p)
  else
    let t := (s.ringLeave r was p).ringClaim r stop p
    if p.dst = stop then t.inc F.GLB_RING_STAT_LAPS else t

/-- The bits of GLB_RING_LINK for a ring. -/
def ringDown : Ring → Fld
  | .cw => F.GLB_RING_LINK_CW_DOWN
  | .ccw => F.GLB_RING_LINK_CCW_DOWN

/-- R55, R382: a link, the one leaving a stop on a ring, fails. What is committed to it is lost: copies of fault messages,
by die and sequence number, and packets. -/
def State.ringFail (s : State) (r : Ring) (stop : Nat) (msgs : List (Nat × Nat)) (packets : List RingPacket) : State :=
  if 24 ≤ stop then s
  else
    let s := s.wr (ringDown r) (setBit (s.rd (ringDown r)) stop true)
    let gone := packets.filter (fun p => (s.ring.buffers.get [r.code, stop]).contains p) ++
      (s.flt.flight.filter (fun m => m.1 == r && msgs.contains (m.2.die, m.2.seq))).map (fun m => m.2.packet)
    let s := s.each gone (fun s p => (s.loseCopy r p).takeOff r p)
    (s.setLevel stopMgt 2 (24 * r.code + stop) 0 true).syncFaults

/-- R51, R378: a link comes back, and the fault messages held at their dies are sent. -/
def State.ringRestore (s : State) (r : Ring) (stop : Nat) : State :=
  if s.linkDown r stop then
    let s := s.wr (ringDown r) (setBit (s.rd (ringDown r)) stop false)
    let s := (s.setLevel stopMgt 2 (24 * r.code + stop) 0 false).syncFaults
    let held := s.flt.waiting.entries.filterMap (fun e => e.2)
    let s := { s with flt := { s.flt with waiting := {} } }
    s.each held State.sendFault
  else s

end Sys2Proof.Machine
end

