-- ==== Sys2Proof/Machine/Bus.lean ====
section
/-!
DEFINITION. Accesses of the port classes to BAR0: authority, access codes, the RWL lock, 64-bit registers by halves,
access errors, and the registers whose writes do more than set a value (R10 to R23, R43, R253, R316, R358, R421, R476,
R481, R484, R485).
-/

namespace Sys2Proof.Machine

/-! Access errors (R23, R43). -/

/-- R43: GLB_ACCESS_ADDR captures an access error. -/
def State.captureAccess (s : State) (cls addr : Nat) : State :=
  (s.wr F.GLB_ACCESS_ADDR_CLASS cls).wr F.GLB_ACCESS_ADDR_OFFSET addr

/-- R43: the first access error of the present cycle, if there has been one: the bits before it that are not cleared since,
its class and address. -/
def State.firstAccess (s : State) : Option (Nat × Nat × Nat) :=
  s.noted (fun m => match m with
    | .access was cls addr => some (was, cls, addr)
    | _ => none) 1

/-- R43: GLB_ACCESS_ADDR captures an error that finds every bit clear; the error sets its bit and raises ACCESS_ERR. -/
def State.accessErr (s : State) (f : Fld) (cls : PortClass) (addr : Nat) : State :=
  let bits := s.regBits .GLB_ACCESS_ERR 0 0
  let s := if bits = 0 then s.captureAccess cls.code addr else s
  let s := if s.firstAccess.isNone then s.mark (.access bits cls.code addr) else s
  (s.latch f).raise stopMgt 1

/-- R43: software clears bits of GLB_ACCESS_ERR: where an error of the same cycle finds the last of the older bits cleared, it
is captured as a new first error. -/
def State.accessCleared (s : State) (word : Nat) : State :=
  match s.firstAccess with
  | none => s
  | some (was, cls, addr) =>
    let left := (List.range 32).foldl (fun n k => if was.testBit k && !word.testBit k then n + 2 ^ k else n) 0
    let s := s.mark (.access left cls addr)
    if was ≠ 0 ∧ left = 0 then s.captureAccess cls addr else s

/-! Reads (R11, R16, R18, R402, R485). -/

/-- R18, R20: what an RC field holds after a read: what was counted in this cycle; PWR_INPUT_EXT reloads with the present voltage and BPM_POOL_LOW with
the free count. -/
def State.rcReload (s : State) (f : Fld) (i j : Nat) : Nat :=
  match f.reg with
  | .PWR_INPUT_EXT => s.rd F.PWR_INPUT_VOLTS
  | .BPM_POOL_LOW => if f.lo = 32 then s.rd F.BPM_POOL_FREE_OPP i else s.rd F.BPM_POOL_FREE_SCHED i
  | _ => (s.countedNow f i j).1

/-- R20: what a read of a field returns: of an RC field, without what was counted in this cycle. -/
def State.rdSeen (s : State) (f : Fld) (i j : Nat) : Nat :=
  if f.code i j = .rc then s.rd f i j - (s.countedNow f i j).2 else s.rd f i j

/-- A register's bits as a read returns them. -/
def State.seenBits (s : State) (r : Reg) (i j : Nat) : Nat :=
  if r = .CL_OWNER then s.comp.owners.getD i 0
  else (r.fields).foldl (fun n f => n + s.rdSeen f i j * 2 ^ f.lo) 0

/-- R18: the read effects of a register: its RC fields are cleared or reload. In the safe state there are none
(R485). -/
def State.readEffects (s : State) (r : Reg) (i j : Nat) : State :=
  if s.isSafe then s
  else s.each (r.fields.filter (fun f => f.code i j == .rc)) (fun s f => s.wr f (s.rcReload f i j) i j)

/-- A word of the record windows. An uncorrectable one is counted and raised, and its value is not stated: free. -/
def State.windowRead (s : State) (a : Nat) : Nat × State :=
  let off := a - 0x00600000
  let slot := off / eventSize
  if inRecordWindow a && s.evr.badWords.get [slot, off % eventSize / 8 * 8] then
    let (v, s) := s.fresh
    (v % 2 ^ 32, if s.isSafe then s else s.evrUncorr slot)
  else (s.windowWord a, s)

/-- A class's latch (R11) and held low word (R12). -/
def State.setLatch (s : State) (cls : PortClass) (l : Option Latch) : State :=
  { s with bus := { s.bus with latch := s.bus.latch.set [cls.code] l } }
def State.setHeld (s : State) (cls : PortClass) (h : Option HeldWord) : State :=
  { s with bus := { s.bus with held := s.bus.held.set [cls.code] h } }

/-- R11, R16, R18: a 32-bit read. -/
def State.read32 (s : State) (cls : PortClass) (a : Nat) : Nat × State :=
  if inRecordWindow a || inRingWindow a then s.windowRead a
  else match hitAt a with
    | none => (0, if s.isSafe then s else s.accessErr F.GLB_ACCESS_ERR_UNMAPPED cls a)
    | some h =>
      let v := s.seenBits h.reg h.i h.j
      if h.reg.at.bits = 32 then (v, s.readEffects h.reg h.i h.j)
      else if !h.high then
        (v % 2 ^ 32, (s.setLatch cls (some { addr := a, high := v / 2 ^ 32 })).readEffects h.reg h.i h.j)
      else match s.bus.latch.get [cls.code] with
        | some l => if l.addr + 4 = a then (l.high, s.setLatch cls none) else (v / 2 ^ 32, s)
        | none => (v / 2 ^ 32, s)

/-- The address is the base of one 64-bit register (R10, R484). -/
def wideAt (a : Nat) : Option Hit :=
  (hitAt a).bind (fun h => if h.reg.at.bits = 64 ∧ h.high = false then some h else none)

/-- The second word of a wide read, at `a`, is read after the first, and stands above it. -/
def readPair (r : Nat × State) (cls : PortClass) (a : Nat) : Nat × State :=
  (r.1 + (r.2.read32 cls a).1 * 2 ^ 32, (r.2.read32 cls a).2)

/-- R10, R484: a 64-bit read. -/
def State.read64 (s : State) (cls : PortClass) (a : Nat) : Nat × State :=
  match wideAt a with
  | some h => (s.seenBits h.reg h.i h.j, s.readEffects h.reg h.i h.j)
  | none => readPair (s.read32 cls a) cls (a + 4)

/-- R473: the classes that carry register access. -/
def PortClass.carriesAccess : PortClass → Bool
  | .host | .mgmt => true
  | .fabric | .nvm => false

/-- A read of 32 or 64 bits, answered to its class. -/
def State.busRead (s : State) (cls : PortClass) (a width : Nat) : State :=
  if cls.carriesAccess then
    let (v, s) := if width = 64 then s.read64 cls a else s.read32 cls a
    s.emit (.readData cls a width v)
  else s

/-! Writes (R12, R15, R17, R18, R22). -/

/-- The fields of a register that a write of bits [hi:lo] reaches. -/
def reached (r : Reg) (hi lo : Nat) : List Fld := r.fields.filter (fun f => decide (f.lo ≤ hi ∧ lo ≤ f.hi))

/-- R22, R426: a locked write that would change an RWL field it reaches. -/
def State.lockedDiffers (s : State) (fs : List Fld) (i j word : Nat) : Bool :=
  s.rwlLocked && fs.any (fun f => f.code i j == .rwl && bits word f.hi f.lo != s.rd f i j)

/-- R18, R19: what a written field does by its access code. -/
def State.writeField (s : State) (f : Fld) (i j word : Nat) : State :=
  let v := bits word f.hi f.lo
  match f.code i j with
  | .rw => if f.ignores v then s else s.wr f v i j
  | .rwl => if s.rwlLocked || f.ignores v then s
    else if f = F.PRT_LINK_CFG_RATE then s.setRate i v
    else s.wr f v i j
  | .w1c => if v = 0 ∨ s.marked (.bit (f.key i j)) f.reg.cycle = true then s else s.wr f 0 i j
  | _ => s

/-- R18: every field reached, by its access code. -/
def State.writeFields (s : State) (fs : List Fld) (i j word : Nat) : State :=
  s.each fs (fun s f => s.writeField f i j word)

/-- A write of bits [hi:lo] of a register: `word` holds the register's bits as they would stand. Registers whose meaning
gives a write more than its access codes come first. -/
def State.writeReg (s : State) (cls : PortClass) (r : Reg) (i j word hi lo : Nat) : State :=
  let fs := reached r hi lo
  let plain (s : State) : State := s.writeFields fs i j word
  match r with
  | .GLB_ACCESS_ERR => (plain s).accessCleared word
  | .PWR_THERM_CFG =>
    let trip := bits word 23 16
    if trip < bits word 7 0 + 5 ∨ 120 < trip then s else (plain s).thermWarn.syncFaults
  | .PWR_HOST_OFF => s.writeDomainOff true i word
  | .PWR_MGT_OFF => s.writeDomainOff false i word
  | .SEC_DEBUG_LOCK =>
    let s := plain s
    if word.testBit 0 then s.noteOrder thDebug 0 (cls == .host) 2 else s
  | .FLT_SRC_STAT => if word.testBit 31 then s.clearPending i false else s
  | .FLT_SRC_CFG => s.writeSrcCfg i word
  | .FLT_MGT =>
    let s := (plain s).syncFaults
    if word.testBit 30 ∧ faultSources.contains (bits word 6 0) = true then s.clearPending (bits word 6 0) false else s
  | .FLT_INJECT => s.writeInject word
  | .EVR_TRIGGER => s.softwareTrigger word
  | .EVR_RING_SEL => s.ringSelect word
  | .PRT_LINK_CFG =>
    let en := word.testBit 31
    let s := s.writeFields (fs.filter (· != F.PRT_LINK_CFG_ENABLE)) i j word
    s.setEnable i en
  | .PRT_FC_CFG => if bits word 23 12 ≤ bits word 11 0 then s else plain s
  | .PRT_TEST => s.writeTest i (bits word 27 26) (bits word 25 24) (bits word 23 22)
  | .PRT_LSM_CTL => s.writeLaserEnable i (word.testBit 0)
  | .PRT_TIME_NOW => s.writeTime word
  | .PRT_TIME_PORT => (plain s).syncTime
  | .PRT_TIME_CFG => (plain s).syncTime
  | .LST_CFG | .LST_MEMBER => (plain s).syncMembers.syncLasts
  | .OPC_ABORT => if word.testBit 31 then s.hostAbort (bits word 15 0) else s
  | .INS_FENCE => (s.swFence i word).settleAll
  | .SCH_WIN =>
    let b := j / 512
    if s.winProtected i b then (if 2 ≤ b then s.inc F.SCH_CHG_STAT_REFUSED else s) else plain s
  | .SCH_CHG => s.changeGo word
  | .SHP_SHAPE_CFG => s.writeBucket .shaper i j word
  | .SHP_POL_CFG => s.writeBucket .policer i j word
  | .SHP_MIR_CFG => s.writeMirror i word
  | .CKP_LAST_CFG =>
    if word.testBit 0 ∧ lo = 0 then (plain s).mark (.bit (F.CKP_LAST_CFG_FULL_NEXT.key i 0)) else plain s
  | .CKP_LICHEN_THR => if bits word 31 16 ≤ bits word 15 0 then s else plain s
  | .HST_MBX_CMD => s.mailbox word 0
  | .MSIX_CTRL => s.setMask i (word.testBit 0)
  | _ => plain s

/-- R17, R381, R473: port class NVM writes a register: in stage CONFIG, one with fields that the configuration image gives;
a write of FLT_SRC_CFG of an unused source is ignored. -/
def State.nvmOwns (s : State) (cls : PortClass) (h : Hit) : Bool :=
  cls == .nvm && s.stage == stageConfig && (!(nvmFields h.reg h.i).isEmpty || h.reg == .FLT_SRC_CFG)

/-- R440, R455: what the NVM class stores in a field: an off bit of a domain without control stays zero. -/
def nvmValue (f : Fld) (i v : Nat) : Nat :=
  if f = F.PWR_MGT_OFF_OFF then
    ((List.range 64).filter (fun j => v.testBit j && offBit false (64 * i + j))).foldl (fun n j => n + 2 ^ j) 0
  else v

/-- R17, R18, R22, R225, R473, R481: a write that reaches bits [hi:lo] of a register, from a class. The NVM class writes the
fields it loads, whatever their access codes; a value that a field ignores is not stored. -/
def State.writeHit (s : State) (cls : PortClass) (a : Nat) (h : Hit) (word hi lo : Nat) : State :=
  if s.nvmOwns cls h then
    s.each ((nvmFields h.reg h.i).filter (fun f => decide (f.lo ≤ hi ∧ lo ≤ f.hi))) (fun s f =>
      let v := bits word f.hi f.lo
      if f.ignores v = true ∨ (h.reg = .FLT_SRC_CFG ∧ f.code h.i h.j ≠ .rw) then s
      else if f = F.PRT_LINK_CFG_RATE then s.setRate h.i v
      else s.wr f (nvmValue f h.i v) h.i h.j)
  else if cls ≠ h.reg.owner then s.accessErr F.GLB_ACCESS_ERR_AUTHORITY cls a
  else
    let differs := s.lockedDiffers (reached h.reg hi lo) h.i h.j word
    let s := s.writeReg cls h.reg h.i h.j word hi lo
    if differs then s.accessErr F.GLB_ACCESS_ERR_LOCKED_WR cls a else s

/-- R12, R16: a 32-bit write. -/
def State.write32 (s : State) (cls : PortClass) (a v : Nat) : State :=
  let v := v % 2 ^ 32
  let held := s.bus.held.get [cls.code]
  let s := s.setHeld cls none
  if inRecordWindow a || inRingWindow a then s
  else match hitAt a with
    | none => s.accessErr F.GLB_ACCESS_ERR_UNMAPPED cls a
    | some h =>
      let now := s.regBits h.reg h.i h.j
      if h.reg.at.bits = 32 then s.writeHit cls a h v 31 0
      else if !h.high then
        if cls = h.reg.owner ∨ s.nvmOwns cls h = true then s.setHeld cls (some { addr := a, low := v })
        else s.accessErr F.GLB_ACCESS_ERR_AUTHORITY cls a
      else match held with
        | some w => if w.addr + 4 = a then s.writeHit cls a h (w.low + v * 2 ^ 32) 63 0
          else s.writeHit cls a h (withHalf now true v) 63 32
        | none => s.writeHit cls a h (withHalf now true v) 63 32

/-- R10, R484: a 64-bit write. -/
def State.write64 (s : State) (cls : PortClass) (a v : Nat) : State :=
  let v := v % 2 ^ 64
  match wideAt a with
  | some h => (s.setHeld cls none).writeHit cls a h v 63 0
  | none => (s.write32 cls a (v % 2 ^ 32)).write32 cls (a + 4) (v / 2 ^ 32)

/-- A write of 32 or 64 bits; in the safe state it is discarded (R389). -/
def State.busWrite (s : State) (cls : PortClass) (a width v : Nat) : State :=
  if s.isSafe then s
  else if width = 64 then s.write64 cls a v
  else s.write32 cls a v

/-- A write of a whole register by its owner, as that register's own command makes it. -/
def State.regWrite (s : State) (r : Reg) (i j v : Nat) : State :=
  s.busWrite r.owner (r.addr i j) r.at.bits v

/-! Lost accesses (R55, R421). -/

/-- R421: a host access that gets no response within 10 µs. -/
def State.accessLost (s : State) (a : Nat) (write : Bool) : State :=
  let s := if s.flag F.HST_ERR_RING_TIMEOUT then s
    else (s.wr F.HST_ERR_ADDR_WRITE (b2n write)).wr F.HST_ERR_ADDR_OFFSET a
  let s := s.latch F.HST_ERR_RING_TIMEOUT
  if write then s else s.emit (.completerAbort .host a)

end Sys2Proof.Machine
end

