-- ==== Sys2Proof/Machine/BootConfig.lean ====
section
/-!
DEFINITION. Stage CONFIG of boot: the configuration image's words, the clusters, channels, pools and keys that follow
from them, and the configuration check (R38, R39, R66, R261, R409, R412, R439 to R441, R455, R457, R461, R462).
-/

namespace Sys2Proof.Machine

/-! Stage CONFIG (R455). -/

/-- R455: the records of a body, to its end. -/
def readBody : Nat → List Byte → Option (List (Nat × List Byte))
  | 0, l => if l.isEmpty then some [] else none
  | n + 1, l =>
    if l.isEmpty then some []
    else
      let off := field l 0 4
      let len := field l 4 4
      let span := 8 + (len + 7) / 8 * 8
      if l.length < 8 ∨ off % 4 ≠ 0 ∨ len % 4 ≠ 0 ∨ l.length < span then none
      else (readBody n (l.drop span)).map (fun r => (off, (l.drop 8).take len) :: r)

/-- R455: the words of a configuration image: address and value; none where its body is no series of records. -/
def configWords (image : List Byte) : Option (List (Nat × Nat)) :=
  let body := (image.drop 128).take (image.length - 128 - signatureSize)
  (readBody (body.length / 8) body).map recordWords

/-- R39, R66, R88: the clusters at boot. `clusters`: those that the image marks disabled. -/
def State.bootClusters (s : State) (clusters : List Nat) : State :=
  let off (k : Nat) : Bool := clusters.contains k || !s.domainAllowed (256 + k / 4)
  let s := s.each ((List.range 416).filter off) (fun s k =>
    let cause := if clusters.contains k || s.pwr.marked.testBit (256 + k / 4) then 4 else 5
    ((s.wr F.CL_STATE_STATE clDisabled k).wr F.CL_STATE_CAUSE cause k).wr F.CL_STATE_LOGICAL noCluster k)
  let s := s.each (List.range 400) (fun s l => (s.wr F.CL_LOG2PHYS_MAPPED 0 l).wr F.CL_LOG2PHYS_PHYS noCluster l)
  let s := s.each [0, 1, 2, 3] (fun s c =>
    let ks := (dieClusters c).filter (fun k => !off k)
    let s := s.each (ks.take 100).zipIdx (fun s (k, n) =>
      let l := 100 * c + n
      let s := ((s.wr F.CL_STATE_STATE clActive k).wr F.CL_STATE_CAUSE 0 k).wr F.CL_STATE_LOGICAL l k
      (s.wr F.CL_LOG2PHYS_MAPPED 1 l).wr F.CL_LOG2PHYS_PHYS k l)
    s.each (ks.drop 100) (fun s k =>
      ((s.wr F.CL_STATE_STATE clSpare k).wr F.CL_STATE_CAUSE 0 k).wr F.CL_STATE_LOGICAL noCluster k))
  s.bootOwners.syncClusters

/-- R408, R409: the channels of the address map, and its size. -/
def State.bootChannels (s : State) : State :=
  let use := ((List.range 16).filter (fun c => !s.pwr.units.channels.testBit c)).foldl (fun n c => n + 2 ^ c) 0
  let s := { s with mem := { s.mem with inUse := use } }
  let n := [0, 1, 2, 3].foldl (fun n m => min n (s.dieChannels m).length) 4
  (s.wr F.MEM_GDDR_SIZE_N_MIN n).wr F.MEM_GDDR_SIZE_BYTES (4 * n * 3 * gib)

/-- R260, R265: the pools' places and lists. -/
def State.bootPools (s : State) : State :=
  let base (q : Nat) : Nat := ((List.range 4).filter (fun k => decide (q < k))).foldl (fun n k =>
    n + s.rd F.BPM_POOL_CFG_COUNT k * poolCells k) 0
  let s := s.each (List.range 4) (fun s q => s.wr F.BPM_POOL_BASE_CELL (base q) q)
  let s := s.each (List.range 4) (fun s q => s.buildLists q false)
  s.each (List.range 4) (fun s q =>
    (s.wr F.BPM_POOL_LOW_SCHED (s.rd F.BPM_POOL_FREE_SCHED q) q).wr F.BPM_POOL_LOW_OPP (s.rd F.BPM_POOL_FREE_OPP q) q)

/-- R461, R462: the keys of this key epoch: generated and stored at its first boot. -/
def State.bootKeys (s : State) : State :=
  let e := s.sec.fuses.keyEpoch
  let s := if s.sec.stored = some e then s
    else
      let k := Config.identityKey s.sec.fuses.deviceSecret e
      { s with sec := { s.sec with stored := some e, storedKey := k % 2 ^ 512 } }
  let s := if s.sec.wrapped = some e then s
    else
      let (k, s) := s.fresh
      { s with sec := { s.sec with wrapped := some e, wrappedKey := k % 2 ^ 256 } }
  let s := { s with sec := { s.sec with secret := true }, mem := { s.mem with key := s.sec.wrappedKey, keyed := true } }
  let s := s.setDigest F.SEC_IDENT_IDENT (Config.shake256 (bytesLE 64 s.sec.storedKey))
  let s := (s.wr F.SEC_STAT_KEY_EPOCH e).wr F.SEC_STAT_EPOCHS_LEFT (32 - e)
  s.wr F.SEC_STAT_TOKEN (b2n s.sec.tokenDigest.isSome)

/-- R218: the fence bits of ports with ENABLE 0 or marked disabled; they count nowhere. -/
def State.bootFences (s : State) : State :=
  let f (p : Nat) : Bool := !s.flag F.PRT_LINK_CFG_ENABLE p || s.pwr.marked.testBit p ||
    s.pwr.marked.testBit (engineDomain (engineOfPort p))
  let s := s.each [0, 1, 2, 3] (fun s i =>
    s.wr F.INS_FENCE_PORTS (((List.range 64).filter (fun j => f (64 * i + j))).foldl (fun n j => n + 2 ^ j) 0) i)
  let since := ((List.range 256).filter f).foldl (fun (m : SMap (Option Nat)) p => m.set [p] (some s.now)) s.sched.fenceSince
  { s with sched := { s.sched with fenceSince := since } }

/-- A region of the GDDR7 use map: base, granules or bytes, and whether it is die-local. -/
structure Region where
  base  : Nat
  size  : Nat
  local_ : Bool
  deriving DecidableEq, Repr

/-- R412: the regions. A die-local region of n granules has size n. -/
def State.regions (s : State) : List Region :=
  [⟨s.rd F.MEM_GMAP_FW_BASE, s.rd F.MEM_GMAP_FW_GRANULES * 4096, false⟩,
   ⟨s.rd F.EVR_RING_BASE, s.rd F.EVR_RING_RECORDS * eventSize, false⟩,
   ⟨s.rd F.MEM_GMAP_NUM_BASE, s.rd F.MEM_GMAP_NUM_GRANULES * 4096, false⟩,
   ⟨s.sporeBase, s.rd F.CKP_REGION_GRANULES * 4096, false⟩] ++
  (List.range 4).map (fun c => ⟨s.rd F.WLT_REGION_BASE c, s.rd F.WLT_REGION_GRANULES c, true⟩)

/-- The end of a region. -/
def Region.stop (r : Region) : Nat :=
  if r.size = 0 then 0 else if r.local_ then r.base + (r.size - 1) * 16384 + 4096 else r.base + r.size

/-- R412: two regions share an address. Die-local ones lie on different dies, which R409 checks. -/
def Region.meets (a b : Region) : Bool :=
  if a.size = 0 ∨ b.size = 0 then false
  else if a.local_ && b.local_ then false
  else if a.local_ || b.local_ then
    let l := if a.local_ then a else b
    let r := if a.local_ then b else a
    let k := if r.base < l.base + 4096 then 0 else (r.base - l.base - 4096) / 16384 + 1
    decide (k < l.size ∧ l.base + k * 16384 < r.base + r.size)
  else decide (a.base < b.base + b.size ∧ b.base < a.base + a.size)

/-- Some two entries of a list, at different places, are so related. -/
def somePair {α : Type} (f : α → α → Bool) : List α → Bool
  | [] => false
  | a :: l => l.any (f a) || somePair f l

/-- R38: a word of the image writes 0b11 to GLB_ROLE.ROLE, a write that the register ignores. -/
def badRole (w : Nat × Nat) : Bool := decide (w.1 = (Reg.at .GLB_ROLE).base) && F.GLB_ROLE_ROLE.ignores (w.2 % 4)

/-- R455: the configuration check: R261, R409, R412, and marked units whose domain is not off. -/
def State.configBad (s : State) : Bool :=
  let count (q : Nat) : Nat := s.rd F.BPM_POOL_CFG_COUNT q
  let sched (q : Nat) : Nat := s.rd F.BPM_POOL_CFG_SCHED q
  decide (4194304 < (List.range 4).foldl (fun n q => n + count q * poolCells q) 0) ||
  (List.range 4).any (fun q => decide (count q < sched q)) || sched 2 != 0 || sched 3 != 0 ||
  count 1 % 2 != 0 || sched 1 % 2 != 0 ||
  s.regions.any (fun r => decide (s.gddrBytes < r.stop)) ||
  (List.range 4).any (fun c => gddrDie (s.rd F.WLT_REGION_BASE c) != c) ||
  somePair Region.meets s.regions ||
  (List.range 412).any (fun d => hasControl d && s.pwr.marked.testBit d && !s.offAsked d)

/-- The RWL fields that the image has given, for plan loads (R14, R426). -/
def State.rememberLoaded (s : State) : State :=
  { s with boot := { s.boot with loaded := { entries := s.regs.entries.filter (fun e => isPlanKey e.1) } } }

/-- R439, R441, R455: the words of the image are written as port class NVM, the units that it marks or whose domain is off are left out, and
the channels of the address map follow. -/
def State.configLoaded (s : State) (ws : List (Nat × Nat)) (marked : Nat) : State :=
  let s := s.each ws (fun s w => s.write32 .nvm w.1 w.2)
  let units := (bitsOf marked 412).foldl (fun u d => UnitMap.mark u d true) ({} : UnitMap)
  let units := ((List.range 412).filter (fun d => hasControl d && s.offAsked d)).foldl (fun u d => UnitMap.mark u d true) units
  let quads := ((List.range 104).filter (fun q => marked.testBit (256 + q) || s.offAsked (256 + q))).foldl (fun n q => n + 2 ^ q) 0
  let s := { s with pwr := { s.pwr with marked, units, quadsOff := quads } }
  s.bootChannels

/-- R455, R457: stage CONFIG. `marked`: the domains of units that the image marks disabled, one bit each; `clusters`: the
clusters it marks. -/
def State.bootConfig (s : State) (marked : Nat) (clusters : List Nat) : State :=
  if s.stage ≠ stageConfig then s
  else match configWords s.boot.cfg with
    | none => s.bootStop failConfigCheck
    | some ws =>
      let s := s.configLoaded ws marked
      if ws.any badRole || s.configBad then s.bootStop failConfigCheck
      else
        let s := (s.bootClusters (clusters.filter (fun k => decide (k < 416)))).bootPools.syncMap
        let s := s.bootKeys.bootFences.rememberLoaded
        let peers := ((List.range 8).filter (fun k => s.flag F.SEC_MGT_PEER_VALID k)).map (fun k => s.rd F.SEC_MGT_PEER_MAC k)
        let s := { s with sec := { s.sec with lastPeers := peers } }.readPersistence
        let s := if s.boot.cold then s.inc F.EVR_OPSEC_POWER_CYCLES else s
        let s := s.writePersistence
        let s := { s with evr := { s.evr with periodSec := s.opSec } }
        let s := ((s.wr F.FLT_PIN_BOOTING 0).wr F.BOOT_TIMES_CONFIG_MS s.bootMs).wr F.BOOT_STAT_STAGE stageMemory
        let s := s.each ((List.range 16).filter (fun c => s.mem.inUse.testBit c)) (fun s c => s.wr F.MEM_CH_STAT_STATE 1 c)
        s.syncOldest.syncFaults

end Sys2Proof.Machine
end

