-- ==== Sys2Proof/Machine/Mgt.lean ====
section
/-!
DEFINITION. The management port's frames (R390, R450, R459, R466, R470 to R472, R475).
-/

namespace Sys2Proof.Machine

/-- R471: TYPE and STATUS. -/
def mgtRead : Nat := 1
def mgtWrite : Nat := 2
def mgtReset : Nat := 3
def mgtDebug : Nat := 4
def stOk : Nat := 0
def stBadType : Nat := 1
def stAuthority : Nat := 2
def stUnmapped : Nat := 3
def stRefused : Nat := 4
def stTimeout : Nat := 5

/-- R470: the VALID peer with a MAC address. -/
def State.peerOf (s : State) (src : Nat) : Option Nat :=
  (List.range 8).find? (fun k => s.flag F.SEC_MGT_PEER_VALID k && s.rd F.SEC_MGT_PEER_MAC k == src)

/-- R471: the payload of a response. -/
def PeerLast.payload (r : PeerLast) : List Byte :=
  bytesLE 1 1 ++ bytesLE 1 (r.type + 0x80) ++ bytesLE 2 r.seq ++ bytesLE 2 r.status ++ bytesLE 2 r.count ++
    r.data.flatMap (bytesLE 4)

/-- A response is sent to a station. -/
def State.answer (s : State) (src : Nat) (r : PeerLast) : State := s.emit (.mgtResponse src r.payload)

/-- R459, R470: a malformed request counts, as a stranger's where no VALID peer sent it. -/
def State.malformed (s : State) (src : Nat) : State :=
  s.inc (if (s.peerOf src).isNone then F.SEC_MGT_STAT_STRANGERS else F.SEC_MGT_STAT_BAD)

/-- R472: the response of a peer's request is stored and sent. -/
def State.respond (s : State) (k src : Nat) (r : PeerLast) : State :=
  { s with sec := { s.sec with peers := s.sec.peers.set [k] (some r) } }.answer src r

/-- R472: the peer's previous request had this SEQ: it is answered from the stored response. -/
def State.duplicateOf (s : State) (src seq : Nat) : Option PeerLast :=
  (s.peerOf src).bind (fun k => (s.sec.peers.get [k]).bind (fun r => if r.seq = seq then some r else none))

/-- R470, R472: a request of a station: a stranger's is counted, a repeated one is answered again, any other is
executed. -/
def State.mgtRequest (s : State) (src seq : Nat) (run : Nat → State → State) : State :=
  match s.peerOf src with
  | none => s.inc F.SEC_MGT_STAT_STRANGERS
  | some k =>
    match s.duplicateOf src seq with
    | some r => (s.inc F.SEC_MGT_STAT_DUPLICATES).answer src r
    | none => run k (s.inc F.SEC_MGT_STAT_RX)

/-- R459: the blocks that a stopped boot lets any station read: BOOT, SEC and FLT. -/
def openBlock (a : Nat) : Bool := decide (0x00200000 ≤ a ∧ a < 0x00500000)

/-- R471: the words of a READ, one after the other, and whether one was unmapped. -/
def State.readWords (s : State) (a n : Nat) : List Nat × Bool × State :=
  (List.range n).foldl (fun (r : List Nat × Bool × State) k =>
    let b := a + 4 * k
    let (v, t) := r.2.2.read32 .mgmt b
    (r.1 ++ [v], r.2.1 || ((hitAt b).isNone && !inRecordWindow b && !inRingWindow b), t)) ([], false, s)

/-- R459, R471: READ. `timeout`: an access of it is lost (R421). -/
def State.mgtReadOp (s : State) (src seq a n : Nat) (timeout : Bool) : State :=
  if n = 0 ∨ 256 < n ∨ a % 4 ≠ 0 then s.malformed src
  else
    let run (s : State) : PeerLast × State :=
      if timeout then ({ seq, type := mgtRead, status := stTimeout, count := 0, data := [] }, s)
      else
        let (data, unmapped, s) := s.readWords a n
        ({ seq, type := mgtRead, status := if unmapped then stUnmapped else stOk, count := n, data }, s)
    if s.stage = stageFailed then
      if openBlock a && openBlock (a + 4 * (n - 1)) then
        let (r, s) := run s
        s.answer src r
      else s.answer src { seq, type := mgtRead, status := stRefused, count := 0, data := [] }
    else s.mgtRequest src seq (fun k s =>
      let (r, s) := run s
      s.respond k src r)

/-- R471: the status of a WRITE of n words by the management class. -/
def writeStatus (a n : Nat) : Nat :=
  let words := (List.range n).map (fun k => a + 4 * k)
  let window (b : Nat) : Bool := inRecordWindow b || inRingWindow b
  if words.any (fun b => match hitAt b with
      | some h => h.reg.owner != .mgmt
      | none => false) then stAuthority
  else if words.any (fun b => (hitAt b).isNone && !window b) then stUnmapped
  else stOk

/-- R459, R471: WRITE of one 32-bit (n = 1) or 64-bit (n = 2) register. -/
def State.mgtWriteOp (s : State) (src seq a n value : Nat) (timeout : Bool) : State :=
  if (n ≠ 1 ∧ n ≠ 2) ∨ a % 4 ≠ 0 then s.malformed src
  else
    let r (status : Nat) : PeerLast := { seq, type := mgtWrite, status, count := n, data := [] }
    if s.stage = stageFailed then s.answer src (r stRefused)
    else s.mgtRequest src seq (fun k s =>
      if timeout then s.respond k src (r stTimeout)
      else if s.isSafe then s.respond k src (r stRefused)
      else (s.busWrite .mgmt a (32 * n) value).respond k src (r (writeStatus a n)))

/-- R450, R459, R471, R475: RESET: answered, then the chip is reset. -/
def State.mgtResetOp (s : State) (src seq : Nat) : State :=
  let r : PeerLast := { seq, type := mgtReset, status := stOk, count := 0, data := [] }
  let go (s : State) : State := ((s.noteOrder thChip 0 false 2).answer src r).chipReset resetCommand 0
  if s.stage = stageFailed then
    if s.sec.lastPeers.contains src then go s else s.answer src { r with status := stRefused }
  else s.mgtRequest src seq (fun _ s => go s)

/-- R459, R466, R467, R471: DEBUG_OPEN. -/
def State.mgtDebugOp (s : State) (src seq : Nat) (token : List Byte) (locking : Bool) (fail : Option EraseFail) : State :=
  if token.length ≠ 32 then s.malformed src
  else if s.stage = stageFailed then s.answer src { seq, type := mgtDebug, status := stRefused, count := 0, data := [] }
  else s.mgtRequest src seq (fun k s =>
    let (code, s) := s.debugOpen token locking fail
    s.respond k src { seq, type := mgtDebug, status := if code = 0 then stOk else stRefused, count := code, data := [] })

/-- R470, R471: a frame that is not executed. -/
def State.mgtIgnore (s : State) (c : MgtIgnored) : State :=
  match c with
  | .stranger | .otherAddress | .otherType => s.inc F.SEC_MGT_STAT_STRANGERS
  | .bad => s.inc F.SEC_MGT_STAT_BAD
  | .unlisted src seq type =>
    if type ≤ mgtDebug ∧ 1 ≤ type then s
    else s.mgtRequest src seq (fun k s => s.respond k src { seq, type, status := stBadType, count := 0, data := [] })

/-- R472: a request that repeats the SEQ of the peer's previous one. -/
def State.mgtDuplicate (s : State) (src seq : Nat) : State :=
  match s.duplicateOf src seq with
  | some r => (s.inc F.SEC_MGT_STAT_DUPLICATES).answer src r
  | none => s

end Sys2Proof.Machine
end

