-- ==== Sys2Proof/Machine/Events.lean ====
section
/-!
DEFINITION. What the commands that no other file carries do, the passing of one root cycle, and the three conditions
under which a command acts (R389, R449, R450, R485).
-/

namespace Sys2Proof.Machine

/-- An outcome of a command: the next state. -/
abbrev Out := Host.Outcome State Fault Refusal

/-- A command acts while the package is powered and its operands are those the command has. -/
def onPowered (ok : Bool) (s : State) (f : State → State) : Out := .next (if ok && s.powered then f s else s)

/-- A command acts while the datapath moves (R485). -/
def onActive (ok : Bool) (s : State) (f : State → State) : Out := .next (if ok && s.active then f s else s)

/-- A command acts whatever the power. -/
def onAlways (ok : Bool) (s : State) (f : State → State) : Out := .next (if ok then f s else s)

/-- R394, R395: a write of FLT_MGT with CLEAR = 1: FORCE takes its value, and the source is cleared unless a raise of it is
decided in the same cycle. -/
def State.mgtClear (s : State) (src : Nat) (force raised : Bool) : State :=
  let s := ((s.setHeld .mgmt none).wr F.FLT_MGT_FORCE (b2n force)).syncFaults
  if faultSources.contains src then s.clearPending src raised else s

/-- R291: one copy that waits for a fenced analysis port is discarded. -/
def State.mirrorPurge (s : State) (p : Nat) : State :=
  let die := reqPort (dieOfPort p)
  let copy (l : List OppEntry) : Option OppEntry := l.find? (fun e => e.session.isSome)
  if !s.fenced p then s
  else match copy (s.sched.oppFifo.get [p]) with
    | some e =>
      { s with sched := { s.sched with oppFifo := s.sched.oppFifo.set [p] ((s.sched.oppFifo.get [p]).erase e) } }.mirrorDiscard e die
    | none =>
      match (voqKeys p).find? (fun k => (copy (s.sched.voq.get k)).isSome) with
      | none => s
      | some k =>
        match copy (s.sched.voq.get k) with
        | none => s
        | some e => { s with sched := { s.sched with voq := s.sched.voq.set k ((s.sched.voq.get k).erase e) } }.mirrorDiscard e die

/-- R231, R240: a scheduled frame starts on port p, perhaps with an uncorrectable cell. -/
def State.schedFrame (s : State) (p : Nat) (bad : Option Nat) : State :=
  let t := s.schedStart p
  match bad with
  | none => t
  | some cell => if t.sched.freeAt.get [p] = s.sched.freeAt.get [p] then t else t.cellUncorr cell

/-- R229, R240, R242: a matched frame is read into the egress FIFO of p, perhaps with an uncorrectable cell: a scheduled
buffer's operation is then to end ABORTED. -/
def State.oppCells (s : State) (p : Nat) (bad : Option Nat) : State :=
  let entry := (s.sched.oppFifo.get [p]).find? (fun e => decide (0 < e.pendingCells))
  let t := s.oppRead p bad
  match bad, entry.bind (·.sched) with
  | some _, some h => if t.abortable h.context h.opnum then t.work [.ask h.context stAborted] else t
  | _, _ => t

/-- R238, R240: a bank's scrub: words corrected, in its reads and those of frames since the last, and a cell that is
uncorrectable. -/
def State.scrub (s : State) (corrected : Nat) (bad : Option Nat) : State :=
  let s := s.incCorr F.INS_ECC_CORR corrected
  match bad with
  | none => s
  | some c => s.cellUncorr c

/-! The passing of time (R26, R56). -/

/-- R327: local time gains 5/14 ns in a root cycle. -/
def State.timeTick (s : State) : State :=
  let f := s.link.timeFrac + 5
  if f < 14 then { s with link := { s.link with timeFrac := f } }
  else ({ s with link := { s.link with timeFrac := f - 14 } }).incWrap F.PRT_TIME_NOW_NS

/-- R232: a store cycle ends: the ports that sent nothing in it inside an egress window. -/
def State.idleTick (s : State) : State :=
  if s.sched.running then
    s.each (List.range 256) (fun s p => if s.windowIdle p then s.inc F.SCH_WIN_IDLE_CYCLES 1 p else s)
  else s

/-- R191: a µs of every last that is FREEZING or HELD. -/
def State.holdTick (s : State) : State :=
  s.each (List.range 16) (fun s t =>
    if s.wltState t == wltFreezing || s.wltState t == wltHeld then s.inc F.WLT_HOLDS_TIME_US 1 t else s)

/-- R385: the ends of block resets: a port comes back after 1 ms, a laser module after 100 ms. -/
def State.resetTick (s : State) : State :=
  let due (t : Option Nat) : Bool := match t with
    | none => false
    | some t => decide (t ≤ s.now)
  let ports := (s.link.ports.entries.filter (fun e => due e.2.offUntil)).filterMap (fun e => e.1.head?)
  let mods := (s.link.lasers.entries.filter (fun e => due e.2.resetUntil)).filterMap (fun e => e.1.head?)
  let s := s.each ports (fun s p => (s.setPort p (fun q => { q with offUntil := none })).realign p)
  s.each mods (fun s e =>
    let s := (s.setLaser e (fun l => { l with resetUntil := none })).wr F.PRT_LSM_STAT_FAULT 0 e
    if s.flag F.PRT_LSM_STAT_PRESENT e then s.setLaserEnable e true else s)

/-- The end of a store cycle: pointers to fenced targets, mirror copies, placements and the endings asked for. -/
def State.storeEnd (s : State) : State :=
  let late (s : State) : State :=
    if s.sched.refused.isEmpty && s.sched.refusedOpp.isEmpty then s.copyLate else s.refuseLate.copyLate.settleAll
  late (late s).endPlacements.endAsked

/-- What begins with a root cycle; `pin`: FLT_SRC_CFG was written in the management cycle before. -/
def State.tickStart (s : State) (pin : Bool) : State :=
  let s := if pin then s.syncFaults else s
  let s := if s.link.downNext.isEmpty then s else s.leaveUps.settleAll
  let s := if s.now % 2 = 0 then s.bucketResets else s
  let s := if s.now % 2 = 0 ∧ s.active = true then s.serveFrees else s
  let s := s.timeTick.resetTick
  let s := if s.active then s.mailboxTick else s
  let s := if s.now % 4 = 0 ∧ s.active = true then s.arithCycle.endClosing else s
  if s.now % 2800 = 0 then s.holdTick else s

/-- One root cycle passes: the time engine counts, and at the ends of their own cycles the store, arithmetic and µs
counters. -/
def State.tick (s : State) : State :=
  let s := if s.powered && s.now % 2 == 1 then s.idleTick else s
  let s := if s.active && s.now % 2 == 1 then s.storeEnd else s
  -- R383: FLT_SRC_CFG written in the management cycle that ends
  let pin := s.now % 16 == 15 && s.marks.any (fun e => match e.2 with
    | .was (r :: _) _ => r == Reg.FLT_SRC_CFG.ctorIdx
    | _ => false)
  let s := { s with now := s.now + 1, marks := s.marks.filter (fun e => decide (s.now + 1 < e.1 + 16)) }
  if s.powered then s.tickStart pin else s

end Sys2Proof.Machine
end

