-- ==== Sys2Proof/WellFormed.lean ====
section
/-!
DEFINITION. Which operands a command can have. A command with others does nothing.
-/

namespace Sys2Proof

open Sys2Proof.Machine

/-- R8, R10: the address of a 32-bit word of BAR0 (256 MiB). -/
def wfAddr (addr : Nat) : Bool := decide (addr < 2 ^ 28) && decide (addr % 4 = 0)

/-- R10: an access of 32 or 64 bits. -/
def wfWidth (width : Nat) : Bool := width == 32 || width == 64

/-- R137: a context. -/
def wfCtx (x : Nat) : Bool := decide (x < 65536)

/-- The operands are within the ranges that spec/ gives them. -/
def Instr.wf : Instr → Bool
  | .registerWrite _ addr width _ => wfAddr addr && wfWidth width
  | .rcRegisterRead _ addr width => wfAddr addr && wfWidth width
  | .lowWordRead _ addr => wfAddr addr
  | .highWordRead _ addr => wfAddr addr
  | .lowWordWrite _ addr _ => wfAddr addr
  | .highWordWrite _ addr _ => wfAddr addr
  | .split64BitAccess _ addr _ => wfAddr addr
  | .ringPacketArrive _ stop _ _ => decide (stop < 24)
  | .ringLinkFail _ stop _ _ => decide (stop < 24)
  | .ringAccessTimeout addr _ => wfAddr addr
  | .fenceWrite i _ => decide (i < 4)
  | .queuePurge p => decide (p < 256)
  | .shaperCfgWrite p v _ => decide (p < 256) && decide (v < 8)
  | .policerCfgWrite p v _ => decide (p < 256) && decide (v < 8)
  | .mirrorCfgWrite m _ => decide (m < 8)
  | .prbsGeneratorSelect p _ => decide (p < 256)
  | .prbsCheckerSelect p _ => decide (p < 256)
  | .loopbackSelect p _ => decide (p < 256)
  | .testEnd p => decide (p < 256)
  | .portEnableWrite p _ => decide (p < 256)
  | .rateChange p _ => decide (p < 256)
  | .laserEnableWrite e _ => decide (e < 16)
  | .faultClear src _ => decide (src < 128)
  | .mgtFaultClear src _ _ => decide (src < 128)
  | .faultInject src => decide (src < 128)
  | .faultCfgWrite src _ => decide (src < 128)
  | .domainOffWrite _ i _ => decide (i < 7)
  | .domainPowerOff d => decide (d < 412)
  | .planLoad slot _ => decide (slot < 8)
  | .planAcceptDegraded slot => decide (slot < 8)
  | .planRetire slot => decide (slot < 8)
  | .remap slot => decide (slot < 8)
  | .memberReplace slot => decide (slot < 8)
  | .memberReplaceTimeout slot => decide (slot < 8)
  | .memRead slot _ _ => decide (slot < 8)
  | .memWrite slot _ _ => decide (slot < 8)
  | .attest slot _ => decide (slot < 8)
  | .identRead slot _ => decide (slot < 8)
  | .imageWrite slot _ _ => decide (slot < 8)
  | .svnCommit slot => decide (slot < 8)
  | .debugTokenSet slot => decide (slot < 8)
  | .mbxAbort slot tag => decide (slot < 8 ∧ tag < 256)
  | .longOperationEnd slot _ => decide (slot < 8)
  | .mgtRead src seq _ _ _ => decide (src < 2 ^ 48 ∧ seq < 65536)
  | .mgtWrite src seq _ _ _ _ => decide (src < 2 ^ 48 ∧ seq < 65536)
  | .mgtReset src seq => decide (src < 2 ^ 48 ∧ seq < 65536)
  | .debugOpen src seq _ _ _ => decide (src < 2 ^ 48 ∧ seq < 65536)
  | .mgtDuplicate src seq => decide (src < 2 ^ 48 ∧ seq < 65536)
  | .levelConditionChange src unit _ => decide (src < 128 ∧ unit < 48)
  | .intHoldoffEnd v => decide (v < 4)
  | .snapshotReadTimeout i => decide (i < 32)
  | .inputSample volts amps => decide (volts < 65536 ∧ amps < 65536)
  | .railFault stop rail => decide (stop < 24 ∧ rail < 256)
  | .thermalSample temps => decide (temps.length = 40)
  | .laserSample e _ _ => decide (e < 16)
  | .laserMonitorRead e _ _ _ => decide (e < 16)
  | .laneCommaBlock p k c => decide (p < 256) && decide (k < 4) && c.all (fun v => decide (v < 2 ^ 120))
  | .lossOfSignal p k => decide (p < 256) && decide (k < 4)
  | .codewordDecode p k w => decide (p < 256) && decide (k < 4) && decide (w.corrected.getD 0 ≤ 15 ∧ w.payload < 2 ^ 5140)
  | .laneDeskew p _ => decide (p < 256)
  | .portDown p => decide (p < 256)
  | .dataBlock p header _ _ => decide (p < 256 ∧ header < 4)
  | .frameReceive p _ => decide (p < 256)
  | .controlBlock p _ _ => decide (p < 256)
  | .flowBlock p => decide (p < 256)
  | .xoffStateChange p => decide (p < 256)
  | .flowSend p => decide (p < 256)
  | .fcStall p v => decide (p < 256) && decide (v < 8)
  | .timeBlock p _ => decide (p < 256)
  | .syncSend p => decide (p < 256)
  | .pdelayReqSend p => decide (p < 256)
  | .identSend p => decide (p < 256)
  | .identBlock p => decide (p < 256)
  | .negotiationTimeout p => decide (p < 256)
  | .schedFrameStart p _ => decide (p < 256)
  | .oppFrameStart p => decide (p < 256)
  | .tokenRefill die => decide (die < 8)
  | .frameDeparture p => decide (p < 256)
  | .ingressLanding p => decide (p < 256)
  | .resequence die => decide (die < 8)
  | .heldSwatchRelease die => decide (die < 8)
  | .oppCellsRead p _ => decide (p < 256)
  | .bufferFree ptr account requester _ _ _ => decide (ptr < 2 ^ 32 ∧ account < 20 ∧ requester < 17)
  | .mirrorFenceDiscard p => decide (p < 256)
  | .progressTimeout x => wfCtx x
  | .admissionDecide k t => decide (k < 416 ∧ t < 16)
  | .freezeDieStop t die => decide (t < 16 ∧ die < 4)
  | .holdEnter t => decide (t < 16)
  | .operandFetchRequest x _ => wfCtx x
  | .operandArrive x _ _ _ => wfCtx x
  | .nodeIssue k => decide (k < 416)
  | .checkVerdict k x _ _ _ _ _ _ => decide (k < 416) && wfCtx x
  | .chunkCommit x _ => wfCtx x
  | .numRecordArrive x _ _ => wfCtx x
  | .coreDieLoss die => decide (die < 4)
  | .monitorInputsRead die => decide (die < 4)
  | .shadowCheckComplete die => decide (die < 4)
  | .spillFetchComplete x _ _ _ => wfCtx x
  | .spillWritebackComplete x _ _ => wfCtx x
  | .exchangePlacement x => wfCtx x
  | .exchangeSwatchAssemble x _ _ => wfCtx x
  | .epochCutEnd t => decide (t < 16)
  | .epochCutTimeout t => decide (t < 16)
  | .epochSecured t _ => decide (t < 16)
  | .epochClose t => decide (t < 16)
  | .tierWriteFail t i _ => decide (t < 16 ∧ i < 2)
  | .memberFailed p => decide (p < 256)
  | .regrowthStart t g => decide (t < 16 ∧ g < 32)
  | .rollback t _ => decide (t < 16)
  | .restoreStart t => decide (t < 16)
  | .gddrCrcRetry ch _ _ _ => decide (ch < 16)
  | .gddrChannelFail ch => decide (ch < 16)
  | .cxlLinkDown i => decide (i < 2)
  | .cxlLinkUp i speed width _ => decide (i < 2 ∧ speed < 16 ∧ width < 16)
  | .hostLinkUp speed width => decide (speed < 16 ∧ width < 16)
  | .resetNRelease board => decide (board < 2048)
  | .prbsCheckerLock p k l => decide (p < 256) && decide (k < 4) && l.all (fun v => decide (v < 4))
  | .ringLinkRestore _ stop => decide (stop < 24)
  | .domainPowered d => decide (d < 412)
  | .shardReadComplete t g _ _ => decide (t < 16 ∧ g < 32)
  | .hostAbort _
  | .liveChangeGo _
  | .liveChangeDrained
  | .liveChangeTimeout
  | .timeNowWrite _
  | .faultPinForce _
  | .safeStateSelfTest
  | .softwareTrigger _
  | .ringRecordSelect _
  | .ringRecordReady
  | .domainPowerOn
  | .mbxCommandIssue _ _
  | .planCheck
  | .planRetired
  | .hostLinkDown _
  | .mgtFrameIgnored _
  | .faultMessage _
  | .faultRaise
  | .chipResetReaction
  | .faultNoticeRepeat
  | .mgtWatchdogExpiry
  | .collectorSweep _ _
  | .safeState _ _
  | .snapshotStart
  | .snapshotComplete
  | .periodicTrigger
  | .ringCopyBatch _ _
  | .operatingSecond
  | .persistenceWrite
  | .pwrGoodRise _
  | .pwrGoodFall
  | .inputShutdown
  | .resetN
  | .pllLockChange _
  | .bootRom
  | .bootNvmRead _ _ _
  | .bootVerify _ _ _ _
  | .bootConfig _ _
  | .bootMemory _
  | .bootLinks
  | .bootFail _
  | .fecTrendSecond
  | .syncLossTimeout
  | .roundStart
  | .swatchPointerHandoff
  | .matchRound
  | .insoleScrub _ _
  | .bufferAlloc _ _ _ _
  | .allocWaitExpiry _
  | .descriptorArrival
  | .swatchAccept
  | .abortSwatch
  | .spineHoldReceive
  | .spareSelfTestStart
  | .spareSelfTestEnd _
  | .lichenUpdate
  | .cadenceUpdate
  | .inputStartThreshold => true

end Sys2Proof
end

