-- ==== Sys2Proof/Machine/BootCmds.lean ====
section
/-!
DEFINITION. Boot (R452 to R459): one meaning per command.
-/

namespace Sys2Proof.Machine

/-- BOOT_ROM. R444, R453, R457: stage ROM. -/
def execBootRom (s : State) : Out :=
  onPowered true s State.bootRom

/-- BOOT_NVM_READ. R457: stage NVM_READ. -/
def execBootNvmRead (jedec : Nat) (size : Nat) (retries : Nat) (s : State) : Out :=
  onPowered true s (fun s => s.bootNvmRead jedec size retries)

/-- BOOT_VERIFY. R453, R454, R457: stage VERIFY; which slots' signatures verify. -/
def execBootVerify (fwA : Bool) (fwB : Bool) (cfgA : Bool) (cfgB : Bool) (s : State) : Out :=
  onPowered true s (fun s => s.bootVerify fwA fwB cfgA cfgB)

/-- BOOT_CONFIG. R455, R457: stage CONFIG; the domains of units and the clusters that the image marks disabled. -/
def execBootConfig (marked : Nat) (clusters : List Nat) (s : State) : Out :=
  onPowered true s (fun s => s.bootConfig (marked % 2 ^ 412) clusters)

/-- BOOT_MEMORY. R409, R457: stage MEMORY; the channels that fail training, one bit each. -/
def execBootMemory (failed : Nat) (s : State) : Out :=
  onPowered true s (fun s => s.bootMemory failed)

/-- BOOT_LINKS. R458: stage LINKS ends. -/
def execBootLinks (s : State) : Out :=
  onPowered true s State.bootLinks

/-- BOOT_FAIL. R459: boot stops on a check of the NVM, a rail or the root PLL. -/
def execBootFail (code : Nat) (s : State) : Out :=
  onPowered true s (fun s => s.bootFail code)

end Sys2Proof.Machine
end

