-- ==== Sys2Proof/Machine/ClusterCmds.lean ====
section
/-!
DEFINITION. Clusters, welt memory and the shadow monitor (R60 to R196): one meaning per command.
-/

namespace Sys2Proof.Machine

/-- ADMISSION_DECIDE. R182: cluster k decides a waiting chunk of last t. -/
def execAdmissionDecide (k : Nat) (t : Nat) (s : State) : Out :=
  onActive (Instr.admissionDecide k t).wf s (fun s => s.admissionDecide k t)

/-- FREEZE_DIE_STOP. R191: a core die stops admission for a last. -/
def execFreezeDieStop (t : Nat) (die : Nat) (s : State) : Out :=
  onActive (Instr.freezeDieStop t die).wf s (fun s => s.stopDie t die)

/-- HOLD_ENTER. R191: a last enters HELD. -/
def execHoldEnter (t : Nat) (s : State) : Out :=
  onActive (Instr.holdEnter t).wf s (fun s => s.enterHold t)

/-- SPINE_HOLD_RECEIVE. R196: a HOLD or OPEN of a spine. -/
def execSpineHoldReceive (s : State) : Out :=
  onActive true s (fun s => (s.spineHold).settleAll)

/-- OPERAND_FETCH_REQUEST. R72: operands of the next nodes of chunk n are requested. -/
def execOperandFetchRequest (x : Nat) (n : Nat) (s : State) : Out :=
  onActive (Instr.operandFetchRequest x n).wf s (fun s => s.fetchRequest x n)

/-- OPERAND_ARRIVE. R72, R240: operand r reaches the operand buffer; `bad`: an uncorrectable cell or address. -/
def execOperandArrive (x : Nat) (n : Nat) (r : Nat) (bad : Option Nat) (s : State) : Out :=
  onActive (Instr.operandArrive x n r bad).wf s (fun s => (s.operandArrive x n r bad).settleAll)

/-- NODE_ISSUE. R74: cluster k issues its next node. -/
def execNodeIssue (k : Nat) (s : State) : Out :=
  onActive (Instr.nodeIssue k).wf s (fun s => s.nodeIssue k)

/-- CHECK_VERDICT. R82 to R86, R487: the verdict on a word of chunk n; `fail`: the path that failed; `corrected`: welt
words corrected as it was read. -/
def execCheckVerdict (k : Nat) (x : Nat) (opnum : Nat) (n : Nat) (node : Nat) (fail : Option CheckPath) (attempt : Nat) (corrected : Nat) (s : State) : Out :=
  onActive (Instr.checkVerdict k x opnum n node fail attempt corrected).wf s (fun s =>
    s.checkVerdict k x opnum n node fail attempt corrected)

/-- CHUNK_COMMIT. R79: a chunk commits. -/
def execChunkCommit (x : Nat) (n : Nat) (s : State) : Out :=
  onActive (Instr.chunkCommit x n).wf s (fun s => (s.chunkCommit x n).settleAll)

/-- NUM_RECORD_ARRIVE. R126, R127: a numeric state record arrives. -/
def execNumRecordArrive (x : Nat) (n : Nat) (bad : Bool) (s : State) : Out :=
  onActive (Instr.numRecordArrive x n bad).wf s (fun s => s.recordArrive x n bad)

/-- SPARE_SELF_TEST_START. R89: the next spare enters its test. -/
def execSpareSelfTestStart (s : State) : Out :=
  onActive true s State.spareTestStart

/-- SPARE_SELF_TEST_END. R89: the test ends. -/
def execSpareSelfTestEnd (pass : Bool) (s : State) : Out :=
  onActive true s (fun s => s.spareTestEnd pass)

/-- CORE_DIE_LOSS. R96: a core die is lost. -/
def execCoreDieLoss (die : Nat) (s : State) : Out :=
  onActive (Instr.coreDieLoss die).wf s (fun s => s.coreDieLoss die)

/-- MONITOR_INPUTS_READ. R131: the monitor has read its inputs. -/
def execMonitorInputsRead (die : Nat) (s : State) : Out :=
  onActive (Instr.monitorInputsRead die).wf s (fun s => (s.monitorRead die).settleAll)

/-- SHADOW_CHECK_COMPLETE. R132, R133: a shadow evaluation ends. -/
def execShadowCheckComplete (die : Nat) (s : State) : Out :=
  onActive (Instr.shadowCheckComplete die).wf s (fun s => s.shadowComplete die)

/-- SPILL_FETCH_COMPLETE. R188, R410: a spilled partial reaches the operand buffer. -/
def execSpillFetchComplete (x : Nat) (n : Nat) (q : Nat) (bad : Option Nat) (s : State) : Out :=
  onActive (Instr.spillFetchComplete x n q bad).wf s (fun s => (s.spillFetched x n q bad).settleAll)

/-- SPILL_WRITEBACK_COMPLETE. R188: a spilled result is written. -/
def execSpillWritebackComplete (x : Nat) (n : Nat) (q : Nat) (s : State) : Out :=
  onActive (Instr.spillWritebackComplete x n q).wf s (fun s => s.spillWritten x n q)

end Sys2Proof.Machine
end

