-- ==== Sys2Proof/Machine/FaultCmds.lean ====
section
/-!
DEFINITION. Faults (R378 to R389): one meaning per command.
-/

namespace Sys2Proof.Machine

/-- FAULT_MESSAGE. R54, R378: the oldest fault message on a ring reaches the collector. -/
def execFaultMessage (ring : Ring) (s : State) : Out :=
  onPowered true s (fun s => s.faultMessage ring)

/-- FAULT_RAISE. R379: the collector decides the oldest raise. -/
def execFaultRaise (s : State) : Out :=
  onActive true s (fun s => (s.faultRaise).settleAll)

/-- LEVEL_CONDITION_CHANGE. R382: the condition of a level source's unit changes. -/
def execLevelConditionChange (src : Nat) (unit : Nat) (holds : Bool) (s : State) : Out :=
  onPowered (Instr.levelConditionChange src unit holds).wf s (fun s => s.levelChange src unit holds)

/-- INT_HOLDOFF_END. R384: the holdoff of a vector has ended. -/
def execIntHoldoffEnd (v : Nat) (s : State) : Out :=
  onPowered (Instr.intHoldoffEnd v).wf s (fun s => s.holdoffEnd v)

/-- CHIP_RESET_REACTION. R386: a chip reset by reaction begins. -/
def execChipResetReaction (s : State) : Out :=
  onPowered true s State.resetReactionDue

/-- FAULT_NOTICE_REPEAT. R387: the notice is repeated. -/
def execFaultNoticeRepeat (s : State) : Out :=
  onPowered true s State.noticeRepeat

/-- MGT_WATCHDOG_EXPIRY. R382: the watchdog has not been serviced for 1 s. -/
def execMgtWatchdogExpiry (s : State) : Out :=
  onPowered true s State.watchdog

/-- COLLECTOR_SWEEP. R388: words corrected in a sweep, and the first that fails, as cause and word. -/
def execCollectorSweep (corrected : Nat) (bad : Option (Nat × Nat)) (s : State) : Out :=
  onActive true s (fun s => s.sweep corrected bad)

/-- SAFE_STATE. R389, R485: a check of the collector fails. -/
def execSafeState (cause : Nat) (word : Nat) (s : State) : Out :=
  onActive true s (fun s => s.collectorFail cause word)

end Sys2Proof.Machine
end

