-- ==== Sys2Proof/Machine/LinkCmds.lean ====
section
/-!
DEFINITION. Fabric links (R293 to R322): one meaning per command.
-/

namespace Sys2Proof.Machine

/-- LASER_SAMPLE. R295: presence and fault of a laser module are sampled. -/
def execLaserSample (e : Nat) (presLow : Bool) (fltLow : Bool) (s : State) : Out :=
  onPowered (Instr.laserSample e presLow fltLow).wf s (fun s => s.laserSample e presLow fltLow)

/-- LASER_MONITOR_READ. R296: temperature, bias and output power of a module are read. -/
def execLaserMonitorRead (e : Nat) (temp : Nat) (bias : List Nat) (power : List Nat) (s : State) : Out :=
  onPowered (Instr.laserMonitorRead e temp bias power).wf s (fun s => s.laserRead e temp bias power)

/-- LANE_COMMA_BLOCK. R300, R301: the 120 bits that stand at a lane's expected position, or in HUNT at any; none: nothing
that could be read. -/
def execLaneCommaBlock (p : Nat) (k : Nat) (found : Option Nat) (s : State) : Out :=
  onPowered (Instr.laneCommaBlock p k found).wf s (fun s => s.commaBlock p k found)

/-- LOSS_OF_SIGNAL. R301: a lane loses signal. -/
def execLossOfSignal (p : Nat) (k : Nat) (s : State) : Out :=
  onPowered (Instr.lossOfSignal p k).wf s (fun s => s.lossOfSignal p k)

/-- CODEWORD_DECODE. R298, R305, R310: a codeword of logical lane k is decoded. -/
def execCodewordDecode (p : Nat) (k : Nat) (word : Codeword) (s : State) : Out :=
  onPowered (Instr.codewordDecode p k word).wf s (fun s => s.codeword p k word.corrected word.payload)

/-- LANE_DESKEW. R302, R322: deskew at a comma set, and the credits the neighbour grants. -/
def execLaneDeskew (p : Nat) (granted : List Nat) (s : State) : Out :=
  onPowered (Instr.laneDeskew p granted).wf s (fun s => s.deskew p granted)

/-- PORT_DOWN. R304: a port leaves UP; in the next cycle when it has been remapped in this one (R337). -/
def execPortDown (p : Nat) (s : State) : Out :=
  onPowered (Instr.portDown p).wf s (fun s => (s.leaveUp p).settleAll)

/-- DATA_BLOCK. R305, R306: the next block slot holds this data block, or this invalid one. -/
def execDataBlock (p : Nat) (header : Nat) (data : List Byte) (uncorr : Bool) (s : State) : Out :=
  onPowered (Instr.dataBlock p header data uncorr).wf s (fun s => s.dataBlock p { header, data, uncorr })

/-- FRAME_RECEIVE. R307, R308: a whole frame has been received; where an opportunistic one goes. -/
def execFrameReceive (p : Nat) (dst : Option Nat) (s : State) : Out :=
  onActive (Instr.frameReceive p dst).wf s (fun s => s.frameReceive p dst)

/-- CONTROL_BLOCK. R305, R309: the next block slot holds this control block. -/
def execControlBlock (p : Nat) (data : List Byte) (uncorr : Bool) (s : State) : Out :=
  onPowered (Instr.controlBlock p data uncorr).wf s (fun s => s.controlBlock p { header := 2, data, uncorr })

/-- FLOW_BLOCK. R317, R322: a FLOW block takes effect. -/
def execFlowBlock (p : Nat) (s : State) : Out :=
  onActive (Instr.flowBlock p).wf s (fun s => s.flowBlock p)

/-- XOFF_STATE_CHANGE. R316: the XOFF state follows the ingress FIFO. -/
def execXoffStateChange (p : Nat) (s : State) : Out :=
  onActive (Instr.xoffStateChange p).wf s (fun s => s.syncXoff p)

/-- FLOW_SEND. R317: a FLOW block is sent. -/
def execFlowSend (p : Nat) (s : State) : Out :=
  onActive (Instr.flowSend p).wf s (fun s => s.flowSend p)

/-- FC_STALL. R318: a channel has been held in XOFF for PAUSE_MS. -/
def execFcStall (p : Nat) (v : Nat) (s : State) : Out :=
  onActive (Instr.fcStall p v).wf s (fun s => s.fcStall p v)

/-- FEC_TREND_SECOND. R311: a whole second of plane time. -/
def execFecTrendSecond (s : State) : Out :=
  onPowered true s State.fecSecond

/-- PRBS_CHECKER_LOCK. R313, R314: symbol times of physical lane k of a port under test, with the PAM4 levels that its line
receives. -/
def execPrbsCheckerLock (p : Nat) (k : Nat) (levels : List Nat) (s : State) : Out :=
  onPowered (Instr.prbsCheckerLock p k levels).wf s (fun s => s.testSymbols p k levels)

end Sys2Proof.Machine
end

