-- ==== Sys2Proof/Machine/MailboxCmds.lean ====
section
/-!
DEFINITION. The host mailbox and plans (R148 to R154, R418 to R434, R463, R464): one meaning per command.
-/

namespace Sys2Proof.Machine

/-- MBX_COMMAND_ISSUE. R422, R424: a write of HST_MBX_CMD, whose command is decided `delay` root cycles later. -/
def execMbxCommandIssue (value : Nat) (delay : Nat) (s : State) : Out :=
  onActive true s (fun s => (s.setHeld .host none).mailbox value delay)

/-- PLAN_LOAD. R426: the plan load of a slot reads its image and writes its records. -/
def execPlanLoad (slot : Nat) (image : PlanFetch) (s : State) : Out :=
  onActive (Instr.planLoad slot image).wf s (fun s => s.planLoad slot image)

/-- PLAN_CHECK. R152, R153: the loaded plan is checked. -/
def execPlanCheck (s : State) : Out :=
  onActive true s State.planCheck

/-- PLAN_ACCEPT_DEGRADED. R151, R256: the command of a slot accepts a DEGRADED plan. -/
def execPlanAcceptDegraded (slot : Nat) (s : State) : Out :=
  onActive (Instr.planAcceptDegraded slot).wf s (fun s => s.planAcceptDegraded slot)

/-- PLAN_RETIRE. R154: the retire command of a slot. -/
def execPlanRetire (slot : Nat) (s : State) : Out :=
  onActive (Instr.planRetire slot).wf s (fun s => (s.planRetire slot).settleAll)

/-- PLAN_RETIRED. R151: every context of a RETIRING plan is IDLE. -/
def execPlanRetired (s : State) : Out :=
  onActive true s State.planRetired

/-- REMAP. R336: the remap command of a slot. -/
def execRemap (slot : Nat) (s : State) : Out :=
  onActive (Instr.remap slot).wf s (fun s => s.remap slot)

/-- MEMBER_REPLACE. R364, R429: the member-replace command of a slot: its decision, where it still waits for it. -/
def execMemberReplace (slot : Nat) (s : State) : Out :=
  onActive (Instr.memberReplace slot).wf s (fun s => s.replaceDecided slot)

/-- MEMBER_REPLACE_TIMEOUT. R429: TIMEOUT_MS has elapsed. -/
def execMemberReplaceTimeout (slot : Nat) (s : State) : Out :=
  onActive (Instr.memberReplaceTimeout slot).wf s (fun s => s.replaceTimeout slot)

/-- MEM_READ. R432: units of a MEM_READ are copied, and the next one may fail. -/
def execMemRead (slot : Nat) (units : Nat) (fail : Option MemFail) (s : State) : Out :=
  onActive (Instr.memRead slot units fail).wf s (fun s => s.memRead slot units fail)

/-- MEM_WRITE. R432: units of a MEM_WRITE are copied, and the next one may fail. -/
def execMemWrite (slot : Nat) (data : List (List Byte)) (fail : Option MemFail) (s : State) : Out :=
  onActive (Instr.memWrite slot data fail).wf s (fun s => s.memWrite slot data fail)

/-- ATTEST. R464: the attestation report is written; `dma`: a host memory access failed. -/
def execAttest (slot : Nat) (dma : Bool) (s : State) : Out :=
  onActive (Instr.attest slot dma).wf s (fun s => s.attest slot dma)

/-- IDENT_READ. R463: IDENT_READ. -/
def execIdentRead (slot : Nat) (dma : Bool) (s : State) : Out :=
  onActive (Instr.identRead slot dma).wf s (fun s => s.identRead slot dma)

/-- IMAGE_WRITE. R463: IMAGE_WRITE; `signed`: the signature read back verifies. -/
def execImageWrite (slot : Nat) (data : List Byte) (signed : Bool) (s : State) : Out :=
  onActive (Instr.imageWrite slot data signed).wf s (fun s => s.imageWrite slot data signed)

/-- SVN_COMMIT. R463: SVN_COMMIT. -/
def execSvnCommit (slot : Nat) (s : State) : Out :=
  onActive (Instr.svnCommit slot).wf s (fun s => s.svnCommit slot)

/-- DEBUG_TOKEN_SET. R463: DEBUG_TOKEN_SET. -/
def execDebugTokenSet (slot : Nat) (s : State) : Out :=
  onActive (Instr.debugTokenSet slot).wf s (fun s => s.tokenSet slot)

/-- MBX_ABORT. R430: the ABORT command, of the operation in a slot. -/
def execMbxAbort (slot : Nat) (tag : Nat) (s : State) : Out :=
  onActive (Instr.mbxAbort slot tag).wf s (fun s =>
    (s.setHeld .host none).mailbox (2 ^ 63 + tag % 256 * 2 ^ 40 + oAbort * 2 ^ 32 + slot % 8) 0)

/-- LONG_OPERATION_END. R431: an operation that no other command ends; `failure`: its status code and HST_OP_DETAIL. -/
def execLongOperationEnd (slot : Nat) (failure : Option (Nat × Nat)) (s : State) : Out :=
  onActive (Instr.longOperationEnd slot failure).wf s (fun s => s.longEnd slot failure)

/-- HOST_LINK_DOWN. R420: the host link leaves its up state, or the function is reset. -/
def execHostLinkDown (flr : Bool) (s : State) : Out :=
  onPowered true s (fun s => s.hostLinkDown flr)

end Sys2Proof.Machine
end

