-- ==== Sys2Proof/Machine/MemoryCmds.lean ====
section
/-!
DEFINITION. Memory channels and links (R406 to R421): one meaning per command.
-/

namespace Sys2Proof.Machine

/-- GDDR_CRC_RETRY. R407: a transfer is retried; `corrected`: errors the device reported corrected; `lost`: the
address of a read whose fourth retry failed. -/
def execGddrCrcRetry (ch : Nat) (retries : Nat) (corrected : Nat) (lost : Option Nat) (s : State) : Out :=
  onPowered (Instr.gddrCrcRetry ch retries corrected lost).wf s (fun s =>
    (s.incCorr F.MEM_CH_ECC_CORR corrected ch).crcRetry ch retries lost)

/-- GDDR_CHANNEL_FAIL. R409: a channel fails while running. -/
def execGddrChannelFail (ch : Nat) (s : State) : Out :=
  onPowered (Instr.gddrChannelFail ch).wf s (fun s => s.channelFail ch)

/-- CXL_LINK_DOWN. R416: a CXL memory link leaves its up state. -/
def execCxlLinkDown (i : Nat) (s : State) : Out :=
  onPowered (Instr.cxlLinkDown i).wf s (fun s => s.cxlDown i)

/-- CXL_LINK_UP. R414, R416: a CXL memory link comes up, with its expander's capacity in GiB. -/
def execCxlLinkUp (i : Nat) (speed : Nat) (width : Nat) (capacity : Nat) (s : State) : Out :=
  onPowered (Instr.cxlLinkUp i speed width capacity).wf s (fun s => s.cxlUpNow i speed width capacity)

/-- HOST_LINK_UP. R420: the host link comes up. -/
def execHostLinkUp (speed : Nat) (width : Nat) (s : State) : Out :=
  onPowered (Instr.hostLinkUp speed width).wf s (fun s => s.hostUp speed width)

end Sys2Proof.Machine
end

