-- ==== Sys2Proof/Machine/MgtCmds.lean ====
section
/-!
DEFINITION. The management port (R466 to R475): one meaning per command.
-/

namespace Sys2Proof.Machine

/-- MGT_READ. R471: a READ request of a station. -/
def execMgtRead (src : Nat) (seq : Nat) (addr : Nat) (count : Nat) (timeout : Bool) (s : State) : Out :=
  onPowered (Instr.mgtRead src seq addr count timeout).wf s (fun s => s.mgtReadOp src seq addr count timeout)

/-- MGT_WRITE. R471: a WRITE request of a station. -/
def execMgtWrite (src : Nat) (seq : Nat) (addr : Nat) (count : Nat) (value : Nat) (timeout : Bool) (s : State) : Out :=
  onPowered (Instr.mgtWrite src seq addr count value timeout).wf s (fun s =>
    s.mgtWriteOp src seq addr count value timeout)

/-- MGT_RESET. R450, R471, R475: a RESET request of a station. -/
def execMgtReset (src : Nat) (seq : Nat) (s : State) : Out :=
  onPowered (Instr.mgtReset src seq).wf s (fun s => s.mgtResetOp src seq)

/-- DEBUG_OPEN. R466, R467: a DEBUG_OPEN request of a station; `locking`: LOCK = 1 is written in the same cycle. -/
def execDebugOpen (src : Nat) (seq : Nat) (token : List Byte) (locking : Bool) (fail : Option EraseFail) (s : State) : Out :=
  onPowered (Instr.debugOpen src seq token locking fail).wf s (fun s => s.mgtDebugOp src seq token locking fail)

/-- MGT_FRAME_IGNORED. R470: a management frame that is not executed. -/
def execMgtFrameIgnored (cause : MgtIgnored) (s : State) : Out :=
  onPowered true s (fun s => s.mgtIgnore cause)

/-- MGT_DUPLICATE. R472: a request with the SEQ of the peer's previous one. -/
def execMgtDuplicate (src : Nat) (seq : Nat) (s : State) : Out :=
  onPowered (Instr.mgtDuplicate src seq).wf s (fun s => s.mgtDuplicate src seq)

end Sys2Proof.Machine
end

