-- ==== Sys2Proof/Machine/OperationCmds.lean ====
section
/-!
DEFINITION. Descriptors, swatches and exchange (R142 to R211): one meaning per command.
-/

namespace Sys2Proof.Machine

/-- DESCRIPTOR_ARRIVAL. R145, R154, R166: the descriptor at the head is decided. -/
def execDescriptorArrival (s : State) : Out :=
  onActive true s State.descriptorArrival

/-- SWATCH_ACCEPT. R166, R167: the released swatch at the head is decided. -/
def execSwatchAccept (s : State) : Out :=
  onActive true s State.swatchAccept

/-- PROGRESS_TIMEOUT. R157: the progress timer has reached its limit. -/
def execProgressTimeout (x : Nat) (s : State) : Out :=
  onActive (Instr.progressTimeout x).wf s (fun s => s.progressTimeout x)

/-- ABORT_SWATCH. R174: the released ABORT swatch at the head. -/
def execAbortSwatch (s : State) : Out :=
  onActive true s State.abortSwatch

/-- EXCHANGE_PLACEMENT. R205, R211: rows are placed and drop reports sent. -/
def execExchangePlacement (x : Nat) (s : State) : Out :=
  onActive (Instr.exchangePlacement x).wf s (fun s => (s.exchangePlacement x).settleAll)

/-- EXCHANGE_SWATCH_ASSEMBLE. R210: an output swatch is assembled. -/
def execExchangeSwatchAssemble (x : Nat) (d : Nat) (k : Nat) (s : State) : Out :=
  onActive (Instr.exchangeSwatchAssemble x d k).wf s (fun s => (s.exchangeAssemble x d k).settleAll)

end Sys2Proof.Machine
end

