-- ==== Sys2Proof/Machine/OwnRegisterCmds.lean ====
section
/-!
DEFINITION. Writes of registers that do more than set a value (R19, R155, R218, R220, R254, R283, R291, R295, R299,
R303, R312, R327, R379, R383, R388, R393 to R396, R404): one meaning per command.
-/

namespace Sys2Proof.Machine

/-- HOST_ABORT. R155: a write of OPC_ABORT. -/
def execHostAbort (value : Nat) (s : State) : Out :=
  onPowered true s (fun s => s.regWrite .OPC_ABORT 0 0 value)

/-- FENCE_WRITE. R218: a host write of INS_FENCE(i). -/
def execFenceWrite (i : Nat) (value : Nat) (s : State) : Out :=
  onPowered (Instr.fenceWrite i value).wf s (fun s => s.regWrite .INS_FENCE i 0 value)

/-- QUEUE_PURGE. R220: one pointer of a fenced port is purged. -/
def execQueuePurge (p : Nat) (s : State) : Out :=
  onActive (Instr.queuePurge p).wf s (fun s => (if s.sched.purging.contains p && s.purges p then (s.mark (.purged p)).purgeOne p else s).settleAll)

/-- LIVE_CHANGE_GO. R254: a write of SCH_CHG. -/
def execLiveChangeGo (value : Nat) (s : State) : Out :=
  onPowered true s (fun s => s.regWrite .SCH_CHG 0 0 value)

/-- LIVE_CHANGE_DRAINED. R254: DRAINING to SWITCHING. -/
def execLiveChangeDrained (s : State) : Out :=
  onActive true s State.changeSwitching

/-- LIVE_CHANGE_TIMEOUT. R254: DRAINING to FAILED. -/
def execLiveChangeTimeout (s : State) : Out :=
  onActive true s (fun s => (s.changeTimeout).settleAll)

/-- SHAPER_CFG_WRITE. R283: a write of SHP_SHAPE_CFG(p, v). -/
def execShaperCfgWrite (p : Nat) (v : Nat) (value : Nat) (s : State) : Out :=
  onPowered (Instr.shaperCfgWrite p v value).wf s (fun s => s.regWrite .SHP_SHAPE_CFG p v value)

/-- POLICER_CFG_WRITE. R283: a write of SHP_POL_CFG(p, v). -/
def execPolicerCfgWrite (p : Nat) (v : Nat) (value : Nat) (s : State) : Out :=
  onPowered (Instr.policerCfgWrite p v value).wf s (fun s => s.regWrite .SHP_POL_CFG p v value)

/-- MIRROR_CFG_WRITE. R291: a write of SHP_MIR_CFG(m). -/
def execMirrorCfgWrite (m : Nat) (value : Nat) (s : State) : Out :=
  onPowered (Instr.mirrorCfgWrite m value).wf s (fun s => s.regWrite .SHP_MIR_CFG m 0 value)

/-- PRBS_GENERATOR_SELECT. R312: a write of PRT_TEST(p) that selects a generator. -/
def execPrbsGeneratorSelect (p : Nat) (value : Nat) (s : State) : Out :=
  onPowered (Instr.prbsGeneratorSelect p value).wf s (fun s => s.regWrite .PRT_TEST p 0 value)

/-- PRBS_CHECKER_SELECT. R312, R313: a write of PRT_TEST(p) that selects a checker. -/
def execPrbsCheckerSelect (p : Nat) (value : Nat) (s : State) : Out :=
  onPowered (Instr.prbsCheckerSelect p value).wf s (fun s => s.regWrite .PRT_TEST p 0 value)

/-- LOOPBACK_SELECT. R312, R314: a write of PRT_TEST(p) that selects a loopback. -/
def execLoopbackSelect (p : Nat) (value : Nat) (s : State) : Out :=
  onPowered (Instr.loopbackSelect p value).wf s (fun s => s.regWrite .PRT_TEST p 0 value)

/-- TEST_END. R312: a write of PRT_TEST(p) = 0. -/
def execTestEnd (p : Nat) (s : State) : Out :=
  onPowered (Instr.testEnd p).wf s (fun s => s.regWrite .PRT_TEST p 0 0)

/-- PORT_ENABLE_WRITE. R303: a write of PRT_LINK_CFG(p) that sets or clears ENABLE. -/
def execPortEnableWrite (p : Nat) (value : Nat) (s : State) : Out :=
  onPowered (Instr.portEnableWrite p value).wf s (fun s => s.regWrite .PRT_LINK_CFG p 0 value)

/-- RATE_CHANGE. R299: a write of PRT_LINK_CFG(p) that changes RATE. -/
def execRateChange (p : Nat) (value : Nat) (s : State) : Out :=
  onPowered (Instr.rateChange p value).wf s (fun s => s.regWrite .PRT_LINK_CFG p 0 value)

/-- LASER_ENABLE_WRITE. R295: a write of PRT_LSM_CTL(e). -/
def execLaserEnableWrite (e : Nat) (value : Nat) (s : State) : Out :=
  onPowered (Instr.laserEnableWrite e value).wf s (fun s => s.regWrite .PRT_LSM_CTL e 0 value)

/-- TIME_NOW_WRITE. R327: a write of PRT_TIME_NOW. -/
def execTimeNowWrite (ns : Nat) (s : State) : Out :=
  onPowered true s (fun s => s.regWrite .PRT_TIME_NOW 0 0 ns)

/-- FAULT_CLEAR. R19, R394, R395: the host writes 1 to FLT_SRC_STAT(s).PENDING; `raised`: a raise of s is decided in
the same cycle. -/
def execFaultClear (src : Nat) (raised : Bool) (s : State) : Out :=
  onActive (Instr.faultClear src raised).wf s (fun s =>
    let s := s.setHeld .host none
    if faultSources.contains src then s.clearPending src raised else s)

/-- MGT_FAULT_CLEAR. R394, R395: a write of FLT_MGT with CLEAR = 1, SOURCE and the FORCE bit. -/
def execMgtFaultClear (src : Nat) (force : Bool) (raised : Bool) (s : State) : Out :=
  onActive (Instr.mgtFaultClear src force raised).wf s (fun s => s.mgtClear src force raised)

/-- FAULT_PIN_FORCE. R393: a write of FLT_MGT.FORCE. -/
def execFaultPinForce (force : Bool) (s : State) : Out :=
  onPowered true s (fun s => s.regWrite .FLT_MGT 0 0 (b2n force * 2 ^ 31))

/-- FAULT_INJECT. R379: a write of FLT_INJECT with GO = 1. -/
def execFaultInject (src : Nat) (s : State) : Out :=
  onPowered (Instr.faultInject src).wf s (fun s => s.regWrite .FLT_INJECT 0 0 (2 ^ 31 + src % 128))

/-- SAFE_STATE_SELF_TEST. R388: a write of FLT_INJECT with SELF_TEST = 1. -/
def execSafeStateSelfTest (s : State) : Out :=
  onPowered true s (fun s => s.regWrite .FLT_INJECT 0 0 (2 ^ 30))

/-- FAULT_CFG_WRITE. R383: a write of FLT_SRC_CFG(s). -/
def execFaultCfgWrite (src : Nat) (value : Nat) (s : State) : Out :=
  onPowered (Instr.faultCfgWrite src value).wf s (fun s => s.regWrite .FLT_SRC_CFG src 0 value)

/-- SOFTWARE_TRIGGER. R396: a write of EVR_TRIGGER with GO = 1. -/
def execSoftwareTrigger (arg : Nat) (s : State) : Out :=
  onPowered true s (fun s => s.regWrite .EVR_TRIGGER 0 0 (2 ^ 63 + arg % 2 ^ 32))

/-- RING_RECORD_SELECT. R404: a write of EVR_RING_SEL. -/
def execRingRecordSelect (seq : Nat) (s : State) : Out :=
  onPowered true s (fun s => s.regWrite .EVR_RING_SEL 0 0 seq)

end Sys2Proof.Machine
end

