-- ==== Sys2Proof/Machine/PowerCmds.lean ====
section
/-!
DEFINITION. Power, clocks, temperature and reset (R435 to R450): one meaning per command.
-/

namespace Sys2Proof.Machine

/-- DOMAIN_OFF_WRITE. R440, R475: a write of PWR_HOST_OFF(i) or PWR_MGT_OFF(i). -/
def execDomainOffWrite (host : Bool) (i : Nat) (value : Nat) (s : State) : Out :=
  onPowered (Instr.domainOffWrite host i value).wf s (fun s =>
    s.regWrite (if host then .PWR_HOST_OFF else .PWR_MGT_OFF) i 0 value)

/-- DOMAIN_POWER_OFF. R441, R442: domain d goes off. -/
def execDomainPowerOff (d : Nat) (s : State) : Out :=
  onPowered (Instr.domainPowerOff d).wf s (fun s => (s.domainOff d).settleAll)

/-- DOMAIN_POWER_ON. R442: the next domain is switched on. -/
def execDomainPowerOn (s : State) : Out :=
  onPowered true s State.domainOnNext

/-- PWR_GOOD_RISE. R436, R448: PWR_GOOD rises, with the input in 10 mV. -/
def execPwrGoodRise (volts : Nat) (s : State) : Out :=
  onAlways true s (fun s => s.powerGoodRise volts)

/-- PWR_GOOD_FALL. R449: PWR_GOOD falls. -/
def execPwrGoodFall (s : State) : Out :=
  onAlways true s State.powerGoodFall

/-- INPUT_SHUTDOWN. R436: the input has been out of range for 20 µs. -/
def execInputShutdown (s : State) : Out :=
  onAlways true s State.inputShutdown

/-- INPUT_SAMPLE. R437: the input is measured. -/
def execInputSample (volts : Nat) (amps : Nat) (s : State) : Out :=
  onPowered (Instr.inputSample volts amps).wf s (fun s => s.inputSample volts amps)

/-- RAIL_FAULT. R448: a rail has been out of range for 10 µs. -/
def execRailFault (stop : Nat) (rail : Nat) (s : State) : Out :=
  onPowered (Instr.railFault stop rail).wf s (fun s => s.railFault stop rail)

/-- RESET_N. R450: RESET_N has been low for 1 µs. -/
def execResetN (s : State) : Out :=
  onAlways true s State.resetLow

/-- THERMAL_SAMPLE. R443, R444: the 40 sensors are read. -/
def execThermalSample (temps : List Nat) (s : State) : Out :=
  onPowered (Instr.thermalSample temps).wf s (fun s => s.thermalSample temps)

/-- PLL_LOCK_CHANGE. R446: the root PLL gains or loses lock. -/
def execPllLockChange (locked : Bool) (s : State) : Out :=
  onPowered true s (fun s => s.pllLock locked)

/-- INPUT_START_THRESHOLD. R436: the waiting input reaches 39.0 V. -/
def execInputStartThreshold (s : State) : Out :=
  onAlways true s State.startThreshold

/-- RESET_N_RELEASE. R450, R465: RESET_N rises, with the board value of IDCODE. -/
def execResetNRelease (board : Nat) (s : State) : Out :=
  onAlways (Instr.resetNRelease board).wf s (fun s => s.resetRelease board)

/-- DOMAIN_POWERED. R442: a domain is powered 200 µs after its switch. -/
def execDomainPowered (d : Nat) (s : State) : Out :=
  onPowered (Instr.domainPowered d).wf s (fun s => s.domainPowered d)

end Sys2Proof.Machine
end

