-- ==== Sys2Proof/Machine/RecorderCmds.lean ====
section
/-!
DEFINITION. The event recorder (R396 to R404, R456): one meaning per command.
-/

namespace Sys2Proof.Machine

/-- RING_RECORD_READY. R404: the ring record has been copied into the window, or is missing. -/
def execRingRecordReady (s : State) : Out :=
  onPowered true s State.ringReady

/-- SNAPSHOT_START. R398: the next queued record is started. -/
def execSnapshotStart (s : State) : Out :=
  onPowered true s State.snapshotStart

/-- SNAPSHOT_READ_TIMEOUT. R398: the read of entry i is not answered. -/
def execSnapshotReadTimeout (i : Nat) (s : State) : Out :=
  onPowered (Instr.snapshotReadTimeout i).wf s (fun s => s.snapshotReadTimeout i)

/-- SNAPSHOT_COMPLETE. R398, R399: the record is complete. -/
def execSnapshotComplete (s : State) : Out :=
  onPowered true s State.snapshotComplete

/-- PERIODIC_TRIGGER. R396: the PERIODIC trigger. -/
def execPeriodicTrigger (s : State) : Out :=
  onPowered true s State.periodicTrigger

/-- RING_COPY_BATCH. R401, R402: 64 records are copied to the ring; SRAM words corrected, and uncorrectable ones as
slot and word. -/
def execRingCopyBatch (corrected : Nat) (bad : List (Nat × Nat)) (s : State) : Out :=
  onActive true s (fun s => s.ringCopyBatch corrected bad)

/-- OPERATING_SECOND. R400: an operating second elapses. -/
def execOperatingSecond (s : State) : Out :=
  onAlways true s State.operatingSecond

/-- PERSISTENCE_WRITE. R456: a persistence entry is written. -/
def execPersistenceWrite (s : State) : Out :=
  onPowered true s State.persistenceWrite

end Sys2Proof.Machine
end

