-- ==== Sys2Proof/Machine/RegisterCmds.lean ====
section
/-!
DEFINITION. Accesses of the port classes to registers (R10 to R23, R43, R481, R484): one meaning per command.
-/

namespace Sys2Proof.Machine

/-- REGISTER_WRITE. R10 to R23, R43, R481: a write of 32 or 64 bits, from a port class. -/
def execRegisterWrite (cls : PortClass) (addr : Nat) (width : Nat) (value : Nat) (s : State) : Out :=
  onPowered (Instr.registerWrite cls addr width value).wf s (fun s => s.busWrite cls addr width value)

/-- RC_REGISTER_READ. R10, R16, R18, R20, R21: a read of 32 or 64 bits; RC fields are returned and cleared. -/
def execRcRegisterRead (cls : PortClass) (addr : Nat) (width : Nat) (s : State) : Out :=
  onPowered (Instr.rcRegisterRead cls addr width).wf s (fun s => s.busRead cls addr width)

/-- LOW_WORD_READ. R11: a 32-bit read of a low word latches the high word for the class. -/
def execLowWordRead (cls : PortClass) (addr : Nat) (s : State) : Out :=
  onPowered (Instr.lowWordRead cls addr).wf s (fun s => s.busRead cls addr 32)

/-- HIGH_WORD_READ. R11: a 32-bit read of a high word returns the latch, or the present word. -/
def execHighWordRead (cls : PortClass) (addr : Nat) (s : State) : Out :=
  onPowered (Instr.highWordRead cls addr).wf s (fun s => s.busRead cls addr 32)

/-- LOW_WORD_WRITE. R12, R17: a 32-bit write of a low word is held for the class. -/
def execLowWordWrite (cls : PortClass) (addr : Nat) (value : Nat) (s : State) : Out :=
  onPowered (Instr.lowWordWrite cls addr value).wf s (fun s => s.busWrite cls addr 32 value)

/-- HIGH_WORD_WRITE. R12: a 32-bit write of a high word applies both words, or the high word alone. -/
def execHighWordWrite (cls : PortClass) (addr : Nat) (value : Nat) (s : State) : Out :=
  onPowered (Instr.highWordWrite cls addr value).wf s (fun s => s.busWrite cls addr 32 value)

/-- SPLIT_64_BIT_ACCESS. R484: a 64-bit access; without a value it is a read. Where its address is not the base of one
64-bit register it acts as two. -/
def execSplit64BitAccess (cls : PortClass) (addr : Nat) (value : Option Nat) (s : State) : Out :=
  onPowered (Instr.split64BitAccess cls addr value).wf s (fun s =>
    match value with | none => s.busRead cls addr 64 | some v => s.busWrite cls addr 64 v)

end Sys2Proof.Machine
end

