-- ==== Sys2Proof/Machine/RingCmds.lean ====
section
/-!
DEFINITION. The lacing ring (R49 to R55): one meaning per command.
-/

namespace Sys2Proof.Machine

/-- RING_PACKET_ARRIVE. R50 to R53: a packet reaches a stop; `full`: the ejection queue there is full. -/
def execRingPacketArrive (ring : Ring) (stop : Nat) (packet : RingPacket) (full : Bool) (s : State) : Out :=
  onPowered (Instr.ringPacketArrive ring stop packet full).wf s (fun s => s.packetArrive ring stop packet full)

/-- RING_LINK_FAIL. R55: the link leaving a stop fails, with the fault messages (die, sequence number) and packets
committed to it. -/
def execRingLinkFail (ring : Ring) (stop : Nat) (msgs : List (Nat × Nat)) (packets : List RingPacket) (s : State) : Out :=
  onPowered (Instr.ringLinkFail ring stop msgs packets).wf s (fun s => s.ringFail ring stop msgs packets)

/-- RING_ACCESS_TIMEOUT. R55, R421: a host access is lost. -/
def execRingAccessTimeout (addr : Nat) (write : Bool) (s : State) : Out :=
  onPowered (Instr.ringAccessTimeout addr write).wf s (fun s => s.accessLost addr write)

/-- RING_LINK_RESTORE. R51, R378: a link comes back. -/
def execRingLinkRestore (ring : Ring) (stop : Nat) (s : State) : Out :=
  onPowered (Instr.ringLinkRestore ring stop).wf s (fun s => s.ringRestore ring stop)

end Sys2Proof.Machine
end

