-- ==== Sys2Proof/Machine/SporeCmds.lean ====
section
/-!
DEFINITION. Spore sets and recovery (R339 to R372): one meaning per command.
-/

namespace Sys2Proof.Machine

/-- EPOCH_CUT_END. R349: the cut ends. -/
def execEpochCutEnd (t : Nat) (s : State) : Out :=
  onActive (Instr.epochCutEnd t).wf s (fun s => (s.cutEnd t).settleAll)

/-- EPOCH_CUT_TIMEOUT. R350: CUT_MS has elapsed. -/
def execEpochCutTimeout (t : Nat) (s : State) : Out :=
  onActive (Instr.epochCutTimeout t).wf s (fun s => (s.cutTimeout t).settleAll)

/-- EPOCH_SECURED. R354, R410: the drain is complete; `bad`: a word uncorrectable twice. -/
def execEpochSecured (t : Nat) (bad : Option Nat) (s : State) : Out :=
  onActive (Instr.epochSecured t bad).wf s (fun s => (s.epochSecured t bad).settleAll)

/-- EPOCH_CLOSE. R355: a committed epoch closes. -/
def execEpochClose (t : Nat) (s : State) : Out :=
  onActive (Instr.epochClose t).wf s (fun s => (s.epochClose t).settleAll)

/-- TIER_WRITE_FAIL. R372: a tier write fails. -/
def execTierWriteFail (t : Nat) (i : Nat) (acked : Nat) (s : State) : Out :=
  onActive (Instr.tierWriteFail t i acked).wf s (fun s => s.tierWriteFail t i acked)

/-- LICHEN_UPDATE. R358, R359: the lichen scores. -/
def execLichenUpdate (s : State) : Out :=
  onActive true s State.lichenUpdate

/-- CADENCE_UPDATE. R360: the checkpoint interval. -/
def execCadenceUpdate (s : State) : Out :=
  onActive true s State.cadenceUpdate

/-- MEMBER_FAILED. R362, R363: the member of a port is declared failed. -/
def execMemberFailed (p : Nat) (s : State) : Out :=
  onActive (Instr.memberFailed p).wf s (fun s => (s.memberFailed p).settleAll)

/-- REGROWTH_START. R365: a group's regrowth opens. -/
def execRegrowthStart (t : Nat) (g : Nat) (s : State) : Out :=
  onActive (Instr.regrowthStart t g).wf s (fun s => (s.regrowthStart t g).settleAll)

/-- ROLLBACK. R368: a last is rolled back and resumes. -/
def execRollback (t : Nat) (gddrBad : Option Nat) (s : State) : Out :=
  onActive (Instr.rollback t gddrBad).wf s (fun s => (s.rollback t gddrBad).settleAll)

/-- RESTORE_START. R369: a restore opens, or groups become LOST. -/
def execRestoreStart (t : Nat) (s : State) : Out :=
  onActive (Instr.restoreStart t).wf s (fun s => (s.restoreStart t).settleAll)

/-- SHARD_READ_COMPLETE. R369, R416: a member's shard has been read; `poison`: the port that returned poison. -/
def execShardReadComplete (t : Nat) (g : Nat) (i : Nat) (poison : Option Nat) (s : State) : Out :=
  onActive (Instr.shardReadComplete t g i poison).wf s (fun s => (s.shardRead t g i poison).settleAll)

end Sys2Proof.Machine
end

