-- ==== Sys2Proof/Machine/SwitchCmds.lean ====
section
/-!
DEFINITION. Scheduled switching, matching and buffers (R222 to R291): one meaning per command.
-/

namespace Sys2Proof.Machine

/-- ROUND_START. R223, R224, R254, R256: a round starts; in the safe state rounds go on alone (R485). -/
def execRoundStart (s : State) : Out :=
  onPowered true s (fun s => if s.isSafe then s.roundStartOp else s.roundStartAll)

/-- SCHED_FRAME_START. R231, R240: a scheduled frame starts; `bad`: an uncorrectable cell of it. -/
def execSchedFrameStart (p : Nat) (bad : Option Nat) (s : State) : Out :=
  onActive (Instr.schedFrameStart p bad).wf s (fun s => s.schedFrame p bad)

/-- OPP_FRAME_START. R282: an opportunistic frame starts. -/
def execOppFrameStart (p : Nat) (s : State) : Out :=
  onActive (Instr.oppFrameStart p).wf s (fun s => s.oppStart p)

/-- TOKEN_REFILL. R280, R283: a port die refills its buckets. -/
def execTokenRefill (die : Nat) (s : State) : Out :=
  onActive (Instr.tokenRefill die).wf s (fun s => s.refillDie die)

/-- FRAME_DEPARTURE. R217, R289: the frame being sent has left. -/
def execFrameDeparture (p : Nat) (s : State) : Out :=
  onActive (Instr.frameDeparture p).wf s (fun s => (s.departOp p).settleAll)

/-- INGRESS_LANDING. R235, R236: a received frame lands. -/
def execIngressLanding (p : Nat) (s : State) : Out :=
  onActive (Instr.ingressLanding p).wf s (fun s => s.landOp p)

/-- SWATCH_POINTER_HANDOFF. R246: a pointer reaches the resequencer's port die. -/
def execSwatchPointerHandoff (s : State) : Out :=
  onActive true s State.handoff

/-- RESEQUENCE. R247, R248: the swatch at a resequencer. -/
def execResequence (die : Nat) (s : State) : Out :=
  onActive (Instr.resequence die).wf s (fun s => s.resequence die)

/-- HELD_SWATCH_RELEASE. R247: a held swatch follows NEXT. -/
def execHeldSwatchRelease (die : Nat) (s : State) : Out :=
  onActive (Instr.heldSwatchRelease die).wf s (fun s => s.releaseHeld die)

/-- MATCH_ROUND. R241, R242, R245: one cell time is matched. -/
def execMatchRound (s : State) : Out :=
  onActive true s State.matchRound

/-- OPP_CELLS_READ. R240, R242: the last cell of a matched frame is read; `bad`: an uncorrectable cell. -/
def execOppCellsRead (p : Nat) (bad : Option Nat) (s : State) : Out :=
  onActive (Instr.oppCellsRead p bad).wf s (fun s => (s.oppCells p bad).settleAll)

/-- INSOLE_SCRUB. R238, R240: what a bank's scrub finds. -/
def execInsoleScrub (corrected : Nat) (bad : Option Nat) (s : State) : Out :=
  onActive true s (fun s => (s.scrub corrected bad).settleAll)

/-- BUFFER_ALLOC. R266, R271, R273: the k-th allocation request is decided. `corrected`: tags corrected as they are
read; `lost`: a cell whose tag reads with an uncorrectable error, `stuck`: it still does after a rewrite. -/
def execBufferAlloc (k : Nat) (corrected : Nat) (lost : Option Nat) (stuck : Bool) (s : State) : Out :=
  onActive true s (fun s => ((s.tagErrors corrected lost stuck).allocServe k).settleAll)

/-- ALLOC_WAIT_EXPIRY. R267: the k-th request has waited ALLOC_WAIT cycles. -/
def execAllocWaitExpiry (k : Nat) (s : State) : Out :=
  onActive true s (fun s => (s.allocExpire k).settleAll)

/-- BUFFER_FREE. R273: a free is checked. `corrected`, `lost`, `stuck`: as in BUFFER_ALLOC. -/
def execBufferFree (ptr : Nat) (account : Nat) (requester : Nat) (corrected : Nat) (lost : Option Nat) (stuck : Bool) (s : State) : Out :=
  onActive (Instr.bufferFree ptr account requester corrected lost stuck).wf s (fun s =>
    (s.tagErrors corrected lost stuck).freeObj ptr account requester)

/-- MIRROR_FENCE_DISCARD. R291: a copy waiting for a fenced analysis port is discarded. -/
def execMirrorFenceDiscard (p : Nat) (s : State) : Out :=
  onActive (Instr.mirrorFenceDiscard p).wf s (fun s => s.mirrorPurge p)

end Sys2Proof.Machine
end

