-- ==== Sys2Proof/Machine/TimeCmds.lean ====
section
/-!
DEFINITION. Time transfer and discovery (R323 to R338): one meaning per command.
-/

namespace Sys2Proof.Machine

/-- TIME_BLOCK. R324 to R327: a TIME block is processed; `rx`: when its slot came. -/
def execTimeBlock (p : Nat) (rx : Nat) (s : State) : Out :=
  onActive (Instr.timeBlock p rx).wf s (fun s => s.timeBlock p rx)

/-- SYNC_SEND. R325: a master port sends Sync. -/
def execSyncSend (p : Nat) (s : State) : Out :=
  onActive (Instr.syncSend p).wf s (fun s => s.syncSend p)

/-- PDELAY_REQ_SEND. R325: a port sends Pdelay_Req. -/
def execPdelayReqSend (p : Nat) (s : State) : Out :=
  onActive (Instr.pdelayReqSend p).wf s (fun s => s.pdelaySend p)

/-- SYNC_LOSS_TIMEOUT. R326: Sync intervals have passed without a Sync. -/
def execSyncLossTimeout (s : State) : Out :=
  onPowered true s State.syncLoss

/-- IDENT_SEND. R329: a port sends its identity block. -/
def execIdentSend (p : Nat) (s : State) : Out :=
  onActive (Instr.identSend p).wf s (fun s => s.identSend p)

/-- IDENT_BLOCK. R329 to R333: an IDENT block is processed. -/
def execIdentBlock (p : Nat) (s : State) : Out :=
  onActive (Instr.identBlock p).wf s (fun s => s.identBlock p)

/-- NEGOTIATION_TIMEOUT. R333: 10 ms have passed without negotiation. -/
def execNegotiationTimeout (p : Nat) (s : State) : Out :=
  onActive (Instr.negotiationTimeout p).wf s (fun s => s.negotiationTimeout p)

end Sys2Proof.Machine
end

