-- ==== Sys2Proof/Machine/Dispatch.lean ====
section
/-!
DEFINITION. The dispatch of commands to their meanings.
-/

namespace Sys2Proof.Machine

def exec (i : Instr) (s : State) : Host.Outcome State Fault Refusal :=
  match i with
  | .registerWrite cls addr width value => Sys2Proof.Machine.execRegisterWrite cls addr width value s
  | .rcRegisterRead cls addr width => Sys2Proof.Machine.execRcRegisterRead cls addr width s
  | .lowWordRead cls addr => Sys2Proof.Machine.execLowWordRead cls addr s
  | .highWordRead cls addr => Sys2Proof.Machine.execHighWordRead cls addr s
  | .lowWordWrite cls addr value => Sys2Proof.Machine.execLowWordWrite cls addr value s
  | .highWordWrite cls addr value => Sys2Proof.Machine.execHighWordWrite cls addr value s
  | .split64BitAccess cls addr value => Sys2Proof.Machine.execSplit64BitAccess cls addr value s
  | .ringPacketArrive ring stop packet full => Sys2Proof.Machine.execRingPacketArrive ring stop packet full s
  | .ringLinkFail ring stop msgs packets => Sys2Proof.Machine.execRingLinkFail ring stop msgs packets s
  | .ringAccessTimeout addr write => Sys2Proof.Machine.execRingAccessTimeout addr write s
  | .hostAbort value => Sys2Proof.Machine.execHostAbort value s
  | .fenceWrite k value => Sys2Proof.Machine.execFenceWrite k value s
  | .queuePurge p => Sys2Proof.Machine.execQueuePurge p s
  | .liveChangeGo value => Sys2Proof.Machine.execLiveChangeGo value s
  | .liveChangeDrained => Sys2Proof.Machine.execLiveChangeDrained s
  | .liveChangeTimeout => Sys2Proof.Machine.execLiveChangeTimeout s
  | .shaperCfgWrite p v value => Sys2Proof.Machine.execShaperCfgWrite p v value s
  | .policerCfgWrite p v value => Sys2Proof.Machine.execPolicerCfgWrite p v value s
  | .mirrorCfgWrite m value => Sys2Proof.Machine.execMirrorCfgWrite m value s
  | .prbsGeneratorSelect p value => Sys2Proof.Machine.execPrbsGeneratorSelect p value s
  | .prbsCheckerSelect p value => Sys2Proof.Machine.execPrbsCheckerSelect p value s
  | .loopbackSelect p value => Sys2Proof.Machine.execLoopbackSelect p value s
  | .testEnd p => Sys2Proof.Machine.execTestEnd p s
  | .portEnableWrite p value => Sys2Proof.Machine.execPortEnableWrite p value s
  | .rateChange p value => Sys2Proof.Machine.execRateChange p value s
  | .laserEnableWrite e value => Sys2Proof.Machine.execLaserEnableWrite e value s
  | .timeNowWrite ns => Sys2Proof.Machine.execTimeNowWrite ns s
  | .faultClear src raised => Sys2Proof.Machine.execFaultClear src raised s
  | .mgtFaultClear src force raised => Sys2Proof.Machine.execMgtFaultClear src force raised s
  | .faultPinForce force => Sys2Proof.Machine.execFaultPinForce force s
  | .faultInject src => Sys2Proof.Machine.execFaultInject src s
  | .safeStateSelfTest => Sys2Proof.Machine.execSafeStateSelfTest s
  | .faultCfgWrite src value => Sys2Proof.Machine.execFaultCfgWrite src value s
  | .softwareTrigger arg => Sys2Proof.Machine.execSoftwareTrigger arg s
  | .ringRecordSelect seq => Sys2Proof.Machine.execRingRecordSelect seq s
  | .ringRecordReady => Sys2Proof.Machine.execRingRecordReady s
  | .domainOffWrite host k value => Sys2Proof.Machine.execDomainOffWrite host k value s
  | .domainPowerOff d => Sys2Proof.Machine.execDomainPowerOff d s
  | .domainPowerOn => Sys2Proof.Machine.execDomainPowerOn s
  | .mbxCommandIssue value undecided => Sys2Proof.Machine.execMbxCommandIssue value undecided s
  | .planLoad slot image => Sys2Proof.Machine.execPlanLoad slot image s
  | .planCheck => Sys2Proof.Machine.execPlanCheck s
  | .planAcceptDegraded slot => Sys2Proof.Machine.execPlanAcceptDegraded slot s
  | .planRetire slot => Sys2Proof.Machine.execPlanRetire slot s
  | .planRetired => Sys2Proof.Machine.execPlanRetired s
  | .remap slot => Sys2Proof.Machine.execRemap slot s
  | .memberReplace slot => Sys2Proof.Machine.execMemberReplace slot s
  | .memberReplaceTimeout slot => Sys2Proof.Machine.execMemberReplaceTimeout slot s
  | .memRead slot units fail => Sys2Proof.Machine.execMemRead slot units fail s
  | .memWrite slot data fail => Sys2Proof.Machine.execMemWrite slot data fail s
  | .attest slot dma => Sys2Proof.Machine.execAttest slot dma s
  | .identRead slot dma => Sys2Proof.Machine.execIdentRead slot dma s
  | .imageWrite slot data signed => Sys2Proof.Machine.execImageWrite slot data signed s
  | .svnCommit slot => Sys2Proof.Machine.execSvnCommit slot s
  | .debugTokenSet slot => Sys2Proof.Machine.execDebugTokenSet slot s
  | .mbxAbort slot tag => Sys2Proof.Machine.execMbxAbort slot tag s
  | .longOperationEnd slot failure => Sys2Proof.Machine.execLongOperationEnd slot failure s
  | .hostLinkDown flr => Sys2Proof.Machine.execHostLinkDown flr s
  | .mgtRead src seq addr count timeout => Sys2Proof.Machine.execMgtRead src seq addr count timeout s
  | .mgtWrite src seq addr count value timeout => Sys2Proof.Machine.execMgtWrite src seq addr count value timeout s
  | .mgtReset src seq => Sys2Proof.Machine.execMgtReset src seq s
  | .debugOpen src seq token locking fail => Sys2Proof.Machine.execDebugOpen src seq token locking fail s
  | .mgtFrameIgnored cause => Sys2Proof.Machine.execMgtFrameIgnored cause s
  | .mgtDuplicate src seq => Sys2Proof.Machine.execMgtDuplicate src seq s
  | .faultMessage ring => Sys2Proof.Machine.execFaultMessage ring s
  | .faultRaise => Sys2Proof.Machine.execFaultRaise s
  | .levelConditionChange src unit holds => Sys2Proof.Machine.execLevelConditionChange src unit holds s
  | .intHoldoffEnd v => Sys2Proof.Machine.execIntHoldoffEnd v s
  | .chipResetReaction => Sys2Proof.Machine.execChipResetReaction s
  | .faultNoticeRepeat => Sys2Proof.Machine.execFaultNoticeRepeat s
  | .mgtWatchdogExpiry => Sys2Proof.Machine.execMgtWatchdogExpiry s
  | .collectorSweep corrected bad => Sys2Proof.Machine.execCollectorSweep corrected bad s
  | .safeState cause word => Sys2Proof.Machine.execSafeState cause word s
  | .snapshotStart => Sys2Proof.Machine.execSnapshotStart s
  | .snapshotReadTimeout k => Sys2Proof.Machine.execSnapshotReadTimeout k s
  | .snapshotComplete => Sys2Proof.Machine.execSnapshotComplete s
  | .periodicTrigger => Sys2Proof.Machine.execPeriodicTrigger s
  | .ringCopyBatch corrected bad => Sys2Proof.Machine.execRingCopyBatch corrected bad s
  | .operatingSecond => Sys2Proof.Machine.execOperatingSecond s
  | .persistenceWrite => Sys2Proof.Machine.execPersistenceWrite s
  | .pwrGoodRise volts => Sys2Proof.Machine.execPwrGoodRise volts s
  | .pwrGoodFall => Sys2Proof.Machine.execPwrGoodFall s
  | .inputShutdown => Sys2Proof.Machine.execInputShutdown s
  | .inputSample volts amps => Sys2Proof.Machine.execInputSample volts amps s
  | .railFault stop rail => Sys2Proof.Machine.execRailFault stop rail s
  | .resetN => Sys2Proof.Machine.execResetN s
  | .thermalSample temps => Sys2Proof.Machine.execThermalSample temps s
  | .pllLockChange locked => Sys2Proof.Machine.execPllLockChange locked s
  | .bootRom => Sys2Proof.Machine.execBootRom s
  | .bootNvmRead jedec size retries => Sys2Proof.Machine.execBootNvmRead jedec size retries s
  | .bootVerify fwA fwB cfgA cfgB => Sys2Proof.Machine.execBootVerify fwA fwB cfgA cfgB s
  | .bootConfig marked clusters => Sys2Proof.Machine.execBootConfig marked clusters s
  | .bootMemory failed => Sys2Proof.Machine.execBootMemory failed s
  | .bootLinks => Sys2Proof.Machine.execBootLinks s
  | .bootFail code => Sys2Proof.Machine.execBootFail code s
  | .laserSample e presLow fltLow => Sys2Proof.Machine.execLaserSample e presLow fltLow s
  | .laserMonitorRead e temp bias power => Sys2Proof.Machine.execLaserMonitorRead e temp bias power s
  | .laneCommaBlock p k found => Sys2Proof.Machine.execLaneCommaBlock p k found s
  | .lossOfSignal p k => Sys2Proof.Machine.execLossOfSignal p k s
  | .codewordDecode p k word => Sys2Proof.Machine.execCodewordDecode p k word s
  | .laneDeskew p granted => Sys2Proof.Machine.execLaneDeskew p granted s
  | .portDown p => Sys2Proof.Machine.execPortDown p s
  | .dataBlock p header data uncorr => Sys2Proof.Machine.execDataBlock p header data uncorr s
  | .frameReceive p dst => Sys2Proof.Machine.execFrameReceive p dst s
  | .controlBlock p data uncorr => Sys2Proof.Machine.execControlBlock p data uncorr s
  | .flowBlock p => Sys2Proof.Machine.execFlowBlock p s
  | .xoffStateChange p => Sys2Proof.Machine.execXoffStateChange p s
  | .flowSend p => Sys2Proof.Machine.execFlowSend p s
  | .fcStall p v => Sys2Proof.Machine.execFcStall p v s
  | .fecTrendSecond => Sys2Proof.Machine.execFecTrendSecond s
  | .timeBlock p rx => Sys2Proof.Machine.execTimeBlock p rx s
  | .syncSend p => Sys2Proof.Machine.execSyncSend p s
  | .pdelayReqSend p => Sys2Proof.Machine.execPdelayReqSend p s
  | .syncLossTimeout => Sys2Proof.Machine.execSyncLossTimeout s
  | .identSend p => Sys2Proof.Machine.execIdentSend p s
  | .identBlock p => Sys2Proof.Machine.execIdentBlock p s
  | .negotiationTimeout p => Sys2Proof.Machine.execNegotiationTimeout p s
  | .roundStart => Sys2Proof.Machine.execRoundStart s
  | .schedFrameStart p bad => Sys2Proof.Machine.execSchedFrameStart p bad s
  | .oppFrameStart p => Sys2Proof.Machine.execOppFrameStart p s
  | .tokenRefill die => Sys2Proof.Machine.execTokenRefill die s
  | .frameDeparture p => Sys2Proof.Machine.execFrameDeparture p s
  | .ingressLanding p => Sys2Proof.Machine.execIngressLanding p s
  | .swatchPointerHandoff => Sys2Proof.Machine.execSwatchPointerHandoff s
  | .resequence die => Sys2Proof.Machine.execResequence die s
  | .heldSwatchRelease die => Sys2Proof.Machine.execHeldSwatchRelease die s
  | .matchRound => Sys2Proof.Machine.execMatchRound s
  | .oppCellsRead p bad => Sys2Proof.Machine.execOppCellsRead p bad s
  | .insoleScrub corrected bad => Sys2Proof.Machine.execInsoleScrub corrected bad s
  | .bufferAlloc k corrected lost stuck => Sys2Proof.Machine.execBufferAlloc k corrected lost stuck s
  | .allocWaitExpiry k => Sys2Proof.Machine.execAllocWaitExpiry k s
  | .bufferFree ptr account requester corrected lost stuck => Sys2Proof.Machine.execBufferFree ptr account requester corrected lost stuck s
  | .mirrorFenceDiscard p => Sys2Proof.Machine.execMirrorFenceDiscard p s
  | .descriptorArrival => Sys2Proof.Machine.execDescriptorArrival s
  | .swatchAccept => Sys2Proof.Machine.execSwatchAccept s
  | .progressTimeout x => Sys2Proof.Machine.execProgressTimeout x s
  | .abortSwatch => Sys2Proof.Machine.execAbortSwatch s
  | .admissionDecide k t => Sys2Proof.Machine.execAdmissionDecide k t s
  | .freezeDieStop t die => Sys2Proof.Machine.execFreezeDieStop t die s
  | .holdEnter t => Sys2Proof.Machine.execHoldEnter t s
  | .spineHoldReceive => Sys2Proof.Machine.execSpineHoldReceive s
  | .operandFetchRequest x n => Sys2Proof.Machine.execOperandFetchRequest x n s
  | .operandArrive x n r bad => Sys2Proof.Machine.execOperandArrive x n r bad s
  | .nodeIssue k => Sys2Proof.Machine.execNodeIssue k s
  | .checkVerdict k x opnum n node fail attempt corrected => Sys2Proof.Machine.execCheckVerdict k x opnum n node fail attempt corrected s
  | .chunkCommit x n => Sys2Proof.Machine.execChunkCommit x n s
  | .numRecordArrive x n bad => Sys2Proof.Machine.execNumRecordArrive x n bad s
  | .spareSelfTestStart => Sys2Proof.Machine.execSpareSelfTestStart s
  | .spareSelfTestEnd pass => Sys2Proof.Machine.execSpareSelfTestEnd pass s
  | .coreDieLoss die => Sys2Proof.Machine.execCoreDieLoss die s
  | .monitorInputsRead die => Sys2Proof.Machine.execMonitorInputsRead die s
  | .shadowCheckComplete die => Sys2Proof.Machine.execShadowCheckComplete die s
  | .spillFetchComplete x n q bad => Sys2Proof.Machine.execSpillFetchComplete x n q bad s
  | .spillWritebackComplete x n q => Sys2Proof.Machine.execSpillWritebackComplete x n q s
  | .exchangePlacement x => Sys2Proof.Machine.execExchangePlacement x s
  | .exchangeSwatchAssemble x d k => Sys2Proof.Machine.execExchangeSwatchAssemble x d k s
  | .epochCutEnd t => Sys2Proof.Machine.execEpochCutEnd t s
  | .epochCutTimeout t => Sys2Proof.Machine.execEpochCutTimeout t s
  | .epochSecured t bad => Sys2Proof.Machine.execEpochSecured t bad s
  | .epochClose t => Sys2Proof.Machine.execEpochClose t s
  | .tierWriteFail t k acked => Sys2Proof.Machine.execTierWriteFail t k acked s
  | .lichenUpdate => Sys2Proof.Machine.execLichenUpdate s
  | .cadenceUpdate => Sys2Proof.Machine.execCadenceUpdate s
  | .memberFailed p => Sys2Proof.Machine.execMemberFailed p s
  | .regrowthStart t g => Sys2Proof.Machine.execRegrowthStart t g s
  | .rollback t gddrBad => Sys2Proof.Machine.execRollback t gddrBad s
  | .restoreStart t => Sys2Proof.Machine.execRestoreStart t s
  | .gddrCrcRetry ch retries corrected lost => Sys2Proof.Machine.execGddrCrcRetry ch retries corrected lost s
  | .gddrChannelFail ch => Sys2Proof.Machine.execGddrChannelFail ch s
  | .cxlLinkDown k => Sys2Proof.Machine.execCxlLinkDown k s
  | .cxlLinkUp k speed width capacity => Sys2Proof.Machine.execCxlLinkUp k speed width capacity s
  | .hostLinkUp speed width => Sys2Proof.Machine.execHostLinkUp speed width s
  | .inputStartThreshold => Sys2Proof.Machine.execInputStartThreshold s
  | .resetNRelease board => Sys2Proof.Machine.execResetNRelease board s
  | .prbsCheckerLock p k levels => Sys2Proof.Machine.execPrbsCheckerLock p k levels s
  | .ringLinkRestore ring stop => Sys2Proof.Machine.execRingLinkRestore ring stop s
  | .domainPowered d => Sys2Proof.Machine.execDomainPowered d s
  | .shardReadComplete t g k poison => Sys2Proof.Machine.execShardReadComplete t g k poison s

end Sys2Proof.Machine
end

