-- ==== Sys2Proof/Safety.lean ====
section
/-!
DEFINITION. What a sound state is, and what a command may not touch: the terms in which the whole-machine claims are
stated. No command ends in a fault and none in a refusal, so every run is safe in that sense; what can go wrong is a
state that is not in canonical form, a command that moves time or the queue, or an output that is taken back.
-/

namespace Sys2Proof.Machine

/-- Every expander's bytes are in canonical form. -/
def cxlCanonical (m : SMap Memory) : Bool := m.entries.all (fun e => e.2.wf)

/-- The register file and the memories are in canonical form, so that states that read alike there are equal there. -/
def State.Canonical (s : State) : Prop :=
  s.regs.wf = true ∧ s.mem.gddr.wf = true ∧ cxlCanonical s.mem.cxl = true ∧ s.sec.nvm.wf = true

/-- From `s` to `t` a command may only go on: the canonical form is kept, no time passes, the waiting commands stay as
they are, what has left the block stays sent, and free values are used up in order. -/
structure Keeps (s t : State) : Prop where
  canonical : s.Canonical → t.Canonical
  now       : t.now = s.now
  pending   : t.pending = s.pending
  out       : s.out <+: t.out
  free      : s.freeCtr ≤ t.freeCtr

/-- The registers whose meaning gives a write more than the access codes of their fields, or some values of one no
effect (R209, R218, R253, R272, R285 and the rules of each): each has statements of its own. -/
def Reg.ownMeaning (r : Reg) : Bool :=
  [Reg.PWR_THERM_CFG, .PWR_HOST_OFF, .PWR_MGT_OFF, .SEC_DEBUG_LOCK, .FLT_SRC_STAT, .FLT_SRC_CFG, .FLT_MGT, .FLT_INJECT,
    .EVR_TRIGGER, .EVR_RING_SEL, .PRT_LINK_CFG, .PRT_FC_CFG, .PRT_TEST, .PRT_LSM_CTL, .PRT_TIME_NOW, .PRT_TIME_PORT,
    .PRT_TIME_CFG, .OPC_ABORT, .INS_FENCE, .SCH_WIN, .SCH_CHG, .SHP_SHAPE_CFG, .SHP_POL_CFG, .SHP_MIR_CFG,
    .LST_CFG, .LST_MEMBER, .CKP_LAST_CFG, .CKP_LICHEN_THR, .HST_MBX_CMD, .MSIX_CTRL].contains r

/-- R18, R19, R22: what a write of `v` to its register leaves in a field, by the field's access code, where the register
gives a write no more than that. -/
def State.afterWrite (s : State) (f : Fld) (i j v : Nat) : Nat :=
  let x := bits v f.hi f.lo
  match f.code i j with
  | .rw => if f.ignores x then s.rd f i j else x
  | .rwl => if s.rwlLocked || f.ignores x then s.rd f i j else x
  | .w1c => if x = 0 ∨ s.marked (.bit (f.key i j)) f.reg.cycle = true then s.rd f i j else 0
  | _ => s.rd f i j

/-- The parts of the state beside the register file. -/
inductive Part where
  | bus | ring | flt | evr | link | bpm | sched | shape | ctx | comp | spore | mem | host | pwr | boot | sec
  deriving DecidableEq, Repr

/-- Every part. -/
def Part.all : List Part :=
  [.bus, .ring, .flt, .evr, .link, .bpm, .sched, .shape, .ctx, .comp, .spore, .mem, .host, .pwr, .boot, .sec]

/-- A part of the state is the same in `s` and in `t`. -/
def Part.same (s t : State) : Part → Prop
  | .bus => t.bus = s.bus
  | .ring => t.ring = s.ring
  | .flt => t.flt = s.flt
  | .evr => t.evr = s.evr
  | .link => t.link = s.link
  | .bpm => t.bpm = s.bpm
  | .sched => t.sched = s.sched
  | .shape => t.shape = s.shape
  | .ctx => t.ctx = s.ctx
  | .comp => t.comp = s.comp
  | .spore => t.spore = s.spore
  | .mem => t.mem = s.mem
  | .host => t.host = s.host
  | .pwr => t.pwr = s.pwr
  | .boot => t.boot = s.boot
  | .sec => t.sec = s.sec

/-- From `s` to `t` no register but those of `rs` has changed in any field of any instance, and no part but `ps`. -/
structure TouchesOnly (rs : List Reg) (ps : List Part) (s t : State) : Prop where
  regs  : ∀ f i j, f.reg ∉ rs → t.rd f i j = s.rd f i j
  parts : ∀ p, p ∉ ps → p.same s t

/-- What waits for a new state may open, close and complete operations (R154 to R158): the registers that then change. -/
def settleRegs : List Reg := [.LST_OPS, .OPC_STATE, .OPC_EXPECT, .OPC_RECV, .OPC_BYTES, .OPC_DROPS, .OPC_OPS,
    .OPC_FAIL, .OPC_TAG, .OPC_UNDECL, .OPC_UNDECL_LAST, .OPC_REFUSED, .OPC_XCH_BAD, .CL_OCCUPANCY, .WLT_CTX,
    .WLT_SPILL_USED, .WLT_WELT_USED, .INS_GROUP_SCHED, .INS_GROUP_OPP, .BPM_POOL_FREE, .BPM_POOL_LOW, .BPM_HELD,
    .BPM_ERR, .BPM_ERR_COUNT, .BPM_ERR_LAST, .BPM_TAG_ECC, .BPM_DROPS, .INS_MC_STORES, .INS_MC_ENQUEUES,
    .SCH_EXACT_LOSS, .SCH_CHG_STAT, .SCH_RESEQ_STAT, .SHP_MIR_STAT, .SHP_MIR_DROP, .SHP_MIR_PEND, .NUM_WARM,
    .NUM_OPSEQ, .CKP_LAST_CFG, .CKP_LAST_STAT, .CKP_GROUP_STAT, .CKP_DRAIN, .CKP_EVENTS]

/-- The registers that change when a port leaves UP (R304, R333, R334). -/
def portDownRegs : List Reg := [.EVR_STAT, .PRT_LINK_STAT, .PRT_DISC, .PRT_FC_STAT, .PRT_CREDIT, .PRT_DISC_SUM,
    .PRT_DISC_GEN, .LST_STATE, .LST_MEMBER, .INS_GROUP_SCHED, .BPM_POOL_FREE, .BPM_POOL_LOW, .BPM_HELD, .BPM_ERR,
    .BPM_ERR_COUNT, .BPM_ERR_LAST, .BPM_TAG_ECC, .INS_FENCE, .INS_MC_ENQUEUES, .INS_FENCE_GEN, .INS_MC_FENCED_DROP,
    .SCH_GATE_HOLD, .SCH_SENT, .SCH_EXACT_LOSS, .SHP_SHAPE_STATE, .SHP_SHAPE_STAT, .SHP_POL_STATE, .HST_OP_DETAIL]

/-- The registers that change with the fences (R218 to R222). -/
def fenceRegs : List Reg := [.PRT_CREDIT, .LST_STATE, .LST_MEMBER, .INS_GROUP_SCHED, .BPM_POOL_FREE, .BPM_POOL_LOW,
    .BPM_HELD, .BPM_ERR, .BPM_ERR_COUNT, .BPM_ERR_LAST, .BPM_TAG_ECC, .INS_FENCE, .INS_MC_ENQUEUES, .INS_FENCE_GEN,
    .INS_MC_FENCED_DROP, .SCH_GATE_HOLD, .SCH_SENT, .SCH_EXACT_LOSS, .SHP_SHAPE_STATE, .SHP_SHAPE_STAT,
    .SHP_POL_STATE]

/-- The registers that change when an object is freed, or found wrong (R267, R274 to R276). -/
def poolRegs : List Reg := [.BPM_POOL_FREE, .BPM_POOL_LOW, .BPM_HELD, .BPM_ERR, .BPM_ERR_COUNT, .BPM_ERR_LAST,
    .BPM_TAG_ECC]

/-- The registers that follow the pending faults (R379, R395). -/
def faultRegs : List Reg := [.FLT_SRC_STAT, .FLT_SUMMARY, .FLT_TOP, .FLT_PIN]

/-- The registers with a field that a read clears (R18). -/
def rcRegs : List Reg := Reg.all.filter (fun r => r.fields.any (fun f => f.acc == .rc))

/-- The parts that settling changes. -/
def settleParts : List Part := [.ring, .flt, .bpm, .sched, .shape, .ctx, .comp, .spore]

/-- The registers that a command may write. A command that writes any register, resets the block, or loads a
configuration or a plan may write every one. -/
def commandWrites : Instr → List Reg
  | .registerWrite .. => Reg.all
  | .rcRegisterRead .. => rcRegs ++ [.GLB_ACCESS_ERR, .GLB_ACCESS_ADDR]
  | .lowWordRead .. => rcRegs ++ [.GLB_ACCESS_ERR, .GLB_ACCESS_ADDR]
  | .highWordRead .. => rcRegs ++ [.GLB_ACCESS_ERR, .GLB_ACCESS_ADDR]
  | .lowWordWrite .. => Reg.all
  | .highWordWrite .. => Reg.all
  | .split64BitAccess .. => Reg.all
  | .ringPacketArrive .. => [.GLB_RING_STAT]
  | .ringLinkFail .. => faultRegs ++ [.GLB_RING_LINK]
  | .ringAccessTimeout .. => [.HST_ERR, .HST_ERR_ADDR]
  | .hostAbort .. => settleRegs
  | .fenceWrite .. => settleRegs ++ fenceRegs
  | .queuePurge .. => settleRegs ++ [.INS_MC_FENCED_DROP]
  | .liveChangeGo .. => [.SCH_CHG_STAT]
  | .liveChangeDrained => [.SCH_CHG_STAT]
  | .liveChangeTimeout => settleRegs
  | .shaperCfgWrite .. => [.SHP_SHAPE_STATE, .SHP_POL_STATE]
  | .policerCfgWrite .. => [.SHP_SHAPE_STATE, .SHP_POL_STATE]
  | .mirrorCfgWrite .. => [.SHP_MIR_CFG]
  | .prbsGeneratorSelect .. => portDownRegs ++ [.PRT_TEST, .PRT_TEST_STAT, .PRT_PRBS_ERR]
  | .prbsCheckerSelect .. => portDownRegs ++ [.PRT_TEST, .PRT_TEST_STAT, .PRT_PRBS_ERR]
  | .loopbackSelect .. => portDownRegs ++ [.PRT_TEST, .PRT_TEST_STAT, .PRT_PRBS_ERR]
  | .testEnd .. => portDownRegs ++ [.PRT_TEST, .PRT_TEST_STAT, .PRT_PRBS_ERR]
  | .portEnableWrite .. => portDownRegs ++ [.GLB_ACCESS_ERR, .GLB_ACCESS_ADDR, .PRT_LINK_CFG, .SCH_PORT_CFG]
  | .rateChange .. => portDownRegs ++ [.GLB_ACCESS_ERR, .GLB_ACCESS_ADDR, .PRT_LINK_CFG, .SCH_PORT_CFG]
  | .laserEnableWrite .. => portDownRegs ++ [.PRT_LSM_STAT, .PRT_LSM_CTL]
  | .timeNowWrite .. => [.PRT_TIME_NOW]
  | .faultClear .. => faultRegs
  | .mgtFaultClear .. => faultRegs ++ [.FLT_MGT]
  | .faultPinForce .. => faultRegs ++ [.FLT_MGT]
  | .faultInject .. => fenceRegs ++ faultRegs ++ [.FLT_SRC_COUNT, .FLT_SRC_INFO, .FLT_SELF, .EVR_STAT]
  | .safeStateSelfTest => fenceRegs ++ faultRegs ++ [.FLT_SRC_COUNT, .FLT_SRC_INFO, .FLT_SELF, .EVR_STAT]
  | .faultCfgWrite .. => [.FLT_SRC_CFG, .FLT_SUMMARY, .FLT_TOP, .FLT_PIN]
  | .softwareTrigger .. => [.EVR_STAT]
  | .ringRecordSelect .. => [.EVR_RING_SEL, .EVR_RING_STAT]
  | .ringRecordReady => [.EVR_RING_STAT, .MEM_CH_ECC, .MEM_CH_ECC_LAST, .MEM_CH_BYTES]
  | .domainOffWrite .. => [.PWR_HOST_OFF, .PWR_MGT_OFF, .SEC_AUTH_LAST, .EVR_STAT]
  | .domainPowerOff .. => Reg.all
  | .domainPowerOn => [.GLB_DUM_GEN, .GLB_DUM_SUMMARY, .GLB_DUM_DIGEST, .PWR_DOM_STAT, .EVR_STAT]
  | .mbxCommandIssue .. => Reg.all
  | .planLoad .. => Reg.all
  | .planCheck => Reg.all
  | .planAcceptDegraded .. => [.EVR_STAT, .PRT_DISC, .LST_STATE, .LST_MEMBER, .LST_PLAN_STAT, .LST_PLAN_DIGEST,
      .OPC_STATE, .OPC_EXPECT, .WLT_CTX, .WLT_SHARED, .BPM_POOL_FREE, .BPM_POOL_LOW, .BPM_HELD, .BPM_TAG_ECC,
      .SCH_PORT_CFG, .SCH_WIN_BASE, .NUM_WARM, .NUM_STATE_BASE, .NUM_OPSEQ, .CKP_LAST_STAT, .CKP_EPOCH, .CKP_FULL,
      .CKP_GROUP_STAT, .CKP_DRAIN, .CKP_IMAGE, .MEM_CH_BYTES, .MEM_CXL_ERR, .HST_OP, .MSIX_PBA]
  | .planRetire .. => settleRegs ++ [.EVR_STAT, .PRT_DISC, .PRT_DISC_SUM, .PRT_DISC_GEN, .LST_STATE, .LST_MEMBER,
      .LST_PLAN_STAT, .WLT_STATE, .SCH_PORT_CFG, .NUM_STATE_BASE, .HST_OP, .HST_OP_DETAIL, .MSIX_PBA]
  | .planRetired => settleRegs ++ [.EVR_STAT, .PRT_DISC, .PRT_DISC_SUM, .PRT_DISC_GEN, .LST_STATE, .LST_MEMBER,
      .LST_PLAN_STAT, .WLT_STATE, .SCH_PORT_CFG, .NUM_STATE_BASE, .HST_OP, .HST_OP_DETAIL, .MSIX_PBA]
  | .remap .. => fenceRegs ++ [.EVR_STAT, .PRT_DISC, .PRT_DISC_SUM, .PRT_DISC_GEN, .SCH_WIN, .SCH_PORT_CFG, .HST_OP,
      .HST_OP_DETAIL, .MSIX_PBA]
  | .memberReplace .. => Reg.all
  | .memberReplaceTimeout .. => [.HST_OP, .MSIX_PBA]
  | .memRead .. => poolRegs ++ [.INS_GROUP_OPP, .MEM_CH_ECC, .MEM_CH_ECC_LAST, .MEM_CH_BYTES, .MEM_CXL_ERR, .HST_OP,
      .HST_OP_DETAIL, .HST_ERR, .MSIX_PBA]
  | .memWrite .. => poolRegs ++ [.INS_GROUP_OPP, .MEM_CH_ECC, .MEM_CH_ECC_LAST, .MEM_CH_BYTES, .MEM_CXL_ERR, .HST_OP,
      .HST_OP_DETAIL, .HST_ERR, .MSIX_PBA]
  | .attest .. => [.HST_OP, .HST_OP_DETAIL, .HST_ERR, .MSIX_PBA]
  | .identRead .. => [.HST_OP, .HST_OP_DETAIL, .HST_ERR, .MSIX_PBA]
  | .imageWrite .. => [.HST_OP, .HST_OP_DETAIL, .HST_ERR, .MSIX_PBA]
  | .svnCommit .. => [.BOOT_VERSION, .HST_OP, .MSIX_PBA]
  | .debugTokenSet .. => [.SEC_STAT, .HST_OP, .MSIX_PBA]
  | .mbxAbort .. => Reg.all
  | .longOperationEnd .. => Reg.all
  | .hostLinkDown .. => Reg.all
  | .mgtRead .. => rcRegs ++ [.GLB_ACCESS_ERR, .GLB_ACCESS_ADDR]
  | .mgtWrite .. => Reg.all
  | .mgtReset .. => Reg.all
  | .debugOpen .. => [.SEC_STAT, .SEC_AUTH_LAST, .SEC_MGT_STAT, .EVR_STAT, .CKP_EPOCH, .CKP_FULL]
  | .mgtFrameIgnored .. => [.SEC_MGT_STAT]
  | .mgtDuplicate .. => [.SEC_MGT_STAT]
  | .faultMessage .. => []
  | .faultRaise => Reg.all
  | .levelConditionChange .. => faultRegs
  | .intHoldoffEnd .. => [.MSIX_PBA]
  | .chipResetReaction => Reg.all
  | .faultNoticeRepeat => []
  | .mgtWatchdogExpiry => []
  | .collectorSweep .. => fenceRegs ++ faultRegs ++ [.FLT_SRC_COUNT, .FLT_SRC_INFO, .FLT_SELF, .EVR_STAT]
  | .safeState .. => fenceRegs ++ faultRegs ++ [.FLT_SRC_COUNT, .FLT_SRC_INFO, .FLT_SELF, .EVR_STAT]
  | .snapshotStart => [.EVR_STAT, .EVR_RING_OLDEST]
  | .snapshotReadTimeout .. => []
  | .snapshotComplete => [.EVR_NEXT, .EVR_STAT, .EVR_RING_OLDEST]
  | .periodicTrigger => [.EVR_STAT]
  | .ringCopyBatch .. => poolRegs ++ [.EVR_RING_OLDEST, .EVR_ECC, .INS_GROUP_OPP, .MEM_CH_BYTES]
  | .operatingSecond => [.EVR_OPSEC]
  | .persistenceWrite => []
  | .pwrGoodRise .. => Reg.all
  | .pwrGoodFall => Reg.all
  | .inputShutdown => Reg.all
  | .inputSample .. => faultRegs ++ [.PWR_INPUT, .PWR_INPUT_EXT]
  | .railFault .. => [.PWR_RAIL]
  | .resetN => Reg.all
  | .thermalSample .. => faultRegs ++ [.PWR_THERM_HOT, .PWR_TEMP]
  | .pllLockChange .. => [.PWR_CLK_STAT, .FLT_SRC_STAT]
  | .bootRom => faultRegs ++ [.BOOT_STAT, .BOOT_VERSION]
  | .bootNvmRead .. => [.BOOT_STAT, .BOOT_NVM]
  | .bootVerify .. => faultRegs ++ [.BOOT_STAT, .BOOT_TIMES, .BOOT_VERSION, .BOOT_FW_DIGEST, .BOOT_CFG_DIGEST]
  | .bootConfig .. => Reg.all
  | .bootMemory .. => portDownRegs ++ faultRegs ++ [.BOOT_STAT, .BOOT_TIMES, .PRT_LSM_STAT, .PRT_LSM_CTL,
      .MEM_CH_STAT]
  | .bootLinks => [.BOOT_STAT, .BOOT_TIMES, .EVR_STAT, .HST_MBX_RESP]
  | .bootFail .. => faultRegs ++ [.BOOT_STAT]
  | .laserSample .. => portDownRegs ++ [.PRT_LSM_STAT, .PRT_LSM_CTL]
  | .laserMonitorRead .. => [.FLT_SRC_STAT, .PRT_LSM_STAT, .PRT_LSM_POWER, .PRT_LSM_BIAS]
  | .laneCommaBlock .. => poolRegs ++ [.PRT_LINK_STAT, .INS_GROUP_SCHED, .INS_GROUP_OPP]
  | .lossOfSignal .. => [.PRT_LINK_STAT]
  | .codewordDecode .. => [.PRT_LINK_STAT, .PRT_FEC_CW, .PRT_FEC_ERR, .PRT_FEC_HIST]
  | .laneDeskew .. => poolRegs ++ [.EVR_STAT, .PRT_LINK_STAT, .PRT_DISC, .PRT_RX_ERR, .PRT_FC_STAT, .PRT_CREDIT,
      .PRT_DISC_SUM, .PRT_DISC_GEN, .LST_MEMBER, .INS_GROUP_SCHED, .INS_GROUP_OPP, .HST_OP_DETAIL]
  | .portDown .. => settleRegs ++ portDownRegs
  | .dataBlock .. => [.PRT_RX_ERR, .PRT_FC_STAT]
  | .frameReceive .. => poolRegs ++ [.PRT_RX_ERR, .PRT_FC_STAT, .PRT_CREDIT, .PRT_FRAMES, .BPM_DROPS, .INS_MC_STORES,
      .INS_MC_ENQUEUES, .SHP_SHAPE_STATE, .SHP_POL_STATE, .SHP_POL_STAT]
  | .controlBlock .. => [.PRT_RX_ERR]
  | .flowBlock .. => [.PRT_FC_STAT, .PRT_CREDIT, .INS_GROUP_SCHED, .SCH_GATE_HOLD, .SCH_SENT, .SCH_EXACT_LOSS,
      .SHP_SHAPE_STATE, .SHP_SHAPE_STAT, .SHP_POL_STATE]
  | .xoffStateChange .. => [.PRT_FC_STAT]
  | .flowSend .. => []
  | .fcStall .. => [.PRT_FC_STAT]
  | .fecTrendSecond => [.PRT_FEC_TREND]
  | .timeBlock .. => [.PWR_CLK_STAT, .PRT_TIME_PORT, .PRT_TIME_NOW, .PRT_TIME_STAT, .PRT_TIME_OFFSET]
  | .syncSend .. => []
  | .pdelayReqSend .. => []
  | .syncLossTimeout => [.PRT_TIME_STAT]
  | .identSend .. => []
  | .identBlock .. => portDownRegs ++ [.PRT_IDENT_RX, .SCH_PORT_CFG]
  | .negotiationTimeout .. => fenceRegs ++ [.EVR_STAT, .PRT_DISC, .PRT_DISC_SUM, .PRT_DISC_GEN, .SCH_PORT_CFG,
      .HST_OP_DETAIL]
  | .roundStart => settleRegs ++ [.EVR_STAT, .SCH_WIN_BASE, .SCH_ROUND, .SCH_DEG_STAT, .SCH_SLIPS]
  | .schedFrameStart .. => settleRegs ++ [.INS_ECC, .INS_ECC_LAST, .SCH_GATE_HOLD, .SCH_SENT]
  | .oppFrameStart .. => [.PRT_CREDIT, .SCH_GATE_HOLD, .SCH_SENT, .SCH_EXACT_LOSS, .SHP_SHAPE_STATE, .SHP_SHAPE_STAT,
      .SHP_POL_STATE]
  | .tokenRefill .. => [.SHP_SHAPE_CFG, .SHP_SHAPE_STATE, .SHP_SHAPE_STAT, .SHP_POL_CFG, .SHP_POL_STATE]
  | .frameDeparture .. => settleRegs
  | .ingressLanding .. => [.SCH_LAND, .SCH_EXACT_LOSS]
  | .swatchPointerHandoff => []
  | .resequence .. => poolRegs ++ [.OPC_DROPS, .OPC_UNDECL, .OPC_UNDECL_LAST, .SCH_EXACT_LOSS, .SCH_RESEQ_STAT]
  | .heldSwatchRelease .. => [.SCH_RESEQ_STAT]
  | .matchRound => [.SCH_MATCH_STAT]
  | .oppCellsRead .. => settleRegs ++ [.INS_ECC, .INS_ECC_LAST]
  | .insoleScrub .. => settleRegs ++ [.INS_ECC, .INS_ECC_LAST]
  | .bufferAlloc .. => settleRegs ++ [.PRT_FC_STAT, .PRT_CREDIT]
  | .allocWaitExpiry .. => settleRegs ++ [.PRT_FC_STAT, .PRT_CREDIT]
  | .bufferFree .. => poolRegs
  | .mirrorFenceDiscard .. => poolRegs ++ [.SHP_MIR_DROP, .SHP_MIR_PEND]
  | .descriptorArrival => settleRegs
  | .swatchAccept => settleRegs
  | .progressTimeout .. => settleRegs
  | .abortSwatch => settleRegs
  | .admissionDecide .. => [.EVR_STAT, .CL_OCCUPANCY, .WLT_CTX, .WLT_STATE, .WLT_ADMITS, .WLT_HOLDS, .WLT_SPILL_USED,
      .WLT_WELT_USED, .WLT_WAITS, .SCH_EXACT_LOSS]
  | .freezeDieStop .. => []
  | .holdEnter .. => poolRegs ++ [.WLT_CTX, .WLT_STATE, .WLT_GRANT_FRAMES, .INS_GROUP_SCHED, .INS_GROUP_OPP,
      .INS_MC_STORES, .INS_MC_ENQUEUES]
  | .spineHoldReceive => settleRegs ++ [.EVR_STAT, .WLT_STATE, .WLT_HOLDS]
  | .operandFetchRequest .. => []
  | .operandArrive .. => settleRegs ++ [.INS_ECC, .INS_ECC_LAST, .MEM_CH_ECC, .MEM_CH_ECC_LAST, .MEM_CH_BYTES,
      .MEM_CXL_ERR]
  | .nodeIssue .. => []
  | .checkVerdict .. => [.GLB_DUM_GEN, .GLB_DUM_SUMMARY, .GLB_DUM_DIGEST, .EVR_STAT, .CL_STATE, .CL_PARITY_ERR,
      .CL_OCCUPANCY, .CL_REPLAYS, .CL_WELT_ECC, .CL_LAST_ERR, .CL_SUMMARY, .CL_SPARES, .CL_OWN_GEN, .CL_RESIDUE_ERR,
      .CL_LOG2PHYS, .WLT_CTX, .WLT_STATE, .WLT_ADMITS, .WLT_HOLDS, .WLT_SPILL_USED, .WLT_WELT_USED, .WLT_WAITS,
      .SCH_EXACT_LOSS, .NUM_WARM]
  | .chunkCommit .. => settleRegs ++ [.CL_CHUNKS, .NUM_SAT, .NUM_NONFIN_IN, .NUM_NONFIN_GEN, .NUM_UNDERFLOW, .NUM_ZR,
      .NUM_ZR_LAST, .NUM_MON_STAT, .MEM_CH_BYTES]
  | .numRecordArrive .. => [.SCH_EXACT_LOSS, .NUM_WARM, .NUM_STATE_LOST, .MEM_CH_ECC, .MEM_CH_ECC_LAST, .MEM_CH_BYTES]
  | .spareSelfTestStart => [.CL_STATE]
  | .spareSelfTestEnd .. => [.GLB_DUM_GEN, .GLB_DUM_SUMMARY, .GLB_DUM_DIGEST, .EVR_STAT, .CL_STATE, .CL_TEST,
      .CL_SUMMARY, .CL_SPARES, .SCH_EXACT_LOSS]
  | .coreDieLoss .. => [.GLB_DUM_GEN, .GLB_DUM_SUMMARY, .GLB_DUM_DIGEST, .PWR_DOM_STAT, .EVR_STAT, .CL_STATE,
      .CL_OCCUPANCY, .CL_SUMMARY, .CL_SPARES, .CL_OWN_GEN, .CL_LOG2PHYS, .WLT_CTX, .WLT_STATE, .WLT_ADMITS,
      .WLT_HOLDS, .WLT_SPILL_USED, .WLT_WELT_USED, .WLT_WAITS, .SCH_EXACT_LOSS, .NUM_WARM]
  | .monitorInputsRead .. => settleRegs
  | .shadowCheckComplete .. => [.NUM_SHADOW, .NUM_SHADOW_MAX, .NUM_SHADOW_LAST, .NUM_MON_STAT]
  | .spillFetchComplete .. => settleRegs ++ [.MEM_CH_ECC, .MEM_CH_ECC_LAST, .MEM_CH_BYTES]
  | .spillWritebackComplete .. => [.MEM_CH_BYTES]
  | .exchangePlacement .. => settleRegs ++ [.OPC_XCH_PLACED, .OPC_XCH_DROPPED, .OPC_XCH_PEAK]
  | .exchangeSwatchAssemble .. => settleRegs
  | .epochCutEnd .. => settleRegs ++ [.NUM_STATE_LOST, .MEM_CH_ECC, .MEM_CH_ECC_LAST, .MEM_CH_BYTES]
  | .epochCutTimeout .. => settleRegs
  | .epochSecured .. => settleRegs ++ [.CKP_EPOCH, .CKP_FULL, .MEM_CH_ECC, .MEM_CH_ECC_LAST, .MEM_CH_BYTES]
  | .epochClose .. => settleRegs ++ [.CKP_EPOCH]
  | .tierWriteFail .. => [.CKP_DRAIN, .MEM_CXL_ERR]
  | .lichenUpdate => [.CKP_LICHEN]
  | .cadenceUpdate => [.CKP_CAD_OBS, .CKP_CAD_STAT]
  | .memberFailed .. => settleRegs ++ fenceRegs ++ [.WLT_GRANT_FRAMES, .CKP_EPOCH, .CKP_CAD_OBS]
  | .regrowthStart .. => settleRegs ++ fenceRegs ++ [.WLT_GRANT_FRAMES]
  | .rollback .. => settleRegs ++ [.LST_STATE, .WLT_GRANT_FRAMES, .CKP_EPOCH, .CKP_FULL, .MEM_CH_ECC,
      .MEM_CH_ECC_LAST, .MEM_CH_BYTES, .MEM_CXL_ERR]
  | .restoreStart .. => settleRegs ++ fenceRegs ++ [.WLT_GRANT_FRAMES]
  | .gddrCrcRetry .. => [.MEM_CH_STAT, .MEM_CH_ECC, .MEM_CH_ECC_LAST]
  | .gddrChannelFail .. => [.GLB_DUM_GEN, .GLB_DUM_SUMMARY, .GLB_DUM_DIGEST, .EVR_STAT, .MEM_CH_STAT]
  | .cxlLinkDown .. => [.FLT_SRC_STAT, .MEM_CXL_STAT, .HST_OP, .HST_OP_DETAIL, .MSIX_PBA]
  | .cxlLinkUp .. => [.FLT_SRC_STAT, .MEM_CXL_STAT, .MEM_CXL_CAP]
  | .hostLinkUp .. => [.HST_LINK_STAT]
  | .inputStartThreshold => Reg.all
  | .resetNRelease .. => []
  | .prbsCheckerLock .. => [.PRT_PRBS_ERR]
  | .ringLinkRestore .. => faultRegs ++ [.GLB_RING_LINK]
  | .domainPowered .. => portDownRegs ++ [.PWR_DOM_STAT]
  | .shardReadComplete .. => settleRegs ++ fenceRegs ++ [.MEM_CXL_ERR]

/-- The parts that a command may change. -/
def commandChanges : Instr → List Part
  | .registerWrite .. => settleParts ++ [.bus, .evr, .link, .host, .pwr, .sec]
  | .rcRegisterRead .. => [.bus, .ring, .flt]
  | .lowWordRead .. => [.bus, .ring, .flt]
  | .highWordRead .. => [.bus, .ring, .flt]
  | .lowWordWrite .. => settleParts ++ [.bus, .evr, .link, .host, .pwr, .sec]
  | .highWordWrite .. => settleParts ++ [.bus, .evr, .link, .host, .pwr, .sec]
  | .split64BitAccess .. => settleParts ++ [.bus, .evr, .link, .host, .pwr, .sec]
  | .ringPacketArrive .. => [.ring, .flt]
  | .ringLinkFail .. => [.ring, .flt]
  | .ringAccessTimeout .. => []
  | .hostAbort .. => settleParts ++ [.bus]
  | .fenceWrite .. => settleParts ++ [.bus, .link]
  | .queuePurge .. => settleParts
  | .liveChangeGo .. => [.bus, .sched]
  | .liveChangeDrained => [.sched]
  | .liveChangeTimeout => settleParts
  | .shaperCfgWrite .. => [.bus, .shape]
  | .policerCfgWrite .. => [.bus, .shape]
  | .mirrorCfgWrite .. => [.bus, .shape]
  | .prbsGeneratorSelect .. => [.bus, .ring, .flt, .evr, .link, .bpm, .sched, .ctx]
  | .prbsCheckerSelect .. => [.bus, .ring, .flt, .evr, .link, .bpm, .sched, .ctx]
  | .loopbackSelect .. => [.bus, .ring, .flt, .evr, .link, .bpm, .sched, .ctx]
  | .testEnd .. => [.bus, .ring, .flt, .evr, .link, .bpm, .sched, .ctx]
  | .portEnableWrite .. => [.bus, .ring, .flt, .evr, .link, .bpm, .sched, .ctx]
  | .rateChange .. => [.bus, .ring, .flt, .evr, .link, .bpm, .sched, .ctx]
  | .laserEnableWrite .. => [.bus, .ring, .flt, .evr, .link, .bpm, .sched, .ctx]
  | .timeNowWrite .. => [.bus, .link]
  | .faultClear .. => [.bus, .flt]
  | .mgtFaultClear .. => [.bus, .flt]
  | .faultPinForce .. => [.bus, .flt]
  | .faultInject .. => [.bus, .ring, .flt, .evr, .link, .bpm, .sched, .ctx]
  | .safeStateSelfTest => [.bus, .ring, .flt, .evr, .link, .bpm, .sched, .ctx]
  | .faultCfgWrite .. => [.bus, .flt]
  | .softwareTrigger .. => [.bus, .evr]
  | .ringRecordSelect .. => [.bus, .evr]
  | .ringRecordReady => [.ring, .flt, .evr]
  | .domainOffWrite .. => [.bus, .ring, .flt, .evr, .sec]
  | .domainPowerOff .. => settleParts ++ [.evr, .link, .host, .pwr]
  | .domainPowerOn => [.evr, .pwr]
  | .mbxCommandIssue .. => [.bus, .ring, .flt, .evr, .link, .bpm, .sched, .ctx, .host, .sec]
  | .planLoad .. => [.ring, .flt, .evr, .link, .bpm, .sched, .ctx, .host]
  | .planCheck => [.ring, .flt, .evr, .link, .bpm, .sched, .ctx, .spore, .mem, .host]
  | .planAcceptDegraded .. => [.evr, .bpm, .sched, .ctx, .spore, .mem, .host]
  | .planRetire .. => settleParts ++ [.evr, .host]
  | .planRetired => settleParts ++ [.evr, .host]
  | .remap .. => [.ring, .flt, .evr, .link, .bpm, .sched, .ctx, .host]
  | .memberReplace .. => [.ring, .flt, .evr, .link, .bpm, .sched, .ctx, .host]
  | .memberReplaceTimeout .. => [.host]
  | .memRead .. => [.ring, .flt, .bpm, .mem, .host]
  | .memWrite .. => [.ring, .flt, .bpm, .mem, .host]
  | .attest .. => [.host]
  | .identRead .. => [.host]
  | .imageWrite .. => [.host, .boot, .sec]
  | .svnCommit .. => [.host, .sec]
  | .debugTokenSet .. => [.host, .sec]
  | .mbxAbort .. => [.bus, .ring, .flt, .evr, .link, .bpm, .sched, .ctx, .host, .sec]
  | .longOperationEnd .. => [.ring, .flt, .evr, .link, .bpm, .sched, .ctx, .host]
  | .hostLinkDown .. => [.ring, .flt, .evr, .link, .bpm, .sched, .ctx, .host]
  | .mgtRead .. => [.bus, .ring, .flt, .sec]
  | .mgtWrite .. => settleParts ++ [.bus, .evr, .link, .host, .pwr, .sec]
  | .mgtReset .. => Part.all
  | .debugOpen .. => [.ring, .flt, .evr, .mem, .sec]
  | .mgtFrameIgnored .. => [.sec]
  | .mgtDuplicate .. => []
  | .faultMessage .. => [.ring, .flt]
  | .faultRaise => settleParts ++ [.evr, .link, .host]
  | .levelConditionChange .. => [.ring, .flt]
  | .intHoldoffEnd .. => [.flt]
  | .chipResetReaction => Part.all
  | .faultNoticeRepeat => [.flt]
  | .mgtWatchdogExpiry => [.ring, .flt]
  | .collectorSweep .. => [.ring, .flt, .evr, .link, .bpm, .sched, .ctx]
  | .safeState .. => [.ring, .flt, .evr, .link, .bpm, .sched, .ctx]
  | .snapshotStart => [.evr]
  | .snapshotReadTimeout .. => [.evr]
  | .snapshotComplete => [.evr]
  | .periodicTrigger => [.evr]
  | .ringCopyBatch .. => [.ring, .flt, .evr, .bpm, .mem]
  | .operatingSecond => [.evr]
  | .persistenceWrite => [.evr, .boot, .sec]
  | .pwrGoodRise .. => Part.all
  | .pwrGoodFall => Part.all
  | .inputShutdown => Part.all
  | .inputSample .. => [.ring, .flt]
  | .railFault .. => [.ring, .flt]
  | .resetN => Part.all
  | .thermalSample .. => [.ring, .flt, .pwr]
  | .pllLockChange .. => [.ring, .flt]
  | .bootRom => [.ring, .flt, .boot]
  | .bootNvmRead .. => [.boot]
  | .bootVerify .. => [.ring, .flt, .boot]
  | .bootConfig .. => Part.all
  | .bootMemory .. => [.ring, .flt, .evr, .link, .bpm, .sched, .ctx, .boot]
  | .bootLinks => [.evr]
  | .bootFail .. => [.ring, .flt]
  | .laserSample .. => [.ring, .flt, .evr, .link, .bpm, .sched, .ctx]
  | .laserMonitorRead .. => [.ring, .flt, .link]
  | .laneCommaBlock .. => [.ring, .flt, .link, .bpm, .sched]
  | .lossOfSignal .. => [.link]
  | .codewordDecode .. => [.link]
  | .laneDeskew .. => [.ring, .flt, .evr, .link, .bpm, .sched]
  | .portDown .. => settleParts ++ [.evr, .link]
  | .dataBlock .. => [.link]
  | .frameReceive .. => [.ring, .flt, .link, .bpm, .sched, .ctx]
  | .controlBlock .. => [.link]
  | .flowBlock .. => [.link, .sched]
  | .xoffStateChange .. => [.link]
  | .flowSend .. => [.link]
  | .fcStall .. => [.ring, .flt, .link]
  | .fecTrendSecond => [.ring, .flt, .link]
  | .timeBlock .. => [.ring, .flt, .link, .sched]
  | .syncSend .. => [.link]
  | .pdelayReqSend .. => [.link]
  | .syncLossTimeout => [.ring, .flt, .link]
  | .identSend .. => [.link]
  | .identBlock .. => [.ring, .flt, .evr, .link, .bpm, .sched, .ctx]
  | .negotiationTimeout .. => [.ring, .flt, .evr, .link, .bpm, .sched, .ctx]
  | .roundStart => settleParts ++ [.evr]
  | .schedFrameStart .. => settleParts ++ [.link]
  | .oppFrameStart .. => [.link, .sched]
  | .tokenRefill .. => [.sched, .shape]
  | .frameDeparture .. => settleParts
  | .ingressLanding .. => [.bpm, .sched]
  | .swatchPointerHandoff => [.sched]
  | .resequence .. => [.ring, .flt, .bpm, .sched]
  | .heldSwatchRelease .. => [.sched]
  | .matchRound => [.sched]
  | .oppCellsRead .. => settleParts
  | .insoleScrub .. => settleParts
  | .bufferAlloc .. => settleParts ++ [.link]
  | .allocWaitExpiry .. => settleParts ++ [.link]
  | .bufferFree .. => [.ring, .flt, .bpm, .spore]
  | .mirrorFenceDiscard .. => [.ring, .flt, .bpm, .sched]
  | .descriptorArrival => settleParts
  | .swatchAccept => settleParts
  | .progressTimeout .. => settleParts
  | .abortSwatch => settleParts
  | .admissionDecide .. => [.evr, .bpm, .ctx, .comp]
  | .freezeDieStop .. => [.comp]
  | .holdEnter .. => [.ring, .flt, .bpm, .sched, .ctx]
  | .spineHoldReceive => settleParts ++ [.evr]
  | .operandFetchRequest .. => [.comp]
  | .operandArrive .. => settleParts ++ [.mem]
  | .nodeIssue .. => [.comp]
  | .checkVerdict .. => [.ring, .flt, .evr, .ctx, .comp, .spore]
  | .chunkCommit .. => settleParts ++ [.mem]
  | .numRecordArrive .. => [.ring, .flt, .comp]
  | .spareSelfTestStart => [.comp]
  | .spareSelfTestEnd .. => [.ring, .flt, .evr, .comp]
  | .coreDieLoss .. => [.ring, .flt, .evr, .ctx, .comp, .pwr]
  | .monitorInputsRead .. => settleParts
  | .shadowCheckComplete .. => [.ring, .flt, .comp]
  | .spillFetchComplete .. => settleParts
  | .spillWritebackComplete .. => [.comp, .mem]
  | .exchangePlacement .. => settleParts
  | .exchangeSwatchAssemble .. => settleParts
  | .epochCutEnd .. => settleParts ++ [.mem]
  | .epochCutTimeout .. => settleParts
  | .epochSecured .. => settleParts ++ [.mem]
  | .epochClose .. => settleParts
  | .tierWriteFail .. => [.ring, .flt, .spore]
  | .lichenUpdate => [.ring, .flt, .spore]
  | .cadenceUpdate => []
  | .memberFailed .. => settleParts ++ [.link]
  | .regrowthStart .. => settleParts ++ [.link]
  | .rollback .. => settleParts ++ [.mem]
  | .restoreStart .. => settleParts ++ [.link]
  | .gddrCrcRetry .. => [.ring, .flt, .spore]
  | .gddrChannelFail .. => [.evr, .pwr]
  | .cxlLinkDown .. => [.ring, .flt, .host]
  | .cxlLinkUp .. => [.ring, .flt]
  | .hostLinkUp .. => []
  | .inputStartThreshold => Part.all
  | .resetNRelease .. => [.pwr]
  | .prbsCheckerLock .. => [.link, .sched]
  | .ringLinkRestore .. => [.ring, .flt]
  | .domainPowered .. => [.ring, .flt, .evr, .link, .bpm, .sched, .ctx, .pwr]
  | .shardReadComplete .. => settleParts ++ [.link]

end Sys2Proof.Machine
end

