-- ==== Sys2Proof/Certificates/Slice0/Obligations.lean ====
section
/-!
DEFINITION. The statements about this model. Each says in its first lines which rules of spec/ it formalises.
-/

open Sys2Proof Sys2Proof.Machine

/-- The block's step: for every command c and state s with c at the front of its queue, step is exec of c on s with
the queue's rest. On an empty queue one root cycle passes and nothing is commanded (log 3). -/
def Obligations.StepRunsTheFrontCommand : Prop :=
  (∀ (c : Instr) (rest : List Instr) (s : State), s.pending = c :: rest → step s = exec c { s with pending := rest }) ∧
  ∀ s : State, s.pending = [] → ∃ t : State, step s = .next t ∧ t.now = s.now + 1 ∧ t.pending = []

/-- The spec gives every access, operation and event of the block an effect (R16, R17 and the rules of each), so from
every state a step goes on: no command ends in a fault or a refusal. -/
def Obligations.EveryStepGoesOn : Prop :=
  ∀ s : State, ∃ t : State, step s = .next t

/-- The opcode table gives its rows no bits: no word spells a command, and the queue stays as it is (the model's own
reading of the table, log 6). -/
def Obligations.NoWordSpellsACommand : Prop :=
  ∀ (nbits w : Nat) (s : State), decodeTableWord nbits w = none ∧ s.withFetchWord nbits w = s

/-- R14: after reset the register file and the memories are in canonical form, and no command waits. -/
def Obligations.ResetIsCanonical : Prop :=
  State.reset.Canonical ∧ State.reset.pending = [] ∧ State.reset.out = [] ∧ State.reset.active = true

/-- R14, R458: after reset every field of every instance of every register reads the value of its Reset column, but
for HST_MBX_RESP.BUSY, which reads 1 until boot is DONE. A field whose Reset column says NVM reads 0 until its
configuration is loaded: the model's choice (log 1). -/
def Obligations.ResetValuesOfRegisters : Prop :=
  (∀ (f : Fld) (i j : Nat), f.key i j ≠ F.HST_MBX_RESP_BUSY.key 0 0 → State.reset.rd f i j = f.resetVal i) ∧
  State.reset.rd F.HST_MBX_RESP_BUSY = 1

/-- An invariant of every step, from every state: the register file and every memory stay in canonical form; time does
not go back; what has left the block stays sent, in its order; free values are used up in order; and the queue loses
its front command and nothing else. -/
def Obligations.EveryStepKeepsTheState : Prop :=
  ∀ s t : State, step s = .next t →
    (s.Canonical → t.Canonical) ∧ s.now ≤ t.now ∧ s.out <+: t.out ∧ s.freeCtr ≤ t.freeCtr ∧ t.pending = s.pending.tail

/-- The frame of every command, from every state: no field of any instance of a register changes but those of the
registers that commandWrites lists for it, and no part of the state but those that commandChanges lists. R9 to R22
and the rule of each command say what it writes. -/
def Obligations.CommandsTouchOnlyTheirOwn : Prop :=
  ∀ (c : Instr) (s t : State), exec c s = .next t → TouchesOnly (commandWrites c) (commandChanges c) s t

/-- R9, R10, R16: the base address of an instance reaches that instance, the upper half of a 64-bit one stands four
bytes on, and every address that reaches anything is one of these. -/
def Obligations.AddressMapIsExact : Prop :=
  (∀ (r : Reg) (i j : Nat), i < r.at.count1 → j < r.at.count2 →
    hitAt (r.addr i j) = some ⟨r, i, j, false⟩ ∧ (r.at.bits = 64 → hitAt (r.addr i j + 4) = some ⟨r, i, j, true⟩)) ∧
  ∀ (a : Nat) (h : Hit), hitAt a = some h → a = h.reg.addr h.i h.j + (if h.high then 4 else 0) ∧
    h.i < h.reg.at.count1 ∧ h.j < h.reg.at.count2 ∧ (h.high = true → h.reg.at.bits = 64)

/-- R6, R9: two register files in canonical form that read alike at every key are equal, and two memories in canonical
form that read alike at every byte are equal; and a write of bytes is read back, with every byte outside it as
before. -/
def Obligations.CanonicalFormIsUnique : Prop :=
  (∀ m n : SMap (Option Nat), m.wf = true → n.wf = true → (∀ k, m.get k = n.get k) → m = n) ∧
  (∀ m n : Memory, m.wf = true → n.wf = true → (∀ a, m.read a = n.read a) → m = n) ∧
  ∀ (m : Memory) (a : Nat) (l : List Byte), m.wf = true → (m.writeN a l).wf = true ∧ (m.writeN a l).readN a l.length = l ∧
    ∀ b, b < a ∨ a + l.length ≤ b → (m.writeN a l).read b = m.read b

/-- R54, R378: the oldest fault message on a ring leaves it and reaches the collector's queue, where the messages of
one management cycle stand in ascending source; the second copy of a message, known by its die and sequence number,
is discarded. No register changes. -/
def Obligations.FaultMessageReachesCollector : Prop :=
  (∀ (s : State) (ring : Ring) (m : Ring × FaultMsg), s.powered = true → (s.flt.flight.find? (fun k : Ring × FaultMsg
    => k.1 == ring) = some m) → s.flt.seen.contains (m.2.die, m.2.seq) = false → ∃ t : State, exec (.faultMessage
    ring) s = .next t ∧ (t.flt.inbox = s.flt.inbox.filter (fun e => !(e.1 / 16 == s.now / 16 && decide (m.2.source <
    e.2.source))) ++ [(s.now, m.2)] ++ s.flt.inbox.filter (fun e => e.1 / 16 == s.now / 16 && decide (m.2.source <
    e.2.source))) ∧ t.flt.flight = s.flt.flight.erase m ∧ t.regs = s.regs) ∧
  (∀ (s : State) (ring : Ring) (m : Ring × FaultMsg), s.powered = true → (s.flt.flight.find? (fun k : Ring × FaultMsg
    => k.1 == ring) = some m) → s.flt.seen.contains (m.2.die, m.2.seq) = true → ∃ t : State, exec (.faultMessage ring)
    s = .next t ∧ t.flt.inbox = s.flt.inbox ∧ t.flt.flight = s.flt.flight.erase m ∧ t.flt.seen = s.flt.seen.filter (·
    != (m.2.die, m.2.seq)) ∧ t.regs = s.regs)

/-- R379: the collector decides the oldest raise: PENDING is set, COUNT counts every raise of the message and stays at
its all-ones value, and FLT_SRC_INFO takes the detail and the operating second; for a source that resets no block
(R385). What waits for the new state then settles. -/
def Obligations.FaultRaiseCounts : Prop :=
  ∀ (s : State) (at_ : Nat) (m : FaultMsg) (rest : List (Nat × FaultMsg)), s.active = true → s.flt.inbox = (at_, m) ::
    rest → m.n ≠ 0 → faultSources.contains m.source = true → s.rdStart F.FLT_SRC_CFG_BLOCK_RESET m.source 0 16 = 0 → ∃
    u : State, exec .faultRaise s = .next u.settleAll ∧ u.flt.inbox = rest ∧ u.rd F.FLT_SRC_STAT_PENDING m.source = 1
    ∧ u.rd F.FLT_SRC_COUNT_COUNT m.source = min (s.rd F.FLT_SRC_COUNT_COUNT m.source + m.n) (2 ^ 32 - 1) ∧ u.rd
    F.FLT_SRC_INFO_DETAIL m.source = m.detail % 2 ^ 32 ∧ u.rd F.FLT_SRC_INFO_OP_SECONDS m.source = s.opSec % 2 ^ 32

/-- R382: when a unit of a level source whose stop is the management die begins to meet its condition, ACTIVE is set
and one raise of the source reaches the collector, and when it ceases to, ACTIVE follows with no raise; at another
die the level goes out as a message and the collector has nothing yet; a condition that stays as it was changes
neither. Every form completes: the condition of a level source is kept, that of another source is none. -/
def Obligations.LevelConditionRaises : Prop :=
  (∀ (s : State) (src unit : Nat), s.powered = true → src < 128 → unit < 48 → levelSources.contains src = true →
    levelStop src unit = stopMgt → s.flt.cond.get [src, stopMgt, unit] = false → ∃ t : State, exec
    (.levelConditionChange src unit true) s = .next t ∧ t.rd F.FLT_SRC_STAT_ACTIVE src = 1 ∧ t.flt.cond.get [src,
    stopMgt, unit] = true ∧ (∃ m ∈ t.flt.inbox, m.1 = s.now ∧ m.2.source = src ∧ m.2.n = 1) ∧ t.flt.inbox.length =
    s.flt.inbox.length + 1) ∧
  (∀ (s : State) (src unit : Nat) (c : Bool), s.powered = true → src < 128 → unit < 48 → levelSources.contains src =
    true → s.flt.cond.get [src, levelStop src unit, unit] = c → ∃ t : State, exec (.levelConditionChange src unit c) s
    = .next t ∧ t.flt.cond = s.flt.cond ∧ t.flt.inbox = s.flt.inbox ∧ t.rd F.FLT_SRC_STAT_ACTIVE src = s.rd
    F.FLT_SRC_STAT_ACTIVE src) ∧
  (∀ (s : State) (src unit : Nat), s.powered = true → src < 128 → unit < 48 → levelSources.contains src = true →
    levelStop src unit = stopMgt → s.flt.cond.get [src, stopMgt, unit] = true → ∃ t : State, exec
    (.levelConditionChange src unit false) s = .next t ∧ t.flt.cond = s.flt.cond.set [src, stopMgt, unit] false ∧
    t.flt.inbox = s.flt.inbox ∧ t.flt.levels.get [src, stopMgt] = t.dieLevel src stopMgt ∧ (t.rd F.FLT_SRC_STAT_ACTIVE
    src = b2n (t.flt.levels.entries.any (fun e => e.1.head? == some src))) ∧ t.rd F.FLT_SRC_COUNT_COUNT src = s.rd
    F.FLT_SRC_COUNT_COUNT src) ∧
  (∀ (s : State) (src unit : Nat) (c : Bool), s.powered = true → src < 128 → unit < 48 → levelSources.contains src =
    true → levelStop src unit ≠ stopMgt → s.flt.cond.get [src, levelStop src unit, unit] = !c → (s.pathCut .cw
    (levelStop src unit) stopMgt && s.pathCut .ccw (levelStop src unit) stopMgt) = false → ∃ t : State, exec
    (.levelConditionChange src unit c) s = .next t ∧ t.flt.cond = s.flt.cond.set [src, levelStop src unit, unit] c ∧
    t.flt.inbox = s.flt.inbox ∧ t.rd F.FLT_SRC_STAT_ACTIVE src = s.rd F.FLT_SRC_STAT_ACTIVE src ∧ t.flt.waiting.get
    [levelStop src unit, src] = none ∧ t.flt.seqs.get [levelStop src unit] = (s.flt.seqs.get [levelStop src unit] + 1)
    % 65536) ∧
  (∀ (s : State) (src unit : Nat) (c : Bool), s.powered = true → src < 128 → unit < 48 → ∃ t : State, exec
    (.levelConditionChange src unit c) s = .next t ∧ (t.flt.cond = (if levelSources.contains src && s.flt.cond.get
    [src, levelStop src unit, unit] != c then s.flt.cond.set [src, levelStop src unit, unit] c else s.flt.cond)) ∧
    t.rd F.FLT_SRC_COUNT_COUNT src = s.rd F.FLT_SRC_COUNT_COUNT src ∧ t.rd F.FLT_SRC_STAT_PENDING src = s.rd
    F.FLT_SRC_STAT_PENDING src)

/-- R394, R395: software clears PENDING of a source through FLT_SRC_STAT or FLT_MGT; an ACTIVE source stays pending,
and so does one whose raise is decided in the same cycle of the management clock. A write of FLT_MGT also sets
FORCE. -/
def Obligations.FaultClearClearsPending : Prop :=
  (∀ (s : State) (src : Nat) (raised : Bool), s.active = true → src < 128 → faultSources.contains src = true → ∃ t :
    State, exec (.faultClear src raised) s = .next t ∧ (t.rd F.FLT_SRC_STAT_PENDING src = (if raised || s.marked (.bit
    (F.FLT_SRC_STAT_PENDING.key src 0)) 16 || s.flag F.FLT_SRC_STAT_ACTIVE src then s.rd F.FLT_SRC_STAT_PENDING src
    else 0)) ∧ t.rd F.FLT_SRC_COUNT_COUNT src = s.rd F.FLT_SRC_COUNT_COUNT src) ∧
  (∀ (s : State) (src : Nat) (force raised : Bool), s.active = true → src < 128 → faultSources.contains src = true → ∃
    t : State, exec (.mgtFaultClear src force raised) s = .next t ∧ t.rd F.FLT_MGT_FORCE = b2n force ∧ (t.rd
    F.FLT_SRC_STAT_PENDING src = (if raised || s.marked (.bit (F.FLT_SRC_STAT_PENDING.key src 0)) 16 || s.flag
    F.FLT_SRC_STAT_ACTIVE src then s.rd F.FLT_SRC_STAT_PENDING src else 0)))

/-- R384, R418: when the holdoff of a vector has ended, its merged interrupt goes out as one message, or as the
pending bit of a masked vector. R387: a second after the last notice the notice of the highest pending source that
asks for it goes again. -/
def Obligations.HoldoffAndNotice : Prop :=
  (∀ (s : State) (v : Nat), s.powered = true → v < 4 → (s.flt.hold.get [v]).merged = true → ((s.flt.hold.get
    [v]).last.all (fun t => decide (t + us (s.rd F.FLT_GCFG_INT_HOLDOFF_US) ≤ s.now)) = true) → s.flag
    F.MSIX_CTRL_MASK v = true → ∃ t : State, exec (.intHoldoffEnd v) s = .next t ∧ t.flt.hold.get [v] =
    ({ last := some s.now, merged := false } : IntHold) ∧ t.out = s.out ∧ (t.rd F.MSIX_PBA_PENDING).testBit v = true) ∧
  (∀ (s : State) (v : Nat), s.powered = true → v < 4 → (s.flt.hold.get [v]).merged = true → ((s.flt.hold.get
    [v]).last.all (fun t => decide (t + us (s.rd F.FLT_GCFG_INT_HOLDOFF_US) ≤ s.now)) = true) → s.flag
    F.MSIX_CTRL_MASK v = false → ∃ t : State, exec (.intHoldoffEnd v) s = .next t ∧ t.flt.hold.get [v] =
    ({ last := some s.now, merged := false } : IntHold) ∧ t.out = s.out ++ [Output.msix v (s.rd F.MSIX_ADDR_ADDR v)
    (s.rd F.MSIX_DATA_DATA v)] ∧ t.regs = s.regs) ∧
  (∀ (s : State) (since src : Nat), s.powered = true → s.flt.noticeSince = some since → since + secs 1 ≤ s.now →
    (s.topSource (s.pendingSources.filter (fun i => s.flag F.FLT_SRC_CFG_INT i)) = some src) → ((List.range 8).any
    (fun k => s.flag F.SEC_MGT_PEER_VALID k && s.flag F.SEC_MGT_PEER_STATION k) = true) → ∃ t : State, exec
    .faultNoticeRepeat s = .next t ∧ t.flt.noticeSince = some s.now ∧ t.regs = s.regs ∧ (t.out = s.out ++
    [Output.notice (((List.range 8).filter (fun k => s.flag F.SEC_MGT_PEER_VALID k && s.flag F.SEC_MGT_PEER_STATION
    k)).map (fun k => s.rd F.SEC_MGT_PEER_MAC k)) (bytesLE 1 src ++ bytesLE 1 (s.rdStart F.FLT_SRC_CFG_SEVERITY src 0
    16) ++ bytesLE 2 0 ++ bytesLE 4 (s.rd F.FLT_SRC_INFO_DETAIL src) ++ bytesLE 4 (s.rd F.FLT_SRC_COUNT_COUNT src) ++
    bytesLE 4 (s.rd F.FLT_SRC_INFO_OP_SECONDS src) ++ bytesLE 8 ((s.flt.recSeq.get [src]).getD (2 ^ 64 - 1)))]))

/-- R386, R403, R450: a reaction decided 50 µs ago resets the chip: boot is at stage ROM again, the cause is recorded,
and the bytes of the expanders and of the NVM and the fuses stay. A management watchdog that has not been serviced
raises source 3 (R382). -/
def Obligations.ChipResetKeepsBytes : Prop :=
  (∀ (s : State) (r : ResetReaction), s.active = true → s.flt.reaction = some r → r.since + us 50 ≤ s.now → ∃ t :
    State, exec .chipResetReaction s = .next t ∧ t.rd F.FLT_RESET_CAUSE_VALID = 1 ∧ t.rd F.FLT_RESET_CAUSE_KIND =
    resetReaction ∧ t.rd F.FLT_RESET_CAUSE_SOURCE = r.source % 128 ∧ t.rd F.BOOT_STAT_STAGE = stageRom ∧ t.mem.cxl =
    s.mem.cxl ∧ t.sec.nvm = s.sec.nvm ∧ t.sec.fuses = s.sec.fuses ∧ t.out = s.out) ∧
  (∀ (s : State), s.powered = true → ∃ t : State, exec .mgtWatchdogExpiry s = .next t ∧ t.regs = s.regs ∧ (∃ m ∈
    t.flt.inbox, m.1 = s.now ∧ m.2.source = 3 ∧ m.2.n = 1) ∧ t.flt.inbox.length = s.flt.inbox.length + 1)

/-- R388, R389: a word that fails the collector's parity or ECC, or its lockstep, puts the chip in the safe state:
FLT_SELF holds the cause, and the word of a parity or ECC failure, and source 0 is pending. A sweep counts the words
it corrects. -/
def Obligations.CollectorEntersSafe : Prop :=
  (∀ (s : State) (cause word : Nat), s.active = true → (cause = selfParity ∨ cause = selfEcc ∨ cause = selfLockstep) →
    ∃ t : State, exec (.safeState cause word) s = .next t ∧ t.isSafe = true ∧ t.rd F.FLT_SELF_CAUSE = cause ∧ (t.rd
    F.FLT_SELF_WORD = (if cause = selfLockstep then 0 else word % 2 ^ 24)) ∧ t.rd F.FLT_SRC_STAT_PENDING 0 = 1) ∧
  (∀ (s : State) (n : Nat), s.active = true → ∃ t : State, exec (.collectorSweep n none) s = .next t ∧ t.rd
    F.FLT_SELF_CORR = min (s.rd F.FLT_SELF_CORR + n) (2 ^ 16 - 1) ∧ t.isSafe = false) ∧
  (∀ (s : State) (n cause word : Nat), s.active = true → (cause = selfParity ∨ cause = selfEcc) → ∃ t : State, exec
    (.collectorSweep n (some (cause, word))) s = .next t ∧ t.isSafe = true ∧ t.rd F.FLT_SELF_CAUSE = cause ∧ t.rd
    F.FLT_SELF_WORD = word % 2 ^ 24)

/-- R10, R12, R18, R19, R22: a write of a whole register by its owner leaves in each field what the field's access
code says. While no plan locks RWL fields no other register changes, but that clearing GLB_ACCESS_ERR may capture an
error of the same cycle (R43); while one does, a write that would change an RWL field sets LOCKED_WR. The registers
of Reg.ownMeaning are stated apart; of LST_CFG and LST_MEMBER the RWL fields are as here, and PRESENT and LASTS
follow them (R175, R334). -/
def Obligations.RegisterWriteByAccessCode : Prop :=
  (∀ (s : State) (r : Reg) (i j : Nat) (v : Nat), s.active = true → i < r.at.count1 → j < r.at.count2 → r.ownMeaning =
    false → ∃ t : State, exec (.registerWrite r.owner (r.addr i j) r.at.bits v) s = .next t ∧ (∀ f ∈ r.fields, t.rd f
    i j = s.afterWrite f i j v)) ∧
  (∀ (s : State) (r : Reg) (i j : Nat) (v : Nat), s.active = true → i < r.at.count1 → j < r.at.count2 → r.ownMeaning =
    false → s.rwlLocked = false → ∃ t : State, exec (.registerWrite r.owner (r.addr i j) r.at.bits v) s = .next t ∧ (∀
    g i' j', (g.reg ≠ r ∨ i' ≠ i ∨ j' ≠ j) ∧ (r ≠ .GLB_ACCESS_ERR ∨ g.reg ≠ .GLB_ACCESS_ADDR) → t.rd g i' j' = s.rd g
    i' j') ∧ t.out = s.out ∧ t.flt = s.flt ∧ t.mem = s.mem) ∧
  (∀ (s : State) (r : Reg) (i j : Nat) (f : Fld) (v : Nat), s.active = true → i < r.at.count1 → j < r.at.count2 →
    r.ownMeaning = false → s.rwlLocked = true → f ∈ r.fields → f.code i j = Acc.rwl → bits v f.hi f.lo ≠ s.rd f i j →
    ∃ t : State, exec (.registerWrite r.owner (r.addr i j) r.at.bits v) s = .next t ∧ t.rd F.GLB_ACCESS_ERR_LOCKED_WR
    = 1 ∧ t.rd f i j = s.rd f i j) ∧
  (∀ (s : State) (r : Reg) (i j : Nat) (v : Nat), s.active = true → i < r.at.count1 → j < r.at.count2 → (r = .LST_CFG
    ∨ r = .LST_MEMBER) → s.rwlLocked = false → ∃ t : State, exec (.registerWrite r.owner (r.addr i j) r.at.bits v) s =
    .next t ∧ (∀ f ∈ r.fields, f.acc = Acc.rwl → t.rd f i j = s.afterWrite f i j v) ∧ t.rd F.LST_PLAN_STAT_LASTS =
    t.lasts.length ∧ (∀ x ∈ t.lasts, ∀ q ∈ t.operands x, t.rd F.LST_MEMBER_PRESENT x q = b2n (t.rd F.PRT_DISC_OUTCOME
    (t.rd F.LST_MEMBER_PORT x q) == 1 || t.rd F.PRT_DISC_OUTCOME (t.rd F.LST_MEMBER_PORT x q) == 6 || t.rd
    F.PRT_DISC_OUTCOME (t.rd F.LST_MEMBER_PORT x q) == 8)) ∧ t.out = s.out ∧ t.flt = s.flt ∧ t.mem = s.mem)

/-- R17: every register has one owning port class, and a write of a whole register or of a half of it from any other
port class is discarded and sets GLB_ACCESS_ERR.AUTHORITY: no other register changes. (The configuration image is
loaded by the class NVM in stage CONFIG alone, R455.) -/
def Obligations.WriteOfAnotherClassIsDiscarded : Prop :=
  (∀ (s : State) (r : Reg) (i j : Nat) (cls : PortClass) (v : Nat), s.active = true → i < r.at.count1 → j <
    r.at.count2 → cls ≠ r.owner → (cls ≠ PortClass.nvm ∨ s.stage ≠ stageConfig) → ∃ t : State, exec (.registerWrite
    cls (r.addr i j) r.at.bits v) s = .next t ∧ t.rd F.GLB_ACCESS_ERR_AUTHORITY = 1 ∧ (∀ g i' j', g.reg ≠
    .GLB_ACCESS_ERR ∧ g.reg ≠ .GLB_ACCESS_ADDR → t.rd g i' j' = s.rd g i' j') ∧ t.out = s.out) ∧
  (∀ (s : State) (r : Reg) (i j : Nat) (cls : PortClass) (v : Nat), s.active = true → i < r.at.count1 → j <
    r.at.count2 → r.at.bits = 64 → cls ≠ r.owner → (cls ≠ PortClass.nvm ∨ s.stage ≠ stageConfig) → ∃ t : State, exec
    (.lowWordWrite cls (r.addr i j) v) s = .next t ∧ t.rd F.GLB_ACCESS_ERR_AUTHORITY = 1 ∧ (∀ g i' j', g.reg ≠
    .GLB_ACCESS_ERR ∧ g.reg ≠ .GLB_ACCESS_ADDR → t.rd g i' j' = s.rd g i' j') ∧ t.out = s.out) ∧
  (∀ (s : State) (r : Reg) (i j : Nat) (cls : PortClass) (v : Nat), s.active = true → i < r.at.count1 → j <
    r.at.count2 → r.at.bits = 64 → cls ≠ r.owner → (cls ≠ PortClass.nvm ∨ s.stage ≠ stageConfig) → ∃ t : State, exec
    (.highWordWrite cls (r.addr i j + 4) v) s = .next t ∧ t.rd F.GLB_ACCESS_ERR_AUTHORITY = 1 ∧ (∀ g i' j', g.reg ≠
    .GLB_ACCESS_ERR ∧ g.reg ≠ .GLB_ACCESS_ADDR → t.rd g i' j' = s.rd g i' j') ∧ t.out = s.out)

/-- R16: a read of an unmapped address in BAR0 returns zero and sets GLB_ACCESS_ERR.UNMAPPED; a write to an unmapped
address is discarded and sets the same bit. Here of 32 bits, and of 64 bits where both words are unmapped; no other
register changes. -/
def Obligations.UnmappedAddresses : Prop :=
  (∀ (s : State) (cls : PortClass) (a v : Nat), s.active = true → a < 2 ^ 28 → a % 4 = 0 → inRecordWindow a = false →
    inRingWindow a = false → hitAt a = none → ∃ t : State, exec (.registerWrite cls a 32 v) s = .next t ∧ t.rd
    F.GLB_ACCESS_ERR_UNMAPPED = 1 ∧ (∀ g i' j', g.reg ≠ .GLB_ACCESS_ERR ∧ g.reg ≠ .GLB_ACCESS_ADDR → t.rd g i' j' =
    s.rd g i' j')) ∧
  (∀ (s : State) (cls : PortClass) (a v : Nat), s.active = true → a + 4 < 2 ^ 28 → a % 4 = 0 → inRecordWindow a =
    false → inRingWindow a = false → hitAt a = none → inRecordWindow (a + 4) = false → inRingWindow (a + 4) = false →
    hitAt (a + 4) = none → ∃ t : State, exec (.registerWrite cls a 64 v) s = .next t ∧ t.rd F.GLB_ACCESS_ERR_UNMAPPED
    = 1 ∧ (∀ g i' j', g.reg ≠ .GLB_ACCESS_ERR ∧ g.reg ≠ .GLB_ACCESS_ADDR → t.rd g i' j' = s.rd g i' j')) ∧
  (∀ (s : State) (cls : PortClass) (a : Nat), s.active = true → a < 2 ^ 28 → a % 4 = 0 → inRecordWindow a = false →
    inRingWindow a = false → hitAt a = none → (cls = PortClass.host ∨ cls = PortClass.mgmt) → ∃ t : State, exec
    (.rcRegisterRead cls a 32) s = .next t ∧ t.out = s.out ++ [Output.readData cls a 32 0] ∧ t.rd
    F.GLB_ACCESS_ERR_UNMAPPED = 1 ∧ (∀ g i' j', g.reg ≠ .GLB_ACCESS_ERR ∧ g.reg ≠ .GLB_ACCESS_ADDR → t.rd g i' j' =
    s.rd g i' j')) ∧
  (∀ (s : State) (cls : PortClass) (a : Nat), s.active = true → a + 4 < 2 ^ 28 → a % 4 = 0 → inRecordWindow a = false
    → inRingWindow a = false → hitAt a = none → inRecordWindow (a + 4) = false → inRingWindow (a + 4) = false → hitAt
    (a + 4) = none → (cls = PortClass.host ∨ cls = PortClass.mgmt) → ∃ t : State, exec (.rcRegisterRead cls a 64) s =
    .next t ∧ t.out = s.out ++ [Output.readData cls a 64 0] ∧ t.rd F.GLB_ACCESS_ERR_UNMAPPED = 1 ∧ (∀ g i' j', g.reg ≠
    .GLB_ACCESS_ERR ∧ g.reg ≠ .GLB_ACCESS_ADDR → t.rd g i' j' = s.rd g i' j'))

/-- R43: GLB_ACCESS_ADDR captures the address and class of an access error that finds every bit of GLB_ACCESS_ERR
clear, and holds its capture while one is set. Each error is one raise of source 1 (R382). -/
def Obligations.FirstAccessErrorIsCaptured : Prop :=
  (∀ (s : State) (cls : PortClass) (a v : Nat), s.active = true → a < 2 ^ 28 → a % 4 = 0 → inRecordWindow a = false →
    inRingWindow a = false → hitAt a = none → ∃ t : State, exec (.registerWrite cls a 32 v) s = .next t ∧ (s.regBits
    .GLB_ACCESS_ERR 0 0 = 0 → t.rd F.GLB_ACCESS_ADDR_OFFSET = a ∧ t.rd F.GLB_ACCESS_ADDR_CLASS = cls.code) ∧ ((∃ m ∈
    t.flt.inbox, m.1 = s.now ∧ m.2.source = 1 ∧ m.2.n = 1) ∧ t.flt.inbox.length = s.flt.inbox.length + 1) ∧ (s.regBits
    .GLB_ACCESS_ERR 0 0 ≠ 0 → t.rd F.GLB_ACCESS_ADDR_OFFSET = s.rd F.GLB_ACCESS_ADDR_OFFSET ∧ t.rd
    F.GLB_ACCESS_ADDR_CLASS = s.rd F.GLB_ACCESS_ADDR_CLASS)) ∧
  (∀ (s : State) (r : Reg) (i j : Nat) (cls : PortClass) (v : Nat), s.active = true → i < r.at.count1 → j <
    r.at.count2 → cls ≠ r.owner → (cls ≠ PortClass.nvm ∨ s.stage ≠ stageConfig) → ∃ t : State, exec (.registerWrite
    cls (r.addr i j) r.at.bits v) s = .next t ∧ (s.regBits .GLB_ACCESS_ERR 0 0 = 0 → t.rd F.GLB_ACCESS_ADDR_OFFSET =
    r.addr i j ∧ t.rd F.GLB_ACCESS_ADDR_CLASS = cls.code) ∧ ((∃ m ∈ t.flt.inbox, m.1 = s.now ∧ m.2.source = 1 ∧ m.2.n
    = 1) ∧ t.flt.inbox.length = s.flt.inbox.length + 1))

/-- R10, R16, R18: a read of a whole register answers its class with the bits as they stood before the counts of the
same cycle; each RC field is cleared but for those counts (R20), or reloads where its meaning says so, and every
other field keeps its value. In the safe state a read has no such effect (R485). A 64-bit access without a value is
the same read. -/
def Obligations.RegisterReadClearsRC : Prop :=
  (∀ (s : State) (r : Reg) (i j : Nat) (cls : PortClass), s.active = true → i < r.at.count1 → j < r.at.count2 → (cls =
    PortClass.host ∨ cls = PortClass.mgmt) → ∃ t : State, exec (.rcRegisterRead cls (r.addr i j) r.at.bits) s = .next
    t ∧ t.out = s.out ++ [Output.readData cls (r.addr i j) r.at.bits (s.seenBits r i j)] ∧ (∀ f ∈ r.fields, t.rd f i j
    = if f.code i j = Acc.rc then s.rcReload f i j % 2 ^ f.width else s.rd f i j) ∧ (∀ g i' j', g.reg ≠ r ∨ i' ≠ i ∨
    j' ≠ j → t.rd g i' j' = s.rd g i' j')) ∧
  (∀ (s : State) (r : Reg) (i j : Nat) (cls : PortClass), s.powered = true → s.isSafe = true → i < r.at.count1 → j <
    r.at.count2 → (cls = PortClass.host ∨ cls = PortClass.mgmt) → ∃ t : State, exec (.rcRegisterRead cls (r.addr i j)
    r.at.bits) s = .next t ∧ t.out = s.out ++ [Output.readData cls (r.addr i j) r.at.bits (s.seenBits r i j)] ∧ t.regs
    = s.regs) ∧
  (∀ (s : State) (r : Reg) (i j : Nat) (cls : PortClass), s.active = true → i < r.at.count1 → j < r.at.count2 →
    r.at.bits = 64 → (cls = PortClass.host ∨ cls = PortClass.mgmt) → ∃ t : State, exec (.split64BitAccess cls (r.addr
    i j) none) s = .next t ∧ t.out = s.out ++ [Output.readData cls (r.addr i j) 64 (s.seenBits r i j)] ∧ (∀ f ∈
    r.fields, t.rd f i j = if f.code i j = Acc.rc then s.rcReload f i j % 2 ^ f.width else s.rd f i j) ∧ (∀ g i' j',
    g.reg ≠ r ∨ i' ≠ i ∨ j' ≠ j → t.rd g i' j' = s.rd g i' j'))

/-- R11, R12: a read of the low word returns it, clears the register's RC fields and latches the high word for its
class, and a read of the high word that finds the latch returns it and lets it go; without one it returns the
present word. A write of the low word by the owner is held, and a write of the high word applies both; without a
held word it applies the high word alone. -/
def Obligations.HalvesOfWideRegisters : Prop :=
  (∀ (s : State) (r : Reg) (i j : Nat) (cls : PortClass), s.active = true → i < r.at.count1 → j < r.at.count2 →
    r.at.bits = 64 → (cls = PortClass.host ∨ cls = PortClass.mgmt) → ∃ t : State, exec (.lowWordRead cls (r.addr i j))
    s = .next t ∧ t.out = s.out ++ [Output.readData cls (r.addr i j) 32 (s.seenBits r i j % 2 ^ 32)] ∧ t.bus.latch.get
    [cls.code] = some { addr := r.addr i j, high := s.seenBits r i j / 2 ^ 32 } ∧ (∀ f ∈ r.fields, t.rd f i j = if
    f.code i j = Acc.rc then s.rcReload f i j % 2 ^ f.width else s.rd f i j) ∧ (∀ g i' j', g.reg ≠ r ∨ i' ≠ i ∨ j' ≠ j
    → t.rd g i' j' = s.rd g i' j')) ∧
  (∀ (s : State) (r : Reg) (i j : Nat) (cls : PortClass) (x : Nat), s.active = true → i < r.at.count1 → j <
    r.at.count2 → r.at.bits = 64 → (cls = PortClass.host ∨ cls = PortClass.mgmt) → s.bus.latch.get [cls.code] = some
    { addr := r.addr i j, high := x } → ∃ t : State, exec (.highWordRead cls (r.addr i j + 4)) s = .next t ∧ t.out =
    s.out ++ [Output.readData cls (r.addr i j + 4) 32 x] ∧ t.bus.latch.get [cls.code] = none ∧ t.regs = s.regs) ∧
  (∀ (s : State) (r : Reg) (i j : Nat) (cls : PortClass), s.active = true → i < r.at.count1 → j < r.at.count2 →
    r.at.bits = 64 → (cls = PortClass.host ∨ cls = PortClass.mgmt) → s.bus.latch.get [cls.code] = none → ∃ t : State,
    exec (.highWordRead cls (r.addr i j + 4)) s = .next t ∧ t.out = s.out ++ [Output.readData cls (r.addr i j + 4) 32
    (s.seenBits r i j / 2 ^ 32)] ∧ t.regs = s.regs) ∧
  (∀ (s : State) (r : Reg) (i j : Nat) (v : Nat), s.active = true → i < r.at.count1 → j < r.at.count2 → r.at.bits = 64
    → ∃ t : State, exec (.lowWordWrite r.owner (r.addr i j) v) s = .next t ∧ t.bus.held.get [r.owner.code] = some
    { addr := r.addr i j, low := v % 2 ^ 32 } ∧ t.regs = s.regs ∧ t.out = s.out) ∧
  (∀ (s : State) (r : Reg) (i j : Nat) (low v : Nat), s.active = true → i < r.at.count1 → j < r.at.count2 → r.at.bits
    = 64 → r.ownMeaning = false → s.bus.held.get [r.owner.code] = some { addr := r.addr i j, low := low } → ∃ t :
    State, exec (.highWordWrite r.owner (r.addr i j + 4) v) s = .next t ∧ (∀ f ∈ r.fields, t.rd f i j = s.afterWrite f
    i j (low + v % 2 ^ 32 * 2 ^ 32)) ∧ t.bus.held.get [r.owner.code] = none) ∧
  (∀ (s : State) (r : Reg) (i j : Nat) (v : Nat), s.active = true → i < r.at.count1 → j < r.at.count2 → r.at.bits = 64
    → r.ownMeaning = false → s.bus.held.get [r.owner.code] = none → ∃ t : State, exec (.highWordWrite r.owner (r.addr
    i j + 4) v) s = .next t ∧ (∀ f ∈ r.fields, t.rd f i j = if 32 ≤ f.hi then s.afterWrite f i j (withHalf (s.regBits
    r i j) true v) else s.rd f i j))

/-- R10, R484: a 64-bit write at the base of one 64-bit register is one write of it. At any other address it acts as
two 32-bit accesses, the one at the lower address first. -/
def Obligations.Split64BitAccess : Prop :=
  (∀ (s : State) (r : Reg) (i j : Nat) (v : Nat), s.active = true → i < r.at.count1 → j < r.at.count2 → r.at.bits = 64
    → r.ownMeaning = false → ∃ t : State, exec (.split64BitAccess r.owner (r.addr i j) (some v)) s = .next t ∧ (∀ f ∈
    r.fields, t.rd f i j = s.afterWrite f i j v)) ∧
  (∀ (s : State) (cls : PortClass) (a v : Nat), s.active = true → a + 4 < 2 ^ 28 → a % 4 = 0 → wideAt a = none → ∃ t :
    State, exec (.split64BitAccess cls a (some v)) s = .next t ∧ (∀ u : State, exec (.registerWrite cls a 32 (v % 2 ^
    32)) s = .next u → u.active = true → exec (.registerWrite cls (a + 4) 32 (v / 2 ^ 32 % 2 ^ 32)) u = .next t))

/-- R280, R283, R285: a write of a bucket's configuration waits and changes no field; PENDING shows one with CHG 0. A
reset, CHG 1 or 2, takes effect in the next store cycle: every field takes its value and TOKENS becomes the full
burst or 0. A write with CHG 3, or ACTION 3 of a policer, is ignored. -/
def Obligations.BucketConfigurationWrites : Prop :=
  (∀ (s : State) (p v x : Nat), s.active = true → p < 256 → v < 8 → bits x 39 38 ≠ 3 → ∃ t : State, exec
    (.shaperCfgWrite p v x) s = .next t ∧ (t.rd F.SHP_SHAPE_STATE_PENDING p v = (if bits x 39 38 = 0 then 1 else 0)) ∧
    t.rd F.SHP_SHAPE_CFG_RATE p v = s.rd F.SHP_SHAPE_CFG_RATE p v ∧ t.rd F.SHP_SHAPE_CFG_BURST p v = s.rd
    F.SHP_SHAPE_CFG_BURST p v ∧ t.rd F.SHP_SHAPE_STATE_TOKENS p v = s.rd F.SHP_SHAPE_STATE_TOKENS p v ∧
    t.shape.waiting.get [Bucket.shaper.code, p, v] = some (x % 2 ^ 64, s.store)) ∧
  (∀ (s : State) (p v x : Nat), s.active = true → p < 256 → v < 8 → bits x 39 38 = 3 → ∃ t : State, exec
    (.shaperCfgWrite p v x) s = .next t ∧ t.regs = s.regs ∧ t.shape = s.shape) ∧
  (∀ (s : State) (p v x at_ : Nat), s.shape.waiting.wf = true → s.shape.waiting.get [Bucket.shaper.code, p, v] = some
    (x, at_) → (bits x 39 38 = 1 ∨ bits x 39 38 = 2) → at_ < s.store → s.bucketResets.rd F.SHP_SHAPE_CFG_BURST p v =
    bits x 63 40 ∧ s.bucketResets.rd F.SHP_SHAPE_CFG_RATE p v = bits x 23 0 ∧ s.bucketResets.rd
    F.SHP_SHAPE_CFG_OVERHEAD p v = bits x 31 24 ∧ s.bucketResets.shape.waiting.get [Bucket.shaper.code, p, v] = none ∧
    s.bucketResets.rd F.SHP_SHAPE_STATE_TOKENS p v = (if bits x 39 38 = 1 then 256 * bits x 63 40 else 0)) ∧
  (∀ (s : State) (p v x : Nat), s.active = true → p < 256 → v < 8 → bits x 39 38 ≠ 3 → bits x 37 36 ≠ 3 → ∃ t : State,
    exec (.policerCfgWrite p v x) s = .next t ∧ (t.rd F.SHP_POL_STATE_PENDING p v = (if bits x 39 38 = 0 then 1 else
    0)) ∧ t.rd F.SHP_POL_CFG_RATE p v = s.rd F.SHP_POL_CFG_RATE p v ∧ t.rd F.SHP_POL_CFG_BURST p v = s.rd
    F.SHP_POL_CFG_BURST p v ∧ t.rd F.SHP_POL_STATE_TOKENS p v = s.rd F.SHP_POL_STATE_TOKENS p v ∧ t.shape.waiting.get
    [Bucket.policer.code, p, v] = some (x % 2 ^ 64, s.store)) ∧
  (∀ (s : State) (p v x : Nat), s.active = true → p < 256 → v < 8 → (bits x 39 38 = 3 ∨ bits x 37 36 = 3) → ∃ t :
    State, exec (.policerCfgWrite p v x) s = .next t ∧ t.regs = s.regs ∧ t.shape = s.shape) ∧
  (∀ (s : State) (p v x at_ : Nat), s.shape.waiting.wf = true → s.shape.waiting.get [Bucket.policer.code, p, v] = some
    (x, at_) → (bits x 39 38 = 1 ∨ bits x 39 38 = 2) → at_ < s.store → s.bucketResets.rd F.SHP_POL_CFG_BURST p v =
    bits x 63 40 ∧ s.bucketResets.rd F.SHP_POL_CFG_RATE p v = bits x 23 0 ∧ s.bucketResets.rd F.SHP_POL_CFG_OVERHEAD p
    v = bits x 31 24 ∧ s.bucketResets.shape.waiting.get [Bucket.policer.code, p, v] = none ∧ s.bucketResets.rd
    F.SHP_POL_STATE_TOKENS p v = (if bits x 39 38 = 1 then 256 * bits x 63 40 else 0))

/-- R290, R291: a write of SHP_MIR_CFG gives each field its value, but for a SRC of 3 and a MAX_PENDING of 0, and the
session's SEQ starts at 0 when it is enabled. R327: a write of PRT_TIME_NOW sets the time on a grandmaster while no
plan is accepted, and does nothing otherwise. -/
def Obligations.MirrorAndTimeWrites : Prop :=
  (∀ (s : State) (m x : Nat), s.active = true → m < 8 → ∃ t : State, exec (.mirrorCfgWrite m x) s = .next t ∧ t.rd
    F.SHP_MIR_CFG_ENABLE m = bits x 63 63 ∧ (t.rd F.SHP_MIR_CFG_SRC m = (if bits x 62 61 = 3 then s.rd
    F.SHP_MIR_CFG_SRC m else bits x 62 61)) ∧ (t.rd F.SHP_MIR_CFG_MAX_PENDING m = (if bits x 54 44 = 0 then s.rd
    F.SHP_MIR_CFG_MAX_PENDING m else bits x 54 44)) ∧ t.rd F.SHP_MIR_CFG_DIR m = bits x 60 59 ∧ t.rd
    F.SHP_MIR_CFG_TRUNC m = bits x 58 58 ∧ t.rd F.SHP_MIR_CFG_VC m = bits x 57 55 ∧ t.rd F.SHP_MIR_CFG_ANALYSIS m =
    bits x 43 36 ∧ t.rd F.SHP_MIR_CFG_SELECT m = bits x 15 0 ∧ (bits x 63 63 = 1 ∧ s.rd F.SHP_MIR_CFG_ENABLE m = 0 →
    t.shape.mirSeq.get [m] = 0)) ∧
  (∀ (s : State) (ns : Nat), s.active = true → s.flag F.PRT_TIME_CFG_GM = true → s.locked = false → ∃ t : State, exec
    (.timeNowWrite ns) s = .next t ∧ t.rd F.PRT_TIME_NOW_NS = ns % 2 ^ 64 ∧ t.link.timeFrac = 0) ∧
  (∀ (s : State) (ns : Nat), s.active = true → (s.flag F.PRT_TIME_CFG_GM = false ∨ s.locked = true) → ∃ t : State,
    exec (.timeNowWrite ns) s = .next t ∧ t.regs = s.regs ∧ t.link = s.link)

/-- R303, R312 to R314: while no plan is accepted, or the port is fenced, a write of PRT_TEST that selects anything
sets its fields, takes the port to TEST and sets its fence; else it is counted and changes nothing else. Zero ends
the test: the selections are 0, and a port in TEST that has a signal goes to ALIGNING. -/
def Obligations.PortTestModes : Prop :=
  (∀ (s : State) (p x : Nat), s.active = true → p < 256 → (bits x 25 24 = 1 ∨ bits x 25 24 = 2) → (s.locked = false ∨
    s.fenced p = true) → ∃ t : State, exec (.prbsGeneratorSelect p x) s = .next t ∧ t.rd F.PRT_TEST_GEN p = bits x 25
    24 ∧ t.rd F.PRT_TEST_LOOP p = bits x 27 26 ∧ t.rd F.PRT_LINK_STAT_STATE p = linkTest ∧ t.fenced p = true) ∧
  (∀ (s : State) (p x : Nat), s.active = true → p < 256 → (bits x 23 22 = 1 ∨ bits x 23 22 = 2) → (s.locked = false ∨
    s.fenced p = true) → ∃ t : State, exec (.prbsCheckerSelect p x) s = .next t ∧ t.rd F.PRT_TEST_CHK p = bits x 23 22
    ∧ (∀ k < 4, bits x 23 22 ≠ s.rd F.PRT_TEST_CHK p → t.rd F.PRT_PRBS_ERR_LOCK p k = 0 ∧ (t.lane p k).checker = {}) ∧
    t.rd F.PRT_LINK_STAT_STATE p = linkTest ∧ t.fenced p = true) ∧
  (∀ (s : State) (p x : Nat), s.active = true → p < 256 → bits x 27 26 ≠ 0 → (s.locked = false ∨ s.fenced p = true) →
    ∃ t : State, exec (.loopbackSelect p x) s = .next t ∧ t.rd F.PRT_TEST_LOOP p = bits x 27 26 ∧ t.rd
    F.PRT_LINK_STAT_STATE p = linkTest ∧ t.fenced p = true) ∧
  (∀ (s : State) (p x : Nat), s.active = true → p < 256 → bits x 27 26 ≠ 0 → s.locked = true → s.fenced p = false → ∃
    t : State, exec (.loopbackSelect p x) s = .next t ∧ t.regs = (s.inc F.PRT_TEST_STAT_REFUSED 1 p).regs ∧ t.link =
    s.link ∧ t.sched = s.sched) ∧
  (∀ (s : State) (p : Nat), s.active = true → p < 256 → s.rd F.PRT_LINK_STAT_STATE p = linkTest → s.portOff p = false
    → (s.lane p 0).signal = true → ∃ t : State, exec (.testEnd p) s = .next t ∧ t.rd F.PRT_TEST_GEN p = 0 ∧ t.rd
    F.PRT_TEST_CHK p = 0 ∧ t.rd F.PRT_TEST_LOOP p = 0 ∧ t.rd F.PRT_LINK_STAT_STATE p = linkAligning)

/-- R299, R303: ENABLE 0 takes a port, here one with no test selected, OFF and sets its fence; 1 takes a powered port
that is OFF, with its laser module enabled and no test selected, to ALIGNING or NO_SIGNAL. R225, R299: an unlocked
RATE takes the value of either mode, with GUARD, and the port leaves UP. R295: a laser engine that is present and
powered is driven as ENABLE says, its fault cleared, while no block reset holds it low (R385); ENABLE 1 is ignored
while PRESENT is 0. -/
def Obligations.PortAndLaserEnables : Prop :=
  (∀ (s : State) (p x : Nat), s.active = true → p < 256 → s.flag F.PRT_LINK_CFG_ENABLE p = true → x.testBit 31 = false
    → s.testOn p = false → ∃ t : State, exec (.portEnableWrite p x) s = .next t ∧ t.rd F.PRT_LINK_CFG_ENABLE p = 0 ∧
    t.rd F.PRT_LINK_STAT_STATE p = linkOff ∧ t.fenced p = true) ∧
  (∀ (s : State) (p x : Nat), s.active = true → p < 256 → s.flag F.PRT_LINK_CFG_ENABLE p = false → x.testBit 31 = true
    → s.rd F.PRT_LINK_STAT_STATE p = linkOff → s.portOn p = true → s.flag F.PRT_LSM_STAT_ENABLED (engineOfPort p) =
    true → (s.port p).offUntil = none → s.testOn p = false → ∃ t : State, exec (.portEnableWrite p x) s = .next t ∧
    t.rd F.PRT_LINK_CFG_ENABLE p = 1 ∧ (t.rd F.PRT_LINK_STAT_STATE p = (if lanes4.all (fun k => !(s.lane p k).signal)
    then linkNoSignal else linkAligning))) ∧
  (∀ (s : State) (p x : Nat), s.active = true → p < 256 → s.rwlLocked = false → (bits x 30 29 = 1 ∨ bits x 30 29 = 2)
    → bits x 30 29 ≠ s.rd F.PRT_LINK_CFG_RATE p → ∃ t : State, exec (.rateChange p x) s = .next t ∧ t.rd
    F.PRT_LINK_CFG_RATE p = bits x 30 29 ∧ (t.rd F.SCH_PORT_CFG_GUARD p = (if bits x 30 29 = 2 then 117 else 59)) ∧
    t.rd F.PRT_LINK_STAT_STATE p ≠ linkUp) ∧
  (∀ (s : State) (p x : Nat), s.active = true → p < 256 → s.rwlLocked = true → bits x 30 29 ≠ s.rd F.PRT_LINK_CFG_RATE
    p → ∃ t : State, exec (.rateChange p x) s = .next t ∧ t.rd F.PRT_LINK_CFG_RATE p = s.rd F.PRT_LINK_CFG_RATE p ∧
    t.rd F.GLB_ACCESS_ERR_LOCKED_WR = 1) ∧
  (∀ (s : State) (e x : Nat), s.active = true → e < 16 → x.testBit 0 = true → s.flag F.PRT_LSM_STAT_PRESENT e = true →
    s.domainOn (engineDomain e) = true → (s.laser e).resetUntil = none → ∃ t : State, exec (.laserEnableWrite e x) s =
    .next t ∧ t.rd F.PRT_LSM_CTL_ENABLE e = 1 ∧ t.rd F.PRT_LSM_STAT_ENABLED e = 1 ∧ t.rd F.PRT_LSM_STAT_FAULT e = 0) ∧
  (∀ (s : State) (e x : Nat), s.active = true → e < 16 → x.testBit 0 = false → ∃ t : State, exec (.laserEnableWrite e
    x) s = .next t ∧ t.rd F.PRT_LSM_CTL_ENABLE e = 0 ∧ t.rd F.PRT_LSM_STAT_ENABLED e = 0 ∧ t.rd F.PRT_LSM_STAT_FAULT e
    = s.rd F.PRT_LSM_STAT_FAULT e) ∧
  (∀ (s : State) (e x : Nat), s.active = true → e < 16 → x.testBit 0 = true → s.flag F.PRT_LSM_STAT_PRESENT e = false
    → ∃ t : State, exec (.laserEnableWrite e x) s = .next t ∧ t.regs = s.regs)

/-- R393: FORCE takes its written value. R379, R388: while no plan is loaded, an injection of an allocated source
other than 0 raises it once, and SELF_TEST puts the chip in the safe state with its own cause; while one is, neither
does anything. R383, R384: a source's configuration takes the written fields that it may take. -/
def Obligations.FaultRegisterWrites : Prop :=
  (∀ (s : State) (force : Bool), s.active = true → ∃ t : State, exec (.faultPinForce force) s = .next t ∧ t.rd
    F.FLT_MGT_FORCE = b2n force ∧ t.flt.inbox = s.flt.inbox) ∧
  (∀ (s : State) (src : Nat), s.active = true → src < 128 → src ≠ 0 → faultSources.contains src = true → s.planState =
    planEmpty → ∃ t : State, exec (.faultInject src) s = .next t ∧ ((∃ m ∈ t.flt.inbox, m.1 = s.now ∧ m.2.source = src
    ∧ m.2.n = 1 ∧ m.2.detail = 2 ^ 32 - 1) ∧ t.flt.inbox.length = s.flt.inbox.length + 1) ∧ t.regs = s.regs) ∧
  (∀ (s : State), s.active = true → s.planState = planEmpty → ∃ t : State, exec .safeStateSelfTest s = .next t ∧
    t.isSafe = true ∧ t.rd F.FLT_SELF_CAUSE = selfInject ∧ t.rd F.FLT_SRC_STAT_PENDING 0 = 1 ∧ (∀ p < 256, t.fenced p
    = true)) ∧
  (∀ (s : State), s.active = true → s.planState ≠ planEmpty → ∃ t : State, exec .safeStateSelfTest s = .next t ∧
    t.regs = s.regs ∧ t.flt = s.flt) ∧
  (∀ (s : State) (src x : Nat), s.active = true → src < 128 → ∃ t : State, exec (.faultCfgWrite src x) s = .next t ∧
    (∀ f ∈ Reg.fields .FLT_SRC_CFG, t.rd f src = if f.code src 0 = Acc.rw ∧ f.ignores (bits x f.hi f.lo) = false then
    bits x f.hi f.lo else s.rd f src))

/-- R155, R158: a write of OPC_ABORT asks for the abort of the current operation of an OPEN, FLUSH or PAUSED context,
which at the end of the store cycle closes it, here of one with no early item, as CLOSING, and it is IDLE once its
space is free (log 133); it counts STALE on a context with no operation or whose operation is done, and an
undeclared context apart. R218: software sets and clears fences; those that hardware holds, or has set in this store
cycle, stay. R220: a purge drops one pointer a store cycle, after that of the fence, of the lowest last's queue of a
fenced port and counts it. -/
def Obligations.HostAbortAndFences : Prop :=
  (∀ (s : State) (x : Nat), s.active = true → x < 65536 → s.abortable x (s.opnum x) = true → s.marked (.done x) 2 =
    false → ∃ t : State, exec (.hostAbort (2 ^ 31 + x)) s = .next t ∧ t.marked (.ending x (s.opnum x) stAborted) 2 =
    true ∧ t.regs = s.regs) ∧
  (∀ (s : State) (x : Nat), s.abortable x (s.opnum x) = true → (s.op x).early = [] → s.kind x ≠ kParity → s.marks =
    [(s.now, .ending x (s.opnum x) stAborted)] → s.endAsked.ctxState x = ctxClosing ∧ s.endAsked.rd F.OPC_STATE_STATUS
    x = stAborted ∧ s.endAsked.rd F.OPC_FAIL_ABORTED x = min (s.rd F.OPC_FAIL_ABORTED x + 1) (2 ^ 16 - 1) ∧
    s.endAsked.opnum x = (s.opnum x + 1) % 2 ^ 32) ∧
  (∀ (s : State) (x : Nat) (o : OpCtx), s.ctx.entries = [([x], o)] → s.ctxState x = ctxClosing → o.early = [] →
    o.closedAt + 2 ≤ s.arith → s.endClosing.ctxState x = ctxIdle ∧ s.endClosing.rd F.OPC_STATE_EARLY x = 0) ∧
  (∀ (s : State) (x : Nat), s.active = true → x < 65536 → s.ctxState x ≠ ctxUndeclared → (s.abortable x (s.opnum x) =
    false ∨ s.marked (.done x) 2 = true) → ∃ t : State, exec (.hostAbort (2 ^ 31 + x)) s = .next t ∧ t.regs = (s.inc
    F.OPC_DROPS_STALE 1 x).regs ∧ t.ctx = s.ctx) ∧
  (∀ (s : State) (x : Nat), s.active = true → x < 65536 → s.ctxState x = ctxUndeclared → ∃ t : State, exec (.hostAbort
    (2 ^ 31 + x)) s = .next t ∧ t.regs = (s.inc F.OPC_UNDECL_COUNT).regs) ∧
  (∀ (s : State) (i x : Nat), s.active = true → i < 4 → ∃ t : State, exec (.fenceWrite i x) s = .next t ∧ (∀ q < 256,
    t.fenced q = if q / 64 = i then x.testBit (q % 64) || (s.fenced q && s.keepsFence q) else s.fenced q)) ∧
  (∀ (s : State) (p k : Nat) (e : QEntry) (rest : List QEntry), s.active = true → p < 256 → k < 16 →
    s.sched.purging.contains p = true → s.purges p = true → s.targetFenced (s.groupOf p) = true → s.sched.queues.get
    [s.groupOf p, k] = e :: rest → ((List.range k).all (fun j => (s.sched.queues.get [s.groupOf p, j]).isEmpty) =
    true) → ∃ u : State, exec (.queuePurge p) s = .next u.settleAll ∧ u.sched.queues.get [s.groupOf p, k] = rest ∧
    u.rd F.INS_MC_FENCED_DROP_COUNT p = min (s.rd F.INS_MC_FENCED_DROP_COUNT p + 1) (2 ^ 64 - 1))

/-- R254, R255: a write of SCH_CHG with GO starts a change to bank 2 or 3 of an accepted plan unless one is under way
or the plan is retired in the same cycle, and is counted as refused otherwise. When every listed last has drained,
DRAINING turns to SWITCHING; when DRAIN_US has elapsed first, it turns to FAILED and raises source 31. -/
def Obligations.LiveChangeStates : Prop :=
  (∀ (s : State) (x : Nat), s.active = true → x < 2 ^ 32 → x.testBit 31 = true → s.accepted = true → 2 ≤ bits x 25 24
    → s.chgState ≠ chgDraining → s.chgState ≠ chgSwitching → s.marked .retire 2 = false → ∃ t : State, exec
    (.liveChangeGo x) s = .next t ∧ t.chgState = chgDraining ∧ t.rd F.SCH_CHG_STAT_BANK = bits x 25 24 ∧
    t.sched.chgLasts = bits x 15 0 ∧ t.sched.chgSince = s.now ∧ t.rd F.SCH_CHG_STAT_REFUSED = s.rd
    F.SCH_CHG_STAT_REFUSED) ∧
  (∀ (s : State) (x : Nat), s.active = true → x < 2 ^ 32 → x.testBit 31 = true → (s.accepted = false ∨ bits x 25 24 <
    2 ∨ s.chgState = chgDraining ∨ s.chgState = chgSwitching ∨ s.marked .retire 2 = true) → ∃ t : State, exec
    (.liveChangeGo x) s = .next t ∧ t.regs = (s.inc F.SCH_CHG_STAT_REFUSED).regs ∧ t.sched = s.sched) ∧
  (∀ (s : State), s.active = true → s.chgState = chgDraining → s.changeDrained = true → ∃ t : State, exec
    .liveChangeDrained s = .next t ∧ t.chgState = chgSwitching ∧ t.sched.chgSwitch = s.store) ∧
  (∀ (s : State), s.active = true → s.chgState = chgDraining → s.sched.chgSince + us (s.rd F.SCH_CHG_CFG_DRAIN_US) ≤
    s.now → ∃ t : State, exec .liveChangeTimeout s = .next t ∧ t.chgState = chgFailed)

/-- R396, R397: a software trigger and a PERIODIC one, whose period has passed, enter the queue of 64, here behind
what waits of earlier cycles, with their code, the set of EVR_CFG.SET_OTHER and the times of the trigger; when 64
wait, the trigger is discarded and counted. -/
def Obligations.RecorderTriggers : Prop :=
  (∀ (s : State) (x : Nat), s.active = true → s.flag F.EVR_CFG_ENABLE = true → s.evr.queue.length < 64 → s.marked
    .queued 16 = false → ∃ t : State, exec (.softwareTrigger x) s = .next t ∧ t.evr.queue = s.evr.queue ++
    [{ code := 7, source := 0xFF, severity := 0, set := s.rd F.EVR_CFG_SET_OTHER, arg := x % 2 ^ 32, opSec := s.opSec, time := s.planeTime }]
    ∧ t.rd F.EVR_STAT_QUEUE = s.evr.queue.length + 1) ∧
  (∀ (s : State) (x : Nat), s.active = true → s.flag F.EVR_CFG_ENABLE = true → s.evr.queue.length = 64 → s.marked
    .queued 16 = false → ∃ t : State, exec (.softwareTrigger x) s = .next t ∧ t.evr.queue = s.evr.queue ∧ t.rd
    F.EVR_STAT_DROPPED = min (s.rd F.EVR_STAT_DROPPED + 1) (2 ^ 16 - 1) ∧ t.evr.dropped = min (s.evr.dropped + 1) (2 ^
    32 - 1) ∧ t.rd F.EVR_STAT_QUEUE = 64) ∧
  (∀ (s : State), s.powered = true → s.flag F.EVR_CFG_ENABLE = true → s.evr.queue.length < 64 → s.marked .queued 16 =
    false → s.rd F.EVR_CFG_PERIOD_S ≠ 0 → s.evr.periodSec + s.rd F.EVR_CFG_PERIOD_S ≤ s.opSec → ∃ t : State, exec
    .periodicTrigger s = .next t ∧ t.evr.queue = s.evr.queue ++
    [{ code := 8, source := 0xFF, severity := 0, set := s.rd F.EVR_CFG_SET_OTHER, arg := 0, opSec := s.opSec, time := s.planeTime }]
    ∧ t.evr.periodSec = s.opSec)

/-- R396, R398, R399: while ENABLE is 1 the trigger at the head of the queue starts a record in the slot of the next
SEQ, whose GEN is odd; a read that is not answered for 10 µs is missing and its value 0; the complete record has the
next GEN, an even one, and NEXT goes on. PARTIAL counts a record with a read missing. -/
def Obligations.SnapshotIsRecorded : Prop :=
  (∀ (s : State) (x : Trigger) (rest : List Trigger), s.powered = true → s.flag F.EVR_CFG_ENABLE = true →
    s.evr.snapshot = none → s.evr.queue = x :: rest → ∃ t : State, exec .snapshotStart s = .next t ∧ t.evr.queue =
    rest ∧ (∃ p : Snapshot, t.evr.snapshot = some p ∧ p.trig = x ∧ p.since = s.now ∧ p.slot = s.rd F.EVR_NEXT_SEQ %
    4096 ∧ p.missing = []) ∧ (t.evr.sram.get [s.rd F.EVR_NEXT_SEQ % 4096]).gen % 2 = 1 ∧ (t.evr.sram.get [s.rd
    F.EVR_NEXT_SEQ % 4096]).seq = s.rd F.EVR_NEXT_SEQ) ∧
  (∀ (s : State) (p : Snapshot) (i : Nat), s.powered = true → i < 32 → s.evr.snapshot = some p → (p.reads.any (fun r
    => r.1 == i) = true) → i ∉ p.missing → p.since + us 10 ≤ s.now → ∃ t : State, exec (.snapshotReadTimeout i) s =
    .next t ∧ t.evr.snapshot = some { p with missing := p.missing ++ [i] } ∧ t.regs = s.regs) ∧
  (∀ (s : State) (p : Snapshot), s.powered = true → s.flag F.EVR_CFG_ENABLE = true → s.evr.snapshot = some p → ∃ t :
    State, exec .snapshotComplete s = .next t ∧ t.evr.snapshot = none ∧ (t.evr.sram.get [p.slot]).gen =
    (s.evr.sram.get [p.slot]).gen + 1 ∧ (t.evr.sram.get [p.slot]).arg = p.trig.arg ∧ (t.evr.sram.get [p.slot]).trigger
    = p.trig.code ∧ (∀ i ∈ p.missing, (t.evr.sram.get [p.slot]).values.getD i 0 = 0) ∧ t.rd F.EVR_NEXT_SEQ = (s.rd
    F.EVR_NEXT_SEQ + 1) % 2 ^ 64 ∧ (t.rd F.EVR_STAT_PARTIAL = (if p.missing = [] then s.rd F.EVR_STAT_PARTIAL else min
    (s.rd F.EVR_STAT_PARTIAL + 1) (2 ^ 16 - 1))))

/-- R400, R401, R404, R456: 64 stable records are copied to the ring, the last of them to its place there. A selection
clears READY and MISSING, and the selected record's bytes stand in the window with READY; one that is in the ring no
more is MISSING. An operating second counts, and 600 of them later an entry of the persistence area holds the
counters. -/
def Obligations.RingAndPersistence : Prop :=
  (∀ (s : State) (x : Nat), s.active = true → ∃ t : State, exec (.ringRecordSelect x) s = .next t ∧ t.rd
    F.EVR_RING_SEL_SEQ = x % 2 ^ 64 ∧ t.rd F.EVR_RING_STAT_READY = 0 ∧ t.rd F.EVR_RING_STAT_MISSING = 0 ∧
    t.evr.selecting = true) ∧
  (∀ (s : State) (n r : Nat), s.powered = true → s.evr.selecting = true → n = s.rd F.EVR_RING_SEL_SEQ → r = s.rd
    F.EVR_RING_RECORDS → r ≠ 0 → s.rd F.EVR_RING_OLDEST_SEQ ≤ n → n < s.rd F.EVR_NEXT_SEQ → s.aheadOfCopies [s.rd
    F.EVR_RING_BASE + n % r * 320] 320 = false → s.gddrFailed (s.rd F.EVR_RING_BASE + n % r * 320) 320 = none → ∃ t :
    State, exec .ringRecordReady s = .next t ∧ t.evr.window = s.mem.gddr.readN (s.rd F.EVR_RING_BASE + n % r * 320)
    320 ∧ t.rd F.EVR_RING_STAT_READY = 1 ∧ t.evr.selecting = false) ∧
  (∀ (s : State), s.powered = true → s.evr.selecting = true → (s.rd F.EVR_RING_SEL_SEQ < s.rd F.EVR_RING_OLDEST_SEQ ∨
    s.rd F.EVR_NEXT_SEQ ≤ s.rd F.EVR_RING_SEL_SEQ) → ∃ t : State, exec .ringRecordReady s = .next t ∧ t.rd
    F.EVR_RING_STAT_MISSING = 1 ∧ t.rd F.EVR_RING_STAT_READY = s.rd F.EVR_RING_STAT_READY ∧ t.evr.window =
    s.evr.window) ∧
  (∀ (s : State) (n r : Nat), s.active = true → r = s.rd F.EVR_RING_RECORDS → n = s.evr.copied → r ≠ 0 → n + 64 ≤ s.rd
    F.EVR_NEXT_SEQ → stageMemory < s.stage → s.stage < 7 → (s.aheadOfCopies ((List.range 64).map (fun k => s.rd
    F.EVR_RING_BASE + (n + k) % r * 320)) 320 = false) → (s.allocNow (.block (64 * 320)) 19 reqMgt).1.isSome = true →
    ((List.range 64).all (fun k => (s.gddrFailed (s.rd F.EVR_RING_BASE + (n + k) % r * 320) 320).isNone) = true) →
    s.mem.gddr.wf = true → ∃ t : State, exec (.ringCopyBatch 0 []) s = .next t ∧ t.evr.copied = n + 64 ∧
    t.mem.gddr.readN (s.rd F.EVR_RING_BASE + (n + 63) % r * 320) 320 = s.ringBytes ((n + 63) % 4096)) ∧
  (∀ (s : State), s.pwr.good = true → s.pwr.dark = false → ∃ t : State, exec .operatingSecond s = .next t ∧ t.opSec =
    min (s.opSec + 1) (2 ^ 32 - 1) ∧ t.evr.sincePersist = s.evr.sincePersist + 1) ∧
  (∀ (s : State), s.powered = true → 600 ≤ s.evr.sincePersist → s.sec.nvm.wf = true → ∃ t : State, exec
    .persistenceWrite s = .next t ∧ t.evr.sincePersist = 0 ∧ t.boot.entry = (s.boot.entry + 1) % persistEntries ∧
    t.sec.nvm.readN (persistBase + 32 * s.boot.entry) 32 = persistBytes s.boot.entrySeq (s.rd
    F.EVR_OPSEC_POWER_CYCLES) s.opSec ∧ t.regs = s.regs)

/-- R51, R52: a packet enters the ring that its sender chooses, where two buffers are free; in its turn it moves on
into a stop that takes it. R53: at its destination it leaves the ring; when the ejection queue there is full it
passes on, which LAPS counts. R55: one that is on a link that is down is lost. -/
def Obligations.RingPackets : Prop :=
  (∀ (s : State) (ring : Ring) (stop : Nat) (p : RingPacket) (full : Bool), s.powered = true → stop < 24 → p.src < 24
    → p.dst < 24 → p.sized = true → (s.ring.buffers.get [ring.code, prevStop ring stop]).contains p = false → stop =
    p.src → p.src ≠ p.dst → p.kind ≠ RingKind.fault → s.flt.entry = [] → ring = s.chooseRing p.src p.dst → 2 ≤
    s.ringFree ring p.src → s.marked (.message p.src) 8 = false → ∃ t : State, exec (.ringPacketArrive ring stop p
    full) s = .next t ∧ t.ring.buffers.get [ring.code, stop] = s.ring.buffers.get [ring.code, stop] ++ [p] ∧ t.regs =
    s.regs ∧ t.out = s.out) ∧
  (∀ (s : State) (ring : Ring) (stop : Nat) (p : RingPacket) (full : Bool), s.powered = true → stop < 24 → p.src < 24
    → p.dst < 24 → p.sized = true → s.flt.entry = [] → (s.ring.buffers.get [ring.code, prevStop ring stop]).contains p
    = true → s.ringTurn ring (prevStop ring stop) p = true → s.linkDown ring (prevStop ring stop) = false → p.dst =
    stop → full = false → s.ringTakes ring stop = true → ∃ t : State, exec (.ringPacketArrive ring stop p full) s =
    .next t ∧ t.out = s.out ++ [Output.ejected stop p] ∧ t.ring.buffers.get [ring.code, prevStop ring stop] =
    (s.ring.buffers.get [ring.code, prevStop ring stop]).erase p ∧ t.regs = s.regs) ∧
  (∀ (s : State) (ring : Ring) (stop : Nat) (p : RingPacket) (full : Bool), s.powered = true → stop < 24 → p.src < 24
    → p.dst < 24 → p.sized = true → s.flt.entry = [] → (s.ring.buffers.get [ring.code, prevStop ring stop]).contains p
    = true → s.ringTurn ring (prevStop ring stop) p = true → s.linkDown ring (prevStop ring stop) = false → p.dst ≠
    stop → s.ringTakes ring stop = true → ∃ t : State, exec (.ringPacketArrive ring stop p full) s = .next t ∧
    t.ring.buffers.get [ring.code, stop] = s.ring.buffers.get [ring.code, stop] ++ [p] ∧ t.ring.buffers.get
    [ring.code, prevStop ring stop] = (s.ring.buffers.get [ring.code, prevStop ring stop]).erase p ∧ t.regs = s.regs ∧
    t.out = s.out) ∧
  (∀ (s : State) (ring : Ring) (stop : Nat) (p : RingPacket) (full : Bool), s.powered = true → stop < 24 → p.src < 24
    → p.dst < 24 → p.sized = true → s.flt.entry = [] → (s.ring.buffers.get [ring.code, prevStop ring stop]).contains p
    = true → s.ringTurn ring (prevStop ring stop) p = true → s.linkDown ring (prevStop ring stop) = false → p.dst =
    stop → full = true → s.ringTakes ring stop = true → ∃ t : State, exec (.ringPacketArrive ring stop p full) s =
    .next t ∧ t.rd F.GLB_RING_STAT_LAPS = min (s.rd F.GLB_RING_STAT_LAPS + 1) (2 ^ 32 - 1) ∧ t.out = s.out ∧
    t.ring.buffers.get [ring.code, stop] = s.ring.buffers.get [ring.code, stop] ++ [p]) ∧
  (∀ (s : State) (ring : Ring) (stop : Nat) (p : RingPacket) (full : Bool), s.powered = true → stop < 24 → p.src < 24
    → p.dst < 24 → p.sized = true → s.flt.entry = [] → (s.ring.buffers.get [ring.code, prevStop ring stop]).contains p
    = true → s.ringTurn ring (prevStop ring stop) p = true → s.linkDown ring (prevStop ring stop) = true → ∃ t :
    State, exec (.ringPacketArrive ring stop p full) s = .next t ∧ t.ring.buffers.get [ring.code, prevStop ring stop]
    = (s.ring.buffers.get [ring.code, prevStop ring stop]).erase p ∧ t.regs = s.regs ∧ t.out = s.out)

/-- R55, R382: the link that fails is marked in GLB_RING_LINK, source 2 becomes ACTIVE, and the copies of messages and
the packets committed to the link are lost. R51: a link that comes back is unmarked. R421: a host access without an
answer sets RING_TIMEOUT, captured while it was clear, and a read is completed with an abort. -/
def Obligations.RingLinks : Prop :=
  (∀ (s : State) (ring : Ring) (stop : Nat) (ms : List (Nat × Nat)) (ps : List RingPacket), s.powered = true → stop <
    24 → s.flt.entry = [] → (ps.all (fun p => p.kind != RingKind.fault) = true) → ∃ t : State, exec (.ringLinkFail
    ring stop ms ps) s = .next t ∧ t.linkDown ring stop = true ∧ (∀ k < 24, k ≠ stop → t.linkDown ring k = s.linkDown
    ring k) ∧ (s.flt.cond.get [2, stopMgt, 24 * ring.code + stop] = false → t.rd F.FLT_SRC_STAT_ACTIVE 2 = 1) ∧
    (t.flt.flight = s.flt.flight.filter (fun m : Ring × FaultMsg => !(m.1 == ring && ms.contains (m.2.die, m.2.seq))))
    ∧ (∀ p ∈ ps, (s.ring.buffers.get [ring.code, stop]).count p ≤ 1 → (t.ring.buffers.get [ring.code, stop]).contains
    p = false) ∧ (∀ q : RingPacket, q ∉ ps → q.kind ≠ RingKind.fault → (t.ring.buffers.get [ring.code, stop]).count q
    = (s.ring.buffers.get [ring.code, stop]).count q)) ∧
  (∀ (s : State) (ring : Ring) (stop : Nat), s.powered = true → stop < 24 → s.linkDown ring stop = true → ∃ t : State,
    exec (.ringLinkRestore ring stop) s = .next t ∧ t.linkDown ring stop = false ∧ (∀ k < 24, k ≠ stop → t.linkDown
    ring k = s.linkDown ring k) ∧ t.out = s.out) ∧
  (∀ (s : State) (a : Nat) (write : Bool), s.powered = true → a < 2 ^ 28 → a % 4 = 0 → ∃ t : State, exec
    (.ringAccessTimeout a write) s = .next t ∧ t.rd F.HST_ERR_RING_TIMEOUT = 1 ∧ (t.rd F.HST_ERR_ADDR_OFFSET = (if
    s.flag F.HST_ERR_RING_TIMEOUT then s.rd F.HST_ERR_ADDR_OFFSET else a)) ∧ (t.rd F.HST_ERR_ADDR_WRITE = (if s.flag
    F.HST_ERR_RING_TIMEOUT then s.rd F.HST_ERR_ADDR_WRITE else b2n write)) ∧ (t.out = (if write then s.out else s.out
    ++ [Output.completerAbort .host a])))

/-- R471, R473, R481: a READ of a 32-bit register by a peer is answered with its word, and a WRITE of one of the
management class's takes effect as any write and is answered OK; both count RX. A READ whose access is lost is
answered TIMEOUT, and a WRITE in the safe state REFUSED. -/
def Obligations.ManagementRequests : Prop :=
  (∀ (s : State) (src seq k : Nat) (r : Reg) (i j : Nat), s.active = true → src < 2 ^ 48 → seq < 65536 → s.peerOf src
    = some k → s.duplicateOf src seq = none → s.stage ≠ stageFailed → i < r.at.count1 → j < r.at.count2 → r.at.bits =
    32 → ∃ t : State, exec (.mgtRead src seq (r.addr i j) 1 false) s = .next t ∧ t.out = s.out ++ [Output.mgtResponse
    src (PeerLast.payload { seq := seq, type := mgtRead, status := stOk, count := 1, data := [s.seenBits r i j] })] ∧
    t.rd F.SEC_MGT_STAT_RX = min (s.rd F.SEC_MGT_STAT_RX + 1) (2 ^ 16 - 1)) ∧
  (∀ (s : State) (src seq k : Nat) (a n : Nat), s.powered = true → src < 2 ^ 48 → seq < 65536 → s.peerOf src = some k
    → s.duplicateOf src seq = none → s.stage ≠ stageFailed → a % 4 = 0 → 1 ≤ n → n ≤ 256 → ∃ t : State, exec (.mgtRead
    src seq a n true) s = .next t ∧ t.out = s.out ++ [Output.mgtResponse src (PeerLast.payload
    { seq := seq, type := mgtRead, status := stTimeout, count := 0, data := [] })] ∧ t.sec.peers.get [k] = some
    { seq := seq, type := mgtRead, status := stTimeout, count := 0, data := [] }) ∧
  (∀ (s : State) (src seq k : Nat) (r : Reg) (i j x : Nat), s.active = true → src < 2 ^ 48 → seq < 65536 → s.peerOf
    src = some k → s.duplicateOf src seq = none → s.stage ≠ stageFailed → i < r.at.count1 → j < r.at.count2 →
    r.at.bits = 32 → r.owner = PortClass.mgmt → r.ownMeaning = false → s.rwlLocked = false → ∃ t : State, exec
    (.mgtWrite src seq (r.addr i j) 1 x false) s = .next t ∧ (∀ f ∈ r.fields, t.rd f i j = s.afterWrite f i j x) ∧
    t.out = s.out ++ [Output.mgtResponse src (PeerLast.payload
    { seq := seq, type := mgtWrite, status := stOk, count := 1, data := [] })]) ∧
  (∀ (s : State) (src seq k : Nat) (a x : Nat), s.powered = true → s.isSafe = true → src < 2 ^ 48 → seq < 65536 →
    s.peerOf src = some k → s.duplicateOf src seq = none → s.stage ≠ stageFailed → a % 4 = 0 → ∃ t : State, exec
    (.mgtWrite src seq a 1 x false) s = .next t ∧ t.out = s.out ++ [Output.mgtResponse src (PeerLast.payload
    { seq := seq, type := mgtWrite, status := stRefused, count := 1, data := [] })] ∧ t.regs = (s.inc
    F.SEC_MGT_STAT_RX).regs)

/-- R450, R471: a RESET of a peer is answered OK and resets the chip, with its cause recorded and the NVM, the fuses
and the expanders' bytes kept. R466, R467: a DEBUG_OPEN with the right token opens the debug port, erases the
secrets and blows an epoch; one in whose cycle LOCK is written is refused, and the refusal recorded. -/
def Obligations.ManagementReset : Prop :=
  (∀ (s : State) (src seq k : Nat), s.powered = true → src < 2 ^ 48 → seq < 65536 → s.peerOf src = some k →
    s.duplicateOf src seq = none → s.stage ≠ stageFailed → ∃ t : State, exec (.mgtReset src seq) s = .next t ∧ t.rd
    F.FLT_RESET_CAUSE_KIND = resetCommand ∧ t.rd F.FLT_RESET_CAUSE_VALID = 1 ∧ t.rd F.BOOT_STAT_STAGE = stageRom ∧
    t.out = s.out ++ [Output.mgtResponse src (PeerLast.payload
    { seq := seq, type := mgtReset, status := stOk, count := 0, data := [] })] ∧ t.sec.nvm = s.sec.nvm ∧ t.sec.fuses =
    s.sec.fuses ∧ t.mem.cxl = s.mem.cxl) ∧
  (∀ (s : State) (src seq k : Nat) (token : List Byte), s.powered = true → src < 2 ^ 48 → seq < 65536 → s.peerOf src =
    some k → s.duplicateOf src seq = none → s.stage ≠ stageFailed → token.length = 32 → s.debugRefusal token = 0 → ∃ t
    : State, exec (.debugOpen src seq token false none) s = .next t ∧ t.rd F.SEC_STAT_DEBUG_OPEN = 1 ∧ t.rd
    F.SEC_STAT_IDENT_STALE = 1 ∧ t.rd F.SEC_STAT_TOKEN = 0 ∧ t.sec.tapOpen = true ∧ t.sec.secret = false ∧ t.out =
    s.out ++ [Output.mgtResponse src (PeerLast.payload
    { seq := seq, type := mgtDebug, status := stOk, count := 0, data := [] })]) ∧
  (∀ (s : State) (src seq k : Nat) (token : List Byte), s.powered = true → src < 2 ^ 48 → seq < 65536 → s.peerOf src =
    some k → s.duplicateOf src seq = none → s.stage ≠ stageFailed → token.length = 32 → ∃ t : State, exec (.debugOpen
    src seq token true none) s = .next t ∧ t.rd F.SEC_STAT_LAST_REFUSAL = dbgLocked ∧ t.rd F.SEC_STAT_DEBUG_OPEN =
    s.rd F.SEC_STAT_DEBUG_OPEN ∧ t.out = s.out ++ [Output.mgtResponse src (PeerLast.payload
    { seq := seq, type := mgtDebug, status := stRefused, count := dbgLocked, data := [] })])

/-- R470: a frame from a stranger, for another address or of another type counts in STRANGERS, a bad one in BAD. R471:
a request of a peer with a TYPE that is not listed is answered BAD_TYPE. R472: a request with the SEQ of the peer's
previous one is counted and answered with the stored response, and nothing is done. -/
def Obligations.ManagementFramesCounted : Prop :=
  (∀ (s : State) (c : MgtIgnored), s.powered = true → (c = MgtIgnored.stranger ∨ c = MgtIgnored.otherAddress ∨ c =
    MgtIgnored.otherType) → ∃ t : State, exec (.mgtFrameIgnored c) s = .next t ∧ t = s.inc F.SEC_MGT_STAT_STRANGERS) ∧
  (∀ (s : State), s.powered = true → ∃ t : State, exec (.mgtFrameIgnored .bad) s = .next t ∧ t = s.inc
    F.SEC_MGT_STAT_BAD) ∧
  (∀ (s : State) (src seq k : Nat) (type : Nat), s.powered = true → s.peerOf src = some k → s.duplicateOf src seq =
    none → (type = 0 ∨ mgtDebug < type) → ∃ t : State, exec (.mgtFrameIgnored (.unlisted src seq type)) s = .next t ∧
    t.out = s.out ++ [Output.mgtResponse src (PeerLast.payload
    { seq := seq, type := type, status := stBadType, count := 0, data := [] })] ∧ t.regs = (s.inc
    F.SEC_MGT_STAT_RX).regs) ∧
  (∀ (s : State) (src seq : Nat) (r : PeerLast), s.powered = true → src < 2 ^ 48 → seq < 65536 → s.duplicateOf src seq
    = some r → ∃ t : State, exec (.mgtDuplicate src seq) s = .next t ∧ t.out = s.out ++ [Output.mgtResponse src
    r.payload] ∧ t.regs = (s.inc F.SEC_MGT_STAT_DUPLICATES).regs ∧ t.mem = s.mem)

/-- R453, R454, R457: stage ROM reads MIN_SVN from the fuses and goes on with a valid header copy, or stops with code
2. Stage NVM_READ reads both active images. Stage VERIFY goes on with active images that pass, with their versions;
with no firmware whose signature verifies it stops with code 3. R459: a failed check of the NVM, a rail or the PLL
stops boot with its code. -/
def Obligations.BootReadsAndVerifies : Prop :=
  (∀ (s : State) (k : Nat) (l : List Byte), s.powered = true → s.stage = stageRom → s.pwr.holdRom = false → s.header =
    some (k, l) → ∃ t : State, exec .bootRom s = .next t ∧ t.stage = stageNvmRead ∧ t.boot.copy = k ∧ t.rd
    F.BOOT_VERSION_MIN_SVN = s.sec.fuses.minSvn % 2 ^ 16) ∧
  (∀ (s : State), s.powered = true → s.stage = stageRom → s.pwr.holdRom = false → s.header = none → ∃ t : State, exec
    .bootRom s = .next t ∧ t.stage = stageFailed ∧ t.rd F.BOOT_STAT_FAIL_CODE = failHeader) ∧
  (∀ (s : State) (jedec size retries : Nat), s.powered = true → s.stage = stageNvmRead → ∃ t : State, exec
    (.bootNvmRead jedec size retries) s = .next t ∧ t.stage = stageVerify ∧ t.boot.fw = s.slotBytes' false (activeSlot
    s.bootHeader false) ∧ t.boot.cfg = s.slotBytes' true (activeSlot s.bootHeader true) ∧ t.rd F.BOOT_NVM_RETRIES =
    retries % 2 ^ 16) ∧
  (∀ (s : State) (fwA fwB cfgA cfgB : Bool), s.powered = true → s.stage = stageVerify → (s.imagePasses false s.boot.fw
    (if activeSlot s.bootHeader false then fwB else fwA) = true) → (s.imagePasses true s.boot.cfg (if activeSlot
    s.bootHeader true then cfgB else cfgA) = true) → ∃ t : State, exec (.bootVerify fwA fwB cfgA cfgB) s = .next t ∧
    t.stage = stageConfig ∧ t.rd F.BOOT_STAT_FW_SLOT = b2n (activeSlot s.bootHeader false) ∧ t.rd F.BOOT_STAT_CFG_SLOT
    = b2n (activeSlot s.bootHeader true) ∧ t.rd F.BOOT_STAT_FALLBACK = 0 ∧ t.rd F.BOOT_VERSION_FW_VERSION = field
    s.boot.fw 12 2 % 2 ^ 16 ∧ t.boot.fw = s.boot.fw ∧ t.boot.cfg = s.boot.cfg) ∧
  (∀ (s : State) (cfgA cfgB : Bool), s.powered = true → s.stage = stageVerify → ∃ t : State, exec (.bootVerify false
    false cfgA cfgB) s = .next t ∧ t.stage = stageFailed ∧ t.rd F.BOOT_STAT_FAIL_CODE = failFirmware) ∧
  (∀ (s : State) (code : Nat), s.powered = true → s.booting = true → (code = failNvm ∨ code = failRail ∨ code =
    failPll) → ∃ t : State, exec (.bootFail code) s = .next t ∧ t.stage = stageFailed ∧ t.rd F.BOOT_STAT_FAIL_CODE =
    code)

/-- R455, R457, R459: an image whose words do not read, or whose configuration fails its check, stops boot with code
6; else stage MEMORY follows with every channel in use training. R409: when the channels in use train, each is
TRAINED and stage LINKS follows; when one fails, boot stops with code 7. R458: boot is DONE when every enabled port
is ready, and the mailbox is free. -/
def Obligations.BootConfiguresToDone : Prop :=
  (∀ (s : State) (m : Nat) (cl : List Nat), s.powered = true → s.stage = stageConfig → configWords s.boot.cfg = none →
    ∃ t : State, exec (.bootConfig m cl) s = .next t ∧ t.stage = stageFailed ∧ t.rd F.BOOT_STAT_FAIL_CODE =
    failConfigCheck) ∧
  (∀ (s : State) (m : Nat) (cl : List Nat) (ws : List (Nat × Nat)), s.powered = true → s.stage = stageConfig →
    configWords s.boot.cfg = some ws → (ws.any badRole || (s.configLoaded ws (m % 2 ^ 412)).configBad) = true → ∃ t :
    State, exec (.bootConfig m cl) s = .next t ∧ t.stage = stageFailed ∧ t.rd F.BOOT_STAT_FAIL_CODE = failConfigCheck) ∧
  (∀ (s : State) (m : Nat) (cl : List Nat) (ws : List (Nat × Nat)), s.powered = true → s.stage = stageConfig →
    configWords s.boot.cfg = some ws → (ws.any badRole || (s.configLoaded ws (m % 2 ^ 412)).configBad) = false → ∃ t :
    State, exec (.bootConfig m cl) s = .next t ∧ t.stage = stageMemory ∧ t.rd F.FLT_PIN_BOOTING = 0 ∧ t.pwr.marked = m
    % 2 ^ 412 ∧ (∀ c < 16, t.mem.inUse.testBit c = true → t.rd F.MEM_CH_STAT_STATE c = 1)) ∧
  (∀ (s : State) (bad : Nat), s.powered = true → s.stage = stageMemory → ((bitsOf s.mem.inUse 16).all (fun c =>
    !bad.testBit c) = true) → ∃ t : State, exec (.bootMemory bad) s = .next t ∧ t.stage = stageLinks ∧ (∀ c < 16,
    s.mem.inUse.testBit c = true → t.rd F.MEM_CH_STAT_STATE c = 2)) ∧
  (∀ (s : State) (bad c : Nat), s.powered = true → s.stage = stageMemory → c < 16 → s.mem.inUse.testBit c = true →
    bad.testBit c = true → ∃ t : State, exec (.bootMemory bad) s = .next t ∧ t.stage = stageFailed ∧ t.rd
    F.BOOT_STAT_FAIL_CODE = failGddr ∧ t.rd F.MEM_CH_STAT_STATE c = 3) ∧
  (∀ (s : State), s.powered = true → s.stage = stageLinks → ((List.range 256).all (fun p => !s.flag
    F.PRT_LINK_CFG_ENABLE p || s.bootPortReady p) = true) → ∃ t : State, exec .bootLinks s = .next t ∧ t.stage =
    stageDone ∧ t.rd F.HST_MBX_RESP_BUSY = 0)

/-- R440: the written OFF bits of domains with runtime control take their values. R441, R442: a domain that is on and
not wanted goes off, a port with it fenced; the lowest wanted domain is switched on 2 µs after the last, at once or,
for a port or an engine, 200 µs after its switch. -/
def Obligations.DomainSwitching : Prop :=
  (∀ (s : State) (host : Bool) (i x j : Nat), s.active = true → i < 7 → j < 64 → ∃ t : State, exec (.domainOffWrite
    host i x) s = .next t ∧ ((t.rd (if host then F.PWR_HOST_OFF_OFF else F.PWR_MGT_OFF_OFF) i).testBit j = (x.testBit
    j && offBit host (64 * i + j)))) ∧
  (∀ (s : State) (d : Nat), s.powered = true → d < 412 → s.domainWanted d = false → (s.configured = true ∨
    s.pwr.tripped = true) → s.domainOn d = true → ∃ t : State, exec (.domainPowerOff d) s = .next t ∧ t.domainOn d =
    false ∧ (d < 256 → t.fenced d = true)) ∧
  (∀ (s : State) (d : Nat), s.powered = true → d < 412 → s.configured = true → (s.pwr.lastOn.all (fun x => decide (x +
    us 2 ≤ s.now)) = true) → s.domainWanted d = true → s.domainOn d = false → s.pwr.powering.get [d] = none →
    ((List.range d).all (fun e => !(s.domainWanted e && !s.domainOn e && (s.pwr.powering.get [e]).isNone)) = true) → ∃
    t : State, exec .domainPowerOn s = .next t ∧ t.pwr.lastOn = some s.now ∧ t.domainOn d = !(isPortDomain d ||
    isEngineDomain d) ∧ (t.pwr.powering.get [d] = (if isPortDomain d || isEngineDomain d then some s.now else none))) ∧
  (∀ (s : State) (d at1 : Nat), s.powered = true → d < 412 → s.pwr.powering.get [d] = some at1 → at1 + us 200 ≤ s.now
    → ∃ t : State, exec (.domainPowered d) s = .next t ∧ t.domainOn d = true ∧ t.pwr.powering.get [d] = none)

/-- R436, R447 to R449: PWR_GOOD rising with the input at 39.0 V or more powers the package up with every register at
its reset value and boot at stage ROM; below it the power stages wait for that threshold. PWR_GOOD falling, and an
input shutdown, take the package dark. None of them changes the NVM, the fuses or the expanders' bytes. -/
def Obligations.PowerGood : Prop :=
  (∀ (s : State) (v : Nat), s.pwr.good = false → 3900 ≤ v → ∃ t : State, exec (.pwrGoodRise v) s = .next t ∧
    t.pwr.good = true ∧ t.pwr.dark = false ∧ t.regs = State.reset.regs ∧ t.sec.nvm = s.sec.nvm ∧ t.sec.fuses =
    s.sec.fuses ∧ t.mem.cxl = s.mem.cxl) ∧
  (∀ (s : State) (v : Nat), s.pwr.good = false → v < 3900 → ∃ t : State, exec (.pwrGoodRise v) s = .next t ∧
    t.pwr.good = true ∧ t.pwr.waiting = true ∧ t.pwr.dark = s.pwr.dark ∧ t.regs = s.regs) ∧
  (∀ (s : State), s.pwr.good = true → s.pwr.waiting = true → ∃ t : State, exec .inputStartThreshold s = .next t ∧
    t.pwr.dark = false ∧ t.pwr.waiting = false ∧ t.regs = State.reset.regs ∧ t.sec.nvm = s.sec.nvm ∧ t.sec.fuses =
    s.sec.fuses ∧ t.mem.cxl = s.mem.cxl) ∧
  (∀ (s : State), s.pwr.good = true → ∃ t : State, exec .pwrGoodFall s = .next t ∧ t.pwr.good = false ∧ t.powered =
    false ∧ t.regs = {} ∧ t.pwr.tripped = false ∧ t.sec.nvm = s.sec.nvm ∧ t.sec.fuses = s.sec.fuses ∧ t.mem.cxl =
    s.mem.cxl) ∧
  (∀ (s : State), s.pwr.good = true → s.pwr.dark = false → ∃ t : State, exec .inputShutdown s = .next t ∧ t.pwr.good =
    true ∧ t.powered = false ∧ t.regs = {} ∧ t.sec.nvm = s.sec.nvm ∧ t.sec.fuses = s.sec.fuses ∧ t.mem.cxl =
    s.mem.cxl)

/-- R437, R443 to R446, R448, R450: an input sample gives volts, amps, watts and the extremes; a temperature at or
above TRIP in two readings in a row trips, which raises source 11; an unlock of the root PLL counts; a rail fault is
recorded and raised. RESET_N low resets the chip with its cause and holds it, and its rise lets it go. -/
def Obligations.MeasurementsAndPins : Prop :=
  (∀ (s : State) (v a : Nat), s.powered = true → v < 65536 → a < 65536 → ∃ t : State, exec (.inputSample v a) s =
    .next t ∧ t.rd F.PWR_INPUT_VOLTS = v ∧ t.rd F.PWR_INPUT_AMPS = a ∧ t.rd F.PWR_INPUT_WATTS = min (v * a / 10000)
    65535 ∧ (s.rd F.PWR_INPUT_EXT_MAX < 65536 → t.rd F.PWR_INPUT_EXT_MAX = max (s.rd F.PWR_INPUT_EXT_MAX) v) ∧ (t.rd
    F.PWR_INPUT_EXT_MIN = (if s.rd F.PWR_INPUT_VOLTS = 0 then v else min (s.rd F.PWR_INPUT_EXT_MIN) v))) ∧
  (∀ (s : State) (stop rail : Nat), s.powered = true → stop < 24 → rail < 256 → ∃ t : State, exec (.railFault stop
    rail) s = .next t ∧ t.rd F.PWR_RAIL_VALID = 1 ∧ t.rd F.PWR_RAIL_STOP = stop ∧ t.rd F.PWR_RAIL_RAIL = rail ∧ t.rd
    F.PWR_RAIL_EVENTS = min (s.rd F.PWR_RAIL_EVENTS + 1) (2 ^ 32 - 1) ∧ (∃ m : FaultMsg, (s.now, m) ∈ t.flt.inbox ∧
    m.source = 9 ∧ m.n = 1 ∧ t.flt.inbox.length = s.flt.inbox.length + 1)) ∧
  (∀ (s : State) (l : List Nat) (k : Nat), s.powered = true → l.length = 40 → k < 40 → (s.rd F.PWR_THERM_CFG_TRIP :
    Int) * 8 ≤ toSigned 16 (l.getD k 0) → s.pwr.hot.testBit k = true → s.pwr.tripped = false → ∃ t : State, exec
    (.thermalSample l) s = .next t ∧ t.rd F.PWR_TEMP_TEMP k = l.getD k 0 % 2 ^ 16 ∧ t.pwr.tripped = true ∧ (∃ m ∈
    t.flt.inbox, m.2.source = 11)) ∧
  (∀ (s : State) (l : List Nat), s.powered = true → l.length = 40 → s.pwr.hot = 0 → ∃ t : State, exec (.thermalSample
    l) s = .next t ∧ t.pwr.tripped = s.pwr.tripped ∧ (∀ k < 40, t.rd F.PWR_TEMP_TEMP k = l.getD k 0 % 2 ^ 16 ∧
    (t.pwr.hot.testBit k = true ↔ (s.rd F.PWR_THERM_CFG_TRIP : Int) * 8 ≤ toSigned 16 (l.getD k 0)))) ∧
  (∀ (s : State) (on : Bool), s.powered = true → ∃ t : State, exec (.pllLockChange on) s = .next t ∧ t.rd
    F.PWR_CLK_STAT_LOCK = b2n on ∧ (t.rd F.PWR_CLK_STAT_UNLOCKS = (if !on && s.flag F.PWR_CLK_STAT_LOCK then min (s.rd
    F.PWR_CLK_STAT_UNLOCKS + 1) (2 ^ 16 - 1) else s.rd F.PWR_CLK_STAT_UNLOCKS))) ∧
  (∀ (s : State), s.powered = true → ∃ t : State, exec .resetN s = .next t ∧ t.pwr.inReset = true ∧ t.rd
    F.FLT_RESET_CAUSE_KIND = resetPin ∧ t.rd F.BOOT_STAT_STAGE = stageRom ∧ t.out = s.out ∧ t.sec.nvm = s.sec.nvm ∧
    t.sec.fuses = s.sec.fuses ∧ t.mem.cxl = s.mem.cxl) ∧
  (∀ (s : State) (b : Nat), s.pwr.inReset = true → b < 2048 → ∃ t : State, exec (.resetNRelease b) s = .next t ∧
    t.pwr.inReset = false ∧ t.pwr.boardId = b ∧ t.regs = s.regs)

/-- R422, R424: a command that no order of the management port contradicts is decided: with a code other than 0 it is
refused and no operation changes, else its operation runs in its slot with the arguments of the decision, at once or
after the delay for which BUSY stands (log 139). R474: while BUSY it is discarded. R430: ABORT ends the operation of
a slot ABORTED with code 0x48. R420: the loss of the host link ends the DMA operations, and the mailbox's registers
read their reset values. R429, R431: an operation whose internal access is lost ends FAILED with 0x4A, and a member
replacement whose member is PRESENT ends DONE. -/
def Obligations.MailboxDecides : Prop :=
  (∀ (s : State) (value : Nat) (c : MbxCmd), s.active = true → (s.sec.orders.all (fun o => o.cycle != s.mgmtCycle ||
    o.host) = true) → s.marked .reset 16 = false → value.testBit 63 = true → s.flag F.HST_MBX_RESP_BUSY = false → c =
    s.mbxCmd value → s.mbxCode c = 0 → c.opcode ≠ oAbort → c.opcode ≠ oMemberReplace → ∃ t : State, exec
    (.mbxCommandIssue value 0) s = .next t ∧ t.rd F.HST_MBX_RESP_CODE = 0 ∧ t.rd F.HST_MBX_RESP_TAG = c.tag ∧ t.rd
    F.HST_MBX_RESP_OPCODE = c.opcode ∧ t.rd F.HST_OP_DETAIL_DETAIL c.slot = 0 ∧ t.hostOp c.slot = some
    { opcode := c.opcode, tag := c.tag, irq := c.irq, flags := c.flags, args := c.args, since := s.now } ∧ t.rd
    F.HST_OP_WORD c.slot = (opRunning * 2 ^ 60 + c.tag * 2 ^ 40 + c.opcode * 2 ^ 32) % 2 ^ 64) ∧
  (∀ (s : State) (value : Nat) (c : MbxCmd), s.active = true → (s.sec.orders.all (fun o => o.cycle != s.mgmtCycle ||
    o.host) = true) → s.marked .reset 16 = false → value.testBit 63 = true → s.flag F.HST_MBX_RESP_BUSY = false → c =
    s.mbxCmd value → s.mbxCode c ≠ 0 → ∃ t : State, exec (.mbxCommandIssue value 0) s = .next t ∧ t.rd
    F.HST_MBX_RESP_CODE = s.mbxCode c ∧ t.rd F.HST_MBX_RESP_TAG = c.tag ∧ t.rd F.HST_MBX_RESP_OPCODE = c.opcode ∧
    t.host.ops = s.host.ops) ∧
  (∀ (s : State) (value delay : Nat), s.active = true → s.marked .reset 16 = false → value.testBit 63 = true → s.flag
    F.HST_MBX_RESP_BUSY = true → ∃ t : State, exec (.mbxCommandIssue value delay) s = .next t ∧ t.rd
    F.HST_ERR_CMD_DISCARD = 1 ∧ t.host = s.host ∧ t.rd F.HST_MBX_RESP_CODE = s.rd F.HST_MBX_RESP_CODE) ∧
  (∀ (s : State) (value delay : Nat), s.active = true → (s.sec.orders.all (fun o => o.cycle != s.mgmtCycle || o.host)
    = true) → s.marked .reset 16 = false → value.testBit 63 = true → s.flag F.HST_MBX_RESP_BUSY = false → delay ≠ 0 →
    ∃ t : State, exec (.mbxCommandIssue value delay) s = .next t ∧ t.rd F.HST_MBX_RESP_BUSY = 1 ∧ t.rd
    F.HST_MBX_RESP_CODE = s.rd F.HST_MBX_RESP_CODE ∧ t.host.deciding = some (value, s.now + min delay (us 2)) ∧
    t.host.ops = s.host.ops) ∧
  (∀ (s : State) (value at_ : Nat), s.host.deciding = some (value, at_) → at_ ≤ s.now → s.mailboxTick.rd
    F.HST_MBX_RESP_BUSY = 0 ∧ s.mailboxTick.rd F.HST_MBX_RESP_CODE = s.mbxCode (s.mbxCmd value) ∧ s.mailboxTick.rd
    F.HST_MBX_RESP_TAG = (s.mbxCmd value).tag ∧ s.mailboxTick.host.deciding = none) ∧
  (∀ (s : State) (slot : Nat) (op : LongOp) (tag : Nat), s.active = true → (s.sec.orders.all (fun o => o.cycle !=
    s.mgmtCycle || o.host) = true) → s.marked .reset 16 = false → slot < 8 → s.flag F.HST_MBX_RESP_BUSY = false →
    s.hostOp slot = some op → op.opcode ≠ oPlanRetire → (op.opcode = oPlanLoad → s.planState = planEmpty) → ∃ t :
    State, exec (.mbxAbort slot tag) s = .next t ∧ t.hostOp slot = none ∧ t.rd F.HST_OP_WORD slot = opWord opAborted
    cAborted op % 2 ^ 64) ∧
  (∀ (s : State) (slot : Nat) (op : LongOp) (detail : Nat), s.active = true → slot < 8 → s.hostOp slot = some op →
    op.opcode ≠ oPlanLoad → ∃ t : State, exec (.longOperationEnd slot (some (cRingTimeout, detail))) s = .next t ∧
    t.hostOp slot = none ∧ t.rd F.HST_OP_WORD slot = opWord opFailed cRingTimeout op % 2 ^ 64 ∧ t.rd
    F.HST_OP_DETAIL_DETAIL slot = detail % 2 ^ 64) ∧
  (∀ (s : State) (slot : Nat) (op : LongOp) (l rank port ident r : Nat), s.active = true → slot < 8 → s.opIn slot
    oMemberReplace = some op → op.loading = true → replaceArgs op.args = (l, rank, port, ident) → s.operandOf l rank =
    some r → s.flag F.LST_MEMBER_PRESENT l r = true → s.keepsFence port = false → ∃ t : State, exec (.longOperationEnd
    slot none) s = .next t ∧ t.fenced port = false ∧ t.hostOp slot = none ∧ t.rd F.HST_OP_WORD slot = opWord opDone 0
    op % 2 ^ 64) ∧
  (∀ (s : State) (flr : Bool), s.powered = true → s.flag F.HST_LINK_STAT_UP = true → s.slotOf oPlanLoad = none → ∃ t :
    State, exec (.hostLinkDown flr) s = .next t ∧ t.rd F.HST_LINK_STAT_UP = b2n flr ∧ (t.rd F.HST_LINK_STAT_DOWNS =
    (if flr then s.rd F.HST_LINK_STAT_DOWNS else min (s.rd F.HST_LINK_STAT_DOWNS + 1) (2 ^ 16 - 1))) ∧ t.rd
    F.HST_MBX_RESP_BUSY = b2n (s.rd F.BOOT_STAT_STAGE != 6) ∧ (∀ i < 8, t.rd F.HST_OP_WORD i = 0) ∧ t.host.deciding =
    none ∧ t.rd F.HST_MBX_RESP_CODE = 0 ∧ t.rd F.HST_ERR_DMA_ERR = 0 ∧ (∀ i < 8, ∀ op : LongOp, s.hostOp i = some op →
    t.hostOp i = (if isDmaOp op.opcode then none else some op)) ∧ (flr = false → ∃ m ∈ t.flt.inbox, m.2.source = 51))

/-- R425, R426: an image that cannot be read, or whose form is bad, ends the load FAILED; a good one writes its
records, the last word here, is kept with its digest, and the plan is CHECKING. R151 to R153: the first check that
fails and may not be tolerated returns the plan to EMPTY with its code; a plan whose only such failure is 0x0B is
DEGRADED, and is accepted by its command; else it is ACCEPTED. R154: a DEGRADED plan retires at once, an accepted
one goes RETIRING, and is EMPTY when every context is IDLE. -/
def Obligations.PlansLoadAndEnd : Prop :=
  (∀ (s : State) (slot : Nat) (op : LongOp) (n : Nat), s.active = true → slot < 8 → s.opIn slot oPlanLoad = some op →
    op.loading = false → ∃ t : State, exec (.planLoad slot (.failed n)) s = .next t ∧ t.rd F.HST_ERR_DMA_ERR = 1 ∧
    t.hostOp slot = none ∧ t.rd F.HST_OP_WORD slot = opWord opFailed cDmaErr
    { op with progress := min n (ceilDiv (op.args.getD 1 0) 4096 - 1) } % 2 ^ 64) ∧
  (∀ (s : State) (slot : Nat) (op : LongOp) (l : List Byte), s.active = true → slot < 8 → s.opIn slot oPlanLoad = some
    op → op.loading = false → (s.undoPlan.stageImage (ceilDiv (op.args.getD 1 0) 131072)).isSome = true → planWords
    ((l ++ List.replicate (op.args.getD 1 0) 0).take (op.args.getD 1 0)) = none → ∃ t : State, exec (.planLoad slot
    (.image l)) s = .next t ∧ t.hostOp slot = none ∧ t.rd F.HST_OP_WORD slot = opWord opFailed cBadImage
    { op with progress := ceilDiv (op.args.getD 1 0) 4096 } % 2 ^ 64) ∧
  (∀ (s : State) (slot : Nat) (op : LongOp) (l : List Byte) (ws : List (Hit × Nat)) (h : Hit) (v : Nat), s.active =
    true → slot < 8 → s.opIn slot oPlanLoad = some op → op.loading = false → (s.undoPlan.stageImage (ceilDiv
    (op.args.getD 1 0) 131072)).isSome = true → planWords ((l ++ List.replicate (op.args.getD 1 0) 0).take
    (op.args.getD 1 0)) = some (ws ++ [(h, v)]) → ∃ t : State, exec (.planLoad slot (.image l)) s = .next t ∧
    t.planState = planChecking ∧ t.hostOp slot = some
    { op with loading := true, progress := ceilDiv (op.args.getD 1 0) 4096 } ∧ t.host.planFw = field ((l ++
    List.replicate (op.args.getD 1 0) 0).take (op.args.getD 1 0)) 16 32 ∧ t.host.planDum = field ((l ++ List.replicate
    (op.args.getD 1 0) 0).take (op.args.getD 1 0)) 48 32 ∧ t.host.planRole = field ((l ++ List.replicate (op.args.getD
    1 0) 0).take (op.args.getD 1 0)) 80 1 % 4 ∧ t.host.planDigest = Config.shake256 ((l ++ List.replicate
    (op.args.getD 1 0) 0).take (op.args.getD 1 0)) % 2 ^ 256 ∧ (h.reg ≠ .PRT_LINK_CFG → h.high = false → ∀ f ∈
    h.reg.fields, f.code h.i h.j = Acc.rwl → f.hi < 32 → f.ignores (bits v f.hi f.lo) = false → t.rd f h.i h.j = bits
    v f.hi f.lo)) ∧
  (∀ (s : State) (slot : Nat) (op : LongOp), s.active = true → s.slotOf oPlanLoad = some slot → s.hostOp slot = some
    op → op.loading = true → s.planState = planChecking → ((s.takeOutcomes.planChecks.filter (fun c => c.2.1)).all
    (fun c => c.2.2 && c.1 != 0x0B) = true) → ∃ t : State, exec .planCheck s = .next t ∧ t.planState = planAccepted ∧
    t.rd F.LST_PLAN_STAT_STATUS = 0 ∧ t.hostOp slot = none ∧ t.rd F.HST_OP_WORD slot = opWord opDone 0 op % 2 ^ 64) ∧
  (∀ (s : State) (slot : Nat) (op : LongOp) (c : Nat × Bool × Bool), s.active = true → s.slotOf oPlanLoad = some slot
    → s.hostOp slot = some op → op.loading = true → s.planState = planChecking → ((s.takeOutcomes.planChecks.filter
    (fun c => c.2.1)).find? (fun c => !c.2.2) = some c) → ∃ t : State, exec .planCheck s = .next t ∧ t.planState =
    planEmpty ∧ t.rd F.LST_PLAN_STAT_STATUS = c.1 ∧ t.hostOp slot = none ∧ t.rd F.HST_OP_WORD slot = opWord opFailed
    c.1 op % 2 ^ 64) ∧
  (∀ (s : State) (slot : Nat) (op : LongOp), s.active = true → s.slotOf oPlanLoad = some slot → s.hostOp slot = some
    op → op.loading = true → s.planState = planChecking → ((s.takeOutcomes.planChecks.filter (fun c => c.2.1)).all
    (fun c => c.2.2) = true) → ((s.takeOutcomes.planChecks.filter (fun c => c.2.1)).any (fun c => c.1 == 0x0B) = true)
    → ∃ t : State, exec .planCheck s = .next t ∧ t.planState = planDegraded ∧ t.rd F.LST_PLAN_STAT_STATUS = 0x0B ∧
    t.hostOp slot = none ∧ t.rd F.HST_OP_WORD slot = opWord opDone 0x0B op % 2 ^ 64) ∧
  (∀ (s : State) (slot : Nat) (op : LongOp), s.active = true → slot < 8 → s.opIn slot oAcceptDegraded = some op →
    s.planState = planDegraded → ∃ t : State, exec (.planAcceptDegraded slot) s = .next t ∧ t.planState = planAccepted
    ∧ t.rd F.LST_PLAN_STAT_STATUS = 0 ∧ t.hostOp slot = none ∧ t.rd F.HST_OP_WORD slot = opWord opDone 0 op % 2 ^ 64) ∧
  (∀ (s : State) (slot : Nat) (op : LongOp), s.active = true → slot < 8 → s.opIn slot oPlanRetire = some op →
    s.planState = planDegraded → ∃ t : State, exec (.planRetire slot) s = .next t.settleAll ∧ t.planState = planEmpty
    ∧ t.hostOp slot = none ∧ t.rd F.HST_OP_WORD slot = opWord opDone 0 op % 2 ^ 64) ∧
  (∀ (s : State) (slot : Nat) (op : LongOp), s.active = true → slot < 8 → s.opIn slot oPlanRetire = some op →
    s.planState = planAccepted → ∃ t : State, exec (.planRetire slot) s = .next t.settleAll ∧ t.planState =
    planRetiring ∧ t.hostOp slot = some op) ∧
  (∀ (s : State) (slot : Nat) (op : LongOp), s.active = true → s.planState = planRetiring → s.allIdle = true →
    s.slotOf oPlanRetire = some slot → s.hostOp slot = some op → ∃ t : State, exec .planRetired s = .next t ∧
    t.planState = planEmpty ∧ t.hostOp slot = none ∧ t.rd F.HST_OP_WORD slot = opWord opDone 0 op % 2 ^ 64)

/-- R336: REMAP succeeds and takes its ports to OUTCOME 8, or ends with code 0x49. R364, R429: MEMBER_REPLACE writes
the IDENT and waits, and times out with 0x47. R432: a unit of MEM_READ is written to the host, one of MEM_WRITE is
stored, a failing unit ends the command, and a write to an expander that completes with an error is counted and made
again (R416). R463, R464: ATTEST, IDENT_READ, IMAGE_WRITE, SVN_COMMIT and DEBUG_TOKEN_SET write the report, the key
with the certificates, the inactive slot (made active if its image passes), the fuses and the token digest. -/
def Obligations.HostCommandsTakeEffect : Prop :=
  (∀ (s : State) (slot : Nat) (op : LongOp), s.active = true → slot < 8 → s.opIn slot oRemap = some op → s.remapOk
    (namedPorts op.args) = true → ∃ t : State, exec (.remap slot) s = .next t ∧ (∀ p ∈ namedPorts op.args, t.rd
    F.PRT_DISC_OUTCOME p = 8) ∧ t.hostOp slot = none ∧ t.rd F.HST_OP_WORD slot = opWord opDone 0 op % 2 ^ 64) ∧
  (∀ (s : State) (slot : Nat) (op : LongOp), s.active = true → slot < 8 → s.opIn slot oRemap = some op → s.remapOk
    (namedPorts op.args) = false → ∃ t : State, exec (.remap slot) s = .next t ∧ (∀ p < 256, t.rd F.PRT_DISC_OUTCOME p
    = s.rd F.PRT_DISC_OUTCOME p) ∧ t.link = s.link ∧ t.hostOp slot = none ∧ t.rd F.HST_OP_WORD slot = opWord opFailed
    cRemapRefused op % 2 ^ 64) ∧
  (∀ (s : State) (slot : Nat) (op : LongOp) (l rank port ident r : Nat), s.active = true → slot < 8 → s.opIn slot
    oMemberReplace = some op → s.host.deciding = none → op.loading = false → replaceArgs op.args = (l, rank, port,
    ident) → s.operandOf l rank = some r → ∃ t : State, exec (.memberReplace slot) s = .next t ∧ t.rd
    F.LST_MEMBER_IDENT l r = ident ∧ t.hostOp slot = some { op with loading := true, since := s.now }) ∧
  (∀ (s : State) (slot : Nat) (op : LongOp) (n : Nat), s.active = true → slot < 8 → s.opIn slot oMemberReplace = some
    op → op.loading = true → n = bits (op.args.getD 1 0) 31 0 → n ≠ 0 → op.since + ms n ≤ s.now → ∃ t : State, exec
    (.memberReplaceTimeout slot) s = .next t ∧ t.hostOp slot = none ∧ t.rd F.HST_OP_WORD slot = opWord opFailed
    cTimeout op % 2 ^ 64) ∧
  (∀ (s : State) (slot : Nat) (op : LongOp) (sp a h n : Nat) (l : List Byte) (u : State), s.active = true → slot < 8 →
    s.opIn slot oMemRead = some op → n = op.args.getD 2 0 / 4096 → op.progress < n → sp = memSpace op.args → a =
    memAddr op.args + 4096 * op.progress → h = op.args.getD 1 0 + 4096 * op.progress → (s.allocNow (.block 4096) 17
    reqMgt).1.isSome = true → (sp = 0 → s.aheadOfHost [a] 4096 = false) → s.spaceUp sp a = true → (sp = 3 →
    s.mem.keyed = true) → s.readUnit sp a = (some l, u) → ∃ t : State, exec (.memRead slot 1 none) s = .next t ∧ s.out
    ++ [.hostWrite h l] <+: t.out ∧ (t.hostOp slot = (if op.progress + 1 = n then none else some
    { op with progress := op.progress + 1, part := true }))) ∧
  (∀ (s : State) (slot : Nat) (op : LongOp) (sp a n : Nat) (l : List Byte), s.active = true → slot < 8 → s.opIn slot
    oMemWrite = some op → n = op.args.getD 2 0 / 4096 → op.progress < n → sp = memSpace op.args → (sp = 1 ∨ sp = 2) →
    a = memAddr op.args + 4096 * op.progress → s.cxlUp (sp - 1) = true → (s.mem.cxl.get [sp - 1]).wf = true →
    (s.allocNow (.block 4096) 17 reqMgt).1.isSome = true → l.length = 4096 → ∃ t : State, exec (.memWrite slot [l]
    none) s = .next t ∧ t.cxlRead (sp - 1) a 4096 = l ∧ (t.hostOp slot = (if op.progress + 1 = n then none else some
    { op with progress := op.progress + 1, part := true }))) ∧
  (∀ (s : State) (slot : Nat) (op : LongOp) (sp a n : Nat), s.active = true → slot < 8 → s.opIn slot oMemWrite = some
    op → n = op.args.getD 2 0 / 4096 → op.progress < n → sp = memSpace op.args → a = memAddr op.args + 4096 *
    op.progress → s.spaceUp sp a = true → (sp = 3 → s.mem.keyed = true) → (sp = 0 → s.aheadOfHost [a] 4096 = false) →
    ∃ t : State, exec (.memWrite slot [] (some .dma)) s = .next t ∧ t.rd F.HST_ERR_DMA_ERR = 1 ∧ t.rd
    F.HST_OP_DETAIL_DETAIL slot = (op.args.getD 1 0 + 4096 * op.progress) % 2 ^ 64 ∧ t.mem = s.mem ∧ t.hostOp slot =
    none ∧ t.rd F.HST_OP_WORD slot = opWord opFailed cDmaErr op % 2 ^ 64) ∧
  (∀ (s : State) (slot : Nat) (op : LongOp), s.active = true → slot < 8 → s.opIn slot oAttest = some op → s.sec.secret
    = true → op.args.getD 0 0 + 30048 ≤ 2 ^ 64 → ∃ t : State, exec (.attest slot false) s = .next t ∧ (∃ v : Nat,
    s.out ++ [.hostWrite (op.args.getD 0 0) (s.attestBody op.args ++ bytesLE signatureSize v)] <+: t.out) ∧ t.hostOp
    slot = none ∧ t.rd F.HST_OP_WORD slot = opWord opDone 0 op % 2 ^ 64) ∧
  (∀ (s : State) (slot : Nat) (op : LongOp), s.active = true → slot < 8 → s.opIn slot oIdentRead = some op → ∃ t :
    State, exec (.identRead slot false) s = .next t ∧ s.out ++ [.hostWrite (op.args.getD 0 0) (bytesLE 64
    s.sec.storedKey ++ s.sec.nvm.readN certBase certSize)] <+: t.out ∧ t.hostOp slot = none ∧ t.rd F.HST_OP_WORD slot
    = opWord opDone 0 op % 2 ^ 64) ∧
  (∀ (s : State) (slot : Nat) (op : LongOp) (sp a n x : Nat), s.active = true → slot < 8 → s.opIn slot oMemWrite =
    some op → n = op.args.getD 2 0 / 4096 → op.progress < n → sp = memSpace op.args → sp ≠ 0 → a = memAddr op.args +
    4096 * op.progress → s.spaceUp sp a = true → (sp = 3 → s.mem.keyed = true) → ∃ t : State, exec (.memWrite slot []
    (some (.uncorr x))) s = .next t ∧ t.rd F.MEM_CXL_ERR_WRITE_FAIL (s.spacePort sp a) = min (s.rd
    F.MEM_CXL_ERR_WRITE_FAIL (s.spacePort sp a) + 1) (2 ^ F.MEM_CXL_ERR_WRITE_FAIL.width - 1) ∧ t.hostOp slot = some
    op ∧ t.mem = s.mem) ∧
  (∀ (s : State) (slot : Nat) (op : LongOp) (l : List Byte) (b signed : Bool) (u : State), s.active = true → slot < 8
    → s.opIn slot oImageWrite = some op → l.length = op.args.getD 1 0 → b = !activeSlot s.bootHeader (op.flags.testBit
    0) → u = s.program (nvmSlot (op.flags.testBit 0) b) (ceilDiv l.length 4096 * 4096) l → s.sec.nvm.wf = true →
    l.length ≤ nvmSlotSize (op.flags.testBit 0) → ∃ t : State, exec (.imageWrite slot l signed) s = .next t ∧
    t.sec.nvm.readN (nvmSlot (op.flags.testBit 0) b) l.length = l ∧ (t.boot = (if u.imagePasses (op.flags.testBit 0)
    (u.slotBytes' (op.flags.testBit 0) b) signed then
    { s.boot with copy := 1 - s.boot.copy, seq := (s.boot.seq + 1) % 2 ^ 32 } else s.boot)) ∧ t.hostOp slot = none ∧
    (t.rd F.HST_OP_WORD slot = (if u.imagePasses (op.flags.testBit 0) (u.slotBytes' (op.flags.testBit 0) b) signed
    then opWord opDone 0 { op with progress := ceilDiv l.length 4096 } else opWord opFailed cBadImage
    { op with progress := ceilDiv l.length 4096 }) % 2 ^ 64)) ∧
  (∀ (s : State) (slot : Nat) (op : LongOp) (l : List Byte) (b signed : Bool) (k : Nat), s.active = true → slot < 8 →
    s.opIn slot oImageWrite = some op → l.length < op.args.getD 1 0 → b = !activeSlot s.bootHeader (op.flags.testBit
    0) → k = l.length / 4096 → s.sec.nvm.wf = true → l.length ≤ nvmSlotSize (op.flags.testBit 0) → ∃ t : State, exec
    (.imageWrite slot l signed) s = .next t ∧ t.rd F.HST_ERR_DMA_ERR = 1 ∧ t.rd F.HST_OP_DETAIL_DETAIL slot =
    (op.args.getD 0 0 + 4096 * k) % 2 ^ 64 ∧ t.sec.nvm.readN (nvmSlot (op.flags.testBit 0) b) (4096 * k) = l.take
    (4096 * k) ∧ t.boot = s.boot ∧ t.hostOp slot = none ∧ t.rd F.HST_OP_WORD slot = opWord opFailed cDmaErr
    { op with progress := k } % 2 ^ 64) ∧
  (∀ (s : State) (slot : Nat) (op : LongOp), s.active = true → slot < 8 → s.opIn slot oSvnCommit = some op → ∃ t :
    State, exec (.svnCommit slot) s = .next t ∧ t.sec.fuses.minSvn = max s.sec.fuses.minSvn (s.rd
    F.BOOT_VERSION_FW_SVN) ∧ t.rd F.BOOT_VERSION_MIN_SVN = t.sec.fuses.minSvn % 2 ^ 16 ∧ t.hostOp slot = none ∧ t.rd
    F.HST_OP_WORD slot = opWord opDone 0 op % 2 ^ 64) ∧
  (∀ (s : State) (slot : Nat) (op : LongOp), s.active = true → slot < 8 → s.opIn slot oTokenSet = some op → ∃ t :
    State, exec (.debugTokenSet slot) s = .next t ∧ t.sec.tokenDigest = some (argDigest op.args 0) ∧ t.rd
    F.SEC_STAT_TOKEN = 1 ∧ t.hostOp slot = none ∧ t.rd F.HST_OP_WORD slot = opWord opDone 0 op % 2 ^ 64)

/-- R407: retries and corrected errors of a GDDR7 channel are counted; a read whose fourth retry failed is counted
uncorrectable and its address captured. R409: a channel that fails is FAILED, and the map changes. R414, R416: a CXL
memory link that goes down clears UP, counts, and makes its level source active; one that comes up shows its speed,
its width and the capacity, at most 2,048 GiB. R420: the host link comes up with its speed and width. -/
def Obligations.MemoryAndLinkEvents : Prop :=
  (∀ (s : State) (ch retries n : Nat), s.powered = true → ch < 16 → s.rd F.MEM_CH_STAT_STATE ch = 2 → ∃ t : State,
    exec (.gddrCrcRetry ch retries n none) s = .next t ∧ t.rd F.MEM_CH_ECC_CORR ch = min (s.rd F.MEM_CH_ECC_CORR ch +
    n) (2 ^ F.MEM_CH_ECC_CORR.width - 1) ∧ t.rd F.MEM_CH_STAT_RETRIES ch = min (s.rd F.MEM_CH_STAT_RETRIES ch + min
    retries 4) (2 ^ F.MEM_CH_STAT_RETRIES.width - 1) ∧ t.rd F.MEM_CH_ECC_UNCORR ch = s.rd F.MEM_CH_ECC_UNCORR ch) ∧
  (∀ (s : State) (ch retries n a : Nat), s.powered = true → ch < 16 → s.rd F.MEM_CH_STAT_STATE ch = 2 → s.gddrChannel
    a = ch → ∃ t : State, exec (.gddrCrcRetry ch retries n (some a)) s = .next t ∧ t.rd F.MEM_CH_STAT_RETRIES ch = min
    (s.rd F.MEM_CH_STAT_RETRIES ch + 4) (2 ^ F.MEM_CH_STAT_RETRIES.width - 1) ∧ t.rd F.MEM_CH_ECC_UNCORR ch = min
    (s.rd F.MEM_CH_ECC_UNCORR ch + 1) (2 ^ F.MEM_CH_ECC_UNCORR.width - 1) ∧ t.rd F.MEM_CH_ECC_LAST_VALID ch = 1 ∧ t.rd
    F.MEM_CH_ECC_LAST_ADDR ch = a % 2 ^ F.MEM_CH_ECC_LAST_ADDR.width) ∧
  (∀ (s : State) (ch : Nat), s.powered = true → ch < 16 → s.rd F.MEM_CH_STAT_STATE ch = 2 → s.marked .map = false → ∃
    t : State, exec (.gddrChannelFail ch) s = .next t ∧ t.rd F.MEM_CH_STAT_STATE ch = 3 ∧ t.pwr.units.channels.testBit
    ch = true ∧ t.rd F.GLB_DUM_GEN_GEN 0 = min (s.rd F.GLB_DUM_GEN_GEN 0 + 1) (2 ^ F.GLB_DUM_GEN_GEN.width - 1)) ∧
  (∀ (s : State) (i : Nat), s.powered = true → i < 2 → s.cxlUp i = true → s.flt.cond.get [50, stopMgt, i] = false → ∃
    t : State, exec (.cxlLinkDown i) s = .next t ∧ t.cxlUp i = false ∧ t.rd F.MEM_CXL_STAT_DOWNS i = min (s.rd
    F.MEM_CXL_STAT_DOWNS i + 1) (2 ^ F.MEM_CXL_STAT_DOWNS.width - 1) ∧ t.rd F.FLT_SRC_STAT_ACTIVE 50 = 1 ∧ (∃ m :
    FaultMsg, (s.now, m) ∈ t.flt.inbox ∧ m.source = 50 ∧ m.n = 1 ∧ m.detail = i) ∧ t.mem = s.mem) ∧
  (∀ (s : State) (i : Nat) (speed width cap : Nat), s.powered = true → i < 2 → s.cxlUp i = false → s.domainOn (409 +
    i) = true → stageMemory ≤ s.stage → s.stage ≠ stageFailed → speed < 16 → width < 16 → ∃ t : State, exec
    (.cxlLinkUp i speed width cap) s = .next t ∧ t.cxlUp i = true ∧ t.rd F.MEM_CXL_STAT_SPEED i = speed ∧ t.rd
    F.MEM_CXL_STAT_WIDTH i = width ∧ t.rd F.MEM_CXL_CAP_GIB i = min cap 2048 ∧ t.flt.cond.get [50, stopMgt, i] =
    false) ∧
  (∀ (s : State) (speed width : Nat), s.powered = true → s.flag F.HST_LINK_STAT_UP = false → s.domainOn 408 = true →
    stageMemory ≤ s.stage → s.stage ≠ stageFailed → speed < 16 → width < 16 → ∃ t : State, exec (.hostLinkUp speed
    width) s = .next t ∧ t.rd F.HST_LINK_STAT_UP = 1 ∧ t.rd F.HST_LINK_STAT_SPEED = speed ∧ t.rd F.HST_LINK_STAT_WIDTH
    = width)

/-- R301: a good comma block takes a lane in HUNT to VERIFY, the third in a row locks it; a bad one in VERIFY, and the
fourth in a row when LOCKED, returns it to HUNT, as loss of signal does. R302, R322: lanes that are locked, distinct
and within 504 root cycles go UP in their order with the credits granted, and the eighth failed set hunts again.
R304, R310: a port that leaves UP is fenced, counted and empties its receiver; codewords are counted, and 32
uncorrectable ones in a row lose the lane. -/
def Obligations.LanesAndLinkStates : Prop :=
  (∀ (s : State) (p k : Nat) (v : Nat) (c : Comma), s.powered = true → p < 256 → k < 4 → s.portOff p = false →
    s.testOn p = false → s.rd F.PRT_LINK_STAT_STATE p ≠ linkTest → v < 2 ^ 120 → readComma v = some c → c.mode = s.rd
    F.PRT_LINK_CFG_RATE p → (s.lane p k).state = .hunt → ∃ t : State, exec (.laneCommaBlock p k (some v)) s = .next t
    ∧ t.lane p k =
    { (s.lane p k) with state := .verify, count := 1, signal := true, lane := c.lane, pcount := c.pcount, arrived := s.now }) ∧
  (∀ (s : State) (p k : Nat) (v : Nat) (c : Comma), s.powered = true → p < 256 → k < 4 → s.portOff p = false →
    s.testOn p = false → s.rd F.PRT_LINK_STAT_STATE p ≠ linkTest → v < 2 ^ 120 → readComma v = some c → c.mode = s.rd
    F.PRT_LINK_CFG_RATE p → (s.lane p k).state = .verify → 3 ≤ (s.lane p k).count + 1 → ∃ t : State, exec
    (.laneCommaBlock p k (some v)) s = .next t ∧ t.lane p k =
    { (s.lane p k) with state := .locked, count := 3, misses := 0, uncorrRun := 0, lane := c.lane, pcount := c.pcount, arrived := s.now }
    ∧ (t.rd F.PRT_LINK_STAT_LOCK p).testBit k = true) ∧
  (∀ (s : State) (p k : Nat), s.powered = true → p < 256 → k < 4 → s.portOff p = false → s.rd F.PRT_LINK_STAT_STATE p
    ≠ linkTest → ((s.lane p k).state = .verify ∨ ((s.lane p k).state = .locked ∧ 4 ≤ (s.lane p k).misses + 1)) → ∃ t :
    State, exec (.laneCommaBlock p k none) s = .next t ∧ t.lane p k = (s.lane p k).toHunt ∧ (t.rd F.PRT_LINK_STAT_LOCK
    p).testBit k = false) ∧
  (∀ (s : State) (p k : Nat), s.powered = true → p < 256 → k < 4 → ∃ t : State, exec (.lossOfSignal p k) s = .next t ∧
    t.lane p k = { (s.lane p k).toHunt with signal := false }) ∧
  (∀ (s : State) (p k : Nat) (n x : Nat), s.powered = true → p < 256 → k < 4 → n ≤ 15 → x < 2 ^ 5140 → ∃ t : State,
    exec (.codewordDecode p k { corrected := some n, payload := x }) s = .next t ∧ t.rd F.PRT_FEC_CW_CODEWORDS p k =
    min (s.rd F.PRT_FEC_CW_CODEWORDS p k + 1) (2 ^ F.PRT_FEC_CW_CODEWORDS.width - 1) ∧ t.rd F.PRT_FEC_ERR_SYMBOLS p k
    = min (s.rd F.PRT_FEC_ERR_SYMBOLS p k + n) (2 ^ F.PRT_FEC_ERR_SYMBOLS.width - 1) ∧ t.rd F.PRT_FEC_ERR_UNCORR p k =
    s.rd F.PRT_FEC_ERR_UNCORR p k ∧ (1 ≤ n → t.rd F.PRT_FEC_HIST_COUNT p (n - 1) = min (s.rd F.PRT_FEC_HIST_COUNT p (n
    - 1) + 1) (2 ^ F.PRT_FEC_HIST_COUNT.width - 1)) ∧ (t.port p).secSyms = (s.port p).secSyms + n ∧ (t.lane p
    (s.physical p k)).scrambled = (descramble 5140 (s.lane p (s.physical p k)).scrambled x).2 ∧ ((t.lane p (s.physical
    p k)).blocks = (if s.portUp p then (s.lane p (s.physical p k)).blocks ++ readBlocks (descramble 5140 (s.lane p
    (s.physical p k)).scrambled x).1 else (s.lane p (s.physical p k)).blocks))) ∧
  (∀ (s : State) (p l k x : Nat), s.powered = true → p < 256 → l < 4 → x < 2 ^ 5140 → (lanes4.find? (fun k => (s.lane
    p k).lane == l) = some k) → (s.lane p k).state = .locked → 32 ≤ (s.lane p k).uncorrRun + 1 → ∃ t : State, exec
    (.codewordDecode p l { corrected := none, payload := x }) s = .next t ∧ t.rd F.PRT_FEC_ERR_UNCORR p l = min (s.rd
    F.PRT_FEC_ERR_UNCORR p l + 1) (2 ^ F.PRT_FEC_ERR_UNCORR.width - 1) ∧ (t.lane p k).state = .hunt ∧ (t.port
    p).secUncorr = (s.port p).secUncorr + 1) ∧
  (∀ (s : State) (p : Nat) (g : List Nat), s.powered = true → p < 256 → s.rd F.PRT_LINK_STAT_STATE p = linkDeskew → (∀
    k < 4, (s.lane p k).state = .locked ∧ (s.lane p k).pcount = (s.lane p 0).pcount) → ((lanes4.map (fun k => (s.lane
    p k).lane)).Nodup) → (∀ j < 4, ∀ k < 4, (s.lane p j).arrived ≤ (s.lane p k).arrived + 504) → ∃ t : State, exec
    (.laneDeskew p g) s = .next t ∧ t.portUp p = true ∧ t.rd F.PRT_LINK_STAT_LANE_MAP p = ((s.lane p 0).lane + 4 *
    (s.lane p 1).lane + 16 * (s.lane p 2).lane + 64 * (s.lane p 3).lane) % 2 ^ 8 ∧ t.rd F.PRT_LINK_STAT_RATE p = s.rd
    F.PRT_LINK_CFG_RATE p % 4 ∧ (∀ v < 8, t.rd F.PRT_CREDIT_TX_AVAIL p v = g.getD v 0 % 2 ^
    F.PRT_CREDIT_TX_AVAIL.width) ∧ ((t.port p).txSeq = 0 ∧ (t.port p).rxSeq = 0 ∧ (t.port p).identity = [] ∧ (t.port
    p).upSince = some s.now) ∧ t.rd F.PRT_DISC_STATE p = 1) ∧
  (∀ (s : State) (p : Nat) (g : List Nat), s.powered = true → p < 256 → s.rd F.PRT_LINK_STAT_STATE p = linkDeskew →
    (¬(lanes4.map (fun k => (s.lane p k).lane)).Nodup) → 8 ≤ (s.port p).deskewFails + 1 → ∃ t : State, exec
    (.laneDeskew p g) s = .next t ∧ (∀ k < 4, (t.lane p k).state = .hunt) ∧ t.rd F.PRT_RX_ERR_FRAMING p = min (s.rd
    F.PRT_RX_ERR_FRAMING p + 1) (2 ^ F.PRT_RX_ERR_FRAMING.width - 1) ∧ t.portUp p = false) ∧
  (∀ (s : State) (p k : Nat), s.powered = true → p < 256 → k < 4 → s.portUp p = true → s.marked (.remapped p) = false
    → (s.lane p k).state ≠ .locked → ∃ t : State, exec (.portDown p) s = .next t.settleAll ∧ t.portUp p = false ∧
    t.fenced p = true ∧ t.rd F.PRT_LINK_STAT_DOWNS p = min (s.rd F.PRT_LINK_STAT_DOWNS p + 1) (2 ^
    F.PRT_LINK_STAT_DOWNS.width - 1) ∧ ((t.port p).rx = [] ∧ (t.port p).ctl = []) ∧ t.rd F.PRT_DISC_STATE p = 0 ∧ t.rd
    F.PRT_FC_STAT_RX_XOFF p = 0)

/-- R305 to R309: data of an UP port is received, a header that is invalid counts; a frame at the head counts with its
sequence, and waits for its landing when it is scheduled, or is dropped in quarantine; one with a bad check counts.
A control block with a bad check counts, others wait. R316 to R318: FLOW sets the neighbour's XOFF state, the own
state rises and falls with the ingress FIFO and is sent whole, and a channel held for PAUSE_MS counts a stall. R322:
a credit block adds the credits returned. -/
def Obligations.FramesAndFlowControl : Prop :=
  (∀ (s : State) (p : Nat) (b : RxBlock) (rest : List RxBlock), s.active = true → p < 256 → s.portUp p = true →
    (s.lane p (s.physical p ((s.port p).slot % 4))).blocks = b :: rest → b.header = 1 → ∃ t : State, exec (.dataBlock
    p b.header b.data b.uncorr) s = .next t ∧ ((t.port p).rx = (s.port p).rx ++ b.data.map (fun c => (c, b.uncorr))) ∧
    (t.port p).slot = ((s.port p).slot + 1) % 163840 ∧ (t.lane p (s.physical p ((s.port p).slot % 4))).blocks = rest) ∧
  (∀ (s : State) (p : Nat) (b : RxBlock) (rest : List RxBlock), s.active = true → p < 256 → s.portUp p = true →
    (s.lane p (s.physical p ((s.port p).slot % 4))).blocks = b :: rest → (b.header = 0 ∨ b.header = 3) → ∃ t : State,
    exec (.dataBlock p b.header b.data b.uncorr) s = .next t ∧ t.rd F.PRT_RX_ERR_FRAMING p = min (s.rd
    F.PRT_RX_ERR_FRAMING p + 1) (2 ^ F.PRT_RX_ERR_FRAMING.width - 1) ∧ (t.port p).rx = (s.port p).rx) ∧
  (∀ (s : State) (p : Nat) (dst : Option Nat) (f : Frame) (rest : List (Byte × Bool)), s.active = true → p < 256 →
    s.portUp p = true → (s.port p).rxSkip = false → scanFrame (s.port p).rx = .frame f rest → ∃ t : State, exec
    (.frameReceive p dst) s = .next t ∧ (t.port p).rx = rest ∧ (t.port p).rxSeq = (f.fseq + 1) % 2 ^ 32 ∧ t.rd
    F.PRT_FRAMES_RX p = min (s.rd F.PRT_FRAMES_RX p + 1) (2 ^ F.PRT_FRAMES_RX.width - 1) ∧ (t.rd F.PRT_RX_ERR_GAP p =
    (if f.fseq = (s.port p).rxSeq then s.rd F.PRT_RX_ERR_GAP p else min (s.rd F.PRT_RX_ERR_GAP p + 1) (2 ^
    F.PRT_RX_ERR_GAP.width - 1)))) ∧
  (∀ (s : State) (p : Nat) (f : Frame) (rest : List (Byte × Bool)), s.active = true → p < 256 → s.portUp p = true →
    (s.port p).rxSkip = false → scanFrame (s.port p).rx = .frame f rest → s.flag F.PRT_DISC_QUAR p = false → f.sched =
    true → ∃ t : State, exec (.frameReceive p none) s = .next t ∧ t.sched.landing.get [p] = s.sched.landing.get [p] ++
    [{ last := s.landingLast f.item, done := s.store, frame := f }] ∧ t.bpm = s.bpm) ∧
  (∀ (s : State) (p : Nat) (dst : Option Nat) (f : Frame) (rest : List (Byte × Bool)), s.active = true → p < 256 →
    s.portUp p = true → (s.port p).rxSkip = false → scanFrame (s.port p).rx = .frame f rest → s.flag F.PRT_DISC_QUAR p
    = true → ∃ t : State, exec (.frameReceive p dst) s = .next t ∧ t.rd F.PRT_FRAMES_QUAR p = min (s.rd
    F.PRT_FRAMES_QUAR p + 1) (2 ^ F.PRT_FRAMES_QUAR.width - 1) ∧ t.sched = s.sched ∧ t.bpm = s.bpm ∧ t.out = s.out) ∧
  (∀ (s : State) (p : Nat) (dst : Option Nat) (rest : List (Byte × Bool)) (skip : Bool), s.active = true → p < 256 →
    s.portUp p = true → (s.port p).rxSkip = false → scanFrame (s.port p).rx = .bad .crc rest skip → ∃ t : State, exec
    (.frameReceive p dst) s = .next t ∧ t.rd F.PRT_RX_ERR_CRC p = min (s.rd F.PRT_RX_ERR_CRC p + 1) (2 ^
    F.PRT_RX_ERR_CRC.width - 1) ∧ ((t.port p).rx = (if skip then resync rest else rest)) ∧ t.sched = s.sched) ∧
  (∀ (s : State) (p : Nat) (b : RxBlock) (rest : List RxBlock), s.active = true → p < 256 → s.portUp p = true →
    (s.lane p (s.physical p ((s.port p).slot % 4))).blocks = b :: rest → b.header = 2 → (b.uncorr = true ∨ ctlOk
    b.data = false) → ∃ t : State, exec (.controlBlock p b.data b.uncorr) s = .next t ∧ t.rd F.PRT_RX_ERR_CBLOCK p =
    min (s.rd F.PRT_RX_ERR_CBLOCK p + 1) (2 ^ F.PRT_RX_ERR_CBLOCK.width - 1) ∧ (t.port p).ctl = (s.port p).ctl) ∧
  (∀ (s : State) (p : Nat) (b : RxBlock) (rest : List RxBlock), s.active = true → p < 256 → s.portUp p = true →
    (s.lane p (s.physical p ((s.port p).slot % 4))).blocks = b :: rest → b.header = 2 → b.uncorr = false → ctlOk
    b.data = true → 1 ≤ (readCtl b.data).ctype → (readCtl b.data).ctype ≤ 3 → ∃ t : State, exec (.controlBlock p
    b.data b.uncorr) s = .next t ∧ (t.port p).ctl = (s.port p).ctl ++ [readCtl b.data] ∧ t.regs = s.regs) ∧
  (∀ (s : State) (p : Nat) (c : CtlBlock), s.active = true → p < 256 → s.portUp p = true → ((s.port p).ctl.find? (fun
    c => c.ctype == 1) = some c) → field c.body 0 1 = 0 → s.creditMode p = false → ∃ t : State, exec (.flowBlock p) s
    = .next t ∧ t.rd F.PRT_FC_STAT_RX_XOFF p = field c.body 1 1 % 2 ^ 8 ∧ (t.port p).ctl = (s.port p).ctl.erase c) ∧
  (∀ (s : State) (p : Nat) (c : CtlBlock) (v : Nat), s.active = true → p < 256 → v < 8 → s.portUp p = true → ((s.port
    p).ctl.find? (fun c => c.ctype == 1) = some c) → field c.body 0 1 = 1 → ∃ t : State, exec (.flowBlock p) s = .next
    t ∧ t.rd F.PRT_CREDIT_TX_AVAIL p v = min (s.rd F.PRT_CREDIT_TX_AVAIL p v + (field c.body (8 + 2 * v) 2 + 65536 -
    (s.port p).peerTotals.getD v 0) % 65536) (2 ^ F.PRT_CREDIT_TX_AVAIL.width - 1)) ∧
  (∀ (s : State) (p : Nat) (v : Nat), s.active = true → p < 256 → v < 8 → s.creditMode p = false → 64 * s.rd
    F.PRT_FC_CFG_XOFF_AT p v ≤ s.fifoOf p v → ∃ t : State, exec (.xoffStateChange p) s = .next t ∧ (t.rd
    F.PRT_FC_STAT_TX_XOFF p).testBit v = true) ∧
  (∀ (s : State) (p : Nat) (v : Nat), s.active = true → p < 256 → v < 8 → s.fifoTotal p ≤ 512 * s.rd
    F.PRT_LINK_CFG_TOTAL_AT p → s.fifoTotal p < 1024 * s.rd F.PRT_LINK_CFG_TOTAL_AT p → s.fifoOf p v < 64 * s.rd
    F.PRT_FC_CFG_XOFF_AT p v → s.fifoOf p v ≤ 64 * s.rd F.PRT_FC_CFG_XON_AT p v → ∃ t : State, exec (.xoffStateChange
    p) s = .next t ∧ (t.rd F.PRT_FC_STAT_TX_XOFF p).testBit v = false) ∧
  (∀ (s : State) (p : Nat), s.active = true → p < 256 → s.portUp p = true → s.creditMode p = false → ∃ t : State, exec
    (.flowSend p) s = .next t ∧ t.out = s.out ++ [.block p (ctlBytes 1 0 0 (bytesLE 1 0 ++ bytesLE 1 (s.rd
    F.PRT_FC_STAT_TX_XOFF p) ++ bytesLE 54 0))] ∧ ((t.port p).xoffSent = s.rd F.PRT_FC_STAT_TX_XOFF p ∧ (t.port
    p).flowSince = s.now)) ∧
  (∀ (s : State) (p : Nat), s.active = true → p < 256 → s.portUp p = true → s.creditMode p = true → ∃ t : State, exec
    (.flowSend p) s = .next t ∧ (t.out = s.out ++ [.block p (ctlBytes 1 0 0 (bytesLE 1 1 ++ bytesLE 7 0 ++ (List.range
    8).flatMap (fun v => bytesLE 2 ((s.port p).returned.getD v 0)) ++ bytesLE 32 0))])) ∧
  (∀ (s : State) (p : Nat) (v since : Nat), s.active = true → p < 256 → v < 8 → (s.port p).rxXoffSince.getD v none =
    some since → (s.port p).stalled.getD v false = false → s.creditMode p = false → s.rd F.PRT_LINK_CFG_PAUSE_MS p ≠ 0
    → since + ms (s.rd F.PRT_LINK_CFG_PAUSE_MS p) ≤ s.now → ∃ t : State, exec (.fcStall p v) s = .next t ∧ t.rd
    F.PRT_FC_STAT_STALLS p = min (s.rd F.PRT_FC_STAT_STALLS p + 1) (2 ^ F.PRT_FC_STAT_STALLS.width - 1) ∧ (t.port
    p).stalled.getD v false = true)

/-- R294 to R296: a module is PRESENT and driven after 500 low samples in a row, and is not after a high one; a fault
sample turns it off with FAULT; a reading gives temperature, bias and power, and LOW when an output has read below
ALARM three times in a row. R311: at a whole second the short trend takes the second's symbols and the counts start
anew. R313: a checker that has seeded itself locks at the 128th symbol in a row that it predicted, counts bit errors
while it is locked, and loses lock when more than 32 of the last 1,024 symbols mismatch. R313, R314: a lane under
test sends its generator's symbols, or with LOOP 3 what it receives. -/
def Obligations.LasersFecAndTests : Prop :=
  (∀ (s : State) (e : Nat), s.powered = true → e < 16 → 500 ≤ (s.laser e).lowSamples + 1 → s.flag
    F.PRT_LSM_STAT_PRESENT e = false → (s.laser e).resetUntil = none → ∃ t : State, exec (.laserSample e true false) s
    = .next t ∧ t.rd F.PRT_LSM_STAT_PRESENT e = 1 ∧ (t.rd F.PRT_LSM_STAT_ENABLED e = if s.lasersBooted then b2n
    (s.domainOn (engineDomain e)) else s.rd F.PRT_LSM_STAT_ENABLED e) ∧ (t.laser e).lowSamples = (s.laser
    e).lowSamples + 1) ∧
  (∀ (s : State) (e : Nat) (flt : Bool), s.powered = true → e < 16 → ∃ t : State, exec (.laserSample e false flt) s =
    .next t ∧ t.rd F.PRT_LSM_STAT_PRESENT e = 0 ∧ (t.laser e).lowSamples = 0 ∧ (flt = true → t.rd F.PRT_LSM_STAT_FAULT
    e = 1 ∧ t.rd F.PRT_LSM_STAT_ENABLED e = 0)) ∧
  (∀ (s : State) (e : Nat) (temp : Nat) (bias power : List Nat) (low : Bool), s.powered = true → e < 16 → (low =
    lanes4.any (fun k => toSigned 16 (power.getD k 0) < toSigned 16 (s.rd F.PRT_LSM_THR_ALARM) && decide (2 ≤ (s.laser
    e).lowRuns.getD k 0))) → ∃ t : State, exec (.laserMonitorRead e temp bias power) s = .next t ∧ t.rd
    F.PRT_LSM_STAT_TEMP e = temp % 2 ^ F.PRT_LSM_STAT_TEMP.width ∧ t.rd F.PRT_LSM_BIAS_OUT0 e = bias.getD 0 0 % 2 ^ 16
    ∧ t.rd F.PRT_LSM_BIAS_OUT3 e = bias.getD 3 0 % 2 ^ 16 ∧ t.rd F.PRT_LSM_POWER_OUT0 e = power.getD 0 0 % 2 ^ 16 ∧
    t.rd F.PRT_LSM_POWER_OUT3 e = power.getD 3 0 % 2 ^ 16 ∧ t.rd F.PRT_LSM_STAT_LOW e = b2n low ∧ t.flt.cond.get [41,
    stopPort (e / 2), e] = low) ∧
  (∀ (s : State) (p : Nat), s.powered = true → p < 256 → ∃ t : State, exec .fecTrendSecond s = .next t ∧ t.rd
    F.PRT_FEC_TREND_SHORT p = min (s.port p).secSyms (2 ^ 32 - 1) ∧ ((t.port p).secSyms = 0 ∧ (t.port p).secUncorr =
    0) ∧ (t.port p).seconds = ((s.port p).secSyms :: (s.port p).seconds).take 60 ∧ (59 ≤ (s.port p).seconds.length →
    t.rd F.PRT_FEC_TREND_LONG p = min ((t.port p).seconds.foldl (· + ·) 0) (2 ^ 32 - 1))) ∧
  (∀ (s : State) (p k : Nat) (v : Nat), s.powered = true → p < 256 → k < 4 → s.rd F.PRT_LINK_STAT_STATE p = linkTest →
    s.rd F.PRT_TEST_LOOP p = 0 → s.rd F.PRT_TEST_CHK p ≠ 0 → s.flag F.PRT_PRBS_ERR_LOCK p k = false → v = (prbsLevel
    (s.rd F.PRT_TEST_CHK p) (s.lane p k).checker.bits).1 → prbsDegree (s.rd F.PRT_TEST_CHK p) ≤ (s.lane p
    k).checker.bits.length → 128 ≤ (s.lane p k).checker.run + 1 → ∃ t : State, exec (.prbsCheckerLock p k [v]) s =
    .next t ∧ t.rd F.PRT_PRBS_ERR_LOCK p k = 1 ∧ (t.lane p k).checker =
    { bits := levelPush v (s.lane p k).checker.bits }) ∧
  (∀ (s : State) (p k : Nat) (v n : Nat), s.powered = true → p < 256 → k < 4 → s.rd F.PRT_LINK_STAT_STATE p = linkTest
    → s.rd F.PRT_TEST_LOOP p = 0 → s.rd F.PRT_TEST_CHK p ≠ 0 → s.flag F.PRT_PRBS_ERR_LOCK p k = true → v < 4 → n =
    levelErrors ((prbsLevel (s.rd F.PRT_TEST_CHK p) (s.lane p k).checker.bits).1) v → ∃ t : State, exec
    (.prbsCheckerLock p k [v]) s = .next t ∧ t.rd F.PRT_PRBS_ERR_ERRORS p k = min (s.rd F.PRT_PRBS_ERR_ERRORS p k + n)
    (2 ^ F.PRT_PRBS_ERR_ERRORS.width - 1) ∧ (t.rd F.PRT_PRBS_ERR_LOCK p k = b2n (decide (((if n = 0 then (s.lane p
    k).checker.mismatch else (s.lane p k).checker.symbols :: (s.lane p k).checker.mismatch).filter (fun m => decide
    ((s.lane p k).checker.symbols < m + 1024))).length ≤ 32)))) ∧
  (∀ (s : State) (p k : Nat) (g : Nat) (l : List Nat), s.powered = true → p < 256 → k < 4 → s.rd F.PRT_LINK_STAT_STATE
    p = linkTest → s.rd F.PRT_TEST_LOOP p = 0 → s.rd F.PRT_TEST_CHK p = 0 → g = s.rd F.PRT_TEST_GEN p → g ≠ 0 → (l.all
    (fun v => decide (v < 4)) = true) → l ≠ [] → ∃ t : State, exec (.prbsCheckerLock p k l) s = .next t ∧ t.out =
    s.out ++ [.symbols p k (prbsLevels g l.length (s.lane p k).generator).1] ∧ t.regs = s.regs) ∧
  (∀ (s : State) (p k : Nat) (l : List Nat), s.powered = true → p < 256 → k < 4 → s.rd F.PRT_LINK_STAT_STATE p =
    linkTest → s.rd F.PRT_TEST_LOOP p = 3 → s.rd F.PRT_TEST_CHK p = 0 → (l.all (fun v => decide (v < 4)) = true) → l ≠
    [] → ∃ t : State, exec (.prbsCheckerLock p k l) s = .next t ∧ t.out = s.out ++ [.symbols p k l] ∧ t.regs = s.regs)

/-- R324, R325: a Pdelay_Req is answered in a TIME block, with the time since its arrival in the correction; an
answered request gives the delay, the mean of the last 8 measurements. R326: a Sync at the slave port of an engine
that is acquiring or locked gives the offset, and the 16th in a row within LOCK_NS locks; after 3 intervals without
one another qualified port is taken, and after 8 without one a locked engine enters HOLDOVER. R327: an offset of
more than 1 µs steps the time, unless a plan is accepted. R325: a master sends Sync, a port with a neighbour
Pdelay_Req. (The layout of the messages is presumed, log 137.) -/
def Obligations.TimeFollowsSync : Prop :=
  (∀ (s : State) (p : Nat) (rx : Nat) (c : CtlBlock) (m : TimeMsg), s.active = true → p < 256 → s.portUp p = true →
    s.benlas p = false → s.flag F.PRT_DISC_QUAR p = false → ((s.port p).ctl.find? (fun c => c.ctype == 2) = some c) →
    m = readTime c.body → m.domain = s.rd F.PRT_DISC_CFG_PLANE → m.flags.testBit 9 = false → m.kind = 2 → ∃ t : State,
    exec (.timeBlock p rx) s = .next t ∧ t.out = s.out ++ [.block p (ctlBytes 2 0 0 (timeBody
    { kind := 3, domain := s.rd F.PRT_DISC_CFG_PLANE, corr := m.corr + unitsCorr ((s.timeUnits : Int) - rx), source := portIdentity p, seq := m.seq, target := m.source }))]
    ∧ t.regs = s.regs ∧ (t.port p).ctl = (s.port p).ctl.erase c) ∧
  (∀ (s : State) (p : Nat) (rx : Nat) (c : CtlBlock) (m : TimeMsg) (sent : Nat) (delay : Int) (l : List Nat), s.active
    = true → p < 256 → s.portUp p = true → s.benlas p = false → s.flag F.PRT_DISC_QUAR p = false → ((s.port
    p).ctl.find? (fun c => c.ctype == 2) = some c) → m = readTime c.body → m.domain = s.rd F.PRT_DISC_CFG_PLANE →
    m.flags.testBit 9 = false → m.kind = 3 → (s.port p).reqSent = some sent → m.target = portIdentity p → (m.seq + 1)
    % 65536 = (s.port p).reqSeq → delay = (unitsPs rx - unitsPs sent - corrPs m.corr) / 2 + toSigned 16 (s.rd
    F.PRT_TIME_PORT_ASYM p) → l = (delay.toNat :: (s.port p).delays).take 8 → ∃ t : State, exec (.timeBlock p rx) s =
    .next t ∧ t.rd F.PRT_TIME_PORT_DELAY p = l.foldl (· + ·) 0 / l.length % 2 ^ F.PRT_TIME_PORT_DELAY.width ∧ ((t.port
    p).delays = l ∧ (t.port p).reqSent = none)) ∧
  (∀ (s : State) (p : Nat) (rx : Nat) (c : CtlBlock) (m : TimeMsg) (off : Int), s.active = true → p < 256 → s.portUp p
    = true → s.benlas p = false → s.flag F.PRT_DISC_QUAR p = false → ((s.port p).ctl.find? (fun c => c.ctype == 2) =
    some c) → m = readTime c.body → m.domain = s.rd F.PRT_DISC_CFG_PLANE → m.flags.testBit 9 = false → m.kind = 0 →
    s.rd F.PRT_TIME_PORT_ROLE p = 2 → s.flag F.PRT_TIME_CFG_GM = false → (s.rd F.PRT_TIME_STAT_STATE = timeAcquiring ∨
    s.rd F.PRT_TIME_STAT_STATE = timeLocked) → s.link.slave = some p → off = unitsPs rx - (1000 * (m.ns : Int) +
    corrPs m.corr + s.rd F.PRT_TIME_PORT_DELAY p) → ∃ t : State, exec (.timeBlock p rx) s = .next t ∧ t.rd
    F.PRT_TIME_OFFSET_OFFSET = ofSigned 64 off % 2 ^ 64 ∧ (t.link.goodSyncs = (if off.natAbs ≤ 1000 * s.rd
    F.PRT_TIME_CFG_LOCK_NS then s.link.goodSyncs + 1 else 0)) ∧ (t.rd F.PRT_TIME_STAT_STATE = (if off.natAbs ≤ 1000 *
    s.rd F.PRT_TIME_CFG_LOCK_NS ∧ 16 ≤ s.link.goodSyncs + 1 then timeLocked else s.rd F.PRT_TIME_STAT_STATE)) ∧
    (t.planeTime = (if 1000000 < off.natAbs ∧ s.locked = false then (s.timePs - off).toNat / 1000 % 2 ^ 64 else
    s.planeTime))) ∧
  (∀ (s : State) (p : Nat), s.active = true → p < 256 → s.rd F.PRT_TIME_PORT_ROLE p = 1 → s.portUp p = true → ∃ t :
    State, exec (.syncSend p) s = .next t ∧ t.out = s.out ++ [.block p (ctlBytes 2 0 0 (timeBody
    { kind := 0, domain := s.rd F.PRT_DISC_CFG_PLANE, corr := unitsCorr s.link.timeFrac, source := portIdentity p, seq := (s.port p).syncSeq, ns := s.planeTime }))]
    ∧ (t.port p).syncSeq = ((s.port p).syncSeq + 1) % 65536 ∧ t.regs = s.regs) ∧
  (∀ (s : State) (p : Nat), s.active = true → p < 256 → (s.port p).identity ≠ [] → s.portUp p = true → ∃ t : State,
    exec (.pdelayReqSend p) s = .next t ∧ t.out = s.out ++ [.block p (ctlBytes 2 0 0 (timeBody
    { kind := 2, domain := s.rd F.PRT_DISC_CFG_PLANE, source := portIdentity p, seq := (s.port p).reqSeq }))] ∧
    (t.port p).reqSent = some s.timeUnits ∧ t.regs = s.regs) ∧
  (∀ (s : State) (p : Nat) (q : Nat), s.powered = true → s.link.slave = some p → ((s.port p).lastSync).getD 0 + 3 *
    s.syncInterval ≤ s.now → s.bestSlave = some q → ∃ t : State, exec .syncLossTimeout s = .next t ∧ t.link.slave =
    some q ∧ t.rd F.PRT_TIME_STAT_SLAVE_PORT = q % 2 ^ 8 ∧ t.rd F.PRT_TIME_STAT_STATE = s.rd F.PRT_TIME_STAT_STATE) ∧
  (∀ (s : State) (p : Nat), s.powered = true → s.link.slave = some p → ((s.port p).lastSync).getD 0 + 8 *
    s.syncInterval ≤ s.now → s.bestSlave = none → s.rd F.PRT_TIME_STAT_STATE = timeLocked → ∃ t : State, exec
    .syncLossTimeout s = .next t ∧ t.link.slave = none ∧ t.rd F.PRT_TIME_STAT_STATE = timeHoldover ∧ t.rd
    F.PRT_TIME_STAT_HOLDOVERS 0 = min (s.rd F.PRT_TIME_STAT_HOLDOVERS 0 + 1) (2 ^ F.PRT_TIME_STAT_HOLDOVERS.width -
    1))

/-- R329: an UP port sends its identity as two IDENT blocks of one ISEQ; a part is held until the other part of its
ISEQ comes. R331, R333: a complete identity is shown and, with this end's own IDENT and the agreed version within 10
ms of UP, concludes: with no plan loaded the outcome is 2, and nothing is fenced. R331: the identity of another
neighbour takes the port down. R333, R334: 10 ms without negotiation conclude with SILENT or NO_VERSION, and the
port is quarantined and fenced. -/
def Obligations.IdentityIsExchanged : Prop :=
  (∀ (s : State) (p : Nat), s.active = true → p < 256 → s.portUp p = true → ∃ t : State, exec (.identSend p) s = .next
    t ∧ t.out = s.out ++ [.block p (ctlBytes 3 0 (s.port p).iseq ((s.ownIdentity p).take 56)), .block p (ctlBytes 3 1
    (s.port p).iseq ((s.ownIdentity p).drop 56))] ∧ (t.port p).iseq = ((s.port p).iseq + 1) % 65536) ∧
  (∀ (s : State) (p : Nat) (c : CtlBlock), s.active = true → p < 256 → s.portUp p = true → s.marked .snapshot = false
    → ((s.port p).ctl.find? (fun c => c.ctype == 3) = some c) → c.cflags ≤ 1 → (s.port p).identHeld = none → ∃ t :
    State, exec (.identBlock p) s = .next t ∧ (t.port p).identHeld = some
    { part := c.cflags, iseq := c.iseq, body := c.body } ∧ t.regs = s.regs) ∧
  (∀ (s : State) (p : Nat) (c : CtlBlock) (h : IdentPart) (id : List Byte) (up : Nat), s.active = true → p < 256 →
    s.portUp p = true → s.marked .snapshot = false → ((s.port p).ctl.find? (fun c => c.ctype == 3) = some c) →
    c.cflags ≤ 1 → (s.port p).identHeld = some h → h.iseq = c.iseq → h.part ≠ c.cflags → (id = if h.part = 0 then
    h.body ++ c.body else c.body ++ h.body) → (s.port p).identity = [] → (s.port p).concluded = false → (s.port
    p).upSince = some up → s.now ≤ up + ms 10 → field id 2 1 = agreedVersion id → agreedVersion id ≠ 0 → field id 12 4
    = bits (s.rd F.SEC_IDENT_IDENT 0) 31 0 → s.planState = planEmpty → ∃ t : State, exec (.identBlock p) s = .next t ∧
    ((t.port p).identity = id ∧ (t.port p).concluded = true) ∧ (∀ i < 14, t.rd F.PRT_IDENT_RX_BYTES p i = field id (8
    * i) 8 % 2 ^ 64) ∧ t.rd F.PRT_DISC_PEER_KIND p = field id 3 1 % 2 ^ F.PRT_DISC_PEER_KIND.width ∧ t.rd
    F.PRT_DISC_AGREED p = agreedVersion id % 2 ^ F.PRT_DISC_AGREED.width ∧ t.rd F.PRT_DISC_STATE p = 2 ∧ t.rd
    F.PRT_DISC_OUTCOME p = 2 ∧ t.portUp p = true) ∧
  (∀ (s : State) (p : Nat) (c : CtlBlock) (h : IdentPart) (id : List Byte), s.active = true → p < 256 → s.portUp p =
    true → s.marked .snapshot = false → ((s.port p).ctl.find? (fun c => c.ctype == 3) = some c) → c.cflags ≤ 1 →
    (s.port p).identHeld = some h → h.iseq = c.iseq → h.part ≠ c.cflags → (id = if h.part = 0 then h.body ++ c.body
    else c.body ++ h.body) → (s.port p).identity ≠ [] → identStable (s.port p).identity ≠ identStable id → ∃ t :
    State, exec (.identBlock p) s = .next t ∧ t.portUp p = false ∧ t.fenced p = true ∧ t.rd F.PRT_LINK_STAT_DOWNS p =
    min (s.rd F.PRT_LINK_STAT_DOWNS p + 1) (2 ^ F.PRT_LINK_STAT_DOWNS.width - 1)) ∧
  (∀ (s : State) (p : Nat) (up : Nat), s.active = true → p < 256 → s.portUp p = true → (s.port p).upSince = some up →
    (s.port p).concluded = false → up + ms 10 ≤ s.now → s.marked .snapshot = false → ∃ t : State, exec
    (.negotiationTimeout p) s = .next t ∧ (t.rd F.PRT_DISC_OUTCOME p = (if (s.port p).identity ≠ [] ∧ agreedVersion
    (s.port p).identity = 0 then 7 else 9)) ∧ t.rd F.PRT_DISC_QUAR p = 1 ∧ t.rd F.PRT_DISC_STATE p = 2 ∧ t.fenced p =
    true ∧ (t.port p).concluded = true)

/-- R223, R224: a round that has run its length ends, and the next is one cycle shorter or longer when its start lies
more than one store cycle off. R231, R232: in an egress window the head of its queue starts when it is visible and
fits, else it is held and counted once. R282: in opportunistic time an eligible head of virtual channel 0 starts
first. R217: a frame that has left drops one reference. R280, R283: a refill adds RATE up to the burst, after a
waiting change. R241, R242: a lone request is matched, and its pointers go on. R240: an uncorrectable cell drops its
frame and is counted. -/
def Obligations.RoundsAndFrameStarts : Prop :=
  (∀ (s : State) (n cycles : Nat) (actual want : Int), s.powered = true → s.locked = true → s.sched.running = true →
    s.chgState ≠ chgSwitching → cycles = s.rd F.SCH_PERIOD_CYCLES → cycles ≠ 0 → s.sched.roundStart + s.sched.roundLen
    ≤ s.store → n = (s.rd F.SCH_ROUND_NUMBER + 1) % 2 ^ 64 → actual = 14 * (s.planeTime : Int) + s.link.timeFrac - 5 *
    (s.now % 2 : Nat) → want = 14 * (s.rd F.SCH_EPOCH_TIME : Int) + 10 * (n : Int) * cycles → ∃ t : State, exec
    .roundStart s = .next t ∧ t.rd F.SCH_ROUND_NUMBER = n ∧ t.sched.roundStart = s.sched.roundStart + s.sched.roundLen
    ∧ (t.sched.roundLen = (if 10 < actual - want then cycles - 1 else if 10 < want - actual then cycles + 1 else
    cycles))) ∧
  (∀ (s : State) (cycles past : Nat) (actual epoch : Int), s.powered = true → s.locked = true → s.sched.running =
    false → s.chgState ≠ chgSwitching → cycles = s.rd F.SCH_PERIOD_CYCLES → cycles ≠ 0 → actual = 14 * (s.planeTime :
    Int) + s.link.timeFrac - 5 * (s.now % 2 : Nat) → epoch = 14 * (s.rd F.SCH_EPOCH_TIME : Int) → epoch ≤ actual →
    past = ((actual - epoch) / 10).toNat → ∃ t : State, exec .roundStart s = .next t ∧ t.sched.running = true ∧ t.rd
    F.SCH_ROUND_NUMBER = past / cycles % 2 ^ 64 ∧ t.sched.roundStart = s.store - past % cycles ∧ t.sched.roundLen =
    cycles) ∧
  (∀ (s : State) (p entry q start len : Nat) (e : QEntry), s.active = true → p < 256 → s.openWindow p = some (entry,
    q, start, len) → s.windowFrame p (s.takenBelow p) = some (e, true) → ∃ t : State, exec (.schedFrameStart p none) s
    = .next t ∧ t.sched.queues.get [s.groupOf p, q] = (s.sched.queues.get [s.groupOf p, q]).eraseIdx (s.takenBelow p)
    ∧ t.rd F.SCH_SENT_FRAMES p = min (s.rd F.SCH_SENT_FRAMES p + 1) (2 ^ F.SCH_SENT_FRAMES.width - 1) ∧
    t.sched.freeAt.get [p] = s.store + s.slot p (s.object e.ptr).linkLength ∧ ((t.sched.sending.get [p]).map (fun x =>
    (x.ptr, x.sched, x.header, x.frame)) = some (e.ptr, true, (s.sent p e.ptr (some e.header)).2.1,
    { sched := true, vc := 7, fseq := (s.port p).txSeq, item := (s.sent p e.ptr (some e.header)).1 })) ∧ (∀ (h :
    SwHeader) (l : List Byte), s.object e.ptr = .swatch h l → (t.sched.sending.get [p]).map (fun x => x.frame.item) =
    some (.swatch { e.header with seq := s.sched.txSeq.get [e.header.context, e.header.opnum, s.groupOf p] } l)) ∧
    (t.port p).txSeq = ((s.port p).txSeq + 1) % 2 ^ 32) ∧
  (∀ (s : State) (p entry q start len : Nat) (e : QEntry), s.active = true → p < 256 → s.openWindow p = some (entry,
    q, start, len) → s.windowFrame p (s.takenBelow p) = some (e, false) → ∃ t : State, exec (.schedFrameStart p none)
    s = .next t ∧ t.rd F.SCH_GATE_HOLD_SCHED p = min (s.rd F.SCH_GATE_HOLD_SCHED p + 1) (2 ^
    F.SCH_GATE_HOLD_SCHED.width - 1) ∧ t.sched.queues = s.sched.queues ∧ t.sched.sending = s.sched.sending ∧
    t.sched.heldWin.get [p] = some (s.rd F.SCH_ROUND_NUMBER, entry)) ∧
  (∀ (s : State) (p : Nat) (e : OppEntry), s.active = true → p < 256 → s.portUp p = true → s.fenced p = false →
    s.sched.freeAt.get [p] ≤ s.store → s.openWindow p = none → s.oppEligible p 0 = true → s.oppHead p 0 = some e → ∃ t
    : State, exec (.oppFrameStart p) s = .next t ∧ ((t.sched.sending.get [p]).map (fun x => (x.ptr, x.account,
    x.sched, x.frame.vc, x.frame.fseq)) = some (e.ptr, e.account, e.sched.isSome, 0, (s.port p).txSeq)) ∧
    ((t.sched.oppFifo.get [p]).filter (fun x => x.vc == 0) = ((s.sched.oppFifo.get [p]).erase e).filter (fun x => x.vc
    == 0)) ∧ (t.sched.freeAt.get [p] = s.store + s.slot p (((t.sched.sending.get [p]).map (fun x =>
    x.frame.item.linkLength)).getD 0))) ∧
  (∀ (s : State) (p : Nat), s.active = true → p < 256 → (s.openWindow p).isSome = true → ∃ t : State, exec
    (.oppFrameStart p) s = .next t ∧ t = s) ∧
  (∀ (s : State) (p : Nat) (x : Sending) (h : SwHeader) (l : List Byte), s.active = true → p < 256 →
    s.sched.sending.get [p] = some x → x.sched = true → x.broken = false → x.bad = false → x.frame.item = .swatch h l
    → s.ptrFails x.ptr x.account none = none → 2 ≤ (s.tag (ptrCell x.ptr)).refcnt → ∃ t : State, exec (.frameDeparture
    p) s = .next t.settleAll ∧ t.sched.sending.get [p] = none ∧ t.out = s.out ++ [.frame p x.frame] ∧ (t.tag (ptrCell
    x.ptr)).refcnt = (s.tag (ptrCell x.ptr)).refcnt - 1) ∧
  (∀ (s : State) (die n v : Nat) (spent : Int) (k : Bucket), s.active = true → die < 8 → n < 32 → v < 8 → spent =
    s.spent k (32 * die + n) v → s.shape.waiting.get [k.code, 32 * die + n, v] = none → s.marked (.bucket [k.code, 32
    * die + n, v]) 2 = false → ∃ t : State, exec (.tokenRefill die) s = .next t ∧ t.tokens k (32 * die + n) v = min
    (256 * (s.rd k.burst (32 * die + n) v : Int)) (s.tokens k (32 * die + n) v + spent + s.rd k.rate (32 * die + n) v)
    - spent) ∧
  (∀ (s : State) (die n v w since : Nat) (k : Bucket), s.active = true → die < 8 → n < 32 → v < 8 →
    s.shape.waiting.get [k.code, 32 * die + n, v] = some (w, since) → chgMode w = 0 → since < s.store → ∃ t : State,
    exec (.tokenRefill die) s = .next t ∧ t.shape.waiting.get [k.code, 32 * die + n, v] = none ∧ t.rd k.pending (32 *
    die + n) v = 0 ∧ t.rd k.rate (32 * die + n) v = bits w k.rate.hi k.rate.lo ∧ t.rd k.burst (32 * die + n) v = bits
    w k.burst.hi k.burst.lo) ∧
  (∀ (s : State) (d e v p : Nat) (h : OppEntry), s.active = true → d < 8 → e < 256 → v < 8 → s.sched.voq.entries =
    [([d, e, v], [h])] → s.matchPort e h = some p → s.flowOk p v h.length = true → s.grants []
    { e, n := 8 * d + v, head := h, port := p } = true → ∃ t : State, exec .matchRound s = .next t ∧ t.sched.voq.get
    [d, e, v] = [] ∧ t.sched.oppFifo.get [p] = s.sched.oppFifo.get [p] ++ [h] ∧ t.rd F.SCH_MATCH_STAT_MATCHES 0 = min
    (s.rd F.SCH_MATCH_STAT_MATCHES 0 + 1) (2 ^ F.SCH_MATCH_STAT_MATCHES.width - 1) ∧ t.rd F.SCH_MATCH_STAT_UNMATCHED =
    s.rd F.SCH_MATCH_STAT_UNMATCHED ∧ t.sched.grantPtr.get [e] = (8 * d + v + 1) % 64 ∧ t.sched.acceptPtr.get [d] = (e
    + 1) % 256) ∧
  (∀ (s : State) (p : Nat) (e : OppEntry), s.active = true → p < 256 → ((s.sched.oppFifo.get [p]).find? (fun e =>
    decide (0 < e.pendingCells)) = some e) → ∃ t : State, exec (.oppCellsRead p none) s = .next t.settleAll ∧
    (t.sched.oppFifo.get [p] = (s.sched.oppFifo.get [p]).map (fun x => if x = e then { x with pendingCells := 0 } else
    x)) ∧ t.bpm = s.bpm) ∧
  (∀ (s : State) (p : Nat) (e : OppEntry) (c : Nat), s.active = true → p < 256 → ((s.sched.oppFifo.get [p]).find? (fun
    e => decide (0 < e.pendingCells)) = some e) → ∃ t : State, exec (.oppCellsRead p (some c)) s = .next t.settleAll ∧
    t.sched.oppFifo.get [p] = (s.sched.oppFifo.get [p]).erase e ∧ t.rd F.INS_ECC_UNCORR 0 = min (s.rd F.INS_ECC_UNCORR
    0 + 1) (2 ^ F.INS_ECC_UNCORR.width - 1) ∧ t.rd F.INS_ECC_LAST_CELL = c % 2 ^ F.INS_ECC_LAST_CELL.width)

/-- R235, R236: a frame in its window is released at its landing, one outside every window late and counted. R246,
R247: a pointer reaches its resequencer; the swatch that its stream expects is released, a later one is held until
it follows, one too far is dropped; R166: one of an undeclared context is dropped and captured. R266 to R268, R271:
a granted buffer is held with the next GEN; a refused request waits, and an arrival that has waited ALLOC_WAIT is
dropped. R273, R276: a free that passes its checks returns the buffer, one that fails is captured and changes no
list. R291: a copy for a fenced port is discarded. -/
def Obligations.LandingsAndBuffers : Prop :=
  (∀ (s : State) (p : Nat) (l : Landing) (rest : List Landing), s.active = true → p < 256 → s.sched.landing.get [p] =
    l :: rest → l.last ≠ noLast → s.ingressWindow p l.last l.done = none → l.done < s.store → ∃ t : State, exec
    (.ingressLanding p) s = .next t ∧ t.sched.landing.get [p] = rest ∧ t.rd F.SCH_LAND_OFFWINDOW p = min (s.rd
    F.SCH_LAND_OFFWINDOW p + 1) (2 ^ F.SCH_LAND_OFFWINDOW.width - 1) ∧ t.bpm.requests = s.bpm.requests ++
    [{ requester := reqPort (dieOfPort p), account := (l.frame.item.context.map s.arrivalAccount).getD 16, item := l.frame.item, purpose := .arrival p none true, since := s.store, refused := none }]) ∧
  (∀ (s : State) (p : Nat) (l : Landing) (rest : List Landing) (entry round start : Nat), s.active = true → p < 256 →
    s.sched.landing.get [p] = l :: rest → l.last ≠ noLast → s.ingressWindow p l.last l.done = some (entry, round,
    start) → s.sched.winLand.get [p, l.last, entry] = none → l.done ≤ start + s.rd F.SCH_PORT_CFG_LAND p → start +
    s.rd F.SCH_PORT_CFG_LAND p ≤ s.store → ∃ t : State, exec (.ingressLanding p) s = .next t ∧ t.sched.landing.get [p]
    = rest ∧ t.rd F.SCH_LAND_LATE p = s.rd F.SCH_LAND_LATE p ∧ t.bpm.requests = s.bpm.requests ++
    [{ requester := reqPort (dieOfPort p), account := (l.frame.item.context.map s.arrivalAccount).getD 16, item := l.frame.item, purpose := .arrival p none false, since := s.store, refused := none }]
    ∧ ((t.sched.winLand.get [p, l.last, entry]).map (fun w => (w.round, w.entry, w.landing)) = some (round, entry,
    start + s.rd F.SCH_PORT_CFG_LAND p + s.slot p l.frame.item.linkLength))) ∧
  (∀ (s : State) (h : Handoff) (d : Nat), s.active = true → (s.sched.handoffs.find? (fun h => decide (h.ready ≤
    s.store)) = some h) → d = dieOfPort (s.groupOf h.item.port) → ∃ t : State, exec .swatchPointerHandoff s = .next t
    ∧ (({ ready := s.store, item := h.item } : Handoff) ∈ t.sched.reseqIn.get [d] ∧ (t.sched.reseqIn.get [d]).length =
    (s.sched.reseqIn.get [d]).length + 1) ∧ t.sched.handoffs = s.sched.handoffs.erase h) ∧
  (∀ (s : State) (d k : Nat) (a : Arrived) (rest : List Handoff) (u : Stream), s.active = true → d < 8 → (s.fewEntries
    d = false ∨ k ≠ s.store) → s.sched.reseqIn.get [d] = { ready := k, item := a } :: rest → s.undeclared
    a.header.context = false → s.opnumOk a.header.context a.header.opnum = true → ((s.sched.streams.get [d]).find?
    (fun u => u.context == a.header.context && u.opnum == a.header.opnum && u.rank == a.header.rank && u.group ==
    s.groupOf a.port) = some u) → a.header.seq = u.next → ∃ t : State, exec (.resequence d) s = .next t ∧
    t.sched.released = s.sched.released ++ [a] ∧ t.sched.reseqIn.get [d] = rest ∧ ({ u with next := u.next + 1 } :
    Stream) ∈ t.sched.streams.get [d]) ∧
  (∀ (s : State) (d k : Nat) (a : Arrived) (rest : List Handoff) (u : Stream), s.active = true → d < 8 → (s.fewEntries
    d = false ∨ k ≠ s.store) → s.sched.reseqIn.get [d] = { ready := k, item := a } :: rest → s.undeclared
    a.header.context = false → s.opnumOk a.header.context a.header.opnum = true → ((s.sched.streams.get [d]).find?
    (fun u => u.context == a.header.context && u.opnum == a.header.opnum && u.rank == a.header.rank && u.group ==
    s.groupOf a.port) = some u) → u.next < a.header.seq → a.header.seq < u.next + 256 → (u.held.any (fun b =>
    b.header.seq == a.header.seq) = false) → ∃ t : State, exec (.resequence d) s = .next t ∧ t.sched.released =
    s.sched.released ∧ ({ u with held := u.held ++ [a] } : Stream) ∈ t.sched.streams.get [d] ∧ t.bpm = s.bpm) ∧
  (∀ (s : State) (d k : Nat) (a : Arrived) (rest : List Handoff) (u : Stream), s.active = true → d < 8 → (s.fewEntries
    d = false ∨ k ≠ s.store) → s.sched.reseqIn.get [d] = { ready := k, item := a } :: rest → s.undeclared
    a.header.context = false → s.opnumOk a.header.context a.header.opnum = true → ((s.sched.streams.get [d]).find?
    (fun u => u.context == a.header.context && u.opnum == a.header.opnum && u.rank == a.header.rank && u.group ==
    s.groupOf a.port) = some u) → u.next + 256 ≤ a.header.seq → ∃ t : State, exec (.resequence d) s = .next t ∧
    t.sched.released = s.sched.released ∧ t.rd F.SCH_RESEQ_STAT_FAR d = min (s.rd F.SCH_RESEQ_STAT_FAR d + 1) (2 ^
    F.SCH_RESEQ_STAT_FAR.width - 1) ∧ t.rd F.SCH_EXACT_LOSS_RESEQ = 1) ∧
  (∀ (s : State) (d k : Nat) (a : Arrived) (rest : List Handoff), s.active = true → d < 8 → (s.fewEntries d = false ∨
    k ≠ s.store) → s.sched.reseqIn.get [d] = { ready := k, item := a } :: rest → s.undeclared a.header.context = true
    → ∃ t : State, exec (.resequence d) s = .next t ∧ t.rd F.OPC_UNDECL_COUNT 0 = min (s.rd F.OPC_UNDECL_COUNT 0 + 1)
    (2 ^ F.OPC_UNDECL_COUNT.width - 1) ∧ t.rd F.OPC_UNDECL_LAST_VALID = 1 ∧ t.rd F.OPC_UNDECL_LAST_CONTEXT =
    a.header.context % 2 ^ 16 ∧ t.rd F.OPC_UNDECL_LAST_PORT = a.port % 2 ^ 8 ∧ t.sched.released = s.sched.released) ∧
  (∀ (s : State) (d : Nat) (u : Stream) (a : Arrived), s.active = true → d < 8 → ((s.sched.streams.get [d]).find? (fun
    u => u.held.any (fun a => a.header.seq == u.next)) = some u) → (u.held.find? (fun a => a.header.seq == u.next) =
    some a) → ∃ t : State, exec (.heldSwatchRelease d) s = .next t ∧ t.sched.released = s.sched.released ++ [a] ∧
    ({ u with next := u.next + 1, held := u.held.erase a } : Stream) ∈ t.sched.streams.get [d]) ∧
  (∀ (s : State) (n : Nat) (bad : Option Nat), s.active = true → ∃ t : State, exec (.insoleScrub n bad) s = .next t ∧
    t.rd F.INS_ECC_CORR 0 = min (s.rd F.INS_ECC_CORR 0 + n) (2 ^ F.INS_ECC_CORR.width - 1) ∧ (t.rd F.INS_ECC_UNCORR =
    (if bad = none then s.rd F.INS_ECC_UNCORR else min (s.rd F.INS_ECC_UNCORR + 1) (2 ^ 32 - 1))) ∧ (∀ c, bad = some c
    → t.rd F.INS_ECC_LAST_VALID = 1 ∧ t.rd F.INS_ECC_LAST_CELL = c % 2 ^ 22)) ∧
  (∀ (s : State) (k : Nat) (r : AllocReq) (f : FreeList) (cell gen : Nat) (desc : Descriptor) (port : Nat) (off :
    Bool), s.active = true → s.requestOrder[k]? = some r → r.item = .descriptor desc → r.purpose = .arrival port none
    off → r.tried ≠ some s.store → s.listServes (s.requestOrder.take k) 0 (acctList r.account) 1 = true → s.allocOk 1
    0 r.account = true → f = s.bpm.lists.get [0, acctList r.account, 0] → f.fresh < f.stop → cell = s.freshCell 0 0
    f.fresh → cell < 2 ^ 22 → (s.tag cell).bad = false → gen = ((s.tag cell).gen + 1) % 256 → ∃ t : State, exec
    (.bufferAlloc k 0 none false) s = .next t.settleAll ∧ ((t.tag cell).held = true ∧ (t.tag cell).gen = gen ∧ (t.tag
    cell).account = r.account) ∧ t.bpm.objects.get [cell] = some r.item ∧ t.rd F.BPM_HELD_BUFFERS r.account 0 = min
    (s.rd F.BPM_HELD_BUFFERS r.account 0 + 1) (2 ^ 23 - 1) ∧ t.sched.descs = s.sched.descs ++
    [{ port, sched := true, vc := 7, desc, ptr := mkPtr 0 gen cell, account := r.account }] ∧ t.bpm.requests =
    s.bpm.requests.erase r) ∧
  (∀ (s : State) (k : Nat) (r : AllocReq) (n : Nat), s.active = true → s.requestOrder[k]? = some r → r.tried ≠ some
    s.store → s.listServes (s.requestOrder.take k) (poolFor r.item.stored).1 (acctList r.account) (poolFor
    r.item.stored).2 = true → s.allocOk (poolFor r.item.stored).2 (poolFor r.item.stored).1 r.account = false → ∃ t :
    State, exec (.bufferAlloc k n none false) s = .next t.settleAll ∧ t.rd F.BPM_TAG_ECC_CORR 0 = min (s.rd
    F.BPM_TAG_ECC_CORR 0 + n) (2 ^ F.BPM_TAG_ECC_CORR.width - 1) ∧ (t.bpm.requests = s.bpm.requests.map (fun q => if q
    = r then { q with refused := some (q.refused.getD s.store), tried := some s.store } else q)) ∧ t.bpm.tags =
    s.bpm.tags ∧ t.bpm.lists = s.bpm.lists) ∧
  (∀ (s : State) (k : Nat) (r : AllocReq) (port n : Nat) (off : Bool), s.active = true → s.requestOrder[k]? = some r →
    r.purpose = .arrival port none off → r.account ≤ 15 → r.refused = some n → n + s.rd F.BPM_GCFG_ALLOC_WAIT ≤
    s.store → ∃ t : State, exec (.allocWaitExpiry k) s = .next t.settleAll ∧ t.bpm.requests = s.bpm.requests.erase r ∧
    t.rd F.BPM_DROPS_COUNT r.account = min (s.rd F.BPM_DROPS_COUNT r.account + 1) (2 ^ F.BPM_DROPS_COUNT.width - 1) ∧
    t.rd F.BPM_ERR_EXHAUSTED = 1 ∧ t.rd F.BPM_ERR_COUNT_EXHAUSTED 0 = min (s.rd F.BPM_ERR_COUNT_EXHAUSTED 0 + 1) (2 ^
    F.BPM_ERR_COUNT_EXHAUSTED.width - 1)) ∧
  (∀ (s : State) (ptr account requester n q c colour : Nat), s.active = true → ptr < 2 ^ 32 → account < 20 → requester
    < 17 → s.ptrFails ptr account none = none → c = ptrCell ptr → q = ptrPool ptr → (colour = if q = 1 then cellColour
    c else 0) → (s.tag c).next = 0 → s.gaveNow q (acctList account) + 1 ≤ 16 → (s.bpm.frees.any (fun r => (ptrPool
    r.ptr, acctList r.account) == (q, acctList account)) = false) → ∃ t : State, exec (.bufferFree ptr account
    requester n none false) s = .next t ∧ ((t.tag c).held = false ∧ (t.tag c).gen = (s.tag c).gen) ∧ t.bpm.objects.get
    [c] = none ∧ (t.bpm.lists.get [q, acctList account, colour]).ret = (s.bpm.lists.get [q, acctList account,
    colour]).ret ++ [(c, s.store + 1)] ∧ t.rd F.BPM_HELD_BUFFERS account q = s.rd F.BPM_HELD_BUFFERS account q - 1 ∧
    t.rd F.BPM_TAG_ECC_CORR 0 = min (s.rd F.BPM_TAG_ECC_CORR 0 + n) (2 ^ F.BPM_TAG_ECC_CORR.width - 1)) ∧
  (∀ (s : State) (ptr account requester : Nat), s.active = true → ptr < 2 ^ 32 → account < 20 → requester < 17 →
    s.ptrFails ptr account none = some 0 → (s.marks.any (fun e => e.2 matches .freedNow ..) = false) → (s.rd
    F.BPM_ERR_DOUBLE_FREE = 0 ∧ s.rd F.BPM_ERR_FOREIGN_FREE = 0 ∧ s.rd F.BPM_ERR_BAD_POINTER = 0 ∧ s.rd
    F.BPM_ERR_TAG_ECC = 0) → ∃ t : State, exec (.bufferFree ptr account requester 0 none false) s = .next t ∧ t.rd
    F.BPM_ERR_DOUBLE_FREE = 1 ∧ t.rd F.BPM_ERR_COUNT_DOUBLE 0 = min (s.rd F.BPM_ERR_COUNT_DOUBLE 0 + 1) (2 ^
    F.BPM_ERR_COUNT_DOUBLE.width - 1) ∧ (t.rd F.BPM_ERR_LAST_VALID = 1 ∧ t.rd F.BPM_ERR_LAST_KIND = 0 ∧ t.rd
    F.BPM_ERR_LAST_ACCOUNT = account ∧ t.rd F.BPM_ERR_LAST_REQUESTER = requester ∧ t.rd F.BPM_ERR_LAST_POINTER = ptr)
    ∧ t.bpm = s.bpm) ∧
  (∀ (s : State) (p : Nat) (e : OppEntry), s.active = true → p < 256 → s.fenced p = true → ((s.sched.oppFifo.get
    [p]).find? (fun e => e.session.isSome) = some e) → ∃ t : State, exec (.mirrorFenceDiscard p) s = .next t ∧
    t.sched.oppFifo.get [p] = (s.sched.oppFifo.get [p]).erase e ∧ t.rd F.SHP_MIR_DROP_FENCED (e.session.getD 0) = min
    (s.rd F.SHP_MIR_DROP_FENCED (e.session.getD 0) + 1) (2 ^ F.SHP_MIR_DROP_FENCED.width - 1) ∧ t.rd
    F.SHP_MIR_PEND_PENDING (e.session.getD 0) = s.rd F.SHP_MIR_PEND_PENDING (e.session.getD 0) - 1)

/-- R145, R166: an item of an undeclared context is captured, one of another operation than the current or the next is
STALE, a refused descriptor is counted with its code, a swatch of no sender is FOREIGN and one accepted before is a
DUP. R167: an item of the next operation, or of a context that is CLOSING, is held as an early one. R146, R155: an
item that passes is accepted, here in a context without early items that is no PARITY context: while its operation
goes on, it is among the operation's descriptors or inputs and is counted, and the context is not IDLE. -/
def Obligations.ItemsAreDecided : Prop :=
  (∀ (s : State) (x : Nat) (b : ArrivedDesc) (rest : List ArrivedDesc), s.active = true → s.sched.descs = b :: rest →
    x = b.desc.context → s.undeclared x = true → ∃ t : State, exec .descriptorArrival s = .next t ∧ t.sched.descs =
    rest ∧ t.rd F.OPC_UNDECL_COUNT 0 = min (s.rd F.OPC_UNDECL_COUNT 0 + 1) (2 ^ F.OPC_UNDECL_COUNT.width - 1) ∧ (t.rd
    F.OPC_UNDECL_LAST_CONTEXT = x % 2 ^ 16 ∧ t.rd F.OPC_UNDECL_LAST_PORT = b.port % 2 ^ 8) ∧ t.ctx = s.ctx) ∧
  (∀ (s : State) (x : Nat) (b : ArrivedDesc) (rest : List ArrivedDesc), s.active = true → s.sched.descs = b :: rest →
    x = b.desc.context → s.undeclared x = false → s.opnumOk x b.desc.opnum = false → ∃ t : State, exec
    .descriptorArrival s = .next t ∧ t.sched.descs = rest ∧ t.rd F.OPC_DROPS_STALE x = min (s.rd F.OPC_DROPS_STALE x +
    1) (2 ^ F.OPC_DROPS_STALE.width - 1) ∧ t.ctx = s.ctx) ∧
  (∀ (s : State) (x : Nat) (b : ArrivedDesc) (rest : List ArrivedDesc), s.active = true → s.sched.descs = b :: rest →
    x = b.desc.context → s.undeclared x = false → s.opnumOk x b.desc.opnum = true → s.refusal b.port b.desc ≠ 0 → ∃ t
    : State, exec .descriptorArrival s = .next t ∧ t.sched.descs = rest ∧ t.rd F.OPC_REFUSED_COUNT 0 = min (s.rd
    F.OPC_REFUSED_COUNT 0 + 1) (2 ^ F.OPC_REFUSED_COUNT.width - 1) ∧ (t.rd F.OPC_REFUSED_CONTEXT = x % 2 ^ 16 ∧ t.rd
    F.OPC_REFUSED_PORT = b.port % 2 ^ 8 ∧ t.rd F.OPC_REFUSED_CODE = s.refusal b.port b.desc) ∧ t.ctx = s.ctx) ∧
  (∀ (s : State) (x : Nat) (b : ArrivedDesc) (rest : List ArrivedDesc), s.active = true → s.sched.descs = b :: rest →
    x = b.desc.context → s.undeclared x = false → s.opnumOk x b.desc.opnum = true → s.refusal b.port b.desc = 0 →
    b.desc.abort = false → ((s.knownDescs x b.desc.opnum).any (fun e => e.rank == b.desc.rank) = false) → s.cutHolds x
    b.port = none → (b.desc.opnum ≠ s.opnum x ∨ s.ctxState x = ctxClosing) → ∃ t : State, exec .descriptorArrival s =
    .next t ∧ (t.op x).early = (s.op x).early ++ [.desc b] ∧ t.rd F.OPC_STATE_EARLY x = 1 ∧ t.ctxState x = s.ctxState
    x) ∧
  (∀ (s : State) (x : Nat) (b : ArrivedDesc) (rest : List ArrivedDesc), s.active = true → s.sched.descs = b :: rest →
    x = b.desc.context → s.undeclared x = false → s.opnumOk x b.desc.opnum = true → s.refusal b.port b.desc = 0 →
    b.desc.abort = false → ((s.knownDescs x b.desc.opnum).any (fun e => e.rank == b.desc.rank) = false) → s.cutHolds x
    b.port = none → b.desc.opnum = s.opnum x → s.ctxState x ≠ ctxClosing → s.drainHolds x = false → (s.op x).early =
    [] → s.kind x ≠ kParity → ∃ t : State, exec .descriptorArrival s = .next t ∧ t.sched.descs = rest ∧ (t.opnum x =
    s.opnum x → (t.op x).descs = (s.op x).descs ++ [(b.port, b.desc)] ∧ t.rd F.OPC_STATE_DESCS x = ((s.op
    x).descs.length + 1) % 2 ^ F.OPC_STATE_DESCS.width ∧ t.ctxState x ≠ ctxIdle)) ∧
  (∀ (s : State) (x : Nat) (a : Arrived) (rest : List Arrived), s.active = true → s.sched.released = a :: rest →
    a.header.skind ≠ skAbort → x = a.header.context → s.undeclared x = false → s.opnumOk x a.header.opnum = false → ∃
    t : State, exec .swatchAccept s = .next t ∧ t.sched.released = rest ∧ t.rd F.OPC_DROPS_STALE x = min (s.rd
    F.OPC_DROPS_STALE x + 1) (2 ^ F.OPC_DROPS_STALE.width - 1) ∧ t.ctx = s.ctx) ∧
  (∀ (s : State) (x : Nat) (a : Arrived) (rest : List Arrived), s.active = true → s.sched.released = a :: rest →
    a.header.skind ≠ skAbort → x = a.header.context → s.undeclared x = false → s.opnumOk x a.header.opnum = true →
    s.senderOk a = false → ∃ t : State, exec .swatchAccept s = .next t ∧ t.sched.released = rest ∧ t.rd
    F.OPC_DROPS_FOREIGN x = min (s.rd F.OPC_DROPS_FOREIGN x + 1) (2 ^ F.OPC_DROPS_FOREIGN.width - 1) ∧ t.ctx = s.ctx) ∧
  (∀ (s : State) (x : Nat) (a : Arrived) (rest : List Arrived), s.active = true → s.sched.released = a :: rest →
    a.header.skind ≠ skAbort → x = a.header.context → s.undeclared x = false → s.opnumOk x a.header.opnum = true →
    s.senderOk a = true → s.swatchDup a = true → ∃ t : State, exec .swatchAccept s = .next t ∧ t.sched.released = rest
    ∧ t.rd F.OPC_DROPS_DUP x = min (s.rd F.OPC_DROPS_DUP x + 1) (2 ^ F.OPC_DROPS_DUP.width - 1) ∧ t.ctx = s.ctx) ∧
  (∀ (s : State) (x : Nat) (a : Arrived) (rest : List Arrived), s.active = true → s.sched.released = a :: rest →
    a.header.skind ≠ skAbort → x = a.header.context → s.undeclared x = false → s.opnumOk x a.header.opnum = true →
    s.senderOk a = true → s.swatchDup a = false → a.header.part ≤ a.header.partsM1 → ((s.checkDesc (s.knownDescs x
    a.header.opnum) a).map (s.rangeOk a)) ≠ some false → s.cutHolds x a.port = none → (a.header.opnum ≠ s.opnum x ∨
    s.ctxState x = ctxClosing) → ∃ t : State, exec .swatchAccept s = .next t ∧ t.sched.released = rest ∧ (t.op
    x).early = (s.op x).early ++ [.swatch a] ∧ t.rd F.OPC_STATE_EARLY x = 1 ∧ t.ctxState x = s.ctxState x) ∧
  (∀ (s : State) (x : Nat) (a : Arrived) (rest : List Arrived), s.active = true → s.sched.released = a :: rest →
    a.header.skind ≠ skAbort → x = a.header.context → s.undeclared x = false → s.opnumOk x a.header.opnum = true →
    s.senderOk a = true → s.swatchDup a = false → a.header.part ≤ a.header.partsM1 → ((s.checkDesc (s.knownDescs x
    a.header.opnum) a).map (s.rangeOk a)) ≠ some false → s.cutHolds x a.port = none → a.header.opnum = s.opnum x →
    s.ctxState x ≠ ctxClosing → s.drainHolds x = false → (s.op x).early = [] → s.kind x ≠ kParity → s.ctxState x ≠
    ctxIdle → ∃ t : State, exec .swatchAccept s = .next t ∧ t.sched.released = rest ∧ (t.opnum x = s.opnum x → (t.op
    x).inputs.map (·.item) = (s.op x).inputs.map (·.item) ++ [a] ∧ t.rd F.OPC_RECV_SWATCHES x = min (s.rd
    F.OPC_RECV_SWATCHES x + 1) (2 ^ F.OPC_RECV_SWATCHES.width - 1) ∧ t.rd F.OPC_BYTES_BYTES x = min (s.rd
    F.OPC_BYTES_BYTES x + a.header.length) (2 ^ F.OPC_BYTES_BYTES.width - 1)))

/-- R157: an operation whose progress timer has reached its limit with its counts not met is to close INCOMPLETE.
R174: an ABORT swatch of the next level is to close the operation ABORTED. R158: what was asked for in a store cycle
is decided at its end, here in a context without early items that is no PARITY context, with nothing else to decide
at that end: the operation closes with the status, the count, and the next OPNUM, its context CLOSING until its
space is free. R205, R206, R211, R213: when every manifest is there the rows are placed by the fences as they stand,
and counted: placed, and dropped for a fence. R210: an output swatch of a destination is assembled once every byte
of it is present, and is counted as assembled. -/
def Obligations.OperationsCloseAndExchange : Prop :=
  (∀ (s : State) (x : Nat) (limit : Nat), s.active = true → x < 65536 → s.ctxState x = ctxOpen → limit = s.rd
    F.LST_TIMEOUT_PROGRESS_US (s.lastOf x) → limit ≠ 0 → (s.op x).timerAt + us limit ≤ s.now → s.countsMet x = false →
    ∃ t : State, exec (.progressTimeout x) s = .next t ∧ t.marked (.ending x (s.opnum x) stIncomplete) 2 = true ∧
    t.regs = s.regs ∧ t.ctx = s.ctx) ∧
  (∀ (s : State) (x : Nat) (limit : Nat), s.active = true → x < 65536 → limit = s.rd F.LST_TIMEOUT_PROGRESS_US
    (s.lastOf x) → (limit = 0 ∨ s.now < (s.op x).timerAt + us limit) → ∃ t : State, exec (.progressTimeout x) s =
    .next t ∧ t = s) ∧
  (∀ (s : State) (x : Nat) (a : Arrived) (rest : List Arrived), s.active = true → s.sched.released = a :: rest →
    a.header.skind = skAbort → x = a.header.context → s.undeclared x = false → s.opnumOk x a.header.opnum = true →
    s.senderOk a = true → s.swatchDup a = false → a.header.part ≤ a.header.partsM1 → s.abortable x a.header.opnum =
    true → ∃ t : State, exec .abortSwatch s = .next t ∧ t.marked (.ending x (s.opnum x) stAborted) 2 = true ∧
    t.sched.released = rest ∧ t.ctxState x = s.ctxState x) ∧
  (∀ (s : State) (x : Nat), s.active = true → s.pending = [] → s.now % 4 = 1 → x < 65536 → (s.op x).early = [] →
    s.kind x ≠ kParity → (s.sched.refused = [] ∧ s.sched.refusedOpp = [] ∧ s.sched.copies = []) → s.link.downNext = []
    → s.host.deciding = none → (s.link.ports.entries.all (fun e => e.2.offUntil.isNone) = true) →
    (s.link.lasers.entries.all (fun e => e.2.resetUntil.isNone) = true) → s.marks = [(s.now, .ending x (s.opnum x)
    stIncomplete)] → s.ctxState x = ctxOpen → s.countsMet x = false → ∃ t : State, step s = .next t ∧ t.ctxState x =
    ctxClosing ∧ t.rd F.OPC_STATE_STATUS x = stIncomplete ∧ t.rd F.OPC_FAIL_INCOMPLETE x = min (s.rd
    F.OPC_FAIL_INCOMPLETE x + 1) (2 ^ F.OPC_FAIL_INCOMPLETE.width - 1) ∧ t.opnum x = (s.opnum x + 1) % 2 ^ 32) ∧
  (∀ (s : State) (x : Nat), s.active = true → s.pending = [] → s.now % 4 = 1 → x < 65536 → (s.op x).early = [] →
    s.kind x ≠ kParity → (s.sched.refused = [] ∧ s.sched.refusedOpp = [] ∧ s.sched.copies = []) → s.link.downNext = []
    → s.host.deciding = none → (s.link.ports.entries.all (fun e => e.2.offUntil.isNone) = true) →
    (s.link.lasers.entries.all (fun e => e.2.resetUntil.isNone) = true) → s.marks = [(s.now, .ending x (s.opnum x)
    stAborted)] → s.abortable x (s.opnum x) = true → ∃ t : State, step s = .next t ∧ t.ctxState x = ctxClosing ∧ t.rd
    F.OPC_STATE_STATUS x = stAborted ∧ t.rd F.OPC_FAIL_ABORTED x = min (s.rd F.OPC_FAIL_ABORTED x + 1) (2 ^
    F.OPC_FAIL_ABORTED.width - 1) ∧ t.opnum x = (s.opnum x + 1) % 2 ^ 32) ∧
  (∀ (s : State) (x : Nat) (n m : Nat), s.active = true → x < 65536 → s.placeReady x = true → (s.op x).early = [] → (n
    = ((s.placements x).map (fun p => p.counts.foldl (· + ·) 0)).foldl (· + ·) 0) → (m = ((s.placements x).zipIdx.map
    (fun p => if p.1.fenced then ((s.operands (s.lastOf x)).map (fun r => (s.manifest x r).getD p.2 0)).foldl (· + ·)
    0 else 0)).foldl (· + ·) 0) → ∃ t : State, exec (.exchangePlacement x) s = .next t.settleAll ∧ t.rd
    F.OPC_XCH_PLACED_ROWS x = min (s.rd F.OPC_XCH_PLACED_ROWS x + n) (2 ^ F.OPC_XCH_PLACED_ROWS.width - 1) ∧ t.rd
    F.OPC_XCH_DROPPED_FENCED x = min (s.rd F.OPC_XCH_DROPPED_FENCED x + m) (2 ^ F.OPC_XCH_DROPPED_FENCED.width - 1) ∧
    (t.opnum x = s.opnum x → (t.op x).placed = s.placements x)) ∧
  (∀ (s : State) (x : Nat) (d k : Nat) (p : Placement) (l : List Byte), s.active = true → x < 65536 → d < 256 → (s.op
    x).placed[d]? = some p → s.kind x = kExchange → s.marked (.placed x) 2 = false → p.fenced = false → k <
    s.outSwatches x p → p.done.contains k = false → (s.ctxState x = ctxOpen ∨ s.ctxState x = ctxFlush) → (s.op
    x).early = [] → s.destBytes x d p (4096 * k) (min (4096 * k + 4096) (s.outStream x p)) = some l → ∃ t : State,
    exec (.exchangeSwatchAssemble x d k) s = .next t.settleAll ∧ (t.opnum x = s.opnum x → ((t.op x).placed[d]?).map
    Placement.done = some (p.done ++ [k])))

/-- R181, R182: the oldest chunk that is not held back is admitted to the place its decision gives, with its granules,
and counted; or it waits for want of space, is counted once, and the last freezes. R191: a core die stops and
reports, and with all four stopped the last is HELD, with the limits reported. R193, R196: a HOLD of a spine holds
the leaf's partials back and an OPEN lets them go; a frame older than the hold changes nothing. R72: the operands
that the next node lacks are requested, and one arrives 24 arithmetic cycles later. R71, R74, R188: a cluster issues
the ready node of its earliest-admitted chunk, for as many cycles as its words take. -/
def Obligations.ChunksAreAdmittedAndIssued : Prop :=
  (∀ (s : State) (k u x c : Nat) (ch : Chunk) (p : Place), s.active = true → k < 416 → u < 16 → s.marked (.request k
    u) 4 = false → (firstBy chunkBefore ((s.allChunks.filter (fun e => e.2.2.last == u && e.2.2.place.isNone &&
    s.ownerCluster e.1 e.2.1 == some k && decide (e.2.2.earliest ≤ s.arith))).filter (fun e => s.admitDecision e.1
    e.2.1 k e.2.2 != .heldBack)) = some (x, c, ch)) → s.admitDecision x c k ch = .enter p → ∃ t : State, exec
    (.admissionDecide k u) s = .next t ∧ ((t.chunk x c).map (fun b => (b.last, b.place, b.cluster, b.grans,
    b.admitAt)) = some (u, some p, k, lowestFree (s.gransUsed k p) (s.rd F.WLT_CTX_NEED x), s.arith)) ∧
    t.comp.admitSeq = s.comp.admitSeq + 1 ∧ (t.rd (if p = .spill then F.WLT_ADMITS_SPILL else F.WLT_ADMITS_WELT) u =
    min (s.rd (if p = .spill then F.WLT_ADMITS_SPILL else F.WLT_ADMITS_WELT) u + 1) (2 ^ (if p = .spill then
    F.WLT_ADMITS_SPILL else F.WLT_ADMITS_WELT).width - 1))) ∧
  (∀ (s : State) (k u x c : Nat) (ch : Chunk), s.active = true → k < 416 → u < 16 → s.marked (.request k u) 4 = false
    → (firstBy chunkBefore ((s.allChunks.filter (fun e => e.2.2.last == u && e.2.2.place.isNone && s.ownerCluster e.1
    e.2.1 == some k && decide (e.2.2.earliest ≤ s.arith))).filter (fun e => s.admitDecision e.1 e.2.1 k e.2.2 !=
    .heldBack)) = some (x, c, ch)) → s.chunk x c = some ch → s.admitDecision x c k ch = .noSpace → ∃ t : State, exec
    (.admissionDecide k u) s = .next t ∧ t.chunk x c = some { ch with waited := true } ∧ (ch.waited = false → t.rd
    F.WLT_WAITS_COUNT u = min (s.rd F.WLT_WAITS_COUNT u + 1) (2 ^ F.WLT_WAITS_COUNT.width - 1)) ∧ (s.wltState u =
    wltGranted ∧ s.lastState u ≠ lstPaused → t.wltState u = wltFreezing)) ∧
  (∀ (s : State) (u die : Nat), s.active = true → u < 16 → die < 4 → s.wltState u = wltFreezing → s.lastState u ≠
    lstPaused → (s.hold u).stopped.contains die = false → ∃ t : State, exec (.freezeDieStop u die) s = .next t ∧
    t.hold u =
    { s.hold u with stopped := (s.hold u).stopped ++ [die], highs := mergeHighs (s.hold u).highs (s.dieReport u die) }
    ∧ t.regs = s.regs) ∧
  (∀ (s : State) (u x n : Nat), s.active = true → u < 16 → s.wltState u = wltFreezing → s.lastState u ≠ lstPaused → (∀
    d < 4, (s.hold u).stopped.contains d = true) → (s.hold u).highs.contains (x, n) = true → (∀ e ∈ (s.hold u).highs,
    e.1 = x → e.2 = n) → ∃ t : State, exec (.holdEnter u) s = .next t ∧ t.wltState u = wltHeld ∧ t.flag
    F.WLT_CTX_LISTED x = true ∧ t.rd F.WLT_CTX_LIMIT x = n % 2 ^ 32) ∧
  (∀ (s : State) (u j port ptr : Nat) (l : List Byte) (rest : List (Nat × List Byte × Nat)), s.active = true →
    s.sched.grantsIn = (port, l, ptr) :: rest → u = field l 1 1 % 16 → j = port / 4 % max 1 s.spineCount → s.accepted
    = true → s.flag F.LST_CFG_VALID u = true → s.level u = levelSegment → port % 4 = 3 → (s.comp.spines.get [u,
    j]).epoch ≤ field l 4 4 → field l 0 1 = 1 → (s.marks.any (fun e => e.2 matches .trigger ..) = false) → ∃ t :
    State, exec .spineHoldReceive s = .next t.settleAll ∧ t.sched.grantsIn = rest ∧ ((t.comp.spines.get [u, j]).held =
    true ∧ (t.comp.spines.get [u, j]).epoch = field l 4 4) ∧ (t.hold u).spines.contains j = true ∧ (s.wltState u =
    wltGranted ∧ s.lastState u ≠ lstPaused → t.wltState u = wltFreezing ∧ t.rd F.WLT_STATE_CAUSE u = 3)) ∧
  (∀ (s : State) (u j port ptr : Nat) (l : List Byte) (rest : List (Nat × List Byte × Nat)), s.active = true →
    s.sched.grantsIn = (port, l, ptr) :: rest → u = field l 1 1 % 16 → j = port / 4 % max 1 s.spineCount → s.accepted
    = true → s.flag F.LST_CFG_VALID u = true → s.level u = levelSegment → port % 4 = 3 → (s.comp.spines.get [u,
    j]).epoch ≤ field l 4 4 → field l 0 1 = 2 → ∃ t : State, exec .spineHoldReceive s = .next t.settleAll ∧
    t.sched.grantsIn = rest ∧ t.comp.spines.get [u, j] = { epoch := field l 4 4, held := false, limits := [] } ∧
    (t.hold u).spines.contains j = false) ∧
  (∀ (s : State) (u j port ptr : Nat) (l : List Byte) (rest : List (Nat × List Byte × Nat)), s.active = true →
    s.sched.grantsIn = (port, l, ptr) :: rest → u = field l 1 1 % 16 → j = port / 4 % max 1 s.spineCount → s.accepted
    = true → s.flag F.LST_CFG_VALID u = true → s.level u = levelSegment → port % 4 = 3 → field l 4 4 <
    (s.comp.spines.get [u, j]).epoch → ∃ t : State, exec .spineHoldReceive s = .next t.settleAll ∧ t.sched.grantsIn =
    rest ∧ t.comp.spines = s.comp.spines ∧ t.hold u = s.hold u ∧ t.wltState u = s.wltState u) ∧
  (∀ (s : State) (x c : Nat) (ch : Chunk) (n : Src × Option Src) (l : NodeLack), s.active = true → x < 65536 → s.chunk
    x c = some ch → ch.place ≠ none → (s.nodesOf x)[ch.issued]? = some n → s.nodeLack x c ch.issued ch n = l →
    l.absent = false → l.operands ≠ [] → (s.bufferUse ch.cluster + (l.operands.foldl (fun b r => b + s.operandBytes x
    c r) 0 + s.slotSize x * (l.partials.length + b2n l.room)) ≤ 65536) → (l.room && !s.roomSafe x c ch.issued
    ch.cluster) = false → ∃ t : State, exec (.operandFetchRequest x c) s = .next t ∧ (l.operands.all (fun r =>
    (((t.chunk x c).map Chunk.requested).getD []).contains (r, s.arith)) = true) ∧ (l.partials.all (fun q =>
    (((t.chunk x c).map Chunk.fetching).getD []).contains (q, s.arith)) = true)) ∧
  (∀ (s : State) (x c : Nat) (ch : Chunk) (r since : Nat), s.active = true → x < 65536 → s.chunk x c = some ch →
    (ch.requested.find? (fun q => q.1 == r) = some (r, since)) → since + 24 ≤ s.arith → (s.operandSender x r).isSome =
    true → ∃ t : State, exec (.operandArrive x c r none) s = .next t.settleAll ∧ (t.chunk x c = some
    { ch with requested := ch.requested.filter (fun q => q.1 != r), buffered := ch.buffered ++ [r] })) ∧
  (∀ (s : State) (k x c : Nat) (ch : Chunk) (n : Src × Option Src), s.active = true → k < 416 → (firstBy issueBefore
    (s.allChunks.filter (fun e => e.2.2.place.isSome && e.2.2.cluster == k && s.nodeReady e.1 e.2.1 e.2.2)) = some (x,
    c, ch)) → s.comp.freeAt.get [k] ≤ s.arith → (s.nodesOf x)[ch.issued]? = some n → ∃ t : State, exec (.nodeIssue k)
    s = .next t ∧ ((t.chunk x c).map (fun b => (b.issued, b.firstAt)) = some (ch.issued + 1, s.arith)) ∧ ((t.chunk x
    c).map Chunk.root = some (if ch.issued + 1 = (s.nodesOf x).length then some (s.nodeResult x c ch n).1 else none))
    ∧ t.comp.freeAt.get [k] = s.arith + s.cyclesOf x (s.nodeResult x c ch n).1.length)

/-- R82 to R84: corrected welt words are counted; a failed check is counted and recorded, and its chunk replays, or at
the third time its cluster is retired at once and the chunk waits to be admitted again. R79, R80: a chunk whose root
is ready and whose result has its buffers commits: its operation notes it, it leaves its cluster, and what it
counted becomes visible. R126, R127: a record arrives, or starts warm-up when it cannot be read. R89: the next spare
is tested and is a spare again, or RETIRED. R96: a lost core die has no active cluster and serves no logical one.
R131 to R133: the monitor reads a sample's inputs and then counts its verdict. R188: a spilled partial comes back
and a spilled result is written. -/
def Obligations.ChunksAreCheckedAndCommitted : Prop :=
  (∀ (s : State) (k x n c node a m : Nat), s.active = true → k < 416 → x < 65536 → ∃ t : State, exec (.checkVerdict k
    x n c node none a m) s = .next t ∧ t.rd F.CL_WELT_ECC_CORR k = min (s.rd F.CL_WELT_ECC_CORR k + m) (2 ^
    F.CL_WELT_ECC_CORR.width - 1) ∧ t.comp = s.comp) ∧
  (∀ (s : State) (x c : Nat) (ch : Chunk) (k node : Nat) (path : CheckPath), s.active = true → x < 65536 → s.chunk x c
    = some ch → k < 416 → ch.place ≠ none → ch.cluster = k → ch.replays < 2 → (s.marks.any (fun e => e.2 matches
    .admitted ..) = false) → ∃ t : State, exec (.checkVerdict k x (s.opnum x) c node (some path) ch.attempt 0) s =
    .next t ∧ t.rd path.counter k = min (s.rd path.counter k + 1) (2 ^ path.counter.width - 1) ∧ t.rd
    F.CL_REPLAYS_COUNT k = min (s.rd F.CL_REPLAYS_COUNT k + 1) (2 ^ F.CL_REPLAYS_COUNT.width - 1) ∧ (t.rd
    F.CL_LAST_ERR_CONTEXT k = x % 2 ^ F.CL_LAST_ERR_CONTEXT.width ∧ t.rd F.CL_LAST_ERR_CHUNK k = c % 2 ^
    F.CL_LAST_ERR_CHUNK.width ∧ t.rd F.CL_LAST_ERR_NODE k = node % 2 ^ F.CL_LAST_ERR_NODE.width ∧ t.rd
    F.CL_LAST_ERR_PATH k = path.code ∧ t.rd F.CL_LAST_ERR_VALID k = 1) ∧ ((t.chunk x c).map (fun b => (b.replays,
    b.attempt, b.issued, b.admitSeq)) = some (ch.replays + 1, ch.attempt + 1, 0, ch.admitSeq)) ∧ ((t.chunk x c).map
    (fun b => (b.slots, b.root)) = some ([], none))) ∧
  (∀ (s : State) (x c : Nat) (ch : Chunk) (k node : Nat) (path : CheckPath), s.active = true → x < 65536 → s.chunk x c
    = some ch → k < 416 → ch.place ≠ none → ch.cluster = k → 2 ≤ ch.replays → (s.marks.any (fun e => e.2 matches
    .admitted ..) = false) → ∃ t : State, exec (.checkVerdict k x (s.opnum x) c node (some path) ch.attempt 0) s =
    .next t ∧ t.clState k = clRetired ∧ t.rd F.CL_STATE_CAUSE k = 2 ∧ ((t.chunk x c).map (fun b => (b.place, b.ahead,
    b.replays)) = some (none, true, 0))) ∧
  (∀ (s : State) (x c : Nat) (ch : Chunk) (el : List Elem), s.active = true → x < 65536 → s.chunk x c = some ch →
    ch.root = some el → ch.lastAt + 7 ≤ s.arith → (s.hasRecord x c = true → ch.record ≠ none) → s.kind x ≠ kParity →
    s.level ch.last ≠ levelSegment → (s.op x).early = [] → ((s.allocAll ch.last (reqCore (clDie ch.cluster))
    (((resultParts (fmtCap (s.outFmt x)) (s.rootOut x c ch el).bytes).zipIdx).map (fun p => .swatch
    { skind := skResult, partsM1 := (resultParts (fmtCap (s.outFmt x)) (s.rootOut x c ch el).bytes).length - 1, part := p.2, context := x, opnum := s.opnum x, chunk := c, length := p.1.length }
    p.1))).isSome = true) → ∃ t : State, exec (.chunkCommit x c) s = .next t.settleAll ∧ (t.opnum x = s.opnum x →
    (t.op x).committed = (s.op x).committed ++ [c] ∧ t.chunk x c = none) ∧ t.rd F.CL_CHUNKS_COUNT ch.cluster = min
    (s.rd F.CL_CHUNKS_COUNT ch.cluster + 1) (2 ^ F.CL_CHUNKS_COUNT.width - 1) ∧ t.rd F.NUM_SAT_COUNT x = min (s.rd
    F.NUM_SAT_COUNT x + (ch.ev.add (s.rootOut x c ch el).ev).sat) (2 ^ F.NUM_SAT_COUNT.width - 1) ∧ t.rd
    F.NUM_UNDERFLOW_COUNT x = min (s.rd F.NUM_UNDERFLOW_COUNT x + (ch.ev.add (s.rootOut x c ch el).ev).underflow) (2 ^
    F.NUM_UNDERFLOW_COUNT.width - 1)) ∧
  (∀ (s : State) (x c : Nat) (ch : Chunk) (el : List Elem), s.active = true → x < 65536 → s.chunk x c = some ch →
    ch.root = some el → ch.lastAt + 7 ≤ s.arith → (s.hasRecord x c = true → ch.record ≠ none) → s.kind x ≠ kParity →
    s.level ch.last = levelSegment → (s.op x).early = [] → ((s.allocAll ch.last (reqCore (clDie ch.cluster))
    (((resultParts 4096 (partialBytes (accCode (s.inFmt x) (s.operator x)) el)).zipIdx).map (fun p => .swatch
    { skind := skPartial, partsM1 := (resultParts 4096 (partialBytes (accCode (s.inFmt x) (s.operator x)) el)).length - 1, part := p.2, context := x, opnum := s.opnum x, chunk := c, rank := s.rd F.LST_SEG_INDEX ch.last, length := p.1.length, weight := s.rd F.LST_SEG_SIZE ch.last }
    p.1))).isSome = true) → ∃ t : State, exec (.chunkCommit x c) s = .next t.settleAll ∧ (t.opnum x = s.opnum x →
    (t.op x).committed = (s.op x).committed ++ [c] ∧ t.chunk x c = none) ∧ t.rd F.CL_CHUNKS_COUNT ch.cluster = min
    (s.rd F.CL_CHUNKS_COUNT ch.cluster + 1) (2 ^ F.CL_CHUNKS_COUNT.width - 1) ∧ t.rd F.NUM_SAT_COUNT x = min (s.rd
    F.NUM_SAT_COUNT x + ch.ev.sat) (2 ^ F.NUM_SAT_COUNT.width - 1) ∧ t.rd F.NUM_UNDERFLOW_COUNT x = min (s.rd
    F.NUM_UNDERFLOW_COUNT x + ch.ev.underflow) (2 ^ F.NUM_UNDERFLOW_COUNT.width - 1)) ∧
  (∀ (s : State) (x c : Nat) (ch : Chunk) (l : List Byte), s.active = true → x < 65536 → s.chunk x c = some ch →
    ch.place ≠ none → s.hasRecord x c = true → ch.record = none → ch.admitAt + 40 ≤ s.arith → (s.gddrRead
    (s.recordAddr x c) (recordSize (s.outFmt x)) none).1 = some l → ∃ t : State, exec (.numRecordArrive x c false) s =
    .next t ∧ t.chunk x c = some { ch with record := some (readNumRec l) }) ∧
  (∀ (s : State) (x c : Nat) (ch : Chunk), s.active = true → x < 65536 → s.chunk x c = some ch → ch.place ≠ none →
    s.hasRecord x c = true → ch.record = none → ch.admitAt + 40 ≤ s.arith → ∃ t : State, exec (.numRecordArrive x c
    true) s = .next t ∧ (t.chunk x c).map Chunk.record = some (some (s.warmRecord x)) ∧ t.rd F.NUM_STATE_LOST_COUNT 0
    = min (s.rd F.NUM_STATE_LOST_COUNT 0 + 1) (2 ^ F.NUM_STATE_LOST_COUNT.width - 1)) ∧
  (∀ (s : State) (k : Nat), s.active = true → s.comp.testing = none → s.nextSpare = some k → ∃ t : State, exec
    .spareSelfTestStart s = .next t ∧ t.comp.testing = some (k, s.now) ∧ t.comp.tested = some k ∧ t.clState k =
    clTest) ∧
  (∀ (s : State) (k since : Nat) (pass : Bool), s.active = true → s.comp.testing = some (k, since) → since + us 40 ≤
    s.now → ∃ t : State, exec (.spareSelfTestEnd pass) s = .next t ∧ t.comp.testing = none ∧ (t.rd F.CL_TEST_DONE k =
    1 ∧ t.rd F.CL_TEST_FAIL k = b2n (!pass)) ∧ (t.clState k = (if pass then clSpare else clRetired))) ∧
  (∀ (s : State) (die k : Nat), s.active = true → die < 4 → k ∈ dieClusters die → s.clState k = clActive → ∃ t :
    State, exec (.coreDieLoss die) s = .next t ∧ t.clState k = clRetired ∧ t.rd F.CL_STATE_CAUSE k = 6 ∧ (∀ l < 100,
    t.flag F.CL_LOG2PHYS_MAPPED (100 * die + l) = false)) ∧
  (∀ (s : State) (die : Nat) (smp : Sample), s.active = true → die < 4 → (s.comp.monitors.get [die]).current = some
    smp → (s.comp.monitors.get [die]).read = false → (s.comp.monitors.get [die]).since + smp.inCells ≤ s.arith → ∃ t :
    State, exec (.monitorInputsRead die) s = .next t.settleAll ∧ t.comp.monitors.get [die] =
    { s.comp.monitors.get [die] with current := some { smp with inputs := [] }, read := true }) ∧
  (∀ (s : State) (die : Nat) (smp : Sample), s.active = true → die < 4 → (s.comp.monitors.get [die]).current = some
    smp → (s.comp.monitors.get [die]).read = true → (s.comp.monitors.get [die]).since + smp.inCells + smp.outCells +
    ceilDiv smp.adds 8 ≤ s.arith → ∃ t : State, exec (.shadowCheckComplete die) s = .next t ∧ ((t.comp.monitors.get
    [die]).current = (s.comp.monitors.get [die]).waiting ∧ (t.comp.monitors.get [die]).waiting = none) ∧ t.rd
    F.NUM_MON_STAT_DONE die = min (s.rd F.NUM_MON_STAT_DONE die + 1) (2 ^ F.NUM_MON_STAT_DONE.width - 1) ∧ t.rd
    F.NUM_SHADOW_SAMPLES smp.context = min (s.rd F.NUM_SHADOW_SAMPLES smp.context + 1) (2 ^ F.NUM_SHADOW_SAMPLES.width
    - 1) ∧ (t.rd F.NUM_SHADOW_AGREE smp.context = (if smp.errs.all (·.within 1) = true then min (s.rd
    F.NUM_SHADOW_AGREE smp.context + 1) (2 ^ F.NUM_SHADOW_AGREE.width - 1) else s.rd F.NUM_SHADOW_AGREE smp.context))
    ∧ (t.rd F.NUM_SHADOW_WITHIN smp.context = (if smp.errs.all (·.within 1) = false ∧ smp.errs.all (·.within (2 * s.rd
    F.NUM_GCFG_SHADOW_TOL)) = true then min (s.rd F.NUM_SHADOW_WITHIN smp.context + 1) (2 ^ F.NUM_SHADOW_WITHIN.width
    - 1) else s.rd F.NUM_SHADOW_WITHIN smp.context)) ∧ (t.rd F.NUM_SHADOW_BEYOND smp.context = (if smp.errs.all
    (·.within 1) = false ∧ smp.errs.all (·.within (2 * s.rd F.NUM_GCFG_SHADOW_TOL)) = false then min (s.rd
    F.NUM_SHADOW_BEYOND smp.context + 1) (2 ^ F.NUM_SHADOW_BEYOND.width - 1) else s.rd F.NUM_SHADOW_BEYOND
    smp.context))) ∧
  (∀ (s : State) (x c : Nat) (ch : Chunk) (q : Nat) (j : SpillJob) (p : Nat × List Elem), s.active = true → x < 65536
    → s.chunk x c = some ch → s.spillTurn (clDie ch.cluster) x c q false = some j → (ch.slots.find? (fun e => e.1 ==
    q) = some p) → s.spillReady (clDie ch.cluster) j ≤ s.arith → s.aheadOfSpill (s.slotAddrs x ch (ch.slotOf q)) 4096
    = false → ((ch.away.find? (fun a => a.1 == q)).isSome = true) → (((s.slotAddrs x ch (ch.slotOf q)).filterMap (fun
    a => s.gddrFailed a 4096)).head? = none) → ∃ t : State, exec (.spillFetchComplete x c q none) s = .next
    t.settleAll ∧ ((t.chunk x c).map (fun b => (b.fetching, b.back)) = some (ch.fetching.filter (fun g => g.1 != q),
    ch.back ++ [q])) ∧ ((t.chunk x c).map (fun b => b.slots.map Prod.fst) = some (ch.slots.map Prod.fst))) ∧
  (∀ (s : State) (x c : Nat) (ch : Chunk) (q : Nat) (j : SpillJob) (p : Nat × List Elem), s.active = true → x < 65536
    → s.chunk x c = some ch → s.spillTurn (clDie ch.cluster) x c q true = some j → (ch.slots.find? (fun e => e.1 == q)
    = some p) → s.spillReady (clDie ch.cluster) j ≤ s.arith → s.aheadOfSpill (s.slotAddrs x ch (ch.slotOf q)) 4096 =
    false → ∃ t : State, exec (.spillWritebackComplete x c q) s = .next t ∧ t.chunk x c = some
    { ch with leaving := ch.leaving.filter (· != q), away := ch.away ++ [(q, s.arith + 140)] })

/-- R349: the cut ends when every member is described and every covered context rests, with the image written; the
epoch goes on. R350: after CUT_MS the epoch is aborted, its PARITY operations close, and source 57 is raised. R354:
the oldest drain completes, and its epoch is secured, a full one as the full epoch too. R355: an epoch that is
committed, whose predecessor is secured and whose interval has passed is DONE and its operations close. R372: a tier
write that fails is counted and raises source 58. R358, R359: RISK is the weighted sum of the scores, and the alert
its comparison with ALERT. R360: MEMBER_S, BASE_S and INTERVAL_S. -/
def Obligations.EpochsAreCutSecuredAndClosed : Prop :=
  (∀ (s : State) (u : Nat) (e : Epoch), s.active = true → u < 16 → (s.sporeLast u).epoch = some e → e.cut = true →
    s.allDescribed u = true → s.allRest u e.covered = true → (s.sporeLast u).held = [] → (s.gddrWrite (s.sporeBase +
    e.buffer * s.sporeHalf + 4096 * (s.imagePart u).1) ((s.imageBytes u e).take (4096 * (s.imagePart u).2))).1 = true
    → ∃ t : State, exec (.epochCutEnd u) s = .next t.settleAll ∧ (((t.sporeLast u).epoch).map (fun b => (b.number,
    b.cut, b.buffer, b.full)) = some (e.number, false, e.buffer, e.full)) ∧ ((s.sporeLast u).recovery = none → t.rd
    F.CKP_LAST_STAT_STATE u = ckpStream ∨ t.rd F.CKP_LAST_STAT_STATE u = ckpLinger)) ∧
  (∀ (s : State) (u : Nat) (e : Epoch), s.active = true → u < 16 → (s.sporeLast u).epoch = some e → (e.cut = false ∨
    s.allDescribed u = false ∨ s.allRest u e.covered = false) → ∃ t : State, exec (.epochCutEnd u) s = .next
    t.settleAll ∧ t = s) ∧
  (∀ (s : State) (u : Nat) (e : Epoch), s.active = true → u < 16 → (s.sporeLast u).epoch = some e → e.cut = true →
    e.since + ms (s.rd F.CKP_CFG_CUT_MS) ≤ s.now → (s.sporeLast u).held = [] → ((s.epochContexts u).all (fun x =>
    s.lastOf x == u && (s.op x).early.isEmpty) = true) → ∃ t : State, exec (.epochCutTimeout u) s = .next t.settleAll
    ∧ (t.sporeLast u).epoch = none ∧ (∀ x ∈ s.epochContexts u, s.abortable x (s.opnum x) = true → t.ctxState x =
    ctxClosing) ∧ t.rd F.CKP_EVENTS_ABORTED 0 = min (s.rd F.CKP_EVENTS_ABORTED 0 + 1) (2 ^ F.CKP_EVENTS_ABORTED.width
    - 1) ∧ (∃ m : FaultMsg, (s.now, m) ∈ t.flt.inbox ∧ m.source = 57 ∧ m.n = 1 ∧ m.detail = u)) ∧
  (∀ (s : State) (u : Nat) (d : Drain) (rest : List Drain), s.active = true → u < 16 → (s.sporeLast u).drains = d ::
    rest → ((s.drainGranules u).find? (fun k => (s.gddrFailed (s.sporeBase + d.buffer * s.sporeHalf + 4096 * k)
    4096).isSome) = none) → s.tierUp = true → d.since + s.drainCycles u d ≤ s.now → (s.aheadOfOthers
    ((((s.drainGranules u).map (fun k => gddrDie (s.sporeBase + d.buffer * s.sporeHalf + 4096 * k))).eraseDups).map
    (4096 * ·)) 4096 = false) → (s.allocNow (stagingBlock (4096 * (s.drainGranules u).length)) 19 (reqMem 0)).1.isSome
    = true → ∃ t : State, exec (.epochSecured u none) s = .next t.settleAll ∧ (t.sporeLast u).drains = rest ∧
    (t.sporeLast u).securedSlot = some d.buffer ∧ t.rd F.CKP_EPOCH_SECURED u = d.epoch % 2 ^ 32 ∧ (t.rd
    F.CKP_FULL_EPOCH u = (if d.full = none then s.rd F.CKP_FULL_EPOCH u else d.epoch % 2 ^ 32))) ∧
  (∀ (s : State) (u : Nat) (e : Epoch), s.active = true → u < 16 → (s.sporeLast u).epoch = some e → s.epochReady u e =
    true → (∀ z, (s.sporeLast u).lastClose = some z → z + secs (s.rd F.CKP_CAD_STAT_INTERVAL_S) ≤ s.now) →
    ((s.epochContexts u).all (fun x => s.ctxState x == ctxFlush) = true) → ((s.epochContexts u).all (fun x => s.lastOf
    x == u && (s.op x).early.isEmpty) = true) → ∃ t : State, exec (.epochClose u) s = .next t.settleAll ∧
    ((t.sporeLast u).epoch = none ∧ (t.sporeLast u).anyClosed = true ∧ (t.sporeLast u).doneBuf = some e.buffer ∧
    (t.sporeLast u).lastClose = some s.now) ∧ t.rd F.CKP_EPOCH_DONE u = e.number % 2 ^ 32 ∧ t.rd F.CKP_EVENTS_EPOCHS 0
    = min (s.rd F.CKP_EVENTS_EPOCHS 0 + 1) (2 ^ F.CKP_EVENTS_EPOCHS.width - 1) ∧ (∀ x ∈ s.epochContexts u, t.ctxState
    x = ctxIdle)) ∧
  (∀ (s : State) (u : Nat) (d : Drain) (rest : List Drain) (i k : Nat), s.active = true → u < 16 → (s.sporeLast
    u).drains = d :: rest → i < 2 → ∃ t : State, exec (.tierWriteFail u i k) s = .next t ∧ (t.sporeLast u).drains =
    { d with acked := max d.acked (min k d.total) } :: rest ∧ t.rd F.MEM_CXL_ERR_WRITE_FAIL i = min (s.rd
    F.MEM_CXL_ERR_WRITE_FAIL i + 1) (2 ^ F.MEM_CXL_ERR_WRITE_FAIL.width - 1) ∧ t.rd F.CKP_DRAIN_ERRORS 0 = min (s.rd
    F.CKP_DRAIN_ERRORS 0 + 1) (2 ^ F.CKP_DRAIN_ERRORS.width - 1) ∧ (∃ m : FaultMsg, (s.now, m) ∈ t.flt.inbox ∧
    m.source = 58 ∧ m.n = 1 ∧ m.detail = u)) ∧
  (∀ (s : State), s.active = true → ∃ t : State, exec .lichenUpdate s = .next t ∧ t.rd F.CKP_LICHEN_RISK = min 65535
    ((s.rd F.CKP_LICHEN_W_W_FEC * t.rd F.CKP_LICHEN_S_FEC + s.rd F.CKP_LICHEN_W_W_BIAS * t.rd F.CKP_LICHEN_S_BIAS +
    s.rd F.CKP_LICHEN_W_W_TEMP * t.rd F.CKP_LICHEN_S_TEMP + s.rd F.CKP_LICHEN_W_W_ECC * t.rd F.CKP_LICHEN_S_ECC + s.rd
    F.CKP_LICHEN_W_W_RESIDUE * t.rd F.CKP_LICHEN_S_RESIDUE) / 8) ∧ (t.rd F.CKP_LICHEN_S_RESIDUE = score
    (s.comp.failures.filter (fun z => decide (s.now < z + secs 3600))).length 1 (s.rd F.CKP_LICHEN_THR_LO 4) (s.rd
    F.CKP_LICHEN_THR_HI 4)) ∧ t.spore.alert = decide (16 * s.rd F.CKP_LICHEN_W_ALERT ≤ t.rd F.CKP_LICHEN_RISK)) ∧
  (∀ (s : State), s.active = true → ∃ t : State, exec .cadenceUpdate s = .next t ∧ t.rd F.CKP_CAD_OBS_MEMBER_S 0 = min
    (s.rd F.CKP_CAD_OBS_MEMBER_S 0 + s.presentMembers) (2 ^ F.CKP_CAD_OBS_MEMBER_S.width - 1) ∧ (s.presentMembers = 0
    → t.rd F.CKP_CAD_STAT_INTERVAL_S = s.rd F.CKP_CAD_T_MAX_S % 2 ^ F.CKP_CAD_STAT_INTERVAL_S.width) ∧
    (s.presentMembers ≠ 0 → t.rd F.CKP_CAD_STAT_BASE_S = min (2 ^ 32 - 1) (Nat.sqrt (2 * s.rd F.CKP_CAD_COST_MS *
    (t.rd F.CKP_CAD_OBS_MEMBER_S + 3600 * s.rd F.CKP_CAD_PRIOR_PRIOR_MH) / (1000 * (s.rd F.CKP_CAD_OBS_FAILURES + 1) *
    s.presentMembers)))) ∧ (s.presentMembers ≠ 0 → t.rd F.CKP_CAD_STAT_INTERVAL_S = min (s.rd F.CKP_CAD_T_MAX_S) (max
    (s.rd F.CKP_CAD_T_MIN_S) (t.rd F.CKP_CAD_STAT_BASE_S * 256 / (256 + s.rd F.CKP_LICHEN_RISK))) % 2 ^
    F.CKP_CAD_STAT_INTERVAL_S.width))

/-- R362, R363: a member whose port has been fenced for GRACE_MS is failed: every last with a member there is PAUSED
and the failure is counted. R365: a WAITING group whose lost members are PRESENT regrows with the decode rows of its
lost positions, in an operation of its REGROW_CTX with the TAG of the latest epoch. R368: when every regrowth or
restore of a last is finished, here with its covered contexts idle and no other last in recovery, its groups are
protected, DONE is the epoch it returned to and the last is ACTIVE. R369: a last with a group beyond regrowth has
its groups LOST without a full epoch, and RESTORING with one; a shard read goes to its member, and a poisoned one is
counted. -/
def Obligations.MembersFailAndLastsRecover : Prop :=
  (∀ (s : State) (p u since : Nat), s.active = true → p < 256 → s.sched.fenceSince.get [p] = some since → s.accepted =
    true → (s.lastsOn p).contains u = true → s.lastState u ≠ lstEmpty → since + ms (s.rd F.CKP_CFG_GRACE_MS) ≤ s.now →
    ∃ t : State, exec (.memberFailed p) s = .next t.settleAll ∧ t.fenced p = true ∧ t.lastState u = lstPaused ∧ t.rd
    F.CKP_CAD_OBS_FAILURES 0 = min (s.rd F.CKP_CAD_OBS_FAILURES 0 + 1) (2 ^ F.CKP_CAD_OBS_FAILURES.width - 1)) ∧
  (∀ (s : State) (p since : Nat), s.active = true → p < 256 → s.sched.fenceSince.get [p] = some since → s.now < since
    + ms (s.rd F.CKP_CFG_GRACE_MS) → ∃ t : State, exec (.memberFailed p) s = .next t.settleAll ∧ t = s) ∧
  (∀ (s : State) (u g : Nat), s.active = true → u < 16 → g < 32 → s.flag F.CKP_GROUP_VALID u g = true → s.groupState u
    g = grpWaiting → s.lostPresent u g = true → s.ctxState (s.rd F.CKP_GROUP_REGROW_CTX u g) = ctxIdle → s.beyond u g
    = false → ∃ t : State, exec (.regrowthStart u g) s = .next t.settleAll ∧ t.groupState u g = grpRegrowing ∧ t.rd
    F.CKP_LAST_STAT_STATE u = ckpRegrowing ∧ (t.spore.groups.get [u, g]).rows = decodeRows (s.rd F.CKP_GROUP_SIZE u g)
    (s.lostPositions u g) ∧ t.ctxState (s.rd F.CKP_GROUP_REGROW_CTX u g) = ctxOpen ∧ t.rd F.OPC_TAG_TAG (s.rd
    F.CKP_GROUP_REGROW_CTX u g) = s.rd F.CKP_EPOCH_DONE u % 2 ^ F.OPC_TAG_TAG.width) ∧
  (∀ (s : State) (u : Nat) (r : Recovery) (bad : Option Nat), s.active = true → u < 16 → (s.sporeLast u).recovery =
    some r → ((s.groups u).filter (fun g => s.groupState u g == grpRegrowing || s.groupState u g == grpRestoring) ≠
    []) → ((s.groups u).all (fun g => s.groupState u g == grpProtected || (((s.groups u).filter (fun g => s.groupState
    u g == grpRegrowing || s.groupState u g == grpRestoring)).contains g && (s.spore.groups.get [u, g]).finished)) =
    true) → ((s.contexts.filter (fun x => (s.coveredBy u).contains (s.lastOf x))).all (fun x => s.ctxState x ==
    ctxIdle || s.ctxState x == ctxUndeclared) = true) → (s.lasts.all (fun v => v == u || (s.sporeLast v).recovery ==
    none) = true) → s.lastState u = lstPaused → ∃ t : State, exec (.rollback u bad) s = .next t.settleAll.settleAll ∧
    ((t.sporeLast u).recovery = none ∧ (t.sporeLast u).anyClosed = ((s.sporeLast u).anyClosed && r.full.isNone)) ∧ (∀
    g ∈ s.groups u, t.groupState u g = grpProtected ∧ t.rd F.CKP_GROUP_STAT_LOST u g = 0) ∧ t.rd F.CKP_EPOCH_DONE u =
    (r.full.map Prod.fst).getD (s.rd F.CKP_EPOCH_DONE u) % 2 ^ 32 ∧ t.lastState u = lstActive ∧ t.rd
    F.CKP_LAST_STAT_STATE u = ckpIdle) ∧
  (∀ (s : State) (u : Nat) (r : Recovery), s.active = true → u < 16 → (s.sporeLast u).recovery = some r → r.full =
    none → (s.groups u).any (s.beyond u) = true → s.rd F.CKP_FULL_EPOCH u = noEpoch → ∃ t : State, exec (.restoreStart
    u) s = .next t.settleAll ∧ (∀ g ∈ s.groups u, t.groupState u g = grpLost) ∧ t.rd F.CKP_LAST_STAT_STATE u = ckpLost
    ∧ t.lastState u = s.lastState u ∧ (∃ m : FaultMsg, (s.now, m) ∈ t.flt.inbox ∧ m.source = 60 ∧ m.n = 1 ∧ m.detail =
    u)) ∧
  (∀ (s : State) (u : Nat) (r : Recovery), s.active = true → u < 16 → (s.sporeLast u).recovery = some r → r.full =
    none → (s.groups u).any (s.beyond u) = true → s.rd F.CKP_FULL_EPOCH u ≠ noEpoch → (s.groups u).all (s.lostPresent
    u) = true → ((s.groups u).all (fun g => s.ctxState (s.rd F.CKP_GROUP_REGROW_CTX u g) == ctxIdle) = true) → ∃ t :
    State, exec (.restoreStart u) s = .next t.settleAll ∧ (∀ g ∈ s.groups u, t.groupState u g = grpRestoring) ∧
    (t.sporeLast u).recovery = some { r with full := some (s.rd F.CKP_FULL_EPOCH u, (s.sporeLast u).fullSlot.getD 0) }
    ∧ t.rd F.CKP_LAST_STAT_STATE u = ckpRestoring) ∧
  (∀ (s : State) (u g : Nat) (i slot z : Nat) (r : Recovery), s.active = true → u < 16 → g < 32 → (s.sporeLast
    u).recovery = some r → r.full = some (z, slot) → s.groupState u g = grpRestoring → (s.spore.groups.get [u,
    g]).opened = true → (s.spore.groups.get [u, g]).sent.contains i = false → i < s.rd F.CKP_GROUP_SIZE u g → s.flag
    F.LST_MEMBER_PRESENT u (s.rd F.CKP_GROUP_BASE u g + i) = true → s.tierUp = true → s.ctxState (s.rd
    F.CKP_GROUP_REGROW_CTX u g) = ctxFlush → (s.op (s.rd F.CKP_GROUP_REGROW_CTX u g)).early = [] → ((List.range (s.rd
    F.CKP_GROUP_SHARD_CHUNKS u g)).all (fun c => !s.poisoned (s.sporeAt (s.shardGranule u g i c slot)).1 (s.sporeAt
    (s.shardGranule u g i c slot)).2) = true) → ∃ t : State, exec (.shardReadComplete u g i none) s = .next
    t.settleAll ∧ (t.spore.groups.get [u, g]).sent = (s.spore.groups.get [u, g]).sent ++ [i]) ∧
  (∀ (s : State) (u g : Nat) (i port slot z : Nat) (r : Recovery), s.active = true → u < 16 → g < 32 → (s.sporeLast
    u).recovery = some r → r.full = some (z, slot) → s.groupState u g = grpRestoring → (s.spore.groups.get [u,
    g]).opened = true → (s.spore.groups.get [u, g]).sent.contains i = false → i < s.rd F.CKP_GROUP_SIZE u g → s.flag
    F.LST_MEMBER_PRESENT u (s.rd F.CKP_GROUP_BASE u g + i) = true → s.tierUp = true → s.ctxState (s.rd
    F.CKP_GROUP_REGROW_CTX u g) = ctxFlush → ∃ t : State, exec (.shardReadComplete u g i (some port)) s = .next
    t.settleAll ∧ t.rd F.MEM_CXL_ERR_POISON port = min (s.rd F.MEM_CXL_ERR_POISON port + 1) (2 ^
    F.MEM_CXL_ERR_POISON.width - 1) ∧ t.spore = s.spore)
end

