-- ==== Sys2Proof/Laws/Addr.lean ====
section
/-!
SUPPORT. The address map: an instance's address reaches that instance and no other, and what an address reaches stands
there.
-/

namespace Sys2Proof.Machine

set_option Elab.async false

/-- Bytes of one instance. -/
def RegAt.bytes (t : RegAt) : Nat := t.bits / 8

/-- Bytes from the first byte of instance (i, 0) to the last of its row. -/
def RegAt.row (t : RegAt) : Nat := (t.count2 - 1) * t.stride2 + t.bytes

/-- Instances do not run into each other. -/
def RegAt.spaced (t : RegAt) : Bool :=
  (t.bits == 32 || t.bits == 64) && (Nat.ble t.count1 1 || Nat.ble t.row t.stride1) &&
    (Nat.ble t.count2 1 || Nat.ble t.bytes t.stride2)

/-- `t` ends before `u` starts, or in one stride its row lies before that of `u`, or in one inner stride its instance
does. -/
def RegAt.before (t u : RegAt) : Bool :=
  Nat.ble (t.base + (t.count1 - 1) * t.stride1 + t.row) u.base ||
  (t.stride1 == u.stride1 &&
    ((Nat.ble (t.base + t.row) u.base && Nat.ble (u.base + u.row) (t.base + t.stride1)) ||
     (t.stride2 == u.stride2 && Nat.ble (t.base + t.bytes) u.base && Nat.ble (u.base + u.bytes) (t.base + t.stride2) &&
      Nat.ble (u.base + u.row) (t.base + t.stride1) && Nat.ble t.row t.stride1)))

/-- Two registers share no byte. -/
def RegAt.apart (t u : RegAt) : Bool := t.before u || u.before t

def pairsApart : List RegAt → Bool
  | [] => true
  | t :: l => l.all t.apart && pairsApart l

theorem mem_all (r : Reg) : r ∈ Reg.all := by cases r <;> decide

theorem all_nodup : Reg.all.Nodup := by
  have : (Reg.all.map (fun r => r.ctorIdx)).Nodup := by decide +kernel
  exact List.Nodup.of_map _ this

theorem all_spaced : Reg.all.all (fun r => r.at.spaced) = true := by decide +kernel

theorem spaced_all (r : Reg) : r.at.spaced = true := List.all_eq_true.mp all_spaced r (mem_all r)

theorem pairs_apart : pairsApart (Reg.all.map Reg.at) = true := by decide +kernel

theorem apart_symm {t u : RegAt} (h : t.apart u = true) : u.apart t = true := by
  unfold RegAt.apart at *
  rwa [Bool.or_comm]

theorem pairsApart_pairwise {l : List Reg} (h : pairsApart (l.map Reg.at) = true) :
    l.Pairwise (fun q r => q.at.apart r.at = true) := by
  induction l with
  | nil => exact List.Pairwise.nil
  | cons r l ih =>
    simp only [List.map_cons, pairsApart, Bool.and_eq_true, List.all_eq_true, List.mem_map, forall_exists_index, and_imp,
      forall_apply_eq_imp_iff₂] at h
    exact List.Pairwise.cons h.1 (ih h.2)

theorem apart_all {q r : Reg} (h : q ≠ r) : q.at.apart r.at = true :=
  haveI : Std.Symm (fun q r : Reg => q.at.apart r.at = true) := ⟨fun _ _ => apart_symm⟩
  (pairsApart_pairwise pairs_apart).forall (mem_all q) (mem_all r) h

/-- What a register answers to an address stands there. -/
theorem hit_addr {r : Reg} {a : Nat} {h : Hit} (hh : r.hit a = some h) :
    h.reg = r ∧ h.i < r.at.count1 ∧ h.j < r.at.count2 ∧
      a = r.addr h.i h.j + (if h.high then 4 else 0) ∧ (h.high = true → r.at.bits = 64) := by
  unfold Reg.hit at hh
  extract_lets t off i rest j inner at hh
  split at hh
  · cases hh
  · next hb =>
    have hi : i * t.stride1 ≤ off := by
      show (if t.count1 ≤ 1 then 0 else off / t.stride1) * t.stride1 ≤ off
      split
      · rw [Nat.zero_mul]; exact Nat.zero_le _
      · exact Nat.div_mul_le_self _ _
    have hj : j * t.stride2 ≤ rest := by
      show (if t.count2 ≤ 1 then 0 else rest / t.stride2) * t.stride2 ≤ rest
      split
      · rw [Nat.zero_mul]; exact Nat.zero_le _
      · exact Nat.div_mul_le_self _ _
    have ha : a = t.base + i * t.stride1 + j * t.stride2 + inner := by
      show a = t.base + i * t.stride1 + j * t.stride2 + (off - i * t.stride1 - j * t.stride2)
      have h1 : off = a - t.base := rfl
      have h2 : rest = off - i * t.stride1 := rfl
      clear_value off i rest j
      omega
    clear_value i j inner
    split at hh
    · next hc =>
      split at hh
      · next h0 =>
        cases hh
        exact ⟨rfl, hc.1, hc.2, by rw [ha, h0]; rfl, fun h => by cases h⟩
      · split at hh
        · next h4 =>
          cases hh
          exact ⟨rfl, hc.1, hc.2, by rw [ha, h4.1]; rfl, fun _ => h4.2⟩
        · cases hh
    · cases hh

/-- An instance's address is answered by its register with that instance. -/
theorem hit_self {r : Reg} {i j : Nat} (hi : i < r.at.count1) (hj : j < r.at.count2) :
    r.hit (r.addr i j) = some ⟨r, i, j, false⟩ := by
  have hs := spaced_all r
  simp only [RegAt.spaced, Bool.and_eq_true, Bool.or_eq_true, beq_iff_eq, Nat.ble_eq] at hs
  obtain ⟨⟨hb, h1⟩, h2⟩ := hs
  have hbytes : 4 ≤ r.at.bytes := by
    unfold RegAt.bytes
    omega
  have hjr : j * r.at.stride2 + r.at.bytes ≤ r.at.row := by
    have := Nat.mul_le_mul_right r.at.stride2 (Nat.le_sub_one_of_lt hj)
    unfold RegAt.row
    omega
  have hI : (if r.at.count1 ≤ 1 then 0 else (i * r.at.stride1 + j * r.at.stride2) / r.at.stride1) = i := by
    split
    · omega
    · rw [Nat.add_comm, Nat.add_mul_div_right _ _ (by omega), Nat.div_eq_of_lt (by omega), Nat.zero_add]
  have hJ : (if r.at.count2 ≤ 1 then 0 else (j * r.at.stride2) / r.at.stride2) = j := by
    split
    · omega
    · exact Nat.mul_div_cancel _ (by omega)
  unfold Reg.hit Reg.addr
  dsimp only
  rw [if_neg (by omega)]
  have e : r.at.base + i * r.at.stride1 + j * r.at.stride2 - r.at.base = i * r.at.stride1 + j * r.at.stride2 := by omega
  rw [e, hI, Nat.add_sub_cancel_left, hJ, Nat.sub_self, if_pos ⟨hi, hj⟩, if_pos rfl]

/-- The rows of two registers, and their instances, in order: the addresses differ. -/
theorem before_ne {t u : RegAt} {i j i' j' e e' : Nat} (h : t.before u = true) (hi : i < t.count1) (hj : j < t.count2)
    (hi' : i' < u.count1) (hj' : j' < u.count2) (he : e < t.bytes) (he' : e' < u.bytes) :
    t.base + i * t.stride1 + j * t.stride2 + e ≠ u.base + i' * u.stride1 + j' * u.stride2 + e' := by
  have m1 := Nat.mul_le_mul_right t.stride1 (Nat.le_sub_one_of_lt hi)
  have m2 := Nat.mul_le_mul_right t.stride2 (Nat.le_sub_one_of_lt hj)
  have m4 := Nat.mul_le_mul_right u.stride2 (Nat.le_sub_one_of_lt hj')
  have hr : j * t.stride2 + e < t.row := by
    unfold RegAt.row
    omega
  have hr' : j' * u.stride2 + e' < u.row := by
    unfold RegAt.row
    omega
  simp only [RegAt.before, Bool.and_eq_true, Bool.or_eq_true, beq_iff_eq, Nat.ble_eq] at h
  rcases h with h | ⟨hs, ⟨h1, h2⟩ | ⟨⟨⟨⟨hs2, h1⟩, h2⟩, h3⟩, h4⟩⟩
  · omega
  · rw [← hs] at *
    intro heq
    -- both offsets lie in one window of stride1
    have : i = i' := by
      rcases Nat.lt_trichotomy i i' with hlt | heq' | hgt
      · have := Nat.mul_le_mul_right t.stride1 (Nat.succ_le_of_lt hlt)
        rw [Nat.succ_mul] at this
        omega
      · exact heq'
      · have := Nat.mul_le_mul_right t.stride1 (Nat.succ_le_of_lt hgt)
        rw [Nat.succ_mul] at this
        omega
    subst this
    omega
  · rw [← hs, ← hs2]
    rw [← hs2] at hr'
    intro heq
    have : i = i' := by
      rcases Nat.lt_trichotomy i i' with hlt | heq' | hgt
      · have := Nat.mul_le_mul_right t.stride1 (Nat.succ_le_of_lt hlt)
        rw [Nat.succ_mul] at this
        omega
      · exact heq'
      · have := Nat.mul_le_mul_right t.stride1 (Nat.succ_le_of_lt hgt)
        rw [Nat.succ_mul] at this
        omega
    subst this
    have : j = j' := by
      rcases Nat.lt_trichotomy j j' with hlt | heq' | hgt
      · have := Nat.mul_le_mul_right t.stride2 (Nat.succ_le_of_lt hlt)
        rw [Nat.succ_mul] at this
        omega
      · exact heq'
      · have := Nat.mul_le_mul_right t.stride2 (Nat.succ_le_of_lt hgt)
        rw [Nat.succ_mul] at this
        omega
    subst this
    omega

theorem bytes_cases (r : Reg) : r.at.bytes = 4 ∧ r.at.bits = 32 ∨ r.at.bytes = 8 ∧ r.at.bits = 64 := by
  have hs := spaced_all r
  simp only [RegAt.spaced, Bool.and_eq_true, Bool.or_eq_true, beq_iff_eq] at hs
  unfold RegAt.bytes
  omega

/-- No other register answers to an instance's address. -/
theorem hit_other {q r : Reg} (h : q ≠ r) {i j : Nat} (hi : i < r.at.count1) (hj : j < r.at.count2) :
    q.hit (r.addr i j) = none := by
  cases hq : q.hit (r.addr i j) with
  | none => rfl
  | some x =>
    obtain ⟨-, hxi, hxj, hxa, hx4⟩ := hit_addr hq
    have hb := bytes_cases r
    have hb' := bytes_cases q
    have he : (if x.high = true then 4 else 0) < q.at.bytes := by
      split
      · next hh => have := hx4 hh; omega
      · omega
    have ha := apart_all h
    simp only [RegAt.apart, Bool.or_eq_true] at ha
    unfold Reg.addr at hxa
    rcases ha with ha | ha
    · exact absurd hxa.symm (by
        have := before_ne (e' := 0) ha hxi hxj hi hj he (by omega)
        simpa using this)
    · exact absurd hxa (by
        have := before_ne (e := 0) ha hi hj hxi hxj (by omega) he
        simpa using this)

/-- An instance's address reaches that instance. -/
theorem hitAt_addr (r : Reg) {i j : Nat} (hi : i < r.at.count1) (hj : j < r.at.count2) :
    hitAt (r.addr i j) = some ⟨r, i, j, false⟩ := by
  obtain ⟨l, l', hl⟩ := List.append_of_mem (mem_all r)
  have hn : ∀ q ∈ l, q ≠ r := by
    have hd := all_nodup
    rw [hl, List.nodup_append] at hd
    exact fun q hq => hd.2.2 q hq r (List.mem_cons_self ..)
  unfold hitAt
  rw [hl, List.findSome?_append, List.findSome?_eq_none_iff.mpr (fun q hq => hit_other (hn q hq) hi hj)]
  simp only [Option.none_or, List.findSome?_cons, hit_self hi hj]

end Sys2Proof.Machine
end

