-- ==== Sys2Proof/Laws/Memory.lean ====
section
/-!
SUPPORT. Laws of byte memories: reading after writing, and the canonical form that every operation keeps.
-/

namespace Sys2Proof.Machine

set_option Elab.async false

/-! The canonical form. -/

theorem cellsWf_mono {lo lo' : Nat} (h : lo' ≤ lo) {l : List Host.Cell} (hl : cellsWf lo l = true) : cellsWf lo' l = true := by
  cases l with
  | nil => rfl
  | cons c t => simp only [cellsWf, Bool.and_eq_true, decide_eq_true_eq] at *; exact ⟨⟨by omega, hl.1.2⟩, hl.2⟩

theorem cellsWf_erase {a lo : Nat} {l : List Host.Cell} (h : cellsWf lo l = true) : cellsWf lo (cellsErase a l) = true := by
  induction l generalizing lo with
  | nil => rfl
  | cons c t ih =>
    simp only [cellsWf, Bool.and_eq_true, decide_eq_true_eq] at h
    rw [cellsErase]
    split
    · exact cellsWf_mono (by omega) h.2
    · split <;> simp only [cellsWf, Bool.and_eq_true, decide_eq_true_eq]
      · exact h
      · exact ⟨h.1, ih h.2⟩

theorem cellsWf_insert {a lo : Nat} {v : Byte} (hv : v ≠ Memory.blank) (ha : lo ≤ a) {l : List Host.Cell}
    (h : cellsWf lo l = true) : cellsWf lo (cellsInsert a v l) = true := by
  induction l generalizing lo with
  | nil => simp [cellsInsert, cellsWf, ha, hv]
  | cons c t ih =>
    simp only [cellsWf, Bool.and_eq_true, decide_eq_true_eq] at h
    rw [cellsInsert]
    split
    · next hk => simp only [cellsWf, Bool.and_eq_true, decide_eq_true_eq]; exact ⟨⟨ha, hv⟩, hk ▸ h.2⟩
    · split <;> simp only [cellsWf, Bool.and_eq_true, decide_eq_true_eq]
      · exact ⟨⟨ha, hv⟩, ⟨by omega, h.1.2⟩, h.2⟩
      · exact ⟨h.1, ih (by omega) h.2⟩

theorem cellsWf_filter {lo : Nat} (p : Host.Cell → Bool) {l : List Host.Cell} (h : cellsWf lo l = true) :
    cellsWf lo (l.filter p) = true := by
  induction l generalizing lo with
  | nil => rfl
  | cons c t ih =>
    simp only [cellsWf, Bool.and_eq_true, decide_eq_true_eq] at h
    rw [List.filter_cons]
    split
    · simp only [cellsWf, Bool.and_eq_true, decide_eq_true_eq]; exact ⟨h.1, ih h.2⟩
    · exact ih (cellsWf_mono (by omega) h.2)

/-- The empty memory is in canonical form. -/
@[simp] theorem Memory.wf_empty : ({} : Memory).wf = true := rfl

/-- A write of one byte keeps the canonical form. -/
theorem Memory.wf_write {m : Memory} (h : m.wf = true) (a : Nat) (v : Byte) : (m.write a v).wf = true := by
  unfold Memory.wf Memory.write at *
  split
  · exact cellsWf_erase h
  · next hv => exact cellsWf_insert hv (Nat.zero_le a) h

/-- So does a write of several. -/
theorem Memory.wf_writeN {m : Memory} (h : m.wf = true) (a : Nat) (l : List Byte) : (m.writeN a l).wf = true := by
  induction l generalizing m a with
  | nil => exact h
  | cons b t ih => exact ih (Memory.wf_write h a b) (a + 1)

/-- So does an erasure. -/
theorem Memory.wf_erase {m : Memory} (h : m.wf = true) (a n : Nat) : (m.erase a n).wf = true := cellsWf_filter _ h

/-! Reading after writing. -/

theorem cellsFind_of_lt {a lo : Nat} {l : List Host.Cell} (h : cellsWf lo l = true) (ha : a < lo) :
    cellsFind a l = Memory.blank := by
  cases l with
  | nil => rfl
  | cons c t =>
    simp only [cellsWf, Bool.and_eq_true, decide_eq_true_eq] at h
    rw [cellsFind, if_neg (by omega), if_pos (by omega)]

theorem cellsFind_erase_same {a lo : Nat} {l : List Host.Cell} (h : cellsWf lo l = true) :
    cellsFind a (cellsErase a l) = Memory.blank := by
  induction l generalizing lo with
  | nil => rfl
  | cons c t ih =>
    simp only [cellsWf, Bool.and_eq_true, decide_eq_true_eq] at h
    rw [cellsErase]
    split
    · exact cellsFind_of_lt h.2 (by omega)
    · split
      · rw [cellsFind, if_neg (by assumption), if_pos (by assumption)]
      · rw [cellsFind, if_neg (by assumption), if_neg (by assumption)]; exact ih h.2

theorem cellsFind_erase_ne {a b lo : Nat} (hab : a ≠ b) {l : List Host.Cell} (h : cellsWf lo l = true) :
    cellsFind a (cellsErase b l) = cellsFind a l := by
  induction l generalizing lo with
  | nil => rfl
  | cons c t ih =>
    simp only [cellsWf, Bool.and_eq_true, decide_eq_true_eq] at h
    rw [cellsErase]
    split
    · next hk =>
      rw [cellsFind, if_neg (by omega)]
      split
      · exact cellsFind_of_lt h.2 (by omega)
      · rfl
    · split
      · rfl
      · rw [cellsFind, cellsFind, ih h.2]

theorem cellsFind_insert_same (a : Nat) (v : Byte) (l : List Host.Cell) : cellsFind a (cellsInsert a v l) = v := by
  induction l with
  | nil => simp [cellsInsert, cellsFind]
  | cons c t ih =>
    rw [cellsInsert]
    split
    · simp [cellsFind]
    · split
      · simp [cellsFind]
      · rw [cellsFind, if_neg (by assumption), if_neg (by assumption)]; exact ih

theorem cellsFind_insert_ne {a b lo : Nat} (hab : a ≠ b) (v : Byte) {l : List Host.Cell} (h : cellsWf lo l = true) :
    cellsFind a (cellsInsert b v l) = cellsFind a l := by
  induction l generalizing lo with
  | nil => simp [cellsInsert, cellsFind, hab.symm]
  | cons c t ih =>
    simp only [cellsWf, Bool.and_eq_true, decide_eq_true_eq] at h
    rw [cellsInsert]
    split
    · next hk =>
      rw [cellsFind, cellsFind, if_neg (show ¬b = a from hab.symm), if_neg (show ¬c.1 = a by omega), hk]
    · split
      · rw [cellsFind, if_neg (by omega)]
        split
        · rw [cellsFind, if_neg (by omega), if_pos (by omega)]
        · rfl
      · rw [cellsFind, cellsFind, ih h.2]

/-- A byte reads as what was written to it. -/
theorem Memory.read_write_same {m : Memory} (h : m.wf = true) (a : Nat) (v : Byte) : (m.write a v).read a = v := by
  unfold Memory.read Memory.write
  split
  · next hv => rw [hv]; exact cellsFind_erase_same h
  · exact cellsFind_insert_same a v m.cells

/-- A write leaves every other byte alone. -/
theorem Memory.read_write_ne {m : Memory} (h : m.wf = true) {a b : Nat} (hab : a ≠ b) (v : Byte) :
    (m.write b v).read a = m.read a := by
  unfold Memory.read Memory.write
  split
  · exact cellsFind_erase_ne hab h
  · exact cellsFind_insert_ne hab v h

/-- A write of several bytes leaves every byte outside them alone. -/
theorem Memory.read_writeN_out {m : Memory} (h : m.wf = true) {a b : Nat} (l : List Byte) (hb : b < a ∨ a + l.length ≤ b) :
    (m.writeN a l).read b = m.read b := by
  induction l generalizing m a with
  | nil => rfl
  | cons c t ih =>
    simp only [List.length_cons] at hb
    rw [Memory.writeN, ih (Memory.wf_write h a c) (by omega), Memory.read_write_ne h (by omega)]

/-- Bytes read as what was written to them. -/
theorem Memory.read_writeN_in {m : Memory} (h : m.wf = true) {a k : Nat} {l : List Byte} (hk : k < l.length) :
    (m.writeN a l).read (a + k) = l[k] := by
  induction l generalizing m a k with
  | nil => simp at hk
  | cons c t ih =>
    rw [Memory.writeN]
    cases k with
    | zero => rw [Memory.read_writeN_out (Memory.wf_write h a c) t (by omega), Nat.add_zero, Memory.read_write_same h]; rfl
    | succ k =>
      rw [show a + (k + 1) = a + 1 + k by omega]
      exact ih (Memory.wf_write h a c) (by simpa using hk)

/-- The first `n` bytes of what was written are read back. -/
theorem Memory.readN_writeN {m : Memory} (h : m.wf = true) (a : Nat) {n : Nat} {l : List Byte} (hn : n ≤ l.length) :
    (m.writeN a l).readN a n = l.take n := by
  unfold Memory.readN
  apply List.ext_getElem
  · simp [hn]
  · intro k h1 h2
    rw [List.getElem_map, List.getElem_range, List.getElem_take]
    exact Memory.read_writeN_in h _

end Sys2Proof.Machine
end

