-- ==== Sys2Proof/Laws/Maps.lean ====
section
/-!
SUPPORT. Laws of sparse maps: reading after writing, and the canonical form that every write keeps.
-/

namespace Sys2Proof.Machine

set_option Elab.async false

variable {V : Type}

/-! Reading after writing. -/

theorem entriesFind_erase_same (k : Key) (l : List (Key × V)) : entriesFind k (entriesErase k l) = none := by
  induction l with
  | nil => rfl
  | cons e t ih =>
    by_cases h : e.1 = k
    · simpa [entriesErase, h] using ih
    · have : entriesErase k (e :: t) = e :: entriesErase k t := by simp [entriesErase, h]
      rw [this]
      simpa [entriesFind, h] using ih

theorem entriesFind_erase_ne {k k' : Key} (h : k ≠ k') (l : List (Key × V)) :
    entriesFind k (entriesErase k' l) = entriesFind k l := by
  induction l with
  | nil => rfl
  | cons e t ih =>
    obtain ⟨a, v⟩ := e
    by_cases ha : a = k'
    · have : entriesErase k' ((a, v) :: t) = entriesErase k' t := by simp [entriesErase, ha]
      rw [this, ih, entriesFind, if_neg (fun hk => h (hk.symm.trans ha))]
    · have : entriesErase k' ((a, v) :: t) = (a, v) :: entriesErase k' t := by simp [entriesErase, ha]
      rw [this, entriesFind, entriesFind, ih]

theorem entriesFind_insert_same {k : Key} (v : V) {l : List (Key × V)} (h : entriesFind k l = none) :
    entriesFind k (entriesInsert k v l) = some v := by
  induction l with
  | nil => simp [entriesInsert, entriesFind]
  | cons e t ih =>
    obtain ⟨a, w⟩ := e
    rw [entriesInsert]
    split
    · simp [entriesFind]
    · rw [entriesFind] at h ⊢
      split at h
      · cases h
      · rw [if_neg (by assumption)]; exact ih h

theorem entriesFind_insert_ne {k k' : Key} (h : k ≠ k') (v : V) (l : List (Key × V)) :
    entriesFind k (entriesInsert k' v l) = entriesFind k l := by
  induction l with
  | nil => simp [entriesInsert, entriesFind, h.symm]
  | cons e t ih =>
    obtain ⟨a, w⟩ := e
    rw [entriesInsert]
    split
    · simp [entriesFind, h.symm]
    · simp [entriesFind, ih]

/-- A key reads as what was written to it. -/
theorem SMap.getD_putD_same [DecidableEq V] (m : SMap V) (k : Key) (v d : V) : (m.putD k v d).getD k d = v := by
  unfold SMap.putD SMap.getD
  split
  · next h => simp [entriesFind_erase_same, h]
  · simp [entriesFind_insert_same v (entriesFind_erase_same k m.entries)]

/-- A write leaves every other key alone. -/
theorem SMap.getD_putD_ne [DecidableEq V] (m : SMap V) {k k' : Key} (h : k ≠ k') (v d : V) :
    (m.putD k' v d).getD k d = m.getD k d := by
  unfold SMap.putD SMap.getD
  split
  · simp [entriesFind_erase_ne h]
  · simp [entriesFind_insert_ne h, entriesFind_erase_ne h]

variable [Inhabited V]

@[simp] theorem SMap.get_empty (k : Key) : ({} : SMap V).get k = default := rfl

variable [DecidableEq V]

@[simp] theorem SMap.get_set_same (m : SMap V) (k : Key) (v : V) : (m.set k v).get k = v :=
  m.getD_putD_same k v default

theorem SMap.get_set_ne (m : SMap V) {k k' : Key} (h : k ≠ k') (v : V) : (m.set k' v).get k = m.get k :=
  m.getD_putD_ne h v default

theorem SMap.get_set (m : SMap V) (k k' : Key) (v : V) : (m.set k' v).get k = if k = k' then v else m.get k := by
  split
  · next h => rw [h, SMap.get_set_same]
  · next h => exact m.get_set_ne h v

@[simp] theorem SMap.get_upd_same (m : SMap V) (k : Key) (f : V → V) : (m.upd k f).get k = f (m.get k) := by
  simp [SMap.upd]

theorem SMap.get_upd_ne (m : SMap V) {k k' : Key} (h : k ≠ k') (f : V → V) : (m.upd k' f).get k = m.get k := by
  simp [SMap.upd, SMap.get_set_ne _ h]

/-! The order of keys. -/

theorem keyLt_trans {a b c : Key} (h : keyLt a b = true) (h' : keyLt b c = true) : keyLt a c = true := by
  induction a generalizing b c with
  | nil => cases c <;> cases b <;> simp_all [keyLt]
  | cons x a ih =>
    cases b with
    | nil => simp [keyLt] at h
    | cons y b =>
      cases c with
      | nil => simp [keyLt] at h'
      | cons z c =>
        simp only [keyLt] at *
        split at h <;> split at h' <;> (try split at h) <;> (try split at h') <;> simp_all <;> try omega
        exact ih h h'

theorem keyLt_total {a b : Key} (h : keyLt a b = false) (hne : b ≠ a) : keyLt b a = true := by
  induction a generalizing b with
  | nil => cases b <;> simp_all [keyLt]
  | cons x a ih =>
    cases b with
    | nil => simp [keyLt]
    | cons y b =>
      simp only [keyLt] at *
      split at h
      · cases h
      · split at h
        · next hxy =>
          subst hxy
          simp only [lt_irrefl, if_false, if_true]
          exact ih h (fun he => hne (by rw [he]))
        · rw [if_pos (by omega)]

/-! The canonical form. -/

omit [Inhabited V] [DecidableEq V] in
theorem entriesSorted_erase {k : Key} {l : List (Key × V)} (h : entriesSorted l = true) :
    entriesSorted (entriesErase k l) = true := by
  induction l with
  | nil => rfl
  | cons e t ih =>
    simp only [entriesSorted, Bool.and_eq_true, List.all_eq_true] at h
    unfold entriesErase
    rw [List.filter_cons]
    split
    · simp only [entriesSorted, Bool.and_eq_true, List.all_eq_true]
      exact ⟨fun x hx => h.1 x (List.mem_of_mem_filter hx), ih h.2⟩
    · exact ih h.2

omit [Inhabited V] [DecidableEq V] in
theorem mem_entriesInsert {k : Key} {v : V} {l : List (Key × V)} {x : Key × V} (h : x ∈ entriesInsert k v l) :
    x = (k, v) ∨ x ∈ l := by
  induction l with
  | nil => simpa [entriesInsert] using h
  | cons e t ih =>
    obtain ⟨a, w⟩ := e
    rw [entriesInsert] at h
    split at h
    · simpa using h
    · rcases List.mem_cons.mp h with h | h
      · exact .inr (by simp [h])
      · exact (ih h).imp_right (List.mem_cons_of_mem _)

omit [Inhabited V] [DecidableEq V] in
theorem entriesSorted_insert {k : Key} {v : V} {l : List (Key × V)} (h : entriesSorted l = true)
    (hk : ∀ e ∈ l, e.1 ≠ k) : entriesSorted (entriesInsert k v l) = true := by
  induction l with
  | nil => rfl
  | cons e t ih =>
    obtain ⟨a, w⟩ := e
    simp only [entriesSorted, Bool.and_eq_true, List.all_eq_true] at h
    rw [entriesInsert]
    split
    · next hlt =>
      simp only [entriesSorted, Bool.and_eq_true, List.all_eq_true]
      refine ⟨fun x hx => ?_, h.1, h.2⟩
      rcases List.mem_cons.mp hx with rfl | hx
      · exact hlt
      · exact keyLt_trans hlt (h.1 x hx)
    · next hlt =>
      simp only [entriesSorted, Bool.and_eq_true, List.all_eq_true]
      refine ⟨fun x hx => ?_, ih h.2 (fun e he => hk e (List.mem_cons_of_mem _ he))⟩
      rcases mem_entriesInsert hx with rfl | hx
      · exact keyLt_total (by simpa using hlt) (hk _ List.mem_cons_self)
      · exact h.1 x hx

/-- A write keeps the canonical form. -/
theorem SMap.wf_set {m : SMap V} (h : m.wf = true) (k : Key) (v : V) : (m.set k v).wf = true := by
  unfold SMap.wf SMap.wfD at *
  simp only [Bool.and_eq_true, List.all_eq_true, decide_eq_true_eq] at h
  unfold SMap.set SMap.putD
  have hs := entriesSorted_erase (k := k) h.1
  have hd : ∀ e ∈ entriesErase k m.entries, e.2 ≠ default := fun e he => h.2 e (List.mem_of_mem_filter he)
  split
  · simp only [Bool.and_eq_true, List.all_eq_true, decide_eq_true_eq]
    exact ⟨hs, hd⟩
  · next hv =>
    simp only [Bool.and_eq_true, List.all_eq_true, decide_eq_true_eq]
    refine ⟨entriesSorted_insert hs (fun e he => by simpa [entriesErase] using (List.mem_filter.mp he).2), fun e he => ?_⟩
    rcases mem_entriesInsert he with rfl | he
    · exact hv
    · exact hd e he

theorem SMap.wf_upd {m : SMap V} (h : m.wf = true) (k : Key) (f : V → V) : (m.upd k f).wf = true := SMap.wf_set h k _

omit [Inhabited V] [DecidableEq V] in
theorem entriesSorted_filter {l : List (Key × V)} (h : entriesSorted l = true) (p : Key × V → Bool) :
    entriesSorted (l.filter p) = true := by
  induction l with
  | nil => rfl
  | cons e t ih =>
    simp only [entriesSorted, Bool.and_eq_true, List.all_eq_true] at h
    rw [List.filter_cons]
    split
    · simp only [entriesSorted, Bool.and_eq_true, List.all_eq_true]
      exact ⟨fun x hx => h.1 x (List.mem_of_mem_filter hx), ih h.2⟩
    · exact ih h.2

/-- Taking some of the pairs away keeps the canonical form. -/
theorem SMap.wf_filter {m : SMap V} (h : m.wf = true) (p : Key × V → Bool) :
    ({ entries := m.entries.filter p } : SMap V).wf = true := by
  unfold SMap.wf SMap.wfD at *
  simp only [Bool.and_eq_true, List.all_eq_true, decide_eq_true_eq] at *
  exact ⟨entriesSorted_filter h.1 p, fun e he => h.2 e (List.mem_of_mem_filter he)⟩

@[simp] theorem SMap.wf_empty : ({} : SMap V).wf = true := rfl

omit [Inhabited V] [DecidableEq V] in
/-- What a key reads as is listed. -/
theorem entriesFind_mem {k : Key} {v : V} {l : List (Key × V)} (h : entriesFind k l = some v) : (k, v) ∈ l := by
  induction l with
  | nil => cases h
  | cons e t ih =>
    obtain ⟨a, w⟩ := e
    rw [entriesFind] at h
    split at h
    · next ha => cases h; simp [ha]
    · exact List.mem_cons_of_mem _ (ih h)

end Sys2Proof.Machine
end

