-- ==== Sys2Proof/Laws/Regs.lean ====
section
/-!
SUPPORT. Laws of the register file: what a field reads as after another, or itself, has been set. Every later proof
about registers cites these and unfolds neither `State.rd` nor `State.wr`.
-/

namespace Sys2Proof.Machine

set_option Elab.async false

variable (s : State) (f g : Fld) (v n i j i' j' : Nat)

/-- A field reads as what it was set to, cut to its width. -/
@[simp] theorem rd_wr_same : (s.wr f v i j).rd f i j = v % 2 ^ f.width := by
  unfold State.rd State.wr
  simp only [SMap.get_set_same]
  split
  · next h => simp [h]
  · rfl

theorem rd_wr_key (h : f.key i j ≠ g.key i' j') : (s.wr g v i' j').rd f i j = s.rd f i j := by
  unfold State.rd State.wr
  simp only [SMap.get_set_ne _ h]

/-- Setting one field leaves every other field alone; `decide` proves the premise for two named fields. -/
theorem rd_wr_other (h : f.key 0 0 ≠ g.key 0 0) : (s.wr g v i' j').rd f i j = s.rd f i j := by
  apply rd_wr_key
  intro hk
  apply h
  simp only [Fld.key, List.cons.injEq, and_true] at hk ⊢
  exact ⟨hk.1, hk.2.1⟩

/-- Setting one instance of a field leaves its other instances alone. -/
theorem rd_wr_index (h : ¬(i = i' ∧ j = j')) : (s.wr f v i' j').rd f i j = s.rd f i j := by
  apply rd_wr_key
  intro hk
  simp only [Fld.key, List.cons.injEq, and_true] at hk
  exact h hk.2.2

/-- Setting one instance of a field, read at any instance. -/
theorem rd_wr_instance : (s.wr f v i' j').rd f i j = if i = i' ∧ j = j' then v % 2 ^ f.width else s.rd f i j := by
  split
  · next h => rw [h.1, h.2, rd_wr_same]
  · next h => exact rd_wr_index s f v i j i' j' h

/-- R21: a counter counts, and stays at its all-ones value. -/
@[simp] theorem rd_inc_same : (s.inc f n i j).rd f i j = min (s.rd f i j + n) (2 ^ f.width - 1) := by
  have : 0 < 2 ^ f.width := Nat.two_pow_pos _
  refine (rd_wr_same s f _ i j).trans ?_
  exact Nat.mod_eq_of_lt (by omega)

theorem rd_inc_other (h : f.key 0 0 ≠ g.key 0 0) : (s.inc g n i' j').rd f i j = s.rd f i j :=
  rd_wr_other s f g _ i j i' j' h

theorem rd_inc_index (h : ¬(i = i' ∧ j = j')) : (s.inc f n i' j').rd f i j = s.rd f i j :=
  rd_wr_index s f _ i j i' j' h

@[simp] theorem rd_incWrap_same : (s.incWrap f n i j).rd f i j = (s.rd f i j + n) % 2 ^ f.width := by
  unfold State.incWrap; rw [rd_wr_same]

theorem rd_incWrap_other (h : f.key 0 0 ≠ g.key 0 0) : (s.incWrap g n i' j').rd f i j = s.rd f i j :=
  rd_wr_other s f g _ i j i' j' h

/-- R19: a bit set by hardware reads as set. -/
@[simp] theorem rd_latch_same : (s.latch f i j).rd f i j = 1 % 2 ^ f.width := rd_wr_same s f 1 i j

theorem rd_latch_other (h : f.key 0 0 ≠ g.key 0 0) : (s.latch g i' j').rd f i j = s.rd f i j :=
  rd_wr_other s f g 1 i j i' j' h

/-- Reading depends on the register file alone. -/
theorem rd_congr {s t : State} (h : s.regs = t.regs) : s.rd f i j = t.rd f i j := by unfold State.rd; rw [h]

@[simp] theorem flag_eq : s.flag f i j = (s.rd f i j != 0) := rfl

end Sys2Proof.Machine
end

