-- ==== Sys2Proof/Laws/State.lean ====
section
/-!
SUPPORT. State field by field: what each elementary operation leaves, and that a change of one field of the state leaves
the registers as they read.
-/

namespace Sys2Proof.Machine

set_option Elab.async false

variable (s : State) (f : Fld) (v n i j : Nat) (o : Output) (m : Mark)

@[simp] theorem wr_now : (s.wr f v i j).now = s.now := rfl
@[simp] theorem wr_pending : (s.wr f v i j).pending = s.pending := rfl
@[simp] theorem wr_out : (s.wr f v i j).out = s.out := rfl
@[simp] theorem wr_freeCtr : (s.wr f v i j).freeCtr = s.freeCtr := rfl
@[simp] theorem wr_marks : (s.wr f v i j).marks = s.marks := rfl
@[simp] theorem wr_bus : (s.wr f v i j).bus = s.bus := rfl
@[simp] theorem wr_ring : (s.wr f v i j).ring = s.ring := rfl
@[simp] theorem wr_flt : (s.wr f v i j).flt = s.flt := rfl
@[simp] theorem wr_evr : (s.wr f v i j).evr = s.evr := rfl
@[simp] theorem wr_link : (s.wr f v i j).link = s.link := rfl
@[simp] theorem wr_bpm : (s.wr f v i j).bpm = s.bpm := rfl
@[simp] theorem wr_sched : (s.wr f v i j).sched = s.sched := rfl
@[simp] theorem wr_shape : (s.wr f v i j).shape = s.shape := rfl
@[simp] theorem wr_ctx : (s.wr f v i j).ctx = s.ctx := rfl
@[simp] theorem wr_comp : (s.wr f v i j).comp = s.comp := rfl
@[simp] theorem wr_spore : (s.wr f v i j).spore = s.spore := rfl
@[simp] theorem wr_mem : (s.wr f v i j).mem = s.mem := rfl
@[simp] theorem wr_host : (s.wr f v i j).host = s.host := rfl
@[simp] theorem wr_pwr : (s.wr f v i j).pwr = s.pwr := rfl
@[simp] theorem wr_boot : (s.wr f v i j).boot = s.boot := rfl
@[simp] theorem wr_sec : (s.wr f v i j).sec = s.sec := rfl

@[simp] theorem inc_now : (s.inc f n i j).now = s.now := rfl
@[simp] theorem inc_pending : (s.inc f n i j).pending = s.pending := rfl
@[simp] theorem inc_out : (s.inc f n i j).out = s.out := rfl
@[simp] theorem inc_freeCtr : (s.inc f n i j).freeCtr = s.freeCtr := rfl
@[simp] theorem inc_bus : (s.inc f n i j).bus = s.bus := rfl
@[simp] theorem inc_ring : (s.inc f n i j).ring = s.ring := rfl
@[simp] theorem inc_flt : (s.inc f n i j).flt = s.flt := rfl
@[simp] theorem inc_evr : (s.inc f n i j).evr = s.evr := rfl
@[simp] theorem inc_link : (s.inc f n i j).link = s.link := rfl
@[simp] theorem inc_bpm : (s.inc f n i j).bpm = s.bpm := rfl
@[simp] theorem inc_sched : (s.inc f n i j).sched = s.sched := rfl
@[simp] theorem inc_shape : (s.inc f n i j).shape = s.shape := rfl
@[simp] theorem inc_ctx : (s.inc f n i j).ctx = s.ctx := rfl
@[simp] theorem inc_comp : (s.inc f n i j).comp = s.comp := rfl
@[simp] theorem inc_spore : (s.inc f n i j).spore = s.spore := rfl
@[simp] theorem inc_mem : (s.inc f n i j).mem = s.mem := rfl
@[simp] theorem inc_host : (s.inc f n i j).host = s.host := rfl
@[simp] theorem inc_pwr : (s.inc f n i j).pwr = s.pwr := rfl
@[simp] theorem inc_boot : (s.inc f n i j).boot = s.boot := rfl
@[simp] theorem inc_sec : (s.inc f n i j).sec = s.sec := rfl

@[simp] theorem incWrap_now : (s.incWrap f n i j).now = s.now := rfl
@[simp] theorem incWrap_pending : (s.incWrap f n i j).pending = s.pending := rfl
@[simp] theorem incWrap_out : (s.incWrap f n i j).out = s.out := rfl
@[simp] theorem incWrap_freeCtr : (s.incWrap f n i j).freeCtr = s.freeCtr := rfl
@[simp] theorem incWrap_marks : (s.incWrap f n i j).marks = s.marks := rfl
@[simp] theorem incWrap_bus : (s.incWrap f n i j).bus = s.bus := rfl
@[simp] theorem incWrap_ring : (s.incWrap f n i j).ring = s.ring := rfl
@[simp] theorem incWrap_flt : (s.incWrap f n i j).flt = s.flt := rfl
@[simp] theorem incWrap_evr : (s.incWrap f n i j).evr = s.evr := rfl
@[simp] theorem incWrap_link : (s.incWrap f n i j).link = s.link := rfl
@[simp] theorem incWrap_bpm : (s.incWrap f n i j).bpm = s.bpm := rfl
@[simp] theorem incWrap_sched : (s.incWrap f n i j).sched = s.sched := rfl
@[simp] theorem incWrap_shape : (s.incWrap f n i j).shape = s.shape := rfl
@[simp] theorem incWrap_ctx : (s.incWrap f n i j).ctx = s.ctx := rfl
@[simp] theorem incWrap_comp : (s.incWrap f n i j).comp = s.comp := rfl
@[simp] theorem incWrap_spore : (s.incWrap f n i j).spore = s.spore := rfl
@[simp] theorem incWrap_mem : (s.incWrap f n i j).mem = s.mem := rfl
@[simp] theorem incWrap_host : (s.incWrap f n i j).host = s.host := rfl
@[simp] theorem incWrap_pwr : (s.incWrap f n i j).pwr = s.pwr := rfl
@[simp] theorem incWrap_boot : (s.incWrap f n i j).boot = s.boot := rfl
@[simp] theorem incWrap_sec : (s.incWrap f n i j).sec = s.sec := rfl

@[simp] theorem emit_now : (s.emit o).now = s.now := rfl
@[simp] theorem emit_pending : (s.emit o).pending = s.pending := rfl
@[simp] theorem emit_freeCtr : (s.emit o).freeCtr = s.freeCtr := rfl
@[simp] theorem emit_regs : (s.emit o).regs = s.regs := rfl
@[simp] theorem emit_marks : (s.emit o).marks = s.marks := rfl
@[simp] theorem emit_bus : (s.emit o).bus = s.bus := rfl
@[simp] theorem emit_ring : (s.emit o).ring = s.ring := rfl
@[simp] theorem emit_flt : (s.emit o).flt = s.flt := rfl
@[simp] theorem emit_evr : (s.emit o).evr = s.evr := rfl
@[simp] theorem emit_link : (s.emit o).link = s.link := rfl
@[simp] theorem emit_bpm : (s.emit o).bpm = s.bpm := rfl
@[simp] theorem emit_sched : (s.emit o).sched = s.sched := rfl
@[simp] theorem emit_shape : (s.emit o).shape = s.shape := rfl
@[simp] theorem emit_ctx : (s.emit o).ctx = s.ctx := rfl
@[simp] theorem emit_comp : (s.emit o).comp = s.comp := rfl
@[simp] theorem emit_spore : (s.emit o).spore = s.spore := rfl
@[simp] theorem emit_mem : (s.emit o).mem = s.mem := rfl
@[simp] theorem emit_host : (s.emit o).host = s.host := rfl
@[simp] theorem emit_pwr : (s.emit o).pwr = s.pwr := rfl
@[simp] theorem emit_boot : (s.emit o).boot = s.boot := rfl
@[simp] theorem emit_sec : (s.emit o).sec = s.sec := rfl
@[simp] theorem emit_out : (s.emit o).out = s.out ++ [o] := rfl
@[simp] theorem fresh_now : s.fresh.2.now = s.now := rfl
@[simp] theorem fresh_pending : s.fresh.2.pending = s.pending := rfl
@[simp] theorem fresh_out : s.fresh.2.out = s.out := rfl
@[simp] theorem fresh_regs : s.fresh.2.regs = s.regs := rfl
@[simp] theorem fresh_marks : s.fresh.2.marks = s.marks := rfl
@[simp] theorem fresh_bus : s.fresh.2.bus = s.bus := rfl
@[simp] theorem fresh_ring : s.fresh.2.ring = s.ring := rfl
@[simp] theorem fresh_flt : s.fresh.2.flt = s.flt := rfl
@[simp] theorem fresh_evr : s.fresh.2.evr = s.evr := rfl
@[simp] theorem fresh_link : s.fresh.2.link = s.link := rfl
@[simp] theorem fresh_bpm : s.fresh.2.bpm = s.bpm := rfl
@[simp] theorem fresh_sched : s.fresh.2.sched = s.sched := rfl
@[simp] theorem fresh_shape : s.fresh.2.shape = s.shape := rfl
@[simp] theorem fresh_ctx : s.fresh.2.ctx = s.ctx := rfl
@[simp] theorem fresh_comp : s.fresh.2.comp = s.comp := rfl
@[simp] theorem fresh_spore : s.fresh.2.spore = s.spore := rfl
@[simp] theorem fresh_mem : s.fresh.2.mem = s.mem := rfl
@[simp] theorem fresh_host : s.fresh.2.host = s.host := rfl
@[simp] theorem fresh_pwr : s.fresh.2.pwr = s.pwr := rfl
@[simp] theorem fresh_boot : s.fresh.2.boot = s.boot := rfl
@[simp] theorem fresh_sec : s.fresh.2.sec = s.sec := rfl
@[simp] theorem fresh_freeCtr : s.fresh.2.freeCtr = s.freeCtr + 1 := rfl

@[simp] theorem mark_now : (s.mark m).now = s.now := rfl
@[simp] theorem mark_pending : (s.mark m).pending = s.pending := rfl
@[simp] theorem mark_out : (s.mark m).out = s.out := rfl
@[simp] theorem mark_freeCtr : (s.mark m).freeCtr = s.freeCtr := rfl
@[simp] theorem mark_bus : (s.mark m).bus = s.bus := rfl
@[simp] theorem mark_ring : (s.mark m).ring = s.ring := rfl
@[simp] theorem mark_flt : (s.mark m).flt = s.flt := rfl
@[simp] theorem mark_evr : (s.mark m).evr = s.evr := rfl
@[simp] theorem mark_link : (s.mark m).link = s.link := rfl
@[simp] theorem mark_bpm : (s.mark m).bpm = s.bpm := rfl
@[simp] theorem mark_sched : (s.mark m).sched = s.sched := rfl
@[simp] theorem mark_shape : (s.mark m).shape = s.shape := rfl
@[simp] theorem mark_ctx : (s.mark m).ctx = s.ctx := rfl
@[simp] theorem mark_comp : (s.mark m).comp = s.comp := rfl
@[simp] theorem mark_spore : (s.mark m).spore = s.spore := rfl
@[simp] theorem mark_mem : (s.mark m).mem = s.mem := rfl
@[simp] theorem mark_host : (s.mark m).host = s.host := rfl
@[simp] theorem mark_pwr : (s.mark m).pwr = s.pwr := rfl
@[simp] theorem mark_boot : (s.mark m).boot = s.boot := rfl
@[simp] theorem mark_sec : (s.mark m).sec = s.sec := rfl
@[simp] theorem mark_regs : (s.mark m).regs = s.regs := rfl
@[simp] theorem mark_marks : (s.mark m).marks = s.withMark m := rfl
@[simp] theorem rd_mark : (s.mark m).rd f i j = s.rd f i j := rfl

@[simp] theorem latch_now : (s.latch f i j).now = s.now := rfl
@[simp] theorem latch_pending : (s.latch f i j).pending = s.pending := rfl
@[simp] theorem latch_out : (s.latch f i j).out = s.out := rfl
@[simp] theorem latch_freeCtr : (s.latch f i j).freeCtr = s.freeCtr := rfl
@[simp] theorem latch_bus : (s.latch f i j).bus = s.bus := rfl
@[simp] theorem latch_ring : (s.latch f i j).ring = s.ring := rfl
@[simp] theorem latch_flt : (s.latch f i j).flt = s.flt := rfl
@[simp] theorem latch_evr : (s.latch f i j).evr = s.evr := rfl
@[simp] theorem latch_link : (s.latch f i j).link = s.link := rfl
@[simp] theorem latch_bpm : (s.latch f i j).bpm = s.bpm := rfl
@[simp] theorem latch_sched : (s.latch f i j).sched = s.sched := rfl
@[simp] theorem latch_shape : (s.latch f i j).shape = s.shape := rfl
@[simp] theorem latch_ctx : (s.latch f i j).ctx = s.ctx := rfl
@[simp] theorem latch_comp : (s.latch f i j).comp = s.comp := rfl
@[simp] theorem latch_spore : (s.latch f i j).spore = s.spore := rfl
@[simp] theorem latch_mem : (s.latch f i j).mem = s.mem := rfl
@[simp] theorem latch_host : (s.latch f i j).host = s.host := rfl
@[simp] theorem latch_pwr : (s.latch f i j).pwr = s.pwr := rfl
@[simp] theorem latch_boot : (s.latch f i j).boot = s.boot := rfl
@[simp] theorem latch_sec : (s.latch f i j).sec = s.sec := rfl

@[simp] theorem incCorr_now : (s.incCorr f n i).now = s.now := rfl
@[simp] theorem incCorr_pending : (s.incCorr f n i).pending = s.pending := rfl
@[simp] theorem incCorr_out : (s.incCorr f n i).out = s.out := rfl
@[simp] theorem incCorr_freeCtr : (s.incCorr f n i).freeCtr = s.freeCtr := rfl
@[simp] theorem incCorr_bus : (s.incCorr f n i).bus = s.bus := rfl
@[simp] theorem incCorr_ring : (s.incCorr f n i).ring = s.ring := rfl
@[simp] theorem incCorr_flt : (s.incCorr f n i).flt = s.flt := rfl
@[simp] theorem incCorr_evr : (s.incCorr f n i).evr = s.evr := rfl
@[simp] theorem incCorr_link : (s.incCorr f n i).link = s.link := rfl
@[simp] theorem incCorr_bpm : (s.incCorr f n i).bpm = s.bpm := rfl
@[simp] theorem incCorr_sched : (s.incCorr f n i).sched = s.sched := rfl
@[simp] theorem incCorr_shape : (s.incCorr f n i).shape = s.shape := rfl
@[simp] theorem incCorr_ctx : (s.incCorr f n i).ctx = s.ctx := rfl
@[simp] theorem incCorr_comp : (s.incCorr f n i).comp = s.comp := rfl
@[simp] theorem incCorr_mem : (s.incCorr f n i).mem = s.mem := rfl
@[simp] theorem incCorr_host : (s.incCorr f n i).host = s.host := rfl
@[simp] theorem incCorr_pwr : (s.incCorr f n i).pwr = s.pwr := rfl
@[simp] theorem incCorr_boot : (s.incCorr f n i).boot = s.boot := rfl
@[simp] theorem incCorr_sec : (s.incCorr f n i).sec = s.sec := rfl

/-- A count undone changes that count, and the marks. -/
theorem uncount_shape : ∃ r l, s.uncount f n i j = { s with regs := r, marks := l } := by
  unfold State.uncount
  split
  · exact ⟨s.regs, s.marks, rfl⟩
  · split
    · exact ⟨s.regs, s.marks, rfl⟩
    · exact ⟨_, _, rfl⟩

/-- A mark made now counts in this cycle. -/
theorem marked_mark (n : Nat) : (s.mark m).marked m n = true := by
  simp [State.marked, State.withMark]

@[simp] theorem rd_emit : (s.emit o).rd f i j = s.rd f i j := rfl
@[simp] theorem rd_fresh : s.fresh.2.rd f i j = s.rd f i j := rfl
@[simp] theorem rd_with_now (x) : (State.rd { s with now := x } f i j) = s.rd f i j := rfl
@[simp] theorem rd_with_pending (x) : (State.rd { s with pending := x } f i j) = s.rd f i j := rfl
@[simp] theorem rd_with_out (x) : (State.rd { s with out := x } f i j) = s.rd f i j := rfl
@[simp] theorem rd_with_freeCtr (x) : (State.rd { s with freeCtr := x } f i j) = s.rd f i j := rfl
@[simp] theorem rd_with_marks (x) : (State.rd { s with marks := x } f i j) = s.rd f i j := rfl
@[simp] theorem rd_with_bus (x) : (State.rd { s with bus := x } f i j) = s.rd f i j := rfl
@[simp] theorem rd_with_ring (x) : (State.rd { s with ring := x } f i j) = s.rd f i j := rfl
@[simp] theorem rd_with_flt (x) : (State.rd { s with flt := x } f i j) = s.rd f i j := rfl
@[simp] theorem rd_with_evr (x) : (State.rd { s with evr := x } f i j) = s.rd f i j := rfl
@[simp] theorem rd_with_link (x) : (State.rd { s with link := x } f i j) = s.rd f i j := rfl
@[simp] theorem rd_with_bpm (x) : (State.rd { s with bpm := x } f i j) = s.rd f i j := rfl
@[simp] theorem rd_with_sched (x) : (State.rd { s with sched := x } f i j) = s.rd f i j := rfl
@[simp] theorem rd_with_shape (x) : (State.rd { s with shape := x } f i j) = s.rd f i j := rfl
@[simp] theorem rd_with_ctx (x) : (State.rd { s with ctx := x } f i j) = s.rd f i j := rfl
@[simp] theorem rd_with_comp (x) : (State.rd { s with comp := x } f i j) = s.rd f i j := rfl
@[simp] theorem rd_with_spore (x) : (State.rd { s with spore := x } f i j) = s.rd f i j := rfl
@[simp] theorem rd_with_mem (x) : (State.rd { s with mem := x } f i j) = s.rd f i j := rfl
@[simp] theorem rd_with_host (x) : (State.rd { s with host := x } f i j) = s.rd f i j := rfl
@[simp] theorem rd_with_pwr (x) : (State.rd { s with pwr := x } f i j) = s.rd f i j := rfl
@[simp] theorem rd_with_boot (x) : (State.rd { s with boot := x } f i j) = s.rd f i j := rfl
@[simp] theorem rd_with_sec (x) : (State.rd { s with sec := x } f i j) = s.rd f i j := rfl

@[simp] theorem each_nil {α : Type} (g : State → α → State) : s.each [] g = s := rfl
@[simp] theorem each_cons {α : Type} (a : α) (l : List α) (g : State → α → State) :
    s.each (a :: l) g = (g s a).each l g := rfl

/-- What every step of a walk keeps, the walk keeps. -/
theorem each_keeps {α β : Type} (p : State → β) {l : List α} {g : State → α → State}
    (h : ∀ t a, a ∈ l → p (g t a) = p t) : p (s.each l g) = p s := by
  induction l generalizing s with
  | nil => rfl
  | cons a t ih =>
    rw [each_cons, ih _ (fun u b hb => h u b (List.mem_cons_of_mem _ hb)), h s a List.mem_cons_self]

end Sys2Proof.Machine
end

