-- ==== Sys2Proof/Laws/Keeps.lean ====
section
/-!
SUPPORT. `Keeps` for the elementary operations: setting a field, changing one part of the state, sending, and walks.
-/

namespace Sys2Proof.Machine

set_option Elab.async false

variable {s t u : State}

theorem Keeps.refl (s : State) : Keeps s s := ⟨id, rfl, rfl, List.prefix_refl _, le_refl _⟩

theorem Keeps.trans (h : Keeps s t) (h' : Keeps t u) : Keeps s u :=
  ⟨h'.canonical ∘ h.canonical, h'.now.trans h.now, h'.pending.trans h.pending, h.out.trans h'.out, h.free.trans h'.free⟩

/-- What is kept depends on a few parts of the state. -/
theorem Keeps.same (h : Keeps s t) (hr : u.regs = t.regs) (hm : u.mem = t.mem) (hs : u.sec.nvm = t.sec.nvm)
    (hn : u.now = t.now) (hp : u.pending = t.pending) (ho : u.out = t.out) (hf : u.freeCtr = t.freeCtr) : Keeps s u :=
  ⟨fun hc => by simpa only [State.Canonical, hr, hm, hs] using h.canonical hc,
   hn.trans h.now, hp.trans h.pending, ho ▸ h.out, hf ▸ h.free⟩

theorem Keeps.regs (h : Keeps s t) {m : SMap (Option Nat)} (hm : t.regs.wf = true → m.wf = true) :
    Keeps s { t with regs := m } :=
  ⟨fun hc => ⟨hm (h.canonical hc).1, (h.canonical hc).2⟩, h.now, h.pending, h.out, h.free⟩

theorem wr_keeps (h : Keeps s t) (f : Fld) (v i j : Nat) : Keeps s (t.wr f v i j) :=
  h.regs (fun hw => SMap.wf_set hw _ _)

/-- Marks are no part of what is kept. -/
theorem marks_keeps (h : Keeps s t) (l : List (Nat × Mark)) : Keeps s { t with marks := l } :=
  h.same rfl rfl rfl rfl rfl rfl rfl

theorem mark_keeps (h : Keeps s t) (m : Mark) : Keeps s (t.mark m) := marks_keeps h _

theorem inc_keeps (h : Keeps s t) (f : Fld) (n i j : Nat) : Keeps s (t.inc f n i j) := marks_keeps (wr_keeps h _ _ _ _) _

theorem latch_keeps (h : Keeps s t) (f : Fld) (i j : Nat) : Keeps s (t.latch f i j) := mark_keeps (wr_keeps h _ _ _ _) _

theorem wrNext_keeps (h : Keeps s t) (f : Fld) (v i j n : Nat) : Keeps s (t.wrNext f v i j n) :=
  wr_keeps (mark_keeps h _) _ _ _ _

theorem noteWas_keeps (h : Keeps s t) (f : Fld) (i j : Nat) : Keeps s (t.noteWas f i j) := mark_keeps h _

theorem restoreWas_keeps (h : Keeps s t) (f : Fld) (i j : Nat) : Keeps s (t.restoreWas f i j) := wr_keeps h _ _ _ _

theorem uncount_keeps (h : Keeps s t) (f : Fld) (n i j : Nat) : Keeps s (t.uncount f n i j) := by
  unfold State.uncount
  split
  · exact h
  · split
    · exact h
    · exact marks_keeps (wr_keeps h _ _ _ _) _

theorem incCorr_keeps (h : Keeps s t) (f : Fld) (n i : Nat) : Keeps s (t.incCorr f n i) :=
  (inc_keeps h f n i 0).same rfl rfl rfl rfl rfl rfl rfl

theorem incWrap_keeps (h : Keeps s t) (f : Fld) (n i j : Nat) : Keeps s (t.incWrap f n i j) := wr_keeps h _ _ _ _

theorem emit_keeps (h : Keeps s t) (o : Output) : Keeps s (t.emit o) :=
  ⟨h.canonical, h.now, h.pending, h.out.trans (List.prefix_append _ _), h.free⟩

theorem fresh_keeps (h : Keeps s t) : Keeps s t.fresh.2 :=
  ⟨h.canonical, h.now, h.pending, h.out, h.free.trans (Nat.le_succ _)⟩

theorem fresh_keeps_eq {v : Nat} (he : t.fresh = (v, u)) (h : Keeps s t) : Keeps s u := by
  have := fresh_keeps h
  rwa [he] at this

theorem ite_keeps {c : Prop} [Decidable c] (ht : Keeps s t) (hu : Keeps s u) : Keeps s (if c then t else u) := by
  split <;> assumption

theorem ite_keeps_snd {α : Type} {c : Prop} [Decidable c] {x y : α × State} (hx : Keeps s x.2) (hy : Keeps s y.2) :
    Keeps s (if c then x else y).2 := by
  split <;> assumption

theorem whenActive_keeps {g : State → State} (h : Keeps s t) (hg : ∀ u, Keeps s u → Keeps s (g u)) :
    Keeps s (whenActive t g) := ite_keeps (hg _ h) h

/-- A walk keeps what each of its steps keeps. -/
theorem each_keeps' {α : Type} {l : List α} {g : State → α → State} (h : Keeps s t)
    (hg : ∀ u a, Keeps s u → Keeps s (g u a)) : Keeps s (t.each l g) := by
  induction l generalizing t with
  | nil => exact h
  | cons a l ih => exact ih (hg t a h)

theorem foldl_keeps {α β : Type} (p : β → State) {l : List α} {b : β} {g : β → α → β} (h : Keeps s (p b))
    (hg : ∀ c a, Keeps s (p c) → Keeps s (p (g c a))) : Keeps s (p (l.foldl g b)) := by
  induction l generalizing b with
  | nil => exact h
  | cons a l ih => exact ih (hg b a h)

/-- A walk that carries the state beside something else. -/
theorem foldl_keeps_fst {α β : Type} {l : List α} {b : β} {g : State × β → α → State × β} (h : Keeps s t)
    (hg : ∀ c a, Keeps s c.1 → Keeps s (g c a).1) : Keeps s (l.foldl g (t, b)).1 := foldl_keeps Prod.fst h hg

theorem foldl_keeps_snd {α β : Type} {l : List α} {b : β} {g : β × State → α → β × State} (h : Keeps s t)
    (hg : ∀ c a, Keeps s c.2 → Keeps s (g c a).2) : Keeps s (l.foldl g (b, t)).2 := foldl_keeps Prod.snd h hg

theorem foldl_keeps_fst_eq {α β : Type} {l : List α} {b y : β} {g : State × β → α → State × β}
    (he : l.foldl g (t, b) = (u, y)) (h : Keeps s t) (hg : ∀ c a, Keeps s c.1 → Keeps s (g c a).1) : Keeps s u := by
  have := foldl_keeps_fst (l := l) (b := b) h hg
  rwa [he] at this

theorem foldl_keeps_snd_eq {α β : Type} {l : List α} {b y : β} {g : β × State → α → β × State}
    (he : l.foldl g (b, t) = (y, u)) (h : Keeps s t) (hg : ∀ c a, Keeps s c.2 → Keeps s (g c a).2) : Keeps s u := by
  have := foldl_keeps_snd (l := l) (b := b) h hg
  rwa [he] at this

/-! Record updates: what is kept depends on a few parts of the state. -/

/-- What `Keeps` says of the parts of the later state. -/
def KeepsParts (s : State) (now : Nat) (pending : List Instr) (out : List Output) (free : Nat) (regs : SMap (Option Nat))
    (mem : MemState) (sec : SecState) : Prop :=
  Keeps s { s with now, pending, out, freeCtr := free, regs, mem, sec }

theorem keeps_mk {n p o f k r b rg fl ev lk bp sc sh cx co sp m ho pw bo se} :
    Keeps s (State.mk n p o f k r b rg fl ev lk bp sc sh cx co sp m ho pw bo se) ↔ KeepsParts s n p o f r m se :=
  ⟨fun h => h.same rfl rfl rfl rfl rfl rfl rfl, fun h => Keeps.same h rfl rfl rfl rfl rfl rfl rfl⟩

theorem Keeps.parts (h : Keeps s t) : KeepsParts s t.now t.pending t.out t.freeCtr t.regs t.mem t.sec :=
  h.same rfl rfl rfl rfl rfl rfl rfl

theorem Keeps.partsRegs (h : Keeps s t) (k : Key) (v : Option Nat) :
    KeepsParts s t.now t.pending t.out t.freeCtr (t.regs.set k v) t.mem t.sec :=
  (h.regs (fun hw => SMap.wf_set hw k v)).parts

theorem Keeps.partsFilter (h : Keeps s t) (p : Key × Option Nat → Bool) :
    KeepsParts s t.now t.pending t.out t.freeCtr { entries := t.regs.entries.filter p } t.mem t.sec :=
  (h.regs (fun hw => SMap.wf_filter hw p)).parts

/-- A change of memory that keeps its canonical form. -/
theorem Keeps.partsMem (h : Keeps s t) {m : MemState} (hg : t.mem.gddr.wf = true → m.gddr.wf = true)
    (hx : cxlCanonical t.mem.cxl = true → cxlCanonical m.cxl = true) :
    KeepsParts s t.now t.pending t.out t.freeCtr t.regs m t.sec :=
  ⟨fun hc => ⟨(h.canonical hc).1, hg (h.canonical hc).2.1, hx (h.canonical hc).2.2.1, (h.canonical hc).2.2.2⟩,
   h.now, h.pending, h.out, h.free⟩

/-- A change of the security state that keeps the NVM's canonical form. -/
theorem Keeps.partsSec (h : Keeps s t) {x : SecState} (hx : t.sec.nvm.wf = true → x.nvm.wf = true) :
    KeepsParts s t.now t.pending t.out t.freeCtr t.regs t.mem x :=
  ⟨fun hc => ⟨(h.canonical hc).1, (h.canonical hc).2.1, (h.canonical hc).2.2.1, hx (h.canonical hc).2.2.2⟩,
   h.now, h.pending, h.out, h.free⟩

/-- A change of memory and of the security state that leaves the bytes alone. -/
theorem Keeps.partsKeys (h : Keeps s t) {m : MemState} {x : SecState} (hg : m.gddr = t.mem.gddr) (hx : m.cxl = t.mem.cxl)
    (hn : x.nvm = t.sec.nvm) : KeepsParts s t.now t.pending t.out t.freeCtr t.regs m x :=
  ⟨fun hc => by simpa only [State.Canonical, hg, hx, hn] using h.canonical hc, h.now, h.pending, h.out, h.free⟩

/-- Bytes written to an expander keep the canonical form. -/
theorem cxlCanonical_upd {m : SMap Memory} (h : cxlCanonical m = true) (k : Key) (a : Nat) (l : List Byte) :
    cxlCanonical (m.upd k (·.writeN a l)) = true := by
  unfold cxlCanonical at *
  rw [List.all_eq_true] at *
  have hg : (m.get k).wf = true := by
    unfold SMap.get SMap.getD
    cases hf : entriesFind k m.entries with
    | none => rfl
    | some v => exact h _ (entriesFind_mem hf)
  intro e he
  unfold SMap.upd SMap.set SMap.putD at he
  split at he
  · exact h e (List.mem_of_mem_filter he)
  · rcases mem_entriesInsert he with rfl | he
    · exact Memory.wf_writeN hg a l
    · exact h e (List.mem_of_mem_filter he)

end Sys2Proof.Machine
end

