-- ==== Sys2Proof/Laws/Foot.lean ====
section
/-!
SUPPORT. `Foot m`: which registers and parts of the state an operation may change, as the bits of a mask: bit r for the
register numbered r, bit 300 and up for the parts. One lemma for each elementary operation.
-/

namespace Sys2Proof.Machine

set_option Elab.async false

variable {m : Nat} {σ τ υ : State}

/-- The mask `a` lies within the mask `m`. -/
def Sub (a m : Nat) : Prop := a &&& m = a

theorem Sub.bit {a m k : Nat} (h : Sub a m) (hb : a.testBit k = true) : m.testBit k = true := by
  rw [← h, Nat.testBit_and, Bool.and_eq_true] at hb
  exact hb.2

theorem Sub.sub {a b m : Nat} (h : Sub a m) (hb : b &&& a = b) : Sub b m := by
  have h' : a &&& m = a := h
  show b &&& m = b
  rw [← hb, Nat.and_assoc, h']

theorem Sub.refl (a : Nat) : Sub a a := Nat.and_self a

/-- The bit of a part. -/
def Part.bit (p : Part) : Nat := 300 + p.ctorIdx

/-- From `s` to `t` nothing changes but what the mask `m` names. -/
structure Foot (m : Nat) (s t : State) : Prop where
  regs : ∀ r lo i j, r < 260 → m.testBit r = false → t.regs.get [r, lo, i, j] = s.regs.get [r, lo, i, j]
  part : ∀ p : Part, m.testBit p.bit = false → p.same s t

theorem Part.same_refl (p : Part) (s : State) : p.same s s := by cases p <;> rfl

theorem Foot.refl (m : Nat) (s : State) : Foot m s s := ⟨fun _ _ _ _ _ _ => rfl, fun p _ => p.same_refl s⟩

/-- The same, said of the parts of the later state. -/
def FootParts (m : Nat) (s : State) (regs : SMap (Option Nat)) (bus : BusState) (ring : RingState) (flt : FaultState) (evr :
    RecorderState) (link : LinkState) (bpm : BpmState) (sched : SchedState) (shape : ShapeState) (ctx : SMap OpCtx) (comp :
    ComputeState) (spore : SporeState) (mem : MemState) (host : HostState) (pwr : PowerState) (boot : BootState) (sec :
    SecState) : Prop :=
  Foot m s { s with regs, bus, ring, flt, evr, link, bpm, sched, shape, ctx, comp, spore, mem, host, pwr, boot, sec }

/-- What a mask says does not look at the time, the queue, the outputs, the free values and the marks. -/
theorem Foot.of_parts (h : Foot m σ τ) (hr : υ.regs = τ.regs) (hp : ∀ p : Part, p.same τ υ) : Foot m σ υ := by
  refine ⟨fun r lo i j hl hm => by rw [hr]; exact h.regs r lo i j hl hm, fun p hm => ?_⟩
  have h₁ := h.part p hm
  have h₂ := hp p
  cases p <;> exact Eq.trans h₂ h₁

theorem foot_mk {n p o f k r b rg fl ev lk bp sc sh cx co sp me ho pw bo se} :
    Foot m σ (State.mk n p o f k r b rg fl ev lk bp sc sh cx co sp me ho pw bo se) ↔ FootParts m σ r b rg fl ev lk bp sc sh
    cx co sp me ho pw bo se :=
  ⟨fun h => h.of_parts rfl (fun p => by cases p <;> rfl), fun h => Foot.of_parts h rfl (fun p => by cases p <;> rfl)⟩

theorem Foot.parts (h : Foot m σ τ) : FootParts m σ τ.regs τ.bus τ.ring τ.flt τ.evr τ.link τ.bpm τ.sched τ.shape τ.ctx τ.comp
    τ.spore τ.mem τ.host τ.pwr τ.boot τ.sec := h.of_parts rfl (fun p => by cases p <;> rfl)

/-- Two later states with the same registers, alike but in one part that the mask names. -/
theorem Foot.change (h : Foot m σ τ) {q : Part} (hb : m.testBit q.bit = true) (hr : υ.regs = τ.regs)
    (hp : ∀ p : Part, p ≠ q → p.same τ υ) : Foot m σ υ := by
  refine ⟨fun r lo i j hl hm => by rw [hr]; exact h.regs r lo i j hl hm, fun p hm => ?_⟩
  have hne : p ≠ q := fun he => by
    rw [he, hb] at hm
    cases hm
  have h₁ := h.part p hm
  have h₂ := hp p hne
  cases p <;> exact Eq.trans h₂ h₁

theorem parts_bus {r b rg fl ev lk bp sc sh cx co sp me ho pw bo se x} (hb : m.testBit 300 = true) (h : FootParts m σ r b rg fl ev lk bp sc sh cx co sp me ho pw bo se) :
    FootParts m σ r x rg fl ev lk bp sc sh cx co sp me ho pw bo se :=
  Foot.change (q := .bus) h hb rfl (fun p hp => by cases p <;> first | rfl | exact absurd rfl hp)

theorem parts_ring {r b rg fl ev lk bp sc sh cx co sp me ho pw bo se x} (hb : m.testBit 301 = true) (h : FootParts m σ r b rg fl ev lk bp sc sh cx co sp me ho pw bo se) :
    FootParts m σ r b x fl ev lk bp sc sh cx co sp me ho pw bo se :=
  Foot.change (q := .ring) h hb rfl (fun p hp => by cases p <;> first | rfl | exact absurd rfl hp)

theorem parts_flt {r b rg fl ev lk bp sc sh cx co sp me ho pw bo se x} (hb : m.testBit 302 = true) (h : FootParts m σ r b rg fl ev lk bp sc sh cx co sp me ho pw bo se) :
    FootParts m σ r b rg x ev lk bp sc sh cx co sp me ho pw bo se :=
  Foot.change (q := .flt) h hb rfl (fun p hp => by cases p <;> first | rfl | exact absurd rfl hp)

theorem parts_evr {r b rg fl ev lk bp sc sh cx co sp me ho pw bo se x} (hb : m.testBit 303 = true) (h : FootParts m σ r b rg fl ev lk bp sc sh cx co sp me ho pw bo se) :
    FootParts m σ r b rg fl x lk bp sc sh cx co sp me ho pw bo se :=
  Foot.change (q := .evr) h hb rfl (fun p hp => by cases p <;> first | rfl | exact absurd rfl hp)

theorem parts_link {r b rg fl ev lk bp sc sh cx co sp me ho pw bo se x} (hb : m.testBit 304 = true) (h : FootParts m σ r b rg fl ev lk bp sc sh cx co sp me ho pw bo se) :
    FootParts m σ r b rg fl ev x bp sc sh cx co sp me ho pw bo se :=
  Foot.change (q := .link) h hb rfl (fun p hp => by cases p <;> first | rfl | exact absurd rfl hp)

theorem parts_bpm {r b rg fl ev lk bp sc sh cx co sp me ho pw bo se x} (hb : m.testBit 305 = true) (h : FootParts m σ r b rg fl ev lk bp sc sh cx co sp me ho pw bo se) :
    FootParts m σ r b rg fl ev lk x sc sh cx co sp me ho pw bo se :=
  Foot.change (q := .bpm) h hb rfl (fun p hp => by cases p <;> first | rfl | exact absurd rfl hp)

theorem parts_sched {r b rg fl ev lk bp sc sh cx co sp me ho pw bo se x} (hb : m.testBit 306 = true) (h : FootParts m σ r b rg fl ev lk bp sc sh cx co sp me ho pw bo se) :
    FootParts m σ r b rg fl ev lk bp x sh cx co sp me ho pw bo se :=
  Foot.change (q := .sched) h hb rfl (fun p hp => by cases p <;> first | rfl | exact absurd rfl hp)

theorem parts_shape {r b rg fl ev lk bp sc sh cx co sp me ho pw bo se x} (hb : m.testBit 307 = true) (h : FootParts m σ r b rg fl ev lk bp sc sh cx co sp me ho pw bo se) :
    FootParts m σ r b rg fl ev lk bp sc x cx co sp me ho pw bo se :=
  Foot.change (q := .shape) h hb rfl (fun p hp => by cases p <;> first | rfl | exact absurd rfl hp)

theorem parts_ctx {r b rg fl ev lk bp sc sh cx co sp me ho pw bo se x} (hb : m.testBit 308 = true) (h : FootParts m σ r b rg fl ev lk bp sc sh cx co sp me ho pw bo se) :
    FootParts m σ r b rg fl ev lk bp sc sh x co sp me ho pw bo se :=
  Foot.change (q := .ctx) h hb rfl (fun p hp => by cases p <;> first | rfl | exact absurd rfl hp)

theorem parts_comp {r b rg fl ev lk bp sc sh cx co sp me ho pw bo se x} (hb : m.testBit 309 = true) (h : FootParts m σ r b rg fl ev lk bp sc sh cx co sp me ho pw bo se) :
    FootParts m σ r b rg fl ev lk bp sc sh cx x sp me ho pw bo se :=
  Foot.change (q := .comp) h hb rfl (fun p hp => by cases p <;> first | rfl | exact absurd rfl hp)

theorem parts_spore {r b rg fl ev lk bp sc sh cx co sp me ho pw bo se x} (hb : m.testBit 310 = true) (h : FootParts m σ r b rg fl ev lk bp sc sh cx co sp me ho pw bo se) :
    FootParts m σ r b rg fl ev lk bp sc sh cx co x me ho pw bo se :=
  Foot.change (q := .spore) h hb rfl (fun p hp => by cases p <;> first | rfl | exact absurd rfl hp)

theorem parts_mem {r b rg fl ev lk bp sc sh cx co sp me ho pw bo se x} (hb : m.testBit 311 = true) (h : FootParts m σ r b rg fl ev lk bp sc sh cx co sp me ho pw bo se) :
    FootParts m σ r b rg fl ev lk bp sc sh cx co sp x ho pw bo se :=
  Foot.change (q := .mem) h hb rfl (fun p hp => by cases p <;> first | rfl | exact absurd rfl hp)

theorem parts_host {r b rg fl ev lk bp sc sh cx co sp me ho pw bo se x} (hb : m.testBit 312 = true) (h : FootParts m σ r b rg fl ev lk bp sc sh cx co sp me ho pw bo se) :
    FootParts m σ r b rg fl ev lk bp sc sh cx co sp me x pw bo se :=
  Foot.change (q := .host) h hb rfl (fun p hp => by cases p <;> first | rfl | exact absurd rfl hp)

theorem parts_pwr {r b rg fl ev lk bp sc sh cx co sp me ho pw bo se x} (hb : m.testBit 313 = true) (h : FootParts m σ r b rg fl ev lk bp sc sh cx co sp me ho pw bo se) :
    FootParts m σ r b rg fl ev lk bp sc sh cx co sp me ho x bo se :=
  Foot.change (q := .pwr) h hb rfl (fun p hp => by cases p <;> first | rfl | exact absurd rfl hp)

theorem parts_boot {r b rg fl ev lk bp sc sh cx co sp me ho pw bo se x} (hb : m.testBit 314 = true) (h : FootParts m σ r b rg fl ev lk bp sc sh cx co sp me ho pw bo se) :
    FootParts m σ r b rg fl ev lk bp sc sh cx co sp me ho pw x se :=
  Foot.change (q := .boot) h hb rfl (fun p hp => by cases p <;> first | rfl | exact absurd rfl hp)

theorem parts_sec {r b rg fl ev lk bp sc sh cx co sp me ho pw bo se x} (hb : m.testBit 315 = true) (h : FootParts m σ r b rg fl ev lk bp sc sh cx co sp me ho pw bo se) :
    FootParts m σ r b rg fl ev lk bp sc sh cx co sp me ho pw bo x :=
  Foot.change (q := .sec) h hb rfl (fun p hp => by cases p <;> first | rfl | exact absurd rfl hp)

theorem parts_regs {r r' b rg fl ev lk bp sc sh cx co sp me ho pw bo se}
    (hg : ∀ q lo i j, q < 260 → m.testBit q = false → r'.get [q, lo, i, j] = r.get [q, lo, i, j])
    (h : FootParts m σ r b rg fl ev lk bp sc sh cx co sp me ho pw bo se) : FootParts m σ r' b rg fl ev lk bp sc sh cx co sp me ho pw bo se := by
  refine ⟨fun q lo i j hq hm => (hg q lo i j hq hm).trans (h.regs q lo i j hq hm), fun p hm => ?_⟩
  have := h.part p hm
  cases p <;> exact this

theorem parts_set {r b rg fl ev lk bp sc sh cx co sp me ho pw bo se} {f : Fld} {i j : Nat} {v : Option Nat} (hb : m.testBit f.reg.ctorIdx = true)
    (h : FootParts m σ r b rg fl ev lk bp sc sh cx co sp me ho pw bo se) :
    FootParts m σ (r.set (f.key i j) v) b rg fl ev lk bp sc sh cx co sp me ho pw bo se := by
  refine parts_regs (fun q lo i' j' _ hm => SMap.get_set_ne _ (fun he => ?_) _) h
  simp only [Fld.key, List.cons.injEq] at he
  rw [he.1, hb] at hm
  cases hm

/-- Every register has its number below 260. -/
theorem reg_lt (r : Reg) : r.ctorIdx < 260 := by cases r <;> decide

/-- The bits of all registers. -/
abbrev regBits : Nat := 0xfffffffffffffffffffffffffffffffffffffffffffffffffffffffffffffffff

theorem regBits_bit {k : Nat} (h : k < 260) : regBits.testBit k = true := by
  interval_cases k <;> rfl

theorem Sub.all {a : Nat} (h : Sub a m) (ha : regBits &&& a = regBits) (r : Reg) : m.testBit r.ctorIdx = true :=
  Sub.bit (h.sub ha) (regBits_bit (reg_lt r))

/-- A mask that names everything. -/
theorem foot_all (h : Sub 0xffff0000000000fffffffffffffffffffffffffffffffffffffffffffffffffffffffffffffffff m) :
    Foot m σ τ := by
  refine ⟨fun r _ _ _ hlt hm => ?_, fun p hm => ?_⟩
  · rw [Sub.bit (h.sub (b := regBits) (by decide)) (regBits_bit hlt)] at hm
    cases hm
  · rw [h.bit (by cases p <;> decide)] at hm
    cases hm

theorem parts_all {r r' b rg fl ev lk bp sc sh cx co sp me ho pw bo se} {a : Nat} (hs : Sub a m) (ha : regBits &&& a = regBits)
    (h : FootParts m σ r b rg fl ev lk bp sc sh cx co sp me ho pw bo se) :
    FootParts m σ r' b rg fl ev lk bp sc sh cx co sp me ho pw bo se :=
  parts_regs (fun _ _ _ _ hq hm => absurd ((Sub.bit (hs.sub ha) (regBits_bit hq)).symm.trans hm) (by decide)) h

/-- Register keys that a filter keeps read as before. -/
theorem entriesFind_filter {V : Type} {k : Key} {p : Key × V → Bool} (h : ∀ v, p (k, v) = true) (l : List (Key × V)) :
    entriesFind k (l.filter p) = entriesFind k l := by
  induction l with
  | nil => rfl
  | cons e l ih =>
    obtain ⟨k', v⟩ := e
    by_cases hk : k' = k
    · subst hk
      simp only [List.filter_cons, h v, if_true, entriesFind]
    · cases hp : p (k', v) with
      | true => simp only [List.filter_cons, hp, if_true, entriesFind, hk, if_false, ih]
      | false => simp only [List.filter_cons, hp, Bool.false_eq_true, if_false, entriesFind, hk, ih]

theorem get_filter {V : Type} [Inhabited V] {k : Key} {p : Key × V → Bool} (h : ∀ v, p (k, v) = true) (l : SMap V) :
    ({ entries := l.entries.filter p } : SMap V).get k = l.get k := by
  unfold SMap.get SMap.getD
  rw [entriesFind_filter h]

/-- One of several fields of a register is a field of it. -/
theorem getD_reg {l : List Fld} {d : Fld} {r : Reg} {k : Nat} (h : ∀ f ∈ l, f.reg = r) (hd : d.reg = r) :
    (l.getD k d).reg = r := by
  rw [List.getD_eq_getElem?_getD]
  cases hf : l[k]? with
  | none => exact hd
  | some f => exact h f (List.mem_of_getElem? hf)

theorem each_foot_mem {α : Type} {l : List α} {g : State → α → State} (h : Foot m σ τ)
    (hg : ∀ u, ∀ a ∈ l, Foot m σ u → Foot m σ (g u a)) : Foot m σ (τ.each l g) := by
  induction l generalizing τ with
  | nil => exact h
  | cons a l ih => exact ih (hg τ a (List.mem_cons_self ..) h) (fun u b hb => hg u b (List.mem_cons_of_mem _ hb))

theorem wr_foot {f : Fld} {v i j : Nat} (hb : m.testBit f.reg.ctorIdx = true) (hk : Foot m σ τ) : Foot m σ (τ.wr f v i j) :=
  foot_mk.mpr (parts_set hb hk.parts)

/-- Marks are no part of it. -/
theorem marks_foot {l : List (Nat × Mark)} (hk : Foot m σ τ) : Foot m σ { τ with marks := l } := foot_mk.mpr hk.parts

theorem mark_foot {k : Mark} (hk : Foot m σ τ) : Foot m σ (τ.mark k) := marks_foot hk

theorem inc_foot {f : Fld} {v i j : Nat} (hb : m.testBit f.reg.ctorIdx = true) (hk : Foot m σ τ) : Foot m σ (τ.inc f v i j) :=
  marks_foot (wr_foot hb hk)

theorem latch_foot {f : Fld} {i j : Nat} (hb : m.testBit f.reg.ctorIdx = true) (hk : Foot m σ τ) :
    Foot m σ (τ.latch f i j) := mark_foot (wr_foot hb hk)

theorem wrNext_foot {f : Fld} {v i j n : Nat} (hb : m.testBit f.reg.ctorIdx = true) (hk : Foot m σ τ) :
    Foot m σ (τ.wrNext f v i j n) := wr_foot hb (mark_foot hk)

theorem noteWas_foot {f : Fld} {i j : Nat} (hk : Foot m σ τ) : Foot m σ (τ.noteWas f i j) := mark_foot hk

theorem restoreWas_foot {f : Fld} {i j : Nat} (hb : m.testBit f.reg.ctorIdx = true) (hk : Foot m σ τ) :
    Foot m σ (τ.restoreWas f i j) := wr_foot hb hk

theorem uncount_foot {f : Fld} {n i j : Nat} (hb : m.testBit f.reg.ctorIdx = true) (hk : Foot m σ τ) :
    Foot m σ (τ.uncount f n i j) := by
  unfold State.uncount
  split
  · exact hk
  · split
    · exact hk
    · exact marks_foot (wr_foot hb hk)

/-- A corrected error counts in its register, and in the lichen monitor's input. -/
theorem incCorr_foot {f : Fld} {n i : Nat} (hb : m.testBit f.reg.ctorIdx = true) (hs : m.testBit 310 = true)
    (hk : Foot m σ τ) : Foot m σ (τ.incCorr f n i) := foot_mk.mpr (parts_spore hs (inc_foot hb hk).parts)

theorem incWrap_foot {f : Fld} {v i j : Nat} (hb : m.testBit f.reg.ctorIdx = true) (hk : Foot m σ τ) :
    Foot m σ (τ.incWrap f v i j) := wr_foot hb hk

theorem emit_foot {o : Output} (hk : Foot m σ τ) : Foot m σ (τ.emit o) := foot_mk.mpr hk.parts

theorem fresh_foot (hk : Foot m σ τ) : Foot m σ τ.fresh.2 := foot_mk.mpr hk.parts

theorem fresh_foot_eq {v : Nat} (he : τ.fresh = (v, υ)) (hk : Foot m σ τ) : Foot m σ υ := by
  have := fresh_foot hk
  rwa [he] at this

theorem ite_foot {c : Prop} [Decidable c] (ht : Foot m σ τ) (hu : Foot m σ υ) : Foot m σ (if c then τ else υ) := by
  split <;> assumption

theorem ite_foot_snd {α : Type} {c : Prop} [Decidable c] {x y : α × State} (hx : Foot m σ x.2) (hy : Foot m σ y.2) :
    Foot m σ (if c then x else y).2 := by
  split <;> assumption

theorem whenActive_foot {g : State → State} (h : Foot m σ τ) (hg : ∀ u, Foot m σ u → Foot m σ (g u)) :
    Foot m σ (whenActive τ g) := ite_foot (hg _ h) h

theorem each_foot' {α : Type} {l : List α} {g : State → α → State} (h : Foot m σ τ)
    (hg : ∀ u a, Foot m σ u → Foot m σ (g u a)) : Foot m σ (τ.each l g) := by
  induction l generalizing τ with
  | nil => exact h
  | cons a l ih => exact ih (hg τ a h)

theorem foldl_foot {α β : Type} (p : β → State) {l : List α} {b : β} {g : β → α → β} (h : Foot m σ (p b))
    (hg : ∀ c a, Foot m σ (p c) → Foot m σ (p (g c a))) : Foot m σ (p (l.foldl g b)) := by
  induction l generalizing b with
  | nil => exact h
  | cons a l ih => exact ih (hg b a h)

theorem foldl_foot_fst {α β : Type} {l : List α} {b : β} {g : State × β → α → State × β} (h : Foot m σ τ)
    (hg : ∀ c a, Foot m σ c.1 → Foot m σ (g c a).1) : Foot m σ (l.foldl g (τ, b)).1 := foldl_foot Prod.fst h hg

theorem foldl_foot_snd {α β : Type} {l : List α} {b : β} {g : β × State → α → β × State} (h : Foot m σ τ)
    (hg : ∀ c a, Foot m σ c.2 → Foot m σ (g c a).2) : Foot m σ (l.foldl g (b, τ)).2 := foldl_foot Prod.snd h hg

theorem foldl_foot_fst_eq {α β : Type} {l : List α} {b y : β} {g : State × β → α → State × β}
    (he : l.foldl g (τ, b) = (υ, y)) (h : Foot m σ τ) (hg : ∀ c a, Foot m σ c.1 → Foot m σ (g c a).1) : Foot m σ υ := by
  have := foldl_foot_fst (l := l) (b := b) h hg
  rwa [he] at this

theorem foldl_foot_snd_eq {α β : Type} {l : List α} {b y : β} {g : β × State → α → β × State}
    (he : l.foldl g (b, τ) = (y, υ)) (h : Foot m σ τ) (hg : ∀ c a, Foot m σ c.2 → Foot m σ (g c a).2) : Foot m σ υ := by
  have := foldl_foot_snd (l := l) (b := b) h hg
  rwa [he] at this

end Sys2Proof.Machine
end

