-- ==== Sys2Proof/Laws/FootBase.lean ====
section
/-!
SUPPORT. Which registers and parts of the state the operations of Raise, MemOps, Bpm may change (`Foot`).
-/

namespace Sys2Proof.Machine

set_option Elab.async false
set_option linter.unusedTactic false
set_option linter.unreachableTactic false
set_option linter.unusedSimpArgs false
set_option linter.unusedVariables false

variable {μ : Nat} {σ τ υ : State}

theorem ringClaim_foot {r : Ring} {stop : Nat} {p : RingPacket} (hs : Sub 0x2000000000000000000000000000000000000000000000000000000000000000000000000000 μ) (hk : Foot μ σ τ) : Foot μ σ (τ.ringClaim r stop p) := by
  unfold State.ringClaim
  repeat' with_reducible (first
    | assumption | (intro _ _ _) | apply ite_foot | simp only [foot_mk] | apply Foot.parts | refine parts_ring (hs.bit (by decide)) (Foot.parts ?_)
    | split | dsimp only)

theorem ringEnter_foot {r : Ring} {stop : Nat} {p : RingPacket} (hs : Sub 0x2000000000000000000000000000000000000000000000000000000000000000000000000000 μ) (hk : Foot μ σ τ) : Foot μ σ (τ.ringEnter r stop p) := by
  unfold State.ringEnter
  repeat' with_reducible (first
    | assumption | (intro _ _ _) | refine ringClaim_foot (hs.sub (by decide)) ?_ | apply ite_foot | simp only [foot_mk] | apply Foot.parts
    | refine parts_ring (hs.bit (by decide)) (Foot.parts ?_) | dsimp only)

theorem launch_foot {r : Ring} {m : FaultMsg} (hs : Sub 0x6000000000000000000000000000000000000000000000000000000000000000000000000000 μ) (hk : Foot μ σ τ) : Foot μ σ (τ.launch r m) := by
  unfold State.launch
  repeat' with_reducible (first
    | assumption | (intro _ _ _) | refine ringEnter_foot (hs.sub (by decide)) ?_ | apply ite_foot | simp only [foot_mk] | apply Foot.parts
    | refine parts_flt (hs.bit (by decide)) (Foot.parts ?_) | split | dsimp only)

theorem enterFaults_foot {r : Ring} {stop : Nat} (hs : Sub 0x6000000000000000000000000000000000000000000000000000000000000000000000000000 μ) (hk : Foot μ σ τ) : Foot μ σ (τ.enterFaults r stop) := by
  unfold State.enterFaults
  repeat' with_reducible (first
    | assumption | (intro _ _ _) | refine launch_foot (hs.sub (by decide)) ?_ | apply each_foot' | apply ite_foot | simp only [foot_mk]
    | apply Foot.parts | refine parts_flt (hs.bit (by decide)) (Foot.parts ?_) | dsimp only)

theorem ringLeave_foot {r : Ring} {stop : Nat} {p : RingPacket} (hs : Sub 0x6000000000000000000000000000000000000000000000000000000000000000000000000000 μ) (hk : Foot μ σ τ) : Foot μ σ (τ.ringLeave r stop p) := by
  unfold State.ringLeave
  repeat' with_reducible (first
    | assumption | (intro _ _ _) | refine enterFaults_foot (hs.sub (by decide)) ?_ | apply ite_foot | simp only [foot_mk] | apply Foot.parts
    | refine parts_ring (hs.bit (by decide)) (Foot.parts ?_) | split | dsimp only)

theorem takeOff_foot {r : Ring} {p : RingPacket} (hs : Sub 0x6000000000000000000000000000000000000000000000000000000000000000000000000000 μ) (hk : Foot μ σ τ) : Foot μ σ (τ.takeOff r p) := by
  unfold State.takeOff
  repeat' with_reducible (first
    | assumption | (intro _ _ _) | refine ringLeave_foot (hs.sub (by decide)) ?_ | apply each_foot' | apply ite_foot | dsimp only)

theorem sendFault_foot {m : FaultMsg} (hs : Sub 0x6000000000000000000000000000000000000000000000000000000000000000000000000000 μ) (hk : Foot μ σ τ) : Foot μ σ (τ.sendFault m) := by
  unfold State.sendFault
  repeat' with_reducible (first
    | assumption | (intro _ _ _) | refine launch_foot (hs.sub (by decide)) ?_ | apply mark_foot | apply ite_foot | simp only [foot_mk]
    | apply Foot.parts | refine parts_flt (hs.bit (by decide)) (Foot.parts ?_) | split | dsimp only)

theorem deliver_foot {m : FaultMsg} (hs : Sub 0x4000000000000000000000000000000000000000000000000000000000000000000000000000 μ) (hk : Foot μ σ τ) : Foot μ σ (τ.deliver m) := by
  unfold State.deliver
  repeat' with_reducible (first
    | assumption | (intro _ _ _) | apply ite_foot | simp only [foot_mk] | apply Foot.parts | refine parts_flt (hs.bit (by decide)) (Foot.parts ?_)
    | dsimp only)

theorem raiseN_foot {die src n detail : Nat} (hs : Sub 0x6000000000000000000000000000000000000000000000000000000000000000000000000000 μ) (hk : Foot μ σ τ) : Foot μ σ (τ.raiseN die src n detail) := by
  unfold State.raiseN
  repeat' with_reducible (first
    | assumption | (intro _ _ _) | refine deliver_foot (hs.sub (by decide)) ?_ | refine sendFault_foot (hs.sub (by decide)) ?_ | apply ite_foot | split
    | dsimp only)

theorem raise_foot {die src : Nat} {detail : Nat} (hs : Sub 0x6000000000000000000000000000000000000000000000000000000000000000000000000000 μ) (hk : Foot μ σ τ) : Foot μ σ (τ.raise die src detail) := by
  unfold State.raise
  repeat' with_reducible (first
    | assumption | (intro _ _ _) | refine raiseN_foot (hs.sub (by decide)) ?_ | apply ite_foot | dsimp only)

theorem syncActive_foot {src : Nat} (hs : Sub 0x100000000 μ) (hk : Foot μ σ τ) : Foot μ σ (τ.syncActive src) := by
  unfold State.syncActive
  repeat' with_reducible (first
    | assumption | (intro _ _ _) | refine wr_foot (hs.bit (by decide)) ?_ | apply ite_foot | dsimp only)

theorem setLevel_foot {die src unit detail : Nat} {c : Bool} (hs : Sub 0x6000000000000000000000000000000000000000000000000000000000000000000100000000 μ) (hk : Foot μ σ τ) : Foot μ σ (τ.setLevel die src unit detail c) := by
  unfold State.setLevel
  repeat' with_reducible (first
    | assumption | (intro _ _ _) | refine raise_foot (hs.sub (by decide)) ?_ | refine sendFault_foot (hs.sub (by decide)) ?_ | refine syncActive_foot (hs.sub (by decide)) ?_ | apply ite_foot
    | simp only [foot_mk] | apply Foot.parts | refine parts_flt (hs.bit (by decide)) (Foot.parts ?_) | split | dsimp only)

theorem syncPin_foot (hs : Sub 0x4000000000 μ) (hk : Foot μ σ τ) : Foot μ σ (τ.syncPin) := by
  unfold State.syncPin
  repeat' with_reducible (first
    | assumption | (intro _ _ _) | refine inc_foot (hs.bit (by decide)) ?_ | apply mark_foot | refine wr_foot (hs.bit (by decide)) ?_ | apply ite_foot
    | split | dsimp only)

theorem syncFaults_foot (hs : Sub 0x4000000000000000000000000000000000000000000000000000000000000000007000000000 μ) (hk : Foot μ σ τ) : Foot μ σ (τ.syncFaults) := by
  unfold State.syncFaults
  repeat' with_reducible (first
    | assumption | (intro _ _ _) | refine syncPin_foot (hs.sub (by decide)) ?_ | refine wr_foot (hs.bit (by decide)) ?_ | apply foldl_foot_fst | apply foldl_foot_snd
    | refine foldl_foot_fst_eq ‹_› ?_ ?_ | refine foldl_foot_snd_eq ‹_› ?_ ?_ | apply ite_foot | simp only [foot_mk] | apply Foot.parts | refine parts_flt (hs.bit (by decide)) (Foot.parts ?_)
    | split | dsimp only)

theorem trigger_foot {code source severity set arg : Nat} (hs : Sub 0x8000000000000000000000000000000000000000000000000000000000000000400000000000 μ) (hk : Foot μ σ τ) : Foot μ σ (τ.trigger code source severity set arg) := by
  unfold State.trigger
  repeat' with_reducible (first
    | assumption | (intro _ _ _) | refine inc_foot (hs.bit (by decide)) ?_ | apply mark_foot | refine wr_foot (hs.bit (by decide)) ?_ | apply ite_foot
    | simp only [foot_mk] | apply Foot.parts | refine parts_evr (hs.bit (by decide)) (Foot.parts ?_) | split | dsimp only)

theorem triggerOther_foot {code arg : Nat} (hs : Sub 0x8000000000000000000000000000000000000000000000000000000000000000400000000000 μ) (hk : Foot μ σ τ) : Foot μ σ (τ.triggerOther code arg) := by
  unfold State.triggerOther
  repeat' with_reducible (first
    | assumption | (intro _ _ _) | refine trigger_foot (hs.sub (by decide)) ?_ | apply ite_foot | dsimp only)

theorem exactLoss_foot {f : Fld}  (hs : Sub 0x1000000000000000000000000000000000000000000000 μ) (hb : μ.testBit f.reg.ctorIdx = true) (hk : Foot μ σ τ) :
    Foot μ σ (τ.exactLoss f) := by
  unfold State.exactLoss
  exact latch_foot hb (ite_foot (wr_foot (hs.bit (by decide)) hk) hk)

theorem exactUndo_foot {f : Fld}  (hs : Sub 0x1000000000000000000000000000000000000000000000 μ) (hb : μ.testBit f.reg.ctorIdx = true) (hk : Foot μ σ τ) :
    Foot μ σ (τ.exactUndo f) := by
  unfold State.exactUndo
  exact ite_foot (restoreWas_foot (hs.bit (by decide)) (ite_foot (wr_foot hb hk) hk)) (ite_foot (wr_foot hb hk) hk)

theorem exactLossNoted_foot {f : Fld}  (hs : Sub 0x1000000000000000000000000000000000000000000000 μ) (hb : μ.testBit f.reg.ctorIdx = true) (hk : Foot μ σ τ) :
    Foot μ σ (τ.exactLossNoted f) := by
  unfold State.exactLossNoted
  exact exactLoss_foot (hs.sub (by decide)) hb (noteWas_foot (noteWas_foot hk))

theorem countChannel_foot {a n : Nat} (hs : Sub 0x2000000000000000000000000000000000000000000000000000000000000 μ) (hk : Foot μ σ τ) : Foot μ σ (τ.countChannel a n) := by
  unfold State.countChannel
  repeat' with_reducible (first
    | assumption | (intro _ _ _) | refine inc_foot (hs.bit (by decide)) ?_ | apply each_foot' | apply ite_foot | dsimp only)

theorem gddrUncorr_foot {a : Nat} (hs : Sub 0x6000000000000001800000000000000000000000000000000000000000000000000000000000 μ) (hk : Foot μ σ τ) : Foot μ σ (τ.gddrUncorr a) := by
  unfold State.gddrUncorr
  repeat' with_reducible (first
    | assumption | (intro _ _ _) | refine inc_foot (hs.bit (by decide)) ?_ | refine raise_foot (hs.sub (by decide)) ?_ | refine wr_foot (hs.bit (by decide)) ?_ | apply ite_foot
    | dsimp only)

theorem gddrRead_foot {a n : Nat} {bad : Option Nat} (hs : Sub 0x6000000000000003800000000000000000000000000000000000000000000000000000000000 μ) (hk : Foot μ σ τ) : Foot μ σ (τ.gddrRead a n bad).2 := by
  unfold State.gddrRead
  repeat' with_reducible (first
    | assumption | (intro _ _ _) | refine countChannel_foot (hs.sub (by decide)) ?_ | refine gddrUncorr_foot (hs.sub (by decide)) ?_ | apply ite_foot | simp only [foot_mk]
    | apply Foot.parts | split | dsimp only)

theorem gddrRead_foot_eq {a n : Nat} {bad : Option Nat} {y} (hs : Sub 0x6000000000000003800000000000000000000000000000000000000000000000000000000000 μ) (he : τ.gddrRead a n bad = (y, υ)) (hk : Foot μ σ τ) : Foot μ σ υ := by
  have := gddrRead_foot (a := a) (n := n) (bad := bad) hs hk
  rwa [he] at this

theorem setGddr_foot {a : Nat} {l : List Byte} (hs : Sub 0x800000000000000000000000000000000000000000000000000000000000000000000000000000 μ) (hk : Foot μ σ τ) : Foot μ σ (τ.setGddr a l) := by
  unfold State.setGddr
  repeat' with_reducible (first
    | assumption | (intro _ _ _) | apply ite_foot | simp only [foot_mk] | apply Foot.parts | refine parts_mem (hs.bit (by decide)) (Foot.parts ?_)
    | dsimp only)

theorem gddrWrite_foot {a : Nat} {l : List Byte} (hs : Sub 0x800000000000000002000000000000000000000000000000000000000000000000000000000000 μ) (hk : Foot μ σ τ) : Foot μ σ (τ.gddrWrite a l).2 := by
  have hc : Foot μ σ (τ.countChannel a l.length) := countChannel_foot (hs.sub (by decide)) hk
  unfold State.gddrWrite
  dsimp only
  split
  · exact each_foot' hc (fun u p h => ite_foot h (setGddr_foot (hs.sub (by decide)) h))
  · exact setGddr_foot (hs.sub (by decide)) hc

theorem gddrWrite_foot_eq {a : Nat} {l : List Byte} {y} (hs : Sub 0x800000000000000002000000000000000000000000000000000000000000000000000000000000 μ) (he : τ.gddrWrite a l = (y, υ)) (hk : Foot μ σ τ) :
    Foot μ σ υ := by
  have := gddrWrite_foot (a := a) (l := l) hs hk
  rwa [he] at this

theorem cxlWrite_foot {port a : Nat} {l : List Byte} (hs : Sub 0x800000000000000000000000000000000000000000000000000000000000000000000000000000 μ) (hk : Foot μ σ τ) : Foot μ σ (τ.cxlWrite port a l) :=
  foot_mk.mpr (parts_mem (hs.bit (by decide)) hk.parts)

theorem readPoison_foot {port a : Nat} (hs : Sub 0x800000000000000080000000000000000000000000000000000000000000000000000000000000 μ) (hk : Foot μ σ τ) : Foot μ σ (τ.readPoison port a) := by
  unfold State.readPoison
  repeat' with_reducible (first
    | assumption | (intro _ _ _) | refine inc_foot (hs.bit (by decide)) ?_ | apply ite_foot | simp only [foot_mk] | apply Foot.parts
    | refine parts_mem (hs.bit (by decide)) (Foot.parts ?_) | dsimp only)

theorem sporeWrite_foot {k : Nat} {l : List Byte} (hs : Sub 0x800000000000000000000000000000000000000000000000000000000000000000000000000000 μ) (hk : Foot μ σ τ) : Foot μ σ (τ.sporeWrite k l) := by
  unfold State.sporeWrite
  repeat' with_reducible (first
    | assumption | (intro _ _ _) | refine cxlWrite_foot (hs.sub (by decide)) ?_ | apply ite_foot | split | dsimp only)

theorem readGranule_foot {k : Nat} (hs : Sub 0x800000000000000080000000000000000000000000000000000000000000000000000000000000 μ) (hk : Foot μ σ τ) : Foot μ σ (τ.readGranule k).2 := by
  unfold State.readGranule
  repeat' with_reducible (first
    | assumption | (intro _ _ _) | refine readPoison_foot (hs.sub (by decide)) ?_ | apply ite_foot | split | dsimp only)

theorem readGranule_foot_eq {k : Nat} {y} (hs : Sub 0x800000000000000080000000000000000000000000000000000000000000000000000000000000 μ) (he : τ.readGranule k = (y, υ)) (hk : Foot μ σ τ) : Foot μ σ υ := by
  have := readGranule_foot (k := k) hs hk
  rwa [he] at this

theorem noteCounts_foot {q l colour a : Nat} (hs : Sub 0x0 μ) (hk : Foot μ σ τ) : Foot μ σ (τ.noteCounts q l colour a) := by
  unfold State.noteCounts
  repeat' with_reducible (first
    | assumption | (intro _ _ _) | apply mark_foot | apply ite_foot | dsimp only)

theorem syncFree_foot {q : Nat} (hs : Sub 0x600000000000000000000000000000000000000 μ) (hk : Foot μ σ τ) : Foot μ σ (τ.syncFree q) := by
  unfold State.syncFree
  repeat' with_reducible (first
    | assumption | (intro _ _ _) | refine wr_foot (hs.bit (by decide)) ?_ | apply ite_foot | dsimp only)

theorem setList_foot {q l colour : Nat} {f : FreeList} (hs : Sub 0x20000000000000000000000000000000000000000000000000000000000000000000000000000 μ) (hk : Foot μ σ τ) : Foot μ σ (τ.setList q l colour f) := by
  unfold State.setList
  repeat' with_reducible (first
    | assumption | (intro _ _ _) | apply ite_foot | simp only [foot_mk] | apply Foot.parts | refine parts_bpm (hs.bit (by decide)) (Foot.parts ?_)
    | dsimp only)

theorem setStored_foot {cell : Nat} {i : Option Item} (hs : Sub 0x20000000000000000000000000000000000000000000000000000000000000000000000000000 μ) (hk : Foot μ σ τ) : Foot μ σ (τ.setStored cell i) := by
  unfold State.setStored
  repeat' with_reducible (first
    | assumption | (intro _ _ _) | apply ite_foot | simp only [foot_mk] | apply Foot.parts | refine parts_bpm (hs.bit (by decide)) (Foot.parts ?_)
    | dsimp only)

theorem popList_foot {q l colour : Nat} {y} (hs : Sub 0x20000000000000000000000000000000000000000000000000000000000000000000000000000 μ) (he : τ.popList q l colour = some y) (hk : Foot μ σ τ) : Foot μ σ y.2 := by
  unfold State.popList at he
  try dsimp only at he
  repeat' split at he
  all_goals cases he
  all_goals repeat' with_reducible (first
    | assumption | (intro _ _ _) | apply fresh_foot | refine fresh_foot_eq ‹_› ?_ | refine setList_foot (hs.sub (by decide)) ?_ | apply ite_foot
    | simp only [foot_mk] | apply Foot.parts | split | dsimp only)

theorem bpmError_foot {kind account requester ptr named : Nat} (hs : Sub 0x6000000000000000000000000000000000078000000000000000000000000000000000000000 μ) (hk : Foot μ σ τ) : Foot μ σ (τ.bpmError kind account requester ptr named) := by
  unfold State.bpmError
  repeat' with_reducible (first
    | assumption | (intro _ _ _) | refine inc_foot (hs.bit (by decide)) ?_ | refine latch_foot (hs.bit (by decide)) ?_ | apply mark_foot | refine raise_foot (hs.sub (by decide)) ?_
    | refine wr_foot (hs.bit (by decide)) ?_ | apply ite_foot | simp only [foot_mk] | apply Foot.parts | split | dsimp only)

theorem setTag_foot {cell : Nat} {t : Tag} (hs : Sub 0x20000000000000000000000000000000000000000000000000000000000000000000000000000 μ) (hk : Foot μ σ τ) : Foot μ σ (τ.setTag cell t) := by
  unfold State.setTag
  repeat' with_reducible (first
    | assumption | (intro _ _ _) | apply ite_foot | simp only [foot_mk] | apply Foot.parts | refine parts_bpm (hs.bit (by decide)) (Foot.parts ?_)
    | dsimp only)

theorem withdraw_foot {cell : Nat} (hs : Sub 0x20000000000000000000000000000000000000000000000000000000000000000000000000000 μ) (hk : Foot μ σ τ) : Foot μ σ (τ.withdraw cell) := by
  unfold State.withdraw
  repeat' with_reducible (first
    | assumption | (intro _ _ _) | refine setTag_foot (hs.sub (by decide)) ?_ | apply ite_foot | simp only [foot_mk] | apply Foot.parts
    | dsimp only)

theorem tagErrors_foot {corrected : Nat} {lost : Option Nat} {stuck : Bool} (hs : Sub 0x420000000000000000000000000000000000040000000000000000000000000000000000000000 μ) (hk : Foot μ σ τ) : Foot μ σ (τ.tagErrors corrected lost stuck) := by
  unfold State.tagErrors
  repeat' with_reducible (first
    | assumption | (intro _ _ _) | refine incCorr_foot (hs.bit (by decide)) (hs.bit (by decide)) ?_ | refine setTag_foot (hs.sub (by decide)) ?_ | apply ite_foot | simp only [foot_mk]
    | apply Foot.parts | refine parts_spore (hs.bit (by decide)) (Foot.parts ?_) | split | dsimp only)

theorem takeHead_foot {fuel q l c a r : Nat} (hs : Sub 0x26000000000000000000000000000000000078000000000000000000000000000000000000000 μ) (hk : Foot μ σ τ) :
    Foot μ σ (takeHead fuel τ q l c a r).2 := by
  induction fuel generalizing τ with
  | zero => exact hk
  | succ n ih =>
    rw [takeHead]
    split
    · exact hk
    · next hp =>
      have hp := popList_foot (hs.sub (by decide)) hp hk
      split
      · exact ih (bpmError_foot (hs.sub (by decide)) (withdraw_foot (hs.sub (by decide)) hp))
      · exact hp

theorem takeHead_foot_eq {fuel q l c a r : Nat} {y} (hs : Sub 0x26000000000000000000000000000000000078000000000000000000000000000000000000000 μ) (he : takeHead fuel τ q l c a r = (y, υ))
    (hk : Foot μ σ τ) : Foot μ σ υ := by
  have := takeHead_foot (fuel := fuel) (q := q) (l := l) (c := c) (a := a) (r := r) hs hk
  rwa [he] at this

theorem holdBuffer_foot {q cell account next : Nat} (hs : Sub 0x20000000000000000000000000000000000002000000000000000000000000000000000000000 μ) (hk : Foot μ σ τ) : Foot μ σ (τ.holdBuffer q cell account next) := by
  unfold State.holdBuffer
  repeat' with_reducible (first
    | assumption | (intro _ _ _) | refine inc_foot (hs.bit (by decide)) ?_ | apply mark_foot | refine setTag_foot (hs.sub (by decide)) ?_ | apply ite_foot
    | simp only [foot_mk] | apply Foot.parts | dsimp only)

theorem alloc_foot {item : Item} {account requester : Nat} (hs : Sub 0x2600000000000000000000000000000000007a600000000000000000000000000000000000000 μ) (hk : Foot μ σ τ) : Foot μ σ (τ.alloc item account requester).2 := by
  unfold State.alloc
  repeat' with_reducible (first
    | assumption | (intro _ _ _) | apply fresh_foot | refine fresh_foot_eq ‹_› ?_ | refine holdBuffer_foot (hs.sub (by decide)) ?_ | refine noteCounts_foot (hs.sub (by decide)) ?_
    | refine setList_foot (hs.sub (by decide)) ?_ | refine setStored_foot (hs.sub (by decide)) ?_ | refine syncFree_foot (hs.sub (by decide)) ?_ | refine takeHead_foot_eq (hs.sub (by decide)) ‹_› ?_ | apply ite_foot | simp only [foot_mk]
    | apply Foot.parts | split | dsimp only)

theorem alloc_foot_eq {item : Item} {account requester : Nat} {y} (hs : Sub 0x2600000000000000000000000000000000007a600000000000000000000000000000000000000 μ) (he : τ.alloc item account requester = (y, υ)) (hk : Foot μ σ τ) : Foot μ σ υ := by
  have := alloc_foot (item := item) (account := account) (requester := requester) hs hk
  rwa [he] at this

theorem returnBuffer_foot {p : Nat} (hs : Sub 0x20000000000000000000000000000000000002600000000000000000000000000000000000000 μ) (hk : Foot μ σ τ) : Foot μ σ (τ.returnBuffer p) := by
  unfold State.returnBuffer
  repeat' with_reducible (first
    | assumption | (intro _ _ _) | apply mark_foot | refine noteCounts_foot (hs.sub (by decide)) ?_ | refine setList_foot (hs.sub (by decide)) ?_ | refine setTag_foot (hs.sub (by decide)) ?_
    | refine syncFree_foot (hs.sub (by decide)) ?_ | refine wr_foot (hs.bit (by decide)) ?_ | apply ite_foot | simp only [foot_mk] | apply Foot.parts | split
    | dsimp only)

theorem waitFree_foot {p account requester : Nat} (hs : Sub 0x20000000000000000000000000000000000000000000000000000000000000000000000000000 μ) (hk : Foot μ σ τ) : Foot μ σ (τ.waitFree p account requester) := by
  unfold State.waitFree
  repeat' with_reducible (first
    | assumption | (intro _ _ _) | apply ite_foot | simp only [foot_mk] | apply Foot.parts | refine parts_bpm (hs.bit (by decide)) (Foot.parts ?_)
    | dsimp only)

theorem freeFails_foot {kind p account requester : Nat} (hs : Sub 0x26000000000000000000000000000000000078000000000000000000000000000000000000000 μ) (hk : Foot μ σ τ) : Foot μ σ (τ.freeFails kind p account requester) := by
  unfold State.freeFails
  repeat' with_reducible (first
    | assumption | (intro _ _ _) | refine bpmError_foot (hs.sub (by decide)) ?_ | apply mark_foot | refine withdraw_foot (hs.sub (by decide)) ?_ | apply ite_foot
    | simp only [foot_mk] | apply Foot.parts | split | dsimp only)

theorem freeObj_foot {p account requester : Nat} (hs : Sub 0x2600000000000000000000000000000000007a600000000000000000000000000000000000000 μ) (hk : Foot μ σ τ) : Foot μ σ (τ.freeObj p account requester) := by
  unfold State.freeObj
  repeat' with_reducible (first
    | assumption | (intro _ _ _) | refine bpmError_foot (hs.sub (by decide)) ?_ | refine freeFails_foot (hs.sub (by decide)) ?_ | apply mark_foot | refine returnBuffer_foot (hs.sub (by decide)) ?_
    | refine setStored_foot (hs.sub (by decide)) ?_ | refine waitFree_foot (hs.sub (by decide)) ?_ | refine withdraw_foot (hs.sub (by decide)) ?_ | apply ite_foot | simp only [foot_mk] | apply Foot.parts
    | split | dsimp only)

theorem serveFrees_foot (hs : Sub 0x2600000000000000000000000000000000007a600000000000000000000000000000000000000 μ) (hk : Foot μ σ τ) : Foot μ σ (τ.serveFrees) := by
  unfold State.serveFrees
  repeat' with_reducible (first
    | assumption | (intro _ _ _) | refine freeObj_foot (hs.sub (by decide)) ?_ | apply each_foot' | apply ite_foot | simp only [foot_mk]
    | apply Foot.parts | refine parts_bpm (hs.bit (by decide)) (Foot.parts ?_) | split | dsimp only)

theorem dropObj_foot {p account requester : Nat} (hs : Sub 0x2600000000000000000000000000000000007a600000000000000000000000000000000000000 μ) (hk : Foot μ σ τ) : Foot μ σ (τ.dropObj p account requester) := by
  unfold State.dropObj
  repeat' with_reducible (first
    | assumption | (intro _ _ _) | refine freeObj_foot (hs.sub (by decide)) ?_ | apply ite_foot | split | dsimp only)

theorem decRef_foot {p account requester : Nat} (hs : Sub 0x2600000000000000000000000000000000007a600000000000000000000000000000000000000 μ) (hk : Foot μ σ τ) : Foot μ σ (τ.decRef p account requester) := by
  unfold State.decRef
  repeat' with_reducible (first
    | assumption | (intro _ _ _) | refine bpmError_foot (hs.sub (by decide)) ?_ | refine freeObj_foot (hs.sub (by decide)) ?_ | refine setTag_foot (hs.sub (by decide)) ?_ | refine withdraw_foot (hs.sub (by decide)) ?_
    | apply ite_foot | simp only [foot_mk] | apply Foot.parts | split | dsimp only)

theorem addRefs_foot {p n : Nat} (hs : Sub 0x20000000000000000000000000000000000000000000000000000000000000000000000000000 μ) (hk : Foot μ σ τ) : Foot μ σ (τ.addRefs p n) := by
  unfold State.addRefs
  repeat' with_reducible (first
    | assumption | (intro _ _ _) | refine setTag_foot (hs.sub (by decide)) ?_ | apply ite_foot | simp only [foot_mk] | apply Foot.parts
    | dsimp only)

theorem setObject_foot {p : Nat} {i : Item} (hs : Sub 0x20000000000000000000000000000000000000000000000000000000000000000000000000000 μ) (hk : Foot μ σ τ) : Foot μ σ (τ.setObject p i) := by
  unfold State.setObject
  repeat' with_reducible (first
    | assumption | (intro _ _ _) | refine setStored_foot (hs.sub (by decide)) ?_ | apply ite_foot | dsimp only)

theorem buildLists_foot {q : Nat} {schedOnly : Bool} (hs : Sub 0x20000000000000000000000000000000000000600000000000000000000000000000000000000 μ) (hk : Foot μ σ τ) : Foot μ σ (τ.buildLists q schedOnly) := by
  unfold State.buildLists
  repeat' with_reducible (first
    | assumption | (intro _ _ _) | refine setList_foot (hs.sub (by decide)) ?_ | refine syncFree_foot (hs.sub (by decide)) ?_ | apply ite_foot | split
    | dsimp only)

theorem dropWithdrawn_foot {cells : List Nat} (hs : Sub 0x20000000000000000000000000000000000000600000000000000000000000000000000000000 μ) (hk : Foot μ σ τ) : Foot μ σ (τ.dropWithdrawn cells) := by
  unfold State.dropWithdrawn
  repeat' with_reducible (first
    | assumption | (intro _ _ _) | apply fresh_foot | refine fresh_foot_eq ‹_› ?_ | refine setList_foot (hs.sub (by decide)) ?_ | refine syncFree_foot (hs.sub (by decide)) ?_
    | apply each_foot' | apply ite_foot | split | dsimp only)

theorem rebuildScheduled_foot (hs : Sub 0x20000000000000000000000000000000000042600000000000000000000000000000000000000 μ) (hk : Foot μ σ τ) : Foot μ σ (τ.rebuildScheduled) := by
  unfold State.rebuildScheduled
  repeat' with_reducible (first
    | assumption | (intro _ _ _) | refine buildLists_foot (hs.sub (by decide)) ?_ | refine dropWithdrawn_foot (hs.sub (by decide)) ?_ | refine inc_foot (hs.bit (by decide)) ?_ | refine setStored_foot (hs.sub (by decide)) ?_
    | refine setTag_foot (hs.sub (by decide)) ?_ | refine wr_foot (hs.bit (by decide)) ?_ | apply each_foot' | apply ite_foot | simp only [foot_mk] | apply Foot.parts
    | refine parts_bpm (hs.bit (by decide)) (Foot.parts ?_) | split | dsimp only)

theorem request_foot {requester account : Nat} {item : Item} {purpose : Purpose} (hs : Sub 0x20000000000000000000000000000000000000000000000000000000000000000000000000000 μ) (hk : Foot μ σ τ) : Foot μ σ (τ.request requester account item purpose) := by
  unfold State.request
  repeat' with_reducible (first
    | assumption | (intro _ _ _) | apply ite_foot | simp only [foot_mk] | apply Foot.parts | refine parts_bpm (hs.bit (by decide)) (Foot.parts ?_)
    | dsimp only)

theorem allocNow_foot {item : Item} {account requester : Nat} (hs : Sub 0x2600000000000000000000000000000000007a600000000000000000000000000000000000000 μ) (hk : Foot μ σ τ) : Foot μ σ (τ.allocNow item account requester).2 := by
  unfold State.allocNow
  repeat' with_reducible (first
    | assumption | (intro _ _ _) | refine alloc_foot (hs.sub (by decide)) ?_ | refine alloc_foot_eq (hs.sub (by decide)) ‹_› ?_ | apply ite_foot | split
    | dsimp only)

theorem allocNow_foot_eq {item : Item} {account requester : Nat} {y} (hs : Sub 0x2600000000000000000000000000000000007a600000000000000000000000000000000000000 μ) (he : τ.allocNow item account requester = (y, υ)) (hk : Foot μ σ τ) : Foot μ σ υ := by
  have := allocNow_foot (item := item) (account := account) (requester := requester) hs hk
  rwa [he] at this

theorem bpmDrop_foot {a : Nat} (hs : Sub 0x80000000000000000000000000000000000000000 μ) (hk : Foot μ σ τ) : Foot μ σ (τ.bpmDrop a) := by
  unfold State.bpmDrop
  repeat' with_reducible (first
    | assumption | (intro _ _ _) | refine inc_foot (hs.bit (by decide)) ?_ | apply ite_foot | dsimp only)

end Sys2Proof.Machine
end

