-- ==== Sys2Proof/Laws/FootSwitch.lean ====
section
/-!
SUPPORT. Which registers and parts of the state the operations of Egress, Shaping, Sched, Fences, Codec, Arrival may change (`Foot`).
-/

namespace Sys2Proof.Machine

set_option Elab.async false
set_option linter.unusedTactic false
set_option linter.unreachableTactic false
set_option linter.unusedSimpArgs false
set_option linter.unusedVariables false

variable {μ : Nat} {σ τ υ : State}

theorem syncFenced_foot (hs : Sub 0x44000000000000000000000 μ) (hk : Foot μ σ τ) : Foot μ σ (τ.syncFenced) := by
  unfold State.syncFenced
  repeat' with_reducible (first
    | assumption | (intro _ _ _) | refine wr_foot (hs.bit (by decide)) ?_ | apply each_foot' | apply ite_foot | dsimp only)

theorem askDegraded_foot {p : Nat} (hs : Sub 0x40000000000000000000000000000000000000000000000000000000000000000000000000000 μ) (hk : Foot μ σ τ) : Foot μ σ (τ.askDegraded p) := by
  unfold State.askDegraded
  repeat' with_reducible (first
    | assumption | (intro _ _ _) | apply ite_foot | simp only [foot_mk] | apply Foot.parts | refine parts_sched (hs.bit (by decide)) (Foot.parts ?_)
    | split | dsimp only)

theorem syncFailing_foot (hs : Sub 0x40000000000000000000000000000000000000000000000000000000000000000000000000000 μ) (hk : Foot μ σ τ) : Foot μ σ (τ.syncFailing) := by
  unfold State.syncFailing
  repeat' with_reducible (first
    | assumption | (intro _ _ _) | apply each_foot' | apply ite_foot | simp only [foot_mk] | apply Foot.parts
    | refine parts_sched (hs.bit (by decide)) (Foot.parts ?_) | split | dsimp only)

theorem nextSeq_foot {ctx opnum group : Nat} (hs : Sub 0x40000000000000000000000000000000000000000000000000000000000000000000000000000 μ) (hk : Foot μ σ τ) : Foot μ σ (τ.nextSeq ctx opnum group).2 := by
  unfold State.nextSeq
  repeat' with_reducible (first
    | assumption | (intro _ _ _) | apply ite_foot | simp only [foot_mk] | apply Foot.parts | refine parts_sched (hs.bit (by decide)) (Foot.parts ?_)
    | dsimp only)

theorem nextSeq_foot_eq {ctx opnum group : Nat} {y} (hs : Sub 0x40000000000000000000000000000000000000000000000000000000000000000000000000000 μ) (he : τ.nextSeq ctx opnum group = (y, υ)) (hk : Foot μ σ τ) : Foot μ σ υ := by
  have := nextSeq_foot (ctx := ctx) (opnum := opnum) (group := group) hs hk
  rwa [he] at this

theorem noteOutput_foot {h : SwHeader} {port : Nat} {sent : Bool} (hs : Sub 0x140000000000000000000000000000000000000000000000000000000000000000000000000000 μ) (hk : Foot μ σ τ) : Foot μ σ (τ.noteOutput h port sent) := by
  unfold State.noteOutput
  repeat' with_reducible (first
    | assumption | (intro _ _ _) | refine sent_foot (hs.sub (by decide)) ?_ | refine sent_foot_eq (hs.sub (by decide)) ‹_› ?_ | apply ite_foot | simp only [foot_mk]
    | apply Foot.parts | refine parts_ctx (hs.bit (by decide)) (Foot.parts ?_) | split | dsimp only)

theorem noteObject_foot {ptr account port : Nat} {sent : Bool} (hs : Sub 0x140000000000000000000000000000000000000000000000000000000000000000000000000000 μ) (hk : Foot μ σ τ) : Foot μ σ (τ.noteObject ptr account port sent) := by
  unfold State.noteObject
  repeat' with_reducible (first
    | assumption | (intro _ _ _) | refine noteOutput_foot (hs.sub (by decide)) ?_ | apply ite_foot | simp only [foot_mk] | apply Foot.parts
    | split | dsimp only)

theorem noteEntry_foot {e : OppEntry} {port : Nat} {sent : Bool} (hs : Sub 0x140000000000000000000000000000000000000000000000000000000000000000000000000000 μ) (hk : Foot μ σ τ) : Foot μ σ (τ.noteEntry e port sent) := by
  unfold State.noteEntry
  repeat' with_reducible (first
    | assumption | (intro _ _ _) | refine noteObject_foot (hs.sub (by decide)) ?_ | refine noteOutput_foot (hs.sub (by decide)) ?_ | apply ite_foot | simp only [foot_mk]
    | apply Foot.parts | split | dsimp only)

theorem countAccess_foot {f : Fld} {ptr : Nat} (hs : Sub 0x0 μ) (hb : μ.testBit f.reg.ctorIdx = true) (hk : Foot μ σ τ) :
    Foot μ σ (τ.countAccess f ptr) := by
  unfold State.countAccess
  exact each_foot' hk (fun _ _ h => inc_foot hb h)

theorem countWrite_foot {ptr account : Nat} (hs : Sub 0xc0000000000000000000000000000000000000 μ) (hk : Foot μ σ τ) : Foot μ σ (τ.countWrite ptr account) := by
  unfold State.countWrite
  repeat' with_reducible (first
    | assumption | (intro _ _ _) | refine countAccess_foot (hs.sub (by decide)) (hs.bit (by decide)) ?_ | apply ite_foot | split | dsimp only)

theorem countBlock_foot {ptr : Nat} (hs : Sub 0x80000000000000000000000000000000000000 μ) (hk : Foot μ σ τ) : Foot μ σ (τ.countBlock ptr) := by
  unfold State.countBlock
  repeat' with_reducible (first
    | assumption | (intro _ _ _) | refine countAccess_foot (hs.sub (by decide)) (hs.bit (by decide)) ?_ | apply ite_foot | dsimp only)

theorem dropEntry_foot {e : OppEntry} {port requester : Nat} (hs : Sub 0x16600000000000000000000000000000000107a600000000000000000000000000000000000000 μ) (hk : Foot μ σ τ) : Foot μ σ (τ.dropEntry e port requester) := by
  unfold State.dropEntry
  repeat' with_reducible (first
    | assumption | (intro _ _ _) | refine decRef_foot (hs.sub (by decide)) ?_ | refine inc_foot (hs.bit (by decide)) ?_ | refine noteEntry_foot (hs.sub (by decide)) ?_ | apply ite_foot
    | dsimp only)

theorem putVoq_foot {die dst : Nat} {e : OppEntry} (hs : Sub 0x40000000000000000000000000000000000400000000000000000000000000000000000000000 μ) (hk : Foot μ σ τ) : Foot μ σ (τ.putVoq die dst e) := by
  unfold State.putVoq
  repeat' with_reducible (first
    | assumption | (intro _ _ _) | refine inc_foot (hs.bit (by decide)) ?_ | apply ite_foot | simp only [foot_mk] | apply Foot.parts
    | refine parts_sched (hs.bit (by decide)) (Foot.parts ?_) | dsimp only)

theorem mirrorLost_foot {f : Fld} {k : Nat} (hs : Sub 0x80000000000000000000000000000000000000000000000000000000000000000000000000000 μ) (hb : μ.testBit f.reg.ctorIdx = true) (hk : Foot μ σ τ) :
    Foot μ σ (τ.mirrorLost k f) := by
  unfold State.mirrorLost
  exact foot_mk.mpr (parts_shape (hs.bit (by decide)) (inc_foot hb hk).parts)

theorem mirrorTake_foot {m port : Nat} {egress sched : Bool} {vc ptr account extra : Nat} (hs : Sub 0xe60000000000000000000000000700000004fa6c0000000000000000000000000000000000000 μ) (hk : Foot μ σ τ) : Foot μ σ (τ.mirrorTake m port egress sched vc ptr account extra) := by
  unfold State.mirrorTake
  repeat' with_reducible (first
    | assumption | (intro _ _ _) | refine addRefs_foot (hs.sub (by decide)) ?_ | refine alloc_foot (hs.sub (by decide)) ?_ | refine alloc_foot_eq (hs.sub (by decide)) ‹_› ?_ | refine bpmDrop_foot (hs.sub (by decide)) ?_
    | refine countWrite_foot (hs.sub (by decide)) ?_ | refine inc_foot (hs.bit (by decide)) ?_ | refine mirrorLost_foot (hs.sub (by decide)) (hs.bit (by decide)) ?_ | refine putVoq_foot (hs.sub (by decide)) ?_ | refine wr_foot (hs.bit (by decide)) ?_ | apply ite_foot
    | simp only [foot_mk] | apply Foot.parts | refine parts_shape (hs.bit (by decide)) (Foot.parts ?_) | split | dsimp only)

theorem mirrorAll_foot {port : Nat} {egress sched : Bool} {vc : Nat} {context : Option Nat} {ptr account extra : Nat} (hs : Sub 0xe60000000000000000000000000700000004fa6c0000000000000000000000000000000000000 μ) (hk : Foot μ σ τ) : Foot μ σ (τ.mirrorAll port egress sched vc context ptr account extra) := by
  unfold State.mirrorAll
  repeat' with_reducible (first
    | assumption | (intro _ _ _) | refine mirrorTake_foot (hs.sub (by decide)) ?_ | apply each_foot' | apply ite_foot | split
    | dsimp only)

theorem copyLater_foot {c : LateCopy} (hs : Sub 0x40000000000000000000000000000000000000000000000000000000000000000000000000000 μ) (hk : Foot μ σ τ) : Foot μ σ (τ.copyLater c) := by
  unfold State.copyLater
  repeat' with_reducible (first
    | assumption | (intro _ _ _) | apply ite_foot | simp only [foot_mk] | apply Foot.parts | refine parts_sched (hs.bit (by decide)) (Foot.parts ?_)
    | dsimp only)

theorem pushNow_foot {die dst : Nat} {e : OppEntry} (hs : Sub 0x40000000000000000000000000000000000400000000000000000000000000000000000000000 μ) (hk : Foot μ σ τ) : Foot μ σ (τ.pushNow die dst e) := by
  unfold State.pushNow
  repeat' with_reducible (first
    | assumption | (intro _ _ _) | refine copyLater_foot (hs.sub (by decide)) ?_ | refine putVoq_foot (hs.sub (by decide)) ?_ | apply ite_foot | dsimp only)

theorem pushVoq_foot {die dst : Nat} {e : OppEntry} (hs : Sub 0x40000000000000000000000000000000000400000000000000000000000000000000000000000 μ) (hk : Foot μ σ τ) : Foot μ σ (τ.pushVoq die dst e) := by
  unfold State.pushVoq
  repeat' with_reducible (first
    | assumption | (intro _ _ _) | refine pushNow_foot (hs.sub (by decide)) ?_ | apply ite_foot | simp only [foot_mk] | apply Foot.parts
    | refine parts_sched (hs.bit (by decide)) (Foot.parts ?_) | split | dsimp only)

theorem enqueueNow_foot {b t : Nat} {e : QEntry} {requester : Nat} (hs : Sub 0x40000000000000000000000000000000000400000000000000000000000000000000000000000 μ) (hk : Foot μ σ τ) : Foot μ σ (τ.enqueueNow b t e requester) := by
  unfold State.enqueueNow
  repeat' with_reducible (first
    | assumption | (intro _ _ _) | refine copyLater_foot (hs.sub (by decide)) ?_ | refine inc_foot (hs.bit (by decide)) ?_ | refine pushNow_foot (hs.sub (by decide)) ?_ | apply ite_foot
    | simp only [foot_mk] | apply Foot.parts | refine parts_sched (hs.bit (by decide)) (Foot.parts ?_) | split | dsimp only)

theorem enqueue_foot {b t : Nat} {e : QEntry} {requester : Nat} (hs : Sub 0x40000000000000000000000000000000000400000000000000000000000000000000000000000 μ) (hk : Foot μ σ τ) : Foot μ σ (τ.enqueue b t e requester) := by
  unfold State.enqueue
  repeat' with_reducible (first
    | assumption | (intro _ _ _) | refine enqueueNow_foot (hs.sub (by decide)) ?_ | apply ite_foot | simp only [foot_mk] | apply Foot.parts
    | refine parts_sched (hs.bit (by decide)) (Foot.parts ?_) | split | dsimp only)

theorem refuseLate_foot (hs : Sub 0x16600000000000000000000000000000000147a600000000000000000000000000000000000000 μ) (hk : Foot μ σ τ) : Foot μ σ (τ.refuseLate) := by
  unfold State.refuseLate
  repeat' with_reducible (first
    | assumption | (intro _ _ _) | refine decRef_foot (hs.sub (by decide)) ?_ | refine dropEntry_foot (hs.sub (by decide)) ?_ | refine enqueueNow_foot (hs.sub (by decide)) ?_ | refine inc_foot (hs.bit (by decide)) ?_
    | refine noteOutput_foot (hs.sub (by decide)) ?_ | refine pushNow_foot (hs.sub (by decide)) ?_ | apply each_foot' | apply ite_foot | simp only [foot_mk] | apply Foot.parts
    | refine parts_sched (hs.bit (by decide)) (Foot.parts ?_) | split | dsimp only)

theorem copyLate_foot (hs : Sub 0xe60000000000000000000000000700000004fa6c0000000000000000000000000000000000000 μ) (hk : Foot μ σ τ) : Foot μ σ (τ.copyLate) := by
  unfold State.copyLate
  repeat' with_reducible (first
    | assumption | (intro _ _ _) | refine mirrorAll_foot (hs.sub (by decide)) ?_ | apply each_foot' | apply ite_foot | simp only [foot_mk]
    | apply Foot.parts | refine parts_sched (hs.bit (by decide)) (Foot.parts ?_) | split | dsimp only)

theorem multicast_foot {ptr account requester : Nat} {targets : List Target} (hs : Sub 0x6600000000000000000000000000000000067a600000000000000000000000000000000000000 μ) (hk : Foot μ σ τ) : Foot μ σ (τ.multicast ptr account requester targets) := by
  unfold State.multicast
  repeat' with_reducible (first
    | assumption | (intro _ _ _) | refine addRefs_foot (hs.sub (by decide)) ?_ | refine enqueue_foot (hs.sub (by decide)) ?_ | refine freeObj_foot (hs.sub (by decide)) ?_ | refine inc_foot (hs.bit (by decide)) ?_
    | apply each_foot' | apply ite_foot | split | dsimp only)

theorem sendItem_foot {die port : Nat} {item : Item} {account : Nat} (hs : Sub 0x16600000000000000000000000000000000067a6c0000000000000000000000000000000000000 μ) (hk : Foot μ σ τ) : Foot μ σ (τ.sendItem die port item account) := by
  unfold State.sendItem
  repeat' with_reducible (first
    | assumption | (intro _ _ _) | refine addRefs_foot (hs.sub (by decide)) ?_ | refine allocNow_foot (hs.sub (by decide)) ?_ | refine allocNow_foot_eq (hs.sub (by decide)) ‹_› ?_ | refine countWrite_foot (hs.sub (by decide)) ?_
    | refine forward_foot (hs.sub (by decide)) ?_ | refine pushVoq_foot (hs.sub (by decide)) ?_ | refine request_foot (hs.sub (by decide)) ?_ | apply ite_foot | simp only [foot_mk] | apply Foot.parts
    | split | dsimp only)

theorem sendControl_foot {die port : Nat} {ckind : Nat} {data : List Byte} (hs : Sub 0x16600000000000000000000000000000000067a6c0000000000000000000000000000000000000 μ) (hk : Foot μ σ τ) : Foot μ σ (τ.sendControl die port ckind data) := by
  unfold State.sendControl
  repeat' with_reducible (first
    | assumption | (intro _ _ _) | refine sendItem_foot (hs.sub (by decide)) ?_ | apply ite_foot | dsimp only)

theorem purgeOne_foot {p : Nat} (hs : Sub 0x16600000000000000000000000000000000107a600000000000000000000000000000000000000 μ) (hk : Foot μ σ τ) : Foot μ σ (τ.purgeOne p) := by
  unfold State.purgeOne
  repeat' with_reducible (first
    | assumption | (intro _ _ _) | refine decRef_foot (hs.sub (by decide)) ?_ | refine dropEntry_foot (hs.sub (by decide)) ?_ | refine inc_foot (hs.bit (by decide)) ?_ | refine noteOutput_foot (hs.sub (by decide)) ?_
    | apply ite_foot | simp only [foot_mk] | apply Foot.parts | refine parts_sched (hs.bit (by decide)) (Foot.parts ?_) | split | dsimp only)

theorem mirrorDiscard_foot {e : OppEntry} {die : Nat} (hs : Sub 0x2600000000000000000000000006000000007a600000000000000000000000000000000000000 μ) (hk : Foot μ σ τ) : Foot μ σ (τ.mirrorDiscard e die) := by
  unfold State.mirrorDiscard
  repeat' with_reducible (first
    | assumption | (intro _ _ _) | refine decRef_foot (hs.sub (by decide)) ?_ | refine inc_foot (hs.bit (by decide)) ?_ | refine wr_foot (hs.bit (by decide)) ?_ | apply ite_foot
    | simp only [foot_mk] | apply Foot.parts | split | dsimp only)

theorem setTokens_foot {k : Bucket} {p v : Nat} {t : Int} (hs : Sub 0x2400000000000000000000000000000000000000000000000 μ) (hk : Foot μ σ τ) :
    Foot μ σ (τ.setTokens k p v t) := by
  unfold State.setTokens
  cases k <;> exact wr_foot (hs.bit (by decide)) hk

theorem applyBucket_foot {k : Bucket} {p v value : Nat} (hs : Sub 0x1200000000000000000000000000000000000000000000000 μ) (hk : Foot μ σ τ) :
    Foot μ σ (τ.applyBucket k p v value) := by
  unfold State.applyBucket
  cases k <;>
  exact wr_foot (hs.bit (by decide)) (wr_foot (hs.bit (by decide)) (wr_foot (hs.bit (by decide))
    (wr_foot (hs.bit (by decide)) (wr_foot (hs.bit (by decide)) hk))))

theorem setWaiting_foot {k : Bucket} {p v : Nat} {w : Option (Nat × Nat)} (hs : Sub 0x80000000000000000000000000002400000000000000000000000000000000000000000000000 μ) (hk : Foot μ σ τ) :
    Foot μ σ (τ.setWaiting k p v w) := by
  unfold State.setWaiting
  cases k <;> exact wr_foot (hs.bit (by decide)) (foot_mk.mpr (parts_shape (hs.bit (by decide)) hk.parts))

theorem writeBucket_foot {k : Bucket} {p v value : Nat} (hs : Sub 0x80000000000000000000000000002400000000000000000000000000000000000000000000000 μ) (hk : Foot μ σ τ) : Foot μ σ (τ.writeBucket k p v value) := by
  unfold State.writeBucket
  repeat' with_reducible (first
    | assumption | (intro _ _ _) | refine setWaiting_foot (hs.sub (by decide)) ?_ | apply ite_foot | split | dsimp only)

theorem resetBucket_foot {k : Bucket} {p v value : Nat} (hs : Sub 0x80000000000000000000000000003600000000000000000000000000000000000000000000000 μ) (hk : Foot μ σ τ) : Foot μ σ (τ.resetBucket k p v value) := by
  unfold State.resetBucket
  repeat' with_reducible (first
    | assumption | (intro _ _ _) | refine applyBucket_foot (hs.sub (by decide)) ?_ | apply mark_foot | refine setTokens_foot (hs.sub (by decide)) ?_ | refine setWaiting_foot (hs.sub (by decide)) ?_
    | apply ite_foot | split | dsimp only)

theorem bucketResets_foot (hs : Sub 0x80000000000000000000000000003600000000000000000000000000000000000000000000000 μ) (hk : Foot μ σ τ) : Foot μ σ (τ.bucketResets) := by
  unfold State.bucketResets
  repeat' with_reducible (first
    | assumption | (intro _ _ _) | refine resetBucket_foot (hs.sub (by decide)) ?_ | apply each_foot' | apply ite_foot | simp only [foot_mk]
    | apply Foot.parts | split | dsimp only)

theorem unhold_foot {p v : Nat} (hs : Sub 0x40000000000000000000000000000800000000000000000000000000000000000000000000000 μ) (hk : Foot μ σ τ) : Foot μ σ (τ.unhold p v) := by
  unfold State.unhold
  repeat' with_reducible (first
    | assumption | (intro _ _ _) | refine uncount_foot (hs.bit (by decide)) ?_ | apply ite_foot | simp only [foot_mk] | apply Foot.parts
    | refine parts_sched (hs.bit (by decide)) (Foot.parts ?_) | split | dsimp only)

theorem refillBucket_foot {k : Bucket} {p v : Nat} (hs : Sub 0xc0000000000000000000000000003e00000000000000000000000000000000000000000000000 μ) (hk : Foot μ σ τ) : Foot μ σ (τ.refillBucket k p v) := by
  unfold State.refillBucket
  repeat' with_reducible (first
    | assumption | (intro _ _ _) | refine applyBucket_foot (hs.sub (by decide)) ?_ | refine setTokens_foot (hs.sub (by decide)) ?_ | refine setWaiting_foot (hs.sub (by decide)) ?_ | refine unhold_foot (hs.sub (by decide)) ?_
    | apply ite_foot | simp only [foot_mk] | apply Foot.parts | split | dsimp only)

theorem refillDie_foot {die : Nat} (hs : Sub 0xc0000000000000000000000000003e00000000000000000000000000000000000000000000000 μ) (hk : Foot μ σ τ) : Foot μ σ (τ.refillDie die) := by
  unfold State.refillDie
  repeat' with_reducible (first
    | assumption | (intro _ _ _) | refine refillBucket_foot (hs.sub (by decide)) ?_ | apply each_foot' | apply ite_foot | dsimp only)

theorem police_foot {p v len : Nat} (hs : Sub 0x6400000000000000000000000000000000000000000000000 μ) (hk : Foot μ σ τ) : Foot μ σ (τ.police p v len).2 := by
  unfold State.police
  repeat' with_reducible (first
    | assumption | (intro _ _ _) | refine inc_foot (hs.bit (by decide)) ?_ | apply mark_foot | refine setTokens_foot (hs.sub (by decide)) ?_ | apply ite_foot
    | simp only [foot_mk] | apply Foot.parts | split | dsimp only)

theorem police_foot_eq {p v len : Nat} {y} (hs : Sub 0x6400000000000000000000000000000000000000000000000 μ) (he : τ.police p v len = (y, υ)) (hk : Foot μ σ τ) : Foot μ σ υ := by
  have := police_foot (p := p) (v := v) (len := len) hs hk
  rwa [he] at this

theorem shaperCharge_foot {p v len : Nat} (hs : Sub 0x2c00000000000000000000000000000000000000000000000 μ) (hk : Foot μ σ τ) : Foot μ σ (τ.shaperCharge p v len) := by
  unfold State.shaperCharge
  repeat' with_reducible (first
    | assumption | (intro _ _ _) | refine inc_foot (hs.bit (by decide)) ?_ | apply mark_foot | refine setTokens_foot (hs.sub (by decide)) ?_ | apply ite_foot
    | split | dsimp only)

theorem writeMirror_foot {m value : Nat} (hs : Sub 0x80000000000000000000000000008000000000000000000000000000000000000000000000000 μ) (hk : Foot μ σ τ) : Foot μ σ (τ.writeMirror m value) := by
  unfold State.writeMirror
  repeat' with_reducible (first
    | assumption | (intro _ _ _) | refine wrNext_foot (hs.bit (by decide)) ?_ | apply ite_foot | simp only [foot_mk] | apply Foot.parts
    | refine parts_shape (hs.bit (by decide)) (Foot.parts ?_) | split | dsimp only)

theorem setBank_foot {p b : Nat} (hs : Sub 0x8000000000000000000000000000000000000000000 μ) (hk : Foot μ σ τ) : Foot μ σ (τ.setBank p b) := by
  unfold State.setBank
  repeat' with_reducible (first
    | assumption | (intro _ _ _) | refine wr_foot (hs.bit (by decide)) ?_ | apply ite_foot | dsimp only)

theorem roundStartOp_foot (hs : Sub 0x40000000000000000000000000000080800000000000000000000000000000000000000000000 μ) (hk : Foot μ σ τ) : Foot μ σ (τ.roundStartOp) := by
  unfold State.roundStartOp
  repeat' with_reducible (first
    | assumption | (intro _ _ _) | refine inc_foot (hs.bit (by decide)) ?_ | refine incWrap_foot (hs.bit (by decide)) ?_ | refine wr_foot (hs.bit (by decide)) ?_ | apply ite_foot
    | simp only [foot_mk] | apply Foot.parts | refine parts_sched (hs.bit (by decide)) (Foot.parts ?_) | split | dsimp only)

theorem degradeSwitch_foot {changing : List Nat} (hs : Sub 0x48000000000000000000000000000021008000000000000000000000000000000400000000000 μ) (hk : Foot μ σ τ) : Foot μ σ (τ.degradeSwitch changing) := by
  unfold State.degradeSwitch
  repeat' with_reducible (first
    | assumption | (intro _ _ _) | refine exactLoss_foot (hs.sub (by decide)) (hs.bit (by decide)) ?_ | refine inc_foot (hs.bit (by decide)) ?_ | refine setBank_foot (hs.sub (by decide)) ?_ | refine triggerOther_foot (hs.sub (by decide)) ?_
    | refine wr_foot (hs.bit (by decide)) ?_ | apply each_foot' | apply ite_foot | simp only [foot_mk] | apply Foot.parts | refine parts_sched (hs.bit (by decide)) (Foot.parts ?_)
    | dsimp only)

theorem numbered_foot {p : Nat} {h : SwHeader} (hs : Sub 0x40000000000000000000000000000000000000000000000000000000000000000000000000000 μ) (hk : Foot μ σ τ) : Foot μ σ (τ.numbered p h).2 := by
  unfold State.numbered
  repeat' with_reducible (first
    | assumption | (intro _ _ _) | refine nextSeq_foot (hs.sub (by decide)) ?_ | refine nextSeq_foot_eq (hs.sub (by decide)) ‹_› ?_ | apply ite_foot | simp only [foot_mk]
    | apply Foot.parts | split | dsimp only)

theorem numbered_foot_eq {p : Nat} {h : SwHeader} {y} (hs : Sub 0x40000000000000000000000000000000000000000000000000000000000000000000000000000 μ) (he : τ.numbered p h = (y, υ)) (hk : Foot μ σ τ) : Foot μ σ υ := by
  have := numbered_foot (p := p) (h := h) hs hk
  rwa [he] at this

theorem sent_foot {p ptr : Nat} {own : Option SwHeader} (hs : Sub 0x40000000000000000000000000000000000000000000000000000000000000000000000000000 μ) (hk : Foot μ σ τ) :
    Foot μ σ (τ.sent p ptr own).2.2 := by
  unfold State.sent
  split
  · exact numbered_foot (hs.sub (by decide)) hk
  · exact hk

theorem sent_foot_eq {p ptr : Nat} {own : Option SwHeader} {y z} (hs : Sub 0x40000000000000000000000000000000000000000000000000000000000000000000000000000 μ) (he : τ.sent p ptr own = (y, z, υ))
    (hk : Foot μ σ τ) : Foot μ σ υ := by
  have := sent_foot (p := p) (ptr := ptr) (own := own) hs hk
  rwa [he] at this

theorem startFrame_foot {p : Nat} {sched : Bool} {vc : Nat} {item : Item} {header : SwHeader} {ptr account : Nat} {session : Option Nat} {origin : Origin} (hs : Sub 0x50000000000000000000000000000000000000000000000000000000000000000000000000000 μ) (hk : Foot μ σ τ) : Foot μ σ (τ.startFrame p sched vc item header ptr account session origin) := by
  unfold State.startFrame
  repeat' with_reducible (first
    | assumption | (intro _ _ _) | apply ite_foot | simp only [foot_mk] | apply Foot.parts | refine parts_sched (hs.bit (by decide)) (parts_link (hs.bit (by decide)) (Foot.parts ?_))
    | dsimp only)

theorem schedStart_foot {p : Nat} (hs : Sub 0x50000000000000000000000000000000090000040000000000000000000000000000000000000 μ) (hk : Foot μ σ τ) : Foot μ σ (τ.schedStart p) := by
  unfold State.schedStart
  repeat' with_reducible (first
    | assumption | (intro _ _ _) | refine countAccess_foot (hs.sub (by decide)) (hs.bit (by decide)) ?_ | refine inc_foot (hs.bit (by decide)) ?_ | refine sent_foot (hs.sub (by decide)) ?_ | refine sent_foot_eq (hs.sub (by decide)) ‹_› ?_
    | refine startFrame_foot (hs.sub (by decide)) ?_ | apply ite_foot | simp only [foot_mk] | apply Foot.parts | refine parts_sched (hs.bit (by decide)) (Foot.parts ?_) | split
    | dsimp only)

theorem setEntry_foot {p : Nat} {e e' : OppEntry} (hs : Sub 0x40000000000000000000000000000000000000000000000000000000000000000000000000000 μ) (hk : Foot μ σ τ) : Foot μ σ (τ.setEntry p e e') := by
  unfold State.setEntry
  repeat' with_reducible (first
    | assumption | (intro _ _ _) | apply ite_foot | simp only [foot_mk] | apply Foot.parts | refine parts_sched (hs.bit (by decide)) (Foot.parts ?_)
    | split | dsimp only)

theorem oppHolds_foot {p v : Nat} {first : Bool} (hs : Sub 0x40000000000000000000000000000800010000000000000000000000000000000000000000000 μ) (hk : Foot μ σ τ) : Foot μ σ (τ.oppHolds p v first) := by
  unfold State.oppHolds
  repeat' with_reducible (first
    | assumption | (intro _ _ _) | refine inc_foot (hs.bit (by decide)) ?_ | apply mark_foot | refine setEntry_foot (hs.sub (by decide)) ?_ | apply ite_foot
    | simp only [foot_mk] | apply Foot.parts | split | dsimp only)

theorem oppStartVc_foot {p v : Nat} (hs : Sub 0x50000000000000000000000000002c01080000000000000000000000000100000000000000000 μ) (hk : Foot μ σ τ) : Foot μ σ (τ.oppStartVc p v) := by
  unfold State.oppStartVc
  repeat' with_reducible (first
    | assumption | (intro _ _ _) | refine exactLoss_foot (hs.sub (by decide)) (hs.bit (by decide)) ?_ | refine inc_foot (hs.bit (by decide)) ?_ | refine sent_foot (hs.sub (by decide)) ?_ | refine sent_foot_eq (hs.sub (by decide)) ‹_› ?_
    | refine shaperCharge_foot (hs.sub (by decide)) ?_ | refine startFrame_foot (hs.sub (by decide)) ?_ | refine wr_foot (hs.bit (by decide)) ?_ | apply ite_foot | simp only [foot_mk] | apply Foot.parts
    | refine parts_sched (hs.bit (by decide)) (Foot.parts ?_) | split | dsimp only)

theorem oppStart_foot {p : Nat} (hs : Sub 0x50000000000000000000000000002c01090000000000000000000000000100000000000000000 μ) (hk : Foot μ σ τ) : Foot μ σ (τ.oppStart p) := by
  unfold State.oppStart
  repeat' with_reducible (first
    | assumption | (intro _ _ _) | refine oppHolds_foot (hs.sub (by decide)) ?_ | refine oppStartVc_foot (hs.sub (by decide)) ?_ | apply each_foot' | apply ite_foot
    | simp only [foot_mk] | apply Foot.parts | split | dsimp only)

theorem unnumber_foot {p : Nat} {x : Sending} (hs : Sub 0x40000000000000000000000000000000000000000000000000000000000000000000000000000 μ) (hk : Foot μ σ τ) : Foot μ σ (τ.unnumber p x) := by
  unfold State.unnumber
  repeat' with_reducible (first
    | assumption | (intro _ _ _) | apply each_foot' | apply ite_foot | simp only [foot_mk] | apply Foot.parts
    | refine parts_sched (hs.bit (by decide)) (Foot.parts ?_) | split | dsimp only)

theorem unstart_foot {p : Nat} {x : Sending} (hs : Sub 0x50000000000000000000000000000000080000000000000000000000000000000000000000000 μ) (hk : Foot μ σ τ) : Foot μ σ (τ.unstart p x) := by
  unfold State.unstart
  repeat' with_reducible (first
    | assumption | (intro _ _ _) | refine uncount_foot (hs.bit (by decide)) ?_ | refine unnumber_foot (hs.sub (by decide)) ?_ | apply ite_foot | simp only [foot_mk]
    | apply Foot.parts | refine parts_sched (hs.bit (by decide)) (parts_link (hs.bit (by decide)) (Foot.parts ?_)) | split | dsimp only)

theorem unqueue_foot {p : Nat} {x : Sending} (hs : Sub 0x50000000000000000000000000000000080000040000000000000000000000000000000000000 μ) (hk : Foot μ σ τ) : Foot μ σ (τ.unqueue p x) := by
  unfold State.unqueue
  repeat' with_reducible (first
    | assumption | (intro _ _ _) | refine uncount_foot (hs.bit (by decide)) ?_ | refine unstart_foot (hs.sub (by decide)) ?_ | apply each_foot' | apply ite_foot
    | simp only [foot_mk] | apply Foot.parts | refine parts_sched (hs.bit (by decide)) (Foot.parts ?_) | split | dsimp only)

theorem cancelStart_foot {p : Nat} (hs : Sub 0x50000000000000000000000000002c01090000040000000000000000000100000000000000000 μ) (hk : Foot μ σ τ) : Foot μ σ (τ.cancelStart p) := by
  unfold State.cancelStart
  repeat' with_reducible (first
    | assumption | (intro _ _ _) | apply mark_foot | refine schedStart_foot (hs.sub (by decide)) ?_ | refine setTokens_foot (hs.sub (by decide)) ?_ | refine uncount_foot (hs.bit (by decide)) ?_
    | refine unqueue_foot (hs.sub (by decide)) ?_ | refine unstart_foot (hs.sub (by decide)) ?_ | refine wr_foot (hs.bit (by decide)) ?_ | apply each_foot' | apply ite_foot | simp only [foot_mk]
    | apply Foot.parts | refine parts_sched (hs.bit (by decide)) (Foot.parts ?_) | split | dsimp only)

theorem cancelXoff_foot {p mask : Nat} (hs : Sub 0x50000000000000000000000000002c01090000040000000000000000000100000000000000000 μ) (hk : Foot μ σ τ) : Foot μ σ (τ.cancelXoff p mask) := by
  unfold State.cancelXoff
  repeat' with_reducible (first
    | assumption | (intro _ _ _) | refine cancelStart_foot (hs.sub (by decide)) ?_ | apply ite_foot | simp only [foot_mk] | apply Foot.parts
    | split | dsimp only)

theorem departOp_foot {p : Nat} (hs : Sub 0x16600000000000000000000000005000000007a600000000000000000000000000000000000000 μ) (hk : Foot μ σ τ) : Foot μ σ (τ.departOp p) := by
  unfold State.departOp
  repeat' with_reducible (first
    | assumption | (intro _ _ _) | refine decRef_foot (hs.sub (by decide)) ?_ | apply emit_foot | refine inc_foot (hs.bit (by decide)) ?_ | refine noteObject_foot (hs.sub (by decide)) ?_
    | refine noteOutput_foot (hs.sub (by decide)) ?_ | refine wr_foot (hs.bit (by decide)) ?_ | apply ite_foot | simp only [foot_mk] | apply Foot.parts | refine parts_sched (hs.bit (by decide)) (Foot.parts ?_)
    | split | dsimp only)

theorem insUncorr_foot {cell : Nat} (hs : Sub 0x6000000000000000000000000000001000000030000000000000000000000000000000000000 μ) (hk : Foot μ σ τ) : Foot μ σ (τ.insUncorr cell) := by
  unfold State.insUncorr
  repeat' with_reducible (first
    | assumption | (intro _ _ _) | refine exactLoss_foot (hs.sub (by decide)) (hs.bit (by decide)) ?_ | refine inc_foot (hs.bit (by decide)) ?_ | refine raise_foot (hs.sub (by decide)) ?_ | refine wr_foot (hs.bit (by decide)) ?_
    | apply ite_foot | dsimp only)

theorem loseEntry_foot {e : OppEntry} {p : Nat} (hs : Sub 0x16600000000000000000000000004000000007a600000000000000000000000000000000000000 μ) (hk : Foot μ σ τ) : Foot μ σ (τ.loseEntry e p) := by
  unfold State.loseEntry
  repeat' with_reducible (first
    | assumption | (intro _ _ _) | refine decRef_foot (hs.sub (by decide)) ?_ | refine noteEntry_foot (hs.sub (by decide)) ?_ | refine wr_foot (hs.bit (by decide)) ?_ | apply ite_foot
    | simp only [foot_mk] | apply Foot.parts | split | dsimp only)

theorem applyMatch_foot {w : MatchWork} {first : Bool} {r : MatchReq} (hs : Sub 0x40000000000000000000000000000040000000000000000000000000000000000000000000000 μ) (hk : Foot μ σ w.state) :
    Foot μ σ (applyMatch w first r).state :=
  inc_foot (hs.bit (by decide)) (foot_mk.mpr (parts_sched (hs.bit (by decide)) hk.parts))

theorem matchIteration_foot {w : MatchWork} {first : Bool} (hs : Sub 0x40000000000000000000000000000040000000000000000000000000000000000000000000000 μ) (hk : Foot μ σ w.state) :
    Foot μ σ (matchIteration w first).state := by
  rw [matchIteration]
  generalize List.range 256 = l
  generalize List.range 8 = l'
  split
  next w' grants hf =>
    have hw : Foot μ σ (w', grants).1.state := by
      rw [← hf]
      refine foldl_foot (fun (acc : MatchWork × List MatchReq) => acc.1.state) hk (fun c a hc => ?_)
      beta_reduce
      split
      · exact hc
      · exact hc
    exact foldl_foot MatchWork.state hw (fun c d hc =>
      foldl_foot MatchWork.state hc (fun x g hx => applyMatch_foot (hs.sub (by decide)) hx))

theorem matchRound_foot (hs : Sub 0x40000000000000000000000000000040000000000000000000000000000000000000000000000 μ) (hk : Foot μ σ τ) : Foot μ σ (τ.matchRound) := by
  unfold State.matchRound
  repeat' with_reducible (first
    | assumption | (intro _ _ _) | refine inc_foot (hs.bit (by decide)) ?_ | refine matchIteration_foot (hs.sub (by decide)) ?_ | apply foldl_foot_fst | apply foldl_foot_snd
    | refine foldl_foot_fst_eq ‹_› ?_ ?_ | refine foldl_foot_snd_eq ‹_› ?_ ?_ | apply ite_foot | dsimp only)

theorem oppRead_foot {p : Nat} {bad : Option Nat} (hs : Sub 0x16600000000000000000000000004000100007a6b0000000000000000000000000000000000000 μ) (hk : Foot μ σ τ) : Foot μ σ (τ.oppRead p bad) := by
  unfold State.oppRead
  repeat' with_reducible (first
    | assumption | (intro _ _ _) | refine countAccess_foot (hs.sub (by decide)) (hs.bit (by decide)) ?_ | refine insUncorr_foot (hs.sub (by decide)) ?_ | refine loseEntry_foot (hs.sub (by decide)) ?_ | refine setEntry_foot (hs.sub (by decide)) ?_
    | apply each_foot' | apply ite_foot | simp only [foot_mk] | apply Foot.parts | refine parts_sched (hs.bit (by decide)) (Foot.parts ?_) | split
    | dsimp only)

theorem undoEnqueues_foot {b : Nat} (hs : Sub 0x16600000000000000000000000000000000147a600000000000000000000000000000000000000 μ) (hk : Foot μ σ τ) : Foot μ σ (τ.undoEnqueues b) := by
  unfold State.undoEnqueues
  repeat' with_reducible (first
    | assumption | (intro _ _ _) | refine decRef_foot (hs.sub (by decide)) ?_ | refine dropEntry_foot (hs.sub (by decide)) ?_ | refine inc_foot (hs.bit (by decide)) ?_ | refine noteOutput_foot (hs.sub (by decide)) ?_
    | refine uncount_foot (hs.bit (by decide)) ?_ | apply each_foot' | apply ite_foot | simp only [foot_mk] | apply Foot.parts | refine parts_sched (hs.bit (by decide)) (Foot.parts ?_)
    | split | dsimp only)

theorem fenceUp_foot {p : Nat} (hs : Sub 0x176000000000000000000000000002c0109147a640000000000000000000100000000000000000 μ) (hk : Foot μ σ τ) : Foot μ σ (τ.fenceUp p) := by
  unfold State.fenceUp
  repeat' with_reducible (first
    | assumption | (intro _ _ _) | refine askDegraded_foot (hs.sub (by decide)) ?_ | refine cancelStart_foot (hs.sub (by decide)) ?_ | refine undoEnqueues_foot (hs.sub (by decide)) ?_ | apply ite_foot
    | simp only [foot_mk] | apply Foot.parts | refine parts_sched (hs.bit (by decide)) (Foot.parts ?_) | split | dsimp only)

theorem fenceDown_foot {p : Nat} (hs : Sub 0x40000000000000000000000000000000000000000000000000000000000000000000000000000 μ) (hk : Foot μ σ τ) : Foot μ σ (τ.fenceDown p) := by
  unfold State.fenceDown
  repeat' with_reducible (first
    | assumption | (intro _ _ _) | apply mark_foot | apply ite_foot | simp only [foot_mk] | apply Foot.parts
    | refine parts_sched (hs.bit (by decide)) (Foot.parts ?_) | dsimp only)

theorem fenceCount_foot (hs : Sub 0x1000800000000000000000000000000000000000000000 μ) (hk : Foot μ σ τ) : Foot μ σ (τ.fenceCount) := by
  unfold State.fenceCount
  repeat' with_reducible (first
    | assumption | (intro _ _ _) | refine exactLossNoted_foot (hs.sub (by decide)) (hs.bit (by decide)) ?_ | refine exactUndo_foot (hs.sub (by decide)) (hs.bit (by decide)) ?_ | refine inc_foot (hs.bit (by decide)) ?_ | apply mark_foot
    | apply noteWas_foot | refine restoreWas_foot (hs.bit (by decide)) ?_ | apply ite_foot | simp only [foot_mk] | apply Foot.parts | split
    | dsimp only)

theorem setFences_foot {f : Nat → Bool} (hs : Sub 0x176000000000000000000000000002c01091d7a640000000000000044000100000000000000000 μ) (hk : Foot μ σ τ) : Foot μ σ (τ.setFences f) := by
  unfold State.setFences
  repeat' with_reducible (first
    | assumption | (intro _ _ _) | refine fenceCount_foot (hs.sub (by decide)) ?_ | refine fenceDown_foot (hs.sub (by decide)) ?_ | refine fenceUp_foot (hs.sub (by decide)) ?_ | apply noteWas_foot
    | refine syncFailing_foot (hs.sub (by decide)) ?_ | refine syncFenced_foot (hs.sub (by decide)) ?_ | refine wr_foot (hs.bit (by decide)) ?_ | apply each_foot' | apply foldl_foot_fst | apply foldl_foot_snd
    | refine foldl_foot_fst_eq ‹_› ?_ ?_ | refine foldl_foot_snd_eq ‹_› ?_ ?_ | apply ite_foot | split | dsimp only)

theorem hwFence_foot {p : Nat} (hs : Sub 0x176000000000000000000000000002c01091d7a640000000000000044000100000000000000000 μ) (hk : Foot μ σ τ) : Foot μ σ (τ.hwFence p) := by
  unfold State.hwFence
  repeat' with_reducible (first
    | assumption | (intro _ _ _) | apply mark_foot | refine setFences_foot (hs.sub (by decide)) ?_ | apply ite_foot | dsimp only)

theorem swFence_foot {i v : Nat} (hs : Sub 0x176000000000000000000000000002c01091d7a640000000000000044000100000000000000000 μ) (hk : Foot μ σ τ) : Foot μ σ (τ.swFence i v) := by
  unfold State.swFence
  repeat' with_reducible (first
    | assumption | (intro _ _ _) | refine setFences_foot (hs.sub (by decide)) ?_ | apply ite_foot | split | dsimp only)

theorem unfence_foot {ps : List Nat} (hs : Sub 0x176000000000000000000000000002c01091d7a640000000000000044000100000000000000000 μ) (hk : Foot μ σ τ) : Foot μ σ (τ.unfence ps) := by
  unfold State.unfence
  repeat' with_reducible (first
    | assumption | (intro _ _ _) | refine setFences_foot (hs.sub (by decide)) ?_ | apply ite_foot | dsimp only)

theorem dropUndecl_foot {port x : Nat} (hs : Sub 0x3000000000000000000000000000 μ) (hk : Foot μ σ τ) : Foot μ σ (τ.dropUndecl port x) := by
  unfold State.dropUndecl
  repeat' with_reducible (first
    | assumption | (intro _ _ _) | refine inc_foot (hs.bit (by decide)) ?_ | refine wr_foot (hs.bit (by decide)) ?_ | apply ite_foot | dsimp only)

theorem setPort_foot {p : Nat} {f : Port → Port} (hs : Sub 0x10000000000000000000000000000000000000000000000000000000000000000000000000000 μ) (hk : Foot μ σ τ) : Foot μ σ (τ.setPort p f) := by
  unfold State.setPort
  repeat' with_reducible (first
    | assumption | (intro _ _ _) | apply ite_foot | simp only [foot_mk] | apply Foot.parts | refine parts_link (hs.bit (by decide)) (Foot.parts ?_)
    | dsimp only)

theorem syncFifo_foot {p : Nat} (hs : Sub 0x800000000000000 μ) (hk : Foot μ σ τ) : Foot μ σ (τ.syncFifo p) := by
  unfold State.syncFifo
  repeat' with_reducible (first
    | assumption | (intro _ _ _) | refine wr_foot (hs.bit (by decide)) ?_ | apply ite_foot | dsimp only)

theorem syncXoff_foot {p : Nat} (hs : Sub 0x10000000000000000000000000000000000000000000000000000000000000800000000000000 μ) (hk : Foot μ σ τ) : Foot μ σ (τ.syncXoff p) := by
  unfold State.syncXoff
  repeat' with_reducible (first
    | assumption | (intro _ _ _) | refine setPort_foot (hs.sub (by decide)) ?_ | refine wr_foot (hs.bit (by decide)) ?_ | apply foldl_foot_fst | apply foldl_foot_snd
    | refine foldl_foot_fst_eq ‹_› ?_ ?_ | refine foldl_foot_snd_eq ‹_› ?_ ?_ | apply ite_foot | simp only [foot_mk] | apply Foot.parts | split
    | dsimp only)

theorem fifoAdd_foot {p v len : Nat} (hs : Sub 0x10000000000000000000000000000000000000000000000000000000000000800000000000000 μ) (hk : Foot μ σ τ) : Foot μ σ (τ.fifoAdd p v len) := by
  unfold State.fifoAdd
  repeat' with_reducible (first
    | assumption | (intro _ _ _) | refine setPort_foot (hs.sub (by decide)) ?_ | refine syncFifo_foot (hs.sub (by decide)) ?_ | apply ite_foot | simp only [foot_mk]
    | apply Foot.parts | dsimp only)

theorem returnCredits_foot {p v len : Nat} (hs : Sub 0x10000000000000000000000000000000000000000000000000000000000100000000000000000 μ) (hk : Foot μ σ τ) : Foot μ σ (τ.returnCredits p v len) := by
  unfold State.returnCredits
  repeat' with_reducible (first
    | assumption | (intro _ _ _) | refine setPort_foot (hs.sub (by decide)) ?_ | refine wr_foot (hs.bit (by decide)) ?_ | apply ite_foot | simp only [foot_mk]
    | apply Foot.parts | split | dsimp only)

theorem fifoRemove_foot {p v len : Nat} (hs : Sub 0x10000000000000000000000000000000000000000000000000000000000100800000000000000 μ) (hk : Foot μ σ τ) : Foot μ σ (τ.fifoRemove p v len) := by
  unfold State.fifoRemove
  repeat' with_reducible (first
    | assumption | (intro _ _ _) | refine returnCredits_foot (hs.sub (by decide)) ?_ | refine setPort_foot (hs.sub (by decide)) ?_ | refine syncFifo_foot (hs.sub (by decide)) ?_ | apply ite_foot
    | simp only [foot_mk] | apply Foot.parts | dsimp only)

theorem release_foot {p : Nat} {item : Item} {vc : Option Nat} {off : Bool} (hs : Sub 0x20000000000000000000000000000000000000000000000000000000000000000000000000000 μ) (hk : Foot μ σ τ) : Foot μ σ (τ.release p item vc off) := by
  unfold State.release
  repeat' with_reducible (first
    | assumption | (intro _ _ _) | refine request_foot (hs.sub (by decide)) ?_ | apply ite_foot | dsimp only)

theorem landOp_foot {p : Nat} (hs : Sub 0x60000000000000000000000000000001040000000000000000000000000000000000000000000 μ) (hk : Foot μ σ τ) : Foot μ σ (τ.landOp p) := by
  unfold State.landOp
  repeat' with_reducible (first
    | assumption | (intro _ _ _) | refine exactLoss_foot (hs.sub (by decide)) (hs.bit (by decide)) ?_ | refine inc_foot (hs.bit (by decide)) ?_ | refine release_foot (hs.sub (by decide)) ?_ | apply ite_foot
    | simp only [foot_mk] | apply Foot.parts | refine parts_sched (hs.bit (by decide)) (Foot.parts ?_) | split | dsimp only)

theorem reseqPut_foot {d : Nat} {a : Arrived} (hs : Sub 0x40000000000000000000000000000000000000000000000000000000000000000000000000000 μ) (hk : Foot μ σ τ) : Foot μ σ (τ.reseqPut d a) := by
  unfold State.reseqPut
  repeat' with_reducible (first
    | assumption | (intro _ _ _) | apply ite_foot | simp only [foot_mk] | apply Foot.parts | refine parts_sched (hs.bit (by decide)) (Foot.parts ?_)
    | dsimp only)

theorem arrived_foot {port ptr account : Nat} {vc : Option Nat} {tier : Bool} {item : Item} (hs : Sub 0x6600000000000000000000000000000000007a6c0000000000000000000000000000000000000 μ) (hk : Foot μ σ τ) : Foot μ σ (τ.arrived port ptr account vc tier item) := by
  unfold State.arrived
  repeat' with_reducible (first
    | assumption | (intro _ _ _) | refine countAccess_foot (hs.sub (by decide)) (hs.bit (by decide)) ?_ | refine freeObj_foot (hs.sub (by decide)) ?_ | refine reseqPut_foot (hs.sub (by decide)) ?_ | apply ite_foot
    | simp only [foot_mk] | apply Foot.parts | refine parts_sched (hs.bit (by decide)) (Foot.parts ?_) | split | dsimp only)

theorem allocServe_foot {k : Nat} (hs : Sub 0x1f60000000000000000000000000700000006fa6c0000000000000000000100800000000000000 μ) (hk : Foot μ σ τ) : Foot μ σ (τ.allocServe k) := by
  unfold State.allocServe
  repeat' with_reducible (first
    | assumption | (intro _ _ _) | refine addRefs_foot (hs.sub (by decide)) ?_ | refine alloc_foot (hs.sub (by decide)) ?_ | refine alloc_foot_eq (hs.sub (by decide)) ‹_› ?_ | refine arrived_foot (hs.sub (by decide)) ?_
    | refine countWrite_foot (hs.sub (by decide)) ?_ | refine dropObj_foot (hs.sub (by decide)) ?_ | apply emit_foot | refine fifoRemove_foot (hs.sub (by decide)) ?_ | refine forward_foot (hs.sub (by decide)) ?_ | refine mirrorAll_foot (hs.sub (by decide)) ?_
    | refine multicast_foot (hs.sub (by decide)) ?_ | refine output_foot (hs.sub (by decide)) ?_ | refine pushVoq_foot (hs.sub (by decide)) ?_ | apply ite_foot | simp only [foot_mk] | apply Foot.parts
    | refine parts_sched (hs.bit (by decide)) (parts_bpm (hs.bit (by decide)) (Foot.parts ?_)) | split | dsimp only)

theorem allocExpire_foot {k : Nat} (hs : Sub 0x36000000000000000000000000000000000098000000000000000000000100800000000000000 μ) (hk : Foot μ σ τ) : Foot μ σ (τ.allocExpire k) := by
  unfold State.allocExpire
  repeat' with_reducible (first
    | assumption | (intro _ _ _) | refine bpmDrop_foot (hs.sub (by decide)) ?_ | refine fifoRemove_foot (hs.sub (by decide)) ?_ | refine inc_foot (hs.bit (by decide)) ?_ | refine latch_foot (hs.bit (by decide)) ?_
    | refine raise_foot (hs.sub (by decide)) ?_ | apply ite_foot | simp only [foot_mk] | apply Foot.parts | refine parts_bpm (hs.bit (by decide)) (Foot.parts ?_) | split
    | dsimp only)

theorem handoff_foot (hs : Sub 0x40000000000000000000000000000000000000000000000000000000000000000000000000000 μ) (hk : Foot μ σ τ) : Foot μ σ (τ.handoff) := by
  unfold State.handoff
  repeat' with_reducible (first
    | assumption | (intro _ _ _) | refine reseqPut_foot (hs.sub (by decide)) ?_ | apply ite_foot | simp only [foot_mk] | apply Foot.parts
    | refine parts_sched (hs.bit (by decide)) (Foot.parts ?_) | split | dsimp only)

theorem syncReseq_foot {d : Nat} (hs : Sub 0x100000000000000000000000000000000000000000000000 μ) (hk : Foot μ σ τ) : Foot μ σ (τ.syncReseq d) := by
  unfold State.syncReseq
  repeat' with_reducible (first
    | assumption | (intro _ _ _) | refine wr_foot (hs.bit (by decide)) ?_ | apply foldl_foot_fst | apply foldl_foot_snd | refine foldl_foot_fst_eq ‹_› ?_ ?_
    | refine foldl_foot_snd_eq ‹_› ?_ ?_ | apply ite_foot | dsimp only)

theorem releaseSwatch_foot {a : Arrived} (hs : Sub 0x40000000000000000000000000000000000000000000000000000000000000000000000000000 μ) (hk : Foot μ σ τ) : Foot μ σ (τ.releaseSwatch a) := by
  unfold State.releaseSwatch
  repeat' with_reducible (first
    | assumption | (intro _ _ _) | apply ite_foot | simp only [foot_mk] | apply Foot.parts | refine parts_sched (hs.bit (by decide)) (Foot.parts ?_)
    | dsimp only)

theorem dropArrived_foot {a : Arrived} (hs : Sub 0x2600000000000000000000000000000000007a600000000000000000000000000000000000000 μ) (hk : Foot μ σ τ) : Foot μ σ (τ.dropArrived a) := by
  unfold State.dropArrived
  repeat' with_reducible (first
    | assumption | (intro _ _ _) | refine dropObj_foot (hs.sub (by decide)) ?_ | apply ite_foot | dsimp only)

theorem dropDesc_foot {b : ArrivedDesc} (hs : Sub 0x2600000000000000000000000000000000007a600000000000000000000000000000000000000 μ) (hk : Foot μ σ τ) : Foot μ σ (τ.dropDesc b) := by
  unfold State.dropDesc
  repeat' with_reducible (first
    | assumption | (intro _ _ _) | refine dropObj_foot (hs.sub (by decide)) ?_ | apply ite_foot | dsimp only)

theorem setStreams_foot {d : Nat} {l : List Stream} (hs : Sub 0x40000000000000000000000000000100000000000000000000000000000000000000000000000 μ) (hk : Foot μ σ τ) : Foot μ σ (τ.setStreams d l) := by
  unfold State.setStreams
  repeat' with_reducible (first
    | assumption | (intro _ _ _) | refine syncReseq_foot (hs.sub (by decide)) ?_ | apply ite_foot | simp only [foot_mk] | apply Foot.parts
    | refine parts_sched (hs.bit (by decide)) (Foot.parts ?_) | dsimp only)

theorem resequence_foot {d : Nat} (hs : Sub 0x6600000000000000000000000000010100007a600000000003100000000000000000000000000 μ) (hk : Foot μ σ τ) : Foot μ σ (τ.resequence d) := by
  unfold State.resequence
  repeat' with_reducible (first
    | assumption | (intro _ _ _) | refine dropArrived_foot (hs.sub (by decide)) ?_ | refine dropUndecl_foot (hs.sub (by decide)) ?_ | refine exactLoss_foot (hs.sub (by decide)) (hs.bit (by decide)) ?_ | refine inc_foot (hs.bit (by decide)) ?_
    | refine raise_foot (hs.sub (by decide)) ?_ | refine releaseSwatch_foot (hs.sub (by decide)) ?_ | refine setStreams_foot (hs.sub (by decide)) ?_ | apply ite_foot | simp only [foot_mk] | apply Foot.parts
    | refine parts_sched (hs.bit (by decide)) (Foot.parts ?_) | split | dsimp only)

theorem releaseHeld_foot {d : Nat} (hs : Sub 0x40000000000000000000000000000100000000000000000000000000000000000000000000000 μ) (hk : Foot μ σ τ) : Foot μ σ (τ.releaseHeld d) := by
  unfold State.releaseHeld
  repeat' with_reducible (first
    | assumption | (intro _ _ _) | refine releaseSwatch_foot (hs.sub (by decide)) ?_ | refine setStreams_foot (hs.sub (by decide)) ?_ | apply ite_foot | simp only [foot_mk]
    | apply Foot.parts | split | dsimp only)

theorem freeStreams_foot {x opnum : Nat} (hs : Sub 0x6600000000000000000000000000010000007a600000000000000000000000000000000000000 μ) (hk : Foot μ σ τ) : Foot μ σ (τ.freeStreams x opnum) := by
  unfold State.freeStreams
  repeat' with_reducible (first
    | assumption | (intro _ _ _) | refine dropArrived_foot (hs.sub (by decide)) ?_ | refine setStreams_foot (hs.sub (by decide)) ?_ | apply each_foot' | apply ite_foot
    | split | dsimp only)

theorem freeAllStreams_foot (hs : Sub 0x6600000000000000000000000000010000007a600000000000000000000000000000000000000 μ) (hk : Foot μ σ τ) : Foot μ σ (τ.freeAllStreams) := by
  unfold State.freeAllStreams
  repeat' with_reducible (first
    | assumption | (intro _ _ _) | refine dropArrived_foot (hs.sub (by decide)) ?_ | refine setStreams_foot (hs.sub (by decide)) ?_ | apply each_foot' | apply ite_foot
    | dsimp only)

end Sys2Proof.Machine
end

