-- ==== Sys2Proof/Laws/FootLink.lean ====
section
/-!
SUPPORT. Which registers and parts of the state the operations of Link may change (`Foot`).
-/

namespace Sys2Proof.Machine

set_option Elab.async false
set_option linter.unusedTactic false
set_option linter.unreachableTactic false
set_option linter.unusedSimpArgs false
set_option linter.unusedVariables false

variable {μ : Nat} {σ τ υ : State}

theorem setLane_foot {p k : Nat} {l : Lane} (hs : Sub 0x10000000000000000000000000000000000000000000000000000000000000000000000000000 μ) (hk : Foot μ σ τ) : Foot μ σ (τ.setLane p k l) := by
  unfold State.setLane
  repeat' with_reducible (first
    | assumption | (intro _ _ _) | apply ite_foot | simp only [foot_mk] | apply Foot.parts | refine parts_link (hs.bit (by decide)) (Foot.parts ?_)
    | dsimp only)

theorem syncLock_foot {p : Nat} (hs : Sub 0x100000000000000 μ) (hk : Foot μ σ τ) : Foot μ σ (τ.syncLock p) := by
  unfold State.syncLock
  repeat' with_reducible (first
    | assumption | (intro _ _ _) | refine wr_foot (hs.bit (by decide)) ?_ | apply foldl_foot_fst | apply foldl_foot_snd | refine foldl_foot_fst_eq ‹_› ?_ ?_
    | refine foldl_foot_snd_eq ‹_› ?_ ?_ | apply ite_foot | split | dsimp only)

theorem huntAll_foot {p : Nat} (hs : Sub 0x10000000000000000000000000000000000000000000000000000000000000100000000000000 μ) (hk : Foot μ σ τ) : Foot μ σ (τ.huntAll p) := by
  unfold State.huntAll
  repeat' with_reducible (first
    | assumption | (intro _ _ _) | refine setLane_foot (hs.sub (by decide)) ?_ | refine syncLock_foot (hs.sub (by decide)) ?_ | apply each_foot' | apply ite_foot
    | dsimp only)

theorem syncLink_foot {p : Nat} (hs : Sub 0x10000000000000000000000000000000000000000000000000000000000000100000000000000 μ) (hk : Foot μ σ τ) : Foot μ σ (τ.syncLink p) := by
  unfold State.syncLink
  repeat' with_reducible (first
    | assumption | (intro _ _ _) | refine huntAll_foot (hs.sub (by decide)) ?_ | refine wr_foot (hs.bit (by decide)) ?_ | apply ite_foot | split
    | dsimp only)

theorem syncDiscSum_foot (hs : Sub 0x200000000000000000000 μ) (hk : Foot μ σ τ) : Foot μ σ (τ.syncDiscSum) := by
  unfold State.syncDiscSum
  repeat' with_reducible (first
    | assumption | (intro _ _ _) | refine wr_foot (hs.bit (by decide)) ?_ | apply ite_foot | dsimp only)

theorem syncPresent_foot (hs : Sub 0x40000000000000000000000000000000000000000000000000000040000000000000000000000 μ) (hk : Foot μ σ τ) : Foot μ σ (τ.syncPresent) := by
  unfold State.syncPresent
  repeat' with_reducible (first
    | assumption | (intro _ _ _) | refine syncFailing_foot (hs.sub (by decide)) ?_ | refine wr_foot (hs.bit (by decide)) ?_ | apply each_foot' | apply ite_foot
    | dsimp only)

theorem syncReplace_foot (hs : Sub 0x1000000000000000000000000000000000000000000000000000000000000000 μ) (hk : Foot μ σ τ) : Foot μ σ (τ.syncReplace) := by
  unfold State.syncReplace
  repeat' with_reducible (first
    | assumption | (intro _ _ _) | refine wr_foot (hs.bit (by decide)) ?_ | apply each_foot' | apply ite_foot | simp only [foot_mk]
    | apply Foot.parts | split | dsimp only)

theorem setOutcome_foot {p o : Nat} (hs : Sub 0x48000000000001000000000000000000000000000000000000000040a00000200400000000000 μ) (hk : Foot μ σ τ) : Foot μ σ (τ.setOutcome p o) := by
  unfold State.setOutcome
  repeat' with_reducible (first
    | assumption | (intro _ _ _) | refine inc_foot (hs.bit (by decide)) ?_ | refine syncDiscSum_foot (hs.sub (by decide)) ?_ | refine syncPresent_foot (hs.sub (by decide)) ?_ | refine syncReplace_foot (hs.sub (by decide)) ?_
    | refine trigger_foot (hs.sub (by decide)) ?_ | refine wr_foot (hs.bit (by decide)) ?_ | apply ite_foot | split | dsimp only)

theorem portDown_foot {p : Nat} (hs : Sub 0x17e000000000001000000000000002c01091d7a640000000000000044a00100b00400000000000 μ) (hk : Foot μ σ τ) : Foot μ σ (τ.portDown p) := by
  unfold State.portDown
  repeat' with_reducible (first
    | assumption | (intro _ _ _) | refine hwFence_foot (hs.sub (by decide)) ?_ | refine inc_foot (hs.bit (by decide)) ?_ | refine raise_foot (hs.sub (by decide)) ?_ | refine setOutcome_foot (hs.sub (by decide)) ?_
    | refine setPort_foot (hs.sub (by decide)) ?_ | refine syncDiscSum_foot (hs.sub (by decide)) ?_ | refine syncLink_foot (hs.sub (by decide)) ?_ | refine wr_foot (hs.bit (by decide)) ?_ | apply ite_foot | simp only [foot_mk]
    | apply Foot.parts | refine parts_sched (hs.bit (by decide)) (Foot.parts ?_) | split | dsimp only)

theorem leaveUp_foot {p : Nat} (hs : Sub 0x17e000000000001000000000000002c01091d7a640000000000000044a00100b00400000000000 μ) (hk : Foot μ σ τ) : Foot μ σ (τ.leaveUp p) := by
  unfold State.leaveUp
  repeat' with_reducible (first
    | assumption | (intro _ _ _) | refine portDown_foot (hs.sub (by decide)) ?_ | apply ite_foot | simp only [foot_mk] | apply Foot.parts
    | refine parts_link (hs.bit (by decide)) (Foot.parts ?_) | split | dsimp only)

theorem leaveUps_foot (hs : Sub 0x17e000000000001000000000000002c01091d7a640000000000000044a00100b00400000000000 μ) (hk : Foot μ σ τ) : Foot μ σ (τ.leaveUps) := by
  unfold State.leaveUps
  repeat' with_reducible (first
    | assumption | (intro _ _ _) | refine leaveUp_foot (hs.sub (by decide)) ?_ | apply each_foot' | apply ite_foot | simp only [foot_mk]
    | apply Foot.parts | refine parts_link (hs.bit (by decide)) (Foot.parts ?_) | dsimp only)

theorem commaBlock_foot {p k : Nat} {found : Option Nat} (hs : Sub 0x7600000000000000000000000000000000007a6c0000000000000000000000100000000000000 μ) (hk : Foot μ σ τ) : Foot μ σ (τ.commaBlock p k found) := by
  unfold State.commaBlock
  repeat' with_reducible (first
    | assumption | (intro _ _ _) | refine setLane_foot (hs.sub (by decide)) ?_ | refine syncLink_foot (hs.sub (by decide)) ?_ | refine syncLock_foot (hs.sub (by decide)) ?_ | apply ite_foot
    | simp only [foot_mk] | apply Foot.parts | split | dsimp only)

theorem lossOfSignal_foot {p k : Nat} (hs : Sub 0x10000000000000000000000000000000000000000000000000000000000000100000000000000 μ) (hk : Foot μ σ τ) : Foot μ σ (τ.lossOfSignal p k) := by
  unfold State.lossOfSignal
  repeat' with_reducible (first
    | assumption | (intro _ _ _) | refine setLane_foot (hs.sub (by decide)) ?_ | refine syncLink_foot (hs.sub (by decide)) ?_ | refine syncLock_foot (hs.sub (by decide)) ?_ | apply ite_foot
    | simp only [foot_mk] | apply Foot.parts | dsimp only)

theorem takePayload_foot {p k payload : Nat} {uncorr : Bool} (hs : Sub 0x10000000000000000000000000000000000000000000000000000000000000000000000000000 μ) (hk : Foot μ σ τ) : Foot μ σ (τ.takePayload p k payload uncorr) := by
  unfold State.takePayload
  repeat' with_reducible (first
    | assumption | (intro _ _ _) | refine setLane_foot (hs.sub (by decide)) ?_ | apply ite_foot | simp only [foot_mk] | apply Foot.parts
    | split | dsimp only)

theorem codeword_foot {p l : Nat} {corrected : Option Nat} {payload : Nat} (hs : Sub 0x10000000000000000000000000000000000000000000000000000000000007100000000000000 μ) (hk : Foot μ σ τ) : Foot μ σ (τ.codeword p l corrected payload) := by
  unfold State.codeword
  repeat' with_reducible (first
    | assumption | (intro _ _ _) | refine inc_foot (hs.bit (by decide)) ?_ | refine setLane_foot (hs.sub (by decide)) ?_ | refine setPort_foot (hs.sub (by decide)) ?_ | refine syncLink_foot (hs.sub (by decide)) ?_
    | refine syncLock_foot (hs.sub (by decide)) ?_ | refine takePayload_foot (hs.sub (by decide)) ?_ | apply ite_foot | simp only [foot_mk] | apply Foot.parts | split
    | dsimp only)

theorem fecSecond_foot (hs : Sub 0x16000000000000000000000000000000000000000000000000000000000008000000000000000 μ) (hk : Foot μ σ τ) : Foot μ σ (τ.fecSecond) := by
  unfold State.fecSecond
  repeat' with_reducible (first
    | assumption | (intro _ _ _) | refine raise_foot (hs.sub (by decide)) ?_ | refine setPort_foot (hs.sub (by decide)) ?_ | refine wr_foot (hs.bit (by decide)) ?_ | apply each_foot'
    | apply foldl_foot_fst | apply foldl_foot_snd | refine foldl_foot_fst_eq ‹_› ?_ ?_ | refine foldl_foot_snd_eq ‹_› ?_ ?_ | apply ite_foot | simp only [foot_mk]
    | apply Foot.parts | split | dsimp only)

theorem grantCredits_foot {p : Nat} (hs : Sub 0x100000000000000000 μ) (hk : Foot μ σ τ) : Foot μ σ (τ.grantCredits p) := by
  rw [State.grantCredits]
  exact foldl_foot (fun (acc : Nat × State) => acc.2) hk (fun c v hc => wr_foot (hs.bit (by decide)) hc)

theorem deskew_foot {p : Nat} {granted : List Nat} (hs : Sub 0x7e00000000000100000000000000000000007a6c0000000000000040a00100f00400000000000 μ) (hk : Foot μ σ τ) : Foot μ σ (τ.deskew p granted) := by
  unfold State.deskew
  repeat' with_reducible (first
    | assumption | (intro _ _ _) | refine arrived_foot (hs.sub (by decide)) ?_ | refine grantCredits_foot (hs.sub (by decide)) ?_ | refine huntAll_foot (hs.sub (by decide)) ?_ | refine inc_foot (hs.bit (by decide)) ?_
    | refine setLane_foot (hs.sub (by decide)) ?_ | refine setOutcome_foot (hs.sub (by decide)) ?_ | refine setPort_foot (hs.sub (by decide)) ?_ | refine syncLink_foot (hs.sub (by decide)) ?_ | refine wr_foot (hs.bit (by decide)) ?_ | apply each_foot'
    | apply foldl_foot_fst | apply foldl_foot_snd | refine foldl_foot_fst_eq ‹_› ?_ ?_ | refine foldl_foot_snd_eq ‹_› ?_ ?_ | apply ite_foot | simp only [foot_mk]
    | apply Foot.parts | split | dsimp only)

theorem realign_foot {p : Nat} (hs : Sub 0x17e000000000001000000000000002c01091d7a640000000000000044a00100b00400000000000 μ) (hk : Foot μ σ τ) : Foot μ σ (τ.realign p) := by
  unfold State.realign
  repeat' with_reducible (first
    | assumption | (intro _ _ _) | refine huntAll_foot (hs.sub (by decide)) ?_ | refine portDown_foot (hs.sub (by decide)) ?_ | refine syncLink_foot (hs.sub (by decide)) ?_ | apply ite_foot
    | dsimp only)

theorem setEnable_foot {p : Nat} {en : Bool} (hs : Sub 0x17e000000000001000000000000002c01091d7a640000000000000044a00100b80400000000000 μ) (hk : Foot μ σ τ) : Foot μ σ (τ.setEnable p en) := by
  unfold State.setEnable
  repeat' with_reducible (first
    | assumption | (intro _ _ _) | refine hwFence_foot (hs.sub (by decide)) ?_ | refine portDown_foot (hs.sub (by decide)) ?_ | refine realign_foot (hs.sub (by decide)) ?_ | refine syncLink_foot (hs.sub (by decide)) ?_
    | refine wr_foot (hs.bit (by decide)) ?_ | apply ite_foot | split | dsimp only)

theorem setRate_foot {p rate : Nat} (hs : Sub 0x17e000000000001000000000000002c01095d7a640000000000000044a00100b80400000000000 μ) (hk : Foot μ σ τ) : Foot μ σ (τ.setRate p rate) := by
  unfold State.setRate
  repeat' with_reducible (first
    | assumption | (intro _ _ _) | refine realign_foot (hs.sub (by decide)) ?_ | refine wr_foot (hs.bit (by decide)) ?_ | apply ite_foot | split
    | dsimp only)

theorem nextBlock_foot {p : Nat} {y} (hs : Sub 0x10000000000000000000000000000000000000000000000000000000000000000000000000000 μ) (he : τ.nextBlock p = some y) (hk : Foot μ σ τ) : Foot μ σ y.2 := by
  unfold State.nextBlock at he
  try dsimp only at he
  repeat' split at he
  all_goals cases he
  all_goals repeat' with_reducible (first
    | assumption | (intro _ _ _) | refine setLane_foot (hs.sub (by decide)) ?_ | refine setPort_foot (hs.sub (by decide)) ?_ | apply ite_foot | simp only [foot_mk]
    | apply Foot.parts | split | dsimp only)

theorem dataBlock_foot {p : Nat} {b : RxBlock} (hs : Sub 0x10000000000000000000000000000000000000000000000000000000000000c00000000000000 μ) (hk : Foot μ σ τ) : Foot μ σ (τ.dataBlock p b) := by
  unfold State.dataBlock
  repeat' with_reducible (first
    | assumption | (intro _ _ _) | refine inc_foot (hs.bit (by decide)) ?_ | refine nextBlock_foot (hs.sub (by decide)) ‹_› ?_ | refine setPort_foot (hs.sub (by decide)) ?_ | refine syncFifo_foot (hs.sub (by decide)) ?_
    | apply ite_foot | simp only [foot_mk] | apply Foot.parts | split | dsimp only)

theorem controlBlock_foot {p : Nat} {b : RxBlock} (hs : Sub 0x10000000000000000000000000000000000000000000000000000000000000400000000000000 μ) (hk : Foot μ σ τ) : Foot μ σ (τ.controlBlock p b) := by
  unfold State.controlBlock
  repeat' with_reducible (first
    | assumption | (intro _ _ _) | refine inc_foot (hs.bit (by decide)) ?_ | refine nextBlock_foot (hs.sub (by decide)) ‹_› ?_ | refine setPort_foot (hs.sub (by decide)) ?_ | apply ite_foot
    | simp only [foot_mk] | apply Foot.parts | split | dsimp only)

theorem takeCtl_foot {p t : Nat} {y} (hs : Sub 0x10000000000000000000000000000000000000000000000000000000000000000000000000000 μ) (he : τ.takeCtl p t = some y) (hk : Foot μ σ τ) : Foot μ σ y.2 := by
  unfold State.takeCtl at he
  try dsimp only at he
  repeat' split at he
  all_goals cases he
  all_goals repeat' with_reducible (first
    | assumption | (intro _ _ _) | refine setPort_foot (hs.sub (by decide)) ?_ | apply ite_foot | simp only [foot_mk] | apply Foot.parts
    | split | dsimp only)

theorem oppReceive_foot {p : Nat} {f : Frame} {dst : Option Nat} (hs : Sub 0x1760000000000000000000000000064000006fa600000000000000000000100800000000000000 μ) (hk : Foot μ σ τ) : Foot μ σ (τ.oppReceive p f dst) := by
  unfold State.oppReceive
  repeat' with_reducible (first
    | assumption | (intro _ _ _) | refine bpmDrop_foot (hs.sub (by decide)) ?_ | refine fifoAdd_foot (hs.sub (by decide)) ?_ | refine forward_foot (hs.sub (by decide)) ?_ | refine police_foot (hs.sub (by decide)) ?_
    | refine police_foot_eq (hs.sub (by decide)) ‹_› ?_ | refine release_foot (hs.sub (by decide)) ?_ | refine request_foot (hs.sub (by decide)) ?_ | refine returnCredits_foot (hs.sub (by decide)) ?_ | apply ite_foot | simp only [foot_mk]
    | apply Foot.parts | split | dsimp only)

theorem frameReceive_foot {p : Nat} {dst : Option Nat} (hs : Sub 0x1760000000000000000000000000064000006fa600000000000000000000500c00000000000000 μ) (hk : Foot μ σ τ) : Foot μ σ (τ.frameReceive p dst) := by
  unfold State.frameReceive
  repeat' with_reducible (first
    | assumption | (intro _ _ _) | refine inc_foot (hs.bit (by decide)) ?_ | refine oppReceive_foot (hs.sub (by decide)) ?_ | refine returnCredits_foot (hs.sub (by decide)) ?_ | refine setPort_foot (hs.sub (by decide)) ?_
    | refine syncFifo_foot (hs.sub (by decide)) ?_ | apply each_foot' | apply ite_foot | simp only [foot_mk] | apply Foot.parts | refine parts_sched (hs.bit (by decide)) (Foot.parts ?_)
    | split | dsimp only)

theorem flowBlock_foot {p : Nat} (hs : Sub 0x50000000000000000000000000002c01090000040000000000000000000100800000000000000 μ) (hk : Foot μ σ τ) : Foot μ σ (τ.flowBlock p) := by
  unfold State.flowBlock
  repeat' with_reducible (first
    | assumption | (intro _ _ _) | refine cancelXoff_foot (hs.sub (by decide)) ?_ | refine inc_foot (hs.bit (by decide)) ?_ | refine setPort_foot (hs.sub (by decide)) ?_ | refine takeCtl_foot (hs.sub (by decide)) ‹_› ?_
    | refine wr_foot (hs.bit (by decide)) ?_ | apply each_foot' | apply ite_foot | simp only [foot_mk] | apply Foot.parts | split
    | dsimp only)

theorem flowSend_foot {p : Nat} (hs : Sub 0x10000000000000000000000000000000000000000000000000000000000000000000000000000 μ) (hk : Foot μ σ τ) : Foot μ σ (τ.flowSend p) := by
  unfold State.flowSend
  repeat' with_reducible (first
    | assumption | (intro _ _ _) | apply emit_foot | refine setPort_foot (hs.sub (by decide)) ?_ | apply ite_foot | simp only [foot_mk]
    | apply Foot.parts | split | dsimp only)

theorem fcStall_foot {p v : Nat} (hs : Sub 0x16000000000000000000000000000000000000000000000000000000000000800000000000000 μ) (hk : Foot μ σ τ) : Foot μ σ (τ.fcStall p v) := by
  unfold State.fcStall
  repeat' with_reducible (first
    | assumption | (intro _ _ _) | refine inc_foot (hs.bit (by decide)) ?_ | refine raise_foot (hs.sub (by decide)) ?_ | refine setPort_foot (hs.sub (by decide)) ?_ | apply ite_foot
    | simp only [foot_mk] | apply Foot.parts | split | dsimp only)

theorem writeTest_foot {p loop gen chk : Nat} (hs : Sub 0x17e000000000001000000000000002c01091d7a640000000000000044a00170b00400000000000 μ) (hk : Foot μ σ τ) : Foot μ σ (τ.writeTest p loop gen chk) := by
  unfold State.writeTest
  repeat' with_reducible (first
    | assumption | (intro _ _ _) | refine huntAll_foot (hs.sub (by decide)) ?_ | refine hwFence_foot (hs.sub (by decide)) ?_ | refine inc_foot (hs.bit (by decide)) ?_ | refine portDown_foot (hs.sub (by decide)) ?_
    | refine realign_foot (hs.sub (by decide)) ?_ | refine setLane_foot (hs.sub (by decide)) ?_ | refine wr_foot (hs.bit (by decide)) ?_ | apply each_foot' | apply ite_foot | simp only [foot_mk]
    | apply Foot.parts | split | dsimp only)

theorem prbsSymbol_foot {p l level : Nat} (hs : Sub 0x10000000000000000000000000000000000000000000000000000000000040000000000000000 μ) (hk : Foot μ σ τ) : Foot μ σ (τ.prbsSymbol p l level) := by
  unfold State.prbsSymbol
  repeat' with_reducible (first
    | assumption | (intro _ _ _) | refine inc_foot (hs.bit (by decide)) ?_ | refine setLane_foot (hs.sub (by decide)) ?_ | refine wr_foot (hs.bit (by decide)) ?_ | apply ite_foot
    | simp only [foot_mk] | apply Foot.parts | split | dsimp only)

theorem testSymbols_foot {p l : Nat} {levels : List Nat} (hs : Sub 0x50000000000000000000000000000000000000000000000000000000000040000000000000000 μ) (hk : Foot μ σ τ) : Foot μ σ (τ.testSymbols p l levels) := by
  unfold State.testSymbols
  repeat' with_reducible (first
    | assumption | (intro _ _ _) | apply emit_foot | refine prbsSymbol_foot (hs.sub (by decide)) ?_ | refine setLane_foot (hs.sub (by decide)) ?_ | apply each_foot'
    | apply ite_foot | simp only [foot_mk] | apply Foot.parts | split | dsimp only)

theorem setLaser_foot {e : Nat} {f : Laser → Laser} (hs : Sub 0x10000000000000000000000000000000000000000000000000000000000000000000000000000 μ) (hk : Foot μ σ τ) : Foot μ σ (τ.setLaser e f) := by
  unfold State.setLaser
  repeat' with_reducible (first
    | assumption | (intro _ _ _) | apply ite_foot | simp only [foot_mk] | apply Foot.parts | refine parts_link (hs.bit (by decide)) (Foot.parts ?_)
    | dsimp only)

theorem syncLight_foot {e : Nat} (hs : Sub 0x17e000000000001000000000000002c01091d7a640000000000000044a00100b00400000000000 μ) (hk : Foot μ σ τ) : Foot μ σ (τ.syncLight e) := by
  unfold State.syncLight
  repeat' with_reducible (first
    | assumption | (intro _ _ _) | refine portDown_foot (hs.sub (by decide)) ?_ | refine realign_foot (hs.sub (by decide)) ?_ | refine syncLink_foot (hs.sub (by decide)) ?_ | apply each_foot'
    | apply ite_foot | split | dsimp only)

theorem setLaserEnable_foot {e : Nat} {en : Bool} (hs : Sub 0x17e000000000001000000000000002c01091d7a640000000000000044a09100b00400000000000 μ) (hk : Foot μ σ τ) : Foot μ σ (τ.setLaserEnable e en) := by
  unfold State.setLaserEnable
  repeat' with_reducible (first
    | assumption | (intro _ _ _) | refine setLaser_foot (hs.sub (by decide)) ?_ | refine syncLight_foot (hs.sub (by decide)) ?_ | refine wr_foot (hs.bit (by decide)) ?_ | apply ite_foot
    | simp only [foot_mk] | apply Foot.parts | split | dsimp only)

theorem writeLaserEnable_foot {e : Nat} {en : Bool} (hs : Sub 0x17e000000000001000000000000002c01091d7a640000000000000044a09100b00400000000000 μ) (hk : Foot μ σ τ) : Foot μ σ (τ.writeLaserEnable e en) := by
  unfold State.writeLaserEnable
  repeat' with_reducible (first
    | assumption | (intro _ _ _) | refine setLaserEnable_foot (hs.sub (by decide)) ?_ | apply ite_foot | split | dsimp only)

theorem laserSample_foot {e : Nat} {presLow fltLow : Bool} (hs : Sub 0x17e000000000001000000000000002c01091d7a640000000000000044a09100b00400000000000 μ) (hk : Foot μ σ τ) : Foot μ σ (τ.laserSample e presLow fltLow) := by
  unfold State.laserSample
  repeat' with_reducible (first
    | assumption | (intro _ _ _) | refine raise_foot (hs.sub (by decide)) ?_ | refine setLaser_foot (hs.sub (by decide)) ?_ | refine setLaserEnable_foot (hs.sub (by decide)) ?_ | refine wr_foot (hs.bit (by decide)) ?_
    | apply ite_foot | simp only [foot_mk] | apply Foot.parts | split | dsimp only)

theorem laserRead_foot {e temp : Nat} {bias power : List Nat} (hs : Sub 0x16000000000000000000000000000000000000000000000000000000007000000000100000000 μ) (hk : Foot μ σ τ) : Foot μ σ (τ.laserRead e temp bias power) := by
  unfold State.laserRead
  repeat' with_reducible (first
    | assumption | (intro _ _ _) | refine raise_foot (hs.sub (by decide)) ?_ | refine setLaser_foot (hs.sub (by decide)) ?_ | refine setLevel_foot (hs.sub (by decide)) ?_ | refine wr_foot (hs.bit (by decide)) ?_
    | refine wr_foot (by first | (rw [getD_reg (r := .PRT_LSM_BIAS) (by decide) rfl]; exact hs.bit (by decide)) | (rw [getD_reg (r := .PRT_LSM_POWER) (by decide) rfl]; exact hs.bit (by decide))) ?_ | apply each_foot' | apply ite_foot | simp only [foot_mk] | apply Foot.parts | split
    | dsimp only)

end Sys2Proof.Machine
end

