-- ==== Sys2Proof/Laws/FootCluster.lean ====
section
/-!
SUPPORT. Which registers and parts of the state the operations of Units, Clusters, Collective, Exchange may change (`Foot`).
-/

namespace Sys2Proof.Machine

set_option Elab.async false
set_option linter.unusedTactic false
set_option linter.unreachableTactic false
set_option linter.unusedSimpArgs false
set_option linter.unusedVariables false

variable {μ : Nat} {σ τ υ : State}

theorem setOp_foot {x : Nat} {f : OpCtx → OpCtx} (hs : Sub 0x100000000000000000000000000000000000000000000000000000000000000000000000000000 μ) (hk : Foot μ σ τ) : Foot μ σ (τ.setOp x f) := by
  unfold State.setOp
  repeat' with_reducible (first
    | assumption | (intro _ _ _) | apply ite_foot | simp only [foot_mk] | apply Foot.parts | refine parts_ctx (hs.bit (by decide)) (Foot.parts ?_)
    | dsimp only)

theorem zeroAll_foot {f : Fld}  (hs : Sub 0x0 μ) (hb : μ.testBit f.reg.ctorIdx = true) (hk : Foot μ σ τ) :
    Foot μ σ (τ.zeroAll f) := by
  unfold State.zeroAll
  exact each_foot' hk (fun _ _ h => wr_foot hb h)

theorem setLost_foot {t g : Nat} {l : List Nat} (hs : Sub 0x400000000000000000000100000000000000000000000000000000000000000000000000000000 μ) (hk : Foot μ σ τ) : Foot μ σ (τ.setLost t g l) := by
  unfold State.setLost
  repeat' with_reducible (first
    | assumption | (intro _ _ _) | refine wr_foot (hs.bit (by decide)) ?_ | apply foldl_foot_fst | apply foldl_foot_snd | refine foldl_foot_fst_eq ‹_› ?_ ?_
    | refine foldl_foot_snd_eq ‹_› ?_ ?_ | apply ite_foot | simp only [foot_mk] | apply Foot.parts | refine parts_spore (hs.bit (by decide)) (Foot.parts ?_) | dsimp only)

theorem syncClusters_foot (hs : Sub 0x140000000000000000000000000000000 μ) (hk : Foot μ σ τ) : Foot μ σ (τ.syncClusters) := by
  unfold State.syncClusters
  repeat' with_reducible (first
    | assumption | (intro _ _ _) | refine wr_foot (hs.bit (by decide)) ?_ | apply ite_foot | dsimp only)

theorem syncMap_foot (hs : Sub 0x18 μ) (hk : Foot μ σ τ) : Foot μ σ (τ.syncMap) := by
  unfold State.syncMap
  repeat' with_reducible (first
    | assumption | (intro _ _ _) | refine wr_foot (hs.bit (by decide)) ?_ | apply each_foot' | apply ite_foot | dsimp only)

theorem mapChange_foot (hs : Sub 0x800000000000000000000000000000000000000000000000000000000000000040000000001c μ) (hk : Foot μ σ τ) : Foot μ σ (τ.mapChange) := by
  unfold State.mapChange
  repeat' with_reducible (first
    | assumption | (intro _ _ _) | refine inc_foot (hs.bit (by decide)) ?_ | apply mark_foot | refine syncMap_foot (hs.sub (by decide)) ?_ | refine trigger_foot (hs.sub (by decide)) ?_
    | apply ite_foot | split | dsimp only)

theorem setOwners_foot {l : List Nat} (hs : Sub 0x200000000000000000000000000000000000000000000000000000000000000000000000000000 μ) (hk : Foot μ σ τ) : Foot μ σ (τ.setOwners l) := by
  unfold State.setOwners
  repeat' with_reducible (first
    | assumption | (intro _ _ _) | apply ite_foot | simp only [foot_mk] | apply Foot.parts | refine parts_comp (hs.bit (by decide)) (Foot.parts ?_)
    | dsimp only)

theorem bootOwners_foot (hs : Sub 0x200000000000000000000000000000000000000000000000000000000000000000000000000000 μ) (hk : Foot μ σ τ) : Foot μ σ (τ.bootOwners) := by
  unfold State.bootOwners
  repeat' with_reducible (first
    | assumption | (intro _ _ _) | refine setOwners_foot (hs.sub (by decide)) ?_ | apply ite_foot | split | dsimp only)

theorem repoint_foot {new : List Nat} (hs : Sub 0x200000000000000000000000000000001000000000000400000000000000000000000000000000 μ) (hk : Foot μ σ τ) : Foot μ σ (τ.repoint new) := by
  unfold State.repoint
  repeat' with_reducible (first
    | assumption | (intro _ _ _) | refine exactLoss_foot (hs.sub (by decide)) (hs.bit (by decide)) ?_ | refine incWrap_foot (hs.bit (by decide)) ?_ | apply mark_foot | refine setOwners_foot (hs.sub (by decide)) ?_
    | apply foldl_foot_fst | apply foldl_foot_snd | refine foldl_foot_fst_eq ‹_› ?_ ?_ | refine foldl_foot_snd_eq ‹_› ?_ ?_ | apply ite_foot | simp only [foot_mk]
    | apply Foot.parts | refine parts_comp (hs.bit (by decide)) (Foot.parts ?_) | split | dsimp only)

theorem unmapLogical_foot {l : Nat} (hs : Sub 0x1000000000000000000000000000000000 μ) (hk : Foot μ σ τ) : Foot μ σ (τ.unmapLogical l) := by
  unfold State.unmapLogical
  repeat' with_reducible (first
    | assumption | (intro _ _ _) | refine wr_foot (hs.bit (by decide)) ?_ | apply ite_foot | dsimp only)

theorem substitute_foot {k : Nat} (hs : Sub 0x206000000000000000000000000000001000000000001040200000000000000000000000000000 μ) (hk : Foot μ σ τ) : Foot μ σ (τ.substitute k).1 := by
  unfold State.substitute
  repeat' with_reducible (first
    | assumption | (intro _ _ _) | refine exactLoss_foot (hs.sub (by decide)) (hs.bit (by decide)) ?_ | refine inc_foot (hs.bit (by decide)) ?_ | apply mark_foot | refine raise_foot (hs.sub (by decide)) ?_
    | refine unmapLogical_foot (hs.sub (by decide)) ?_ | refine wr_foot (hs.bit (by decide)) ?_ | apply ite_foot | simp only [foot_mk] | apply Foot.parts | refine parts_comp (hs.bit (by decide)) (Foot.parts ?_)
    | split | dsimp only)

theorem substitute_foot_eq {k : Nat} {y} (hs : Sub 0x206000000000000000000000000000001000000000001040200000000000000000000000000000 μ) (he : τ.substitute k = (υ, y)) (hk : Foot μ σ τ) : Foot μ σ υ := by
  have := substitute_foot (k := k) hs hk
  rwa [he] at this

theorem setChunk_foot {x c : Nat} {k : Option Chunk} (hs : Sub 0x200000000000000000000000000000000000000000000000000000000000000000000000000000 μ) (hk : Foot μ σ τ) : Foot μ σ (τ.setChunk x c k) := by
  unfold State.setChunk
  repeat' with_reducible (first
    | assumption | (intro _ _ _) | apply ite_foot | simp only [foot_mk] | apply Foot.parts | refine parts_comp (hs.bit (by decide)) (Foot.parts ?_)
    | dsimp only)

theorem askSpill_foot {d : Nat} {j : SpillJob} (hs : Sub 0x200000000000000000000000000000000000000000000000000000000000000000000000000000 μ) (hk : Foot μ σ τ) : Foot μ σ (τ.askSpill d j) := by
  unfold State.askSpill
  repeat' with_reducible (first
    | assumption | (intro _ _ _) | apply ite_foot | simp only [foot_mk] | apply Foot.parts | refine parts_comp (hs.bit (by decide)) (Foot.parts ?_)
    | dsimp only)

theorem requestAll_foot {x c q : Nat} {ch : Chunk} {l : NodeLack} (hs : Sub 0x200000000000000000000000000000000000000000000000000000000000000000000000000000 μ) (hk : Foot μ σ τ) : Foot μ σ (τ.requestAll x c q ch l) := by
  unfold State.requestAll
  repeat' with_reducible (first
    | assumption | (intro _ _ _) | refine askSpill_foot (hs.sub (by decide)) ?_ | refine setChunk_foot (hs.sub (by decide)) ?_ | apply each_foot' | apply ite_foot
    | simp only [foot_mk] | apply Foot.parts | split | dsimp only)

theorem requestOne_foot {x c r : Nat} (hs : Sub 0x200000000000000000000000000000000000000000000000000000000000000000000000000000 μ) (hk : Foot μ σ τ) : Foot μ σ (τ.requestOne x c r) := by
  unfold State.requestOne
  repeat' with_reducible (first
    | assumption | (intro _ _ _) | refine setChunk_foot (hs.sub (by decide)) ?_ | apply ite_foot | simp only [foot_mk] | apply Foot.parts
    | split | dsimp only)

theorem requestNode_foot {x c : Nat} {second : Bool} (hs : Sub 0x200000000000000000000000000000000000000000000000000000000000000000000000000000 μ) (hk : Foot μ σ τ) : Foot μ σ (τ.requestNode x c second) := by
  unfold State.requestNode
  repeat' with_reducible (first
    | assumption | (intro _ _ _) | refine requestAll_foot (hs.sub (by decide)) ?_ | refine requestOne_foot (hs.sub (by decide)) ?_ | apply each_foot' | apply foldl_foot_fst
    | apply foldl_foot_snd | refine foldl_foot_fst_eq ‹_› ?_ ?_ | refine foldl_foot_snd_eq ‹_› ?_ ?_ | apply ite_foot | simp only [foot_mk] | apply Foot.parts
    | split | dsimp only)

theorem fetchRequest_foot {x c : Nat} (hs : Sub 0x200000000000000000000000000000000000000000000000000000000000000000000000000000 μ) (hk : Foot μ σ τ) : Foot μ σ (τ.fetchRequest x c) := by
  unfold State.fetchRequest
  repeat' with_reducible (first
    | assumption | (intro _ _ _) | refine requestNode_foot (hs.sub (by decide)) ?_ | apply ite_foot | simp only [foot_mk] | apply Foot.parts
    | split | dsimp only)

theorem syncOccupancy_foot {k : Nat} (hs : Sub 0x800000000000000000000000000000 μ) (hk : Foot μ σ τ) : Foot μ σ (τ.syncOccupancy k) := by
  unfold State.syncOccupancy
  repeat' with_reducible (first
    | assumption | (intro _ _ _) | refine wr_foot (hs.bit (by decide)) ?_ | apply foldl_foot_fst | apply foldl_foot_snd | refine foldl_foot_fst_eq ‹_› ?_ ?_
    | refine foldl_foot_snd_eq ‹_› ?_ ?_ | apply ite_foot | dsimp only)

theorem syncUsed_foot {t : Nat} (hs : Sub 0x600000000000000000000000000000000000 μ) (hk : Foot μ σ τ) : Foot μ σ (τ.syncUsed t) := by
  unfold State.syncUsed
  repeat' with_reducible (first
    | assumption | (intro _ _ _) | refine wr_foot (hs.bit (by decide)) ?_ | apply each_foot' | apply foldl_foot_fst | apply foldl_foot_snd
    | refine foldl_foot_fst_eq ‹_› ?_ ?_ | refine foldl_foot_snd_eq ‹_› ?_ ?_ | apply ite_foot | split | dsimp only)

theorem syncWaiting_foot {x : Nat} (hs : Sub 0x4000000000000000000000000000000000 μ) (hk : Foot μ σ τ) : Foot μ σ (τ.syncWaiting x) := by
  unfold State.syncWaiting
  repeat' with_reducible (first
    | assumption | (intro _ _ _) | refine wr_foot (hs.bit (by decide)) ?_ | apply ite_foot | dsimp only)

theorem syncChunk_foot {x t k : Nat} (hs : Sub 0x604000800000000000000000000000000000 μ) (hk : Foot μ σ τ) : Foot μ σ (τ.syncChunk x t k) := by
  unfold State.syncChunk
  repeat' with_reducible (first
    | assumption | (intro _ _ _) | refine syncOccupancy_foot (hs.sub (by decide)) ?_ | refine syncUsed_foot (hs.sub (by decide)) ?_ | refine syncWaiting_foot (hs.sub (by decide)) ?_ | apply ite_foot
    | dsimp only)

theorem finishRetire_foot {k : Nat} (hs : Sub 0xe00000000000000000000000000000100000000000014020000000000000000040000000001c μ) (hk : Foot μ σ τ) : Foot μ σ (τ.finishRetire k) := by
  unfold State.finishRetire
  repeat' with_reducible (first
    | assumption | (intro _ _ _) | refine exactLoss_foot (hs.sub (by decide)) (hs.bit (by decide)) ?_ | refine mapChange_foot (hs.sub (by decide)) ?_ | refine raise_foot (hs.sub (by decide)) ?_ | refine syncClusters_foot (hs.sub (by decide)) ?_
    | refine wr_foot (hs.bit (by decide)) ?_ | apply ite_foot | split | dsimp only)

theorem releaseGranules_foot {x c : Nat} {ch : Chunk} (hs : Sub 0x200000000000000000000000000000000000000000000000000000000000000000000000000000 μ) (hk : Foot μ σ τ) : Foot μ σ (τ.releaseGranules x c ch) := by
  unfold State.releaseGranules
  repeat' with_reducible (first
    | assumption | (intro _ _ _) | apply ite_foot | simp only [foot_mk] | apply Foot.parts | refine parts_comp (hs.bit (by decide)) (Foot.parts ?_)
    | split | dsimp only)

theorem dropWarm_foot {x : Nat} {ch : Chunk} (hs : Sub 0x100000000000000000000000000000000000000000000000000 μ) (hk : Foot μ σ τ) : Foot μ σ (τ.dropWarm x ch) := by
  unfold State.dropWarm
  repeat' with_reducible (first
    | assumption | (intro _ _ _) | refine wr_foot (hs.bit (by decide)) ?_ | apply ite_foot | split | dsimp only)

theorem dropChunk_foot {x c : Nat} (hs : Sub 0x200000000000000000000000000100000000000000604000800000000000000000000000000000 μ) (hk : Foot μ σ τ) : Foot μ σ (τ.dropChunk x c) := by
  unfold State.dropChunk
  repeat' with_reducible (first
    | assumption | (intro _ _ _) | refine dropWarm_foot (hs.sub (by decide)) ?_ | refine releaseGranules_foot (hs.sub (by decide)) ?_ | refine setChunk_foot (hs.sub (by decide)) ?_ | refine syncChunk_foot (hs.sub (by decide)) ?_
    | apply ite_foot | simp only [foot_mk] | apply Foot.parts | split | dsimp only)

theorem askAdmission_foot {x c : Nat} (hs : Sub 0x200000000000000000000000000000000000000000004000000000000000000000000000000000 μ) (hk : Foot μ σ τ) : Foot μ σ (τ.askAdmission x c) := by
  unfold State.askAdmission
  repeat' with_reducible (first
    | assumption | (intro _ _ _) | refine setChunk_foot (hs.sub (by decide)) ?_ | refine syncWaiting_foot (hs.sub (by decide)) ?_ | apply ite_foot | split
    | dsimp only)

theorem setHold_foot {t : Nat} {h : Hold} (hs : Sub 0x200000000000000000000000000000000000000000000000000000000000000000000000000000 μ) (hk : Foot μ σ τ) : Foot μ σ (τ.setHold t h) := by
  unfold State.setHold
  repeat' with_reducible (first
    | assumption | (intro _ _ _) | apply ite_foot | simp only [foot_mk] | apply Foot.parts | refine parts_comp (hs.bit (by decide)) (Foot.parts ?_)
    | dsimp only)

theorem sendGrants_foot {t mode : Nat} {entries : List (Nat × Nat)} (hs : Sub 0x16600000000000000000000000000000000067a6c8000000000000000000000000000000000000 μ) (hk : Foot μ σ τ) : Foot μ σ (τ.sendGrants t mode entries) := by
  unfold State.sendGrants
  repeat' with_reducible (first
    | assumption | (intro _ _ _) | refine inc_foot (hs.bit (by decide)) ?_ | refine sendControl_foot (hs.sub (by decide)) ?_ | apply each_foot' | apply ite_foot
    | split | dsimp only)

theorem stopDie_foot {t d : Nat} (hs : Sub 0x200000000000000000000000000000000000000000000000000000000000000000000000000000 μ) (hk : Foot μ σ τ) : Foot μ σ (τ.stopDie t d) := by
  unfold State.stopDie
  repeat' with_reducible (first
    | assumption | (intro _ _ _) | refine setHold_foot (hs.sub (by decide)) ?_ | apply ite_foot | simp only [foot_mk] | apply Foot.parts
    | split | dsimp only)

theorem syncTrigger_foot {t : Nat} (hs : Sub 0x200000000000000000000000000000000000000000040000000000000000000000000000000000 μ) (hk : Foot μ σ τ) : Foot μ σ (τ.syncTrigger t) := by
  unfold State.syncTrigger
  repeat' with_reducible (first
    | assumption | (intro _ _ _) | refine stopDie_foot (hs.sub (by decide)) ?_ | refine wr_foot (hs.bit (by decide)) ?_ | apply each_foot' | apply ite_foot
    | simp only [foot_mk] | apply Foot.parts | split | dsimp only)

theorem freeze_foot {t cause : Nat} {die : Option Nat} {logical : Nat} (hs : Sub 0x208000000000000000000000000000001000000000140000000000000000000000400000000000 μ) (hk : Foot μ σ τ) : Foot μ σ (τ.freeze t cause die logical) := by
  unfold State.freeze
  repeat' with_reducible (first
    | assumption | (intro _ _ _) | refine exactLoss_foot (hs.sub (by decide)) (hs.bit (by decide)) ?_ | refine incWrap_foot (hs.bit (by decide)) ?_ | apply mark_foot | apply noteWas_foot
    | refine setHold_foot (hs.sub (by decide)) ?_ | refine syncTrigger_foot (hs.sub (by decide)) ?_ | refine trigger_foot (hs.sub (by decide)) ?_ | refine wr_foot (hs.bit (by decide)) ?_ | apply ite_foot | simp only [foot_mk]
    | apply Foot.parts | split | dsimp only)

theorem unfreeze_foot {t : Nat} {lost : List Nat} (hs : Sub 0x208000000000000000000000000000000000000000140000000000000000000000400000000000 μ) (hk : Foot μ σ τ) : Foot μ σ (τ.unfreeze t lost) := by
  unfold State.unfreeze
  repeat' with_reducible (first
    | assumption | (intro _ _ _) | refine restoreWas_foot (hs.bit (by decide)) ?_ | refine setHold_foot (hs.sub (by decide)) ?_ | refine syncTrigger_foot (hs.sub (by decide)) ?_ | refine trigger_foot (hs.sub (by decide)) ?_
    | refine wr_foot (hs.bit (by decide)) ?_ | apply ite_foot | simp only [foot_mk] | apply Foot.parts | split | dsimp only)

theorem enterHold_foot {t : Nat} (hs : Sub 0x16600000000000000000000000000000000067a6c8044000000000000000000000000000000000 μ) (hk : Foot μ σ τ) : Foot μ σ (τ.enterHold t) := by
  unfold State.enterHold
  repeat' with_reducible (first
    | assumption | (intro _ _ _) | refine sendGrants_foot (hs.sub (by decide)) ?_ | refine wr_foot (hs.bit (by decide)) ?_ | apply each_foot' | apply ite_foot
    | split | dsimp only)

theorem releaseHold_foot {a t : Nat} (hs : Sub 0x36e00000000000000000000000000000000067a6c8044000000000000000000000400000000000 μ) (hk : Foot μ σ τ) : Foot μ σ (τ.releaseHold a t) := by
  unfold State.releaseHold
  repeat' with_reducible (first
    | assumption | (intro _ _ _) | refine sendGrants_foot (hs.sub (by decide)) ?_ | refine setHold_foot (hs.sub (by decide)) ?_ | refine trigger_foot (hs.sub (by decide)) ?_ | refine wr_foot (hs.bit (by decide)) ?_
    | apply each_foot' | apply ite_foot | simp only [foot_mk] | apply Foot.parts | split | dsimp only)

theorem openLate_foot {x : Nat} (hs : Sub 0x200000000000000000000000000000000000000000000000000000000000000000000000000000 μ) (hk : Foot μ σ τ) : Foot μ σ (τ.openLate x) := by
  unfold State.openLate
  repeat' with_reducible (first
    | assumption | (intro _ _ _) | refine setHold_foot (hs.sub (by decide)) ?_ | apply ite_foot | simp only [foot_mk] | apply Foot.parts
    | split | dsimp only)

theorem unlist_foot {x : Nat} (hs : Sub 0x200000000000000000000000000000000000000000004000000000000000000000000000000000 μ) (hk : Foot μ σ τ) : Foot μ σ (τ.unlist x) := by
  unfold State.unlist
  repeat' with_reducible (first
    | assumption | (intro _ _ _) | refine setHold_foot (hs.sub (by decide)) ?_ | refine wr_foot (hs.bit (by decide)) ?_ | apply ite_foot | simp only [foot_mk]
    | apply Foot.parts | split | dsimp only)

theorem enterChunk_foot {x c k : Nat} {ch : Chunk} {p : Place} (hs : Sub 0x300000000000000000000000000000000000000000684000800000000000000000000000000000 μ) (hk : Foot μ σ τ) : Foot μ σ (τ.enterChunk x c k ch p) := by
  unfold State.enterChunk
  repeat' with_reducible (first
    | assumption | (intro _ _ _) | refine inc_foot (hs.bit (by decide)) ?_ | refine setChunk_foot (hs.sub (by decide)) ?_ | refine setOp_foot (hs.sub (by decide)) ?_ | refine syncChunk_foot (hs.sub (by decide)) ?_
    | apply ite_foot | simp only [foot_mk] | apply Foot.parts | refine parts_comp (hs.bit (by decide)) (Foot.parts ?_) | split | dsimp only)

theorem admissionDecide_foot {k t : Nat} (hs : Sub 0x328000000000000000000000000000001000000000fc4000800000000000000000400000000000 μ) (hk : Foot μ σ τ) : Foot μ σ (τ.admissionDecide k t) := by
  unfold State.admissionDecide
  repeat' with_reducible (first
    | assumption | (intro _ _ _) | refine enterChunk_foot (hs.sub (by decide)) ?_ | refine exactLoss_foot (hs.sub (by decide)) (hs.bit (by decide)) ?_ | refine freeze_foot (hs.sub (by decide)) ?_ | refine inc_foot (hs.bit (by decide)) ?_
    | apply mark_foot | apply noteWas_foot | refine request_foot (hs.sub (by decide)) ?_ | refine setChunk_foot (hs.sub (by decide)) ?_ | apply ite_foot | simp only [foot_mk]
    | apply Foot.parts | split | dsimp only)

theorem nodeIssue_foot {k : Nat} (hs : Sub 0x200000000000000000000000000000000000000000000000000000000000000000000000000000 μ) (hk : Foot μ σ τ) : Foot μ σ (τ.nodeIssue k) := by
  unfold State.nodeIssue
  repeat' with_reducible (first
    | assumption | (intro _ _ _) | refine askSpill_foot (hs.sub (by decide)) ?_ | refine setChunk_foot (hs.sub (by decide)) ?_ | apply foldl_foot_fst | apply foldl_foot_snd
    | refine foldl_foot_fst_eq ‹_› ?_ ?_ | refine foldl_foot_snd_eq ‹_› ?_ ?_ | apply ite_foot | simp only [foot_mk] | apply Foot.parts | refine parts_comp (hs.bit (by decide)) (Foot.parts ?_)
    | split | dsimp only)

theorem replay_foot {x c : Nat} {ch : Chunk} (hs : Sub 0x200000000000000000000000000000001000000000000001000000000000000000000000000000 μ) (hk : Foot μ σ τ) : Foot μ σ (τ.replay x c ch) := by
  unfold State.replay
  repeat' with_reducible (first
    | assumption | (intro _ _ _) | refine exactLoss_foot (hs.sub (by decide)) (hs.bit (by decide)) ?_ | refine fetchRequest_foot (hs.sub (by decide)) ?_ | refine inc_foot (hs.bit (by decide)) ?_ | refine setChunk_foot (hs.sub (by decide)) ?_
    | apply ite_foot | simp only [foot_mk] | apply Foot.parts | dsimp only)

theorem readmit_foot {x c : Nat} {ch : Chunk} (hs : Sub 0x200000000000000000000000000100000000000000604000800000000000000000000000000000 μ) (hk : Foot μ σ τ) : Foot μ σ (τ.readmit x c ch) := by
  unfold State.readmit
  repeat' with_reducible (first
    | assumption | (intro _ _ _) | refine dropWarm_foot (hs.sub (by decide)) ?_ | refine releaseGranules_foot (hs.sub (by decide)) ?_ | refine setChunk_foot (hs.sub (by decide)) ?_ | refine syncChunk_foot (hs.sub (by decide)) ?_
    | apply ite_foot | simp only [foot_mk] | apply Foot.parts | dsimp only)

theorem readmitAll_foot {k : Nat} (hs : Sub 0x200000000000000000000000000100000000000000604000800000000000000000000000000000 μ) (hk : Foot μ σ τ) : Foot μ σ (τ.readmitAll k) := by
  unfold State.readmitAll
  repeat' with_reducible (first
    | assumption | (intro _ _ _) | refine readmit_foot (hs.sub (by decide)) ?_ | apply each_foot' | apply ite_foot | simp only [foot_mk]
    | apply Foot.parts | refine parts_comp (hs.bit (by decide)) (Foot.parts ?_) | dsimp only)

theorem unadmit_foot {x c : Nat} {spill ahead : Bool} {high : Nat} (hs : Sub 0x300000000000000000000000000000000000000000684000800000000000000000000000000000 μ) (hk : Foot μ σ τ) : Foot μ σ (τ.unadmit x c spill ahead high) := by
  unfold State.unadmit
  repeat' with_reducible (first
    | assumption | (intro _ _ _) | refine setChunk_foot (hs.sub (by decide)) ?_ | refine setOp_foot (hs.sub (by decide)) ?_ | refine syncChunk_foot (hs.sub (by decide)) ?_ | refine uncount_foot (hs.bit (by decide)) ?_
    | apply ite_foot | simp only [foot_mk] | apply Foot.parts | split | dsimp only)

theorem unrefuse_foot {x c : Nat} {first : Bool} (hs : Sub 0x200000000000000000000000000000000000000000800000000000000000000000000000000000 μ) (hk : Foot μ σ τ) : Foot μ σ (τ.unrefuse x c first) := by
  unfold State.unrefuse
  repeat' with_reducible (first
    | assumption | (intro _ _ _) | refine setChunk_foot (hs.sub (by decide)) ?_ | refine uncount_foot (hs.bit (by decide)) ?_ | apply ite_foot | simp only [foot_mk]
    | apply Foot.parts | split | dsimp only)

theorem undecide_foot {lost : List Nat} (hs : Sub 0x308000000000000000000000000000001000000000fc4000800000000000000000400000000000 μ) (hk : Foot μ σ τ) : Foot μ σ (τ.undecide lost) := by
  unfold State.undecide
  repeat' with_reducible (first
    | assumption | (intro _ _ _) | refine restoreWas_foot (hs.bit (by decide)) ?_ | refine unadmit_foot (hs.sub (by decide)) ?_ | refine unfreeze_foot (hs.sub (by decide)) ?_ | refine unrefuse_foot (hs.sub (by decide)) ?_
    | apply each_foot' | apply ite_foot | simp only [foot_mk] | apply Foot.parts | split | dsimp only)

theorem takeBackAll_foot {lost : List Nat} (hs : Sub 0x308000000000000000000000000000001000000000fc4400800000000000000000400000000000 μ) (hk : Foot μ σ τ) : Foot μ σ (τ.takeBackAll lost) := by
  unfold State.takeBackAll
  repeat' with_reducible (first
    | assumption | (intro _ _ _) | refine repoint_foot (hs.sub (by decide)) ?_ | refine undecide_foot (hs.sub (by decide)) ?_ | apply ite_foot | split
    | dsimp only)

theorem retireNow_foot {k cause : Nat} (hs : Sub 0x30e000000000000000000000000100001000000000fc5540a0000000000000000040000000001c μ) (hk : Foot μ σ τ) : Foot μ σ (τ.retireNow k cause) := by
  unfold State.retireNow
  repeat' with_reducible (first
    | assumption | (intro _ _ _) | refine exactLoss_foot (hs.sub (by decide)) (hs.bit (by decide)) ?_ | refine mapChange_foot (hs.sub (by decide)) ?_ | refine raise_foot (hs.sub (by decide)) ?_ | refine readmitAll_foot (hs.sub (by decide)) ?_
    | refine substitute_foot (hs.sub (by decide)) ?_ | refine substitute_foot_eq (hs.sub (by decide)) ‹_› ?_ | refine syncClusters_foot (hs.sub (by decide)) ?_ | refine takeBackAll_foot (hs.sub (by decide)) ?_ | refine wr_foot (hs.bit (by decide)) ?_ | apply ite_foot
    | split | dsimp only)

theorem retirePending_foot {k : Nat} (hs : Sub 0x30e000000000000000000000000000001000000000fc5540a0000000000000000040000000001c μ) (hk : Foot μ σ τ) : Foot μ σ (τ.retirePending k) := by
  unfold State.retirePending
  repeat' with_reducible (first
    | assumption | (intro _ _ _) | refine mapChange_foot (hs.sub (by decide)) ?_ | refine substitute_foot (hs.sub (by decide)) ?_ | refine substitute_foot_eq (hs.sub (by decide)) ‹_› ?_ | refine syncClusters_foot (hs.sub (by decide)) ?_
    | refine takeBackAll_foot (hs.sub (by decide)) ?_ | refine wr_foot (hs.bit (by decide)) ?_ | apply ite_foot | split | dsimp only)

theorem checkFailure_foot {k x n c node : Nat} {path : CheckPath} {attempt : Nat} (hs : Sub 0x30e000000000000000000000000100001000000000fc5d55e0000000000000000040000000001c μ) (hk : Foot μ σ τ) : Foot μ σ (τ.checkFailure k x n c node path attempt) := by
  unfold State.checkFailure
  repeat' with_reducible (first
    | assumption | (intro _ _ _) | refine exactLoss_foot (hs.sub (by decide)) (hs.bit (by decide)) ?_ | refine inc_foot (hs.bit (by decide)) ?_ | refine raise_foot (hs.sub (by decide)) ?_ | refine replay_foot (hs.sub (by decide)) ?_
    | refine retireNow_foot (hs.sub (by decide)) ?_ | refine retirePending_foot (hs.sub (by decide)) ?_ | refine wr_foot (hs.bit (by decide)) ?_ | refine inc_foot (by cases path <;> exact hs.bit (by decide)) ?_ | apply ite_foot | simp only [foot_mk]
    | apply Foot.parts | refine parts_comp (hs.bit (by decide)) (Foot.parts ?_) | split | dsimp only)

theorem checkVerdict_foot {k x n c node : Nat} {fail : Option CheckPath} {attempt corrected : Nat} (hs : Sub 0x70e000000000000000000000000100001000000000fc5d55e0000000000000000040000000001c μ) (hk : Foot μ σ τ) : Foot μ σ (τ.checkVerdict k x n c node fail attempt corrected) := by
  unfold State.checkVerdict
  repeat' with_reducible (first
    | assumption | (intro _ _ _) | refine checkFailure_foot (hs.sub (by decide)) ?_ | refine incCorr_foot (hs.bit (by decide)) (hs.bit (by decide)) ?_ | apply ite_foot | simp only [foot_mk]
    | apply Foot.parts | refine parts_spore (hs.bit (by decide)) (Foot.parts ?_) | split | dsimp only)

theorem coreDieLoss_foot {d : Nat} (hs : Sub 0x230e000000000000000000000000100001000000000fc5540a0000000000000000040000002001c μ) (hk : Foot μ σ τ) : Foot μ σ (τ.coreDieLoss d) := by
  unfold State.coreDieLoss
  repeat' with_reducible (first
    | assumption | (intro _ _ _) | refine exactLoss_foot (hs.sub (by decide)) (hs.bit (by decide)) ?_ | refine mapChange_foot (hs.sub (by decide)) ?_ | refine raise_foot (hs.sub (by decide)) ?_ | refine readmitAll_foot (hs.sub (by decide)) ?_
    | refine syncClusters_foot (hs.sub (by decide)) ?_ | refine takeBackAll_foot (hs.sub (by decide)) ?_ | refine unmapLogical_foot (hs.sub (by decide)) ?_ | refine wr_foot (hs.bit (by decide)) ?_ | apply each_foot' | apply ite_foot
    | simp only [foot_mk] | apply Foot.parts | refine parts_pwr (hs.bit (by decide)) (parts_comp (hs.bit (by decide)) (Foot.parts ?_)) | split | dsimp only)

theorem spareTestStart_foot (hs : Sub 0x200000000000000000000000000000000000000000000000200000000000000000000000000000 μ) (hk : Foot μ σ τ) : Foot μ σ (τ.spareTestStart) := by
  unfold State.spareTestStart
  repeat' with_reducible (first
    | assumption | (intro _ _ _) | refine wr_foot (hs.bit (by decide)) ?_ | apply ite_foot | simp only [foot_mk] | apply Foot.parts
    | refine parts_comp (hs.bit (by decide)) (Foot.parts ?_) | split | dsimp only)

theorem spareTestEnd_foot {pass : Bool} (hs : Sub 0x20e00000000000000000000000000000100000000000014220000000000000000040000000001c μ) (hk : Foot μ σ τ) : Foot μ σ (τ.spareTestEnd pass) := by
  unfold State.spareTestEnd
  repeat' with_reducible (first
    | assumption | (intro _ _ _) | refine exactLoss_foot (hs.sub (by decide)) (hs.bit (by decide)) ?_ | refine mapChange_foot (hs.sub (by decide)) ?_ | refine raise_foot (hs.sub (by decide)) ?_ | refine syncClusters_foot (hs.sub (by decide)) ?_
    | refine wr_foot (hs.bit (by decide)) ?_ | apply ite_foot | simp only [foot_mk] | apply Foot.parts | refine parts_comp (hs.bit (by decide)) (Foot.parts ?_) | split
    | dsimp only)

theorem clusterCycle_foot {a k : Nat} (hs : Sub 0x288000000000000000000000000000000 μ) (hk : Foot μ σ τ) : Foot μ σ (τ.clusterCycle a k) := by
  unfold State.clusterCycle
  repeat' with_reducible (first
    | assumption | (intro _ _ _) | refine inc_foot (hs.bit (by decide)) ?_ | apply ite_foot | split | dsimp only)

theorem arithCycle_foot (hs : Sub 0x36e00000000000000000000000000000100067a6c80443c820000000000000000040000000001c μ) (hk : Foot μ σ τ) : Foot μ σ (τ.arithCycle) := by
  unfold State.arithCycle
  repeat' with_reducible (first
    | assumption | (intro _ _ _) | refine clusterCycle_foot (hs.sub (by decide)) ?_ | refine finishRetire_foot (hs.sub (by decide)) ?_ | refine releaseHold_foot (hs.sub (by decide)) ?_ | apply each_foot'
    | apply ite_foot | dsimp only)

theorem freeSettled_foot {x : Nat} (hs : Sub 0x12600000000000000000000000000000000007a600000000000000000000000000000000000000 μ) (hk : Foot μ σ τ) : Foot μ σ (τ.freeSettled x) := by
  unfold State.freeSettled
  repeat' with_reducible (first
    | assumption | (intro _ _ _) | refine dropArrived_foot (hs.sub (by decide)) ?_ | refine setOp_foot (hs.sub (by decide)) ?_ | apply each_foot' | apply ite_foot
    | simp only [foot_mk] | apply Foot.parts | split | dsimp only)

end Sys2Proof.Machine
end

