-- ==== Sys2Proof/Laws/FootOperation.lean ====
section
/-!
SUPPORT. Which registers and parts of the state the operations of Accept, Commit, XchOps may change (`Foot`).
-/

namespace Sys2Proof.Machine

set_option Elab.async false
set_option linter.unusedTactic false
set_option linter.unreachableTactic false
set_option linter.unusedSimpArgs false
set_option linter.unusedVariables false

variable {μ : Nat} {σ τ υ : State}

theorem setSpore_foot {t : Nat} {f : SporeLast → SporeLast} (hs : Sub 0x400000000000000000000000000000000000000000000000000000000000000000000000000000 μ) (hk : Foot μ σ τ) : Foot μ σ (τ.setSpore t f) := by
  unfold State.setSpore
  repeat' with_reducible (first
    | assumption | (intro _ _ _) | apply ite_foot | simp only [foot_mk] | apply Foot.parts | refine parts_spore (hs.bit (by decide)) (Foot.parts ?_)
    | dsimp only)

theorem beginCut_foot {t e port : Nat} (hs : Sub 0x40000000000000000000000c000000000000000000000000000000000000000000000000000000 μ) (hk : Foot μ σ τ) : Foot μ σ (τ.beginCut t e port) := by
  unfold State.beginCut
  repeat' with_reducible (first
    | assumption | (intro _ _ _) | refine setSpore_foot (hs.sub (by decide)) ?_ | refine wr_foot (hs.bit (by decide)) ?_ | apply ite_foot | simp only [foot_mk]
    | apply Foot.parts | split | dsimp only)

theorem syncHeld_foot {t : Nat} (hs : Sub 0x8000000000000000000000000000000000000000000000000000000 μ) (hk : Foot μ σ τ) : Foot μ σ (τ.syncHeld t) := by
  unfold State.syncHeld
  repeat' with_reducible (first
    | assumption | (intro _ _ _) | refine wr_foot (hs.bit (by decide)) ?_ | apply ite_foot | dsimp only)

theorem earlyLoss_foot {x : Option Nat} (hs : Sub 0x1000000000000000000000000000000000000000000000 μ) (hk : Foot μ σ τ) : Foot μ σ (τ.earlyLoss x) := by
  unfold State.earlyLoss
  repeat' with_reducible (first
    | assumption | (intro _ _ _) | refine exactLossNoted_foot (hs.sub (by decide)) (hs.bit (by decide)) ?_ | apply mark_foot | apply ite_foot | dsimp only)

theorem notEarly_foot {x : Nat} (hs : Sub 0x1000000000000000000000000000000000000000000000 μ) (hk : Foot μ σ τ) : Foot μ σ (τ.notEarly x) := by
  unfold State.notEarly
  repeat' with_reducible (first
    | assumption | (intro _ _ _) | refine exactUndo_foot (hs.sub (by decide)) (hs.bit (by decide)) ?_ | apply ite_foot | simp only [foot_mk] | apply Foot.parts
    | split | dsimp only)

theorem holdInCut_foot {t x : Nat} {it : HeldItem} (hs : Sub 0x400000000000000000000008000000001000000000000000000000000000000000000000000000 μ) (hk : Foot μ σ τ) : Foot μ σ (τ.holdInCut t x it) := by
  unfold State.holdInCut
  repeat' with_reducible (first
    | assumption | (intro _ _ _) | refine earlyLoss_foot (hs.sub (by decide)) ?_ | refine setSpore_foot (hs.sub (by decide)) ?_ | refine syncHeld_foot (hs.sub (by decide)) ?_ | apply ite_foot
    | simp only [foot_mk] | apply Foot.parts | dsimp only)

theorem takeHeld_foot {t : Nat} (hs : Sub 0x400000000000000000000008000000000000000000000000000000000000000000000000000000 μ) (hk : Foot μ σ τ) : Foot μ σ (τ.takeHeld t).2 := by
  unfold State.takeHeld
  repeat' with_reducible (first
    | assumption | (intro _ _ _) | refine setSpore_foot (hs.sub (by decide)) ?_ | refine syncHeld_foot (hs.sub (by decide)) ?_ | apply ite_foot | simp only [foot_mk]
    | apply Foot.parts | dsimp only)

theorem takeHeld_foot_eq {t : Nat} {y} (hs : Sub 0x400000000000000000000008000000000000000000000000000000000000000000000000000000 μ) (he : τ.takeHeld t = (y, υ)) (hk : Foot μ σ τ) : Foot μ σ υ := by
  have := takeHeld_foot (t := t) hs hk
  rwa [he] at this

theorem syncDrain_foot (hs : Sub 0x80000000000000000000000000000000000000000000000000000000000 μ) (hk : Foot μ σ τ) : Foot μ σ (τ.syncDrain) := by
  unfold State.syncDrain
  repeat' with_reducible (first
    | assumption | (intro _ _ _) | refine wr_foot (hs.bit (by decide)) ?_ | apply foldl_foot_fst | apply foldl_foot_snd | refine foldl_foot_fst_eq ‹_› ?_ ?_
    | refine foldl_foot_snd_eq ‹_› ?_ ?_ | apply ite_foot | dsimp only)

theorem dropEpoch_foot {t : Nat} (hs : Sub 0x400000000000000000280008000000000000000000000000000000000000000000000000000000 μ) (hk : Foot μ σ τ) : Foot μ σ (τ.dropEpoch t) := by
  unfold State.dropEpoch
  repeat' with_reducible (first
    | assumption | (intro _ _ _) | refine inc_foot (hs.bit (by decide)) ?_ | refine setSpore_foot (hs.sub (by decide)) ?_ | refine syncDrain_foot (hs.sub (by decide)) ?_ | refine wr_foot (hs.bit (by decide)) ?_
    | apply ite_foot | simp only [foot_mk] | apply Foot.parts | split | dsimp only)

theorem publish_foot {account requester : Nat} {item : Item} {targets : List Target} (hs : Sub 0x16600000000000000000000000000000000067a6c0000000000000000000000000000000000000 μ) (hk : Foot μ σ τ) : Foot μ σ (τ.publish account requester item targets) := by
  unfold State.publish
  repeat' with_reducible (first
    | assumption | (intro _ _ _) | refine allocNow_foot (hs.sub (by decide)) ?_ | refine allocNow_foot_eq (hs.sub (by decide)) ‹_› ?_ | refine countWrite_foot (hs.sub (by decide)) ?_ | refine multicast_foot (hs.sub (by decide)) ?_
    | refine output_foot (hs.sub (by decide)) ?_ | refine request_foot (hs.sub (by decide)) ?_ | apply ite_foot | simp only [foot_mk] | apply Foot.parts | split
    | dsimp only)

theorem output_foot {x account requester : Nat} {item : Item} {targets : List Target} (hs : Sub 0x16600000000000000000000000000000000067a6c0000000000000000000000000000000000000 μ) (hk : Foot μ σ τ) : Foot μ σ (τ.output x account requester item targets) := by
  unfold State.output
  repeat' with_reducible (first
    | assumption | (intro _ _ _) | refine publish_foot (hs.sub (by decide)) ?_ | refine setOp_foot (hs.sub (by decide)) ?_ | apply ite_foot | simp only [foot_mk]
    | apply Foot.parts | split | dsimp only)

theorem sendSegment_foot {x : Nat} (hs : Sub 0x16600000000000000000000000000000000067a6c0000000000000000000000000000000000000 μ) (hk : Foot μ σ τ) : Foot μ σ (τ.sendSegment x) := by
  unfold State.sendSegment
  repeat' with_reducible (first
    | assumption | (intro _ _ _) | refine output_foot (hs.sub (by decide)) ?_ | refine sendItem_foot (hs.sub (by decide)) ?_ | refine setOp_foot (hs.sub (by decide)) ?_ | apply each_foot'
    | apply ite_foot | simp only [foot_mk] | apply Foot.parts | split | dsimp only)

theorem sendPartial_foot {x : Nat} (hs : Sub 0x36600000000000000000000000000000000067a600000000000000000000000000000000000000 μ) (hk : Foot μ σ τ) : Foot μ σ (τ.sendPartial x) := by
  unfold State.sendPartial
  repeat' with_reducible (first
    | assumption | (intro _ _ _) | refine multicast_foot (hs.sub (by decide)) ?_ | refine setOp_foot (hs.sub (by decide)) ?_ | apply each_foot' | apply ite_foot
    | simp only [foot_mk] | apply Foot.parts | refine parts_comp (hs.bit (by decide)) (Foot.parts ?_) | split | dsimp only)

theorem sendPartials_foot {x : Nat} (hs : Sub 0x36600000000000000000000000000000000067a600000000000000000000000000000000000000 μ) (hk : Foot μ σ τ) : Foot μ σ (τ.sendPartials x) := by
  unfold State.sendPartials
  repeat' with_reducible (first
    | assumption | (intro _ _ _) | refine sendPartial_foot (hs.sub (by decide)) ?_ | apply each_foot' | apply ite_foot | dsimp only)

theorem restartTimer_foot {x : Nat} (hs : Sub 0x100000000000000000000000000000000000000000000000000000000000000000000000000000 μ) (hk : Foot μ σ τ) : Foot μ σ (τ.restartTimer x) := by
  unfold State.restartTimer
  repeat' with_reducible (first
    | assumption | (intro _ _ _) | refine setOp_foot (hs.sub (by decide)) ?_ | apply ite_foot | simp only [foot_mk] | apply Foot.parts
    | dsimp only)

theorem openOp_foot {x : Nat} (hs : Sub 0x3000000000000000000000000000000000000000000000000000d0000000000000000000000000 μ) (hk : Foot μ σ τ) : Foot μ σ (τ.openOp x) := by
  unfold State.openOp
  repeat' with_reducible (first
    | assumption | (intro _ _ _) | apply mark_foot | apply noteWas_foot | refine openLate_foot (hs.sub (by decide)) ?_ | refine restartTimer_foot (hs.sub (by decide)) ?_
    | refine wr_foot (hs.bit (by decide)) ?_ | apply each_foot' | apply ite_foot | dsimp only)

theorem forward_foot {x : Nat} {a : Arrived} (hs : Sub 0x16600000000000000000000000000000000067a600000000000000000000000000000000000000 μ) (hk : Foot μ σ τ) : Foot μ σ (τ.forward x a) := by
  unfold State.forward
  repeat' with_reducible (first
    | assumption | (intro _ _ _) | refine multicast_foot (hs.sub (by decide)) ?_ | refine setOp_foot (hs.sub (by decide)) ?_ | apply ite_foot | simp only [foot_mk]
    | apply Foot.parts | split | dsimp only)

theorem checkManifest_foot {x rank : Nat} (hs : Sub 0x100000000000000000000000000000000000000000000000100000000000000000000000000000 μ) (hk : Foot μ σ τ) : Foot μ σ (τ.checkManifest x rank).1 := by
  unfold State.checkManifest
  repeat' with_reducible (first
    | assumption | (intro _ _ _) | refine inc_foot (hs.bit (by decide)) ?_ | apply mark_foot | refine setOp_foot (hs.sub (by decide)) ?_ | refine wr_foot (hs.bit (by decide)) ?_
    | apply ite_foot | simp only [foot_mk] | apply Foot.parts | split | dsimp only)

theorem checkManifest_foot_eq {x rank : Nat} {y} (hs : Sub 0x100000000000000000000000000000000000000000000000100000000000000000000000000000 μ) (he : τ.checkManifest x rank = (υ, y)) (hk : Foot μ σ τ) : Foot μ σ υ := by
  have := checkManifest_foot (x := x) (rank := rank) hs hk
  rwa [he] at this

theorem holdInDrain_foot {x : Nat} {it : HeldItem} (hs : Sub 0x40000000000000000000000000000009000000000000000000000000000000000000000000000 μ) (hk : Foot μ σ τ) : Foot μ σ (τ.holdInDrain x it) := by
  unfold State.holdInDrain
  repeat' with_reducible (first
    | assumption | (intro _ _ _) | refine earlyLoss_foot (hs.sub (by decide)) ?_ | refine wr_foot (hs.bit (by decide)) ?_ | apply ite_foot | simp only [foot_mk]
    | apply Foot.parts | refine parts_sched (hs.bit (by decide)) (Foot.parts ?_) | split | dsimp only)

theorem holdEarly_foot {x opnum : Nat} {it : HeldItem} (hs : Sub 0x100000000000000000000000000000001000000000000000000010000000000000000000000000 μ) (hk : Foot μ σ τ) : Foot μ σ (τ.holdEarly x opnum it) := by
  unfold State.holdEarly
  repeat' with_reducible (first
    | assumption | (intro _ _ _) | refine earlyLoss_foot (hs.sub (by decide)) ?_ | refine setOp_foot (hs.sub (by decide)) ?_ | refine wr_foot (hs.bit (by decide)) ?_ | apply ite_foot
    | simp only [foot_mk] | apply Foot.parts | split | dsimp only)

theorem holdItem_foot {x opnum port : Nat} {it : HeldItem} {past : Bool} {y} (hs : Sub 0x540000000000000000000008000000009000000000000000000010000000000000000000000000 μ) (he : τ.holdItem x opnum port it past = some y) (hk : Foot μ σ τ) : Foot μ σ y := by
  unfold State.holdItem at he
  try dsimp only at he
  repeat' split at he
  all_goals cases he
  all_goals repeat' with_reducible (first
    | assumption | (intro _ _ _) | refine holdEarly_foot (hs.sub (by decide)) ?_ | refine holdInCut_foot (hs.sub (by decide)) ?_ | refine holdInDrain_foot (hs.sub (by decide)) ?_ | apply ite_foot
    | simp only [foot_mk] | apply Foot.parts | split | dsimp only)

theorem takeSwatch_foot {x : Nat} {a : Arrived} (hs : Sub 0x3e60000000000000000000000000700000006fa6c00040001000d0000000000000000000000000 μ) (hk : Foot μ σ τ) : Foot μ σ (τ.takeSwatch x a).1 := by
  unfold State.takeSwatch
  repeat' with_reducible (first
    | assumption | (intro _ _ _) | refine askAdmission_foot (hs.sub (by decide)) ?_ | refine checkManifest_foot (hs.sub (by decide)) ?_ | refine checkManifest_foot_eq (hs.sub (by decide)) ‹_› ?_ | refine forward_foot (hs.sub (by decide)) ?_
    | refine freeSettled_foot (hs.sub (by decide)) ?_ | refine inc_foot (hs.bit (by decide)) ?_ | apply mark_foot | refine mirrorAll_foot (hs.sub (by decide)) ?_ | refine openOp_foot (hs.sub (by decide)) ?_ | refine restartTimer_foot (hs.sub (by decide)) ?_
    | refine setOp_foot (hs.sub (by decide)) ?_ | apply ite_foot | simp only [foot_mk] | apply Foot.parts | split | dsimp only)

theorem takeSwatch_foot_eq {x : Nat} {a : Arrived} {y} (hs : Sub 0x3e60000000000000000000000000700000006fa6c00040001000d0000000000000000000000000 μ) (he : τ.takeSwatch x a = (υ, y)) (hk : Foot μ σ τ) : Foot μ σ υ := by
  have := takeSwatch_foot (x := x) (a := a) hs hk
  rwa [he] at this

theorem offerSwatch_foot {a : Arrived} {past : Bool} (hs : Sub 0x7e60000000000000000000080000700090006fa6c00040001031d0000000000000000000000000 μ) (hk : Foot μ σ τ) : Foot μ σ (τ.offerSwatch a past).1 := by
  unfold State.offerSwatch
  repeat' with_reducible (first
    | assumption | (intro _ _ _) | refine dropArrived_foot (hs.sub (by decide)) ?_ | refine dropUndecl_foot (hs.sub (by decide)) ?_ | refine holdItem_foot (hs.sub (by decide)) ‹_› ?_ | refine inc_foot (hs.bit (by decide)) ?_
    | refine takeSwatch_foot (hs.sub (by decide)) ?_ | refine takeSwatch_foot_eq (hs.sub (by decide)) ‹_› ?_ | apply ite_foot | simp only [foot_mk] | apply Foot.parts | split
    | dsimp only)

theorem offerSwatch_foot_eq {a : Arrived} {past : Bool} {y} (hs : Sub 0x7e60000000000000000000080000700090006fa6c00040001031d0000000000000000000000000 μ) (he : τ.offerSwatch a past = (υ, y)) (hk : Foot μ σ τ) : Foot μ σ υ := by
  have := offerSwatch_foot (a := a) (past := past) hs hk
  rwa [he] at this

theorem takeBack_foot {x : Nat} {a : Arrived} (hs : Sub 0x32600000000000000000000000010000000007a6006040008001c0000000000000000000000000 μ) (hk : Foot μ σ τ) : Foot μ σ (τ.takeBack x a).1 := by
  unfold State.takeBack
  repeat' with_reducible (first
    | assumption | (intro _ _ _) | refine dropArrived_foot (hs.sub (by decide)) ?_ | refine dropChunk_foot (hs.sub (by decide)) ?_ | refine inc_foot (hs.bit (by decide)) ?_ | refine setOp_foot (hs.sub (by decide)) ?_
    | refine wr_foot (hs.bit (by decide)) ?_ | apply ite_foot | simp only [foot_mk] | apply Foot.parts | split | dsimp only)

theorem takeBack_foot_eq {x : Nat} {a : Arrived} {y} (hs : Sub 0x32600000000000000000000000010000000007a6006040008001c0000000000000000000000000 μ) (he : τ.takeBack x a = (υ, y)) (hk : Foot μ σ τ) : Foot μ σ υ := by
  have := takeBack_foot (x := x) (a := a) hs hk
  rwa [he] at this

theorem joinEpoch_foot {x port : Nat} {d : Descriptor} (hs : Sub 0x40000000000000000000000c000000000000000000000000000000000000000000000000000000 μ) (hk : Foot μ σ τ) : Foot μ σ (τ.joinEpoch x port d).1 := by
  unfold State.joinEpoch
  repeat' with_reducible (first
    | assumption | (intro _ _ _) | refine beginCut_foot (hs.sub (by decide)) ?_ | refine setSpore_foot (hs.sub (by decide)) ?_ | apply ite_foot | simp only [foot_mk]
    | apply Foot.parts | split | dsimp only)

theorem joinEpoch_foot_eq {x port : Nat} {d : Descriptor} {y} (hs : Sub 0x40000000000000000000000c000000000000000000000000000000000000000000000000000000 μ) (he : τ.joinEpoch x port d = (υ, y)) (hk : Foot μ σ τ) : Foot μ σ υ := by
  have := joinEpoch_foot (x := x) (port := port) (d := d) hs hk
  rwa [he] at this

theorem mirrorDesc_foot {b : ArrivedDesc} (hs : Sub 0xe60000000000000000000000000700000004fa6c0000000000000000000000000000000000000 μ) (hk : Foot μ σ τ) : Foot μ σ (τ.mirrorDesc b) := by
  unfold State.mirrorDesc
  repeat' with_reducible (first
    | assumption | (intro _ _ _) | refine mirrorAll_foot (hs.sub (by decide)) ?_ | apply ite_foot | dsimp only)

theorem takeDesc_foot {x : Nat} {b : ArrivedDesc} (hs : Sub 0x7e600000000000000000000c0001700000006fa6c06040009009f0000000000000000000000000 μ) (hk : Foot μ σ τ) : Foot μ σ (τ.takeDesc x b).1 := by
  unfold State.takeDesc
  repeat' with_reducible (first
    | assumption | (intro _ _ _) | refine checkManifest_foot (hs.sub (by decide)) ?_ | refine checkManifest_foot_eq (hs.sub (by decide)) ‹_› ?_ | refine dropDesc_foot (hs.sub (by decide)) ?_ | refine forward_foot (hs.sub (by decide)) ?_
    | refine joinEpoch_foot (hs.sub (by decide)) ?_ | refine joinEpoch_foot_eq (hs.sub (by decide)) ‹_› ?_ | apply mark_foot | refine mirrorDesc_foot (hs.sub (by decide)) ?_ | refine openOp_foot (hs.sub (by decide)) ?_ | refine restartTimer_foot (hs.sub (by decide)) ?_
    | refine sendPartials_foot (hs.sub (by decide)) ?_ | refine sendSegment_foot (hs.sub (by decide)) ?_ | refine setOp_foot (hs.sub (by decide)) ?_ | refine takeBack_foot (hs.sub (by decide)) ?_ | refine takeBack_foot_eq (hs.sub (by decide)) ‹_› ?_ | refine wr_foot (hs.bit (by decide)) ?_
    | apply each_foot' | apply foldl_foot_fst | apply foldl_foot_snd | refine foldl_foot_fst_eq ‹_› ?_ ?_ | refine foldl_foot_snd_eq ‹_› ?_ ?_ | apply ite_foot
    | simp only [foot_mk] | apply Foot.parts | split | dsimp only)

theorem takeDesc_foot_eq {x : Nat} {b : ArrivedDesc} {y} (hs : Sub 0x7e600000000000000000000c0001700000006fa6c06040009009f0000000000000000000000000 μ) (he : τ.takeDesc x b = (υ, y)) (hk : Foot μ σ τ) : Foot μ σ υ := by
  have := takeDesc_foot (x := x) (b := b) hs hk
  rwa [he] at this

theorem offerDesc_foot {b : ArrivedDesc} {past : Bool} (hs : Sub 0x7e600000000000000000000c0001700090006fa6c06040009079f0000000000000000000000000 μ) (hk : Foot μ σ τ) : Foot μ σ (τ.offerDesc b past).1 := by
  unfold State.offerDesc
  repeat' with_reducible (first
    | assumption | (intro _ _ _) | refine dropDesc_foot (hs.sub (by decide)) ?_ | refine dropUndecl_foot (hs.sub (by decide)) ?_ | refine holdInCut_foot (hs.sub (by decide)) ?_ | refine holdItem_foot (hs.sub (by decide)) ‹_› ?_
    | refine inc_foot (hs.bit (by decide)) ?_ | refine mirrorDesc_foot (hs.sub (by decide)) ?_ | refine sendControl_foot (hs.sub (by decide)) ?_ | refine takeDesc_foot (hs.sub (by decide)) ?_ | refine takeDesc_foot_eq (hs.sub (by decide)) ‹_› ?_ | refine wr_foot (hs.bit (by decide)) ?_
    | apply ite_foot | simp only [foot_mk] | apply Foot.parts | split | dsimp only)

theorem offerDesc_foot_eq {b : ArrivedDesc} {past : Bool} {y} (hs : Sub 0x7e600000000000000000000c0001700090006fa6c06040009079f0000000000000000000000000 μ) (he : τ.offerDesc b past = (υ, y)) (hk : Foot μ σ τ) : Foot μ σ υ := by
  have := offerDesc_foot (b := b) (past := past) hs hk
  rwa [he] at this

theorem offer_foot {it : HeldItem} {past : Bool} (hs : Sub 0x7e600000000000000000000c0001700090006fa6c06040009079f0000000000000000000000000 μ) (hk : Foot μ σ τ) : Foot μ σ (τ.offer it past).1 := by
  unfold State.offer
  repeat' with_reducible (first
    | assumption | (intro _ _ _) | refine offerDesc_foot (hs.sub (by decide)) ?_ | refine offerDesc_foot_eq (hs.sub (by decide)) ‹_› ?_ | refine offerSwatch_foot (hs.sub (by decide)) ?_ | refine offerSwatch_foot_eq (hs.sub (by decide)) ‹_› ?_
    | apply ite_foot | simp only [foot_mk] | apply Foot.parts | split | dsimp only)

theorem offer_foot_eq {it : HeldItem} {past : Bool} {y} (hs : Sub 0x7e600000000000000000000c0001700090006fa6c06040009079f0000000000000000000000000 μ) (he : τ.offer it past = (υ, y)) (hk : Foot μ σ τ) : Foot μ σ υ := by
  have := offer_foot (it := it) (past := past) hs hk
  rwa [he] at this

theorem settleCore_foot {x : Nat} (hs : Sub 0x16600000000000000000000000000000000067a6c0000000000010000000000000000000000000 μ) (hk : Foot μ σ τ) : Foot μ σ (τ.settleCore x).1 := by
  unfold State.settleCore
  repeat' with_reducible (first
    | assumption | (intro _ _ _) | apply mark_foot | refine output_foot (hs.sub (by decide)) ?_ | refine wr_foot (hs.bit (by decide)) ?_ | apply ite_foot
    | split | dsimp only)

theorem settleCore_foot_eq {x : Nat} {y} (hs : Sub 0x16600000000000000000000000000000000067a6c0000000000010000000000000000000000000 μ) (he : τ.settleCore x = (υ, y)) (hk : Foot μ σ τ) : Foot μ σ υ := by
  have := settleCore_foot (x := x) hs hk
  rwa [he] at this

theorem sendRecords_foot {x status : Nat} (hs : Sub 0x16600000000000000000000000000000000067a6c0000000000000000000000000000000000000 μ) (hk : Foot μ σ τ) : Foot μ σ (τ.sendRecords x status) := by
  unfold State.sendRecords
  repeat' with_reducible (first
    | assumption | (intro _ _ _) | refine sendControl_foot (hs.sub (by decide)) ?_ | refine sent_foot (hs.sub (by decide)) ?_ | refine sent_foot_eq (hs.sub (by decide)) ‹_› ?_ | apply each_foot'
    | apply foldl_foot_fst | apply foldl_foot_snd | refine foldl_foot_fst_eq ‹_› ?_ ?_ | refine foldl_foot_snd_eq ‹_› ?_ ?_ | apply ite_foot | dsimp only)

theorem closeRecovery_foot {x status : Nat} (hs : Sub 0x440000000000000000200100000000000000000000000000000000000000000000000000000000 μ) (hk : Foot μ σ τ) : Foot μ σ (τ.closeRecovery x status) := by
  unfold State.closeRecovery
  repeat' with_reducible (first
    | assumption | (intro _ _ _) | refine inc_foot (hs.bit (by decide)) ?_ | refine setLost_foot (hs.sub (by decide)) ?_ | refine wr_foot (hs.bit (by decide)) ?_ | apply ite_foot
    | simp only [foot_mk] | apply Foot.parts | refine parts_spore (hs.bit (by decide)) (Foot.parts ?_) | split | dsimp only)

theorem closeRelease_foot {x n : Nat} {o : OpCtx} (hs : Sub 0x66600000000000000000000800010010000007a600604000800000000000000000000000000000 μ) (hk : Foot μ σ τ) : Foot μ σ (τ.closeRelease x n o) := by
  unfold State.closeRelease
  repeat' with_reducible (first
    | assumption | (intro _ _ _) | refine decRef_foot (hs.sub (by decide)) ?_ | refine dropArrived_foot (hs.sub (by decide)) ?_ | refine dropChunk_foot (hs.sub (by decide)) ?_ | refine dropDesc_foot (hs.sub (by decide)) ?_
    | refine freeObj_foot (hs.sub (by decide)) ?_ | refine freeStreams_foot (hs.sub (by decide)) ?_ | refine setSpore_foot (hs.sub (by decide)) ?_ | refine syncHeld_foot (hs.sub (by decide)) ?_ | refine unlist_foot (hs.sub (by decide)) ?_ | apply each_foot'
    | apply ite_foot | simp only [foot_mk] | apply Foot.parts | refine parts_comp (hs.bit (by decide)) (parts_bpm (hs.bit (by decide)) (Foot.parts ?_)) | split | dsimp only)

theorem closeCount_foot {x n t status : Nat} (hs : Sub 0x56600000000000000020010000080000000067a6c0000000000610020000000000000000000000 μ) (hk : Foot μ σ τ) : Foot μ σ (τ.closeCount x n t status) := by
  unfold State.closeCount
  repeat' with_reducible (first
    | assumption | (intro _ _ _) | refine closeRecovery_foot (hs.sub (by decide)) ?_ | refine inc_foot (hs.bit (by decide)) ?_ | refine incWrap_foot (hs.bit (by decide)) ?_ | refine sendRecords_foot (hs.sub (by decide)) ?_
    | refine setOp_foot (hs.sub (by decide)) ?_ | refine wr_foot (hs.bit (by decide)) ?_ | apply ite_foot | simp only [foot_mk] | apply Foot.parts | refine parts_sched (hs.bit (by decide)) (Foot.parts ?_)
    | split | dsimp only)

theorem closeAbort_foot {x n t status : Nat} (hs : Sub 0x16600000000000000000000000000000000067a6c0000000000000000000000000000000000000 μ) (hk : Foot μ σ τ) : Foot μ σ (τ.closeAbort x n t status) := by
  unfold State.closeAbort
  repeat' with_reducible (first
    | assumption | (intro _ _ _) | refine publish_foot (hs.sub (by decide)) ?_ | apply ite_foot | split | dsimp only)

theorem closeEpoch_foot {x t status : Nat} (hs : Sub 0x400000000000000000280008000000000000000000000000000000000000000000000000000000 μ) (hk : Foot μ σ τ) : Foot μ σ (τ.closeEpoch x t status).1 := by
  unfold State.closeEpoch
  repeat' with_reducible (first
    | assumption | (intro _ _ _) | refine dropEpoch_foot (hs.sub (by decide)) ?_ | refine takeHeld_foot (hs.sub (by decide)) ?_ | refine takeHeld_foot_eq (hs.sub (by decide)) ‹_› ?_ | apply ite_foot
    | split | dsimp only)

theorem closeEpoch_foot_eq {x t status : Nat} {y} (hs : Sub 0x400000000000000000280008000000000000000000000000000000000000000000000000000000 μ) (he : τ.closeEpoch x t status = (υ, y)) (hk : Foot μ σ τ) : Foot μ σ υ := by
  have := closeEpoch_foot (x := x) (t := t) (status := status) hs hk
  rwa [he] at this

theorem keepEarly_foot {x : Nat} {l : List HeldItem} (hs : Sub 0x100000000000000000000000000000000000000000000000000010000000000000000000000000 μ) (hk : Foot μ σ τ) : Foot μ σ (τ.keepEarly x l) := by
  unfold State.keepEarly
  repeat' with_reducible (first
    | assumption | (intro _ _ _) | refine setOp_foot (hs.sub (by decide)) ?_ | refine wr_foot (hs.bit (by decide)) ?_ | apply ite_foot | simp only [foot_mk]
    | apply Foot.parts | dsimp only)

theorem closeCore_foot {x status : Nat} (hs : Sub 0x76600000000000000028010800090010100067a6c0604000800610020000000000000000000000 μ) (hk : Foot μ σ τ) : Foot μ σ (τ.closeCore x status).1 := by
  unfold State.closeCore
  repeat' with_reducible (first
    | assumption | (intro _ _ _) | refine closeAbort_foot (hs.sub (by decide)) ?_ | refine closeCount_foot (hs.sub (by decide)) ?_ | refine closeEpoch_foot (hs.sub (by decide)) ?_ | refine closeEpoch_foot_eq (hs.sub (by decide)) ‹_› ?_
    | refine closeRelease_foot (hs.sub (by decide)) ?_ | refine keepEarly_foot (hs.sub (by decide)) ?_ | refine notEarly_foot (hs.sub (by decide)) ?_ | apply ite_foot | split | dsimp only)

theorem closeCore_foot_eq {x status : Nat} {y} (hs : Sub 0x76600000000000000028010800090010100067a6c0604000800610020000000000000000000000 μ) (he : τ.closeCore x status = (υ, y)) (hk : Foot μ σ τ) : Foot μ σ υ := by
  have := closeCore_foot (x := x) (status := status) hs hk
  rwa [he] at this

theorem runWork_foot {fuel : Nat} {l : List Work} (hs : Sub 0x7e600000000000000028010c0009701090006fa6c0604000907ff0020000000000000000000000 μ) (hk : Foot μ σ τ) : Foot μ σ (runWork fuel τ l) := by
  induction fuel generalizing τ l with
  | zero => simpa only [runWork] using hk
  | succ n ih =>
    cases l with
    | nil => simpa only [runWork] using hk
    | cons w l =>
      rw [runWork.eq_def]
      dsimp only
      split
      · exact ih (offer_foot (hs.sub (by decide)) hk)
      · exact ih (offer_foot (hs.sub (by decide)) hk)
      · exact ih (settleCore_foot (hs.sub (by decide)) hk)
      · exact ih (mark_foot hk)
      · exact ih (closeCore_foot (hs.sub (by decide)) hk)

theorem work_foot {l : List Work} (hs : Sub 0x7e600000000000000028010c0009701090006fa6c0604000907ff0020000000000000000000000 μ) (hk : Foot μ σ τ) : Foot μ σ (τ.work l) :=
  runWork_foot (hs.sub (by decide)) hk

theorem settleAll_foot (hs : Sub 0x7e600000000000000028010c0009701090006fa6c0604000907ff0020000000000000000000000 μ) (hk : Foot μ σ τ) : Foot μ σ (τ.settleAll) := by
  unfold State.settleAll
  repeat' with_reducible (first
    | assumption | (intro _ _ _) | refine work_foot (hs.sub (by decide)) ?_ | apply whenActive_foot | (intro _ _) | apply ite_foot
    | simp only [foot_mk] | apply Foot.parts | split | dsimp only)

theorem endClosing_foot (hs : Sub 0x7e600000000000000028010c0009701090006fa6c0604000907ff0020000000000000000000000 μ) (hk : Foot μ σ τ) : Foot μ σ (τ.endClosing) := by
  unfold State.endClosing
  repeat' with_reducible (first
    | assumption | (intro _ _ _) | refine setOp_foot (hs.sub (by decide)) ?_ | refine work_foot (hs.sub (by decide)) ?_ | refine wr_foot (hs.bit (by decide)) ?_ | apply each_foot'
    | apply ite_foot | simp only [foot_mk] | apply Foot.parts | split | dsimp only)

theorem pauseCtx_foot {x : Nat} (hs : Sub 0x100000000000000000000000000000000000000000000000000010000000000000000000000000 μ) (hk : Foot μ σ τ) : Foot μ σ (τ.pauseCtx x) := by
  unfold State.pauseCtx
  repeat' with_reducible (first
    | assumption | (intro _ _ _) | refine setOp_foot (hs.sub (by decide)) ?_ | refine wr_foot (hs.bit (by decide)) ?_ | apply ite_foot | simp only [foot_mk]
    | apply Foot.parts | split | dsimp only)

theorem resumeCtx_foot {x : Nat} (hs : Sub 0x100000000000000000000000000000000000000000000000000010000000000000000000000000 μ) (hk : Foot μ σ τ) : Foot μ σ (τ.resumeCtx x) := by
  unfold State.resumeCtx
  repeat' with_reducible (first
    | assumption | (intro _ _ _) | refine setOp_foot (hs.sub (by decide)) ?_ | refine wr_foot (hs.bit (by decide)) ?_ | apply ite_foot | simp only [foot_mk]
    | apply Foot.parts | split | dsimp only)

theorem descriptorArrival_foot (hs : Sub 0x7e600000000000000028010c0009701090006fa6c0604000907ff0020000000000000000000000 μ) (hk : Foot μ σ τ) : Foot μ σ (τ.descriptorArrival) := by
  unfold State.descriptorArrival
  repeat' with_reducible (first
    | assumption | (intro _ _ _) | refine work_foot (hs.sub (by decide)) ?_ | apply ite_foot | simp only [foot_mk] | apply Foot.parts
    | refine parts_sched (hs.bit (by decide)) (Foot.parts ?_) | split | dsimp only)

theorem swatchAccept_foot (hs : Sub 0x7e600000000000000028010c0009701090006fa6c0604000907ff0020000000000000000000000 μ) (hk : Foot μ σ τ) : Foot μ σ (τ.swatchAccept) := by
  unfold State.swatchAccept
  repeat' with_reducible (first
    | assumption | (intro _ _ _) | refine work_foot (hs.sub (by decide)) ?_ | apply ite_foot | simp only [foot_mk] | apply Foot.parts
    | refine parts_sched (hs.bit (by decide)) (Foot.parts ?_) | split | dsimp only)

theorem abortSwatch_foot (hs : Sub 0x7e600000000000000028010c0009701090006fa6c0604000907ff0020000000000000000000000 μ) (hk : Foot μ σ τ) : Foot μ σ (τ.abortSwatch) := by
  unfold State.abortSwatch
  repeat' with_reducible (first
    | assumption | (intro _ _ _) | refine dropArrived_foot (hs.sub (by decide)) ?_ | refine dropUndecl_foot (hs.sub (by decide)) ?_ | refine inc_foot (hs.bit (by decide)) ?_ | refine mirrorAll_foot (hs.sub (by decide)) ?_
    | refine work_foot (hs.sub (by decide)) ?_ | apply ite_foot | simp only [foot_mk] | apply Foot.parts | refine parts_sched (hs.bit (by decide)) (Foot.parts ?_) | split
    | dsimp only)

theorem hostAbort_foot {x : Nat} (hs : Sub 0x7e600000000000000028010c0009701090006fa6c0604000907ff0020000000000000000000000 μ) (hk : Foot μ σ τ) : Foot μ σ (τ.hostAbort x) := by
  unfold State.hostAbort
  repeat' with_reducible (first
    | assumption | (intro _ _ _) | refine inc_foot (hs.bit (by decide)) ?_ | refine work_foot (hs.sub (by decide)) ?_ | apply ite_foot | split
    | dsimp only)

theorem endAsked_foot (hs : Sub 0x7e600000000000000028010c0009701090006fa6c0604000907ff0020000000000000000000000 μ) (hk : Foot μ σ τ) : Foot μ σ (τ.endAsked) := by
  unfold State.endAsked
  repeat' with_reducible (first
    | assumption | (intro _ _ _) | refine inc_foot (hs.bit (by decide)) ?_ | refine work_foot (hs.sub (by decide)) ?_ | apply each_foot' | apply ite_foot
    | simp only [foot_mk] | apply Foot.parts | split | dsimp only)

theorem progressTimeout_foot {x : Nat} (hs : Sub 0x7e600000000000000028010c0009701090006fa6c0604000907ff0020000000000000000000000 μ) (hk : Foot μ σ τ) : Foot μ σ (τ.progressTimeout x) := by
  unfold State.progressTimeout
  repeat' with_reducible (first
    | assumption | (intro _ _ _) | refine work_foot (hs.sub (by decide)) ?_ | apply ite_foot | split | dsimp only)

theorem readSpore_foot {k bad : Nat} (hs : Sub 0x800000000000000080000000000000000000000000000000000000000000000000000000000000 μ) (hk : Foot μ σ τ) : Foot μ σ (τ.readSpore k bad).2 := by
  unfold State.readSpore
  repeat' with_reducible (first
    | assumption | (intro _ _ _) | refine readGranule_foot (hs.sub (by decide)) ?_ | refine readGranule_foot_eq (hs.sub (by decide)) ‹_› ?_ | refine readPoison_foot (hs.sub (by decide)) ?_ | apply ite_foot
    | split | dsimp only)

theorem readSpore_foot_eq {k bad : Nat} {y} (hs : Sub 0x800000000000000080000000000000000000000000000000000000000000000000000000000000 μ) (he : τ.readSpore k bad = (y, υ)) (hk : Foot μ σ τ) : Foot μ σ υ := by
  have := readSpore_foot (k := k) (bad := bad) hs hk
  rwa [he] at this

theorem readOrSpore_foot {r : Option (List Byte) × State} {k bad : Nat} (hs : Sub 0x806000000000000083800000000000000000000000000000000000000000000000000000000000 μ) (hk : Foot μ σ r.2) :
    Foot μ σ (readOrSpore r k bad).2 := by
  unfold readOrSpore
  split
  · exact hk
  · exact readSpore_foot (hs.sub (by decide)) hk

theorem readParityOf_foot {t g c j bad : Nat} (hs : Sub 0x806000000000000083800000000000000000000000000000000000000000000000000000000000 μ) (hk : Foot μ σ τ) : Foot μ σ (τ.readParityOf t g c j bad).2 := by
  rw [State.readParityOf.eq_def]
  dsimp only
  split
  · exact readOrSpore_foot hs (gddrRead_foot (hs.sub (by decide)) hk)
  · exact gddrRead_foot (hs.sub (by decide)) hk

theorem readParityOf_foot_eq {t g c j bad : Nat} {y} (hs : Sub 0x806000000000000083800000000000000000000000000000000000000000000000000000000000 μ) (he : τ.readParityOf t g c j bad = (y, υ))
    (hk : Foot μ σ τ) : Foot μ σ υ := by
  have := readParityOf_foot (t := t) (g := g) (c := c) (j := j) (bad := bad) hs hk
  rwa [he] at this

theorem readParity_foot {x c j bad : Nat} (hs : Sub 0x806000000000000083800000000000000000000000000000000000000000000000000000000000 μ) (hk : Foot μ σ τ) : Foot μ σ (τ.readParity x c j bad).2 := by
  unfold State.readParity
  repeat' with_reducible (first
    | assumption | (intro _ _ _) | refine readParityOf_foot (hs.sub (by decide)) ?_ | refine readParityOf_foot_eq (hs.sub (by decide)) ‹_› ?_ | apply ite_foot | simp only [foot_mk]
    | apply Foot.parts | split | dsimp only)

theorem readParity_foot_eq {x c j bad : Nat} {y} (hs : Sub 0x806000000000000083800000000000000000000000000000000000000000000000000000000000 μ) (he : τ.readParity x c j bad = (y, υ)) (hk : Foot μ σ τ) : Foot μ σ υ := by
  have := readParity_foot (x := x) (c := c) (j := j) (bad := bad) hs hk
  rwa [he] at this

theorem unrecoverable_foot {x : Nat} (hs : Sub 0x7e600000000000000028010c0009701090006fa6c0604000907ff0020000000000000000000000 μ) (hk : Foot μ σ τ) : Foot μ σ (τ.unrecoverable x) := by
  unfold State.unrecoverable
  repeat' with_reducible (first
    | assumption | (intro _ _ _) | refine work_foot (hs.sub (by decide)) ?_ | refine wr_foot (hs.bit (by decide)) ?_ | apply ite_foot | simp only [foot_mk]
    | apply Foot.parts | split | dsimp only)

theorem cellUncorr_foot {cell : Nat} (hs : Sub 0x7e600000000000000028010c0009701090006fa6f0604000907ff0020000000000000000000000 μ) (hk : Foot μ σ τ) : Foot μ σ (τ.cellUncorr cell) := by
  unfold State.cellUncorr
  repeat' with_reducible (first
    | assumption | (intro _ _ _) | refine insUncorr_foot (hs.sub (by decide)) ?_ | refine loseEntry_foot (hs.sub (by decide)) ?_ | refine work_foot (hs.sub (by decide)) ?_ | apply each_foot'
    | apply ite_foot | simp only [foot_mk] | apply Foot.parts | refine parts_sched (hs.bit (by decide)) (Foot.parts ?_) | split | dsimp only)

theorem operandArrive_foot {x c r : Nat} {bad : Option Nat} (hs : Sub 0xfe6000000000000083a8010c0009701090006fa6f0604000907ff0020000000000000000000000 μ) (hk : Foot μ σ τ) : Foot μ σ (τ.operandArrive x c r bad) := by
  unfold State.operandArrive
  repeat' with_reducible (first
    | assumption | (intro _ _ _) | refine cellUncorr_foot (hs.sub (by decide)) ?_ | refine countAccess_foot (hs.sub (by decide)) (hs.bit (by decide)) ?_ | refine readParity_foot (hs.sub (by decide)) ?_ | refine readParity_foot_eq (hs.sub (by decide)) ‹_› ?_
    | refine setChunk_foot (hs.sub (by decide)) ?_ | refine unrecoverable_foot (hs.sub (by decide)) ?_ | apply each_foot' | apply ite_foot | simp only [foot_mk] | apply Foot.parts
    | split | dsimp only)

theorem spillServed_foot {d : Nat} (hs : Sub 0x200000000000000000000000000000000000000000000000000000000000000000000000000000 μ) (hk : Foot μ σ τ) : Foot μ σ (τ.spillServed d) := by
  unfold State.spillServed
  repeat' with_reducible (first
    | assumption | (intro _ _ _) | apply ite_foot | simp only [foot_mk] | apply Foot.parts | refine parts_comp (hs.bit (by decide)) (Foot.parts ?_)
    | dsimp only)

theorem spillFetched_foot {x c q : Nat} {bad : Option Nat} (hs : Sub 0x7e6000000000000003a8010c0009701090006fa6c0604000907ff0020000000000000000000000 μ) (hk : Foot μ σ τ) : Foot μ σ (τ.spillFetched x c q bad) := by
  unfold State.spillFetched
  repeat' with_reducible (first
    | assumption | (intro _ _ _) | refine countChannel_foot (hs.sub (by decide)) ?_ | refine exactLoss_foot (hs.sub (by decide)) (hs.bit (by decide)) ?_ | refine gddrUncorr_foot (hs.sub (by decide)) ?_ | refine setChunk_foot (hs.sub (by decide)) ?_
    | refine spillServed_foot (hs.sub (by decide)) ?_ | refine work_foot (hs.sub (by decide)) ?_ | apply each_foot' | apply ite_foot | simp only [foot_mk] | apply Foot.parts
    | split | dsimp only)

theorem spillWritten_foot {x c q : Nat} (hs : Sub 0xa00000000000000002000000000000000000000000000000000000000000000000000000000000 μ) (hk : Foot μ σ τ) : Foot μ σ (τ.spillWritten x c q) := by
  unfold State.spillWritten
  repeat' with_reducible (first
    | assumption | (intro _ _ _) | refine gddrWrite_foot (hs.sub (by decide)) ?_ | refine gddrWrite_foot_eq (hs.sub (by decide)) ‹_› ?_ | refine setChunk_foot (hs.sub (by decide)) ?_ | refine spillServed_foot (hs.sub (by decide)) ?_
    | apply each_foot' | apply ite_foot | simp only [foot_mk] | apply Foot.parts | split | dsimp only)

theorem keepRecord_foot {a : Nat} {l : List Byte} (hs : Sub 0x800000000000000002000000000000000000000000000000000000000000000000000000000000 μ) (hk : Foot μ σ τ) : Foot μ σ (τ.keepRecord a l) := by
  unfold State.keepRecord
  repeat' with_reducible (first
    | assumption | (intro _ _ _) | refine countChannel_foot (hs.sub (by decide)) ?_ | refine setGddr_foot (hs.sub (by decide)) ?_ | apply ite_foot | dsimp only)

theorem syncWarm_foot {x before after : Nat} (hs : Sub 0x100000000000000000000000000000000000000000000000000 μ) (hk : Foot μ σ τ) : Foot μ σ (τ.syncWarm x before after) := by
  unfold State.syncWarm
  repeat' with_reducible (first
    | assumption | (intro _ _ _) | refine inc_foot (hs.bit (by decide)) ?_ | refine wr_foot (hs.bit (by decide)) ?_ | apply ite_foot | split
    | dsimp only)

theorem recordArrive_foot {x c : Nat} {bad : Bool} (hs : Sub 0x206000000000000003800002000100001000000000000000000000000000000000000000000000 μ) (hk : Foot μ σ τ) : Foot μ σ (τ.recordArrive x c bad) := by
  unfold State.recordArrive
  repeat' with_reducible (first
    | assumption | (intro _ _ _) | refine exactLoss_foot (hs.sub (by decide)) (hs.bit (by decide)) ?_ | refine gddrRead_foot (hs.sub (by decide)) ?_ | refine gddrRead_foot_eq (hs.sub (by decide)) ‹_› ?_ | refine inc_foot (hs.bit (by decide)) ?_
    | refine raise_foot (hs.sub (by decide)) ?_ | refine setChunk_foot (hs.sub (by decide)) ?_ | apply ite_foot | simp only [foot_mk] | apply Foot.parts | split
    | dsimp only)

theorem releasePartials_foot {t j : Nat} (hs : Sub 0x36600000000000000000000000000000000067a600000000000000000000000000000000000000 μ) (hk : Foot μ σ τ) : Foot μ σ (τ.releasePartials t j) := by
  unfold State.releasePartials
  repeat' with_reducible (first
    | assumption | (intro _ _ _) | refine sendPartials_foot (hs.sub (by decide)) ?_ | apply each_foot' | apply ite_foot | simp only [foot_mk]
    | apply Foot.parts | refine parts_sched (hs.bit (by decide)) (parts_comp (hs.bit (by decide)) (Foot.parts ?_)) | split | dsimp only)

theorem withdrawOpp_foot {t j : Nat} (hs : Sub 0x240000000000000000000000000000000000000000000000000000000000000000000000000000 μ) (hk : Foot μ σ τ) : Foot μ σ (τ.withdrawOpp t j) := by
  unfold State.withdrawOpp
  repeat' with_reducible (first
    | assumption | (intro _ _ _) | apply each_foot' | apply ite_foot | simp only [foot_mk] | apply Foot.parts
    | refine parts_sched (hs.bit (by decide)) (parts_comp (hs.bit (by decide)) (Foot.parts ?_)) | dsimp only)

theorem withdrawPartials_foot {t j : Nat} (hs : Sub 0x240000000000000000000000000000000000000000000000000000000000000000000000000000 μ) (hk : Foot μ σ τ) : Foot μ σ (τ.withdrawPartials t j) := by
  unfold State.withdrawPartials
  repeat' with_reducible (first
    | assumption | (intro _ _ _) | apply ite_foot | simp only [foot_mk] | apply Foot.parts | refine parts_sched (hs.bit (by decide)) (parts_comp (hs.bit (by decide)) (Foot.parts ?_))
    | dsimp only)

theorem spineHold_foot (hs : Sub 0x36e00000000000000000000000000000100067a600140000000000000000000000400000000000 μ) (hk : Foot μ σ τ) : Foot μ σ (τ.spineHold) := by
  unfold State.spineHold
  repeat' with_reducible (first
    | assumption | (intro _ _ _) | refine dropObj_foot (hs.sub (by decide)) ?_ | refine freeze_foot (hs.sub (by decide)) ?_ | refine releasePartials_foot (hs.sub (by decide)) ?_ | refine setHold_foot (hs.sub (by decide)) ?_
    | refine withdrawOpp_foot (hs.sub (by decide)) ?_ | refine withdrawPartials_foot (hs.sub (by decide)) ?_ | apply ite_foot | simp only [foot_mk] | apply Foot.parts | refine parts_sched (hs.bit (by decide)) (parts_comp (hs.bit (by decide)) (Foot.parts ?_))
    | split | dsimp only)

theorem allocAll_foot {a r : Nat} {l : List Item} {y} (hs : Sub 0x2600000000000000000000000000000000007a600000000000000000000000000000000000000 μ) (he : τ.allocAll a r l = some y) (hk : Foot μ σ τ) :
    Foot μ σ y.2 := by
  induction l generalizing τ y with
  | nil => simp only [State.allocAll, Option.some.injEq] at he; exact he ▸ hk
  | cons i l ih =>
    rw [State.allocAll] at he
    split at he
    · cases he
    · next p s hx =>
      obtain ⟨z, hz, rfl⟩ := Option.map_eq_some_iff.mp he
      exact ih (y := z) hz (allocNow_foot_eq (hs.sub (by decide)) hx hk)

theorem updateRecord_foot {x c : Nat} {r : NumRec} {out : RootOut} {ev : ChunkEv} {die : Nat} (hs : Sub 0x806000000000000002000000410100000000000000000000000000000000000000000000000000 μ) (hk : Foot μ σ τ) : Foot μ σ (τ.updateRecord x c r out ev die) := by
  unfold State.updateRecord
  repeat' with_reducible (first
    | assumption | (intro _ _ _) | refine gddrWrite_foot (hs.sub (by decide)) ?_ | refine gddrWrite_foot_eq (hs.sub (by decide)) ‹_› ?_ | refine inc_foot (hs.bit (by decide)) ?_ | refine raise_foot (hs.sub (by decide)) ?_
    | refine syncWarm_foot (hs.sub (by decide)) ?_ | refine wr_foot (hs.bit (by decide)) ?_ | apply ite_foot | split | dsimp only)

theorem countEvents_foot {x : Nat} {ev : ChunkEv} (hs : Sub 0xf000000000000000000000000010000000000000000000000000 μ) (hk : Foot μ σ τ) : Foot μ σ (τ.countEvents x ev) := by
  unfold State.countEvents
  repeat' with_reducible (first
    | assumption | (intro _ _ _) | refine inc_foot (hs.bit (by decide)) ?_ | refine wr_foot (hs.bit (by decide)) ?_ | apply ite_foot | split
    | dsimp only)

theorem releaseInputs_foot {x c : Nat} {ch : Chunk} {errs : Option (List UlpErr)} {outCells : Nat} (hs : Sub 0x32600000000000000000000100000000000007a600000000000000000000000000000000000000 μ) (hk : Foot μ σ τ) : Foot μ σ (τ.releaseInputs x c ch errs outCells) := by
  unfold State.releaseInputs
  repeat' with_reducible (first
    | assumption | (intro _ _ _) | refine dropArrived_foot (hs.sub (by decide)) ?_ | refine inc_foot (hs.bit (by decide)) ?_ | refine setOp_foot (hs.sub (by decide)) ?_ | apply each_foot'
    | apply foldl_foot_fst | apply foldl_foot_snd | refine foldl_foot_fst_eq ‹_› ?_ ?_ | refine foldl_foot_snd_eq ‹_› ?_ ?_ | apply ite_foot | simp only [foot_mk]
    | apply Foot.parts | refine parts_comp (hs.bit (by decide)) (Foot.parts ?_) | split | dsimp only)

theorem epochCommitted_foot {t : Nat} (hs : Sub 0x400000000000000000080008000000000000000000000000000000000000000000000000000000 μ) (hk : Foot μ σ τ) : Foot μ σ (τ.epochCommitted t) := by
  unfold State.epochCommitted
  repeat' with_reducible (first
    | assumption | (intro _ _ _) | refine setSpore_foot (hs.sub (by decide)) ?_ | refine wr_foot (hs.bit (by decide)) ?_ | apply foldl_foot_fst | apply foldl_foot_snd
    | refine foldl_foot_fst_eq ‹_› ?_ ?_ | refine foldl_foot_snd_eq ‹_› ?_ ?_ | apply ite_foot | simp only [foot_mk] | apply Foot.parts | split
    | dsimp only)

theorem markCommitted_foot {x c : Nat} {ch : Chunk} (hs : Sub 0x100000000000000000000000000000000000000000000020000000000000000000000000000000 μ) (hk : Foot μ σ τ) : Foot μ σ (τ.markCommitted x c ch) := by
  unfold State.markCommitted
  repeat' with_reducible (first
    | assumption | (intro _ _ _) | refine inc_foot (hs.bit (by decide)) ?_ | refine setOp_foot (hs.sub (by decide)) ?_ | apply ite_foot | simp only [foot_mk]
    | apply Foot.parts | dsimp only)

theorem commitEpoch_foot {x c : Nat} {ch : Chunk} {res : List Elem} {g : Nat} (hs : Sub 0xfe600000000000000228010d0009701090006fa6c0604020907ff0020000000000000000000000 μ) (hk : Foot μ σ τ) : Foot μ σ (τ.commitEpoch x c ch res g) := by
  unfold State.commitEpoch
  repeat' with_reducible (first
    | assumption | (intro _ _ _) | refine allocNow_foot (hs.sub (by decide)) ?_ | refine allocNow_foot_eq (hs.sub (by decide)) ‹_› ?_ | refine countBlock_foot (hs.sub (by decide)) ?_ | refine dropChunk_foot (hs.sub (by decide)) ?_
    | refine epochCommitted_foot (hs.sub (by decide)) ?_ | refine freeObj_foot (hs.sub (by decide)) ?_ | refine gddrWrite_foot (hs.sub (by decide)) ?_ | refine gddrWrite_foot_eq (hs.sub (by decide)) ‹_› ?_ | refine markCommitted_foot (hs.sub (by decide)) ?_ | refine releaseInputs_foot (hs.sub (by decide)) ?_
    | refine setOp_foot (hs.sub (by decide)) ?_ | refine sporeWrite_foot (hs.sub (by decide)) ?_ | refine work_foot (hs.sub (by decide)) ?_ | apply each_foot' | apply foldl_foot_fst | apply foldl_foot_snd
    | refine foldl_foot_fst_eq ‹_› ?_ ?_ | refine foldl_foot_snd_eq ‹_› ?_ ?_ | apply ite_foot | simp only [foot_mk] | apply Foot.parts | split
    | dsimp only)

theorem pushShard_foot {x rank ptr die : Nat} {data : List Byte} (hs : Sub 0x1600000000000000000000000000000000004000c0000000000000000000000000000000000000 μ) (hk : Foot μ σ τ) : Foot μ σ (τ.pushShard x rank ptr die data) := by
  unfold State.pushShard
  repeat' with_reducible (first
    | assumption | (intro _ _ _) | refine addRefs_foot (hs.sub (by decide)) ?_ | refine countWrite_foot (hs.sub (by decide)) ?_ | apply fresh_foot | refine fresh_foot_eq ‹_› ?_
    | refine pushVoq_foot (hs.sub (by decide)) ?_ | refine setOp_foot (hs.sub (by decide)) ?_ | apply ite_foot | simp only [foot_mk] | apply Foot.parts | split
    | dsimp only)

theorem commitRegrow_foot {x c : Nat} {ch : Chunk} {res : List Elem} {g : Nat} (hs : Sub 0x7e600000000000000028010d0009701090006fa6c0604020907ff0020000000000000000000000 μ) (hk : Foot μ σ τ) : Foot μ σ (τ.commitRegrow x c ch res g) := by
  unfold State.commitRegrow
  repeat' with_reducible (first
    | assumption | (intro _ _ _) | refine dropChunk_foot (hs.sub (by decide)) ?_ | refine markCommitted_foot (hs.sub (by decide)) ?_ | refine pushShard_foot (hs.sub (by decide)) ?_ | refine releaseInputs_foot (hs.sub (by decide)) ?_
    | refine work_foot (hs.sub (by decide)) ?_ | refine allocAll_foot (y := (_, _)) (hs.sub (by decide)) ‹_› ?_ | apply each_foot' | apply ite_foot | simp only [foot_mk] | apply Foot.parts
    | split | dsimp only)

theorem commitPartial_foot {x c : Nat} {ch : Chunk} {res : List Elem} (hs : Sub 0x7e600000000000000028010d00f9701090006fa6c0604020907ff0020000000000000000000000 μ) (hk : Foot μ σ τ) : Foot μ σ (τ.commitPartial x c ch res) := by
  unfold State.commitPartial
  repeat' with_reducible (first
    | assumption | (intro _ _ _) | refine countAccess_foot (hs.sub (by decide)) (hs.bit (by decide)) ?_ | refine countEvents_foot (hs.sub (by decide)) ?_ | refine dropChunk_foot (hs.sub (by decide)) ?_ | refine markCommitted_foot (hs.sub (by decide)) ?_
    | refine releaseInputs_foot (hs.sub (by decide)) ?_ | refine sendPartials_foot (hs.sub (by decide)) ?_ | refine setOp_foot (hs.sub (by decide)) ?_ | refine work_foot (hs.sub (by decide)) ?_ | refine allocAll_foot (y := (_, _)) (hs.sub (by decide)) ‹_› ?_ | apply each_foot'
    | apply foldl_foot_fst | apply foldl_foot_snd | refine foldl_foot_fst_eq ‹_› ?_ ?_ | refine foldl_foot_snd_eq ‹_› ?_ ?_ | apply ite_foot | simp only [foot_mk]
    | apply Foot.parts | refine parts_comp (hs.bit (by decide)) (Foot.parts ?_) | split | dsimp only)

theorem commitResult_foot {x c : Nat} {ch : Chunk} {res : List Elem} (hs : Sub 0xfe600000000000000228010d41f9701090006fa6c0604020907ff0020000000000000000000000 μ) (hk : Foot μ σ τ) : Foot μ σ (τ.commitResult x c ch res) := by
  unfold State.commitResult
  repeat' with_reducible (first
    | assumption | (intro _ _ _) | refine countAccess_foot (hs.sub (by decide)) (hs.bit (by decide)) ?_ | refine countEvents_foot (hs.sub (by decide)) ?_ | refine dropChunk_foot (hs.sub (by decide)) ?_ | refine dropWarm_foot (hs.sub (by decide)) ?_
    | refine markCommitted_foot (hs.sub (by decide)) ?_ | refine multicast_foot (hs.sub (by decide)) ?_ | refine releaseInputs_foot (hs.sub (by decide)) ?_ | refine setChunk_foot (hs.sub (by decide)) ?_ | refine setOp_foot (hs.sub (by decide)) ?_ | refine updateRecord_foot (hs.sub (by decide)) ?_
    | refine work_foot (hs.sub (by decide)) ?_ | refine wr_foot (hs.bit (by decide)) ?_ | refine allocAll_foot (y := (_, _)) (hs.sub (by decide)) ‹_› ?_ | apply each_foot' | apply foldl_foot_fst | apply foldl_foot_snd
    | refine foldl_foot_fst_eq ‹_› ?_ ?_ | refine foldl_foot_snd_eq ‹_› ?_ ?_ | apply ite_foot | simp only [foot_mk] | apply Foot.parts | split
    | dsimp only)

theorem chunkCommit_foot {x c : Nat} (hs : Sub 0xfe600000000000000228010d41f9701090006fa6c0604020907ff0020000000000000000000000 μ) (hk : Foot μ σ τ) : Foot μ σ (τ.chunkCommit x c) := by
  unfold State.chunkCommit
  repeat' with_reducible (first
    | assumption | (intro _ _ _) | refine commitEpoch_foot (hs.sub (by decide)) ?_ | refine commitPartial_foot (hs.sub (by decide)) ?_ | refine commitRegrow_foot (hs.sub (by decide)) ?_ | refine commitResult_foot (hs.sub (by decide)) ?_
    | apply ite_foot | simp only [foot_mk] | apply Foot.parts | split | dsimp only)

theorem setMonitor_foot {d : Nat} {m : Monitor} (hs : Sub 0x200000000000000000000000000000000000000000000000000000000000000000000000000000 μ) (hk : Foot μ σ τ) : Foot μ σ (τ.setMonitor d m) := by
  unfold State.setMonitor
  repeat' with_reducible (first
    | assumption | (intro _ _ _) | apply ite_foot | simp only [foot_mk] | apply Foot.parts | refine parts_comp (hs.bit (by decide)) (Foot.parts ?_)
    | dsimp only)

theorem monitorRead_foot {d : Nat} (hs : Sub 0x22600000000000000000000000000000000007a640000000000000000000000000000000000000 μ) (hk : Foot μ σ τ) : Foot μ σ (τ.monitorRead d) := by
  unfold State.monitorRead
  repeat' with_reducible (first
    | assumption | (intro _ _ _) | refine countAccess_foot (hs.sub (by decide)) (hs.bit (by decide)) ?_ | refine dropArrived_foot (hs.sub (by decide)) ?_ | refine setMonitor_foot (hs.sub (by decide)) ?_ | apply each_foot'
    | apply ite_foot | simp only [foot_mk] | apply Foot.parts | split | dsimp only)

theorem shadowComplete_foot {d : Nat} (hs : Sub 0x206000000000000000000001860000000000000000000000000000000000000000000000000000 μ) (hk : Foot μ σ τ) : Foot μ σ (τ.shadowComplete d) := by
  unfold State.shadowComplete
  repeat' with_reducible (first
    | assumption | (intro _ _ _) | refine inc_foot (hs.bit (by decide)) ?_ | refine raise_foot (hs.sub (by decide)) ?_ | refine setMonitor_foot (hs.sub (by decide)) ?_ | refine wr_foot (hs.bit (by decide)) ?_
    | apply foldl_foot_fst | apply foldl_foot_snd | refine foldl_foot_fst_eq ‹_› ?_ ?_ | refine foldl_foot_snd_eq ‹_› ?_ ?_ | apply ite_foot | simp only [foot_mk]
    | apply Foot.parts | split | dsimp only)

theorem putPlacement_foot {x : Nat} {ps : List Placement} (hs : Sub 0x106000000000000000000000000000000000000000000000060000000000000000000000000000 μ) (hk : Foot μ σ τ) : Foot μ σ (τ.putPlacement x ps) := by
  unfold State.putPlacement
  repeat' with_reducible (first
    | assumption | (intro _ _ _) | refine inc_foot (hs.bit (by decide)) ?_ | refine raise_foot (hs.sub (by decide)) ?_ | refine setOp_foot (hs.sub (by decide)) ?_ | apply ite_foot
    | simp only [foot_mk] | apply Foot.parts | split | dsimp only)

theorem sendReports_foot {x : Nat} {rs : List Nat} (hs : Sub 0x16600000000000000000000000000000000067a6c0000000000000000000000000000000000000 μ) (hk : Foot μ σ τ) : Foot μ σ (τ.sendReports x rs) := by
  unfold State.sendReports
  repeat' with_reducible (first
    | assumption | (intro _ _ _) | refine output_foot (hs.sub (by decide)) ?_ | apply each_foot' | apply ite_foot | dsimp only)

theorem exchangePlacement_foot {x : Nat} (hs : Sub 0x7e600000000000000028010c0009701090006fa6c06040009e7ff0020000000000000000000000 μ) (hk : Foot μ σ τ) : Foot μ σ (τ.exchangePlacement x) := by
  unfold State.exchangePlacement
  repeat' with_reducible (first
    | assumption | (intro _ _ _) | apply mark_foot | refine putPlacement_foot (hs.sub (by decide)) ?_ | refine sendReports_foot (hs.sub (by decide)) ?_ | refine work_foot (hs.sub (by decide)) ?_
    | refine wr_foot (hs.bit (by decide)) ?_ | apply foldl_foot_fst | apply foldl_foot_snd | refine foldl_foot_fst_eq ‹_› ?_ ?_ | refine foldl_foot_snd_eq ‹_› ?_ ?_ | apply ite_foot
    | split | dsimp only)

theorem replace_foot {x : Nat} (hs : Sub 0x16600000000000000000000000000000000067a6c0000000060000000000000000000000000000 μ) (hk : Foot μ σ τ) : Foot μ σ (τ.replace x) := by
  unfold State.replace
  repeat' with_reducible (first
    | assumption | (intro _ _ _) | refine putPlacement_foot (hs.sub (by decide)) ?_ | refine sendReports_foot (hs.sub (by decide)) ?_ | refine uncount_foot (hs.bit (by decide)) ?_ | apply ite_foot
    | simp only [foot_mk] | apply Foot.parts | refine parts_flt (hs.bit (by decide)) (parts_bpm (hs.bit (by decide)) (Foot.parts ?_)) | split | dsimp only)

theorem endPlacements_foot (hs : Sub 0x7e600000000000000028010c0009701090006fa6c0604000967ff0020000000000000000000000 μ) (hk : Foot μ σ τ) : Foot μ σ (τ.endPlacements) := by
  unfold State.endPlacements
  repeat' with_reducible (first
    | assumption | (intro _ _ _) | refine freeSettled_foot (hs.sub (by decide)) ?_ | refine replace_foot (hs.sub (by decide)) ?_ | refine work_foot (hs.sub (by decide)) ?_ | apply each_foot'
    | apply ite_foot | simp only [foot_mk] | apply Foot.parts | split | dsimp only)

theorem exchangeAssemble_foot {x d k : Nat} (hs : Sub 0x7e600000000000000028010c0009701090006fa6c0604000907ff0020000000000000000000000 μ) (hk : Foot μ σ τ) : Foot μ σ (τ.exchangeAssemble x d k) := by
  unfold State.exchangeAssemble
  repeat' with_reducible (first
    | assumption | (intro _ _ _) | refine freeSettled_foot (hs.sub (by decide)) ?_ | refine output_foot (hs.sub (by decide)) ?_ | refine setOp_foot (hs.sub (by decide)) ?_ | refine work_foot (hs.sub (by decide)) ?_
    | apply ite_foot | simp only [foot_mk] | apply Foot.parts | split | dsimp only)

end Sys2Proof.Machine
end

