-- ==== Sys2Proof/Laws/FootRecovery.lean ====
section
/-!
SUPPORT. Which registers and parts of the state the operations of Discovery, Spore may change (`Foot`).
-/

namespace Sys2Proof.Machine

set_option Elab.async false
set_option linter.unusedTactic false
set_option linter.unreachableTactic false
set_option linter.unusedSimpArgs false
set_option linter.unusedVariables false

variable {μ : Nat} {σ τ υ : State}

theorem setSlave_foot {p : Option Nat} (hs : Sub 0x10000000000000000000000000000000000000000000000000000000080000000000000000000 μ) (hk : Foot μ σ τ) : Foot μ σ (τ.setSlave p) := by
  unfold State.setSlave
  repeat' with_reducible (first
    | assumption | (intro _ _ _) | refine wr_foot (hs.bit (by decide)) ?_ | apply ite_foot | simp only [foot_mk] | apply Foot.parts
    | refine parts_link (hs.bit (by decide)) (Foot.parts ?_) | dsimp only)

theorem syncTime_foot (hs : Sub 0x10000000000000000000000000000000000000000000000000000000080000000000000000000 μ) (hk : Foot μ σ τ) : Foot μ σ (τ.syncTime) := by
  unfold State.syncTime
  repeat' with_reducible (first
    | assumption | (intro _ _ _) | refine setSlave_foot (hs.sub (by decide)) ?_ | refine wr_foot (hs.bit (by decide)) ?_ | apply ite_foot | simp only [foot_mk]
    | apply Foot.parts | split | dsimp only)

theorem setTimePs_foot {t : Int} (hs : Sub 0x10000000000000000000000000000000000000000000000000000000040000000000000000000 μ) (hk : Foot μ σ τ) : Foot μ σ (τ.setTimePs t) := by
  unfold State.setTimePs
  repeat' with_reducible (first
    | assumption | (intro _ _ _) | refine wr_foot (hs.bit (by decide)) ?_ | apply ite_foot | simp only [foot_mk] | apply Foot.parts
    | refine parts_link (hs.bit (by decide)) (Foot.parts ?_) | dsimp only)

theorem steer_foot (hs : Sub 0x10000000000000000000000000000000000000000000000000000000000000000000000001000 μ) (hk : Foot μ σ τ) : Foot μ σ (τ.steer) := by
  unfold State.steer
  repeat' with_reducible (first
    | assumption | (intro _ _ _) | apply fresh_foot | refine fresh_foot_eq ‹_› ?_ | refine wr_foot (hs.bit (by decide)) ?_ | apply ite_foot
    | simp only [foot_mk] | apply Foot.parts | refine parts_link (hs.bit (by decide)) (Foot.parts ?_) | split | dsimp only)

theorem takeSync_foot {p : Nat} {t1 t2 : Int} (hs : Sub 0x160000000000000000000000000000000000000000000000000000001c0000000000000001000 μ) (hk : Foot μ σ τ) : Foot μ σ (τ.takeSync p t1 t2) := by
  unfold State.takeSync
  repeat' with_reducible (first
    | assumption | (intro _ _ _) | refine raise_foot (hs.sub (by decide)) ?_ | refine setTimePs_foot (hs.sub (by decide)) ?_ | refine steer_foot (hs.sub (by decide)) ?_ | refine wr_foot (hs.bit (by decide)) ?_
    | apply ite_foot | simp only [foot_mk] | apply Foot.parts | refine parts_link (hs.bit (by decide)) (Foot.parts ?_) | split | dsimp only)

theorem sendTime_foot {p : Nat} {m : TimeMsg} (hs : Sub 0x0 μ) (hk : Foot μ σ τ) : Foot μ σ (τ.sendTime p m) := by
  unfold State.sendTime
  repeat' with_reducible (first
    | assumption | (intro _ _ _) | apply emit_foot | apply ite_foot | dsimp only)

theorem takeDelay_foot {p rx sent : Nat} {m : TimeMsg} (hs : Sub 0x50000000000000000000000000000000000000000000000000000000000200000000000000000 μ) (hk : Foot μ σ τ) : Foot μ σ (τ.takeDelay p rx sent m) := by
  unfold State.takeDelay
  repeat' with_reducible (first
    | assumption | (intro _ _ _) | refine setPort_foot (hs.sub (by decide)) ?_ | refine wr_foot (hs.bit (by decide)) ?_ | apply foldl_foot_fst | apply foldl_foot_snd
    | refine foldl_foot_fst_eq ‹_› ?_ ?_ | refine foldl_foot_snd_eq ‹_› ?_ ?_ | apply ite_foot | simp only [foot_mk] | apply Foot.parts | dsimp only)

theorem timeBlock_foot {p rx : Nat} (hs : Sub 0x560000000000000000000000000000000000000000000000000000001c0200000000000001000 μ) (hk : Foot μ σ τ) : Foot μ σ (τ.timeBlock p rx) := by
  unfold State.timeBlock
  repeat' with_reducible (first
    | assumption | (intro _ _ _) | refine sendTime_foot (hs.sub (by decide)) ?_ | refine setPort_foot (hs.sub (by decide)) ?_ | refine syncTime_foot (hs.sub (by decide)) ?_ | refine takeCtl_foot (hs.sub (by decide)) ‹_› ?_
    | refine takeDelay_foot (hs.sub (by decide)) ?_ | refine takeSync_foot (hs.sub (by decide)) ?_ | apply ite_foot | simp only [foot_mk] | apply Foot.parts | split
    | dsimp only)

theorem syncSend_foot {p : Nat} (hs : Sub 0x10000000000000000000000000000000000000000000000000000000000000000000000000000 μ) (hk : Foot μ σ τ) : Foot μ σ (τ.syncSend p) := by
  unfold State.syncSend
  repeat' with_reducible (first
    | assumption | (intro _ _ _) | refine sendTime_foot (hs.sub (by decide)) ?_ | refine setPort_foot (hs.sub (by decide)) ?_ | apply ite_foot | simp only [foot_mk]
    | apply Foot.parts | split | dsimp only)

theorem pdelaySend_foot {p : Nat} (hs : Sub 0x10000000000000000000000000000000000000000000000000000000000000000000000000000 μ) (hk : Foot μ σ τ) : Foot μ σ (τ.pdelaySend p) := by
  unfold State.pdelaySend
  repeat' with_reducible (first
    | assumption | (intro _ _ _) | refine sendTime_foot (hs.sub (by decide)) ?_ | refine setPort_foot (hs.sub (by decide)) ?_ | apply ite_foot | simp only [foot_mk]
    | apply Foot.parts | split | dsimp only)

theorem syncLoss_foot (hs : Sub 0x16000000000000000000000000000000000000000000000000000000080000000000000000000 μ) (hk : Foot μ σ τ) : Foot μ σ (τ.syncLoss) := by
  unfold State.syncLoss
  repeat' with_reducible (first
    | assumption | (intro _ _ _) | refine inc_foot (hs.bit (by decide)) ?_ | refine raise_foot (hs.sub (by decide)) ?_ | refine setSlave_foot (hs.sub (by decide)) ?_ | refine wr_foot (hs.bit (by decide)) ?_
    | apply ite_foot | simp only [foot_mk] | apply Foot.parts | split | dsimp only)

theorem writeTime_foot {ns : Nat} (hs : Sub 0x10000000000000000000000000000000000000000000000000000000040000000000000000000 μ) (hk : Foot μ σ τ) : Foot μ σ (τ.writeTime ns) := by
  unfold State.writeTime
  repeat' with_reducible (first
    | assumption | (intro _ _ _) | refine wr_foot (hs.bit (by decide)) ?_ | apply ite_foot | simp only [foot_mk] | apply Foot.parts
    | refine parts_link (hs.bit (by decide)) (Foot.parts ?_) | split | dsimp only)

theorem identSend_foot {p : Nat} (hs : Sub 0x10000000000000000000000000000000000000000000000000000000000000000000000000000 μ) (hk : Foot μ σ τ) : Foot μ σ (τ.identSend p) := by
  unfold State.identSend
  repeat' with_reducible (first
    | assumption | (intro _ _ _) | apply emit_foot | refine setPort_foot (hs.sub (by decide)) ?_ | apply ite_foot | simp only [foot_mk]
    | apply Foot.parts | split | dsimp only)

theorem moveToOpp_foot {b : Nat} (hs : Sub 0x40000000000000000000000000000000000000000000000000000000000000000000000000000 μ) (hk : Foot μ σ τ) : Foot μ σ (τ.moveToOpp b) := by
  unfold State.moveToOpp
  repeat' with_reducible (first
    | assumption | (intro _ _ _) | apply each_foot' | apply ite_foot | simp only [foot_mk] | apply Foot.parts
    | refine parts_sched (hs.bit (by decide)) (Foot.parts ?_) | split | dsimp only)

theorem syncOpp_foot {p : Nat} (hs : Sub 0x40000000000000000000000000000000004000000000000000000000000000200000000000000 μ) (hk : Foot μ σ τ) : Foot μ σ (τ.syncOpp p) := by
  unfold State.syncOpp
  repeat' with_reducible (first
    | assumption | (intro _ _ _) | refine moveToOpp_foot (hs.sub (by decide)) ?_ | refine wr_foot (hs.bit (by decide)) ?_ | apply ite_foot | split
    | dsimp only)

theorem conclude_foot {p o : Nat} (hs : Sub 0x17e000000000001000000000000002c01095d7a640000000000000044a00100200400000000000 μ) (hk : Foot μ σ τ) : Foot μ σ (τ.conclude p o) := by
  unfold State.conclude
  repeat' with_reducible (first
    | assumption | (intro _ _ _) | refine hwFence_foot (hs.sub (by decide)) ?_ | refine raise_foot (hs.sub (by decide)) ?_ | refine setOutcome_foot (hs.sub (by decide)) ?_ | refine setPort_foot (hs.sub (by decide)) ?_
    | refine syncDiscSum_foot (hs.sub (by decide)) ?_ | refine syncOpp_foot (hs.sub (by decide)) ?_ | refine wr_foot (hs.bit (by decide)) ?_ | apply ite_foot | simp only [foot_mk] | apply Foot.parts
    | split | dsimp only)

theorem negotiate_foot {p : Nat} (hs : Sub 0x17e000000000001000000000000002c01095d7a640000000000000044a00100300400000000000 μ) (hk : Foot μ σ τ) : Foot μ σ (τ.negotiate p) := by
  unfold State.negotiate
  repeat' with_reducible (first
    | assumption | (intro _ _ _) | refine conclude_foot (hs.sub (by decide)) ?_ | refine wr_foot (hs.bit (by decide)) ?_ | apply ite_foot | simp only [foot_mk]
    | apply Foot.parts | split | dsimp only)

theorem takeIdentity_foot {p : Nat} {id : List Byte} (hs : Sub 0x17e000000000001000000000000002c01095d7a640000000000000044a00900b00400000000000 μ) (hk : Foot μ σ τ) : Foot μ σ (τ.takeIdentity p id) := by
  unfold State.takeIdentity
  repeat' with_reducible (first
    | assumption | (intro _ _ _) | refine negotiate_foot (hs.sub (by decide)) ?_ | refine realign_foot (hs.sub (by decide)) ?_ | refine setPort_foot (hs.sub (by decide)) ?_ | refine wr_foot (hs.bit (by decide)) ?_
    | apply each_foot' | apply ite_foot | simp only [foot_mk] | apply Foot.parts | split | dsimp only)

theorem identBlock_foot {p : Nat} (hs : Sub 0x17e000000000001000000000000002c01095d7a640000000000000044a00900b00400000000000 μ) (hk : Foot μ σ τ) : Foot μ σ (τ.identBlock p) := by
  unfold State.identBlock
  repeat' with_reducible (first
    | assumption | (intro _ _ _) | refine setPort_foot (hs.sub (by decide)) ?_ | refine takeCtl_foot (hs.sub (by decide)) ‹_› ?_ | refine takeIdentity_foot (hs.sub (by decide)) ?_ | apply ite_foot
    | simp only [foot_mk] | apply Foot.parts | split | dsimp only)

theorem negotiationTimeout_foot {p : Nat} (hs : Sub 0x17e000000000001000000000000002c01095d7a640000000000000044a00100200400000000000 μ) (hk : Foot μ σ τ) : Foot μ σ (τ.negotiationTimeout p) := by
  unfold State.negotiationTimeout
  repeat' with_reducible (first
    | assumption | (intro _ _ _) | refine conclude_foot (hs.sub (by decide)) ?_ | apply ite_foot | simp only [foot_mk] | apply Foot.parts
    | split | dsimp only)

theorem takeOutcomes_foot (hs : Sub 0x17e000000000001000000000000002c01095d7a640000000000000044a00100200400000000000 μ) (hk : Foot μ σ τ) : Foot μ σ (τ.takeOutcomes) := by
  unfold State.takeOutcomes
  repeat' with_reducible (first
    | assumption | (intro _ _ _) | refine conclude_foot (hs.sub (by decide)) ?_ | apply mark_foot | refine setOutcome_foot (hs.sub (by decide)) ?_ | apply each_foot'
    | apply ite_foot | split | dsimp only)

theorem forgetExpected_foot (hs : Sub 0x48000000000001000000000000000000000000000000000000000040a00000200400000000000 μ) (hk : Foot μ σ τ) : Foot μ σ (τ.forgetExpected) := by
  unfold State.forgetExpected
  repeat' with_reducible (first
    | assumption | (intro _ _ _) | refine setOutcome_foot (hs.sub (by decide)) ?_ | apply each_foot' | apply ite_foot | split
    | dsimp only)

/-- Every listed window has a window's key. -/
theorem mem_winsOf {mine : Nat → Bool} {e : Key × Option Nat} (h : e ∈ τ.winsOf mine) :
    ∃ lo i j, e.1 = [Reg.SCH_WIN.ctorIdx, lo, i, j] := by
  unfold State.winsOf at h
  rw [List.mem_filter] at h
  have hm := h.2
  split at hm
  · next r lo i j he =>
    simp only [Bool.and_eq_true, beq_iff_eq] at hm
    exact ⟨lo, i, j, by rw [he, hm.1.1]⟩
  · cases hm

theorem setWin_foot {lo i j : Nat} {v : Option Nat} (hb : μ.testBit Reg.SCH_WIN.ctorIdx = true) (hk : Foot μ σ τ) :
    Foot μ σ { τ with regs := τ.regs.set [Reg.SCH_WIN.ctorIdx, lo, i, j] v } := by
  refine foot_mk.mpr (parts_regs (fun q lo' i' j' _ hq => ?_) hk.parts)
  refine SMap.get_set_ne _ ?_ _
  intro he
  simp only [List.cons.injEq] at he
  rw [he.1, hb] at hq
  cases hq

theorem dropWins_foot {mine : Nat → Bool} (hs : Sub 0x2000000000000000000000000000000000000000000 μ) (hk : Foot μ σ τ) : Foot μ σ (τ.dropWins (υ.winsOf mine)) := by
  refine each_foot_mem hk (fun u e he h => ?_)
  obtain ⟨lo, i, j, hw⟩ := mem_winsOf he
  rw [hw]
  exact setWin_foot (hs.bit (by decide)) h

theorem moveWins_foot {mine : Nat → Bool} {target : Nat → Nat} (hs : Sub 0x2000000000000000000000000000000000000000000 μ) (hk : Foot μ σ τ) :
    Foot μ σ (τ.moveWins (υ.winsOf mine) target) := by
  refine each_foot_mem (dropWins_foot hs hk) (fun u e he h => ?_)
  obtain ⟨lo, i, j, hw⟩ := mem_winsOf he
  rw [hw]
  exact setWin_foot (hs.bit (by decide)) h

theorem remapDo_foot {ps : List Nat} (hs : Sub 0x17e000000000001000000000000002c01097d7a640000000000000044a00100200400000000000 μ) (hk : Foot μ σ τ) : Foot μ σ (τ.remapDo ps) := by
  unfold State.remapDo
  repeat' with_reducible (first
    | assumption | (intro _ _ _) | apply mark_foot | refine moveWins_foot (hs.sub (by decide)) ?_ | refine setOutcome_foot (hs.sub (by decide)) ?_ | refine syncDiscSum_foot (hs.sub (by decide)) ?_
    | refine syncFenced_foot (hs.sub (by decide)) ?_ | refine syncOpp_foot (hs.sub (by decide)) ?_ | refine unfence_foot (hs.sub (by decide)) ?_ | refine wr_foot (hs.bit (by decide)) ?_ | apply each_foot' | apply ite_foot
    | dsimp only)

theorem setDigest_foot {f : Fld} {d : Nat} (hs : Sub 0x0 μ) (hb : μ.testBit f.reg.ctorIdx = true) (hk : Foot μ σ τ) :
    Foot μ σ (τ.setDigest f d) := by
  unfold State.setDigest
  exact each_foot' hk (fun _ _ h => wr_foot hb h)

theorem gddrSpan_foot {a n : Nat} {bad : Option Nat} (hs : Sub 0x6000000000000003800000000000000000000000000000000000000000000000000000000000 μ) (hk : Foot μ σ τ) : Foot μ σ (τ.gddrSpan a n bad).2 := by
  unfold State.gddrSpan
  repeat' with_reducible (first
    | assumption | (intro _ _ _) | refine gddrRead_foot (hs.sub (by decide)) ?_ | refine gddrRead_foot_eq (hs.sub (by decide)) ‹_› ?_ | apply ite_foot | dsimp only)

theorem gddrSpan_foot_eq {a n : Nat} {bad : Option Nat} {y} (hs : Sub 0x6000000000000003800000000000000000000000000000000000000000000000000000000000 μ) (he : τ.gddrSpan a n bad = (y, υ)) (hk : Foot μ σ τ) : Foot μ σ υ := by
  have := gddrSpan_foot (a := a) (n := n) (bad := bad) hs hk
  rwa [he] at this

theorem headRead_foot {t b : Nat} {bad : Option Nat} (hs : Sub 0x6000000000000003800000000000000000000000000000000000000000000000000000000000 μ) (hk : Foot μ σ τ) : Foot μ σ (τ.headRead t b bad) := by
  unfold State.headRead
  repeat' with_reducible (first
    | assumption | (intro _ _ _) | refine countChannel_foot (hs.sub (by decide)) ?_ | refine gddrUncorr_foot (hs.sub (by decide)) ?_ | apply each_foot' | apply ite_foot
    | dsimp only)

theorem bufferImage_foot {t b : Nat} {bad : Option Nat} (hs : Sub 0x6000000000000003800000000000000000000000000000000000000000000000000000000000 μ) (hk : Foot μ σ τ) :
    Foot μ σ (τ.bufferImage t b bad).2 := by
  rw [State.bufferImage.eq_def]
  exact ite_foot_snd (gddrSpan_foot (hs.sub (by decide)) hk) (headRead_foot (hs.sub (by decide)) hk)

theorem bufferImage_foot_eq {t b : Nat} {bad : Option Nat} {y} (hs : Sub 0x6000000000000003800000000000000000000000000000000000000000000000000000000000 μ) (he : τ.bufferImage t b bad = (y, υ))
    (hk : Foot μ σ τ) : Foot μ σ υ := by
  have := bufferImage_foot (t := t) (b := b) (bad := bad) hs hk
  rwa [he] at this

theorem findImage_foot {t k n : Nat} (hs : Sub 0x800000000000000080000000000000000000000000000000000000000000000000000000000000 μ) (hk : Foot μ σ τ) : Foot μ σ (τ.findImage t k n).2 := by
  induction n generalizing τ k with
  | zero => exact hk
  | succ n ih =>
    rw [State.findImage]
    dsimp only
    split
    · exact readGranule_foot (hs.sub (by decide)) hk
    · exact ih (readGranule_foot (hs.sub (by decide)) hk)

theorem findImage_foot_eq {t k n : Nat} {y} (hs : Sub 0x800000000000000080000000000000000000000000000000000000000000000000000000000000 μ) (he : τ.findImage t k n = (y, υ)) (hk : Foot μ σ τ) :
    Foot μ σ υ := by
  have := findImage_foot (t := t) (k := k) (n := n) hs hk
  rwa [he] at this

theorem slotImage_foot {t b : Nat} (hs : Sub 0x800000000000000080000000000000000000000000000000000000000000000000000000000000 μ) (hk : Foot μ σ τ) : Foot μ σ (τ.slotImage t b).2 := by
  unfold State.slotImage
  repeat' with_reducible (first
    | assumption | (intro _ _ _) | refine findImage_foot (hs.sub (by decide)) ?_ | refine findImage_foot_eq (hs.sub (by decide)) ‹_› ?_ | refine readGranule_foot (hs.sub (by decide)) ?_ | refine readGranule_foot_eq (hs.sub (by decide)) ‹_› ?_
    | apply each_foot' | apply ite_foot | simp only [foot_mk] | apply Foot.parts | split | dsimp only)

theorem slotImage_foot_eq {t b : Nat} {y} (hs : Sub 0x800000000000000080000000000000000000000000000000000000000000000000000000000000 μ) (he : τ.slotImage t b = (y, υ)) (hk : Foot μ σ τ) : Foot μ σ υ := by
  have := slotImage_foot (t := t) (b := b) hs hk
  rwa [he] at this

theorem warmUp_foot {x : Nat} (hs : Sub 0x800000000000000002000000000100000000000000000000000000000000000000000000000000 μ) (hk : Foot μ σ τ) : Foot μ σ (τ.warmUp x) := by
  unfold State.warmUp
  repeat' with_reducible (first
    | assumption | (intro _ _ _) | refine keepRecord_foot (hs.sub (by decide)) ?_ | refine wr_foot (hs.bit (by decide)) ?_ | apply each_foot' | apply ite_foot
    | split | dsimp only)

theorem recountWarm_foot {x : Nat} (hs : Sub 0x100000000000000000000000000000000000000000000000000 μ) (hk : Foot μ σ τ) : Foot μ σ (τ.recountWarm x) := by
  unfold State.recountWarm
  repeat' with_reducible (first
    | assumption | (intro _ _ _) | refine wr_foot (hs.bit (by decide)) ?_ | apply ite_foot | dsimp only)

theorem captureRecords_foot {x : Nat} (hs : Sub 0x806000000000000003800002000100001000000000000000000000000000000000000000000000 μ) (hk : Foot μ σ τ) : Foot μ σ (τ.captureRecords x) := by
  unfold State.captureRecords
  repeat' with_reducible (first
    | assumption | (intro _ _ _) | refine countChannel_foot (hs.sub (by decide)) ?_ | refine exactLoss_foot (hs.sub (by decide)) (hs.bit (by decide)) ?_ | refine gddrUncorr_foot (hs.sub (by decide)) ?_ | refine inc_foot (hs.bit (by decide)) ?_
    | refine keepRecord_foot (hs.sub (by decide)) ?_ | refine raise_foot (hs.sub (by decide)) ?_ | refine recountWarm_foot (hs.sub (by decide)) ?_ | apply each_foot' | apply ite_foot | simp only [foot_mk]
    | apply Foot.parts | split | dsimp only)

theorem applyImage_foot {l : List Byte} {xs : List Nat} (hs : Sub 0x800000000000000002000000000900000000000000000000000000000000000000000000000000 μ) (hk : Foot μ σ τ) : Foot μ σ (τ.applyImage l xs) := by
  unfold State.applyImage
  repeat' with_reducible (first
    | assumption | (intro _ _ _) | refine keepRecord_foot (hs.sub (by decide)) ?_ | refine recountWarm_foot (hs.sub (by decide)) ?_ | refine warmUp_foot (hs.sub (by decide)) ?_ | refine wr_foot (hs.bit (by decide)) ?_
    | apply each_foot' | apply ite_foot | split | dsimp only)

theorem setCkp_foot {t st : Nat} (hs : Sub 0x8000000000000000000000000000000000000000000000000000000 μ) (hk : Foot μ σ τ) : Foot μ σ (τ.setCkp t st) := by
  unfold State.setCkp
  repeat' with_reducible (first
    | assumption | (intro _ _ _) | refine wr_foot (hs.bit (by decide)) ?_ | apply ite_foot | split | dsimp only)

theorem abortEpoch_foot {t : Nat} (hs : Sub 0x7e600000000000000028010c0009701090006fa6c0604000907ff0020000000000000000000000 μ) (hk : Foot μ σ τ) : Foot μ σ (τ.abortEpoch t) := by
  unfold State.abortEpoch
  repeat' with_reducible (first
    | assumption | (intro _ _ _) | refine dropEpoch_foot (hs.sub (by decide)) ?_ | refine takeHeld_foot (hs.sub (by decide)) ?_ | refine takeHeld_foot_eq (hs.sub (by decide)) ‹_› ?_ | refine work_foot (hs.sub (by decide)) ?_
    | apply ite_foot | split | dsimp only)

theorem cutEnd_foot {t : Nat} (hs : Sub 0xfe6000000000000003a8010e0009701090006fa6c0604000907ff0020000000000000000000000 μ) (hk : Foot μ σ τ) : Foot μ σ (τ.cutEnd t) := by
  unfold State.cutEnd
  repeat' with_reducible (first
    | assumption | (intro _ _ _) | refine abortEpoch_foot (hs.sub (by decide)) ?_ | refine captureRecords_foot (hs.sub (by decide)) ?_ | refine epochCommitted_foot (hs.sub (by decide)) ?_ | refine gddrWrite_foot (hs.sub (by decide)) ?_
    | refine gddrWrite_foot_eq (hs.sub (by decide)) ‹_› ?_ | refine setCkp_foot (hs.sub (by decide)) ?_ | refine setSpore_foot (hs.sub (by decide)) ?_ | refine takeHeld_foot (hs.sub (by decide)) ?_ | refine takeHeld_foot_eq (hs.sub (by decide)) ‹_› ?_ | refine work_foot (hs.sub (by decide)) ?_
    | apply each_foot' | apply ite_foot | simp only [foot_mk] | apply Foot.parts | split | dsimp only)

theorem cutTimeout_foot {t : Nat} (hs : Sub 0x7e600000000000000028010c0009701090006fa6c0604000907ff0020000000000000000000000 μ) (hk : Foot μ σ τ) : Foot μ σ (τ.cutTimeout t) := by
  unfold State.cutTimeout
  repeat' with_reducible (first
    | assumption | (intro _ _ _) | refine abortEpoch_foot (hs.sub (by decide)) ?_ | refine raise_foot (hs.sub (by decide)) ?_ | apply ite_foot | simp only [foot_mk]
    | apply Foot.parts | split | dsimp only)

theorem epochSecured_foot {t : Nat} {bad : Option Nat} (hs : Sub 0xfe6000000000000003a8013c0009701090006fa6c0604000907ff0020000000000000000000000 μ) (hk : Foot μ σ τ) : Foot μ σ (τ.epochSecured t bad) := by
  unfold State.epochSecured
  repeat' with_reducible (first
    | assumption | (intro _ _ _) | refine abortEpoch_foot (hs.sub (by decide)) ?_ | refine allocNow_foot (hs.sub (by decide)) ?_ | refine allocNow_foot_eq (hs.sub (by decide)) ‹_› ?_ | refine countBlock_foot (hs.sub (by decide)) ?_
    | refine countChannel_foot (hs.sub (by decide)) ?_ | refine freeObj_foot (hs.sub (by decide)) ?_ | refine gddrUncorr_foot (hs.sub (by decide)) ?_ | refine setSpore_foot (hs.sub (by decide)) ?_ | refine sporeWrite_foot (hs.sub (by decide)) ?_ | refine syncDrain_foot (hs.sub (by decide)) ?_
    | refine wr_foot (hs.bit (by decide)) ?_ | apply each_foot' | apply ite_foot | simp only [foot_mk] | apply Foot.parts | split
    | dsimp only)

theorem epochDone_foot {t : Nat} {e : Epoch} (hs : Sub 0x7e600000000000000028011c0009701090006fa6c0604000907ff0020000000000000000000000 μ) (hk : Foot μ σ τ) : Foot μ σ (τ.epochDone t e) := by
  unfold State.epochDone
  repeat' with_reducible (first
    | assumption | (intro _ _ _) | refine inc_foot (hs.bit (by decide)) ?_ | refine setCkp_foot (hs.sub (by decide)) ?_ | refine setSpore_foot (hs.sub (by decide)) ?_ | refine work_foot (hs.sub (by decide)) ?_
    | refine wr_foot (hs.bit (by decide)) ?_ | apply ite_foot | simp only [foot_mk] | apply Foot.parts | dsimp only)

theorem epochClose_foot {t : Nat} (hs : Sub 0x7e600000000000000028011c0009701090006fa6c0604000907ff0020000000000000000000000 μ) (hk : Foot μ σ τ) : Foot μ σ (τ.epochClose t) := by
  unfold State.epochClose
  repeat' with_reducible (first
    | assumption | (intro _ _ _) | refine epochDone_foot (hs.sub (by decide)) ?_ | apply ite_foot | simp only [foot_mk] | apply Foot.parts
    | split | dsimp only)

theorem tierWriteFail_foot {t i acked : Nat} (hs : Sub 0x406000000000000080080000000000000000000000000000000000000000000000000000000000 μ) (hk : Foot μ σ τ) : Foot μ σ (τ.tierWriteFail t i acked) := by
  unfold State.tierWriteFail
  repeat' with_reducible (first
    | assumption | (intro _ _ _) | refine inc_foot (hs.bit (by decide)) ?_ | refine raise_foot (hs.sub (by decide)) ?_ | refine setSpore_foot (hs.sub (by decide)) ?_ | refine syncDrain_foot (hs.sub (by decide)) ?_
    | apply ite_foot | simp only [foot_mk] | apply Foot.parts | split | dsimp only)

theorem lichenUpdate_foot (hs : Sub 0x406000000000000000040000000000000000000000000000000000000000000000000000000000 μ) (hk : Foot μ σ τ) : Foot μ σ (τ.lichenUpdate) := by
  unfold State.lichenUpdate
  repeat' with_reducible (first
    | assumption | (intro _ _ _) | refine raise_foot (hs.sub (by decide)) ?_ | refine wr_foot (hs.bit (by decide)) ?_ | apply foldl_foot_fst | apply foldl_foot_snd
    | refine foldl_foot_fst_eq ‹_› ?_ ?_ | refine foldl_foot_snd_eq ‹_› ?_ ?_ | apply ite_foot | simp only [foot_mk] | apply Foot.parts | refine parts_spore (hs.bit (by decide)) (Foot.parts ?_)
    | split | dsimp only)

theorem cadenceUpdate_foot (hs : Sub 0xc000000000000000000000000000000000000000000000000000000000 μ) (hk : Foot μ σ τ) : Foot μ σ (τ.cadenceUpdate) := by
  unfold State.cadenceUpdate
  repeat' with_reducible (first
    | assumption | (intro _ _ _) | refine inc_foot (hs.bit (by decide)) ?_ | refine wr_foot (hs.bit (by decide)) ?_ | apply ite_foot | split
    | dsimp only)

theorem pauseLast_foot {t : Nat} (hs : Sub 0x16600000000000000000000000000000000067a6c8000000000010004000000000000000000000 μ) (hk : Foot μ σ τ) : Foot μ σ (τ.pauseLast t) := by
  unfold State.pauseLast
  repeat' with_reducible (first
    | assumption | (intro _ _ _) | refine pauseCtx_foot (hs.sub (by decide)) ?_ | refine sendGrants_foot (hs.sub (by decide)) ?_ | refine wr_foot (hs.bit (by decide)) ?_ | apply each_foot'
    | apply ite_foot | split | dsimp only)

theorem losePosition_foot {t g i : Nat} (hs : Sub 0x7e600000000000000028010c0009701090006fa6c0604000907ff0020000000000000000000000 μ) (hk : Foot μ σ τ) : Foot μ σ (τ.losePosition t g i) := by
  unfold State.losePosition
  repeat' with_reducible (first
    | assumption | (intro _ _ _) | refine sent_foot (hs.sub (by decide)) ?_ | refine sent_foot_eq (hs.sub (by decide)) ‹_› ?_ | refine setLost_foot (hs.sub (by decide)) ?_ | refine work_foot (hs.sub (by decide)) ?_
    | refine wr_foot (hs.bit (by decide)) ?_ | apply ite_foot | simp only [foot_mk] | apply Foot.parts | refine parts_spore (hs.bit (by decide)) (Foot.parts ?_) | split
    | dsimp only)

theorem memberFailed_foot {p : Nat} (hs : Sub 0x7f600000000000000028411c000972d09091ffa6c8604000907ff0064000100000000000000000 μ) (hk : Foot μ σ τ) : Foot μ σ (τ.memberFailed p) := by
  unfold State.memberFailed
  repeat' with_reducible (first
    | assumption | (intro _ _ _) | refine dropEpoch_foot (hs.sub (by decide)) ?_ | refine epochDone_foot (hs.sub (by decide)) ?_ | refine inc_foot (hs.bit (by decide)) ?_ | refine losePosition_foot (hs.sub (by decide)) ?_
    | refine pauseLast_foot (hs.sub (by decide)) ?_ | refine raise_foot (hs.sub (by decide)) ?_ | refine setFences_foot (hs.sub (by decide)) ?_ | refine setSpore_foot (hs.sub (by decide)) ?_ | refine takeHeld_foot (hs.sub (by decide)) ?_ | refine takeHeld_foot_eq (hs.sub (by decide)) ‹_› ?_
    | refine work_foot (hs.sub (by decide)) ?_ | refine wr_foot (hs.bit (by decide)) ?_ | apply each_foot' | apply foldl_foot_fst | apply foldl_foot_snd | refine foldl_foot_fst_eq ‹_› ?_ ?_
    | refine foldl_foot_snd_eq ‹_› ?_ ?_ | apply ite_foot | simp only [foot_mk] | apply Foot.parts | refine parts_sched (hs.bit (by decide)) (Foot.parts ?_) | split
    | dsimp only)

theorem unfenceLost_foot {t g : Nat} (hs : Sub 0x176000000000000000000000000002c01091d7a640000000000000044000100000000000000000 μ) (hk : Foot μ σ τ) : Foot μ σ (τ.unfenceLost t g) := by
  unfold State.unfenceLost
  repeat' with_reducible (first
    | assumption | (intro _ _ _) | refine unfence_foot (hs.sub (by decide)) ?_ | apply ite_foot | dsimp only)

theorem setGroup_foot {t g : Nat} {f : GroupRec → GroupRec} (hs : Sub 0x400000000000000000000000000000000000000000000000000000000000000000000000000000 μ) (hk : Foot μ σ τ) : Foot μ σ (τ.setGroup t g f) := by
  unfold State.setGroup
  repeat' with_reducible (first
    | assumption | (intro _ _ _) | apply ite_foot | simp only [foot_mk] | apply Foot.parts | refine parts_spore (hs.bit (by decide)) (Foot.parts ?_)
    | dsimp only)

theorem regrowthStart_foot {t g : Nat} (hs : Sub 0x776000000000000000000108000002c01091f7a6c80040000008f0044000100000000000000000 μ) (hk : Foot μ σ τ) : Foot μ σ (τ.regrowthStart t g) := by
  unfold State.regrowthStart
  repeat' with_reducible (first
    | assumption | (intro _ _ _) | refine askAdmission_foot (hs.sub (by decide)) ?_ | refine openOp_foot (hs.sub (by decide)) ?_ | refine sendGrants_foot (hs.sub (by decide)) ?_ | refine setGroup_foot (hs.sub (by decide)) ?_
    | refine unfenceLost_foot (hs.sub (by decide)) ?_ | refine wr_foot (hs.bit (by decide)) ?_ | apply each_foot' | apply ite_foot | split | dsimp only)

theorem openRestores_foot {t epoch : Nat} {ready : Nat → Bool} (hs : Sub 0x776000000000000000000000000002c01091f7a6c80000000008d0044000100000000000000000 μ) (hk : Foot μ σ τ) : Foot μ σ (τ.openRestores t epoch ready) := by
  unfold State.openRestores
  repeat' with_reducible (first
    | assumption | (intro _ _ _) | refine openOp_foot (hs.sub (by decide)) ?_ | refine sendGrants_foot (hs.sub (by decide)) ?_ | refine sent_foot (hs.sub (by decide)) ?_ | refine sent_foot_eq (hs.sub (by decide)) ‹_› ?_
    | refine setGroup_foot (hs.sub (by decide)) ?_ | refine unfenceLost_foot (hs.sub (by decide)) ?_ | refine wr_foot (hs.bit (by decide)) ?_ | apply each_foot' | apply ite_foot | split
    | dsimp only)

theorem restoreStart_foot {t : Nat} (hs : Sub 0x7f600000000000000028010c000972d09091ffa6c8604000907ff0064000100000000000000000 μ) (hk : Foot μ σ τ) : Foot μ σ (τ.restoreStart t) := by
  unfold State.restoreStart
  repeat' with_reducible (first
    | assumption | (intro _ _ _) | refine openRestores_foot (hs.sub (by decide)) ?_ | refine raise_foot (hs.sub (by decide)) ?_ | refine setGroup_foot (hs.sub (by decide)) ?_ | refine setSpore_foot (hs.sub (by decide)) ?_
    | refine work_foot (hs.sub (by decide)) ?_ | refine wr_foot (hs.bit (by decide)) ?_ | apply each_foot' | apply ite_foot | simp only [foot_mk] | apply Foot.parts
    | split | dsimp only)

theorem shardRead_foot {t g i : Nat} {poison : Option Nat} (hs : Sub 0x7f600000000000008028010c000972d09091ffa6c0604000907ff0064000100000000000000000 μ) (hk : Foot μ σ τ) : Foot μ σ (τ.shardRead t g i poison) := by
  unfold State.shardRead
  repeat' with_reducible (first
    | assumption | (intro _ _ _) | refine allocNow_foot (hs.sub (by decide)) ?_ | refine allocNow_foot_eq (hs.sub (by decide)) ‹_› ?_ | refine forward_foot (hs.sub (by decide)) ?_ | apply fresh_foot
    | refine fresh_foot_eq ‹_› ?_ | refine inc_foot (hs.bit (by decide)) ?_ | refine pushShard_foot (hs.sub (by decide)) ?_ | refine request_foot (hs.sub (by decide)) ?_ | refine sent_foot (hs.sub (by decide)) ?_ | refine sent_foot_eq (hs.sub (by decide)) ‹_› ?_
    | refine setGroup_foot (hs.sub (by decide)) ?_ | refine setOp_foot (hs.sub (by decide)) ?_ | refine unfenceLost_foot (hs.sub (by decide)) ?_ | refine work_foot (hs.sub (by decide)) ?_ | apply each_foot' | apply ite_foot
    | simp only [foot_mk] | apply Foot.parts | split | dsimp only)

theorem epochImage_foot {t e b : Nat} {bad : Option Nat} (hs : Sub 0x806000000000000083800000000000000000000000000000000000000000000000000000000000 μ) (hk : Foot μ σ τ) : Foot μ σ (τ.epochImage t e b bad).2 := by
  unfold State.epochImage
  repeat' with_reducible (first
    | assumption | (intro _ _ _) | refine bufferImage_foot (hs.sub (by decide)) ?_ | refine bufferImage_foot_eq (hs.sub (by decide)) ‹_› ?_ | refine slotImage_foot (hs.sub (by decide)) ?_ | refine slotImage_foot_eq (hs.sub (by decide)) ‹_› ?_
    | apply ite_foot | simp only [foot_mk] | apply Foot.parts | split | dsimp only)

theorem epochImage_foot_eq {t e b : Nat} {bad : Option Nat} {y} (hs : Sub 0x806000000000000083800000000000000000000000000000000000000000000000000000000000 μ) (he : τ.epochImage t e b bad = (y, υ)) (hk : Foot μ σ τ) : Foot μ σ υ := by
  have := epochImage_foot (t := t) (e := e) (b := b) (bad := bad) hs hk
  rwa [he] at this

theorem reloadParity_foot {t b : Nat} (hs : Sub 0x800000000000000082000000000000000000000000000000000000000000000000000000000000 μ) (hk : Foot μ σ τ) : Foot μ σ (τ.reloadParity t b) := by
  unfold State.reloadParity
  repeat' with_reducible (first
    | assumption | (intro _ _ _) | refine gddrWrite_foot (hs.sub (by decide)) ?_ | refine gddrWrite_foot_eq (hs.sub (by decide)) ‹_› ?_ | refine readGranule_foot (hs.sub (by decide)) ?_ | refine readGranule_foot_eq (hs.sub (by decide)) ‹_› ?_
    | apply each_foot' | apply ite_foot | simp only [foot_mk] | apply Foot.parts | split | dsimp only)

theorem afterFallback_foot {t : Nat} {found : Option SporeImage} (hs : Sub 0xc00000000000000082280000000000000000000000000000000000000000000000000000000000 μ) (hk : Foot μ σ τ) : Foot μ σ (τ.afterFallback t found) := by
  unfold State.afterFallback
  repeat' with_reducible (first
    | assumption | (intro _ _ _) | refine inc_foot (hs.bit (by decide)) ?_ | refine reloadParity_foot (hs.sub (by decide)) ?_ | refine setSpore_foot (hs.sub (by decide)) ?_ | refine syncDrain_foot (hs.sub (by decide)) ?_
    | apply ite_foot | simp only [foot_mk] | apply Foot.parts | split | dsimp only)

theorem rollImage_foot {t e : Nat} {full : Bool} {xs : List Nat} {bad : Option Nat} (hs : Sub 0xfe6000000000000083a8010c0009701090006fa6c0604000907ff0020000000000000000000000 μ) (hk : Foot μ σ τ) : Foot μ σ (τ.rollImage t e full xs bad) := by
  unfold State.rollImage
  repeat' with_reducible (first
    | assumption | (intro _ _ _) | refine afterFallback_foot (hs.sub (by decide)) ?_ | refine applyImage_foot (hs.sub (by decide)) ?_ | refine epochImage_foot (hs.sub (by decide)) ?_ | refine epochImage_foot_eq (hs.sub (by decide)) ‹_› ?_
    | refine warmUp_foot (hs.sub (by decide)) ?_ | refine work_foot (hs.sub (by decide)) ?_ | apply each_foot' | apply ite_foot | simp only [foot_mk] | apply Foot.parts
    | split | dsimp only)

theorem resumeLasts_foot {us : List Nat} (hs : Sub 0x16600000000000000000000800000000000067a6c8000000000010004000000000000000000000 μ) (hk : Foot μ σ τ) : Foot μ σ (τ.resumeLasts us) := by
  unfold State.resumeLasts
  repeat' with_reducible (first
    | assumption | (intro _ _ _) | refine resumeCtx_foot (hs.sub (by decide)) ?_ | refine sendGrants_foot (hs.sub (by decide)) ?_ | refine wr_foot (hs.bit (by decide)) ?_ | apply each_foot'
    | apply ite_foot | simp only [foot_mk] | apply Foot.parts | split | dsimp only)

theorem rollback_foot {t : Nat} {bad : Option Nat} (hs : Sub 0xfe6000000000000083a8013c0009701090006fa6c8604000907ff0024000000000000000000000 μ) (hk : Foot μ σ τ) : Foot μ σ (τ.rollback t bad) := by
  unfold State.rollback
  repeat' with_reducible (first
    | assumption | (intro _ _ _) | refine resumeLasts_foot (hs.sub (by decide)) ?_ | refine rollImage_foot (hs.sub (by decide)) ?_ | refine setGroup_foot (hs.sub (by decide)) ?_ | refine setLost_foot (hs.sub (by decide)) ?_
    | refine setSpore_foot (hs.sub (by decide)) ?_ | refine settleAll_foot (hs.sub (by decide)) ?_ | refine wr_foot (hs.bit (by decide)) ?_ | apply each_foot' | apply ite_foot | simp only [foot_mk]
    | apply Foot.parts | split | dsimp only)

end Sys2Proof.Machine
end

