-- ==== Sys2Proof/Laws/FootHost.lean ====
section
/-!
SUPPORT. Which registers and parts of the state the operations of Access, HostOps, PlanCheck, Plan, Mailbox may change (`Foot`).
-/

namespace Sys2Proof.Machine

set_option Elab.async false
set_option linter.unusedTactic false
set_option linter.unreachableTactic false
set_option linter.unusedSimpArgs false
set_option linter.unusedVariables false

variable {μ : Nat} {σ τ υ : State}

theorem writeRwl_foot {r : Reg} {i j word : Nat} (hs : Sub 0x17e0000000000fffffffffffffffffffffffffffffffffffffffffffffffffffffffffffffffff μ) (hk : Foot μ σ τ) : Foot μ σ (τ.writeRwl r i j word) := by
  unfold State.writeRwl
  repeat' with_reducible (first
    | assumption | (intro _ _ _) | refine setRate_foot (hs.sub (by decide)) ?_ | refine wr_foot (hs.bit (by decide)) ?_ | refine wr_foot (hs.all (by decide) _) ?_ | apply each_foot'
    | apply ite_foot | split | dsimp only)

theorem resetPlanFields_foot (hs : Sub 0x17e0000000000fffffffffffffffffffffffffffffffffffffffffffffffffffffffffffffffff μ) (hk : Foot μ σ τ) : Foot μ σ τ.resetPlanFields := by
  unfold State.resetPlanFields
  refine each_foot' (each_foot' (foot_mk.mpr (parts_all hs (by decide) hk.parts)) (fun _ _ h => ?_)) (fun _ _ h => ?_)
  · exact foot_mk.mpr (parts_all hs (by decide) h.parts)
  · exact ite_foot h (wr_foot (hs.bit (by decide)) (setRate_foot (hs.sub (by decide)) (wr_foot (hs.bit (by decide)) h)))

theorem msix_foot {v : Nat} (hs : Sub 0x80000000000000000000000000000000000000000000000000000000000000000 μ) (hk : Foot μ σ τ) : Foot μ σ (τ.msix v) := by
  unfold State.msix
  repeat' with_reducible (first
    | assumption | (intro _ _ _) | apply emit_foot | refine wr_foot (hs.bit (by decide)) ?_ | apply ite_foot | split
    | dsimp only)

theorem setMask_foot {v : Nat} {m : Bool} (hs : Sub 0xc0000000000000000000000000000000000000000000000000000000000000000 μ) (hk : Foot μ σ τ) : Foot μ σ (τ.setMask v m) := by
  unfold State.setMask
  repeat' with_reducible (first
    | assumption | (intro _ _ _) | refine msix_foot (hs.sub (by decide)) ?_ | refine wr_foot (hs.bit (by decide)) ?_ | apply ite_foot | split
    | dsimp only)

theorem putOp_foot {i : Nat} {op : LongOp} (hs : Sub 0x1000000000000000800000000000000000000000000000000000000000000000000000000000000 μ) (hk : Foot μ σ τ) : Foot μ σ (τ.putOp i op) := by
  unfold State.putOp
  repeat' with_reducible (first
    | assumption | (intro _ _ _) | refine wr_foot (hs.bit (by decide)) ?_ | apply ite_foot | simp only [foot_mk] | apply Foot.parts
    | refine parts_host (hs.bit (by decide)) (Foot.parts ?_) | dsimp only)

theorem endOp_foot {i state status : Nat} (hs : Sub 0x1000000000000080800000000000000000000000000000000000000000000000000000000000000 μ) (hk : Foot μ σ τ) : Foot μ σ (τ.endOp i state status) := by
  unfold State.endOp
  repeat' with_reducible (first
    | assumption | (intro _ _ _) | refine msix_foot (hs.sub (by decide)) ?_ | refine wr_foot (hs.bit (by decide)) ?_ | apply ite_foot | simp only [foot_mk]
    | apply Foot.parts | refine parts_host (hs.bit (by decide)) (Foot.parts ?_) | split | dsimp only)

theorem planRecord_foot (hs : Sub 0x8000000000000000000000000000000000000000000000000000000000000000400000000000 μ) (hk : Foot μ σ τ) : Foot μ σ (τ.planRecord) := by
  unfold State.planRecord
  repeat' with_reducible (first
    | assumption | (intro _ _ _) | refine trigger_foot (hs.sub (by decide)) ?_ | apply ite_foot | dsimp only)

theorem setPlan_foot {state status : Nat} (hs : Sub 0x8000000000000000000000000000000000000000000000000000080000000000400000000000 μ) (hk : Foot μ σ τ) : Foot μ σ (τ.setPlan state status) := by
  unfold State.setPlan
  repeat' with_reducible (first
    | assumption | (intro _ _ _) | refine planRecord_foot (hs.sub (by decide)) ?_ | refine wr_foot (hs.bit (by decide)) ?_ | apply ite_foot | dsimp only)

theorem imageWord_foot {h : Hit} {v : Nat} (hs : Sub 0x17e0000000000fffffffffffffffffffffffffffffffffffffffffffffffffffffffffffffffff μ) (hk : Foot μ σ τ) : Foot μ σ (τ.imageWord h v) := by
  unfold State.imageWord
  repeat' with_reducible (first
    | assumption | (intro _ _ _) | refine writeRwl_foot (hs.sub (by decide)) ?_ | apply ite_foot | dsimp only)

theorem syncMembers_foot (hs : Sub 0x40000000000000000000000000000000000000000000000000000044000000000000000000000 μ) (hk : Foot μ σ τ) : Foot μ σ τ.syncMembers := by
  unfold State.syncMembers
  refine syncPresent_foot (hs.sub (by decide)) (syncFenced_foot (hs.sub (by decide)) ?_)
  refine foot_mk.mpr (parts_regs (fun q lo i j _ hq => get_filter (fun v => ?_) _) hk.parts)
  have h1 : q ≠ Reg.LST_MEMBER.ctorIdx := fun he => by
    rw [he, hs.bit (by decide)] at hq
    cases hq
  have h2 : q ≠ Reg.LST_STATE.ctorIdx := fun he => by
    rw [he, hs.bit (by decide)] at hq
    cases hq
  simp only [beq_eq_false_iff_ne.mpr h1, beq_eq_false_iff_ne.mpr h2, Bool.false_and, Bool.not_false, Bool.and_self]

theorem syncLasts_foot (hs : Sub 0x80000000000000000000000 μ) (hk : Foot μ σ τ) : Foot μ σ (τ.syncLasts) := by
  unfold State.syncLasts
  repeat' with_reducible (first
    | assumption | (intro _ _ _) | refine wr_foot (hs.bit (by decide)) ?_ | apply ite_foot | dsimp only)

theorem undoPlan_foot (hs : Sub 0x17e0000000000fffffffffffffffffffffffffffffffffffffffffffffffffffffffffffffffff μ) (hk : Foot μ σ τ) : Foot μ σ (τ.undoPlan) := by
  unfold State.undoPlan
  repeat' with_reducible (first
    | assumption | (intro _ _ _) | refine resetPlanFields_foot (hs.sub (by decide)) ?_ | refine syncLasts_foot (hs.sub (by decide)) ?_ | refine syncMembers_foot (hs.sub (by decide)) ?_ | apply ite_foot
    | dsimp only)

theorem clearRecords_foot (hs : Sub 0x500000000000000000000000000000000000000000000000000 μ) (hk : Foot μ σ τ) : Foot μ σ (τ.clearRecords) := by
  unfold State.clearRecords
  repeat' with_reducible (first
    | assumption | (intro _ _ _) | refine zeroAll_foot (hs.sub (by decide)) (hs.bit (by decide)) ?_ | apply ite_foot | dsimp only)

theorem failLoad_foot {slot code : Nat} (hs : Sub 0x1000000000000081800000000000000000000000000000000000000000000000000000000000000 μ) (hk : Foot μ σ τ) : Foot μ σ (τ.failLoad slot code) := by
  unfold State.failLoad
  repeat' with_reducible (first
    | assumption | (intro _ _ _) | refine endOp_foot (hs.sub (by decide)) ?_ | refine wr_foot (hs.bit (by decide)) ?_ | apply ite_foot | dsimp only)

theorem stageImage_foot {n : Nat} {y} (hs : Sub 0x2600000000000000000000000000000000007a680000000000000000000000000000000000000 μ) (he : τ.stageImage n = some y) (hk : Foot μ σ τ) : Foot μ σ y := by
  unfold State.stageImage at he
  try dsimp only at he
  repeat' split at he
  all_goals cases he
  all_goals repeat' with_reducible (first
    | assumption | (intro _ _ _) | refine allocNow_foot (hs.sub (by decide)) ?_ | refine allocNow_foot_eq (hs.sub (by decide)) ‹_› ?_ | refine countBlock_foot (hs.sub (by decide)) ?_ | refine freeObj_foot (hs.sub (by decide)) ?_
    | apply each_foot' | apply ite_foot | simp only [foot_mk] | apply Foot.parts | split | dsimp only)

theorem underCheck_foot (hs : Sub 0x8000000000000000000000000000000000000000000000000000180000000000400000000000 μ) (hk : Foot μ σ τ) : Foot μ σ (τ.underCheck) := by
  unfold State.underCheck
  repeat' with_reducible (first
    | assumption | (intro _ _ _) | refine setPlan_foot (hs.sub (by decide)) ?_ | refine wr_foot (hs.bit (by decide)) ?_ | apply ite_foot | dsimp only)

theorem planLoad_foot {slot : Nat} {image : PlanFetch} (hs : Sub 0x117e0000000000fffffffffffffffffffffffffffffffffffffffffffffffffffffffffffffffff μ) (hk : Foot μ σ τ) : Foot μ σ (τ.planLoad slot image) := by
  unfold State.planLoad
  repeat' with_reducible (first
    | assumption | (intro _ _ _) | refine failLoad_foot (hs.sub (by decide)) ?_ | refine imageWord_foot (hs.sub (by decide)) ?_ | refine latch_foot (hs.bit (by decide)) ?_ | refine putOp_foot (hs.sub (by decide)) ?_
    | refine stageImage_foot (hs.sub (by decide)) ‹_› ?_ | refine syncLasts_foot (hs.sub (by decide)) ?_ | refine syncMembers_foot (hs.sub (by decide)) ?_ | refine underCheck_foot (hs.sub (by decide)) ?_ | refine undoPlan_foot (hs.sub (by decide)) ?_ | apply each_foot'
    | apply ite_foot | simp only [foot_mk] | apply Foot.parts | refine parts_host (hs.bit (by decide)) (Foot.parts ?_) | split | dsimp only)

theorem clearSpore_foot (hs : Sub 0x400000000000000000080108000000000000000000000000000000000000000000000000000000 μ) (hk : Foot μ σ τ) : Foot μ σ (τ.clearSpore) := by
  unfold State.clearSpore
  repeat' with_reducible (first
    | assumption | (intro _ _ _) | refine syncDrain_foot (hs.sub (by decide)) ?_ | refine wr_foot (hs.bit (by decide)) ?_ | apply each_foot' | apply ite_foot
    | simp only [foot_mk] | apply Foot.parts | refine parts_spore (hs.bit (by decide)) (Foot.parts ?_) | dsimp only)

theorem restoreLast_foot {t : Nat} (hs : Sub 0xc08000000000000082100118000900000000000000000000000000004000000000400000000000 μ) (hk : Foot μ σ τ) : Foot μ σ (τ.restoreLast t) := by
  unfold State.restoreLast
  repeat' with_reducible (first
    | assumption | (intro _ _ _) | refine applyImage_foot (hs.sub (by decide)) ?_ | refine planRecord_foot (hs.sub (by decide)) ?_ | refine reloadParity_foot (hs.sub (by decide)) ?_ | refine setSpore_foot (hs.sub (by decide)) ?_
    | refine slotImage_foot (hs.sub (by decide)) ?_ | refine slotImage_foot_eq (hs.sub (by decide)) ‹_› ?_ | refine wr_foot (hs.bit (by decide)) ?_ | apply each_foot' | apply ite_foot | simp only [foot_mk]
    | apply Foot.parts | split | dsimp only)

theorem acceptPlan_foot {degraded : Bool} (hs : Sub 0xd68000000000000082180138000d0000000c0426020040000000304c4000000200400000000000 μ) (hk : Foot μ σ τ) : Foot μ σ (τ.acceptPlan degraded) := by
  unfold State.acceptPlan
  repeat' with_reducible (first
    | assumption | (intro _ _ _) | refine clearRecords_foot (hs.sub (by decide)) ?_ | refine clearSpore_foot (hs.sub (by decide)) ?_ | refine rebuildScheduled_foot (hs.sub (by decide)) ?_ | refine restoreLast_foot (hs.sub (by decide)) ?_
    | refine setBank_foot (hs.sub (by decide)) ?_ | refine setDigest_foot (hs.sub (by decide)) (hs.bit (by decide)) ?_ | refine setPlan_foot (hs.sub (by decide)) ?_ | refine syncLasts_foot (hs.sub (by decide)) ?_ | refine syncMembers_foot (hs.sub (by decide)) ?_ | refine syncOpp_foot (hs.sub (by decide)) ?_
    | refine warmUp_foot (hs.sub (by decide)) ?_ | refine wr_foot (hs.bit (by decide)) ?_ | refine zeroAll_foot (hs.sub (by decide)) (hs.bit (by decide)) ?_ | apply each_foot' | apply ite_foot | simp only [foot_mk]
    | apply Foot.parts | refine parts_sched (hs.bit (by decide)) (parts_ctx (hs.bit (by decide)) (Foot.parts ?_)) | split | dsimp only)

theorem planCheck_foot (hs : Sub 0x1d7e0000000000fffffffffffffffffffffffffffffffffffffffffffffffffffffffffffffffff μ) (hk : Foot μ σ τ) : Foot μ σ (τ.planCheck) := by
  unfold State.planCheck
  repeat' with_reducible (first
    | assumption | (intro _ _ _) | refine acceptPlan_foot (hs.sub (by decide)) ?_ | refine endOp_foot (hs.sub (by decide)) ?_ | refine failLoad_foot (hs.sub (by decide)) ?_ | refine forgetExpected_foot (hs.sub (by decide)) ?_
    | refine setPlan_foot (hs.sub (by decide)) ?_ | refine takeOutcomes_foot (hs.sub (by decide)) ?_ | refine undoPlan_foot (hs.sub (by decide)) ?_ | refine wr_foot (hs.bit (by decide)) ?_ | apply ite_foot | simp only [foot_mk]
    | apply Foot.parts | split | dsimp only)

theorem planAcceptDegraded_foot {slot : Nat} (hs : Sub 0x1d68000000000080882180138000d0000000c0426020040000000304c4000000200400000000000 μ) (hk : Foot μ σ τ) : Foot μ σ (τ.planAcceptDegraded slot) := by
  unfold State.planAcceptDegraded
  repeat' with_reducible (first
    | assumption | (intro _ _ _) | refine acceptPlan_foot (hs.sub (by decide)) ?_ | refine endOp_foot (hs.sub (by decide)) ?_ | refine wr_foot (hs.bit (by decide)) ?_ | apply ite_foot
    | simp only [foot_mk] | apply Foot.parts | split | dsimp only)

theorem emptyPlan_foot (hs : Sub 0x7ee00000000000100028010c000d701090046fa6c0644000907ff00e4a00000200400000000000 μ) (hk : Foot μ σ τ) : Foot μ σ (τ.emptyPlan) := by
  unfold State.emptyPlan
  repeat' with_reducible (first
    | assumption | (intro _ _ _) | refine clearRecords_foot (hs.sub (by decide)) ?_ | refine clearSpore_foot (hs.sub (by decide)) ?_ | refine forgetExpected_foot (hs.sub (by decide)) ?_ | refine freeAllStreams_foot (hs.sub (by decide)) ?_
    | refine setPlan_foot (hs.sub (by decide)) ?_ | refine syncOpp_foot (hs.sub (by decide)) ?_ | refine work_foot (hs.sub (by decide)) ?_ | refine wr_foot (hs.bit (by decide)) ?_ | apply each_foot' | apply ite_foot
    | simp only [foot_mk] | apply Foot.parts | refine parts_sched (hs.bit (by decide)) (parts_ctx (hs.bit (by decide)) (parts_comp (hs.bit (by decide)) (Foot.parts ?_))) | dsimp only)

theorem refuseGo_foot (hs : Sub 0x8000000000000000000000000000000000000000000000 μ) (hk : Foot μ σ τ) : Foot μ σ (τ.refuseGo) := by
  unfold State.refuseGo
  repeat' with_reducible (first
    | assumption | (intro _ _ _) | refine inc_foot (hs.bit (by decide)) ?_ | refine wr_foot (hs.bit (by decide)) ?_ | apply ite_foot | simp only [foot_mk]
    | apply Foot.parts | split | dsimp only)

theorem unopen_foot {x : Nat} (hs : Sub 0x7e600000000000000028010c0009701090006fa6c0604000907ff0020000000000000000000000 μ) (hk : Foot μ σ τ) : Foot μ σ (τ.unopen x) := by
  unfold State.unopen
  repeat' with_reducible (first
    | assumption | (intro _ _ _) | refine closeRelease_foot (hs.sub (by decide)) ?_ | refine restoreWas_foot (hs.bit (by decide)) ?_ | refine setOp_foot (hs.sub (by decide)) ?_ | refine work_foot (hs.sub (by decide)) ?_
    | refine wr_foot (hs.bit (by decide)) ?_ | refine each_foot_mem ?_ (fun u f hf h => restoreWas_foot ((hs.sub (b := 0x8f0000000000000000000000000) (by decide)).bit ((by decide : ∀ f ∈ openFields, Nat.testBit 0x8f0000000000000000000000000 f.reg.ctorIdx = true) f hf)) h) | apply each_foot' | apply ite_foot | dsimp only)

theorem takeBackItems_foot (hs : Sub 0x7e600000000000000028010c0009701090006fa6c0604000907ff0020000000000000000000000 μ) (hk : Foot μ σ τ) : Foot μ σ (τ.takeBackItems) := by
  unfold State.takeBackItems
  repeat' with_reducible (first
    | assumption | (intro _ _ _) | refine dropUndecl_foot (hs.sub (by decide)) ?_ | refine unopen_foot (hs.sub (by decide)) ?_ | apply each_foot' | apply ite_foot
    | simp only [foot_mk] | apply Foot.parts | split | dsimp only)

theorem planRetire_foot {slot : Nat} (hs : Sub 0x17ee00000000008180028010c000d701090046fa6c0644000907ff00e4a00000200400000000000 μ) (hk : Foot μ σ τ) : Foot μ σ (τ.planRetire slot) := by
  unfold State.planRetire
  repeat' with_reducible (first
    | assumption | (intro _ _ _) | refine emptyPlan_foot (hs.sub (by decide)) ?_ | refine endOp_foot (hs.sub (by decide)) ?_ | refine setPlan_foot (hs.sub (by decide)) ?_ | refine takeBackItems_foot (hs.sub (by decide)) ?_
    | refine work_foot (hs.sub (by decide)) ?_ | apply ite_foot | simp only [foot_mk] | apply Foot.parts | split | dsimp only)

theorem planRetired_foot (hs : Sub 0x17ee00000000008180028010c000d701090046fa6c0644000907ff00e4a00000200400000000000 μ) (hk : Foot μ σ τ) : Foot μ σ (τ.planRetired) := by
  unfold State.planRetired
  repeat' with_reducible (first
    | assumption | (intro _ _ _) | refine emptyPlan_foot (hs.sub (by decide)) ?_ | refine endOp_foot (hs.sub (by decide)) ?_ | apply ite_foot | simp only [foot_mk]
    | apply Foot.parts | split | dsimp only)

theorem remap_foot {slot : Nat} (hs : Sub 0x117e000000000081800000000000002c01097d7a640000000000000044a00100200400000000000 μ) (hk : Foot μ σ τ) : Foot μ σ (τ.remap slot) := by
  unfold State.remap
  repeat' with_reducible (first
    | assumption | (intro _ _ _) | refine endOp_foot (hs.sub (by decide)) ?_ | refine remapDo_foot (hs.sub (by decide)) ?_ | apply ite_foot | simp only [foot_mk]
    | apply Foot.parts | split | dsimp only)

theorem movePort_foot {p q : Nat} (hs : Sub 0x6000000000000000000000000000000000000000000 μ) (hk : Foot μ σ τ) : Foot μ σ (τ.movePort p q) := by
  unfold State.movePort
  repeat' with_reducible (first
    | assumption | (intro _ _ _) | refine dropWins_foot (hs.sub (by decide)) ?_ | refine moveWins_foot (hs.sub (by decide)) ?_ | refine wr_foot (hs.bit (by decide)) ?_ | apply ite_foot
    | dsimp only)

theorem rediscover_foot {p : Nat} (hs : Sub 0x58000000000001000000000000000000000000000000000000000040a00000200400000000000 μ) (hk : Foot μ σ τ) : Foot μ σ (τ.rediscover p) := by
  unfold State.rediscover
  repeat' with_reducible (first
    | assumption | (intro _ _ _) | refine setOutcome_foot (hs.sub (by decide)) ?_ | refine setPort_foot (hs.sub (by decide)) ?_ | refine wr_foot (hs.bit (by decide)) ?_ | apply ite_foot
    | simp only [foot_mk] | apply Foot.parts | split | dsimp only)

theorem memberReplace_foot {slot : Nat} (hs : Sub 0x1058000000000001800000000000000000006000000000000000000044a00000200400000000000 μ) (hk : Foot μ σ τ) : Foot μ σ (τ.memberReplace slot) := by
  unfold State.memberReplace
  repeat' with_reducible (first
    | assumption | (intro _ _ _) | refine movePort_foot (hs.sub (by decide)) ?_ | refine putOp_foot (hs.sub (by decide)) ?_ | refine rediscover_foot (hs.sub (by decide)) ?_ | refine syncMembers_foot (hs.sub (by decide)) ?_
    | refine syncOpp_foot (hs.sub (by decide)) ?_ | refine syncReplace_foot (hs.sub (by decide)) ?_ | refine wr_foot (hs.bit (by decide)) ?_ | apply ite_foot | simp only [foot_mk] | apply Foot.parts
    | split | dsimp only)

theorem replaceDone_foot {slot : Nat} (hs : Sub 0x1176000000000080800000000000002c01091d7a640000000000000044000100000000000000000 μ) (hk : Foot μ σ τ) : Foot μ σ (τ.replaceDone slot) := by
  unfold State.replaceDone
  repeat' with_reducible (first
    | assumption | (intro _ _ _) | refine endOp_foot (hs.sub (by decide)) ?_ | refine unfence_foot (hs.sub (by decide)) ?_ | apply ite_foot | simp only [foot_mk]
    | apply Foot.parts | split | dsimp only)

theorem replaceTimeout_foot {slot : Nat} (hs : Sub 0x1000000000000080800000000000000000000000000000000000000000000000000000000000000 μ) (hk : Foot μ σ τ) : Foot μ σ (τ.replaceTimeout slot) := by
  unfold State.replaceTimeout
  repeat' with_reducible (first
    | assumption | (intro _ _ _) | refine endOp_foot (hs.sub (by decide)) ?_ | apply ite_foot | simp only [foot_mk] | apply Foot.parts
    | split | dsimp only)

theorem noteOrder_foot {thing index : Nat} {host : Bool} {code : Nat} (hs : Sub 0x800e000000000000000000000000000000000000000000000000000000000000000400010000000 μ) (hk : Foot μ σ τ) : Foot μ σ (τ.noteOrder thing index host code) := by
  unfold State.noteOrder
  repeat' with_reducible (first
    | assumption | (intro _ _ _) | refine inc_foot (hs.bit (by decide)) ?_ | refine raise_foot (hs.sub (by decide)) ?_ | refine triggerOther_foot (hs.sub (by decide)) ?_ | refine wr_foot (hs.bit (by decide)) ?_
    | apply ite_foot | simp only [foot_mk] | apply Foot.parts | refine parts_sec (hs.bit (by decide)) (Foot.parts ?_) | split | dsimp only)

theorem abortOp_foot {i : Nat} (hs : Sub 0x117e0000000000fffffffffffffffffffffffffffffffffffffffffffffffffffffffffffffffff μ) (hk : Foot μ σ τ) : Foot μ σ (τ.abortOp i) := by
  unfold State.abortOp
  repeat' with_reducible (first
    | assumption | (intro _ _ _) | refine endOp_foot (hs.sub (by decide)) ?_ | refine undoPlan_foot (hs.sub (by decide)) ?_ | refine wr_foot (hs.bit (by decide)) ?_ | apply ite_foot
    | simp only [foot_mk] | apply Foot.parts | split | dsimp only)

theorem decideMbx_foot {value : Nat} (hs : Sub 0x117e0000000000fffffffffffffffffffffffffffffffffffffffffffffffffffffffffffffffff μ) (hk : Foot μ σ τ) : Foot μ σ (τ.decideMbx value) := by
  unfold State.decideMbx
  repeat' with_reducible (first
    | assumption | (intro _ _ _) | refine abortOp_foot (hs.sub (by decide)) ?_ | apply mark_foot | refine memberReplace_foot (hs.sub (by decide)) ?_ | refine putOp_foot (hs.sub (by decide)) ?_
    | refine refuseGo_foot (hs.sub (by decide)) ?_ | refine wr_foot (hs.bit (by decide)) ?_ | apply ite_foot | simp only [foot_mk] | apply Foot.parts | refine parts_host (hs.bit (by decide)) (Foot.parts ?_)
    | split | dsimp only)

theorem mailbox_foot {value delay : Nat} (hs : Sub 0x917e0000000000fffffffffffffffffffffffffffffffffffffffffffffffffffffffffffffffff μ) (hk : Foot μ σ τ) : Foot μ σ (τ.mailbox value delay) := by
  unfold State.mailbox
  repeat' with_reducible (first
    | assumption | (intro _ _ _) | refine decideMbx_foot (hs.sub (by decide)) ?_ | refine latch_foot (hs.bit (by decide)) ?_ | refine noteOrder_foot (hs.sub (by decide)) ?_ | refine wr_foot (hs.bit (by decide)) ?_
    | apply ite_foot | simp only [foot_mk] | apply Foot.parts | refine parts_host (hs.bit (by decide)) (Foot.parts ?_) | split | dsimp only)

theorem mailboxTick_foot (hs : Sub 0x117e0000000000fffffffffffffffffffffffffffffffffffffffffffffffffffffffffffffffff μ) (hk : Foot μ σ τ) : Foot μ σ (τ.mailboxTick) := by
  unfold State.mailboxTick
  repeat' with_reducible (first
    | assumption | (intro _ _ _) | refine decideMbx_foot (hs.sub (by decide)) ?_ | apply ite_foot | simp only [foot_mk] | apply Foot.parts
    | split | dsimp only)

theorem replaceDecided_foot {slot : Nat} (hs : Sub 0x117e0000000000fffffffffffffffffffffffffffffffffffffffffffffffffffffffffffffffff μ) (hk : Foot μ σ τ) : Foot μ σ (τ.replaceDecided slot) := by
  unfold State.replaceDecided
  repeat' with_reducible (first
    | assumption | (intro _ _ _) | refine decideMbx_foot (hs.sub (by decide)) ?_ | refine memberReplace_foot (hs.sub (by decide)) ?_ | apply ite_foot | simp only [foot_mk]
    | apply Foot.parts | split | dsimp only)

theorem readUnit_foot {space addr : Nat} (hs : Sub 0x806000000000000083800000000000000000000000000000000000000000000000000000000000 μ) (hk : Foot μ σ τ) : Foot μ σ (τ.readUnit space addr).2 := by
  unfold State.readUnit
  repeat' with_reducible (first
    | assumption | (intro _ _ _) | refine gddrRead_foot (hs.sub (by decide)) ?_ | refine gddrRead_foot_eq (hs.sub (by decide)) ‹_› ?_ | refine readGranule_foot (hs.sub (by decide)) ?_ | refine readGranule_foot_eq (hs.sub (by decide)) ‹_› ?_
    | refine readPoison_foot (hs.sub (by decide)) ?_ | apply ite_foot | split | dsimp only)

theorem readUnit_foot_eq {space addr : Nat} {y} (hs : Sub 0x806000000000000083800000000000000000000000000000000000000000000000000000000000 μ) (he : τ.readUnit space addr = (y, υ)) (hk : Foot μ σ τ) : Foot μ σ υ := by
  have := readUnit_foot (space := space) (addr := addr) hs hk
  rwa [he] at this

theorem writeUnit_foot {space addr : Nat} {l : List Byte} (hs : Sub 0x800000000000000002000000000000000000000000000000000000000000000000000000000000 μ) (hk : Foot μ σ τ) : Foot μ σ (τ.writeUnit space addr l).2 := by
  unfold State.writeUnit
  repeat' with_reducible (first
    | assumption | (intro _ _ _) | refine cxlWrite_foot (hs.sub (by decide)) ?_ | refine gddrWrite_foot (hs.sub (by decide)) ?_ | refine gddrWrite_foot_eq (hs.sub (by decide)) ‹_› ?_ | refine sporeWrite_foot (hs.sub (by decide)) ?_
    | apply ite_foot | split | dsimp only)

theorem writeUnit_foot_eq {space addr : Nat} {l : List Byte} {y} (hs : Sub 0x800000000000000002000000000000000000000000000000000000000000000000000000000000 μ) (he : τ.writeUnit space addr l = (y, υ)) (hk : Foot μ σ τ) : Foot μ σ υ := by
  have := writeUnit_foot (space := space) (addr := addr) (l := l) hs hk
  rwa [he] at this

theorem failMem_foot {slot code detail : Nat} (hs : Sub 0x1000000000000081800000000000000000000000000000000000000000000000000000000000000 μ) (hk : Foot μ σ τ) : Foot μ σ (τ.failMem slot code detail) := by
  unfold State.failMem
  repeat' with_reducible (first
    | assumption | (intro _ _ _) | refine endOp_foot (hs.sub (by decide)) ?_ | refine wr_foot (hs.bit (by decide)) ?_ | apply ite_foot | dsimp only)

theorem memUnit_foot {slot opcode : Nat} {fail : Option MemFail} {data : List Byte} (hs : Sub 0x1806000000000085883800000000000000000000000000000000000000000000000000000000000 μ) (hk : Foot μ σ τ) : Foot μ σ (τ.memUnit slot opcode fail data) := by
  unfold State.memUnit
  repeat' with_reducible (first
    | assumption | (intro _ _ _) | apply emit_foot | refine endOp_foot (hs.sub (by decide)) ?_ | refine failMem_foot (hs.sub (by decide)) ?_ | refine gddrUncorr_foot (hs.sub (by decide)) ?_
    | refine inc_foot (hs.bit (by decide)) ?_ | refine latch_foot (hs.bit (by decide)) ?_ | refine putOp_foot (hs.sub (by decide)) ?_ | refine readPoison_foot (hs.sub (by decide)) ?_ | refine readUnit_foot (hs.sub (by decide)) ?_ | refine readUnit_foot_eq (hs.sub (by decide)) ‹_› ?_
    | refine writeUnit_foot (hs.sub (by decide)) ?_ | refine writeUnit_foot_eq (hs.sub (by decide)) ‹_› ?_ | apply ite_foot | simp only [foot_mk] | apply Foot.parts | refine parts_host (hs.bit (by decide)) (Foot.parts ?_)
    | split | dsimp only)

theorem memBlock_foot {slot opcode : Nat} {data : List (List Byte)} (hs : Sub 0x182600000000008588380000000000000000007a680000000000000000000000000000000000000 μ) (hk : Foot μ σ τ) : Foot μ σ (τ.memBlock slot opcode data).2 := by
  unfold State.memBlock
  repeat' with_reducible (first
    | assumption | (intro _ _ _) | refine allocNow_foot (hs.sub (by decide)) ?_ | refine allocNow_foot_eq (hs.sub (by decide)) ‹_› ?_ | refine countBlock_foot (hs.sub (by decide)) ?_ | refine freeObj_foot (hs.sub (by decide)) ?_
    | refine memUnit_foot (hs.sub (by decide)) ?_ | apply each_foot' | apply ite_foot | simp only [foot_mk] | apply Foot.parts | split
    | dsimp only)

theorem memBlock_foot_eq {slot opcode : Nat} {data : List (List Byte)} {y} (hs : Sub 0x182600000000008588380000000000000000007a680000000000000000000000000000000000000 μ) (he : τ.memBlock slot opcode data = (y, υ)) (hk : Foot μ σ τ) : Foot μ σ υ := by
  have := memBlock_foot (slot := slot) (opcode := opcode) (data := data) hs hk
  rwa [he] at this

theorem memUnits_foot {slot opcode : Nat} {data : List (List Byte)} {fail : Option MemFail} (hs : Sub 0x182600000000008588380000000000000000007a680000000000000000000000000000000000000 μ) (hk : Foot μ σ τ) : Foot μ σ (τ.memUnits slot opcode data fail) := by
  unfold State.memUnits
  repeat' with_reducible (first
    | assumption | (intro _ _ _) | refine memBlock_foot (hs.sub (by decide)) ?_ | refine memBlock_foot_eq (hs.sub (by decide)) ‹_› ?_ | refine memUnit_foot (hs.sub (by decide)) ?_ | apply foldl_foot_fst
    | apply foldl_foot_snd | refine foldl_foot_fst_eq ‹_› ?_ ?_ | refine foldl_foot_snd_eq ‹_› ?_ ?_ | apply ite_foot | split | dsimp only)

theorem memRead_foot {slot units : Nat} {fail : Option MemFail} (hs : Sub 0x182600000000008588380000000000000000007a680000000000000000000000000000000000000 μ) (hk : Foot μ σ τ) : Foot μ σ (τ.memRead slot units fail) := by
  unfold State.memRead
  repeat' with_reducible (first
    | assumption | (intro _ _ _) | refine memUnits_foot (hs.sub (by decide)) ?_ | apply ite_foot | dsimp only)

theorem memWrite_foot {slot : Nat} {data : List (List Byte)} {fail : Option MemFail} (hs : Sub 0x182600000000008588380000000000000000007a680000000000000000000000000000000000000 μ) (hk : Foot μ σ τ) : Foot μ σ (τ.memWrite slot data fail) := by
  unfold State.memWrite
  repeat' with_reducible (first
    | assumption | (intro _ _ _) | refine memUnits_foot (hs.sub (by decide)) ?_ | apply ite_foot | dsimp only)

theorem resetHst_foot (hs : Sub 0x10000000000000fffffffffffffffffffffffffffffffffffffffffffffffffffffffffffffffff μ) (hk : Foot μ σ τ) : Foot μ σ (τ.resetHst) := by
  unfold State.resetHst
  repeat' with_reducible (first
    | assumption | (intro _ _ _) | refine wr_foot (hs.bit (by decide)) ?_ | refine parts_all hs (by decide) (parts_host (hs.bit (by decide)) (Foot.parts ?_)) | apply ite_foot | simp only [foot_mk]
    | apply Foot.parts | refine parts_host (hs.bit (by decide)) (Foot.parts ?_) | dsimp only)

theorem hostReset_foot (hs : Sub 0x117e0000000000fffffffffffffffffffffffffffffffffffffffffffffffffffffffffffffffff μ) (hk : Foot μ σ τ) : Foot μ σ (τ.hostReset) := by
  unfold State.hostReset
  repeat' with_reducible (first
    | assumption | (intro _ _ _) | refine endOp_foot (hs.sub (by decide)) ?_ | refine failLoad_foot (hs.sub (by decide)) ?_ | refine resetHst_foot (hs.sub (by decide)) ?_ | refine undoPlan_foot (hs.sub (by decide)) ?_
    | refine parts_all hs (by decide) (Foot.parts ?_) | apply each_foot' | apply ite_foot | simp only [foot_mk] | apply Foot.parts | split
    | dsimp only)

theorem failSpaces_foot {i : Nat} (hs : Sub 0x1000000000000081800000000000000000000000000000000000000000000000000000000000000 μ) (hk : Foot μ σ τ) : Foot μ σ (τ.failSpaces i) := by
  unfold State.failSpaces
  repeat' with_reducible (first
    | assumption | (intro _ _ _) | refine failMem_foot (hs.sub (by decide)) ?_ | apply each_foot' | apply ite_foot | simp only [foot_mk]
    | apply Foot.parts | split | dsimp only)

theorem hostLinkDown_foot {flr : Bool} (hs : Sub 0x117e0000000000fffffffffffffffffffffffffffffffffffffffffffffffffffffffffffffffff μ) (hk : Foot μ σ τ) : Foot μ σ (τ.hostLinkDown flr) := by
  unfold State.hostLinkDown
  repeat' with_reducible (first
    | assumption | (intro _ _ _) | refine hostReset_foot (hs.sub (by decide)) ?_ | refine inc_foot (hs.bit (by decide)) ?_ | refine raise_foot (hs.sub (by decide)) ?_ | refine wr_foot (hs.bit (by decide)) ?_
    | apply ite_foot | split | dsimp only)

end Sys2Proof.Machine
end

