-- ==== Sys2Proof/Laws/FootSystem.lean ====
section
/-!
SUPPORT. Which registers and parts of the state the operations of Collector, Recorder, Power, Boot, Security may change (`Foot`).
-/

namespace Sys2Proof.Machine

set_option Elab.async false
set_option linter.unusedTactic false
set_option linter.unreachableTactic false
set_option linter.unusedSimpArgs false
set_option linter.unusedVariables false

variable {μ : Nat} {σ τ υ : State}

theorem faultMessage_foot {ring : Ring} (hs : Sub 0x6000000000000000000000000000000000000000000000000000000000000000000000000000 μ) (hk : Foot μ σ τ) : Foot μ σ (τ.faultMessage ring) := by
  unfold State.faultMessage
  repeat' with_reducible (first
    | assumption | (intro _ _ _) | refine deliver_foot (hs.sub (by decide)) ?_ | refine takeOff_foot (hs.sub (by decide)) ?_ | apply ite_foot | simp only [foot_mk]
    | apply Foot.parts | refine parts_flt (hs.bit (by decide)) (Foot.parts ?_) | split | dsimp only)

theorem sendInt_foot {v : Nat} (hs : Sub 0x4000000000080000000000000000000000000000000000000000000000000000000000000000 μ) (hk : Foot μ σ τ) : Foot μ σ (τ.sendInt v) := by
  unfold State.sendInt
  repeat' with_reducible (first
    | assumption | (intro _ _ _) | refine msix_foot (hs.sub (by decide)) ?_ | apply ite_foot | simp only [foot_mk] | apply Foot.parts
    | refine parts_flt (hs.bit (by decide)) (Foot.parts ?_) | split | dsimp only)

theorem holdoffEnd_foot {v : Nat} (hs : Sub 0x4000000000080000000000000000000000000000000000000000000000000000000000000000 μ) (hk : Foot μ σ τ) : Foot μ σ (τ.holdoffEnd v) := by
  unfold State.holdoffEnd
  repeat' with_reducible (first
    | assumption | (intro _ _ _) | refine msix_foot (hs.sub (by decide)) ?_ | apply ite_foot | simp only [foot_mk] | apply Foot.parts
    | refine parts_flt (hs.bit (by decide)) (Foot.parts ?_) | split | dsimp only)

theorem sendNotice_foot {src : Nat} (hs : Sub 0x0 μ) (hk : Foot μ σ τ) : Foot μ σ (τ.sendNotice src) := by
  unfold State.sendNotice
  repeat' with_reducible (first
    | assumption | (intro _ _ _) | apply emit_foot | apply ite_foot | split | dsimp only)

theorem blockReset_foot {src detail : Nat} (hs : Sub 0x117e0000000000fffffffffffffffffffffffffffffffffffffffffffffffffffffffffffffffff μ) (hk : Foot μ σ τ) : Foot μ σ (τ.blockReset src detail) := by
  unfold State.blockReset
  repeat' with_reducible (first
    | assumption | (intro _ _ _) | refine hostLinkDown_foot (hs.sub (by decide)) ?_ | refine hwFence_foot (hs.sub (by decide)) ?_ | refine inc_foot (hs.bit (by decide)) ?_ | refine portDown_foot (hs.sub (by decide)) ?_
    | refine setLaser_foot (hs.sub (by decide)) ?_ | refine setLaserEnable_foot (hs.sub (by decide)) ?_ | refine setLevel_foot (hs.sub (by decide)) ?_ | refine setPort_foot (hs.sub (by decide)) ?_ | refine syncLink_foot (hs.sub (by decide)) ?_ | refine wr_foot (hs.bit (by decide)) ?_
    | apply ite_foot | simp only [foot_mk] | apply Foot.parts | split | dsimp only)

theorem react_foot {src detail : Nat} {rose : Bool} (hs : Sub 0x117e0000000000fffffffffffffffffffffffffffffffffffffffffffffffffffffffffffffffff μ) (hk : Foot μ σ τ) : Foot μ σ (τ.react src detail rose) := by
  unfold State.react
  repeat' with_reducible (first
    | assumption | (intro _ _ _) | refine blockReset_foot (hs.sub (by decide)) ?_ | apply emit_foot | refine sendInt_foot (hs.sub (by decide)) ?_ | refine sendNotice_foot (hs.sub (by decide)) ?_
    | refine trigger_foot (hs.sub (by decide)) ?_ | refine wr_foot (hs.bit (by decide)) ?_ | apply ite_foot | simp only [foot_mk] | apply Foot.parts | refine parts_flt (hs.bit (by decide)) (Foot.parts ?_)
    | split | dsimp only)

theorem faultRaise_foot (hs : Sub 0x117e0000000000fffffffffffffffffffffffffffffffffffffffffffffffffffffffffffffffff μ) (hk : Foot μ σ τ) : Foot μ σ (τ.faultRaise) := by
  unfold State.faultRaise
  repeat' with_reducible (first
    | assumption | (intro _ _ _) | refine inc_foot (hs.bit (by decide)) ?_ | refine latch_foot (hs.bit (by decide)) ?_ | apply mark_foot | apply noteWas_foot
    | refine react_foot (hs.sub (by decide)) ?_ | refine syncActive_foot (hs.sub (by decide)) ?_ | refine syncFaults_foot (hs.sub (by decide)) ?_ | refine wr_foot (hs.bit (by decide)) ?_ | apply each_foot' | apply ite_foot
    | simp only [foot_mk] | apply Foot.parts | refine parts_flt (hs.bit (by decide)) (Foot.parts ?_) | split | dsimp only)

theorem clearPending_foot {src : Nat} {raised : Bool} (hs : Sub 0x4000000000000000000000000000000000000000000000000000000000000000007100000000 μ) (hk : Foot μ σ τ) : Foot μ σ (τ.clearPending src raised) := by
  unfold State.clearPending
  repeat' with_reducible (first
    | assumption | (intro _ _ _) | apply mark_foot | refine syncFaults_foot (hs.sub (by decide)) ?_ | refine wr_foot (hs.bit (by decide)) ?_ | apply ite_foot
    | split | dsimp only)

theorem writeSrcCfg_foot {src value : Nat} (hs : Sub 0x4000000000000000000000000000000000000000000000000000000000000000007800000000 μ) (hk : Foot μ σ τ) : Foot μ σ (τ.writeSrcCfg src value) := by
  unfold State.writeSrcCfg
  refine syncFaults_foot (hs.sub (by decide)) (each_foot_mem hk (fun u f hf h => ?_))
  refine ite_foot (wrNext_foot ?_ h) h
  rw [(by decide : ∀ f ∈ Reg.fields .FLT_SRC_CFG, f.reg = .FLT_SRC_CFG) f hf]
  exact hs.bit (by decide)

theorem enterSafe_foot {cause word : Nat} (hs : Sub 0x17e000000000000000000000000002c01091d7a640000000000000044000100000427700000000 μ) (hk : Foot μ σ τ) : Foot μ σ (τ.enterSafe cause word) := by
  unfold State.enterSafe
  repeat' with_reducible (first
    | assumption | (intro _ _ _) | refine inc_foot (hs.bit (by decide)) ?_ | refine latch_foot (hs.bit (by decide)) ?_ | refine setFences_foot (hs.sub (by decide)) ?_ | refine syncFaults_foot (hs.sub (by decide)) ?_
    | refine trigger_foot (hs.sub (by decide)) ?_ | refine wr_foot (hs.bit (by decide)) ?_ | apply ite_foot | split | dsimp only)

theorem undecideFaults_foot (hs : Sub 0xc000000000000000000000000000000000000000000000000000000000000000400700000000 μ) (hk : Foot μ σ τ) : Foot μ σ (τ.undecideFaults) := by
  unfold State.undecideFaults
  repeat' with_reducible (first
    | assumption | (intro _ _ _) | refine restoreWas_foot (hs.bit (by decide)) ?_ | refine wr_foot (hs.bit (by decide)) ?_ | refine each_foot_mem ?_ (fun u f hf h => restoreWas_foot ((hs.sub (b := 0x700000000) (by decide)).bit ((by decide : ∀ f ∈ decidedFields, Nat.testBit 0x700000000 f.reg.ctorIdx = true) f hf)) h) | apply each_foot'
    | apply ite_foot | simp only [foot_mk] | apply Foot.parts | refine parts_flt (hs.bit (by decide)) (parts_evr (hs.bit (by decide)) (Foot.parts ?_)) | split | dsimp only)

theorem sweep_foot {corrected : Nat} {bad : Option (Nat × Nat)} (hs : Sub 0x17e000000000000000000000000002c01091d7a640000000000000044000100000427700000000 μ) (hk : Foot μ σ τ) : Foot μ σ (τ.sweep corrected bad) := by
  unfold State.sweep
  repeat' with_reducible (first
    | assumption | (intro _ _ _) | refine enterSafe_foot (hs.sub (by decide)) ?_ | refine inc_foot (hs.bit (by decide)) ?_ | refine undecideFaults_foot (hs.sub (by decide)) ?_ | apply ite_foot
    | simp only [foot_mk] | apply Foot.parts | split | dsimp only)

theorem collectorFail_foot {cause word : Nat} (hs : Sub 0x17e000000000000000000000000002c01091d7a640000000000000044000100000427700000000 μ) (hk : Foot μ σ τ) : Foot μ σ (τ.collectorFail cause word) := by
  unfold State.collectorFail
  repeat' with_reducible (first
    | assumption | (intro _ _ _) | refine enterSafe_foot (hs.sub (by decide)) ?_ | refine undecideFaults_foot (hs.sub (by decide)) ?_ | apply ite_foot | split
    | dsimp only)

theorem writeInject_foot {value : Nat} (hs : Sub 0x17e000000000000000000000000002c01091d7a640000000000000044000100000427700000000 μ) (hk : Foot μ σ τ) : Foot μ σ (τ.writeInject value) := by
  unfold State.writeInject
  repeat' with_reducible (first
    | assumption | (intro _ _ _) | refine enterSafe_foot (hs.sub (by decide)) ?_ | refine raise_foot (hs.sub (by decide)) ?_ | apply ite_foot | split
    | dsimp only)

theorem noticeRepeat_foot (hs : Sub 0x4000000000000000000000000000000000000000000000000000000000000000000000000000 μ) (hk : Foot μ σ τ) : Foot μ σ (τ.noticeRepeat) := by
  unfold State.noticeRepeat
  repeat' with_reducible (first
    | assumption | (intro _ _ _) | refine sendNotice_foot (hs.sub (by decide)) ?_ | apply ite_foot | simp only [foot_mk] | apply Foot.parts
    | refine parts_flt (hs.bit (by decide)) (Foot.parts ?_) | split | dsimp only)

theorem watchdog_foot (hs : Sub 0x6000000000000000000000000000000000000000000000000000000000000000000000000000 μ) (hk : Foot μ σ τ) : Foot μ σ (τ.watchdog) := by
  unfold State.watchdog
  repeat' with_reducible (first
    | assumption | (intro _ _ _) | refine raise_foot (hs.sub (by decide)) ?_ | apply ite_foot | dsimp only)

theorem levelChange_foot {src unit : Nat} {c : Bool} (hs : Sub 0x6000000000000000000000000000000000000000000000000000000000000000007100000000 μ) (hk : Foot μ σ τ) : Foot μ σ (τ.levelChange src unit c) := by
  unfold State.levelChange
  repeat' with_reducible (first
    | assumption | (intro _ _ _) | refine setLevel_foot (hs.sub (by decide)) ?_ | refine syncFaults_foot (hs.sub (by decide)) ?_ | apply ite_foot | split
    | dsimp only)

theorem syncOldest_foot (hs : Sub 0x2000000000000 μ) (hk : Foot μ σ τ) : Foot μ σ (τ.syncOldest) := by
  unfold State.syncOldest
  repeat' with_reducible (first
    | assumption | (intro _ _ _) | refine wr_foot (hs.bit (by decide)) ?_ | apply ite_foot | simp only [foot_mk] | apply Foot.parts
    | split | dsimp only)

theorem snapshotStart_foot (hs : Sub 0x8000000000000000000000000000000000000000000000000000000000000002400000000000 μ) (hk : Foot μ σ τ) : Foot μ σ (τ.snapshotStart) := by
  unfold State.snapshotStart
  repeat' with_reducible (first
    | assumption | (intro _ _ _) | refine inc_foot (hs.bit (by decide)) ?_ | refine syncOldest_foot (hs.sub (by decide)) ?_ | refine wr_foot (hs.bit (by decide)) ?_ | apply ite_foot
    | simp only [foot_mk] | apply Foot.parts | refine parts_evr (hs.bit (by decide)) (Foot.parts ?_) | split | dsimp only)

theorem snapshotReadTimeout_foot {i : Nat} (hs : Sub 0x8000000000000000000000000000000000000000000000000000000000000000000000000000 μ) (hk : Foot μ σ τ) : Foot μ σ (τ.snapshotReadTimeout i) := by
  unfold State.snapshotReadTimeout
  repeat' with_reducible (first
    | assumption | (intro _ _ _) | apply ite_foot | simp only [foot_mk] | apply Foot.parts | refine parts_evr (hs.bit (by decide)) (Foot.parts ?_)
    | split | dsimp only)

theorem snapshotComplete_foot (hs : Sub 0x8000000000000000000000000000000000000000000000000000000000000002600000000000 μ) (hk : Foot μ σ τ) : Foot μ σ (τ.snapshotComplete) := by
  unfold State.snapshotComplete
  repeat' with_reducible (first
    | assumption | (intro _ _ _) | refine inc_foot (hs.bit (by decide)) ?_ | refine syncOldest_foot (hs.sub (by decide)) ?_ | refine wr_foot (hs.bit (by decide)) ?_ | apply foldl_foot_fst
    | apply foldl_foot_snd | refine foldl_foot_fst_eq ‹_› ?_ ?_ | refine foldl_foot_snd_eq ‹_› ?_ ?_ | apply ite_foot | simp only [foot_mk] | apply Foot.parts
    | refine parts_evr (hs.bit (by decide)) (Foot.parts ?_) | split | dsimp only)

theorem periodicTrigger_foot (hs : Sub 0x8000000000000000000000000000000000000000000000000000000000000000400000000000 μ) (hk : Foot μ σ τ) : Foot μ σ (τ.periodicTrigger) := by
  unfold State.periodicTrigger
  repeat' with_reducible (first
    | assumption | (intro _ _ _) | refine triggerOther_foot (hs.sub (by decide)) ?_ | apply ite_foot | simp only [foot_mk] | apply Foot.parts
    | refine parts_evr (hs.bit (by decide)) (Foot.parts ?_) | split | dsimp only)

theorem softwareTrigger_foot {value : Nat} (hs : Sub 0x8000000000000000000000000000000000000000000000000000000000000000400000000000 μ) (hk : Foot μ σ τ) : Foot μ σ (τ.softwareTrigger value) := by
  unfold State.softwareTrigger
  repeat' with_reducible (first
    | assumption | (intro _ _ _) | refine triggerOther_foot (hs.sub (by decide)) ?_ | apply ite_foot | split | dsimp only)

theorem evrUncorr_foot {slot : Nat} (hs : Sub 0x6000000000000000000000000000000000000000000000000000000000000010000000000000 μ) (hk : Foot μ σ τ) : Foot μ σ (τ.evrUncorr slot) := by
  unfold State.evrUncorr
  repeat' with_reducible (first
    | assumption | (intro _ _ _) | refine inc_foot (hs.bit (by decide)) ?_ | refine raise_foot (hs.sub (by decide)) ?_ | apply ite_foot | dsimp only)

theorem ringCopyBatch_foot {corrected : Nat} {bad : List (Nat × Nat)} (hs : Sub 0x82e00000000000000200000000000000000007a680000000000000000000000012000000000000 μ) (hk : Foot μ σ τ) : Foot μ σ (τ.ringCopyBatch corrected bad) := by
  unfold State.ringCopyBatch
  repeat' with_reducible (first
    | assumption | (intro _ _ _) | refine allocNow_foot (hs.sub (by decide)) ?_ | refine allocNow_foot_eq (hs.sub (by decide)) ‹_› ?_ | refine countBlock_foot (hs.sub (by decide)) ?_ | refine evrUncorr_foot (hs.sub (by decide)) ?_
    | refine freeObj_foot (hs.sub (by decide)) ?_ | refine gddrWrite_foot (hs.sub (by decide)) ?_ | refine gddrWrite_foot_eq (hs.sub (by decide)) ‹_› ?_ | refine inc_foot (hs.bit (by decide)) ?_ | refine syncOldest_foot (hs.sub (by decide)) ?_ | apply each_foot'
    | apply foldl_foot_fst | apply foldl_foot_snd | refine foldl_foot_fst_eq ‹_› ?_ ?_ | refine foldl_foot_snd_eq ‹_› ?_ ?_ | apply ite_foot | simp only [foot_mk]
    | apply Foot.parts | refine parts_evr (hs.bit (by decide)) (Foot.parts ?_) | split | dsimp only)

theorem ringSelect_foot {n : Nat} (hs : Sub 0x800000000000000000000000000000000000000000000000000000000000000c000000000000 μ) (hk : Foot μ σ τ) : Foot μ σ (τ.ringSelect n) := by
  unfold State.ringSelect
  repeat' with_reducible (first
    | assumption | (intro _ _ _) | refine wr_foot (hs.bit (by decide)) ?_ | apply ite_foot | simp only [foot_mk] | apply Foot.parts
    | refine parts_evr (hs.bit (by decide)) (Foot.parts ?_) | dsimp only)

theorem ringReady_foot (hs : Sub 0xe000000000000003800000000000000000000000000000000000000000000008000000000000 μ) (hk : Foot μ σ τ) : Foot μ σ (τ.ringReady) := by
  unfold State.ringReady
  repeat' with_reducible (first
    | assumption | (intro _ _ _) | refine gddrRead_foot (hs.sub (by decide)) ?_ | refine gddrRead_foot_eq (hs.sub (by decide)) ‹_› ?_ | refine wr_foot (hs.bit (by decide)) ?_ | apply ite_foot
    | simp only [foot_mk] | apply Foot.parts | refine parts_evr (hs.bit (by decide)) (Foot.parts ?_) | split | dsimp only)

theorem operatingSecond_foot (hs : Sub 0x8000000000000000000000000000000000000000000000000000000000000020000000000000 μ) (hk : Foot μ σ τ) : Foot μ σ (τ.operatingSecond) := by
  unfold State.operatingSecond
  repeat' with_reducible (first
    | assumption | (intro _ _ _) | refine inc_foot (hs.bit (by decide)) ?_ | apply ite_foot | simp only [foot_mk] | apply Foot.parts
    | refine parts_evr (hs.bit (by decide)) (Foot.parts ?_) | split | dsimp only)

theorem program_foot {a n : Nat} {l : List Byte} (hs : Sub 0x8000000000000000000000000000000000000000000000000000000000000000000000000000000 μ) (hk : Foot μ σ τ) : Foot μ σ (τ.program a n l) := by
  unfold State.program
  repeat' with_reducible (first
    | assumption | (intro _ _ _) | apply ite_foot | simp only [foot_mk] | apply Foot.parts | refine parts_sec (hs.bit (by decide)) (Foot.parts ?_)
    | dsimp only)

theorem writePersistence_foot (hs : Sub 0xc008000000000000000000000000000000000000000000000000000000000000000000000000000 μ) (hk : Foot μ σ τ) : Foot μ σ (τ.writePersistence) := by
  unfold State.writePersistence
  repeat' with_reducible (first
    | assumption | (intro _ _ _) | refine program_foot (hs.sub (by decide)) ?_ | apply ite_foot | simp only [foot_mk] | apply Foot.parts
    | refine parts_evr (hs.bit (by decide)) (parts_boot (hs.bit (by decide)) (Foot.parts ?_)) | split | dsimp only)

theorem readPersistence_foot (hs : Sub 0x4000000000000000000000000000000000000000000000000000000000000000020000000000000 μ) (hk : Foot μ σ τ) : Foot μ σ (τ.readPersistence) := by
  unfold State.readPersistence
  repeat' with_reducible (first
    | assumption | (intro _ _ _) | refine wr_foot (hs.bit (by decide)) ?_ | apply foldl_foot_fst | apply foldl_foot_snd | refine foldl_foot_fst_eq ‹_› ?_ ?_
    | refine foldl_foot_snd_eq ‹_› ?_ ?_ | apply ite_foot | simp only [foot_mk] | apply Foot.parts | refine parts_boot (hs.bit (by decide)) (Foot.parts ?_) | split
    | dsimp only)

theorem persistenceWrite_foot (hs : Sub 0xc008000000000000000000000000000000000000000000000000000000000000000000000000000 μ) (hk : Foot μ σ τ) : Foot μ σ (τ.persistenceWrite) := by
  unfold State.persistenceWrite
  repeat' with_reducible (first
    | assumption | (intro _ _ _) | refine writePersistence_foot (hs.sub (by decide)) ?_ | apply ite_foot | split | dsimp only)

theorem setDomain_foot {d : Nat} {on : Bool} (hs : Sub 0x20000 μ) (hk : Foot μ σ τ) : Foot μ σ (τ.setDomain d on) := by
  unfold State.setDomain
  repeat' with_reducible (first
    | assumption | (intro _ _ _) | refine wr_foot (hs.bit (by decide)) ?_ | apply ite_foot | dsimp only)

theorem markUnit_foot {d : Nat} {off : Bool} (hs : Sub 0x2000000000000000000000000000000000000000000000000000000000000000000000000000000 μ) (hk : Foot μ σ τ) : Foot μ σ (τ.markUnit d off) := by
  unfold State.markUnit
  repeat' with_reducible (first
    | assumption | (intro _ _ _) | apply mark_foot | apply ite_foot | simp only [foot_mk] | apply Foot.parts
    | refine parts_pwr (hs.bit (by decide)) (Foot.parts ?_) | dsimp only)

theorem cutDomain_foot {d : Nat} (hs : Sub 0x2000000000000000000000000000000000000000000000000000000000000000000000000020000 μ) (hk : Foot μ σ τ) : Foot μ σ (τ.cutDomain d) := by
  unfold State.cutDomain
  repeat' with_reducible (first
    | assumption | (intro _ _ _) | refine setDomain_foot (hs.sub (by decide)) ?_ | apply ite_foot | simp only [foot_mk] | apply Foot.parts
    | refine parts_pwr (hs.bit (by decide)) (Foot.parts ?_) | dsimp only)

theorem portDomainOff_foot {p : Nat} (hs : Sub 0x217e000000000001000000000000002c01091d7a640000000000000044a00100b00400000020000 μ) (hk : Foot μ σ τ) : Foot μ σ (τ.portDomainOff p) := by
  unfold State.portDomainOff
  repeat' with_reducible (first
    | assumption | (intro _ _ _) | refine cutDomain_foot (hs.sub (by decide)) ?_ | refine hwFence_foot (hs.sub (by decide)) ?_ | refine markUnit_foot (hs.sub (by decide)) ?_ | refine portDown_foot (hs.sub (by decide)) ?_
    | refine syncLink_foot (hs.sub (by decide)) ?_ | apply ite_foot | dsimp only)

theorem quadOff_foot {q : Nat} (hs : Sub 0x230e000000000000000000000000100001000000000fc5540a00000000000000000400000000000 μ) (hk : Foot μ σ τ) : Foot μ σ (τ.quadOff q) := by
  unfold State.quadOff
  repeat' with_reducible (first
    | assumption | (intro _ _ _) | refine exactLoss_foot (hs.sub (by decide)) (hs.bit (by decide)) ?_ | refine readmitAll_foot (hs.sub (by decide)) ?_ | refine substitute_foot (hs.sub (by decide)) ?_ | refine substitute_foot_eq (hs.sub (by decide)) ‹_› ?_
    | refine syncClusters_foot (hs.sub (by decide)) ?_ | refine takeBackAll_foot (hs.sub (by decide)) ?_ | refine wr_foot (hs.bit (by decide)) ?_ | apply each_foot' | apply foldl_foot_fst | apply foldl_foot_snd
    | refine foldl_foot_fst_eq ‹_› ?_ ?_ | refine foldl_foot_snd_eq ‹_› ?_ ?_ | apply ite_foot | simp only [foot_mk] | apply Foot.parts | refine parts_pwr (hs.bit (by decide)) (parts_comp (hs.bit (by decide)) (Foot.parts ?_))
    | split | dsimp only)

theorem cxlDown_foot {i : Nat} (hs : Sub 0x1006000000000081820000000000000000000000000000000000000000000000000000100000000 μ) (hk : Foot μ σ τ) : Foot μ σ (τ.cxlDown i) := by
  unfold State.cxlDown
  repeat' with_reducible (first
    | assumption | (intro _ _ _) | refine failSpaces_foot (hs.sub (by decide)) ?_ | refine inc_foot (hs.bit (by decide)) ?_ | refine setLevel_foot (hs.sub (by decide)) ?_ | refine wr_foot (hs.bit (by decide)) ?_
    | apply ite_foot | split | dsimp only)

theorem domainOff_foot {d : Nat} (hs : Sub 0x337e0000000000fffffffffffffffffffffffffffffffffffffffffffffffffffffffffffffffff μ) (hk : Foot μ σ τ) : Foot μ σ (τ.domainOff d) := by
  unfold State.domainOff
  repeat' with_reducible (first
    | assumption | (intro _ _ _) | refine cutDomain_foot (hs.sub (by decide)) ?_ | refine cxlDown_foot (hs.sub (by decide)) ?_ | refine hostLinkDown_foot (hs.sub (by decide)) ?_ | refine mapChange_foot (hs.sub (by decide)) ?_
    | refine markUnit_foot (hs.sub (by decide)) ?_ | refine portDomainOff_foot (hs.sub (by decide)) ?_ | refine quadOff_foot (hs.sub (by decide)) ?_ | refine setLaserEnable_foot (hs.sub (by decide)) ?_ | refine setLevel_foot (hs.sub (by decide)) ?_ | refine syncFaults_foot (hs.sub (by decide)) ?_
    | apply each_foot' | apply ite_foot | split | dsimp only)

theorem domainOnNext_foot (hs : Sub 0x200800000000000000000000000000000000000000000000000000000000000000040000002001c μ) (hk : Foot μ σ τ) : Foot μ σ (τ.domainOnNext) := by
  unfold State.domainOnNext
  repeat' with_reducible (first
    | assumption | (intro _ _ _) | refine mapChange_foot (hs.sub (by decide)) ?_ | refine markUnit_foot (hs.sub (by decide)) ?_ | refine setDomain_foot (hs.sub (by decide)) ?_ | apply ite_foot
    | simp only [foot_mk] | apply Foot.parts | refine parts_pwr (hs.bit (by decide)) (Foot.parts ?_) | split | dsimp only)

theorem domainPowered_foot {d : Nat} (hs : Sub 0x217e000000000001000000000000002c01091d7a640000000000000044a00100b00400000020000 μ) (hk : Foot μ σ τ) : Foot μ σ (τ.domainPowered d) := by
  unfold State.domainPowered
  repeat' with_reducible (first
    | assumption | (intro _ _ _) | refine realign_foot (hs.sub (by decide)) ?_ | refine setDomain_foot (hs.sub (by decide)) ?_ | apply each_foot' | apply ite_foot
    | simp only [foot_mk] | apply Foot.parts | refine parts_pwr (hs.bit (by decide)) (Foot.parts ?_) | split | dsimp only)

theorem writeDomainOff_foot {host : Bool} {i value : Nat} (hs : Sub 0x800e000000000000000000000000000000000000000000000000000000000000000400010018000 μ) (hk : Foot μ σ τ) : Foot μ σ (τ.writeDomainOff host i value) := by
  unfold State.writeDomainOff
  repeat' with_reducible (first
    | assumption | (intro _ _ _) | refine noteOrder_foot (hs.sub (by decide)) ?_ | refine wr_foot (hs.bit (by decide)) ?_ | refine wr_foot (by cases host <;> exact hs.bit (by decide)) ?_ | apply each_foot'
    | apply foldl_foot_fst | apply foldl_foot_snd | refine foldl_foot_fst_eq ‹_› ?_ ?_ | refine foldl_foot_snd_eq ‹_› ?_ ?_ | apply ite_foot | split
    | dsimp only)

theorem inputSample_foot {volts amps : Nat} (hs : Sub 0x6000000000000000000000000000000000000000000000000000000000000000007100000600 μ) (hk : Foot μ σ τ) : Foot μ σ (τ.inputSample volts amps) := by
  unfold State.inputSample
  repeat' with_reducible (first
    | assumption | (intro _ _ _) | refine setLevel_foot (hs.sub (by decide)) ?_ | refine syncFaults_foot (hs.sub (by decide)) ?_ | refine wr_foot (hs.bit (by decide)) ?_ | apply ite_foot
    | split | dsimp only)

theorem railFault_foot {stop rail : Nat} (hs : Sub 0x6000000000000000000000000000000000000000000000000000000000000000000000000800 μ) (hk : Foot μ σ τ) : Foot μ σ (τ.railFault stop rail) := by
  unfold State.railFault
  repeat' with_reducible (first
    | assumption | (intro _ _ _) | refine inc_foot (hs.bit (by decide)) ?_ | refine raise_foot (hs.sub (by decide)) ?_ | refine wr_foot (hs.bit (by decide)) ?_ | apply ite_foot
    | dsimp only)

theorem thermWarn_foot (hs : Sub 0x2006000000000000000000000000000000000000000000000000000000000000000000100000000 μ) (hk : Foot μ σ τ) : Foot μ σ (τ.thermWarn) := by
  unfold State.thermWarn
  repeat' with_reducible (first
    | assumption | (intro _ _ _) | refine setLevel_foot (hs.sub (by decide)) ?_ | apply ite_foot | simp only [foot_mk] | apply Foot.parts
    | refine parts_pwr (hs.bit (by decide)) (Foot.parts ?_) | dsimp only)

theorem thermalSample_foot {temps : List Nat} (hs : Sub 0x2006000000000000000000000000000000000000000000000000000000000000000007100044000 μ) (hk : Foot μ σ τ) : Foot μ σ (τ.thermalSample temps) := by
  unfold State.thermalSample
  repeat' with_reducible (first
    | assumption | (intro _ _ _) | refine raise_foot (hs.sub (by decide)) ?_ | refine syncFaults_foot (hs.sub (by decide)) ?_ | refine thermWarn_foot (hs.sub (by decide)) ?_ | refine wr_foot (hs.bit (by decide)) ?_
    | apply each_foot' | apply foldl_foot_fst | apply foldl_foot_snd | refine foldl_foot_fst_eq ‹_› ?_ ?_ | refine foldl_foot_snd_eq ‹_› ?_ ?_ | apply ite_foot
    | simp only [foot_mk] | apply Foot.parts | refine parts_pwr (hs.bit (by decide)) (Foot.parts ?_) | split | dsimp only)

theorem pllLock_foot {locked : Bool} (hs : Sub 0x6000000000000000000000000000000000000000000000000000000000000000000100001000 μ) (hk : Foot μ σ τ) : Foot μ σ (τ.pllLock locked) := by
  unfold State.pllLock
  repeat' with_reducible (first
    | assumption | (intro _ _ _) | refine inc_foot (hs.bit (by decide)) ?_ | refine setLevel_foot (hs.sub (by decide)) ?_ | refine wr_foot (hs.bit (by decide)) ?_ | apply ite_foot
    | split | dsimp only)

theorem chipReset_foot {kind source : Nat} (hs : Sub 0xffff0000000000fffffffffffffffffffffffffffffffffffffffffffffffffffffffffffffffff μ) (_ : Foot μ σ τ) : Foot μ σ (τ.chipReset kind source) := foot_all hs

theorem resetReactionDue_foot (hs : Sub 0xffff0000000000fffffffffffffffffffffffffffffffffffffffffffffffffffffffffffffffff μ) (hk : Foot μ σ τ) : Foot μ σ (τ.resetReactionDue) := by
  unfold State.resetReactionDue
  repeat' with_reducible (first
    | assumption | (intro _ _ _) | refine chipReset_foot (hs.sub (by decide)) ?_ | apply ite_foot | simp only [foot_mk] | apply Foot.parts
    | split | dsimp only)

theorem goDark_foot {good : Bool} (hs : Sub 0xffff0000000000fffffffffffffffffffffffffffffffffffffffffffffffffffffffffffffffff μ) (_ : Foot μ σ τ) : Foot μ σ (τ.goDark good) := foot_all hs

theorem powerUp_foot (hs : Sub 0xffff0000000000fffffffffffffffffffffffffffffffffffffffffffffffffffffffffffffffff μ) (_ : Foot μ σ τ) : Foot μ σ τ.powerUp := foot_all hs

theorem powerGoodRise_foot {volts : Nat} (hs : Sub 0xffff0000000000fffffffffffffffffffffffffffffffffffffffffffffffffffffffffffffffff μ) (hk : Foot μ σ τ) : Foot μ σ (τ.powerGoodRise volts) := by
  unfold State.powerGoodRise
  repeat' with_reducible (first
    | assumption | (intro _ _ _) | refine powerUp_foot (hs.sub (by decide)) ?_ | apply ite_foot | simp only [foot_mk] | apply Foot.parts
    | refine parts_pwr (hs.bit (by decide)) (Foot.parts ?_) | split | dsimp only)

theorem startThreshold_foot (hs : Sub 0xffff0000000000fffffffffffffffffffffffffffffffffffffffffffffffffffffffffffffffff μ) (hk : Foot μ σ τ) : Foot μ σ (τ.startThreshold) := by
  unfold State.startThreshold
  repeat' with_reducible (first
    | assumption | (intro _ _ _) | refine powerUp_foot (hs.sub (by decide)) ?_ | apply ite_foot | split | dsimp only)

theorem powerGoodFall_foot (hs : Sub 0xffff0000000000fffffffffffffffffffffffffffffffffffffffffffffffffffffffffffffffff μ) (hk : Foot μ σ τ) : Foot μ σ (τ.powerGoodFall) := by
  unfold State.powerGoodFall
  repeat' with_reducible (first
    | assumption | (intro _ _ _) | refine goDark_foot (hs.sub (by decide)) ?_ | apply ite_foot | split | dsimp only)

theorem inputShutdown_foot (hs : Sub 0xffff0000000000fffffffffffffffffffffffffffffffffffffffffffffffffffffffffffffffff μ) (hk : Foot μ σ τ) : Foot μ σ (τ.inputShutdown) := by
  unfold State.inputShutdown
  repeat' with_reducible (first
    | assumption | (intro _ _ _) | refine goDark_foot (hs.sub (by decide)) ?_ | apply ite_foot | split | dsimp only)

theorem resetLow_foot (hs : Sub 0xffff0000000000fffffffffffffffffffffffffffffffffffffffffffffffffffffffffffffffff μ) (hk : Foot μ σ τ) : Foot μ σ (τ.resetLow) := by
  unfold State.resetLow
  repeat' with_reducible (first
    | assumption | (intro _ _ _) | refine chipReset_foot (hs.sub (by decide)) ?_ | apply ite_foot | simp only [foot_mk] | apply Foot.parts
    | refine parts_pwr (hs.bit (by decide)) (Foot.parts ?_) | split | dsimp only)

theorem resetRelease_foot {board : Nat} (hs : Sub 0x2000000000000000000000000000000000000000000000000000000000000000000000000000000 μ) (hk : Foot μ σ τ) : Foot μ σ (τ.resetRelease board) := by
  unfold State.resetRelease
  repeat' with_reducible (first
    | assumption | (intro _ _ _) | apply ite_foot | simp only [foot_mk] | apply Foot.parts | refine parts_pwr (hs.bit (by decide)) (Foot.parts ?_)
    | split | dsimp only)

theorem bootStop_foot {code : Nat} (hs : Sub 0x6000000000000000000000000000000000000000000000000000000000000000007100080000 μ) (hk : Foot μ σ τ) : Foot μ σ (τ.bootStop code) := by
  unfold State.bootStop
  repeat' with_reducible (first
    | assumption | (intro _ _ _) | refine setLevel_foot (hs.sub (by decide)) ?_ | refine syncFaults_foot (hs.sub (by decide)) ?_ | refine wr_foot (hs.bit (by decide)) ?_ | apply ite_foot
    | dsimp only)

theorem bootFail_foot {code : Nat} (hs : Sub 0x6000000000000000000000000000000000000000000000000000000000000000007100080000 μ) (hk : Foot μ σ τ) : Foot μ σ (τ.bootFail code) := by
  unfold State.bootFail
  repeat' with_reducible (first
    | assumption | (intro _ _ _) | refine bootStop_foot (hs.sub (by decide)) ?_ | apply ite_foot | split | dsimp only)

theorem bootRom_foot (hs : Sub 0x4006000000000000000000000000000000000000000000000000000000000000000007100280000 μ) (hk : Foot μ σ τ) : Foot μ σ (τ.bootRom) := by
  unfold State.bootRom
  repeat' with_reducible (first
    | assumption | (intro _ _ _) | refine bootStop_foot (hs.sub (by decide)) ?_ | refine wr_foot (hs.bit (by decide)) ?_ | apply ite_foot | simp only [foot_mk]
    | apply Foot.parts | refine parts_boot (hs.bit (by decide)) (Foot.parts ?_) | split | dsimp only)

theorem bootNvmRead_foot {jedec size retries : Nat} (hs : Sub 0x4000000000000000000000000000000000000000000000000000000000000000000000000480000 μ) (hk : Foot μ σ τ) : Foot μ σ (τ.bootNvmRead jedec size retries) := by
  unfold State.bootNvmRead
  repeat' with_reducible (first
    | assumption | (intro _ _ _) | refine wr_foot (hs.bit (by decide)) ?_ | apply ite_foot | simp only [foot_mk] | apply Foot.parts
    | refine parts_boot (hs.bit (by decide)) (Foot.parts ?_) | split | dsimp only)

theorem bootVerify_foot {fwA fwB cfgA cfgB : Bool} (hs : Sub 0x4006000000000000000000000000000000000000000000000000000000000000000007101b80000 μ) (hk : Foot μ σ τ) : Foot μ σ (τ.bootVerify fwA fwB cfgA cfgB) := by
  unfold State.bootVerify
  repeat' with_reducible (first
    | assumption | (intro _ _ _) | refine bootStop_foot (hs.sub (by decide)) ?_ | refine setDigest_foot (hs.sub (by decide)) (hs.bit (by decide)) ?_ | refine wr_foot (hs.bit (by decide)) ?_ | apply ite_foot
    | simp only [foot_mk] | apply Foot.parts | refine parts_boot (hs.bit (by decide)) (Foot.parts ?_) | split | dsimp only)

theorem bootMemory_foot {failed : Nat} (hs : Sub 0x417e000000000001000400000000002c01091d7a640000000000000044a09100b00407100180000 μ) (hk : Foot μ σ τ) : Foot μ σ (τ.bootMemory failed) := by
  unfold State.bootMemory
  repeat' with_reducible (first
    | assumption | (intro _ _ _) | refine bootStop_foot (hs.sub (by decide)) ?_ | refine raise_foot (hs.sub (by decide)) ?_ | refine setLaserEnable_foot (hs.sub (by decide)) ?_ | refine wr_foot (hs.bit (by decide)) ?_
    | apply each_foot' | apply ite_foot | simp only [foot_mk] | apply Foot.parts | refine parts_boot (hs.bit (by decide)) (Foot.parts ?_) | split
    | dsimp only)

theorem bootLinks_foot (hs : Sub 0x8000000000000400000000000000000000000000000000000000000000000000400000180000 μ) (hk : Foot μ σ τ) : Foot μ σ (τ.bootLinks) := by
  unfold State.bootLinks
  repeat' with_reducible (first
    | assumption | (intro _ _ _) | refine triggerOther_foot (hs.sub (by decide)) ?_ | refine wr_foot (hs.bit (by decide)) ?_ | apply ite_foot | split
    | dsimp only)

theorem crcRetry_foot {ch retries : Nat} {lost : Option Nat} (hs : Sub 0x6000000000000001c00000000000000000000000000000000000000000000000000000000000 μ) (hk : Foot μ σ τ) : Foot μ σ (τ.crcRetry ch retries lost) := by
  unfold State.crcRetry
  repeat' with_reducible (first
    | assumption | (intro _ _ _) | refine gddrUncorr_foot (hs.sub (by decide)) ?_ | refine inc_foot (hs.bit (by decide)) ?_ | apply ite_foot | simp only [foot_mk]
    | apply Foot.parts | split | dsimp only)

theorem channelFail_foot {ch : Nat} (hs : Sub 0x200800000000000000040000000000000000000000000000000000000000000000040000000001c μ) (hk : Foot μ σ τ) : Foot μ σ (τ.channelFail ch) := by
  unfold State.channelFail
  repeat' with_reducible (first
    | assumption | (intro _ _ _) | refine mapChange_foot (hs.sub (by decide)) ?_ | refine markUnit_foot (hs.sub (by decide)) ?_ | refine wr_foot (hs.bit (by decide)) ?_ | apply ite_foot
    | split | dsimp only)

theorem cxlUpNow_foot {i speed width capacity : Nat} (hs : Sub 0x6000000000000060000000000000000000000000000000000000000000000000000100000000 μ) (hk : Foot μ σ τ) : Foot μ σ (τ.cxlUpNow i speed width capacity) := by
  unfold State.cxlUpNow
  repeat' with_reducible (first
    | assumption | (intro _ _ _) | refine setLevel_foot (hs.sub (by decide)) ?_ | refine wr_foot (hs.bit (by decide)) ?_ | apply ite_foot | split
    | dsimp only)

theorem hostUp_foot {speed width : Nat} (hs : Sub 0x2000000000000000000000000000000000000000000000000000000000000000 μ) (hk : Foot μ σ τ) : Foot μ σ (τ.hostUp speed width) := by
  unfold State.hostUp
  repeat' with_reducible (first
    | assumption | (intro _ _ _) | refine wr_foot (hs.bit (by decide)) ?_ | apply ite_foot | split | dsimp only)

theorem failDma_foot {slot addr : Nat} (hs : Sub 0x1000000000000085800000000000000000000000000000000000000000000000000000000000000 μ) (hk : Foot μ σ τ) : Foot μ σ (τ.failDma slot addr) := by
  unfold State.failDma
  repeat' with_reducible (first
    | assumption | (intro _ _ _) | refine failMem_foot (hs.sub (by decide)) ?_ | refine latch_foot (hs.bit (by decide)) ?_ | apply ite_foot | dsimp only)

theorem longEnd_foot {slot : Nat} {failure : Option (Nat × Nat)} (hs : Sub 0x117e0000000000fffffffffffffffffffffffffffffffffffffffffffffffffffffffffffffffff μ) (hk : Foot μ σ τ) : Foot μ σ (τ.longEnd slot failure) := by
  unfold State.longEnd
  repeat' with_reducible (first
    | assumption | (intro _ _ _) | refine failLoad_foot (hs.sub (by decide)) ?_ | refine failMem_foot (hs.sub (by decide)) ?_ | refine latch_foot (hs.bit (by decide)) ?_ | refine replaceDone_foot (hs.sub (by decide)) ?_
    | refine undoPlan_foot (hs.sub (by decide)) ?_ | apply ite_foot | simp only [foot_mk] | apply Foot.parts | split | dsimp only)

theorem attest_foot {slot : Nat} {dma : Bool} (hs : Sub 0x1000000000000085800000000000000000000000000000000000000000000000000000000000000 μ) (hk : Foot μ σ τ) : Foot μ σ (τ.attest slot dma) := by
  unfold State.attest
  repeat' with_reducible (first
    | assumption | (intro _ _ _) | apply emit_foot | refine endOp_foot (hs.sub (by decide)) ?_ | refine failDma_foot (hs.sub (by decide)) ?_ | apply fresh_foot
    | refine fresh_foot_eq ‹_› ?_ | apply ite_foot | simp only [foot_mk] | apply Foot.parts | split | dsimp only)

theorem identRead_foot {slot : Nat} {dma : Bool} (hs : Sub 0x1000000000000085800000000000000000000000000000000000000000000000000000000000000 μ) (hk : Foot μ σ τ) : Foot μ σ (τ.identRead slot dma) := by
  unfold State.identRead
  repeat' with_reducible (first
    | assumption | (intro _ _ _) | apply emit_foot | refine endOp_foot (hs.sub (by decide)) ?_ | refine failDma_foot (hs.sub (by decide)) ?_ | apply ite_foot
    | simp only [foot_mk] | apply Foot.parts | split | dsimp only)

theorem switchSlot_foot {h : List Byte} {config b : Bool} (hs : Sub 0xc000000000000000000000000000000000000000000000000000000000000000000000000000000 μ) (hk : Foot μ σ τ) : Foot μ σ (τ.switchSlot h config b) := by
  unfold State.switchSlot
  repeat' with_reducible (first
    | assumption | (intro _ _ _) | refine program_foot (hs.sub (by decide)) ?_ | apply ite_foot | simp only [foot_mk] | apply Foot.parts
    | refine parts_boot (hs.bit (by decide)) (Foot.parts ?_) | dsimp only)

theorem imageWrite_foot {slot : Nat} {data : List Byte} {signed : Bool} (hs : Sub 0xd000000000000085800000000000000000000000000000000000000000000000000000000000000 μ) (hk : Foot μ σ τ) : Foot μ σ (τ.imageWrite slot data signed) := by
  unfold State.imageWrite
  repeat' with_reducible (first
    | assumption | (intro _ _ _) | refine endOp_foot (hs.sub (by decide)) ?_ | refine failDma_foot (hs.sub (by decide)) ?_ | refine program_foot (hs.sub (by decide)) ?_ | refine putOp_foot (hs.sub (by decide)) ?_
    | refine switchSlot_foot (hs.sub (by decide)) ?_ | apply ite_foot | simp only [foot_mk] | apply Foot.parts | split | dsimp only)

theorem svnCommit_foot {slot : Nat} (hs : Sub 0x9000000000000080800000000000000000000000000000000000000000000000000000000200000 μ) (hk : Foot μ σ τ) : Foot μ σ (τ.svnCommit slot) := by
  unfold State.svnCommit
  repeat' with_reducible (first
    | assumption | (intro _ _ _) | refine endOp_foot (hs.sub (by decide)) ?_ | refine wr_foot (hs.bit (by decide)) ?_ | apply ite_foot | simp only [foot_mk]
    | apply Foot.parts | refine parts_sec (hs.bit (by decide)) (Foot.parts ?_) | split | dsimp only)

theorem tokenSet_foot {slot : Nat} (hs : Sub 0x9000000000000080800000000000000000000000000000000000000000000000000000002000000 μ) (hk : Foot μ σ τ) : Foot μ σ (τ.tokenSet slot) := by
  unfold State.tokenSet
  repeat' with_reducible (first
    | assumption | (intro _ _ _) | refine endOp_foot (hs.sub (by decide)) ?_ | refine wr_foot (hs.bit (by decide)) ?_ | apply ite_foot | simp only [foot_mk]
    | apply Foot.parts | refine parts_sec (hs.bit (by decide)) (Foot.parts ?_) | split | dsimp only)

theorem blowEpoch_foot (hs : Sub 0x8000000000000000000000000000000000000000000000000000000000000000000000002000000 μ) (hk : Foot μ σ τ) : Foot μ σ (τ.blowEpoch) := by
  unfold State.blowEpoch
  repeat' with_reducible (first
    | assumption | (intro _ _ _) | refine wr_foot (hs.bit (by decide)) ?_ | apply ite_foot | simp only [foot_mk] | apply Foot.parts
    | refine parts_sec (hs.bit (by decide)) (Foot.parts ?_) | dsimp only)

theorem debugOpen_foot {token : List Byte} {locking : Bool} {fail : Option EraseFail} (hs : Sub 0x880e000000000000000000030000000000000000000000000000000000000000000400012000000 μ) (hk : Foot μ σ τ) : Foot μ σ (τ.debugOpen token locking fail).2 := by
  unfold State.debugOpen
  repeat' with_reducible (first
    | assumption | (intro _ _ _) | refine blowEpoch_foot (hs.sub (by decide)) ?_ | apply fresh_foot | refine fresh_foot_eq ‹_› ?_ | refine noteOrder_foot (hs.sub (by decide)) ?_
    | refine raise_foot (hs.sub (by decide)) ?_ | refine triggerOther_foot (hs.sub (by decide)) ?_ | refine wr_foot (hs.bit (by decide)) ?_ | apply each_foot' | apply ite_foot | simp only [foot_mk]
    | apply Foot.parts | refine parts_sec (hs.bit (by decide)) (parts_mem (hs.bit (by decide)) (Foot.parts ?_)) | split | dsimp only)

theorem debugOpen_foot_eq {token : List Byte} {locking : Bool} {fail : Option EraseFail} {y} (hs : Sub 0x880e000000000000000000030000000000000000000000000000000000000000000400012000000 μ) (he : τ.debugOpen token locking fail = (y, υ)) (hk : Foot μ σ τ) : Foot μ σ υ := by
  have := debugOpen_foot (token := token) (locking := locking) (fail := fail) hs hk
  rwa [he] at this

end Sys2Proof.Machine
end

