-- ==== Sys2Proof/Laws/FootBus.lean ====
section
/-!
SUPPORT. Which registers and parts of the state the operations of LiveChange, RingOps, Bus, Mgt, Events, BootConfig may change (`Foot`).
-/

namespace Sys2Proof.Machine

set_option Elab.async false
set_option linter.unusedTactic false
set_option linter.unreachableTactic false
set_option linter.unusedSimpArgs false
set_option linter.unusedVariables false

variable {μ : Nat} {σ τ υ : State}

theorem changeGo_foot {value : Nat} (hs : Sub 0x40000000000000000000000000000008000000000000000000000000000000000000000000000 μ) (hk : Foot μ σ τ) : Foot μ σ (τ.changeGo value) := by
  unfold State.changeGo
  repeat' with_reducible (first
    | assumption | (intro _ _ _) | refine inc_foot (hs.bit (by decide)) ?_ | apply mark_foot | refine wr_foot (hs.bit (by decide)) ?_ | apply ite_foot
    | simp only [foot_mk] | apply Foot.parts | refine parts_sched (hs.bit (by decide)) (Foot.parts ?_) | split | dsimp only)

theorem changeSwitching_foot (hs : Sub 0x40000000000000000000000000000008000000000000000000000000000000000000000000000 μ) (hk : Foot μ σ τ) : Foot μ σ (τ.changeSwitching) := by
  unfold State.changeSwitching
  repeat' with_reducible (first
    | assumption | (intro _ _ _) | refine wr_foot (hs.bit (by decide)) ?_ | apply ite_foot | simp only [foot_mk] | apply Foot.parts
    | refine parts_sched (hs.bit (by decide)) (Foot.parts ?_) | split | dsimp only)

theorem changeEnd_foot {st : Nat} (hs : Sub 0x7e600000000000000028010c0009701090006fa6c0604000907ff0020000000000000000000000 μ) (hk : Foot μ σ τ) : Foot μ σ (τ.changeEnd st) := by
  unfold State.changeEnd
  repeat' with_reducible (first
    | assumption | (intro _ _ _) | refine work_foot (hs.sub (by decide)) ?_ | refine wr_foot (hs.bit (by decide)) ?_ | apply ite_foot | simp only [foot_mk]
    | apply Foot.parts | refine parts_sched (hs.bit (by decide)) (Foot.parts ?_) | dsimp only)

theorem changeTimeout_foot (hs : Sub 0x7e600000000000000028010c0009701090006fa6c0604000907ff0020000000000000000000000 μ) (hk : Foot μ σ τ) : Foot μ σ (τ.changeTimeout) := by
  unfold State.changeTimeout
  repeat' with_reducible (first
    | assumption | (intro _ _ _) | refine changeEnd_foot (hs.sub (by decide)) ?_ | refine exactLoss_foot (hs.sub (by decide)) (hs.bit (by decide)) ?_ | refine raise_foot (hs.sub (by decide)) ?_ | apply ite_foot
    | split | dsimp only)

theorem roundStartAll_foot (hs : Sub 0x7ee00000000000000028010c0009701a98086fa6c0604000907ff0020000000000400000000000 μ) (hk : Foot μ σ τ) : Foot μ σ (τ.roundStartAll) := by
  unfold State.roundStartAll
  repeat' with_reducible (first
    | assumption | (intro _ _ _) | refine changeEnd_foot (hs.sub (by decide)) ?_ | refine degradeSwitch_foot (hs.sub (by decide)) ?_ | refine roundStartOp_foot (hs.sub (by decide)) ?_ | refine setBank_foot (hs.sub (by decide)) ?_
    | apply each_foot' | apply ite_foot | simp only [foot_mk] | apply Foot.parts | refine parts_sched (hs.bit (by decide)) (Foot.parts ?_) | split
    | dsimp only)

theorem packetEnter_foot {r : Ring} {p : RingPacket} (hs : Sub 0x2000000000000000000000000000000000000000000000000000000000000000000000000000 μ) (hk : Foot μ σ τ) : Foot μ σ (τ.packetEnter r p) := by
  unfold State.packetEnter
  repeat' with_reducible (first
    | assumption | (intro _ _ _) | refine ringEnter_foot (hs.sub (by decide)) ?_ | apply ite_foot | split | dsimp only)

theorem loseCopy_foot {r : Ring} {p : RingPacket} (hs : Sub 0x4000000000000000000000000000000000000000000000000000000000000000000000000000 μ) (hk : Foot μ σ τ) : Foot μ σ (τ.loseCopy r p) := by
  unfold State.loseCopy
  repeat' with_reducible (first
    | assumption | (intro _ _ _) | apply ite_foot | simp only [foot_mk] | apply Foot.parts | refine parts_flt (hs.bit (by decide)) (Foot.parts ?_)
    | split | dsimp only)

theorem packetArrive_foot {r : Ring} {stop : Nat} {p : RingPacket} {full : Bool} (hs : Sub 0x6000000000000000000000000000000000000000000000000000000000000000000000000020 μ) (hk : Foot μ σ τ) : Foot μ σ (τ.packetArrive r stop p full) := by
  unfold State.packetArrive
  repeat' with_reducible (first
    | assumption | (intro _ _ _) | apply emit_foot | refine inc_foot (hs.bit (by decide)) ?_ | refine loseCopy_foot (hs.sub (by decide)) ?_ | refine packetEnter_foot (hs.sub (by decide)) ?_
    | refine ringClaim_foot (hs.sub (by decide)) ?_ | refine ringLeave_foot (hs.sub (by decide)) ?_ | apply ite_foot | split | dsimp only)

theorem ringFail_foot {r : Ring} {stop : Nat} {msgs : List (Nat × Nat)} {packets : List RingPacket} (hs : Sub 0x6000000000000000000000000000000000000000000000000000000000000000007100000040 μ) (hk : Foot μ σ τ) : Foot μ σ (τ.ringFail r stop msgs packets) := by
  unfold State.ringFail
  repeat' with_reducible (first
    | assumption | (intro _ _ _) | refine loseCopy_foot (hs.sub (by decide)) ?_ | refine setLevel_foot (hs.sub (by decide)) ?_ | refine syncFaults_foot (hs.sub (by decide)) ?_ | refine takeOff_foot (hs.sub (by decide)) ?_
    | refine wr_foot (hs.bit (by decide)) ?_ | refine wr_foot (by cases r <;> exact hs.bit (by decide)) ?_ | apply each_foot' | apply ite_foot | split | dsimp only)

theorem ringRestore_foot {r : Ring} {stop : Nat} (hs : Sub 0x6000000000000000000000000000000000000000000000000000000000000000007100000040 μ) (hk : Foot μ σ τ) : Foot μ σ (τ.ringRestore r stop) := by
  unfold State.ringRestore
  repeat' with_reducible (first
    | assumption | (intro _ _ _) | refine sendFault_foot (hs.sub (by decide)) ?_ | refine setLevel_foot (hs.sub (by decide)) ?_ | refine syncFaults_foot (hs.sub (by decide)) ?_ | refine wr_foot (hs.bit (by decide)) ?_
    | refine wr_foot (by cases r <;> exact hs.bit (by decide)) ?_ | apply each_foot' | apply ite_foot | simp only [foot_mk] | apply Foot.parts | refine parts_flt (hs.bit (by decide)) (Foot.parts ?_)
    | split | dsimp only)

theorem captureAccess_foot {cls addr : Nat} (hs : Sub 0x100 μ) (hk : Foot μ σ τ) : Foot μ σ (τ.captureAccess cls addr) := by
  unfold State.captureAccess
  repeat' with_reducible (first
    | assumption | (intro _ _ _) | refine wr_foot (hs.bit (by decide)) ?_ | apply ite_foot | dsimp only)

theorem accessErr_foot {f : Fld} {cls : PortClass} {addr : Nat} (hs : Sub 0x6000000000000000000000000000000000000000000000000000000000000000000000000100 μ) (hb : μ.testBit f.reg.ctorIdx = true) (hk : Foot μ σ τ) :
    Foot μ σ (τ.accessErr f cls addr) := by
  unfold State.accessErr
  have hc := ite_foot (c := τ.regBits Reg.GLB_ACCESS_ERR 0 0 = 0)
    (captureAccess_foot (cls := cls.code) (addr := addr) (hs.sub (by decide)) hk) hk
  exact raise_foot (hs.sub (by decide)) (latch_foot hb (ite_foot (mark_foot hc) hc))

theorem accessCleared_foot {word : Nat} (hs : Sub 0x100 μ) (hk : Foot μ σ τ) : Foot μ σ (τ.accessCleared word) := by
  unfold State.accessCleared
  repeat' with_reducible (first
    | assumption | (intro _ _ _) | refine captureAccess_foot (hs.sub (by decide)) ?_ | apply mark_foot | apply foldl_foot_fst | apply foldl_foot_snd
    | refine foldl_foot_fst_eq ‹_› ?_ ?_ | refine foldl_foot_snd_eq ‹_› ?_ ?_ | apply ite_foot | simp only [foot_mk] | apply Foot.parts | split
    | dsimp only)

/-- The registers with a field that a read clears. -/
theorem rc_bit (r : Reg) : ∀ f ∈ r.fields, f.acc = .rc → Nat.testBit 0x20a2e8000307f0349e80f16d04d8980aad565700020080467d10424290001c20 f.reg.ctorIdx = true := by
  cases r <;> decide

theorem code_rc {f : Fld} {i j : Nat} (h : f.code i j = .rc) : f.acc = .rc := by
  unfold Fld.code at h
  split at h
  all_goals first | (split at h <;> cases h) | exact h

theorem readEffects_foot {r : Reg} {i j : Nat} (hs : Sub 0x20a2e8000307f0349e80f16d04d8980aad565700020080467d10424290001c20 μ) (hk : Foot μ σ τ) : Foot μ σ (τ.readEffects r i j) := by
  unfold State.readEffects
  refine ite_foot hk (each_foot_mem hk (fun u f hf h => wr_foot (hs.bit ?_) h))
  rw [List.mem_filter, beq_iff_eq] at hf
  exact rc_bit r f hf.1 (code_rc hf.2)

theorem windowRead_foot {a : Nat} (hs : Sub 0x6000000000000000000000000000000000000000000000000000000000000010000000000000 μ) (hk : Foot μ σ τ) : Foot μ σ (τ.windowRead a).2 := by
  unfold State.windowRead
  repeat' with_reducible (first
    | assumption | (intro _ _ _) | refine evrUncorr_foot (hs.sub (by decide)) ?_ | apply fresh_foot | refine fresh_foot_eq ‹_› ?_ | apply ite_foot
    | split | dsimp only)

theorem windowRead_foot_eq {a : Nat} {y} (hs : Sub 0x6000000000000000000000000000000000000000000000000000000000000010000000000000 μ) (he : τ.windowRead a = (y, υ)) (hk : Foot μ σ τ) : Foot μ σ υ := by
  have := windowRead_foot (a := a) hs hk
  rwa [he] at this

theorem setLatch_foot {cls : PortClass} {l : Option Latch} (hs : Sub 0x1000000000000000000000000000000000000000000000000000000000000000000000000000 μ) (hk : Foot μ σ τ) : Foot μ σ (τ.setLatch cls l) := by
  unfold State.setLatch
  repeat' with_reducible (first
    | assumption | (intro _ _ _) | refine latch_foot (hs.bit (by decide)) ?_ | apply ite_foot | simp only [foot_mk] | apply Foot.parts
    | refine parts_bus (hs.bit (by decide)) (Foot.parts ?_) | dsimp only)

theorem setHeld_foot {cls : PortClass} {h : Option HeldWord} (hs : Sub 0x1000000000000000000000000000000000000000000000000000000000000000000000000000 μ) (hk : Foot μ σ τ) : Foot μ σ (τ.setHeld cls h) := by
  unfold State.setHeld
  repeat' with_reducible (first
    | assumption | (intro _ _ _) | apply ite_foot | simp only [foot_mk] | apply Foot.parts | refine parts_bus (hs.bit (by decide)) (Foot.parts ?_)
    | dsimp only)

theorem read32_foot {cls : PortClass} {a : Nat} (hs : Sub 0x70000000000020a2e8000307f0349e80f16d04d8980aad565700020080467d10424290001da0 μ) (hk : Foot μ σ τ) : Foot μ σ (τ.read32 cls a).2 := by
  unfold State.read32
  repeat' with_reducible (first
    | assumption | (intro _ _ _) | refine accessErr_foot (hs.sub (by decide)) (hs.bit (by decide)) ?_ | refine latch_foot (hs.bit (by decide)) ?_ | refine readEffects_foot (hs.sub (by decide)) ?_ | refine setLatch_foot (hs.sub (by decide)) ?_
    | refine windowRead_foot (hs.sub (by decide)) ?_ | refine windowRead_foot_eq (hs.sub (by decide)) ‹_› ?_ | apply ite_foot | simp only [foot_mk] | apply Foot.parts | split
    | dsimp only)

theorem read32_foot_eq {cls : PortClass} {a : Nat} {y} (hs : Sub 0x70000000000020a2e8000307f0349e80f16d04d8980aad565700020080467d10424290001da0 μ) (he : τ.read32 cls a = (y, υ)) (hk : Foot μ σ τ) : Foot μ σ υ := by
  have := read32_foot (cls := cls) (a := a) hs hk
  rwa [he] at this

theorem snd_of_pair {α β : Type} (a : α) (b : β) : (a, b).2 = b := rfl

theorem readPair_foot {r : Nat × State} {cls : PortClass} {a : Nat} (hs : Sub 0x70000000000020a2e8000307f0349e80f16d04d8980aad565700020080467d10424290001da0 μ) (hk : Foot μ σ r.2) :
    Foot μ σ (readPair r cls a).2 := by
  rw [readPair, snd_of_pair]
  exact read32_foot (hs.sub (by decide)) hk

theorem read64_foot {cls : PortClass} {a : Nat} (hs : Sub 0x70000000000020a2e8000307f0349e80f16d04d8980aad565700020080467d10424290001da0 μ) (hk : Foot μ σ τ) : Foot μ σ (τ.read64 cls a).2 := by
  rw [State.read64.eq_def]
  cases wideAt a with
  | some h => exact readEffects_foot (hs.sub (by decide)) hk
  | none => exact readPair_foot (hs.sub (by decide)) (read32_foot (hs.sub (by decide)) hk)

theorem read64_foot_eq {cls : PortClass} {a : Nat} {y} (hs : Sub 0x70000000000020a2e8000307f0349e80f16d04d8980aad565700020080467d10424290001da0 μ) (he : τ.read64 cls a = (y, υ)) (hk : Foot μ σ τ) :
    Foot μ σ υ := by
  have := read64_foot (cls := cls) (a := a) hs hk
  rwa [he] at this

theorem busRead_foot {cls : PortClass} {a width : Nat} (hs : Sub 0x70000000000020a2e8000307f0349e80f16d04d8980aad565700020080467d10424290001da0 μ) (hk : Foot μ σ τ) : Foot μ σ (τ.busRead cls a width) := by
  unfold State.busRead
  repeat' with_reducible (first
    | assumption | (intro _ _ _) | apply emit_foot | refine read32_foot (hs.sub (by decide)) ?_ | refine read32_foot_eq (hs.sub (by decide)) ‹_› ?_ | refine read64_foot (hs.sub (by decide)) ?_
    | refine read64_foot_eq (hs.sub (by decide)) ‹_› ?_ | apply ite_foot | split | dsimp only)

theorem writeField_foot {f : Fld} {i j word : Nat} (hs : Sub 0x17e0000000000fffffffffffffffffffffffffffffffffffffffffffffffffffffffffffffffff μ) (hk : Foot μ σ τ) : Foot μ σ (τ.writeField f i j word) := by
  unfold State.writeField
  repeat' with_reducible (first
    | assumption | (intro _ _ _) | refine setRate_foot (hs.sub (by decide)) ?_ | refine wr_foot (hs.bit (by decide)) ?_ | refine wr_foot (hs.all (by decide) _) ?_ | apply ite_foot
    | simp only [foot_mk] | apply Foot.parts | split | dsimp only)

theorem writeFields_foot {fs : List Fld} {i j word : Nat} (hs : Sub 0x17e0000000000fffffffffffffffffffffffffffffffffffffffffffffffffffffffffffffffff μ) (hk : Foot μ σ τ) : Foot μ σ (τ.writeFields fs i j word) := by
  unfold State.writeFields
  repeat' with_reducible (first
    | assumption | (intro _ _ _) | refine writeField_foot (hs.sub (by decide)) ?_ | apply each_foot' | apply ite_foot | dsimp only)

theorem writeReg_foot {cls : PortClass} {r : Reg} {i j word hi lo : Nat} (hs : Sub 0xb7fe0000000000fffffffffffffffffffffffffffffffffffffffffffffffffffffffffffffffff μ) (hk : Foot μ σ τ) : Foot μ σ (τ.writeReg cls r i j word hi lo) := by
  unfold State.writeReg
  repeat' with_reducible (first
    | assumption | (intro _ _ _) | refine accessCleared_foot (hs.sub (by decide)) ?_ | refine changeGo_foot (hs.sub (by decide)) ?_ | refine clearPending_foot (hs.sub (by decide)) ?_ | refine hostAbort_foot (hs.sub (by decide)) ?_
    | refine inc_foot (hs.bit (by decide)) ?_ | refine mailbox_foot (hs.sub (by decide)) ?_ | apply mark_foot | refine noteOrder_foot (hs.sub (by decide)) ?_ | refine ringSelect_foot (hs.sub (by decide)) ?_ | refine setEnable_foot (hs.sub (by decide)) ?_
    | refine setMask_foot (hs.sub (by decide)) ?_ | refine settleAll_foot (hs.sub (by decide)) ?_ | refine softwareTrigger_foot (hs.sub (by decide)) ?_ | refine swFence_foot (hs.sub (by decide)) ?_ | refine syncFaults_foot (hs.sub (by decide)) ?_ | refine syncLasts_foot (hs.sub (by decide)) ?_
    | refine syncMembers_foot (hs.sub (by decide)) ?_ | refine syncTime_foot (hs.sub (by decide)) ?_ | refine thermWarn_foot (hs.sub (by decide)) ?_ | refine writeBucket_foot (hs.sub (by decide)) ?_ | refine writeDomainOff_foot (hs.sub (by decide)) ?_ | refine writeFields_foot (hs.sub (by decide)) ?_
    | refine writeInject_foot (hs.sub (by decide)) ?_ | refine writeLaserEnable_foot (hs.sub (by decide)) ?_ | refine writeMirror_foot (hs.sub (by decide)) ?_ | refine writeSrcCfg_foot (hs.sub (by decide)) ?_ | refine writeTest_foot (hs.sub (by decide)) ?_ | refine writeTime_foot (hs.sub (by decide)) ?_
    | apply ite_foot | simp only [foot_mk] | apply Foot.parts | split | dsimp only)

theorem writeHit_foot {cls : PortClass} {a : Nat} {h : Hit} {word hi lo : Nat} (hs : Sub 0xb7fe0000000000fffffffffffffffffffffffffffffffffffffffffffffffffffffffffffffffff μ) (hk : Foot μ σ τ) : Foot μ σ (τ.writeHit cls a h word hi lo) := by
  unfold State.writeHit
  repeat' with_reducible (first
    | assumption | (intro _ _ _) | refine accessErr_foot (hs.sub (by decide)) (hs.bit (by decide)) ?_ | refine setRate_foot (hs.sub (by decide)) ?_ | refine wr_foot (hs.bit (by decide)) ?_ | refine writeReg_foot (hs.sub (by decide)) ?_
    | refine wr_foot (hs.all (by decide) _) ?_ | apply each_foot' | apply ite_foot | split | dsimp only)

theorem write32_foot {cls : PortClass} {a v : Nat} (hs : Sub 0xb7ff0000000000fffffffffffffffffffffffffffffffffffffffffffffffffffffffffffffffff μ) (hk : Foot μ σ τ) : Foot μ σ (τ.write32 cls a v) := by
  unfold State.write32
  repeat' with_reducible (first
    | assumption | (intro _ _ _) | refine accessErr_foot (hs.sub (by decide)) (hs.bit (by decide)) ?_ | refine setHeld_foot (hs.sub (by decide)) ?_ | refine writeHit_foot (hs.sub (by decide)) ?_ | apply ite_foot
    | simp only [foot_mk] | apply Foot.parts | split | dsimp only)

theorem write64_foot {cls : PortClass} {a v : Nat} (hs : Sub 0xb7ff0000000000fffffffffffffffffffffffffffffffffffffffffffffffffffffffffffffffff μ) (hk : Foot μ σ τ) : Foot μ σ (τ.write64 cls a v) := by
  unfold State.write64
  repeat' with_reducible (first
    | assumption | (intro _ _ _) | refine setHeld_foot (hs.sub (by decide)) ?_ | refine write32_foot (hs.sub (by decide)) ?_ | refine writeHit_foot (hs.sub (by decide)) ?_ | apply ite_foot
    | simp only [foot_mk] | apply Foot.parts | split | dsimp only)

theorem busWrite_foot {cls : PortClass} {a width v : Nat} (hs : Sub 0xb7ff0000000000fffffffffffffffffffffffffffffffffffffffffffffffffffffffffffffffff μ) (hk : Foot μ σ τ) : Foot μ σ (τ.busWrite cls a width v) := by
  unfold State.busWrite
  repeat' with_reducible (first
    | assumption | (intro _ _ _) | refine write32_foot (hs.sub (by decide)) ?_ | refine write64_foot (hs.sub (by decide)) ?_ | apply ite_foot | split
    | dsimp only)

theorem regWrite_foot {r : Reg} {i j v : Nat} (hs : Sub 0xb7ff0000000000fffffffffffffffffffffffffffffffffffffffffffffffffffffffffffffffff μ) (hk : Foot μ σ τ) : Foot μ σ (τ.regWrite r i j v) := by
  unfold State.regWrite
  repeat' with_reducible (first
    | assumption | (intro _ _ _) | refine busWrite_foot (hs.sub (by decide)) ?_ | apply ite_foot | dsimp only)

theorem accessLost_foot {a : Nat} {write : Bool} (hs : Sub 0xc000000000000000000000000000000000000000000000000000000000000000 μ) (hk : Foot μ σ τ) : Foot μ σ (τ.accessLost a write) := by
  unfold State.accessLost
  repeat' with_reducible (first
    | assumption | (intro _ _ _) | apply emit_foot | refine latch_foot (hs.bit (by decide)) ?_ | refine wr_foot (hs.bit (by decide)) ?_ | apply ite_foot
    | split | dsimp only)

theorem answer_foot {src : Nat} {r : PeerLast} (hs : Sub 0x0 μ) (hk : Foot μ σ τ) : Foot μ σ (τ.answer src r) := by
  unfold State.answer
  repeat' with_reducible (first
    | assumption | (intro _ _ _) | apply emit_foot | apply ite_foot | dsimp only)

theorem malformed_foot {src : Nat} (hs : Sub 0x80000000 μ) (hk : Foot μ σ τ) : Foot μ σ (τ.malformed src) := by
  unfold State.malformed
  repeat' with_reducible (first
    | assumption | (intro _ _ _) | refine inc_foot (hs.bit (by decide)) ?_ | apply ite_foot | split | dsimp only)

theorem respond_foot {k src : Nat} {r : PeerLast} (hs : Sub 0x8000000000000000000000000000000000000000000000000000000000000000000000000000000 μ) (hk : Foot μ σ τ) : Foot μ σ (τ.respond k src r) := by
  unfold State.respond
  repeat' with_reducible (first
    | assumption | (intro _ _ _) | refine answer_foot (hs.sub (by decide)) ?_ | apply ite_foot | simp only [foot_mk] | apply Foot.parts
    | refine parts_sec (hs.bit (by decide)) (Foot.parts ?_) | dsimp only)

theorem mgtRequest_foot {src seq : Nat} {run : Nat → State → State} (hs : Sub 0x80000000 μ) (hk : Foot μ σ τ)
    (hr : ∀ k u, Foot μ σ u → Foot μ σ (run k u)) : Foot μ σ (τ.mgtRequest src seq run) := by
  unfold State.mgtRequest
  split
  · exact inc_foot (hs.bit (by decide)) hk
  · split
    · exact answer_foot (hs.sub (by decide)) (inc_foot (hs.bit (by decide)) hk)
    · exact hr _ _ (inc_foot (hs.bit (by decide)) hk)

theorem readWords_foot {a n : Nat} (hs : Sub 0x70000000000020a2e8000307f0349e80f16d04d8980aad565700020080467d10424290001da0 μ) (hk : Foot μ σ τ) : Foot μ σ (τ.readWords a n).2.2 := by
  unfold State.readWords
  refine foldl_foot (fun (r : List Nat × Bool × State) => r.2.2) hk (fun c k hc => ?_)
  exact read32_foot (hs.sub (by decide)) hc

theorem readWords_foot_eq {a n : Nat} {y z} (hs : Sub 0x70000000000020a2e8000307f0349e80f16d04d8980aad565700020080467d10424290001da0 μ) (he : τ.readWords a n = (y, z, υ)) (hk : Foot μ σ τ) :
    Foot μ σ υ := by
  have := readWords_foot (a := a) (n := n) hs hk
  rwa [he] at this

theorem mgtReadOp_foot {src seq a n : Nat} {timeout : Bool} (hs : Sub 0x80070000000000020a2e8000307f0349e80f16d04d8980aad565700020080467d10424290001da0 μ) (hk : Foot μ σ τ) : Foot μ σ (τ.mgtReadOp src seq a n timeout) := by
  unfold State.mgtReadOp
  repeat' with_reducible (first
    | assumption | (intro _ _ _) | refine answer_foot (hs.sub (by decide)) ?_ | refine malformed_foot (hs.sub (by decide)) ?_ | refine mgtRequest_foot (hs.sub (by decide)) ?_ | refine respond_foot (hs.sub (by decide)) ?_
    | refine readWords_foot_eq (hs.sub (by decide)) ‹_› ?_ | refine mgtRequest_foot (hs.sub (by decide)) ?_ ?_ | apply ite_foot | split | dsimp only)

theorem mgtWriteOp_foot {src seq a n value : Nat} {timeout : Bool} (hs : Sub 0xb7ff0000000000fffffffffffffffffffffffffffffffffffffffffffffffffffffffffffffffff μ) (hk : Foot μ σ τ) : Foot μ σ (τ.mgtWriteOp src seq a n value timeout) := by
  unfold State.mgtWriteOp
  repeat' with_reducible (first
    | assumption | (intro _ _ _) | refine answer_foot (hs.sub (by decide)) ?_ | refine busWrite_foot (hs.sub (by decide)) ?_ | refine malformed_foot (hs.sub (by decide)) ?_ | refine mgtRequest_foot (hs.sub (by decide)) ?_
    | refine respond_foot (hs.sub (by decide)) ?_ | refine mgtRequest_foot (hs.sub (by decide)) ?_ ?_ | apply ite_foot | split | dsimp only)

theorem mgtResetOp_foot {src seq : Nat} (hs : Sub 0xffff0000000000fffffffffffffffffffffffffffffffffffffffffffffffffffffffffffffffff μ) (hk : Foot μ σ τ) : Foot μ σ (τ.mgtResetOp src seq) := by
  unfold State.mgtResetOp
  repeat' with_reducible (first
    | assumption | (intro _ _ _) | refine answer_foot (hs.sub (by decide)) ?_ | refine chipReset_foot (hs.sub (by decide)) ?_ | refine mgtRequest_foot (hs.sub (by decide)) ?_ | refine noteOrder_foot (hs.sub (by decide)) ?_
    | refine mgtRequest_foot (hs.sub (by decide)) ?_ ?_ | apply ite_foot | simp only [foot_mk] | apply Foot.parts | split | dsimp only)

theorem mgtDebugOp_foot {src seq : Nat} {token : List Byte} {locking : Bool} {fail : Option EraseFail} (hs : Sub 0x880e000000000000000000030000000000000000000000000000000000000000000400092000000 μ) (hk : Foot μ σ τ) : Foot μ σ (τ.mgtDebugOp src seq token locking fail) := by
  unfold State.mgtDebugOp
  repeat' with_reducible (first
    | assumption | (intro _ _ _) | refine answer_foot (hs.sub (by decide)) ?_ | refine debugOpen_foot (hs.sub (by decide)) ?_ | refine debugOpen_foot_eq (hs.sub (by decide)) ‹_› ?_ | refine malformed_foot (hs.sub (by decide)) ?_
    | refine mgtRequest_foot (hs.sub (by decide)) ?_ | refine respond_foot (hs.sub (by decide)) ?_ | refine mgtRequest_foot (hs.sub (by decide)) ?_ ?_ | apply ite_foot | split | dsimp only)

theorem mgtIgnore_foot {c : MgtIgnored} (hs : Sub 0x8000000000000000000000000000000000000000000000000000000000000000000000080000000 μ) (hk : Foot μ σ τ) : Foot μ σ (τ.mgtIgnore c) := by
  unfold State.mgtIgnore
  repeat' with_reducible (first
    | assumption | (intro _ _ _) | refine inc_foot (hs.bit (by decide)) ?_ | refine mgtRequest_foot (hs.sub (by decide)) ?_ | refine respond_foot (hs.sub (by decide)) ?_ | refine mgtRequest_foot (hs.sub (by decide)) ?_ ?_
    | apply ite_foot | simp only [foot_mk] | apply Foot.parts | split | dsimp only)

theorem mgtDuplicate_foot {src seq : Nat} (hs : Sub 0x80000000 μ) (hk : Foot μ σ τ) : Foot μ σ (τ.mgtDuplicate src seq) := by
  unfold State.mgtDuplicate
  repeat' with_reducible (first
    | assumption | (intro _ _ _) | refine answer_foot (hs.sub (by decide)) ?_ | refine inc_foot (hs.bit (by decide)) ?_ | apply ite_foot | simp only [foot_mk]
    | apply Foot.parts | split | dsimp only)

theorem mgtClear_foot {src : Nat} {force raised : Bool} (hs : Sub 0x5000000000000000000000000000000000000000000000000000000000000000017100000000 μ) (hk : Foot μ σ τ) : Foot μ σ (τ.mgtClear src force raised) := by
  unfold State.mgtClear
  repeat' with_reducible (first
    | assumption | (intro _ _ _) | refine clearPending_foot (hs.sub (by decide)) ?_ | refine setHeld_foot (hs.sub (by decide)) ?_ | refine syncFaults_foot (hs.sub (by decide)) ?_ | refine wr_foot (hs.bit (by decide)) ?_
    | apply ite_foot | split | dsimp only)

theorem mirrorPurge_foot {p : Nat} (hs : Sub 0x6600000000000000000000000006000000007a600000000000000000000000000000000000000 μ) (hk : Foot μ σ τ) : Foot μ σ (τ.mirrorPurge p) := by
  unfold State.mirrorPurge
  repeat' with_reducible (first
    | assumption | (intro _ _ _) | refine mirrorDiscard_foot (hs.sub (by decide)) ?_ | apply ite_foot | simp only [foot_mk] | apply Foot.parts
    | refine parts_sched (hs.bit (by decide)) (Foot.parts ?_) | split | dsimp only)

theorem schedFrame_foot {p : Nat} {bad : Option Nat} (hs : Sub 0x7f600000000000000028010c0009701090906fa6f0604000907ff0020000000000000000000000 μ) (hk : Foot μ σ τ) : Foot μ σ (τ.schedFrame p bad) := by
  unfold State.schedFrame
  repeat' with_reducible (first
    | assumption | (intro _ _ _) | refine cellUncorr_foot (hs.sub (by decide)) ?_ | refine schedStart_foot (hs.sub (by decide)) ?_ | apply ite_foot | simp only [foot_mk]
    | apply Foot.parts | split | dsimp only)

theorem oppCells_foot {p : Nat} {bad : Option Nat} (hs : Sub 0x7e600000000000000028010c0009701090006fa6f0604000907ff0020000000000000000000000 μ) (hk : Foot μ σ τ) : Foot μ σ (τ.oppCells p bad) := by
  unfold State.oppCells
  repeat' with_reducible (first
    | assumption | (intro _ _ _) | refine oppRead_foot (hs.sub (by decide)) ?_ | refine work_foot (hs.sub (by decide)) ?_ | apply ite_foot | simp only [foot_mk]
    | apply Foot.parts | split | dsimp only)

theorem scrub_foot {corrected : Nat} {bad : Option Nat} (hs : Sub 0x7e600000000000000028010c0009701090006fa6f0604000907ff0020000000000000000000000 μ) (hk : Foot μ σ τ) : Foot μ σ (τ.scrub corrected bad) := by
  unfold State.scrub
  repeat' with_reducible (first
    | assumption | (intro _ _ _) | refine cellUncorr_foot (hs.sub (by decide)) ?_ | refine incCorr_foot (hs.bit (by decide)) (hs.bit (by decide)) ?_ | apply ite_foot | simp only [foot_mk]
    | apply Foot.parts | refine parts_spore (hs.bit (by decide)) (Foot.parts ?_) | split | dsimp only)

theorem timeTick_foot (hs : Sub 0x10000000000000000000000000000000000000000000000000000000040000000000000000000 μ) (hk : Foot μ σ τ) : Foot μ σ (τ.timeTick) := by
  unfold State.timeTick
  repeat' with_reducible (first
    | assumption | (intro _ _ _) | refine incWrap_foot (hs.bit (by decide)) ?_ | apply ite_foot | simp only [foot_mk] | apply Foot.parts
    | refine parts_link (hs.bit (by decide)) (Foot.parts ?_) | split | dsimp only)

theorem idleTick_foot (hs : Sub 0x20000000000000000000000000000000000000000000 μ) (hk : Foot μ σ τ) : Foot μ σ (τ.idleTick) := by
  unfold State.idleTick
  repeat' with_reducible (first
    | assumption | (intro _ _ _) | refine inc_foot (hs.bit (by decide)) ?_ | apply each_foot' | apply ite_foot | split
    | dsimp only)

theorem holdTick_foot (hs : Sub 0x100000000000000000000000000000000000 μ) (hk : Foot μ σ τ) : Foot μ σ (τ.holdTick) := by
  unfold State.holdTick
  repeat' with_reducible (first
    | assumption | (intro _ _ _) | refine inc_foot (hs.bit (by decide)) ?_ | apply each_foot' | apply ite_foot | split
    | dsimp only)

theorem resetTick_foot (hs : Sub 0x17e000000000001000000000000002c01091d7a640000000000000044a09100b00400000000000 μ) (hk : Foot μ σ τ) : Foot μ σ (τ.resetTick) := by
  unfold State.resetTick
  repeat' with_reducible (first
    | assumption | (intro _ _ _) | refine realign_foot (hs.sub (by decide)) ?_ | refine setLaser_foot (hs.sub (by decide)) ?_ | refine setLaserEnable_foot (hs.sub (by decide)) ?_ | refine setPort_foot (hs.sub (by decide)) ?_
    | refine wr_foot (hs.bit (by decide)) ?_ | apply each_foot' | apply ite_foot | simp only [foot_mk] | apply Foot.parts | split
    | dsimp only)

theorem storeEnd_foot (hs : Sub 0x7e600000000000000028010c0009701090016fa6c0604000967ff0020000000000000000000000 μ) (hk : Foot μ σ τ) : Foot μ σ (τ.storeEnd) := by
  unfold State.storeEnd
  repeat' with_reducible (first
    | assumption | (intro _ _ _) | refine copyLate_foot (hs.sub (by decide)) ?_ | refine endAsked_foot (hs.sub (by decide)) ?_ | refine endPlacements_foot (hs.sub (by decide)) ?_ | refine refuseLate_foot (hs.sub (by decide)) ?_
    | refine settleAll_foot (hs.sub (by decide)) ?_ | apply ite_foot | split | dsimp only)

theorem tickStart_foot {pin : Bool} (hs : Sub 0x17fe0000000000fffffffffffffffffffffffffffffffffffffffffffffffffffffffffffffffff μ) (hk : Foot μ σ τ) : Foot μ σ (τ.tickStart pin) := by
  unfold State.tickStart
  repeat' with_reducible (first
    | assumption | (intro _ _ _) | refine arithCycle_foot (hs.sub (by decide)) ?_ | refine bucketResets_foot (hs.sub (by decide)) ?_ | refine endClosing_foot (hs.sub (by decide)) ?_ | refine holdTick_foot (hs.sub (by decide)) ?_
    | refine leaveUps_foot (hs.sub (by decide)) ?_ | refine mailboxTick_foot (hs.sub (by decide)) ?_ | refine resetTick_foot (hs.sub (by decide)) ?_ | refine serveFrees_foot (hs.sub (by decide)) ?_ | refine settleAll_foot (hs.sub (by decide)) ?_ | refine syncFaults_foot (hs.sub (by decide)) ?_
    | refine timeTick_foot (hs.sub (by decide)) ?_ | apply ite_foot | split | dsimp only)

theorem tick_foot (hs : Sub 0x17fe0000000000fffffffffffffffffffffffffffffffffffffffffffffffffffffffffffffffff μ) (hk : Foot μ σ τ) : Foot μ σ (τ.tick) := by
  unfold State.tick
  repeat' with_reducible (first
    | assumption | (intro _ _ _) | refine idleTick_foot (hs.sub (by decide)) ?_ | refine storeEnd_foot (hs.sub (by decide)) ?_ | refine tickStart_foot (hs.sub (by decide)) ?_ | apply ite_foot
    | simp only [foot_mk] | apply Foot.parts | split | dsimp only)

theorem bootClusters_foot {clusters : List Nat} (hs : Sub 0x200000000000000000000000000000000000000000001140200000000000000000000000000000 μ) (hk : Foot μ σ τ) : Foot μ σ (τ.bootClusters clusters) := by
  unfold State.bootClusters
  repeat' with_reducible (first
    | assumption | (intro _ _ _) | refine bootOwners_foot (hs.sub (by decide)) ?_ | refine syncClusters_foot (hs.sub (by decide)) ?_ | refine wr_foot (hs.bit (by decide)) ?_ | apply each_foot'
    | apply ite_foot | split | dsimp only)

theorem bootChannels_foot (hs : Sub 0x800000000000000004000000000000000000000000000000000000000000000000000000000000 μ) (hk : Foot μ σ τ) : Foot μ σ (τ.bootChannels) := by
  unfold State.bootChannels
  repeat' with_reducible (first
    | assumption | (intro _ _ _) | refine wr_foot (hs.bit (by decide)) ?_ | apply foldl_foot_fst | apply foldl_foot_snd | refine foldl_foot_fst_eq ‹_› ?_ ?_
    | refine foldl_foot_snd_eq ‹_› ?_ ?_ | apply ite_foot | simp only [foot_mk] | apply Foot.parts | refine parts_mem (hs.bit (by decide)) (Foot.parts ?_) | dsimp only)

theorem bootPools_foot (hs : Sub 0x20000000000000000000000000000000000000e00000000000000000000000000000000000000 μ) (hk : Foot μ σ τ) : Foot μ σ (τ.bootPools) := by
  unfold State.bootPools
  repeat' with_reducible (first
    | assumption | (intro _ _ _) | refine buildLists_foot (hs.sub (by decide)) ?_ | refine wr_foot (hs.bit (by decide)) ?_ | apply each_foot' | apply foldl_foot_fst
    | apply foldl_foot_snd | refine foldl_foot_fst_eq ‹_› ?_ ?_ | refine foldl_foot_snd_eq ‹_› ?_ ?_ | apply ite_foot | dsimp only)

theorem bootKeys_foot (hs : Sub 0x880000000000000000000000000000000000000000000000000000000000000000000000a000000 μ) (hk : Foot μ σ τ) : Foot μ σ (τ.bootKeys) := by
  unfold State.bootKeys
  repeat' with_reducible (first
    | assumption | (intro _ _ _) | apply fresh_foot | refine fresh_foot_eq ‹_› ?_ | refine setDigest_foot (hs.sub (by decide)) (hs.bit (by decide)) ?_ | refine wr_foot (hs.bit (by decide)) ?_
    | apply ite_foot | simp only [foot_mk] | apply Foot.parts | refine parts_sec (hs.bit (by decide)) (parts_mem (hs.bit (by decide)) (Foot.parts ?_)) | split | dsimp only)

theorem bootFences_foot (hs : Sub 0x40000000000000000000000000000000000100000000000000000000000000000000000000000 μ) (hk : Foot μ σ τ) : Foot μ σ (τ.bootFences) := by
  unfold State.bootFences
  repeat' with_reducible (first
    | assumption | (intro _ _ _) | refine wr_foot (hs.bit (by decide)) ?_ | apply each_foot' | apply foldl_foot_fst | apply foldl_foot_snd
    | refine foldl_foot_fst_eq ‹_› ?_ ?_ | refine foldl_foot_snd_eq ‹_› ?_ ?_ | apply ite_foot | simp only [foot_mk] | apply Foot.parts | refine parts_sched (hs.bit (by decide)) (Foot.parts ?_)
    | dsimp only)

theorem rememberLoaded_foot (hs : Sub 0x4000000000000000000000000000000000000000000000000000000000000000000000000000000 μ) (hk : Foot μ σ τ) : Foot μ σ (τ.rememberLoaded) := by
  unfold State.rememberLoaded
  repeat' with_reducible (first
    | assumption | (intro _ _ _) | apply ite_foot | simp only [foot_mk] | apply Foot.parts | refine parts_boot (hs.bit (by decide)) (Foot.parts ?_)
    | dsimp only)

theorem configLoaded_foot {ws : List (Nat × Nat)} {marked : Nat} (hs : Sub 0xbfff0000000000fffffffffffffffffffffffffffffffffffffffffffffffffffffffffffffffff μ) (hk : Foot μ σ τ) : Foot μ σ (τ.configLoaded ws marked) := by
  unfold State.configLoaded
  repeat' with_reducible (first
    | assumption | (intro _ _ _) | refine bootChannels_foot (hs.sub (by decide)) ?_ | apply mark_foot | refine write32_foot (hs.sub (by decide)) ?_ | apply each_foot'
    | apply foldl_foot_fst | apply foldl_foot_snd | refine foldl_foot_fst_eq ‹_› ?_ ?_ | refine foldl_foot_snd_eq ‹_› ?_ ?_ | apply ite_foot | simp only [foot_mk]
    | apply Foot.parts | refine parts_pwr (hs.bit (by decide)) (Foot.parts ?_) | dsimp only)

theorem bootConfig_foot {marked : Nat} {clusters : List Nat} (hs : Sub 0xffff0000000000fffffffffffffffffffffffffffffffffffffffffffffffffffffffffffffffff μ) (hk : Foot μ σ τ) : Foot μ σ (τ.bootConfig marked clusters) := by
  unfold State.bootConfig
  repeat' with_reducible (first
    | assumption | (intro _ _ _) | refine bootClusters_foot (hs.sub (by decide)) ?_ | refine bootFences_foot (hs.sub (by decide)) ?_ | refine bootKeys_foot (hs.sub (by decide)) ?_ | refine bootPools_foot (hs.sub (by decide)) ?_
    | refine bootStop_foot (hs.sub (by decide)) ?_ | refine configLoaded_foot (hs.sub (by decide)) ?_ | refine inc_foot (hs.bit (by decide)) ?_ | refine readPersistence_foot (hs.sub (by decide)) ?_ | refine rememberLoaded_foot (hs.sub (by decide)) ?_ | refine syncFaults_foot (hs.sub (by decide)) ?_
    | refine syncMap_foot (hs.sub (by decide)) ?_ | refine syncOldest_foot (hs.sub (by decide)) ?_ | refine wr_foot (hs.bit (by decide)) ?_ | refine writePersistence_foot (hs.sub (by decide)) ?_ | apply each_foot' | apply ite_foot
    | simp only [foot_mk] | apply Foot.parts | refine parts_sec (hs.bit (by decide)) (parts_evr (hs.bit (by decide)) (Foot.parts ?_)) | split | dsimp only)

end Sys2Proof.Machine
end

