-- ==== Sys2Proof/Laws/RegWrite.lean ====
section
/-!
SUPPORT. A write of a whole register by its owner: what it comes to, once its address has been decoded.
-/

namespace Sys2Proof.Machine

set_option Elab.async false

/-- A register lies outside the record windows. -/
def RegAt.windowFree (t : RegAt) : Bool :=
  Nat.ble (t.base + (t.count1 - 1) * t.stride1 + t.row) 0x00600000 || Nat.ble 0x00740140 t.base

theorem all_windowFree : Reg.all.all (fun r => r.at.windowFree) = true := by decide +kernel

theorem no_window (r : Reg) {i j : Nat} (hi : i < r.at.count1) (hj : j < r.at.count2) :
    (inRecordWindow (r.addr i j) || inRingWindow (r.addr i j)) = false := by
  have hw := List.all_eq_true.mp all_windowFree r (mem_all r)
  have m1 := Nat.mul_le_mul_right r.at.stride1 (Nat.le_sub_one_of_lt hi)
  have m2 := Nat.mul_le_mul_right r.at.stride2 (Nat.le_sub_one_of_lt hj)
  have hb := bytes_cases r
  have hr : j * r.at.stride2 < r.at.row := by
    unfold RegAt.row
    omega
  simp only [RegAt.windowFree, Bool.or_eq_true, Nat.ble_eq] at hw
  rw [← Bool.not_eq_true]
  intro h
  simp only [inRecordWindow, inRingWindow, Reg.addr, Bool.or_eq_true, Bool.and_eq_true] at h
  rcases h with ⟨h1, h2⟩ | ⟨h1, h2⟩
  · have h1 := of_decide_eq_true h1
    have h2 := of_decide_eq_true h2
    omega
  · have h1 := of_decide_eq_true h1
    have h2 := of_decide_eq_true h2
    omega

theorem all_owner : Reg.all.all (fun r => r.owner == .host || r.owner == .mgmt) = true := by decide +kernel

theorem owner_ne_nvm (r : Reg) : r.owner ≠ .nvm := by
  have := List.all_eq_true.mp all_owner r (mem_all r)
  intro h
  rw [h] at this
  exact absurd this (by decide)

/-- The write that its owner makes of instance (i, j) of `r`, past the address map. -/
def State.ownWrite (s : State) (r : Reg) (i j v : Nat) : State :=
  s.writeReg r.owner r i j v (r.at.bits - 1) 0

theorem writeHit_owner (s : State) (r : Reg) (a i j v : Nat) :
    s.writeHit r.owner a ⟨r, i, j, false⟩ v (r.at.bits - 1) 0 =
      if s.lockedDiffers (reached r (r.at.bits - 1) 0) i j v then
        (s.ownWrite r i j v).accessErr F.GLB_ACCESS_ERR_LOCKED_WR r.owner a
      else s.ownWrite r i j v := by
  have hn : s.nvmOwns r.owner ⟨r, i, j, false⟩ = false := by
    unfold State.nvmOwns
    rw [beq_eq_false_iff_ne.mpr (owner_ne_nvm r)]
    rfl
  unfold State.writeHit
  rw [hn, if_neg Bool.false_ne_true, if_neg (fun h => h rfl)]
  rfl

/-- Outside the safe state, the write a register's own command makes. -/
theorem regWrite_eq {s : State} (h : s.isSafe = false) (r : Reg) {i j : Nat} (hi : i < r.at.count1) (hj : j < r.at.count2)
    (v : Nat) : s.regWrite r i j v =
      if (s.setHeld r.owner none).lockedDiffers (reached r (r.at.bits - 1) 0) i j (v % 2 ^ r.at.bits) then
        ((s.setHeld r.owner none).ownWrite r i j (v % 2 ^ r.at.bits)).accessErr F.GLB_ACCESS_ERR_LOCKED_WR r.owner (r.addr i j)
      else (s.setHeld r.owner none).ownWrite r i j (v % 2 ^ r.at.bits) := by
  unfold State.regWrite State.busWrite
  rw [h]
  simp only [Bool.false_eq_true, if_false]
  rcases bytes_cases r with ⟨-, hb⟩ | ⟨-, hb⟩
  · rw [if_neg (by omega)]
    unfold State.write32
    simp only [no_window r hi hj, Bool.false_eq_true, if_false, hitAt_addr r hi hj, hb, if_true]
    rw [← hb]
    have := writeHit_owner (s.setHeld r.owner none) r (r.addr i j) i j (v % 2 ^ r.at.bits)
    rw [← this]
    congr 1
    omega
  · rw [if_pos hb]
    unfold State.write64 wideAt
    simp only [hitAt_addr r hi hj, Option.bind_some, hb, and_self, if_true]
    rw [← hb]
    have := writeHit_owner (s.setHeld r.owner none) r (r.addr i j) i j (v % 2 ^ r.at.bits)
    rw [← this]
    congr 1
    omega

/-- No field of the register is locked while a plan is accepted. -/
def noRwl (r : Reg) : Bool := r.fields.all (fun f => f.acc != .rwl && f.acc != .rwlWin && f.acc != .rwlAcct)

theorem code_rwl {f : Fld} {i j : Nat} (h : f.code i j = .rwl) : f.acc = .rwl ∨ f.acc = .rwlWin ∨ f.acc = .rwlAcct := by
  unfold Fld.code at h
  split at h <;> first | (simp_all; done) | (split at h <;> simp_all)

/-- The same for a register that no plan locks. -/
theorem regWrite_own {s : State} (h : s.isSafe = false) {r : Reg} (hr : noRwl r = true) {i j : Nat} (hi : i < r.at.count1)
    (hj : j < r.at.count2) {v : Nat} : s.regWrite r i j v = (s.setHeld r.owner none).ownWrite r i j (v % 2 ^ r.at.bits) := by
  rw [regWrite_eq h r hi hj, if_neg]
  rw [Bool.not_eq_true]
  unfold State.lockedDiffers
  rw [Bool.and_eq_false_iff]
  right
  rw [List.any_eq_false]
  intro f hf
  have hn := List.all_eq_true.mp hr f (List.mem_of_mem_filter hf)
  intro hc
  rw [Bool.and_eq_true, beq_iff_eq] at hc
  rcases code_rwl hc.1 with h' | h' | h' <;> simp [h'] at hn

end Sys2Proof.Machine
end

