-- ==== Sys2Proof/Laws/FootOwn.lean ====
section
/-!
SUPPORT. What a register's own write command may change.
-/

namespace Sys2Proof.Machine

set_option Elab.async false

set_option linter.unusedTactic false
set_option linter.unreachableTactic false

variable {μ : Nat} {σ τ υ : State}

theorem all_fields_reg : Reg.all.all (fun r => r.fields.all (fun f => f.reg == r)) = true := by decide +kernel

theorem fields_reg {r : Reg} {f : Fld} (h : f ∈ r.fields) : f.reg = r := by
  have := List.all_eq_true.mp (List.all_eq_true.mp all_fields_reg r (mem_all r)) f h
  exact beq_iff_eq.mp this

theorem reached_reg {r : Reg} {hi lo : Nat} : ∀ f ∈ reached r hi lo, f.reg = r := fun _ h =>
  fields_reg (List.mem_of_mem_filter h)

theorem writeField_foot_own {f : Fld} {i j w : Nat} (hb : μ.testBit f.reg.ctorIdx = true) (hn : f ≠ F.PRT_LINK_CFG_RATE)
    (hk : Foot μ σ τ) : Foot μ σ (τ.writeField f i j w) := by
  unfold State.writeField
  dsimp only
  split
  · exact ite_foot hk (wr_foot hb hk)
  · rw [if_neg hn]
    exact ite_foot hk (wr_foot hb hk)
  · exact ite_foot hk (wr_foot hb hk)
  · exact hk

theorem writeFields_foot_own {r : Reg} {fs : List Fld} {i j w : Nat} (hb : μ.testBit r.ctorIdx = true)
    (hn : r ≠ .PRT_LINK_CFG) (hf : ∀ f ∈ fs, f.reg = r) (hk : Foot μ σ τ) : Foot μ σ (τ.writeFields fs i j w) :=
  each_foot_mem hk (fun _ f hm h => writeField_foot_own (by rw [hf f hm]; exact hb)
    (fun he => hn ((hf f hm).symm.trans (by rw [he]))) h)

/-- The fields of a link configuration: a new rate also brings the port up again. -/
theorem writeLink_foot {q : Fld → Bool} {hi lo i j w : Nat} (hb : μ.testBit (Reg.ctorIdx .PRT_LINK_CFG) = true)
    (hr : ∀ u (r : Nat), Foot μ σ u → Foot μ σ (u.setRate i r)) (hk : Foot μ σ τ) :
    Foot μ σ (τ.writeFields ((reached .PRT_LINK_CFG hi lo).filter q) i j w) := by
  refine each_foot_mem hk (fun u f hm h => ?_)
  have hf : f.reg = .PRT_LINK_CFG := fields_reg (List.mem_of_mem_filter (List.mem_of_mem_filter hm))
  have hb' : μ.testBit f.reg.ctorIdx = true := by rw [hf]; exact hb
  unfold State.writeField
  dsimp only
  split
  · exact ite_foot h (wr_foot hb' h)
  · exact ite_foot h (ite_foot (hr _ _ h) (wr_foot hb' h))
  · exact ite_foot h (wr_foot hb' h)
  · exact h

theorem regWrite_safe {s : State} (h : s.isSafe = true) (r : Reg) (i j v : Nat) : s.regWrite r i j v = s := by
  unfold State.regWrite State.busWrite
  rw [h]
  rfl

theorem setHeld_foot' {cls : PortClass} {h : Option HeldWord} (hb : μ.testBit 300 = true) (hk : Foot μ σ τ) :
    Foot μ σ (τ.setHeld cls h) := foot_mk.mpr (parts_bus hb hk.parts)

theorem regWrite_foot_any {r : Reg} {i j v : Nat} (hb : μ.testBit 300 = true) (hi : i < r.at.count1) (hj : j < r.at.count2)
    (ha : ∀ u, Foot μ σ u → Foot μ σ (u.accessErr F.GLB_ACCESS_ERR_LOCKED_WR r.owner (r.addr i j)))
    (ho : ∀ u w, Foot μ σ u → Foot μ σ (u.ownWrite r i j w)) (hk : Foot μ σ τ) : Foot μ σ (τ.regWrite r i j v) := by
  cases hs : τ.isSafe with
  | true => rw [regWrite_safe hs]; exact hk
  | false =>
    rw [regWrite_eq hs r hi hj]
    have := ho _ (v % 2 ^ r.at.bits) (setHeld_foot' (cls := r.owner) (h := none) hb hk)
    exact ite_foot (ha _ this) this

theorem regWrite_foot_own {r : Reg} {i j v : Nat} (hb : μ.testBit 300 = true) (hr : noRwl r = true) (hi : i < r.at.count1)
    (hj : j < r.at.count2) (ho : ∀ u w, Foot μ σ u → Foot μ σ (u.ownWrite r i j w)) (hk : Foot μ σ τ) :
    Foot μ σ (τ.regWrite r i j v) := by
  cases hs : τ.isSafe with
  | true => rw [regWrite_safe hs]; exact hk
  | false =>
    rw [regWrite_own hs hr hi hj]
    exact ho _ _ (setHeld_foot' hb hk)

theorem regWrite_OPC_ABORT_foot {i j v : Nat} (hs : Sub 0x7e700000000000000028010c0009701090006fa6c0604000907ff0020000000000000000000000 μ) (hi : i < (Reg.at .OPC_ABORT).count1)
    (hj : j < (Reg.at .OPC_ABORT).count2) (hk : Foot μ σ τ) : Foot μ σ (τ.regWrite .OPC_ABORT i j v) := by
  refine regWrite_foot_own (hs.bit (by decide)) (by decide) hi hj (fun u w hk => ?_) hk
  unfold State.ownWrite State.writeReg
  dsimp only
  repeat' with_reducible (first
    | assumption | refine hostAbort_foot (hs.sub (by decide)) ?_ | apply ite_foot | split | dsimp only)

theorem regWrite_INS_FENCE_foot {i j v : Nat} (hs : Sub 0x7f700000000000000028010c000972d09091ffa6c0604000907ff0064000100000000000000000 μ) (hi : i < (Reg.at .INS_FENCE).count1)
    (hj : j < (Reg.at .INS_FENCE).count2) (hk : Foot μ σ τ) : Foot μ σ (τ.regWrite .INS_FENCE i j v) := by
  refine regWrite_foot_own (hs.bit (by decide)) (by decide) hi hj (fun u w hk => ?_) hk
  unfold State.ownWrite State.writeReg
  dsimp only
  repeat' with_reducible (first
    | assumption | refine swFence_foot (hs.sub (by decide)) ?_ | refine settleAll_foot (hs.sub (by decide)) ?_ | apply ite_foot | split | dsimp only)

theorem regWrite_SCH_CHG_foot {i j v : Nat} (hs : Sub 0x41000000000000000000000000000008000000000000000000000000000000000000000000000 μ) (hi : i < (Reg.at .SCH_CHG).count1)
    (hj : j < (Reg.at .SCH_CHG).count2) (hk : Foot μ σ τ) : Foot μ σ (τ.regWrite .SCH_CHG i j v) := by
  refine regWrite_foot_own (hs.bit (by decide)) (by decide) hi hj (fun u w hk => ?_) hk
  unfold State.ownWrite State.writeReg
  dsimp only
  repeat' with_reducible (first
    | assumption | refine changeGo_foot (hs.sub (by decide)) ?_ | apply ite_foot | split | dsimp only)

theorem regWrite_SHP_SHAPE_CFG_foot {i j v : Nat} (hs : Sub 0x81000000000000000000000000002400000000000000000000000000000000000000000000000 μ) (hi : i < (Reg.at .SHP_SHAPE_CFG).count1)
    (hj : j < (Reg.at .SHP_SHAPE_CFG).count2) (hk : Foot μ σ τ) : Foot μ σ (τ.regWrite .SHP_SHAPE_CFG i j v) := by
  refine regWrite_foot_own (hs.bit (by decide)) (by decide) hi hj (fun u w hk => ?_) hk
  unfold State.ownWrite State.writeReg
  dsimp only
  repeat' with_reducible (first
    | assumption | refine writeBucket_foot (hs.sub (by decide)) ?_ | apply ite_foot | split | dsimp only)

theorem regWrite_SHP_POL_CFG_foot {i j v : Nat} (hs : Sub 0x81000000000000000000000000002400000000000000000000000000000000000000000000000 μ) (hi : i < (Reg.at .SHP_POL_CFG).count1)
    (hj : j < (Reg.at .SHP_POL_CFG).count2) (hk : Foot μ σ τ) : Foot μ σ (τ.regWrite .SHP_POL_CFG i j v) := by
  refine regWrite_foot_own (hs.bit (by decide)) (by decide) hi hj (fun u w hk => ?_) hk
  unfold State.ownWrite State.writeReg
  dsimp only
  repeat' with_reducible (first
    | assumption | refine writeBucket_foot (hs.sub (by decide)) ?_ | apply ite_foot | split | dsimp only)

theorem regWrite_SHP_MIR_CFG_foot {i j v : Nat} (hs : Sub 0x81000000000000000000000000008000000000000000000000000000000000000000000000000 μ) (hi : i < (Reg.at .SHP_MIR_CFG).count1)
    (hj : j < (Reg.at .SHP_MIR_CFG).count2) (hk : Foot μ σ τ) : Foot μ σ (τ.regWrite .SHP_MIR_CFG i j v) := by
  refine regWrite_foot_own (hs.bit (by decide)) (by decide) hi hj (fun u w hk => ?_) hk
  unfold State.ownWrite State.writeReg
  dsimp only
  repeat' with_reducible (first
    | assumption | refine writeMirror_foot (hs.sub (by decide)) ?_ | apply ite_foot | split | dsimp only)

theorem regWrite_PRT_TEST_foot {i j v : Nat} (hs : Sub 0x17f000000000001000000000000002c01091d7a640000000000000044a00170b00400000000000 μ) (hi : i < (Reg.at .PRT_TEST).count1)
    (hj : j < (Reg.at .PRT_TEST).count2) (hk : Foot μ σ τ) : Foot μ σ (τ.regWrite .PRT_TEST i j v) := by
  refine regWrite_foot_own (hs.bit (by decide)) (by decide) hi hj (fun u w hk => ?_) hk
  unfold State.ownWrite State.writeReg
  dsimp only
  repeat' with_reducible (first
    | assumption | refine writeTest_foot (hs.sub (by decide)) ?_ | apply ite_foot | split | dsimp only)

theorem regWrite_PRT_LINK_CFG_foot {i j v : Nat} (hs : Sub 0x17f000000000001000000000000002c01095d7a640000000000000044a00100b80400000000180 μ) (hi : i < (Reg.at .PRT_LINK_CFG).count1)
    (hj : j < (Reg.at .PRT_LINK_CFG).count2) (hk : Foot μ σ τ) : Foot μ σ (τ.regWrite .PRT_LINK_CFG i j v) := by
  refine regWrite_foot_any (hs.bit (by decide)) hi hj (fun _ h => accessErr_foot (hs.sub (by decide)) (hs.bit (by decide)) h) (fun u w hk => ?_) hk
  unfold State.ownWrite State.writeReg
  dsimp only
  repeat' with_reducible (first
    | assumption | refine setEnable_foot (hs.sub (by decide)) ?_ | refine setRate_foot (hs.sub (by decide)) ?_ | refine writeLink_foot (hs.bit (by decide)) (fun u r h => setRate_foot (hs.sub (by decide)) h) ?_ | apply ite_foot | split
    | dsimp only)

theorem regWrite_PRT_LSM_CTL_foot {i j v : Nat} (hs : Sub 0x17f000000000001000000000000002c01091d7a640000000000000044a09100b00400000000000 μ) (hi : i < (Reg.at .PRT_LSM_CTL).count1)
    (hj : j < (Reg.at .PRT_LSM_CTL).count2) (hk : Foot μ σ τ) : Foot μ σ (τ.regWrite .PRT_LSM_CTL i j v) := by
  refine regWrite_foot_own (hs.bit (by decide)) (by decide) hi hj (fun u w hk => ?_) hk
  unfold State.ownWrite State.writeReg
  dsimp only
  repeat' with_reducible (first
    | assumption | refine writeLaserEnable_foot (hs.sub (by decide)) ?_ | apply ite_foot | split | dsimp only)

theorem regWrite_PRT_TIME_NOW_foot {i j v : Nat} (hs : Sub 0x11000000000000000000000000000000000000000000000000000000040000000000000000000 μ) (hi : i < (Reg.at .PRT_TIME_NOW).count1)
    (hj : j < (Reg.at .PRT_TIME_NOW).count2) (hk : Foot μ σ τ) : Foot μ σ (τ.regWrite .PRT_TIME_NOW i j v) := by
  refine regWrite_foot_own (hs.bit (by decide)) (by decide) hi hj (fun u w hk => ?_) hk
  unfold State.ownWrite State.writeReg
  dsimp only
  repeat' with_reducible (first
    | assumption | refine writeTime_foot (hs.sub (by decide)) ?_ | apply ite_foot | split | dsimp only)

theorem regWrite_FLT_MGT_foot {i j v : Nat} (hs : Sub 0x5000000000000000000000000000000000000000000000000000000000000000017100000000 μ) (hi : i < (Reg.at .FLT_MGT).count1)
    (hj : j < (Reg.at .FLT_MGT).count2) (hk : Foot μ σ τ) : Foot μ σ (τ.regWrite .FLT_MGT i j v) := by
  refine regWrite_foot_own (hs.bit (by decide)) (by decide) hi hj (fun u w hk => ?_) hk
  unfold State.ownWrite State.writeReg
  dsimp only
  repeat' with_reducible (first
    | assumption | refine syncFaults_foot (hs.sub (by decide)) ?_ | refine clearPending_foot (hs.sub (by decide)) ?_ | refine writeFields_foot_own (r := .FLT_MGT) (hs.bit (by decide)) (by decide) reached_reg ?_ | apply ite_foot | split
    | dsimp only)

theorem regWrite_FLT_INJECT_foot {i j v : Nat} (hs : Sub 0x17f000000000000000000000000002c01091d7a640000000000000044000100000427700000000 μ) (hi : i < (Reg.at .FLT_INJECT).count1)
    (hj : j < (Reg.at .FLT_INJECT).count2) (hk : Foot μ σ τ) : Foot μ σ (τ.regWrite .FLT_INJECT i j v) := by
  refine regWrite_foot_own (hs.bit (by decide)) (by decide) hi hj (fun u w hk => ?_) hk
  unfold State.ownWrite State.writeReg
  dsimp only
  repeat' with_reducible (first
    | assumption | refine writeInject_foot (hs.sub (by decide)) ?_ | apply ite_foot | split | dsimp only)

theorem regWrite_FLT_SRC_CFG_foot {i j v : Nat} (hs : Sub 0x5000000000000000000000000000000000000000000000000000000000000000007800000000 μ) (hi : i < (Reg.at .FLT_SRC_CFG).count1)
    (hj : j < (Reg.at .FLT_SRC_CFG).count2) (hk : Foot μ σ τ) : Foot μ σ (τ.regWrite .FLT_SRC_CFG i j v) := by
  refine regWrite_foot_own (hs.bit (by decide)) (by decide) hi hj (fun u w hk => ?_) hk
  unfold State.ownWrite State.writeReg
  dsimp only
  repeat' with_reducible (first
    | assumption | refine writeSrcCfg_foot (hs.sub (by decide)) ?_ | apply ite_foot | split | dsimp only)

theorem regWrite_EVR_TRIGGER_foot {i j v : Nat} (hs : Sub 0x9000000000000000000000000000000000000000000000000000000000000000400000000000 μ) (hi : i < (Reg.at .EVR_TRIGGER).count1)
    (hj : j < (Reg.at .EVR_TRIGGER).count2) (hk : Foot μ σ τ) : Foot μ σ (τ.regWrite .EVR_TRIGGER i j v) := by
  refine regWrite_foot_own (hs.bit (by decide)) (by decide) hi hj (fun u w hk => ?_) hk
  unfold State.ownWrite State.writeReg
  dsimp only
  repeat' with_reducible (first
    | assumption | refine softwareTrigger_foot (hs.sub (by decide)) ?_ | apply ite_foot | split | dsimp only)

theorem regWrite_EVR_RING_SEL_foot {i j v : Nat} (hs : Sub 0x900000000000000000000000000000000000000000000000000000000000000c000000000000 μ) (hi : i < (Reg.at .EVR_RING_SEL).count1)
    (hj : j < (Reg.at .EVR_RING_SEL).count2) (hk : Foot μ σ τ) : Foot μ σ (τ.regWrite .EVR_RING_SEL i j v) := by
  refine regWrite_foot_own (hs.bit (by decide)) (by decide) hi hj (fun u w hk => ?_) hk
  unfold State.ownWrite State.writeReg
  dsimp only
  repeat' with_reducible (first
    | assumption | refine ringSelect_foot (hs.sub (by decide)) ?_ | apply ite_foot | split | dsimp only)

theorem regWrite_PWR_HOST_OFF_foot {i j v : Nat} (hs : Sub 0x800f000000000000000000000000000000000000000000000000000000000000000400010018000 μ) (hi : i < (Reg.at .PWR_HOST_OFF).count1)
    (hj : j < (Reg.at .PWR_HOST_OFF).count2) (hk : Foot μ σ τ) : Foot μ σ (τ.regWrite .PWR_HOST_OFF i j v) := by
  refine regWrite_foot_own (hs.bit (by decide)) (by decide) hi hj (fun u w hk => ?_) hk
  unfold State.ownWrite State.writeReg
  dsimp only
  repeat' with_reducible (first
    | assumption | refine writeDomainOff_foot (hs.sub (by decide)) ?_ | apply ite_foot | split | dsimp only)

theorem regWrite_PWR_MGT_OFF_foot {i j v : Nat} (hs : Sub 0x800f000000000000000000000000000000000000000000000000000000000000000400010018000 μ) (hi : i < (Reg.at .PWR_MGT_OFF).count1)
    (hj : j < (Reg.at .PWR_MGT_OFF).count2) (hk : Foot μ σ τ) : Foot μ σ (τ.regWrite .PWR_MGT_OFF i j v) := by
  refine regWrite_foot_own (hs.bit (by decide)) (by decide) hi hj (fun u w hk => ?_) hk
  unfold State.ownWrite State.writeReg
  dsimp only
  repeat' with_reducible (first
    | assumption | refine writeDomainOff_foot (hs.sub (by decide)) ?_ | apply ite_foot | split | dsimp only)

end Sys2Proof.Machine
end

