-- ==== Sys2Proof/Laws/FootExec.lean ====
section
/-!
SUPPORT. Which registers and parts of the state each command may change.
-/

namespace Sys2Proof.Machine

set_option Elab.async false

set_option linter.unusedTactic false
set_option linter.unreachableTactic false
set_option linter.unusedSimpArgs false
set_option linter.unusedVariables false

variable {μ : Nat} {σ τ υ : State}

theorem onAlways_foot {ok : Bool} {f : State → State} (h : onAlways ok τ f = .next υ) (hf : Foot μ τ τ → Foot μ τ (f τ)) :
    Foot μ τ υ := by
  unfold onAlways at h
  cases h
  exact ite_foot (hf (Foot.refl μ τ)) (Foot.refl μ τ)

theorem onPowered_foot {ok : Bool} {f : State → State} (h : onPowered ok τ f = .next υ) (hf : Foot μ τ τ → Foot μ τ (f τ)) :
    Foot μ τ υ := by
  unfold onPowered at h
  cases h
  exact ite_foot (hf (Foot.refl μ τ)) (Foot.refl μ τ)

theorem onPowered_foot_wf {ok : Bool} {f : State → State} (h : onPowered ok τ f = .next υ)
    (hf : ok = true → Foot μ τ τ → Foot μ τ (f τ)) : Foot μ τ υ := by
  unfold onPowered at h
  cases h
  split
  · next hc => exact hf (by rw [Bool.and_eq_true] at hc; exact hc.1) (Foot.refl μ τ)
  · exact Foot.refl μ τ

theorem onActive_foot {ok : Bool} {f : State → State} (h : onActive ok τ f = .next υ) (hf : Foot μ τ τ → Foot μ τ (f τ)) :
    Foot μ τ υ := by
  unfold onActive at h
  cases h
  exact ite_foot (hf (Foot.refl μ τ)) (Foot.refl μ τ)

theorem execBootRom_foot (h : execBootRom τ = .next υ) : Foot 0x4006000000000000000000000000000000000000000000000000000000000000000007100280000 τ υ := by
  have hs := Sub.refl 0x4006000000000000000000000000000000000000000000000000000000000000000007100280000
  refine onPowered_foot h (fun hk => ?_)
  repeat' with_reducible (first
    | assumption | (intro _ _ _) | refine bootRom_foot (hs.sub (by decide)) ?_ | apply ite_foot | dsimp only)

theorem execBootNvmRead_foot {jedec : Nat} {size : Nat} {retries : Nat} (h : execBootNvmRead jedec size retries τ = .next υ) : Foot 0x4000000000000000000000000000000000000000000000000000000000000000000000000480000 τ υ := by
  have hs := Sub.refl 0x4000000000000000000000000000000000000000000000000000000000000000000000000480000
  refine onPowered_foot h (fun hk => ?_)
  repeat' with_reducible (first
    | assumption | (intro _ _ _) | refine bootNvmRead_foot (hs.sub (by decide)) ?_ | apply ite_foot | dsimp only)

theorem execBootVerify_foot {fwA : Bool} {fwB : Bool} {cfgA : Bool} {cfgB : Bool} (h : execBootVerify fwA fwB cfgA cfgB τ = .next υ) : Foot 0x4006000000000000000000000000000000000000000000000000000000000000000007101b80000 τ υ := by
  have hs := Sub.refl 0x4006000000000000000000000000000000000000000000000000000000000000000007101b80000
  refine onPowered_foot h (fun hk => ?_)
  repeat' with_reducible (first
    | assumption | (intro _ _ _) | refine bootVerify_foot (hs.sub (by decide)) ?_ | apply ite_foot | dsimp only)

theorem execBootConfig_foot {marked : Nat} {clusters : List Nat} (h : execBootConfig marked clusters τ = .next υ) : Foot 0xffff0000000000fffffffffffffffffffffffffffffffffffffffffffffffffffffffffffffffff τ υ := by
  have hs := Sub.refl 0xffff0000000000fffffffffffffffffffffffffffffffffffffffffffffffffffffffffffffffff
  refine onPowered_foot h (fun hk => ?_)
  repeat' with_reducible (first
    | assumption | (intro _ _ _) | refine bootConfig_foot (hs.sub (by decide)) ?_ | apply ite_foot | dsimp only)

theorem execBootMemory_foot {failed : Nat} (h : execBootMemory failed τ = .next υ) : Foot 0x417e000000000001000400000000002c01091d7a640000000000000044a09100b00407100180000 τ υ := by
  have hs := Sub.refl 0x417e000000000001000400000000002c01091d7a640000000000000044a09100b00407100180000
  refine onPowered_foot h (fun hk => ?_)
  repeat' with_reducible (first
    | assumption | (intro _ _ _) | refine bootMemory_foot (hs.sub (by decide)) ?_ | apply ite_foot | dsimp only)

theorem execBootLinks_foot (h : execBootLinks τ = .next υ) : Foot 0x8000000000000400000000000000000000000000000000000000000000000000400000180000 τ υ := by
  have hs := Sub.refl 0x8000000000000400000000000000000000000000000000000000000000000000400000180000
  refine onPowered_foot h (fun hk => ?_)
  repeat' with_reducible (first
    | assumption | (intro _ _ _) | refine bootLinks_foot (hs.sub (by decide)) ?_ | apply ite_foot | dsimp only)

theorem execBootFail_foot {code : Nat} (h : execBootFail code τ = .next υ) : Foot 0x6000000000000000000000000000000000000000000000000000000000000000007100080000 τ υ := by
  have hs := Sub.refl 0x6000000000000000000000000000000000000000000000000000000000000000007100080000
  refine onPowered_foot h (fun hk => ?_)
  repeat' with_reducible (first
    | assumption | (intro _ _ _) | refine bootFail_foot (hs.sub (by decide)) ?_ | apply ite_foot | dsimp only)

theorem execAdmissionDecide_foot {k : Nat} {t : Nat} (h : execAdmissionDecide k t τ = .next υ) : Foot 0x328000000000000000000000000000001000000000fc4000800000000000000000400000000000 τ υ := by
  have hs := Sub.refl 0x328000000000000000000000000000001000000000fc4000800000000000000000400000000000
  refine onActive_foot h (fun hk => ?_)
  repeat' with_reducible (first
    | assumption | (intro _ _ _) | refine admissionDecide_foot (hs.sub (by decide)) ?_ | apply ite_foot | dsimp only)

theorem execFreezeDieStop_foot {t : Nat} {die : Nat} (h : execFreezeDieStop t die τ = .next υ) : Foot 0x200000000000000000000000000000000000000000000000000000000000000000000000000000 τ υ := by
  have hs := Sub.refl 0x200000000000000000000000000000000000000000000000000000000000000000000000000000
  refine onActive_foot h (fun hk => ?_)
  repeat' with_reducible (first
    | assumption | (intro _ _ _) | refine stopDie_foot (hs.sub (by decide)) ?_ | apply ite_foot | dsimp only)

theorem execHoldEnter_foot {t : Nat} (h : execHoldEnter t τ = .next υ) : Foot 0x16600000000000000000000000000000000067a6c8044000000000000000000000000000000000 τ υ := by
  have hs := Sub.refl 0x16600000000000000000000000000000000067a6c8044000000000000000000000000000000000
  refine onActive_foot h (fun hk => ?_)
  repeat' with_reducible (first
    | assumption | (intro _ _ _) | refine enterHold_foot (hs.sub (by decide)) ?_ | apply ite_foot | dsimp only)

theorem execSpineHoldReceive_foot (h : execSpineHoldReceive τ = .next υ) : Foot 0x7ee00000000000000028010c0009701090006fa6c0744000907ff0020000000000400000000000 τ υ := by
  have hs := Sub.refl 0x7ee00000000000000028010c0009701090006fa6c0744000907ff0020000000000400000000000
  refine onActive_foot h (fun hk => ?_)
  repeat' with_reducible (first
    | assumption | (intro _ _ _) | refine settleAll_foot (hs.sub (by decide)) ?_ | refine spineHold_foot (hs.sub (by decide)) ?_ | apply ite_foot | dsimp only)

theorem execOperandFetchRequest_foot {x : Nat} {n : Nat} (h : execOperandFetchRequest x n τ = .next υ) : Foot 0x200000000000000000000000000000000000000000000000000000000000000000000000000000 τ υ := by
  have hs := Sub.refl 0x200000000000000000000000000000000000000000000000000000000000000000000000000000
  refine onActive_foot h (fun hk => ?_)
  repeat' with_reducible (first
    | assumption | (intro _ _ _) | refine fetchRequest_foot (hs.sub (by decide)) ?_ | apply ite_foot | dsimp only)

theorem execOperandArrive_foot {x : Nat} {n : Nat} {r : Nat} {bad : Option Nat} (h : execOperandArrive x n r bad τ = .next υ) : Foot 0xfe6000000000000083a8010c0009701090006fa6f0604000907ff0020000000000000000000000 τ υ := by
  have hs := Sub.refl 0xfe6000000000000083a8010c0009701090006fa6f0604000907ff0020000000000000000000000
  refine onActive_foot h (fun hk => ?_)
  repeat' with_reducible (first
    | assumption | (intro _ _ _) | refine operandArrive_foot (hs.sub (by decide)) ?_ | refine settleAll_foot (hs.sub (by decide)) ?_ | apply ite_foot | dsimp only)

theorem execNodeIssue_foot {k : Nat} (h : execNodeIssue k τ = .next υ) : Foot 0x200000000000000000000000000000000000000000000000000000000000000000000000000000 τ υ := by
  have hs := Sub.refl 0x200000000000000000000000000000000000000000000000000000000000000000000000000000
  refine onActive_foot h (fun hk => ?_)
  repeat' with_reducible (first
    | assumption | (intro _ _ _) | refine nodeIssue_foot (hs.sub (by decide)) ?_ | apply ite_foot | dsimp only)

theorem execCheckVerdict_foot {k : Nat} {x : Nat} {opnum : Nat} {n : Nat} {node : Nat} {fail : Option CheckPath} {attempt : Nat} {corrected : Nat} (h : execCheckVerdict k x opnum n node fail attempt corrected τ = .next υ) : Foot 0x70e000000000000000000000000100001000000000fc5d55e0000000000000000040000000001c τ υ := by
  have hs := Sub.refl 0x70e000000000000000000000000100001000000000fc5d55e0000000000000000040000000001c
  refine onActive_foot h (fun hk => ?_)
  repeat' with_reducible (first
    | assumption | (intro _ _ _) | refine checkVerdict_foot (hs.sub (by decide)) ?_ | apply ite_foot | dsimp only)

theorem execChunkCommit_foot {x : Nat} {n : Nat} (h : execChunkCommit x n τ = .next υ) : Foot 0xfe600000000000000228010d41f9701090006fa6c0604020907ff0020000000000000000000000 τ υ := by
  have hs := Sub.refl 0xfe600000000000000228010d41f9701090006fa6c0604020907ff0020000000000000000000000
  refine onActive_foot h (fun hk => ?_)
  repeat' with_reducible (first
    | assumption | (intro _ _ _) | refine chunkCommit_foot (hs.sub (by decide)) ?_ | refine settleAll_foot (hs.sub (by decide)) ?_ | apply ite_foot | dsimp only)

theorem execNumRecordArrive_foot {x : Nat} {n : Nat} {bad : Bool} (h : execNumRecordArrive x n bad τ = .next υ) : Foot 0x206000000000000003800002000100001000000000000000000000000000000000000000000000 τ υ := by
  have hs := Sub.refl 0x206000000000000003800002000100001000000000000000000000000000000000000000000000
  refine onActive_foot h (fun hk => ?_)
  repeat' with_reducible (first
    | assumption | (intro _ _ _) | refine recordArrive_foot (hs.sub (by decide)) ?_ | apply ite_foot | dsimp only)

theorem execSpareSelfTestStart_foot (h : execSpareSelfTestStart τ = .next υ) : Foot 0x200000000000000000000000000000000000000000000000200000000000000000000000000000 τ υ := by
  have hs := Sub.refl 0x200000000000000000000000000000000000000000000000200000000000000000000000000000
  refine onActive_foot h (fun hk => ?_)
  repeat' with_reducible (first
    | assumption | (intro _ _ _) | refine spareTestStart_foot (hs.sub (by decide)) ?_ | apply ite_foot | dsimp only)

theorem execSpareSelfTestEnd_foot {pass : Bool} (h : execSpareSelfTestEnd pass τ = .next υ) : Foot 0x20e00000000000000000000000000000100000000000014220000000000000000040000000001c τ υ := by
  have hs := Sub.refl 0x20e00000000000000000000000000000100000000000014220000000000000000040000000001c
  refine onActive_foot h (fun hk => ?_)
  repeat' with_reducible (first
    | assumption | (intro _ _ _) | refine spareTestEnd_foot (hs.sub (by decide)) ?_ | apply ite_foot | dsimp only)

theorem execCoreDieLoss_foot {die : Nat} (h : execCoreDieLoss die τ = .next υ) : Foot 0x230e000000000000000000000000100001000000000fc5540a0000000000000000040000002001c τ υ := by
  have hs := Sub.refl 0x230e000000000000000000000000100001000000000fc5540a0000000000000000040000002001c
  refine onActive_foot h (fun hk => ?_)
  repeat' with_reducible (first
    | assumption | (intro _ _ _) | refine coreDieLoss_foot (hs.sub (by decide)) ?_ | apply ite_foot | dsimp only)

theorem execMonitorInputsRead_foot {die : Nat} (h : execMonitorInputsRead die τ = .next υ) : Foot 0x7e600000000000000028010c0009701090006fa6c0604000907ff0020000000000000000000000 τ υ := by
  have hs := Sub.refl 0x7e600000000000000028010c0009701090006fa6c0604000907ff0020000000000000000000000
  refine onActive_foot h (fun hk => ?_)
  repeat' with_reducible (first
    | assumption | (intro _ _ _) | refine monitorRead_foot (hs.sub (by decide)) ?_ | refine settleAll_foot (hs.sub (by decide)) ?_ | apply ite_foot | dsimp only)

theorem execShadowCheckComplete_foot {die : Nat} (h : execShadowCheckComplete die τ = .next υ) : Foot 0x206000000000000000000001860000000000000000000000000000000000000000000000000000 τ υ := by
  have hs := Sub.refl 0x206000000000000000000001860000000000000000000000000000000000000000000000000000
  refine onActive_foot h (fun hk => ?_)
  repeat' with_reducible (first
    | assumption | (intro _ _ _) | refine shadowComplete_foot (hs.sub (by decide)) ?_ | apply ite_foot | dsimp only)

theorem execSpillFetchComplete_foot {x : Nat} {n : Nat} {q : Nat} {bad : Option Nat} (h : execSpillFetchComplete x n q bad τ = .next υ) : Foot 0x7e6000000000000003a8010c0009701090006fa6c0604000907ff0020000000000000000000000 τ υ := by
  have hs := Sub.refl 0x7e6000000000000003a8010c0009701090006fa6c0604000907ff0020000000000000000000000
  refine onActive_foot h (fun hk => ?_)
  repeat' with_reducible (first
    | assumption | (intro _ _ _) | refine settleAll_foot (hs.sub (by decide)) ?_ | refine spillFetched_foot (hs.sub (by decide)) ?_ | apply ite_foot | dsimp only)

theorem execSpillWritebackComplete_foot {x : Nat} {n : Nat} {q : Nat} (h : execSpillWritebackComplete x n q τ = .next υ) : Foot 0xa00000000000000002000000000000000000000000000000000000000000000000000000000000 τ υ := by
  have hs := Sub.refl 0xa00000000000000002000000000000000000000000000000000000000000000000000000000000
  refine onActive_foot h (fun hk => ?_)
  repeat' with_reducible (first
    | assumption | (intro _ _ _) | refine spillWritten_foot (hs.sub (by decide)) ?_ | apply ite_foot | dsimp only)

theorem execFaultMessage_foot {ring : Ring} (h : execFaultMessage ring τ = .next υ) : Foot 0x6000000000000000000000000000000000000000000000000000000000000000000000000000 τ υ := by
  have hs := Sub.refl 0x6000000000000000000000000000000000000000000000000000000000000000000000000000
  refine onPowered_foot h (fun hk => ?_)
  repeat' with_reducible (first
    | assumption | (intro _ _ _) | refine faultMessage_foot (hs.sub (by decide)) ?_ | apply ite_foot | dsimp only)

theorem execFaultRaise_foot (h : execFaultRaise τ = .next υ) : Foot 0x17fe0000000000fffffffffffffffffffffffffffffffffffffffffffffffffffffffffffffffff τ υ := by
  have hs := Sub.refl 0x17fe0000000000fffffffffffffffffffffffffffffffffffffffffffffffffffffffffffffffff
  refine onActive_foot h (fun hk => ?_)
  repeat' with_reducible (first
    | assumption | (intro _ _ _) | refine faultRaise_foot (hs.sub (by decide)) ?_ | refine settleAll_foot (hs.sub (by decide)) ?_ | apply ite_foot | dsimp only)

theorem execLevelConditionChange_foot {src : Nat} {unit : Nat} {holds : Bool} (h : execLevelConditionChange src unit holds τ = .next υ) : Foot 0x6000000000000000000000000000000000000000000000000000000000000000007100000000 τ υ := by
  have hs := Sub.refl 0x6000000000000000000000000000000000000000000000000000000000000000007100000000
  refine onPowered_foot h (fun hk => ?_)
  repeat' with_reducible (first
    | assumption | (intro _ _ _) | refine levelChange_foot (hs.sub (by decide)) ?_ | apply ite_foot | dsimp only)

theorem execIntHoldoffEnd_foot {v : Nat} (h : execIntHoldoffEnd v τ = .next υ) : Foot 0x4000000000080000000000000000000000000000000000000000000000000000000000000000 τ υ := by
  have hs := Sub.refl 0x4000000000080000000000000000000000000000000000000000000000000000000000000000
  refine onPowered_foot h (fun hk => ?_)
  repeat' with_reducible (first
    | assumption | (intro _ _ _) | refine holdoffEnd_foot (hs.sub (by decide)) ?_ | apply ite_foot | dsimp only)

theorem execChipResetReaction_foot (h : execChipResetReaction τ = .next υ) : Foot 0xffff0000000000fffffffffffffffffffffffffffffffffffffffffffffffffffffffffffffffff τ υ := by
  have hs := Sub.refl 0xffff0000000000fffffffffffffffffffffffffffffffffffffffffffffffffffffffffffffffff
  refine onPowered_foot h (fun hk => ?_)
  repeat' with_reducible (first
    | assumption | (intro _ _ _) | refine resetReactionDue_foot (hs.sub (by decide)) ?_ | apply ite_foot | dsimp only)

theorem execFaultNoticeRepeat_foot (h : execFaultNoticeRepeat τ = .next υ) : Foot 0x4000000000000000000000000000000000000000000000000000000000000000000000000000 τ υ := by
  have hs := Sub.refl 0x4000000000000000000000000000000000000000000000000000000000000000000000000000
  refine onPowered_foot h (fun hk => ?_)
  repeat' with_reducible (first
    | assumption | (intro _ _ _) | refine noticeRepeat_foot (hs.sub (by decide)) ?_ | apply ite_foot | dsimp only)

theorem execMgtWatchdogExpiry_foot (h : execMgtWatchdogExpiry τ = .next υ) : Foot 0x6000000000000000000000000000000000000000000000000000000000000000000000000000 τ υ := by
  have hs := Sub.refl 0x6000000000000000000000000000000000000000000000000000000000000000000000000000
  refine onPowered_foot h (fun hk => ?_)
  repeat' with_reducible (first
    | assumption | (intro _ _ _) | refine watchdog_foot (hs.sub (by decide)) ?_ | apply ite_foot | dsimp only)

theorem execCollectorSweep_foot {corrected : Nat} {bad : Option (Nat × Nat)} (h : execCollectorSweep corrected bad τ = .next υ) : Foot 0x17e000000000000000000000000002c01091d7a640000000000000044000100000427700000000 τ υ := by
  have hs := Sub.refl 0x17e000000000000000000000000002c01091d7a640000000000000044000100000427700000000
  refine onActive_foot h (fun hk => ?_)
  repeat' with_reducible (first
    | assumption | (intro _ _ _) | refine sweep_foot (hs.sub (by decide)) ?_ | apply ite_foot | dsimp only)

theorem execSafeState_foot {cause : Nat} {word : Nat} (h : execSafeState cause word τ = .next υ) : Foot 0x17e000000000000000000000000002c01091d7a640000000000000044000100000427700000000 τ υ := by
  have hs := Sub.refl 0x17e000000000000000000000000002c01091d7a640000000000000044000100000427700000000
  refine onActive_foot h (fun hk => ?_)
  repeat' with_reducible (first
    | assumption | (intro _ _ _) | refine collectorFail_foot (hs.sub (by decide)) ?_ | apply ite_foot | dsimp only)

theorem execLaserSample_foot {e : Nat} {presLow : Bool} {fltLow : Bool} (h : execLaserSample e presLow fltLow τ = .next υ) : Foot 0x17e000000000001000000000000002c01091d7a640000000000000044a09100b00400000000000 τ υ := by
  have hs := Sub.refl 0x17e000000000001000000000000002c01091d7a640000000000000044a09100b00400000000000
  refine onPowered_foot h (fun hk => ?_)
  repeat' with_reducible (first
    | assumption | (intro _ _ _) | refine laserSample_foot (hs.sub (by decide)) ?_ | apply ite_foot | dsimp only)

theorem execLaserMonitorRead_foot {e : Nat} {temp : Nat} {bias : List Nat} {power : List Nat} (h : execLaserMonitorRead e temp bias power τ = .next υ) : Foot 0x16000000000000000000000000000000000000000000000000000000007000000000100000000 τ υ := by
  have hs := Sub.refl 0x16000000000000000000000000000000000000000000000000000000007000000000100000000
  refine onPowered_foot h (fun hk => ?_)
  repeat' with_reducible (first
    | assumption | (intro _ _ _) | refine laserRead_foot (hs.sub (by decide)) ?_ | apply ite_foot | dsimp only)

theorem execLaneCommaBlock_foot {p : Nat} {k : Nat} {found : Option Nat} (h : execLaneCommaBlock p k found τ = .next υ) : Foot 0x7600000000000000000000000000000000007a6c0000000000000000000000100000000000000 τ υ := by
  have hs := Sub.refl 0x7600000000000000000000000000000000007a6c0000000000000000000000100000000000000
  refine onPowered_foot h (fun hk => ?_)
  repeat' with_reducible (first
    | assumption | (intro _ _ _) | refine commaBlock_foot (hs.sub (by decide)) ?_ | apply ite_foot | dsimp only)

theorem execLossOfSignal_foot {p : Nat} {k : Nat} (h : execLossOfSignal p k τ = .next υ) : Foot 0x10000000000000000000000000000000000000000000000000000000000000100000000000000 τ υ := by
  have hs := Sub.refl 0x10000000000000000000000000000000000000000000000000000000000000100000000000000
  refine onPowered_foot h (fun hk => ?_)
  repeat' with_reducible (first
    | assumption | (intro _ _ _) | refine lossOfSignal_foot (hs.sub (by decide)) ?_ | apply ite_foot | dsimp only)

theorem execCodewordDecode_foot {p : Nat} {k : Nat} {word : Codeword} (h : execCodewordDecode p k word τ = .next υ) : Foot 0x10000000000000000000000000000000000000000000000000000000000007100000000000000 τ υ := by
  have hs := Sub.refl 0x10000000000000000000000000000000000000000000000000000000000007100000000000000
  refine onPowered_foot h (fun hk => ?_)
  repeat' with_reducible (first
    | assumption | (intro _ _ _) | refine codeword_foot (hs.sub (by decide)) ?_ | apply ite_foot | dsimp only)

theorem execLaneDeskew_foot {p : Nat} {granted : List Nat} (h : execLaneDeskew p granted τ = .next υ) : Foot 0x7e00000000000100000000000000000000007a6c0000000000000040a00100f00400000000000 τ υ := by
  have hs := Sub.refl 0x7e00000000000100000000000000000000007a6c0000000000000040a00100f00400000000000
  refine onPowered_foot h (fun hk => ?_)
  repeat' with_reducible (first
    | assumption | (intro _ _ _) | refine deskew_foot (hs.sub (by decide)) ?_ | apply ite_foot | dsimp only)

theorem execPortDown_foot {p : Nat} (h : execPortDown p τ = .next υ) : Foot 0x7fe00000000000100028010c000972d09091ffa6c0604000907ff0064a00100b00400000000000 τ υ := by
  have hs := Sub.refl 0x7fe00000000000100028010c000972d09091ffa6c0604000907ff0064a00100b00400000000000
  refine onPowered_foot h (fun hk => ?_)
  repeat' with_reducible (first
    | assumption | (intro _ _ _) | refine leaveUp_foot (hs.sub (by decide)) ?_ | refine portDown_foot (hs.sub (by decide)) ?_ | refine settleAll_foot (hs.sub (by decide)) ?_ | apply ite_foot
    | dsimp only)

theorem execDataBlock_foot {p : Nat} {header : Nat} {data : List Byte} {uncorr : Bool} (h : execDataBlock p header data uncorr τ = .next υ) : Foot 0x10000000000000000000000000000000000000000000000000000000000000c00000000000000 τ υ := by
  have hs := Sub.refl 0x10000000000000000000000000000000000000000000000000000000000000c00000000000000
  refine onPowered_foot h (fun hk => ?_)
  repeat' with_reducible (first
    | assumption | (intro _ _ _) | refine dataBlock_foot (hs.sub (by decide)) ?_ | apply ite_foot | dsimp only)

theorem execFrameReceive_foot {p : Nat} {dst : Option Nat} (h : execFrameReceive p dst τ = .next υ) : Foot 0x1760000000000000000000000000064000006fa600000000000000000000500c00000000000000 τ υ := by
  have hs := Sub.refl 0x1760000000000000000000000000064000006fa600000000000000000000500c00000000000000
  refine onActive_foot h (fun hk => ?_)
  repeat' with_reducible (first
    | assumption | (intro _ _ _) | refine frameReceive_foot (hs.sub (by decide)) ?_ | apply ite_foot | dsimp only)

theorem execControlBlock_foot {p : Nat} {data : List Byte} {uncorr : Bool} (h : execControlBlock p data uncorr τ = .next υ) : Foot 0x10000000000000000000000000000000000000000000000000000000000000400000000000000 τ υ := by
  have hs := Sub.refl 0x10000000000000000000000000000000000000000000000000000000000000400000000000000
  refine onPowered_foot h (fun hk => ?_)
  repeat' with_reducible (first
    | assumption | (intro _ _ _) | refine controlBlock_foot (hs.sub (by decide)) ?_ | apply ite_foot | dsimp only)

theorem execFlowBlock_foot {p : Nat} (h : execFlowBlock p τ = .next υ) : Foot 0x50000000000000000000000000002c01090000040000000000000000000100800000000000000 τ υ := by
  have hs := Sub.refl 0x50000000000000000000000000002c01090000040000000000000000000100800000000000000
  refine onActive_foot h (fun hk => ?_)
  repeat' with_reducible (first
    | assumption | (intro _ _ _) | refine flowBlock_foot (hs.sub (by decide)) ?_ | apply ite_foot | dsimp only)

theorem execXoffStateChange_foot {p : Nat} (h : execXoffStateChange p τ = .next υ) : Foot 0x10000000000000000000000000000000000000000000000000000000000000800000000000000 τ υ := by
  have hs := Sub.refl 0x10000000000000000000000000000000000000000000000000000000000000800000000000000
  refine onActive_foot h (fun hk => ?_)
  repeat' with_reducible (first
    | assumption | (intro _ _ _) | refine syncXoff_foot (hs.sub (by decide)) ?_ | apply ite_foot | dsimp only)

theorem execFlowSend_foot {p : Nat} (h : execFlowSend p τ = .next υ) : Foot 0x10000000000000000000000000000000000000000000000000000000000000000000000000000 τ υ := by
  have hs := Sub.refl 0x10000000000000000000000000000000000000000000000000000000000000000000000000000
  refine onActive_foot h (fun hk => ?_)
  repeat' with_reducible (first
    | assumption | (intro _ _ _) | refine flowSend_foot (hs.sub (by decide)) ?_ | apply ite_foot | dsimp only)

theorem execFcStall_foot {p : Nat} {v : Nat} (h : execFcStall p v τ = .next υ) : Foot 0x16000000000000000000000000000000000000000000000000000000000000800000000000000 τ υ := by
  have hs := Sub.refl 0x16000000000000000000000000000000000000000000000000000000000000800000000000000
  refine onActive_foot h (fun hk => ?_)
  repeat' with_reducible (first
    | assumption | (intro _ _ _) | refine fcStall_foot (hs.sub (by decide)) ?_ | apply ite_foot | dsimp only)

theorem execFecTrendSecond_foot (h : execFecTrendSecond τ = .next υ) : Foot 0x16000000000000000000000000000000000000000000000000000000000008000000000000000 τ υ := by
  have hs := Sub.refl 0x16000000000000000000000000000000000000000000000000000000000008000000000000000
  refine onPowered_foot h (fun hk => ?_)
  repeat' with_reducible (first
    | assumption | (intro _ _ _) | refine fecSecond_foot (hs.sub (by decide)) ?_ | apply ite_foot | dsimp only)

theorem execPrbsCheckerLock_foot {p : Nat} {k : Nat} {levels : List Nat} (h : execPrbsCheckerLock p k levels τ = .next υ) : Foot 0x50000000000000000000000000000000000000000000000000000000000040000000000000000 τ υ := by
  have hs := Sub.refl 0x50000000000000000000000000000000000000000000000000000000000040000000000000000
  refine onPowered_foot h (fun hk => ?_)
  repeat' with_reducible (first
    | assumption | (intro _ _ _) | refine testSymbols_foot (hs.sub (by decide)) ?_ | apply ite_foot | dsimp only)

theorem execMbxCommandIssue_foot {value : Nat} {delay : Nat} (h : execMbxCommandIssue value delay τ = .next υ) : Foot 0x917f0000000000fffffffffffffffffffffffffffffffffffffffffffffffffffffffffffffffff τ υ := by
  have hs := Sub.refl 0x917f0000000000fffffffffffffffffffffffffffffffffffffffffffffffffffffffffffffffff
  refine onActive_foot h (fun hk => ?_)
  repeat' with_reducible (first
    | assumption | (intro _ _ _) | refine mailbox_foot (hs.sub (by decide)) ?_ | refine setHeld_foot (hs.sub (by decide)) ?_ | apply ite_foot | dsimp only)

theorem execPlanLoad_foot {slot : Nat} {image : PlanFetch} (h : execPlanLoad slot image τ = .next υ) : Foot 0x117e0000000000fffffffffffffffffffffffffffffffffffffffffffffffffffffffffffffffff τ υ := by
  have hs := Sub.refl 0x117e0000000000fffffffffffffffffffffffffffffffffffffffffffffffffffffffffffffffff
  refine onActive_foot h (fun hk => ?_)
  repeat' with_reducible (first
    | assumption | (intro _ _ _) | refine planLoad_foot (hs.sub (by decide)) ?_ | apply ite_foot | dsimp only)

theorem execPlanCheck_foot (h : execPlanCheck τ = .next υ) : Foot 0x1d7e0000000000fffffffffffffffffffffffffffffffffffffffffffffffffffffffffffffffff τ υ := by
  have hs := Sub.refl 0x1d7e0000000000fffffffffffffffffffffffffffffffffffffffffffffffffffffffffffffffff
  refine onActive_foot h (fun hk => ?_)
  repeat' with_reducible (first
    | assumption | (intro _ _ _) | refine planCheck_foot (hs.sub (by decide)) ?_ | apply ite_foot | dsimp only)

theorem execPlanAcceptDegraded_foot {slot : Nat} (h : execPlanAcceptDegraded slot τ = .next υ) : Foot 0x1d68000000000080882180138000d0000000c0426020040000000304c4000000200400000000000 τ υ := by
  have hs := Sub.refl 0x1d68000000000080882180138000d0000000c0426020040000000304c4000000200400000000000
  refine onActive_foot h (fun hk => ?_)
  repeat' with_reducible (first
    | assumption | (intro _ _ _) | refine planAcceptDegraded_foot (hs.sub (by decide)) ?_ | apply ite_foot | dsimp only)

theorem execPlanRetire_foot {slot : Nat} (h : execPlanRetire slot τ = .next υ) : Foot 0x17ee00000000008180028010c000d701090046fa6c0644000907ff00e4a00000200400000000000 τ υ := by
  have hs := Sub.refl 0x17ee00000000008180028010c000d701090046fa6c0644000907ff00e4a00000200400000000000
  refine onActive_foot h (fun hk => ?_)
  repeat' with_reducible (first
    | assumption | (intro _ _ _) | refine planRetire_foot (hs.sub (by decide)) ?_ | refine settleAll_foot (hs.sub (by decide)) ?_ | apply ite_foot | dsimp only)

theorem execPlanRetired_foot (h : execPlanRetired τ = .next υ) : Foot 0x17ee00000000008180028010c000d701090046fa6c0644000907ff00e4a00000200400000000000 τ υ := by
  have hs := Sub.refl 0x17ee00000000008180028010c000d701090046fa6c0644000907ff00e4a00000200400000000000
  refine onActive_foot h (fun hk => ?_)
  repeat' with_reducible (first
    | assumption | (intro _ _ _) | refine planRetired_foot (hs.sub (by decide)) ?_ | apply ite_foot | dsimp only)

theorem execRemap_foot {slot : Nat} (h : execRemap slot τ = .next υ) : Foot 0x117e000000000081800000000000002c01097d7a640000000000000044a00100200400000000000 τ υ := by
  have hs := Sub.refl 0x117e000000000081800000000000002c01097d7a640000000000000044a00100200400000000000
  refine onActive_foot h (fun hk => ?_)
  repeat' with_reducible (first
    | assumption | (intro _ _ _) | refine remap_foot (hs.sub (by decide)) ?_ | apply ite_foot | dsimp only)

theorem execMemberReplace_foot {slot : Nat} (h : execMemberReplace slot τ = .next υ) : Foot 0x117e0000000000fffffffffffffffffffffffffffffffffffffffffffffffffffffffffffffffff τ υ := by
  have hs := Sub.refl 0x117e0000000000fffffffffffffffffffffffffffffffffffffffffffffffffffffffffffffffff
  refine onActive_foot h (fun hk => ?_)
  repeat' with_reducible (first
    | assumption | (intro _ _ _) | refine memberReplace_foot (hs.sub (by decide)) ?_ | refine replaceDecided_foot (hs.sub (by decide)) ?_ | apply ite_foot | dsimp only)

theorem execMemberReplaceTimeout_foot {slot : Nat} (h : execMemberReplaceTimeout slot τ = .next υ) : Foot 0x1000000000000080800000000000000000000000000000000000000000000000000000000000000 τ υ := by
  have hs := Sub.refl 0x1000000000000080800000000000000000000000000000000000000000000000000000000000000
  refine onActive_foot h (fun hk => ?_)
  repeat' with_reducible (first
    | assumption | (intro _ _ _) | refine replaceTimeout_foot (hs.sub (by decide)) ?_ | apply ite_foot | dsimp only)

theorem execMemRead_foot {slot : Nat} {units : Nat} {fail : Option MemFail} (h : execMemRead slot units fail τ = .next υ) : Foot 0x182600000000008588380000000000000000007a680000000000000000000000000000000000000 τ υ := by
  have hs := Sub.refl 0x182600000000008588380000000000000000007a680000000000000000000000000000000000000
  refine onActive_foot h (fun hk => ?_)
  repeat' with_reducible (first
    | assumption | (intro _ _ _) | refine memRead_foot (hs.sub (by decide)) ?_ | apply ite_foot | dsimp only)

theorem execMemWrite_foot {slot : Nat} {data : List (List Byte)} {fail : Option MemFail} (h : execMemWrite slot data fail τ = .next υ) : Foot 0x182600000000008588380000000000000000007a680000000000000000000000000000000000000 τ υ := by
  have hs := Sub.refl 0x182600000000008588380000000000000000007a680000000000000000000000000000000000000
  refine onActive_foot h (fun hk => ?_)
  repeat' with_reducible (first
    | assumption | (intro _ _ _) | refine memWrite_foot (hs.sub (by decide)) ?_ | apply ite_foot | dsimp only)

theorem execAttest_foot {slot : Nat} {dma : Bool} (h : execAttest slot dma τ = .next υ) : Foot 0x1000000000000085800000000000000000000000000000000000000000000000000000000000000 τ υ := by
  have hs := Sub.refl 0x1000000000000085800000000000000000000000000000000000000000000000000000000000000
  refine onActive_foot h (fun hk => ?_)
  repeat' with_reducible (first
    | assumption | (intro _ _ _) | refine attest_foot (hs.sub (by decide)) ?_ | apply ite_foot | dsimp only)

theorem execIdentRead_foot {slot : Nat} {dma : Bool} (h : execIdentRead slot dma τ = .next υ) : Foot 0x1000000000000085800000000000000000000000000000000000000000000000000000000000000 τ υ := by
  have hs := Sub.refl 0x1000000000000085800000000000000000000000000000000000000000000000000000000000000
  refine onActive_foot h (fun hk => ?_)
  repeat' with_reducible (first
    | assumption | (intro _ _ _) | refine identRead_foot (hs.sub (by decide)) ?_ | apply ite_foot | dsimp only)

theorem execImageWrite_foot {slot : Nat} {data : List Byte} {signed : Bool} (h : execImageWrite slot data signed τ = .next υ) : Foot 0xd000000000000085800000000000000000000000000000000000000000000000000000000000000 τ υ := by
  have hs := Sub.refl 0xd000000000000085800000000000000000000000000000000000000000000000000000000000000
  refine onActive_foot h (fun hk => ?_)
  repeat' with_reducible (first
    | assumption | (intro _ _ _) | refine imageWrite_foot (hs.sub (by decide)) ?_ | apply ite_foot | dsimp only)

theorem execSvnCommit_foot {slot : Nat} (h : execSvnCommit slot τ = .next υ) : Foot 0x9000000000000080800000000000000000000000000000000000000000000000000000000200000 τ υ := by
  have hs := Sub.refl 0x9000000000000080800000000000000000000000000000000000000000000000000000000200000
  refine onActive_foot h (fun hk => ?_)
  repeat' with_reducible (first
    | assumption | (intro _ _ _) | refine svnCommit_foot (hs.sub (by decide)) ?_ | apply ite_foot | dsimp only)

theorem execDebugTokenSet_foot {slot : Nat} (h : execDebugTokenSet slot τ = .next υ) : Foot 0x9000000000000080800000000000000000000000000000000000000000000000000000002000000 τ υ := by
  have hs := Sub.refl 0x9000000000000080800000000000000000000000000000000000000000000000000000002000000
  refine onActive_foot h (fun hk => ?_)
  repeat' with_reducible (first
    | assumption | (intro _ _ _) | refine tokenSet_foot (hs.sub (by decide)) ?_ | apply ite_foot | dsimp only)

theorem execMbxAbort_foot {slot : Nat} {tag : Nat} (h : execMbxAbort slot tag τ = .next υ) : Foot 0x917f0000000000fffffffffffffffffffffffffffffffffffffffffffffffffffffffffffffffff τ υ := by
  have hs := Sub.refl 0x917f0000000000fffffffffffffffffffffffffffffffffffffffffffffffffffffffffffffffff
  refine onActive_foot h (fun hk => ?_)
  repeat' with_reducible (first
    | assumption | (intro _ _ _) | refine mailbox_foot (hs.sub (by decide)) ?_ | refine setHeld_foot (hs.sub (by decide)) ?_ | apply ite_foot | dsimp only)

theorem execLongOperationEnd_foot {slot : Nat} {failure : Option (Nat × Nat)} (h : execLongOperationEnd slot failure τ = .next υ) : Foot 0x117e0000000000fffffffffffffffffffffffffffffffffffffffffffffffffffffffffffffffff τ υ := by
  have hs := Sub.refl 0x117e0000000000fffffffffffffffffffffffffffffffffffffffffffffffffffffffffffffffff
  refine onActive_foot h (fun hk => ?_)
  repeat' with_reducible (first
    | assumption | (intro _ _ _) | refine longEnd_foot (hs.sub (by decide)) ?_ | apply ite_foot | dsimp only)

theorem execHostLinkDown_foot {flr : Bool} (h : execHostLinkDown flr τ = .next υ) : Foot 0x117e0000000000fffffffffffffffffffffffffffffffffffffffffffffffffffffffffffffffff τ υ := by
  have hs := Sub.refl 0x117e0000000000fffffffffffffffffffffffffffffffffffffffffffffffffffffffffffffffff
  refine onPowered_foot h (fun hk => ?_)
  repeat' with_reducible (first
    | assumption | (intro _ _ _) | refine hostLinkDown_foot (hs.sub (by decide)) ?_ | apply ite_foot | dsimp only)

theorem execGddrCrcRetry_foot {ch : Nat} {retries : Nat} {corrected : Nat} {lost : Option Nat} (h : execGddrCrcRetry ch retries corrected lost τ = .next υ) : Foot 0x406000000000000001c00000000000000000000000000000000000000000000000000000000000 τ υ := by
  have hs := Sub.refl 0x406000000000000001c00000000000000000000000000000000000000000000000000000000000
  refine onPowered_foot h (fun hk => ?_)
  repeat' with_reducible (first
    | assumption | (intro _ _ _) | refine crcRetry_foot (hs.sub (by decide)) ?_ | refine incCorr_foot (hs.bit (by decide)) (hs.bit (by decide)) ?_ | apply ite_foot | dsimp only)

theorem execGddrChannelFail_foot {ch : Nat} (h : execGddrChannelFail ch τ = .next υ) : Foot 0x200800000000000000040000000000000000000000000000000000000000000000040000000001c τ υ := by
  have hs := Sub.refl 0x200800000000000000040000000000000000000000000000000000000000000000040000000001c
  refine onPowered_foot h (fun hk => ?_)
  repeat' with_reducible (first
    | assumption | (intro _ _ _) | refine channelFail_foot (hs.sub (by decide)) ?_ | apply ite_foot | dsimp only)

theorem execCxlLinkDown_foot {i : Nat} (h : execCxlLinkDown i τ = .next υ) : Foot 0x1006000000000081820000000000000000000000000000000000000000000000000000100000000 τ υ := by
  have hs := Sub.refl 0x1006000000000081820000000000000000000000000000000000000000000000000000100000000
  refine onPowered_foot h (fun hk => ?_)
  repeat' with_reducible (first
    | assumption | (intro _ _ _) | refine cxlDown_foot (hs.sub (by decide)) ?_ | apply ite_foot | dsimp only)

theorem execCxlLinkUp_foot {i : Nat} {speed : Nat} {width : Nat} {capacity : Nat} (h : execCxlLinkUp i speed width capacity τ = .next υ) : Foot 0x6000000000000060000000000000000000000000000000000000000000000000000100000000 τ υ := by
  have hs := Sub.refl 0x6000000000000060000000000000000000000000000000000000000000000000000100000000
  refine onPowered_foot h (fun hk => ?_)
  repeat' with_reducible (first
    | assumption | (intro _ _ _) | refine cxlUpNow_foot (hs.sub (by decide)) ?_ | apply ite_foot | dsimp only)

theorem execHostLinkUp_foot {speed : Nat} {width : Nat} (h : execHostLinkUp speed width τ = .next υ) : Foot 0x2000000000000000000000000000000000000000000000000000000000000000 τ υ := by
  have hs := Sub.refl 0x2000000000000000000000000000000000000000000000000000000000000000
  refine onPowered_foot h (fun hk => ?_)
  repeat' with_reducible (first
    | assumption | (intro _ _ _) | refine hostUp_foot (hs.sub (by decide)) ?_ | apply ite_foot | dsimp only)

theorem execMgtRead_foot {src : Nat} {seq : Nat} {addr : Nat} {count : Nat} {timeout : Bool} (h : execMgtRead src seq addr count timeout τ = .next υ) : Foot 0x80070000000000020a2e8000307f0349e80f16d04d8980aad565700020080467d10424290001da0 τ υ := by
  have hs := Sub.refl 0x80070000000000020a2e8000307f0349e80f16d04d8980aad565700020080467d10424290001da0
  refine onPowered_foot h (fun hk => ?_)
  repeat' with_reducible (first
    | assumption | (intro _ _ _) | refine mgtReadOp_foot (hs.sub (by decide)) ?_ | apply ite_foot | dsimp only)

theorem execMgtWrite_foot {src : Nat} {seq : Nat} {addr : Nat} {count : Nat} {value : Nat} {timeout : Bool} (h : execMgtWrite src seq addr count value timeout τ = .next υ) : Foot 0xb7ff0000000000fffffffffffffffffffffffffffffffffffffffffffffffffffffffffffffffff τ υ := by
  have hs := Sub.refl 0xb7ff0000000000fffffffffffffffffffffffffffffffffffffffffffffffffffffffffffffffff
  refine onPowered_foot h (fun hk => ?_)
  repeat' with_reducible (first
    | assumption | (intro _ _ _) | refine mgtWriteOp_foot (hs.sub (by decide)) ?_ | apply ite_foot | dsimp only)

theorem execMgtReset_foot {src : Nat} {seq : Nat} (h : execMgtReset src seq τ = .next υ) : Foot 0xffff0000000000fffffffffffffffffffffffffffffffffffffffffffffffffffffffffffffffff τ υ := by
  have hs := Sub.refl 0xffff0000000000fffffffffffffffffffffffffffffffffffffffffffffffffffffffffffffffff
  refine onPowered_foot h (fun hk => ?_)
  repeat' with_reducible (first
    | assumption | (intro _ _ _) | refine mgtResetOp_foot (hs.sub (by decide)) ?_ | apply ite_foot | dsimp only)

theorem execDebugOpen_foot {src : Nat} {seq : Nat} {token : List Byte} {locking : Bool} {fail : Option EraseFail} (h : execDebugOpen src seq token locking fail τ = .next υ) : Foot 0x880e000000000000000000030000000000000000000000000000000000000000000400092000000 τ υ := by
  have hs := Sub.refl 0x880e000000000000000000030000000000000000000000000000000000000000000400092000000
  refine onPowered_foot h (fun hk => ?_)
  repeat' with_reducible (first
    | assumption | (intro _ _ _) | refine debugOpen_foot (hs.sub (by decide)) ?_ | refine debugOpen_foot_eq (hs.sub (by decide)) ‹_› ?_ | refine mgtDebugOp_foot (hs.sub (by decide)) ?_ | apply ite_foot
    | dsimp only)

theorem execMgtFrameIgnored_foot {cause : MgtIgnored} (h : execMgtFrameIgnored cause τ = .next υ) : Foot 0x8000000000000000000000000000000000000000000000000000000000000000000000080000000 τ υ := by
  have hs := Sub.refl 0x8000000000000000000000000000000000000000000000000000000000000000000000080000000
  refine onPowered_foot h (fun hk => ?_)
  repeat' with_reducible (first
    | assumption | (intro _ _ _) | refine mgtIgnore_foot (hs.sub (by decide)) ?_ | apply ite_foot | dsimp only)

theorem execMgtDuplicate_foot {src : Nat} {seq : Nat} (h : execMgtDuplicate src seq τ = .next υ) : Foot 0x80000000 τ υ := by
  have hs := Sub.refl 0x80000000
  refine onPowered_foot h (fun hk => ?_)
  repeat' with_reducible (first
    | assumption | (intro _ _ _) | refine mgtDuplicate_foot (hs.sub (by decide)) ?_ | apply ite_foot | dsimp only)

theorem execDescriptorArrival_foot (h : execDescriptorArrival τ = .next υ) : Foot 0x7e600000000000000028010c0009701090006fa6c0604000907ff0020000000000000000000000 τ υ := by
  have hs := Sub.refl 0x7e600000000000000028010c0009701090006fa6c0604000907ff0020000000000000000000000
  refine onActive_foot h (fun hk => ?_)
  repeat' with_reducible (first
    | assumption | (intro _ _ _) | refine descriptorArrival_foot (hs.sub (by decide)) ?_ | apply ite_foot | dsimp only)

theorem execSwatchAccept_foot (h : execSwatchAccept τ = .next υ) : Foot 0x7e600000000000000028010c0009701090006fa6c0604000907ff0020000000000000000000000 τ υ := by
  have hs := Sub.refl 0x7e600000000000000028010c0009701090006fa6c0604000907ff0020000000000000000000000
  refine onActive_foot h (fun hk => ?_)
  repeat' with_reducible (first
    | assumption | (intro _ _ _) | refine swatchAccept_foot (hs.sub (by decide)) ?_ | apply ite_foot | dsimp only)

theorem execProgressTimeout_foot {x : Nat} (h : execProgressTimeout x τ = .next υ) : Foot 0x7e600000000000000028010c0009701090006fa6c0604000907ff0020000000000000000000000 τ υ := by
  have hs := Sub.refl 0x7e600000000000000028010c0009701090006fa6c0604000907ff0020000000000000000000000
  refine onActive_foot h (fun hk => ?_)
  repeat' with_reducible (first
    | assumption | (intro _ _ _) | refine progressTimeout_foot (hs.sub (by decide)) ?_ | apply ite_foot | dsimp only)

theorem execAbortSwatch_foot (h : execAbortSwatch τ = .next υ) : Foot 0x7e600000000000000028010c0009701090006fa6c0604000907ff0020000000000000000000000 τ υ := by
  have hs := Sub.refl 0x7e600000000000000028010c0009701090006fa6c0604000907ff0020000000000000000000000
  refine onActive_foot h (fun hk => ?_)
  repeat' with_reducible (first
    | assumption | (intro _ _ _) | refine abortSwatch_foot (hs.sub (by decide)) ?_ | apply ite_foot | dsimp only)

theorem execExchangePlacement_foot {x : Nat} (h : execExchangePlacement x τ = .next υ) : Foot 0x7e600000000000000028010c0009701090006fa6c06040009e7ff0020000000000000000000000 τ υ := by
  have hs := Sub.refl 0x7e600000000000000028010c0009701090006fa6c06040009e7ff0020000000000000000000000
  refine onActive_foot h (fun hk => ?_)
  repeat' with_reducible (first
    | assumption | (intro _ _ _) | refine exchangePlacement_foot (hs.sub (by decide)) ?_ | refine settleAll_foot (hs.sub (by decide)) ?_ | apply ite_foot | dsimp only)

theorem execExchangeSwatchAssemble_foot {x : Nat} {d : Nat} {k : Nat} (h : execExchangeSwatchAssemble x d k τ = .next υ) : Foot 0x7e600000000000000028010c0009701090006fa6c0604000907ff0020000000000000000000000 τ υ := by
  have hs := Sub.refl 0x7e600000000000000028010c0009701090006fa6c0604000907ff0020000000000000000000000
  refine onActive_foot h (fun hk => ?_)
  repeat' with_reducible (first
    | assumption | (intro _ _ _) | refine exchangeAssemble_foot (hs.sub (by decide)) ?_ | refine settleAll_foot (hs.sub (by decide)) ?_ | apply ite_foot | dsimp only)

theorem execHostAbort_foot {value : Nat} (h : execHostAbort value τ = .next υ) : Foot 0x7e700000000000000028010c0009701090006fa6c0604000907ff0020000000000000000000000 τ υ := by
  have hs := Sub.refl 0x7e700000000000000028010c0009701090006fa6c0604000907ff0020000000000000000000000
  refine onPowered_foot_wf h (fun hw hk => ?_)
  exact regWrite_OPC_ABORT_foot hs (by decide) (by decide) hk

theorem execFenceWrite_foot {i : Nat} {value : Nat} (h : execFenceWrite i value τ = .next υ) : Foot 0x7f700000000000000028010c000972d09091ffa6c0604000907ff0064000100000000000000000 τ υ := by
  have hs := Sub.refl 0x7f700000000000000028010c000972d09091ffa6c0604000907ff0064000100000000000000000
  refine onPowered_foot_wf h (fun hw hk => ?_)
  have hw := (by simpa [Instr.wf] using hw)
  exact regWrite_INS_FENCE_foot hs (by first | exact hw | exact hw.1) (by decide) hk

theorem execQueuePurge_foot {p : Nat} (h : execQueuePurge p τ = .next υ) : Foot 0x7e600000000000000028010c0009701090016fa6c0604000907ff0020000000000000000000000 τ υ := by
  have hs := Sub.refl 0x7e600000000000000028010c0009701090016fa6c0604000907ff0020000000000000000000000
  refine onActive_foot h (fun hk => ?_)
  repeat' with_reducible (first
    | assumption | (intro _ _ _) | apply mark_foot | refine purgeOne_foot (hs.sub (by decide)) ?_ | refine settleAll_foot (hs.sub (by decide)) ?_ | apply ite_foot
    | split | dsimp only)

theorem execLiveChangeGo_foot {value : Nat} (h : execLiveChangeGo value τ = .next υ) : Foot 0x41000000000000000000000000000008000000000000000000000000000000000000000000000 τ υ := by
  have hs := Sub.refl 0x41000000000000000000000000000008000000000000000000000000000000000000000000000
  refine onPowered_foot_wf h (fun hw hk => ?_)
  exact regWrite_SCH_CHG_foot hs (by decide) (by decide) hk

theorem execLiveChangeDrained_foot (h : execLiveChangeDrained τ = .next υ) : Foot 0x40000000000000000000000000000008000000000000000000000000000000000000000000000 τ υ := by
  have hs := Sub.refl 0x40000000000000000000000000000008000000000000000000000000000000000000000000000
  refine onActive_foot h (fun hk => ?_)
  repeat' with_reducible (first
    | assumption | (intro _ _ _) | refine changeSwitching_foot (hs.sub (by decide)) ?_ | apply ite_foot | dsimp only)

theorem execLiveChangeTimeout_foot (h : execLiveChangeTimeout τ = .next υ) : Foot 0x7e600000000000000028010c0009701090006fa6c0604000907ff0020000000000000000000000 τ υ := by
  have hs := Sub.refl 0x7e600000000000000028010c0009701090006fa6c0604000907ff0020000000000000000000000
  refine onActive_foot h (fun hk => ?_)
  repeat' with_reducible (first
    | assumption | (intro _ _ _) | refine changeTimeout_foot (hs.sub (by decide)) ?_ | refine settleAll_foot (hs.sub (by decide)) ?_ | apply ite_foot | dsimp only)

theorem execShaperCfgWrite_foot {p : Nat} {v : Nat} {value : Nat} (h : execShaperCfgWrite p v value τ = .next υ) : Foot 0x81000000000000000000000000002400000000000000000000000000000000000000000000000 τ υ := by
  have hs := Sub.refl 0x81000000000000000000000000002400000000000000000000000000000000000000000000000
  refine onPowered_foot_wf h (fun hw hk => ?_)
  have hw := (by simpa [Instr.wf] using hw)
  exact regWrite_SHP_SHAPE_CFG_foot hs (by first | exact hw | exact hw.1) (by exact hw.2) hk

theorem execPolicerCfgWrite_foot {p : Nat} {v : Nat} {value : Nat} (h : execPolicerCfgWrite p v value τ = .next υ) : Foot 0x81000000000000000000000000002400000000000000000000000000000000000000000000000 τ υ := by
  have hs := Sub.refl 0x81000000000000000000000000002400000000000000000000000000000000000000000000000
  refine onPowered_foot_wf h (fun hw hk => ?_)
  have hw := (by simpa [Instr.wf] using hw)
  exact regWrite_SHP_POL_CFG_foot hs (by first | exact hw | exact hw.1) (by exact hw.2) hk

theorem execMirrorCfgWrite_foot {m : Nat} {value : Nat} (h : execMirrorCfgWrite m value τ = .next υ) : Foot 0x81000000000000000000000000008000000000000000000000000000000000000000000000000 τ υ := by
  have hs := Sub.refl 0x81000000000000000000000000008000000000000000000000000000000000000000000000000
  refine onPowered_foot_wf h (fun hw hk => ?_)
  have hw := (by simpa [Instr.wf] using hw)
  exact regWrite_SHP_MIR_CFG_foot hs (by first | exact hw | exact hw.1) (by decide) hk

theorem execPrbsGeneratorSelect_foot {p : Nat} {value : Nat} (h : execPrbsGeneratorSelect p value τ = .next υ) : Foot 0x17f000000000001000000000000002c01091d7a640000000000000044a00170b00400000000000 τ υ := by
  have hs := Sub.refl 0x17f000000000001000000000000002c01091d7a640000000000000044a00170b00400000000000
  refine onPowered_foot_wf h (fun hw hk => ?_)
  have hw := (by simpa [Instr.wf] using hw)
  exact regWrite_PRT_TEST_foot hs (by first | exact hw | exact hw.1) (by decide) hk

theorem execPrbsCheckerSelect_foot {p : Nat} {value : Nat} (h : execPrbsCheckerSelect p value τ = .next υ) : Foot 0x17f000000000001000000000000002c01091d7a640000000000000044a00170b00400000000000 τ υ := by
  have hs := Sub.refl 0x17f000000000001000000000000002c01091d7a640000000000000044a00170b00400000000000
  refine onPowered_foot_wf h (fun hw hk => ?_)
  have hw := (by simpa [Instr.wf] using hw)
  exact regWrite_PRT_TEST_foot hs (by first | exact hw | exact hw.1) (by decide) hk

theorem execLoopbackSelect_foot {p : Nat} {value : Nat} (h : execLoopbackSelect p value τ = .next υ) : Foot 0x17f000000000001000000000000002c01091d7a640000000000000044a00170b00400000000000 τ υ := by
  have hs := Sub.refl 0x17f000000000001000000000000002c01091d7a640000000000000044a00170b00400000000000
  refine onPowered_foot_wf h (fun hw hk => ?_)
  have hw := (by simpa [Instr.wf] using hw)
  exact regWrite_PRT_TEST_foot hs (by first | exact hw | exact hw.1) (by decide) hk

theorem execTestEnd_foot {p : Nat} (h : execTestEnd p τ = .next υ) : Foot 0x17f000000000001000000000000002c01091d7a640000000000000044a00170b00400000000000 τ υ := by
  have hs := Sub.refl 0x17f000000000001000000000000002c01091d7a640000000000000044a00170b00400000000000
  refine onPowered_foot_wf h (fun hw hk => ?_)
  have hw := (by simpa [Instr.wf] using hw)
  exact regWrite_PRT_TEST_foot hs (by first | exact hw | exact hw.1) (by decide) hk

theorem execPortEnableWrite_foot {p : Nat} {value : Nat} (h : execPortEnableWrite p value τ = .next υ) : Foot 0x17f000000000001000000000000002c01095d7a640000000000000044a00100b80400000000180 τ υ := by
  have hs := Sub.refl 0x17f000000000001000000000000002c01095d7a640000000000000044a00100b80400000000180
  refine onPowered_foot_wf h (fun hw hk => ?_)
  have hw := (by simpa [Instr.wf] using hw)
  exact regWrite_PRT_LINK_CFG_foot hs (by first | exact hw | exact hw.1) (by decide) hk

theorem execRateChange_foot {p : Nat} {value : Nat} (h : execRateChange p value τ = .next υ) : Foot 0x17f000000000001000000000000002c01095d7a640000000000000044a00100b80400000000180 τ υ := by
  have hs := Sub.refl 0x17f000000000001000000000000002c01095d7a640000000000000044a00100b80400000000180
  refine onPowered_foot_wf h (fun hw hk => ?_)
  have hw := (by simpa [Instr.wf] using hw)
  exact regWrite_PRT_LINK_CFG_foot hs (by first | exact hw | exact hw.1) (by decide) hk

theorem execLaserEnableWrite_foot {e : Nat} {value : Nat} (h : execLaserEnableWrite e value τ = .next υ) : Foot 0x17f000000000001000000000000002c01091d7a640000000000000044a09100b00400000000000 τ υ := by
  have hs := Sub.refl 0x17f000000000001000000000000002c01091d7a640000000000000044a09100b00400000000000
  refine onPowered_foot_wf h (fun hw hk => ?_)
  have hw := (by simpa [Instr.wf] using hw)
  exact regWrite_PRT_LSM_CTL_foot hs (by first | exact hw | exact hw.1) (by decide) hk

theorem execTimeNowWrite_foot {ns : Nat} (h : execTimeNowWrite ns τ = .next υ) : Foot 0x11000000000000000000000000000000000000000000000000000000040000000000000000000 τ υ := by
  have hs := Sub.refl 0x11000000000000000000000000000000000000000000000000000000040000000000000000000
  refine onPowered_foot_wf h (fun hw hk => ?_)
  exact regWrite_PRT_TIME_NOW_foot hs (by decide) (by decide) hk

theorem execFaultClear_foot {src : Nat} {raised : Bool} (h : execFaultClear src raised τ = .next υ) : Foot 0x5000000000000000000000000000000000000000000000000000000000000000007100000000 τ υ := by
  have hs := Sub.refl 0x5000000000000000000000000000000000000000000000000000000000000000007100000000
  refine onActive_foot h (fun hk => ?_)
  repeat' with_reducible (first
    | assumption | (intro _ _ _) | refine clearPending_foot (hs.sub (by decide)) ?_ | refine setHeld_foot (hs.sub (by decide)) ?_ | apply ite_foot | split
    | dsimp only)

theorem execMgtFaultClear_foot {src : Nat} {force : Bool} {raised : Bool} (h : execMgtFaultClear src force raised τ = .next υ) : Foot 0x5000000000000000000000000000000000000000000000000000000000000000017100000000 τ υ := by
  have hs := Sub.refl 0x5000000000000000000000000000000000000000000000000000000000000000017100000000
  refine onActive_foot h (fun hk => ?_)
  repeat' with_reducible (first
    | assumption | (intro _ _ _) | refine mgtClear_foot (hs.sub (by decide)) ?_ | apply ite_foot | dsimp only)

theorem execFaultPinForce_foot {force : Bool} (h : execFaultPinForce force τ = .next υ) : Foot 0x5000000000000000000000000000000000000000000000000000000000000000017100000000 τ υ := by
  have hs := Sub.refl 0x5000000000000000000000000000000000000000000000000000000000000000017100000000
  refine onPowered_foot_wf h (fun hw hk => ?_)
  exact regWrite_FLT_MGT_foot hs (by decide) (by decide) hk

theorem execFaultInject_foot {src : Nat} (h : execFaultInject src τ = .next υ) : Foot 0x17f000000000000000000000000002c01091d7a640000000000000044000100000427700000000 τ υ := by
  have hs := Sub.refl 0x17f000000000000000000000000002c01091d7a640000000000000044000100000427700000000
  refine onPowered_foot_wf h (fun hw hk => ?_)
  have hw := (by simpa [Instr.wf] using hw)
  exact regWrite_FLT_INJECT_foot hs (by decide) (by decide) hk

theorem execSafeStateSelfTest_foot (h : execSafeStateSelfTest τ = .next υ) : Foot 0x17f000000000000000000000000002c01091d7a640000000000000044000100000427700000000 τ υ := by
  have hs := Sub.refl 0x17f000000000000000000000000002c01091d7a640000000000000044000100000427700000000
  refine onPowered_foot_wf h (fun hw hk => ?_)
  exact regWrite_FLT_INJECT_foot hs (by decide) (by decide) hk

theorem execFaultCfgWrite_foot {src : Nat} {value : Nat} (h : execFaultCfgWrite src value τ = .next υ) : Foot 0x5000000000000000000000000000000000000000000000000000000000000000007800000000 τ υ := by
  have hs := Sub.refl 0x5000000000000000000000000000000000000000000000000000000000000000007800000000
  refine onPowered_foot_wf h (fun hw hk => ?_)
  have hw := (by simpa [Instr.wf] using hw)
  exact regWrite_FLT_SRC_CFG_foot hs (by first | exact hw | exact hw.1) (by decide) hk

theorem execSoftwareTrigger_foot {arg : Nat} (h : execSoftwareTrigger arg τ = .next υ) : Foot 0x9000000000000000000000000000000000000000000000000000000000000000400000000000 τ υ := by
  have hs := Sub.refl 0x9000000000000000000000000000000000000000000000000000000000000000400000000000
  refine onPowered_foot_wf h (fun hw hk => ?_)
  exact regWrite_EVR_TRIGGER_foot hs (by decide) (by decide) hk

theorem execRingRecordSelect_foot {seq : Nat} (h : execRingRecordSelect seq τ = .next υ) : Foot 0x900000000000000000000000000000000000000000000000000000000000000c000000000000 τ υ := by
  have hs := Sub.refl 0x900000000000000000000000000000000000000000000000000000000000000c000000000000
  refine onPowered_foot_wf h (fun hw hk => ?_)
  exact regWrite_EVR_RING_SEL_foot hs (by decide) (by decide) hk

theorem execDomainOffWrite_foot {host : Bool} {i : Nat} {value : Nat} (h : execDomainOffWrite host i value τ = .next υ) : Foot 0x800f000000000000000000000000000000000000000000000000000000000000000400010018000 τ υ := by
  have hs := Sub.refl 0x800f000000000000000000000000000000000000000000000000000000000000000400010018000
  refine onPowered_foot_wf h (fun hw hk => ?_)
  have hi : i < 7 := by simpa [Instr.wf] using hw
  cases host
  · exact regWrite_PWR_MGT_OFF_foot (hs.sub (by decide)) hi (by decide) hk
  · exact regWrite_PWR_HOST_OFF_foot (hs.sub (by decide)) hi (by decide) hk

theorem execDomainPowerOff_foot {d : Nat} (h : execDomainPowerOff d τ = .next υ) : Foot 0x37fe0000000000fffffffffffffffffffffffffffffffffffffffffffffffffffffffffffffffff τ υ := by
  have hs := Sub.refl 0x37fe0000000000fffffffffffffffffffffffffffffffffffffffffffffffffffffffffffffffff
  refine onPowered_foot h (fun hk => ?_)
  repeat' with_reducible (first
    | assumption | (intro _ _ _) | refine domainOff_foot (hs.sub (by decide)) ?_ | refine settleAll_foot (hs.sub (by decide)) ?_ | apply ite_foot | dsimp only)

theorem execDomainPowerOn_foot (h : execDomainPowerOn τ = .next υ) : Foot 0x200800000000000000000000000000000000000000000000000000000000000000040000002001c τ υ := by
  have hs := Sub.refl 0x200800000000000000000000000000000000000000000000000000000000000000040000002001c
  refine onPowered_foot h (fun hk => ?_)
  repeat' with_reducible (first
    | assumption | (intro _ _ _) | refine domainOnNext_foot (hs.sub (by decide)) ?_ | apply ite_foot | dsimp only)

theorem execPwrGoodRise_foot {volts : Nat} (h : execPwrGoodRise volts τ = .next υ) : Foot 0xffff0000000000fffffffffffffffffffffffffffffffffffffffffffffffffffffffffffffffff τ υ := by
  have hs := Sub.refl 0xffff0000000000fffffffffffffffffffffffffffffffffffffffffffffffffffffffffffffffff
  refine onAlways_foot h (fun hk => ?_)
  repeat' with_reducible (first
    | assumption | (intro _ _ _) | refine powerGoodRise_foot (hs.sub (by decide)) ?_ | apply ite_foot | dsimp only)

theorem execPwrGoodFall_foot (h : execPwrGoodFall τ = .next υ) : Foot 0xffff0000000000fffffffffffffffffffffffffffffffffffffffffffffffffffffffffffffffff τ υ := by
  have hs := Sub.refl 0xffff0000000000fffffffffffffffffffffffffffffffffffffffffffffffffffffffffffffffff
  refine onAlways_foot h (fun hk => ?_)
  repeat' with_reducible (first
    | assumption | (intro _ _ _) | refine powerGoodFall_foot (hs.sub (by decide)) ?_ | apply ite_foot | dsimp only)

theorem execInputShutdown_foot (h : execInputShutdown τ = .next υ) : Foot 0xffff0000000000fffffffffffffffffffffffffffffffffffffffffffffffffffffffffffffffff τ υ := by
  have hs := Sub.refl 0xffff0000000000fffffffffffffffffffffffffffffffffffffffffffffffffffffffffffffffff
  refine onAlways_foot h (fun hk => ?_)
  repeat' with_reducible (first
    | assumption | (intro _ _ _) | refine inputShutdown_foot (hs.sub (by decide)) ?_ | apply ite_foot | dsimp only)

theorem execInputSample_foot {volts : Nat} {amps : Nat} (h : execInputSample volts amps τ = .next υ) : Foot 0x6000000000000000000000000000000000000000000000000000000000000000007100000600 τ υ := by
  have hs := Sub.refl 0x6000000000000000000000000000000000000000000000000000000000000000007100000600
  refine onPowered_foot h (fun hk => ?_)
  repeat' with_reducible (first
    | assumption | (intro _ _ _) | refine inputSample_foot (hs.sub (by decide)) ?_ | apply ite_foot | dsimp only)

theorem execRailFault_foot {stop : Nat} {rail : Nat} (h : execRailFault stop rail τ = .next υ) : Foot 0x6000000000000000000000000000000000000000000000000000000000000000000000000800 τ υ := by
  have hs := Sub.refl 0x6000000000000000000000000000000000000000000000000000000000000000000000000800
  refine onPowered_foot h (fun hk => ?_)
  repeat' with_reducible (first
    | assumption | (intro _ _ _) | refine railFault_foot (hs.sub (by decide)) ?_ | apply ite_foot | dsimp only)

theorem execResetN_foot (h : execResetN τ = .next υ) : Foot 0xffff0000000000fffffffffffffffffffffffffffffffffffffffffffffffffffffffffffffffff τ υ := by
  have hs := Sub.refl 0xffff0000000000fffffffffffffffffffffffffffffffffffffffffffffffffffffffffffffffff
  refine onAlways_foot h (fun hk => ?_)
  repeat' with_reducible (first
    | assumption | (intro _ _ _) | refine resetLow_foot (hs.sub (by decide)) ?_ | apply ite_foot | dsimp only)

theorem execThermalSample_foot {temps : List Nat} (h : execThermalSample temps τ = .next υ) : Foot 0x2006000000000000000000000000000000000000000000000000000000000000000007100044000 τ υ := by
  have hs := Sub.refl 0x2006000000000000000000000000000000000000000000000000000000000000000007100044000
  refine onPowered_foot h (fun hk => ?_)
  repeat' with_reducible (first
    | assumption | (intro _ _ _) | refine thermalSample_foot (hs.sub (by decide)) ?_ | apply ite_foot | dsimp only)

theorem execPllLockChange_foot {locked : Bool} (h : execPllLockChange locked τ = .next υ) : Foot 0x6000000000000000000000000000000000000000000000000000000000000000000100001000 τ υ := by
  have hs := Sub.refl 0x6000000000000000000000000000000000000000000000000000000000000000000100001000
  refine onPowered_foot h (fun hk => ?_)
  repeat' with_reducible (first
    | assumption | (intro _ _ _) | refine pllLock_foot (hs.sub (by decide)) ?_ | apply ite_foot | dsimp only)

theorem execInputStartThreshold_foot (h : execInputStartThreshold τ = .next υ) : Foot 0xffff0000000000fffffffffffffffffffffffffffffffffffffffffffffffffffffffffffffffff τ υ := by
  have hs := Sub.refl 0xffff0000000000fffffffffffffffffffffffffffffffffffffffffffffffffffffffffffffffff
  refine onAlways_foot h (fun hk => ?_)
  repeat' with_reducible (first
    | assumption | (intro _ _ _) | refine startThreshold_foot (hs.sub (by decide)) ?_ | apply ite_foot | dsimp only)

theorem execResetNRelease_foot {board : Nat} (h : execResetNRelease board τ = .next υ) : Foot 0x2000000000000000000000000000000000000000000000000000000000000000000000000000000 τ υ := by
  have hs := Sub.refl 0x2000000000000000000000000000000000000000000000000000000000000000000000000000000
  refine onAlways_foot h (fun hk => ?_)
  repeat' with_reducible (first
    | assumption | (intro _ _ _) | refine resetRelease_foot (hs.sub (by decide)) ?_ | apply ite_foot | dsimp only)

theorem execDomainPowered_foot {d : Nat} (h : execDomainPowered d τ = .next υ) : Foot 0x217e000000000001000000000000002c01091d7a640000000000000044a00100b00400000020000 τ υ := by
  have hs := Sub.refl 0x217e000000000001000000000000002c01091d7a640000000000000044a00100b00400000020000
  refine onPowered_foot h (fun hk => ?_)
  repeat' with_reducible (first
    | assumption | (intro _ _ _) | refine domainPowered_foot (hs.sub (by decide)) ?_ | apply ite_foot | dsimp only)

theorem execRingRecordReady_foot (h : execRingRecordReady τ = .next υ) : Foot 0xe000000000000003800000000000000000000000000000000000000000000008000000000000 τ υ := by
  have hs := Sub.refl 0xe000000000000003800000000000000000000000000000000000000000000008000000000000
  refine onPowered_foot h (fun hk => ?_)
  repeat' with_reducible (first
    | assumption | (intro _ _ _) | refine ringReady_foot (hs.sub (by decide)) ?_ | apply ite_foot | dsimp only)

theorem execSnapshotStart_foot (h : execSnapshotStart τ = .next υ) : Foot 0x8000000000000000000000000000000000000000000000000000000000000002400000000000 τ υ := by
  have hs := Sub.refl 0x8000000000000000000000000000000000000000000000000000000000000002400000000000
  refine onPowered_foot h (fun hk => ?_)
  repeat' with_reducible (first
    | assumption | (intro _ _ _) | refine snapshotStart_foot (hs.sub (by decide)) ?_ | apply ite_foot | dsimp only)

theorem execSnapshotReadTimeout_foot {i : Nat} (h : execSnapshotReadTimeout i τ = .next υ) : Foot 0x8000000000000000000000000000000000000000000000000000000000000000000000000000 τ υ := by
  have hs := Sub.refl 0x8000000000000000000000000000000000000000000000000000000000000000000000000000
  refine onPowered_foot h (fun hk => ?_)
  repeat' with_reducible (first
    | assumption | (intro _ _ _) | refine snapshotReadTimeout_foot (hs.sub (by decide)) ?_ | apply ite_foot | dsimp only)

theorem execSnapshotComplete_foot (h : execSnapshotComplete τ = .next υ) : Foot 0x8000000000000000000000000000000000000000000000000000000000000002600000000000 τ υ := by
  have hs := Sub.refl 0x8000000000000000000000000000000000000000000000000000000000000002600000000000
  refine onPowered_foot h (fun hk => ?_)
  repeat' with_reducible (first
    | assumption | (intro _ _ _) | refine snapshotComplete_foot (hs.sub (by decide)) ?_ | apply ite_foot | dsimp only)

theorem execPeriodicTrigger_foot (h : execPeriodicTrigger τ = .next υ) : Foot 0x8000000000000000000000000000000000000000000000000000000000000000400000000000 τ υ := by
  have hs := Sub.refl 0x8000000000000000000000000000000000000000000000000000000000000000400000000000
  refine onPowered_foot h (fun hk => ?_)
  repeat' with_reducible (first
    | assumption | (intro _ _ _) | refine periodicTrigger_foot (hs.sub (by decide)) ?_ | apply ite_foot | dsimp only)

theorem execRingCopyBatch_foot {corrected : Nat} {bad : List (Nat × Nat)} (h : execRingCopyBatch corrected bad τ = .next υ) : Foot 0x82e00000000000000200000000000000000007a680000000000000000000000012000000000000 τ υ := by
  have hs := Sub.refl 0x82e00000000000000200000000000000000007a680000000000000000000000012000000000000
  refine onActive_foot h (fun hk => ?_)
  repeat' with_reducible (first
    | assumption | (intro _ _ _) | refine ringCopyBatch_foot (hs.sub (by decide)) ?_ | apply ite_foot | dsimp only)

theorem execOperatingSecond_foot (h : execOperatingSecond τ = .next υ) : Foot 0x8000000000000000000000000000000000000000000000000000000000000020000000000000 τ υ := by
  have hs := Sub.refl 0x8000000000000000000000000000000000000000000000000000000000000020000000000000
  refine onAlways_foot h (fun hk => ?_)
  repeat' with_reducible (first
    | assumption | (intro _ _ _) | refine operatingSecond_foot (hs.sub (by decide)) ?_ | apply ite_foot | dsimp only)

theorem execPersistenceWrite_foot (h : execPersistenceWrite τ = .next υ) : Foot 0xc008000000000000000000000000000000000000000000000000000000000000000000000000000 τ υ := by
  have hs := Sub.refl 0xc008000000000000000000000000000000000000000000000000000000000000000000000000000
  refine onPowered_foot h (fun hk => ?_)
  repeat' with_reducible (first
    | assumption | (intro _ _ _) | refine persistenceWrite_foot (hs.sub (by decide)) ?_ | apply ite_foot | dsimp only)

theorem execRegisterWrite_foot {cls : PortClass} {addr : Nat} {width : Nat} {value : Nat} (h : execRegisterWrite cls addr width value τ = .next υ) : Foot 0xb7ff0000000000fffffffffffffffffffffffffffffffffffffffffffffffffffffffffffffffff τ υ := by
  have hs := Sub.refl 0xb7ff0000000000fffffffffffffffffffffffffffffffffffffffffffffffffffffffffffffffff
  refine onPowered_foot h (fun hk => ?_)
  repeat' with_reducible (first
    | assumption | (intro _ _ _) | refine busWrite_foot (hs.sub (by decide)) ?_ | apply ite_foot | dsimp only)

theorem execRcRegisterRead_foot {cls : PortClass} {addr : Nat} {width : Nat} (h : execRcRegisterRead cls addr width τ = .next υ) : Foot 0x70000000000020a2e8000307f0349e80f16d04d8980aad565700020080467d10424290001da0 τ υ := by
  have hs := Sub.refl 0x70000000000020a2e8000307f0349e80f16d04d8980aad565700020080467d10424290001da0
  refine onPowered_foot h (fun hk => ?_)
  repeat' with_reducible (first
    | assumption | (intro _ _ _) | refine busRead_foot (hs.sub (by decide)) ?_ | apply ite_foot | dsimp only)

theorem execLowWordRead_foot {cls : PortClass} {addr : Nat} (h : execLowWordRead cls addr τ = .next υ) : Foot 0x70000000000020a2e8000307f0349e80f16d04d8980aad565700020080467d10424290001da0 τ υ := by
  have hs := Sub.refl 0x70000000000020a2e8000307f0349e80f16d04d8980aad565700020080467d10424290001da0
  refine onPowered_foot h (fun hk => ?_)
  repeat' with_reducible (first
    | assumption | (intro _ _ _) | refine busRead_foot (hs.sub (by decide)) ?_ | apply ite_foot | dsimp only)

theorem execHighWordRead_foot {cls : PortClass} {addr : Nat} (h : execHighWordRead cls addr τ = .next υ) : Foot 0x70000000000020a2e8000307f0349e80f16d04d8980aad565700020080467d10424290001da0 τ υ := by
  have hs := Sub.refl 0x70000000000020a2e8000307f0349e80f16d04d8980aad565700020080467d10424290001da0
  refine onPowered_foot h (fun hk => ?_)
  repeat' with_reducible (first
    | assumption | (intro _ _ _) | refine busRead_foot (hs.sub (by decide)) ?_ | apply ite_foot | dsimp only)

theorem execLowWordWrite_foot {cls : PortClass} {addr : Nat} {value : Nat} (h : execLowWordWrite cls addr value τ = .next υ) : Foot 0xb7ff0000000000fffffffffffffffffffffffffffffffffffffffffffffffffffffffffffffffff τ υ := by
  have hs := Sub.refl 0xb7ff0000000000fffffffffffffffffffffffffffffffffffffffffffffffffffffffffffffffff
  refine onPowered_foot h (fun hk => ?_)
  repeat' with_reducible (first
    | assumption | (intro _ _ _) | refine busWrite_foot (hs.sub (by decide)) ?_ | apply ite_foot | dsimp only)

theorem execHighWordWrite_foot {cls : PortClass} {addr : Nat} {value : Nat} (h : execHighWordWrite cls addr value τ = .next υ) : Foot 0xb7ff0000000000fffffffffffffffffffffffffffffffffffffffffffffffffffffffffffffffff τ υ := by
  have hs := Sub.refl 0xb7ff0000000000fffffffffffffffffffffffffffffffffffffffffffffffffffffffffffffffff
  refine onPowered_foot h (fun hk => ?_)
  repeat' with_reducible (first
    | assumption | (intro _ _ _) | refine busWrite_foot (hs.sub (by decide)) ?_ | apply ite_foot | dsimp only)

theorem execSplit64BitAccess_foot {cls : PortClass} {addr : Nat} {value : Option Nat} (h : execSplit64BitAccess cls addr value τ = .next υ) : Foot 0xb7ff0000000000fffffffffffffffffffffffffffffffffffffffffffffffffffffffffffffffff τ υ := by
  have hs := Sub.refl 0xb7ff0000000000fffffffffffffffffffffffffffffffffffffffffffffffffffffffffffffffff
  refine onPowered_foot h (fun hk => ?_)
  repeat' with_reducible (first
    | assumption | (intro _ _ _) | refine busRead_foot (hs.sub (by decide)) ?_ | refine busWrite_foot (hs.sub (by decide)) ?_ | apply ite_foot | simp only [foot_mk]
    | apply Foot.parts | split | dsimp only)

theorem execRingPacketArrive_foot {ring : Ring} {stop : Nat} {packet : RingPacket} {full : Bool} (h : execRingPacketArrive ring stop packet full τ = .next υ) : Foot 0x6000000000000000000000000000000000000000000000000000000000000000000000000020 τ υ := by
  have hs := Sub.refl 0x6000000000000000000000000000000000000000000000000000000000000000000000000020
  refine onPowered_foot h (fun hk => ?_)
  repeat' with_reducible (first
    | assumption | (intro _ _ _) | refine packetArrive_foot (hs.sub (by decide)) ?_ | apply ite_foot | dsimp only)

theorem execRingLinkFail_foot {ring : Ring} {stop : Nat} {msgs : List (Nat × Nat)} {packets : List RingPacket} (h : execRingLinkFail ring stop msgs packets τ = .next υ) : Foot 0x6000000000000000000000000000000000000000000000000000000000000000007100000040 τ υ := by
  have hs := Sub.refl 0x6000000000000000000000000000000000000000000000000000000000000000007100000040
  refine onPowered_foot h (fun hk => ?_)
  repeat' with_reducible (first
    | assumption | (intro _ _ _) | refine ringFail_foot (hs.sub (by decide)) ?_ | apply ite_foot | dsimp only)

theorem execRingAccessTimeout_foot {addr : Nat} {write : Bool} (h : execRingAccessTimeout addr write τ = .next υ) : Foot 0xc000000000000000000000000000000000000000000000000000000000000000 τ υ := by
  have hs := Sub.refl 0xc000000000000000000000000000000000000000000000000000000000000000
  refine onPowered_foot h (fun hk => ?_)
  repeat' with_reducible (first
    | assumption | (intro _ _ _) | refine accessLost_foot (hs.sub (by decide)) ?_ | apply ite_foot | dsimp only)

theorem execRingLinkRestore_foot {ring : Ring} {stop : Nat} (h : execRingLinkRestore ring stop τ = .next υ) : Foot 0x6000000000000000000000000000000000000000000000000000000000000000007100000040 τ υ := by
  have hs := Sub.refl 0x6000000000000000000000000000000000000000000000000000000000000000007100000040
  refine onPowered_foot h (fun hk => ?_)
  repeat' with_reducible (first
    | assumption | (intro _ _ _) | refine ringRestore_foot (hs.sub (by decide)) ?_ | apply ite_foot | dsimp only)

theorem execEpochCutEnd_foot {t : Nat} (h : execEpochCutEnd t τ = .next υ) : Foot 0xfe6000000000000003a8010e0009701090006fa6c0604000907ff0020000000000000000000000 τ υ := by
  have hs := Sub.refl 0xfe6000000000000003a8010e0009701090006fa6c0604000907ff0020000000000000000000000
  refine onActive_foot h (fun hk => ?_)
  repeat' with_reducible (first
    | assumption | (intro _ _ _) | refine cutEnd_foot (hs.sub (by decide)) ?_ | refine settleAll_foot (hs.sub (by decide)) ?_ | apply ite_foot | dsimp only)

theorem execEpochCutTimeout_foot {t : Nat} (h : execEpochCutTimeout t τ = .next υ) : Foot 0x7e600000000000000028010c0009701090006fa6c0604000907ff0020000000000000000000000 τ υ := by
  have hs := Sub.refl 0x7e600000000000000028010c0009701090006fa6c0604000907ff0020000000000000000000000
  refine onActive_foot h (fun hk => ?_)
  repeat' with_reducible (first
    | assumption | (intro _ _ _) | refine cutTimeout_foot (hs.sub (by decide)) ?_ | refine settleAll_foot (hs.sub (by decide)) ?_ | apply ite_foot | dsimp only)

theorem execEpochSecured_foot {t : Nat} {bad : Option Nat} (h : execEpochSecured t bad τ = .next υ) : Foot 0xfe6000000000000003a8013c0009701090006fa6c0604000907ff0020000000000000000000000 τ υ := by
  have hs := Sub.refl 0xfe6000000000000003a8013c0009701090006fa6c0604000907ff0020000000000000000000000
  refine onActive_foot h (fun hk => ?_)
  repeat' with_reducible (first
    | assumption | (intro _ _ _) | refine epochSecured_foot (hs.sub (by decide)) ?_ | refine settleAll_foot (hs.sub (by decide)) ?_ | apply ite_foot | dsimp only)

theorem execEpochClose_foot {t : Nat} (h : execEpochClose t τ = .next υ) : Foot 0x7e600000000000000028011c0009701090006fa6c0604000907ff0020000000000000000000000 τ υ := by
  have hs := Sub.refl 0x7e600000000000000028011c0009701090006fa6c0604000907ff0020000000000000000000000
  refine onActive_foot h (fun hk => ?_)
  repeat' with_reducible (first
    | assumption | (intro _ _ _) | refine epochClose_foot (hs.sub (by decide)) ?_ | refine settleAll_foot (hs.sub (by decide)) ?_ | apply ite_foot | dsimp only)

theorem execTierWriteFail_foot {t : Nat} {i : Nat} {acked : Nat} (h : execTierWriteFail t i acked τ = .next υ) : Foot 0x406000000000000080080000000000000000000000000000000000000000000000000000000000 τ υ := by
  have hs := Sub.refl 0x406000000000000080080000000000000000000000000000000000000000000000000000000000
  refine onActive_foot h (fun hk => ?_)
  repeat' with_reducible (first
    | assumption | (intro _ _ _) | refine tierWriteFail_foot (hs.sub (by decide)) ?_ | apply ite_foot | dsimp only)

theorem execLichenUpdate_foot (h : execLichenUpdate τ = .next υ) : Foot 0x406000000000000000040000000000000000000000000000000000000000000000000000000000 τ υ := by
  have hs := Sub.refl 0x406000000000000000040000000000000000000000000000000000000000000000000000000000
  refine onActive_foot h (fun hk => ?_)
  repeat' with_reducible (first
    | assumption | (intro _ _ _) | refine lichenUpdate_foot (hs.sub (by decide)) ?_ | apply ite_foot | dsimp only)

theorem execCadenceUpdate_foot (h : execCadenceUpdate τ = .next υ) : Foot 0xc000000000000000000000000000000000000000000000000000000000 τ υ := by
  have hs := Sub.refl 0xc000000000000000000000000000000000000000000000000000000000
  refine onActive_foot h (fun hk => ?_)
  repeat' with_reducible (first
    | assumption | (intro _ _ _) | refine cadenceUpdate_foot (hs.sub (by decide)) ?_ | apply ite_foot | dsimp only)

theorem execMemberFailed_foot {p : Nat} (h : execMemberFailed p τ = .next υ) : Foot 0x7f600000000000000028411c000972d09091ffa6c8604000907ff0064000100000000000000000 τ υ := by
  have hs := Sub.refl 0x7f600000000000000028411c000972d09091ffa6c8604000907ff0064000100000000000000000
  refine onActive_foot h (fun hk => ?_)
  repeat' with_reducible (first
    | assumption | (intro _ _ _) | refine memberFailed_foot (hs.sub (by decide)) ?_ | refine settleAll_foot (hs.sub (by decide)) ?_ | apply ite_foot | dsimp only)

theorem execRegrowthStart_foot {t : Nat} {g : Nat} (h : execRegrowthStart t g τ = .next υ) : Foot 0x7f600000000000000028010c000972d09091ffa6c8604000907ff0064000100000000000000000 τ υ := by
  have hs := Sub.refl 0x7f600000000000000028010c000972d09091ffa6c8604000907ff0064000100000000000000000
  refine onActive_foot h (fun hk => ?_)
  repeat' with_reducible (first
    | assumption | (intro _ _ _) | refine regrowthStart_foot (hs.sub (by decide)) ?_ | refine settleAll_foot (hs.sub (by decide)) ?_ | apply ite_foot | dsimp only)

theorem execRollback_foot {t : Nat} {gddrBad : Option Nat} (h : execRollback t gddrBad τ = .next υ) : Foot 0xfe6000000000000083a8013c0009701090006fa6c8604000907ff0024000000000000000000000 τ υ := by
  have hs := Sub.refl 0xfe6000000000000083a8013c0009701090006fa6c8604000907ff0024000000000000000000000
  refine onActive_foot h (fun hk => ?_)
  repeat' with_reducible (first
    | assumption | (intro _ _ _) | refine rollback_foot (hs.sub (by decide)) ?_ | refine settleAll_foot (hs.sub (by decide)) ?_ | apply ite_foot | dsimp only)

theorem execRestoreStart_foot {t : Nat} (h : execRestoreStart t τ = .next υ) : Foot 0x7f600000000000000028010c000972d09091ffa6c8604000907ff0064000100000000000000000 τ υ := by
  have hs := Sub.refl 0x7f600000000000000028010c000972d09091ffa6c8604000907ff0064000100000000000000000
  refine onActive_foot h (fun hk => ?_)
  repeat' with_reducible (first
    | assumption | (intro _ _ _) | refine restoreStart_foot (hs.sub (by decide)) ?_ | refine settleAll_foot (hs.sub (by decide)) ?_ | apply ite_foot | dsimp only)

theorem execShardReadComplete_foot {t : Nat} {g : Nat} {i : Nat} {poison : Option Nat} (h : execShardReadComplete t g i poison τ = .next υ) : Foot 0x7f600000000000008028010c000972d09091ffa6c0604000907ff0064000100000000000000000 τ υ := by
  have hs := Sub.refl 0x7f600000000000008028010c000972d09091ffa6c0604000907ff0064000100000000000000000
  refine onActive_foot h (fun hk => ?_)
  repeat' with_reducible (first
    | assumption | (intro _ _ _) | refine settleAll_foot (hs.sub (by decide)) ?_ | refine shardRead_foot (hs.sub (by decide)) ?_ | apply ite_foot | dsimp only)

theorem execRoundStart_foot (h : execRoundStart τ = .next υ) : Foot 0x7ee00000000000000028010c0009701a98086fa6c0604000907ff0020000000000400000000000 τ υ := by
  have hs := Sub.refl 0x7ee00000000000000028010c0009701a98086fa6c0604000907ff0020000000000400000000000
  refine onPowered_foot h (fun hk => ?_)
  repeat' with_reducible (first
    | assumption | (intro _ _ _) | refine roundStartAll_foot (hs.sub (by decide)) ?_ | refine roundStartOp_foot (hs.sub (by decide)) ?_ | apply ite_foot | split
    | dsimp only)

theorem execSchedFrameStart_foot {p : Nat} {bad : Option Nat} (h : execSchedFrameStart p bad τ = .next υ) : Foot 0x7f600000000000000028010c0009701090906fa6f0604000907ff0020000000000000000000000 τ υ := by
  have hs := Sub.refl 0x7f600000000000000028010c0009701090906fa6f0604000907ff0020000000000000000000000
  refine onActive_foot h (fun hk => ?_)
  repeat' with_reducible (first
    | assumption | (intro _ _ _) | refine schedFrame_foot (hs.sub (by decide)) ?_ | apply ite_foot | dsimp only)

theorem execOppFrameStart_foot {p : Nat} (h : execOppFrameStart p τ = .next υ) : Foot 0x50000000000000000000000000002c01090000000000000000000000000100000000000000000 τ υ := by
  have hs := Sub.refl 0x50000000000000000000000000002c01090000000000000000000000000100000000000000000
  refine onActive_foot h (fun hk => ?_)
  repeat' with_reducible (first
    | assumption | (intro _ _ _) | refine oppStart_foot (hs.sub (by decide)) ?_ | apply ite_foot | dsimp only)

theorem execTokenRefill_foot {die : Nat} (h : execTokenRefill die τ = .next υ) : Foot 0xc0000000000000000000000000003e00000000000000000000000000000000000000000000000 τ υ := by
  have hs := Sub.refl 0xc0000000000000000000000000003e00000000000000000000000000000000000000000000000
  refine onActive_foot h (fun hk => ?_)
  repeat' with_reducible (first
    | assumption | (intro _ _ _) | refine refillDie_foot (hs.sub (by decide)) ?_ | apply ite_foot | dsimp only)

theorem execFrameDeparture_foot {p : Nat} (h : execFrameDeparture p τ = .next υ) : Foot 0x7e600000000000000028010c0009701090006fa6c0604000907ff0020000000000000000000000 τ υ := by
  have hs := Sub.refl 0x7e600000000000000028010c0009701090006fa6c0604000907ff0020000000000000000000000
  refine onActive_foot h (fun hk => ?_)
  repeat' with_reducible (first
    | assumption | (intro _ _ _) | refine departOp_foot (hs.sub (by decide)) ?_ | refine settleAll_foot (hs.sub (by decide)) ?_ | apply ite_foot | dsimp only)

theorem execIngressLanding_foot {p : Nat} (h : execIngressLanding p τ = .next υ) : Foot 0x60000000000000000000000000000001040000000000000000000000000000000000000000000 τ υ := by
  have hs := Sub.refl 0x60000000000000000000000000000001040000000000000000000000000000000000000000000
  refine onActive_foot h (fun hk => ?_)
  repeat' with_reducible (first
    | assumption | (intro _ _ _) | refine landOp_foot (hs.sub (by decide)) ?_ | apply ite_foot | dsimp only)

theorem execSwatchPointerHandoff_foot (h : execSwatchPointerHandoff τ = .next υ) : Foot 0x40000000000000000000000000000000000000000000000000000000000000000000000000000 τ υ := by
  have hs := Sub.refl 0x40000000000000000000000000000000000000000000000000000000000000000000000000000
  refine onActive_foot h (fun hk => ?_)
  repeat' with_reducible (first
    | assumption | (intro _ _ _) | refine handoff_foot (hs.sub (by decide)) ?_ | apply ite_foot | dsimp only)

theorem execResequence_foot {die : Nat} (h : execResequence die τ = .next υ) : Foot 0x6600000000000000000000000000010100007a600000000003100000000000000000000000000 τ υ := by
  have hs := Sub.refl 0x6600000000000000000000000000010100007a600000000003100000000000000000000000000
  refine onActive_foot h (fun hk => ?_)
  repeat' with_reducible (first
    | assumption | (intro _ _ _) | refine resequence_foot (hs.sub (by decide)) ?_ | apply ite_foot | dsimp only)

theorem execHeldSwatchRelease_foot {die : Nat} (h : execHeldSwatchRelease die τ = .next υ) : Foot 0x40000000000000000000000000000100000000000000000000000000000000000000000000000 τ υ := by
  have hs := Sub.refl 0x40000000000000000000000000000100000000000000000000000000000000000000000000000
  refine onActive_foot h (fun hk => ?_)
  repeat' with_reducible (first
    | assumption | (intro _ _ _) | refine releaseHeld_foot (hs.sub (by decide)) ?_ | apply ite_foot | dsimp only)

theorem execMatchRound_foot (h : execMatchRound τ = .next υ) : Foot 0x40000000000000000000000000000040000000000000000000000000000000000000000000000 τ υ := by
  have hs := Sub.refl 0x40000000000000000000000000000040000000000000000000000000000000000000000000000
  refine onActive_foot h (fun hk => ?_)
  repeat' with_reducible (first
    | assumption | (intro _ _ _) | refine matchRound_foot (hs.sub (by decide)) ?_ | apply ite_foot | dsimp only)

theorem execOppCellsRead_foot {p : Nat} {bad : Option Nat} (h : execOppCellsRead p bad τ = .next υ) : Foot 0x7e600000000000000028010c0009701090006fa6f0604000907ff0020000000000000000000000 τ υ := by
  have hs := Sub.refl 0x7e600000000000000028010c0009701090006fa6f0604000907ff0020000000000000000000000
  refine onActive_foot h (fun hk => ?_)
  repeat' with_reducible (first
    | assumption | (intro _ _ _) | refine oppCells_foot (hs.sub (by decide)) ?_ | refine settleAll_foot (hs.sub (by decide)) ?_ | apply ite_foot | dsimp only)

theorem execInsoleScrub_foot {corrected : Nat} {bad : Option Nat} (h : execInsoleScrub corrected bad τ = .next υ) : Foot 0x7e600000000000000028010c0009701090006fa6f0604000907ff0020000000000000000000000 τ υ := by
  have hs := Sub.refl 0x7e600000000000000028010c0009701090006fa6f0604000907ff0020000000000000000000000
  refine onActive_foot h (fun hk => ?_)
  repeat' with_reducible (first
    | assumption | (intro _ _ _) | refine scrub_foot (hs.sub (by decide)) ?_ | refine settleAll_foot (hs.sub (by decide)) ?_ | apply ite_foot | dsimp only)

theorem execBufferAlloc_foot {k : Nat} {corrected : Nat} {lost : Option Nat} {stuck : Bool} (h : execBufferAlloc k corrected lost stuck τ = .next υ) : Foot 0x7f600000000000000028010c0009701090006fa6c0604000907ff0020000100800000000000000 τ υ := by
  have hs := Sub.refl 0x7f600000000000000028010c0009701090006fa6c0604000907ff0020000100800000000000000
  refine onActive_foot h (fun hk => ?_)
  repeat' with_reducible (first
    | assumption | (intro _ _ _) | refine allocServe_foot (hs.sub (by decide)) ?_ | refine settleAll_foot (hs.sub (by decide)) ?_ | refine tagErrors_foot (hs.sub (by decide)) ?_ | apply ite_foot
    | dsimp only)

theorem execAllocWaitExpiry_foot {k : Nat} (h : execAllocWaitExpiry k τ = .next υ) : Foot 0x7f600000000000000028010c0009701090006fa6c0604000907ff0020000100800000000000000 τ υ := by
  have hs := Sub.refl 0x7f600000000000000028010c0009701090006fa6c0604000907ff0020000100800000000000000
  refine onActive_foot h (fun hk => ?_)
  repeat' with_reducible (first
    | assumption | (intro _ _ _) | refine allocExpire_foot (hs.sub (by decide)) ?_ | refine settleAll_foot (hs.sub (by decide)) ?_ | apply ite_foot | dsimp only)

theorem execBufferFree_foot {ptr : Nat} {account : Nat} {requester : Nat} {corrected : Nat} {lost : Option Nat} {stuck : Bool} (h : execBufferFree ptr account requester corrected lost stuck τ = .next υ) : Foot 0x42600000000000000000000000000000000007a600000000000000000000000000000000000000 τ υ := by
  have hs := Sub.refl 0x42600000000000000000000000000000000007a600000000000000000000000000000000000000
  refine onActive_foot h (fun hk => ?_)
  repeat' with_reducible (first
    | assumption | (intro _ _ _) | refine freeObj_foot (hs.sub (by decide)) ?_ | refine tagErrors_foot (hs.sub (by decide)) ?_ | apply ite_foot | dsimp only)

theorem execMirrorFenceDiscard_foot {p : Nat} (h : execMirrorFenceDiscard p τ = .next υ) : Foot 0x6600000000000000000000000006000000007a600000000000000000000000000000000000000 τ υ := by
  have hs := Sub.refl 0x6600000000000000000000000006000000007a600000000000000000000000000000000000000
  refine onActive_foot h (fun hk => ?_)
  repeat' with_reducible (first
    | assumption | (intro _ _ _) | refine mirrorPurge_foot (hs.sub (by decide)) ?_ | apply ite_foot | dsimp only)

theorem execTimeBlock_foot {p : Nat} {rx : Nat} (h : execTimeBlock p rx τ = .next υ) : Foot 0x560000000000000000000000000000000000000000000000000000001c0200000000000001000 τ υ := by
  have hs := Sub.refl 0x560000000000000000000000000000000000000000000000000000001c0200000000000001000
  refine onActive_foot h (fun hk => ?_)
  repeat' with_reducible (first
    | assumption | (intro _ _ _) | refine timeBlock_foot (hs.sub (by decide)) ?_ | apply ite_foot | dsimp only)

theorem execSyncSend_foot {p : Nat} (h : execSyncSend p τ = .next υ) : Foot 0x10000000000000000000000000000000000000000000000000000000000000000000000000000 τ υ := by
  have hs := Sub.refl 0x10000000000000000000000000000000000000000000000000000000000000000000000000000
  refine onActive_foot h (fun hk => ?_)
  repeat' with_reducible (first
    | assumption | (intro _ _ _) | refine syncSend_foot (hs.sub (by decide)) ?_ | apply ite_foot | dsimp only)

theorem execPdelayReqSend_foot {p : Nat} (h : execPdelayReqSend p τ = .next υ) : Foot 0x10000000000000000000000000000000000000000000000000000000000000000000000000000 τ υ := by
  have hs := Sub.refl 0x10000000000000000000000000000000000000000000000000000000000000000000000000000
  refine onActive_foot h (fun hk => ?_)
  repeat' with_reducible (first
    | assumption | (intro _ _ _) | refine pdelaySend_foot (hs.sub (by decide)) ?_ | apply ite_foot | dsimp only)

theorem execSyncLossTimeout_foot (h : execSyncLossTimeout τ = .next υ) : Foot 0x16000000000000000000000000000000000000000000000000000000080000000000000000000 τ υ := by
  have hs := Sub.refl 0x16000000000000000000000000000000000000000000000000000000080000000000000000000
  refine onPowered_foot h (fun hk => ?_)
  repeat' with_reducible (first
    | assumption | (intro _ _ _) | refine syncLoss_foot (hs.sub (by decide)) ?_ | apply ite_foot | dsimp only)

theorem execIdentSend_foot {p : Nat} (h : execIdentSend p τ = .next υ) : Foot 0x10000000000000000000000000000000000000000000000000000000000000000000000000000 τ υ := by
  have hs := Sub.refl 0x10000000000000000000000000000000000000000000000000000000000000000000000000000
  refine onActive_foot h (fun hk => ?_)
  repeat' with_reducible (first
    | assumption | (intro _ _ _) | refine identSend_foot (hs.sub (by decide)) ?_ | apply ite_foot | dsimp only)

theorem execIdentBlock_foot {p : Nat} (h : execIdentBlock p τ = .next υ) : Foot 0x17e000000000001000000000000002c01095d7a640000000000000044a00900b00400000000000 τ υ := by
  have hs := Sub.refl 0x17e000000000001000000000000002c01095d7a640000000000000044a00900b00400000000000
  refine onActive_foot h (fun hk => ?_)
  repeat' with_reducible (first
    | assumption | (intro _ _ _) | refine identBlock_foot (hs.sub (by decide)) ?_ | apply ite_foot | dsimp only)

theorem execNegotiationTimeout_foot {p : Nat} (h : execNegotiationTimeout p τ = .next υ) : Foot 0x17e000000000001000000000000002c01095d7a640000000000000044a00100200400000000000 τ υ := by
  have hs := Sub.refl 0x17e000000000001000000000000002c01095d7a640000000000000044a00100200400000000000
  refine onActive_foot h (fun hk => ?_)
  repeat' with_reducible (first
    | assumption | (intro _ _ _) | refine negotiationTimeout_foot (hs.sub (by decide)) ?_ | apply ite_foot | dsimp only)

end Sys2Proof.Machine
end

