-- ==== Sys2Proof/Laws/Exec.lean ====
section
/-!
SUPPORT. A command that may act is its effect; and what an operation's footprint says of one field.
-/

namespace Sys2Proof.Machine

set_option Elab.async false

variable {s t : State} {f : State → State} {ok : Bool}

theorem onAlways_eq (ho : ok = true) : onAlways ok s f = .next (f s) := by
  unfold onAlways
  rw [ho, if_pos rfl]

theorem onPowered_eq (ho : ok = true) (h : s.powered = true) : onPowered ok s f = .next (f s) := by
  unfold onPowered
  rw [ho, h]
  rfl

theorem onActive_eq (ho : ok = true) (h : s.active = true) : onActive ok s f = .next (f s) := by
  unfold onActive
  rw [ho, h]
  rfl

theorem active_powered (h : s.active = true) : s.powered = true := by
  unfold State.active at h
  rw [Bool.and_eq_true] at h
  exact h.1

theorem active_not_safe (h : s.active = true) : s.isSafe = false := by
  unfold State.active at h
  rw [Bool.and_eq_true, Bool.not_eq_true'] at h
  exact h.2

/-- A field outside the footprint reads as before. -/
theorem Foot.rd {m : Nat} (h : Foot m s t) (g : Fld) (i j : Nat) (hb : m.testBit g.reg.ctorIdx = false) :
    t.rd g i j = s.rd g i j := by
  unfold State.rd Fld.key
  rw [h.regs _ _ _ _ (reg_lt _) hb]

end Sys2Proof.Machine
end

