-- ==== Sys2Proof/Laws/KeepsBase.lean ====
section
/-!
SUPPORT. `Keeps` for the operations of Raise, MemOps, Bpm.
-/

namespace Sys2Proof.Machine

set_option Elab.async false
set_option linter.unusedTactic false
set_option linter.unreachableTactic false
set_option linter.unusedSimpArgs false

variable {σ τ υ : State}

theorem ringClaim_keeps (hk : Keeps σ τ) (r : Ring) (stop : Nat) (p : RingPacket) : Keeps σ (τ.ringClaim r stop p) := by
  unfold State.ringClaim
  repeat' with_reducible (first
    | assumption | (intro _ _ _) | apply ite_keeps | simp only [keeps_mk] | apply Keeps.parts | split
    | dsimp only)

theorem ringEnter_keeps (hk : Keeps σ τ) (r : Ring) (stop : Nat) (p : RingPacket) : Keeps σ (τ.ringEnter r stop p) := by
  unfold State.ringEnter
  repeat' with_reducible (first
    | assumption | (intro _ _ _) | apply ringClaim_keeps | apply ite_keeps | simp only [keeps_mk] | apply Keeps.parts
    | dsimp only)

theorem launch_keeps (hk : Keeps σ τ) (r : Ring) (m : FaultMsg) : Keeps σ (τ.launch r m) := by
  unfold State.launch
  repeat' with_reducible (first
    | assumption | (intro _ _ _) | apply ringEnter_keeps | apply ite_keeps | simp only [keeps_mk] | apply Keeps.parts
    | split | dsimp only)

theorem enterFaults_keeps (hk : Keeps σ τ) (r : Ring) (stop : Nat) : Keeps σ (τ.enterFaults r stop) := by
  unfold State.enterFaults
  repeat' with_reducible (first
    | assumption | (intro _ _ _) | apply launch_keeps | apply each_keeps' | apply ite_keeps | simp only [keeps_mk]
    | apply Keeps.parts | dsimp only)

theorem ringLeave_keeps (hk : Keeps σ τ) (r : Ring) (stop : Nat) (p : RingPacket) : Keeps σ (τ.ringLeave r stop p) := by
  unfold State.ringLeave
  repeat' with_reducible (first
    | assumption | (intro _ _ _) | apply enterFaults_keeps | apply ite_keeps | simp only [keeps_mk] | apply Keeps.parts
    | split | dsimp only)

theorem takeOff_keeps (hk : Keeps σ τ) (r : Ring) (p : RingPacket) : Keeps σ (τ.takeOff r p) := by
  unfold State.takeOff
  repeat' with_reducible (first
    | assumption | (intro _ _ _) | apply ringLeave_keeps | apply each_keeps' | apply ite_keeps | dsimp only)

theorem sendFault_keeps (hk : Keeps σ τ) (m : FaultMsg) : Keeps σ (τ.sendFault m) := by
  unfold State.sendFault
  repeat' with_reducible (first
    | assumption | (intro _ _ _) | apply launch_keeps | apply mark_keeps | apply ite_keeps | simp only [keeps_mk]
    | apply Keeps.parts | split | dsimp only)

theorem deliver_keeps (hk : Keeps σ τ) (m : FaultMsg) : Keeps σ (τ.deliver m) := by
  unfold State.deliver
  repeat' with_reducible (first
    | assumption | (intro _ _ _) | apply ite_keeps | simp only [keeps_mk] | apply Keeps.parts | dsimp only)

theorem raiseN_keeps (hk : Keeps σ τ) (die src n detail : Nat) : Keeps σ (τ.raiseN die src n detail) := by
  unfold State.raiseN
  repeat' with_reducible (first
    | assumption | (intro _ _ _) | apply deliver_keeps | apply sendFault_keeps | apply ite_keeps | split
    | dsimp only)

theorem raise_keeps (hk : Keeps σ τ) (die src : Nat) (detail : Nat) : Keeps σ (τ.raise die src detail) := by
  unfold State.raise
  repeat' with_reducible (first
    | assumption | (intro _ _ _) | apply raiseN_keeps | apply ite_keeps | dsimp only)

theorem syncActive_keeps (hk : Keeps σ τ) (src : Nat) : Keeps σ (τ.syncActive src) := by
  unfold State.syncActive
  repeat' with_reducible (first
    | assumption | (intro _ _ _) | apply wr_keeps | apply ite_keeps | dsimp only)

theorem setLevel_keeps (hk : Keeps σ τ) (die src unit detail : Nat) (c : Bool) : Keeps σ (τ.setLevel die src unit detail c) := by
  unfold State.setLevel
  repeat' with_reducible (first
    | assumption | (intro _ _ _) | apply raise_keeps | apply sendFault_keeps | apply syncActive_keeps | apply ite_keeps
    | simp only [keeps_mk] | apply Keeps.parts | split | dsimp only)

theorem syncPin_keeps (hk : Keeps σ τ)  : Keeps σ (τ.syncPin) := by
  unfold State.syncPin
  repeat' with_reducible (first
    | assumption | (intro _ _ _) | apply inc_keeps | apply mark_keeps | apply wr_keeps | apply ite_keeps
    | split | dsimp only)

theorem syncFaults_keeps (hk : Keeps σ τ)  : Keeps σ (τ.syncFaults) := by
  unfold State.syncFaults
  repeat' with_reducible (first
    | assumption | (intro _ _ _) | apply syncPin_keeps | apply wr_keeps | apply foldl_keeps_fst | apply foldl_keeps_snd
    | refine foldl_keeps_fst_eq ‹_› ?_ ?_ | refine foldl_keeps_snd_eq ‹_› ?_ ?_ | apply ite_keeps | simp only [keeps_mk] | apply Keeps.parts | split
    | dsimp only)

theorem trigger_keeps (hk : Keeps σ τ) (code source severity set arg : Nat) : Keeps σ (τ.trigger code source severity set arg) := by
  unfold State.trigger
  repeat' with_reducible (first
    | assumption | (intro _ _ _) | apply inc_keeps | apply mark_keeps | apply wr_keeps | apply ite_keeps
    | simp only [keeps_mk] | apply Keeps.parts | split | dsimp only)

theorem triggerOther_keeps (hk : Keeps σ τ) (code arg : Nat) : Keeps σ (τ.triggerOther code arg) := by
  unfold State.triggerOther
  repeat' with_reducible (first
    | assumption | (intro _ _ _) | apply trigger_keeps | apply ite_keeps | dsimp only)

theorem exactLoss_keeps (hk : Keeps σ τ) (f : Fld) : Keeps σ (τ.exactLoss f) := by
  unfold State.exactLoss
  repeat' with_reducible (first
    | assumption | (intro _ _ _) | apply latch_keeps | apply wr_keeps | apply ite_keeps | split
    | dsimp only)

theorem exactUndo_keeps (hk : Keeps σ τ) (f : Fld) : Keeps σ (τ.exactUndo f) := by
  unfold State.exactUndo
  repeat' with_reducible (first
    | assumption | (intro _ _ _) | apply restoreWas_keeps | apply wr_keeps | apply ite_keeps | split
    | dsimp only)

theorem exactLossNoted_keeps (hk : Keeps σ τ) (f : Fld) : Keeps σ (τ.exactLossNoted f) := by
  unfold State.exactLossNoted
  repeat' with_reducible (first
    | assumption | (intro _ _ _) | apply exactLoss_keeps | apply noteWas_keeps | apply ite_keeps | dsimp only)

theorem countChannel_keeps (hk : Keeps σ τ) (a n : Nat) : Keeps σ (τ.countChannel a n) := by
  unfold State.countChannel
  repeat' with_reducible (first
    | assumption | (intro _ _ _) | apply inc_keeps | apply each_keeps' | apply ite_keeps | dsimp only)

theorem gddrUncorr_keeps (hk : Keeps σ τ) (a : Nat) : Keeps σ (τ.gddrUncorr a) := by
  unfold State.gddrUncorr
  repeat' with_reducible (first
    | assumption | (intro _ _ _) | apply inc_keeps | apply raise_keeps | apply wr_keeps | apply ite_keeps
    | dsimp only)

theorem gddrRead_keeps (hk : Keeps σ τ) (a n : Nat) (bad : Option Nat) : Keeps σ (τ.gddrRead a n bad).2 := by
  unfold State.gddrRead
  repeat' with_reducible (first
    | assumption | (intro _ _ _) | apply countChannel_keeps | apply gddrUncorr_keeps | apply ite_keeps | simp only [keeps_mk]
    | apply Keeps.parts | split | dsimp only)

theorem gddrRead_keeps_eq {a n : Nat} {bad : Option Nat} {y} (he : τ.gddrRead a n bad = (y, υ)) (hk : Keeps σ τ) : Keeps σ υ := by
  have := gddrRead_keeps hk a n bad
  rwa [he] at this

theorem setGddr_keeps (hk : Keeps σ τ) (a : Nat) (l : List Byte) : Keeps σ (τ.setGddr a l) :=
  keeps_mk.mpr (hk.partsMem (fun hw => Memory.wf_writeN hw a l) id)

theorem gddrWrite_keeps (hk : Keeps σ τ) (a : Nat) (l : List Byte) : Keeps σ (τ.gddrWrite a l).2 := by
  have hc := countChannel_keeps hk a l.length
  unfold State.gddrWrite
  dsimp only
  split
  · exact each_keeps' hc (fun u p h => ite_keeps h (setGddr_keeps h _ _))
  · exact setGddr_keeps hc a l

theorem gddrWrite_keeps_eq {a : Nat} {l : List Byte} {y} (he : τ.gddrWrite a l = (y, υ)) (hk : Keeps σ τ) : Keeps σ υ := by
  have := gddrWrite_keeps hk a l
  rwa [he] at this

theorem cxlWrite_keeps (hk : Keeps σ τ) (port a : Nat) (l : List Byte) : Keeps σ (τ.cxlWrite port a l) :=
  keeps_mk.mpr (hk.partsMem id (fun hx => cxlCanonical_upd hx _ _ _))

theorem readPoison_keeps (hk : Keeps σ τ) (port a : Nat) : Keeps σ (τ.readPoison port a) := by
  unfold State.readPoison
  repeat' with_reducible (first
    | assumption | (intro _ _ _) | apply inc_keeps | apply ite_keeps | simp only [keeps_mk] | apply Keeps.parts
    | refine Keeps.partsMem ?_ id id | dsimp only)

theorem sporeWrite_keeps (hk : Keeps σ τ) (k : Nat) (l : List Byte) : Keeps σ (τ.sporeWrite k l) := by
  unfold State.sporeWrite
  repeat' with_reducible (first
    | assumption | (intro _ _ _) | apply cxlWrite_keeps | apply ite_keeps | split | dsimp only)

theorem readGranule_keeps (hk : Keeps σ τ) (k : Nat) : Keeps σ (τ.readGranule k).2 := by
  unfold State.readGranule
  repeat' with_reducible (first
    | assumption | (intro _ _ _) | apply readPoison_keeps | apply ite_keeps | split | dsimp only)

theorem readGranule_keeps_eq {k : Nat} {y} (he : τ.readGranule k = (y, υ)) (hk : Keeps σ τ) : Keeps σ υ := by
  have := readGranule_keeps hk k
  rwa [he] at this

theorem noteCounts_keeps (hk : Keeps σ τ) (q l colour a : Nat) : Keeps σ (τ.noteCounts q l colour a) := by
  unfold State.noteCounts
  repeat' with_reducible (first
    | assumption | (intro _ _ _) | apply mark_keeps | apply ite_keeps | dsimp only)

theorem syncFree_keeps (hk : Keeps σ τ) (q : Nat) : Keeps σ (τ.syncFree q) := by
  unfold State.syncFree
  repeat' with_reducible (first
    | assumption | (intro _ _ _) | apply wr_keeps | apply ite_keeps | dsimp only)

theorem setList_keeps (hk : Keeps σ τ) (q l colour : Nat) (f : FreeList) : Keeps σ (τ.setList q l colour f) := by
  unfold State.setList
  repeat' with_reducible (first
    | assumption | (intro _ _ _) | apply ite_keeps | simp only [keeps_mk] | apply Keeps.parts | dsimp only)

theorem setStored_keeps (hk : Keeps σ τ) (cell : Nat) (i : Option Item) : Keeps σ (τ.setStored cell i) := by
  unfold State.setStored
  repeat' with_reducible (first
    | assumption | (intro _ _ _) | apply ite_keeps | simp only [keeps_mk] | apply Keeps.parts | dsimp only)

theorem popList_keeps {q l colour : Nat} {y} (he : τ.popList q l colour = some y) (hk : Keeps σ τ) : Keeps σ y.2 := by
  unfold State.popList at he
  try dsimp only at he
  repeat' split at he
  all_goals cases he
  all_goals repeat' with_reducible (first
    | assumption | (intro _ _ _) | apply fresh_keeps | refine fresh_keeps_eq ‹_› ?_ | apply setList_keeps | apply ite_keeps
    | simp only [keeps_mk] | apply Keeps.parts | split | dsimp only)

theorem bpmError_keeps (hk : Keeps σ τ) (kind account requester ptr named : Nat) : Keeps σ (τ.bpmError kind account requester ptr named) := by
  unfold State.bpmError
  repeat' with_reducible (first
    | assumption | (intro _ _ _) | apply inc_keeps | apply latch_keeps | apply mark_keeps | apply raise_keeps
    | apply wr_keeps | apply ite_keeps | simp only [keeps_mk] | apply Keeps.parts | split | dsimp only)

theorem setTag_keeps (hk : Keeps σ τ) (cell : Nat) (t : Tag) : Keeps σ (τ.setTag cell t) := by
  unfold State.setTag
  repeat' with_reducible (first
    | assumption | (intro _ _ _) | apply ite_keeps | simp only [keeps_mk] | apply Keeps.parts | dsimp only)

theorem withdraw_keeps (hk : Keeps σ τ) (cell : Nat) : Keeps σ (τ.withdraw cell) := by
  unfold State.withdraw
  repeat' with_reducible (first
    | assumption | (intro _ _ _) | apply setTag_keeps | apply ite_keeps | simp only [keeps_mk] | apply Keeps.parts
    | dsimp only)

theorem tagErrors_keeps (hk : Keeps σ τ) (corrected : Nat) (lost : Option Nat) (stuck : Bool) : Keeps σ (τ.tagErrors corrected lost stuck) := by
  unfold State.tagErrors
  repeat' with_reducible (first
    | assumption | (intro _ _ _) | apply incCorr_keeps | apply setTag_keeps | apply ite_keeps | simp only [keeps_mk]
    | apply Keeps.parts | split | dsimp only)

theorem takeHead_keeps {fuel q l c a r : Nat} (hk : Keeps σ τ) : Keeps σ (takeHead fuel τ q l c a r).2 := by
  induction fuel generalizing τ with
  | zero => exact hk
  | succ n ih =>
    rw [takeHead]
    split
    · exact hk
    · next hp =>
      have hp := popList_keeps hp hk
      split
      · exact ih (bpmError_keeps (withdraw_keeps hp _) _ _ _ _ _)
      · exact hp

theorem takeHead_keeps_eq {fuel q l c a r : Nat} {y} (he : takeHead fuel τ q l c a r = (y, υ)) (hk : Keeps σ τ) :
    Keeps σ υ := by
  have := takeHead_keeps (fuel := fuel) (q := q) (l := l) (c := c) (a := a) (r := r) hk
  rwa [he] at this

theorem holdBuffer_keeps (hk : Keeps σ τ) (q cell account next : Nat) : Keeps σ (τ.holdBuffer q cell account next) := by
  unfold State.holdBuffer
  repeat' with_reducible (first
    | assumption | (intro _ _ _) | apply inc_keeps | apply mark_keeps | apply setTag_keeps | apply ite_keeps
    | simp only [keeps_mk] | apply Keeps.parts | dsimp only)

theorem alloc_keeps (hk : Keeps σ τ) (item : Item) (account requester : Nat) : Keeps σ (τ.alloc item account requester).2 := by
  unfold State.alloc
  repeat' with_reducible (first
    | assumption | (intro _ _ _) | apply fresh_keeps | refine fresh_keeps_eq ‹_› ?_ | apply holdBuffer_keeps | apply noteCounts_keeps
    | apply setList_keeps | apply setStored_keeps | apply syncFree_keeps | refine takeHead_keeps_eq ‹_› ?_ | apply ite_keeps | simp only [keeps_mk]
    | apply Keeps.parts | split | dsimp only)

theorem alloc_keeps_eq {item : Item} {account requester : Nat} {y} (he : τ.alloc item account requester = (y, υ)) (hk : Keeps σ τ) : Keeps σ υ := by
  have := alloc_keeps hk item account requester
  rwa [he] at this

theorem returnBuffer_keeps (hk : Keeps σ τ) (p : Nat) : Keeps σ (τ.returnBuffer p) := by
  unfold State.returnBuffer
  repeat' with_reducible (first
    | assumption | (intro _ _ _) | apply mark_keeps | apply noteCounts_keeps | apply setList_keeps | apply setTag_keeps
    | apply syncFree_keeps | apply wr_keeps | apply ite_keeps | simp only [keeps_mk] | apply Keeps.parts | split
    | dsimp only)

theorem waitFree_keeps (hk : Keeps σ τ) (p account requester : Nat) : Keeps σ (τ.waitFree p account requester) := by
  unfold State.waitFree
  repeat' with_reducible (first
    | assumption | (intro _ _ _) | apply ite_keeps | simp only [keeps_mk] | apply Keeps.parts | dsimp only)

theorem freeFails_keeps (hk : Keeps σ τ) (kind p account requester : Nat) : Keeps σ (τ.freeFails kind p account requester) := by
  unfold State.freeFails
  repeat' with_reducible (first
    | assumption | (intro _ _ _) | apply bpmError_keeps | apply mark_keeps | apply withdraw_keeps | apply ite_keeps
    | simp only [keeps_mk] | apply Keeps.parts | split | dsimp only)

theorem freeObj_keeps (hk : Keeps σ τ) (p account requester : Nat) : Keeps σ (τ.freeObj p account requester) := by
  unfold State.freeObj
  repeat' with_reducible (first
    | assumption | (intro _ _ _) | apply bpmError_keeps | apply freeFails_keeps | apply mark_keeps | apply returnBuffer_keeps
    | apply setStored_keeps | apply waitFree_keeps | apply withdraw_keeps | apply ite_keeps | simp only [keeps_mk] | apply Keeps.parts
    | split | dsimp only)

theorem serveFrees_keeps (hk : Keeps σ τ)  : Keeps σ (τ.serveFrees) := by
  unfold State.serveFrees
  repeat' with_reducible (first
    | assumption | (intro _ _ _) | apply freeObj_keeps | apply each_keeps' | apply ite_keeps | simp only [keeps_mk]
    | apply Keeps.parts | split | dsimp only)

theorem dropObj_keeps (hk : Keeps σ τ) (p account requester : Nat) : Keeps σ (τ.dropObj p account requester) := by
  unfold State.dropObj
  repeat' with_reducible (first
    | assumption | (intro _ _ _) | apply freeObj_keeps | apply ite_keeps | split | dsimp only)

theorem decRef_keeps (hk : Keeps σ τ) (p account requester : Nat) : Keeps σ (τ.decRef p account requester) := by
  unfold State.decRef
  repeat' with_reducible (first
    | assumption | (intro _ _ _) | apply bpmError_keeps | apply freeObj_keeps | apply setTag_keeps | apply withdraw_keeps
    | apply ite_keeps | simp only [keeps_mk] | apply Keeps.parts | split | dsimp only)

theorem addRefs_keeps (hk : Keeps σ τ) (p n : Nat) : Keeps σ (τ.addRefs p n) := by
  unfold State.addRefs
  repeat' with_reducible (first
    | assumption | (intro _ _ _) | apply setTag_keeps | apply ite_keeps | simp only [keeps_mk] | apply Keeps.parts
    | dsimp only)

theorem setObject_keeps (hk : Keeps σ τ) (p : Nat) (i : Item) : Keeps σ (τ.setObject p i) := by
  unfold State.setObject
  repeat' with_reducible (first
    | assumption | (intro _ _ _) | apply setStored_keeps | apply ite_keeps | dsimp only)

theorem buildLists_keeps (hk : Keeps σ τ) (q : Nat) (schedOnly : Bool) : Keeps σ (τ.buildLists q schedOnly) := by
  unfold State.buildLists
  repeat' with_reducible (first
    | assumption | (intro _ _ _) | apply setList_keeps | apply syncFree_keeps | apply ite_keeps | split
    | dsimp only)

theorem dropWithdrawn_keeps (hk : Keeps σ τ) (cells : List Nat) : Keeps σ (τ.dropWithdrawn cells) := by
  unfold State.dropWithdrawn
  repeat' with_reducible (first
    | assumption | (intro _ _ _) | apply fresh_keeps | refine fresh_keeps_eq ‹_› ?_ | apply setList_keeps | apply syncFree_keeps
    | apply each_keeps' | apply ite_keeps | split | dsimp only)

theorem rebuildScheduled_keeps (hk : Keeps σ τ)  : Keeps σ (τ.rebuildScheduled) := by
  unfold State.rebuildScheduled
  repeat' with_reducible (first
    | assumption | (intro _ _ _) | apply buildLists_keeps | apply dropWithdrawn_keeps | apply inc_keeps | apply setStored_keeps
    | apply setTag_keeps | apply wr_keeps | apply each_keeps' | apply ite_keeps | simp only [keeps_mk] | apply Keeps.parts
    | split | dsimp only)

theorem request_keeps (hk : Keeps σ τ) (requester account : Nat) (item : Item) (purpose : Purpose) : Keeps σ (τ.request requester account item purpose) := by
  unfold State.request
  repeat' with_reducible (first
    | assumption | (intro _ _ _) | apply ite_keeps | simp only [keeps_mk] | apply Keeps.parts | dsimp only)

theorem allocNow_keeps (hk : Keeps σ τ) (item : Item) (account requester : Nat) : Keeps σ (τ.allocNow item account requester).2 := by
  unfold State.allocNow
  repeat' with_reducible (first
    | assumption | (intro _ _ _) | apply alloc_keeps | refine alloc_keeps_eq ‹_› ?_ | apply ite_keeps | split
    | dsimp only)

theorem allocNow_keeps_eq {item : Item} {account requester : Nat} {y} (he : τ.allocNow item account requester = (y, υ)) (hk : Keeps σ τ) : Keeps σ υ := by
  have := allocNow_keeps hk item account requester
  rwa [he] at this

theorem bpmDrop_keeps (hk : Keeps σ τ) (a : Nat) : Keeps σ (τ.bpmDrop a) := by
  unfold State.bpmDrop
  repeat' with_reducible (first
    | assumption | (intro _ _ _) | apply inc_keeps | apply ite_keeps | dsimp only)

end Sys2Proof.Machine
end

