-- ==== Sys2Proof/Laws/KeepsSwitch.lean ====
section
/-!
SUPPORT. `Keeps` for the operations of Egress, Shaping, Sched, Fences, Codec, Arrival.
-/

namespace Sys2Proof.Machine

set_option Elab.async false
set_option linter.unusedTactic false
set_option linter.unreachableTactic false
set_option linter.unusedSimpArgs false

variable {σ τ υ : State}

theorem syncFenced_keeps (hk : Keeps σ τ)  : Keeps σ (τ.syncFenced) := by
  unfold State.syncFenced
  repeat' with_reducible (first
    | assumption | (intro _ _ _) | apply wr_keeps | apply each_keeps' | apply ite_keeps | dsimp only)

theorem askDegraded_keeps (hk : Keeps σ τ) (p : Nat) : Keeps σ (τ.askDegraded p) := by
  unfold State.askDegraded
  repeat' with_reducible (first
    | assumption | (intro _ _ _) | apply ite_keeps | simp only [keeps_mk] | apply Keeps.parts | split
    | dsimp only)

theorem syncFailing_keeps (hk : Keeps σ τ)  : Keeps σ (τ.syncFailing) := by
  unfold State.syncFailing
  repeat' with_reducible (first
    | assumption | (intro _ _ _) | apply each_keeps' | apply ite_keeps | simp only [keeps_mk] | apply Keeps.parts
    | split | dsimp only)

theorem nextSeq_keeps (hk : Keeps σ τ) (ctx opnum group : Nat) : Keeps σ (τ.nextSeq ctx opnum group).2 := by
  unfold State.nextSeq
  repeat' with_reducible (first
    | assumption | (intro _ _ _) | apply ite_keeps | simp only [keeps_mk] | apply Keeps.parts | dsimp only)

theorem nextSeq_keeps_eq {ctx opnum group : Nat} {y} (he : τ.nextSeq ctx opnum group = (y, υ)) (hk : Keeps σ τ) : Keeps σ υ := by
  have := nextSeq_keeps hk ctx opnum group
  rwa [he] at this

theorem noteOutput_keeps (hk : Keeps σ τ) (h : SwHeader) (port : Nat) (sent : Bool) : Keeps σ (τ.noteOutput h port sent) := by
  unfold State.noteOutput
  repeat' with_reducible (first
    | assumption | (intro _ _ _) | apply sent_keeps | refine sent_keeps_eq ‹_› ?_ | apply ite_keeps | simp only [keeps_mk]
    | apply Keeps.parts | split | dsimp only)

theorem noteObject_keeps (hk : Keeps σ τ) (ptr account port : Nat) (sent : Bool) : Keeps σ (τ.noteObject ptr account port sent) := by
  unfold State.noteObject
  repeat' with_reducible (first
    | assumption | (intro _ _ _) | apply noteOutput_keeps | apply ite_keeps | simp only [keeps_mk] | apply Keeps.parts
    | split | dsimp only)

theorem noteEntry_keeps (hk : Keeps σ τ) (e : OppEntry) (port : Nat) (sent : Bool) : Keeps σ (τ.noteEntry e port sent) := by
  unfold State.noteEntry
  repeat' with_reducible (first
    | assumption | (intro _ _ _) | apply noteObject_keeps | apply noteOutput_keeps | apply ite_keeps | simp only [keeps_mk]
    | apply Keeps.parts | split | dsimp only)

theorem countAccess_keeps (hk : Keeps σ τ) (f : Fld) (ptr : Nat) : Keeps σ (τ.countAccess f ptr) := by
  unfold State.countAccess
  repeat' with_reducible (first
    | assumption | (intro _ _ _) | apply inc_keeps | apply each_keeps' | apply ite_keeps | dsimp only)

theorem countWrite_keeps (hk : Keeps σ τ) (ptr account : Nat) : Keeps σ (τ.countWrite ptr account) := by
  unfold State.countWrite
  repeat' with_reducible (first
    | assumption | (intro _ _ _) | apply countAccess_keeps | apply ite_keeps | split | dsimp only)

theorem countBlock_keeps (hk : Keeps σ τ) (ptr : Nat) : Keeps σ (τ.countBlock ptr) := by
  unfold State.countBlock
  repeat' with_reducible (first
    | assumption | (intro _ _ _) | apply countAccess_keeps | apply ite_keeps | dsimp only)

theorem dropEntry_keeps (hk : Keeps σ τ) (e : OppEntry) (port requester : Nat) : Keeps σ (τ.dropEntry e port requester) := by
  unfold State.dropEntry
  repeat' with_reducible (first
    | assumption | (intro _ _ _) | apply decRef_keeps | apply inc_keeps | apply noteEntry_keeps | apply ite_keeps
    | dsimp only)

theorem putVoq_keeps (hk : Keeps σ τ) (die dst : Nat) (e : OppEntry) : Keeps σ (τ.putVoq die dst e) := by
  unfold State.putVoq
  repeat' with_reducible (first
    | assumption | (intro _ _ _) | apply inc_keeps | apply ite_keeps | simp only [keeps_mk] | apply Keeps.parts
    | dsimp only)

theorem mirrorLost_keeps (hk : Keeps σ τ) (m : Nat) (f : Fld) : Keeps σ (τ.mirrorLost m f) := by
  unfold State.mirrorLost
  repeat' with_reducible (first
    | assumption | (intro _ _ _) | apply inc_keeps | apply ite_keeps | simp only [keeps_mk] | apply Keeps.parts
    | dsimp only)

theorem mirrorTake_keeps (hk : Keeps σ τ) (m port : Nat) (egress sched : Bool) (vc ptr account extra : Nat) : Keeps σ (τ.mirrorTake m port egress sched vc ptr account extra) := by
  unfold State.mirrorTake
  repeat' with_reducible (first
    | assumption | (intro _ _ _) | apply addRefs_keeps | apply alloc_keeps | refine alloc_keeps_eq ‹_› ?_ | apply bpmDrop_keeps
    | apply countWrite_keeps | apply inc_keeps | apply mirrorLost_keeps | apply putVoq_keeps | apply wr_keeps | apply ite_keeps
    | simp only [keeps_mk] | apply Keeps.parts | split | dsimp only)

theorem mirrorAll_keeps (hk : Keeps σ τ) (port : Nat) (egress sched : Bool) (vc : Nat) (context : Option Nat) (ptr account extra : Nat) : Keeps σ (τ.mirrorAll port egress sched vc context ptr account extra) := by
  unfold State.mirrorAll
  repeat' with_reducible (first
    | assumption | (intro _ _ _) | apply mirrorTake_keeps | apply each_keeps' | apply ite_keeps | split
    | dsimp only)

theorem copyLater_keeps (hk : Keeps σ τ) (c : LateCopy) : Keeps σ (τ.copyLater c) := by
  unfold State.copyLater
  repeat' with_reducible (first
    | assumption | (intro _ _ _) | apply ite_keeps | simp only [keeps_mk] | apply Keeps.parts | dsimp only)

theorem pushNow_keeps (hk : Keeps σ τ) (die dst : Nat) (e : OppEntry) : Keeps σ (τ.pushNow die dst e) := by
  unfold State.pushNow
  repeat' with_reducible (first
    | assumption | (intro _ _ _) | apply copyLater_keeps | apply putVoq_keeps | apply ite_keeps | dsimp only)

theorem pushVoq_keeps (hk : Keeps σ τ) (die dst : Nat) (e : OppEntry) : Keeps σ (τ.pushVoq die dst e) := by
  unfold State.pushVoq
  repeat' with_reducible (first
    | assumption | (intro _ _ _) | apply pushNow_keeps | apply ite_keeps | simp only [keeps_mk] | apply Keeps.parts
    | split | dsimp only)

theorem enqueueNow_keeps (hk : Keeps σ τ) (b t : Nat) (e : QEntry) (requester : Nat) : Keeps σ (τ.enqueueNow b t e requester) := by
  unfold State.enqueueNow
  repeat' with_reducible (first
    | assumption | (intro _ _ _) | apply copyLater_keeps | apply inc_keeps | apply pushNow_keeps | apply ite_keeps
    | simp only [keeps_mk] | apply Keeps.parts | split | dsimp only)

theorem enqueue_keeps (hk : Keeps σ τ) (b t : Nat) (e : QEntry) (requester : Nat) : Keeps σ (τ.enqueue b t e requester) := by
  unfold State.enqueue
  repeat' with_reducible (first
    | assumption | (intro _ _ _) | apply enqueueNow_keeps | apply ite_keeps | simp only [keeps_mk] | apply Keeps.parts
    | split | dsimp only)

theorem refuseLate_keeps (hk : Keeps σ τ)  : Keeps σ (τ.refuseLate) := by
  unfold State.refuseLate
  repeat' with_reducible (first
    | assumption | (intro _ _ _) | apply decRef_keeps | apply dropEntry_keeps | apply enqueueNow_keeps | apply inc_keeps
    | apply noteOutput_keeps | apply pushNow_keeps | apply each_keeps' | apply ite_keeps | simp only [keeps_mk] | apply Keeps.parts
    | split | dsimp only)

theorem copyLate_keeps (hk : Keeps σ τ)  : Keeps σ (τ.copyLate) := by
  unfold State.copyLate
  repeat' with_reducible (first
    | assumption | (intro _ _ _) | apply mirrorAll_keeps | apply each_keeps' | apply ite_keeps | simp only [keeps_mk]
    | apply Keeps.parts | split | dsimp only)

theorem multicast_keeps (hk : Keeps σ τ) (ptr account requester : Nat) (targets : List Target) : Keeps σ (τ.multicast ptr account requester targets) := by
  unfold State.multicast
  repeat' with_reducible (first
    | assumption | (intro _ _ _) | apply addRefs_keeps | apply enqueue_keeps | apply freeObj_keeps | apply inc_keeps
    | apply each_keeps' | apply ite_keeps | split | dsimp only)

theorem sendItem_keeps (hk : Keeps σ τ) (die port : Nat) (item : Item) (account : Nat) : Keeps σ (τ.sendItem die port item account) := by
  unfold State.sendItem
  repeat' with_reducible (first
    | assumption | (intro _ _ _) | apply addRefs_keeps | apply allocNow_keeps | refine allocNow_keeps_eq ‹_› ?_ | apply countWrite_keeps
    | apply forward_keeps | apply pushVoq_keeps | apply request_keeps | apply ite_keeps | simp only [keeps_mk] | apply Keeps.parts
    | split | dsimp only)

theorem sendControl_keeps (hk : Keeps σ τ) (die port : Nat) (ckind : Nat) (data : List Byte) : Keeps σ (τ.sendControl die port ckind data) := by
  unfold State.sendControl
  repeat' with_reducible (first
    | assumption | (intro _ _ _) | apply sendItem_keeps | apply ite_keeps | dsimp only)

theorem purgeOne_keeps (hk : Keeps σ τ) (p : Nat) : Keeps σ (τ.purgeOne p) := by
  unfold State.purgeOne
  repeat' with_reducible (first
    | assumption | (intro _ _ _) | apply decRef_keeps | apply dropEntry_keeps | apply inc_keeps | apply noteOutput_keeps
    | apply ite_keeps | simp only [keeps_mk] | apply Keeps.parts | split | dsimp only)

theorem mirrorDiscard_keeps (hk : Keeps σ τ) (e : OppEntry) (die : Nat) : Keeps σ (τ.mirrorDiscard e die) := by
  unfold State.mirrorDiscard
  repeat' with_reducible (first
    | assumption | (intro _ _ _) | apply decRef_keeps | apply inc_keeps | apply wr_keeps | apply ite_keeps
    | simp only [keeps_mk] | apply Keeps.parts | split | dsimp only)

theorem setTokens_keeps (hk : Keeps σ τ) (k : Bucket) (p v : Nat) (t : Int) : Keeps σ (τ.setTokens k p v t) := by
  unfold State.setTokens
  repeat' with_reducible (first
    | assumption | (intro _ _ _) | apply wr_keeps | apply ite_keeps | dsimp only)

theorem applyBucket_keeps (hk : Keeps σ τ) (k : Bucket) (p v value : Nat) : Keeps σ (τ.applyBucket k p v value) := by
  unfold State.applyBucket
  repeat' with_reducible (first
    | assumption | (intro _ _ _) | apply wr_keeps | apply ite_keeps | dsimp only)

theorem setWaiting_keeps (hk : Keeps σ τ) (k : Bucket) (p v : Nat) (w : Option (Nat × Nat)) : Keeps σ (τ.setWaiting k p v w) := by
  unfold State.setWaiting
  repeat' with_reducible (first
    | assumption | (intro _ _ _) | apply wr_keeps | apply ite_keeps | simp only [keeps_mk] | apply Keeps.parts
    | dsimp only)

theorem writeBucket_keeps (hk : Keeps σ τ) (k : Bucket) (p v value : Nat) : Keeps σ (τ.writeBucket k p v value) := by
  unfold State.writeBucket
  repeat' with_reducible (first
    | assumption | (intro _ _ _) | apply setWaiting_keeps | apply ite_keeps | split | dsimp only)

theorem resetBucket_keeps (hk : Keeps σ τ) (k : Bucket) (p v value : Nat) : Keeps σ (τ.resetBucket k p v value) := by
  unfold State.resetBucket
  repeat' with_reducible (first
    | assumption | (intro _ _ _) | apply applyBucket_keeps | apply mark_keeps | apply setTokens_keeps | apply setWaiting_keeps
    | apply ite_keeps | split | dsimp only)

theorem bucketResets_keeps (hk : Keeps σ τ)  : Keeps σ (τ.bucketResets) := by
  unfold State.bucketResets
  repeat' with_reducible (first
    | assumption | (intro _ _ _) | apply resetBucket_keeps | apply each_keeps' | apply ite_keeps | simp only [keeps_mk]
    | apply Keeps.parts | split | dsimp only)

theorem unhold_keeps (hk : Keeps σ τ) (p v : Nat) : Keeps σ (τ.unhold p v) := by
  unfold State.unhold
  repeat' with_reducible (first
    | assumption | (intro _ _ _) | apply uncount_keeps | apply ite_keeps | simp only [keeps_mk] | apply Keeps.parts
    | split | dsimp only)

theorem refillBucket_keeps (hk : Keeps σ τ) (k : Bucket) (p v : Nat) : Keeps σ (τ.refillBucket k p v) := by
  unfold State.refillBucket
  repeat' with_reducible (first
    | assumption | (intro _ _ _) | apply applyBucket_keeps | apply setTokens_keeps | apply setWaiting_keeps | apply unhold_keeps
    | apply ite_keeps | simp only [keeps_mk] | apply Keeps.parts | split | dsimp only)

theorem refillDie_keeps (hk : Keeps σ τ) (die : Nat) : Keeps σ (τ.refillDie die) := by
  unfold State.refillDie
  repeat' with_reducible (first
    | assumption | (intro _ _ _) | apply refillBucket_keeps | apply each_keeps' | apply ite_keeps | dsimp only)

theorem police_keeps (hk : Keeps σ τ) (p v len : Nat) : Keeps σ (τ.police p v len).2 := by
  unfold State.police
  repeat' with_reducible (first
    | assumption | (intro _ _ _) | apply inc_keeps | apply mark_keeps | apply setTokens_keeps | apply ite_keeps
    | simp only [keeps_mk] | apply Keeps.parts | split | dsimp only)

theorem police_keeps_eq {p v len : Nat} {y} (he : τ.police p v len = (y, υ)) (hk : Keeps σ τ) : Keeps σ υ := by
  have := police_keeps hk p v len
  rwa [he] at this

theorem shaperCharge_keeps (hk : Keeps σ τ) (p v len : Nat) : Keeps σ (τ.shaperCharge p v len) := by
  unfold State.shaperCharge
  repeat' with_reducible (first
    | assumption | (intro _ _ _) | apply inc_keeps | apply mark_keeps | apply setTokens_keeps | apply ite_keeps
    | split | dsimp only)

theorem writeMirror_keeps (hk : Keeps σ τ) (m value : Nat) : Keeps σ (τ.writeMirror m value) := by
  unfold State.writeMirror
  repeat' with_reducible (first
    | assumption | (intro _ _ _) | apply wrNext_keeps | apply ite_keeps | simp only [keeps_mk] | apply Keeps.parts
    | split | dsimp only)

theorem setBank_keeps (hk : Keeps σ τ) (p b : Nat) : Keeps σ (τ.setBank p b) := by
  unfold State.setBank
  repeat' with_reducible (first
    | assumption | (intro _ _ _) | apply wr_keeps | apply ite_keeps | dsimp only)

theorem roundStartOp_keeps (hk : Keeps σ τ)  : Keeps σ (τ.roundStartOp) := by
  unfold State.roundStartOp
  repeat' with_reducible (first
    | assumption | (intro _ _ _) | apply inc_keeps | apply incWrap_keeps | apply wr_keeps | apply ite_keeps
    | simp only [keeps_mk] | apply Keeps.parts | split | dsimp only)

theorem degradeSwitch_keeps (hk : Keeps σ τ) (changing : List Nat) : Keeps σ (τ.degradeSwitch changing) := by
  unfold State.degradeSwitch
  repeat' with_reducible (first
    | assumption | (intro _ _ _) | apply exactLoss_keeps | apply inc_keeps | apply setBank_keeps | apply triggerOther_keeps
    | apply wr_keeps | apply each_keeps' | apply ite_keeps | simp only [keeps_mk] | apply Keeps.parts | dsimp only)

theorem numbered_keeps (hk : Keeps σ τ) (p : Nat) (h : SwHeader) : Keeps σ (τ.numbered p h).2 := by
  unfold State.numbered
  repeat' with_reducible (first
    | assumption | (intro _ _ _) | apply nextSeq_keeps | refine nextSeq_keeps_eq ‹_› ?_ | apply ite_keeps | simp only [keeps_mk]
    | apply Keeps.parts | split | dsimp only)

theorem numbered_keeps_eq {p : Nat} {h : SwHeader} {y} (he : τ.numbered p h = (y, υ)) (hk : Keeps σ τ) : Keeps σ υ := by
  have := numbered_keeps hk p h
  rwa [he] at this

theorem sent_keeps (hk : Keeps σ τ) (p ptr : Nat) (own : Option SwHeader) : Keeps σ (τ.sent p ptr own).2.2 := by
  unfold State.sent
  split
  · exact numbered_keeps hk _ _
  · exact hk

theorem sent_keeps_eq {p ptr : Nat} {own : Option SwHeader} {y z} (he : τ.sent p ptr own = (y, z, υ)) (hk : Keeps σ τ) :
    Keeps σ υ := by
  have := sent_keeps hk p ptr own
  rwa [he] at this

theorem startFrame_keeps (hk : Keeps σ τ) (p : Nat) (sched : Bool) (vc : Nat) (item : Item) (header : SwHeader) (ptr account : Nat) (session : Option Nat) (origin : Origin) : Keeps σ (τ.startFrame p sched vc item header ptr account session origin) := by
  unfold State.startFrame
  repeat' with_reducible (first
    | assumption | (intro _ _ _) | apply ite_keeps | simp only [keeps_mk] | apply Keeps.parts | dsimp only)

theorem schedStart_keeps (hk : Keeps σ τ) (p : Nat) : Keeps σ (τ.schedStart p) := by
  unfold State.schedStart
  repeat' with_reducible (first
    | assumption | (intro _ _ _) | apply countAccess_keeps | apply inc_keeps | apply sent_keeps | refine sent_keeps_eq ‹_› ?_
    | apply startFrame_keeps | apply ite_keeps | simp only [keeps_mk] | apply Keeps.parts | split | dsimp only)

theorem setEntry_keeps (hk : Keeps σ τ) (p : Nat) (e e' : OppEntry) : Keeps σ (τ.setEntry p e e') := by
  unfold State.setEntry
  repeat' with_reducible (first
    | assumption | (intro _ _ _) | apply ite_keeps | simp only [keeps_mk] | apply Keeps.parts | split
    | dsimp only)

theorem oppHolds_keeps (hk : Keeps σ τ) (p v : Nat) (first : Bool) : Keeps σ (τ.oppHolds p v first) := by
  unfold State.oppHolds
  repeat' with_reducible (first
    | assumption | (intro _ _ _) | apply inc_keeps | apply mark_keeps | apply setEntry_keeps | apply ite_keeps
    | simp only [keeps_mk] | apply Keeps.parts | split | dsimp only)

theorem oppStartVc_keeps (hk : Keeps σ τ) (p v : Nat) : Keeps σ (τ.oppStartVc p v) := by
  unfold State.oppStartVc
  repeat' with_reducible (first
    | assumption | (intro _ _ _) | apply exactLoss_keeps | apply inc_keeps | apply sent_keeps | refine sent_keeps_eq ‹_› ?_
    | apply shaperCharge_keeps | apply startFrame_keeps | apply wr_keeps | apply ite_keeps | simp only [keeps_mk] | apply Keeps.parts
    | split | dsimp only)

theorem oppStart_keeps (hk : Keeps σ τ) (p : Nat) : Keeps σ (τ.oppStart p) := by
  unfold State.oppStart
  repeat' with_reducible (first
    | assumption | (intro _ _ _) | apply oppHolds_keeps | apply oppStartVc_keeps | apply each_keeps' | apply ite_keeps
    | simp only [keeps_mk] | apply Keeps.parts | split | dsimp only)

theorem unnumber_keeps (hk : Keeps σ τ) (p : Nat) (x : Sending) : Keeps σ (τ.unnumber p x) := by
  unfold State.unnumber
  repeat' with_reducible (first
    | assumption | (intro _ _ _) | apply each_keeps' | apply ite_keeps | simp only [keeps_mk] | apply Keeps.parts
    | split | dsimp only)

theorem unstart_keeps (hk : Keeps σ τ) (p : Nat) (x : Sending) : Keeps σ (τ.unstart p x) := by
  unfold State.unstart
  repeat' with_reducible (first
    | assumption | (intro _ _ _) | apply uncount_keeps | apply unnumber_keeps | apply ite_keeps | simp only [keeps_mk]
    | apply Keeps.parts | split | dsimp only)

theorem unqueue_keeps (hk : Keeps σ τ) (p : Nat) (x : Sending) : Keeps σ (τ.unqueue p x) := by
  unfold State.unqueue
  repeat' with_reducible (first
    | assumption | (intro _ _ _) | apply uncount_keeps | apply unstart_keeps | apply each_keeps' | apply ite_keeps
    | simp only [keeps_mk] | apply Keeps.parts | split | dsimp only)

theorem cancelStart_keeps (hk : Keeps σ τ) (p : Nat) : Keeps σ (τ.cancelStart p) := by
  unfold State.cancelStart
  repeat' with_reducible (first
    | assumption | (intro _ _ _) | apply mark_keeps | apply schedStart_keeps | apply setTokens_keeps | apply uncount_keeps
    | apply unqueue_keeps | apply unstart_keeps | apply wr_keeps | apply each_keeps' | apply ite_keeps | simp only [keeps_mk]
    | apply Keeps.parts | split | dsimp only)

theorem cancelXoff_keeps (hk : Keeps σ τ) (p mask : Nat) : Keeps σ (τ.cancelXoff p mask) := by
  unfold State.cancelXoff
  repeat' with_reducible (first
    | assumption | (intro _ _ _) | apply cancelStart_keeps | apply ite_keeps | simp only [keeps_mk] | apply Keeps.parts
    | split | dsimp only)

theorem departOp_keeps (hk : Keeps σ τ) (p : Nat) : Keeps σ (τ.departOp p) := by
  unfold State.departOp
  repeat' with_reducible (first
    | assumption | (intro _ _ _) | apply decRef_keeps | apply emit_keeps | apply inc_keeps | apply noteObject_keeps
    | apply noteOutput_keeps | apply wr_keeps | apply ite_keeps | simp only [keeps_mk] | apply Keeps.parts | split
    | dsimp only)

theorem insUncorr_keeps (hk : Keeps σ τ) (cell : Nat) : Keeps σ (τ.insUncorr cell) := by
  unfold State.insUncorr
  repeat' with_reducible (first
    | assumption | (intro _ _ _) | apply exactLoss_keeps | apply inc_keeps | apply raise_keeps | apply wr_keeps
    | apply ite_keeps | dsimp only)

theorem loseEntry_keeps (hk : Keeps σ τ) (e : OppEntry) (p : Nat) : Keeps σ (τ.loseEntry e p) := by
  unfold State.loseEntry
  repeat' with_reducible (first
    | assumption | (intro _ _ _) | apply decRef_keeps | apply noteEntry_keeps | apply wr_keeps | apply ite_keeps
    | simp only [keeps_mk] | apply Keeps.parts | split | dsimp only)

theorem applyMatch_keeps {w : MatchWork} (hk : Keeps σ w.state) (first : Bool) (r : MatchReq) :
    Keeps σ (applyMatch w first r).state := inc_keeps (keeps_mk.mpr hk.parts) _ _ _ _

theorem matchIteration_keeps {w : MatchWork} (hk : Keeps σ w.state) (first : Bool) :
    Keeps σ (matchIteration w first).state := by
  rw [matchIteration]
  generalize List.range 256 = l
  generalize List.range 8 = l'
  split
  next w' grants hf =>
    have hw : Keeps σ (w', grants).1.state := by
      rw [← hf]
      refine foldl_keeps (fun (acc : MatchWork × List MatchReq) => acc.1.state) hk (fun c a hc => ?_)
      beta_reduce
      split
      · exact hc
      · exact hc
    exact foldl_keeps MatchWork.state hw (fun c d hc =>
      foldl_keeps MatchWork.state hc (fun x g hx => applyMatch_keeps hx _ _))

theorem matchRound_keeps (hk : Keeps σ τ)  : Keeps σ (τ.matchRound) := by
  unfold State.matchRound
  repeat' with_reducible (first
    | assumption | (intro _ _ _) | apply inc_keeps | apply matchIteration_keeps | apply foldl_keeps_fst | apply foldl_keeps_snd
    | refine foldl_keeps_fst_eq ‹_› ?_ ?_ | refine foldl_keeps_snd_eq ‹_› ?_ ?_ | apply ite_keeps | dsimp only)

theorem oppRead_keeps (hk : Keeps σ τ) (p : Nat) (bad : Option Nat) : Keeps σ (τ.oppRead p bad) := by
  unfold State.oppRead
  repeat' with_reducible (first
    | assumption | (intro _ _ _) | apply countAccess_keeps | apply insUncorr_keeps | apply loseEntry_keeps | apply setEntry_keeps
    | apply each_keeps' | apply ite_keeps | simp only [keeps_mk] | apply Keeps.parts | split | dsimp only)

theorem undoEnqueues_keeps (hk : Keeps σ τ) (b : Nat) : Keeps σ (τ.undoEnqueues b) := by
  unfold State.undoEnqueues
  repeat' with_reducible (first
    | assumption | (intro _ _ _) | apply decRef_keeps | apply dropEntry_keeps | apply inc_keeps | apply noteOutput_keeps
    | apply uncount_keeps | apply each_keeps' | apply ite_keeps | simp only [keeps_mk] | apply Keeps.parts | split
    | dsimp only)

theorem fenceUp_keeps (hk : Keeps σ τ) (p : Nat) : Keeps σ (τ.fenceUp p) := by
  unfold State.fenceUp
  repeat' with_reducible (first
    | assumption | (intro _ _ _) | apply askDegraded_keeps | apply cancelStart_keeps | apply undoEnqueues_keeps | apply ite_keeps
    | simp only [keeps_mk] | apply Keeps.parts | split | dsimp only)

theorem fenceDown_keeps (hk : Keeps σ τ) (p : Nat) : Keeps σ (τ.fenceDown p) := by
  unfold State.fenceDown
  repeat' with_reducible (first
    | assumption | (intro _ _ _) | apply mark_keeps | apply ite_keeps | simp only [keeps_mk] | apply Keeps.parts
    | dsimp only)

theorem fenceCount_keeps (hk : Keeps σ τ)  : Keeps σ (τ.fenceCount) := by
  unfold State.fenceCount
  repeat' with_reducible (first
    | assumption | (intro _ _ _) | apply exactLossNoted_keeps | apply exactUndo_keeps | apply inc_keeps | apply mark_keeps
    | apply noteWas_keeps | apply restoreWas_keeps | apply ite_keeps | simp only [keeps_mk] | apply Keeps.parts | split
    | dsimp only)

theorem setFences_keeps (hk : Keeps σ τ) (f : Nat → Bool) : Keeps σ (τ.setFences f) := by
  unfold State.setFences
  repeat' with_reducible (first
    | assumption | (intro _ _ _) | apply fenceCount_keeps | apply fenceDown_keeps | apply fenceUp_keeps | apply noteWas_keeps
    | apply syncFailing_keeps | apply syncFenced_keeps | apply wr_keeps | apply each_keeps' | apply foldl_keeps_fst | apply foldl_keeps_snd
    | refine foldl_keeps_fst_eq ‹_› ?_ ?_ | refine foldl_keeps_snd_eq ‹_› ?_ ?_ | apply ite_keeps | split | dsimp only)

theorem hwFence_keeps (hk : Keeps σ τ) (p : Nat) : Keeps σ (τ.hwFence p) := by
  unfold State.hwFence
  repeat' with_reducible (first
    | assumption | (intro _ _ _) | apply mark_keeps | apply setFences_keeps | apply ite_keeps | dsimp only)

theorem swFence_keeps (hk : Keeps σ τ) (i v : Nat) : Keeps σ (τ.swFence i v) := by
  unfold State.swFence
  repeat' with_reducible (first
    | assumption | (intro _ _ _) | apply setFences_keeps | apply ite_keeps | split | dsimp only)

theorem unfence_keeps (hk : Keeps σ τ) (ps : List Nat) : Keeps σ (τ.unfence ps) := by
  unfold State.unfence
  repeat' with_reducible (first
    | assumption | (intro _ _ _) | apply setFences_keeps | apply ite_keeps | dsimp only)

theorem dropUndecl_keeps (hk : Keeps σ τ) (port x : Nat) : Keeps σ (τ.dropUndecl port x) := by
  unfold State.dropUndecl
  repeat' with_reducible (first
    | assumption | (intro _ _ _) | apply inc_keeps | apply wr_keeps | apply ite_keeps | dsimp only)

theorem setPort_keeps (hk : Keeps σ τ) (p : Nat) (f : Port → Port) : Keeps σ (τ.setPort p f) := by
  unfold State.setPort
  repeat' with_reducible (first
    | assumption | (intro _ _ _) | apply ite_keeps | simp only [keeps_mk] | apply Keeps.parts | dsimp only)

theorem syncFifo_keeps (hk : Keeps σ τ) (p : Nat) : Keeps σ (τ.syncFifo p) := by
  unfold State.syncFifo
  repeat' with_reducible (first
    | assumption | (intro _ _ _) | apply wr_keeps | apply ite_keeps | dsimp only)

theorem syncXoff_keeps (hk : Keeps σ τ) (p : Nat) : Keeps σ (τ.syncXoff p) := by
  unfold State.syncXoff
  repeat' with_reducible (first
    | assumption | (intro _ _ _) | apply setPort_keeps | apply wr_keeps | apply foldl_keeps_fst | apply foldl_keeps_snd
    | refine foldl_keeps_fst_eq ‹_› ?_ ?_ | refine foldl_keeps_snd_eq ‹_› ?_ ?_ | apply ite_keeps | simp only [keeps_mk] | apply Keeps.parts | split
    | dsimp only)

theorem fifoAdd_keeps (hk : Keeps σ τ) (p v len : Nat) : Keeps σ (τ.fifoAdd p v len) := by
  unfold State.fifoAdd
  repeat' with_reducible (first
    | assumption | (intro _ _ _) | apply setPort_keeps | apply syncFifo_keeps | apply ite_keeps | simp only [keeps_mk]
    | apply Keeps.parts | dsimp only)

theorem returnCredits_keeps (hk : Keeps σ τ) (p v len : Nat) : Keeps σ (τ.returnCredits p v len) := by
  unfold State.returnCredits
  repeat' with_reducible (first
    | assumption | (intro _ _ _) | apply setPort_keeps | apply wr_keeps | apply ite_keeps | simp only [keeps_mk]
    | apply Keeps.parts | split | dsimp only)

theorem fifoRemove_keeps (hk : Keeps σ τ) (p v len : Nat) : Keeps σ (τ.fifoRemove p v len) := by
  unfold State.fifoRemove
  repeat' with_reducible (first
    | assumption | (intro _ _ _) | apply returnCredits_keeps | apply setPort_keeps | apply syncFifo_keeps | apply ite_keeps
    | simp only [keeps_mk] | apply Keeps.parts | dsimp only)

theorem release_keeps (hk : Keeps σ τ) (p : Nat) (item : Item) (vc : Option Nat) (off : Bool) : Keeps σ (τ.release p item vc off) := by
  unfold State.release
  repeat' with_reducible (first
    | assumption | (intro _ _ _) | apply request_keeps | apply ite_keeps | dsimp only)

theorem landOp_keeps (hk : Keeps σ τ) (p : Nat) : Keeps σ (τ.landOp p) := by
  unfold State.landOp
  repeat' with_reducible (first
    | assumption | (intro _ _ _) | apply exactLoss_keeps | apply inc_keeps | apply release_keeps | apply ite_keeps
    | simp only [keeps_mk] | apply Keeps.parts | split | dsimp only)

theorem reseqPut_keeps (hk : Keeps σ τ) (d : Nat) (a : Arrived) : Keeps σ (τ.reseqPut d a) := by
  unfold State.reseqPut
  repeat' with_reducible (first
    | assumption | (intro _ _ _) | apply ite_keeps | simp only [keeps_mk] | apply Keeps.parts | dsimp only)

theorem arrived_keeps (hk : Keeps σ τ) (port ptr account : Nat) (vc : Option Nat) (tier : Bool) (item : Item) : Keeps σ (τ.arrived port ptr account vc tier item) := by
  unfold State.arrived
  repeat' with_reducible (first
    | assumption | (intro _ _ _) | apply countAccess_keeps | apply freeObj_keeps | apply reseqPut_keeps | apply ite_keeps
    | simp only [keeps_mk] | apply Keeps.parts | split | dsimp only)

theorem allocServe_keeps (hk : Keeps σ τ) (k : Nat) : Keeps σ (τ.allocServe k) := by
  unfold State.allocServe
  repeat' with_reducible (first
    | assumption | (intro _ _ _) | apply addRefs_keeps | apply alloc_keeps | refine alloc_keeps_eq ‹_› ?_ | apply arrived_keeps
    | apply countWrite_keeps | apply dropObj_keeps | apply emit_keeps | apply fifoRemove_keeps | apply forward_keeps | apply mirrorAll_keeps
    | apply multicast_keeps | apply output_keeps | apply pushVoq_keeps | apply ite_keeps | simp only [keeps_mk] | apply Keeps.parts
    | split | dsimp only)

theorem allocExpire_keeps (hk : Keeps σ τ) (k : Nat) : Keeps σ (τ.allocExpire k) := by
  unfold State.allocExpire
  repeat' with_reducible (first
    | assumption | (intro _ _ _) | apply bpmDrop_keeps | apply fifoRemove_keeps | apply inc_keeps | apply latch_keeps
    | apply raise_keeps | apply ite_keeps | simp only [keeps_mk] | apply Keeps.parts | split | dsimp only)

theorem handoff_keeps (hk : Keeps σ τ)  : Keeps σ (τ.handoff) := by
  unfold State.handoff
  repeat' with_reducible (first
    | assumption | (intro _ _ _) | apply reseqPut_keeps | apply ite_keeps | simp only [keeps_mk] | apply Keeps.parts
    | split | dsimp only)

theorem syncReseq_keeps (hk : Keeps σ τ) (d : Nat) : Keeps σ (τ.syncReseq d) := by
  unfold State.syncReseq
  repeat' with_reducible (first
    | assumption | (intro _ _ _) | apply wr_keeps | apply foldl_keeps_fst | apply foldl_keeps_snd | refine foldl_keeps_fst_eq ‹_› ?_ ?_
    | refine foldl_keeps_snd_eq ‹_› ?_ ?_ | apply ite_keeps | dsimp only)

theorem releaseSwatch_keeps (hk : Keeps σ τ) (a : Arrived) : Keeps σ (τ.releaseSwatch a) := by
  unfold State.releaseSwatch
  repeat' with_reducible (first
    | assumption | (intro _ _ _) | apply ite_keeps | simp only [keeps_mk] | apply Keeps.parts | dsimp only)

theorem dropArrived_keeps (hk : Keeps σ τ) (a : Arrived) : Keeps σ (τ.dropArrived a) := by
  unfold State.dropArrived
  repeat' with_reducible (first
    | assumption | (intro _ _ _) | apply dropObj_keeps | apply ite_keeps | dsimp only)

theorem dropDesc_keeps (hk : Keeps σ τ) (b : ArrivedDesc) : Keeps σ (τ.dropDesc b) := by
  unfold State.dropDesc
  repeat' with_reducible (first
    | assumption | (intro _ _ _) | apply dropObj_keeps | apply ite_keeps | dsimp only)

theorem setStreams_keeps (hk : Keeps σ τ) (d : Nat) (l : List Stream) : Keeps σ (τ.setStreams d l) := by
  unfold State.setStreams
  repeat' with_reducible (first
    | assumption | (intro _ _ _) | apply syncReseq_keeps | apply ite_keeps | simp only [keeps_mk] | apply Keeps.parts
    | dsimp only)

theorem resequence_keeps (hk : Keeps σ τ) (d : Nat) : Keeps σ (τ.resequence d) := by
  unfold State.resequence
  repeat' with_reducible (first
    | assumption | (intro _ _ _) | apply dropArrived_keeps | apply dropUndecl_keeps | apply exactLoss_keeps | apply inc_keeps
    | apply raise_keeps | apply releaseSwatch_keeps | apply setStreams_keeps | apply ite_keeps | simp only [keeps_mk] | apply Keeps.parts
    | split | dsimp only)

theorem releaseHeld_keeps (hk : Keeps σ τ) (d : Nat) : Keeps σ (τ.releaseHeld d) := by
  unfold State.releaseHeld
  repeat' with_reducible (first
    | assumption | (intro _ _ _) | apply releaseSwatch_keeps | apply setStreams_keeps | apply ite_keeps | simp only [keeps_mk]
    | apply Keeps.parts | split | dsimp only)

theorem freeStreams_keeps (hk : Keeps σ τ) (x opnum : Nat) : Keeps σ (τ.freeStreams x opnum) := by
  unfold State.freeStreams
  repeat' with_reducible (first
    | assumption | (intro _ _ _) | apply dropArrived_keeps | apply setStreams_keeps | apply each_keeps' | apply ite_keeps
    | split | dsimp only)

theorem freeAllStreams_keeps (hk : Keeps σ τ)  : Keeps σ (τ.freeAllStreams) := by
  unfold State.freeAllStreams
  repeat' with_reducible (first
    | assumption | (intro _ _ _) | apply dropArrived_keeps | apply setStreams_keeps | apply each_keeps' | apply ite_keeps
    | dsimp only)

end Sys2Proof.Machine
end

