-- ==== Sys2Proof/Laws/KeepsLink.lean ====
section
/-!
SUPPORT. `Keeps` for the operations of Link.
-/

namespace Sys2Proof.Machine

set_option Elab.async false
set_option linter.unusedTactic false
set_option linter.unreachableTactic false
set_option linter.unusedSimpArgs false

variable {σ τ υ : State}

theorem setLane_keeps (hk : Keeps σ τ) (p k : Nat) (l : Lane) : Keeps σ (τ.setLane p k l) := by
  unfold State.setLane
  repeat' with_reducible (first
    | assumption | (intro _ _ _) | apply ite_keeps | simp only [keeps_mk] | apply Keeps.parts | dsimp only)

theorem syncLock_keeps (hk : Keeps σ τ) (p : Nat) : Keeps σ (τ.syncLock p) := by
  unfold State.syncLock
  repeat' with_reducible (first
    | assumption | (intro _ _ _) | apply wr_keeps | apply foldl_keeps_fst | apply foldl_keeps_snd | refine foldl_keeps_fst_eq ‹_› ?_ ?_
    | refine foldl_keeps_snd_eq ‹_› ?_ ?_ | apply ite_keeps | split | dsimp only)

theorem huntAll_keeps (hk : Keeps σ τ) (p : Nat) : Keeps σ (τ.huntAll p) := by
  unfold State.huntAll
  repeat' with_reducible (first
    | assumption | (intro _ _ _) | apply setLane_keeps | apply syncLock_keeps | apply each_keeps' | apply ite_keeps
    | dsimp only)

theorem syncLink_keeps (hk : Keeps σ τ) (p : Nat) : Keeps σ (τ.syncLink p) := by
  unfold State.syncLink
  repeat' with_reducible (first
    | assumption | (intro _ _ _) | apply huntAll_keeps | apply wr_keeps | apply ite_keeps | split
    | dsimp only)

theorem syncDiscSum_keeps (hk : Keeps σ τ)  : Keeps σ (τ.syncDiscSum) := by
  unfold State.syncDiscSum
  repeat' with_reducible (first
    | assumption | (intro _ _ _) | apply wr_keeps | apply ite_keeps | dsimp only)

theorem syncPresent_keeps (hk : Keeps σ τ)  : Keeps σ (τ.syncPresent) := by
  unfold State.syncPresent
  repeat' with_reducible (first
    | assumption | (intro _ _ _) | apply syncFailing_keeps | apply wr_keeps | apply each_keeps' | apply ite_keeps
    | dsimp only)

theorem syncReplace_keeps (hk : Keeps σ τ)  : Keeps σ (τ.syncReplace) := by
  unfold State.syncReplace
  repeat' with_reducible (first
    | assumption | (intro _ _ _) | apply wr_keeps | apply each_keeps' | apply ite_keeps | simp only [keeps_mk]
    | apply Keeps.parts | split | dsimp only)

theorem setOutcome_keeps (hk : Keeps σ τ) (p o : Nat) : Keeps σ (τ.setOutcome p o) := by
  unfold State.setOutcome
  repeat' with_reducible (first
    | assumption | (intro _ _ _) | apply inc_keeps | apply syncDiscSum_keeps | apply syncPresent_keeps | apply syncReplace_keeps
    | apply trigger_keeps | apply wr_keeps | apply ite_keeps | split | dsimp only)

theorem portDown_keeps (hk : Keeps σ τ) (p : Nat) : Keeps σ (τ.portDown p) := by
  unfold State.portDown
  repeat' with_reducible (first
    | assumption | (intro _ _ _) | apply hwFence_keeps | apply inc_keeps | apply raise_keeps | apply setOutcome_keeps
    | apply setPort_keeps | apply syncDiscSum_keeps | apply syncLink_keeps | apply wr_keeps | apply ite_keeps | simp only [keeps_mk]
    | apply Keeps.parts | split | dsimp only)

theorem leaveUp_keeps (hk : Keeps σ τ) (p : Nat) : Keeps σ (τ.leaveUp p) := by
  unfold State.leaveUp
  repeat' with_reducible (first
    | assumption | (intro _ _ _) | apply portDown_keeps | apply ite_keeps | simp only [keeps_mk] | apply Keeps.parts
    | split | dsimp only)

theorem leaveUps_keeps (hk : Keeps σ τ)  : Keeps σ (τ.leaveUps) := by
  unfold State.leaveUps
  repeat' with_reducible (first
    | assumption | (intro _ _ _) | apply leaveUp_keeps | apply each_keeps' | apply ite_keeps | simp only [keeps_mk]
    | apply Keeps.parts | dsimp only)

theorem commaBlock_keeps (hk : Keeps σ τ) (p k : Nat) (found : Option Nat) : Keeps σ (τ.commaBlock p k found) := by
  unfold State.commaBlock
  repeat' with_reducible (first
    | assumption | (intro _ _ _) | apply setLane_keeps | apply syncLink_keeps | apply syncLock_keeps | apply ite_keeps
    | simp only [keeps_mk] | apply Keeps.parts | split | dsimp only)

theorem lossOfSignal_keeps (hk : Keeps σ τ) (p k : Nat) : Keeps σ (τ.lossOfSignal p k) := by
  unfold State.lossOfSignal
  repeat' with_reducible (first
    | assumption | (intro _ _ _) | apply setLane_keeps | apply syncLink_keeps | apply syncLock_keeps | apply ite_keeps
    | simp only [keeps_mk] | apply Keeps.parts | dsimp only)

theorem takePayload_keeps (hk : Keeps σ τ) (p k payload : Nat) (uncorr : Bool) : Keeps σ (τ.takePayload p k payload uncorr) := by
  unfold State.takePayload
  repeat' with_reducible (first
    | assumption | (intro _ _ _) | apply setLane_keeps | apply ite_keeps | simp only [keeps_mk] | apply Keeps.parts
    | split | dsimp only)

theorem codeword_keeps (hk : Keeps σ τ) (p l : Nat) (corrected : Option Nat) (payload : Nat) : Keeps σ (τ.codeword p l corrected payload) := by
  unfold State.codeword
  repeat' with_reducible (first
    | assumption | (intro _ _ _) | apply inc_keeps | apply setLane_keeps | apply setPort_keeps | apply syncLink_keeps
    | apply syncLock_keeps | apply takePayload_keeps | apply ite_keeps | simp only [keeps_mk] | apply Keeps.parts | split
    | dsimp only)

theorem fecSecond_keeps (hk : Keeps σ τ)  : Keeps σ (τ.fecSecond) := by
  unfold State.fecSecond
  repeat' with_reducible (first
    | assumption | (intro _ _ _) | apply raise_keeps | apply setPort_keeps | apply wr_keeps | apply each_keeps'
    | apply foldl_keeps_fst | apply foldl_keeps_snd | refine foldl_keeps_fst_eq ‹_› ?_ ?_ | refine foldl_keeps_snd_eq ‹_› ?_ ?_ | apply ite_keeps | simp only [keeps_mk]
    | apply Keeps.parts | split | dsimp only)

theorem grantCredits_keeps (hk : Keeps σ τ) (p : Nat) : Keeps σ (τ.grantCredits p) := by
  rw [State.grantCredits]
  exact foldl_keeps (fun (acc : Nat × State) => acc.2) hk (fun c v hc => wr_keeps hc _ _ _ _)

theorem deskew_keeps (hk : Keeps σ τ) (p : Nat) (granted : List Nat) : Keeps σ (τ.deskew p granted) := by
  unfold State.deskew
  repeat' with_reducible (first
    | assumption | (intro _ _ _) | apply arrived_keeps | apply grantCredits_keeps | apply huntAll_keeps | apply inc_keeps
    | apply setLane_keeps | apply setOutcome_keeps | apply setPort_keeps | apply syncLink_keeps | apply wr_keeps | apply each_keeps'
    | apply foldl_keeps_fst | apply foldl_keeps_snd | refine foldl_keeps_fst_eq ‹_› ?_ ?_ | refine foldl_keeps_snd_eq ‹_› ?_ ?_ | apply ite_keeps | simp only [keeps_mk]
    | apply Keeps.parts | split | dsimp only)

theorem realign_keeps (hk : Keeps σ τ) (p : Nat) : Keeps σ (τ.realign p) := by
  unfold State.realign
  repeat' with_reducible (first
    | assumption | (intro _ _ _) | apply huntAll_keeps | apply portDown_keeps | apply syncLink_keeps | apply ite_keeps
    | dsimp only)

theorem setEnable_keeps (hk : Keeps σ τ) (p : Nat) (en : Bool) : Keeps σ (τ.setEnable p en) := by
  unfold State.setEnable
  repeat' with_reducible (first
    | assumption | (intro _ _ _) | apply hwFence_keeps | apply portDown_keeps | apply realign_keeps | apply syncLink_keeps
    | apply wr_keeps | apply ite_keeps | split | dsimp only)

theorem setRate_keeps (hk : Keeps σ τ) (p rate : Nat) : Keeps σ (τ.setRate p rate) := by
  unfold State.setRate
  repeat' with_reducible (first
    | assumption | (intro _ _ _) | apply realign_keeps | apply wr_keeps | apply ite_keeps | split
    | dsimp only)

theorem nextBlock_keeps {p : Nat} {y} (he : τ.nextBlock p = some y) (hk : Keeps σ τ) : Keeps σ y.2 := by
  unfold State.nextBlock at he
  try dsimp only at he
  repeat' split at he
  all_goals cases he
  all_goals repeat' with_reducible (first
    | assumption | (intro _ _ _) | apply setLane_keeps | apply setPort_keeps | apply ite_keeps | simp only [keeps_mk]
    | apply Keeps.parts | split | dsimp only)

theorem dataBlock_keeps (hk : Keeps σ τ) (p : Nat) (b : RxBlock) : Keeps σ (τ.dataBlock p b) := by
  unfold State.dataBlock
  repeat' with_reducible (first
    | assumption | (intro _ _ _) | apply inc_keeps | refine nextBlock_keeps ‹_› ?_ | apply setPort_keeps | apply syncFifo_keeps
    | apply ite_keeps | simp only [keeps_mk] | apply Keeps.parts | split | dsimp only)

theorem controlBlock_keeps (hk : Keeps σ τ) (p : Nat) (b : RxBlock) : Keeps σ (τ.controlBlock p b) := by
  unfold State.controlBlock
  repeat' with_reducible (first
    | assumption | (intro _ _ _) | apply inc_keeps | refine nextBlock_keeps ‹_› ?_ | apply setPort_keeps | apply ite_keeps
    | simp only [keeps_mk] | apply Keeps.parts | split | dsimp only)

theorem takeCtl_keeps {p t : Nat} {y} (he : τ.takeCtl p t = some y) (hk : Keeps σ τ) : Keeps σ y.2 := by
  unfold State.takeCtl at he
  try dsimp only at he
  repeat' split at he
  all_goals cases he
  all_goals repeat' with_reducible (first
    | assumption | (intro _ _ _) | apply setPort_keeps | apply ite_keeps | simp only [keeps_mk] | apply Keeps.parts
    | split | dsimp only)

theorem oppReceive_keeps (hk : Keeps σ τ) (p : Nat) (f : Frame) (dst : Option Nat) : Keeps σ (τ.oppReceive p f dst) := by
  unfold State.oppReceive
  repeat' with_reducible (first
    | assumption | (intro _ _ _) | apply bpmDrop_keeps | apply fifoAdd_keeps | apply forward_keeps | apply police_keeps
    | refine police_keeps_eq ‹_› ?_ | apply release_keeps | apply request_keeps | apply returnCredits_keeps | apply ite_keeps | simp only [keeps_mk]
    | apply Keeps.parts | split | dsimp only)

theorem frameReceive_keeps (hk : Keeps σ τ) (p : Nat) (dst : Option Nat) : Keeps σ (τ.frameReceive p dst) := by
  unfold State.frameReceive
  repeat' with_reducible (first
    | assumption | (intro _ _ _) | apply inc_keeps | apply oppReceive_keeps | apply returnCredits_keeps | apply setPort_keeps
    | apply syncFifo_keeps | apply each_keeps' | apply ite_keeps | simp only [keeps_mk] | apply Keeps.parts | split
    | dsimp only)

theorem flowBlock_keeps (hk : Keeps σ τ) (p : Nat) : Keeps σ (τ.flowBlock p) := by
  unfold State.flowBlock
  repeat' with_reducible (first
    | assumption | (intro _ _ _) | apply cancelXoff_keeps | apply inc_keeps | apply setPort_keeps | refine takeCtl_keeps ‹_› ?_
    | apply wr_keeps | apply each_keeps' | apply ite_keeps | simp only [keeps_mk] | apply Keeps.parts | split
    | dsimp only)

theorem flowSend_keeps (hk : Keeps σ τ) (p : Nat) : Keeps σ (τ.flowSend p) := by
  unfold State.flowSend
  repeat' with_reducible (first
    | assumption | (intro _ _ _) | apply emit_keeps | apply setPort_keeps | apply ite_keeps | simp only [keeps_mk]
    | apply Keeps.parts | split | dsimp only)

theorem fcStall_keeps (hk : Keeps σ τ) (p v : Nat) : Keeps σ (τ.fcStall p v) := by
  unfold State.fcStall
  repeat' with_reducible (first
    | assumption | (intro _ _ _) | apply inc_keeps | apply raise_keeps | apply setPort_keeps | apply ite_keeps
    | simp only [keeps_mk] | apply Keeps.parts | split | dsimp only)

theorem writeTest_keeps (hk : Keeps σ τ) (p loop gen chk : Nat) : Keeps σ (τ.writeTest p loop gen chk) := by
  unfold State.writeTest
  repeat' with_reducible (first
    | assumption | (intro _ _ _) | apply huntAll_keeps | apply hwFence_keeps | apply inc_keeps | apply portDown_keeps
    | apply realign_keeps | apply setLane_keeps | apply wr_keeps | apply each_keeps' | apply ite_keeps | simp only [keeps_mk]
    | apply Keeps.parts | split | dsimp only)

theorem prbsSymbol_keeps (hk : Keeps σ τ) (p l level : Nat) : Keeps σ (τ.prbsSymbol p l level) := by
  unfold State.prbsSymbol
  repeat' with_reducible (first
    | assumption | (intro _ _ _) | apply inc_keeps | apply setLane_keeps | apply wr_keeps | apply ite_keeps
    | simp only [keeps_mk] | apply Keeps.parts | split | dsimp only)

theorem testSymbols_keeps (hk : Keeps σ τ) (p l : Nat) (levels : List Nat) : Keeps σ (τ.testSymbols p l levels) := by
  unfold State.testSymbols
  repeat' with_reducible (first
    | assumption | (intro _ _ _) | apply emit_keeps | apply prbsSymbol_keeps | apply setLane_keeps | apply each_keeps'
    | apply ite_keeps | simp only [keeps_mk] | apply Keeps.parts | split | dsimp only)

theorem setLaser_keeps (hk : Keeps σ τ) (e : Nat) (f : Laser → Laser) : Keeps σ (τ.setLaser e f) := by
  unfold State.setLaser
  repeat' with_reducible (first
    | assumption | (intro _ _ _) | apply ite_keeps | simp only [keeps_mk] | apply Keeps.parts | dsimp only)

theorem syncLight_keeps (hk : Keeps σ τ) (e : Nat) : Keeps σ (τ.syncLight e) := by
  unfold State.syncLight
  repeat' with_reducible (first
    | assumption | (intro _ _ _) | apply portDown_keeps | apply realign_keeps | apply syncLink_keeps | apply each_keeps'
    | apply ite_keeps | split | dsimp only)

theorem setLaserEnable_keeps (hk : Keeps σ τ) (e : Nat) (en : Bool) : Keeps σ (τ.setLaserEnable e en) := by
  unfold State.setLaserEnable
  repeat' with_reducible (first
    | assumption | (intro _ _ _) | apply setLaser_keeps | apply syncLight_keeps | apply wr_keeps | apply ite_keeps
    | simp only [keeps_mk] | apply Keeps.parts | split | dsimp only)

theorem writeLaserEnable_keeps (hk : Keeps σ τ) (e : Nat) (en : Bool) : Keeps σ (τ.writeLaserEnable e en) := by
  unfold State.writeLaserEnable
  repeat' with_reducible (first
    | assumption | (intro _ _ _) | apply setLaserEnable_keeps | apply ite_keeps | split | dsimp only)

theorem laserSample_keeps (hk : Keeps σ τ) (e : Nat) (presLow fltLow : Bool) : Keeps σ (τ.laserSample e presLow fltLow) := by
  unfold State.laserSample
  repeat' with_reducible (first
    | assumption | (intro _ _ _) | apply raise_keeps | apply setLaser_keeps | apply setLaserEnable_keeps | apply wr_keeps
    | apply ite_keeps | simp only [keeps_mk] | apply Keeps.parts | split | dsimp only)

theorem laserRead_keeps (hk : Keeps σ τ) (e temp : Nat) (bias power : List Nat) : Keeps σ (τ.laserRead e temp bias power) := by
  unfold State.laserRead
  repeat' with_reducible (first
    | assumption | (intro _ _ _) | apply raise_keeps | apply setLaser_keeps | apply setLevel_keeps | apply wr_keeps
    | apply each_keeps' | apply ite_keeps | simp only [keeps_mk] | apply Keeps.parts | split | dsimp only)

end Sys2Proof.Machine
end

