-- ==== Sys2Proof/Laws/KeepsCluster.lean ====
section
/-!
SUPPORT. `Keeps` for the operations of Units, Clusters, Collective, Exchange.
-/

namespace Sys2Proof.Machine

set_option Elab.async false
set_option linter.unusedTactic false
set_option linter.unreachableTactic false
set_option linter.unusedSimpArgs false

variable {σ τ υ : State}

theorem setOp_keeps (hk : Keeps σ τ) (x : Nat) (f : OpCtx → OpCtx) : Keeps σ (τ.setOp x f) := by
  unfold State.setOp
  repeat' with_reducible (first
    | assumption | (intro _ _ _) | apply ite_keeps | simp only [keeps_mk] | apply Keeps.parts | dsimp only)

theorem zeroAll_keeps (hk : Keeps σ τ) (f : Fld) : Keeps σ (τ.zeroAll f) := by
  unfold State.zeroAll
  repeat' with_reducible (first
    | assumption | (intro _ _ _) | apply wr_keeps | apply each_keeps' | apply ite_keeps | dsimp only)

theorem setLost_keeps (hk : Keeps σ τ) (t g : Nat) (l : List Nat) : Keeps σ (τ.setLost t g l) := by
  unfold State.setLost
  repeat' with_reducible (first
    | assumption | (intro _ _ _) | apply wr_keeps | apply foldl_keeps_fst | apply foldl_keeps_snd | refine foldl_keeps_fst_eq ‹_› ?_ ?_
    | refine foldl_keeps_snd_eq ‹_› ?_ ?_ | apply ite_keeps | simp only [keeps_mk] | apply Keeps.parts | dsimp only)

theorem syncClusters_keeps (hk : Keeps σ τ)  : Keeps σ (τ.syncClusters) := by
  unfold State.syncClusters
  repeat' with_reducible (first
    | assumption | (intro _ _ _) | apply wr_keeps | apply ite_keeps | dsimp only)

theorem syncMap_keeps (hk : Keeps σ τ)  : Keeps σ (τ.syncMap) := by
  unfold State.syncMap
  repeat' with_reducible (first
    | assumption | (intro _ _ _) | apply wr_keeps | apply each_keeps' | apply ite_keeps | dsimp only)

theorem mapChange_keeps (hk : Keeps σ τ)  : Keeps σ (τ.mapChange) := by
  unfold State.mapChange
  repeat' with_reducible (first
    | assumption | (intro _ _ _) | apply inc_keeps | apply mark_keeps | apply syncMap_keeps | apply trigger_keeps
    | apply ite_keeps | split | dsimp only)

theorem setOwners_keeps (hk : Keeps σ τ) (l : List Nat) : Keeps σ (τ.setOwners l) := by
  unfold State.setOwners
  repeat' with_reducible (first
    | assumption | (intro _ _ _) | apply ite_keeps | simp only [keeps_mk] | apply Keeps.parts | dsimp only)

theorem bootOwners_keeps (hk : Keeps σ τ)  : Keeps σ (τ.bootOwners) := by
  unfold State.bootOwners
  repeat' with_reducible (first
    | assumption | (intro _ _ _) | apply setOwners_keeps | apply ite_keeps | split | dsimp only)

theorem repoint_keeps (hk : Keeps σ τ) (new : List Nat) : Keeps σ (τ.repoint new) := by
  unfold State.repoint
  repeat' with_reducible (first
    | assumption | (intro _ _ _) | apply exactLoss_keeps | apply incWrap_keeps | apply mark_keeps | apply setOwners_keeps
    | apply foldl_keeps_fst | apply foldl_keeps_snd | refine foldl_keeps_fst_eq ‹_› ?_ ?_ | refine foldl_keeps_snd_eq ‹_› ?_ ?_ | apply ite_keeps | simp only [keeps_mk]
    | apply Keeps.parts | split | dsimp only)

theorem unmapLogical_keeps (hk : Keeps σ τ) (l : Nat) : Keeps σ (τ.unmapLogical l) := by
  unfold State.unmapLogical
  repeat' with_reducible (first
    | assumption | (intro _ _ _) | apply wr_keeps | apply ite_keeps | dsimp only)

theorem substitute_keeps (hk : Keeps σ τ) (k : Nat) : Keeps σ (τ.substitute k).1 := by
  unfold State.substitute
  repeat' with_reducible (first
    | assumption | (intro _ _ _) | apply exactLoss_keeps | apply inc_keeps | apply mark_keeps | apply raise_keeps
    | apply unmapLogical_keeps | apply wr_keeps | apply ite_keeps | simp only [keeps_mk] | apply Keeps.parts | split
    | dsimp only)

theorem substitute_keeps_eq {k : Nat} {y} (he : τ.substitute k = (υ, y)) (hk : Keeps σ τ) : Keeps σ υ := by
  have := substitute_keeps hk k
  rwa [he] at this

theorem setChunk_keeps (hk : Keeps σ τ) (x c : Nat) (k : Option Chunk) : Keeps σ (τ.setChunk x c k) := by
  unfold State.setChunk
  repeat' with_reducible (first
    | assumption | (intro _ _ _) | apply ite_keeps | simp only [keeps_mk] | apply Keeps.parts | dsimp only)

theorem askSpill_keeps (hk : Keeps σ τ) (d : Nat) (j : SpillJob) : Keeps σ (τ.askSpill d j) := by
  unfold State.askSpill
  repeat' with_reducible (first
    | assumption | (intro _ _ _) | apply ite_keeps | simp only [keeps_mk] | apply Keeps.parts | dsimp only)

theorem requestAll_keeps (hk : Keeps σ τ) (x c q : Nat) (ch : Chunk) (l : NodeLack) : Keeps σ (τ.requestAll x c q ch l) := by
  unfold State.requestAll
  repeat' with_reducible (first
    | assumption | (intro _ _ _) | apply askSpill_keeps | apply setChunk_keeps | apply each_keeps' | apply ite_keeps
    | simp only [keeps_mk] | apply Keeps.parts | split | dsimp only)

theorem requestOne_keeps (hk : Keeps σ τ) (x c r : Nat) : Keeps σ (τ.requestOne x c r) := by
  unfold State.requestOne
  repeat' with_reducible (first
    | assumption | (intro _ _ _) | apply setChunk_keeps | apply ite_keeps | simp only [keeps_mk] | apply Keeps.parts
    | split | dsimp only)

theorem requestNode_keeps (hk : Keeps σ τ) (x c : Nat) (second : Bool) : Keeps σ (τ.requestNode x c second) := by
  unfold State.requestNode
  repeat' with_reducible (first
    | assumption | (intro _ _ _) | apply requestAll_keeps | apply requestOne_keeps | apply each_keeps' | apply foldl_keeps_fst
    | apply foldl_keeps_snd | refine foldl_keeps_fst_eq ‹_› ?_ ?_ | refine foldl_keeps_snd_eq ‹_› ?_ ?_ | apply ite_keeps | simp only [keeps_mk] | apply Keeps.parts
    | split | dsimp only)

theorem fetchRequest_keeps (hk : Keeps σ τ) (x c : Nat) : Keeps σ (τ.fetchRequest x c) := by
  unfold State.fetchRequest
  repeat' with_reducible (first
    | assumption | (intro _ _ _) | apply requestNode_keeps | apply ite_keeps | simp only [keeps_mk] | apply Keeps.parts
    | split | dsimp only)

theorem syncOccupancy_keeps (hk : Keeps σ τ) (k : Nat) : Keeps σ (τ.syncOccupancy k) := by
  unfold State.syncOccupancy
  repeat' with_reducible (first
    | assumption | (intro _ _ _) | apply wr_keeps | apply foldl_keeps_fst | apply foldl_keeps_snd | refine foldl_keeps_fst_eq ‹_› ?_ ?_
    | refine foldl_keeps_snd_eq ‹_› ?_ ?_ | apply ite_keeps | dsimp only)

theorem syncUsed_keeps (hk : Keeps σ τ) (t : Nat) : Keeps σ (τ.syncUsed t) := by
  unfold State.syncUsed
  repeat' with_reducible (first
    | assumption | (intro _ _ _) | apply wr_keeps | apply each_keeps' | apply foldl_keeps_fst | apply foldl_keeps_snd
    | refine foldl_keeps_fst_eq ‹_› ?_ ?_ | refine foldl_keeps_snd_eq ‹_› ?_ ?_ | apply ite_keeps | split | dsimp only)

theorem syncWaiting_keeps (hk : Keeps σ τ) (x : Nat) : Keeps σ (τ.syncWaiting x) := by
  unfold State.syncWaiting
  repeat' with_reducible (first
    | assumption | (intro _ _ _) | apply wr_keeps | apply ite_keeps | dsimp only)

theorem syncChunk_keeps (hk : Keeps σ τ) (x t k : Nat) : Keeps σ (τ.syncChunk x t k) := by
  unfold State.syncChunk
  repeat' with_reducible (first
    | assumption | (intro _ _ _) | apply syncOccupancy_keeps | apply syncUsed_keeps | apply syncWaiting_keeps | apply ite_keeps
    | dsimp only)

theorem finishRetire_keeps (hk : Keeps σ τ) (k : Nat) : Keeps σ (τ.finishRetire k) := by
  unfold State.finishRetire
  repeat' with_reducible (first
    | assumption | (intro _ _ _) | apply exactLoss_keeps | apply mapChange_keeps | apply raise_keeps | apply syncClusters_keeps
    | apply wr_keeps | apply ite_keeps | split | dsimp only)

theorem releaseGranules_keeps (hk : Keeps σ τ) (x c : Nat) (ch : Chunk) : Keeps σ (τ.releaseGranules x c ch) := by
  unfold State.releaseGranules
  repeat' with_reducible (first
    | assumption | (intro _ _ _) | apply ite_keeps | simp only [keeps_mk] | apply Keeps.parts | split
    | dsimp only)

theorem dropWarm_keeps (hk : Keeps σ τ) (x : Nat) (ch : Chunk) : Keeps σ (τ.dropWarm x ch) := by
  unfold State.dropWarm
  repeat' with_reducible (first
    | assumption | (intro _ _ _) | apply wr_keeps | apply ite_keeps | split | dsimp only)

theorem dropChunk_keeps (hk : Keeps σ τ) (x c : Nat) : Keeps σ (τ.dropChunk x c) := by
  unfold State.dropChunk
  repeat' with_reducible (first
    | assumption | (intro _ _ _) | apply dropWarm_keeps | apply releaseGranules_keeps | apply setChunk_keeps | apply syncChunk_keeps
    | apply ite_keeps | simp only [keeps_mk] | apply Keeps.parts | split | dsimp only)

theorem askAdmission_keeps (hk : Keeps σ τ) (x c : Nat) : Keeps σ (τ.askAdmission x c) := by
  unfold State.askAdmission
  repeat' with_reducible (first
    | assumption | (intro _ _ _) | apply setChunk_keeps | apply syncWaiting_keeps | apply ite_keeps | split
    | dsimp only)

theorem setHold_keeps (hk : Keeps σ τ) (t : Nat) (h : Hold) : Keeps σ (τ.setHold t h) := by
  unfold State.setHold
  repeat' with_reducible (first
    | assumption | (intro _ _ _) | apply ite_keeps | simp only [keeps_mk] | apply Keeps.parts | dsimp only)

theorem sendGrants_keeps (hk : Keeps σ τ) (t mode : Nat) (entries : List (Nat × Nat)) : Keeps σ (τ.sendGrants t mode entries) := by
  unfold State.sendGrants
  repeat' with_reducible (first
    | assumption | (intro _ _ _) | apply inc_keeps | apply sendControl_keeps | apply each_keeps' | apply ite_keeps
    | split | dsimp only)

theorem stopDie_keeps (hk : Keeps σ τ) (t d : Nat) : Keeps σ (τ.stopDie t d) := by
  unfold State.stopDie
  repeat' with_reducible (first
    | assumption | (intro _ _ _) | apply setHold_keeps | apply ite_keeps | simp only [keeps_mk] | apply Keeps.parts
    | split | dsimp only)

theorem syncTrigger_keeps (hk : Keeps σ τ) (t : Nat) : Keeps σ (τ.syncTrigger t) := by
  unfold State.syncTrigger
  repeat' with_reducible (first
    | assumption | (intro _ _ _) | apply stopDie_keeps | apply wr_keeps | apply each_keeps' | apply ite_keeps
    | simp only [keeps_mk] | apply Keeps.parts | split | dsimp only)

theorem freeze_keeps (hk : Keeps σ τ) (t cause : Nat) (die : Option Nat) (logical : Nat) : Keeps σ (τ.freeze t cause die logical) := by
  unfold State.freeze
  repeat' with_reducible (first
    | assumption | (intro _ _ _) | apply exactLoss_keeps | apply incWrap_keeps | apply mark_keeps | apply noteWas_keeps
    | apply setHold_keeps | apply syncTrigger_keeps | apply trigger_keeps | apply wr_keeps | apply ite_keeps | simp only [keeps_mk]
    | apply Keeps.parts | split | dsimp only)

theorem unfreeze_keeps (hk : Keeps σ τ) (t : Nat) (lost : List Nat) : Keeps σ (τ.unfreeze t lost) := by
  unfold State.unfreeze
  repeat' with_reducible (first
    | assumption | (intro _ _ _) | apply restoreWas_keeps | apply setHold_keeps | apply syncTrigger_keeps | apply trigger_keeps
    | apply wr_keeps | apply ite_keeps | simp only [keeps_mk] | apply Keeps.parts | split | dsimp only)

theorem enterHold_keeps (hk : Keeps σ τ) (t : Nat) : Keeps σ (τ.enterHold t) := by
  unfold State.enterHold
  repeat' with_reducible (first
    | assumption | (intro _ _ _) | apply sendGrants_keeps | apply wr_keeps | apply each_keeps' | apply ite_keeps
    | split | dsimp only)

theorem releaseHold_keeps (hk : Keeps σ τ) (a t : Nat) : Keeps σ (τ.releaseHold a t) := by
  unfold State.releaseHold
  repeat' with_reducible (first
    | assumption | (intro _ _ _) | apply sendGrants_keeps | apply setHold_keeps | apply trigger_keeps | apply wr_keeps
    | apply each_keeps' | apply ite_keeps | simp only [keeps_mk] | apply Keeps.parts | split | dsimp only)

theorem openLate_keeps (hk : Keeps σ τ) (x : Nat) : Keeps σ (τ.openLate x) := by
  unfold State.openLate
  repeat' with_reducible (first
    | assumption | (intro _ _ _) | apply setHold_keeps | apply ite_keeps | simp only [keeps_mk] | apply Keeps.parts
    | split | dsimp only)

theorem unlist_keeps (hk : Keeps σ τ) (x : Nat) : Keeps σ (τ.unlist x) := by
  unfold State.unlist
  repeat' with_reducible (first
    | assumption | (intro _ _ _) | apply setHold_keeps | apply wr_keeps | apply ite_keeps | simp only [keeps_mk]
    | apply Keeps.parts | split | dsimp only)

theorem enterChunk_keeps (hk : Keeps σ τ) (x c k : Nat) (ch : Chunk) (p : Place) : Keeps σ (τ.enterChunk x c k ch p) := by
  unfold State.enterChunk
  repeat' with_reducible (first
    | assumption | (intro _ _ _) | apply inc_keeps | apply setChunk_keeps | apply setOp_keeps | apply syncChunk_keeps
    | apply ite_keeps | simp only [keeps_mk] | apply Keeps.parts | split | dsimp only)

theorem admissionDecide_keeps (hk : Keeps σ τ) (k t : Nat) : Keeps σ (τ.admissionDecide k t) := by
  unfold State.admissionDecide
  repeat' with_reducible (first
    | assumption | (intro _ _ _) | apply enterChunk_keeps | apply exactLoss_keeps | apply freeze_keeps | apply inc_keeps
    | apply mark_keeps | apply noteWas_keeps | apply request_keeps | apply setChunk_keeps | apply ite_keeps | simp only [keeps_mk]
    | apply Keeps.parts | split | dsimp only)

theorem nodeIssue_keeps (hk : Keeps σ τ) (k : Nat) : Keeps σ (τ.nodeIssue k) := by
  unfold State.nodeIssue
  repeat' with_reducible (first
    | assumption | (intro _ _ _) | apply askSpill_keeps | apply setChunk_keeps | apply foldl_keeps_fst | apply foldl_keeps_snd
    | refine foldl_keeps_fst_eq ‹_› ?_ ?_ | refine foldl_keeps_snd_eq ‹_› ?_ ?_ | apply ite_keeps | simp only [keeps_mk] | apply Keeps.parts | split
    | dsimp only)

theorem replay_keeps (hk : Keeps σ τ) (x c : Nat) (ch : Chunk) : Keeps σ (τ.replay x c ch) := by
  unfold State.replay
  repeat' with_reducible (first
    | assumption | (intro _ _ _) | apply exactLoss_keeps | apply fetchRequest_keeps | apply inc_keeps | apply setChunk_keeps
    | apply ite_keeps | simp only [keeps_mk] | apply Keeps.parts | dsimp only)

theorem readmit_keeps (hk : Keeps σ τ) (x c : Nat) (ch : Chunk) : Keeps σ (τ.readmit x c ch) := by
  unfold State.readmit
  repeat' with_reducible (first
    | assumption | (intro _ _ _) | apply dropWarm_keeps | apply releaseGranules_keeps | apply setChunk_keeps | apply syncChunk_keeps
    | apply ite_keeps | simp only [keeps_mk] | apply Keeps.parts | dsimp only)

theorem readmitAll_keeps (hk : Keeps σ τ) (k : Nat) : Keeps σ (τ.readmitAll k) := by
  unfold State.readmitAll
  repeat' with_reducible (first
    | assumption | (intro _ _ _) | apply readmit_keeps | apply each_keeps' | apply ite_keeps | simp only [keeps_mk]
    | apply Keeps.parts | dsimp only)

theorem unadmit_keeps (hk : Keeps σ τ) (x c : Nat) (spill ahead : Bool) (high : Nat) : Keeps σ (τ.unadmit x c spill ahead high) := by
  unfold State.unadmit
  repeat' with_reducible (first
    | assumption | (intro _ _ _) | apply setChunk_keeps | apply setOp_keeps | apply syncChunk_keeps | apply uncount_keeps
    | apply ite_keeps | simp only [keeps_mk] | apply Keeps.parts | split | dsimp only)

theorem unrefuse_keeps (hk : Keeps σ τ) (x c : Nat) (first : Bool) : Keeps σ (τ.unrefuse x c first) := by
  unfold State.unrefuse
  repeat' with_reducible (first
    | assumption | (intro _ _ _) | apply setChunk_keeps | apply uncount_keeps | apply ite_keeps | simp only [keeps_mk]
    | apply Keeps.parts | split | dsimp only)

theorem undecide_keeps (hk : Keeps σ τ) (lost : List Nat) : Keeps σ (τ.undecide lost) := by
  unfold State.undecide
  repeat' with_reducible (first
    | assumption | (intro _ _ _) | apply restoreWas_keeps | apply unadmit_keeps | apply unfreeze_keeps | apply unrefuse_keeps
    | apply each_keeps' | apply ite_keeps | simp only [keeps_mk] | apply Keeps.parts | split | dsimp only)

theorem takeBackAll_keeps (hk : Keeps σ τ) (lost : List Nat) : Keeps σ (τ.takeBackAll lost) := by
  unfold State.takeBackAll
  repeat' with_reducible (first
    | assumption | (intro _ _ _) | apply repoint_keeps | apply undecide_keeps | apply ite_keeps | split
    | dsimp only)

theorem retireNow_keeps (hk : Keeps σ τ) (k cause : Nat) : Keeps σ (τ.retireNow k cause) := by
  unfold State.retireNow
  repeat' with_reducible (first
    | assumption | (intro _ _ _) | apply exactLoss_keeps | apply mapChange_keeps | apply raise_keeps | apply readmitAll_keeps
    | apply substitute_keeps | refine substitute_keeps_eq ‹_› ?_ | apply syncClusters_keeps | apply takeBackAll_keeps | apply wr_keeps | apply ite_keeps
    | split | dsimp only)

theorem retirePending_keeps (hk : Keeps σ τ) (k : Nat) : Keeps σ (τ.retirePending k) := by
  unfold State.retirePending
  repeat' with_reducible (first
    | assumption | (intro _ _ _) | apply mapChange_keeps | apply substitute_keeps | refine substitute_keeps_eq ‹_› ?_ | apply syncClusters_keeps
    | apply takeBackAll_keeps | apply wr_keeps | apply ite_keeps | split | dsimp only)

theorem checkFailure_keeps (hk : Keeps σ τ) (k x n c node : Nat) (path : CheckPath) (attempt : Nat) : Keeps σ (τ.checkFailure k x n c node path attempt) := by
  unfold State.checkFailure
  repeat' with_reducible (first
    | assumption | (intro _ _ _) | apply exactLoss_keeps | apply inc_keeps | apply raise_keeps | apply replay_keeps
    | apply retireNow_keeps | apply retirePending_keeps | apply wr_keeps | apply ite_keeps | simp only [keeps_mk] | apply Keeps.parts
    | split | dsimp only)

theorem checkVerdict_keeps (hk : Keeps σ τ) (k x n c node : Nat) (fail : Option CheckPath) (attempt corrected : Nat) : Keeps σ (τ.checkVerdict k x n c node fail attempt corrected) := by
  unfold State.checkVerdict
  repeat' with_reducible (first
    | assumption | (intro _ _ _) | apply checkFailure_keeps | apply incCorr_keeps | apply ite_keeps | simp only [keeps_mk]
    | apply Keeps.parts | split | dsimp only)

theorem coreDieLoss_keeps (hk : Keeps σ τ) (d : Nat) : Keeps σ (τ.coreDieLoss d) := by
  unfold State.coreDieLoss
  repeat' with_reducible (first
    | assumption | (intro _ _ _) | apply exactLoss_keeps | apply mapChange_keeps | apply raise_keeps | apply readmitAll_keeps
    | apply syncClusters_keeps | apply takeBackAll_keeps | apply unmapLogical_keeps | apply wr_keeps | apply each_keeps' | apply ite_keeps
    | simp only [keeps_mk] | apply Keeps.parts | split | dsimp only)

theorem spareTestStart_keeps (hk : Keeps σ τ)  : Keeps σ (τ.spareTestStart) := by
  unfold State.spareTestStart
  repeat' with_reducible (first
    | assumption | (intro _ _ _) | apply wr_keeps | apply ite_keeps | simp only [keeps_mk] | apply Keeps.parts
    | split | dsimp only)

theorem spareTestEnd_keeps (hk : Keeps σ τ) (pass : Bool) : Keeps σ (τ.spareTestEnd pass) := by
  unfold State.spareTestEnd
  repeat' with_reducible (first
    | assumption | (intro _ _ _) | apply exactLoss_keeps | apply mapChange_keeps | apply raise_keeps | apply syncClusters_keeps
    | apply wr_keeps | apply ite_keeps | simp only [keeps_mk] | apply Keeps.parts | split | dsimp only)

theorem clusterCycle_keeps (hk : Keeps σ τ) (a k : Nat) : Keeps σ (τ.clusterCycle a k) := by
  unfold State.clusterCycle
  repeat' with_reducible (first
    | assumption | (intro _ _ _) | apply inc_keeps | apply ite_keeps | split | dsimp only)

theorem arithCycle_keeps (hk : Keeps σ τ)  : Keeps σ (τ.arithCycle) := by
  unfold State.arithCycle
  repeat' with_reducible (first
    | assumption | (intro _ _ _) | apply clusterCycle_keeps | apply finishRetire_keeps | apply releaseHold_keeps | apply each_keeps'
    | apply ite_keeps | dsimp only)

theorem freeSettled_keeps (hk : Keeps σ τ) (x : Nat) : Keeps σ (τ.freeSettled x) := by
  unfold State.freeSettled
  repeat' with_reducible (first
    | assumption | (intro _ _ _) | apply dropArrived_keeps | apply setOp_keeps | apply each_keeps' | apply ite_keeps
    | simp only [keeps_mk] | apply Keeps.parts | split | dsimp only)

end Sys2Proof.Machine
end

