-- ==== Sys2Proof/Laws/KeepsOperation.lean ====
section
/-!
SUPPORT. `Keeps` for the operations of Accept, Commit, XchOps.
-/

namespace Sys2Proof.Machine

set_option Elab.async false
set_option linter.unusedTactic false
set_option linter.unreachableTactic false
set_option linter.unusedSimpArgs false

variable {σ τ υ : State}

theorem setSpore_keeps (hk : Keeps σ τ) (t : Nat) (f : SporeLast → SporeLast) : Keeps σ (τ.setSpore t f) := by
  unfold State.setSpore
  repeat' with_reducible (first
    | assumption | (intro _ _ _) | apply ite_keeps | simp only [keeps_mk] | apply Keeps.parts | dsimp only)

theorem beginCut_keeps (hk : Keeps σ τ) (t e port : Nat) : Keeps σ (τ.beginCut t e port) := by
  unfold State.beginCut
  repeat' with_reducible (first
    | assumption | (intro _ _ _) | apply setSpore_keeps | apply wr_keeps | apply ite_keeps | simp only [keeps_mk]
    | apply Keeps.parts | split | dsimp only)

theorem syncHeld_keeps (hk : Keeps σ τ) (t : Nat) : Keeps σ (τ.syncHeld t) := by
  unfold State.syncHeld
  repeat' with_reducible (first
    | assumption | (intro _ _ _) | apply wr_keeps | apply ite_keeps | dsimp only)

theorem earlyLoss_keeps (hk : Keeps σ τ) (x : Option Nat) : Keeps σ (τ.earlyLoss x) := by
  unfold State.earlyLoss
  repeat' with_reducible (first
    | assumption | (intro _ _ _) | apply exactLossNoted_keeps | apply mark_keeps | apply ite_keeps | dsimp only)

theorem notEarly_keeps (hk : Keeps σ τ) (x : Nat) : Keeps σ (τ.notEarly x) := by
  unfold State.notEarly
  repeat' with_reducible (first
    | assumption | (intro _ _ _) | apply exactUndo_keeps | apply ite_keeps | simp only [keeps_mk] | apply Keeps.parts
    | split | dsimp only)

theorem holdInCut_keeps (hk : Keeps σ τ) (t x : Nat) (it : HeldItem) : Keeps σ (τ.holdInCut t x it) := by
  unfold State.holdInCut
  repeat' with_reducible (first
    | assumption | (intro _ _ _) | apply earlyLoss_keeps | apply setSpore_keeps | apply syncHeld_keeps | apply ite_keeps
    | simp only [keeps_mk] | apply Keeps.parts | dsimp only)

theorem takeHeld_keeps (hk : Keeps σ τ) (t : Nat) : Keeps σ (τ.takeHeld t).2 := by
  unfold State.takeHeld
  repeat' with_reducible (first
    | assumption | (intro _ _ _) | apply setSpore_keeps | apply syncHeld_keeps | apply ite_keeps | simp only [keeps_mk]
    | apply Keeps.parts | dsimp only)

theorem takeHeld_keeps_eq {t : Nat} {y} (he : τ.takeHeld t = (y, υ)) (hk : Keeps σ τ) : Keeps σ υ := by
  have := takeHeld_keeps hk t
  rwa [he] at this

theorem syncDrain_keeps (hk : Keeps σ τ)  : Keeps σ (τ.syncDrain) := by
  unfold State.syncDrain
  repeat' with_reducible (first
    | assumption | (intro _ _ _) | apply wr_keeps | apply foldl_keeps_fst | apply foldl_keeps_snd | refine foldl_keeps_fst_eq ‹_› ?_ ?_
    | refine foldl_keeps_snd_eq ‹_› ?_ ?_ | apply ite_keeps | dsimp only)

theorem dropEpoch_keeps (hk : Keeps σ τ) (t : Nat) : Keeps σ (τ.dropEpoch t) := by
  unfold State.dropEpoch
  repeat' with_reducible (first
    | assumption | (intro _ _ _) | apply inc_keeps | apply setSpore_keeps | apply syncDrain_keeps | apply wr_keeps
    | apply ite_keeps | simp only [keeps_mk] | apply Keeps.parts | split | dsimp only)

theorem publish_keeps (hk : Keeps σ τ) (account requester : Nat) (item : Item) (targets : List Target) : Keeps σ (τ.publish account requester item targets) := by
  unfold State.publish
  repeat' with_reducible (first
    | assumption | (intro _ _ _) | apply allocNow_keeps | refine allocNow_keeps_eq ‹_› ?_ | apply countWrite_keeps | apply multicast_keeps
    | apply output_keeps | apply request_keeps | apply ite_keeps | simp only [keeps_mk] | apply Keeps.parts | split
    | dsimp only)

theorem output_keeps (hk : Keeps σ τ) (x account requester : Nat) (item : Item) (targets : List Target) : Keeps σ (τ.output x account requester item targets) := by
  unfold State.output
  repeat' with_reducible (first
    | assumption | (intro _ _ _) | apply publish_keeps | apply setOp_keeps | apply ite_keeps | simp only [keeps_mk]
    | apply Keeps.parts | split | dsimp only)

theorem sendSegment_keeps (hk : Keeps σ τ) (x : Nat) : Keeps σ (τ.sendSegment x) := by
  unfold State.sendSegment
  repeat' with_reducible (first
    | assumption | (intro _ _ _) | apply output_keeps | apply sendItem_keeps | apply setOp_keeps | apply each_keeps'
    | apply ite_keeps | simp only [keeps_mk] | apply Keeps.parts | split | dsimp only)

theorem sendPartial_keeps (hk : Keeps σ τ) (x : Nat) : Keeps σ (τ.sendPartial x) := by
  unfold State.sendPartial
  repeat' with_reducible (first
    | assumption | (intro _ _ _) | apply multicast_keeps | apply setOp_keeps | apply each_keeps' | apply ite_keeps
    | simp only [keeps_mk] | apply Keeps.parts | split | dsimp only)

theorem sendPartials_keeps (hk : Keeps σ τ) (x : Nat) : Keeps σ (τ.sendPartials x) := by
  unfold State.sendPartials
  repeat' with_reducible (first
    | assumption | (intro _ _ _) | apply sendPartial_keeps | apply each_keeps' | apply ite_keeps | dsimp only)

theorem restartTimer_keeps (hk : Keeps σ τ) (x : Nat) : Keeps σ (τ.restartTimer x) := by
  unfold State.restartTimer
  repeat' with_reducible (first
    | assumption | (intro _ _ _) | apply setOp_keeps | apply ite_keeps | simp only [keeps_mk] | apply Keeps.parts
    | dsimp only)

theorem openOp_keeps (hk : Keeps σ τ) (x : Nat) : Keeps σ (τ.openOp x) := by
  unfold State.openOp
  repeat' with_reducible (first
    | assumption | (intro _ _ _) | apply mark_keeps | apply noteWas_keeps | apply openLate_keeps | apply restartTimer_keeps
    | apply wr_keeps | apply each_keeps' | apply ite_keeps | dsimp only)

theorem forward_keeps (hk : Keeps σ τ) (x : Nat) (a : Arrived) : Keeps σ (τ.forward x a) := by
  unfold State.forward
  repeat' with_reducible (first
    | assumption | (intro _ _ _) | apply multicast_keeps | apply setOp_keeps | apply ite_keeps | simp only [keeps_mk]
    | apply Keeps.parts | split | dsimp only)

theorem checkManifest_keeps (hk : Keeps σ τ) (x rank : Nat) : Keeps σ (τ.checkManifest x rank).1 := by
  unfold State.checkManifest
  repeat' with_reducible (first
    | assumption | (intro _ _ _) | apply inc_keeps | apply mark_keeps | apply setOp_keeps | apply wr_keeps
    | apply ite_keeps | simp only [keeps_mk] | apply Keeps.parts | split | dsimp only)

theorem checkManifest_keeps_eq {x rank : Nat} {y} (he : τ.checkManifest x rank = (υ, y)) (hk : Keeps σ τ) : Keeps σ υ := by
  have := checkManifest_keeps hk x rank
  rwa [he] at this

theorem holdInDrain_keeps (hk : Keeps σ τ) (x : Nat) (it : HeldItem) : Keeps σ (τ.holdInDrain x it) := by
  unfold State.holdInDrain
  repeat' with_reducible (first
    | assumption | (intro _ _ _) | apply earlyLoss_keeps | apply wr_keeps | apply ite_keeps | simp only [keeps_mk]
    | apply Keeps.parts | split | dsimp only)

theorem holdEarly_keeps (hk : Keeps σ τ) (x opnum : Nat) (it : HeldItem) : Keeps σ (τ.holdEarly x opnum it) := by
  unfold State.holdEarly
  repeat' with_reducible (first
    | assumption | (intro _ _ _) | apply earlyLoss_keeps | apply setOp_keeps | apply wr_keeps | apply ite_keeps
    | simp only [keeps_mk] | apply Keeps.parts | split | dsimp only)

theorem holdItem_keeps {x opnum port : Nat} {it : HeldItem} {past : Bool} {y} (he : τ.holdItem x opnum port it past = some y) (hk : Keeps σ τ) : Keeps σ y := by
  unfold State.holdItem at he
  try dsimp only at he
  repeat' split at he
  all_goals cases he
  all_goals repeat' with_reducible (first
    | assumption | (intro _ _ _) | apply holdEarly_keeps | apply holdInCut_keeps | apply holdInDrain_keeps | apply ite_keeps
    | simp only [keeps_mk] | apply Keeps.parts | split | dsimp only)

theorem takeSwatch_keeps (hk : Keeps σ τ) (x : Nat) (a : Arrived) : Keeps σ (τ.takeSwatch x a).1 := by
  unfold State.takeSwatch
  repeat' with_reducible (first
    | assumption | (intro _ _ _) | apply askAdmission_keeps | apply checkManifest_keeps | refine checkManifest_keeps_eq ‹_› ?_ | apply forward_keeps
    | apply freeSettled_keeps | apply inc_keeps | apply mark_keeps | apply mirrorAll_keeps | apply openOp_keeps | apply restartTimer_keeps
    | apply setOp_keeps | apply ite_keeps | simp only [keeps_mk] | apply Keeps.parts | split | dsimp only)

theorem takeSwatch_keeps_eq {x : Nat} {a : Arrived} {y} (he : τ.takeSwatch x a = (υ, y)) (hk : Keeps σ τ) : Keeps σ υ := by
  have := takeSwatch_keeps hk x a
  rwa [he] at this

theorem offerSwatch_keeps (hk : Keeps σ τ) (a : Arrived) (past : Bool) : Keeps σ (τ.offerSwatch a past).1 := by
  unfold State.offerSwatch
  repeat' with_reducible (first
    | assumption | (intro _ _ _) | apply dropArrived_keeps | apply dropUndecl_keeps | refine holdItem_keeps ‹_› ?_ | apply inc_keeps
    | apply takeSwatch_keeps | refine takeSwatch_keeps_eq ‹_› ?_ | apply ite_keeps | simp only [keeps_mk] | apply Keeps.parts | split
    | dsimp only)

theorem offerSwatch_keeps_eq {a : Arrived} {past : Bool} {y} (he : τ.offerSwatch a past = (υ, y)) (hk : Keeps σ τ) : Keeps σ υ := by
  have := offerSwatch_keeps hk a past
  rwa [he] at this

theorem takeBack_keeps (hk : Keeps σ τ) (x : Nat) (a : Arrived) : Keeps σ (τ.takeBack x a).1 := by
  unfold State.takeBack
  repeat' with_reducible (first
    | assumption | (intro _ _ _) | apply dropArrived_keeps | apply dropChunk_keeps | apply inc_keeps | apply setOp_keeps
    | apply wr_keeps | apply ite_keeps | simp only [keeps_mk] | apply Keeps.parts | split | dsimp only)

theorem takeBack_keeps_eq {x : Nat} {a : Arrived} {y} (he : τ.takeBack x a = (υ, y)) (hk : Keeps σ τ) : Keeps σ υ := by
  have := takeBack_keeps hk x a
  rwa [he] at this

theorem joinEpoch_keeps (hk : Keeps σ τ) (x port : Nat) (d : Descriptor) : Keeps σ (τ.joinEpoch x port d).1 := by
  unfold State.joinEpoch
  repeat' with_reducible (first
    | assumption | (intro _ _ _) | apply beginCut_keeps | apply setSpore_keeps | apply ite_keeps | simp only [keeps_mk]
    | apply Keeps.parts | split | dsimp only)

theorem joinEpoch_keeps_eq {x port : Nat} {d : Descriptor} {y} (he : τ.joinEpoch x port d = (υ, y)) (hk : Keeps σ τ) : Keeps σ υ := by
  have := joinEpoch_keeps hk x port d
  rwa [he] at this

theorem mirrorDesc_keeps (hk : Keeps σ τ) (b : ArrivedDesc) : Keeps σ (τ.mirrorDesc b) := by
  unfold State.mirrorDesc
  repeat' with_reducible (first
    | assumption | (intro _ _ _) | apply mirrorAll_keeps | apply ite_keeps | dsimp only)

theorem takeDesc_keeps (hk : Keeps σ τ) (x : Nat) (b : ArrivedDesc) : Keeps σ (τ.takeDesc x b).1 := by
  unfold State.takeDesc
  repeat' with_reducible (first
    | assumption | (intro _ _ _) | apply checkManifest_keeps | refine checkManifest_keeps_eq ‹_› ?_ | apply dropDesc_keeps | apply forward_keeps
    | apply joinEpoch_keeps | refine joinEpoch_keeps_eq ‹_› ?_ | apply mark_keeps | apply mirrorDesc_keeps | apply openOp_keeps | apply restartTimer_keeps
    | apply sendPartials_keeps | apply sendSegment_keeps | apply setOp_keeps | apply takeBack_keeps | refine takeBack_keeps_eq ‹_› ?_ | apply wr_keeps
    | apply each_keeps' | apply foldl_keeps_fst | apply foldl_keeps_snd | refine foldl_keeps_fst_eq ‹_› ?_ ?_ | refine foldl_keeps_snd_eq ‹_› ?_ ?_ | apply ite_keeps
    | simp only [keeps_mk] | apply Keeps.parts | split | dsimp only)

theorem takeDesc_keeps_eq {x : Nat} {b : ArrivedDesc} {y} (he : τ.takeDesc x b = (υ, y)) (hk : Keeps σ τ) : Keeps σ υ := by
  have := takeDesc_keeps hk x b
  rwa [he] at this

theorem offerDesc_keeps (hk : Keeps σ τ) (b : ArrivedDesc) (past : Bool) : Keeps σ (τ.offerDesc b past).1 := by
  unfold State.offerDesc
  repeat' with_reducible (first
    | assumption | (intro _ _ _) | apply dropDesc_keeps | apply dropUndecl_keeps | apply holdInCut_keeps | refine holdItem_keeps ‹_› ?_
    | apply inc_keeps | apply mirrorDesc_keeps | apply sendControl_keeps | apply takeDesc_keeps | refine takeDesc_keeps_eq ‹_› ?_ | apply wr_keeps
    | apply ite_keeps | simp only [keeps_mk] | apply Keeps.parts | split | dsimp only)

theorem offerDesc_keeps_eq {b : ArrivedDesc} {past : Bool} {y} (he : τ.offerDesc b past = (υ, y)) (hk : Keeps σ τ) : Keeps σ υ := by
  have := offerDesc_keeps hk b past
  rwa [he] at this

theorem offer_keeps (hk : Keeps σ τ) (it : HeldItem) (past : Bool) : Keeps σ (τ.offer it past).1 := by
  unfold State.offer
  repeat' with_reducible (first
    | assumption | (intro _ _ _) | apply offerDesc_keeps | refine offerDesc_keeps_eq ‹_› ?_ | apply offerSwatch_keeps | refine offerSwatch_keeps_eq ‹_› ?_
    | apply ite_keeps | simp only [keeps_mk] | apply Keeps.parts | split | dsimp only)

theorem offer_keeps_eq {it : HeldItem} {past : Bool} {y} (he : τ.offer it past = (υ, y)) (hk : Keeps σ τ) : Keeps σ υ := by
  have := offer_keeps hk it past
  rwa [he] at this

theorem settleCore_keeps (hk : Keeps σ τ) (x : Nat) : Keeps σ (τ.settleCore x).1 := by
  unfold State.settleCore
  repeat' with_reducible (first
    | assumption | (intro _ _ _) | apply mark_keeps | apply output_keeps | apply wr_keeps | apply ite_keeps
    | split | dsimp only)

theorem settleCore_keeps_eq {x : Nat} {y} (he : τ.settleCore x = (υ, y)) (hk : Keeps σ τ) : Keeps σ υ := by
  have := settleCore_keeps hk x
  rwa [he] at this

theorem sendRecords_keeps (hk : Keeps σ τ) (x status : Nat) : Keeps σ (τ.sendRecords x status) := by
  unfold State.sendRecords
  repeat' with_reducible (first
    | assumption | (intro _ _ _) | apply sendControl_keeps | apply sent_keeps | refine sent_keeps_eq ‹_› ?_ | apply each_keeps'
    | apply foldl_keeps_fst | apply foldl_keeps_snd | refine foldl_keeps_fst_eq ‹_› ?_ ?_ | refine foldl_keeps_snd_eq ‹_› ?_ ?_ | apply ite_keeps | dsimp only)

theorem closeRecovery_keeps (hk : Keeps σ τ) (x status : Nat) : Keeps σ (τ.closeRecovery x status) := by
  unfold State.closeRecovery
  repeat' with_reducible (first
    | assumption | (intro _ _ _) | apply inc_keeps | apply setLost_keeps | apply wr_keeps | apply ite_keeps
    | simp only [keeps_mk] | apply Keeps.parts | split | dsimp only)

theorem closeRelease_keeps (hk : Keeps σ τ) (x n : Nat) (o : OpCtx) : Keeps σ (τ.closeRelease x n o) := by
  unfold State.closeRelease
  repeat' with_reducible (first
    | assumption | (intro _ _ _) | apply decRef_keeps | apply dropArrived_keeps | apply dropChunk_keeps | apply dropDesc_keeps
    | apply freeObj_keeps | apply freeStreams_keeps | apply setSpore_keeps | apply syncHeld_keeps | apply unlist_keeps | apply each_keeps'
    | apply ite_keeps | simp only [keeps_mk] | apply Keeps.parts | split | dsimp only)

theorem closeCount_keeps (hk : Keeps σ τ) (x n t status : Nat) : Keeps σ (τ.closeCount x n t status) := by
  unfold State.closeCount
  repeat' with_reducible (first
    | assumption | (intro _ _ _) | apply closeRecovery_keeps | apply inc_keeps | apply incWrap_keeps | apply sendRecords_keeps
    | apply setOp_keeps | apply wr_keeps | apply ite_keeps | simp only [keeps_mk] | apply Keeps.parts | split
    | dsimp only)

theorem closeAbort_keeps (hk : Keeps σ τ) (x n t status : Nat) : Keeps σ (τ.closeAbort x n t status) := by
  unfold State.closeAbort
  repeat' with_reducible (first
    | assumption | (intro _ _ _) | apply publish_keeps | apply ite_keeps | split | dsimp only)

theorem closeEpoch_keeps (hk : Keeps σ τ) (x t status : Nat) : Keeps σ (τ.closeEpoch x t status).1 := by
  unfold State.closeEpoch
  repeat' with_reducible (first
    | assumption | (intro _ _ _) | apply dropEpoch_keeps | apply takeHeld_keeps | refine takeHeld_keeps_eq ‹_› ?_ | apply ite_keeps
    | split | dsimp only)

theorem closeEpoch_keeps_eq {x t status : Nat} {y} (he : τ.closeEpoch x t status = (υ, y)) (hk : Keeps σ τ) : Keeps σ υ := by
  have := closeEpoch_keeps hk x t status
  rwa [he] at this

theorem keepEarly_keeps (hk : Keeps σ τ) (x : Nat) (l : List HeldItem) : Keeps σ (τ.keepEarly x l) := by
  unfold State.keepEarly
  repeat' with_reducible (first
    | assumption | (intro _ _ _) | apply setOp_keeps | apply wr_keeps | apply ite_keeps | simp only [keeps_mk]
    | apply Keeps.parts | dsimp only)

theorem closeCore_keeps (hk : Keeps σ τ) (x status : Nat) : Keeps σ (τ.closeCore x status).1 := by
  unfold State.closeCore
  repeat' with_reducible (first
    | assumption | (intro _ _ _) | apply closeAbort_keeps | apply closeCount_keeps | apply closeEpoch_keeps | refine closeEpoch_keeps_eq ‹_› ?_
    | apply closeRelease_keeps | apply keepEarly_keeps | apply notEarly_keeps | apply ite_keeps | split | dsimp only)

theorem closeCore_keeps_eq {x status : Nat} {y} (he : τ.closeCore x status = (υ, y)) (hk : Keeps σ τ) : Keeps σ υ := by
  have := closeCore_keeps hk x status
  rwa [he] at this

theorem runWork_keeps {fuel : Nat} {l : List Work} (hk : Keeps σ τ) : Keeps σ (runWork fuel τ l) := by
  induction fuel generalizing τ l with
  | zero => simpa only [runWork] using hk
  | succ n ih =>
    cases l with
    | nil => simpa only [runWork] using hk
    | cons w l =>
      rw [runWork.eq_def]
      dsimp only
      split
      · exact ih (offer_keeps hk _ _)
      · exact ih (offer_keeps hk _ _)
      · exact ih (settleCore_keeps hk _)
      · exact ih (mark_keeps hk _)
      · exact ih (closeCore_keeps hk _ _)

theorem work_keeps (hk : Keeps σ τ) (l : List Work) : Keeps σ (τ.work l) := runWork_keeps hk

theorem settleAll_keeps (hk : Keeps σ τ)  : Keeps σ (τ.settleAll) := by
  unfold State.settleAll
  repeat' with_reducible (first
    | assumption | (intro _ _ _) | apply work_keeps | apply whenActive_keeps | (intro _ _) | apply ite_keeps
    | simp only [keeps_mk] | apply Keeps.parts | split | dsimp only)

theorem endClosing_keeps (hk : Keeps σ τ)  : Keeps σ (τ.endClosing) := by
  unfold State.endClosing
  repeat' with_reducible (first
    | assumption | (intro _ _ _) | apply setOp_keeps | apply work_keeps | apply wr_keeps | apply each_keeps'
    | apply ite_keeps | simp only [keeps_mk] | apply Keeps.parts | split | dsimp only)

theorem pauseCtx_keeps (hk : Keeps σ τ) (x : Nat) : Keeps σ (τ.pauseCtx x) := by
  unfold State.pauseCtx
  repeat' with_reducible (first
    | assumption | (intro _ _ _) | apply setOp_keeps | apply wr_keeps | apply ite_keeps | simp only [keeps_mk]
    | apply Keeps.parts | split | dsimp only)

theorem resumeCtx_keeps (hk : Keeps σ τ) (x : Nat) : Keeps σ (τ.resumeCtx x) := by
  unfold State.resumeCtx
  repeat' with_reducible (first
    | assumption | (intro _ _ _) | apply setOp_keeps | apply wr_keeps | apply ite_keeps | simp only [keeps_mk]
    | apply Keeps.parts | split | dsimp only)

theorem descriptorArrival_keeps (hk : Keeps σ τ)  : Keeps σ (τ.descriptorArrival) := by
  unfold State.descriptorArrival
  repeat' with_reducible (first
    | assumption | (intro _ _ _) | apply work_keeps | apply ite_keeps | simp only [keeps_mk] | apply Keeps.parts
    | split | dsimp only)

theorem swatchAccept_keeps (hk : Keeps σ τ)  : Keeps σ (τ.swatchAccept) := by
  unfold State.swatchAccept
  repeat' with_reducible (first
    | assumption | (intro _ _ _) | apply work_keeps | apply ite_keeps | simp only [keeps_mk] | apply Keeps.parts
    | split | dsimp only)

theorem abortSwatch_keeps (hk : Keeps σ τ)  : Keeps σ (τ.abortSwatch) := by
  unfold State.abortSwatch
  repeat' with_reducible (first
    | assumption | (intro _ _ _) | apply dropArrived_keeps | apply dropUndecl_keeps | apply inc_keeps | apply mirrorAll_keeps
    | apply work_keeps | apply ite_keeps | simp only [keeps_mk] | apply Keeps.parts | split | dsimp only)

theorem hostAbort_keeps (hk : Keeps σ τ) (x : Nat) : Keeps σ (τ.hostAbort x) := by
  unfold State.hostAbort
  repeat' with_reducible (first
    | assumption | (intro _ _ _) | apply inc_keeps | apply work_keeps | apply ite_keeps | split
    | dsimp only)

theorem endAsked_keeps (hk : Keeps σ τ)  : Keeps σ (τ.endAsked) := by
  unfold State.endAsked
  repeat' with_reducible (first
    | assumption | (intro _ _ _) | apply inc_keeps | apply work_keeps | apply each_keeps' | apply ite_keeps
    | simp only [keeps_mk] | apply Keeps.parts | split | dsimp only)

theorem progressTimeout_keeps (hk : Keeps σ τ) (x : Nat) : Keeps σ (τ.progressTimeout x) := by
  unfold State.progressTimeout
  repeat' with_reducible (first
    | assumption | (intro _ _ _) | apply work_keeps | apply ite_keeps | split | dsimp only)

theorem readSpore_keeps (hk : Keeps σ τ) (k bad : Nat) : Keeps σ (τ.readSpore k bad).2 := by
  unfold State.readSpore
  repeat' with_reducible (first
    | assumption | (intro _ _ _) | apply readGranule_keeps | refine readGranule_keeps_eq ‹_› ?_ | apply readPoison_keeps | apply ite_keeps
    | split | dsimp only)

theorem readSpore_keeps_eq {k bad : Nat} {y} (he : τ.readSpore k bad = (y, υ)) (hk : Keeps σ τ) : Keeps σ υ := by
  have := readSpore_keeps hk k bad
  rwa [he] at this

theorem readOrSpore_keeps {r : Option (List Byte) × State} (hk : Keeps σ r.2) (k bad : Nat) :
    Keeps σ (readOrSpore r k bad).2 := by
  unfold readOrSpore
  split
  · exact hk
  · exact readSpore_keeps hk _ _

theorem readParityOf_keeps (hk : Keeps σ τ) (t g c j bad : Nat) : Keeps σ (τ.readParityOf t g c j bad).2 := by
  rw [State.readParityOf.eq_def]
  dsimp only
  split
  · exact readOrSpore_keeps (gddrRead_keeps hk _ _ _) _ _
  · exact gddrRead_keeps hk _ _ _

theorem readParityOf_keeps_eq {t g c j bad : Nat} {y} (he : τ.readParityOf t g c j bad = (y, υ)) (hk : Keeps σ τ) :
    Keeps σ υ := by
  have := readParityOf_keeps hk t g c j bad
  rwa [he] at this

theorem readParity_keeps (hk : Keeps σ τ) (x c j bad : Nat) : Keeps σ (τ.readParity x c j bad).2 := by
  unfold State.readParity
  repeat' with_reducible (first
    | assumption | (intro _ _ _) | apply readParityOf_keeps | refine readParityOf_keeps_eq ‹_› ?_ | apply ite_keeps | simp only [keeps_mk]
    | apply Keeps.parts | split | dsimp only)

theorem readParity_keeps_eq {x c j bad : Nat} {y} (he : τ.readParity x c j bad = (y, υ)) (hk : Keeps σ τ) : Keeps σ υ := by
  have := readParity_keeps hk x c j bad
  rwa [he] at this

theorem unrecoverable_keeps (hk : Keeps σ τ) (x : Nat) : Keeps σ (τ.unrecoverable x) := by
  unfold State.unrecoverable
  repeat' with_reducible (first
    | assumption | (intro _ _ _) | apply work_keeps | apply wr_keeps | apply ite_keeps | simp only [keeps_mk]
    | apply Keeps.parts | split | dsimp only)

theorem cellUncorr_keeps (hk : Keeps σ τ) (cell : Nat) : Keeps σ (τ.cellUncorr cell) := by
  unfold State.cellUncorr
  repeat' with_reducible (first
    | assumption | (intro _ _ _) | apply insUncorr_keeps | apply loseEntry_keeps | apply work_keeps | apply each_keeps'
    | apply ite_keeps | simp only [keeps_mk] | apply Keeps.parts | split | dsimp only)

theorem operandArrive_keeps (hk : Keeps σ τ) (x c r : Nat) (bad : Option Nat) : Keeps σ (τ.operandArrive x c r bad) := by
  unfold State.operandArrive
  repeat' with_reducible (first
    | assumption | (intro _ _ _) | apply cellUncorr_keeps | apply countAccess_keeps | apply readParity_keeps | refine readParity_keeps_eq ‹_› ?_
    | apply setChunk_keeps | apply unrecoverable_keeps | apply each_keeps' | apply ite_keeps | simp only [keeps_mk] | apply Keeps.parts
    | split | dsimp only)

theorem spillServed_keeps (hk : Keeps σ τ) (d : Nat) : Keeps σ (τ.spillServed d) := by
  unfold State.spillServed
  repeat' with_reducible (first
    | assumption | (intro _ _ _) | apply ite_keeps | simp only [keeps_mk] | apply Keeps.parts | dsimp only)

theorem spillFetched_keeps (hk : Keeps σ τ) (x c q : Nat) (bad : Option Nat) : Keeps σ (τ.spillFetched x c q bad) := by
  unfold State.spillFetched
  repeat' with_reducible (first
    | assumption | (intro _ _ _) | apply countChannel_keeps | apply exactLoss_keeps | apply gddrUncorr_keeps | apply setChunk_keeps
    | apply spillServed_keeps | apply work_keeps | apply each_keeps' | apply ite_keeps | simp only [keeps_mk] | apply Keeps.parts
    | split | dsimp only)

theorem spillWritten_keeps (hk : Keeps σ τ) (x c q : Nat) : Keeps σ (τ.spillWritten x c q) := by
  unfold State.spillWritten
  repeat' with_reducible (first
    | assumption | (intro _ _ _) | apply gddrWrite_keeps | refine gddrWrite_keeps_eq ‹_› ?_ | apply setChunk_keeps | apply spillServed_keeps
    | apply each_keeps' | apply ite_keeps | simp only [keeps_mk] | apply Keeps.parts | split | dsimp only)

theorem keepRecord_keeps (hk : Keeps σ τ) (a : Nat) (l : List Byte) : Keeps σ (τ.keepRecord a l) := by
  unfold State.keepRecord
  repeat' with_reducible (first
    | assumption | (intro _ _ _) | apply countChannel_keeps | apply setGddr_keeps | apply ite_keeps | dsimp only)

theorem syncWarm_keeps (hk : Keeps σ τ) (x before after : Nat) : Keeps σ (τ.syncWarm x before after) := by
  unfold State.syncWarm
  repeat' with_reducible (first
    | assumption | (intro _ _ _) | apply inc_keeps | apply wr_keeps | apply ite_keeps | split
    | dsimp only)

theorem recordArrive_keeps (hk : Keeps σ τ) (x c : Nat) (bad : Bool) : Keeps σ (τ.recordArrive x c bad) := by
  unfold State.recordArrive
  repeat' with_reducible (first
    | assumption | (intro _ _ _) | apply exactLoss_keeps | apply gddrRead_keeps | refine gddrRead_keeps_eq ‹_› ?_ | apply inc_keeps
    | apply raise_keeps | apply setChunk_keeps | apply ite_keeps | simp only [keeps_mk] | apply Keeps.parts | split
    | dsimp only)

theorem releasePartials_keeps (hk : Keeps σ τ) (t j : Nat) : Keeps σ (τ.releasePartials t j) := by
  unfold State.releasePartials
  repeat' with_reducible (first
    | assumption | (intro _ _ _) | apply sendPartials_keeps | apply each_keeps' | apply ite_keeps | simp only [keeps_mk]
    | apply Keeps.parts | split | dsimp only)

theorem withdrawOpp_keeps (hk : Keeps σ τ) (t j : Nat) : Keeps σ (τ.withdrawOpp t j) := by
  unfold State.withdrawOpp
  repeat' with_reducible (first
    | assumption | (intro _ _ _) | apply each_keeps' | apply ite_keeps | simp only [keeps_mk] | apply Keeps.parts
    | dsimp only)

theorem withdrawPartials_keeps (hk : Keeps σ τ) (t j : Nat) : Keeps σ (τ.withdrawPartials t j) := by
  unfold State.withdrawPartials
  repeat' with_reducible (first
    | assumption | (intro _ _ _) | apply ite_keeps | simp only [keeps_mk] | apply Keeps.parts | dsimp only)

theorem spineHold_keeps (hk : Keeps σ τ)  : Keeps σ (τ.spineHold) := by
  unfold State.spineHold
  repeat' with_reducible (first
    | assumption | (intro _ _ _) | apply dropObj_keeps | apply freeze_keeps | apply releasePartials_keeps | apply setHold_keeps
    | apply withdrawOpp_keeps | apply withdrawPartials_keeps | apply ite_keeps | simp only [keeps_mk] | apply Keeps.parts | split
    | dsimp only)

theorem allocAll_keeps {a r : Nat} {l : List Item} {y} (he : τ.allocAll a r l = some y) (hk : Keeps σ τ) : Keeps σ y.2 := by
  induction l generalizing τ y with
  | nil => simp only [State.allocAll, Option.some.injEq] at he; exact he ▸ hk
  | cons i l ih =>
    rw [State.allocAll] at he
    split at he
    · cases he
    · next p s hs =>
      obtain ⟨z, hz, rfl⟩ := Option.map_eq_some_iff.mp he
      exact ih (y := z) hz (allocNow_keeps_eq hs hk)

theorem updateRecord_keeps (hk : Keeps σ τ) (x c : Nat) (r : NumRec) (out : RootOut) (ev : ChunkEv) (die : Nat) : Keeps σ (τ.updateRecord x c r out ev die) := by
  unfold State.updateRecord
  repeat' with_reducible (first
    | assumption | (intro _ _ _) | apply gddrWrite_keeps | refine gddrWrite_keeps_eq ‹_› ?_ | apply inc_keeps | apply raise_keeps
    | apply syncWarm_keeps | apply wr_keeps | apply ite_keeps | split | dsimp only)

theorem countEvents_keeps (hk : Keeps σ τ) (x : Nat) (ev : ChunkEv) : Keeps σ (τ.countEvents x ev) := by
  unfold State.countEvents
  repeat' with_reducible (first
    | assumption | (intro _ _ _) | apply inc_keeps | apply wr_keeps | apply ite_keeps | split
    | dsimp only)

theorem releaseInputs_keeps (hk : Keeps σ τ) (x c : Nat) (ch : Chunk) (errs : Option (List UlpErr)) (outCells : Nat) : Keeps σ (τ.releaseInputs x c ch errs outCells) := by
  unfold State.releaseInputs
  repeat' with_reducible (first
    | assumption | (intro _ _ _) | apply dropArrived_keeps | apply inc_keeps | apply setOp_keeps | apply each_keeps'
    | apply foldl_keeps_fst | apply foldl_keeps_snd | refine foldl_keeps_fst_eq ‹_› ?_ ?_ | refine foldl_keeps_snd_eq ‹_› ?_ ?_ | apply ite_keeps | simp only [keeps_mk]
    | apply Keeps.parts | split | dsimp only)

theorem epochCommitted_keeps (hk : Keeps σ τ) (t : Nat) : Keeps σ (τ.epochCommitted t) := by
  unfold State.epochCommitted
  repeat' with_reducible (first
    | assumption | (intro _ _ _) | apply setSpore_keeps | apply wr_keeps | apply foldl_keeps_fst | apply foldl_keeps_snd
    | refine foldl_keeps_fst_eq ‹_› ?_ ?_ | refine foldl_keeps_snd_eq ‹_› ?_ ?_ | apply ite_keeps | simp only [keeps_mk] | apply Keeps.parts | split
    | dsimp only)

theorem markCommitted_keeps (hk : Keeps σ τ) (x c : Nat) (ch : Chunk) : Keeps σ (τ.markCommitted x c ch) := by
  unfold State.markCommitted
  repeat' with_reducible (first
    | assumption | (intro _ _ _) | apply inc_keeps | apply setOp_keeps | apply ite_keeps | simp only [keeps_mk]
    | apply Keeps.parts | dsimp only)

theorem commitEpoch_keeps (hk : Keeps σ τ) (x c : Nat) (ch : Chunk) (res : List Elem) (g : Nat) : Keeps σ (τ.commitEpoch x c ch res g) := by
  unfold State.commitEpoch
  repeat' with_reducible (first
    | assumption | (intro _ _ _) | apply allocNow_keeps | refine allocNow_keeps_eq ‹_› ?_ | apply countBlock_keeps | apply dropChunk_keeps
    | apply epochCommitted_keeps | apply freeObj_keeps | apply gddrWrite_keeps | refine gddrWrite_keeps_eq ‹_› ?_ | apply markCommitted_keeps | apply releaseInputs_keeps
    | apply setOp_keeps | apply sporeWrite_keeps | apply work_keeps | apply each_keeps' | apply foldl_keeps_fst | apply foldl_keeps_snd
    | refine foldl_keeps_fst_eq ‹_› ?_ ?_ | refine foldl_keeps_snd_eq ‹_› ?_ ?_ | apply ite_keeps | simp only [keeps_mk] | apply Keeps.parts | split
    | dsimp only)

theorem pushShard_keeps (hk : Keeps σ τ) (x rank ptr die : Nat) (data : List Byte) : Keeps σ (τ.pushShard x rank ptr die data) := by
  unfold State.pushShard
  repeat' with_reducible (first
    | assumption | (intro _ _ _) | apply addRefs_keeps | apply countWrite_keeps | apply fresh_keeps | refine fresh_keeps_eq ‹_› ?_
    | apply pushVoq_keeps | apply setOp_keeps | apply ite_keeps | simp only [keeps_mk] | apply Keeps.parts | split
    | dsimp only)

theorem commitRegrow_keeps (hk : Keeps σ τ) (x c : Nat) (ch : Chunk) (res : List Elem) (g : Nat) : Keeps σ (τ.commitRegrow x c ch res g) := by
  unfold State.commitRegrow
  repeat' with_reducible (first
    | assumption | (intro _ _ _) | apply dropChunk_keeps | apply markCommitted_keeps | apply pushShard_keeps | apply releaseInputs_keeps
    | apply work_keeps | refine allocAll_keeps (y := (_, _)) ‹_› ?_ | apply each_keeps' | apply ite_keeps | simp only [keeps_mk] | apply Keeps.parts
    | split | dsimp only)

theorem commitPartial_keeps (hk : Keeps σ τ) (x c : Nat) (ch : Chunk) (res : List Elem) : Keeps σ (τ.commitPartial x c ch res) := by
  unfold State.commitPartial
  repeat' with_reducible (first
    | assumption | (intro _ _ _) | apply countAccess_keeps | apply countEvents_keeps | apply dropChunk_keeps | apply markCommitted_keeps
    | apply releaseInputs_keeps | apply sendPartials_keeps | apply setOp_keeps | apply work_keeps | refine allocAll_keeps (y := (_, _)) ‹_› ?_ | apply each_keeps'
    | apply foldl_keeps_fst | apply foldl_keeps_snd | refine foldl_keeps_fst_eq ‹_› ?_ ?_ | refine foldl_keeps_snd_eq ‹_› ?_ ?_ | apply ite_keeps | simp only [keeps_mk]
    | apply Keeps.parts | split | dsimp only)

theorem commitResult_keeps (hk : Keeps σ τ) (x c : Nat) (ch : Chunk) (res : List Elem) : Keeps σ (τ.commitResult x c ch res) := by
  unfold State.commitResult
  repeat' with_reducible (first
    | assumption | (intro _ _ _) | apply countAccess_keeps | apply countEvents_keeps | apply dropChunk_keeps | apply dropWarm_keeps
    | apply markCommitted_keeps | apply multicast_keeps | apply releaseInputs_keeps | apply setChunk_keeps | apply setOp_keeps | apply updateRecord_keeps
    | apply work_keeps | apply wr_keeps | refine allocAll_keeps (y := (_, _)) ‹_› ?_ | apply each_keeps' | apply foldl_keeps_fst | apply foldl_keeps_snd
    | refine foldl_keeps_fst_eq ‹_› ?_ ?_ | refine foldl_keeps_snd_eq ‹_› ?_ ?_ | apply ite_keeps | simp only [keeps_mk] | apply Keeps.parts | split
    | dsimp only)

theorem chunkCommit_keeps (hk : Keeps σ τ) (x c : Nat) : Keeps σ (τ.chunkCommit x c) := by
  unfold State.chunkCommit
  repeat' with_reducible (first
    | assumption | (intro _ _ _) | apply commitEpoch_keeps | apply commitPartial_keeps | apply commitRegrow_keeps | apply commitResult_keeps
    | apply ite_keeps | simp only [keeps_mk] | apply Keeps.parts | split | dsimp only)

theorem setMonitor_keeps (hk : Keeps σ τ) (d : Nat) (m : Monitor) : Keeps σ (τ.setMonitor d m) := by
  unfold State.setMonitor
  repeat' with_reducible (first
    | assumption | (intro _ _ _) | apply ite_keeps | simp only [keeps_mk] | apply Keeps.parts | dsimp only)

theorem monitorRead_keeps (hk : Keeps σ τ) (d : Nat) : Keeps σ (τ.monitorRead d) := by
  unfold State.monitorRead
  repeat' with_reducible (first
    | assumption | (intro _ _ _) | apply countAccess_keeps | apply dropArrived_keeps | apply setMonitor_keeps | apply each_keeps'
    | apply ite_keeps | simp only [keeps_mk] | apply Keeps.parts | split | dsimp only)

theorem shadowComplete_keeps (hk : Keeps σ τ) (d : Nat) : Keeps σ (τ.shadowComplete d) := by
  unfold State.shadowComplete
  repeat' with_reducible (first
    | assumption | (intro _ _ _) | apply inc_keeps | apply raise_keeps | apply setMonitor_keeps | apply wr_keeps
    | apply foldl_keeps_fst | apply foldl_keeps_snd | refine foldl_keeps_fst_eq ‹_› ?_ ?_ | refine foldl_keeps_snd_eq ‹_› ?_ ?_ | apply ite_keeps | simp only [keeps_mk]
    | apply Keeps.parts | split | dsimp only)

theorem putPlacement_keeps (hk : Keeps σ τ) (x : Nat) (ps : List Placement) : Keeps σ (τ.putPlacement x ps) := by
  unfold State.putPlacement
  repeat' with_reducible (first
    | assumption | (intro _ _ _) | apply inc_keeps | apply raise_keeps | apply setOp_keeps | apply ite_keeps
    | simp only [keeps_mk] | apply Keeps.parts | split | dsimp only)

theorem sendReports_keeps (hk : Keeps σ τ) (x : Nat) (rs : List Nat) : Keeps σ (τ.sendReports x rs) := by
  unfold State.sendReports
  repeat' with_reducible (first
    | assumption | (intro _ _ _) | apply output_keeps | apply each_keeps' | apply ite_keeps | dsimp only)

theorem exchangePlacement_keeps (hk : Keeps σ τ) (x : Nat) : Keeps σ (τ.exchangePlacement x) := by
  unfold State.exchangePlacement
  repeat' with_reducible (first
    | assumption | (intro _ _ _) | apply mark_keeps | apply putPlacement_keeps | apply sendReports_keeps | apply work_keeps
    | apply wr_keeps | apply foldl_keeps_fst | apply foldl_keeps_snd | refine foldl_keeps_fst_eq ‹_› ?_ ?_ | refine foldl_keeps_snd_eq ‹_› ?_ ?_ | apply ite_keeps
    | split | dsimp only)

theorem replace_keeps (hk : Keeps σ τ) (x : Nat) : Keeps σ (τ.replace x) := by
  unfold State.replace
  repeat' with_reducible (first
    | assumption | (intro _ _ _) | apply putPlacement_keeps | apply sendReports_keeps | apply uncount_keeps | apply ite_keeps
    | simp only [keeps_mk] | apply Keeps.parts | split | dsimp only)

theorem endPlacements_keeps (hk : Keeps σ τ)  : Keeps σ (τ.endPlacements) := by
  unfold State.endPlacements
  repeat' with_reducible (first
    | assumption | (intro _ _ _) | apply freeSettled_keeps | apply replace_keeps | apply work_keeps | apply each_keeps'
    | apply ite_keeps | simp only [keeps_mk] | apply Keeps.parts | split | dsimp only)

theorem exchangeAssemble_keeps (hk : Keeps σ τ) (x d k : Nat) : Keeps σ (τ.exchangeAssemble x d k) := by
  unfold State.exchangeAssemble
  repeat' with_reducible (first
    | assumption | (intro _ _ _) | apply freeSettled_keeps | apply output_keeps | apply setOp_keeps | apply work_keeps
    | apply ite_keeps | simp only [keeps_mk] | apply Keeps.parts | split | dsimp only)

end Sys2Proof.Machine
end

