-- ==== Sys2Proof/Laws/KeepsRecovery.lean ====
section
/-!
SUPPORT. `Keeps` for the operations of Discovery, Spore.
-/

namespace Sys2Proof.Machine

set_option Elab.async false
set_option linter.unusedTactic false
set_option linter.unreachableTactic false
set_option linter.unusedSimpArgs false

variable {σ τ υ : State}

theorem setSlave_keeps (hk : Keeps σ τ) (p : Option Nat) : Keeps σ (τ.setSlave p) := by
  unfold State.setSlave
  repeat' with_reducible (first
    | assumption | (intro _ _ _) | apply wr_keeps | apply ite_keeps | simp only [keeps_mk] | apply Keeps.parts
    | dsimp only)

theorem syncTime_keeps (hk : Keeps σ τ)  : Keeps σ (τ.syncTime) := by
  unfold State.syncTime
  repeat' with_reducible (first
    | assumption | (intro _ _ _) | apply setSlave_keeps | apply wr_keeps | apply ite_keeps | simp only [keeps_mk]
    | apply Keeps.parts | split | dsimp only)

theorem setTimePs_keeps (hk : Keeps σ τ) (t : Int) : Keeps σ (τ.setTimePs t) := by
  unfold State.setTimePs
  repeat' with_reducible (first
    | assumption | (intro _ _ _) | apply wr_keeps | apply ite_keeps | simp only [keeps_mk] | apply Keeps.parts
    | dsimp only)

theorem steer_keeps (hk : Keeps σ τ)  : Keeps σ (τ.steer) := by
  unfold State.steer
  repeat' with_reducible (first
    | assumption | (intro _ _ _) | apply fresh_keeps | refine fresh_keeps_eq ‹_› ?_ | apply wr_keeps | apply ite_keeps
    | simp only [keeps_mk] | apply Keeps.parts | split | dsimp only)

theorem takeSync_keeps (hk : Keeps σ τ) (p : Nat) (t1 t2 : Int) : Keeps σ (τ.takeSync p t1 t2) := by
  unfold State.takeSync
  repeat' with_reducible (first
    | assumption | (intro _ _ _) | apply raise_keeps | apply setTimePs_keeps | apply steer_keeps | apply wr_keeps
    | apply ite_keeps | simp only [keeps_mk] | apply Keeps.parts | split | dsimp only)

theorem sendTime_keeps (hk : Keeps σ τ) (p : Nat) (m : TimeMsg) : Keeps σ (τ.sendTime p m) := by
  unfold State.sendTime
  repeat' with_reducible (first
    | assumption | (intro _ _ _) | apply emit_keeps | apply ite_keeps | dsimp only)

theorem takeDelay_keeps (hk : Keeps σ τ) (p rx sent : Nat) (m : TimeMsg) : Keeps σ (τ.takeDelay p rx sent m) := by
  unfold State.takeDelay
  repeat' with_reducible (first
    | assumption | (intro _ _ _) | apply setPort_keeps | apply wr_keeps | apply foldl_keeps_fst | apply foldl_keeps_snd
    | refine foldl_keeps_fst_eq ‹_› ?_ ?_ | refine foldl_keeps_snd_eq ‹_› ?_ ?_ | apply ite_keeps | simp only [keeps_mk] | apply Keeps.parts | dsimp only)

theorem timeBlock_keeps (hk : Keeps σ τ) (p rx : Nat) : Keeps σ (τ.timeBlock p rx) := by
  unfold State.timeBlock
  repeat' with_reducible (first
    | assumption | (intro _ _ _) | apply sendTime_keeps | apply setPort_keeps | apply syncTime_keeps | refine takeCtl_keeps ‹_› ?_
    | apply takeDelay_keeps | apply takeSync_keeps | apply ite_keeps | simp only [keeps_mk] | apply Keeps.parts | split
    | dsimp only)

theorem syncSend_keeps (hk : Keeps σ τ) (p : Nat) : Keeps σ (τ.syncSend p) := by
  unfold State.syncSend
  repeat' with_reducible (first
    | assumption | (intro _ _ _) | apply sendTime_keeps | apply setPort_keeps | apply ite_keeps | simp only [keeps_mk]
    | apply Keeps.parts | split | dsimp only)

theorem pdelaySend_keeps (hk : Keeps σ τ) (p : Nat) : Keeps σ (τ.pdelaySend p) := by
  unfold State.pdelaySend
  repeat' with_reducible (first
    | assumption | (intro _ _ _) | apply sendTime_keeps | apply setPort_keeps | apply ite_keeps | simp only [keeps_mk]
    | apply Keeps.parts | split | dsimp only)

theorem syncLoss_keeps (hk : Keeps σ τ)  : Keeps σ (τ.syncLoss) := by
  unfold State.syncLoss
  repeat' with_reducible (first
    | assumption | (intro _ _ _) | apply inc_keeps | apply raise_keeps | apply setSlave_keeps | apply wr_keeps
    | apply ite_keeps | simp only [keeps_mk] | apply Keeps.parts | split | dsimp only)

theorem writeTime_keeps (hk : Keeps σ τ) (ns : Nat) : Keeps σ (τ.writeTime ns) := by
  unfold State.writeTime
  repeat' with_reducible (first
    | assumption | (intro _ _ _) | apply wr_keeps | apply ite_keeps | simp only [keeps_mk] | apply Keeps.parts
    | split | dsimp only)

theorem identSend_keeps (hk : Keeps σ τ) (p : Nat) : Keeps σ (τ.identSend p) := by
  unfold State.identSend
  repeat' with_reducible (first
    | assumption | (intro _ _ _) | apply emit_keeps | apply setPort_keeps | apply ite_keeps | simp only [keeps_mk]
    | apply Keeps.parts | split | dsimp only)

theorem moveToOpp_keeps (hk : Keeps σ τ) (b : Nat) : Keeps σ (τ.moveToOpp b) := by
  unfold State.moveToOpp
  repeat' with_reducible (first
    | assumption | (intro _ _ _) | apply each_keeps' | apply ite_keeps | simp only [keeps_mk] | apply Keeps.parts
    | split | dsimp only)

theorem syncOpp_keeps (hk : Keeps σ τ) (p : Nat) : Keeps σ (τ.syncOpp p) := by
  unfold State.syncOpp
  repeat' with_reducible (first
    | assumption | (intro _ _ _) | apply moveToOpp_keeps | apply wr_keeps | apply ite_keeps | split
    | dsimp only)

theorem conclude_keeps (hk : Keeps σ τ) (p o : Nat) : Keeps σ (τ.conclude p o) := by
  unfold State.conclude
  repeat' with_reducible (first
    | assumption | (intro _ _ _) | apply hwFence_keeps | apply raise_keeps | apply setOutcome_keeps | apply setPort_keeps
    | apply syncDiscSum_keeps | apply syncOpp_keeps | apply wr_keeps | apply ite_keeps | simp only [keeps_mk] | apply Keeps.parts
    | split | dsimp only)

theorem negotiate_keeps (hk : Keeps σ τ) (p : Nat) : Keeps σ (τ.negotiate p) := by
  unfold State.negotiate
  repeat' with_reducible (first
    | assumption | (intro _ _ _) | apply conclude_keeps | apply wr_keeps | apply ite_keeps | simp only [keeps_mk]
    | apply Keeps.parts | split | dsimp only)

theorem takeIdentity_keeps (hk : Keeps σ τ) (p : Nat) (id : List Byte) : Keeps σ (τ.takeIdentity p id) := by
  unfold State.takeIdentity
  repeat' with_reducible (first
    | assumption | (intro _ _ _) | apply negotiate_keeps | apply realign_keeps | apply setPort_keeps | apply wr_keeps
    | apply each_keeps' | apply ite_keeps | simp only [keeps_mk] | apply Keeps.parts | split | dsimp only)

theorem identBlock_keeps (hk : Keeps σ τ) (p : Nat) : Keeps σ (τ.identBlock p) := by
  unfold State.identBlock
  repeat' with_reducible (first
    | assumption | (intro _ _ _) | apply setPort_keeps | refine takeCtl_keeps ‹_› ?_ | apply takeIdentity_keeps | apply ite_keeps
    | simp only [keeps_mk] | apply Keeps.parts | split | dsimp only)

theorem negotiationTimeout_keeps (hk : Keeps σ τ) (p : Nat) : Keeps σ (τ.negotiationTimeout p) := by
  unfold State.negotiationTimeout
  repeat' with_reducible (first
    | assumption | (intro _ _ _) | apply conclude_keeps | apply ite_keeps | simp only [keeps_mk] | apply Keeps.parts
    | split | dsimp only)

theorem takeOutcomes_keeps (hk : Keeps σ τ)  : Keeps σ (τ.takeOutcomes) := by
  unfold State.takeOutcomes
  repeat' with_reducible (first
    | assumption | (intro _ _ _) | apply conclude_keeps | apply mark_keeps | apply setOutcome_keeps | apply each_keeps'
    | apply ite_keeps | split | dsimp only)

theorem forgetExpected_keeps (hk : Keeps σ τ)  : Keeps σ (τ.forgetExpected) := by
  unfold State.forgetExpected
  repeat' with_reducible (first
    | assumption | (intro _ _ _) | apply setOutcome_keeps | apply each_keeps' | apply ite_keeps | split
    | dsimp only)

theorem dropWins_keeps (hk : Keeps σ τ) (wins : List (Key × Option Nat)) : Keeps σ (τ.dropWins wins) :=
  each_keeps' hk (fun _ _ h => keeps_mk.mpr (h.partsRegs _ _))

theorem moveWins_keeps (hk : Keeps σ τ) (wins : List (Key × Option Nat)) (target : Nat → Nat) :
    Keeps σ (τ.moveWins wins target) := by
  refine each_keeps' (dropWins_keeps hk wins) (fun u e h => ?_)
  split
  · exact keeps_mk.mpr (h.partsRegs _ _)
  · exact h

theorem remapDo_keeps (hk : Keeps σ τ) (ps : List Nat) : Keeps σ (τ.remapDo ps) := by
  unfold State.remapDo
  repeat' with_reducible (first
    | assumption | (intro _ _ _) | apply mark_keeps | apply moveWins_keeps | apply setOutcome_keeps | apply syncDiscSum_keeps
    | apply syncFenced_keeps | apply syncOpp_keeps | apply unfence_keeps | apply wr_keeps | apply each_keeps' | apply ite_keeps
    | dsimp only)

theorem setDigest_keeps (hk : Keeps σ τ) (f : Fld) (d : Nat) : Keeps σ (τ.setDigest f d) := by
  unfold State.setDigest
  repeat' with_reducible (first
    | assumption | (intro _ _ _) | apply wr_keeps | apply each_keeps' | apply ite_keeps | dsimp only)

theorem gddrSpan_keeps (hk : Keeps σ τ) (a n : Nat) (bad : Option Nat) : Keeps σ (τ.gddrSpan a n bad).2 := by
  unfold State.gddrSpan
  repeat' with_reducible (first
    | assumption | (intro _ _ _) | apply gddrRead_keeps | refine gddrRead_keeps_eq ‹_› ?_ | apply ite_keeps | dsimp only)

theorem gddrSpan_keeps_eq {a n : Nat} {bad : Option Nat} {y} (he : τ.gddrSpan a n bad = (y, υ)) (hk : Keeps σ τ) : Keeps σ υ := by
  have := gddrSpan_keeps hk a n bad
  rwa [he] at this

theorem headRead_keeps (hk : Keeps σ τ) (t b : Nat) (bad : Option Nat) : Keeps σ (τ.headRead t b bad) := by
  unfold State.headRead
  repeat' with_reducible (first
    | assumption | (intro _ _ _) | apply countChannel_keeps | apply gddrUncorr_keeps | apply each_keeps' | apply ite_keeps
    | dsimp only)

theorem bufferImage_keeps (hk : Keeps σ τ) (t b : Nat) (bad : Option Nat) : Keeps σ (τ.bufferImage t b bad).2 := by
  rw [State.bufferImage.eq_def]
  exact ite_keeps_snd (gddrSpan_keeps hk _ _ _) (headRead_keeps hk _ _ _)

theorem bufferImage_keeps_eq {t b : Nat} {bad : Option Nat} {y} (he : τ.bufferImage t b bad = (y, υ)) (hk : Keeps σ τ) :
    Keeps σ υ := by
  have := bufferImage_keeps hk t b bad
  rwa [he] at this

theorem findImage_keeps (hk : Keeps σ τ) (t k n : Nat) : Keeps σ (τ.findImage t k n).2 := by
  induction n generalizing τ k with
  | zero => exact hk
  | succ n ih =>
    rw [State.findImage]
    dsimp only
    split
    · exact readGranule_keeps hk _
    · exact ih (readGranule_keeps hk _) _

theorem findImage_keeps_eq {t k n : Nat} {y} (he : τ.findImage t k n = (y, υ)) (hk : Keeps σ τ) : Keeps σ υ := by
  have := findImage_keeps hk t k n
  rwa [he] at this

theorem slotImage_keeps (hk : Keeps σ τ) (t b : Nat) : Keeps σ (τ.slotImage t b).2 := by
  unfold State.slotImage
  repeat' with_reducible (first
    | assumption | (intro _ _ _) | apply findImage_keeps | refine findImage_keeps_eq ‹_› ?_ | apply readGranule_keeps | refine readGranule_keeps_eq ‹_› ?_
    | apply each_keeps' | apply ite_keeps | simp only [keeps_mk] | apply Keeps.parts | split | dsimp only)

theorem slotImage_keeps_eq {t b : Nat} {y} (he : τ.slotImage t b = (y, υ)) (hk : Keeps σ τ) : Keeps σ υ := by
  have := slotImage_keeps hk t b
  rwa [he] at this

theorem warmUp_keeps (hk : Keeps σ τ) (x : Nat) : Keeps σ (τ.warmUp x) := by
  unfold State.warmUp
  repeat' with_reducible (first
    | assumption | (intro _ _ _) | apply keepRecord_keeps | apply wr_keeps | apply each_keeps' | apply ite_keeps
    | split | dsimp only)

theorem recountWarm_keeps (hk : Keeps σ τ) (x : Nat) : Keeps σ (τ.recountWarm x) := by
  unfold State.recountWarm
  repeat' with_reducible (first
    | assumption | (intro _ _ _) | apply wr_keeps | apply ite_keeps | dsimp only)

theorem captureRecords_keeps (hk : Keeps σ τ) (x : Nat) : Keeps σ (τ.captureRecords x) := by
  unfold State.captureRecords
  repeat' with_reducible (first
    | assumption | (intro _ _ _) | apply countChannel_keeps | apply exactLoss_keeps | apply gddrUncorr_keeps | apply inc_keeps
    | apply keepRecord_keeps | apply raise_keeps | apply recountWarm_keeps | apply each_keeps' | apply ite_keeps | simp only [keeps_mk]
    | apply Keeps.parts | split | dsimp only)

theorem applyImage_keeps (hk : Keeps σ τ) (l : List Byte) (xs : List Nat) : Keeps σ (τ.applyImage l xs) := by
  unfold State.applyImage
  repeat' with_reducible (first
    | assumption | (intro _ _ _) | apply keepRecord_keeps | apply recountWarm_keeps | apply warmUp_keeps | apply wr_keeps
    | apply each_keeps' | apply ite_keeps | split | dsimp only)

theorem setCkp_keeps (hk : Keeps σ τ) (t st : Nat) : Keeps σ (τ.setCkp t st) := by
  unfold State.setCkp
  repeat' with_reducible (first
    | assumption | (intro _ _ _) | apply wr_keeps | apply ite_keeps | split | dsimp only)

theorem abortEpoch_keeps (hk : Keeps σ τ) (t : Nat) : Keeps σ (τ.abortEpoch t) := by
  unfold State.abortEpoch
  repeat' with_reducible (first
    | assumption | (intro _ _ _) | apply dropEpoch_keeps | apply takeHeld_keeps | refine takeHeld_keeps_eq ‹_› ?_ | apply work_keeps
    | apply ite_keeps | split | dsimp only)

theorem cutEnd_keeps (hk : Keeps σ τ) (t : Nat) : Keeps σ (τ.cutEnd t) := by
  unfold State.cutEnd
  repeat' with_reducible (first
    | assumption | (intro _ _ _) | apply abortEpoch_keeps | apply captureRecords_keeps | apply epochCommitted_keeps | apply gddrWrite_keeps
    | refine gddrWrite_keeps_eq ‹_› ?_ | apply setCkp_keeps | apply setSpore_keeps | apply takeHeld_keeps | refine takeHeld_keeps_eq ‹_› ?_ | apply work_keeps
    | apply each_keeps' | apply ite_keeps | simp only [keeps_mk] | apply Keeps.parts | split | dsimp only)

theorem cutTimeout_keeps (hk : Keeps σ τ) (t : Nat) : Keeps σ (τ.cutTimeout t) := by
  unfold State.cutTimeout
  repeat' with_reducible (first
    | assumption | (intro _ _ _) | apply abortEpoch_keeps | apply raise_keeps | apply ite_keeps | simp only [keeps_mk]
    | apply Keeps.parts | split | dsimp only)

theorem epochSecured_keeps (hk : Keeps σ τ) (t : Nat) (bad : Option Nat) : Keeps σ (τ.epochSecured t bad) := by
  unfold State.epochSecured
  repeat' with_reducible (first
    | assumption | (intro _ _ _) | apply abortEpoch_keeps | apply allocNow_keeps | refine allocNow_keeps_eq ‹_› ?_ | apply countBlock_keeps
    | apply countChannel_keeps | apply freeObj_keeps | apply gddrUncorr_keeps | apply setSpore_keeps | apply sporeWrite_keeps | apply syncDrain_keeps
    | apply wr_keeps | apply each_keeps' | apply ite_keeps | simp only [keeps_mk] | apply Keeps.parts | split
    | dsimp only)

theorem epochDone_keeps (hk : Keeps σ τ) (t : Nat) (e : Epoch) : Keeps σ (τ.epochDone t e) := by
  unfold State.epochDone
  repeat' with_reducible (first
    | assumption | (intro _ _ _) | apply inc_keeps | apply setCkp_keeps | apply setSpore_keeps | apply work_keeps
    | apply wr_keeps | apply ite_keeps | simp only [keeps_mk] | apply Keeps.parts | dsimp only)

theorem epochClose_keeps (hk : Keeps σ τ) (t : Nat) : Keeps σ (τ.epochClose t) := by
  unfold State.epochClose
  repeat' with_reducible (first
    | assumption | (intro _ _ _) | apply epochDone_keeps | apply ite_keeps | simp only [keeps_mk] | apply Keeps.parts
    | split | dsimp only)

theorem tierWriteFail_keeps (hk : Keeps σ τ) (t i acked : Nat) : Keeps σ (τ.tierWriteFail t i acked) := by
  unfold State.tierWriteFail
  repeat' with_reducible (first
    | assumption | (intro _ _ _) | apply inc_keeps | apply raise_keeps | apply setSpore_keeps | apply syncDrain_keeps
    | apply ite_keeps | simp only [keeps_mk] | apply Keeps.parts | split | dsimp only)

theorem lichenUpdate_keeps (hk : Keeps σ τ)  : Keeps σ (τ.lichenUpdate) := by
  unfold State.lichenUpdate
  repeat' with_reducible (first
    | assumption | (intro _ _ _) | apply raise_keeps | apply wr_keeps | apply foldl_keeps_fst | apply foldl_keeps_snd
    | refine foldl_keeps_fst_eq ‹_› ?_ ?_ | refine foldl_keeps_snd_eq ‹_› ?_ ?_ | apply ite_keeps | simp only [keeps_mk] | apply Keeps.parts | split
    | dsimp only)

theorem cadenceUpdate_keeps (hk : Keeps σ τ)  : Keeps σ (τ.cadenceUpdate) := by
  unfold State.cadenceUpdate
  repeat' with_reducible (first
    | assumption | (intro _ _ _) | apply inc_keeps | apply wr_keeps | apply ite_keeps | split
    | dsimp only)

theorem pauseLast_keeps (hk : Keeps σ τ) (t : Nat) : Keeps σ (τ.pauseLast t) := by
  unfold State.pauseLast
  repeat' with_reducible (first
    | assumption | (intro _ _ _) | apply pauseCtx_keeps | apply sendGrants_keeps | apply wr_keeps | apply each_keeps'
    | apply ite_keeps | split | dsimp only)

theorem losePosition_keeps (hk : Keeps σ τ) (t g i : Nat) : Keeps σ (τ.losePosition t g i) := by
  unfold State.losePosition
  repeat' with_reducible (first
    | assumption | (intro _ _ _) | apply sent_keeps | refine sent_keeps_eq ‹_› ?_ | apply setLost_keeps | apply work_keeps
    | apply wr_keeps | apply ite_keeps | simp only [keeps_mk] | apply Keeps.parts | split | dsimp only)

theorem memberFailed_keeps (hk : Keeps σ τ) (p : Nat) : Keeps σ (τ.memberFailed p) := by
  unfold State.memberFailed
  repeat' with_reducible (first
    | assumption | (intro _ _ _) | apply dropEpoch_keeps | apply epochDone_keeps | apply inc_keeps | apply losePosition_keeps
    | apply pauseLast_keeps | apply raise_keeps | apply setFences_keeps | apply setSpore_keeps | apply takeHeld_keeps | refine takeHeld_keeps_eq ‹_› ?_
    | apply work_keeps | apply wr_keeps | apply each_keeps' | apply foldl_keeps_fst | apply foldl_keeps_snd | refine foldl_keeps_fst_eq ‹_› ?_ ?_
    | refine foldl_keeps_snd_eq ‹_› ?_ ?_ | apply ite_keeps | simp only [keeps_mk] | apply Keeps.parts | split | dsimp only)

theorem unfenceLost_keeps (hk : Keeps σ τ) (t g : Nat) : Keeps σ (τ.unfenceLost t g) := by
  unfold State.unfenceLost
  repeat' with_reducible (first
    | assumption | (intro _ _ _) | apply unfence_keeps | apply ite_keeps | dsimp only)

theorem setGroup_keeps (hk : Keeps σ τ) (t g : Nat) (f : GroupRec → GroupRec) : Keeps σ (τ.setGroup t g f) := by
  unfold State.setGroup
  repeat' with_reducible (first
    | assumption | (intro _ _ _) | apply ite_keeps | simp only [keeps_mk] | apply Keeps.parts | dsimp only)

theorem regrowthStart_keeps (hk : Keeps σ τ) (t g : Nat) : Keeps σ (τ.regrowthStart t g) := by
  unfold State.regrowthStart
  repeat' with_reducible (first
    | assumption | (intro _ _ _) | apply askAdmission_keeps | apply openOp_keeps | apply sendGrants_keeps | apply setGroup_keeps
    | apply unfenceLost_keeps | apply wr_keeps | apply each_keeps' | apply ite_keeps | split | dsimp only)

theorem openRestores_keeps (hk : Keeps σ τ) (t epoch : Nat) (ready : Nat → Bool) : Keeps σ (τ.openRestores t epoch ready) := by
  unfold State.openRestores
  repeat' with_reducible (first
    | assumption | (intro _ _ _) | apply openOp_keeps | apply sendGrants_keeps | apply sent_keeps | refine sent_keeps_eq ‹_› ?_
    | apply setGroup_keeps | apply unfenceLost_keeps | apply wr_keeps | apply each_keeps' | apply ite_keeps | split
    | dsimp only)

theorem restoreStart_keeps (hk : Keeps σ τ) (t : Nat) : Keeps σ (τ.restoreStart t) := by
  unfold State.restoreStart
  repeat' with_reducible (first
    | assumption | (intro _ _ _) | apply openRestores_keeps | apply raise_keeps | apply setGroup_keeps | apply setSpore_keeps
    | apply work_keeps | apply wr_keeps | apply each_keeps' | apply ite_keeps | simp only [keeps_mk] | apply Keeps.parts
    | split | dsimp only)

theorem shardRead_keeps (hk : Keeps σ τ) (t g i : Nat) (poison : Option Nat) : Keeps σ (τ.shardRead t g i poison) := by
  unfold State.shardRead
  repeat' with_reducible (first
    | assumption | (intro _ _ _) | apply allocNow_keeps | refine allocNow_keeps_eq ‹_› ?_ | apply forward_keeps | apply fresh_keeps
    | refine fresh_keeps_eq ‹_› ?_ | apply inc_keeps | apply pushShard_keeps | apply request_keeps | apply sent_keeps | refine sent_keeps_eq ‹_› ?_
    | apply setGroup_keeps | apply setOp_keeps | apply unfenceLost_keeps | apply work_keeps | apply each_keeps' | apply ite_keeps
    | simp only [keeps_mk] | apply Keeps.parts | split | dsimp only)

theorem epochImage_keeps (hk : Keeps σ τ) (t e b : Nat) (bad : Option Nat) : Keeps σ (τ.epochImage t e b bad).2 := by
  unfold State.epochImage
  repeat' with_reducible (first
    | assumption | (intro _ _ _) | apply bufferImage_keeps | refine bufferImage_keeps_eq ‹_› ?_ | apply slotImage_keeps | refine slotImage_keeps_eq ‹_› ?_
    | apply ite_keeps | simp only [keeps_mk] | apply Keeps.parts | split | dsimp only)

theorem epochImage_keeps_eq {t e b : Nat} {bad : Option Nat} {y} (he : τ.epochImage t e b bad = (y, υ)) (hk : Keeps σ τ) : Keeps σ υ := by
  have := epochImage_keeps hk t e b bad
  rwa [he] at this

theorem reloadParity_keeps (hk : Keeps σ τ) (t b : Nat) : Keeps σ (τ.reloadParity t b) := by
  unfold State.reloadParity
  repeat' with_reducible (first
    | assumption | (intro _ _ _) | apply gddrWrite_keeps | refine gddrWrite_keeps_eq ‹_› ?_ | apply readGranule_keeps | refine readGranule_keeps_eq ‹_› ?_
    | apply each_keeps' | apply ite_keeps | simp only [keeps_mk] | apply Keeps.parts | split | dsimp only)

theorem afterFallback_keeps (hk : Keeps σ τ) (t : Nat) (found : Option SporeImage) : Keeps σ (τ.afterFallback t found) := by
  unfold State.afterFallback
  repeat' with_reducible (first
    | assumption | (intro _ _ _) | apply inc_keeps | apply reloadParity_keeps | apply setSpore_keeps | apply syncDrain_keeps
    | apply ite_keeps | simp only [keeps_mk] | apply Keeps.parts | split | dsimp only)

theorem rollImage_keeps (hk : Keeps σ τ) (t e : Nat) (full : Bool) (xs : List Nat) (bad : Option Nat) : Keeps σ (τ.rollImage t e full xs bad) := by
  unfold State.rollImage
  repeat' with_reducible (first
    | assumption | (intro _ _ _) | apply afterFallback_keeps | apply applyImage_keeps | apply epochImage_keeps | refine epochImage_keeps_eq ‹_› ?_
    | apply warmUp_keeps | apply work_keeps | apply each_keeps' | apply ite_keeps | simp only [keeps_mk] | apply Keeps.parts
    | split | dsimp only)

theorem resumeLasts_keeps (hk : Keeps σ τ) (us : List Nat) : Keeps σ (τ.resumeLasts us) := by
  unfold State.resumeLasts
  repeat' with_reducible (first
    | assumption | (intro _ _ _) | apply resumeCtx_keeps | apply sendGrants_keeps | apply wr_keeps | apply each_keeps'
    | apply ite_keeps | simp only [keeps_mk] | apply Keeps.parts | split | dsimp only)

theorem rollback_keeps (hk : Keeps σ τ) (t : Nat) (bad : Option Nat) : Keeps σ (τ.rollback t bad) := by
  unfold State.rollback
  repeat' with_reducible (first
    | assumption | (intro _ _ _) | apply resumeLasts_keeps | apply rollImage_keeps | apply setGroup_keeps | apply setLost_keeps
    | apply setSpore_keeps | apply settleAll_keeps | apply wr_keeps | apply each_keeps' | apply ite_keeps | simp only [keeps_mk]
    | apply Keeps.parts | split | dsimp only)

end Sys2Proof.Machine
end

