-- ==== Sys2Proof/Laws/KeepsHost.lean ====
section
/-!
SUPPORT. `Keeps` for the operations of Access, HostOps, PlanCheck, Plan, Mailbox.
-/

namespace Sys2Proof.Machine

set_option Elab.async false
set_option linter.unusedTactic false
set_option linter.unreachableTactic false
set_option linter.unusedSimpArgs false

variable {σ τ υ : State}

theorem writeRwl_keeps (hk : Keeps σ τ) (r : Reg) (i j word : Nat) : Keeps σ (τ.writeRwl r i j word) := by
  unfold State.writeRwl
  repeat' with_reducible (first
    | assumption | (intro _ _ _) | apply setRate_keeps | apply wr_keeps | apply each_keeps' | apply ite_keeps
    | split | dsimp only)

theorem resetPlanFields_keeps (hk : Keeps σ τ)  : Keeps σ (τ.resetPlanFields) := by
  unfold State.resetPlanFields
  repeat' with_reducible (first
    | assumption | (intro _ _ _) | apply setRate_keeps | apply wr_keeps | apply each_keeps' | apply ite_keeps
    | simp only [keeps_mk] | apply Keeps.parts | apply Keeps.partsRegs | apply Keeps.partsFilter | split | dsimp only)

theorem msix_keeps (hk : Keeps σ τ) (v : Nat) : Keeps σ (τ.msix v) := by
  unfold State.msix
  repeat' with_reducible (first
    | assumption | (intro _ _ _) | apply emit_keeps | apply wr_keeps | apply ite_keeps | split
    | dsimp only)

theorem setMask_keeps (hk : Keeps σ τ) (v : Nat) (m : Bool) : Keeps σ (τ.setMask v m) := by
  unfold State.setMask
  repeat' with_reducible (first
    | assumption | (intro _ _ _) | apply msix_keeps | apply wr_keeps | apply ite_keeps | split
    | dsimp only)

theorem putOp_keeps (hk : Keeps σ τ) (i : Nat) (op : LongOp) : Keeps σ (τ.putOp i op) := by
  unfold State.putOp
  repeat' with_reducible (first
    | assumption | (intro _ _ _) | apply wr_keeps | apply ite_keeps | simp only [keeps_mk] | apply Keeps.parts
    | dsimp only)

theorem endOp_keeps (hk : Keeps σ τ) (i state status : Nat) : Keeps σ (τ.endOp i state status) := by
  unfold State.endOp
  repeat' with_reducible (first
    | assumption | (intro _ _ _) | apply msix_keeps | apply wr_keeps | apply ite_keeps | simp only [keeps_mk]
    | apply Keeps.parts | split | dsimp only)

theorem planRecord_keeps (hk : Keeps σ τ)  : Keeps σ (τ.planRecord) := by
  unfold State.planRecord
  repeat' with_reducible (first
    | assumption | (intro _ _ _) | apply trigger_keeps | apply ite_keeps | dsimp only)

theorem setPlan_keeps (hk : Keeps σ τ) (state status : Nat) : Keeps σ (τ.setPlan state status) := by
  unfold State.setPlan
  repeat' with_reducible (first
    | assumption | (intro _ _ _) | apply planRecord_keeps | apply wr_keeps | apply ite_keeps | dsimp only)

theorem imageWord_keeps (hk : Keeps σ τ) (h : Hit) (v : Nat) : Keeps σ (τ.imageWord h v) := by
  unfold State.imageWord
  repeat' with_reducible (first
    | assumption | (intro _ _ _) | apply writeRwl_keeps | apply ite_keeps | dsimp only)

theorem syncMembers_keeps (hk : Keeps σ τ)  : Keeps σ (τ.syncMembers) := by
  unfold State.syncMembers
  repeat' with_reducible (first
    | assumption | (intro _ _ _) | apply syncFenced_keeps | apply syncPresent_keeps | apply ite_keeps | simp only [keeps_mk]
    | apply Keeps.parts | apply Keeps.partsRegs | apply Keeps.partsFilter | split | dsimp only)

theorem syncLasts_keeps (hk : Keeps σ τ)  : Keeps σ (τ.syncLasts) := by
  unfold State.syncLasts
  repeat' with_reducible (first
    | assumption | (intro _ _ _) | apply wr_keeps | apply ite_keeps | dsimp only)

theorem undoPlan_keeps (hk : Keeps σ τ)  : Keeps σ (τ.undoPlan) := by
  unfold State.undoPlan
  repeat' with_reducible (first
    | assumption | (intro _ _ _) | apply resetPlanFields_keeps | apply syncLasts_keeps | apply syncMembers_keeps | apply ite_keeps
    | dsimp only)

theorem clearRecords_keeps (hk : Keeps σ τ)  : Keeps σ (τ.clearRecords) := by
  unfold State.clearRecords
  repeat' with_reducible (first
    | assumption | (intro _ _ _) | apply zeroAll_keeps | apply ite_keeps | dsimp only)

theorem failLoad_keeps (hk : Keeps σ τ) (slot code : Nat) : Keeps σ (τ.failLoad slot code) := by
  unfold State.failLoad
  repeat' with_reducible (first
    | assumption | (intro _ _ _) | apply endOp_keeps | apply wr_keeps | apply ite_keeps | dsimp only)

theorem stageImage_keeps {n : Nat} {y} (he : τ.stageImage n = some y) (hk : Keeps σ τ) : Keeps σ y := by
  unfold State.stageImage at he
  try dsimp only at he
  repeat' split at he
  all_goals cases he
  all_goals repeat' with_reducible (first
    | assumption | (intro _ _ _) | apply allocNow_keeps | refine allocNow_keeps_eq ‹_› ?_ | apply countBlock_keeps | apply freeObj_keeps
    | apply each_keeps' | apply ite_keeps | simp only [keeps_mk] | apply Keeps.parts | split | dsimp only)

theorem underCheck_keeps (hk : Keeps σ τ)  : Keeps σ (τ.underCheck) := by
  unfold State.underCheck
  repeat' with_reducible (first
    | assumption | (intro _ _ _) | apply setPlan_keeps | apply wr_keeps | apply ite_keeps | dsimp only)

theorem planLoad_keeps (hk : Keeps σ τ) (slot : Nat) (image : PlanFetch) : Keeps σ (τ.planLoad slot image) := by
  unfold State.planLoad
  repeat' with_reducible (first
    | assumption | (intro _ _ _) | apply failLoad_keeps | apply imageWord_keeps | apply latch_keeps | apply putOp_keeps
    | refine stageImage_keeps ‹_› ?_ | apply syncLasts_keeps | apply syncMembers_keeps | apply underCheck_keeps | apply undoPlan_keeps | apply each_keeps'
    | apply ite_keeps | simp only [keeps_mk] | apply Keeps.parts | split | dsimp only)

theorem clearSpore_keeps (hk : Keeps σ τ)  : Keeps σ (τ.clearSpore) := by
  unfold State.clearSpore
  repeat' with_reducible (first
    | assumption | (intro _ _ _) | apply syncDrain_keeps | apply wr_keeps | apply each_keeps' | apply ite_keeps
    | simp only [keeps_mk] | apply Keeps.parts | dsimp only)

theorem restoreLast_keeps (hk : Keeps σ τ) (t : Nat) : Keeps σ (τ.restoreLast t) := by
  unfold State.restoreLast
  repeat' with_reducible (first
    | assumption | (intro _ _ _) | apply applyImage_keeps | apply planRecord_keeps | apply reloadParity_keeps | apply setSpore_keeps
    | apply slotImage_keeps | refine slotImage_keeps_eq ‹_› ?_ | apply wr_keeps | apply each_keeps' | apply ite_keeps | simp only [keeps_mk]
    | apply Keeps.parts | split | dsimp only)

theorem acceptPlan_keeps (hk : Keeps σ τ) (degraded : Bool) : Keeps σ (τ.acceptPlan degraded) := by
  unfold State.acceptPlan
  repeat' with_reducible (first
    | assumption | (intro _ _ _) | apply clearRecords_keeps | apply clearSpore_keeps | apply rebuildScheduled_keeps | apply restoreLast_keeps
    | apply setBank_keeps | apply setDigest_keeps | apply setPlan_keeps | apply syncLasts_keeps | apply syncMembers_keeps | apply syncOpp_keeps
    | apply warmUp_keeps | apply wr_keeps | apply zeroAll_keeps | apply each_keeps' | apply ite_keeps | simp only [keeps_mk]
    | apply Keeps.parts | split | dsimp only)

theorem planCheck_keeps (hk : Keeps σ τ)  : Keeps σ (τ.planCheck) := by
  unfold State.planCheck
  repeat' with_reducible (first
    | assumption | (intro _ _ _) | apply acceptPlan_keeps | apply endOp_keeps | apply failLoad_keeps | apply forgetExpected_keeps
    | apply setPlan_keeps | apply takeOutcomes_keeps | apply undoPlan_keeps | apply wr_keeps | apply ite_keeps | simp only [keeps_mk]
    | apply Keeps.parts | split | dsimp only)

theorem planAcceptDegraded_keeps (hk : Keeps σ τ) (slot : Nat) : Keeps σ (τ.planAcceptDegraded slot) := by
  unfold State.planAcceptDegraded
  repeat' with_reducible (first
    | assumption | (intro _ _ _) | apply acceptPlan_keeps | apply endOp_keeps | apply wr_keeps | apply ite_keeps
    | simp only [keeps_mk] | apply Keeps.parts | split | dsimp only)

theorem emptyPlan_keeps (hk : Keeps σ τ)  : Keeps σ (τ.emptyPlan) := by
  unfold State.emptyPlan
  repeat' with_reducible (first
    | assumption | (intro _ _ _) | apply clearRecords_keeps | apply clearSpore_keeps | apply forgetExpected_keeps | apply freeAllStreams_keeps
    | apply setPlan_keeps | apply syncOpp_keeps | apply work_keeps | apply wr_keeps | apply each_keeps' | apply ite_keeps
    | simp only [keeps_mk] | apply Keeps.parts | dsimp only)

theorem refuseGo_keeps (hk : Keeps σ τ)  : Keeps σ (τ.refuseGo) := by
  unfold State.refuseGo
  repeat' with_reducible (first
    | assumption | (intro _ _ _) | apply inc_keeps | apply wr_keeps | apply ite_keeps | simp only [keeps_mk]
    | apply Keeps.parts | split | dsimp only)

theorem unopen_keeps (hk : Keeps σ τ) (x : Nat) : Keeps σ (τ.unopen x) := by
  unfold State.unopen
  repeat' with_reducible (first
    | assumption | (intro _ _ _) | apply closeRelease_keeps | apply restoreWas_keeps | apply setOp_keeps | apply work_keeps
    | apply wr_keeps | apply each_keeps' | apply ite_keeps | dsimp only)

theorem takeBackItems_keeps (hk : Keeps σ τ)  : Keeps σ (τ.takeBackItems) := by
  unfold State.takeBackItems
  repeat' with_reducible (first
    | assumption | (intro _ _ _) | apply dropUndecl_keeps | apply unopen_keeps | apply each_keeps' | apply ite_keeps
    | simp only [keeps_mk] | apply Keeps.parts | split | dsimp only)

theorem planRetire_keeps (hk : Keeps σ τ) (slot : Nat) : Keeps σ (τ.planRetire slot) := by
  unfold State.planRetire
  repeat' with_reducible (first
    | assumption | (intro _ _ _) | apply emptyPlan_keeps | apply endOp_keeps | apply setPlan_keeps | apply takeBackItems_keeps
    | apply work_keeps | apply ite_keeps | simp only [keeps_mk] | apply Keeps.parts | split | dsimp only)

theorem planRetired_keeps (hk : Keeps σ τ)  : Keeps σ (τ.planRetired) := by
  unfold State.planRetired
  repeat' with_reducible (first
    | assumption | (intro _ _ _) | apply emptyPlan_keeps | apply endOp_keeps | apply ite_keeps | simp only [keeps_mk]
    | apply Keeps.parts | split | dsimp only)

theorem remap_keeps (hk : Keeps σ τ) (slot : Nat) : Keeps σ (τ.remap slot) := by
  unfold State.remap
  repeat' with_reducible (first
    | assumption | (intro _ _ _) | apply endOp_keeps | apply remapDo_keeps | apply ite_keeps | simp only [keeps_mk]
    | apply Keeps.parts | split | dsimp only)

theorem movePort_keeps (hk : Keeps σ τ) (p q : Nat) : Keeps σ (τ.movePort p q) := by
  unfold State.movePort
  repeat' with_reducible (first
    | assumption | (intro _ _ _) | apply dropWins_keeps | apply moveWins_keeps | apply wr_keeps | apply ite_keeps
    | dsimp only)

theorem rediscover_keeps (hk : Keeps σ τ) (p : Nat) : Keeps σ (τ.rediscover p) := by
  unfold State.rediscover
  repeat' with_reducible (first
    | assumption | (intro _ _ _) | apply setOutcome_keeps | apply setPort_keeps | apply wr_keeps | apply ite_keeps
    | simp only [keeps_mk] | apply Keeps.parts | split | dsimp only)

theorem memberReplace_keeps (hk : Keeps σ τ) (slot : Nat) : Keeps σ (τ.memberReplace slot) := by
  unfold State.memberReplace
  repeat' with_reducible (first
    | assumption | (intro _ _ _) | apply movePort_keeps | apply putOp_keeps | apply rediscover_keeps | apply syncMembers_keeps
    | apply syncOpp_keeps | apply syncReplace_keeps | apply wr_keeps | apply ite_keeps | simp only [keeps_mk] | apply Keeps.parts
    | split | dsimp only)

theorem replaceDone_keeps (hk : Keeps σ τ) (slot : Nat) : Keeps σ (τ.replaceDone slot) := by
  unfold State.replaceDone
  repeat' with_reducible (first
    | assumption | (intro _ _ _) | apply endOp_keeps | apply unfence_keeps | apply ite_keeps | simp only [keeps_mk]
    | apply Keeps.parts | split | dsimp only)

theorem replaceTimeout_keeps (hk : Keeps σ τ) (slot : Nat) : Keeps σ (τ.replaceTimeout slot) := by
  unfold State.replaceTimeout
  repeat' with_reducible (first
    | assumption | (intro _ _ _) | apply endOp_keeps | apply ite_keeps | simp only [keeps_mk] | apply Keeps.parts
    | split | dsimp only)

theorem noteOrder_keeps (hk : Keeps σ τ) (thing index : Nat) (host : Bool) (code : Nat) : Keeps σ (τ.noteOrder thing index host code) := by
  unfold State.noteOrder
  repeat' with_reducible (first
    | assumption | (intro _ _ _) | apply inc_keeps | apply raise_keeps | apply triggerOther_keeps | apply wr_keeps
    | apply ite_keeps | simp only [keeps_mk] | apply Keeps.parts | refine Keeps.partsSec ?_ id | split | dsimp only)

theorem abortOp_keeps (hk : Keeps σ τ) (i : Nat) : Keeps σ (τ.abortOp i) := by
  unfold State.abortOp
  repeat' with_reducible (first
    | assumption | (intro _ _ _) | apply endOp_keeps | apply undoPlan_keeps | apply wr_keeps | apply ite_keeps
    | simp only [keeps_mk] | apply Keeps.parts | split | dsimp only)

theorem decideMbx_keeps (hk : Keeps σ τ) (value : Nat) : Keeps σ (τ.decideMbx value) := by
  unfold State.decideMbx
  repeat' with_reducible (first
    | assumption | (intro _ _ _) | apply abortOp_keeps | apply mark_keeps | apply memberReplace_keeps | apply putOp_keeps
    | apply refuseGo_keeps | apply wr_keeps | apply ite_keeps | simp only [keeps_mk] | apply Keeps.parts | split
    | dsimp only)

theorem mailbox_keeps (hk : Keeps σ τ) (value delay : Nat) : Keeps σ (τ.mailbox value delay) := by
  unfold State.mailbox
  repeat' with_reducible (first
    | assumption | (intro _ _ _) | apply decideMbx_keeps | apply latch_keeps | apply noteOrder_keeps | apply wr_keeps
    | apply ite_keeps | simp only [keeps_mk] | apply Keeps.parts | split | dsimp only)

theorem mailboxTick_keeps (hk : Keeps σ τ)  : Keeps σ (τ.mailboxTick) := by
  unfold State.mailboxTick
  repeat' with_reducible (first
    | assumption | (intro _ _ _) | apply decideMbx_keeps | apply ite_keeps | simp only [keeps_mk] | apply Keeps.parts
    | split | dsimp only)

theorem replaceDecided_keeps (hk : Keeps σ τ) (slot : Nat) : Keeps σ (τ.replaceDecided slot) := by
  unfold State.replaceDecided
  repeat' with_reducible (first
    | assumption | (intro _ _ _) | apply decideMbx_keeps | apply memberReplace_keeps | apply ite_keeps | simp only [keeps_mk]
    | apply Keeps.parts | split | dsimp only)

theorem readUnit_keeps (hk : Keeps σ τ) (space addr : Nat) : Keeps σ (τ.readUnit space addr).2 := by
  unfold State.readUnit
  repeat' with_reducible (first
    | assumption | (intro _ _ _) | apply gddrRead_keeps | refine gddrRead_keeps_eq ‹_› ?_ | apply readGranule_keeps | refine readGranule_keeps_eq ‹_› ?_
    | apply readPoison_keeps | apply ite_keeps | split | dsimp only)

theorem readUnit_keeps_eq {space addr : Nat} {y} (he : τ.readUnit space addr = (y, υ)) (hk : Keeps σ τ) : Keeps σ υ := by
  have := readUnit_keeps hk space addr
  rwa [he] at this

theorem writeUnit_keeps (hk : Keeps σ τ) (space addr : Nat) (l : List Byte) : Keeps σ (τ.writeUnit space addr l).2 := by
  unfold State.writeUnit
  repeat' with_reducible (first
    | assumption | (intro _ _ _) | apply cxlWrite_keeps | apply gddrWrite_keeps | refine gddrWrite_keeps_eq ‹_› ?_ | apply sporeWrite_keeps
    | apply ite_keeps | split | dsimp only)

theorem writeUnit_keeps_eq {space addr : Nat} {l : List Byte} {y} (he : τ.writeUnit space addr l = (y, υ)) (hk : Keeps σ τ) : Keeps σ υ := by
  have := writeUnit_keeps hk space addr l
  rwa [he] at this

theorem failMem_keeps (hk : Keeps σ τ) (slot code detail : Nat) : Keeps σ (τ.failMem slot code detail) := by
  unfold State.failMem
  repeat' with_reducible (first
    | assumption | (intro _ _ _) | apply endOp_keeps | apply wr_keeps | apply ite_keeps | dsimp only)

theorem memUnit_keeps (hk : Keeps σ τ) (slot opcode : Nat) (fail : Option MemFail) (data : List Byte) : Keeps σ (τ.memUnit slot opcode fail data) := by
  unfold State.memUnit
  repeat' with_reducible (first
    | assumption | (intro _ _ _) | apply emit_keeps | apply endOp_keeps | apply failMem_keeps | apply gddrUncorr_keeps
    | apply inc_keeps | apply latch_keeps | apply putOp_keeps | apply readPoison_keeps | apply readUnit_keeps | refine readUnit_keeps_eq ‹_› ?_
    | apply writeUnit_keeps | refine writeUnit_keeps_eq ‹_› ?_ | apply ite_keeps | simp only [keeps_mk] | apply Keeps.parts | split
    | dsimp only)

theorem memBlock_keeps (hk : Keeps σ τ) (slot opcode : Nat) (data : List (List Byte)) : Keeps σ (τ.memBlock slot opcode data).2 := by
  unfold State.memBlock
  repeat' with_reducible (first
    | assumption | (intro _ _ _) | apply allocNow_keeps | refine allocNow_keeps_eq ‹_› ?_ | apply countBlock_keeps | apply freeObj_keeps
    | apply memUnit_keeps | apply each_keeps' | apply ite_keeps | simp only [keeps_mk] | apply Keeps.parts | split
    | dsimp only)

theorem memBlock_keeps_eq (slot opcode : Nat) (data : List (List Byte)) {y} (he : τ.memBlock slot opcode data = (y, υ)) (hk : Keeps σ τ) : Keeps σ υ := by
  have := memBlock_keeps hk slot opcode data
  rwa [he] at this

theorem memUnits_keeps (hk : Keeps σ τ) (slot opcode : Nat) (data : List (List Byte)) (fail : Option MemFail) : Keeps σ (τ.memUnits slot opcode data fail) := by
  unfold State.memUnits
  repeat' with_reducible (first
    | assumption | (intro _ _ _) | apply memBlock_keeps | refine memBlock_keeps_eq ‹_› ?_ | apply memUnit_keeps | apply foldl_keeps_fst
    | apply foldl_keeps_snd | refine foldl_keeps_fst_eq ‹_› ?_ ?_ | refine foldl_keeps_snd_eq ‹_› ?_ ?_ | apply ite_keeps | split | dsimp only)

theorem memRead_keeps (hk : Keeps σ τ) (slot units : Nat) (fail : Option MemFail) : Keeps σ (τ.memRead slot units fail) := by
  unfold State.memRead
  repeat' with_reducible (first
    | assumption | (intro _ _ _) | apply memUnits_keeps | apply ite_keeps | dsimp only)

theorem memWrite_keeps (hk : Keeps σ τ) (slot : Nat) (data : List (List Byte)) (fail : Option MemFail) : Keeps σ (τ.memWrite slot data fail) := by
  unfold State.memWrite
  repeat' with_reducible (first
    | assumption | (intro _ _ _) | apply memUnits_keeps | apply ite_keeps | dsimp only)

theorem resetHst_keeps (hk : Keeps σ τ)  : Keeps σ (τ.resetHst) := by
  unfold State.resetHst
  repeat' with_reducible (first
    | assumption | (intro _ _ _) | apply wr_keeps | apply ite_keeps | simp only [keeps_mk] | apply Keeps.parts
    | apply Keeps.partsRegs | apply Keeps.partsFilter | dsimp only)

theorem hostReset_keeps (hk : Keeps σ τ)  : Keeps σ (τ.hostReset) := by
  unfold State.hostReset
  repeat' with_reducible (first
    | assumption | (intro _ _ _) | apply endOp_keeps | apply failLoad_keeps | apply resetHst_keeps | apply undoPlan_keeps
    | apply each_keeps' | apply ite_keeps | simp only [keeps_mk] | apply Keeps.parts | split | dsimp only)

theorem failSpaces_keeps (hk : Keeps σ τ) (i : Nat) : Keeps σ (τ.failSpaces i) := by
  unfold State.failSpaces
  repeat' with_reducible (first
    | assumption | (intro _ _ _) | apply failMem_keeps | apply each_keeps' | apply ite_keeps | simp only [keeps_mk]
    | apply Keeps.parts | split | dsimp only)

theorem hostLinkDown_keeps (hk : Keeps σ τ) (flr : Bool) : Keeps σ (τ.hostLinkDown flr) := by
  unfold State.hostLinkDown
  repeat' with_reducible (first
    | assumption | (intro _ _ _) | apply hostReset_keeps | apply inc_keeps | apply raise_keeps | apply wr_keeps
    | apply ite_keeps | split | dsimp only)

end Sys2Proof.Machine
end

