-- ==== Sys2Proof/Laws/KeepsSystem.lean ====
section
/-!
SUPPORT. `Keeps` for the operations of Collector, Recorder, Power, Boot, Security.
-/

namespace Sys2Proof.Machine

set_option Elab.async false
set_option linter.unusedTactic false
set_option linter.unreachableTactic false
set_option linter.unusedSimpArgs false

variable {σ τ υ : State}

theorem faultMessage_keeps (hk : Keeps σ τ) (ring : Ring) : Keeps σ (τ.faultMessage ring) := by
  unfold State.faultMessage
  repeat' with_reducible (first
    | assumption | (intro _ _ _) | apply deliver_keeps | apply takeOff_keeps | apply ite_keeps | simp only [keeps_mk]
    | apply Keeps.parts | split | dsimp only)

theorem sendInt_keeps (hk : Keeps σ τ) (v : Nat) : Keeps σ (τ.sendInt v) := by
  unfold State.sendInt
  repeat' with_reducible (first
    | assumption | (intro _ _ _) | apply msix_keeps | apply ite_keeps | simp only [keeps_mk] | apply Keeps.parts
    | split | dsimp only)

theorem holdoffEnd_keeps (hk : Keeps σ τ) (v : Nat) : Keeps σ (τ.holdoffEnd v) := by
  unfold State.holdoffEnd
  repeat' with_reducible (first
    | assumption | (intro _ _ _) | apply msix_keeps | apply ite_keeps | simp only [keeps_mk] | apply Keeps.parts
    | split | dsimp only)

theorem sendNotice_keeps (hk : Keeps σ τ) (src : Nat) : Keeps σ (τ.sendNotice src) := by
  unfold State.sendNotice
  repeat' with_reducible (first
    | assumption | (intro _ _ _) | apply emit_keeps | apply ite_keeps | split | dsimp only)

theorem blockReset_keeps (hk : Keeps σ τ) (src detail : Nat) : Keeps σ (τ.blockReset src detail) := by
  unfold State.blockReset
  repeat' with_reducible (first
    | assumption | (intro _ _ _) | apply hostLinkDown_keeps | apply hwFence_keeps | apply inc_keeps | apply portDown_keeps
    | apply setLaser_keeps | apply setLaserEnable_keeps | apply setLevel_keeps | apply setPort_keeps | apply syncLink_keeps | apply wr_keeps
    | apply ite_keeps | simp only [keeps_mk] | apply Keeps.parts | split | dsimp only)

theorem react_keeps (hk : Keeps σ τ) (src detail : Nat) (rose : Bool) : Keeps σ (τ.react src detail rose) := by
  unfold State.react
  repeat' with_reducible (first
    | assumption | (intro _ _ _) | apply blockReset_keeps | apply emit_keeps | apply sendInt_keeps | apply sendNotice_keeps
    | apply trigger_keeps | apply wr_keeps | apply ite_keeps | simp only [keeps_mk] | apply Keeps.parts | split
    | dsimp only)

theorem faultRaise_keeps (hk : Keeps σ τ)  : Keeps σ (τ.faultRaise) := by
  unfold State.faultRaise
  repeat' with_reducible (first
    | assumption | (intro _ _ _) | apply inc_keeps | apply latch_keeps | apply mark_keeps | apply noteWas_keeps
    | apply react_keeps | apply syncActive_keeps | apply syncFaults_keeps | apply wr_keeps | apply each_keeps' | apply ite_keeps
    | simp only [keeps_mk] | apply Keeps.parts | split | dsimp only)

theorem clearPending_keeps (hk : Keeps σ τ) (src : Nat) (raised : Bool) : Keeps σ (τ.clearPending src raised) := by
  unfold State.clearPending
  repeat' with_reducible (first
    | assumption | (intro _ _ _) | apply mark_keeps | apply syncFaults_keeps | apply wr_keeps | apply ite_keeps
    | split | dsimp only)

theorem writeSrcCfg_keeps (hk : Keeps σ τ) (src value : Nat) : Keeps σ (τ.writeSrcCfg src value) := by
  unfold State.writeSrcCfg
  repeat' with_reducible (first
    | assumption | (intro _ _ _) | apply syncFaults_keeps | apply wrNext_keeps | apply each_keeps' | apply ite_keeps
    | split | dsimp only)

theorem enterSafe_keeps (hk : Keeps σ τ) (cause word : Nat) : Keeps σ (τ.enterSafe cause word) := by
  unfold State.enterSafe
  repeat' with_reducible (first
    | assumption | (intro _ _ _) | apply inc_keeps | apply latch_keeps | apply setFences_keeps | apply syncFaults_keeps
    | apply trigger_keeps | apply wr_keeps | apply ite_keeps | split | dsimp only)

theorem undecideFaults_keeps (hk : Keeps σ τ)  : Keeps σ (τ.undecideFaults) := by
  unfold State.undecideFaults
  repeat' with_reducible (first
    | assumption | (intro _ _ _) | apply restoreWas_keeps | apply wr_keeps | apply each_keeps' | apply ite_keeps
    | simp only [keeps_mk] | apply Keeps.parts | split | dsimp only)

theorem sweep_keeps (hk : Keeps σ τ) (corrected : Nat) (bad : Option (Nat × Nat)) : Keeps σ (τ.sweep corrected bad) := by
  unfold State.sweep
  repeat' with_reducible (first
    | assumption | (intro _ _ _) | apply enterSafe_keeps | apply inc_keeps | apply undecideFaults_keeps | apply ite_keeps
    | simp only [keeps_mk] | apply Keeps.parts | split | dsimp only)

theorem collectorFail_keeps (hk : Keeps σ τ) (cause word : Nat) : Keeps σ (τ.collectorFail cause word) := by
  unfold State.collectorFail
  repeat' with_reducible (first
    | assumption | (intro _ _ _) | apply enterSafe_keeps | apply undecideFaults_keeps | apply ite_keeps | split
    | dsimp only)

theorem writeInject_keeps (hk : Keeps σ τ) (value : Nat) : Keeps σ (τ.writeInject value) := by
  unfold State.writeInject
  repeat' with_reducible (first
    | assumption | (intro _ _ _) | apply enterSafe_keeps | apply raise_keeps | apply ite_keeps | split
    | dsimp only)

theorem noticeRepeat_keeps (hk : Keeps σ τ)  : Keeps σ (τ.noticeRepeat) := by
  unfold State.noticeRepeat
  repeat' with_reducible (first
    | assumption | (intro _ _ _) | apply sendNotice_keeps | apply ite_keeps | simp only [keeps_mk] | apply Keeps.parts
    | split | dsimp only)

theorem watchdog_keeps (hk : Keeps σ τ)  : Keeps σ (τ.watchdog) := by
  unfold State.watchdog
  repeat' with_reducible (first
    | assumption | (intro _ _ _) | apply raise_keeps | apply ite_keeps | dsimp only)

theorem levelChange_keeps (hk : Keeps σ τ) (src unit : Nat) (c : Bool) : Keeps σ (τ.levelChange src unit c) := by
  unfold State.levelChange
  repeat' with_reducible (first
    | assumption | (intro _ _ _) | apply setLevel_keeps | apply syncFaults_keeps | apply ite_keeps | split
    | dsimp only)

theorem syncOldest_keeps (hk : Keeps σ τ)  : Keeps σ (τ.syncOldest) := by
  unfold State.syncOldest
  repeat' with_reducible (first
    | assumption | (intro _ _ _) | apply wr_keeps | apply ite_keeps | simp only [keeps_mk] | apply Keeps.parts
    | split | dsimp only)

theorem snapshotStart_keeps (hk : Keeps σ τ)  : Keeps σ (τ.snapshotStart) := by
  unfold State.snapshotStart
  repeat' with_reducible (first
    | assumption | (intro _ _ _) | apply inc_keeps | apply syncOldest_keeps | apply wr_keeps | apply ite_keeps
    | simp only [keeps_mk] | apply Keeps.parts | split | dsimp only)

theorem snapshotReadTimeout_keeps (hk : Keeps σ τ) (i : Nat) : Keeps σ (τ.snapshotReadTimeout i) := by
  unfold State.snapshotReadTimeout
  repeat' with_reducible (first
    | assumption | (intro _ _ _) | apply ite_keeps | simp only [keeps_mk] | apply Keeps.parts | split
    | dsimp only)

theorem snapshotComplete_keeps (hk : Keeps σ τ)  : Keeps σ (τ.snapshotComplete) := by
  unfold State.snapshotComplete
  repeat' with_reducible (first
    | assumption | (intro _ _ _) | apply inc_keeps | apply syncOldest_keeps | apply wr_keeps | apply foldl_keeps_fst
    | apply foldl_keeps_snd | refine foldl_keeps_fst_eq ‹_› ?_ ?_ | refine foldl_keeps_snd_eq ‹_› ?_ ?_ | apply ite_keeps | simp only [keeps_mk] | apply Keeps.parts
    | split | dsimp only)

theorem periodicTrigger_keeps (hk : Keeps σ τ)  : Keeps σ (τ.periodicTrigger) := by
  unfold State.periodicTrigger
  repeat' with_reducible (first
    | assumption | (intro _ _ _) | apply triggerOther_keeps | apply ite_keeps | simp only [keeps_mk] | apply Keeps.parts
    | split | dsimp only)

theorem softwareTrigger_keeps (hk : Keeps σ τ) (value : Nat) : Keeps σ (τ.softwareTrigger value) := by
  unfold State.softwareTrigger
  repeat' with_reducible (first
    | assumption | (intro _ _ _) | apply triggerOther_keeps | apply ite_keeps | split | dsimp only)

theorem evrUncorr_keeps (hk : Keeps σ τ) (slot : Nat) : Keeps σ (τ.evrUncorr slot) := by
  unfold State.evrUncorr
  repeat' with_reducible (first
    | assumption | (intro _ _ _) | apply inc_keeps | apply raise_keeps | apply ite_keeps | dsimp only)

theorem ringCopyBatch_keeps (hk : Keeps σ τ) (corrected : Nat) (bad : List (Nat × Nat)) : Keeps σ (τ.ringCopyBatch corrected bad) := by
  unfold State.ringCopyBatch
  repeat' with_reducible (first
    | assumption | (intro _ _ _) | apply allocNow_keeps | refine allocNow_keeps_eq ‹_› ?_ | apply countBlock_keeps | apply evrUncorr_keeps
    | apply freeObj_keeps | apply gddrWrite_keeps | refine gddrWrite_keeps_eq ‹_› ?_ | apply inc_keeps | apply syncOldest_keeps | apply each_keeps'
    | apply foldl_keeps_fst | apply foldl_keeps_snd | refine foldl_keeps_fst_eq ‹_› ?_ ?_ | refine foldl_keeps_snd_eq ‹_› ?_ ?_ | apply ite_keeps | simp only [keeps_mk]
    | apply Keeps.parts | split | dsimp only)

theorem ringSelect_keeps (hk : Keeps σ τ) (n : Nat) : Keeps σ (τ.ringSelect n) := by
  unfold State.ringSelect
  repeat' with_reducible (first
    | assumption | (intro _ _ _) | apply wr_keeps | apply ite_keeps | simp only [keeps_mk] | apply Keeps.parts
    | dsimp only)

theorem ringReady_keeps (hk : Keeps σ τ)  : Keeps σ (τ.ringReady) := by
  unfold State.ringReady
  repeat' with_reducible (first
    | assumption | (intro _ _ _) | apply gddrRead_keeps | refine gddrRead_keeps_eq ‹_› ?_ | apply wr_keeps | apply ite_keeps
    | simp only [keeps_mk] | apply Keeps.parts | split | dsimp only)

theorem operatingSecond_keeps (hk : Keeps σ τ)  : Keeps σ (τ.operatingSecond) := by
  unfold State.operatingSecond
  repeat' with_reducible (first
    | assumption | (intro _ _ _) | apply inc_keeps | apply ite_keeps | simp only [keeps_mk] | apply Keeps.parts
    | split | dsimp only)

theorem program_keeps (hk : Keeps σ τ) (a n : Nat) (l : List Byte) : Keeps σ (τ.program a n l) :=
  keeps_mk.mpr (hk.partsSec (fun hw => Memory.wf_writeN (Memory.wf_erase hw a n) a l))

theorem writePersistence_keeps (hk : Keeps σ τ)  : Keeps σ (τ.writePersistence) := by
  unfold State.writePersistence
  repeat' with_reducible (first
    | assumption | (intro _ _ _) | apply program_keeps | apply ite_keeps | simp only [keeps_mk] | apply Keeps.parts
    | split | dsimp only)

theorem readPersistence_keeps (hk : Keeps σ τ)  : Keeps σ (τ.readPersistence) := by
  unfold State.readPersistence
  repeat' with_reducible (first
    | assumption | (intro _ _ _) | apply wr_keeps | apply foldl_keeps_fst | apply foldl_keeps_snd | refine foldl_keeps_fst_eq ‹_› ?_ ?_
    | refine foldl_keeps_snd_eq ‹_› ?_ ?_ | apply ite_keeps | simp only [keeps_mk] | apply Keeps.parts | split | dsimp only)

theorem persistenceWrite_keeps (hk : Keeps σ τ)  : Keeps σ (τ.persistenceWrite) := by
  unfold State.persistenceWrite
  repeat' with_reducible (first
    | assumption | (intro _ _ _) | apply writePersistence_keeps | apply ite_keeps | split | dsimp only)

theorem setDomain_keeps (hk : Keeps σ τ) (d : Nat) (on : Bool) : Keeps σ (τ.setDomain d on) := by
  unfold State.setDomain
  repeat' with_reducible (first
    | assumption | (intro _ _ _) | apply wr_keeps | apply ite_keeps | dsimp only)

theorem markUnit_keeps (hk : Keeps σ τ) (d : Nat) (off : Bool) : Keeps σ (τ.markUnit d off) := by
  unfold State.markUnit
  repeat' with_reducible (first
    | assumption | (intro _ _ _) | apply mark_keeps | apply ite_keeps | simp only [keeps_mk] | apply Keeps.parts
    | dsimp only)

theorem cutDomain_keeps (hk : Keeps σ τ) (d : Nat) : Keeps σ (τ.cutDomain d) := by
  unfold State.cutDomain
  repeat' with_reducible (first
    | assumption | (intro _ _ _) | apply setDomain_keeps | apply ite_keeps | simp only [keeps_mk] | apply Keeps.parts
    | dsimp only)

theorem portDomainOff_keeps (hk : Keeps σ τ) (p : Nat) : Keeps σ (τ.portDomainOff p) := by
  unfold State.portDomainOff
  repeat' with_reducible (first
    | assumption | (intro _ _ _) | apply cutDomain_keeps | apply hwFence_keeps | apply markUnit_keeps | apply portDown_keeps
    | apply syncLink_keeps | apply ite_keeps | dsimp only)

theorem quadOff_keeps (hk : Keeps σ τ) (q : Nat) : Keeps σ (τ.quadOff q) := by
  unfold State.quadOff
  repeat' with_reducible (first
    | assumption | (intro _ _ _) | apply exactLoss_keeps | apply readmitAll_keeps | apply substitute_keeps | refine substitute_keeps_eq ‹_› ?_
    | apply syncClusters_keeps | apply takeBackAll_keeps | apply wr_keeps | apply each_keeps' | apply foldl_keeps_fst | apply foldl_keeps_snd
    | refine foldl_keeps_fst_eq ‹_› ?_ ?_ | refine foldl_keeps_snd_eq ‹_› ?_ ?_ | apply ite_keeps | simp only [keeps_mk] | apply Keeps.parts | split
    | dsimp only)

theorem cxlDown_keeps (hk : Keeps σ τ) (i : Nat) : Keeps σ (τ.cxlDown i) := by
  unfold State.cxlDown
  repeat' with_reducible (first
    | assumption | (intro _ _ _) | apply failSpaces_keeps | apply inc_keeps | apply setLevel_keeps | apply wr_keeps
    | apply ite_keeps | split | dsimp only)

theorem domainOff_keeps (hk : Keeps σ τ) (d : Nat) : Keeps σ (τ.domainOff d) := by
  unfold State.domainOff
  repeat' with_reducible (first
    | assumption | (intro _ _ _) | apply cutDomain_keeps | apply cxlDown_keeps | apply hostLinkDown_keeps | apply mapChange_keeps
    | apply markUnit_keeps | apply portDomainOff_keeps | apply quadOff_keeps | apply setLaserEnable_keeps | apply setLevel_keeps | apply syncFaults_keeps
    | apply each_keeps' | apply ite_keeps | split | dsimp only)

theorem domainOnNext_keeps (hk : Keeps σ τ)  : Keeps σ (τ.domainOnNext) := by
  unfold State.domainOnNext
  repeat' with_reducible (first
    | assumption | (intro _ _ _) | apply mapChange_keeps | apply markUnit_keeps | apply setDomain_keeps | apply ite_keeps
    | simp only [keeps_mk] | apply Keeps.parts | split | dsimp only)

theorem domainPowered_keeps (hk : Keeps σ τ) (d : Nat) : Keeps σ (τ.domainPowered d) := by
  unfold State.domainPowered
  repeat' with_reducible (first
    | assumption | (intro _ _ _) | apply realign_keeps | apply setDomain_keeps | apply each_keeps' | apply ite_keeps
    | simp only [keeps_mk] | apply Keeps.parts | split | dsimp only)

theorem writeDomainOff_keeps (hk : Keeps σ τ) (host : Bool) (i value : Nat) : Keeps σ (τ.writeDomainOff host i value) := by
  unfold State.writeDomainOff
  repeat' with_reducible (first
    | assumption | (intro _ _ _) | apply noteOrder_keeps | apply wr_keeps | apply each_keeps' | apply foldl_keeps_fst
    | apply foldl_keeps_snd | refine foldl_keeps_fst_eq ‹_› ?_ ?_ | refine foldl_keeps_snd_eq ‹_› ?_ ?_ | apply ite_keeps | split | dsimp only)

theorem inputSample_keeps (hk : Keeps σ τ) (volts amps : Nat) : Keeps σ (τ.inputSample volts amps) := by
  unfold State.inputSample
  repeat' with_reducible (first
    | assumption | (intro _ _ _) | apply setLevel_keeps | apply syncFaults_keeps | apply wr_keeps | apply ite_keeps
    | split | dsimp only)

theorem railFault_keeps (hk : Keeps σ τ) (stop rail : Nat) : Keeps σ (τ.railFault stop rail) := by
  unfold State.railFault
  repeat' with_reducible (first
    | assumption | (intro _ _ _) | apply inc_keeps | apply raise_keeps | apply wr_keeps | apply ite_keeps
    | dsimp only)

theorem thermWarn_keeps (hk : Keeps σ τ)  : Keeps σ (τ.thermWarn) := by
  unfold State.thermWarn
  repeat' with_reducible (first
    | assumption | (intro _ _ _) | apply setLevel_keeps | apply ite_keeps | simp only [keeps_mk] | apply Keeps.parts
    | dsimp only)

theorem thermalSample_keeps (hk : Keeps σ τ) (temps : List Nat) : Keeps σ (τ.thermalSample temps) := by
  unfold State.thermalSample
  repeat' with_reducible (first
    | assumption | (intro _ _ _) | apply raise_keeps | apply syncFaults_keeps | apply thermWarn_keeps | apply wr_keeps
    | apply each_keeps' | apply foldl_keeps_fst | apply foldl_keeps_snd | refine foldl_keeps_fst_eq ‹_› ?_ ?_ | refine foldl_keeps_snd_eq ‹_› ?_ ?_ | apply ite_keeps
    | simp only [keeps_mk] | apply Keeps.parts | split | dsimp only)

theorem pllLock_keeps (hk : Keeps σ τ) (locked : Bool) : Keeps σ (τ.pllLock locked) := by
  unfold State.pllLock
  repeat' with_reducible (first
    | assumption | (intro _ _ _) | apply inc_keeps | apply setLevel_keeps | apply wr_keeps | apply ite_keeps
    | split | dsimp only)

theorem wf_foldl_set {V : Type} [DecidableEq V] [Inhabited V] (l : List (Key × V)) {m : SMap V} (h : m.wf = true) :
    (l.foldl (fun m e => m.set e.1 e.2) m).wf = true := by
  induction l generalizing m with
  | nil => exact h
  | cons e l ih => exact ih (SMap.wf_set h _ _)

theorem reset_regs_wf : State.reset.regs.wf = true := by decide

/-- A reset of the whole chip keeps time, queue, outputs, free values, the expanders and the NVM. -/
theorem reset_parts (hk : Keeps σ τ) {r : SMap (Option Nat)} (hr : r.wf = true) {m : MemState} {x : SecState}
    (hg : m.gddr = {}) (hx : m.cxl = τ.mem.cxl) (hn : x.nvm = τ.sec.nvm) :
    KeepsParts σ τ.now τ.pending τ.out τ.freeCtr r m x :=
  ⟨fun hc => ⟨hr, by show m.gddr.wf = true; rw [hg]; rfl,
    by show cxlCanonical m.cxl = true; rw [hx]; exact (hk.canonical hc).2.2.1,
    by show x.nvm.wf = true; rw [hn]; exact (hk.canonical hc).2.2.2⟩, hk.now, hk.pending, hk.out, hk.free⟩

theorem chipReset_keeps (hk : Keeps σ τ) (kind source : Nat) : Keeps σ (τ.chipReset kind source) := by
  unfold State.chipReset
  dsimp only
  apply mark_keeps
  apply syncOldest_keeps
  repeat apply wr_keeps
  exact keeps_mk.mpr (reset_parts hk (wf_foldl_set _ reset_regs_wf) rfl rfl rfl)

theorem resetReactionDue_keeps (hk : Keeps σ τ)  : Keeps σ (τ.resetReactionDue) := by
  unfold State.resetReactionDue
  repeat' with_reducible (first
    | assumption | (intro _ _ _) | apply chipReset_keeps | apply ite_keeps | simp only [keeps_mk] | apply Keeps.parts
    | split | dsimp only)

theorem goDark_keeps (hk : Keeps σ τ) (good : Bool) : Keeps σ (τ.goDark good) := by
  unfold State.goDark
  exact keeps_mk.mpr (reset_parts hk rfl rfl rfl rfl)

theorem powerUp_keeps (hk : Keeps σ τ)  : Keeps σ (τ.powerUp) := by
  unfold State.powerUp
  exact keeps_mk.mpr (reset_parts hk reset_regs_wf rfl rfl rfl)

theorem powerGoodRise_keeps (hk : Keeps σ τ) (volts : Nat) : Keeps σ (τ.powerGoodRise volts) := by
  unfold State.powerGoodRise
  repeat' with_reducible (first
    | assumption | (intro _ _ _) | apply powerUp_keeps | apply ite_keeps | simp only [keeps_mk] | apply Keeps.parts
    | split | dsimp only)

theorem startThreshold_keeps (hk : Keeps σ τ)  : Keeps σ (τ.startThreshold) := by
  unfold State.startThreshold
  repeat' with_reducible (first
    | assumption | (intro _ _ _) | apply powerUp_keeps | apply ite_keeps | split | dsimp only)

theorem powerGoodFall_keeps (hk : Keeps σ τ)  : Keeps σ (τ.powerGoodFall) := by
  unfold State.powerGoodFall
  repeat' with_reducible (first
    | assumption | (intro _ _ _) | apply goDark_keeps | apply ite_keeps | split | dsimp only)

theorem inputShutdown_keeps (hk : Keeps σ τ)  : Keeps σ (τ.inputShutdown) := by
  unfold State.inputShutdown
  repeat' with_reducible (first
    | assumption | (intro _ _ _) | apply goDark_keeps | apply ite_keeps | split | dsimp only)

theorem resetLow_keeps (hk : Keeps σ τ)  : Keeps σ (τ.resetLow) := by
  unfold State.resetLow
  repeat' with_reducible (first
    | assumption | (intro _ _ _) | apply chipReset_keeps | apply ite_keeps | simp only [keeps_mk] | apply Keeps.parts
    | split | dsimp only)

theorem resetRelease_keeps (hk : Keeps σ τ) (board : Nat) : Keeps σ (τ.resetRelease board) := by
  unfold State.resetRelease
  repeat' with_reducible (first
    | assumption | (intro _ _ _) | apply ite_keeps | simp only [keeps_mk] | apply Keeps.parts | split
    | dsimp only)

theorem bootStop_keeps (hk : Keeps σ τ) (code : Nat) : Keeps σ (τ.bootStop code) := by
  unfold State.bootStop
  repeat' with_reducible (first
    | assumption | (intro _ _ _) | apply setLevel_keeps | apply syncFaults_keeps | apply wr_keeps | apply ite_keeps
    | dsimp only)

theorem bootFail_keeps (hk : Keeps σ τ) (code : Nat) : Keeps σ (τ.bootFail code) := by
  unfold State.bootFail
  repeat' with_reducible (first
    | assumption | (intro _ _ _) | apply bootStop_keeps | apply ite_keeps | split | dsimp only)

theorem bootRom_keeps (hk : Keeps σ τ)  : Keeps σ (τ.bootRom) := by
  unfold State.bootRom
  repeat' with_reducible (first
    | assumption | (intro _ _ _) | apply bootStop_keeps | apply wr_keeps | apply ite_keeps | simp only [keeps_mk]
    | apply Keeps.parts | split | dsimp only)

theorem bootNvmRead_keeps (hk : Keeps σ τ) (jedec size retries : Nat) : Keeps σ (τ.bootNvmRead jedec size retries) := by
  unfold State.bootNvmRead
  repeat' with_reducible (first
    | assumption | (intro _ _ _) | apply wr_keeps | apply ite_keeps | simp only [keeps_mk] | apply Keeps.parts
    | split | dsimp only)

theorem bootVerify_keeps (hk : Keeps σ τ) (fwA fwB cfgA cfgB : Bool) : Keeps σ (τ.bootVerify fwA fwB cfgA cfgB) := by
  unfold State.bootVerify
  repeat' with_reducible (first
    | assumption | (intro _ _ _) | apply bootStop_keeps | apply setDigest_keeps | apply wr_keeps | apply ite_keeps
    | simp only [keeps_mk] | apply Keeps.parts | split | dsimp only)

theorem bootMemory_keeps (hk : Keeps σ τ) (failed : Nat) : Keeps σ (τ.bootMemory failed) := by
  unfold State.bootMemory
  repeat' with_reducible (first
    | assumption | (intro _ _ _) | apply bootStop_keeps | apply raise_keeps | apply setLaserEnable_keeps | apply wr_keeps
    | apply each_keeps' | apply ite_keeps | simp only [keeps_mk] | apply Keeps.parts | split | dsimp only)

theorem bootLinks_keeps (hk : Keeps σ τ)  : Keeps σ (τ.bootLinks) := by
  unfold State.bootLinks
  repeat' with_reducible (first
    | assumption | (intro _ _ _) | apply triggerOther_keeps | apply wr_keeps | apply ite_keeps | split
    | dsimp only)

theorem crcRetry_keeps (hk : Keeps σ τ) (ch retries : Nat) (lost : Option Nat) : Keeps σ (τ.crcRetry ch retries lost) := by
  unfold State.crcRetry
  repeat' with_reducible (first
    | assumption | (intro _ _ _) | apply gddrUncorr_keeps | apply inc_keeps | apply ite_keeps | simp only [keeps_mk]
    | apply Keeps.parts | split | dsimp only)

theorem channelFail_keeps (hk : Keeps σ τ) (ch : Nat) : Keeps σ (τ.channelFail ch) := by
  unfold State.channelFail
  repeat' with_reducible (first
    | assumption | (intro _ _ _) | apply mapChange_keeps | apply markUnit_keeps | apply wr_keeps | apply ite_keeps
    | split | dsimp only)

theorem cxlUpNow_keeps (hk : Keeps σ τ) (i speed width capacity : Nat) : Keeps σ (τ.cxlUpNow i speed width capacity) := by
  unfold State.cxlUpNow
  repeat' with_reducible (first
    | assumption | (intro _ _ _) | apply setLevel_keeps | apply wr_keeps | apply ite_keeps | split
    | dsimp only)

theorem hostUp_keeps (hk : Keeps σ τ) (speed width : Nat) : Keeps σ (τ.hostUp speed width) := by
  unfold State.hostUp
  repeat' with_reducible (first
    | assumption | (intro _ _ _) | apply wr_keeps | apply ite_keeps | split | dsimp only)

theorem failDma_keeps (hk : Keeps σ τ) (slot addr : Nat) : Keeps σ (τ.failDma slot addr) := by
  unfold State.failDma
  repeat' with_reducible (first
    | assumption | (intro _ _ _) | apply failMem_keeps | apply latch_keeps | apply ite_keeps | dsimp only)

theorem longEnd_keeps (hk : Keeps σ τ) (slot : Nat) (failure : Option (Nat × Nat)) : Keeps σ (τ.longEnd slot failure) := by
  unfold State.longEnd
  repeat' with_reducible (first
    | assumption | (intro _ _ _) | apply failLoad_keeps | apply failMem_keeps | apply latch_keeps | apply replaceDone_keeps
    | apply undoPlan_keeps | apply ite_keeps | simp only [keeps_mk] | apply Keeps.parts | split | dsimp only)

theorem attest_keeps (hk : Keeps σ τ) (slot : Nat) (dma : Bool) : Keeps σ (τ.attest slot dma) := by
  unfold State.attest
  repeat' with_reducible (first
    | assumption | (intro _ _ _) | apply emit_keeps | apply endOp_keeps | apply failDma_keeps | apply fresh_keeps
    | refine fresh_keeps_eq ‹_› ?_ | apply ite_keeps | simp only [keeps_mk] | apply Keeps.parts | split | dsimp only)

theorem identRead_keeps (hk : Keeps σ τ) (slot : Nat) (dma : Bool) : Keeps σ (τ.identRead slot dma) := by
  unfold State.identRead
  repeat' with_reducible (first
    | assumption | (intro _ _ _) | apply emit_keeps | apply endOp_keeps | apply failDma_keeps | apply ite_keeps
    | simp only [keeps_mk] | apply Keeps.parts | split | dsimp only)

theorem switchSlot_keeps (hk : Keeps σ τ) (h : List Byte) (config b : Bool) : Keeps σ (τ.switchSlot h config b) := by
  unfold State.switchSlot
  repeat' with_reducible (first
    | assumption | (intro _ _ _) | apply program_keeps | apply ite_keeps | simp only [keeps_mk] | apply Keeps.parts
    | dsimp only)

theorem imageWrite_keeps (hk : Keeps σ τ) (slot : Nat) (data : List Byte) (signed : Bool) : Keeps σ (τ.imageWrite slot data signed) := by
  unfold State.imageWrite
  repeat' with_reducible (first
    | assumption | (intro _ _ _) | apply endOp_keeps | apply failDma_keeps | apply program_keeps | apply putOp_keeps
    | apply switchSlot_keeps | apply ite_keeps | simp only [keeps_mk] | apply Keeps.parts | split | dsimp only)

theorem svnCommit_keeps (hk : Keeps σ τ) (slot : Nat) : Keeps σ (τ.svnCommit slot) := by
  unfold State.svnCommit
  repeat' with_reducible (first
    | assumption | (intro _ _ _) | apply endOp_keeps | apply wr_keeps | apply ite_keeps | simp only [keeps_mk]
    | apply Keeps.parts | refine Keeps.partsSec ?_ id | split | dsimp only)

theorem tokenSet_keeps (hk : Keeps σ τ) (slot : Nat) : Keeps σ (τ.tokenSet slot) := by
  unfold State.tokenSet
  repeat' with_reducible (first
    | assumption | (intro _ _ _) | apply endOp_keeps | apply wr_keeps | apply ite_keeps | simp only [keeps_mk]
    | apply Keeps.parts | refine Keeps.partsSec ?_ id | split | dsimp only)

theorem blowEpoch_keeps (hk : Keeps σ τ)  : Keeps σ (τ.blowEpoch) := by
  unfold State.blowEpoch
  repeat' with_reducible (first
    | assumption | (intro _ _ _) | apply wr_keeps | apply ite_keeps | simp only [keeps_mk] | apply Keeps.parts
    | refine Keeps.partsSec ?_ id | dsimp only)

theorem debugOpen_keeps (hk : Keeps σ τ) (token : List Byte) (locking : Bool) (fail : Option EraseFail) : Keeps σ (τ.debugOpen token locking fail).2 := by
  unfold State.debugOpen
  repeat' with_reducible (first
    | assumption | (intro _ _ _) | apply blowEpoch_keeps | apply fresh_keeps | refine fresh_keeps_eq ‹_› ?_ | apply noteOrder_keeps
    | apply raise_keeps | apply triggerOther_keeps | apply wr_keeps | apply each_keeps' | apply ite_keeps | simp only [keeps_mk]
    | apply Keeps.parts | refine Keeps.partsSec ?_ id | refine Keeps.partsMem ?_ id id | refine Keeps.partsKeys ?_ rfl rfl rfl | split | dsimp only)

theorem debugOpen_keeps_eq {token : List Byte} {locking : Bool} {fail : Option EraseFail} {y} (he : τ.debugOpen token locking fail = (y, υ)) (hk : Keeps σ τ) : Keeps σ υ := by
  have := debugOpen_keeps hk token locking fail
  rwa [he] at this

end Sys2Proof.Machine
end

