-- ==== Sys2Proof/Laws/KeepsBus.lean ====
section
/-!
SUPPORT. `Keeps` for the operations of LiveChange, RingOps, Bus, Mgt, Events, BootConfig.
-/

namespace Sys2Proof.Machine

set_option Elab.async false
set_option linter.unusedTactic false
set_option linter.unreachableTactic false
set_option linter.unusedSimpArgs false

variable {σ τ υ : State}

theorem changeGo_keeps (hk : Keeps σ τ) (value : Nat) : Keeps σ (τ.changeGo value) := by
  unfold State.changeGo
  repeat' with_reducible (first
    | assumption | (intro _ _ _) | apply inc_keeps | apply mark_keeps | apply wr_keeps | apply ite_keeps
    | simp only [keeps_mk] | apply Keeps.parts | split | dsimp only)

theorem changeSwitching_keeps (hk : Keeps σ τ)  : Keeps σ (τ.changeSwitching) := by
  unfold State.changeSwitching
  repeat' with_reducible (first
    | assumption | (intro _ _ _) | apply wr_keeps | apply ite_keeps | simp only [keeps_mk] | apply Keeps.parts
    | split | dsimp only)

theorem changeEnd_keeps (hk : Keeps σ τ) (st : Nat) : Keeps σ (τ.changeEnd st) := by
  unfold State.changeEnd
  repeat' with_reducible (first
    | assumption | (intro _ _ _) | apply work_keeps | apply wr_keeps | apply ite_keeps | simp only [keeps_mk]
    | apply Keeps.parts | dsimp only)

theorem changeTimeout_keeps (hk : Keeps σ τ)  : Keeps σ (τ.changeTimeout) := by
  unfold State.changeTimeout
  repeat' with_reducible (first
    | assumption | (intro _ _ _) | apply changeEnd_keeps | apply exactLoss_keeps | apply raise_keeps | apply ite_keeps
    | split | dsimp only)

theorem roundStartAll_keeps (hk : Keeps σ τ)  : Keeps σ (τ.roundStartAll) := by
  unfold State.roundStartAll
  repeat' with_reducible (first
    | assumption | (intro _ _ _) | apply changeEnd_keeps | apply degradeSwitch_keeps | apply roundStartOp_keeps | apply setBank_keeps
    | apply each_keeps' | apply ite_keeps | simp only [keeps_mk] | apply Keeps.parts | split | dsimp only)

theorem packetEnter_keeps (hk : Keeps σ τ) (r : Ring) (p : RingPacket) : Keeps σ (τ.packetEnter r p) := by
  unfold State.packetEnter
  repeat' with_reducible (first
    | assumption | (intro _ _ _) | apply ringEnter_keeps | apply ite_keeps | split | dsimp only)

theorem loseCopy_keeps (hk : Keeps σ τ) (r : Ring) (p : RingPacket) : Keeps σ (τ.loseCopy r p) := by
  unfold State.loseCopy
  repeat' with_reducible (first
    | assumption | (intro _ _ _) | apply ite_keeps | simp only [keeps_mk] | apply Keeps.parts | split
    | dsimp only)

theorem packetArrive_keeps (hk : Keeps σ τ) (r : Ring) (stop : Nat) (p : RingPacket) (full : Bool) : Keeps σ (τ.packetArrive r stop p full) := by
  unfold State.packetArrive
  repeat' with_reducible (first
    | assumption | (intro _ _ _) | apply emit_keeps | apply inc_keeps | apply loseCopy_keeps | apply packetEnter_keeps
    | apply ringClaim_keeps | apply ringLeave_keeps | apply ite_keeps | split | dsimp only)

theorem ringFail_keeps (hk : Keeps σ τ) (r : Ring) (stop : Nat) (msgs : List (Nat × Nat)) (packets : List RingPacket) : Keeps σ (τ.ringFail r stop msgs packets) := by
  unfold State.ringFail
  repeat' with_reducible (first
    | assumption | (intro _ _ _) | apply loseCopy_keeps | apply setLevel_keeps | apply syncFaults_keeps | apply takeOff_keeps
    | apply wr_keeps | apply each_keeps' | apply ite_keeps | split | dsimp only)

theorem ringRestore_keeps (hk : Keeps σ τ) (r : Ring) (stop : Nat) : Keeps σ (τ.ringRestore r stop) := by
  unfold State.ringRestore
  repeat' with_reducible (first
    | assumption | (intro _ _ _) | apply sendFault_keeps | apply setLevel_keeps | apply syncFaults_keeps | apply wr_keeps
    | apply each_keeps' | apply ite_keeps | simp only [keeps_mk] | apply Keeps.parts | split | dsimp only)

theorem captureAccess_keeps (hk : Keeps σ τ) (cls addr : Nat) : Keeps σ (τ.captureAccess cls addr) := by
  unfold State.captureAccess
  repeat' with_reducible (first
    | assumption | (intro _ _ _) | apply wr_keeps | apply ite_keeps | dsimp only)

theorem accessErr_keeps (hk : Keeps σ τ) (f : Fld) (cls : PortClass) (addr : Nat) : Keeps σ (τ.accessErr f cls addr) := by
  unfold State.accessErr
  repeat' with_reducible (first
    | assumption | (intro _ _ _) | apply captureAccess_keeps | apply latch_keeps | apply mark_keeps | apply raise_keeps
    | apply ite_keeps | split | dsimp only)

theorem accessCleared_keeps (hk : Keeps σ τ) (word : Nat) : Keeps σ (τ.accessCleared word) := by
  unfold State.accessCleared
  repeat' with_reducible (first
    | assumption | (intro _ _ _) | apply captureAccess_keeps | apply mark_keeps | apply foldl_keeps_fst | apply foldl_keeps_snd
    | refine foldl_keeps_fst_eq ‹_› ?_ ?_ | refine foldl_keeps_snd_eq ‹_› ?_ ?_ | apply ite_keeps | simp only [keeps_mk] | apply Keeps.parts | split
    | dsimp only)

theorem readEffects_keeps (hk : Keeps σ τ) (r : Reg) (i j : Nat) : Keeps σ (τ.readEffects r i j) := by
  unfold State.readEffects
  repeat' with_reducible (first
    | assumption | (intro _ _ _) | apply wr_keeps | apply each_keeps' | apply ite_keeps | split
    | dsimp only)

theorem windowRead_keeps (hk : Keeps σ τ) (a : Nat) : Keeps σ (τ.windowRead a).2 := by
  unfold State.windowRead
  repeat' with_reducible (first
    | assumption | (intro _ _ _) | apply evrUncorr_keeps | apply fresh_keeps | refine fresh_keeps_eq ‹_› ?_ | apply ite_keeps
    | split | dsimp only)

theorem windowRead_keeps_eq {a : Nat} {y} (he : τ.windowRead a = (y, υ)) (hk : Keeps σ τ) : Keeps σ υ := by
  have := windowRead_keeps hk a
  rwa [he] at this

theorem setLatch_keeps (hk : Keeps σ τ) (cls : PortClass) (l : Option Latch) : Keeps σ (τ.setLatch cls l) := by
  unfold State.setLatch
  repeat' with_reducible (first
    | assumption | (intro _ _ _) | apply latch_keeps | apply ite_keeps | simp only [keeps_mk] | apply Keeps.parts
    | dsimp only)

theorem setHeld_keeps (hk : Keeps σ τ) (cls : PortClass) (h : Option HeldWord) : Keeps σ (τ.setHeld cls h) := by
  unfold State.setHeld
  repeat' with_reducible (first
    | assumption | (intro _ _ _) | apply ite_keeps | simp only [keeps_mk] | apply Keeps.parts | dsimp only)

theorem read32_keeps (hk : Keeps σ τ) (cls : PortClass) (a : Nat) : Keeps σ (τ.read32 cls a).2 := by
  unfold State.read32
  repeat' with_reducible (first
    | assumption | (intro _ _ _) | apply accessErr_keeps | apply latch_keeps | apply readEffects_keeps | apply setLatch_keeps
    | apply windowRead_keeps | refine windowRead_keeps_eq ‹_› ?_ | apply ite_keeps | simp only [keeps_mk] | apply Keeps.parts | split
    | dsimp only)

theorem read32_keeps_eq {cls : PortClass} {a : Nat} {y} (he : τ.read32 cls a = (y, υ)) (hk : Keeps σ τ) : Keeps σ υ := by
  have := read32_keeps hk cls a
  rwa [he] at this

theorem snd_pair {α β : Type} (a : α) (b : β) : (a, b).2 = b := rfl

theorem readPair_keeps {r : Nat × State} (hk : Keeps σ r.2) (cls : PortClass) (a : Nat) : Keeps σ (readPair r cls a).2 := by
  rw [readPair, snd_pair]
  exact read32_keeps hk cls a

theorem read64_keeps (hk : Keeps σ τ) (cls : PortClass) (a : Nat) : Keeps σ (τ.read64 cls a).2 := by
  rw [State.read64.eq_def]
  cases wideAt a with
  | some h => exact readEffects_keeps hk _ _ _
  | none => exact readPair_keeps (read32_keeps hk _ _) _ _

theorem read64_keeps_eq {cls : PortClass} {a : Nat} {y} (he : τ.read64 cls a = (y, υ)) (hk : Keeps σ τ) : Keeps σ υ := by
  have := read64_keeps hk cls a
  rwa [he] at this

theorem busRead_keeps (hk : Keeps σ τ) (cls : PortClass) (a width : Nat) : Keeps σ (τ.busRead cls a width) := by
  unfold State.busRead
  repeat' with_reducible (first
    | assumption | (intro _ _ _) | apply emit_keeps | apply read32_keeps | refine read32_keeps_eq ‹_› ?_ | apply read64_keeps
    | refine read64_keeps_eq ‹_› ?_ | apply ite_keeps | split | dsimp only)

theorem writeField_keeps (hk : Keeps σ τ) (f : Fld) (i j word : Nat) : Keeps σ (τ.writeField f i j word) := by
  unfold State.writeField
  repeat' with_reducible (first
    | assumption | (intro _ _ _) | apply setRate_keeps | apply wr_keeps | apply ite_keeps | simp only [keeps_mk]
    | apply Keeps.parts | split | dsimp only)

theorem writeFields_keeps (hk : Keeps σ τ) (fs : List Fld) (i j word : Nat) : Keeps σ (τ.writeFields fs i j word) := by
  unfold State.writeFields
  repeat' with_reducible (first
    | assumption | (intro _ _ _) | apply writeField_keeps | apply each_keeps' | apply ite_keeps | dsimp only)

theorem writeReg_keeps (hk : Keeps σ τ) (cls : PortClass) (r : Reg) (i j word hi lo : Nat) : Keeps σ (τ.writeReg cls r i j word hi lo) := by
  unfold State.writeReg
  repeat' with_reducible (first
    | assumption | (intro _ _ _) | apply accessCleared_keeps | apply changeGo_keeps | apply clearPending_keeps | apply hostAbort_keeps
    | apply inc_keeps | apply mailbox_keeps | apply mark_keeps | apply noteOrder_keeps | apply ringSelect_keeps | apply setEnable_keeps
    | apply setMask_keeps | apply settleAll_keeps | apply softwareTrigger_keeps | apply swFence_keeps | apply syncFaults_keeps | apply syncLasts_keeps
    | apply syncMembers_keeps | apply syncTime_keeps | apply thermWarn_keeps | apply writeBucket_keeps | apply writeDomainOff_keeps | apply writeFields_keeps
    | apply writeInject_keeps | apply writeLaserEnable_keeps | apply writeMirror_keeps | apply writeSrcCfg_keeps | apply writeTest_keeps | apply writeTime_keeps
    | apply ite_keeps | simp only [keeps_mk] | apply Keeps.parts | split | dsimp only)

theorem writeHit_keeps (hk : Keeps σ τ) (cls : PortClass) (a : Nat) (h : Hit) (word hi lo : Nat) : Keeps σ (τ.writeHit cls a h word hi lo) := by
  unfold State.writeHit
  repeat' with_reducible (first
    | assumption | (intro _ _ _) | apply accessErr_keeps | apply setRate_keeps | apply wr_keeps | apply writeReg_keeps
    | apply each_keeps' | apply ite_keeps | split | dsimp only)

theorem write32_keeps (hk : Keeps σ τ) (cls : PortClass) (a v : Nat) : Keeps σ (τ.write32 cls a v) := by
  unfold State.write32
  repeat' with_reducible (first
    | assumption | (intro _ _ _) | apply accessErr_keeps | apply setHeld_keeps | apply writeHit_keeps | apply ite_keeps
    | simp only [keeps_mk] | apply Keeps.parts | split | dsimp only)

theorem write64_keeps (hk : Keeps σ τ) (cls : PortClass) (a v : Nat) : Keeps σ (τ.write64 cls a v) := by
  unfold State.write64
  repeat' with_reducible (first
    | assumption | (intro _ _ _) | apply setHeld_keeps | apply write32_keeps | apply writeHit_keeps | apply ite_keeps
    | simp only [keeps_mk] | apply Keeps.parts | split | dsimp only)

theorem busWrite_keeps (hk : Keeps σ τ) (cls : PortClass) (a width v : Nat) : Keeps σ (τ.busWrite cls a width v) := by
  unfold State.busWrite
  repeat' with_reducible (first
    | assumption | (intro _ _ _) | apply write32_keeps | apply write64_keeps | apply ite_keeps | split
    | dsimp only)

theorem regWrite_keeps (hk : Keeps σ τ) (r : Reg) (i j v : Nat) : Keeps σ (τ.regWrite r i j v) := by
  unfold State.regWrite
  repeat' with_reducible (first
    | assumption | (intro _ _ _) | apply busWrite_keeps | apply ite_keeps | dsimp only)

theorem accessLost_keeps (hk : Keeps σ τ) (a : Nat) (write : Bool) : Keeps σ (τ.accessLost a write) := by
  unfold State.accessLost
  repeat' with_reducible (first
    | assumption | (intro _ _ _) | apply emit_keeps | apply latch_keeps | apply wr_keeps | apply ite_keeps
    | split | dsimp only)

theorem answer_keeps (hk : Keeps σ τ) (src : Nat) (r : PeerLast) : Keeps σ (τ.answer src r) := by
  unfold State.answer
  repeat' with_reducible (first
    | assumption | (intro _ _ _) | apply emit_keeps | apply ite_keeps | dsimp only)

theorem malformed_keeps (hk : Keeps σ τ) (src : Nat) : Keeps σ (τ.malformed src) := by
  unfold State.malformed
  repeat' with_reducible (first
    | assumption | (intro _ _ _) | apply inc_keeps | apply ite_keeps | split | dsimp only)

theorem respond_keeps (hk : Keeps σ τ) (k src : Nat) (r : PeerLast) : Keeps σ (τ.respond k src r) := by
  unfold State.respond
  repeat' with_reducible (first
    | assumption | (intro _ _ _) | apply answer_keeps | apply ite_keeps | simp only [keeps_mk] | apply Keeps.parts
    | refine Keeps.partsSec ?_ id | dsimp only)

theorem mgtRequest_keeps (hk : Keeps σ τ) (src seq : Nat) {run : Nat → State → State}
    (hr : ∀ k u, Keeps σ u → Keeps σ (run k u)) : Keeps σ (τ.mgtRequest src seq run) := by
  unfold State.mgtRequest
  split
  · exact inc_keeps hk _ _ _ _
  · split
    · exact answer_keeps (inc_keeps hk _ _ _ _) _ _
    · exact hr _ _ (inc_keeps hk _ _ _ _)

theorem readWords_keeps (hk : Keeps σ τ) (a n : Nat) : Keeps σ (τ.readWords a n).2.2 := by
  unfold State.readWords
  refine foldl_keeps (fun (r : List Nat × Bool × State) => r.2.2) hk (fun c k hc => ?_)
  exact read32_keeps hc _ _

theorem readWords_keeps_eq {a n : Nat} {y z} (he : τ.readWords a n = (y, z, υ)) (hk : Keeps σ τ) : Keeps σ υ := by
  have := readWords_keeps hk a n
  rwa [he] at this

theorem mgtReadOp_keeps (hk : Keeps σ τ) (src seq a n : Nat) (timeout : Bool) : Keeps σ (τ.mgtReadOp src seq a n timeout) := by
  unfold State.mgtReadOp
  repeat' with_reducible (first
    | assumption | (intro _ _ _) | apply answer_keeps | apply malformed_keeps | apply mgtRequest_keeps | apply respond_keeps
    | refine readWords_keeps_eq ‹_› ?_ | apply ite_keeps | split | dsimp only)

theorem mgtWriteOp_keeps (hk : Keeps σ τ) (src seq a n value : Nat) (timeout : Bool) : Keeps σ (τ.mgtWriteOp src seq a n value timeout) := by
  unfold State.mgtWriteOp
  repeat' with_reducible (first
    | assumption | (intro _ _ _) | apply answer_keeps | apply busWrite_keeps | apply malformed_keeps | apply mgtRequest_keeps
    | apply respond_keeps | apply ite_keeps | split | dsimp only)

theorem mgtResetOp_keeps (hk : Keeps σ τ) (src seq : Nat) : Keeps σ (τ.mgtResetOp src seq) := by
  unfold State.mgtResetOp
  repeat' with_reducible (first
    | assumption | (intro _ _ _) | apply answer_keeps | apply chipReset_keeps | apply mgtRequest_keeps | apply noteOrder_keeps
    | apply ite_keeps | simp only [keeps_mk] | apply Keeps.parts | split | dsimp only)

theorem mgtDebugOp_keeps (hk : Keeps σ τ) (src seq : Nat) (token : List Byte) (locking : Bool) (fail : Option EraseFail) : Keeps σ (τ.mgtDebugOp src seq token locking fail) := by
  unfold State.mgtDebugOp
  repeat' with_reducible (first
    | assumption | (intro _ _ _) | apply answer_keeps | apply debugOpen_keeps | refine debugOpen_keeps_eq ‹_› ?_ | apply malformed_keeps
    | apply mgtRequest_keeps | apply respond_keeps | apply ite_keeps | split | dsimp only)

theorem mgtIgnore_keeps (hk : Keeps σ τ) (c : MgtIgnored) : Keeps σ (τ.mgtIgnore c) := by
  unfold State.mgtIgnore
  repeat' with_reducible (first
    | assumption | (intro _ _ _) | apply inc_keeps | apply mgtRequest_keeps | apply respond_keeps | apply ite_keeps
    | simp only [keeps_mk] | apply Keeps.parts | split | dsimp only)

theorem mgtDuplicate_keeps (hk : Keeps σ τ) (src seq : Nat) : Keeps σ (τ.mgtDuplicate src seq) := by
  unfold State.mgtDuplicate
  repeat' with_reducible (first
    | assumption | (intro _ _ _) | apply answer_keeps | apply inc_keeps | apply ite_keeps | simp only [keeps_mk]
    | apply Keeps.parts | split | dsimp only)

theorem mgtClear_keeps (hk : Keeps σ τ) (src : Nat) (force raised : Bool) : Keeps σ (τ.mgtClear src force raised) := by
  unfold State.mgtClear
  repeat' with_reducible (first
    | assumption | (intro _ _ _) | apply clearPending_keeps | apply setHeld_keeps | apply syncFaults_keeps | apply wr_keeps
    | apply ite_keeps | split | dsimp only)

theorem mirrorPurge_keeps (hk : Keeps σ τ) (p : Nat) : Keeps σ (τ.mirrorPurge p) := by
  unfold State.mirrorPurge
  repeat' with_reducible (first
    | assumption | (intro _ _ _) | apply mirrorDiscard_keeps | apply ite_keeps | simp only [keeps_mk] | apply Keeps.parts
    | split | dsimp only)

theorem schedFrame_keeps (hk : Keeps σ τ) (p : Nat) (bad : Option Nat) : Keeps σ (τ.schedFrame p bad) := by
  unfold State.schedFrame
  repeat' with_reducible (first
    | assumption | (intro _ _ _) | apply cellUncorr_keeps | apply schedStart_keeps | apply ite_keeps | simp only [keeps_mk]
    | apply Keeps.parts | split | dsimp only)

theorem oppCells_keeps (hk : Keeps σ τ) (p : Nat) (bad : Option Nat) : Keeps σ (τ.oppCells p bad) := by
  unfold State.oppCells
  repeat' with_reducible (first
    | assumption | (intro _ _ _) | apply oppRead_keeps | apply work_keeps | apply ite_keeps | simp only [keeps_mk]
    | apply Keeps.parts | split | dsimp only)

theorem scrub_keeps (hk : Keeps σ τ) (corrected : Nat) (bad : Option Nat) : Keeps σ (τ.scrub corrected bad) := by
  unfold State.scrub
  repeat' with_reducible (first
    | assumption | (intro _ _ _) | apply cellUncorr_keeps | apply incCorr_keeps | apply ite_keeps | simp only [keeps_mk]
    | apply Keeps.parts | split | dsimp only)

theorem timeTick_keeps (hk : Keeps σ τ)  : Keeps σ (τ.timeTick) := by
  unfold State.timeTick
  repeat' with_reducible (first
    | assumption | (intro _ _ _) | apply incWrap_keeps | apply ite_keeps | simp only [keeps_mk] | apply Keeps.parts
    | split | dsimp only)

theorem idleTick_keeps (hk : Keeps σ τ)  : Keeps σ (τ.idleTick) := by
  unfold State.idleTick
  repeat' with_reducible (first
    | assumption | (intro _ _ _) | apply inc_keeps | apply each_keeps' | apply ite_keeps | split
    | dsimp only)

theorem holdTick_keeps (hk : Keeps σ τ)  : Keeps σ (τ.holdTick) := by
  unfold State.holdTick
  repeat' with_reducible (first
    | assumption | (intro _ _ _) | apply inc_keeps | apply each_keeps' | apply ite_keeps | split
    | dsimp only)

theorem resetTick_keeps (hk : Keeps σ τ)  : Keeps σ (τ.resetTick) := by
  unfold State.resetTick
  repeat' with_reducible (first
    | assumption | (intro _ _ _) | apply realign_keeps | apply setLaser_keeps | apply setLaserEnable_keeps | apply setPort_keeps
    | apply wr_keeps | apply each_keeps' | apply ite_keeps | simp only [keeps_mk] | apply Keeps.parts | split
    | dsimp only)

theorem storeEnd_keeps (hk : Keeps σ τ)  : Keeps σ (τ.storeEnd) := by
  unfold State.storeEnd
  repeat' with_reducible (first
    | assumption | (intro _ _ _) | apply copyLate_keeps | apply endAsked_keeps | apply endPlacements_keeps | apply refuseLate_keeps
    | apply settleAll_keeps | apply ite_keeps | split | dsimp only)

theorem tickStart_keeps (hk : Keeps σ τ) (pin : Bool) : Keeps σ (τ.tickStart pin) := by
  unfold State.tickStart
  repeat' with_reducible (first
    | assumption | (intro _ _ _) | apply arithCycle_keeps | apply bucketResets_keeps | apply endClosing_keeps | apply holdTick_keeps
    | apply leaveUps_keeps | apply mailboxTick_keeps | apply resetTick_keeps | apply serveFrees_keeps | apply settleAll_keeps | apply syncFaults_keeps
    | apply timeTick_keeps | apply ite_keeps | split | dsimp only)

/-- A root cycle moves the time on by one and nothing else of what `Keeps` says. -/
theorem tick_keeps (s : State) : Keeps { s with now := s.now + 1 } s.tick := by
  unfold State.tick
  extract_lets u v pin t
  have hu : Keeps s u := ite_keeps (idleTick_keeps (Keeps.refl s)) (Keeps.refl s)
  have hv : Keeps s v := ite_keeps (storeEnd_keeps hu) hu
  have ht : Keeps { s with now := s.now + 1 } t :=
    ⟨hv.canonical, congrArg (· + 1) hv.now, hv.pending, hv.out, hv.free⟩
  exact ite_keeps (tickStart_keeps ht _) ht

theorem bootClusters_keeps (hk : Keeps σ τ) (clusters : List Nat) : Keeps σ (τ.bootClusters clusters) := by
  unfold State.bootClusters
  repeat' with_reducible (first
    | assumption | (intro _ _ _) | apply bootOwners_keeps | apply syncClusters_keeps | apply wr_keeps | apply each_keeps'
    | apply ite_keeps | split | dsimp only)

theorem bootChannels_keeps (hk : Keeps σ τ)  : Keeps σ (τ.bootChannels) := by
  unfold State.bootChannels
  repeat' with_reducible (first
    | assumption | (intro _ _ _) | apply wr_keeps | apply foldl_keeps_fst | apply foldl_keeps_snd | refine foldl_keeps_fst_eq ‹_› ?_ ?_
    | refine foldl_keeps_snd_eq ‹_› ?_ ?_ | apply ite_keeps | simp only [keeps_mk] | apply Keeps.parts | refine Keeps.partsMem ?_ id id | dsimp only)

theorem bootPools_keeps (hk : Keeps σ τ)  : Keeps σ (τ.bootPools) := by
  unfold State.bootPools
  repeat' with_reducible (first
    | assumption | (intro _ _ _) | apply buildLists_keeps | apply wr_keeps | apply each_keeps' | apply foldl_keeps_fst
    | apply foldl_keeps_snd | refine foldl_keeps_fst_eq ‹_› ?_ ?_ | refine foldl_keeps_snd_eq ‹_› ?_ ?_ | apply ite_keeps | dsimp only)

theorem bootKeys_keeps (hk : Keeps σ τ)  : Keeps σ (τ.bootKeys) := by
  unfold State.bootKeys
  repeat' with_reducible (first
    | assumption | (intro _ _ _) | apply fresh_keeps | refine fresh_keeps_eq ‹_› ?_ | apply setDigest_keeps | apply wr_keeps
    | apply ite_keeps | simp only [keeps_mk] | apply Keeps.parts | refine Keeps.partsSec ?_ id | refine Keeps.partsMem ?_ id id | refine Keeps.partsKeys ?_ rfl rfl rfl
    | split | dsimp only)

theorem bootFences_keeps (hk : Keeps σ τ)  : Keeps σ (τ.bootFences) := by
  unfold State.bootFences
  repeat' with_reducible (first
    | assumption | (intro _ _ _) | apply wr_keeps | apply each_keeps' | apply foldl_keeps_fst | apply foldl_keeps_snd
    | refine foldl_keeps_fst_eq ‹_› ?_ ?_ | refine foldl_keeps_snd_eq ‹_› ?_ ?_ | apply ite_keeps | simp only [keeps_mk] | apply Keeps.parts | dsimp only)

theorem rememberLoaded_keeps (hk : Keeps σ τ)  : Keeps σ (τ.rememberLoaded) := by
  unfold State.rememberLoaded
  repeat' with_reducible (first
    | assumption | (intro _ _ _) | apply ite_keeps | simp only [keeps_mk] | apply Keeps.parts | apply Keeps.partsRegs
    | apply Keeps.partsFilter | dsimp only)

theorem configLoaded_keeps (hk : Keeps σ τ) (ws : List (Nat × Nat)) (marked : Nat) : Keeps σ (τ.configLoaded ws marked) := by
  unfold State.configLoaded
  repeat' with_reducible (first
    | assumption | (intro _ _ _) | apply bootChannels_keeps | apply mark_keeps | apply write32_keeps | apply each_keeps'
    | apply foldl_keeps_fst | apply foldl_keeps_snd | refine foldl_keeps_fst_eq ‹_› ?_ ?_ | refine foldl_keeps_snd_eq ‹_› ?_ ?_ | apply ite_keeps | simp only [keeps_mk]
    | apply Keeps.parts | dsimp only)

theorem bootConfig_keeps (hk : Keeps σ τ) (marked : Nat) (clusters : List Nat) : Keeps σ (τ.bootConfig marked clusters) := by
  unfold State.bootConfig
  repeat' with_reducible (first
    | assumption | (intro _ _ _) | apply bootClusters_keeps | apply bootFences_keeps | apply bootKeys_keeps | apply bootPools_keeps
    | apply bootStop_keeps | apply configLoaded_keeps | apply inc_keeps | apply readPersistence_keeps | apply rememberLoaded_keeps | apply syncFaults_keeps
    | apply syncMap_keeps | apply syncOldest_keeps | apply wr_keeps | apply writePersistence_keeps | apply each_keeps' | apply ite_keeps
    | simp only [keeps_mk] | apply Keeps.parts | refine Keeps.partsSec ?_ id | split | dsimp only)

end Sys2Proof.Machine
end

