-- ==== Sys2Proof/Laws/KeepsExec.lean ====
section
/-!
SUPPORT. `Keeps` for every command: what a command never does, whatever it does.
-/

namespace Sys2Proof.Machine

set_option Elab.async false

set_option linter.unusedTactic false
set_option linter.unreachableTactic false
set_option linter.unusedSimpArgs false

variable {σ τ υ : State}

theorem onAlways_keeps {ok : Bool} {f : State → State} (h : onAlways ok τ f = .next υ)
    (hf : ∀ {σ}, Keeps σ τ → Keeps σ (f τ)) : Keeps τ υ := by
  unfold onAlways at h
  cases h
  exact ite_keeps (hf (Keeps.refl τ)) (Keeps.refl τ)

theorem onPowered_keeps {ok : Bool} {f : State → State} (h : onPowered ok τ f = .next υ)
    (hf : ∀ {σ}, Keeps σ τ → Keeps σ (f τ)) : Keeps τ υ := by
  unfold onPowered at h
  cases h
  exact ite_keeps (hf (Keeps.refl τ)) (Keeps.refl τ)

theorem onActive_keeps {ok : Bool} {f : State → State} (h : onActive ok τ f = .next υ)
    (hf : ∀ {σ}, Keeps σ τ → Keeps σ (f τ)) : Keeps τ υ := by
  unfold onActive at h
  cases h
  exact ite_keeps (hf (Keeps.refl τ)) (Keeps.refl τ)

theorem execBootRom_keeps (h : execBootRom τ = .next υ) : Keeps τ υ := by
  refine onPowered_keeps h (fun hk => ?_)
  repeat' with_reducible (first
    | assumption | (intro _ _ _) | apply bootRom_keeps | apply ite_keeps | dsimp only)

theorem execBootNvmRead_keeps {jedec : Nat} {size : Nat} {retries : Nat} (h : execBootNvmRead jedec size retries τ = .next υ) : Keeps τ υ := by
  refine onPowered_keeps h (fun hk => ?_)
  repeat' with_reducible (first
    | assumption | (intro _ _ _) | apply bootNvmRead_keeps | apply ite_keeps | dsimp only)

theorem execBootVerify_keeps {fwA : Bool} {fwB : Bool} {cfgA : Bool} {cfgB : Bool} (h : execBootVerify fwA fwB cfgA cfgB τ = .next υ) : Keeps τ υ := by
  refine onPowered_keeps h (fun hk => ?_)
  repeat' with_reducible (first
    | assumption | (intro _ _ _) | apply bootVerify_keeps | apply ite_keeps | dsimp only)

theorem execBootConfig_keeps {marked : Nat} {clusters : List Nat} (h : execBootConfig marked clusters τ = .next υ) : Keeps τ υ := by
  refine onPowered_keeps h (fun hk => ?_)
  repeat' with_reducible (first
    | assumption | (intro _ _ _) | apply bootConfig_keeps | apply ite_keeps | dsimp only)

theorem execBootMemory_keeps {failed : Nat} (h : execBootMemory failed τ = .next υ) : Keeps τ υ := by
  refine onPowered_keeps h (fun hk => ?_)
  repeat' with_reducible (first
    | assumption | (intro _ _ _) | apply bootMemory_keeps | apply ite_keeps | dsimp only)

theorem execBootLinks_keeps (h : execBootLinks τ = .next υ) : Keeps τ υ := by
  refine onPowered_keeps h (fun hk => ?_)
  repeat' with_reducible (first
    | assumption | (intro _ _ _) | apply bootLinks_keeps | apply ite_keeps | dsimp only)

theorem execBootFail_keeps {code : Nat} (h : execBootFail code τ = .next υ) : Keeps τ υ := by
  refine onPowered_keeps h (fun hk => ?_)
  repeat' with_reducible (first
    | assumption | (intro _ _ _) | apply bootFail_keeps | apply ite_keeps | dsimp only)

theorem execAdmissionDecide_keeps {k : Nat} {t : Nat} (h : execAdmissionDecide k t τ = .next υ) : Keeps τ υ := by
  refine onActive_keeps h (fun hk => ?_)
  repeat' with_reducible (first
    | assumption | (intro _ _ _) | apply admissionDecide_keeps | apply ite_keeps | dsimp only)

theorem execFreezeDieStop_keeps {t : Nat} {die : Nat} (h : execFreezeDieStop t die τ = .next υ) : Keeps τ υ := by
  refine onActive_keeps h (fun hk => ?_)
  repeat' with_reducible (first
    | assumption | (intro _ _ _) | apply stopDie_keeps | apply ite_keeps | dsimp only)

theorem execHoldEnter_keeps {t : Nat} (h : execHoldEnter t τ = .next υ) : Keeps τ υ := by
  refine onActive_keeps h (fun hk => ?_)
  repeat' with_reducible (first
    | assumption | (intro _ _ _) | apply enterHold_keeps | apply ite_keeps | dsimp only)

theorem execSpineHoldReceive_keeps (h : execSpineHoldReceive τ = .next υ) : Keeps τ υ := by
  refine onActive_keeps h (fun hk => ?_)
  repeat' with_reducible (first
    | assumption | (intro _ _ _) | apply settleAll_keeps | apply spineHold_keeps | apply ite_keeps | dsimp only)

theorem execOperandFetchRequest_keeps {x : Nat} {n : Nat} (h : execOperandFetchRequest x n τ = .next υ) : Keeps τ υ := by
  refine onActive_keeps h (fun hk => ?_)
  repeat' with_reducible (first
    | assumption | (intro _ _ _) | apply fetchRequest_keeps | apply ite_keeps | dsimp only)

theorem execOperandArrive_keeps {x : Nat} {n : Nat} {r : Nat} {bad : Option Nat} (h : execOperandArrive x n r bad τ = .next υ) : Keeps τ υ := by
  refine onActive_keeps h (fun hk => ?_)
  repeat' with_reducible (first
    | assumption | (intro _ _ _) | apply operandArrive_keeps | apply settleAll_keeps | apply ite_keeps | dsimp only)

theorem execNodeIssue_keeps {k : Nat} (h : execNodeIssue k τ = .next υ) : Keeps τ υ := by
  refine onActive_keeps h (fun hk => ?_)
  repeat' with_reducible (first
    | assumption | (intro _ _ _) | apply nodeIssue_keeps | apply ite_keeps | dsimp only)

theorem execCheckVerdict_keeps {k : Nat} {x : Nat} {opnum : Nat} {n : Nat} {node : Nat} {fail : Option CheckPath} {attempt : Nat} {corrected : Nat} (h : execCheckVerdict k x opnum n node fail attempt corrected τ = .next υ) : Keeps τ υ := by
  refine onActive_keeps h (fun hk => ?_)
  repeat' with_reducible (first
    | assumption | (intro _ _ _) | apply checkVerdict_keeps | apply ite_keeps | dsimp only)

theorem execChunkCommit_keeps {x : Nat} {n : Nat} (h : execChunkCommit x n τ = .next υ) : Keeps τ υ := by
  refine onActive_keeps h (fun hk => ?_)
  repeat' with_reducible (first
    | assumption | (intro _ _ _) | apply chunkCommit_keeps | apply settleAll_keeps | apply ite_keeps | dsimp only)

theorem execNumRecordArrive_keeps {x : Nat} {n : Nat} {bad : Bool} (h : execNumRecordArrive x n bad τ = .next υ) : Keeps τ υ := by
  refine onActive_keeps h (fun hk => ?_)
  repeat' with_reducible (first
    | assumption | (intro _ _ _) | apply recordArrive_keeps | apply ite_keeps | dsimp only)

theorem execSpareSelfTestStart_keeps (h : execSpareSelfTestStart τ = .next υ) : Keeps τ υ := by
  refine onActive_keeps h (fun hk => ?_)
  repeat' with_reducible (first
    | assumption | (intro _ _ _) | apply spareTestStart_keeps | apply ite_keeps | dsimp only)

theorem execSpareSelfTestEnd_keeps {pass : Bool} (h : execSpareSelfTestEnd pass τ = .next υ) : Keeps τ υ := by
  refine onActive_keeps h (fun hk => ?_)
  repeat' with_reducible (first
    | assumption | (intro _ _ _) | apply spareTestEnd_keeps | apply ite_keeps | dsimp only)

theorem execCoreDieLoss_keeps {die : Nat} (h : execCoreDieLoss die τ = .next υ) : Keeps τ υ := by
  refine onActive_keeps h (fun hk => ?_)
  repeat' with_reducible (first
    | assumption | (intro _ _ _) | apply coreDieLoss_keeps | apply ite_keeps | dsimp only)

theorem execMonitorInputsRead_keeps {die : Nat} (h : execMonitorInputsRead die τ = .next υ) : Keeps τ υ := by
  refine onActive_keeps h (fun hk => ?_)
  repeat' with_reducible (first
    | assumption | (intro _ _ _) | apply monitorRead_keeps | apply settleAll_keeps | apply ite_keeps | dsimp only)

theorem execShadowCheckComplete_keeps {die : Nat} (h : execShadowCheckComplete die τ = .next υ) : Keeps τ υ := by
  refine onActive_keeps h (fun hk => ?_)
  repeat' with_reducible (first
    | assumption | (intro _ _ _) | apply shadowComplete_keeps | apply ite_keeps | dsimp only)

theorem execSpillFetchComplete_keeps {x : Nat} {n : Nat} {q : Nat} {bad : Option Nat} (h : execSpillFetchComplete x n q bad τ = .next υ) : Keeps τ υ := by
  refine onActive_keeps h (fun hk => ?_)
  repeat' with_reducible (first
    | assumption | (intro _ _ _) | apply settleAll_keeps | apply spillFetched_keeps | apply ite_keeps | dsimp only)

theorem execSpillWritebackComplete_keeps {x : Nat} {n : Nat} {q : Nat} (h : execSpillWritebackComplete x n q τ = .next υ) : Keeps τ υ := by
  refine onActive_keeps h (fun hk => ?_)
  repeat' with_reducible (first
    | assumption | (intro _ _ _) | apply spillWritten_keeps | apply ite_keeps | dsimp only)

theorem execFaultMessage_keeps {ring : Ring} (h : execFaultMessage ring τ = .next υ) : Keeps τ υ := by
  refine onPowered_keeps h (fun hk => ?_)
  repeat' with_reducible (first
    | assumption | (intro _ _ _) | apply faultMessage_keeps | apply ite_keeps | dsimp only)

theorem execFaultRaise_keeps (h : execFaultRaise τ = .next υ) : Keeps τ υ := by
  refine onActive_keeps h (fun hk => ?_)
  repeat' with_reducible (first
    | assumption | (intro _ _ _) | apply faultRaise_keeps | apply settleAll_keeps | apply ite_keeps | dsimp only)

theorem execLevelConditionChange_keeps {src : Nat} {unit : Nat} {holds : Bool} (h : execLevelConditionChange src unit holds τ = .next υ) : Keeps τ υ := by
  refine onPowered_keeps h (fun hk => ?_)
  repeat' with_reducible (first
    | assumption | (intro _ _ _) | apply levelChange_keeps | apply ite_keeps | dsimp only)

theorem execIntHoldoffEnd_keeps {v : Nat} (h : execIntHoldoffEnd v τ = .next υ) : Keeps τ υ := by
  refine onPowered_keeps h (fun hk => ?_)
  repeat' with_reducible (first
    | assumption | (intro _ _ _) | apply holdoffEnd_keeps | apply ite_keeps | dsimp only)

theorem execChipResetReaction_keeps (h : execChipResetReaction τ = .next υ) : Keeps τ υ := by
  refine onPowered_keeps h (fun hk => ?_)
  repeat' with_reducible (first
    | assumption | (intro _ _ _) | apply resetReactionDue_keeps | apply ite_keeps | dsimp only)

theorem execFaultNoticeRepeat_keeps (h : execFaultNoticeRepeat τ = .next υ) : Keeps τ υ := by
  refine onPowered_keeps h (fun hk => ?_)
  repeat' with_reducible (first
    | assumption | (intro _ _ _) | apply noticeRepeat_keeps | apply ite_keeps | dsimp only)

theorem execMgtWatchdogExpiry_keeps (h : execMgtWatchdogExpiry τ = .next υ) : Keeps τ υ := by
  refine onPowered_keeps h (fun hk => ?_)
  repeat' with_reducible (first
    | assumption | (intro _ _ _) | apply watchdog_keeps | apply ite_keeps | dsimp only)

theorem execCollectorSweep_keeps {corrected : Nat} {bad : Option (Nat × Nat)} (h : execCollectorSweep corrected bad τ = .next υ) : Keeps τ υ := by
  refine onActive_keeps h (fun hk => ?_)
  repeat' with_reducible (first
    | assumption | (intro _ _ _) | apply sweep_keeps | apply ite_keeps | dsimp only)

theorem execSafeState_keeps {cause : Nat} {word : Nat} (h : execSafeState cause word τ = .next υ) : Keeps τ υ := by
  refine onActive_keeps h (fun hk => ?_)
  repeat' with_reducible (first
    | assumption | (intro _ _ _) | apply collectorFail_keeps | apply ite_keeps | dsimp only)

theorem execLaserSample_keeps {e : Nat} {presLow : Bool} {fltLow : Bool} (h : execLaserSample e presLow fltLow τ = .next υ) : Keeps τ υ := by
  refine onPowered_keeps h (fun hk => ?_)
  repeat' with_reducible (first
    | assumption | (intro _ _ _) | apply laserSample_keeps | apply ite_keeps | dsimp only)

theorem execLaserMonitorRead_keeps {e : Nat} {temp : Nat} {bias : List Nat} {power : List Nat} (h : execLaserMonitorRead e temp bias power τ = .next υ) : Keeps τ υ := by
  refine onPowered_keeps h (fun hk => ?_)
  repeat' with_reducible (first
    | assumption | (intro _ _ _) | apply laserRead_keeps | apply ite_keeps | dsimp only)

theorem execLaneCommaBlock_keeps {p : Nat} {k : Nat} {found : Option Nat} (h : execLaneCommaBlock p k found τ = .next υ) : Keeps τ υ := by
  refine onPowered_keeps h (fun hk => ?_)
  repeat' with_reducible (first
    | assumption | (intro _ _ _) | apply commaBlock_keeps | apply ite_keeps | dsimp only)

theorem execLossOfSignal_keeps {p : Nat} {k : Nat} (h : execLossOfSignal p k τ = .next υ) : Keeps τ υ := by
  refine onPowered_keeps h (fun hk => ?_)
  repeat' with_reducible (first
    | assumption | (intro _ _ _) | apply lossOfSignal_keeps | apply ite_keeps | dsimp only)

theorem execCodewordDecode_keeps {p : Nat} {k : Nat} {word : Codeword} (h : execCodewordDecode p k word τ = .next υ) : Keeps τ υ := by
  refine onPowered_keeps h (fun hk => ?_)
  repeat' with_reducible (first
    | assumption | (intro _ _ _) | apply codeword_keeps | apply ite_keeps | dsimp only)

theorem execLaneDeskew_keeps {p : Nat} {granted : List Nat} (h : execLaneDeskew p granted τ = .next υ) : Keeps τ υ := by
  refine onPowered_keeps h (fun hk => ?_)
  repeat' with_reducible (first
    | assumption | (intro _ _ _) | apply deskew_keeps | apply ite_keeps | dsimp only)

theorem execPortDown_keeps {p : Nat} (h : execPortDown p τ = .next υ) : Keeps τ υ := by
  refine onPowered_keeps h (fun hk => ?_)
  repeat' with_reducible (first
    | assumption | (intro _ _ _) | apply leaveUp_keeps | apply portDown_keeps | apply settleAll_keeps | apply ite_keeps
    | dsimp only)

theorem execDataBlock_keeps {p : Nat} {header : Nat} {data : List Byte} {uncorr : Bool} (h : execDataBlock p header data uncorr τ = .next υ) : Keeps τ υ := by
  refine onPowered_keeps h (fun hk => ?_)
  repeat' with_reducible (first
    | assumption | (intro _ _ _) | apply dataBlock_keeps | apply ite_keeps | dsimp only)

theorem execFrameReceive_keeps {p : Nat} {dst : Option Nat} (h : execFrameReceive p dst τ = .next υ) : Keeps τ υ := by
  refine onActive_keeps h (fun hk => ?_)
  repeat' with_reducible (first
    | assumption | (intro _ _ _) | apply frameReceive_keeps | apply ite_keeps | dsimp only)

theorem execControlBlock_keeps {p : Nat} {data : List Byte} {uncorr : Bool} (h : execControlBlock p data uncorr τ = .next υ) : Keeps τ υ := by
  refine onPowered_keeps h (fun hk => ?_)
  repeat' with_reducible (first
    | assumption | (intro _ _ _) | apply controlBlock_keeps | apply ite_keeps | dsimp only)

theorem execFlowBlock_keeps {p : Nat} (h : execFlowBlock p τ = .next υ) : Keeps τ υ := by
  refine onActive_keeps h (fun hk => ?_)
  repeat' with_reducible (first
    | assumption | (intro _ _ _) | apply flowBlock_keeps | apply ite_keeps | dsimp only)

theorem execXoffStateChange_keeps {p : Nat} (h : execXoffStateChange p τ = .next υ) : Keeps τ υ := by
  refine onActive_keeps h (fun hk => ?_)
  repeat' with_reducible (first
    | assumption | (intro _ _ _) | apply syncXoff_keeps | apply ite_keeps | dsimp only)

theorem execFlowSend_keeps {p : Nat} (h : execFlowSend p τ = .next υ) : Keeps τ υ := by
  refine onActive_keeps h (fun hk => ?_)
  repeat' with_reducible (first
    | assumption | (intro _ _ _) | apply flowSend_keeps | apply ite_keeps | dsimp only)

theorem execFcStall_keeps {p : Nat} {v : Nat} (h : execFcStall p v τ = .next υ) : Keeps τ υ := by
  refine onActive_keeps h (fun hk => ?_)
  repeat' with_reducible (first
    | assumption | (intro _ _ _) | apply fcStall_keeps | apply ite_keeps | dsimp only)

theorem execFecTrendSecond_keeps (h : execFecTrendSecond τ = .next υ) : Keeps τ υ := by
  refine onPowered_keeps h (fun hk => ?_)
  repeat' with_reducible (first
    | assumption | (intro _ _ _) | apply fecSecond_keeps | apply ite_keeps | dsimp only)

theorem execPrbsCheckerLock_keeps {p : Nat} {k : Nat} {levels : List Nat} (h : execPrbsCheckerLock p k levels τ = .next υ) : Keeps τ υ := by
  refine onPowered_keeps h (fun hk => ?_)
  repeat' with_reducible (first
    | assumption | (intro _ _ _) | apply testSymbols_keeps | apply ite_keeps | dsimp only)

theorem execMbxCommandIssue_keeps {value : Nat} {delay : Nat} (h : execMbxCommandIssue value delay τ = .next υ) : Keeps τ υ := by
  refine onActive_keeps h (fun hk => ?_)
  repeat' with_reducible (first
    | assumption | (intro _ _ _) | apply mailbox_keeps | apply setHeld_keeps | apply ite_keeps | dsimp only)

theorem execPlanLoad_keeps {slot : Nat} {image : PlanFetch} (h : execPlanLoad slot image τ = .next υ) : Keeps τ υ := by
  refine onActive_keeps h (fun hk => ?_)
  repeat' with_reducible (first
    | assumption | (intro _ _ _) | apply planLoad_keeps | apply ite_keeps | dsimp only)

theorem execPlanCheck_keeps (h : execPlanCheck τ = .next υ) : Keeps τ υ := by
  refine onActive_keeps h (fun hk => ?_)
  repeat' with_reducible (first
    | assumption | (intro _ _ _) | apply planCheck_keeps | apply ite_keeps | dsimp only)

theorem execPlanAcceptDegraded_keeps {slot : Nat} (h : execPlanAcceptDegraded slot τ = .next υ) : Keeps τ υ := by
  refine onActive_keeps h (fun hk => ?_)
  repeat' with_reducible (first
    | assumption | (intro _ _ _) | apply planAcceptDegraded_keeps | apply ite_keeps | dsimp only)

theorem execPlanRetire_keeps {slot : Nat} (h : execPlanRetire slot τ = .next υ) : Keeps τ υ := by
  refine onActive_keeps h (fun hk => ?_)
  repeat' with_reducible (first
    | assumption | (intro _ _ _) | apply planRetire_keeps | apply settleAll_keeps | apply ite_keeps | dsimp only)

theorem execPlanRetired_keeps (h : execPlanRetired τ = .next υ) : Keeps τ υ := by
  refine onActive_keeps h (fun hk => ?_)
  repeat' with_reducible (first
    | assumption | (intro _ _ _) | apply planRetired_keeps | apply ite_keeps | dsimp only)

theorem execRemap_keeps {slot : Nat} (h : execRemap slot τ = .next υ) : Keeps τ υ := by
  refine onActive_keeps h (fun hk => ?_)
  repeat' with_reducible (first
    | assumption | (intro _ _ _) | apply remap_keeps | apply ite_keeps | dsimp only)

theorem execMemberReplace_keeps {slot : Nat} (h : execMemberReplace slot τ = .next υ) : Keeps τ υ := by
  refine onActive_keeps h (fun hk => ?_)
  repeat' with_reducible (first
    | assumption | (intro _ _ _) | apply memberReplace_keeps | apply replaceDecided_keeps | apply ite_keeps | dsimp only)

theorem execMemberReplaceTimeout_keeps {slot : Nat} (h : execMemberReplaceTimeout slot τ = .next υ) : Keeps τ υ := by
  refine onActive_keeps h (fun hk => ?_)
  repeat' with_reducible (first
    | assumption | (intro _ _ _) | apply replaceTimeout_keeps | apply ite_keeps | dsimp only)

theorem execMemRead_keeps {slot : Nat} {units : Nat} {fail : Option MemFail} (h : execMemRead slot units fail τ = .next υ) : Keeps τ υ := by
  refine onActive_keeps h (fun hk => ?_)
  repeat' with_reducible (first
    | assumption | (intro _ _ _) | apply memRead_keeps | apply ite_keeps | dsimp only)

theorem execMemWrite_keeps {slot : Nat} {data : List (List Byte)} {fail : Option MemFail} (h : execMemWrite slot data fail τ = .next υ) : Keeps τ υ := by
  refine onActive_keeps h (fun hk => ?_)
  repeat' with_reducible (first
    | assumption | (intro _ _ _) | apply memWrite_keeps | apply ite_keeps | dsimp only)

theorem execAttest_keeps {slot : Nat} {dma : Bool} (h : execAttest slot dma τ = .next υ) : Keeps τ υ := by
  refine onActive_keeps h (fun hk => ?_)
  repeat' with_reducible (first
    | assumption | (intro _ _ _) | apply attest_keeps | apply ite_keeps | dsimp only)

theorem execIdentRead_keeps {slot : Nat} {dma : Bool} (h : execIdentRead slot dma τ = .next υ) : Keeps τ υ := by
  refine onActive_keeps h (fun hk => ?_)
  repeat' with_reducible (first
    | assumption | (intro _ _ _) | apply identRead_keeps | apply ite_keeps | dsimp only)

theorem execImageWrite_keeps {slot : Nat} {data : List Byte} {signed : Bool} (h : execImageWrite slot data signed τ = .next υ) : Keeps τ υ := by
  refine onActive_keeps h (fun hk => ?_)
  repeat' with_reducible (first
    | assumption | (intro _ _ _) | apply imageWrite_keeps | apply ite_keeps | dsimp only)

theorem execSvnCommit_keeps {slot : Nat} (h : execSvnCommit slot τ = .next υ) : Keeps τ υ := by
  refine onActive_keeps h (fun hk => ?_)
  repeat' with_reducible (first
    | assumption | (intro _ _ _) | apply svnCommit_keeps | apply ite_keeps | dsimp only)

theorem execDebugTokenSet_keeps {slot : Nat} (h : execDebugTokenSet slot τ = .next υ) : Keeps τ υ := by
  refine onActive_keeps h (fun hk => ?_)
  repeat' with_reducible (first
    | assumption | (intro _ _ _) | apply tokenSet_keeps | apply ite_keeps | dsimp only)

theorem execMbxAbort_keeps {slot : Nat} {tag : Nat} (h : execMbxAbort slot tag τ = .next υ) : Keeps τ υ := by
  refine onActive_keeps h (fun hk => ?_)
  repeat' with_reducible (first
    | assumption | (intro _ _ _) | apply mailbox_keeps | apply setHeld_keeps | apply ite_keeps | dsimp only)

theorem execLongOperationEnd_keeps {slot : Nat} {failure : Option (Nat × Nat)} (h : execLongOperationEnd slot failure τ = .next υ) : Keeps τ υ := by
  refine onActive_keeps h (fun hk => ?_)
  repeat' with_reducible (first
    | assumption | (intro _ _ _) | apply longEnd_keeps | apply ite_keeps | dsimp only)

theorem execHostLinkDown_keeps {flr : Bool} (h : execHostLinkDown flr τ = .next υ) : Keeps τ υ := by
  refine onPowered_keeps h (fun hk => ?_)
  repeat' with_reducible (first
    | assumption | (intro _ _ _) | apply hostLinkDown_keeps | apply ite_keeps | dsimp only)

theorem execGddrCrcRetry_keeps {ch : Nat} {retries : Nat} {corrected : Nat} {lost : Option Nat} (h : execGddrCrcRetry ch retries corrected lost τ = .next υ) : Keeps τ υ := by
  refine onPowered_keeps h (fun hk => ?_)
  repeat' with_reducible (first
    | assumption | (intro _ _ _) | apply crcRetry_keeps | apply incCorr_keeps | apply ite_keeps | dsimp only)

theorem execGddrChannelFail_keeps {ch : Nat} (h : execGddrChannelFail ch τ = .next υ) : Keeps τ υ := by
  refine onPowered_keeps h (fun hk => ?_)
  repeat' with_reducible (first
    | assumption | (intro _ _ _) | apply channelFail_keeps | apply ite_keeps | dsimp only)

theorem execCxlLinkDown_keeps {i : Nat} (h : execCxlLinkDown i τ = .next υ) : Keeps τ υ := by
  refine onPowered_keeps h (fun hk => ?_)
  repeat' with_reducible (first
    | assumption | (intro _ _ _) | apply cxlDown_keeps | apply ite_keeps | dsimp only)

theorem execCxlLinkUp_keeps {i : Nat} {speed : Nat} {width : Nat} {capacity : Nat} (h : execCxlLinkUp i speed width capacity τ = .next υ) : Keeps τ υ := by
  refine onPowered_keeps h (fun hk => ?_)
  repeat' with_reducible (first
    | assumption | (intro _ _ _) | apply cxlUpNow_keeps | apply ite_keeps | dsimp only)

theorem execHostLinkUp_keeps {speed : Nat} {width : Nat} (h : execHostLinkUp speed width τ = .next υ) : Keeps τ υ := by
  refine onPowered_keeps h (fun hk => ?_)
  repeat' with_reducible (first
    | assumption | (intro _ _ _) | apply hostUp_keeps | apply ite_keeps | dsimp only)

theorem execMgtRead_keeps {src : Nat} {seq : Nat} {addr : Nat} {count : Nat} {timeout : Bool} (h : execMgtRead src seq addr count timeout τ = .next υ) : Keeps τ υ := by
  refine onPowered_keeps h (fun hk => ?_)
  repeat' with_reducible (first
    | assumption | (intro _ _ _) | apply mgtReadOp_keeps | apply ite_keeps | dsimp only)

theorem execMgtWrite_keeps {src : Nat} {seq : Nat} {addr : Nat} {count : Nat} {value : Nat} {timeout : Bool} (h : execMgtWrite src seq addr count value timeout τ = .next υ) : Keeps τ υ := by
  refine onPowered_keeps h (fun hk => ?_)
  repeat' with_reducible (first
    | assumption | (intro _ _ _) | apply mgtWriteOp_keeps | apply ite_keeps | dsimp only)

theorem execMgtReset_keeps {src : Nat} {seq : Nat} (h : execMgtReset src seq τ = .next υ) : Keeps τ υ := by
  refine onPowered_keeps h (fun hk => ?_)
  repeat' with_reducible (first
    | assumption | (intro _ _ _) | apply mgtResetOp_keeps | apply ite_keeps | dsimp only)

theorem execDebugOpen_keeps {src : Nat} {seq : Nat} {token : List Byte} {locking : Bool} {fail : Option EraseFail} (h : execDebugOpen src seq token locking fail τ = .next υ) : Keeps τ υ := by
  refine onPowered_keeps h (fun hk => ?_)
  repeat' with_reducible (first
    | assumption | (intro _ _ _) | apply debugOpen_keeps | refine debugOpen_keeps_eq ‹_› ?_ | apply mgtDebugOp_keeps | apply ite_keeps
    | dsimp only)

theorem execMgtFrameIgnored_keeps {cause : MgtIgnored} (h : execMgtFrameIgnored cause τ = .next υ) : Keeps τ υ := by
  refine onPowered_keeps h (fun hk => ?_)
  repeat' with_reducible (first
    | assumption | (intro _ _ _) | apply mgtIgnore_keeps | apply ite_keeps | dsimp only)

theorem execMgtDuplicate_keeps {src : Nat} {seq : Nat} (h : execMgtDuplicate src seq τ = .next υ) : Keeps τ υ := by
  refine onPowered_keeps h (fun hk => ?_)
  repeat' with_reducible (first
    | assumption | (intro _ _ _) | apply mgtDuplicate_keeps | apply ite_keeps | dsimp only)

theorem execDescriptorArrival_keeps (h : execDescriptorArrival τ = .next υ) : Keeps τ υ := by
  refine onActive_keeps h (fun hk => ?_)
  repeat' with_reducible (first
    | assumption | (intro _ _ _) | apply descriptorArrival_keeps | apply ite_keeps | dsimp only)

theorem execSwatchAccept_keeps (h : execSwatchAccept τ = .next υ) : Keeps τ υ := by
  refine onActive_keeps h (fun hk => ?_)
  repeat' with_reducible (first
    | assumption | (intro _ _ _) | apply swatchAccept_keeps | apply ite_keeps | dsimp only)

theorem execProgressTimeout_keeps {x : Nat} (h : execProgressTimeout x τ = .next υ) : Keeps τ υ := by
  refine onActive_keeps h (fun hk => ?_)
  repeat' with_reducible (first
    | assumption | (intro _ _ _) | apply progressTimeout_keeps | apply ite_keeps | dsimp only)

theorem execAbortSwatch_keeps (h : execAbortSwatch τ = .next υ) : Keeps τ υ := by
  refine onActive_keeps h (fun hk => ?_)
  repeat' with_reducible (first
    | assumption | (intro _ _ _) | apply abortSwatch_keeps | apply ite_keeps | dsimp only)

theorem execExchangePlacement_keeps {x : Nat} (h : execExchangePlacement x τ = .next υ) : Keeps τ υ := by
  refine onActive_keeps h (fun hk => ?_)
  repeat' with_reducible (first
    | assumption | (intro _ _ _) | apply exchangePlacement_keeps | apply settleAll_keeps | apply ite_keeps | dsimp only)

theorem execExchangeSwatchAssemble_keeps {x : Nat} {d : Nat} {k : Nat} (h : execExchangeSwatchAssemble x d k τ = .next υ) : Keeps τ υ := by
  refine onActive_keeps h (fun hk => ?_)
  repeat' with_reducible (first
    | assumption | (intro _ _ _) | apply exchangeAssemble_keeps | apply settleAll_keeps | apply ite_keeps | dsimp only)

theorem execHostAbort_keeps {value : Nat} (h : execHostAbort value τ = .next υ) : Keeps τ υ := by
  refine onPowered_keeps h (fun hk => ?_)
  repeat' with_reducible (first
    | assumption | (intro _ _ _) | apply regWrite_keeps | apply ite_keeps | dsimp only)

theorem execFenceWrite_keeps {i : Nat} {value : Nat} (h : execFenceWrite i value τ = .next υ) : Keeps τ υ := by
  refine onPowered_keeps h (fun hk => ?_)
  repeat' with_reducible (first
    | assumption | (intro _ _ _) | apply regWrite_keeps | apply ite_keeps | dsimp only)

theorem execQueuePurge_keeps {p : Nat} (h : execQueuePurge p τ = .next υ) : Keeps τ υ := by
  refine onActive_keeps h (fun hk => ?_)
  repeat' with_reducible (first
    | assumption | (intro _ _ _) | apply mark_keeps | apply purgeOne_keeps | apply settleAll_keeps | apply ite_keeps
    | split | dsimp only)

theorem execLiveChangeGo_keeps {value : Nat} (h : execLiveChangeGo value τ = .next υ) : Keeps τ υ := by
  refine onPowered_keeps h (fun hk => ?_)
  repeat' with_reducible (first
    | assumption | (intro _ _ _) | apply regWrite_keeps | apply ite_keeps | dsimp only)

theorem execLiveChangeDrained_keeps (h : execLiveChangeDrained τ = .next υ) : Keeps τ υ := by
  refine onActive_keeps h (fun hk => ?_)
  repeat' with_reducible (first
    | assumption | (intro _ _ _) | apply changeSwitching_keeps | apply ite_keeps | dsimp only)

theorem execLiveChangeTimeout_keeps (h : execLiveChangeTimeout τ = .next υ) : Keeps τ υ := by
  refine onActive_keeps h (fun hk => ?_)
  repeat' with_reducible (first
    | assumption | (intro _ _ _) | apply changeTimeout_keeps | apply settleAll_keeps | apply ite_keeps | dsimp only)

theorem execShaperCfgWrite_keeps {p : Nat} {v : Nat} {value : Nat} (h : execShaperCfgWrite p v value τ = .next υ) : Keeps τ υ := by
  refine onPowered_keeps h (fun hk => ?_)
  repeat' with_reducible (first
    | assumption | (intro _ _ _) | apply regWrite_keeps | apply ite_keeps | dsimp only)

theorem execPolicerCfgWrite_keeps {p : Nat} {v : Nat} {value : Nat} (h : execPolicerCfgWrite p v value τ = .next υ) : Keeps τ υ := by
  refine onPowered_keeps h (fun hk => ?_)
  repeat' with_reducible (first
    | assumption | (intro _ _ _) | apply regWrite_keeps | apply ite_keeps | dsimp only)

theorem execMirrorCfgWrite_keeps {m : Nat} {value : Nat} (h : execMirrorCfgWrite m value τ = .next υ) : Keeps τ υ := by
  refine onPowered_keeps h (fun hk => ?_)
  repeat' with_reducible (first
    | assumption | (intro _ _ _) | apply regWrite_keeps | apply ite_keeps | dsimp only)

theorem execPrbsGeneratorSelect_keeps {p : Nat} {value : Nat} (h : execPrbsGeneratorSelect p value τ = .next υ) : Keeps τ υ := by
  refine onPowered_keeps h (fun hk => ?_)
  repeat' with_reducible (first
    | assumption | (intro _ _ _) | apply regWrite_keeps | apply ite_keeps | dsimp only)

theorem execPrbsCheckerSelect_keeps {p : Nat} {value : Nat} (h : execPrbsCheckerSelect p value τ = .next υ) : Keeps τ υ := by
  refine onPowered_keeps h (fun hk => ?_)
  repeat' with_reducible (first
    | assumption | (intro _ _ _) | apply regWrite_keeps | apply ite_keeps | dsimp only)

theorem execLoopbackSelect_keeps {p : Nat} {value : Nat} (h : execLoopbackSelect p value τ = .next υ) : Keeps τ υ := by
  refine onPowered_keeps h (fun hk => ?_)
  repeat' with_reducible (first
    | assumption | (intro _ _ _) | apply regWrite_keeps | apply ite_keeps | dsimp only)

theorem execTestEnd_keeps {p : Nat} (h : execTestEnd p τ = .next υ) : Keeps τ υ := by
  refine onPowered_keeps h (fun hk => ?_)
  repeat' with_reducible (first
    | assumption | (intro _ _ _) | apply regWrite_keeps | apply ite_keeps | dsimp only)

theorem execPortEnableWrite_keeps {p : Nat} {value : Nat} (h : execPortEnableWrite p value τ = .next υ) : Keeps τ υ := by
  refine onPowered_keeps h (fun hk => ?_)
  repeat' with_reducible (first
    | assumption | (intro _ _ _) | apply regWrite_keeps | apply ite_keeps | dsimp only)

theorem execRateChange_keeps {p : Nat} {value : Nat} (h : execRateChange p value τ = .next υ) : Keeps τ υ := by
  refine onPowered_keeps h (fun hk => ?_)
  repeat' with_reducible (first
    | assumption | (intro _ _ _) | apply regWrite_keeps | apply ite_keeps | dsimp only)

theorem execLaserEnableWrite_keeps {e : Nat} {value : Nat} (h : execLaserEnableWrite e value τ = .next υ) : Keeps τ υ := by
  refine onPowered_keeps h (fun hk => ?_)
  repeat' with_reducible (first
    | assumption | (intro _ _ _) | apply regWrite_keeps | apply ite_keeps | dsimp only)

theorem execTimeNowWrite_keeps {ns : Nat} (h : execTimeNowWrite ns τ = .next υ) : Keeps τ υ := by
  refine onPowered_keeps h (fun hk => ?_)
  repeat' with_reducible (first
    | assumption | (intro _ _ _) | apply regWrite_keeps | apply ite_keeps | dsimp only)

theorem execFaultClear_keeps {src : Nat} {raised : Bool} (h : execFaultClear src raised τ = .next υ) : Keeps τ υ := by
  refine onActive_keeps h (fun hk => ?_)
  repeat' with_reducible (first
    | assumption | (intro _ _ _) | apply clearPending_keeps | apply setHeld_keeps | apply ite_keeps | split
    | dsimp only)

theorem execMgtFaultClear_keeps {src : Nat} {force : Bool} {raised : Bool} (h : execMgtFaultClear src force raised τ = .next υ) : Keeps τ υ := by
  refine onActive_keeps h (fun hk => ?_)
  repeat' with_reducible (first
    | assumption | (intro _ _ _) | apply mgtClear_keeps | apply ite_keeps | dsimp only)

theorem execFaultPinForce_keeps {force : Bool} (h : execFaultPinForce force τ = .next υ) : Keeps τ υ := by
  refine onPowered_keeps h (fun hk => ?_)
  repeat' with_reducible (first
    | assumption | (intro _ _ _) | apply regWrite_keeps | apply ite_keeps | dsimp only)

theorem execFaultInject_keeps {src : Nat} (h : execFaultInject src τ = .next υ) : Keeps τ υ := by
  refine onPowered_keeps h (fun hk => ?_)
  repeat' with_reducible (first
    | assumption | (intro _ _ _) | apply regWrite_keeps | apply ite_keeps | dsimp only)

theorem execSafeStateSelfTest_keeps (h : execSafeStateSelfTest τ = .next υ) : Keeps τ υ := by
  refine onPowered_keeps h (fun hk => ?_)
  repeat' with_reducible (first
    | assumption | (intro _ _ _) | apply regWrite_keeps | apply ite_keeps | dsimp only)

theorem execFaultCfgWrite_keeps {src : Nat} {value : Nat} (h : execFaultCfgWrite src value τ = .next υ) : Keeps τ υ := by
  refine onPowered_keeps h (fun hk => ?_)
  repeat' with_reducible (first
    | assumption | (intro _ _ _) | apply regWrite_keeps | apply ite_keeps | dsimp only)

theorem execSoftwareTrigger_keeps {arg : Nat} (h : execSoftwareTrigger arg τ = .next υ) : Keeps τ υ := by
  refine onPowered_keeps h (fun hk => ?_)
  repeat' with_reducible (first
    | assumption | (intro _ _ _) | apply regWrite_keeps | apply ite_keeps | dsimp only)

theorem execRingRecordSelect_keeps {seq : Nat} (h : execRingRecordSelect seq τ = .next υ) : Keeps τ υ := by
  refine onPowered_keeps h (fun hk => ?_)
  repeat' with_reducible (first
    | assumption | (intro _ _ _) | apply regWrite_keeps | apply ite_keeps | dsimp only)

theorem execDomainOffWrite_keeps {host : Bool} {i : Nat} {value : Nat} (h : execDomainOffWrite host i value τ = .next υ) : Keeps τ υ := by
  refine onPowered_keeps h (fun hk => ?_)
  repeat' with_reducible (first
    | assumption | (intro _ _ _) | apply regWrite_keeps | apply ite_keeps | split | dsimp only)

theorem execDomainPowerOff_keeps {d : Nat} (h : execDomainPowerOff d τ = .next υ) : Keeps τ υ := by
  refine onPowered_keeps h (fun hk => ?_)
  repeat' with_reducible (first
    | assumption | (intro _ _ _) | apply domainOff_keeps | apply settleAll_keeps | apply ite_keeps | dsimp only)

theorem execDomainPowerOn_keeps (h : execDomainPowerOn τ = .next υ) : Keeps τ υ := by
  refine onPowered_keeps h (fun hk => ?_)
  repeat' with_reducible (first
    | assumption | (intro _ _ _) | apply domainOnNext_keeps | apply ite_keeps | dsimp only)

theorem execPwrGoodRise_keeps {volts : Nat} (h : execPwrGoodRise volts τ = .next υ) : Keeps τ υ := by
  refine onAlways_keeps h (fun hk => ?_)
  repeat' with_reducible (first
    | assumption | (intro _ _ _) | apply powerGoodRise_keeps | apply ite_keeps | dsimp only)

theorem execPwrGoodFall_keeps (h : execPwrGoodFall τ = .next υ) : Keeps τ υ := by
  refine onAlways_keeps h (fun hk => ?_)
  repeat' with_reducible (first
    | assumption | (intro _ _ _) | apply powerGoodFall_keeps | apply ite_keeps | dsimp only)

theorem execInputShutdown_keeps (h : execInputShutdown τ = .next υ) : Keeps τ υ := by
  refine onAlways_keeps h (fun hk => ?_)
  repeat' with_reducible (first
    | assumption | (intro _ _ _) | apply inputShutdown_keeps | apply ite_keeps | dsimp only)

theorem execInputSample_keeps {volts : Nat} {amps : Nat} (h : execInputSample volts amps τ = .next υ) : Keeps τ υ := by
  refine onPowered_keeps h (fun hk => ?_)
  repeat' with_reducible (first
    | assumption | (intro _ _ _) | apply inputSample_keeps | apply ite_keeps | dsimp only)

theorem execRailFault_keeps {stop : Nat} {rail : Nat} (h : execRailFault stop rail τ = .next υ) : Keeps τ υ := by
  refine onPowered_keeps h (fun hk => ?_)
  repeat' with_reducible (first
    | assumption | (intro _ _ _) | apply railFault_keeps | apply ite_keeps | dsimp only)

theorem execResetN_keeps (h : execResetN τ = .next υ) : Keeps τ υ := by
  refine onAlways_keeps h (fun hk => ?_)
  repeat' with_reducible (first
    | assumption | (intro _ _ _) | apply resetLow_keeps | apply ite_keeps | dsimp only)

theorem execThermalSample_keeps {temps : List Nat} (h : execThermalSample temps τ = .next υ) : Keeps τ υ := by
  refine onPowered_keeps h (fun hk => ?_)
  repeat' with_reducible (first
    | assumption | (intro _ _ _) | apply thermalSample_keeps | apply ite_keeps | dsimp only)

theorem execPllLockChange_keeps {locked : Bool} (h : execPllLockChange locked τ = .next υ) : Keeps τ υ := by
  refine onPowered_keeps h (fun hk => ?_)
  repeat' with_reducible (first
    | assumption | (intro _ _ _) | apply pllLock_keeps | apply ite_keeps | dsimp only)

theorem execInputStartThreshold_keeps (h : execInputStartThreshold τ = .next υ) : Keeps τ υ := by
  refine onAlways_keeps h (fun hk => ?_)
  repeat' with_reducible (first
    | assumption | (intro _ _ _) | apply startThreshold_keeps | apply ite_keeps | dsimp only)

theorem execResetNRelease_keeps {board : Nat} (h : execResetNRelease board τ = .next υ) : Keeps τ υ := by
  refine onAlways_keeps h (fun hk => ?_)
  repeat' with_reducible (first
    | assumption | (intro _ _ _) | apply resetRelease_keeps | apply ite_keeps | dsimp only)

theorem execDomainPowered_keeps {d : Nat} (h : execDomainPowered d τ = .next υ) : Keeps τ υ := by
  refine onPowered_keeps h (fun hk => ?_)
  repeat' with_reducible (first
    | assumption | (intro _ _ _) | apply domainPowered_keeps | apply ite_keeps | dsimp only)

theorem execRingRecordReady_keeps (h : execRingRecordReady τ = .next υ) : Keeps τ υ := by
  refine onPowered_keeps h (fun hk => ?_)
  repeat' with_reducible (first
    | assumption | (intro _ _ _) | apply ringReady_keeps | apply ite_keeps | dsimp only)

theorem execSnapshotStart_keeps (h : execSnapshotStart τ = .next υ) : Keeps τ υ := by
  refine onPowered_keeps h (fun hk => ?_)
  repeat' with_reducible (first
    | assumption | (intro _ _ _) | apply snapshotStart_keeps | apply ite_keeps | dsimp only)

theorem execSnapshotReadTimeout_keeps {i : Nat} (h : execSnapshotReadTimeout i τ = .next υ) : Keeps τ υ := by
  refine onPowered_keeps h (fun hk => ?_)
  repeat' with_reducible (first
    | assumption | (intro _ _ _) | apply snapshotReadTimeout_keeps | apply ite_keeps | dsimp only)

theorem execSnapshotComplete_keeps (h : execSnapshotComplete τ = .next υ) : Keeps τ υ := by
  refine onPowered_keeps h (fun hk => ?_)
  repeat' with_reducible (first
    | assumption | (intro _ _ _) | apply snapshotComplete_keeps | apply ite_keeps | dsimp only)

theorem execPeriodicTrigger_keeps (h : execPeriodicTrigger τ = .next υ) : Keeps τ υ := by
  refine onPowered_keeps h (fun hk => ?_)
  repeat' with_reducible (first
    | assumption | (intro _ _ _) | apply periodicTrigger_keeps | apply ite_keeps | dsimp only)

theorem execRingCopyBatch_keeps {corrected : Nat} {bad : List (Nat × Nat)} (h : execRingCopyBatch corrected bad τ = .next υ) : Keeps τ υ := by
  refine onActive_keeps h (fun hk => ?_)
  repeat' with_reducible (first
    | assumption | (intro _ _ _) | apply ringCopyBatch_keeps | apply ite_keeps | dsimp only)

theorem execOperatingSecond_keeps (h : execOperatingSecond τ = .next υ) : Keeps τ υ := by
  refine onAlways_keeps h (fun hk => ?_)
  repeat' with_reducible (first
    | assumption | (intro _ _ _) | apply operatingSecond_keeps | apply ite_keeps | dsimp only)

theorem execPersistenceWrite_keeps (h : execPersistenceWrite τ = .next υ) : Keeps τ υ := by
  refine onPowered_keeps h (fun hk => ?_)
  repeat' with_reducible (first
    | assumption | (intro _ _ _) | apply persistenceWrite_keeps | apply ite_keeps | dsimp only)

theorem execRegisterWrite_keeps {cls : PortClass} {addr : Nat} {width : Nat} {value : Nat} (h : execRegisterWrite cls addr width value τ = .next υ) : Keeps τ υ := by
  refine onPowered_keeps h (fun hk => ?_)
  repeat' with_reducible (first
    | assumption | (intro _ _ _) | apply busWrite_keeps | apply ite_keeps | dsimp only)

theorem execRcRegisterRead_keeps {cls : PortClass} {addr : Nat} {width : Nat} (h : execRcRegisterRead cls addr width τ = .next υ) : Keeps τ υ := by
  refine onPowered_keeps h (fun hk => ?_)
  repeat' with_reducible (first
    | assumption | (intro _ _ _) | apply busRead_keeps | apply ite_keeps | dsimp only)

theorem execLowWordRead_keeps {cls : PortClass} {addr : Nat} (h : execLowWordRead cls addr τ = .next υ) : Keeps τ υ := by
  refine onPowered_keeps h (fun hk => ?_)
  repeat' with_reducible (first
    | assumption | (intro _ _ _) | apply busRead_keeps | apply ite_keeps | dsimp only)

theorem execHighWordRead_keeps {cls : PortClass} {addr : Nat} (h : execHighWordRead cls addr τ = .next υ) : Keeps τ υ := by
  refine onPowered_keeps h (fun hk => ?_)
  repeat' with_reducible (first
    | assumption | (intro _ _ _) | apply busRead_keeps | apply ite_keeps | dsimp only)

theorem execLowWordWrite_keeps {cls : PortClass} {addr : Nat} {value : Nat} (h : execLowWordWrite cls addr value τ = .next υ) : Keeps τ υ := by
  refine onPowered_keeps h (fun hk => ?_)
  repeat' with_reducible (first
    | assumption | (intro _ _ _) | apply busWrite_keeps | apply ite_keeps | dsimp only)

theorem execHighWordWrite_keeps {cls : PortClass} {addr : Nat} {value : Nat} (h : execHighWordWrite cls addr value τ = .next υ) : Keeps τ υ := by
  refine onPowered_keeps h (fun hk => ?_)
  repeat' with_reducible (first
    | assumption | (intro _ _ _) | apply busWrite_keeps | apply ite_keeps | dsimp only)

theorem execSplit64BitAccess_keeps {cls : PortClass} {addr : Nat} {value : Option Nat} (h : execSplit64BitAccess cls addr value τ = .next υ) : Keeps τ υ := by
  refine onPowered_keeps h (fun hk => ?_)
  repeat' with_reducible (first
    | assumption | (intro _ _ _) | apply busRead_keeps | apply busWrite_keeps | apply ite_keeps | simp only [keeps_mk]
    | apply Keeps.parts | split | dsimp only)

theorem execRingPacketArrive_keeps {ring : Ring} {stop : Nat} {packet : RingPacket} {full : Bool} (h : execRingPacketArrive ring stop packet full τ = .next υ) : Keeps τ υ := by
  refine onPowered_keeps h (fun hk => ?_)
  repeat' with_reducible (first
    | assumption | (intro _ _ _) | apply packetArrive_keeps | apply ite_keeps | dsimp only)

theorem execRingLinkFail_keeps {ring : Ring} {stop : Nat} {msgs : List (Nat × Nat)} {packets : List RingPacket} (h : execRingLinkFail ring stop msgs packets τ = .next υ) : Keeps τ υ := by
  refine onPowered_keeps h (fun hk => ?_)
  repeat' with_reducible (first
    | assumption | (intro _ _ _) | apply ringFail_keeps | apply ite_keeps | dsimp only)

theorem execRingAccessTimeout_keeps {addr : Nat} {write : Bool} (h : execRingAccessTimeout addr write τ = .next υ) : Keeps τ υ := by
  refine onPowered_keeps h (fun hk => ?_)
  repeat' with_reducible (first
    | assumption | (intro _ _ _) | apply accessLost_keeps | apply ite_keeps | dsimp only)

theorem execRingLinkRestore_keeps {ring : Ring} {stop : Nat} (h : execRingLinkRestore ring stop τ = .next υ) : Keeps τ υ := by
  refine onPowered_keeps h (fun hk => ?_)
  repeat' with_reducible (first
    | assumption | (intro _ _ _) | apply ringRestore_keeps | apply ite_keeps | dsimp only)

theorem execEpochCutEnd_keeps {t : Nat} (h : execEpochCutEnd t τ = .next υ) : Keeps τ υ := by
  refine onActive_keeps h (fun hk => ?_)
  repeat' with_reducible (first
    | assumption | (intro _ _ _) | apply cutEnd_keeps | apply settleAll_keeps | apply ite_keeps | dsimp only)

theorem execEpochCutTimeout_keeps {t : Nat} (h : execEpochCutTimeout t τ = .next υ) : Keeps τ υ := by
  refine onActive_keeps h (fun hk => ?_)
  repeat' with_reducible (first
    | assumption | (intro _ _ _) | apply cutTimeout_keeps | apply settleAll_keeps | apply ite_keeps | dsimp only)

theorem execEpochSecured_keeps {t : Nat} {bad : Option Nat} (h : execEpochSecured t bad τ = .next υ) : Keeps τ υ := by
  refine onActive_keeps h (fun hk => ?_)
  repeat' with_reducible (first
    | assumption | (intro _ _ _) | apply epochSecured_keeps | apply settleAll_keeps | apply ite_keeps | dsimp only)

theorem execEpochClose_keeps {t : Nat} (h : execEpochClose t τ = .next υ) : Keeps τ υ := by
  refine onActive_keeps h (fun hk => ?_)
  repeat' with_reducible (first
    | assumption | (intro _ _ _) | apply epochClose_keeps | apply settleAll_keeps | apply ite_keeps | dsimp only)

theorem execTierWriteFail_keeps {t : Nat} {i : Nat} {acked : Nat} (h : execTierWriteFail t i acked τ = .next υ) : Keeps τ υ := by
  refine onActive_keeps h (fun hk => ?_)
  repeat' with_reducible (first
    | assumption | (intro _ _ _) | apply tierWriteFail_keeps | apply ite_keeps | dsimp only)

theorem execLichenUpdate_keeps (h : execLichenUpdate τ = .next υ) : Keeps τ υ := by
  refine onActive_keeps h (fun hk => ?_)
  repeat' with_reducible (first
    | assumption | (intro _ _ _) | apply lichenUpdate_keeps | apply ite_keeps | dsimp only)

theorem execCadenceUpdate_keeps (h : execCadenceUpdate τ = .next υ) : Keeps τ υ := by
  refine onActive_keeps h (fun hk => ?_)
  repeat' with_reducible (first
    | assumption | (intro _ _ _) | apply cadenceUpdate_keeps | apply ite_keeps | dsimp only)

theorem execMemberFailed_keeps {p : Nat} (h : execMemberFailed p τ = .next υ) : Keeps τ υ := by
  refine onActive_keeps h (fun hk => ?_)
  repeat' with_reducible (first
    | assumption | (intro _ _ _) | apply memberFailed_keeps | apply settleAll_keeps | apply ite_keeps | dsimp only)

theorem execRegrowthStart_keeps {t : Nat} {g : Nat} (h : execRegrowthStart t g τ = .next υ) : Keeps τ υ := by
  refine onActive_keeps h (fun hk => ?_)
  repeat' with_reducible (first
    | assumption | (intro _ _ _) | apply regrowthStart_keeps | apply settleAll_keeps | apply ite_keeps | dsimp only)

theorem execRollback_keeps {t : Nat} {gddrBad : Option Nat} (h : execRollback t gddrBad τ = .next υ) : Keeps τ υ := by
  refine onActive_keeps h (fun hk => ?_)
  repeat' with_reducible (first
    | assumption | (intro _ _ _) | apply rollback_keeps | apply settleAll_keeps | apply ite_keeps | dsimp only)

theorem execRestoreStart_keeps {t : Nat} (h : execRestoreStart t τ = .next υ) : Keeps τ υ := by
  refine onActive_keeps h (fun hk => ?_)
  repeat' with_reducible (first
    | assumption | (intro _ _ _) | apply restoreStart_keeps | apply settleAll_keeps | apply ite_keeps | dsimp only)

theorem execShardReadComplete_keeps {t : Nat} {g : Nat} {i : Nat} {poison : Option Nat} (h : execShardReadComplete t g i poison τ = .next υ) : Keeps τ υ := by
  refine onActive_keeps h (fun hk => ?_)
  repeat' with_reducible (first
    | assumption | (intro _ _ _) | apply settleAll_keeps | apply shardRead_keeps | apply ite_keeps | dsimp only)

theorem execRoundStart_keeps (h : execRoundStart τ = .next υ) : Keeps τ υ := by
  refine onPowered_keeps h (fun hk => ?_)
  repeat' with_reducible (first
    | assumption | (intro _ _ _) | apply roundStartAll_keeps | apply roundStartOp_keeps | apply ite_keeps | split
    | dsimp only)

theorem execSchedFrameStart_keeps {p : Nat} {bad : Option Nat} (h : execSchedFrameStart p bad τ = .next υ) : Keeps τ υ := by
  refine onActive_keeps h (fun hk => ?_)
  repeat' with_reducible (first
    | assumption | (intro _ _ _) | apply schedFrame_keeps | apply ite_keeps | dsimp only)

theorem execOppFrameStart_keeps {p : Nat} (h : execOppFrameStart p τ = .next υ) : Keeps τ υ := by
  refine onActive_keeps h (fun hk => ?_)
  repeat' with_reducible (first
    | assumption | (intro _ _ _) | apply oppStart_keeps | apply ite_keeps | dsimp only)

theorem execTokenRefill_keeps {die : Nat} (h : execTokenRefill die τ = .next υ) : Keeps τ υ := by
  refine onActive_keeps h (fun hk => ?_)
  repeat' with_reducible (first
    | assumption | (intro _ _ _) | apply refillDie_keeps | apply ite_keeps | dsimp only)

theorem execFrameDeparture_keeps {p : Nat} (h : execFrameDeparture p τ = .next υ) : Keeps τ υ := by
  refine onActive_keeps h (fun hk => ?_)
  repeat' with_reducible (first
    | assumption | (intro _ _ _) | apply departOp_keeps | apply settleAll_keeps | apply ite_keeps | dsimp only)

theorem execIngressLanding_keeps {p : Nat} (h : execIngressLanding p τ = .next υ) : Keeps τ υ := by
  refine onActive_keeps h (fun hk => ?_)
  repeat' with_reducible (first
    | assumption | (intro _ _ _) | apply landOp_keeps | apply ite_keeps | dsimp only)

theorem execSwatchPointerHandoff_keeps (h : execSwatchPointerHandoff τ = .next υ) : Keeps τ υ := by
  refine onActive_keeps h (fun hk => ?_)
  repeat' with_reducible (first
    | assumption | (intro _ _ _) | apply handoff_keeps | apply ite_keeps | dsimp only)

theorem execResequence_keeps {die : Nat} (h : execResequence die τ = .next υ) : Keeps τ υ := by
  refine onActive_keeps h (fun hk => ?_)
  repeat' with_reducible (first
    | assumption | (intro _ _ _) | apply resequence_keeps | apply ite_keeps | dsimp only)

theorem execHeldSwatchRelease_keeps {die : Nat} (h : execHeldSwatchRelease die τ = .next υ) : Keeps τ υ := by
  refine onActive_keeps h (fun hk => ?_)
  repeat' with_reducible (first
    | assumption | (intro _ _ _) | apply releaseHeld_keeps | apply ite_keeps | dsimp only)

theorem execMatchRound_keeps (h : execMatchRound τ = .next υ) : Keeps τ υ := by
  refine onActive_keeps h (fun hk => ?_)
  repeat' with_reducible (first
    | assumption | (intro _ _ _) | apply matchRound_keeps | apply ite_keeps | dsimp only)

theorem execOppCellsRead_keeps {p : Nat} {bad : Option Nat} (h : execOppCellsRead p bad τ = .next υ) : Keeps τ υ := by
  refine onActive_keeps h (fun hk => ?_)
  repeat' with_reducible (first
    | assumption | (intro _ _ _) | apply oppCells_keeps | apply settleAll_keeps | apply ite_keeps | dsimp only)

theorem execInsoleScrub_keeps {corrected : Nat} {bad : Option Nat} (h : execInsoleScrub corrected bad τ = .next υ) : Keeps τ υ := by
  refine onActive_keeps h (fun hk => ?_)
  repeat' with_reducible (first
    | assumption | (intro _ _ _) | apply scrub_keeps | apply settleAll_keeps | apply ite_keeps | dsimp only)

theorem execBufferAlloc_keeps {k : Nat} {corrected : Nat} {lost : Option Nat} {stuck : Bool} (h : execBufferAlloc k corrected lost stuck τ = .next υ) : Keeps τ υ := by
  refine onActive_keeps h (fun hk => ?_)
  repeat' with_reducible (first
    | assumption | (intro _ _ _) | apply allocServe_keeps | apply settleAll_keeps | apply tagErrors_keeps | apply ite_keeps
    | dsimp only)

theorem execAllocWaitExpiry_keeps {k : Nat} (h : execAllocWaitExpiry k τ = .next υ) : Keeps τ υ := by
  refine onActive_keeps h (fun hk => ?_)
  repeat' with_reducible (first
    | assumption | (intro _ _ _) | apply allocExpire_keeps | apply settleAll_keeps | apply ite_keeps | dsimp only)

theorem execBufferFree_keeps {ptr : Nat} {account : Nat} {requester : Nat} {corrected : Nat} {lost : Option Nat} {stuck : Bool} (h : execBufferFree ptr account requester corrected lost stuck τ = .next υ) : Keeps τ υ := by
  refine onActive_keeps h (fun hk => ?_)
  repeat' with_reducible (first
    | assumption | (intro _ _ _) | apply freeObj_keeps | apply tagErrors_keeps | apply ite_keeps | dsimp only)

theorem execMirrorFenceDiscard_keeps {p : Nat} (h : execMirrorFenceDiscard p τ = .next υ) : Keeps τ υ := by
  refine onActive_keeps h (fun hk => ?_)
  repeat' with_reducible (first
    | assumption | (intro _ _ _) | apply mirrorPurge_keeps | apply ite_keeps | dsimp only)

theorem execTimeBlock_keeps {p : Nat} {rx : Nat} (h : execTimeBlock p rx τ = .next υ) : Keeps τ υ := by
  refine onActive_keeps h (fun hk => ?_)
  repeat' with_reducible (first
    | assumption | (intro _ _ _) | apply timeBlock_keeps | apply ite_keeps | dsimp only)

theorem execSyncSend_keeps {p : Nat} (h : execSyncSend p τ = .next υ) : Keeps τ υ := by
  refine onActive_keeps h (fun hk => ?_)
  repeat' with_reducible (first
    | assumption | (intro _ _ _) | apply syncSend_keeps | apply ite_keeps | dsimp only)

theorem execPdelayReqSend_keeps {p : Nat} (h : execPdelayReqSend p τ = .next υ) : Keeps τ υ := by
  refine onActive_keeps h (fun hk => ?_)
  repeat' with_reducible (first
    | assumption | (intro _ _ _) | apply pdelaySend_keeps | apply ite_keeps | dsimp only)

theorem execSyncLossTimeout_keeps (h : execSyncLossTimeout τ = .next υ) : Keeps τ υ := by
  refine onPowered_keeps h (fun hk => ?_)
  repeat' with_reducible (first
    | assumption | (intro _ _ _) | apply syncLoss_keeps | apply ite_keeps | dsimp only)

theorem execIdentSend_keeps {p : Nat} (h : execIdentSend p τ = .next υ) : Keeps τ υ := by
  refine onActive_keeps h (fun hk => ?_)
  repeat' with_reducible (first
    | assumption | (intro _ _ _) | apply identSend_keeps | apply ite_keeps | dsimp only)

theorem execIdentBlock_keeps {p : Nat} (h : execIdentBlock p τ = .next υ) : Keeps τ υ := by
  refine onActive_keeps h (fun hk => ?_)
  repeat' with_reducible (first
    | assumption | (intro _ _ _) | apply identBlock_keeps | apply ite_keeps | dsimp only)

theorem execNegotiationTimeout_keeps {p : Nat} (h : execNegotiationTimeout p τ = .next υ) : Keeps τ υ := by
  refine onActive_keeps h (fun hk => ?_)
  repeat' with_reducible (first
    | assumption | (intro _ _ _) | apply negotiationTimeout_keeps | apply ite_keeps | dsimp only)

end Sys2Proof.Machine
end

