-- ==== Sys2Proof/Machine/Welt.lean ====
section
/-!
DEFINITION. Welt memory as its banks hold it: which elements a lane takes in a cycle of a node, and where its result
words lie (R64, R65, R71, R176). The words are those of the chunks' slots; their check bits are the storage's own.
-/

namespace Sys2Proof.Machine

/-- R61: elements of a context, or bytes under OR and GF, that a lane takes in a cycle. -/
def State.laneWidth (s : State) (x : Nat) : Nat :=
  if s.operator x = oGf then 8 else if s.operator x = oOr then 16 else if s.inFmt x = fFP64 then 2 else 4

/-- R65: the elements that lane l takes in cycle j of a node, `per` in a cycle. -/
def laneItems (per j l : Nat) : List Nat := (List.range per).map (64 * per * j + per * l + ·)

/-- R65: what lane l has written of a node's result, cycle by cycle. -/
def State.laneBytes (s : State) (x l : Nat) (res : List Elem) : List Byte :=
  (List.range (ceilDiv res.length (64 * s.laneWidth x))).flatMap (fun j =>
    partialBytes (s.slotCode x) ((laneItems (s.laneWidth x) j l).filterMap (fun i => res[i]?)))

/-- R71, R176: the granules of cluster k's welt memory with data in bank l: the granule, and its bytes there, 64 at
most. -/
def State.weltBank (s : State) (k l : Nat) : List (Nat × List Byte) :=
  (s.allChunks.filter (fun (_, _, ch) => (ch.place == some .welt || ch.place == some .borrowed) && ch.cluster == k)).flatMap
    (fun (x, _, ch) => ch.slots.flatMap (fun (q, res) =>
      let n := s.slotSize x / 4096
      let g := (ch.grans.drop (ch.slotOf q * n)).take n
      g.zipIdx.map (fun p => (p.1, ((s.laneBytes x l res).drop (64 * p.2)).take 64))))

end Sys2Proof.Machine
end

