-- ==== Sys2Proof/Tests/Slice0.lean ====
section
/-!
SUPPORT. Tests: which operands are refused, small checks against the spec's own examples, and for every statement with
hypotheses a state and operands that meet all of them.
-/

namespace Sys2Proof.Tests

open Sys2Proof Sys2Proof.Machine

set_option maxRecDepth 20000
set_option Elab.async false

/-! Operands out of their ranges are refused, and operands in them are not. -/

theorem smoke_illFormed_0 : ([.registerWrite .host (2 ^ 28) 32 0, .registerWrite .host 2 32 0, .registerWrite .host 0 16 0, .rcRegisterRead
      .host (2 ^ 28) 32, .rcRegisterRead .host 2 32, .rcRegisterRead .host 0 16, .lowWordRead .host (2 ^ 28),
      .lowWordRead .host 2, .highWordRead .host (2 ^ 28), .highWordRead .host 2, .lowWordWrite .host (2 ^ 28) 0,
      .lowWordWrite .host 2 0, .highWordWrite .host (2 ^ 28) 0, .highWordWrite .host 2 0, .split64BitAccess .host (2 ^
      28) none, .split64BitAccess .host 2 none, .ringPacketArrive .cw 24 default false, .ringLinkFail .cw 24 [] [],
      .ringAccessTimeout (2 ^ 28) false, .ringAccessTimeout 2 false] : List Instr).all (fun c => !c.wf) = true := by decide

theorem smoke_illFormed_1 : ([.fenceWrite 4 0, .queuePurge 256, .shaperCfgWrite 256 0 0, .shaperCfgWrite 0 8 0, .policerCfgWrite 256 0 0,
      .policerCfgWrite 0 8 0, .mirrorCfgWrite 8 0, .prbsGeneratorSelect 256 0, .prbsCheckerSelect 256 0,
      .loopbackSelect 256 0, .testEnd 256, .portEnableWrite 256 0, .rateChange 256 0, .laserEnableWrite 16 0,
      .faultClear 128 false, .mgtFaultClear 128 false false, .faultInject 128, .faultCfgWrite 128 0, .domainOffWrite
      false 7 0, .domainPowerOff 412] : List Instr).all (fun c => !c.wf) = true := by decide

theorem smoke_illFormed_2 : ([.planLoad 8 ((.failed 0)), .planAcceptDegraded 8, .planRetire 8, .remap 8, .memberReplace 8, .memberReplaceTimeout
      8, .memRead 8 0 none, .memWrite 8 [] none, .attest 8 false, .identRead 8 false, .imageWrite 8 [] false,
      .svnCommit 8, .debugTokenSet 8, .mbxAbort 8 0, .mbxAbort 0 256, .longOperationEnd 8 none, .mgtRead (2 ^ 48) 0 0
      0 false, .mgtRead 0 65536 0 0 false, .mgtWrite (2 ^ 48) 0 0 0 0 false, .mgtWrite 0 65536 0 0 0 false] : List Instr).all (fun c => !c.wf) = true := by decide

theorem smoke_illFormed_3 : ([.mgtReset (2 ^ 48) 0, .mgtReset 0 65536, .debugOpen (2 ^ 48) 0 [] false none, .debugOpen 0 65536 [] false none,
      .mgtDuplicate (2 ^ 48) 0, .mgtDuplicate 0 65536, .levelConditionChange 128 0 false, .levelConditionChange 0 48
      false, .intHoldoffEnd 4, .snapshotReadTimeout 32, .inputSample 65536 0, .inputSample 0 65536, .railFault 24 0,
      .railFault 0 256, .thermalSample [0], .laserSample 16 false false, .laserMonitorRead 16 0 [] [], .laneCommaBlock
      256 0 none, .laneCommaBlock 0 4 none, .lossOfSignal 256 0] : List Instr).all (fun c => !c.wf) = true := by decide

theorem smoke_illFormed_4 : ([.lossOfSignal 0 4, .codewordDecode 256 0 default, .codewordDecode 0 4 default, .laneDeskew 256 [], .portDown 256,
      .dataBlock 256 0 [] false, .dataBlock 0 4 [] false, .frameReceive 256 none, .controlBlock 256 [] false,
      .flowBlock 256, .xoffStateChange 256, .flowSend 256, .fcStall 256 0, .fcStall 0 8, .timeBlock 256 0, .syncSend
      256, .pdelayReqSend 256, .identSend 256, .identBlock 256, .negotiationTimeout 256] : List Instr).all (fun c => !c.wf) = true := by decide

theorem smoke_illFormed_5 : ([.schedFrameStart 256 none, .oppFrameStart 256, .tokenRefill 8, .frameDeparture 256, .ingressLanding 256,
      .resequence 8, .heldSwatchRelease 8, .oppCellsRead 256 none, .bufferFree (2 ^ 32) 0 0 0 none false, .bufferFree
      0 20 0 0 none false, .bufferFree 0 0 17 0 none false, .mirrorFenceDiscard 256, .progressTimeout 65536,
      .admissionDecide 416 0, .admissionDecide 0 16, .freezeDieStop 16 0, .freezeDieStop 0 4, .holdEnter 16,
      .operandFetchRequest 65536 0, .operandArrive 65536 0 0 none] : List Instr).all (fun c => !c.wf) = true := by decide

theorem smoke_illFormed_6 : ([.nodeIssue 416, .checkVerdict 0 65536 0 0 0 none 0 0, .checkVerdict 416 0 0 0 0 none 0 0, .chunkCommit 65536 0,
      .numRecordArrive 65536 0 false, .coreDieLoss 4, .monitorInputsRead 4, .shadowCheckComplete 4,
      .spillFetchComplete 65536 0 0 none, .spillWritebackComplete 65536 0 0, .exchangePlacement 65536,
      .exchangeSwatchAssemble 65536 0 0, .epochCutEnd 16, .epochCutTimeout 16, .epochSecured 16 none, .epochClose 16,
      .tierWriteFail 16 0 0, .tierWriteFail 0 2 0, .memberFailed 256, .regrowthStart 16 0] : List Instr).all (fun c => !c.wf) = true := by decide

theorem smoke_illFormed_7 : ([.regrowthStart 0 32, .rollback 16 none, .restoreStart 16, .gddrCrcRetry 16 0 0 none, .gddrChannelFail 16,
      .cxlLinkDown 2, .cxlLinkUp 2 0 0 0, .cxlLinkUp 0 16 0 0, .cxlLinkUp 0 0 16 0, .hostLinkUp 16 0, .hostLinkUp 0
      16, .resetNRelease 2048, .prbsCheckerLock 256 0 [], .prbsCheckerLock 0 4 [], .ringLinkRestore .cw 24,
      .domainPowered 412, .shardReadComplete 16 0 0 none, .shardReadComplete 0 32 0 none] : List Instr).all (fun c => !c.wf) = true := by decide

theorem smoke_wellFormed_0 : ([.registerWrite .host 0 32 0, .rcRegisterRead .host 0 32, .lowWordRead .host 0, .highWordRead .host 0,
      .lowWordWrite .host 0 0, .highWordWrite .host 0 0, .split64BitAccess .host 0 none, .ringPacketArrive .cw 0
      default false, .ringLinkFail .cw 0 [] [], .ringAccessTimeout 0 false, .hostAbort 0, .fenceWrite 0 0, .queuePurge
      0, .liveChangeGo 0, .liveChangeDrained, .liveChangeTimeout, .shaperCfgWrite 0 0 0, .policerCfgWrite 0 0 0,
      .mirrorCfgWrite 0 0, .prbsGeneratorSelect 0 0, .prbsCheckerSelect 0 0, .loopbackSelect 0 0, .testEnd 0,
      .portEnableWrite 0 0, .rateChange 0 0, .laserEnableWrite 0 0, .timeNowWrite 0, .faultClear 0 false,
      .mgtFaultClear 0 false false, .faultPinForce false] : List Instr).all (fun c => c.wf) = true := by decide

theorem smoke_wellFormed_1 : ([.faultInject 0, .safeStateSelfTest, .faultCfgWrite 0 0, .softwareTrigger 0, .ringRecordSelect 0, .ringRecordReady,
      .domainOffWrite false 0 0, .domainPowerOff 0, .domainPowerOn, .mbxCommandIssue 0 0, .planLoad 0 (.failed 0),
      .planCheck, .planAcceptDegraded 0, .planRetire 0, .planRetired, .remap 0, .memberReplace 0,
      .memberReplaceTimeout 0, .memRead 0 0 none, .memWrite 0 [] none, .attest 0 false, .identRead 0 false,
      .imageWrite 0 [] false, .svnCommit 0, .debugTokenSet 0, .mbxAbort 0 0, .longOperationEnd 0 none, .hostLinkDown
      false, .mgtRead 0 0 0 0 false, .mgtWrite 0 0 0 0 0 false] : List Instr).all (fun c => c.wf) = true := by decide

theorem smoke_wellFormed_2 : ([.mgtReset 0 0, .debugOpen 0 0 [] false none, .mgtFrameIgnored .bad, .mgtDuplicate 0 0, .faultMessage .cw,
      .faultRaise, .levelConditionChange 0 0 false, .intHoldoffEnd 0, .chipResetReaction, .faultNoticeRepeat,
      .mgtWatchdogExpiry, .collectorSweep 0 none, .safeState 0 0, .snapshotStart, .snapshotReadTimeout 0,
      .snapshotComplete, .periodicTrigger, .ringCopyBatch 0 [], .operatingSecond, .persistenceWrite, .pwrGoodRise 0,
      .pwrGoodFall, .inputShutdown, .inputSample 0 0, .railFault 0 0, .resetN, .pllLockChange false, .bootRom,
      .bootNvmRead 0 0 0, .bootVerify false false false false] : List Instr).all (fun c => c.wf) = true := by decide

theorem smoke_wellFormed_3 : ([.bootConfig 0 [], .bootMemory 0, .bootLinks, .bootFail 0, .laserSample 0 false false, .laserMonitorRead 0 0 [] [],
      .laneCommaBlock 0 0 none, .lossOfSignal 0 0, .codewordDecode 0 0 default, .laneDeskew 0 [], .portDown 0,
      .dataBlock 0 0 [] false, .frameReceive 0 none, .controlBlock 0 [] false, .flowBlock 0, .xoffStateChange 0,
      .flowSend 0, .fcStall 0 0, .fecTrendSecond, .timeBlock 0 0, .syncSend 0, .pdelayReqSend 0, .syncLossTimeout,
      .identSend 0, .identBlock 0, .negotiationTimeout 0, .roundStart, .schedFrameStart 0 none, .oppFrameStart 0,
      .tokenRefill 0] : List Instr).all (fun c => c.wf) = true := by decide

theorem smoke_wellFormed_4 : ([.frameDeparture 0, .ingressLanding 0, .swatchPointerHandoff, .resequence 0, .heldSwatchRelease 0, .matchRound,
      .oppCellsRead 0 none, .insoleScrub 0 none, .bufferAlloc 0 0 none false, .allocWaitExpiry 0, .bufferFree 0 0 0 0
      none false, .mirrorFenceDiscard 0, .descriptorArrival, .swatchAccept, .progressTimeout 0, .abortSwatch,
      .admissionDecide 0 0, .freezeDieStop 0 0, .holdEnter 0, .spineHoldReceive, .operandFetchRequest 0 0,
      .operandArrive 0 0 0 none, .nodeIssue 0, .checkVerdict 0 0 0 0 0 none 0 0, .chunkCommit 0 0, .numRecordArrive 0
      0 false, .spareSelfTestStart, .spareSelfTestEnd false, .coreDieLoss 0, .monitorInputsRead 0] : List Instr).all (fun c => c.wf) = true := by decide

theorem smoke_wellFormed_5 : ([.shadowCheckComplete 0, .spillFetchComplete 0 0 0 none, .spillWritebackComplete 0 0 0, .exchangePlacement 0,
      .exchangeSwatchAssemble 0 0 0, .epochCutEnd 0, .epochCutTimeout 0, .epochSecured 0 none, .epochClose 0,
      .tierWriteFail 0 0 0, .lichenUpdate, .cadenceUpdate, .memberFailed 0, .regrowthStart 0 0, .rollback 0 none,
      .restoreStart 0, .gddrCrcRetry 0 0 0 none, .gddrChannelFail 0, .cxlLinkDown 0, .cxlLinkUp 0 0 0 0, .hostLinkUp 0
      0, .inputStartThreshold, .resetNRelease 0, .prbsCheckerLock 0 0 [], .ringLinkRestore .cw 0, .domainPowered 0,
      .shardReadComplete 0 0 0 none] : List Instr).all (fun c => c.wf) = true := by decide

/-! Helpers. -/

def base : State := State.reset

/-- A message of one raise of source 9 with detail d from a die. -/
def msg (die d : Nat) : FaultMsg := { die, source := 9, n := 1, detail := d, level := false, seq := 0 }

/-- A plan is accepted. -/
def locked : State := base.wr F.LST_PLAN_STAT_STATE planAccepted

/-- Every power domain is on. -/
def lit : State := (List.range 7).foldl (fun s i => s.wr F.PWR_DOM_STAT_ON (2 ^ 64 - 1) i) base

/-- Every pool has free buffers that every account may take. -/
def pooled : State :=
  let s := (List.range 80).foldl (fun s n => s.wr F.BPM_ACCT_LIMIT 16 (n % 20) (n / 20)) base
  let s := (List.range 4).foldl (fun s q => s.wr F.BPM_POOL_BASE_CELL (65536 * q) q) s
  (List.range 16).foldl (fun s n => s.setList (n / 4) (n / 2 % 2) (n % 2) { fresh := 8 * (n % 4), stop := 8 * (n % 4) + 8, ret := [] }) s

/-- A management peer with the address 7. -/
def peered : State := (base.wr F.SEC_MGT_PEER_VALID 1 3).wr F.SEC_MGT_PEER_MAC 7 3

/-- A trigger that waits to be recorded. -/
def trig : Trigger := { code := 7, source := 255, severity := 0, set := 1, arg := 5, opSec := 3, time := 9 }

/-- A record that is being made of it. -/
def snap : Snapshot := { trig, since := 0, slot := 0, dumGen := 0, reads := [(4, 0x50, false)], missing := [] }

/-- A debug token is set, the digest of 32 bytes of 1. -/
def armed : State :=
  { (peered.wr F.SEC_STAT_TOKEN 1).wr F.SEC_STAT_EPOCHS_LEFT 3 with
    sec := { tokenDigest := some (Config.shake256 (List.replicate 32 1)) } }

theorem refusal_none : armed.debugRefusal (List.replicate 32 1) = 0 := by
  unfold State.debugRefusal
  rw [if_neg (by decide +kernel), if_neg (by decide +kernel), if_neg (not_not_intro (show some (Config.shake256 (List.replicate 32 1)) = armed.sec.tokenDigest from rfl)),
    if_neg (by decide +kernel)]

/-- An image of kind k (1 firmware, 2 configuration) with an empty body and a signature of zeros. -/
def image (k : Nat) : List Byte :=
  bytesLE 4 0x4D495647 ++ bytesLE 1 k ++ bytesLE 1 1 ++ bytesLE 2 0x0256 ++ bytesLE 4 29920 ++ bytesLE 2 7 ++ bytesLE 2 0 ++
    List.replicate 112 0 ++ List.replicate signatureSize 0

theorem bytesLE_length (n v : Nat) : (bytesLE n v).length = n := by
  induction n generalizing v with
  | zero => rfl
  | succ n ih => simp [bytesLE, ih]

theorem image_length (k : Nat) : (image k).length = 29920 := by
  simp only [image, List.length_append, bytesLE_length, List.length_replicate, signatureSize]

theorem words_none : configWords (List.replicate 29924 1) = none := by
  unfold configWords
  rw [List.drop_replicate, List.take_replicate, List.length_replicate]
  rfl

/-- Boot is at stage VERIFY with such images, whose key's digest is fused. -/
def verifying : State :=
  { base.wr F.BOOT_STAT_STAGE stageVerify with
    boot := { fw := image 1, cfg := image 2 }
    sec := { fuses := { rootDigest := Config.shake256 (List.replicate 64 0) } } }

theorem image_key (k : Nat) : ((image k).drop 16).take 64 = List.replicate 64 0 := by rfl

theorem image_passes (config : Bool) (k : Nat) (hk : k = if config then 2 else 1) :
    verifying.imagePasses config (image k) true = true := by
  unfold State.imagePasses State.imageForm
  rw [image_key, image_length, hk]
  cases config <;>
  · simp only [Bool.and_eq_true, beq_iff_eq, decide_eq_true_eq, Bool.false_eq_true, if_true, if_false]
    refine ⟨⟨⟨⟨⟨⟨⟨⟨by rfl, by rfl⟩, by rfl⟩, by rfl⟩, by rfl⟩, by decide⟩, rfl⟩, trivial⟩, by rfl⟩

/-- A long operation with this opcode and these arguments. -/
def job (o : Nat) (args : List Nat) : LongOp := { opcode := o, tag := 9, irq := true, flags := 0, args, since := 0 }

/-- It runs in slot 3. -/
def slotted (o : Nat) (args : List Nat) (s : State) : State := s.putOp 3 (job o args)

/-- A plan image of one record, which writes LST_PLAN_CFG. -/
def planImage (v : Nat) : List Byte :=
  bytesLE 4 0x4E414C50 ++ bytesLE 2 1 ++ bytesLE 2 0 ++ bytesLE 4 1 ++ bytesLE 4 112 ++ List.replicate 80 0 ++
    bytesLE 4 0x210000c ++ bytesLE 4 4 ++ bytesLE 4 v ++ List.replicate 4 0

/-- A plan load has written its records. -/
def loadedPlan : State := ((base.wr F.SCH_PERIOD_CYCLES 1024).wr F.LST_PLAN_STAT_STATE planChecking).putOp 3 { job oPlanLoad [0, 112] with loading := true, progress := 1 }

/-- Two identities, and a DEGRADED plan in which each is found on the port of the other. -/
def crossed : State :=
  let s := (base.wr F.LST_PLAN_STAT_STATE planDegraded).wr F.SCH_PERIOD_CYCLES 1024
  let s := (s.wr F.LST_CFG_VALID 1 0).wr F.LST_CFG_PORT_AGNOSTIC 1 0
  let s := ((s.wr F.LST_CFG_OPERANDS 2 0).wr F.LST_CFG_RANKS 2 0).wr F.LST_CFG_SEGMENTS 1 0
  let s := s.wr F.LST_SEG_SIZE 2 0
  let s := s.each [0, 1] (fun s r => (((s.wr F.LST_MEMBER_VALID 1 0 r).wr F.LST_MEMBER_PORT r 0 r).wr F.LST_MEMBER_IDENT (r + 1) 0 r))
  let s := s.each [0, 1] (fun s p => (s.wr F.PRT_LINK_STAT_STATE linkUp p).wr F.PRT_DISC_OUTCOME 5 p)
  let s := s.each [0, 1] (fun s p => s.each lanes4 (fun s k => s.setLane p k { state := .locked, signal := true }))
  s.each [0, 1] (fun s p => s.setPort p (fun pt => { pt with concluded := true, identity := [1, 2, 0, 3] ++ List.replicate 12 0 ++ bytesLE 4 (2 - p) ++ List.replicate 92 0 }))

/-- A frame, and the bytes of it on a link. -/
def aFrame : Frame := { sched := false, vc := 3, fseq := 6, item := .host [1, 2, 3, 4] }
def rxBytes (f : Frame) : List (Byte × Bool) := f.bytes.map (fun b => (b, false))

/-- Port 9 is enabled, powered and UP. -/
def linked : State :=
  ((lit.wr F.PRT_LSM_STAT_ENABLED 1 0).wr F.PRT_LINK_CFG_ENABLE 1 9).wr F.PRT_LINK_STAT_STATE linkUp 9

/-- Port 9 is in DESKEW, and its four lanes have locked. -/
def aligned : State :=
  (((lit.wr F.PRT_LSM_STAT_ENABLED 1 0).wr F.PRT_LINK_CFG_ENABLE 1 9).wr F.PRT_LINK_STAT_STATE linkDeskew 9).each lanes4 (fun s k =>
    s.setLane 9 k { state := .locked, signal := true, lane := 3 - k, pcount := 5, arrived := 100 * k })

/-- A control block waits on port 9. -/
def waitingCtl (c : CtlBlock) (s : State) : State := s.setPort 9 (fun pt => { pt with ctl := [c] })

/-- A plan is accepted, and rounds of 1,024 store cycles run since store cycle 2^24. -/
def rounds : State :=
  let s := (linked.wr F.LST_PLAN_STAT_STATE planAccepted).wr F.SCH_PERIOD_CYCLES 1024
  let s := { s with sched := { s.sched with running := true, roundStart := 2 ^ 24, roundLen := 1024 } }
  (List.range 256).foldl (fun s p => s.wr F.SCH_PORT_CFG_GROUP_BASE p p) s

/-- The egress window 0 to 99 of queue 2 on port 9, bank 0. -/
def windowed : State :=
  let s := rounds.wr F.SCH_WIN_VALID 1 9 0
  (s.wr F.SCH_WIN_QSEL 2 9 0).wr F.SCH_WIN_LENGTH 100 9 0

/-- A header of context 5, and a stored swatch under pointer 7. -/
def aHeader : SwHeader := { context := 5, opnum := 3 }
def stored7 (s : State) : State :=
  (s.setStored 7 (some (.swatch aHeader [1, 2]))).setTag 7 { held := true, gen := 0, account := 2, refcnt := 2 }

/-- A swatch that has arrived on port 9, with this SEQ. -/
def arrivedAt (n : Nat) : Arrived := { port := 9, header := { aHeader with seq := n }, ptr := 7, account := 2 }

/-- Context 5 is declared and OPEN, at operation 3. -/
def opened : State :=
  ((rounds.wr F.OPC_STATE_STATE ctxOpen 5).wr F.NUM_OPSEQ_OPNUM 3 5).wr F.OPC_DECL_LAST 2 5

/-- A stream of port die 0 at NEXT = 4. -/
def aStream : Stream := { context := 5, opnum := 3, rank := 0, group := 9, next := 4, held := [] }
def streamed (l : List Stream) (s : State) : State := { s with sched := { s.sched with streams := s.sched.streams.set [0] l } }
def inputAt (a : Arrived) (s : State) : State := { s with sched := { s.sched with reseqIn := s.sched.reseqIn.set [0] [{ ready := s.store, item := a }] } }
def asking (r : AllocReq) (s : State) : State := { s with bpm := { s.bpm with requests := [r] } }
def landingAt (l : Landing) (s : State) : State := { s with sched := { s.sched with landing := s.sched.landing.set [9] [l] } }

/-- Last 2 has the members of ports 9 and 10, and context 5 of this kind is OPEN at operation 3. -/
def collective (kind : Nat) : State :=
  let s := (opened.wr F.LST_CFG_VALID 1 2).wr F.LST_CFG_OPERANDS 2 2
  let s := (s.wr F.LST_CFG_RANKS 2 2).wr F.LST_CFG_SEGMENTS 1 2
  let s := (s.wr F.OPC_DECL_VALID 1 5).wr F.OPC_DECL_KIND kind 5
  s.each [0, 1] (fun s r => (s.wr F.LST_MEMBER_VALID 1 2 r).wr F.LST_MEMBER_PORT (9 + r) 2 r)

/-- A descriptor that waits to be decided. -/
def described (d : Descriptor) (s : State) : State := { s with sched := { s.sched with descs := [{ port := 9, desc := d, ptr := 7, account := 2 }] } }

/-- A swatch that has been released. -/
def released (a : Arrived) (s : State) : State := { s with sched := { s.sched with released := [a] } }

/-- Account 2 has eight buffers of pool 0. -/
def alloted (s : State) : State := (s.wr F.BPM_ACCT_LIMIT 16 2 0).setList 0 0 0 { fresh := 0, stop := 8, ret := [] }

/-- Context 5 has this chunk 0. -/
def chunked (c : Chunk) (s : State) : State := s.setChunk 5 0 (some c)

/-- Contexts 5 and 6 are those of group 0 of last 2, whose epoch is `e`; context 5 is in this state. -/
def spored (st : Nat) (e : Option Epoch) : State :=
  let s := ((collective kParity).wr F.OPC_STATE_STATE st 5).wr F.CKP_GROUP_VALID 1 2 0
  let s := (s.wr F.CKP_GROUP_EPOCH_CTX 5 2 0).wr F.CKP_GROUP_REGROW_CTX 6 2 0
  let s := ((s.wr F.CKP_GROUP_SIZE 2 2 0).wr F.CKP_GROUP_M 1 2 0).wr F.LST_STATE_STATE lstActive 2
  let s := ((s.wr F.OPC_STATE_STATE ctxIdle 6).wr F.OPC_DECL_LAST 2 6).wr F.OPC_DECL_KIND kParity 6
  s.setSpore 2 (fun l => { l with epoch := e })

/-- An epoch of it. -/
def anEpoch : Epoch := { number := 4, since := 0, cut := true, covered := [2], ports := [9], buffer := 0, full := none }

/-- Position 1 of the group is lost, and its member is there again. -/
def losing (st : Nat) : State :=
  let s := ((spored ctxIdle none).wr F.CKP_GROUP_STAT_STATE st 2 0).wr F.CKP_GROUP_STAT_LOST 1 2 0
  let s := (s.wr F.CKP_GROUP_STAT_LOST_POS 1 2 0).wr F.LST_STATE_STATE lstPaused 2
  s.each [0, 1] (fun s r => s.wr F.LST_MEMBER_PRESENT 1 2 r)

/-- Account 19 has buffers for a staging block. -/
def staged (s : State) : State :=
  (s.wr F.BPM_ACCT_LIMIT 16 19 2).setList 2 1 0 { fresh := 0, stop := 8, ret := [] }

/-- The spore tier is there. -/
def tiered (s : State) : State :=
  let s := (s.wr F.CKP_TIER_GIB 1 0).wr F.MEM_CXL_STAT_UP 1 0
  { s with mem := { s.mem with keyed := true } }

/-- The group is being restored from data slot 1. -/
def restored (r : Recovery) : State :=
  let s := (losing grpRestoring).setSpore 2 (fun l => { l with recovery := some r })
  tiered ((s.setGroup 2 0 (fun k => { k with opened := true })).wr F.OPC_STATE_STATE ctxFlush 6)

/-- The body of an answer to port 9's first delay request. -/
def answerBody : List Byte := 3#8 :: List.replicate 43 0#8 ++ bytesBE 10 (portIdentity 9) ++ [0#8, 0#8]

theorem ofLE_bytesLE (n v : Nat) : ofLE (bytesLE n v) = v % 256 ^ n := by
  induction n generalizing v with
  | zero => simp [bytesLE, ofLE, Nat.mod_one]
  | succ n ih =>
    have h : v % (256 * 256 ^ n) = v % 256 + 256 * (v / 256 % 256 ^ n) := Nat.mod_mul
    simp only [bytesLE, ofLE, ih, BitVec.toNat_ofNat, Nat.pow_succ, Nat.mul_comm (256 ^ n), h]

theorem answer_target : (readTime answerBody).target = portIdentity 9 := by
  have h : (((answerBody.drop 44).take 10).reverse) = bytesLE 10 (portIdentity 9) := rfl
  show ofLE (((answerBody.drop 44).take 10).reverse) = _
  rw [h, ofLE_bytesLE]
  refine Nat.mod_eq_of_lt ?_
  have h := Nat.mod_lt Config.clockIdentity (show 0 < 2 ^ 64 by decide)
  unfold portIdentity
  generalize Config.clockIdentity % 2 ^ 64 = x at *
  linarith

/-! Every hypothesis of a statement can be met. -/

theorem holds_step : ∃ (c : Instr) (rest : List Instr) (s : State), s.pending = c :: rest :=
  ⟨.snapshotStart, [], { base with pending := [.snapshotStart] }, rfl⟩

theorem holds_idle : ∃ s : State, s.pending = [] := ⟨base, rfl⟩

theorem holds_resetValues : ∃ (f : Fld) (i j : Nat), f.key i j ≠ F.HST_MBX_RESP_BUSY.key 0 0 :=
  ⟨F.EVR_CFG_ENABLE, 0, 0, by decide +kernel⟩

theorem holds_stepKeeps : ∃ s t : State, step s = .next t ∧ s.Canonical :=
  ⟨{ base with pending := [.ringRecordReady] }, base, by rfl, by unfold State.Canonical; decide +kernel⟩

theorem holds_touches : ∃ (c : Instr) (s t : State), exec c s = .next t := ⟨.ringRecordReady, base, base, by rfl⟩

theorem holds_address : ∃ (r : Reg) (i j : Nat), i < r.at.count1 ∧ j < r.at.count2 ∧ r.at.bits = 64 :=
  ⟨.SCH_EPOCH, 0, 0, by decide, by decide, by decide⟩

theorem holds_hit : ∃ (a : Nat) (h : Hit), hitAt a = some h := ⟨0x50, ⟨.GLB_ACCESS_ERR, 0, 0, false⟩, by decide +kernel⟩

theorem holds_canonical : ∃ (m : SMap (Option Nat)) (n : Memory), m.wf = true ∧ n.wf = true := ⟨{}, {}, by decide, by decide⟩

theorem holds_faultMessage : ∃ (s : State) (ring : Ring) (m : Ring × FaultMsg), s.powered = true ∧ (s.flt.flight.find?
  (fun k : Ring × FaultMsg => k.1 == ring) = some m) ∧ s.flt.seen.contains (m.2.die, m.2.seq) = false :=
  ⟨{ base with flt := { flight := [(.ccw, msg 5 9)] } }, .ccw, (.ccw, msg 5 9), by decide +kernel⟩

theorem holds_faultMessage_2 : ∃ (s : State) (ring : Ring) (m : Ring × FaultMsg), s.powered = true ∧
  (s.flt.flight.find? (fun k : Ring × FaultMsg => k.1 == ring) = some m) ∧ s.flt.seen.contains (m.2.die, m.2.seq) =
  true :=
  ⟨{ base with flt := { flight := [(.ccw, msg 5 9)], seen := [(5, 0)] } }, .ccw, (.ccw, msg 5 9), by decide +kernel⟩

theorem holds_faultRaise : ∃ (s : State) (at_ : Nat) (m : FaultMsg) (rest : List (Nat × FaultMsg)), s.active = true ∧
  s.flt.inbox = (at_, m) :: rest ∧ m.n ≠ 0 ∧ faultSources.contains m.source = true ∧ s.rdStart
  F.FLT_SRC_CFG_BLOCK_RESET m.source 0 16 = 0 :=
  ⟨{ base with flt := { inbox := [(0, msg 5 9)] } }, 0, msg 5 9, [], by decide +kernel⟩

theorem holds_levelConditionChange : ∃ (s : State) (src : Nat) (unit : Nat), s.powered = true ∧ src < 128 ∧ unit < 48
  ∧ levelSources.contains src = true ∧ levelStop src unit = stopMgt ∧ s.flt.cond.get [src, stopMgt, unit] = false :=
  ⟨base, 50, 1, by decide +kernel⟩

theorem holds_levelConditionChange_2 : ∃ (s : State) (src : Nat) (unit : Nat) (c : Bool), s.powered = true ∧ src < 128
  ∧ unit < 48 ∧ levelSources.contains src = true ∧ s.flt.cond.get [src, levelStop src unit, unit] = c :=
  ⟨base, 41, 3, false, by decide +kernel⟩

theorem holds_levelConditionChange_3 : ∃ (s : State) (src : Nat) (unit : Nat), s.powered = true ∧ src < 128 ∧ unit <
  48 ∧ levelSources.contains src = true ∧ levelStop src unit = stopMgt ∧ s.flt.cond.get [src, stopMgt, unit] = true :=
  ⟨{ base.wr F.FLT_SRC_STAT_ACTIVE 1 50 with flt := { cond := ({} : SMap Bool).set [50, stopMgt, 1] true, levels := ({} : SMap Bool).set [50, stopMgt] true } },
    50, 1, by decide +kernel⟩

theorem holds_levelConditionChange_4 : ∃ (s : State) (src : Nat) (unit : Nat) (c : Bool), s.powered = true ∧ src < 128
  ∧ unit < 48 ∧ levelSources.contains src = true ∧ levelStop src unit ≠ stopMgt ∧ s.flt.cond.get [src, levelStop src
  unit, unit] = !c ∧ (s.pathCut .cw (levelStop src unit) stopMgt && s.pathCut .ccw (levelStop src unit) stopMgt) =
  false :=
  ⟨base, 41, 3, true, by decide +kernel⟩

theorem holds_levelConditionChange_5 : ∃ (s : State) (src : Nat) (unit : Nat), s.powered = true ∧ src < 128 ∧ unit <
  48 :=
  ⟨base, 9, 3, by decide +kernel⟩

theorem holds_faultClear : ∃ (s : State) (src : Nat), s.active = true ∧ src < 128 ∧ faultSources.contains src = true
  :=
  ⟨base.wr F.FLT_SRC_STAT_PENDING 1 9, 9, by decide +kernel⟩

theorem holds_mgtFaultClear : ∃ (s : State) (src : Nat), s.active = true ∧ src < 128 ∧ faultSources.contains src =
  true :=
  ⟨base.wr F.FLT_SRC_STAT_PENDING 1 9, 9, by decide +kernel⟩

theorem holds_intHoldoffEnd : ∃ (s : State) (v : Nat), s.powered = true ∧ v < 4 ∧ (s.flt.hold.get [v]).merged = true ∧
  ((s.flt.hold.get [v]).last.all (fun t => decide (t + us (s.rd F.FLT_GCFG_INT_HOLDOFF_US) ≤ s.now)) = true) ∧ s.flag
  F.MSIX_CTRL_MASK v = true :=
  ⟨{ base with flt := { hold := ({} : SMap IntHold).set [2] { merged := true } } }, 2, by decide +kernel⟩

theorem holds_intHoldoffEnd_2 : ∃ (s : State) (v : Nat), s.powered = true ∧ v < 4 ∧ (s.flt.hold.get [v]).merged = true
  ∧ ((s.flt.hold.get [v]).last.all (fun t => decide (t + us (s.rd F.FLT_GCFG_INT_HOLDOFF_US) ≤ s.now)) = true) ∧
  s.flag F.MSIX_CTRL_MASK v = false :=
  ⟨({ base with flt := { hold := ({} : SMap IntHold).set [2] { merged := true } } }).wr F.MSIX_CTRL_MASK 0 2, 2,
    by decide +kernel⟩

theorem holds_faultNoticeRepeat : ∃ (s : State) (since : Nat) (src : Nat), s.powered = true ∧ s.flt.noticeSince = some
  since ∧ since + secs 1 ≤ s.now ∧ (s.topSource (s.pendingSources.filter (fun i => s.flag F.FLT_SRC_CFG_INT i)) = some
  src) ∧ ((List.range 8).any (fun k => s.flag F.SEC_MGT_PEER_VALID k && s.flag F.SEC_MGT_PEER_STATION k) = true) :=
  ⟨(((({ base with now := secs 2, flt := { noticeSince := some 5 } }).wr F.FLT_SRC_STAT_PENDING 1 9).wr
    F.FLT_SRC_CFG_INT 1 9).wr F.SEC_MGT_PEER_VALID 1 3).wr F.SEC_MGT_PEER_STATION 1 3, 5, 9, by decide +kernel⟩

theorem holds_chipResetReaction : ∃ (s : State) (r : ResetReaction), s.active = true ∧ s.flt.reaction = some r ∧
  r.since + us 50 ≤ s.now :=
  ⟨{ base with now := us 50, flt := { reaction := some { source := 9, since := 0, record := none } } },
    { source := 9, since := 0, record := none }, by decide +kernel⟩

theorem holds_mgtWatchdogExpiry : ∃ (s : State), s.powered = true :=
  ⟨base, by decide +kernel⟩

theorem holds_safeState : ∃ (s : State) (cause : Nat), s.active = true ∧ (cause = selfParity ∨ cause = selfEcc ∨ cause
  = selfLockstep) :=
  ⟨base, selfEcc, by decide +kernel⟩

theorem holds_collectorSweep : ∃ (s : State), s.active = true :=
  ⟨base, by decide +kernel⟩

theorem holds_collectorSweep_2 : ∃ (s : State) (cause : Nat), s.active = true ∧ (cause = selfParity ∨ cause = selfEcc)
  :=
  ⟨base, selfParity, by decide +kernel⟩

theorem holds_registerWrite : ∃ (s : State) (r : Reg) (i : Nat) (j : Nat), s.active = true ∧ i < r.at.count1 ∧ j <
  r.at.count2 ∧ r.ownMeaning = false :=
  ⟨base, .GLB_ACCESS_ERR, 0, 0, by decide +kernel⟩

theorem holds_registerWrite_2 : ∃ (s : State) (r : Reg) (i : Nat) (j : Nat), s.active = true ∧ i < r.at.count1 ∧ j <
  r.at.count2 ∧ r.ownMeaning = false ∧ s.rwlLocked = false :=
  ⟨base, .GLB_ACCESS_ERR, 0, 0, by decide +kernel⟩

theorem holds_registerWrite_3 : ∃ (s : State) (r : Reg) (i : Nat) (j : Nat) (f : Fld) (v : Nat), s.active = true ∧ i <
  r.at.count1 ∧ j < r.at.count2 ∧ r.ownMeaning = false ∧ s.rwlLocked = true ∧ f ∈ r.fields ∧ f.code i j = Acc.rwl ∧
  bits v f.hi f.lo ≠ s.rd f i j :=
  ⟨locked, .SCH_EPOCH, 0, 0, F.SCH_EPOCH_TIME, 8, by decide +kernel⟩

theorem holds_registerWrite_4 : ∃ (s : State) (r : Reg) (i : Nat) (j : Nat), s.active = true ∧ i < r.at.count1 ∧ j <
  r.at.count2 ∧ (r = .LST_CFG ∨ r = .LST_MEMBER) ∧ s.rwlLocked = false :=
  ⟨(base.wr F.LST_CFG_OPERANDS 2 3).wr F.PRT_DISC_OUTCOME 1 0, .LST_CFG, 3, 0, by decide +kernel⟩

theorem holds_registerWrite_5 : ∃ (s : State) (r : Reg) (i : Nat) (j : Nat) (cls : PortClass), s.active = true ∧ i <
  r.at.count1 ∧ j < r.at.count2 ∧ cls ≠ r.owner ∧ (cls ≠ PortClass.nvm ∨ s.stage ≠ stageConfig) :=
  ⟨base, .GLB_ROLE, 0, 0, .fabric, by decide +kernel⟩

theorem holds_lowWordWrite : ∃ (s : State) (r : Reg) (i : Nat) (j : Nat) (cls : PortClass), s.active = true ∧ i <
  r.at.count1 ∧ j < r.at.count2 ∧ r.at.bits = 64 ∧ cls ≠ r.owner ∧ (cls ≠ PortClass.nvm ∨ s.stage ≠ stageConfig) :=
  ⟨base, .SCH_EPOCH, 0, 0, .fabric, by decide +kernel⟩

theorem holds_highWordWrite : ∃ (s : State) (r : Reg) (i : Nat) (j : Nat) (cls : PortClass), s.active = true ∧ i <
  r.at.count1 ∧ j < r.at.count2 ∧ r.at.bits = 64 ∧ cls ≠ r.owner ∧ (cls ≠ PortClass.nvm ∨ s.stage ≠ stageConfig) :=
  ⟨base, .SCH_EPOCH, 0, 0, .fabric, by decide +kernel⟩

theorem holds_registerWrite_6 : ∃ (s : State) (a : Nat), s.active = true ∧ a < 2 ^ 28 ∧ a % 4 = 0 ∧ inRecordWindow a =
  false ∧ inRingWindow a = false ∧ hitAt a = none :=
  ⟨base, 0x0FFFFFF8, by decide +kernel⟩

theorem holds_registerWrite_7 : ∃ (s : State) (a : Nat), s.active = true ∧ a + 4 < 2 ^ 28 ∧ a % 4 = 0 ∧ inRecordWindow
  a = false ∧ inRingWindow a = false ∧ hitAt a = none ∧ inRecordWindow (a + 4) = false ∧ inRingWindow (a + 4) = false
  ∧ hitAt (a + 4) = none :=
  ⟨base, 0x0FFFFFF8, by decide +kernel⟩

theorem holds_rcRegisterRead : ∃ (s : State) (cls : PortClass) (a : Nat), s.active = true ∧ a < 2 ^ 28 ∧ a % 4 = 0 ∧
  inRecordWindow a = false ∧ inRingWindow a = false ∧ hitAt a = none ∧ (cls = PortClass.host ∨ cls = PortClass.mgmt)
  :=
  ⟨base, .host, 0x0FFFFFF8, by decide +kernel⟩

theorem holds_rcRegisterRead_2 : ∃ (s : State) (cls : PortClass) (a : Nat), s.active = true ∧ a + 4 < 2 ^ 28 ∧ a % 4 =
  0 ∧ inRecordWindow a = false ∧ inRingWindow a = false ∧ hitAt a = none ∧ inRecordWindow (a + 4) = false ∧
  inRingWindow (a + 4) = false ∧ hitAt (a + 4) = none ∧ (cls = PortClass.host ∨ cls = PortClass.mgmt) :=
  ⟨base, .host, 0x0FFFFFF8, by decide +kernel⟩

theorem holds_registerWrite_8 : ∃ (s : State) (a : Nat), s.active = true ∧ a < 2 ^ 28 ∧ a % 4 = 0 ∧ inRecordWindow a =
  false ∧ inRingWindow a = false ∧ hitAt a = none :=
  ⟨base, 0x0FFFFFF8, by decide +kernel⟩

theorem holds_registerWrite_9 : ∃ (s : State) (r : Reg) (i : Nat) (j : Nat) (cls : PortClass), s.active = true ∧ i <
  r.at.count1 ∧ j < r.at.count2 ∧ cls ≠ r.owner ∧ (cls ≠ PortClass.nvm ∨ s.stage ≠ stageConfig) :=
  ⟨base, .GLB_ROLE, 0, 0, .fabric, by decide +kernel⟩

theorem holds_rcRegisterRead_3 : ∃ (s : State) (r : Reg) (i : Nat) (j : Nat) (cls : PortClass), s.active = true ∧ i <
  r.at.count1 ∧ j < r.at.count2 ∧ (cls = PortClass.host ∨ cls = PortClass.mgmt) :=
  ⟨base.wr F.FLT_SRC_COUNT_COUNT 5 9, .FLT_SRC_COUNT, 9, 0, .host, by decide +kernel⟩

theorem holds_rcRegisterRead_4 : ∃ (s : State) (r : Reg) (i : Nat) (j : Nat) (cls : PortClass), s.powered = true ∧
  s.isSafe = true ∧ i < r.at.count1 ∧ j < r.at.count2 ∧ (cls = PortClass.host ∨ cls = PortClass.mgmt) :=
  ⟨(base.wr F.FLT_SRC_COUNT_COUNT 5 9).wr F.FLT_SELF_SAFE 1, .FLT_SRC_COUNT, 9, 0, .host, by decide +kernel⟩

theorem holds_split64BitAccess : ∃ (s : State) (r : Reg) (i : Nat) (j : Nat) (cls : PortClass), s.active = true ∧ i <
  r.at.count1 ∧ j < r.at.count2 ∧ r.at.bits = 64 ∧ (cls = PortClass.host ∨ cls = PortClass.mgmt) :=
  ⟨base.wr F.PRT_FEC_CW_CODEWORDS 5 7, .PRT_FEC_CW, 7, 0, .host, by decide +kernel⟩

theorem holds_lowWordRead : ∃ (s : State) (r : Reg) (i : Nat) (j : Nat) (cls : PortClass), s.active = true ∧ i <
  r.at.count1 ∧ j < r.at.count2 ∧ r.at.bits = 64 ∧ (cls = PortClass.host ∨ cls = PortClass.mgmt) :=
  ⟨base.wr F.PRT_FEC_CW_CODEWORDS 5 7, .PRT_FEC_CW, 7, 0, .host, by decide +kernel⟩

theorem holds_highWordRead : ∃ (s : State) (r : Reg) (i : Nat) (j : Nat) (cls : PortClass) (x : Nat), s.active = true
  ∧ i < r.at.count1 ∧ j < r.at.count2 ∧ r.at.bits = 64 ∧ (cls = PortClass.host ∨ cls = PortClass.mgmt) ∧
  s.bus.latch.get [cls.code] = some { addr := r.addr i j, high := x } :=
  ⟨{ base with bus := { latch := ({} : SMap (Option Latch)).set [PortClass.host.code] (some { addr := Reg.PRT_FEC_CW.addr 7 0, high := 9 }) } },
    .PRT_FEC_CW, 7, 0, .host, 9, by decide +kernel⟩

theorem holds_highWordRead_2 : ∃ (s : State) (r : Reg) (i : Nat) (j : Nat) (cls : PortClass), s.active = true ∧ i <
  r.at.count1 ∧ j < r.at.count2 ∧ r.at.bits = 64 ∧ (cls = PortClass.host ∨ cls = PortClass.mgmt) ∧ s.bus.latch.get
  [cls.code] = none :=
  ⟨base, .PRT_FEC_CW, 7, 0, .host, by decide +kernel⟩

theorem holds_lowWordWrite_2 : ∃ (s : State) (r : Reg) (i : Nat) (j : Nat), s.active = true ∧ i < r.at.count1 ∧ j <
  r.at.count2 ∧ r.at.bits = 64 :=
  ⟨base, .SCH_EPOCH, 0, 0, by decide +kernel⟩

theorem holds_highWordWrite_2 : ∃ (s : State) (r : Reg) (i : Nat) (j : Nat) (low : Nat), s.active = true ∧ i <
  r.at.count1 ∧ j < r.at.count2 ∧ r.at.bits = 64 ∧ r.ownMeaning = false ∧ s.bus.held.get [r.owner.code] = some
  { addr := r.addr i j, low := low } :=
  ⟨{ base with bus := { held := ({} : SMap (Option HeldWord)).set [Reg.SCH_EPOCH.owner.code] (some { addr := Reg.SCH_EPOCH.addr 0 0, low := 9 }) } },
    .SCH_EPOCH, 0, 0, 9, by decide +kernel⟩

theorem holds_highWordWrite_3 : ∃ (s : State) (r : Reg) (i : Nat) (j : Nat), s.active = true ∧ i < r.at.count1 ∧ j <
  r.at.count2 ∧ r.at.bits = 64 ∧ r.ownMeaning = false ∧ s.bus.held.get [r.owner.code] = none :=
  ⟨base, .SCH_EPOCH, 0, 0, by decide +kernel⟩

theorem holds_split64BitAccess_2 : ∃ (s : State) (r : Reg) (i : Nat) (j : Nat), s.active = true ∧ i < r.at.count1 ∧ j
  < r.at.count2 ∧ r.at.bits = 64 ∧ r.ownMeaning = false :=
  ⟨base, .SCH_EPOCH, 0, 0, by decide +kernel⟩

theorem holds_split64BitAccess_3 : ∃ (s : State) (a : Nat), s.active = true ∧ a + 4 < 2 ^ 28 ∧ a % 4 = 0 ∧ wideAt a =
  none :=
  ⟨base, 0x50, by decide +kernel⟩

theorem holds_bucketReset : ∃ (s : State) (p v x at_ : Nat), s.shape.waiting.wf = true ∧ s.shape.waiting.get [Bucket.shaper.code, p, v] = some (x, at_) ∧
    (bits x 39 38 = 1 ∨ bits x 39 38 = 2) ∧ at_ < s.store :=
  ⟨{ base with shape := { waiting := ({} : SMap (Option (Nat × Nat))).set [0, 3, 7] (some (2 ^ 38, 5)) } }, 3, 7, 2 ^ 38, 5, by decide +kernel⟩

theorem holds_shaperCfgWrite : ∃ (s : State) (p : Nat) (v : Nat) (x : Nat), s.active = true ∧ p < 256 ∧ v < 8 ∧ bits x
  39 38 ≠ 3 :=
  ⟨base, 3, 7, 123, by decide +kernel⟩

theorem holds_shaperCfgWrite_2 : ∃ (s : State) (p : Nat) (v : Nat) (x : Nat), s.active = true ∧ p < 256 ∧ v < 8 ∧ bits
  x 39 38 = 3 :=
  ⟨base, 255, 0, 3 * 2 ^ 38, by decide +kernel⟩

theorem holds_policerCfgWrite : ∃ (s : State) (p : Nat) (v : Nat) (x : Nat), s.active = true ∧ p < 256 ∧ v < 8 ∧ bits
  x 39 38 ≠ 3 ∧ bits x 37 36 ≠ 3 :=
  ⟨base, 3, 7, 123, by decide +kernel⟩

theorem holds_policerCfgWrite_2 : ∃ (s : State) (p : Nat) (v : Nat) (x : Nat), s.active = true ∧ p < 256 ∧ v < 8 ∧
  (bits x 39 38 = 3 ∨ bits x 37 36 = 3) :=
  ⟨base, 255, 0, 3 * 2 ^ 38, by decide +kernel⟩

theorem holds_mirrorCfgWrite : ∃ (s : State) (m : Nat), s.active = true ∧ m < 8 :=
  ⟨base, 7, by decide +kernel⟩

theorem holds_timeNowWrite : ∃ (s : State), s.active = true ∧ s.flag F.PRT_TIME_CFG_GM = true ∧ s.locked = false :=
  ⟨base.wr F.PRT_TIME_CFG_GM 1, by decide +kernel⟩

theorem holds_timeNowWrite_2 : ∃ (s : State), s.active = true ∧ (s.flag F.PRT_TIME_CFG_GM = false ∨ s.locked = true)
  :=
  ⟨base, by decide +kernel⟩

theorem holds_prbsGeneratorSelect : ∃ (s : State) (p : Nat) (x : Nat), s.active = true ∧ p < 256 ∧ (bits x 25 24 = 1 ∨
  bits x 25 24 = 2) ∧ (s.locked = false ∨ s.fenced p = true) :=
  ⟨((base.wr F.PRT_LINK_CFG_ENABLE 1 9).wr F.PRT_LINK_CFG_RATE 1 9).wr F.PRT_LINK_STAT_STATE linkUp 9, 9, 2 ^ 24,
    by decide +kernel⟩

theorem holds_prbsCheckerSelect : ∃ (s : State) (p : Nat) (x : Nat), s.active = true ∧ p < 256 ∧ (bits x 23 22 = 1 ∨
  bits x 23 22 = 2) ∧ (s.locked = false ∨ s.fenced p = true) :=
  ⟨((base.wr F.PRT_LINK_CFG_ENABLE 1 9).wr F.PRT_LINK_CFG_RATE 1 9).wr F.PRT_LINK_STAT_STATE linkUp 9, 9, 2 ^ 23,
    by decide +kernel⟩

theorem holds_loopbackSelect : ∃ (s : State) (p : Nat) (x : Nat), s.active = true ∧ p < 256 ∧ bits x 27 26 ≠ 0 ∧
  (s.locked = false ∨ s.fenced p = true) :=
  ⟨((base.wr F.PRT_LINK_CFG_ENABLE 1 9).wr F.PRT_LINK_CFG_RATE 1 9).wr F.PRT_LINK_STAT_STATE linkUp 9, 9, 2 ^ 26,
    by decide +kernel⟩

theorem holds_loopbackSelect_2 : ∃ (s : State) (p : Nat) (x : Nat), s.active = true ∧ p < 256 ∧ bits x 27 26 ≠ 0 ∧
  s.locked = true ∧ s.fenced p = false :=
  ⟨locked, 9, 2 ^ 26, by decide +kernel⟩

theorem holds_testEnd : ∃ (s : State) (p : Nat), s.active = true ∧ p < 256 ∧ s.rd F.PRT_LINK_STAT_STATE p = linkTest ∧
  s.portOff p = false ∧ (s.lane p 0).signal = true :=
  ⟨((linked.wr F.PRT_TEST_GEN 1 9).wr F.PRT_LINK_STAT_STATE linkTest 9).setLane 9 0 { signal := true }, 9,
    by decide +kernel⟩

theorem holds_portEnableWrite : ∃ (s : State) (p : Nat) (x : Nat), s.active = true ∧ p < 256 ∧ s.flag
  F.PRT_LINK_CFG_ENABLE p = true ∧ x.testBit 31 = false ∧ s.testOn p = false :=
  ⟨((base.wr F.PRT_LINK_CFG_ENABLE 1 9).wr F.PRT_LINK_CFG_RATE 1 9).wr F.PRT_LINK_STAT_STATE linkUp 9, 9, 0,
    by decide +kernel⟩

theorem holds_portEnableWrite_2 : ∃ (s : State) (p : Nat) (x : Nat), s.active = true ∧ p < 256 ∧ s.flag
  F.PRT_LINK_CFG_ENABLE p = false ∧ x.testBit 31 = true ∧ s.rd F.PRT_LINK_STAT_STATE p = linkOff ∧ s.portOn p = true ∧
  s.flag F.PRT_LSM_STAT_ENABLED (engineOfPort p) = true ∧ (s.port p).offUntil = none ∧ s.testOn p = false :=
  ⟨(linked.wr F.PRT_LINK_CFG_ENABLE 0 9).wr F.PRT_LINK_STAT_STATE linkOff 9, 9, 2 ^ 31, by decide +kernel⟩

theorem holds_rateChange : ∃ (s : State) (p : Nat) (x : Nat), s.active = true ∧ p < 256 ∧ s.rwlLocked = false ∧ (bits
  x 30 29 = 1 ∨ bits x 30 29 = 2) ∧ bits x 30 29 ≠ s.rd F.PRT_LINK_CFG_RATE p :=
  ⟨((base.wr F.PRT_LINK_CFG_ENABLE 1 9).wr F.PRT_LINK_CFG_RATE 1 9).wr F.PRT_LINK_STAT_STATE linkUp 9, 9, 2 ^ 31 + 2 ^
    30, by decide +kernel⟩

theorem holds_rateChange_2 : ∃ (s : State) (p : Nat) (x : Nat), s.active = true ∧ p < 256 ∧ s.rwlLocked = true ∧ bits
  x 30 29 ≠ s.rd F.PRT_LINK_CFG_RATE p :=
  ⟨locked, 9, 2 ^ 30, by decide +kernel⟩

theorem holds_laserEnableWrite : ∃ (s : State) (e : Nat) (x : Nat), s.active = true ∧ e < 16 ∧ x.testBit 0 = true ∧
  s.flag F.PRT_LSM_STAT_PRESENT e = true ∧ s.domainOn (engineDomain e) = true ∧ (s.laser e).resetUntil = none :=
  ⟨lit.wr F.PRT_LSM_STAT_PRESENT 1 4, 4, 1, by decide +kernel⟩

theorem holds_laserEnableWrite_2 : ∃ (s : State) (e : Nat) (x : Nat), s.active = true ∧ e < 16 ∧ x.testBit 0 = false
  :=
  ⟨base, 4, 0, by decide +kernel⟩

theorem holds_laserEnableWrite_3 : ∃ (s : State) (e : Nat) (x : Nat), s.active = true ∧ e < 16 ∧ x.testBit 0 = true ∧
  s.flag F.PRT_LSM_STAT_PRESENT e = false :=
  ⟨base, 4, 1, by decide +kernel⟩

theorem holds_faultPinForce : ∃ (s : State), s.active = true :=
  ⟨base, by decide +kernel⟩

theorem holds_faultInject : ∃ (s : State) (src : Nat), s.active = true ∧ src < 128 ∧ src ≠ 0 ∧ faultSources.contains
  src = true ∧ s.planState = planEmpty :=
  ⟨base, 9, by decide +kernel⟩

theorem holds_safeStateSelfTest : ∃ (s : State), s.active = true ∧ s.planState = planEmpty :=
  ⟨base, by decide +kernel⟩

theorem holds_safeStateSelfTest_2 : ∃ (s : State), s.active = true ∧ s.planState ≠ planEmpty :=
  ⟨locked, by decide +kernel⟩

theorem holds_faultCfgWrite : ∃ (s : State) (src : Nat), s.active = true ∧ src < 128 :=
  ⟨base, 9, by decide +kernel⟩

theorem holds_endAsked : ∃ (s : State) (x : Nat), s.abortable x (s.opnum x) = true ∧ (s.op x).early = [] ∧ s.kind x ≠ kParity ∧
    s.marks = [(s.now, .ending x (s.opnum x) stAborted)] :=
  ⟨{ (base.wr F.OPC_DECL_VALID 1 77).wr F.OPC_STATE_STATE ctxOpen 77 with marks := [(0, .ending 77 0 stAborted)] }, 77, by decide +kernel⟩

theorem holds_endClosing : ∃ (s : State) (x : Nat) (o : OpCtx), s.ctx.entries = [([x], o)] ∧ s.ctxState x = ctxClosing ∧ o.early = [] ∧
    o.closedAt + 2 ≤ s.arith :=
  ⟨{ (base.wr F.OPC_DECL_VALID 1 77).wr F.OPC_STATE_STATE ctxClosing 77 with now := 8, ctx := { entries := [([77], { closedAt := 0 })] } }, 77, { closedAt := 0 }, by decide +kernel⟩

theorem holds_hostAbort : ∃ (s : State) (x : Nat), s.active = true ∧ x < 65536 ∧ s.abortable x (s.opnum x) = true ∧
  s.marked (.done x) 2 = false :=
  ⟨(base.wr F.OPC_DECL_VALID 1 77).wr F.OPC_STATE_STATE ctxOpen 77, 77, by decide +kernel⟩

theorem holds_hostAbort_2 : ∃ (s : State) (x : Nat), s.active = true ∧ x < 65536 ∧ s.ctxState x ≠ ctxUndeclared ∧
  (s.abortable x (s.opnum x) = false ∨ s.marked (.done x) 2 = true) :=
  ⟨base.wr F.OPC_STATE_STATE ctxIdle 77, 77, by decide +kernel⟩

theorem holds_hostAbort_3 : ∃ (s : State) (x : Nat), s.active = true ∧ x < 65536 ∧ s.ctxState x = ctxUndeclared :=
  ⟨base, 77, by decide +kernel⟩

theorem holds_fenceWrite : ∃ (s : State) (i : Nat), s.active = true ∧ i < 4 :=
  ⟨base, 2, by decide +kernel⟩

theorem holds_queuePurge : ∃ (s : State) (p : Nat) (k : Nat) (e : QEntry) (rest : List QEntry), s.active = true ∧ p <
  256 ∧ k < 16 ∧ s.sched.purging.contains p = true ∧ s.purges p = true ∧ s.targetFenced (s.groupOf p) = true ∧
  s.sched.queues.get [s.groupOf p, k] = e :: rest ∧ ((List.range k).all (fun j => (s.sched.queues.get [s.groupOf p,
  j]).isEmpty) = true) :=
  ⟨{ (base.wr F.INS_FENCE_PORTS 1 0) with sched := { purging := [0], queues := ({} : SMap (List QEntry)).set [0, 3] [default] } },
    0, 3, default, [], by decide +kernel⟩

theorem holds_liveChangeGo : ∃ (s : State) (x : Nat), s.active = true ∧ x < 2 ^ 32 ∧ x.testBit 31 = true ∧ s.accepted
  = true ∧ 2 ≤ bits x 25 24 ∧ s.chgState ≠ chgDraining ∧ s.chgState ≠ chgSwitching ∧ s.marked .retire 2 = false :=
  ⟨locked, 2 ^ 31 + 2 ^ 25 + 7, by decide +kernel⟩

theorem holds_liveChangeGo_2 : ∃ (s : State) (x : Nat), s.active = true ∧ x < 2 ^ 32 ∧ x.testBit 31 = true ∧
  (s.accepted = false ∨ bits x 25 24 < 2 ∨ s.chgState = chgDraining ∨ s.chgState = chgSwitching ∨ s.marked .retire 2 =
  true) :=
  ⟨locked, 2 ^ 31 + 2 ^ 24 + 7, by decide +kernel⟩

theorem holds_liveChangeDrained : ∃ (s : State), s.active = true ∧ s.chgState = chgDraining ∧ s.changeDrained = true
  :=
  ⟨locked.wr F.SCH_CHG_STAT_STATE chgDraining, by decide +kernel⟩

theorem holds_liveChangeTimeout : ∃ (s : State), s.active = true ∧ s.chgState = chgDraining ∧ s.sched.chgSince + us
  (s.rd F.SCH_CHG_CFG_DRAIN_US) ≤ s.now :=
  ⟨{ locked.wr F.SCH_CHG_STAT_STATE chgDraining with now := secs 1 }, by decide +kernel⟩

theorem holds_softwareTrigger : ∃ (s : State), s.active = true ∧ s.flag F.EVR_CFG_ENABLE = true ∧ s.evr.queue.length <
  64 ∧ s.marked .queued 16 = false :=
  ⟨base, by decide +kernel⟩

theorem holds_softwareTrigger_2 : ∃ (s : State), s.active = true ∧ s.flag F.EVR_CFG_ENABLE = true ∧ s.evr.queue.length
  = 64 ∧ s.marked .queued 16 = false :=
  ⟨{ base with evr := { queue := List.replicate 64 trig } }, by decide +kernel⟩

theorem holds_periodicTrigger : ∃ (s : State), s.powered = true ∧ s.flag F.EVR_CFG_ENABLE = true ∧ s.evr.queue.length
  < 64 ∧ s.marked .queued 16 = false ∧ s.rd F.EVR_CFG_PERIOD_S ≠ 0 ∧ s.evr.periodSec + s.rd F.EVR_CFG_PERIOD_S ≤
  s.opSec :=
  ⟨(base.wr F.EVR_CFG_PERIOD_S 4).wr F.EVR_OPSEC_OP_SECONDS 4, by decide +kernel⟩

theorem holds_snapshotStart : ∃ (s : State) (x : Trigger) (rest : List Trigger), s.powered = true ∧ s.flag
  F.EVR_CFG_ENABLE = true ∧ s.evr.snapshot = none ∧ s.evr.queue = x :: rest :=
  ⟨{ base with evr := { queue := [trig] } }, trig, [], by decide +kernel⟩

theorem holds_snapshotReadTimeout : ∃ (s : State) (p : Snapshot) (i : Nat), s.powered = true ∧ i < 32 ∧ s.evr.snapshot
  = some p ∧ (p.reads.any (fun r => r.1 == i) = true) ∧ i ∉ p.missing ∧ p.since + us 10 ≤ s.now :=
  ⟨{ base with now := us 10, evr := { snapshot := some snap } }, snap, 4, by decide +kernel⟩

theorem holds_snapshotComplete : ∃ (s : State) (p : Snapshot), s.powered = true ∧ s.flag F.EVR_CFG_ENABLE = true ∧
  s.evr.snapshot = some p :=
  ⟨{ base with evr := { snapshot := some { snap with missing := [4] } } }, { snap with missing := [4] },
    by decide +kernel⟩

theorem holds_ringRecordSelect : ∃ (s : State), s.active = true :=
  ⟨base, by decide +kernel⟩

theorem holds_ringRecordReady : ∃ (s : State) (n : Nat) (r : Nat), s.powered = true ∧ s.evr.selecting = true ∧ n =
  s.rd F.EVR_RING_SEL_SEQ ∧ r = s.rd F.EVR_RING_RECORDS ∧ r ≠ 0 ∧ s.rd F.EVR_RING_OLDEST_SEQ ≤ n ∧ n < s.rd
  F.EVR_NEXT_SEQ ∧ s.aheadOfCopies [s.rd F.EVR_RING_BASE + n % r * 320] 320 = false ∧ s.gddrFailed (s.rd
  F.EVR_RING_BASE + n % r * 320) 320 = none :=
  ⟨({ ((base.wr F.EVR_RING_RECORDS 64).wr F.EVR_NEXT_SEQ 100).wr F.EVR_RING_SEL_SEQ 70 with evr := { selecting := true } }),
    70, 64, by decide +kernel⟩

theorem holds_ringRecordReady_2 : ∃ (s : State), s.powered = true ∧ s.evr.selecting = true ∧ (s.rd F.EVR_RING_SEL_SEQ
  < s.rd F.EVR_RING_OLDEST_SEQ ∨ s.rd F.EVR_NEXT_SEQ ≤ s.rd F.EVR_RING_SEL_SEQ) :=
  ⟨{ base with evr := { selecting := true } }, by decide +kernel⟩

theorem holds_ringCopyBatch : ∃ (s : State) (n : Nat) (r : Nat), s.active = true ∧ r = s.rd F.EVR_RING_RECORDS ∧ n =
  s.evr.copied ∧ r ≠ 0 ∧ n + 64 ≤ s.rd F.EVR_NEXT_SEQ ∧ stageMemory < s.stage ∧ s.stage < 7 ∧ (s.aheadOfCopies
  ((List.range 64).map (fun k => s.rd F.EVR_RING_BASE + (n + k) % r * 320)) 320 = false) ∧ (s.allocNow (.block (64 *
  320)) 19 reqMgt).1.isSome = true ∧ ((List.range 64).all (fun k => (s.gddrFailed (s.rd F.EVR_RING_BASE + (n + k) % r
  * 320) 320).isNone) = true) ∧ s.mem.gddr.wf = true :=
  ⟨(((pooled.wr F.EVR_RING_RECORDS 64).wr F.EVR_NEXT_SEQ 100).wr F.BOOT_STAT_STAGE 5), 0, 64, by decide +kernel⟩

theorem holds_operatingSecond : ∃ (s : State), s.pwr.good = true ∧ s.pwr.dark = false :=
  ⟨base, by decide +kernel⟩

theorem holds_persistenceWrite : ∃ (s : State), s.powered = true ∧ 600 ≤ s.evr.sincePersist ∧ s.sec.nvm.wf = true :=
  ⟨{ base with evr := { sincePersist := 600 }, sec := {} }, by decide +kernel⟩

theorem holds_ringPacketArrive : ∃ (s : State) (ring : Ring) (stop : Nat) (p : RingPacket), s.powered = true ∧ stop <
  24 ∧ p.src < 24 ∧ p.dst < 24 ∧ p.sized = true ∧ (s.ring.buffers.get [ring.code, prevStop ring stop]).contains p =
  false ∧ stop = p.src ∧ p.src ≠ p.dst ∧ p.kind ≠ RingKind.fault ∧ s.flt.entry = [] ∧ ring = s.chooseRing p.src p.dst
  ∧ 2 ≤ s.ringFree ring p.src ∧ s.marked (.message p.src) 8 = false :=
  ⟨base, Ring.cw, 1, { src := 1, dst := 4, kind := default, flits := 3, tag := 0 }, by decide +kernel⟩

theorem holds_ringPacketArrive_2 : ∃ (s : State) (ring : Ring) (stop : Nat) (p : RingPacket) (full : Bool), s.powered
  = true ∧ stop < 24 ∧ p.src < 24 ∧ p.dst < 24 ∧ p.sized = true ∧ s.flt.entry = [] ∧ (s.ring.buffers.get [ring.code,
  prevStop ring stop]).contains p = true ∧ s.ringTurn ring (prevStop ring stop) p = true ∧ s.linkDown ring (prevStop
  ring stop) = false ∧ p.dst = stop ∧ full = false ∧ s.ringTakes ring stop = true :=
  ⟨{ base with ring := { buffers := ({} : SMap (List RingPacket)).set [Ring.cw.code, 2] [{ src := 1, dst := 3, kind := default, flits := 3, tag := 0 }] } },
    Ring.cw, 3, { src := 1, dst := 3, kind := default, flits := 3, tag := 0 }, false, by decide +kernel⟩

theorem holds_ringPacketArrive_3 : ∃ (s : State) (ring : Ring) (stop : Nat) (p : RingPacket), s.powered = true ∧ stop
  < 24 ∧ p.src < 24 ∧ p.dst < 24 ∧ p.sized = true ∧ s.flt.entry = [] ∧ (s.ring.buffers.get [ring.code, prevStop ring
  stop]).contains p = true ∧ s.ringTurn ring (prevStop ring stop) p = true ∧ s.linkDown ring (prevStop ring stop) =
  false ∧ p.dst ≠ stop ∧ s.ringTakes ring stop = true :=
  ⟨{ base with ring := { buffers := ({} : SMap (List RingPacket)).set [Ring.cw.code, 2] [{ src := 1, dst := 4, kind := default, flits := 3, tag := 0 }] } },
    Ring.cw, 3, { src := 1, dst := 4, kind := default, flits := 3, tag := 0 }, by decide +kernel⟩

theorem holds_ringPacketArrive_4 : ∃ (s : State) (ring : Ring) (stop : Nat) (p : RingPacket) (full : Bool), s.powered
  = true ∧ stop < 24 ∧ p.src < 24 ∧ p.dst < 24 ∧ p.sized = true ∧ s.flt.entry = [] ∧ (s.ring.buffers.get [ring.code,
  prevStop ring stop]).contains p = true ∧ s.ringTurn ring (prevStop ring stop) p = true ∧ s.linkDown ring (prevStop
  ring stop) = false ∧ p.dst = stop ∧ full = true ∧ s.ringTakes ring stop = true :=
  ⟨{ base with ring := { buffers := ({} : SMap (List RingPacket)).set [Ring.cw.code, 2] [{ src := 1, dst := 3, kind := default, flits := 3, tag := 0 }] } },
    Ring.cw, 3, { src := 1, dst := 3, kind := default, flits := 3, tag := 0 }, true, by decide +kernel⟩

theorem holds_ringPacketArrive_5 : ∃ (s : State) (ring : Ring) (stop : Nat) (p : RingPacket), s.powered = true ∧ stop
  < 24 ∧ p.src < 24 ∧ p.dst < 24 ∧ p.sized = true ∧ s.flt.entry = [] ∧ (s.ring.buffers.get [ring.code, prevStop ring
  stop]).contains p = true ∧ s.ringTurn ring (prevStop ring stop) p = true ∧ s.linkDown ring (prevStop ring stop) =
  true :=
  ⟨({ base with ring := { buffers := ({} : SMap (List RingPacket)).set [Ring.cw.code, 2] [{ src := 1, dst := 4, kind := default, flits := 3, tag := 0 }] } }).wr
    F.GLB_RING_LINK_CW_DOWN 4, Ring.cw, 3, { src := 1, dst := 4, kind := default, flits := 3, tag := 0 },
    by decide +kernel⟩

theorem holds_ringLinkFail : ∃ (s : State) (stop : Nat) (ps : List RingPacket), s.powered = true ∧ stop < 24 ∧
  s.flt.entry = [] ∧ (ps.all (fun p => p.kind != RingKind.fault) = true) :=
  ⟨base, 23, [], by decide +kernel⟩

theorem holds_ringLinkRestore : ∃ (s : State) (ring : Ring) (stop : Nat), s.powered = true ∧ stop < 24 ∧ s.linkDown
  ring stop = true :=
  ⟨base.wr F.GLB_RING_LINK_CW_DOWN 8, Ring.cw, 3, by decide +kernel⟩

theorem holds_ringAccessTimeout : ∃ (s : State) (a : Nat), s.powered = true ∧ a < 2 ^ 28 ∧ a % 4 = 0 :=
  ⟨base, 0x50, by decide +kernel⟩

theorem holds_mgtRead : ∃ (s : State) (src : Nat) (seq : Nat) (k : Nat) (r : Reg) (i : Nat) (j : Nat), s.active = true
  ∧ src < 2 ^ 48 ∧ seq < 65536 ∧ s.peerOf src = some k ∧ s.duplicateOf src seq = none ∧ s.stage ≠ stageFailed ∧ i <
  r.at.count1 ∧ j < r.at.count2 ∧ r.at.bits = 32 :=
  ⟨peered, 7, 1, 3, .GLB_ACCESS_ERR, 0, 0, by decide +kernel⟩

theorem holds_mgtRead_2 : ∃ (s : State) (src : Nat) (seq : Nat) (k : Nat) (a : Nat) (n : Nat), s.powered = true ∧ src
  < 2 ^ 48 ∧ seq < 65536 ∧ s.peerOf src = some k ∧ s.duplicateOf src seq = none ∧ s.stage ≠ stageFailed ∧ a % 4 = 0 ∧
  1 ≤ n ∧ n ≤ 256 :=
  ⟨peered, 7, 1, 3, 0x50, 256, by decide +kernel⟩

theorem holds_mgtWrite : ∃ (s : State) (src : Nat) (seq : Nat) (k : Nat) (r : Reg) (i : Nat) (j : Nat), s.active =
  true ∧ src < 2 ^ 48 ∧ seq < 65536 ∧ s.peerOf src = some k ∧ s.duplicateOf src seq = none ∧ s.stage ≠ stageFailed ∧ i
  < r.at.count1 ∧ j < r.at.count2 ∧ r.at.bits = 32 ∧ r.owner = PortClass.mgmt ∧ r.ownMeaning = false ∧ s.rwlLocked =
  false :=
  ⟨peered, 7, 1, 3, .EVR_CFG, 0, 0, by decide +kernel⟩

theorem holds_mgtWrite_2 : ∃ (s : State) (src : Nat) (seq : Nat) (k : Nat) (a : Nat), s.powered = true ∧ s.isSafe =
  true ∧ src < 2 ^ 48 ∧ seq < 65536 ∧ s.peerOf src = some k ∧ s.duplicateOf src seq = none ∧ s.stage ≠ stageFailed ∧ a
  % 4 = 0 :=
  ⟨peered.wr F.FLT_SELF_SAFE 1, 7, 1, 3, 0x500000, by decide +kernel⟩

theorem holds_mgtReset : ∃ (s : State) (src : Nat) (seq : Nat) (k : Nat), s.powered = true ∧ src < 2 ^ 48 ∧ seq <
  65536 ∧ s.peerOf src = some k ∧ s.duplicateOf src seq = none ∧ s.stage ≠ stageFailed :=
  ⟨peered, 7, 1, 3, by decide +kernel⟩

theorem holds_debugOpen : ∃ (s : State) (src : Nat) (seq : Nat) (k : Nat) (token : List Byte), s.debugRefusal token =
  0 ∧ s.powered = true ∧ src < 2 ^ 48 ∧ seq < 65536 ∧ s.peerOf src = some k ∧ s.duplicateOf src seq = none ∧ s.stage ≠
  stageFailed ∧ token.length = 32 :=
  ⟨armed, 7, 1, 3, List.replicate 32 1, refusal_none, by decide +kernel⟩

theorem holds_debugOpen_2 : ∃ (s : State) (src : Nat) (seq : Nat) (k : Nat) (token : List Byte), s.powered = true ∧
  src < 2 ^ 48 ∧ seq < 65536 ∧ s.peerOf src = some k ∧ s.duplicateOf src seq = none ∧ s.stage ≠ stageFailed ∧
  token.length = 32 :=
  ⟨peered, 7, 1, 3, List.replicate 32 1, by decide +kernel⟩

theorem holds_mgtFrameIgnored : ∃ (s : State) (c : MgtIgnored), s.powered = true ∧ (c = MgtIgnored.stranger ∨ c =
  MgtIgnored.otherAddress ∨ c = MgtIgnored.otherType) :=
  ⟨base, MgtIgnored.stranger, by decide +kernel⟩

theorem holds_mgtFrameIgnored_2 : ∃ (s : State), s.powered = true :=
  ⟨base, by decide +kernel⟩

theorem holds_mgtFrameIgnored_3 : ∃ (s : State) (src : Nat) (seq : Nat) (k : Nat) (type : Nat), s.powered = true ∧
  s.peerOf src = some k ∧ s.duplicateOf src seq = none ∧ (type = 0 ∨ mgtDebug < type) :=
  ⟨peered, 7, 1, 3, 9, by decide +kernel⟩

theorem holds_mgtDuplicate : ∃ (s : State) (src : Nat) (seq : Nat) (r : PeerLast), s.powered = true ∧ src < 2 ^ 48 ∧
  seq < 65536 ∧ s.duplicateOf src seq = some r :=
  ⟨{ peered with sec := { peers := ({} : SMap (Option PeerLast)).set [3] (some { seq := 4, type := 1, status := 0, count := 0, data := [] }) } },
    7, 4, { seq := 4, type := 1, status := 0, count := 0, data := [] }, by decide +kernel⟩

theorem holds_bootRom : ∃ (s : State) (k : Nat) (l : List Byte), s.powered = true ∧ s.stage = stageRom ∧ s.pwr.holdRom
  = false ∧ s.header = some (k, l) :=
  ⟨base, 0, base.sec.nvm.readN 0 16, by decide +kernel⟩

theorem holds_bootRom_2 : ∃ (s : State), s.powered = true ∧ s.stage = stageRom ∧ s.pwr.holdRom = false ∧ s.header =
  none :=
  ⟨{ base with sec := {} }, by decide +kernel⟩

theorem holds_bootNvmRead : ∃ (s : State), s.powered = true ∧ s.stage = stageNvmRead :=
  ⟨base.wr F.BOOT_STAT_STAGE stageNvmRead, by decide +kernel⟩

theorem holds_bootVerify : ∃ (s : State) (fwA : Bool) (fwB : Bool) (cfgA : Bool) (cfgB : Bool), (s.imagePasses false
  s.boot.fw (if activeSlot s.bootHeader false then fwB else fwA) = true) ∧ (s.imagePasses true s.boot.cfg (if
  activeSlot s.bootHeader true then cfgB else cfgA) = true) ∧ s.powered = true ∧ s.stage = stageVerify :=
  ⟨verifying, true, true, true, true, image_passes false 1 rfl, image_passes true 2 rfl, by decide +kernel⟩

theorem holds_bootVerify_2 : ∃ (s : State), s.powered = true ∧ s.stage = stageVerify :=
  ⟨base.wr F.BOOT_STAT_STAGE stageVerify, by decide +kernel⟩

theorem holds_bootFail : ∃ (s : State) (code : Nat), s.powered = true ∧ s.booting = true ∧ (code = failNvm ∨ code =
  failRail ∨ code = failPll) :=
  ⟨base, failPll, by decide +kernel⟩

theorem holds_bootConfig : ∃ (s : State), configWords s.boot.cfg = none ∧ s.powered = true ∧ s.stage = stageConfig :=
  ⟨{ base.wr F.BOOT_STAT_STAGE stageConfig with boot := { cfg := List.replicate 29924 1 } }, words_none,
    by decide +kernel⟩

theorem holds_bootConfig_2 : ∃ (s : State) (m : Nat) (ws : List (Nat × Nat)), s.powered = true ∧ s.stage = stageConfig
  ∧ configWords s.boot.cfg = some ws ∧ (ws.any badRole || (s.configLoaded ws (m % 2 ^ 412)).configBad) = true :=
  ⟨(base.wr F.BOOT_STAT_STAGE stageConfig).wr F.GLB_ROLE_ROLE 3, 0, [], by decide +kernel⟩

theorem holds_bootConfig_3 : ∃ (s : State) (m : Nat) (ws : List (Nat × Nat)), s.powered = true ∧ s.stage = stageConfig
  ∧ configWords s.boot.cfg = some ws ∧ (ws.any badRole || (s.configLoaded ws (m % 2 ^ 412)).configBad) = false :=
  ⟨(((base.wr F.BOOT_STAT_STAGE stageConfig).wr F.WLT_REGION_BASE 4096 1).wr F.WLT_REGION_BASE 8192 2).wr
    F.WLT_REGION_BASE 12288 3, 0, [], by decide +kernel⟩

theorem holds_bootMemory : ∃ (s : State) (bad : Nat), s.powered = true ∧ s.stage = stageMemory ∧ ((bitsOf s.mem.inUse
  16).all (fun c => !bad.testBit c) = true) :=
  ⟨{ base.wr F.BOOT_STAT_STAGE stageMemory with mem := { inUse := 0xFFFF } }, 0, by decide +kernel⟩

theorem holds_bootMemory_2 : ∃ (s : State) (bad : Nat) (c : Nat), s.powered = true ∧ s.stage = stageMemory ∧ c < 16 ∧
  s.mem.inUse.testBit c = true ∧ bad.testBit c = true :=
  ⟨{ base.wr F.BOOT_STAT_STAGE stageMemory with mem := { inUse := 0xFFFF } }, 16, 4, by decide +kernel⟩

theorem holds_bootLinks : ∃ (s : State), s.powered = true ∧ s.stage = stageLinks ∧ ((List.range 256).all (fun p =>
  !s.flag F.PRT_LINK_CFG_ENABLE p || s.bootPortReady p) = true) :=
  ⟨base.wr F.BOOT_STAT_STAGE stageLinks, by decide +kernel⟩

theorem holds_domainOffWrite : ∃ (s : State) (i : Nat) (j : Nat), s.active = true ∧ i < 7 ∧ j < 64 :=
  ⟨base, 6, 24, by decide +kernel⟩

theorem holds_domainPowerOff : ∃ (s : State) (d : Nat), s.powered = true ∧ d < 412 ∧ s.domainWanted d = false ∧
  (s.configured = true ∨ s.pwr.tripped = true) ∧ s.domainOn d = true :=
  ⟨(lit.wr F.BOOT_STAT_STAGE stageDone).wr F.PWR_HOST_OFF_OFF 2 0, 1, by decide +kernel⟩

theorem holds_domainPowerOn : ∃ (s : State) (d : Nat), s.powered = true ∧ d < 412 ∧ s.configured = true ∧
  (s.pwr.lastOn.all (fun x => decide (x + us 2 ≤ s.now)) = true) ∧ s.domainWanted d = true ∧ s.domainOn d = false ∧
  s.pwr.powering.get [d] = none ∧ ((List.range d).all (fun e => !(s.domainWanted e && !s.domainOn e &&
  (s.pwr.powering.get [e]).isNone)) = true) :=
  ⟨base.wr F.BOOT_STAT_STAGE stageDone, 0, by decide +kernel⟩

theorem holds_domainPowered : ∃ (s : State) (d : Nat) (at1 : Nat), s.powered = true ∧ d < 412 ∧ s.pwr.powering.get [d]
  = some at1 ∧ at1 + us 200 ≤ s.now :=
  ⟨{ base with now := us 200, pwr := { powering := ({} : SMap (Option Nat)).set [3] (some 0) } }, 3, 0,
    by decide +kernel⟩

theorem holds_pwrGoodRise : ∃ (s : State) (v : Nat), s.pwr.good = false ∧ 3900 ≤ v :=
  ⟨{ base with pwr := { good := false, dark := true } }, 3900, by decide +kernel⟩

theorem holds_pwrGoodRise_2 : ∃ (s : State) (v : Nat), s.pwr.good = false ∧ v < 3900 :=
  ⟨{ base with pwr := { good := false, dark := true } }, 3899, by decide +kernel⟩

theorem holds_inputStartThreshold : ∃ (s : State), s.pwr.good = true ∧ s.pwr.waiting = true :=
  ⟨{ base with pwr := { waiting := true, dark := true } }, by decide +kernel⟩

theorem holds_pwrGoodFall : ∃ (s : State), s.pwr.good = true :=
  ⟨base, by decide +kernel⟩

theorem holds_inputShutdown : ∃ (s : State), s.pwr.good = true ∧ s.pwr.dark = false :=
  ⟨base, by decide +kernel⟩

theorem holds_inputSample : ∃ (s : State) (v : Nat) (a : Nat), s.powered = true ∧ v < 65536 ∧ a < 65536 :=
  ⟨base, 4800, 65535, by decide +kernel⟩

theorem holds_railFault : ∃ (s : State) (stop : Nat) (rail : Nat), s.powered = true ∧ stop < 24 ∧ rail < 256 :=
  ⟨base, 23, 255, by decide +kernel⟩

theorem holds_thermalSample : ∃ (s : State) (l : List Nat) (k : Nat), s.powered = true ∧ l.length = 40 ∧ k < 40 ∧
  (s.rd F.PWR_THERM_CFG_TRIP : Int) * 8 ≤ toSigned 16 (l.getD k 0) ∧ s.pwr.hot.testBit k = true ∧ s.pwr.tripped =
  false :=
  ⟨{ base with pwr := { hot := 8 } }, List.replicate 40 880, 3, by decide +kernel⟩

theorem holds_thermalSample_2 : ∃ (s : State) (l : List Nat), s.powered = true ∧ l.length = 40 ∧ s.pwr.hot = 0 :=
  ⟨base, List.replicate 40 880, by decide +kernel⟩

theorem holds_pllLockChange : ∃ (s : State), s.powered = true :=
  ⟨base.wr F.PWR_CLK_STAT_LOCK 1, by decide +kernel⟩

theorem holds_resetN : ∃ (s : State), s.powered = true :=
  ⟨base, by decide +kernel⟩

theorem holds_resetNRelease : ∃ (s : State) (b : Nat), s.pwr.inReset = true ∧ b < 2048 :=
  ⟨{ base with pwr := { inReset := true } }, 2047, by decide +kernel⟩

theorem holds_mailboxTick : ∃ (s : State) (value at_ : Nat), s.host.deciding = some (value, at_) ∧ at_ ≤ s.now :=
  ⟨{ base with host := { deciding := some (2 ^ 63, 0) } }, 2 ^ 63, 0, rfl, by decide⟩

theorem holds_mbxCommandIssue : ∃ (s : State) (value : Nat) (c : MbxCmd), s.active = true ∧ (s.sec.orders.all (fun o
  => o.cycle != s.mgmtCycle || o.host) = true) ∧ s.marked .reset 16 = false ∧ value.testBit 63 = true ∧ s.flag
  F.HST_MBX_RESP_BUSY = false ∧ c = s.mbxCmd value ∧ s.mbxCode c = 0 ∧ c.opcode ≠ oAbort ∧ c.opcode ≠ oMemberReplace
  :=
  ⟨base.wr F.HST_MBX_RESP_BUSY 0, 2 ^ 63 + 2 ^ 62 + 5 * 2 ^ 48 + 9 * 2 ^ 40 + 0x10 * 2 ^ 32, (base.wr
    F.HST_MBX_RESP_BUSY 0).mbxCmd (2 ^ 63 + 2 ^ 62 + 5 * 2 ^ 48 + 9 * 2 ^ 40 + 0x10 * 2 ^ 32), by decide +kernel⟩

theorem holds_mbxCommandIssue_2 : ∃ (s : State) (value : Nat) (c : MbxCmd), s.active = true ∧ (s.sec.orders.all (fun o
  => o.cycle != s.mgmtCycle || o.host) = true) ∧ s.marked .reset 16 = false ∧ value.testBit 63 = true ∧ s.flag
  F.HST_MBX_RESP_BUSY = false ∧ c = s.mbxCmd value ∧ s.mbxCode c ≠ 0 :=
  ⟨base.wr F.HST_MBX_RESP_BUSY 0, 2 ^ 63 + 2 ^ 32, (base.wr F.HST_MBX_RESP_BUSY 0).mbxCmd (2 ^ 63 + 2 ^ 32),
    by decide +kernel⟩

theorem holds_mbxCommandIssue_3 : ∃ (s : State) (value : Nat), s.active = true ∧ s.marked .reset 16 = false ∧
  value.testBit 63 = true ∧ s.flag F.HST_MBX_RESP_BUSY = true :=
  ⟨base, 2 ^ 63, by decide +kernel⟩

theorem holds_mbxCommandIssue_4 : ∃ (s : State) (value : Nat) (delay : Nat), s.active = true ∧ (s.sec.orders.all (fun
  o => o.cycle != s.mgmtCycle || o.host) = true) ∧ s.marked .reset 16 = false ∧ value.testBit 63 = true ∧ s.flag
  F.HST_MBX_RESP_BUSY = false ∧ delay ≠ 0 :=
  ⟨base.wr F.HST_MBX_RESP_BUSY 0, 2 ^ 63 + 2 ^ 62 + 5 * 2 ^ 48 + 9 * 2 ^ 40 + 0x10 * 2 ^ 32, 9999999,
    by decide +kernel⟩

theorem holds_mbxAbort : ∃ (s : State) (slot : Nat) (op : LongOp), s.active = true ∧ (s.sec.orders.all (fun o =>
  o.cycle != s.mgmtCycle || o.host) = true) ∧ s.marked .reset 16 = false ∧ slot < 8 ∧ s.flag F.HST_MBX_RESP_BUSY =
  false ∧ s.hostOp slot = some op ∧ op.opcode ≠ oPlanRetire ∧ (op.opcode = oPlanLoad → s.planState = planEmpty) :=
  ⟨slotted oMemRead [0, 0, 8192] (base.wr F.HST_MBX_RESP_BUSY 0), 3, job oMemRead [0, 0, 8192], by decide +kernel⟩

theorem holds_longOperationEnd : ∃ (s : State) (slot : Nat) (op : LongOp), s.active = true ∧ slot < 8 ∧ s.hostOp slot
  = some op ∧ op.opcode ≠ oPlanLoad :=
  ⟨slotted oMemRead [0, 0, 8192] base, 3, job oMemRead [0, 0, 8192], by decide +kernel⟩

theorem holds_longOperationEnd_2 : ∃ (s : State) (slot : Nat) (op : LongOp) (l : Nat) (rank : Nat) (port : Nat) (ident
  : Nat) (r : Nat), s.active = true ∧ slot < 8 ∧ s.opIn slot oMemberReplace = some op ∧ op.loading = true ∧
  replaceArgs op.args = (l, rank, port, ident) ∧ s.operandOf l rank = some r ∧ s.flag F.LST_MEMBER_PRESENT l r = true
  ∧ s.keepsFence port = false :=
  ⟨((lit.wr F.LST_CFG_OPERANDS 4 2).wr F.LST_MEMBER_PRESENT 1 2 1).putOp 3
    { job oMemberReplace [2 + 256 + 7 * 2 ^ 24 + 5 * 2 ^ 32] with loading := true }, 3,
    { job oMemberReplace [2 + 256 + 7 * 2 ^ 24 + 5 * 2 ^ 32] with loading := true }, 2, 1, 7, 5, 1, by decide +kernel⟩

theorem holds_hostLinkDown : ∃ (s : State), s.powered = true ∧ s.flag F.HST_LINK_STAT_UP = true ∧ s.slotOf oPlanLoad =
  none :=
  ⟨slotted oMemRead [0, 0, 8192] (base.wr F.HST_LINK_STAT_UP 1), by decide +kernel⟩

theorem holds_planLoad : ∃ (s : State) (slot : Nat) (op : LongOp), s.active = true ∧ slot < 8 ∧ s.opIn slot oPlanLoad
  = some op ∧ op.loading = false :=
  ⟨slotted oPlanLoad [0, 112] base, 3, job oPlanLoad [0, 112], by decide +kernel⟩

theorem holds_planLoad_2 : ∃ (s : State) (slot : Nat) (op : LongOp) (l : List Byte), s.active = true ∧ slot < 8 ∧
  s.opIn slot oPlanLoad = some op ∧ op.loading = false ∧ (s.undoPlan.stageImage (ceilDiv (op.args.getD 1 0)
  131072)).isSome = true ∧ planWords ((l ++ List.replicate (op.args.getD 1 0) 0).take (op.args.getD 1 0)) = none :=
  ⟨slotted oPlanLoad [0, 112] pooled.rememberLoaded, 3, job oPlanLoad [0, 112], List.replicate 112 0,
    by decide +kernel⟩

theorem holds_planLoad_3 : ∃ (s : State) (slot : Nat) (op : LongOp) (l : List Byte) (ws : List (Hit × Nat)) (h : Hit)
  (v : Nat), s.active = true ∧ slot < 8 ∧ s.opIn slot oPlanLoad = some op ∧ op.loading = false ∧
  (s.undoPlan.stageImage (ceilDiv (op.args.getD 1 0) 131072)).isSome = true ∧ planWords ((l ++ List.replicate
  (op.args.getD 1 0) 0).take (op.args.getD 1 0)) = some (ws ++ [(h, v)]) :=
  ⟨slotted oPlanLoad [0, 112] pooled.rememberLoaded, 3, job oPlanLoad [0, 112], planImage 0x40001, [],
    { reg := .LST_PLAN_CFG, i := 0, j := 0, high := false }, 0x40001, by decide +kernel⟩

theorem holds_planCheck : ∃ (s : State) (slot : Nat) (op : LongOp), s.active = true ∧ s.slotOf oPlanLoad = some slot ∧
  s.hostOp slot = some op ∧ op.loading = true ∧ s.planState = planChecking ∧ ((s.takeOutcomes.planChecks.filter (fun c
  => c.2.1)).all (fun c => c.2.2 && c.1 != 0x0B) = true) :=
  ⟨loadedPlan, 3, { job oPlanLoad [0, 112] with loading := true, progress := 1 }, by decide +kernel⟩

theorem holds_planCheck_2 : ∃ (s : State) (slot : Nat) (op : LongOp) (c : Nat × Bool × Bool), s.active = true ∧
  s.slotOf oPlanLoad = some slot ∧ s.hostOp slot = some op ∧ op.loading = true ∧ s.planState = planChecking ∧
  ((s.takeOutcomes.planChecks.filter (fun c => c.2.1)).find? (fun c => !c.2.2) = some c) :=
  ⟨loadedPlan.wr F.GLB_ROLE_ROLE 1, 3, { job oPlanLoad [0, 112] with loading := true, progress := 1 }, (0x04, true,
    false), by decide +kernel⟩

theorem holds_planCheck_3 : ∃ (s : State) (slot : Nat) (op : LongOp), s.active = true ∧ s.slotOf oPlanLoad = some slot
  ∧ s.hostOp slot = some op ∧ op.loading = true ∧ s.planState = planChecking ∧ ((s.takeOutcomes.planChecks.filter (fun
  c => c.2.1)).all (fun c => c.2.2) = true) ∧ ((s.takeOutcomes.planChecks.filter (fun c => c.2.1)).any (fun c => c.1
  == 0x0B) = true) :=
  ⟨{ crossed.wr F.LST_PLAN_STAT_STATE planChecking with host := loadedPlan.host }, 3,
    { job oPlanLoad [0, 112] with loading := true, progress := 1 }, by decide +kernel⟩

theorem holds_planAcceptDegraded : ∃ (s : State) (slot : Nat) (op : LongOp), s.active = true ∧ slot < 8 ∧ s.opIn slot
  oAcceptDegraded = some op ∧ s.planState = planDegraded :=
  ⟨slotted oAcceptDegraded [] (base.wr F.LST_PLAN_STAT_STATE planDegraded), 3, job oAcceptDegraded [],
    by decide +kernel⟩

theorem holds_planRetire : ∃ (s : State) (slot : Nat) (op : LongOp), s.active = true ∧ slot < 8 ∧ s.opIn slot
  oPlanRetire = some op ∧ s.planState = planDegraded :=
  ⟨slotted oPlanRetire [] (base.wr F.LST_PLAN_STAT_STATE planDegraded), 3, job oPlanRetire [], by decide +kernel⟩

theorem holds_planRetire_2 : ∃ (s : State) (slot : Nat) (op : LongOp), s.active = true ∧ slot < 8 ∧ s.opIn slot
  oPlanRetire = some op ∧ s.planState = planAccepted :=
  ⟨slotted oPlanRetire [] locked, 3, job oPlanRetire [], by decide +kernel⟩

theorem holds_planRetired : ∃ (s : State) (slot : Nat) (op : LongOp), s.active = true ∧ s.planState = planRetiring ∧
  s.allIdle = true ∧ s.slotOf oPlanRetire = some slot ∧ s.hostOp slot = some op :=
  ⟨slotted oPlanRetire [] (base.wr F.LST_PLAN_STAT_STATE planRetiring), 3, job oPlanRetire [], by decide +kernel⟩

theorem holds_remap : ∃ (s : State) (slot : Nat) (op : LongOp), s.active = true ∧ slot < 8 ∧ s.opIn slot oRemap = some
  op ∧ s.remapOk (namedPorts op.args) = true :=
  ⟨slotted oRemap [3, 0, 0, 0] crossed, 3, job oRemap [3, 0, 0, 0], by decide +kernel⟩

theorem holds_remap_2 : ∃ (s : State) (slot : Nat) (op : LongOp), s.active = true ∧ slot < 8 ∧ s.opIn slot oRemap =
  some op ∧ s.remapOk (namedPorts op.args) = false :=
  ⟨slotted oRemap [1, 0, 0, 0] crossed, 3, job oRemap [1, 0, 0, 0], by decide +kernel⟩

theorem holds_memberReplace : ∃ (s : State) (slot : Nat) (op : LongOp) (l : Nat) (rank : Nat) (port : Nat) (ident :
  Nat) (r : Nat), s.active = true ∧ slot < 8 ∧ s.opIn slot oMemberReplace = some op ∧ s.host.deciding = none ∧
  op.loading = false ∧ replaceArgs op.args = (l, rank, port, ident) ∧ s.operandOf l rank = some r :=
  ⟨slotted oMemberReplace [256 + 2 ^ 24 + 5 * 2 ^ 32] crossed, 3, job oMemberReplace [256 + 2 ^ 24 + 5 * 2 ^ 32], 0,
    1, 1, 5, 1, by decide +kernel⟩

theorem holds_memberReplaceTimeout : ∃ (s : State) (slot : Nat) (op : LongOp) (n : Nat), s.active = true ∧ slot < 8 ∧
  s.opIn slot oMemberReplace = some op ∧ op.loading = true ∧ n = bits (op.args.getD 1 0) 31 0 ∧ n ≠ 0 ∧ op.since + ms
  n ≤ s.now :=
  ⟨{ base.putOp 3 { job oMemberReplace [0, 2] with loading := true } with now := ms 2 }, 3,
    { job oMemberReplace [0, 2] with loading := true }, 2, by decide +kernel⟩

theorem holds_memRead : ∃ (s : State) (slot : Nat) (op : LongOp) (sp : Nat) (a : Nat) (h : Nat) (n : Nat) (l : List
  Byte) (u : State), s.readUnit sp a = (some l, u) ∧ s.active = true ∧ slot < 8 ∧ s.opIn slot oMemRead = some op ∧ n =
  op.args.getD 2 0 / 4096 ∧ op.progress < n ∧ sp = memSpace op.args ∧ a = memAddr op.args + 4096 * op.progress ∧ h =
  op.args.getD 1 0 + 4096 * op.progress ∧ (s.allocNow (.block 4096) 17 reqMgt).1.isSome = true ∧ (sp = 0 →
  s.aheadOfHost [a] 4096 = false) ∧ s.spaceUp sp a = true ∧ (sp = 3 → s.mem.keyed = true) :=
  ⟨slotted oMemRead [2 ^ 62, 0x5000, 4096] (pooled.wr F.MEM_CXL_STAT_UP 1 0), 3, job oMemRead [2 ^ 62, 0x5000, 4096],
    1, 0, 0x5000, 1, (slotted oMemRead [2 ^ 62, 0x5000, 4096] (pooled.wr F.MEM_CXL_STAT_UP 1 0)).cxlRead 0 0 4096,
    slotted oMemRead [2 ^ 62, 0x5000, 4096] (pooled.wr F.MEM_CXL_STAT_UP 1 0), rfl, by decide +kernel⟩

theorem holds_memWrite : ∃ (s : State) (slot : Nat) (op : LongOp) (sp : Nat) (a : Nat) (n : Nat) (l : List Byte),
  l.length = 4096 ∧ s.active = true ∧ slot < 8 ∧ s.opIn slot oMemWrite = some op ∧ n = op.args.getD 2 0 / 4096 ∧
  op.progress < n ∧ sp = memSpace op.args ∧ (sp = 1 ∨ sp = 2) ∧ a = memAddr op.args + 4096 * op.progress ∧ s.cxlUp (sp
  - 1) = true ∧ (s.mem.cxl.get [sp - 1]).wf = true ∧ (s.allocNow (.block 4096) 17 reqMgt).1.isSome = true :=
  ⟨slotted oMemWrite [2 ^ 62, 0x5000, 8192] (pooled.wr F.MEM_CXL_STAT_UP 1 0), 3, job oMemWrite [2 ^ 62, 0x5000,
    8192], 1, 0, 2, List.replicate 4096 7, List.length_replicate, by decide +kernel⟩

theorem holds_memWrite_2 : ∃ (s : State) (slot : Nat) (op : LongOp) (sp : Nat) (a : Nat) (n : Nat), s.active = true ∧
  slot < 8 ∧ s.opIn slot oMemWrite = some op ∧ n = op.args.getD 2 0 / 4096 ∧ op.progress < n ∧ sp = memSpace op.args ∧
  a = memAddr op.args + 4096 * op.progress ∧ s.spaceUp sp a = true ∧ (sp = 3 → s.mem.keyed = true) ∧ (sp = 0 →
  s.aheadOfHost [a] 4096 = false) :=
  ⟨slotted oMemWrite [0, 0x5000, 8192] base, 3, job oMemWrite [0, 0x5000, 8192], 0, 0, 2, by decide +kernel⟩

theorem holds_attest : ∃ (s : State) (slot : Nat) (op : LongOp), s.active = true ∧ slot < 8 ∧ s.opIn slot oAttest =
  some op ∧ s.sec.secret = true ∧ op.args.getD 0 0 + 30048 ≤ 2 ^ 64 :=
  ⟨slotted oAttest [0x5000] { base with sec := { secret := true } }, 3, job oAttest [0x5000], by decide +kernel⟩

theorem holds_identRead : ∃ (s : State) (slot : Nat) (op : LongOp), s.active = true ∧ slot < 8 ∧ s.opIn slot
  oIdentRead = some op :=
  ⟨slotted oIdentRead [0x5000] base, 3, job oIdentRead [0x5000], by decide +kernel⟩

theorem holds_memWrite_3 : ∃ (s : State) (slot : Nat) (op : LongOp) (sp : Nat) (a : Nat) (n : Nat), s.active = true ∧
  slot < 8 ∧ s.opIn slot oMemWrite = some op ∧ n = op.args.getD 2 0 / 4096 ∧ op.progress < n ∧ sp = memSpace op.args ∧
  sp ≠ 0 ∧ a = memAddr op.args + 4096 * op.progress ∧ s.spaceUp sp a = true ∧ (sp = 3 → s.mem.keyed = true) :=
  ⟨slotted oMemWrite [2 ^ 62, 0x5000, 8192] (base.wr F.MEM_CXL_STAT_UP 1 0), 3, job oMemWrite [2 ^ 62, 0x5000, 8192],
    1, 0, 2, by decide +kernel⟩

theorem holds_imageWrite : ∃ (s : State) (slot : Nat) (op : LongOp) (l : List Byte) (b : Bool) (u : State), u =
  s.program (nvmSlot (op.flags.testBit 0) b) (ceilDiv l.length 4096 * 4096) l ∧ s.active = true ∧ slot < 8 ∧ s.opIn
  slot oImageWrite = some op ∧ l.length = op.args.getD 1 0 ∧ b = !activeSlot s.bootHeader (op.flags.testBit 0) ∧
  s.sec.nvm.wf = true ∧ l.length ≤ nvmSlotSize (op.flags.testBit 0) :=
  ⟨slotted oImageWrite [0x5000, 100] base, 3, job oImageWrite [0x5000, 100], List.replicate 100 7, true, (slotted
    oImageWrite [0x5000, 100] base).program (nvmSlot false true) 4096 (List.replicate 100 7), rfl, by decide +kernel⟩

theorem holds_imageWrite_2 : ∃ (s : State) (slot : Nat) (op : LongOp) (l : List Byte) (b : Bool) (k : Nat), l.length <
  op.args.getD 1 0 ∧ k = l.length / 4096 ∧ l.length ≤ nvmSlotSize (op.flags.testBit 0) ∧ s.active = true ∧ slot < 8 ∧
  s.opIn slot oImageWrite = some op ∧ b = !activeSlot s.bootHeader (op.flags.testBit 0) ∧ s.sec.nvm.wf = true :=
  ⟨slotted oImageWrite [0x5000, 8192] base, 3, job oImageWrite [0x5000, 8192], List.replicate 5000 7, true, 1,
    (List.length_replicate ▸ (by decide : 5000 < 8192)), (List.length_replicate ▸ (by decide : 1 = 5000 / 4096)),
    (List.length_replicate ▸ (by decide : 5000 ≤ nvmSlotSize false)), by decide +kernel⟩

theorem holds_svnCommit : ∃ (s : State) (slot : Nat) (op : LongOp), s.active = true ∧ slot < 8 ∧ s.opIn slot
  oSvnCommit = some op :=
  ⟨slotted oSvnCommit [] (base.wr F.BOOT_VERSION_FW_SVN 3), 3, job oSvnCommit [], by decide +kernel⟩

theorem holds_debugTokenSet : ∃ (s : State) (slot : Nat) (op : LongOp), s.active = true ∧ slot < 8 ∧ s.opIn slot
  oTokenSet = some op :=
  ⟨slotted oTokenSet [1, 2, 3, 4] base, 3, job oTokenSet [1, 2, 3, 4], by decide +kernel⟩

theorem holds_gddrCrcRetry : ∃ (s : State) (ch : Nat), s.powered = true ∧ ch < 16 ∧ s.rd F.MEM_CH_STAT_STATE ch = 2 :=
  ⟨base.wr F.MEM_CH_STAT_STATE 2 3, 3, by decide +kernel⟩

theorem holds_gddrCrcRetry_2 : ∃ (s : State) (ch : Nat) (a : Nat), s.powered = true ∧ ch < 16 ∧ s.rd
  F.MEM_CH_STAT_STATE ch = 2 ∧ s.gddrChannel a = ch :=
  ⟨(base.wr F.MEM_CH_STAT_STATE 2 4), 4, 4096, by decide +kernel⟩

theorem holds_gddrChannelFail : ∃ (s : State) (ch : Nat), s.powered = true ∧ ch < 16 ∧ s.rd F.MEM_CH_STAT_STATE ch = 2
  ∧ s.marked .map = false :=
  ⟨base.wr F.MEM_CH_STAT_STATE 2 15, 15, by decide +kernel⟩

theorem holds_cxlLinkDown : ∃ (s : State) (i : Nat), s.powered = true ∧ i < 2 ∧ s.cxlUp i = true ∧ s.flt.cond.get [50,
  stopMgt, i] = false :=
  ⟨base.wr F.MEM_CXL_STAT_UP 1 1, 1, by decide +kernel⟩

theorem holds_cxlLinkUp : ∃ (s : State) (i : Nat) (speed : Nat) (width : Nat), s.powered = true ∧ i < 2 ∧ s.cxlUp i =
  false ∧ s.domainOn (409 + i) = true ∧ stageMemory ≤ s.stage ∧ s.stage ≠ stageFailed ∧ speed < 16 ∧ width < 16 :=
  ⟨lit.wr F.BOOT_STAT_STAGE stageMemory, 1, 5, 15, by decide +kernel⟩

theorem holds_hostLinkUp : ∃ (s : State) (speed : Nat) (width : Nat), s.powered = true ∧ s.flag F.HST_LINK_STAT_UP =
  false ∧ s.domainOn 408 = true ∧ stageMemory ≤ s.stage ∧ s.stage ≠ stageFailed ∧ speed < 16 ∧ width < 16 :=
  ⟨lit.wr F.BOOT_STAT_STAGE stageMemory, 5, 15, by decide +kernel⟩

theorem holds_laneCommaBlock : ∃ (s : State) (p : Nat) (k : Nat) (v : Nat) (c : Comma), s.powered = true ∧ p < 256 ∧ k
  < 4 ∧ s.portOff p = false ∧ s.testOn p = false ∧ s.rd F.PRT_LINK_STAT_STATE p ≠ linkTest ∧ v < 2 ^ 120 ∧ readComma v
  = some c ∧ c.mode = s.rd F.PRT_LINK_CFG_RATE p ∧ (s.lane p k).state = .hunt :=
  ⟨(((lit.wr F.PRT_LSM_STAT_ENABLED 1 0).wr F.PRT_LINK_CFG_ENABLE 1 9).wr F.PRT_LINK_CFG_RATE 1 9).setLane 9 1
    { signal := true }, 9, 1, Comma.bits { port := 1, pcount := 7, mode := 1, lane := 2 },
    { port := 1, pcount := 7, mode := 1, lane := 2 }, by decide +kernel⟩

theorem holds_laneCommaBlock_2 : ∃ (s : State) (p : Nat) (k : Nat) (v : Nat) (c : Comma), s.powered = true ∧ p < 256 ∧
  k < 4 ∧ s.portOff p = false ∧ s.testOn p = false ∧ s.rd F.PRT_LINK_STAT_STATE p ≠ linkTest ∧ v < 2 ^ 120 ∧ readComma
  v = some c ∧ c.mode = s.rd F.PRT_LINK_CFG_RATE p ∧ (s.lane p k).state = .verify ∧ 3 ≤ (s.lane p k).count + 1 :=
  ⟨(((lit.wr F.PRT_LSM_STAT_ENABLED 1 0).wr F.PRT_LINK_CFG_ENABLE 1 9).wr F.PRT_LINK_CFG_RATE 1 9).setLane 9 1
    { state := .verify, count := 2, signal := true }, 9, 1, Comma.bits
    { port := 1, pcount := 7, mode := 1, lane := 2 }, { port := 1, pcount := 7, mode := 1, lane := 2 },
    by decide +kernel⟩

theorem holds_laneCommaBlock_3 : ∃ (s : State) (p : Nat) (k : Nat), s.powered = true ∧ p < 256 ∧ k < 4 ∧ s.portOff p =
  false ∧ s.rd F.PRT_LINK_STAT_STATE p ≠ linkTest ∧ ((s.lane p k).state = .verify ∨ ((s.lane p k).state = .locked ∧ 4
  ≤ (s.lane p k).misses + 1)) :=
  ⟨(((lit.wr F.PRT_LSM_STAT_ENABLED 1 0).wr F.PRT_LINK_CFG_ENABLE 1 9).wr F.PRT_LINK_CFG_RATE 1 9).setLane 9 1
    { state := .locked, misses := 3 }, 9, 1, by decide +kernel⟩

theorem holds_lossOfSignal : ∃ (s : State) (p : Nat) (k : Nat), s.powered = true ∧ p < 256 ∧ k < 4 :=
  ⟨(((lit.wr F.PRT_LSM_STAT_ENABLED 1 0).wr F.PRT_LINK_CFG_ENABLE 1 9).wr F.PRT_LINK_CFG_RATE 1 9).setLane 9 1
    { state := .locked, signal := true }, 9, 1, by decide +kernel⟩

theorem holds_codewordDecode : ∃ (s : State) (p : Nat) (k : Nat) (n : Nat) (x : Nat), s.powered = true ∧ p < 256 ∧ k <
  4 ∧ n ≤ 15 ∧ x < 2 ^ 5140 :=
  ⟨linked, 9, 3, 15, 2 ^ 5139 + 5, by decide +kernel⟩

theorem holds_codewordDecode_2 : ∃ (s : State) (p : Nat) (l : Nat) (k : Nat) (x : Nat), s.powered = true ∧ p < 256 ∧ l
  < 4 ∧ x < 2 ^ 5140 ∧ (lanes4.find? (fun k => (s.lane p k).lane == l) = some k) ∧ (s.lane p k).state = .locked ∧ 32 ≤
  (s.lane p k).uncorrRun + 1 :=
  ⟨aligned.setLane 9 1 { (aligned.lane 9 1) with uncorrRun := 31 }, 9, 2, 1, 0, by decide +kernel⟩

theorem holds_laneDeskew : ∃ (s : State) (p : Nat), s.powered = true ∧ p < 256 ∧ s.rd F.PRT_LINK_STAT_STATE p =
  linkDeskew ∧ (∀ k < 4, (s.lane p k).state = .locked ∧ (s.lane p k).pcount = (s.lane p 0).pcount) ∧ ((lanes4.map (fun
  k => (s.lane p k).lane)).Nodup) ∧ (∀ j < 4, ∀ k < 4, (s.lane p j).arrived ≤ (s.lane p k).arrived + 504) :=
  ⟨aligned, 9, by decide +kernel⟩

theorem holds_laneDeskew_2 : ∃ (s : State) (p : Nat), s.powered = true ∧ p < 256 ∧ s.rd F.PRT_LINK_STAT_STATE p =
  linkDeskew ∧ (¬(lanes4.map (fun k => (s.lane p k).lane)).Nodup) ∧ 8 ≤ (s.port p).deskewFails + 1 :=
  ⟨((lit.wr F.PRT_LINK_CFG_ENABLE 1 9).wr F.PRT_LINK_STAT_STATE linkDeskew 9).setPort 9 (fun pt =>
    { pt with deskewFails := 7 }), 9, by decide +kernel⟩

theorem holds_portDown : ∃ (s : State) (p : Nat) (k : Nat), s.powered = true ∧ p < 256 ∧ k < 4 ∧ s.portUp p = true ∧
  s.marked (.remapped p) = false ∧ (s.lane p k).state ≠ .locked :=
  ⟨linked, 9, 2, by decide +kernel⟩

theorem holds_dataBlock : ∃ (s : State) (p : Nat) (b : RxBlock) (rest : List RxBlock), s.active = true ∧ p < 256 ∧
  s.portUp p = true ∧ (s.lane p (s.physical p ((s.port p).slot % 4))).blocks = b :: rest ∧ b.header = 1 :=
  ⟨linked.setLane 9 ((linked).physical 9 0)
    { (linked.lane 9 (linked.physical 9 0)) with blocks := [{ header := 1, data := [1], uncorr := true }] }, 9,
    { header := 1, data := [1], uncorr := true }, [], by decide +kernel⟩

theorem holds_dataBlock_2 : ∃ (s : State) (p : Nat) (b : RxBlock) (rest : List RxBlock), s.active = true ∧ p < 256 ∧
  s.portUp p = true ∧ (s.lane p (s.physical p ((s.port p).slot % 4))).blocks = b :: rest ∧ (b.header = 0 ∨ b.header =
  3) :=
  ⟨linked.setLane 9 ((linked).physical 9 0)
    { (linked.lane 9 (linked.physical 9 0)) with blocks := [{ header := 3, data := [1], uncorr := false }] }, 9,
    { header := 3, data := [1], uncorr := false }, [], by decide +kernel⟩

theorem holds_frameReceive : ∃ (s : State) (p : Nat) (f : Frame) (rest : List (Byte × Bool)), s.active = true ∧ p <
  256 ∧ s.portUp p = true ∧ (s.port p).rxSkip = false ∧ scanFrame (s.port p).rx = .frame f rest :=
  ⟨linked.setPort 9 (fun pt => { pt with rx := (0x07#8, false) :: rxBytes aFrame }), 9, aFrame, [], by decide +kernel⟩

theorem holds_frameReceive_2 : ∃ (s : State) (p : Nat) (f : Frame) (rest : List (Byte × Bool)), s.active = true ∧ p <
  256 ∧ s.portUp p = true ∧ (s.port p).rxSkip = false ∧ scanFrame (s.port p).rx = .frame f rest ∧ s.flag
  F.PRT_DISC_QUAR p = false ∧ f.sched = true :=
  ⟨linked.setPort 9 (fun pt => { pt with rx := rxBytes { aFrame with sched := true } }), 9,
    { aFrame with sched := true }, [], by decide +kernel⟩

theorem holds_frameReceive_3 : ∃ (s : State) (p : Nat) (f : Frame) (rest : List (Byte × Bool)), s.active = true ∧ p <
  256 ∧ s.portUp p = true ∧ (s.port p).rxSkip = false ∧ scanFrame (s.port p).rx = .frame f rest ∧ s.flag
  F.PRT_DISC_QUAR p = true :=
  ⟨(linked.wr F.PRT_DISC_QUAR 1 9).setPort 9 (fun pt => { pt with rx := rxBytes aFrame }), 9, aFrame, [],
    by decide +kernel⟩

theorem holds_frameReceive_4 : ∃ (s : State) (p : Nat) (rest : List (Byte × Bool)) (skip : Bool), s.active = true ∧ p
  < 256 ∧ s.portUp p = true ∧ (s.port p).rxSkip = false ∧ scanFrame (s.port p).rx = .bad .crc rest skip :=
  ⟨linked.setPort 9 (fun pt => { pt with rx := (0xFB#8, true) :: (1#8, false) :: rxBytes aFrame }), 9, (1#8, false) ::
    rxBytes aFrame, true, by decide +kernel⟩

theorem holds_controlBlock : ∃ (s : State) (p : Nat) (b : RxBlock) (rest : List RxBlock), s.active = true ∧ p < 256 ∧
  s.portUp p = true ∧ (s.lane p (s.physical p ((s.port p).slot % 4))).blocks = b :: rest ∧ b.header = 2 ∧ (b.uncorr =
  true ∨ ctlOk b.data = false) :=
  ⟨linked.setLane 9 ((linked).physical 9 0)
    { (linked.lane 9 (linked.physical 9 0)) with blocks := [{ header := 2, data := [1], uncorr := false }] }, 9,
    { header := 2, data := [1], uncorr := false }, [], by decide +kernel⟩

theorem holds_controlBlock_2 : ∃ (s : State) (p : Nat) (b : RxBlock) (rest : List RxBlock), s.active = true ∧ p < 256
  ∧ s.portUp p = true ∧ (s.lane p (s.physical p ((s.port p).slot % 4))).blocks = b :: rest ∧ b.header = 2 ∧ b.uncorr =
  false ∧ ctlOk b.data = true ∧ 1 ≤ (readCtl b.data).ctype ∧ (readCtl b.data).ctype ≤ 3 :=
  ⟨linked.setLane 9 ((linked).physical 9 0)
    { (linked.lane 9 (linked.physical 9 0)) with blocks := [{ header := 2, data := ctlBytes 3 0 0 (List.replicate 56 0), uncorr := false }] },
    9, { header := 2, data := ctlBytes 3 0 0 (List.replicate 56 0), uncorr := false }, [], by decide +kernel⟩

theorem holds_flowBlock : ∃ (s : State) (p : Nat) (c : CtlBlock), s.active = true ∧ p < 256 ∧ s.portUp p = true ∧
  ((s.port p).ctl.find? (fun c => c.ctype == 1) = some c) ∧ field c.body 0 1 = 0 ∧ s.creditMode p = false :=
  ⟨waitingCtl { ctype := 1, cflags := 0, iseq := 0, body := [0, 0x81] } linked, 9,
    { ctype := 1, cflags := 0, iseq := 0, body := [0, 0x81] }, by decide +kernel⟩

theorem holds_flowBlock_2 : ∃ (s : State) (p : Nat) (c : CtlBlock) (v : Nat), s.active = true ∧ p < 256 ∧ v < 8 ∧
  s.portUp p = true ∧ ((s.port p).ctl.find? (fun c => c.ctype == 1) = some c) ∧ field c.body 0 1 = 1 :=
  ⟨waitingCtl { ctype := 1, cflags := 0, iseq := 0, body := [1, 0, 0, 0, 0, 0, 0, 0, 5] } linked, 9,
    { ctype := 1, cflags := 0, iseq := 0, body := [1, 0, 0, 0, 0, 0, 0, 0, 5] }, 0, by decide +kernel⟩

theorem holds_xoffStateChange : ∃ (s : State) (p : Nat) (v : Nat), s.active = true ∧ p < 256 ∧ v < 8 ∧ s.creditMode p
  = false ∧ 64 * s.rd F.PRT_FC_CFG_XOFF_AT p v ≤ s.fifoOf p v :=
  ⟨(linked.wr F.PRT_FC_CFG_XOFF_AT 2 9 1).setPort 9 (fun pt => { pt with fifo := [0, 128] }), 9, 1, by decide +kernel⟩

theorem holds_xoffStateChange_2 : ∃ (s : State) (p : Nat) (v : Nat), s.active = true ∧ p < 256 ∧ v < 8 ∧ s.fifoTotal p
  ≤ 512 * s.rd F.PRT_LINK_CFG_TOTAL_AT p ∧ s.fifoTotal p < 1024 * s.rd F.PRT_LINK_CFG_TOTAL_AT p ∧ s.fifoOf p v < 64 *
  s.rd F.PRT_FC_CFG_XOFF_AT p v ∧ s.fifoOf p v ≤ 64 * s.rd F.PRT_FC_CFG_XON_AT p v :=
  ⟨(((linked.wr F.PRT_LINK_CFG_TOTAL_AT 4 9).wr F.PRT_FC_CFG_XOFF_AT 2 9 1).wr F.PRT_FC_CFG_XON_AT 1 9 1).setPort 9
    (fun pt => { pt with fifo := [0, 64] }), 9, 1, by decide +kernel⟩

theorem holds_flowSend : ∃ (s : State) (p : Nat), s.active = true ∧ p < 256 ∧ s.portUp p = true ∧ s.creditMode p =
  false :=
  ⟨linked.wr F.PRT_FC_STAT_TX_XOFF 6 9, 9, by decide +kernel⟩

theorem holds_flowSend_2 : ∃ (s : State) (p : Nat), s.active = true ∧ p < 256 ∧ s.portUp p = true ∧ s.creditMode p =
  true :=
  ⟨linked.wr F.PRT_LINK_STAT_CREDIT 1 9, 9, by decide +kernel⟩

theorem holds_fcStall : ∃ (s : State) (p : Nat) (v : Nat) (since : Nat), s.active = true ∧ p < 256 ∧ v < 8 ∧ (s.port
  p).rxXoffSince.getD v none = some since ∧ (s.port p).stalled.getD v false = false ∧ s.creditMode p = false ∧ s.rd
  F.PRT_LINK_CFG_PAUSE_MS p ≠ 0 ∧ since + ms (s.rd F.PRT_LINK_CFG_PAUSE_MS p) ≤ s.now :=
  ⟨{ (linked.wr F.PRT_LINK_CFG_PAUSE_MS 3 9).setPort 9 (fun pt => { pt with rxXoffSince := [none, some 5] }) with now := 5 + ms 3 },
    9, 1, 5, by decide +kernel⟩

theorem holds_laserSample : ∃ (s : State) (e : Nat), s.powered = true ∧ e < 16 ∧ 500 ≤ (s.laser e).lowSamples + 1 ∧
  s.flag F.PRT_LSM_STAT_PRESENT e = false ∧ (s.laser e).resetUntil = none :=
  ⟨lit.setLaser 4 (fun l => { l with lowSamples := 499 }), 4, by decide +kernel⟩

theorem holds_laserSample_2 : ∃ (s : State) (e : Nat), s.powered = true ∧ e < 16 :=
  ⟨(lit.wr F.PRT_LSM_STAT_PRESENT 1 4).wr F.PRT_LSM_CTL_ENABLE 1 4, 4, by decide +kernel⟩

theorem holds_laserMonitorRead : ∃ (s : State) (e : Nat) (power : List Nat) (low : Bool), s.powered = true ∧ e < 16 ∧
  (low = lanes4.any (fun k => toSigned 16 (power.getD k 0) < toSigned 16 (s.rd F.PRT_LSM_THR_ALARM) && decide (2 ≤
  (s.laser e).lowRuns.getD k 0))) :=
  ⟨lit.setLaser 4 (fun l => { l with lowRuns := [0, 2, 0, 0] }), 4, [9, 40000, 9, 8], true, by decide +kernel⟩

theorem holds_fecTrendSecond : ∃ (s : State) (p : Nat), s.powered = true ∧ p < 256 :=
  ⟨base.setPort 9 (fun pt => { pt with secSyms := 7, seconds := List.replicate 59 1 }), 9, by decide +kernel⟩

theorem holds_prbsCheckerLock : ∃ (s : State) (p : Nat) (k : Nat) (v : Nat), v = (prbsLevel (s.rd F.PRT_TEST_CHK p)
  (s.lane p k).checker.bits).1 ∧ s.powered = true ∧ p < 256 ∧ k < 4 ∧ s.rd F.PRT_LINK_STAT_STATE p = linkTest ∧ s.rd
  F.PRT_TEST_LOOP p = 0 ∧ s.rd F.PRT_TEST_CHK p ≠ 0 ∧ s.flag F.PRT_PRBS_ERR_LOCK p k = false ∧ prbsDegree (s.rd
  F.PRT_TEST_CHK p) ≤ (s.lane p k).checker.bits.length ∧ 128 ≤ (s.lane p k).checker.run + 1 :=
  ⟨((lit.wr F.PRT_LINK_STAT_STATE linkTest 9).wr F.PRT_TEST_CHK 1 9).setLane 9 2
    { checker := { bits := List.replicate 31 true, run := 127 } }, 9, 2, (prbsLevel 1 (List.replicate 31 true)).1,
    rfl, by decide +kernel⟩

theorem holds_prbsCheckerLock_2 : ∃ (s : State) (p : Nat) (k : Nat) (v : Nat) (n : Nat), n = levelErrors ((prbsLevel
  (s.rd F.PRT_TEST_CHK p) (s.lane p k).checker.bits).1) v ∧ s.powered = true ∧ p < 256 ∧ k < 4 ∧ s.rd
  F.PRT_LINK_STAT_STATE p = linkTest ∧ s.rd F.PRT_TEST_LOOP p = 0 ∧ s.rd F.PRT_TEST_CHK p ≠ 0 ∧ s.flag
  F.PRT_PRBS_ERR_LOCK p k = true ∧ v < 4 :=
  ⟨(((lit.wr F.PRT_LINK_STAT_STATE linkTest 9).wr F.PRT_TEST_CHK 1 9).setLane 9 2
    { checker := { bits := List.replicate 31 true, run := 127 } }).wr F.PRT_PRBS_ERR_LOCK 1 9 2, 9, 2, 3, levelErrors
    (prbsLevel 1 (List.replicate 31 true)).1 3, rfl, by decide +kernel⟩

theorem holds_prbsCheckerLock_3 : ∃ (s : State) (p : Nat) (k : Nat) (g : Nat) (l : List Nat), s.powered = true ∧ p <
  256 ∧ k < 4 ∧ s.rd F.PRT_LINK_STAT_STATE p = linkTest ∧ s.rd F.PRT_TEST_LOOP p = 0 ∧ s.rd F.PRT_TEST_CHK p = 0 ∧ g =
  s.rd F.PRT_TEST_GEN p ∧ g ≠ 0 ∧ (l.all (fun v => decide (v < 4)) = true) ∧ l ≠ [] :=
  ⟨((lit.wr F.PRT_LINK_STAT_STATE linkTest 9).wr F.PRT_TEST_GEN 2 9), 9, 2, 2, [0, 3], by decide +kernel⟩

theorem holds_prbsCheckerLock_4 : ∃ (s : State) (p : Nat) (k : Nat) (l : List Nat), s.powered = true ∧ p < 256 ∧ k < 4
  ∧ s.rd F.PRT_LINK_STAT_STATE p = linkTest ∧ s.rd F.PRT_TEST_LOOP p = 3 ∧ s.rd F.PRT_TEST_CHK p = 0 ∧ (l.all (fun v
  => decide (v < 4)) = true) ∧ l ≠ [] :=
  ⟨((lit.wr F.PRT_LINK_STAT_STATE linkTest 9).wr F.PRT_TEST_LOOP 3 9), 9, 2, [0, 3], by decide +kernel⟩

theorem holds_timeBlock : ∃ (s : State) (p : Nat) (c : CtlBlock) (m : TimeMsg), s.active = true ∧ p < 256 ∧ s.portUp p
  = true ∧ s.benlas p = false ∧ s.flag F.PRT_DISC_QUAR p = false ∧ ((s.port p).ctl.find? (fun c => c.ctype == 2) =
  some c) ∧ m = readTime c.body ∧ m.domain = s.rd F.PRT_DISC_CFG_PLANE ∧ m.flags.testBit 9 = false ∧ m.kind = 2 :=
  ⟨waitingCtl { ctype := 2, cflags := 0, iseq := 0, body := (2#8 :: List.replicate 55 0#8) } linked, 9,
    { ctype := 2, cflags := 0, iseq := 0, body := (2#8 :: List.replicate 55 0#8) }, readTime (2#8 :: List.replicate 55
    0#8), by decide +kernel⟩

theorem holds_timeBlock_2 : ∃ (s : State) (p : Nat) (rx : Nat) (c : CtlBlock) (m : TimeMsg) (sent : Nat) (delay : Int)
  (l : List Nat), ((s.port p).ctl.find? (fun c => c.ctype == 2) = some c) ∧ m = readTime c.body ∧ m.target =
  portIdentity p ∧ s.active = true ∧ p < 256 ∧ s.portUp p = true ∧ s.benlas p = false ∧ s.flag F.PRT_DISC_QUAR p =
  false ∧ m.domain = s.rd F.PRT_DISC_CFG_PLANE ∧ m.flags.testBit 9 = false ∧ m.kind = 3 ∧ (s.port p).reqSent = some
  sent ∧ (m.seq + 1) % 65536 = (s.port p).reqSeq ∧ delay = (unitsPs rx - unitsPs sent - corrPs m.corr) / 2 + toSigned
  16 (s.rd F.PRT_TIME_PORT_ASYM p) ∧ l = (delay.toNat :: (s.port p).delays).take 8 :=
  ⟨(waitingCtl { ctype := 2, cflags := 0, iseq := 0, body := answerBody } linked).setPort 9 (fun pt =>
    { pt with reqSent := some 0, reqSeq := 1, delays := [200] }), 9, 14,
    { ctype := 2, cflags := 0, iseq := 0, body := answerBody }, readTime answerBody, 0, 500, [500, 200], rfl, rfl,
    answer_target, by decide +kernel⟩

theorem holds_timeBlock_3 : ∃ (s : State) (p : Nat) (rx : Nat) (c : CtlBlock) (m : TimeMsg) (off : Int), s.active =
  true ∧ p < 256 ∧ s.portUp p = true ∧ s.benlas p = false ∧ s.flag F.PRT_DISC_QUAR p = false ∧ ((s.port p).ctl.find?
  (fun c => c.ctype == 2) = some c) ∧ m = readTime c.body ∧ m.domain = s.rd F.PRT_DISC_CFG_PLANE ∧ m.flags.testBit 9 =
  false ∧ m.kind = 0 ∧ s.rd F.PRT_TIME_PORT_ROLE p = 2 ∧ s.flag F.PRT_TIME_CFG_GM = false ∧ (s.rd
  F.PRT_TIME_STAT_STATE = timeAcquiring ∨ s.rd F.PRT_TIME_STAT_STATE = timeLocked) ∧ s.link.slave = some p ∧ off =
  unitsPs rx - (1000 * (m.ns : Int) + corrPs m.corr + s.rd F.PRT_TIME_PORT_DELAY p) :=
  ⟨{ (waitingCtl { ctype := 2, cflags := 0, iseq := 0, body := (0#8 :: List.replicate 55 0#8) } ((linked.wr F.PRT_TIME_PORT_ROLE 2 9).wr F.PRT_TIME_STAT_STATE timeAcquiring)) with link := { (waitingCtl { ctype := 2, cflags := 0, iseq := 0, body := (0#8 :: List.replicate 55 0#8) } linked).link with slave := some 9, goodSyncs := 15 } },
    9, 14, { ctype := 2, cflags := 0, iseq := 0, body := (0#8 :: List.replicate 55 0#8) }, readTime (0#8 ::
    List.replicate 55 0#8), 1000, by decide +kernel⟩

theorem holds_syncSend : ∃ (s : State) (p : Nat), s.active = true ∧ p < 256 ∧ s.rd F.PRT_TIME_PORT_ROLE p = 1 ∧
  s.portUp p = true :=
  ⟨linked.wr F.PRT_TIME_PORT_ROLE 1 9, 9, by decide +kernel⟩

theorem holds_pdelayReqSend : ∃ (s : State) (p : Nat), s.active = true ∧ p < 256 ∧ (s.port p).identity ≠ [] ∧ s.portUp
  p = true :=
  ⟨linked.setPort 9 (fun pt => { pt with identity := [1] }), 9, by decide +kernel⟩

theorem holds_syncLossTimeout : ∃ (s : State) (p : Nat) (q : Nat), s.powered = true ∧ s.link.slave = some p ∧ ((s.port
  p).lastSync).getD 0 + 3 * s.syncInterval ≤ s.now ∧ s.bestSlave = some q :=
  ⟨{ ((linked.wr F.PRT_TIME_PORT_ROLE 2 9).setPort 9 (fun pt => { pt with lastSync := some (us 1000000) })) with now := us 1000000, link := { ((linked.wr F.PRT_TIME_PORT_ROLE 2 9).setPort 9 (fun pt => { pt with lastSync := some (us 1000000) })).link with slave := some 3 } },
    3, 9, by decide +kernel⟩

theorem holds_syncLossTimeout_2 : ∃ (s : State) (p : Nat), s.powered = true ∧ s.link.slave = some p ∧ ((s.port
  p).lastSync).getD 0 + 8 * s.syncInterval ≤ s.now ∧ s.bestSlave = none ∧ s.rd F.PRT_TIME_STAT_STATE = timeLocked :=
  ⟨{ base.wr F.PRT_TIME_STAT_STATE timeLocked with now := us 10000000, link := { slave := some 3 } }, 3,
    by decide +kernel⟩

theorem holds_identSend : ∃ (s : State) (p : Nat), s.active = true ∧ p < 256 ∧ s.portUp p = true :=
  ⟨linked, 9, by decide +kernel⟩

theorem holds_identBlock : ∃ (s : State) (p : Nat) (c : CtlBlock), s.active = true ∧ p < 256 ∧ s.portUp p = true ∧
  s.marked .snapshot = false ∧ ((s.port p).ctl.find? (fun c => c.ctype == 3) = some c) ∧ c.cflags ≤ 1 ∧ (s.port
  p).identHeld = none :=
  ⟨waitingCtl { ctype := 3, cflags := 1, iseq := 2, body := List.replicate 56 0 } linked, 9,
    { ctype := 3, cflags := 1, iseq := 2, body := List.replicate 56 0 }, by decide +kernel⟩

theorem holds_identBlock_2 : ∃ (s : State) (p : Nat) (c : CtlBlock) (h : IdentPart) (id : List Byte) (up : Nat),
  s.active = true ∧ p < 256 ∧ s.portUp p = true ∧ s.marked .snapshot = false ∧ ((s.port p).ctl.find? (fun c => c.ctype
  == 3) = some c) ∧ c.cflags ≤ 1 ∧ (s.port p).identHeld = some h ∧ h.iseq = c.iseq ∧ h.part ≠ c.cflags ∧ (id = if
  h.part = 0 then h.body ++ c.body else c.body ++ h.body) ∧ (s.port p).identity = [] ∧ (s.port p).concluded = false ∧
  (s.port p).upSince = some up ∧ s.now ≤ up + ms 10 ∧ field id 2 1 = agreedVersion id ∧ agreedVersion id ≠ 0 ∧ field
  id 12 4 = bits (s.rd F.SEC_IDENT_IDENT 0) 31 0 ∧ s.planState = planEmpty :=
  ⟨(waitingCtl { ctype := 3, cflags := 1, iseq := 2, body := List.replicate 56 0 } linked).setPort 9 (fun pt =>
    { pt with identHeld := some { part := 0, iseq := 2, body := [1, 2, 2] ++ List.replicate 53 0 }, upSince := some 0 }),
    9, { ctype := 3, cflags := 1, iseq := 2, body := List.replicate 56 0 },
    { part := 0, iseq := 2, body := [1, 2, 2] ++ List.replicate 53 0 }, [1, 2, 2] ++ List.replicate 109 0, 0,
    by decide +kernel⟩

theorem holds_identBlock_3 : ∃ (s : State) (p : Nat) (c : CtlBlock) (h : IdentPart) (id : List Byte), s.active = true
  ∧ p < 256 ∧ s.portUp p = true ∧ s.marked .snapshot = false ∧ ((s.port p).ctl.find? (fun c => c.ctype == 3) = some c)
  ∧ c.cflags ≤ 1 ∧ (s.port p).identHeld = some h ∧ h.iseq = c.iseq ∧ h.part ≠ c.cflags ∧ (id = if h.part = 0 then
  h.body ++ c.body else c.body ++ h.body) ∧ (s.port p).identity ≠ [] ∧ identStable (s.port p).identity ≠ identStable
  id :=
  ⟨(waitingCtl { ctype := 3, cflags := 1, iseq := 2, body := List.replicate 56 0 } linked).setPort 9 (fun pt =>
    { pt with identity := List.replicate 112 7, identHeld := some { part := 0, iseq := 2, body := [1, 2, 2] ++ List.replicate 53 0 }, upSince := some 0 }),
    9, { ctype := 3, cflags := 1, iseq := 2, body := List.replicate 56 0 },
    { part := 0, iseq := 2, body := [1, 2, 2] ++ List.replicate 53 0 }, [1, 2, 2] ++ List.replicate 109 0,
    by decide +kernel⟩

theorem holds_negotiationTimeout : ∃ (s : State) (p : Nat) (up : Nat), s.active = true ∧ p < 256 ∧ s.portUp p = true ∧
  (s.port p).upSince = some up ∧ (s.port p).concluded = false ∧ up + ms 10 ≤ s.now ∧ s.marked .snapshot = false :=
  ⟨{ linked.setPort 9 (fun pt => { pt with upSince := some 0 }) with now := ms 10 }, 9, 0, by decide +kernel⟩

theorem holds_roundStart : ∃ (s : State) (n : Nat) (cycles : Nat) (actual : Int) (want : Int), s.powered = true ∧
  s.locked = true ∧ s.sched.running = true ∧ s.chgState ≠ chgSwitching ∧ cycles = s.rd F.SCH_PERIOD_CYCLES ∧ cycles ≠
  0 ∧ s.sched.roundStart + s.sched.roundLen ≤ s.store ∧ n = (s.rd F.SCH_ROUND_NUMBER + 1) % 2 ^ 64 ∧ actual = 14 *
  (s.planeTime : Int) + s.link.timeFrac - 5 * (s.now % 2 : Nat) ∧ want = 14 * (s.rd F.SCH_EPOCH_TIME : Int) + 10 * (n
  : Int) * cycles :=
  ⟨{ rounds with now := 2048 }, 1, 1024, 0, 10240, by decide +kernel⟩

theorem holds_roundStart_2 : ∃ (s : State) (cycles : Nat) (past : Nat) (actual : Int) (epoch : Int), s.powered = true
  ∧ s.locked = true ∧ s.sched.running = false ∧ s.chgState ≠ chgSwitching ∧ cycles = s.rd F.SCH_PERIOD_CYCLES ∧ cycles
  ≠ 0 ∧ actual = 14 * (s.planeTime : Int) + s.link.timeFrac - 5 * (s.now % 2 : Nat) ∧ epoch = 14 * (s.rd
  F.SCH_EPOCH_TIME : Int) ∧ epoch ≤ actual ∧ past = ((actual - epoch) / 10).toNat :=
  ⟨{ ((base.wr F.LST_PLAN_STAT_STATE planAccepted).wr F.SCH_PERIOD_CYCLES 1024).wr F.PRT_TIME_NOW_NS 1000 with now := 2800 },
    1024, 1400, 14000, 0, by decide +kernel⟩

theorem holds_schedFrameStart : ∃ (s : State) (p : Nat) (entry : Nat) (q : Nat) (start : Nat) (len : Nat) (e :
  QEntry), s.active = true ∧ p < 256 ∧ s.openWindow p = some (entry, q, start, len) ∧ s.windowFrame p (s.takenBelow p)
  = some (e, true) :=
  ⟨({ stored7 windowed with sched := { (stored7 windowed).sched with queues := (stored7 windowed).sched.queues.set [9, 2] [{ ptr := 7, account := 2, header := aHeader, visible := 0 }] } }),
    9, 0, 2, 0, 100, { ptr := 7, account := 2, header := aHeader, visible := 0 }, by decide +kernel⟩

theorem holds_schedFrameStart_2 : ∃ (s : State) (p : Nat) (entry : Nat) (q : Nat) (start : Nat) (len : Nat) (e :
  QEntry), s.active = true ∧ p < 256 ∧ s.openWindow p = some (entry, q, start, len) ∧ s.windowFrame p (s.takenBelow p)
  = some (e, false) :=
  ⟨({ stored7 { windowed.wr F.PRT_LINK_CFG_RATE 2 9 with now := 198 } with sched := { (stored7 { windowed.wr F.PRT_LINK_CFG_RATE 2 9 with now := 198 }).sched with queues := (stored7 { windowed.wr F.PRT_LINK_CFG_RATE 2 9 with now := 198 }).sched.queues.set [9, 2] [{ ptr := 7, account := 2, header := aHeader, visible := 0 }] } }),
    9, 0, 2, 0, 100, { ptr := 7, account := 2, header := aHeader, visible := 0 }, by decide +kernel⟩

theorem holds_oppFrameStart : ∃ (s : State) (p : Nat) (e : OppEntry), s.active = true ∧ p < 256 ∧ s.portUp p = true ∧
  s.fenced p = false ∧ s.sched.freeAt.get [p] ≤ s.store ∧ s.openWindow p = none ∧ s.oppEligible p 0 = true ∧ s.oppHead
  p 0 = some e :=
  ⟨({ stored7 (rounds) with sched := { (stored7 (rounds)).sched with oppFifo := (stored7 (rounds)).sched.oppFifo.set [9] [{ ptr := 7, account := 16, vc := 0, length := 70, session := none, pendingCells := 0 }] } }),
    9, { ptr := 7, account := 16, vc := 0, length := 70, session := none, pendingCells := 0 }, by decide +kernel⟩

theorem holds_oppFrameStart_2 : ∃ (s : State) (p : Nat), s.active = true ∧ p < 256 ∧ (s.openWindow p).isSome = true :=
  ⟨windowed, 9, by decide +kernel⟩

theorem holds_frameDeparture : ∃ (s : State) (p : Nat) (x : Sending) (h : SwHeader) (l : List Byte), s.active = true ∧
  p < 256 ∧ s.sched.sending.get [p] = some x ∧ x.sched = true ∧ x.broken = false ∧ x.bad = false ∧ x.frame.item =
  .swatch h l ∧ s.ptrFails x.ptr x.account none = none ∧ 2 ≤ (s.tag (ptrCell x.ptr)).refcnt :=
  ⟨({ stored7 (rounds.wr F.BPM_POOL_CFG_COUNT 64 0) with sched := { (stored7 rounds).sched with sending := (stored7 rounds).sched.sending.set [9] (some { ptr := 7, account := 2, sched := true, header := aHeader, frame := { sched := true, vc := 7, fseq := 1, item := .swatch aHeader [1, 2] }, until_ := 5, session := none, broken := false, origin := .queue 9 2 0 0 { ptr := 7, account := 2, header := aHeader, visible := 0 } }) } }),
    9,
    { ptr := 7, account := 2, sched := true, header := aHeader, frame := { sched := true, vc := 7, fseq := 1, item := .swatch aHeader [1, 2] }, until_ := 5, session := none, broken := false, origin := .queue 9 2 0 0 { ptr := 7, account := 2, header := aHeader, visible := 0 } },
    aHeader, [1, 2], by decide +kernel⟩

theorem holds_tokenRefill : ∃ (s : State) (die : Nat) (n : Nat) (v : Nat) (spent : Int) (k : Bucket), s.active = true
  ∧ die < 8 ∧ n < 32 ∧ v < 8 ∧ spent = s.spent k (32 * die + n) v ∧ s.shape.waiting.get [k.code, 32 * die + n, v] =
  none ∧ s.marked (.bucket [k.code, 32 * die + n, v]) 2 = false :=
  ⟨({ base with now := 12, marks := [(12, .charged [1, 35, 7] 7)] }.wr F.SHP_POL_CFG_BURST 2 35 7).wr
    F.SHP_POL_CFG_RATE 99 35 7, 1, 3, 7, 7, .policer, by decide +kernel⟩

theorem holds_tokenRefill_2 : ∃ (s : State) (die : Nat) (n : Nat) (v : Nat) (w : Nat) (since : Nat) (k : Bucket),
  s.active = true ∧ die < 8 ∧ n < 32 ∧ v < 8 ∧ s.shape.waiting.get [k.code, 32 * die + n, v] = some (w, since) ∧
  chgMode w = 0 ∧ since < s.store :=
  ⟨{ base with now := 4, shape := { waiting := ({} : SMap (Option (Nat × Nat))).set [0, 35, 7] (some (2 ^ 40 + 99, 1)) } },
    1, 3, 7, 2 ^ 40 + 99, 1, .shaper, by decide +kernel⟩

theorem holds_matchRound : ∃ (s : State) (d : Nat) (e : Nat) (v : Nat) (p : Nat) (h : OppEntry), s.active = true ∧ d <
  8 ∧ e < 256 ∧ v < 8 ∧ s.sched.voq.entries = [([d, e, v], [h])] ∧ s.matchPort e h = some p ∧ s.flowOk p v h.length =
  true ∧ s.grants [] { e, n := 8 * d + v, head := h, port := p } = true :=
  ⟨({ stored7 rounds with sched := { (stored7 rounds).sched with voq := (stored7 rounds).sched.voq.set [2, 9, 3] [{ ptr := 7, account := 16, vc := 3, length := 70, session := none, pendingCells := 1 }] } }),
    2, 9, 3, 9, { ptr := 7, account := 16, vc := 3, length := 70, session := none, pendingCells := 1 },
    by decide +kernel⟩

theorem holds_oppCellsRead : ∃ (s : State) (p : Nat) (e : OppEntry), s.active = true ∧ p < 256 ∧ ((s.sched.oppFifo.get
  [p]).find? (fun e => decide (0 < e.pendingCells)) = some e) :=
  ⟨({ stored7 (rounds) with sched := { (stored7 (rounds)).sched with oppFifo := (stored7 (rounds)).sched.oppFifo.set [9] [{ ptr := 7, account := 16, vc := 0, length := 70, session := none, pendingCells := 1 }] } }),
    9, { ptr := 7, account := 16, vc := 0, length := 70, session := none, pendingCells := 1 }, by decide +kernel⟩

theorem holds_oppCellsRead_2 : ∃ (s : State) (p : Nat) (e : OppEntry), s.active = true ∧ p < 256 ∧
  ((s.sched.oppFifo.get [p]).find? (fun e => decide (0 < e.pendingCells)) = some e) :=
  ⟨({ stored7 (rounds) with sched := { (stored7 (rounds)).sched with oppFifo := (stored7 (rounds)).sched.oppFifo.set [9] [{ ptr := 7, account := 16, vc := 0, length := 70, session := none, pendingCells := 1 }] } }),
    9, { ptr := 7, account := 16, vc := 0, length := 70, session := none, pendingCells := 1 }, by decide +kernel⟩

theorem holds_ingressLanding : ∃ (s : State) (p : Nat) (l : Landing) (rest : List Landing), s.active = true ∧ p < 256
  ∧ s.sched.landing.get [p] = l :: rest ∧ l.last ≠ noLast ∧ s.ingressWindow p l.last l.done = none ∧ l.done < s.store
  :=
  ⟨landingAt ({ last := 2, done := 2 ^ 24 + 5, frame := { aFrame with sched := true } }) { rounds with now := 20 }, 9,
    { last := 2, done := 2 ^ 24 + 5, frame := { aFrame with sched := true } }, [], by decide +kernel⟩

theorem holds_ingressLanding_2 : ∃ (s : State) (p : Nat) (l : Landing) (rest : List Landing) (entry : Nat) (round :
  Nat) (start : Nat), s.active = true ∧ p < 256 ∧ s.sched.landing.get [p] = l :: rest ∧ l.last ≠ noLast ∧
  s.ingressWindow p l.last l.done = some (entry, round, start) ∧ s.sched.winLand.get [p, l.last, entry] = none ∧
  l.done ≤ start + s.rd F.SCH_PORT_CFG_LAND p ∧ start + s.rd F.SCH_PORT_CFG_LAND p ≤ s.store :=
  ⟨landingAt ({ last := 2, done := 2 ^ 24 + 5, frame := { aFrame with sched := true } })
    { (windowed.wr F.SCH_WIN_DIR 1 9 0).wr F.SCH_PORT_CFG_LAND 60 9 with now := 400 }, 9,
    { last := 2, done := 2 ^ 24 + 5, frame := { aFrame with sched := true } }, [], 0, 0, 2 ^ 24, by decide +kernel⟩

theorem holds_swatchPointerHandoff : ∃ (s : State) (h : Handoff) (d : Nat), s.active = true ∧ (s.sched.handoffs.find?
  (fun h => decide (h.ready ≤ s.store)) = some h) ∧ d = dieOfPort (s.groupOf h.item.port) :=
  ⟨{ rounds with sched := { rounds.sched with handoffs := [{ ready := 5, item := arrivedAt 4 }] } },
    { ready := 5, item := arrivedAt 4 }, 0, by decide +kernel⟩

theorem holds_resequence : ∃ (s : State) (d : Nat) (k : Nat) (a : Arrived) (rest : List Handoff) (u : Stream),
  s.active = true ∧ d < 8 ∧ (s.fewEntries d = false ∨ k ≠ s.store) ∧ s.sched.reseqIn.get [d] =
  { ready := k, item := a } :: rest ∧ s.undeclared a.header.context = false ∧ s.opnumOk a.header.context
  a.header.opnum = true ∧ ((s.sched.streams.get [d]).find? (fun u => u.context == a.header.context && u.opnum ==
  a.header.opnum && u.rank == a.header.rank && u.group == s.groupOf a.port) = some u) ∧ a.header.seq = u.next :=
  ⟨inputAt (arrivedAt 4) (streamed [aStream] opened), 0, rounds.store, arrivedAt 4, [], aStream, by decide +kernel⟩

theorem holds_resequence_2 : ∃ (s : State) (d : Nat) (k : Nat) (a : Arrived) (rest : List Handoff) (u : Stream),
  s.active = true ∧ d < 8 ∧ (s.fewEntries d = false ∨ k ≠ s.store) ∧ s.sched.reseqIn.get [d] =
  { ready := k, item := a } :: rest ∧ s.undeclared a.header.context = false ∧ s.opnumOk a.header.context
  a.header.opnum = true ∧ ((s.sched.streams.get [d]).find? (fun u => u.context == a.header.context && u.opnum ==
  a.header.opnum && u.rank == a.header.rank && u.group == s.groupOf a.port) = some u) ∧ u.next < a.header.seq ∧
  a.header.seq < u.next + 256 ∧ (u.held.any (fun b => b.header.seq == a.header.seq) = false) :=
  ⟨inputAt (arrivedAt 259) (streamed [aStream] opened), 0, rounds.store, arrivedAt 259, [], aStream,
    by decide +kernel⟩

theorem holds_resequence_3 : ∃ (s : State) (d : Nat) (k : Nat) (a : Arrived) (rest : List Handoff) (u : Stream),
  s.active = true ∧ d < 8 ∧ (s.fewEntries d = false ∨ k ≠ s.store) ∧ s.sched.reseqIn.get [d] =
  { ready := k, item := a } :: rest ∧ s.undeclared a.header.context = false ∧ s.opnumOk a.header.context
  a.header.opnum = true ∧ ((s.sched.streams.get [d]).find? (fun u => u.context == a.header.context && u.opnum ==
  a.header.opnum && u.rank == a.header.rank && u.group == s.groupOf a.port) = some u) ∧ u.next + 256 ≤ a.header.seq :=
  ⟨inputAt (arrivedAt 260) (streamed [aStream] opened), 0, rounds.store, arrivedAt 260, [], aStream,
    by decide +kernel⟩

theorem holds_resequence_4 : ∃ (s : State) (d : Nat) (k : Nat) (a : Arrived) (rest : List Handoff), s.active = true ∧
  d < 8 ∧ (s.fewEntries d = false ∨ k ≠ s.store) ∧ s.sched.reseqIn.get [d] = { ready := k, item := a } :: rest ∧
  s.undeclared a.header.context = true :=
  ⟨inputAt (arrivedAt 4) rounds, 0, rounds.store, arrivedAt 4, [], by decide +kernel⟩

theorem holds_heldSwatchRelease : ∃ (s : State) (d : Nat) (u : Stream) (a : Arrived), s.active = true ∧ d < 8 ∧
  ((s.sched.streams.get [d]).find? (fun u => u.held.any (fun a => a.header.seq == u.next)) = some u) ∧ (u.held.find?
  (fun a => a.header.seq == u.next) = some a) :=
  ⟨streamed [{ aStream with held := [arrivedAt 4] }] opened, 0, { aStream with held := [arrivedAt 4] }, arrivedAt 4,
    by decide +kernel⟩

theorem holds_insoleScrub : ∃ (s : State), s.active = true :=
  ⟨base, by decide +kernel⟩

theorem holds_bufferAlloc : ∃ (s : State) (k : Nat) (r : AllocReq) (f : FreeList) (cell : Nat) (gen : Nat) (desc :
  Descriptor) (port : Nat) (off : Bool), s.active = true ∧ s.requestOrder[k]? = some r ∧ r.item = .descriptor desc ∧
  r.purpose = .arrival port none off ∧ r.tried ≠ some s.store ∧ s.listServes (s.requestOrder.take k) 0 (acctList
  r.account) 1 = true ∧ s.allocOk 1 0 r.account = true ∧ f = s.bpm.lists.get [0, acctList r.account, 0] ∧ f.fresh <
  f.stop ∧ cell = s.freshCell 0 0 f.fresh ∧ cell < 2 ^ 22 ∧ (s.tag cell).bad = false ∧ gen = ((s.tag cell).gen + 1) %
  256 :=
  ⟨asking
    ({ requester := 0, account := 16, item := .descriptor { context := 5 }, purpose := .arrival 9 none false, since := 0, refused := none })
    pooled, 0,
    { requester := 0, account := 16, item := .descriptor { context := 5 }, purpose := .arrival 9 none false, since := 0, refused := none },
    pooled.bpm.lists.get [0, 1, 0], 16, 1, { context := 5 }, 9, false, by decide +kernel⟩

theorem holds_bufferAlloc_2 : ∃ (s : State) (k : Nat) (r : AllocReq), s.active = true ∧ s.requestOrder[k]? = some r ∧
  r.tried ≠ some s.store ∧ s.listServes (s.requestOrder.take k) (poolFor r.item.stored).1 (acctList r.account)
  (poolFor r.item.stored).2 = true ∧ s.allocOk (poolFor r.item.stored).2 (poolFor r.item.stored).1 r.account = false
  :=
  ⟨asking
    ({ requester := 0, account := 16, item := .descriptor { context := 5 }, purpose := .arrival 9 none false, since := 0, refused := none })
    base, 0,
    { requester := 0, account := 16, item := .descriptor { context := 5 }, purpose := .arrival 9 none false, since := 0, refused := none },
    by decide +kernel⟩

theorem holds_allocWaitExpiry : ∃ (s : State) (k : Nat) (r : AllocReq) (port : Nat) (n : Nat) (off : Bool), s.active =
  true ∧ s.requestOrder[k]? = some r ∧ r.purpose = .arrival port none off ∧ r.account ≤ 15 ∧ r.refused = some n ∧ n +
  s.rd F.BPM_GCFG_ALLOC_WAIT ≤ s.store :=
  ⟨asking
    ({ requester := 0, account := 2, item := .descriptor { context := 5 }, purpose := .arrival 9 none false, since := 0, refused := some 0 })
    pooled, 0,
    { requester := 0, account := 2, item := .descriptor { context := 5 }, purpose := .arrival 9 none false, since := 0, refused := some 0 },
    9, 0, false, by decide +kernel⟩

theorem holds_bufferFree : ∃ (s : State) (ptr : Nat) (account : Nat) (requester : Nat) (q : Nat) (c : Nat) (colour :
  Nat), s.active = true ∧ ptr < 2 ^ 32 ∧ account < 20 ∧ requester < 17 ∧ s.ptrFails ptr account none = none ∧ c =
  ptrCell ptr ∧ q = ptrPool ptr ∧ (colour = if q = 1 then cellColour c else 0) ∧ (s.tag c).next = 0 ∧ s.gaveNow q
  (acctList account) + 1 ≤ 16 ∧ (s.bpm.frees.any (fun r => (ptrPool r.ptr, acctList r.account) == (q, acctList
  account)) = false) :=
  ⟨({ stored7 (pooled.wr F.BPM_POOL_CFG_COUNT 64 0) with sched := {} }).wr F.BPM_HELD_BUFFERS 1 2 0, 7, 2, 0, 0, 7, 0,
    by decide +kernel⟩

theorem holds_bufferFree_2 : ∃ (s : State) (ptr : Nat) (account : Nat) (requester : Nat), s.active = true ∧ ptr < 2 ^
  32 ∧ account < 20 ∧ requester < 17 ∧ s.ptrFails ptr account none = some 0 ∧ (s.marks.any (fun e => e.2 matches
  .freedNow ..) = false) ∧ (s.rd F.BPM_ERR_DOUBLE_FREE = 0 ∧ s.rd F.BPM_ERR_FOREIGN_FREE = 0 ∧ s.rd
  F.BPM_ERR_BAD_POINTER = 0 ∧ s.rd F.BPM_ERR_TAG_ECC = 0) :=
  ⟨{ stored7 (pooled.wr F.BPM_POOL_CFG_COUNT 64 0) with sched := {} }, 2 ^ 22 + 7, 2, 16, by decide +kernel⟩

theorem holds_mirrorFenceDiscard : ∃ (s : State) (p : Nat) (e : OppEntry), s.active = true ∧ p < 256 ∧ s.fenced p =
  true ∧ ((s.sched.oppFifo.get [p]).find? (fun e => e.session.isSome) = some e) :=
  ⟨({ stored7 (rounds.wr F.INS_FENCE_PORTS 512 0) with sched := { (stored7 (rounds.wr F.INS_FENCE_PORTS 512 0)).sched with oppFifo := (stored7 (rounds.wr F.INS_FENCE_PORTS 512 0)).sched.oppFifo.set [9] [{ ptr := 7, account := 16, vc := 0, length := 70, session := some 3, pendingCells := 1 }] } }),
    9, { ptr := 7, account := 16, vc := 0, length := 70, session := some 3, pendingCells := 1 }, by decide +kernel⟩

theorem holds_descriptorArrival : ∃ (s : State) (x : Nat) (b : ArrivedDesc) (rest : List ArrivedDesc), s.active = true
  ∧ s.sched.descs = b :: rest ∧ x = b.desc.context ∧ s.undeclared x = true :=
  ⟨described { kind := 4, context := 5, opnum := 3, source := 2, rank := 0 } (rounds), 5,
    { port := 9, desc := { kind := 4, context := 5, opnum := 3, source := 2, rank := 0 }, ptr := 7, account := 2 },
    [], by decide +kernel⟩

theorem holds_descriptorArrival_2 : ∃ (s : State) (x : Nat) (b : ArrivedDesc) (rest : List ArrivedDesc), s.active =
  true ∧ s.sched.descs = b :: rest ∧ x = b.desc.context ∧ s.undeclared x = false ∧ s.opnumOk x b.desc.opnum = false :=
  ⟨described { kind := 4, context := 5, opnum := 5, source := 2, rank := 0 } (collective kBarrier), 5,
    { port := 9, desc := { kind := 4, context := 5, opnum := 5, source := 2, rank := 0 }, ptr := 7, account := 2 },
    [], by decide +kernel⟩

theorem holds_descriptorArrival_3 : ∃ (s : State) (x : Nat) (b : ArrivedDesc) (rest : List ArrivedDesc), s.active =
  true ∧ s.sched.descs = b :: rest ∧ x = b.desc.context ∧ s.undeclared x = false ∧ s.opnumOk x b.desc.opnum = true ∧
  s.refusal b.port b.desc ≠ 0 :=
  ⟨described { kind := 4, context := 5, opnum := 3, source := 2, rank := 2 } (collective kBarrier), 5,
    { port := 9, desc := { kind := 4, context := 5, opnum := 3, source := 2, rank := 2 }, ptr := 7, account := 2 },
    [], by decide +kernel⟩

theorem holds_descriptorArrival_4 : ∃ (s : State) (x : Nat) (b : ArrivedDesc) (rest : List ArrivedDesc), s.active =
  true ∧ s.sched.descs = b :: rest ∧ x = b.desc.context ∧ s.undeclared x = false ∧ s.opnumOk x b.desc.opnum = true ∧
  s.refusal b.port b.desc = 0 ∧ b.desc.abort = false ∧ ((s.knownDescs x b.desc.opnum).any (fun e => e.rank ==
  b.desc.rank) = false) ∧ s.cutHolds x b.port = none ∧ (b.desc.opnum ≠ s.opnum x ∨ s.ctxState x = ctxClosing) :=
  ⟨described { kind := 4, context := 5, opnum := 4, source := 2, rank := 0 } (collective kBarrier), 5,
    { port := 9, desc := { kind := 4, context := 5, opnum := 4, source := 2, rank := 0 }, ptr := 7, account := 2 },
    [], by decide +kernel⟩

theorem holds_descriptorArrival_5 : ∃ (s : State) (x : Nat) (b : ArrivedDesc) (rest : List ArrivedDesc), s.active =
  true ∧ s.sched.descs = b :: rest ∧ x = b.desc.context ∧ s.undeclared x = false ∧ s.opnumOk x b.desc.opnum = true ∧
  s.refusal b.port b.desc = 0 ∧ b.desc.abort = false ∧ ((s.knownDescs x b.desc.opnum).any (fun e => e.rank ==
  b.desc.rank) = false) ∧ s.cutHolds x b.port = none ∧ b.desc.opnum = s.opnum x ∧ s.ctxState x ≠ ctxClosing ∧
  s.drainHolds x = false ∧ (s.op x).early = [] ∧ s.kind x ≠ kParity :=
  ⟨described { kind := 4, context := 5, opnum := 3, source := 2, rank := 0 } (collective kBarrier), 5,
    { port := 9, desc := { kind := 4, context := 5, opnum := 3, source := 2, rank := 0 }, ptr := 7, account := 2 },
    [], by decide +kernel⟩

theorem holds_swatchAccept : ∃ (s : State) (x : Nat) (a : Arrived) (rest : List Arrived), s.active = true ∧
  s.sched.released = a :: rest ∧ a.header.skind ≠ skAbort ∧ x = a.header.context ∧ s.undeclared x = false ∧ s.opnumOk
  x a.header.opnum = false :=
  ⟨released
    { port := 9, header := { skind := 3, context := 5, opnum := 9, rank := 0, length := 64, seq := 4 }, ptr := 7, account := 2 }
    (collective kAllGather), 5,
    { port := 9, header := { skind := 3, context := 5, opnum := 9, rank := 0, length := 64, seq := 4 }, ptr := 7, account := 2 },
    [], by decide +kernel⟩

theorem holds_swatchAccept_2 : ∃ (s : State) (x : Nat) (a : Arrived) (rest : List Arrived), s.active = true ∧
  s.sched.released = a :: rest ∧ a.header.skind ≠ skAbort ∧ x = a.header.context ∧ s.undeclared x = false ∧ s.opnumOk
  x a.header.opnum = true ∧ s.senderOk a = false :=
  ⟨released
    { port := 9, header := { skind := 3, context := 5, opnum := 3, rank := 2, length := 64, seq := 4 }, ptr := 7, account := 2 }
    (collective kAllGather), 5,
    { port := 9, header := { skind := 3, context := 5, opnum := 3, rank := 2, length := 64, seq := 4 }, ptr := 7, account := 2 },
    [], by decide +kernel⟩

theorem holds_swatchAccept_3 : ∃ (s : State) (x : Nat) (a : Arrived) (rest : List Arrived), s.active = true ∧
  s.sched.released = a :: rest ∧ a.header.skind ≠ skAbort ∧ x = a.header.context ∧ s.undeclared x = false ∧ s.opnumOk
  x a.header.opnum = true ∧ s.senderOk a = true ∧ s.swatchDup a = true :=
  ⟨released
    { port := 9, header := { skind := 3, context := 5, opnum := 3, rank := 0, length := 64, seq := 4 }, ptr := 7, account := 2 }
    ((collective kAllGather).setOp 5 (fun o =>
    { o with inputs := [⟨{ port := 9, header := { skind := 3, context := 5, opnum := 3, rank := 0, length := 64, seq := 4 }, ptr := 7, account := 2 }, true⟩] })),
    5,
    { port := 9, header := { skind := 3, context := 5, opnum := 3, rank := 0, length := 64, seq := 4 }, ptr := 7, account := 2 },
    [], by decide +kernel⟩

theorem holds_swatchAccept_4 : ∃ (s : State) (x : Nat) (a : Arrived) (rest : List Arrived), s.active = true ∧
  s.sched.released = a :: rest ∧ a.header.skind ≠ skAbort ∧ x = a.header.context ∧ s.undeclared x = false ∧ s.opnumOk
  x a.header.opnum = true ∧ s.senderOk a = true ∧ s.swatchDup a = false ∧ a.header.part ≤ a.header.partsM1 ∧
  ((s.checkDesc (s.knownDescs x a.header.opnum) a).map (s.rangeOk a)) ≠ some false ∧ s.cutHolds x a.port = none ∧
  (a.header.opnum ≠ s.opnum x ∨ s.ctxState x = ctxClosing) :=
  ⟨released
    { port := 9, header := { skind := 3, context := 5, opnum := 4, rank := 0, length := 64, seq := 4 }, ptr := 7, account := 2 }
    (collective kAllGather), 5,
    { port := 9, header := { skind := 3, context := 5, opnum := 4, rank := 0, length := 64, seq := 4 }, ptr := 7, account := 2 },
    [], by decide +kernel⟩

theorem holds_swatchAccept_5 : ∃ (s : State) (x : Nat) (a : Arrived) (rest : List Arrived), s.active = true ∧
  s.sched.released = a :: rest ∧ a.header.skind ≠ skAbort ∧ x = a.header.context ∧ s.undeclared x = false ∧ s.opnumOk
  x a.header.opnum = true ∧ s.senderOk a = true ∧ s.swatchDup a = false ∧ a.header.part ≤ a.header.partsM1 ∧
  ((s.checkDesc (s.knownDescs x a.header.opnum) a).map (s.rangeOk a)) ≠ some false ∧ s.cutHolds x a.port = none ∧
  a.header.opnum = s.opnum x ∧ s.ctxState x ≠ ctxClosing ∧ s.drainHolds x = false ∧ (s.op x).early = [] ∧ s.kind x ≠
  kParity ∧ s.ctxState x ≠ ctxIdle :=
  ⟨released
    { port := 9, header := { skind := 3, context := 5, opnum := 3, rank := 0, length := 64, seq := 4 }, ptr := 7, account := 2 }
    (collective kAllGather), 5,
    { port := 9, header := { skind := 3, context := 5, opnum := 3, rank := 0, length := 64, seq := 4 }, ptr := 7, account := 2 },
    [], by decide +kernel⟩

theorem holds_progressTimeout : ∃ (s : State) (x : Nat) (limit : Nat), s.active = true ∧ x < 65536 ∧ s.ctxState x =
  ctxOpen ∧ limit = s.rd F.LST_TIMEOUT_PROGRESS_US (s.lastOf x) ∧ limit ≠ 0 ∧ (s.op x).timerAt + us limit ≤ s.now ∧
  s.countsMet x = false :=
  ⟨{ (collective kBarrier).wr F.LST_TIMEOUT_PROGRESS_US 3 2 with now := us 3 }, 5, 3, by decide +kernel⟩

theorem holds_progressTimeout_2 : ∃ (s : State) (x : Nat) (limit : Nat), s.active = true ∧ x < 65536 ∧ limit = s.rd
  F.LST_TIMEOUT_PROGRESS_US (s.lastOf x) ∧ (limit = 0 ∨ s.now < (s.op x).timerAt + us limit) :=
  ⟨collective kBarrier, 5, (collective kBarrier).rd F.LST_TIMEOUT_PROGRESS_US 2, by decide +kernel⟩

theorem holds_abortSwatch : ∃ (s : State) (x : Nat) (a : Arrived) (rest : List Arrived), s.active = true ∧
  s.sched.released = a :: rest ∧ a.header.skind = skAbort ∧ x = a.header.context ∧ s.undeclared x = false ∧ s.opnumOk
  x a.header.opnum = true ∧ s.senderOk a = true ∧ s.swatchDup a = false ∧ a.header.part ≤ a.header.partsM1 ∧
  s.abortable x a.header.opnum = true :=
  ⟨released
    { port := 9, header := { skind := 5, context := 5, opnum := 3, rank := 0, length := 64, seq := 0 }, ptr := 7, account := 2 }
    ((collective kBarrier).wr F.LST_CFG_LEVEL 2 2), 5,
    { port := 9, header := { skind := 5, context := 5, opnum := 3, rank := 0, length := 64, seq := 0 }, ptr := 7, account := 2 },
    [], by decide +kernel⟩

theorem holds_tick : ∃ (s : State) (x : Nat), s.active = true ∧ s.pending = [] ∧ s.now % 4 = 1 ∧ x < 65536 ∧ (s.op
  x).early = [] ∧ s.kind x ≠ kParity ∧ (s.sched.refused = [] ∧ s.sched.refusedOpp = [] ∧ s.sched.copies = []) ∧
  s.link.downNext = [] ∧ s.host.deciding = none ∧ (s.link.ports.entries.all (fun e => e.2.offUntil.isNone) = true) ∧
  (s.link.lasers.entries.all (fun e => e.2.resetUntil.isNone) = true) ∧ s.marks = [(s.now, .ending x (s.opnum x)
  stIncomplete)] ∧ s.ctxState x = ctxOpen ∧ s.countsMet x = false :=
  ⟨{ (collective kBarrier) with now := 5, marks := [(5, .ending 5 3 stIncomplete)] }, 5, by decide +kernel⟩

theorem holds_tick_2 : ∃ (s : State) (x : Nat), s.active = true ∧ s.pending = [] ∧ s.now % 4 = 1 ∧ x < 65536 ∧ (s.op
  x).early = [] ∧ s.kind x ≠ kParity ∧ (s.sched.refused = [] ∧ s.sched.refusedOpp = [] ∧ s.sched.copies = []) ∧
  s.link.downNext = [] ∧ s.host.deciding = none ∧ (s.link.ports.entries.all (fun e => e.2.offUntil.isNone) = true) ∧
  (s.link.lasers.entries.all (fun e => e.2.resetUntil.isNone) = true) ∧ s.marks = [(s.now, .ending x (s.opnum x)
  stAborted)] ∧ s.abortable x (s.opnum x) = true :=
  ⟨{ (collective kBarrier) with now := 5, marks := [(5, .ending 5 3 stAborted)] }, 5, by decide +kernel⟩

theorem holds_exchangePlacement : ∃ (s : State) (x : Nat) (n : Nat) (m : Nat), s.active = true ∧ x < 65536 ∧
  s.placeReady x = true ∧ (s.op x).early = [] ∧ (n = ((s.placements x).map (fun p => p.counts.foldl (· + ·) 0)).foldl
  (· + ·) 0) ∧ (m = ((s.placements x).zipIdx.map (fun p => if p.1.fenced then ((s.operands (s.lastOf x)).map (fun r =>
  (s.manifest x r).getD p.2 0)).foldl (· + ·) 0 else 0)).foldl (· + ·) 0) :=
  ⟨((collective kExchange).wr F.INS_FENCE_PORTS 1024 0).setOp 5 (fun o =>
    { o with manifests := [(0, [1, 2]), (1, [3, 4])] }), 5, 0, 6, by decide +kernel⟩

theorem holds_exchangeSwatchAssemble : ∃ (s : State) (x : Nat) (d : Nat) (k : Nat) (p : Placement) (l : List Byte),
  s.active = true ∧ x < 65536 ∧ d < 256 ∧ (s.op x).placed[d]? = some p ∧ s.kind x = kExchange ∧ s.marked (.placed x) 2
  = false ∧ p.fenced = false ∧ k < s.outSwatches x p ∧ p.done.contains k = false ∧ (s.ctxState x = ctxOpen ∨
  s.ctxState x = ctxFlush) ∧ (s.op x).early = [] ∧ s.destBytes x d p (4096 * k) (min (4096 * k + 4096) (s.outStream x
  p)) = some l :=
  ⟨(collective kExchange).setOp 5 (fun o =>
    { o with manifests := [(0, []), (1, [])], placed := [{ fenced := false, counts := [0, 0], done := [] }, { fenced := false, counts := [0, 0], done := [] }] }),
    5, 1, 0, { fenced := false, counts := [0, 0], done := [] }, List.replicate 512 0, by decide +kernel⟩

theorem holds_admissionDecide : ∃ (s : State) (k : Nat) (u : Nat) (x : Nat) (c : Nat) (ch : Chunk) (p : Place),
  s.active = true ∧ k < 416 ∧ u < 16 ∧ s.marked (.request k u) 4 = false ∧ (firstBy chunkBefore ((s.allChunks.filter
  (fun e => e.2.2.last == u && e.2.2.place.isNone && s.ownerCluster e.1 e.2.1 == some k && decide (e.2.2.earliest ≤
  s.arith))).filter (fun e => s.admitDecision e.1 e.2.1 k e.2.2 != .heldBack)) = some (x, c, ch)) ∧ s.admitDecision x
  c k ch = .enter p :=
  ⟨chunked ({ last := 2, since := 0 }) ((((collective kAllReduce).wr F.CL_LOG2PHYS_MAPPED 1 0).wr F.CL_LOG2PHYS_PHYS 7
    0)), 7, 2, 5, 0, { last := 2, since := 0 }, .welt, by decide +kernel⟩

theorem holds_admissionDecide_2 : ∃ (s : State) (k : Nat) (u : Nat) (x : Nat) (c : Nat) (ch : Chunk), s.active = true
  ∧ k < 416 ∧ u < 16 ∧ s.marked (.request k u) 4 = false ∧ (firstBy chunkBefore ((s.allChunks.filter (fun e =>
  e.2.2.last == u && e.2.2.place.isNone && s.ownerCluster e.1 e.2.1 == some k && decide (e.2.2.earliest ≤
  s.arith))).filter (fun e => s.admitDecision e.1 e.2.1 k e.2.2 != .heldBack)) = some (x, c, ch)) ∧ s.chunk x c = some
  ch ∧ s.admitDecision x c k ch = .noSpace :=
  ⟨chunked ({ last := 2, since := 0 }) ((((collective kAllReduce).wr F.CL_LOG2PHYS_MAPPED 1 0).wr F.CL_LOG2PHYS_PHYS 7
    0).wr F.WLT_CTX_NEED 9 5), 7, 2, 5, 0, { last := 2, since := 0 }, by decide +kernel⟩

theorem holds_freezeDieStop : ∃ (s : State) (u : Nat) (die : Nat), s.active = true ∧ u < 16 ∧ die < 4 ∧ s.wltState u =
  wltFreezing ∧ s.lastState u ≠ lstPaused ∧ (s.hold u).stopped.contains die = false :=
  ⟨(collective kAllReduce).wr F.WLT_STATE_STATE wltFreezing 2, 2, 3, by decide +kernel⟩

theorem holds_holdEnter : ∃ (s : State) (u : Nat) (x : Nat) (n : Nat), s.active = true ∧ u < 16 ∧ s.wltState u =
  wltFreezing ∧ s.lastState u ≠ lstPaused ∧ (∀ d < 4, (s.hold u).stopped.contains d = true) ∧ (s.hold
  u).highs.contains (x, n) = true ∧ (∀ e ∈ (s.hold u).highs, e.1 = x → e.2 = n) :=
  ⟨((collective kAllReduce).wr F.WLT_STATE_STATE wltFreezing 2).setHold 2
    { stopped := [3, 1, 0, 2], highs := [(5, 8)] }, 2, 5, 8, by decide +kernel⟩

theorem holds_spineHoldReceive : ∃ (s : State) (u : Nat) (j : Nat) (port : Nat) (ptr : Nat) (l : List Byte) (rest :
  List (Nat × List Byte × Nat)), s.active = true ∧ s.sched.grantsIn = (port, l, ptr) :: rest ∧ u = field l 1 1 % 16 ∧
  j = port / 4 % max 1 s.spineCount ∧ s.accepted = true ∧ s.flag F.LST_CFG_VALID u = true ∧ s.level u = levelSegment ∧
  port % 4 = 3 ∧ (s.comp.spines.get [u, j]).epoch ≤ field l 4 4 ∧ field l 0 1 = 1 ∧ (s.marks.any (fun e => e.2 matches
  .trigger ..) = false) :=
  ⟨{ (((rounds.wr F.LST_CFG_VALID 1 2).wr F.LST_CFG_LEVEL levelSegment 2) : State) with sched := { (((rounds.wr F.LST_CFG_VALID 1 2).wr F.LST_CFG_LEVEL levelSegment 2) : State).sched with grantsIn := [(11, grantPayload 1 2 7 0 1 [(5, 3)], 40)] } },
    2, 0, 11, 40, grantPayload 1 2 7 0 1 [(5, 3)], [], by decide +kernel⟩

theorem holds_spineHoldReceive_2 : ∃ (s : State) (u : Nat) (j : Nat) (port : Nat) (ptr : Nat) (l : List Byte) (rest :
  List (Nat × List Byte × Nat)), s.active = true ∧ s.sched.grantsIn = (port, l, ptr) :: rest ∧ u = field l 1 1 % 16 ∧
  j = port / 4 % max 1 s.spineCount ∧ s.accepted = true ∧ s.flag F.LST_CFG_VALID u = true ∧ s.level u = levelSegment ∧
  port % 4 = 3 ∧ (s.comp.spines.get [u, j]).epoch ≤ field l 4 4 ∧ field l 0 1 = 2 :=
  ⟨{ (((rounds.wr F.LST_CFG_VALID 1 2).wr F.LST_CFG_LEVEL levelSegment 2) : State) with sched := { (((rounds.wr F.LST_CFG_VALID 1 2).wr F.LST_CFG_LEVEL levelSegment 2) : State).sched with grantsIn := [(11, grantPayload 2 2 7 0 1 [], 40)] } },
    2, 0, 11, 40, grantPayload 2 2 7 0 1 [], [], by decide +kernel⟩

theorem holds_spineHoldReceive_3 : ∃ (s : State) (u : Nat) (j : Nat) (port : Nat) (ptr : Nat) (l : List Byte) (rest :
  List (Nat × List Byte × Nat)), s.active = true ∧ s.sched.grantsIn = (port, l, ptr) :: rest ∧ u = field l 1 1 % 16 ∧
  j = port / 4 % max 1 s.spineCount ∧ s.accepted = true ∧ s.flag F.LST_CFG_VALID u = true ∧ s.level u = levelSegment ∧
  port % 4 = 3 ∧ field l 4 4 < (s.comp.spines.get [u, j]).epoch :=
  ⟨{ ({ ((rounds.wr F.LST_CFG_VALID 1 2).wr F.LST_CFG_LEVEL levelSegment 2) with comp := { ((rounds.wr F.LST_CFG_VALID 1 2).wr F.LST_CFG_LEVEL levelSegment 2).comp with spines := ((rounds.wr F.LST_CFG_VALID 1 2).wr F.LST_CFG_LEVEL levelSegment 2).comp.spines.set [2, 0] { epoch := 8, held := true } } } : State) with sched := { ({ ((rounds.wr F.LST_CFG_VALID 1 2).wr F.LST_CFG_LEVEL levelSegment 2) with comp := { ((rounds.wr F.LST_CFG_VALID 1 2).wr F.LST_CFG_LEVEL levelSegment 2).comp with spines := ((rounds.wr F.LST_CFG_VALID 1 2).wr F.LST_CFG_LEVEL levelSegment 2).comp.spines.set [2, 0] { epoch := 8, held := true } } } : State).sched with grantsIn := [(11, grantPayload 2 2 7 0 1 [], 40)] } },
    2, 0, 11, 40, grantPayload 2 2 7 0 1 [], [], by decide +kernel⟩

theorem holds_operandFetchRequest : ∃ (s : State) (x : Nat) (c : Nat) (ch : Chunk) (n : Src × Option Src) (l :
  NodeLack), s.active = true ∧ x < 65536 ∧ s.chunk x c = some ch ∧ ch.place ≠ none ∧ (s.nodesOf x)[ch.issued]? = some
  n ∧ s.nodeLack x c ch.issued ch n = l ∧ l.absent = false ∧ l.operands ≠ [] ∧ (s.bufferUse ch.cluster +
  (l.operands.foldl (fun b r => b + s.operandBytes x c r) 0 + s.slotSize x * (l.partials.length + b2n l.room)) ≤
  65536) ∧ (l.room && !s.roomSafe x c ch.issued ch.cluster) = false :=
  ⟨chunked ({ last := 2, since := 0, place := some .welt, cluster := 7 }) (((collective kAllReduce).setStored 7 (some
    (.swatch aHeader [1, 2]))).setOp 5 (fun o =>
    { o with inputs := [⟨{ arrivedAt 4 with header := { aHeader with skind := 0, rank := 0, length := 2 } }, true⟩, ⟨{ arrivedAt 5 with header := { aHeader with skind := 0, rank := 1, length := 2 } }, true⟩] })),
    5, 0, { last := 2, since := 0, place := some .welt, cluster := 7 }, (.operand 0, some (.operand 1)),
    { operands := [0, 1], absent := false, partials := [], room := false }, by decide +kernel⟩

theorem holds_operandArrive : ∃ (s : State) (x : Nat) (c : Nat) (ch : Chunk) (r : Nat) (since : Nat), s.active = true
  ∧ x < 65536 ∧ s.chunk x c = some ch ∧ (ch.requested.find? (fun q => q.1 == r) = some (r, since)) ∧ since + 24 ≤
  s.arith ∧ (s.operandSender x r).isSome = true :=
  ⟨chunked ({ last := 2, since := 0, place := some .welt, cluster := 7, requested := [(1, 3)] })
    ({ (collective kAllReduce) with now := 1000 }), 5, 0,
    { last := 2, since := 0, place := some .welt, cluster := 7, requested := [(1, 3)] }, 1, 3, by decide +kernel⟩

theorem holds_nodeIssue : ∃ (s : State) (k : Nat) (x : Nat) (c : Nat) (ch : Chunk) (n : Src × Option Src), s.active =
  true ∧ k < 416 ∧ (firstBy issueBefore (s.allChunks.filter (fun e => e.2.2.place.isSome && e.2.2.cluster == k &&
  s.nodeReady e.1 e.2.1 e.2.2)) = some (x, c, ch)) ∧ s.comp.freeAt.get [k] ≤ s.arith ∧ (s.nodesOf x)[ch.issued]? =
  some n :=
  ⟨chunked ({ last := 2, since := 0, place := some .welt, cluster := 7, buffered := [0, 1] }) ((collective
    kAllReduce)), 7, 5, 0, { last := 2, since := 0, place := some .welt, cluster := 7, buffered := [0, 1] }, (.operand
    0, some (.operand 1)), by decide +kernel⟩

theorem holds_checkVerdict : ∃ (s : State) (k : Nat) (x : Nat), s.active = true ∧ k < 416 ∧ x < 65536 :=
  ⟨base, 7, 5, by decide +kernel⟩

theorem holds_checkVerdict_2 : ∃ (s : State) (x : Nat) (c : Nat) (ch : Chunk) (k : Nat), s.active = true ∧ x < 65536 ∧
  s.chunk x c = some ch ∧ k < 416 ∧ ch.place ≠ none ∧ ch.cluster = k ∧ ch.replays < 2 ∧ (s.marks.any (fun e => e.2
  matches .admitted ..) = false) :=
  ⟨chunked
    ({ last := 2, since := 0, place := some .welt, cluster := 7, issued := 1, root := some [{ v := .fin false 1 0, sat := false }] })
    ((collective kAllReduce)), 5, 0,
    { last := 2, since := 0, place := some .welt, cluster := 7, issued := 1, root := some [{ v := .fin false 1 0, sat := false }] },
    7, by decide +kernel⟩

theorem holds_checkVerdict_3 : ∃ (s : State) (x : Nat) (c : Nat) (ch : Chunk) (k : Nat), s.active = true ∧ x < 65536 ∧
  s.chunk x c = some ch ∧ k < 416 ∧ ch.place ≠ none ∧ ch.cluster = k ∧ 2 ≤ ch.replays ∧ (s.marks.any (fun e => e.2
  matches .admitted ..) = false) :=
  ⟨chunked ({ last := 2, since := 0, place := some .welt, cluster := 7, replays := 2 }) ((collective kAllReduce)), 5,
    0, { last := 2, since := 0, place := some .welt, cluster := 7, replays := 2 }, 7, by decide +kernel⟩

theorem holds_chunkCommit : ∃ (s : State) (x : Nat) (c : Nat) (ch : Chunk) (el : List Elem), s.active = true ∧ x <
  65536 ∧ s.chunk x c = some ch ∧ ch.root = some el ∧ ch.lastAt + 7 ≤ s.arith ∧ (s.hasRecord x c = true → ch.record ≠
  none) ∧ s.kind x ≠ kParity ∧ s.level ch.last ≠ levelSegment ∧ (s.op x).early = [] ∧ ((s.allocAll ch.last (reqCore
  (clDie ch.cluster)) (((resultParts (fmtCap (s.outFmt x)) (s.rootOut x c ch el).bytes).zipIdx).map (fun p => .swatch
  { skind := skResult, partsM1 := (resultParts (fmtCap (s.outFmt x)) (s.rootOut x c ch el).bytes).length - 1, part := p.2, context := x, opnum := s.opnum x, chunk := c, length := p.1.length }
  p.1))).isSome = true) :=
  ⟨chunked
    ({ last := 2, since := 0, place := some .welt, cluster := 7, issued := 1, root := some [{ v := .fin false 1 0, sat := false }] })
    (alloted { (collective kAllReduce) with now := 1000 }), 5, 0,
    { last := 2, since := 0, place := some .welt, cluster := 7, issued := 1, root := some [{ v := .fin false 1 0, sat := false }] },
    [{ v := .fin false 1 0, sat := false }], by decide +kernel⟩

theorem holds_chunkCommit_2 : ∃ (s : State) (x : Nat) (c : Nat) (ch : Chunk) (el : List Elem), s.active = true ∧ x <
  65536 ∧ s.chunk x c = some ch ∧ ch.root = some el ∧ ch.lastAt + 7 ≤ s.arith ∧ (s.hasRecord x c = true → ch.record ≠
  none) ∧ s.kind x ≠ kParity ∧ s.level ch.last = levelSegment ∧ (s.op x).early = [] ∧ ((s.allocAll ch.last (reqCore
  (clDie ch.cluster)) (((resultParts 4096 (partialBytes (accCode (s.inFmt x) (s.operator x)) el)).zipIdx).map (fun p
  => .swatch
  { skind := skPartial, partsM1 := (resultParts 4096 (partialBytes (accCode (s.inFmt x) (s.operator x)) el)).length - 1, part := p.2, context := x, opnum := s.opnum x, chunk := c, rank := s.rd F.LST_SEG_INDEX ch.last, length := p.1.length, weight := s.rd F.LST_SEG_SIZE ch.last }
  p.1))).isSome = true) :=
  ⟨chunked
    ({ last := 2, since := 0, place := some .welt, cluster := 7, issued := 1, root := some [{ v := .fin false 1 0, sat := false }] })
    (alloted { ((collective kAllReduce).wr F.LST_CFG_LEVEL levelSegment 2) with now := 1000 }), 5, 0,
    { last := 2, since := 0, place := some .welt, cluster := 7, issued := 1, root := some [{ v := .fin false 1 0, sat := false }] },
    [{ v := .fin false 1 0, sat := false }], by decide +kernel⟩

theorem holds_numRecordArrive : ∃ (s : State) (x : Nat) (c : Nat) (ch : Chunk) (l : List Byte), s.active = true ∧ x <
  65536 ∧ s.chunk x c = some ch ∧ ch.place ≠ none ∧ s.hasRecord x c = true ∧ ch.record = none ∧ ch.admitAt + 40 ≤
  s.arith ∧ (s.gddrRead (s.recordAddr x c) (recordSize (s.outFmt x)) none).1 = some l :=
  ⟨chunked ({ last := 2, since := 0, place := some .welt, cluster := 7 })
    ({ (collective kAllReduce).wr F.OPC_LIMIT_MAX_CHUNKS 4 5 with now := 1000 }), 5, 0,
    { last := 2, since := 0, place := some .welt, cluster := 7 }, List.replicate 8 0, by decide +kernel⟩

theorem holds_numRecordArrive_2 : ∃ (s : State) (x : Nat) (c : Nat) (ch : Chunk), s.active = true ∧ x < 65536 ∧
  s.chunk x c = some ch ∧ ch.place ≠ none ∧ s.hasRecord x c = true ∧ ch.record = none ∧ ch.admitAt + 40 ≤ s.arith :=
  ⟨chunked ({ last := 2, since := 0, place := some .welt, cluster := 7 })
    ({ (collective kAllReduce).wr F.OPC_LIMIT_MAX_CHUNKS 4 5 with now := 1000 }), 5, 0,
    { last := 2, since := 0, place := some .welt, cluster := 7 }, by decide +kernel⟩

theorem holds_spareSelfTestStart : ∃ (s : State) (k : Nat), s.active = true ∧ s.comp.testing = none ∧ s.nextSpare =
  some k :=
  ⟨base.wr F.CL_STATE_STATE clSpare 9, 9, by decide +kernel⟩

theorem holds_spareSelfTestEnd : ∃ (s : State) (k : Nat) (since : Nat), s.active = true ∧ s.comp.testing = some (k,
  since) ∧ since + us 40 ≤ s.now :=
  ⟨{ base with now := us 50, comp := { base.comp with testing := some (9, us 2) } }, 9, us 2, by decide +kernel⟩

theorem holds_coreDieLoss : ∃ (s : State) (die : Nat) (k : Nat), s.active = true ∧ die < 4 ∧ k ∈ dieClusters die ∧
  s.clState k = clActive :=
  ⟨(base.wr F.CL_STATE_STATE clActive 7).wr F.CL_LOG2PHYS_MAPPED 1 7, 0, 7, by decide +kernel⟩

theorem holds_monitorInputsRead : ∃ (s : State) (die : Nat) (smp : Sample), s.active = true ∧ die < 4 ∧
  (s.comp.monitors.get [die]).current = some smp ∧ (s.comp.monitors.get [die]).read = false ∧ (s.comp.monitors.get
  [die]).since + smp.inCells ≤ s.arith :=
  ⟨{ (rounds : State) with now := 4000, comp := { (rounds : State).comp with monitors := (rounds : State).comp.monitors.set [1] { current := some { context := 5, chunk := 0, inputs := [], inCells := 2, outCells := 1, adds := 8, errs := [] }, since := 3, read := false } } },
    1, { context := 5, chunk := 0, inputs := [], inCells := 2, outCells := 1, adds := 8, errs := [] },
    by decide +kernel⟩

theorem holds_shadowCheckComplete : ∃ (s : State) (die : Nat) (smp : Sample), s.active = true ∧ die < 4 ∧
  (s.comp.monitors.get [die]).current = some smp ∧ (s.comp.monitors.get [die]).read = true ∧ (s.comp.monitors.get
  [die]).since + smp.inCells + smp.outCells + ceilDiv smp.adds 8 ≤ s.arith :=
  ⟨{ (rounds : State) with now := 4000, comp := { (rounds : State).comp with monitors := (rounds : State).comp.monitors.set [1] { current := some { context := 5, chunk := 0, inputs := [], inCells := 2, outCells := 1, adds := 8, errs := [] }, since := 3, read := true } } },
    1, { context := 5, chunk := 0, inputs := [], inCells := 2, outCells := 1, adds := 8, errs := [] },
    by decide +kernel⟩

theorem holds_spillFetchComplete : ∃ (s : State) (x : Nat) (c : Nat) (ch : Chunk) (q : Nat) (j : SpillJob) (p : Nat ×
  List Elem), s.active = true ∧ x < 65536 ∧ s.chunk x c = some ch ∧ s.spillTurn (clDie ch.cluster) x c q false = some
  j ∧ (ch.slots.find? (fun e => e.1 == q) = some p) ∧ s.spillReady (clDie ch.cluster) j ≤ s.arith ∧ s.aheadOfSpill
  (s.slotAddrs x ch (ch.slotOf q)) 4096 = false ∧ ((ch.away.find? (fun a => a.1 == q)).isSome = true) ∧ (((s.slotAddrs
  x ch (ch.slotOf q)).filterMap (fun a => s.gddrFailed a 4096)).head? = none) :=
  ⟨chunked
    ({ last := 2, since := 0, place := some .spill, cluster := 7, grans := [0, 1, 2, 3], slots := [(1, [{ v := .fin false 1 0, sat := false }])], away := [(1, 20)], fetching := [(1, 3)] })
    ({ (collective kAllReduce) with now := 4000, comp := { (collective kAllReduce).comp with spills := (collective kAllReduce).comp.spills.set [0] [{ context := 5, chunk := 0, attempt := 0, node := 1, write := false, since := 3 }] } }),
    5, 0,
    { last := 2, since := 0, place := some .spill, cluster := 7, grans := [0, 1, 2, 3], slots := [(1, [{ v := .fin false 1 0, sat := false }])], away := [(1, 20)], fetching := [(1, 3)] },
    1, { context := 5, chunk := 0, attempt := 0, node := 1, write := false, since := 3 }, (1,
    [{ v := .fin false 1 0, sat := false }]), by decide +kernel⟩

theorem holds_spillWritebackComplete : ∃ (s : State) (x : Nat) (c : Nat) (ch : Chunk) (q : Nat) (j : SpillJob) (p :
  Nat × List Elem), s.active = true ∧ x < 65536 ∧ s.chunk x c = some ch ∧ s.spillTurn (clDie ch.cluster) x c q true =
  some j ∧ (ch.slots.find? (fun e => e.1 == q) = some p) ∧ s.spillReady (clDie ch.cluster) j ≤ s.arith ∧
  s.aheadOfSpill (s.slotAddrs x ch (ch.slotOf q)) 4096 = false :=
  ⟨chunked
    ({ last := 2, since := 0, place := some .spill, cluster := 7, grans := [0, 1, 2, 3], slots := [(1, [{ v := .fin false 1 0, sat := false }])], leaving := [1] })
    ({ (collective kAllReduce) with now := 4000, comp := { (collective kAllReduce).comp with spills := (collective kAllReduce).comp.spills.set [0] [{ context := 5, chunk := 0, attempt := 0, node := 1, write := true, since := 3 }] } }),
    5, 0,
    { last := 2, since := 0, place := some .spill, cluster := 7, grans := [0, 1, 2, 3], slots := [(1, [{ v := .fin false 1 0, sat := false }])], leaving := [1] },
    1, { context := 5, chunk := 0, attempt := 0, node := 1, write := true, since := 3 }, (1,
    [{ v := .fin false 1 0, sat := false }]), by decide +kernel⟩

theorem holds_epochCutEnd : ∃ (s : State) (u : Nat) (e : Epoch), s.active = true ∧ u < 16 ∧ (s.sporeLast u).epoch =
  some e ∧ e.cut = true ∧ s.allDescribed u = true ∧ s.allRest u e.covered = true ∧ (s.sporeLast u).held = [] ∧
  (s.gddrWrite (s.sporeBase + e.buffer * s.sporeHalf + 4096 * (s.imagePart u).1) ((s.imageBytes u e).take (4096 *
  (s.imagePart u).2))).1 = true :=
  ⟨spored ctxIdle (some anEpoch), 2, anEpoch, by decide +kernel⟩

theorem holds_epochCutEnd_2 : ∃ (s : State) (u : Nat) (e : Epoch), s.active = true ∧ u < 16 ∧ (s.sporeLast u).epoch =
  some e ∧ (e.cut = false ∨ s.allDescribed u = false ∨ s.allRest u e.covered = false) :=
  ⟨(spored ctxIdle (some anEpoch)).wr F.LST_MEMBER_PRESENT 1 2 0, 2, anEpoch, by decide +kernel⟩

theorem holds_epochCutTimeout : ∃ (s : State) (u : Nat) (e : Epoch), s.active = true ∧ u < 16 ∧ (s.sporeLast u).epoch
  = some e ∧ e.cut = true ∧ e.since + ms (s.rd F.CKP_CFG_CUT_MS) ≤ s.now ∧ (s.sporeLast u).held = [] ∧
  ((s.epochContexts u).all (fun x => s.lastOf x == u && (s.op x).early.isEmpty) = true) :=
  ⟨{ spored ctxOpen (some anEpoch) with now := ms (base.rd F.CKP_CFG_CUT_MS) }, 2, anEpoch, by decide +kernel⟩

theorem holds_epochSecured : ∃ (s : State) (u : Nat) (d : Drain) (rest : List Drain), s.active = true ∧ u < 16 ∧
  (s.sporeLast u).drains = d :: rest ∧ ((s.drainGranules u).find? (fun k => (s.gddrFailed (s.sporeBase + d.buffer *
  s.sporeHalf + 4096 * k) 4096).isSome) = none) ∧ s.tierUp = true ∧ d.since + s.drainCycles u d ≤ s.now ∧
  (s.aheadOfOthers ((((s.drainGranules u).map (fun k => gddrDie (s.sporeBase + d.buffer * s.sporeHalf + 4096 *
  k))).eraseDups).map (4096 * ·)) 4096 = false) ∧ (s.allocNow (stagingBlock (4096 * (s.drainGranules u).length)) 19
  (reqMem 0)).1.isSome = true :=
  ⟨tiered ((staged (spored ctxIdle none)).setSpore 2 (fun l =>
    { l with drains := [{ epoch := 3, since := 0, buffer := 1, total := 6, full := some 1 }] })), 2,
    { epoch := 3, since := 0, buffer := 1, total := 6, full := some 1 }, [], by decide +kernel⟩

theorem holds_epochClose : ∃ (s : State) (u : Nat) (e : Epoch), s.active = true ∧ u < 16 ∧ (s.sporeLast u).epoch =
  some e ∧ s.epochReady u e = true ∧ (∀ z, (s.sporeLast u).lastClose = some z → z + secs (s.rd
  F.CKP_CAD_STAT_INTERVAL_S) ≤ s.now) ∧ ((s.epochContexts u).all (fun x => s.ctxState x == ctxFlush) = true) ∧
  ((s.epochContexts u).all (fun x => s.lastOf x == u && (s.op x).early.isEmpty) = true) :=
  ⟨spored ctxFlush (some { anEpoch with cut := false, committed := true }), 2,
    { anEpoch with cut := false, committed := true }, by decide +kernel⟩

theorem holds_tierWriteFail : ∃ (s : State) (u : Nat) (d : Drain) (rest : List Drain) (i : Nat), s.active = true ∧ u <
  16 ∧ (s.sporeLast u).drains = d :: rest ∧ i < 2 :=
  ⟨(spored ctxIdle none).setSpore 2 (fun l =>
    { l with drains := [{ epoch := 3, since := 0, buffer := 1, total := 6, full := some 1 }] }), 2,
    { epoch := 3, since := 0, buffer := 1, total := 6, full := some 1 }, [], 1, by decide +kernel⟩

theorem holds_lichenUpdate : ∃ (s : State), s.active = true :=
  ⟨base, by decide +kernel⟩

theorem holds_cadenceUpdate : ∃ (s : State), s.active = true :=
  ⟨losing grpWaiting, by decide +kernel⟩

theorem holds_memberFailed : ∃ (s : State) (p : Nat) (u : Nat) (since : Nat), s.active = true ∧ p < 256 ∧
  s.sched.fenceSince.get [p] = some since ∧ s.accepted = true ∧ (s.lastsOn p).contains u = true ∧ s.lastState u ≠
  lstEmpty ∧ since + ms (s.rd F.CKP_CFG_GRACE_MS) ≤ s.now :=
  ⟨{ spored ctxIdle none with now := ms (base.rd F.CKP_CFG_GRACE_MS), sched := { (spored ctxIdle none).sched with fenceSince := (spored ctxIdle none).sched.fenceSince.set [10] (some 0) } },
    10, 2, 0, by decide +kernel⟩

theorem holds_memberFailed_2 : ∃ (s : State) (p : Nat) (since : Nat), s.active = true ∧ p < 256 ∧
  s.sched.fenceSince.get [p] = some since ∧ s.now < since + ms (s.rd F.CKP_CFG_GRACE_MS) :=
  ⟨{ base.wr F.CKP_CFG_GRACE_MS 2 with sched := { base.sched with fenceSince := base.sched.fenceSince.set [10] (some 0) } },
    10, 0, by decide +kernel⟩

theorem holds_regrowthStart : ∃ (s : State) (u : Nat) (g : Nat), s.active = true ∧ u < 16 ∧ g < 32 ∧ s.flag
  F.CKP_GROUP_VALID u g = true ∧ s.groupState u g = grpWaiting ∧ s.lostPresent u g = true ∧ s.ctxState (s.rd
  F.CKP_GROUP_REGROW_CTX u g) = ctxIdle ∧ s.beyond u g = false :=
  ⟨(losing grpWaiting).wr F.CKP_EPOCH_DONE 3 2, 2, 0, by decide +kernel⟩

theorem holds_rollback : ∃ (s : State) (u : Nat) (r : Recovery), s.active = true ∧ u < 16 ∧ (s.sporeLast u).recovery =
  some r ∧ ((s.groups u).filter (fun g => s.groupState u g == grpRegrowing || s.groupState u g == grpRestoring) ≠ [])
  ∧ ((s.groups u).all (fun g => s.groupState u g == grpProtected || (((s.groups u).filter (fun g => s.groupState u g
  == grpRegrowing || s.groupState u g == grpRestoring)).contains g && (s.spore.groups.get [u, g]).finished)) = true) ∧
  ((s.contexts.filter (fun x => (s.coveredBy u).contains (s.lastOf x))).all (fun x => s.ctxState x == ctxIdle ||
  s.ctxState x == ctxUndeclared) = true) ∧ (s.lasts.all (fun v => v == u || (s.sporeLast v).recovery == none) = true)
  ∧ s.lastState u = lstPaused :=
  ⟨((losing grpRegrowing).setSpore 2 (fun l => { l with recovery := some { paused := [2] } })).setGroup 2 0 (fun k =>
    { k with finished := true }), 2, { paused := [2] }, by decide +kernel⟩

theorem holds_restoreStart : ∃ (s : State) (u : Nat) (r : Recovery), s.active = true ∧ u < 16 ∧ (s.sporeLast
  u).recovery = some r ∧ r.full = none ∧ (s.groups u).any (s.beyond u) = true ∧ s.rd F.CKP_FULL_EPOCH u = noEpoch :=
  ⟨((losing grpUnrecoverable).setSpore 2 (fun l => { l with recovery := some { paused := [2] } })).wr F.CKP_FULL_EPOCH
    noEpoch 2, 2, { paused := [2] }, by decide +kernel⟩

theorem holds_restoreStart_2 : ∃ (s : State) (u : Nat) (r : Recovery), s.active = true ∧ u < 16 ∧ (s.sporeLast
  u).recovery = some r ∧ r.full = none ∧ (s.groups u).any (s.beyond u) = true ∧ s.rd F.CKP_FULL_EPOCH u ≠ noEpoch ∧
  (s.groups u).all (s.lostPresent u) = true ∧ ((s.groups u).all (fun g => s.ctxState (s.rd F.CKP_GROUP_REGROW_CTX u g)
  == ctxIdle) = true) :=
  ⟨((losing grpUnrecoverable).setSpore 2 (fun l => { l with recovery := some { paused := [2] } })).wr F.CKP_FULL_EPOCH
    3 2, 2, { paused := [2] }, by decide +kernel⟩

theorem holds_shardReadComplete : ∃ (s : State) (u : Nat) (g : Nat) (i : Nat) (slot : Nat) (z : Nat) (r : Recovery),
  s.active = true ∧ u < 16 ∧ g < 32 ∧ (s.sporeLast u).recovery = some r ∧ r.full = some (z, slot) ∧ s.groupState u g =
  grpRestoring ∧ (s.spore.groups.get [u, g]).opened = true ∧ (s.spore.groups.get [u, g]).sent.contains i = false ∧ i <
  s.rd F.CKP_GROUP_SIZE u g ∧ s.flag F.LST_MEMBER_PRESENT u (s.rd F.CKP_GROUP_BASE u g + i) = true ∧ s.tierUp = true ∧
  s.ctxState (s.rd F.CKP_GROUP_REGROW_CTX u g) = ctxFlush ∧ (s.op (s.rd F.CKP_GROUP_REGROW_CTX u g)).early = [] ∧
  ((List.range (s.rd F.CKP_GROUP_SHARD_CHUNKS u g)).all (fun c => !s.poisoned (s.sporeAt (s.shardGranule u g i c
  slot)).1 (s.sporeAt (s.shardGranule u g i c slot)).2) = true) :=
  ⟨restored ({ full := some (3, 1), paused := [2] }), 2, 0, 1, 1, 3, { full := some (3, 1), paused := [2] },
    by decide +kernel⟩

theorem holds_shardReadComplete_2 : ∃ (s : State) (u : Nat) (g : Nat) (i : Nat) (slot : Nat) (z : Nat) (r : Recovery),
  s.active = true ∧ u < 16 ∧ g < 32 ∧ (s.sporeLast u).recovery = some r ∧ r.full = some (z, slot) ∧ s.groupState u g =
  grpRestoring ∧ (s.spore.groups.get [u, g]).opened = true ∧ (s.spore.groups.get [u, g]).sent.contains i = false ∧ i <
  s.rd F.CKP_GROUP_SIZE u g ∧ s.flag F.LST_MEMBER_PRESENT u (s.rd F.CKP_GROUP_BASE u g + i) = true ∧ s.tierUp = true ∧
  s.ctxState (s.rd F.CKP_GROUP_REGROW_CTX u g) = ctxFlush :=
  ⟨restored ({ full := some (3, 1), paused := [2] }), 2, 0, 1, 1, 3, { full := some (3, 1), paused := [2] },
    by decide +kernel⟩

/-! Small checks against the spec's own examples and figures. -/

/-- R483: "123456789". -/
def nine : List Byte := [0x31, 0x32, 0x33, 0x34, 0x35, 0x36, 0x37, 0x38, 0x39]

theorem test_crc32c : crc32c nine = 0xE3069283#32 := by decide +kernel

theorem test_crc16 : crc16 nine = 0x29B1#16 := by decide +kernel

/-- R9: the register area of port 37. -/
theorem test_port_37 : Reg.addr .PRT_LINK_CFG 37 0 / 0x1000 = 0x01025000 / 0x1000 := by decide +kernel

/-- R53's example: PRT5 is stop 14. -/
theorem test_hops : (hops .ccw 0 14, hops .cw 0 14, hops .cw 14 0) = (10, 14, 10) := by decide +kernel

/-- 03_numerics.md, the worked example: node 146 adds ranks 150 and 151, and the tree's height is 8. -/
theorem test_tree_192 : (nodeList false 192)[146]? = some (.operand 150, some (.operand 151)) ∧ height 192 = 8 ∧
    (nodeList false 192).length = 191 := by decide +kernel

/-- The same example: the sum rounds down to BF16 0x3C2D. -/
theorem test_round_bf16 : bf16.encode (bf16.round .nearest (fp32.decode 0x3C2D7FF3)).1 = 0x3C2D := by decide +kernel

theorem test_encode_fp32 : fp32.encode (.fin false 11370483 (-30)) = 0x3C2D7FF3 := by decide +kernel

/-- 04_lasts_and_collectives.md: P_out of a full FP8 chunk with FP32 output, and of a full BSF4 chunk with BSF8 output. -/
theorem test_pOut : pOut fFP32 4096 = 4 ∧ pOut fBSF8a (228 * 32) = 2 := by decide +kernel

/-- R161's example: 8 ranks and 20 chunks. -/
theorem test_owners : ownerRank 8 20 5 = 2 ∧
    (List.range 8).map (fun r => firstOwned 8 20 (r + 1) - firstOwned 8 20 r) = [3, 2, 3, 2, 3, 2, 3, 2] := by decide +kernel

/-- 06_exchange_and_multicast.md, the worked example: placement for destination 3. -/
def asked : List Nat := [40, 12, 35, 50, 27, 44, 30, 41]

theorem test_share : shareLevel 240 asked 50 = 34 ∧ placeRows true 240 asked = [35, 12, 34, 34, 27, 34, 30, 34] ∧
    (List.range 8).map (rowOffset (placeRows true 240 asked)) = [0, 35, 47, 81, 115, 142, 176, 206] := by decide +kernel

theorem test_rank : placeRows false 240 asked = [40, 12, 35, 50, 27, 44, 30, 2] := by decide +kernel

/-- 08_buffer_pools.md, the worked example: pointers and colours. -/
theorem test_pointers : mkPtr 1 0x5A 0x11170 = 0x56811170 ∧ mkPtr 1 0x33 0x11178 = 0x4CC11178 ∧ mkPtr 1 0x5B 0x11170 = 0x56C11170 ∧
    cellColour 70000 = 0 ∧ cellColour 70008 = 1 := by decide +kernel

/-- 09_shaping_and_mirroring.md, the worked example: TOKENS of -4,110 B. -/
theorem test_tokens : ofSigned 40 (-4110 * 256) = 0xFFFFEFF200 % 2 ^ 40 := by decide +kernel

/-- R298: what the neighbour's scrambler sends, the descrambler gives back. -/
theorem test_scrambler : (descramble 96 0x123456789ABCDEF (scramble 96 0x123456789ABCDEF 0xFEDCBA98765432100112233)).1 =
    0xFEDCBA98765432100112233 := by decide +kernel

/-- R298: the Gray code of the levels. -/
theorem test_levels : [0, 1, 2, 3].map levelBits = [(false, false), (false, true), (true, true), (true, false)] := by decide

/-- R300: a comma block is read as it was written; with a bit of its CHECK wrong it is not. -/
theorem test_comma : readComma (Comma.bits { port := 201, pcount := 7, mode := 1, lane := 2 }) =
    some { port := 201, pcount := 7, mode := 1, lane := 2 } ∧
    readComma (Comma.bits { port := 201, pcount := 7, mode := 1, lane := 2 } + 2 ^ 119) = none := by decide +kernel

/-- R65: the first and the last lane's elements of a chunk of FP32. -/
theorem test_lanes : laneItems 4 0 0 = [0, 1, 2, 3] ∧ laneItems 4 3 63 = [1020, 1021, 1022, 1023] := by decide

/-- R71, R176: a result of one element in slot 0 of a chunk lies in its first granule, in lane 0's bank. -/
theorem test_bank : (chunked { last := 2, since := 0, place := some .welt, cluster := 7, grans := [5], slots := [(0, [{ v := .fin false 1 0, sat := false }])] }
    (collective kAllReduce)).weltBank 7 0 = [(5, [0, 0, 0, 0, 0, 0, 0xF0, 0x3F])] := by decide +kernel

end Sys2Proof.Tests
end

section
/-!
SUPPORT. The step as a whole: what runs, that it always goes on, the state after reset, and what every command keeps.
-/

namespace Sys2Proof.Machine

variable {s t : State}

/-! One step. -/

theorem step_of_pending {c : Instr} {rest : List Instr} (h : s.pending = c :: rest) :
    step s = exec c { s with pending := rest } := by
  unfold step
  rw [h]

theorem step_of_idle (h : s.pending = []) : step s = .next s.tick := by
  unfold step
  rw [h]

/-- Settles O1: the queue's two forms, and the clock's tick by `tick_keeps`. -/
theorem stepRunsTheFrontCommand : Obligations.StepRunsTheFrontCommand := by
  unfold Obligations.StepRunsTheFrontCommand
  refine ⟨fun c rest s h => step_of_pending h, fun s h => ⟨s.tick, step_of_idle h, (tick_keeps s).now, ?_⟩⟩
  exact (tick_keeps s).pending.trans h

/-- Every command of the table is guarded, not refused: with its guard open it acts, else it changes nothing. -/
theorem exec_next (c : Instr) (s : State) : ∃ t, exec c s = .next t := by
  cases c <;> exact ⟨_, rfl⟩

/-- Settles O2: a step is a root cycle or a command, and both answer a next state. -/
theorem everyStepGoesOn : Obligations.EveryStepGoesOn := by
  unfold Obligations.EveryStepGoesOn
  intro s
  cases hp : s.pending with
  | nil => exact ⟨s.tick, step_of_idle hp⟩
  | cons c rest =>
    rw [step_of_pending hp]
    exact exec_next c _

/-- Settles O3: decoding answers none whatever the word, so fetching leaves the state. -/
theorem noWordSpellsACommand : Obligations.NoWordSpellsACommand := by
  unfold Obligations.NoWordSpellsACommand
  intro nbits w s
  have hn : decodeTableWord nbits w = none := rfl
  refine ⟨hn, ?_⟩
  unfold State.withFetchWord
  rw [hn]

/-! The state after reset. -/

/-- The bytes of a list stand in canonical form before cells that start after it. -/
theorem cellsWf_cellsFrom_append {lo a : Nat} (l : List Byte) {rest : List Host.Cell} (ha : lo ≤ a)
    (hr : cellsWf (a + l.length) rest = true) : cellsWf lo (cellsFrom a l ++ rest) = true := by
  induction l generalizing lo a with
  | nil => exact cellsWf_mono ha hr
  | cons b l ih =>
    have hrest : cellsWf (a + 1 + l.length) rest = true := by rwa [Nat.add_right_comm]
    have hcons : cellsFrom a (b :: l) = (if b = Memory.blank then [] else [(a, b)]) ++ cellsFrom (a + 1) l := by
      unfold cellsFrom
      rw [List.zipIdx_cons]
      by_cases hb : b = Memory.blank <;> simp [hb]
    rw [hcons]
    split
    · exact ih (by omega) hrest
    · next hb =>
      simp only [List.cons_append, List.nil_append, cellsWf, Bool.and_eq_true, decide_eq_true_eq]
      exact ⟨⟨ha, hb⟩, ih (Nat.le_refl _) hrest⟩

/-- The header and the two images lie one after the other. -/
theorem factoryNvm_wf : factoryNvm.wf = true := by
  have hh : factoryHeader.length ≤ 0x00100000 := by decide +kernel
  have hc : 0x00100000 + (imageHead 2 factoryBody).length ≤ 0x01000000 := by decide +kernel
  have hf : cellsWf 0x01000000 (cellsFrom 0x01000000 (imageHead 1 [])) = true := by
    have := cellsWf_cellsFrom_append (imageHead 1 []) (rest := []) (Nat.le_refl 0x01000000) rfl
    rwa [List.append_nil] at this
  unfold factoryNvm Memory.wf
  rw [List.append_assoc]
  refine cellsWf_cellsFrom_append _ (Nat.zero_le _) ?_
  rw [Nat.zero_add]
  exact cellsWf_cellsFrom_append _ hh (cellsWf_mono hc hf)

/-- Settles O4: the one entry of the register file is sorted, the delivered NVM is in canonical form, the rest empty. -/
theorem resetIsCanonical : Obligations.ResetIsCanonical := by
  unfold Obligations.ResetIsCanonical
  exact ⟨⟨rfl, Memory.wf_empty, rfl, factoryNvm_wf⟩, rfl, rfl, rfl⟩

/-- After reset the register file lists BUSY of the mailbox alone. -/
theorem reset_regs_get (k : Key) : State.reset.regs.get k = if F.HST_MBX_RESP_BUSY.key 0 0 = k then some 1 else none := by
  unfold State.reset SMap.get SMap.getD entriesFind
  split <;> rfl

/-- Settles O5: a key that is not listed reads as its reset value. -/
theorem resetValuesOfRegisters : Obligations.ResetValuesOfRegisters := by
  unfold Obligations.ResetValuesOfRegisters
  constructor
  · intro f i j hk
    unfold State.rd
    rw [reset_regs_get, if_neg hk.symm]
    rfl
  · unfold State.rd
    rw [reset_regs_get, if_pos rfl]
    rfl

/-! What every command keeps. -/

/-- `Keeps` of every command, by the lemma of each. -/
theorem exec_keeps {c : Instr} (h : exec c s = .next t) : Keeps s t := by
  cases c with
  | registerWrite => exact execRegisterWrite_keeps h
  | rcRegisterRead => exact execRcRegisterRead_keeps h
  | lowWordRead => exact execLowWordRead_keeps h
  | highWordRead => exact execHighWordRead_keeps h
  | lowWordWrite => exact execLowWordWrite_keeps h
  | highWordWrite => exact execHighWordWrite_keeps h
  | split64BitAccess => exact execSplit64BitAccess_keeps h
  | ringPacketArrive => exact execRingPacketArrive_keeps h
  | ringLinkFail => exact execRingLinkFail_keeps h
  | ringAccessTimeout => exact execRingAccessTimeout_keeps h
  | hostAbort => exact execHostAbort_keeps h
  | fenceWrite => exact execFenceWrite_keeps h
  | queuePurge => exact execQueuePurge_keeps h
  | liveChangeGo => exact execLiveChangeGo_keeps h
  | liveChangeDrained => exact execLiveChangeDrained_keeps h
  | liveChangeTimeout => exact execLiveChangeTimeout_keeps h
  | shaperCfgWrite => exact execShaperCfgWrite_keeps h
  | policerCfgWrite => exact execPolicerCfgWrite_keeps h
  | mirrorCfgWrite => exact execMirrorCfgWrite_keeps h
  | prbsGeneratorSelect => exact execPrbsGeneratorSelect_keeps h
  | prbsCheckerSelect => exact execPrbsCheckerSelect_keeps h
  | loopbackSelect => exact execLoopbackSelect_keeps h
  | testEnd => exact execTestEnd_keeps h
  | portEnableWrite => exact execPortEnableWrite_keeps h
  | rateChange => exact execRateChange_keeps h
  | laserEnableWrite => exact execLaserEnableWrite_keeps h
  | timeNowWrite => exact execTimeNowWrite_keeps h
  | faultClear => exact execFaultClear_keeps h
  | mgtFaultClear => exact execMgtFaultClear_keeps h
  | faultPinForce => exact execFaultPinForce_keeps h
  | faultInject => exact execFaultInject_keeps h
  | safeStateSelfTest => exact execSafeStateSelfTest_keeps h
  | faultCfgWrite => exact execFaultCfgWrite_keeps h
  | softwareTrigger => exact execSoftwareTrigger_keeps h
  | ringRecordSelect => exact execRingRecordSelect_keeps h
  | ringRecordReady => exact execRingRecordReady_keeps h
  | domainOffWrite => exact execDomainOffWrite_keeps h
  | domainPowerOff => exact execDomainPowerOff_keeps h
  | domainPowerOn => exact execDomainPowerOn_keeps h
  | mbxCommandIssue => exact execMbxCommandIssue_keeps h
  | planLoad => exact execPlanLoad_keeps h
  | planCheck => exact execPlanCheck_keeps h
  | planAcceptDegraded => exact execPlanAcceptDegraded_keeps h
  | planRetire => exact execPlanRetire_keeps h
  | planRetired => exact execPlanRetired_keeps h
  | remap => exact execRemap_keeps h
  | memberReplace => exact execMemberReplace_keeps h
  | memberReplaceTimeout => exact execMemberReplaceTimeout_keeps h
  | memRead => exact execMemRead_keeps h
  | memWrite => exact execMemWrite_keeps h
  | attest => exact execAttest_keeps h
  | identRead => exact execIdentRead_keeps h
  | imageWrite => exact execImageWrite_keeps h
  | svnCommit => exact execSvnCommit_keeps h
  | debugTokenSet => exact execDebugTokenSet_keeps h
  | mbxAbort => exact execMbxAbort_keeps h
  | longOperationEnd => exact execLongOperationEnd_keeps h
  | hostLinkDown => exact execHostLinkDown_keeps h
  | mgtRead => exact execMgtRead_keeps h
  | mgtWrite => exact execMgtWrite_keeps h
  | mgtReset => exact execMgtReset_keeps h
  | debugOpen => exact execDebugOpen_keeps h
  | mgtFrameIgnored => exact execMgtFrameIgnored_keeps h
  | mgtDuplicate => exact execMgtDuplicate_keeps h
  | faultMessage => exact execFaultMessage_keeps h
  | faultRaise => exact execFaultRaise_keeps h
  | levelConditionChange => exact execLevelConditionChange_keeps h
  | intHoldoffEnd => exact execIntHoldoffEnd_keeps h
  | chipResetReaction => exact execChipResetReaction_keeps h
  | faultNoticeRepeat => exact execFaultNoticeRepeat_keeps h
  | mgtWatchdogExpiry => exact execMgtWatchdogExpiry_keeps h
  | collectorSweep => exact execCollectorSweep_keeps h
  | safeState => exact execSafeState_keeps h
  | snapshotStart => exact execSnapshotStart_keeps h
  | snapshotReadTimeout => exact execSnapshotReadTimeout_keeps h
  | snapshotComplete => exact execSnapshotComplete_keeps h
  | periodicTrigger => exact execPeriodicTrigger_keeps h
  | ringCopyBatch => exact execRingCopyBatch_keeps h
  | operatingSecond => exact execOperatingSecond_keeps h
  | persistenceWrite => exact execPersistenceWrite_keeps h
  | pwrGoodRise => exact execPwrGoodRise_keeps h
  | pwrGoodFall => exact execPwrGoodFall_keeps h
  | inputShutdown => exact execInputShutdown_keeps h
  | inputSample => exact execInputSample_keeps h
  | railFault => exact execRailFault_keeps h
  | resetN => exact execResetN_keeps h
  | thermalSample => exact execThermalSample_keeps h
  | pllLockChange => exact execPllLockChange_keeps h
  | bootRom => exact execBootRom_keeps h
  | bootNvmRead => exact execBootNvmRead_keeps h
  | bootVerify => exact execBootVerify_keeps h
  | bootConfig => exact execBootConfig_keeps h
  | bootMemory => exact execBootMemory_keeps h
  | bootLinks => exact execBootLinks_keeps h
  | bootFail => exact execBootFail_keeps h
  | laserSample => exact execLaserSample_keeps h
  | laserMonitorRead => exact execLaserMonitorRead_keeps h
  | laneCommaBlock => exact execLaneCommaBlock_keeps h
  | lossOfSignal => exact execLossOfSignal_keeps h
  | codewordDecode => exact execCodewordDecode_keeps h
  | laneDeskew => exact execLaneDeskew_keeps h
  | portDown => exact execPortDown_keeps h
  | dataBlock => exact execDataBlock_keeps h
  | frameReceive => exact execFrameReceive_keeps h
  | controlBlock => exact execControlBlock_keeps h
  | flowBlock => exact execFlowBlock_keeps h
  | xoffStateChange => exact execXoffStateChange_keeps h
  | flowSend => exact execFlowSend_keeps h
  | fcStall => exact execFcStall_keeps h
  | fecTrendSecond => exact execFecTrendSecond_keeps h
  | timeBlock => exact execTimeBlock_keeps h
  | syncSend => exact execSyncSend_keeps h
  | pdelayReqSend => exact execPdelayReqSend_keeps h
  | syncLossTimeout => exact execSyncLossTimeout_keeps h
  | identSend => exact execIdentSend_keeps h
  | identBlock => exact execIdentBlock_keeps h
  | negotiationTimeout => exact execNegotiationTimeout_keeps h
  | roundStart => exact execRoundStart_keeps h
  | schedFrameStart => exact execSchedFrameStart_keeps h
  | oppFrameStart => exact execOppFrameStart_keeps h
  | tokenRefill => exact execTokenRefill_keeps h
  | frameDeparture => exact execFrameDeparture_keeps h
  | ingressLanding => exact execIngressLanding_keeps h
  | swatchPointerHandoff => exact execSwatchPointerHandoff_keeps h
  | resequence => exact execResequence_keeps h
  | heldSwatchRelease => exact execHeldSwatchRelease_keeps h
  | matchRound => exact execMatchRound_keeps h
  | oppCellsRead => exact execOppCellsRead_keeps h
  | insoleScrub => exact execInsoleScrub_keeps h
  | bufferAlloc => exact execBufferAlloc_keeps h
  | allocWaitExpiry => exact execAllocWaitExpiry_keeps h
  | bufferFree => exact execBufferFree_keeps h
  | mirrorFenceDiscard => exact execMirrorFenceDiscard_keeps h
  | descriptorArrival => exact execDescriptorArrival_keeps h
  | swatchAccept => exact execSwatchAccept_keeps h
  | progressTimeout => exact execProgressTimeout_keeps h
  | abortSwatch => exact execAbortSwatch_keeps h
  | admissionDecide => exact execAdmissionDecide_keeps h
  | freezeDieStop => exact execFreezeDieStop_keeps h
  | holdEnter => exact execHoldEnter_keeps h
  | spineHoldReceive => exact execSpineHoldReceive_keeps h
  | operandFetchRequest => exact execOperandFetchRequest_keeps h
  | operandArrive => exact execOperandArrive_keeps h
  | nodeIssue => exact execNodeIssue_keeps h
  | checkVerdict => exact execCheckVerdict_keeps h
  | chunkCommit => exact execChunkCommit_keeps h
  | numRecordArrive => exact execNumRecordArrive_keeps h
  | spareSelfTestStart => exact execSpareSelfTestStart_keeps h
  | spareSelfTestEnd => exact execSpareSelfTestEnd_keeps h
  | coreDieLoss => exact execCoreDieLoss_keeps h
  | monitorInputsRead => exact execMonitorInputsRead_keeps h
  | shadowCheckComplete => exact execShadowCheckComplete_keeps h
  | spillFetchComplete => exact execSpillFetchComplete_keeps h
  | spillWritebackComplete => exact execSpillWritebackComplete_keeps h
  | exchangePlacement => exact execExchangePlacement_keeps h
  | exchangeSwatchAssemble => exact execExchangeSwatchAssemble_keeps h
  | epochCutEnd => exact execEpochCutEnd_keeps h
  | epochCutTimeout => exact execEpochCutTimeout_keeps h
  | epochSecured => exact execEpochSecured_keeps h
  | epochClose => exact execEpochClose_keeps h
  | tierWriteFail => exact execTierWriteFail_keeps h
  | lichenUpdate => exact execLichenUpdate_keeps h
  | cadenceUpdate => exact execCadenceUpdate_keeps h
  | memberFailed => exact execMemberFailed_keeps h
  | regrowthStart => exact execRegrowthStart_keeps h
  | rollback => exact execRollback_keeps h
  | restoreStart => exact execRestoreStart_keeps h
  | gddrCrcRetry => exact execGddrCrcRetry_keeps h
  | gddrChannelFail => exact execGddrChannelFail_keeps h
  | cxlLinkDown => exact execCxlLinkDown_keeps h
  | cxlLinkUp => exact execCxlLinkUp_keeps h
  | hostLinkUp => exact execHostLinkUp_keeps h
  | inputStartThreshold => exact execInputStartThreshold_keeps h
  | resetNRelease => exact execResetNRelease_keeps h
  | prbsCheckerLock => exact execPrbsCheckerLock_keeps h
  | ringLinkRestore => exact execRingLinkRestore_keeps h
  | domainPowered => exact execDomainPowered_keeps h
  | shardReadComplete => exact execShardReadComplete_keeps h
/-- Settles O6: a tick keeps all but the time, which it moves on by one; a command keeps what `Keeps` says, from the
state with the queue's rest. -/
theorem everyStepKeepsTheState : Obligations.EveryStepKeepsTheState := by
  unfold Obligations.EveryStepKeepsTheState
  intro s t h
  cases hp : s.pending with
  | nil =>
    rw [step_of_idle hp] at h
    cases h
    have hk := tick_keeps s
    refine ⟨hk.canonical, ?_, hk.out, hk.free, hk.pending.trans hp⟩
    exact (Nat.le_succ s.now).trans hk.now.ge
  | cons c rest =>
    rw [step_of_pending hp] at h
    have hk := exec_keeps h
    exact ⟨hk.canonical, hk.now.ge, hk.out, hk.free, hk.pending⟩

/-! What every command leaves unchanged. -/

/-- The mask of a list of registers and a list of parts. -/
def footMask (rs : List Reg) (ps : List Part) : Nat :=
  ps.foldl (fun n p => n ||| 2 ^ p.bit) (rs.foldl (fun n r => n ||| 2 ^ r.ctorIdx) 0)

/-- A bit gathered in a walk was there before, or is some item's. -/
theorem testBit_foldl_or {α : Type} {g : α → Nat} {l : List α} {n k : Nat}
    (h : (l.foldl (fun n a => n ||| 2 ^ g a) n).testBit k = true) : n.testBit k = true ∨ ∃ a ∈ l, g a = k := by
  induction l generalizing n with
  | nil => exact .inl h
  | cons a l ih =>
    rcases ih h with hn | ⟨b, hb, hk⟩
    · rw [Nat.testBit_or, Bool.or_eq_true, Nat.testBit_two_pow, decide_eq_true_eq] at hn
      exact hn.imp id (fun hk => ⟨a, List.mem_cons_self, hk⟩)
    · exact .inr ⟨b, List.mem_cons_of_mem _ hb, hk⟩

theorem footMask_bit {rs : List Reg} {ps : List Part} {k : Nat} (h : (footMask rs ps).testBit k = true) :
    (∃ r ∈ rs, r.ctorIdx = k) ∨ ∃ p ∈ ps, p.bit = k := by
  rcases testBit_foldl_or h with h | h
  · rcases testBit_foldl_or h with h | h
    · rw [Nat.zero_testBit] at h
      cases h
    · exact .inl h
  · exact .inr h

theorem ctorIdx_inj {q r : Reg} (h : q.ctorIdx = r.ctorIdx) : q = r := by
  rw [← Reg.ofNat_ctorIdx q, h, Reg.ofNat_ctorIdx]

theorem part_bit_inj {p q : Part} (h : p.bit = q.bit) : p = q := by
  rw [← Part.ofNat_ctorIdx p, Nat.add_left_cancel h, Part.ofNat_ctorIdx]

/-- A footprint within the mask of two lists touches nothing but what the lists name. -/
theorem Foot.touchesOnly {m : Nat} {rs : List Reg} {ps : List Part} (h : Foot m s t)
    (hm : m &&& footMask rs ps = m := by dsimp only [commandWrites, commandChanges]; decide +kernel) :
    TouchesOnly rs ps s t := by
  refine ⟨fun f i j hf => h.rd f i j ?_, fun p hp => h.part p ?_⟩
  · rw [← Bool.not_eq_true]
    intro hb
    rcases footMask_bit (Sub.bit hm hb) with ⟨r, hr, he⟩ | ⟨p, -, he⟩
    · exact hf (ctorIdx_inj he ▸ hr)
    · have := reg_lt f.reg
      unfold Part.bit at he
      omega
  · rw [← Bool.not_eq_true]
    intro hb
    rcases footMask_bit (Sub.bit hm hb) with ⟨r, -, he⟩ | ⟨q, hq, he⟩
    · have := reg_lt r
      unfold Part.bit at he
      omega
    · exact hp (part_bit_inj he ▸ hq)

/-- The frame of every command: its footprint lies within what `commandWrites` and `commandChanges` list for it. -/
theorem exec_touchesOnly {c : Instr} (h : exec c s = .next t) : TouchesOnly (commandWrites c) (commandChanges c) s t := by
  cases c with
  | registerWrite => exact (execRegisterWrite_foot h).touchesOnly
  | rcRegisterRead => exact (execRcRegisterRead_foot h).touchesOnly
  | lowWordRead => exact (execLowWordRead_foot h).touchesOnly
  | highWordRead => exact (execHighWordRead_foot h).touchesOnly
  | lowWordWrite => exact (execLowWordWrite_foot h).touchesOnly
  | highWordWrite => exact (execHighWordWrite_foot h).touchesOnly
  | split64BitAccess => exact (execSplit64BitAccess_foot h).touchesOnly
  | ringPacketArrive => exact (execRingPacketArrive_foot h).touchesOnly
  | ringLinkFail => exact (execRingLinkFail_foot h).touchesOnly
  | ringAccessTimeout => exact (execRingAccessTimeout_foot h).touchesOnly
  | hostAbort => exact (execHostAbort_foot h).touchesOnly
  | fenceWrite => exact (execFenceWrite_foot h).touchesOnly
  | queuePurge => exact (execQueuePurge_foot h).touchesOnly
  | liveChangeGo => exact (execLiveChangeGo_foot h).touchesOnly
  | liveChangeDrained => exact (execLiveChangeDrained_foot h).touchesOnly
  | liveChangeTimeout => exact (execLiveChangeTimeout_foot h).touchesOnly
  | shaperCfgWrite => exact (execShaperCfgWrite_foot h).touchesOnly
  | policerCfgWrite => exact (execPolicerCfgWrite_foot h).touchesOnly
  | mirrorCfgWrite => exact (execMirrorCfgWrite_foot h).touchesOnly
  | prbsGeneratorSelect => exact (execPrbsGeneratorSelect_foot h).touchesOnly
  | prbsCheckerSelect => exact (execPrbsCheckerSelect_foot h).touchesOnly
  | loopbackSelect => exact (execLoopbackSelect_foot h).touchesOnly
  | testEnd => exact (execTestEnd_foot h).touchesOnly
  | portEnableWrite => exact (execPortEnableWrite_foot h).touchesOnly
  | rateChange => exact (execRateChange_foot h).touchesOnly
  | laserEnableWrite => exact (execLaserEnableWrite_foot h).touchesOnly
  | timeNowWrite => exact (execTimeNowWrite_foot h).touchesOnly
  | faultClear => exact (execFaultClear_foot h).touchesOnly
  | mgtFaultClear => exact (execMgtFaultClear_foot h).touchesOnly
  | faultPinForce => exact (execFaultPinForce_foot h).touchesOnly
  | faultInject => exact (execFaultInject_foot h).touchesOnly
  | safeStateSelfTest => exact (execSafeStateSelfTest_foot h).touchesOnly
  | faultCfgWrite => exact (execFaultCfgWrite_foot h).touchesOnly
  | softwareTrigger => exact (execSoftwareTrigger_foot h).touchesOnly
  | ringRecordSelect => exact (execRingRecordSelect_foot h).touchesOnly
  | ringRecordReady => exact (execRingRecordReady_foot h).touchesOnly
  | domainOffWrite => exact (execDomainOffWrite_foot h).touchesOnly
  | domainPowerOff => exact (execDomainPowerOff_foot h).touchesOnly
  | domainPowerOn => exact (execDomainPowerOn_foot h).touchesOnly
  | mbxCommandIssue => exact (execMbxCommandIssue_foot h).touchesOnly
  | planLoad => exact (execPlanLoad_foot h).touchesOnly
  | planCheck => exact (execPlanCheck_foot h).touchesOnly
  | planAcceptDegraded => exact (execPlanAcceptDegraded_foot h).touchesOnly
  | planRetire => exact (execPlanRetire_foot h).touchesOnly
  | planRetired => exact (execPlanRetired_foot h).touchesOnly
  | remap => exact (execRemap_foot h).touchesOnly
  | memberReplace => exact (execMemberReplace_foot h).touchesOnly
  | memberReplaceTimeout => exact (execMemberReplaceTimeout_foot h).touchesOnly
  | memRead => exact (execMemRead_foot h).touchesOnly
  | memWrite => exact (execMemWrite_foot h).touchesOnly
  | attest => exact (execAttest_foot h).touchesOnly
  | identRead => exact (execIdentRead_foot h).touchesOnly
  | imageWrite => exact (execImageWrite_foot h).touchesOnly
  | svnCommit => exact (execSvnCommit_foot h).touchesOnly
  | debugTokenSet => exact (execDebugTokenSet_foot h).touchesOnly
  | mbxAbort => exact (execMbxAbort_foot h).touchesOnly
  | longOperationEnd => exact (execLongOperationEnd_foot h).touchesOnly
  | hostLinkDown => exact (execHostLinkDown_foot h).touchesOnly
  | mgtRead => exact (execMgtRead_foot h).touchesOnly
  | mgtWrite => exact (execMgtWrite_foot h).touchesOnly
  | mgtReset => exact (execMgtReset_foot h).touchesOnly
  | debugOpen => exact (execDebugOpen_foot h).touchesOnly
  | mgtFrameIgnored => exact (execMgtFrameIgnored_foot h).touchesOnly
  | mgtDuplicate => exact (execMgtDuplicate_foot h).touchesOnly
  | faultMessage => exact (execFaultMessage_foot h).touchesOnly
  | faultRaise => exact (execFaultRaise_foot h).touchesOnly
  | levelConditionChange => exact (execLevelConditionChange_foot h).touchesOnly
  | intHoldoffEnd => exact (execIntHoldoffEnd_foot h).touchesOnly
  | chipResetReaction => exact (execChipResetReaction_foot h).touchesOnly
  | faultNoticeRepeat => exact (execFaultNoticeRepeat_foot h).touchesOnly
  | mgtWatchdogExpiry => exact (execMgtWatchdogExpiry_foot h).touchesOnly
  | collectorSweep => exact (execCollectorSweep_foot h).touchesOnly
  | safeState => exact (execSafeState_foot h).touchesOnly
  | snapshotStart => exact (execSnapshotStart_foot h).touchesOnly
  | snapshotReadTimeout => exact (execSnapshotReadTimeout_foot h).touchesOnly
  | snapshotComplete => exact (execSnapshotComplete_foot h).touchesOnly
  | periodicTrigger => exact (execPeriodicTrigger_foot h).touchesOnly
  | ringCopyBatch => exact (execRingCopyBatch_foot h).touchesOnly
  | operatingSecond => exact (execOperatingSecond_foot h).touchesOnly
  | persistenceWrite => exact (execPersistenceWrite_foot h).touchesOnly
  | pwrGoodRise => exact (execPwrGoodRise_foot h).touchesOnly
  | pwrGoodFall => exact (execPwrGoodFall_foot h).touchesOnly
  | inputShutdown => exact (execInputShutdown_foot h).touchesOnly
  | inputSample => exact (execInputSample_foot h).touchesOnly
  | railFault => exact (execRailFault_foot h).touchesOnly
  | resetN => exact (execResetN_foot h).touchesOnly
  | thermalSample => exact (execThermalSample_foot h).touchesOnly
  | pllLockChange => exact (execPllLockChange_foot h).touchesOnly
  | bootRom => exact (execBootRom_foot h).touchesOnly
  | bootNvmRead => exact (execBootNvmRead_foot h).touchesOnly
  | bootVerify => exact (execBootVerify_foot h).touchesOnly
  | bootConfig => exact (execBootConfig_foot h).touchesOnly
  | bootMemory => exact (execBootMemory_foot h).touchesOnly
  | bootLinks => exact (execBootLinks_foot h).touchesOnly
  | bootFail => exact (execBootFail_foot h).touchesOnly
  | laserSample => exact (execLaserSample_foot h).touchesOnly
  | laserMonitorRead => exact (execLaserMonitorRead_foot h).touchesOnly
  | laneCommaBlock => exact (execLaneCommaBlock_foot h).touchesOnly
  | lossOfSignal => exact (execLossOfSignal_foot h).touchesOnly
  | codewordDecode => exact (execCodewordDecode_foot h).touchesOnly
  | laneDeskew => exact (execLaneDeskew_foot h).touchesOnly
  | portDown => exact (execPortDown_foot h).touchesOnly
  | dataBlock => exact (execDataBlock_foot h).touchesOnly
  | frameReceive => exact (execFrameReceive_foot h).touchesOnly
  | controlBlock => exact (execControlBlock_foot h).touchesOnly
  | flowBlock => exact (execFlowBlock_foot h).touchesOnly
  | xoffStateChange => exact (execXoffStateChange_foot h).touchesOnly
  | flowSend => exact (execFlowSend_foot h).touchesOnly
  | fcStall => exact (execFcStall_foot h).touchesOnly
  | fecTrendSecond => exact (execFecTrendSecond_foot h).touchesOnly
  | timeBlock => exact (execTimeBlock_foot h).touchesOnly
  | syncSend => exact (execSyncSend_foot h).touchesOnly
  | pdelayReqSend => exact (execPdelayReqSend_foot h).touchesOnly
  | syncLossTimeout => exact (execSyncLossTimeout_foot h).touchesOnly
  | identSend => exact (execIdentSend_foot h).touchesOnly
  | identBlock => exact (execIdentBlock_foot h).touchesOnly
  | negotiationTimeout => exact (execNegotiationTimeout_foot h).touchesOnly
  | roundStart => exact (execRoundStart_foot h).touchesOnly
  | schedFrameStart => exact (execSchedFrameStart_foot h).touchesOnly
  | oppFrameStart => exact (execOppFrameStart_foot h).touchesOnly
  | tokenRefill => exact (execTokenRefill_foot h).touchesOnly
  | frameDeparture => exact (execFrameDeparture_foot h).touchesOnly
  | ingressLanding => exact (execIngressLanding_foot h).touchesOnly
  | swatchPointerHandoff => exact (execSwatchPointerHandoff_foot h).touchesOnly
  | resequence => exact (execResequence_foot h).touchesOnly
  | heldSwatchRelease => exact (execHeldSwatchRelease_foot h).touchesOnly
  | matchRound => exact (execMatchRound_foot h).touchesOnly
  | oppCellsRead => exact (execOppCellsRead_foot h).touchesOnly
  | insoleScrub => exact (execInsoleScrub_foot h).touchesOnly
  | bufferAlloc => exact (execBufferAlloc_foot h).touchesOnly
  | allocWaitExpiry => exact (execAllocWaitExpiry_foot h).touchesOnly
  | bufferFree => exact (execBufferFree_foot h).touchesOnly
  | mirrorFenceDiscard => exact (execMirrorFenceDiscard_foot h).touchesOnly
  | descriptorArrival => exact (execDescriptorArrival_foot h).touchesOnly
  | swatchAccept => exact (execSwatchAccept_foot h).touchesOnly
  | progressTimeout => exact (execProgressTimeout_foot h).touchesOnly
  | abortSwatch => exact (execAbortSwatch_foot h).touchesOnly
  | admissionDecide => exact (execAdmissionDecide_foot h).touchesOnly
  | freezeDieStop => exact (execFreezeDieStop_foot h).touchesOnly
  | holdEnter => exact (execHoldEnter_foot h).touchesOnly
  | spineHoldReceive => exact (execSpineHoldReceive_foot h).touchesOnly
  | operandFetchRequest => exact (execOperandFetchRequest_foot h).touchesOnly
  | operandArrive => exact (execOperandArrive_foot h).touchesOnly
  | nodeIssue => exact (execNodeIssue_foot h).touchesOnly
  | checkVerdict => exact (execCheckVerdict_foot h).touchesOnly
  | chunkCommit => exact (execChunkCommit_foot h).touchesOnly
  | numRecordArrive => exact (execNumRecordArrive_foot h).touchesOnly
  | spareSelfTestStart => exact (execSpareSelfTestStart_foot h).touchesOnly
  | spareSelfTestEnd => exact (execSpareSelfTestEnd_foot h).touchesOnly
  | coreDieLoss => exact (execCoreDieLoss_foot h).touchesOnly
  | monitorInputsRead => exact (execMonitorInputsRead_foot h).touchesOnly
  | shadowCheckComplete => exact (execShadowCheckComplete_foot h).touchesOnly
  | spillFetchComplete => exact (execSpillFetchComplete_foot h).touchesOnly
  | spillWritebackComplete => exact (execSpillWritebackComplete_foot h).touchesOnly
  | exchangePlacement => exact (execExchangePlacement_foot h).touchesOnly
  | exchangeSwatchAssemble => exact (execExchangeSwatchAssemble_foot h).touchesOnly
  | epochCutEnd => exact (execEpochCutEnd_foot h).touchesOnly
  | epochCutTimeout => exact (execEpochCutTimeout_foot h).touchesOnly
  | epochSecured => exact (execEpochSecured_foot h).touchesOnly
  | epochClose => exact (execEpochClose_foot h).touchesOnly
  | tierWriteFail => exact (execTierWriteFail_foot h).touchesOnly
  | lichenUpdate => exact (execLichenUpdate_foot h).touchesOnly
  | cadenceUpdate => exact (execCadenceUpdate_foot h).touchesOnly
  | memberFailed => exact (execMemberFailed_foot h).touchesOnly
  | regrowthStart => exact (execRegrowthStart_foot h).touchesOnly
  | rollback => exact (execRollback_foot h).touchesOnly
  | restoreStart => exact (execRestoreStart_foot h).touchesOnly
  | gddrCrcRetry => exact (execGddrCrcRetry_foot h).touchesOnly
  | gddrChannelFail => exact (execGddrChannelFail_foot h).touchesOnly
  | cxlLinkDown => exact (execCxlLinkDown_foot h).touchesOnly
  | cxlLinkUp => exact (execCxlLinkUp_foot h).touchesOnly
  | hostLinkUp => exact (execHostLinkUp_foot h).touchesOnly
  | inputStartThreshold => exact (execInputStartThreshold_foot h).touchesOnly
  | resetNRelease => exact (execResetNRelease_foot h).touchesOnly
  | prbsCheckerLock => exact (execPrbsCheckerLock_foot h).touchesOnly
  | ringLinkRestore => exact (execRingLinkRestore_foot h).touchesOnly
  | domainPowered => exact (execDomainPowered_foot h).touchesOnly
  | shardReadComplete => exact (execShardReadComplete_foot h).touchesOnly
/-- Settles O7: the frame of every command, by its footprint. -/
theorem commandsTouchOnlyTheirOwn : Obligations.CommandsTouchOnlyTheirOwn := by
  unfold Obligations.CommandsTouchOnlyTheirOwn
  exact fun _ _ _ h => exec_touchesOnly h

end Sys2Proof.Machine
end

section
/-!
SUPPORT. The address map in both directions, and that a state in canonical form is what it reads as.
-/

namespace Sys2Proof.Machine

/-! The address map (R9, R10). -/

/-- The word four bytes above the base of a 64-bit register is answered as its upper half. -/
theorem hit_self_high {r : Reg} {i j : Nat} (hi : i < r.at.count1) (hj : j < r.at.count2) (hb : r.at.bits = 64) :
    r.hit (r.addr i j + 4) = some ⟨r, i, j, true⟩ := by
  have hs := spaced_all r
  simp only [RegAt.spaced, Bool.and_eq_true, Bool.or_eq_true, beq_iff_eq, Nat.ble_eq] at hs
  obtain ⟨⟨-, h1⟩, h2⟩ := hs
  have hbytes : r.at.bytes = 8 := by
    unfold RegAt.bytes
    omega
  have hjr : j * r.at.stride2 + r.at.bytes ≤ r.at.row := by
    have := Nat.mul_le_mul_right r.at.stride2 (Nat.le_sub_one_of_lt hj)
    unfold RegAt.row
    omega
  have hI : (if r.at.count1 ≤ 1 then 0 else (i * r.at.stride1 + (j * r.at.stride2 + 4)) / r.at.stride1) = i := by
    split
    · omega
    · rw [Nat.add_comm, Nat.add_mul_div_right _ _ (by omega), Nat.div_eq_of_lt (by omega), Nat.zero_add]
  have hJ : (if r.at.count2 ≤ 1 then 0 else (j * r.at.stride2 + 4) / r.at.stride2) = j := by
    split
    · omega
    · rw [Nat.add_comm, Nat.add_mul_div_right _ _ (by omega), Nat.div_eq_of_lt (by omega), Nat.zero_add]
  unfold Reg.hit Reg.addr
  dsimp only
  rw [if_neg (by omega)]
  have e : r.at.base + i * r.at.stride1 + j * r.at.stride2 + 4 - r.at.base =
      i * r.at.stride1 + (j * r.at.stride2 + 4) := by omega
  rw [e, hI, Nat.add_sub_cancel_left, hJ, Nat.add_sub_cancel_left, if_pos ⟨hi, hj⟩, if_neg (by omega), if_pos ⟨rfl, hb⟩]

/-- The byte offset that an answer adds to its register's address lies within the register. -/
theorem high_lt_bytes {r : Reg} {b : Bool} (h : b = true → r.at.bits = 64) : (if b then 4 else 0) < r.at.bytes := by
  have hb := bytes_cases r
  split
  · next hh =>
    have := h hh
    omega
  · omega

/-- No two registers answer to one address. -/
theorem hit_unique {q r : Reg} {a : Nat} {x y : Hit} (hq : q.hit a = some x) (hr : r.hit a = some y) : q = r := by
  by_contra hne
  obtain ⟨-, hxi, hxj, hxa, hx4⟩ := hit_addr hq
  obtain ⟨-, hyi, hyj, hya, hy4⟩ := hit_addr hr
  have hx := high_lt_bytes hx4
  have hy := high_lt_bytes hy4
  have hxy := hxa.symm.trans hya
  unfold Reg.addr at hxy
  have ha := apart_all hne
  unfold RegAt.apart at ha
  rcases Bool.or_eq_true _ _ ▸ ha with hb | hb
  · exact before_ne hb hxi hxj hyi hyj hx hy hxy
  · exact before_ne hb hyi hyj hxi hxj hy hx hxy.symm

theorem hit_of_hitAt {a : Nat} {h : Hit} (hh : hitAt a = some h) : ∃ r : Reg, r.hit a = some h := by
  obtain ⟨r, -, hr⟩ := List.exists_of_findSome?_eq_some hh
  exact ⟨r, hr⟩

theorem hitAt_of_hit {r : Reg} {a : Nat} {h : Hit} (hr : r.hit a = some h) : hitAt a = some h := by
  cases hh : hitAt a with
  | none =>
    rw [List.findSome?_eq_none_iff.mp hh r (mem_all r)] at hr
    cases hr
  | some x =>
    obtain ⟨q, hq⟩ := hit_of_hitAt hh
    rw [← hq, hit_unique hq hr, hr]

/-- The upper half of a 64-bit register stands four bytes on. -/
theorem hitAt_addr_high {r : Reg} {i j : Nat} (hi : i < r.at.count1) (hj : j < r.at.count2) (hb : r.at.bits = 64) :
    hitAt (r.addr i j + 4) = some ⟨r, i, j, true⟩ := hitAt_of_hit (hit_self_high hi hj hb)

/-- Settles O8: a register's words by `hitAt_addr` and `hitAt_addr_high`, the way back by `hit_addr`. -/
theorem addressMapIsExact : Obligations.AddressMapIsExact := by
  unfold Obligations.AddressMapIsExact
  refine ⟨fun r i j hi hj => ⟨hitAt_addr r hi hj, hitAt_addr_high hi hj⟩, fun a h hh => ?_⟩
  obtain ⟨r, hr⟩ := hit_of_hitAt hh
  obtain ⟨hreg, hi, hj, ha, h64⟩ := hit_addr hr
  rw [hreg]
  exact ⟨ha, hi, hj, h64⟩

/-! The canonical form of sparse maps. -/

section
variable {V : Type}

theorem keyLt_irrefl (k : Key) : keyLt k k = false := by
  induction k with
  | nil => rfl
  | cons n k ih => simp [keyLt, ih]

/-- A key below all listed ones is not listed. -/
theorem entriesFind_of_lt {k : Key} {l : List (Key × V)} (h : ∀ e ∈ l, keyLt k e.1 = true) : entriesFind k l = none := by
  cases hf : entriesFind k l with
  | none => rfl
  | some v =>
    have := h _ (entriesFind_mem hf)
    rw [keyLt_irrefl] at this
    cases this

/-- A first key with a value that the other list does not hold is told by reading it. -/
theorem entriesFind_head_ne {d v : V} {k : Key} {t u : List (Key × V)} (hv : v ≠ d)
    (hu : ∀ e ∈ u, keyLt k e.1 = true) : (entriesFind k ((k, v) :: t)).getD d ≠ (entriesFind k u).getD d := by
  rw [entriesFind_of_lt hu]
  simpa [entriesFind] using hv

/-- What sorted lists of entries without a value `d` list for every key settles them. -/
theorem entries_ext {d : V} {l l' : List (Key × V)} (hs : entriesSorted l = true) (hs' : entriesSorted l' = true)
    (hd : ∀ e ∈ l, e.2 ≠ d) (hd' : ∀ e ∈ l', e.2 ≠ d)
    (h : ∀ k, (entriesFind k l).getD d = (entriesFind k l').getD d) : l = l' := by
  induction l generalizing l' with
  | nil =>
    cases l' with
    | nil => rfl
    | cons e' t' => exact absurd (h e'.1).symm (entriesFind_head_ne (hd' e' List.mem_cons_self) (by simp))
  | cons e t ih =>
    cases l' with
    | nil => exact absurd (h e.1) (entriesFind_head_ne (hd e List.mem_cons_self) (by simp))
    | cons e' t' =>
      obtain ⟨k, v⟩ := e
      obtain ⟨k', v'⟩ := e'
      simp only [entriesSorted, Bool.and_eq_true, List.all_eq_true] at hs hs'
      obtain ⟨hk, hst⟩ := hs
      obtain ⟨hk', hst'⟩ := hs'
      rw [List.forall_mem_cons] at hd hd'
      obtain ⟨hv, hdt⟩ := hd
      obtain ⟨hv', hdt'⟩ := hd'
      have key : k = k' := by
        by_contra hne
        cases hlt : keyLt k k' with
        | true =>
          refine entriesFind_head_ne hv (fun x hx => ?_) (h k)
          rcases List.mem_cons.mp hx with rfl | hx
          · exact hlt
          · exact keyLt_trans hlt (hk' x hx)
        | false =>
          have hgt := keyLt_total hlt (Ne.symm hne)
          refine entriesFind_head_ne hv' (fun x hx => ?_) (h k').symm
          rcases List.mem_cons.mp hx with rfl | hx
          · exact hgt
          · exact keyLt_trans hgt (hk x hx)
      subst key
      have hval : v = v' := by simpa [entriesFind] using h k
      have htail : t = t' := by
        refine ih hst hst' hdt hdt' (fun x => ?_)
        by_cases hx : k = x
        · rw [← hx, entriesFind_of_lt hk, entriesFind_of_lt hk']
        · simpa [entriesFind, hx] using h x
      rw [hval, htail]

/-- Sparse maps in canonical form that read alike are equal. -/
theorem SMap.ext_get [Inhabited V] [DecidableEq V] {m n : SMap V} (hm : m.wf = true) (hn : n.wf = true)
    (h : ∀ k, m.get k = n.get k) : m = n := by
  unfold SMap.wf SMap.wfD at hm hn
  simp only [Bool.and_eq_true, List.all_eq_true, decide_eq_true_eq] at hm hn
  obtain ⟨entries⟩ := m
  obtain ⟨entries'⟩ := n
  exact congrArg SMap.mk (entries_ext hm.1 hn.1 hm.2 hn.2 h)

end

/-! The canonical form of byte memories. -/

/-- A first cell that the other list does not hold is told by reading it. -/
theorem cellsFind_head_ne {k n : Nat} {b : Byte} {t u : List Host.Cell} (hb : b ≠ Memory.blank) (hu : cellsWf n u = true)
    (hk : k < n) : cellsFind k ((k, b) :: t) ≠ cellsFind k u := by
  rw [cellsFind_of_lt hu hk, cellsFind, if_pos rfl]
  exact hb

theorem cells_ext {lo lo' : Nat} {l l' : List Host.Cell} (hl : cellsWf lo l = true) (hl' : cellsWf lo' l' = true)
    (h : ∀ a, cellsFind a l = cellsFind a l') : l = l' := by
  induction l generalizing lo lo' l' with
  | nil =>
    cases l' with
    | nil => rfl
    | cons c' t' =>
      obtain ⟨k', b'⟩ := c'
      simp only [cellsWf, Bool.and_eq_true, decide_eq_true_eq] at hl'
      exact absurd (h k').symm (cellsFind_head_ne (n := k' + 1) hl'.1.2 rfl (Nat.lt_succ_self _))
  | cons c t ih =>
    obtain ⟨k, b⟩ := c
    simp only [cellsWf, Bool.and_eq_true, decide_eq_true_eq] at hl
    obtain ⟨⟨-, hb⟩, ht⟩ := hl
    cases l' with
    | nil => exact absurd (h k) (cellsFind_head_ne (n := k + 1) hb rfl (Nat.lt_succ_self _))
    | cons c' t' =>
      obtain ⟨k', b'⟩ := c'
      have hc' : cellsWf k' ((k', b') :: t') = true := by
        simp only [cellsWf, Bool.and_eq_true, decide_eq_true_eq] at hl' ⊢
        exact ⟨⟨Nat.le_refl _, hl'.1.2⟩, hl'.2⟩
      have hc : cellsWf k ((k, b) :: t) = true := by
        simp only [cellsWf, Bool.and_eq_true, decide_eq_true_eq]
        exact ⟨⟨Nat.le_refl _, hb⟩, ht⟩
      simp only [cellsWf, Bool.and_eq_true, decide_eq_true_eq] at hl'
      obtain ⟨⟨-, hb'⟩, ht'⟩ := hl'
      have key : k = k' := by
        rcases Nat.lt_trichotomy k k' with hlt | heq | hgt
        · exact absurd (h k) (cellsFind_head_ne hb hc' hlt)
        · exact heq
        · exact absurd (h k').symm (cellsFind_head_ne hb' hc hgt)
      subst key
      have hval : b = b' := by simpa [cellsFind] using h k
      have htail : t = t' := by
        refine ih ht ht' (fun a => ?_)
        rcases Nat.lt_or_ge a (k + 1) with ha | ha
        · rw [cellsFind_of_lt ht ha, cellsFind_of_lt ht' ha]
        · have := h a
          rwa [cellsFind, cellsFind, if_neg (by omega), if_neg (by omega), if_neg (by omega), if_neg (by omega)] at this
      rw [hval, htail]

/-- Memories in canonical form that read alike are equal. -/
theorem Memory.ext_read {m n : Memory} (hm : m.wf = true) (hn : n.wf = true) (h : ∀ a, m.read a = n.read a) : m = n := by
  obtain ⟨cells⟩ := m
  obtain ⟨cells'⟩ := n
  exact congrArg Memory.mk (cells_ext hm hn h)

/-- Settles O9: the two uniqueness lemmas, and the laws of a write of several bytes. -/
theorem canonicalFormIsUnique : Obligations.CanonicalFormIsUnique := by
  unfold Obligations.CanonicalFormIsUnique
  refine ⟨fun m n hm hn h => SMap.ext_get hm hn h, fun m n hm hn h => Memory.ext_read hm hn h, fun m a l hm => ?_⟩
  refine ⟨Memory.wf_writeN hm a l, ?_, fun b hb => Memory.read_writeN_out hm l hb⟩
  rw [Memory.readN_writeN hm a (Nat.le_refl _), List.take_length]

end Sys2Proof.Machine
end

section
/-!
SUPPORT. Accesses to registers: what an access error leaves, and what a write leaves in the fields of its register and in
every other one.
-/

namespace Sys2Proof.Machine

variable {s t : State} {r : Reg} {i j : Nat} {cls : PortClass} {a v : Nat}

/-! Addresses of registers (R8, R9). -/

/-- Registers stand on words within BAR0. -/
def RegAt.placed (t : RegAt) : Bool :=
  t.base % 4 == 0 && t.stride1 % 4 == 0 && t.stride2 % 4 == 0 &&
    Nat.ble (t.base + (t.count1 - 1) * t.stride1 + t.row) (2 ^ 28)

theorem all_placed : Reg.all.all (fun r => r.at.placed) = true := by decide +kernel

/-- Each of a register's places lies between its first byte and its last. -/
theorem addr_bounds (hi : i < r.at.count1) (hj : j < r.at.count2) :
    r.at.base ≤ r.addr i j ∧ r.addr i j + r.at.bytes ≤ r.at.base + (r.at.count1 - 1) * r.at.stride1 + r.at.row := by
  have m1 := Nat.mul_le_mul_right r.at.stride1 (Nat.le_sub_one_of_lt hi)
  have m2 := Nat.mul_le_mul_right r.at.stride2 (Nat.le_sub_one_of_lt hj)
  unfold Reg.addr RegAt.row
  omega

theorem wfAddr_add (hi : i < r.at.count1) (hj : j < r.at.count2) {e : Nat} (he : e < r.at.bytes) (h4 : e % 4 = 0) :
    wfAddr (r.addr i j + e) = true := by
  have hp := List.all_eq_true.mp all_placed r (mem_all r)
  simp only [RegAt.placed, Bool.and_eq_true, beq_iff_eq, Nat.ble_eq] at hp
  obtain ⟨⟨⟨hb, h1⟩, h2⟩, hend⟩ := hp
  have hbounds := addr_bounds hi hj
  have m1 : i * r.at.stride1 % 4 = 0 := Nat.mod_eq_zero_of_dvd (Dvd.dvd.mul_left (Nat.dvd_of_mod_eq_zero h1) i)
  have m2 : j * r.at.stride2 % 4 = 0 := Nat.mod_eq_zero_of_dvd (Dvd.dvd.mul_left (Nat.dvd_of_mod_eq_zero h2) j)
  have hmod : r.addr i j % 4 = 0 := by
    unfold Reg.addr
    omega
  unfold wfAddr
  rw [Bool.and_eq_true, decide_eq_true_eq, decide_eq_true_eq]
  omega

theorem wfAddr_addr (hi : i < r.at.count1) (hj : j < r.at.count2) : wfAddr (r.addr i j) = true :=
  wfAddr_add (e := 0) hi hj (by have := bytes_cases r; omega) rfl

theorem wfAddr_high (hi : i < r.at.count1) (hj : j < r.at.count2) (hb : r.at.bits = 64) : wfAddr (r.addr i j + 4) = true :=
  wfAddr_add hi hj (by have := bytes_cases r; omega) rfl

theorem wfWidth_bits (r : Reg) : wfWidth r.at.bits = true := by
  rcases bytes_cases r with ⟨-, hb⟩ | ⟨-, hb⟩ <;> rw [hb] <;> rfl

/-- The upper half of a register lies outside the record windows too. -/
theorem no_window_high (hi : i < r.at.count1) (hj : j < r.at.count2) (hb : r.at.bits = 64) :
    (inRecordWindow (r.addr i j + 4) || inRingWindow (r.addr i j + 4)) = false := by
  have hw := List.all_eq_true.mp all_windowFree r (mem_all r)
  simp only [RegAt.windowFree, Bool.or_eq_true, Nat.ble_eq] at hw
  have hbounds := addr_bounds hi hj
  have hbytes := bytes_cases r
  simp only [inRecordWindow, inRingWindow, Bool.or_eq_false_iff, Bool.and_eq_false_iff, decide_eq_false_iff_not]
  omega

/-! Access errors (R16, R17, R43). -/

/-- An access error sets its bit and captures, and sends a raise to the collector. -/
theorem accessErr_touchesOnly {f : Fld} (hf : f.reg = .GLB_ACCESS_ERR) :
    TouchesOnly [.GLB_ACCESS_ERR, .GLB_ACCESS_ADDR] [.ring, .flt] s (s.accessErr f cls a) := by
  refine Foot.touchesOnly (accessErr_foot ?_ ?_ (Foot.refl _ s)) (Nat.and_self _)
  · show _ &&& _ = _
    decide +kernel
  · rw [hf]
    decide +kernel

theorem accessErr_rd_other {f g : Fld} (hf : f.reg = .GLB_ACCESS_ERR)
    (hg : g.reg ≠ .GLB_ACCESS_ERR ∧ g.reg ≠ .GLB_ACCESS_ADDR) : (s.accessErr f cls a).rd g i j = s.rd g i j :=
  (accessErr_touchesOnly hf).regs g i j (by simpa using hg)

/-- The bit of an access error is set; a raise at the management die changes no register. -/
theorem accessErr_rd_same {f : Fld} (hw : f.width = 1) : (s.accessErr f cls a).rd f = 1 := by
  unfold State.accessErr State.raise State.raiseN State.deliver
  rw [if_pos rfl, rd_with_flt, rd_latch_same, hw]
  rfl

@[simp] theorem accessErr_out (f : Fld) : (s.accessErr f cls a).out = s.out := by
  unfold State.accessErr
  dsimp only
  split <;> split <;> rfl

theorem accessErr_bus {f : Fld} (hf : f.reg = .GLB_ACCESS_ERR) : (s.accessErr f cls a).bus = s.bus :=
  (accessErr_touchesOnly hf).parts .bus (by decide)

theorem accessErr_isSafe {f : Fld} (hf : f.reg = .GLB_ACCESS_ERR) : (s.accessErr f cls a).isSafe = s.isSafe := by
  unfold State.isSafe
  rw [flag_eq, flag_eq, accessErr_rd_other hf (by decide)]

/-! The latch and the held word of a class: they are no part of the registers. -/

@[simp] theorem setHeld_rd (h : Option HeldWord) (g : Fld) : (s.setHeld cls h).rd g i j = s.rd g i j := rfl
@[simp] theorem setHeld_regs (h : Option HeldWord) : (s.setHeld cls h).regs = s.regs := rfl
@[simp] theorem setHeld_out (h : Option HeldWord) : (s.setHeld cls h).out = s.out := rfl
@[simp] theorem setHeld_flt (h : Option HeldWord) : (s.setHeld cls h).flt = s.flt := rfl
@[simp] theorem setHeld_mem (h : Option HeldWord) : (s.setHeld cls h).mem = s.mem := rfl
@[simp] theorem setHeld_isSafe (h : Option HeldWord) : (s.setHeld cls h).isSafe = s.isSafe := rfl
@[simp] theorem setHeld_held (h : Option HeldWord) : (s.setHeld cls h).bus.held.get [cls.code] = h :=
  SMap.get_set_same _ _ _

@[simp] theorem setHeld_afterWrite (h : Option HeldWord) (f : Fld) :
    (s.setHeld cls h).afterWrite f i j v = s.afterWrite f i j v := rfl

@[simp] theorem setHeld_rwlLocked (h : Option HeldWord) : (s.setHeld cls h).rwlLocked = s.rwlLocked := rfl

@[simp] theorem setHeld_regBits (h : Option HeldWord) : (s.setHeld cls h).regBits r i j = s.regBits r i j := rfl

@[simp] theorem setLatch_regs (l : Option Latch) : (s.setLatch cls l).regs = s.regs := rfl
@[simp] theorem setLatch_out (l : Option Latch) : (s.setLatch cls l).out = s.out := rfl
@[simp] theorem setLatch_latch (l : Option Latch) : (s.setLatch cls l).bus.latch.get [cls.code] = l :=
  SMap.get_set_same _ _ _

/-! The fields of a register. -/

theorem all_fields_within : Reg.all.all (fun r => r.fields.all (fun f => Nat.blt f.hi r.at.bits && Nat.ble f.lo f.hi)) = true := by
  decide +kernel

theorem fields_within {f : Fld} (h : f ∈ r.fields) : f.hi < r.at.bits ∧ f.lo ≤ f.hi := by
  have := List.all_eq_true.mp (List.all_eq_true.mp all_fields_within r (mem_all r)) f h
  simpa only [Bool.and_eq_true, Nat.blt_eq, Nat.ble_eq] using this

theorem all_fields_nodup : Reg.all.all (fun r => decide (r.fields.map Fld.lo).Nodup) = true := by decide +kernel

theorem fields_lo_nodup (r : Reg) : (r.fields.map Fld.lo).Nodup :=
  of_decide_eq_true (List.all_eq_true.mp all_fields_nodup r (mem_all r))

/-- A register's field is told by its key. -/
theorem fields_key_inj {f g : Fld} (hf : f ∈ r.fields) (hg : g ∈ r.fields) (h : f.key i j = g.key i j) : f = g := by
  simp only [Fld.key, List.cons.injEq] at h
  exact List.inj_on_of_nodup_map (fields_lo_nodup r) hf hg h.2.1

/-- Keys of another register, or of other indices, differ from those of this one. -/
theorem key_ne_of_other {f g : Fld} {i' j' : Nat} (hf : f.reg = r) (h : g.reg ≠ r ∨ i' ≠ i ∨ j' ≠ j) :
    g.key i' j' ≠ f.key i j := by
  intro hk
  simp only [Fld.key, List.cons.injEq, and_true] at hk
  obtain ⟨hreg, -, hi, hj⟩ := hk
  rcases h with h | h | h
  · exact h ((ctorIdx_inj hreg).trans hf)
  · exact h hi
  · exact h hj

/-- The rate of a link stands in PRT_LINK_CFG alone. -/
theorem fields_ne_rate (hn : r ≠ .PRT_LINK_CFG) {f : Fld} (hf : f ∈ r.fields) : f ≠ F.PRT_LINK_CFG_RATE :=
  fun he => hn (by rw [← fields_reg hf, he])

/-- A write of the whole register reaches every field. -/
theorem reached_all (r : Reg) : reached r (r.at.bits - 1) 0 = r.fields := by
  unfold reached
  rw [List.filter_eq_self]
  intro f hf
  obtain ⟨h1, h2⟩ := fields_within hf
  rw [decide_eq_true_eq]
  omega

/-- The bits of a field do not depend on bits above its register. -/
theorem bits_mod_two_pow {hi lo n : Nat} (h : hi < n) : bits (v % 2 ^ n) hi lo = bits v hi lo := by
  unfold bits
  apply Nat.eq_of_testBit_eq
  intro k
  simp only [Nat.testBit_mod_two_pow, Nat.testBit_shiftRight]
  by_cases hk : k < hi + 1 - lo
  · rw [decide_eq_true (by omega : lo + k < n), Bool.true_and]
  · rw [decide_eq_false hk, Bool.false_and, Bool.false_and]

theorem bits_lt (v hi lo : Nat) : bits v hi lo < 2 ^ (hi + 1 - lo) := Nat.mod_lt _ (Nat.two_pow_pos _)

theorem afterWrite_mod {f : Fld} (hf : f ∈ r.fields) :
    s.afterWrite f i j (v % 2 ^ r.at.bits) = s.afterWrite f i j v := by
  unfold State.afterWrite
  rw [bits_mod_two_pow (fields_within hf).1]

/-! A write of one field (R18, R19, R22). -/

/-- What a write leaves in a field depends on the field, the lock and the marks of the cycle. -/
theorem afterWrite_congr {f : Fld} (hr : t.rd f i j = s.rd f i j) (hl : t.rwlLocked = s.rwlLocked)
    (hm : t.marks = s.marks) (hn : t.now = s.now) : t.afterWrite f i j v = s.afterWrite f i j v := by
  unfold State.afterWrite State.marked
  rw [hr, hl, hm, hn]

/-- A locked field keeps its value. -/
theorem afterWrite_locked {f : Fld} (hc : f.code i j = .rwl) (hl : s.rwlLocked = true) :
    s.afterWrite f i j v = s.rd f i j := by
  unfold State.afterWrite
  rw [hc, hl]
  rfl

/-- A write sets the field to what `afterWrite` says, or changes nothing where that is the field's value. -/
theorem writeField_cases {f : Fld} (hn : f ≠ F.PRT_LINK_CFG_RATE) :
    (s.writeField f i j v = s.wr f (s.afterWrite f i j v) i j ∧ s.afterWrite f i j v < 2 ^ f.width) ∨
    (s.writeField f i j v = s ∧ s.afterWrite f i j v = s.rd f i j) := by
  have hx : bits v f.hi f.lo < 2 ^ f.width := bits_lt v f.hi f.lo
  unfold State.writeField State.afterWrite
  cases f.code i j
  case rw =>
    dsimp only
    split
    · exact .inr ⟨rfl, rfl⟩
    · exact .inl ⟨rfl, hx⟩
  case rwl =>
    dsimp only
    rw [if_neg hn]
    split
    · exact .inr ⟨rfl, rfl⟩
    · exact .inl ⟨rfl, hx⟩
  case w1c =>
    dsimp only
    split
    · exact .inr ⟨rfl, rfl⟩
    · exact .inl ⟨rfl, Nat.two_pow_pos _⟩
  -- the other codes take no write
  all_goals exact .inr ⟨rfl, rfl⟩

theorem writeField_rd_same {f : Fld} (hn : f ≠ F.PRT_LINK_CFG_RATE) :
    (s.writeField f i j v).rd f i j = s.afterWrite f i j v := by
  rcases writeField_cases (s := s) (i := i) (j := j) (v := v) hn with ⟨h, hlt⟩ | ⟨h, he⟩
  · rw [h, rd_wr_same, Nat.mod_eq_of_lt hlt]
  · rw [h, he]

/-- A write of a field changes the register file at most. -/
theorem writeField_shape {f : Fld} (hn : f ≠ F.PRT_LINK_CFG_RATE) :
    ∃ m, s.writeField f i j v = { s with regs := m } := by
  rcases writeField_cases (s := s) (i := i) (j := j) (v := v) hn with ⟨h, -⟩ | ⟨h, -⟩
  · exact ⟨_, h⟩
  · exact ⟨s.regs, h⟩

theorem writeField_rd_other {f g : Fld} {i' j' : Nat} (hn : f ≠ F.PRT_LINK_CFG_RATE) (hk : g.key i' j' ≠ f.key i j) :
    (s.writeField f i j v).rd g i' j' = s.rd g i' j' := by
  rcases writeField_cases (s := s) (i := i) (j := j) (v := v) hn with ⟨h, -⟩ | ⟨h, -⟩
  · rw [h, rd_wr_key _ _ _ _ _ _ _ _ hk]
  · rw [h]

/-- The fields of LST_PLAN_STAT are read-only: a write leaves the state. -/
theorem writeField_planStat {f : Fld} (hf : f ∈ Reg.fields .LST_PLAN_STAT) : s.writeField f i j v = s := by
  have hro : ∀ f ∈ Reg.fields .LST_PLAN_STAT, f.acc = .ro := by decide
  unfold State.writeField Fld.code
  rw [hro f hf]

/-- A field write moves no plan lock: that reads LST_PLAN_STAT and the host's operations. -/
theorem writeField_rwlLocked {f : Fld} (hf : f ∈ r.fields) (hn : r ≠ .PRT_LINK_CFG) :
    (s.writeField f i j v).rwlLocked = s.rwlLocked := by
  have hrate := fields_ne_rate hn hf
  by_cases hr : r = .LST_PLAN_STAT
  · rw [writeField_planStat (hr ▸ hf)]
  · obtain ⟨m, hm⟩ := writeField_shape (s := s) (i := i) (j := j) (v := v) hrate
    have hrd : ({ s with regs := m } : State).rd F.LST_PLAN_STAT_STATE = s.rd F.LST_PLAN_STAT_STATE := by
      rw [← hm]
      exact writeField_rd_other hrate (key_ne_of_other (fields_reg hf) (.inl (Ne.symm hr)))
    rw [hm]
    unfold State.rwlLocked State.locked State.loadingPlan State.planState
    rw [hrd]
    rfl

/-! A write of several fields. -/

theorem writeFields_rd_other {fs : List Fld} {g : Fld} {i' j' : Nat} (hn : ∀ f ∈ fs, f ≠ F.PRT_LINK_CFG_RATE)
    (hk : ∀ f ∈ fs, g.key i' j' ≠ f.key i j) : (s.writeFields fs i j v).rd g i' j' = s.rd g i' j' :=
  each_keeps s (fun t => t.rd g i' j') (fun _ f hf => writeField_rd_other (hn f hf) (hk f hf))

/-- Each field of a register that a write reaches takes what `afterWrite` says of the state before. -/
theorem writeFields_rd_mem {fs : List Fld} (hs : fs.Sublist r.fields) (hn : r ≠ .PRT_LINK_CFG) {f : Fld} (hf : f ∈ fs) :
    (s.writeFields fs i j v).rd f i j = s.afterWrite f i j v := by
  have hnd : (fs.map Fld.lo).Nodup := (fields_lo_nodup r).sublist (hs.map _)
  have hsub := hs.subset
  clear hs
  induction fs generalizing s with
  | nil => cases hf
  | cons g fs ih =>
    rw [List.map_cons, List.nodup_cons] at hnd
    obtain ⟨hg, hnd⟩ := hnd
    have hgr : g ∈ r.fields := hsub List.mem_cons_self
    have hsub' : ∀ x ∈ fs, x ∈ r.fields := fun x hx => hsub (List.mem_cons_of_mem _ hx)
    have hstep : s.writeFields (g :: fs) i j v = (s.writeField g i j v).writeFields fs i j v := rfl
    have hne : ∀ x ∈ fs, g.key i j ≠ x.key i j := fun x hx hk =>
      hg (List.mem_map.mpr ⟨x, hx, (congrArg Fld.lo (fields_key_inj hgr (hsub' x hx) hk)).symm⟩)
    rw [hstep]
    rcases List.mem_cons.mp hf with rfl | hfs
    · rw [writeFields_rd_other (fun x hx => fields_ne_rate hn (hsub' x hx)) hne, writeField_rd_same (fields_ne_rate hn hgr)]
    · rw [ih hfs hnd hsub']
      obtain ⟨m, hm⟩ := writeField_shape (s := s) (i := i) (j := j) (v := v) (fields_ne_rate hn hgr)
      refine afterWrite_congr (writeField_rd_other (fields_ne_rate hn hgr) (hne f hfs).symm) (writeField_rwlLocked hgr hn) ?_ ?_
      · rw [hm]
      · rw [hm]

theorem writeFields_shape {fs : List Fld} (hn : ∀ f ∈ fs, f ≠ F.PRT_LINK_CFG_RATE) :
    ∃ m, s.writeFields fs i j v = { s with regs := m } := by
  induction fs generalizing s with
  | nil => exact ⟨s.regs, rfl⟩
  | cons g fs ih =>
    obtain ⟨m, hm⟩ := writeField_shape (s := s) (i := i) (j := j) (v := v) (hn g List.mem_cons_self)
    obtain ⟨m', hm'⟩ := ih (s := s.writeField g i j v) (fun f hf => hn f (List.mem_cons_of_mem _ hf))
    refine ⟨m', hm'.trans ?_⟩
    rw [hm]

/-! A write of a register. -/

/-- A register without a meaning of its own takes a write by its fields' access codes; GLB_ACCESS_ERR alone is then
looked at again (R43). -/
theorem writeReg_plain {hi lo : Nat} (h : r.ownMeaning = false) (he : r ≠ .GLB_ACCESS_ERR) :
    s.writeReg cls r i j v hi lo = s.writeFields (reached r hi lo) i j v := by
  unfold State.writeReg
  split
  case h_1 => exact absurd rfl he
  case h_32 => rfl
  all_goals exact absurd h (by decide)

/-- Clearing GLB_ACCESS_ERR may capture an error of the same cycle in GLB_ACCESS_ADDR, and makes a mark. -/
theorem accessCleared_touchesOnly (w : Nat) : TouchesOnly [.GLB_ACCESS_ADDR] [] s (s.accessCleared w) := by
  refine Foot.touchesOnly (accessCleared_foot ?_ (Foot.refl _ s)) (Nat.and_self _)
  show _ &&& _ = _
  decide +kernel

theorem accessCleared_rd {g : Fld} (w : Nat) (hg : g.reg ≠ .GLB_ACCESS_ADDR) :
    (s.accessCleared w).rd g i j = s.rd g i j :=
  (accessCleared_touchesOnly w).regs g i j (by simpa using hg)

theorem accessCleared_out (w : Nat) : (s.accessCleared w).out = s.out := by
  unfold State.accessCleared
  split
  · rfl
  · dsimp only
    split <;> rfl

theorem not_err_or_not_addr (r : Reg) : r ≠ .GLB_ACCESS_ERR ∨ r ≠ .GLB_ACCESS_ADDR := by
  by_cases h : r = .GLB_ACCESS_ERR
  · exact .inr (by rw [h]; decide)
  · exact .inl h

section
variable {w hi lo : Nat} (h : r.ownMeaning = false)
include h

theorem ownMeaning_not_link : r ≠ .PRT_LINK_CFG := by
  intro he
  rw [he] at h
  cases h

theorem reached_rate : ∀ f ∈ reached r hi lo, f ≠ F.PRT_LINK_CFG_RATE :=
  fun _ hf => fields_ne_rate (ownMeaning_not_link h) (List.mem_of_mem_filter hf)

/-- Either form of such a write is that of the fields, as the register's own fields read. -/
theorem writeReg_rd {g : Fld} {i' j' : Nat} (hg : r ≠ .GLB_ACCESS_ERR ∨ g.reg ≠ .GLB_ACCESS_ADDR) :
    (s.writeReg cls r i j w hi lo).rd g i' j' = (s.writeFields (reached r hi lo) i j w).rd g i' j' := by
  by_cases he : r = .GLB_ACCESS_ERR
  · subst he
    exact accessCleared_rd w (hg.resolve_left (fun hn => hn rfl))
  · rw [writeReg_plain h he]

theorem writeReg_rd_reached {f : Fld} (hf : f ∈ reached r hi lo) :
    (s.writeReg cls r i j w hi lo).rd f i j = s.afterWrite f i j w := by
  rw [writeReg_rd h (reached_reg f hf ▸ not_err_or_not_addr r)]
  exact writeFields_rd_mem List.filter_sublist (ownMeaning_not_link h) hf

theorem writeReg_rd_unreached {f : Fld} (hf : f ∈ r.fields) (hn : f ∉ reached r hi lo) :
    (s.writeReg cls r i j w hi lo).rd f i j = s.rd f i j := by
  rw [writeReg_rd h (fields_reg hf ▸ not_err_or_not_addr r)]
  exact writeFields_rd_other (reached_rate h)
    (fun g hg hk => hn (fields_key_inj hf (List.mem_of_mem_filter hg) hk ▸ hg))

theorem writeReg_rd_other {g : Fld} {i' j' : Nat} (hne : g.reg ≠ r ∨ i' ≠ i ∨ j' ≠ j)
    (hg : r ≠ .GLB_ACCESS_ERR ∨ g.reg ≠ .GLB_ACCESS_ADDR) :
    (s.writeReg cls r i j w hi lo).rd g i' j' = s.rd g i' j' := by
  rw [writeReg_rd h hg]
  exact writeFields_rd_other (reached_rate h) (fun f hf => key_ne_of_other (reached_reg f hf) hne)

theorem writeReg_part (p : Part) : p.same s (s.writeReg cls r i j w hi lo) := by
  obtain ⟨m, hm⟩ := writeFields_shape (s := s) (i := i) (j := j) (v := w) (reached_rate (hi := hi) (lo := lo) h)
  have hfields : p.same s (s.writeFields (reached r hi lo) i j w) := by
    rw [hm]
    cases p <;> rfl
  by_cases he : r = .GLB_ACCESS_ERR
  · subst he
    have hc := (accessCleared_touchesOnly (s := s.writeFields (reached .GLB_ACCESS_ERR hi lo) i j w) w).parts p (by simp)
    cases p <;> exact Eq.trans hc hfields
  · rwa [writeReg_plain h he]

theorem writeReg_out : (s.writeReg cls r i j w hi lo).out = s.out := by
  obtain ⟨m, hm⟩ := writeFields_shape (s := s) (i := i) (j := j) (v := w) (reached_rate (hi := hi) (lo := lo) h)
  have hfields : (s.writeFields (reached r hi lo) i j w).out = s.out := by rw [hm]
  by_cases he : r = .GLB_ACCESS_ERR
  · subst he
    exact (accessCleared_out w).trans hfields
  · rwa [writeReg_plain h he]

end

end Sys2Proof.Machine
end

section
/-!
SUPPORT. The commands of the port classes that write registers: the owner's write of a whole register, of its halves and
of 64 bits, and the write of a class that has no authority.
-/

namespace Sys2Proof.Machine

variable {s : State} {r : Reg} {i j : Nat} {cls : PortClass} {a v w hi lo : Nat} {b : Bool}

/-! Commands that may act. -/

theorem exec_registerWrite {width : Nat} (hs : s.active = true) (ha : wfAddr a = true) (hw : wfWidth width = true) :
    exec (.registerWrite cls a width v) s = .next (s.busWrite cls a width v) := by
  have hwf : (wfAddr a && wfWidth width) = true := by
    rw [ha, hw]
    rfl
  exact onPowered_eq (f := fun s => s.busWrite cls a width v) hwf (active_powered hs)

theorem exec_lowWordWrite (hs : s.active = true) (ha : wfAddr a = true) :
    exec (.lowWordWrite cls a v) s = .next (s.busWrite cls a 32 v) :=
  onPowered_eq (f := fun s => s.busWrite cls a 32 v) ha (active_powered hs)

theorem exec_highWordWrite (hs : s.active = true) (ha : wfAddr a = true) :
    exec (.highWordWrite cls a v) s = .next (s.busWrite cls a 32 v) :=
  onPowered_eq (f := fun s => s.busWrite cls a 32 v) ha (active_powered hs)

theorem exec_split64BitAccess_write (hs : s.active = true) (ha : wfAddr a = true) :
    exec (.split64BitAccess cls a (some v)) s = .next (s.busWrite cls a 64 v) :=
  onPowered_eq (f := fun s => s.busWrite cls a 64 v) ha (active_powered hs)

/-! What an access of 32 or 64 bits comes to. -/

theorem busWrite_32 (hs : s.active = true) : s.busWrite cls a 32 v = s.write32 cls a v := by
  unfold State.busWrite
  rw [active_not_safe hs, if_neg Bool.false_ne_true, if_neg (by decide)]

theorem busWrite_64 (hs : s.active = true) : s.busWrite cls a 64 v = s.write64 cls a v := by
  unfold State.busWrite
  rw [active_not_safe hs, if_neg Bool.false_ne_true, if_pos rfl]

theorem wideAt_addr (hi : i < r.at.count1) (hj : j < r.at.count2) (hb : r.at.bits = 64) :
    wideAt (r.addr i j) = some ⟨r, i, j, false⟩ := by
  unfold wideAt
  rw [hitAt_addr r hi hj, Option.bind_some, if_pos ⟨hb, rfl⟩]

/-- A write of a whole register, from any class. -/
theorem busWrite_whole (hs : s.active = true) (hi : i < r.at.count1) (hj : j < r.at.count2) :
    s.busWrite cls (r.addr i j) r.at.bits v =
      (s.setHeld cls none).writeHit cls (r.addr i j) ⟨r, i, j, false⟩ (v % 2 ^ r.at.bits) (r.at.bits - 1) 0 := by
  rcases bytes_cases r with ⟨-, hb⟩ | ⟨-, hb⟩
  · rw [hb, busWrite_32 hs]
    unfold State.write32
    simp only [no_window r hi hj, Bool.false_eq_true, if_false, hitAt_addr r hi hj, hb, if_true]
  · rw [hb, busWrite_64 hs]
    unfold State.write64
    rw [wideAt_addr hi hj hb]

/-- A write of a low word is held, where its class has authority. -/
theorem busWrite_low (hs : s.active = true) (hi : i < r.at.count1) (hj : j < r.at.count2) (hb : r.at.bits = 64) :
    s.busWrite cls (r.addr i j) 32 v =
      if cls = r.owner ∨ (s.setHeld cls none).nvmOwns cls ⟨r, i, j, false⟩ = true then
        (s.setHeld cls none).setHeld cls (some { addr := r.addr i j, low := v % 2 ^ 32 })
      else (s.setHeld cls none).accessErr F.GLB_ACCESS_ERR_AUTHORITY cls (r.addr i j) := by
  rw [busWrite_32 hs]
  unfold State.write32
  simp only [no_window r hi hj, Bool.false_eq_true, if_false, hitAt_addr r hi hj, hb, Nat.reduceEqDiff, Bool.not_false,
    if_true]

/-- A write of a high word with its low word held writes the whole register. -/
theorem busWrite_high_held {low : Nat} (hs : s.active = true) (hi : i < r.at.count1) (hj : j < r.at.count2)
    (hb : r.at.bits = 64) (hh : s.bus.held.get [cls.code] = some { addr := r.addr i j, low := low }) :
    s.busWrite cls (r.addr i j + 4) 32 v =
      (s.setHeld cls none).writeHit cls (r.addr i j + 4) ⟨r, i, j, true⟩ (low + v % 2 ^ 32 * 2 ^ 32) 63 0 := by
  rw [busWrite_32 hs]
  unfold State.write32
  simp only [no_window_high hi hj hb, Bool.false_eq_true, if_false, hitAt_addr_high hi hj hb, hb, Nat.reduceEqDiff,
    Bool.not_true, hh, if_true]

theorem withHalf_mod (n : Nat) : withHalf n true (v % 2 ^ 32) = withHalf n true v := by
  unfold withHalf
  rw [if_pos rfl, if_pos rfl, Nat.mod_mod]

/-- Without one it writes the high word alone. -/
theorem busWrite_high_alone (hs : s.active = true) (hi : i < r.at.count1) (hj : j < r.at.count2)
    (hb : r.at.bits = 64) (hh : s.bus.held.get [cls.code] = none) :
    s.busWrite cls (r.addr i j + 4) 32 v =
      (s.setHeld cls none).writeHit cls (r.addr i j + 4) ⟨r, i, j, true⟩ (withHalf (s.regBits r i j) true v) 63 32 := by
  rw [busWrite_32 hs]
  unfold State.write32
  simp only [no_window_high hi hj hb, Bool.false_eq_true, if_false, hitAt_addr_high hi hj hb, hb, Nat.reduceEqDiff,
    Bool.not_true, hh, withHalf_mod, setHeld_regBits]

/-- In every case a write of a high word is a write of some bits of its register. -/
theorem busWrite_high (hs : s.active = true) (hi : i < r.at.count1) (hj : j < r.at.count2) (hb : r.at.bits = 64) :
    ∃ word lo, s.busWrite cls (r.addr i j + 4) 32 v =
      (s.setHeld cls none).writeHit cls (r.addr i j + 4) ⟨r, i, j, true⟩ word 63 lo := by
  rw [busWrite_32 hs]
  unfold State.write32
  simp only [no_window_high hi hj hb, Bool.false_eq_true, if_false, hitAt_addr_high hi hj hb, hb, Nat.reduceEqDiff,
    Bool.not_true]
  split
  · split
    · exact ⟨_, _, rfl⟩
    · exact ⟨_, _, rfl⟩
  · exact ⟨_, _, rfl⟩

/-! A write by the owner (R18, R22). -/

theorem writeHit_own : s.writeHit r.owner a ⟨r, i, j, b⟩ w hi lo =
    if s.lockedDiffers (reached r hi lo) i j w then
      (s.writeReg r.owner r i j w hi lo).accessErr F.GLB_ACCESS_ERR_LOCKED_WR r.owner a
    else s.writeReg r.owner r i j w hi lo := by
  have hn : s.nvmOwns r.owner ⟨r, i, j, b⟩ = false := by
    unfold State.nvmOwns
    rw [beq_eq_false_iff_ne.mpr (owner_ne_nvm r)]
    rfl
  unfold State.writeHit
  rw [hn, if_neg Bool.false_ne_true, if_neg (fun h => h rfl)]

theorem writeHit_own_unlocked (hl : s.rwlLocked = false) :
    s.writeHit r.owner a ⟨r, i, j, b⟩ w hi lo = s.writeReg r.owner r i j w hi lo := by
  have hd : s.lockedDiffers (reached r hi lo) i j w = false := by
    unfold State.lockedDiffers
    rw [hl, Bool.false_and]
  rw [writeHit_own, hd, if_neg Bool.false_ne_true]

/-- Only a register with an RWL field can differ while locked. -/
theorem lockedDiffers_noRwl (hd : s.lockedDiffers (reached r hi lo) i j w = true) : noRwl r = false := by
  unfold State.lockedDiffers at hd
  rw [Bool.and_eq_true, List.any_eq_true] at hd
  obtain ⟨-, f, hf, hc⟩ := hd
  rw [Bool.and_eq_true, beq_iff_eq] at hc
  unfold noRwl
  rw [List.all_eq_false]
  refine ⟨f, List.mem_of_mem_filter hf, ?_⟩
  rcases code_rwl hc.1 with h | h | h <;> rw [h] <;> decide

/-- So a refused change of an RWL field is of neither register of access errors. -/
theorem lockedDiffers_reg (hd : s.lockedDiffers (reached r hi lo) i j w = true) :
    r ≠ .GLB_ACCESS_ERR ∧ r ≠ .GLB_ACCESS_ADDR := by
  have hn := lockedDiffers_noRwl hd
  constructor <;> intro he <;> rw [he] at hn <;> exact absurd hn (by decide)

/-- The owner's write leaves the register as its fields were written, whether or not a locked one is reported. -/
theorem writeHit_own_rd {g : Fld} (hg : g.reg = r) :
    (s.writeHit r.owner a ⟨r, i, j, b⟩ w hi lo).rd g i j = (s.writeReg r.owner r i j w hi lo).rd g i j := by
  rw [writeHit_own]
  split
  · next hd => exact accessErr_rd_other rfl (hg ▸ lockedDiffers_reg hd)
  · rfl

theorem writeHit_own_bus (h : r.ownMeaning = false) : (s.writeHit r.owner a ⟨r, i, j, b⟩ w hi lo).bus = s.bus := by
  have hb : (s.writeReg r.owner r i j w hi lo).bus = s.bus := writeReg_part h .bus
  rw [writeHit_own]
  split
  · rw [accessErr_bus rfl, hb]
  · exact hb

/-- R18: the owner's write of a whole register leaves what `afterWrite` says in every field. -/
theorem writeHit_own_whole (h : r.ownMeaning = false) {f : Fld} (hf : f ∈ r.fields) :
    ((s.setHeld r.owner none).writeHit r.owner a ⟨r, i, j, b⟩ (w % 2 ^ r.at.bits) (r.at.bits - 1) 0).rd f i j =
      s.afterWrite f i j w := by
  rw [writeHit_own_rd (fields_reg hf), writeReg_rd_reached h (by rwa [reached_all]), setHeld_afterWrite, afterWrite_mod hf]

theorem busWrite_own_rd (hs : s.active = true) (hi : i < r.at.count1) (hj : j < r.at.count2) (h : r.ownMeaning = false)
    {f : Fld} (hf : f ∈ r.fields) : (s.busWrite r.owner (r.addr i j) r.at.bits v).rd f i j = s.afterWrite f i j v := by
  rw [busWrite_whole hs hi hj]
  exact writeHit_own_whole h hf

/-- R22: while RWL fields are locked, a write of the owner that would change one is an access error. -/
theorem busWrite_locked_err (hs : s.active = true) (hi : i < r.at.count1) (hj : j < r.at.count2) (hl : s.rwlLocked = true)
    {f : Fld} (hf : f ∈ r.fields) (hc : f.code i j = .rwl) (hd : bits v f.hi f.lo ≠ s.rd f i j) :
    (s.busWrite r.owner (r.addr i j) r.at.bits v).rd F.GLB_ACCESS_ERR_LOCKED_WR = 1 := by
  have hdiff : (s.setHeld r.owner none).lockedDiffers (reached r (r.at.bits - 1) 0) i j (v % 2 ^ r.at.bits) = true := by
    unfold State.lockedDiffers
    rw [setHeld_rwlLocked, hl, Bool.true_and, List.any_eq_true, reached_all]
    refine ⟨f, hf, ?_⟩
    rw [hc, bits_mod_two_pow (fields_within hf).1, Bool.and_eq_true, bne_iff_ne]
    exact ⟨rfl, hd⟩
  rw [busWrite_whole hs hi hj, writeHit_own, hdiff, if_pos rfl]
  exact accessErr_rd_same rfl

/-! The members' read-only bits (R175, R218, R334), which follow a write of LST_CFG or LST_MEMBER. -/

/-- A property that some item of a walk brings about, and that every item keeps, holds after the walk. -/
theorem each_establish {α : Type} {Q p : State → Prop} {l : List α} {g : State → α → State}
    (hQ : ∀ t x, Q t → Q (g t x)) (hp : ∀ t, ∀ x ∈ l, Q t → p t → p (g t x)) {x : α} (hx : x ∈ l)
    (he : ∀ t, Q t → p (g t x)) (h : Q s) : p (s.each l g) := by
  induction l generalizing s with
  | nil => cases hx
  | cons y l ih =>
    have hrest : ∀ t, ∀ x ∈ l, Q t → p t → p (g t x) := fun t x hx => hp t x (List.mem_cons_of_mem _ hx)
    rw [each_cons]
    rcases List.mem_cons.mp hx with rfl | hx
    · -- established by the first item: the rest keeps it
      have hboth : Q (g s x) ∧ p (g s x) := ⟨hQ s x h, he s h⟩
      clear ih hx he hp h
      generalize g s x = t at hboth
      induction l generalizing t with
      | nil => exact hboth.2
      | cons z l ih =>
        exact ih (fun t x hx => hrest t x (List.mem_cons_of_mem _ hx)) _
          ⟨hQ t z hboth.1, hrest t z List.mem_cons_self hboth.1 hboth.2⟩
    · exact ih hrest hx (hQ s y h)

/-- What PRESENT of a member follows (R334). -/
def State.presentBit (s : State) (t q : Nat) : Bool :=
  let o := s.rd F.PRT_DISC_OUTCOME (s.rd F.LST_MEMBER_PORT t q)
  o == 1 || o == 6 || o == 8

/-- `t` reads as `s` in every field but PRESENT of LST_MEMBER. -/
def AgreesButPresent (s t : State) : Prop :=
  ∀ (g : Fld) (i j : Nat), g.key 0 0 ≠ F.LST_MEMBER_PRESENT.key 0 0 → t.rd g i j = s.rd g i j

theorem AgreesButPresent.wr {s t : State} (h : AgreesButPresent s t) (v i j : Nat) :
    AgreesButPresent s (t.wr F.LST_MEMBER_PRESENT v i j) := fun g i' j' hg =>
  (rd_wr_other t g _ v i' j' i j hg).trans (h g i' j' hg)

theorem AgreesButPresent.presentBit {s t : State} (h : AgreesButPresent s t) (x q : Nat) :
    t.presentBit x q = s.presentBit x q := by
  unfold State.presentBit
  rw [h F.LST_MEMBER_PORT x q (by decide), h F.PRT_DISC_OUTCOME _ 0 (by decide)]

theorem AgreesButPresent.operands {s t : State} (h : AgreesButPresent s t) (x : Nat) : t.operands x = s.operands x := by
  unfold State.operands
  rw [h F.LST_CFG_OPERANDS x 0 (by decide)]

/-- One step of the walk over the members. -/
def State.setPresent (s : State) (t q : Nat) : State := s.wr F.LST_MEMBER_PRESENT (b2n (s.presentBit t q)) t q

theorem setPresent_rd (t q : Nat) : (s.setPresent t q).rd F.LST_MEMBER_PRESENT t q = b2n (s.presentBit t q) := by
  unfold State.setPresent
  rw [rd_wr_same]
  cases s.presentBit t q <;> rfl

/-- In `u` PRESENT of a member is what its port's outcome in `s` says. -/
def PresentSettled (s : State) (t q : Nat) (u : State) : Prop :=
  u.rd F.LST_MEMBER_PRESENT t q = b2n (s.presentBit t q)

theorem AgreesButPresent.setPresent_settles {s u : State} (hu : AgreesButPresent s u) (t q : Nat) :
    PresentSettled s t q (u.setPresent t q) := (setPresent_rd t q).trans (by rw [hu.presentBit])

/-- Once settled, a member stays settled at the turn of any other, and at its own. -/
theorem PresentSettled.setPresent {s u : State} {t q : Nat} (h : PresentSettled s t q u) (hu : AgreesButPresent s u)
    (x y : Nat) : PresentSettled s t q (u.setPresent x y) := by
  by_cases hk : t = x ∧ q = y
  · obtain ⟨rfl, rfl⟩ := hk
    exact hu.setPresent_settles t q
  · exact (rd_wr_index _ _ _ _ _ _ _ hk).trans h

/-- The walk of `syncPresent` over the members of one last, and of all. -/
def State.presentLast (s : State) (t : Nat) : State := s.each (s.operands t) (fun s q => s.setPresent t q)
def State.presentAll (s : State) : State := s.each s.lasts State.presentLast

theorem syncPresent_eq (s : State) : s.syncPresent = s.presentAll.syncFailing := rfl

theorem presentLast_agrees {u : State} (hu : AgreesButPresent s u) (t : Nat) : AgreesButPresent s (u.presentLast t) :=
  fun g i j hg => (each_keeps u (fun v => v.rd g i j) (fun _ _ _ => rd_wr_other _ _ _ _ _ _ _ _ hg)).trans (hu g i j hg)

theorem presentAll_agrees (s : State) : AgreesButPresent s s.presentAll := fun g i j hg =>
  each_keeps s (fun v => v.rd g i j) (fun _ _ _ => presentLast_agrees (fun _ _ _ _ => rfl) _ g i j hg)

theorem PresentSettled.presentLast {s u : State} {t q : Nat} (h : PresentSettled s t q u) (hu : AgreesButPresent s u)
    (x : Nat) : PresentSettled s t q (u.presentLast x) := by
  unfold State.presentLast
  generalize u.operands x = l
  induction l generalizing u with
  | nil => exact h
  | cons y l ih => exact ih (h.setPresent hu x y) (hu.wr _ _ _)

theorem AgreesButPresent.presentLast_settles {s u : State} {t q : Nat} (hu : AgreesButPresent s u)
    (hq : q ∈ s.operands t) : PresentSettled s t q (u.presentLast t) :=
  each_establish (Q := AgreesButPresent s) (fun _ _ hv => hv.wr _ _ _) (fun _ y _ hv hs => hs.setPresent hv t y)
    (hu.operands t ▸ hq) (fun _ hv => hv.setPresent_settles t q) hu

/-- R334: after the walk PRESENT of every member is what its port's outcome says. -/
theorem presentAll_rd {t q : Nat} (ht : t ∈ s.lasts) (hq : q ∈ s.operands t) :
    s.presentAll.rd F.LST_MEMBER_PRESENT t q = b2n (s.presentBit t q) :=
  each_establish (Q := AgreesButPresent s) (p := PresentSettled s t q) (fun _ x hu => presentLast_agrees hu x)
    (fun _ x _ hu hs => hs.presentLast hu x) ht (fun _ hu => hu.presentLast_settles hq) (fun _ _ _ _ => rfl)

theorem syncFailing_regs (s : State) : s.syncFailing.regs = s.regs := by
  unfold State.syncFailing
  refine each_keeps s State.regs (fun _ _ _ => ?_)
  dsimp only
  split
  · split <;> rfl
  · rfl

theorem syncFailing_out (s : State) : s.syncFailing.out = s.out := by
  unfold State.syncFailing
  refine each_keeps s State.out (fun _ _ _ => ?_)
  dsimp only
  split
  · split <;> rfl
  · rfl

/-- The fields that the members' synchronisation writes. -/
def memberSyncFields : List Fld := [F.LST_MEMBER_FENCED, F.LST_MEMBER_PRESENT, F.LST_STATE_FENCED]

theorem syncFenced_rd {g : Fld} (hg : ∀ f ∈ memberSyncFields, g.key 0 0 ≠ f.key 0 0) :
    s.syncFenced.rd g i j = s.rd g i j := by
  have hfenced := hg F.LST_MEMBER_FENCED (by decide)
  have hstate := hg F.LST_STATE_FENCED (by decide)
  refine each_keeps s (fun t => t.rd g i j) (fun t x _ => ?_)
  refine (rd_wr_other _ _ _ _ _ _ _ _ hstate).trans ?_
  exact each_keeps t (fun t => t.rd g i j) (fun _ _ _ => rd_wr_other _ _ _ _ _ _ _ _ hfenced)

/-- The synchronisation starts from the members' bits cleared, and changes no other field. -/
theorem syncMembers_rd {g : Fld} (hg : ∀ f ∈ memberSyncFields, g.key 0 0 ≠ f.key 0 0) :
    s.syncMembers.rd g i j = s.rd g i j := by
  have hkey : ∀ f : Fld, g.key 0 0 ≠ f.key 0 0 → ¬(g.reg.ctorIdx = f.reg.ctorIdx ∧ g.lo = f.lo) := fun f hf he =>
    hf (by unfold Fld.key; rw [he.1, he.2])
  have h1 := hkey _ (hg F.LST_MEMBER_PRESENT (by decide))
  have h2 := hkey _ (hg F.LST_MEMBER_FENCED (by decide))
  have h3 := hkey _ (hg F.LST_STATE_FENCED (by decide))
  unfold State.syncMembers
  rw [syncPresent_eq, rd_congr _ _ _ (syncFailing_regs _),
    presentAll_agrees _ g i j (hg F.LST_MEMBER_PRESENT (by decide)), syncFenced_rd hg]
  unfold State.rd Fld.key
  dsimp only
  rw [get_filter]
  intro v
  simp only [Bool.and_eq_true, Bool.not_eq_true', Bool.and_eq_false_iff, Bool.or_eq_false_iff, beq_eq_false_iff_ne]
  exact ⟨(not_and_or.mp h1).elim .inl (fun hp => (not_and_or.mp h2).imp_right (fun hf => ⟨hp, hf⟩)), not_and_or.mp h3⟩

theorem syncMembers_present {x q : Nat} (hx : x ∈ s.syncMembers.lasts) (hq : q ∈ s.syncMembers.operands x) :
    s.syncMembers.rd F.LST_MEMBER_PRESENT x q = b2n (s.syncMembers.presentBit x q) := by
  have hsync : ∃ u : State, s.syncMembers = u.presentAll.syncFailing := ⟨_, rfl⟩
  obtain ⟨u, hu⟩ := hsync
  have hrd : ∀ (g : Fld) (i j : Nat), g.key 0 0 ≠ F.LST_MEMBER_PRESENT.key 0 0 → s.syncMembers.rd g i j = u.rd g i j :=
    fun g i j hg => by rw [hu, rd_congr _ _ _ (syncFailing_regs _), presentAll_agrees u g i j hg]
  have hlasts : s.syncMembers.lasts = u.lasts := by
    unfold State.lasts
    simp only [flag_eq, hrd F.LST_CFG_VALID _ _ (by decide)]
  rw [AgreesButPresent.operands hrd] at hq
  rw [AgreesButPresent.presentBit hrd, hu, rd_congr _ _ _ (syncFailing_regs _)]
  exact presentAll_rd (hlasts ▸ hx) hq

theorem syncFenced_out (s : State) : s.syncFenced.out = s.out := by
  refine each_keeps s State.out (fun t x _ => ?_)
  exact each_keeps (g := fun s r => s.wr F.LST_MEMBER_FENCED (b2n (s.fenced (s.rd F.LST_MEMBER_PORT x r))) x r) t State.out
    (fun _ _ _ => rfl)

theorem presentAll_out (s : State) : s.presentAll.out = s.out :=
  each_keeps s State.out (fun t _ _ => each_keeps t State.out (fun _ _ _ => rfl))

theorem syncMembers_out (s : State) : s.syncMembers.out = s.out := by
  unfold State.syncMembers
  rw [syncPresent_eq, syncFailing_out, presentAll_out, syncFenced_out]

/-- R175: LASTS counts the lasts, sixteen at most. -/
theorem syncLasts_rd (s : State) : s.syncLasts.rd F.LST_PLAN_STAT_LASTS = s.syncLasts.lasts.length := by
  have hl : s.syncLasts.lasts = s.lasts := by
    unfold State.lasts State.syncLasts
    simp only [flag_eq, rd_wr_other _ F.LST_CFG_VALID F.LST_PLAN_STAT_LASTS _ _ _ _ _ (by decide)]
  have hlen : s.lasts.length ≤ 16 := (List.length_filter_le _ _).trans (by simp)
  rw [hl]
  unfold State.syncLasts
  rw [rd_wr_same]
  exact Nat.mod_eq_of_lt (hlen.trans_lt (by decide))

theorem syncLasts_rd_other {g : Fld} (hg : g.key 0 0 ≠ F.LST_PLAN_STAT_LASTS.key 0 0) :
    s.syncLasts.rd g i j = s.rd g i j := rd_wr_other _ _ _ _ _ _ _ _ hg

/-! The statements about writes. -/

/-- What a write of LST_CFG or LST_MEMBER comes to while no plan locks RWL fields. -/
theorem busWrite_members (hs : s.active = true) (hi : i < r.at.count1) (hj : j < r.at.count2)
    (hr : r = .LST_CFG ∨ r = .LST_MEMBER) (hl : s.rwlLocked = false) :
    s.busWrite r.owner (r.addr i j) r.at.bits v =
      ((s.setHeld r.owner none).writeFields r.fields i j (v % 2 ^ r.at.bits)).syncMembers.syncLasts := by
  rw [busWrite_whole hs hi hj, writeHit_own_unlocked (s := s.setHeld r.owner none) hl, ← reached_all r]
  rcases hr with rfl | rfl <;> rfl

/-- R218, R334: FENCED and PRESENT are no RWL fields. -/
theorem memberSyncFields_not_rwl (hr : r = .LST_CFG ∨ r = .LST_MEMBER) : ∀ f ∈ r.fields, f.acc = .rwl →
    (∀ g ∈ memberSyncFields, f.key 0 0 ≠ g.key 0 0) ∧ f.key 0 0 ≠ F.LST_PLAN_STAT_LASTS.key 0 0 := by
  rcases hr with rfl | rfl <;> decide

theorem busWrite_members_rd (hs : s.active = true) (hi : i < r.at.count1) (hj : j < r.at.count2)
    (hr : r = .LST_CFG ∨ r = .LST_MEMBER) (hl : s.rwlLocked = false) {f : Fld} (hf : f ∈ r.fields) (ha : f.acc = .rwl) :
    (s.busWrite r.owner (r.addr i j) r.at.bits v).rd f i j = s.afterWrite f i j v := by
  obtain ⟨hsync, hlasts⟩ := memberSyncFields_not_rwl hr f hf ha
  have hlink : r ≠ .PRT_LINK_CFG := by rcases hr with rfl | rfl <;> decide
  rw [busWrite_members hs hi hj hr hl, syncLasts_rd_other hlasts, syncMembers_rd hsync,
    writeFields_rd_mem (List.Sublist.refl _) hlink hf, setHeld_afterWrite, afterWrite_mod hf]

/-- After a synchronisation of the members and the count, PRESENT of every member follows its port. -/
theorem syncMembers_syncLasts_present {x q : Nat} (hx : x ∈ s.syncMembers.syncLasts.lasts)
    (hq : q ∈ s.syncMembers.syncLasts.operands x) :
    s.syncMembers.syncLasts.rd F.LST_MEMBER_PRESENT x q = b2n (s.syncMembers.syncLasts.presentBit x q) := by
  have hrd : ∀ (g : Fld) (i j : Nat), g.key 0 0 ≠ F.LST_PLAN_STAT_LASTS.key 0 0 →
      s.syncMembers.syncLasts.rd g i j = s.syncMembers.rd g i j := fun g i j hg => syncLasts_rd_other hg
  have hlasts : s.syncMembers.syncLasts.lasts = s.syncMembers.lasts := by
    unfold State.lasts
    simp only [flag_eq, hrd F.LST_CFG_VALID _ _ (by decide)]
  have hops : s.syncMembers.syncLasts.operands x = s.syncMembers.operands x := by
    unfold State.operands
    rw [hrd F.LST_CFG_OPERANDS x 0 (by decide)]
  have hbit : s.syncMembers.syncLasts.presentBit x q = s.syncMembers.presentBit x q := by
    unfold State.presentBit
    rw [hrd F.LST_MEMBER_PORT x q (by decide), hrd F.PRT_DISC_OUTCOME _ 0 (by decide)]
  rw [hrd F.LST_MEMBER_PRESENT x q (by decide), hbit]
  exact syncMembers_present (hlasts ▸ hx) (hops ▸ hq)

theorem syncMembers_touchesOnly (s : State) : TouchesOnly [.LST_STATE, .LST_MEMBER] [.sched] s s.syncMembers := by
  refine Foot.touchesOnly (syncMembers_foot ?_ (Foot.refl _ s)) (Nat.and_self _)
  show _ &&& _ = _
  decide +kernel

theorem syncMembers_flt (s : State) : s.syncMembers.flt = s.flt := (syncMembers_touchesOnly s).parts .flt (by decide)
theorem syncMembers_mem (s : State) : s.syncMembers.mem = s.mem := (syncMembers_touchesOnly s).parts .mem (by decide)

theorem syncMembers_syncLasts_parts (s : State) : s.syncMembers.syncLasts.out = s.out ∧
    s.syncMembers.syncLasts.flt = s.flt ∧ s.syncMembers.syncLasts.mem = s.mem :=
  ⟨(wr_out _ _ _ _ _).trans (syncMembers_out s), (wr_flt _ _ _ _ _).trans (syncMembers_flt s),
    (wr_mem _ _ _ _ _).trans (syncMembers_mem s)⟩

theorem busWrite_members_parts (hs : s.active = true) (hi : i < r.at.count1) (hj : j < r.at.count2)
    (hr : r = .LST_CFG ∨ r = .LST_MEMBER) (hl : s.rwlLocked = false) :
    (s.busWrite r.owner (r.addr i j) r.at.bits v).out = s.out ∧ (s.busWrite r.owner (r.addr i j) r.at.bits v).flt = s.flt ∧
      (s.busWrite r.owner (r.addr i j) r.at.bits v).mem = s.mem := by
  have hlink : r ≠ .PRT_LINK_CFG := by rcases hr with rfl | rfl <;> decide
  obtain ⟨m, hm⟩ := writeFields_shape (s := s.setHeld r.owner none) (i := i) (j := j) (v := v % 2 ^ r.at.bits)
    (fun _ hf => fields_ne_rate hlink hf)
  rw [busWrite_members hs hi hj hr hl, hm]
  exact syncMembers_syncLasts_parts _

/-- Settles O17: the owner's write by `writeHit_own_whole` and `writeReg_rd_other`, a locked one by
`busWrite_locked_err`, and LST_CFG and LST_MEMBER by what follows their write. -/
theorem registerWriteByAccessCode : Obligations.RegisterWriteByAccessCode := by
  unfold Obligations.RegisterWriteByAccessCode
  refine ⟨?fields, ?frame, ?locked, ?members⟩
  case fields =>
    intro s r i j v hs hi hj h
    refine ⟨_, exec_registerWrite hs (wfAddr_addr hi hj) (wfWidth_bits r), fun f hf => ?_⟩
    exact busWrite_own_rd hs hi hj h hf
  case frame =>
    intro s r i j v hs hi hj h hl
    refine ⟨_, exec_registerWrite hs (wfAddr_addr hi hj) (wfWidth_bits r), ?_⟩
    rw [busWrite_whole hs hi hj, writeHit_own_unlocked (s := s.setHeld r.owner none) hl]
    exact ⟨fun g i' j' hg => writeReg_rd_other h hg.1 hg.2, writeReg_out h, writeReg_part h .flt, writeReg_part h .mem⟩
  case locked =>
    intro s r i j f v hs hi hj h hl hf hc hd
    refine ⟨_, exec_registerWrite hs (wfAddr_addr hi hj) (wfWidth_bits r), busWrite_locked_err hs hi hj hl hf hc hd, ?_⟩
    rw [busWrite_own_rd hs hi hj h hf, afterWrite_locked hc hl]
  case members =>
    intro s r i j v hs hi hj hr hl
    refine ⟨_, exec_registerWrite hs (wfAddr_addr hi hj) (wfWidth_bits r),
      fun f hf ha => busWrite_members_rd hs hi hj hr hl hf ha, ?_, ?_, busWrite_members_parts hs hi hj hr hl⟩
    · rw [busWrite_members hs hi hj hr hl]
      exact syncLasts_rd _
    · rw [busWrite_members hs hi hj hr hl]
      exact fun x hx q hq => syncMembers_syncLasts_present hx hq

/-! A write from another class (R17). -/

/-- No class but the owner writes, nor the NVM outside stage CONFIG. -/
theorem nvmOwns_eq_false {h : Hit} (hc : cls ≠ .nvm ∨ s.stage ≠ stageConfig) : s.nvmOwns cls h = false := by
  unfold State.nvmOwns
  rcases hc with hc | hc <;> rw [beq_eq_false_iff_ne.mpr hc]
  · rfl
  · rw [Bool.and_false, Bool.false_and]

theorem writeHit_other {h : Hit} (ho : cls ≠ h.reg.owner) (hc : cls ≠ .nvm ∨ s.stage ≠ stageConfig) :
    s.writeHit cls a h w hi lo = s.accessErr F.GLB_ACCESS_ERR_AUTHORITY cls a := by
  unfold State.writeHit
  rw [nvmOwns_eq_false hc, if_neg Bool.false_ne_true, if_pos ho]

/-- What an access error after a class's held word is dropped leaves: its bit, and no other register or output. -/
theorem setHeld_accessErr {f : Fld} (hf : f.reg = .GLB_ACCESS_ERR) (hw : f.width = 1) :
    ((s.setHeld cls none).accessErr f cls a).rd f = 1 ∧
    (∀ (g : Fld) (i' j' : Nat), g.reg ≠ .GLB_ACCESS_ERR ∧ g.reg ≠ .GLB_ACCESS_ADDR →
      ((s.setHeld cls none).accessErr f cls a).rd g i' j' = s.rd g i' j') ∧
    ((s.setHeld cls none).accessErr f cls a).out = s.out :=
  ⟨accessErr_rd_same hw, fun _ _ _ hg => accessErr_rd_other hf hg, accessErr_out f⟩

/-- Settles O18: each of the three writes comes to one access error. -/
theorem writeOfAnotherClassIsDiscarded : Obligations.WriteOfAnotherClassIsDiscarded := by
  unfold Obligations.WriteOfAnotherClassIsDiscarded
  refine ⟨?whole, ?low, ?high⟩
  case whole =>
    intro s r i j cls v hs hi hj ho hc
    refine ⟨_, exec_registerWrite hs (wfAddr_addr hi hj) (wfWidth_bits r), ?_⟩
    rw [busWrite_whole hs hi hj, writeHit_other (s := s.setHeld cls none) ho hc]
    exact setHeld_accessErr rfl rfl
  case low =>
    intro s r i j cls v hs hi hj hb ho hc
    refine ⟨_, exec_lowWordWrite hs (wfAddr_addr hi hj), ?_⟩
    rw [busWrite_low hs hi hj hb, if_neg (not_or.mpr ⟨ho, by rw [nvmOwns_eq_false (s := s.setHeld cls none) hc]; exact Bool.false_ne_true⟩)]
    exact setHeld_accessErr rfl rfl
  case high =>
    intro s r i j cls v hs hi hj hb ho hc
    refine ⟨_, exec_highWordWrite hs (wfAddr_high hi hj hb), ?_⟩
    obtain ⟨word, lo, hw⟩ := busWrite_high (cls := cls) (v := v) hs hi hj hb
    rw [hw, writeHit_other (s := s.setHeld cls none) ho hc]
    exact setHeld_accessErr rfl rfl

/-- Settles O23: one write by `writeHit_own_whole`, two as `write64` makes them. -/
theorem split64BitAccess : Obligations.Split64BitAccess := by
  unfold Obligations.Split64BitAccess
  refine ⟨?one, ?two⟩
  case one =>
    intro s r i j v hs hi hj hb h
    refine ⟨_, exec_split64BitAccess_write hs (wfAddr_addr hi hj), fun f hf => ?_⟩
    rw [← hb]
    exact busWrite_own_rd hs hi hj h hf
  case two =>
    intro s cls a v hs hlt h4 hw
    have ha : wfAddr a = true := by
      unfold wfAddr
      rw [Bool.and_eq_true, decide_eq_true_eq, decide_eq_true_eq]
      omega
    have ha4 : wfAddr (a + 4) = true := by
      unfold wfAddr
      rw [Bool.and_eq_true, decide_eq_true_eq, decide_eq_true_eq]
      omega
    refine ⟨_, exec_split64BitAccess_write hs ha, fun u hu hact => ?_⟩
    rw [exec_registerWrite hs ha rfl, busWrite_32 hs] at hu
    cases hu
    rw [exec_registerWrite hact ha4 rfl, busWrite_32 hact, busWrite_64 hs]
    unfold State.write64
    rw [hw]
    dsimp only
    have hlow : v % 2 ^ 64 % 2 ^ 32 = v % 2 ^ 32 := by omega
    have hhigh : v % 2 ^ 64 / 2 ^ 32 = v / 2 ^ 32 % 2 ^ 32 := by omega
    rw [hlow, hhigh]

end Sys2Proof.Machine
end

section
/-!
SUPPORT. The commands of the port classes that read registers, the accesses to unmapped addresses, and the halves of
64-bit registers.
-/

namespace Sys2Proof.Machine

variable {s t : State} {r : Reg} {i j : Nat} {cls : PortClass} {a v : Nat}

/-! Commands that may act. -/

theorem exec_rcRegisterRead {width : Nat} (hp : s.powered = true) (ha : wfAddr a = true) (hw : wfWidth width = true) :
    exec (.rcRegisterRead cls a width) s = .next (s.busRead cls a width) := by
  have hwf : (wfAddr a && wfWidth width) = true := by
    rw [ha, hw]
    rfl
  exact onPowered_eq (f := fun s => s.busRead cls a width) hwf hp

theorem exec_lowWordRead (hs : s.active = true) (ha : wfAddr a = true) :
    exec (.lowWordRead cls a) s = .next (s.busRead cls a 32) :=
  onPowered_eq (f := fun s => s.busRead cls a 32) ha (active_powered hs)

theorem exec_highWordRead (hs : s.active = true) (ha : wfAddr a = true) :
    exec (.highWordRead cls a) s = .next (s.busRead cls a 32) :=
  onPowered_eq (f := fun s => s.busRead cls a 32) ha (active_powered hs)

theorem exec_split64BitAccess_read (hs : s.active = true) (ha : wfAddr a = true) :
    exec (.split64BitAccess cls a none) s = .next (s.busRead cls a 64) :=
  onPowered_eq (f := fun s => s.busRead cls a 64) ha (active_powered hs)

theorem carriesAccess_of (hc : cls = .host ∨ cls = .mgmt) : cls.carriesAccess = true := by
  rcases hc with rfl | rfl <;> rfl

theorem busRead_32 (hc : cls = .host ∨ cls = .mgmt) :
    s.busRead cls a 32 = (s.read32 cls a).2.emit (.readData cls a 32 (s.read32 cls a).1) := by
  unfold State.busRead
  rw [if_pos (carriesAccess_of hc), if_neg (by decide)]

theorem busRead_64 (hc : cls = .host ∨ cls = .mgmt) :
    s.busRead cls a 64 = (s.read64 cls a).2.emit (.readData cls a 64 (s.read64 cls a).1) := by
  unfold State.busRead
  rw [if_pos (carriesAccess_of hc), if_pos rfl]

/-! The effects of a read (R18, R20). -/

/-- What an RC field reloads with: it stands in no field that the same read clears. -/
theorem rcReload_congr {f : Fld} (h : ∀ (g : Fld) (i' j' : Nat), g.reg ≠ f.reg → t.rd g i' j' = s.rd g i' j')
    (hm : t.marks = s.marks) (hn : t.now = s.now) : t.rcReload f i j = s.rcReload f i j := by
  unfold State.rcReload
  split
  · next hr => exact h _ _ _ (by rw [hr]; decide)
  · next hr => rw [h F.BPM_POOL_FREE_OPP i 0 (by rw [hr]; decide), h F.BPM_POOL_FREE_SCHED i 0 (by rw [hr]; decide)]
  · unfold State.countedNow
    rw [hm, hn]

/-- The RC fields of a register, which a read of it clears. -/
def rcFields (r : Reg) (i j : Nat) : List Fld := r.fields.filter (fun f => f.code i j == .rc)

theorem mem_rcFields {f : Fld} (hf : f ∈ r.fields) : f ∈ rcFields r i j ↔ f.code i j = .rc := by
  unfold rcFields
  rw [List.mem_filter, beq_iff_eq, and_iff_right hf]

/-- What an RC field becomes. -/
def State.reload (s : State) (i j : Nat) (f : Fld) : State := s.wr f (s.rcReload f i j) i j

theorem readEffects_eq (h : s.isSafe = false) :
    s.readEffects r i j = s.each (rcFields r i j) (fun s f => s.reload i j f) := by
  unfold State.readEffects
  rw [h, if_neg Bool.false_ne_true]
  rfl

theorem readEffects_safe (h : s.isSafe = true) : s.readEffects r i j = s := by
  unfold State.readEffects
  rw [if_pos h]

/-- What a read's effects leave alone: all but the register file. -/
theorem readEffects_keeps_part {β : Type} (p : State → β) (hp : ∀ (t : State) (m : SMap (Option Nat)), p { t with regs := m } = p t) :
    p (s.readEffects r i j) = p s := by
  cases h : s.isSafe with
  | true => rw [readEffects_safe h]
  | false =>
    rw [readEffects_eq h]
    exact each_keeps s p (fun t _ _ => hp t _)

theorem readEffects_out : (s.readEffects r i j).out = s.out := readEffects_keeps_part State.out (fun _ _ => rfl)
theorem readEffects_bus : (s.readEffects r i j).bus = s.bus := readEffects_keeps_part State.bus (fun _ _ => rfl)

/-- A read clears fields of its own register, at its own indices, only. -/
theorem readEffects_rd_other {g : Fld} {i' j' : Nat} (hg : g.reg ≠ r ∨ i' ≠ i ∨ j' ≠ j) :
    (s.readEffects r i j).rd g i' j' = s.rd g i' j' := by
  cases h : s.isSafe with
  | true => rw [readEffects_safe h]
  | false =>
    rw [readEffects_eq h]
    refine each_keeps s (fun t => t.rd g i' j') (fun t f hf => rd_wr_key _ _ _ _ _ _ _ _ ?_)
    exact key_ne_of_other (fields_reg (List.mem_of_mem_filter hf)) hg

/-- `t` is `s` but for the fields of a register. -/
structure AgreesBut (r : Reg) (s t : State) : Prop where
  rd    : ∀ (g : Fld) (i j : Nat), g.reg ≠ r → t.rd g i j = s.rd g i j
  marks : t.marks = s.marks
  now   : t.now = s.now

theorem AgreesBut.reload {f : Fld} (h : AgreesBut r s t) (hf : f ∈ r.fields) : AgreesBut r s (t.reload i j f) :=
  ⟨fun g i' j' hg => (rd_wr_key _ _ _ _ _ _ _ _ (key_ne_of_other (fields_reg hf) (.inl hg))).trans (h.rd g i' j' hg),
   h.marks, h.now⟩

theorem AgreesBut.reload_rd {f : Fld} (h : AgreesBut r s t) (hf : f ∈ r.fields) :
    (t.reload i j f).rd f i j = s.rcReload f i j % 2 ^ f.width := by
  unfold State.reload
  rw [rd_wr_same, rcReload_congr (fun g i' j' hg => h.rd g i' j' (fields_reg hf ▸ hg)) h.marks h.now]

/-- A walk over fields of the register reloads each of them, and no other field's turn changes it again. -/
theorem AgreesBut.each_reload_rd {l : List Fld} {f : Fld} (h : AgreesBut r s t) (hf : f ∈ r.fields)
    (hl : ∀ g ∈ l, g ∈ r.fields) (ht : t.rd f i j = s.rcReload f i j % 2 ^ f.width ∨ f ∈ l) :
    (t.each l (fun s f => s.reload i j f)).rd f i j = s.rcReload f i j % 2 ^ f.width := by
  induction l generalizing t with
  | nil => exact ht.resolve_right List.not_mem_nil
  | cons g l ih =>
    have hg := hl g List.mem_cons_self
    refine ih (h.reload hg) (fun x hx => hl x (List.mem_cons_of_mem _ hx)) ?_
    by_cases hfg : f = g
    · exact .inl (hfg ▸ h.reload_rd hf)
    · have hkey : f.key i j ≠ g.key i j := fun hk => hfg (fields_key_inj hf hg hk)
      exact ht.imp (fun hr => (rd_wr_key _ _ _ _ _ _ _ _ hkey).trans hr) (fun hm => (List.mem_cons.mp hm).resolve_left hfg)

/-- R18: outside the safe state a read leaves each field of its register cleared or reloaded, or as it was. -/
theorem readEffects_rd (h : s.isSafe = false) {f : Fld} (hf : f ∈ r.fields) :
    (s.readEffects r i j).rd f i j = if f.code i j = .rc then s.rcReload f i j % 2 ^ f.width else s.rd f i j := by
  have hmem : ∀ g ∈ rcFields r i j, g ∈ r.fields := fun g hg => List.mem_of_mem_filter hg
  rw [readEffects_eq h]
  split
  · next hc =>
    exact AgreesBut.each_reload_rd ⟨fun _ _ _ _ => rfl, rfl, rfl⟩ hf hmem (.inr ((mem_rcFields hf).mpr hc))
  · next hc =>
    refine each_keeps s (fun t => t.rd f i j) (fun t g hg => rd_wr_key _ _ _ _ _ _ _ _ (fun hk => hc ?_))
    rw [fields_key_inj hf (hmem g hg) hk]
    exact (mem_rcFields (hmem g hg)).mp hg

/-! Reads of a register and of its halves (R10, R11). -/

theorem busRead_whole (hc : cls = .host ∨ cls = .mgmt) (hi : i < r.at.count1) (hj : j < r.at.count2) :
    s.busRead cls (r.addr i j) r.at.bits =
      (s.readEffects r i j).emit (.readData cls (r.addr i j) r.at.bits (s.seenBits r i j)) := by
  rcases bytes_cases r with ⟨-, hb⟩ | ⟨-, hb⟩
  · rw [hb, busRead_32 hc]
    unfold State.read32
    simp only [no_window r hi hj, Bool.false_eq_true, if_false, hitAt_addr r hi hj, hb, if_true]
  · rw [hb, busRead_64 hc]
    unfold State.read64
    rw [wideAt_addr hi hj hb]

theorem busRead_low (hc : cls = .host ∨ cls = .mgmt) (hi : i < r.at.count1) (hj : j < r.at.count2) (hb : r.at.bits = 64) :
    s.busRead cls (r.addr i j) 32 =
      ((s.setLatch cls (some { addr := r.addr i j, high := s.seenBits r i j / 2 ^ 32 })).readEffects r i j).emit
        (.readData cls (r.addr i j) 32 (s.seenBits r i j % 2 ^ 32)) := by
  rw [busRead_32 hc]
  unfold State.read32
  simp only [no_window r hi hj, Bool.false_eq_true, if_false, hitAt_addr r hi hj, hb, Nat.reduceEqDiff, Bool.not_false,
    if_true]

theorem busRead_high_latched {x : Nat} (hc : cls = .host ∨ cls = .mgmt) (hi : i < r.at.count1) (hj : j < r.at.count2)
    (hb : r.at.bits = 64) (hl : s.bus.latch.get [cls.code] = some { addr := r.addr i j, high := x }) :
    s.busRead cls (r.addr i j + 4) 32 = (s.setLatch cls none).emit (.readData cls (r.addr i j + 4) 32 x) := by
  rw [busRead_32 hc]
  unfold State.read32
  simp only [no_window_high hi hj hb, Bool.false_eq_true, if_false, hitAt_addr_high hi hj hb, hb, Nat.reduceEqDiff,
    Bool.not_true, hl, if_true]

theorem busRead_high_alone (hc : cls = .host ∨ cls = .mgmt) (hi : i < r.at.count1) (hj : j < r.at.count2)
    (hb : r.at.bits = 64) (hl : s.bus.latch.get [cls.code] = none) :
    s.busRead cls (r.addr i j + 4) 32 = s.emit (.readData cls (r.addr i j + 4) 32 (s.seenBits r i j / 2 ^ 32)) := by
  rw [busRead_32 hc]
  unfold State.read32
  simp only [no_window_high hi hj hb, Bool.false_eq_true, if_false, hitAt_addr_high hi hj hb, hb, Nat.reduceEqDiff,
    Bool.not_true, hl]

/-- Settles O21: the read of a whole register by `busRead_whole`, and its effects by `readEffects_rd`. -/
theorem registerReadClearsRC : Obligations.RegisterReadClearsRC := by
  unfold Obligations.RegisterReadClearsRC
  refine ⟨?active, ?safe, ?wide⟩
  case active =>
    intro s r i j cls hs hi hj hc
    refine ⟨_, exec_rcRegisterRead (active_powered hs) (wfAddr_addr hi hj) (wfWidth_bits r), ?_⟩
    rw [busRead_whole hc hi hj]
    refine ⟨?_, fun f hf => readEffects_rd (active_not_safe hs) hf, fun g i' j' hg => readEffects_rd_other hg⟩
    rw [emit_out, readEffects_out]
  case safe =>
    intro s r i j cls hp hsafe hi hj hc
    refine ⟨_, exec_rcRegisterRead hp (wfAddr_addr hi hj) (wfWidth_bits r), ?_⟩
    rw [busRead_whole hc hi hj, readEffects_safe hsafe]
    exact ⟨rfl, rfl⟩
  case wide =>
    intro s r i j cls hs hi hj hb hc
    refine ⟨_, exec_split64BitAccess_read hs (wfAddr_addr hi hj), ?_⟩
    rw [← hb, busRead_whole hc hi hj]
    refine ⟨?_, fun f hf => readEffects_rd (active_not_safe hs) hf, fun g i' j' hg => readEffects_rd_other hg⟩
    rw [emit_out, readEffects_out]

/-- Settles O22: each half's access by its equation (`busRead_low` to `busWrite_high_alone`). -/
theorem halvesOfWideRegisters : Obligations.HalvesOfWideRegisters := by
  unfold Obligations.HalvesOfWideRegisters
  refine ⟨?lowRead, ?highLatched, ?highAlone, ?lowWrite, ?highHeld, ?highOnly⟩
  case lowRead =>
    intro s r i j cls hs hi hj hb hc
    refine ⟨_, exec_lowWordRead hs (wfAddr_addr hi hj), ?_⟩
    rw [busRead_low hc hi hj hb]
    generalize hl : some ({ addr := r.addr i j, high := s.seenBits r i j / 2 ^ 32 } : Latch) = l
    refine ⟨?_, ?_, fun f hf => readEffects_rd (s := s.setLatch cls l) (active_not_safe hs) hf,
      fun g i' j' hg => readEffects_rd_other (s := s.setLatch cls l) hg⟩
    · rw [emit_out, readEffects_out, setLatch_out]
    · rw [emit_bus, readEffects_bus, setLatch_latch]
  case highLatched =>
    intro s r i j cls x hs hi hj hb hc hl
    refine ⟨_, exec_highWordRead hs (wfAddr_high hi hj hb), ?_⟩
    rw [busRead_high_latched hc hi hj hb hl]
    exact ⟨rfl, setLatch_latch none, rfl⟩
  case highAlone =>
    intro s r i j cls hs hi hj hb hc hl
    refine ⟨_, exec_highWordRead hs (wfAddr_high hi hj hb), ?_⟩
    rw [busRead_high_alone hc hi hj hb hl]
    exact ⟨rfl, rfl⟩
  case lowWrite =>
    intro s r i j v hs hi hj hb
    refine ⟨_, exec_lowWordWrite hs (wfAddr_addr hi hj), ?_⟩
    rw [busWrite_low hs hi hj hb, if_pos (.inl rfl)]
    exact ⟨setHeld_held _, rfl, rfl⟩
  case highHeld =>
    intro s r i j low v hs hi hj hb h hh
    refine ⟨_, exec_highWordWrite hs (wfAddr_high hi hj hb), ?_⟩
    rw [busWrite_high_held hs hi hj hb hh]
    refine ⟨fun f hf => ?_, ?_⟩
    · have hreach : f ∈ reached r 63 0 := by
        have := reached_all r
        rw [hb] at this
        rwa [this]
      rw [writeHit_own_rd (fields_reg hf), writeReg_rd_reached h hreach, setHeld_afterWrite]
    · rw [writeHit_own_bus h, setHeld_held]
  case highOnly =>
    intro s r i j v hs hi hj hb h hh
    refine ⟨_, exec_highWordWrite hs (wfAddr_high hi hj hb), fun f hf => ?_⟩
    have hhi := (fields_within hf).1
    have hlo := (fields_within hf).2
    rw [busWrite_high_alone hs hi hj hb hh, writeHit_own_rd (fields_reg hf)]
    have hreach : f ∈ reached r 63 32 ↔ 32 ≤ f.hi := by
      unfold reached
      rw [List.mem_filter, decide_eq_true_eq, and_iff_right hf]
      omega
    split
    · next h32 => rw [writeReg_rd_reached h (hreach.mpr h32), setHeld_afterWrite]
    · next h32 => rw [writeReg_rd_unreached h hf (fun hm => h32 (hreach.mp hm)), setHeld_rd]

/-! Unmapped addresses (R16). -/

theorem not_window {a : Nat} (hw : inRecordWindow a = false) (hr : inRingWindow a = false) :
    (inRecordWindow a || inRingWindow a) = false := by
  rw [hw, hr]
  rfl

theorem write32_unmapped (hw : inRecordWindow a = false) (hr : inRingWindow a = false) (hn : hitAt a = none) :
    s.write32 cls a v = (s.setHeld cls none).accessErr F.GLB_ACCESS_ERR_UNMAPPED cls a := by
  unfold State.write32
  simp only [not_window hw hr, Bool.false_eq_true, if_false, hn]

theorem read32_unmapped (h : s.isSafe = false) (hw : inRecordWindow a = false) (hr : inRingWindow a = false)
    (hn : hitAt a = none) : s.read32 cls a = (0, s.accessErr F.GLB_ACCESS_ERR_UNMAPPED cls a) := by
  unfold State.read32
  simp only [not_window hw hr, Bool.false_eq_true, if_false, hn, h]

theorem wideAt_unmapped (hn : hitAt a = none) : wideAt a = none := by
  unfold wideAt
  rw [hn]
  rfl

theorem wfAddr_of (hlt : a < 2 ^ 28) (h4 : a % 4 = 0) : wfAddr a = true := by
  unfold wfAddr
  rw [decide_eq_true hlt, decide_eq_true h4]
  rfl

/-- A 64-bit write of two unmapped words is two access errors. -/
theorem write64_unmapped (hw : inRecordWindow a = false) (hr : inRingWindow a = false) (hn : hitAt a = none)
    (hw' : inRecordWindow (a + 4) = false) (hr' : inRingWindow (a + 4) = false) (hn' : hitAt (a + 4) = none) :
    s.write64 cls a v = (((s.setHeld cls none).accessErr F.GLB_ACCESS_ERR_UNMAPPED cls a).setHeld cls none).accessErr
      F.GLB_ACCESS_ERR_UNMAPPED cls (a + 4) := by
  unfold State.write64
  rw [wideAt_unmapped hn]
  dsimp only
  rw [write32_unmapped hw hr hn, write32_unmapped hw' hr' hn']

/-- So is a 64-bit read, which returns zero. -/
theorem read64_unmapped (hs : s.isSafe = false) (hw : inRecordWindow a = false) (hr : inRingWindow a = false)
    (hn : hitAt a = none) (hw' : inRecordWindow (a + 4) = false) (hr' : inRingWindow (a + 4) = false)
    (hn' : hitAt (a + 4) = none) :
    s.read64 cls a = (0, (s.accessErr F.GLB_ACCESS_ERR_UNMAPPED cls a).accessErr F.GLB_ACCESS_ERR_UNMAPPED cls (a + 4)) := by
  have hs' : (s.accessErr F.GLB_ACCESS_ERR_UNMAPPED cls a).isSafe = false := by rw [accessErr_isSafe rfl, hs]
  unfold State.read64 readPair
  rw [wideAt_unmapped hn]
  dsimp only
  rw [read32_unmapped hs hw hr hn, read32_unmapped hs' hw' hr' hn', Nat.zero_mul]

/-- Settles O19: each unmapped word comes to one access error, by `write32_unmapped` and `read32_unmapped`. -/
theorem unmappedAddresses : Obligations.UnmappedAddresses := by
  unfold Obligations.UnmappedAddresses
  refine ⟨?write32, ?write64, ?read32, ?read64⟩
  case write32 =>
    intro s cls a v hs hlt h4 hw hr hn
    refine ⟨_, exec_registerWrite hs (wfAddr_of hlt h4) rfl, ?_⟩
    rw [busWrite_32 hs, write32_unmapped hw hr hn]
    exact ⟨accessErr_rd_same rfl, fun g i' j' hg => accessErr_rd_other rfl hg⟩
  case write64 =>
    intro s cls a v hs hlt h4 hw hr hn hw' hr' hn'
    refine ⟨_, exec_registerWrite hs (wfAddr_of (by omega) h4) rfl, ?_⟩
    rw [busWrite_64 hs, write64_unmapped hw hr hn hw' hr' hn']
    refine ⟨accessErr_rd_same rfl, fun g i' j' hg => ?_⟩
    rw [accessErr_rd_other rfl hg, setHeld_rd, accessErr_rd_other rfl hg, setHeld_rd]
  case read32 =>
    intro s cls a hs hlt h4 hw hr hn hc
    refine ⟨_, exec_rcRegisterRead (active_powered hs) (wfAddr_of hlt h4) rfl, ?_⟩
    rw [busRead_32 hc, read32_unmapped (active_not_safe hs) hw hr hn]
    refine ⟨?_, ?_, fun g i' j' hg => ?_⟩
    · rw [emit_out, accessErr_out]
    · rw [rd_emit, accessErr_rd_same rfl]
    · rw [rd_emit, accessErr_rd_other rfl hg]
  case read64 =>
    intro s cls a hs hlt h4 hw hr hn hw' hr' hn' hc
    refine ⟨_, exec_rcRegisterRead (active_powered hs) (wfAddr_of (by omega) h4) rfl, ?_⟩
    have hread := read64_unmapped (cls := cls) (active_not_safe hs) hw hr hn hw' hr' hn'
    rw [busRead_64 hc, hread]
    refine ⟨?_, ?_, fun g i' j' hg => ?_⟩
    · rw [emit_out, accessErr_out, accessErr_out]
    · rw [rd_emit, accessErr_rd_same rfl]
    · rw [rd_emit, accessErr_rd_other rfl hg, accessErr_rd_other rfl hg]

end Sys2Proof.Machine
end

section
/-!
SUPPORT. Access errors: what GLB_ACCESS_ADDR captures, and the raise that reaches the collector (R23, R43).
-/

namespace Sys2Proof.Machine

variable {s : State} {f : Fld} {cls : PortClass} {a : Nat}

/-! The collector's queue (R378, R379). -/

/-- What a delivery puts in the queue is in it. -/
theorem mem_deliver_inbox (m : FaultMsg) : (s.now, m) ∈ (s.deliver m).flt.inbox :=
  List.mem_append_left _ (List.mem_append_right _ List.mem_cons_self)

/-- A delivery leaves out nothing of the queue, whatever it moves behind the new message. -/
theorem deliver_inbox_length (m : FaultMsg) : (s.deliver m).flt.inbox.length = s.flt.inbox.length + 1 := by
  unfold State.deliver
  simp only [List.length_append, List.length_singleton]
  rw [List.length_eq_length_filter_add (l := s.flt.inbox)
    (fun e => e.1 / 16 == s.now / 16 && decide (m.source < e.2.source))]
  omega

/-- The queue holds one more raise of a source than `s`, of the present cycle. -/
def RaisedOnce (s t : State) (src : Nat) : Prop :=
  (∃ m ∈ t.flt.inbox, m.1 = s.now ∧ m.2.source = src ∧ m.2.n = 1) ∧ t.flt.inbox.length = s.flt.inbox.length + 1

/-- R378: a raise on the management die needs no message. -/
theorem raise_mgt_raisedOnce (src d : Nat) : RaisedOnce s (s.raise stopMgt src d) src :=
  ⟨⟨_, mem_deliver_inbox _, rfl, rfl, rfl⟩, deliver_inbox_length _⟩

/-! An access error (R43). -/

theorem wfAddr_lt (h : wfAddr a = true) : a < 2 ^ 28 := by
  unfold wfAddr at h
  rw [Bool.and_eq_true, decide_eq_true_eq] at h
  exact h.1

theorem captureAccess_rd {c : Nat} (hc : c < 4) (ha : a < 2 ^ 28) :
    (s.captureAccess c a).rd F.GLB_ACCESS_ADDR_OFFSET = a ∧ (s.captureAccess c a).rd F.GLB_ACCESS_ADDR_CLASS = c := by
  unfold State.captureAccess
  refine ⟨?_, ?_⟩
  · rw [rd_wr_same]
    exact Nat.mod_eq_of_lt ha
  · rw [rd_wr_other _ _ _ _ _ _ _ _ (by decide), rd_wr_same]
    exact Nat.mod_eq_of_lt hc

/-- After the capture an access error writes its own bit alone. -/
theorem accessErr_rd_addr {g : Fld} (hg : g.reg ≠ f.reg) : (s.accessErr f cls a).rd g =
    (if s.regBits .GLB_ACCESS_ERR 0 0 = 0 then s.captureAccess cls.code a else s).rd g := by
  unfold State.accessErr State.raise State.raiseN State.deliver
  rw [if_pos rfl, rd_with_flt, rd_latch_other _ _ _ _ _ _ _ (key_ne_of_other rfl (.inl hg))]
  split <;> split <;> rfl

/-- R43: with every bit clear the error's address and class are captured. -/
theorem accessErr_captures (hf : f.reg = .GLB_ACCESS_ERR) (ha : a < 2 ^ 28) (hb : s.regBits .GLB_ACCESS_ERR 0 0 = 0) :
    (s.accessErr f cls a).rd F.GLB_ACCESS_ADDR_OFFSET = a ∧ (s.accessErr f cls a).rd F.GLB_ACCESS_ADDR_CLASS = cls.code := by
  have hc : cls.code < 4 := by cases cls <;> decide
  rw [accessErr_rd_addr (by rw [hf]; decide), accessErr_rd_addr (by rw [hf]; decide), if_pos hb]
  exact captureAccess_rd hc ha

/-- R43: while a bit is set the capture is held. -/
theorem accessErr_holds_capture (hf : f.reg = .GLB_ACCESS_ERR) (hb : s.regBits .GLB_ACCESS_ERR 0 0 ≠ 0) :
    (s.accessErr f cls a).rd F.GLB_ACCESS_ADDR_OFFSET = s.rd F.GLB_ACCESS_ADDR_OFFSET ∧
      (s.accessErr f cls a).rd F.GLB_ACCESS_ADDR_CLASS = s.rd F.GLB_ACCESS_ADDR_CLASS := by
  rw [accessErr_rd_addr (by rw [hf]; decide), accessErr_rd_addr (by rw [hf]; decide), if_neg hb]
  exact ⟨rfl, rfl⟩

theorem accessErr_raisedOnce : RaisedOnce s (s.accessErr f cls a) 1 := by
  unfold State.accessErr
  dsimp only
  split <;> split <;> exact raise_mgt_raisedOnce 1 0

/-- Settles O20: both writes come to one access error (`write32_unmapped`, `writeHit_other`), once the held word of the
class is dropped. -/
theorem firstAccessErrorIsCaptured : Obligations.FirstAccessErrorIsCaptured := by
  unfold Obligations.FirstAccessErrorIsCaptured
  refine ⟨?unmapped, ?authority⟩
  case unmapped =>
    intro s cls a v hs hlt h4 hw hr hn
    refine ⟨_, exec_registerWrite hs (wfAddr_of hlt h4) rfl, ?_⟩
    rw [busWrite_32 hs, write32_unmapped hw hr hn]
    exact ⟨accessErr_captures (s := s.setHeld cls none) rfl hlt, accessErr_raisedOnce (s := s.setHeld cls none),
      accessErr_holds_capture (s := s.setHeld cls none) rfl⟩
  case authority =>
    intro s r i j cls v hs hi hj ho hc
    have ha := wfAddr_addr hi hj
    refine ⟨_, exec_registerWrite hs ha (wfWidth_bits r), ?_⟩
    rw [busWrite_whole hs hi hj, writeHit_other (s := s.setHeld cls none) ho hc]
    exact ⟨accessErr_captures (s := s.setHeld cls none) rfl (wfAddr_lt ha),
      accessErr_raisedOnce (s := s.setHeld cls none)⟩

end Sys2Proof.Machine
end

section
/-!
SUPPORT. The lacing ring: what a packet's entry, its leaving a stop and its claim of the next one leave (R49 to R55), and
how a fault message's leaving lets a waiting copy in (R52, R54).
-/

namespace Sys2Proof.Machine

variable {s t : State} {r : Ring} {stop k : Nat} {p : RingPacket} {full : Bool}

/-! Commands that may act. -/

theorem exec_faultMessage (hp : s.powered = true) : exec (.faultMessage r) s = .next (s.faultMessage r) :=
  onPowered_eq (f := fun s => s.faultMessage r) rfl hp

theorem exec_ringPacketArrive (hp : s.powered = true) (hk : stop < 24) :
    exec (.ringPacketArrive r stop p full) s = .next (s.packetArrive r stop p full) :=
  onPowered_eq (f := fun s => s.packetArrive r stop p full) (decide_eq_true hk) hp

/-! The buffers of a stop. -/

/-- A claim changes the buffers of its stop, and the time of its OFF signal. -/
theorem ringClaim_shape : ∃ o, s.ringClaim r k p =
    { s with ring := { s.ring with buffers := s.ring.buffers.upd [r.code, k] (· ++ [p]), offAt := o } } := by
  unfold State.ringClaim
  dsimp only
  split
  · exact ⟨_, rfl⟩
  · exact ⟨s.ring.offAt, rfl⟩

/-- Where no copy of a fault message waits, room at a stop lets none in. -/
theorem enterFaults_of_empty (he : s.flt.entry = []) : s.enterFaults r k = s := by
  unfold State.enterFaults
  rw [he]
  show { s with flt := { s.flt with entry := [] } } = s
  rw [← he]

/-- `t` is `s` but for the ring. -/
def RingOnly (s t : State) : Prop := ∃ x, t = { s with ring := x }

theorem RingOnly.flt (h : RingOnly s t) : t.flt = s.flt := by
  obtain ⟨x, rfl⟩ := h
  rfl

theorem RingOnly.regs (h : RingOnly s t) : t.regs = s.regs := by
  obtain ⟨x, rfl⟩ := h
  rfl

theorem RingOnly.out (h : RingOnly s t) : t.out = s.out := by
  obtain ⟨x, rfl⟩ := h
  rfl

theorem RingOnly.trans {u : State} (h : RingOnly s t) (h' : RingOnly t u) : RingOnly s u := by
  obtain ⟨x, rfl⟩ := h
  obtain ⟨y, rfl⟩ := h'
  exact ⟨y, rfl⟩

/-- While no copy waits, a packet that leaves a stop changes that stop's buffers alone. -/
theorem ringLeave_of_empty (he : s.flt.entry = []) : ∃ o, s.ringLeave r k p =
    { s with ring := { buffers := s.ring.buffers.upd [r.code, k] (·.erase p),
                       entered := s.ring.entered.upd [r.code, k] (·.erase p), offAt := o } } := by
  unfold State.ringLeave
  dsimp only
  split <;> rw [enterFaults_of_empty (by exact he)]
  · exact ⟨_, rfl⟩
  · exact ⟨s.ring.offAt, rfl⟩

theorem ringLeave_ringOnly (he : s.flt.entry = []) : RingOnly s (s.ringLeave r k p) := by
  obtain ⟨o, h⟩ := ringLeave_of_empty (r := r) (k := k) (p := p) he
  exact ⟨_, h⟩

theorem ringLeave_buffers (he : s.flt.entry = []) :
    (s.ringLeave r k p).ring.buffers = s.ring.buffers.upd [r.code, k] (·.erase p) := by
  obtain ⟨o, h⟩ := ringLeave_of_empty (r := r) (k := k) (p := p) he
  rw [h]

/-! A packet's arrival at a stop (R51 to R53, R55). -/

/-- The stop before one is another one. -/
theorem prevStop_ne : stop ≠ prevStop r stop := by
  cases r <;> dsimp only [prevStop] <;> omega

/-- The stops and lengths that a packet can have. -/
def Arrives (stop : Nat) (p : RingPacket) : Prop := stop < 24 ∧ p.src < 24 ∧ p.dst < 24 ∧ p.sized = true

theorem Arrives.not_refused (h : Arrives stop p) : ¬(24 ≤ stop ∨ 24 ≤ p.src ∨ 24 ≤ p.dst ∨ p.sized = false) := by
  obtain ⟨hk, hsrc, hdst, hsized⟩ := h
  rw [hsized]
  simp only [Bool.true_eq_false, or_false]
  omega

/-- A packet that the stop before does not hold enters at its source. -/
theorem packetArrive_source (h : Arrives p.src p) (hin : (s.ring.buffers.get [r.code, prevStop r p.src]).contains p = false) :
    s.packetArrive r p.src p full = s.packetEnter r p := by
  unfold State.packetArrive
  dsimp only
  rw [if_neg h.not_refused, if_pos hin, if_pos rfl]

/-- R51, R52, R54: what a packet needs to enter the ring. -/
theorem packetEnter_of (hkind : p.kind ≠ .fault) (hne : p.src ≠ p.dst) (hr : r = s.chooseRing p.src p.dst)
    (hfree : 2 ≤ s.ringFree r p.src) (hm : s.marked (.message p.src) 8 = false) (he : s.flt.entry = []) :
    s.packetEnter r p = s.ringEnter r p.src p := by
  unfold State.packetEnter
  refine if_neg ?_
  rw [hm, he]
  simp only [hkind, hne, ← hr, Nat.not_lt.mpr hfree, ne_eq, not_true_eq_false, Bool.false_eq_true, List.any_nil, or_self,
    not_false_eq_true]

/-- A packet moves from the stop before into this one. -/
def State.passOn (s : State) (r : Ring) (stop : Nat) (p : RingPacket) : State :=
  (s.ringLeave r (prevStop r stop) p).ringClaim r stop p

/-- A packet whose turn it is at the stop before is lost with its link, waits for the next stop, or moves on. -/
theorem packetArrive_turn (h : Arrives stop p) (hin : (s.ring.buffers.get [r.code, prevStop r stop]).contains p = true)
    (ht : s.ringTurn r (prevStop r stop) p = true) : s.packetArrive r stop p full =
      if s.linkDown r (prevStop r stop) then (s.loseCopy r p).ringLeave r (prevStop r stop) p
      else if s.ringTakes r stop = false then s
      else if p.dst = stop ∧ full = false then (s.ringLeave r (prevStop r stop) p).emit (.ejected stop p)
      else if p.dst = stop then (s.passOn r stop p).inc F.GLB_RING_STAT_LAPS
      else s.passOn r stop p := by
  unfold State.packetArrive
  dsimp only
  rw [if_neg h.not_refused, hin, ht, if_neg Bool.false_ne_true.symm, if_neg Bool.false_ne_true.symm]
  rfl

/-- R54: a lost copy of a fault message is on its way no longer; a packet's loss changes nothing else. -/
theorem loseCopy_shape : ∃ n, s.loseCopy r p = { s with flt := { s.flt with
    flight := s.flt.flight.filter (fun m => !(m.1 == r && m.2.packet == p)), seen := n } } := by
  unfold State.loseCopy
  split
  · exact ⟨_, rfl⟩
  · next hkind =>
    have hall : s.flt.flight.filter (fun m => !(m.1 == r && m.2.packet == p)) = s.flt.flight := by
      refine List.filter_eq_self.mpr (fun m _ => ?_)
      have hne : m.2.packet ≠ p := fun hp => hkind (hp ▸ rfl)
      rw [beq_eq_false_iff_ne.mpr hne, Bool.and_false, Bool.not_false]
    rw [hall]
    exact ⟨s.flt.seen, rfl⟩

/-- What a packet that moves on leaves. -/
theorem passOn_effect (he : s.flt.entry = []) :
    (s.passOn r stop p).ring.buffers.get [r.code, stop] = s.ring.buffers.get [r.code, stop] ++ [p] ∧
    (s.passOn r stop p).ring.buffers.get [r.code, prevStop r stop] =
      (s.ring.buffers.get [r.code, prevStop r stop]).erase p ∧
    (s.passOn r stop p).regs = s.regs ∧ (s.passOn r stop p).out = s.out := by
  have hne : [r.code, stop] ≠ [r.code, prevStop r stop] := fun h => by
    simp only [List.cons.injEq, and_true, true_and] at h
    exact prevStop_ne h
  obtain ⟨o, hclaim⟩ := ringClaim_shape (s := s.ringLeave r (prevStop r stop) p) (r := r) (k := stop) (p := p)
  unfold State.passOn
  rw [hclaim]
  dsimp only
  rw [ringLeave_buffers he, SMap.get_upd_same, SMap.get_upd_ne _ hne, SMap.get_upd_ne _ hne.symm, SMap.get_upd_same]
  exact ⟨rfl, rfl, (ringLeave_ringOnly he).regs, (ringLeave_ringOnly he).out⟩

/-- Settles O34: each case is one branch of an arrival (`packetArrive_source`, `packetArrive_turn`). -/
theorem ringPackets : Obligations.RingPackets := by
  unfold Obligations.RingPackets
  refine ⟨?enter, ?eject, ?pass, ?lap, ?lose⟩
  case enter =>
    rintro s r _ p full hp hk hsrc hdst hsized hin rfl hne hkind he hr hfree hm
    refine ⟨_, exec_ringPacketArrive hp hk, ?_⟩
    rw [packetArrive_source ⟨hk, hsrc, hdst, hsized⟩ hin, packetEnter_of hkind hne hr hfree hm he]
    obtain ⟨o, hclaim⟩ := ringClaim_shape (s := s) (r := r) (k := p.src) (p := p)
    unfold State.ringEnter
    rw [hclaim]
    exact ⟨SMap.get_upd_same _ _ _, rfl, rfl⟩
  case eject =>
    intro s r stop p full hp hk hsrc hdst hsized he hin ht hl hd hf htake
    refine ⟨_, exec_ringPacketArrive hp hk, ?_⟩
    rw [packetArrive_turn ⟨hk, hsrc, hdst, hsized⟩ hin ht, hl, htake, if_neg Bool.false_ne_true,
      if_neg Bool.false_ne_true.symm, if_pos ⟨hd, hf⟩]
    rw [emit_out, emit_ring, emit_regs, ringLeave_buffers he, SMap.get_upd_same, (ringLeave_ringOnly he).out]
    exact ⟨rfl, rfl, (ringLeave_ringOnly he).regs⟩
  case pass =>
    intro s r stop p full hp hk hsrc hdst hsized he hin ht hl hd htake
    refine ⟨_, exec_ringPacketArrive hp hk, ?_⟩
    rw [packetArrive_turn ⟨hk, hsrc, hdst, hsized⟩ hin ht, hl, htake, if_neg Bool.false_ne_true,
      if_neg Bool.false_ne_true.symm, if_neg (fun h => hd h.1), if_neg hd]
    exact passOn_effect he
  case lap =>
    intro s r stop p full hp hk hsrc hdst hsized he hin ht hl hd hf htake
    refine ⟨_, exec_ringPacketArrive hp hk, ?_⟩
    rw [packetArrive_turn ⟨hk, hsrc, hdst, hsized⟩ hin ht, hl, htake, if_neg Bool.false_ne_true,
      if_neg Bool.false_ne_true.symm, if_neg (fun h => by rw [hf] at h; cases h.2), if_pos hd]
    obtain ⟨hnext, -, hregs, hout⟩ := passOn_effect (r := r) (p := p) he
    have hw : F.GLB_RING_STAT_LAPS.width = 32 := rfl
    rw [rd_inc_same, hw, rd_congr _ _ _ hregs, inc_out, inc_ring]
    exact ⟨rfl, hout, hnext⟩
  case lose =>
    intro s r stop p full hp hk hsrc hdst hsized he hin ht hl
    refine ⟨_, exec_ringPacketArrive hp hk, ?_⟩
    rw [packetArrive_turn ⟨hk, hsrc, hdst, hsized⟩ hin ht, hl, if_pos rfl]
    obtain ⟨n, hlose⟩ := loseCopy_shape (s := s) (r := r) (p := p)
    have he' : (s.loseCopy r p).flt.entry = [] := by rw [hlose, ← he]
    have hleave := ringLeave_ringOnly (r := r) (k := prevStop r stop) (p := p) he'
    rw [ringLeave_buffers he', SMap.get_upd_same, hleave.regs, hleave.out, hlose]
    exact ⟨rfl, rfl, rfl⟩

/-! A waiting copy enters when a message leaves its stop (R52, R54). -/

/-- The state that four raises of source 9 at the port die of stop 3 leave: three copies fill its entry to each ring, and
the fourth waits there. -/
def fourRaises : State := State.reset.each (List.range 4) (fun s d => s.raise 3 9 d)

/-- The message of raise `n` of them. -/
def fourRaisesMsg (n : Nat) : FaultMsg := { die := 3, source := 9, n := 1, detail := n, level := false, seq := n }

/-- Refutes O10: the oldest message leaves the stop at which a further copy waits, and the room lets that copy enter (R52),
so it joins those on the rings and the copies are more than those of before less the message. -/
theorem not_faultMessageReachesCollector : ¬ Obligations.FaultMessageReachesCollector := by
  unfold Obligations.FaultMessageReachesCollector
  rintro ⟨h, -⟩
  have hp : fourRaises.powered = true := by decide +kernel
  obtain ⟨t, ht, -, hflight, -⟩ := h fourRaises .ccw (.ccw, fourRaisesMsg 0) hp (by decide +kernel) (by decide +kernel)
  rw [exec_faultMessage hp] at ht
  cases ht
  exact absurd hflight (by decide +kernel)

end Sys2Proof.Machine
end

section
/-!
SUPPORT. The links of the lacing ring: their marks in GLB_RING_LINK, what a failed one loses, and a host access that gets
no answer (R51, R55, R382, R421).
-/

namespace Sys2Proof.Machine

variable {s t : State} {r : Ring} {stop k : Nat} {p q : RingPacket}

/-! Commands that may act. -/

theorem exec_ringLinkFail {ms : List (Nat × Nat)} {ps : List RingPacket} (hp : s.powered = true) (hk : stop < 24) :
    exec (.ringLinkFail r stop ms ps) s = .next (s.ringFail r stop ms ps) :=
  onPowered_eq (f := fun s => s.ringFail r stop ms ps) (decide_eq_true hk) hp

theorem exec_ringLinkRestore (hp : s.powered = true) (hk : stop < 24) :
    exec (.ringLinkRestore r stop) s = .next (s.ringRestore r stop) :=
  onPowered_eq (f := fun s => s.ringRestore r stop) (decide_eq_true hk) hp

theorem exec_ringAccessTimeout {a : Nat} {write : Bool} (hp : s.powered = true) (ha : wfAddr a = true) :
    exec (.ringAccessTimeout a write) s = .next (s.accessLost a write) :=
  onPowered_eq (f := fun s => s.accessLost a write) ha hp

/-! The marks of links (R51, R55). -/

/-- Adding a clear bit carries into no other. -/
theorem testBit_add_two_pow {w n k : Nat} (hn : w.testBit n = false) :
    (w + 2 ^ n).testBit k = if k = n then true else w.testBit k := by
  rw [Nat.add_comm]
  rcases Nat.lt_trichotomy k n with h | rfl | h
  · rw [Nat.testBit_two_pow_add_gt h, if_neg (by omega)]
  · rw [Nat.testBit_two_pow_add_eq, hn, if_pos rfl]
    rfl
  · obtain ⟨j, rfl⟩ := Nat.exists_eq_add_of_lt h
    have heven : w / 2 ^ n % 2 = 0 := by
      rw [Nat.testBit_eq_decide_div_mod_eq, decide_eq_false_iff_not] at hn
      omega
    have hhalf : (2 ^ n + w) / 2 ^ n / 2 = w / 2 ^ n / 2 := by
      rw [Nat.add_div_left _ (Nat.two_pow_pos n)]
      omega
    have habove : ∀ x : Nat, x.testBit (n + j + 1) = (x / 2 ^ n / 2).testBit j := fun x => by
      rw [Nat.add_assoc, Nat.add_comm n, ← Nat.testBit_div_two_pow, Nat.testBit_succ]
    rw [if_neg (by omega), habove, habove, hhalf]

/-- A set bit can be taken away. -/
theorem testBit_sub_two_pow {v n k : Nat} (hn : v.testBit n = true) :
    (v - 2 ^ n).testBit k = if k = n then false else v.testBit k := by
  have hle : 2 ^ n ≤ v := Nat.ge_two_pow_of_testBit hn
  have hv : v - 2 ^ n + 2 ^ n = v := Nat.sub_add_cancel hle
  have hclear : (v - 2 ^ n).testBit n = false := by
    have h := Nat.testBit_two_pow_add_eq (v - 2 ^ n) n
    rw [Nat.add_comm, hv, hn] at h
    simpa using h.symm
  have hrest := testBit_add_two_pow (k := k) hclear
  rw [hv] at hrest
  split
  · next h => rw [h, hclear]
  · next h => rw [hrest, if_neg h]

theorem testBit_setBit {v n k : Nat} {b : Bool} : (setBit v n b).testBit k = if k = n then b else v.testBit k := by
  unfold setBit
  split
  · next h =>
    split
    · next hk => rw [hk, h]
    · rfl
  · next h =>
    cases b with
    | true =>
      rw [if_pos rfl]
      exact testBit_add_two_pow (Bool.not_eq_true _ ▸ h)
    | false =>
      rw [if_neg Bool.false_ne_true]
      exact testBit_sub_two_pow (Bool.not_eq_false _ ▸ h)

theorem linkDown_eq (s : State) (r : Ring) (k : Nat) : s.linkDown r k = (s.rd (ringDown r)).testBit k := by
  cases r <;> rfl

theorem linkDown_congr (h : t.rd (ringDown r) = s.rd (ringDown r)) (k : Nat) : t.linkDown r k = s.linkDown r k := by
  rw [linkDown_eq, linkDown_eq, h]

/-- A link is marked, or unmarked, and the others stay as they are. -/
def State.markLink (s : State) (r : Ring) (stop : Nat) (b : Bool) : State :=
  s.wr (ringDown r) (setBit (s.rd (ringDown r)) stop b)

theorem markLink_linkDown {b : Bool} (hk : k < 24) :
    (s.markLink r stop b).linkDown r k = if k = stop then b else s.linkDown r k := by
  have hw : (ringDown r).width = 24 := by cases r <;> rfl
  unfold State.markLink
  rw [linkDown_eq, linkDown_eq, rd_wr_same, hw, Nat.testBit_mod_two_pow, decide_eq_true hk, Bool.true_and, testBit_setBit]

/-! What follows the condition of a level source on the management die (R382). -/

/-- The collector's registers and the marks of counts follow its pending sources, and the time of repeats. -/
theorem syncPin_keeps_part {β : Type} (f : State → β)
    (hf : ∀ (t : State) m l, f { t with regs := m, marks := l } = f t) : f s.syncPin = f s := by
  have hwr : ∀ (t : State) g v i j, f (t.wr g v i j) = f t := fun t _ _ _ _ => hf t _ t.marks
  have hinc : ∀ (t : State) g n i j, f (t.inc g n i j) = f t := fun t _ _ _ _ => hf t _ _
  have hmark : ∀ (t : State) m, f (t.mark m) = f t := fun t _ => hf t t.regs _
  unfold State.syncPin
  simp only [apply_ite f, hwr, hinc, hmark, ite_self]

theorem syncFaults_keeps_part {β : Type} (f : State → β)
    (hf : ∀ (t : State) m l, f { t with regs := m, marks := l } = f t)
    (hn : ∀ (t : State) x, f { t with flt := { t.flt with noticeSince := x } } = f t) : f s.syncFaults = f s := by
  have hwr : ∀ (t : State) g v i j, f (t.wr g v i j) = f t := fun t _ _ _ _ => hf t _ t.marks
  refine (syncPin_keeps_part f hf).trans ((hn _ _).trans ?_)
  simp only [hwr]

theorem setLevel_mgt_keeps_part {β : Type} (f : State → β) {src u d : Nat} {c : Bool}
    (hf : ∀ (t : State) m, f { t with regs := m } = f t)
    (hflt : ∀ (t : State) cond levels inbox, f { t with flt := { t.flt with cond, levels, inbox } } = f t) :
    f (s.setLevel stopMgt src u d c) = f s := by
  have hset : ∀ m cond levels inbox, f { s with regs := m, flt := { s.flt with cond, levels, inbox } } = f s :=
    fun m cond levels inbox => (hf { s with flt := { s.flt with cond, levels, inbox } } m).trans (hflt s cond levels inbox)
  unfold State.setLevel
  split
  · rfl
  · cases c
    · exact hset _ _ _ s.flt.inbox
    · exact hset _ _ _ _

/-- What is listed as true is among the entries. -/
theorem mem_entries_of_get {m : SMap Bool} {x : Key} (h : m.get x = true) : (x, true) ∈ m.entries := by
  unfold SMap.get SMap.getD at h
  cases hx : entriesFind x m.entries with
  | none =>
    rw [hx] at h
    cases h
  | some v =>
    rw [hx] at h
    cases h
    exact entriesFind_mem hx

/-- A unit's condition that holds makes the level of its die. -/
theorem dieLevel_of_cond {src die u : Nat} (h : s.flt.cond.get [src, die, u] = true) : s.dieLevel src die = true := by
  unfold State.dieLevel
  rw [List.any_eq_true]
  exact ⟨_, mem_entries_of_get h, by simp⟩

/-- The level of a die makes its source ACTIVE. -/
theorem syncActive_of_level {src die : Nat} (hsrc : levelSources.contains src = true)
    (h : s.flt.levels.get [src, die] = true) : (s.syncActive src).rd F.FLT_SRC_STAT_ACTIVE src = 1 := by
  have hany : s.flt.levels.entries.any (fun e => e.1.head? == some src) = true := by
    rw [List.any_eq_true]
    exact ⟨_, mem_entries_of_get h, by simp⟩
  unfold State.syncActive
  rw [rd_wr_same, hsrc, hany]
  rfl

/-- R382: a condition that begins to hold on the management die makes its source ACTIVE. -/
theorem setLevel_mgt_active {src u d : Nat} (hsrc : levelSources.contains src = true)
    (h : s.flt.cond.get [src, stopMgt, u] = false) :
    (s.setLevel stopMgt src u d true).rd F.FLT_SRC_STAT_ACTIVE src = 1 := by
  unfold State.setLevel
  rw [h, if_neg Bool.false_ne_true]
  dsimp only
  rw [if_pos rfl, if_pos rfl]
  refine syncActive_of_level (die := stopMgt) hsrc ?_
  dsimp only
  rw [SMap.get_set_same]
  exact dieLevel_of_cond (SMap.get_set_same _ _ _)

/-! What a failed link loses (R54, R55). -/

theorem each_ringLeave_ringOnly {l : List Nat} (he : s.flt.entry = []) :
    RingOnly s (s.each l (fun s k => s.ringLeave r k p)) := by
  induction l generalizing s with
  | nil => exact ⟨s.ring, rfl⟩
  | cons a l ih =>
    have hleave := ringLeave_ringOnly (r := r) (k := a) (p := p) he
    exact hleave.trans (ih (by rw [hleave.flt, he]))

/-- A walk over stops takes the packet from each of them once. -/
theorem each_ringLeave_buffers {l : List Nat} (hl : l.Nodup) (he : s.flt.entry = []) :
    (s.each l (fun s k => s.ringLeave r k p)).ring.buffers.get [r.code, k] =
      if k ∈ l then (s.ring.buffers.get [r.code, k]).erase p else s.ring.buffers.get [r.code, k] := by
  induction l generalizing s with
  | nil => rfl
  | cons a l ih =>
    obtain ⟨ha, hl⟩ := List.nodup_cons.mp hl
    rw [each_cons, ih hl (by rw [(ringLeave_ringOnly he).flt, he]), ringLeave_buffers he]
    by_cases hk : k = a
    · rw [hk, if_neg ha, if_pos List.mem_cons_self, SMap.get_upd_same]
    · have hkey : [r.code, k] ≠ [r.code, a] := fun h => by
        simp only [List.cons.injEq, and_true, true_and] at h
        exact hk h
      rw [SMap.get_upd_ne _ hkey]
      simp only [List.mem_cons, hk, false_or]

theorem takeOff_buffers (hk : k < 24) (he : s.flt.entry = []) :
    (s.takeOff r p).ring.buffers.get [r.code, k] = (s.ring.buffers.get [r.code, k]).erase p := by
  unfold State.takeOff
  rw [each_ringLeave_buffers (List.nodup_range.filter _) he]
  split
  · rfl
  · next hnot =>
    refine (List.erase_of_not_mem (fun hp => hnot ?_)).symm
    exact List.mem_filter.mpr ⟨List.mem_range.mpr hk, List.contains_iff_mem.mpr hp⟩

/-- The packets of a list are lost, and the copies of messages among them. -/
def State.loseAll (s : State) (r : Ring) (l : List RingPacket) : State := s.each l (fun s p => (s.loseCopy r p).takeOff r p)

/-- From `s` to `t` the packets of a list leave a ring, and the copies of messages among them are on their way no longer. -/
structure Lost (r : Ring) (l : List RingPacket) (s t : State) : Prop where
  regs    : t.regs = s.regs
  cond    : t.flt.cond = s.flt.cond
  entry   : t.flt.entry = s.flt.entry
  flight  : t.flt.flight = s.flt.flight.filter (fun m => !(m.1 == r && l.contains m.2.packet))
  buffers : ∀ k < 24, t.ring.buffers.get [r.code, k] = (s.ring.buffers.get [r.code, k]).diff l

theorem Lost.refl (r : Ring) (s : State) : Lost r [] s s where
  regs := rfl
  cond := rfl
  entry := rfl
  flight := by simp
  buffers _ _ := rfl

theorem Lost.cons {u : State} {l : List RingPacket} (h : Lost r [p] s t) (h' : Lost r l t u) : Lost r (p :: l) s u where
  regs := h'.regs.trans h.regs
  cond := h'.cond.trans h.cond
  entry := h'.entry.trans h.entry
  flight := by
    rw [h'.flight, h.flight, List.filter_filter]
    refine List.filter_congr (fun m _ => ?_)
    rw [List.contains_cons, List.contains_cons, List.contains_nil, Bool.or_false, Bool.and_or_distrib_left, Bool.not_or,
      Bool.and_comm]
  buffers k hk := by
    rw [h'.buffers k hk, h.buffers k hk, List.diff_cons, List.diff_nil, List.diff_cons]

/-- One packet is lost. -/
theorem loseOne_lost (he : s.flt.entry = []) : Lost r [p] s ((s.loseCopy r p).takeOff r p) := by
  obtain ⟨n, h⟩ := loseCopy_shape (s := s) (r := r) (p := p)
  have he' : (s.loseCopy r p).flt.entry = [] := by rw [h, ← he]
  have honly : RingOnly (s.loseCopy r p) ((s.loseCopy r p).takeOff r p) := each_ringLeave_ringOnly he'
  refine ⟨?_, ?_, ?_, ?_, fun k hk => ?_⟩
  · rw [honly.regs, h]
  · rw [honly.flt, h]
  · rw [honly.flt, h]
  · rw [honly.flt, h]
    simp only [List.contains_cons, List.contains_nil, Bool.or_false]
  · rw [takeOff_buffers hk he', h, List.diff_cons, List.diff_nil]

theorem loseAll_lost {l : List RingPacket} (he : s.flt.entry = []) : Lost r l s (s.loseAll r l) := by
  induction l generalizing s with
  | nil => exact Lost.refl r s
  | cons p l ih =>
    have hone := loseOne_lost (r := r) (p := p) he
    exact hone.cons (ih (hone.entry.trans he))

/-- What is committed to a link that fails: packets of its stop, and the copies of messages named. -/
def State.committed (s : State) (r : Ring) (stop : Nat) (ms : List (Nat × Nat)) (ps : List RingPacket) : List RingPacket :=
  ps.filter (fun p => (s.ring.buffers.get [r.code, stop]).contains p) ++
    (s.flt.flight.filter (fun m => m.1 == r && ms.contains (m.2.die, m.2.seq))).map (fun m => m.2.packet)

theorem ringFail_eq {ms : List (Nat × Nat)} {ps : List RingPacket} (hk : stop < 24) : s.ringFail r stop ms ps =
    ((((s.markLink r stop true).loseAll r (s.committed r stop ms ps)).setLevel stopMgt 2 (24 * r.code + stop) 0
      true).syncFaults) := by
  unfold State.ringFail
  rw [if_neg (Nat.not_le.mpr hk)]
  rfl

section committed

variable {ms : List (Nat × Nat)} {ps : List RingPacket}

/-- With no copy among the packets, the copies committed are those named. -/
theorem committed_contains_packet (hps : ps.all (fun p => p.kind != .fault) = true) {m : Ring × FaultMsg}
    (hm : m ∈ s.flt.flight) :
    (m.1 == r && (s.committed r stop ms ps).contains m.2.packet) = (m.1 == r && ms.contains (m.2.die, m.2.seq)) := by
  rw [Bool.eq_iff_iff, Bool.and_eq_true, Bool.and_eq_true, and_congr_right_iff]
  intro hr
  unfold State.committed
  rw [List.contains_iff_mem, List.mem_append, List.mem_map]
  constructor
  · rintro (h | ⟨m', hm', he⟩)
    · exact absurd rfl (bne_iff_ne.mp (List.all_eq_true.mp hps _ (List.mem_of_mem_filter h)))
    · have hnamed := (Bool.and_eq_true_iff.mp (List.mem_filter.mp hm').2).2
      have hdie : m'.2.die = m.2.die := congrArg RingPacket.src he
      have hseq : m'.2.seq = m.2.seq := congrArg RingPacket.tag he
      rwa [hdie, hseq] at hnamed
  · exact fun h => .inr ⟨m, List.mem_filter.mpr ⟨hm, Bool.and_eq_true_iff.mpr ⟨hr, h⟩⟩, rfl⟩

/-- A packet named that the stop holds once is lost. -/
theorem not_mem_diff_committed (hp : p ∈ ps) (hc : (s.ring.buffers.get [r.code, stop]).count p ≤ 1) :
    p ∉ (s.ring.buffers.get [r.code, stop]).diff (s.committed r stop ms ps) := by
  rw [← List.count_eq_zero, List.count_diff]
  by_cases hin : p ∈ s.ring.buffers.get [r.code, stop]
  · have hmem : p ∈ s.committed r stop ms ps :=
      List.mem_append_left _ (List.mem_filter.mpr ⟨hp, List.contains_iff_mem.mpr hin⟩)
    have := List.count_pos_iff.mpr hmem
    omega
  · rw [List.count_eq_zero.mpr hin, Nat.zero_sub]

/-- A packet that is neither named nor a copy stays. -/
theorem count_diff_committed (hq : q ∉ ps) (hkind : q.kind ≠ .fault) :
    ((s.ring.buffers.get [r.code, stop]).diff (s.committed r stop ms ps)).count q =
      (s.ring.buffers.get [r.code, stop]).count q := by
  have hnot : q ∉ s.committed r stop ms ps := by
    unfold State.committed
    rw [List.mem_append, List.mem_map]
    rintro (h | ⟨m, -, rfl⟩)
    · exact hq (List.mem_of_mem_filter h)
    · exact hkind rfl
  rw [List.count_diff, List.count_eq_zero.mpr hnot, Nat.sub_zero]

end committed

/-- The state of a link's source and what follows from it touch neither the rings nor the copies on them. -/
theorem linkLevel_ring {u : Nat} {c : Bool} : ((s.setLevel stopMgt 2 u 0 c).syncFaults).ring = s.ring :=
  (syncFaults_keeps_part State.ring (fun _ _ _ => rfl) (fun _ _ => rfl)).trans
    (setLevel_mgt_keeps_part State.ring (fun _ _ => rfl) (fun _ _ _ _ => rfl))

theorem linkLevel_flight {u : Nat} {c : Bool} : ((s.setLevel stopMgt 2 u 0 c).syncFaults).flt.flight = s.flt.flight :=
  (syncFaults_keeps_part (fun t => t.flt.flight) (fun _ _ _ => rfl) (fun _ _ => rfl)).trans
    (setLevel_mgt_keeps_part (fun t => t.flt.flight) (fun _ _ => rfl) (fun _ _ _ _ => rfl))

theorem linkLevel_out {u : Nat} {c : Bool} : ((s.setLevel stopMgt 2 u 0 c).syncFaults).out = s.out :=
  (syncFaults_keeps_part State.out (fun _ _ _ => rfl) (fun _ _ => rfl)).trans
    (setLevel_mgt_keeps_part State.out (fun _ _ => rfl) (fun _ _ _ _ => rfl))

theorem syncFaults_active (src : Nat) : s.syncFaults.rd F.FLT_SRC_STAT_ACTIVE src = s.rd F.FLT_SRC_STAT_ACTIVE src :=
  (syncFaults_foot (Sub.refl _) (Foot.refl _ s)).rd _ _ _ (by decide)

theorem linkLevel_linkDown {u : Nat} {c : Bool} (k : Nat) :
    ((s.setLevel stopMgt 2 u 0 c).syncFaults).linkDown r k = s.linkDown r k := by
  refine linkDown_congr ?_ k
  have hset := (setLevel_foot (die := stopMgt) (src := 2) (unit := u) (detail := 0) (c := c) (Sub.refl _) (Foot.refl _ s)).rd
    (ringDown r) 0 0 (by cases r <;> decide)
  rw [← hset]
  exact (syncFaults_foot (Sub.refl _) (Foot.refl _ _)).rd _ _ _ (by cases r <;> decide)

/-! A link that comes back (R51, R378). -/

/-- The link is unmarked, and from the state that follows the held messages are sent. -/
theorem ringRestore_eq (h : s.linkDown r stop = true) : ∃ (u : State) (held : List FaultMsg),
    s.ringRestore r stop = u.each held State.sendFault ∧ u.out = s.out ∧
      ∀ k, u.linkDown r k = (s.markLink r stop false).linkDown r k := by
  unfold State.ringRestore
  rw [if_pos h]
  exact ⟨_, _, rfl, linkLevel_out (s := s.markLink r stop false), linkLevel_linkDown (s := s.markLink r stop false)⟩

theorem launch_out (m : FaultMsg) : (s.launch r m).out = s.out := by
  unfold State.launch
  split
  · rfl
  · obtain ⟨o, h⟩ := ringClaim_shape (s := { s with flt := { s.flt with flight := s.flt.flight ++ [(r, m)] } }) (r := r)
      (k := m.die) (p := m.packet)
    unfold State.ringEnter
    rw [h]

theorem sendFault_out (m : FaultMsg) : (s.sendFault m).out = s.out := by
  unfold State.sendFault
  dsimp only
  split
  · rfl
  · split <;> split <;> simp only [launch_out, mark_out]

theorem sendFault_linkDown (m : FaultMsg) : (s.sendFault m).linkDown r k = s.linkDown r k :=
  linkDown_congr ((sendFault_foot (Sub.refl _) (Foot.refl _ s)).rd _ _ _ (by cases r <;> decide)) k

/-! A host access without an answer (R421). -/

/-- R421: the first lost access is captured, and held until RING_TIMEOUT is cleared. -/
def State.captureLost (s : State) (a : Nat) (write : Bool) : State :=
  if s.flag F.HST_ERR_RING_TIMEOUT then s
  else (s.wr F.HST_ERR_ADDR_WRITE (b2n write)).wr F.HST_ERR_ADDR_OFFSET a

theorem accessLost_eq (a : Nat) (write : Bool) : s.accessLost a write =
    if write then (s.captureLost a write).latch F.HST_ERR_RING_TIMEOUT
    else ((s.captureLost a write).latch F.HST_ERR_RING_TIMEOUT).emit (.completerAbort .host a) := rfl

theorem accessLost_rd (a : Nat) (write : Bool) (g : Fld) :
    (s.accessLost a write).rd g = ((s.captureLost a write).latch F.HST_ERR_RING_TIMEOUT).rd g := by
  rw [accessLost_eq]
  cases write <;> rfl

theorem captureLost_out (a : Nat) (write : Bool) : (s.captureLost a write).out = s.out := by
  unfold State.captureLost
  split <;> rfl

theorem accessLost_out (a : Nat) (write : Bool) :
    (s.accessLost a write).out = if write then s.out else s.out ++ [.completerAbort .host a] := by
  rw [accessLost_eq]
  cases write
  · rw [if_neg Bool.false_ne_true, if_neg Bool.false_ne_true, emit_out, latch_out, captureLost_out]
  · rw [if_pos rfl, if_pos rfl, latch_out, captureLost_out]

theorem captureLost_offset {a : Nat} (ha : a < 2 ^ 28) (write : Bool) : (s.captureLost a write).rd F.HST_ERR_ADDR_OFFSET =
    if s.flag F.HST_ERR_RING_TIMEOUT then s.rd F.HST_ERR_ADDR_OFFSET else a := by
  unfold State.captureLost
  split
  · rfl
  · rw [rd_wr_same]
    exact Nat.mod_eq_of_lt ha

theorem captureLost_write (a : Nat) (write : Bool) : (s.captureLost a write).rd F.HST_ERR_ADDR_WRITE =
    if s.flag F.HST_ERR_RING_TIMEOUT then s.rd F.HST_ERR_ADDR_WRITE else b2n write := by
  unfold State.captureLost
  split
  · rfl
  · rw [rd_wr_other _ _ _ _ _ _ _ _ (by decide), rd_wr_same]
    cases write <;> rfl

/-- Settles O35: the failure by `ringFail_eq` and what it loses (`Lost`), the way back by `ringRestore_eq`, the lost access
by what it captures. -/
theorem ringLinks : Obligations.RingLinks := by
  unfold Obligations.RingLinks
  refine ⟨?fail, ?restore, ?timeout⟩
  case fail =>
    intro s r stop ms ps hp hk he hps
    refine ⟨_, exec_ringLinkFail hp hk, ?_⟩
    have hlost : Lost r (s.committed r stop ms ps) (s.markLink r stop true) _ := loseAll_lost he
    have hdown : ∀ k < 24, (s.ringFail r stop ms ps).linkDown r k = if k = stop then true else s.linkDown r k :=
      fun k hk' => by
        rw [ringFail_eq hk, linkLevel_linkDown, linkDown_congr (rd_congr _ _ _ hlost.regs), markLink_linkDown hk']
    have hbuf : (s.ringFail r stop ms ps).ring.buffers.get [r.code, stop] =
        (s.ring.buffers.get [r.code, stop]).diff (s.committed r stop ms ps) := by
      rw [ringFail_eq hk, linkLevel_ring]
      exact hlost.buffers stop hk
    refine ⟨?_, fun k hk' hne => ?_, fun hcond => ?_, ?_, fun p hmem hcount => ?_, fun q hmem hkind => ?_⟩
    · rw [hdown stop hk, if_pos rfl]
    · rw [hdown k hk', if_neg hne]
    · rw [ringFail_eq hk, syncFaults_active]
      exact setLevel_mgt_active rfl (by rw [hlost.cond]; exact hcond)
    · rw [ringFail_eq hk, linkLevel_flight, hlost.flight]
      exact List.filter_congr (fun m hm => by rw [committed_contains_packet (s := s) hps hm])
    · rw [hbuf, ← Bool.not_eq_true, List.contains_iff_mem]
      exact not_mem_diff_committed hmem hcount
    · rw [hbuf]
      exact count_diff_committed hmem hkind
  case restore =>
    intro s r stop hp hk hdown
    refine ⟨_, exec_ringLinkRestore hp hk, ?_⟩
    obtain ⟨u, held, hu, hout, hlinks⟩ := ringRestore_eq hdown
    have hrestored : ∀ k < 24, (s.ringRestore r stop).linkDown r k = if k = stop then false else s.linkDown r k :=
      fun k hk' => by
        rw [hu, each_keeps u (fun t => t.linkDown r k) (fun _ m _ => sendFault_linkDown m), hlinks, markLink_linkDown hk']
    refine ⟨?_, fun k hk' hne => ?_, ?_⟩
    · rw [hrestored stop hk, if_pos rfl]
    · rw [hrestored k hk', if_neg hne]
    · rw [hu, each_keeps u State.out (fun _ m _ => sendFault_out m), hout]
  case timeout =>
    intro s a write hp ha h4
    refine ⟨_, exec_ringAccessTimeout hp (wfAddr_of ha h4), ?_, ?_, ?_, accessLost_out a write⟩
    · rw [accessLost_rd, rd_latch_same]
      rfl
    · rw [accessLost_rd, rd_latch_other _ _ _ _ _ _ _ (by decide), captureLost_offset ha]
    · rw [accessLost_rd, rd_latch_other _ _ _ _ _ _ _ (by decide), captureLost_write]

end Sys2Proof.Machine
end

section
/-!
SUPPORT. What an operation of the clusters leaves of the compute state: chunks, holds, and the counts of an admission (R68,
R181, R182, R190, R191).
-/

namespace Sys2Proof.Machine

variable {s t u : State} {m : Nat}

/-! Footprints, read for the parts that the clusters are about. -/

theorem Foot.comp (h : Foot m s t) (hb : m.testBit 309 = false) : t.comp = s.comp := h.part .comp hb
theorem Foot.ctx (h : Foot m s t) (hb : m.testBit 308 = false) : t.ctx = s.ctx := h.part .ctx hb

theorem chunk_congr (h : t.comp = s.comp) (x c : Nat) : t.chunk x c = s.chunk x c := by
  unfold State.chunk
  rw [h]

theorem hold_congr (h : t.comp = s.comp) (u : Nat) : t.hold u = s.hold u := by
  unfold State.hold
  rw [h]

theorem Keeps.arith (h : Keeps s t) : t.arith = s.arith := by
  unfold State.arith
  rw [h.now]

/-! A chunk's entry, and a last's hold. -/

section
variable (s : State) (x c k : Nat) (o : Option Chunk)

@[simp] theorem setChunk_chunk : (s.setChunk x c o).chunk x c = o := SMap.get_set_same _ _ _
@[simp] theorem setChunk_rd (f : Fld) (i j : Nat) : (s.setChunk x c o).rd f i j = s.rd f i j := rfl
@[simp] theorem setHold_hold (h : Hold) : (s.setHold k h).hold k = h := SMap.get_set_same _ _ _
@[simp] theorem setHold_rd (h : Hold) (f : Fld) (i j : Nat) : (s.setHold k h).rd f i j = s.rd f i j := rfl

end

/-- From `s` to `t` the compute state changes in its holds alone. -/
def HoldsOnly (s t : State) : Prop := ∃ h, t.comp = { s.comp with holds := h }

theorem HoldsOnly.of_comp (h : t.comp = s.comp) : HoldsOnly s t := ⟨s.comp.holds, by rw [h]⟩

theorem HoldsOnly.trans (h : HoldsOnly s t) (h' : HoldsOnly t u) : HoldsOnly s u := by
  obtain ⟨_, h⟩ := h
  obtain ⟨_, h'⟩ := h'
  exact ⟨_, by rw [h', h]⟩

theorem HoldsOnly.each {α : Type} {l : List α} {g : State → α → State} (h : HoldsOnly s t)
    (hg : ∀ v a, HoldsOnly v (g v a)) : HoldsOnly s (t.each l g) := by
  induction l generalizing t with
  | nil => exact h
  | cons a l ih => exact ih (h.trans (hg t a))

theorem HoldsOnly.chunk (h : HoldsOnly s t) (x c : Nat) : t.chunk x c = s.chunk x c := by
  obtain ⟨_, h⟩ := h
  unfold State.chunk
  rw [h]

theorem HoldsOnly.admitSeq (h : HoldsOnly s t) : t.comp.admitSeq = s.comp.admitSeq := by
  obtain ⟨_, h⟩ := h
  rw [h]

theorem HoldsOnly.spines (h : HoldsOnly s t) : t.comp.spines = s.comp.spines := by
  obtain ⟨_, h⟩ := h
  rw [h]

theorem setHold_holdsOnly (s : State) (k : Nat) (h : Hold) : HoldsOnly s (s.setHold k h) := ⟨_, rfl⟩

/-! A trigger of a last (R190, R191, R196). -/

theorem stopDie_holdsOnly (s : State) (u d : Nat) : HoldsOnly s (s.stopDie u d) := by
  unfold State.stopDie
  dsimp only
  split
  · exact .of_comp rfl
  · exact setHold_holdsOnly ..

theorem stopDie_regs (s : State) (u d : Nat) : (s.stopDie u d).regs = s.regs := by
  unfold State.stopDie
  dsimp only
  split <;> rfl

/-- R191: a die that has not stopped stops, and its report is merged. -/
theorem stopDie_hold {u d : Nat} (hw : s.wltState u = wltFreezing) (hp : s.lastState u ≠ lstPaused)
    (hd : (s.hold u).stopped.contains d = false) : (s.stopDie u d).hold u =
      { s.hold u with stopped := (s.hold u).stopped ++ [d], highs := mergeHighs (s.hold u).highs (s.dieReport u d) } := by
  unfold State.stopDie
  dsimp only
  rw [hw, hd, beq_eq_false_iff_ne.mpr hp]
  exact setHold_hold ..

theorem syncTrigger_holdsOnly (s : State) (u : Nat) : HoldsOnly s (s.syncTrigger u) := by
  unfold State.syncTrigger
  dsimp only
  refine HoldsOnly.each (.of_comp ?_) (fun v d => stopDie_holdsOnly v u d)
  split <;> rfl

/-- Dies that stop leave the registers. -/
theorem each_stopDie_rd (s : State) (l : List Nat) (u : Nat) (f : Fld) (i j : Nat) :
    (s.each l (fun s d => s.stopDie u d)).rd f i j = s.rd f i j :=
  each_keeps s (fun v => v.rd f i j) (fun v d _ => rd_congr f i j (stopDie_regs v u d))

theorem syncTrigger_wltState (s : State) (u : Nat) : (s.syncTrigger u).wltState u = s.wltState u := by
  unfold State.syncTrigger State.wltState
  dsimp only
  rw [each_stopDie_rd]
  split
  · rw [rd_wr_other _ _ _ _ _ _ _ _ (by decide)]
  · rw [rd_wr_other _ _ _ _ _ _ _ _ (by decide), rd_wr_other _ _ _ _ _ _ _ _ (by decide)]

/-- R196: a spine's cause is shown before any other. -/
theorem syncTrigger_cause {u : Nat} (h : ((s.triggers u).map Prod.fst).contains 3 = true) :
    (s.syncTrigger u).rd F.WLT_STATE_CAUSE u = 3 := by
  unfold State.syncTrigger
  dsimp only
  rw [each_stopDie_rd, if_pos h]
  split
  · exact rd_wr_same ..
  · rw [rd_wr_other _ _ _ _ _ _ _ _ (by decide)]
    exact rd_wr_same ..

theorem exactLoss_comp (s : State) (f : Fld) : (s.exactLoss f).comp = s.comp := by
  unfold State.exactLoss
  dsimp only
  split <;> rfl

theorem freeze_holdsOnly (s : State) (u cause : Nat) (die : Option Nat) (l : Nat) :
    HoldsOnly s (s.freeze u cause die l) := by
  unfold State.freeze
  dsimp only
  split
  · exact .of_comp rfl
  · split
    · refine HoldsOnly.trans (HoldsOnly.trans ?_ (setHold_holdsOnly ..)) (syncTrigger_holdsOnly ..)
      exact .of_comp (exactLoss_comp ..)
    · split
      · exact syncTrigger_holdsOnly (s.mark (.trigger u cause (die.getD 4) l)) u
      · exact .of_comp rfl

/-- A mark made in this root cycle. -/
def State.notes (s : State) (k : Mark) : Prop := (s.now, k) ∈ s.marks

theorem notes_mark_same (s : State) (k : Mark) : (s.mark k).notes k := List.mem_cons_self

theorem State.notes.mark {k : Mark} (h : s.notes k) (n : Mark) : (s.mark n).notes k :=
  List.mem_cons_of_mem _ (List.mem_filter.mpr ⟨h, by simp⟩)

theorem State.notes.noteWas {k : Mark} (h : s.notes k) (f : Fld) (i j : Nat) : (s.noteWas f i j).notes k := h.mark _
theorem State.notes.wr {k : Mark} (h : s.notes k) (f : Fld) (v i j : Nat) : (s.wr f v i j).notes k := h
theorem State.notes.incWrap {k : Mark} (h : s.notes k) (f : Fld) (n i j : Nat) : (s.incWrap f n i j).notes k := h
theorem State.notes.setHold {k : Mark} (h : s.notes k) (v : Nat) (o : Hold) : (s.setHold v o).notes k := h

theorem State.notes.exactLoss {k : Mark} (h : s.notes k) (f : Fld) : (s.exactLoss f).notes k := by
  unfold State.exactLoss State.latch
  dsimp only
  split <;> exact State.notes.mark h _

theorem State.notes.triggers {v cause d l : Nat} (h : s.notes (.trigger v cause d l)) : (cause, d, l) ∈ s.triggers v :=
  List.mem_filterMap.mpr ⟨_, List.mem_filter.mpr ⟨h, by simp [State.arith]⟩, if_pos rfl⟩

/-- R190: a GRANTED last that meets a trigger goes to FREEZING, where the cycle's triggers are shown. -/
theorem freeze_granted {v cause l : Nat} {die : Option Nat} (hw : s.wltState v = wltGranted)
    (hp : s.lastState v ≠ lstPaused) : ∃ w : State, s.freeze v cause die l = w.syncTrigger v ∧
      w.wltState v = wltFreezing ∧ w.notes (.trigger v cause (die.getD 4) l) := by
  unfold State.freeze
  dsimp only
  rw [if_neg (by simpa using hp), if_pos (by simpa [State.wltState] using hw)]
  refine ⟨_, rfl, ?_, ?_⟩
  · unfold State.wltState
    rw [setHold_rd, (exactLoss_foot (Sub.refl _) (by decide) (Foot.refl _ _)).rd _ _ _ (by decide),
      rd_incWrap_other _ _ _ _ _ _ _ _ (by decide), rd_wr_same]
    rfl
  · refine (State.notes.exactLoss (.incWrap (.wr (.mark ?_ _) ..) ..) _).setHold ..
    exact (((notes_mark_same ..).noteWas ..).noteWas ..).noteWas ..

theorem freeze_wltState {v cause l : Nat} {die : Option Nat} (hw : s.wltState v = wltGranted)
    (hp : s.lastState v ≠ lstPaused) : (s.freeze v cause die l).wltState v = wltFreezing := by
  obtain ⟨w, h, hs, -⟩ := freeze_granted (cause := cause) (l := l) (die := die) hw hp
  rw [h, syncTrigger_wltState, hs]

/-- R196: the hold of a spine is the cause that shows. -/
theorem freeze_cause {v l : Nat} {die : Option Nat} (hw : s.wltState v = wltGranted) (hp : s.lastState v ≠ lstPaused) :
    (s.freeze v 3 die l).rd F.WLT_STATE_CAUSE v = 3 := by
  obtain ⟨w, h, -, hn⟩ := freeze_granted (cause := 3) (l := l) (die := die) hw hp
  rw [h]
  exact syncTrigger_cause (List.contains_iff_mem.mpr (List.mem_map_of_mem hn.triggers))

/-! Admission (R181, R182, R187). -/

/-- The entry of a chunk that is admitted to a place of cluster k. -/
def State.entered (s : State) (x k : Nat) (ch : Chunk) (p : Place) : Chunk :=
  { ch with
    place := some p, cluster := k, grans := lowestFree (s.gransUsed k p) (s.rd F.WLT_CTX_NEED x), admitAt := s.arith
    admitSeq := s.comp.admitSeq, attempt := ch.attempt + 1, ahead := false }

theorem enterChunk_comp (s : State) (x c k : Nat) (ch : Chunk) (p : Place) : (s.enterChunk x c k ch p).comp =
    { s.comp with admitSeq := s.comp.admitSeq + 1, chunks := s.comp.chunks.set [x, c] (some (s.entered x k ch p)) } := by
  unfold State.enterChunk
  dsimp only
  rw [(syncChunk_foot (Sub.refl _) (Foot.refl _ _)).comp (by decide)]
  rfl

/-- The counter of the admissions to a place. -/
def Place.admits (p : Place) : Fld := if p = .spill then F.WLT_ADMITS_SPILL else F.WLT_ADMITS_WELT

theorem admits_reg (p : Place) : p.admits.reg = .WLT_ADMITS := by cases p <;> rfl

theorem enterChunk_admits (s : State) (x c k : Nat) (ch : Chunk) (p : Place) :
    (s.enterChunk x c k ch p).rd p.admits ch.last = min (s.rd p.admits ch.last + 1) (2 ^ p.admits.width - 1) := by
  unfold State.enterChunk
  dsimp only
  rw [(syncChunk_foot (Sub.refl _) (Foot.refl _ _)).rd _ _ _ (by rw [admits_reg]; decide)]
  exact rd_inc_same ..

section
variable {x c k v : Nat} {ch : Chunk} {p : Place}

/-- The waiting chunks of last v that cluster k can decide, and is not holding back. -/
def State.decidable (s : State) (k v : Nat) : List (Nat × Nat × Chunk) :=
  (s.allChunks.filter (fun e => e.2.2.last == v && e.2.2.place.isNone && s.ownerCluster e.1 e.2.1 == some k &&
    decide (e.2.2.earliest ≤ s.arith))).filter (fun e => s.admitDecision e.1 e.2.1 k e.2.2 != .heldBack)

theorem firstBy_mem {α : Type} {before : α → α → Bool} {l : List α} {a : α} (h : firstBy before l = some a) : a ∈ l := by
  induction l generalizing a with
  | nil => cases h
  | cons b l ih =>
    unfold firstBy at h
    split at h
    · cases h
      exact List.mem_cons_self
    · next hb =>
      split at h <;> cases h
      · exact List.mem_cons_of_mem _ (ih hb)
      · exact List.mem_cons_self

theorem decidable_last (h : firstBy chunkBefore (s.decidable k v) = some (x, c, ch)) : ch.last = v := by
  have hmem := (List.mem_filter.mp (List.mem_of_mem_filter (firstBy_mem h))).2
  simp only [Bool.and_eq_true, beq_iff_eq] at hmem
  exact hmem.1.1.1

/-- R190, R250: what an admission to spill is besides: the end of cycle-exactness, and perhaps a trigger. -/
def State.noteSpill (s : State) (k v l : Nat) : State :=
  let s := (s.noteWas F.SCH_EXACT_LOSS_SPILL).exactLoss F.SCH_EXACT_LOSS_SPILL
  if s.rd F.WLT_GRANT_CFG_HOLD_AT v * s.rd F.WLT_SPILL_LIMIT_GRANULES v ≤
      16 * s.rd F.WLT_SPILL_USED_GRANULES v (clDie k) then
    s.freeze v 1 (some (clDie k)) l
  else s

theorem noteSpill_holdsOnly (s : State) (k v l : Nat) : HoldsOnly s (s.noteSpill k v l) := by
  have hloss : HoldsOnly s ((s.noteWas F.SCH_EXACT_LOSS_SPILL).exactLoss F.SCH_EXACT_LOSS_SPILL) :=
    .of_comp ((exactLoss_comp ..).trans rfl)
  unfold State.noteSpill
  dsimp only
  split
  · exact hloss.trans (freeze_holdsOnly ..)
  · exact hloss

theorem noteSpill_admits (s : State) (k v l : Nat) : (s.noteSpill k v l).rd p.admits v = s.rd p.admits v := by
  have hloss : Foot _ s ((s.noteWas F.SCH_EXACT_LOSS_SPILL).exactLoss F.SCH_EXACT_LOSS_SPILL) :=
    exactLoss_foot (Sub.refl _) (by decide) (noteWas_foot (Foot.refl _ s))
  have hrd := hloss.rd p.admits v 0 (by rw [admits_reg]; decide)
  unfold State.noteSpill
  dsimp only
  split
  · rw [(freeze_foot (Sub.refl _) (Foot.refl _ _)).rd _ _ _ (by rw [admits_reg]; decide), hrd]
  · exact hrd

/-- R182: a chunk that finds its place is admitted there. -/
theorem admissionDecide_enter (hf : firstBy chunkBefore (s.decidable k v) = some (x, c, ch))
    (hm : s.marked (.request k v) 4 = false) (hd : s.admitDecision x c k ch = .enter p) :
    ∃ (n : Mark) (l : Nat), s.admissionDecide k v =
      if p = .spill then (((s.mark (.request k v)).mark n).enterChunk x c k ch p).noteSpill k v l
      else ((s.mark (.request k v)).mark n).enterChunk x c k ch p := by
  unfold State.admissionDecide
  dsimp only
  split
  · next h => cases h.symm.trans hf
  next h =>
  cases h.symm.trans hf
  rw [hm, if_neg Bool.false_ne_true, hd]
  refine ⟨.admitted x c (s.comp.owners.getD (bucket x c) 0) (p == .spill) ch.ahead ((s.op x).admitHigh.get [clDie k]),
    s.comp.owners.getD (bucket x c) 0, ?_⟩
  unfold State.noteSpill
  rfl

/-- R182: a chunk without space waits, and is counted when it begins to. -/
def State.noteWait (s : State) (x c v : Nat) (ch : Chunk) : State :=
  if ch.waited then s else (s.setChunk x c (some { ch with waited := true })).inc F.WLT_WAITS_COUNT 1 v

theorem noteWait_chunk (h : s.chunk x c = some ch) : (s.noteWait x c v ch).chunk x c = some { ch with waited := true } := by
  unfold State.noteWait
  split
  · next hw => rw [h, ← hw]
  · exact setChunk_chunk ..

theorem noteWait_counts (hw : ch.waited = false) : (s.noteWait x c v ch).rd F.WLT_WAITS_COUNT v =
    min (s.rd F.WLT_WAITS_COUNT v + 1) (2 ^ F.WLT_WAITS_COUNT.width - 1) := by
  unfold State.noteWait
  rw [hw, if_neg Bool.false_ne_true, rd_inc_same, setChunk_rd]

theorem noteWait_rd_other {f : Fld} {i j : Nat} (hf : f.key 0 0 ≠ F.WLT_WAITS_COUNT.key 0 0) :
    (s.noteWait x c v ch).rd f i j = s.rd f i j := by
  unfold State.noteWait
  split
  · rfl
  · rw [rd_inc_other _ _ _ _ _ _ _ _ hf, setChunk_rd]

/-- R182, R190: a chunk that finds no space waits, and is a trigger of its last. -/
theorem admissionDecide_noSpace (hf : firstBy chunkBefore (s.decidable k v) = some (x, c, ch))
    (hm : s.marked (.request k v) 4 = false) (hd : s.admitDecision x c k ch = .noSpace) :
    ∃ (n : Mark) (l : Nat), s.admissionDecide k v = (((((s.mark (.request k v)).mark n).noteWas
      F.SCH_EXACT_LOSS_SPILL).noteWait x c v ch).exactLoss F.SCH_EXACT_LOSS_SPILL).freeze v 2 (some (clDie k)) l := by
  unfold State.admissionDecide
  dsimp only
  split
  · next h => cases h.symm.trans hf
  next h =>
  cases h.symm.trans hf
  rw [hm, if_neg Bool.false_ne_true, hd]
  exact ⟨_, _, rfl⟩

end

/-! HELD (R191). -/

/-- The limits of a hold: each context reported is listed, with its limit. -/
def State.setLimits (s : State) (l : List (Nat × Nat)) : State :=
  s.each l (fun s e => (s.wr F.WLT_CTX_LIMIT e.2 e.1).wr F.WLT_CTX_LISTED 1 e.1)

section
variable {x n v : Nat} {l : List (Nat × Nat)}

/-- A context that has its limit keeps it while the others reports of it are the same. -/
theorem setLimits_keeps (h : ∀ e ∈ l, e.1 = x → e.2 = n) (hl : s.rd F.WLT_CTX_LIMIT x = n % 2 ^ 32)
    (hf : s.rd F.WLT_CTX_LISTED x = 1) :
    (s.setLimits l).rd F.WLT_CTX_LIMIT x = n % 2 ^ 32 ∧ (s.setLimits l).rd F.WLT_CTX_LISTED x = 1 := by
  induction l generalizing s with
  | nil => exact ⟨hl, hf⟩
  | cons e l ih =>
    refine ih (fun e' he' => h e' (List.mem_cons_of_mem _ he')) ?_ ?_
    · rw [rd_wr_other _ _ _ _ _ _ _ _ (by decide), rd_wr_instance]
      split
      · next he => rw [h e List.mem_cons_self he.1.symm]; rfl
      · exact hl
    · rw [rd_wr_instance]
      split
      · rfl
      · rw [rd_wr_other _ _ _ _ _ _ _ _ (by decide)]; exact hf

/-- R191: a context reported is listed with the limit reported. -/
theorem setLimits_mem (h : ∀ e ∈ l, e.1 = x → e.2 = n) (hm : (x, n) ∈ l) :
    (s.setLimits l).rd F.WLT_CTX_LIMIT x = n % 2 ^ 32 ∧ (s.setLimits l).rd F.WLT_CTX_LISTED x = 1 := by
  induction l generalizing s with
  | nil => cases hm
  | cons e l ih =>
    have hrest : ∀ e' ∈ l, e'.1 = x → e'.2 = n := fun e' he' => h e' (List.mem_cons_of_mem _ he')
    rcases List.mem_cons.mp hm with rfl | hm
    · refine setLimits_keeps (s := (s.wr F.WLT_CTX_LIMIT n x).wr F.WLT_CTX_LISTED 1 x) hrest ?_ ?_
      · rw [rd_wr_other _ _ _ _ _ _ _ _ (by decide), rd_wr_same]; rfl
      · rw [rd_wr_same]; rfl
    · exact ih hrest hm

/-- R191: with every die stopped, the limits are set and the last is HELD. -/
theorem enterHold_eq (hw : s.wltState v = wltFreezing) (hp : s.lastState v ≠ lstPaused)
    (hd : ∀ d < 4, (s.hold v).stopped.contains d = true) :
    s.enterHold v = ((s.setLimits (s.hold v).highs).wr F.WLT_STATE_STATE wltHeld v).sendGrants v 1 (s.hold v).highs := by
  have hall : [0, 1, 2, 3].all (s.hold v).stopped.contains = true := by
    simp only [List.all_cons, List.all_nil, hd 0 (by omega), hd 1 (by omega), hd 2 (by omega), hd 3 (by omega), Bool.and_self]
  unfold State.enterHold
  dsimp only
  rw [hw, beq_eq_false_iff_ne.mpr hp, hall]
  rfl

end

end Sys2Proof.Machine
end

section
/-!
SUPPORT. A spine's HOLD and OPEN at a leaf: what the partials held back, and let go, leave of the rest (R193, R196).
-/

namespace Sys2Proof.Machine

variable {s t u : State}

/-! Pointers on their way to a queue leave the control frames that wait. -/

theorem enqueueNow_grantsIn (s : State) (b v : Nat) (e : QEntry) (r : Nat) :
    (s.enqueueNow b v e r).sched.grantsIn = s.sched.grantsIn := by
  unfold State.enqueueNow
  split <;> rfl

theorem enqueue_grantsIn (s : State) (b v : Nat) (e : QEntry) (r : Nat) :
    (s.enqueue b v e r).sched.grantsIn = s.sched.grantsIn := by
  unfold State.enqueue
  split
  · rfl
  · exact enqueueNow_grantsIn ..

theorem multicast_grantsIn (s : State) (p a r : Nat) (ts : List Target) :
    (s.multicast p a r ts).sched.grantsIn = s.sched.grantsIn := by
  have hsend : ∀ v : State, (if ts.isEmpty && (v.tag (ptrCell p)).refcnt == 0 then v.freeObj p a r
      else v.each ts (fun v t => v.enqueue t.group t.last { ptr := p, account := a, header := t.header, visible := v.store }
        r)).sched.grantsIn = v.sched.grantsIn := fun v => by
    split
    · rw [(freeObj_foot (Sub.refl _) (Foot.refl _ _)).part .sched (by decide)]
    · exact each_keeps _ (fun v => v.sched.grantsIn) (fun v e _ => enqueue_grantsIn ..)
  unfold State.multicast
  dsimp only
  split <;> exact (hsend _).trans rfl

/-- From `s` to `t` the compute state changes in the partials that wait alone, and the control frames that wait stay. -/
structure PartsOnly (s t : State) : Prop where
  comp : ∃ p, t.comp = { s.comp with parts := p }
  grantsIn : t.sched.grantsIn = s.sched.grantsIn

theorem PartsOnly.of_comp (h : t.comp = s.comp) (hg : t.sched.grantsIn = s.sched.grantsIn) : PartsOnly s t :=
  ⟨⟨s.comp.parts, by rw [h]⟩, hg⟩

theorem PartsOnly.refl (s : State) : PartsOnly s s := .of_comp rfl rfl

theorem PartsOnly.trans (h : PartsOnly s t) (h' : PartsOnly t u) : PartsOnly s u := by
  obtain ⟨⟨_, h⟩, hg⟩ := h
  obtain ⟨⟨_, h'⟩, hg'⟩ := h'
  exact ⟨⟨_, by rw [h', h]⟩, hg'.trans hg⟩

theorem PartsOnly.each {α : Type} {l : List α} {g : State → α → State} (h : PartsOnly s t)
    (hg : ∀ v a, PartsOnly v (g v a)) : PartsOnly s (t.each l g) := by
  induction l generalizing t with
  | nil => exact h
  | cons a l ih => exact ih (h.trans (hg t a))

theorem PartsOnly.spines (h : PartsOnly s t) : t.comp.spines = s.comp.spines := by
  obtain ⟨⟨_, h⟩, -⟩ := h
  rw [h]

theorem PartsOnly.hold (h : PartsOnly s t) (v : Nat) : t.hold v = s.hold v := by
  obtain ⟨⟨_, h⟩, -⟩ := h
  unfold State.hold
  rw [h]

theorem PartsOnly.chunk (h : PartsOnly s t) (x c : Nat) : t.chunk x c = s.chunk x c := by
  obtain ⟨⟨_, h⟩, -⟩ := h
  unfold State.chunk
  rw [h]

theorem multicast_partsOnly (s : State) (p a r : Nat) (ts : List Target) : PartsOnly s (s.multicast p a r ts) :=
  .of_comp ((multicast_foot (Sub.refl _) (Foot.refl _ s)).comp (by decide)) (multicast_grantsIn ..)

theorem sendPartial_partsOnly (s : State) (x : Nat) : PartsOnly s (s.sendPartial x) := by
  unfold State.sendPartial
  split
  · exact .refl s
  · dsimp only
    split
    · exact .refl s
    · exact PartsOnly.each ⟨⟨_, rfl⟩, rfl⟩ (fun v h => multicast_partsOnly ..)

theorem sendPartials_partsOnly (s : State) (x : Nat) : PartsOnly s (s.sendPartials x) :=
  PartsOnly.each (.refl s) (fun v _ => sendPartial_partsOnly v x)

theorem withdrawPartials_partsOnly (s : State) (v j : Nat) : PartsOnly s (s.withdrawPartials v j) := ⟨⟨_, rfl⟩, rfl⟩

theorem withdrawOpp_partsOnly (s : State) (v j : Nat) : PartsOnly s (s.withdrawOpp v j) :=
  PartsOnly.each (PartsOnly.each (.refl s) (fun _ _ => ⟨⟨_, rfl⟩, rfl⟩)) (fun _ _ => ⟨⟨_, rfl⟩, rfl⟩)

theorem releasePartials_partsOnly (s : State) (v j : Nat) : PartsOnly s (s.releasePartials v j) := by
  unfold State.releasePartials
  dsimp only
  refine PartsOnly.each (PartsOnly.each ⟨⟨_, rfl⟩, rfl⟩ (fun v h => ?_)) (fun v x => sendPartials_partsOnly v x)
  split <;> exact ⟨⟨_, rfl⟩, rfl⟩

/-! The frame of a spine (R193, R196). -/

/-- The control frame at the head is taken, and its buffer given up. -/
def State.takeGrant (s : State) (port ptr : Nat) (rest : List (Nat × List Byte × Nat)) : State :=
  ({ s with sched := { s.sched with grantsIn := rest } }).dropObj ptr 16 (reqPort (dieOfPort port))

/-- What a leaf knows of a spine's hold changes. -/
def State.setSpine (s : State) (v j : Nat) (h : SpineHold) : State :=
  { s with comp := { s.comp with spines := s.comp.spines.set [v, j] h } }

/-- The spines that hold a last back are those of `f`. -/
def State.setHolders (s : State) (v : Nat) (f : List Nat → List Nat) : State :=
  s.setHold v { s.hold v with spines := f (s.hold v).spines }

@[simp] theorem setSpine_spine (s : State) (v j : Nat) (h : SpineHold) : (s.setSpine v j h).comp.spines.get [v, j] = h :=
  SMap.get_set_same _ _ _
@[simp] theorem setHolders_holders (s : State) (v : Nat) (f : List Nat → List Nat) :
    ((s.setHolders v f).hold v).spines = f (s.hold v).spines := congrArg Hold.spines (setHold_hold ..)

section
variable {port ptr v j : Nat} {l : List Byte} {rest : List (Nat × List Byte × Nat)}

theorem takeGrant_foot (s : State) (port ptr : Nat) (rest : List (Nat × List Byte × Nat)) :
    Foot 0x6600000000000000000000000000000000007a600000000000000000000000000000000000000 s (s.takeGrant port ptr rest) :=
  dropObj_foot ((Sub.refl _).sub (by decide)) (foot_mk.mpr (parts_sched (by decide) (Foot.refl _ s).parts))

theorem takeGrant_grantsIn (s : State) (port ptr : Nat) (rest : List (Nat × List Byte × Nat)) :
    (s.takeGrant port ptr rest).sched.grantsIn = rest :=
  congrArg SchedState.grantsIn ((dropObj_foot (Sub.refl _) (Foot.refl _ _)).part .sched (by decide))

/-- R196: a HOLD frame is taken up: the spine's partials are held back, and those in a queue taken back. -/
def State.holdFrame (s : State) (v j : Nat) (l : List Byte) : State :=
  let h := s.comp.spines.get [v, j]
  let limits := if h.held ∧ h.epoch = field l 4 4 then h.limits ++ grantEntries l else grantEntries l
  let s := (s.setSpine v j { epoch := field l 4 4, held := true, limits }).freeze v 3 none 400
  let s := s.setHolders v (fun q => if q.contains j then q else q ++ [j])
  ((s.withdrawPartials v j).withdrawOpp v j).releasePartials v j

/-- R196: an OPEN frame is taken up: what the spine held back goes on. -/
def State.openFrame (s : State) (v j : Nat) (l : List Byte) : State :=
  ((s.setSpine v j { epoch := field l 4 4, held := false, limits := [] }).setHolders v (·.filter (· != j))).releasePartials v j

/-- R193, R196: a control frame, once it is taken, is dropped or taken up. -/
def State.spineFrame (s : State) (port : Nat) (l : List Byte) : State :=
  let v := field l 1 1 % 16
  let j := port / 4 % max 1 s.spineCount
  if !s.accepted || !s.flag F.LST_CFG_VALID v || s.level v != levelSegment || port % 4 != 3 ||
      decide (field l 4 4 < (s.comp.spines.get [v, j]).epoch) then s
  else if field l 0 1 = 1 then s.holdFrame v j l
  else if field l 0 1 = 2 then s.openFrame v j l
  else s

theorem spineHold_eq (h : s.sched.grantsIn = (port, l, ptr) :: rest) :
    s.spineHold = (s.takeGrant port ptr rest).spineFrame port l := by
  unfold State.spineHold
  rw [h]
  rfl

/-- A spine's frame at the head, for a last of this leaf, from a port that joins the spine. -/
structure FromSpine (s : State) (v j port : Nat) (l : List Byte) (ptr : Nat) (rest : List (Nat × List Byte × Nat)) :
    Prop where
  head : s.sched.grantsIn = (port, l, ptr) :: rest
  last : v = field l 1 1 % 16
  spine : j = port / 4 % max 1 s.spineCount
  accepted : s.accepted = true
  valid : s.flag F.LST_CFG_VALID v = true
  level : s.level v = levelSegment
  joins : port % 4 = 3

/-- What a spine's frame does goes by its age and its mode. -/
theorem FromSpine.spineHold (h : FromSpine s v j port l ptr rest) : s.spineHold =
    if field l 4 4 < (s.comp.spines.get [v, j]).epoch then s.takeGrant port ptr rest
    else if field l 0 1 = 1 then (s.takeGrant port ptr rest).holdFrame v j l
    else if field l 0 1 = 2 then (s.takeGrant port ptr rest).openFrame v j l
    else s.takeGrant port ptr rest := by
  have hfoot := takeGrant_foot s port ptr rest
  have hcount : (s.takeGrant port ptr rest).spineCount = s.spineCount := hfoot.rd _ _ _ (by decide)
  have hacc : (s.takeGrant port ptr rest).accepted = true := by
    rw [← h.accepted]
    exact congrArg (· == planAccepted) (hfoot.rd _ _ _ (by decide))
  have hvalid : (s.takeGrant port ptr rest).flag F.LST_CFG_VALID v = true := by
    rw [← h.valid, flag_eq, flag_eq, hfoot.rd _ _ _ (by decide)]
  have hlevel : (s.takeGrant port ptr rest).level v = levelSegment := by
    rw [← h.level]
    exact hfoot.rd _ _ _ (by decide)
  have hcomp := hfoot.comp (by decide)
  obtain ⟨hhead, rfl, rfl, -, -, -, hjoins⟩ := h
  rw [spineHold_eq hhead]
  unfold State.spineFrame
  dsimp only
  rw [hacc, hvalid, hlevel, hcount, hcomp, hjoins]
  simp only [Bool.not_true, bne_self_eq_false, Bool.or_self, Bool.false_or, decide_eq_true_eq]

/-- R196: what a HOLD leaves: the spine holds, its epoch is known, and no control frame is lost. -/
theorem holdFrame_holds (s : State) (v j : Nat) (l : List Byte) :
    ((s.holdFrame v j l).comp.spines.get [v, j]).held = true ∧
    ((s.holdFrame v j l).comp.spines.get [v, j]).epoch = field l 4 4 ∧
    ((s.holdFrame v j l).hold v).spines.contains j = true ∧ (s.holdFrame v j l).sched.grantsIn = s.sched.grantsIn := by
  unfold State.holdFrame
  dsimp only
  generalize (if (s.comp.spines.get [v, j]).held ∧ (s.comp.spines.get [v, j]).epoch = field l 4 4 then
    (s.comp.spines.get [v, j]).limits ++ grantEntries l else grantEntries l) = limits
  have hfreeze := freeze_holdsOnly (s.setSpine v j { epoch := field l 4 4, held := true, limits }) v 3 none 400
  have hsched : ((s.setSpine v j { epoch := field l 4 4, held := true, limits }).freeze v 3 none 400).sched = s.sched :=
    (freeze_foot (Sub.refl _) (Foot.refl _ _)).part .sched (by decide)
  generalize (s.setSpine v j { epoch := field l 4 4, held := true, limits }).freeze v 3 none 400 = w at hfreeze hsched ⊢
  have hparts : PartsOnly (w.setHolders v (fun q => if q.contains j then q else q ++ [j])) _ :=
    ((withdrawPartials_partsOnly _ v j).trans (withdrawOpp_partsOnly _ v j)).trans (releasePartials_partsOnly _ v j)
  have hspine : (w.comp.spines.get [v, j]) = { epoch := field l 4 4, held := true, limits } := by
    rw [hfreeze.spines, setSpine_spine]
  refine ⟨?_, ?_, ?_, ?_⟩
  · rw [hparts.spines]
    exact congrArg SpineHold.held hspine
  · rw [hparts.spines]
    exact congrArg SpineHold.epoch hspine
  · rw [hparts.hold, setHolders_holders]
    split
    · assumption
    · simp
  · rw [hparts.grantsIn]
    exact congrArg SchedState.grantsIn hsched

/-- R190, R196: a HOLD takes a GRANTED last to FREEZING, with a spine as the cause. -/
theorem holdFrame_freezes (hw : s.wltState v = wltGranted) (hp : s.lastState v ≠ lstPaused) :
    (s.holdFrame v j l).wltState v = wltFreezing ∧ (s.holdFrame v j l).rd F.WLT_STATE_CAUSE v = 3 := by
  have hrest : ∀ (w : State) (f : Fld), f.reg = .WLT_STATE → (((w.withdrawPartials v j).withdrawOpp v j).releasePartials v j).rd
      f v = w.rd f v := fun w f hf =>
    (releasePartials_foot (Sub.refl _) (withdrawOpp_foot ((Sub.refl _).sub (by decide))
      (withdrawPartials_foot ((Sub.refl _).sub (by decide)) (Foot.refl _ w)))).rd _ _ _ (by rw [hf]; decide)
  unfold State.holdFrame State.wltState
  dsimp only
  rw [hrest _ _ rfl, hrest _ _ rfl]
  exact ⟨freeze_wltState hw hp, freeze_cause hw hp⟩

/-- R196: what an OPEN leaves. -/
theorem openFrame_opens (s : State) (v j : Nat) (l : List Byte) :
    (s.openFrame v j l).comp.spines.get [v, j] = { epoch := field l 4 4, held := false, limits := [] } ∧
    ((s.openFrame v j l).hold v).spines.contains j = false ∧ (s.openFrame v j l).sched.grantsIn = s.sched.grantsIn := by
  have hparts := releasePartials_partsOnly ((s.setSpine v j { epoch := field l 4 4, held := false, limits := [] }).setHolders v
    (·.filter (· != j))) v j
  unfold State.openFrame
  refine ⟨?_, ?_, ?_⟩
  · rw [hparts.spines]
    exact setSpine_spine ..
  · rw [hparts.hold, setHolders_holders]
    simp
  · exact hparts.grantsIn

end

end Sys2Proof.Machine
end

section
/-!
SUPPORT. Operands and nodes of a chunk: what is requested, what arrives, what issues (R71, R72, R74, R188).
-/

namespace Sys2Proof.Machine

variable {s t u : State} {x c : Nat} {ch : Chunk}

/-! Requests of a chunk add to what it has asked for (R72, R188). -/

/-- `d` is the chunk `ch` with more requested. -/
def Chunk.AsksMore (ch d : Chunk) : Prop :=
  ∃ a b r, d = { ch with requested := ch.requested ++ a, fetching := ch.fetching ++ b, room := ch.room ++ r }

theorem Chunk.AsksMore.refl (ch : Chunk) : ch.AsksMore ch := ⟨[], [], [], by simp⟩

theorem Chunk.AsksMore.trans {d e : Chunk} (h : ch.AsksMore d) (h' : d.AsksMore e) : ch.AsksMore e := by
  obtain ⟨a, b, r, rfl⟩ := h
  obtain ⟨a', b', r', rfl⟩ := h'
  exact ⟨a ++ a', b ++ b', r ++ r', by simp⟩

/-- From `s` to `t` chunk c of context x asks for more, and only the compute state changes. -/
structure Asking (x c : Nat) (s t : State) : Prop where
  compOnly : ∃ q, t = { s with comp := q }
  chunk : ∀ ch, s.chunk x c = some ch → ∃ d, t.chunk x c = some d ∧ ch.AsksMore d

theorem Asking.refl (x c : Nat) (s : State) : Asking x c s s := ⟨⟨s.comp, rfl⟩, fun ch h => ⟨ch, h, .refl ch⟩⟩

theorem Asking.trans (h : Asking x c s t) (h' : Asking x c t u) : Asking x c s u := by
  refine ⟨?_, fun ch hc => ?_⟩
  · obtain ⟨_, rfl⟩ := h.compOnly
    obtain ⟨_, rfl⟩ := h'.compOnly
    exact ⟨_, rfl⟩
  · obtain ⟨d, hd, hm⟩ := h.chunk ch hc
    obtain ⟨e, he, hm'⟩ := h'.chunk d hd
    exact ⟨e, he, hm.trans hm'⟩

theorem Asking.each {α : Type} {l : List α} {g : State → α → State} (h : Asking x c s t)
    (hg : ∀ v a, Asking x c v (g v a)) : Asking x c s (t.each l g) := by
  induction l generalizing t with
  | nil => exact h
  | cons a l ih => exact ih (h.trans (hg t a))

theorem askSpill_asking (s : State) (d : Nat) (j : SpillJob) : Asking x c s (s.askSpill d j) :=
  ⟨⟨_, rfl⟩, fun ch h => ⟨ch, h, .refl ch⟩⟩

theorem setChunk_asking {d : Chunk} (h : s.chunk x c = some ch) (hm : ch.AsksMore d) :
    Asking x c s (s.setChunk x c (some d)) := by
  refine ⟨⟨_, rfl⟩, fun e he => ?_⟩
  cases h.symm.trans he
  exact ⟨d, setChunk_chunk .., hm⟩

theorem requestOne_asking (s : State) (r : Nat) : Asking x c s (s.requestOne x c r) := by
  unfold State.requestOne
  split
  · exact .refl ..
  · next ch h =>
    split
    · exact .refl ..
    · exact setChunk_asking h ⟨[(r, s.arith)], [], [], by simp⟩

/-- The entry of a chunk of which node q is requested as a whole. -/
def State.asked (s : State) (q : Nat) (ch : Chunk) (l : NodeLack) : Chunk :=
  { ch with
    requested := ch.requested ++ l.operands.map (fun r => (r, s.arith))
    fetching := ch.fetching ++ l.partials.map (fun p => (p, s.arith))
    room := ch.room ++ (if l.room then [q] else []) }

/-- A whole node's requests: its entry first, then those of its spill engine. -/
theorem requestAll_from_asked (s : State) (q : Nat) (ch : Chunk) (l : NodeLack) :
    Asking x c (s.setChunk x c (some (s.asked q ch l))) (s.requestAll x c q ch l) :=
  Asking.each (.refl ..) (fun _ _ => askSpill_asking ..)

theorem requestAll_asking {q : Nat} {l : NodeLack} (h : s.chunk x c = some ch) : Asking x c s (s.requestAll x c q ch l) :=
  (setChunk_asking h ⟨_, _, _, rfl⟩).trans (requestAll_from_asked ..)

theorem requestNode_asking (s : State) (second : Bool) : Asking x c s (s.requestNode x c second) := by
  unfold State.requestNode
  split
  · exact .refl ..
  next h =>
  dsimp only
  split
  · exact .refl ..
  split
  · split
    · exact .refl ..
    · exact requestAll_asking h
  · exact Asking.each (.refl ..) (fun _ _ => requestOne_asking ..)

theorem fetchRequest_asking (s : State) : Asking x c s (s.fetchRequest x c) := by
  unfold State.fetchRequest
  split
  · exact .refl ..
  · split
    · exact .refl ..
    · exact (requestNode_asking ..).trans (requestNode_asking ..)

/-- R72, R188: bytes of the operand buffer that a chunk's next node still needs. -/
def State.lackBytes (s : State) (x c : Nat) (l : NodeLack) : Nat :=
  l.operands.foldl (fun b r => b + s.operandBytes x c r) 0 + s.slotSize x * (l.partials.length + b2n l.room)

/-- R72: a next node whose operands are present, and for which there is room, is requested as a whole. -/
theorem requestNode_whole {n : Src × Option Src} {l : NodeLack} (hc : s.chunk x c = some ch)
    (hn : (s.nodesOf x)[ch.issued]? = some n) (hl : s.nodeLack x c ch.issued ch n = l) (ha : l.absent = false)
    (ho : l.operands ≠ []) (hb : s.bufferUse ch.cluster + s.lackBytes x c l ≤ 65536)
    (hr : (l.room && !s.roomSafe x c ch.issued ch.cluster) = false) :
    s.requestNode x c false = s.requestAll x c ch.issued ch l := by
  have hnot : l.none = false := by
    unfold NodeLack.none
    rw [List.isEmpty_eq_false_iff.mpr ho, Bool.false_and, Bool.false_and, Bool.false_and]
  have hroom : (!l.room || s.roomSafe x c ch.issued ch.cluster) = true := by
    rw [← Bool.not_not (s.roomSafe ..), ← Bool.not_and, hr]
    rfl
  have hfit : s.bufferUse ch.cluster + (l.operands.foldl (fun b r => b + s.operandBytes x c r) 0 +
      s.slotSize x * (l.partials.length + b2n l.room)) ≤ 65536 := hb
  unfold State.requestNode
  rw [hc]
  dsimp only
  rw [show ch.issued + b2n false = ch.issued from rfl, hn]
  dsimp only
  rw [hl, ha, hroom, decide_eq_true hfit, hnot]
  rfl

/-- R72, R188: the next node's operands and partials are requested. -/
theorem fetchRequest_requests {n : Src × Option Src} {l : NodeLack} (hc : s.chunk x c = some ch) (hp : ch.place ≠ none)
    (hn : (s.nodesOf x)[ch.issued]? = some n) (hl : s.nodeLack x c ch.issued ch n = l) (ha : l.absent = false)
    (ho : l.operands ≠ []) (hb : s.bufferUse ch.cluster + s.lackBytes x c l ≤ 65536)
    (hr : (l.room && !s.roomSafe x c ch.issued ch.cluster) = false) :
    ∃ d, (s.fetchRequest x c).chunk x c = some d ∧ (∀ r ∈ l.operands, (r, s.arith) ∈ d.requested) ∧
      (∀ q ∈ l.partials, (q, s.arith) ∈ d.fetching) := by
  have hnone : ch.place.isNone = false := by
    rw [Option.isNone_eq_false_iff, Option.isSome_iff_ne_none]
    exact hp
  have hall : Asking x c (s.setChunk x c (some (s.asked ch.issued ch l))) (s.fetchRequest x c) := by
    unfold State.fetchRequest
    rw [hc]
    dsimp only
    rw [hnone, if_neg Bool.false_ne_true, requestNode_whole hc hn hl ha ho hb hr]
    exact (requestAll_from_asked ..).trans (requestNode_asking ..)
  obtain ⟨d, hd, a, b, r, rfl⟩ := hall.chunk _ (setChunk_chunk ..)
  refine ⟨_, hd, fun r hr => ?_, fun q hq => ?_⟩
  · exact List.mem_append_left _ (List.mem_append_right _ (List.mem_map_of_mem hr))
  · exact List.mem_append_left _ (List.mem_append_right _ (List.mem_map_of_mem hq))

/-! An operand arrives (R72). -/

/-- Accesses of an object count, and change no entry of a chunk. -/
theorem operandArrive_chunk {r since : Nat} (hc : s.chunk x c = some ch)
    (hf : ch.requested.find? (fun q => q.1 == r) = some (r, since)) (ht : since + 24 ≤ s.arith)
    (hs : (s.operandSender x r).isSome = true) : (s.operandArrive x c r none).chunk x c =
      some { ch with requested := ch.requested.filter (fun q => q.1 != r), buffered := ch.buffered ++ [r] } := by
  unfold State.operandArrive
  rw [hc]
  dsimp only
  rw [hf]
  dsimp only
  rw [if_neg (Nat.not_lt.mpr ht)]
  obtain ⟨p, hp⟩ := Option.isSome_iff_exists.mp hs
  rw [hp]
  exact setChunk_chunk ..

/-! A node issues (R71, R74, R188). -/

/-- The chunks of cluster k whose next node is ready. -/
def State.readyChunks (s : State) (k : Nat) : List (Nat × Nat × Chunk) :=
  s.allChunks.filter (fun e => e.2.2.place.isSome && e.2.2.cluster == k && s.nodeReady e.1 e.2.1 e.2.2)

/-- R71, R74, R188: a cluster issues the ready node of its earliest-admitted chunk, and is busy for as long as its words
take. -/
theorem nodeIssue_effect {k : Nat} {n : Src × Option Src} (hf : firstBy issueBefore (s.readyChunks k) = some (x, c, ch))
    (ht : s.comp.freeAt.get [k] ≤ s.arith) (hn : (s.nodesOf x)[ch.issued]? = some n) :
    ∃ d, (s.nodeIssue k).chunk x c = some d ∧ d.issued = ch.issued + 1 ∧ d.firstAt = s.arith ∧
      d.root = (if ch.issued + 1 = (s.nodesOf x).length then some (s.nodeResult x c ch n).1 else none) ∧
      (s.nodeIssue k).comp.freeAt.get [k] = s.arith + s.cyclesOf x (s.nodeResult x c ch n).1.length := by
  unfold State.nodeIssue
  dsimp only
  split
  · next h => cases h.symm.trans hf
  next h =>
  cases h.symm.trans hf
  rw [if_neg (Nat.not_lt.mpr ht), hn]
  dsimp only
  split
  · exact ⟨_, setChunk_chunk .., rfl, rfl, by simp only [beq_iff_eq], SMap.get_set_same ..⟩
  · exact ⟨_, setChunk_chunk .., rfl, rfl, by simp only [beq_iff_eq], SMap.get_set_same ..⟩

end Sys2Proof.Machine
end

section
/-!
SUPPORT. The instructions of O57.
-/

namespace Sys2Proof.Machine

variable {s : State} {x c k v d : Nat} {ch : Chunk} {p : Place}

theorem exec_admissionDecide (hs : s.active = true) (hk : k < 416) (hv : v < 16) :
    exec (.admissionDecide k v) s = .next (s.admissionDecide k v) :=
  onActive_eq (f := fun s => s.admissionDecide k v) (decide_eq_true ⟨hk, hv⟩) hs

theorem exec_freezeDieStop (hs : s.active = true) (hv : v < 16) (hd : d < 4) :
    exec (.freezeDieStop v d) s = .next (s.stopDie v d) :=
  onActive_eq (f := fun s => s.stopDie v d) (decide_eq_true ⟨hv, hd⟩) hs

theorem exec_holdEnter (hs : s.active = true) (hv : v < 16) : exec (.holdEnter v) s = .next (s.enterHold v) :=
  onActive_eq (f := fun s => s.enterHold v) (decide_eq_true hv) hs

theorem exec_spineHoldReceive (hs : s.active = true) : exec .spineHoldReceive s = .next s.spineHold.settleAll :=
  onActive_eq (f := fun s => s.spineHold.settleAll) rfl hs

theorem exec_operandFetchRequest (hs : s.active = true) (hx : x < 65536) :
    exec (.operandFetchRequest x c) s = .next (s.fetchRequest x c) :=
  onActive_eq (f := fun s => s.fetchRequest x c) (decide_eq_true hx) hs

theorem exec_operandArrive (hs : s.active = true) (hx : x < 65536) (r : Nat) (bad : Option Nat) :
    exec (.operandArrive x c r bad) s = .next (s.operandArrive x c r bad).settleAll :=
  onActive_eq (f := fun s => (s.operandArrive x c r bad).settleAll) (decide_eq_true hx) hs

theorem exec_nodeIssue (hs : s.active = true) (hk : k < 416) : exec (.nodeIssue k) s = .next (s.nodeIssue k) :=
  onActive_eq (f := fun s => s.nodeIssue k) (decide_eq_true hk) hs

/-- R181, R182, R187: what an admission leaves. -/
theorem admissionDecide_admits (hf : firstBy chunkBefore (s.decidable k v) = some (x, c, ch))
    (hm : s.marked (.request k v) 4 = false) (hd : s.admitDecision x c k ch = .enter p) :
    (s.admissionDecide k v).chunk x c = some (s.entered x k ch p) ∧
    (s.admissionDecide k v).comp.admitSeq = s.comp.admitSeq + 1 ∧
    (s.admissionDecide k v).rd p.admits v = min (s.rd p.admits v + 1) (2 ^ p.admits.width - 1) := by
  obtain ⟨n, l, he⟩ := admissionDecide_enter hf hm hd
  have hcomp := enterChunk_comp ((s.mark (.request k v)).mark n) x c k ch p
  have hcount := enterChunk_admits ((s.mark (.request k v)).mark n) x c k ch p
  rw [decidable_last hf] at hcount
  rw [he]
  generalize ((s.mark (.request k v)).mark n).enterChunk x c k ch p = w at hcomp hcount ⊢
  have hchunk : w.chunk x c = some (s.entered x k ch p) := by
    unfold State.chunk
    rw [hcomp]
    exact SMap.get_set_same _ _ _
  have hseq : w.comp.admitSeq = s.comp.admitSeq + 1 := by rw [hcomp]; rfl
  split
  · have hholds := noteSpill_holdsOnly w k v l
    exact ⟨(hholds.chunk x c).trans hchunk, hholds.admitSeq.trans hseq, (noteSpill_admits ..).trans hcount⟩
  · exact ⟨hchunk, hseq, hcount⟩

/-- R182, R190: what a wait for want of space leaves. -/
theorem admissionDecide_waits (hf : firstBy chunkBefore (s.decidable k v) = some (x, c, ch))
    (hm : s.marked (.request k v) 4 = false) (hd : s.admitDecision x c k ch = .noSpace) (hc : s.chunk x c = some ch) :
    (s.admissionDecide k v).chunk x c = some { ch with waited := true } ∧
    (ch.waited = false → (s.admissionDecide k v).rd F.WLT_WAITS_COUNT v =
      min (s.rd F.WLT_WAITS_COUNT v + 1) (2 ^ F.WLT_WAITS_COUNT.width - 1)) ∧
    (s.wltState v = wltGranted ∧ s.lastState v ≠ lstPaused → (s.admissionDecide k v).wltState v = wltFreezing) := by
  obtain ⟨n, l, he⟩ := admissionDecide_noSpace hf hm hd
  let w := ((s.mark (.request k v)).mark n).noteWas F.SCH_EXACT_LOSS_SPILL
  let z := (w.noteWait x c v ch).exactLoss F.SCH_EXACT_LOSS_SPILL
  have hz : Foot _ (w.noteWait x c v ch) z := exactLoss_foot (Sub.refl _) (by decide) (Foot.refl _ _)
  have hrest {f : Fld} (hf : f.key 0 0 ≠ F.WLT_WAITS_COUNT.key 0 0) (hb : _ = false) : z.rd f v = s.rd f v :=
    (hz.rd f v 0 hb).trans (noteWait_rd_other hf)
  rw [show s.admissionDecide k v = z.freeze v 2 (some (clDie k)) l from he]
  refine ⟨?_, fun hw => ?_, fun ⟨hg, hp⟩ => freeze_wltState ?_ ?_⟩
  · rw [(freeze_holdsOnly ..).chunk, chunk_congr (exactLoss_comp ..)]
    exact noteWait_chunk (s := w) hc
  · rw [(freeze_foot (Sub.refl _) (Foot.refl _ _)).rd _ _ _ (by decide), hz.rd _ _ _ (by decide)]
    exact noteWait_counts (s := w) hw
  · exact (hrest (by decide) (by decide)).trans hg
  · exact fun h => hp ((hrest (by decide) (by decide)).symm.trans h)

/-- R191: what the last's entry to HELD leaves. -/
theorem enterHold_holds {n : Nat} (hw : s.wltState v = wltFreezing) (hp : s.lastState v ≠ lstPaused)
    (hd : ∀ d < 4, (s.hold v).stopped.contains d = true) (hm : (x, n) ∈ (s.hold v).highs)
    (h : ∀ e ∈ (s.hold v).highs, e.1 = x → e.2 = n) : (s.enterHold v).wltState v = wltHeld ∧
    (s.enterHold v).flag F.WLT_CTX_LISTED x = true ∧ (s.enterHold v).rd F.WLT_CTX_LIMIT x = n % 2 ^ 32 := by
  obtain ⟨hlimit, hlisted⟩ := setLimits_mem (s := s) h hm
  have hrest := sendGrants_foot (t := v) (mode := 1) (entries := (s.hold v).highs) (Sub.refl _) (Foot.refl _ ((s.setLimits (s.hold v).highs).wr
    F.WLT_STATE_STATE wltHeld v))
  rw [enterHold_eq hw hp hd, flag_eq]
  unfold State.wltState
  rw [hrest.rd _ _ _ (by decide), hrest.rd _ _ _ (by decide), hrest.rd _ _ _ (by decide), rd_wr_same,
    rd_wr_other _ _ _ _ _ _ _ _ (by decide), rd_wr_other _ _ _ _ _ _ _ _ (by decide), hlimit, hlisted]
  exact ⟨rfl, rfl, rfl⟩

section
variable {port ptr j : Nat} {l : List Byte} {rest : List (Nat × List Byte × Nat)}

/-- R196: a HOLD frame that is not old. -/
theorem FromSpine.holds (h : FromSpine s v j port l ptr rest) (he : (s.comp.spines.get [v, j]).epoch ≤ field l 4 4)
    (hl : field l 0 1 = 1) : s.spineHold.sched.grantsIn = rest ∧
    ((s.spineHold.comp.spines.get [v, j]).held = true ∧ (s.spineHold.comp.spines.get [v, j]).epoch = field l 4 4) ∧
    (s.spineHold.hold v).spines.contains j = true ∧ (s.wltState v = wltGranted ∧ s.lastState v ≠ lstPaused →
      s.spineHold.wltState v = wltFreezing ∧ s.spineHold.rd F.WLT_STATE_CAUSE v = 3) := by
  have hfoot := takeGrant_foot s port ptr rest
  rw [h.spineHold, if_neg (Nat.not_lt.mpr he), if_pos hl]
  obtain ⟨hheld, hepoch, hspines, hgrants⟩ := holdFrame_holds (s.takeGrant port ptr rest) v j l
  refine ⟨hgrants.trans (takeGrant_grantsIn ..), ⟨hheld, hepoch⟩, hspines, fun ⟨hw, hp⟩ => holdFrame_freezes ?_ ?_⟩
  · exact (hfoot.rd _ _ _ (by decide)).trans hw
  · exact fun h => hp ((hfoot.rd _ _ _ (by decide)).symm.trans h)

/-- R196: an OPEN frame that is not old. -/
theorem FromSpine.opens (h : FromSpine s v j port l ptr rest) (he : (s.comp.spines.get [v, j]).epoch ≤ field l 4 4)
    (hl : field l 0 1 = 2) : s.spineHold.sched.grantsIn = rest ∧
    s.spineHold.comp.spines.get [v, j] = { epoch := field l 4 4, held := false, limits := [] } ∧
    (s.spineHold.hold v).spines.contains j = false := by
  rw [h.spineHold, if_neg (Nat.not_lt.mpr he), if_neg (by rw [hl]; decide), if_pos hl]
  obtain ⟨hspine, hspines, hgrants⟩ := openFrame_opens (s.takeGrant port ptr rest) v j l
  exact ⟨hgrants.trans (takeGrant_grantsIn ..), hspine, hspines⟩

/-- R193: a frame older than the hold. -/
theorem FromSpine.old (h : FromSpine s v j port l ptr rest) (he : field l 4 4 < (s.comp.spines.get [v, j]).epoch) :
    s.spineHold.sched.grantsIn = rest ∧ s.spineHold.comp.spines = s.comp.spines ∧ s.spineHold.hold v = s.hold v ∧
    s.spineHold.wltState v = s.wltState v := by
  have hfoot := takeGrant_foot s port ptr rest
  have hcomp := hfoot.comp (by decide)
  rw [h.spineHold, if_pos he]
  exact ⟨takeGrant_grantsIn .., by rw [hcomp], hold_congr hcomp v, hfoot.rd _ _ _ (by decide)⟩

end

/-- Settles O57: each instruction's effect is the lemma above of the operation that it runs. -/
theorem chunksAreAdmittedAndIssued : Obligations.ChunksAreAdmittedAndIssued := by
  unfold Obligations.ChunksAreAdmittedAndIssued
  refine ⟨?enter, ?wait, ?stop, ?held, ?hold, ?opened, ?old, ?fetch, ?arrive, ?issue⟩
  case enter =>
    intro s k v x c ch p hs hk hv hm hf hd
    obtain ⟨hchunk, hseq, hcount⟩ := admissionDecide_admits hf hm hd
    refine ⟨_, exec_admissionDecide hs hk hv, ?_, hseq, hcount⟩
    rw [hchunk, ← decidable_last hf]
    rfl
  case wait =>
    intro s k v x c ch hs hk hv hm hf hc hd
    exact ⟨_, exec_admissionDecide hs hk hv, admissionDecide_waits hf hm hd hc⟩
  case stop =>
    intro s v d hs hv hd hw hp hn
    exact ⟨_, exec_freezeDieStop hs hv hd, stopDie_hold hw hp hn, stopDie_regs s v d⟩
  case held =>
    intro s v x n hs hv hw hp hd hm hn
    exact ⟨_, exec_holdEnter hs hv, enterHold_holds hw hp hd (List.contains_iff_mem.mp hm) hn⟩
  case hold =>
    intro s v j port ptr l rest hs hg hv hj ha hf hl hport he hmode _
    exact ⟨_, exec_spineHoldReceive hs, (FromSpine.mk hg hv hj ha hf hl hport).holds he hmode⟩
  case opened =>
    intro s v j port ptr l rest hs hg hv hj ha hf hl hport he hmode
    exact ⟨_, exec_spineHoldReceive hs, (FromSpine.mk hg hv hj ha hf hl hport).opens he hmode⟩
  case old =>
    intro s v j port ptr l rest hs hg hv hj ha hf hl hport he
    exact ⟨_, exec_spineHoldReceive hs, (FromSpine.mk hg hv hj ha hf hl hport).old he⟩
  case fetch =>
    intro s x c ch n l hs hx hc hp hn hl ha ho hb hr
    obtain ⟨d, hd, hops, hparts⟩ := fetchRequest_requests hc hp hn hl ha ho hb hr
    refine ⟨_, exec_operandFetchRequest hs hx, ?_, ?_⟩
    · rw [hd]
      exact List.all_eq_true.mpr fun r hr => List.contains_iff_mem.mpr (hops r hr)
    · rw [hd]
      exact List.all_eq_true.mpr fun q hq => List.contains_iff_mem.mpr (hparts q hq)
  case arrive =>
    intro s x c ch r since hs hx hc hf ht hp
    exact ⟨_, exec_operandArrive hs hx r none, operandArrive_chunk hc hf ht hp⟩
  case issue =>
    intro s k x c ch n hs hk hf ht hn
    obtain ⟨d, hd, hissued, hfirst, hroot, hfree⟩ := nodeIssue_effect hf ht hn
    refine ⟨_, exec_nodeIssue hs hk, ?_, ?_, hfree⟩
    · rw [hd, ← hissued, ← hfirst]
      rfl
    · rw [hd, ← hroot]
      rfl

end Sys2Proof.Machine
end

section
/-!
SUPPORT. What the retirement of a cluster takes back: without an admission in the cycle's marks, a chunk keeps its progress
(R94, R95).
-/

namespace Sys2Proof.Machine

variable {s t u : State} {x c k : Nat} {ch d : Chunk}

/-! Marks without an admission (R95). -/

/-- A mark of an admission. -/
def Mark.isAdmission : Mark → Bool
  | .admitted .. => true
  | _ => false

theorem isAdmission_eq (m : Mark) : m.isAdmission = (m matches .admitted ..) := by
  cases m <;> rfl

/-- No admission is marked. -/
def State.unadmitted (s : State) : Prop := ∀ e ∈ s.marks, e.2.isAdmission = false

theorem unadmitted_of_any (h : s.marks.any (fun e => e.2 matches .admitted ..) = false) : s.unadmitted := by
  intro e he
  rw [isAdmission_eq]
  exact Bool.eq_false_of_not_eq_true (List.any_eq_false.mp h e he)

theorem State.unadmitted.of_marks (h : s.unadmitted) (ht : t.marks = s.marks) : t.unadmitted := by
  unfold State.unadmitted
  rw [ht]
  exact h

theorem State.unadmitted.filter (h : s.unadmitted) (p : Nat × Mark → Bool) (ht : t.marks = s.marks.filter p) : t.unadmitted := by
  unfold State.unadmitted
  rw [ht]
  exact fun e he => h e (List.mem_of_mem_filter he)

theorem State.unadmitted.mark {m : Mark} (h : s.unadmitted) (hm : m.isAdmission = false) : (s.mark m).unadmitted := by
  intro e he
  rcases List.mem_cons.mp he with rfl | he
  · exact hm
  · exact h e (List.mem_of_mem_filter he)

theorem State.unadmitted.each {α : Type} {l : List α} {g : State → α → State} (h : s.unadmitted)
    (hg : ∀ v a, v.unadmitted → (g v a).unadmitted) : (s.each l g).unadmitted := by
  induction l generalizing s with
  | nil => exact h
  | cons a l ih => exact ih (hg s a h)

theorem State.unadmitted.inc (h : s.unadmitted) (f : Fld) (n i j : Nat) : (s.inc f n i j).unadmitted := by
  unfold State.inc
  dsimp only
  intro e he
  split at he
  · exact h.mark (m := .count (f.key i j) n _) rfl e he
  · exact h e he

theorem State.unadmitted.exactLoss (h : s.unadmitted) (f : Fld) : (s.exactLoss f).unadmitted := by
  unfold State.exactLoss State.latch
  dsimp only
  split <;> exact State.unadmitted.mark h rfl

theorem ringEnter_marks (s : State) (r : Ring) (stop : Nat) (p : RingPacket) : (s.ringEnter r stop p).marks = s.marks := by
  unfold State.ringEnter State.ringClaim
  dsimp only
  split <;> rfl

theorem launch_marks (s : State) (r : Ring) (m : FaultMsg) : (s.launch r m).marks = s.marks := by
  unfold State.launch
  split
  · rfl
  · exact ringEnter_marks ..

theorem State.unadmitted.sendFault (h : s.unadmitted) (m : FaultMsg) : (s.sendFault m).unadmitted := by
  unfold State.sendFault
  dsimp only
  split
  · exact h
  · split <;> split <;>
      exact State.unadmitted.of_marks (State.unadmitted.mark h rfl) (by simp only [launch_marks, mark_marks]; rfl)

theorem State.unadmitted.raise (h : s.unadmitted) (die src n : Nat) : (s.raise die src n).unadmitted := by
  unfold State.raise State.raiseN
  dsimp only
  split
  · exact h
  · exact h.sendFault _

/-! A chunk that keeps its progress. -/

/-- `d` is the chunk `ch`, its wait perhaps uncounted and its decision perhaps put off. -/
def Chunk.Rewaits (ch d : Chunk) : Prop := ∃ w e, d = { ch with waited := w, earliest := e }

theorem Chunk.Rewaits.refl (ch : Chunk) : ch.Rewaits ch := ⟨ch.waited, ch.earliest, rfl⟩

theorem Chunk.Rewaits.trans {e : Chunk} (h : ch.Rewaits d) (h' : d.Rewaits e) : ch.Rewaits e := by
  obtain ⟨_, _, rfl⟩ := h
  obtain ⟨w, e, rfl⟩ := h'
  exact ⟨w, e, rfl⟩

/-- From `s` to `t` every chunk keeps its progress, and no admission is marked. -/
structure Retakes (s t : State) : Prop where
  marks : s.unadmitted → t.unadmitted
  chunk : ∀ x c ch, s.chunk x c = some ch → ∃ d, t.chunk x c = some d ∧ ch.Rewaits d

theorem Retakes.of_chunks (hm : s.unadmitted → t.unadmitted) (hc : t.comp.chunks = s.comp.chunks) : Retakes s t :=
  ⟨hm, fun x c ch h => ⟨ch, by unfold State.chunk; rw [hc]; exact h, .refl ch⟩⟩

theorem Retakes.refl (s : State) : Retakes s s := .of_chunks id rfl

theorem Retakes.trans (h : Retakes s t) (h' : Retakes t u) : Retakes s u :=
  ⟨fun hm => h'.marks (h.marks hm), fun x c ch hc => by
    obtain ⟨d, hd, hr⟩ := h.chunk x c ch hc
    obtain ⟨e, he, hr'⟩ := h'.chunk x c d hd
    exact ⟨e, he, hr.trans hr'⟩⟩

theorem Retakes.each {α : Type} {l : List α} {g : State → α → State} (h : Retakes s t)
    (hg : ∀ a ∈ l, ∀ v, Retakes v (g v a)) : Retakes s (t.each l g) := by
  induction l generalizing t with
  | nil => exact h
  | cons a l ih =>
    exact ih (h.trans (hg a List.mem_cons_self t)) (fun b hb => hg b (List.mem_cons_of_mem a hb))

theorem HoldsOnly.retakes (h : HoldsOnly s t) (hm : s.unadmitted → t.unadmitted) : Retakes s t := by
  obtain ⟨_, h⟩ := h
  exact .of_chunks hm (by rw [h])

theorem setChunk_retakes (h : s.chunk x c = some ch) (hr : ch.Rewaits d) : Retakes s (s.setChunk x c (some d)) := by
  refine ⟨id, fun y b e he => ?_⟩
  by_cases hk : ([y, b] : Key) = [x, c]
  · obtain ⟨rfl, rfl⟩ : y = x ∧ b = c := by simpa using hk
    cases h.symm.trans he
    exact ⟨d, setChunk_chunk .., hr⟩
  · exact ⟨e, (SMap.get_set_ne _ hk _).trans he, .refl e⟩

theorem uncount_marks (s : State) (f : Fld) (n i j : Nat) (h : s.unadmitted) : (s.uncount f n i j).unadmitted := by
  unfold State.uncount
  split
  · exact h
  · split
    · exact h
    · exact fun e he => h e (List.mem_of_mem_erase he)

theorem uncount_comp (s : State) (f : Fld) (n i j : Nat) : (s.uncount f n i j).comp = s.comp := by
  unfold State.uncount
  split
  · rfl
  · split <;> rfl

theorem unrefuse_retakes (s : State) (x c : Nat) (first : Bool) : Retakes s (s.unrefuse x c first) := by
  unfold State.unrefuse
  split
  · exact .refl s
  · next ch h =>
    split
    · exact (setChunk_retakes h ⟨false, ch.earliest, rfl⟩).trans
        (.of_chunks (uncount_marks _ _ _ _ _) (by rw [uncount_comp]))
    · exact .refl s

theorem unfreeze_holdsOnly (s : State) (v : Nat) (lost : List Nat) : HoldsOnly s (s.unfreeze v lost) := by
  unfold State.unfreeze
  dsimp only
  split
  · exact .of_comp rfl
  split
  · exact .of_comp rfl
  split
  · exact ⟨_, rfl⟩
  · exact HoldsOnly.trans ⟨_, rfl⟩ (syncTrigger_holdsOnly _ v)

theorem stopDie_marks (s : State) (v d : Nat) : (s.stopDie v d).marks = s.marks := by
  unfold State.stopDie
  dsimp only
  split <;> rfl

theorem syncTrigger_marks (s : State) (v : Nat) : (s.syncTrigger v).marks = s.marks := by
  unfold State.syncTrigger
  dsimp only
  refine (each_keeps _ State.marks (fun w d _ => stopDie_marks w v d)).trans ?_
  split <;> rfl

theorem unfreeze_unadmitted (v : Nat) (lost : List Nat) (h : s.unadmitted) : (s.unfreeze v lost).unadmitted := by
  unfold State.unfreeze
  dsimp only
  split
  · exact h
  split
  · exact h.filter _ rfl
  split
  · exact fun e he => h e (List.mem_of_mem_filter (List.mem_of_mem_filter he))
  · exact h.filter _ (syncTrigger_marks ..)

theorem undecide_retakes (h : s.unadmitted) (lost : List Nat) : Retakes s (s.undecide lost) := by
  unfold State.undecide
  dsimp only
  split
  · exact .refl s
  have hend (b : Bool) (v : State) : Retakes v (if b then v else v.restoreWas F.SCH_EXACT_LOSS_SPILL) := by
    split
    · exact .refl v
    · exact .of_chunks id rfl
  refine Retakes.trans (.each (.each ?_ fun e he v => ?_) fun w _ v => ?_) (hend _ _)
  · exact .of_chunks (fun h => h.filter _ rfl) rfl
  · have hno := h e (List.mem_of_mem_filter he)
    split
    · next hm =>
      rw [hm] at hno
      cases hno
    · exact unrefuse_retakes ..
    · exact .refl v
  · exact (unfreeze_holdsOnly v w lost).retakes (unfreeze_unadmitted w lost)

/-! The entry of a key, where every entry keeps its key. -/

theorem entriesFind_map {V : Type} {k : Key} {v : V} {l : List (Key × V)} {g : Key × V → Key × V}
    (hg : ∀ e, (g e).1 = e.1) (h : entriesFind k l = some v) : entriesFind k (l.map g) = some (g (k, v)).2 := by
  induction l with
  | nil => cases h
  | cons e l ih =>
    obtain ⟨a, w⟩ := e
    rw [List.map_cons, entriesFind, hg]
    rw [entriesFind] at h
    split
    · next ha =>
      rw [if_pos ha] at h
      cases h
      obtain rfl : a = k := ha
      rfl
    · next ha =>
      rw [if_neg ha] at h
      exact ih h

theorem chunk_entries : s.chunk x c = some ch ↔ entriesFind [x, c] s.comp.chunks.entries = some (some ch) := by
  unfold State.chunk SMap.get SMap.getD
  cases entriesFind [x, c] s.comp.chunks.entries with
  | none => exact ⟨nofun, nofun⟩
  | some v => exact ⟨fun h => congrArg some h, fun h => Option.some.inj h⟩

/-- R94: the entry of a chunk that waits in a re-pointed bucket is put off. -/
def Repointing.putOff (r : Repointing) (a : Nat) (e : Key × Option Chunk) : Key × Option Chunk :=
  match e with
  | ([x, c], some ch) =>
    if ch.place.isNone && r.lost.contains (r.before.getD (bucket x c) 0) then ([x, c], some { ch with earliest := a }) else e
  | _ => e

theorem putOff_key (r : Repointing) (a : Nat) (e : Key × Option Chunk) : (r.putOff a e).1 = e.1 := by
  unfold Repointing.putOff
  split
  · split <;> rfl
  · rfl

theorem putOff_chunk (r : Repointing) (a x c : Nat) (ch : Chunk) :
    ∃ d, (r.putOff a ([x, c], some ch)).2 = some d ∧ ch.Rewaits d := by
  unfold Repointing.putOff
  dsimp only
  split
  · exact ⟨_, rfl, ch.waited, a, rfl⟩
  · exact ⟨ch, rfl, .refl ch⟩

theorem repoint_chunks {new : List Nat} (h : ¬ new.isEmpty = true) : (s.repoint new).comp.chunks.entries =
    s.comp.chunks.entries.map ((s.repointing new).putOff (s.now / 4 + 1)) := by
  unfold State.repoint
  dsimp only
  rw [if_neg h, exactLoss_comp]
  split <;> split <;> rfl

theorem repoint_marks (h : s.unadmitted) (new : List Nat) : (s.repoint new).unadmitted := by
  unfold State.repoint
  dsimp only
  split
  · exact h
  apply State.unadmitted.exactLoss
  split <;> split
  · exact h
  · exact State.unadmitted.mark h rfl
  · exact h
  · exact State.unadmitted.mark h rfl

theorem repoint_retakes (s : State) (new : List Nat) : Retakes s (s.repoint new) := by
  refine ⟨fun h => repoint_marks h new, fun x c ch h => ?_⟩
  by_cases hn : new.isEmpty = true
  · unfold State.repoint
    rw [if_pos hn]
    exact ⟨ch, h, .refl ch⟩
  · obtain ⟨d, hd, hr⟩ := putOff_chunk (s.repointing new) (s.now / 4 + 1) x c ch
    refine ⟨d, chunk_entries.mpr ?_, hr⟩
    rw [repoint_chunks hn, entriesFind_map (putOff_key _ _) (chunk_entries.mp h), hd]

theorem takeBackAll_retakes (h : s.unadmitted) (lost : List Nat) : Retakes s (s.takeBackAll lost) := by
  unfold State.takeBackAll
  split
  · exact .refl s
  · exact (undecide_retakes h lost).trans (repoint_retakes ..)

theorem unmapLogical_retakes (s : State) (l : Nat) : Retakes s (s.unmapLogical l) := .of_chunks id rfl

theorem raise_retakes (s : State) (die src n : Nat) : Retakes s (s.raise die src n) :=
  .of_chunks (·.raise die src n) (by rw [(raise_foot (Sub.refl _) (Foot.refl _ _)).comp (by decide)])

theorem exactLoss_retakes (s : State) (f : Fld) : Retakes s (s.exactLoss f) :=
  .of_chunks (·.exactLoss f) (by rw [exactLoss_comp])

theorem inc_retakes (s : State) (f : Fld) (n i j : Nat) : Retakes s (s.inc f n i j) := .of_chunks (·.inc f n i j) rfl

theorem wr_retakes (s : State) (f : Fld) (v i j : Nat) : Retakes s (s.wr f v i j) := .of_chunks id rfl

theorem mark_retakes (s : State) {m : Mark} (hm : m.isAdmission = false) : Retakes s (s.mark m) := .of_chunks (·.mark hm) rfl

theorem substitute_retakes (s : State) (k : Nat) : Retakes s (s.substitute k).1 := by
  unfold State.substitute
  dsimp only
  split
  · exact .refl s
  split
  · refine Retakes.trans ?_ ((wr_retakes ..).trans ((wr_retakes ..).trans ((wr_retakes ..).trans ((wr_retakes ..).trans
      ((mark_retakes _ rfl).trans ((inc_retakes ..).trans (exactLoss_retakes ..)))))))
    split <;> exact .of_chunks id rfl
  · split
    · refine Retakes.trans ?_ ((wr_retakes ..).trans ((wr_retakes ..).trans ((unmapLogical_retakes ..).trans
        ((mark_retakes _ rfl).trans (raise_retakes ..)))))
      exact .of_chunks (·.filter _ rfl) rfl
    · exact (unmapLogical_retakes ..).trans (raise_retakes ..)

/-- R85, R90: the later retirement of a cluster leaves a chunk its progress. -/
theorem retirePending_chunk (h : s.unadmitted) (k : Nat) (hc : s.chunk x c = some ch) :
    ∃ d, (s.retirePending k).chunk x c = some d ∧ ch.Rewaits d := by
  have hsub := (wr_retakes s F.CL_STATE_STATE clPending k 0).trans (substitute_retakes _ k)
  unfold State.retirePending
  split
  · exact ⟨ch, hc, .refl ch⟩
  dsimp only
  obtain ⟨d, hd, hr⟩ := (hsub.trans (takeBackAll_retakes (hsub.marks h) _)).chunk x c ch hc
  have hsync (w : State) : w.syncClusters.comp = w.comp := (syncClusters_foot (Sub.refl _) (Foot.refl _ w)).comp (by decide)
  have hmap (w : State) : w.mapChange.comp = w.comp := (mapChange_foot (Sub.refl _) (Foot.refl _ w)).comp (by decide)
  refine ⟨d, Eq.trans ?_ hd, hr⟩
  split
  · exact chunk_congr ((hmap _).trans (hsync _)) x c
  · exact chunk_congr (hsync _) x c

end Sys2Proof.Machine
end

section
/-!
SUPPORT. A check's verdict: what is counted and recorded, and a replay (R82, R83, R85, R86).
-/

namespace Sys2Proof.Machine

variable {s t : State} {x c k node : Nat} {ch : Chunk} {path : CheckPath}

/-- R86: the registers of a failed check. -/
def State.recordFailure (s : State) (k x c node : Nat) (path : CheckPath) : State :=
  ((((((s.inc path.counter 1 k).wr F.CL_LAST_ERR_CONTEXT x k).wr F.CL_LAST_ERR_CHUNK c k).wr F.CL_LAST_ERR_NODE node k).wr
    F.CL_LAST_ERR_PATH path.code k).wr F.CL_LAST_ERR_VALID 1 k)

/-- R86, R250: a failed check is recorded and reported. -/
def State.reportFailure (s : State) (k x c node : Nat) (path : CheckPath) : State :=
  let s := (s.recordFailure k x c node path).raise (stopCore (clDie k)) 16 k
  if path = .welt then s.exactLoss F.SCH_EXACT_LOSS_ECC else s

/-- R85: a failure of cluster k is remembered. -/
def State.rememberFailure (s : State) (k : Nat) : State :=
  { s with comp := { s.comp with
    lastFail := s.comp.lastFail.set [k] (some s.now)
    failures := s.comp.failures.filter (fun t => decide (s.now < t + secs 3600)) ++ [s.now] } }

def State.noteFailure (s : State) (k x c node : Nat) (path : CheckPath) : State :=
  (s.reportFailure k x c node path).rememberFailure k

/-- R85: cluster k has failed not long ago. -/
def State.failsAgain (s : State) (k : Nat) : Bool :=
  match s.comp.lastFail.get [k] with
  | none => false
  | some t => decide (s.mgmtCycle ≤ t / 16 + 175000000)

theorem code_lt (path : CheckPath) : path.code % 2 ^ F.CL_LAST_ERR_PATH.width = path.code := by
  cases path <;> rfl

theorem counter_ne (path : CheckPath) (g : Fld) (hg : g.reg.ctorIdx = F.CL_LAST_ERR_VALID.reg.ctorIdx) :
    path.counter.key 0 0 ≠ g.key 0 0 := by
  intro h
  have hreg : path.counter.reg.ctorIdx = F.CL_LAST_ERR_VALID.reg.ctorIdx := (List.cons.inj h).1.trans hg
  revert hreg
  cases path <;> decide

/-- R82, R83: the counter of a failed check's path counts. -/
theorem recordFailure_counts (s : State) (k x c node : Nat) (path : CheckPath) :
    (s.recordFailure k x c node path).rd path.counter k = min (s.rd path.counter k + 1) (2 ^ path.counter.width - 1) := by
  unfold State.recordFailure
  rw [rd_wr_other _ _ _ _ _ _ _ _ (counter_ne path F.CL_LAST_ERR_VALID rfl),
    rd_wr_other _ _ _ _ _ _ _ _ (counter_ne path F.CL_LAST_ERR_PATH rfl),
    rd_wr_other _ _ _ _ _ _ _ _ (counter_ne path F.CL_LAST_ERR_NODE rfl),
    rd_wr_other _ _ _ _ _ _ _ _ (counter_ne path F.CL_LAST_ERR_CHUNK rfl),
    rd_wr_other _ _ _ _ _ _ _ _ (counter_ne path F.CL_LAST_ERR_CONTEXT rfl), rd_inc_same]

/-- R86: what CL_LAST_ERR holds of a failed check. -/
def LastError (s : State) (k x c node : Nat) (path : CheckPath) : Prop :=
  s.rd F.CL_LAST_ERR_CONTEXT k = x % 2 ^ F.CL_LAST_ERR_CONTEXT.width ∧
  s.rd F.CL_LAST_ERR_CHUNK k = c % 2 ^ F.CL_LAST_ERR_CHUNK.width ∧
  s.rd F.CL_LAST_ERR_NODE k = node % 2 ^ F.CL_LAST_ERR_NODE.width ∧ s.rd F.CL_LAST_ERR_PATH k = path.code ∧
  s.rd F.CL_LAST_ERR_VALID k = 1

theorem recordFailure_last (s : State) (k x c node : Nat) (path : CheckPath) :
    LastError (s.recordFailure k x c node path) k x c node path := by
  have hother (w : State) (f g : Fld) (v : Nat) (h : f.key 0 0 ≠ g.key 0 0) : (w.wr g v k).rd f k = w.rd f k :=
    rd_wr_other _ _ _ _ _ _ _ _ h
  unfold LastError State.recordFailure
  refine ⟨?_, ?_, ?_, ?_, ?_⟩
  · rw [hother _ _ _ _ (by decide), hother _ _ _ _ (by decide), hother _ _ _ _ (by decide), hother _ _ _ _ (by decide),
      rd_wr_same]
  · rw [hother _ _ _ _ (by decide), hother _ _ _ _ (by decide), hother _ _ _ _ (by decide), rd_wr_same]
  · rw [hother _ _ _ _ (by decide), hother _ _ _ _ (by decide), rd_wr_same]
  · rw [hother _ _ _ _ (by decide), rd_wr_same, code_lt]
  · exact rd_wr_same ..

theorem recordFailure_foot (s : State) (k x c node : Nat) (path : CheckPath) :
    Foot 0x814400000000000000000000000000000 s (s.recordFailure k x c node path) := by
  have hcounter : (0x814400000000000000000000000000000 : Nat).testBit path.counter.reg.ctorIdx = true := by cases path <;> decide
  exact wr_foot (by decide) (wr_foot (by decide) (wr_foot (by decide) (wr_foot (by decide) (wr_foot (by decide)
    (inc_foot hcounter (Foot.refl _ s))))))

theorem noteFailure_foot (s : State) (k x c node : Nat) (path : CheckPath) :
    Foot 0x206000000000000000000000000000001000000000000000000000000000000000000000000000 (s.recordFailure k x c node path)
      (s.noteFailure k x c node path) := by
  have hraise := raise_foot (die := stopCore (clDie k)) (src := 16) (detail := k) ((Sub.refl _).sub (by decide)) (Foot.refl
    0x206000000000000000000000000000001000000000000000000000000000000000000000000000 (s.recordFailure k x c node path))
  unfold State.noteFailure State.rememberFailure State.reportFailure
  dsimp only
  split
  · exact foot_mk.mpr (parts_comp (by decide) (exactLoss_foot ((Sub.refl _).sub (by decide)) (by decide) hraise).parts)
  · exact foot_mk.mpr (parts_comp (by decide) hraise.parts)

theorem noteFailure_chunk (s : State) (k x c node : Nat) (path : CheckPath) (y b : Nat) :
    (s.noteFailure k x c node path).chunk y b = s.chunk y b := by
  have hraise := (raise_foot (die := stopCore (clDie k)) (src := 16) (detail := k) (Sub.refl _) (Foot.refl _
    (s.recordFailure k x c node path))).comp (by decide)
  unfold State.noteFailure State.rememberFailure State.reportFailure State.chunk
  dsimp only
  split
  · rw [exactLoss_comp, hraise]
    rfl
  · rw [hraise]
    rfl

theorem recordFailure_retakes (s : State) (k x c node : Nat) (path : CheckPath) :
    Retakes s (s.recordFailure k x c node path) :=
  (inc_retakes ..).trans ((wr_retakes ..).trans ((wr_retakes ..).trans ((wr_retakes ..).trans ((wr_retakes ..).trans
    (wr_retakes ..)))))

theorem noteFailure_unadmitted (h : s.unadmitted) : (s.noteFailure k x c node path).unadmitted := by
  have hrecord := ((recordFailure_retakes s k x c node path).trans (raise_retakes _ (stopCore (clDie k)) 16 k)).marks h
  unfold State.noteFailure State.rememberFailure State.reportFailure
  dsimp only
  split
  · exact hrecord.exactLoss F.SCH_EXACT_LOSS_ECC
  · exact hrecord

/-- R83 to R85: a failed check of the attempt that runs. -/
theorem checkFailure_known (hc : s.chunk x c = some ch) (hp : ch.place ≠ none) (hk : ch.cluster = k) :
    s.checkFailure k x (s.opnum x) c node path ch.attempt =
      if 2 ≤ ch.replays then (s.noteFailure k x c node path).retireNow k 2
      else if (s.reportFailure k x c node path).failsAgain k then
        ((s.noteFailure k x c node path).replay x c ch).retirePending k
      else (s.noteFailure k x c node path).replay x c ch := by
  have hchunk := (noteFailure_chunk s k x c node path x c).trans hc
  have hopnum : (s.noteFailure k x c node path).opnum x = s.opnum x :=
    ((noteFailure_foot ..).rd _ _ _ (by decide)).trans ((recordFailure_foot ..).rd _ _ _ (by decide))
  have hplace : ch.place.isSome = true := Option.isSome_iff_ne_none.mpr hp
  have hrest : s.checkFailure k x (s.opnum x) c node path ch.attempt =
    (match (s.noteFailure k x c node path).chunk x c with
    | some ch' =>
      if ch'.place.isSome && ch'.cluster == k && ch'.attempt == ch.attempt &&
          (s.noteFailure k x c node path).opnum x == s.opnum x then
        if 2 ≤ ch'.replays then (s.noteFailure k x c node path).retireNow k 2
        else if (s.reportFailure k x c node path).failsAgain k then
          ((s.noteFailure k x c node path).replay x c ch').retirePending k
        else (s.noteFailure k x c node path).replay x c ch'
      else if (s.reportFailure k x c node path).failsAgain k then (s.noteFailure k x c node path).retirePending k
      else s.noteFailure k x c node path
    | none => if (s.reportFailure k x c node path).failsAgain k then (s.noteFailure k x c node path).retirePending k
      else s.noteFailure k x c node path) := rfl
  rw [hrest, hchunk]
  dsimp only
  rw [hplace, hk, hopnum, beq_self_eq_true, beq_self_eq_true, beq_self_eq_true]
  rfl

end Sys2Proof.Machine
end

section
/-!
SUPPORT. A replay, and the verdict that asks for it (R82, R83).
-/

namespace Sys2Proof.Machine

variable {s t : State} {x c k node : Nat} {ch d : Chunk} {path : CheckPath}

/-- R83: a chunk that replays starts again, and asks for its operands. -/
theorem replay_chunk (s : State) (x c : Nat) (ch : Chunk) : ∃ d, (s.replay x c ch).chunk x c = some d ∧
    Chunk.AsksMore { ch.restart with replays := ch.replays + 1 } d := by
  refine (fetchRequest_asking _).chunk _ ?_
  rw [chunk_congr (exactLoss_comp ..)]
  exact setChunk_chunk ..

theorem Asking.marks (h : Asking x c s t) : t.marks = s.marks := by
  obtain ⟨_, rfl⟩ := h.compOnly
  rfl

theorem replay_unadmitted (h : s.unadmitted) : (s.replay x c ch).unadmitted := by
  have hset : (s.setChunk x c (some { ch.restart with replays := ch.replays + 1 })).unadmitted := h
  exact ((hset.inc _ _ _ _).exactLoss _).of_marks (fetchRequest_asking _).marks

/-- R83: a replay counts. -/
theorem replay_counts (s : State) (x c : Nat) (ch : Chunk) : (s.replay x c ch).rd F.CL_REPLAYS_COUNT ch.cluster =
    min (s.rd F.CL_REPLAYS_COUNT ch.cluster + 1) (2 ^ F.CL_REPLAYS_COUNT.width - 1) := by
  unfold State.replay
  dsimp only
  rw [(fetchRequest_foot (Sub.refl _) (Foot.refl _ _)).rd _ _ _ (by decide),
    (exactLoss_foot (Sub.refl _) (by decide) (Foot.refl _ _)).rd _ _ _ (by decide), rd_inc_same, setChunk_rd]

/-- R83, R85: a chunk that replays, and a cluster that perhaps retires. -/
def State.replayed (s : State) (x c k : Nat) (ch : Chunk) (soon : Bool) : State :=
  if soon then (s.replay x c ch).retirePending k else s.replay x c ch

theorem replayed_chunk (h : s.unadmitted) (k : Nat) (ch : Chunk) (soon : Bool) : ∃ d e, (s.replayed x c k ch soon).chunk x c =
    some e ∧ Chunk.AsksMore { ch.restart with replays := ch.replays + 1 } d ∧ d.Rewaits e := by
  obtain ⟨d, hd, ha⟩ := replay_chunk s x c ch
  unfold State.replayed
  split
  · obtain ⟨e, he, hr⟩ := retirePending_chunk (replay_unadmitted h) k hd
    exact ⟨d, e, he, ha, hr⟩
  · exact ⟨d, d, hd, ha, .refl d⟩

theorem replayed_rd {f : Fld} {i : Nat} (soon : Bool) (hf : (0x30e000000000000000000000000000001000000000fc5540a0000000000000000040000000001c :
    Nat).testBit f.reg.ctorIdx = false) : (s.replayed x c k ch soon).rd f i = (s.replay x c ch).rd f i := by
  unfold State.replayed
  split
  · exact (retirePending_foot (Sub.refl _) (Foot.refl _ _)).rd f i 0 hf
  · rfl

/-- R82, R83, R86: what a failed check leaves, where its chunk replays. -/
structure Replays (k x c node : Nat) (path : CheckPath) (ch : Chunk) (s t : State) : Prop where
  counter : t.rd path.counter k = min (s.rd path.counter k + 1) (2 ^ path.counter.width - 1)
  replays : t.rd F.CL_REPLAYS_COUNT k = min (s.rd F.CL_REPLAYS_COUNT k + 1) (2 ^ F.CL_REPLAYS_COUNT.width - 1)
  last : LastError t k x c node path
  chunk : ∃ d e, t.chunk x c = some e ∧ Chunk.AsksMore { ch.restart with replays := ch.replays + 1 } d ∧ d.Rewaits e

theorem checkFailure_replays (hc : s.chunk x c = some ch) (hp : ch.place ≠ none) (hk : ch.cluster = k) (hr : ch.replays < 2)
    (hm : s.unadmitted) : Replays k x c node path ch s (s.checkFailure k x (s.opnum x) c node path ch.attempt) := by
  let w := s.noteFailure k x c node path
  obtain ⟨soon, hsoon⟩ : ∃ soon : Bool, s.checkFailure k x (s.opnum x) c node path ch.attempt = w.replayed x c k ch soon := by
    refine ⟨(s.reportFailure k x c node path).failsAgain k, ?_⟩
    rw [checkFailure_known hc hp hk, if_neg (Nat.not_le.mpr hr)]
    rfl
  have hnote := noteFailure_foot s k x c node path
  have hreplay := replay_foot (x := x) (c := c) (ch := ch) (Sub.refl _) (Foot.refl _ w)
  have hrd {f : Fld} (h1 : _ = false) (h2 : _ = false) (h3 : _ = false) : (w.replayed x c k ch soon).rd f k =
      (s.recordFailure k x c node path).rd f k :=
    (replayed_rd soon h1).trans ((hreplay.rd f k 0 h2).trans (hnote.rd f k 0 h3))
  rw [hsoon]
  refine ⟨?_, ?_, ?_, replayed_chunk (noteFailure_unadmitted hm) k ch soon⟩
  · rw [hrd, recordFailure_counts]
    all_goals cases path <;> decide
  · rw [replayed_rd soon (by decide), ← hk, replay_counts, hk, hnote.rd _ _ _ (by decide),
      (recordFailure_foot ..).rd _ _ _ (by decide)]
  · obtain ⟨hx, hchunk, hnode, hpath, hvalid⟩ := recordFailure_last s k x c node path
    exact ⟨(hrd (by decide) (by decide) (by decide)).trans hx, (hrd (by decide) (by decide) (by decide)).trans hchunk,
      (hrd (by decide) (by decide) (by decide)).trans hnode, (hrd (by decide) (by decide) (by decide)).trans hpath,
      (hrd (by decide) (by decide) (by decide)).trans hvalid⟩

end Sys2Proof.Machine
end

section
/-!
SUPPORT. The retirement of a cluster at once: its chunks wait to be admitted again (R84, R93, R184).
-/

namespace Sys2Proof.Machine

variable {s t : State} {x c k : Nat} {ch d : Chunk}

/-- What one step of a sequence establishes and every step keeps holds after it. -/
theorem each_establishes {α : Type} {P : State → Prop} {a : α} {l : List α} {g : State → α → State} (ha : a ∈ l)
    (hset : ∀ v, P (g v a)) (hkeep : ∀ v b, P v → P (g v b)) (s : State) : P (s.each l g) := by
  have hall : ∀ (l : List α) (v : State), P v → P (v.each l g) := fun l => by
    induction l with
    | nil => exact fun v hv => hv
    | cons b l ih => exact fun v hv => ih _ (hkeep v b hv)
  induction l generalizing s with
  | nil => cases ha
  | cons b l ih =>
    rcases List.mem_cons.mp ha with rfl | ha
    · exact hall l _ (hset s)
    · exact ih ha (g s b)

/-- Chunk c of context x waits to be admitted again, ahead of the others, with no replay counted. -/
def Readmitted (x c : Nat) (s : State) : Prop :=
  ∃ d, s.chunk x c = some d ∧ d.place = none ∧ d.ahead = true ∧ d.replays = 0

/-- The entry of a chunk that loses its cluster. -/
def Chunk.readmitted (ch : Chunk) : Chunk :=
  { ch.restart with
    place := none, grans := [], issuing := 0, ahead := true, replays := 0, record := none, rewarmed := false }

theorem readmit_chunk_same (s : State) (x c : Nat) (ch : Chunk) : (s.readmit x c ch).chunk x c = some ch.readmitted := by
  unfold State.readmit
  dsimp only
  rw [chunk_congr ((syncChunk_foot (Sub.refl _) (Foot.refl _ _)).comp (by decide))]
  exact setChunk_chunk ..

theorem releaseGranules_chunk (s : State) (y b : Nat) (e : Chunk) : (s.releaseGranules y b e).chunk x c = s.chunk x c := by
  unfold State.releaseGranules
  split <;> rfl

theorem dropWarm_comp (s : State) (y : Nat) (e : Chunk) : (s.dropWarm y e).comp = s.comp :=
  (dropWarm_foot (Sub.refl _) (Foot.refl _ _)).comp (by decide)

theorem setChunk_chunk_ne {y b : Nat} (h : ([x, c] : Key) ≠ [y, b]) (s : State) (o : Option Chunk) :
    (s.setChunk y b o).chunk x c = s.chunk x c := SMap.get_set_ne _ h _

theorem readmit_chunk_ne {y b : Nat} (h : ([x, c] : Key) ≠ [y, b]) (s : State) (e : Chunk) :
    (s.readmit y b e).chunk x c = s.chunk x c := by
  unfold State.readmit
  dsimp only
  rw [chunk_congr ((syncChunk_foot (Sub.refl _) (Foot.refl _ _)).comp (by decide)), setChunk_chunk_ne h,
    chunk_congr (dropWarm_comp ..), releaseGranules_chunk]

theorem readmit_readmitted (s : State) (x c : Nat) (ch : Chunk) : Readmitted x c (s.readmit x c ch) :=
  ⟨_, readmit_chunk_same .., rfl, rfl, rfl⟩

theorem Readmitted.readmit (h : Readmitted x c s) (y b : Nat) (e : Chunk) : Readmitted x c (s.readmit y b e) := by
  by_cases hk : ([x, c] : Key) = [y, b]
  · obtain ⟨rfl, rfl⟩ : x = y ∧ c = b := by simpa using hk
    exact readmit_readmitted ..
  · obtain ⟨d, hd, hprops⟩ := h
    exact ⟨d, (readmit_chunk_ne hk ..).trans hd, hprops⟩

theorem Readmitted.retakes (h : Readmitted x c s) (hr : Retakes s t) : Readmitted x c t := by
  obtain ⟨d, hd, hplace, hahead, hreplays⟩ := h
  obtain ⟨e, he, w, a, rfl⟩ := hr.chunk x c d hd
  exact ⟨_, he, hplace, hahead, hreplays⟩

theorem Readmitted.of_comp (h : Readmitted x c s) (ht : t.comp = s.comp) : Readmitted x c t := by
  obtain ⟨d, hd, hprops⟩ := h
  exact ⟨d, (chunk_congr ht x c).trans hd, hprops⟩

theorem allChunks_mem (h : s.chunk x c = some ch) : (x, c, ch) ∈ s.allChunks :=
  List.mem_filterMap.mpr ⟨_, entriesFind_mem (chunk_entries.mp h), rfl⟩

theorem readmitAll_readmitted (hc : s.chunk x c = some ch) (hp : ch.place ≠ none) (hk : ch.cluster = k) :
    Readmitted x c (s.readmitAll k) := by
  unfold State.readmitAll
  dsimp only
  refine each_establishes (a := (x, c, ch)) ?_ (fun v => readmit_readmitted v x c ch) (fun v b h => h.readmit ..) _
  refine List.mem_filter.mpr ⟨allChunks_mem hc, ?_⟩
  rw [Bool.and_eq_true, beq_iff_eq]
  exact ⟨Option.isSome_iff_ne_none.mpr hp, hk⟩

theorem syncChunk_marks (s : State) (x v k : Nat) : (s.syncChunk x v k).marks = s.marks :=
  each_keeps ((((s.syncOccupancy k).wr F.WLT_WELT_USED_BORROWED _ v).wr F.WLT_WELT_USED_GRANULES _ v)) State.marks
    (fun _ _ _ => rfl)

theorem readmit_marks (s : State) (x c : Nat) (ch : Chunk) : (s.readmit x c ch).marks = s.marks := by
  unfold State.readmit State.dropWarm State.releaseGranules
  dsimp only
  rw [syncChunk_marks]
  split <;> split <;> rfl

theorem readmitAll_marks (s : State) (k : Nat) : (s.readmitAll k).marks = s.marks :=
  each_keeps _ State.marks (fun v e _ => readmit_marks v e.1 e.2.1 e.2.2)

/-- R84, R90: a cluster that retires at once is replaced where it serves a logical cluster. -/
def State.replaced (s : State) (k : Nat) : State × Option Nat := if s.clState k = clActive then s.substitute k else (s, none)

theorem replaced_retakes (s : State) (k : Nat) : Retakes s (s.replaced k).1 := by
  unfold State.replaced
  split
  · exact substitute_retakes s k
  · exact .refl s

/-- R84: the registers of a cluster that is RETIRED. -/
def State.setRetired (s : State) (k cause : Nat) : State :=
  ((s.wr F.CL_STATE_STATE clRetired k).wr F.CL_STATE_CAUSE cause k).wr F.CL_STATE_LOGICAL noCluster k

theorem setRetired_state (s : State) (k cause : Nat) : (s.setRetired k cause).clState k = clRetired ∧
    (s.setRetired k cause).rd F.CL_STATE_CAUSE k = cause % 2 ^ F.CL_STATE_CAUSE.width := by
  unfold State.setRetired State.clState
  rw [rd_wr_other _ _ _ _ _ _ _ _ (by decide), rd_wr_other _ _ _ _ _ _ _ _ (by decide), rd_wr_same,
    rd_wr_other _ _ _ _ _ _ _ _ (by decide), rd_wr_same]
  exact ⟨rfl, rfl⟩

/-- R84, R250: what follows the retirement of a cluster. -/
def State.endRetire (s : State) (k : Nat) : State :=
  ((s.exactLoss F.SCH_EXACT_LOSS_REPLAY).exactLoss F.SCH_EXACT_LOSS_CLUSTER).syncClusters.mapChange.raise
    (stopCore (clDie k)) 17 k

theorem retireNow_eq (s : State) (k cause : Nat) : s.retireNow k cause =
    ((((s.readmitAll k).replaced k).1.setRetired k cause).takeBackAll ((s.readmitAll k).replaced k).2.toList).endRetire k := rfl

theorem setRetired_retakes (s : State) (k cause : Nat) : Retakes s (s.setRetired k cause) := .of_chunks id rfl

theorem endRetire_foot (s : State) (k : Nat) :
    Foot 0xe00000000000000000000000000000100000000000014000000000000000000040000000001c s (s.endRetire k) :=
  raise_foot ((Sub.refl _).sub (by decide)) (mapChange_foot ((Sub.refl _).sub (by decide)) (syncClusters_foot
    ((Sub.refl _).sub (by decide)) (exactLoss_foot ((Sub.refl _).sub (by decide)) (by decide) (exactLoss_foot
      ((Sub.refl _).sub (by decide)) (by decide) (Foot.refl _ s)))))

/-- R84, R93, R184: cluster k is RETIRED with this cause, and chunk c of context x waits to be admitted again. -/
structure Retires (k x c cause : Nat) (t : State) : Prop where
  state : t.clState k = clRetired
  cause : t.rd F.CL_STATE_CAUSE k = cause % 2 ^ F.CL_STATE_CAUSE.width
  waits : Readmitted x c t

theorem retireNow_retires (cause : Nat) (hc : s.chunk x c = some ch) (hp : ch.place ≠ none) (hk : ch.cluster = k)
    (hm : s.unadmitted) : Retires k x c cause (s.retireNow k cause) := by
  have hmarks : (s.readmitAll k).unadmitted := hm.of_marks (readmitAll_marks s k)
  have hset := (replaced_retakes (s.readmitAll k) k).trans (setRetired_retakes _ k cause)
  have hback := hset.trans (takeBackAll_retakes (hset.marks hmarks) ((s.readmitAll k).replaced k).2.toList)
  obtain ⟨hstate, hcause⟩ := setRetired_state ((s.readmitAll k).replaced k).1 k cause
  rw [retireNow_eq]
  generalize ((s.readmitAll k).replaced k).1.setRetired k cause = w at hback hstate hcause ⊢
  have hlost := takeBackAll_foot (lost := ((s.readmitAll k).replaced k).2.toList) (Sub.refl _) (Foot.refl _ w)
  have hend := endRetire_foot (w.takeBackAll ((s.readmitAll k).replaced k).2.toList) k
  refine ⟨?_, ?_, ?_⟩
  · exact (hend.rd _ _ _ (by decide)).trans ((hlost.rd _ _ _ (by decide)).trans hstate)
  · exact (hend.rd _ _ _ (by decide)).trans ((hlost.rd _ _ _ (by decide)).trans hcause)
  · exact ((readmitAll_readmitted hc hp hk).retakes hback).of_comp (hend.comp (by decide))

end Sys2Proof.Machine
end

section
/-!
SUPPORT. The verdict on a word of a chunk (R82 to R84).
-/

namespace Sys2Proof.Machine

variable {s t : State} {x c k node : Nat} {ch d : Chunk} {path : CheckPath}

theorem exec_checkVerdict (hs : s.active = true) (hk : k < 416) (hx : x < 65536) (n c node : Nat) (fail : Option CheckPath)
    (a m : Nat) : exec (.checkVerdict k x n c node fail a m) s = .next (s.checkVerdict k x n c node fail a m) :=
  onActive_eq (f := fun s => s.checkVerdict k x n c node fail a m) (Bool.and_eq_true_iff.mpr ⟨decide_eq_true hk, decide_eq_true hx⟩) hs

theorem incCorr_counter (s : State) (path : CheckPath) (n k : Nat) :
    (s.incCorr F.CL_WELT_ECC_CORR n k).rd path.counter k = s.rd path.counter k :=
  rd_inc_other _ _ _ _ _ _ _ _ (by cases path <;> decide)

theorem incCorr_unadmitted (h : s.unadmitted) (f : Fld) (n k : Nat) : (s.incCorr f n k).unadmitted := h.inc f n k 0

/-- R82: corrected welt words are counted, and cause nothing further. -/
theorem checkVerdict_corrected (s : State) (k x n c node a m : Nat) : (s.checkVerdict k x n c node none a m).rd F.CL_WELT_ECC_CORR k =
    min (s.rd F.CL_WELT_ECC_CORR k + m) (2 ^ F.CL_WELT_ECC_CORR.width - 1) ∧
    (s.checkVerdict k x n c node none a m).comp = s.comp := ⟨rd_inc_same .., rfl⟩

theorem checkVerdict_failed (s : State) (k x n c node a : Nat) (path : CheckPath) : s.checkVerdict k x n c node (some path) a 0 =
    (s.incCorr F.CL_WELT_ECC_CORR 0 k).checkFailure k x n c node path a := rfl

/-- R82, R83, R86: a failed check is counted and recorded, and its chunk replays. -/
theorem checkVerdict_replays (hc : s.chunk x c = some ch) (hp : ch.place ≠ none) (hk : ch.cluster = k) (hr : ch.replays < 2)
    (hm : s.unadmitted) : Replays k x c node path ch s (s.checkVerdict k x (s.opnum x) c node (some path) ch.attempt 0) := by
  have hopnum : (s.incCorr F.CL_WELT_ECC_CORR 0 k).opnum x = s.opnum x := rd_inc_other _ _ _ _ _ _ _ _ (by decide)
  have hreplays : (s.incCorr F.CL_WELT_ECC_CORR 0 k).rd F.CL_REPLAYS_COUNT k = s.rd F.CL_REPLAYS_COUNT k :=
    rd_inc_other _ _ _ _ _ _ _ _ (by decide)
  obtain ⟨hcounter, hcount, hlast, hchunk⟩ := checkFailure_replays (s := s.incCorr F.CL_WELT_ECC_CORR 0 k) (node := node)
    (path := path) hc hp hk hr (incCorr_unadmitted hm _ _ _)
  rw [checkVerdict_failed, ← hopnum]
  exact ⟨hcounter.trans (by rw [incCorr_counter]), hcount.trans (by rw [hreplays]), hlast, hchunk⟩

/-- R84: at the third failure the chunk's cluster is retired at once. -/
theorem checkVerdict_retires (hc : s.chunk x c = some ch) (hp : ch.place ≠ none) (hk : ch.cluster = k) (hr : 2 ≤ ch.replays)
    (hm : s.unadmitted) : Retires k x c 2 (s.checkVerdict k x (s.opnum x) c node (some path) ch.attempt 0) := by
  have hopnum : (s.incCorr F.CL_WELT_ECC_CORR 0 k).opnum x = s.opnum x := rd_inc_other _ _ _ _ _ _ _ _ (by decide)
  have hchunk : (s.incCorr F.CL_WELT_ECC_CORR 0 k).chunk x c = some ch := hc
  have hmarks := incCorr_unadmitted hm F.CL_WELT_ECC_CORR 0 k
  rw [checkVerdict_failed, ← hopnum]
  generalize s.incCorr F.CL_WELT_ECC_CORR 0 k = w at hchunk hmarks ⊢
  rw [checkFailure_known hchunk hp hk, if_pos hr]
  exact retireNow_retires 2 ((noteFailure_chunk w k x c node path x c).trans hchunk) hp hk (noteFailure_unadmitted hmarks)

end Sys2Proof.Machine
end

section
/-!
SUPPORT. Numeric records, spare tests, the monitor, and spills (R89, R126, R127, R131 to R133, R188).
-/

namespace Sys2Proof.Machine

variable {s t : State} {x c k d q : Nat} {ch : Chunk}

/-! Numeric records (R126, R127). -/

/-- R126: the read of a record that is due. -/
def State.recordRead (s : State) (x c : Nat) (bad : Bool) : Option (List Byte) × State :=
  s.gddrRead (s.recordAddr x c) (recordSize (s.outFmt x)) (if bad then some (s.recordAddr x c) else none)

/-- R127: a record that cannot be read is lost, and starts warm-up. -/
def State.recordLost (s : State) (x c a : Nat) (ch : Chunk) : State :=
  let old := readNumRec (s.mem.gddr.readN a (recordSize (s.outFmt x)))
  let r := s.warmRecord x
  let s := ((s.inc F.NUM_STATE_LOST_COUNT).raise (stopMem (gddrDie a)) 20 x).exactLoss F.SCH_EXACT_LOSS_ECC
  let rewarmed := old.warm == 0 && r.warm != 0
  (if rewarmed then s.inc F.NUM_WARM_CHUNKS 1 x else s).setChunk x c (some { ch with record := some r, rewarmed })

/-- R126: the record of an admitted chunk arrives, or is lost, once its read is due. -/
theorem recordArrive_due (bad : Bool) (hc : s.chunk x c = some ch) (hp : ch.place ≠ none) (hn : s.hasRecord x c = true)
    (hr : ch.record = none) (ht : ch.admitAt + 40 ≤ s.arith) : s.recordArrive x c bad =
      match (s.recordRead x c bad).1 with
      | some l => (s.recordRead x c bad).2.setChunk x c (some { ch with record := some (readNumRec l) })
      | none => (s.recordRead x c bad).2.recordLost x c (s.recordAddr x c) ch := by
  have hplace : ch.place.isNone = false := Option.isNone_eq_false_iff.mpr (Option.isSome_iff_ne_none.mpr hp)
  unfold State.recordArrive
  rw [hc]
  dsimp only
  rw [hplace, hn, hr, decide_eq_false (Nat.not_lt.mpr ht), if_neg (by decide)]
  change (match s.recordRead x c bad with | (some l, s) => _ | (none, s) => _) = _
  rcases s.recordRead x c bad with ⟨_ | l, w⟩ <;> rfl

theorem recordRead_foot (s : State) (x c : Nat) (bad : Bool) :
    Foot 0x6000000000000003800000000000000000000000000000000000000000000000000000000000 s (s.recordRead x c bad).2 :=
  gddrRead_foot (Sub.refl _) (Foot.refl _ s)

/-- R126: a record that can be read arrives with its chunk. -/
theorem recordArrive_read {l : List Byte} (hc : s.chunk x c = some ch) (hp : ch.place ≠ none) (hn : s.hasRecord x c = true)
    (hr : ch.record = none) (ht : ch.admitAt + 40 ≤ s.arith)
    (hl : (s.gddrRead (s.recordAddr x c) (recordSize (s.outFmt x)) none).1 = some l) :
    (s.recordArrive x c false).chunk x c = some { ch with record := some (readNumRec l) } := by
  have hread : (s.recordRead x c false).1 = some l := hl
  rw [recordArrive_due false hc hp hn hr ht, hread]
  exact setChunk_chunk ..

theorem recordRead_bad (s : State) (x c : Nat) : (s.recordRead x c true).1 = none := by
  unfold State.recordRead State.gddrRead
  dsimp only
  split
  · rfl
  · next h =>
    rw [if_pos rfl] at h
    cases hf : (s.countChannel (s.recordAddr x c) (recordSize (s.outFmt x))).gddrFailed (s.recordAddr x c)
      (recordSize (s.outFmt x)) <;> rw [hf] at h <;> cases h

/-- R127: what a record that is lost leaves. -/
theorem recordLost_effect (s : State) (x c a : Nat) (ch : Chunk) :
    ((s.recordLost x c a ch).chunk x c).map Chunk.record = some (some (s.warmRecord x)) ∧
    (s.recordLost x c a ch).rd F.NUM_STATE_LOST_COUNT 0 =
      min (s.rd F.NUM_STATE_LOST_COUNT 0 + 1) (2 ^ F.NUM_STATE_LOST_COUNT.width - 1) := by
  have hrest : (((s.inc F.NUM_STATE_LOST_COUNT).raise (stopMem (gddrDie a)) 20 x).exactLoss F.SCH_EXACT_LOSS_ECC).rd
      F.NUM_STATE_LOST_COUNT 0 = min (s.rd F.NUM_STATE_LOST_COUNT 0 + 1) (2 ^ F.NUM_STATE_LOST_COUNT.width - 1) := by
    rw [(exactLoss_foot (Sub.refl _) (by decide) (Foot.refl _ _)).rd _ _ _ (by decide),
      (raise_foot (Sub.refl _) (Foot.refl _ _)).rd _ _ _ (by decide), rd_inc_same]
  unfold State.recordLost
  dsimp only
  refine ⟨?_, ?_⟩
  · rw [setChunk_chunk]
    rfl
  · rw [setChunk_rd]
    split
    · rw [rd_inc_other _ _ _ _ _ _ _ _ (by decide), hrest]
    · exact hrest

/-- R127: a record that cannot be read starts warm-up, and is counted. -/
theorem recordArrive_lost (hc : s.chunk x c = some ch) (hp : ch.place ≠ none) (hn : s.hasRecord x c = true)
    (hr : ch.record = none) (ht : ch.admitAt + 40 ≤ s.arith) :
    ((s.recordArrive x c true).chunk x c).map Chunk.record = some (some (s.warmRecord x)) ∧
    (s.recordArrive x c true).rd F.NUM_STATE_LOST_COUNT 0 =
      min (s.rd F.NUM_STATE_LOST_COUNT 0 + 1) (2 ^ F.NUM_STATE_LOST_COUNT.width - 1) := by
  have hfoot := recordRead_foot s x c true
  have hwarm : (s.recordRead x c true).2.warmRecord x = s.warmRecord x := by
    unfold State.warmRecord State.outFmt
    rw [hfoot.rd _ _ _ (by decide), hfoot.rd _ _ _ (by decide)]
  obtain ⟨hrecord, hcount⟩ := recordLost_effect (s.recordRead x c true).2 x c (s.recordAddr x c) ch
  rw [hwarm] at hrecord
  rw [hfoot.rd _ _ _ (by decide)] at hcount
  rw [recordArrive_due true hc hp hn hr ht, recordRead_bad]
  exact ⟨hrecord, hcount⟩

/-! Spare tests (R89). -/

/-- R89: the next spare enters its test. -/
theorem spareTestStart_tests (hi : s.comp.testing = none) (hk : s.nextSpare = some k) :
    s.spareTestStart.comp.testing = some (k, s.now) ∧ s.spareTestStart.comp.tested = some k ∧
    s.spareTestStart.clState k = clTest := by
  unfold State.spareTestStart
  rw [hi, hk]
  exact ⟨rfl, rfl, rd_wr_same ..⟩

/-- R89: what a test of cluster k leaves in its registers, before the cluster's state. -/
def State.noteTest (s : State) (k : Nat) (pass : Bool) : State :=
  ({ s with comp := { s.comp with testing := none } }.wr F.CL_TEST_DONE 1 k).wr F.CL_TEST_FAIL (b2n (!pass)) k

/-- R89, R250: a spare that fails its test is RETIRED. -/
def State.failTest (s : State) (k : Nat) : State :=
  (((s.wr F.CL_STATE_STATE clRetired k).wr F.CL_STATE_CAUSE 3 k).syncClusters.mapChange.exactLoss F.SCH_EXACT_LOSS_CLUSTER).raise
    (stopCore (clDie k)) 18 k

theorem spareTestEnd_eq {since : Nat} (pass : Bool) (h : s.comp.testing = some (k, since)) (ht : since + us 40 ≤ s.now) :
    s.spareTestEnd pass = if pass then (s.noteTest k pass).wr F.CL_STATE_STATE clSpare k else (s.noteTest k pass).failTest k := by
  unfold State.spareTestEnd
  rw [h]
  dsimp only
  rw [if_neg (Nat.not_lt.mpr ht)]
  rfl

theorem noteTest_done (s : State) (k : Nat) (pass : Bool) : (s.noteTest k pass).rd F.CL_TEST_DONE k = 1 ∧
    (s.noteTest k pass).rd F.CL_TEST_FAIL k = b2n (!pass) := by
  unfold State.noteTest
  rw [rd_wr_other _ _ _ _ _ _ _ _ (by decide), rd_wr_same, rd_wr_same]
  exact ⟨rfl, by cases pass <;> rfl⟩

theorem failTest_foot (s : State) (k : Nat) : Foot 0xe00000000000000000000000000000100000000000014000000000000000000040000000001c
    ((s.wr F.CL_STATE_STATE clRetired k).wr F.CL_STATE_CAUSE 3 k) (s.failTest k) :=
  raise_foot ((Sub.refl _).sub (by decide)) (exactLoss_foot ((Sub.refl _).sub (by decide)) (by decide) (mapChange_foot
    ((Sub.refl _).sub (by decide)) (syncClusters_foot ((Sub.refl _).sub (by decide)) (Foot.refl _ _))))

/-- R89: the test ends: the cluster is a spare again, or RETIRED. -/
theorem spareTestEnd_ends {since : Nat} (pass : Bool) (h : s.comp.testing = some (k, since)) (ht : since + us 40 ≤ s.now) :
    (s.spareTestEnd pass).comp.testing = none ∧ ((s.spareTestEnd pass).rd F.CL_TEST_DONE k = 1 ∧
      (s.spareTestEnd pass).rd F.CL_TEST_FAIL k = b2n (!pass)) ∧
    (s.spareTestEnd pass).clState k = (if pass then clSpare else clRetired) := by
  obtain ⟨hdone, hfail⟩ := noteTest_done s k pass
  rw [spareTestEnd_eq pass h ht]
  split
  · refine ⟨rfl, ⟨?_, ?_⟩, rd_wr_same ..⟩
    · rw [rd_wr_other _ _ _ _ _ _ _ _ (by decide), hdone]
    · rw [rd_wr_other _ _ _ _ _ _ _ _ (by decide), hfail]
  · have hend := failTest_foot (s.noteTest k pass) k
    refine ⟨?_, ⟨?_, ?_⟩, ?_⟩
    · rw [hend.comp (by decide)]
      rfl
    · rw [hend.rd _ _ _ (by decide), rd_wr_other _ _ _ _ _ _ _ _ (by decide), rd_wr_other _ _ _ _ _ _ _ _ (by decide), hdone]
    · rw [hend.rd _ _ _ (by decide), rd_wr_other _ _ _ _ _ _ _ _ (by decide), rd_wr_other _ _ _ _ _ _ _ _ (by decide), hfail]
    · refine (hend.rd _ _ _ (by decide)).trans ((rd_wr_other _ _ _ _ _ _ _ _ (by decide)).trans (rd_wr_same ..))

/-! The monitor (R131 to R133). -/

@[simp] theorem setMonitor_monitor (s : State) (d : Nat) (m : Monitor) : (s.setMonitor d m).comp.monitors.get [d] = m :=
  SMap.get_set_same _ _ _
@[simp] theorem setMonitor_rd (s : State) (d : Nat) (m : Monitor) (f : Fld) (i j : Nat) :
    (s.setMonitor d m).rd f i j = s.rd f i j := rfl

/-- R131: the monitor has read its sample's inputs. -/
theorem monitorRead_reads {smp : Sample} (hc : (s.comp.monitors.get [d]).current = some smp)
    (hr : (s.comp.monitors.get [d]).read = false) (ht : (s.comp.monitors.get [d]).since + smp.inCells ≤ s.arith) :
    (s.monitorRead d).comp.monitors.get [d] =
      { s.comp.monitors.get [d] with current := some { smp with inputs := [] }, read := true } := by
  unfold State.monitorRead
  dsimp only
  rw [hc]
  dsimp only
  rw [hr, if_neg (by rw [not_or]; exact ⟨Bool.false_ne_true, Nat.not_lt.mpr ht⟩)]
  exact setMonitor_monitor ..

/-- R132: the counter of a sample's verdict. -/
def Sample.verdict (smp : Sample) (tol : Nat) : Fld :=
  if smp.errs.all (·.within 1) then F.NUM_SHADOW_AGREE
  else if smp.errs.all (·.within tol) then F.NUM_SHADOW_WITHIN
  else F.NUM_SHADOW_BEYOND

/-- R131, R132: the monitor goes on to the sample that waits, and what it finished counts. -/
def State.countShadow (s : State) (d : Nat) (m : Monitor) (smp : Sample) : State :=
  (((s.setMonitor d { current := m.waiting, since := s.arith, read := false, waiting := none }).inc F.NUM_MON_STAT_DONE 1 d).inc
    F.NUM_SHADOW_SAMPLES 1 smp.context).inc (smp.verdict (2 * s.rd F.NUM_GCFG_SHADOW_TOL)) 1 smp.context

/-- R132, R133: the largest error is kept, and a sample with too many far ones recorded and raised. -/
def State.recordShadow (s : State) (d tol : Nat) (smp : Sample) : State :=
  let x := smp.context
  let worst := (smp.errs.map UlpErr.sixteenths).foldl max 0
  let s := s.wr F.NUM_SHADOW_MAX_MAX (max (s.rd F.NUM_SHADOW_MAX_MAX x) (min worst (2 ^ 32 - 1))) x
  let far := (smp.errs.filter (fun e => !e.within tol)).length
  if s.rd F.NUM_GCFG_SHADOW_LIMIT < far then
    let s := ((s.wr F.NUM_SHADOW_LAST_CONTEXT x).wr F.NUM_SHADOW_LAST_CHUNK smp.chunk).wr F.NUM_SHADOW_LAST_ELEMENTS (min far 65535)
    s.raise (stopCore d) 21 x
  else s

theorem shadowComplete_eq {smp : Sample} (hc : (s.comp.monitors.get [d]).current = some smp)
    (hr : (s.comp.monitors.get [d]).read = true)
    (ht : (s.comp.monitors.get [d]).since + smp.inCells + smp.outCells + ceilDiv smp.adds 8 ≤ s.arith) :
    s.shadowComplete d = (s.countShadow d (s.comp.monitors.get [d]) smp).recordShadow d (2 * s.rd F.NUM_GCFG_SHADOW_TOL) smp := by
  unfold State.shadowComplete
  dsimp only
  rw [hc]
  dsimp only
  rw [hr, if_neg (by rw [not_or]; exact ⟨by decide, Nat.not_lt.mpr ht⟩)]
  unfold State.countShadow Sample.verdict
  split
  · rfl
  · split <;> rfl

theorem inc_verdict_other {f : Fld} {i : Nat} (s : State) (smp : Sample) (tol : Nat) (hf : f.key 0 0 ≠ F.NUM_SHADOW_AGREE.key 0 0)
    (hf' : f.key 0 0 ≠ F.NUM_SHADOW_WITHIN.key 0 0) (hf'' : f.key 0 0 ≠ F.NUM_SHADOW_BEYOND.key 0 0) :
    (s.inc (smp.verdict tol) 1 smp.context).rd f i = s.rd f i := by
  unfold Sample.verdict
  split
  · exact rd_inc_other _ _ _ _ _ _ _ _ hf
  · split
    · exact rd_inc_other _ _ _ _ _ _ _ _ hf'
    · exact rd_inc_other _ _ _ _ _ _ _ _ hf''

/-- R132: each sample counts in one of three. -/
theorem inc_verdict (s : State) (smp : Sample) (tol : Nat) :
    (s.inc (smp.verdict tol) 1 smp.context).rd F.NUM_SHADOW_AGREE smp.context = (if smp.errs.all (·.within 1) = true then
      min (s.rd F.NUM_SHADOW_AGREE smp.context + 1) (2 ^ F.NUM_SHADOW_AGREE.width - 1) else s.rd F.NUM_SHADOW_AGREE smp.context) ∧
    (s.inc (smp.verdict tol) 1 smp.context).rd F.NUM_SHADOW_WITHIN smp.context = (if smp.errs.all (·.within 1) = false ∧
      smp.errs.all (·.within tol) = true then min (s.rd F.NUM_SHADOW_WITHIN smp.context + 1) (2 ^ F.NUM_SHADOW_WITHIN.width - 1)
      else s.rd F.NUM_SHADOW_WITHIN smp.context) ∧
    (s.inc (smp.verdict tol) 1 smp.context).rd F.NUM_SHADOW_BEYOND smp.context = (if smp.errs.all (·.within 1) = false ∧
      smp.errs.all (·.within tol) = false then min (s.rd F.NUM_SHADOW_BEYOND smp.context + 1) (2 ^ F.NUM_SHADOW_BEYOND.width - 1)
      else s.rd F.NUM_SHADOW_BEYOND smp.context) := by
  have hother (f g : Fld) (h : f.key 0 0 ≠ g.key 0 0) : (s.inc g 1 smp.context).rd f smp.context = s.rd f smp.context :=
    rd_inc_other _ _ _ _ _ _ _ _ h
  unfold Sample.verdict
  cases smp.errs.all (·.within 1) with
  | true => exact ⟨rd_inc_same .., hother _ F.NUM_SHADOW_AGREE (by decide), hother _ F.NUM_SHADOW_AGREE (by decide)⟩
  | false =>
    cases smp.errs.all (·.within tol) with
    | true => exact ⟨hother _ F.NUM_SHADOW_WITHIN (by decide), rd_inc_same .., hother _ F.NUM_SHADOW_WITHIN (by decide)⟩
    | false => exact ⟨hother _ F.NUM_SHADOW_BEYOND (by decide), hother _ F.NUM_SHADOW_BEYOND (by decide), rd_inc_same ..⟩

/-- R131, R132: what the monitor's count leaves. -/
structure Counted (s t : State) (d : Nat) (smp : Sample) : Prop where
  monitor : (t.comp.monitors.get [d]).current = (s.comp.monitors.get [d]).waiting ∧ (t.comp.monitors.get [d]).waiting = none
  done : t.rd F.NUM_MON_STAT_DONE d = min (s.rd F.NUM_MON_STAT_DONE d + 1) (2 ^ F.NUM_MON_STAT_DONE.width - 1)
  samples : t.rd F.NUM_SHADOW_SAMPLES smp.context =
    min (s.rd F.NUM_SHADOW_SAMPLES smp.context + 1) (2 ^ F.NUM_SHADOW_SAMPLES.width - 1)
  agree : t.rd F.NUM_SHADOW_AGREE smp.context = (if smp.errs.all (·.within 1) = true then
    min (s.rd F.NUM_SHADOW_AGREE smp.context + 1) (2 ^ F.NUM_SHADOW_AGREE.width - 1) else s.rd F.NUM_SHADOW_AGREE smp.context)
  within : t.rd F.NUM_SHADOW_WITHIN smp.context = (if smp.errs.all (·.within 1) = false ∧
    smp.errs.all (·.within (2 * s.rd F.NUM_GCFG_SHADOW_TOL)) = true then
    min (s.rd F.NUM_SHADOW_WITHIN smp.context + 1) (2 ^ F.NUM_SHADOW_WITHIN.width - 1) else s.rd F.NUM_SHADOW_WITHIN smp.context)
  beyond : t.rd F.NUM_SHADOW_BEYOND smp.context = (if smp.errs.all (·.within 1) = false ∧
    smp.errs.all (·.within (2 * s.rd F.NUM_GCFG_SHADOW_TOL)) = false then
    min (s.rd F.NUM_SHADOW_BEYOND smp.context + 1) (2 ^ F.NUM_SHADOW_BEYOND.width - 1) else s.rd F.NUM_SHADOW_BEYOND smp.context)

theorem countShadow_counted (s : State) (d : Nat) (smp : Sample) :
    Counted s (s.countShadow d (s.comp.monitors.get [d]) smp) d smp := by
  let m : Monitor := { current := (s.comp.monitors.get [d]).waiting, since := s.arith, read := false, waiting := none }
  let w := ((s.setMonitor d m).inc F.NUM_MON_STAT_DONE 1 d).inc F.NUM_SHADOW_SAMPLES 1 smp.context
  have hw {f : Fld} {i : Nat} (h : f.key 0 0 ≠ F.NUM_MON_STAT_DONE.key 0 0) (h' : f.key 0 0 ≠ F.NUM_SHADOW_SAMPLES.key 0 0) :
      w.rd f i = s.rd f i := (rd_inc_other _ _ _ _ _ _ _ _ h').trans ((rd_inc_other _ _ _ _ _ _ _ _ h).trans rfl)
  have hmonitor : (s.countShadow d (s.comp.monitors.get [d]) smp).comp.monitors.get [d] = m := setMonitor_monitor s d m
  obtain ⟨hagree, hwithin, hbeyond⟩ := inc_verdict w smp (2 * s.rd F.NUM_GCFG_SHADOW_TOL)
  rw [hw (by decide) (by decide)] at hagree hwithin hbeyond
  refine ⟨by rw [hmonitor]; exact ⟨rfl, rfl⟩, ?_, ?_, hagree, hwithin, hbeyond⟩
  · refine (inc_verdict_other w smp _ (by decide) (by decide) (by decide)).trans ?_
    exact (rd_inc_other _ _ _ _ _ _ _ _ (by decide)).trans (rd_inc_same ..)
  · refine (inc_verdict_other w smp _ (by decide) (by decide) (by decide)).trans ((rd_inc_same ..).trans ?_)
    rw [rd_inc_other _ _ _ _ _ _ _ _ (by decide), setMonitor_rd]

theorem recordShadow_foot (s : State) (d tol : Nat) (smp : Sample) :
    Foot 0x6000000000000000000000840000000000000000000000000000000000000000000000000000 s (s.recordShadow d tol smp) := by
  have hmax (v : Nat) : Foot 0x6000000000000000000000840000000000000000000000000000000000000000000000000000 s
      (s.wr F.NUM_SHADOW_MAX_MAX v smp.context) := wr_foot (by decide) (Foot.refl _ s)
  unfold State.recordShadow
  dsimp only
  split
  · exact raise_foot ((Sub.refl _).sub (by decide)) (wr_foot (by decide) (wr_foot (by decide) (wr_foot (by decide) (hmax _))))
  · exact hmax _

/-- R131 to R133: the monitor counts its verdict, and goes on. -/
theorem shadowComplete_counted {smp : Sample} (hc : (s.comp.monitors.get [d]).current = some smp)
    (hr : (s.comp.monitors.get [d]).read = true)
    (ht : (s.comp.monitors.get [d]).since + smp.inCells + smp.outCells + ceilDiv smp.adds 8 ≤ s.arith) :
    Counted s (s.shadowComplete d) d smp := by
  obtain ⟨hmonitor, hdone, hsamples, hagree, hwithin, hbeyond⟩ := countShadow_counted s d smp
  have hrecord := recordShadow_foot (s.countShadow d (s.comp.monitors.get [d]) smp) d (2 * s.rd F.NUM_GCFG_SHADOW_TOL) smp
  rw [shadowComplete_eq hc hr ht]
  refine ⟨?_, ?_, ?_, ?_, ?_, ?_⟩
  · rw [hrecord.comp (by decide)]
    exact hmonitor
  · exact (hrecord.rd _ _ _ (by decide)).trans hdone
  · exact (hrecord.rd _ _ _ (by decide)).trans hsamples
  · exact (hrecord.rd _ _ _ (by decide)).trans hagree
  · exact (hrecord.rd _ _ _ (by decide)).trans hwithin
  · exact (hrecord.rd _ _ _ (by decide)).trans hbeyond

/-! Spills (R188). -/

theorem gddrFailed_congr (h : t.mem.inUse = s.mem.inUse) (hr : ∀ k, t.rd F.MEM_CH_STAT_STATE k = s.rd F.MEM_CH_STAT_STATE k)
    (a n : Nat) : t.gddrFailed a n = s.gddrFailed a n := by
  unfold State.gddrFailed State.gddrChannel State.dieChannels
  simp only [h, hr]

/-- The entry of a chunk whose partial q is back (R188). -/
def Chunk.fetched (ch : Chunk) (q : Nat) (res : List Elem) : Chunk :=
  { ch with
    slots := ch.slots.map (fun r => if r.1 = q then (q, res) else r)
    fetching := ch.fetching.filter (fun g => g.1 != q), back := ch.back ++ [q] }

theorem fetched_slots (ch : Chunk) (q : Nat) (res : List Elem) : (ch.fetched q res).slots.map Prod.fst = ch.slots.map Prod.fst := by
  unfold Chunk.fetched
  rw [List.map_map]
  refine List.map_congr_left fun r _ => ?_
  rw [Function.comp_apply]
  split
  · next h => exact h.symm
  · rfl

/-- The engine has served its request, and the granules of the slot are read (R188, R414). -/
def State.spillRead (s : State) (d : Nat) (addrs : List Nat) : State :=
  (s.spillServed d).each addrs (fun s a => s.countChannel a 4096)

theorem spillRead_foot (s : State) (d : Nat) (addrs : List Nat) :
    Foot 0x200000000000000002000000000000000000000000000000000000000000000000000000000000 s (s.spillRead d addrs) :=
  each_foot' (spillServed_foot ((Sub.refl _).sub (by decide)) (Foot.refl _ s))
    (fun _ _ h => countChannel_foot ((Sub.refl _).sub (by decide)) h)

theorem spillRead_failed (s : State) (d : Nat) (addrs : List Nat) (a n : Nat) :
    (s.spillRead d addrs).gddrFailed a n = s.gddrFailed a n :=
  have hfoot := spillRead_foot s d addrs
  gddrFailed_congr (by rw [hfoot.part .mem (by decide)]) (fun k => hfoot.rd _ _ _ (by decide)) a n

/-- R188: a spilled partial comes back. -/
theorem spillFetched_back {j : SpillJob} {p : Nat × List Elem} (hc : s.chunk x c = some ch)
    (hj : s.spillTurn (clDie ch.cluster) x c q false = some j) (hp : ch.slots.find? (fun e => e.1 == q) = some p)
    (hr : s.spillReady (clDie ch.cluster) j ≤ s.arith) (ha : s.aheadOfSpill (s.slotAddrs x ch (ch.slotOf q)) 4096 = false)
    (hw : (ch.away.find? (fun a => a.1 == q)).isSome = true)
    (hf : ((s.slotAddrs x ch (ch.slotOf q)).filterMap (fun a => s.gddrFailed a 4096)).head? = none) :
    ∃ res, (s.spillFetched x c q none).chunk x c = some (ch.fetched q res) := by
  obtain ⟨aw, haw⟩ := Option.isSome_iff_exists.mp hw
  have hfailed : ((s.slotAddrs x ch (ch.slotOf q)).filterMap (fun a =>
      (s.spillRead (clDie ch.cluster) (s.slotAddrs x ch (ch.slotOf q))).gddrFailed a 4096)).head? = none := by
    simp only [spillRead_failed]
    exact hf
  unfold State.spillFetched
  rw [hc]
  dsimp only
  rw [hj, haw, hp]
  dsimp only
  rw [ha, decide_eq_false (Nat.not_lt.mpr hr), if_neg (by decide)]
  change ∃ res, State.chunk (match Option.or none (((s.slotAddrs x ch (ch.slotOf q)).filterMap (fun a =>
      (s.spillRead (clDie ch.cluster) (s.slotAddrs x ch (ch.slotOf q))).gddrFailed a 4096)).head?) with
    | some _ => _
    | none => State.setChunk _ x c (some (ch.fetched q _))) x c = _
  rw [hfailed]
  exact ⟨_, setChunk_chunk ..⟩

/-- The engine has served its request, and the granules of the slot are written (R188). -/
def State.spillWrite (s : State) (d : Nat) (addrs : List Nat) (data : List Byte) : State :=
  (s.spillServed d).each addrs.zipIdx (fun s a =>
    let part := (data.drop (4096 * a.2)).take 4096
    (s.gddrWrite a.1 (part ++ List.replicate (4096 - part.length) 0)).2)

theorem spillWrite_arith (s : State) (d : Nat) (addrs : List Nat) (data : List Byte) : (s.spillWrite d addrs data).arith = s.arith :=
  (each_keeps (s.spillServed d) State.arith (fun v _ _ => (gddrWrite_keeps (Keeps.refl v) _ _).arith)).trans rfl

/-- R188: a spilled result is written. -/
theorem spillWritten_away {j : SpillJob} {p : Nat × List Elem} (hc : s.chunk x c = some ch)
    (hj : s.spillTurn (clDie ch.cluster) x c q true = some j) (hp : ch.slots.find? (fun e => e.1 == q) = some p)
    (hr : s.spillReady (clDie ch.cluster) j ≤ s.arith) (ha : s.aheadOfSpill (s.slotAddrs x ch (ch.slotOf q)) 4096 = false) :
    (s.spillWritten x c q).chunk x c =
      some { ch with leaving := ch.leaving.filter (· != q), away := ch.away ++ [(q, s.arith + 140)] } := by
  rw [← spillWrite_arith s (clDie ch.cluster) (s.slotAddrs x ch (ch.slotOf q)) (partialBytes (s.slotCode x) p.2)]
  unfold State.spillWritten
  rw [hc]
  dsimp only
  rw [hj, hp]
  dsimp only
  rw [ha, decide_eq_false (Nat.not_lt.mpr hr), if_neg (by decide)]
  exact setChunk_chunk ..

end Sys2Proof.Machine
end

section
/-!
SUPPORT. The loss of a core die (R90, R96).
-/

namespace Sys2Proof.Machine

variable {s t : State} {d k l : Nat}

/-- R96: the clusters that a core die loses. -/
def State.dieClustersLost (s : State) (d : Nat) : List Nat :=
  (dieClusters d).filter (fun k =>
    s.clState k == clActive || s.clState k == clPending || s.clState k == clSpare || s.clState k == clTest)

/-- R96: the logical clusters that a core die serves. -/
def State.dieMapped (s : State) (d : Nat) : List Nat :=
  ((List.range 100).map (100 * d + ·)).filter (fun l => s.flag F.CL_LOG2PHYS_MAPPED l)

/-- R96: the clusters of a core die retire, and a test of one ends. -/
def State.retireDie (s : State) (d : Nat) (mine : List Nat) : State :=
  let s := (s.each mine State.readmitAll).each mine (fun s k => s.setRetired k 6)
  { s with comp := { s.comp with
    testing := if (s.comp.testing.map (fun (p : Nat × Nat) => clDie p.1)) = some d then none else s.comp.testing } }

/-- R96, R440: the quads of a core die go off. -/
def State.quadsOff (s : State) (d : Nat) : State :=
  s.each ((List.range 26).map (26 * d + ·)) (fun s q =>
    let dom := 256 + q
    let s := s.wr F.PWR_DOM_STAT_ON (setBit (s.rd F.PWR_DOM_STAT_ON (dom / 64)) (dom % 64) false) (dom / 64)
    { s with pwr := { s.pwr with quadsOff := setBit s.pwr.quadsOff q true } })

/-- R96, R250: what follows the loss of a core die's clusters. -/
def State.endDieLoss (s : State) (d : Nat) (mine served : List Nat) : State :=
  let s := ((s.exactLoss F.SCH_EXACT_LOSS_CLUSTER).quadsOff d).syncClusters.mapChange
  let s := s.each mine (fun s k => s.raise (stopCore d) 17 k)
  s.each served (fun s k => s.raise (stopCore d) 19 k)

theorem coreDieLoss_eq (h : (s.dieClustersLost d).isEmpty = false) : s.coreDieLoss d =
    ((((s.retireDie d (s.dieClustersLost d)).each (s.dieMapped d) State.unmapLogical).takeBackAll (s.dieMapped d)).endDieLoss d
      (s.dieClustersLost d) ((s.dieMapped d).map (s.rd F.CL_LOG2PHYS_PHYS))) := by
  have hempty : ¬ ((s.dieClustersLost d).isEmpty && (s.dieMapped d).isEmpty) = true := by rw [h]; exact Bool.false_ne_true
  unfold State.coreDieLoss
  exact if_neg hempty

theorem endDieLoss_foot (s : State) (d : Nat) (mine served : List Nat) :
    Foot 0x200e00000000000000000000000000000100000000000014000000000000000000040000002001c s (s.endDieLoss d mine served) := by
  unfold State.endDieLoss
  refine each_foot' (each_foot' (mapChange_foot ((Sub.refl _).sub (by decide)) (syncClusters_foot ((Sub.refl _).sub (by decide))
    (each_foot' (exactLoss_foot ((Sub.refl _).sub (by decide)) (by decide) (Foot.refl _ s)) (fun v q h => ?_)))) (fun v k h => ?_))
    (fun v k h => ?_)
  · exact foot_mk.mpr (parts_pwr (by decide) (wr_foot (by decide) h).parts)
  · exact raise_foot ((Sub.refl _).sub (by decide)) h
  · exact raise_foot ((Sub.refl _).sub (by decide)) h

/-- R96: a cluster is RETIRED for the loss of its die. -/
def DieRetired (k : Nat) (s : State) : Prop := s.clState k = clRetired ∧ s.rd F.CL_STATE_CAUSE k = 6

theorem setRetired_dieRetired (s : State) (k : Nat) : DieRetired k (s.setRetired k 6) := setRetired_state s k 6

theorem setRetired_other {b : Nat} (h : k ≠ b) (s : State) (cause : Nat) (f : Fld) : (s.setRetired b cause).rd f k = s.rd f k := by
  have hwr (w : State) (g : Fld) (v : Nat) : (w.wr g v b).rd f k = w.rd f k := by
    refine rd_wr_key _ _ _ _ _ _ _ _ fun hk => h ?_
    simp only [Fld.key, List.cons.injEq] at hk
    exact hk.2.2.1
  unfold State.setRetired
  rw [hwr, hwr, hwr]

theorem DieRetired.setRetired (h : DieRetired k s) (b : Nat) : DieRetired k (s.setRetired b 6) := by
  by_cases hb : k = b
  · rw [hb]
    exact setRetired_dieRetired s b
  · exact ⟨(setRetired_other hb s 6 _).trans h.1, (setRetired_other hb s 6 _).trans h.2⟩

theorem retireDie_retires {mine : List Nat} (hk : k ∈ mine) (s : State) (d : Nat) : DieRetired k (s.retireDie d mine) :=
  each_establishes (P := DieRetired k) hk (fun v => setRetired_dieRetired v k) (fun _ b h => h.setRetired b) _

theorem retireDie_mapped (s : State) (d : Nat) (mine : List Nat) (l : Nat) :
    (s.retireDie d mine).rd F.CL_LOG2PHYS_MAPPED l = s.rd F.CL_LOG2PHYS_MAPPED l := by
  refine (each_keeps (s.each mine State.readmitAll) (fun v => v.rd F.CL_LOG2PHYS_MAPPED l) fun v b _ => ?_).trans
    (each_keeps s (fun v => v.rd F.CL_LOG2PHYS_MAPPED l) fun v b _ => ?_)
  · exact (rd_wr_other _ _ _ _ _ _ _ _ (by decide)).trans ((rd_wr_other _ _ _ _ _ _ _ _ (by decide)).trans
      (rd_wr_other _ _ _ _ _ _ _ _ (by decide)))
  · exact (readmitAll_foot (Sub.refl _) (Foot.refl _ v)).rd _ _ _ (by decide)

theorem unmapLogical_mapped (s : State) (l : Nat) : (s.unmapLogical l).rd F.CL_LOG2PHYS_MAPPED l = 0 :=
  (rd_wr_other _ _ _ _ _ _ _ _ (by decide)).trans (rd_wr_same ..)

theorem unmapLogical_keeps_unmapped (h : s.rd F.CL_LOG2PHYS_MAPPED l = 0) (b : Nat) :
    (s.unmapLogical b).rd F.CL_LOG2PHYS_MAPPED l = 0 := by
  unfold State.unmapLogical
  rw [rd_wr_other _ _ _ _ _ _ _ _ (by decide), rd_wr_instance]
  split
  · rfl
  · exact h

/-- R96: a logical cluster that was mapped is unmapped, and one that was not stays so. -/
theorem each_unmapLogical {lost : List Nat} (h : l ∈ lost ∨ s.rd F.CL_LOG2PHYS_MAPPED l = 0) :
    (s.each lost State.unmapLogical).rd F.CL_LOG2PHYS_MAPPED l = 0 := by
  have hkeep (v : State) (b : Nat) (hv : v.rd F.CL_LOG2PHYS_MAPPED l = 0) : (v.unmapLogical b).rd F.CL_LOG2PHYS_MAPPED l = 0 :=
    unmapLogical_keeps_unmapped hv b
  rcases h with hl | hz
  · exact each_establishes (P := fun v => v.rd F.CL_LOG2PHYS_MAPPED l = 0) hl (fun v => unmapLogical_mapped v l) hkeep s
  · induction lost generalizing s with
    | nil => exact hz
    | cons b lost ih => exact ih (hkeep s b hz)

theorem mem_dieMapped {n : Nat} (hn : n < 100) :
    100 * d + n ∈ s.dieMapped d ∨ s.rd F.CL_LOG2PHYS_MAPPED (100 * d + n) = 0 := by
  by_cases h : s.rd F.CL_LOG2PHYS_MAPPED (100 * d + n) = 0
  · exact .inr h
  · refine .inl (List.mem_filter.mpr ⟨List.mem_map.mpr ⟨n, List.mem_range.mpr hn, rfl⟩, ?_⟩)
    rw [flag_eq, bne_iff_ne]
    exact h

/-- R96: a lost core die has its active clusters RETIRED, and serves no logical cluster. -/
theorem coreDieLoss_loses (hk : k ∈ dieClusters d) (ha : s.clState k = clActive) : DieRetired k (s.coreDieLoss d) ∧
    ∀ n < 100, (s.coreDieLoss d).flag F.CL_LOG2PHYS_MAPPED (100 * d + n) = false := by
  have hmine : k ∈ s.dieClustersLost d := List.mem_filter.mpr ⟨hk, by rw [ha]; rfl⟩
  have hsome : (s.dieClustersLost d).isEmpty = false := List.isEmpty_eq_false_iff.mpr (List.ne_nil_of_mem hmine)
  have hretired := retireDie_retires hmine s d
  have hkept := retireDie_mapped s d (s.dieClustersLost d)
  rw [coreDieLoss_eq hsome]
  generalize s.retireDie d (s.dieClustersLost d) = w at hretired hkept ⊢
  have hback := takeBackAll_foot (lost := s.dieMapped d) (Sub.refl _) (Foot.refl _ (w.each (s.dieMapped d) State.unmapLogical))
  have hend := endDieLoss_foot ((w.each (s.dieMapped d) State.unmapLogical).takeBackAll (s.dieMapped d)) d (s.dieClustersLost d)
    ((s.dieMapped d).map (s.rd F.CL_LOG2PHYS_PHYS))
  have hunmap : Foot 0x1000000000000000000000000000000000 w (w.each (s.dieMapped d) State.unmapLogical) :=
    each_foot' (Foot.refl _ w) (fun _ _ h => unmapLogical_foot (Sub.refl _) h)
  obtain ⟨hstate, hcause⟩ := hretired
  refine ⟨⟨?_, ?_⟩, fun n hn => ?_⟩
  · exact (hend.rd _ _ _ (by decide)).trans ((hback.rd _ _ _ (by decide)).trans ((hunmap.rd _ _ _ (by decide)).trans hstate))
  · exact (hend.rd _ _ _ (by decide)).trans ((hback.rd _ _ _ (by decide)).trans ((hunmap.rd _ _ _ (by decide)).trans hcause))
  · rw [flag_eq, hend.rd _ _ _ (by decide), hback.rd _ _ _ (by decide), each_unmapLogical]
    · rfl
    · rw [hkept]
      exact mem_dieMapped hn

end Sys2Proof.Machine
end

section
/-!
SUPPORT. An operation that settles: what it has committed stays, or the operation is over (R155, R158, R164).
-/

namespace Sys2Proof.Machine

variable {s t u : State} {x c : Nat}

/-- From `s` to `t` the operation of context x keeps what it has committed, and the items that wait for the next one. -/
structure OpKept (x : Nat) (s t : State) : Prop where
  committed : (t.op x).committed = (s.op x).committed
  early : (t.op x).early = (s.op x).early

theorem OpKept.of_ctx (h : t.ctx = s.ctx) : OpKept x s t := by
  exact ⟨by unfold State.op; rw [h], by unfold State.op; rw [h]⟩

theorem OpKept.refl (x : Nat) (s : State) : OpKept x s s := ⟨rfl, rfl⟩

theorem OpKept.trans (h : OpKept x s t) (h' : OpKept x t u) : OpKept x s u :=
  ⟨h'.committed.trans h.committed, h'.early.trans h.early⟩

theorem OpKept.each {α : Type} {l : List α} {g : State → α → State} (h : OpKept x s t) (hg : ∀ v a, OpKept x v (g v a)) :
    OpKept x s (t.each l g) := by
  induction l generalizing t with
  | nil => exact h
  | cons a l ih => exact ih (h.trans (hg t a))

theorem setOp_op (s : State) (x : Nat) (f : OpCtx → OpCtx) : (s.setOp x f).op x = f (s.op x) := SMap.get_upd_same _ _ _

@[simp] theorem setOp_rd (s : State) (x : Nat) (f : OpCtx → OpCtx) (g : Fld) (i j : Nat) : (s.setOp x f).rd g i j = s.rd g i j := rfl

theorem setOp_opKept (s : State) (x : Nat) (f : OpCtx → OpCtx) (hc : (f (s.op x)).committed = (s.op x).committed)
    (he : (f (s.op x)).early = (s.op x).early) : OpKept x s (s.setOp x f) :=
  ⟨(congrArg OpCtx.committed (setOp_op ..)).trans hc, (congrArg OpCtx.early (setOp_op ..)).trans he⟩

theorem publish_ctx (s : State) (a r : Nat) (item : Item) (ts : List Target) : (s.publish a r item ts).ctx = s.ctx := by
  have halloc := (allocNow_foot (item := item) (account := a) (requester := r) (Sub.refl _) (Foot.refl _ s)).ctx (by decide)
  unfold State.publish
  split
  · next p w h =>
    rw [h] at halloc
    have hwrite : (w.countWrite p a).ctx = w.ctx := each_keeps w State.ctx (fun _ _ _ => rfl)
    rw [(multicast_foot (Sub.refl _) (Foot.refl _ _)).ctx (by decide), hwrite, halloc]
  · next w h =>
    rw [h] at halloc
    exact halloc

theorem output_opKept (s : State) (x a r : Nat) (item : Item) (ts : List Target) : OpKept x s (s.output x a r item ts) := by
  unfold State.output
  split
  · exact .refl x s
  · exact (setOp_opKept s x _ rfl rfl).trans (.of_ctx (publish_ctx ..))

/-- R158: an operation whose counts are met goes to FLUSH. -/
def State.enterFlush (s : State) (x : Nat) : State :=
  if s.ctxState x = ctxOpen ∧ s.restoring x = false ∧ s.countsMet x = true then
    let s := (s.wr F.OPC_STATE_STATE ctxFlush x).mark (.flush x)
    if s.kind x = kBarrier ∧ s.level (s.lastOf x) = levelUpper then
      s.output x (s.lastOf x) reqMgt (.swatch (signalHeader skToken x (s.opnum x) 0 0) []) (s.levelTargets x (s.opnum x) skToken)
    else s
  else s

theorem settleCore_eq (s : State) (x : Nat) : s.settleCore x =
    if (s.enterFlush x).ctxState x = ctxFlush ∧ (s.enterFlush x).produced x = true ∧
        ((s.enterFlush x).op x).departed = ((s.enterFlush x).op x).made ∧ (s.enterFlush x).marked (.flush x) 2 = false then
      ((s.enterFlush x).mark (.done x), [.close x stDone])
    else (s.enterFlush x, []) := rfl

theorem enterFlush_opKept (s : State) (x : Nat) : OpKept x s (s.enterFlush x) := by
  have hstate : OpKept x s ((s.wr F.OPC_STATE_STATE ctxFlush x).mark (.flush x)) := .of_ctx rfl
  unfold State.enterFlush
  split
  · dsimp only
    split
    · exact hstate.trans (output_opKept _ x _ _ _ _)
    · exact hstate
  · exact .refl x s

/-- R158, R164: an operation that settles keeps what it has committed, and either it is done or nothing follows. -/
theorem settleCore_opKept (s : State) (x : Nat) : OpKept x s (s.settleCore x).1 ∧
    ((s.settleCore x).2 = [] ∨ (s.settleCore x).2 = [.close x stDone] ∧ (s.settleCore x).1.ctxState x = ctxFlush) := by
  have hflush := enterFlush_opKept s x
  rw [settleCore_eq]
  split
  · next h => exact ⟨hflush.trans (.of_ctx rfl), .inr ⟨rfl, h.1⟩⟩
  · exact ⟨hflush, .inl rfl⟩

/-- R155: an operation that closes is followed by the next. -/
theorem closeCount_opnum (s : State) (x n v : Nat) :
    (s.closeCount x n v stDone).opnum x = (s.opnum x + 1) % 2 ^ F.NUM_OPSEQ_OPNUM.width := by
  have hrecords (w : State) : (w.sendRecords x stDone).rd F.NUM_OPSEQ_OPNUM x = w.rd F.NUM_OPSEQ_OPNUM x :=
    (sendRecords_foot (Sub.refl _) (Foot.refl _ w)).rd _ _ _ (by decide)
  have hrecovery (w : State) : (w.closeRecovery x stDone).rd F.NUM_OPSEQ_OPNUM x = w.rd F.NUM_OPSEQ_OPNUM x :=
    (closeRecovery_foot (Sub.refl _) (Foot.refl _ w)).rd _ _ _ (by decide)
  have hother (w : State) (f : Fld) (b i : Nat) (h : F.NUM_OPSEQ_OPNUM.key 0 0 ≠ f.key 0 0) :
      (w.wr f b i).rd F.NUM_OPSEQ_OPNUM x = w.rd F.NUM_OPSEQ_OPNUM x := rd_wr_other _ _ _ _ _ _ _ _ h
  have hcount (w : State) (f : Fld) (i : Nat) (h : F.NUM_OPSEQ_OPNUM.key 0 0 ≠ f.key 0 0) :
      (w.inc f 1 i).rd F.NUM_OPSEQ_OPNUM x = w.rd F.NUM_OPSEQ_OPNUM x := rd_inc_other _ _ _ _ _ _ _ _ h
  unfold State.closeCount State.opnum
  dsimp only
  rw [rd_with_sched, setOp_rd, hother _ F.OPC_STATE_EARLY _ _ (by decide), hother _ F.OPC_STATE_DESCS _ _ (by decide),
    hother _ F.OPC_STATE_STATE _ _ (by decide), rd_incWrap_same, hrecovery, if_pos rfl, hcount _ F.LST_OPS_DONE _ (by decide),
    hcount _ F.OPC_OPS_DONE _ (by decide), hrecords, hother _ F.OPC_STATE_STATUS _ _ (by decide)]

theorem keepEarly_opnum (s : State) (x : Nat) (l : List HeldItem) : (s.keepEarly x l).opnum x = s.opnum x :=
  (rd_wr_other _ _ _ _ _ _ _ _ (by decide)).trans rfl

/-- R155: an operation that is done closes, and with nothing held for the next one nothing follows. -/
theorem closeCore_done (hs : s.ctxState x = ctxFlush) (he : (s.op x).early = []) : (s.closeCore x stDone).2 = [] ∧
    (s.closeCore x stDone).1.opnum x = (s.opnum x + 1) % 2 ^ F.NUM_OPSEQ_OPNUM.width := by
  have hopen : ¬ (s.ctxState x = ctxIdle ∨ s.ctxState x = ctxUndeclared ∨ s.ctxState x = ctxClosing) := by
    rw [hs]
    decide
  have hepoch (w : State) (v : Nat) : w.closeEpoch x v stDone = (w, []) := by
    unfold State.closeEpoch
    dsimp only
    rw [bne_self_eq_false, Bool.and_false, Bool.false_and]
    rfl
  unfold State.closeCore
  rw [if_neg hopen]
  dsimp only
  rw [hepoch, he]
  dsimp only
  have hopnum : (((((s.closeRelease x (s.opnum x) (s.op x)).notEarly x).closeCount x (s.opnum x) (s.lastOf x) stDone).closeAbort x
      (s.opnum x) (s.lastOf x) stDone)).opnum x = (s.opnum x + 1) % 2 ^ F.NUM_OPSEQ_OPNUM.width := by
    refine ((closeAbort_foot (Sub.refl _) (Foot.refl _ _)).rd _ _ _ (by decide)).trans ((closeCount_opnum ..).trans ?_)
    unfold State.opnum
    rw [(notEarly_foot (Sub.refl _) (Foot.refl _ _)).rd _ _ _ (by decide),
      (closeRelease_foot (Sub.refl _) (Foot.refl _ _)).rd _ _ _ (by decide)]
  split
  · exact ⟨rfl, (keepEarly_opnum ..).trans hopnum⟩
  · split
    · exact ⟨rfl, (keepEarly_opnum ..).trans hopnum⟩
    · exact ⟨rfl, hopnum⟩

theorem runWork_nil (n : Nat) (s : State) : runWork n s [] = s := by
  cases n <;> rfl

theorem runWork_settle (n : Nat) (s : State) (x : Nat) :
    runWork (n + 1) s [.settle x] = runWork n (s.settleCore x).1 ((s.settleCore x).2 ++ []) := rfl

theorem runWork_close (n : Nat) (s : State) (x status : Nat) :
    runWork (n + 1) s [.close x status] = runWork n (s.closeCore x status).1 ((s.closeCore x status).2 ++ []) := rfl

theorem work_settle_fuel (s : State) (x : Nat) : ∃ n, s.work [.settle x] = runWork (n + 2) s [.settle x] := by
  unfold State.work State.workFuel
  exact ⟨_ + 98, rfl⟩

/-- The operation number of a context goes on when it closes, whatever it was. -/
theorem next_opnum_ne (n w : Nat) (hw : 0 < w) : (n + 1) % 2 ^ w ≠ n := by
  intro h
  have hlt : n < 2 ^ w := h ▸ Nat.mod_lt _ (Nat.two_pow_pos w)
  have htwo : 2 ^ 1 ≤ 2 ^ w := Nat.pow_le_pow_right (by omega) hw
  rcases Nat.lt_or_eq_of_le (Nat.succ_le_of_lt hlt) with hn | hn
  · rw [Nat.mod_eq_of_lt hn] at h
    omega
  · rw [show n + 1 = 2 ^ w from hn, Nat.mod_self] at h
    omega

/-- R155, R158: work on an operation that settles leaves what it has committed, while the operation is the same. -/
theorem work_settle (he : (s.op x).early = []) (hn : (s.work [.settle x]).opnum x = s.opnum x) :
    s.work [.settle x] = (s.settleCore x).1 := by
  obtain ⟨n, hwork⟩ := work_settle_fuel s x
  obtain ⟨hkept, hmore⟩ := settleCore_opKept s x
  rw [hwork, runWork_settle] at hn ⊢
  rcases hmore with hnone | ⟨hclose, hflush⟩
  · rw [hnone]
    exact runWork_nil ..
  · obtain ⟨hlast, hopnum⟩ := closeCore_done hflush (hkept.early.trans he)
    rw [hclose, List.append_nil, runWork_close, hlast, List.append_nil, runWork_nil, hopnum] at hn
    have hsame : (s.settleCore x).1.opnum x = s.opnum x := (settleCore_foot (Sub.refl _) (Foot.refl _ s)).rd _ _ _ (by decide)
    rw [hsame] at hn
    exact absurd hn (next_opnum_ne _ _ (by decide))

end Sys2Proof.Machine
end

section
/-!
SUPPORT. The commit of a chunk (R78 to R80).
-/

namespace Sys2Proof.Machine

variable {s t u w : State} {x c k : Nat} {ch : Chunk} {ev : ChunkEv}

/-! What a commit does last. -/

theorem releaseInputs_opKept (s : State) (x c : Nat) (ch : Chunk) (errs : Option (List UlpErr)) (n : Nat) :
    OpKept x s (s.releaseInputs x c ch errs n) := by
  have hgone (v : State) (f : OpCtx → List Accepted) (h : v.ctx = s.ctx) :
      OpKept x s (v.setOp x (fun o => { o with inputs := f o })) :=
    (OpKept.of_ctx h).trans (setOp_opKept v x _ rfl rfl)
  have hdrop (l : List Arrived) : (s.each l State.dropArrived).ctx = s.ctx :=
    each_keeps s State.ctx (fun v a _ => (dropArrived_foot (Sub.refl _) (Foot.refl _ v)).ctx (by decide))
  unfold State.releaseInputs
  dsimp only
  split
  · exact hgone _ _ (hdrop _)
  split
  · exact hgone _ _ rfl
  split
  · exact hgone _ _ rfl
  · exact hgone _ _ (hdrop _)

theorem dropChunk_none (s : State) (x c : Nat) : (s.dropChunk x c).chunk x c = none := by
  unfold State.dropChunk
  split
  · assumption
  · rw [chunk_congr ((syncChunk_foot (Sub.refl _) (Foot.refl _ _)).comp (by decide)), setChunk_chunk]

/-- R78, R79, R158: a chunk is committed, leaves its cluster, and its operation settles. -/
def State.finishCommit (s : State) (x c : Nat) (ch : Chunk) (errs : Option (List UlpErr)) (n : Nat) : State :=
  (((s.markCommitted x c ch).releaseInputs x c ch errs n).dropChunk x c).work [.settle x]

/-- What the last steps of a commit leave: the operation notes the chunk, which is gone, and its cluster counts it. -/
structure Finished (x c k : Nat) (s t : State) : Prop where
  ops : t.opnum x = s.opnum x → (t.op x).committed = (s.op x).committed ++ [c] ∧ t.chunk x c = none
  chunks : t.rd F.CL_CHUNKS_COUNT k = min (s.rd F.CL_CHUNKS_COUNT k + 1) (2 ^ F.CL_CHUNKS_COUNT.width - 1)
  sat : t.rd F.NUM_SAT_COUNT x = s.rd F.NUM_SAT_COUNT x
  underflow : t.rd F.NUM_UNDERFLOW_COUNT x = s.rd F.NUM_UNDERFLOW_COUNT x

theorem markCommitted_committed (s : State) (x c : Nat) (ch : Chunk) :
    ((s.markCommitted x c ch).op x).committed = (s.op x).committed ++ [c] :=
  congrArg OpCtx.committed (setOp_op s x (fun o => { o with committed := o.committed ++ [c] }))

theorem markCommitted_early (s : State) (x c : Nat) (ch : Chunk) : ((s.markCommitted x c ch).op x).early = (s.op x).early :=
  (congrArg OpCtx.early (setOp_op s x (fun o => { o with committed := o.committed ++ [c] }))).trans rfl

theorem markCommitted_counts (s : State) (x c : Nat) (ch : Chunk) : (s.markCommitted x c ch).rd F.CL_CHUNKS_COUNT ch.cluster =
    min (s.rd F.CL_CHUNKS_COUNT ch.cluster + 1) (2 ^ F.CL_CHUNKS_COUNT.width - 1) := by
  unfold State.markCommitted
  rw [rd_inc_same, setOp_rd]

theorem finishCommit_finished (errs : Option (List UlpErr)) (n : Nat) (he : (s.op x).early = []) :
    Finished x c ch.cluster s (s.finishCommit x c ch errs n) := by
  let m := s.markCommitted x c ch
  let r := m.releaseInputs x c ch errs n
  have hmark : Foot _ s m := markCommitted_foot (Sub.refl _) (Foot.refl _ s)
  have hrelease : Foot _ m r := releaseInputs_foot (Sub.refl _) (Foot.refl _ m)
  have hdrop : Foot _ r (r.dropChunk x c) := dropChunk_foot (Sub.refl _) (Foot.refl _ r)
  have hwork : Foot _ (r.dropChunk x c) (s.finishCommit x c ch errs n) := work_foot (Sub.refl _) (Foot.refl _ _)
  have hkept : OpKept x m (r.dropChunk x c) := (releaseInputs_opKept m x c ch errs n).trans (.of_ctx (hdrop.ctx (by decide)))
  have hrest {f : Fld} {i : Nat} (h1 : _ = false) (h2 : _ = false) (h3 : _ = false) : (s.finishCommit x c ch errs n).rd f i = m.rd f i :=
    (hwork.rd f i 0 h1).trans ((hdrop.rd f i 0 h2).trans (hrelease.rd f i 0 h3))
  have hopnum : (r.dropChunk x c).opnum x = s.opnum x :=
    (hdrop.rd _ _ _ (by decide)).trans ((hrelease.rd _ _ _ (by decide)).trans (hmark.rd _ _ _ (by decide)))
  refine ⟨fun hn => ?_, ?_, ?_, ?_⟩
  · have hsettle : s.finishCommit x c ch errs n = ((r.dropChunk x c).settleCore x).1 :=
      work_settle ((hkept.early.trans (markCommitted_early ..)).trans he) (hn.trans hopnum.symm)
    rw [hsettle, (settleCore_opKept _ x).1.committed, hkept.committed, markCommitted_committed,
      chunk_congr ((settleCore_foot (Sub.refl _) (Foot.refl _ _)).comp (by decide)), dropChunk_none]
    exact ⟨rfl, rfl⟩
  · exact (hrest (by decide) (by decide) (by decide)).trans (markCommitted_counts ..)
  · exact (hrest (by decide) (by decide) (by decide)).trans (hmark.rd _ _ _ (by decide))
  · exact (hrest (by decide) (by decide) (by decide)).trans (hmark.rd _ _ _ (by decide))

/-! What a commit does first: its objects are stored and sent, and what the chunk counted becomes visible (R80, R150). -/

/-- The state before the last steps of a commit: the operation goes on, and the chunk's events are counted. -/
structure Committing (x : Nat) (ev : ChunkEv) (s t : State) : Prop where
  kept : OpKept x s t
  opnum : t.opnum x = s.opnum x
  chunks : ∀ k, t.rd F.CL_CHUNKS_COUNT k = s.rd F.CL_CHUNKS_COUNT k
  sat : t.rd F.NUM_SAT_COUNT x = min (s.rd F.NUM_SAT_COUNT x + ev.sat) (2 ^ F.NUM_SAT_COUNT.width - 1)
  underflow : t.rd F.NUM_UNDERFLOW_COUNT x = min (s.rd F.NUM_UNDERFLOW_COUNT x + ev.underflow) (2 ^ F.NUM_UNDERFLOW_COUNT.width - 1)

theorem countEvents_flags (s : State) (x : Nat) (ev : ChunkEv) : Foot 0x10000000000000000000000000
    ((((s.inc F.NUM_SAT_COUNT ev.sat x).inc F.NUM_NONFIN_IN_COUNT ev.nonfinIn x).inc F.NUM_NONFIN_GEN_COUNT ev.nonfinGen x).inc
      F.NUM_UNDERFLOW_COUNT ev.underflow x) (s.countEvents x ev) := by
  unfold State.countEvents
  exact ite_foot (ite_foot (Foot.refl _ _) (wr_foot (by decide) (Foot.refl _ _))) (wr_foot (by decide) (ite_foot (Foot.refl _ _)
    (wr_foot (by decide) (Foot.refl _ _))))

theorem countEvents_sat (s : State) (x : Nat) (ev : ChunkEv) : (s.countEvents x ev).rd F.NUM_SAT_COUNT x =
    min (s.rd F.NUM_SAT_COUNT x + ev.sat) (2 ^ F.NUM_SAT_COUNT.width - 1) := by
  have hcount : ((((s.inc F.NUM_SAT_COUNT ev.sat x).inc F.NUM_NONFIN_IN_COUNT ev.nonfinIn x).inc F.NUM_NONFIN_GEN_COUNT
      ev.nonfinGen x).inc F.NUM_UNDERFLOW_COUNT ev.underflow x).rd F.NUM_SAT_COUNT x =
      min (s.rd F.NUM_SAT_COUNT x + ev.sat) (2 ^ F.NUM_SAT_COUNT.width - 1) := by
    rw [rd_inc_other _ _ _ _ _ _ _ _ (by decide), rd_inc_other _ _ _ _ _ _ _ _ (by decide),
      rd_inc_other _ _ _ _ _ _ _ _ (by decide), rd_inc_same]
  exact (countEvents_flags s x ev).rd F.NUM_SAT_COUNT x 0 (by decide) |>.trans hcount

theorem countEvents_underflow (s : State) (x : Nat) (ev : ChunkEv) : (s.countEvents x ev).rd F.NUM_UNDERFLOW_COUNT x =
    min (s.rd F.NUM_UNDERFLOW_COUNT x + ev.underflow) (2 ^ F.NUM_UNDERFLOW_COUNT.width - 1) := by
  refine ((countEvents_flags s x ev).rd F.NUM_UNDERFLOW_COUNT x 0 (by decide)).trans ?_
  rw [rd_inc_same, rd_inc_other _ _ _ _ _ _ _ _ (by decide), rd_inc_other _ _ _ _ _ _ _ _ (by decide),
    rd_inc_other _ _ _ _ _ _ _ _ (by decide)]

theorem Committing.count (hk : OpKept x s w) (hf : Foot 0x36600000000000000000000000000000000067a640000000000000000000000000000000000000 s w) (ev : ChunkEv) :
    Committing x ev s (w.countEvents x ev) := by
  have hcount := countEvents_foot (x := x) (ev := ev) (Sub.refl _) (Foot.refl _ w)
  refine ⟨hk.trans (.of_ctx (hcount.ctx (by decide))), ?_, fun k => ?_, ?_, ?_⟩
  · exact (hcount.rd _ _ _ (by decide)).trans (hf.rd _ _ _ (by decide))
  · exact (hcount.rd _ _ _ (by decide)).trans (hf.rd _ _ _ (by decide))
  · rw [countEvents_sat, hf.rd _ _ _ (by decide)]
  · rw [countEvents_underflow, hf.rd _ _ _ (by decide)]

theorem Committing.goOn (h : Committing x ev s t) (hk : OpKept x t u)
    (hf : Foot 0xa06000000000000002000000410100000000000000000000000010000000000000000000000000 t u) : Committing x ev s u := by
  obtain ⟨hkept, hopnum, hchunks, hsat, hunderflow⟩ := h
  exact ⟨hkept.trans hk, (hf.rd _ _ _ (by decide)).trans hopnum, fun k => (hf.rd _ _ _ (by decide)).trans (hchunks k),
    (hf.rd _ _ _ (by decide)).trans hsat, (hf.rd _ _ _ (by decide)).trans hunderflow⟩

/-- R79, R80: what a commit leaves. -/
structure Commits (x c k : Nat) (ev : ChunkEv) (s t : State) : Prop where
  ops : t.opnum x = s.opnum x → (t.op x).committed = (s.op x).committed ++ [c] ∧ t.chunk x c = none
  chunks : t.rd F.CL_CHUNKS_COUNT k = min (s.rd F.CL_CHUNKS_COUNT k + 1) (2 ^ F.CL_CHUNKS_COUNT.width - 1)
  sat : t.rd F.NUM_SAT_COUNT x = min (s.rd F.NUM_SAT_COUNT x + ev.sat) (2 ^ F.NUM_SAT_COUNT.width - 1)
  underflow : t.rd F.NUM_UNDERFLOW_COUNT x = min (s.rd F.NUM_UNDERFLOW_COUNT x + ev.underflow) (2 ^ F.NUM_UNDERFLOW_COUNT.width - 1)

theorem Committing.finish (h : Committing x ev s t) (errs : Option (List UlpErr)) (n : Nat) (he : (s.op x).early = []) :
    Commits x c ch.cluster ev s (t.finishCommit x c ch errs n) := by
  obtain ⟨hops, hchunks, hsat, hunderflow⟩ := finishCommit_finished (c := c) (ch := ch) errs n (h.kept.early.trans he)
  refine ⟨fun hn => ?_, ?_, hsat.trans h.sat, hunderflow.trans h.underflow⟩
  · rw [← h.kept.committed]
    exact hops (hn.trans h.opnum.symm)
  · rw [hchunks, h.chunks]

/-- The objects of a result, one for each part of its bytes (R150). -/
def State.resultItems (s : State) (x c : Nat) (ch : Chunk) (el : List Elem) : List (SwHeader × List Byte) :=
  let parts := resultParts (fmtCap (s.outFmt x)) (s.rootOut x c ch el).bytes
  parts.zipIdx.map (fun p => (({
    skind := skResult, partsM1 := parts.length - 1, part := p.2, context := x, opnum := s.opnum x, chunk := c
    length := p.1.length } : SwHeader), p.1))

/-- R150, R215: the objects of a result go to their targets. -/
def State.sendResults (s : State) (x c account req : Nat) (l : List ((SwHeader × List Byte) × Nat)) : State :=
  s.each l (fun s p =>
    let ts := s.rootTargets x c p.1.1
    let s := s.countAccess F.INS_GROUP_SCHED_ACCESSES p.2
    (s.setOp x (fun o => { o with made := o.made + ts.length })).multicast p.2 account req ts)

theorem countAccess_ctx (s : State) (f : Fld) (p : Nat) : (s.countAccess f p).ctx = s.ctx :=
  each_keeps s State.ctx (fun _ _ _ => rfl)

theorem setOp_made (s : State) (x n : Nat) : OpKept x s (s.setOp x (fun o => { o with made := o.made + n })) :=
  setOp_opKept s x _ rfl rfl

theorem sendResults_opKept (s : State) (x c account req : Nat) (l : List ((SwHeader × List Byte) × Nat)) :
    OpKept x s (s.sendResults x c account req l) :=
  OpKept.each (.refl x s) fun v p =>
    ((OpKept.of_ctx (countAccess_ctx v F.INS_GROUP_SCHED_ACCESSES p.2)).trans
      (setOp_made _ x (v.rootTargets x c p.1.1).length)).trans
        (.of_ctx ((multicast_foot (Sub.refl _) (Foot.refl _ _)).ctx (by decide)))

theorem sendResults_foot (x c account req : Nat) (l : List ((SwHeader × List Byte) × Nat))
    (h : Foot 0x36600000000000000000000000000000000067a640000000000000000000000000000000000000 s w) : Foot 0x36600000000000000000000000000000000067a640000000000000000000000000000000000000 s
      (w.sendResults x c account req l) :=
  each_foot' h fun _ _ hv => multicast_foot ((Sub.refl _).sub (by decide)) (setOp_foot ((Sub.refl _).sub (by decide))
    (countAccess_foot ((Sub.refl _).sub (by decide)) (by decide) hv))

/-- R80, R124, R128: the record of a result is updated, and its warm-up shows. -/
def State.noteRecord (s : State) (x c : Nat) (ch : Chunk) (out : RootOut) (ev : ChunkEv) : State :=
  let block := (blockFmt (s.outFmt x)).isSome
  let warm := s.roundsOutput x && block && (match ch.record with
    | none => true
    | some r => r.warm != 0)
  let s := if warm then s.wr F.OPC_STATE_WARM 1 x else s
  match ch.record with
  | none => s
  | some r => ((s.dropWarm x ch).setChunk x c (some { ch with rewarmed := false })).updateRecord x c r out ev (clDie ch.cluster)

theorem noteRecord_opKept (s : State) (x c : Nat) (ch : Chunk) (out : RootOut) (ev : ChunkEv) :
    OpKept x s (s.noteRecord x c ch out ev) := by
  have hupdate (v : State) (r : NumRec) (h : v.ctx = s.ctx) : OpKept x s (((v.dropWarm x ch).setChunk x c
      (some { ch with rewarmed := false })).updateRecord x c r out ev (clDie ch.cluster)) :=
    .of_ctx (((updateRecord_foot (Sub.refl _) (Foot.refl _ _)).ctx (by decide)).trans
      (((dropWarm_foot (Sub.refl _) (Foot.refl _ v)).ctx (by decide)).trans h))
  have hwarm (b : Bool) : (if b then s.wr F.OPC_STATE_WARM 1 x else s).ctx = s.ctx := by
    split <;> rfl
  unfold State.noteRecord
  dsimp only
  split
  · exact .of_ctx (hwarm _)
  · exact hupdate _ _ (hwarm _)

theorem noteRecord_foot (s : State) (x c : Nat) (ch : Chunk) (out : RootOut) (ev : ChunkEv) :
    Foot 0xa06000000000000002000000410100000000000000000000000010000000000000000000000000 s (s.noteRecord x c ch out ev) := by
  have hwarm (b : Bool) : Foot 0xa06000000000000002000000410100000000000000000000000010000000000000000000000000 s
      (if b then s.wr F.OPC_STATE_WARM 1 x else s) := ite_foot (wr_foot (by decide) (Foot.refl _ s)) (Foot.refl _ s)
  unfold State.noteRecord
  dsimp only
  split
  · exact hwarm _
  · exact updateRecord_foot ((Sub.refl _).sub (by decide)) (setChunk_foot ((Sub.refl _).sub (by decide)) (dropWarm_foot
      ((Sub.refl _).sub (by decide)) (hwarm _)))

theorem commitResult_eq {el : List Elem} {ptrs : List Nat} (hw : s.allocAll ch.last (reqCore (clDie ch.cluster))
    ((s.resultItems x c ch el).map (fun i => .swatch i.1 i.2)) = some (ptrs, w)) : ∃ errs n, s.commitResult x c ch el =
      (((w.sendResults x c ch.last (reqCore (clDie ch.cluster)) ((s.resultItems x c ch el).zip ptrs)).countEvents x
        (ch.ev.add (s.rootOut x c ch el).ev)).noteRecord x c ch (s.rootOut x c ch el)
          (ch.ev.add (s.rootOut x c ch el).ev)).finishCommit x c ch errs n := by
  unfold State.commitResult
  dsimp only
  split
  · next h => cases h.symm.trans hw
  · next h =>
    cases h.symm.trans hw
    exact ⟨_, _, rfl⟩

/-- R79, R150: a result whose objects have their buffers is committed. -/
theorem commitResult_commits {el : List Elem} (ha : (s.allocAll ch.last (reqCore (clDie ch.cluster))
    ((s.resultItems x c ch el).map (fun i => .swatch i.1 i.2))).isSome = true) (he : (s.op x).early = []) :
    Commits x c ch.cluster (ch.ev.add (s.rootOut x c ch el).ev) s (s.commitResult x c ch el) := by
  obtain ⟨⟨ptrs, w⟩, hw⟩ := Option.isSome_iff_exists.mp ha
  have halloc : Foot 0x36600000000000000000000000000000000067a640000000000000000000000000000000000000 s w :=
    allocAll_foot ((Sub.refl _).sub (by decide)) hw (Foot.refl _ s)
  have hctx : w.ctx = s.ctx := (allocAll_foot (Sub.refl _) hw (Foot.refl _ s)).ctx (by decide)
  obtain ⟨errs, n, hcommit⟩ := commitResult_eq hw
  rw [hcommit]
  refine ((Committing.count ((OpKept.of_ctx hctx).trans (sendResults_opKept ..)) (sendResults_foot _ _ _ _ _ halloc) _).goOn
    (noteRecord_opKept ..) (noteRecord_foot ..)).finish errs n he

/-! A partial, at a leaf (R112, R197). -/

/-- The objects of a partial, one for each part of its bytes (R112). -/
def State.partialItems (s : State) (x c : Nat) (ch : Chunk) (el : List Elem) : List (SwHeader × List Byte) :=
  let parts := resultParts 4096 (partialBytes (accCode (s.inFmt x) (s.operator x)) el)
  parts.zipIdx.map (fun p => (({
    skind := skPartial, partsM1 := parts.length - 1, part := p.2, context := x, opnum := s.opnum x, chunk := c
    rank := s.rd F.LST_SEG_INDEX ch.last, length := p.1.length, weight := s.rd F.LST_SEG_SIZE ch.last } : SwHeader), p.1))

/-- R197: the objects of a partial wait for their turn. -/
def State.holdPartials (s : State) (x c account req : Nat) (l : List ((SwHeader × List Byte) × Nat)) : State :=
  let j := s.spineOf x c
  s.each l (fun s p =>
    let s := s.countAccess F.INS_GROUP_SCHED_ACCESSES p.2
    let s := s.setOp x (fun o => { o with made := o.made + 1 })
    let h : HeldPartial := { last := account, spine := j, ptr := p.2, account, requester := req
                             target := s.spineTarget account j p.1.1 }
    { s with comp := { s.comp with parts := s.comp.parts ++ [h] } })

theorem holdPartials_opKept (s : State) (x c account req : Nat) (l : List ((SwHeader × List Byte) × Nat)) :
    OpKept x s (s.holdPartials x c account req l) :=
  OpKept.each (.refl x s) fun v p =>
    ((OpKept.of_ctx (countAccess_ctx v F.INS_GROUP_SCHED_ACCESSES p.2)).trans (setOp_made _ x 1)).trans (.of_ctx rfl)

theorem holdPartials_foot (x c account req : Nat) (l : List ((SwHeader × List Byte) × Nat))
    (h : Foot 0x36600000000000000000000000000000000067a640000000000000000000000000000000000000 s w) : Foot 0x36600000000000000000000000000000000067a640000000000000000000000000000000000000 s
      (w.holdPartials x c account req l) :=
  each_foot' h fun _ _ hv => foot_mk.mpr (parts_comp (by decide) (setOp_foot ((Sub.refl _).sub (by decide))
    (countAccess_foot ((Sub.refl _).sub (by decide)) (by decide) hv)).parts)

theorem sendPartial_opKept (s : State) (x : Nat) : OpKept x s (s.sendPartial x) := by
  have hnext (v : State) (h : v.ctx = s.ctx) : OpKept x s (v.setOp x (fun o => { o with partNext := o.partNext + 1 })) :=
    (OpKept.of_ctx h).trans (setOp_opKept v x _ rfl rfl)
  unfold State.sendPartial
  split
  · exact .refl x s
  · dsimp only
    split
    · exact .refl x s
    · exact OpKept.each (hnext _ rfl) fun v _ => .of_ctx ((multicast_foot (Sub.refl _) (Foot.refl _ v)).ctx (by decide))

theorem sendPartials_opKept (s : State) (x : Nat) : OpKept x s (s.sendPartials x) :=
  OpKept.each (.refl x s) fun v _ => sendPartial_opKept v x

theorem commitPartial_eq {el : List Elem} {ptrs : List Nat} (hw : s.allocAll ch.last (reqCore (clDie ch.cluster))
    ((s.partialItems x c ch el).map (fun i => .swatch i.1 i.2)) = some (ptrs, w)) : ∃ errs n, s.commitPartial x c ch el =
      (((w.holdPartials x c ch.last (reqCore (clDie ch.cluster)) ((s.partialItems x c ch el).zip ptrs)).sendPartials x).countEvents
        x ch.ev).finishCommit x c ch errs n := by
  unfold State.commitPartial
  dsimp only
  split
  · next h => cases h.symm.trans hw
  · next h =>
    cases h.symm.trans hw
    exact ⟨_, _, rfl⟩

/-- R79, R112: a partial whose objects have their buffers is committed. -/
theorem commitPartial_commits {el : List Elem} (ha : (s.allocAll ch.last (reqCore (clDie ch.cluster))
    ((s.partialItems x c ch el).map (fun i => .swatch i.1 i.2))).isSome = true) (he : (s.op x).early = []) :
    Commits x c ch.cluster ch.ev s (s.commitPartial x c ch el) := by
  obtain ⟨⟨ptrs, w⟩, hw⟩ := Option.isSome_iff_exists.mp ha
  have halloc : Foot 0x36600000000000000000000000000000000067a640000000000000000000000000000000000000 s w :=
    allocAll_foot ((Sub.refl _).sub (by decide)) hw (Foot.refl _ s)
  have hctx : w.ctx = s.ctx := (allocAll_foot (Sub.refl _) hw (Foot.refl _ s)).ctx (by decide)
  obtain ⟨errs, n, hcommit⟩ := commitPartial_eq hw
  rw [hcommit]
  exact (Committing.count (((OpKept.of_ctx hctx).trans (holdPartials_opKept ..)).trans (sendPartials_opKept ..))
    (sendPartials_foot ((Sub.refl _).sub (by decide)) (holdPartials_foot _ _ _ _ _ halloc)) _).finish errs n he

/-- R79: a chunk whose root is ready commits, as a partial at a leaf and as a result elsewhere. -/
theorem chunkCommit_eq {el : List Elem} (hc : s.chunk x c = some ch) (hr : ch.root = some el) (ht : ch.lastAt + 7 ≤ s.arith)
    (hn : s.hasRecord x c = true → ch.record ≠ none) (hk : s.kind x ≠ kParity) : s.chunkCommit x c =
      if s.level ch.last = levelSegment then s.commitPartial x c ch el else s.commitResult x c ch el := by
  have hready : ¬ (s.arith < ch.lastAt + 7 ∨ (s.hasRecord x c = true ∧ ch.record = none)) := by
    rintro (hlt | ⟨hrec, hnone⟩)
    · exact absurd hlt (Nat.not_lt.mpr ht)
    · exact hn hrec hnone
  unfold State.chunkCommit
  rw [hc]
  dsimp only
  rw [hr]
  dsimp only
  rw [if_neg hready, if_neg hk]

end Sys2Proof.Machine
end

section
/-!
SUPPORT. The instructions of O58.
-/

namespace Sys2Proof.Machine

variable {s : State} {x c d q : Nat}

theorem exec_chunkCommit (hs : s.active = true) (hx : x < 65536) : exec (.chunkCommit x c) s = .next (s.chunkCommit x c).settleAll :=
  onActive_eq (f := fun s => (s.chunkCommit x c).settleAll) (decide_eq_true hx) hs

theorem exec_numRecordArrive (hs : s.active = true) (hx : x < 65536) (bad : Bool) :
    exec (.numRecordArrive x c bad) s = .next (s.recordArrive x c bad) :=
  onActive_eq (f := fun s => s.recordArrive x c bad) (decide_eq_true hx) hs

theorem exec_spareSelfTestStart (hs : s.active = true) : exec .spareSelfTestStart s = .next s.spareTestStart :=
  onActive_eq (f := State.spareTestStart) rfl hs

theorem exec_spareSelfTestEnd (hs : s.active = true) (pass : Bool) : exec (.spareSelfTestEnd pass) s = .next (s.spareTestEnd pass) :=
  onActive_eq (f := fun s => s.spareTestEnd pass) rfl hs

theorem exec_coreDieLoss (hs : s.active = true) (hd : d < 4) : exec (.coreDieLoss d) s = .next (s.coreDieLoss d) :=
  onActive_eq (f := fun s => s.coreDieLoss d) (decide_eq_true hd) hs

theorem exec_monitorInputsRead (hs : s.active = true) (hd : d < 4) :
    exec (.monitorInputsRead d) s = .next (s.monitorRead d).settleAll :=
  onActive_eq (f := fun s => (s.monitorRead d).settleAll) (decide_eq_true hd) hs

theorem exec_shadowCheckComplete (hs : s.active = true) (hd : d < 4) :
    exec (.shadowCheckComplete d) s = .next (s.shadowComplete d) :=
  onActive_eq (f := fun s => s.shadowComplete d) (decide_eq_true hd) hs

theorem exec_spillFetchComplete (hs : s.active = true) (hx : x < 65536) (bad : Option Nat) :
    exec (.spillFetchComplete x c q bad) s = .next (s.spillFetched x c q bad).settleAll :=
  onActive_eq (f := fun s => (s.spillFetched x c q bad).settleAll) (decide_eq_true hx) hs

theorem exec_spillWritebackComplete (hs : s.active = true) (hx : x < 65536) :
    exec (.spillWritebackComplete x c q) s = .next (s.spillWritten x c q) :=
  onActive_eq (f := fun s => s.spillWritten x c q) (decide_eq_true hx) hs

/-- Settles O58: each instruction's effect is the lemma above of the operation that it runs. -/
theorem chunksAreCheckedAndCommitted : Obligations.ChunksAreCheckedAndCommitted := by
  unfold Obligations.ChunksAreCheckedAndCommitted
  refine ⟨?corrected, ?replay, ?retire, ?result, ?part, ?record, ?lost, ?testStart, ?testEnd, ?dieLoss, ?inputs, ?verdict, ?fetched,
    ?written⟩
  case corrected =>
    intro s k x n c node a m hs hk hx
    exact ⟨_, exec_checkVerdict hs hk hx n c node none a m, checkVerdict_corrected s k x n c node a m⟩
  case replay =>
    intro s x c ch k node path hs hx hc hk hp hcl hr hm
    obtain ⟨hcount, hreplays, hlast, d, e, he, ⟨ops, parts, room, rfl⟩, w, a, rfl⟩ :=
      checkVerdict_replays (node := node) (path := path) hc hp hcl hr (unadmitted_of_any hm)
    refine ⟨_, exec_checkVerdict hs hk hx .., hcount, hreplays, hlast, ?_, ?_⟩
    · rw [he]
      rfl
    · rw [he]
      rfl
  case retire =>
    intro s x c ch k node path hs hx hc hk hp hcl hr hm
    obtain ⟨hstate, hcause, d, hd, hplace, hahead, hreplays⟩ :=
      checkVerdict_retires (node := node) (path := path) hc hp hcl hr (unadmitted_of_any hm)
    refine ⟨_, exec_checkVerdict hs hk hx .., hstate, hcause, ?_⟩
    rw [hd, Option.map_some, hplace, hahead, hreplays]
  case result =>
    intro s x c ch el hs hx hc hroot ht hrec hkind hlevel he ha
    have hitems : (s.allocAll ch.last (reqCore (clDie ch.cluster)) ((s.resultItems x c ch el).map (fun i =>
        .swatch i.1 i.2))).isSome = true := by
      unfold State.resultItems
      rw [List.map_map]
      exact ha
    obtain ⟨hops, hchunks, hsat, hunderflow⟩ := commitResult_commits hitems he
    refine ⟨_, exec_chunkCommit hs hx, ?_⟩
    rw [chunkCommit_eq hc hroot ht hrec hkind, if_neg hlevel]
    exact ⟨hops, hchunks, hsat, hunderflow⟩
  case part =>
    intro s x c ch el hs hx hc hroot ht hrec hkind hlevel he ha
    have hitems : (s.allocAll ch.last (reqCore (clDie ch.cluster)) ((s.partialItems x c ch el).map (fun i =>
        .swatch i.1 i.2))).isSome = true := by
      unfold State.partialItems
      rw [List.map_map]
      exact ha
    obtain ⟨hops, hchunks, hsat, hunderflow⟩ := commitPartial_commits hitems he
    refine ⟨_, exec_chunkCommit hs hx, ?_⟩
    rw [chunkCommit_eq hc hroot ht hrec hkind, if_pos hlevel]
    exact ⟨hops, hchunks, hsat, hunderflow⟩
  case record =>
    intro s x c ch l hs hx hc hp hn hr ht hl
    exact ⟨_, exec_numRecordArrive hs hx false, recordArrive_read hc hp hn hr ht hl⟩
  case lost =>
    intro s x c ch hs hx hc hp hn hr ht
    exact ⟨_, exec_numRecordArrive hs hx true, recordArrive_lost hc hp hn hr ht⟩
  case testStart =>
    intro s k hs hi hk
    exact ⟨_, exec_spareSelfTestStart hs, spareTestStart_tests hi hk⟩
  case testEnd =>
    intro s k since pass hs hk ht
    exact ⟨_, exec_spareSelfTestEnd hs pass, spareTestEnd_ends pass hk ht⟩
  case dieLoss =>
    intro s die k hs hd hk ha
    obtain ⟨⟨hstate, hcause⟩, hmapped⟩ := coreDieLoss_loses hk ha
    exact ⟨_, exec_coreDieLoss hs hd, hstate, hcause, hmapped⟩
  case inputs =>
    intro s die smp hs hd hc hr ht
    exact ⟨_, exec_monitorInputsRead hs hd, monitorRead_reads hc hr ht⟩
  case verdict =>
    intro s die smp hs hd hc hr ht
    obtain ⟨hmonitor, hdone, hsamples, hagree, hwithin, hbeyond⟩ := shadowComplete_counted hc hr ht
    exact ⟨_, exec_shadowCheckComplete hs hd, hmonitor, hdone, hsamples, hagree, hwithin, hbeyond⟩
  case fetched =>
    intro s x c ch q j p hs hx hc hj hp hr ha hw hf
    obtain ⟨res, hres⟩ := spillFetched_back hc hj hp hr ha hw hf
    refine ⟨_, exec_spillFetchComplete hs hx none, ?_, ?_⟩
    · rw [hres]
      rfl
    · rw [hres, Option.map_some, fetched_slots]
  case written =>
    intro s x c ch q j p hs hx hc hj hp hr ha
    exact ⟨_, exec_spillWritebackComplete hs hx, spillWritten_away hc hj hp hr ha⟩

end Sys2Proof.Machine
end

section
/-!
SUPPORT. The state that refutes O54: a buffer is freed while the register of its account's count lists a value above the
23 bits of its field, which the count of the free, cut to the field, does not follow.
-/

namespace Sys2Proof.Machine

/-- Pool 0 has 64 buffers; cell 7 of it is held by account 2, whose count of held buffers stands at 2^23 + 5, above its
field of 23 bits. -/
def overHeld : State :=
  let s := (State.reset.wr F.BPM_POOL_CFG_COUNT 64 0).setTag 7 { held := true, account := 2 }
  { s with regs := s.regs.set (F.BPM_HELD_BUFFERS.key 2 0) (some (2 ^ 23 + 5)) }

theorem overHeld_active : overHeld.active = true := by decide +kernel

theorem overHeld_ptrFails : overHeld.ptrFails 7 2 none = none := by decide +kernel

theorem overHeld_serves : (overHeld.tag 7).next = 0 ∧ overHeld.gaveNow 0 (acctList 2) + 1 ≤ 16 ∧ overHeld.bpm.frees = [] := by
  decide +kernel

/-- What the free writes is cut to 23 bits: 4, while one less than the listed count is 2^23 + 4. -/
theorem overHeld_freed :
    ((overHeld.tagErrors 0 none false).freeObj 7 2 0).rd F.BPM_HELD_BUFFERS 2 0 = 4 ∧
      overHeld.rd F.BPM_HELD_BUFFERS 2 0 = 2 ^ 23 + 5 := by
  decide +kernel

theorem exec_bufferFree {s : State} {ptr account requester : Nat} (n : Nat) (hs : s.active = true) (hp : ptr < 2 ^ 32)
    (ha : account < 20) (hr : requester < 17) : exec (.bufferFree ptr account requester n none false) s =
      .next ((s.tagErrors n none false).freeObj ptr account requester) :=
  onActive_eq (f := fun s => (s.tagErrors n none false).freeObj ptr account requester)
    (decide_eq_true ⟨hp, ha, hr⟩) hs

end Sys2Proof.Machine
end

section
/-! SUPPORT. O54 fails at `overHeld`. -/

namespace Sys2Proof.Machine

/-- Refutes O54: its clause of the free that passes its checks (R273) takes one from BPM_HELD of the account, whatever the
register file lists, while the free writes the count cut to its field. In `overHeld` cell 7 of pool 0 is freed by its
account 2, whose count is listed as 2^23 + 5: it reads 4 afterwards. -/
theorem not_landingsAndBuffers : ¬ Obligations.LandingsAndBuffers := by
  unfold Obligations.LandingsAndBuffers
  rintro ⟨-, -, -, -, -, -, -, -, -, -, -, -, hfree, -⟩
  obtain ⟨hnext, hgave, hfrees⟩ := overHeld_serves
  obtain ⟨t, hexec, -, -, -, hheld, -⟩ := hfree overHeld 7 2 0 0 0 7 0 overHeld_active (by decide) (by decide) (by decide)
    overHeld_ptrFails rfl rfl rfl hnext hgave (by rw [hfrees]; rfl)
  rw [exec_bufferFree 0 overHeld_active (by decide) (by decide) (by decide)] at hexec
  obtain rfl := Host.Outcome.next.inj hexec
  obtain ⟨hafter, hbefore⟩ := overHeld_freed
  omega

end Sys2Proof.Machine
end

section
/-!
SUPPORT. An operation that closes, whatever its status: its status and its count are kept, the next OPNUM follows, and
the context is IDLE, or CLOSING until its space is free (R155 to R158, log 133).
-/

namespace Sys2Proof.Machine

variable {s : State} {x st n v : Nat}

/-- A context with an operation that an abort, a disagreement or a timeout may end. -/
theorem abortable_iff : s.abortable x n = true ↔ n = s.opnum x ∧
    (s.ctxState x = ctxOpen ∨ s.ctxState x = ctxFlush ∨ s.ctxState x = ctxPaused) := by
  unfold State.abortable
  simp only [Bool.and_eq_true, Bool.or_eq_true, beq_iff_eq, or_assoc]

/-- Where an operation that has ended with a status leaves its context (R155). -/
def closedState (st : Nat) : Nat := if st = stDone then ctxIdle else ctxClosing

/-- The counter of operations that have ended with a status other than DONE (R156). -/
def failCount (st : Nat) : Fld := if st = stIncomplete then F.OPC_FAIL_INCOMPLETE else F.OPC_FAIL_ABORTED

/-- From `s` to `t` the operation of context x has closed with a status, and what came after it left the context. -/
structure Closed (x st : Nat) (s t : State) : Prop where
  state : t.ctxState x = closedState st
  status : t.rd F.OPC_STATE_STATUS x = st % 2 ^ 3
  failed : st ≠ stDone → t.rd (failCount st) x = min (s.rd (failCount st) x + 1) (2 ^ 16 - 1)
  opnum : t.opnum x = (s.opnum x + 1) % 2 ^ 32

/-- What an operation with this footprint leaves of a context's operation. -/
structure StateKept (x : Nat) (s t : State) : Prop where
  state : t.ctxState x = s.ctxState x
  status : t.rd F.OPC_STATE_STATUS x = s.rd F.OPC_STATE_STATUS x
  incomplete : t.rd F.OPC_FAIL_INCOMPLETE x = s.rd F.OPC_FAIL_INCOMPLETE x
  aborted : t.rd F.OPC_FAIL_ABORTED x = s.rd F.OPC_FAIL_ABORTED x
  opnum : t.opnum x = s.opnum x

theorem Foot.stateKept {m : Nat} {t : State} (h : Foot m s t) (hstate : m.testBit Reg.OPC_STATE.ctorIdx = false)
    (hfail : m.testBit Reg.OPC_FAIL.ctorIdx = false) (hnum : m.testBit Reg.NUM_OPSEQ.ctorIdx = false) :
    StateKept x s t :=
  ⟨h.rd F.OPC_STATE_STATE _ _ hstate, h.rd _ _ _ hstate, h.rd F.OPC_FAIL_INCOMPLETE _ _ hfail,
    h.rd F.OPC_FAIL_ABORTED _ _ hfail, h.rd F.NUM_OPSEQ_OPNUM _ _ hnum⟩

theorem StateKept.trans {t u : State} (h : StateKept x s t) (h' : StateKept x t u) : StateKept x s u :=
  ⟨h'.state.trans h.state, h'.status.trans h.status, h'.incomplete.trans h.incomplete, h'.aborted.trans h.aborted,
    h'.opnum.trans h.opnum⟩

theorem StateKept.failCount {t : State} (h : StateKept x s t) : t.rd (failCount st) x = s.rd (failCount st) x := by
  unfold Machine.failCount
  split
  · exact h.incomplete
  · exact h.aborted

theorem Closed.before {t u : State} (h : StateKept x s t) (h' : Closed x st t u) : Closed x st s u :=
  ⟨h'.state, h'.status, fun hd => h.failCount ▸ h'.failed hd, h.opnum ▸ h'.opnum⟩

theorem Closed.after {t u : State} (h : Closed x st s t) (h' : StateKept x t u) : Closed x st s u :=
  ⟨h'.state.trans h.state, h'.status.trans h.status, fun hd => h'.failCount.trans (h.failed hd), h'.opnum.trans h.opnum⟩

theorem closeCount_closed : Closed x st s (s.closeCount x n v st) := by
  have hrecords (w : State) : StateKept x w (w.sendRecords x st) :=
    (sendRecords_foot (Sub.refl _) (Foot.refl _ w)).stateKept (by decide) (by decide) (by decide)
  have hrecovery (w : State) : StateKept x w (w.closeRecovery x st) :=
    (closeRecovery_foot (Sub.refl _) (Foot.refl _ w)).stateKept (by decide) (by decide) (by decide)
  unfold State.closeCount
  constructor
  case state =>
    unfold State.ctxState closedState
    simp (disch := decide) only [rd_with_sched, setOp_rd, rd_wr_other, rd_wr_same]
    split <;> rfl
  case status =>
    simp (disch := decide) only [rd_with_sched, setOp_rd, rd_wr_other, rd_incWrap_other, (hrecovery _).status]
    split
    · simp (disch := decide) only [rd_inc_other, (hrecords _).status, rd_wr_same]
      rfl
    · split <;>
      · simp (disch := decide) only [rd_inc_other, (hrecords _).status, rd_wr_same]
        rfl
  case failed =>
    intro hd
    unfold failCount
    simp only [if_neg hd]
    split
    · simp (disch := decide) only [rd_with_sched, setOp_rd, rd_wr_other, rd_incWrap_other, (hrecovery _).incomplete,
        rd_inc_other, rd_inc_same, (hrecords _).incomplete]
      rfl
    · simp (disch := decide) only [rd_with_sched, setOp_rd, rd_wr_other, rd_incWrap_other, (hrecovery _).aborted,
        rd_inc_other, rd_inc_same, (hrecords _).aborted]
      rfl
  case opnum =>
    have hrec (w : State) : (w.closeRecovery x st).rd F.NUM_OPSEQ_OPNUM x = w.rd F.NUM_OPSEQ_OPNUM x := (hrecovery w).opnum
    have hsend (w : State) : (w.sendRecords x st).rd F.NUM_OPSEQ_OPNUM x = w.rd F.NUM_OPSEQ_OPNUM x := (hrecords w).opnum
    unfold State.opnum
    simp (disch := decide) only [rd_with_sched, setOp_rd, rd_wr_other, rd_incWrap_same, hrec]
    congr 2
    split
    · simp (disch := decide) only [rd_inc_other, hsend, rd_wr_other]
    · split <;> simp (disch := decide) only [rd_inc_other, hsend, rd_wr_other]

/-- The waiting items of a context that is CLOSING are no part of its operation. -/
theorem keepEarly_kept (s : State) (x : Nat) (l : List HeldItem) : StateKept x s (s.keepEarly x l) := by
  constructor <;> exact rd_wr_other _ _ _ _ _ _ _ _ (by decide)

theorem closeEpoch_none (hk : s.kind x ≠ kParity) : s.closeEpoch x v st = (s, []) := by
  unfold State.closeEpoch
  simp only [beq_eq_false_iff_ne.mpr hk, Bool.false_and, Bool.false_eq_true, if_false]

/-- R155 to R158: an operation of no PARITY context closes, and with nothing held for the next one nothing follows. -/
theorem closeCore_closed (hopen : ¬ (s.ctxState x = ctxIdle ∨ s.ctxState x = ctxUndeclared ∨ s.ctxState x = ctxClosing))
    (he : (s.op x).early = []) (hk : s.kind x ≠ kParity) : (s.closeCore x st).2 = [] ∧ Closed x st s (s.closeCore x st).1 := by
  have hbefore : StateKept x s ((s.closeRelease x (s.opnum x) (s.op x)).notEarly x) :=
    ((closeRelease_foot (Sub.refl _) (Foot.refl _ s)).stateKept (by decide) (by decide) (by decide)).trans
      ((notEarly_foot (Sub.refl _) (Foot.refl _ _)).stateKept (by decide) (by decide) (by decide))
  have hclosed := (closeCount_closed (n := s.opnum x) (v := s.lastOf x) (st := st)).before hbefore |>.after
    ((closeAbort_foot (x := x) (n := s.opnum x) (t := s.lastOf x) (status := st) (Sub.refl _) (Foot.refl _ _)).stateKept
      (by decide) (by decide) (by decide))
  have hkind : ((((s.closeRelease x (s.opnum x) (s.op x)).notEarly x).closeCount x (s.opnum x) (s.lastOf x) st).closeAbort x
      (s.opnum x) (s.lastOf x) st).kind x ≠ kParity := by
    unfold State.kind
    rwa [(closeAbort_foot (Sub.refl _) (Foot.refl _ _)).rd _ _ _ (by decide),
      (closeCount_foot (Sub.refl _) (Foot.refl _ _)).rd _ _ _ (by decide),
      (notEarly_foot (Sub.refl _) (Foot.refl _ _)).rd _ _ _ (by decide),
      (closeRelease_foot (Sub.refl _) (Foot.refl _ _)).rd _ _ _ (by decide)]
  unfold State.closeCore
  rw [if_neg hopen]
  dsimp only
  rw [closeEpoch_none hkind, he]
  dsimp only
  split
  · exact ⟨rfl, hclosed.after (keepEarly_kept ..)⟩
  · split
    · exact ⟨rfl, hclosed.after (keepEarly_kept ..)⟩
    · exact ⟨rfl, hclosed⟩

/-! What is to be done for an operation, where nothing is held. -/

theorem work_ask (s : State) (x st : Nat) : s.work [.ask x st] = s.mark (.ending x (s.opnum x) st) := by
  obtain ⟨n, hn⟩ : ∃ n, s.work [.ask x st] = runWork (n + 1) s [.ask x st] := ⟨s.workFuel + 99, rfl⟩
  exact hn.trans (runWork_nil n _)

theorem work_nil (s : State) : s.work [] = s := runWork_nil _ s

theorem abortable_open (ha : s.abortable x n = true) :
    ¬ (s.ctxState x = ctxIdle ∨ s.ctxState x = ctxUndeclared ∨ s.ctxState x = ctxClosing) := by
  rcases (abortable_iff.mp ha).2 with h | h | h <;> rw [h] <;> decide

theorem work_close_closed (ha : s.abortable x n = true) (he : (s.op x).early = []) (hk : s.kind x ≠ kParity) :
    Closed x st s (s.work [.close x st]) := by
  obtain ⟨hmore, hclosed⟩ := closeCore_closed (st := st) (abortable_open ha) he hk
  obtain ⟨k, hwork⟩ : ∃ k, s.work [.close x st] = runWork (k + 1) s [.close x st] := ⟨s.workFuel + 99, rfl⟩
  rw [hwork, runWork_close, hmore]
  exact (runWork_nil ..) ▸ hclosed

/-! The endings asked for in a store cycle (R158, log 49). -/

/-- The marks of this store cycle, oldest first. -/
def State.cycleMarks (s : State) : List Mark := ((s.marks.filter (fun e => e.1 / 2 == s.now / 2)).map Prod.snd).reverse

theorem mem_cycleMarks {m : Mark} : m ∈ s.cycleMarks ↔ ∃ at_, (at_, m) ∈ s.marks ∧ at_ / 2 = s.now / 2 := by
  unfold State.cycleMarks
  simp only [List.mem_reverse, List.mem_map, List.mem_filter, beq_iff_eq, Prod.exists, exists_eq_right]

/-- The endings that marks ask for. -/
def endings (l : List Mark) : List (Nat × Nat) :=
  l.filterMap (fun m => match m with
    | .ending x n _ => some (x, n)
    | _ => none)

/-- The contexts that marks bring to FLUSH. -/
def flushes (l : List Mark) : List Nat :=
  l.filterMap (fun m => match m with
    | .flush x => some x
    | _ => none)

/-- What was asked for of an operation is decided. -/
def State.endOne (mine : List Mark) (s : State) (x n : Nat) : State :=
  if !s.abortable x n then (if mine.contains (.ending x n stAborted) then s.inc F.OPC_DROPS_STALE 1 x else s)
  else if mine.contains (.ending x n stAborted) then s.work [.close x stAborted]
  else if mine.contains (.ending x n stDisagree) then s.work [.close x stDisagree]
  else if s.ctxState x = ctxOpen ∧ s.countsMet x = false then s.work [.close x stIncomplete]
  else s

/-- The marks of contexts that have come to FLUSH are spent. -/
def State.dropFlushes (s : State) : State :=
  { s with marks := s.marks.filter (fun e => match e.2 with
      | .flush _ => false
      | _ => true) }

theorem endAsked_eq (s : State) : s.endAsked =
    (s.each (endings s.cycleMarks).eraseDups (fun t e => t.endOne s.cycleMarks e.1 e.2)).dropFlushes.work
      ((flushes s.cycleMarks).map Work.settle) := rfl

/-- In this store cycle the ending of operation n of context x with status st is asked for, no other ending is, and
nothing has come to FLUSH. -/
structure OnlyEnding (x n st : Nat) (s : State) : Prop where
  asked : .ending x n st ∈ s.cycleMarks
  only : ∀ m ∈ s.cycleMarks, ∀ y k v, m = .ending y k v → y = x ∧ k = n ∧ v = st
  noFlush : ∀ m ∈ s.cycleMarks, ∀ y, m ≠ .flush y

theorem OnlyEnding.of_marks {n : Nat} (h : s.marks = [(s.now, .ending x n st)]) : OnlyEnding x n st s := by
  have honly : s.cycleMarks = [.ending x n st] := by
    unfold State.cycleMarks
    simp only [h, List.filter_cons, beq_self_eq_true, if_true, List.filter_nil]
    rfl
  constructor
  case asked => rw [honly]; exact List.mem_singleton_self _
  case only =>
    intro m hm y k v he
    rw [honly, List.mem_singleton, he] at hm
    injection hm with hy hk hv
    exact ⟨hy, hk, hv⟩
  case noFlush =>
    intro m hm y he
    rw [honly, List.mem_singleton, he] at hm
    cases hm

/-- A list that holds one value, once or more, holds it once when its repeats are gone. -/
theorem eraseDups_const {α : Type} [BEq α] [LawfulBEq α] {l : List α} {a : α} (hne : l ≠ []) (h : ∀ b ∈ l, b = a) :
    l.eraseDups = [a] := by
  cases l with
  | nil => exact absurd rfl hne
  | cons b l =>
    have hrest : l.filter (fun c => !c == b) = [] := List.filter_eq_nil_iff.mpr fun c hc => by
      rw [h c (List.mem_cons_of_mem _ hc), h b List.mem_cons_self]
      simp
    rw [List.eraseDups_cons, hrest, h b List.mem_cons_self]
    rfl

theorem OnlyEnding.endings {n : Nat} (h : OnlyEnding x n st s) : (endings s.cycleMarks).eraseDups = [(x, n)] := by
  refine eraseDups_const (List.ne_nil_of_mem (List.mem_filterMap.mpr ⟨_, h.asked, rfl⟩)) fun e he => ?_
  obtain ⟨m, hm, hsome⟩ := List.mem_filterMap.mp he
  split at hsome
  · obtain ⟨rfl, rfl, -⟩ := h.only _ hm _ _ _ rfl
    exact (Option.some.inj hsome).symm
  · cases hsome

theorem OnlyEnding.flushes {n : Nat} (h : OnlyEnding x n st s) : flushes s.cycleMarks = [] := by
  refine List.filterMap_eq_nil_iff.mpr fun m hm => ?_
  split
  · exact absurd rfl (h.noFlush _ hm _)
  · rfl

theorem OnlyEnding.contains {n : Nat} (h : OnlyEnding x n st s) (v : Nat) :
    s.cycleMarks.contains (.ending x n v) = decide (v = st) := by
  rw [Bool.eq_iff_iff, List.contains_iff_mem, decide_eq_true_iff]
  exact ⟨fun hm => (h.only _ hm _ _ _ rfl).2.2, fun hv => hv ▸ h.asked⟩

/-- R158: the ending that alone was asked for in the store cycle closes the operation with its status: an abort, or a
timeout of an operation that is OPEN still, its counts not met. -/
theorem endAsked_closed (h : OnlyEnding x (s.opnum x) st s) (ha : s.abortable x (s.opnum x) = true) (he : (s.op x).early = [])
    (hk : s.kind x ≠ kParity)
    (hst : st = stAborted ∨ st = stIncomplete ∧ s.ctxState x = ctxOpen ∧ s.countsMet x = false) : Closed x st s s.endAsked := by
  have hend : s.endOne s.cycleMarks x (s.opnum x) = s.work [.close x st] := by
    unfold State.endOne
    rw [ha, h.contains, h.contains]
    rcases hst with rfl | ⟨rfl, hcounts⟩
    · rfl
    · exact if_pos hcounts
  rw [endAsked_eq, h.endings, h.flushes]
  show Closed x st s (State.work _ [])
  rw [work_nil]
  show Closed x st s (s.endOne s.cycleMarks x (s.opnum x)).dropFlushes
  rw [hend]
  exact (work_close_closed ha he hk).after ⟨rfl, rfl, rfl, rfl, rfl⟩

end Sys2Proof.Machine
end

section
/-!
SUPPORT. The fence bits after software or hardware has changed them (R218), and the purge of a fenced port (R220).
-/

namespace Sys2Proof.Machine

variable {s : State} {f : Nat → Bool} {n k : Nat}

/-- The word whose first n bits are those of f. -/
def wordOf (f : Nat → Bool) (n : Nat) : Nat := (List.range n).foldl (fun a k => if f k then a + 2 ^ k else a) 0

theorem wordOf_succ : wordOf f (n + 1) = if f n then wordOf f n + 2 ^ n else wordOf f n := by
  unfold wordOf
  rw [List.range_succ, List.foldl_append]
  rfl

theorem wordOf_lt : wordOf f n < 2 ^ n := by
  induction n with
  | zero => exact Nat.zero_lt_one
  | succ n ih =>
    rw [wordOf_succ, Nat.pow_succ]
    split <;> omega

theorem testBit_wordOf : (wordOf f n).testBit k = (decide (k < n) && f k) := by
  induction n with
  | zero => exact Nat.zero_testBit k
  | succ n ih =>
    have hlast : (wordOf f n).testBit n = false := Nat.testBit_lt_two_pow wordOf_lt
    rw [wordOf_succ]
    split
    · next hf =>
      rw [testBit_add_two_pow hlast, ih]
      split
      · next h => simp [h, hf]
      · next h => simp [show k < n + 1 ↔ k < n by omega]
    · next hf =>
      rw [ih]
      rcases Nat.lt_trichotomy k n with h | h | h
      · simp [h, Nat.lt_succ_of_lt h]
      · simp [h, hf]
      · simp [show ¬ k < n by omega, show ¬ k < n + 1 by omega]

/-- The four words of the fence bits take new values. -/
def State.fenceWords (s : State) (f : Nat → Bool) : State :=
  (s.each [0, 1, 2, 3] (fun s i => s.noteWas F.INS_FENCE_PORTS i)).each [0, 1, 2, 3] (fun s i =>
    s.wr F.INS_FENCE_PORTS (wordOf (fun k => f (64 * i + k)) 64) i)

theorem fenceWords_fenced {q : Nat} (hq : q < 256) : (s.fenceWords f).fenced q = f q := by
  have hword : ∀ i < 4, (s.fenceWords f).rd F.INS_FENCE_PORTS i = wordOf (fun k => f (64 * i + k)) 64 := by
    intro i hi
    have hcut : wordOf (fun k => f (64 * i + k)) 64 % 2 ^ F.INS_FENCE_PORTS.width = wordOf (fun k => f (64 * i + k)) 64 :=
      Nat.mod_eq_of_lt wordOf_lt
    rw [← hcut]
    unfold State.fenceWords State.each
    simp only [List.foldl_cons, List.foldl_nil, rd_wr_instance]
    interval_cases i <;> rfl
  have hsplit : 64 * (q / 64) + q % 64 = q := Nat.div_add_mod q 64
  unfold State.fenced
  rw [hword _ (by omega), testBit_wordOf, decide_eq_true (Nat.mod_lt q (by decide)), Bool.true_and, hsplit]

/-- R218: the fence bits stand as they were set, whatever follows from the change. -/
theorem setFences_fenced (s : State) (f : Nat → Bool) {q : Nat} (hq : q < 256) : (s.setFences f).fenced q = f q := by
  unfold State.setFences
  dsimp only
  split
  · next h =>
    obtain ⟨hup, hdown⟩ := Bool.and_eq_true_iff.mp h
    rw [List.isEmpty_iff, List.filter_eq_nil_iff] at hup hdown
    have hnotUp := hup q (List.mem_range.mpr hq)
    have hnotDown := hdown q (List.mem_range.mpr hq)
    revert hnotUp hnotDown
    cases f q <;> cases s.fenced q <;> decide
  · have hkept : (((((s.fenceWords f).fenceCount.syncFenced).each ((List.range 256).filter (fun p => !f p && s.fenced p))
        State.fenceDown).each ((List.range 256).filter (fun p => f p && !s.fenced p)) State.fenceUp).syncFailing).rd
        F.INS_FENCE_PORTS (q / 64) = (s.fenceWords f).rd F.INS_FENCE_PORTS (q / 64) := by
      rw [(syncFailing_foot (Sub.refl _) (Foot.refl _ _)).rd _ _ _ (by decide),
        each_keeps _ (fun t => t.rd F.INS_FENCE_PORTS (q / 64)) fun t p _ =>
          (fenceUp_foot (Sub.refl _) (Foot.refl _ t)).rd _ _ _ (by decide),
        each_keeps _ (fun t => t.rd F.INS_FENCE_PORTS (q / 64)) fun t p _ =>
          (fenceDown_foot (Sub.refl _) (Foot.refl _ t)).rd _ _ _ (by decide),
        (syncFenced_foot (Sub.refl _) (Foot.refl _ _)).rd _ _ _ (by decide),
        (fenceCount_foot (Sub.refl _) (Foot.refl _ _)).rd _ _ _ (by decide)]
    exact (congrArg (fun v => Nat.testBit v (q % 64)) hkept).trans (fenceWords_fenced hq)

theorem noteOutput_sched (s : State) (h : SwHeader) (p : Nat) (sent : Bool) : (s.noteOutput h p sent).sched = s.sched := by
  unfold State.noteOutput
  split <;> rfl

/-- The least number of a range that passes comes first among those that do. -/
theorem filter_range_first {p : Nat → Bool} (hk : k < n) (hp : p k = true) (hless : ∀ j < k, p j = false) :
    ∃ l, (List.range n).filter p = k :: l := by
  obtain ⟨m, rfl⟩ : ∃ m, n = k + (m + 1) := ⟨n - k - 1, by omega⟩
  have hbefore : (List.range k).filter p = [] :=
    List.filter_eq_nil_iff.mpr fun j hj => Bool.eq_false_iff.mp (hless j (List.mem_range.mp hj))
  rw [List.range_add, List.filter_append, hbefore, List.range_succ_eq_map, List.map_cons, List.nil_append, Nat.add_zero,
    List.filter_cons_of_pos hp]
  exact ⟨_, rfl⟩

/-- The head of a queue of last t of group b is purged: what is left of the queue, and the pointer given up. -/
def State.purgeHead (s : State) (p b t : Nat) (e : QEntry) (rest : List QEntry) : State :=
  ((({ s with sched := { s.sched with queues := s.sched.queues.set [b, t] rest } }.inc F.INS_MC_FENCED_DROP_COUNT 1 p).decRef
    e.ptr e.account (reqPort (dieOfPort p))).noteOutput e.header p false)

/-- R220: the head of the lowest last's queue of a fenced port's group leaves it. -/
theorem purgeOne_eq {p : Nat} {e : QEntry} {rest : List QEntry} (hk : k < 16) (hf : s.targetFenced (s.groupOf p) = true)
    (hq : s.sched.queues.get [s.groupOf p, k] = e :: rest)
    (hempty : (List.range k).all (fun j => (s.sched.queues.get [s.groupOf p, j]).isEmpty) = true) :
    s.purgeOne p = s.purgeHead p (s.groupOf p) k e rest := by
  obtain ⟨ts, hts⟩ := filter_range_first (p := fun t => !(s.sched.queues.get [s.groupOf p, t]).isEmpty) hk
    (by rw [hq]; rfl) fun j hj => by
      rw [List.all_eq_true.mp hempty j (List.mem_range.mpr hj)]
      rfl
  unfold State.purgeOne
  simp only [hf, if_true, hts, hq]
  rfl

theorem purgeHead_queue (s : State) (p b t : Nat) (e : QEntry) (rest : List QEntry) :
    (s.purgeHead p b t e rest).sched.queues.get [b, t] = rest ∧ (s.purgeHead p b t e rest).rd F.INS_MC_FENCED_DROP_COUNT p =
      min (s.rd F.INS_MC_FENCED_DROP_COUNT p + 1) (2 ^ 64 - 1) := by
  unfold State.purgeHead
  constructor
  · rw [noteOutput_sched, (decRef_foot (Sub.refl _) (Foot.refl _ _)).part .sched (by decide)]
    exact SMap.get_set_same ..
  · rw [(noteOutput_foot (Sub.refl _) (Foot.refl _ _)).rd _ _ _ (by decide),
      (decRef_foot (Sub.refl _) (Foot.refl _ _)).rd _ _ _ (by decide), rd_inc_same]
    rfl

end Sys2Proof.Machine
end

section
/-!
SUPPORT. The end of a context's CLOSING (log 133), and an abort that the host asks for (R155, R158).
-/

namespace Sys2Proof.Machine

variable {s : State} {x : Nat}

/-- With nothing that waits for its next operation, a context whose space is free goes IDLE. -/
theorem endClosing_idle {o : OpCtx} (hctx : s.ctx.entries = [([x], o)]) (hstate : s.ctxState x = ctxClosing)
    (he : o.early = []) (ht : o.closedAt + 2 ≤ s.arith) :
    s.endClosing.ctxState x = ctxIdle ∧ s.endClosing.rd F.OPC_STATE_EARLY x = 0 := by
  have hop : s.op x = o := by
    unfold State.op SMap.get SMap.getD
    rw [hctx]
    simp [entriesFind]
  have hend : s.endClosing = ((s.setOp x (fun _ => {})).wr F.OPC_STATE_STATE ctxIdle x).wr F.OPC_STATE_EARLY 0 x := by
    unfold State.endClosing
    simp only [hctx, List.filterMap_cons, List.filterMap_nil, hstate, ht, and_self, if_true, State.each, List.foldl_cons,
      List.foldl_nil, hop, he, List.map_nil, work_nil]
  rw [hend]
  constructor
  · exact (rd_wr_other _ _ _ _ _ _ _ _ (by decide)).trans (rd_wr_same ..)
  · exact rd_wr_same ..

/-- A write of OPC_ABORT with GO asks for the abort of the context it names. -/
theorem exec_hostAbort (hs : s.active = true) (hx : x < 65536) :
    exec (.hostAbort (2 ^ 31 + x)) s = .next ((s.setHeld .host none).hostAbort x) := by
  have hword : (2 ^ 31 + x) % 2 ^ (Reg.at .OPC_ABORT).bits = 2 ^ 31 + x := by
    rw [show (Reg.at .OPC_ABORT).bits = 32 from rfl]
    omega
  have hgo : (2 ^ 31 + x).testBit 31 = true := by
    rw [Nat.testBit_two_pow_add_eq, Nat.testBit_lt_two_pow (by omega)]
    rfl
  have hctx : bits (2 ^ 31 + x) 15 0 = x := by
    unfold bits
    omega
  refine (onPowered_eq (f := fun s => s.regWrite .OPC_ABORT 0 0 (2 ^ 31 + x)) rfl (active_powered hs)).trans ?_
  rw [regWrite_own (active_not_safe hs) (by decide) (by decide) (by decide), hword]
  unfold State.ownWrite State.writeReg
  dsimp only
  rw [hgo, if_pos rfl, hctx]
  rfl

theorem exec_fenceWrite {i v : Nat} (hs : s.active = true) (hi : i < 4) :
    exec (.fenceWrite i v) s = .next ((s.setHeld .host none).swFence i (v % 2 ^ 64)).settleAll := by
  refine (onPowered_eq (f := fun s => s.regWrite .INS_FENCE i 0 v) (decide_eq_true hi) (active_powered hs)).trans ?_
  rw [regWrite_own (active_not_safe hs) (by decide) hi (by decide)]
  rfl

theorem exec_queuePurge {p : Nat} (hs : s.active = true) (hp : p < 256) (hq : s.sched.purging.contains p = true)
    (hpurges : s.purges p = true) : exec (.queuePurge p) s = .next ((s.mark (.purged p)).purgeOne p).settleAll := by
  refine (onActive_eq (f := fun s => (if s.sched.purging.contains p && s.purges p then (s.mark (.purged p)).purgeOne p else
    s).settleAll) (decide_eq_true hp) hs).trans ?_
  rw [hq, hpurges]
  rfl

end Sys2Proof.Machine
end

section
/-! SUPPORT. O29, from the lemmas above. -/

namespace Sys2Proof.Machine

variable {s : State} {x n : Nat}

theorem hostAbort_asks (ha : s.abortable x (s.opnum x) = true) (hd : s.marked (.done x) 2 = false) :
    s.hostAbort x = s.mark (.ending x (s.opnum x) stAborted) := by
  have hdeclared : s.ctxState x ≠ ctxUndeclared := by
    rcases (abortable_iff.mp ha).2 with h | h | h <;> rw [h] <;> decide
  unfold State.hostAbort
  rw [if_neg hdeclared, if_pos ⟨ha, hd⟩, work_ask]

theorem hostAbort_stale (hx : s.ctxState x ≠ ctxUndeclared)
    (h : s.abortable x (s.opnum x) = false ∨ s.marked (.done x) 2 = true) : s.hostAbort x = s.inc F.OPC_DROPS_STALE 1 x := by
  unfold State.hostAbort
  rw [if_neg hx, if_neg]
  rintro ⟨ha, hd⟩
  rcases h with h | h
  · exact absurd ha (by rw [h]; decide)
  · exact absurd h (by rw [hd]; decide)

theorem hostAbort_undeclared (h : s.ctxState x = ctxUndeclared) : s.hostAbort x = s.inc F.OPC_UNDECL_COUNT := by
  unfold State.hostAbort
  rw [if_pos h]

/-- Settles O29: an abort asked for by the host or a write of a fence word past its address (`exec_hostAbort`,
`exec_fenceWrite`), the end of the store cycle by `endAsked_closed`, the bits by `setFences_fenced` and the purge by
`purgeOne_eq`. -/
theorem hostAbortAndFences : Obligations.HostAbortAndFences := by
  unfold Obligations.HostAbortAndFences
  refine ⟨?asked, ?decided, ?idle, ?stale, ?undeclared, ?fences, ?purge⟩
  case asked =>
    intro s x hs hx ha hd
    refine ⟨_, exec_hostAbort hs hx, ?_⟩
    rw [hostAbort_asks (s := s.setHeld .host none) ha hd]
    exact ⟨marked_mark _ _ 2, rfl⟩
  case decided =>
    intro s x ha he hk hm
    obtain ⟨hstate, hstatus, hfailed, hopnum⟩ := endAsked_closed (.of_marks hm) ha he hk (.inl rfl)
    exact ⟨hstate, hstatus, hfailed (by decide), hopnum⟩
  case idle =>
    intro s x o hctx hstate he ht
    exact endClosing_idle hctx hstate he ht
  case stale =>
    intro s x hs hx hdeclared h
    refine ⟨_, exec_hostAbort hs hx, ?_⟩
    rw [hostAbort_stale (s := s.setHeld .host none) hdeclared h]
    exact ⟨rfl, rfl⟩
  case undeclared =>
    intro s x hs hx hstate
    refine ⟨_, exec_hostAbort hs hx, ?_⟩
    rw [hostAbort_undeclared (s := s.setHeld .host none) hstate]
    rfl
  case fences =>
    intro s i v hs hi
    refine ⟨_, exec_fenceWrite hs hi, fun q hq => ?_⟩
    have hsettled (w : State) : w.settleAll.fenced q = w.fenced q :=
      congrArg (fun v => Nat.testBit v (q % 64)) ((settleAll_foot (Sub.refl _) (Foot.refl _ w)).rd _ _ _ (by decide))
    have hbit : (v % 2 ^ 64).testBit (q % 64) = v.testBit (q % 64) := by
      rw [Nat.testBit_mod_two_pow, decide_eq_true (Nat.mod_lt q (by decide)), Bool.true_and]
    rw [hsettled]
    unfold State.swFence
    rw [setFences_fenced _ _ hq, hbit]
    rfl
  case purge =>
    intro s p k e rest hs hp hk hpurging hpurges hfenced hq hempty
    refine ⟨_, exec_queuePurge hs hp hpurging hpurges, ?_⟩
    rw [purgeOne_eq (s := s.mark (.purged p)) hk hfenced hq hempty]
    exact purgeHead_queue ..

end Sys2Proof.Machine
end

section
/-!
SUPPORT. What waits to be decided stays (`SameArrivals`), and so do what an operation has taken in and the registers that
count it (`OpStays`), while objects are stored, sent, mirrored and freed.
-/

namespace Sys2Proof.Machine

variable {s t u : State} {x : Nat}

/-- The descriptors and the swatches that wait to be decided are the same. -/
structure SameArrivals (s t : State) : Prop where
  descs : t.sched.descs = s.sched.descs
  released : t.sched.released = s.sched.released

theorem SameArrivals.refl (s : State) : SameArrivals s s := ⟨rfl, rfl⟩

theorem SameArrivals.trans (h : SameArrivals s t) (h' : SameArrivals t u) : SameArrivals s u :=
  ⟨h'.descs.trans h.descs, h'.released.trans h.released⟩

theorem SameArrivals.of_sched (h : t.sched = s.sched) : SameArrivals s t := ⟨by rw [h], by rw [h]⟩

theorem Foot.arrivals {m : Nat} (h : Foot m s t) (hb : m.testBit 306 = false) : SameArrivals s t := .of_sched (h.part .sched hb)

theorem SameArrivals.each {α : Type} {l : List α} {g : State → α → State} (h : SameArrivals s t)
    (hg : ∀ v a, SameArrivals v (g v a)) : SameArrivals s (t.each l g) := by
  induction l generalizing t with
  | nil => exact h
  | cons a l ih => exact ih (h.trans (hg t a))

theorem countWrite_sched (s : State) (p a : Nat) : (s.countWrite p a).sched = s.sched :=
  each_keeps s State.sched (fun _ _ _ => rfl)

theorem countWrite_ctx (s : State) (p a : Nat) : (s.countWrite p a).ctx = s.ctx := each_keeps s State.ctx (fun _ _ _ => rfl)

/-- A copy that has its buffer is stored, its record numbered and counted, and its pointer queued (R287). -/
def State.mirrorStored (s : State) (m port analysis q n : Nat) : State :=
  let s := (s.countWrite q 19).addRefs q 1
  let s := { s with shape := { s.shape with
    mirSeq := s.shape.mirSeq.upd [m] (fun n => (n + 1) % 2 ^ 32)
    mirLost := s.shape.mirLost.set [m] 0 } }
  let s := s.inc F.SHP_MIR_STAT_TAKEN 1 m
  let s := s.wr F.SHP_MIR_PEND_PENDING (s.rd F.SHP_MIR_PEND_PENDING m + 1) m
  s.putVoq (dieOfPort port) analysis
    { ptr := q, account := 19, vc := s.rdStart F.SHP_MIR_CFG_VC m, length := 64 + n, session := some m, pendingCells := cellsOf n }

theorem mirrorStored_arrivals (s : State) (m p d q n : Nat) : SameArrivals s (s.mirrorStored m p d q n) :=
  SameArrivals.trans (.of_sched (countWrite_sched s q 19)) ⟨rfl, rfl⟩

theorem SameArrivals.comp {c : ComputeState} (h : SameArrivals s t) : SameArrivals s { t with comp := c } :=
  ⟨h.descs, h.released⟩

theorem SameArrivals.bpm {b : BpmState} (h : SameArrivals s t) : SameArrivals s { t with bpm := b } := ⟨h.descs, h.released⟩

theorem SameArrivals.spore {r : SporeState} (h : SameArrivals s t) : SameArrivals s { t with spore := r } :=
  ⟨h.descs, h.released⟩

theorem mirrorTake_arrivals (s : State) (m p : Nat) (e c : Bool) (vc ptr a extra : Nat) :
    SameArrivals s (s.mirrorTake m p e c vc ptr a extra) := by
  have hlost (w : State) (f : Fld) : SameArrivals w (w.mirrorLost m f) := .of_sched rfl
  unfold State.mirrorTake
  dsimp only
  split
  · exact hlost ..
  split
  · exact hlost ..
  split
  · exact hlost ..
  split
  · next w h => exact ((alloc_foot_eq (Sub.refl _) h (Foot.refl _ s)).arrivals (by decide)).trans (.of_sched rfl)
  · next q w h =>
    have halloc := (alloc_foot_eq (Sub.refl _) h (Foot.refl _ s)).arrivals (by decide)
    refine halloc.trans (SameArrivals.trans ?_ (mirrorStored_arrivals _ m p (s.rdStart F.SHP_MIR_CFG_ANALYSIS m) q
      (min (s.object ptr).body.length (if s.rdStart F.SHP_MIR_CFG_TRUNC m != 0 then 256 else 4096))))
    split
    · split
      · exact .refl w
      · exact .of_sched rfl
    · exact .of_sched rfl

theorem mirrorAll_arrivals (s : State) (p : Nat) (e c : Bool) (vc : Nat) (x : Option Nat) (ptr a extra : Nat) :
    SameArrivals s (s.mirrorAll p e c vc x ptr a extra) :=
  SameArrivals.each (.refl s) fun v m => by
    split
    · exact mirrorTake_arrivals ..
    · exact .refl v

theorem enqueue_arrivals (s : State) (b v : Nat) (e : QEntry) (r : Nat) : SameArrivals s (s.enqueue b v e r) := by
  unfold State.enqueue State.enqueueNow
  split
  · exact ⟨rfl, rfl⟩
  · split <;> exact ⟨rfl, rfl⟩

theorem multicast_arrivals (s : State) (p a r : Nat) (ts : List Target) : SameArrivals s (s.multicast p a r ts) := by
  have hsend (v : State) : SameArrivals v (if ts.isEmpty && (v.tag (ptrCell p)).refcnt == 0 then v.freeObj p a r
      else v.each ts (fun v t => v.enqueue t.group t.last { ptr := p, account := a, header := t.header, visible := v.store }
        r)) := by
    split
    · exact (freeObj_foot (Sub.refl _) (Foot.refl _ _)).arrivals (by decide)
    · exact SameArrivals.each (.refl v) fun _ _ => enqueue_arrivals ..
  unfold State.multicast
  dsimp only
  split
  · exact SameArrivals.trans (.of_sched (t := (s.inc F.INS_MC_STORES_COUNT).addRefs p ts.length) rfl) (hsend _)
  · exact SameArrivals.trans (.of_sched (t := s.addRefs p ts.length) rfl) (hsend _)

theorem publish_arrivals (s : State) (a r : Nat) (item : Item) (ts : List Target) : SameArrivals s (s.publish a r item ts) := by
  unfold State.publish
  split
  · next p w h =>
    have halloc := (allocNow_foot_eq (Sub.refl _) h (Foot.refl _ s)).arrivals (by decide)
    exact (halloc.trans (.of_sched (countWrite_sched ..))).trans (multicast_arrivals ..)
  · next w h => exact ((allocNow_foot_eq (Sub.refl _) h (Foot.refl _ s)).arrivals (by decide)).trans (.of_sched rfl)

theorem pushVoq_arrivals (s : State) (d p : Nat) (e : OppEntry) : SameArrivals s (s.pushVoq d p e) := by
  unfold State.pushVoq
  split <;> exact ⟨rfl, rfl⟩

theorem pushVoq_ctx (s : State) (d p : Nat) (e : OppEntry) : (s.pushVoq d p e).ctx = s.ctx := by
  unfold State.pushVoq
  split <;> rfl

theorem sendItem_keeps_arrivals (s : State) (d p : Nat) (item : Item) (a : Nat) :
    SameArrivals s (s.sendItem d p item a) ∧ (s.sendItem d p item a).ctx = s.ctx := by
  unfold State.sendItem
  split
  · next q w h =>
    have hfoot := allocNow_foot_eq (Sub.refl _) h (Foot.refl _ s)
    have hstored : SameArrivals w ((w.countWrite q a).addRefs q 1) := .of_sched (countWrite_sched ..)
    exact ⟨((hfoot.arrivals (by decide)).trans hstored).trans (pushVoq_arrivals ..),
      (pushVoq_ctx ..).trans ((countWrite_ctx w q a).trans (hfoot.ctx (by decide)))⟩
  · next w h =>
    have hfoot := allocNow_foot_eq (Sub.refl _) h (Foot.refl _ s)
    exact ⟨(hfoot.arrivals (by decide)).trans (.of_sched rfl), hfoot.ctx (by decide)⟩

theorem freeStreams_arrivals (s : State) (x n : Nat) : SameArrivals s (s.freeStreams x n) :=
  SameArrivals.each (.refl s) fun v d => by
    have hdrop (w : State) (a : Arrived) : SameArrivals w (w.dropArrived a) :=
      (dropArrived_foot (Sub.refl _) (Foot.refl _ w)).arrivals (by decide)
    have hset (w : State) (l : List Stream) : SameArrivals w (w.setStreams d l) := by
      refine SameArrivals.trans ?_ ((syncReseq_foot (Sub.refl _) (Foot.refl _ _)).arrivals (by decide))
      exact ⟨rfl, rfl⟩
    dsimp only
    split
    · exact .refl v
    · exact (SameArrivals.each (.refl v) fun w t => SameArrivals.each (.refl w) fun w a => hdrop w a).trans (hset _ _)

end Sys2Proof.Machine
end

section
/-!
SUPPORT. What an operation has taken in stays, and the registers that tell of it (`OpStays`).
-/

namespace Sys2Proof.Machine

variable {s t u : State} {x : Nat}

/-- The registers that tell where the operation of a context stands and what it has taken in. -/
def opRegs : List Reg := [.OPC_STATE, .OPC_RECV, .OPC_BYTES, .NUM_OPSEQ, .OPC_DECL]

/-- From `s` to `t` the operation of context x keeps its descriptors, its inputs, the items that wait for the next one, and
the registers that tell of it; and what waits to be decided stays. -/
structure OpStays (x : Nat) (s t : State) : Prop where
  arrivals : SameArrivals s t
  descs : (t.op x).descs = (s.op x).descs
  items : (t.op x).inputs.map (·.item) = (s.op x).inputs.map (·.item)
  early : (t.op x).early = (s.op x).early
  regs : ∀ (f : Fld) (i j : Nat), f.reg ∈ opRegs → t.rd f i j = s.rd f i j

theorem OpStays.refl (x : Nat) (s : State) : OpStays x s s := ⟨.refl s, rfl, rfl, rfl, fun _ _ _ _ => rfl⟩

theorem OpStays.trans (h : OpStays x s t) (h' : OpStays x t u) : OpStays x s u :=
  ⟨h.arrivals.trans h'.arrivals, h'.descs.trans h.descs, h'.items.trans h.items, h'.early.trans h.early,
    fun f i j hf => (h'.regs f i j hf).trans (h.regs f i j hf)⟩

/-- An operation of the model that leaves the contexts, the arrivals and these registers. -/
theorem OpStays.of_foot {m : Nat} (h : Foot m s t) (hctx : t.ctx = s.ctx) (ha : SameArrivals s t)
    (hm : opRegs.all (fun r => !m.testBit r.ctorIdx) = true) : OpStays x s t := by
  have hop : t.op x = s.op x := by
    unfold State.op
    rw [hctx]
  refine ⟨ha, by rw [hop], by rw [hop], by rw [hop], fun f i j hf => h.rd f i j ?_⟩
  rw [← Bool.not_eq_true']
  exact List.all_eq_true.mp hm _ hf

theorem OpStays.of_same (hctx : t.ctx = s.ctx) (hsched : t.sched = s.sched) (hregs : t.regs = s.regs) : OpStays x s t := by
  have hop : t.op x = s.op x := by
    unfold State.op
    rw [hctx]
  exact ⟨.of_sched hsched, by rw [hop], by rw [hop], by rw [hop], fun f i j _ => rd_congr f i j hregs⟩

theorem OpStays.setOp (s : State) (x : Nat) (f : OpCtx → OpCtx) (hd : (f (s.op x)).descs = (s.op x).descs)
    (hi : (f (s.op x)).inputs.map (·.item) = (s.op x).inputs.map (·.item)) (he : (f (s.op x)).early = (s.op x).early) :
    OpStays x s (s.setOp x f) := by
  constructor
  case arrivals => exact .of_sched rfl
  case regs => exact fun _ _ _ _ => rfl
  all_goals rw [setOp_op]
  · exact hd
  · exact hi
  · exact he

theorem OpStays.each {α : Type} {l : List α} {g : State → α → State} (h : OpStays x s t) (hg : ∀ v a, OpStays x v (g v a)) :
    OpStays x s (t.each l g) := by
  induction l generalizing t with
  | nil => exact h
  | cons a l ih => exact ih (h.trans (hg t a))

theorem OpStays.wr (h : OpStays x s t) {f : Fld} {v i j : Nat} (hf : f.reg ∉ opRegs) : OpStays x s (t.wr f v i j) :=
  ⟨⟨h.arrivals.descs, h.arrivals.released⟩, h.descs, h.items, h.early, fun g i' j' hg =>
    (rd_wr_key _ _ _ _ _ _ _ _ (key_ne_of_other rfl (.inl fun he => hf (he ▸ hg)))).trans (h.regs g i' j' hg)⟩

theorem OpStays.inc (h : OpStays x s t) {f : Fld} {n i j : Nat} (hf : f.reg ∉ opRegs) : OpStays x s (t.inc f n i j) :=
  ⟨⟨h.arrivals.descs, h.arrivals.released⟩, h.descs, h.items, h.early, (h.wr (v := min (t.rd f i j + n) (2 ^ f.width - 1)) (i := i) (j := j) hf).regs⟩

theorem OpStays.mark (h : OpStays x s t) (m : Mark) : OpStays x s (t.mark m) :=
  ⟨⟨h.arrivals.descs, h.arrivals.released⟩, h.descs, h.items, h.early, h.regs⟩

theorem multicast_stays (s : State) (x p a r : Nat) (ts : List Target) : OpStays x s (s.multicast p a r ts) :=
  have hfoot := multicast_foot (Sub.refl _) (Foot.refl _ s)
  .of_foot hfoot (hfoot.ctx (by decide)) (multicast_arrivals ..) (by decide)

theorem publish_stays (s : State) (x a r : Nat) (item : Item) (ts : List Target) : OpStays x s (s.publish a r item ts) :=
  .of_foot (publish_foot (Sub.refl _) (Foot.refl _ s)) (publish_ctx ..) (publish_arrivals ..) (by decide)

theorem sendItem_stays (s : State) (x d p : Nat) (item : Item) (a : Nat) : OpStays x s (s.sendItem d p item a) :=
  have ⟨harrivals, hctx⟩ := sendItem_keeps_arrivals s d p item a
  .of_foot (sendItem_foot (Sub.refl _) (Foot.refl _ s)) hctx harrivals (by decide)

theorem mirrorAll_stays (s : State) (p : Nat) (e c : Bool) (vc : Nat) (y : Option Nat) (ptr a extra : Nat) :
    OpStays x s (s.mirrorAll p e c vc y ptr a extra) :=
  have hfoot := mirrorAll_foot (Sub.refl _) (Foot.refl _ s)
  .of_foot hfoot (hfoot.ctx (by decide)) (mirrorAll_arrivals ..) (by decide)

theorem dropArrived_stays (s : State) (x : Nat) (a : Arrived) : OpStays x s (s.dropArrived a) :=
  have hfoot := dropArrived_foot (Sub.refl _) (Foot.refl _ s)
  .of_foot hfoot (hfoot.ctx (by decide)) (hfoot.arrivals (by decide)) (by decide)

theorem dropDesc_stays (s : State) (x : Nat) (b : ArrivedDesc) : OpStays x s (s.dropDesc b) :=
  have hfoot := dropDesc_foot (Sub.refl _) (Foot.refl _ s)
  .of_foot hfoot (hfoot.ctx (by decide)) (hfoot.arrivals (by decide)) (by decide)

theorem askAdmission_stays (s : State) (x c : Nat) : OpStays x s (s.askAdmission x c) :=
  have hfoot := askAdmission_foot (Sub.refl _) (Foot.refl _ s)
  .of_foot hfoot (hfoot.ctx (by decide)) (hfoot.arrivals (by decide)) (by decide)

theorem restartTimer_stays (s : State) (x : Nat) : OpStays x s (s.restartTimer x) := .setOp s x _ rfl rfl rfl

theorem output_stays (s : State) (x a r : Nat) (item : Item) (ts : List Target) : OpStays x s (s.output x a r item ts) := by
  unfold State.output
  split
  · exact .refl x s
  · exact (OpStays.setOp s x _ rfl rfl rfl).trans (publish_stays ..)

theorem sendSegment_stays (s : State) (x : Nat) : OpStays x s (s.sendSegment x) := by
  unfold State.sendSegment
  dsimp only
  split
  · exact .refl x s
  · next d hd =>
    have hsent : OpStays x s (s.setOp x (fun o => { o with segSent := true })) := .setOp s x _ rfl rfl rfl
    have hall := hsent.each (l := s.allSpines) (g := fun v j => v.sendItem reqMgt (v.groupPort (v.spineGroup j))
      (.descriptor { d with segment := true, rank := s.rd F.LST_SEG_INDEX (s.lastOf x) }) (v.lastOf x)) fun v j => sendItem_stays ..
    split
    · exact hall.trans (output_stays ..)
    · exact hall

theorem sendPartial_stays (s : State) (x : Nat) : OpStays x s (s.sendPartial x) := by
  unfold State.sendPartial
  split
  · exact .refl x s
  · dsimp only
    split
    · exact .refl x s
    · refine OpStays.each (OpStays.trans (.of_same ?_ ?_ ?_) (OpStays.setOp _ x _ ?_ ?_ ?_)) fun v _ => multicast_stays ..
      all_goals rfl

theorem sendPartials_stays (s : State) (x : Nat) : OpStays x s (s.sendPartials x) :=
  OpStays.each (.refl x s) fun v _ => sendPartial_stays v x

theorem forward_stays (s : State) (x : Nat) (a : Arrived) : OpStays x s (s.forward x a) := by
  have hitems (o : OpCtx) : (o.inputs.map (fun i => if i = ⟨a, true⟩ then ⟨a, false⟩ else i)).map (·.item) =
      o.inputs.map (·.item) := by
    rw [List.map_map]
    refine List.map_congr_left fun i _ => ?_
    show Accepted.item (if i = ⟨a, true⟩ then ⟨a, false⟩ else i) = i.item
    split
    · next h => rw [h]
    · rfl
  have hgo (ts : List Target) : OpStays x s ((s.setOp x (fun o => { o with
      made := o.made + ts.length
      inputs := o.inputs.map (fun i => if i = ⟨a, true⟩ then ⟨a, false⟩ else i) })).multicast a.ptr a.account
        (reqPort (dieOfPort a.port)) ts) := (OpStays.setOp s x _ rfl (hitems _) rfl).trans (multicast_stays ..)
  unfold State.forward
  dsimp only
  split
  · exact .refl x s
  split
  · exact hgo _
  split
  · split
    · exact .refl x s
    · exact hgo _
  · exact .refl x s

theorem freeSettled_stays (s : State) (x : Nat) : OpStays x s (s.freeSettled x) := by
  unfold State.freeSettled
  dsimp only
  split
  · exact .refl x s
  · refine OpStays.trans (OpStays.each (.refl x s) fun v i => dropArrived_stays ..) (OpStays.setOp _ x _ rfl ?_ rfl)
    rw [List.map_map]
    refine List.map_congr_left fun i _ => ?_
    show Accepted.item (if _ then _ else i) = i.item
    split <;> rfl

/-- What a manifest's check leaves to be done is at most the operation's closing. -/
theorem checkManifest_stays (s : State) (x r : Nat) : OpStays x s (s.checkManifest x r).1 ∧
    ∀ w ∈ (s.checkManifest x r).2, w = .close x stAborted := by
  unfold State.checkManifest
  dsimp only
  split
  · exact ⟨.refl x s, fun w hw => absurd hw List.not_mem_nil⟩
  split
  · split
    · exact ⟨(OpStays.setOp s x _ rfl rfl rfl).mark _, fun w hw => absurd hw List.not_mem_nil⟩
    · refine ⟨?_, fun w hw => List.mem_singleton.mp hw⟩
      exact ((((OpStays.refl x s).inc (by decide)).wr (by decide)).wr (by decide)).wr (by decide)
  · exact ⟨.refl x s, fun w hw => absurd hw List.not_mem_nil⟩

end Sys2Proof.Machine
end

section
/-!
SUPPORT. Work on the operation of one context, of no PARITY context and with nothing held for the next operation: the
operation goes on with what it has taken in, or it has closed (R155, R158).
-/

namespace Sys2Proof.Machine

variable {s t u : State} {x st : Nat}

theorem sendRecords_arrivals (s : State) (x st : Nat) : SameArrivals s (s.sendRecords x st) :=
  SameArrivals.each (.refl s) fun _ _ => (sendItem_keeps_arrivals ..).1

theorem closeRecovery_sched (s : State) (x st : Nat) : (s.closeRecovery x st).sched = s.sched := by
  unfold State.closeRecovery
  split
  · dsimp only
    split
    · split <;> rfl
    · split <;> rfl
  · rfl

theorem closeCount_arrivals (s : State) (x n v st : Nat) : SameArrivals s (s.closeCount x n v st) := by
  have hcounted (w : State) : (if st = stDone then (w.inc F.OPC_OPS_DONE 1 x).inc F.LST_OPS_DONE 1 v
      else if st = stIncomplete then (w.inc F.OPC_FAIL_INCOMPLETE 1 x).inc F.LST_OPS_INCOMPLETE 1 v
      else (w.inc F.OPC_FAIL_ABORTED 1 x).inc F.LST_OPS_ABORTED 1 v).sched = w.sched := by
    split
    · rfl
    · split <;> rfl
  have hrecords := sendRecords_arrivals (s.wr F.OPC_STATE_STATUS st x) x st
  have htail := (closeRecovery_sched _ x st).trans (hcounted ((s.wr F.OPC_STATE_STATUS st x).sendRecords x st))
  unfold State.closeCount
  exact ⟨(congrArg SchedState.descs htail).trans hrecords.descs, (congrArg SchedState.released htail).trans hrecords.released⟩

theorem closeRelease_arrivals (s : State) (x n : Nat) (o : OpCtx) : SameArrivals s (s.closeRelease x n o) := by
  have hdrop (w : State) (a : Arrived) : SameArrivals w (w.dropArrived a) :=
    (dropArrived_foot (Sub.refl _) (Foot.refl _ w)).arrivals (by decide)
  have hheld (w : State) (it : HeldItem) : SameArrivals w (match it with
      | .swatch a => w.dropArrived a
      | .desc b => w.dropDesc b) := by
    cases it with
    | swatch a => exact hdrop w a
    | desc b => exact (dropDesc_foot (Sub.refl _) (Foot.refl _ w)).arrivals (by decide)
  unfold State.closeRelease
  refine SameArrivals.trans ?_ ((unlist_foot (Sub.refl _) (Foot.refl _ _)).arrivals (by decide))
  refine SameArrivals.trans ?_ (freeStreams_arrivals ..)
  refine SameArrivals.each (SameArrivals.comp (SameArrivals.each (SameArrivals.bpm (SameArrivals.each
    (SameArrivals.each (.refl s) fun w e => ?chunk) fun w i => hdrop w i.item)) fun w h => ?part)) fun w u => ?held
  case chunk => exact (dropChunk_foot (Sub.refl _) (Foot.refl _ w)).arrivals (by decide)
  case part =>
    split
    · exact (decRef_foot (Sub.refl _) (Foot.refl _ w)).arrivals (by decide)
    · exact (freeObj_foot (Sub.refl _) (Foot.refl _ w)).arrivals (by decide)
  case held =>
    dsimp only
    split
    · refine SameArrivals.trans ?_ ((syncHeld_foot (Sub.refl _) (Foot.refl _ _)).arrivals (by decide))
      exact SameArrivals.spore (SameArrivals.each (.refl w) fun w e => hheld w e.2)
    · exact .refl w

theorem closeAbort_arrivals (s : State) (x n v st : Nat) : SameArrivals s (s.closeAbort x n v st) := by
  unfold State.closeAbort
  dsimp only
  split
  · exact .refl s
  · exact publish_arrivals ..

theorem closeEpoch_arrivals (s : State) (x v st : Nat) : SameArrivals s (s.closeEpoch x v st).1 :=
  (closeEpoch_foot (Sub.refl _) (Foot.refl _ s)).arrivals (by decide)

theorem closeCore_arrivals (s : State) (x st : Nat) : SameArrivals s (s.closeCore x st).1 := by
  have hrelease := (closeRelease_arrivals s x (s.opnum x) (s.op x)).trans
    ((notEarly_foot (x := x) (Sub.refl _) (Foot.refl _ _)).arrivals (by decide))
  have hall := ((hrelease.trans (closeCount_arrivals _ x (s.opnum x) (s.lastOf x) st)).trans
    (closeAbort_arrivals _ x (s.opnum x) (s.lastOf x) st)).trans (closeEpoch_arrivals _ x (s.lastOf x) st)
  have hkeep (w : State) (l : List HeldItem) : SameArrivals w (w.keepEarly x l) := .of_sched rfl
  unfold State.closeCore
  split
  · exact .refl s
  · dsimp only
    split
    · exact hall.trans (hkeep _ _)
    · split
      · exact hall.trans (hkeep _ _)
      · exact hall

/-- From `s` to `t` the operation of context x goes on: with what it has taken in, counted as it was, and still begun. -/
structure Going (x : Nat) (s t : State) : Prop where
  descs : (t.op x).descs = (s.op x).descs
  items : (t.op x).inputs.map (·.item) = (s.op x).inputs.map (·.item)
  early : (t.op x).early = (s.op x).early
  kind : t.kind x = s.kind x
  opnum : t.opnum x = s.opnum x
  descCount : t.rd F.OPC_STATE_DESCS x = s.rd F.OPC_STATE_DESCS x
  swatches : t.rd F.OPC_RECV_SWATCHES x = s.rd F.OPC_RECV_SWATCHES x
  bytes : t.rd F.OPC_BYTES_BYTES x = s.rd F.OPC_BYTES_BYTES x
  begun : s.ctxState x ≠ ctxIdle → t.ctxState x ≠ ctxIdle

theorem OpStays.going (h : OpStays x s t) : Going x s t :=
  ⟨h.descs, h.items, h.early, h.regs F.OPC_DECL_KIND x 0 (by decide), h.regs F.NUM_OPSEQ_OPNUM x 0 (by decide), h.regs _ x 0 (by decide), h.regs _ x 0 (by decide),
    h.regs _ x 0 (by decide), fun hs he => hs ((h.regs F.OPC_STATE_STATE x 0 (by decide)).symm.trans he)⟩

theorem Going.trans (h : Going x s t) (h' : Going x t u) : Going x s u :=
  ⟨h'.descs.trans h.descs, h'.items.trans h.items, h'.early.trans h.early, h'.kind.trans h.kind, h'.opnum.trans h.opnum,
    h'.descCount.trans h.descCount, h'.swatches.trans h.swatches, h'.bytes.trans h.bytes, fun hs => h'.begun (h.begun hs)⟩

/-- A context that enters FLUSH has begun. -/
theorem toFlush_going (s : State) (x : Nat) : Going x s ((s.wr F.OPC_STATE_STATE ctxFlush x).mark (.flush x)) := by
  have hother (f : Fld) (h : f.key 0 0 ≠ F.OPC_STATE_STATE.key 0 0) : (s.wr F.OPC_STATE_STATE ctxFlush x).rd f x = s.rd f x :=
    rd_wr_other _ _ _ _ _ _ _ _ h
  have hflush : (s.wr F.OPC_STATE_STATE ctxFlush x).ctxState x = ctxFlush := rd_wr_same ..
  exact ⟨rfl, rfl, rfl, hother F.OPC_DECL_KIND (by decide), hother F.NUM_OPSEQ_OPNUM (by decide), hother _ (by decide),
    hother _ (by decide), hother _ (by decide), fun _ he => absurd (hflush.symm.trans he) (by decide)⟩

/-- R158: an operation that goes to FLUSH goes on, and nothing that waits to be decided changes. -/
theorem enterFlush_going (s : State) (x : Nat) : Going x s (s.enterFlush x) ∧ SameArrivals s (s.enterFlush x) := by
  unfold State.enterFlush
  split
  · dsimp only
    split
    · have hout := output_stays ((s.wr F.OPC_STATE_STATE ctxFlush x).mark (.flush x)) x
      have hmark : SameArrivals s ((s.wr F.OPC_STATE_STATE ctxFlush x).mark (.flush x)) := .of_sched rfl
      exact ⟨(toFlush_going s x).trans (hout _ _ _ _).going, hmark.trans (hout _ _ _ _).arrivals⟩
    · exact ⟨toFlush_going s x, .of_sched rfl⟩
  · exact ⟨(OpStays.refl x s).going, .refl s⟩

/-- What is to be done of the operation of context x alone. -/
def Work.isOf (x : Nat) : Work → Prop
  | .ask y _ | .close y _ | .settle y => y = x
  | _ => False

/-- While work on the operation that context x had in `s` is done: it goes on, or it has closed. -/
structure InWork (x : Nat) (s u : State) : Prop where
  arrivals : SameArrivals s u
  kind : u.kind x ≠ kParity
  stands : Going x s u ∧ (u.op x).early = [] ∨
    u.opnum x = (s.opnum x + 1) % 2 ^ 32 ∧ (u.ctxState x = ctxIdle ∨ u.ctxState x = ctxClosing)

theorem InWork.mark (h : InWork x s u) (m : Mark) : InWork x s (u.mark m) := by
  refine ⟨⟨h.arrivals.descs, h.arrivals.released⟩, h.kind, h.stands.imp_left fun ⟨hgo, he⟩ => ⟨hgo.trans ?_, he⟩⟩
  exact ⟨rfl, rfl, rfl, rfl, rfl, rfl, rfl, rfl, id⟩

theorem closedState_cases (st : Nat) : closedState st = ctxIdle ∨ closedState st = ctxClosing := by
  unfold closedState
  split
  · exact .inl rfl
  · exact .inr rfl

theorem InWork.close (h : InWork x s u) (st : Nat) : InWork x s (u.closeCore x st).1 ∧ (u.closeCore x st).2 = [] := by
  by_cases hopen : u.ctxState x = ctxIdle ∨ u.ctxState x = ctxUndeclared ∨ u.ctxState x = ctxClosing
  · have hsame : u.closeCore x st = (u, []) := by
      unfold State.closeCore
      rw [if_pos hopen]
    rw [hsame]
    exact ⟨h, rfl⟩
  · rcases h.stands with ⟨hgo, he⟩ | ⟨-, hclosed⟩
    · obtain ⟨hmore, hclosed⟩ := closeCore_closed (st := st) hopen he h.kind
      have hkind : (u.closeCore x st).1.kind x = u.kind x := (closeCore_foot (Sub.refl _) (Foot.refl _ u)).rd _ _ _ (by decide)
      refine ⟨⟨h.arrivals.trans (closeCore_arrivals ..), hkind ▸ h.kind, .inr ⟨hgo.opnum ▸ hclosed.opnum, ?_⟩⟩, hmore⟩
      rw [hclosed.state]
      exact closedState_cases st
    · exact absurd (hclosed.imp_right .inr) hopen

theorem InWork.settle (h : InWork x s u) : InWork x s (u.settleCore x).1 ∧
    ((u.settleCore x).2 = [] ∨ (u.settleCore x).2 = [.close x stDone]) := by
  have hflush : InWork x s (u.enterFlush x) := by
    have ⟨hgo, harrivals⟩ := enterFlush_going u x
    refine ⟨h.arrivals.trans harrivals, hgo.kind ▸ h.kind, ?_⟩
    rcases h.stands with ⟨hgo', he⟩ | ⟨hnum, hclosed⟩
    · exact .inl ⟨hgo'.trans hgo, hgo.early.trans he⟩
    · have hsame : u.enterFlush x = u := by
        unfold State.enterFlush
        rw [if_neg]
        rintro ⟨ho, -⟩
        rw [ho] at hclosed
        exact absurd hclosed (by decide)
      rw [hsame]
      exact .inr ⟨hnum, hclosed⟩
  rw [settleCore_eq]
  split
  · exact ⟨hflush.mark _, .inr rfl⟩
  · exact ⟨hflush, .inl rfl⟩

/-- R155, R158: work on one operation leaves it going on with what it has taken in, or closed. -/
theorem InWork.runWork {fuel : Nat} {l : List Work} (h : InWork x s u) (hl : ∀ w ∈ l, w.isOf x) :
    InWork x s (runWork fuel u l) := by
  induction fuel generalizing u l with
  | zero => exact h
  | succ fuel ih =>
    cases l with
    | nil => exact h
    | cons w rest =>
      have hrest : ∀ w ∈ rest, w.isOf x := fun w hw => hl w (List.mem_cons_of_mem _ hw)
      have hw := hl w List.mem_cons_self
      cases w with
      | item => exact hw.elim
      | early => exact hw.elim
      | ask y st =>
        cases hw
        exact ih (h.mark _) hrest
      | close y st =>
        cases hw
        obtain ⟨hclose, hmore⟩ := h.close st
        show InWork x s (Machine.runWork fuel (u.closeCore x st).1 ((u.closeCore x st).2 ++ rest))
        rw [hmore]
        exact ih hclose hrest
      | settle y =>
        cases hw
        obtain ⟨hsettle, hmore⟩ := h.settle
        show InWork x s (Machine.runWork fuel (u.settleCore x).1 ((u.settleCore x).2 ++ rest))
        refine ih hsettle fun w hw => ?_
        rcases List.mem_append.mp hw with hw | hw
        · rcases hmore with hmore | hmore
          · rw [hmore] at hw
            exact absurd hw List.not_mem_nil
          · rw [hmore] at hw
            rw [List.mem_singleton.mp hw]
            exact rfl
        · exact hrest w hw

end Sys2Proof.Machine
end

section
/-!
SUPPORT. The descriptor at the head of those that wait, decided (R145, R154, R166, R167).
-/

namespace Sys2Proof.Machine

variable {s t u : State} {x : Nat} {b : ArrivedDesc}

/-- The descriptor at the head is taken from those that wait. -/
def State.nextDesc (s : State) (rest : List ArrivedDesc) : State := { s with sched := { s.sched with descs := rest } }

theorem work_item (s : State) (x : Nat) (it : HeldItem) :
    ∃ n, s.work [.item x it] = runWork n (s.offer it false).1 (s.offer it false).2 := by
  refine ⟨s.workFuel + 99, ?_⟩
  rw [← List.append_nil (s.offer it false).2]
  rfl

theorem descriptorArrival_eq {rest : List ArrivedDesc} (h : s.sched.descs = b :: rest) :
    ∃ n, s.descriptorArrival = runWork n ((s.nextDesc rest).offerDesc b false).1 ((s.nextDesc rest).offerDesc b false).2 := by
  obtain ⟨n, hn⟩ := work_item (s.nextDesc rest) b.desc.context (.desc b)
  refine ⟨n, Eq.trans ?_ hn⟩
  unfold State.descriptorArrival
  rw [h]
  rfl

/-- An item whose decision leaves nothing to be done. -/
theorem descriptorArrival_decided {rest : List ArrivedDesc} (h : s.sched.descs = b :: rest)
    (ho : (s.nextDesc rest).offerDesc b false = (t, [])) : s.descriptorArrival = t := by
  obtain ⟨n, hn⟩ := descriptorArrival_eq h
  rw [hn, ho]
  exact runWork_nil ..

theorem offerDesc_undeclared (hu : s.undeclared b.desc.context = true) (past : Bool) :
    s.offerDesc b past = ((s.dropDesc b).dropUndecl b.port b.desc.context, []) := by
  unfold State.offerDesc
  dsimp only
  rw [hu]
  rfl

theorem offerDesc_stale (hu : s.undeclared b.desc.context = false) (hn : s.opnumOk b.desc.context b.desc.opnum = false)
    (past : Bool) : s.offerDesc b past = ((s.dropDesc b).inc F.OPC_DROPS_STALE 1 b.desc.context, []) := by
  unfold State.offerDesc
  dsimp only
  rw [hu, hn]
  rfl

/-- A refused descriptor is counted, and its sender told (R145). -/
def State.descRefused (s : State) (b : ArrivedDesc) (code : Nat) : State :=
  let x := b.desc.context
  let s := ((((s.dropDesc b).inc F.OPC_REFUSED_COUNT).wr F.OPC_REFUSED_CONTEXT x).wr F.OPC_REFUSED_PORT b.port).wr
    F.OPC_REFUSED_CODE code
  s.sendControl reqMgt (s.groupPort (s.groupOf b.port)) 1 (completion x (0x10 + code) 0 b.desc.opnum b.desc.tag 0)

theorem offerDesc_refused (hu : s.undeclared b.desc.context = false) (hn : s.opnumOk b.desc.context b.desc.opnum = true)
    (hc : s.refusal b.port b.desc ≠ 0) (past : Bool) :
    s.offerDesc b past = (s.descRefused b (s.refusal b.port b.desc), []) := by
  unfold State.offerDesc
  dsimp only
  rw [hu, hn, Bool.not_true, if_neg Bool.false_ne_true, if_neg Bool.false_ne_true, if_pos hc]
  rfl

/-- A descriptor that passes the checks is held, or accepted. -/
structure DescPasses (s : State) (b : ArrivedDesc) : Prop where
  declared : s.undeclared b.desc.context = false
  opnum : s.opnumOk b.desc.context b.desc.opnum = true
  code : s.refusal b.port b.desc = 0
  noAbort : b.desc.abort = false
  noDup : (s.knownDescs b.desc.context b.desc.opnum).any (fun e => e.rank == b.desc.rank) = false

theorem offerDesc_passes (h : DescPasses s b) (past : Bool) : s.offerDesc b past =
    match s.holdItem b.desc.context b.desc.opnum b.port (.desc b) past with
    | some s => (s, [])
    | none => s.takeDesc b.desc.context b := by
  unfold State.offerDesc
  dsimp only
  rw [h.declared, h.opnum, h.code, h.noAbort, h.noDup]
  rfl

/-- R167: an item of the next operation, or of a context that is CLOSING, is held as an early one. -/
theorem holdItem_early {p n : Nat} {it : HeldItem} (hc : s.cutHolds x p = none) (h : n ≠ s.opnum x ∨ s.ctxState x = ctxClosing) :
    s.holdItem x n p it false = some (s.holdEarly x n it) := by
  unfold State.holdItem
  rw [if_neg Bool.false_ne_true, hc]
  exact if_pos h

theorem holdItem_none {p n : Nat} {it : HeldItem} (hc : s.cutHolds x p = none) (hn : n = s.opnum x)
    (hs : s.ctxState x ≠ ctxClosing) (hd : s.drainHolds x = false) : s.holdItem x n p it false = none := by
  unfold State.holdItem
  rw [if_neg Bool.false_ne_true, hc, hd]
  exact if_neg (not_or.mpr ⟨not_not_intro hn, hs⟩)

/-- An item waits for the next operation of context x. -/
def State.holdNext (s : State) (x : Nat) (it : HeldItem) : State :=
  (s.setOp x (fun o => { o with early := o.early ++ [it] })).wr F.OPC_STATE_EARLY 1 x

theorem holdEarly_eq (s : State) (x n : Nat) (it : HeldItem) : s.holdEarly x n it =
    if it.sched && n != (s.holdNext x it).opnum x then (s.holdNext x it).earlyLoss (some x) else s.holdNext x it := rfl

theorem holdEarly_holds (s : State) (x n : Nat) (it : HeldItem) : ((s.holdEarly x n it).op x).early = (s.op x).early ++ [it] ∧
    (s.holdEarly x n it).rd F.OPC_STATE_EARLY x = 1 ∧ (s.holdEarly x n it).ctxState x = s.ctxState x ∧
    SameArrivals s (s.holdEarly x n it) := by
  have hheld : ((s.holdNext x it).op x).early = (s.op x).early ++ [it] := congrArg OpCtx.early (setOp_op s x _)
  have hearly : (s.holdNext x it).rd F.OPC_STATE_EARLY x = 1 := rd_wr_same ..
  have hstate : (s.holdNext x it).ctxState x = s.ctxState x := rd_wr_other _ _ _ _ _ _ _ _ (by decide)
  have harrivals : SameArrivals s (s.holdNext x it) := .of_sched rfl
  rw [holdEarly_eq]
  split
  · have hloss := earlyLoss_foot (x := some x) (Sub.refl _) (Foot.refl _ (s.holdNext x it))
    refine ⟨?_, (hloss.rd _ _ _ (by decide)).trans hearly, (hloss.rd F.OPC_STATE_STATE _ _ (by decide)).trans hstate,
      harrivals.trans (hloss.arrivals (by decide))⟩
    unfold State.op
    rw [hloss.ctx (by decide)]
    exact hheld
  · exact ⟨hheld, hearly, hstate, harrivals⟩

theorem exec_descriptorArrival (hs : s.active = true) : exec .descriptorArrival s = .next s.descriptorArrival :=
  onActive_eq (f := State.descriptorArrival) rfl hs

theorem exec_swatchAccept (hs : s.active = true) : exec .swatchAccept s = .next s.swatchAccept :=
  onActive_eq (f := State.swatchAccept) rfl hs

end Sys2Proof.Machine
end

section
/-!
SUPPORT. A descriptor that is accepted (R145, R146): it is among the operation's, counted, and the context has begun.
-/

namespace Sys2Proof.Machine

variable {s t u : State} {x : Nat} {b : ArrivedDesc} {d : Descriptor} {a : Arrived}

/-- The registers that tell where an operation stands, whatever it has taken in. -/
def standRegs : List Reg := [.OPC_STATE, .NUM_OPSEQ, .OPC_DECL]

/-- From `s` to `t` the operation of context x keeps its descriptors and the items that wait for the next one, and stands
where it stood; swatches may be taken back. -/
structure DescsStay (x : Nat) (s t : State) : Prop where
  arrivals : SameArrivals s t
  descs : (t.op x).descs = (s.op x).descs
  early : (t.op x).early = (s.op x).early
  regs : ∀ (f : Fld) (i j : Nat), f.reg ∈ standRegs → t.rd f i j = s.rd f i j

theorem DescsStay.refl (x : Nat) (s : State) : DescsStay x s s := ⟨.refl s, rfl, rfl, fun _ _ _ _ => rfl⟩

theorem DescsStay.trans (h : DescsStay x s t) (h' : DescsStay x t u) : DescsStay x s u :=
  ⟨h.arrivals.trans h'.arrivals, h'.descs.trans h.descs, h'.early.trans h.early,
    fun f i j hf => (h'.regs f i j hf).trans (h.regs f i j hf)⟩

theorem OpStays.descsStay (h : OpStays x s t) : DescsStay x s t := by
  have hsub : ∀ r ∈ standRegs, r ∈ opRegs := by decide
  exact ⟨h.arrivals, h.descs, h.early, fun f i j hf => h.regs f i j (hsub _ hf)⟩

theorem DescsStay.of_foot {m : Nat} (h : Foot m s t) (hsched : m.testBit 306 = false)
    (hm : standRegs.all (fun r => !m.testBit r.ctorIdx) = true) (hd : (t.op x).descs = (s.op x).descs)
    (he : (t.op x).early = (s.op x).early) : DescsStay x s t := by
  refine ⟨h.arrivals hsched, hd, he, fun f i j hf => h.rd f i j ?_⟩
  rw [← Bool.not_eq_true']
  exact List.all_eq_true.mp hm _ hf

/-- The operation of context x without a swatch that it has taken in. -/
def OpCtx.without (o : OpCtx) (a : Arrived) : OpCtx := { o with inputs := o.inputs.filter (fun i => i.item != a) }

theorem takeBack_op (s : State) (x : Nat) (a : Arrived) : (s.takeBack x a).1.op x = (s.op x).without a := by
  have hdrop (w : State) (c : Bool) : (if c then w.dropArrived a else w).ctx = w.ctx := by
    split
    · exact (dropArrived_foot (Sub.refl _) (Foot.refl _ w)).ctx (by decide)
    · rfl
  have hchunk (w : State) (c : Nat) : (w.dropChunk x c).ctx = w.ctx := (dropChunk_foot (Sub.refl _) (Foot.refl _ w)).ctx (by decide)
  delta State.takeBack
  extract_lets o c s₁ s₂ s₃ s₄ s₅
  have hset : s₂.op x = (s.op x).without a := by
    refine (setOp_op s₁ x _).trans (congrArg (fun o => OpCtx.without o a) ?_)
    unfold State.op
    rw [hdrop]
  have hctx : s₅.ctx = s₂.ctx := (wr_ctx ..).trans ((wr_ctx ..).trans (inc_ctx ..))
  have hcounted : s₅.op x = (s.op x).without a := by
    refine Eq.trans ?_ hset
    unfold State.op
    rw [hctx]
  split
  · exact hcounted
  · unfold State.op
    rw [hchunk]
    exact hcounted

/-- R488: a swatch that is taken back leaves the descriptors, and at most the operation's disagreement to be told. -/
theorem takeBack_stays (s : State) (x : Nat) (a : Arrived) : DescsStay x s (s.takeBack x a).1 ∧
    ∀ w ∈ (s.takeBack x a).2, w.isOf x := by
  refine ⟨.of_foot (takeBack_foot (Sub.refl _) (Foot.refl _ s)) (by decide) (by decide) ?_ ?_, ?_⟩
  · rw [takeBack_op]
    rfl
  · rw [takeBack_op]
    rfl
  · unfold State.takeBack
    dsimp only
    split
    · intro w hw
      rw [List.mem_singleton.mp hw]
      exact rfl
    · exact fun w hw => absurd hw List.not_mem_nil

/-- What follows from a descriptor that has joined its operation: swatches out of its range are taken back, those that it
places are sent on, and a manifest is checked. -/
def State.descTail (s : State) (x : Nat) (d : Descriptor) (told : List Work) : State × List Work :=
  let mine := ((s.op x).inputs.map (·.item)).filter (fun a =>
    (s.checkDesc ((s.op x).descs.map Prod.snd) a) == some d && !s.rangeOk a d)
  let back := mine.foldl (fun acc a => ((acc.1.takeBack x a).1, acc.2 ++ (acc.1.takeBack x a).2)) (s, ([] : List Work))
  let s := (back.1.each ((back.1.op x).inputs.map (·.item)) (fun s a => s.forward x a)).sendPartials x
  let man := s.checkManifest x d.rank
  let closing := told ++ back.2 ++ man.2
  let hall := man.1.level (man.1.lastOf x) == levelSegment && man.1.kind x != kExchange && man.1.kind x != kParity
  let s := if hall && closing.isEmpty && !man.1.marked (.ending x (man.1.opnum x) 4) 2 && !(man.1.op x).segSent &&
      (man.1.descSenders x).all (fun r => ((man.1.op x).descOf r).isSome) then man.1.sendSegment x else man.1
  (s, closing ++ [.settle x])

/-- Swatches out of range, taken back one after the other. -/
theorem takeBacks_stay (x : Nat) (l : List Arrived) (acc : State × List Work) (hw : ∀ w ∈ acc.2, w.isOf x) :
    let r := l.foldl (fun acc a => ((acc.1.takeBack x a).1, acc.2 ++ (acc.1.takeBack x a).2)) acc
    DescsStay x acc.1 r.1 ∧ ∀ w ∈ r.2, w.isOf x := by
  induction l generalizing acc with
  | nil => exact ⟨.refl x acc.1, hw⟩
  | cons a l ih =>
    obtain ⟨hstay, hback⟩ := takeBack_stays acc.1 x a
    obtain ⟨hrest, hall⟩ := ih (_, acc.2 ++ (acc.1.takeBack x a).2) fun w hm => (List.mem_append.mp hm).elim (hw w) (hback w)
    exact ⟨hstay.trans hrest, hall⟩

theorem stays_of_ite {c : Prop} [Decidable c] (ht : OpStays x s t) (hu : OpStays x s u) : OpStays x s (if c then t else u) := by
  split
  · exact ht
  · exact hu

theorem isOf_single {v : Work} (h : v.isOf x) : ∀ w ∈ [v], w.isOf x := fun w hw => by rwa [List.mem_singleton.mp hw]

theorem isOf_of_ite {c : Prop} [Decidable c] {st : Nat} : ∀ w ∈ (if c then [Work.ask x st] else []), w.isOf x := by
  split
  · exact isOf_single rfl
  · exact fun w hw => absurd hw List.not_mem_nil

theorem isOf_append {l m : List Work} (hl : ∀ w ∈ l, w.isOf x) (hm : ∀ w ∈ m, w.isOf x) : ∀ w ∈ l ++ m, w.isOf x :=
  fun w hw => (List.mem_append.mp hw).elim (hl w) (hm w)

theorem descTail_stays (s : State) (x : Nat) (d : Descriptor) {told : List Work} (ht : ∀ w ∈ told, w.isOf x) :
    DescsStay x s (s.descTail x d told).1 ∧ ∀ w ∈ (s.descTail x d told).2, w.isOf x := by
  delta State.descTail
  extract_lets mine back s₁ man closing hall s₂
  obtain ⟨hback, hbackWork⟩ := takeBacks_stay x mine (s, []) fun w hw => absurd hw List.not_mem_nil
  have hsent : OpStays x back.1 s₁ := (OpStays.each (.refl x back.1) fun _ _ => forward_stays ..).trans (sendPartials_stays ..)
  obtain ⟨hman, hmanWork⟩ := checkManifest_stays s₁ x d.rank
  have hseg : OpStays x man.1 s₂ := stays_of_ite (sendSegment_stays ..) (.refl x man.1)
  have hmanOf : ∀ w ∈ man.2, w.isOf x := fun w hw => by rw [hmanWork w hw]; exact rfl
  clear_value s₂
  exact ⟨hback.trans ((hsent.trans hman).trans hseg).descsStay,
    isOf_append (isOf_append (isOf_append ht hbackWork) hmanOf) (isOf_single rfl)⟩

theorem joinEpoch_none (hk : s.kind x ≠ kParity) (p : Nat) (d : Descriptor) : s.joinEpoch x p d = (s, []) := by
  unfold State.joinEpoch
  rw [beq_eq_false_iff_ne.mpr hk]

theorem mirrorDesc_stays (s : State) (x : Nat) (b : ArrivedDesc) : OpStays x s (s.mirrorDesc b) := mirrorAll_stays ..

/-- What the opening of an operation leaves: what waits, what is known of the operation, and the context OPEN. -/
structure Begins (x : Nat) (s t : State) : Prop where
  arrivals : SameArrivals s t
  descs : (t.op x).descs = (s.op x).descs
  early : (t.op x).early = (s.op x).early
  kind : t.kind x = s.kind x
  opnum : t.opnum x = s.opnum x
  begun : t.ctxState x ≠ ctxIdle

theorem Begins.stays (h : Begins x s t) (h' : OpStays x t u) : Begins x s u :=
  ⟨h.arrivals.trans h'.arrivals, h'.descs.trans h.descs, h'.early.trans h.early, h'.going.kind.trans h.kind,
    h'.going.opnum.trans h.opnum, h'.going.begun h.begun⟩

theorem openLate_stays (s : State) (x : Nat) : OpStays x s (s.openLate x) :=
  have hfoot := openLate_foot (Sub.refl _) (Foot.refl _ s)
  .of_foot hfoot (hfoot.ctx (by decide)) (hfoot.arrivals (by decide)) (by decide)

/-- The registers of an operation that opens. -/
def State.openRegs (s : State) (x : Nat) : State :=
  let s := ((s.wr F.OPC_STATE_STATE ctxOpen x).wr F.OPC_RECV_SWATCHES 0 x).wr F.OPC_BYTES_BYTES 0 x
  ((s.wr F.OPC_STATE_NONFIN 0 x).wr F.OPC_STATE_SAT 0 x).wr F.OPC_STATE_WARM 0 x

theorem openRegs_begins (s : State) (x : Nat) : Begins x s (s.openRegs x) := by
  have hstate : (s.openRegs x).ctxState x = ctxOpen := by
    unfold State.openRegs State.ctxState
    simp (disch := decide) only [rd_wr_other, rd_wr_same]
    rfl
  have hop : (s.openRegs x).op x = s.op x := by
    unfold State.openRegs State.op
    simp only [wr_ctx]
  constructor
  case arrivals =>
    refine .of_sched ?_
    unfold State.openRegs
    simp only [wr_sched]
  case descs => rw [hop]
  case early => rw [hop]
  case kind =>
    unfold State.openRegs State.kind
    simp (disch := decide) only [rd_wr_other]
  case opnum =>
    unfold State.openRegs State.opnum
    simp (disch := decide) only [rd_wr_other]
  case begun => exact fun he => absurd (hstate.symm.trans he) (by decide)

theorem openOp_eq (s : State) (x : Nat) : s.openOp x =
    ((((s.each openFields (fun s f => s.noteWas f x)).mark (.opened x)).openRegs x).restartTimer x).openLate x := rfl

theorem openOp_begins (s : State) (x : Nat) : Begins x s (s.openOp x) := by
  have hnoted : OpStays x s ((s.each openFields (fun s f => s.noteWas f x)).mark (.opened x)) :=
    (OpStays.each (.refl x s) fun v f => (OpStays.refl x v).mark _).mark _
  rw [openOp_eq]
  generalize (s.each openFields _).mark _ = t at hnoted ⊢
  obtain ⟨harrivals, hdescs, hearly, hkind, hopnum, hbegun⟩ := openRegs_begins t x
  have hregs : Begins x s (t.openRegs x) := ⟨hnoted.arrivals.trans harrivals, hdescs.trans hnoted.descs,
    hearly.trans hnoted.early, hkind.trans hnoted.going.kind, hopnum.trans hnoted.going.opnum, hbegun⟩
  exact (hregs.stays (restartTimer_stays ..)).stays (openLate_stays ..)

theorem OpStays.begins (h : OpStays x s t) (hs : s.ctxState x ≠ ctxIdle) : Begins x s t :=
  ⟨h.arrivals, h.descs, h.early, h.going.kind, h.going.opnum, h.going.begun hs⟩

theorem begins_of_ite (s : State) (x : Nat) : Begins x s (if s.ctxState x = ctxIdle then s.openOp x else s) := by
  split
  · exact openOp_begins s x
  · next h => exact (OpStays.refl x s).begins h

/-- A descriptor that is accepted has joined its operation, which has begun; what is left to be done is of that operation. -/
structure DescTaken (x : Nat) (b : ArrivedDesc) (s t : State) : Prop where
  arrivals : SameArrivals s t
  descs : (t.op x).descs = (s.op x).descs ++ [(b.port, b.desc)]
  count : t.rd F.OPC_STATE_DESCS x = ((s.op x).descs.length + 1) % 2 ^ F.OPC_STATE_DESCS.width
  begun : t.ctxState x ≠ ctxIdle
  early : (t.op x).early = (s.op x).early
  opnum : t.opnum x = s.opnum x
  kind : t.kind x = s.kind x

theorem DescTaken.stays (h : DescTaken x b s t) (h' : DescsStay x t u) : DescTaken x b s u :=
  ⟨h.arrivals.trans h'.arrivals, h'.descs.trans h.descs, (h'.regs _ _ _ (by decide)).trans h.count,
    fun he => h.begun ((h'.regs F.OPC_STATE_STATE x 0 (by decide)).symm.trans he), h'.early.trans h.early,
    (h'.regs F.NUM_OPSEQ_OPNUM x 0 (by decide)).trans h.opnum, (h'.regs F.OPC_DECL_KIND x 0 (by decide)).trans h.kind⟩

theorem DescTaken.after {v : State} (h : DescTaken x b u v) (h₁ : OpStays x s t) (h₂ : Begins x t u) : DescTaken x b s v := by
  have hdescs : (u.op x).descs = (s.op x).descs := h₂.descs.trans h₁.descs
  refine ⟨(h₁.arrivals.trans h₂.arrivals).trans h.arrivals, hdescs ▸ h.descs, hdescs ▸ h.count, h.begun,
    h.early.trans (h₂.early.trans h₁.early), h.opnum.trans (h₂.opnum.trans h₁.going.opnum),
    h.kind.trans (h₂.kind.trans h₁.going.kind)⟩

/-- The descriptor is one of the operation's. -/
def State.joinDesc (s : State) (x : Nat) (b : ArrivedDesc) : State :=
  s.setOp x (fun o => { o with descs := o.descs ++ [(b.port, b.desc)] })

theorem joinDesc_taken (hs : s.ctxState x ≠ ctxIdle) :
    DescTaken x b s ((s.joinDesc x b).wr F.OPC_STATE_DESCS ((s.joinDesc x b).op x).descs.length x) := by
  have hdescs : ((s.joinDesc x b).op x).descs = (s.op x).descs ++ [(b.port, b.desc)] := congrArg OpCtx.descs (setOp_op ..)
  have hearly : ((s.joinDesc x b).op x).early = (s.op x).early := (congrArg OpCtx.early (setOp_op ..)).trans rfl
  have hop (n : Nat) : ((s.joinDesc x b).wr F.OPC_STATE_DESCS n x).op x = (s.joinDesc x b).op x :=
    congrArg (SMap.get · [x]) (wr_ctx ..)
  have hother (f : Fld) (h : f.key 0 0 ≠ F.OPC_STATE_DESCS.key 0 0) (n : Nat) :
      ((s.joinDesc x b).wr F.OPC_STATE_DESCS n x).rd f x = s.rd f x := rd_wr_other _ _ _ _ _ _ _ _ h
  constructor
  case arrivals => exact .of_sched (wr_sched ..)
  case descs => rw [hop, hdescs]
  case early => rw [hop, hearly]
  case count =>
    rw [rd_wr_same, hdescs, List.length_append]
    rfl
  case begun => exact fun he => hs ((hother F.OPC_STATE_STATE (by decide) _).symm.trans he)
  case opnum => exact hother F.NUM_OPSEQ_OPNUM (by decide) _
  case kind => exact hother F.OPC_DECL_KIND (by decide) _

theorem takeDesc_taken (hk : s.kind x ≠ kParity) : DescTaken x b s (s.takeDesc x b).1 ∧
    ∀ w ∈ (s.takeDesc x b).2, w.isOf x := by
  delta State.takeDesc
  extract_lets port d s₁ s₂ first s₃ s₄ s₅ s₆ disagree
  have hfreed : OpStays x s s₁ := ((mirrorDesc_stays s x b).trans (dropDesc_stays ..)).mark _
  clear_value s₁
  have hbegins : Begins x s₁ s₂ := begins_of_ite s₁ x
  clear_value s₂
  have hjoined : DescTaken x b s₂ s₄ := (joinDesc_taken hbegins.begun).stays (restartTimer_stays ..).descsStay
  have hexpect : OpStays x s₄ s₅ := (OpStays.refl x s₄).wr (by decide)
  have hnamed : OpStays x s₄ s₆ := stays_of_ite (.refl x s₄) (stays_of_ite hexpect (hexpect.wr (by decide)))
  have htold : ∀ w ∈ disagree ++ [], w.isOf x := isOf_append isOf_of_ite fun w hw => absurd hw List.not_mem_nil
  clear_value disagree s₆ s₅ s₄
  have htaken : DescTaken x b s s₆ := (hjoined.after hfreed hbegins).stays hnamed.descsStay
  rw [joinEpoch_none (htaken.kind ▸ hk)]
  obtain ⟨htail, hwork⟩ := descTail_stays s₆ x d htold
  exact ⟨htaken.stays htail, hwork⟩

end Sys2Proof.Machine
end

section
/-!
SUPPORT. The released swatch at the head, decided (R166, R167), and accepted: it is among its operation's inputs, and
counted.
-/

namespace Sys2Proof.Machine

variable {s t u : State} {x : Nat} {a : Arrived}

/-- The swatch at the head is taken from those that wait. -/
def State.nextSwatch (s : State) (rest : List Arrived) : State := { s with sched := { s.sched with released := rest } }

theorem swatchAccept_eq {rest : List Arrived} (h : s.sched.released = a :: rest) (hk : a.header.skind ≠ skAbort) :
    ∃ n, s.swatchAccept = runWork n ((s.nextSwatch rest).offerSwatch a false).1 ((s.nextSwatch rest).offerSwatch a false).2 := by
  obtain ⟨n, hn⟩ := work_item (s.nextSwatch rest) a.header.context (.swatch a)
  refine ⟨n, Eq.trans ?_ hn⟩
  unfold State.swatchAccept
  rw [h]
  exact if_neg hk

theorem swatchAccept_decided {rest : List Arrived} (h : s.sched.released = a :: rest) (hk : a.header.skind ≠ skAbort)
    (ho : (s.nextSwatch rest).offerSwatch a false = (t, [])) : s.swatchAccept = t := by
  obtain ⟨n, hn⟩ := swatchAccept_eq h hk
  rw [hn, ho]
  exact runWork_nil ..

theorem offerSwatch_stale (hu : s.undeclared a.header.context = false)
    (hn : s.opnumOk a.header.context a.header.opnum = false) (past : Bool) :
    s.offerSwatch a past = ((s.dropArrived a).inc F.OPC_DROPS_STALE 1 a.header.context, []) := by
  unfold State.offerSwatch
  dsimp only
  rw [hu, hn]
  rfl

theorem offerSwatch_foreign (hu : s.undeclared a.header.context = false)
    (hn : s.opnumOk a.header.context a.header.opnum = true) (ho : s.senderOk a = false) (past : Bool) :
    s.offerSwatch a past = ((s.dropArrived a).inc F.OPC_DROPS_FOREIGN 1 a.header.context, []) := by
  unfold State.offerSwatch
  dsimp only
  rw [hu, hn, ho]
  rfl

theorem offerSwatch_dup (hu : s.undeclared a.header.context = false)
    (hn : s.opnumOk a.header.context a.header.opnum = true) (ho : s.senderOk a = true) (hd : s.swatchDup a = true) (past : Bool) :
    s.offerSwatch a past = ((s.dropArrived a).inc F.OPC_DROPS_DUP 1 a.header.context, []) := by
  unfold State.offerSwatch
  dsimp only
  rw [hu, hn, ho, hd]
  rfl

/-- A swatch that passes the checks is held, or accepted. -/
structure SwatchPasses (s : State) (a : Arrived) : Prop where
  declared : s.undeclared a.header.context = false
  opnum : s.opnumOk a.header.context a.header.opnum = true
  sender : s.senderOk a = true
  noDup : s.swatchDup a = false
  part : a.header.part ≤ a.header.partsM1
  range : (s.checkDesc (s.knownDescs a.header.context a.header.opnum) a).map (s.rangeOk a) ≠ some false

theorem offerSwatch_passes (h : SwatchPasses s a) (past : Bool) : s.offerSwatch a past =
    match s.holdItem a.header.context a.header.opnum a.port (.swatch a) past with
    | some s => (s, [])
    | none => s.takeSwatch a.header.context a := by
  unfold State.offerSwatch
  dsimp only
  rw [h.declared, h.opnum, h.sender, h.noDup, if_neg (Nat.not_lt.mpr h.part), if_neg h.range]
  rfl

/-- A swatch that is accepted is among the inputs, and counted. -/
structure SwatchTaken (x : Nat) (a : Arrived) (s t : State) : Prop where
  arrivals : SameArrivals s t
  items : (t.op x).inputs.map (·.item) = (s.op x).inputs.map (·.item) ++ [a]
  swatches : t.rd F.OPC_RECV_SWATCHES x = min (s.rd F.OPC_RECV_SWATCHES x + 1) (2 ^ F.OPC_RECV_SWATCHES.width - 1)
  bytes : t.rd F.OPC_BYTES_BYTES x = min (s.rd F.OPC_BYTES_BYTES x + a.header.length) (2 ^ F.OPC_BYTES_BYTES.width - 1)
  early : (t.op x).early = (s.op x).early
  opnum : t.opnum x = s.opnum x
  kind : t.kind x = s.kind x

theorem SwatchTaken.stays (h : SwatchTaken x a s t) (h' : OpStays x t u) : SwatchTaken x a s u :=
  ⟨h.arrivals.trans h'.arrivals, h'.items.trans h.items, h'.going.swatches.trans h.swatches, h'.going.bytes.trans h.bytes,
    h'.early.trans h.early, h'.going.opnum.trans h.opnum, h'.going.kind.trans h.kind⟩

theorem SwatchTaken.after (h : SwatchTaken x a t u) (h' : OpStays x s t) : SwatchTaken x a s u :=
  ⟨h'.arrivals.trans h.arrivals, h'.items ▸ h.items, h'.going.swatches ▸ h.swatches, h'.going.bytes ▸ h.bytes,
    h.early.trans h'.early, h.opnum.trans h'.going.opnum, h.kind.trans h'.going.kind⟩

/-- The swatch is one of the operation's inputs. -/
def State.joinSwatch (s : State) (x : Nat) (a : Arrived) : State :=
  s.setOp x (fun o => { o with
    inputs := o.inputs ++ [⟨a, true⟩]
    tokens := o.tokens + b2n (a.header.skind == skToken) })

theorem joinSwatch_taken (s : State) (x : Nat) (a : Arrived) : SwatchTaken x a s
    (((s.joinSwatch x a).inc F.OPC_RECV_SWATCHES 1 x).inc F.OPC_BYTES_BYTES a.header.length x) := by
  have hset := setOp_op s x (fun o => { o with
    inputs := o.inputs ++ [⟨a, true⟩]
    tokens := o.tokens + b2n (a.header.skind == skToken) })
  have hop : (((s.joinSwatch x a).inc F.OPC_RECV_SWATCHES 1 x).inc F.OPC_BYTES_BYTES a.header.length x).op x =
      (s.joinSwatch x a).op x := congrArg (SMap.get · [x]) ((inc_ctx ..).trans (inc_ctx ..))
  have hother (f : Fld) (h : f.key 0 0 ≠ F.OPC_RECV_SWATCHES.key 0 0) (h' : f.key 0 0 ≠ F.OPC_BYTES_BYTES.key 0 0) :
      (((s.joinSwatch x a).inc F.OPC_RECV_SWATCHES 1 x).inc F.OPC_BYTES_BYTES a.header.length x).rd f x = s.rd f x :=
    (rd_inc_other _ _ _ _ _ _ _ _ h').trans (rd_inc_other _ _ _ _ _ _ _ _ h)
  constructor
  case arrivals => exact .of_sched ((inc_sched ..).trans (inc_sched ..))
  case items =>
    rw [hop, show (s.joinSwatch x a).op x = _ from hset, List.map_append]
    rfl
  case swatches => exact (rd_inc_other _ _ _ _ _ _ _ _ (by decide)).trans (rd_inc_same ..)
  case bytes =>
    rw [rd_inc_same, rd_inc_other _ _ _ _ _ _ _ _ (by decide)]
    rfl
  case early =>
    rw [hop, show (s.joinSwatch x a).op x = _ from hset]
  case opnum => exact hother F.NUM_OPSEQ_OPNUM (by decide) (by decide)
  case kind => exact hother F.OPC_DECL_KIND (by decide) (by decide)

theorem takeSwatch_taken (hs : s.ctxState x ≠ ctxIdle) : SwatchTaken x a s (s.takeSwatch x a).1 ∧
    ∀ w ∈ (s.takeSwatch x a).2, w.isOf x := by
  delta State.takeSwatch
  extract_lets s₁ s₂ s₃ s₄ s₅ s₆ s₇
  have hcopied : OpStays x s s₁ := (mirrorAll_stays ..).mark _
  have hbegun : s₁.ctxState x ≠ ctxIdle := hcopied.going.begun hs
  clear_value s₁
  have hopen : s₂ = s₁ := if_neg hbegun
  have hjoined : SwatchTaken x a s₂ s₄ := (joinSwatch_taken s₂ x a).stays (restartTimer_stays ..)
  have hasked : OpStays x s₄ s₅ := stays_of_ite (.refl x s₄) (askAdmission_stays ..)
  have hsent : OpStays x s₅ s₆ := forward_stays ..
  have hsettled : OpStays x s₆ s₇ := stays_of_ite (.refl x s₆) (freeSettled_stays ..)
  have htaken : SwatchTaken x a s s₇ := (((hopen ▸ hjoined).after hcopied).stays (hasked.trans hsent)).stays hsettled
  clear_value s₇
  obtain ⟨hman, hmanWork⟩ := checkManifest_stays s₇ x a.header.rank
  generalize s₇.checkManifest x a.header.rank = r at hman hmanWork ⊢
  obtain ⟨s₈, man⟩ := r
  exact ⟨htaken.stays hman, isOf_append (fun w hw => by rw [hmanWork w hw]; exact rfl) (isOf_single rfl)⟩

end Sys2Proof.Machine
end

section
/-! SUPPORT. O55, from the lemmas above. -/

namespace Sys2Proof.Machine

variable {s t u : State} {x n : Nat} {b : ArrivedDesc} {a : Arrived}

/-- Work on an operation that goes on, begun where nothing is held for the next one. -/
theorem runWork_going {l : List Work} (he : (s.op x).early = []) (hk : s.kind x ≠ kParity) (hl : ∀ w ∈ l, w.isOf x) :
    SameArrivals s (runWork n s l) ∧ ((runWork n s l).opnum x = s.opnum x → Going x s (runWork n s l)) := by
  have hstart : InWork x s s := ⟨.refl s, hk, .inl ⟨(OpStays.refl x s).going, he⟩⟩
  obtain ⟨harrivals, -, hstands⟩ := hstart.runWork (fuel := n) hl
  refine ⟨harrivals, fun hsame => ?_⟩
  rcases hstands with ⟨hgo, -⟩ | ⟨hnum, -⟩
  · exact hgo
  · exact absurd (hnum.symm.trans hsame) (next_opnum_ne _ 32 (by decide))

theorem refusal_lt (s : State) (p : Nat) (d : Descriptor) : s.refusal p d < 2 ^ 4 := by
  have hite {c : Prop} [Decidable c] {k l : Nat} (hk : k < 2 ^ 4) (hl : l < 2 ^ 4) : (if c then k else l) < 2 ^ 4 := by
    split
    · exact hk
    · exact hl
  unfold State.refusal
  exact hite (by decide) (hite (by decide) (hite (by decide) (hite (by decide) (hite (by decide) (by decide)))))

theorem descRefused_counts (s : State) (b : ArrivedDesc) (code : Nat) (hc : code < 2 ^ 4) :
    SameArrivals s (s.descRefused b code) ∧ (s.descRefused b code).ctx = s.ctx ∧
      (s.descRefused b code).rd F.OPC_REFUSED_COUNT = min (s.rd F.OPC_REFUSED_COUNT + 1) (2 ^ F.OPC_REFUSED_COUNT.width - 1) ∧
      (s.descRefused b code).rd F.OPC_REFUSED_CONTEXT = b.desc.context % 2 ^ 16 ∧
      (s.descRefused b code).rd F.OPC_REFUSED_PORT = b.port % 2 ^ 8 ∧ (s.descRefused b code).rd F.OPC_REFUSED_CODE = code := by
  have hdrop := dropDesc_foot (b := b) (Sub.refl _) (Foot.refl _ s)
  have hsent (w : State) (f : Fld) (hf : f.reg = .OPC_REFUSED) (q : Nat) (l : List Byte) :
      (w.sendControl reqMgt q 1 l).rd f = w.rd f :=
    (sendControl_foot (Sub.refl _) (Foot.refl _ w)).rd _ _ _ (by rw [hf]; decide)
  delta State.descRefused
  extract_lets x s₁
  have harrivals : SameArrivals s s₁ :=
    (((((dropDesc_stays s x b).inc (by decide)).wr (by decide)).wr (by decide)).wr (by decide)).arrivals
  have hctx : s₁.ctx = s.ctx := (wr_ctx ..).trans ((wr_ctx ..).trans ((wr_ctx ..).trans ((inc_ctx ..).trans (hdrop.ctx (by decide)))))
  have hcount : s₁.rd F.OPC_REFUSED_COUNT = min (s.rd F.OPC_REFUSED_COUNT + 1) (2 ^ F.OPC_REFUSED_COUNT.width - 1) := by
    rw [← hdrop.rd F.OPC_REFUSED_COUNT 0 0 (by decide)]
    exact (rd_wr_other _ _ _ _ _ _ _ _ (by decide)).trans ((rd_wr_other _ _ _ _ _ _ _ _ (by decide)).trans
      ((rd_wr_other _ _ _ _ _ _ _ _ (by decide)).trans (rd_inc_same ..)))
  have hcontext : s₁.rd F.OPC_REFUSED_CONTEXT = x % 2 ^ 16 := (rd_wr_other _ _ _ _ _ _ _ _ (by decide)).trans
    ((rd_wr_other _ _ _ _ _ _ _ _ (by decide)).trans (rd_wr_same ..))
  have hport : s₁.rd F.OPC_REFUSED_PORT = b.port % 2 ^ 8 := (rd_wr_other _ _ _ _ _ _ _ _ (by decide)).trans (rd_wr_same ..)
  have hcode : s₁.rd F.OPC_REFUSED_CODE = code := (rd_wr_same ..).trans (Nat.mod_eq_of_lt hc)
  clear_value s₁
  obtain ⟨hsend, hsendCtx⟩ := sendItem_keeps_arrivals s₁ reqMgt (s₁.groupPort (s₁.groupOf b.port))
    (.control 1 (completion x (0x10 + code) 0 b.desc.opnum b.desc.tag 0)) 19
  exact ⟨harrivals.trans hsend, hsendCtx.trans hctx, (hsent _ _ rfl _ _).trans hcount, (hsent _ _ rfl _ _).trans hcontext,
    (hsent _ _ rfl _ _).trans hport, (hsent _ _ rfl _ _).trans hcode⟩

theorem dropUndecl_captures (s : State) (p x : Nat) :
    (s.dropUndecl p x).rd F.OPC_UNDECL_COUNT = min (s.rd F.OPC_UNDECL_COUNT + 1) (2 ^ F.OPC_UNDECL_COUNT.width - 1) ∧
      (s.dropUndecl p x).rd F.OPC_UNDECL_LAST_CONTEXT = x % 2 ^ 16 ∧ (s.dropUndecl p x).rd F.OPC_UNDECL_LAST_PORT = p % 2 ^ 8 := by
  unfold State.dropUndecl
  refine ⟨?_, rd_wr_same .., ?_⟩
  · simp (disch := decide) only [rd_wr_other, rd_inc_same]
  · exact (rd_wr_other _ _ _ _ _ _ _ _ (by decide)).trans (rd_wr_same ..)

/-- A swatch whose check fails is freed and counted, and nothing else waits otherwise than before. -/
theorem dropped_counts (s : State) (a : Arrived) (x : Nat) {f : Fld} (hf : f.reg = .OPC_DROPS) :
    SameArrivals s ((s.dropArrived a).inc f 1 x) ∧ ((s.dropArrived a).inc f 1 x).ctx = s.ctx ∧
      ((s.dropArrived a).inc f 1 x).rd f x = min (s.rd f x + 1) (2 ^ f.width - 1) := by
  have hdrop := dropArrived_foot (a := a) (Sub.refl _) (Foot.refl _ s)
  refine ⟨(hdrop.arrivals (by decide)).trans (.of_sched rfl), (inc_ctx ..).trans (hdrop.ctx (by decide)), ?_⟩
  rw [rd_inc_same, hdrop.rd f x 0 (by rw [hf]; decide)]

/-- Settles O55: each outcome of the tables by the equation of `offerDesc` or `offerSwatch` for it, an accepted item by
`takeDesc_taken` or `takeSwatch_taken`, and what follows from it by `runWork_going`. -/
theorem itemsAreDecided : Obligations.ItemsAreDecided := by
  unfold Obligations.ItemsAreDecided
  refine ⟨?descUndeclared, ?descStale, ?descRefused, ?descEarly, ?descTaken, ?swatchStale, ?swatchForeign, ?swatchDup,
    ?swatchEarly, ?swatchTaken⟩
  case descUndeclared =>
    rintro s _ b rest hs hd rfl hu
    have hdrop := dropDesc_foot (b := b) (Sub.refl _) (Foot.refl _ (s.nextDesc rest))
    have hundecl := dropUndecl_foot (port := b.port) (x := b.desc.context) (Sub.refl _) (Foot.refl _ ((s.nextDesc rest).dropDesc b))
    refine ⟨_, exec_descriptorArrival hs, ?_⟩
    rw [descriptorArrival_decided hd (offerDesc_undeclared (s := s.nextDesc rest) hu false)]
    obtain ⟨hcount, hcontext, hport⟩ := dropUndecl_captures ((s.nextDesc rest).dropDesc b) b.port b.desc.context
    refine ⟨((hdrop.arrivals (by decide)).trans (hundecl.arrivals (by decide))).descs, ?_, ⟨hcontext, hport⟩,
      (hundecl.ctx (by decide)).trans (hdrop.ctx (by decide))⟩
    rw [hcount, hdrop.rd _ _ _ (by decide)]
    rfl
  case descStale =>
    rintro s _ b rest hs hd rfl hu hn
    have hdrop := dropDesc_foot (b := b) (Sub.refl _) (Foot.refl _ (s.nextDesc rest))
    refine ⟨_, exec_descriptorArrival hs, ?_⟩
    rw [descriptorArrival_decided hd (offerDesc_stale (s := s.nextDesc rest) hu hn false)]
    refine ⟨(hdrop.arrivals (by decide)).descs, ?_, hdrop.ctx (by decide)⟩
    rw [rd_inc_same, hdrop.rd _ _ _ (by decide)]
    rfl
  case descRefused =>
    rintro s _ b rest hs hd rfl hu hn hc
    refine ⟨_, exec_descriptorArrival hs, ?_⟩
    rw [descriptorArrival_decided hd (offerDesc_refused (s := s.nextDesc rest) hu hn hc false)]
    obtain ⟨harrivals, hctx, hcount, hcontext, hport, hcode⟩ := descRefused_counts (s.nextDesc rest) b
      ((s.nextDesc rest).refusal b.port b.desc) (refusal_lt ..)
    exact ⟨harrivals.descs, hcount, ⟨hcontext, hport, hcode⟩, hctx⟩
  case descEarly =>
    rintro s _ b rest hs hd rfl hu hn hc ha hdup hcut hearly
    have hpasses : DescPasses (s.nextDesc rest) b := ⟨hu, hn, hc, ha, hdup⟩
    have hoffer := offerDesc_passes hpasses false
    rw [holdItem_early (s := s.nextDesc rest) hcut hearly] at hoffer
    obtain ⟨hheld, hflag, hstate, -⟩ := holdEarly_holds (s.nextDesc rest) b.desc.context b.desc.opnum (.desc b)
    refine ⟨_, exec_descriptorArrival hs, ?_⟩
    rw [descriptorArrival_decided hd hoffer]
    exact ⟨hheld, hflag, hstate⟩
  case descTaken =>
    rintro s _ b rest hs hd rfl hu hn hc ha hdup hcut hnum hstate hdrain hearly hkind
    have hpasses : DescPasses (s.nextDesc rest) b := ⟨hu, hn, hc, ha, hdup⟩
    have hoffer := offerDesc_passes hpasses false
    rw [holdItem_none (s := s.nextDesc rest) hcut hnum hstate hdrain] at hoffer
    obtain ⟨htaken, hwork⟩ := takeDesc_taken (s := s.nextDesc rest) (x := b.desc.context) (b := b) hkind
    obtain ⟨n, hn⟩ := descriptorArrival_eq hd
    rw [hoffer] at hn
    generalize (s.nextDesc rest).takeDesc b.desc.context b = r at htaken hwork hn
    obtain ⟨harrivals, hgoing⟩ := runWork_going (n := n) (htaken.early.trans hearly) (htaken.kind ▸ hkind) hwork
    refine ⟨_, exec_descriptorArrival hs, ?_⟩
    rw [hn]
    refine ⟨(htaken.arrivals.trans harrivals).descs, fun hsame => ?_⟩
    have hgo := hgoing (hsame.trans htaken.opnum.symm)
    exact ⟨hgo.descs.trans htaken.descs, hgo.descCount.trans htaken.count, hgo.begun htaken.begun⟩
  case swatchStale =>
    rintro s _ a rest hs hr hk rfl hu hn
    refine ⟨_, exec_swatchAccept hs, ?_⟩
    rw [swatchAccept_decided hr hk (offerSwatch_stale (s := s.nextSwatch rest) hu hn false)]
    obtain ⟨harrivals, hctx, hcount⟩ := dropped_counts (s.nextSwatch rest) a a.header.context (f := F.OPC_DROPS_STALE) rfl
    exact ⟨harrivals.released, hcount, hctx⟩
  case swatchForeign =>
    rintro s _ a rest hs hr hk rfl hu hn ho
    refine ⟨_, exec_swatchAccept hs, ?_⟩
    rw [swatchAccept_decided hr hk (offerSwatch_foreign (s := s.nextSwatch rest) hu hn ho false)]
    obtain ⟨harrivals, hctx, hcount⟩ := dropped_counts (s.nextSwatch rest) a a.header.context (f := F.OPC_DROPS_FOREIGN) rfl
    exact ⟨harrivals.released, hcount, hctx⟩
  case swatchDup =>
    rintro s _ a rest hs hr hk rfl hu hn ho hdup
    refine ⟨_, exec_swatchAccept hs, ?_⟩
    rw [swatchAccept_decided hr hk (offerSwatch_dup (s := s.nextSwatch rest) hu hn ho hdup false)]
    obtain ⟨harrivals, hctx, hcount⟩ := dropped_counts (s.nextSwatch rest) a a.header.context (f := F.OPC_DROPS_DUP) rfl
    exact ⟨harrivals.released, hcount, hctx⟩
  case swatchEarly =>
    rintro s _ a rest hs hr hk rfl hu hn ho hdup hpart hrange hcut hearly
    have hpasses : SwatchPasses (s.nextSwatch rest) a := ⟨hu, hn, ho, hdup, hpart, hrange⟩
    have hoffer := offerSwatch_passes hpasses false
    rw [holdItem_early (s := s.nextSwatch rest) hcut hearly] at hoffer
    obtain ⟨hheld, hflag, hstate, harrivals⟩ := holdEarly_holds (s.nextSwatch rest) a.header.context a.header.opnum (.swatch a)
    refine ⟨_, exec_swatchAccept hs, ?_⟩
    rw [swatchAccept_decided hr hk hoffer]
    exact ⟨harrivals.released, hheld, hflag, hstate⟩
  case swatchTaken =>
    rintro s _ a rest hs hr hk rfl hu hn ho hdup hpart hrange hcut hnum hstate hdrain hearly hkind hbegun
    have hpasses : SwatchPasses (s.nextSwatch rest) a := ⟨hu, hn, ho, hdup, hpart, hrange⟩
    have hoffer := offerSwatch_passes hpasses false
    rw [holdItem_none (s := s.nextSwatch rest) hcut hnum hstate hdrain] at hoffer
    obtain ⟨htaken, hwork⟩ := takeSwatch_taken (s := s.nextSwatch rest) (x := a.header.context) (a := a) hbegun
    obtain ⟨n, hn⟩ := swatchAccept_eq hr hk
    rw [hoffer] at hn
    generalize (s.nextSwatch rest).takeSwatch a.header.context a = r at htaken hwork hn
    obtain ⟨harrivals, hgoing⟩ := runWork_going (n := n) (htaken.early.trans hearly) (htaken.kind ▸ hkind) hwork
    refine ⟨_, exec_swatchAccept hs, ?_⟩
    rw [hn]
    refine ⟨(htaken.arrivals.trans harrivals).released, fun hsame => ?_⟩
    have hgo := hgoing (hsame.trans htaken.opnum.symm)
    exact ⟨hgo.items.trans htaken.items, hgo.swatches.trans htaken.swatches, hgo.bytes.trans htaken.bytes⟩

end Sys2Proof.Machine
end

section
/-!
SUPPORT. A context that is CLOSING stays so, with its status, its counts and its OPNUM, whatever else is done for
operations (R155, log 133).
-/

namespace Sys2Proof.Machine

variable {s t u : State} {x y : Nat}

/-- The registers that tell how the operation of a context has ended. -/
def endRegs : List Reg := [.OPC_STATE, .OPC_FAIL, .NUM_OPSEQ]

/-- From `s` to `t` these registers change for context y alone. -/
structure Elsewhere (y : Nat) (s t : State) : Prop where
  rd : ∀ (f : Fld) (i j : Nat), f.reg ∈ endRegs → i ≠ y → t.rd f i j = s.rd f i j

theorem Elsewhere.refl (y : Nat) (s : State) : Elsewhere y s s := ⟨fun _ _ _ _ _ => rfl⟩

theorem Elsewhere.trans (h : Elsewhere y s t) (h' : Elsewhere y t u) : Elsewhere y s u :=
  ⟨fun f i j hf hi => (h'.rd f i j hf hi).trans (h.rd f i j hf hi)⟩

theorem Elsewhere.of_foot {m : Nat} (h : Foot m s t) (hm : endRegs.all (fun r => !m.testBit r.ctorIdx) = true) :
    Elsewhere y s t := ⟨fun f i j hf _ => h.rd f i j (by
  rw [← Bool.not_eq_true']
  exact List.all_eq_true.mp hm _ hf)⟩

theorem Elsewhere.of_regs (h : t.regs = s.regs) : Elsewhere y s t := ⟨fun f i j _ _ => rd_congr f i j h⟩

theorem Elsewhere.wr (h : Elsewhere y s t) (f : Fld) (v j : Nat) : Elsewhere y s (t.wr f v y j) :=
  ⟨fun _ i j' hg hi => (rd_wr_key _ _ _ _ _ _ _ _ (key_ne_of_other rfl (.inr (.inl hi)))).trans (h.rd _ i j' hg hi)⟩

theorem Elsewhere.inc (h : Elsewhere y s t) (f : Fld) (n j : Nat) : Elsewhere y s (t.inc f n y j) :=
  ⟨(h.wr f (min (t.rd f y j + n) (2 ^ f.width - 1)) j).rd⟩

theorem Elsewhere.incWrap (h : Elsewhere y s t) (f : Fld) (n j : Nat) : Elsewhere y s (t.incWrap f n y j) :=
  ⟨(h.wr f (t.rd f y j + n) j).rd⟩

theorem Elsewhere.incElse (h : Elsewhere y s t) {f : Fld} (n i j : Nat) (hf : f.reg ∉ endRegs) : Elsewhere y s (t.inc f n i j) :=
  ⟨fun g i' j' hg hi =>
    (rd_wr_key _ _ _ _ _ _ _ _ (key_ne_of_other rfl (.inl fun he => hf (he ▸ hg)))).trans (h.rd g i' j' hg hi)⟩

theorem Elsewhere.setOp (h : Elsewhere y s t) (z : Nat) (f : OpCtx → OpCtx) : Elsewhere y s (t.setOp z f) := ⟨h.rd⟩

theorem Elsewhere.mark (h : Elsewhere y s t) (m : Mark) : Elsewhere y s (t.mark m) := ⟨h.rd⟩

theorem Elsewhere.kept (h : Elsewhere y s t) (hx : x ≠ y) : StateKept x s t :=
  ⟨h.rd F.OPC_STATE_STATE x 0 (by decide) hx, h.rd _ x 0 (by decide) hx, h.rd _ x 0 (by decide) hx,
    h.rd _ x 0 (by decide) hx, h.rd F.NUM_OPSEQ_OPNUM x 0 (by decide) hx⟩

theorem StateKept.refl (x : Nat) (s : State) : StateKept x s s := ⟨rfl, rfl, rfl, rfl, rfl⟩

theorem openRegs_elsewhere (s : State) (y : Nat) : Elsewhere y s (s.openRegs y) :=
  ⟨((((((Elsewhere.refl y s).wr _ _ _).wr _ _ _).wr _ _ _).wr _ _ _).wr _ _ _).wr _ _ _ |>.rd⟩

theorem openOp_elsewhere (s : State) (y : Nat) : Elsewhere y s (s.openOp y) := by
  have hnoted : Elsewhere y s ((s.each openFields (fun s f => s.noteWas f y)).mark (.opened y)) :=
    .of_regs (each_keeps s State.regs fun _ _ _ => rfl)
  rw [openOp_eq]
  exact ((hnoted.trans (openRegs_elsewhere ..)).setOp _ _).trans (.of_foot (openLate_foot (Sub.refl _) (Foot.refl _ _)) (by decide))

theorem elsewhere_of_ite {c : Prop} [Decidable c] (ht : Elsewhere y s t) (hu : Elsewhere y s u) :
    Elsewhere y s (if c then t else u) := by
  split
  · exact ht
  · exact hu

theorem takeSwatch_elsewhere (s : State) (y : Nat) (a : Arrived) : Elsewhere y s (s.takeSwatch y a).1 := by
  delta State.takeSwatch
  extract_lets s₁ s₂ s₃ s₄ s₅ s₆ s₇
  have h₁ : Elsewhere y s s₁ := .mark (.of_foot (mirrorAll_foot (Sub.refl _) (Foot.refl _ s)) (by decide)) _
  have h₂ : Elsewhere y s₁ s₂ := elsewhere_of_ite (openOp_elsewhere ..) (.refl y s₁)
  clear_value s₁ s₂
  have h₃ : Elsewhere y s₂ s₃ := (Elsewhere.refl y s₂).setOp _ _
  clear_value s₃
  have h₄ : Elsewhere y s₃ s₄ :=
    (((Elsewhere.refl y s₃).inc F.OPC_RECV_SWATCHES 1 0).inc F.OPC_BYTES_BYTES a.header.length 0).setOp y _
  have h₅ : Elsewhere y s₄ s₅ :=
    elsewhere_of_ite (.refl y s₄) (.of_foot (askAdmission_foot (Sub.refl _) (Foot.refl _ s₄)) (by decide))
  have h₆ : Elsewhere y s₅ s₆ := .of_foot (forward_foot (Sub.refl _) (Foot.refl _ s₅)) (by decide)
  have h₇ : Elsewhere y s₆ s₇ :=
    elsewhere_of_ite (.refl y s₆) (.of_foot (freeSettled_foot (Sub.refl _) (Foot.refl _ s₆)) (by decide))
  have hman : Elsewhere y s₇ (s₇.checkManifest y a.header.rank).1 :=
    .of_foot (checkManifest_foot (Sub.refl _) (Foot.refl _ s₇)) (by decide)
  have hall := (((((h₁.trans h₂).trans h₃).trans h₄).trans h₅).trans h₆).trans h₇
  clear_value s₇
  generalize s₇.checkManifest y a.header.rank = r at hman ⊢
  obtain ⟨s₈, man⟩ := r
  exact hall.trans hman

theorem takeBacks_elsewhere (y : Nat) (l : List Arrived) (acc : State × List Work) : Elsewhere y acc.1
    (l.foldl (fun acc a => ((acc.1.takeBack y a).1, acc.2 ++ (acc.1.takeBack y a).2)) acc).1 := by
  induction l generalizing acc with
  | nil => exact .refl y acc.1
  | cons a l ih =>
    exact Elsewhere.trans (.of_foot (takeBack_foot (Sub.refl _) (Foot.refl _ acc.1)) (by decide)) (ih ((acc.1.takeBack y a).1, acc.2 ++ (acc.1.takeBack y a).2))

theorem descTail_elsewhere (s : State) (y : Nat) (d : Descriptor) (told : List Work) : Elsewhere y s (s.descTail y d told).1 := by
  delta State.descTail
  extract_lets mine back s₁ man closing hall s₂
  have hback : Elsewhere y s back.1 := takeBacks_elsewhere y mine (s, [])
  have hsent : Elsewhere y back.1 s₁ := .of_foot (sendPartials_foot (Sub.refl _)
    (each_foot' (Foot.refl _ back.1) fun _ _ h => forward_foot ((Sub.refl _).sub (by decide)) h)) (by decide)
  have hman : Elsewhere y s₁ man.1 := .of_foot (checkManifest_foot (Sub.refl _) (Foot.refl _ s₁)) (by decide)
  have hseg : Elsewhere y man.1 s₂ :=
    elsewhere_of_ite (.of_foot (sendSegment_foot (Sub.refl _) (Foot.refl _ man.1)) (by decide)) (.refl y man.1)
  have hall := ((hback.trans hsent).trans hman).trans hseg
  clear_value s₂
  exact hall

theorem takeDesc_elsewhere (s : State) (y : Nat) (b : ArrivedDesc) : Elsewhere y s (s.takeDesc y b).1 := by
  delta State.takeDesc
  extract_lets port d s₁ s₂ first s₃ s₄ s₅ s₆ disagree
  have h₁ : Elsewhere y s s₁ := Elsewhere.mark (.trans (.of_foot (mirrorDesc_foot (Sub.refl _) (Foot.refl _ s)) (by decide))
    (.of_foot (dropDesc_foot (Sub.refl _) (Foot.refl _ _)) (by decide))) _
  have h₂ : Elsewhere y s₁ s₂ := elsewhere_of_ite (openOp_elsewhere ..) (.refl y s₁)
  have h₄ : Elsewhere y s₂ s₄ := (((Elsewhere.refl y s₂).setOp _ _).wr _ _ _).setOp _ _
  have h₅ : Elsewhere y s₄ s₅ := (Elsewhere.refl y s₄).wr _ _ _
  have h₆ : Elsewhere y s₄ s₆ := elsewhere_of_ite (.refl y s₄) (elsewhere_of_ite h₅ (h₅.wr _ _ _))
  have hall := (((h₁.trans h₂).trans h₄).trans h₆)
  clear_value disagree s₆
  have hjoin : Elsewhere y s₆ (s₆.joinEpoch y port d).1 := .of_foot (joinEpoch_foot (Sub.refl _) (Foot.refl _ s₆)) (by decide)
  generalize s₆.joinEpoch y port d = r at hjoin ⊢
  obtain ⟨s₇, epoch⟩ := r
  exact (hall.trans hjoin).trans (descTail_elsewhere s₇ y d (disagree ++ epoch))

theorem enterFlush_elsewhere (s : State) (y : Nat) : Elsewhere y s (s.enterFlush y) := by
  have hflush : Elsewhere y s ((s.wr F.OPC_STATE_STATE ctxFlush y).mark (.flush y)) := ((Elsewhere.refl y s).wr _ _ _).mark _
  unfold State.enterFlush
  split
  · dsimp only
    split
    · exact hflush.trans (.of_foot (output_foot (Sub.refl _) (Foot.refl _ _)) (by decide))
    · exact hflush
  · exact .refl y s

theorem closeCount_elsewhere (s : State) (y n v st : Nat) : Elsewhere y s (s.closeCount y n v st) := by
  delta State.closeCount
  extract_lets s₁ s₂ s₃ s₄ s₅ s₆
  have h₂ : Elsewhere y s s₂ := ((Elsewhere.refl y s).wr _ _ _).trans (.of_foot (sendRecords_foot (Sub.refl _) (Foot.refl _ s₁)) (by decide))
  have h₃ : Elsewhere y s₂ s₃ := elsewhere_of_ite (((Elsewhere.refl y s₂).inc _ _ _).incElse _ _ _ (by decide)) (elsewhere_of_ite
    (((Elsewhere.refl y s₂).inc _ _ _).incElse _ _ _ (by decide)) (((Elsewhere.refl y s₂).inc _ _ _).incElse _ _ _ (by decide)))
  clear_value s₃
  have h₄ : Elsewhere y s₃ s₄ := Elsewhere.incWrap (.of_foot (closeRecovery_foot (Sub.refl _) (Foot.refl _ s₃)) (by decide)) _ _ _
  clear_value s₄
  have h₆ : Elsewhere y s₄ s₆ := ((((Elsewhere.refl y s₄).wr _ _ _).wr _ _ _).wr _ _ _).setOp _ _
  have hall := ((h₂.trans h₃).trans h₄).trans h₆
  clear_value s₆
  exact ⟨hall.rd⟩

theorem closeCore_elsewhere (s : State) (y st : Nat) : Elsewhere y s (s.closeCore y st).1 := by
  have hbefore : Elsewhere y s ((s.closeRelease y (s.opnum y) (s.op y)).notEarly y) :=
    Elsewhere.trans (.of_foot (closeRelease_foot (Sub.refl _) (Foot.refl _ s)) (by decide))
      (.of_foot (notEarly_foot (Sub.refl _) (Foot.refl _ _)) (by decide))
  have hclose := (hbefore.trans (closeCount_elsewhere _ y (s.opnum y) (s.lastOf y) st)).trans
    (.of_foot (closeAbort_foot (x := y) (n := s.opnum y) (t := s.lastOf y) (status := st) (Sub.refl _) (Foot.refl _ _)) (by decide))
  have hall := hclose.trans
    (.of_foot (closeEpoch_foot (x := y) (t := s.lastOf y) (status := st) (Sub.refl _) (Foot.refl _ _)) (by decide))
  have hkeep (w : State) (l : List HeldItem) : Elsewhere y w (w.keepEarly y l) := ((Elsewhere.refl y w).setOp _ _).wr _ _ _
  unfold State.closeCore
  split
  · exact .refl y s
  · dsimp only
    split
    · exact hall.trans (hkeep _ _)
    · split
      · exact hall.trans (hkeep _ _)
      · exact hall

/-! An item of a context that is CLOSING is dropped or held. -/

theorem StateKept.wr (h : StateKept x s t) {f : Fld} {v i j : Nat} (hf : f.reg ∉ endRegs) : StateKept x s (t.wr f v i j) := by
  have hother (g : Fld) (hg : g.reg ∈ endRegs) : (t.wr f v i j).rd g x = t.rd g x :=
    rd_wr_key _ _ _ _ _ _ _ _ (key_ne_of_other rfl (.inl fun he => hf (he ▸ hg)))
  exact h.trans ⟨hother F.OPC_STATE_STATE (by decide), hother _ (by decide), hother _ (by decide), hother _ (by decide),
    hother F.NUM_OPSEQ_OPNUM (by decide)⟩

theorem StateKept.inc (h : StateKept x s t) {f : Fld} {n i j : Nat} (hf : f.reg ∉ endRegs) : StateKept x s (t.inc f n i j) :=
  have hwr := h.wr (v := min (t.rd f i j + n) (2 ^ f.width - 1)) (i := i) (j := j) hf
  ⟨hwr.state, hwr.status, hwr.incomplete, hwr.aborted, hwr.opnum⟩

theorem dropArrived_kept (s : State) (x : Nat) (a : Arrived) : StateKept x s (s.dropArrived a) :=
  (dropArrived_foot (Sub.refl _) (Foot.refl _ s)).stateKept (by decide) (by decide) (by decide)

theorem dropDesc_kept (s : State) (x : Nat) (b : ArrivedDesc) : StateKept x s (s.dropDesc b) :=
  (dropDesc_foot (Sub.refl _) (Foot.refl _ s)).stateKept (by decide) (by decide) (by decide)

theorem mirrorDesc_kept (s : State) (x : Nat) (b : ArrivedDesc) : StateKept x s (s.mirrorDesc b) :=
  (mirrorDesc_foot (Sub.refl _) (Foot.refl _ s)).stateKept (by decide) (by decide) (by decide)

theorem dropUndecl_kept (s : State) (x p y : Nat) : StateKept x s (s.dropUndecl p y) :=
  (dropUndecl_foot (Sub.refl _) (Foot.refl _ s)).stateKept (by decide) (by decide) (by decide)

theorem holdInCut_kept (s : State) (x t y : Nat) (it : HeldItem) : StateKept x s (s.holdInCut t y it) :=
  (holdInCut_foot (Sub.refl _) (Foot.refl _ s)).stateKept (by decide) (by decide) (by decide)

theorem holdInDrain_kept (s : State) (x y : Nat) (it : HeldItem) : StateKept x s (s.holdInDrain y it) :=
  (holdInDrain_foot (Sub.refl _) (Foot.refl _ s)).stateKept (by decide) (by decide) (by decide)

theorem holdNext_kept (s : State) (x y : Nat) (it : HeldItem) : StateKept x s (s.holdNext y it) := by
  constructor <;> exact rd_wr_other _ _ _ _ _ _ _ _ (by decide)

theorem holdEarly_kept (s : State) (x y n : Nat) (it : HeldItem) : StateKept x s (s.holdEarly y n it) := by
  have hheld := holdNext_kept s x y it
  rw [holdEarly_eq]
  split
  · exact hheld.trans ((earlyLoss_foot (Sub.refl _) (Foot.refl _ _)).stateKept (by decide) (by decide) (by decide))
  · exact hheld

/-- An item that is held leaves where every operation stands; one that is not held is of no context that is CLOSING. -/
theorem holdItem_cases (s : State) (y n p : Nat) (it : HeldItem) (past : Bool) :
    (∃ t, s.holdItem y n p it past = some t ∧ ∀ x, StateKept x s t) ∨
      s.holdItem y n p it past = none ∧ s.ctxState y ≠ ctxClosing := by
  unfold State.holdItem
  split
  · exact .inl ⟨_, rfl, fun x => holdInCut_kept ..⟩
  · split
    · exact .inl ⟨_, rfl, fun x => holdEarly_kept ..⟩
    · next h =>
      split
      · exact .inl ⟨_, rfl, fun x => holdInDrain_kept ..⟩
      · exact .inr ⟨rfl, (not_or.mp h).2⟩

/-- A swatch that is decided leaves where every operation stands, unless it is accepted for one that is not CLOSING. -/
theorem offerSwatch_cases (s : State) (a : Arrived) (past : Bool) : (∃ t l, s.offerSwatch a past = (t, l) ∧ ∀ x, StateKept x s t) ∨
    s.ctxState a.header.context ≠ ctxClosing ∧ s.offerSwatch a past = s.takeSwatch a.header.context a := by
  have hdrop (f : Fld) (hf : f.reg ∉ endRegs) (x : Nat) : StateKept x s ((s.dropArrived a).inc f 1 a.header.context) :=
    (dropArrived_kept ..).inc hf
  unfold State.offerSwatch
  dsimp only
  split
  · exact .inl ⟨_, _, rfl, fun x => (dropArrived_kept ..).trans (dropUndecl_kept ..)⟩
  split
  · exact .inl ⟨_, _, rfl, fun x => hdrop _ (by decide) x⟩
  split
  · exact .inl ⟨_, _, rfl, fun x => hdrop _ (by decide) x⟩
  split
  · exact .inl ⟨_, _, rfl, fun x => hdrop _ (by decide) x⟩
  split
  · exact .inl ⟨_, _, rfl, fun x => hdrop _ (by decide) x⟩
  split
  · exact .inl ⟨_, _, rfl, fun x => hdrop _ (by decide) x⟩
  rcases holdItem_cases s a.header.context a.header.opnum a.port (.swatch a) past with ⟨t, ht, hkept⟩ | ⟨hnone, hstate⟩
  · rw [ht]
    exact .inl ⟨_, _, rfl, hkept⟩
  · rw [hnone]
    exact .inr ⟨hstate, rfl⟩

theorem descRefused_kept (s : State) (x : Nat) (b : ArrivedDesc) (code : Nat) : StateKept x s (s.descRefused b code) :=
  ((((dropDesc_kept s x b).inc (by decide)).wr (by decide)).wr (by decide)).wr (by decide) |>.trans
    ((sendControl_foot (Sub.refl _) (Foot.refl _ _)).stateKept (by decide) (by decide) (by decide))

theorem offerDesc_cases (s : State) (b : ArrivedDesc) (past : Bool) : (∃ t l, s.offerDesc b past = (t, l) ∧ ∀ x, StateKept x s t) ∨
    s.ctxState b.desc.context ≠ ctxClosing ∧ s.offerDesc b past = s.takeDesc b.desc.context b := by
  have hdrop (f : Fld) (hf : f.reg ∉ endRegs) (x : Nat) : StateKept x s ((s.dropDesc b).inc f 1 b.desc.context) :=
    (dropDesc_kept ..).inc hf
  by_cases hu : s.undeclared b.desc.context = true
  · rw [offerDesc_undeclared hu]
    exact .inl ⟨_, _, rfl, fun x => (dropDesc_kept ..).trans (dropUndecl_kept ..)⟩
  by_cases hn : s.opnumOk b.desc.context b.desc.opnum = true
  swap
  · rw [offerDesc_stale (Bool.eq_false_iff.mpr hu) (Bool.eq_false_iff.mpr hn)]
    exact .inl ⟨_, _, rfl, fun x => hdrop _ (by decide) x⟩
  by_cases hc : s.refusal b.port b.desc = 0
  swap
  · rw [offerDesc_refused (Bool.eq_false_iff.mpr hu) hn hc]
    exact .inl ⟨_, _, rfl, fun x => descRefused_kept ..⟩
  unfold State.offerDesc
  dsimp only
  rw [if_neg hu, hn, hc, Bool.not_true, if_neg Bool.false_ne_true, if_neg (not_not_intro rfl)]
  split
  · split
    · exact .inl ⟨_, _, rfl, fun x => holdInCut_kept ..⟩
    · split
      · exact .inl ⟨_, _, rfl, fun x => (mirrorDesc_kept s x b).trans (dropDesc_kept ..)⟩
      · exact .inl ⟨_, _, rfl, fun x => hdrop _ (by decide) x⟩
  split
  · exact .inl ⟨_, _, rfl, fun x => hdrop _ (by decide) x⟩
  rcases holdItem_cases s b.desc.context b.desc.opnum b.port (.desc b) past with ⟨t, ht, hkept⟩ | ⟨hnone, hstate⟩
  · rw [ht]
    exact .inl ⟨_, _, rfl, hkept⟩
  · rw [hnone]
    exact .inr ⟨hstate, rfl⟩

theorem offer_closing (hx : s.ctxState x = ctxClosing) (it : HeldItem) (past : Bool) : StateKept x s (s.offer it past).1 := by
  cases it with
  | swatch a =>
    rcases offerSwatch_cases s a past with ⟨t, l, ht, hkept⟩ | ⟨hstate, htake⟩
    · exact (congrArg Prod.fst ht : (s.offer (.swatch a) past).1 = t) ▸ hkept x
    · have hne : x ≠ a.header.context := fun he => hstate (he ▸ hx)
      show StateKept x s (s.offerSwatch a past).1
      rw [htake]
      exact (takeSwatch_elsewhere ..).kept hne
  | desc b =>
    rcases offerDesc_cases s b past with ⟨t, l, ht, hkept⟩ | ⟨hstate, htake⟩
    · exact (congrArg Prod.fst ht : (s.offer (.desc b) past).1 = t) ▸ hkept x
    · have hne : x ≠ b.desc.context := fun he => hstate (he ▸ hx)
      show StateKept x s (s.offerDesc b past).1
      rw [htake]
      exact (takeDesc_elsewhere ..).kept hne

theorem settleCore_closing (hx : s.ctxState x = ctxClosing) (y : Nat) : StateKept x s (s.settleCore y).1 := by
  have hflush : StateKept x s (s.enterFlush y) := by
    by_cases he : x = y
    · have hsame : s.enterFlush y = s := by
        unfold State.enterFlush
        rw [if_neg]
        rintro ⟨ho, -⟩
        rw [← he, hx] at ho
        exact absurd ho (by decide)
      rw [hsame]
      exact .refl x s
    · exact (enterFlush_elsewhere s y).kept he
  rw [settleCore_eq]
  split
  · exact ⟨hflush.state, hflush.status, hflush.incomplete, hflush.aborted, hflush.opnum⟩
  · exact hflush

theorem closeCore_closing (hx : s.ctxState x = ctxClosing) (y st : Nat) : StateKept x s (s.closeCore y st).1 := by
  by_cases he : x = y
  · have hsame : s.closeCore y st = (s, []) := by
      unfold State.closeCore
      rw [if_pos (.inr (.inr (he ▸ hx)))]
    rw [hsame]
    exact .refl x s
  · exact (closeCore_elsewhere s y st).kept he

/-- R155: whatever is done for operations, a context that is CLOSING stays so, and what it tells of the operation that has
closed. -/
theorem runWork_closing (hx : s.ctxState x = ctxClosing) (n : Nat) (l : List Work) : StateKept x s (runWork n s l) := by
  induction n generalizing s l with
  | zero => exact .refl x s
  | succ n ih =>
    have hstep {t : State} (h : StateKept x s t) (l : List Work) : StateKept x s (runWork n t l) :=
      h.trans (ih (h.state.trans hx) l)
    cases l with
    | nil => exact .refl x s
    | cons w rest =>
      cases w with
      | item _ it => exact hstep (offer_closing hx it false) _
      | early _ it => exact hstep (offer_closing hx it true) _
      | settle y => exact hstep (settleCore_closing hx y) _
      | ask y st => exact hstep (t := s.mark (.ending y (s.opnum y) st)) ⟨rfl, rfl, rfl, rfl, rfl⟩ _
      | close y st => exact hstep (closeCore_closing hx y st) _

theorem settleAll_closing (hx : s.ctxState x = ctxClosing) : StateKept x s s.settleAll := by
  unfold State.settleAll whenActive
  split
  · exact runWork_closing hx ..
  · exact .refl x s

end Sys2Proof.Machine
end

section
/-!
SUPPORT. A root cycle at the end of a store cycle in which one ending was asked for and nothing else is to be decided
(R158, log 49): the operation closes, and the rest of the cycle leaves its context as it is.
-/

namespace Sys2Proof.Machine

variable {s t u : State} {x n st : Nat}

/-- From `s` to `t` time stands, no mark of this root cycle is lost, and the new marks are of counters. -/
structure CountsOnly (s t : State) : Prop where
  now : t.now = s.now
  kept : ∀ m, (s.now, m) ∈ s.marks → (s.now, m) ∈ t.marks
  new : ∀ e ∈ t.marks, e ∈ s.marks ∨ ∃ k a b, e.2 = .count k a b

theorem CountsOnly.refl (s : State) : CountsOnly s s := ⟨rfl, fun _ => id, fun _ => .inl⟩

theorem CountsOnly.trans (h : CountsOnly s t) (h' : CountsOnly t u) : CountsOnly s u :=
  ⟨h'.now.trans h.now, fun m hm => h.now ▸ h'.kept m (h.now ▸ h.kept m hm),
    fun e he => (h'.new e he).elim (h.new e) .inr⟩

theorem CountsOnly.each {α : Type} {l : List α} {g : State → α → State} (h : CountsOnly s t) (hg : ∀ v a, CountsOnly v (g v a)) :
    CountsOnly s (t.each l g) := by
  induction l generalizing t with
  | nil => exact h
  | cons a l ih => exact ih (h.trans (hg t a))

theorem inc_countsOnly (s : State) (f : Fld) (k i j : Nat) : CountsOnly s (s.inc f k i j) := by
  have hcut (m : Mark) (hm : (s.now, m) ∈ s.marks) : (s.now, m) ∈ s.marks.filter (fun e => decide (s.now < e.1 + 16)) :=
    List.mem_filter.mpr ⟨hm, decide_eq_true (Nat.lt_add_of_pos_right (by decide))⟩
  unfold State.inc
  dsimp only
  split
  · refine ⟨rfl, fun m hm => List.mem_cons_of_mem _ (hcut m hm), fun e he => ?_⟩
    rcases List.mem_cons.mp he with rfl | he
    · exact .inr ⟨_, _, _, rfl⟩
    · exact .inl (List.mem_of_mem_filter he)
  · exact ⟨rfl, fun _ => id, fun _ => .inl⟩

theorem idleTick_countsOnly (s : State) : CountsOnly s s.idleTick := by
  unfold State.idleTick
  split
  · refine CountsOnly.each (.refl s) fun v p => ?_
    split
    · exact inc_countsOnly ..
    · exact .refl v
  · exact .refl s

/-- Of what this store cycle has noted, only the ending of operation n of context x with status st is to be decided. -/
structure EndsOnly (x n st : Nat) (s : State) : Prop where
  asked : (s.now, .ending x n st) ∈ s.marks
  only : ∀ e ∈ s.marks, e.2 = .ending x n st ∨ ∃ k a b, e.2 = .count k a b

theorem EndsOnly.of_counts (h : s.marks = [(s.now, .ending x n st)]) (hc : CountsOnly s t) : EndsOnly x n st t := by
  refine ⟨?_, fun e he => (hc.new e he).imp_left fun hm => ?_⟩
  · rw [hc.now]
    exact hc.kept _ (h ▸ List.mem_singleton_self _)
  · rw [h, List.mem_singleton] at hm
    rw [hm]

theorem EndsOnly.onlyEnding (h : EndsOnly x n st s) : OnlyEnding x n st s := by
  have hof (m : Mark) (hm : m ∈ s.cycleMarks) : m = .ending x n st ∨ ∃ k a b, m = .count k a b := by
    obtain ⟨at_, hat, -⟩ := mem_cycleMarks.mp hm
    exact h.only _ hat
  refine ⟨mem_cycleMarks.mpr ⟨_, h.asked, rfl⟩, fun m hm y k v he => ?_, fun m hm y he => ?_⟩
  · rcases hof m hm with h | ⟨a, b, c, h⟩
    · injection he.symm.trans h with hy hk hv
      exact ⟨hy, hk, hv⟩
    · cases he.symm.trans h
  · rcases hof m hm with h | ⟨a, b, c, h⟩ <;> cases he.symm.trans h

/-- The contexts whose rows have been placed in this store cycle. -/
def State.placedNow (s : State) : List Nat :=
  (s.marks.filter (fun e => e.1 / 2 == s.now / 2)).filterMap (fun e => match e.2 with
    | .placed x => if (s.op x).placed.isEmpty then none else some x
    | _ => none)

theorem endPlacements_eq (s : State) : s.endPlacements =
    s.each s.placedNow.eraseDups (fun s x => ((s.replace x).freeSettled x).work [.settle x]) := rfl

/-- With no placement in this store cycle, nothing is placed at its end. -/
theorem EndsOnly.endPlacements (h : EndsOnly x n st s) : s.endPlacements = s := by
  have hnone : s.placedNow = [] := by
    refine List.filterMap_eq_nil_iff.mpr fun e he => ?_
    rcases h.only e (List.mem_of_mem_filter he) with he | ⟨a, b, c, he⟩ <;> rw [he]
  rw [endPlacements_eq, hnone]
  rfl

/-- Nothing that was refused or is to be copied waits for the end of the store cycle. -/
structure NoneLate (s : State) : Prop where
  refused : s.sched.refused = []
  refusedOpp : s.sched.refusedOpp = []
  copies : s.sched.copies = []

/-- R219, R220: what is still to be done for pointers at the end of a store cycle. -/
def State.endPointers (s : State) : State :=
  if s.sched.refused.isEmpty && s.sched.refusedOpp.isEmpty then s.copyLate else s.refuseLate.copyLate.settleAll

theorem storeEnd_eq (s : State) : s.storeEnd = s.endPointers.endPlacements.endAsked.endPointers := by
  delta State.storeEnd
  extract_lets late
  have hlate : late = State.endPointers := rfl
  clear_value late
  rw [hlate]

theorem NoneLate.endPointers (h : NoneLate s) : s.endPointers = s := by
  have hcopies : s.copyLate = s := by
    unfold State.copyLate
    rw [h.copies]
    show ({ s with sched := { s.sched with copies := [] } } : State) = s
    rw [← h.copies]
  unfold State.endPointers
  rw [h.refused, h.refusedOpp]
  exact hcopies

theorem endPointers_closing (hx : s.ctxState x = ctxClosing) : StateKept x s s.endPointers := by
  have hcopy (w : State) : StateKept x w w.copyLate :=
    (copyLate_foot (Sub.refl _) (Foot.refl _ w)).stateKept (by decide) (by decide) (by decide)
  have hrefuse : StateKept x s s.refuseLate :=
    (refuseLate_foot (Sub.refl _) (Foot.refl _ s)).stateKept (by decide) (by decide) (by decide)
  unfold State.endPointers
  split
  · exact hcopy s
  · have hlate := hrefuse.trans (hcopy _)
    exact hlate.trans (settleAll_closing (hlate.state.trans hx))

/-- What an ending that is decided needs: the operation of a context without early items that is no PARITY context, to be
aborted, or OPEN with its counts not met. -/
structure Endable (x st : Nat) (s : State) : Prop where
  abortable : s.abortable x (s.opnum x) = true
  early : (s.op x).early = []
  kind : s.kind x ≠ kParity
  status : st = stAborted ∨ st = stIncomplete ∧ s.ctxState x = ctxOpen ∧ s.countsMet x = false

theorem Endable.not_done (h : Endable x st s) : st ≠ stDone := by
  rcases h.status with rfl | ⟨rfl, -⟩ <;> decide

/-- R158: at the end of the store cycle the operation closes. -/
theorem storeEnd_closed (hl : NoneLate s) (hm : EndsOnly x (s.opnum x) st s) (he : Endable x st s) : Closed x st s s.storeEnd := by
  have hclosed := endAsked_closed hm.onlyEnding he.abortable he.early he.kind he.status
  have hstate : s.endAsked.ctxState x = ctxClosing := hclosed.state.trans (if_neg he.not_done)
  rw [storeEnd_eq, hl.endPointers, hm.endPlacements]
  exact hclosed.after (endPointers_closing hstate)

/-- Nothing is due at the start of a root cycle: no line goes down, no command is decided, no block comes back. -/
structure NoneDue (s : State) : Prop where
  downNext : s.link.downNext = []
  deciding : s.host.deciding = none
  ports : s.link.ports.entries.all (fun e => e.2.offUntil.isNone) = true
  lasers : s.link.lasers.entries.all (fun e => e.2.resetUntil.isNone) = true

theorem NoneDue.of_parts (h : NoneDue s) (hlink : t.link = s.link) (hhost : t.host = s.host) : NoneDue t :=
  ⟨hlink ▸ h.downNext, hhost ▸ h.deciding, hlink ▸ h.ports, hlink ▸ h.lasers⟩

/-- A block whose reset ends now. -/
def State.dueNow (s : State) (t : Option Nat) : Bool := match t with
  | none => false
  | some t => decide (t ≤ s.now)

/-- The blocks of a list whose resets end now. -/
def State.dueOf {α : Type} (s : State) (l : List (Key × α)) (f : α → Option Nat) : List Nat :=
  (l.filter (fun e => s.dueNow (f e.2))).filterMap (fun e => e.1.head?)

theorem dueOf_none {α : Type} {l : List (Key × α)} {f : α → Option Nat} (h : l.all (fun e => (f e.2).isNone) = true) :
    s.dueOf l f = [] := by
  have hnone : l.filter (fun e => s.dueNow (f e.2)) = [] := List.filter_eq_nil_iff.mpr fun e he => by
    rw [Option.isNone_iff_eq_none.mp (List.all_eq_true.mp h e he)]
    exact Bool.false_ne_true
  unfold State.dueOf
  rw [hnone]
  rfl

/-- R385: the ports and the laser modules whose resets end come back. -/
def State.comeBack (s : State) (ports mods : List Nat) : State :=
  (s.each ports (fun s p => (s.setPort p (fun q => { q with offUntil := none })).realign p)).each mods (fun s e =>
    let s := (s.setLaser e (fun l => { l with resetUntil := none })).wr F.PRT_LSM_STAT_FAULT 0 e
    if s.flag F.PRT_LSM_STAT_PRESENT e then s.setLaserEnable e true else s)

theorem resetTick_eq (s : State) : s.resetTick = s.comeBack (s.dueOf s.link.ports.entries (·.offUntil))
    (s.dueOf s.link.lasers.entries (·.resetUntil)) := rfl

theorem resetTick_none (h : NoneDue s) : s.resetTick = s := by
  rw [resetTick_eq, dueOf_none h.ports, dueOf_none h.lasers]
  rfl

theorem mailboxTick_none (h : NoneDue s) : s.mailboxTick = s := by
  unfold State.mailboxTick
  rw [h.deciding]

/-- Local time has no part in what is due. -/
theorem timeTick_due (h : NoneDue s) : NoneDue s.timeTick := by
  unfold State.timeTick
  dsimp only
  split <;> exact ⟨h.downNext, h.deciding, h.ports, h.lasers⟩

theorem kept_of_ite {c : Prop} [Decidable c] (ht : StateKept x s t) (hu : StateKept x s u) : StateKept x s (if c then t else u) := by
  split
  · exact ht
  · exact hu

theorem due_of_ite {c : Prop} [Decidable c] (ht : NoneDue t) (hu : NoneDue u) : NoneDue (if c then t else u) := by
  split
  · exact ht
  · exact hu

theorem now_of_ite {c : Prop} [Decidable c] {k : Nat} (ht : t.now = k) (hu : u.now = k) : (if c then t else u).now = k := by
  split
  · exact ht
  · exact hu

/-- With nothing due, the start of a root cycle that is no start of an arithmetic cycle leaves where an operation stands. -/
theorem tickStart_kept (h : NoneDue s) (hnow : s.now % 4 ≠ 0) (x : Nat) : StateKept x s (s.tickStart false) := by
  have hbucket (w : State) := bucketResets_foot (Sub.refl _) (Foot.refl _ w)
  have hserve (w : State) := serveFrees_foot (Sub.refl _) (Foot.refl _ w)
  delta State.tickStart
  extract_lets s₁ s₂ s₃ s₄ s₅ s₆ s₇
  have h₂ : s₂ = s := by
    show (if s.link.downNext.isEmpty then s else s.leaveUps.settleAll) = s
    rw [h.downNext]
    rfl
  have hdue₂ : NoneDue s₂ := h₂ ▸ h
  have hnow₂ : s₂.now % 4 ≠ 0 := h₂ ▸ hnow
  have hkept₂ : StateKept x s s₂ := h₂ ▸ .refl x s
  clear_value s₂
  have hkept₃ : StateKept x s₂ s₃ := kept_of_ite ((hbucket s₂).stateKept (by decide) (by decide) (by decide)) (.refl x s₂)
  have hdue₃ : NoneDue s₃ := due_of_ite
    (hdue₂.of_parts ((hbucket s₂).part .link (by decide)) ((hbucket s₂).part .host (by decide))) hdue₂
  have hnow₃ : s₃.now = s₂.now := now_of_ite (bucketResets_keeps (Keeps.refl s₂)).now rfl
  clear_value s₃
  have hkept₄ : StateKept x s₃ s₄ := kept_of_ite ((hserve s₃).stateKept (by decide) (by decide) (by decide)) (.refl x s₃)
  have hdue₄ : NoneDue s₄ := due_of_ite
    (hdue₃.of_parts ((hserve s₃).part .link (by decide)) ((hserve s₃).part .host (by decide))) hdue₃
  have hnow₄ : s₄.now = s₃.now := now_of_ite (serveFrees_keeps (Keeps.refl s₃)).now rfl
  clear_value s₄
  have h₅ : s₅ = s₄.timeTick := resetTick_none (timeTick_due hdue₄)
  have hkept₅ : StateKept x s₄ s₅ := h₅ ▸
    (timeTick_foot (Sub.refl _) (Foot.refl _ s₄)).stateKept (by decide) (by decide) (by decide)
  have hdue₅ : NoneDue s₅ := h₅ ▸ timeTick_due hdue₄
  have hnow₅ : s₅.now = s₄.now := h₅ ▸ (timeTick_keeps (Keeps.refl s₄)).now
  clear_value s₅
  have h₆ : s₆ = s₅ := by
    show (if s₅.active then s₅.mailboxTick else s₅) = s₅
    rw [mailboxTick_none hdue₅, ite_self]
  have h₇ : s₇ = s₆ := if_neg fun hc => hnow₂ (by rw [← hnow₃, ← hnow₄, ← hnow₅, ← h₆]; exact hc.1)
  rw [h₇, h₆]
  exact kept_of_ite ((((hkept₂.trans hkept₃).trans hkept₄).trans hkept₅).trans
    ((holdTick_foot (Sub.refl _) (Foot.refl _ s₅)).stateKept (by decide) (by decide) (by decide)))
    (((hkept₂.trans hkept₃).trans hkept₄).trans hkept₅)

theorem active_of_foot {m : Nat} (h : Foot m s t) (hpwr : m.testBit (Part.bit .pwr) = false)
    (hself : m.testBit Reg.FLT_SELF.ctorIdx = false) : t.active = s.active := by
  have hpart : t.pwr = s.pwr := h.part .pwr hpwr
  unfold State.active State.powered State.isSafe State.flag
  rw [hpart, h.rd F.FLT_SELF_SAFE _ _ hself]

/-- Whether the counts of an operation are met reads its context and fields that an idle port's count is none of. -/
theorem countsMet_idleTick (hk : s.kind x ≠ kParity) : s.idleTick.countsMet x = s.countsMet x := by
  have hidle := idleTick_foot (Sub.refl _) (Foot.refl _ s)
  have hop : s.idleTick.op x = s.op x := congrArg (SMap.get · [x]) (hidle.ctx (by decide))
  have hrd (f : Fld) (i j : Nat) (hf : Nat.testBit 0x20000000000000000000000000000000000000000000 f.reg.ctorIdx = false) :
      s.idleTick.rd f i j = s.rd f i j := hidle.rd f i j hf
  have hk' : ¬ s.rd F.OPC_DECL_KIND x 0 = kParity := hk
  unfold State.countsMet
  rw [hop]
  unfold State.descSenders State.kind State.reducing State.level State.lastOf State.operands State.rankOf State.kind State.level
  simp (disch := decide) only [hrd, if_neg hk']

theorem Endable.of_idleTick (h : Endable x st s) : Endable x st s.idleTick := by
  have hidle := idleTick_foot (Sub.refl _) (Foot.refl _ s)
  have hkept : StateKept x s s.idleTick := hidle.stateKept (by decide) (by decide) (by decide)
  have hkind : s.idleTick.kind x = s.kind x := hidle.rd _ _ _ (by decide)
  refine ⟨?_, ?_, hkind ▸ h.kind, ?_⟩
  · rw [hkept.opnum, abortable_iff, hkept.opnum, hkept.state]
    exact abortable_iff.mp h.abortable
  · rw [show s.idleTick.op x = s.op x from congrArg (SMap.get · [x]) (hidle.ctx (by decide))]
    exact h.early
  · rw [hkept.state, countsMet_idleTick h.kind]
    exact h.status

theorem tick_closed (hs : s.active = true) (hnow : s.now % 4 = 1) (hl : NoneLate s) (hd : NoneDue s)
    (hm : s.marks = [(s.now, .ending x (s.opnum x) st)]) (he : Endable x st s) : Closed x st s s.tick := by
  delta State.tick
  extract_lets s₁ s₂ pin s₃
  have hodd : s.now % 2 = 1 := by omega
  have hidle := idleTick_foot (Sub.refl _) (Foot.refl _ s)
  have hsched : s.idleTick.sched = s.sched := hidle.part .sched (by decide)
  have hcounts := idleTick_countsOnly s
  have hkept₁ : StateKept x s s.idleTick := hidle.stateKept (by decide) (by decide) (by decide)
  have h₁ : s₁ = s.idleTick := if_pos (by rw [active_powered hs, hodd]; rfl)
  clear_value s₁
  subst h₁
  have h₂ : s₂ = s.idleTick.storeEnd := if_pos (by
    rw [active_of_foot hidle (by decide) (by decide), hs, hcounts.now, hodd]
    rfl)
  clear_value s₂
  have hclosed : Closed x st s s₂ := by
    rw [h₂]
    refine Closed.before hkept₁ (storeEnd_closed ⟨?_, ?_, ?_⟩ ?_ he.of_idleTick)
    · rw [hsched, hl.refused]
    · rw [hsched, hl.refusedOpp]
    · rw [hsched, hl.copies]
    · rw [hkept₁.opnum]
      exact .of_counts hm hcounts
  have hdue : NoneDue s₂ := by
    have hstore := storeEnd_foot (Sub.refl _) (Foot.refl _ s.idleTick)
    rw [h₂]
    exact hd.of_parts ((hstore.part .link (by decide)).trans (hidle.part .link (by decide)))
      ((hstore.part .host (by decide)).trans (hidle.part .host (by decide)))
  have hnow₂ : s₂.now = s.now := by
    rw [h₂]
    exact ((storeEnd_keeps (Keeps.refl _)).now).trans hcounts.now
  have hpin : pin = false := Bool.and_eq_false_iff.mpr (.inl (beq_eq_false_iff_ne.mpr (by omega)))
  clear_value pin
  have hkept₃ : StateKept x s₂ s₃ := ⟨rfl, rfl, rfl, rfl, rfl⟩
  have hdue₃ : NoneDue s₃ := ⟨hdue.downNext, hdue.deciding, hdue.ports, hdue.lasers⟩
  have hnow₃ : s₃.now % 4 ≠ 0 := by
    have : s₃.now = s₂.now + 1 := rfl
    omega
  clear_value s₃
  rw [hpin]
  exact hclosed.after (hkept₃.trans (kept_of_ite (tickStart_kept hdue₃ hnow₃ x) (.refl x s₃)))

end Sys2Proof.Machine
end

section
/-!
SUPPORT. The asking for an ending by a timeout (R157) and by an ABORT swatch (R174), and the placement and the assembly of
an exchange (R205 to R213).
-/

namespace Sys2Proof.Machine

variable {s t u : State} {x d k : Nat}

theorem progressTimeout_asks (ho : s.ctxState x = ctxOpen) (hl : s.rd F.LST_TIMEOUT_PROGRESS_US (s.lastOf x) ≠ 0)
    (ht : (s.op x).timerAt + us (s.rd F.LST_TIMEOUT_PROGRESS_US (s.lastOf x)) ≤ s.now) (hc : s.countsMet x = false) :
    s.progressTimeout x = s.mark (.ending x (s.opnum x) stIncomplete) := by
  unfold State.progressTimeout
  exact (if_pos ⟨ho, hl, ht, hc⟩).trans (work_ask ..)

theorem progressTimeout_none (h : s.rd F.LST_TIMEOUT_PROGRESS_US (s.lastOf x) = 0 ∨
    s.now < (s.op x).timerAt + us (s.rd F.LST_TIMEOUT_PROGRESS_US (s.lastOf x))) : s.progressTimeout x = s := by
  unfold State.progressTimeout
  refine if_neg ?_
  rintro ⟨-, hl, ht, -⟩
  rcases h with h | h
  · exact hl h
  · exact absurd ht (Nat.not_le.mpr h)

theorem exec_progressTimeout (hs : s.active = true) (hx : x < 65536) :
    exec (.progressTimeout x) s = .next (s.progressTimeout x) :=
  onActive_eq (f := fun s => s.progressTimeout x) (decide_eq_true hx) hs

/-- An ABORT swatch that passes its checks is mirrored and freed, and asks for the operation's end. -/
def State.abortTaken (s : State) (a : Arrived) : State :=
  (s.mirrorAll a.port false a.sched a.vc (some a.header.context) a.ptr a.account 0).dropArrived a

/-- R174: what is decided of an ABORT swatch taken from those that wait. -/
def State.abortDecide (s : State) (a : Arrived) : State :=
  let x := a.header.context
  let drop (f : Fld) : State := (s.dropArrived a).inc f 1 x
  if s.undeclared x then (s.dropArrived a).dropUndecl a.port x
  else if !s.opnumOk x a.header.opnum then drop F.OPC_DROPS_STALE
  else if !s.senderOk a then drop F.OPC_DROPS_FOREIGN
  else if s.swatchDup a then drop F.OPC_DROPS_DUP
  else if a.header.partsM1 < a.header.part then drop F.OPC_DROPS_RANGE
  else if s.abortable x a.header.opnum then (s.abortTaken a).work [.ask x stAborted]
  else drop F.OPC_DROPS_STALE

theorem abortSwatch_eq {a : Arrived} {rest : List Arrived} (hr : s.sched.released = a :: rest) (hk : a.header.skind = skAbort) :
    s.abortSwatch = (s.nextSwatch rest).abortDecide a := by
  unfold State.abortSwatch
  rw [hr]
  exact if_neg (not_not_intro hk)

theorem abortDecide_asks {a : Arrived} (hu : s.undeclared a.header.context = false)
    (hn : s.opnumOk a.header.context a.header.opnum = true) (ho : s.senderOk a = true) (hd : s.swatchDup a = false)
    (hp : a.header.part ≤ a.header.partsM1) (ha : s.abortable a.header.context a.header.opnum = true) :
    s.abortDecide a = (s.abortTaken a).mark (.ending a.header.context ((s.abortTaken a).opnum a.header.context) stAborted) := by
  rw [← work_ask]
  unfold State.abortDecide
  simp only [hu, hn, ho, hd, ha, Nat.not_lt.mpr hp, Bool.not_true, Bool.false_eq_true, if_false, if_true]

theorem abortTaken_kept (s : State) (x : Nat) (a : Arrived) : StateKept x s (s.abortTaken a) :=
  ((mirrorAll_foot (Sub.refl _) (Foot.refl _ s)).stateKept (by decide) (by decide) (by decide)).trans
    ((dropArrived_foot (Sub.refl _) (Foot.refl _ _)).stateKept (by decide) (by decide) (by decide))

theorem abortTaken_stays (s : State) (x : Nat) (a : Arrived) : OpStays x s (s.abortTaken a) :=
  (mirrorAll_stays ..).trans (dropArrived_stays ..)

theorem exec_abortSwatch (hs : s.active = true) : exec .abortSwatch s = .next s.abortSwatch :=
  onActive_eq (f := State.abortSwatch) rfl hs

/-! Exchanges. -/

/-- From `s` to `t` the operation of context x keeps its placements, and the items that wait for the next one. -/
structure PlacedStays (x : Nat) (s t : State) : Prop where
  placed : (t.op x).placed = (s.op x).placed
  early : (t.op x).early = (s.op x).early

theorem PlacedStays.of_ctx (h : t.ctx = s.ctx) : PlacedStays x s t := by
  have hop : t.op x = s.op x := congrArg (SMap.get · [x]) h
  exact ⟨by rw [hop], by rw [hop]⟩

theorem PlacedStays.trans (h : PlacedStays x s t) (h' : PlacedStays x t u) : PlacedStays x s u :=
  ⟨h'.placed.trans h.placed, h'.early.trans h.early⟩

theorem PlacedStays.setOp (s : State) (x : Nat) (f : OpCtx → OpCtx) (hp : (f (s.op x)).placed = (s.op x).placed)
    (he : (f (s.op x)).early = (s.op x).early) : PlacedStays x s (s.setOp x f) :=
  ⟨(congrArg OpCtx.placed (setOp_op ..)).trans hp, (congrArg OpCtx.early (setOp_op ..)).trans he⟩

theorem PlacedStays.each {α : Type} {l : List α} {g : State → α → State} (h : PlacedStays x s t)
    (hg : ∀ v a, PlacedStays x v (g v a)) : PlacedStays x s (t.each l g) := by
  induction l generalizing t with
  | nil => exact h
  | cons a l ih => exact ih (h.trans (hg t a))

theorem output_placed (s : State) (x a r : Nat) (item : Item) (ts : List Target) : PlacedStays x s (s.output x a r item ts) := by
  unfold State.output
  split
  · exact .of_ctx rfl
  · exact (PlacedStays.setOp s x _ rfl rfl).trans (.of_ctx (publish_ctx ..))

theorem sendReports_placed (s : State) (x : Nat) (rs : List Nat) : PlacedStays x s (s.sendReports x rs) :=
  PlacedStays.each (.of_ctx rfl) fun _ _ => output_placed ..

theorem freeSettled_placed (s : State) (x : Nat) : PlacedStays x s (s.freeSettled x) := by
  have hdrop (w : State) (l : List Accepted) : (w.each l (fun s i => s.dropArrived i.item)).ctx = w.ctx :=
    each_keeps w State.ctx fun v i _ => (dropArrived_foot (Sub.refl _) (Foot.refl _ v)).ctx (by decide)
  unfold State.freeSettled
  dsimp only
  split
  · exact .of_ctx rfl
  · exact (PlacedStays.of_ctx (hdrop _ _)).trans (PlacedStays.setOp _ x _ rfl rfl)

theorem settleCore_placed (s : State) (x : Nat) : PlacedStays x s (s.settleCore x).1 := by
  have hmark : PlacedStays x s ((s.wr F.OPC_STATE_STATE ctxFlush x).mark (.flush x)) := .of_ctx rfl
  have hflush : PlacedStays x s (s.enterFlush x) := by
    unfold State.enterFlush
    split
    · dsimp only
      split
      · exact hmark.trans (output_placed ..)
      · exact hmark
    · exact .of_ctx rfl
  rw [settleCore_eq]
  split
  · exact hflush.trans (.of_ctx rfl)
  · exact hflush

/-- Work on an exchange's operation that settles leaves its placements, while the operation is the same. -/
theorem work_settle_placed (he : (s.op x).early = []) (hn : (s.work [.settle x]).opnum x = s.opnum x) :
    ((s.work [.settle x]).op x).placed = (s.op x).placed := by
  rw [work_settle he hn]
  exact (settleCore_placed s x).placed

theorem work_xch (s : State) (l : List Work) (f : Fld) (i : Nat) (hf : f.reg = .OPC_XCH_PLACED ∨ f.reg = .OPC_XCH_DROPPED) :
    (s.work l).rd f i = s.rd f i :=
  (work_foot (Sub.refl _) (Foot.refl _ s)).rd _ _ _ (by rcases hf with hf | hf <;> rw [hf] <;> decide)

/-- What has been placed is counted. -/
structure Placed (x : Nat) (s t : State) : Prop where
  rows : t.rd F.OPC_XCH_PLACED_ROWS x = min (s.rd F.OPC_XCH_PLACED_ROWS x + rowsPlaced (s.placements x)) (2 ^ F.OPC_XCH_PLACED_ROWS.width - 1)
  fenced : t.rd F.OPC_XCH_DROPPED_FENCED x = min (s.rd F.OPC_XCH_DROPPED_FENCED x + s.rowsFenced x (s.placements x))
    (2 ^ F.OPC_XCH_DROPPED_FENCED.width - 1)
  placed : (t.op x).placed = s.placements x
  early : (t.op x).early = (s.op x).early
  opnum : t.opnum x = s.opnum x

theorem Placed.stays {m : Nat} (h : Placed x s t) (hf : Foot m t u) (hp : PlacedStays x t u)
    (hm : [Reg.OPC_XCH_PLACED, .OPC_XCH_DROPPED, .NUM_OPSEQ].all (fun r => !m.testBit r.ctorIdx) = true) : Placed x s u := by
  simp only [List.all_cons, List.all_nil, Bool.and_true, Bool.and_eq_true, Bool.not_eq_true'] at hm
  obtain ⟨hrows, hdropped, hnum⟩ := hm
  exact ⟨(hf.rd _ _ _ hrows).trans h.rows, (hf.rd _ _ _ hdropped).trans h.fenced, hp.placed.trans h.placed,
    hp.early.trans h.early, (hf.rd F.NUM_OPSEQ_OPNUM _ _ hnum).trans h.opnum⟩

/-- The rows for a fenced destination are read from the manifests, the context's last and its operands. -/
theorem rowsFenced_congr (hop : (t.op x).manifests = (s.op x).manifests)
    (hrd : ∀ f ∈ [F.OPC_DECL_LAST, F.LST_CFG_OPERANDS, F.LST_CFG_LEVEL, F.LST_SEG_BASE], ∀ i j, t.rd f i j = s.rd f i j)
    (ps : List Placement) : t.rowsFenced x ps = s.rowsFenced x ps := by
  have hlast : t.lastOf x = s.lastOf x := hrd F.OPC_DECL_LAST (by simp) _ _
  have hops (k : Nat) : t.operands k = s.operands k := congrArg List.range (hrd F.LST_CFG_OPERANDS (by simp) _ _)
  have hmanifest (r : Nat) : t.manifest x r = s.manifest x r := by
    unfold State.manifest State.rankOf State.level
    rw [hop, hlast, hrd F.LST_CFG_LEVEL (by simp), hrd F.LST_SEG_BASE (by simp)]
  unfold State.rowsFenced State.rowsFor
  simp only [hlast, hops, hmanifest]

theorem putPlacement_placed (s : State) (x : Nat) : Placed x s (s.putPlacement x (s.placements x)) := by
  delta State.putPlacement
  extract_lets lost s₁ s₂ s₃
  have hop₁ : s₁.op x = { s.op x with placed := s.placements x } := setOp_op ..
  have hrd₁ (f : Fld) (i j : Nat) : s₁.rd f i j = s.rd f i j := setOp_rd ..
  clear_value s₁
  have hop₂ : s₂.op x = s₁.op x := congrArg (SMap.get · [x]) ((inc_ctx ..).trans (inc_ctx ..))
  have hrd₂ (f : Fld) (i j : Nat) (hp : f.key 0 0 ≠ F.OPC_XCH_PLACED_ROWS.key 0 0)
      (hd : f.key 0 0 ≠ F.OPC_XCH_DROPPED_CAPACITY.key 0 0) : s₂.rd f i j = s.rd f i j :=
    (rd_inc_other _ _ _ _ _ _ _ _ hd).trans ((rd_inc_other _ _ _ _ _ _ _ _ hp).trans (hrd₁ ..))
  have hrows₂ : s₂.rd F.OPC_XCH_PLACED_ROWS x = min (s.rd F.OPC_XCH_PLACED_ROWS x + rowsPlaced (s.placements x))
      (2 ^ F.OPC_XCH_PLACED_ROWS.width - 1) := by
    rw [← hrd₁]
    exact (rd_inc_other _ _ _ _ _ _ _ _ (by decide)).trans (rd_inc_same ..)
  clear_value s₂
  have hfenced : s₂.rowsFenced x (s.placements x) = s.rowsFenced x (s.placements x) := by
    refine rowsFenced_congr (by rw [hop₂, hop₁]) (fun f hf i j => ?_) _
    simp only [List.mem_cons, List.not_mem_nil, or_false] at hf
    rcases hf with rfl | rfl | rfl | rfl <;> exact hrd₂ _ _ _ (by decide) (by decide)
  have hop₃ : s₃.op x = s₂.op x := congrArg (SMap.get · [x]) (inc_ctx ..)
  have hrows₃ : s₃.rd F.OPC_XCH_PLACED_ROWS x = s₂.rd F.OPC_XCH_PLACED_ROWS x := rd_inc_other _ _ _ _ _ _ _ _ (by decide)
  have hopnum₃ : s₃.opnum x = s₂.opnum x := rd_inc_other _ F.NUM_OPSEQ_OPNUM _ _ _ _ _ _ (by decide)
  have hdropped₃ : s₃.rd F.OPC_XCH_DROPPED_FENCED x = min (s₂.rd F.OPC_XCH_DROPPED_FENCED x + s₂.rowsFenced x (s.placements x))
      (2 ^ F.OPC_XCH_DROPPED_FENCED.width - 1) := rd_inc_same ..
  clear_value s₃
  have hplaced : Placed x s s₃ := by
    refine ⟨hrows₃.trans hrows₂, ?_, by rw [hop₃, hop₂, hop₁], by rw [hop₃, hop₂, hop₁], ?_⟩
    · rw [hdropped₃, hfenced, hrd₂ _ _ _ (by decide) (by decide)]
    · exact hopnum₃.trans (hrd₂ F.NUM_OPSEQ_OPNUM _ _ (by decide) (by decide))
  have hraise := raise_foot (die := stopMgt) (src := 32) (detail := x) (Sub.refl _) (Foot.refl _ s₃)
  split
  · exact hplaced
  · exact hplaced.stays hraise (.of_ctx (hraise.ctx (by decide))) (by decide)

/-- The placement of an exchange whose manifests are all there, up to what follows for its operation. -/
def State.placeSent (s : State) (x : Nat) : State :=
  let t := s.lastOf x
  let s := (s.putPlacement x (s.placements x)).mark (.placed x)
  let peak := (List.range (s.op x).placed.length).foldl (fun b d => if s.rowsFor x b < s.rowsFor x d then d else b) 0
  let s := (s.wr F.OPC_XCH_PEAK_DEST peak x).wr F.OPC_XCH_PEAK_DEMAND (s.rowsFor x peak) x
  s.sendReports x ((s.operands t).filter (fun r => !s.fenced (s.memberPort t r)))

theorem exchangePlacement_eq (h : s.placeReady x = true) : s.exchangePlacement x = (s.placeSent x).work [.settle x] := by
  delta State.exchangePlacement State.placeSent
  rw [h]
  exact if_neg (by decide)

theorem placeSent_placed (s : State) (x : Nat) : Placed x s (s.placeSent x) := by
  delta State.placeSent
  extract_lets t s₁ peak s₂
  have hplaced₁ : Placed x s s₁ := (putPlacement_placed s x).stays (mark_foot (Foot.refl 0 _)) (.of_ctx rfl) (by decide)
  clear_value s₁
  have hpeak : Foot (2 ^ Reg.OPC_XCH_PEAK.ctorIdx) s₁ s₂ := wr_foot (by decide) (wr_foot (by decide) (Foot.refl _ s₁))
  have hplaced₂ : Placed x s s₂ := hplaced₁.stays hpeak (.of_ctx rfl) (by decide)
  clear_value s₂
  exact hplaced₂.stays (sendReports_foot (Sub.refl _) (Foot.refl _ s₂)) (sendReports_placed ..) (by decide)

theorem exec_exchangePlacement (hs : s.active = true) (hx : x < 65536) :
    exec (.exchangePlacement x) s = .next (s.exchangePlacement x).settleAll :=
  onActive_eq (f := fun s => (s.exchangePlacement x).settleAll) (decide_eq_true hx) hs

/-- R210: the swatch k of destination d, with these bytes, goes out and is noted as assembled. -/
def State.assembled (s : State) (x d k : Nat) (data : List Byte) : State :=
  let t := s.lastOf x
  let h := s.xchHeader x d k data.length
  let s := s.output x t (reqPort (dieOfPort (s.memberPort t d))) (.swatch h data) [s.memberTarget t d h]
  s.setOp x (fun o => { o with placed := o.placed.zipIdx.map (fun q : Placement × Nat =>
    if q.2 = d then { q.1 with done := q.1.done ++ [k] } else q.1) })

theorem exchangeAssemble_eq {p : Placement} {l : List Byte} (hp : (s.op x).placed[d]? = some p) (hk : s.kind x = kExchange)
    (hm : s.marked (.placed x) 2 = false) (hf : p.fenced = false) (hn : k < s.outSwatches x p) (hd : p.done.contains k = false)
    (ho : s.ctxState x = ctxOpen ∨ s.ctxState x = ctxFlush)
    (hl : s.destBytes x d p (4096 * k) (min (4096 * k + 4096) (s.outStream x p)) = some l) :
    s.exchangeAssemble x d k = ((s.assembled x d k l).freeSettled x).work [.settle x] := by
  have hpasses : ¬ (s.kind x ≠ kExchange ∨ s.marked (.placed x) 2 = true ∨ p.fenced = true ∨ s.outSwatches x p ≤ k ∨
      p.done.contains k = true ∨ (s.ctxState x ≠ ctxOpen ∧ s.ctxState x ≠ ctxFlush)) := by
    rw [hm, hf, hd]
    rintro (h | h | h | h | h | ⟨h, h'⟩)
    · exact h hk
    · cases h
    · cases h
    · exact absurd hn (Nat.not_lt.mpr h)
    · cases h
    · exact ho.elim h h'
  unfold State.exchangeAssemble
  rw [hp]
  refine (if_neg hpasses).trans ?_
  dsimp only
  rw [hl]
  rfl

theorem assembled_done (s : State) {p : Placement} (hp : (s.op x).placed[d]? = some p) (l : List Byte) :
    (((s.assembled x d k l).op x).placed[d]?).map Placement.done = some (p.done ++ [k]) := by
  delta State.assembled
  extract_lets t h s₁
  have hkept : (s₁.op x).placed = (s.op x).placed := (output_placed ..).placed
  clear_value s₁
  rw [setOp_op, List.getElem?_map, List.getElem?_zipIdx, hkept, hp]
  simp only [Option.map_some, Nat.zero_add, if_true]

theorem assembled_early (s : State) (x d k : Nat) (l : List Byte) : ((s.assembled x d k l).op x).early = (s.op x).early := by
  delta State.assembled
  extract_lets t h s₁
  rw [setOp_op]
  exact (output_placed ..).early

theorem assembled_opnum (s : State) (x d k : Nat) (l : List Byte) : (s.assembled x d k l).opnum x = s.opnum x := by
  delta State.assembled
  extract_lets t h s₁
  exact (output_foot (Sub.refl _) (Foot.refl _ s)).rd F.NUM_OPSEQ_OPNUM _ _ (by decide)

theorem exec_exchangeAssemble (hs : s.active = true) (hx : x < 65536) :
    exec (.exchangeSwatchAssemble x d k) s = .next (s.exchangeAssemble x d k).settleAll :=
  onActive_eq (f := fun s => (s.exchangeAssemble x d k).settleAll) (decide_eq_true hx) hs

/-! What the obligation says. -/

/-- Settles O56: a due timeout and an ABORT swatch note their ending; the end of the store cycle decides the only one noted;
a placement counts its rows and an assembled swatch is noted. -/
theorem operationsCloseAndExchange : Obligations.OperationsCloseAndExchange := by
  refine ⟨?timeout, ?timeoutNone, ?abortSwatch, ?tickIncomplete, ?tickAborted, ?placement, ?assemble⟩
  case timeout =>
    rintro s x _ hs hx ho rfl hl ht hc
    refine ⟨_, exec_progressTimeout hs hx, ?_⟩
    rw [progressTimeout_asks ho hl ht hc]
    exact ⟨marked_mark _ _ 2, rfl, rfl⟩
  case timeoutNone =>
    rintro s x _ hs hx rfl h
    exact ⟨_, exec_progressTimeout hs hx, progressTimeout_none h⟩
  case abortSwatch =>
    rintro s _ a rest hs hr hk rfl hu hn ho hd hp ha
    have hreleased := (abortTaken_stays (s.nextSwatch rest) a.header.context a).arrivals.released
    have hkept := abortTaken_kept (s.nextSwatch rest) a.header.context a
    refine ⟨_, exec_abortSwatch hs, ?_⟩
    rw [abortSwatch_eq hr hk, abortDecide_asks (s := s.nextSwatch rest) hu hn ho hd hp ha]
    generalize (s.nextSwatch rest).abortTaken a = t at hreleased hkept
    have hopnum : t.opnum a.header.context = s.opnum a.header.context := hkept.opnum
    rw [hopnum]
    exact ⟨marked_mark _ _ 2, hreleased, hkept.state⟩
  case tickIncomplete =>
    rintro s x hs hpending hnow hx he hk ⟨hrefused, hopp, hcopies⟩ hdown hdeciding hports hlasers hm ho hc
    have hendable : Endable x stIncomplete s := ⟨abortable_iff.mpr ⟨rfl, .inl ho⟩, he, hk, .inr ⟨rfl, ho, hc⟩⟩
    obtain ⟨hstate, hstatus, hfailed, hopnum⟩ :=
      tick_closed hs hnow ⟨hrefused, hopp, hcopies⟩ ⟨hdown, hdeciding, hports, hlasers⟩ hm hendable
    exact ⟨_, step_of_idle hpending, hstate, hstatus, hfailed (by decide), hopnum⟩
  case tickAborted =>
    rintro s x hs hpending hnow hx he hk ⟨hrefused, hopp, hcopies⟩ hdown hdeciding hports hlasers hm ha
    obtain ⟨hstate, hstatus, hfailed, hopnum⟩ :=
      tick_closed hs hnow ⟨hrefused, hopp, hcopies⟩ ⟨hdown, hdeciding, hports, hlasers⟩ hm ⟨ha, he, hk, .inl rfl⟩
    exact ⟨_, step_of_idle hpending, hstate, hstatus, hfailed (by decide), hopnum⟩
  case placement =>
    rintro s x _ _ hs hx hr he rfl rfl
    have hplaced := placeSent_placed s x
    refine ⟨_, exec_exchangePlacement hs hx, ?_⟩
    rw [exchangePlacement_eq hr, work_xch _ _ _ _ (.inl rfl), work_xch _ _ _ _ (.inr rfl)]
    refine ⟨hplaced.rows, hplaced.fenced, fun hn => ?_⟩
    rw [work_settle_placed (hplaced.early.trans he) (hn.trans hplaced.opnum.symm)]
    exact hplaced.placed
  case assemble =>
    rintro s x d k p l hs hx - hp hk hm hf hn hd ho he hl
    have hfree := freeSettled_placed (s.assembled x d k l) x
    have hopnum : ((s.assembled x d k l).freeSettled x).opnum x = s.opnum x :=
      ((freeSettled_foot (Sub.refl _) (Foot.refl _ _)).rd F.NUM_OPSEQ_OPNUM _ _ (by decide)).trans (assembled_opnum ..)
    refine ⟨_, exec_exchangeAssemble hs hx, ?_⟩
    rw [exchangeAssemble_eq hp hk hm hf hn hd ho hl]
    intro hsame
    rw [work_settle_placed (hfree.early.trans ((assembled_early ..).trans he)) (hsame.trans hopnum.symm), hfree.placed]
    exact assembled_done s hp l

end Sys2Proof.Machine
end

section
/-!
SUPPORT. The slots of long operations (R431) and the state of a plan (R151): what ends with an operation, and what leaves a
plan's state as it is.
-/

namespace Sys2Proof.Machine

variable {s t u : State} {slot i state code status : Nat} {op : LongOp}

theorem hostOp_of_opIn (h : s.opIn i code = some op) : s.hostOp i = some op := by
  obtain ⟨o, ho, hif⟩ := Option.bind_eq_some_iff.mp h
  split at hif
  · rwa [← Option.some.inj hif]
  · cases hif

theorem opIn_of_slotOf (h : s.slotOf code = some i) (ho : s.hostOp i = some op) : s.opIn i code = some op := by
  have hcode := List.find?_some h
  simp only [ho, beq_iff_eq] at hcode
  unfold State.opIn
  rw [ho]
  exact if_pos hcode

theorem putOp_hostOp (s : State) (i : Nat) (op : LongOp) : (s.putOp i op).hostOp i = some op := SMap.get_set_same _ _ _

theorem wr_hostOp (s : State) (f : Fld) (v j k i : Nat) : (s.wr f v j k).hostOp i = s.hostOp i := rfl

/-- R431: the operation of slot i has ended, with this state and status. -/
structure OpEnded (i state status : Nat) (op : LongOp) (s : State) : Prop where
  free : s.hostOp i = none
  word : s.rd F.HST_OP_WORD i = opWord state status op % 2 ^ 64

/-- The operation of slot i leaves it, and its status word is written. -/
def State.leaveSlot (s : State) (i word : Nat) : State :=
  { s with host := { s.host with ops := s.host.ops.set [i] none } }.wr F.HST_OP_WORD word i

theorem endOp_eq (h : s.hostOp i = some op) (state status : Nat) : s.endOp i state status =
    if op.irq then (s.leaveSlot i (opWord state status op)).msix 4 else s.leaveSlot i (opWord state status op) := by
  unfold State.endOp
  rw [h]
  rfl

theorem endOp_ended (h : s.hostOp i = some op) (state status : Nat) : OpEnded i state status op (s.endOp i state status) := by
  have hended : OpEnded i state status op (s.leaveSlot i (opWord state status op)) := ⟨SMap.get_set_same _ _ _, rd_wr_same ..⟩
  rw [endOp_eq h]
  generalize s.leaveSlot i (opWord state status op) = u at hended
  have hmsix := msix_foot (v := 4) (Sub.refl _) (Foot.refl _ u)
  split
  · exact ⟨(congrArg (fun h : HostState => h.ops.get [i]) (hmsix.part .host (by decide))).trans hended.free,
      (hmsix.rd _ _ _ (by decide)).trans hended.word⟩
  · exact hended

theorem failLoad_ended (h : s.hostOp i = some op) (status : Nat) : OpEnded i opFailed status op (s.failLoad i status) :=
  endOp_ended (s := s.wr _ _ _) h ..

/-- R151: where the plan stands. -/
structure PlanIs (state status : Nat) (s : State) : Prop where
  state : s.planState = state
  status : s.rd F.LST_PLAN_STAT_STATUS = status

theorem PlanIs.of_foot {m : Nat} (h : PlanIs state status s) (hf : Foot m s t)
    (hm : m.testBit Reg.LST_PLAN_STAT.ctorIdx = false) : PlanIs state status t :=
  ⟨(hf.rd F.LST_PLAN_STAT_STATE _ _ hm).trans h.state, (hf.rd _ _ _ hm).trans h.status⟩

theorem PlanIs.wr (h : PlanIs state status s) {f : Fld} {v j : Nat} (hstate : F.LST_PLAN_STAT_STATE.key 0 0 ≠ f.key 0 0)
    (hstatus : F.LST_PLAN_STAT_STATUS.key 0 0 ≠ f.key 0 0) : PlanIs state status (s.wr f v i j) :=
  ⟨(rd_wr_other _ F.LST_PLAN_STAT_STATE _ _ _ _ _ _ hstate).trans h.state, (rd_wr_other _ _ _ _ _ _ _ _ hstatus).trans h.status⟩

theorem setPlan_planIs (s : State) (state status : Nat) : PlanIs (state % 2 ^ 3) (status % 2 ^ 8) (s.setPlan state status) := by
  unfold State.setPlan
  refine PlanIs.of_foot ⟨?_, ?_⟩ (planRecord_foot (Sub.refl _) (Foot.refl _ _)) (by decide)
  · exact (rd_wr_other _ F.LST_PLAN_STAT_STATE _ _ _ _ _ _ (by decide)).trans (rd_wr_same ..)
  · exact rd_wr_same ..

theorem setPlan_host (s : State) (state status : Nat) : (s.setPlan state status).host = s.host :=
  (setPlan_foot (Sub.refl _) (Foot.refl _ s)).part .host (by decide)

/-- The registers and parts that an acceptance changes, LST_PLAN_STAT apart. -/
def acceptFoot : Nat := 0xd68000000000000082180138000d0000000c042602004000000030444000000200400000000000

theorem acceptFoot_wr {f : Fld} {v j : Nat} (h : Foot acceptFoot s t) (hf : acceptFoot.testBit f.reg.ctorIdx = true) :
    Foot acceptFoot s (t.wr f v i j) := wr_foot hf h

theorem setPlan_hostOp (s : State) (state status i : Nat) : (s.setPlan state status).hostOp i = s.hostOp i :=
  congrArg (fun h : HostState => h.ops.get [i]) (setPlan_host s state status)

/-- R153: an acceptance ends ACCEPTED; what it does in its cycle changes neither the state nor the status again. -/
theorem acceptPlan_planIs (h : s.rd F.LST_PLAN_STAT_STATUS = 0) (b : Bool) : PlanIs planAccepted 0 (s.acceptPlan b) := by
  delta State.acceptPlan
  extract_lets s₁ xs s₂ s₃ s₄ missing groups s₅ s₆ sched s₇ s₈ s₉ s₁₀ s₁₁ s₁₂ s₁₃ s₁₄ s₁₅ exposed s₁₆ s₁₇ s₁₈
  have h₁ : PlanIs planAccepted 0 s₁ := by
    have hplan := setPlan_planIs s planAccepted (s.rd F.LST_PLAN_STAT_STATUS)
    rw [h] at hplan
    show PlanIs planAccepted 0 (s.setPlan planAccepted (s.rd F.LST_PLAN_STAT_STATUS))
    rw [h]
    exact hplan
  clear_value s₁
  have h₂ : PlanIs planAccepted 0 s₂ := (h₁.wr (by decide) (by decide)).wr (by decide) (by decide)
  clear_value s₂
  have h₃ : Foot acceptFoot s₂ s₃ := setDigest_foot rfl (by decide) (Foot.refl _ s₂)
  clear_value s₃
  have h₄ : Foot acceptFoot s₂ s₄ := each_foot' h₃ fun _ _ hv => setBank_foot rfl (acceptFoot_wr hv (by decide))
  clear_value s₄ groups
  have h₅ : Foot acceptFoot s₂ s₅ := each_foot' h₄ fun _ _ hv => each_foot' hv fun _ _ hw => setBank_foot rfl hw
  clear_value s₅
  have h₆ : Foot acceptFoot s₂ s₆ := each_foot' h₅ fun _ _ hv => syncOpp_foot rfl hv
  clear_value s₆
  have h₇ : Foot acceptFoot s₂ s₇ := foot_mk.mpr (parts_sched (by decide) h₆.parts)
  clear_value s₇
  have h₈ : Foot acceptFoot s₂ s₈ := syncMembers_foot rfl (rebuildScheduled_foot rfl h₇)
  clear_value s₈
  have h₉ : Foot acceptFoot s₂ s₉ := each_foot' h₈ fun _ _ hv => acceptFoot_wr hv (by decide)
  clear_value s₉
  have h₁₀ : Foot acceptFoot s₂ s₁₀ := acceptFoot_wr h₉ (by decide)
  clear_value s₁₀
  have h₁₁ : Foot acceptFoot s₂ s₁₁ :=
    clearRecords_foot rfl (zeroAll_foot rfl (by decide) (foot_mk.mpr (parts_ctx (by decide) h₁₀.parts)))
  clear_value s₁₁
  have h₁₂ : Foot acceptFoot s₂ s₁₂ := each_foot' h₁₁ fun _ _ hv =>
    have hneed := acceptFoot_wr (acceptFoot_wr hv (by decide)) (by decide)
    ite_foot (acceptFoot_wr hneed (by decide)) hneed
  clear_value s₁₂
  have h₁₃ : Foot acceptFoot s₂ s₁₃ := each_foot' h₁₂ fun _ _ hv =>
    warmUp_foot rfl (acceptFoot_wr (acceptFoot_wr hv (by decide)) (by decide))
  clear_value s₁₃
  have h₁₄ : Foot acceptFoot s₂ s₁₄ := clearSpore_foot rfl h₁₃
  clear_value s₁₄
  have h₁₅ : Foot acceptFoot s₂ s₁₅ := each_foot' h₁₄ fun _ _ hv =>
    acceptFoot_wr (acceptFoot_wr (acceptFoot_wr hv (by decide)) (by decide)) (by decide)
  clear_value s₁₅ exposed
  have h₁₆ : Foot acceptFoot s₂ s₁₆ := each_foot' h₁₅ fun _ _ hv => acceptFoot_wr hv (by decide)
  clear_value s₁₆
  have h₁₇ : Foot acceptFoot s₂ s₁₇ := each_foot' h₁₆ fun _ _ hv => acceptFoot_wr hv (by decide)
  clear_value s₁₇
  have h₁₈ : Foot acceptFoot s₂ s₁₈ := acceptFoot_wr (acceptFoot_wr h₁₇ (by decide)) (by decide)
  clear_value s₁₈
  exact h₂.of_foot (ite_foot (each_foot' h₁₈ fun _ _ hv => restoreLast_foot rfl hv) h₁₈) (by decide)

/-- R154: a plan that is left is EMPTY. -/
theorem emptyPlan_state (s : State) : s.emptyPlan.planState = planEmpty := by
  delta State.emptyPlan
  extract_lets s₁ held sched comp s₂ s₃ s₄ s₅ s₆ s₇ s₈
  have h₆ : s₆.planState = planEmpty := (setPlan_planIs s₅ planEmpty _).state
  clear_value s₆ held
  have h₇ : s₇.planState = planEmpty :=
    ((forgetExpected_foot (Sub.refl _) (Foot.refl _ s₆)).rd F.LST_PLAN_STAT_STATE _ _ (by decide)).trans h₆
  clear_value s₇
  have h₈ : s₈.planState = planEmpty := (each_keeps s₇ State.planState fun v p _ =>
    (syncOpp_foot (Sub.refl _) (Foot.refl _ v)).rd F.LST_PLAN_STAT_STATE _ _ (by decide)).trans h₇
  clear_value s₈
  exact ((work_foot (Sub.refl _) (Foot.refl _ s₈)).rd F.LST_PLAN_STAT_STATE _ _ (by decide)).trans h₈

theorem emptyPlan_hostOp (s : State) (i : Nat) : s.emptyPlan.hostOp i = s.hostOp i :=
  congrArg (fun h : HostState => h.ops.get [i]) ((emptyPlan_foot (Sub.refl _) (Foot.refl _ s)).part .host (by decide))

/-- The end of an operation leaves the plan. -/
theorem PlanIs.endOp (h : PlanIs state status s) (i c d : Nat) : PlanIs state status (s.endOp i c d) :=
  h.of_foot (endOp_foot (Sub.refl _) (Foot.refl _ s)) (by decide)

theorem PlanIs.failLoad (h : PlanIs state status s) (i c : Nat) : PlanIs state status (s.failLoad i c) :=
  h.of_foot (failLoad_foot (Sub.refl _) (Foot.refl _ s)) (by decide)

end Sys2Proof.Machine
end

section
/-!
SUPPORT. What a plan's check, its acceptance by command and its retirement come to in each case (R151 to R154).
-/

namespace Sys2Proof.Machine

variable {s t : State} {slot : Nat} {op : LongOp}

/-- R152: the checks of the plan that failed. -/
def State.failedChecks (s : State) : List (Nat × Bool × Bool) := s.takeOutcomes.planChecks.filter (fun c => c.2.1)

/-- R152: the outcomes are taken, and the checks that failed are noted. -/
def State.checked (s : State) : State :=
  s.takeOutcomes.wr F.LST_PLAN_CHECKS_FAILED (sumOver s.failedChecks (fun c => 2 ^ (c.1 - 1)))

theorem checked_host (s : State) : s.checked.host = s.host :=
  (wr_host ..).trans ((takeOutcomes_foot (Sub.refl _) (Foot.refl _ s)).part .host (by decide))

/-- A load whose plan is to be checked. -/
structure InCheck (slot : Nat) (op : LongOp) (s : State) : Prop where
  slotOf : s.slotOf oPlanLoad = some slot
  hostOp : s.hostOp slot = some op
  loading : op.loading = true
  state : s.planState = planChecking

/-- R151 to R153: where the checks that failed take the plan. -/
def State.decideCheck (s : State) (slot : Nat) (failed : List (Nat × Bool × Bool)) : State :=
  match failed.find? (fun c => !c.2.2) with
  | some c => (s.undoPlan.setPlan planEmpty c.1).forgetExpected.failLoad slot c.1
  | none =>
    if failed.any (fun c => c.1 == 0x0B) then (s.setPlan planDegraded 0x0B).endOp slot opDone 0x0B
    else ((s.wr F.LST_PLAN_STAT_STATUS 0).acceptPlan false).endOp slot opDone 0

theorem InCheck.planCheck_eq (h : InCheck slot op s) : s.planCheck = s.checked.decideCheck slot s.failedChecks := by
  have hdecides : ¬ ((s.opIn slot oPlanLoad).map LongOp.loading ≠ some true ∨ s.planState ≠ planChecking) := by
    rw [opIn_of_slotOf h.slotOf h.hostOp, Option.map_some, h.loading]
    exact not_or.mpr ⟨not_not_intro rfl, not_not_intro h.state⟩
  unfold State.planCheck
  rw [h.slotOf]
  refine (if_neg hdecides).trans ?_
  unfold State.checked State.failedChecks State.decideCheck
  generalize s.takeOutcomes = u
  extract_lets checks failed v
  rfl

theorem decideCheck_failed {c : Nat × Bool × Bool} {l : List (Nat × Bool × Bool)} (hc : l.find? (fun c => !c.2.2) = some c) :
    s.decideCheck slot l = (s.undoPlan.setPlan planEmpty c.1).forgetExpected.failLoad slot c.1 := by
  unfold State.decideCheck
  rw [hc]

theorem decideCheck_passed {l : List (Nat × Bool × Bool)} (hc : l.find? (fun c => !c.2.2) = none) : s.decideCheck slot l =
    if l.any (fun c => c.1 == 0x0B) then (s.setPlan planDegraded 0x0B).endOp slot opDone 0x0B
    else ((s.wr F.LST_PLAN_STAT_STATUS 0).acceptPlan false).endOp slot opDone 0 := by
  unfold State.decideCheck
  rw [hc]

/-- R152: a code of a check fits the status. -/
theorem planChecks_code {c : Nat × Bool × Bool} (h : c ∈ s.planChecks) : c.1 % 2 ^ 8 = c.1 := by
  have hcodes : s.planChecks.map Prod.fst = [2, 3, 4, 5, 6, 7, 8, 9, 10, 11] := rfl
  have hc : c.1 ∈ s.planChecks.map Prod.fst := List.mem_map_of_mem h
  rw [hcodes] at hc
  have hsmall : ∀ n ∈ [2, 3, 4, 5, 6, 7, 8, 9, 10, 11], n % 2 ^ 8 = n := by decide
  exact hsmall _ hc

/-- R151, R152: a plan that fails its check is undone, and the slots' operations go on. -/
theorem undone_planIs (s : State) (code : Nat) :
    PlanIs planEmpty (code % 2 ^ 8) (s.undoPlan.setPlan planEmpty code).forgetExpected ∧
    ∀ i, (s.undoPlan.setPlan planEmpty code).forgetExpected.hostOp i = s.hostOp i := by
  have hundo : s.undoPlan.host = s.host := (undoPlan_foot (Sub.refl _) (Foot.refl _ s)).part .host (by decide)
  generalize s.undoPlan = u at hundo
  have hplan := setPlan_planIs u planEmpty code
  have hhost := (setPlan_host u planEmpty code).trans hundo
  generalize u.setPlan planEmpty code = v at hplan hhost
  have hforget := forgetExpected_foot (Sub.refl _) (Foot.refl _ v)
  exact ⟨hplan.of_foot hforget (by decide), fun i =>
    congrArg (fun h : HostState => h.ops.get [i]) ((hforget.part .host (by decide)).trans hhost)⟩

theorem acceptPlan_hostOp (s : State) (b : Bool) (i : Nat) : (s.acceptPlan b).hostOp i = s.hostOp i :=
  congrArg (fun h : HostState => h.ops.get [i]) ((acceptPlan_foot (Sub.refl _) (Foot.refl _ s)).part .host (by decide))

/-- R153: with the status cleared the plan is accepted, and the operation of the slot is done. -/
theorem accepted_ended (hz : s.rd F.LST_PLAN_STAT_STATUS = 0) (h : s.hostOp slot = some op) (b : Bool) :
    PlanIs planAccepted 0 ((s.acceptPlan b).endOp slot opDone 0) ∧ OpEnded slot opDone 0 op ((s.acceptPlan b).endOp slot opDone 0) :=
  ⟨(acceptPlan_planIs hz b).endOp .., endOp_ended ((acceptPlan_hostOp ..).trans h) ..⟩

theorem InCheck.checked_hostOp (h : InCheck slot op s) : s.checked.hostOp slot = some op :=
  (congrArg (fun h : HostState => h.ops.get [slot]) (checked_host s)).trans h.hostOp

theorem planAcceptDegraded_eq (ho : s.opIn slot oAcceptDegraded = some op) (hp : s.planState = planDegraded) :
    s.planAcceptDegraded slot = ((s.wr F.LST_PLAN_STAT_STATUS 0).acceptPlan true).endOp slot opDone 0 := by
  unfold State.planAcceptDegraded
  rw [ho]
  exact if_pos hp

theorem planRetire_degraded (ho : s.opIn slot oPlanRetire = some op) (hp : s.planState = planDegraded) :
    s.planRetire slot = s.emptyPlan.endOp slot opDone 0 := by
  unfold State.planRetire
  rw [ho]
  exact if_pos hp

/-- R154: what an accepted retire command with FORCE does for the contexts. -/
def State.forceIdle (s : State) : State :=
  let s := s.takeBackItems
  s.work ((s.contexts.filter (fun x => s.ctxState x != ctxIdle && s.ctxState x != ctxClosing)).map (fun x => Work.ask x stAborted))

theorem planRetire_accepted (ho : s.opIn slot oPlanRetire = some op) (hp : s.planState = planAccepted) : s.planRetire slot =
    if op.flags.testBit 0 then (s.setPlan planRetiring (s.rd F.LST_PLAN_STAT_STATUS)).forceIdle
    else s.setPlan planRetiring (s.rd F.LST_PLAN_STAT_STATUS) := by
  unfold State.planRetire
  rw [ho]
  refine (if_neg (by rw [hp]; decide)).trans ((if_pos (.inl hp)).trans ?_)
  rw [if_pos hp]
  rfl

/-- R154: the forced end of operations leaves the plan and the slots. -/
theorem forceIdle_foot (s : State) : Foot 0x7e600000000000000028010c0009701090006fa6c0604000907ff0020000000000000000000000 s s.forceIdle :=
  work_foot rfl (takeBackItems_foot rfl (Foot.refl _ s))

theorem planRetired_eq (hp : s.planState = planRetiring) (hi : s.allIdle = true) (hslot : s.slotOf oPlanRetire = some slot) :
    s.planRetired = s.emptyPlan.endOp slot opDone 0 := by
  unfold State.planRetired
  refine (if_pos ⟨hp, hi⟩).trans ?_
  rw [hslot]

theorem emptied_ended (h : s.hostOp slot = some op) : (s.emptyPlan.endOp slot opDone 0).planState = planEmpty ∧
    OpEnded slot opDone 0 op (s.emptyPlan.endOp slot opDone 0) :=
  ⟨((endOp_foot (Sub.refl _) (Foot.refl _ _)).rd F.LST_PLAN_STAT_STATE _ _ (by decide)).trans (emptyPlan_state s),
    endOp_ended ((emptyPlan_hostOp ..).trans h) ..⟩

theorem exec_planLoad {image : PlanFetch} (hs : s.active = true) (hi : slot < 8) :
    exec (.planLoad slot image) s = .next (s.planLoad slot image) :=
  onActive_eq (f := fun s => s.planLoad slot image) (decide_eq_true hi) hs

theorem exec_planCheck (hs : s.active = true) : exec .planCheck s = .next s.planCheck :=
  onActive_eq (f := State.planCheck) rfl hs

theorem exec_planAcceptDegraded (hs : s.active = true) (hi : slot < 8) :
    exec (.planAcceptDegraded slot) s = .next (s.planAcceptDegraded slot) :=
  onActive_eq (f := fun s => s.planAcceptDegraded slot) (decide_eq_true hi) hs

theorem exec_planRetire (hs : s.active = true) (hi : slot < 8) :
    exec (.planRetire slot) s = .next (s.planRetire slot).settleAll :=
  onActive_eq (f := fun s => (s.planRetire slot).settleAll) (decide_eq_true hi) hs

theorem exec_planRetired (hs : s.active = true) : exec .planRetired s = .next s.planRetired :=
  onActive_eq (f := State.planRetired) rfl hs

end Sys2Proof.Machine
end

section
/-!
SUPPORT. The load of a plan's image (R425, R426).
-/

namespace Sys2Proof.Machine

variable {s t : State} {slot i j word : Nat} {op : LongOp} {r : Reg}

/-- The write of one RWL field of a register. -/
def State.rwlField (s : State) (r : Reg) (i j word : Nat) (f : Fld) : State :=
  let v := bits word f.hi f.lo
  if f.ignores v then s
  else if r = .PRT_LINK_CFG ∧ f.lo = 29 then s.setRate i v
  else s.wr f v i j

theorem writeRwl_eq (s : State) (r : Reg) (i j word : Nat) : s.writeRwl r i j word =
    s.each (r.fields.filter (fun f => f.code i j == .rwl)) (fun s f => s.rwlField r i j word f) := rfl

theorem rwlField_same (s : State) (hr : r ≠ .PRT_LINK_CFG) {f : Fld} (hv : f.ignores (bits word f.hi f.lo) = false) :
    (s.rwlField r i j word f).rd f i j = bits word f.hi f.lo := by
  unfold State.rwlField
  dsimp only
  rw [hv, if_neg Bool.false_ne_true, if_neg fun h => hr h.1, rd_wr_same]
  exact Nat.mod_eq_of_lt (bits_lt ..)

theorem rwlField_other (s : State) (hr : r ≠ .PRT_LINK_CFG) {f g : Fld} (hf : f ∈ r.fields) (hg : g ∈ r.fields) (hne : f ≠ g) :
    (s.rwlField r i j word g).rd f i j = s.rd f i j := by
  unfold State.rwlField
  dsimp only
  split
  · rfl
  · rw [if_neg fun h => hr h.1]
    exact rd_wr_key _ _ _ _ _ _ _ _ fun hk => hne (fields_key_inj hf hg hk)

theorem each_rwlField_rd (hr : r ≠ .PRT_LINK_CFG) {f : Fld} (hf : f ∈ r.fields) (hv : f.ignores (bits word f.hi f.lo) = false)
    {l : List Fld} (hl : ∀ g ∈ l, g ∈ r.fields) (hs : f ∈ l ∨ s.rd f i j = bits word f.hi f.lo) :
    (s.each l (fun s g => s.rwlField r i j word g)).rd f i j = bits word f.hi f.lo := by
  induction l generalizing s with
  | nil => exact hs.resolve_left List.not_mem_nil
  | cons g l ih =>
    refine ih (s := s.rwlField r i j word g) (fun x hx => hl x (List.mem_cons_of_mem _ hx)) ?_
    by_cases hfg : f = g
    · exact .inr (hfg ▸ rwlField_same s hr hv)
    · exact hs.imp (fun hm => (List.mem_cons.mp hm).resolve_left hfg)
        (fun hval => (rwlField_other s hr hf (hl g List.mem_cons_self) hfg).trans hval)

/-- R14, R426: a write of the RWL fields of a register leaves its bits in each that takes them. -/
theorem writeRwl_rd (s : State) (hr : r ≠ .PRT_LINK_CFG) {f : Fld} (hf : f ∈ r.fields) (hc : f.code i j = .rwl)
    (hv : f.ignores (bits word f.hi f.lo) = false) : (s.writeRwl r i j word).rd f i j = bits word f.hi f.lo := by
  rw [writeRwl_eq]
  exact each_rwlField_rd hr hf hv (fun g hg => List.mem_of_mem_filter hg) (.inl (List.mem_filter.mpr ⟨hf, by rw [hc]; rfl⟩))

/-- A low word's fields are read from it. -/
theorem bits_withHalf_low {hi lo : Nat} (w v : Nat) (h : hi < 32) : bits (withHalf w false v) hi lo = bits v hi lo := by
  rw [← bits_mod_two_pow h, ← bits_mod_two_pow (v := v) h]
  congr 1
  unfold withHalf
  rw [if_neg Bool.false_ne_true]
  omega

/-- The registers and parts that a load changes after its records are written. -/
def loadFoot : Nat := 0x1008000000000000800000000000000000000000000000000000000180000000000400000000000

/-- No RWL field is in a register that a load changes on its way to CHECKING, and none is a member's read-only bit or LASTS. -/
theorem rwl_apart : Reg.all.all (fun r => r.fields.all (fun f =>
    (f.acc != .rwl && f.acc != .rwlWin && f.acc != .rwlAcct) ||
    (!loadFoot.testBit f.reg.ctorIdx &&
      memberSyncFields.all (fun g => f.key 0 0 != g.key 0 0) && f.key 0 0 != F.LST_PLAN_STAT_LASTS.key 0 0))) = true := by
  decide +kernel

/-- The image of a load: as many bytes as its command says. -/
def LongOp.image (op : LongOp) (l : List Byte) : List Byte :=
  (l ++ List.replicate (op.args.getD 1 0) 0).take (op.args.getD 1 0)

/-- R426: the records of an image are written. -/
def State.writeRecords (s : State) (ws : List (Hit × Nat)) : State :=
  (s.each ws (fun s w => s.imageWord w.1 w.2)).syncMembers.syncLasts

/-- R426: the load goes on, and says how far it is. -/
def LongOp.inCheck (op : LongOp) : LongOp := { op with loading := true, progress := ceilDiv (op.args.getD 1 0) 4096 }

/-- R425: what is kept of an image that is checked, and of its command. -/
def HostState.keepPlan (h : HostState) (op : LongOp) (image : List Byte) : HostState :=
  { h with
    planFw := field image 16 32, planDum := field image 48 32, planRole := field image 80 1 % 4
    planDigest := Config.shake256 image % 2 ^ 256
    restore := op.flags.testBit 0, shards := op.flags.testBit 1
    restoreLasts := bits (op.args.getD 2 0) 15 0, slotSel := bits (op.args.getD 2 0) 31 16 }

/-- R426: a load whose records are written goes on, its plan CHECKING. -/
def State.toCheck (s : State) (slot : Nat) (op : LongOp) (image : List Byte) : State :=
  { (s.putOp slot op.inCheck).underCheck with host := (s.putOp slot op.inCheck).host.keepPlan op image }

theorem not_loading (h : op.loading = false) : ¬ op.loading = true := ne_true_of_eq_false h

theorem planLoad_failed (ho : s.opIn slot oPlanLoad = some op) (hl : op.loading = false) (n : Nat) :
    s.planLoad slot (.failed n) =
      ((s.undoPlan.putOp slot { op with progress := min n (ceilDiv (op.args.getD 1 0) 4096 - 1) }).latch
        F.HST_ERR_DMA_ERR).failLoad slot cDmaErr := by
  unfold State.planLoad
  rw [ho]
  exact if_neg (not_loading hl)

/-- R425, R426: what becomes of an image that is read. -/
def State.takeImage (s : State) (slot : Nat) (op : LongOp) (image : List Byte) : State :=
  match planWords image with
  | none => (s.putOp slot { op with progress := ceilDiv (op.args.getD 1 0) 4096 }).failLoad slot cBadImage
  | some ws => (s.writeRecords ws).toCheck slot op image

theorem planLoad_image (ho : s.opIn slot oPlanLoad = some op) (hl : op.loading = false) (l : List Byte)
    (hst : s.undoPlan.stageImage (ceilDiv (op.args.getD 1 0) 131072) = some t) :
    s.planLoad slot (.image l) = t.takeImage slot op (op.image l) := by
  unfold State.planLoad
  rw [ho]
  refine (if_neg (not_loading hl)).trans ?_
  extract_lets u len fetched
  dsimp only
  rw [show u.stageImage (ceilDiv len 131072) = some t from hst]
  rfl

theorem takeImage_bad {image : List Byte} (hw : planWords image = none) : s.takeImage slot op image =
    (s.putOp slot { op with progress := ceilDiv (op.args.getD 1 0) 4096 }).failLoad slot cBadImage := by
  unfold State.takeImage
  rw [hw]

theorem takeImage_good {image : List Byte} {ws : List (Hit × Nat)} (hw : planWords image = some ws) :
    s.takeImage slot op image = (s.writeRecords ws).toCheck slot op image := by
  unfold State.takeImage
  rw [hw]

theorem withHost_regs (s : State) (h : HostState) : ({ s with host := h } : State).regs = s.regs := rfl

theorem toCheck_regs (s : State) (slot : Nat) (op : LongOp) (image : List Byte) :
    (s.toCheck slot op image).regs = (s.putOp slot op.inCheck).underCheck.regs := by
  unfold State.toCheck
  exact withHost_regs ..

theorem toCheck_host (s : State) (slot : Nat) (op : LongOp) (image : List Byte) :
    (s.toCheck slot op image).host = (s.putOp slot op.inCheck).host.keepPlan op image := by
  unfold State.toCheck
  dsimp only

theorem toCheck_hostOp (s : State) (slot : Nat) (op : LongOp) (image : List Byte) :
    (s.toCheck slot op image).hostOp slot = some op.inCheck := by
  unfold State.hostOp
  rw [toCheck_host]
  exact putOp_hostOp ..

theorem setPlan_checking (s : State) (status : Nat) : (s.setPlan planChecking status).planState = planChecking :=
  (setPlan_planIs s planChecking status).state

theorem underCheck_state (s : State) : s.underCheck.planState = planChecking := by
  unfold State.underCheck
  exact setPlan_checking ..

theorem toCheck_state (s : State) (image : List Byte) : (s.toCheck slot op image).planState = planChecking :=
  (rd_congr _ _ _ (toCheck_regs ..)).trans (underCheck_state _)

theorem toCheck_rd (s : State) (image : List Byte) {f : Fld} (i j : Nat) (hf : loadFoot.testBit f.reg.ctorIdx = false) :
    (s.toCheck slot op image).rd f i j = s.rd f i j := by
  have hfoot : Foot loadFoot s (s.putOp slot op.inCheck).underCheck := underCheck_foot rfl (putOp_foot rfl (Foot.refl _ s))
  exact (rd_congr _ _ _ (toCheck_regs ..)).trans (hfoot.rd _ _ _ hf)

/-- What a load does around its records and after them leaves every RWL field. -/
theorem rwl_kept {f : Fld} (hf : f ∈ r.fields) (hc : f.code i j = .rwl) : loadFoot.testBit f.reg.ctorIdx = false ∧
    (∀ g ∈ memberSyncFields, f.key 0 0 ≠ g.key 0 0) ∧ f.key 0 0 ≠ F.LST_PLAN_STAT_LASTS.key 0 0 := by
  have hapart := List.all_eq_true.mp (List.all_eq_true.mp rwl_apart r (mem_all r)) f hf
  have hrwl : (f.acc != .rwl && f.acc != .rwlWin && f.acc != .rwlAcct) = false := by
    rcases code_rwl hc with h | h | h <;> rw [h] <;> decide
  rw [hrwl, Bool.false_or, Bool.and_eq_true, Bool.and_eq_true, Bool.not_eq_true', bne_iff_ne] at hapart
  obtain ⟨⟨hload, hsync⟩, hlasts⟩ := hapart
  exact ⟨hload, fun g hg => bne_iff_ne.mp (List.all_eq_true.mp hsync g hg), hlasts⟩

/-- R426: the last record written stands in the RWL fields of its word. -/
theorem writeRecords_rd (s : State) (ws : List (Hit × Nat)) {h : Hit} (v : Nat) (hr : h.reg ≠ .PRT_LINK_CFG)
    (hh : h.high = false) {f : Fld} (hf : f ∈ h.reg.fields) (hc : f.code h.i h.j = .rwl) (hhi : f.hi < 32)
    (hv : f.ignores (bits v f.hi f.lo) = false) : (s.writeRecords (ws ++ [(h, v)])).rd f h.i h.j = bits v f.hi f.lo := by
  obtain ⟨-, hsync, hlasts⟩ := rwl_kept hf hc
  have hlast (u : State) : (u.imageWord h v).rd f h.i h.j = bits v f.hi f.lo := by
    have hlow := bits_withHalf_low (lo := f.lo) (u.regBits h.reg h.i h.j) v hhi
    unfold State.imageWord
    rw [hh, writeRwl_rd u hr hf hc (hlow.symm ▸ hv), hlow]
  unfold State.writeRecords State.each
  rw [syncLasts_rd_other hlasts, syncMembers_rd hsync, List.foldl_append]
  exact hlast _

/-! What the obligation says. -/

/-- Settles O45: each case of a load, a check, an acceptance and a retirement by its equation; what the cycle does after the
plan's state is set leaves it (`acceptPlan_planIs`, `emptyPlan_state`). -/
theorem plansLoadAndEnd : Obligations.PlansLoadAndEnd := by
  refine ⟨?unread, ?badImage, ?goodImage, ?accepted, ?failed, ?degraded, ?byCommand, ?degradedRetires, ?retiring, ?retired⟩
  case unread =>
    intro s slot op n hs hi ho hl
    refine ⟨_, exec_planLoad hs hi, ?_⟩
    rw [planLoad_failed ho hl]
    have hput := putOp_hostOp s.undoPlan slot { op with progress := min n (ceilDiv (op.args.getD 1 0) 4096 - 1) }
    generalize s.undoPlan.putOp slot _ = u at hput
    obtain ⟨hfree, hword⟩ := failLoad_ended (s := u.latch F.HST_ERR_DMA_ERR) hput cDmaErr
    refine ⟨?_, hfree, hword⟩
    exact ((failLoad_foot (Sub.refl _) (Foot.refl _ (u.latch F.HST_ERR_DMA_ERR))).rd _ _ _ (by decide)).trans (rd_wr_same ..)
  case badImage =>
    intro s slot op l hs hi ho hl hst hw
    obtain ⟨u, hu⟩ := Option.isSome_iff_exists.mp hst
    refine ⟨_, exec_planLoad hs hi, ?_⟩
    rw [planLoad_image ho hl l hu, takeImage_bad (image := op.image l) hw]
    obtain ⟨hfree, hword⟩ := failLoad_ended (putOp_hostOp ..) cBadImage
    exact ⟨hfree, hword⟩
  case goodImage =>
    intro s slot op l ws h v hs hi ho hl hst hw
    obtain ⟨u, hu⟩ := Option.isSome_iff_exists.mp hst
    refine ⟨_, exec_planLoad hs hi, ?_⟩
    rw [planLoad_image ho hl l hu, takeImage_good (image := op.image l) hw]
    rw [toCheck_host]
    refine ⟨toCheck_state .., toCheck_hostOp .., rfl, rfl, rfl, rfl, fun hr hh f hf hc hhi hv => ?_⟩
    exact (toCheck_rd _ _ _ _ (rwl_kept hf hc).1).trans (writeRecords_rd u ws v hr hh hf hc hhi hv)
  case accepted =>
    intro s slot op hs hslot ho hl hp hc
    have hin : InCheck slot op s := ⟨hslot, ho, hl, hp⟩
    refine ⟨_, exec_planCheck hs, ?_⟩
    have hnone : s.failedChecks.find? (fun c => !c.2.2) = none := List.find?_eq_none.mpr fun c hm hf => by
      have hcheck := List.all_eq_true.mp hc c hm
      rw [Bool.and_eq_true] at hcheck
      rw [hcheck.1] at hf
      cases hf
    have hno : s.failedChecks.any (fun c => c.1 == 0x0B) = false := List.any_eq_false.mpr fun c hm h11 => by
      have hcheck := List.all_eq_true.mp hc c hm
      rw [Bool.and_eq_true, bne_iff_ne] at hcheck
      exact hcheck.2 (beq_iff_eq.mp h11)
    rw [hin.planCheck_eq, decideCheck_passed hnone, if_neg (ne_true_of_eq_false hno)]
    have hop := hin.checked_hostOp
    generalize s.checked = u at hop
    obtain ⟨⟨hstate, hstatus⟩, hfree, hword⟩ := accepted_ended (s := u.wr F.LST_PLAN_STAT_STATUS 0) (rd_wr_same ..)
      ((wr_hostOp ..).trans hop) false
    exact ⟨hstate, hstatus, hfree, hword⟩
  case failed =>
    intro s slot op c hs hslot ho hl hp hc
    have hin : InCheck slot op s := ⟨hslot, ho, hl, hp⟩
    have hcode : c.1 % 2 ^ 8 = c.1 := planChecks_code (List.mem_of_mem_filter (List.mem_of_find?_eq_some hc))
    refine ⟨_, exec_planCheck hs, ?_⟩
    rw [hin.planCheck_eq, decideCheck_failed (l := s.failedChecks) hc]
    have hop := hin.checked_hostOp
    generalize s.checked = u at hop
    obtain ⟨hplan, hkept⟩ := undone_planIs u c.1
    rw [hcode] at hplan
    obtain ⟨hstate, hstatus⟩ := hplan.failLoad slot c.1
    obtain ⟨hfree, hword⟩ := failLoad_ended ((hkept slot).trans hop) c.1
    exact ⟨hstate, hstatus, hfree, hword⟩
  case degraded =>
    intro s slot op hs hslot ho hl hp hc h11
    have hin : InCheck slot op s := ⟨hslot, ho, hl, hp⟩
    have hnone : s.failedChecks.find? (fun c => !c.2.2) = none := List.find?_eq_none.mpr fun c hm hf => by
      rw [show c.2.2 = true from List.all_eq_true.mp hc c hm] at hf
      cases hf
    refine ⟨_, exec_planCheck hs, ?_⟩
    rw [hin.planCheck_eq, decideCheck_passed hnone, if_pos (show s.failedChecks.any _ = true from h11)]
    have hop := hin.checked_hostOp
    generalize s.checked = u at hop
    obtain ⟨hstate, hstatus⟩ := (setPlan_planIs u planDegraded 0x0B).endOp slot opDone 0x0B
    obtain ⟨hfree, hword⟩ := endOp_ended ((setPlan_hostOp u planDegraded 0x0B slot).trans hop) opDone 0x0B
    exact ⟨hstate, hstatus, hfree, hword⟩
  case byCommand =>
    intro s slot op hs hi ho hp
    refine ⟨_, exec_planAcceptDegraded hs hi, ?_⟩
    rw [planAcceptDegraded_eq ho hp]
    obtain ⟨⟨hstate, hstatus⟩, hfree, hword⟩ :=
      accepted_ended (s := s.wr F.LST_PLAN_STAT_STATUS 0) (rd_wr_same ..) (hostOp_of_opIn ho) true
    exact ⟨hstate, hstatus, hfree, hword⟩
  case degradedRetires =>
    intro s slot op hs hi ho hp
    refine ⟨_, exec_planRetire hs hi, ?_⟩
    rw [planRetire_degraded ho hp]
    obtain ⟨hstate, hfree, hword⟩ := emptied_ended (hostOp_of_opIn ho)
    exact ⟨hstate, hfree, hword⟩
  case retiring =>
    intro s slot op hs hi ho hp
    refine ⟨_, exec_planRetire hs hi, ?_⟩
    rw [planRetire_accepted ho hp]
    have hop := (setPlan_hostOp s planRetiring (s.rd F.LST_PLAN_STAT_STATUS) slot).trans (hostOp_of_opIn ho)
    have hstate := (setPlan_planIs s planRetiring (s.rd F.LST_PLAN_STAT_STATUS)).state
    generalize s.setPlan planRetiring _ = u at hop hstate
    have hforced := forceIdle_foot u
    split
    · exact ⟨(hforced.rd F.LST_PLAN_STAT_STATE _ _ (by decide)).trans hstate,
        (congrArg (fun h : HostState => h.ops.get [slot]) (hforced.part .host (by decide))).trans hop⟩
    · exact ⟨hstate, hop⟩
  case retired =>
    intro s slot op hs hp hidle hslot ho
    refine ⟨_, exec_planRetired hs, ?_⟩
    rw [planRetired_eq hp hidle hslot]
    obtain ⟨hstate, hfree, hword⟩ := emptied_ended ho
    exact ⟨hstate, hfree, hword⟩

end Sys2Proof.Machine
end

section
/-!
SUPPORT. The state that refutes O53: a frame of 2^32 bytes has been charged to a shaper in the present store cycle, and the
count that its refill is said to leave is lower than any that TOKENS can hold (R280, R284).
-/

namespace Sys2Proof.Machine

/-! TOKENS is a signed count of 40 bits (R280). -/

theorem le_toSigned (w v : Nat) : -((2 ^ (w - 1) : Nat) : Int) ≤ toSigned w v := by
  have htwice : 2 ^ w ≤ 2 * 2 ^ (w - 1) := by
    rw [← Nat.pow_succ']
    exact Nat.pow_le_pow_right Nat.two_pos (by omega)
  unfold toSigned
  generalize 2 ^ (w - 1) = half at htwice ⊢
  dsimp only
  split
  case isTrue => exact (Int.neg_nonpos_of_nonneg (Int.natCast_nonneg half)).trans (Int.natCast_nonneg _)
  case isFalse hge =>
    generalize v % 2 ^ w = u at hge ⊢
    generalize 2 ^ w = whole at htwice ⊢
    omega

theorem le_tokens (s : State) (k : Bucket) (p v : Nat) : -2 ^ 39 ≤ s.tokens k p v := le_toSigned 40 _

/-! A charge beyond it. -/

/-- The shaper of port 0's virtual channel 1, enabled and else as after reset, has charged a frame of 2^32 bytes: 2^40 token
units. -/
def overCharged : State := (State.reset.wr F.SHP_SHAPE_CFG_ENABLE 1 0 1).shaperCharge 0 1 (2 ^ 32)

theorem overCharged_active : overCharged.active = true := by decide +kernel

/-- Nothing waits for the bucket, and it is not reset in this store cycle: only the charge stands against its refill. -/
theorem overCharged_refills : overCharged.shape.waiting.get [Bucket.shaper.code, 0, 1] = none ∧
    overCharged.marked (.bucket [Bucket.shaper.code, 0, 1]) 2 = false := by
  decide +kernel

/-- The refill's exact count: a full burst of 2^14 bytes less the 2^40 token units that are spent. -/
theorem overCharged_count :
    min (256 * (overCharged.rd Bucket.shaper.burst 0 1 : Int)) (overCharged.tokens .shaper 0 1 + overCharged.spent .shaper 0 1 +
      overCharged.rd Bucket.shaper.rate 0 1) - overCharged.spent .shaper 0 1 = 2 ^ 22 - 2 ^ 40 := by
  decide +kernel

/-- Refutes O53: its clause of the refill (R280) gives TOKENS the refill's exact count, whatever the state says was charged
in the store cycle, while TOKENS holds 40 bits. In `overCharged` the count is 2^22 - 2^40, and no TOKENS is below -2^39. -/
theorem not_roundsAndFrameStarts : ¬ Obligations.RoundsAndFrameStarts := by
  unfold Obligations.RoundsAndFrameStarts
  rintro ⟨-, -, -, -, -, -, -, hrefill, -⟩
  obtain ⟨hwaiting, hreset⟩ := overCharged_refills
  obtain ⟨t, -, htokens⟩ := hrefill overCharged 0 0 1 _ .shaper overCharged_active (by decide) (by decide) (by decide) rfl
    hwaiting hreset
  have hcount : t.tokens .shaper 0 1 = 2 ^ 22 - 2 ^ 40 := htokens.trans overCharged_count
  have hleast := le_tokens t .shaper 0 1
  omega

end Sys2Proof.Machine
end

section
/-!
SUPPORT. A port's link state (R303): what its test, its power and light, and its lanes make of it, when it is not UP, and
what taking it on and off leaves.
-/

namespace Sys2Proof.Machine

variable {s t : State} {p n i j : Nat}

/-! Lanes in HUNT (R301). -/

theorem setLane_lane (s : State) (p k n : Nat) (l : Lane) : (s.setLane p k l).lane p n = if n = k then l else s.lane p n := by
  unfold State.setLane State.lane
  dsimp only
  rw [SMap.get_set]
  simp only [List.cons.injEq, and_true, true_and]

/-- Setting LOCK changes a register alone. -/
theorem syncLock_link (s : State) (p : Nat) : (s.syncLock p).link = s.link := wr_link ..

theorem lane_congr (h : t.link = s.link) (p n : Nat) : t.lane p n = s.lane p n := by
  unfold State.lane
  rw [h]

theorem port_congr (h : t.link = s.link) (p : Nat) : t.port p = s.port p := by
  unfold State.port
  rw [h]

/-- A lane that returns to HUNT has the signal it had. -/
theorem huntAll_signal (s : State) (p n : Nat) : ((s.huntAll p).lane p n).signal = (s.lane p n).signal := by
  unfold State.huntAll
  rw [lane_congr (syncLock_link ..)]
  refine each_keeps s (fun t => (t.lane p n).signal) fun t k _ => ?_
  rw [setLane_lane]
  split
  case isTrue h => rw [h]; rfl
  case isFalse => rfl

theorem huntAll_hunts (s : State) (hn : n ∈ lanes4) : ((s.huntAll p).lane p n).state = .hunt := by
  unfold State.huntAll
  rw [lane_congr (syncLock_link ..)]
  refine each_establishes (P := fun t => (t.lane p n).state = .hunt) hn (fun t => ?_) (fun t k ht => ?_) s
  · rw [setLane_lane, if_pos rfl]; rfl
  · rw [setLane_lane]
    split
    · rfl
    · exact ht

theorem huntAll_port (s : State) (p : Nat) : (s.huntAll p).port p = s.port p := by
  unfold State.huntAll
  rw [port_congr (syncLock_link ..)]
  exact each_keeps s (fun t => t.port p) fun _ _ _ => rfl

theorem huntAll_state (s : State) (p : Nat) : (s.huntAll p).rd F.PRT_LINK_STAT_STATE p = s.rd F.PRT_LINK_STAT_STATE p :=
  (rd_wr_other _ _ _ _ _ _ _ _ (by decide)).trans (each_keeps s (fun t => t.rd F.PRT_LINK_STAT_STATE p) fun _ _ _ => rfl)

/-! The link state that a port is given (R303, R312). -/

/-- R303, R312: the link state of port p as its test, what takes it OFF and its lanes say. -/
def State.linkState (s : State) (p : Nat) : Nat :=
  if s.testOn p then linkTest
  else if s.portOff p then linkOff
  else if s.rd F.PRT_LINK_STAT_STATE p = linkUp then linkUp
  else if lanes4.all (fun k => !(s.lane p k).signal) then linkNoSignal
  else if lanes4.any (fun k => (s.lane p k).state != .locked) then linkAligning
  else linkDeskew

theorem syncLink_state (s : State) (p : Nat) : (s.syncLink p).rd F.PRT_LINK_STAT_STATE p = s.linkState p := by
  unfold State.syncLink State.linkState
  simp only [List.all_map, List.any_map, Function.comp_def]
  split
  · exact (huntAll_state ..).trans (rd_wr_same ..)
  split
  · exact (huntAll_state ..).trans (rd_wr_same ..)
  split
  case isTrue hup => exact hup
  split
  · exact rd_wr_same ..
  split
  · exact rd_wr_same ..
  · exact rd_wr_same ..

/-- A new link state is set, with the lanes in HUNT or as they are, or none. -/
theorem syncLink_cases (s : State) (p : Nat) : (∃ v, s.syncLink p = (s.wr F.PRT_LINK_STAT_STATE v p).huntAll p) ∨
    (∃ v, s.syncLink p = s.wr F.PRT_LINK_STAT_STATE v p) ∨ s.syncLink p = s := by
  unfold State.syncLink
  dsimp only
  split
  · exact .inl ⟨_, rfl⟩
  split
  · exact .inl ⟨_, rfl⟩
  split
  · exact .inr (.inr rfl)
  split
  · exact .inr (.inl ⟨_, rfl⟩)
  split
  · exact .inr (.inl ⟨_, rfl⟩)
  · exact .inr (.inl ⟨_, rfl⟩)

theorem syncLink_signal (s : State) (p n : Nat) : ((s.syncLink p).lane p n).signal = (s.lane p n).signal := by
  rcases syncLink_cases s p with ⟨v, h⟩ | ⟨v, h⟩ | h
  · rw [h, huntAll_signal]
    rfl
  · rw [h]
    rfl
  · rw [h]

theorem syncLink_port (s : State) (p : Nat) : (s.syncLink p).port p = s.port p := by
  rcases syncLink_cases s p with ⟨v, h⟩ | ⟨v, h⟩ | h
  · rw [h, huntAll_port]
    rfl
  · rw [h]
    rfl
  · rw [h]

theorem linkState_off (ht : s.testOn p = false) (ho : s.portOff p = true) : s.linkState p = linkOff := by
  unfold State.linkState
  rw [ht, if_neg Bool.false_ne_true, if_pos ho]

/-- A port that nothing takes OFF, all its lanes in HUNT, has no signal or aligns. -/
theorem linkState_hunting (ht : s.testOn p = false) (ho : s.portOff p = false) (hup : s.rd F.PRT_LINK_STAT_STATE p ≠ linkUp)
    (hunt : (s.lane p 0).state = .hunt) : s.linkState p =
      if lanes4.all (fun k => !(s.lane p k).signal) then linkNoSignal else linkAligning := by
  have hany : lanes4.any (fun k => (s.lane p k).state != .locked) = true :=
    List.any_eq_true.mpr ⟨0, by decide, by rw [hunt]; rfl⟩
  unfold State.linkState
  rw [ht, ho, if_neg Bool.false_ne_true, if_neg Bool.false_ne_true, if_neg hup, if_pos hany]

theorem linkState_ne_up (hup : s.rd F.PRT_LINK_STAT_STATE p ≠ linkUp) : s.linkState p ≠ linkUp := by
  unfold State.linkState
  rw [if_neg hup]
  split_ifs <;> decide

/-! A port out of UP (R304). -/

theorem syncLink_ne_up (hup : s.rd F.PRT_LINK_STAT_STATE p ≠ linkUp) : (s.syncLink p).rd F.PRT_LINK_STAT_STATE p ≠ linkUp := by
  rw [syncLink_state]
  exact linkState_ne_up hup

/-- Only a port that is UP can leave UP. -/
theorem portDown_eq_self (hup : s.rd F.PRT_LINK_STAT_STATE p ≠ linkUp) : s.portDown p = s := by
  unfold State.portDown State.portUp
  rw [beq_eq_false_iff_ne.mpr hup]
  rfl

theorem portDown_ne_up (s : State) (p : Nat) : (s.portDown p).rd F.PRT_LINK_STAT_STATE p ≠ linkUp := by
  by_cases hup : s.rd F.PRT_LINK_STAT_STATE p = linkUp
  · unfold State.portDown State.portUp
    rw [beq_iff_eq.mpr hup, if_neg (by decide)]
    dsimp only
    refine syncLink_ne_up ?_
    rw [(syncDiscSum_foot (Sub.refl _) (Foot.refl _ _)).rd _ _ _ (by decide),
      (setOutcome_foot (Sub.refl _) (Foot.refl _ _)).rd _ _ _ (by decide), rd_wr_other _ _ _ _ _ _ _ _ (by decide),
      rd_wr_other _ _ _ _ _ _ _ _ (by decide), rd_wr_same]
    decide
  · rwa [portDown_eq_self hup]

theorem realign_ne_up (s : State) (p : Nat) : (s.realign p).rd F.PRT_LINK_STAT_STATE p ≠ linkUp := by
  refine syncLink_ne_up ?_
  rw [huntAll_state]
  exact portDown_ne_up s p

/-! What a change of the link leaves of other fields. -/

/-- The registers and parts that a port's leaving UP and aligning afresh may change. -/
def realignFoot : Nat := 0x17e000000000001000000000000002c01091d7a640000000000000044a00100b00400000000000

section
variable {f : Fld} (hf : realignFoot.testBit f.reg.ctorIdx = false)
include hf

theorem realign_rd (s : State) (p i j : Nat) : (s.realign p).rd f i j = s.rd f i j :=
  (realign_foot (Sub.refl _) (Foot.refl _ s)).rd f i j hf

theorem portDown_rd (s : State) (p i j : Nat) : (s.portDown p).rd f i j = s.rd f i j :=
  (portDown_foot (Sub.refl _) (Foot.refl _ s)).rd f i j hf

theorem hwFence_rd (s : State) (p i j : Nat) : (s.hwFence p).rd f i j = s.rd f i j :=
  (hwFence_foot (show _ &&& realignFoot = _ by decide +kernel) (Foot.refl _ s)).rd f i j hf

theorem huntAll_rd (s : State) (p i j : Nat) : (s.huntAll p).rd f i j = s.rd f i j :=
  (huntAll_foot (show _ &&& realignFoot = _ by decide +kernel) (Foot.refl _ s)).rd f i j hf

theorem syncLink_rd (s : State) (p i j : Nat) : (s.syncLink p).rd f i j = s.rd f i j :=
  (syncLink_foot (show _ &&& realignFoot = _ by decide +kernel) (Foot.refl _ s)).rd f i j hf

/-- A write of ENABLE leaves every other field outside those registers. -/
theorem setEnable_rd (s : State) (p i j : Nat) (en : Bool) (hne : f.key 0 0 ≠ F.PRT_LINK_CFG_ENABLE.key 0 0) :
    (s.setEnable p en).rd f i j = s.rd f i j := by
  unfold State.setEnable
  split
  · rfl
  split
  · rw [realign_rd hf, rd_wr_other _ _ _ _ _ _ _ _ hne]
  · dsimp only
    rw [syncLink_rd hf, hwFence_rd hf, rd_wr_other _ _ _ _ _ _ _ _ hne, portDown_rd hf]

end

/-! ENABLE (R303, R218). -/

theorem testOn_congr (h : ∀ f ∈ [F.PRT_TEST_LOOP, F.PRT_TEST_GEN, F.PRT_TEST_CHK], t.rd f p = s.rd f p) :
    t.testOn p = s.testOn p := by
  unfold State.testOn
  simp only [flag_eq, h F.PRT_TEST_LOOP (by decide), h F.PRT_TEST_GEN (by decide), h F.PRT_TEST_CHK (by decide)]

theorem hwFence_fenced (s : State) (hp : p < 256) : (s.hwFence p).fenced p = true := by
  unfold State.hwFence
  rw [setFences_fenced _ _ hp, beq_self_eq_true, Bool.true_or]

theorem portOff_of_disabled (h : s.rd F.PRT_LINK_CFG_ENABLE p = 0) : s.portOff p = true := by
  unfold State.portOff
  rw [flag_eq, h]
  rfl

theorem setEnable_ne_up (s : State) (p : Nat) (en : Bool) (hup : s.rd F.PRT_LINK_STAT_STATE p ≠ linkUp) :
    (s.setEnable p en).rd F.PRT_LINK_STAT_STATE p ≠ linkUp := by
  unfold State.setEnable
  split
  · exact hup
  split
  · exact realign_ne_up _ p
  · refine syncLink_ne_up ?_
    rw [(hwFence_foot (Sub.refl _) (Foot.refl _ _)).rd _ _ _ (by decide), rd_wr_other _ _ _ _ _ _ _ _ (by decide)]
    exact portDown_ne_up s p

/-- R303, R218: ENABLE 0 takes an enabled port with no test OFF, fenced. -/
theorem setEnable_off (hp : p < 256) (he : s.flag F.PRT_LINK_CFG_ENABLE p = true) (ht : s.testOn p = false) :
    (s.setEnable p false).rd F.PRT_LINK_CFG_ENABLE p = 0 ∧ (s.setEnable p false).rd F.PRT_LINK_STAT_STATE p = linkOff ∧
      (s.setEnable p false).fenced p = true := by
  have heq : s.setEnable p false = (((s.portDown p).wr F.PRT_LINK_CFG_ENABLE 0 p).hwFence p).syncLink p := by
    unfold State.setEnable
    rw [he]
    rfl
  have hfenced := hwFence_fenced ((s.portDown p).wr F.PRT_LINK_CFG_ENABLE 0 p) hp
  have henable : (((s.portDown p).wr F.PRT_LINK_CFG_ENABLE 0 p).hwFence p).rd F.PRT_LINK_CFG_ENABLE p = 0 := by
    rw [hwFence_rd (by decide), rd_wr_same]
    rfl
  have htest : (((s.portDown p).wr F.PRT_LINK_CFG_ENABLE 0 p).hwFence p).testOn p = false := by
    rw [← ht]
    refine testOn_congr fun f hf => ?_
    have hreg : f.reg = .PRT_TEST := by
      revert f
      decide
    rw [hwFence_rd (by rw [hreg]; decide), rd_wr_key _ _ _ _ _ _ _ _ (key_ne_of_other rfl (.inl (by rw [hreg]; decide))),
      portDown_rd (by rw [hreg]; decide)]
  rw [heq]
  generalize ((s.portDown p).wr F.PRT_LINK_CFG_ENABLE 0 p).hwFence p = u at hfenced henable htest
  refine ⟨(syncLink_rd (by decide) ..).trans henable, ?_, ?_⟩
  · rw [syncLink_state, linkState_off htest (portOff_of_disabled henable)]
  · unfold State.fenced at hfenced ⊢
    rwa [(syncLink_foot (Sub.refl _) (Foot.refl _ u)).rd _ _ _ (by decide)]

/-- The fields that say whether a port is OFF or in TEST, PRT_LINK_CFG.ENABLE and its own link state apart. -/
def portFields : List Fld :=
  [F.PWR_DOM_STAT_ON, F.PRT_LSM_STAT_ENABLED, F.PRT_TEST_LOOP, F.PRT_TEST_GEN, F.PRT_TEST_CHK]

theorem portFields_kept : ∀ f ∈ portFields, realignFoot.testBit f.reg.ctorIdx = false := by decide

/-- Port p is OFF, and nothing but its ENABLE would take it so (R303); `dark`: none of its lanes has signal. -/
structure Startable (p : Nat) (dark : Bool) (s : State) : Prop where
  off : s.rd F.PRT_LINK_STAT_STATE p = linkOff
  powered : s.portOn p = true
  lit : s.flag F.PRT_LSM_STAT_ENABLED (engineOfPort p) = true
  unheld : (s.port p).offUntil = none
  untested : s.testOn p = false
  signal : lanes4.all (fun k => !(s.lane p k).signal) = dark

section
variable {dark : Bool}

theorem Startable.ne_up (h : Startable p dark s) : s.rd F.PRT_LINK_STAT_STATE p ≠ linkUp := by
  rw [h.off]
  decide

theorem Startable.portOff (h : Startable p dark s) (he : s.rd F.PRT_LINK_CFG_ENABLE p = 1) : s.portOff p = false := by
  unfold State.portOff
  rw [h.powered, h.lit, h.unheld, flag_eq, he]
  rfl

theorem Startable.congr (h : Startable p dark s) (hoff : t.rd F.PRT_LINK_STAT_STATE p = linkOff)
    (hrd : ∀ f ∈ portFields, ∀ i, t.rd f i = s.rd f i) (hport : t.port p = s.port p)
    (hsignal : ∀ k, (t.lane p k).signal = (s.lane p k).signal) : Startable p dark t where
  off := hoff
  powered := by
    rw [← h.powered]
    unfold State.portOn State.domainOn
    simp only [hrd F.PWR_DOM_STAT_ON (by decide)]
  lit := by rw [flag_eq, hrd _ (by decide), ← flag_eq, h.lit]
  unheld := by rw [hport, h.unheld]
  untested := (testOn_congr fun f hf =>
    hrd f (List.mem_append_right [F.PWR_DOM_STAT_ON, F.PRT_LSM_STAT_ENABLED] hf) p).trans h.untested
  signal := by
    rw [← h.signal]
    simp only [hsignal]

theorem Startable.wr (h : Startable p dark s) {f : Fld} (v : Nat)
    (hne : ∀ g ∈ F.PRT_LINK_STAT_STATE :: portFields, g.key 0 0 ≠ f.key 0 0) : Startable p dark (s.wr f v i j) := by
  have hkept : ∀ g ∈ F.PRT_LINK_STAT_STATE :: portFields, ∀ i', (s.wr f v i j).rd g i' = s.rd g i' :=
    fun g hg _ => rd_wr_other _ _ _ _ _ _ _ _ (hne g hg)
  exact h.congr ((hkept _ List.mem_cons_self p).trans h.off) (fun g hg => hkept g (List.mem_cons_of_mem _ hg)) rfl fun _ => rfl

theorem Startable.huntAll (h : Startable p dark s) : Startable p dark (s.huntAll p) :=
  h.congr ((huntAll_state ..).trans h.off) (fun f hf _ => huntAll_rd (portFields_kept f hf) ..) (huntAll_port ..)
    (huntAll_signal s p)

/-- While ENABLE is 0 the port stays OFF. -/
theorem Startable.realign (h : Startable p dark s) (he : s.rd F.PRT_LINK_CFG_ENABLE p = 0) :
    Startable p dark (s.realign p) := by
  have hdisabled : (s.huntAll p).rd F.PRT_LINK_CFG_ENABLE p = 0 := (huntAll_rd (by decide) ..).trans he
  have hoff : (s.huntAll p).linkState p = linkOff := linkState_off h.huntAll.untested (portOff_of_disabled hdisabled)
  unfold State.realign
  rw [portDown_eq_self h.ne_up]
  exact h.huntAll.congr ((syncLink_state ..).trans hoff) (fun f hf _ => syncLink_rd (portFields_kept f hf) ..)
    (syncLink_port ..) (syncLink_signal _ p)

/-- R303: ENABLE 1 brings the port back, with every lane in HUNT. -/
theorem Startable.setEnable_on (h : Startable p dark s) (he : s.flag F.PRT_LINK_CFG_ENABLE p = false) :
    (s.setEnable p true).rd F.PRT_LINK_CFG_ENABLE p = 1 ∧
    (s.setEnable p true).rd F.PRT_LINK_STAT_STATE p = if dark then linkNoSignal else linkAligning := by
  have hstart : Startable p dark (s.wr F.PRT_LINK_CFG_ENABLE 1 p) := h.wr 1 (by decide)
  have heq : s.setEnable p true = ((s.wr F.PRT_LINK_CFG_ENABLE 1 p).huntAll p).syncLink p := by
    unfold State.setEnable State.realign
    rw [portDown_eq_self hstart.ne_up, he, if_neg Bool.false_ne_true, if_pos rfl]
  have henable : ((s.wr F.PRT_LINK_CFG_ENABLE 1 p).huntAll p).rd F.PRT_LINK_CFG_ENABLE p = 1 := by
    rw [huntAll_rd (by decide), rd_wr_same]
    rfl
  have hunt := hstart.huntAll
  have hlane : (((s.wr F.PRT_LINK_CFG_ENABLE 1 p).huntAll p).lane p 0).state = .hunt := huntAll_hunts _ (by decide)
  rw [heq]
  generalize (s.wr F.PRT_LINK_CFG_ENABLE 1 p).huntAll p = u at henable hunt hlane
  exact ⟨(syncLink_rd (by decide) ..).trans henable, by
    rw [syncLink_state, linkState_hunting hunt.untested (hunt.portOff henable) hunt.ne_up hlane, hunt.signal]⟩

end

/-! RATE (R225, R299). -/

/-- R225, R299: a rate of either mode other than the present one is taken, with its GUARD, and the port restarted. -/
theorem setRate_eq {rate : Nat} (hr : rate = 1 ∨ rate = 2) (hne : s.rd F.PRT_LINK_CFG_RATE p ≠ rate) : s.setRate p rate =
    ((s.wr F.PRT_LINK_CFG_RATE rate p).wr F.SCH_PORT_CFG_GUARD (if rate = 2 then 117 else 59) p).realign p := by
  unfold State.setRate
  rw [if_neg (by omega)]

theorem setRate_cases (s : State) (p rate : Nat) : s.setRate p rate = s ∨ s.setRate p rate =
    ((s.wr F.PRT_LINK_CFG_RATE rate p).wr F.SCH_PORT_CFG_GUARD (if rate = 2 then 117 else 59) p).realign p := by
  unfold State.setRate
  split
  · exact .inl rfl
  · exact .inr rfl

theorem setRate_rd (s : State) (p rate i j : Nat) {f : Fld} (hf : realignFoot.testBit f.reg.ctorIdx = false)
    (hrate : f.key 0 0 ≠ F.PRT_LINK_CFG_RATE.key 0 0) (hguard : f.key 0 0 ≠ F.SCH_PORT_CFG_GUARD.key 0 0) :
    (s.setRate p rate).rd f i j = s.rd f i j := by
  rcases setRate_cases s p rate with h | h
  · rw [h]
  · rw [h, realign_rd hf, rd_wr_other _ _ _ _ _ _ _ _ hguard, rd_wr_other _ _ _ _ _ _ _ _ hrate]

theorem Startable.setRate {dark : Bool} (h : Startable p dark s) (he : s.rd F.PRT_LINK_CFG_ENABLE p = 0) (rate : Nat) :
    Startable p dark (s.setRate p rate) := by
  rcases setRate_cases s p rate with hcase | hcase
  · rwa [hcase]
  · rw [hcase]
    refine ((h.wr rate (by decide)).wr _ (by decide)).realign ?_
    rw [rd_wr_other _ _ _ _ _ _ _ _ (by decide), rd_wr_other _ _ _ _ _ _ _ _ (by decide), he]

/-- R225, R299: what a new rate leaves: the rate, its GUARD, and the port out of UP. -/
theorem setRate_restarts {rate : Nat} (hr : rate = 1 ∨ rate = 2) (hne : s.rd F.PRT_LINK_CFG_RATE p ≠ rate) :
    (s.setRate p rate).rd F.PRT_LINK_CFG_RATE p = rate ∧
    (s.setRate p rate).rd F.SCH_PORT_CFG_GUARD p = (if rate = 2 then 117 else 59) ∧
    (s.setRate p rate).rd F.PRT_LINK_STAT_STATE p ≠ linkUp := by
  rw [setRate_eq hr hne]
  refine ⟨?_, ?_, realign_ne_up _ p⟩
  · rw [realign_rd (by decide), rd_wr_other _ _ _ _ _ _ _ _ (by decide), rd_wr_same]
    rcases hr with rfl | rfl <;> rfl
  · rw [realign_rd (by decide), rd_wr_same]
    split <;> rfl

end Sys2Proof.Machine
end

section
/-!
SUPPORT. O27: the writes of PRT_LINK_CFG and PRT_LSM_CTL by their owners.
-/

namespace Sys2Proof.Machine

variable {s t : State} {p e x w i j : Nat}

/-! A write of PRT_LINK_CFG. -/

/-- The fields of PRT_LINK_CFG other than ENABLE and RATE, in the order in which a write takes them. -/
def linkPlain : List Fld := [F.PRT_LINK_CFG_BENLAS, F.PRT_LINK_CFG_TOTAL_AT, F.PRT_LINK_CFG_CREDIT,
  F.PRT_LINK_CFG_PAUSE_MS, F.PRT_LINK_CFG_UNCORR_LIMIT]

theorem linkPlain_ne_rate : ∀ f ∈ linkPlain, f ≠ F.PRT_LINK_CFG_RATE := by decide

/-- The fields of PRT_LINK_CFG but ENABLE take what is written. -/
def State.linkFields (s : State) (p w : Nat) : State := (s.writeField F.PRT_LINK_CFG_RATE p 0 w).writeFields linkPlain p 0 w

theorem reached_link : (reached .PRT_LINK_CFG 31 0).filter (· != F.PRT_LINK_CFG_ENABLE) = F.PRT_LINK_CFG_RATE :: linkPlain := by
  decide

theorem ownWrite_link (s : State) (p w : Nat) :
    s.ownWrite .PRT_LINK_CFG p 0 w = (s.linkFields p w).setEnable p (w.testBit 31) := by
  unfold State.ownWrite State.writeReg
  dsimp only
  rw [show (Reg.at .PRT_LINK_CFG).bits - 1 = 31 from rfl, reached_link]
  rfl

theorem linkFields_rd (s : State) (p w i j : Nat) {f : Fld} (hf : ∀ g ∈ linkPlain, f.key 0 0 ≠ g.key 0 0) :
    (s.linkFields p w).rd f i j = (s.writeField F.PRT_LINK_CFG_RATE p 0 w).rd f i j :=
  writeFields_rd_other linkPlain_ne_rate fun g hg hk => hf g hg (by
    simp only [Fld.key, List.cons.injEq, and_true] at hk ⊢
    exact ⟨hk.1, hk.2.1⟩)

theorem linkFields_link (s : State) (p w : Nat) : (s.linkFields p w).link = (s.writeField F.PRT_LINK_CFG_RATE p 0 w).link := by
  obtain ⟨m, hm⟩ := writeFields_shape (s := s.writeField F.PRT_LINK_CFG_RATE p 0 w) (i := p) (j := 0) (v := w) linkPlain_ne_rate
  unfold State.linkFields
  rw [hm]

theorem writeRate_eq (s : State) (p w : Nat) : s.writeField F.PRT_LINK_CFG_RATE p 0 w =
    if s.rwlLocked || F.PRT_LINK_CFG_RATE.ignores (bits w 30 29) then s else s.setRate p (bits w 30 29) := rfl

/-- A write of the fields but ENABLE leaves every field of another register, and ENABLE, that a restart of the port does. -/
theorem linkFields_rd_other (s : State) (p w i j : Nat) {f : Fld} (hf : realignFoot.testBit f.reg.ctorIdx = false)
    (hne : ∀ g ∈ F.SCH_PORT_CFG_GUARD :: F.PRT_LINK_CFG_RATE :: linkPlain, f.key 0 0 ≠ g.key 0 0) :
    (s.linkFields p w).rd f i j = s.rd f i j := by
  rw [linkFields_rd _ _ _ _ _ fun g hg => hne g (List.mem_cons_of_mem _ (List.mem_cons_of_mem _ hg)), writeRate_eq]
  split
  · rfl
  · exact setRate_rd _ _ _ _ _ hf (hne _ (by decide)) (hne _ (by decide))

theorem linkFields_enable (s : State) (p w : Nat) :
    (s.linkFields p w).rd F.PRT_LINK_CFG_ENABLE p = s.rd F.PRT_LINK_CFG_ENABLE p :=
  linkFields_rd_other _ _ _ _ _ (by decide) (by decide)

theorem linkFields_testOn (s : State) (p w : Nat) : (s.linkFields p w).testOn p = s.testOn p := by
  have hapart : ∀ f ∈ [F.PRT_TEST_LOOP, F.PRT_TEST_GEN, F.PRT_TEST_CHK], realignFoot.testBit f.reg.ctorIdx = false ∧
      ∀ g ∈ F.SCH_PORT_CFG_GUARD :: F.PRT_LINK_CFG_RATE :: linkPlain, f.key 0 0 ≠ g.key 0 0 := by decide
  exact testOn_congr fun f hf => linkFields_rd_other _ _ _ _ _ (hapart f hf).1 (hapart f hf).2

/-- A locked write leaves the rate. -/
theorem linkFields_locked (p w : Nat) (hl : s.rwlLocked = true) :
    (s.linkFields p w).rd F.PRT_LINK_CFG_RATE p = s.rd F.PRT_LINK_CFG_RATE p := by
  rw [linkFields_rd _ _ _ _ _ (by decide), writeRate_eq, hl]
  rfl

/-- R225, R299: a write that changes the rate, unlocked. -/
theorem linkFields_restarts (hl : s.rwlLocked = false) (hr : bits w 30 29 = 1 ∨ bits w 30 29 = 2)
    (hne : bits w 30 29 ≠ s.rd F.PRT_LINK_CFG_RATE p) : (s.linkFields p w).rd F.PRT_LINK_CFG_RATE p = bits w 30 29 ∧
    (s.linkFields p w).rd F.SCH_PORT_CFG_GUARD p = (if bits w 30 29 = 2 then 117 else 59) ∧
    (s.linkFields p w).rd F.PRT_LINK_STAT_STATE p ≠ linkUp := by
  have htaken : F.PRT_LINK_CFG_RATE.ignores (bits w 30 29) = false := by
    rcases hr with h | h <;> rw [h] <;> rfl
  have heq : s.writeField F.PRT_LINK_CFG_RATE p 0 w = s.setRate p (bits w 30 29) := by
    rw [writeRate_eq, hl, htaken]
    rfl
  rw [linkFields_rd _ _ _ _ _ (by decide), linkFields_rd _ _ _ _ _ (by decide), linkFields_rd _ _ _ _ _ (by decide), heq]
  exact setRate_restarts hr hne.symm

theorem Startable.linkFields {dark : Bool} (h : Startable p dark s) (he : s.rd F.PRT_LINK_CFG_ENABLE p = 0) (w : Nat) :
    Startable p dark (s.linkFields p w) := by
  have hrate : Startable p dark (s.writeField F.PRT_LINK_CFG_RATE p 0 w) := by
    rw [writeRate_eq]
    split
    · exact h
    · exact h.setRate he _
  have hapart : ∀ f ∈ F.PRT_LINK_STAT_STATE :: portFields, ∀ g ∈ linkPlain, f.key 0 0 ≠ g.key 0 0 := by decide
  have hlink := linkFields_link s p w
  exact hrate.congr ((linkFields_rd _ _ _ _ _ (hapart _ List.mem_cons_self)).trans hrate.off)
    (fun f hf _ => linkFields_rd _ _ _ _ _ (hapart f (List.mem_cons_of_mem _ hf))) (port_congr hlink p)
    fun k => congrArg Lane.signal (lane_congr hlink p k)

/-- The whole write, past the address map: the word held of an earlier access is gone, and ENABLE is taken last. -/
def State.linkWrite (s : State) (p x : Nat) : State :=
  ((s.setHeld (Reg.owner .PRT_LINK_CFG) none).linkFields p (x % 2 ^ 32)).setEnable p (x.testBit 31)

/-- R303, R218: ENABLE 0 takes an enabled port with no test OFF, fenced. -/
theorem linkWrite_off (hp : p < 256) (he : s.flag F.PRT_LINK_CFG_ENABLE p = true) (hx : x.testBit 31 = false)
    (ht : s.testOn p = false) : (s.linkWrite p x).rd F.PRT_LINK_CFG_ENABLE p = 0 ∧
    (s.linkWrite p x).rd F.PRT_LINK_STAT_STATE p = linkOff ∧ (s.linkWrite p x).fenced p = true := by
  unfold State.linkWrite
  rw [hx]
  refine setEnable_off hp ?_ ((linkFields_testOn ..).trans ht)
  rw [flag_eq, linkFields_enable]
  exact he

/-- R303: ENABLE 1 brings a port back that is OFF for its ENABLE alone. -/
theorem linkWrite_on {dark : Bool} (h : Startable p dark s) (he : s.flag F.PRT_LINK_CFG_ENABLE p = false)
    (hx : x.testBit 31 = true) : (s.linkWrite p x).rd F.PRT_LINK_CFG_ENABLE p = 1 ∧
    (s.linkWrite p x).rd F.PRT_LINK_STAT_STATE p = if dark then linkNoSignal else linkAligning := by
  have hzero : s.rd F.PRT_LINK_CFG_ENABLE p = 0 := by simpa using he
  have hheld : Startable p dark (s.setHeld (Reg.owner .PRT_LINK_CFG) none) :=
    h.congr h.off (fun _ _ _ => rfl) rfl fun _ => rfl
  unfold State.linkWrite
  rw [hx]
  refine (hheld.linkFields hzero _).setEnable_on ?_
  rw [flag_eq, linkFields_enable]
  exact he

/-- R225, R299: an unlocked rate of either mode other than the present one restarts the port, whatever ENABLE is. -/
theorem linkWrite_restarts (hl : s.rwlLocked = false) (hr : bits x 30 29 = 1 ∨ bits x 30 29 = 2)
    (hne : bits x 30 29 ≠ s.rd F.PRT_LINK_CFG_RATE p) : (s.linkWrite p x).rd F.PRT_LINK_CFG_RATE p = bits x 30 29 ∧
    (s.linkWrite p x).rd F.SCH_PORT_CFG_GUARD p = (if bits x 30 29 = 2 then 117 else 59) ∧
    (s.linkWrite p x).rd F.PRT_LINK_STAT_STATE p ≠ linkUp := by
  have hbits : bits (x % 2 ^ 32) 30 29 = bits x 30 29 := bits_mod_two_pow (by decide)
  rw [← hbits] at hr hne ⊢
  obtain ⟨hrate, hguard, hup⟩ := linkFields_restarts (s := s.setHeld (Reg.owner .PRT_LINK_CFG) none) hl hr hne
  exact ⟨(setEnable_rd (by decide) _ _ _ _ _ (by decide)).trans hrate,
    (setEnable_rd (by decide) _ _ _ _ _ (by decide)).trans hguard, setEnable_ne_up _ p _ hup⟩

theorem linkWrite_locked (p x : Nat) (hl : s.rwlLocked = true) :
    (s.linkWrite p x).rd F.PRT_LINK_CFG_RATE p = s.rd F.PRT_LINK_CFG_RATE p :=
  (setEnable_rd (by decide) _ _ _ _ _ (by decide)).trans
    (linkFields_locked (s := s.setHeld (Reg.owner .PRT_LINK_CFG) none) _ _ hl)

/-- R22: the owner's write, and the access error of a locked one. -/
theorem regWrite_link (hs : s.active = true) (hp : p < 256) : s.regWrite .PRT_LINK_CFG p 0 x =
    if s.lockedDiffers (Reg.fields .PRT_LINK_CFG) p 0 (x % 2 ^ 32) then
      (s.linkWrite p x).accessErr F.GLB_ACCESS_ERR_LOCKED_WR (Reg.owner .PRT_LINK_CFG) (Reg.addr .PRT_LINK_CFG p 0)
    else s.linkWrite p x := by
  have hown : (s.setHeld (Reg.owner .PRT_LINK_CFG) none).ownWrite .PRT_LINK_CFG p 0 (x % 2 ^ 32) = s.linkWrite p x := by
    rw [ownWrite_link, Nat.testBit_mod_two_pow]
    rfl
  rw [regWrite_eq (active_not_safe hs) .PRT_LINK_CFG hp (by decide), reached_all, ← hown]
  rfl

theorem regWrite_link_rd (hs : s.active = true) (hp : p < 256) {f : Fld}
    (hf : f.reg ≠ .GLB_ACCESS_ERR ∧ f.reg ≠ .GLB_ACCESS_ADDR) :
    (s.regWrite .PRT_LINK_CFG p 0 x).rd f i j = (s.linkWrite p x).rd f i j := by
  rw [regWrite_link hs hp]
  split
  · exact accessErr_rd_other rfl hf
  · rfl

theorem regWrite_link_fenced (hs : s.active = true) (hp : p < 256) :
    (s.regWrite .PRT_LINK_CFG p 0 x).fenced p = (s.linkWrite p x).fenced p := by
  unfold State.fenced
  rw [regWrite_link_rd hs hp (by decide)]

/-- R22: a locked write of another rate is an access error. -/
theorem regWrite_link_locked (hs : s.active = true) (hp : p < 256) (hl : s.rwlLocked = true)
    (hne : bits x 30 29 ≠ s.rd F.PRT_LINK_CFG_RATE p) :
    (s.regWrite .PRT_LINK_CFG p 0 x).rd F.GLB_ACCESS_ERR_LOCKED_WR = 1 := by
  have hdiffers : s.lockedDiffers (Reg.fields .PRT_LINK_CFG) p 0 (x % 2 ^ 32) = true := by
    unfold State.lockedDiffers
    rw [hl, Bool.true_and, List.any_eq_true]
    refine ⟨F.PRT_LINK_CFG_RATE, by decide, ?_⟩
    rw [bits_mod_two_pow (by decide), Bool.and_eq_true]
    exact ⟨rfl, bne_iff_ne.mpr hne⟩
  rw [regWrite_link hs hp, if_pos hdiffers]
  exact accessErr_rd_same rfl

theorem exec_portEnableWrite (hs : s.active = true) (hp : p < 256) :
    exec (.portEnableWrite p x) s = .next (s.regWrite .PRT_LINK_CFG p 0 x) :=
  onPowered_eq (f := fun s => s.regWrite .PRT_LINK_CFG p 0 x) (decide_eq_true hp) (active_powered hs)

theorem exec_rateChange (hs : s.active = true) (hp : p < 256) :
    exec (.rateChange p x) s = .next (s.regWrite .PRT_LINK_CFG p 0 x) :=
  onPowered_eq (f := fun s => s.regWrite .PRT_LINK_CFG p 0 x) (decide_eq_true hp) (active_powered hs)

/-! A write of PRT_LSM_CTL. -/

theorem exec_laserEnableWrite (hs : s.active = true) (he : e < 16) : exec (.laserEnableWrite e x) s =
    .next ((s.setHeld (Reg.owner .PRT_LSM_CTL) none).writeLaserEnable e (x.testBit 0)) := by
  refine (onPowered_eq (f := fun s => s.regWrite .PRT_LSM_CTL e 0 x) (decide_eq_true he) (active_powered hs)).trans ?_
  rw [regWrite_own (active_not_safe hs) (by decide) he (by decide)]
  unfold State.ownWrite State.writeReg
  dsimp only
  rw [Nat.testBit_mod_two_pow]
  rfl

theorem setLaser_rd (s : State) (e : Nat) (f : Laser → Laser) (g : Fld) (i j : Nat) :
    (s.setLaser e f).rd g i j = s.rd g i j := rfl

theorem syncLight_rd (s : State) (e i j : Nat) {f : Fld} (hf : realignFoot.testBit f.reg.ctorIdx = false) :
    (s.syncLight e).rd f i j = s.rd f i j := (syncLight_foot (Sub.refl _) (Foot.refl _ s)).rd f i j hf

/-- R295, R385: ENABLE drives an engine whose domain is on and that no block reset holds, and then clears its fault. -/
theorem setLaserEnable_rd (s : State) (e : Nat) (en : Bool) {lit : Bool}
    (hlit : (en && s.domainOn (engineDomain e) && (s.laser e).resetUntil.isNone) = lit) :
    (s.setLaserEnable e en).rd F.PRT_LSM_CTL_ENABLE e = b2n lit ∧
    (s.setLaserEnable e en).rd F.PRT_LSM_STAT_ENABLED e = b2n lit ∧
    (s.setLaserEnable e en).rd F.PRT_LSM_STAT_FAULT e = if lit then 0 else s.rd F.PRT_LSM_STAT_FAULT e := by
  have hother (u : State) {f g : Fld} (v : Nat) (h : f.key 0 0 ≠ g.key 0 0) : (u.wr g v e).rd f e = u.rd f e :=
    rd_wr_other _ _ _ _ _ _ _ _ h
  unfold State.setLaserEnable
  rw [hlit]
  dsimp only
  rw [syncLight_rd _ _ _ _ (by decide), syncLight_rd _ _ _ _ (by decide), syncLight_rd _ _ _ _ (by decide)]
  simp only [setLaser_rd]
  cases lit
  case false =>
    simp only [Bool.false_eq_true, if_false]
    exact ⟨(hother _ _ (by decide)).trans (rd_wr_same ..), rd_wr_same .., (hother _ _ (by decide)).trans (hother _ _ (by decide))⟩
  case true =>
    simp only [if_true]
    exact ⟨(hother _ _ (by decide)).trans ((hother _ _ (by decide)).trans (rd_wr_same ..)),
      (hother _ _ (by decide)).trans (rd_wr_same ..), rd_wr_same ..⟩

/-- R295: ENABLE 1 is taken by an engine that is PRESENT, and ignored by one that is not. -/
theorem writeLaserEnable_present (hp : s.flag F.PRT_LSM_STAT_PRESENT e = true) :
    s.writeLaserEnable e true = s.setLaserEnable e true := by
  unfold State.writeLaserEnable
  rw [hp]
  rfl

theorem writeLaserEnable_absent (hp : s.flag F.PRT_LSM_STAT_PRESENT e = false) : s.writeLaserEnable e true = s := by
  unfold State.writeLaserEnable
  rw [hp]
  rfl

theorem writeLaserEnable_off (s : State) (e : Nat) : s.writeLaserEnable e false = s.setLaserEnable e false := rfl

/-! What the obligation says. -/

/-- Settles O27: ENABLE by `linkWrite_off` and `linkWrite_on`, RATE by `linkWrite_restarts` and, locked, by
`regWrite_link_locked`, a laser engine by `setLaserEnable_rd`. -/
theorem portAndLaserEnables : Obligations.PortAndLaserEnables := by
  unfold Obligations.PortAndLaserEnables
  refine ⟨?disable, ?enable, ?rate, ?lockedRate, ?lit, ?unlit, ?absent⟩
  case disable =>
    intro s p x hs hp henable hx htest
    obtain ⟨hdisabled, hoff, hfenced⟩ := linkWrite_off hp henable hx htest
    exact ⟨_, exec_portEnableWrite hs hp, (regWrite_link_rd hs hp (by decide)).trans hdisabled,
      (regWrite_link_rd hs hp (by decide)).trans hoff, (regWrite_link_fenced hs hp).trans hfenced⟩
  case enable =>
    intro s p x hs hp henable hx hoff hpowered hlit hunheld htest
    have hstart : Startable p (lanes4.all (fun k => !(s.lane p k).signal)) s := ⟨hoff, hpowered, hlit, hunheld, htest, rfl⟩
    obtain ⟨hone, hstate⟩ := linkWrite_on hstart henable hx
    exact ⟨_, exec_portEnableWrite hs hp, (regWrite_link_rd hs hp (by decide)).trans hone,
      (regWrite_link_rd hs hp (by decide)).trans hstate⟩
  case rate =>
    intro s p x hs hp hl hr hne
    obtain ⟨hrate, hguard, hup⟩ := linkWrite_restarts hl hr hne
    refine ⟨_, exec_rateChange hs hp, (regWrite_link_rd hs hp (by decide)).trans hrate,
      (regWrite_link_rd hs hp (by decide)).trans hguard, ?_⟩
    rwa [regWrite_link_rd hs hp (by decide)]
  case lockedRate =>
    intro s p x hs hp hl hne
    exact ⟨_, exec_rateChange hs hp, (regWrite_link_rd hs hp (by decide)).trans (linkWrite_locked p x hl),
      regWrite_link_locked hs hp hl hne⟩
  case lit =>
    intro s e x hs he hx hpresent hdomain hfree
    refine ⟨_, exec_laserEnableWrite hs he, ?_⟩
    rw [hx, writeLaserEnable_present (by exact hpresent)]
    refine setLaserEnable_rd (s.setHeld (Reg.owner .PRT_LSM_CTL) none) e true (lit := true) ?_
    rw [Bool.true_and, Bool.and_eq_true]
    exact ⟨hdomain, Option.isNone_iff_eq_none.mpr hfree⟩
  case unlit =>
    intro s e x hs he hx
    refine ⟨_, exec_laserEnableWrite hs he, ?_⟩
    rw [hx, writeLaserEnable_off]
    exact setLaserEnable_rd (s.setHeld (Reg.owner .PRT_LSM_CTL) none) e false rfl
  case absent =>
    intro s e x hs he hx habsent
    refine ⟨_, exec_laserEnableWrite hs he, ?_⟩
    rw [hx, writeLaserEnable_absent (by exact habsent)]
    rfl

end Sys2Proof.Machine
end

section
/-!
SUPPORT. Token buckets and their waiting configurations (R278, R280, R283): what a write of one leaves, and what the resets of
a store cycle make of it.
-/

namespace Sys2Proof.Machine

variable {s : State} {k k' : Bucket} {f g : Fld} {p v p' v' w x i j : Nat}

/-! Walks over fields. -/

/-- A walk over different fields, of which only the step for `f` changes `f`, makes of it what that step does. -/
theorem each_field_rd {l : List Fld} {g : State → Fld → State} (hl : l.Nodup) (hf : f ∈ l)
    (hother : ∀ t, ∀ x ∈ l, x ≠ f → (g t x).rd f i j = t.rd f i j) (s : State) :
    ∃ t, t.rd f i j = s.rd f i j ∧ (s.each l g).rd f i j = (g t f).rd f i j := by
  obtain ⟨before, after, rfl⟩ := List.append_of_mem hf
  have hne : ∀ x ∈ before ++ after, x ≠ f := by
    rintro x hx rfl
    exact (List.nodup_cons.mp (List.nodup_middle.mp hl)).1 hx
  have hkept {a : List Fld} (ha : ∀ x ∈ a, x ∈ before ++ after) (u : State) : (u.each a g).rd f i j = u.rd f i j := by
    refine each_keeps u (fun t => t.rd f i j) fun t x hx => hother t x ?_ (hne x (ha x hx))
    exact List.perm_middle.mem_iff.mpr (List.mem_cons_of_mem _ (ha x hx))
  refine ⟨s.each before g, hkept (fun _ => List.mem_append_left _) s, ?_⟩
  have hsplit : s.each (before ++ f :: after) g = (g (s.each before g) f).each after g := List.foldl_append ..
  rw [hsplit, hkept fun _ => List.mem_append_right _]

/-! What a sparse map lists. -/

/-- In canonical form a key is listed once. -/
theorem entriesFind_of_mem {V : Type} {l : List (Key × V)} (hs : entriesSorted l = true) {key : Key} {a : V}
    (ha : (key, a) ∈ l) : entriesFind key l = some a := by
  induction l with
  | nil => cases ha
  | cons e l ih =>
    simp only [entriesSorted, Bool.and_eq_true, List.all_eq_true] at hs
    obtain ⟨hhead, hs⟩ := hs
    rcases List.mem_cons.mp ha with rfl | ha
    · exact if_pos rfl
    · refine (if_neg fun he => ?_).trans (ih hs ha)
      have hlt := hhead _ ha
      rw [he, keyLt_irrefl] at hlt
      cases hlt

/-- What a key of such a map reads as, if it is listed at all. -/
theorem SMap.get_of_mem {V : Type} [Inhabited V] [DecidableEq V] {m : SMap V} (hm : m.wf = true) {key : Key} {a : V}
    (ha : (key, a) ∈ m.entries) : m.get key = a := by
  unfold SMap.wf SMap.wfD at hm
  unfold SMap.get SMap.getD
  rw [entriesFind_of_mem (Bool.and_eq_true _ _ ▸ hm).1 ha]
  rfl

/-- A key that reads as another value than an unlisted one is listed. -/
theorem SMap.mem_of_get_some {V : Type} [DecidableEq V] {m : SMap (Option V)} {key : Key} {a : V}
    (h : m.get key = some a) : (key, some a) ∈ m.entries := by
  unfold SMap.get SMap.getD at h
  cases hfind : entriesFind key m.entries with
  | none =>
    rw [hfind] at h
    cases h
  | some b =>
    rw [hfind] at h
    exact entriesFind_mem (hfind.trans (congrArg some h))

/-! The fields of a bucket. -/

/-- The fields of a bucket's configuration, in the order in which they take their written values. -/
def Bucket.config (k : Bucket) : List Fld := [k.burst, k.chg, k.mode, k.overhead, k.rate]

/-- All fields of a bucket but its counts. -/
def Bucket.fields (k : Bucket) : List Fld := k.pending :: k.tokens :: k.config

theorem Bucket.config_nodup (k : Bucket) : k.config.Nodup := by cases k <;> decide

theorem Bucket.mem_fields (hf : f ∈ k.config) : f ∈ k.fields := List.mem_cons_of_mem _ (List.mem_cons_of_mem _ hf)

/-- A bucket's field is told by its key, and the bucket too. -/
theorem Bucket.fields_key_inj : ∀ f ∈ k.fields, ∀ g ∈ k'.fields, f.key 0 0 = g.key 0 0 → k = k' ∧ f = g := by
  cases k <;> cases k' <;> decide

/-- Setting a field of one bucket leaves every other field of every bucket. -/
theorem rd_wr_bucket (hf : f ∈ k.fields) (hg : g ∈ k'.fields) (h : f ≠ g ∨ [k.code, p, v] ≠ [k'.code, p', v']) :
    (s.wr g w p' v').rd f p v = s.rd f p v := by
  refine rd_wr_key _ _ _ _ _ _ _ _ fun hkey => ?_
  simp only [Fld.key, List.cons.injEq, and_true] at hkey
  obtain ⟨hreg, hlo, rfl, rfl⟩ := hkey
  obtain ⟨rfl, rfl⟩ := Bucket.fields_key_inj f hf g hg (by rw [Fld.key, Fld.key, hreg, hlo])
  exact h.elim (fun hn => hn rfl) (fun hn => hn rfl)

/-! What waits for a bucket (R283). -/

theorem setWaiting_waiting (s : State) (k : Bucket) (p v : Nat) (c : Option (Nat × Nat)) :
    (s.setWaiting k p v c).shape.waiting = s.shape.waiting.set [k.code, p, v] c := rfl

theorem setWaiting_rd_pending (s : State) (k : Bucket) (p v : Nat) (c : Option (Nat × Nat)) :
    (s.setWaiting k p v c).rd k.pending p v = b2n (c.any (fun c => chgMode c.1 == 0)) := by
  refine (rd_wr_same ..).trans ?_
  cases k <;> cases c.any (fun c => chgMode c.1 == 0) <;> rfl

theorem setWaiting_rd_other (c : Option (Nat × Nat)) (hf : f ∈ k.fields)
    (h : f ≠ k'.pending ∨ [k.code, p, v] ≠ [k'.code, p', v']) : (s.setWaiting k' p' v' c).rd f p v = s.rd f p v :=
  rd_wr_bucket hf List.mem_cons_self h

/-! A write of a configuration (R283, R285). -/

/-- R283, R285: CHG 3, and ACTION 3 of a policer. -/
def Bucket.ignores (k : Bucket) (x : Nat) : Prop := bits x 39 38 = 3 ∨ (k = .policer ∧ bits x 37 36 = 3)

theorem writeBucket_ignored (s : State) (p v : Nat) (h : k.ignores x) : s.writeBucket k p v x = s := if_pos h

theorem writeBucket_taken (s : State) (p v : Nat) (h : ¬k.ignores x) :
    s.writeBucket k p v x = s.setWaiting k p v (some (x, s.store)) := if_neg h

/-- The bits above a register's decide nothing. -/
theorem Bucket.ignores_mod : k.ignores (x % 2 ^ 64) ↔ k.ignores x := by
  unfold Bucket.ignores
  rw [bits_mod_two_pow (by decide), bits_mod_two_pow (by decide)]

/-- R283: the configuration x waits for its moment from s on, and no field but PENDING has changed. -/
structure ConfigWaits (k : Bucket) (p v x : Nat) (s t : State) : Prop where
  pending : t.rd k.pending p v = if bits x 39 38 = 0 then 1 else 0
  kept : ∀ f ∈ k.fields, f ≠ k.pending → t.rd f p v = s.rd f p v
  waiting : t.shape.waiting.get [k.code, p, v] = some (x % 2 ^ 64, s.store)

theorem writeBucket_waits (s : State) (p v : Nat) (h : ¬k.ignores x) :
    ConfigWaits k p v x s (s.writeBucket k p v (x % 2 ^ 64)) := by
  rw [writeBucket_taken s p v (mt Bucket.ignores_mod.mp h)]
  refine ⟨?_, fun f hf hn => setWaiting_rd_other _ hf (.inl hn), ?_⟩
  · rw [setWaiting_rd_pending, Option.any_some, chgMode, bits_mod_two_pow (by decide)]
    cases hc : bits x 39 38 <;> rfl
  · rw [setWaiting_waiting, SMap.get_set_same]

/-! A reset (R283). -/

theorem applyBucket_eq (s : State) (k : Bucket) (p v x : Nat) :
    s.applyBucket k p v x = s.each k.config (fun s f => s.wr f (bits x f.hi f.lo) p v) := rfl

theorem applyBucket_shape (s : State) (k : Bucket) (p v x : Nat) : (s.applyBucket k p v x).shape = s.shape := by
  rw [applyBucket_eq]
  exact each_keeps s State.shape fun _ _ _ => wr_shape ..

theorem applyBucket_rd_config (s : State) (hf : f ∈ k.config) : (s.applyBucket k p v x).rd f p v = bits x f.hi f.lo := by
  obtain ⟨t, -, ht⟩ := each_field_rd (g := fun s f => s.wr f (bits x f.hi f.lo) p v) k.config_nodup hf
    (fun _ _ hg hne => rd_wr_bucket (Bucket.mem_fields hf) (Bucket.mem_fields hg) (.inl hne.symm)) s
  rw [applyBucket_eq, ht, rd_wr_same]
  exact Nat.mod_eq_of_lt (bits_lt ..)

theorem applyBucket_rd_other (s : State) (x : Nat) (hf : f ∈ k.fields) (h : [k.code, p, v] ≠ [k'.code, p', v']) :
    (s.applyBucket k' p' v' x).rd f p v = s.rd f p v := by
  rw [applyBucket_eq]
  exact each_keeps s (fun t => t.rd f p v) fun _ _ hg => rd_wr_bucket hf (Bucket.mem_fields hg) (.inr h)

/-- What a reset sets: the configuration, in place of what waits, and then TOKENS, here to whatever value. -/
theorem resetBucket_sets (s : State) (k : Bucket) (p v x : Nat) : ∃ n, s.resetBucket k p v x =
    (((s.setWaiting k p v none).applyBucket k p v x).mark (.bucket [k.code, p, v])).wr k.tokens n p v := ⟨_, rfl⟩

theorem resetBucket_store (s : State) (k : Bucket) (p v x : Nat) : (s.resetBucket k p v x).store = s.store := by
  unfold State.store
  rw [(resetBucket_keeps (Keeps.refl s) k p v x).now]

theorem resetBucket_waiting (s : State) (k : Bucket) (p v x : Nat) :
    (s.resetBucket k p v x).shape.waiting = s.shape.waiting.set [k.code, p, v] none := by
  obtain ⟨n, h⟩ := resetBucket_sets s k p v x
  rw [h, wr_shape, mark_shape, applyBucket_shape, setWaiting_waiting]

/-- Fields but TOKENS are as the configuration leaves them. -/
theorem resetBucket_rd (s : State) (x : Nat) (hf : f ∈ k.fields) (h : f ≠ k'.tokens ∨ [k.code, p, v] ≠ [k'.code, p', v']) :
    (s.resetBucket k' p' v' x).rd f p v = ((s.setWaiting k' p' v' none).applyBucket k' p' v' x).rd f p v := by
  obtain ⟨n, heq⟩ := resetBucket_sets s k' p' v' x
  rw [heq, rd_wr_bucket hf (List.mem_cons_of_mem _ List.mem_cons_self) h]
  exact rd_congr _ _ _ (mark_regs ..)

theorem Bucket.config_ne_tokens : ∀ f ∈ k.config, f ≠ k.tokens := by cases k <;> decide

theorem resetBucket_rd_config (s : State) (hf : f ∈ k.config) : (s.resetBucket k p v x).rd f p v = bits x f.hi f.lo := by
  rw [resetBucket_rd s x (Bucket.mem_fields hf) (.inl (Bucket.config_ne_tokens f hf)), applyBucket_rd_config _ hf]

theorem resetBucket_rd_other (s : State) (x : Nat) (hf : f ∈ k.fields) (h : [k.code, p, v] ≠ [k'.code, p', v']) :
    (s.resetBucket k' p' v' x).rd f p v = s.rd f p v := by
  rw [resetBucket_rd s x hf (.inr h), applyBucket_rd_other _ x hf h, setWaiting_rd_other none hf (.inr h)]

/-- R283: the bucket has been reset to x: its fields have the values, TOKENS is full or zero, and nothing waits. -/
structure BucketReset (k : Bucket) (p v x : Nat) (s : State) : Prop where
  config : ∀ f ∈ k.config, s.rd f p v = bits x f.hi f.lo
  tokens : s.rd k.tokens p v = if bits x 39 38 = 1 then 256 * bits x 63 40 else 0
  waiting : s.shape.waiting.get [k.code, p, v] = none

/-- A full burst is far below what TOKENS holds. -/
theorem ofSigned_burst (x : Nat) : ofSigned 40 (256 * (bits x 63 40 : Int)) = 256 * bits x 63 40 := by
  have hlt : bits x 63 40 < 2 ^ 24 := bits_lt x 63 40
  unfold ofSigned
  omega

theorem resetBucket_rd_tokens (s : State) (k : Bucket) (p v x : Nat) :
    (s.resetBucket k p v x).rd k.tokens p v = if bits x 39 38 = 1 then 256 * bits x 63 40 else 0 := by
  have hlt : bits x 63 40 < 2 ^ 24 := bits_lt x 63 40
  have hburst : ((s.setWaiting k p v none).applyBucket k p v x).rd k.burst p v = bits x 63 40 := by
    rw [applyBucket_rd_config _ List.mem_cons_self]
    cases k <;> rfl
  have hwidth : k.tokens.width = 40 := by cases k <;> rfl
  unfold State.resetBucket State.setTokens
  dsimp only
  rw [rd_wr_same, rd_congr _ _ _ (mark_regs ..), hburst, hwidth, chgMode]
  split
  · rw [ofSigned_burst]
    omega
  · rfl

theorem resetBucket_resets (s : State) (k : Bucket) (p v x : Nat) : BucketReset k p v x (s.resetBucket k p v x) :=
  ⟨fun _ hf => resetBucket_rd_config s hf, resetBucket_rd_tokens s k p v x, by
    rw [resetBucket_waiting, SMap.get_set_same]⟩

/-- The reset of another bucket leaves it. -/
theorem BucketReset.resetBucket_other (h : BucketReset k p v x s) (hne : [k.code, p, v] ≠ [k'.code, p', v']) (w : Nat) :
    BucketReset k p v x (s.resetBucket k' p' v' w) where
  config f hf := (resetBucket_rd_other s w (Bucket.mem_fields hf) hne).trans (h.config f hf)
  tokens := (resetBucket_rd_other s w (List.mem_cons_of_mem _ List.mem_cons_self) hne).trans h.tokens
  waiting := by rw [resetBucket_waiting, SMap.get_set_ne _ hne, h.waiting]

/-! The resets of a store cycle. -/

/-- One step of the walk of `State.bucketResets`: what waits is a reset that landed in an earlier store cycle, or is left. -/
def State.resetEntry (s : State) (e : Key × Option (Nat × Nat)) : State :=
  match e.1, e.2 with
  | [c, p, v], some (x, since) =>
    if chgMode x = 0 ∨ s.store ≤ since ∨ 1 < c then s else s.resetBucket (if c = 0 then .shaper else .policer) p v x
  | _, _ => s

theorem bucketResets_eq (s : State) : s.bucketResets = s.each s.shape.waiting.entries State.resetEntry := rfl

theorem resetEntry_cases (s : State) (e : Key × Option (Nat × Nat)) :
    s.resetEntry e = s ∨ ∃ k p v x, e.1 = [Bucket.code k, p, v] ∧ s.resetEntry e = s.resetBucket k p v x := by
  obtain ⟨key, c⟩ := e
  unfold State.resetEntry
  split
  next c p v x since hkey _ =>
    split
    · exact .inl rfl
    next hdue =>
      refine .inr ⟨_, p, v, x, ?_, rfl⟩
      rw [hkey]
      split
      next h0 => rw [h0]; rfl
      next h0 => rw [show c = 1 by omega]; rfl
  next => exact .inl rfl

theorem resetEntry_due {since : Nat} (hmode : bits x 39 38 ≠ 0) (hlanded : since < s.store) :
    s.resetEntry ([k.code, p, v], some (x, since)) = s.resetBucket k p v x := by
  have hnot : ¬(chgMode x = 0 ∨ s.store ≤ since ∨ 1 < k.code) := by
    have hcode : k.code ≤ 1 := by cases k <;> decide
    unfold chgMode
    omega
  refine (if_neg hnot).trans ?_
  cases k <;> rfl

theorem resetEntry_store (s : State) (e : Key × Option (Nat × Nat)) : (s.resetEntry e).store = s.store := by
  rcases resetEntry_cases s e with h | ⟨k, p, v, x, -, h⟩
  · rw [h]
  · rw [h, resetBucket_store]

theorem BucketReset.resetEntry_other (h : BucketReset k p v x s) {e : Key × Option (Nat × Nat)}
    (hne : [k.code, p, v] ≠ e.1) : BucketReset k p v x (s.resetEntry e) := by
  rcases resetEntry_cases s e with he | ⟨k', p', v', w, hkey, he⟩
  · rwa [he]
  · rw [he]
    exact h.resetBucket_other (hkey ▸ hne) w

/-- R283: a reset that landed in an earlier store cycle takes effect, whatever else waits. -/
theorem bucketResets_resets {since : Nat} (hwf : s.shape.waiting.wf = true)
    (hwaits : s.shape.waiting.get [k.code, p, v] = some (x, since)) (hmode : bits x 39 38 ≠ 0) (hlanded : since < s.store) :
    BucketReset k p v x s.bucketResets := by
  have hours (t : State) (ht : t.store = s.store) : BucketReset k p v x (t.resetEntry ([k.code, p, v], some (x, since))) := by
    rw [resetEntry_due hmode (ht ▸ hlanded)]
    exact resetBucket_resets t k p v x
  rw [bucketResets_eq]
  refine each_establish (Q := fun t => t.store = s.store) (fun t e ht => (resetEntry_store t e).trans ht)
    (fun t e he ht hreset => ?_) (SMap.mem_of_get_some hwaits) hours rfl
  obtain ⟨key, c⟩ := e
  by_cases hkey : [k.code, p, v] = key
  · subst hkey
    rw [← SMap.get_of_mem hwf he, hwaits]
    exact hours t ht
  · exact hreset.resetEntry_other hkey

end Sys2Proof.Machine
end

section
/-!
SUPPORT. O24: the commands that write a bucket's configuration.
-/

namespace Sys2Proof.Machine

variable {s : State} {p v x : Nat}

theorem exec_shaperCfgWrite (hs : s.active = true) (hp : p < 256) (hv : v < 8) : exec (.shaperCfgWrite p v x) s =
    .next ((s.setHeld (Reg.owner .SHP_SHAPE_CFG) none).writeBucket .shaper p v (x % 2 ^ 64)) := by
  refine (onPowered_eq (f := fun s => s.regWrite .SHP_SHAPE_CFG p v x) (by simp [Instr.wf, hp, hv]) (active_powered hs)).trans ?_
  rw [regWrite_own (active_not_safe hs) (by decide) hp hv]
  rfl

theorem exec_policerCfgWrite (hs : s.active = true) (hp : p < 256) (hv : v < 8) : exec (.policerCfgWrite p v x) s =
    .next ((s.setHeld (Reg.owner .SHP_POL_CFG) none).writeBucket .policer p v (x % 2 ^ 64)) := by
  refine (onPowered_eq (f := fun s => s.regWrite .SHP_POL_CFG p v x) (by simp [Instr.wf, hp, hv]) (active_powered hs)).trans ?_
  rw [regWrite_own (active_not_safe hs) (by decide) hp hv]
  rfl

theorem shaper_ignores : Bucket.shaper.ignores x ↔ bits x 39 38 = 3 := by simp [Bucket.ignores]

theorem policer_ignores : Bucket.policer.ignores x ↔ bits x 39 38 = 3 ∨ bits x 37 36 = 3 := by simp [Bucket.ignores]

/-- Settles O24: a taken write by `writeBucket_waits`, an ignored one by `writeBucket_ignored`, a reset by
`bucketResets_resets`. -/
theorem bucketConfigurationWrites : Obligations.BucketConfigurationWrites := by
  refine ⟨?shaper, ?shaperIgnored, ?shaperReset, ?policer, ?policerIgnored, ?policerReset⟩
  case shaper =>
    intro s p v x hs hp hv hx
    refine ⟨_, exec_shaperCfgWrite hs hp hv, ?_⟩
    obtain ⟨hpending, hkept, hwaiting⟩ := writeBucket_waits (s.setHeld (Reg.owner .SHP_SHAPE_CFG) none) p v
      (mt shaper_ignores.mp hx)
    exact ⟨hpending, hkept F.SHP_SHAPE_CFG_RATE (by decide) (by decide), hkept F.SHP_SHAPE_CFG_BURST (by decide) (by decide),
      hkept F.SHP_SHAPE_STATE_TOKENS (by decide) (by decide), hwaiting⟩
  case shaperIgnored =>
    intro s p v x hs hp hv hx
    refine ⟨_, exec_shaperCfgWrite hs hp hv, ?_⟩
    rw [writeBucket_ignored _ p v (Bucket.ignores_mod.mpr (shaper_ignores.mpr hx))]
    exact ⟨rfl, rfl⟩
  case shaperReset =>
    intro s p v x since hwf hwaits hmode hlanded
    obtain ⟨hconfig, htokens, hwaiting⟩ := bucketResets_resets hwf hwaits (by omega) hlanded
    exact ⟨hconfig F.SHP_SHAPE_CFG_BURST (by decide), hconfig F.SHP_SHAPE_CFG_RATE (by decide),
      hconfig F.SHP_SHAPE_CFG_OVERHEAD (by decide), hwaiting, htokens⟩
  case policer =>
    intro s p v x hs hp hv hx haction
    refine ⟨_, exec_policerCfgWrite hs hp hv, ?_⟩
    obtain ⟨hpending, hkept, hwaiting⟩ := writeBucket_waits (s.setHeld (Reg.owner .SHP_POL_CFG) none) p v
      (mt policer_ignores.mp (not_or.mpr ⟨hx, haction⟩))
    exact ⟨hpending, hkept F.SHP_POL_CFG_RATE (by decide) (by decide), hkept F.SHP_POL_CFG_BURST (by decide) (by decide),
      hkept F.SHP_POL_STATE_TOKENS (by decide) (by decide), hwaiting⟩
  case policerIgnored =>
    intro s p v x hs hp hv hx
    refine ⟨_, exec_policerCfgWrite hs hp hv, ?_⟩
    rw [writeBucket_ignored _ p v (Bucket.ignores_mod.mpr (policer_ignores.mpr hx))]
    exact ⟨rfl, rfl⟩
  case policerReset =>
    intro s p v x since hwf hwaits hmode hlanded
    obtain ⟨hconfig, htokens, hwaiting⟩ := bucketResets_resets hwf hwaits (by omega) hlanded
    exact ⟨hconfig F.SHP_POL_CFG_BURST (by decide), hconfig F.SHP_POL_CFG_RATE (by decide),
      hconfig F.SHP_POL_CFG_OVERHEAD (by decide), hwaiting, htokens⟩

end Sys2Proof.Machine
end

section
/-!
SUPPORT. O25: a write of SHP_MIR_CFG (R290, R291), and of PRT_TIME_NOW (R327).
-/

namespace Sys2Proof.Machine

variable {s : State} {f g : Fld} {m word ns x v n i j i' j' : Nat}

/-! A field whose write takes effect in the next cycle. -/

@[simp] theorem wrNext_rd_same (s : State) (f : Fld) (v i j n : Nat) : (s.wrNext f v i j n).rd f i j = v % 2 ^ f.width :=
  rd_wr_same ..

theorem wrNext_rd_key (s : State) (v n : Nat) (h : f.key i j ≠ g.key i' j') :
    (s.wrNext g v i' j' n).rd f i j = s.rd f i j := rd_wr_key _ _ _ _ _ _ _ _ h

/-! A write of SHP_MIR_CFG. -/

/-- R290: the values that a field of SHP_MIR_CFG does not take. -/
def mirrorIgnores (f : Fld) (v : Nat) : Bool :=
  (f == F.SHP_MIR_CFG_SRC && v == 3) || (f == F.SHP_MIR_CFG_MAX_PENDING && v == 0)

/-- One field of a session takes its written value. -/
def State.mirrorField (s : State) (m word : Nat) (f : Fld) : State :=
  if mirrorIgnores f (bits word f.hi f.lo) then s else s.wrNext f (bits word f.hi f.lo) m

/-- All of them do. -/
def State.mirrorFields (s : State) (m word : Nat) : State :=
  s.each (Reg.fields .SHP_MIR_CFG) (fun s f => s.mirrorField m word f)

theorem mirrorIgnores_src (v : Nat) : mirrorIgnores F.SHP_MIR_CFG_SRC v = true ↔ v = 3 := by
  unfold mirrorIgnores
  simp

theorem mirrorIgnores_maxPending (v : Nat) : mirrorIgnores F.SHP_MIR_CFG_MAX_PENDING v = true ↔ v = 0 := by
  unfold mirrorIgnores
  simp

theorem mirrorField_src (s : State) (m word : Nat) : s.mirrorField m word F.SHP_MIR_CFG_SRC =
    if bits word 62 61 = 3 then s else s.wrNext F.SHP_MIR_CFG_SRC (bits word 62 61) m := by
  unfold State.mirrorField
  simp only [mirrorIgnores_src]

theorem mirrorField_maxPending (s : State) (m word : Nat) : s.mirrorField m word F.SHP_MIR_CFG_MAX_PENDING =
    if bits word 54 44 = 0 then s else s.wrNext F.SHP_MIR_CFG_MAX_PENDING (bits word 54 44) m := by
  unfold State.mirrorField
  simp only [mirrorIgnores_maxPending]

/-- R291: the fields are taken, and a session that was off and is on starts its SEQ. -/
theorem writeMirror_eq (s : State) (m word : Nat) : s.writeMirror m word =
    if !s.flag F.SHP_MIR_CFG_ENABLE m && (s.mirrorFields m word).flag F.SHP_MIR_CFG_ENABLE m then
      { s.mirrorFields m word with
        shape := { (s.mirrorFields m word).shape with mirSeq := (s.mirrorFields m word).shape.mirSeq.set [m] 0 } }
    else s.mirrorFields m word := by
  have hfields : s.mirrorFields m word = ((((((((s.mirrorField m word F.SHP_MIR_CFG_ENABLE).mirrorField m word
      F.SHP_MIR_CFG_SRC).mirrorField m word F.SHP_MIR_CFG_DIR).mirrorField m word F.SHP_MIR_CFG_TRUNC).mirrorField m word
      F.SHP_MIR_CFG_VC).mirrorField m word F.SHP_MIR_CFG_MAX_PENDING).mirrorField m word F.SHP_MIR_CFG_ANALYSIS).mirrorField m word
      F.SHP_MIR_CFG_SELECT) := rfl
  rw [hfields, mirrorField_src, mirrorField_maxPending]
  rfl

theorem mirrorFields_rd (s : State) (m : Nat) (hf : f ∈ Reg.fields .SHP_MIR_CFG) : (s.mirrorFields m word).rd f m =
    if mirrorIgnores f (bits word f.hi f.lo) then s.rd f m else bits word f.hi f.lo := by
  obtain ⟨t, hkept, ht⟩ := each_field_rd (i := m) (j := 0) (g := fun s f => s.mirrorField m word f)
    (List.Nodup.of_map _ (fields_lo_nodup .SHP_MIR_CFG)) hf (fun t g hg hne => by
      unfold State.mirrorField
      split
      · rfl
      · exact wrNext_rd_key t _ _ fun hkey => hne (fields_key_inj hf hg hkey).symm) s
  refine ht.trans ?_
  unfold State.mirrorField
  split
  · exact hkept
  · rw [wrNext_rd_same]
    exact Nat.mod_eq_of_lt (bits_lt ..)

theorem writeMirror_rd (s : State) (m : Nat) (hf : f ∈ Reg.fields .SHP_MIR_CFG) : (s.writeMirror m word).rd f m =
    if mirrorIgnores f (bits word f.hi f.lo) then s.rd f m else bits word f.hi f.lo := by
  rw [← mirrorFields_rd s m hf, writeMirror_eq]
  split <;> rfl

/-- The bits above the register's decide nothing. -/
theorem writeMirror_rd_whole (s : State) (m x : Nat) (hf : f ∈ Reg.fields .SHP_MIR_CFG) :
    (s.writeMirror m (x % 2 ^ 64)).rd f m =
      if mirrorIgnores f (bits x f.hi f.lo) then s.rd f m else bits x f.hi f.lo := by
  have hbits : bits (x % 2 ^ 64) f.hi f.lo = bits x f.hi f.lo := bits_mod_two_pow (fields_within hf).1
  rw [writeMirror_rd s m hf, hbits]

/-- R291: SEQ counts from when the session is enabled. -/
theorem writeMirror_enabled (s : State) (m : Nat) (hon : bits word 63 63 = 1) (hoff : s.rd F.SHP_MIR_CFG_ENABLE m = 0) :
    (s.writeMirror m word).shape.mirSeq.get [m] = 0 := by
  have henable : (s.mirrorFields m word).rd F.SHP_MIR_CFG_ENABLE m = 1 := (mirrorFields_rd s m (by decide)).trans hon
  rw [writeMirror_eq, flag_eq, flag_eq, henable, hoff, if_pos (show (!(0 != 0) && 1 != 0) = true from rfl)]
  exact SMap.get_set_same ..

theorem exec_mirrorCfgWrite (hs : s.active = true) (hm : m < 8) : exec (.mirrorCfgWrite m x) s =
    .next ((s.setHeld (Reg.owner .SHP_MIR_CFG) none).writeMirror m (x % 2 ^ 64)) := by
  refine (onPowered_eq (f := fun s => s.regWrite .SHP_MIR_CFG m 0 x) (decide_eq_true hm) (active_powered hs)).trans ?_
  rw [regWrite_own (active_not_safe hs) (by decide) hm (by decide)]
  rfl

/-! A write of PRT_TIME_NOW. -/

theorem exec_timeNowWrite (hs : s.active = true) : exec (.timeNowWrite ns) s =
    .next ((s.setHeld (Reg.owner .PRT_TIME_NOW) none).writeTime (ns % 2 ^ 64)) := by
  refine (onPowered_eq (f := fun s => s.regWrite .PRT_TIME_NOW 0 0 ns) rfl (active_powered hs)).trans ?_
  rw [regWrite_own (active_not_safe hs) (by decide) (by decide) (by decide)]
  rfl

theorem writeTime_taken (ns : Nat) (hgm : s.flag F.PRT_TIME_CFG_GM = true) (hl : s.locked = false) :
    s.writeTime ns = ({ s with link := { s.link with timeFrac := 0 } }).wr F.PRT_TIME_NOW_NS ns := by
  unfold State.writeTime
  rw [hgm, hl]
  rfl

theorem writeTime_ignored (ns : Nat) (h : s.flag F.PRT_TIME_CFG_GM = false ∨ s.locked = true) : s.writeTime ns = s := by
  unfold State.writeTime
  rcases h with h | h
  · rw [h]
    rfl
  · rw [h, Bool.not_true, Bool.and_false]
    rfl

/-! What the obligation says. -/

/-- Settles O25: a session's fields by `writeMirror_rd`, its SEQ by `writeMirror_enabled`, the time by `writeTime_taken` and
`writeTime_ignored`. -/
theorem mirrorAndTimeWrites : Obligations.MirrorAndTimeWrites := by
  refine ⟨?session, ?grandmaster, ?ignored⟩
  case session =>
    intro s m x hs hm
    refine ⟨_, exec_mirrorCfgWrite hs hm, ?_⟩
    have hrd (f : Fld) (hf : f ∈ Reg.fields .SHP_MIR_CFG) :=
      writeMirror_rd_whole (s.setHeld (Reg.owner .SHP_MIR_CFG) none) m x hf
    refine ⟨hrd F.SHP_MIR_CFG_ENABLE (by decide), ?_, ?_, hrd F.SHP_MIR_CFG_DIR (by decide),
      hrd F.SHP_MIR_CFG_TRUNC (by decide), hrd F.SHP_MIR_CFG_VC (by decide), hrd F.SHP_MIR_CFG_ANALYSIS (by decide),
      hrd F.SHP_MIR_CFG_SELECT (by decide), fun ⟨hon, hoff⟩ => ?_⟩
    · simpa only [mirrorIgnores_src, setHeld_rd] using hrd F.SHP_MIR_CFG_SRC (by decide)
    · simpa only [mirrorIgnores_maxPending, setHeld_rd] using hrd F.SHP_MIR_CFG_MAX_PENDING (by decide)
    · exact writeMirror_enabled _ m ((bits_mod_two_pow (by decide)).trans hon) hoff
  case grandmaster =>
    intro s ns hs hgm hl
    refine ⟨_, exec_timeNowWrite hs, ?_⟩
    rw [writeTime_taken _ (by exact hgm) (by exact hl)]
    exact ⟨(rd_wr_same ..).trans (Nat.mod_mod _ _), rfl⟩
  case ignored =>
    intro s ns hs h
    refine ⟨_, exec_timeNowWrite hs, ?_⟩
    rw [writeTime_ignored _ (by exact h)]
    exact ⟨rfl, rfl⟩

end Sys2Proof.Machine
end

section
/-!
SUPPORT. The data of one port (R302 to R335): what it is after it has changed, and after another part of the state has.
-/

namespace Sys2Proof.Machine

variable (s : State) (p q k : Nat) (f : Port → Port) (l : Lane)

@[simp] theorem setPort_port : (s.setPort p f).port p = f (s.port p) := SMap.get_upd_same _ _ _
@[simp] theorem setPort_rd (g : Fld) (i j : Nat) : (s.setPort p f).rd g i j = s.rd g i j := rfl
@[simp] theorem setPort_lane : (s.setPort p f).lane q k = s.lane q k := rfl
@[simp] theorem wr_port (g : Fld) (v i j : Nat) : (s.wr g v i j).port p = s.port p := rfl
@[simp] theorem inc_port (g : Fld) (v i j : Nat) : (s.inc g v i j).port p = s.port p := rfl
@[simp] theorem emit_port (o : Output) : (s.emit o).port p = s.port p := rfl
@[simp] theorem setLane_port : (s.setLane q k l).port p = s.port p := rfl
@[simp] theorem setLane_rd (g : Fld) (i j : Nat) : (s.setLane p k l).rd g i j = s.rd g i j := rfl

/-- A port's control block is processed: it waits no longer (R309). -/
def State.withoutCtl (s : State) (p : Nat) (c : CtlBlock) : State := s.setPort p (fun pt => { pt with ctl := pt.ctl.erase c })

@[simp] theorem withoutCtl_port (c : CtlBlock) :
    (s.withoutCtl p c).port p = { s.port p with ctl := (s.port p).ctl.erase c } := setPort_port ..

variable {s p}

theorem takeCtl_found {ty : Nat} {c : CtlBlock} (h : (s.port p).ctl.find? (fun c => c.ctype == ty) = some c) :
    s.takeCtl p ty = some (c, s.withoutCtl p c) := by
  unfold State.takeCtl
  rw [h]
  rfl

end Sys2Proof.Machine
end

section
/-!
SUPPORT. Walks that do something once, and numbers made of bits.
-/

namespace Sys2Proof.Machine

/-- What one item of a walk alone changes, and changes alike wherever `Q` holds, is changed once. -/
theorem each_once {α β : Type} {Q : State → Prop} {v : State → β} {F : β → β} {a : α} {l : List α} {g : State → α → State}
    (hn : l.Nodup) (ha : a ∈ l) (hQ : ∀ t b, Q t → Q (g t b)) (hother : ∀ t b, b ≠ a → v (g t b) = v t)
    (hself : ∀ t, Q t → v (g t a) = F (v t)) {s : State} (hs : Q s) : v (s.each l g) = F (v s) := by
  induction l generalizing s with
  | nil => cases ha
  | cons b l ih =>
    obtain ⟨hb, hn⟩ := List.nodup_cons.mp hn
    rw [each_cons]
    rcases List.mem_cons.mp ha with rfl | ha
    · rw [each_keeps _ v fun t c hc => hother t c fun h => hb (h ▸ hc), hself s hs]
    · rw [ih hn ha (hQ s b hs), hother s b fun h => hb (h ▸ ha)]

/-- The number whose bits below n are the truth values of b. -/
def maskOf (b : Nat → Bool) (n : Nat) : Nat := (List.range n).foldl (fun a v => if b v then a + 2 ^ v else a) 0

theorem maskOf_succ (b : Nat → Bool) (n : Nat) : maskOf b (n + 1) = if b n then maskOf b n + 2 ^ n else maskOf b n := by
  unfold maskOf
  rw [List.range_succ, List.foldl_append]
  rfl

theorem maskOf_lt (b : Nat → Bool) (n : Nat) : maskOf b n < 2 ^ n := by
  induction n with
  | zero => exact Nat.one_pos
  | succ n ih =>
    rw [maskOf_succ, Nat.pow_succ]
    split <;> omega

theorem maskOf_testBit (b : Nat → Bool) {k n : Nat} (h : k < n) : (maskOf b n).testBit k = b k := by
  induction n with
  | zero => cases h
  | succ n ih =>
    have hlow := maskOf_lt b n
    rw [maskOf_succ]
    rcases Nat.lt_succ_iff_lt_or_eq.mp h with hk | rfl
    · split
      · rw [Nat.add_comm, Nat.testBit_two_pow_add_gt hk, ih hk]
      · exact ih hk
    · cases hb : b k with
      | true => rw [if_pos rfl, Nat.add_comm, Nat.testBit_two_pow_add_eq, Nat.testBit_lt_two_pow hlow]; rfl
      | false => rw [if_neg Bool.false_ne_true, Nat.testBit_lt_two_pow hlow]

end Sys2Proof.Machine
end

section
/-!
SUPPORT. Blocks and frames that a port receives (R305 to R309, R315, R322, R334).
-/

namespace Sys2Proof.Machine

variable {s t : State} {p q n i j : Nat} {b : RxBlock} {rest : List RxBlock} {f : Frame} {l : List (Byte × Bool)}

/-! Slots (R305). -/

/-- The block of the next slot of port p is taken. -/
def State.takeSlot (s : State) (p : Nat) (rest : List RxBlock) : State :=
  let k := s.physical p ((s.port p).slot % 4)
  (s.setLane p k { s.lane p k with blocks := rest }).setPort p (fun pt => { pt with slot := ((s.port p).slot + 1) % 163840 })

/-- Port p is UP, and b stands in its next slot. -/
structure NextSlot (s : State) (p : Nat) (b : RxBlock) (rest : List RxBlock) : Prop where
  up : s.portUp p = true
  blocks : (s.lane p (s.physical p ((s.port p).slot % 4))).blocks = b :: rest

theorem NextSlot.nextBlock (h : NextSlot s p b rest) : s.nextBlock p = some (b, s.takeSlot p rest) := by
  unfold State.nextBlock
  dsimp only
  rw [h.up, h.blocks]
  rfl

@[simp] theorem takeSlot_port (s : State) (p : Nat) (rest : List RxBlock) :
    (s.takeSlot p rest).port p = { s.port p with slot := ((s.port p).slot + 1) % 163840 } := setPort_port ..

theorem takeSlot_blocks (s : State) (p : Nat) (rest : List RxBlock) :
    ((s.takeSlot p rest).lane p (s.physical p ((s.port p).slot % 4))).blocks = rest := by
  unfold State.takeSlot
  rw [setPort_lane, setLane_lane, if_pos rfl]

/-- R306: the bytes of a data block wait to be framed. -/
theorem NextSlot.data (h : NextSlot s p b rest) (hb : b.header = 1) (hsafe : s.isSafe = false) : s.dataBlock p b =
    ((s.takeSlot p rest).setPort p (fun pt => { pt with rx := pt.rx ++ b.data.map (fun c => (c, b.uncorr)) })).syncFifo p := by
  unfold State.dataBlock
  rw [h.nextBlock]
  dsimp only
  rw [hb, hsafe, bne_self_eq_false]
  rfl

/-- R306: an invalid header counts. -/
theorem NextSlot.invalid (h : NextSlot s p b rest) (hb : b.header = 0 ∨ b.header = 3) :
    s.dataBlock p b = (s.takeSlot p rest).inc F.PRT_RX_ERR_FRAMING 1 p := by
  unfold State.dataBlock
  rw [h.nextBlock]
  dsimp only
  rw [bne_self_eq_false]
  rcases hb with hb | hb <;> rw [hb] <;> rfl

/-- R309: a control block that fails its check counts. -/
theorem NextSlot.badControl (h : NextSlot s p b rest) (hb : b.header = 2) (hbad : b.uncorr = true ∨ ctlOk b.data = false) :
    s.controlBlock p b = (s.takeSlot p rest).inc F.PRT_RX_ERR_CBLOCK 1 p := by
  have hfails : (b.uncorr || !ctlOk b.data) = true := by
    rcases hbad with hbad | hbad <;> rw [hbad]
    · rfl
    · exact Bool.or_true _
  unfold State.controlBlock
  rw [h.nextBlock]
  dsimp only
  rw [hb, bne_self_eq_false b, hfails]
  rfl

/-- R309: one that passes waits to be processed. -/
theorem NextSlot.goodControl (h : NextSlot s p b rest) (hb : b.header = 2) (hcorr : b.uncorr = false)
    (hok : ctlOk b.data = true) (hlow : 1 ≤ (readCtl b.data).ctype) (hhigh : (readCtl b.data).ctype ≤ 3)
    (hsafe : s.isSafe = false) : s.controlBlock p b =
      (s.takeSlot p rest).setPort p (fun pt => { pt with ctl := pt.ctl ++ [readCtl b.data] }) := by
  unfold State.controlBlock
  rw [h.nextBlock]
  dsimp only
  rw [hb, bne_self_eq_false b, hcorr, hok]
  exact if_pos (show 1 ≤ _ ∧ _ ≤ 3 ∧ _ = false from ⟨hlow, hhigh, hsafe⟩)

/-! Frames (R307, R308). -/

@[simp] theorem syncFifo_port (s : State) (p q : Nat) : (s.syncFifo p).port q = s.port q := rfl

/-- R307, R308: a whole frame at the head of the received bytes is counted, and its sequence checked. -/
def State.countFrame (s : State) (p : Nat) (f : Frame) (rest : List (Byte × Bool)) : State :=
  let s := if f.fseq = (s.port p).rxSeq then s else s.inc F.PRT_RX_ERR_GAP 1 p
  let s := s.setPort p (fun pt => { pt with rx := rest, rxSkip := false, rxSeq := (f.fseq + 1) % 2 ^ 32 })
  (s.inc F.PRT_FRAMES_RX 1 p).syncFifo p

/-- R307, R334: a counted frame is dropped in quarantine, waits for its landing, or goes on. -/
def State.keepFrame (s : State) (p : Nat) (f : Frame) (dst : Option Nat) : State :=
  if s.flag F.PRT_DISC_QUAR p then
    let s := s.inc F.PRT_FRAMES_QUAR 1 p
    if f.sched then s else s.returnCredits p f.vc f.item.linkLength
  else if f.sched then
    let l : Landing := { last := s.landingLast f.item, done := s.store, frame := f }
    { s with sched := { s.sched with landing := s.sched.landing.upd [p] (· ++ [l]) } }
  else s.oppReceive p f dst

/-- Port p is UP, and its received bytes begin with what the scan gives. -/
structure Scanned (s : State) (p : Nat) (r : Scan) : Prop where
  up : s.portUp p = true
  aligned : (s.port p).rxSkip = false
  scan : scanFrame (s.port p).rx = r

theorem Scanned.frame {dst : Option Nat} (h : Scanned s p (.frame f l)) :
    s.frameReceive p dst = (s.countFrame p f l).keepFrame p f dst := by
  unfold State.frameReceive
  dsimp only
  rw [h.aligned, if_neg Bool.false_ne_true, h.up, h.scan]
  rfl

/-- R322: the credits of the whole opportunistic frames in these bytes go back. -/
def State.creditsBack (s : State) (p : Nat) (l : List (Bool × Nat × Nat)) : State :=
  s.each l (fun s f => if f.1 then s else s.returnCredits p f.2.1 f.2.2)

/-- R308: the bytes that go with a discarded frame leave the FIFO. -/
def State.passOver (s : State) (p : Nat) (l : List (Byte × Bool)) (skip : Bool) : State :=
  let rest := if skip then resync l else l
  (s.setPort p (fun pt => { pt with rx := rest, rxSkip := skip && rest.isEmpty })).syncFifo p

theorem Scanned.badCheck {dst : Option Nat} {skip : Bool} (h : Scanned s p (.bad .crc l skip)) : s.frameReceive p dst =
    ((s.passOver p l skip).creditsBack p (if skip then [] else rxFrames 1 (s.port p).rx)).inc F.PRT_RX_ERR_CRC 1 p := by
  unfold State.frameReceive
  dsimp only
  rw [h.aligned, if_neg Bool.false_ne_true, h.up, h.scan]
  rfl

/-- The port's received bytes and the sequence it expects are as before. -/
def SameRx (p : Nat) (s t : State) : Prop := (t.port p).rx = (s.port p).rx ∧ (t.port p).rxSeq = (s.port p).rxSeq

theorem SameRx.of_link (h : t.link = s.link) : SameRx p s t := by
  unfold SameRx
  rw [port_congr h]
  exact ⟨rfl, rfl⟩

theorem SameRx.trans {u : State} (h : SameRx p s t) (h' : SameRx p t u) : SameRx p s u := ⟨h'.1.trans h.1, h'.2.trans h.2⟩

/-- Credits that go back change counts alone. -/
theorem returnCredits_sameRx (s : State) (p v n : Nat) : SameRx p s (s.returnCredits p v n) := by
  unfold State.returnCredits SameRx
  split
  · dsimp only
    rw [wr_port, setPort_port]
    exact ⟨rfl, rfl⟩
  · exact ⟨rfl, rfl⟩

theorem returnCredits_sched (s : State) (p v n : Nat) : (s.returnCredits p v n).sched = s.sched :=
  (returnCredits_foot (Sub.refl _) (Foot.refl _ s)).part .sched (by decide)

theorem returnCredits_bpm (s : State) (p v n : Nat) : (s.returnCredits p v n).bpm = s.bpm :=
  (returnCredits_foot (Sub.refl _) (Foot.refl _ s)).part .bpm (by decide)

theorem returnCredits_out (s : State) (p v n : Nat) : (s.returnCredits p v n).out = s.out := by
  unfold State.returnCredits
  split <;> rfl

theorem returnCredits_rd (s : State) (p v n i j : Nat) {g : Fld} (hg : g.reg ≠ .PRT_CREDIT) :
    (s.returnCredits p v n).rd g i j = s.rd g i j := by
  unfold State.returnCredits
  split
  · exact rd_wr_key _ _ _ _ _ _ _ _ (key_ne_of_other rfl (.inl hg))
  · rfl

theorem fifoAdd_sameRx (s : State) (p v n : Nat) : SameRx p s (s.fifoAdd p v n) := by
  unfold State.fifoAdd SameRx
  rw [syncFifo_port, setPort_port]
  exact ⟨rfl, rfl⟩

/-- R315: what becomes of an opportunistic frame takes nothing from the bytes received after it. -/
theorem oppReceive_sameRx (s : State) (p : Nat) (f : Frame) (dst : Option Nat) : SameRx p s (s.oppReceive p f dst) := by
  have hpolice : (s.police p f.vc f.item.linkLength).2.link = s.link :=
    (police_foot (Sub.refl _) (Foot.refl _ s)).part .link (by decide)
  refine SameRx.trans (.of_link hpolice) ?_
  unfold State.oppReceive
  dsimp only
  generalize s.police p f.vc f.item.linkLength = r
  split
  · exact returnCredits_sameRx ..
  split
  · exact returnCredits_sameRx (r.2.bpmDrop 16) ..
  · refine (fifoAdd_sameRx r.2 p f.vc f.item.linkLength).trans (.of_link ?_)
    split <;> rfl

theorem keepFrame_sameRx (s : State) (p : Nat) (f : Frame) (dst : Option Nat) : SameRx p s (s.keepFrame p f dst) := by
  unfold State.keepFrame
  split
  · dsimp only
    split
    · exact ⟨rfl, rfl⟩
    · exact returnCredits_sameRx (s.inc F.PRT_FRAMES_QUAR 1 p) ..
  split
  · exact ⟨rfl, rfl⟩
  · exact oppReceive_sameRx ..

/-- What becomes of a counted frame leaves its count, and the sequence errors. -/
theorem keepFrame_rd (s : State) (p : Nat) (f : Frame) (dst : Option Nat) (i j : Nat) {g : Fld}
    (hg : g = F.PRT_FRAMES_RX ∨ g = F.PRT_RX_ERR_GAP) : (s.keepFrame p f dst).rd g i j = s.rd g i j := by
  have hquar : (s.inc F.PRT_FRAMES_QUAR 1 p).rd g i j = s.rd g i j := by
    rcases hg with rfl | rfl <;> exact rd_inc_other _ _ _ _ _ _ _ _ (by decide)
  unfold State.keepFrame
  split
  · dsimp only
    split
    · exact hquar
    · rw [returnCredits_rd _ _ _ _ _ _ (by rcases hg with rfl | rfl <;> decide), hquar]
  split
  · rfl
  · exact (oppReceive_foot (Sub.refl _) (Foot.refl _ s)).rd _ _ _ (by rcases hg with rfl | rfl <;> decide)

theorem countFrame_port (s : State) (p : Nat) (f : Frame) (l : List (Byte × Bool)) : (s.countFrame p f l).port p =
    { s.port p with rx := l, rxSkip := false, rxSeq := (f.fseq + 1) % 2 ^ 32 } := by
  unfold State.countFrame
  dsimp only
  rw [syncFifo_port, inc_port, setPort_port]
  split <;> rfl

/-- The registers and the part that a frame counts in: PRT_RX_ERR, PRT_FC_STAT, PRT_FRAMES and what its port holds. -/
def countFrameFoot : Nat := 0x10000000000000000000000000000000000000000000000000000000000400c00000000000000

theorem countFrame_foot (s : State) (p : Nat) (f : Frame) (l : List (Byte × Bool)) :
    Foot countFrameFoot s (s.countFrame p f l) := by
  unfold State.countFrame
  refine syncFifo_foot rfl (inc_foot (by decide) (setPort_foot rfl (ite_foot (Foot.refl _ s) ?_)))
  exact inc_foot (by decide) (Foot.refl _ s)

theorem countFrame_rx (s : State) (p : Nat) (f : Frame) (l : List (Byte × Bool)) : (s.countFrame p f l).rd F.PRT_FRAMES_RX p =
    min (s.rd F.PRT_FRAMES_RX p + 1) (2 ^ F.PRT_FRAMES_RX.width - 1) := by
  unfold State.countFrame State.syncFifo
  dsimp only
  rw [rd_wr_other _ _ _ _ _ _ _ _ (by decide), rd_inc_same, setPort_rd]
  split
  · rfl
  · rw [rd_inc_other _ _ _ _ _ _ _ _ (by decide)]

theorem countFrame_gap (s : State) (p : Nat) (f : Frame) (l : List (Byte × Bool)) :
    (s.countFrame p f l).rd F.PRT_RX_ERR_GAP p = if f.fseq = (s.port p).rxSeq then s.rd F.PRT_RX_ERR_GAP p
      else min (s.rd F.PRT_RX_ERR_GAP p + 1) (2 ^ F.PRT_RX_ERR_GAP.width - 1) := by
  unfold State.countFrame State.syncFifo
  dsimp only
  rw [rd_wr_other _ _ _ _ _ _ _ _ (by decide), rd_inc_other _ _ _ _ _ _ _ _ (by decide), setPort_rd]
  split
  · rfl
  · rw [rd_inc_same]

theorem countFrame_now (s : State) (p : Nat) (f : Frame) (l : List (Byte × Bool)) : (s.countFrame p f l).now = s.now := by
  unfold State.countFrame
  dsimp only
  split <;> rfl

theorem countFrame_out (s : State) (p : Nat) (f : Frame) (l : List (Byte × Bool)) : (s.countFrame p f l).out = s.out := by
  unfold State.countFrame
  dsimp only
  split <;> rfl

theorem countFrame_rd (s : State) (p : Nat) (f : Frame) (l : List (Byte × Bool)) {g : Fld} {i j : Nat}
    (hgap : g.key 0 0 ≠ F.PRT_RX_ERR_GAP.key 0 0) (hrx : g.key 0 0 ≠ F.PRT_FRAMES_RX.key 0 0)
    (hfifo : g.key 0 0 ≠ F.PRT_FC_STAT_FIFO.key 0 0) : (s.countFrame p f l).rd g i j = s.rd g i j := by
  unfold State.countFrame State.syncFifo
  dsimp only
  rw [rd_wr_other _ _ _ _ _ _ _ _ hfifo, rd_inc_other _ _ _ _ _ _ _ _ hrx, setPort_rd]
  split
  · rfl
  · exact rd_inc_other _ _ _ _ _ _ _ _ hgap

/-- R236: the last that a frame lands for is a matter of its context alone. -/
theorem countFrame_landingLast (s : State) (p : Nat) (f : Frame) (l : List (Byte × Bool)) :
    (s.countFrame p f l).landingLast f.item = s.landingLast f.item := by
  have hrd : ∀ (g : Fld) (i j : Nat), countFrameFoot.testBit g.reg.ctorIdx = false → (s.countFrame p f l).rd g i j = s.rd g i j :=
    fun g i j hg => (countFrame_foot s p f l).rd g i j hg
  unfold State.landingLast State.undeclared State.lastOf State.accepted State.planState State.ctxState
  simp only [hrd F.OPC_DECL_LAST _ _ (by decide), hrd F.LST_PLAN_STAT_STATE _ _ (by decide), hrd F.OPC_STATE_STATE _ _ (by decide)]

/-- R334: a frame in quarantine is dropped. -/
def State.quarantine (s : State) (p : Nat) (f : Frame) : State :=
  if f.sched then s.inc F.PRT_FRAMES_QUAR 1 p else (s.inc F.PRT_FRAMES_QUAR 1 p).returnCredits p f.vc f.item.linkLength

theorem keepFrame_quarantined {dst : Option Nat} (hq : s.flag F.PRT_DISC_QUAR p = true) :
    s.keepFrame p f dst = s.quarantine p f := if_pos hq

theorem quarantine_effect (s : State) (p : Nat) (f : Frame) : (s.quarantine p f).sched = s.sched ∧
    (s.quarantine p f).bpm = s.bpm ∧ (s.quarantine p f).out = s.out ∧ (s.quarantine p f).rd F.PRT_FRAMES_QUAR p =
      min (s.rd F.PRT_FRAMES_QUAR p + 1) (2 ^ F.PRT_FRAMES_QUAR.width - 1) := by
  unfold State.quarantine
  split
  · exact ⟨rfl, rfl, rfl, rd_inc_same ..⟩
  · rw [returnCredits_sched, returnCredits_bpm, returnCredits_out, returnCredits_rd _ _ _ _ _ _ (by decide)]
    exact ⟨rfl, rfl, rfl, rd_inc_same ..⟩

theorem creditsBack_sameRx (s : State) (p : Nat) (l : List (Bool × Nat × Nat)) : SameRx p s (s.creditsBack p l) := by
  have hstep : ∀ (t : State) (f : Bool × Nat × Nat), SameRx p t (if f.1 then t else t.returnCredits p f.2.1 f.2.2) :=
    fun t f => by
      split
      · exact ⟨rfl, rfl⟩
      · exact returnCredits_sameRx ..
  exact ⟨each_keeps s (fun t => (t.port p).rx) fun t f _ => (hstep t f).1,
    each_keeps s (fun t => (t.port p).rxSeq) fun t f _ => (hstep t f).2⟩

theorem creditsBack_sched (s : State) (p : Nat) (l : List (Bool × Nat × Nat)) : (s.creditsBack p l).sched = s.sched :=
  each_keeps s State.sched fun t f _ => by
    split
    · rfl
    · exact returnCredits_sched ..

theorem creditsBack_rd (s : State) (p : Nat) (l : List (Bool × Nat × Nat)) {g : Fld} {i j : Nat} (hg : g.reg ≠ .PRT_CREDIT) :
    (s.creditsBack p l).rd g i j = s.rd g i j :=
  each_keeps s (fun t => t.rd g i j) fun t f _ => by
    split
    · rfl
    · exact returnCredits_rd _ _ _ _ _ _ hg

theorem passOver_port (s : State) (p : Nat) (l : List (Byte × Bool)) (skip : Bool) :
    ((s.passOver p l skip).port p).rx = if skip then resync l else l := by
  unfold State.passOver
  dsimp only
  rw [syncFifo_port, setPort_port]

theorem passOver_rd (s : State) (p : Nat) (l : List (Byte × Bool)) (skip : Bool) {g : Fld} {i j : Nat}
    (hg : g.key 0 0 ≠ F.PRT_FC_STAT_FIFO.key 0 0) : (s.passOver p l skip).rd g i j = s.rd g i j :=
  rd_wr_other _ _ _ _ _ _ _ _ hg

/-! Flow control (R316 to R322). -/

theorem unnumber_link (s : State) (p : Nat) (x : Sending) : (s.unnumber p x).link = s.link := by
  unfold State.unnumber
  split
  · refine each_keeps _ State.link fun t o _ => ?_
    dsimp only
    split
    · rfl
    · split <;> rfl
  · rfl

theorem uncount_link (s : State) (g : Fld) (n i j : Nat) : (s.uncount g n i j).link = s.link := by
  obtain ⟨r, l, h⟩ := uncount_shape s g n i j
  rw [h]

/-- What waits to be processed stands apart from the port's starts. -/
theorem unstart_ctl (s : State) (p : Nat) (x : Sending) : ((s.unstart p x).port p).ctl = (s.port p).ctl := by
  have hlink : (if x.sched then (s.unnumber p x).uncount F.SCH_SENT_FRAMES 1 p else s.unnumber p x).link = s.link := by
    split
    · rw [uncount_link, unnumber_link]
    · exact unnumber_link ..
  unfold State.unstart State.port
  dsimp only
  rw [SMap.get_upd_same, hlink]

/-- R337: a start from the FIFO that is taken back leaves the links' other data as it takes back its own. -/
theorem cancelStart_fifo_link {x : Sending} {e : OppEntry} {vcPtr charge credits : Nat} {lost : Bool}
    (hx : s.sched.sending.get [p] = some x) (ho : x.origin = .fifo e vcPtr charge credits lost) :
    (s.cancelStart p).link = s.link ∨ (s.cancelStart p).link = (s.unstart p x).link := by
  unfold State.cancelStart
  rw [hx]
  dsimp only
  split
  · exact .inl rfl
  · right
    rw [ho]
    dsimp only
    simp only [apply_ite State.link, wr_link, uncount_link, ite_self]
    unfold State.setTokens
    rw [wr_link, mark_link, ite_self]

theorem cancelXoff_ctl (s : State) (p mask : Nat) : ((s.cancelXoff p mask).port p).ctl = (s.port p).ctl := by
  unfold State.cancelXoff
  split
  · rfl
  · next x hx =>
    split
    · next e _ _ _ _ ho =>
      split
      · rcases cancelStart_fifo_link hx ho with h | h
        · rw [port_congr h]
        · rw [port_congr h, unstart_ctl]
      · rfl
    · rfl

/-- R317: the neighbour's XOFF state takes effect. -/
theorem flowBlock_xoff {c : CtlBlock} (hup : s.portUp p = true)
    (hc : (s.port p).ctl.find? (fun c => c.ctype == 1) = some c) (hk : field c.body 0 1 = 0) (hm : s.creditMode p = false) :
    ∃ g : Port → Port, (∀ pt, (g pt).ctl = pt.ctl) ∧ s.flowBlock p = (((s.withoutCtl p c).wr F.PRT_FC_STAT_RX_XOFF
      (field c.body 1 1) p).cancelXoff p (field c.body 1 1)).setPort p g := by
  have hup' : (s.withoutCtl p c).portUp p = true := hup
  have hm' : (s.withoutCtl p c).creditMode p = false := hm
  unfold State.flowBlock
  rw [takeCtl_found hc]
  dsimp only
  rw [hup', hk, hm']
  refine ⟨_, ?_, (if_neg (by decide)).trans (if_pos rfl)⟩
  exact fun _ => rfl

/-- R322: the neighbour's total of the credits of channel v. -/
def creditTotal (c : CtlBlock) (v : Nat) : Nat := field c.body (8 + 2 * v) 2

/-- R322: what the neighbour has returned on channel v since its last totals. -/
def State.credited (s : State) (p : Nat) (c : CtlBlock) (v : Nat) : Nat :=
  (creditTotal c v + 65536 - (s.port p).peerTotals.getD v 0) % 65536

/-- R322: channel v of port p takes what the neighbour has returned on it. -/
def takeCredits (p : Nat) (c : CtlBlock) (t : State) (v : Nat) : State := t.inc F.PRT_CREDIT_TX_AVAIL
  ((((List.range 8).map (creditTotal c)).getD v 0 + 65536 - (t.port p).peerTotals.getD v 0) % 65536) p v

theorem flowBlock_credits {c : CtlBlock} (hup : s.portUp p = true)
    (hc : (s.port p).ctl.find? (fun c => c.ctype == 1) = some c) (hk : field c.body 0 1 = 1) :
    s.flowBlock p = ((s.withoutCtl p c).each (List.range 8) (takeCredits p c)).setPort p
      (fun pt => { pt with peerTotals := (List.range 8).map (creditTotal c) }) := by
  have hup' : (s.withoutCtl p c).portUp p = true := hup
  unfold State.flowBlock
  rw [takeCtl_found hc]
  dsimp only
  rw [hup', hk]
  rfl

theorem getD_map_range {α : Type} (g : Nat → α) (d : α) {k m : Nat} (h : k < m) : ((List.range m).map g).getD k d = g k := by
  rw [List.getD_eq_getElem?_getD, List.getElem?_map, List.getElem?_range h]
  rfl

/-- R322: each channel's credits grow by what the neighbour has returned on it. -/
theorem takeCredits_rd {c : CtlBlock} {v : Nat} (hv : v < 8) :
    ((s.withoutCtl p c).each (List.range 8) (takeCredits p c)).rd F.PRT_CREDIT_TX_AVAIL p v =
    min (s.rd F.PRT_CREDIT_TX_AVAIL p v + s.credited p c v) (2 ^ F.PRT_CREDIT_TX_AVAIL.width - 1) := by
  have hself : ∀ t : State, (t.port p).peerTotals = (s.port p).peerTotals → (takeCredits p c t v).rd F.PRT_CREDIT_TX_AVAIL p v =
      min (t.rd F.PRT_CREDIT_TX_AVAIL p v + s.credited p c v) (2 ^ F.PRT_CREDIT_TX_AVAIL.width - 1) := fun t ht => by
    unfold takeCredits
    rw [rd_inc_same, ht, getD_map_range _ _ hv]
    rfl
  have hother : ∀ (t : State) (b : Nat), b ≠ v → (takeCredits p c t b).rd F.PRT_CREDIT_TX_AVAIL p v =
      t.rd F.PRT_CREDIT_TX_AVAIL p v := fun t b hb => rd_inc_index _ _ _ _ _ _ _ fun h => hb h.2.symm
  have hport : ((s.withoutCtl p c).port p).peerTotals = (s.port p).peerTotals := by rw [withoutCtl_port]
  exact each_once (g := takeCredits p c) (a := v) (Q := fun t => (t.port p).peerTotals = (s.port p).peerTotals) (v := fun t => t.rd F.PRT_CREDIT_TX_AVAIL p v)
    (F := fun n => min (n + s.credited p c v) (2 ^ F.PRT_CREDIT_TX_AVAIL.width - 1)) (s := s.withoutCtl p c)
    List.nodup_range (List.mem_range.mpr hv) (fun _ _ h => h) hother hself hport

/-- R316: channel v of port p exceeds its own threshold. -/
def State.overOwn (s : State) (p v : Nat) : Bool :=
  if 64 * s.rd F.PRT_FC_CFG_XOFF_AT p v ≤ s.fifoOf p v then true
  else if s.fifoOf p v ≤ 64 * s.rd F.PRT_FC_CFG_XON_AT p v then false
  else (s.port p).xoffOwn.getD v false

/-- R316: port p exceeds its total threshold. -/
def State.overTotal (s : State) (p : Nat) : Bool :=
  if 1024 * s.rd F.PRT_LINK_CFG_TOTAL_AT p ≤ s.fifoTotal p then true
  else if s.fifoTotal p ≤ 1024 * s.rd F.PRT_LINK_CFG_TOTAL_AT p / 2 then false
  else (s.port p).xoffTotal

/-- R316, R321: the own XOFF state after it has followed the FIFO. -/
theorem syncXoff_state (s : State) (p : Nat) {v : Nat} (hv : v < 8) : ((s.syncXoff p).rd F.PRT_FC_STAT_TX_XOFF p).testBit v =
    (!s.creditMode p && (s.overTotal p || s.overOwn p v)) := by
  have hmask : maskOf (fun v => s.overTotal p || ((List.range 8).map (s.overOwn p)).getD v false) 8 % 2 ^ 8 =
      maskOf (fun v => s.overTotal p || ((List.range 8).map (s.overOwn p)).getD v false) 8 := Nat.mod_eq_of_lt (maskOf_lt ..)
  have hstate : (s.syncXoff p).rd F.PRT_FC_STAT_TX_XOFF p = (if s.creditMode p then 0 else
      maskOf (fun v => s.overTotal p || ((List.range 8).map (s.overOwn p)).getD v false) 8) % 2 ^ 8 := rd_wr_same ..
  rw [hstate]
  cases s.creditMode p with
  | true => simp
  | false => rw [if_neg Bool.false_ne_true, hmask, maskOf_testBit _ hv, getD_map_range _ _ hv]; rfl

theorem listSet_getD {α : Type} (d : α) (l : List α) (k : Nat) (a e : α) : (listSet d l k a).getD k e = a := by
  induction k generalizing l with
  | zero => cases l <;> rfl
  | succ k ih =>
    cases l with
    | nil => exact ih []
    | cons b l => exact ih l

/-- R318: a channel held for PAUSE_MS counts a stall. -/
theorem fcStall_eq {v since : Nat} (hsince : (s.port p).rxXoffSince.getD v none = some since)
    (hnew : (s.port p).stalled.getD v false = false) (hm : s.creditMode p = false) (hlim : s.rd F.PRT_LINK_CFG_PAUSE_MS p ≠ 0)
    (hdue : since + ms (s.rd F.PRT_LINK_CFG_PAUSE_MS p) ≤ s.now) : s.fcStall p v =
      ((s.setPort p (fun pt => { pt with stalled := listSet false pt.stalled v true })).inc F.PRT_FC_STAT_STALLS 1 p).raise
        (stopPort (dieOfPort p)) 35 p := by
  have hstall : ¬ (s.rd F.PRT_LINK_CFG_PAUSE_MS p = 0 ∨ s.creditMode p = true ∨ (s.port p).stalled.getD v false = true ∨
      s.now < since + ms (s.rd F.PRT_LINK_CFG_PAUSE_MS p)) := by
    rw [hm, hnew]
    simp only [hlim, Bool.false_eq_true, false_or]
    omega
  unfold State.fcStall
  dsimp only
  rw [hsince]
  exact if_neg hstall

/-! What the obligation says. -/

theorem exec_dataBlock (hs : s.active = true) (hp : p < 256) (hb : b.header < 4) :
    exec (.dataBlock p b.header b.data b.uncorr) s = .next (s.dataBlock p b) :=
  onPowered_eq (f := fun s => s.dataBlock p b) (decide_eq_true ⟨hp, hb⟩) (active_powered hs)

theorem exec_controlBlock (hs : s.active = true) (hp : p < 256) (hb : b.header = 2) :
    exec (.controlBlock p b.data b.uncorr) s = .next (s.controlBlock p b) := by
  obtain ⟨h, d, u⟩ := b
  subst hb
  exact onPowered_eq (f := fun s => s.controlBlock p ⟨2, d, u⟩) (decide_eq_true hp) (active_powered hs)

theorem exec_frameReceive {dst : Option Nat} (hs : s.active = true) (hp : p < 256) :
    exec (.frameReceive p dst) s = .next (s.frameReceive p dst) :=
  onActive_eq (f := fun s => s.frameReceive p dst) (decide_eq_true hp) hs

theorem exec_flowBlock (hs : s.active = true) (hp : p < 256) : exec (.flowBlock p) s = .next (s.flowBlock p) :=
  onActive_eq (f := fun s => s.flowBlock p) (decide_eq_true hp) hs

theorem exec_xoffStateChange (hs : s.active = true) (hp : p < 256) : exec (.xoffStateChange p) s = .next (s.syncXoff p) :=
  onActive_eq (f := fun s => s.syncXoff p) (decide_eq_true hp) hs

theorem exec_flowSend (hs : s.active = true) (hp : p < 256) : exec (.flowSend p) s = .next (s.flowSend p) :=
  onActive_eq (f := fun s => s.flowSend p) (decide_eq_true hp) hs

/-- Settles O49: a slot's block by the equations of `NextSlot`, a frame by those of `Scanned`, flow control by
`flowBlock_xoff` to `fcStall_eq`. -/
theorem framesAndFlowControl : Obligations.FramesAndFlowControl := by
  refine ⟨?data, ?invalid, ?frame, ?scheduled, ?quarantined, ?badCheck, ?badControl, ?goodControl, ?xoff, ?credits, ?rises,
    ?falls, ?sendState, ?sendCredits, ?stall⟩
  case data =>
    intro s p b rest hs hp hup hbs hb
    refine ⟨_, exec_dataBlock hs hp (hb ▸ by decide), ?_⟩
    rw [NextSlot.data ⟨hup, hbs⟩ hb (active_not_safe hs), syncFifo_port, setPort_port, takeSlot_port]
    exact ⟨rfl, rfl, takeSlot_blocks s p rest⟩
  case invalid =>
    intro s p b rest hs hp hup hbs hb
    refine ⟨_, exec_dataBlock hs hp (by omega), ?_⟩
    rw [NextSlot.invalid ⟨hup, hbs⟩ hb, inc_port, takeSlot_port]
    exact ⟨rd_inc_same .., rfl⟩
  case frame =>
    intro s p dst f rest hs hp hup hskip hscan
    refine ⟨_, exec_frameReceive hs hp, ?_⟩
    rw [Scanned.frame ⟨hup, hskip, hscan⟩]
    obtain ⟨hrx, hseq⟩ := keepFrame_sameRx (s.countFrame p f rest) p f dst
    rw [hrx, hseq, countFrame_port, keepFrame_rd _ _ _ _ _ _ (.inl rfl), keepFrame_rd _ _ _ _ _ _ (.inr rfl)]
    exact ⟨rfl, rfl, countFrame_rx .., countFrame_gap ..⟩
  case scheduled =>
    intro s p f rest hs hp hup hskip hscan hquar hsched
    refine ⟨_, exec_frameReceive hs hp, ?_⟩
    have hfoot := countFrame_foot s p f rest
    have hquar' : (s.countFrame p f rest).flag F.PRT_DISC_QUAR p = false := by
      rw [flag_eq, hfoot.rd _ _ _ (by decide), ← flag_eq, hquar]
    have hkeep : (s.countFrame p f rest).keepFrame p f none = { s.countFrame p f rest with
        sched := { (s.countFrame p f rest).sched with landing := (s.countFrame p f rest).sched.landing.upd [p] (· ++
          [{ last := (s.countFrame p f rest).landingLast f.item, done := (s.countFrame p f rest).store, frame := f }]) } } :=
      (if_neg (ne_true_of_eq_false hquar')).trans (if_pos hsched)
    have hstore : (s.countFrame p f rest).store = s.store := by
      unfold State.store
      rw [countFrame_now]
    rw [Scanned.frame ⟨hup, hskip, hscan⟩, hkeep]
    dsimp only
    rw [SMap.get_upd_same, countFrame_landingLast, hstore, hfoot.part .sched (by decide), hfoot.part .bpm (by decide)]
    exact ⟨rfl, rfl⟩
  case quarantined =>
    intro s p dst f rest hs hp hup hskip hscan hquar
    refine ⟨_, exec_frameReceive hs hp, ?_⟩
    have hfoot := countFrame_foot s p f rest
    have hquar' : (s.countFrame p f rest).flag F.PRT_DISC_QUAR p = true := by
      rw [flag_eq, hfoot.rd _ _ _ (by decide), ← flag_eq, hquar]
    have hcount : (s.countFrame p f rest).rd F.PRT_FRAMES_QUAR p = s.rd F.PRT_FRAMES_QUAR p := countFrame_rd _ _ _ _ (by decide)
      (by decide) (by decide)
    rw [Scanned.frame ⟨hup, hskip, hscan⟩, keepFrame_quarantined hquar']
    obtain ⟨hsched, hbpm, hout, hrd⟩ := quarantine_effect (s.countFrame p f rest) p f
    rw [hsched, hbpm, hout, hrd, hcount, hfoot.part .sched (by decide), hfoot.part .bpm (by decide), countFrame_out]
    exact ⟨rfl, rfl, rfl, rfl⟩
  case badCheck =>
    intro s p dst rest skip hs hp hup hskip hscan
    refine ⟨_, exec_frameReceive hs hp, ?_⟩
    rw [Scanned.badCheck ⟨hup, hskip, hscan⟩, inc_port, inc_sched, rd_inc_same, (creditsBack_sameRx ..).1, creditsBack_sched,
      creditsBack_rd _ _ _ (by decide), passOver_port, passOver_rd _ _ _ _ (by decide)]
    exact ⟨rfl, rfl, rfl⟩
  case badControl =>
    intro s p b rest hs hp hup hbs hb hbad
    refine ⟨_, exec_controlBlock hs hp hb, ?_⟩
    rw [NextSlot.badControl ⟨hup, hbs⟩ hb hbad, inc_port, takeSlot_port]
    exact ⟨rd_inc_same .., rfl⟩
  case goodControl =>
    intro s p b rest hs hp hup hbs hb hcorr hok hlow hhigh
    refine ⟨_, exec_controlBlock hs hp hb, ?_⟩
    rw [NextSlot.goodControl ⟨hup, hbs⟩ hb hcorr hok hlow hhigh (active_not_safe hs), setPort_port, takeSlot_port]
    exact ⟨rfl, rfl⟩
  case xoff =>
    intro s p c hs hp hup hc hk hm
    refine ⟨_, exec_flowBlock hs hp, ?_⟩
    obtain ⟨g, hg, hflow⟩ := flowBlock_xoff hup hc hk hm
    rw [hflow, setPort_rd, setPort_port, hg, cancelXoff_ctl, wr_port,
      (cancelXoff_foot (Sub.refl _) (Foot.refl _ _)).rd _ _ _ (by decide)]
    exact ⟨rd_wr_same .., congrArg Port.ctl (withoutCtl_port s p c)⟩
  case credits =>
    intro s p c v hs hp hv hup hc hk
    refine ⟨_, exec_flowBlock hs hp, ?_⟩
    rw [flowBlock_credits hup hc hk, setPort_rd, takeCredits_rd hv]
    rfl
  case rises =>
    intro s p v hs hp hv hm hover
    refine ⟨_, exec_xoffStateChange hs hp, ?_⟩
    have hown : s.overOwn p v = true := if_pos hover
    rw [syncXoff_state _ _ hv, hm, hown, Bool.or_true]
    rfl
  case falls =>
    intro s p v hs hp hv htotal hbelow hown hxon
    refine ⟨_, exec_xoffStateChange hs hp, ?_⟩
    have hnotOwn : s.overOwn p v = false := (if_neg (by omega)).trans (if_pos hxon)
    have hnotTotal : s.overTotal p = false := (if_neg (by omega)).trans (if_pos (by omega))
    rw [syncXoff_state _ _ hv, hnotOwn, hnotTotal, Bool.or_false, Bool.and_false]
  case sendState =>
    intro s p hs hp hup hm
    refine ⟨_, exec_flowSend hs hp, ?_⟩
    unfold State.flowSend
    rw [hup, hm, if_neg (by decide : ¬(!true) = true)]
    dsimp only
    rw [emit_port]
    exact ⟨rfl, congrArg Port.xoffSent (setPort_port s p _), congrArg Port.flowSince (setPort_port s p _)⟩
  case sendCredits =>
    intro s p hs hp hup hm
    refine ⟨_, exec_flowSend hs hp, ?_⟩
    unfold State.flowSend
    rw [hup, hm]
    rfl
  case stall =>
    intro s p v since hs hp hv hsince hnew hm hlim hdue
    refine ⟨_, onActive_eq (f := fun s => s.fcStall p v) (by simp [Instr.wf, hp, hv]) hs, ?_⟩
    rw [fcStall_eq hsince hnew hm hlim hdue]
    have hraise := raise_foot (die := stopPort (dieOfPort p)) (src := 35) (detail := p) (Sub.refl _) (Foot.refl _
      ((s.setPort p (fun pt => { pt with stalled := listSet false pt.stalled v true })).inc F.PRT_FC_STAT_STALLS 1 p))
    rw [hraise.rd _ _ _ (by decide), port_congr (hraise.part .link (by decide)), inc_port, setPort_port]
    exact ⟨rd_inc_same .., listSet_getD ..⟩

end Sys2Proof.Machine
end

section
/-!
SUPPORT. Receive lanes (R301): what a comma block, a loss of signal and an uncorrectable codeword make of a lane, and that
LOCK and the link state follow.
-/

namespace Sys2Proof.Machine

variable {s t : State} {p k n i j : Nat} {l : Lane}

theorem mem_lanes4 : k ∈ lanes4 ↔ k < 4 := by
  unfold lanes4
  simp only [List.mem_cons, List.not_mem_nil, or_false]
  omega

theorem setLane_same (s : State) (p k : Nat) (l : Lane) : (s.setLane p k l).lane p k = l := by rw [setLane_lane, if_pos rfl]

@[simp] theorem wr_lane (s : State) (f : Fld) (v i j p k : Nat) : (s.wr f v i j).lane p k = s.lane p k := rfl
@[simp] theorem inc_lane (s : State) (f : Fld) (v i j p k : Nat) : (s.inc f v i j).lane p k = s.lane p k := rfl

/-- R301: a port whose lanes hunt keeps of each what hunting leaves. -/
theorem huntAll_lane (s : State) (p : Nat) (hk : k < 4) : (s.huntAll p).lane p k = (s.lane p k).toHunt := by
  unfold State.huntAll
  rw [lane_congr (syncLock_link ..)]
  exact each_once (g := fun s k => s.setLane p k (s.lane p k).toHunt) (Q := fun _ => True) (v := fun t => t.lane p k)
    (F := Lane.toHunt) (a := k) (by decide) (mem_lanes4.mpr hk) (fun _ _ h => h)
    (fun t b hb => (setLane_lane ..).trans (if_neg hb.symm)) (fun t _ => setLane_same ..) trivial

/-! LOCK (R301). -/

/-- LOCK of port p shows the lanes that are LOCKED. -/
def LockShown (p : Nat) (s : State) : Prop :=
  ∀ k < 4, (s.rd F.PRT_LINK_STAT_LOCK p).testBit k = decide ((s.lane p k).state = .locked)

theorem syncLock_shown (s : State) (p : Nat) : LockShown p (s.syncLock p) := by
  intro k hk
  have hmask : lanes4.foldl (fun a k => if (s.lane p k).state = .locked then a + 2 ^ k else a) 0 =
      maskOf (fun k => decide ((s.lane p k).state = .locked)) 4 := by
    unfold maskOf
    simp only [decide_eq_true_eq]
    rfl
  unfold State.syncLock
  rw [rd_wr_same, wr_lane, hmask, show F.PRT_LINK_STAT_LOCK.width = 4 from rfl, Nat.mod_eq_of_lt (maskOf_lt ..),
    maskOf_testBit _ hk]

theorem LockShown.wr_state (h : LockShown p s) (v : Nat) : LockShown p (s.wr F.PRT_LINK_STAT_STATE v p) := fun k hk => by
  rw [rd_wr_other _ _ _ _ _ _ _ _ (by decide), h k hk, wr_lane]

theorem LockShown.syncLink (h : LockShown p s) : LockShown p (s.syncLink p) := by
  rcases syncLink_cases s p with ⟨v, hv⟩ | ⟨v, hv⟩ | hv <;> rw [hv]
  · exact syncLock_shown (State.each _ _ _) p
  · exact h.wr_state v
  · exact h

/-! A lane that changes. -/

/-- Port p is neither OFF nor under test. -/
structure Carries (p : Nat) (s : State) : Prop where
  on : s.portOff p = false
  untested : s.testOn p = false

/-- R303: what says that a port is OFF. -/
theorem portOff_congr (h : ∀ f ∈ [F.PRT_LINK_CFG_ENABLE, F.PWR_DOM_STAT_ON, F.PRT_LSM_STAT_ENABLED], ∀ i, t.rd f i = s.rd f i)
    (hport : t.port p = s.port p) : t.portOff p = s.portOff p := by
  unfold State.portOff State.portOn State.domainOn
  simp only [flag_eq, h F.PRT_LINK_CFG_ENABLE (by decide), h F.PWR_DOM_STAT_ON (by decide),
    h F.PRT_LSM_STAT_ENABLED (by decide), hport]

theorem Carries.syncLock (h : Carries p s) : Carries p (s.syncLock p) where
  on := (portOff_congr (fun f hf i => rd_wr_other _ _ _ _ _ _ _ _ (by revert f; decide)) rfl).trans h.on
  untested := (testOn_congr fun f hf => rd_wr_other _ _ _ _ _ _ _ _ (by revert f; decide)).trans h.untested

theorem Carries.setLane (h : Carries p s) : Carries p (s.setLane p k l) := ⟨h.on, h.untested⟩

/-- The link state of such a port follows its lanes, and leaves them. -/
theorem Carries.syncLink_lane (h : Carries p s) (n : Nat) : (s.syncLink p).lane p n = s.lane p n := by
  unfold State.syncLink
  rw [h.on, h.untested, if_neg Bool.false_ne_true, if_neg Bool.false_ne_true]
  dsimp only
  split_ifs <;> rfl

/-- A lane that hunts stays as it is, whatever the link state. -/
theorem syncLink_lane_hunting (hk : k < 4) (h : (s.lane p k).toHunt = s.lane p k) :
    (s.syncLink p).lane p k = s.lane p k := by
  rcases syncLink_cases s p with ⟨v, hv⟩ | ⟨v, hv⟩ | hv <;> rw [hv]
  · rw [huntAll_lane _ _ hk, wr_lane, h]
  · rfl

/-- R301, R303: a lane changes; LOCK and the link state follow. -/
def State.putLane (s : State) (p k : Nat) (l : Lane) : State := ((s.setLane p k l).syncLock p).syncLink p

theorem putLane_shown (s : State) (p k : Nat) (l : Lane) : LockShown p (s.putLane p k l) := (syncLock_shown (s.setLane p k l) p).syncLink

theorem putLane_set (s : State) (p k : Nat) (l : Lane) : ((s.setLane p k l).syncLock p).lane p k = l :=
  (lane_congr (syncLock_link ..) ..).trans (setLane_same ..)

theorem Carries.putLane_lane (h : Carries p s) (k : Nat) (l : Lane) : (s.putLane p k l).lane p k = l :=
  (h.setLane.syncLock.syncLink_lane k).trans (putLane_set ..)

theorem putLane_lane_hunting (s : State) (hk : k < 4) (h : l.toHunt = l) : (s.putLane p k l).lane p k = l :=
  (syncLink_lane_hunting hk (by rw [putLane_set, h])).trans (putLane_set ..)

theorem putLane_port (s : State) (p k : Nat) (l : Lane) : (s.putLane p k l).port p = s.port p :=
  (syncLink_port ..).trans rfl

theorem putLane_rd (s : State) (p k : Nat) (l : Lane) {g : Fld} (hg : g.reg ≠ .PRT_LINK_STAT) (i j : Nat) :
    (s.putLane p k l).rd g i j = s.rd g i j := by
  have hother : ∀ (u : State) (f : Fld) (v : Nat), f.reg = .PRT_LINK_STAT → (u.wr f v p).rd g i j = u.rd g i j :=
    fun u f v hf => rd_wr_key _ _ _ _ _ _ _ _ (key_ne_of_other hf (.inl hg))
  have hlock : ∀ u : State, (u.syncLock p).rd g i j = u.rd g i j := fun u => hother u _ _ rfl
  have hhunt : ∀ u : State, (u.huntAll p).rd g i j = u.rd g i j := fun u =>
    (hlock _).trans (each_keeps u (fun t => t.rd g i j) fun _ _ _ => rfl)
  unfold State.putLane
  rcases syncLink_cases ((s.setLane p k l).syncLock p) p with ⟨v, hv⟩ | ⟨v, hv⟩ | hv <;> rw [hv]
  · rw [hhunt, hother _ _ _ rfl, hlock, setLane_rd]
  · rw [hother _ _ _ rfl, hlock, setLane_rd]
  · rw [hlock, setLane_rd]

/-! Comma blocks (R300, R301). -/

/-- A comma block that port p takes: its MODE is the port's. -/
structure GoodComma (s : State) (p v : Nat) (c : Comma) : Prop where
  read : readComma v = some c
  mode : c.mode = s.rd F.PRT_LINK_CFG_RATE p

theorem GoodComma.found {v : Nat} {c : Comma} (h : GoodComma s p v c) :
    ((some v).bind readComma).filter (fun c => c.mode == s.rd F.PRT_LINK_CFG_RATE p) = some c := by
  rw [Option.bind_some, h.read]
  exact if_pos (beq_iff_eq.mpr h.mode)

/-- A receiver at work: its port is not OFF, and not in TEST. -/
structure Receives (s : State) (p : Nat) : Prop where
  on : s.portOff p = false
  state : s.rd F.PRT_LINK_STAT_STATE p ≠ linkTest

theorem Receives.at_work (h : Receives s p) : ¬(s.portOff p || s.rd F.PRT_LINK_STAT_STATE p == linkTest) = true := by
  rw [h.on, beq_eq_false_iff_ne.mpr h.state]
  exact Bool.false_ne_true

/-- R301: a good comma block takes a lane in HUNT to VERIFY. -/
theorem Receives.verifies {v : Nat} {c : Comma} (h : Receives s p) (hc : GoodComma s p v c)
    (hl : (s.lane p k).state = .hunt) : s.commaBlock p k (some v) = s.putLane p k { s.lane p k with
      state := .verify, count := 1, signal := true, lane := c.lane, pcount := c.pcount, arrived := s.now } := by
  unfold State.commaBlock
  refine (if_neg h.at_work).trans ?_
  rw [hc.found, hl]
  rfl

/-- R301: the third good comma block in a row locks it. -/
theorem Receives.locks {v : Nat} {c : Comma} (h : Receives s p) (hc : GoodComma s p v c)
    (hl : (s.lane p k).state = .verify) (hn : 3 ≤ (s.lane p k).count + 1) :
    s.commaBlock p k (some v) = s.putLane p k { s.lane p k with
      state := .locked, count := 3, misses := 0, uncorrRun := 0, lane := c.lane, pcount := c.pcount, arrived := s.now } := by
  unfold State.commaBlock
  refine (if_neg h.at_work).trans ?_
  rw [hc.found, hl]
  dsimp only
  rw [if_pos hn]
  rfl

/-- R301: a bad comma block in VERIFY, or the fourth in a row when LOCKED, returns it to HUNT. -/
theorem Receives.hunts (h : Receives s p)
    (hl : (s.lane p k).state = .verify ∨ ((s.lane p k).state = .locked ∧ 4 ≤ (s.lane p k).misses + 1)) :
    s.commaBlock p k none = s.putLane p k (s.lane p k).toHunt := by
  unfold State.commaBlock
  refine (if_neg h.at_work).trans ?_
  rcases hl with hl | ⟨hl, hn⟩ <;> rw [hl]
  · rfl
  · dsimp only
    rw [if_pos hn]
    rfl

/-! Codewords (R298, R305, R310). -/

theorem takePayload_same (s : State) (p k x : Nat) (u : Bool) : (s.takePayload p k x u).lane p k = { s.lane p k with
    scrambled := (descramble 5140 (s.lane p k).scrambled x).2
    blocks := if s.portUp p then (s.lane p k).blocks ++
      (readBlocks (descramble 5140 (s.lane p k).scrambled x).1).map (fun b => { b with uncorr := u }) else (s.lane p k).blocks } :=
  setLane_same ..

/-- R305: the blocks of a codeword lie in no uncorrectable one. -/
theorem readBlocks_corrected (n : Nat) : (readBlocks n).map (fun b => { b with uncorr := false }) = readBlocks n := by
  unfold readBlocks
  rw [List.map_map]
  rfl

theorem takePayload_rd (s : State) (p k x : Nat) (u : Bool) (g : Fld) (i j : Nat) :
    (s.takePayload p k x u).rd g i j = s.rd g i j := rfl

theorem takePayload_port (s : State) (p k x : Nat) (u : Bool) : (s.takePayload p k x u).port p = s.port p := rfl

/-- R310: a codeword with n symbols corrected counts, with its symbols and in the histogram. -/
def State.countCorrected (s : State) (p l n : Nat) : State :=
  let s := (s.inc F.PRT_FEC_CW_CODEWORDS 1 p l).inc F.PRT_FEC_ERR_SYMBOLS n p l
  let s := if 1 ≤ n ∧ n ≤ 15 then s.inc F.PRT_FEC_HIST_COUNT 1 p (n - 1) else s
  s.setPort p (fun pt => { pt with secSyms := pt.secSyms + n })

theorem codeword_corrected (s : State) (p l n x : Nat) : s.codeword p l (some n) x =
    ((s.takePayload p (s.physical p l) x false).countCorrected p l n).setLane p (s.physical p l)
      { ((s.takePayload p (s.physical p l) x false).countCorrected p l n).lane p (s.physical p l) with uncorrRun := 0 } := by
  unfold State.codeword State.countCorrected
  dsimp only [Option.isNone]

section
variable (s : State) (p l n : Nat)

theorem countCorrected_lane (k : Nat) : (s.countCorrected p l n).lane p k = s.lane p k := by
  unfold State.countCorrected
  dsimp only
  rw [setPort_lane]
  split <;> rfl

theorem countCorrected_secSyms : ((s.countCorrected p l n).port p).secSyms = (s.port p).secSyms + n := by
  unfold State.countCorrected
  dsimp only
  rw [setPort_port]
  split <;> rfl

/-- The histogram is one of three counts. -/
theorem countCorrected_rd {g : Fld} (hg : g.key 0 0 ≠ F.PRT_FEC_HIST_COUNT.key 0 0) (i j : Nat) : (s.countCorrected p l n).rd g i j =
    ((s.inc F.PRT_FEC_CW_CODEWORDS 1 p l).inc F.PRT_FEC_ERR_SYMBOLS n p l).rd g i j := by
  unfold State.countCorrected
  dsimp only
  rw [setPort_rd]
  split
  · exact rd_inc_other _ _ _ _ _ _ _ _ hg
  · rfl

theorem countCorrected_hist (hn : 1 ≤ n) (hn' : n ≤ 15) : (s.countCorrected p l n).rd F.PRT_FEC_HIST_COUNT p (n - 1) =
    min (s.rd F.PRT_FEC_HIST_COUNT p (n - 1) + 1) (2 ^ F.PRT_FEC_HIST_COUNT.width - 1) := by
  unfold State.countCorrected
  dsimp only
  rw [setPort_rd, if_pos ⟨hn, hn'⟩, rd_inc_same, rd_inc_other _ _ _ _ _ _ _ _ (by decide), rd_inc_other _ _ _ _ _ _ _ _ (by decide)]

end

/-- R310: an uncorrectable codeword counts. -/
def State.countLost (s : State) (p l : Nat) : State :=
  ((s.inc F.PRT_FEC_CW_CODEWORDS 1 p l).inc F.PRT_FEC_ERR_UNCORR 1 p l).setPort p (fun pt => { pt with secUncorr := pt.secUncorr + 1 })

theorem countLost_lane (s : State) (p l k : Nat) : (s.countLost p l).lane p k = s.lane p k := rfl

/-- R301, R310: the 32nd uncorrectable codeword in a row loses the lane. -/
theorem codeword_losesLane {x : Nat} {m : Nat} (hk : s.physical p m = k) (hl : (s.lane p k).state = .locked)
    (hrun : 32 ≤ (s.lane p k).uncorrRun + 1) : s.codeword p m none x =
      ((s.takePayload p k x true).countLost p m).putLane p k (((s.takePayload p k x true).countLost p m).lane p k).toHunt := by
  have hlane : ((s.takePayload p k x true).countLost p m).lane p k = (s.takePayload p k x true).lane p k := countLost_lane ..
  have hlost : (((s.takePayload p k x true).countLost p m).lane p k).state = .locked ∧
      32 ≤ (((s.takePayload p k x true).countLost p m).lane p k).uncorrRun + 1 := by
    rw [hlane, takePayload_same]
    exact ⟨hl, hrun⟩
  unfold State.codeword
  rw [hk]
  dsimp only [Option.isNone]
  generalize s.takePayload p k x true = t at hlost ⊢
  exact if_pos hlost

end Sys2Proof.Machine
end

section
/-!
SUPPORT. A port that goes UP, and one that leaves UP (R302 to R304, R322, R333).
-/

namespace Sys2Proof.Machine

variable {s t : State} {p k n i j : Nat} {l : Lane} {g : List Nat}

/-! Outcomes (R333). -/

/-- The registers and parts that a changed outcome has effects on: EVR_STAT, PRT_DISC_SUM, PRT_DISC_GEN, LST_MEMBER,
HST_OP_DETAIL, the recorder and the switch. -/
def outcomeFoot : Nat := 0x48000000000001000000000000000000000000000000000000000040a00000000400000000000

theorem outcome_foot (s : State) (p o : Nat) : (s.rd F.PRT_DISC_OUTCOME p = o ∧ s.setOutcome p o = s) ∨
    Foot outcomeFoot (s.wr F.PRT_DISC_OUTCOME o p) (s.setOutcome p o) := by
  unfold State.setOutcome
  split
  · next h => exact .inl ⟨h, rfl⟩
  · exact .inr (syncPresent_foot rfl (syncDiscSum_foot rfl (trigger_foot rfl (inc_foot (by decide)
      (syncReplace_foot rfl (Foot.refl _ _))))))

theorem setOutcome_rd {f : Fld} (hf : outcomeFoot.testBit f.reg.ctorIdx = false)
    (ho : f.key 0 0 ≠ F.PRT_DISC_OUTCOME.key 0 0) (s : State) (p o i j : Nat) : (s.setOutcome p o).rd f i j = s.rd f i j := by
  rcases outcome_foot s p o with ⟨-, h⟩ | h
  · rw [h]
  · rw [h.rd _ _ _ hf, rd_wr_other _ _ _ _ _ _ _ _ ho]

theorem setOutcome_link (s : State) (p o : Nat) : (s.setOutcome p o).link = s.link :=
  (setOutcome_foot (Sub.refl _) (Foot.refl _ s)).part .link (by decide)

/-! Deskew (R302). -/

/-- A port in DESKEW whose lanes are locked, distinct and within 504 root cycles at one comma set. -/
structure Aligned (s : State) (p : Nat) : Prop where
  state : s.rd F.PRT_LINK_STAT_STATE p = linkDeskew
  locked : ∀ k < 4, (s.lane p k).state = .locked ∧ (s.lane p k).pcount = (s.lane p 0).pcount
  distinct : (lanes4.map (fun k => (s.lane p k).lane)).Nodup
  near : ∀ j < 4, ∀ k < 4, (s.lane p j).arrived ≤ (s.lane p k).arrived + 504

/-- The difference of the latest and the earliest of four lanes. -/
theorem Aligned.spread (h : Aligned s p) : ((lanes4.map (s.lane p)).map (·.arrived)).foldl max 0 -
    ((lanes4.map (s.lane p)).map (·.arrived)).foldl min (s.lane p 0).arrived ≤ 504 := by
  have h0 := h.near 0 (by decide)
  have h1 := h.near 1 (by decide)
  have h2 := h.near 2 (by decide)
  have h3 := h.near 3 (by decide)
  have := h0 1 (by decide); have := h0 2 (by decide); have := h0 3 (by decide)
  have := h1 0 (by decide); have := h1 2 (by decide); have := h1 3 (by decide)
  have := h2 0 (by decide); have := h2 1 (by decide); have := h2 3 (by decide)
  have := h3 0 (by decide); have := h3 1 (by decide); have := h3 2 (by decide)
  unfold lanes4
  simp only [List.map_cons, List.map_nil, List.foldl_cons, List.foldl_nil]
  omega

/-- R302, R322: the port is UP, with its lanes in their order; what it held of its link is gone. -/
def State.showUp (s : State) (p : Nat) : State :=
  let s := s.wr F.PRT_LINK_STAT_STATE linkUp p
  let s := s.wr F.PRT_LINK_STAT_LANE_MAP (lanes4.foldl (fun a k => a + (s.lane p k).lane * 4 ^ k) 0) p
  let s := s.wr F.PRT_LINK_STAT_RATE (s.rd F.PRT_LINK_CFG_RATE p) p
  let s := s.wr F.PRT_LINK_STAT_CREDIT (s.rd F.PRT_LINK_CFG_CREDIT p) p
  s.wr F.PRT_FC_STAT_RX_XOFF 0 p

def State.freshPort (s : State) (p : Nat) : State := s.setPort p (fun pt => { pt with
  deskewFails := 0, upSince := some s.now, txSeq := 0, rxSeq := 0, rx := [], rxSkip := false, slot := 0
  ownCredit := s.rd F.PRT_LINK_CFG_CREDIT p, iseq := 0, identHeld := none
  identity := [], agreedSent := 0, concluded := false, returned := [], peerTotals := [], rxXoffSince := [], stalled := [] })

/-- R322: the port has the credits that the neighbour grants. -/
def State.takeGranted (s : State) (p : Nat) (g : List Nat) : State :=
  s.each (List.range 8) (fun s v => s.wr F.PRT_CREDIT_TX_AVAIL (g.getD v 0) p v)

def State.emptyLanes (s : State) (p : Nat) : State := s.each lanes4 (fun s k => s.setLane p k { s.lane p k with blocks := [] })

/-- R333: a port that is not compared has the outcome that waits for it. -/
def State.awaitOutcome (s : State) (p : Nat) : State := s.setOutcome p (s.waitingOutcome p)

theorem Aligned.deskew_eq (h : Aligned s p) : s.deskew p g =
    ((((((s.showUp p).freshPort p).emptyLanes p).takeGranted p g).grantCredits p).wr F.PRT_DISC_STATE 1 p).awaitOutcome p := by
  have hdistinct : decide ((lanes4.map (s.lane p)).map (·.lane)).Nodup = true := by
    rw [List.map_map]
    exact decide_eq_true h.distinct
  have hlocked : (lanes4.map (s.lane p)).all (fun l => l.state == .locked && l.pcount == (s.lane p 0).pcount) = true := by
    rw [List.all_map, List.all_eq_true]
    intro k hk
    obtain ⟨hl, hc⟩ := h.locked k (mem_lanes4.mp hk)
    rw [Function.comp_apply, hl, hc, beq_self_eq_true, beq_self_eq_true, Bool.and_self]
  unfold State.deskew
  rw [if_neg (not_not_intro h.state)]
  dsimp only
  rw [hdistinct, hlocked, decide_eq_true h.spread]
  exact if_pos rfl

/-! What each part of going UP leaves. -/

theorem freshPort_rd (s : State) (p : Nat) (f : Fld) (i j : Nat) : (s.freshPort p).rd f i j = s.rd f i j := rfl

theorem emptyLanes_rd (s : State) (p : Nat) (f : Fld) (i j : Nat) : (s.emptyLanes p).rd f i j = s.rd f i j :=
  each_keeps s (fun t => t.rd f i j) fun _ _ _ => rfl

theorem emptyLanes_port (s : State) (p : Nat) : (s.emptyLanes p).port p = s.port p :=
  each_keeps s (fun t => t.port p) fun _ _ _ => rfl

theorem takeGranted_port (s : State) (p : Nat) (g : List Nat) : (s.takeGranted p g).port p = s.port p :=
  each_keeps s (fun t => t.port p) fun _ _ _ => rfl

theorem takeGranted_rd {f : Fld} (hf : f.key 0 0 ≠ F.PRT_CREDIT_TX_AVAIL.key 0 0) (s : State) (p : Nat) (g : List Nat) (i j : Nat) :
    (s.takeGranted p g).rd f i j = s.rd f i j :=
  each_keeps s (fun t => t.rd f i j) fun _ _ _ => rd_wr_other _ _ _ _ _ _ _ _ hf

theorem takeGranted_avail (s : State) (p : Nat) (g : List Nat) {v : Nat} (hv : v < 8) :
    (s.takeGranted p g).rd F.PRT_CREDIT_TX_AVAIL p v = g.getD v 0 % 2 ^ F.PRT_CREDIT_TX_AVAIL.width := by
  refine each_once (F := fun _ => g.getD v 0 % 2 ^ F.PRT_CREDIT_TX_AVAIL.width)
    (g := fun s v => s.wr F.PRT_CREDIT_TX_AVAIL (g.getD v 0) p v) (Q := fun _ => True)
    (v := fun t => t.rd F.PRT_CREDIT_TX_AVAIL p v) List.nodup_range (List.mem_range.mpr hv) (fun _ _ h => h)
    (fun t b hb => rd_wr_index _ _ _ _ _ _ _ fun h => hb h.2.symm) (fun t _ => rd_wr_same ..) trivial

theorem grantCredits_rd {f : Fld} (hf : f.key 0 0 ≠ F.PRT_CREDIT_RX_OUT.key 0 0) (s : State) (p i j : Nat) :
    (s.grantCredits p).rd f i j = s.rd f i j := by
  have hwalk : ∀ (l : List Nat) (acc : Nat × State), (l.foldl (fun (acc : Nat × State) v =>
      let g := min (acc.2.rd F.PRT_FC_CFG_XOFF_AT p v) acc.1
      (acc.1 - g, acc.2.wr F.PRT_CREDIT_RX_OUT g p v)) acc).2.rd f i j = acc.2.rd f i j := fun l => by
    induction l with
    | nil => exact fun _ => rfl
    | cons v l ih => exact fun acc => (ih _).trans (rd_wr_other _ _ _ _ _ _ _ _ hf)
  exact hwalk _ _

theorem grantCredits_port (s : State) (p : Nat) : (s.grantCredits p).port p = s.port p :=
  port_congr ((grantCredits_foot (Sub.refl _) (Foot.refl _ s)).part .link (by decide)) p

/-- R302, R322: what a port that went UP shows, but its credits and its discovery. -/
theorem Aligned.deskew_rd {f : Fld} (h : Aligned s p) (g : List Nat) (hf : outcomeFoot.testBit f.reg.ctorIdx = false)
    (hc : f.reg ≠ .PRT_CREDIT) (hd : f.reg ≠ .PRT_DISC) : (s.deskew p g).rd f i j = (s.showUp p).rd f i j := by
  have hdisc : ∀ d : Fld, d.reg = .PRT_DISC → f.key 0 0 ≠ d.key 0 0 := fun _ h => key_ne_of_other h (.inl hd)
  have hcredit : ∀ d : Fld, d.reg = .PRT_CREDIT → f.key 0 0 ≠ d.key 0 0 := fun _ h => key_ne_of_other h (.inl hc)
  rw [h.deskew_eq, State.awaitOutcome, setOutcome_rd hf (hdisc _ rfl), rd_wr_other _ _ _ _ _ _ _ _ (hdisc _ rfl),
    grantCredits_rd (hcredit _ rfl), takeGranted_rd (hcredit _ rfl), emptyLanes_rd, freshPort_rd]

theorem Aligned.deskew_avail (h : Aligned s p) (g : List Nat) {v : Nat} (hv : v < 8) :
    (s.deskew p g).rd F.PRT_CREDIT_TX_AVAIL p v = g.getD v 0 % 2 ^ F.PRT_CREDIT_TX_AVAIL.width := by
  rw [h.deskew_eq, State.awaitOutcome, setOutcome_rd (by decide) (by decide), rd_wr_other _ _ _ _ _ _ _ _ (by decide),
    grantCredits_rd (by decide), takeGranted_avail _ _ _ hv]

theorem Aligned.deskew_disc (h : Aligned s p) (g : List Nat) : (s.deskew p g).rd F.PRT_DISC_STATE p = 1 := by
  rw [h.deskew_eq, State.awaitOutcome, setOutcome_rd (by decide) (by decide), rd_wr_same]
  rfl

theorem Aligned.deskew_port (h : Aligned s p) (g : List Nat) : (s.deskew p g).port p = ((s.showUp p).freshPort p).port p := by
  rw [h.deskew_eq, State.awaitOutcome, port_congr (setOutcome_link ..), wr_port, grantCredits_port, takeGranted_port,
    emptyLanes_port]

section
variable (s : State) (p : Nat)

theorem showUp_up : (s.showUp p).rd F.PRT_LINK_STAT_STATE p = linkUp := by
  unfold State.showUp
  dsimp only
  rw [rd_wr_other _ _ _ _ _ _ _ _ (by decide), rd_wr_other _ _ _ _ _ _ _ _ (by decide), rd_wr_other _ _ _ _ _ _ _ _ (by decide),
    rd_wr_other _ _ _ _ _ _ _ _ (by decide), rd_wr_same]
  rfl

theorem showUp_now : (s.showUp p).now = s.now := by
  unfold State.showUp
  rfl

theorem showUp_map : (s.showUp p).rd F.PRT_LINK_STAT_LANE_MAP p =
    ((s.lane p 0).lane + 4 * (s.lane p 1).lane + 16 * (s.lane p 2).lane + 64 * (s.lane p 3).lane) % 2 ^ 8 := by
  have hsum : lanes4.foldl (fun a k => a + (s.lane p k).lane * 4 ^ k) 0 =
      (s.lane p 0).lane + 4 * (s.lane p 1).lane + 16 * (s.lane p 2).lane + 64 * (s.lane p 3).lane := by
    unfold lanes4
    simp only [List.foldl_cons, List.foldl_nil]
    omega
  unfold State.showUp
  dsimp only
  rw [rd_wr_other _ _ _ _ _ _ _ _ (by decide), rd_wr_other _ _ _ _ _ _ _ _ (by decide), rd_wr_other _ _ _ _ _ _ _ _ (by decide),
    rd_wr_same]
  exact congrArg (· % 2 ^ 8) hsum

theorem showUp_rate : (s.showUp p).rd F.PRT_LINK_STAT_RATE p = s.rd F.PRT_LINK_CFG_RATE p % 4 := by
  unfold State.showUp
  dsimp only
  rw [rd_wr_other _ _ _ _ _ _ _ _ (by decide), rd_wr_other _ _ _ _ _ _ _ _ (by decide), rd_wr_same,
    rd_wr_other _ _ _ _ _ _ _ _ (by decide), rd_wr_other _ _ _ _ _ _ _ _ (by decide)]
  rfl

end

/-! Failed sets (R302). -/

/-- R302: the eighth comma set whose lanes are not distinct makes all lanes hunt. -/
theorem deskew_fails (hst : s.rd F.PRT_LINK_STAT_STATE p = linkDeskew) (hd : ¬(lanes4.map (fun k => (s.lane p k).lane)).Nodup)
    (hn : 8 ≤ (s.port p).deskewFails + 1) : s.deskew p g =
      (((s.setPort p (fun pt => { pt with deskewFails := 0 })).huntAll p).inc F.PRT_RX_ERR_FRAMING 1 p).syncLink p := by
  have hdistinct : decide ((lanes4.map (s.lane p)).map (·.lane)).Nodup = false := by
    rw [List.map_map]
    exact decide_eq_false hd
  unfold State.deskew
  rw [if_neg (not_not_intro hst)]
  dsimp only
  rw [hdistinct, Bool.false_and, Bool.false_and, if_neg Bool.false_ne_true]
  exact if_pos hn

/-- The link state that a port is given is no other field. -/
theorem syncLink_rd_other {f : Fld} (hs : f.key 0 0 ≠ F.PRT_LINK_STAT_STATE.key 0 0) (hl : f.key 0 0 ≠ F.PRT_LINK_STAT_LOCK.key 0 0)
    (s : State) (p i j : Nat) : (s.syncLink p).rd f i j = s.rd f i j := by
  rcases syncLink_cases s p with ⟨v, hv⟩ | ⟨v, hv⟩ | hv <;> rw [hv]
  · have hwalk : ∀ t : State, (t.huntAll p).rd f i j = t.rd f i j := fun t =>
      (rd_wr_other _ _ _ _ _ _ _ _ hl).trans (each_keeps t (fun t => t.rd f i j) fun _ _ _ => rfl)
    rw [hwalk, rd_wr_other _ _ _ _ _ _ _ _ hs]
  · exact rd_wr_other _ _ _ _ _ _ _ _ hs

theorem toHunt_toHunt (l : Lane) : l.toHunt.toHunt = l.toHunt := rfl

/-! Leaving UP (R304). -/

/-- R304: a port that leaves UP is fenced, raises source 33, counts, and has received nothing. -/
def State.dropLink (s : State) (p : Nat) : State :=
  (((s.hwFence p).raise (stopPort (dieOfPort p)) 33 p).inc F.PRT_LINK_STAT_DOWNS 1 p).setPort p (fun pt => { pt with
    rx := [], rxSkip := false, upSince := none, ctl := [], identHeld := none, concluded := false, rxXoffSince := [], stalled := [] })

/-- R304: the frame under way breaks. -/
def State.breakSending (s : State) (p : Nat) : State :=
  match s.sched.sending.get [p] with
  | none => s
  | some x => { s with sched := { s.sched with sending := s.sched.sending.set [p] (some { x with broken := true }) } }

/-- R304, R333: the port aligns, and discovery of it is gone. -/
def State.undiscovered (s : State) (p : Nat) : State :=
  ((s.wr F.PRT_LINK_STAT_STATE linkAligning p).wr F.PRT_DISC_STATE 0 p).wr F.PRT_DISC_QUAR 0 p

theorem portDown_eq (h : s.portUp p = true) : s.portDown p =
    ((((((s.dropLink p).wr F.PRT_FC_STAT_RX_XOFF 0 p).breakSending p).undiscovered p).awaitOutcome p).syncDiscSum).syncLink p := by
  unfold State.portDown
  rw [h, if_neg (by decide : ¬(!true) = true)]
  rfl

theorem breakSending_rd (s : State) (p : Nat) (f : Fld) (i j : Nat) : (s.breakSending p).rd f i j = s.rd f i j := by
  unfold State.breakSending
  split <;> rfl

theorem breakSending_link (s : State) (p : Nat) : (s.breakSending p).link = s.link := by
  unfold State.breakSending
  split <;> rfl

/-- What a port that left UP shows of a field that neither its outcome nor its link state is. -/
theorem portDown_settled {f : Fld} (h : s.portUp p = true) (hf : outcomeFoot.testBit f.reg.ctorIdx = false)
    (ho : f.key 0 0 ≠ F.PRT_DISC_OUTCOME.key 0 0) (hs : f.key 0 0 ≠ F.PRT_LINK_STAT_STATE.key 0 0)
    (hl : f.key 0 0 ≠ F.PRT_LINK_STAT_LOCK.key 0 0) (i j : Nat) : (s.portDown p).rd f i j =
      ((((s.dropLink p).wr F.PRT_FC_STAT_RX_XOFF 0 p).breakSending p).undiscovered p).rd f i j := by
  rw [portDown_eq h, syncLink_rd_other hs hl,
    (syncDiscSum_foot (show _ &&& outcomeFoot = _ by decide) (Foot.refl _ _)).rd _ _ _ hf, State.awaitOutcome, setOutcome_rd hf ho]

theorem portDown_downs (h : s.portUp p = true) : (s.portDown p).rd F.PRT_LINK_STAT_DOWNS p =
    min (s.rd F.PRT_LINK_STAT_DOWNS p + 1) (2 ^ F.PRT_LINK_STAT_DOWNS.width - 1) := by
  rw [portDown_settled h (by decide) (by decide) (by decide) (by decide), State.undiscovered,
    rd_wr_other _ _ _ _ _ _ _ _ (by decide), rd_wr_other _ _ _ _ _ _ _ _ (by decide), rd_wr_other _ _ _ _ _ _ _ _ (by decide),
    breakSending_rd, rd_wr_other _ _ _ _ _ _ _ _ (by decide), State.dropLink, setPort_rd, rd_inc_same,
    (raise_foot (Sub.refl _) (Foot.refl _ _)).rd _ _ _ (by decide), (hwFence_foot (Sub.refl _) (Foot.refl _ _)).rd _ _ _ (by decide)]

theorem portDown_undiscovered (h : s.portUp p = true) : (s.portDown p).rd F.PRT_DISC_STATE p = 0 := by
  rw [portDown_settled h (by decide) (by decide) (by decide) (by decide), State.undiscovered,
    rd_wr_other _ _ _ _ _ _ _ _ (by decide), rd_wr_same]
  rfl

theorem portDown_xoff (h : s.portUp p = true) : (s.portDown p).rd F.PRT_FC_STAT_RX_XOFF p = 0 := by
  rw [portDown_settled h (by decide) (by decide) (by decide) (by decide), State.undiscovered,
    rd_wr_other _ _ _ _ _ _ _ _ (by decide), rd_wr_other _ _ _ _ _ _ _ _ (by decide), rd_wr_other _ _ _ _ _ _ _ _ (by decide),
    breakSending_rd, rd_wr_same]
  rfl

theorem portDown_fenced (h : s.portUp p = true) (hp : p < 256) : (s.portDown p).fenced p = true := by
  rw [← hwFence_fenced s hp]
  unfold State.fenced
  rw [portDown_settled h (by decide) (by decide) (by decide) (by decide), State.undiscovered,
    rd_wr_other _ _ _ _ _ _ _ _ (by decide), rd_wr_other _ _ _ _ _ _ _ _ (by decide), rd_wr_other _ _ _ _ _ _ _ _ (by decide),
    breakSending_rd, rd_wr_other _ _ _ _ _ _ _ _ (by decide), State.dropLink, setPort_rd, rd_inc_other _ _ _ _ _ _ _ _ (by decide),
    (raise_foot (Sub.refl _) (Foot.refl _ _)).rd _ _ _ (by decide)]

theorem portDown_received (h : s.portUp p = true) : ((s.portDown p).port p).rx = [] ∧ ((s.portDown p).port p).ctl = [] := by
  rw [portDown_eq h, syncLink_port, port_congr ((syncDiscSum_foot (Sub.refl _) (Foot.refl _ _)).part .link (by decide)),
    State.awaitOutcome, port_congr (setOutcome_link ..), State.undiscovered, wr_port, wr_port, wr_port,
    port_congr (breakSending_link ..), wr_port, State.dropLink, setPort_port]
  exact ⟨rfl, rfl⟩

/-- R304: a port that is UP leaves UP when a lane of it is not locked. -/
theorem leaveUp_eq (h : s.portUp p = true) (hm : s.marked (.remapped p) = false) (hk : k < 4) (hl : (s.lane p k).state ≠ .locked) :
    s.leaveUp p = s.portDown p := by
  have hall : lanes4.all (fun k => (s.lane p k).state == .locked) = false :=
    List.all_eq_false.mpr ⟨k, mem_lanes4.mpr hk, fun h => hl (beq_iff_eq.mp h)⟩
  unfold State.leaveUp
  rw [h, hall, hm]
  rfl

end Sys2Proof.Machine
end

section
/-!
PROOFS. The lanes and the link states (R301, R302, R304, R310, R322).
-/

namespace Sys2Proof.Machine

variable {s : State} {p k n x : Nat}

theorem exec_laneCommaBlock {c : Option Nat} (hs : s.powered = true) (hp : p < 256) (hk : k < 4) (hc : ∀ v ∈ c, v < 2 ^ 120) :
    exec (.laneCommaBlock p k c) s = .next (s.commaBlock p k c) :=
  onPowered_eq (ok := (Instr.laneCommaBlock p k c).wf) (f := fun s => s.commaBlock p k c) (by
    unfold Instr.wf
    dsimp only
    rw [decide_eq_true hp, decide_eq_true hk, Bool.true_and, Bool.true_and, Option.all_eq_true]
    exact fun v hv => decide_eq_true (hc v hv)) hs

theorem exec_lossOfSignal (hs : s.powered = true) (hp : p < 256) (hk : k < 4) :
    exec (.lossOfSignal p k) s = .next (s.putLane p k { (s.lane p k).toHunt with signal := false }) :=
  onPowered_eq (f := fun s => s.lossOfSignal p k) (by simp [Instr.wf, hp, hk]) hs

theorem exec_codewordDecode {w : Codeword} (hs : s.powered = true) (hp : p < 256) (hk : k < 4) (hn : w.corrected.getD 0 ≤ 15)
    (hx : w.payload < 2 ^ 5140) : exec (.codewordDecode p k w) s = .next (s.codeword p k w.corrected w.payload) :=
  onPowered_eq (ok := (Instr.codewordDecode p k w).wf) (f := fun s => s.codeword p k w.corrected w.payload) (by
    unfold Instr.wf
    dsimp only
    rw [decide_eq_true hp, decide_eq_true hk, decide_eq_true ⟨hn, hx⟩]
    rfl) hs

theorem exec_laneDeskew {g : List Nat} (hs : s.powered = true) (hp : p < 256) : exec (.laneDeskew p g) s = .next (s.deskew p g) :=
  onPowered_eq (f := fun s => s.deskew p g) (decide_eq_true hp) hs

theorem exec_portDown (hs : s.powered = true) (hp : p < 256) : exec (.portDown p) s = .next (s.leaveUp p).settleAll :=
  onPowered_eq (f := fun s => (s.leaveUp p).settleAll) (decide_eq_true hp) hs

/-- Settles O48, by the lane that each block leaves (LOCK and the link state follow it), and by the parts of going UP and
of leaving UP. -/
theorem lanesAndLinkStates : Obligations.LanesAndLinkStates := by
  unfold Obligations.LanesAndLinkStates
  refine ⟨?verify, ?lock, ?hunt, ?loss, ?corrected, ?lost, ?up, ?again, ?down⟩
  case verify =>
    intro s p k v c hs hp hk hon hut hst hv hc hmode hl
    refine ⟨_, exec_laneCommaBlock hs hp hk (fun w hw => Option.some.inj hw ▸ hv), ?_⟩
    rw [Receives.verifies ⟨hon, hst⟩ ⟨hc, hmode⟩ hl]
    exact Carries.putLane_lane ⟨hon, hut⟩ ..
  case lock =>
    intro s p k v c hs hp hk hon hut hst hv hc hmode hl hn
    refine ⟨_, exec_laneCommaBlock hs hp hk (fun w hw => Option.some.inj hw ▸ hv), ?_⟩
    rw [Receives.locks ⟨hon, hst⟩ ⟨hc, hmode⟩ hl hn, putLane_shown _ _ _ _ k hk, Carries.putLane_lane ⟨hon, hut⟩]
    exact ⟨rfl, rfl⟩
  case hunt =>
    intro s p k hs hp hk hon hst hl
    refine ⟨_, exec_laneCommaBlock hs hp hk (fun w hw => by cases hw), ?_⟩
    rw [Receives.hunts ⟨hon, hst⟩ hl, putLane_shown _ _ _ _ k hk, putLane_lane_hunting _ hk (toHunt_toHunt _)]
    exact ⟨rfl, rfl⟩
  case loss =>
    intro s p k hs hp hk
    exact ⟨_, exec_lossOfSignal hs hp hk, putLane_lane_hunting _ hk rfl⟩
  case corrected =>
    intro s p k n x hs hp hk hn hx
    refine ⟨_, exec_codewordDecode (w := { corrected := some n, payload := x }) hs hp hk hn hx, ?_⟩
    dsimp only
    rw [codeword_corrected, setLane_same, setLane_port, countCorrected_secSyms, takePayload_port, countCorrected_lane,
      takePayload_same, readBlocks_corrected, setLane_rd, setLane_rd, setLane_rd, setLane_rd]
    refine ⟨?_, ?_, ?_, fun h1 => ?_, rfl, rfl, rfl⟩
    · rw [countCorrected_rd _ _ _ _ (by decide), rd_inc_other _ _ _ _ _ _ _ _ (by decide), rd_inc_same, takePayload_rd]
    · rw [countCorrected_rd _ _ _ _ (by decide), rd_inc_same, rd_inc_other _ _ _ _ _ _ _ _ (by decide), takePayload_rd]
    · rw [countCorrected_rd _ _ _ _ (by decide), rd_inc_other _ _ _ _ _ _ _ _ (by decide),
        rd_inc_other _ _ _ _ _ _ _ _ (by decide), takePayload_rd]
    · rw [countCorrected_hist _ _ _ _ h1 hn, takePayload_rd]
  case lost =>
    intro s p l k x hs hp hlane hx hfind hl hrun
    have hphys : s.physical p l = k := by
      unfold State.physical
      rw [hfind]
      rfl
    have hk : k < 4 := mem_lanes4.mp (List.mem_of_find?_eq_some hfind)
    refine ⟨_, exec_codewordDecode (w := { corrected := none, payload := x }) hs hp hlane (Nat.zero_le 15) hx, ?_⟩
    dsimp only
    rw [codeword_losesLane hphys hl hrun, putLane_rd _ _ _ _ (by decide), putLane_lane_hunting _ hk (toHunt_toHunt _), putLane_port,
      State.countLost, setPort_rd, setPort_port, rd_inc_same, rd_inc_other _ _ _ _ _ _ _ _ (by decide), takePayload_rd, inc_port,
      inc_port, takePayload_port]
    exact ⟨rfl, rfl, rfl⟩
  case up =>
    intro s p g hs hp hst hlocked hdistinct hnear
    have h : Aligned s p := ⟨hst, hlocked, hdistinct, hnear⟩
    refine ⟨_, exec_laneDeskew hs hp, ?_, ?_, ?_, fun v hv => h.deskew_avail g hv, ?_, h.deskew_disc g⟩
    · unfold State.portUp
      rw [h.deskew_rd g (by decide) (by decide) (by decide), showUp_up]
      rfl
    · rw [h.deskew_rd g (by decide) (by decide) (by decide), showUp_map]
    · rw [h.deskew_rd g (by decide) (by decide) (by decide), showUp_rate]
    · rw [h.deskew_port g, State.freshPort, setPort_port, showUp_now]
      exact ⟨rfl, rfl, rfl, rfl⟩
  case again =>
    intro s p g hs hp hst hdistinct hn
    refine ⟨_, exec_laneDeskew hs hp, ?_⟩
    rw [deskew_fails hst hdistinct hn]
    refine ⟨fun k hk => ?_, ?_, ?_⟩
    · rw [syncLink_lane_hunting hk (by rw [inc_lane, huntAll_lane _ _ hk, toHunt_toHunt]), inc_lane, huntAll_lane _ _ hk]
      rfl
    · rw [syncLink_rd_other (by decide) (by decide), rd_inc_same, huntAll_rd (by decide), setPort_rd]
    · refine beq_eq_false_iff_ne.mpr (syncLink_ne_up ?_)
      rw [rd_inc_other _ _ _ _ _ _ _ _ (by decide), huntAll_state, setPort_rd, hst]
      decide
  case down =>
    intro s p k hs hp hk hup hm hl
    refine ⟨s.leaveUp p, exec_portDown hs hp, ?_⟩
    rw [leaveUp_eq hup hm hk hl]
    exact ⟨beq_eq_false_iff_ne.mpr (portDown_ne_up s p), portDown_fenced hup hp, portDown_downs hup, portDown_received hup,
      portDown_undiscovered hup, portDown_xoff hup⟩

end Sys2Proof.Machine
end

section
/-!
SUPPORT. Time transfer (R323 to R327): what a port accepts of a TIME block, and what each message does.
-/

namespace Sys2Proof.Machine

variable {s t : State} {p rx : Nat} {c : CtlBlock} {m : TimeMsg}

/-- R324, R334: port p accepts the message m of the TIME block c that waits longest. -/
structure TimeTaken (s : State) (p : Nat) (c : CtlBlock) (m : TimeMsg) : Prop where
  up : s.portUp p = true
  switch : s.benlas p = false
  trusted : s.flag F.PRT_DISC_QUAR p = false
  waits : (s.port p).ctl.find? (fun c => c.ctype == 2) = some c
  message : m = readTime c.body
  domain : m.domain = s.rd F.PRT_DISC_CFG_PLANE
  oneStep : m.flags.testBit 9 = false

/-- Who the neighbour is does not depend on what waits. -/
theorem withoutCtl_benlas (s : State) (p : Nat) (c : CtlBlock) : (s.withoutCtl p c).benlas p = s.benlas p := by
  unfold State.benlas
  rw [withoutCtl_port]
  rfl

/-- Nothing stands against the message. -/
theorem TimeTaken.passes (h : TimeTaken s p c m) : (!(s.withoutCtl p c).portUp p || (s.withoutCtl p c).benlas p ||
    (s.withoutCtl p c).flag F.PRT_DISC_QUAR p || (readTime c.body).domain != (s.withoutCtl p c).rd F.PRT_DISC_CFG_PLANE ||
    (readTime c.body).flags.testBit 9) = false := by
  have hup : (s.withoutCtl p c).portUp p = true := h.up
  have htrusted : (s.withoutCtl p c).flag F.PRT_DISC_QUAR p = false := h.trusted
  have hdomain : (m.domain != (s.withoutCtl p c).rd F.PRT_DISC_CFG_PLANE) = false := bne_eq_false_iff_eq.mpr h.domain
  rw [← h.message, hup, withoutCtl_benlas, h.switch, htrusted, hdomain, h.oneStep]
  rfl

/-- R325: a Pdelay_Req is answered. -/
theorem TimeTaken.request (h : TimeTaken s p c m) (hk : m.kind = 2) : s.timeBlock p rx =
    (s.withoutCtl p c).sendTime p ((s.withoutCtl p c).pdelayAnswer p rx m) := by
  unfold State.timeBlock
  rw [takeCtl_found h.waits]
  dsimp only
  rw [h.passes, if_neg Bool.false_ne_true, ← h.message, hk]
  rfl

/-- R325: a Pdelay_Resp to the request that waits gives a delay. -/
theorem TimeTaken.response {sent : Nat} (h : TimeTaken s p c m) (hk : m.kind = 3) (hsent : (s.port p).reqSent = some sent)
    (ht : m.target = portIdentity p) (hq : (m.seq + 1) % 65536 = (s.port p).reqSeq) :
    s.timeBlock p rx = (s.withoutCtl p c).takeDelay p rx sent m := by
  unfold State.timeBlock
  rw [takeCtl_found h.waits]
  dsimp only
  rw [h.passes, if_neg Bool.false_ne_true, ← h.message, hk, withoutCtl_port, hsent]
  exact if_pos ⟨ht, hq⟩

/-- R326: a port's Sync is noted. -/
def State.noteSync (s : State) (p : Nat) : State := s.setPort p (fun pt => { pt with lastSync := some s.now })

/-- R326: an engine that is ACQUIRING or LOCKED stays so at a Sync. -/
theorem syncTime_kept (hgm : s.flag F.PRT_TIME_CFG_GM = false)
    (hst : s.rd F.PRT_TIME_STAT_STATE = timeAcquiring ∨ s.rd F.PRT_TIME_STAT_STATE = timeLocked) : s.syncTime = s := by
  have hengaged : ¬ (s.rd F.PRT_TIME_STAT_STATE = timeFree ∨ s.rd F.PRT_TIME_STAT_STATE = timeHoldover) := by
    rcases hst with h | h <;> rw [h] <;> decide
  unfold State.syncTime
  rw [hgm, if_neg Bool.false_ne_true, if_neg hengaged]

/-- R326: a Sync at the slave port of an engine that is ACQUIRING or LOCKED. -/
theorem TimeTaken.sync (h : TimeTaken s p c m) (hk : m.kind = 0) (hrole : s.rd F.PRT_TIME_PORT_ROLE p = 2)
    (hgm : s.flag F.PRT_TIME_CFG_GM = false)
    (hst : s.rd F.PRT_TIME_STAT_STATE = timeAcquiring ∨ s.rd F.PRT_TIME_STAT_STATE = timeLocked)
    (hslave : s.link.slave = some p) : s.timeBlock p rx =
      ((s.withoutCtl p c).noteSync p).takeSync p (1000 * (m.ns : Int) + corrPs m.corr) (unitsPs rx) := by
  have hslaveRole : ((s.withoutCtl p c).rd F.PRT_TIME_PORT_ROLE p != 2) = false := bne_eq_false_iff_eq.mpr hrole
  have hkept : ((s.withoutCtl p c).noteSync p).syncTime = (s.withoutCtl p c).noteSync p := syncTime_kept hgm hst
  unfold State.noteSync at hkept ⊢
  unfold State.timeBlock
  rw [takeCtl_found h.waits]
  dsimp only
  rw [h.passes, if_neg Bool.false_ne_true, ← h.message, hk]
  refine (if_neg (ne_true_of_eq_false hslaveRole)).trans ?_
  rw [hkept]
  exact if_pos hslave

/-! The offset of a Sync (R326, R327). -/

/-- R326: Syncs in a row within LOCK_NS, with one of this offset. -/
def State.goodRun (s : State) (off : Int) : Nat :=
  if decide (off.natAbs ≤ 1000 * s.rd F.PRT_TIME_CFG_LOCK_NS) then s.link.goodSyncs + 1 else 0

/-- R326: the run of good Syncs stands at n. -/
def State.setRun (s : State) (n : Nat) : State := { s with link := { s.link with goodSyncs := n } }

/-- R326: the 16th good Sync in a row locks an engine that acquires. -/
def State.lockAfter (s : State) (n : Nat) : State :=
  if s.rd F.PRT_TIME_STAT_STATE = timeAcquiring ∧ 16 ≤ n then s.wr F.PRT_TIME_STAT_STATE timeLocked else s

/-- R326: the offset shows, and counts. -/
def State.showOffset (s : State) (off : Int) : State :=
  let s := s.wr F.PRT_TIME_OFFSET_OFFSET (ofSigned 64 off)
  (s.setRun (s.goodRun off)).lockAfter (s.goodRun off)

/-- R327: a large offset steps the time, or is a fault while a plan is accepted. -/
def State.correctTime (s : State) (off : Int) : State :=
  if 1000000 < off.natAbs then (if s.locked then s.raise stopClk 14 else s.setTimePs (s.timePs - off)) else s

theorem takeSync_eq (s : State) (p : Nat) (t1 t2 : Int) : s.takeSync p t1 t2 =
    (s.showOffset (t2 - (t1 + s.rd F.PRT_TIME_PORT_DELAY p))).steer.correctTime (t2 - (t1 + s.rd F.PRT_TIME_PORT_DELAY p)) := rfl

section
variable (s : State) (off : Int) (n : Nat)

theorem setRun_rd (g : Fld) (i j : Nat) : (s.setRun n).rd g i j = s.rd g i j := rfl

theorem lockAfter_link : (s.lockAfter n).link = s.link := by
  unfold State.lockAfter
  split <;> rfl

theorem lockAfter_rd {g : Fld} (hg : g.key 0 0 ≠ F.PRT_TIME_STAT_STATE.key 0 0) (i j : Nat) :
    (s.lockAfter n).rd g i j = s.rd g i j := by
  unfold State.lockAfter
  split
  · exact rd_wr_other _ _ _ _ _ _ _ _ hg
  · rfl

theorem lockAfter_state (hst : s.rd F.PRT_TIME_STAT_STATE = timeAcquiring ∨ s.rd F.PRT_TIME_STAT_STATE = timeLocked) :
    (s.lockAfter n).rd F.PRT_TIME_STAT_STATE = if 16 ≤ n then timeLocked else s.rd F.PRT_TIME_STAT_STATE := by
  unfold State.lockAfter
  rcases hst with h | h
  · simp only [h, true_and]
    split
    · exact rd_wr_same ..
    · exact h
  · rw [if_neg fun hacq => absurd (h.symm.trans hacq.1) (by decide), h, ite_self]

theorem goodRun_shown : (s.wr F.PRT_TIME_OFFSET_OFFSET (ofSigned 64 off)).goodRun off = s.goodRun off := by
  unfold State.goodRun
  rw [rd_wr_other _ _ _ _ _ _ _ _ (by decide), wr_link]

theorem showOffset_link : (s.showOffset off).link = { s.link with goodSyncs := s.goodRun off } := by
  unfold State.showOffset
  dsimp only
  rw [lockAfter_link, goodRun_shown]
  rfl

theorem showOffset_rd {g : Fld} (hoff : g.key 0 0 ≠ F.PRT_TIME_OFFSET_OFFSET.key 0 0)
    (hst : g.key 0 0 ≠ F.PRT_TIME_STAT_STATE.key 0 0) (i j : Nat) : (s.showOffset off).rd g i j = s.rd g i j := by
  unfold State.showOffset
  dsimp only
  rw [lockAfter_rd _ _ hst, setRun_rd, rd_wr_other _ _ _ _ _ _ _ _ hoff]

theorem showOffset_offset : (s.showOffset off).rd F.PRT_TIME_OFFSET_OFFSET = ofSigned 64 off % 2 ^ 64 := by
  unfold State.showOffset
  dsimp only
  rw [lockAfter_rd _ _ (by decide), setRun_rd, rd_wr_same]
  rfl

/-- The run reaches 16 with a Sync that is within LOCK_NS. -/
theorem goodRun_locks : 16 ≤ s.goodRun off ↔ off.natAbs ≤ 1000 * s.rd F.PRT_TIME_CFG_LOCK_NS ∧ 16 ≤ s.link.goodSyncs + 1 := by
  unfold State.goodRun
  split
  next h => exact (and_iff_right (of_decide_eq_true h)).symm
  next h => exact iff_of_false (by decide) fun hg => h (decide_eq_true hg.1)

theorem showOffset_state (hst : s.rd F.PRT_TIME_STAT_STATE = timeAcquiring ∨ s.rd F.PRT_TIME_STAT_STATE = timeLocked) :
    (s.showOffset off).rd F.PRT_TIME_STAT_STATE =
      if off.natAbs ≤ 1000 * s.rd F.PRT_TIME_CFG_LOCK_NS ∧ 16 ≤ s.link.goodSyncs + 1 then timeLocked
      else s.rd F.PRT_TIME_STAT_STATE := by
  have hkept : ((s.wr F.PRT_TIME_OFFSET_OFFSET (ofSigned 64 off)).setRun (s.goodRun off)).rd F.PRT_TIME_STAT_STATE =
      s.rd F.PRT_TIME_STAT_STATE := (setRun_rd ..).trans (rd_wr_other _ _ _ _ _ _ _ _ (by decide))
  unfold State.showOffset
  dsimp only
  rw [goodRun_shown, lockAfter_state _ _ (by rwa [hkept]), hkept]
  exact if_congr (goodRun_locks s off) rfl rfl

theorem steer_rd {g : Fld} (hg : g.reg ≠ .PWR_CLK_STAT) (i j : Nat) : s.steer.rd g i j = s.rd g i j := by
  unfold State.steer
  dsimp only
  rw [rd_wr_key _ _ _ _ _ _ _ _ (key_ne_of_other rfl (.inl hg))]
  rfl

theorem steer_goodSyncs : s.steer.link.goodSyncs = s.link.goodSyncs := rfl
theorem steer_timeFrac : s.steer.link.timeFrac = s.link.timeFrac := rfl

theorem correctTime_rd {g : Fld} (hg : g.reg ≠ .PRT_TIME_NOW) (i j : Nat) : (s.correctTime off).rd g i j = s.rd g i j := by
  unfold State.correctTime
  split
  · split
    · exact (raise_foot (Sub.refl _) (Foot.refl _ s)).rd _ _ _ (by cases g.reg <;> decide)
    · exact rd_wr_key _ _ _ _ _ _ _ _ (key_ne_of_other rfl (.inl hg))
  · rfl

theorem correctTime_goodSyncs : (s.correctTime off).link.goodSyncs = s.link.goodSyncs := by
  unfold State.correctTime
  split
  · split
    · rw [(raise_foot (Sub.refl _) (Foot.refl _ s)).part .link (by decide)]
    · rfl
  · rfl

/-- R327: the time steps by an offset of more than 1 µs, unless a plan is accepted. -/
theorem correctTime_planeTime : (s.correctTime off).planeTime =
    if 1000000 < off.natAbs ∧ s.locked = false then (s.timePs - off).toNat / 1000 % 2 ^ 64 else s.planeTime := by
  unfold State.correctTime
  by_cases hlarge : 1000000 < off.natAbs
  · rw [if_pos hlarge]
    cases hl : s.locked with
    | true =>
      rw [if_pos rfl, if_neg (by simp)]
      exact (raise_foot (Sub.refl _) (Foot.refl _ s)).rd F.PRT_TIME_NOW_NS _ _ (by decide)
    | false =>
      rw [if_neg Bool.false_ne_true, if_pos ⟨hlarge, rfl⟩]
      exact rd_wr_same ..
  · rw [if_neg hlarge, if_neg fun h => hlarge h.1]

end

/-! Syncs that do not come (R326). -/

theorem syncLoss_takes {q : Nat} (hslave : s.link.slave = some p)
    (hlate : ((s.port p).lastSync).getD 0 + 3 * s.syncInterval ≤ s.now) (hbest : s.bestSlave = some q) :
    s.syncLoss = s.setSlave (some q) := by
  unfold State.syncLoss
  rw [hslave]
  dsimp only
  rw [if_neg (Nat.not_lt.mpr hlate), hbest]

theorem syncLoss_holds (hslave : s.link.slave = some p)
    (hlate : ((s.port p).lastSync).getD 0 + 8 * s.syncInterval ≤ s.now) (hbest : s.bestSlave = none)
    (hlocked : s.rd F.PRT_TIME_STAT_STATE = timeLocked) : s.syncLoss =
      (((s.setSlave none).wr F.PRT_TIME_STAT_STATE timeHoldover).inc F.PRT_TIME_STAT_HOLDOVERS).raise stopClk 13 := by
  unfold State.syncLoss
  rw [hslave]
  dsimp only
  rw [if_neg (by omega), hbest]
  exact if_pos ⟨hlocked, hlate⟩

/-! What the obligation says. -/

theorem exec_timeBlock (hs : s.active = true) (hp : p < 256) : exec (.timeBlock p rx) s = .next (s.timeBlock p rx) :=
  onActive_eq (f := fun s => s.timeBlock p rx) (decide_eq_true hp) hs

/-- Settles O51: each message by the equation of `TimeTaken` for its kind, a Sync's offset by `takeSync_eq`, its loss by
`syncLoss_takes` and `syncLoss_holds`. -/
theorem timeFollowsSync : Obligations.TimeFollowsSync := by
  refine ⟨?request, ?response, ?sync, ?master, ?neighbour, ?another, ?holdover⟩
  case request =>
    intro s p rx c m hs hp hup hb hq hc hm hd hf hk
    refine ⟨_, exec_timeBlock hs hp, ?_⟩
    rw [(TimeTaken.mk hup hb hq hc hm hd hf).request hk]
    exact ⟨rfl, rfl, congrArg Port.ctl (withoutCtl_port s p c)⟩
  case response =>
    intro s p rx c m sent delay l hs hp hup hb hq hc hm hd hf hk hsent ht hseq hdelay hl
    refine ⟨_, exec_timeBlock hs hp, ?_⟩
    rw [(TimeTaken.mk hup hb hq hc hm hd hf).response hk hsent ht hseq]
    subst hdelay hl
    unfold State.takeDelay
    dsimp only
    rw [withoutCtl_port]
    exact ⟨rd_wr_same .., congrArg Port.delays (setPort_port _ p _), congrArg Port.reqSent (setPort_port _ p _)⟩
  case sync =>
    intro s p rx c m off hs hp hup hb hq hc hm hd hf hk hrole hgm hst hslave hoff
    refine ⟨_, exec_timeBlock hs hp, ?_⟩
    rw [(TimeTaken.mk hup hb hq hc hm hd hf).sync hk hrole hgm hst hslave, takeSync_eq]
    have hdelay : ((s.withoutCtl p c).noteSync p).rd F.PRT_TIME_PORT_DELAY p = s.rd F.PRT_TIME_PORT_DELAY p := rfl
    rw [hdelay, ← hoff]
    have hlocked : (((s.withoutCtl p c).noteSync p).showOffset off).steer.locked = s.locked := by
      unfold State.locked State.planState
      rw [steer_rd _ (by decide), showOffset_rd _ _ (by decide) (by decide)]
      rfl
    have htime : (((s.withoutCtl p c).noteSync p).showOffset off).steer.planeTime = s.planeTime :=
      (steer_rd _ (by decide) ..).trans (showOffset_rd _ _ (by decide) (by decide) ..)
    have hps : (((s.withoutCtl p c).noteSync p).showOffset off).steer.timePs = s.timePs := by
      unfold State.timePs
      rw [htime, steer_timeFrac, showOffset_link]
      rfl
    refine ⟨?_, ?_, ?_, ?_⟩
    · rw [correctTime_rd _ _ (by decide), steer_rd _ (by decide), showOffset_offset]
    · rw [correctTime_goodSyncs, steer_goodSyncs, showOffset_link]
      simp only [State.goodRun, decide_eq_true_eq]
      rfl
    · rw [correctTime_rd _ _ (by decide), steer_rd _ (by decide), showOffset_state ((s.withoutCtl p c).noteSync p) _ hst]
      rfl
    · rw [correctTime_planeTime, hlocked, hps, htime]
  case master =>
    intro s p hs hp hrole hup
    refine ⟨_, onActive_eq (f := fun s => s.syncSend p) (decide_eq_true hp) hs, ?_⟩
    have hsend : s.syncSend p = (s.setPort p (fun pt => { pt with
        syncSent := s.now, syncSeq := (pt.syncSeq + 1) % 65536 })).sendTime p (s.syncMsg p) := if_pos ⟨hrole, hup⟩
    rw [hsend]
    exact ⟨rfl, congrArg Port.syncSeq (setPort_port s p _), rfl⟩
  case neighbour =>
    intro s p hs hp hid hup
    refine ⟨_, onActive_eq (f := fun s => s.pdelaySend p) (decide_eq_true hp) hs, ?_⟩
    have hknown : (s.portUp p && !(s.port p).identity.isEmpty) = true := by
      rw [hup, List.isEmpty_eq_false_iff.mpr hid]
      rfl
    have hsend : s.pdelaySend p = (s.setPort p (fun pt => { pt with
        reqSent := some s.timeUnits, reqSeq := (pt.reqSeq + 1) % 65536 })).sendTime p
          { kind := 2, domain := s.rd F.PRT_DISC_CFG_PLANE, source := portIdentity p, seq := (s.port p).reqSeq } := if_pos hknown
    rw [hsend]
    exact ⟨rfl, congrArg Port.reqSent (setPort_port s p _), rfl⟩
  case another =>
    intro s p q hs hslave hlate hbest
    refine ⟨_, onPowered_eq (f := State.syncLoss) rfl hs, ?_⟩
    rw [syncLoss_takes hslave hlate hbest]
    exact ⟨rfl, rd_wr_same .., rd_wr_other _ _ _ _ _ _ _ _ (by decide)⟩
  case holdover =>
    intro s p hs hslave hlate hbest hlocked
    refine ⟨_, onPowered_eq (f := State.syncLoss) rfl hs, ?_⟩
    rw [syncLoss_holds hslave hlate hbest hlocked]
    have hraised := raise_foot (die := stopClk) (src := 13) (detail := 0) (Sub.refl _)
      (Foot.refl _ (((s.setSlave none).wr F.PRT_TIME_STAT_STATE timeHoldover).inc F.PRT_TIME_STAT_HOLDOVERS))
    refine ⟨?_, ?_, ?_⟩
    · rw [hraised.part .link (by decide)]
      rfl
    · rw [hraised.rd _ _ _ (by decide), rd_inc_other _ _ _ _ _ _ _ _ (by decide), rd_wr_same]
      rfl
    · rw [hraised.rd _ _ _ (by decide), rd_inc_same, rd_wr_other _ _ _ _ _ _ _ _ (by decide)]
      unfold State.setSlave
      rw [rd_wr_other _ _ _ _ _ _ _ _ (by decide)]
      rfl

end Sys2Proof.Machine
end

section
/-!
SUPPORT. Host commands that end at once (R431, R463, R464): what an ended slot shows, and what a failed host access leaves.
-/

namespace Sys2Proof.Machine

variable {s t u : State} {slot i state code status : Nat} {op : LongOp} {l : List Byte}

/-! Slots. -/

theorem hostOp_congr (h : t.host = s.host) (i : Nat) : t.hostOp i = s.hostOp i := by unfold State.hostOp; rw [h]

theorem opIn_congr (h : t.host = s.host) (i code : Nat) : t.opIn i code = s.opIn i code := by unfold State.opIn; rw [hostOp_congr h]

/-- The registers and parts of an operation's end: HST_OP, MSIX_PBA and the host mailbox. -/
def endFoot : Nat := 0x1000000000000080800000000000000000000000000000000000000000000000000000000000000

theorem endOp_within (s : State) (i state status : Nat) : Foot endFoot s (s.endOp i state status) :=
  endOp_foot (Sub.refl _) (Foot.refl _ s)

/-! A host memory access that fails (R432). -/

/-- R432: the command of a slot has ended with a failed access to a host address. -/
structure DmaFailed (slot addr : Nat) (op : LongOp) (s : State) : Prop where
  shown : s.rd F.HST_ERR_DMA_ERR = 1
  detail : s.rd F.HST_OP_DETAIL_DETAIL slot = addr % 2 ^ 64
  ended : OpEnded slot opFailed cDmaErr op s

theorem failDma_failed (h : s.hostOp slot = some op) (addr : Nat) : DmaFailed slot addr op (s.failDma slot addr) where
  shown := by
    unfold State.failDma State.failMem
    rw [(endOp_within ..).rd _ _ _ (by decide), rd_wr_other _ _ _ _ _ _ _ _ (by decide), rd_latch_same]
    rfl
  detail := by
    unfold State.failDma State.failMem
    rw [(endOp_within ..).rd _ _ _ (by decide), rd_wr_same]
    rfl
  ended := endOp_ended (s := (s.latch F.HST_ERR_DMA_ERR).wr F.HST_OP_DETAIL_DETAIL addr slot) h ..

/-- The registers and parts that a failed host access changes. -/
def failDmaFoot : Nat := 0x1000000000000085800000000000000000000000000000000000000000000000000000000000000

theorem failDma_within (s : State) (slot addr : Nat) : Foot failDmaFoot s (s.failDma slot addr) :=
  failDma_foot (Sub.refl _) (Foot.refl _ s)

/-! The NVM (R453, R463). -/

theorem cellsFind_filter {lo b : Nat} {p : Host.Cell → Bool} {l : List Host.Cell} (h : cellsWf lo l = true)
    (hp : ∀ v, p (b, v) = true) : cellsFind b (l.filter p) = cellsFind b l := by
  induction l generalizing lo with
  | nil => rfl
  | cons c l ih =>
    obtain ⟨k, v⟩ := c
    simp only [cellsWf, Bool.and_eq_true] at h
    obtain ⟨-, hl⟩ := h
    rw [List.filter_cons]
    by_cases hk : k = b
    · rw [if_pos (hk ▸ hp v), cellsFind, cellsFind, if_pos hk, if_pos hk]
    · split
      · rw [cellsFind, cellsFind, ih hl]
      · rw [cellsFind, if_neg hk, ih hl]
        split
        · exact cellsFind_of_lt hl (by omega)
        · rfl

/-- An erasure leaves every byte outside it alone. -/
theorem read_erase_out {m : Memory} (h : m.wf = true) {a n b : Nat} (hb : b < a ∨ a + n ≤ b) : (m.erase a n).read b = m.read b :=
  cellsFind_filter h fun _ => decide_eq_true hb

section
variable (s : State) (a n : Nat) (l : List Byte)

theorem program_wf (h : s.sec.nvm.wf = true) : (s.program a n l).sec.nvm.wf = true := Memory.wf_writeN (Memory.wf_erase h a n) a l

/-- R453: programmed bytes read back. -/
theorem program_readN (h : s.sec.nvm.wf = true) : (s.program a n l).sec.nvm.readN a l.length = l := by
  unfold State.program
  rw [Memory.readN_writeN (Memory.wf_erase h a n) a (Nat.le_refl _), List.take_length]

/-- Bytes beyond the sectors that are programmed stay. -/
theorem program_readN_beyond (h : s.sec.nvm.wf = true) {b : Nat} (k : Nat) (hl : a + l.length ≤ b) (hn : a + n ≤ b) :
    (s.program a n l).sec.nvm.readN b k = s.sec.nvm.readN b k := by
  unfold Memory.readN State.program
  refine List.map_congr_left fun i _ => ?_
  rw [Memory.read_writeN_out (Memory.wf_erase h a n) l (.inr (by omega)), read_erase_out h (.inr (by omega))]

end

/-- R453: the slots lie beyond the header copies. -/
theorem nvmSlot_beyond (config b : Bool) : 8192 ≤ nvmSlot config b := by
  cases config <;> cases b <;> decide

theorem headerBytes_length (seq active : Nat) : (headerBytes seq active).length = 16 := by
  unfold headerBytes
  simp only [List.length_append, List.length_replicate]
  rfl

/-- R453: a switch of the header writes a header copy, and leaves the slots. -/
theorem switchSlot_readN (h : s.sec.nvm.wf = true) (hdr : List Byte) (config b config' b' : Bool) (k : Nat) :
    (s.switchSlot hdr config b).sec.nvm.readN (nvmSlot config' b') k = s.sec.nvm.readN (nvmSlot config' b') k := by
  have hbeyond := nvmSlot_beyond config' b'
  refine program_readN_beyond s (4096 * (1 - s.boot.copy)) 4096 _ h k ?_ ?_
  · rw [headerBytes_length]
    omega
  · omega

theorem switchSlot_boot (s : State) (hdr : List Byte) (config b : Bool) : (s.switchSlot hdr config b).boot =
    { s.boot with copy := 1 - s.boot.copy, seq := (s.boot.seq + 1) % 2 ^ 32 } := rfl

theorem switchSlot_hostOp (s : State) (hdr : List Byte) (config b : Bool) (i : Nat) :
    (s.switchSlot hdr config b).hostOp i = s.hostOp i := rfl

theorem slotBytes'_congr (h : t.sec = s.sec) (config b : Bool) : t.slotBytes' config b = s.slotBytes' config b := by
  unfold State.slotBytes'
  rw [h]

theorem imagePasses_congr (h : t.sec = s.sec) (config : Bool) (l : List Byte) (signed : Bool) :
    t.imagePasses config l signed = s.imagePasses config l signed := by
  unfold State.imagePasses State.imageForm
  rw [h]

/-! The commands (R463, R464). -/

/-- R464: the report that the device signs. -/
def State.report (s : State) (args : List Nat) : List Byte := s.attestBody args ++ bytesLE signatureSize s.fresh.1

theorem attest_eq (h : s.opIn slot oAttest = some op) (hsecret : s.sec.secret = true) (hfit : op.args.getD 0 0 + 30048 ≤ 2 ^ 64) :
    s.attest slot false = (s.fresh.2.emit (.hostWrite (op.args.getD 0 0) (s.report op.args))).endOp slot opDone 0 := by
  unfold State.attest
  rw [h]
  dsimp only
  rw [Bool.false_or, decide_eq_false (by omega : ¬2 ^ 64 < op.args.getD 0 0 + 30048), if_neg Bool.false_ne_true, hsecret]
  rfl

/-- R463: the key with the certificates. -/
def State.identity (s : State) : List Byte := bytesLE 64 s.sec.storedKey ++ s.sec.nvm.readN certBase certSize

theorem identRead_eq (h : s.opIn slot oIdentRead = some op) :
    s.identRead slot false = (s.emit (.hostWrite (op.args.getD 0 0) s.identity)).endOp slot opDone 0 := by
  unfold State.identRead
  rw [h]
  rfl

/-- The inactive slot of the image kind that a command names (R453). -/
def State.inactiveSlot (s : State) (op : LongOp) : Bool := !activeSlot s.bootHeader (op.flags.testBit 0)

def State.inactiveBase (s : State) (op : LongOp) : Nat := nvmSlot (op.flags.testBit 0) (s.inactiveSlot op)

/-- R463: the inactive slot takes a whole image. -/
def State.withImage (s : State) (op : LongOp) (l : List Byte) : State :=
  s.program (s.inactiveBase op) (ceilDiv l.length 4096 * 4096) l

/-- R454: the image that stands in the slot passes. -/
def State.imageGood (s : State) (op : LongOp) (b signed : Bool) : Bool :=
  s.imagePasses (op.flags.testBit 0) (s.slotBytes' (op.flags.testBit 0) b) signed

theorem imageGood_congr (h : t.sec = s.sec) (op : LongOp) (b signed : Bool) : t.imageGood op b signed = s.imageGood op b signed := by
  unfold State.imageGood
  rw [imagePasses_congr h, slotBytes'_congr h]

/-- The operation with n units of the image taken. -/
def LongOp.taken (op : LongOp) (n : Nat) : LongOp := { op with progress := n }

def State.imageTaken (s : State) (slot : Nat) (op : LongOp) (l : List Byte) : State :=
  (s.withImage op l).putOp slot (op.taken (ceilDiv l.length 4096))

theorem imageTaken_sec (s : State) (slot : Nat) (op : LongOp) (l : List Byte) :
    (s.imageTaken slot op l).sec = (s.withImage op l).sec := (putOp_foot (Sub.refl _) (Foot.refl _ _)).part .sec (by decide)

theorem imageTaken_boot (s : State) (slot : Nat) (op : LongOp) (l : List Byte) : (s.imageTaken slot op l).boot = s.boot :=
  (putOp_foot (Sub.refl _) (Foot.refl _ (s.withImage op l))).part .boot (by decide)

theorem imageWrite_whole (h : s.opIn slot oImageWrite = some op) (hl : l.length = op.args.getD 1 0) (signed : Bool) :
    s.imageWrite slot l signed =
      if (s.withImage op l).imageGood op (s.inactiveSlot op) signed then
        ((s.imageTaken slot op l).switchSlot s.bootHeader (op.flags.testBit 0) (s.inactiveSlot op)).endOp slot opDone 0
      else (s.imageTaken slot op l).endOp slot opFailed cBadImage := by
  rw [← imageGood_congr (imageTaken_sec s slot op l)]
  unfold State.imageWrite
  rw [h]
  dsimp only
  rw [if_neg (by omega : ¬l.length < op.args.getD 1 0), ← hl, List.take_length]
  rfl

/-- R463: the inactive slot takes the first n units that the host gave. -/
def State.unitsTaken (s : State) (slot : Nat) (op : LongOp) (l : List Byte) (n : Nat) : State :=
  (s.program (s.inactiveBase op) (4096 * n) (l.take (4096 * n))).putOp slot (op.taken n)

theorem imageWrite_short (h : s.opIn slot oImageWrite = some op) (hl : l.length < op.args.getD 1 0) (signed : Bool) :
    s.imageWrite slot l signed =
      (s.unitsTaken slot op l (l.length / 4096)).failDma slot (op.args.getD 0 0 + 4096 * (l.length / 4096)) := by
  unfold State.imageWrite
  rw [h]
  exact if_pos hl

theorem unitsTaken_boot (s : State) (slot : Nat) (op : LongOp) (l : List Byte) (n : Nat) : (s.unitsTaken slot op l n).boot = s.boot :=
  (putOp_foot (Sub.refl _) (Foot.refl _ (s.program (s.inactiveBase op) (4096 * n) (l.take (4096 * n))))).part .boot (by decide)

theorem unitsTaken_readN (hw : s.sec.nvm.wf = true) (slot : Nat) (op : LongOp) {n : Nat} (hn : 4096 * n ≤ l.length) :
    (s.unitsTaken slot op l n).sec.nvm.readN (s.inactiveBase op) (4096 * n) = l.take (4096 * n) := by
  have hsec : (s.unitsTaken slot op l n).sec = (s.program (s.inactiveBase op) (4096 * n) (l.take (4096 * n))).sec :=
    (putOp_foot (Sub.refl _) (Foot.refl _ _)).part .sec (by decide)
  have hstands := program_readN s (s.inactiveBase op) (4096 * n) (l.take (4096 * n)) hw
  rw [List.length_take_of_le hn] at hstands
  rw [hsec, hstands]

/-- R463: the fuses take the SVN of the firmware in use. -/
def State.commitSvn (s : State) : State :=
  let v := max s.sec.fuses.minSvn (s.rd F.BOOT_VERSION_FW_SVN)
  { s with sec := { s.sec with fuses := { s.sec.fuses with minSvn := v } } }.wr F.BOOT_VERSION_MIN_SVN v

theorem svnCommit_eq (h : s.opIn slot oSvnCommit = some op) : s.svnCommit slot = s.commitSvn.endOp slot opDone 0 := by
  unfold State.svnCommit
  rw [h]
  rfl

/-- R463: the device holds the digest of a debug token. -/
def State.holdToken (s : State) (digest : Nat) : State :=
  { s with sec := { s.sec with tokenDigest := some digest } }.wr F.SEC_STAT_TOKEN 1

theorem tokenSet_eq (h : s.opIn slot oTokenSet = some op) :
    s.tokenSet slot = (s.holdToken (argDigest op.args 0)).endOp slot opDone 0 := by
  unfold State.tokenSet
  rw [h]
  rfl

/-! What a command that has written to the host shows. -/

/-- An output, and then an end of the slot: the output stands, and the slot is free with its word. -/
theorem emit_ended (h : s.hostOp slot = some op) (o : Output) (state status : Nat) :
    s.out ++ [o] <+: ((s.emit o).endOp slot state status).out ∧ OpEnded slot state status op ((s.emit o).endOp slot state status) :=
  ⟨(endOp_keeps (Keeps.refl (s.emit o)) slot state status).out, endOp_ended (s := s.emit o) h ..⟩

end Sys2Proof.Machine
end

section
/-!
SUPPORT. The transfer block of a memory command (R263, R264): what its grant leaves of the state that a unit is copied in.
-/

namespace Sys2Proof.Machine

variable {s t u : State} {p a n i : Nat}

/-! What a grant sends. -/

theorem raiseIns_out (s : State) (die src detail : Nat) : (s.raise (stopIns die) src detail).out = s.out := by
  unfold State.raise State.raiseN
  rw [if_neg (show stopIns die ≠ stopMgt by unfold stopIns stopMgt; omega)]
  exact sendFault_out _

theorem ite_out {c : Prop} [Decidable c] (h : t.out = s.out) : (if c then t else s).out = s.out := by
  split
  · exact h
  · rfl

theorem bpmError_out (s : State) (kind account requester ptr named : Nat) :
    (s.bpmError kind account requester ptr named).out = s.out := by
  unfold State.bpmError
  dsimp only
  split <;>
  · rw [raiseIns_out, inc_out, latch_out]
    refine ite_out ?_
    simp only [wr_out, mark_out]

theorem popList_out {q l c cell : Nat} (h : s.popList q l c = some (cell, t)) : t.out = s.out := by
  unfold State.popList at h
  dsimp only at h
  split at h
  · cases h
    rfl
  · split at h
    · cases h
    · split at h <;> cases h
      rfl

theorem takeHead_out (fuel : Nat) (s : State) (q l c account requester : Nat) :
    (takeHead fuel s q l c account requester).2.out = s.out := by
  induction fuel generalizing s with
  | zero => rfl
  | succ fuel ih =>
    unfold takeHead
    split
    · rfl
    · next hpop =>
      split
      · rw [ih, bpmError_out]
        exact (popList_out hpop : _)
      · exact popList_out hpop

theorem takeHead_out_eq {fuel q l c account requester : Nat} {y : Option Nat} (h : takeHead fuel s q l c account requester = (y, t)) :
    t.out = s.out := by
  rw [← takeHead_out fuel s q l c account requester, h]

theorem syncFree_out (s : State) (q : Nat) : (s.syncFree q).out = s.out := by
  unfold State.syncFree
  simp only [wr_out]

theorem holdBuffer_out (s : State) (q cell account next : Nat) : (s.holdBuffer q cell account next).out = s.out := by
  unfold State.holdBuffer
  exact inc_out ..

theorem setStored_out (s : State) (cell : Nat) (item : Option Item) : (s.setStored cell item).out = s.out := rfl

theorem alloc_out (s : State) (item : Item) (account requester : Nat) : (s.alloc item account requester).2.out = s.out := by
  unfold State.alloc
  dsimp only
  split
  · rfl
  split
  case h_1 hfirst =>
    rw [syncFree_out, takeHead_out_eq hfirst]
    rfl
  case h_2 hfirst =>
    have hout := takeHead_out_eq hfirst
    split
    · rw [syncFree_out, setStored_out, holdBuffer_out]
      exact hout
    split
    case h_1 hsecond =>
      rw [syncFree_out]
      exact (takeHead_out_eq hsecond).trans hout
    case h_2 hsecond =>
      rw [syncFree_out, setStored_out, holdBuffer_out, holdBuffer_out, takeHead_out_eq hsecond]
      exact hout

theorem allocNow_out (s : State) (item : Item) (account requester : Nat) : (s.allocNow item account requester).2.out = s.out := by
  unfold State.allocNow
  dsimp only
  split
  · exact alloc_out ..
  · rfl

/-! What a grant leaves. -/

/-- The registers and parts of a grant: those of the buffer pools, the ring and the fault bits. -/
def grantFoot : Nat := 0x2600000000000000000000000000000000007a600000000000000000000000000000000000000

/-- From s to t, a transfer block may have been granted. -/
structure Granted (s t : State) : Prop where
  foot : Foot grantFoot s t
  now : t.now = s.now
  out : t.out = s.out

theorem allocNow_granted (s : State) (item : Item) (account requester : Nat) :
    Granted s (s.allocNow item account requester).2 where
  foot := allocNow_foot (Sub.refl _) (Foot.refl _ s)
  now := (allocNow_keeps (Keeps.refl s) item account requester).now
  out := allocNow_out ..

namespace Granted

variable (h : Granted s t)
include h

theorem rd {f : Fld} (hf : grantFoot.testBit f.reg.ctorIdx = false) (i j : Nat) : t.rd f i j = s.rd f i j := h.foot.rd f i j hf
theorem mem : t.mem = s.mem := h.foot.part .mem (by decide)
theorem host : t.host = s.host := h.foot.part .host (by decide)
theorem comp : t.comp = s.comp := h.foot.part .comp (by decide)
theorem spore : t.spore = s.spore := h.foot.part .spore (by decide)
theorem evr : t.evr = s.evr := h.foot.part .evr (by decide)

theorem arith : t.arith = s.arith := by unfold State.arith; rw [h.now]

/-! The channels and the expanders. -/

theorem gddrChannel (a : Nat) : t.gddrChannel a = s.gddrChannel a := by
  unfold State.gddrChannel State.dieChannels
  rw [h.mem]

theorem accessChannels (a n : Nat) : t.accessChannels a n = s.accessChannels a n := by
  unfold State.accessChannels
  simp only [h.gddrChannel]

theorem gddrFailed (a n : Nat) : t.gddrFailed a n = s.gddrFailed a n :=
  gddrFailed_congr (by rw [h.mem]) (fun k => h.rd (by decide) k 0) a n

theorem cxlUp (i : Nat) : t.cxlUp i = s.cxlUp i := by
  unfold State.cxlUp
  rw [flag_eq, flag_eq, h.rd (by decide)]

theorem sporeAt (k : Nat) : t.sporeAt k = s.sporeAt k := by
  unfold State.sporeAt
  simp (disch := decide) only [h.rd]

theorem spacePort (space a : Nat) : t.spacePort space a = s.spacePort space a := by
  unfold State.spacePort
  rw [h.sporeAt]

theorem spaceUp (space a : Nat) : t.spaceUp space a = s.spaceUp space a := by
  unfold State.spaceUp
  rw [h.spacePort, h.cxlUp]

/-! The order of service at the channels (R411). -/

theorem hasRecord (x c : Nat) : t.hasRecord x c = s.hasRecord x c := by
  unfold State.hasRecord State.roundsOutput State.kind State.operator State.inFmt State.level State.lastOf
  simp (disch := decide) only [h.rd]

theorem recordAddr (x c : Nat) : t.recordAddr x c = s.recordAddr x c := by
  unfold State.recordAddr State.outFmt
  simp (disch := decide) only [h.rd]

theorem numericDue (chans : List Nat) : t.numericDue chans = s.numericDue chans := by
  unfold State.numericDue State.allChunks State.outFmt
  simp (disch := decide) only [h.comp, h.hasRecord, h.recordAddr, h.accessChannels, h.arith, h.rd]

theorem slotSize (x : Nat) : t.slotSize x = s.slotSize x := by
  unfold State.slotSize State.inFmt State.kind State.sporeGroup State.lastOf
  simp (disch := decide) only [flag_eq, h.rd]

theorem spillReady (d : Nat) (j : SpillJob) : t.spillReady d j = s.spillReady d j := by
  unfold State.spillReady State.spillCycles
  simp (disch := decide) only [h.slotSize, h.comp, chunk_congr h.comp, h.rd]

theorem jobStands (j : SpillJob) : t.jobStands j = s.jobStands j := by
  unfold State.jobStands
  rw [chunk_congr h.comp]

theorem spillDue (chans : List Nat) : t.spillDue chans = s.spillDue chans := by
  unfold State.spillDue
  rw [h.comp, h.arith, funext h.jobStands, funext fun d => funext (h.spillReady d)]

theorem groups (x : Nat) : t.groups x = s.groups x := by
  unfold State.groups
  simp (disch := decide) only [flag_eq, h.rd]

theorem lasts : t.lasts = s.lasts := by
  unfold State.lasts
  simp (disch := decide) only [flag_eq, h.rd]

theorem drainGranules (x : Nat) : t.drainGranules x = s.drainGranules x := by
  unfold State.drainGranules State.imagePart State.sporeLasts State.sporeHalf
  simp (disch := decide) only [h.groups, h.lasts, h.rd]

theorem drainCycles (x : Nat) (d : Drain) : t.drainCycles x d = s.drainCycles x d := by
  unfold State.drainCycles State.sporeHalf
  simp (disch := decide) only [h.drainGranules, h.sporeAt, h.rd]

theorem tierUp : t.tierUp = s.tierUp := by
  unfold State.tierUp
  simp (disch := decide) only [h.mem, h.cxlUp, h.rd]

theorem drainDue (chans : List Nat) : t.drainDue chans = s.drainDue chans := by
  unfold State.drainDue State.sporeLast State.sporeBase State.sporeHalf
  simp (disch := decide) only [h.lasts, h.spore, h.tierUp, h.now, h.drainGranules, h.drainCycles, h.rd]

theorem copyDue (chans : List Nat) : t.copyDue chans = s.copyDue chans := by
  unfold State.copyDue
  simp (disch := decide) only [h.evr, h.accessChannels, h.rd]

/-- R411: what goes ahead of the host goes ahead of it still. -/
theorem aheadOfHost (addrs : List Nat) (n : Nat) : t.aheadOfHost addrs n = s.aheadOfHost addrs n := by
  unfold State.aheadOfHost State.aheadOfCopies State.aheadOfOthers
  simp only [h.numericDue, h.spillDue, h.drainDue, h.copyDue, funext fun a => h.accessChannels a n]

end Granted

/-! One unit of a space (R462). -/

theorem Granted.gddrRead_found (h : Granted s t) (a n : Nat) : (t.gddrRead a n).1 = (s.gddrRead a n).1 := by
  have hfailed : ∀ u : State, (∀ f i j, f.reg ≠ .MEM_CH_BYTES → (u.countChannel a n).rd f i j = u.rd f i j) ∧
      (u.countChannel a n).mem = u.mem := fun u =>
    ⟨fun f i j hf => each_keeps u (fun t => t.rd f i j) fun _ _ _ => rd_inc_other _ _ _ _ _ _ _ _ (key_ne_of_other rfl (.inl hf)),
      each_keeps u State.mem fun _ _ _ => rfl⟩
  have hcount : ∀ u : State, (u.countChannel a n).gddrFailed a n = u.gddrFailed a n := fun u =>
    gddrFailed_congr (by rw [(hfailed u).2]) (fun k => (hfailed u).1 _ _ _ (by decide)) a n
  unfold State.gddrRead
  dsimp only
  rw [hcount, hcount, h.gddrFailed, (hfailed t).2, (hfailed s).2, h.mem]
  split <;> rfl

theorem Granted.readGranule_found (h : Granted s t) (k : Nat) : (t.readGranule k).1 = (s.readGranule k).1 := by
  unfold State.readGranule State.poisoned State.sporeRead State.cxlRead
  dsimp only
  rw [h.sporeAt, h.mem]
  split <;> rfl

/-- A unit reads alike after the grant. -/
theorem Granted.readUnit_found (h : Granted s t) (space a : Nat) : (t.readUnit space a).1 = (s.readUnit space a).1 := by
  unfold State.readUnit
  split
  · exact h.gddrRead_found a 4096
  split
  · exact h.readGranule_found _
  unfold State.poisoned State.cxlRead
  rw [h.mem]
  split <;> rfl

theorem gddrRead_out (h : (s.gddrRead a n).1.isSome = true) : (s.gddrRead a n).2.out = s.out := by
  unfold State.gddrRead at h ⊢
  dsimp only at h ⊢
  split
  · next hf =>
    rw [hf] at h
    cases h
  · exact each_keeps s State.out fun _ _ _ => rfl

theorem readGranule_out (s : State) (k : Nat) : (s.readGranule k).2.out = s.out := by
  unfold State.readGranule
  dsimp only
  split <;> rfl

/-- A unit that reads sends nothing. -/
theorem readUnit_out {space : Nat} (h : (s.readUnit space a).1.isSome = true) : (s.readUnit space a).2.out = s.out := by
  unfold State.readUnit at h ⊢
  split
  · next hz =>
    rw [if_pos hz] at h
    exact gddrRead_out h
  split
  · exact readGranule_out ..
  · split <;> rfl

end Sys2Proof.Machine
end

section
/-!
SUPPORT. The units of the memory commands (R409, R416, R432).
-/

namespace Sys2Proof.Machine

variable {s t u : State} {slot code : Nat} {op : LongOp} {l : List Byte}

/-- The units of a memory command; the space, the address and the host address of its next one (R423). -/
def LongOp.units (op : LongOp) : Nat := op.args.getD 2 0 / 4096
def LongOp.space (op : LongOp) : Nat := memSpace op.args
def LongOp.unitAddr (op : LongOp) : Nat := memAddr op.args + 4096 * op.progress
def LongOp.unitHost (op : LongOp) : Nat := op.args.getD 1 0 + 4096 * op.progress

/-- The operation when its next unit is done. -/
def LongOp.unitDone (op : LongOp) : LongOp := { op with progress := op.progress + 1, part := true }

/-- The memory command op of a slot has a next unit, which can be copied now. -/
structure NextUnit (s : State) (slot code : Nat) (op : LongOp) : Prop where
  holds : s.opIn slot code = some op
  more : op.progress < op.units
  up : s.spaceUp op.space op.unitAddr = true
  keyed : op.space = 3 → s.mem.keyed = true
  first : op.space = 0 → s.aheadOfHost [op.unitAddr] 4096 = false

/-- R432: a unit is done; the command goes on, or ends with the last one. -/
def State.finishUnit (s : State) (slot : Nat) (op : LongOp) : State :=
  let s := s.putOp slot op.unitDone
  if op.progress + 1 = op.units then s.endOp slot opDone 0 else s

/-- A slot whose command has done a unit. -/
def unitLeft (op : LongOp) : Option LongOp := if op.progress + 1 = op.units then none else some op.unitDone

theorem finishUnit_hostOp (s : State) (slot : Nat) (op : LongOp) : (s.finishUnit slot op).hostOp slot = unitLeft op := by
  have hput := putOp_hostOp s slot op.unitDone
  unfold State.finishUnit unitLeft
  dsimp only
  split
  · exact (endOp_ended hput opDone 0).free
  · exact hput

theorem finishUnit_foot (s : State) (slot : Nat) (op : LongOp) : Foot endFoot s (s.finishUnit slot op) := by
  have hput : Foot endFoot s (s.putOp slot op.unitDone) := putOp_foot (show _ &&& endFoot = _ by decide) (Foot.refl _ s)
  unfold State.finishUnit
  dsimp only
  split
  · exact endOp_foot (Sub.refl _) hput
  · exact hput

theorem finishUnit_keeps (s : State) (slot : Nat) (op : LongOp) : Keeps s (s.finishUnit slot op) := by
  unfold State.finishUnit
  dsimp only
  split
  · exact endOp_keeps (putOp_keeps (Keeps.refl s) _ _) _ _ _
  · exact putOp_keeps (Keeps.refl s) _ _

namespace NextUnit

variable (h : NextUnit s slot code op)
include h

theorem hostOp : s.hostOp slot = some op := hostOp_of_opIn h.holds

/-- What a grant leaves, a next unit is. -/
theorem granted (hg : Granted s t) : NextUnit t slot code op where
  holds := (opIn_congr hg.host slot code).trans h.holds
  more := h.more
  up := (hg.spaceUp ..).trans h.up
  keyed := fun hk => (congrArg MemState.keyed hg.mem).trans (h.keyed hk)
  first := fun hz => (hg.aheadOfHost ..).trans (h.first hz)

/-- A unit that can be copied fails, or is copied. -/
theorem memUnit_eq (fail : Option MemFail) (data : List Byte) : s.memUnit slot code fail data = match fail with
    | some .dma => s.failDma slot op.unitHost
    | some (.uncorr x) =>
      if code = oMemWrite then
        if op.space = 0 then s else s.inc F.MEM_CXL_ERR_WRITE_FAIL 1 (s.spacePort op.space op.unitAddr)
      else
        (if op.space = 0 then s.gddrUncorr x else
          s.readPoison (s.spacePort op.space op.unitAddr) (s.spaceAddr op.space op.unitAddr)).failMem slot cMemUncorr
            (op.space * 2 ^ 62 + op.unitAddr)
    | none =>
      if code = oMemWrite then
        match s.writeUnit op.space op.unitAddr ((data ++ List.replicate 4096 0).take 4096) with
        | (true, s) => s.finishUnit slot op
        | (false, s) => s.failMem slot cMemUncorr (op.space * 2 ^ 62 + op.unitAddr)
      else match s.readUnit op.space op.unitAddr with
        | (none, s) => s.failMem slot cMemUncorr (op.space * 2 ^ 62 + op.unitAddr)
        | (some l, s) => (s.emit (.hostWrite op.unitHost l)).finishUnit slot op := by
  have hkeyed : ¬(op.space = 3 ∧ s.mem.keyed = false) := fun hk => by rw [h.keyed hk.1] at hk; exact absurd hk.2 (by decide)
  have hfirst : ¬(op.space = 0 ∧ s.aheadOfHost [op.unitAddr] 4096 = true) := fun hk => by
    rw [h.first hk.1] at hk
    exact absurd hk.2 (by decide)
  have hup : ¬(!s.spaceUp op.space op.unitAddr) = true := by rw [h.up]; decide
  unfold State.memUnit
  rw [h.holds]
  exact (if_neg (Nat.ne_of_lt h.more)).trans ((if_neg hup).trans ((if_neg hkeyed).trans (if_neg hfirst)))

end NextUnit

/-- R432: a unit of a read is sent to the host. -/
theorem NextUnit.reads (h : NextUnit s slot oMemRead op) (hr : s.readUnit op.space op.unitAddr = (some l, u)) :
    s.memUnit slot oMemRead none [] = (u.emit (.hostWrite op.unitHost l)).finishUnit slot op := by
  rw [h.memUnit_eq]
  dsimp only
  rw [if_neg (by decide), hr]

/-- R432: a unit of a write is stored. -/
theorem NextUnit.writes (h : NextUnit s slot oMemWrite op) (hsp : op.space = 1 ∨ op.space = 2) (hl : l.length = 4096) :
    s.memUnit slot oMemWrite none l = (s.cxlWrite (op.space - 1) op.unitAddr l).finishUnit slot op := by
  have hdata : (l ++ List.replicate 4096 0).take 4096 = l := List.take_left' hl
  have hwrite : s.writeUnit op.space op.unitAddr l = (true, s.cxlWrite (op.space - 1) op.unitAddr l) := by
    unfold State.writeUnit
    rw [if_neg (by omega), if_neg (by omega)]
  rw [h.memUnit_eq]
  dsimp only
  rw [if_pos rfl, hdata, hwrite]

/-! Blocks of units (R263, R264). -/

/-- One unit alone is copied in its transfer block. -/
theorem memUnits_one {p : Nat} (h : s.opIn slot code = some op) (hg : s.allocNow (.block 4096) 17 reqMgt = (some p, t)) :
    s.memUnits slot code [l] none = ((t.memUnit slot code none l).countBlock p).freeObj p 17 reqMgt := by
  have hblock : s.memBlock slot code [l] = (true, ((t.memUnit slot code none l).countBlock p).freeObj p 17 reqMgt) := by
    unfold State.memBlock
    rw [show 4096 * [l].length = 4096 from rfl, hg]
    rfl
  unfold State.memUnits
  rw [h, List.length_singleton, show List.range (ceilDiv 1 64) = [0] by decide, List.foldl_cons, List.foldl_nil, if_pos rfl,
    show ([l].drop (64 * 0)).take 64 = [l] from rfl, hblock]
  rfl

/-- Without a unit that is copied, the next one fails at once. -/
theorem memUnits_none (h : s.opIn slot code = some op) (fail : MemFail) :
    s.memUnits slot code [] (some fail) = s.memUnit slot code (some fail) [] := by
  unfold State.memUnits
  rw [h]
  rfl

theorem grant_of_isSome (h : (s.allocNow (.block 4096) 17 reqMgt).1.isSome = true) :
    ∃ p t, s.allocNow (.block 4096) 17 reqMgt = (some p, t) ∧ Granted s t := by
  obtain ⟨p, hp⟩ := Option.isSome_iff_exists.mp h
  exact ⟨p, _, Prod.ext hp rfl, allocNow_granted ..⟩

end Sys2Proof.Machine
end

section
/-!
SUPPORT. Ports and members that a host command changes (R336, R364).
-/

namespace Sys2Proof.Machine

variable {s t u : State} {slot p q o r l rank port ident old i j : Nat} {ps : List Nat} {op : LongOp} {f : Fld}

/-! Outcomes (R333). -/

theorem setOutcome_outcome (s : State) (p : Nat) (ho : o < 2 ^ F.PRT_DISC_OUTCOME.width) :
    (s.setOutcome p o).rd F.PRT_DISC_OUTCOME p = o := by
  rcases outcome_foot s p o with ⟨hsame, h⟩ | h
  · rw [h, hsame]
  · rw [h.rd _ _ _ (by decide), rd_wr_same, Nat.mod_eq_of_lt ho]

theorem setOutcome_outcome_other (s : State) (o : Nat) (h : q ≠ p) :
    (s.setOutcome p o).rd F.PRT_DISC_OUTCOME q = s.rd F.PRT_DISC_OUTCOME q := by
  rcases outcome_foot s p o with ⟨-, hkept⟩ | hfoot
  · rw [hkept]
  · rw [hfoot.rd _ _ _ (by decide), rd_wr_index _ _ _ _ _ _ _ fun he => h he.1]

/-- R334: a changed outcome changes PRESENT of members, and no other field of them. -/
theorem setOutcome_member (hf : f.reg = .LST_MEMBER) (hp : f.key 0 0 ≠ F.LST_MEMBER_PRESENT.key 0 0) (s : State) (p o i j : Nat) :
    (s.setOutcome p o).rd f i j = s.rd f i j := by
  have hreplace := syncReplace_foot (Sub.refl _) (Foot.refl _ (s.wr F.PRT_DISC_OUTCOME o p))
  have hother : ∀ {g : Fld}, g.reg ≠ .LST_MEMBER → f.key 0 0 ≠ g.key 0 0 := fun hg =>
    (key_ne_of_other hf (.inl hg)).symm
  unfold State.setOutcome
  split
  · rfl
  · rw [syncPresent_eq, rd_congr _ _ _ (syncFailing_regs _), presentAll_agrees _ _ _ _ hp,
      (syncDiscSum_foot (Sub.refl _) (Foot.refl _ _)).rd _ _ _ (by rw [hf]; decide),
      (trigger_foot (Sub.refl _) (Foot.refl _ _)).rd _ _ _ (by rw [hf]; decide), rd_inc_other _ _ _ _ _ _ _ _ (hother (by decide)),
      hreplace.rd _ _ _ (by rw [hf]; decide), rd_wr_other _ _ _ _ _ _ _ _ (hother (by decide))]

theorem syncOpp_outcome (s : State) (p q : Nat) : (s.syncOpp p).rd F.PRT_DISC_OUTCOME q = s.rd F.PRT_DISC_OUTCOME q := by
  unfold State.syncOpp
  dsimp only
  split
  · rw [(moveToOpp_foot (Sub.refl _) (Foot.refl _ _)).rd _ _ _ (by decide), rd_wr_other _ _ _ _ _ _ _ _ (by decide),
      rd_wr_other _ _ _ _ _ _ _ _ (by decide)]
  · rw [rd_wr_other _ _ _ _ _ _ _ _ (by decide), rd_wr_other _ _ _ _ _ _ _ _ (by decide)]

/-! Remaps (R336). -/

/-- R336: a port of a remap takes OUTCOME 8. -/
theorem remapDo_outcome (s : State) (hp : p ∈ ps) : (s.remapDo ps).rd F.PRT_DISC_OUTCOME p = 8 := by
  unfold State.remapDo
  dsimp only
  rw [syncFenced_rd (by decide), (syncDiscSum_foot (Sub.refl _) (Foot.refl _ _)).rd _ _ _ (by decide)]
  refine each_establishes (P := fun v => v.rd F.PRT_DISC_OUTCOME p = 8) hp (fun v => ?_) (fun v q hv => ?_) _
  · rw [syncOpp_outcome, setOutcome_outcome _ _ (by decide)]
  · rw [syncOpp_outcome]
    by_cases hq : p = q
    · rw [← hq, setOutcome_outcome _ _ (by decide)]
    · rw [setOutcome_outcome_other _ _ hq, hv]

theorem remapDo_host (s : State) (ps : List Nat) : (s.remapDo ps).host = s.host :=
  (remapDo_foot (Sub.refl _) (Foot.refl _ s)).part .host (by decide)

theorem remap_eq (h : s.opIn slot oRemap = some op) : s.remap slot =
    if s.remapOk (namedPorts op.args) then (s.remapDo (namedPorts op.args)).endOp slot opDone 0
    else s.endOp slot opFailed cRemapRefused := by
  unfold State.remap
  rw [h]

/-! Member replacement (R364, R429). -/

/-- The command waits for its member since `now`. -/
def LongOp.waiting (op : LongOp) (now : Nat) : LongOp := { op with loading := true, since := now }

/-- R364: the member's entry takes the IDENT, and the port where it may stand at another. -/
def State.rewriteMember (s : State) (l r port ident : Nat) : State :=
  let old := s.memberPort l r
  let s := s.wr F.LST_MEMBER_IDENT ident l r
  if s.flag F.LST_CFG_PORT_AGNOSTIC l && old != port then (s.movePort old port).wr F.LST_MEMBER_PORT port l r else s

theorem memberReplace_eq (h : s.opIn slot oMemberReplace = some op) (hl : op.loading = false)
    (hargs : replaceArgs op.args = (l, rank, port, ident)) (hr : s.operandOf l rank = some r) : s.memberReplace slot =
      (((((s.rewriteMember l r port ident).putOp slot (op.waiting (s.rewriteMember l r port ident).now)).rediscover
        port).syncMembers).syncOpp port).syncReplace := by
  unfold State.memberReplace
  rw [h]
  dsimp only
  rw [hl, if_neg Bool.false_ne_true, hargs]
  dsimp only
  rw [hr]
  rfl

theorem rewriteMember_ident (s : State) (l r port ident : Nat) :
    (s.rewriteMember l r port ident).rd F.LST_MEMBER_IDENT l r = ident % 2 ^ F.LST_MEMBER_IDENT.width := by
  unfold State.rewriteMember
  dsimp only
  split
  · rw [rd_wr_other _ _ _ _ _ _ _ _ (by decide), (movePort_foot (Sub.refl _) (Foot.refl _ _)).rd _ _ _ (by decide), rd_wr_same]
  · exact rd_wr_same ..

theorem rewriteMember_now (s : State) (l r port ident : Nat) : (s.rewriteMember l r port ident).now = s.now := by
  unfold State.rewriteMember
  dsimp only
  split
  · exact (movePort_keeps (Keeps.refl _) _ _).now
  · rfl

theorem rediscover_ident (s : State) (p i j : Nat) : (s.rediscover p).rd F.LST_MEMBER_IDENT i j = s.rd F.LST_MEMBER_IDENT i j := by
  unfold State.rediscover
  split
  · exact setOutcome_member rfl (by decide) ..
  · dsimp only
    rw [setOutcome_member rfl (by decide), rd_wr_other _ _ _ _ _ _ _ _ (by decide), setPort_rd]

/-- R364: what follows the rewriting leaves the IDENT, and the slots. -/
theorem replaceTail_ident (u : State) (port i j : Nat) :
    ((((u.rediscover port).syncMembers).syncOpp port).syncReplace).rd F.LST_MEMBER_IDENT i j = u.rd F.LST_MEMBER_IDENT i j := by
  rw [(syncReplace_foot (Sub.refl _) (Foot.refl _ _)).rd _ _ _ (by decide), (syncOpp_foot (Sub.refl _) (Foot.refl _ _)).rd _ _ _ (by decide),
    syncMembers_rd (by decide), rediscover_ident]

theorem replaceTail_host (u : State) (port : Nat) :
    ((((u.rediscover port).syncMembers).syncOpp port).syncReplace).host = u.host :=
  ((syncReplace_foot (Sub.refl _) (Foot.refl _ _)).part .host (by decide)).trans
    (((syncOpp_foot (Sub.refl _) (Foot.refl _ _)).part .host (by decide)).trans
      (((syncMembers_foot (Sub.refl _) (Foot.refl _ _)).part .host (by decide)).trans
        ((rediscover_foot (Sub.refl _) (Foot.refl _ u)).part .host (by decide))))

theorem replaceDecided_eq (h : s.host.deciding = none) : s.replaceDecided slot = s.memberReplace slot := by
  unfold State.replaceDecided
  rw [h]

theorem replaceTimeout_eq (h : s.opIn slot oMemberReplace = some op) (hl : op.loading = true)
    (hn : bits (op.args.getD 1 0) 31 0 ≠ 0) (hdue : op.since + ms (bits (op.args.getD 1 0) 31 0) ≤ s.now) :
    s.replaceTimeout slot = s.endOp slot opFailed cTimeout := by
  unfold State.replaceTimeout
  rw [h]
  exact if_pos ⟨hl, hn, hdue⟩

/-- The IDENT of a MEMBER_REPLACE is a word of 32 bits (R423). -/
theorem replaceArgs_ident {args : List Nat} (h : replaceArgs args = (l, rank, port, ident)) : ident < 2 ^ 32 := by
  have hident : bits (args.getD 0 0) 63 32 = ident := congrArg (fun a => a.2.2.2) h
  rw [← hident]
  exact Nat.mod_lt _ (by decide)

end Sys2Proof.Machine
end

section
/-!
PROOFS. What host commands do (R336, R364, R416, R429, R432, R463, R464).
-/

namespace Sys2Proof.Machine

variable {s t u : State} {slot p : Nat} {op : LongOp} {l : List Byte}

/-! The units of a memory command, with the transfer block they go through. -/

/-- What the end of a transfer block leaves: the slots, the memories and what has been sent. -/
structure BlockEnded (s t : State) : Prop where
  host : t.host = s.host
  mem : t.mem = s.mem
  out : s.out <+: t.out

theorem block_ended (s : State) (p : Nat) : BlockEnded s ((s.countBlock p).freeObj p 17 reqMgt) where
  host := ((freeObj_foot (Sub.refl _) (Foot.refl _ _)).part .host (by decide)).trans
    ((countBlock_foot (Sub.refl _) (Foot.refl _ s)).part .host (by decide))
  mem := ((freeObj_foot (Sub.refl _) (Foot.refl _ _)).part .mem (by decide)).trans
    ((countBlock_foot (Sub.refl _) (Foot.refl _ s)).part .mem (by decide))
  out := (freeObj_keeps (countBlock_keeps (Keeps.refl s) p) p 17 reqMgt).out

/-- The state in which a slot's unit is done, and its transfer block ended. -/
def State.blockDone (s : State) (slot : Nat) (op : LongOp) (p : Nat) : State :=
  ((s.finishUnit slot op).countBlock p).freeObj p 17 reqMgt

theorem blockDone_hostOp (s : State) (slot : Nat) (op : LongOp) (p : Nat) : (s.blockDone slot op p).hostOp slot = unitLeft op :=
  (hostOp_congr (block_ended (s.finishUnit slot op) p).host slot).trans (finishUnit_hostOp s slot op)

theorem blockDone_mem (s : State) (slot : Nat) (op : LongOp) (p : Nat) : (s.blockDone slot op p).mem = s.mem :=
  (block_ended (s.finishUnit slot op) p).mem.trans ((finishUnit_foot s slot op).part .mem (by decide))

theorem blockDone_out (s : State) (slot : Nat) (op : LongOp) (p : Nat) : s.out <+: (s.blockDone slot op p).out :=
  (finishUnit_keeps s slot op).out.trans (block_ended (s.finishUnit slot op) p).out

/-- R432: a unit of a read is written to the host, in its transfer block. -/
theorem NextUnit.memRead_one (h : NextUnit s slot oMemRead op) (hg : (s.allocNow (.block 4096) 17 reqMgt).1.isSome = true)
    (hr : (s.readUnit op.space op.unitAddr).1 = some l) :
    s.out ++ [.hostWrite op.unitHost l] <+: (s.memRead slot 1 none).out ∧ (s.memRead slot 1 none).hostOp slot = unitLeft op := by
  obtain ⟨p, t, halloc, hgranted⟩ := grant_of_isSome hg
  have hread : (t.readUnit op.space op.unitAddr).1 = some l := (hgranted.readUnit_found ..).trans hr
  have hquiet : (t.readUnit op.space op.unitAddr).2.out = s.out :=
    (readUnit_out (Option.isSome_iff_exists.mpr ⟨l, hread⟩)).trans hgranted.out
  have hdone : s.memRead slot 1 none =
      ((t.readUnit op.space op.unitAddr).2.emit (.hostWrite op.unitHost l)).blockDone slot op p := by
    unfold State.memRead
    rw [List.replicate_one, memUnits_one h.holds halloc, (h.granted hgranted).reads (Prod.ext hread rfl)]
    rfl
  rw [hdone, blockDone_hostOp, ← hquiet, ← emit_out]
  exact ⟨blockDone_out .., rfl⟩

theorem cxlWrite_read (hw : (s.mem.cxl.get [p]).wf = true) (a : Nat) (l : List Byte) : (s.cxlWrite p a l).cxlRead p a l.length = l := by
  unfold State.cxlWrite State.cxlRead
  rw [SMap.get_upd_same, Memory.readN_writeN hw _ (Nat.le_refl _), List.take_length]

/-- R432: a unit of a write is stored, in its transfer block. -/
theorem NextUnit.memWrite_one (h : NextUnit s slot oMemWrite op) (hg : (s.allocNow (.block 4096) 17 reqMgt).1.isSome = true)
    (hsp : op.space = 1 ∨ op.space = 2) (hw : (s.mem.cxl.get [op.space - 1]).wf = true) (hl : l.length = 4096) :
    (s.memWrite slot [l] none).cxlRead (op.space - 1) op.unitAddr 4096 = l ∧ (s.memWrite slot [l] none).hostOp slot = unitLeft op := by
  obtain ⟨p, t, halloc, hgranted⟩ := grant_of_isSome hg
  have hstored : (t.cxlWrite (op.space - 1) op.unitAddr l).cxlRead (op.space - 1) op.unitAddr 4096 = l :=
    hl ▸ cxlWrite_read (hgranted.mem ▸ hw) op.unitAddr l
  have hdone : s.memWrite slot [l] none = (t.cxlWrite (op.space - 1) op.unitAddr l).blockDone slot op p := by
    unfold State.memWrite
    rw [memUnits_one h.holds halloc, (h.granted hgranted).writes hsp hl]
    rfl
  unfold State.cxlRead at hstored ⊢
  rw [hdone, blockDone_hostOp, blockDone_mem, hstored]
  exact ⟨rfl, rfl⟩

/-- R463: the image that the host gave stands in the slot, which is in use where the image passes. -/
theorem imageWrite_done (h : s.opIn slot oImageWrite = some op) (hl : l.length = op.args.getD 1 0) (signed : Bool)
    (hw : s.sec.nvm.wf = true) :
    (s.imageWrite slot l signed).sec.nvm.readN (s.inactiveBase op) l.length = l ∧
    (s.imageWrite slot l signed).boot = (if (s.withImage op l).imageGood op (s.inactiveSlot op) signed then
      { s.boot with copy := 1 - s.boot.copy, seq := (s.boot.seq + 1) % 2 ^ 32 } else s.boot) ∧
    (s.imageWrite slot l signed).hostOp slot = none ∧
    (s.imageWrite slot l signed).rd F.HST_OP_WORD slot = (if (s.withImage op l).imageGood op (s.inactiveSlot op) signed then
      opWord opDone 0 (op.taken (ceilDiv l.length 4096)) else opWord opFailed cBadImage (op.taken (ceilDiv l.length 4096))) % 2 ^ 64 := by
  have hput : (s.imageTaken slot op l).hostOp slot = some (op.taken (ceilDiv l.length 4096)) := putOp_hostOp ..
  have hstands : (s.imageTaken slot op l).sec.nvm.readN (s.inactiveBase op) l.length = l :=
    imageTaken_sec s slot op l ▸ program_readN s _ _ l hw
  have hwf : (s.imageTaken slot op l).sec.nvm.wf = true := imageTaken_sec s slot op l ▸ program_wf s _ _ l hw
  have hboot := imageTaken_boot s slot op l
  rw [imageWrite_whole h hl]
  generalize s.imageTaken slot op l = u at *
  generalize (s.withImage op l).imageGood op (s.inactiveSlot op) signed = good
  cases good with
  | true =>
    rw [if_pos rfl, if_pos rfl, if_pos rfl]
    have hend := endOp_within (u.switchSlot s.bootHeader (op.flags.testBit 0) (s.inactiveSlot op)) slot opDone 0
    obtain ⟨hfree, hword⟩ := endOp_ended ((switchSlot_hostOp u s.bootHeader (op.flags.testBit 0) (s.inactiveSlot op) slot).trans hput)
      opDone 0
    refine ⟨?_, ?_, hfree, hword⟩
    · rw [hend.part .sec (by decide)]
      exact (switchSlot_readN hwf _ _ _ _ _ _).trans hstands
    · rw [hend.part .boot (by decide), switchSlot_boot, hboot]
  | false =>
    rw [if_neg Bool.false_ne_true, if_neg Bool.false_ne_true, if_neg Bool.false_ne_true]
    have hend := endOp_within u slot opFailed cBadImage
    obtain ⟨hfree, hword⟩ := endOp_ended hput opFailed cBadImage
    refine ⟨?_, ?_, hfree, hword⟩
    · rw [hend.part .sec (by decide), hstands]
    · rw [hend.part .boot (by decide), hboot]

/-- R431, R463: of an image that fails on its way, the units before the failure stand, and the header is as it was. -/
theorem imageWrite_failed (h : s.opIn slot oImageWrite = some op) (hl : l.length < op.args.getD 1 0) (signed : Bool)
    (hw : s.sec.nvm.wf = true) :
    DmaFailed slot (op.args.getD 0 0 + 4096 * (l.length / 4096)) (op.taken (l.length / 4096)) (s.imageWrite slot l signed) ∧
    (s.imageWrite slot l signed).sec.nvm.readN (s.inactiveBase op) (4096 * (l.length / 4096)) = l.take (4096 * (l.length / 4096)) ∧
    (s.imageWrite slot l signed).boot = s.boot := by
  have hput : (s.unitsTaken slot op l (l.length / 4096)).hostOp slot = some (op.taken (l.length / 4096)) := putOp_hostOp ..
  have hstands := unitsTaken_readN hw slot op (l := l) (n := l.length / 4096) (by omega)
  have hboot := unitsTaken_boot s slot op l (l.length / 4096)
  rw [imageWrite_short h hl]
  generalize s.unitsTaken slot op l (l.length / 4096) = u at *
  have hfail := failDma_within u slot (op.args.getD 0 0 + 4096 * (l.length / 4096))
  rw [hfail.part .sec (by decide), hfail.part .boot (by decide)]
  exact ⟨failDma_failed hput _, hstands, hboot⟩

/-- Settles O46: each command by the state it leaves before its slot ends; the end, and a transfer block, leave the effect. -/
theorem hostCommandsTakeEffect : Obligations.HostCommandsTakeEffect := by
  unfold Obligations.HostCommandsTakeEffect
  refine ⟨?remap, ?refused, ?replace, ?timeout, ?read, ?write, ?dma, ?attest, ?ident, ?uncorr, ?image, ?short, ?svn, ?token⟩
  case remap =>
    intro s slot op hs hi ho hok
    refine ⟨_, onActive_eq (f := fun s => s.remap slot) (decide_eq_true hi) hs, ?_⟩
    rw [remap_eq ho, if_pos hok]
    obtain ⟨hfree, hword⟩ := endOp_ended ((hostOp_congr (remapDo_host s (namedPorts op.args)) slot).trans (hostOp_of_opIn ho)) opDone 0
    exact ⟨fun p hp => ((endOp_within ..).rd _ _ _ (by decide)).trans (remapDo_outcome s hp), hfree, hword⟩
  case refused =>
    intro s slot op hs hi ho hok
    refine ⟨_, onActive_eq (f := fun s => s.remap slot) (decide_eq_true hi) hs, ?_⟩
    rw [remap_eq ho, hok, if_neg Bool.false_ne_true]
    obtain ⟨hfree, hword⟩ := endOp_ended (hostOp_of_opIn ho) opFailed cRemapRefused
    exact ⟨fun p _ => (endOp_within ..).rd _ _ _ (by decide), (endOp_within ..).part .link (by decide), hfree, hword⟩
  case replace =>
    intro s slot op l rank port ident r hs hi ho hd hl hargs hr
    refine ⟨_, onActive_eq (f := fun s => s.replaceDecided slot) (decide_eq_true hi) hs, ?_⟩
    rw [replaceDecided_eq hd, memberReplace_eq ho hl hargs hr, replaceTail_ident, hostOp_congr (replaceTail_host ..),
      (putOp_foot (Sub.refl _) (Foot.refl _ _)).rd _ _ _ (by decide), rewriteMember_ident, putOp_hostOp, rewriteMember_now]
    exact ⟨Nat.mod_eq_of_lt (replaceArgs_ident hargs), rfl⟩
  case timeout =>
    intro s slot op n hs hi ho hl hn hne hdue
    subst hn
    refine ⟨_, onActive_eq (f := fun s => s.replaceTimeout slot) (decide_eq_true hi) hs, ?_⟩
    rw [replaceTimeout_eq ho hl hne hdue]
    obtain ⟨hfree, hword⟩ := endOp_ended (hostOp_of_opIn ho) opFailed cTimeout
    exact ⟨hfree, hword⟩
  case read =>
    rintro s slot op sp a h n l u hs hi ho rfl hn rfl rfl rfl hg hahead hup hkeyed hr
    have hnext : NextUnit s slot oMemRead op := ⟨ho, hn, hup, hkeyed, hahead⟩
    exact ⟨_, onActive_eq (f := fun s => s.memRead slot 1 none) (decide_eq_true hi) hs,
      hnext.memRead_one hg (congrArg Prod.fst hr)⟩
  case write =>
    rintro s slot op sp a n l hs hi ho rfl hn rfl hsp rfl hup hw hg hl
    have hport : s.spaceUp op.space op.unitAddr = true := by
      unfold State.spaceUp State.spacePort
      rw [if_neg (show op.space ≠ 3 by unfold LongOp.space; omega), show s.cxlUp (op.space - 1) = true from hup, Bool.or_true]
    have hnext : NextUnit s slot oMemWrite op :=
      ⟨ho, hn, hport, fun h => by unfold LongOp.space at h; omega, fun h => by unfold LongOp.space at h; omega⟩
    exact ⟨_, onActive_eq (f := fun s => s.memWrite slot [l] none) (decide_eq_true hi) hs, hnext.memWrite_one hg hsp hw hl⟩
  case dma =>
    rintro s slot op sp a n hs hi ho rfl hn rfl rfl hup hkeyed hahead
    have hnext : NextUnit s slot oMemWrite op := ⟨ho, hn, hup, hkeyed, hahead⟩
    refine ⟨_, onActive_eq (f := fun s => s.memWrite slot [] (some .dma)) (decide_eq_true hi) hs, ?_⟩
    unfold State.memWrite
    rw [memUnits_none ho, hnext.memUnit_eq]
    obtain ⟨herr, hdetail, hfree, hword⟩ := failDma_failed hnext.hostOp op.unitHost
    exact ⟨herr, hdetail, (failDma_within ..).part .mem (by decide), hfree, hword⟩
  case attest =>
    intro s slot op hs hi ho hsecret hfit
    refine ⟨_, onActive_eq (f := fun s => s.attest slot false) (decide_eq_true hi) hs, ?_⟩
    rw [attest_eq ho hsecret hfit]
    obtain ⟨hout, hfree, hword⟩ := emit_ended (s := s.fresh.2) (hostOp_of_opIn ho) (.hostWrite (op.args.getD 0 0) (s.report op.args)) opDone 0
    exact ⟨⟨s.fresh.1, hout⟩, hfree, hword⟩
  case ident =>
    intro s slot op hs hi ho
    refine ⟨_, onActive_eq (f := fun s => s.identRead slot false) (decide_eq_true hi) hs, ?_⟩
    rw [identRead_eq ho]
    obtain ⟨hout, hfree, hword⟩ := emit_ended (hostOp_of_opIn ho) (.hostWrite (op.args.getD 0 0) s.identity) opDone 0
    exact ⟨hout, hfree, hword⟩
  case uncorr =>
    rintro s slot op sp a n x hs hi ho rfl hn rfl hsp rfl hup hkeyed
    have hnext : NextUnit s slot oMemWrite op := ⟨ho, hn, hup, hkeyed, fun h => absurd h hsp⟩
    refine ⟨_, onActive_eq (f := fun s => s.memWrite slot [] (some (.uncorr x))) (decide_eq_true hi) hs, ?_⟩
    unfold State.memWrite
    rw [memUnits_none ho, hnext.memUnit_eq]
    dsimp only
    rw [if_pos rfl, if_neg (show op.space ≠ 0 from hsp)]
    exact ⟨rd_inc_same .., hnext.hostOp, rfl⟩
  case image =>
    rintro s slot op l b signed u hs hi ho hl rfl rfl hw hfit
    exact ⟨_, onActive_eq (f := fun s => s.imageWrite slot l signed) (decide_eq_true hi) hs, imageWrite_done ho hl signed hw⟩
  case short =>
    rintro s slot op l b signed k hs hi ho hl rfl rfl hw hfit
    refine ⟨_, onActive_eq (f := fun s => s.imageWrite slot l signed) (decide_eq_true hi) hs, ?_⟩
    obtain ⟨⟨herr, hdetail, hfree, hword⟩, hstands, hboot⟩ := imageWrite_failed ho hl signed hw
    exact ⟨herr, hdetail, hstands, hboot, hfree, hword⟩
  case svn =>
    intro s slot op hs hi ho
    refine ⟨_, onActive_eq (f := fun s => s.svnCommit slot) (decide_eq_true hi) hs, ?_⟩
    rw [svnCommit_eq ho]
    obtain ⟨hfree, hword⟩ := endOp_ended (s := s.commitSvn) (hostOp_of_opIn ho) opDone 0
    have hend := endOp_within s.commitSvn slot opDone 0
    rw [hend.part .sec (by decide), hend.rd _ _ _ (by decide)]
    exact ⟨rfl, rd_wr_same .., hfree, hword⟩
  case token =>
    intro s slot op hs hi ho
    refine ⟨_, onActive_eq (f := fun s => s.tokenSet slot) (decide_eq_true hi) hs, ?_⟩
    rw [tokenSet_eq ho]
    obtain ⟨hfree, hword⟩ := endOp_ended (s := s.holdToken (argDigest op.args 0)) (hostOp_of_opIn ho) opDone 0
    have hend := endOp_within (s.holdToken (argDigest op.args 0)) slot opDone 0
    rw [hend.part .sec (by decide), hend.rd _ _ _ (by decide)]
    exact ⟨rfl, rd_wr_same .., hfree, hword⟩

end Sys2Proof.Machine
end

section
/-!
SUPPORT. What the closing of operations leaves of the epochs and of the groups (R155, R350, R355, R371): PARITY contexts
among them, in an epoch that is closed or has ended.
-/

namespace Sys2Proof.Machine

variable {s t u : State} {x y st l : Nat}

theorem setSpore_same (s : State) (l : Nat) (f : SporeLast → SporeLast) : (s.setSpore l f).sporeLast l = f (s.sporeLast l) :=
  SMap.get_upd_same _ _ _

theorem setSpore_other (s : State) {l k : Nat} (h : k ≠ l) (f : SporeLast → SporeLast) :
    (s.setSpore l f).sporeLast k = s.sporeLast k :=
  SMap.get_upd_ne _ (fun he => h (List.cons.inj he).1) _

theorem sporeLast_congr (h : t.spore.lasts = s.spore.lasts) (l : Nat) : t.sporeLast l = s.sporeLast l := by
  unfold State.sporeLast
  rw [h]

theorem Foot.spore {m : Nat} (h : Foot m s t) (hb : m.testBit 310 = false) : t.spore = s.spore := h.part .spore hb

theorem Foot.sporeLast {m : Nat} (h : Foot m s t) (hb : m.testBit 310 = false) (l : Nat) : t.sporeLast l = s.sporeLast l :=
  sporeLast_congr (congrArg SporeState.lasts (h.spore hb)) l

/-- A last's epochs without the items that its cut holds. -/
def SporeLast.unheld (l : SporeLast) : SporeLast := { l with held := [] }

/-- From `s` to `t` the lasts keep their epochs, but for the items that their cuts hold, and the counts of epochs stay. -/
structure EpochsKept (s t : State) : Prop where
  lasts : ∀ l, (t.sporeLast l).unheld = (s.sporeLast l).unheld
  aborted : t.rd F.CKP_EVENTS_ABORTED 0 = s.rd F.CKP_EVENTS_ABORTED 0
  epochs : t.rd F.CKP_EVENTS_EPOCHS 0 = s.rd F.CKP_EVENTS_EPOCHS 0

namespace EpochsKept

theorem refl (s : State) : EpochsKept s s := ⟨fun _ => rfl, rfl, rfl⟩

theorem trans (h : EpochsKept s t) (h' : EpochsKept t u) : EpochsKept s u :=
  ⟨fun l => (h'.lasts l).trans (h.lasts l), h'.aborted.trans h.aborted, h'.epochs.trans h.epochs⟩

theorem of_foot {m : Nat} (h : Foot m s t) (hspore : m.testBit 310 = false)
    (hevents : m.testBit Reg.CKP_EVENTS.ctorIdx = false) : EpochsKept s t :=
  ⟨fun l => congrArg SporeLast.unheld (h.sporeLast hspore l), h.rd _ _ _ hevents, h.rd _ _ _ hevents⟩

theorem field {β : Type} (h : EpochsKept s t) (l : Nat) {f : SporeLast → β} (hf : ∀ k, f k.unheld = f k) :
    f (t.sporeLast l) = f (s.sporeLast l) := by
  rw [← hf, h.lasts, hf]

theorem epoch (h : EpochsKept s t) (l : Nat) : (t.sporeLast l).epoch = (s.sporeLast l).epoch :=
  h.field (f := SporeLast.epoch) l fun _ => rfl

end EpochsKept

/-! What `closeRelease` leaves (R155). -/

/-- From `s` to `t` the spore sets keep all but the items that cuts hold. -/
structure HeldOnly (s t : State) : Prop where
  lasts : ∀ l, (t.sporeLast l).unheld = (s.sporeLast l).unheld
  groups : t.spore.groups = s.spore.groups

namespace HeldOnly

theorem refl (s : State) : HeldOnly s s := ⟨fun _ => rfl, rfl⟩

theorem trans (h : HeldOnly s t) (h' : HeldOnly t u) : HeldOnly s u :=
  ⟨fun l => (h'.lasts l).trans (h.lasts l), h'.groups.trans h.groups⟩

theorem of_spore (h : t.spore = s.spore) : HeldOnly s t :=
  ⟨fun l => congrArg SporeLast.unheld (sporeLast_congr (congrArg SporeState.lasts h) l), congrArg SporeState.groups h⟩

theorem each {α : Type} {l : List α} {g : State → α → State} (h : HeldOnly s t) (hg : ∀ v a, HeldOnly v (g v a)) :
    HeldOnly s (t.each l g) := by
  induction l generalizing t with
  | nil => exact h
  | cons a l ih => exact ih (h.trans (hg t a))

theorem comp {c : ComputeState} (h : HeldOnly s t) : HeldOnly s { t with comp := c } := ⟨h.lasts, h.groups⟩

theorem bpm {b : BpmState} (h : HeldOnly s t) : HeldOnly s { t with bpm := b } := ⟨h.lasts, h.groups⟩

/-- A last's held items change. -/
theorem setHeld (s : State) (l : Nat) (f : List (Nat × HeldItem) → List (Nat × HeldItem)) :
    HeldOnly s (s.setSpore l (fun k => { k with held := f k.held })) := by
  refine ⟨fun k => ?_, rfl⟩
  by_cases hk : k = l
  · rw [hk, setSpore_same]
    rfl
  · rw [setSpore_other s hk]

end HeldOnly

theorem closeRelease_heldOnly (s : State) (x n : Nat) (o : OpCtx) : HeldOnly s (s.closeRelease x n o) := by
  have hdrop (w : State) (a : Arrived) : HeldOnly w (w.dropArrived a) :=
    .of_spore ((dropArrived_foot (Sub.refl _) (Foot.refl _ w)).spore (by decide))
  have hitem (w : State) (it : HeldItem) : HeldOnly w (match it with
      | .swatch a => w.dropArrived a
      | .desc b => w.dropDesc b) := by
    cases it with
    | swatch a => exact hdrop w a
    | desc b => exact .of_spore ((dropDesc_foot (Sub.refl _) (Foot.refl _ w)).spore (by decide))
  unfold State.closeRelease
  refine HeldOnly.trans ?_ (.of_spore ((unlist_foot (Sub.refl _) (Foot.refl _ _)).spore (by decide)))
  refine HeldOnly.trans ?_ (.of_spore ((freeStreams_foot (Sub.refl _) (Foot.refl _ _)).spore (by decide)))
  refine HeldOnly.each (HeldOnly.comp (HeldOnly.each (HeldOnly.bpm (HeldOnly.each
    (HeldOnly.each (.refl s) fun w e => ?chunk) fun w i => hdrop w i.item)) fun w h => ?part)) fun w v => ?held
  case chunk => exact .of_spore ((dropChunk_foot (Sub.refl _) (Foot.refl _ w)).spore (by decide))
  case part =>
    split
    · exact .of_spore ((decRef_foot (Sub.refl _) (Foot.refl _ w)).spore (by decide))
    · exact .of_spore ((freeObj_foot (Sub.refl _) (Foot.refl _ w)).spore (by decide))
  case held =>
    dsimp only
    split
    · refine HeldOnly.trans (HeldOnly.trans (HeldOnly.each (.refl w) fun v (e : Nat × HeldItem) => hitem v e.2) (HeldOnly.setHeld _ v _))
        (.of_spore ((syncHeld_foot (Sub.refl _) (Foot.refl _ _)).spore (by decide)))
    · exact .refl w

theorem closeRelease_epochsKept (s : State) (x n : Nat) (o : OpCtx) : EpochsKept s (s.closeRelease x n o) :=
  have hfoot := closeRelease_foot (x := x) (n := n) (o := o) (Sub.refl _) (Foot.refl _ s)
  ⟨(closeRelease_heldOnly s x n o).lasts, hfoot.rd _ _ _ (by decide), hfoot.rd _ _ _ (by decide)⟩

/-! What `closeCount` leaves. -/

/-- A field that is no count of epochs is set. -/
theorem EpochsKept.wr (h : EpochsKept s t) {f : Fld} {v i j : Nat} (ha : F.CKP_EVENTS_ABORTED.key 0 0 ≠ f.key 0 0)
    (he : F.CKP_EVENTS_EPOCHS.key 0 0 ≠ f.key 0 0) : EpochsKept s (t.wr f v i j) :=
  ⟨h.lasts, (rd_wr_other _ _ _ _ _ _ _ _ ha).trans h.aborted, (rd_wr_other _ _ _ _ _ _ _ _ he).trans h.epochs⟩

theorem EpochsKept.setGroup (h : EpochsKept s t) (l g : Nat) (f : GroupRec → GroupRec) : EpochsKept s (t.setGroup l g f) :=
  ⟨h.lasts, h.aborted, h.epochs⟩

theorem EpochsKept.setLost (h : EpochsKept s t) (l g : Nat) (k : List Nat) : EpochsKept s (t.setLost l g k) :=
  ((h.setGroup l g _).wr (by decide) (by decide)).wr (by decide) (by decide)

theorem closeRecovery_epochsKept (s : State) (x st : Nat) : EpochsKept s (s.closeRecovery x st) := by
  unfold State.closeRecovery
  split
  · dsimp only
    split
    · refine (EpochsKept.setLost ?_ _ _ _).setGroup _ _ _
      split
      · exact ⟨fun _ => rfl, rd_inc_other _ _ _ _ _ _ _ _ (by decide), rd_inc_other _ _ _ _ _ _ _ _ (by decide)⟩
      · exact .refl s
    · have hput := (EpochsKept.refl s).setGroup (s.lastOf x)
      split
      · exact (hput _ _).wr (by decide) (by decide)
      · exact hput _ _
  · exact .refl s

theorem closeRecovery_ctx (s : State) (x st : Nat) : (s.closeRecovery x st).ctx = s.ctx := by
  unfold State.closeRecovery
  split
  · dsimp only
    split
    · split <;> rfl
    · split <;> rfl
  · rfl

theorem sendRecords_ctx (s : State) (x st : Nat) : (s.sendRecords x st).ctx = s.ctx :=
  each_keeps s State.ctx fun _ _ _ => (sendItem_keeps_arrivals ..).2

/-- The count of an operation that has ended (R156). -/
def State.countEnd (s : State) (x l st : Nat) : State :=
  if st = stDone then (s.inc F.OPC_OPS_DONE 1 x).inc F.LST_OPS_DONE 1 l
  else if st = stIncomplete then (s.inc F.OPC_FAIL_INCOMPLETE 1 x).inc F.LST_OPS_INCOMPLETE 1 l
  else (s.inc F.OPC_FAIL_ABORTED 1 x).inc F.LST_OPS_ABORTED 1 l

theorem countEnd_ctx (s : State) (x l st : Nat) : (s.countEnd x l st).ctx = s.ctx := by
  unfold State.countEnd
  split
  · rw [inc_ctx, inc_ctx]
  · split <;> rw [inc_ctx, inc_ctx]

theorem countEnd_spore (s : State) (x l st : Nat) : (s.countEnd x l st).spore = s.spore := by
  unfold State.countEnd
  split
  · rw [inc_spore, inc_spore]
  · split <;> rw [inc_spore, inc_spore]

theorem countEnd_rd {f : Fld} (hf : f.reg ≠ .OPC_OPS ∧ f.reg ≠ .LST_OPS ∧ f.reg ≠ .OPC_FAIL) (s : State) (x l st i j : Nat) :
    (s.countEnd x l st).rd f i j = s.rd f i j := by
  obtain ⟨hops, hlast, hfail⟩ := hf
  have hother {g : Fld} (h : f.reg ≠ g.reg) (w : State) (k : Nat) : (w.inc g 1 k).rd f i j = w.rd f i j :=
    rd_inc_other _ _ _ _ _ _ _ _ (key_ne_of_other rfl (.inl h))
  unfold State.countEnd
  split
  · rw [hother hlast, hother hops]
  · split <;> rw [hother hlast, hother hfail]

/-- The context is idle again or CLOSING, with no operation; what is numbered of operations that have closed is forgotten, but for
what still waits to be sent. -/
def State.leaveOp (s : State) (x st : Nat) : State :=
  let s := s.incWrap F.NUM_OPSEQ_OPNUM 1 x
  let s := s.wr F.OPC_STATE_STATE (if st = stDone then ctxIdle else ctxClosing) x
  ((s.wr F.OPC_STATE_DESCS 0 x).wr F.OPC_STATE_EARLY 0 x).setOp x (fun _ => {})
def State.forgetSeqs (s : State) (x n : Nat) : State :=
  { s with sched := { s.sched with txSeq := { entries := s.sched.txSeq.entries.filter (fun e =>
      e.1.headD 0 != x || e.1.take 2 == [x, n] || s.waitsToSend x (e.1.getD 1 0)) } } }

theorem closeCount_eq (s : State) (x n l st : Nat) : s.closeCount x n l st =
    (((((s.wr F.OPC_STATE_STATUS st x).sendRecords x st).countEnd x l st).closeRecovery x st).leaveOp x st).forgetSeqs x n := rfl

@[simp] theorem setOp_spore (s : State) (x : Nat) (f : OpCtx → OpCtx) : (s.setOp x f).spore = s.spore := rfl

theorem leaveOp_spore (s : State) (x st : Nat) : (s.leaveOp x st).spore = s.spore := by
  unfold State.leaveOp
  simp only [setOp_spore, wr_spore, incWrap_spore]

theorem leaveOp_epochsKept (s : State) (x st : Nat) : EpochsKept s (s.leaveOp x st) := by
  refine ⟨fun l => congrArg SporeLast.unheld (sporeLast_congr (congrArg SporeState.lasts (leaveOp_spore ..)) l), ?_, ?_⟩ <;>
  · unfold State.leaveOp
    simp (disch := decide) only [setOp_rd, rd_wr_other, rd_incWrap_other]

theorem forgetSeqs_epochsKept (s : State) (x n : Nat) : EpochsKept s (s.forgetSeqs x n) := ⟨fun _ => rfl, rfl, rfl⟩

theorem closeCount_epochsKept (s : State) (x n l st : Nat) : EpochsKept s (s.closeCount x n l st) := by
  rw [closeCount_eq]
  refine EpochsKept.trans (EpochsKept.trans (t := (s.wr F.OPC_STATE_STATUS st x).sendRecords x st) ?records ?count)
    (((closeRecovery_epochsKept ..).trans (leaveOp_epochsKept ..)).trans (forgetSeqs_epochsKept ..))
  case records =>
    exact ((EpochsKept.refl s).wr (by decide) (by decide)).trans
      (.of_foot (sendRecords_foot (Sub.refl _) (Foot.refl _ _)) (by decide) (by decide))
  case count =>
    exact ⟨fun k => congrArg SporeLast.unheld (sporeLast_congr (congrArg SporeState.lasts (countEnd_spore ..)) k),
      countEnd_rd (by decide) .., countEnd_rd (by decide) ..⟩

/-- A context that has nothing held for its next operation. -/
def State.noneEarly (s : State) (x : Nat) : Prop := (s.op x).early = []

theorem noneEarly_of_ctx (h : t.ctx = s.ctx) (hs : s.noneEarly y) : t.noneEarly y := by
  unfold State.noneEarly State.op
  rw [h]
  exact hs

theorem setOp_op_other (s : State) (h : y ≠ x) (f : OpCtx → OpCtx) : (s.setOp x f).op y = s.op y :=
  SMap.get_upd_ne _ (fun he => h (List.cons.inj he).1) _

theorem noneEarly_setOp {f : OpCtx → OpCtx} (hf : s.noneEarly x → (f (s.op x)).early = []) (hs : s.noneEarly y) :
    (s.setOp x f).noneEarly y := by
  unfold State.noneEarly
  by_cases hy : y = x
  · subst hy
    rw [setOp_op]
    exact hf hs
  · rw [setOp_op_other s hy]
    exact hs

theorem leaveOp_noneEarly (x : Nat) (hs : s.noneEarly y) : (s.leaveOp x st).noneEarly y := by
  unfold State.leaveOp
  dsimp only
  refine noneEarly_setOp (fun _ => rfl) (noneEarly_of_ctx ?_ hs)
  rw [wr_ctx, wr_ctx, wr_ctx, incWrap_ctx]

theorem forgetSeqs_ctx (s : State) (x n : Nat) : (s.forgetSeqs x n).ctx = s.ctx := rfl

theorem closeCount_noneEarly (n l : Nat) (hs : s.noneEarly y) : (s.closeCount x n l st).noneEarly y := by
  rw [closeCount_eq]
  have hctx : ((((s.wr F.OPC_STATE_STATUS st x).sendRecords x st).countEnd x l st).closeRecovery x st).ctx = s.ctx := by
    rw [closeRecovery_ctx, countEnd_ctx, sendRecords_ctx]
    rfl
  exact noneEarly_of_ctx (forgetSeqs_ctx ..) (leaveOp_noneEarly x (noneEarly_of_ctx hctx hs))

/-! An operation that closes alone. -/

/-- The closing of the operation of x, without what follows for its epoch and for the items held for its next operation. -/
def State.closeAlone (s : State) (x st : Nat) : State :=
  (((s.closeRelease x (s.opnum x) (s.op x)).notEarly x).closeCount x (s.opnum x) (s.lastOf x) st).closeAbort x (s.opnum x)
    (s.lastOf x) st

theorem closeAlone_closed : Closed x st s (s.closeAlone x st) := by
  have hbefore : StateKept x s ((s.closeRelease x (s.opnum x) (s.op x)).notEarly x) :=
    ((closeRelease_foot (Sub.refl _) (Foot.refl _ s)).stateKept (by decide) (by decide) (by decide)).trans
      ((notEarly_foot (Sub.refl _) (Foot.refl _ _)).stateKept (by decide) (by decide) (by decide))
  exact (closeCount_closed.before hbefore).after
    ((closeAbort_foot (Sub.refl _) (Foot.refl _ _)).stateKept (by decide) (by decide) (by decide))

theorem closeAlone_epochsKept (s : State) (x st : Nat) : EpochsKept s (s.closeAlone x st) :=
  ((closeRelease_epochsKept ..).trans (.of_foot (notEarly_foot (Sub.refl _) (Foot.refl _ _)) (by decide) (by decide))).trans
    ((closeCount_epochsKept ..).trans (.of_foot (closeAbort_foot (Sub.refl _) (Foot.refl _ _)) (by decide) (by decide)))

theorem closeAbort_ctx (s : State) (x n l st : Nat) : (s.closeAbort x n l st).ctx = s.ctx := by
  unfold State.closeAbort
  dsimp only
  split
  · rfl
  · exact publish_ctx ..

theorem closeAlone_noneEarly (hs : s.noneEarly y) : (s.closeAlone x st).noneEarly y := by
  refine noneEarly_of_ctx (closeAbort_ctx ..) (closeCount_noneEarly _ _ (noneEarly_of_ctx ?_ hs))
  rw [(notEarly_foot (Sub.refl _) (Foot.refl _ _)).ctx (by decide), (closeRelease_foot (Sub.refl _) (Foot.refl _ _)).ctx (by decide)]

/-- The epoch of a context's last does not end with its operation: the operation is done, or the last has no epoch. -/
def State.endsAlone (s : State) (x st : Nat) : Prop := st = stDone ∨ (s.sporeLast (s.lastOf x)).epoch = none

theorem closeEpoch_alone (h : st = stDone ∨ (s.sporeLast l).epoch = none) : s.closeEpoch x l st = (s, []) := by
  unfold State.closeEpoch
  dsimp only
  refine if_neg fun hc => ?_
  obtain ⟨hc, hsome⟩ := Bool.and_eq_true_iff.mp hc
  rcases h with rfl | hnone
  · exact absurd (Bool.and_eq_true_iff.mp hc).2 (by decide)
  · rw [hnone] at hsome
    exact absurd hsome (by decide)

/-- A context with an operation. -/
def State.begun (s : State) (x : Nat) : Prop :=
  ¬ (s.ctxState x = ctxIdle ∨ s.ctxState x = ctxUndeclared ∨ s.ctxState x = ctxClosing)

/-- The context whose operation has closed alone: a CLOSING one waits for its space. -/
def State.closeLeft (s : State) (x st : Nat) : State :=
  if (s.closeAlone x st).ctxState x = ctxClosing then (s.closeAlone x st).keepEarly x [] else s.closeAlone x st

/-- With nothing held for the next operation, and no epoch to end, an operation closes alone. -/
theorem closeCore_alone (hb : s.begun x) (he : s.noneEarly x) (ha : s.endsAlone x st) :
    s.closeCore x st = (s.closeLeft x st, []) := by
  have hepoch : (s.closeAlone x st).closeEpoch x (s.lastOf x) st = (s.closeAlone x st, []) :=
    closeEpoch_alone (ha.imp_right fun h => ((closeAlone_epochsKept s x st).epoch _).trans h)
  unfold State.closeLeft
  unfold State.closeAlone at hepoch ⊢
  unfold State.closeCore
  rw [if_neg hb]
  dsimp only
  rw [hepoch, show (s.op x).early = [] from he]
  dsimp only
  split
  · next h => rw [if_pos h.1]
  · split
    · rfl
    · rfl

theorem keepEarly_epochsKept (s : State) (x : Nat) (l : List HeldItem) : EpochsKept s (s.keepEarly x l) :=
  .of_foot (keepEarly_foot (Sub.refl _) (Foot.refl _ s)) (by decide) (by decide)

theorem keepEarly_noneEarly (hs : s.noneEarly y) : (s.keepEarly x []).noneEarly y := by
  unfold State.keepEarly
  exact noneEarly_of_ctx (wr_ctx ..) (noneEarly_setOp (fun _ => rfl) hs)

theorem closeLeft_epochsKept (s : State) (x st : Nat) : EpochsKept s (s.closeLeft x st) := by
  unfold State.closeLeft
  split
  · exact (closeAlone_epochsKept s x st).trans (keepEarly_epochsKept ..)
  · exact closeAlone_epochsKept s x st

theorem closeLeft_noneEarly (st : Nat) (hs : s.noneEarly y) : (s.closeLeft x st).noneEarly y := by
  have hclosed : (s.closeAlone x st).noneEarly y := closeAlone_noneEarly hs
  unfold State.closeLeft
  split
  · exact keepEarly_noneEarly hclosed
  · exact hclosed

theorem closeLeft_closed (s : State) (x st : Nat) : Closed x st s (s.closeLeft x st) := by
  have hclosed : Closed x st s (s.closeAlone x st) := closeAlone_closed
  unfold State.closeLeft
  split
  · exact hclosed.after (keepEarly_kept ..)
  · exact hclosed

theorem closeCore_ended (h : s.ctxState x = closedState st) : s.closeCore x st = (s, []) := by
  have hclosed : ¬ s.begun x := fun hb => hb (by
    rw [h]
    exact (closedState_cases st).imp_right .inr)
  unfold State.closeCore
  exact if_pos (not_not.mp hclosed)

/-! Operations that close one after another. -/

/-- What the closing of operations with a status leaves: the epochs and their counts, the lasts of the contexts, that nothing is
held for a next operation, and the contexts whose operation has ended. -/
structure Closings (st : Nat) (s t : State) : Prop where
  epochs : EpochsKept s t
  lastOf : ∀ x, t.lastOf x = s.lastOf x
  noneEarly : ∀ x, s.noneEarly x → t.noneEarly x
  ended : ∀ x, s.ctxState x = closedState st → t.ctxState x = closedState st
  begun : ∀ x, s.begun x → t.ctxState x = s.ctxState x ∨ t.ctxState x = closedState st

namespace Closings

theorem refl (st : Nat) (s : State) : Closings st s s := ⟨.refl s, fun _ => rfl, fun _ => id, fun _ => id, fun _ _ => .inl rfl⟩

theorem trans (h : Closings st s t) (h' : Closings st t u) : Closings st s u where
  epochs := h.epochs.trans h'.epochs
  lastOf x := (h'.lastOf x).trans (h.lastOf x)
  noneEarly x hx := h'.noneEarly x (h.noneEarly x hx)
  ended x hx := h'.ended x (h.ended x hx)
  begun x hx := by
    rcases h.begun x hx with hsame | hended
    · have ht : t.begun x := by
        unfold State.begun
        rwa [hsame]
      exact (h'.begun x ht).imp_left (·.trans hsame)
    · exact .inr (h'.ended x hended)

end Closings

/-- A context whose operation can close alone with a status, or has ended. -/
structure Closable (st : Nat) (s : State) (x : Nat) : Prop where
  noneEarly : s.noneEarly x
  alone : s.endsAlone x st
  state : s.ctxState x = closedState st ∨ s.begun x

theorem Closable.after (h : Closable st s x) (hc : Closings st s t) : Closable st t x where
  noneEarly := hc.noneEarly x h.noneEarly
  alone := h.alone.imp_right fun hnone => by rw [hc.lastOf, hc.epochs.epoch, hnone]
  state := by
    rcases h.state with hended | hbegun
    · exact .inl (hc.ended x hended)
    · refine (hc.begun x hbegun).symm.imp_right fun hsame => ?_
      unfold State.begun
      rwa [hsame]

theorem closeCore_closings (h : Closable st s x) : (s.closeCore x st).2 = [] ∧ Closings st s (s.closeCore x st).1 ∧
    (s.closeCore x st).1.ctxState x = closedState st := by
  rcases h.state with hended | hbegun
  · rw [closeCore_ended hended]
    exact ⟨rfl, .refl st s, hended⟩
  have hlast (w : Nat) : (s.closeCore x st).1.lastOf w = s.lastOf w :=
    (closeCore_foot (Sub.refl _) (Foot.refl _ s)).rd F.OPC_DECL_LAST _ _ (by decide)
  have helse := closeCore_elsewhere s x st
  rw [closeCore_alone hbegun h.noneEarly h.alone] at hlast helse ⊢
  have hstate := (closeLeft_closed s x st).state
  have hother (w : Nat) : (s.closeLeft x st).ctxState w = s.ctxState w ∨ (s.closeLeft x st).ctxState w = closedState st := by
    by_cases hw : w = x
    · rw [hw]
      exact .inr hstate
    · exact .inl (helse.kept hw).state
  exact ⟨rfl, ⟨closeLeft_epochsKept s x st, hlast, fun w hw => closeLeft_noneEarly st hw,
    fun w hw => (hother w).elim (·.trans hw) id, fun w _ => hother w⟩, hstate⟩

/-- Work that closes the operations of some contexts, and no other. -/
theorem runWork_closings {xs : List Nat} (h : ∀ x ∈ xs, Closable st s x) (n : Nat) :
    Closings st s (runWork (xs.length + n) s (xs.map (Work.close · st))) ∧
    ∀ x ∈ xs, (runWork (xs.length + n) s (xs.map (Work.close · st))).ctxState x = closedState st := by
  induction xs generalizing s with
  | nil =>
    have hnone : runWork (([] : List Nat).length + n) s (([] : List Nat).map (Work.close · st)) = s := runWork_nil _ s
    rw [hnone]
    exact ⟨.refl st s, fun x hx => absurd hx List.not_mem_nil⟩
  | cons x xs ih =>
    obtain ⟨hmore, hclose, hended⟩ := closeCore_closings (h x List.mem_cons_self)
    obtain ⟨hrest, hall⟩ := ih fun y hy => (h y (List.mem_cons_of_mem _ hy)).after hclose
    have hstep : runWork ((x :: xs).length + n) s ((x :: xs).map (Work.close · st)) =
        runWork (xs.length + n) (s.closeCore x st).1 (xs.map (Work.close · st)) := by
      rw [List.length_cons, Nat.add_right_comm, List.map_cons]
      show runWork (xs.length + n) (s.closeCore x st).1 ((s.closeCore x st).2 ++ xs.map (Work.close · st)) = _
      rw [hmore]
      rfl
    rw [hstep]
    refine ⟨hclose.trans hrest, fun y hy => ?_⟩
    rcases List.mem_cons.mp hy with rfl | hy
    · exact hrest.ended _ hended
    · exact hall y hy

theorem work_closings {xs : List Nat} (h : ∀ x ∈ xs, Closable st s x) :
    Closings st s (s.work (xs.map (Work.close · st))) ∧
    ∀ x ∈ xs, (s.work (xs.map (Work.close · st))).ctxState x = closedState st := by
  have hfuel : s.workFuel + 100 * (xs.map (Work.close · st)).length = xs.length + (s.workFuel + 99 * xs.length) := by
    rw [List.length_map]
    omega
  unfold State.work
  rw [hfuel]
  exact runWork_closings h _

end Sys2Proof.Machine
end

section
/-!
SUPPORT. The state image that the end of a cut writes (R349, R373): how long it is, and that the reading of its records leaves
its length, and the channels of its buffer, as they were.
-/

namespace Sys2Proof.Machine

variable {s t u : State} {x l a n : Nat}

/-! The registers' entries that are read as a list. -/

theorem filterMap_entriesErase {V β : Type} {k : Key} {p : Key × V → Option β} (h : ∀ v, p (k, v) = none) (l : List (Key × V)) :
    (entriesErase k l).filterMap p = l.filterMap p := by
  induction l with
  | nil => rfl
  | cons e l ih =>
    obtain ⟨k', v⟩ := e
    unfold entriesErase at ih ⊢
    by_cases hk : k' = k
    · subst hk
      rw [List.filter_cons_of_neg (by simp), List.filterMap_cons_none (h v), ih]
    · rw [List.filter_cons_of_pos (by simpa using hk), List.filterMap_cons, List.filterMap_cons, ih]

theorem filterMap_entriesInsert {V β : Type} {k : Key} {p : Key × V → Option β} (h : ∀ v, p (k, v) = none) (v : V)
    (l : List (Key × V)) : (entriesInsert k v l).filterMap p = l.filterMap p := by
  induction l with
  | nil => exact List.filterMap_cons_none (h v)
  | cons e l ih =>
    unfold entriesInsert
    split
    · exact List.filterMap_cons_none (h v)
    · rw [List.filterMap_cons, List.filterMap_cons, ih]

theorem filterMap_set {V β : Type} [Inhabited V] [DecidableEq V] {k : Key} {p : Key × V → Option β} (h : ∀ v, p (k, v) = none)
    (m : SMap V) (v : V) : (m.set k v).entries.filterMap p = m.entries.filterMap p := by
  unfold SMap.set SMap.putD
  split
  · exact filterMap_entriesErase h _
  · exact (filterMap_entriesInsert h v _).trans (filterMap_entriesErase h _)

/-- A field of another register declares no context. -/
theorem contexts_wr {f : Fld} (hf : f.reg ≠ .OPC_DECL) (s : State) (v i j : Nat) : (s.wr f v i j).contexts = s.contexts := by
  have hreg : f.reg.ctorIdx ≠ Reg.OPC_DECL.ctorIdx := fun h => hf (ctorIdx_inj h)
  unfold State.contexts State.wr
  refine filterMap_set (fun w => ?_) _ _
  unfold Fld.key
  split
  · next hkey _ => exact if_neg fun hd => hreg ((List.cons.inj hkey).1.trans hd.1)
  · rfl

/-- From `s` to `t` the declared contexts and the channels in use stay. -/
structure SameImage (s t : State) : Prop where
  contexts : t.contexts = s.contexts
  inUse : t.mem.inUse = s.mem.inUse

namespace SameImage

theorem refl (s : State) : SameImage s s := ⟨rfl, rfl⟩

theorem trans (h : SameImage s t) (h' : SameImage t u) : SameImage s u :=
  ⟨h'.contexts.trans h.contexts, h'.inUse.trans h.inUse⟩

theorem each {α : Type} {l : List α} {g : State → α → State} (h : SameImage s t) (hg : ∀ v a, SameImage v (g v a)) :
    SameImage s (t.each l g) := by
  induction l generalizing t with
  | nil => exact h
  | cons a l ih => exact ih (h.trans (hg t a))

theorem wr (h : SameImage s t) {f : Fld} {v i j : Nat} (hf : f.reg ≠ .OPC_DECL) : SameImage s (t.wr f v i j) :=
  ⟨(contexts_wr hf ..).trans h.contexts, h.inUse⟩

theorem of_regs (hr : t.regs = s.regs) (hm : t.mem.inUse = s.mem.inUse) : SameImage s t :=
  ⟨by unfold State.contexts; rw [hr], hm⟩

theorem inc (h : SameImage s t) {f : Fld} {k i j : Nat} (hf : f.reg ≠ .OPC_DECL) : SameImage s (t.inc f k i j) :=
  (h.wr (v := min (t.rd f i j + k) (2 ^ f.width - 1)) (i := i) (j := j) hf).trans (.of_regs rfl rfl)

theorem latch (h : SameImage s t) {f : Fld} {i j : Nat} (hf : f.reg ≠ .OPC_DECL) : SameImage s (t.latch f i j) :=
  (h.wr (v := 1) (i := i) (j := j) hf).trans (.of_regs rfl rfl)

end SameImage

/-! What the reading of records does (R127, R373, R410). -/

theorem launch_regs (r : Ring) (m : FaultMsg) : (s.launch r m).regs = s.regs := by
  unfold State.launch
  split
  · rfl
  · obtain ⟨o, h⟩ := ringClaim_shape (s := { s with flt := { s.flt with flight := s.flt.flight ++ [(r, m)] } }) (r := r)
      (k := m.die) (p := m.packet)
    unfold State.ringEnter
    rw [h]

theorem sendFault_regs (m : FaultMsg) : (s.sendFault m).regs = s.regs := by
  unfold State.sendFault
  dsimp only
  split
  · rfl
  · split <;> split <;> simp only [launch_regs, mark_regs]

theorem raise_sameImage (s : State) (die src d : Nat) : SameImage s (s.raise die src d) := by
  refine .of_regs ?_ (congrArg MemState.inUse ((raise_foot (Sub.refl _) (Foot.refl _ s)).part .mem (by decide)))
  unfold State.raise State.raiseN
  dsimp only
  split
  · rfl
  · exact sendFault_regs _

theorem countChannel_sameImage (s : State) (a n : Nat) : SameImage s (s.countChannel a n) :=
  (SameImage.refl s).each fun v _ => (SameImage.refl v).inc (by decide)

theorem setGddr_sameImage (s : State) (a : Nat) (k : List Byte) : SameImage s (s.setGddr a k) := .of_regs rfl rfl

theorem gddrUncorr_sameImage (s : State) (a : Nat) : SameImage s (s.gddrUncorr a) := by
  unfold State.gddrUncorr
  exact ((((SameImage.refl s).inc (by decide)).wr (by decide)).wr (by decide)).trans (raise_sameImage ..)

theorem exactLoss_sameImage {f : Fld} (hf : f.reg ≠ .OPC_DECL) (s : State) : SameImage s (s.exactLoss f) := by
  unfold State.exactLoss
  dsimp only
  split
  · exact ((SameImage.refl s).wr (by decide)).latch hf
  · exact (SameImage.refl s).latch hf

theorem keepRecord_sameImage (s : State) (a : Nat) (k : List Byte) : SameImage s (s.keepRecord a k) :=
  (countChannel_sameImage ..).trans (setGddr_sameImage ..)

theorem captureRecords_sameImage (s : State) (x : Nat) : SameImage s (s.captureRecords x) := by
  have hwalk (w : State) : SameImage w (w.each (List.range (s.rd F.OPC_LIMIT_MAX_CHUNKS x)) (fun w c =>
      match w.gddrFailed (w.recordAddr x c) (recordSize (s.outFmt x)) with
      | none => w
      | some a =>
        let w := ((w.gddrUncorr a).inc F.NUM_STATE_LOST_COUNT).raise (stopMem (gddrDie a)) 20 x
        (w.exactLoss F.SCH_EXACT_LOSS_ECC).keepRecord (w.recordAddr x c) ((w.warmRecord x).bytes (recordSize (s.outFmt x))))) := by
    refine (SameImage.refl w).each fun v c => ?_
    split
    · exact .refl v
    · exact ((((gddrUncorr_sameImage ..).inc (by decide)).trans (raise_sameImage ..)).trans
        (exactLoss_sameImage (by decide) _)).trans (keepRecord_sameImage ..)
  have hread := (countChannel_sameImage s (s.recordAddr x 0) (s.recordBytes x)).trans (hwalk _)
  unfold State.captureRecords
  dsimp only
  split
  · unfold State.recountWarm
    exact hread.wr (by decide)
  · exact hread

/-! The length of an image. -/

theorem readN_length (m : Memory) (a n : Nat) : (m.readN a n).length = n := by
  unfold Memory.readN
  rw [List.length_map, List.length_range]

theorem length_bytesLE (n v : Nat) : (bytesLE n v).length = n := by
  induction n generalizing v with
  | zero => rfl
  | succ n ih =>
    unfold bytesLE
    rw [List.length_cons, ih]

/-- R373: 128 bytes of header, 16 for each context, and the records. -/
theorem imageBytes_length (s : State) (l : Nat) (e : Epoch) : (s.imageBytes l e).length =
    128 + 16 * s.contexts.length + ((s.imageContexts e.covered).map (fun x => s.recordBytes x)).sum := by
  unfold State.imageBytes
  simp only [List.length_append, length_bytesLE, List.length_flatMap, readN_length, List.map_const', List.sum_replicate,
    smul_eq_mul]
  omega

/-- Between these states an image is of one length. -/
theorem imageBytes_length_congr {m : Nat} (hf : Foot m s t) (hi : SameImage s t)
    (hm : [Reg.OPC_DECL, .OPC_LIMIT, .LST_CFG].all (fun r => !m.testBit r.ctorIdx) = true) (l : Nat) (e : Epoch) :
    (t.imageBytes l e).length = (s.imageBytes l e).length := by
  have hbit : ∀ r ∈ [Reg.OPC_DECL, .OPC_LIMIT, .LST_CFG], m.testBit r.ctorIdx = false := fun r hr => by
    rw [← Bool.not_eq_true']
    exact List.all_eq_true.mp hm r hr
  have hdecl {f : Fld} (h : f.reg ∈ [Reg.OPC_DECL, .OPC_LIMIT, .LST_CFG]) (i : Nat) : t.rd f i = s.rd f i := hf.rd _ _ _ (hbit _ h)
  have hcontexts : t.imageContexts e.covered = s.imageContexts e.covered := by
    unfold State.imageContexts State.roundsOutput State.kind State.operator State.inFmt State.level State.lastOf
    simp (disch := decide) only [hi.contexts, hdecl]
  have hrecord (x : Nat) : t.recordBytes x = s.recordBytes x := by
    unfold State.recordBytes State.outFmt
    simp (disch := decide) only [hdecl]
  simp only [imageBytes_length, hi.contexts, hcontexts, hrecord]

/-- A write of GDDR7 succeeds where no channel of it has failed (R409). -/
theorem gddrWrite_fst (s : State) (a : Nat) (k : List Byte) : (s.gddrWrite a k).1 = (s.gddrFailed a k.length).isNone := by
  have hfailed : (s.countChannel a k.length).gddrFailed a k.length = s.gddrFailed a k.length :=
    gddrFailed_congr (countChannel_sameImage ..).inUse (fun _ => (countChannel_foot (Sub.refl _) (Foot.refl _ s)).rd _ _ _ (by decide)) _ _
  unfold State.gddrWrite
  dsimp only
  rw [hfailed]
  cases s.gddrFailed a k.length <;> rfl

/-- The state when the records of an epoch's image have been read. -/
def State.recordsRead (s : State) (e : Epoch) : State := s.each (s.imageContexts e.covered) State.captureRecords

/-- The registers and parts that the reading of records may change. -/
def recordsFoot : Nat := 0x806000000000000003800002000100001000000000000000000000000000000000000000000000

theorem recordsRead_foot (s : State) (e : Epoch) : Foot recordsFoot s (s.recordsRead e) :=
  each_foot' (Foot.refl _ s) fun _ _ h => captureRecords_foot (show _ &&& recordsFoot = _ by decide) h

theorem recordsRead_sameImage (s : State) (e : Epoch) : SameImage s (s.recordsRead e) :=
  (SameImage.refl s).each fun v x => captureRecords_sameImage v x

/-- What the end of the cut of l writes, and where. -/
def State.cutImage (s : State) (l : Nat) (e : Epoch) : List Byte := (s.imageBytes l e).take (4096 * (s.imagePart l).2)
def State.cutAddr (s : State) (l : Nat) (e : Epoch) : Nat := s.sporeBase + e.buffer * s.sporeHalf + 4096 * (s.imagePart l).1

theorem recordsRead_imagePart (s : State) (e : Epoch) (l : Nat) : (s.recordsRead e).imagePart l = s.imagePart l := by
  have hrd {f : Fld} (h : recordsFoot.testBit f.reg.ctorIdx = false) (i j : Nat) : (s.recordsRead e).rd f i j = s.rd f i j :=
    (recordsRead_foot s e).rd f i j h
  unfold State.imagePart State.sporeLasts State.lasts State.groups State.sporeHalf
  simp (disch := decide) only [flag_eq, hrd]

/-- The reading of the records leaves whether the image can be written. -/
theorem recordsRead_gddrWrite (s : State) (l : Nat) (e : Epoch) :
    ((s.recordsRead e).gddrWrite ((s.recordsRead e).cutAddr l e) ((s.recordsRead e).cutImage l e)).1 =
      (s.gddrWrite (s.cutAddr l e) (s.cutImage l e)).1 := by
  have hrd {f : Fld} (h : recordsFoot.testBit f.reg.ctorIdx = false) (i j : Nat) : (s.recordsRead e).rd f i j = s.rd f i j :=
    (recordsRead_foot s e).rd f i j h
  have haddr : (s.recordsRead e).cutAddr l e = s.cutAddr l e := by
    unfold State.cutAddr State.sporeBase State.sporeHalf
    rw [recordsRead_imagePart, hrd (by decide), hrd (by decide)]
  have hlength : ((s.recordsRead e).cutImage l e).length = (s.cutImage l e).length := by
    unfold State.cutImage
    rw [recordsRead_imagePart, List.length_take, List.length_take,
      imageBytes_length_congr (recordsRead_foot s e) (recordsRead_sameImage s e) (by decide)]
  rw [gddrWrite_fst, gddrWrite_fst, hlength, haddr,
    gddrFailed_congr (recordsRead_sameImage s e).inUse fun _ => hrd (by decide) _ _]

end Sys2Proof.Machine
end

section
/-!
SUPPORT. The ends of an epoch: its cut ends or has lasted too long (R349, R350), its drain is complete (R354), it closes
(R355).
-/

namespace Sys2Proof.Machine

variable {s t u : State} {x st l : Nat} {e : Epoch} {d : Drain} {rest : List Drain}

@[simp] theorem wr_sporeLast (s : State) (f : Fld) (v i j k : Nat) : (s.wr f v i j).sporeLast k = s.sporeLast k := rfl
@[simp] theorem inc_sporeLast (s : State) (f : Fld) (v i j k : Nat) : (s.inc f v i j).sporeLast k = s.sporeLast k := rfl
@[simp] theorem setSpore_rd (s : State) (k : Nat) (g : SporeLast → SporeLast) (f : Fld) (i j : Nat) :
    (s.setSpore k g).rd f i j = s.rd f i j := rfl
@[simp] theorem syncDrain_sporeLast (s : State) (k : Nat) : s.syncDrain.sporeLast k = s.sporeLast k := rfl
@[simp] theorem syncHeld_sporeLast (s : State) (k l : Nat) : (s.syncHeld k).sporeLast l = s.sporeLast l := rfl

theorem syncDrain_rd {f : Fld} (h : f.key 0 0 ≠ F.CKP_DRAIN_BYTES_LEFT.key 0 0) (s : State) (i j : Nat) :
    s.syncDrain.rd f i j = s.rd f i j := rd_wr_other _ _ _ _ _ _ _ _ h

theorem syncHeld_rd {f : Fld} (h : f.key 0 0 ≠ F.CKP_LAST_STAT_HELD.key 0 0) (s : State) (k i j : Nat) :
    (s.syncHeld k).rd f i j = s.rd f i j := rd_wr_other _ _ _ _ _ _ _ _ h

theorem setCkp_sporeLast (s : State) (k v l : Nat) : (s.setCkp k v).sporeLast l = s.sporeLast l := by
  unfold State.setCkp
  split <;> rfl

theorem setCkp_rd {f : Fld} (h : f.key 0 0 ≠ F.CKP_LAST_STAT_STATE.key 0 0) (s : State) (k v i j : Nat) :
    (s.setCkp k v).rd f i j = s.rd f i j := by
  unfold State.setCkp
  split
  · rfl
  · exact rd_wr_other _ _ _ _ _ _ _ _ h

theorem setCkp_state (h : (s.sporeLast l).recovery = none) (v : Nat) :
    (s.setCkp l v).rd F.CKP_LAST_STAT_STATE l = v % 2 ^ 3 := by
  unfold State.setCkp
  rw [h, if_neg (by decide), rd_wr_same]
  rfl

theorem takeHeld_fst (s : State) (l : Nat) : (s.takeHeld l).1 = (s.sporeLast l).held := rfl

/-- What the cut of l held has been taken from it. -/
def State.heldTaken (s : State) (l : Nat) : State := (s.takeHeld l).2

theorem heldTaken_sporeLast (s : State) (l : Nat) : (s.heldTaken l).sporeLast l = (s.sporeLast l).unheld :=
  setSpore_same s l _

theorem heldTaken_rd {f : Fld} (h : f.key 0 0 ≠ F.CKP_LAST_STAT_HELD.key 0 0) (s : State) (l i j : Nat) :
    (s.heldTaken l).rd f i j = s.rd f i j := syncHeld_rd h ..

/-! An epoch that ends without being DONE (R350, R357). -/

/-- What an epoch that is dropped leaves of its last: the drains of other epochs. -/
def SporeLast.dropped (k : SporeLast) : SporeLast :=
  { k with epoch := none, drains := k.drains.filter (fun d => k.epoch.all (fun e => e.number != d.epoch)) }

theorem dropEpoch_sporeLast (s : State) (l : Nat) : (s.dropEpoch l).sporeLast l = (s.sporeLast l).dropped := by
  have hset : (((s.setSpore l SporeLast.dropped).syncDrain).inc F.CKP_EVENTS_ABORTED).sporeLast l = (s.sporeLast l).dropped := by
    rw [inc_sporeLast, syncDrain_sporeLast, setSpore_same]
  unfold State.dropEpoch
  dsimp only
  split
  · rw [wr_sporeLast]
    exact hset
  · exact hset

theorem dropEpoch_aborted (s : State) (l : Nat) : (s.dropEpoch l).rd F.CKP_EVENTS_ABORTED 0 =
    min (s.rd F.CKP_EVENTS_ABORTED 0 + 1) (2 ^ F.CKP_EVENTS_ABORTED.width - 1) := by
  have hinc : ((s.setSpore l SporeLast.dropped).syncDrain.inc F.CKP_EVENTS_ABORTED).rd F.CKP_EVENTS_ABORTED 0 =
      min (s.rd F.CKP_EVENTS_ABORTED 0 + 1) (2 ^ F.CKP_EVENTS_ABORTED.width - 1) := by
    rw [rd_inc_same, syncDrain_rd (by decide), setSpore_rd]
  unfold State.dropEpoch
  dsimp only
  split
  · exact (rd_wr_other _ _ _ _ _ _ _ _ (by decide)).trans hinc
  · exact hinc

/-- The epoch of l has ended without being DONE; its operations are still to close. -/
def State.epochDropped (s : State) (l : Nat) : State := (s.dropEpoch l).heldTaken l

theorem abortEpoch_eq (h : (s.sporeLast l).held = []) : s.abortEpoch l =
    (s.epochDropped l).work ((s.epochContexts l).map (Work.close · stAborted)) := by
  have hheld : ((s.dropEpoch l).takeHeld l).1 = [] := by
    rw [takeHeld_fst, dropEpoch_sporeLast]
    exact h
  unfold State.abortEpoch
  dsimp only
  rw [hheld, List.map_nil, List.append_nil]
  rfl

theorem epochDropped_epoch (s : State) (l : Nat) : ((s.epochDropped l).sporeLast l).epoch = none := by
  unfold State.epochDropped
  rw [heldTaken_sporeLast, dropEpoch_sporeLast]
  rfl

theorem epochDropped_aborted (s : State) (l : Nat) : (s.epochDropped l).rd F.CKP_EVENTS_ABORTED 0 =
    min (s.rd F.CKP_EVENTS_ABORTED 0 + 1) (2 ^ F.CKP_EVENTS_ABORTED.width - 1) :=
  (heldTaken_rd (by decide) ..).trans (dropEpoch_aborted s l)

theorem epochDropped_foot (s : State) (l : Nat) :
    Foot 0x400000000000000000280008000000000000000000000000000000000000000000000000000000 s (s.epochDropped l) :=
  takeHeld_foot (show _ &&& _ = _ by decide) (dropEpoch_foot (show _ &&& _ = _ by decide) (Foot.refl _ s))

/-- The contexts of an epoch's operations are of its last, with nothing held for their next operations. -/
def State.epochAlone (s : State) (l : Nat) : Prop :=
  (s.epochContexts l).all (fun x => s.lastOf x == l && (s.op x).early.isEmpty) = true

theorem epochAlone_iff : s.epochAlone l ↔ ∀ x ∈ s.epochContexts l, s.lastOf x = l ∧ s.noneEarly x := by
  unfold State.epochAlone State.noneEarly
  simp only [List.all_eq_true, Bool.and_eq_true, beq_iff_eq, List.isEmpty_iff]

theorem mem_epochContexts (h : x ∈ s.epochContexts l) : s.ctxState x ≠ ctxIdle ∧ s.ctxState x ≠ ctxUndeclared := by
  have hp := (List.mem_filter.mp h).2
  simpa only [Bool.and_eq_true, bne_iff_ne] using hp

/-- R350: the epoch is gone, its operations are closing, and it is counted. -/
theorem abortEpoch_aborts (hheld : (s.sporeLast l).held = []) (halone : s.epochAlone l) :
    ((s.abortEpoch l).sporeLast l).epoch = none ∧ (∀ x ∈ s.epochContexts l, (s.abortEpoch l).ctxState x = ctxClosing) ∧
    (s.abortEpoch l).rd F.CKP_EVENTS_ABORTED 0 = min (s.rd F.CKP_EVENTS_ABORTED 0 + 1) (2 ^ F.CKP_EVENTS_ABORTED.width - 1) := by
  have hfoot := epochDropped_foot s l
  have hclosable : ∀ x ∈ s.epochContexts l, Closable stAborted (s.epochDropped l) x := by
    intro x hx
    obtain ⟨hlast, hearly⟩ := epochAlone_iff.mp halone x hx
    obtain ⟨hidle, hundeclared⟩ := mem_epochContexts hx
    have hlast' : (s.epochDropped l).lastOf x = l := (hfoot.rd F.OPC_DECL_LAST _ _ (by decide)).trans hlast
    have hstate : (s.epochDropped l).ctxState x = s.ctxState x := hfoot.rd F.OPC_STATE_STATE _ _ (by decide)
    refine ⟨noneEarly_of_ctx (hfoot.ctx (by decide)) hearly, .inr (hlast'.symm ▸ epochDropped_epoch s l), ?_⟩
    unfold State.begun
    rw [hstate]
    by_cases hc : s.ctxState x = ctxClosing
    · exact .inl hc
    · exact .inr fun h => h.elim hidle (·.elim hundeclared hc)
  obtain ⟨hclosed, hended⟩ := work_closings hclosable
  rw [abortEpoch_eq hheld]
  exact ⟨(hclosed.epochs.epoch l).trans (epochDropped_epoch s l), hended, hclosed.epochs.aborted.trans (epochDropped_aborted s l)⟩

/-- R350: CUT_MS has passed before the cut has ended. -/
theorem cutTimeout_eq (he : (s.sporeLast l).epoch = some e) (hc : e.cut = true) (hdue : e.since + ms (s.rd F.CKP_CFG_CUT_MS) ≤ s.now) :
    s.cutTimeout l = (s.abortEpoch l).raise stopMgt 57 l := by
  unfold State.cutTimeout
  rw [he]
  dsimp only
  rw [hc, decide_eq_false (Nat.not_lt.mpr hdue)]
  rfl

/-- A raise on the management die is before the collector at once, with its detail (R378). -/
theorem raise_mgt_inbox (hnow : s.now = n) (src d : Nat) :
    ∃ m : FaultMsg, (n, m) ∈ (s.raise stopMgt src d).flt.inbox ∧ m.source = src ∧ m.n = 1 ∧ m.detail = d :=
  ⟨{ die := stopMgt, source := src, n := 1, detail := d, level := false, seq := 0 }, hnow ▸ mem_deliver_inbox _, rfl, rfl, rfl⟩

theorem raise_mgt_eq (s : State) (src d : Nat) : s.raise stopMgt src d =
    s.deliver { die := stopMgt, source := src, n := 1, detail := d, level := false, seq := 0 } := by
  unfold State.raise State.raiseN
  exact if_pos rfl

@[simp] theorem raise_mgt_rd (s : State) (src d : Nat) (f : Fld) (i j : Nat) : (s.raise stopMgt src d).rd f i j = s.rd f i j := by
  rw [raise_mgt_eq]
  rfl

@[simp] theorem raise_mgt_sporeLast (s : State) (src d k : Nat) : (s.raise stopMgt src d).sporeLast k = s.sporeLast k := by
  rw [raise_mgt_eq]
  rfl

/-! A cut that ends (R349). -/

/-- The cut of l has ended, with the image written. -/
def State.cutEnded (s : State) (l : Nat) (e : Epoch) : State :=
  (((s.recordsRead e).gddrWrite ((s.recordsRead e).cutAddr l e) ((s.recordsRead e).cutImage l e)).2.setSpore l (fun k =>
    { k with epoch := some { e with cut := false } })).setCkp l ckpStream

theorem cutEnded_sporeLast (s : State) (l : Nat) (e : Epoch) :
    (s.cutEnded l e).sporeLast l = { s.sporeLast l with epoch := some { e with cut := false } } := by
  have hwritten : ((s.recordsRead e).gddrWrite ((s.recordsRead e).cutAddr l e) ((s.recordsRead e).cutImage l e)).2.sporeLast l =
      s.sporeLast l :=
    ((gddrWrite_foot (Sub.refl _) (Foot.refl _ _)).sporeLast (by decide) l).trans ((recordsRead_foot s e).sporeLast (by decide) l)
  unfold State.cutEnded
  rw [setCkp_sporeLast, setSpore_same, hwritten]

theorem cutEnded_state (h : (s.sporeLast l).recovery = none) (e : Epoch) :
    (s.cutEnded l e).rd F.CKP_LAST_STAT_STATE l = ckpStream := by
  have hlast := cutEnded_sporeLast s l e
  unfold State.cutEnded at hlast ⊢
  rw [setCkp_sporeLast] at hlast
  rw [setCkp_state ((congrArg SporeLast.recovery hlast).trans h)]
  rfl

theorem cutEnd_eq (he : (s.sporeLast l).epoch = some e) (hc : e.cut = true) (hd : s.allDescribed l = true)
    (hr : s.allRest l e.covered = true) (hheld : (s.sporeLast l).held = [])
    (hw : (s.gddrWrite (s.cutAddr l e) (s.cutImage l e)).1 = true) :
    s.cutEnd l = ((s.cutEnded l e).heldTaken l).epochCommitted l := by
  have hnone : ((s.cutEnded l e).takeHeld l).1 = [] := by
    rw [takeHeld_fst, cutEnded_sporeLast]
    exact hheld
  have hwritten := (recordsRead_gddrWrite s l e).trans hw
  have hpart := recordsRead_imagePart s e l
  unfold State.cutEnded at hnone
  unfold State.cutEnd State.heldTaken State.cutEnded
  rw [he]
  dsimp only
  rw [hc, hd, hr]
  unfold State.cutAddr State.cutImage at hwritten hnone ⊢
  unfold State.recordsRead at hwritten hnone hpart ⊢
  rw [hpart] at hwritten hnone ⊢
  rw [hwritten, hnone]
  simp only [Bool.not_true, Bool.or_false, Bool.false_eq_true, if_false, List.map_nil, work_nil]

/-- What an epoch shows as it goes on. -/
def Epoch.shown (e : Epoch) : Nat × Bool × Nat × Option Nat := (e.number, e.cut, e.buffer, e.full)

/-- R354: an epoch that is committed goes on; its last lingers, where it is in no recovery. -/
theorem epochCommitted_shown (he : (s.sporeLast l).epoch = some e) :
    ((s.epochCommitted l).sporeLast l).epoch.map Epoch.shown = some e.shown := by
  unfold State.epochCommitted
  rw [he]
  dsimp only
  split
  · rw [he]
    rfl
  · split
    · rw [wr_sporeLast, setSpore_same]
      rfl
    · rw [wr_sporeLast, wr_sporeLast, setSpore_same]
      rfl

theorem epochCommitted_state (s : State) (l : Nat) :
    (s.epochCommitted l).rd F.CKP_LAST_STAT_STATE l = s.rd F.CKP_LAST_STAT_STATE l ∨
    (s.epochCommitted l).rd F.CKP_LAST_STAT_STATE l = ckpLinger := by
  unfold State.epochCommitted
  split
  · exact .inl rfl
  dsimp only
  split
  · exact .inl rfl
  · split
    · exact .inl (rd_wr_other _ _ _ _ _ _ _ _ (by decide))
    · exact .inr (rd_wr_same ..)

/-- R349: the epoch goes on with its cut ended. -/
theorem cutEnd_goesOn (he : (s.sporeLast l).epoch = some e) (hc : e.cut = true) (hd : s.allDescribed l = true)
    (hr : s.allRest l e.covered = true) (hheld : (s.sporeLast l).held = [])
    (hw : (s.gddrWrite (s.cutAddr l e) (s.cutImage l e)).1 = true) :
    ((s.cutEnd l).sporeLast l).epoch.map Epoch.shown = some (e.number, false, e.buffer, e.full) ∧
    ((s.sporeLast l).recovery = none → (s.cutEnd l).rd F.CKP_LAST_STAT_STATE l = ckpStream ∨
      (s.cutEnd l).rd F.CKP_LAST_STAT_STATE l = ckpLinger) := by
  have hepoch : (((s.cutEnded l e).heldTaken l).sporeLast l).epoch = some { e with cut := false } := by
    rw [heldTaken_sporeLast, cutEnded_sporeLast]
    rfl
  rw [cutEnd_eq he hc hd hr hheld hw]
  refine ⟨epochCommitted_shown hepoch, fun hrec => ?_⟩
  have hstate : ((s.cutEnded l e).heldTaken l).rd F.CKP_LAST_STAT_STATE l = ckpStream :=
    (heldTaken_rd (by decide) ..).trans (cutEnded_state hrec e)
  exact (epochCommitted_state _ l).imp_left (·.trans hstate)

/-- R349: while a condition is not met, the cut goes on. -/
theorem cutEnd_waits (he : (s.sporeLast l).epoch = some e)
    (h : e.cut = false ∨ s.allDescribed l = false ∨ s.allRest l e.covered = false) : s.cutEnd l = s := by
  unfold State.cutEnd
  rw [he]
  refine if_pos ?_
  rcases h with h | h | h <;> simp only [h, Bool.not_false, Bool.true_or, Bool.or_true]

/-! A drain that is complete (R353, R354). -/

/-- The oldest drain of l is complete. -/
def State.drained (s : State) (l : Nat) (d : Drain) (rest : List Drain) : State :=
  let s := (s.setSpore l (fun k => { k with drains := rest, securedSlot := some d.buffer })).wr F.CKP_EPOCH_SECURED d.epoch l
  let s := match d.full with
    | none => s
    | some slot => (s.setSpore l (fun k => { k with fullSlot := some slot, fullImage := some d.buffer })).wr F.CKP_FULL_EPOCH d.epoch l
  s.syncDrain

theorem drained_sporeLast (s : State) (l : Nat) (d : Drain) (rest : List Drain) :
    ((s.drained l d rest).sporeLast l).drains = rest ∧ ((s.drained l d rest).sporeLast l).securedSlot = some d.buffer := by
  unfold State.drained
  dsimp only
  rw [syncDrain_sporeLast]
  cases d.full with
  | none =>
    dsimp only
    rw [wr_sporeLast, setSpore_same]
    exact ⟨rfl, rfl⟩
  | some slot =>
    dsimp only
    rw [wr_sporeLast, setSpore_same, wr_sporeLast, setSpore_same]
    exact ⟨rfl, rfl⟩

theorem drained_secured (s : State) (l : Nat) (d : Drain) (rest : List Drain) :
    (s.drained l d rest).rd F.CKP_EPOCH_SECURED l = d.epoch % 2 ^ 32 := by
  unfold State.drained
  dsimp only
  rw [syncDrain_rd (by decide)]
  cases d.full with
  | none => exact rd_wr_same ..
  | some slot =>
    dsimp only
    rw [rd_wr_other _ _ _ _ _ _ _ _ (by decide), setSpore_rd, rd_wr_same]
    rfl

theorem drained_full (s : State) (l : Nat) (d : Drain) (rest : List Drain) : (s.drained l d rest).rd F.CKP_FULL_EPOCH l =
    if d.full = none then s.rd F.CKP_FULL_EPOCH l else d.epoch % 2 ^ 32 := by
  unfold State.drained
  dsimp only
  rw [syncDrain_rd (by decide)]
  cases d.full with
  | none =>
    dsimp only
    rw [if_pos rfl, rd_wr_other _ _ _ _ _ _ _ _ (by decide), setSpore_rd]
  | some slot =>
    dsimp only
    rw [if_neg (Option.some_ne_none slot), rd_wr_same]
    rfl

/-- The registers and parts that the copy of a buffer to the tier may change. -/
def copyFoot : Nat := 0x82600000000000000200000000000000000007a680000000000000000000000000000000000000

/-- R354: the granules pass through a staging block; then the drain is complete. -/
theorem epochSecured_eq (hd : (s.sporeLast l).drains = d :: rest)
    (hsound : ((s.drainGranules l).find? (fun k => (s.gddrFailed (s.sporeBase + d.buffer * s.sporeHalf + 4096 * k)
      4096).isSome)) = none) (hup : s.tierUp = true) (hdue : d.since + s.drainCycles l d ≤ s.now)
    (hahead : s.aheadOfOthers ((((s.drainGranules l).map (fun k => gddrDie (s.sporeBase + d.buffer * s.sporeHalf + 4096 *
      k))).eraseDups).map (4096 * ·)) 4096 = false)
    (hgrant : (s.allocNow (stagingBlock (4096 * (s.drainGranules l).length)) 19 (reqMem 0)).1.isSome = true) :
    ∃ v, Foot copyFoot s v ∧ s.epochSecured l none = v.drained l d rest := by
  obtain ⟨p, hp⟩ := Option.isSome_iff_exists.mp hgrant
  have halloc := allocNow_foot (item := stagingBlock (4096 * (s.drainGranules l).length)) (account := 19) (requester := reqMem 0)
    (show _ &&& copyFoot = _ by decide) (Foot.refl copyFoot s)
  unfold State.epochSecured
  rw [hd]
  dsimp only
  rw [hsound]
  dsimp only [Option.or, Option.map]
  rw [hup, decide_eq_false (Nat.not_lt.mpr hdue), hahead]
  generalize s.allocNow (stagingBlock (4096 * (s.drainGranules l).length)) 19 (reqMem 0) = granted at hp halloc
  obtain ⟨q, w⟩ := granted
  subst hp
  refine ⟨_, ?_, rfl⟩
  refine each_foot' (freeObj_foot (show _ &&& copyFoot = _ by decide) (each_foot' halloc fun v _ hv => ?_)) fun v k hv => ?_
  · exact countBlock_foot (show _ &&& copyFoot = _ by decide) hv
  · exact sporeWrite_foot (show _ &&& copyFoot = _ by decide) (countChannel_foot (show _ &&& copyFoot = _ by decide) hv)

/-! An epoch that closes (R355). -/

/-- The epoch of l is DONE; its operations are still to close. -/
def State.epochCounted (s : State) (l : Nat) (e : Epoch) : State :=
  (((s.setSpore l (fun k => { k with epoch := none, anyClosed := true, lastClose := some s.now, doneBuf := some e.buffer })).wr
    F.CKP_EPOCH_DONE e.number l).inc F.CKP_EVENTS_EPOCHS).setCkp l ckpIdle

theorem epochDone_eq (s : State) (l : Nat) (e : Epoch) :
    s.epochDone l e = (s.epochCounted l e).work ((s.epochContexts l).map (Work.close · stDone)) := rfl

theorem epochCounted_sporeLast (s : State) (l : Nat) (e : Epoch) : (s.epochCounted l e).sporeLast l =
    { s.sporeLast l with epoch := none, anyClosed := true, lastClose := some s.now, doneBuf := some e.buffer } := by
  unfold State.epochCounted
  rw [setCkp_sporeLast, inc_sporeLast, wr_sporeLast, setSpore_same]

theorem epochCounted_done (s : State) (l : Nat) (e : Epoch) :
    (s.epochCounted l e).rd F.CKP_EPOCH_DONE l = e.number % 2 ^ 32 := by
  unfold State.epochCounted
  rw [setCkp_rd (by decide), rd_inc_other _ _ _ _ _ _ _ _ (by decide), rd_wr_same]
  rfl

theorem epochCounted_epochs (s : State) (l : Nat) (e : Epoch) : (s.epochCounted l e).rd F.CKP_EVENTS_EPOCHS 0 =
    min (s.rd F.CKP_EVENTS_EPOCHS 0 + 1) (2 ^ F.CKP_EVENTS_EPOCHS.width - 1) := by
  unfold State.epochCounted
  rw [setCkp_rd (by decide), rd_inc_same, rd_wr_other _ _ _ _ _ _ _ _ (by decide), setSpore_rd]

/-- The registers and parts that an epoch that is counted may change. -/
def countedFoot : Nat := 0x400000000000000000200018000000000000000000000000000000000000000000000000000000

theorem epochCounted_foot (s : State) (l : Nat) (e : Epoch) : Foot countedFoot s (s.epochCounted l e) :=
  setCkp_foot (show _ &&& countedFoot = _ by decide) (inc_foot (by decide) (wr_foot (by decide)
    (setSpore_foot (show _ &&& countedFoot = _ by decide) (Foot.refl _ s))))

/-- R355: the epoch is DONE, and its operations have closed. -/
theorem epochDone_closes (hflush : ∀ x ∈ s.epochContexts l, s.ctxState x = ctxFlush) (halone : s.epochAlone l) :
    Closings stDone (s.epochCounted l e) (s.epochDone l e) ∧ ∀ x ∈ s.epochContexts l, (s.epochDone l e).ctxState x = ctxIdle := by
  have hfoot := epochCounted_foot s l e
  rw [epochDone_eq]
  refine work_closings fun x hx => ?_
  have hstate : (s.epochCounted l e).ctxState x = ctxFlush :=
    (hfoot.rd F.OPC_STATE_STATE _ _ (by decide)).trans (hflush x hx)
  refine ⟨noneEarly_of_ctx (hfoot.ctx (by decide)) (epochAlone_iff.mp halone x hx).2, .inl rfl, .inr ?_⟩
  unfold State.begun
  rw [hstate]
  decide

/-- R355: what the last shows of an epoch that has closed. -/
theorem epochDone_sporeLast (h : Closings stDone (s.epochCounted l e) (s.epochDone l e)) :
    ((s.epochDone l e).sporeLast l).epoch = none ∧ ((s.epochDone l e).sporeLast l).anyClosed = true ∧
    ((s.epochDone l e).sporeLast l).doneBuf = some e.buffer ∧ ((s.epochDone l e).sporeLast l).lastClose = some s.now := by
  have hcounted := epochCounted_sporeLast s l e
  rw [h.epochs.epoch, h.epochs.field (f := SporeLast.anyClosed) l fun _ => rfl, h.epochs.field (f := SporeLast.doneBuf) l fun _ => rfl,
    h.epochs.field (f := SporeLast.lastClose) l fun _ => rfl, hcounted]
  exact ⟨rfl, rfl, rfl, rfl⟩

theorem epochDone_done (s : State) (l : Nat) (e : Epoch) : (s.epochDone l e).rd F.CKP_EPOCH_DONE l = e.number % 2 ^ 32 :=
  ((work_foot (Sub.refl _) (Foot.refl _ (s.epochCounted l e))).rd _ _ _ (by decide)).trans (epochCounted_done s l e)

theorem epochClose_eq (he : (s.sporeLast l).epoch = some e) (hready : s.epochReady l e = true)
    (hwait : ∀ z, (s.sporeLast l).lastClose = some z → z + secs (s.rd F.CKP_CAD_STAT_INTERVAL_S) ≤ s.now)
    (hflush : (s.epochContexts l).all (fun x => s.ctxState x == ctxFlush) = true) : s.epochClose l = s.epochDone l e := by
  unfold State.epochClose
  rw [he]
  dsimp only
  rw [hready, hflush]
  cases hc : (s.sporeLast l).lastClose with
  | none => rfl
  | some z =>
    exact if_pos (by simp only [decide_eq_true (hwait z hc), Bool.and_self])

/-! A tier write that fails (R372). -/

theorem tierWriteFail_eq (hd : (s.sporeLast l).drains = d :: rest) (i k : Nat) : s.tierWriteFail l i k =
    ((((s.setSpore l (fun b => { b with drains := { d with acked := max d.acked (min k d.total) } :: rest })).inc
      F.MEM_CXL_ERR_WRITE_FAIL 1 i).inc F.CKP_DRAIN_ERRORS).syncDrain).raise stopMgt 58 l := by
  unfold State.tierWriteFail
  rw [hd]

@[simp] theorem setSpore_now (s : State) (k : Nat) (g : SporeLast → SporeLast) : (s.setSpore k g).now = s.now := rfl

theorem tierWriteFail_raises (hd : (s.sporeLast l).drains = d :: rest) (i k : Nat) :
    ∃ m : FaultMsg, (s.now, m) ∈ (s.tierWriteFail l i k).flt.inbox ∧ m.source = 58 ∧ m.n = 1 ∧ m.detail = l := by
  rw [tierWriteFail_eq hd]
  refine raise_mgt_inbox ?_ 58 l
  unfold State.syncDrain
  rw [wr_now, inc_now, inc_now, setSpore_now]

theorem tierWriteFail_counts (hd : (s.sporeLast l).drains = d :: rest) (i k : Nat) :
    ((s.tierWriteFail l i k).sporeLast l).drains = { d with acked := max d.acked (min k d.total) } :: rest ∧
    (s.tierWriteFail l i k).rd F.MEM_CXL_ERR_WRITE_FAIL i =
      min (s.rd F.MEM_CXL_ERR_WRITE_FAIL i + 1) (2 ^ F.MEM_CXL_ERR_WRITE_FAIL.width - 1) ∧
    (s.tierWriteFail l i k).rd F.CKP_DRAIN_ERRORS 0 = min (s.rd F.CKP_DRAIN_ERRORS 0 + 1) (2 ^ F.CKP_DRAIN_ERRORS.width - 1) := by
  rw [tierWriteFail_eq hd, raise_mgt_sporeLast, raise_mgt_rd, raise_mgt_rd]
  refine ⟨?_, ?_, ?_⟩
  · rw [syncDrain_sporeLast, inc_sporeLast, inc_sporeLast, setSpore_same]
  · rw [syncDrain_rd (by decide), rd_inc_other _ _ _ _ _ _ _ _ (by decide), rd_inc_same, setSpore_rd]
  · rw [syncDrain_rd (by decide), rd_inc_same, rd_inc_other _ _ _ _ _ _ _ _ (by decide), setSpore_rd]

end Sys2Proof.Machine
end

section
/-!
SUPPORT. The lichen monitor's scores (R358, R359) and the checkpoint cadence (R360).
-/

namespace Sys2Proof.Machine

variable {s : State}

/-- R358: a score is at most 128. -/
theorem score_le (n d lo hi : Nat) : score n d lo hi ≤ 128 := by
  unfold score
  split
  · exact Nat.zero_le _
  split
  · exact Nat.le_refl _
  · refine Nat.div_le_of_le_mul ?_
    rw [Nat.mul_comm ((hi - lo) * d), Nat.sub_mul]
    exact Nat.mul_le_mul_left _ (by omega)

theorem foldl_max_le {α : Type} {g : α → Nat} {m : Nat} (h : ∀ a, g a ≤ m) (l : List α) {b : Nat} (hb : b ≤ m) :
    l.foldl (fun w a => max w (g a)) b ≤ m :=
  List.foldlRecOn (motive := (· ≤ m)) l _ hb fun _ hw a _ => Nat.max_le.mpr ⟨hw, h a⟩

/-- R358: what the monitor scores: the FEC trend, the temperatures, the corrected errors of the last minute, the failures of the
last hour. -/
def State.fecScore (s : State) : Nat :=
  s.watchedPorts.foldl (fun w p => max w (score (16 * 60 * s.rd F.PRT_FEC_TREND_SHORT p) (max (s.rd F.PRT_FEC_TREND_LONG p) 60)
    (s.rd F.CKP_LICHEN_THR_LO 0) (s.rd F.CKP_LICHEN_THR_HI 0))) 0
def State.laserScore (s : State) : Nat := s.biasScore (s.rd F.CKP_LICHEN_THR_LO 1) (s.rd F.CKP_LICHEN_THR_HI 1)
def State.tempScore (s : State) : Nat :=
  score (((List.range 40).map (fun i => tempNat (s.rd F.PWR_TEMP_TEMP i)) ++
    (List.range 16).map (fun e => tempNat (s.rd F.PRT_LSM_STAT_TEMP e))).foldl max 0) 8 (s.rd F.CKP_LICHEN_THR_LO 2)
    (s.rd F.CKP_LICHEN_THR_HI 2)
def State.eccScore (s : State) : Nat :=
  score (s.spore.eccSum - s.spore.eccRecent.getD 59 0) 1 (s.rd F.CKP_LICHEN_THR_LO 3) (s.rd F.CKP_LICHEN_THR_HI 3)
def State.residueScore (s : State) : Nat :=
  score (s.comp.failures.filter (fun z => decide (s.now < z + secs 3600))).length 1 (s.rd F.CKP_LICHEN_THR_LO 4)
    (s.rd F.CKP_LICHEN_THR_HI 4)

theorem fecScore_le (s : State) : s.fecScore ≤ 128 := foldl_max_le (fun _ => score_le ..) _ (Nat.zero_le _)

theorem laserScore_le (s : State) : s.laserScore ≤ 128 := by
  unfold State.laserScore State.biasScore
  refine List.foldlRecOn (motive := (· ≤ 128)) _ _ (Nat.zero_le _) fun w hw e _ => ?_
  refine List.foldlRecOn (motive := (· ≤ 128)) _ _ hw fun v hv f _ => ?_
  dsimp only
  split
  · exact hv
  · exact Nat.max_le.mpr ⟨hv, score_le ..⟩

/-- R358: the risk: the weighted sum of the scores. -/
def State.lichenRisk (s : State) : Nat :=
  min 65535 ((List.zipWith (· * ·) [s.rd F.CKP_LICHEN_W_W_FEC, s.rd F.CKP_LICHEN_W_W_BIAS, s.rd F.CKP_LICHEN_W_W_TEMP,
    s.rd F.CKP_LICHEN_W_W_ECC, s.rd F.CKP_LICHEN_W_W_RESIDUE] [s.fecScore, s.laserScore, s.tempScore, s.eccScore,
    s.residueScore]).foldl (· + ·) 0 / 8)

theorem lichenRisk_eq (s : State) : s.lichenRisk = min 65535 ((s.rd F.CKP_LICHEN_W_W_FEC * s.fecScore +
    s.rd F.CKP_LICHEN_W_W_BIAS * s.laserScore + s.rd F.CKP_LICHEN_W_W_TEMP * s.tempScore +
    s.rd F.CKP_LICHEN_W_W_ECC * s.eccScore + s.rd F.CKP_LICHEN_W_W_RESIDUE * s.residueScore) / 8) := by
  unfold State.lichenRisk
  simp only [List.zipWith_cons_cons, List.zipWith_nil_left, List.foldl_cons, List.foldl_nil, Nat.zero_add]

/-- The risk and the scores are shown. -/
def State.lichenShown (s : State) : State :=
  (((((s.wr F.CKP_LICHEN_RISK s.lichenRisk).wr F.CKP_LICHEN_S_FEC s.fecScore).wr F.CKP_LICHEN_S_BIAS s.laserScore).wr
    F.CKP_LICHEN_S_TEMP s.tempScore).wr F.CKP_LICHEN_S_ECC s.eccScore).wr F.CKP_LICHEN_S_RESIDUE s.residueScore

/-- R359: the alert follows the risk. -/
def State.lichenAlert (s : State) : Bool := decide (16 * s.lichenShown.rd F.CKP_LICHEN_W_ALERT ≤ s.lichenRisk)
def State.lichenTold (s : State) : State :=
  { s.lichenShown with spore := { s.lichenShown.spore with
      alert := s.lichenAlert, eccRecent := (s.spore.eccSum :: s.spore.eccRecent).take 60 } }

theorem lichenUpdate_eq (s : State) : s.lichenUpdate =
    if s.lichenAlert && !s.lichenShown.spore.alert then s.lichenTold.raise stopMgt 59 else s.lichenTold := by
  unfold State.lichenUpdate State.lichenTold State.lichenAlert State.lichenShown State.lichenRisk State.fecScore State.laserScore
    State.tempScore State.eccScore State.residueScore
  simp only [List.getD_cons_zero, List.getD_cons_succ]

theorem lichenTold_rd (s : State) (f : Fld) (i j : Nat) : s.lichenTold.rd f i j = s.lichenShown.rd f i j := by
  unfold State.lichenTold
  exact rd_with_spore ..

theorem lichenUpdate_rd (s : State) (f : Fld) (i j : Nat) : s.lichenUpdate.rd f i j = s.lichenShown.rd f i j := by
  rw [lichenUpdate_eq]
  split
  · exact (raise_mgt_rd ..).trans (lichenTold_rd ..)
  · exact lichenTold_rd ..

theorem lichenUpdate_alert (s : State) : s.lichenUpdate.spore.alert = s.lichenAlert := by
  rw [lichenUpdate_eq]
  split
  · rw [raise_mgt_eq]
    rfl
  · rfl

/-- What the registers of the monitor show. -/
structure LichenShows (s t : State) : Prop where
  risk : t.rd F.CKP_LICHEN_RISK = s.lichenRisk
  fec : t.rd F.CKP_LICHEN_S_FEC = s.fecScore
  bias : t.rd F.CKP_LICHEN_S_BIAS = s.laserScore
  temp : t.rd F.CKP_LICHEN_S_TEMP = s.tempScore
  ecc : t.rd F.CKP_LICHEN_S_ECC = s.eccScore
  residue : t.rd F.CKP_LICHEN_S_RESIDUE = s.residueScore
  alert : t.rd F.CKP_LICHEN_W_ALERT = s.rd F.CKP_LICHEN_W_ALERT

theorem lichenShown_shows (s : State) : LichenShows s s.lichenShown := by
  have hcut {v : Nat} (h : v ≤ 128) : v % 2 ^ 8 = v := Nat.mod_eq_of_lt (by omega)
  have hrisk : s.lichenRisk % 2 ^ 16 = s.lichenRisk := Nat.mod_eq_of_lt (by unfold State.lichenRisk; omega)
  unfold State.lichenShown
  constructor <;> simp (disch := decide) only [rd_wr_other, rd_wr_same]
  case risk => exact hrisk
  case fec => exact hcut (fecScore_le s)
  case bias => exact hcut (laserScore_le s)
  case temp => exact hcut (score_le ..)
  case ecc => exact hcut (score_le ..)
  case residue => exact hcut (score_le ..)

/-! The cadence (R360). -/

/-- R360: the base of the interval, with the members' seconds counted. -/
def State.cadenceBase (s : State) (seconds : Nat) : Nat :=
  min (2 ^ 32 - 1) (Nat.sqrt (2 * s.rd F.CKP_CAD_COST_MS * (seconds + 3600 * s.rd F.CKP_CAD_PRIOR_PRIOR_MH) /
    (1000 * (s.rd F.CKP_CAD_OBS_FAILURES + 1) * s.presentMembers)))

theorem cadenceUpdate_none (h : s.presentMembers = 0) : s.cadenceUpdate =
    (s.inc F.CKP_CAD_OBS_MEMBER_S 0).wr F.CKP_CAD_STAT_INTERVAL_S (s.rd F.CKP_CAD_T_MAX_S) := by
  unfold State.cadenceUpdate
  dsimp only
  rw [if_pos h, h, rd_inc_other _ _ _ _ _ _ _ _ (by decide)]

theorem cadenceUpdate_some (h : s.presentMembers ≠ 0) : s.cadenceUpdate =
    ((s.inc F.CKP_CAD_OBS_MEMBER_S s.presentMembers).wr F.CKP_CAD_STAT_BASE_S
      (s.cadenceBase ((s.inc F.CKP_CAD_OBS_MEMBER_S s.presentMembers).rd F.CKP_CAD_OBS_MEMBER_S))).wr F.CKP_CAD_STAT_INTERVAL_S
      (min (s.rd F.CKP_CAD_T_MAX_S) (max (s.rd F.CKP_CAD_T_MIN_S)
        (s.cadenceBase ((s.inc F.CKP_CAD_OBS_MEMBER_S s.presentMembers).rd F.CKP_CAD_OBS_MEMBER_S) * 256 /
          (256 + s.rd F.CKP_LICHEN_RISK)))) := by
  unfold State.cadenceUpdate State.cadenceBase
  dsimp only
  rw [if_neg h]
  simp (disch := decide) only [rd_inc_other]

end Sys2Proof.Machine
end

section
/-!
PROOFS. Epochs, the lichen monitor and the cadence (R349, R350, R354, R355, R358 to R360, R372).
-/

namespace Sys2Proof.Machine

/-- Settles O59: each command by what it comes to where its conditions are met; the operations that close with an epoch close
alone, and leave what the epoch has become. -/
theorem epochsAreCutSecuredAndClosed : Obligations.EpochsAreCutSecuredAndClosed := by
  unfold Obligations.EpochsAreCutSecuredAndClosed
  refine ⟨?cutEnd, ?cutWaits, ?timeout, ?secured, ?close, ?writeFail, ?lichen, ?cadence⟩
  case cutEnd =>
    intro s u e hs hu he hc hd hr hheld hw
    exact ⟨_, onActive_eq (f := fun s => (s.cutEnd u).settleAll) (decide_eq_true hu) hs, cutEnd_goesOn he hc hd hr hheld hw⟩
  case cutWaits =>
    intro s u e hs hu he hwait
    exact ⟨_, onActive_eq (f := fun s => (s.cutEnd u).settleAll) (decide_eq_true hu) hs, cutEnd_waits he hwait⟩
  case timeout =>
    intro s u e hs hu he hc hdue hheld halone
    obtain ⟨hepoch, hclosing, hcount⟩ := abortEpoch_aborts hheld halone
    refine ⟨_, onActive_eq (f := fun s => (s.cutTimeout u).settleAll) (decide_eq_true hu) hs, ?_⟩
    rw [cutTimeout_eq he hc hdue, raise_mgt_sporeLast, raise_mgt_rd]
    exact ⟨hepoch, fun x hx _ => (raise_mgt_rd ..).trans (hclosing x hx), hcount,
      raise_mgt_inbox (abortEpoch_keeps (Keeps.refl s) u).now 57 u⟩
  case secured =>
    intro s u d rest hs hu hd hsound hup hdue hahead hgrant
    obtain ⟨v, hfoot, hdrained⟩ := epochSecured_eq hd hsound hup hdue hahead hgrant
    refine ⟨_, onActive_eq (f := fun s => (s.epochSecured u none).settleAll) (decide_eq_true hu) hs, ?_⟩
    obtain ⟨hrest, hslot⟩ := drained_sporeLast v u d rest
    rw [hdrained, drained_full, hfoot.rd F.CKP_FULL_EPOCH _ _ (by decide)]
    exact ⟨hrest, hslot, drained_secured v u d rest, rfl⟩
  case close =>
    intro s u e hs hu he hready hwait hflush halone
    obtain ⟨hclosed, hidle⟩ := epochDone_closes (e := e) (fun x hx => beq_iff_eq.mp (List.all_eq_true.mp hflush x hx)) halone
    refine ⟨_, onActive_eq (f := fun s => (s.epochClose u).settleAll) (decide_eq_true hu) hs, ?_⟩
    rw [epochClose_eq he hready hwait hflush]
    exact ⟨epochDone_sporeLast hclosed, epochDone_done s u e, hclosed.epochs.epochs.trans (epochCounted_epochs s u e), hidle⟩
  case writeFail =>
    intro s u d rest i k hs hu hd hi
    obtain ⟨hdrains, hfails, herrors⟩ := tierWriteFail_counts hd i k
    exact ⟨_, onActive_eq (f := fun s => s.tierWriteFail u i k) (decide_eq_true ⟨hu, hi⟩) hs, hdrains, hfails, herrors,
      tierWriteFail_raises hd i k⟩
  case lichen =>
    intro s hs
    obtain ⟨hrisk, hfec, hbias, htemp, hecc, hresidue, halert⟩ := lichenShown_shows s
    refine ⟨_, onActive_eq rfl hs, ?_⟩
    simp only [lichenUpdate_rd, lichenUpdate_alert, hrisk, hfec, hbias, htemp, hecc, hresidue]
    refine ⟨lichenRisk_eq s, rfl, ?_⟩
    unfold State.lichenAlert
    rw [halert]
  case cadence =>
    intro s hs
    refine ⟨_, onActive_eq (f := State.cadenceUpdate) rfl hs, ?_⟩
    by_cases hnone : s.presentMembers = 0
    · rw [cadenceUpdate_none hnone, hnone]
      refine ⟨?_, fun _ => rd_wr_same .., fun h => absurd rfl h, fun h => absurd rfl h⟩
      rw [rd_wr_other _ _ _ _ _ _ _ _ (by decide), rd_inc_same]
    · have hbase (n : Nat) : s.cadenceBase n % 2 ^ 32 = s.cadenceBase n := Nat.mod_eq_of_lt (by unfold State.cadenceBase; omega)
      rw [cadenceUpdate_some hnone]
      simp (disch := decide) only [rd_wr_other, rd_wr_same]
      refine ⟨rd_inc_same .., fun h => absurd h hnone, fun _ => hbase _, fun _ => ?_⟩
      show _ = min _ (max _ (_ % 2 ^ 32 * 256 / _)) % _
      rw [hbase]

end Sys2Proof.Machine
end

section
/-!
SUPPORT. The failure of a member (R362, R363): its port is fenced, and every last with a member there pauses.
-/

namespace Sys2Proof.Machine

variable {s t u : State} {p l since : Nat}

/-- A last's state does not follow the fence bits (R218). -/
theorem setFences_rd_state (s : State) (f : Nat → Bool) (i j : Nat) :
    (s.setFences f).rd F.LST_STATE_STATE i j = s.rd F.LST_STATE_STATE i j := by
  have hwords : (s.fenceWords f).rd F.LST_STATE_STATE i j = s.rd F.LST_STATE_STATE i j :=
    (each_keeps _ (State.rd · F.LST_STATE_STATE i j) fun v k _ => rd_wr_other _ _ _ _ _ _ _ _ (by decide)).trans
      (each_keeps _ (State.rd · F.LST_STATE_STATE i j) fun v k _ =>
        (noteWas_foot (m := 0) (Foot.refl _ v)).rd _ _ _ (Nat.zero_testBit _))
  unfold State.setFences
  dsimp only
  split
  · rfl
  · show ((((((s.fenceWords f).fenceCount.syncFenced).each _ State.fenceDown).each _ State.fenceUp).syncFailing).rd
      F.LST_STATE_STATE i j) = _
    rw [(syncFailing_foot (Sub.refl _) (Foot.refl _ _)).rd _ _ _ (by decide),
      each_keeps _ (State.rd · F.LST_STATE_STATE i j) fun v k _ =>
        (fenceUp_foot (Sub.refl _) (Foot.refl _ v)).rd _ _ _ (by decide),
      each_keeps _ (State.rd · F.LST_STATE_STATE i j) fun v k _ =>
        (fenceDown_foot (Sub.refl _) (Foot.refl _ v)).rd _ _ _ (by decide),
      syncFenced_rd (by decide), (fenceCount_foot (Sub.refl _) (Foot.refl _ _)).rd _ _ _ (by decide), hwords]

/-- The port of a member that has failed is fenced, and no time runs for it any more. -/
def State.failFenced (s : State) (p : Nat) : State :=
  let s := s.setFences (fun q => q == p || s.fenced q)
  { s with sched := { s.sched with fenceSince := s.sched.fenceSince.set [p] none } }

theorem failFenced_rd (s : State) (p : Nat) (f : Fld) (i j : Nat) :
    (s.failFenced p).rd f i j = (s.setFences (fun q => q == p || s.fenced q)).rd f i j := rd_with_sched ..

theorem failFenced_fenced (s : State) (h : p < 256) : (s.failFenced p).fenced p = true := by
  unfold State.fenced
  rw [failFenced_rd]
  exact (setFences_fenced s _ h).trans (by rw [beq_self_eq_true, Bool.true_or])

/-- The registers and parts that the steps of R363 may change, but for the pausing and the count. -/
def failureFoot : Nat := 0x7e600000000000000028011c0009701090006fa6c0604000907ff0020000000000000000000000

/-- R363, steps 1 and 2: the epochs of the lasts `ts` end, DONE where they are ready; and the items that their cuts held. -/
def State.epochsEnded (s : State) (ts : List Nat) : State × List (Nat × HeldItem) :=
  let s := s.each ts (fun s t => match (s.sporeLast t).epoch with
    | none => s
    | some e => if s.epochReady t e then s.epochDone t e else s)
  (ts.filter (fun t => (s.sporeLast t).epoch.isSome)).foldl (fun (acc : State × List (Nat × HeldItem)) t =>
    let xs := acc.1.epochContexts t
    let (h, s) := (acc.1.dropEpoch t).takeHeld t
    (s.work (xs.map (fun x => Work.close x stAborted)), acc.2 ++ h)) (s, [])

theorem epochsEnded_foot (s : State) (ts : List Nat) : Foot failureFoot s (s.epochsEnded ts).1 := by
  unfold State.epochsEnded
  refine foldl_foot_fst (each_foot' (Foot.refl _ s) fun v l hv => ?done) fun acc l hacc => ?aborted
  case done =>
    split
    · exact hv
    · exact ite_foot (epochDone_foot (show _ &&& failureFoot = _ by decide) hv) hv
  case aborted =>
    exact work_foot (show _ &&& failureFoot = _ by decide) (takeHeld_foot (show _ &&& failureFoot = _ by decide)
      (dropEpoch_foot (show _ &&& failureFoot = _ by decide) hacc))

/-- R363, step 3, for a last with groups: it recovers, waiting for what paused with it, and the positions on port p are lost. -/
def State.positionsLost (s : State) (t p : Nat) (paused : List Nat) : State :=
  let s := s.setSpore t (fun l =>
    let r := l.recovery.getD {}
    { l with recovery := some { r with paused := (r.paused ++ paused).eraseDups } })
  s.each (s.groups t) (fun s g => s.each (List.range (s.rd F.CKP_GROUP_SIZE t g)) (fun s i =>
    if s.memberPort t (s.rd F.CKP_GROUP_BASE t g + i) = p then s.losePosition t g i else s))

/-- R363, steps 3 to 5, when the lasts `ts` have paused. -/
def State.lossesNoted (s : State) (ts spored paused : List Nat) (p : Nat) : State :=
  let s := s.each spored (fun s t => s.positionsLost t p paused)
  let s := s.each ts (fun s t =>
    let st := s.rd F.CKP_LAST_STAT_STATE t
    if st = ckpRestoring ∨ st = ckpLost then s else s.wr F.CKP_LAST_STAT_STATE ckpPaused t)
  s.each ts (fun s t => s.raise stopMgt 56 t)

theorem lossesNoted_foot (s : State) (ts spored paused : List Nat) (p : Nat) :
    Foot failureFoot s (s.lossesNoted ts spored paused p) := by
  unfold State.lossesNoted State.positionsLost
  refine each_foot' (each_foot' (each_foot' (Foot.refl _ s) fun v l hv => ?lost) fun v l hv => ?shown)
    fun v l hv => raise_foot (show _ &&& failureFoot = _ by decide) hv
  case lost =>
    refine each_foot' (setSpore_foot (show _ &&& failureFoot = _ by decide) hv) fun w g hw => each_foot' hw fun x i hx => ?_
    exact ite_foot (losePosition_foot (show _ &&& failureFoot = _ by decide) hx) hx
  case shown => exact ite_foot hv (wr_foot (by decide) hv)

/-- The lasts with a member on port p that have groups when it is fenced. -/
def State.sporedOn (s : State) (p : Nat) : List Nat := (s.lastsOn p).filter (fun t => !((s.failFenced p).groups t).isEmpty)

/-- The epochs of the lasts with a member on port p have ended. -/
def State.failEnded (s : State) (p : Nat) : State × List (Nat × HeldItem) := (s.failFenced p).epochsEnded (s.sporedOn p)

/-- R362, R363: what the failure of the member on port p comes to: the fence, the end of the epochs, the pausing, the losses, the
count, and the items that were held. -/
theorem memberFailed_eq (hsince : s.sched.fenceSince.get [p] = some since) (ha : s.accepted = true) (hl : l ∈ s.lastsOn p)
    (hdue : since + ms (s.rd F.CKP_CFG_GRACE_MS) ≤ s.now) :
    ∃ (v w : State) (items : List Work), Foot failureFoot (s.failFenced p) v ∧
      Foot failureFoot (v.each (s.lastsOn p) State.pauseLast) w ∧
      s.memberFailed p = (w.inc F.CKP_CAD_OBS_FAILURES).work items := by
  have hsome : (s.lastsOn p).isEmpty = false := by
    cases h : s.lastsOn p with
    | nil => exact absurd (h ▸ hl) List.not_mem_nil
    | cons _ _ => rfl
  refine ⟨(s.failEnded p).1, _, (s.failEnded p).2.map (fun h => Work.item h.1 h.2), epochsEnded_foot _ _,
    lossesNoted_foot _ (s.lastsOn p) (s.sporedOn p)
      ((s.lastsOn p).filter (fun t => (s.failEnded p).1.lastState t != lstPaused)) p, ?_⟩
  unfold State.memberFailed
  rw [hsince]
  dsimp only
  rw [if_neg (by simp [hsome, ha, hdue])]
  rfl

/-- R363: a last that is in use is PAUSED; no other last changes its state. -/
theorem pauseLast_lastState (s : State) (k l : Nat) : (s.pauseLast k).lastState l =
    if l = k ∧ s.lastState k ≠ lstEmpty then lstPaused else s.lastState l := by
  have hgrants (v : State) : (v.sendGrants k 1 []).lastState l = v.lastState l :=
    (sendGrants_foot (Sub.refl _) (Foot.refl _ v)).rd _ _ _ (by decide)
  have hctx (v : State) (xs : List Nat) : (v.each xs State.pauseCtx).lastState l = v.lastState l :=
    each_keeps v (State.lastState · l) fun w x _ => (pauseCtx_foot (Sub.refl _) (Foot.refl _ w)).rd _ _ _ (by decide)
  have hwr : (s.wr F.LST_STATE_STATE lstPaused k).lastState l = if l = k then lstPaused else s.lastState l := by
    refine (rd_wr_instance ..).trans ?_
    simp only [and_true]
    rfl
  unfold State.pauseLast
  split
  · next h => rw [if_neg fun hc => hc.2 h]
  split
  · next h =>
    rw [hgrants]
    split
    · next hc => rw [hc.1, h]
    · rfl
  · next h _ =>
    dsimp only
    rw [hgrants, hctx, hwr]
    simp only [ne_eq, h, not_false_eq_true, and_true]

theorem each_pauseLast_paused {ls : List Nat} (hl : l ∈ ls) (h : s.lastState l ≠ lstEmpty) :
    (s.each ls State.pauseLast).lastState l = lstPaused := by
  refine each_establish (Q := fun v => v.lastState l ≠ lstEmpty) (p := fun v => v.lastState l = lstPaused) ?_ ?_ hl ?_ h
  · intro v k hv
    rw [pauseLast_lastState]
    split
    · decide
    · exact hv
  · intro v k _ _ hv
    rw [pauseLast_lastState]
    split
    · rfl
    · exact hv
  · intro v hv
    rw [pauseLast_lastState, if_pos ⟨rfl, hv⟩]

/-- R362, R363: the port is fenced, the lasts with a member there are PAUSED, and the failure is counted. -/
theorem memberFailed_pauses (hp : p < 256) (hsince : s.sched.fenceSince.get [p] = some since) (ha : s.accepted = true)
    (hl : l ∈ s.lastsOn p) (hused : s.lastState l ≠ lstEmpty) (hdue : since + ms (s.rd F.CKP_CFG_GRACE_MS) ≤ s.now) :
    (s.memberFailed p).fenced p = true ∧ (s.memberFailed p).lastState l = lstPaused ∧
    (s.memberFailed p).rd F.CKP_CAD_OBS_FAILURES 0 =
      min (s.rd F.CKP_CAD_OBS_FAILURES 0 + 1) (2 ^ F.CKP_CAD_OBS_FAILURES.width - 1) := by
  obtain ⟨v, w, work, hv, hw, heq⟩ := memberFailed_eq hsince ha hl hdue
  have hwork := work_foot (l := work) (Sub.refl _) (Foot.refl _ (w.inc F.CKP_CAD_OBS_FAILURES))
  rw [heq]
  refine ⟨?fenced, ?paused, ?failures⟩
  case fenced =>
    have hports : ((w.inc F.CKP_CAD_OBS_FAILURES).work work).rd F.INS_FENCE_PORTS (p / 64) =
        (s.failFenced p).rd F.INS_FENCE_PORTS (p / 64) := by
      rw [hwork.rd _ _ _ (by decide), rd_inc_other _ _ _ _ _ _ _ _ (by decide), hw.rd _ _ _ (by decide),
        each_keeps v (State.rd · F.INS_FENCE_PORTS (p / 64)) fun u k _ =>
          (pauseLast_foot (Sub.refl _) (Foot.refl _ u)).rd _ _ _ (by decide), hv.rd _ _ _ (by decide)]
    exact (congrArg (Nat.testBit · (p % 64)) hports).trans (failFenced_fenced s hp)
  case paused =>
    have hbefore : v.lastState l = s.lastState l :=
      (hv.rd _ _ _ (by decide)).trans ((failFenced_rd ..).trans (setFences_rd_state ..))
    have hpaused : w.lastState l = lstPaused :=
      (hw.rd _ _ _ (by decide)).trans (each_pauseLast_paused hl (hbefore.symm ▸ hused))
    exact (hwork.rd _ _ _ (by decide)).trans ((rd_inc_other _ _ _ _ _ _ _ _ (by decide)).trans hpaused)
  case failures =>
    rw [hwork.rd _ _ _ (by decide), rd_inc_same, hw.rd _ _ _ (by decide),
      each_keeps v (State.rd · F.CKP_CAD_OBS_FAILURES 0) fun u k _ =>
        (pauseLast_foot (Sub.refl _) (Foot.refl _ u)).rd _ _ _ (by decide), hv.rd _ _ _ (by decide), failFenced_rd,
      (setFences_foot (Sub.refl _) (Foot.refl _ s)).rd _ _ _ (by decide)]

/-- R362: before GRACE_MS have passed the member has not failed. -/
theorem memberFailed_waits (hsince : s.sched.fenceSince.get [p] = some since)
    (hdue : s.now < since + ms (s.rd F.CKP_CFG_GRACE_MS)) : s.memberFailed p = s := by
  unfold State.memberFailed
  rw [hsince]
  dsimp only
  rw [decide_eq_true hdue, Bool.or_true, if_pos rfl]

end Sys2Proof.Machine
end

section
/-!
SUPPORT. The regrowth of a group (R365).
-/

namespace Sys2Proof.Machine

variable {s t u : State} {x l g : Nat}

@[simp] theorem setGroup_rd (s : State) (l g : Nat) (f : GroupRec → GroupRec) (h : Fld) (i j : Nat) :
    (s.setGroup l g f).rd h i j = s.rd h i j := rfl

@[simp] theorem setGroup_sporeLast (s : State) (l g : Nat) (f : GroupRec → GroupRec) (k : Nat) :
    (s.setGroup l g f).sporeLast k = s.sporeLast k := rfl

/-- What is kept of group g of last l. -/
def State.groupRec (s : State) (l g : Nat) : GroupRec := s.spore.groups.get [l, g]

theorem groupRec_congr (h : t.spore = s.spore) (l g : Nat) : t.groupRec l g = s.groupRec l g := by
  unfold State.groupRec
  rw [h]

theorem setGroup_groupRec (s : State) (l g : Nat) (f : GroupRec → GroupRec) :
    (s.setGroup l g f).groupRec l g = f (s.groupRec l g) := SMap.get_upd_same _ _ _

/-- R155: an operation that opens is OPEN. -/
theorem openOp_ctxState (s : State) (x : Nat) : (s.openOp x).ctxState x = ctxOpen := by
  have hlate (v : State) : (v.openLate x).ctxState x = v.ctxState x :=
    (openLate_foot (Sub.refl _) (Foot.refl _ v)).rd _ _ _ (by decide)
  have htimer (v : State) : (v.restartTimer x).ctxState x = v.ctxState x :=
    (restartTimer_foot (Sub.refl _) (Foot.refl _ v)).rd _ _ _ (by decide)
  rw [openOp_eq, hlate, htimer]
  unfold State.openRegs State.ctxState
  simp (disch := decide) only [rd_wr_other, rd_wr_same]
  rfl

/-- The operation of a group's regrowth is open in context x, with the tag of the latest epoch. -/
def State.regrowthOpened (s : State) (l g x : Nat) : State :=
  let s := s.unfenceLost l g
  let s := s.wr F.CKP_GROUP_STAT_STATE grpRegrowing l g
  let s := s.setGroup l g (fun r =>
    { lost := r.lost, rows := decodeRows (s.rd F.CKP_GROUP_SIZE l g) r.lost, opened := true })
  (s.openOp x).wr F.OPC_TAG_TAG (s.rd F.CKP_EPOCH_DONE l) x

/-- The registers and parts that the asking for the admission of chunks may change. -/
def askFoot : Nat := 0x200000000000000000000000000000000000000000004000000020000000000000000000000000

/-- R365: a regrowth opens, its last shows it, and its members are told to send. -/
theorem regrowthStart_eq (hvalid : s.flag F.CKP_GROUP_VALID l g = true) (hwait : s.groupState l g = grpWaiting)
    (hpresent : s.lostPresent l g = true) (hidle : s.ctxState (s.rd F.CKP_GROUP_REGROW_CTX l g) = ctxIdle)
    (hbeyond : s.beyond l g = false) :
    ∃ (v : State) (entries : List (Nat × Nat)), Foot askFoot (s.regrowthOpened l g (s.rd F.CKP_GROUP_REGROW_CTX l g)) v ∧
      s.regrowthStart l g = (v.wr F.CKP_LAST_STAT_STATE ckpRegrowing l).sendGrants l 1 entries := by
  unfold State.regrowthStart
  dsimp only
  rw [if_neg (by rw [hvalid, hwait, hpresent, hidle, hbeyond]; decide)]
  refine ⟨_, _, ?_, rfl⟩
  refine ite_foot (each_foot' (wr_foot (by decide) ?_) fun w c hw => askAdmission_foot (show _ &&& askFoot = _ by decide) hw) ?_
  · exact Foot.refl _ _
  · exact Foot.refl _ _

/-- The registers and parts that the clearing of fences may change. -/
def unfenceFoot : Nat := 0x176000000000000000000000000002c01091d7a640000000000000044000100000000000000000

theorem unfenceLost_footed (s : State) (l g : Nat) : Foot unfenceFoot s (s.unfenceLost l g) :=
  unfenceLost_foot (show _ &&& unfenceFoot = _ by decide) (Foot.refl _ s)

theorem regrowthOpened_groupState (s : State) (l g x : Nat) : (s.regrowthOpened l g x).groupState l g = grpRegrowing := by
  unfold State.regrowthOpened State.groupState
  dsimp only
  rw [rd_wr_other _ _ _ _ _ _ _ _ (by decide), (openOp_foot (Sub.refl _) (Foot.refl _ _)).rd _ _ _ (by decide), setGroup_rd,
    rd_wr_same]
  rfl

theorem regrowthOpened_groupRec (s : State) (l g x : Nat) : (s.regrowthOpened l g x).groupRec l g =
    { lost := s.lostPositions l g, rows := decodeRows (s.rd F.CKP_GROUP_SIZE l g) (s.lostPositions l g), opened := true } := by
  have hunfence := unfenceLost_footed s l g
  have hopen (v : State) : (v.openOp x).groupRec l g = v.groupRec l g :=
    groupRec_congr ((openOp_foot (Sub.refl _) (Foot.refl _ v)).spore (by decide)) l g
  have hrec : ((s.unfenceLost l g).wr F.CKP_GROUP_STAT_STATE grpRegrowing l g).groupRec l g = s.groupRec l g :=
    groupRec_congr (hunfence.spore (by decide)) l g
  unfold State.regrowthOpened
  dsimp only
  rw [groupRec_congr (wr_spore ..), hopen, setGroup_groupRec, hrec, rd_wr_other _ _ _ _ _ _ _ _ (by decide),
    hunfence.rd _ _ _ (by decide)]
  rfl

theorem regrowthOpened_ctxState (s : State) (l g x : Nat) : (s.regrowthOpened l g x).ctxState x = ctxOpen :=
  (rd_wr_other _ _ _ _ _ _ _ _ (by decide)).trans (openOp_ctxState ..)

theorem regrowthOpened_tag (s : State) (l g x : Nat) : (s.regrowthOpened l g x).rd F.OPC_TAG_TAG x =
    s.rd F.CKP_EPOCH_DONE l % 2 ^ F.OPC_TAG_TAG.width := by
  unfold State.regrowthOpened
  dsimp only
  rw [rd_wr_same, setGroup_rd, rd_wr_other _ _ _ _ _ _ _ _ (by decide), (unfenceLost_footed s l g).rd _ _ _ (by decide)]

/-- R365: what a group shows whose regrowth has begun, and its last and its context. -/
theorem regrowthStart_regrows (hvalid : s.flag F.CKP_GROUP_VALID l g = true) (hwait : s.groupState l g = grpWaiting)
    (hpresent : s.lostPresent l g = true) (hx : s.rd F.CKP_GROUP_REGROW_CTX l g = x) (hidle : s.ctxState x = ctxIdle)
    (hbeyond : s.beyond l g = false) :
    (s.regrowthStart l g).groupState l g = grpRegrowing ∧ (s.regrowthStart l g).rd F.CKP_LAST_STAT_STATE l = ckpRegrowing ∧
    ((s.regrowthStart l g).groupRec l g).rows = decodeRows (s.rd F.CKP_GROUP_SIZE l g) (s.lostPositions l g) ∧
    (s.regrowthStart l g).ctxState x = ctxOpen ∧
    (s.regrowthStart l g).rd F.OPC_TAG_TAG x = s.rd F.CKP_EPOCH_DONE l % 2 ^ F.OPC_TAG_TAG.width := by
  subst hx
  obtain ⟨v, entries, hv, heq⟩ := regrowthStart_eq hvalid hwait hpresent hidle hbeyond
  have hgrants := sendGrants_foot (t := l) (mode := 1) (entries := entries) (Sub.refl _)
    (Foot.refl _ (v.wr F.CKP_LAST_STAT_STATE ckpRegrowing l))
  have hshown : (v.wr F.CKP_LAST_STAT_STATE ckpRegrowing l).rd F.CKP_LAST_STAT_STATE l = ckpRegrowing := rd_wr_same ..
  rw [heq]
  refine ⟨?_, (hgrants.rd _ _ _ (by decide)).trans hshown, ?_, ?_, ?_⟩
  · exact (hgrants.rd _ _ _ (by decide)).trans ((rd_wr_other _ _ _ _ _ _ _ _ (by decide)).trans
      ((hv.rd _ _ _ (by decide)).trans (regrowthOpened_groupState ..)))
  · rw [groupRec_congr ((hgrants.spore (by decide)).trans ((wr_spore ..).trans (hv.spore (by decide)))), regrowthOpened_groupRec]
  · exact (hgrants.rd _ _ _ (by decide)).trans ((rd_wr_other _ _ _ _ _ _ _ _ (by decide)).trans
      ((hv.rd _ _ _ (by decide)).trans (regrowthOpened_ctxState ..)))
  · rw [hgrants.rd _ _ _ (by decide), rd_wr_other _ _ _ _ _ _ _ _ (by decide), hv.rd _ _ _ (by decide), regrowthOpened_tag]

end Sys2Proof.Machine
end

section
/-!
SUPPORT. A last with a group beyond regrowth: its groups are lost, or its restore begins (R369).
-/

namespace Sys2Proof.Machine

variable {s t u : State} {x l g : Nat} {r : Recovery}

/-- A state of a group that is set. -/
theorem groupState_wr {n : Nat} (hn : n < 8) (s : State) (l g : Nat) : (s.wr F.CKP_GROUP_STAT_STATE n l g).groupState l g = n :=
  (rd_wr_same ..).trans (Nat.mod_eq_of_lt hn)

theorem groupState_wr_other {h : Nat} (hg : g ≠ h) (s : State) (n l : Nat) :
    (s.wr F.CKP_GROUP_STAT_STATE n l h).groupState l g = s.groupState l g :=
  rd_wr_index _ _ _ _ _ _ _ fun hc => hg hc.2

/-- A walk over groups whose every step sets a field of its group, and of no other. -/
theorem each_sets {f : Fld} {n : Nat} {gs : List Nat} {step : State → Nat → State}
    (hset : ∀ v h, (step v h).rd f l h = n) (hother : ∀ v h, g ≠ h → (step v h).rd f l g = v.rd f l g) (hg : g ∈ gs)
    (s : State) : (s.each gs step).rd f l g = n := by
  refine each_establishes (P := fun v => v.rd f l g = n) hg (fun v => hset v g) (fun v h hv => ?_) s
  by_cases hgh : g = h
  · rw [hgh]
    exact hset v h
  · exact (hother v h hgh).trans hv

/-! Without a full epoch. -/

/-- The groups of l are LOST. -/
def State.groupsLost (s : State) (l : Nat) : State :=
  s.each (s.groups l) (fun s g => s.wr F.CKP_GROUP_STAT_STATE grpLost l g)

theorem groupsLost_groupState (hg : g ∈ s.groups l) : (s.groupsLost l).groupState l g = grpLost :=
  each_sets (fun v h => groupState_wr (by decide) v l h) (fun v h hgh => groupState_wr_other hgh v grpLost l) hg s

theorem restoreStart_lost (hr : (s.sporeLast l).recovery = some r) (hfull : r.full = none)
    (hbeyond : (s.groups l).any (s.beyond l) = true) (hnone : s.rd F.CKP_FULL_EPOCH l = noEpoch) :
    s.restoreStart l = ((s.groupsLost l).wr F.CKP_LAST_STAT_STATE ckpLost l).raise stopMgt 60 l := by
  unfold State.restoreStart
  dsimp only
  rw [hr]
  dsimp only
  rw [hfull]
  dsimp only
  rw [if_neg (by rw [hbeyond]; decide), if_pos hnone]
  rfl

/-- R369: the groups are lost, and source 60 is raised. -/
theorem restoreStart_loses (hr : (s.sporeLast l).recovery = some r) (hfull : r.full = none)
    (hbeyond : (s.groups l).any (s.beyond l) = true) (hnone : s.rd F.CKP_FULL_EPOCH l = noEpoch) :
    (∀ g ∈ s.groups l, (s.restoreStart l).groupState l g = grpLost) ∧
    (s.restoreStart l).rd F.CKP_LAST_STAT_STATE l = ckpLost ∧ (s.restoreStart l).lastState l = s.lastState l ∧
    ∃ m : FaultMsg, (s.now, m) ∈ (s.restoreStart l).flt.inbox ∧ m.source = 60 ∧ m.n = 1 ∧ m.detail = l := by
  rw [restoreStart_lost hr hfull hbeyond hnone]
  refine ⟨fun g hg => ?groups, ?shown, ?last, ?raised⟩
  case groups =>
    exact (raise_mgt_rd ..).trans ((rd_wr_other _ _ _ _ _ _ _ _ (by decide)).trans (groupsLost_groupState hg))
  case shown => exact (raise_mgt_rd ..).trans (rd_wr_same ..)
  case last =>
    refine (raise_mgt_rd ..).trans ((rd_wr_other _ _ _ _ _ _ _ _ (by decide)).trans ?_)
    exact each_keeps s (State.lastState · l) fun _ _ _ => rd_wr_other _ _ _ _ _ _ _ _ (by decide)
  case raised =>
    have hnow : ((s.groupsLost l).wr F.CKP_LAST_STAT_STATE ckpLost l).now = s.now :=
      (wr_now ..).trans (each_keeps s State.now fun _ _ _ => wr_now ..)
    exact raise_mgt_inbox hnow 60 l

/-! With a full epoch. -/

/-- The groups of l are RESTORING. -/
def State.groupsRestoring (s : State) (l : Nat) : State :=
  s.each (s.groups l) (fun s g =>
    (s.wr F.CKP_GROUP_STAT_STATE grpRestoring l g).setGroup l g (fun r => { lost := r.lost }))

theorem groupsRestoring_groupState (hg : g ∈ s.groups l) : (s.groupsRestoring l).groupState l g = grpRestoring :=
  each_sets (fun v h => (setGroup_rd ..).trans (groupState_wr (by decide) v l h))
    (fun v h hgh => (setGroup_rd ..).trans (groupState_wr_other hgh v grpRestoring l)) hg s

theorem groupsRestoring_sporeLast (s : State) (l k : Nat) : (s.groupsRestoring l).sporeLast k = s.sporeLast k :=
  each_keeps s (State.sporeLast · k) fun _ _ _ => (setGroup_sporeLast ..).trans (wr_sporeLast ..)

/-- The recovery of l goes to its full epoch. -/
def State.fallsBack (s : State) (l : Nat) (r : Recovery) (e : Nat) : State :=
  ((s.groupsRestoring l).setSpore l (fun k => { k with recovery := some { r with full := some (e, k.fullSlot.getD 0) } })).wr
    F.CKP_LAST_STAT_STATE ckpRestoring l

theorem fallsBack_recovery (s : State) (l : Nat) (r : Recovery) (e : Nat) :
    ((s.fallsBack l r e).sporeLast l).recovery = some { r with full := some (e, (s.sporeLast l).fullSlot.getD 0) } := by
  unfold State.fallsBack
  rw [wr_sporeLast, setSpore_same, groupsRestoring_sporeLast]

theorem restoreStart_restores (hr : (s.sporeLast l).recovery = some r) (hfull : r.full = none)
    (hbeyond : (s.groups l).any (s.beyond l) = true) (hsome : s.rd F.CKP_FULL_EPOCH l ≠ noEpoch)
    (hpresent : (s.groups l).all (s.lostPresent l) = true)
    (hidle : (s.groups l).all (fun g => s.ctxState (s.rd F.CKP_GROUP_REGROW_CTX l g) == ctxIdle) = true) :
    s.restoreStart l = (s.fallsBack l r (s.rd F.CKP_FULL_EPOCH l)).openRestores l (s.rd F.CKP_FULL_EPOCH l) (fun _ => true) := by
  have hclosed : ((s.groups l).map (fun g => s.rd F.CKP_GROUP_REGROW_CTX l g)).filter (fun x =>
      s.ctxState x != ctxIdle && s.ctxState x != ctxUndeclared) = [] := by
    refine List.filter_eq_nil_iff.mpr fun x hx => ?_
    obtain ⟨g, hg, rfl⟩ := List.mem_map.mp hx
    rw [beq_iff_eq.mp (List.all_eq_true.mp hidle g hg)]
    decide
  unfold State.restoreStart
  dsimp only
  rw [hr]
  dsimp only
  rw [hfull]
  dsimp only
  rw [if_neg (by rw [hbeyond]; decide), if_neg hsome, if_neg (by rw [hpresent]; decide), hclosed, List.map_nil, work_nil]
  rfl

/-- The operations of a restore that open change no last's epochs and recovery. -/
theorem openRestores_sporeLast (s : State) (l e : Nat) (ready : Nat → Bool) (k : Nat) :
    (s.openRestores l e ready).sporeLast k = s.sporeLast k := by
  unfold State.openRestores
  dsimp only
  split
  · rfl
  · refine ((sendGrants_foot (Sub.refl _) (Foot.refl _ _)).sporeLast (by decide) k).trans ?_
    refine each_keeps s (State.sporeLast · k) fun v g _ => ?_
    rw [setGroup_sporeLast, wr_sporeLast, wr_sporeLast, (openOp_foot (Sub.refl _) (Foot.refl _ _)).sporeLast (by decide),
      (unfenceLost_foot (Sub.refl _) (Foot.refl _ v)).sporeLast (by decide)]

/-- R369: the groups are restoring, and the recovery goes to the full epoch. -/
theorem restoreStart_fallsBack (hr : (s.sporeLast l).recovery = some r) (hfull : r.full = none)
    (hbeyond : (s.groups l).any (s.beyond l) = true) (hsome : s.rd F.CKP_FULL_EPOCH l ≠ noEpoch)
    (hpresent : (s.groups l).all (s.lostPresent l) = true)
    (hidle : (s.groups l).all (fun g => s.ctxState (s.rd F.CKP_GROUP_REGROW_CTX l g) == ctxIdle) = true) :
    (∀ g ∈ s.groups l, (s.restoreStart l).groupState l g = grpRestoring) ∧
    ((s.restoreStart l).sporeLast l).recovery =
      some { r with full := some (s.rd F.CKP_FULL_EPOCH l, (s.sporeLast l).fullSlot.getD 0) } ∧
    (s.restoreStart l).rd F.CKP_LAST_STAT_STATE l = ckpRestoring := by
  have hopen := openRestores_foot (t := l) (epoch := s.rd F.CKP_FULL_EPOCH l) (ready := fun _ => true) (Sub.refl _)
    (Foot.refl _ (s.fallsBack l r (s.rd F.CKP_FULL_EPOCH l)))
  rw [restoreStart_restores hr hfull hbeyond hsome hpresent hidle]
  refine ⟨fun g hg => ?_, ?_, ?_⟩
  · exact (hopen.rd _ _ _ (by decide)).trans ((rd_wr_other _ _ _ _ _ _ _ _ (by decide)).trans (groupsRestoring_groupState hg))
  · rw [openRestores_sporeLast, fallsBack_recovery]
  · exact (hopen.rd _ _ _ (by decide)).trans (rd_wr_same ..)

end Sys2Proof.Machine
end

section
/-!
SUPPORT. A last that has recovered is rolled back, and resumes with those that paused with it (R368).
-/

namespace Sys2Proof.Machine

variable {s t u : State} {x l g e : Nat} {r : Recovery}

/-- What a last shows of its recovery. -/
def SporeLast.recovering (k : SporeLast) : Option Recovery × Bool := (k.recovery, k.anyClosed)

/-! The image (R368, steps 1 and 2). -/

/-- From `s` to `t` every last keeps its recovery. -/
def RecoveryKept (s t : State) : Prop := ∀ k, (t.sporeLast k).recovering = (s.sporeLast k).recovering

theorem RecoveryKept.of_foot {m : Nat} (h : Foot m s t) (hspore : m.testBit 310 = false) : RecoveryKept s t :=
  fun k => congrArg SporeLast.recovering (h.sporeLast hspore k)

theorem RecoveryKept.trans (h : RecoveryKept s t) (h' : RecoveryKept t u) : RecoveryKept s u :=
  fun k => (h' k).trans (h k)

theorem afterFallback_recoveryKept (s : State) (l : Nat) (found : Option SporeImage) :
    RecoveryKept s (s.afterFallback l found) := by
  have hset (v : State) : RecoveryKept v (((v.inc F.CKP_EVENTS_FALLBACKS).setSpore l (fun k =>
      { k with doneBuf := if found.isSome then k.fullImage else none, drains := [] })).syncDrain) := by
    intro k
    rw [syncDrain_sporeLast]
    by_cases hk : k = l
    · rw [hk, setSpore_same, inc_sporeLast]
      rfl
    · rw [setSpore_other _ hk, inc_sporeLast]
  unfold State.afterFallback
  dsimp only
  split
  · exact (RecoveryKept.of_foot (reloadParity_foot (Sub.refl _) (Foot.refl _ s)) (by decide)).trans (hset _)
  · exact hset s

/-- The registers and parts that an image that is taken may change. -/
def imageFoot : Nat := 0x806000000000000083800000000900000000000000000000000000000000000000000000000000

/-- R368: where no operation is left to close, a rolled image leaves every last its recovery. -/
theorem rollImage_recoveryKept {xs : List Nat} (h : ∀ x ∈ xs, s.ctxState x = ctxIdle ∨ s.ctxState x = ctxUndeclared)
    (full : Bool) (bad : Option Nat) : RecoveryKept s (s.rollImage l e full xs bad) := by
  have hnone : xs.filter (fun x => s.ctxState x != ctxIdle && s.ctxState x != ctxUndeclared) = [] := by
    refine List.filter_eq_nil_iff.mpr fun x hx => ?_
    rcases h x hx with h | h <;> rw [h] <;> decide
  have hfallback (v : State) (found : Option SporeImage) : RecoveryKept v (if full then v.afterFallback l found else v) := by
    split
    · exact afterFallback_recoveryKept v l found
    · exact fun _ => rfl
  unfold State.rollImage
  rw [hnone, List.map_nil, work_nil]
  dsimp only
  refine RecoveryKept.trans (.of_foot (m := imageFoot) ?_ (by decide)) (hfallback _ _)
  have himage {b : Nat} : Foot imageFoot s (s.epochImage l e b bad).2 :=
    epochImage_foot (show _ &&& imageFoot = _ by decide) (Foot.refl _ s)
  split
  · exact applyImage_foot (show _ &&& imageFoot = _ by decide) himage
  · exact each_foot' himage fun v x hv => warmUp_foot (show _ &&& imageFoot = _ by decide) hv

/-- The contexts of the lasts that a cut of l covers. -/
def State.coveredContexts (s : State) (l : Nat) : List Nat :=
  s.contexts.filter (fun x => (s.coveredBy l).contains (s.lastOf x))

/-- The epoch to which a recovery returns. -/
def State.returnsTo (s : State) (l : Nat) (r : Recovery) : Nat := (r.full.map Prod.fst).getD (s.rd F.CKP_EPOCH_DONE l)

/-- The image and the epoch to which l returns are there, not after a plan load, which has restored the image itself. -/
def State.imageRolled (s : State) (l : Nat) (r : Recovery) (bad : Option Nat) : State :=
  let e := s.returnsTo l r
  let v := (if r.loaded then s else s.rollImage l e r.full.isSome (s.coveredContexts l) bad).wr F.CKP_EPOCH_DONE e l
  if r.loaded then v.wr F.CKP_FULL_EPOCH e l else v

/-- The registers and parts that a rolled image may change, with the epochs. -/
def rolledFoot : Nat := 0xfe6000000000000083a8013c0009701090006fa6c0604000907ff0020000000000000000000000

theorem imageRolled_foot (s : State) (l : Nat) (r : Recovery) (bad : Option Nat) : Foot rolledFoot s (s.imageRolled l r bad) := by
  have himage : Foot rolledFoot s (if r.loaded then s else s.rollImage l (s.returnsTo l r) r.full.isSome (s.coveredContexts l) bad) :=
    ite_foot (Foot.refl _ s) (rollImage_foot (show _ &&& rolledFoot = _ by decide) (Foot.refl _ s))
  exact ite_foot (wr_foot (by decide) (wr_foot (by decide) himage)) (wr_foot (by decide) himage)

theorem imageRolled_recoveryKept (h : ∀ x ∈ s.coveredContexts l, s.ctxState x = ctxIdle ∨ s.ctxState x = ctxUndeclared)
    (r : Recovery) (bad : Option Nat) : RecoveryKept s (s.imageRolled l r bad) := by
  have hroll := rollImage_recoveryKept (l := l) (e := s.returnsTo l r) h r.full.isSome bad
  unfold State.imageRolled
  dsimp only
  intro k
  cases r.loaded with
  | true => rw [if_pos rfl, if_pos rfl, wr_sporeLast, wr_sporeLast]
  | false => rw [if_neg (by decide), if_neg (by decide), wr_sporeLast, hroll]

theorem imageRolled_done (s : State) (l : Nat) (r : Recovery) (bad : Option Nat) :
    (s.imageRolled l r bad).rd F.CKP_EPOCH_DONE l = s.returnsTo l r % 2 ^ 32 := by
  unfold State.imageRolled
  dsimp only
  split
  · rw [rd_wr_other _ _ _ _ _ _ _ _ (by decide), rd_wr_same]
    rfl
  · rw [rd_wr_same]
    rfl

/-! The groups, and the last's own recovery (R368, step 3). -/

/-- The groups `gs` of l are protected again, with nothing lost. -/
def State.groupsProtected (s : State) (l : Nat) (gs : List Nat) : State :=
  s.each gs (fun s g => ((s.wr F.CKP_GROUP_STAT_STATE grpProtected l g).setLost l g []).setGroup l g (fun _ => {}))

/-- The recovery of l is over. -/
def State.recovered (s : State) (l : Nat) (r : Recovery) : State :=
  (s.setSpore l (fun k => { k with recovery := none, anyClosed := k.anyClosed && r.full.isNone })).wr F.CKP_LAST_STAT_STATE ckpIdle l

theorem groupsProtected_state {gs : List Nat} (hg : g ∈ gs) : (s.groupsProtected l gs).groupState l g = grpProtected := by
  have hstep (v : State) (h k : Nat) : (((v.wr F.CKP_GROUP_STAT_STATE grpProtected l h).setLost l h []).setGroup l h
      (fun _ => {})).groupState l k = (v.wr F.CKP_GROUP_STAT_STATE grpProtected l h).groupState l k := by
    refine (setGroup_rd ..).trans ?_
    unfold State.setLost
    rw [rd_wr_other _ _ _ _ _ _ _ _ (by decide), rd_wr_other _ _ _ _ _ _ _ _ (by decide)]
    exact rd_with_spore ..
  exact each_sets (fun v h => (hstep v h h).trans (groupState_wr (by decide) v l h))
    (fun v h hgh => (hstep v h g).trans (groupState_wr_other hgh v grpProtected l)) hg s

theorem groupsProtected_lost {gs : List Nat} (hg : g ∈ gs) : (s.groupsProtected l gs).rd F.CKP_GROUP_STAT_LOST l g = 0 := by
  have hstep (v : State) (h k : Nat) : (((v.wr F.CKP_GROUP_STAT_STATE grpProtected l h).setLost l h []).setGroup l h
      (fun _ => {})).rd F.CKP_GROUP_STAT_LOST l k = if k = h then 0 else v.rd F.CKP_GROUP_STAT_LOST l k := by
    refine (setGroup_rd ..).trans ?_
    unfold State.setLost
    rw [rd_wr_other _ _ _ _ _ _ _ _ (by decide), rd_wr_instance, rd_with_spore, rd_wr_other _ _ _ _ _ _ _ _ (by decide)]
    simp only [true_and]
    rfl
  exact each_sets (fun v h => (hstep v h h).trans (if_pos rfl)) (fun v h hgh => (hstep v h g).trans (if_neg hgh)) hg s

/-- The registers and parts in which a last that has recovered shows it, once the image is rolled. -/
def recoveredFoot : Nat := 0x400000000000000000000108000000000000000000000000000000000000000000000000000000

theorem groupsProtected_foot (s : State) (l : Nat) (gs : List Nat) : Foot recoveredFoot s (s.groupsProtected l gs) :=
  each_foot' (Foot.refl _ s) fun v g hv => setGroup_foot (show _ &&& recoveredFoot = _ by decide)
    (setLost_foot (show _ &&& recoveredFoot = _ by decide) (wr_foot (by decide) hv))

theorem groupsProtected_sporeLast (s : State) (l : Nat) (gs : List Nat) (k : Nat) :
    (s.groupsProtected l gs).sporeLast k = s.sporeLast k :=
  each_keeps s (State.sporeLast · k) fun v g _ => by
    rw [setGroup_sporeLast]
    unfold State.setLost
    rw [wr_sporeLast, wr_sporeLast]
    exact sporeLast_congr rfl k

theorem recovered_recovering (s : State) (l : Nat) (r : Recovery) :
    ((s.recovered l r).sporeLast l).recovering = (none, (s.sporeLast l).anyClosed && r.full.isNone) := by
  unfold State.recovered
  rw [wr_sporeLast, setSpore_same]
  rfl

theorem recovered_other {k : Nat} (h : k ≠ l) (s : State) (r : Recovery) : (s.recovered l r).sporeLast k = s.sporeLast k := by
  unfold State.recovered
  rw [wr_sporeLast, setSpore_other _ h]

/-- l has recovered: its image, its groups, its recovery. -/
def State.rolledBack (s : State) (l : Nat) (r : Recovery) (bad : Option Nat) : State :=
  ((s.imageRolled l r bad).groupsProtected l (s.groups l)).recovered l r

theorem rollback_eq {active : List Nat} (hr : (s.sporeLast l).recovery = some r)
    (hactive : (s.groups l).filter (fun g => s.groupState l g == grpRegrowing || s.groupState l g == grpRestoring) = active)
    (hsome : active ≠ []) (hdone : (s.groups l).all (fun g => s.groupState l g == grpProtected ||
      (active.contains g && (s.spore.groups.get [l, g]).finished)) = true) (bad : Option Nat) :
    s.rollback l bad = ((s.rolledBack l r bad).resumeLasts (l :: r.paused).eraseDups).settleAll := by
  have hnonempty : active.isEmpty = false := Bool.eq_false_iff.mpr fun h => hsome (List.isEmpty_iff.mp h)
  unfold State.rollback
  rw [hr]
  dsimp only
  rw [hactive, hnonempty, hdone, if_neg (by decide)]
  rfl

/-! The lasts that resume (R368, step 4). -/

/-- A last is ACTIVE again, and its members are told to send. -/
def State.resumeLast (s : State) (l : Nat) : State :=
  let s := (s.wr F.LST_STATE_STATE lstActive l).sendGrants l 2 []
  if s.rd F.CKP_LAST_STAT_STATE l = ckpPaused then s.wr F.CKP_LAST_STAT_STATE ckpIdle l else s

/-- A last waits while it recovers, or paused with one that does. -/
def State.waitsOn (s : State) (l : Nat) : Bool :=
  s.lasts.any (fun v => match (s.sporeLast v).recovery with
    | none => false
    | some q => v == l || q.paused.contains l)

theorem resumeLasts_eq (s : State) (ls : List Nat) : ∃ xs, s.resumeLasts ls =
    (s.each (ls.filter (fun l => s.lastState l == lstPaused && !s.waitsOn l)) State.resumeLast).each xs State.resumeCtx :=
  ⟨_, rfl⟩

theorem waitsOn_none (h : ∀ k ∈ s.lasts, (s.sporeLast k).recovery = none) (l : Nat) : s.waitsOn l = false := by
  refine List.any_eq_false.mpr fun k hk => ?_
  rw [h k hk]
  exact Bool.false_ne_true

theorem resumeLast_lastState (s : State) (k l : Nat) :
    (s.resumeLast k).lastState l = if l = k then lstActive else s.lastState l := by
  have hactive : ((s.wr F.LST_STATE_STATE lstActive k).sendGrants k 2 []).lastState l = if l = k then lstActive else s.lastState l := by
    refine ((sendGrants_foot (Sub.refl _) (Foot.refl _ _)).rd _ _ _ (by decide)).trans ((rd_wr_instance ..).trans ?_)
    simp only [and_true]
    rfl
  unfold State.resumeLast
  dsimp only
  split
  · exact (rd_wr_other _ _ _ _ _ _ _ _ (by decide)).trans hactive
  · exact hactive

/-- A last that shows no recovery goes on showing none. -/
theorem resumeLast_idle (h : s.rd F.CKP_LAST_STAT_STATE l = ckpIdle) (k : Nat) :
    (s.resumeLast k).rd F.CKP_LAST_STAT_STATE l = ckpIdle := by
  have hkept : ((s.wr F.LST_STATE_STATE lstActive k).sendGrants k 2 []).rd F.CKP_LAST_STAT_STATE l = ckpIdle :=
    ((sendGrants_foot (Sub.refl _) (Foot.refl _ _)).rd _ _ _ (by decide)).trans
      ((rd_wr_other _ _ _ _ _ _ _ _ (by decide)).trans h)
  unfold State.resumeLast
  dsimp only
  split
  · rw [rd_wr_instance, hkept]
    exact ite_self _
  · exact hkept

theorem resumeLasts_resumes {ls : List Nat} (hl : l ∈ ls) (hpaused : s.lastState l = lstPaused)
    (hnone : ∀ k ∈ s.lasts, (s.sporeLast k).recovery = none) (hidle : s.rd F.CKP_LAST_STAT_STATE l = ckpIdle) :
    (s.resumeLasts ls).lastState l = lstActive ∧ (s.resumeLasts ls).rd F.CKP_LAST_STAT_STATE l = ckpIdle := by
  obtain ⟨xs, heq⟩ := resumeLasts_eq s ls
  have hin : l ∈ ls.filter (fun l => s.lastState l == lstPaused && !s.waitsOn l) := by
    refine List.mem_filter.mpr ⟨hl, ?_⟩
    rw [hpaused, waitsOn_none hnone]
    decide
  generalize ls.filter (fun l => s.lastState l == lstPaused && !s.waitsOn l) = ks at heq hin
  have hctx (v : State) : Foot 0x100000000000000000000000000000000000000000000000000010000000000000000000000000 v
      (v.each xs State.resumeCtx) := each_foot' (Foot.refl _ v) fun w x hw => resumeCtx_foot (Sub.refl _) hw
  rw [heq]
  constructor
  · refine ((hctx _).rd _ _ _ (by decide)).trans ?_
    refine each_establishes (P := fun v => v.lastState l = lstActive) hin (fun v => ?_) (fun v k hv => ?_) s
    · rw [resumeLast_lastState, if_pos rfl]
    · rw [resumeLast_lastState, hv]
      exact ite_self _
  · refine ((hctx _).rd _ _ _ (by decide)).trans ?_
    exact List.foldlRecOn (motive := fun v : State => v.rd F.CKP_LAST_STAT_STATE l = ckpIdle) ks _ hidle fun v hv k _ =>
      resumeLast_idle hv k

/-! The whole rollback. -/

theorem rolledBack_foot (s : State) (l : Nat) (r : Recovery) (bad : Option Nat) :
    Foot recoveredFoot (s.imageRolled l r bad) (s.rolledBack l r bad) :=
  wr_foot (by decide) (setSpore_foot (show _ &&& recoveredFoot = _ by decide)
    (groupsProtected_foot ..))

theorem rolledBack_recovering (h : ∀ x ∈ s.coveredContexts l, s.ctxState x = ctxIdle ∨ s.ctxState x = ctxUndeclared)
    (r : Recovery) (bad : Option Nat) : ((s.rolledBack l r bad).sporeLast l).recovering =
      (none, (s.sporeLast l).anyClosed && r.full.isNone) := by
  have hkept : ((s.imageRolled l r bad).sporeLast l).anyClosed = (s.sporeLast l).anyClosed :=
    congrArg Prod.snd (imageRolled_recoveryKept h r bad l)
  unfold State.rolledBack
  rw [recovered_recovering, groupsProtected_sporeLast, hkept]

theorem rolledBack_noneRecovers (h : ∀ x ∈ s.coveredContexts l, s.ctxState x = ctxIdle ∨ s.ctxState x = ctxUndeclared)
    (hothers : ∀ k ∈ s.lasts, k = l ∨ (s.sporeLast k).recovery = none) (r : Recovery) (bad : Option Nat) :
    ∀ k ∈ (s.rolledBack l r bad).lasts, ((s.rolledBack l r bad).sporeLast k).recovery = none := by
  have hlasts : (s.rolledBack l r bad).lasts = s.lasts := by
    unfold State.lasts
    simp (disch := decide) only [flag_eq, (rolledBack_foot s l r bad).rd, (imageRolled_foot s l r bad).rd]
  intro k hk
  rw [hlasts] at hk
  by_cases hkl : k = l
  · rw [hkl]
    exact congrArg Prod.fst (rolledBack_recovering h r bad)
  · unfold State.rolledBack
    rw [recovered_other hkl, groupsProtected_sporeLast]
    exact (congrArg Prod.fst (imageRolled_recoveryKept h r bad k)).trans ((hothers k hk).resolve_left hkl)

theorem rolledBack_idle (s : State) (l : Nat) (r : Recovery) (bad : Option Nat) :
    (s.rolledBack l r bad).rd F.CKP_LAST_STAT_STATE l = ckpIdle := rd_wr_same ..

theorem rolledBack_group (hg : g ∈ s.groups l) (r : Recovery) (bad : Option Nat) :
    (s.rolledBack l r bad).groupState l g = grpProtected ∧ (s.rolledBack l r bad).rd F.CKP_GROUP_STAT_LOST l g = 0 :=
  ⟨(rd_wr_other _ _ _ _ _ _ _ _ (by decide)).trans (groupsProtected_state hg),
    (rd_wr_other _ _ _ _ _ _ _ _ (by decide)).trans (groupsProtected_lost hg)⟩

/-- R368: what a last shows that has been rolled back and resumes. -/
theorem rolledBack_resumes (h : ∀ x ∈ s.coveredContexts l, s.ctxState x = ctxIdle ∨ s.ctxState x = ctxUndeclared)
    (hothers : ∀ k ∈ s.lasts, k = l ∨ (s.sporeLast k).recovery = none) (hpaused : s.lastState l = lstPaused) {ls : List Nat}
    (hl : l ∈ ls) {v : State} {r : Recovery} {bad : Option Nat} (hv : (s.rolledBack l r bad).resumeLasts ls = v) :
    ((v.sporeLast l).recovery = none ∧ (v.sporeLast l).anyClosed = ((s.sporeLast l).anyClosed && r.full.isNone)) ∧
    (∀ g ∈ s.groups l, v.groupState l g = grpProtected ∧ v.rd F.CKP_GROUP_STAT_LOST l g = 0) ∧
    v.rd F.CKP_EPOCH_DONE l = s.returnsTo l r % 2 ^ 32 ∧ v.lastState l = lstActive ∧ v.rd F.CKP_LAST_STAT_STATE l = ckpIdle := by
  subst hv
  have hroll := rolledBack_foot s l r bad
  have hresume := resumeLasts_foot (us := ls) (Sub.refl _) (Foot.refl _ (s.rolledBack l r bad))
  have hrecovering := (congrArg SporeLast.recovering (hresume.sporeLast (by decide) l)).trans (rolledBack_recovering h r bad)
  have hstate : (s.rolledBack l r bad).lastState l = lstPaused :=
    (hroll.rd _ _ _ (by decide)).trans (((imageRolled_foot s l r bad).rd _ _ _ (by decide)).trans hpaused)
  refine ⟨⟨congrArg Prod.fst hrecovering, congrArg Prod.snd hrecovering⟩, fun g hg => ?_, ?_,
    resumeLasts_resumes hl hstate (rolledBack_noneRecovers h hothers r bad) (rolledBack_idle s l r bad)⟩
  · obtain ⟨hprotected, hlost⟩ := rolledBack_group hg r bad
    exact ⟨(hresume.rd _ _ _ (by decide)).trans hprotected, (hresume.rd _ _ _ (by decide)).trans hlost⟩
  · rw [hresume.rd _ _ _ (by decide), hroll.rd _ _ _ (by decide), imageRolled_done]

end Sys2Proof.Machine
end

section
/-!
SUPPORT. A shard of a restore goes to its member (R369).
-/

namespace Sys2Proof.Machine

variable {s t u : State} {x l g i slot e : Nat} {r : Recovery}

/-! What is kept of the shards that have been sent. -/

/-- From `s` to `t` the groups keep the shards that have been sent. -/
structure SentKept (s t : State) : Prop where
  sent : ∀ k h, (t.groupRec k h).sent = (s.groupRec k h).sent

theorem SentKept.trans (h : SentKept s t) (h' : SentKept t u) : SentKept s u := ⟨fun k g => (h'.sent k g).trans (h.sent k g)⟩

theorem SentKept.of_groups (h : t.spore.groups = s.spore.groups) : SentKept s t := by
  refine ⟨fun k g => ?_⟩
  unfold State.groupRec
  rw [h]

theorem SentKept.of_foot {m : Nat} (h : Foot m s t) (hspore : m.testBit 310 = false) : SentKept s t :=
  .of_groups (congrArg SporeState.groups (h.spore hspore))

/-- A group is changed otherwise than in what it has sent. -/
theorem setGroup_sentKept (s : State) (k v : Nat) (f : GroupRec → GroupRec) (hf : ∀ q, (f q).sent = q.sent) :
    SentKept s (s.setGroup k v f) := by
  refine ⟨fun a b => ?_⟩
  by_cases hkey : [a, b] = [k, v]
  · obtain ⟨rfl, rfl⟩ : a = k ∧ b = v := by simpa using hkey
    rw [setGroup_groupRec, hf]
  · exact congrArg GroupRec.sent (SMap.get_upd_ne _ hkey _)

theorem setLost_sentKept (s : State) (k h : Nat) (ps : List Nat) : SentKept s (s.setLost k h ps) :=
  (setGroup_sentKept s k h (fun q => { q with lost := ps }) fun _ => rfl).trans (.of_groups rfl)

/-- R371: the regrowth or restore of a group that is done keeps what it has sent. -/
theorem closeRecovery_sentKept (s : State) (x : Nat) : SentKept s (s.closeRecovery x stDone) := by
  have hdone (v : State) (k h : Nat) : SentKept v ((v.setLost k h []).setGroup k h (fun q => { q with finished := true })) :=
    (setLost_sentKept v k h []).trans (setGroup_sentKept _ k h _ fun _ => rfl)
  unfold State.closeRecovery
  split
  · dsimp only
    rw [if_pos rfl]
    split
    · exact SentKept.trans (t := s.inc F.CKP_EVENTS_REGROWTHS) (.of_groups rfl) (hdone _ _ _)
    · exact hdone _ _ _
  · exact .of_groups rfl

theorem closeCount_sentKept (s : State) (x n l : Nat) : SentKept s (s.closeCount x n l stDone) := by
  have hbefore : ((((s.wr F.OPC_STATE_STATUS stDone x).sendRecords x stDone).countEnd x l stDone)).spore = s.spore := by
    rw [countEnd_spore, (sendRecords_foot (Sub.refl _) (Foot.refl _ _)).spore (by decide), wr_spore]
  have hafter (v : State) : SentKept v ((v.leaveOp x stDone).forgetSeqs x n) :=
    .of_groups (congrArg SporeState.groups (leaveOp_spore v x stDone))
  rw [closeCount_eq]
  exact (SentKept.of_groups (congrArg SporeState.groups hbefore)).trans ((closeRecovery_sentKept ..).trans (hafter _))

theorem closeLeft_sentKept (s : State) (x : Nat) : SentKept s (s.closeLeft x stDone) := by
  have halone : SentKept s (s.closeAlone x stDone) :=
    (((SentKept.of_groups (closeRelease_heldOnly ..).groups).trans
      (.of_foot (notEarly_foot (Sub.refl _) (Foot.refl _ _)) (by decide))).trans (closeCount_sentKept ..)).trans
      (.of_foot (closeAbort_foot (Sub.refl _) (Foot.refl _ _)) (by decide))
  unfold State.closeLeft
  split
  · exact halone.trans (.of_foot (keepEarly_foot (Sub.refl _) (Foot.refl _ _)) (by decide))
  · exact halone

/-- R155: an operation that settles, with nothing held for the next one, closes alone or not at all. -/
theorem work_settle_closes (he : s.noneEarly x) : s.work [.settle x] = (s.settleCore x).1 ∨
    s.work [.settle x] = (s.settleCore x).1.closeLeft x stDone := by
  obtain ⟨n, hwork⟩ := work_settle_fuel s x
  obtain ⟨hkept, hmore⟩ := settleCore_opKept s x
  rw [hwork, runWork_settle]
  rcases hmore with hnone | ⟨hclose, hflush⟩
  · rw [hnone]
    exact .inl (runWork_nil ..)
  · have hbegun : (s.settleCore x).1.begun x := by
      unfold State.begun
      rw [hflush]
      decide
    rw [hclose, List.append_nil, runWork_close, closeCore_alone hbegun (hkept.early.trans he) (.inl rfl)]
    dsimp only
    rw [List.append_nil, runWork_nil]
    exact .inr rfl

theorem work_settle_sentKept (he : s.noneEarly x) : SentKept s (s.work [.settle x]) := by
  have hsettle : SentKept s (s.settleCore x).1 := .of_foot (settleCore_foot (Sub.refl _) (Foot.refl _ s)) (by decide)
  rcases work_settle_closes he with h | h
  · rw [h]
    exact hsettle
  · rw [h]
    exact hsettle.trans (closeLeft_sentKept ..)

/-! The shard on its way (R218, R369). -/

/-- Fences that are only cleared leave the contexts' operations as they are. -/
theorem setFences_ctx {f : Nat → Bool} (h : ∀ p, f p = true → s.fenced p = true) : (s.setFences f).ctx = s.ctx := by
  have hnone : (List.range 256).filter (fun p => f p && !s.fenced p) = [] := by
    refine List.filter_eq_nil_iff.mpr fun p _ hp => ?_
    obtain ⟨hf, hnot⟩ := Bool.and_eq_true_iff.mp hp
    rw [h p hf] at hnot
    exact absurd hnot (by decide)
  have hwords : (s.fenceWords f).ctx = s.ctx :=
    (each_keeps _ State.ctx fun _ _ _ => wr_ctx ..).trans (each_keeps _ State.ctx fun v _ _ =>
      (noteWas_foot (m := 0) (Foot.refl _ v)).ctx (Nat.zero_testBit _))
  unfold State.setFences
  dsimp only
  rw [hnone]
  split
  · rfl
  · show (((((s.fenceWords f).fenceCount.syncFenced).each _ State.fenceDown).each [] State.fenceUp).syncFailing).ctx = _
    rw [(syncFailing_foot (Sub.refl _) (Foot.refl _ _)).ctx (by decide), each_nil,
      each_keeps _ State.ctx fun v p _ => (fenceDown_foot (Sub.refl _) (Foot.refl _ v)).ctx (by decide),
      (syncFenced_foot (Sub.refl _) (Foot.refl _ _)).ctx (by decide), (fenceCount_foot (Sub.refl _) (Foot.refl _ _)).ctx (by decide),
      hwords]

theorem unfenceLost_ctx (s : State) (l g : Nat) : (s.unfenceLost l g).ctx = s.ctx := by
  unfold State.unfenceLost State.unfence
  exact setFences_ctx fun p hp => (Bool.and_eq_true_iff.mp hp).1

/-- A chunk of the shard of a rank goes on its way in context x, or waits for a buffer. -/
def State.sendShard (s : State) (x l g i slot rank port c : Nat) : State :=
  let data := s.sporeRead (s.shardGranule l g i c slot)
  let h : SwHeader := { skind := skResult, context := x, opnum := s.opnum x, chunk := c, rank, length := data.length }
  match s.allocNow (.swatch h data) 19 (reqMem (c % 4)) with
  | (some p, s) => s.pushShard x rank p (dieOfPort port) data
  | (none, s) =>
    let (v, s) := s.fresh
    let s := s.setOp x (fun o => { o with made := o.made + 1 })
    s.request (reqMem (c % 4)) 19 (.swatch h data) (.forward port port (1 + v % 7))

theorem pushShard_noneEarly (s : State) (x rank p die : Nat) (data : List Byte) (h : s.noneEarly x) :
    (s.pushShard x rank p die data).noneEarly x := by
  unfold State.pushShard
  dsimp only
  refine noneEarly_of_ctx ?_ (noneEarly_setOp (s := s.fresh.2) (x := x) (y := x)
    (f := fun o => { o with made := o.made + 1 }) id (noneEarly_of_ctx (fresh_ctx s) h))
  rw [pushVoq_ctx, (addRefs_foot (Sub.refl _) (Foot.refl _ _)).ctx (by decide), countWrite_ctx]

/-- A shard that goes on its way leaves the spore sets, and nothing held for the context's next operation. -/
theorem sendShard_kept (s : State) (x l g i slot rank port c : Nat) : (s.sendShard x l g i slot rank port c).spore = s.spore ∧
    (s.noneEarly x → (s.sendShard x l g i slot rank port c).noneEarly x) := by
  unfold State.sendShard
  dsimp only
  split
  · next p v heq =>
    have halloc := allocNow_foot_eq (Sub.refl _) heq (Foot.refl _ s)
    exact ⟨((pushShard_foot (Sub.refl _) (Foot.refl _ v)).spore (by decide)).trans (halloc.spore (by decide)),
      fun h => pushShard_noneEarly v _ _ _ _ _ (noneEarly_of_ctx (halloc.ctx (by decide)) h)⟩
  · next v heq =>
    have halloc := allocNow_foot_eq (Sub.refl _) heq (Foot.refl _ s)
    refine ⟨?_, fun h => ?_⟩
    · exact halloc.spore (by decide)
    · exact noneEarly_setOp (s := v.fresh.2) (f := fun o => { o with made := o.made + 1 }) id
        (noneEarly_of_ctx (halloc.ctx (by decide)) h)

/-- The conditions of a read of the shard of position i of group g (R369). -/
structure ShardReads (s : State) (l g i slot x : Nat) : Prop where
  full : ∃ e, (s.sporeLast l).recovery.bind Recovery.full = some (e, slot)
  restoring : s.groupState l g = grpRestoring
  opened : (s.groupRec l g).opened = true
  unsent : (s.groupRec l g).sent.contains i = false
  within : i < s.rd F.CKP_GROUP_SIZE l g
  present : s.flag F.LST_MEMBER_PRESENT l (s.rd F.CKP_GROUP_BASE l g + i) = true
  tier : s.tierUp = true
  context : s.rd F.CKP_GROUP_REGROW_CTX l g = x
  flush : s.ctxState x = ctxFlush

/-- No granule of the shard of position i of group g returns poison (R416). -/
def State.shardSound (s : State) (l g i slot : Nat) : Prop :=
  (List.range (s.rd F.CKP_GROUP_SHARD_CHUNKS l g)).all (fun c =>
    !s.poisoned (s.sporeAt (s.shardGranule l g i c slot)).1 (s.sporeAt (s.shardGranule l g i c slot)).2) = true

/-- The shard's chunks go on their way, and its member has been sent to. -/
def State.shardSent (s : State) (x l g i slot rank port chunks : Nat) : State :=
  (s.each (List.range chunks) (fun v c => v.sendShard x l g i slot rank port c)).setGroup l g
    (fun k => { k with sent := k.sent ++ [i] })

theorem shardRead_poisoned (h : ShardReads s l g i slot x) (port : Nat) :
    s.shardRead l g i (some port) = s.inc F.MEM_CXL_ERR_POISON 1 port := by
  obtain ⟨⟨e, hfull⟩, hrestoring, hopened, hunsent, hwithin, hpresent, htier, rfl, hflush⟩ := h
  unfold State.groupRec at hopened hunsent
  unfold State.shardRead
  dsimp only
  rw [hfull]
  dsimp only
  rw [hrestoring, hopened, hunsent, decide_eq_false (Nat.not_le.mpr hwithin), hpresent, htier, hflush, if_neg (by decide)]
  rfl

theorem shardRead_sends (h : ShardReads s l g i slot x) (hsound : s.shardSound l g i slot) :
    ∃ rank port chunks, s.shardRead l g i none =
      ((s.unfenceLost l g).shardSent x l g i slot rank port chunks).work [.settle x] := by
  obtain ⟨⟨e, hfull⟩, hrestoring, hopened, hunsent, hwithin, hpresent, htier, rfl, hflush⟩ := h
  have hnone : ((List.range (s.rd F.CKP_GROUP_SHARD_CHUNKS l g)).map (fun c => s.sporeAt (s.shardGranule l g i c slot))).find?
      (fun a => s.poisoned a.1 a.2) = none := by
    refine List.find?_eq_none.mpr fun a ha hpoison => ?_
    obtain ⟨c, hc, rfl⟩ := List.mem_map.mp ha
    have hc' := List.all_eq_true.mp hsound c hc
    rw [hpoison] at hc'
    exact absurd hc' (by decide)
  unfold State.groupRec at hopened hunsent
  unfold State.shardRead
  dsimp only
  rw [hfull]
  dsimp only
  rw [hrestoring, hopened, hunsent, decide_eq_false (Nat.not_le.mpr hwithin), hpresent, htier, hflush, if_neg (by decide), hnone]
  exact ⟨_, _, _, rfl⟩

theorem shardSent_kept (s : State) (x l g i slot rank port chunks : Nat) :
    ((s.shardSent x l g i slot rank port chunks).groupRec l g).sent = (s.groupRec l g).sent ++ [i] ∧
    (s.noneEarly x → (s.shardSent x l g i slot rank port chunks).noneEarly x) := by
  have hspore : (s.each (List.range chunks) (fun v c => v.sendShard x l g i slot rank port c)).spore = s.spore :=
    each_keeps s State.spore fun v c _ => (sendShard_kept v ..).1
  unfold State.shardSent
  refine ⟨?_, fun h => ?_⟩
  · rw [setGroup_groupRec, groupRec_congr hspore]
  · exact List.foldlRecOn (motive := fun v : State => v.noneEarly x) (List.range chunks) _ h fun v hv c _ =>
      (sendShard_kept v ..).2 hv

/-- R369: a shard that has been read is one that its group has sent. -/
theorem shardRead_sent (h : ShardReads s l g i slot x) (hearly : s.noneEarly x)
    (hsound : s.shardSound l g i slot) :
    ((s.shardRead l g i none).groupRec l g).sent = (s.groupRec l g).sent ++ [i] := by
  obtain ⟨rank, port, chunks, heq⟩ := shardRead_sends h hsound
  obtain ⟨hsent, hearly'⟩ := shardSent_kept (s.unfenceLost l g) x l g i slot rank port chunks
  have hbefore : (s.unfenceLost l g).groupRec l g = s.groupRec l g :=
    groupRec_congr ((unfenceLost_footed s l g).spore (by decide)) l g
  rw [heq, (work_settle_sentKept (hearly' (noneEarly_of_ctx (unfenceLost_ctx s l g) hearly))).sent, hsent, hbefore]

end Sys2Proof.Machine
end

section
/-!
PROOFS. The failure of members, and the recovery of lasts (R362, R363, R365, R368, R369).
-/

namespace Sys2Proof.Machine

/-- Settles O60: each command by what it comes to where its conditions are met: the stages it goes through, and what each of them
leaves alone. -/
theorem membersFailAndLastsRecover : Obligations.MembersFailAndLastsRecover := by
  unfold Obligations.MembersFailAndLastsRecover
  refine ⟨?failed, ?waits, ?regrowth, ?rollback, ?lost, ?restore, ?shard, ?poison⟩
  case failed =>
    intro s p u since hs hp hsince ha hl hused hdue
    exact ⟨_, onActive_eq (f := fun s => (s.memberFailed p).settleAll) (decide_eq_true hp) hs,
      memberFailed_pauses hp hsince ha (List.contains_iff_mem.mp hl) hused hdue⟩
  case waits =>
    intro s p since hs hp hsince hdue
    exact ⟨_, onActive_eq (f := fun s => (s.memberFailed p).settleAll) (decide_eq_true hp) hs, memberFailed_waits hsince hdue⟩
  case regrowth =>
    intro s u g hs hu hg hvalid hwait hpresent hidle hbeyond
    exact ⟨_, onActive_eq (f := fun s => (s.regrowthStart u g).settleAll) (decide_eq_true ⟨hu, hg⟩) hs,
      regrowthStart_regrows hvalid hwait hpresent rfl hidle hbeyond⟩
  case rollback =>
    intro s u r bad hs hu hr hactive hdone hidle hothers hpaused
    have hcovered : ∀ x ∈ s.coveredContexts u, s.ctxState x = ctxIdle ∨ s.ctxState x = ctxUndeclared := fun x hx => by
      simpa only [Bool.or_eq_true, beq_iff_eq] using List.all_eq_true.mp hidle x hx
    have hnone : ∀ k ∈ s.lasts, k = u ∨ (s.sporeLast k).recovery = none := fun k hk => by
      simpa only [Bool.or_eq_true, beq_iff_eq] using List.all_eq_true.mp hothers k hk
    have hin : u ∈ (u :: r.paused).eraseDups := List.mem_eraseDups.mpr List.mem_cons_self
    refine ⟨_, (onActive_eq (f := fun s => (s.rollback u bad).settleAll) (decide_eq_true hu) hs).trans
      (by rw [rollback_eq hr rfl hactive hdone]), rolledBack_resumes hcovered hnone hpaused hin rfl⟩
  case lost =>
    intro s u r hs hu hr hfull hbeyond hnone
    exact ⟨_, onActive_eq (f := fun s => (s.restoreStart u).settleAll) (decide_eq_true hu) hs,
      restoreStart_loses hr hfull hbeyond hnone⟩
  case restore =>
    intro s u r hs hu hr hfull hbeyond hsome hpresent hidle
    exact ⟨_, onActive_eq (f := fun s => (s.restoreStart u).settleAll) (decide_eq_true hu) hs,
      restoreStart_fallsBack hr hfull hbeyond hsome hpresent hidle⟩
  case shard =>
    intro s u g i slot z r hs hu hg hr hfull hrestoring hopened hunsent hwithin hpresent htier hflush hearly hsound
    have hread : ShardReads s u g i slot (s.rd F.CKP_GROUP_REGROW_CTX u g) :=
      ⟨⟨z, by rw [hr]; exact hfull⟩, hrestoring, hopened, hunsent, hwithin, hpresent, htier, rfl, hflush⟩
    exact ⟨_, onActive_eq (f := fun s => (s.shardRead u g i none).settleAll) (decide_eq_true ⟨hu, hg⟩) hs,
      shardRead_sent hread hearly hsound⟩
  case poison =>
    intro s u g i port slot z r hs hu hg hr hfull hrestoring hopened hunsent hwithin hpresent htier hflush
    have hread : ShardReads s u g i slot (s.rd F.CKP_GROUP_REGROW_CTX u g) :=
      ⟨⟨z, by rw [hr]; exact hfull⟩, hrestoring, hopened, hunsent, hwithin, hpresent, htier, rfl, hflush⟩
    refine ⟨_, onActive_eq (f := fun s => (s.shardRead u g i (some port)).settleAll) (decide_eq_true ⟨hu, hg⟩) hs, ?_⟩
    rw [shardRead_poisoned hread]
    exact ⟨rd_inc_same .., rfl⟩

end Sys2Proof.Machine
end
